-- ==== Sys2Proof/Word.lean ====
section
/-!
DEFINITION. The words of the OT6250: byte and field widths, partitions, byte strings, and the plainest arithmetic on them.
Multi-byte fields are little-endian (01_architecture.md and 00_scope.md, R9).
-/

namespace Sys2Proof

abbrev Byte := BitVec 8
abbrev U8 := BitVec 8
abbrev U16 := BitVec 16
abbrev U24 := BitVec 24
abbrev U32 := BitVec 32
abbrev U40 := BitVec 40
abbrev U48 := BitVec 48
abbrev U56 := BitVec 56
abbrev U64 := BitVec 64

/-- A host partition HP0 to HP3 (R2, Table 0.1). -/
abbrev HP := Fin 4

/-- A string of bytes, first byte first. -/
abbrev Bytes := List Byte

/-- The `k` low bytes of a number, least significant first (R9). -/
def leBytes : Nat → Nat → Bytes
  | 0, _ => []
  | k + 1, n => BitVec.ofNat 8 n :: leBytes k (n / 256)

/-- The number that bytes spell, least significant first (R9). -/
def leNat : Bytes → Nat
  | [] => 0
  | b :: bs => b.toNat + 256 * leNat bs

/-- The number that bytes spell, most significant first (the wire order of C37.118, RTP, PTP and GOOSE, R9). -/
def beNat (bs : Bytes) : Nat := bs.foldl (fun acc b => acc * 256 + b.toNat) 0

/-- The `k` low bytes of a number, most significant first. -/
def beBytes (k n : Nat) : Bytes := (leBytes k n).reverse

/-- The two's-complement field of `k` bytes that holds an integer, least significant byte first. -/
def leInt (k : Nat) (i : Int) : Bytes := leBytes k (i % (2 ^ (8 * k) : Int)).toNat

/-- An integer confined to a range. -/
def clampInt (lo hi x : Int) : Int := if x < lo then lo else if hi < x then hi else x

/-- A number that sticks at its largest value. -/
def satAdd (mx a b : Nat) : Nat := if mx < a + b then mx else a + b

/-- Integer division rounded to nearest, halves upward. -/
def divRound (a b : Nat) : Nat := (2 * a + b) / (2 * b)

/-- The magnitude of the difference of two numbers. -/
def absDiff (a b : Nat) : Nat := (a - b) + (b - a)

end Sys2Proof
end

