-- ==== Sys2Proof/Payload/Device.lean ====
section
/-!
DEFINITION. The operands of the commands and events of groups 0x01, 0x02 and 0x03: the VCI header (Table 2.5), the payloads of
Tables 2.9, 3.10 and 18.8, and what the boot sequence and the time inputs deliver (chapters 03 and 18).
A reserved field stands in its payload as `rsv`, so that a nonzero one can be refused (R10).
-/

namespace Sys2Proof

/-- The header of a VCI message as the host wrote it (Table 2.5), with the mailbox it was written in. The opcode is the command itself. -/
structure Hdr where
  /-- The partition whose BAR0 holds the mailbox. -/
  part : HP
  /-- The mailbox: true for MBX_U, false for MBX_N. -/
  urg : Bool
  /-- Word 0 [31:16]. -/
  length : U16
  /-- Word 1. -/
  tag : U32
  /-- Word 2 [3:0]. -/
  hpart : BitVec 4
  /-- Word 2 [8]. -/
  hurgent : Bool
  /-- Word 2 [9]. -/
  hcontrol : Bool
  /-- Word 2 [7:4] and [31:10]. -/
  rsv : BitVec 26
  deriving DecidableEq, Repr

structure CounterClearP where
  group : U8
  scope : U8
  rsv : U16
  offset : U32
  deriving DecidableEq, Repr

structure SnapshotP where
  groups : U32
  windowed : U32
  expiryMs : U32
  rsv : U32
  deriving DecidableEq, Repr

structure ApertureWindowP where
  group : U8
  table : U8
  rsv : U16
  first : U32
  deriving DecidableEq, Repr

structure DeviceResetP where
  confirm : U32
  image : U8
  rsv : U24
  deriving DecidableEq, Repr

structure HeartbeatP where
  hostSeq : U32
  rsv : U32
  deriving DecidableEq, Repr

structure ClaimSetP where
  partition : U8
  claim : U8
  rsv : U16
  deriving DecidableEq, Repr

structure ClaimYieldP where
  claim : U8
  rsv : U24
  deriving DecidableEq, Repr

structure ApportionP where
  partition : U8
  rsv : U24
  streams : U32
  channels : U32
  voiceSlots : U32
  publications : U32
  dmaRings : U32
  captureRings : U32
  userCores : U32
  deriving DecidableEq, Repr

structure PartitionTimersP where
  failMs : U16
  holdoffMs : U16
  hbpFitted : U8
  rsv : U24
  deriving DecidableEq, Repr

structure DmaRingSetupP where
  ring : U8
  dir : U8
  rsv : U16
  entries : U32
  base : U64
  deriving DecidableEq, Repr

structure DmaRingRetireP where
  ring : U8
  rsv : U24
  deriving DecidableEq, Repr

/-- A DMA descriptor as the host filled or posted it (Table 2.16): address, length, FIRST, LAST and INT flags. -/
structure Desc where
  addr : U64
  len : U32
  first : Bool
  last : Bool
  int : Bool
  deriving DecidableEq, Repr

/-- What the hardware finds while it boots (Table 18.2): the inputs of the boot stages. -/
structure BootIn where
  /-- A core, timebase or SerDes PLL fails to lock (halt code 0x7). -/
  pllOk : Bool
  /-- The OTP factory area passes its CRC (halt code 0x1). -/
  otpOk : Bool
  /-- Flash size detected, MiB; 0 where none is found. -/
  flashMib : U16
  /-- Boot directory copies 0 and 1 verify. -/
  dir0 : Bool
  dir1 : Bool
  /-- Firmware images A and B verify against the factory key digests. -/
  imgA : Bool
  imgB : Bool
  /-- DRAM training succeeds on both channels. -/
  trainOk : Bool
  /-- DRAM installed on channels A and B, MiB. -/
  dramA : U32
  dramB : U32
  /-- The newer and the older stored configuration copy verify. -/
  cfgNew : Bool
  cfgOld : Bool
  /-- Metering points whose seal digests do not match (R296). -/
  sealBad : U16
  /-- Record slots found torn, and those of them behind the last record (R438). -/
  torn : U16
  tornEnd : U16
  deriving DecidableEq, Repr

structure TimeSourceConfigP where
  srcEn : U8
  pair : U8
  domain : U8
  classLimit : U8
  srcHoldoff : U16
  fMaster : U8
  rsv : U8
  deriving DecidableEq, Repr

structure TimeSlewConfigP where
  slewPpm : U16
  rsv : U16
  alertUs : U32
  deriving DecidableEq, Repr

structure TimeHoldoverConfigP where
  holdPpb : U16
  e0Ns : U16
  deriving DecidableEq, Repr

structure TimeUtcOffsetP where
  utcOffset : U16
  leap : U8
  rsv : U8
  leapTaiS : U64
  deriving DecidableEq, Repr

structure TimeStepP where
  mode : U8
  rsv : U24
  taiS : U64
  taiNs : U32
  deltaNs : U64
  deriving DecidableEq, Repr

structure GaConfigP where
  refEn : U8
  refMp : U8
  fNom : U8
  gaSlew : U8
  deriving DecidableEq, Repr

structure PpsOutConfigP where
  enable : U8
  rsv : U8
  widthMs : U16
  deriving DecidableEq, Repr

/-- A PTP Announce message as received (IEEE 1588, R81). -/
structure AnnounceMsg where
  domain : U8
  gmId : U64
  priority1 : U8
  gmClass : U8
  gmAccuracy : U8
  gmVariance : U16
  priority2 : U8
  stepsRemoved : U16
  /-- The sourcePortIdentity: clockIdentity and port number. -/
  srcId : U64
  srcPort : U16
  ptpTimescale : Bool
  utcValid : Bool
  utcOffset : U16
  leap59 : Bool
  leap61 : Bool
  /-- The TLVs after the message: type, and the octets of the value. -/
  tlvs : List (U16 × Bytes)
  deriving DecidableEq, Repr

/-- A Sync, with its Follow_Up where two-step: origin time plus corrections, and how long ago it was received. -/
structure SyncMsg where
  domain : U8
  srcId : U64
  srcPort : U16
  /-- preciseOriginTimestamp, TAI. -/
  originS : U48
  originNs : U32
  /-- Sum of the correction fields, ns. -/
  correctionNs : U32
  /-- Nanoseconds of device time since the Sync's timestamp point (0 for one-step). -/
  ageNs : U32
  deriving DecidableEq, Repr

/-- One IRIG-B frame (R86): what it carries and how long ago its on-time point was. -/
structure IrigFrame where
  /-- No parity or framing fault. -/
  good : Bool
  seconds : U8
  minutes : U8
  hours : U8
  /-- Day of year, 1 to 366. -/
  day : U16
  /-- The two-digit year, as a number, where the format carries it (B004 to B007). -/
  year : Option U8
  /-- Straight binary seconds of day, where the format carries them. -/
  sbs : Option U32
  /-- The IEEE 1344 control-function extension: local offset in half hours (signed), leap pending, direction (true: deletion). -/
  ext : Option (U8 × Bool × Bool)
  /-- Its two-digit year and its time quality code, where it gives them. -/
  extYear : Option U8
  extTq : Option (BitVec 4)
  /-- UTC offset (TAI − UTC) the extension gives, where it does. -/
  extUtc : Option U16
  ageNs : U32
  deriving DecidableEq, Repr

end Sys2Proof
end

