-- ==== Sys2Proof/Payload/Net.lean ====
section
/-!
DEFINITION. The operands of the commands and events of groups 0x04 and 0x05: network ports, PRP pairs, stream ingest
(Tables 4.13 and 5.10), and the frames those chapters receive (04_network_ports.md and 05_stream_ingest.md).
-/

namespace Sys2Proof

structure PortConfigP where
  port : U8
  enable : U8
  speed : U8
  fec : U8
  rgmiiId : U8
  rsv : U8
  maxFrame : U16
  rxLatNs : U16
  txLatNs : U16
  thrC3 : U8
  thrC2 : U8
  thrC1 : U8
  rsv2 : U8
  deriving DecidableEq, Repr

structure PrpConfigP where
  pair : U8
  rsv : U8
  forgetMs : U16
  skewAlertMs : U16
  lanSilenceMs : U16
  deriving DecidableEq, Repr

structure PortTxBindP where
  ring : U8
  reportRing : U8
  target : U8
  rsv : U8
  deriving DecidableEq, Repr

/-- The key of a stream (R150): transport, IDCODE or APPID, source address and port, destination port. -/
structure StreamKey where
  transport : U8
  idcode : U16
  srcAddr : BitVec 128
  srcPort : U16
  dstPort : U16
  deriving DecidableEq, Repr

/-- What a received frame carries, as far as classification needs it (Table 4.5). -/
inductive FrameKind where
  | pause
  | ptp
  | supervision
  | sv
  /-- A C37.118 frame and whether it is a data frame, with its key. -/
  | c37 (key : StreamKey) (data : Bool)
  | udp (dstPort : U16)
  | tcp (dstPort : U16)
  /-- A fragment of an IP datagram (R139). -/
  | fragment
  | other
  deriving DecidableEq, Repr

/-- A frame as a MAC receives it (R105 to R109). -/
structure RxFrame where
  port : BitVec 4
  /-- Bytes from the destination address to the FCS (R107). -/
  len : U16
  fcsOk : Bool
  /-- COL asserted during reception. -/
  col : Bool
  dst : U48
  src : U48
  kind : FrameKind
  /-- A valid RCT: its sequence number, and its LanId (true: LAN B) (R113). -/
  rct : Option (U16 × Bool)
  /-- A word of it fails parity on reading (R134): how many. -/
  poison : U16
  /-- Its consumer was free to begin reading it before its status was written, and does so once the cut-through threshold allows (R136). -/
  begun : Bool
  deriving DecidableEq, Repr

/-- A host frame read from a bound ring (R128): the transmit header of Table 4.7 and the frame. -/
structure HostFrame where
  launchNs : U64
  flags : U16
  frameLen : U16
  rsv : U32
  /-- The frame from destination address to payload. -/
  frame : Bytes
  /-- How many words of it arrive poisoned (R67, R134). -/
  poison : U16
  deriving DecidableEq, Repr

structure StreamAddP where
  transport : U8
  port : U8
  idcode : U16
  srcAddr : BitVec 128
  srcPort : U16
  dstPort : U16
  level : U8
  cfgPolicy : U8
  start : U8
  rsv : U8
  maxChannels : U16
  svRate : U16
  deriving DecidableEq, Repr

structure StreamChangeP where
  handle : U32
  level : U8
  cfgPolicy : U8
  pause : U8
  rsv : U8
  maxChannels : U16
  rsv2 : U16
  deriving DecidableEq, Repr

structure StreamRetireP where
  handle : U32
  deriving DecidableEq, Repr

structure StreamCfgAcceptP where
  handle : U32
  cfgCnt : U16
  rsv : U16
  deriving DecidableEq, Repr

structure StreamRequestP where
  handle : U32
  cmd : U8
  rsv : U24
  deriving DecidableEq, Repr

structure IngestConfigP where
  ctP : U8
  ctF : U8
  ctM : U8
  ctDma : U8
  silenceMs : U16
  rsv : U16
  deriving DecidableEq, Repr

/-- A conversion factor num / den of PHUNIT, ANUNIT, PHSCALE or ANSCALE (R146). -/
structure Scale where
  num : Int
  den : Nat
  deriving DecidableEq, Repr, Inhabited

/-- A phasor channel of a configuration: current or voltage, its scale, its angle offset in rad, its CHNAM as a number, and the flag word that
PHSCALE carries beside them (CFG-3). -/
structure PhasorCfg where
  current : Bool
  scale : Scale
  angleOff : Scale
  name : Nat
  flags : U32
  deriving DecidableEq, Repr

structure AnalogCfg where
  scale : Scale
  offset : Scale
  name : Nat
  deriving DecidableEq, Repr

/-- What a CFG-3 gives of a PMU beside what a CFG-2 does: G_PMU_ID, PMU_LAT, PMU_LON, PMU_ELEV, SVC_CLASS, WINDOW and GRP_DLY. -/
structure Pmu3 where
  gPmuId : BitVec 128
  lat : U32
  lon : U32
  elev : U32
  svcClass : U8
  window : U32
  grpDly : U32
  deriving DecidableEq, Repr

/-- One PMU block of a C37.118 configuration. -/
structure PmuCfg where
  /-- STN as a number, and the block's IDCODE. -/
  stn : Nat
  idcode : U16
  /-- FORMAT: bit 0 polar, bit 1 phasors in floating point, bit 2 analogs in floating point, bit 3 frequency in floating point. -/
  format : BitVec 4
  phasors : List PhasorCfg
  analogs : List AnalogCfg
  /-- Digital words: the sixteen bit names taken together, as a number. -/
  digitals : List Nat
  /-- DIGUNIT of each digital word. -/
  digUnit : List U32
  fnom50 : Bool
  /-- The fields of a CFG-3; none in a CFG-2. -/
  cfg3 : Option Pmu3
  deriving DecidableEq, Repr

/-- A C37.118 configuration as compared under R142 (SOC, FRACSEC and CHK left out). -/
structure C37Cfg where
  timeBase : Nat
  blocks : List PmuCfg
  cfgCnt : U16
  /-- DATA_RATE, signed. -/
  dataRate : Int
  deriving DecidableEq, Repr

/-- What a read of a SECDED-protected directory entry shows: no error, one corrected, or one that cannot be corrected. -/
inductive EccRead where
  | clean | fixed | bad
  deriving DecidableEq, Repr

/-- The part of a C37.118 frame that every type carries, and how it arrived (R140). -/
structure C37Head where
  /-- Port k it arrived on; the frame's RCT where it carries a valid one, and the source MAC address. -/
  port : BitVec 4
  rct : Option (U16 × Bool)
  srcMac : U48
  key : StreamKey
  /-- Payload or record length, and FRAMESIZE. -/
  payloadLen : Nat
  frameSize : Nat
  /-- The leading SYNC byte is 0xAA, and its version. -/
  syncOk : Bool
  version : BitVec 4
  chkOk : Bool
  soc : U32
  /-- FRACSEC: the time quality byte and the 24-bit count. -/
  timeQuality : U8
  fracsec : U24
  /-- A word of the frame was poisoned (R137). -/
  poisoned : Bool
  /-- What reading the stream's directory entry shows of its ECC (R150). -/
  ecc : EccRead
  deriving DecidableEq, Repr

/-- A C37.118 data frame: the bytes between FRACSEC and CHK. -/
structure C37Data where
  head : C37Head
  body : Bytes
  /-- Positions whose descriptor read with poison (R153). -/
  descPoison : List Nat
  deriving DecidableEq, Repr

/-- Which configuration frame arrived; a CFG-3 has its CONT_IDX: 0 where it is whole, 1 and up for the frames of one that is divided, and
0xFFFF for the last of them (R141). -/
inductive CfgKind where
  | cfg1 | cfg2 | cfg3 (contIdx : U16)
  deriving DecidableEq, Repr

structure C37CfgFrame where
  head : C37Head
  kind : CfgKind
  /-- The configuration; of a divided CFG-3, the one that its frames make together, with the last of them. -/
  cfg : C37Cfg
  deriving DecidableEq, Repr

structure C37Header where
  head : C37Head
  text : Bytes
  deriving DecidableEq, Repr

/-- A C37.118 command frame: CMD (1 off, 2 on, 3 header, 4 CFG-1, 5 CFG-2, 6 CFG-3), and whether it came to a wire publication. -/
structure C37Command where
  head : C37Head
  /-- Reserved frame types 6 and 7 also arrive by this row. -/
  frameType : BitVec 3
  cmd : U16
  deriving DecidableEq, Repr

/-- One IEC 61850-9-2 frame (R149): key, sample count, synchronisation, and the samples' validity. -/
structure SvFrame where
  port : BitVec 4
  appid : U16
  srcMac : U48
  smpCnt : U16
  smpSynch : U8
  /-- Samples per nominal cycle is 256 (eight ASDUs per frame) or 80 (one). -/
  rate256 : Bool
  /-- Of each ASDU, which of its values have invalid quality: four currents and four voltages. -/
  bad : List (List Bool)
  poisoned : Bool
  ecc : EccRead
  /-- Each ASDU's four currents (1 mA per LSB) and four voltages (10 mV per LSB). -/
  samples : List (List U32)
  deriving DecidableEq, Repr

/-- One 125 µs highway frame of one TDM highway as received (R313): 128 octets, and which were poisoned. -/
structure TdmIn where
  highway : BitVec 3
  octets : Bytes
  poisoned : List Nat
  /-- Words of the highway's ingress queue that its reader has not taken when the frame arrives (R132, R138). -/
  waiting : U16
  deriving DecidableEq, Repr

end Sys2Proof
end

