-- ==== Sys2Proof/Payload/Align.lean ====
section
/-!
DEFINITION. The payloads of group 0x06, the Clover aligner (Table 6.15 of 06_alignment.md).
-/

namespace Sys2Proof

structure GridConfigP where
  grid : U8
  spec16 : U8
  predK : U8
  rsv : U8
  windowMs : U16
  maxWaitMs : U16
  marginUs : U16
  rsv2 : U16
  patchGapUs : U32
  deriving DecidableEq, Repr

structure PubAddP where
  kind : U8
  grid : U8
  idcode : U16
  target : U8
  ring : U8
  options : U8
  level : U8
  dstAddr : BitVec 128
  dstPort : U16
  srcPort : U16
  offsetUs : U32
  nMembers : U16
  rsv : U16
  handles : List U32
  deriving DecidableEq, Repr

structure PubChangeP where
  pub : U16
  enable : U8
  options : U8
  offsetUs : U32
  nMembers : U16
  rsv : U16
  handles : List U32
  deriving DecidableEq, Repr

structure PubRetireP where
  pub : U16
  rsv : U16
  deriving DecidableEq, Repr

end Sys2Proof
end

