-- ==== Sys2Proof/Payload/Osc.lean ====
section
/-!
DEFINITION. The payloads of group 0x07, oscillation screening and mode estimation (Table 7.14 of 07_oscillation.md).
Opcodes whose payload carries an add or remove operation are rows of their own; the operation byte is the row.
-/

namespace Sys2Proof

structure OscScreenConfigP where
  thrOnDb : U8
  thrOffDb : U8
  baseShift : U8
  bandMask : U8
  warmS : U16
  rsv : U16
  floorF : U32
  floorRocof : U32
  floorRel : U32
  deriving DecidableEq, Repr

structure OscEstConfigP where
  swapDb : U8
  windowS : U8
  holdS : U16
  zetaSdMax : U8
  convCycles : U8
  groupDf : U8
  groupDzeta : U8
  defMinKw : U32
  deriving DecidableEq, Repr

structure OscAlarmConfigP where
  enables : U8
  zetaThr : U8
  zetaHyst : U8
  forcedZeta : U8
  dampPersistS : U16
  ampPersistS : U16
  forcedPersistS : U16
  clearS : U16
  ampF : U32
  ampRocof : U32
  ampRel : U32
  deriving DecidableEq, Repr

/-- OSC-WATCH after its op byte. -/
structure OscWatchP where
  rsv : U24
  chan : U32
  deriving DecidableEq, Repr

/-- OSC-BRANCH after its op byte. -/
structure OscBranchP where
  rsv : U8
  branch : U16
  vChan : U32
  iChan : U32
  deriving DecidableEq, Repr

structure OscRelearnP where
  scope : U8
  rsv : U24
  id : U32
  deriving DecidableEq, Repr

structure OscOutputBindP where
  ring : U8
  outDiv : U8
  rsv : U16
  deriving DecidableEq, Repr

end Sys2Proof
end

