-- ==== Sys2Proof/Payload/Alarm.lean ====
section
/-!
DEFINITION. The payloads of group 0x08, clustering, islanding and the alarm stage (Table 8.15 of 08_islanding_alarms.md), and the
alarm frame received from another unit (Table 8.5). The operation byte of an opcode split into rows is the row.
-/

namespace Sys2Proof

structure ClusterConfigP where
  grid : U8
  fNom : U8
  windowMs : U16
  joinMhz : U8
  leaveMhz : U8
  mergeMhz : U8
  minMembers : U8
  obsPct : U8
  usablePct : U8
  rsv : U16
  deriving DecidableEq, Repr

/-- BUS-SIGNAL after its op byte. -/
structure BusSignalP where
  rsv : U8
  index : U16
  fChan : U32
  aChan : U32
  deriving DecidableEq, Repr

structure ClusterRefP where
  /-- Eight bus signal indices. -/
  ref : List U16
  deriving DecidableEq, Repr

/-- BREAKER-MAP after its op byte. -/
structure BreakerMapP where
  bit : U8
  entry : U16
  chan : U32
  sigA : U16
  sigB : U16
  closed : U8
  rsv : U24
  deriving DecidableEq, Repr

structure DetectorConfigP where
  enables : U8
  rsv : U8
  unobsClearS : U16
  divMhz : U16
  divHystMhz : U16
  islandConfMs : U16
  islandClearMs : U16
  rocofMhzs : U16
  rocofSpanMs : U16
  rocofConfMs : U16
  rocofClearMs : U16
  fexcLoMhz : U16
  fexcHiMhz : U16
  fexcConfMs : U16
  fexcClearMs : U16
  angThrCdeg : U16
  angHystCdeg : U16
  angConfMs : U16
  angClearMs : U16
  deriving DecidableEq, Repr

/-- ALARM-MAP after its op byte. -/
structure AlarmMapP where
  rsv : U8
  entry : U16
  first : U16
  last : U16
  stages : U16
  rsv2 : U16
  deriving DecidableEq, Repr

structure AlarmStageP where
  stage : U8
  enable : U8
  mode : U8
  flags : U8
  minOnMs : U16
  rsv : U16
  offsetUs : U32
  frameTarget : U8
  rsv2 : U8
  dstPort : U16
  dstAddr : BitVec 128
  srcPort : U16
  rsv3 : U16
  deriving DecidableEq, Repr

structure AlarmAckP where
  stages : U16
  rsv : U16
  deriving DecidableEq, Repr

/-- ALARM-TEST without its level byte. -/
structure AlarmTestP where
  stage : U8
  durationMs : U16
  deriving DecidableEq, Repr

structure AlarmFrameConfigP where
  sourceId : U16
  rep : U8
  repMs : U8
  refreshMs : U16
  rxPort : U16
  deriving DecidableEq, Repr

structure AlarmGooseConfigP where
  stage : U8
  target : U8
  appid : U16
  vlan : U16
  tMinMs : U16
  tMaxMs : U16
  dstMac : U48
  gocbRef : Bytes
  datSet : Bytes
  goId : Bytes
  deriving DecidableEq, Repr

/-- An alarm frame received from another unit (Table 8.5, R229). -/
structure AlarmRx where
  port : BitVec 4
  len : U16
  magic : U32
  version : U8
  kind : U8
  stage : U8
  claim : U8
  alarm : U16
  sourceId : U16
  seq : U32
  evTs : U64
  flags : U16
  poisoned : Bool
  deriving DecidableEq, Repr

end Sys2Proof
end

