-- ==== Sys2Proof/Payload/Capture.lean ====
section
/-!
DEFINITION. The payloads of group 0x09, disturbance capture and Halga records (Table 9.17 of 09_capture_records.md), and what the
capture engine takes in: rows, remote-trigger frames (Table 9.4) and imported records.
-/

namespace Sys2Proof

/-- A lane of CAPTURE-ADD. -/
structure LaneP where
  kind : U8
  rate : U8
  maxSources : U16
  rsv : U32
  deriving DecidableEq, Repr

structure CaptureAddP where
  mode : U8
  nLanes : U8
  level : U8
  slots : U8
  preMs : U32
  postMs : U32
  patchHoldMs : U16
  streamRing : U8
  exportRing : U8
  exportFmt : U8
  refLane : U8
  refPos : U16
  rsv : U32
  lanes : List LaneP
  deriving DecidableEq, Repr

/-- An entry of CAPTURE-SOURCES. -/
structure SourceP where
  source : U32
  dir : U8
  rsv : U24
  deriving DecidableEq, Repr

structure CaptureSourcesP where
  capture : U8
  lane : U8
  n : U16
  rsv : U32
  entries : List SourceP
  deriving DecidableEq, Repr

structure CaptureTriggerSetP where
  capture : U8
  entry : U8
  kind : U8
  dir : U8
  lane : U8
  flags : U8
  pos : U16
  level : U32
  hyst : U32
  param : U64
  holdoffMs : U32
  rsv : U32
  deriving DecidableEq, Repr

/-- CAPTURE-ARM without its arm byte, which the row gives. -/
structure CaptureArmP where
  capture : U8
  rsv : U16
  deriving DecidableEq, Repr

structure CaptureTriggerP where
  capture : U8
  flags : U8
  rsv : U48
  tTrig : U64
  deriving DecidableEq, Repr

structure CaptureRecordFreeP where
  capture : U8
  slot : U8
  rsv : U16
  deriving DecidableEq, Repr

structure CaptureExportP where
  source : U8
  capture : U8
  slot : U8
  fmt : U8
  ring : U8
  freeAfter : U8
  rsv : U16
  deriving DecidableEq, Repr

structure CaptureRetireP where
  capture : U8
  force : U8
  rsv : U16
  deriving DecidableEq, Repr

structure HalgaImportP where
  ring : U8
  rsv : U24
  bytes : U32
  deriving DecidableEq, Repr

/-- An input of HALGA-MERGE. -/
structure MergeInP where
  source : U8
  capture : U8
  slot : U8
  rsv : U8
  deriving DecidableEq, Repr

structure HalgaMergeP where
  mode : U8
  n : U8
  sRate : U8
  grid : U8
  inputs : List MergeInP
  deriving DecidableEq, Repr

structure CaptureRemoteConfigP where
  rtPort : U16
  sourceId : U16
  txGroup : U8
  txTarget : U8
  txDstPort : U16
  txDstAddr : BitVec 128
  deriving DecidableEq, Repr

/-- Rows the engine takes for a lane (R236). -/
inductive CapIn where
  /-- The cells of the release of the slab with this tag, or of a patch release of it. -/
  | report (tag : U64) (patch : Bool)
  /-- The row of Sage or voice words at an instant (TAI ns) that its sources have delivered. -/
  | sample (instant : U64)
  /-- Rows the engine could not take, from an instant on. -/
  | lost (instant : U64) (rows : U32)
  deriving DecidableEq, Repr

/-- A remote-trigger frame as received (Table 9.4). -/
structure RemoteRx where
  port : BitVec 4
  len : U16
  magic : U32
  version : U8
  group : U8
  flags : U16
  unitId : U64
  tTrig : U64
  seq : U32
  sourceId : U16
  boundNs : U16
  poisoned : Bool
  deriving DecidableEq, Repr

/-- A mark of a record (Table 9.10). -/
structure Mark where
  kind : Nat
  source : Nat
  lane : Nat
  flags : Nat
  trigKind : Nat
  entry : Nat
  time : Nat
  boundNs : Nat
  alarm : Nat
  /-- Old and new time of TIME-DISCONTINUITY; rows of GAP. -/
  arg0 : Nat
  arg1 : Nat
  deriving DecidableEq, Repr

/-- A channel of a record (Table 9.8): its kind, its source, its scale (binary32) and its name. -/
structure RecChan where
  kind : Nat
  source : Nat
  scale : U32
  name : Bytes
  deriving DecidableEq, Repr

/-- A measurement entry (Table 9.9). -/
structure Meas where
  chan : Nat
  flags : Nat
  nValid : Nat
  min : U32
  max : U32
  mean : U32
  rms : U32
  fund : U32
  freq : U32
  periodNs : Nat
  crossNs : Nat
  deriving DecidableEq, Repr

/-- A lane of a record with its rows: instant and channel words (Tables 9.7 and 9.11). -/
structure RecLane where
  kind : Nat
  rate : Nat
  source : Nat
  chans : List RecChan
  rows : List (Nat × List U64)
  deriving DecidableEq, Repr

/-- A Halga record (R249): the header of Table 9.6, lanes, sources and marks. -/
structure Halga where
  timeValid : Bool
  merged : Bool
  resampled : Bool
  truncated : Bool
  early : Bool
  marksLost : Bool
  withdrawn : Bool
  unitId : U64
  recNo : U32
  capture : Nat
  trigKind : Nat
  trigEntry : Nat
  tq : Nat
  tTrig : Nat
  tStart : Nat
  tEnd : Nat
  boundNs : Nat
  utcOffset : Int
  sourceId : U16
  createdTs : Nat
  lanes : List RecLane
  sources : List U64
  meas : List Meas
  marks : List Mark
  deriving DecidableEq, Repr

/-- What HALGA-IMPORT reads from the ring (R252). -/
structure HalgaIn where
  /-- How many words of it arrive poisoned (R67). -/
  poison : U16
  bytes : Bytes
  deriving DecidableEq, Repr

end Sys2Proof
end

