-- ==== Sys2Proof/Payload/Kernel.lean ====
section
/-!
DEFINITION. The payloads of groups 0x0D and 0x0E, the Sorrel cores and the Yarrow scheduler (Tables 13.17 and 14.11), and the operands
of the Sorrel instructions (13.2 to 13.8). The encoding of an instruction inside its group is not given by the spec, so an instruction
carries the operands that its assembler form names.
-/

namespace Sys2Proof

structure KernelLoadP where
  source : U8
  index : U8
  cores : U8
  rsv : U8
  bytes : U32
  deriving DecidableEq, Repr

/-- KERNEL-BIND without its op byte. -/
structure KernelBindP where
  kernel : U8
  binding : U8
  kind : U8
  level : U8
  ring : U8
  grid : U8
  rsv : U8
  stageOff : U32
  slotBytes : U32
  slots : U16
  n : U16
  period : U32
  handles : List U32
  deriving DecidableEq, Repr

structure KernelStartP where
  kernel : U8
  flags : U8
  rsv : U16
  deriving DecidableEq, Repr

/-- KERNEL-STOP and KERNEL-UNLOAD. -/
structure KernelP where
  kernel : U8
  rsv : U24
  deriving DecidableEq, Repr

/-- What reading a Beleth image makes of its key and of its signature and digest: see `BelethIn`. -/
structure BelethSig where
  keyDigest : BitVec 256
  signatureOk : Bool
  bodyOk : Bool
  deriving DecidableEq, Repr

/-- A Beleth image as read, with SHA-256 of the public key it holds, and whether its signature over bytes 0 to 191 verifies and body_sha256 is
the digest of its body. -/
structure BelethIn where
  bytes : Bytes
  keyDigest : BitVec 256
  signatureOk : Bool
  bodyOk : Bool
  deriving DecidableEq, Repr

/-- A Beleth image as the loader reads it (Table 13.9). -/
structure Beleth where
  magic : U32
  version : U16
  flags : U16
  imageId : U64
  imageVersion : U32
  keySlot : U8
  minCores : U8
  maxCores : U8
  entry : U32
  imBytes : U32
  dataBytes : U32
  sramKib : U32
  scratchKib : U32
  maxCycles : U32
  bodyBytes : U32
  /-- Every reserved field is zero. -/
  rsvZero : Bool
  /-- SHA-256 of the public key. -/
  keyDigest : BitVec 256
  /-- The signature over bytes 0 to 191 verifies; body_sha256 is the body's digest. -/
  signatureOk : Bool
  bodyOk : Bool
  im : Bytes
  data : Bytes
  deriving DecidableEq, Repr

/-- A message on a host-to-device ring bound to a kernel (Table 13.11, kind 0): partition, ring and bytes. -/
structure KernelMsg where
  part : HP
  ring : BitVec 6
  data : Bytes
  /-- How many words of it arrive poisoned (R67). -/
  poison : U16
  deriving DecidableEq, Repr

structure YarrowConfigP where
  qHighPct : U8
  loadAlertPct : U8
  rsv : U16
  deriving DecidableEq, Repr

structure YarrowLoadBindP where
  ring : U8
  loadDiv : U8
  rsv : U16
  deriving DecidableEq, Repr

/-- A core, 0 to 127 (R345). -/
abbrev CoreNo := BitVec 7

/-- A register that moves name (Table 13.1). -/
inductive SReg where
  | d (n : Fin 16)
  | i (n : Fin 8)
  | k (n : Fin 8)
  | ba (n : Fin 8)
  | ln (n : Fin 8)
  deriving DecidableEq, Repr

/-- Addressing modes (Table 13.5). -/
inductive AMode where
  | ind (i : Fin 8)
  | postInc (i : Fin 8) (s : BitVec 5)
  | postMod (i j : Fin 8)
  | off (i : Fin 8) (d : BitVec 12)
  | abs (a : BitVec 21)
  deriving DecidableEq, Repr

/-- Access sizes of local loads and stores. -/
inductive Size where
  | b8 | b16 | b32
  deriving DecidableEq, Repr

/-- Overflow mode (R355). -/
inductive OvMode where
  | sat | wrap
  deriving DecidableEq, Repr

/-- Signedness of MAC operands: both signed, first unsigned, both unsigned (R354). -/
inductive MacSign where
  | ss | su | uu
  deriving DecidableEq, Repr

/-- Rounding of an extraction (R356): T towards minus infinity, RND half up, RNE half to even. -/
inductive Rnd where
  | down | up | even
  deriving DecidableEq, Repr

/-- A memory slot of a bundle: it fetches a MAC operand, fetches it and keeps it in a D register, or stores a D register. -/
inductive Slot where
  | fetch (m : AMode)
  | load (m : AMode) (d : Fin 16)
  | store (m : AMode) (d : Fin 16)
  deriving DecidableEq, Repr

/-- A bundle: its lanes' accumulators, signedness and overflow mode, its two memory slots, and an optional register move (destination,
source) (R364, Table 13.7). -/
structure Bundle where
  accs : List (Fin 4)
  sign : MacSign
  ov : OvMode
  slot1 : Slot
  slot2 : Slot
  move : Option (SReg × SReg)
  deriving DecidableEq, Repr

/-- The operation of an MSU bundle. -/
inductive MacOp where
  | mac32 | dmac32 | dmac16 | qmac16
  deriving DecidableEq, Repr

/-- An ALU source: a D register or an immediate as the assembler extends it. -/
inductive Src2 where
  | reg (d : Fin 16)
  | imm (v : U32)
  deriving DecidableEq, Repr

/-- A branch condition, as the set of ZNCV values (Z the most significant bit) on which it holds. -/
abbrev Cond := BitVec 16

/-- A loop count (R359). -/
inductive Count where
  | imm (n : U16)
  | reg (d : Fin 16)
  deriving DecidableEq, Repr

/-- A binary32 conversion: signed or unsigned integers to and from binary32. -/
inductive Cvt where
  | fromInt | fromUint | toInt | toUint
  deriving DecidableEq, Repr

/-- A DMAQ transfer: true moves from core memory to the scratch window (R363). -/
structure DmaqOp where
  toScratch : Bool
  localAddr : BitVec 24
  offset : U32
  bytes : BitVec 17
  deriving DecidableEq, Repr

end Sys2Proof
end

