-- ==== Sys2Proof/Payload/Voice.lean ====
section
/-!
DEFINITION. The payloads of group 0x0C, the voice subsystem (Table 12.16 of 12_voice.md), and what its legs receive. The op byte of
an opcode split into rows is the row.
-/

namespace Sys2Proof

structure VoiceTdmConfigP where
  highway : U8
  enable : U8
  drive : U8
  idleLaw : U8
  deriving DecidableEq, Repr

/-- The 56 configuration bytes of VOICE-CH-OPEN, VOICE-CH-MODIFY and the channel record. -/
structure VoiceCfg where
  lineKind : U8
  pktKind : U8
  codec : U8
  ptime : U8
  priority : U8
  flags : U8
  level : U8
  dscp : U8
  highway : U8
  timeslot : U8
  law : U8
  target : U8
  lineIn : U8
  lineOut : U8
  pktIn : U8
  pktOut : U8
  dtmfMode : U8
  toneMask : U8
  pt : U8
  evPt : U8
  localPort : U16
  remotePort : U16
  remoteAddr : BitVec 128
  jbMinMs : U16
  jbMaxMs : U16
  jbInitMs : U16
  jbAdapt : U8
  ec : U8
  mediaTimeoutMs : U16
  rsv : U48
  deriving DecidableEq, Repr

structure VoiceModifyP where
  channel : U16
  rsv : U16
  cfg : VoiceCfg
  deriving DecidableEq, Repr

/-- VOICE-CH-CONTROL without its op byte, and VOICE-CH-CLOSE. -/
structure VoiceChP where
  channel : U16
  rsv : U16
  deriving DecidableEq, Repr

structure VoiceSrtpKeyP where
  channel : U16
  dir : U8
  suite : U8
  key : BitVec 128
  salt : BitVec 112
  rsv : U16
  fromIndex : U64
  deriving DecidableEq, Repr

structure VoiceToneProfileP where
  profile : U8
  minLevel : U8
  f1Hz : U16
  f2Hz : U16
  onMs : U16
  offMs : U16
  cycles : U8
  rsv : U8
  deriving DecidableEq, Repr

/-- VOICE-TONE-BIND and CF-OUTPUT-BIND: a device-to-host ring, or 0xFF to unbind. -/
structure RingBindP where
  ring : U8
  rsv : U24
  deriving DecidableEq, Repr

structure VoiceToneGenP where
  channel : U16
  dir : U8
  kind : U8
  level : U8
  profile : U8
  onMs : U16
  offMs : U16
  n : U8
  rsv : U8
  digits : Bytes
  deriving DecidableEq, Repr

structure VoiceAnnLoadP where
  ann : U8
  law : U8
  rsv : U16
  bytes : U32
  ring : U8
  rsv2 : U24
  deriving DecidableEq, Repr

/-- VOICE-ANN-MAP without its op byte. -/
structure VoiceAnnMapP where
  entry : U8
  first : U16
  last : U16
  ann : U8
  withdrawAnn : U8
  dir : U8
  priority : U8
  repeat_ : U8
  timed : U8
  offsetMs : U16
  nCh : U16
  channels : List U16
  deriving DecidableEq, Repr

structure VoiceAnnPlayP where
  ann : U8
  dir : U8
  priority : U8
  repeat_ : U8
  nCh : U16
  rsv : U16
  channels : List U16
  deriving DecidableEq, Repr

/-- The kinds of a tone record (Table 12.7). -/
inductive ToneKind where
  | dtmf | callProgress | ans | ansam | phaseReversal | v21
  deriving DecidableEq, Repr

/-- A tone start or end that a detector decides in a block (R326 to R329): where, what, at which level, and how many RTP units (125 µs) before the
block's start it lies. -/
structure ToneEv where
  channel : U16
  /-- true: send direction. -/
  send : Bool
  kind : ToneKind
  value : U8
  level : U8
  end_ : Bool
  units : U16
  deriving DecidableEq, Repr

/-- What the signals of one channel show over one 10 ms block, as far as decisions rest on it. -/
structure VoiceObs where
  channel : U16
  /-- Received energy below −45 dBm0 in the next block (R322). -/
  lowEnergy : Bool
  /-- Both directions have stood below −36 dBm0 for 250 ms (Table 12.5). -/
  quiet250 : Bool
  deriving DecidableEq, Repr

/-- What one lattice block brings. -/
structure VoiceBlockIn where
  tones : List ToneEv
  obs : List VoiceObs
  deriving DecidableEq, Repr

/-- A received RTP or SRTP datagram (R319). -/
structure RtpPacket where
  /-- Port 0 to 11 it arrived on, and pair 0x10 or 0x11 where that port is of a pair. -/
  port : U8
  dstPort : U16
  srcAddr : BitVec 128
  srcPort : U16
  version : BitVec 2
  marker : Bool
  pt : BitVec 7
  seq : U16
  ts : U32
  ssrc : U32
  payload : Bytes
  /-- The 80-bit or 32-bit authentication tag verifies under the current, or the previous, receive key. -/
  authOk : Bool
  authPrev : Bool
  deriving DecidableEq, Repr

/-- A received RTCP report block (R320). -/
structure RtcpReport where
  port : U8
  dstPort : U16
  srcAddr : BitVec 128
  srcPort : U16
  ssrc : U32
  fractionLost : U8
  authOk : Bool
  deriving DecidableEq, Repr

/-- A host voice block as written to a host-to-device ring (Table 12.4). -/
structure HostVoice where
  part : HP
  ring : BitVec 6
  channel : U16
  leg : U8
  flags : U8
  samples : U16
  rsv : U16
  ts : U64
  pcm : List U16
  /-- How many words of it arrive poisoned (R67). -/
  poison : U16
  deriving DecidableEq, Repr

end Sys2Proof
end

