-- ==== Sys2Proof/Payload/Radio.lean ====
section
/-!
DEFINITION. The payloads of groups 0x0F, 0x10 and 0x11: the Cornflower coordinator, the Dill engine and the Poppy recorder with OTP and
flash (Tables 15.9, 16.8 and 17.11), what the transceiver delivers, and the TAP inputs of JTAG (R478).
-/

namespace Sys2Proof

/-- One SPI sequence of a profile. -/
structure SpiSeqP where
  len : U8
  rsv : U8
  bytes : Bytes
  deriving DecidableEq, Repr

structure CfProfileP where
  spiKhz : U16
  irqPol : U8
  phyOvh : U8
  bitrate : U32
  tTaUs : U16
  rxLatNs : U16
  txLatNs : U16
  stIdx : U8
  stMask : U8
  stReady : U8
  rsv : BitVec 120
  /-- Eight sequences and sixty-four channel words. -/
  seqs : List SpiSeqP
  chWords : List U16
  deriving DecidableEq, Repr

structure CfConfigP where
  enable : U8
  beaconMic : U8
  sfMs : U16
  pollMax : U16
  respMax : U16
  dwellMs : U16
  dwellWinS : U16
  rekeyWarn : U32
  deriving DecidableEq, Repr

structure CfChannelMapP where
  mask : U64
  hopInc : U8
  hopSeed : U8
  rsv : U16
  switchSf : U32
  deriving DecidableEq, Repr

structure CfNodeAddP where
  node : U16
  mic : U8
  rsv : U8
  eui64 : U64
  pollDiv : U16
  superMs : U16
  key : BitVec 128
  deriving DecidableEq, Repr

structure CfNodeP where
  node : U16
  rsv : U16
  deriving DecidableEq, Repr

structure CfNodeKeyP where
  node : U16
  rsv : U16
  eSw : U32
  key : BitVec 128
  deriving DecidableEq, Repr

/-- CF-NODE-STREAM without its op byte. -/
structure CfNodeStreamP where
  node : U16
  n : U8
  rate : U16
  level : U8
  rsv : U8
  sensors : List U8
  deriving DecidableEq, Repr

structure CfSendP where
  node : U16
  type : U8
  len : U8
  body : Bytes
  deriving DecidableEq, Repr

/-- Which moment a CF_IRQ assertion marks (R399). -/
inductive IrqKind where
  | sync | rxEnd | txEnd
  deriving DecidableEq, Repr

/-- A node's response as read by sequence 6: its length, header fields, whether its MIC verifies under the new and under the old key,
and its decrypted payload (Table 15.3). -/
structure CfResponse where
  len : U16
  empty : Bool
  addr : U16
  seq : U8
  ctrLo : U8
  authOk : Bool
  authOld : Bool
  ackSeq : U8
  records : Bytes
  deriving DecidableEq, Repr

structure DillConfigP where
  quantumKib : U16
  rsv : U16
  deriving DecidableEq, Repr

structure DillOpenP where
  dir : U8
  fmt : U8
  effort : U8
  level : U8
  inRing : U8
  outRing : U8
  limMode : U8
  rsv : U8
  ratio : U16
  rsv2 : U48
  limitBytes : U64
  inTotal : U64
  deriving DecidableEq, Repr

structure DillCloseP where
  job : U8
  rsv : U24
  deriving DecidableEq, Repr

/-- POPPY-CURSOR without its op byte. -/
structure PoppyCursorP where
  rsv : U56
  value : U64
  deriving DecidableEq, Repr

/-- POPPY-RATE without its op byte. -/
structure PoppyRateP where
  rsv : U8
  code : U16
  rate : U16
  burst : U16
  deriving DecidableEq, Repr

structure OtpWriteP where
  group : U8
  rsv : U24
  content : Bytes
  deriving DecidableEq, Repr

structure FlashImageWriteP where
  target : U8
  slot : U8
  ring : U8
  rsv : U8
  bytes : U32
  deriving DecidableEq, Repr

structure FlashConfigP where
  endurance : U32
  wearPct : U8
  rsv : U24
  deriving DecidableEq, Repr

/-- What an image write reads (R449): the image; of a firmware image, whether it verifies, its version and its SHA-256. -/
structure ImageIn where
  img : BelethIn
  ok : Bool
  version : U32
  sha : BitVec 256
  deriving DecidableEq, Repr

/-- One TCK edge with the levels of TMS, TDI and TRST_N (R478). -/
structure TckEdge where
  rising : Bool
  tms : Bool
  tdi : Bool
  trstN : Bool
  deriving DecidableEq, Repr

end Sys2Proof
end

