-- ==== Sys2Proof/Payload/Sage.lean ====
section
/-!
DEFINITION. The payloads of groups 0x0A and 0x0B, the metrology front end and energy (Tables 10.11 and 11.11), and what the
converters and the power supply deliver (10_metrology_frontend.md and 11_energy_quality.md). The op byte of an opcode split into
rows is the row.
-/

namespace Sys2Proof

structure SageClockConfigP where
  fMod : U8
  clkEn : U8
  rsv : U16
  deriving DecidableEq, Repr

structure SageChainConfigP where
  mp : U8
  enable : U8
  fNom : U8
  rate : U8
  cicN : U8
  firDec : U8
  fadeK : U8
  firLen : U8
  dcShift : U8
  acqCycles : U8
  rsv : U16
  deriving DecidableEq, Repr

structure SageFirLoadP where
  mp : U8
  bank : U8
  len : U8
  rsv : U8
  coeff : List U32
  deriving DecidableEq, Repr

structure SageFirSwitchP where
  mp : U8
  bank : U8
  rsv : U16
  deriving DecidableEq, Repr

/-- SAGE-DC without its op byte. -/
structure SageDcP where
  mp : U8
  inputs : U8
  rsv : U8
  deriving DecidableEq, Repr

structure SageCalP where
  input : U8
  rsv : U24
  scale : U32
  calGain : U32
  calDelay : U32
  deriving DecidableEq, Repr

structure SageTempTableP where
  input : U8
  rsv : U24
  /-- 33 points: gain and delay. -/
  points : List (U32 × U32)
  deriving DecidableEq, Repr

structure SageTempSourceP where
  input : U8
  tempSrc : U8
  staleS : U16
  tempId : U32
  tempDefault : U16
  rsv : U16
  deriving DecidableEq, Repr

structure SageTempEntry where
  input : U8
  rsv : U8
  temp : U16
  deriving DecidableEq, Repr

structure SageTempP where
  n : U8
  rsv : U24
  entries : List SageTempEntry
  deriving DecidableEq, Repr

/-- SAGE-PMU without its op byte. -/
structure SagePmuP where
  mp : U8
  window : U8
  level : U8
  rate : U16
  rsv : U16
  handle : U32
  deriving DecidableEq, Repr

structure EqMpConfigP where
  mp : U8
  wiring : U8
  reverse : U8
  rsv : U8
  udinDv : U32
  sagThr : U16
  swellThr : U16
  intThr : U16
  hyst : U16
  deriving DecidableEq, Repr

structure EqRegConfigP where
  reg : U8
  mp : U8
  quantity : U8
  digits : U8
  resCode : U8
  enable : U8
  rsv : U16
  deriving DecidableEq, Repr

structure PulseConfigP where
  output : U8
  enable : U8
  mp : U8
  quantity : U8
  widthMs : U8
  activeLow : U8
  rsv : U16
  quantumMwh : U32
  deriving DecidableEq, Repr

structure EqSaveConfigP where
  saveS : U16
  rsv : U16
  deriving DecidableEq, Repr

structure EqSealP where
  mask : U16
  rsv : U16
  deriving DecidableEq, Repr

structure EqGapAckP where
  seq : U32
  deriving DecidableEq, Repr

/-- What a metering point's six modulators deliver for one output sample: the bits of each input, by role (R257, R258). -/
structure SageBits where
  mp : BitVec 4
  bits : List (List Bool)
  deriving DecidableEq, Repr

end Sys2Proof
end

