-- ==== Sys2Proof/Payload/Event.lean ====
section
/-!
DEFINITION. Operands of time-driven and received events that no payload table gives: what the grid-angle reference shows, Pdelay
messages, Dill segments and placement moves.
-/

namespace Sys2Proof

/-- A Pdelay_Req as received (R84). -/
structure PdelayReq where
  port : BitVec 4
  seq : U16
  srcId : U64
  srcPort : U16
  ageNs : U32
  deriving DecidableEq, Repr

/-- A Pdelay_Resp, with its follow-up (R82): sequence, the responder's turnaround t3 − t2 in ns, and its age. -/
structure PdelayResp where
  port : BitVec 4
  seq : U16
  turnNs : U32
  ageNs : U32
  deriving DecidableEq, Repr

/-- An input segment of a Dill job as read from its ring (Table 16.1), or from the device for a device job. -/
structure DillSegmentP where
  job : BitVec 6
  flags : U16
  rsv : U48
  tag : U64
  /-- How many words of it arrive poisoned (R67). -/
  poison : U16
  data : Bytes
  deriving DecidableEq, Repr

/-- A move that the firmware makes (Table 14.10). -/
structure MoveP where
  kind : U8
  reason : U8
  item : U24
  /-- Core, cluster and DRAM channel, each 0xFF where not placed. -/
  new : U8 × U8 × U8
  deriving DecidableEq, Repr

/-- A placement evaluation (R394): each DRAM channel's share of the traffic of the last 10 s in 0.1 %, and the moves the firmware makes. -/
structure PlacementIn where
  dramShare : List U16
  moves : List MoveP
  deriving DecidableEq, Repr

end Sys2Proof
end

