-- ==== Sys2Proof/Syntax.lean ====
section
/-!
DEFINITION. The commands and events of the OT6250, one constructor per row of the opcode table, in its order. A VCI command carries its
header and its payload; an event carries what its rule names; a Sorrel instruction carries its core and its assembler operands.
-/

namespace Sys2Proof

inductive Instr where
  /-- IDENTIFY (R49): Returns part number, stepping, running firmware image, firmware version and OTP generations used. -/
  | identify (h : Hdr)
  /-- COUNTER_CLEAR (R50): Clears every counter of a group, or one counter, together with its SATSUM bits, at one commit point. -/
  | counterClear (h : Hdr) (p : CounterClearP)
  /-- SNAPSHOT (R63): Freezes a copy-on-write copy of the chosen groups for the issuing partition's BAR2 view. -/
  | snapshot (h : Hdr) (p : SnapshotP)
  /-- SNAPSHOT_RELEASE (R64): Ends the partition's snapshot and returns its view to live state. -/
  | snapshotRelease (h : Hdr)
  /-- APERTURE_WINDOW (R49): Positions a partition's window onto a windowed table of a group. -/
  | apertureWindow (h : Hdr) (p : ApertureWindowP)
  /-- DEVICE_RESET (R467): Checks the confirm value, responds OK and raises RESET-REQUESTED, then saves energy and flushes before resetting. -/
  | deviceReset (h : Hdr) (p : DeviceResetP)
  /-- HEARTBEAT (R488): Counts path V at its doorbell timestamp and echoes host_seq with controller and partition state. -/
  | heartbeat (h : Hdr) (p : HeartbeatP)
  /-- CLAIM_SET (R55): Sets a partition's claim, re-latches stages held at the old claim and re-evaluates the controller. -/
  | claimSet (h : Hdr) (p : ClaimSetP)
  /-- CLAIM_YIELD (R55): Lowers the issuing partition's own claim, re-latches stages and re-evaluates the controller. -/
  | claimYield (h : Hdr) (p : ClaimYieldP)
  /-- APPORTION (R51): Sets one partition's seven resource quotas in one step. -/
  | apportion (h : Hdr) (p : ApportionP)
  /-- PARTITION_TIMERS (R487): Sets fail_ms, holdoff_ms and hbp_fitted for timers started after commit. -/
  | partitionTimers (h : Hdr) (p : PartitionTimersP)
  /-- DMA_RING_SETUP (R68): Creates a DMA descriptor ring of a partition in one direction. -/
  | dmaRingSetup (h : Hdr) (p : DmaRingSetupP)
  /-- DMA_RING_RETIRE (R68): Unbinds a ring and completes the descriptors the device owns, as a long command. -/
  | dmaRingRetire (h : Hdr) (p : DmaRingRetireP)
  /-- DMA_RING_RETIRE_DONE (R68): The retire finishes its owned descriptors and completes with COMMAND-DONE. -/
  | dmaRingRetireDone (part : HP) (ring : BitVec 6)
  /-- LONG_COMMAND_TIMEOUT (R44): A long command exceeds its time limit and completes with TIMEOUT, leaving the state its chapter gives. -/
  | longCommandTimeout (cmd : U32)
  /-- EARLY_DOORBELL (R38): A doorbell rung before DONE of the previous command, or before READY, is ignored and counted. -/
  | earlyDoorbell (part : HP) (urg : Bool)
  /-- DISCARDED_WRITE (R35): A host write to BAR2 or to an unlisted BAR0 or BAR4 location is discarded and counted. -/
  | discardedWrite (part : HP) (bar : BitVec 3)
  /-- EVT_CONS_WRITE (R48): The host advances the event ring consumer index, freeing entries. -/
  | evtConsWrite (part : HP) (value : U32)
  /-- HOST_IDX_WRITE (R66): The host advances a ring's host index, giving the device new descriptors or buffers. -/
  | hostIdxWrite (part : HP) (ring : BitVec 6) (value : U32) (descs : List Desc)
  /-- DMA_DESCRIPTOR_DONE (R66): A descriptor's transfer completes: status and len written, OWN cleared, DEV_IDX advanced, vector signalled if INT. -/
  | dmaDescriptorDone (part : HP) (ring : BitVec 6) (poison : U16)
  /-- HB_IN_CHANGE (R488): A level change on HB_INn held for 10 µs counts for path P, timed from its edge. -/
  | hbInChange (part : HP) (level : Bool)
  /-- PATH_V_TIMEOUT (R56): 100 ms pass since the last counted HEARTBEAT and path V is lost. -/
  | pathVTimeout (part : HP)
  /-- PATH_P_TIMEOUT (R488): 50 ms pass since the last counted HB_INn edge and path P is lost. -/
  | pathPTimeout (part : HP)
  /-- FAILURE_TIMER_EXPIRY (R58): A FAILING partition's failure timer expires and the partition goes OUT with HOST-FAILED. -/
  | failureTimerExpiry (part : HP)
  /-- HOLDOFF_TIMER_EXPIRY (R58): A RETURNING partition's hold-off expires and it becomes HEALTHY, taking control by failback. -/
  | holdoffTimerExpiry (part : HP)
  /-- TAKEOVER_DEADLINE (R60): A new controller has counted no HEARTBEAT within fail_ms and goes OUT with TAKEOVER-FAILED. -/
  | takeoverDeadline (part : HP)
  /-- SNAPSHOT_EXPIRY (R64): A snapshot reaches expiry_ms and reverts with SNAPSHOT-ABORTED. -/
  | snapshotExpiry (part : HP)
  /-- SHADOW_FULL (R64): The 64 MiB shadow area fills and the snapshot reverts with SNAPSHOT-ABORTED. -/
  | shadowFull (part : HP)
  /-- PCIE_LINK_DOWN (R69): A partition link goes down and its ring transfers stop at the current descriptor. -/
  | pcieLinkDown (part : HP)
  /-- PCIE_LINK_UP (R69): A partition link returns and ring transfers resume where they stopped. -/
  | pcieLinkUp (part : HP)
  /-- PARTITION_RESET (R464): A function-level or hot reset clears one partition's mailboxes, caches, event indices, snapshot and rings. -/
  | partitionReset (part : HP)
  /-- PORN_ASSERT (R454): PORN is driven low and the device is held in reset. -/
  | pornAssert
  /-- POWER_ON_RESET (R455): PORN release starts the boot stages OTP, FLASH, FIRMWARE, DRAM, RESTORE and BLOCKS. -/
  | powerOnReset (b : BootIn)
  /-- BOOT_STAGE_TIMEOUT (R455): A boot stage exceeds its limit and the device halts with code 0x8. -/
  | bootStageTimeout (stage : BitVec 3)
  /-- BOOT_READY (R456): Stage 6 ends: every partition reads READY, DEVICE-BOOTED is raised and stored metering chains start. -/
  | bootReady (stageMs : List U16)
  /-- SYSTEM_RESET (R463): SRST_N low for 10 µs resets the device without saving. -/
  | systemReset (b : BootIn)
  /-- WATCHDOG_EXPIRY (R463): The Lovage controller fails to service its 1,000 ms watchdog and a watchdog reset follows a save and flush. -/
  | watchdogExpiry (b : BootIn)
  /-- FIRMWARE_HALT (R463): The resident firmware stops on an internal fault and resets after a save and flush. -/
  | firmwareHalt (b : BootIn)
  /-- DEVICE_RESET_EXECUTE (R467): After its energy save and flush, a commanded reset takes effect within 60 ms of the response. -/
  | deviceResetExecute (b : BootIn)
  /-- PFAIL_ASSERT (R303): PFAIL_N qualified low stops counting at t_f and starts the power-fail flush. -/
  | pfailAssert
  /-- PFAIL_RISE (R303): PFAIL_N rises without a reset and counting resumes at the next cycle, with an OUTAGE recorded. -/
  | pfailRise (b : BootIn)
  /-- POWER_FAIL_FLUSH_END (R303): The power-fail flush completes, after which a pending SRST_N is taken. -/
  | powerFailFlushEnd (complete : Bool)
  /-- STARTUP_GAP_TIMEOUT (R462): TIME_VALID is still 0 at 60 s after READY and the start-up gap closes at the next counted sample with END_UNKNOWN. -/
  | startupGapTimeout
  /-- TIME_SOURCE_CONFIG (R80): Sets source enables, PTP pair, domain, class limit, source hold-off and field PTP masters. -/
  | timeSourceConfig (h : Hdr) (p : TimeSourceConfigP)
  /-- TIME_SLEW_CONFIG (R77): Sets slew_ppm and alert_us. -/
  | timeSlewConfig (h : Hdr) (p : TimeSlewConfigP)
  /-- TIME_HOLDOVER_CONFIG (R87): Sets hold_ppb and e0_ns. -/
  | timeHoldoverConfig (h : Hdr) (p : TimeHoldoverConfigP)
  /-- TIME_UTC_OFFSET (R88): Sets the UTC offset and announces a leap second. -/
  | timeUtcOffset (h : Hdr) (p : TimeUtcOffsetP)
  /-- TIME_STEP (R79): Accepts an absolute or relative step of the device clock as a long command. -/
  | timeStep (h : Hdr) (p : TimeStepP)
  /-- TIME_STEP_APPLY (R79): The step runs: streams marked, timed actions cancelled or released, clock written, state updated. -/
  | timeStepApply
  /-- GA_CONFIG (R94): Sets the grid-angle reference metering point, enable, nominal frequency and slew. -/
  | gaConfig (h : Hdr) (p : GaConfigP)
  /-- PPS_OUT_CONFIG (R99): Enables PPS_OUT and sets its width. -/
  | ppsOutConfig (h : Hdr) (p : PpsOutConfigP)
  /-- TIME_READ (R74): Returns the device time at the doorbell with clock state, TQ and UTC offset. -/
  | timeRead (h : Hdr)
  /-- PTP_ANNOUNCE_RX (R80): An Announce message is received and feeds BMCA selection and source qualification. -/
  | ptpAnnounceRx (port : BitVec 4) (m : AnnounceMsg)
  /-- PTP_SYNC_RX (R75): A Sync, with its Follow_Up where two-step, gives a servo update and moves the clock state. -/
  | ptpSyncRx (port : BitVec 4) (m : SyncMsg)
  /-- PDELAY_REQ_RX (R84): A Pdelay_Req received is answered with Pdelay_Resp. -/
  | pdelayReqRx (m : PdelayReq)
  /-- PDELAY_RESP_RX (R82): A Pdelay_Resp updates the port's peer delay measurement. -/
  | pdelayRespRx (m : PdelayResp)
  /-- PDELAY_REQ_TX (R82): Each second a port of the PTP pair sends Pdelay_Req. -/
  | pdelayReqTx (port : BitVec 4)
  /-- PTP_MASTER_TX (R84): Each second a field master port sends Announce and two-step Sync and Follow_Up. -/
  | ptpMasterTx (port : BitVec 4)
  /-- ANNOUNCE_RECEIPT_TIMEOUT (R83): announceReceiptTimeout expires on a port, raising PTP-MASTER-LOST and switching SLAVE or losing PTP. -/
  | announceReceiptTimeout (port : BitVec 4)
  /-- PPS_IN_EDGE (R85): A PPS_IN rising edge is rejected, or accepted and tested against its expected instant as a servo update. -/
  | ppsInEdge
  /-- PPS_IN_LOSS (R80): No accepted PPS_IN edge for 1.5 s and the source is lost. -/
  | ppsInLoss
  /-- IRIG_FRAME (R86): An IRIG_IN frame is decoded, checked against the running count and used as a servo update. -/
  | irigFrame (f : IrigFrame)
  /-- IRIG_LOSS (R80): No valid IRIG frame for 2 s and the source is lost. -/
  | irigLoss
  /-- SRC_HOLDOFF_EXPIRY (R80): A more preferred source stays qualified for src_holdoff and takes over by slew. -/
  | srcHoldoffExpiry
  /-- TQ_BAND_ELAPSED (R87): Elapsed holdover time crosses a band boundary and TQ, STAT bits and time-since-LOCKED change. -/
  | tqBandElapsed
  /-- LEAP_PENDING_START (R90): 60 s before the leap instant, Leap Second Pending is set. -/
  | leapPendingStart
  /-- LEAP_APPLIED (R91): The leap instant passes, utc_offset changes and LEAP-APPLIED is raised. -/
  | leapApplied
  /-- LEAP_OCCURRED_END (R90): 24 h after the leap instant, Leap Second Occurred clears. -/
  | leapOccurredEnd
  /-- PPS_OUT_RISE (R99): PPS_OUT rises at a TAI second boundary of the device clock. -/
  | ppsOutRise
  /-- PPS_OUT_FALL (R99): PPS_OUT falls width_ms after rising. -/
  | ppsOutFall
  /-- GA_TICK (R92): The grid-angle oscillator emits a GA tick with its device-clock timestamp. -/
  | gaTick (ts : U64)
  /-- TIMED_ACTION_FIRE (R98): A timed frame, trigger, GOOSE, alarm frame or announcement fires when the clock reaches its launch time. -/
  | timedActionFire
  /-- PORT_CONFIG (R131): Sets a port's enable, speed, FEC, RGMII delay, max_frame, latencies and drop thresholds. -/
  | portConfig (h : Hdr) (p : PortConfigP)
  /-- PRP_CONFIG (R116): Sets forget_ms, skew_alert_ms and lan_silence_ms of a pair. -/
  | prpConfig (h : Hdr) (p : PrpConfigP)
  /-- PORT_TX_BIND (R128): Binds a host-to-device ring to a port or pair, with an optional report ring. -/
  | portTxBind (h : Hdr) (p : PortTxBindP)
  /-- FRAME_RX (R105): A MAC receives a frame: address filter, size and FCS checks, timestamp, classification and class drops into the ingress queue. -/
  | frameRx (f : RxFrame)
  /-- PORT_LINK_UP (R116): A port link comes up; the port stays LAN-down until the first frame heard. -/
  | portLinkUp (port : BitVec 4) (speed : BitVec 3) (halfDuplex : Bool)
  /-- PORT_LINK_DOWN (R111): A port link goes down; copies for it are discarded and PRP-LAN-DOWN raised. -/
  | portLinkDown (port : BitVec 4)
  /-- LAN_SILENCE (R116): lan_silence_ms pass without a frame heard and the port becomes LAN-down. -/
  | lanSilence (port : BitVec 4)
  /-- PRP_SUPERVISION_TX (R112): Every 2 s a pair sends PRP supervision frames on each port whose link is up. -/
  | prpSupervisionTx (pair : Bool)
  /-- PRP_SUPERVISION_RX (R112): A received supervision frame is counted and discarded. -/
  | prpSupervisionRx (port : BitVec 4)
  /-- HOST_FRAME_TX (R128): A host frame from a bound ring is checked and queued for immediate or timed launch. -/
  | hostFrameTx (part : HP) (ring : BitVec 6) (f : HostFrame)
  /-- TX_COMPLETE (R129): A transmitted frame completes and its report with timestamps and flags is written. -/
  | txComplete (port : BitVec 4) (lateColl : Bool)
  /-- FIELD_COLLISION (R117): A collision on a field port jams and schedules back-off, or discards after 16 attempts. -/
  | fieldCollision (port : BitVec 4)
  /-- BACKOFF_EXPIRY (R117): The back-off wait ends and the field MAC defers and retries the frame. -/
  | backoffExpiry (port : BitVec 4)
  /-- PRESSURE_WINDOW_END (R127): A 1 ms window ends and PRESSURE is set for a window with a C1 drop, raising PORT-PRESSURE after a quiet second. -/
  | pressureWindowEnd
  /-- STREAM_ADD (R156): Adds a stream, reserving descriptors and a directory entry, entering AWAIT-CFG. -/
  | streamAdd (h : Hdr) (p : StreamAddP)
  /-- STREAM_CHANGE (R156): Changes a stream's level, policy, pause and max_channels. -/
  | streamChange (h : Hdr) (p : StreamChangeP)
  /-- STREAM_RETIRE (R155): Moves a stream to RETIRING as a long command, unless a use still names it. -/
  | streamRetire (h : Hdr) (p : StreamRetireP)
  /-- STREAM_RETIRED (R154): Frames in flight complete and the slab boundary passes; the stream becomes FREE and its descriptors return. -/
  | streamRetired (handle : U32)
  /-- STREAM_CFG_ACCEPT (R143): Applies a stream's pending configuration under manual policy. -/
  | streamCfgAccept (h : Hdr) (p : StreamCfgAcceptP)
  /-- STREAM_REQUEST (R156): Sends a C37.118 command frame to a stream's source. -/
  | streamRequest (h : Hdr) (p : StreamRequestP)
  /-- INGEST_CONFIG (R489): Sets cut-through thresholds and silence_ms, applied to running silence times. -/
  | ingestConfig (h : Hdr) (p : IngestConfigP)
  /-- C37_DATA_FRAME (R143): A good C37.118 data frame is checked, parsed and its reports written into slabs. -/
  | c37DataFrame (f : C37Data)
  /-- C37_CFG_FRAME (R142): A CFG-2 or CFG-3 is refused, counted as identical, made pending or applied. -/
  | c37CfgFrame (f : C37CfgFrame)
  /-- C37_HEADER_FRAME (R141): A header frame is counted and raises STREAM-HEADER. -/
  | c37HeaderFrame (f : C37Header)
  /-- C37_COMMAND_FRAME (R179): A command frame to a wire publication is answered or acts on its state; others are counted. -/
  | c37CommandFrame (f : C37Command)
  /-- SV_FRAME (R149): An IEC 61850-9-2 sampled-value frame is timed and its samples fed to estimation. -/
  | svFrame (f : SvFrame)
  /-- TCP_LINK_DOWN (R139): A stream's TCP connection drops and STREAM-LINK-DOWN is raised. -/
  | tcpLinkDown (handle : U32)
  /-- TCP_RECONNECT (R139): Every 5 s a TCP client stream tries to reconnect. -/
  | tcpReconnect (handle : U32)
  /-- TCP_CONNECTED (R139): A stream's TCP connection opens and STREAM-LINK-UP is raised. -/
  | tcpConnected (handle : U32)
  /-- STREAM_SILENT (R489): An ACTIVE stream accepts no data frame for silence_ms and goes silent. -/
  | streamSilent (handle : U32)
  /-- DIRECTORY_REBUILT (R150): A background rebuild with new seeds finishes and DIRECTORY-REBUILD is raised. -/
  | directoryRebuilt
  /-- DIRECTORY_ENTRY_REWRITE (R150): The firmware rewrites an entry with an uncorrectable ECC error from the stream record. -/
  | directoryEntryRewrite (handle : U32)
  /-- TDM_FRAME (R313): A 125 µs highway frame is sent and received, with poisoned or overflowed octets held. -/
  | tdmFrame (f : List TdmIn)
  /-- GRID_CONFIG (R182): Sets a grid's speculative point, prediction factor, window, maximum wait, margin and patch gap. -/
  | gridConfig (h : Hdr) (p : GridConfigP)
  /-- PUB_ADD (R175): Creates a wire or host publication of member streams on a grid. -/
  | pubAdd (h : Hdr) (p : PubAddP)
  /-- PUB_CHANGE (R176): Enables or disables a publication and changes options, offset or members. -/
  | pubChange (h : Hdr) (p : PubChangeP)
  /-- PUB_RETIRE (R176): Retires a publication at the next slab boundary. -/
  | pubRetire (h : Hdr) (p : PubRetireP)
  /-- SLAB_OPEN (R162): A slab's instant passes and it enters FORMING with expected set and deadlines fixed. -/
  | slabOpen (grid : BitVec 5)
  /-- SPECULATIVE_RELEASE (R164): The speculative instant is reached; missing channels are filled and the slab released to C0 consumers. -/
  | speculativeRelease (grid : BitVec 5) (tag : U64)
  /-- DEADLINE_RELEASE (R164): Every missing stream passes its deadline; fills are made and the final release given with cause DEADLINE. -/
  | deadlineRelease (grid : BitVec 5) (tag : U64)
  /-- PATCH_RELEASE (R174): Late reports held apart are released at least patch_gap_us after the slab's last release. -/
  | patchRelease (grid : BitVec 5) (tag : U64)
  /-- SLAB_HISTORY (R162): T + window_ms passes; a last patch is released, open decisions close and the slab enters HISTORY. -/
  | slabHistory (grid : BitVec 5) (tag : U64)
  /-- PUB_FRAME_BUILD (R178): At T + offset − 200 µs a wire frame is built and queued for timed launch, or skipped. -/
  | pubFrameBuild (pub : U16) (tag : U64)
  /-- OSC_SCREEN_CONFIG (R204): Sets screening thresholds, baseline shift, warm-up, band mask and floors. -/
  | oscScreenConfig (h : Hdr) (p : OscScreenConfigP)
  /-- OSC_EST_CONFIG (R204): Sets estimator swap margin, window, hold, convergence, grouping and energy-flow settings. -/
  | oscEstConfig (h : Hdr) (p : OscEstConfigP)
  /-- OSC_ALARM_CONFIG (R204): Sets oscillation alarm enables, thresholds and persistence. -/
  | oscAlarmConfig (h : Hdr) (p : OscAlarmConfigP)
  /-- OSC_WATCH_ADD (R191): Adds a channel to the watch list so it holds an estimator slot. -/
  | oscWatchAdd (h : Hdr) (p : OscWatchP)
  /-- OSC_WATCH_REMOVE (R204): Removes a channel from the watch list. -/
  | oscWatchRemove (h : Hdr) (p : OscWatchP)
  /-- OSC_BRANCH_ADD (R197): Maps a branch of voltage and current phasors for energy-flow tracking. -/
  | oscBranchAdd (h : Hdr) (p : OscBranchP)
  /-- OSC_BRANCH_REMOVE (R204): Removes a mapped branch. -/
  | oscBranchRemove (h : Hdr) (p : OscBranchP)
  /-- OSC_RELEARN (R186): Resets warm-up and flags of one channel, a stream's channels or every channel. -/
  | oscRelearn (h : Hdr) (p : OscRelearnP)
  /-- OSC_OUTPUT_BIND (R198): Binds or unbinds a partition's estimator output ring. -/
  | oscOutputBind (h : Hdr) (p : OscOutputBindP)
  /-- SCREEN_STEP (R185): The screen takes a slab's final release and updates every channel's mean, resonators, energies and flags. -/
  | screenStep (grid : BitVec 5) (tag : U64)
  /-- SCREEN_PATCH_FIX (R190): A patch release reaching the screen corrects the resonators and mean of replaced cells. -/
  | screenPatchFix (grid : BitVec 5) (tag : U64)
  /-- ESTIMATOR_STEP (R193): An estimator kernel filters, updates its AR model and computes frequency, damping, amplitude and phase. -/
  | estimatorStep (slot : U16) (tag : U64)
  /-- ESTIMATOR_HOLD_EXPIRY (R192): hold_s passes on a HOLD slot with every alarm clear and the slot is freed. -/
  | estimatorHoldExpiry (slot : U16)
  /-- CLUSTER_CONFIG (R205): Sets the cluster grid, nominal frequency, window and clustering thresholds. -/
  | clusterConfig (h : Hdr) (p : ClusterConfigP)
  /-- BUS_SIGNAL_ADD (R205): Maps a bus signal from a frequency and a voltage-phasor channel. -/
  | busSignalAdd (h : Hdr) (p : BusSignalP)
  /-- BUS_SIGNAL_REMOVE (R208): Removes a bus signal, freeing an emptied cluster. -/
  | busSignalRemove (h : Hdr) (p : BusSignalP)
  /-- CLUSTER_REF (R209): Sets the reference list of bus signals. -/
  | clusterRef (h : Hdr) (p : ClusterRefP)
  /-- BREAKER_MAP_ADD (R214): Adds a breaker entry for topology checks. -/
  | breakerMapAdd (h : Hdr) (p : BreakerMapP)
  /-- BREAKER_MAP_REMOVE (R234): Removes a breaker entry. -/
  | breakerMapRemove (h : Hdr) (p : BreakerMapP)
  /-- DETECTOR_CONFIG (R234): Sets clusterer detector enables, thresholds, spans and clear times. -/
  | detectorConfig (h : Hdr) (p : DetectorConfigP)
  /-- ALARM_MAP_SET (R220): Sets an alarm map entry assigning an alarm range to stages. -/
  | alarmMapSet (h : Hdr) (p : AlarmMapP)
  /-- ALARM_MAP_REMOVE (R220): Removes an alarm map entry. -/
  | alarmMapRemove (h : Hdr) (p : AlarmMapP)
  /-- ALARM_STAGE (R222): Enables or disables an output stage and sets its mode, flags, timing and frame target. -/
  | alarmStage (h : Hdr) (p : AlarmStageP)
  /-- ALARM_ACK (R223): Acknowledges stages, releasing LATCHED stages or setting acked on ACTIVE ones. -/
  | alarmAck (h : Hdr) (p : AlarmAckP)
  /-- ALARM_TEST_FORCE (R222): Puts an enabled stage into TEST for duration_ms. -/
  | alarmTestForce (h : Hdr) (p : AlarmTestP)
  /-- ALARM_TEST_RELEASE (R223): Ends TEST on a stage and recomputes its state. -/
  | alarmTestRelease (h : Hdr) (p : AlarmTestP)
  /-- ALARM_FRAME_CONFIG (R225): Sets source_id, repeats, refresh interval and receive port of alarm frames. -/
  | alarmFrameConfig (h : Hdr) (p : AlarmFrameConfigP)
  /-- ALARM_GOOSE_CONFIG (R227): Configures a stage's GOOSE publication. -/
  | alarmGooseConfig (h : Hdr) (p : AlarmGooseConfigP)
  /-- CLUSTER_EVALUATION (R207): On a release, the clusterer computes membership and evaluates every detector condition. -/
  | clusterEvaluation (tag : U64)
  /-- PIN_MIN_ON_EXPIRY (R222): min_on_ms since assertion elapses and a pin awaiting release follows its stage state. -/
  | pinMinOnExpiry (stage : BitVec 4)
  /-- ALARM_TEST_EXPIRY (R222): A stage's TEST duration elapses and its state is recomputed. -/
  | alarmTestExpiry (stage : BitVec 4)
  /-- ALARM_FRAME_REPEAT (R225): A RAISE frame repeat falls due and is launched as an immediate frame. -/
  | alarmFrameRepeat (stage : BitVec 4)
  /-- ALARM_STATE_REFRESH (R225): At each multiple of refresh_ms an enabled stage sends a STATE frame. -/
  | alarmStateRefresh (stage : BitVec 4)
  /-- GOOSE_RETRANSMIT (R227): A GOOSE retransmission falls due with sqNum incremented and the interval doubled. -/
  | gooseRetransmit (stage : BitVec 4)
  /-- ALARM_FRAME_RX (R229): An alarm frame from another unit is checked and reported by REMOTE-ALARM-RECEIVED. -/
  | alarmFrameRx (f : AlarmRx)
  /-- CAPTURE_ADD (R237): Creates a capture with its lanes, rings and record slots from the capture pool. -/
  | captureAdd (h : Hdr) (p : CaptureAddP)
  /-- CAPTURE_SOURCES (R235): Appends sources to a lane of a disarmed capture, or clears the lane. -/
  | captureSources (h : Hdr) (p : CaptureSourcesP)
  /-- CAPTURE_TRIGGER_SET (R242): Sets one of a capture's 16 trigger entries. -/
  | captureTriggerSet (h : Hdr) (p : CaptureTriggerSetP)
  /-- CAPTURE_ARM (R239): Arms a capture, which restarts its rings empty and enters FILLING. -/
  | captureArm (h : Hdr) (p : CaptureArmP)
  /-- CAPTURE_DISARM (R239): Disarms a capture, truncating a record in progress. -/
  | captureDisarm (h : Hdr) (p : CaptureArmP)
  /-- CAPTURE_TRIGGER (R242): A host trigger at its doorbell or given time, optionally sent as a remote trigger. -/
  | captureTrigger (h : Hdr) (p : CaptureTriggerP)
  /-- CAPTURE_RECORD_FREE (R256): Frees a READY record slot. -/
  | captureRecordFree (h : Hdr) (p : CaptureRecordFreeP)
  /-- CAPTURE_EXPORT (R254): Starts export of a record to a host ring, compressed if asked, as a long command. -/
  | captureExport (h : Hdr) (p : CaptureExportP)
  /-- CAPTURE_EXPORT_DONE (R254): The export has been written and the slot freed if free_after was set. -/
  | captureExportDone (cmd : U32)
  /-- CAPTURE_RETIRE (R256): Starts retirement of a capture as a long command. -/
  | captureRetire (h : Hdr) (p : CaptureRetireP)
  /-- CAPTURE_RETIRE_DONE (R256): The capture's memory returns to the pool and the command completes. -/
  | captureRetireDone (capture : U8)
  /-- HALGA_IMPORT (R252): Starts reading a Halga record from a ring into an import slot. -/
  | halgaImport (h : Hdr) (p : HalgaImportP)
  /-- HALGA_IMPORT_DONE (R252): The imported record is checked and the import completes or fails. -/
  | halgaImportDone (cmd : U32) (r : HalgaIn)
  /-- HALGA_MERGE (R253): Starts a merge of 2 to 16 records in interleave or resample mode. -/
  | halgaMerge (h : Hdr) (p : HalgaMergeP)
  /-- HALGA_MERGE_DONE (R253): The merged record is complete in its merge slot. -/
  | halgaMergeDone (cmd : U32)
  /-- CAPTURE_REMOTE_CONFIG (R244): Registers the remote-trigger receive port and sets the send destination. -/
  | captureRemoteConfig (h : Hdr) (p : CaptureRemoteConfigP)
  /-- CAPTURE_ROWS (R236): The capture engine takes rows from releases, samples and voice into its lane rings and stream. -/
  | captureRows (capture : U8) (lane : U8) (rows : CapIn)
  /-- CAPTURE_FILLED (R239): pre_ms after arming, a FILLING capture becomes ARMED. -/
  | captureFilled (capture : U8)
  /-- TRIGGER_HOLDOFF_END (R242): A trigger entry's holdoff_ms ends and it fires again. -/
  | triggerHoldoffEnd (capture : U8) (entry : BitVec 4)
  /-- REMOTE_TRIGGER_RX (R244): A remote-trigger frame is checked and fires REMOTE entries of matching group. -/
  | remoteTriggerRx (f : RemoteRx)
  /-- RECORD_ASSEMBLED (R247): patch_hold_ms after its conditions, a record is written to its slot and becomes READY. -/
  | recordAssembled (capture : U8) (slot : U8)
  /-- SAGE_CLOCK_CONFIG (R261): Sets the modulator clock frequency and clock enables. -/
  | sageClockConfig (h : Hdr) (p : SageClockConfigP)
  /-- SAGE_CHAIN_CONFIG (R272): Enables or disables a metering point and sets its chain, restarting it when changed. -/
  | sageChainConfig (h : Hdr) (p : SageChainConfigP)
  /-- SAGE_FIR_LOAD (R263): Loads coefficients into a metering point's inactive FIR bank. -/
  | sageFirLoad (h : Hdr) (p : SageFirLoadP)
  /-- SAGE_FIR_SWITCH (R264): Makes the other bank active, with a cross-fade in RUNNING. -/
  | sageFirSwitch (h : Hdr) (p : SageFirSwitchP)
  /-- SAGE_DC_FREEZE (R266): Freezes the DC estimate of the named inputs. -/
  | sageDcFreeze (h : Hdr) (p : SageDcP)
  /-- SAGE_DC_RELEASE (R266): Releases frozen DC estimates of the named inputs, making them UNSETTLED briefly. -/
  | sageDcRelease (h : Hdr) (p : SageDcP)
  /-- SAGE_CAL (R268): Sets an input's scale, gain and delay calibration. -/
  | sageCal (h : Hdr) (p : SageCalP)
  /-- SAGE_TEMP_TABLE (R269): Loads an input's 33-point temperature table. -/
  | sageTempTable (h : Hdr) (p : SageTempTableP)
  /-- SAGE_TEMP_SOURCE (R270): Sets an input's temperature source, staleness limit and default. -/
  | sageTempSource (h : Hdr) (p : SageTempSourceP)
  /-- SAGE_TEMP (R270): Gives host temperature readings for inputs of source 1. -/
  | sageTemp (h : Hdr) (p : SageTempP)
  /-- SAGE_PMU_ADD (R278): Creates a local PMU stream for a metering point. -/
  | sagePmuAdd (h : Hdr) (p : SagePmuP)
  /-- SAGE_PMU_RETIRE (R284): Retires a local PMU stream under the stream retirement rules. -/
  | sagePmuRetire (h : Hdr) (p : SagePmuP)
  /-- SAGE_PMU_SV_WINDOW (R281): Sets the window length for sampled-value estimation. -/
  | sagePmuSvWindow (h : Hdr) (p : SagePmuP)
  /-- SAGE_OUTPUT_SAMPLE (R259): A chain delivers a calibrated, stamped output sample with its flags to every consumer. -/
  | sageOutputSample (b : SageBits)
  /-- INPUT_LOST (R274): MD_DATn shows no transition for 1,024 modulator clocks and the input is LOST. -/
  | inputLost (input : BitVec 7)
  /-- INPUT_RESTORED (R274): Transitions seen for 1,024 clocks restore the input to ACQUIRE. -/
  | inputRestored (input : BitVec 7)
  /-- DC_ACQUIRE_DONE (R266): P samples taken; the DC estimate is set and the stage tracks or freezes. -/
  | dcAcquireDone (input : BitVec 7)
  /-- SETTLING_END (R273): UNSETTLED_UNTIL passes on the last input and the metering point returns to RUNNING. -/
  | settlingEnd (mp : BitVec 4)
  /-- FADE_END (R264): F fade samples pass and the metering point returns to RUNNING. -/
  | fadeEnd (mp : BitVec 4)
  /-- TEMP_STALE_EXPIRY (R271): A temperature reading ages past stale_s and samples carry TEMP_STALE. -/
  | tempStaleExpiry (input : BitVec 7)
  /-- LOCAL_PMU_REPORT (R279): At a reporting instant, local estimation computes phasors, frequency and ROCOF and lands the report. -/
  | localPmuReport (mp : BitVec 4)
  /-- HALF_CYCLE_INTERVAL (R299): Every 128 GA ticks each voltage channel yields a half-cycle RMS value tested for sag, swell and interruption. -/
  | halfCycleInterval (mp : BitVec 4)
  /-- EQ_MP_CONFIG (R285): Sets a metering point's Udin, wiring, reverse flag and quality thresholds. -/
  | eqMpConfig (h : Hdr) (p : EqMpConfigP)
  /-- EQ_REG_CONFIG (R290): Configures a billing register and resets its value, residual and ROLLOVERS. -/
  | eqRegConfig (h : Hdr) (p : EqRegConfigP)
  /-- PULSE_CONFIG (R297): Configures a pulse output, latching the claim; changes of quantity or quantum zero OWED. -/
  | pulseConfig (h : Hdr) (p : PulseConfigP)
  /-- EQ_SAVE_CONFIG (R302): Sets the energy save interval. -/
  | eqSaveConfig (h : Hdr) (p : EqSaveConfigP)
  /-- EQ_SEAL (R294): Starts writing a new metrology seal generation as a long command. -/
  | eqSeal (h : Hdr) (p : EqSealP)
  /-- EQ_SEAL_DONE (R294): The seal generation is written and SEAL-CHANGED raised. -/
  | eqSealDone
  /-- EQ_GAP_ACK (R306): Acknowledges a gap log entry, clearing GAP when none remains. -/
  | eqGapAck (h : Hdr) (p : EqGapAckP)
  /-- ACCUMULATION_CYCLE_END (R291): A fundamental cycle ends and its energies are added to accumulators, registers and pulse outputs. -/
  | accumulationCycleEnd (mp : BitVec 4)
  /-- PULSE_START (R298): An idle pin with OWED above zero starts a pulse of width w. -/
  | pulseStart (output : BitVec 5)
  /-- PULSE_END (R298): A pulse's width elapses and the pin goes idle for at least w. -/
  | pulseEnd (output : BitVec 5)
  /-- ENERGY_SAVE (R302): After save_s, at a cycle end, the energy image is written to the next save slot. -/
  | energySave
  /-- ENERGY_SAVE_VERIFIED (R302): A save completes verification, or fails and raises EQ-SAVE-FAILED. -/
  | energySaveVerified (ok : Bool)
  /-- VOICE_TDM_CONFIG (R314): Enables or disables a highway and sets its drive and idle law. -/
  | voiceTdmConfig (h : Hdr) (p : VoiceTdmConfigP)
  /-- VOICE_CH_OPEN (R309): Opens a voice channel, reserving slots, timeslot and ports, pre-empting if allowed. -/
  | voiceChOpen (h : Hdr) (p : VoiceCfg)
  /-- VOICE_CH_MODIFY (R339): Changes a channel's codec and settings, pre-empting if its slots grow. -/
  | voiceChModify (h : Hdr) (p : VoiceModifyP)
  /-- VOICE_CH_START (R338): Starts media on an IDLE channel. -/
  | voiceChStart (h : Hdr) (p : VoiceChP)
  /-- VOICE_CH_STOP (R338): Stops media on an ACTIVE channel. -/
  | voiceChStop (h : Hdr) (p : VoiceChP)
  /-- EC_RESET (R325): Resets the echo canceller coefficients to zero. -/
  | ecReset (h : Hdr) (p : VoiceChP)
  /-- EC_FREEZE (R325): Freezes echo canceller adaptation. -/
  | ecFreeze (h : Hdr) (p : VoiceChP)
  /-- EC_UNFREEZE (R325): Resumes echo canceller adaptation. -/
  | ecUnfreeze (h : Hdr) (p : VoiceChP)
  /-- JITTER_RESYNC (R322): Resynchronises a channel's jitter buffer. -/
  | jitterResync (h : Hdr) (p : VoiceChP)
  /-- ANNOUNCEMENT_STOP (R342): Stops the playing announcement and empties the channel's queue. -/
  | announcementStop (h : Hdr) (p : VoiceChP)
  /-- VOICE_CH_CLOSE (R338): Closes a channel, releasing slots and timeslot and entering CLOSING. -/
  | voiceChClose (h : Hdr) (p : VoiceChP)
  /-- VOICE_SRTP_KEY (R335): Installs an SRTP master key and salt for one direction. -/
  | voiceSrtpKey (h : Hdr) (p : VoiceSrtpKeyP)
  /-- VOICE_TONE_PROFILE (R328): Sets a call-progress tone profile. -/
  | voiceToneProfile (h : Hdr) (p : VoiceToneProfileP)
  /-- VOICE_TONE_BIND (R330): Binds or unbinds a partition's tone record ring. -/
  | voiceToneBind (h : Hdr) (p : RingBindP)
  /-- VOICE_TONE_GEN (R333): Plays DTMF digits or a profile toward the line or packet leg. -/
  | voiceToneGen (h : Hdr) (p : VoiceToneGenP)
  /-- VOICE_ANN_LOAD (R340): Starts loading an announcement from a host ring as a long command. -/
  | voiceAnnLoad (h : Hdr) (p : VoiceAnnLoadP)
  /-- VOICE_ANN_LOADED (R340): An announcement finishes loading and becomes ready. -/
  | voiceAnnLoaded (ann : BitVec 6) (data : Bytes)
  /-- VOICE_ANN_MAP_SET (R341): Sets an announcement map entry binding alarms to announcements on channels. -/
  | voiceAnnMapSet (h : Hdr) (p : VoiceAnnMapP)
  /-- VOICE_ANN_MAP_REMOVE (R341): Removes an announcement map entry. -/
  | voiceAnnMapRemove (h : Hdr) (p : VoiceAnnMapP)
  /-- VOICE_ANN_PLAY (R342): Requests an announcement on channels through their queues. -/
  | voiceAnnPlay (h : Hdr) (p : VoiceAnnPlayP)
  /-- VOICE_BLOCK (R312): A 10 ms lattice block is processed for every channel: decode, playout, cancellation, tones, encode and send. -/
  | voiceBlock (b : VoiceBlockIn)
  /-- RTP_PACKET_RX (R319): A received RTP datagram is checked, authenticated and placed in the jitter buffer. -/
  | rtpPacketRx (p : RtpPacket)
  /-- DTMF_EVENT_TIMEOUT (R332): 250 ms after its last update without an end packet, a received digit ends. -/
  | dtmfEventTimeout (ch : U16)
  /-- RTCP_TX (R320): At its randomised interval a channel sends a compound SR or RR. -/
  | rtcpTx (ch : U16)
  /-- RTCP_RX (R320): A received RR report block updates rr_fraction_lost. -/
  | rtcpRx (r : RtcpReport)
  /-- VOICE_MEDIA_TIMEOUT (R321): No valid packet for media_timeout_ms raises VOICE-MEDIA-TIMEOUT. -/
  | voiceMediaTimeout (ch : U16)
  /-- HOST_VOICE_BLOCK (R324): A host-written voice block enters its channel's FIFO. -/
  | hostVoiceBlock (b : HostVoice)
  /-- KERNEL_LOAD (R367): Starts checking and loading a Beleth image onto user cores as a long command. -/
  | kernelLoad (h : Hdr) (p : KernelLoadP)
  /-- KERNEL_LOADED (R369): The image passes its checks and is written to every core, or is rejected. -/
  | kernelLoaded (kernel : BitVec 5) (bytes : Bytes) (sig : BelethSig)
  /-- KERNEL_BIND_ADD (R374): Adds an input or output binding to a kernel, creating its tasks. -/
  | kernelBindAdd (h : Hdr) (p : KernelBindP)
  /-- KERNEL_BIND_REMOVE (R374): Removes a binding of a kernel. -/
  | kernelBindRemove (h : Hdr) (p : KernelBindP)
  /-- KERNEL_START (R369): Starts a loaded kernel. -/
  | kernelStart (h : Hdr) (p : KernelStartP)
  /-- KERNEL_STOP (R369): Stops dispatch of a kernel as a long command. -/
  | kernelStop (h : Hdr) (p : KernelP)
  /-- KERNEL_STOPPED (R369): Every dispatched run has ended and the kernel returns to LOADED or FAULTED. -/
  | kernelStopped (kernel : BitVec 5)
  /-- KERNEL_UNLOAD (R369): Unloads a kernel, freeing its cores, SRAM and scratch. -/
  | kernelUnload (h : Hdr) (p : KernelP)
  /-- KERNEL_INPUT_MESSAGE (R371): A host message arrives for an input binding, is staged and queues a run. -/
  | kernelInputMessage (m : KernelMsg)
  /-- DMAC32 (R354): Two 32x32 products accumulated from two memory slots. -/
  | dmac32 (core : CoreNo) (b : Bundle)
  /-- QMAC16 (R354): Four 16x16 products accumulated from two 64-bit operands. -/
  | qmac16 (core : CoreNo) (b : Bundle)
  /-- MAC32 (R354): One 32x32 product accumulated. -/
  | mac32 (core : CoreNo) (b : Bundle)
  /-- DMAC16 (R354): Two 16x16 products accumulated. -/
  | dmac16 (core : CoreNo) (b : Bundle)
  /-- MSU (R354): The MSU forms subtract products from accumulators. -/
  | msu (core : CoreNo) (op : MacOp) (b : Bundle)
  /-- TAPMV (R362): Filter tap with coefficient from IM and delay-line move. -/
  | tapmv (core : CoreNo) (acc : Fin 4) (i : Fin 8) (ov : OvMode)
  /-- MACR (R354): Multiply-accumulate from D registers. -/
  | macr (core : CoreNo) (acc : Fin 4) (a b : Fin 16) (sign : MacSign) (ov : OvMode)
  /-- MSUR (R354): Multiply-subtract from D registers. -/
  | msur (core : CoreNo) (acc : Fin 4) (a b : Fin 16) (sign : MacSign) (ov : OvMode)
  /-- ADDA (R355): Accumulator addition. -/
  | adda (core : CoreNo) (dst src : Fin 4) (ov : OvMode)
  /-- SUBA (R355): Accumulator subtraction. -/
  | suba (core : CoreNo) (dst src : Fin 4) (ov : OvMode)
  /-- NEGA (R355): Accumulator negation. -/
  | nega (core : CoreNo) (acc : Fin 4) (ov : OvMode)
  /-- ABSA (R355): Accumulator absolute value. -/
  | absa (core : CoreNo) (acc : Fin 4) (ov : OvMode)
  /-- SHA (R355): Accumulator shift. -/
  | sha (core : CoreNo) (acc : Fin 4) (left : Bool) (n : BitVec 6) (ov : OvMode)
  /-- CLRA (R355): Clears up to four accumulators. -/
  | clra (core : CoreNo) (accs : List (Fin 4))
  /-- EXP (R357): Redundant sign bits of an accumulator minus 8. -/
  | exp (core : CoreNo) (d : Fin 16) (acc : Fin 4)
  /-- EXPD (R357): Redundant sign bits of a 32-bit register. -/
  | expd (core : CoreNo) (d a : Fin 16)
  /-- NORM (R357): Shifts an accumulator left or right by a register. -/
  | norm (core : CoreNo) (acc : Fin 4) (d : Fin 16) (ov : OvMode)
  /-- SAC (R356): Shifts, rounds and saturates an accumulator and stores it to memory. -/
  | sac (core : CoreNo) (m : AMode) (acc : Fin 4) (shift : BitVec 6) (rnd : Rnd) (half : Bool)
  /-- MVA (R356): Shifts, rounds and saturates an accumulator into a D register. -/
  | mva (core : CoreNo) (d : Fin 16) (acc : Fin 4) (shift : BitVec 6) (rnd : Rnd) (half : Bool)
  /-- ADD (R361): Integer addition. -/
  | add (core : CoreNo) (d a b : Fin 16)
  /-- SUB (R361): Integer subtraction. -/
  | sub (core : CoreNo) (d a b : Fin 16)
  /-- ADDI (R361): Integer addition of an immediate. -/
  | addi (core : CoreNo) (d a : Fin 16) (imm : U32)
  /-- AND (R361): Bitwise AND. -/
  | andD (core : CoreNo) (d a b : Fin 16)
  /-- OR (R361): Bitwise OR. -/
  | orD (core : CoreNo) (d a b : Fin 16)
  /-- XOR (R361): Bitwise exclusive OR. -/
  | xorD (core : CoreNo) (d a b : Fin 16)
  /-- NOT (R361): Bitwise complement. -/
  | notD (core : CoreNo) (d a : Fin 16)
  /-- SHL (R361): Shift left. -/
  | shl (core : CoreNo) (d a : Fin 16) (b : Src2)
  /-- SHR (R361): Logical shift right. -/
  | shr (core : CoreNo) (d a : Fin 16) (b : Src2)
  /-- SAR (R361): Arithmetic shift right. -/
  | sar (core : CoreNo) (d a : Fin 16) (b : Src2)
  /-- ROT (R361): Rotate. -/
  | rot (core : CoreNo) (d a : Fin 16) (b : Src2)
  /-- MIN (R361): Minimum of two registers. -/
  | min (core : CoreNo) (d a b : Fin 16)
  /-- MAX (R361): Maximum of two registers. -/
  | max (core : CoreNo) (d a b : Fin 16)
  /-- ABS (R361): Absolute value. -/
  | abs (core : CoreNo) (d a : Fin 16)
  /-- CMP (R361): Compare, setting ZNCV. -/
  | cmp (core : CoreNo) (a : Fin 16) (b : Src2)
  /-- SEL (R361): Select by condition. -/
  | sel (core : CoreNo) (cond : Cond) (d a b : Fin 16)
  /-- MUL (R361): Integer multiply, low part. -/
  | mul (core : CoreNo) (d a b : Fin 16)
  /-- MULH (R361): Integer multiply, high part. -/
  | mulh (core : CoreNo) (d a b : Fin 16)
  /-- DIVS (R361): One divide step. -/
  | divs (core : CoreNo) (d a b : Fin 16)
  /-- FADD (R358): Binary32 addition. -/
  | fadd (core : CoreNo) (d a b : Fin 16)
  /-- FSUB (R358): Binary32 subtraction. -/
  | fsub (core : CoreNo) (d a b : Fin 16)
  /-- FMUL (R358): Binary32 multiplication. -/
  | fmul (core : CoreNo) (d a b : Fin 16)
  /-- FMA (R358): Binary32 fused multiply-add. -/
  | fma (core : CoreNo) (d a b c : Fin 16)
  /-- FMIN (R358): Binary32 minimum. -/
  | fmin (core : CoreNo) (d a b : Fin 16)
  /-- FMAX (R358): Binary32 maximum. -/
  | fmax (core : CoreNo) (d a b : Fin 16)
  /-- FABS (R358): Binary32 absolute value. -/
  | fabs (core : CoreNo) (d a : Fin 16)
  /-- FNEG (R358): Binary32 negation. -/
  | fneg (core : CoreNo) (d a : Fin 16)
  /-- FCMP (R358): Binary32 compare. -/
  | fcmp (core : CoreNo) (a b : Fin 16)
  /-- FCVT (R358): Binary32 conversion. -/
  | fcvt (core : CoreNo) (k : Cvt) (d a : Fin 16)
  /-- FRCP (R358): Binary32 reciprocal estimate to 12 bits. -/
  | frcp (core : CoreNo) (d a : Fin 16)
  /-- FRSQ (R358): Binary32 reciprocal square root estimate to 12 bits. -/
  | frsq (core : CoreNo) (d a : Fin 16)
  /-- LD (R349): Load from local X or Y memory. -/
  | ld (core : CoreNo) (d : Fin 16) (sz : Size) (signed : Bool) (m : AMode)
  /-- ST (R349): Store to local X or Y memory. -/
  | st (core : CoreNo) (m : AMode) (d : Fin 16) (sz : Size)
  /-- LD64 (R349): 64-bit load, DUAL mode only. -/
  | ld64 (core : CoreNo) (d : Fin 8) (m : AMode)
  /-- ST64 (R349): 64-bit store, DUAL mode only. -/
  | st64 (core : CoreNo) (m : AMode) (d : Fin 8)
  /-- LDC (R350): Load from cluster SRAM, ready after 8 cycles plus conflicts. -/
  | ldc (core : CoreNo) (d : Fin 16) (m : AMode) (conflicts : BitVec 3)
  /-- STC (R350): Store to cluster SRAM. -/
  | stc (core : CoreNo) (m : AMode) (d : Fin 16) (conflicts : BitVec 3)
  /-- MOVI (R351): Move a 21-bit immediate. -/
  | movi (core : CoreNo) (r : SReg) (imm : U32)
  /-- MODI (R351): Modify a pointer with wrap. -/
  | modi (core : CoreNo) (i : Fin 8) (step : Src2)
  /-- MOV (R351): Move to or from I, K, BA and LN registers. -/
  | mov (core : CoreNo) (dst src : SReg)
  /-- B (R360): Unconditional branch, ending loops it leaves. -/
  | b (core : CoreNo) (target : U32)
  /-- BCC (R360): Conditional branch. -/
  | bcc (core : CoreNo) (cond : Cond) (target : U32)
  /-- CALL (R360): Call, pushing the return stack. -/
  | call (core : CoreNo) (target : U32)
  /-- RET (R360): Return, popping the return stack. -/
  | ret (core : CoreNo)
  /-- LOOP (R359): Opens a zero-overhead loop. -/
  | loop (core : CoreNo) (count : Count) (last : U32)
  /-- REP (R359): Repeats the next instruction from the loop buffer. -/
  | rep (core : CoreNo) (count : Count)
  /-- DMAQ (R363): Queues a transfer between local or cluster memory and the scratch window. -/
  | dmaq (core : CoreNo) (op : DmaqOp)
  /-- OUTQ (R363): Queues a record for an output binding. -/
  | outq (core : CoreNo) (binding : BitVec 4) (localAddr : BitVec 24) (bytes : BitVec 17)
  /-- WAITD (R363): Stalls until at most n transfers remain outstanding. -/
  | waitd (core : CoreNo) (n : BitVec 5)
  /-- DMA_TRANSFER_DONE (R363): A queued core transfer completes in queue order. -/
  | dmaTransferDone (core : CoreNo)
  /-- MVCCR (R352): Writes the core control register. -/
  | mvccr (core : CoreNo) (d : Fin 16)
  /-- NOP (R361): No operation. -/
  | nop (core : CoreNo)
  /-- DONE (R377): Drains the pipeline, ends the run and writes its completion record. -/
  | done (core : CoreNo)
  /-- BUDGET_FAULT (R371): A run reaches max_cycles and takes a BUDGET fault. -/
  | budgetFault (core : CoreNo)
  /-- YARROW_CONFIG (R397): Sets the queue-high and core-load alert percentages. -/
  | yarrowConfig (h : Hdr) (p : YarrowConfigP)
  /-- YARROW_LOAD_BIND (R397): Binds or unbinds a partition's core load ring. -/
  | yarrowLoadBind (h : Hdr) (p : YarrowLoadBindP)
  /-- TASK_DISPATCH (R387): Free cores are matched to READY tasks by home, cluster and remote passes. -/
  | taskDispatch
  /-- DELAY_EXPIRY (R384): A delay list entry falls due and sets TMR, reinserting periodic entries. -/
  | delayExpiry
  /-- LOAD_WINDOW_END (R393): A 1 ms load window ends; busy cycles are latched and load records written. -/
  | loadWindowEnd
  /-- PLACEMENT_EVALUATION (R394): Once per second the firmware judges imbalance and makes up to 8 moves. -/
  | placementEvaluation (v : PlacementIn)
  /-- CF_XCVR_PROFILE (R399): Loads the transceiver profile of SPI sequences, channel words and radio figures. -/
  | cfXcvrProfile (h : Hdr) (p : CfProfileP)
  /-- CF_CONFIG (R401): Enables or disables the coordinator and sets superframe, frame and dwell settings. -/
  | cfConfig (h : Hdr) (p : CfConfigP)
  /-- CF_CHANNEL_MAP (R405): Sets a new channel map taking effect at switch_sf. -/
  | cfChannelMap (h : Hdr) (p : CfChannelMapP)
  /-- CF_NODE_ADD (R404): Adds a node, choosing its phase and slot. -/
  | cfNodeAdd (h : Hdr) (p : CfNodeAddP)
  /-- CF_NODE_REMOVE (R417): Removes a node and releases its slot and stream. -/
  | cfNodeRemove (h : Hdr) (p : CfNodeP)
  /-- CF_NODE_KEY (R408): Schedules a node or beacon key switch. -/
  | cfNodeKey (h : Hdr) (p : CfNodeKeyP)
  /-- CF_NODE_STREAM_MAP (R413): Maps node sensors to a local stream. -/
  | cfNodeStreamMap (h : Hdr) (p : CfNodeStreamP)
  /-- CF_NODE_STREAM_UNMAP (R413): Unmaps a node's local stream. -/
  | cfNodeStreamUnmap (h : Hdr) (p : CfNodeStreamP)
  /-- CF_OUTPUT_BIND (R414): Binds or unbinds a partition's node record ring. -/
  | cfOutputBind (h : Hdr) (p : RingBindP)
  /-- CF_SEND (R415): Queues a downlink record for a node. -/
  | cfSend (h : Hdr) (p : CfSendP)
  /-- CF_RESET_WAIT_END (R401): The start-up reset pulse and wait end and the initialise and status sequences run. -/
  | cfResetWaitEnd (status : U8)
  /-- CF_STARTUP_RETRY (R401): A failed start-up is retried after 1 s, then every 10 s. -/
  | cfStartupRetry
  /-- CF_IRQ_TIMEOUT (R401): An SPI sequence leaves CF_IRQ unanswered for 10 ms and start-up fails. -/
  | cfIrqTimeout
  /-- SUPERFRAME_PLANNING (R406): 1 ms before a superframe, dwell budget drops slots or silences it. -/
  | superframePlanning
  /-- BEACON_STATUS_CHECK (R402): 500 µs before a superframe, the status is read and a beacon failure counted if not ready. -/
  | beaconStatusCheck (status : U8)
  /-- SUPERFRAME_START (R403): A superframe starts on its hop channel and the beacon is sent. -/
  | superframeStart
  /-- SLOT_POLL (R404): A node's slot starts and its poll with downlink records is sent. -/
  | slotPoll (node : U16)
  /-- CF_IRQ (R399): CF_IRQ asserts at sync detection or end of packet and sequence 7 clears it. -/
  | cfIrq (k : IrqKind)
  /-- RESPONSE_RX (R410): A node response is read, authenticated and its records delivered by sequence number. -/
  | responseRx (r : CfResponse)
  /-- BEACON_TX_TIMEOUT (R402): No end-of-transmit IRQ within airtime plus 2 ms and the beacon fails. -/
  | beaconTxTimeout
  /-- SLOT_END (R409): A slot ends without a valid response and the poll is missed. -/
  | slotEnd (node : U16)
  /-- NODE_SUPERVISION_TIMEOUT (R409): A node's supervision timeout expires and it is CLOSED. -/
  | nodeSupervisionTimeout (node : U16)
  /-- DILL_CONFIG (R422): Sets the pipeline switch quantum. -/
  | dillConfig (h : Hdr) (p : DillConfigP)
  /-- DILL_JOB_OPEN (R419): Opens a compression or decompression job bound to two rings. -/
  | dillJobOpen (h : Hdr) (p : DillOpenP)
  /-- DILL_JOB_CLOSE (R426): Closes a job at its next switch point as a long command. -/
  | dillJobClose (h : Hdr) (p : DillCloseP)
  /-- DILL_JOB_FREED (R426): A closing job reaches its switch point and is freed. -/
  | dillJobFreed (job : BitVec 6)
  /-- DILL_SEGMENT (R420): A pipeline processes an input segment and writes its output segment with trailer. -/
  | dillSegment (seg : DillSegmentP)
  /-- DILL_JOB_SWITCH (R422): A pipeline saves one job's state and restores another's. -/
  | dillJobSwitch (decomp : Bool)
  /-- POPPY_CURSOR_ABSOLUTE (R439): Sets the partition's window to a record number. -/
  | poppyCursorAbsolute (h : Hdr) (p : PoppyCursorP)
  /-- POPPY_CURSOR_RELATIVE (R439): Steps the partition's window by a signed amount. -/
  | poppyCursorRelative (h : Hdr) (p : PoppyCursorP)
  /-- POPPY_CURSOR_FIRST_KEPT (R439): Sets the window to the first kept record. -/
  | poppyCursorFirstKept (h : Hdr) (p : PoppyCursorP)
  /-- POPPY_CURSOR_OLDEST_CIRC (R439): Sets the window to OLDEST_CIRC. -/
  | poppyCursorOldestCirc (h : Hdr) (p : PoppyCursorP)
  /-- POPPY_CURSOR_LATEST (R439): Sets the window to NEXT_REC − 64. -/
  | poppyCursorLatest (h : Hdr) (p : PoppyCursorP)
  /-- POPPY_RATE_SET (R452): Sets a code's rate limit override, or the defaults. -/
  | poppyRateSet (h : Hdr) (p : PoppyRateP)
  /-- POPPY_RATE_REMOVE (R452): Removes a code's override, or restores the defaults. -/
  | poppyRateRemove (h : Hdr) (p : PoppyRateP)
  /-- OTP_WRITE (R445): Starts writing a boot configuration or partition defaults generation. -/
  | otpWrite (h : Hdr) (p : OtpWriteP)
  /-- OTP_WRITE_DONE (R444): The generation is written, WRITTEN programmed last and the previous superseded. -/
  | otpWriteDone (ok : Bool)
  /-- FLASH_IMAGE_WRITE (R449): Starts writing a firmware image or Beleth slot from a host ring. -/
  | flashImageWrite (h : Hdr) (p : FlashImageWriteP)
  /-- FLASH_IMAGE_WRITTEN (R449): The image verifies, the boot directory is updated and the command completes. -/
  | flashImageWritten (img : ImageIn)
  /-- FLASH_CONFIG (R450): Sets flash endurance and wear alert percentage. -/
  | flashConfig (h : Hdr) (p : FlashConfigP)
  /-- RATE_LIMIT_REFILL (R433): A LIMITED code's bucket is full again and EVENTS-SUPPRESSED is raised. -/
  | rateLimitRefill (code : U16)
  /-- FLUSH_PERIODIC (R434): Every 10 s a non-empty record buffer begins a flush. -/
  | flushPeriodic
  /-- FLUSH_START (R434): A flush begins on 512 buffered entries, a severity-3 record or a device-initiated reset. -/
  | flushStart
  /-- FLUSH_DONE (R434): Buffered records are programmed and verified and leave the buffer. -/
  | flushDone (ok : Bool)
  /-- OP_TIME_LOG_WRITE (R443): Every 10 s operating time is written as a cell to the log. -/
  | opTimeLogWrite
  /-- UNDEFINED_OPCODE (R39): A doorbell for a command whose opcode is unassigned or undefined (high byte 0x00 or 0x12 and above, or no such opcode in its group) returns BAD-OPCODE with no effect. -/
  | undefinedOpcode (h : Hdr) (opcode : U16)
  /-- CARRIER_SENSE_DROP (R117): Carrier sense from the PHY of a field port falls, and a frame that was deferring starts after the interframe gap. -/
  | carrierSenseDrop (port : BitVec 4)
  /-- JTAG_TCK (R478): A TCK edge advances the IEEE 1149.1 TAP, shifting TDI and TMS and running BYPASS, IDCODE, SAMPLE/PRELOAD or EXTEST. -/
  | jtagTck (e : TckEdge)
  deriving DecidableEq, Repr

end Sys2Proof
end

