-- ==== Sys2Proof/Config.lean ====
section
/-!
DEFINITION. What the spec leaves open, as constants without a body: a claim about them holds whatever they are (log entry 5).
`freeValue` is the uninterpreted source of values that are undefined at a point of a run; it is applied to the counter `free` of State.
The others are functions that an implementation fixes (a codec, a filter kernel, a cipher) and that the spec names without giving.
-/

namespace Sys2Proof.Config

/-- The value that is undefined at the k-th use. -/
opaque freeValue : Nat → Nat

/-- Identity that the spec does not state as a number: stepping, and the firmware versions of images A (false) and B. -/
opaque stepping : U16
opaque fwVersion : Bool → U32
/-- UNIT_ID and mac_base of the factory area (Table 17.5). -/
opaque unitId : U64
opaque macBase : U48
/-- Bytes 0x000 to 0x0FF of OTP, as Sirbex wrote them (Table 17.4). -/
opaque factoryArea : Nat → Byte
/-- The 64-bit words, by offset, in which the Dill engine keeps a context: its history, the bits it has not taken, the compressor's state (R422). -/
opaque dillSaved : Bytes → List Bool → Nat → Nat → U64

/-! ### Ports (chapter 04) -/

/-- Other multicast addresses that blocks of the device have registered, by port and address (R105). -/
opaque groupAddr : Nat → U48 → Bool
/-- How the aperture lays out an entry of the unknown-source table in its 32 B (R130): source address, pair, hi, map, dup_max, last acceptance. -/
opaque srcEntry : Nat → Nat → U16 → BitVec 64 → Nat → Nat → Nat → Byte
/-- The owner that the aperture shows for an entry of a timestamp queue (R130), of the frame of a number. -/
opaque tsOwner : Nat → U16

/-! ### Reports and slabs (chapters 05 and 06) -/

/-- The NaN stored for a missing value (R146); only its being a NaN is stated. -/
opaque nanBits : U32
/-- The angle of a phasor a component of which is infinite. -/
opaque angleOfInf : U32 → U16
/-- The cell that an unpredictable channel is filled with, beside its INVALID and PREDICTED bits (R167): of stream, slab tag, position. -/
opaque unpredValue : Nat → Nat → Nat → U32
opaque unpredAngle : Nat → Nat → Nat → U16
opaque unpredQuality : Nat → Nat → Nat → U16
/-- The extrapolation and the half-width of values that are not finite, from x(n−1) and x(n−2) (Table 6.3). -/
opaque extrapInf : U32 → U32 → U32
opaque widthInf : U32 → U32 → U32
/-- The text of a header frame that names a publication (R179), and the fields of a CFG-3 that a member's configuration does not give, by
stream and field. -/
opaque pubHeader : Nat → Bytes
opaque noPmu3 : Nat → Nat → Nat
/-- STAT bits 8–6 published for a member from which nothing has been received (R177). -/
opaque noTq : BitVec 3
/-- The two hash functions of the stream directory (R150), by seed generation and which of the two, and the 12-bit tag of a key. -/
opaque dirHash : Nat → Bool → StreamKey → Nat
opaque dirTag : Nat → StreamKey → Nat

/-! ### Mode estimation (chapter 07) -/

/-- Coefficients of the fourth-order Butterworth band-pass of a band at a rate (R193): its design from the analogue filter is not stated. -/
opaque butterNum : Nat → Nat → Nat → Scale
opaque butterDen : Nat → Nat → Nat → Scale
/-- The diagonal of a cleared model's covariance. -/
opaque rlsStart : U32
/-- f_sd (false) and zeta_sd of a model, of its coefficients and covariance, band and rate. -/
opaque estSd : List U32 → List U32 → Nat → Nat → Bool → U32
/-- The magnitude-squared coherence of two filtered signals (R195), and the share of a filtered signal's energy that lies within ±2 % of a
frequency (R196): how they are estimated from the signals is not stated. -/
opaque coherence : List (Nat × U32) → List (Nat × U32) → Scale
opaque energyShare : List (Nat × U32) → U32 → Scale
/-- The present value of a series (newest first) band-passed between two edges in µHz at a rate (R197). -/
opaque bandPass : List Scale → Nat → Nat → Nat → Scale

/-! ### Records and compression (chapters 09 and 16) -/

/-- The output of the compressor for a format (1 DEFLATE, 2 zlib). -/
opaque compress : Nat → Bytes → Bytes
/-- One segment of a host job through the compressor: its saved state, effort, data, FLUSH and FINAL, to the next saved state and the raw
DEFLATE bytes. -/
opaque deflate : Nat → Nat → Bytes → Bool → Bool → Nat × Bytes
/-- Minimum, maximum, mean and RMS (0 to 3) of a channel of a record with no valid row (R248). -/
opaque noRows : Nat → U32
/-- The grid-angle loop (R282), whose bandwidth and damping are typical values: the tracked frequency, µHz, from the one before, the phase error
(2^-8 tick), the advance of the reference's angle over a sample (2^-16 turn) and the sample rate. -/
opaque gaTrack : Nat → Int → Int → Nat → Nat
/-- The rate of the locked oscillator, µHz, from the tracked frequency and the phase error. -/
opaque gaOsc : Nat → Int → Nat
/-- The placement bound of a crossing at which the slope is zero (R246), by the row period. -/
opaque flatBound : Nat → Nat
/-- The angle of a resampled phasor cell (R253): from the four cells' angles and the position in 2^-32 row. -/
opaque resampleAngle : List U16 → Nat → U16

/-! ### Voice (chapter 12) -/

/-- Sample n of a signal the spec does not give by value (concealment, cross-fade, comfort noise, a generated tone, the canceller's output),
of a draw. -/
opaque signal : Nat → Nat → U16
/-- G.711 by law (true µ): octet to linear and back. -/
opaque g711Dec : Bool → Byte → U16
opaque g711Enc : Bool → U16 → Byte
/-- Linear samples of a packet of a codec and the octets of a block, each with a draw for the codec's state. -/
opaque decode : Nat → Bytes → Nat → List U16
opaque encode : Nat → List U16 → Nat → Bytes
/-- SRTP protection of a packet: suite, key, salt, index, header and payload. -/
opaque srtp : Nat → BitVec 128 → BitVec 112 → Nat → Bytes → Bytes
/-- The compound RTCP packet and the BYE of a channel, of its SSRC and a draw. -/
opaque rtcp : U32 → Bool → Nat → Bytes

/-! ### Metrology (chapters 10 and 11) -/

/-- The Hann-weighted mean of a list of values (R266); the window's form is not stated. -/
opaque hannMean : List Scale → Scale
/-- The cubic Farrow interpolator (10.2): four values, newest first, a delay and the sample period, ns. -/
opaque farrow : List Scale → Scale → Scale → Scale
/-- The 127-tap Hilbert FIR (R288), of the latest values, newest first. -/
opaque hilbert : List Scale → Scale
/-- The digests of a seal generation (Table 17.6), of a draw. -/
opaque sealDigests : Nat → Nat

/-! ### The radio coordinator (chapter 15) -/

/-- AES-128 CCM*: ciphertext and MIC, of key, nonce, header, payload and MIC bytes. -/
opaque ccmStar : BitVec 128 → Bytes → Bytes → Bytes → Nat → Bytes
/-- Bytes that the profile code 0x02 inserts for a frame length, and that a code without a meaning inserts (R399). -/
opaque frameLenBytes : Nat → Bytes
opaque profileCode : U8 → Bytes

/-! ### The JTAG TAP (R478) -/

/-- Length of the instruction register, bits that its capture loads above the lowest two, and the instruction a code selects (0 BYPASS, 1 IDCODE,
2 SAMPLE/PRELOAD, 3 EXTEST); length of the boundary register. -/
opaque tapIrLen : Nat
opaque tapIrCapture : Nat → Bool
opaque tapCode : List Bool → Nat
opaque boundaryLen : Nat

/-! ### Sorrel cores (13.5, 13.7) -/

/-- Whether C after a subtraction is the borrow. -/
opaque carryIsBorrow : Bool
/-- Whether ROT rotates to the left. -/
opaque rotLeft : Bool
/-- Whether MIN and MAX, and MULH, take signed operands. -/
opaque minSigned : Bool
opaque mulhSigned : Bool
/-- One divide step, from the destination's old value and the two sources. -/
opaque divStep : U32 → U32 → U32 → U32
/-- The estimates of FRCP and FRSQ. -/
opaque rcpEst : U32 → U32
opaque rsqEst : U32 → U32
/-- The cores and the cluster SRAM bases that the device proposes for a kernel: of its number, the cores asked for, and a draw. -/
opaque pickCores : Nat → Nat → List Nat
opaque pickSram : Nat → Nat → Nat
/-- The cluster in which the device proposes to place a task of a kernel. -/
opaque pickCluster : Nat → Nat

end Sys2Proof.Config
end

