-- ==== Sys2Proof/Machine/Table.lean ====
section
/-!
DEFINITION. Sparse tables: lists of (key, entry) pairs with strictly rising keys, the canonical form in which equal tables
are equal data. Records, rings, queues by number and sparse memories of the block are held in this form.
-/

namespace Sys2Proof.Machine

/-- A sparse table from numbers to entries; an absent key is an item that does not exist. -/
abbrev Tbl (α : Type) := List (Nat × α)

/-- The entry at a key. -/
def tget {α : Type} : Tbl α → Nat → Option α
  | [], _ => none
  | (k', v) :: t, k => if k' = k then some v else tget t k

/-- The entry at a key, or the value an absent key reads as. -/
def tgetD {α : Type} (t : Tbl α) (k : Nat) (d : α) : α := (tget t k).getD d

/-- Put an entry at a key, keeping the keys rising. -/
def tset {α : Type} : Tbl α → Nat → α → Tbl α
  | [], k, v => [(k, v)]
  | (k', v') :: t, k, v =>
    if k < k' then (k, v) :: (k', v') :: t
    else if k = k' then (k, v) :: t
    else (k', v') :: tset t k v

/-- Remove the entry at a key. -/
def tdel {α : Type} : Tbl α → Nat → Tbl α
  | [], _ => []
  | (k', v') :: t, k => if k' = k then tdel t k else (k', v') :: tdel t k

/-- Change the entry at a key, if there is one. -/
def tmod {α : Type} : Tbl α → Nat → (α → α) → Tbl α
  | [], _, _ => []
  | (k', v') :: t, k, f => if k' = k then (k', f v') :: t else (k', v') :: tmod t k f

/-- Change every entry. -/
def tmap {α β : Type} (f : Nat → α → β) : Tbl α → Tbl β
  | [] => []
  | (k, v) :: t => (k, f k v) :: tmap f t

/-- Keep the entries that a test accepts. -/
def tkeep {α : Type} (f : Nat → α → Bool) : Tbl α → Tbl α
  | [] => []
  | (k, v) :: t => if f k v then (k, v) :: tkeep f t else tkeep f t

/-- How many entries a test accepts. -/
def tcount {α : Type} (f : Nat → α → Bool) : Tbl α → Nat
  | [] => 0
  | (k, v) :: t => (if f k v then 1 else 0) + tcount f t

/-- Whether some entry meets a test. -/
def tany {α : Type} (f : Nat → α → Bool) : Tbl α → Bool
  | [] => false
  | (k, v) :: t => f k v || tany f t

/-- The lowest-numbered entry that meets a test. -/
def tfind {α : Type} (f : Nat → α → Bool) : Tbl α → Option (Nat × α)
  | [] => none
  | (k, v) :: t => if f k v then some (k, v) else tfind f t

/-- The lowest number from `k` on, among `fuel` candidates, that names no entry. -/
def tfreeFrom {α : Type} (t : Tbl α) : Nat → Nat → Option Nat
  | 0, _ => none
  | fuel + 1, k => match tget t k with
    | none => some k
    | some _ => tfreeFrom t fuel (k + 1)

/-- The canonical form: strictly rising keys. -/
def Tbl.wf {α : Type} : Tbl α → Bool
  | [] => true
  | [_] => true
  | (k, _) :: (k', v') :: t => decide (k < k') && Tbl.wf ((k', v') :: t)

/-- Read the list entry at a position, or a default. -/
def lget {α : Type} (l : List α) (i : Nat) (d : α) : α := (l[i]?).getD d

/-- Four like things, one per host partition. -/
structure Quad (α : Type) where
  a0 : α
  a1 : α
  a2 : α
  a3 : α
  deriving DecidableEq, Repr

/-- The thing of one partition. -/
def Quad.get {α : Type} (q : Quad α) : HP → α
  | 0 => q.a0
  | 1 => q.a1
  | 2 => q.a2
  | 3 => q.a3

/-- Replace the thing of one partition. -/
def Quad.set {α : Type} (q : Quad α) : HP → α → Quad α
  | 0, v => { q with a0 := v }
  | 1, v => { q with a1 := v }
  | 2, v => { q with a2 := v }
  | 3, v => { q with a3 := v }

/-- Change every thing. -/
def Quad.map {α β : Type} (f : α → β) (q : Quad α) : Quad β := ⟨f q.a0, f q.a1, f q.a2, f q.a3⟩

/-- Four copies. -/
def Quad.all {α : Type} (v : α) : Quad α := ⟨v, v, v, v⟩

/-- The partitions in order. -/
def allHP : List HP := [0, 1, 2, 3]

end Sys2Proof.Machine
end

