-- ==== Sys2Proof/Machine/Blocks/Net.lean ====
section
/-!
DEFINITION. State of the network ports, the PRP pairs and the transmit paths (group 0x04, 04_network_ports.md), and of stream ingest,
the stream directory and the channel pool (group 0x05, 05_stream_ingest.md).
-/

namespace Sys2Proof.Machine

/-- Traffic classes (Table 1.2). -/
inductive Cls where
  | c0 | c1 | c2 | c3
  deriving DecidableEq, Repr

/-- The class number. -/
def Cls.num : Cls → Nat
  | .c0 => 0
  | .c1 => 1
  | .c2 => 2
  | .c3 => 3

/-- A received frame in an ingress queue (R109, R125, R126): its class, its bytes, whether its consumer has begun to read it, and its receive
timestamp in units of 2^-16 ns. -/
structure InFrame where
  cls : Cls
  len : Nat
  begun : Bool
  ts16 : Nat
  deriving DecidableEq, Repr

/-- What the latency of a C0 output is measured by (R27, R230): its starting instant, TAI ns, its alarm, and its bound in ns where Table 1.3
gives one. -/
structure C0Meas where
  ev : Nat
  alarm : Nat
  bound : Option Nat
  deriving DecidableEq, Repr

/-- Who is told when a frame the device sends completes. -/
inductive TxOwner where
  /-- A host frame: partition, ring, and HOST_IDX minus 1 that covered its LAST descriptor (Table 4.8). -/
  | host (part : HP) (ring : Nat) (index : U32)
  | ptp (port : Nat) (kind : Nat)
  | supervision
  | publication (slot : Nat)
  /-- An alarm frame or a GOOSE message of a stage, and how its latency is measured, where it is. -/
  | alarm (stage : Nat) (goose : Bool) (meas : Option C0Meas)
  | trigger
  | rtp (ch : Nat)
  | rtcp (ch : Nat)
  | c37Command (handle : Nat)
  | c37Reply (slot : Nat)
  deriving DecidableEq, Repr

/-- The flags of a transmit report (Table 4.8). -/
structure TxFlags where
  tsLostA : Bool
  tsLostB : Bool
  late : Bool
  delayed : Bool
  deferred : Bool
  stepCancelled : Bool
  linkDownA : Bool
  linkDownB : Bool
  excColl : Bool
  lateColl : Bool
  deriving DecidableEq, Repr

def TxFlags.none : TxFlags := ⟨false, false, false, false, false, false, false, false, false, false⟩

/-- The flags as the 16-bit field of Table 4.8. -/
def TxFlags.bits (f : TxFlags) : Nat :=
  (if f.tsLostA then 1 else 0) + (if f.tsLostB then 2 else 0) + (if f.late then 4 else 0) + (if f.delayed then 8 else 0) +
  (if f.deferred then 16 else 0) + (if f.stepCancelled then 32 else 0) + (if f.linkDownA then 64 else 0) +
  (if f.linkDownB then 128 else 0) + (if f.excColl then 256 else 0) + (if f.lateColl then 512 else 0)

/-- Where the IP and transport header of a frame sends it: UDP or TCP, destination address and port; the source port and the DSCP or traffic class
where the spec gives them. -/
structure NetTo where
  tcp : Bool := false
  addr : BitVec 128
  dst : U16
  src : Option U16 := none
  dscp : Option U8 := none
  deriving DecidableEq, Repr

/-- A frame the device sends: on one port, or on both ports of a pair. -/
structure TxFrame where
  cls : Cls
  /-- The port, or the first port of the pair. -/
  port : Nat
  pair : Bool
  /-- RCT sequence number, where it is PRP traffic (R111). -/
  rctSeq : Option U16
  /-- Bytes from destination address to payload, and on the wire, with FCS, RCT and padding (R107, R108). -/
  len : Nat
  wireLen : Nat
  launch : Option Nat
  tsReq : Bool
  /-- The frame asks for a transmit timestamp and holds an entry on port A and port B (R122). -/
  tsA : Bool
  tsB : Bool
  /-- Copies not yet complete, and the timestamps of those that are, in units of 2^-16 ns. -/
  left : Nat
  stampA : Nat
  stampB : Nat
  flags : TxFlags
  status : U16
  owner : TxOwner
  /-- Level within its class (R21). -/
  level : Nat
  /-- Where its IP and transport header sends it; none: `body` is the frame from its destination address on. -/
  to_ : Option NetTo
  body : Bytes
  deriving DecidableEq, Repr

/-- A frame that has gone out on a port: its owner, where its header sends it, what the device put into it, the zero bytes of its padding, and its RCT (R108, R111). -/
structure SentFrame where
  port : Nat
  owner : TxOwner
  to_ : Option NetTo
  body : Bytes
  pad : Nat
  rct : Bytes
  deriving DecidableEq, Repr

/-- An entry of a timed-launch queue (R120, R130). -/
structure LqEntry where
  launch : Nat
  cls : Cls
  ref : Nat
  deriving DecidableEq, Repr

/-- An entry of a transmit timestamp queue (R122, R130): the frame that holds it. -/
structure TsEntry where
  ref : Nat
  ptp : Bool
  deriving DecidableEq, Repr

/-- The frame on a field port that has collided: attempts made and the elapsed instant its back-off ends (Table 4.4). -/
structure Backoff where
  ref : Nat
  attempts : Nat
  until_ : Option Nat
  deriving DecidableEq, Repr

/-- One MAC (Table 4.9). -/
structure Port where
  enable : Bool
  speed : BitVec 3
  fec : BitVec 2
  rgmiiId : Bool
  maxFrame : Nat
  rxLatNs : U16
  txLatNs : U16
  thrC3 : Nat
  thrC2 : Nat
  thrC1 : Nat
  link : Bool
  speedAct : BitVec 3
  halfDuplex : Bool
  pressure : Bool
  occHwm : Nat
  /-- Frames in the ingress queue, oldest first. -/
  inq : List InFrame
  lq : List LqEntry
  tsq : List TsEntry
  /-- Non-timed frames waiting to be sent, in order of entry. -/
  txq : List Nat
  /-- C0 frames of the alarm stage held because the launch queue holds only C0 frames (R120). -/
  heldC0 : List Nat
  /-- Timed frames whose launch has come and that wait for the wire. -/
  due : List Nat
  /-- Credits of C1, C2 and C3 (R21). -/
  credits : Nat × Nat × Nat
  /-- The frame on the wire, with its transmit timestamp in units of 2^-16 ns. -/
  wire : Option (Nat × Nat)
  backoff : Option Backoff
  /-- Carrier sensed from the PHY of a field port. -/
  carrier : Bool
  /-- The port dropped a C1 frame in this 1 ms window (R127); elapsed instant of the last window that did. -/
  dropC1Now : Bool
  lastPressureEl : Option Nat
  lastTsqEvtEl : Option Nat
  lastPoisonEvtEl : Option Nat
  deriving DecidableEq, Repr

/-- An unknown-source table entry (R114). -/
structure SrcEntry where
  hi : U16
  /-- Bit i: hi − i has been accepted. -/
  map : BitVec 64
  dupMax : Nat
  lastEl : Nat
  /-- Elapsed instant at which the first copy of hi arrived (R115). -/
  hiEl : Nat
  deriving DecidableEq, Repr

/-- A PRP pair (Table 4.11). -/
structure Pair where
  forgetMs : Nat
  skewAlertMs : Nat
  lanSilenceMs : Nat
  txSeq : U16
  supSeq : U16
  lanAOk : Bool
  lanBOk : Bool
  dupDMax : Nat
  skewLastUs : Nat
  skewMaxUs : Nat
  /-- The last duplicate of hi lay above skew_alert_ms (R115); DUP_D_MAX has raised PRP-SKEW. -/
  skewHigh : Bool
  dupRaised : Bool
  heardAEl : Option Nat
  heardBEl : Option Nat
  /-- Elapsed instant of the last supervision frame sent (R112). -/
  supEl : Option Nat
  deriving DecidableEq, Repr

/-- A host frame taken from its ring: its number, its descriptors, and its final status (R128). -/
structure Taken where
  ref : Nat
  descs : Nat
  status : Option U16
  deriving DecidableEq, Repr

/-- A PORT-TX-BIND binding (R128). -/
structure TxBind where
  /-- Frames taken and not yet completed, oldest first. -/
  taken : List Taken
  reportRing : Option Nat
  target : Nat
  deriving DecidableEq, Repr

/-- Group 0x04. -/
structure NetBlk where
  ports : Tbl Port
  pair0 : Pair
  pair1 : Pair
  /-- Unknown-source entries, keyed by MAC × 2 + pair. -/
  unknown : Tbl SrcEntry
  frames : Tbl TxFrame
  frameNext : Nat
  /-- Bindings, keyed by partition × 64 + ring. -/
  binds : Tbl TxBind
  /-- Frames that have gone out, newest first; at most the last 64. -/
  sent : List SentFrame
  /-- mac_base of the boot configuration that the device started with, where a generation is written (R105). -/
  macBase : Option Nat
  /-- Elapsed instant at which the last 1 ms window of R127 ended. -/
  windowEl : Nat
  deriving DecidableEq, Repr

/-- A port at reset (Table 4.9): 25 Gb/s on P0–P3, 10 Mb/s on F0–F7, 1000 Mb/s on M0. -/
def Port.init (k : Nat) : Port :=
  { enable := false, speed := if k < 4 then 5 else if k < 12 then 1 else 3, fec := 0, rgmiiId := false, maxFrame := 1522,
    rxLatNs := 0, txLatNs := 0, thrC3 := 50, thrC2 := 70, thrC1 := 90, link := false, speedAct := 0, halfDuplex := false,
    pressure := false, occHwm := 0, inq := [], lq := [], tsq := [], txq := [], heldC0 := [], due := [], credits := (8, 4, 1),
    wire := none, backoff := none, carrier := false, dropC1Now := false, lastPressureEl := none, lastTsqEvtEl := none,
    lastPoisonEvtEl := none }

def Pair.init : Pair :=
  { forgetMs := 400, skewAlertMs := 100, lanSilenceMs := 5000, txSeq := 0, supSeq := 0, lanAOk := false, lanBOk := false,
    dupDMax := 0, skewLastUs := 0, skewMaxUs := 0, skewHigh := false, dupRaised := false, heardAEl := none, heardBEl := none, supEl := none }

def NetBlk.init : NetBlk :=
  { ports := [], pair0 := .init, pair1 := .init, unknown := [], frames := [], frameNext := 0, binds := [], sent := [], macBase := none, windowEl := 0 }

/-- Stream states (Table 5.8). -/
inductive StState where
  | awaitCfg | active | paused | retiring
  deriving DecidableEq, Repr

/-- A channel descriptor (Table 5.7), with the CHNAM its cfg_gen follows. -/
structure ChanDesc where
  kind : Nat
  float : Bool
  polar : Bool
  cfgGen : BitVec 4
  pos : Nat
  block : Nat
  fnom50 : Bool
  scale : Scale
  offset : Scale
  name : Nat
  deriving DecidableEq, Repr

/-- A stream record with its directory entry (Tables 5.6 and 5.13). -/
structure Stream where
  key : StreamKey
  port : Nat
  state : StState
  level : Nat
  owner : HP
  auto : Bool
  linkUp : Bool
  silent : Bool
  maxChannels : Nat
  chanBase : Nat
  svRate : Nat
  active : Option C37Cfg
  pending : Option C37Cfg
  descs : List ChanDesc
  lastTag : Nat
  latLastUs : Nat
  latMaxUs : Nat
  frames : Nat
  dupDiscard : Nat
  malformed : Nat
  chkErr : Nat
  noCfg : Nat
  offGrid : Nat
  poisoned : Nat
  cfgRx : Nat
  rctSeen : Bool
  rctPair : Bool
  prpHi : U16
  prpMap : U16
  prpHiEl : Nat
  latQ : Nat
  latN : Nat
  /-- Elapsed instant the silence time runs from (R489). -/
  silenceEl : Nat
  /-- Whether it stands in the stash, its slot there or in the directory, and the 12-bit tag of its key (R150). -/
  inStash : Bool
  slot : Nat
  tag : Nat
  /-- The directory entry has an uncorrectable ECC error and is treated as absent (R150). -/
  eccBad : Bool
  /-- STREAM-RETIRE's long command, and the slab boundary of its grid that must pass, TAI ns. -/
  retire : Option Nat
  retireAt : Option Nat
  /-- Next expected smpCnt of a sampled-value stream, and the last sample's elapsed instant. -/
  smpNext : Option Nat
  /-- A divided CFG-3 being joined: the CONT_IDX expected next, and its bytes so far (R141). -/
  cont : Option (Nat × Nat)
  /-- Elapsed instant of the last attempt of a TCP client to connect (R139). -/
  connEl : Option Nat
  deriving DecidableEq, Repr

/-- Group 0x05. -/
structure IngBlk where
  streams : Tbl Stream
  ctP : Nat
  ctF : Nat
  ctM : Nat
  ctDma : Nat
  silenceMs : Nat
  rebuilding : Bool
  /-- Elapsed instant a rebuild began, and how many choices of seeds it has found too small. -/
  rebuildEl : Nat
  rebuildTries : Nat
  hashGen : U16
  /-- Device-clock second being counted, and its data frames and reports; the last full second's. -/
  curSec : Nat
  curFrames : Nat
  curReports : Nat
  frames1s : Nat
  reports1s : Nat
  /-- Elapsed instant until which reports are marked TIME_DISCONTINUITY (R79). -/
  discUntilEl : Option Nat
  /-- Last INGEST-POISON of each partition's host-DMA queue (R134). -/
  lastDmaPoisonEl : Quad (Option Nat)
  /-- Start commands of TCP streams, sent at each connection (Table 5.10). -/
  starts : Tbl U8
  deriving DecidableEq, Repr

def IngBlk.init : IngBlk :=
  { streams := [], ctP := 4, ctF := 4, ctM := 4, ctDma := 4, silenceMs := 2000, rebuilding := false, rebuildEl := 0, rebuildTries := 0, hashGen := 0,
    curSec := 0, curFrames := 0, curReports := 0, frames1s := 0, reports1s := 0, discUntilEl := none,
    lastDmaPoisonEl := .all none, starts := [] }

end Sys2Proof.Machine
end

