-- ==== Sys2Proof/Machine/Blocks/Alarm.lean ====
section
/-!
DEFINITION. State of the coherency clusterer with its detectors, and of the alarm stage (group 0x08, 08_islanding_alarms.md).
-/

namespace Sys2Proof.Machine

/-- A bus signal (Table 8.11). -/
structure Sig where
  fChan : Nat
  aChan : Nat
  cluster : Option Nat
  usable : Bool
  observed : Bool
  dOwn : U32
  deriving DecidableEq, Repr

inductive CluAlarmState where
  | clear | active | clearing
  deriving DecidableEq, Repr

/-- One alarm of a cluster (Table 8.2): its state, its raising slab, and the tag at which its clear condition began to hold. -/
structure CluAlarm where
  state : CluAlarmState
  raisingTag : Nat
  raiseTs : Nat
  since : Nat
  changed : Nat
  deriving DecidableEq, Repr

/-- A cluster (Table 8.12). -/
structure Clu where
  formedTag : Nat
  formedSeq : Nat
  unobsSince : Option Nat
  members : Nat
  observed : Nat
  f : Scale
  r : Scale
  theta : Scale
  island : CluAlarm
  rocof : CluAlarm
  fexc : CluAlarm
  angle : CluAlarm
  /-- Its angle to every other cluster at some slab, which other slabs extend (R212): by the other's number, tag and angle in 2^-16 turn. -/
  anchors : Tbl (Nat × Scale)
  deriving DecidableEq, Repr

/-- A breaker entry (R214). -/
structure Breaker where
  bit : Nat
  chan : Nat
  sigA : Nat
  sigB : Nat
  closed : Bool
  deriving DecidableEq, Repr

/-- Clusterer settings (Table 8.9). -/
structure CluCfg where
  grid : Option Nat
  fNom60 : Bool
  windowMs : Nat
  joinMhz : Nat
  leaveMhz : Nat
  mergeMhz : Nat
  minMembers : Nat
  obsPct : Nat
  usablePct : Nat
  deriving DecidableEq, Repr

structure DetCfg where
  divMhz : Nat
  divHystMhz : Nat
  islandConfMs : Nat
  islandClearMs : Nat
  rocofMhzs : Nat
  rocofSpanMs : Nat
  rocofConfMs : Nat
  rocofClearMs : Nat
  fexcLoMhz : Nat
  fexcHiMhz : Nat
  fexcConfMs : Nat
  fexcClearMs : Nat
  angThrCdeg : Nat
  angHystCdeg : Nat
  angConfMs : Nat
  angClearMs : Nat
  enables : BitVec 4
  unobsClearS : Nat
  deriving DecidableEq, Repr

/-- The clusterer. -/
structure IslBlk where
  cfg : CluCfg
  det : DetCfg
  signals : Tbl Sig
  clusters : Tbl Clu
  /-- Cluster numbers freed, oldest first; numbers never used count as freed at reset in ascending order (R208). -/
  freed : List Nat
  everUsed : Nat
  formSeq : Nat
  refCluster : Option Nat
  refList : List (Option Nat)
  breakers : Tbl Breaker
  lastEvalTag : Nat
  /-- Membership fixed for each slab, by tag (R207). -/
  memb : Tbl (Tbl Nat)
  /-- Settings by the elapsed instant of their commit, newest first: a slab has those in force when it opened (R234). -/
  cfgHist : List (Nat × CluCfg × DetCfg)
  /-- Tag of the last slab on which clear conditions were judged (R217). -/
  lastClear : Nat
  deriving DecidableEq, Repr

inductive StageState where
  | disabled | inactive | active | latched | test
  deriving DecidableEq, Repr

/-- A pending repeat of a RAISE frame (R225): the frame body, repeats sent, and the elapsed instant the first bit of the original left. -/
structure Repeat where
  stage : Nat
  alarm : Nat
  body : Bytes
  sent : Nat
  total : Nat
  baseEl : Option Nat
  ref : Nat
  deriving DecidableEq, Repr

/-- GOOSE publication of a stage (R227). -/
structure Goose where
  target : Nat
  appid : U16
  vlan : U16
  tMinMs : Nat
  tMaxMs : Nat
  dstMac : U48
  gocbRef : Bytes
  datSet : Bytes
  goId : Bytes
  stNum : U32
  sqNum : U32
  confRev : U32
  /-- Elapsed instant of the next retransmission and the interval that leads to it, ms. -/
  nextEl : Option Nat
  intervalMs : Nat
  questionable : Bool
  evTs : U64
  alarm : U16
  changes : U32
  deriving DecidableEq, Repr

/-- An output stage (Tables 8.4 and 8.13). -/
structure Stage where
  state : StageState
  latch : Bool
  claim : U8
  everEnabled : Bool
  activeLow : Bool
  frame : Bool
  goose : Bool
  timed : Bool
  acked : Bool
  minOnMs : Nat
  frameTarget : Nat
  offsetUs : Nat
  dstPort : U16
  srcPort : U16
  dstAddr : BitVec 128
  gse : Option Goose
  /-- Alarms of the stage that are active, each with the raise it took. -/
  active : List Nat
  lastChangeTs : U64
  changes : U64
  /-- The pin is asserted; the elapsed instant it was last asserted. -/
  pin : Bool
  pinEl : Nat
  /-- How the release of its pin that is to come is measured (R230): 0 pin or 3 sag pin, and from what. -/
  rel : Option (Nat × C0Meas)
  /-- Elapsed instant TEST ends. -/
  testEnd : Option Nat
  /-- Value of refresh_ms multiple last sent (R225). -/
  lastState : Nat
  deriving DecidableEq, Repr

/-- What a decision brings to the stage: alarm number, slab tag or start of the crossing interval, evidence-complete or deciding release,
value with its half-width, whether predicted, and the bound of a sag, swell or interruption pin in ns. -/
structure AlmInfo where
  num : Nat
  tag : Nat
  ev : Nat
  value : U32
  bound : U32
  predicted : Bool
  sagBound : Option Nat
  deriving DecidableEq, Repr

/-- A happening that reaches the alarm stage (R224): of a withdrawal the timestamp of the raise and whether the alarm is still active. -/
inductive StageAct where
  | raise (a : AlmInfo)
  | withdraw (a : AlmInfo) (raiseTs : Nat) (still : Bool)
  | clear (a : AlmInfo)
  deriving DecidableEq, Repr

/-- The alarm stage. -/
structure AlmBlk where
  map : Tbl (Nat × Nat × U16)
  stages : Tbl Stage
  sourceId : U16
  rep : Nat
  repMs : Nat
  refreshMs : Nat
  rxPort : U16
  seq : U32
  repeats : List Repeat
  /-- Last 16 sequence numbers accepted from each source_id (R229). -/
  rxSeen : Tbl (List U32)
  latMaxPin : Nat
  latMaxFrame : Nat
  latMaxGoose : Nat
  latMaxSag : Nat
  /-- Evidence-complete instants of alarm outputs within 1 ms of the last, and the elapsed instant of the last ALARM-RATE-EXCEEDED (R231). -/
  recentOut : List Nat
  /-- Happenings of the step in progress, in the order they came; none between steps (R224). -/
  held : Option (List StageAct)
  /-- Stages that took the last raise of each alarm number (R220, R228). -/
  carried : Tbl U16
  lastRateEl : Option Nat
  deriving DecidableEq, Repr

def CluAlarm.init : CluAlarm := ⟨.clear, 0, 0, 0, 0⟩

def Stage.init : Stage :=
  { state := .disabled, latch := false, claim := 0, everEnabled := false, activeLow := false, frame := false, goose := false,
    timed := false, acked := false, minOnMs := 0, frameTarget := 0, offsetUs := 0, dstPort := 0, srcPort := 0, dstAddr := 0,
    gse := none, active := [], lastChangeTs := 0, changes := 0, pin := false, pinEl := 0, rel := none, testEnd := none, lastState := 0 }

def IslBlk.init : IslBlk :=
  { cfg := ⟨none, false, 500, 10, 20, 5, 3, 50, 80⟩,
    det := ⟨50, 10, 100, 2000, 500, 100, 50, 1000, 200, 200, 100, 2000, 3000, 500, 50, 2000, 0xF, 60⟩,
    signals := [], clusters := [], freed := [], everUsed := 0, formSeq := 0, refCluster := none,
    refList := [none, none, none, none, none, none, none, none], breakers := [], lastEvalTag := 0, memb := [], cfgHist := [], lastClear := 0 }

def AlmBlk.init : AlmBlk :=
  { map := [], stages := [], sourceId := 0, rep := 2, repMs := 4, refreshMs := 1000, rxPort := 0, seq := 0, repeats := [],
    rxSeen := [], latMaxPin := 0, latMaxFrame := 0, latMaxGoose := 0, latMaxSag := 0, recentOut := [], held := none, carried := [], lastRateEl := none }

end Sys2Proof.Machine
end

