-- ==== Sys2Proof/Machine/Blocks/Align.lean ====
section
/-!
DEFINITION. State of the Clover aligner (group 0x06): grids, slabs, decisions and publications (06_alignment.md).
-/

namespace Sys2Proof.Machine

/-- A report cell (Table 5.4): single-precision value, quality word (Table 5.5), angle. -/
structure Cell where
  value : U32
  quality : U16
  angle : U16
  deriving DecidableEq, Repr

/-- A fill record (Table 6.4). -/
structure Fill where
  hVal : U32
  hAng : U16
  nDiff : Nat
  hold : Bool
  deriving DecidableEq, Repr

/-- A cell of a slab slot: what it holds, whether that is a received report, and the interval of a fill. -/
structure SlabCell where
  cell : Cell
  received : Bool
  fill : Option Fill
  deriving DecidableEq, Repr

inductive SlabState where
  | forming | speculative | final | history
  deriving DecidableEq, Repr

/-- Why a slab had its final release (Table 6.12). -/
inductive SlabCause where
  | none | complete | deadline | step
  deriving DecidableEq, Repr

/-- Decision status of a condition on a slab (Table 6.5). -/
inductive DecStatus where
  | undecided | raised | raisedPredicted | notRaised | withdrawn
  deriving DecidableEq, Repr

structure Decision where
  status : DecStatus
  lastUnknown : Bool
  raiseTs : Nat
  /-- The alarm was raised by this slab: it is the raising slab (R218). -/
  raiser : Bool
  deriving DecidableEq, Repr

/-- Grid settings (Table 6.10). -/
structure GridCfg where
  windowMs : Nat
  maxWaitMs : Nat
  marginUs : Nat
  spec16 : Nat
  predK : Nat
  patchGapUs : Nat
  deriving DecidableEq, Repr

/-- A slab (Tables 6.2 and 6.12). -/
structure Slab where
  /-- The slot of the ring that holds it (R159, R181). -/
  slot : Nat
  state : SlabState
  cause : SlabCause
  cfg : GridCfg
  /-- Expected streams with their deadline offsets d_s, µs (R163). -/
  expected : Tbl Nat
  /-- Streams present. -/
  present : List Nat
  /-- Cells by stream handle, in position order. -/
  cells : Tbl (List SlabCell)
  /-- Reports held apart since the last release (R162): position and cell of each, first held first; TAI ns at which the first landed. -/
  held : Tbl (List (Nat × Cell))
  heldTs : Nat
  /-- Channel count of each stream of the grid when the slab opened (Table 6.9). -/
  nChans : Tbl Nat
  filled : Nat
  late : Nat
  patches : Nat
  openTs : Nat
  /-- Elapsed instant at which it opened: settings take effect from the next slab to open (R204, R234). -/
  openEl : Nat
  /-- TAI ns at which the set of missing streams last changed (R165). -/
  chgTs : Nat
  specTs : Nat
  finalTs : Nat
  lastPatchTs : Nat
  /-- The slab was opened while TIME_VALID was 1 (R166). -/
  byTime : Bool
  decisions : Tbl Decision
  /-- In HISTORY, with every release evaluated and its open decisions closed (Table 6.5). -/
  closed : Bool
  /-- Streams whose reports the last release made visible (R172). -/
  merged : List Nat
  /-- Releases the clusterer has evaluated. -/
  evals : Nat
  /-- The screen has taken the final release; patch releases it has looked at (R187, R190). -/
  screened : Bool
  scrPatches : Nat
  /-- Cells that patch releases have replaced and the screen has not looked at, by stream and position (R190). -/
  fixes : List (Nat × Nat)
  deriving DecidableEq, Repr

structure Grid where
  cfg : GridCfg
  active : Bool
  newestTag : Nat
  lastSpecTs : Nat
  lastFinalTs : Nat
  finalLagUs : Nat
  finalLagMaxUs : Nat
  /-- Slabs by time tag (TAI ns). -/
  slabs : Tbl Slab
  deriving DecidableEq, Repr

/-- A stream's alignment record (Table 6.13). -/
structure AlnStream where
  grid : Nat
  capped : Bool
  placed : Bool
  cellBase : Nat
  dUs : Nat
  /-- Which of the last 1,024 accepted data frames landed late. -/
  lateMap : BitVec 1024
  /-- Tag of the first slab after the stream's last STREAM-CFG-APPLIED (R167); none until its next report. -/
  cfgTag : Option Nat
  /-- Quality word of its last received report (R177). -/
  lastQ : Option U16
  deriving DecidableEq, Repr

inductive PubState where
  | enabled | disabled | off | suspended
  deriving DecidableEq, Repr

/-- A publication (Table 6.11). -/
structure Pub where
  host : Bool
  grid : Nat
  state : PubState
  owner : HP
  idcode : U16
  target : Nat
  ring : Nat
  options : U8
  level : Nat
  offsetUs : Nat
  dstAddr : BitVec 128
  dstPort : U16
  srcPort : U16
  cfgCnt : U16
  members : List Nat
  /-- Member lists before it, oldest first, each with the first tag that no longer uses it (R182). -/
  older : List (Nat × List Nat)
  frameBytes : Nat
  lastTag : Nat
  lastLaunch : Nat
  frames : Nat
  incomplete : Nat
  skipped : Nat
  patchRecs : Nat
  latePatch : Nat
  /-- Members that have raised PUB-MEMBER-OFFGRID. -/
  offgrid : List Nat
  /-- The first tag of a new layout of which no frame has been built, and the TAI ns until which STAT bit 10 is set (R178). -/
  chgFrom : Option Nat
  chgUntil : Nat
  retiring : Bool
  /-- Tags at or below this have been built. -/
  builtTag : Nat
  deriving DecidableEq, Repr

/-- Group 0x06. -/
structure AlnBlk where
  grids : Tbl Grid
  streams : Tbl AlnStream
  pubs : Tbl Pub
  poolMib : Nat
  usedHwm : Nat
  poolHigh : Bool
  deriving DecidableEq, Repr

def GridCfg.init : GridCfg := ⟨1000, 250, 2000, 24, 12, 1000⟩

def Grid.init : Grid :=
  { cfg := .init, active := false, newestTag := 0, lastSpecTs := 0, lastFinalTs := 0, finalLagUs := 0, finalLagMaxUs := 0,
    slabs := [] }

def AlnBlk.init : AlnBlk := { grids := [], streams := [], pubs := [], poolMib := 0, usedHwm := 0, poolHigh := false }

end Sys2Proof.Machine
end

