-- ==== Sys2Proof/Machine/Blocks/Capture.lean ====
section
/-!
DEFINITION. State of the capture engine and of the import and merge slots (group 0x09, 09_capture_records.md).
-/

namespace Sys2Proof.Machine

inductive CapState where
  | disarmed | filling | armed | recording
  deriving DecidableEq, Repr

inductive RecState where
  | recording | assembling | ready | exporting
  deriving DecidableEq, Repr

/-- A record slot in use (Table 9.15). -/
structure RecSlot where
  state : RecState
  record : Halga
  bytes : Nat
  readyTs : Nat
  /-- TAI ns at which the conditions of R247 were all met. -/
  condTs : Option Nat
  condEl : Nat
  /-- Alarm number that triggered it, where one did, with its raising slab (WITHDRAWN marks). -/
  alarm : Option Nat
  /-- Lane and position of the trigger channel, for a trigger of kind 2 to 5. -/
  chan : Option (Nat × Nat)
  deriving DecidableEq, Repr

/-- A trigger entry (R242). -/
structure TrigEntry where
  kind : Nat
  dir : Nat
  lane : Nat
  send : Bool
  pos : Nat
  level : U32
  hyst : U32
  param : U64
  holdoffMs : Nat
  /-- Elapsed instant the hold-off ends. -/
  holdEnd : Option Nat
  /-- LEVEL: inside the region; DIGITAL: the last bit. -/
  inside : Bool
  last : Option Bool
  /-- TIMED: a clock step has cancelled it: complete with this status and flag STEP-CANCELLED (R79, R250). -/
  cancelled : Option U16
  deriving DecidableEq, Repr

/-- A lane of a capture with its ring (R235, R237). -/
structure Lane where
  kind : Nat
  rate : Nat
  maxSources : Nat
  sources : List (Nat × Nat)
  /-- Rows in the ring, oldest first: instant and words. -/
  rows : List (Nat × List U64)
  /-- The next data item of the stream carries TIME-DISCONTINUITY before (Table 9.11). -/
  disc : Bool
  /-- Elapsed instant of the last sample row taken since arming. -/
  lastEl : Option Nat
  deriving DecidableEq, Repr

/-- A capture (Table 9.14). -/
structure Cap where
  mode : Nat
  state : CapState
  owner : HP
  level : Nat
  slotCount : Nat
  streamRing : Option Nat
  exportRing : Option Nat
  exportFmt : Nat
  refLane : Option Nat
  refPos : Nat
  preMs : Nat
  postMs : Nat
  patchHoldMs : Nat
  lanes : List Lane
  entries : Tbl TrigEntry
  armTs : Nat
  armEl : Nat
  poolBytes : Nat
  recNo : U32
  slots : Tbl RecSlot
  triggers : Nat
  early : Nat
  retrig : Nat
  retrigLate : Nat
  holdoff : Nat
  recFull : Nat
  records : Nat
  rowLost : Nat
  streamSkip : Nat
  patchAfterRec : Nat
  marksLost : Nat
  /-- TIMED entries cancelled by a clock step (R79). -/
  timedCancelled : Nat
  gapBefore : Bool
  lastGapEl : Option Nat
  /-- CAPTURE-RETIRE accepted: its long command. -/
  retiring : Option Nat
  deriving DecidableEq, Repr

/-- An export, import or merge in progress. -/
inductive CapJob where
  /-- source (0 capture, 1 import, 2 merge), capture, slot, fmt, partition, ring, free after. -/
  | exportJob (source cap slot fmt : Nat) (part : HP) (ring : Nat) (freeAfter : Bool)
  | importJob (slot : Nat) (part : HP) (ring bytes : Nat)
  | mergeJob (slot : Nat) (mode sRate grid : Nat) (inputs : List (Nat × Nat × Nat))
  deriving DecidableEq, Repr

/-- Group 0x09. -/
structure CapBlk where
  caps : Tbl Cap
  /-- Import slots 0 to 15 and merge slots 0 to 3. -/
  imports : Tbl RecSlot
  merges : Tbl RecSlot
  /-- Jobs in progress, by long command. -/
  jobs : Tbl CapJob
  poolMib : Nat
  poolHwm : Nat
  poolHigh : Bool
  rtPort : U16
  sourceId : U16
  txGroup : Nat
  txTarget : Nat
  txDstPort : U16
  txDstAddr : BitVec 128
  unitId : U64
  txSeq : U32
  /-- Last 16 sequence numbers accepted from each unit (R244). -/
  rxSeen : Tbl (List U32)
  /-- Changes of the TQ code, newest first: instant and code (Table 9.6). -/
  tqHist : List (Nat × Nat)
  deriving DecidableEq, Repr

def CapBlk.init : CapBlk :=
  { caps := [], imports := [], merges := [], jobs := [], poolMib := 0, poolHwm := 0, poolHigh := false, rtPort := 0, sourceId := 0,
    txGroup := 0, txTarget := 0xFF, txDstPort := 0, txDstAddr := 0, unitId := 0, txSeq := 0, rxSeen := [], tqHist := [] }

end Sys2Proof.Machine
end

