-- ==== Sys2Proof/Machine/Blocks/Clock.lean ====
section
/-!
DEFINITION. State of the device clock, its sources, time quality, the grid-angle clock and the queue of timed actions
(group 0x03, 03_timebase.md).
-/

namespace Sys2Proof.Machine

/-- Device clock states (Table 3.1). -/
inductive ClkState where
  | unlocked | acquiring | locked | holdover
  deriving DecidableEq, Repr

/-- Time sources, in the coding of Table 3.7. -/
inductive Src where
  | none | ptp | pps | irig
  deriving DecidableEq, Repr

/-- Grid-angle clock states (Table 3.5). -/
inductive GaState where
  | nominal | acquiring | locked
  deriving DecidableEq, Repr

/-- A PTP port of the device (R82): its foreign master and its peer delay measurement. -/
structure PtpPort where
  master : Option AnnounceMsg
  /-- Elapsed instants of the two latest Announce messages of the master. -/
  annEl : Nat
  annPrev : Option Nat
  /-- The master qualifies the port (Table 3.2). -/
  qual : Bool
  /-- TAI ns at which the last Pdelay_Req crossed the medium. -/
  reqTs : Option Nat
  /-- Elapsed instants of the last Pdelay_Req and of the last Announce and Sync sent as master. -/
  reqEl : Option Nat
  masterEl : Option Nat
  delay : U32
  pdelaySeq : U16
  announceSeq : U16
  syncSeq : U16
  deriving DecidableEq, Repr

/-- What a pending timed action does when it fires (3.7). -/
inductive TimedKind where
  /-- Fire a timed trigger of a capture engine. -/
  | trigger (engine mark : Nat)
  /-- Make the play requests of an announcement map entry for an alarm number. -/
  | announcement (entry alarm : Nat)
  deriving DecidableEq, Repr

/-- A pending timed action: its launch time in TAI ns, and whether it is a C0 output of the alarm stage or an alarm announcement. -/
structure TimedAct where
  launch : Nat
  kind : TimedKind
  deriving DecidableEq, Repr

/-- A TIME-STEP waiting to run: its long command, its payload and the partition. -/
structure StepReq where
  long : Nat
  part : HP
  p : TimeStepP
  deriving DecidableEq, Repr

/-- A leap second announced and not yet over (R90, R91). -/
structure Leap where
  /-- TAI second of the UTC midnight it takes effect at. -/
  tai : Nat
  deletion : Bool
  /-- What announced it: 0 PTP, 1 IRIG, 2 command. -/
  origin : Nat
  deriving DecidableEq, Repr

/-- A GA tick 0 or 128: its half-cycle number since reset, device time, elapsed time, and whether GA-NOMINAL was set (R92, R94). -/
structure GaMark where
  idx : Nat
  ts : Nat
  el : Nat
  nominal : Bool
  deriving DecidableEq, Repr

/-- Group 0x03. -/
structure ClkBlk where
  /-- What the ticks of ABS_TICK lie behind elapsed time, ns: a step moves them to the new multiples of 1,000 without a tick (R382). -/
  absOff : Int
  sec : U48
  ns : BitVec 30
  /-- The 32 fraction bits kept internally (R71). -/
  frac : U32
  incrApplied : U40
  incrTarget : U40
  incrFreq : U40
  /-- Device time advanced since reset, in 2^-32 ns; steps do not move it. -/
  adv : Nat
  state : ClkState
  timeValid : Bool
  everLocked : Bool
  source : Src
  /-- A source that is to be taken at its next servo update (R75). -/
  take : Src
  /-- A more preferred source waiting out src_holdoff, with the elapsed instant of expiry (R80). -/
  better : Option (Src × Nat)
  /-- The last active source. -/
  lastSrc : Src
  tq : BitVec 4
  statTq : BitVec 3
  unlockedCode : BitVec 2
  syncErr : Bool
  leapPending : Bool
  leapOccurred : Bool
  leapDir : Bool
  leap : Option Leap
  /-- TAI second at which Leap Second Occurred ends. -/
  occurredEnd : Nat
  freqLimit : Bool
  slavePort : Bool
  stateChanges : U32
  /-- Last offset, ns. -/
  offset : Int
  pathDelay : U32
  slewPpm : Nat
  alertUs : Nat
  utcOffset : Int
  /-- The offset last set by TIME-UTC-OFFSET or IRIG (R88). -/
  utcSet : Int
  ptpUtcValid : Bool
  srcEn : BitVec 3
  pair : Bool
  domain : U8
  classLimit : U8
  srcHoldoff : Nat
  fMaster : U8
  holdPpb : Nat
  e0Ns : Nat
  holdStart : U48
  holdStartEl : Nat
  leftLockedEl : Nat
  gmId : U64
  gmClass : U8
  gmAccuracy : U8
  gmVariance : U16
  stepsRemoved : U16
  portA : BitVec 4
  portB : BitVec 4
  /-- Servo run counts: updates below 100 ns, updates of 1 µs or more, frequency estimates out of and within range. -/
  lockRun : Nat
  unlockRun : Nat
  freqBad : Nat
  freqGood : Nat
  ptpPorts : Tbl PtpPort
  ppsQual : Bool
  ppsRun : Nat
  /-- The previous PPS_IN edge and the previous accepted one, on the device clock. -/
  ppsEdge : Option Nat
  ppsAcc : Option Nat
  ppsAccEl : Nat
  ppsLast : U64
  irigQual : Bool
  irigRun : Nat
  irigEl : Nat
  irigSec : Option Nat
  /-- The latest frame without a fault, as read (R86). -/
  irigLast : Option IrigFrame
  gaState : GaState
  gaRefMp : Nat
  gaRefEn : Bool
  gaFNom60 : Bool
  gaSlew : Nat
  gaCount : U40
  gaFreq : Nat
  gaPhaseErr : Int
  gaLastTs : U64
  gaLastEl : Nat
  /-- Consecutive cycles that meet the condition of the next state, and consecutive half-cycles of low voltage and of large phase error. -/
  gaRun : Nat
  gaLow : Nat
  gaErr : Nat
  /-- Whether the condition of the next state has held since the cycle began, and those of R95 since the half-cycle began. -/
  gaCycHeld : Bool
  gaLowHeld : Bool
  gaErrHeld : Bool
  /-- The frequency the reference shows, µHz, its angle at the last sample, in 2^-16 turn, and the half cycle of that sample. -/
  gaMeas : Nat
  gaRefAng : Int
  gaHalfNo : Nat
  /-- The latest ticks 0 and 128, newest first, and how many half cycles have passed. -/
  gaMarks : List GaMark
  gaHalves : Nat
  ppsOutEn : Bool
  widthMs : Nat
  ppsOut : Bool
  ppsRiseEl : Nat
  /-- TAI second of the last PPS_OUT rise. -/
  ppsRiseSec : Option Nat
  /-- Device time just after the last clock step; an instant below it lies before that step (R230). -/
  stepTs : Nat
  steps : List StepReq
  timed : List TimedAct
  deriving DecidableEq, Repr

def PtpPort.init : PtpPort :=
  { master := none, annEl := 0, annPrev := none, qual := false, reqTs := none, reqEl := none, masterEl := none, delay := 0, pdelaySeq := 0
    announceSeq := 0, syncSeq := 0 }

/-- Group 0x03 at reset (R72, Table 3.7). -/
def ClkBlk.init : ClkBlk :=
  { absOff := 0, sec := 0, ns := 0, frac := 0, incrApplied := 0x0200000000, incrTarget := 0x0200000000, incrFreq := 0x0200000000, adv := 0,
    state := .unlocked, timeValid := false, everLocked := false, source := .none, take := .none, better := none, lastSrc := .none,
    tq := 0xF, statTq := 0b111, unlockedCode := 0b11, syncErr := true, leapPending := false, leapOccurred := false,
    leapDir := false, leap := none, occurredEnd := 0, freqLimit := false, slavePort := false, stateChanges := 0, offset := 0, pathDelay := 0,
    slewPpm := 50, alertUs := 1000, utcOffset := 37, utcSet := 37, ptpUtcValid := false, srcEn := 0b111, pair := false,
    domain := 0, classLimit := 7, srcHoldoff := 10, fMaster := 0, holdPpb := 100, e0Ns := 50, holdStart := 0, holdStartEl := 0,
    leftLockedEl := 0, gmId := 0, gmClass := 255, gmAccuracy := 0xFE, gmVariance := 0xFFFF, stepsRemoved := 0, portA := 0,
    portB := 0, lockRun := 0, unlockRun := 0, freqBad := 0, freqGood := 0, ptpPorts := [], ppsQual := false, ppsRun := 0,
    ppsEdge := none, ppsAcc := none, ppsAccEl := 0, ppsLast := 0, irigQual := false, irigRun := 0, irigEl := 0, irigSec := none, irigLast := none,
    gaState := .nominal, gaRefMp := 0, gaRefEn := false, gaFNom60 := false, gaSlew := 10, gaCount := 0, gaFreq := 50000000,
    gaPhaseErr := 0, gaLastTs := 0, gaLastEl := 0, gaRun := 0, gaLow := 0, gaErr := 0, gaCycHeld := false, gaLowHeld := false, gaErrHeld := false, gaMeas := 50000000, gaRefAng := 0, gaHalfNo := 0, gaMarks := [], gaHalves := 0, ppsOutEn := true, widthMs := 100, ppsOut := false,
    ppsRiseEl := 0, ppsRiseSec := none, stepTs := 0, steps := [], timed := [] }

end Sys2Proof.Machine
end

