-- ==== Sys2Proof/Machine/Blocks/Core.lean ====
section
/-!
DEFINITION. State of the device itself (group 0x01), of the host partitions (group 0x02), and of the Poppy recorder with OTP and
flash (group 0x11): 02_host_partitions.md, 17_recorder_persistence.md and 18_startup_reset.md.
-/

namespace Sys2Proof.Machine

/-- STATUS boot field (Table 2.14): 0 reset, 1 booting, 2 READY, 3 halted. -/
inductive Boot where
  | reset | booting | ready | halted
  deriving DecidableEq, Repr

/-- Reset causes (Table 18.5). -/
inductive Cause where
  | powerOn | system | commanded | watchdog | firmwareHalt
  deriving DecidableEq, Repr

/-- The device-wide registers of Table 18.6 and the control pins of Table 19.2. -/
structure DevBlk where
  boot : Boot
  stage : Nat
  haltCode : BitVec 8
  cause : Cause
  /-- Running firmware image: true is B. -/
  imageB : Bool
  fallback : Bool
  pfailWait : Bool
  bootMs : U32
  readyTs : U64
  dramMib : U32
  otpBootGen : BitVec 4
  otpSealGen : BitVec 4
  otpDefGen : BitVec 4
  stageMs : Tbl Nat
  /-- Levels of PORN and PFAIL_N. -/
  porn : Bool
  pfailN : Bool
  /-- SRST_N became low during a power-fail flush and is taken at its end (R465). -/
  srstPending : Bool
  /-- PFAIL_N has been asserted: every C0 bound is suspended until the device has restarted (R23). -/
  c0Off : Bool
  /-- What the last boot found. -/
  bootIn : Option BootIn
  /-- DEVICE-RESET accepted: the image byte; its save and flush are in progress (R467). -/
  resetReq : Option U8
  /-- Warnings noted while booting, raised at READY (Table 18.9). -/
  warnings : List U8
  /-- UNCLEAN-RESET is to be raised at READY, naming the last record number in flash (R437). -/
  uncleanRec : Option Nat
  /-- A PORN release has counted a power cycle whose POWER-CYCLE is not raised yet (R443). -/
  cycleDue : Bool
  /-- The image that a DEVICE-RESET names for this boot: 0 none, 1 A, 2 B (R457). -/
  ovr : U8
  deriving DecidableEq, Repr

/-- Partition states of Table 2.10. -/
inductive PState where
  | out | returning | healthy | degraded | failing
  deriving DecidableEq, Repr

/-- A mailbox as the host reads it after a command (Table 2.5). -/
structure Mbx where
  opcode : U16
  tag : U32
  status : U16
  resp : Bytes
  done : Bool
  deriving DecidableEq, Repr

/-- A cached response (R42). -/
structure Cached where
  tag : U32
  opcode : U16
  status : U16
  resp : Bytes
  deriving DecidableEq, Repr

/-- A long command not yet complete (R44). -/
structure LongCmd where
  part : HP
  urg : Bool
  tag : U32
  opcode : U16
  /-- Elapsed instant at which it exceeds its time limit. -/
  deadline : Nat
  deriving DecidableEq, Repr

/-- An event-ring entry (Table 2.7). -/
structure EvtEntry where
  seq : U32
  code : U16
  severity : BitVec 2
  timeValid : Bool
  completion : Bool
  taiS : U48
  taiNs : U32
  tag : U32
  status : U16
  params : Bytes
  deriving DecidableEq, Repr

/-- The seven quotas, in the order of Table 2.9. -/
structure Quota where
  streams : Nat
  channels : Nat
  voiceSlots : Nat
  publications : Nat
  dmaRings : Nat
  captureRings : Nat
  userCores : Nat
  deriving DecidableEq, Repr

/-- What a ring is bound to (2.10). -/
inductive RingUse where
  | unbound
  | publication (slot : Nat)
  | estimator
  | capture (engine : Nat)
  | halga
  | voice
  | tone
  | load
  | txReport
  | frameTx (port : Nat)
  | dill (job : Nat)
  | kernel (k : Nat)
  | announcement
  | image
  | radio
  deriving DecidableEq, Repr

/-- A descriptor the device has finished (R66): its status, bytes written, and the data written to host memory. -/
structure DescDone where
  desc : Desc
  status : U16
  len : U32
  data : Bytes
  deriving DecidableEq, Repr

/-- A DMA ring of a partition (Tables 2.4 and 2.16). -/
structure Ring where
  /-- true: host to device. -/
  toDev : Bool
  entries : Nat
  base : U64
  hostIdx : U32
  devIdx : U32
  use : RingUse
  /-- A retire in progress: its long command. -/
  retiring : Option Nat
  /-- Descriptors the device owns, oldest first. -/
  owned : List Desc
  /-- HOST_IDX after each doorbell that gave descriptors the device still owns, and its device time. -/
  bells : List (U32 × Nat)
  /-- The descriptor finished last. -/
  lastDone : Option DescDone
  deriving DecidableEq, Repr

/-- Snapshot status (Table 2.12) with what the snapshot covers (R63, R64). -/
inductive SnapState where
  | none | valid | aborted | released
  deriving DecidableEq, Repr

structure Snap where
  state : SnapState
  gen : U32
  taiS : U48
  groups : U32
  windowed : U32
  /-- Elapsed instant of expiry. -/
  expiry : Nat
  deriving DecidableEq, Repr

/-- One host partition. -/
structure Part where
  /-- The partition's lanes form a link (R33). -/
  present : Bool
  link : Bool
  pstate : PState
  claim : U8
  v : Bool
  p : Bool
  hbpFitted : Bool
  /-- LAST_V and LAST_P, TAI ns (Table 2.15), and the same instants as elapsed ns. -/
  lastV : U64
  lastP : U64
  lastVEl : Nat
  lastPEl : Nat
  /-- Level of HB_INn as last counted. -/
  hbIn : Bool
  /-- Elapsed instants at which a running failure, hold-off or takeover timer ends (R58, R60, R487). -/
  failTimer : Option Nat
  holdTimer : Option Nat
  takeover : Option Nat
  quota : Quota
  rings : Tbl Ring
  snap : Snap
  evtProd : U32
  evtCons : U32
  evtSeq : U32
  evtRing : Tbl EvtEntry
  /-- Events lost since the ring filled: how many, and the first lost sequence number (R48). -/
  lost : Nat
  lostFirst : U32
  mbxN : Mbx
  mbxU : Mbx
  /-- Replay caches of MBX_N and MBX_U, newest first (R42). -/
  cacheN : List Cached
  cacheU : List Cached
  /-- Aperture windows: (group × 256 + table) to the first entry shown. -/
  windows : Tbl Nat
  /-- How often each MSI-X vector has been signalled (R36). -/
  msix : Tbl Nat
  deriving DecidableEq, Repr

/-- The partitions, control and long commands (group 0x02). -/
structure HostBlk where
  parts : Quad Part
  controller : Option HP
  changes : U16
  failMs : U16
  holdoffMs : U16
  long : Tbl LongCmd
  longNext : Nat
  deriving DecidableEq, Repr

/-- A Poppy record (Table 17.1) with its record number; the CRC is a function of the rest. -/
structure Rec where
  num : Nat
  code : U16
  severity : BitVec 2
  timeValid : Bool
  trunc : Bool
  powerCycles : Nat
  opSec : Nat
  opHours : Nat
  taiMs : Nat
  /-- Twelve bytes. -/
  params : Bytes
  deriving DecidableEq, Repr

/-- The token bucket and LIMITED state of one event code (R432, R433). -/
structure Bucket where
  tokens : Nat
  /-- ABS_TICK from which tokens are counted, and how many instants have been counted since. -/
  base : Nat
  granted : Nat
  limited : Bool
  suppressed : Nat
  /-- Elapsed ms of the first and the last suppressed occurrence. -/
  firstMs : Nat
  lastMs : Nat
  deriving DecidableEq, Repr

/-- A rate override entry (R451). -/
structure RateOvr where
  code : U16
  rate : Nat
  burst : Nat
  deriving DecidableEq, Repr

/-- One OTP generation (R444). -/
structure OtpGen where
  written : Bool
  superseded : Bool
  gen : Nat
  /-- Whether its CRC verifies. -/
  crcOk : Bool
  content : Bytes
  deriving DecidableEq, Repr

/-- A sector header of the record store (R438). -/
structure Sector where
  first : Nat
  seq : Nat
  used : Nat
  deriving DecidableEq, Repr

/-- A firmware image or a Beleth slot as the boot directory names it (Table 17.13). -/
structure ImgEnt where
  valid : Bool
  bytes : Nat
  version : U32
  imageId : U64
  /-- SHA-256 of a firmware image. -/
  sha : BitVec 256
  deriving DecidableEq, Repr

def ImgEnt.none : ImgEnt := ⟨false, 0, 0, 0, 0⟩

/-- A boot directory copy (Table 17.13). -/
structure DirCopy where
  seq : U32
  flashMib : Nat
  imageA : ImgEnt
  imageB : ImgEnt
  beleth : Tbl ImgEnt
  deriving DecidableEq, Repr

/-- The targets of FLASH-IMAGE-WRITE (R449). -/
structure ImageWrite where
  target : U8
  slot : Nat
  ring : Nat
  bytes : Nat
  long : Option Nat
  part : HP
  deriving DecidableEq, Repr

/-- The Poppy recorder, OTP and flash (group 0x11). -/
structure PopBlk where
  nextRec : Nat
  oldestCirc : Nat
  satsum : BitVec 3
  /-- Unflushed records, oldest first (R434). -/
  buffer : List Rec
  bufHwm : Nat
  flushing : Bool
  /-- Record numbers below this belong to the flush in progress. -/
  flushEnd : Nat
  /-- Records lost since the buffer last had space (R435). -/
  bufLost : Nat
  keptFull : Bool
  kept : Tbl Rec
  /-- Record slots used in the kept area, torn ones and the rest of their page among them (R438). -/
  keptUsed : Nat
  circ : Tbl Rec
  /-- Headers of the 18 circulating sectors, and the one being filled. -/
  circSec : Tbl Sector
  circCur : Nat
  /-- Erase counts by 64 KiB sector of flash. -/
  erases : Tbl Nat
  /-- Regions that have raised FLASH-WEAR this boot (R450). -/
  wearRaised : List Nat
  powerCycles : Nat
  /-- Operating time at PORN release, and as last logged, in seconds (R443). -/
  opBase : Nat
  opLogged : Nat
  flashMib : U16
  defRate : Nat
  defBurst : Nat
  /-- ABS_TICK of the commit that last set the default rate (R432). -/
  defBase : Nat
  /-- Tokens that the bucket of a code not yet used held at that commit. -/
  defTokens : Nat
  lastFlushTs : U64
  endurance : Nat
  wearPct : Nat
  buckets : Tbl Bucket
  overrides : Tbl RateOvr
  winFirst : Quad Nat
  /-- Elapsed instant of the last periodic flush (R434). -/
  periodicEl : Nat
  opLogEl : Nat
  /-- Cells written to the operating-time log. -/
  opCells : Nat
  otpBoot : Tbl OtpGen
  otpSeal : Tbl OtpGen
  otpDef : Tbl OtpGen
  /-- OTP-WRITE in progress: group, content, long command, partition. -/
  otpPending : Option (U8 × Bytes × Nat × HP)
  dir0 : Option DirCopy
  dir1 : Option DirCopy
  /-- The directory copy written last: true is copy 1. -/
  dirLast : Bool
  imgPending : List ImageWrite
  /-- Images as regions 1, 2 and 10 of flash hold them: 0 A, 1 B, 2 and up the Beleth slots. -/
  images : Tbl Bytes
  /-- The copies of the stored configuration and of the temperature tables written last: true is copy 1 (R448). -/
  cfgCopy : Bool
  tblCopy : Bool
  /-- Regions whose programs fail verification, at the page and at the next (R448, R450). -/
  failing : List Nat
  /-- The flush slot: records a power-fail flush left (R436). -/
  flushSlot : List Rec
  /-- A completed power-fail flush not yet reported (R461). -/
  flushUnreported : Bool
  deriving DecidableEq, Repr

def Quota.zero : Quota := ⟨0, 0, 0, 0, 0, 0, 0⟩

/-- The device limits of each quota (Table 0.1, Table 2.9; publication slots and capture rings by chapters 06 and 09). -/
def Quota.limit : Quota := ⟨262144, 5242880, 1024, 256, 256, 64, 32⟩

/-- The device at reset (Table 18.6). -/
def DevBlk.init : DevBlk :=
  { boot := .reset, stage := 0, haltCode := 0, cause := .powerOn, imageB := false, fallback := false, pfailWait := false,
    bootMs := 0, readyTs := 0, dramMib := 0, otpBootGen := 0, otpSealGen := 0, otpDefGen := 0, stageMs := [],
    porn := true, pfailN := true, srstPending := false, c0Off := false, bootIn := none, resetReq := none, warnings := [],
    uncleanRec := none, cycleDue := false, ovr := 0 }

def Mbx.init : Mbx := ⟨0, 0, 0, [], false⟩

/-- A partition at reset (Tables 2.12, 2.14, 2.15; quotas and claims of R53). -/
def Part.init (present : Bool) (claim : U8) (q : Quota) : Part :=
  { present, link := false, pstate := .out, claim, v := false, p := false, hbpFitted := true,
    lastV := 0, lastP := 0, lastVEl := 0, lastPEl := 0, hbIn := false,
    failTimer := none, holdTimer := none, takeover := none, quota := q, rings := [],
    snap := ⟨.none, 0, 0, 0, 0, 0⟩, evtProd := 0, evtCons := 0, evtSeq := 0, evtRing := [], lost := 0, lostFirst := 0,
    mbxN := .init, mbxU := .init, cacheN := [], cacheU := [], windows := [], msix := [] }

/-- Group 0x02 at reset with no defaults generation written (R53). -/
def HostBlk.init : HostBlk :=
  { parts := ⟨Part.init true 4 Quota.limit, Part.init false 3 Quota.zero, Part.init true 2 Quota.zero,
              Part.init false 1 Quota.zero⟩,
    controller := none, changes := 0, failMs := 300, holdoffMs := 5000, long := [], longNext := 0 }

/-- Group 0x11 at reset: Table 17.8, with empty persistent stores (log entry 7). -/
def PopBlk.init : PopBlk :=
  { nextRec := 0, oldestCirc := 32768, satsum := 0, buffer := [], bufHwm := 0, flushing := false, flushEnd := 0, bufLost := 0,
    keptFull := false, kept := [], keptUsed := 0, circ := [], circSec := [], circCur := 0, erases := [], wearRaised := [],
    powerCycles := 0, opBase := 0, opLogged := 0, flashMib := 0, defRate := 10, defBurst := 20, defBase := 0, defTokens := 20, lastFlushTs := 0,
    endurance := 100000, wearPct := 80, buckets := [], overrides := [], winFirst := .all 0, periodicEl := 0, opLogEl := 0, opCells := 0,
    otpBoot := [], otpSeal := [], otpDef := [], otpPending := none,
    dir0 := some ⟨0, 64, ⟨true, 0, 0, 0, 0⟩, ⟨true, 0, 0, 0, 0⟩, []⟩, dir1 := some ⟨0, 64, ⟨true, 0, 0, 0, 0⟩, ⟨true, 0, 0, 0, 0⟩, []⟩,
    dirLast := false, imgPending := [], images := [], cfgCopy := false, tblCopy := false, failing := [], flushSlot := [], flushUnreported := false }

end Sys2Proof.Machine
end

