-- ==== Sys2Proof/Machine/Blocks/Osc.lean ====
section
/-!
DEFINITION. State of the oscillation screen, the mode estimators, modes and branches (group 0x07, 07_oscillation.md).
-/

namespace Sys2Proof.Machine

/-- A resonator of the screening state (Table 7.2). -/
structure Reson where
  re : BitVec 16
  im : BitVec 16
  exp : BitVec 8
  deriving DecidableEq, Repr

/-- The screening state of a channel (Table 7.2), with what a patch correction needs (R190). -/
structure ScrChan where
  m : Option U32
  z : List Reson
  base : List (BitVec 16)
  flags : BitVec 6
  warm : Nat
  grid : Nat
  /-- The value the last step used, none where the input was missing, and the mean it used. -/
  vUsed : Option U32
  mUsed : Option U32
  /-- The deviation x of the last step, none where the input was missing. -/
  xUsed : Option U32
  /-- L of each band at the last step (R188). -/
  lastL : List Int
  deriving DecidableEq, Repr

inductive SlotState where
  | active | hold
  deriving DecidableEq, Repr

/-- Alarm condition states (Table 7.6). -/
inductive CondState where
  | clear | pending | active | clearing
  deriving DecidableEq, Repr

/-- The results of an estimator step (R193), with the channel score at it in 0.01 dB (Table 7.4). -/
structure EstOut where
  f : U32
  zeta : U32
  amp : U32
  phase : U16
  fSd : U32
  zetaSd : U32
  score : Int
  deriving DecidableEq, Repr

/-- What an estimator keeps between steps (R193): the last inputs of its filter, the filtered signal by tag, newest first, and the model's
coefficients and covariance by rows. -/
structure EstModel where
  xs : List U32
  sig : List (Nat × U32)
  w : List U32
  p : List U32
  deriving DecidableEq, Repr

/-- An estimator slot not FREE (Table 7.10). -/
structure EstSlot where
  state : SlotState
  chan : Nat
  band : Nat
  grid : Nat
  watched : Bool
  out : EstOut
  converged : Bool
  gappy : Bool
  assignedTs : Nat
  convergedTs : Nat
  holdSince : Nat
  steps : Nat
  skipped : Nat
  /-- Steps since assignment, which the output divider counts (R198). -/
  nth : Nat
  /-- Tags of recent inputs, newest first, and whether each was skipped. -/
  recent : List (Nat × Bool)
  /-- Amplitudes of recent steps by tag, newest first (R196). -/
  amps : List (Nat × U32)
  ampAlarm : CondState
  ampSince : Nat
  mode : Option Nat
  shapeMag : U32
  shapeAng : U16
  lastTag : Nat
  mdl : EstModel
  /-- Inputs of steps to come: tag, deviation and mean. -/
  inp : List (Nat × U32 × U32)
  /-- It went to HOLD when its channel was unwatched (Table 7.3, last row). -/
  unwatched : Bool
  deriving DecidableEq, Repr

inductive ModeClass where
  | undetermined | free | forced
  deriving DecidableEq, Repr

/-- A mode (Table 7.11). -/
structure Mode where
  cls : ModeClass
  grid : Nat
  damp : CondState
  dampSince : Nat
  forced : CondState
  forcedSince : Nat
  members : List Nat
  refSlot : Nat
  sourceBranch : Option Nat
  f : U32
  zeta : U32
  fSd : U32
  zetaSd : U32
  firstTs : Nat
  classSince : Nat
  lastTs : Nat
  /-- Tag since which the tests of FORCED on ζ and on the energy hold (R196). -/
  testsSince : Option Nat
  deriving DecidableEq, Repr

/-- Measurements of a branch at a step (R197): P and Q in W, θ_V in rad without jumps, and ln|V|. -/
structure FlowPt where
  tag : Nat
  p : Scale
  q : Scale
  th : Scale
  lv : Scale
  deriving DecidableEq, Repr

/-- A mapped branch (Table 7.12). -/
structure Branch where
  vChan : Nat
  iChan : Nat
  mode : Option Nat
  dir : Int
  defW : U32
  lastTs : Nat
  part : HP
  /-- Its measurements, and those band-passed about the mode it tracks, newest first. -/
  raw : List FlowPt
  fil : List FlowPt
  deriving DecidableEq, Repr

/-- Settings of group 0x07 (Table 7.8). -/
structure OscSet where
  thrOnDb : Nat
  thrOffDb : Nat
  baseShift : Nat
  warmS : Nat
  bandMask : BitVec 6
  floorF : Nat
  floorRocof : Nat
  floorRel : Nat
  swapDb : Nat
  holdS : Nat
  windowS : Nat
  zetaSdMax : Nat
  convCycles : Nat
  groupDf : Nat
  groupDzeta : Nat
  defMinKw : Nat
  enables : BitVec 3
  zetaThr : Nat
  zetaHyst : Nat
  dampPersistS : Nat
  ampPersistS : Nat
  forcedPersistS : Nat
  clearS : Nat
  ampF : Nat
  ampRocof : Nat
  ampRel : Nat
  forcedZeta : Nat
  deriving DecidableEq, Repr

/-- Group 0x07. -/
structure OscBlk where
  set : OscSet
  /-- Settings by the elapsed instant of their commit, newest first: a slab has those in force when it opened (R204). -/
  hist : List (Nat × OscSet)
  /-- Output ring of each partition that has bound one, and each partition's divider (R198). -/
  outRing : Tbl Nat
  outDiv : Quad Nat
  chans : Tbl ScrChan
  slots : Tbl EstSlot
  modes : Tbl Mode
  branches : Tbl Branch
  /-- Watch entries 0 to 511. -/
  watch : Tbl Nat
  lastRankTs : Nat
  lastFullTs : Option Nat
  /-- Tag of the slab the screen took last, by grid (R190, R194). -/
  screened : Tbl Nat
  deriving DecidableEq, Repr

def OscSet.init : OscSet :=
  { thrOnDb := 10, thrOffDb := 6, baseShift := 9, warmS := 300, bandMask := 0x3F, floorF := 500, floorRocof := 5000,
    floorRel := 200, swapDb := 6, holdS := 30, windowS := 20, zetaSdMax := 10, convCycles := 5, groupDf := 20,
    groupDzeta := 20, defMinKw := 100, enables := 0b111, zetaThr := 30, zetaHyst := 10, dampPersistS := 10,
    ampPersistS := 5, forcedPersistS := 30, clearS := 10, ampF := 20000, ampRocof := 200000, ampRel := 10000,
    forcedZeta := 5 }

def OscBlk.init : OscBlk :=
  { set := .init, hist := [], outRing := [], outDiv := .all 1, chans := [], slots := [], modes := [], branches := [], watch := [], lastRankTs := 0,
    lastFullTs := none, screened := [] }

end Sys2Proof.Machine
end

