-- ==== Sys2Proof/Machine/Blocks/Radio.lean ====
section
/-!
DEFINITION. State of the Cornflower coordinator (group 0x0F, 15_field_radio.md), of the Dill engine (group 0x10, 16_compression.md), and
of the JTAG TAP (R478).
-/

namespace Sys2Proof.Machine

inductive CfState where
  | off | starting | running
  deriving DecidableEq, Repr

inductive NState where
  | added | connected | lostPending | closed
  deriving DecidableEq, Repr

def NState.num : NState → Nat
  | .added => 1
  | .connected => 2
  | .lostPending => 3
  | .closed => 4

/-- A downlink record (R415): type, body, polls it has been sent in, and the seq of the last poll that carried it. -/
structure DlRec where
  type : U8
  body : Bytes
  polls : Nat
  seq : Option U8
  deriving DecidableEq, Repr

/-- A node (Table 15.7). -/
structure Node where
  state : NState
  part : HP
  mic : Nat
  misses : Nat
  eui64 : U64
  pollDiv : Nat
  phase : Nat
  slot : Nat
  rxSeq : U8
  txSeq : U8
  dl : List DlRec
  ctr : Nat
  eSw : Option Nat
  key : BitVec 128
  keyNext : Option (BitVec 128)
  keyPrev : Option (BitVec 128)
  /-- The counter value of the last key switch, and events since it, while the old key is still tried. -/
  swAt : Nat
  sinceSw : Nat
  keyGen : U16
  rekeyRaised : Bool
  superMs : Nat
  lastRxTs : Nat
  /-- Elapsed instant the supervision timer runs from. -/
  superEl : Nat
  handle : Option Nat
  sensors : List Nat
  ack : Bool
  /-- The poll of the current slot has been sent and no valid response has been detected. -/
  polled : Bool
  responses : Nat
  missed : Nat
  dup : Nat
  micFail : Nat
  dlFail : Nat
  deriving DecidableEq, Repr

/-- What the record of a removed node keeps: its counters, which only COUNTER-CLEAR clears (R417), and its key generation. -/
structure NodeLeft where
  keyGen : U16
  responses : Nat
  missed : Nat
  dup : Nat
  micFail : Nat
  dlFail : Nat
  deriving DecidableEq, Repr

def NodeLeft.init : NodeLeft := { keyGen := 0, responses := 0, missed := 0, dup := 0, micFail := 0, dlFail := 0 }

/-- A channel (Table 15.6), with its occupancy in the dwell window: elapsed instant and ns. -/
structure CfChan where
  word : U16
  superframes : Nat
  dwellLimited : Nat
  used : List (Nat × Nat)
  deriving DecidableEq, Repr

/-- A channel map with its hop settings. -/
structure HopMap where
  mask : U64
  inc : Nat
  seed : Nat
  deriving DecidableEq, Repr

/-- Group 0x0F. -/
structure CfBlk where
  profile : Option CfProfileP
  enable : Bool
  sfMs : Nat
  beaconMic : Nat
  respMax : Nat
  pollMax : Nat
  dwellMs : Nat
  dwellWinS : Nat
  rekeyWarn : Nat
  state : CfState
  beaconFails : Nat
  sfNo : U32
  chan : Nat
  silent : Bool
  originTs : Nat
  /-- Elapsed instant of superframe 0, and whether the origin has been set. -/
  originEl : Nat
  started : Bool
  /-- The current superframe: its number before wrapping, and its elapsed start. -/
  sfIdx : Nat
  sfEl : Option Nat
  map : HopMap
  /-- A pending map: its switch_sf, and that superframe before wrapping. -/
  mapNext : Option (HopMap × U32 × Nat)
  mapGen : U8
  keyB : BitVec 128
  keyBNext : Option (BitVec 128)
  /-- The scheduled beacon key switch: its superframe, and that superframe before wrapping. -/
  eSwB : Option (U32 × Nat)
  beaconSeq : U8
  rekeyBRaised : Bool
  keyGenB : U16
  chans : Tbl CfChan
  nodes : Tbl Node
  left : Tbl NodeLeft
  outRing : Quad (Option Nat)
  /-- The superframe last planned, the first slot its planning dropped, and whether it is silent; the superframes whose beacon status was
  last read, and last found not ready. -/
  planIdx : Option Nat
  slotsPlan : Nat
  planSilent : Bool
  checkIdx : Option Nat
  failIdx : Option Nat
  /-- Start-up: elapsed instant the reset pulse began, that of its failure, and tries failed. -/
  startEl : Nat
  failEl : Option Nat
  tries : Nat
  faultRaised : Bool
  rstN : Bool
  /-- Elapsed instants of the beacon launch awaiting its end of transmit, of the last dwell event, and of the last sync CF_IRQ. -/
  txEl : Option Nat
  lastDwellEl : Option Nat
  syncEl : Option Nat
  syncTs : Nat
  /-- TAI ns at which the sync word of the frame last launched leaves (R400). -/
  airTs : Nat
  /-- SPI sequences run, newest first: index and bytes sent; at most 16. -/
  spi : List (Nat × Bytes)
  deriving DecidableEq, Repr

def CfChan.init : CfChan := { word := 0, superframes := 0, dwellLimited := 0, used := [] }

def CfBlk.init : CfBlk :=
  { profile := none, enable := false, sfMs := 100, beaconMic := 0, respMax := 48, pollMax := 11, dwellMs := 400, dwellWinS := 20,
    rekeyWarn := 65536, state := .off, beaconFails := 0, sfNo := 0, chan := 0, silent := false, originTs := 0, originEl := 0,
    started := false, sfIdx := 0, sfEl := none, map := ⟨0, 1, 0⟩, mapNext := none, mapGen := 0, keyB := 0, keyBNext := none
    eSwB := none, beaconSeq := 0, rekeyBRaised := false, keyGenB := 0, chans := [], nodes := [], left := [], outRing := .all none, planIdx := none
    slotsPlan := 0, planSilent := false, checkIdx := none, failIdx := none, startEl := 0, failEl := none, tries := 0
    faultRaised := false, rstN := false, txEl := none, lastDwellEl := none,
    syncEl := none, syncTs := 0, airTs := 0, spi := [] }

inductive JobState where
  | idle | running | done | failed
  deriving DecidableEq, Repr

def JobState.num : JobState → Nat
  | .idle => 1
  | .running => 2
  | .done => 3
  | .failed => 4

/-- Where an inflater stands (R422, RFC 1951): before the zlib header, before a block header, inside a stored block with bytes left,
inside a Huffman block with its code lengths, after the final block. -/
inductive InfState where
  | zlibHeader
  | header
  | stored (left : Nat) (final : Bool)
  | huff (lit dist : List Nat) (final : Bool)
  | trailer
  | ended
  deriving DecidableEq, Repr

/-- A segment waiting for a job: its header flags, tag, poison, and data. -/
structure Segment where
  flush : Bool
  final : Bool
  tag : U64
  poisoned : Bool
  data : Bytes
  deriving DecidableEq, Repr

/-- How a segment ends (R423 to R425). -/
inductive DillSt where
  | ok | poisoned | streamErr | limit | notSmaller
  deriving DecidableEq, Repr

/-- An output segment being written: output bytes still to write, the trailer, how the segment ends, the cause where the job fails, and
whether the stream is at its end. -/
structure Emit where
  data : Bytes
  trailer : Bytes
  st : DillSt
  cause : Option Nat
  final : Bool
  deriving DecidableEq, Repr

/-- A job context (Table 16.6). -/
structure Job where
  state : JobState
  owner : HP
  decomp : Bool
  zlib : Bool
  effort : Nat
  level : Nat
  inRing : Nat
  outRing : Nat
  absLimit : Bool
  ratio : Nat
  status : U16
  limitBytes : Nat
  inTotal : Nat
  inBytes : Nat
  outBytes : Nat
  adlerA : Nat
  adlerB : Nat
  segments : U32
  openTs : Nat
  /-- NOT-SMALLER stopped the job (R423). -/
  notSmaller : Bool
  /-- Saved state: history newest first, bits of the current byte not yet consumed, and where the inflater stands. -/
  hist : Bytes
  bits : List Bool
  inf : InfState
  /-- Saved state of the compressor, as it keeps it. -/
  comp : Nat
  pendingIn : List Segment
  /-- Bytes of the head segment taken in, and those since the job was taken up. -/
  taken : Nat
  ran : Nat
  emit : Option Emit
  lastRunEl : Nat
  waitEl : Option Nat
  closing : Option Nat
  closeReq : Bool
  deriving DecidableEq, Repr

/-- Group 0x10. -/
structure DillBlk where
  quantumKib : Nat
  jobs : Tbl Job
  comp : Option Nat
  decomp : Option Nat
  deriving DecidableEq, Repr

def DillBlk.init : DillBlk := { quantumKib := 256, jobs := [], comp := none, decomp := none }

/-- TAP controller states (IEEE 1149.1). -/
inductive TapState where
  | reset | idle
  | selDr | capDr | shDr | ex1Dr | pauDr | ex2Dr | updDr
  | selIr | capIr | shIr | ex1Ir | pauIr | ex2Ir | updIr
  deriving DecidableEq, Repr

/-- The instructions the TAP offers (R478). -/
inductive TapInstr where
  | bypass | idcode | samplePreload | extest
  deriving DecidableEq, Repr

/-- The JTAG TAP: state, instruction, shift registers, boundary register and TDO. -/
structure JtagBlk where
  tap : TapState
  instr : TapInstr
  irShift : List Bool
  drShift : List Bool
  /-- Levels the update stage of the boundary register holds. -/
  boundary : List Bool
  /-- EXTEST drives the outputs from the boundary register. -/
  driving : Bool
  tdo : Option Bool
  deriving DecidableEq, Repr

def JtagBlk.init : JtagBlk :=
  { tap := .reset, instr := .idcode, irShift := [], drShift := [], boundary := [], driving := false, tdo := none }

end Sys2Proof.Machine
end

