-- ==== Sys2Proof/Machine/Blocks/Sage.lean ====
section
/-!
DEFINITION. State of the Sage metrology front end (group 0x0A, 10_metrology_frontend.md) and of energy, billing and supply quality
(group 0x0B, 11_energy_quality.md).
-/

namespace Sys2Proof.Machine

inductive DcState where
  | acquire | track | frozen
  deriving DecidableEq, Repr

inductive MpState where
  | off | settling | running | fading
  deriving DecidableEq, Repr

/-- Causes of SAGE-MP-STATE (Table 10.12). -/
inductive SgCause where
  | boot | config | bankSwitch | dcRelease | input | clockStep
  deriving DecidableEq, Repr

def SgCause.num : SgCause → Nat
  | .boot => 0
  | .config => 1
  | .bankSwitch => 2
  | .dcRelease => 3
  | .input => 4
  | .clockStep => 5

def MpState.num : MpState → Nat
  | .off => 0
  | .settling => 1
  | .running => 2
  | .fading => 3

def DcState.num : DcState → Nat
  | .acquire => 0
  | .track => 1
  | .frozen => 2

/-- A sample of a quality tap (R277): its instant as elapsed time, its value in counts, and whether it carries UNSETTLED or MISSING. -/
structure TapSmp where
  el : Nat
  v : Scale
  bad : Bool
  deriving DecidableEq, Repr

/-- One input (Table 10.9) with its decimation state (10.2). -/
structure SgInput where
  scale : U32
  calGain : Int
  calDelay : Int
  /-- The 33-point table: gain and delay; empty reads as zeros. -/
  table : List (Int × Int)
  tempSrc : Nat
  tempId : Nat
  tempApplied : Int
  tempDefault : Int
  staleS : Nat
  tempTs : Nat
  /-- A reading has been applied; it is stale; the last one lay outside −40 to +120 °C. -/
  tempRead : Bool
  tempStale : Bool
  tempOut : Bool
  dc : DcState
  freezeReq : Bool
  /-- d, in counts. -/
  d : Scale
  /-- FIR outputs taken during ACQUIRE, newest first, in counts. -/
  acq : List Scale
  lost : Bool
  /-- TAI ns and elapsed instant of the last transition seen before LOST, and TAI ns of the last return. -/
  lostTs : Nat
  lostEl : Nat
  backTs : Nat
  /-- UNSETTLED_UNTIL (R273), and the cause of what set it. -/
  until_ : Nat
  cause : SgCause
  /-- CIC integrators (48 bits) and comb delays, modulator clocks taken towards the next CIC output, and the FIR delay line, newest
  first, in 2^-22 count. -/
  integ : List Nat
  comb : List Nat
  bitPh : Nat
  line : List Int
  /-- Gain-corrected values before the fractional-delay stage, newest first: four of them, in counts. -/
  frac : List Scale
  /-- The quality tap (R277): integrators, comb delays, modulator clocks taken towards its next sample, samples it still marks UNSETTLED, and
  its samples, newest first. -/
  tapInteg : List Nat
  tapComb : List Nat
  tapPh : Nat
  tapLeft : Nat
  tap : List TapSmp
  ovlEl : Option Nat
  deriving DecidableEq, Repr

/-- A delivered sample row (R259, R275): its instant, and for each role its value with MISSING, UNSETTLED and TEMP_STALE. -/
structure SgRow where
  stamp : Nat
  /-- The same instant as elapsed time, which no clock step moves. -/
  el : Nat
  vals : List Int
  missing : List Bool
  unsettled : List Bool
  stale : List Bool
  /-- The billing path received it. -/
  counted : Bool
  deriving DecidableEq, Repr

/-- A metering point (Table 10.8). -/
structure SgMp where
  enable : Bool
  fNom60 : Bool
  rate : Nat
  cicN : Nat
  firDec : Nat
  fadeK : Nat
  firLen : Nat
  dcShift : Nat
  acqCycles : Nat
  state : MpState
  bankB : Bool
  lenA : Nat
  lenB : Nat
  coefA : List Int
  coefB : List Int
  fadePos : Nat
  fadeStart : Nat
  suppStart : Nat
  suppEnd : Nat
  suppCause : SgCause
  /-- Samples withheld in the running suppression interval. -/
  suppCount : Nat
  /-- The suppression interval follows a start-up (R305). -/
  suppBoot : Bool
  pmu : Option Nat
  pmuWindow : Nat
  pmuRate : Nat
  /-- The next report's index within its second, counted from the chain's stamps. -/
  pmuNext : Nat
  /-- Instant of the next output sample, TAI ns. -/
  next : Nat
  /-- What the fractional-delay stage carries of a move of the lattice, below one modulator clock, ns (R260). -/
  rem : Scale
  hist : List SgRow
  deriving DecidableEq, Repr

/-- A sample of a sampled-value stream: its instant, three voltages, neutral, three currents, neutral as the frame gives them. -/
structure SvSmp where
  ts : Nat
  volts : List Int
  amps : List Int
  /-- Which values have invalid quality: four currents and four voltages. -/
  bad : List Bool
  synced : Bool
  deriving DecidableEq, Repr

/-- Estimation of a sampled-value stream (R149): its samples, oldest first, the smpCnt that follows, and the next reporting instant. -/
structure SvState where
  smps : List SvSmp
  nextCnt : Option Nat
  next : Nat
  rate256 : Bool
  deriving DecidableEq, Repr

/-- Group 0x0A. -/
structure SageBlk where
  fMod8 : Bool
  clkEn : BitVec 6
  svWindow : Nat
  mps : Tbl SgMp
  inputs : Tbl SgInput
  /-- Sampled-value streams by handle (R149). -/
  sv : Tbl SvState
  deriving DecidableEq, Repr

def SgInput.init : SgInput :=
  { scale := 0, calGain := 0, calDelay := 0, table := [], tempSrc := 0, tempId := 0, tempApplied := 2300, tempDefault := 2300,
    staleS := 60, tempTs := 0, tempRead := false, tempStale := false, tempOut := false, dc := .acquire, freezeReq := false,
    d := ⟨0, 1⟩, acq := [], lost := false, lostTs := 0, lostEl := 0, backTs := 0, until_ := 0,
    cause := .boot, integ := [], comb := [], bitPh := 0, line := [], frac := [], tapInteg := [], tapComb := [], tapPh := 0, tapLeft := 0, tap := [],
    ovlEl := none }

def SgMp.init : SgMp :=
  { enable := false, fNom60 := false, rate := 0, cicN := 4, firDec := 1, fadeK := 8, firLen := 63, dcShift := 18, acqCycles := 16,
    state := .off, bankB := false, lenA := 0, lenB := 0, coefA := [], coefB := [], fadePos := 0, fadeStart := 0, suppStart := 0,
    suppEnd := 0, suppCause := .boot, suppCount := 0, suppBoot := false, pmu := none, pmuWindow := 0, pmuRate := 0, pmuNext := 0,
    next := 0, rem := ⟨0, 1⟩, hist := [] }

def SageBlk.init : SageBlk := { fMod8 := false, clkEn := 0b111111, svWindow := 0, mps := [], inputs := [], sv := [] }

/-- A quality event kind (Table 11.3). -/
inductive QKind where
  | sag | swell | interruption
  deriving DecidableEq, Repr

def QKind.num : QKind → Nat
  | .sag => 0
  | .swell => 1
  | .interruption => 2

/-- A quality log entry (Table 11.8): the extreme as a mean square over Udin squared. -/
structure QEntry where
  seq : U32
  mp : Nat
  kind : QKind
  isOpen : Bool
  gaNominal : Bool
  dataLost : Bool
  containsInt : Bool
  phase : Nat
  start : Nat
  end_ : Nat
  extreme : Scale
  /-- Start of the first interval since which no channel has been valid. -/
  invalidSince : Option Nat
  deriving DecidableEq, Repr

inductive GapKind where
  | suppressed | outage | flushLost | sealCheck
  deriving DecidableEq, Repr

def GapKind.num : GapKind → Nat
  | .suppressed => 0
  | .outage => 1
  | .flushLost => 2
  | .sealCheck => 3

/-- A gap log entry (Table 11.9). -/
structure GapEntry where
  seq : U32
  mp : Nat
  kind : GapKind
  acked : Bool
  endUnknown : Bool
  merged : Bool
  cause : Nat
  start : Nat
  end_ : Nat
  bound : Nat
  sRef : Scale
  ackTs : Nat
  ackPart : Nat
  /-- The entry stays open until counting resumes (R304, R296). -/
  isOpen : Bool
  deriving DecidableEq, Repr

/-- A billing register (Table 11.6). -/
structure BReg where
  value : Nat
  gap : Bool
  mp : Nat
  quantity : Nat
  digits : Nat
  resCode : Nat
  enable : Bool
  residual : Nat
  rollovers : U32
  /-- Elapsed instant of the last EQ-REG-CONFIG: the cycle in progress then is not added (R290). -/
  cfgEl : Nat
  deriving DecidableEq, Repr

/-- A pulse output (Table 11.7). -/
structure Pulse where
  enable : Bool
  activeLow : Bool
  mp : Nat
  quantity : Nat
  widthMs : Nat
  claim : U8
  everEnabled : Bool
  quantum : Nat
  owed : U32
  residual : Nat
  wUs : Nat
  pUs : Nat
  /-- Instant of the last quantum crossing, and P in ns. -/
  tPrev : Option Nat
  pNs : Nat
  /-- Elapsed instants: the pin is active until, and then idle until. -/
  activeUntil : Option Nat
  idleUntil : Option Nat
  /-- Elapsed instant an overrun began, and of the last PULSE-OVERRUN. -/
  overEl : Option Nat
  lastOverEl : Option Nat
  deriving DecidableEq, Repr

/-- Energy state of a metering point (Table 11.5). -/
structure EqMp where
  threeWire : Bool
  reverse : Bool
  udinDv : Nat
  sagThr : Nat
  swellThr : Nat
  intThr : Nat
  hyst : Nat
  gap : Bool
  sealBroken : Bool
  counting : Bool
  sRef : Scale
  sMax : Scale
  /-- Largest one-cycle S of the previous save interval, and one-cycle values of the last second, newest first. -/
  sPrev : Scale
  sRecent : List (Nat × Scale)
  lastCycleTs : Nat
  acc : Tbl Nat
  /-- 16-bit residuals of the accumulators. -/
  frac : Tbl Nat
  /-- The half-cycle mark at which the cycle in progress starts, and the first half-cycle interval not yet judged (R287, R299). -/
  cycIdx : Nat
  halfIdx : Nat
  /-- A gap in progress: its start in TAI ns and elapsed ns, cause and S_ref (R305). -/
  gapFrom : Option (Nat × Nat × SgCause × Scale)
  /-- The start-up entry has closed at this elapsed instant; what was not counted before belongs to it (R462). -/
  bootEl : Nat
  /-- Sequence number of the open quality log entry by kind of event (R301). -/
  qOpen : Tbl Nat
  deriving DecidableEq, Repr

/-- An energy image (R302). -/
structure EnergyImg where
  seq : U32
  ts : Nat
  acc : Tbl (Tbl Nat)
  frac : Tbl (Tbl Nat)
  sRef : Tbl Scale
  /-- Value, residual, ROLLOVERS and GAP of each register. -/
  regs : Tbl (Nat × Nat × U32 × Bool)
  /-- The gap log and its next sequence number (R461). -/
  glog : Tbl GapEntry
  nextG : U32
  crcOk : Bool
  deriving DecidableEq, Repr

/-- The stored configuration (R448): the settings of groups 0x0A and 0x0B that commands set, in blocks whose other fields stand at reset. -/
structure StoredCfg where
  fMod8 : Bool
  clkEn : BitVec 6
  svWindow : Nat
  mps : Tbl SgMp
  inputs : Tbl SgInput
  eqMps : Tbl EqMp
  regs : Tbl BReg
  pulses : Tbl Pulse
  saveS : Nat
  deriving DecidableEq, Repr

def StoredCfg.init : StoredCfg :=
  { fMod8 := false, clkEn := 0b111111, svWindow := 0, mps := [], inputs := [], eqMps := [], regs := [], pulses := [], saveS := 60 }

/-- Group 0x0B. -/
structure EqBlk where
  saveS : Nat
  saveSeq : U32
  lastSaveTs : Nat
  satsum : BitVec 64
  satsumPls : BitVec 32
  sealed : BitVec 16
  sealGen : Nat
  nextQ : U32
  nextG : U32
  mps : Tbl EqMp
  regs : Tbl BReg
  pulses : Tbl Pulse
  qlog : Tbl QEntry
  glog : Tbl GapEntry
  slotA : Option EnergyImg
  slotB : Option EnergyImg
  /-- The next save goes to slot B. -/
  nextB : Bool
  /-- A save written and not yet verified: its slot. -/
  saving : Option Bool
  lastSaveEl : Nat
  flushHdr : Option (Nat × U32)
  flushImg : Option EnergyImg
  /-- t_f while counting is stopped by a power-fail flush (R303), and whether that flush has ended. -/
  tf : Option Nat
  flushing : Bool
  /-- Elapsed instant PFAIL_N rose again during or after a flush: counting resumes at the first cycle after it. -/
  riseEl : Option Nat
  /-- TAI instant at which counting resumed after t_f. -/
  resume : Option Nat
  /-- A save follows within 1 s. -/
  saveSoon : Bool
  /-- Mask of EQ-SEAL in progress, with its long command. -/
  sealReq : Option (BitVec 16 × Nat)
  /-- Start-up entries may close: a step has come, or 60 s have passed without one (R462); the elapsed instant READY was read. -/
  stepped : Bool
  startTimeout : Bool
  readyEl : Nat
  /-- The two copies of the stored configuration in flash, the newer first (R448). -/
  stored : StoredCfg
  storedOld : StoredCfg
  deriving DecidableEq, Repr

def Scale.zero : Scale := ⟨0, 1⟩

def EqMp.init : EqMp :=
  { threeWire := false, reverse := false, udinDv := 0, sagThr := 900, swellThr := 1100, intThr := 50, hyst := 20, gap := false,
    sealBroken := false, counting := false, sRef := Scale.zero, sMax := Scale.zero, sPrev := Scale.zero, sRecent := [],
    lastCycleTs := 0, acc := [], frac := [], cycIdx := 0, halfIdx := 0, gapFrom := none, bootEl := 0, qOpen := [] }

def BReg.init : BReg :=
  { value := 0, gap := false, mp := 0, quantity := 0, digits := 8, resCode := 6, enable := false, residual := 0, rollovers := 0, cfgEl := 0 }

def Pulse.init (k : Nat) : Pulse :=
  { enable := false, activeLow := false, mp := k / 2, quantity := k % 2, widthMs := 20, claim := 0, everEnabled := false,
    quantum := 1000000, owed := 0, residual := 0, wUs := 20000, pUs := 0, tPrev := none, pNs := 0, activeUntil := none,
    idleUntil := none, overEl := none, lastOverEl := none }

def EqBlk.init : EqBlk :=
  { saveS := 60, saveSeq := 0, lastSaveTs := 0, satsum := 0, satsumPls := 0, sealed := 0, sealGen := 0, nextQ := 0, nextG := 0,
    mps := [], regs := [], pulses := [], qlog := [], glog := [], slotA := none, slotB := none, nextB := false, saving := none,
    lastSaveEl := 0, flushHdr := none, flushImg := none, tf := none, flushing := false, riseEl := none, resume := none, saveSoon := false, sealReq := none,
    stepped := false, startTimeout := false, readyEl := 0, stored := .init, storedOld := .init }

end Sys2Proof.Machine
end

