-- ==== Sys2Proof/Machine/Blocks/Sorrel.lean ====
section
/-!
DEFINITION. State of the Sorrel cores and user kernels (group 0x0D, 13_sorrel_cores.md) and of the Yarrow scheduler (group 0x0E,
14_yarrow_scheduler.md).
-/

namespace Sys2Proof.Machine

/-- An addressed RAM: pairs of address and byte, addresses rising, zero bytes left out (log entry 6). -/
abbrev Ram := List Host.Cell

/-- Fault kinds (Table 13.8). -/
inductive CoreFault where
  | illegal | window | align | budget | dma | stack
  deriving DecidableEq, Repr

def CoreFault.num : CoreFault → Nat
  | .illegal => 1
  | .window => 2
  | .align => 3
  | .budget => 4
  | .dma => 5
  | .stack => 6

inductive CoreState where
  | idle | running | faulted
  deriving DecidableEq, Repr

/-- An open loop level (R359): first and last instruction address, and whether it is a REP. The remaining count stands in LC. -/
structure LoopLvl where
  first : U32
  last : U32
  rep : Bool
  deriving DecidableEq, Repr

/-- A queued transfer of a core (R363): DMAQ, or OUTQ with its binding, local address and length. -/
inductive CoreXfer where
  | dma (op : DmaqOp)
  | out (binding : Nat) (localAddr : BitVec 24) (bytes : BitVec 17)
  deriving DecidableEq, Repr

/-- A core (Tables 13.1, 13.2 and 13.14). -/
structure Core where
  state : CoreState
  unified : Bool
  kernel : Option Nat
  fault : Option CoreFault
  pc : U32
  d : List U32
  acc : List Int
  i : List (BitVec 24)
  k : List (BitVec 16)
  ba : List (BitVec 24)
  ln : List (BitVec 18)
  lc : List U32
  aov : Bool
  eov : Bool
  finv : Bool
  z : Bool
  n : Bool
  c : Bool
  v : Bool
  circ : BitVec 8
  brev : BitVec 8
  loops : List LoopLvl
  stack : List U32
  im : Ram
  x : Ram
  y : Ram
  runTs : Nat
  /-- Elapsed instant of the dispatch. -/
  runEl : Nat
  faultPc : U32
  runCycles : Nat
  /-- Cycles of the run counted in the load window. -/
  busy : Nat
  /-- Cycle of the run at which a register's result is ready: D by number, ACC by 16 plus number (R361). -/
  ready : Tbl Nat
  queue : List CoreXfer
  /-- The task that runs. -/
  task : Option Nat
  entry : U32
  deriving DecidableEq, Repr

inductive KState where
  | loading | loaded | running | stopping | faulted
  deriving DecidableEq, Repr

def KState.num : KState → Nat
  | .loading => 1
  | .loaded => 2
  | .running => 3
  | .stopping => 4
  | .faulted => 5

/-- A staging slot of an input binding: the run that holds it (its task), the trigger instant and the bytes. -/
structure StageSlot where
  busy : Bool
  trigger : Nat
  bytes : Nat
  deriving DecidableEq, Repr

/-- A binding of a kernel (Table 13.11). -/
structure KBind where
  kind : Nat
  level : Nat
  ring : Nat
  grid : Nat
  stageOff : Nat
  slotBytes : Nat
  slots : Nat
  handles : List Nat
  period : Nat
  /-- Tasks of this binding, in slot order. -/
  tasks : List Nat
  next : Nat
  slot : Tbl StageSlot
  deriving DecidableEq, Repr

/-- A user kernel (Table 13.15). -/
structure Kern where
  state : KState
  part : HP
  unified : Bool
  aovEvent : Bool
  sramKib : Nat
  imageId : U64
  imageVersion : U32
  scratchKib : Nat
  maxCycles : Nat
  keySlot : Nat
  faultCore : Option Nat
  entry : U32
  cores : List Nat
  /-- Base of its cluster SRAM window in each cluster. -/
  sramBase : Tbl Nat
  binds : Tbl KBind
  runs : Nat
  trigDrop : Nat
  trigIdle : Nat
  outSkip : Nat
  faults : Nat
  scratch : Ram
  /-- KERNEL-LOAD in progress: cores requested, source and index; KERNEL-STOP in progress: its long command. -/
  loadCores : Nat
  loadSrc : U8
  loadIdx : U8
  loadBytes : Nat
  long : Option Nat
  runFaulted : Bool
  deriving DecidableEq, Repr

/-- Group 0x0D. -/
structure SorBlk where
  cores : Tbl Core
  kernels : Tbl Kern
  sram : Tbl Ram
  poolMib : Nat
  keySlots : List (Option (BitVec 256))
  deriving DecidableEq, Repr

def Core.init : Core :=
  { state := .idle, unified := false, kernel := none, fault := none, pc := 0, d := List.replicate 16 0, acc := [0, 0, 0, 0],
    i := List.replicate 8 0, k := List.replicate 8 0, ba := List.replicate 8 0, ln := List.replicate 8 0, lc := [0, 0, 0, 0],
    aov := false, eov := false, finv := false, z := false, n := false, c := false, v := false, circ := 0, brev := 0, loops := [],
    stack := [], im := [], x := [], y := [], runTs := 0, runEl := 0, faultPc := 0, runCycles := 0, busy := 0, ready := [],
    queue := [], task := none, entry := 0 }

def SorBlk.init : SorBlk := { cores := [], kernels := [], sram := [], poolMib := 0, keySlots := [none, none, none, none] }

inductive TState where
  | free | waiting | pending | ready | running
  deriving DecidableEq, Repr

def TState.num : TState → Nat
  | .free => 0
  | .waiting => 1
  | .pending => 2
  | .ready => 3
  | .running => 4

inductive DelayKind where
  | abs | ga
  deriving DecidableEq, Repr

/-- A delay entry (R382, R383): list, due value, period (0: one-shot), and order of insertion. -/
structure Delay where
  kind : DelayKind
  due : Nat
  period : Nat
  order : Nat
  deriving DecidableEq, Repr

/-- What a user task's run is for: kernel, binding, slot, and the trigger instant. -/
structure TaskRun where
  kernel : Nat
  binding : Nat
  slot : Nat
  trigger : Nat
  /-- Order of triggers of the kernel (R372). -/
  order : Nat
  deriving DecidableEq, Repr

/-- A task (Table 14.7). -/
structure Task where
  state : TState
  cls : Nat
  level : Nat
  reserved : Bool
  bound : Bool
  user : Bool
  andMode : Bool
  cancelPend : Bool
  deletePend : Bool
  aovEvent : Bool
  cluster : Nat
  home : Option Nat
  kernel : Option Nat
  owner : Nat
  flags : U32
  mask : U32
  delay : Option Delay
  readyTs : Nat
  readyEl : Nat
  lastCore : Nat
  lastStatus : BitVec 5
  lastCycles : Nat
  lastEndTs : Nat
  dispatches : Nat
  /-- What the next run and the run in progress are for. -/
  run : TaskRun
  cur : TaskRun
  /-- A move to a cluster that waits for the end of the run, with its reason (R394). -/
  moveTo : Option (Nat × Nat)
  hist : Tbl Nat
  /-- The producer stalled on this task (Table 14.3). -/
  stalls : Option Nat
  deriving DecidableEq, Repr

/-- A ready queue (Table 14.6). -/
structure RdyQueue where
  depthMax : Nat
  enqueued : Nat
  pended : Nat
  /-- Elapsed instants of the last moment with a PENDING task, and of the last moment at or above q_high_pct. -/
  lastPendEl : Option Nat
  lastHighEl : Option Nat
  /-- PENDING tasks, oldest first. -/
  pend : List Nat
  deriving DecidableEq, Repr

/-- A producer block (Table 14.6), with the elapsed instant its stall began. -/
structure Producer where
  stalled : Option Nat
  stalls : Nat
  stallNs : Nat
  stallMaxNs : Nat
  deriving DecidableEq, Repr

/-- A core's load (R393). -/
structure CoreLoad where
  busy : Nat
  busyMax : Nat
  windowTs : Nat
  overAlert : Nat
  lastOverEl : Option Nat
  /-- Sum over the windows of a load record of each partition. -/
  sums : Quad Nat
  /-- Busy cycles since the last placement evaluation, and between the last ten, newest first (R394). -/
  acc : Nat
  recent : List Nat
  deriving DecidableEq, Repr

/-- A placement log entry (Table 14.10). -/
structure PlaceEntry where
  seq : U32
  kind : Nat
  reason : Nat
  item : Nat
  old : Nat × Nat × Nat
  new : Nat × Nat × Nat
  ts : Nat
  deriving DecidableEq, Repr

/-- A move that waits for a slab boundary of its item's grid (R31): kind, reason, item, grid and the new place. -/
structure PlaceMove where
  kind : Nat
  reason : Nat
  item : Nat
  grid : Nat
  new : Nat × Nat × Nat
  deriving DecidableEq, Repr

/-- Group 0x0E. -/
structure YarBlk where
  qHighPct : Nat
  /-- The setting in use, taken over at a window's end (R397). -/
  qHighUse : Nat
  loadAlertUse : Nat
  loadAlertPct : Nat
  tasks : Tbl Task
  queues : Tbl RdyQueue
  loads : Tbl CoreLoad
  producers : Tbl Producer
  /-- Credits of each cluster: C1, C2, C3. -/
  credits : Tbl (Nat × Nat × Nat)
  loadRing : Quad (Option Nat)
  loadDiv : Quad Nat
  loadWin : Quad Nat
  /-- A whole window has begun since the bind. -/
  loadOn : Quad Bool
  expiryLagMax : Nat
  delayOrder : Nat
  trigOrder : Nat
  placeSeq : U32
  placeLog : Tbl PlaceEntry
  /-- Where slabs, screening states, estimators and voice channels stand (R30), by kind × 2^32 + item: core, cluster, DRAM channel. -/
  places : Tbl (Nat × Nat × Nat)
  moves : List PlaceMove
  lastEvalEl : Nat
  /-- TAI ms of the last window's end; a step sets it to its instant. -/
  windowMs : Nat
  deriving DecidableEq, Repr

def RdyQueue.init : RdyQueue := { depthMax := 0, enqueued := 0, pended := 0, lastPendEl := none, lastHighEl := none, pend := [] }

def Producer.init : Producer := { stalled := none, stalls := 0, stallNs := 0, stallMaxNs := 0 }

def CoreLoad.init : CoreLoad :=
  { busy := 0, busyMax := 0, windowTs := 0, overAlert := 0, lastOverEl := none, sums := .all 0, acc := 0, recent := [] }

def YarBlk.init : YarBlk :=
  { qHighPct := 75, qHighUse := 75, loadAlertPct := 90, loadAlertUse := 90, tasks := [], queues := [], loads := [], producers := [], credits := [],
    loadRing := .all none, loadDiv := .all 1, loadWin := .all 0, loadOn := .all false, expiryLagMax := 0, delayOrder := 0, trigOrder := 0, placeSeq := 0,
    placeLog := [], places := [], moves := [], lastEvalEl := 0, windowMs := 0 }

end Sys2Proof.Machine
end

