-- ==== Sys2Proof/Machine/Blocks/Voice.lean ====
section
/-!
DEFINITION. State of the voice subsystem (group 0x0C, 12_voice.md).
-/

namespace Sys2Proof.Machine

inductive VState where
  | idle | active | closing
  deriving DecidableEq, Repr

def VState.num : VState → Nat
  | .idle => 1
  | .active => 2
  | .closing => 3

inductive EcState where
  | enabled | nlpOff | disabled | hostOff
  deriving DecidableEq, Repr

def EcState.num : EcState → Nat
  | .enabled => 0
  | .nlpOff => 1
  | .disabled => 2
  | .hostOff => 3

/-- A packet in the jitter buffer (R322): sequence number, RTP time without wrap, payload type and payload, and whether it is of the
codec before the last change. -/
structure JbPkt where
  seq : U16
  ext : Int
  old : Bool
  pt : BitVec 7
  payload : Bytes
  deriving DecidableEq, Repr

/-- The mapping of RTP times (R322): the RTP time last taken and the same without wrap; RTP time x without wrap plays at the elapsed instant
x × 125,000 ns + off, where the mapping is set. -/
structure JbClk where
  ts : U32
  ext : Int
  off : Option Int
  deriving DecidableEq, Repr

/-- An announcement request (R342): announcement, direction, priority, repeat count, alarm, request instant. -/
structure AnnReq where
  ann : Nat
  dir : Nat
  priority : Nat
  repeats : Nat
  alarm : Nat
  reqEl : Nat
  deriving DecidableEq, Repr

/-- An announcement playing: its request, the repeats left, this one among them, and the samples (at 8 kS/s) played of this one. -/
structure AnnPlay where
  req : AnnReq
  left : Nat
  pos : Nat
  deriving DecidableEq, Repr

/-- A generated tone (R333): direction, digits left or profile, timing, and RTP units (125 µs) into the current on and off time. -/
structure ToneGen where
  packet : Bool
  digits : Bytes
  profile : Option Nat
  level : Nat
  onMs : Nat
  offMs : Nat
  pos : Nat
  deriving DecidableEq, Repr

/-- A telephone event being sent (R331) or received (R332). -/
structure TelEvent where
  event : Nat
  /-- The marker of its first packet has been sent. -/
  begun : Bool
  volume : Nat
  ts : U32
  /-- Duration in RTP units. -/
  dur : Nat
  /-- Sent: end packets still to send, once the tone has ended. Received: 1 once the event has ended. -/
  ends : Nat
  lastEl : Nat
  startNs : Nat
  deriving DecidableEq, Repr

/-- An SRTP key of one direction with its generation (R335, R337). -/
structure SrtpKey where
  suite : Nat
  key : BitVec 128
  salt : BitVec 112
  fromIndex : Nat
  deriving DecidableEq, Repr

/-- A tone that a detector has seen begin and not yet end: its start, TAI ns and elapsed. -/
structure OpenTone where
  send : Bool
  kind : ToneKind
  value : U8
  startNs : Nat
  startEl : Nat
  deriving DecidableEq, Repr

/-- The tone of a detection. -/
def OpenTone.is (x : OpenTone) (e : ToneEv) : Bool := decide (x.send = e.send ∧ x.kind = e.kind ∧ x.value = e.value)

/-- The signals of one lattice block of a channel (R311): its start, TAI ns and elapsed, its receive signal, and its send signal before DTMF
removal. -/
structure VBlk where
  tai : Nat
  el : Nat
  recv : List U16
  send : List U16
  deriving DecidableEq, Repr

/-- The sixteen counters of a channel, in the order of Table 12.13, are held in `cnt`. -/
structure VCh where
  state : VState
  part : HP
  slots : Nat
  cfg : VoiceCfg
  ecState : EcState
  ecFrozen : Bool
  /-- Coefficients are all zero. -/
  ecZero : Bool
  erl : BitVec 16
  erle : BitVec 16
  ecDelayUs : Nat
  ssrcTx : U32
  ssrcRx : Option U32
  seqTx : U16
  tsTx : U32
  marker : Bool
  /-- Send blocks gathered towards the next packet. -/
  gather : List (List U16)
  /-- With latch set, a datagram has set the remote (R319). -/
  latched : Bool
  rocRx : Nat
  hiSeqRx : Option U16
  /-- Replay window: bit i is set where index hi − i has been accepted. -/
  replay : BitVec 128
  pktIdxTx : Nat
  keyTx : Option SrtpKey
  keyRx : Option SrtpKey
  keyRxPrev : Option SrtpKey
  keyGenTx : U16
  keyGenRx : U16
  /-- Codec before the last change, its payload type, and the elapsed instant until which it is still decoded. -/
  oldCodec : Option (Nat × Nat × Nat)
  /-- Jitter buffer: packets by RTP time, transits of the last 10 s, q in ns, first packet, depths of the last second, and the
  mapping; times are elapsed. -/
  jb : List JbPkt
  transits : List (Nat × Int)
  q : Nat
  firstPktEl : Option Nat
  depths : List (Nat × Int)
  map : Option JbClk
  /-- Sequence numbers played, newest first, at most 128. -/
  played : List U16
  /-- Sequence number of the audio packet that began to play last. -/
  lastSeq : Option U16
  /-- RTP units of concealment running without a break (R323). -/
  concealRun : Nat
  /-- RTP units of the cross-fade after it that are left. -/
  joinLeft : Nat
  lastInsEl : Option Nat
  lastRemEl : Option Nat
  jbTargetUs : Nat
  jbDepthUs : Int
  /-- Elapsed instant of the open. -/
  openEl : Nat
  cnt : List Nat
  openTs : Nat
  lastRxTs : Nat
  lastRxEl : Nat
  mediaLost : Bool
  rrFraction : U8
  lineFifo : List (List U16)
  pktFifo : List (List U16)
  /-- Octets of the line received and waiting to make a block, and the last one (R316). -/
  lineIn : Bytes
  lineLast : Byte
  /-- Octets towards the line. -/
  lineOut : Bytes
  gapLine : Bool
  gapPkt : Bool
  play : Option AnnPlay
  queue : List AnnReq
  gen : Option ToneGen
  telTx : Option TelEvent
  telRx : Option TelEvent
  /-- Tones under way. -/
  tones : List OpenTone
  /-- A DTMF tone of the send signal is being removed (R331), and the elapsed instant until which removal runs on after its end. -/
  dtmfOn : Bool
  muteUntilEl : Option Nat
  lastAuthEvtEl : Option Nat
  nextRtcpEl : Nat
  closeEl : Nat
  /-- Its last 64 blocks, newest first: what capture takes its rows from (R236). -/
  blocks : List VBlk
  deriving DecidableEq, Repr

/-- A call-progress profile (R328). -/
structure ToneProfile where
  minLevel : Nat
  f1Hz : Nat
  f2Hz : Nat
  onMs : Nat
  offMs : Nat
  cycles : Nat
  deriving DecidableEq, Repr

/-- An announcement (Table 12.14). -/
structure Ann where
  ready : Bool
  ulaw : Bool
  bytes : Nat
  loadedTs : Nat
  plays : Nat
  data : Bytes
  /-- Loading: its long command, partition and ring. -/
  loading : Option (Nat × HP × Nat)
  deriving DecidableEq, Repr

/-- A TDM highway (Table 12.12). -/
structure Highway where
  fsOffset : Nat
  fsStartTs : Nat
  /-- Octets last driven, by timeslot; an absent timeslot is at high impedance. -/
  tx : Tbl Byte
  lastPoisonEvtEl : Option Nat
  deriving DecidableEq, Repr

/-- Group 0x0C. -/
structure VocBlk where
  hwEn : BitVec 8
  drive : BitVec 8
  idleLaw : BitVec 8
  chans : Tbl VCh
  origin : Nat
  /-- The lattice origin as an elapsed instant. -/
  originEl : Nat
  /-- Blocks processed since the origin was set. -/
  block : Nat
  toneRing : Quad (Option Nat)
  profiles : Tbl ToneProfile
  anns : Tbl Ann
  annMap : Tbl VoiceAnnMapP
  highways : Tbl Highway
  /-- Elapsed start of a frame of the running TDM_FS; none while it is stopped (R314). -/
  clkEl : Option Nat
  deriving DecidableEq, Repr

def Highway.init : Highway := { fsOffset := 0, fsStartTs := 0, tx := [], lastPoisonEvtEl := none }

def VocBlk.init : VocBlk :=
  { hwEn := 0, drive := 0, idleLaw := 0, chans := [], origin := 0, originEl := 0, block := 0, toneRing := .all none, profiles := [], anns := [],
    annMap := [], highways := [], clkEl := none }

end Sys2Proof.Machine
end

