-- ==== Sys2Proof/Machine/Rat.lean ====
section
/-!
DEFINITION. Exact rational arithmetic on `Scale`, integer square roots and logarithms, and binary32 (IEEE 754): values are computed
exactly and narrowed once.
-/

namespace Sys2Proof.Machine

/-- A rational in lowest terms with a positive denominator. -/
def qmk (n : Int) (d : Nat) : Scale :=
  if d = 0 then ⟨0, 1⟩ else
  let g := Nat.gcd n.natAbs d
  if g = 0 then ⟨0, 1⟩ else ⟨n / (g : Int), d / g⟩

def qInt (n : Int) : Scale := ⟨n, 1⟩
def qNat (n : Nat) : Scale := ⟨(n : Int), 1⟩
def qZero : Scale := ⟨0, 1⟩

def qadd (a b : Scale) : Scale := qmk (a.num * (b.den : Int) + b.num * (a.den : Int)) (a.den * b.den)
def qneg (a : Scale) : Scale := ⟨-a.num, a.den⟩
def qsub (a b : Scale) : Scale := qadd a (qneg b)
def qmul (a b : Scale) : Scale := qmk (a.num * b.num) (a.den * b.den)

/-- A quotient; by zero it is zero, which no rule uses. -/
def qdiv (a b : Scale) : Scale :=
  if b.num = 0 then qZero
  else if 0 < b.num then qmk (a.num * (b.den : Int)) (a.den * b.num.natAbs)
  else qmk (-(a.num * (b.den : Int))) (a.den * b.num.natAbs)

def qabs (a : Scale) : Scale := ⟨(a.num.natAbs : Int), a.den⟩
def qlt (a b : Scale) : Bool := decide (a.num * (b.den : Int) < b.num * (a.den : Int))
def qle (a b : Scale) : Bool := decide (a.num * (b.den : Int) ≤ b.num * (a.den : Int))
def qmax (a b : Scale) : Scale := if qlt a b then b else a
def qmin (a b : Scale) : Scale := if qlt b a then b else a

/-- The sum of a list. -/
def qsum (l : List Scale) : Scale := l.foldl qadd qZero

/-- The largest integer not above. -/
def qfloor (a : Scale) : Int := if a.den = 0 then 0 else a.num / (a.den : Int)

/-- The nearest integer, halves upward. -/
def qround (a : Scale) : Int := qfloor (qadd a ⟨1, 2⟩)

/-- The nearest integer, halves to even. -/
def qroundEven (a : Scale) : Int :=
  let f := qfloor a
  let r := qsub a (qInt f)
  if qlt r ⟨1, 2⟩ then f
  else if qlt ⟨1, 2⟩ r then f + 1
  else if f % 2 = 0 then f else f + 1

/-- Newton steps towards the integer square root. -/
def isqrtGo (n : Nat) : Nat → Nat → Nat
  | 0, x => x
  | fuel + 1, x =>
    let y := (x + n / x) / 2
    if y < x then isqrtGo n fuel y else x

/-- The integer square root: the largest r with r² ≤ n. -/
def isqrt (n : Nat) : Nat := if n = 0 then 0 else isqrtGo n (n.log2 + 8) (2 ^ (n.log2 / 2 + 1))

/-- The square root of a rational rounded down to a multiple of 1 / k. -/
def qsqrtFloor (a : Scale) (k : Nat) : Nat :=
  if a.num ≤ 0 ∨ a.den = 0 then 0 else isqrt (a.num.natAbs * k * k / a.den)

/-- floor(log2 a) of a positive rational, as an integer. -/
def qlog2 (a : Scale) : Int :=
  let n := a.num.natAbs
  let e := (n.log2 : Int) - (a.den.log2 : Int)
  -- 2^e is within a factor of two of a
  let ge : Bool := if 0 ≤ e then decide (a.den * 2 ^ e.toNat ≤ n) else decide (a.den ≤ n * 2 ^ (-e).toNat)
  if ge then e else e - 1

/-- The rational 2^e. -/
def qpow2 (e : Int) : Scale := if 0 ≤ e then ⟨((2 ^ e.toNat : Nat) : Int), 1⟩ else ⟨1, 2 ^ (-e).toNat⟩

/-- The value of a binary32 that is finite; none for an infinity or a NaN. -/
def f32toQ (w : U32) : Option Scale :=
  let n : Nat := w.toNat
  let e : Nat := n / 2 ^ 23 % 256
  let m : Nat := n % 2 ^ 23
  if e = 255 then none else
  let v : Scale := if e = 0 then ⟨(m : Int), 2 ^ 149⟩ else qmul ⟨((2 ^ 23 + m : Nat) : Int), 1⟩ (qpow2 ((e : Int) - 150))
  some (if n / 2 ^ 31 = 1 then qneg v else v)

/-- The value of a binary32, with 0 for what is not finite; used where the spec admits finite values only. -/
def f32val (w : U32) : Scale := (f32toQ w).getD qZero

def f32isNaN (w : U32) : Bool := decide (w.toNat / 2 ^ 23 % 256 = 255 ∧ w.toNat % 2 ^ 23 ≠ 0)
def f32isInf (w : U32) : Bool := decide (w.toNat / 2 ^ 23 % 256 = 255 ∧ w.toNat % 2 ^ 23 = 0)
def f32sign (w : U32) : Bool := decide (w.toNat / 2 ^ 31 = 1)

/-- A rational rounded to binary32, to nearest with ties to even; magnitudes past the largest finite value give an infinity. -/
def f32ofQ (a : Scale) : U32 :=
  if a.num = 0 ∨ a.den = 0 then 0 else
  let sgn : Nat := if a.num < 0 then 2 ^ 31 else 0
  let v := qabs a
  let e := qlog2 v
  let e' : Int := if e < -126 then -126 else e
  let m := (qroundEven (qmul v (qpow2 (23 - e')))).toNat
  -- m lies in 0 … 2^24; a carry to 2^24 moves to the next exponent by itself
  let bits : Nat := if m < 2 ^ 23 then m else ((e' + 127).toNat * 2 ^ 23) + (m - 2 ^ 23)
  let bits := if 2139095040 ≤ bits then 2139095040 else bits
  BitVec.ofNat 32 (sgn + bits)

/-- The square root of a rational rounded to binary32 (to nearest): the root is bracketed between neighbours of 2^-k and rounded once. -/
def f32sqrtQ (a : Scale) : U32 :=
  if a.num ≤ 0 ∨ a.den = 0 then 0 else
  let e := qlog2 a / 2
  let k : Int := 40 - e
  -- floor(sqrt(a) · 2^k), made odd where inexact so that rounding cannot see a false tie
  let s := qmul a (qpow2 (2 * k))
  let n := (qfloor s).toNat
  let r := isqrt n
  let exact := decide (r * r = n ∧ s.den = 1)
  let r2 : Nat := if exact then 2 * r else 2 * r + 1
  f32ofQ (qmul (qNat r2) (qpow2 (-(k + 1))))

end Sys2Proof.Machine
end

