-- ==== Sys2Proof/Machine/State.lean ====
section
/-!
DEFINITION. The state of the device: the blocks of the chapters, the counters of the aperture, the queue of commands that wait, and the
reasons a step can stop.
-/

namespace Sys2Proof.Machine

/-- The state of the device that the aperture shows and a snapshot freezes (R63). -/
structure Blocks where
  dev : DevBlk
  clk : ClkBlk
  host : HostBlk
  pop : PopBlk
  net : NetBlk
  ing : IngBlk
  aln : AlnBlk
  osc : OscBlk
  isl : IslBlk
  alm : AlmBlk
  cap : CapBlk
  sage : SageBlk
  eq : EqBlk
  voc : VocBlk
  sor : SorBlk
  yar : YarBlk
  cf : CfBlk
  dill : DillBlk
  jtag : JtagBlk
  /-- Counters of the aperture by absolute address (R12); an absent counter is zero. -/
  cnt : Tbl Nat
  /-- The MODEL's own field: how many free values have been taken (log entry 5). -/
  free : Nat
  deriving DecidableEq, Repr

/-- The state of the machine. -/
structure State extends Blocks where
  /-- Each partition's frozen copy of the chosen groups (R63). -/
  shadow : Quad (Option Blocks)
  /-- Commands that wait, first in, first out. -/
  pending : List Instr
  deriving DecidableEq, Repr

/-- Why the machine stops with a fault. There is no such reason: the spec gives every command of the block an effect. -/
inductive Fault where
  deriving DecidableEq, Repr

/-- Why a command is refused. -/
inductive Refusal where
  /-- Raised by `exec` for a command whose meaning is not modelled; safe: the machine stops. -/
  | notModelled (mnemonic : String)
  deriving DecidableEq, Repr

/-- Every block at reset. -/
def Blocks.reset : Blocks :=
  { dev := .init, clk := .init, host := .init, pop := .init, net := .init, ing := .init, aln := .init, osc := .init, isl := .init,
    alm := .init, cap := .init, sage := .init, eq := .init, voc := .init, sor := .init, yar := .init, cf := .init, dill := .init,
    jtag := .init, cnt := [], free := 0 }

/-- The machine right after reset: every field at the value its table gives for reset, where it gives one (log entry 2 for the rest),
with an empty queue. -/
def State.reset : State := { Blocks.reset with shadow := .all none, pending := [] }

end Sys2Proof.Machine
end

