-- ==== Sys2Proof/Machine/Ops.lean ====
section
/-!
DEFINITION. The operations every chapter shares: device time, counters of the aperture, events with their rings, rate limits and Poppy
records, DMA rings, long commands, and the one path of a VCI command (02_host_partitions.md, 17_recorder_persistence.md).
-/

namespace Sys2Proof.Machine

/-- The outcome of a step of this machine. -/
abbrev Out := Host.Outcome State Fault Refusal

/-- Elapsed device time since reset, ns; a step of the clock does not move it (log entry 1). -/
def elNs (s : State) : Nat := s.clk.adv / 2 ^ 32

/-- Device time, TAI ns since the epoch (R71). -/
def taiNs (s : State) : Nat := s.clk.sec.toNat * 1000000000 + s.clk.ns.toNat

/-- ABS_TICK (R382). -/
def absTick (s : State) : Nat := ((elNs s : Int) + s.clk.absOff).toNat / 1000

/-- Elapsed milliseconds. -/
def elMs (s : State) : Nat := elNs s / 1000000

/-- Take one free value (log entry 5). -/
def fresh (s : State) : Nat × State := (Config.freeValue s.free, { s with free := s.free + 1 })

/-! ### Counters -/

/-- The DMA engine of a partition's link reads its rings: the link is up, and the producer is not stalled (R389). -/
def hostReads (s : State) (p : HP) : Bool := (s.host.parts.get p).link && (tgetD s.yar.producers (13 + p.val) .init).stalled.isNone

/-- Read a counter of the aperture. -/
def cntGet (s : State) (addr : Nat) : Nat := tgetD s.cnt addr 0

/-- Write a counter, at most its end (R12); zero is the absent entry. -/
def cntSet (addr v : Nat) (s : State) : State :=
  { s with cnt := if v = 0 then tdel s.cnt addr else tset s.cnt addr (min v (2 ^ 64 - 1)) }

/-- A 64-bit counter counts one, and sticks at its end (R12). -/
def sat1 (n : Nat) : Nat := satAdd (2 ^ 64 - 1) n 1

/-- Add to a 64-bit counter, which sticks at its end (R12). -/
def bumpBy (addr n : Nat) (s : State) : State := cntSet addr (satAdd (2 ^ 64 - 1) (cntGet s addr) n) s

/-- Count one. -/
def bump (addr : Nat) (s : State) : State := bumpBy addr 1 s

/-- Keep the larger value in a counter that holds a maximum. -/
def cntMax (addr v : Nat) (s : State) : State := if cntGet s addr < v then cntSet addr v s else s

/-- Count one when a condition holds. -/
def bumpIf (c : Bool) (addr : Nat) (s : State) : State := if c then bump addr s else s

/-- Base address of the registers of partition p (Tables 2.14 and 2.15). -/
def partBase (p : HP) : Nat := 0x02000100 + p.val * 0x100

/-! ### Partitions -/

/-- A partition of the machine. -/
def getPart (s : State) (p : HP) : Part := s.host.parts.get p

/-- Replace a partition. -/
def setPart (p : HP) (v : Part) (s : State) : State := { s with host := { s.host with parts := s.host.parts.set p v } }

/-- Change a partition. -/
def modPart (p : HP) (f : Part → Part) (s : State) : State := setPart p (f (getPart s p)) s

/-- Live states (R58). -/
def PState.live : PState → Bool
  | .healthy | .degraded | .failing => true
  | _ => false

/-- PSTATE.pstate (Table 2.14). -/
def PState.num : PState → Nat
  | .out => 0
  | .returning => 1
  | .healthy => 2
  | .degraded => 3
  | .failing => 4

def isLive (s : State) (p : HP) : Bool := (getPart s p).pstate.live

/-- p is the controller. -/
def isCtrl (s : State) (p : HP) : Bool := decide (s.host.controller = some p)

/-- Signal MSI-X vector v of a partition (R36). -/
def msix (p : HP) (v : Nat) (s : State) : State :=
  modPart p (fun q => { q with msix := tset q.msix v (tgetD q.msix v 0 + 1) }) s

/-! ### Events -/

/-- What an event entry holds beside its sequence number and time (Table 2.7). -/
structure EvtIn where
  code : Nat
  sev : Nat
  params : Bytes
  completion : Bool
  tag : U32
  status : U16
  deriving DecidableEq, Repr

/-- The entry an event makes with a sequence number. -/
def mkEntry (s : State) (e : EvtIn) (seq : U32) : EvtEntry :=
  { seq, code := BitVec.ofNat 16 e.code, severity := BitVec.ofNat 2 e.sev, timeValid := s.clk.timeValid,
    completion := e.completion, taiS := s.clk.sec, taiNs := BitVec.ofNat 32 s.clk.ns.toNat, tag := e.tag, status := e.status,
    params := e.params.take 100 }

/-- Write an event into a partition's ring, or lose it with its sequence number (R48). -/
def pushEvt (p : HP) (e : EvtIn) (s : State) : State :=
  let q := getPart s p
  if (q.evtProd - q.evtCons).toNat < 256 then
    let q' := { q with evtRing := tset q.evtRing (q.evtProd.toNat % 256) (mkEntry s e q.evtSeq)
                       evtProd := q.evtProd + 1, evtSeq := q.evtSeq + 1 }
    let s1 := setPart p q' s
    if q.evtProd = q.evtCons then msix p 2 s1 else s1
  else
    let q' := { q with evtSeq := q.evtSeq + 1, lost := q.lost + 1, lostFirst := if q.lost = 0 then q.evtSeq else q.lostFirst }
    bump (partBase p + 0x68) (setPart p q' s)

/-- Whether an event reaches a partition's ring (R47). -/
def evtReaches (s : State) (code : Nat) (owner : Option HP) (p : HP) : Bool :=
  (isLive s p && (decide (code / 256 ≤ 3) || decide (owner = some p))) || isCtrl s p

/-! ### Poppy records -/

/-- Operating time in seconds (R443). -/
def opSeconds (s : State) : Nat := s.pop.opBase + elNs s / 1000000000

/-- Operating hours, which stick at 32 bits (Table 17.3). -/
def opHours (s : State) : Nat := min (opSeconds s / 3600) (2 ^ 32 - 1)

/-- The record an event makes (Table 17.1). -/
def mkRec (s : State) (num code sev : Nat) (params : Bytes) : Rec :=
  { num, code := BitVec.ofNat 16 code, severity := BitVec.ofNat 2 sev, timeValid := s.clk.timeValid,
    trunc := decide (12 < params.length), powerCycles := s.pop.powerCycles, opSec := opSeconds s % 3600,
    opHours := opHours s, taiMs := if s.clk.timeValid then taiNs s / 1000000 else 0,
    params := (params ++ List.replicate 12 0).take 12 }

/-- Drop the newest record of severity 0 or 1 that no flush in progress holds, numbering the later ones down; the list is newest
first. -/
def dropNewestLow (keep : Nat) : List Rec → Option (List Rec)
  | [] => none
  | r :: t =>
    if r.severity.toNat ≤ 1 ∧ keep ≤ r.num then some t
    else match dropNewestLow keep t with
      | some t' => some ({ r with num := r.num - 1 } :: t')
      | none => none

/-- Put a record into the buffer (R430, R434, R435). -/
def pushRec (code sev : Nat) (params : Bytes) (s : State) : State :=
  let b := s.pop.buffer
  if b.length < 1024 then
    let b' := b ++ [mkRec s s.pop.nextRec code sev params]
    bump 0x11000100 { s with pop := { s.pop with buffer := b', nextRec := s.pop.nextRec + 1, bufHwm := max s.pop.bufHwm b'.length } }
  else
    let s1 := bump 0x11000118 { s with pop := { s.pop with bufLost := s.pop.bufLost + 1 } }
    if sev ≤ 1 then s1 else
    match dropNewestLow (if s.pop.flushing then s.pop.flushEnd else 0) b.reverse with
    | none => s1
    | some t =>
      bump 0x11000100 { s1 with pop := { s1.pop with buffer := t.reverse ++ [mkRec s (s.pop.nextRec - 1) code sev params] } }

/-- Rate and burst of a code (R432, R451). -/
def rateOf (s : State) (code : Nat) : Nat × Nat :=
  match tfind (fun _ o => decide (o.code.toNat = code)) s.pop.overrides with
  | some (_, o) => (o.rate, o.burst)
  | none => (s.pop.defRate, s.pop.defBurst)

/-- How many instants ⌊k × 10^6 / r⌋, k ≥ 1, lie at or before tick t (R432). -/
def grants (r t : Nat) : Nat := ((t + 1) * r - 1) / 1000000

/-- The bucket of a code brought up to the present tick. -/
def bucketNow (s : State) (code : Nat) : Bucket :=
  let (r, b) := rateOf s code
  match tget s.pop.buckets code with
  | none =>
    let n := grants r (absTick s - s.pop.defBase)
    { tokens := min b (s.pop.defTokens + n), base := s.pop.defBase, granted := n, limited := false, suppressed := 0, firstMs := 0,
      lastMs := 0 }
  | some k =>
    let n := grants r (absTick s - k.base)
    { k with tokens := min b (k.tokens + (n - k.granted)), granted := max n k.granted }

def setBucket (code : Nat) (k : Bucket) (s : State) : State := { s with pop := { s.pop with buckets := tset s.pop.buckets code k } }

/-- Raise an event past the rate limits: to the rings it reaches, and to the record (R47, R429). -/
def raiseRaw (code sev : Nat) (params : Bytes) (owner : Option HP) (s : State) : State :=
  let e : EvtIn := { code, sev, params, completion := false, tag := 0, status := 0 }
  let s1 := allHP.foldl (fun t p => if evtReaches s code owner p then pushEvt p e t else t) s
  pushRec code sev params s1

/-- Leave LIMITED when the bucket is full again: one EVENTS-SUPPRESSED (R433). -/
def leaveLimited (code : Nat) (s : State) : State :=
  let k := bucketNow s code
  if k.limited ∧ (rateOf s code).2 ≤ k.tokens then
    raiseRaw 0x1101 1 (leBytes 2 code ++ leBytes 4 (min k.suppressed (2 ^ 32 - 1)) ++ leBytes 4 (k.lastMs - k.firstMs)) none
      (setBucket code { k with limited := false, suppressed := 0 } s)
  else s

/-- Raise an event (R432): a token is taken, or the occurrence is suppressed. -/
def raise (code sev : Nat) (params : Bytes) (owner : Option HP) (s0 : State) : State :=
  let s := leaveLimited code s0
  let k := bucketNow s code
  if 0 < k.tokens then raiseRaw code sev params owner (setBucket code { k with tokens := k.tokens - 1 } s)
  else
    bump 0x11000110 (setBucket code { k with limited := true, suppressed := k.suppressed + 1,
                                             firstMs := if k.limited then k.firstMs else elMs s, lastMs := elMs s } s)

/-- Raise an event when a condition holds. -/
def raiseIf (c : Bool) (code sev : Nat) (params : Bytes) (owner : Option HP) (s : State) : State :=
  if c then raise code sev params owner s else s

/-- Write EVENTS-LOST when space has returned (R48); it enters that ring alone. -/
def eventsLost (p : HP) (s : State) : State :=
  let q := getPart s p
  if 0 < q.lost ∧ (q.evtProd - q.evtCons).toNat < 256 then
    let params := leBytes 8 q.lost ++ leBytes 4 q.lostFirst.toNat
    pushRec 0x020B 2 params
      (pushEvt p { code := 0x020B, sev := 2, params, completion := false, tag := 0, status := 0 }
        (setPart p { q with lost := 0, lostFirst := 0 } s))
  else s

/-! ### Status codes, long commands and replies -/

/-- VCI status codes (Table 2.6). -/
inductive Sts where
  | ok | accepted | busy | badOpcode | badLength | badParam | noResource | notController | isSealed | timeout | poisoned | notSmaller
  | expansionLimit
  deriving DecidableEq, Repr

def Sts.num : Sts → Nat
  | .ok => 0
  | .accepted => 1
  | .busy => 2
  | .badOpcode => 3
  | .badLength => 4
  | .badParam => 5
  | .noResource => 6
  | .notController => 7
  | .isSealed => 8
  | .timeout => 9
  | .poisoned => 10
  | .notSmaller => 11
  | .expansionLimit => 12

/-- A status as a 16-bit field. -/
def Sts.w (x : Sts) : U16 := BitVec.ofNat 16 x.num

/-- What a command's execution answers: status, response payload and state. -/
structure Rep where
  st : Sts
  resp : Bytes
  s : State
  deriving DecidableEq, Repr

/-- A command refused, with no effect. -/
def refuse (st : Sts) (s : State) : Rep := ⟨st, [], s⟩

/-- A command completed with no response payload. -/
def done (s : State) : Rep := ⟨.ok, [], s⟩

/-- A command completed with a response payload. -/
def doneWith (resp : Bytes) (s : State) : Rep := ⟨.ok, resp, s⟩

/-- Start a long command (R44); its number is the first component. -/
def startLong (h : Hdr) (opcode limitMs : Nat) (s : State) : Nat × State :=
  let id := s.host.longNext
  let l : LongCmd := { part := h.part, urg := h.urg, tag := h.tag, opcode := BitVec.ofNat 16 opcode,
                       deadline := elNs s + limitMs * 1000000 }
  (id, { s with host := { s.host with long := tset s.host.long id l, longNext := id + 1 } })

/-- Replace the status and response of a cached tag (R43). -/
def updCache (tag : U32) (st : U16) (resp : Bytes) : List Cached → List Cached
  | [] => []
  | c :: t => if c.tag = tag then { c with status := st, resp := resp } :: t else c :: updCache tag st resp t

/-- Complete a long command (R43, R44, R46): COMMAND-DONE in its issuer's ring, and the cached entry updated. -/
def completeLong (id : Nat) (st : Sts) (result : Bytes) (s : State) : State :=
  match tget s.host.long id with
  | none => s
  | some l =>
    let s1 := { s with host := { s.host with long := tdel s.host.long id } }
    let s2 := modPart l.part (fun q =>
      if l.tag = 0 then q
      else if l.urg then { q with cacheU := updCache l.tag st.w result q.cacheU }
      else { q with cacheN := updCache l.tag st.w result q.cacheN }) s1
    pushEvt l.part { code := 0x0201, sev := 0, params := leBytes 2 l.opcode.toNat ++ result.take 98, completion := true, tag := l.tag,
                     status := st.w } s2

/-- Complete a long command where there is one. -/
def completeOpt (id : Option Nat) (st : Sts) (result : Bytes) (s : State) : State :=
  match id with
  | some i => completeLong i st result s
  | none => s

/-! ### The path of a VCI command -/

/-- Command classes: open, control, and output-stage commands (R56). -/
inductive CmdCls where
  | openC | control | stage
  deriving DecidableEq, Repr

/-- What an opcode's table gives: number, class, mailboxes, whether long, the payload length, and whether recovery serves it. -/
structure Cmd where
  op : Nat
  cls : CmdCls
  u : Bool
  long : Bool
  len : Nat
  recovery : Bool
  deriving DecidableEq, Repr

/-- An ordinary opcode. -/
def cmd (op : Nat) (cls : CmdCls) (u : Bool) (len : Nat) : Cmd := ⟨op, cls, u, false, len, false⟩

/-- A long opcode. -/
def cmdLong (op : Nat) (cls : CmdCls) (u : Bool) (len : Nat) : Cmd := ⟨op, cls, u, true, len, false⟩

/-- The mailbox's response: written, cached where the tag is nonzero, and signalled (R36, R37, R42). -/
def respond (h : Hdr) (op : Nat) (st : U16) (resp : Bytes) (cache : Bool) (s : State) : State :=
  let m : Mbx := { opcode := BitVec.ofNat 16 op, tag := h.tag, status := st, resp, done := true }
  let c : Cached := { tag := h.tag, opcode := BitVec.ofNat 16 op, status := st, resp }
  let keep := cache && decide (h.tag ≠ 0)
  let s1 := modPart h.part (fun q =>
    if h.urg then { q with mbxU := m, cacheU := if keep then (c :: q.cacheU).take 64 else q.cacheU }
    else { q with mbxN := m, cacheN := if keep then (c :: q.cacheN).take 64 else q.cacheN }) s
  msix h.part (if h.urg then 1 else 0) s1

/-- Answer a command that has been taken, counting NOT-CONTROLLER (Table 2.15). -/
def answer (h : Hdr) (op : Nat) (r : Rep) : State :=
  let s1 := bumpIf (decide (r.st = .notController)) (partBase h.part + 0x58) r.s
  respond h op r.st.w r.resp true s1

/-- The cached response to a tag (R42). -/
def cached (s : State) (h : Hdr) : Option Cached :=
  if h.tag = 0 then none
  else ((if h.urg then (getPart s h.part).cacheU else (getPart s h.part).cacheN).find? (fun c => c.tag = h.tag))

/-- How many long commands a partition has outstanding (R44). -/
def outstanding (s : State) (p : HP) : Nat := tcount (fun _ l => decide (l.part = p)) s.host.long

/-- Checks 2 to 7 of R39, in order: the first that fails. -/
def vciCheck (c : Cmd) (h : Hdr) (ok : Bool) (s : State) : Option Sts :=
  if 4080 < h.length.toNat then some .badLength
  else if h.urg && !c.u then some .badOpcode
  else if h.length.toNat ≠ c.len then some .badLength
  else if h.hpart.toNat ≠ h.part.val ∨ h.hurgent ≠ h.urg ∨ h.hcontrol ≠ decide (c.cls = .control) then some .badParam
  else if h.rsv ≠ 0 ∨ ok = false then some .badParam
  else if c.cls = .control ∧ isCtrl s h.part = false then some .notController
  else if c.long ∧ 16 ≤ outstanding s h.part then some .busy
  else none

/-- Recovery is in effect (R459). -/
def recovering (s : State) : Bool := decide (s.dev.boot = .halted ∧ (s.dev.haltCode = 3 ∨ s.dev.haltCode = 4))

/-- A doorbell in recovery: the boot ROM serves three opcodes in the N mailbox of HP0, without claim check or cached tags (R459). -/
def vciRecovery (c : Cmd) (h : Hdr) (ok : Bool) (body : State → Rep) (s : State) : State :=
  if h.part = 0 ∧ h.urg = false then
    let r : Rep :=
      if 4080 < h.length.toNat then refuse .badLength s
      else if c.recovery = false then refuse .badOpcode s
      else if h.length.toNat ≠ c.len then refuse .badLength s
      else if h.hpart.toNat ≠ 0 ∨ h.hurgent ∨ h.hcontrol ≠ decide (c.cls = .control) ∨ h.rsv ≠ 0 ∨ ok = false then refuse .badParam s
      else body s
    respond h c.op r.st.w r.resp false r.s
  else bump 0x01000100 s

/-- Count a command taken (Table 2.15). -/
def countCmd (h : Hdr) (s : State) : State := bump (partBase h.part + (if h.urg then 0x48 else 0x40)) s

/-- A doorbell for a command (R38 to R43): replay, the checks of R39, and the command's effect at one commit point. `ok` is step 6: reserved
fields and ranges. -/
def vci (c : Cmd) (h : Hdr) (ok : State → Bool) (body : State → Rep) (s : State) : State :=
  if (getPart s h.part).present = false then s
  else if recovering s then vciRecovery c h (ok s) body s
  else if s.dev.boot ≠ .ready then bump 0x01000100 s
  else
    let s1 := countCmd h s
    match cached s1 h with
    | some e => respond h c.op (e.status ||| 0x8000) e.resp false (bump (partBase h.part + 0x50) s1)
    | none =>
      match vciCheck c h (ok s1) s1 with
      | some st => answer h c.op (refuse st s1)
      | none => answer h c.op (body s1)

/-! ### DMA rings (2.10) -/

def getRing (s : State) (p : HP) (n : Nat) : Option Ring := tget (getPart s p).rings n

def setRing (p : HP) (n : Nat) (r : Ring) (s : State) : State := modPart p (fun q => { q with rings := tset q.rings n r }) s

/-- A ring of the partition, of a direction, that nothing uses. -/
def ringFree (s : State) (p : HP) (n : Nat) (toDev : Bool) : Bool :=
  match getRing s p n with
  | some r => decide (r.toDev = toDev ∧ r.use = .unbound ∧ r.retiring = none)
  | none => false

/-- A ring of the partition and direction, whatever its use. -/
def ringIs (s : State) (p : HP) (n : Nat) (toDev : Bool) : Bool :=
  match getRing s p n with
  | some r => decide (r.toDev = toDev)
  | none => false

/-- Bind a ring to a use. -/
def bindRing (p : HP) (n : Nat) (u : RingUse) (s : State) : State :=
  match getRing s p n with
  | some r => setRing p n { r with use := u } s
  | none => s

/-- The item that a use names ends: its ring is unbound, where the ring still has that use. -/
def unbindRing (p : HP) (n : Nat) (u : RingUse) (s : State) : State :=
  match getRing s p n with
  | some r => if r.use = u then setRing p n { r with use := .unbound } s else s
  | none => s

/-- Complete the oldest descriptor the device owns (R66). -/
def completeDesc (p : HP) (n : Nat) (st : Sts) (len : Nat) (data : Bytes) (s : State) : State :=
  match getRing s p n with
  | none => s
  | some r =>
    match r.owned with
    | [] => s
    | d :: t =>
      let s1 := setRing p n { r with owned := t, devIdx := r.devIdx + 1
                                     lastDone := some { desc := d, status := st.w, len := BitVec.ofNat 32 len, data } } s
      if d.int then msix p (4 + n) s1 else s1

/-- How many buffers a record of some bytes takes, where those posted suffice. -/
def buffersFor : List Desc → Nat → Option Nat
  | _, 0 => some 0
  | [], _ + 1 => none
  | d :: t, n + 1 =>
    if n + 1 ≤ d.len.toNat then some 1
    else match buffersFor t (n + 1 - d.len.toNat) with
      | some k => some (k + 1)
      | none => none

/-- Write bytes over the next buffers, completing each. -/
def writeBuffers (p : HP) (n : Nat) : Nat → Bytes → State → State
  | 0, _, s => s
  | k + 1, data, s =>
    match getRing s p n with
    | none => s
    | some r =>
      match r.owned with
      | [] => s
      | d :: _ => writeBuffers p n k (data.drop d.len.toNat)
                    (completeDesc p n .ok (min data.length d.len.toNat) (data.take d.len.toNat) s)

/-- Write one record of a use to a device-to-host ring; none where it finds no posted buffer, the ring no longer has that use, or the link
is down (R19, R68, R69). -/
def ringWrite (p : HP) (n : Nat) (u : RingUse) (data : Bytes) (s : State) : Option State :=
  match getRing s p n with
  | none => none
  | some r =>
    if (getPart s p).link = false ∨ r.toDev ∨ r.use ≠ u ∨ r.owned = [] then none
    else match buffersFor r.owned (max data.length 1) with
      | none => none
      | some k => some (writeBuffers p n k data s)

/-- Rings a partition has (R51). -/
def ringCount (s : State) (p : HP) : Nat := (getPart s p).rings.length

end Sys2Proof.Machine
end

