-- ==== Sys2Proof/Machine/Convert.lean ====
section
/-!
DEFINITION. Reporting grids (Table 6.1), time tags of C37.118 frames (R89, R91, R148), layouts of configurations (R143, R144) and the
conversion of received values into report cells (R145 to R147). Values are computed exactly and rounded once (log entry 20).
-/

namespace Sys2Proof.Machine

/-! ### Grids -/

/-- The rates of Table 6.1 by grid index. -/
def gridRates : List Nat := [1, 2, 3, 4, 5, 6, 8, 10, 12, 15, 20, 24, 25, 30, 40, 50, 60, 100, 120, 200]

/-- Rate of a grid. -/
def rateOfGrid (g : Nat) : Nat := lget gridRates g 1

/-- Grid of a rate. -/
def gridOfRate (r : Nat) : Option Nat := gridRates.findIdx? (fun x => decide (x = r))

/-- Instant number n of a rate, TAI ns (R158). -/
def gridInstant (rate n : Nat) : Nat := n / rate * 1000000000 + divRound (n % rate * 1000000000) rate

/-- Number of the instant nearest to a time. -/
def gridIndex (rate ns : Nat) : Nat := ns / 1000000000 * rate + divRound (ns % 1000000000 * rate) 1000000000

/-- Period in ns. -/
def periodNs (rate : Nat) : Nat := divRound 1000000000 rate

/-! ### Time tags -/

/-- UTC seconds of a frame to TAI seconds (R89, R91): `occ` is Leap Second Occurred of its quality byte. -/
def socToTai (s : State) (soc : Nat) (occ : Bool) : Nat :=
  let cur := s.clk.utcOffset
  let pick (old new : Int) (c : Nat) : Nat :=
    let tO := ((soc : Int) + old).toNat
    let tN := ((soc : Int) + new).toNat
    if tO < c ∧ c ≤ tN then (if occ then tN else tO)
    else if tO < c then tO
    else if c ≤ tN then tN
    else tO
  match s.clk.leap with
  | some l => if l.deletion then pick cur (cur - 1) (l.tai - 1) else pick cur (cur + 1) (l.tai + 1)
  | none =>
    if s.clk.leapOccurred then pick (if s.clk.leapDir then cur + 1 else cur - 1) cur (s.clk.occurredEnd - 86400)
    else ((soc : Int) + cur).toNat

/-- TAI seconds to UTC seconds (R89). -/
def taiToSoc (s : State) (sec : Nat) : Nat :=
  let cur := s.clk.utcOffset
  let off : Int := match s.clk.leap with
    | some l => if l.deletion then (if l.tai - 1 ≤ sec then cur - 1 else cur) else (if l.tai + 1 ≤ sec then cur + 1 else cur)
    | none =>
      if s.clk.leapOccurred ∧ sec < s.clk.occurredEnd - 86400 then (if s.clk.leapDir then cur + 1 else cur - 1) else cur
  ((sec : Int) - off).toNat

/-- TAI second at which utc_offset changes: the end of an inserted second, the start of 23:59:59 (R91). -/
def leapInstant (l : Leap) : Nat := if l.deletion then l.tai - 1 else l.tai + 1

/-- The leap bits of a quality byte for a tag (R90, R91): those of a leap instant for TAI second `sec`. -/
def leapBits (at_ sec : Nat) (deletion : Bool) : Nat :=
  if sec < at_ then (if at_ ≤ sec + 60 then (if deletion then 80 else 16) else 0)
  else if sec < at_ + 86400 then (if deletion then 96 else 32)
  else 0

/-- The quality byte of a frame by its tag's TAI second: leap bits and the time quality code (3.4, R90, R91). -/
def qualByte (s : State) (sec : Nat) : Byte :=
  let next := match s.clk.leap with
    | some l => leapBits (leapInstant l) sec l.deletion
    | none => 0
  let past := if s.clk.leapOccurred then leapBits (s.clk.occurredEnd - 86400) sec s.clk.leapDir else 0
  BitVec.ofNat 8 ((if next = 0 then past else next) + s.clk.tq.toNat)

/-- The tag of a frame: the grid instant within 10 µs of it; none where there is none (R148). Second component: the tag as it stands. -/
def snapTag (sec frac tb rate : Nat) : Option Nat × Nat :=
  let raw := sec * 1000000000 + (if tb = 0 then 0 else frac * 1000000000 / tb)
  let inst := gridInstant rate (gridIndex rate raw)
  let exact := sec * 1000000000 * tb + frac * 1000000000
  (if absDiff exact (inst * tb) ≤ 10000 * tb then some inst else none, raw)

/-! ### Layouts -/

/-- FORMAT bits (C37.118): 0 polar, 1 phasors, 2 analogs, 3 frequency in floating point. -/
def phB (b : PmuCfg) : Nat := if b.format.getLsbD 1 then 8 else 4
def anB (b : PmuCfg) : Nat := if b.format.getLsbD 2 then 4 else 2
def frB (b : PmuCfg) : Nat := if b.format.getLsbD 3 then 4 else 2

/-- Bytes of a PMU block in a data frame. -/
def blockBytes (b : PmuCfg) : Nat := 2 + b.phasors.length * phB b + 2 * frB b + b.analogs.length * anB b + b.digitals.length * 2

/-- FRAMESIZE of a data frame under a configuration. -/
def layoutSize (c : C37Cfg) : Nat := c.blocks.foldl (fun n b => n + blockBytes b) 16

/-- Channels of a block, and of a configuration (R144). -/
def blockChans (b : PmuCfg) : Nat := b.phasors.length + 2 + b.analogs.length + b.digitals.length
def chanCount (c : C37Cfg) : Nat := c.blocks.foldl (fun n b => n + blockChans b) 0

/-- Descriptors of a block whose STAT stands at byte `at_` of the frame. -/
def blockDescs (b : PmuCfg) (blk at_ : Nat) : List ChanDesc :=
  let p0 := at_ + 2
  let f0 := p0 + b.phasors.length * phB b
  let a0 := f0 + 2 * frB b
  let d0 := a0 + b.analogs.length * anB b
  let one : Scale := ⟨1, 1⟩
  let zero : Scale := ⟨0, 1⟩
  let mk (kind : Nat) (fl po : Bool) (pos : Nat) (sc off : Scale) (name : Nat) : ChanDesc :=
    { kind, float := fl, polar := po, cfgGen := 0, pos, block := blk, fnom50 := b.fnom50, scale := if fl then one else sc, offset := off, name }
  let fph := b.format.getLsbD 1
  let fan := b.format.getLsbD 2
  let ffr := b.format.getLsbD 3
  (b.phasors.zipIdx.map (fun (c, i) => mk (if c.current then 2 else 1) fph (b.format.getLsbD 0) (p0 + i * phB b) c.scale c.angleOff c.name)) ++
  [mk 3 ffr false f0 one zero 0, mk 4 ffr false (f0 + frB b) one zero 0] ++
  (b.analogs.zipIdx.map (fun (c, i) => mk 5 fan false (a0 + i * anB b) c.scale (if fan then zero else c.offset) c.name)) ++
  (b.digitals.zipIdx.map (fun (n, i) => mk 6 false false (d0 + 2 * i) one zero n))

/-- Descriptors of blocks from a byte of the frame on. -/
def descsFrom : List PmuCfg → Nat → Nat → List ChanDesc
  | [], _, _ => []
  | b :: t, blk, at_ => blockDescs b blk at_ ++ descsFrom t (blk + 1) (at_ + blockBytes b)

/-- Descriptors of a configuration; positions are bytes of the data frame (Table 5.7). -/
def cfgDescs (c : C37Cfg) : List ChanDesc := descsFrom c.blocks 0 14

/-- Put new descriptors over old ones, moving cfg_gen where kind or CHNAM changes (R144): how many positions changed, and the result; old
positions beyond the new count become unused. -/
def mergeDescs : List ChanDesc → List ChanDesc → Nat × List ChanDesc
  | old, [] => (0, old.map (fun d => { d with kind := 0 }))
  | [], n :: ns =>
    let (c, r) := mergeDescs [] ns
    (c + 1, { n with cfgGen := 1 } :: r)
  | o :: os, n :: ns =>
    let (c, r) := mergeDescs os ns
    if o.kind = n.kind ∧ o.name = n.name then (c, { n with cfgGen := o.cfgGen } :: r)
    else (c + 1, { n with cfgGen := o.cfgGen + 1 } :: r)

/-! ### Angles -/

/-- Pi as a rational, to 40 decimal places (log entry 20). -/
def piQ : Scale := ⟨31415926535897932384626433832795028841971, 10000000000000000000000000000000000000000⟩

/-- Fixed point of the arctangent: 2^80. -/
def fx : Nat := 2 ^ 80

/-- The alternating series x − x³/3 + x⁵/5 … in fixed point. -/
def atanSeries (x2 : Nat) : Nat → Nat → Nat → Int → Int → Int
  | 0, _, _, _, acc => acc
  | fuel + 1, term, k, sgn, acc =>
    atanSeries x2 fuel (term * x2 / fx) (k + 2) (-sgn) (acc + sgn * ((term / k : Nat) : Int))

/-- The arctangent of n / d in 0 to 1, in fixed point radians. -/
def atanFx (n d : Nat) : Nat :=
  if d = 0 then 0 else
  let half (t : Nat) : Nat := t * fx / (fx + isqrt (fx * fx + t * t))
  let t2 := half (half (n * fx / d))
  4 * (atanSeries (t2 * t2 / fx) 24 t2 1 1 0).toNat

/-- atan2 of two rationals, rad, as a rational in −π to π; 0 at the origin. -/
def atan2Q (im re : Scale) : Scale :=
  let y := im.num.natAbs * re.den
  let x := re.num.natAbs * im.den
  let q (n : Nat) : Scale := ⟨(n : Int), fx⟩
  let a : Scale := if y ≤ x then (if x = 0 then qZero else q (atanFx y x)) else qsub (qdiv piQ (qNat 2)) (q (atanFx x y))
  let b : Scale := if re.num < 0 then qsub piQ a else a
  if im.num < 0 then qneg b else b

/-- An angle in rad as units of 2^-16 turn (R146). -/
def angUnits (rad : Scale) : U16 := BitVec.ofInt 16 (qround (qmul (qdiv rad (qmul (qNat 2) piQ)) (qNat 65536)))

/-! ### Values -/

/-- The NaN that stands for a missing value (R146); its payload is not stated. -/
def nanWord : U32 := if f32isNaN Config.nanBits then Config.nanBits else 0x7FC00000

/-- Big-endian number at an offset of a byte string. -/
def beAt (b : Bytes) (off n : Nat) : Nat := beNat ((b.drop off).take n)

/-- Signed 16-bit number. -/
def s16 (n : Nat) : Int := if n < 32768 then (n : Int) else (n : Int) - 65536

/-- What a converted value is: the word, the angle, and whether it is missing. -/
structure Conv where
  value : U32
  angle : U16
  missing : Bool

/-- A missing value. -/
def Conv.miss : Conv := ⟨nanWord, 0, true⟩

/-- Convert a phasor (R146). -/
def convPhasor (b : Bytes) (o : Nat) (d : ChanDesc) : Conv :=
  if d.float then
    let x : U32 := BitVec.ofNat 32 (beAt b o 4)
    let y : U32 := BitVec.ofNat 32 (beAt b (o + 4) 4)
    if f32isNaN x ∨ f32isNaN y then .miss
    else if d.polar then
      match f32toQ y with
      | some a => ⟨x, angUnits (qadd a d.offset), false⟩
      | none => ⟨x, Config.angleOfInf y, false⟩
    else
      match f32toQ x, f32toQ y with
      | some re, some im =>
        ⟨f32sqrtQ (qadd (qmul re re) (qmul im im)), angUnits (qadd (atan2Q im re) d.offset), false⟩
      | _, _ => ⟨0x7F800000, Config.angleOfInf (x ^^^ y), false⟩
  else
    let x := beAt b o 2
    let y := beAt b (o + 2) 2
    if x = 0x8000 ∨ y = 0x8000 then .miss
    else if d.polar then
      ⟨f32ofQ (qmul (qNat x) d.scale), angUnits (qadd (qmk (s16 y) 10000) d.offset), false⟩
    else
      let m2 := qInt (s16 x * s16 x + s16 y * s16 y)
      ⟨f32sqrtQ (qmul m2 (qmul d.scale d.scale)), angUnits (qadd (atan2Q (qInt (s16 y)) (qInt (s16 x))) d.offset), false⟩

/-- Convert a scalar: floating point as it stands, fixed point by a scale and an offset. -/
def convScalar (b : Bytes) (o : Nat) (d : ChanDesc) (scale offset : Scale) : Conv :=
  if d.float then
    let x : U32 := BitVec.ofNat 32 (beAt b o 4)
    if f32isNaN x then .miss else ⟨x, 0, false⟩
  else
    let x := beAt b o 2
    if x = 0x8000 then .miss else ⟨f32ofQ (qadd (qmul (qInt (s16 x)) scale) offset), 0, false⟩

/-- Convert the value of a channel (R146); `b` holds the bytes of the frame after FRACSEC. -/
def convChan (b : Bytes) (d : ChanDesc) : Conv :=
  let o := d.pos - 14
  match d.kind with
  | 1 => convPhasor b o d
  | 2 => convPhasor b o d
  | 3 => convScalar b o d ⟨1, 1000⟩ (qNat (if d.fnom50 then 50 else 60))
  | 4 => convScalar b o d ⟨1, 100⟩ qZero
  | 5 => convScalar b o d d.scale d.offset
  | _ => ⟨f32ofQ (qNat (beAt b o 2)), 0, false⟩

/-- The quality word that STAT gives (Table 5.5). -/
def statQuality (stat : BitVec 16) : U16 :=
  let b15 := stat.getLsbD 15
  let b14 := stat.getLsbD 14
  BitVec.ofNat 16 ((if b15 && b14 then 1 else 0) + (if !b15 && b14 then 2 else 0) + (if b15 && !b14 then 4 else 0) +
    (if stat.getLsbD 13 || stat.getLsbD 12 then 8 else 0) + (if stat.getLsbD 11 then 128 else 0) + (if stat.getLsbD 10 then 256 else 0) +
    (if stat.getLsbD 9 then 512 else 0) + (stat.toNat / 64 % 8) * 8192)

/-- STAT of each block of a configuration, from the bytes after FRACSEC. -/
def statsOf (c : C37Cfg) (b : Bytes) : List (BitVec 16) :=
  (c.blocks.foldl (fun (acc : Nat × List (BitVec 16)) k => (acc.1 + blockBytes k, acc.2 ++ [BitVec.ofNat 16 (beAt b acc.1 2)])) (0, [])).2

/-- The cells of a data frame under a configuration (R145 to R147, R153): `extra` holds quality bits to add. -/
def frameCells (descs : List ChanDesc) (c : C37Cfg) (b : Bytes) (poison : List Nat) (extra : U16) : List Cell :=
  let st := (statsOf c b).map statQuality
  (descs.take (chanCount c)).zipIdx.map (fun (d, i) =>
    let v := convChan b d
    let q := lget st d.block 0 ||| extra
    { value := v.value, angle := v.angle, quality := if v.missing ∨ i ∈ poison then q ||| 1 else q })

end Sys2Proof.Machine
end

