-- ==== Sys2Proof/Machine/PartOps.lean ====
section
/-!
DEFINITION. Host partitions: liveness, claims, the controller and the re-latching of output stages, quotas and their use, and the ends
of ring bindings (02_host_partitions.md, 2.6, 2.7 and 2.10).
-/

namespace Sys2Proof.Machine

/-- Path P as it counts: the value of path V where no heartbeat input is fitted (R57). -/
def effP (q : Part) : Bool := if q.hbpFitted then q.p else q.v

/-- The live partition with the highest nonzero claim (R59). -/
def bestCtrl (s : State) : Option HP :=
  allHP.foldl (fun best p =>
    let q := getPart s p
    if q.pstate.live ∧ q.claim ≠ 0 then
      match best with
      | none => some p
      | some b => if (getPart s b).claim.toNat < q.claim.toNat then some p else best
    else best) none

/-- Whether some live partition holds a claim; a latched claim of 0 is held by none (R56). -/
def claimHeld (s : State) (c : U8) : Bool :=
  decide (c ≠ 0) && allHP.any (fun p => isLive s p && decide ((getPart s p).claim = c))

/-- The mask of alarm stages that hold a latched claim. -/
def stagesAt (s : State) (c : U8) : Nat :=
  s.alm.stages.foldl (fun m e => if e.2.everEnabled && decide (e.2.claim = c) then m + 2 ^ e.1 else m) 0

/-- Whether a pulse output holds a latched claim. -/
def pulseAt (s : State) (c : U8) : Bool := tany (fun _ q => q.everEnabled && decide (q.claim = c)) s.eq.pulses

/-- Re-latch every stage and pulse output that holds one claim to another, with its event (R56); levels do not change. -/
def relatch (old new : U8) (cause : Nat) (s : State) : State :=
  let m := stagesAt s old
  if old = new ∨ (m = 0 ∧ pulseAt s old = false) then s else
  let s1 := { s with
    alm := { s.alm with stages := tmap (fun _ g => if g.everEnabled ∧ g.claim = old then { g with claim := new } else g) s.alm.stages }
    eq := { s.eq with pulses := tmap (fun _ q => if q.everEnabled ∧ q.claim = old then { q with claim := new } else q) s.eq.pulses } }
  raise 0x0209 1 (leBytes 2 m ++ [old, new, BitVec.ofNat 8 cause]) none s1

/-- Latched claims that no live partition holds, each once, ascending by the order they are found. -/
def orphanClaims (s : State) : List U8 :=
  let a := s.alm.stages.filterMap (fun e => if e.2.everEnabled && !claimHeld s e.2.claim then some e.2.claim else none)
  let b := s.eq.pulses.filterMap (fun e => if e.2.everEnabled && !claimHeld s e.2.claim then some e.2.claim else none)
  (a ++ b).eraseDups

/-- 0xFF or the number of a partition. -/
def optHP : Option HP → Byte
  | some p => BitVec.ofNat 8 p.val
  | none => 0xFF

/-- The claim of an optional partition, 0 for none. -/
def claimOf (s : State) : Option HP → Byte
  | some p => (getPart s p).claim
  | none => 0

/-- Re-evaluate the controller (R59, R60): CONTROL-CHANGED with its reason, re-latching, NO-CONTROLLER, and the takeover deadline. The old
claim it shows is that after a claim change (DESIGN CHOICE, log entry 60). -/
def reeval (reason : Nat) (s : State) : State :=
  let best := bestCtrl s
  let old := s.host.controller
  if best = old then s else
  let oldClaim := claimOf s old
  let s1 := { s with host := { s.host with controller := best, changes := s.host.changes + 1 } }
  let rsn := if old = none then 4 else reason
  let s2 := raise 0x0206 2 [optHP old, oldClaim, optHP best, claimOf s best, BitVec.ofNat 8 rsn] none s1
  match best with
  | none => raise 0x0208 3 [optHP old] none s2
  | some b =>
    let s3 := (orphanClaims s2).foldl (fun t c => relatch c (getPart s b).claim 0 t) s2
    modPart b (fun q => { q with takeover := some (elNs s + s.host.failMs.toNat * 1000000) }) s3

/-- Enter HEALTHY with HOST-RESTORED. -/
def toHealthy (p : HP) (s : State) : State :=
  raise 0x0203 0 [BitVec.ofNat 8 p.val, 2] none
    (modPart p (fun q => { q with pstate := .healthy, failTimer := none, holdTimer := none }) s)

/-- Enter DEGRADED, counted; HOST-DEGRADED only from HEALTHY (Table 2.10). -/
def toDegraded (p : HP) (lost : Option Nat) (s : State) : State :=
  let s1 := bump (partBase p + 0x70) (modPart p (fun q => { q with pstate := .degraded, failTimer := none }) s)
  match lost with
  | some m => raise 0x0202 2 [BitVec.ofNat 8 p.val, BitVec.ofNat 8 m] none s1
  | none => s1

/-- Enter FAILING with the failure timer started (R487). -/
def toFailing (p : HP) (fromHealthy : Bool) (s : State) : State :=
  let s1 := modPart p (fun q => { q with pstate := .failing, failTimer := some (elNs s + s.host.failMs.toNat * 1000000) }) s
  raiseIf fromHealthy 0x0202 2 [BitVec.ofNat 8 p.val, 3] none s1

/-- Enter RETURNING with the hold-off timer started. -/
def toReturning (p : HP) (s : State) : State :=
  let hold := s.host.holdoffMs.toNat * 1000000
  let s1 := modPart p (fun q => { q with pstate := .returning, holdTimer := some (elNs s + hold) }) s
  raise 0x0205 1 (BitVec.ofNat 8 p.val :: (getPart s p).claim :: leBytes 8 (taiNs s + hold)) none s1

/-- Move a partition as Table 2.10 gives for the health of its paths, and re-evaluate the controller. -/
def evalPart (p : HP) (s : State) : State :=
  let q := getPart s p
  if s.dev.boot ≠ .ready ∨ q.present = false then s else
  let v := q.v
  let pp := effP q
  let s1 := match q.pstate with
    | .out =>
      if v && pp then
        match s.host.controller with
        | none => toHealthy p s
        | some c => if (getPart s c).claim.toNat < q.claim.toNat then toReturning p s else toHealthy p s
      else s
    | .returning => if v && pp then s else modPart p (fun x => { x with pstate := .out, holdTimer := none }) s
    | .healthy =>
      if v && pp then s
      else if !v && !pp then toFailing p true s
      else toDegraded p (some ((if v then 0 else 1) + (if pp then 0 else 2))) s
    | .degraded =>
      if v && pp then toHealthy p s
      else if !v && !pp then toFailing p false s
      else s
    | .failing =>
      if v && pp then toHealthy p s
      else if v || pp then toDegraded p none s
      else s
  reeval 0 s1

/-- Evaluate every partition in order. -/
def evalAll (s : State) : State := allHP.foldl (fun t p => evalPart p t) s

/-- A partition goes OUT with an event (failure or failed takeover). -/
def toOut (p : HP) (code : Nat) (params : Bytes) (reason : Nat) (s : State) : State :=
  let s1 := bump (partBase p + 0x78)
    (modPart p (fun q => { q with pstate := .out, failTimer := none, holdTimer := none, takeover := none }) s)
  evalPart p (reeval reason (raise code 3 params none s1))

/-- A counted HEARTBEAT (R488). One whose own counting makes its partition the controller does not meet the check of R60, which starts
after it (DESIGN CHOICE, log entry 60). -/
def countHeartbeat (p : HP) (s : State) : State :=
  evalPart p (modPart p (fun q => { q with v := true, lastV := BitVec.ofNat 64 (taiNs s), lastVEl := elNs s, takeover := none }) s)

/-- Set a claim (R55, R56, R59): CLAIM-CHANGED, re-latching of the stages at the old claim, re-evaluation. -/
def setClaim (p : HP) (new : U8) (issuer : HP) (s : State) : State :=
  let old := (getPart s p).claim
  let s1 := raise 0x020A 1 [BitVec.ofNat 8 p.val, old, new, BitVec.ofNat 8 issuer.val] none (modPart p (fun q => { q with claim := new }) s)
  reeval 2 (if old = 0 ∨ old = new then s1 else relatch old new 1 s1)

/-- Nonzero claims stay unique (R55). -/
def claimUnique (s : State) (p : HP) (c : U8) : Bool :=
  decide (c = 0) || allHP.all (fun r => decide (r = p) || decide ((getPart s r).claim ≠ c))

/-- R56 and R221 for a stage command: the issuing partition's claim is nonzero and equal to or higher than the latched one; a stage never
enabled holds none and takes any nonzero claim (R223). -/
def claimOk (s : State) (p : HP) (everEnabled : Bool) (latched : U8) : Bool :=
  let c := (getPart s p).claim
  decide (c ≠ 0) && (!everEnabled || decide (latched.toNat ≤ c.toNat))

/-! ### Quotas -/

/-- A partition may name an item of an owner: its own, or any as the controller (R52). -/
def mayName (s : State) (p owner : HP) : Bool := decide (p = owner) || isCtrl s p

/-- Channels that streams of a partition hold. -/
def channelsOf (s : State) (p : HP) : Nat := s.ing.streams.foldl (fun n e => if e.2.owner = p then n + e.2.maxChannels else n) 0

/-- Voice slots a partition uses (R309): not those of channels in CLOSING. -/
def voiceSlotsOf (s : State) (p : HP) : Nat :=
  s.voc.chans.foldl (fun n e => if e.2.part = p ∧ e.2.state ≠ .closing then n + e.2.slots else n) 0

/-- User cores a partition's kernels hold or have asked for. -/
def userCoresOf (s : State) (p : HP) : Nat :=
  s.sor.kernels.foldl (fun n e => if e.2.part = p then n + e.2.cores.length else n) 0

/-- What a partition uses of each quota (R51). -/
def useOf (s : State) (p : HP) : Quota :=
  { streams := tcount (fun _ x => decide (x.owner = p)) s.ing.streams
    channels := channelsOf s p
    voiceSlots := voiceSlotsOf s p
    publications := tcount (fun _ x => decide (x.owner = p)) s.aln.pubs
    dmaRings := ringCount s p
    captureRings := tcount (fun _ x => decide (x.owner = p)) s.cap.caps
    userCores := userCoresOf s p }

/-- Every component of one quota is at most that of another. -/
def Quota.le (a b : Quota) : Bool :=
  decide (a.streams ≤ b.streams ∧ a.channels ≤ b.channels ∧ a.voiceSlots ≤ b.voiceSlots ∧ a.publications ≤ b.publications ∧
    a.dmaRings ≤ b.dmaRings ∧ a.captureRings ≤ b.captureRings ∧ a.userCores ≤ b.userCores)

def Quota.add (a b : Quota) : Quota :=
  ⟨a.streams + b.streams, a.channels + b.channels, a.voiceSlots + b.voiceSlots, a.publications + b.publications,
   a.dmaRings + b.dmaRings, a.captureRings + b.captureRings, a.userCores + b.userCores⟩

/-- The seven quotas as words, in the order of Table 2.9. -/
def Quota.bytes (q : Quota) : Bytes :=
  leBytes 4 q.streams ++ leBytes 4 q.channels ++ leBytes 4 q.voiceSlots ++ leBytes 4 q.publications ++ leBytes 4 q.dmaRings ++
  leBytes 4 q.captureRings ++ leBytes 4 q.userCores

/-! ### Ring bindings -/

/-- Unbind a ring from its use (R68, R464). A publication, a capture, a channel, a kernel or a job that named it finds it no longer in its
use (`ringWrite`); the blocks that bind one ring for a partition forget it. -/
def unbindUse (p : HP) (n : Nat) (s : State) : State :=
  match getRing s p n with
  | none => s
  | some r =>
    let s1 := setRing p n { r with use := .unbound } s
    match r.use with
    | .estimator => { s1 with osc := { s1.osc with outRing := tdel s1.osc.outRing p.val } }
    | .frameTx _ =>
      let rep := match tget s1.net.binds (p.val * 64 + n) with
        | some b => b.reportRing
        | none => none
      let s2 := match rep with
        | some k => unbindRing p k .txReport s1
        | none => s1
      { s2 with net := { s2.net with binds := tdel s2.net.binds (p.val * 64 + n) } }
    | .txReport =>
      { s1 with net := { s1.net with
        binds := tmap (fun k b => if k / 64 = p.val ∧ b.reportRing = some n then { b with reportRing := none } else b) s1.net.binds } }
    | .dill j => { s1 with dill := { s1.dill with jobs := tmod s1.dill.jobs j (fun x => { x with closeReq := true }) } }
    | .radio =>
      let v := if s1.cf.outRing.get p = some n then none else s1.cf.outRing.get p
      { s1 with cf := { s1.cf with outRing := s1.cf.outRing.set p v } }
    | .tone =>
      let v := if s1.voc.toneRing.get p = some n then none else s1.voc.toneRing.get p
      { s1 with voc := { s1.voc with toneRing := s1.voc.toneRing.set p v } }
    | .load =>
      let v := if s1.yar.loadRing.get p = some n then none else s1.yar.loadRing.get p
      { s1 with yar := { s1.yar with loadRing := s1.yar.loadRing.set p v } }
    | _ => s1

/-- Complete every descriptor a ring still owns with BUSY (R68). Those in transfer at the retire have finished before, by their own rows. -/
def flushRing (p : HP) (n : Nat) (s : State) : State :=
  match getRing s p n with
  | none => s
  | some r => r.owned.foldl (fun t _ => completeDesc p n .busy 0 [] t) s

end Sys2Proof.Machine
end

