-- ==== Sys2Proof/Machine/PopOps.lean ====
section
/-!
DEFINITION. Operations of the record store, of OTP generations and of flash (17_recorder_persistence.md): erase counts and wear, areas
and sectors, flushes, the active generation, the boot directory.
-/

namespace Sys2Proof.Machine

/-- The number of some bytes at an offset, least significant first. -/
def leAt (b : Bytes) (o n : Nat) : Nat := leNat ((b.drop o).take n)

/-! ### Beleth images (R366, R367) -/

/-- An image as its header gives it (Table 13.9, R9). -/
def readBeleth (i : BelethIn) : Beleth :=
  let f (o n w : Nat) : BitVec w := BitVec.ofNat w (leAt i.bytes o n)
  let im := leAt i.bytes 28 4
  { magic := f 0 4 32, version := f 4 2 16, flags := f 6 2 16, imageId := f 8 8 64, imageVersion := f 16 4 32, keySlot := f 20 1 8
    minCores := f 21 1 8, maxCores := f 22 1 8, entry := f 24 4 32, imBytes := f 28 4 32, dataBytes := f 32 4 32, sramKib := f 36 4 32
    scratchKib := f 40 4 32, maxCycles := f 44 4 32, bodyBytes := f 48 4 32
    rsvZero := decide (leAt i.bytes 23 1 = 0 ∧ leAt i.bytes 52 12 = 0 ∧ leAt i.bytes 160 32 = 0)
    keyDigest := i.keyDigest, signatureOk := i.signatureOk, bodyOk := i.bodyOk
    im := (i.bytes.drop 256).take im, data := (i.bytes.drop (256 + im)).take (leAt i.bytes 32 4) }

/-- The format and ranges of a header (Table 13.9). -/
def headerOk (b : Beleth) : Bool :=
  decide (b.magic = 0x454C4542 ∧ b.version = 1 ∧ b.flags.toNat < 2 ∧ b.rsvZero ∧ b.keySlot.toNat < 4 ∧ 1 ≤ b.minCores.toNat ∧
    b.minCores.toNat ≤ 32 ∧ b.minCores.toNat ≤ b.maxCores.toNat ∧ b.maxCores.toNat ≤ 32 ∧ b.entry.toNat < b.imBytes.toNat ∧
    4 ≤ b.imBytes.toNat ∧ b.imBytes.toNat ≤ 32768 ∧ b.imBytes.toNat % 4 = 0) &&
  decide (b.dataBytes.toNat ≤ 131072 ∧ b.dataBytes.toNat % 4 = 0 ∧ b.sramKib.toNat ≤ 256 ∧ b.sramKib.toNat % 4 = 0 ∧
    b.scratchKib.toNat ≤ 262144 ∧ 1000 ≤ b.maxCycles.toNat ∧ b.maxCycles.toNat ≤ 100000000 ∧
    b.bodyBytes.toNat = b.imBytes.toNat + b.dataBytes.toNat)

/-- Checks 1 to 5 of R367, in order: status and cause of the first that fails. -/
def belethCheck (s : State) (len : Nat) (b : Beleth) : Option (Sts × Nat) :=
  if len < 256 ∨ len ≠ 256 + b.bodyBytes.toNat then some (.badLength, 0)
  else if headerOk b = false then some (.badParam, 0)
  else if lget s.sor.keySlots b.keySlot.toNat none ≠ some b.keyDigest then some (.badParam, 1)
  else if b.signatureOk = false then some (.badParam, 2)
  else if b.bodyOk = false then some (.badParam, 3)
  else none

/-! ### Sectors, areas and generations -/

/-- First 64 KiB sector and number of sectors of a flash region (Table 17.7). -/
def regionOf : Nat → Nat × Nat
  | 0 => (0x000, 2)
  | 1 => (0x010, 128)
  | 2 => (0x090, 128)
  | 3 => (0x110, 17)
  | 4 => (0x121, 18)
  | 5 => (0x133, 2)
  | 6 => (0x140, 2)
  | 7 => (0x142, 1)
  | 8 => (0x150, 8)
  | 9 => (0x158, 2)
  | 10 => (0x160, 128)
  | _ => (0, 0)

/-- The largest erase count of a region. -/
def regionMax (s : State) (r : Nat) : Nat :=
  let (b, n) := regionOf r
  s.pop.erases.foldl (fun m e => if b ≤ e.1 ∧ e.1 < b + n then max m e.2 else m) 0

/-- FLASH-WEAR, once per region per boot (R450). -/
def checkWear (r : Nat) (s : State) : State :=
  let m := regionMax s r
  if s.pop.wearPct * s.pop.endurance ≤ 100 * m ∧ ¬ r ∈ s.pop.wearRaised then
    raise 0x1106 2 (BitVec.ofNat 8 r :: leBytes 4 m) none { s with pop := { s.pop with wearRaised := r :: s.pop.wearRaised } }
  else s

/-- Count the erase of a sector, which sticks at 32 bits with SATSUM bit 2 (Table 17.3). -/
def countErase (sector : Nat) (s : State) : State :=
  let n := tgetD s.pop.erases sector 0
  if n = 2 ^ 32 - 1 then s else
  let s1 := { s with pop := { s.pop with erases := tset s.pop.erases sector (n + 1) } }
  if n + 1 = 2 ^ 32 - 1 then { s1 with pop := { s1.pop with satsum := s1.pop.satsum ||| 4 } } else s1

/-- Erase sectors of a region and look at its wear. -/
def eraseSectors (r : Nat) (sectors : List Nat) (s : State) : State :=
  checkWear r (sectors.foldl (fun t k => countErase k t) s)

/-- The settings that the stored configuration holds (R448): pulse settings without latched claims; a fade under way counts as done. -/
def cfgNow (s : State) : StoredCfg :=
  { fMod8 := s.sage.fMod8, clkEn := s.sage.clkEn, svWindow := s.sage.svWindow
    mps := tmap (fun _ v => { SgMp.init with
      enable := v.enable, fNom60 := v.fNom60, rate := v.rate, cicN := v.cicN, firDec := v.firDec, fadeK := v.fadeK, firLen := v.firLen,
      dcShift := v.dcShift, acqCycles := v.acqCycles, bankB := v.bankB != decide (v.state = .fading), lenA := v.lenA, lenB := v.lenB,
      coefA := v.coefA, coefB := v.coefB }) s.sage.mps
    inputs := tmap (fun _ i => { SgInput.init with
      scale := i.scale, calGain := i.calGain, calDelay := i.calDelay, table := i.table, tempSrc := i.tempSrc, tempId := i.tempId,
      tempApplied := i.tempDefault, tempDefault := i.tempDefault, staleS := i.staleS }) s.sage.inputs
    eqMps := tmap (fun _ v => { EqMp.init with
      threeWire := v.threeWire, reverse := v.reverse, udinDv := v.udinDv, sagThr := v.sagThr, swellThr := v.swellThr, intThr := v.intThr,
      hyst := v.hyst }) s.eq.mps
    regs := tmap (fun _ r => { BReg.init with
      mp := r.mp, quantity := r.quantity, digits := r.digits, resCode := r.resCode, enable := r.enable }) s.eq.regs
    pulses := tmap (fun k p => { Pulse.init k with
      enable := p.enable, activeLow := p.activeLow, mp := p.mp, quantity := p.quantity, widthMs := p.widthMs, quantum := p.quantum }) s.eq.pulses
    saveS := s.eq.saveS }

/-- Keep the settings, and what they were, as the copy written and the older one. -/
def keepConfig (s : State) : State := bump 0x11000138 { s with eq := { s.eq with stored := cfgNow s, storedOld := s.eq.stored } }

/-- A write of the stored configuration (R448): to the copy not written last. -/
def storeConfig (s : State) : State :=
  let b := if s.pop.cfgCopy then 0x150 else 0x154
  keepConfig (eraseSectors 8 [b, b + 1, b + 2, b + 3] { s with pop := { s.pop with cfgCopy := !s.pop.cfgCopy } })

/-- A command whose settings go to region 8 or 9: a write that fails verification twice refuses it with BUSY and no effect, counts in
FLASH_ERRORS and raises FLASH-WRITE-FAILED (R448, R450). -/
def stored (region : Nat) (s : State) (r : Rep) : Rep :=
  if region ∈ s.pop.failing then
    let a := if region = 8 then (if s.pop.cfgCopy then 0x01500000 else 0x01540000) else if s.pop.tblCopy then 0x01580000 else 0x01590000
    refuse .busy (raise 0x1105 3 (BitVec.ofNat 8 region :: leBytes 4 a) none (bump 0x11000128 s))
  else r

/-- A write of temperature tables (R448): to the copy not written last. -/
def storeTables (s : State) : State :=
  keepConfig (eraseSectors 9 [if s.pop.tblCopy then 0x158 else 0x159] { s with pop := { s.pop with tblCopy := !s.pop.tblCopy } })

/-- The first record of the circulating area that is held: of the non-empty sectors other than one, the lowest first record. -/
def oldestIn (t : Tbl Sector) : Nat :=
  match t with
  | [] => 32768
  | (_, x) :: r => r.foldl (fun m e => min m e.2.first) x.first

/-- Put a record into the circulating area (R438). -/
def storeCirc (r : Rec) (s : State) : State :=
  let cur := tget s.pop.circSec s.pop.circCur
  match cur with
  | some c =>
    if c.used < 2047 then
      { s with pop := { s.pop with circ := tset s.pop.circ r.num r
                                   circSec := tset s.pop.circSec s.pop.circCur { c with used := c.used + 1 } } }
    else
      let nxt := (s.pop.circCur + 1) % 18
      let s1 := match tget s.pop.circSec nxt with
        | none => s
        | some _ =>
          eraseSectors 4 [0x121 + nxt]
            { s with pop := { s.pop with circ := tkeep (fun k _ => decide (oldestIn (tdel s.pop.circSec nxt) ≤ k)) s.pop.circ
                                         circSec := tdel s.pop.circSec nxt, oldestCirc := oldestIn (tdel s.pop.circSec nxt) } }
      { s1 with pop := { s1.pop with circ := tset s1.pop.circ r.num r, circCur := nxt
                                     circSec := tset s1.pop.circSec nxt { first := r.num, seq := c.seq + 1, used := 1 } } }
  | none =>
    { s with pop := { s.pop with circ := tset s.pop.circ r.num r
                                 circSec := tset s.pop.circSec s.pop.circCur { first := r.num, seq := 0, used := 1 }
                                 oldestCirc := if s.pop.circSec = [] then r.num else s.pop.oldestCirc } }

/-- Put a record into its area: the kept area holds records 0 to 32,767 and is never erased; KEPT-AREA-FULL once (R438). -/
def storeRec (r : Rec) (s : State) : State :=
  if r.num < 32768 then
    let s1 := { s with pop := { s.pop with kept := tset s.pop.kept r.num r, keptUsed := s.pop.keptUsed + 1 } }
    if r.num = 32767 ∧ s.pop.keptFull = false then
      raise 0x1104 1 [] none { s1 with pop := { s1.pop with keptFull := true } }
    else s1
  else storeCirc r s

/-- Begin a flush, or extend one in progress, to the records buffered by now (R434). -/
def beginFlush (s : State) : State := { s with pop := { s.pop with flushing := true, flushEnd := s.pop.nextRec } }

/-- RECORD-BUFFER-OVERFLOW when space has returned (R435). -/
def reportOverflow (s : State) : State :=
  if 0 < s.pop.bufLost ∧ s.pop.buffer.length < 1024 then
    raise 0x1102 2 (leBytes 4 s.pop.bufLost) none { s with pop := { s.pop with bufLost := 0 } }
  else s

/-- A flush ends: its records are in flash and leave the buffer (R434). -/
def endFlush (s : State) : State :=
  let out := s.pop.buffer.filter (fun r => decide (r.num < s.pop.flushEnd))
  let rest := s.pop.buffer.filter (fun r => decide (s.pop.flushEnd ≤ r.num))
  let s1 := { s with pop := { s.pop with buffer := rest, flushing := false, lastFlushTs := BitVec.ofNat 64 (taiNs s) } }
  reportOverflow (bump 0x11000108 (out.foldl (fun t r => storeRec r t) s1))

/-- Flash address of a record's slot: sectors of 2,047 records after a 32 B header. -/
def recAddr (s : State) (num : Nat) : Nat :=
  if num < 32768 then 0x01100000 + s.pop.keptUsed / 2047 * 65536 + 32 + s.pop.keptUsed % 2047 * 32
  else match tget s.pop.circSec s.pop.circCur with
    | some c => 0x01210000 + s.pop.circCur * 65536 + 32 + c.used * 32
    | none => 0x01210020

/-- The active generation of a group: the highest WRITTEN whose CRC verifies (R444). -/
def activeGen (t : Tbl OtpGen) : Option OtpGen :=
  t.foldl (fun best e =>
    if e.2.written && e.2.crcOk then
      match best with
      | none => some e.2
      | some b => if b.gen < e.2.gen then some e.2 else best
    else best) none

/-- Number of the active generation, 0 for none. -/
def activeNo (t : Tbl OtpGen) : Nat :=
  match activeGen t with
  | some g => g.gen
  | none => 0

/-- Write a generation into the lowest unused slot, WRITTEN last, and supersede the one before (R444). -/
def writeGen (t : Tbl OtpGen) (content : Bytes) : Tbl OtpGen :=
  let n := t.length
  tset (tmap (fun _ g => if g.written then { g with superseded := true } else g) t) n
    { written := true, superseded := false, gen := n + 1, crcOk := true, content }

/-- A write cut off leaves its slot used and not WRITTEN (R444). -/
def burnGen (t : Tbl OtpGen) : Tbl OtpGen :=
  tset t t.length { written := false, superseded := false, gen := t.length + 1, crcOk := false, content := [] }

/-- OTP-GENERATION-WRITTEN, and OTP-GROUP-FROZEN when the group's last slot is used (R445). -/
def otpEvents (group gen : Nat) (p : HP) (used : Nat) (s : State) : State :=
  let s1 := raise 0x1107 2 [BitVec.ofNat 8 group, BitVec.ofNat 8 gen, BitVec.ofNat 8 p.val] none (bump 0x11000130 s)
  raiseIf (decide (4 ≤ used)) 0x1108 3 [BitVec.ofNat 8 group] none s1

/-- Generations' numbers as the group 0x01 registers show them. -/
def refreshOtp (s : State) : State :=
  { s with dev := { s.dev with otpBootGen := BitVec.ofNat 4 (activeNo s.pop.otpBoot)
                               otpSealGen := BitVec.ofNat 4 (activeNo s.pop.otpSeal)
                               otpDefGen := BitVec.ofNat 4 (activeNo s.pop.otpDef) } }

/-- An image entry put into a directory copy: target 0 A, 1 B, 2 a Beleth slot. -/
def putImage (target slot : Nat) (e : ImgEnt) (d : DirCopy) : DirCopy :=
  match target with
  | 0 => { d with imageA := e }
  | 1 => { d with imageB := e }
  | _ => { d with beleth := tset d.beleth slot e }

/-- Where flash keeps an image: 0 firmware A, 1 firmware B, 2 and up the Beleth slots. -/
def imgKey (target slot : Nat) : Nat := if target < 2 then target else 2 + slot

def DirCopy.blank : DirCopy := ⟨0, 0, .none, .none, []⟩

/-- The directory the device uses: of two copies the one whose seq is higher, counted modulo 2^32 (R447). -/
def currentDir (s : State) : DirCopy :=
  match s.pop.dir0, s.pop.dir1 with
  | some a, some b => if (b.seq - a.seq).toNat < 2 ^ 31 then b else a
  | some a, none => a
  | none, some b => b
  | none, none => .blank

/-- Write the copy not written last, with seq one higher (R447). -/
def writeDir (d : DirCopy) (s : State) : State :=
  let d' := { d with seq := (currentDir s).seq + 1, flashMib := s.pop.flashMib.toNat }
  if s.pop.dirLast then
    eraseSectors 0 [0] { s with pop := { s.pop with dir0 := some d', dirLast := false } }
  else eraseSectors 0 [1] { s with pop := { s.pop with dir1 := some d', dirLast := true } }

/-- Write both copies afresh, as recovery does (R459): the image written is valid, the other only if it verifies. -/
def writeDirBoth (d : DirCopy) (s : State) : State :=
  let d0 := { d with seq := (currentDir s).seq + 1, flashMib := s.pop.flashMib.toNat }
  let d1 := { d0 with seq := d0.seq + 1 }
  eraseSectors 0 [0, 1] { s with pop := { s.pop with dir0 := some d0, dir1 := some d1, dirLast := true } }

/-- Sectors of the region that an image write erases. -/
def imageSectors (target slot : Nat) : Nat × List Nat :=
  match target with
  | 0 => (1, (List.range 128).map (· + 0x010))
  | 1 => (2, (List.range 128).map (· + 0x090))
  | _ => (10, (List.range 4).map (· + (0x160 + 4 * slot)))

end Sys2Proof.Machine
end

