-- ==== Sys2Proof/Machine/Operands.lean ====
section
/-!
DEFINITION. Operands of the Sorrel cores (13.2 to 13.4): registers, addressed memories, addressing modes with their pointer updates, and the
checks of an access.
-/

namespace Sys2Proof.Machine

/-! ### Addressed memories -/

/-- A byte of a memory; a byte that nothing has written reads zero (log entry 6). -/
def ramGet (r : Ram) (a : Nat) : Byte := tgetD r a 0

/-- Write a byte, keeping the canonical form: a zero byte is not listed. -/
def ramSet (r : Ram) (a : Nat) (b : Byte) : Ram := if b = 0 then tdel r a else tset r a b

/-- Read bytes. -/
def ramRead (r : Ram) (a : Nat) : Nat → Bytes
  | 0 => []
  | n + 1 => ramGet r a :: ramRead r (a + 1) n

/-- Write bytes. -/
def ramWrite (r : Ram) (a : Nat) : Bytes → Ram
  | [] => r
  | b :: t => ramWrite (ramSet r a b) (a + 1) t

/-- The canonical form of a memory: addresses strictly rising, no zero byte listed. -/
def Ram.wf (r : Ram) : Bool := Tbl.wf r && r.all (fun e => decide (e.2 ≠ 0))

/-! ### Cores -/

def getCore (s : State) (n : Nat) : Core := tgetD s.sor.cores n .init

def setCore (n : Nat) (c : Core) (s : State) : State := { s with sor := { s.sor with cores := tset s.sor.cores n c } }

/-- Cluster of a core (R345). -/
def clusterOf (n : Nat) : Nat := n / 8

/-- A core of a user kernel (R346). -/
def isUser (c : Core) : Bool := c.kernel.isSome

def getD (c : Core) (r : Fin 16) : U32 := lget c.d r.val 0
def setD (r : Fin 16) (v : U32) (c : Core) : Core := { c with d := c.d.set r.val v }
def getAcc (c : Core) (a : Fin 4) : Int := lget c.acc a.val 0
def setAcc (a : Fin 4) (v : Int) (c : Core) : Core := { c with acc := c.acc.set a.val v }
def getI (c : Core) (i : Fin 8) : Nat := (lget c.i i.val 0).toNat
def setI (i : Fin 8) (v : Int) (c : Core) : Core := { c with i := c.i.set i.val (BitVec.ofInt 24 v) }

/-- The even–odd pair k of D registers as 64 bits (Table 13.1). -/
def getPair (c : Core) (k : Fin 8) : U64 := lget c.d (2 * k.val + 1) 0 ++ lget c.d (2 * k.val) 0

def setPair (k : Fin 8) (v : U64) (c : Core) : Core :=
  { c with d := (c.d.set (2 * k.val) (v.setWidth 32)).set (2 * k.val + 1) (v.extractLsb' 32 32) }

/-- A register as a move reads it: K is signed, the others are not. -/
def getReg (c : Core) : SReg → U32
  | .d n => getD c n
  | .i n => (lget c.i n.val 0).setWidth 32
  | .k n => (lget c.k n.val 0).signExtend 32
  | .ba n => (lget c.ba n.val 0).setWidth 32
  | .ln n => (lget c.ln n.val 0).setWidth 32

/-- A register as a move writes it: the low bits of its width (Table 13.1). -/
def setReg (r : SReg) (v : U32) (c : Core) : Core :=
  match r with
  | .d n => setD n v c
  | .i n => { c with i := c.i.set n.val (v.setWidth 24) }
  | .k n => { c with k := c.k.set n.val (v.setWidth 16) }
  | .ba n => { c with ba := c.ba.set n.val (v.setWidth 24) }
  | .ln n => { c with ln := c.ln.set n.val (v.setWidth 18) }

/-- CST as it reads (Table 13.2). -/
def cstWord (c : Core) : Nat :=
  (if c.aov then 1 else 0) + (if c.eov then 2 else 0) + (if c.finv then 4 else 0) + (if c.v then 16 else 0) + (if c.c then 32 else 0) +
  (if c.n then 64 else 0) + (if c.z then 128 else 0) + c.loops.length * 256 + (if c.unified then 2048 else 0) + c.stack.length * 4096

/-- Keys of the result scoreboard (R361). -/
def dKey (r : Fin 16) : Nat := r.val
def aKey (a : Fin 4) : Nat := 16 + a.val

/-- A register of a move that the scoreboard follows. -/
def regKeys : SReg → List Nat
  | .d n => [dKey n]
  | _ => []

/-- A result that is ready some cycles after issue. -/
def readyAt (k cyc : Nat) (c : Core) : Core := { c with ready := tset c.ready k (c.runCycles + cyc) }

/-- The kernel of a core. -/
def kernOf (s : State) (c : Core) : Option Kern :=
  match c.kernel with
  | some k => tget s.sor.kernels k
  | none => none

/-- The window in its cluster's SRAM that a core may reach (R370): the whole of it for a device core. -/
def sramWindow (s : State) (n : Nat) (c : Core) : Nat × Nat :=
  match kernOf s c with
  | some k => (tgetD k.sramBase (clusterOf n) 0, k.sramKib * 1024)
  | none => (0, 2 ^ 20)

/-! ### Memory of a core (Table 13.3) -/

/-- A byte of X or Y at its core address. -/
def dataGet (c : Core) (a : Nat) : Byte := if a < 0x20000 then ramGet c.x (a - 0x10000) else ramGet c.y (a - 0x20000)

/-- Write a byte of X or Y. -/
def dataSet (a : Nat) (b : Byte) (c : Core) : Core :=
  if a < 0x20000 then { c with x := ramSet c.x (a - 0x10000) b } else { c with y := ramSet c.y (a - 0x20000) b }

def dataRead (c : Core) (a : Nat) : Nat → Bytes
  | 0 => []
  | n + 1 => dataGet c a :: dataRead c (a + 1) n

def dataWrite (a : Nat) : Bytes → Core → Core
  | [], c => c
  | b :: t, c => dataWrite (a + 1) t (dataSet a b c)

/-- A 32-bit word of X or Y. -/
def dataWord (c : Core) (a : Nat) : U32 := BitVec.ofNat 32 (leNat (dataRead c a 4))

/-- X and Y together (Table 13.3): LD, ST and bundle slots reach nothing else. -/
def inData (a w : Nat) : Bool := decide (0x10000 ≤ a ∧ a + w ≤ 0x30000)

/-- The faults of a local access of w bytes, first the region and then the alignment (Table 13.8). -/
def localFault (a w : Nat) : Option CoreFault :=
  if inData a w = false then some .window
  else if a % (min w 4) ≠ 0 then some .align
  else none

/-- The faults of a cluster SRAM access (R348, R370). -/
def sramFault (s : State) (n : Nat) (c : Core) (a w : Nat) : Option CoreFault :=
  let (base, len) := sramWindow s n c
  if a < 0x100000 + base ∨ 0x100000 + base + len < a + w then some .window
  else if a % (min w 4) ≠ 0 then some .align
  else none

def getSram (s : State) (cl : Nat) : Ram := tgetD s.sor.sram cl []
def setSram (cl : Nat) (r : Ram) (s : State) : State := { s with sor := { s.sor with sram := tset s.sor.sram cl r } }

/-! ### Addressing modes (Table 13.5) -/

/-- The low k bits of a number in reverse order. -/
def bitRev : Nat → Nat → Nat
  | 0, _ => 0
  | k + 1, n => n % 2 * 2 ^ k + bitRev k (n / 2)

/-- Addition with the carry propagating from the most significant bit of a k-bit field (R353). -/
def revCarry (k off : Nat) (step : Int) : Nat :=
  let m : Nat := 2 ^ k
  let st := (step % (m : Int)).toNat
  off / m * m + bitRev k ((bitRev k (off % m) + bitRev k st) % m)

/-- A legal length of bit-reversed addressing (R353). -/
def brevLen (n : Nat) : Bool := decide (8 ≤ n ∧ n ≤ 65536 ∧ n = 2 ^ n.log2)

/-- The circular wrap, applied once (R351). -/
def circWrap (c : Core) (i : Fin 8) (a : Int) : Int :=
  let ba : Int := (lget c.ba i.val 0).toNat
  let ln : Int := (lget c.ln i.val 0).toNat
  if ba + ln ≤ a then a - ln else if a < ba then a + ln else a

/-- Circular addressing acts on pointer i. -/
def isCirc (c : Core) (i : Fin 8) : Bool := c.circ.getLsbD i.val && !c.brev.getLsbD i.val && decide (lget c.ln i.val 0 ≠ 0)

/-- Step a pointer (R351 to R353). A bit-reversed pointer whose length is no power of two of R353 is left with a free value. -/
def stepPtr (i : Fin 8) (step : Int) (c : Core) (s : State) : Core × State :=
  let a : Int := (getI c i : Int) + step
  let ln := (lget c.ln i.val 0).toNat
  if c.brev.getLsbD i.val ∧ 0 < ln then
    if brevLen ln then
      let off := (lget c.i i.val 0 - lget c.ba i.val 0).toNat
      (setI i (((lget c.ba i.val 0).toNat : Int) + revCarry ln.log2 off step) c, s)
    else
      let (v, s1) := fresh s
      (setI i v c, s1)
  else if c.circ.getLsbD i.val ∧ 0 < ln then (setI i (circWrap c i a) c, s)
  else (setI i a c, s)

/-- What an addressing mode gives: the address, the address of the second word of a dual-word access, and the state after the pointer's
update. -/
structure Ea where
  a : Nat
  a2 : Nat
  c : Core
  s : State
  deriving DecidableEq

/-- The second word of a dual-word access through a circular pointer wraps by itself (R351). -/
def secondWord (c : Core) (i : Fin 8) (a : Nat) : Nat :=
  if isCirc c i then (circWrap c i ((a : Int) + 4) % 2 ^ 24).toNat else a + 4

/-- Steps a post-increment admits (Table 13.5). -/
def stepOk (v : BitVec 5) : Bool := decide (v.toInt.natAbs ∈ [1, 2, 4, 8])

/-- Resolve an addressing mode; a step the table does not give is a reserved encoding. -/
def resolve (m : AMode) (c : Core) (s : State) : Except CoreFault Ea :=
  match m with
  | .ind i => .ok ⟨getI c i, secondWord c i (getI c i), c, s⟩
  | .postInc i st =>
    if stepOk st then
      let (c1, s1) := stepPtr i st.toInt c s
      .ok ⟨getI c i, secondWord c i (getI c i), c1, s1⟩
    else .error .illegal
  | .postMod i j =>
    let (c1, s1) := stepPtr i (lget c.k j.val 0).toInt c s
    .ok ⟨getI c i, secondWord c i (getI c i), c1, s1⟩
  | .off i d =>
    let a := (((getI c i : Int) + d.toInt) % 2 ^ 24).toNat
    .ok ⟨a, secondWord c i a, c, s⟩
  | .abs a => .ok ⟨a.toNat, a.toNat + 4, c, s⟩

/-- The pointer of a mode. -/
def modePtr : AMode → Option (Fin 8)
  | .ind i | .postInc i _ | .postMod i _ | .off i _ => some i
  | .abs _ => none

/-- An ALU source's value. -/
def src2 (c : Core) : Src2 → U32
  | .reg d => getD c d
  | .imm v => v

/-- An ALU source's register. -/
def src2Keys : Src2 → List Nat
  | .reg d => [dKey d]
  | .imm _ => []

/-- The lowest run of `n` numbers that none of some spans (first, first beyond) meets. -/
def lowestGap (spans : List (Nat × Nat)) (n : Nat) : Option Nat :=
  let fits (b : Nat) : Bool := spans.all (fun (l, u) => decide (u ≤ b ∨ b + n ≤ l))
  ((0 :: spans.map (·.2)).filter fits).foldl (fun best b => match best with
    | none => some b
    | some x => some (min x b)) none

end Sys2Proof.Machine
end

