-- ==== Sys2Proof/Machine/YarrowOps.lean ====
section
/-!
DEFINITION. Operations of the Yarrow scheduler (14_yarrow_scheduler.md): tasks and their flags, ready queues, producers, delay lists,
dispatch, and the end of a run.
-/

namespace Sys2Proof.Machine

/-! ### Tasks and queues -/

def getTask (s : State) (t : Nat) : Option Task := tget s.yar.tasks t
def setTask (t : Nat) (v : Task) (s : State) : State := { s with yar := { s.yar with tasks := tset s.yar.tasks t v } }
def modTask (t : Nat) (f : Task → Task) (s : State) : State := { s with yar := { s.yar with tasks := tmod s.yar.tasks t f } }

/-- Ready queue of a cluster and class (R385). -/
def qKey (cl cls : Nat) : Nat := cl * 4 + cls
def getQ (s : State) (cl cls : Nat) : RdyQueue := tgetD s.yar.queues (qKey cl cls) .init
def setQ (cl cls : Nat) (q : RdyQueue) (s : State) : State :=
  { s with yar := { s.yar with queues := tset s.yar.queues (qKey cl cls) q } }

/-- Reserved entries of a queue. -/
def reservedIn (s : State) (cl cls : Nat) : Nat :=
  tcount (fun _ t => decide (t.state ≠ .free ∧ t.reserved ∧ t.cluster = cl ∧ t.cls = cls)) s.yar.tasks

/-- Depth of a queue: entries in use, reserved included (Table 14.6). -/
def depthIn (s : State) (cl cls : Nat) : Nat :=
  reservedIn s cl cls + tcount (fun _ t => decide (t.state = .ready ∧ t.reserved = false ∧ t.cluster = cl ∧ t.cls = cls)) s.yar.tasks

/-- A depth has reached q_high_pct of 1,024. -/
def queueHigh (s : State) (d : Nat) : Bool := decide (s.yar.qHighUse * 1024 ≤ 100 * d)

/-- One second has passed since an elapsed instant, or there was none. -/
def secondSince (s : State) : Option Nat → Bool
  | none => true
  | some e => decide (e + 1000000000 ≤ elNs s)

/-- Words of a descriptor's data that arrive poisoned at a partition's host-DMA queue (R67, R134). -/
def poisonDma (p : HP) (words : Nat) (s : State) : State :=
  if words = 0 then s
  else
    let s1 := bumpBy 0x05000130 words s
    if secondSince s1 (s1.ing.lastDmaPoisonEl.get p) then
      raise 0x050C 2 ([1, BitVec.ofNat 8 p.val] ++ leBytes 8 (cntGet s1 0x05000130)) none
        { s1 with ing := { s1.ing with lastDmaPoisonEl := s1.ing.lastDmaPoisonEl.set p (some (elNs s)) } }
    else s1

/-- A queue's depth as it has become: its maximum, and YARROW-QUEUE-HIGH after a second below (R391). -/
def noteDepth (cl cls : Nat) (s : State) : State :=
  let d := depthIn s cl cls
  let q := getQ s cl cls
  let hi := queueHigh s d
  let s1 := setQ cl cls { q with depthMax := max q.depthMax d, lastHighEl := if hi then some (elNs s) else q.lastHighEl } s
  raiseIf (hi && secondSince s q.lastHighEl) 0x0E01 1 ([BitVec.ofNat 8 cl, BitVec.ofNat 8 cls] ++ leBytes 2 d) none s1

/-- Remember that a queue was high, or held a PENDING task, up to now. -/
def touchQueue (cl cls : Nat) (s : State) : State :=
  let q := getQ s cl cls
  setQ cl cls { q with lastHighEl := if queueHigh s (depthIn s cl cls) then some (elNs s) else q.lastHighEl
                       lastPendEl := if q.pend = [] then q.lastPendEl else some (elNs s) } s

def getProd (s : State) (id : Nat) : Producer := tgetD s.yar.producers id .init
def setProd (id : Nat) (v : Producer) (s : State) : State := { s with yar := { s.yar with producers := tset s.yar.producers id v } }

/-- A producer is stalled (R389). -/
def isStalled (s : State) (id : Nat) : Bool := (getProd s id).stalled.isSome

/-- A producer stalls. -/
def stallProd (id : Nat) (s : State) : State :=
  let p := getProd s id
  setProd id { p with stalled := some (elNs s), stalls := sat1 p.stalls } s

/-- A stall ends: its time counts, and from 100 µs it is reported (R390). -/
def resumeProd (id : Nat) (s : State) : State :=
  let p := getProd s id
  match p.stalled with
  | none => s
  | some e =>
    let n := elNs s - e
    let s1 := setProd id { p with stalled := none, stallNs := satAdd (2 ^ 64 - 1) p.stallNs n, stallMaxNs := max p.stallMaxNs n } s
    raiseIf (decide (100000 ≤ n)) 0x0E03 2 (BitVec.ofNat 8 id :: leBytes 8 n) none s1

/-- The task's stalled producer resumes. -/
def resumeTask (t : Nat) (s : State) : State :=
  match getTask s t with
  | none => s
  | some k =>
    match k.stalls with
    | none => s
    | some id => resumeProd id (setTask t { k with stalls := none } s)

/-- A task takes an entry of its queue (Table 14.1). -/
def enterReady (t : Nat) (k : Task) (s : State) : State :=
  let q := getQ s k.cluster k.cls
  let s1 := setQ k.cluster k.cls { q with enqueued := sat1 q.enqueued } s
  noteDepth k.cluster k.cls (resumeTask t (setTask t { k with state := .ready } s1))

/-- A task becomes ready at this instant: READY, or PENDING where its queue has no free entry (R388). -/
def makeReady (t : Nat) (k0 : Task) (s : State) : State :=
  let k := { k0 with readyTs := taiNs s, readyEl := elNs s }
  if k.reserved ∨ depthIn s k.cluster k.cls < 1024 then enterReady t k s
  else
    let q := getQ s k.cluster k.cls
    let s1 := setQ k.cluster k.cls { q with pend := q.pend ++ [t], pended := sat1 q.pended, lastPendEl := some (elNs s) } s
    let s2 := bump 0x0E000130 (setTask t { k with state := .pending } s1)
    raiseIf (decide (q.pend = []) && secondSince s q.lastPendEl) 0x0E02 2
      ([BitVec.ofNat 8 k.cluster, BitVec.ofNat 8 k.cls] ++ leBytes 2 (q.pend.length + 1)) none s2

/-- An entry of a queue has become free: the first PENDING task takes it, its ready_ts kept. -/
def freeEntry (cl cls : Nat) (s : State) : State :=
  let q := getQ s cl cls
  match q.pend with
  | [] => s
  | t :: rest =>
    if depthIn s cl cls < 1024 then
      match getTask s t with
      | some k => enterReady t k (setQ cl cls { q with pend := rest, lastPendEl := some (elNs s) } s)
      | none => setQ cl cls { q with pend := rest } s
    else s

/-- Flags match (R376). -/
def flagsMatch (k : Task) : Bool :=
  if k.andMode then decide (k.mask ≠ 0 ∧ k.flags &&& k.mask = k.mask) else decide (k.flags &&& k.mask ≠ 0)

/-- Set event flags of a task (R376, R389): one already set is absorbed and counted. -/
def setFlags (t : Nat) (bits : U32) (producer : Option Nat) (s : State) : State :=
  match getTask s t with
  | none => s
  | some k =>
    if k.state = .free then s else
    let s1 := bumpIf (decide (k.flags &&& bits ≠ 0)) 0x0E000138 s
    let k1 := { k with flags := k.flags ||| bits }
    if k.state = .waiting ∧ flagsMatch k1 then
      let s2 := makeReady t k1 s1
      match producer, getTask s2 t with
      | some id, some k2 => if k2.state = .pending then stallProd id (setTask t { k2 with stalls := some id } s2) else s2
      | _, _ => s2
    else setTask t k1 s1

/-- Take a task that is READY or PENDING out of its queue. -/
def dequeue (t : Nat) (k : Task) (s : State) : State :=
  let s0 := touchQueue k.cluster k.cls s
  let q := getQ s0 k.cluster k.cls
  let s1 := setQ k.cluster k.cls { q with pend := q.pend.filter (fun x => decide (x ≠ t)) } s0
  let s2 := setTask t { k with state := .waiting } s1
  if k.state = .ready ∧ k.reserved = false then freeEntry k.cluster k.cls s2 else resumeTask t s2

/-- Cancel a task (R378, R379). -/
def cancelTask (t : Nat) (s : State) : State :=
  match getTask s t with
  | none => s
  | some k =>
    match k.state with
    | .free => s
    | .waiting => setTask t { k with flags := 0, delay := none } s
    | .pending | .ready => bump 0x0E000120 (dequeue t { k with flags := 0, delay := none } s)
    | .running => setTask t { k with cancelPend := true } s

/-- The record of a deleted task, its counters kept until re-creation. -/
def freedTask (k : Task) : Task :=
  { k with state := .free, flags := 0, delay := none, cancelPend := false, deletePend := false, reserved := false, kernel := none,
           moveTo := none }

/-- Delete a task, at the end of its run where it runs (Table 14.1). -/
def deleteTask (t : Nat) (s : State) : State :=
  match getTask s t with
  | none => s
  | some k =>
    match k.state with
    | .running => setTask t { k with deletePend := true } s
    | .pending | .ready => modTask t freedTask (dequeue t k s)
    | _ => setTask t (freedTask k) s

/-! ### Delay lists (14.3) -/

/-- Set a delay of n ticks (R382 to R384); 0 sets TMR at once. -/
def setDelay (t : Nat) (kind : DelayKind) (n period : Nat) (s : State) : State :=
  if n = 0 then setFlags t 0x80000000 none s
  else
    let due := match kind with
      | .abs => absTick s + n
      | .ga => (s.clk.gaCount.toNat + n) % 2 ^ 40
    let d : Delay := { kind, due, period, order := s.yar.delayOrder }
    modTask t (fun k => { k with delay := some d }) { s with yar := { s.yar with delayOrder := s.yar.delayOrder + 1 } }

/-- An entry is due. -/
def delayDue (s : State) (d : Delay) : Bool :=
  match d.kind with
  | .abs => decide (d.due ≤ absTick s)
  | .ga => decide ((s.clk.gaCount.toNat + 2 ^ 40 - d.due) % 2 ^ 40 < 2 ^ 39)

/-- Ticks by which an entry is late. -/
def delayAge (s : State) (d : Delay) : Nat :=
  match d.kind with
  | .abs => absTick s - d.due
  | .ga => (s.clk.gaCount.toNat + 2 ^ 40 - d.due) % 2 ^ 40

/-- a stands before b: the absolute list first, then the older due value, then the order of insertion (R384, R98). -/
def delayBefore (s : State) (a b : Delay) : Bool :=
  if a.kind ≠ b.kind then decide (a.kind = .abs)
  else decide (delayAge s b < delayAge s a) || (decide (delayAge s a = delayAge s b) && decide (a.order < b.order))

/-- The due entry that expires next. -/
def nextDue (s : State) : Option (Nat × Delay) :=
  s.yar.tasks.foldl (fun best e =>
    match e.2.delay with
    | none => best
    | some d =>
      if delayDue s d = false then best else
      match best with
      | none => some (e.1, d)
      | some b => if delayBefore s d b.2 then some (e.1, d) else best) none

/-- Time from the due tick to now, ns. -/
def delayLag (s : State) (d : Delay) : Nat :=
  match d.kind with
  | .abs => ((elNs s : Int) + s.clk.absOff).toNat - d.due * 1000
  | .ga => taiNs s - s.clk.gaLastTs.toNat

/-- The due instant, TAI ns. -/
def delayInstant (s : State) (d : Delay) : Nat :=
  match d.kind with
  | .abs => taiNs s - (((elNs s : Int) + s.clk.absOff).toNat - d.due * 1000)
  | .ga => s.clk.gaLastTs.toNat

/-! ### Kernels' bindings -/

def getKern (s : State) (k : Nat) : Option Kern := tget s.sor.kernels k
def setKern (k : Nat) (v : Kern) (s : State) : State := { s with sor := { s.sor with kernels := tset s.sor.kernels k v } }
def modKern (k : Nat) (f : Kern → Kern) (s : State) : State := { s with sor := { s.sor with kernels := tmod s.sor.kernels k f } }

/-- Change a binding of a kernel. -/
def modBind (k b : Nat) (f : KBind → KBind) (s : State) : State := modKern k (fun x => { x with binds := tmod x.binds b f }) s

/-- A trigger is dropped because its slot or its timer task is still taken (R371, R376). -/
def trigDrop (k b : Nat) (s : State) : State :=
  match getKern s k with
  | none => s
  | some x =>
    let n := sat1 x.trigDrop
    raise 0x0D05 1 ([BitVec.ofNat 8 k, BitVec.ofNat 8 b] ++ leBytes 8 n) (some x.part) (setKern k { x with trigDrop := n } s)

/-- A trigger for a kernel that is not RUNNING (R371), or while TIME_VALID is 0 (R98). -/
def trigIdle (k : Nat) (s : State) : State := modKern k (fun x => { x with trigIdle := sat1 x.trigIdle }) s

/-- Note what a task's next run is for. -/
def noteRun (t k b slot instant : Nat) (s : State) : State :=
  let r : TaskRun := { kernel := k, binding := b, slot, trigger := instant, order := s.yar.trigOrder }
  modTask t (fun x => { x with run := r }) { s with yar := { s.yar with trigOrder := s.yar.trigOrder + 1 } }

/-- Trigger an input binding of kind 0 or 2: the data goes into the next slot and a run is queued (R371). -/
def triggerBind (k b : Nat) (data : Bytes) (instant : Nat) (producer : Option Nat) (s : State) : State :=
  match getKern s k with
  | none => s
  | some x =>
    match tget x.binds b with
    | none => s
    | some v =>
      if x.state ≠ .running then trigIdle k s
      else if (tgetD v.slot v.next ⟨false, 0, 0⟩).busy then trigDrop k b s
      else
        let off := v.stageOff + v.next * v.slotBytes
        let v1 := { v with slot := tset v.slot v.next { busy := true, trigger := instant, bytes := data.length }
                           next := (v.next + 1) % v.slots }
        let s1 := setKern k { x with scratch := ramWrite x.scratch off data, binds := tset x.binds b v1 } s
        let t := lget v.tasks v.next 0
        setFlags t 1 producer (noteRun t k b v.next instant s1)

/-- An entry expires: reinserted at its due value plus its period, TMR set; a timer binding's trigger (R376, R384). -/
def expire (t : Nat) (d : Delay) (s : State) : State :=
  let lag := delayLag s d
  let again : Option Delay :=
    if d.period = 0 then none
    else some { d with due := (if d.kind = .ga then (d.due + d.period) % 2 ^ 40 else d.due + d.period), order := s.yar.delayOrder }
  let s1 := modTask t (fun x => { x with delay := again }) s
  let s2 := bump 0x0E000140
    { s1 with yar := { s1.yar with delayOrder := s1.yar.delayOrder + 1, expiryLagMax := max s1.yar.expiryLagMax lag } }
  let s3 := raiseIf (decide (10000 ≤ lag)) 0x0E07 2 (leBytes 4 lag ++ [if d.kind = .abs then 0 else 1]) none s2
  match getTask s t with
  | none => s3
  | some k =>
    match k.kernel with
    | none => setFlags t 0x80000000 none s3
    | some n =>
      match getKern s3 n with
      | none => setFlags t 0x80000000 none s3
      | some x =>
        if x.state ≠ .running ∨ d.kind = .abs ∧ s3.clk.timeValid = false then trigIdle n s3
        else if k.flags.getLsbD 31 then trigDrop n k.run.binding (bump 0x0E000138 s3)
        else setFlags t 0x80000000 none (noteRun t n k.run.binding 0 (delayInstant s d) s3)

/-- Up to a number of due entries expire, in list order. -/
def expireUpTo : Nat → State → State
  | 0, s => s
  | n + 1, s => match nextDue s with
    | none => s
    | some (t, d) => expireUpTo n (expire t d s)

/-! ### Selection and dispatch (R386, R387) -/

/-- The affinity window W, ns. -/
def affinityNs : Nat := 2000

/-- The kernel's READY task that was triggered first (R372). -/
def kernHead (s : State) (k : Nat) : Option Nat :=
  (s.yar.tasks.foldl (fun best e =>
    if e.2.state = .ready ∧ e.2.kernel = some k then
      match best with
      | none => some (e.1, e.2.run.order)
      | some b => if e.2.run.order < b.2 then some (e.1, e.2.run.order) else best
    else best) none).map (·.1)

/-- A core may take a task (R346, R386). -/
def eligible (s : State) (n : Nat) (k : Task) : Bool :=
  let c := getCore s n
  (if n % 8 = 0 then decide (k.cls = 0 ∧ k.user = false)
   else match c.kernel with
    | some x => decide (k.kernel = some x)
    | none => !k.user) &&
  (!k.bound || decide (k.cluster = clusterOf n))

/-- Cores free to take work: idle, and a user core only of a RUNNING kernel. -/
def coreFree (s : State) (n : Nat) : Bool :=
  let c := getCore s n
  decide (c.state = .idle) &&
    (match c.kernel with
     | none => true
     | some k => match getKern s k with
       | some x => decide (x.state = .running)
       | none => false)

/-- Whether a task belongs to the set that a pass offers a core. -/
def inPass (pass n : Nat) (free : List Nat) (s : State) (k : Task) : Bool :=
  let aged := decide (k.readyEl + affinityNs ≤ elNs s)
  match pass with
  | 1 => decide (k.home = some n)
  | 2 => decide (k.cluster = clusterOf n) &&
      (match k.home with
       | none => true
       | some h => aged || !eligible s h k)
  | _ => decide (k.cluster ≠ clusterOf n) && !k.bound && aged &&
      !(free.any (fun j => decide (clusterOf j = k.cluster) && eligible s j k))

/-- READY tasks offered to a core in a pass; a user kernel offers its first-triggered one alone. -/
def offered (pass n : Nat) (free : List Nat) (s : State) : List (Nat × Task) :=
  s.yar.tasks.filter (fun e =>
    decide (e.2.state = .ready) && eligible s n e.2 && inPass pass n free s e.2 &&
    (match e.2.kernel with
     | some k => decide (kernHead s k = some e.1)
     | none => true))

/-- The best of some tasks: lowest level, earliest ready_ts, lowest number. -/
def bestTask (l : List (Nat × Task)) : Option (Nat × Task) :=
  l.foldl (fun best e =>
    match best with
    | none => some e
    | some b =>
      if e.2.level < b.2.level ∨ e.2.level = b.2.level ∧ e.2.readyTs < b.2.readyTs then some e else best) none

/-- Credits of a cluster (R387): C1, C2, C3. -/
def getCredits (s : State) (cl : Nat) : Nat × Nat × Nat := tgetD s.yar.credits cl (8, 4, 1)

/-- The class that the credits of a cluster choose among the classes with tasks, and the credits after it. -/
def chooseClass (cr : Nat × Nat × Nat) (h1 h2 h3 : Bool) : Option (Nat × (Nat × Nat × Nat)) :=
  let go (c : Nat × Nat × Nat) : Option (Nat × (Nat × Nat × Nat)) :=
    if h1 && decide (0 < c.1) then some (1, (c.1 - 1, c.2.1, c.2.2))
    else if h2 && decide (0 < c.2.1) then some (2, (c.1, c.2.1 - 1, c.2.2))
    else if h3 && decide (0 < c.2.2) then some (3, (c.1, c.2.1, c.2.2 - 1))
    else none
  match go cr with
  | some x => some x
  | none => if h1 || h2 || h3 then go (8, 4, 1) else none

/-- What pick(k, S) chooses, with the credits after it (R387). -/
def pick (n : Nat) (l : List (Nat × Task)) (s : State) : Option ((Nat × Task) × (Nat × Nat × Nat)) :=
  let cr := getCredits s (clusterOf n)
  let c0 := l.filter (fun e => decide (e.2.cls = 0))
  if isUser (getCore s n) then (bestTask l).map (fun e => (e, cr))
  else if c0 ≠ [] then (bestTask c0).map (fun e => (e, cr))
  else
    let has (c : Nat) : Bool := l.any (fun e => decide (e.2.cls = c))
    match chooseClass cr (has 1) (has 2) (has 3) with
    | none => none
    | some (c, cr') => (bestTask (l.filter (fun e => decide (e.2.cls = c)))).map (fun e => (e, cr'))

/-- Bucket of a wait (R392). -/
def waitBucket (ns : Nat) : Nat :=
  if ns ≤ 2000 then 0 else if ns ≤ 10000 then 1 else if ns ≤ 50000 then 2 else if ns ≤ 200000 then 3
  else if ns ≤ 1000000 then 4 else if ns ≤ 5000000 then 5 else if ns ≤ 20000000 then 6 else 7

/-- Registers of a core at the dispatch of a user kernel's run (R372). -/
def dispatchRegs (n : Nat) (x : Kern) (r : TaskRun) (c : Core) : Core :=
  let v := tget x.binds r.binding
  let staged : Bool := match v with
    | some b => decide (b.kind = 0 ∨ b.kind = 2)
    | none => false
  let off := match v with
    | some b => if staged then b.stageOff + r.slot * b.slotBytes else 0
    | none => 0
  let bytes := match v with
    | some b => if staged then (tgetD b.slot r.slot ⟨false, 0, 0⟩).bytes else 0
    | none => 0
  let w (k : Nat) : U32 := BitVec.ofNat 32 k
  let regs : List U32 :=
    [w r.binding, w off, w bytes, w r.slot, w r.trigger, w (r.trigger / 2 ^ 32), w (0x100000 + tgetD x.sramBase (clusterOf n) 0)]
  { c with d := regs ++ c.d.drop 7, pc := x.entry, loops := [], stack := [], lc := c.lc, ready := [] }

/-- Address of a counter of a core block (Table 13.14). -/
def coreCnt (n off : Nat) : Nat := 0x0D020000 + n * 0x400 + off

/-- Dispatch a task on a core (Table 14.1, R372, R387). -/
def dispatchOn (t : Nat) (k : Task) (n pass : Nat) (s : State) : State :=
  let wait := elNs s - k.readyEl
  let b := waitBucket wait
  let k1 := { k with state := .running, flags := k.flags &&& ~~~k.mask, home := some n, dispatches := sat1 k.dispatches
                     hist := tset k.hist b (satAdd (2 ^ 64 - 1) (tgetD k.hist b 0) 1), cur := k.run }
  let s0 := touchQueue k.cluster k.cls s
  let s1 := setTask t k1 s0
  let s2 := if k.reserved then s1 else freeEntry k.cluster k.cls s1
  let c := getCore s2 n
  let c1 := { c with state := .running, fault := none, task := some t, runTs := taiNs s, runEl := elNs s, runCycles := 0, aov := false
                     eov := false, finv := false, ready := [], loops := [], stack := [] }
  let c2 := match k.kernel with
    | none => c1
    | some x => match getKern s2 x with
      | some y => dispatchRegs n y k.run c1
      | none => c1
  let s3 := setCore n c2 s2
  let s4 := bump (0x0E000108 + 8 * (pass - 1)) (bump 0x0E000100 (bump (coreCnt n 0x200) (bump 0x0D000118 s3)))
  match k.kernel with
  | none => s4
  | some x => modKern x (fun y => { y with runs := sat1 y.runs }) s4

/-- One pass over the free cores, by number: the state, and the cores still free. -/
def runPass (pass : Nat) : List Nat → List Nat → State → List Nat × State
  | [], free, s => (free, s)
  | n :: rest, free, s =>
    match pick n (offered pass n free s) s with
    | none => runPass pass rest free s
    | some ((t, k), cr) =>
      let s1 := { s with yar := { s.yar with credits := tset s.yar.credits (clusterOf n) cr } }
      runPass pass rest (free.filter (fun j => decide (j ≠ n))) (dispatchOn t k n pass s1)

/-- Match free cores to READY tasks in the three passes of R387. -/
def matchCores (s : State) : State :=
  if tany (fun _ k => decide (k.state = .ready)) s.yar.tasks = false then s else
  let free := (List.range 128).filter (fun n => coreFree s n)
  let (f1, s1) := runPass 1 free free s
  let (f2, s2) := runPass 2 f1 f1 s1
  (runPass 3 f2 f2 s2).2

/-! ### Placement (R30, R31, R395) -/

/-- Three bytes of a place. -/
def placeBytes (p : Nat × Nat × Nat) : Bytes := [BitVec.ofNat 8 p.1, BitVec.ofNat 8 p.2.1, BitVec.ofNat 8 p.2.2]

/-- Write the placement log and record PLACEMENT-MOVED. -/
def logPlacement (kind reason item : Nat) (old new : Nat × Nat × Nat) (s : State) : State :=
  let e : PlaceEntry := { seq := s.yar.placeSeq, kind, reason, item, old, new, ts := taiNs s }
  let s1 := { s with yar := { s.yar with placeLog := tset s.yar.placeLog (s.yar.placeSeq.toNat % 256) e, placeSeq := s.yar.placeSeq + 1 } }
  raise 0x0E06 0 ([BitVec.ofNat 8 kind] ++ leBytes 3 item ++ placeBytes old ++ placeBytes new ++ leBytes 4 e.seq.toNat) none s1

/-- Nothing placed. -/
def noPlace : Nat × Nat × Nat := (0xFF, 0xFF, 0xFF)

def placeKey (kind item : Nat) : Nat := kind * 2 ^ 32 + item

/-- A place that the device chooses, which the spec does not state: a core that is no C0 core with its cluster, or a cluster, and a DRAM
channel, each or none of them. -/
def freePlace (x : Nat) : Nat × Nat × Nat :=
  let core := x % 112 / 7 * 8 + x % 7 + 1
  let onCore := decide (x / 112 % 2 = 0)
  (if onCore then core else 0xFF, if onCore || decide (x / 224 % 2 = 0) then core / 8 else 0xFF, if x / 448 % 3 = 2 then 0xFF else x / 448 % 3)

/-- Place a new item: 0 slabs of a stream, 1 screening state, 2 estimator, 3 voice channel. -/
def placeNew (kind item : Nat) (s : State) : State :=
  let (x, s1) := fresh s
  logPlacement kind 0 item noPlace (freePlace x)
    { s1 with yar := { s1.yar with places := tset s1.yar.places (placeKey kind item) (freePlace x) } }

/-- An item is no more. -/
def unplace (kind item : Nat) (s : State) : State :=
  { s with yar := { s.yar with places := tdel s.yar.places (placeKey kind item)
                               moves := s.yar.moves.filter (fun m => decide (m.kind ≠ kind ∨ m.item ≠ item)) } }

/-- A move of a placed item takes effect: the old place stood until now (R31). -/
def movePlace (m : PlaceMove) (s : State) : State :=
  match tget s.yar.places (placeKey m.kind m.item) with
  | none => s
  | some old => logPlacement m.kind m.reason m.item old m.new
      { s with yar := { s.yar with places := tset s.yar.places (placeKey m.kind m.item) m.new } }

/-- A slab boundary of a grid: the moves that wait for it (R31). -/
def switchMoves (g : Nat) (s : State) : State :=
  (s.yar.moves.filter (fun m => decide (m.grid = g))).foldl (fun t m => movePlace m t)
    { s with yar := { s.yar with moves := s.yar.moves.filter (fun m => decide (m.grid ≠ g)) } }

/-- A task has moved to a cluster; its home is none (R394). -/
def logTaskMove (t : Nat) (k : Task) (reason cl : Nat) (s : State) : State :=
  logPlacement (if k.user then 5 else 4) reason t (k.home.getD 0xFF, k.cluster, 0xFF) (0xFF, cl, 0xFF) s

/-! ### The end of a run (R377, R379) -/

/-- The completion record and what the task does next. -/
def endTask (n t : Nat) (fault : Bool) (s : State) : State :=
  match getTask s t with
  | none => s
  | some k =>
    let c := getCore s n
    let cancelled := k.cancelPend
    let st := (if c.aov then 1 else 0) + (if c.eov then 2 else 0) + (if c.finv then 4 else 0) + (if cancelled then 8 else 0) +
      (if fault then 16 else 0)
    let k1 := { k with lastCore := n, lastStatus := BitVec.ofNat 5 st, lastCycles := c.runCycles, lastEndTs := taiNs s
                       cancelPend := false, cluster := (k.moveTo.map (·.1)).getD k.cluster
                       home := if k.moveTo.isSome then none else k.home, moveTo := none }
    let s0 := match k.moveTo with
      | some (cl, why) => logTaskMove t { k with home := some n } why cl s
      | none => s
    let s1 := bumpIf cancelled 0x0E000128 (bumpIf c.aov 0x0E000148 s0)
    if k.deletePend then setTask t (freedTask k1) s1
    else if cancelled then setTask t { k1 with state := .waiting, flags := 0, delay := none } s1
    else if flagsMatch k1 then makeReady t k1 s1
    else setTask t { k1 with state := .waiting } s1

/-- Release the staging slot of a run that has executed DONE (R371). -/
def releaseSlot (r : TaskRun) (s : State) : State :=
  modBind r.kernel r.binding (fun b => { b with slot := tmod b.slot r.slot (fun x => { x with busy := false }) }) s

/-- KERNEL-AOV, for a kernel started with aov_event (Table 14.12). -/
def aovEvent (n k : Nat) (r : TaskRun) (s : State) : State :=
  match getKern s k with
  | some x =>
    raiseIf ((getCore s n).aov && x.aovEvent) 0x0E05 1
      ([BitVec.ofNat 8 k, BitVec.ofNat 8 n, BitVec.ofNat 8 r.binding] ++ leBytes 8 r.trigger) (some x.part) s
  | none => s

/-- The task a core runs. -/
def runOf (s : State) (n : Nat) : Option (Nat × Task) :=
  match (getCore s n).task with
  | none => none
  | some t => (getTask s t).map (fun k => (t, k))

/-- The traffic class of a core's DMA transfers and memory requests: that of the task it runs (R20). -/
def xferClass (s : State) (n : Nat) : Option Nat := (runOf s n).map (fun e => e.2.cls)

/-- A run ends at DONE. -/
def endRun (n : Nat) (s : State) : State :=
  let c := getCore s n
  let s1 := bumpIf c.aov (coreCnt n 0x228) (bumpIf c.aov 0x0D000120 s)
  let s2 := match runOf s1 n with
    | none => s1
    | some (t, k) =>
      let s2 := match k.kernel with
        | some x => aovEvent n x k.cur (releaseSlot k.cur s1)
        | none => s1
      endTask n t false s2
  setCore n { getCore s2 n with state := .idle, task := none } s2

/-- Transfers not started are discarded; the one in progress completes (R365). -/
def dropQueued (c : Core) : Core := { c with queue := c.queue.take 1 }

/-- A run faults (R365): the core is frozen, its kernel enters FAULTED; a device kernel's fault is recorded as a diagnostic record whose
code and severity the spec does not state. -/
def faultRun (n : Nat) (f : CoreFault) (s : State) : State :=
  let c := getCore s n
  let s1 := setCore n { dropQueued c with state := .faulted, fault := some f, faultPc := c.pc } s
  let s2 := bumpIf (decide (f = .budget)) 0x0D000128 (bump 0x0D000110 s1)
  let run := runOf s2 n
  let s3 := match c.kernel with
    | some k =>
      let (b, tr) := match run with
        | some (_, x) => (x.cur.binding, x.cur.trigger)
        | none => (0, 0)
      match getKern s2 k with
      | some x =>
        let st := if x.state = .running ∨ x.state = .stopping then KState.faulted else x.state
        raise 0x0D04 3 ([BitVec.ofNat 8 k, BitVec.ofNat 8 n, BitVec.ofNat 8 f.num] ++ leBytes 4 c.pc.toNat ++ [BitVec.ofNat 8 b] ++
            leBytes 8 tr) (some x.part)
          (aovEvent n k (match run with
              | some (_, y) => y.cur
              | none => ⟨0, 0, 0, 0, 0⟩)
            (setKern k { x with state := st, faultCore := some n, faults := sat1 x.faults, runFaulted := true } s2))
      | none => s2
    | none =>
      let (x, s') := fresh s2
      pushRec (0x0D80 + x % 128) (x / 128 % 4) ([BitVec.ofNat 8 n, BitVec.ofNat 8 f.num] ++ leBytes 4 c.pc.toNat) s'
  let s4 := bumpIf c.aov (coreCnt n 0x228) (bumpIf c.aov 0x0D000120 s3)
  match run with
  | some (t, _) =>
    let s5 := endTask n t true s4
    setCore n { getCore s5 n with task := none } s5
  | none => s4

end Sys2Proof.Machine
end

