-- ==== Sys2Proof/Machine/KernelOps.lean ====
section
/-!
DEFINITION. User kernels (13.10, 13.11): the checks of an image, the reservation of cores, SRAM and pool, the tasks of bindings, and the
triggers by slabs and by messages.
-/

namespace Sys2Proof.Machine

/-- Checks 1 to 6 of R367, in order: status and cause of the first that fails. -/
def imageCheck (s : State) (len cores : Nat) (b : Beleth) : Option (Sts × Nat) :=
  match belethCheck s len b with
  | some f => some f
  | none => if cores < b.minCores.toNat ∨ b.maxCores.toNat < cores then some (.badParam, 4) else none

/-- Cluster SRAM that user kernels hold in a cluster, KiB. -/
def sramUsed (s : State) (cl : Nat) : Nat :=
  s.sor.kernels.foldl (fun n e => if (tget e.2.sramBase cl).isSome then n + e.2.sramKib else n) 0

/-- Kernel pool in use, KiB. -/
def poolUsed (s : State) : Nat := s.sor.kernels.foldl (fun n e => n + e.2.scratchKib) 0

/-- User cores held. -/
def userCores (s : State) : Nat := s.sor.kernels.foldl (fun n e => n + e.2.cores.length) 0

/-- A core that can become a user core of a kernel with so much SRAM per cluster (R346, R368). -/
def coreAvail (s : State) (kib n : Nat) : Bool :=
  decide (n < 128 ∧ n % 8 ≠ 0 ∧ sramUsed s (clusterOf n) + kib ≤ 512) &&
  (let c := getCore s n; decide (c.kernel = none ∧ c.state = .idle))

/-- The cores a kernel receives: what the device proposes where that is allowed, else the lowest available. -/
def chooseCores (s : State) (k cores kib : Nat) : Option (List Nat) :=
  let l := Config.pickCores k cores
  if l.length = cores ∧ l.Nodup ∧ l.all (fun n => coreAvail s kib n) then some l
  else
    let l2 := ((List.range 128).filter (fun n => coreAvail s kib n)).take cores
    if l2.length = cores then some l2 else none

/-- A window of a cluster's SRAM is free of the other kernels' windows. -/
def sramFree (s : State) (cl base kib : Nat) : Bool :=
  decide (base + kib * 1024 ≤ 2 ^ 20) &&
  s.sor.kernels.all (fun e => match tget e.2.sramBase cl with
    | none => true
    | some b => decide (b + e.2.sramKib * 1024 ≤ base ∨ base + kib * 1024 ≤ b))

/-- The base of a window: what the device proposes where it is free, else the lowest free multiple of 4 KiB. -/
def chooseSram (s : State) (k cl kib : Nat) : Nat :=
  let p := Config.pickSram k cl
  if sramFree s cl p kib then p
  else ((List.range 256).find? (fun i => sramFree s cl (4096 * i) kib)).getD 0 * 4096

/-- Write the images of a kernel to a core of it. -/
def loadCore (k : Nat) (b : Beleth) (c : Core) : Core :=
  let c1 := { c with unified := b.flags.getLsbD 0, kernel := some k, entry := b.entry, im := ramWrite c.im 0 b.im, fault := none }
  { c1 with x := ramWrite c1.x 0 (b.data.take 65536), y := ramWrite c1.y 0 (b.data.drop 65536) }

/-- The kernel as a successful load makes it. -/
def loadKern (s : State) (k : Nat) (x : Kern) (b : Beleth) (cores : List Nat) : Kern :=
  let bases := cores.foldl (fun t n =>
    if (tget t (clusterOf n)).isSome then t else tset t (clusterOf n) (chooseSram s k (clusterOf n) b.sramKib.toNat)) []
  { x with state := .loaded, unified := b.flags.getLsbD 0, sramKib := b.sramKib.toNat, imageId := b.imageId, imageVersion := b.imageVersion
           scratchKib := b.scratchKib.toNat, maxCycles := b.maxCycles.toNat, keySlot := b.keySlot.toNat, entry := b.entry, cores
           sramBase := bases, long := none }

/-- Check 7 of R367: what a load reserves (R368), as the kernel would be; none where something is insufficient. -/
def reserveKern (s : State) (k : Nat) (x : Kern) (b : Beleth) : Option Kern :=
  if (getPart s x.part).quota.userCores < userCoresOf s x.part + x.loadCores ∨ 32 < userCores s + x.loadCores ∨
     s.sor.poolMib * 1024 < poolUsed s + b.scratchKib.toNat then none
  else (chooseCores s k x.loadCores b.sramKib.toNat).map (fun l => loadKern s k x b l)

/-! ### Bindings -/

/-- Clusters of a kernel, each once. -/
def kernClusters (x : Kern) : List Nat := (x.cores.map clusterOf).eraseDups

/-- The cluster of a kernel whose C1 queue has fewest reserved entries. -/
def leastReserved (s : State) (x : Kern) : Option Nat :=
  (kernClusters x).foldl (fun best cl =>
    match best with
    | none => some cl
    | some b => if reservedIn s cl 1 < reservedIn s b 1 then some cl else best) none

/-- A task's number that is FREE. -/
def freeTask (s : State) : Option Nat :=
  ((List.range 16384).find? (fun t => match getTask s t with
    | none => true
    | some k => decide (k.state = .free)))

/-- A new task of a kernel (R381): counters begin at re-creation. -/
def newTask (k cl cls level : Nat) (reserved timer aov : Bool) (b slot : Nat) : Task :=
  { state := .waiting, cls, level, reserved, bound := true, user := true, andMode := false, cancelPend := false, deletePend := false
    aovEvent := aov, cluster := cl, home := none, kernel := some k, owner := 0x0D, flags := 0
    mask := if timer then 0x80000000 else 1, delay := none, readyTs := 0, readyEl := 0, lastCore := 0, lastStatus := 0, lastCycles := 0
    lastEndTs := 0, dispatches := 0, run := ⟨k, b, slot, 0, 0⟩, cur := ⟨k, b, slot, 0, 0⟩, moveTo := none, hist := [], stalls := none }

/-- Create the tasks of a binding from a slot on: none where they cannot be placed (R374). -/
def addTask (k : Nat) (x : Kern) (b cls level : Nat) (reserved timer : Bool) (slot : Nat) (s : State) : Option (Nat × State) :=
  (freeTask s).bind (fun t =>
    let cls' := kernClusters x
    let cl := if reserved then leastReserved s x else cls'[Config.pickCluster t % max cls'.length 1]?
    match cl with
    | none => none
    | some cl =>
      if reserved ∧ 768 ≤ reservedIn s cl cls then none
      else some (t, logPlacement 5 0 t noPlace (0xFF, cl, 0xFF)
        (setTask t (newTask k cl cls level reserved timer x.aovEvent b slot) s)))

/-- The tasks of a binding, `n` of them from a slot on: all of them or none. -/
def addTasks (k : Nat) (x : Kern) (b cls level : Nat) (reserved timer : Bool) : Nat → Nat → List Nat → State → Option (List Nat × State)
  | 0, _, acc, s => some (acc.reverse, s)
  | n + 1, slot, acc, s =>
    (addTask k x b cls level reserved timer slot s).bind (fun p =>
      addTasks k x b cls level reserved timer n (slot + 1) (p.1 :: acc) p.2)

/-- Give a timer binding's task its periodic delay entry (R381). -/
def armTimer (v : KBind) (s : State) : State :=
  if v.kind = 3 ∨ v.kind = 4 then
    match v.tasks with
    | t :: _ =>
      match getTask s t with
      | some k => if k.delay.isSome then s else setDelay t (if v.kind = 3 then .abs else .ga) v.period v.period s
      | none => s
    | [] => s
  else s

/-- Delete the tasks of a binding and unbind its ring. -/
def dropBind (p : HP) (kern : Nat) (v : KBind) (s : State) : State :=
  let s1 := v.tasks.foldl (fun t k => deleteTask k t) s
  if v.kind ≤ 1 then unbindRing p v.ring (.kernel kern) s1 else s1

/-- Trigger the slab bindings of a grid at a final release (R371): tag, release timestamp, then each handle's cells. -/
def kernelSlab (grid tag : Nat) (cells : Nat → Bytes) (s : State) : State :=
  s.sor.kernels.foldl (fun t e =>
    e.2.binds.foldl (fun t b =>
      if b.2.kind = 2 ∧ b.2.grid = grid then
        triggerBind e.1 b.1 (leBytes 8 tag ++ leBytes 8 (taiNs s) ++ (b.2.handles.map cells).flatten) tag none t
      else t) t) s

/-- A core of the kernel runs. -/
def kernRuns (s : State) (x : Kern) : Bool := x.cores.any (fun n => decide ((getCore s n).state = .running))

/-- A kernel changes state, with KERNEL-STATE-CHANGED. -/
def kernState (k : Nat) (st : KState) (s : State) : State :=
  match getKern s k with
  | none => s
  | some x =>
    raise 0x0D03 1 [BitVec.ofNat 8 k, BitVec.ofNat 8 x.state.num, BitVec.ofNat 8 st.num] (some x.part) (setKern k { x with state := st } s)

/-- Frozen cores become idle again and the fault fields are cleared (Table 13.10). -/
def clearFaults (k : Nat) (s : State) : State :=
  match getKern s k with
  | none => s
  | some x =>
    x.cores.foldl (fun t n =>
      let c := getCore t n
      if c.state = .faulted then setCore n { c with state := .idle, fault := none, faultPc := 0 } t else t)
      (setKern k { x with faultCore := none, runFaulted := false } s)

end Sys2Proof.Machine
end

