-- ==== Sys2Proof/Machine/NetOps.lean ====
section
/-!
DEFINITION. Operations of the network ports (04_network_ports.md): transmit queues, timed launch, transmit timestamps and completion, the
LAN state of PRP pairs, the unknown-source table, ingress queues and class drops, port registration.
-/

namespace Sys2Proof.Machine

def getPort (s : State) (k : Nat) : Port := tgetD s.net.ports k (Port.init k)
def setPort (k : Nat) (p : Port) (s : State) : State := { s with net := { s.net with ports := tset s.net.ports k p } }
def modPort (k : Nat) (f : Port → Port) (s : State) : State := setPort k (f (getPort s k)) s

/-- Address of a port counter (Table 4.10). -/
def portCnt (k off : Nat) : Nat := 0x04000100 + k * 0x4000 + off

def getPair2 (s : State) (pr : Nat) : Pair := if pr = 0 then s.net.pair0 else s.net.pair1
def setPair2 (pr : Nat) (p : Pair) (s : State) : State :=
  if pr = 0 then { s with net := { s.net with pair0 := p } } else { s with net := { s.net with pair1 := p } }

/-- Address of a pair counter (Table 4.11). -/
def pairCnt (pr off : Nat) : Nat := 0x04040000 + pr * 0x100 + off

/-- The PTP address of Table 3.3. -/
def ptpAddr : U48 := 0x011B19000000

/-- Device time in units of 2^-16 ns (R109). -/
def time16 (s : State) : Nat := taiNs s * 65536 + s.clk.frac.toNat / 65536

/-- PORT_MAC (R105, Table 17.5): mac_base + k. -/
def portMac (s : State) (k : Nat) : U48 := BitVec.ofNat 48 (s.net.macBase.getD Config.macBase.toNat + k)

/-- The receive timestamp of a frame that crosses a port's medium boundary now (R109). -/
def rxStamp (s : State) (k : Nat) : Nat := time16 s - (getPort s k).rxLatNs.toNat * 65536

/-- The receive timestamp, ns, of the frame of a class that its consumer takes next; of one that no FRAME_RX brought, the instant itself. -/
def rxNs (s : State) (k : Nat) (c : Cls) : Nat :=
  match (getPort s k).inq.find? (fun f => decide (f.cls = c)) with
  | some f => f.ts16 / 65536
  | none => rxStamp s k / 65536

/-- The same receive timestamp as an elapsed instant. -/
def rxEl (s : State) (k : Nat) (c : Cls) : Nat := elNs s - (taiNs s - rxNs s k c)

/-- Class of the data of a DMA ring by its use (Table 1.2). -/
def ringClass : RingUse → Cls
  | .publication _ | .estimator | .voice | .tone | .announcement | .kernel _ => .c1
  | .capture _ | .halga | .dill _ => .c2
  | _ => .c3

/-- Picoseconds per byte at a port's rate. -/
def psPerByte (p : Port) : Nat :=
  match p.speedAct.toNat with
  | 1 => 800000
  | 2 => 80000
  | 3 => 8000
  | 4 => 800
  | _ => 320

/-- Wire time of some bytes, ns, rounded up. -/
def wireNs (p : Port) (bytes : Nat) : Nat := (bytes * psPerByte p + 999) / 1000

/-- A field port (Table 4.1). -/
def isField (k : Nat) : Bool := decide (4 ≤ k ∧ k < 12)

/-! ### Frames on their way out -/

def getFrame (s : State) (r : Nat) : Option TxFrame := tget s.net.frames r
def modFrame (r : Nat) (f : TxFrame → TxFrame) (s : State) : State := { s with net := { s.net with frames := tmod s.net.frames r f } }

/-- Ports of a frame. -/
def framePorts (f : TxFrame) : List Nat := if f.pair then [f.port, f.port + 1] else [f.port]

/-- Free the timestamp entries of a frame on every port of it. -/
def freeTs (r : Nat) (f : TxFrame) (s : State) : State :=
  (framePorts f).foldl (fun t k => modPort k (fun p => { p with tsq := p.tsq.filter (fun e => decide (e.ref ≠ r)) }) t) s

/-- A transmit report (Table 4.8). -/
def txReport (index : U32) (f : TxFrame) : Bytes :=
  leBytes 4 index.toNat ++ leBytes 2 f.status.toNat ++ leBytes 2 f.flags.bits ++ leBytes 8 (f.stampA / 65536) ++
  leBytes 8 (f.stampB / 65536) ++ leBytes 2 (f.stampA % 65536) ++ leBytes 2 (f.stampB % 65536) ++ leBytes 4 0

/-- A transmit report is written to the report ring of a binding, or skipped and counted (R129). -/
def reportTx (p : HP) (n k : Nat) (index : U32) (f : TxFrame) (s : State) : State :=
  match (tget s.net.binds (p.val * 64 + n)).bind (fun b => b.reportRing) with
  | some r => match ringWrite p r .txReport (txReport index f) s with
    | some t => t
    | none => bump (portCnt k 0xC0) s
  | none => s

/-- Complete some descriptors with a status code. -/
def completeDescs (p : HP) (n : Nat) (st : U16) : Nat → State → State
  | 0, s => s
  | k + 1, s =>
    match getRing s p n with
    | none => s
    | some r =>
      match r.owned with
      | [] => s
      | d :: t =>
        let s1 := setRing p n { r with owned := t, devIdx := r.devIdx + 1
                                       lastDone := some { desc := d, status := st, len := d.len, data := [] } } s
        completeDescs p n st k (if d.int then msix p (4 + n) s1 else s1)

/-- Complete, in ring order, the taken frames at the head that have their status (R66). -/
def flushTaken (p : HP) (n : Nat) : List Taken → State → List Taken × State
  | [], s => ([], s)
  | t :: rest, s =>
    match t.status with
    | none => (t :: rest, s)
    | some st => flushTaken p n rest (completeDescs p n st t.descs s)

/-- A host frame has its status: its descriptors, in order. -/
def settleHost (p : HP) (n ref : Nat) (st : U16) (s : State) : State :=
  let key := p.val * 64 + n
  match tget s.net.binds key with
  | none => s
  | some b =>
    let l := b.taken.map (fun t => if t.ref = ref then { t with status := some st } else t)
    let (l1, s1) := flushTaken p n l s
    { s1 with net := { s1.net with binds := tmod s1.net.binds key (fun x => { x with taken := l1 }) } }

/-- A frame is complete (R129): timestamps freed, and for a host frame its report and its descriptors. -/
def completeFrame (r : Nat) (s : State) : State :=
  match getFrame s r with
  | none => s
  | some f =>
    let s1 := freeTs r f { s with net := { s.net with frames := tdel s.net.frames r } }
    match f.owner with
    | .host p n idx => settleHost p n r f.status (reportTx p n f.port idx f s1)
    | _ => s1

/-- One copy of a frame is done. -/
def finishCopy (r : Nat) (s : State) : State :=
  match getFrame s r with
  | none => s
  | some f =>
    let s1 := modFrame r (fun x => { x with left := x.left - 1 }) s
    if f.left ≤ 1 then completeFrame r s1 else s1

/-- Change a frame's flags. -/
def flagFrame (r : Nat) (g : TxFlags → TxFlags) (s : State) : State := modFrame r (fun f => { f with flags := g f.flags }) s

/-- The copy of a pair's frame for a port whose link is down is discarded (R111). A frame with no copy left completes with BUSY. -/
def discardCopy (r k : Nat) (s : State) : State :=
  match getFrame s r with
  | none => s
  | some f =>
    let b := f.pair && decide (k = f.port + 1)
    let s1 := flagFrame r (fun x => if b then { x with linkDownB := true } else { x with linkDownA := true }) s
    let s2 := bump (pairCnt (f.port / 2) 0x70) s1
    let both := f.pair && (f.flags.linkDownA || f.flags.linkDownB)
    finishCopy r (if both then modFrame r (fun x => { x with status := Sts.busy.w }) s2 else s2)

/-- Request a timestamp entry as a frame goes out (R122): one of 64 is kept for PTP, and a frame that is tried again keeps what it has. -/
def takeTs (k r : Nat) (ptp : Bool) (s : State) : State :=
  let p := getPort s k
  let lost : Bool := match getFrame s r with
    | some f => if f.pair && decide (k = f.port + 1) then f.flags.tsLostB else f.flags.tsLostA
    | none => false
  if p.tsq.any (fun e => decide (e.ref = r)) ∨ lost then s
  else if ptp ∨ (p.tsq.filter (fun e => !e.ptp)).length < 63 then setPort k { p with tsq := p.tsq ++ [⟨r, ptp⟩] } s
  else
    let second := match getFrame s r with
      | some f => f.pair && decide (k = f.port + 1)
      | none => false
    let s1 := bump (portCnt k 0xA0) (flagFrame r (fun x => if second then { x with tsLostB := true } else { x with tsLostA := true }) s)
    let s2 := setPort k { getPort s1 k with lastTsqEvtEl := some (elNs s) } s1
    if secondSince s p.lastTsqEvtEl then raise 0x0409 1 (BitVec.ofNat 8 k :: leBytes 8 (cntGet s1 (portCnt k 0xA0))) none s2
    else s1

/-- A PTP event message (R122). -/
def ownerPtp : TxOwner → Bool
  | .ptp _ _ => true
  | _ => false

/-- A timed frame that starts its preamble ahead of its launch: its first bit after the SFD crosses at the launch (R120, R121). -/
def onTime (f : TxFrame) : Bool := f.launch.isSome && !f.flags.late && !f.flags.delayed && !f.flags.deferred

/-- From the start of the preamble to the first bit after the SFD, in units of 2^-16 ns. -/
def preamble16 (p : Port) : Nat := 8 * psPerByte p * 65536 / 1000

/-- Put a frame on the wire of a port, with its transmit timestamp (R109). -/
def startOn (k r : Nat) (s : State) : State :=
  match getFrame s r with
  | none => s
  | some f =>
    let s1 := if f.tsReq ∨ f.launch.isSome then takeTs k r (ownerPtp f.owner) s else s
    modPort k (fun p => { p with wire := some (r, time16 s + (if onTime f then 0 else preamble16 p) + p.txLatNs.toNat * 65536), due := p.due.filter (fun x => decide (x ≠ r))
                                 txq := p.txq.filter (fun x => decide (x ≠ r)) }) s1

/-- A non-timed frame ends, with its gap, before the preamble of the earliest queued timed frame (R121). -/
def fitsBefore (s : State) (p : Port) (r : Nat) : Bool :=
  match p.lq, getFrame s r with
  | e :: _, some f => decide (taiNs s + wireNs p (8 + f.wireLen + 12) + wireNs p 8 ≤ e.launch)
  | _, _ => true

/-- The frame of a class that goes first: of the lowest level, the one that entered first (R21). -/
def firstOf (s : State) (c : Nat) (l : List Nat) : Option Nat :=
  (l.foldl (fun (best : Option (Nat × Nat)) r => match getFrame s r with
    | some f =>
      if f.cls.num = c ∧ (best.elim true (fun b => decide (f.level < b.2))) = true then some (r, f.level) else best
    | none => best) none).map (·.1)

/-- The waiting frame that a port sends next (R21), with the credits after it. C0 keeps its order (R26), so a C0 frame that does not fit
before a timed frame holds back the C0 frames behind it. Credits are charged one per frame (DESIGN CHOICE, log entry 61). -/
def nextTx (s : State) (p : Port) : Option (Nat × (Nat × Nat × Nat)) :=
  match p.due with
  | r :: _ => some (r, p.credits)
  | [] =>
    let of (c : Nat) : Option Nat := firstOf s c (p.txq.filter (fun r => fitsBefore s p r))
    match (firstOf s 0 p.txq).filter (fun r => fitsBefore s p r) with
    | some r => some (r, p.credits)
    | none =>
      match chooseClass p.credits (of 1).isSome (of 2).isSome (of 3).isSome with
      | none => none
      | some (c, cr) => (of c).map (fun r => (r, cr))

/-- A timed frame on a field port meets carrier, deferral or a collision: flagged DEFERRED and counted, once (R121). -/
def deferTimed (k r : Nat) (s : State) : State :=
  match getFrame s r with
  | some f =>
    if f.launch.isSome ∧ f.flags.deferred = false then bump (portCnt k 0x98) (flagFrame r (fun x => { x with deferred := true }) s) else s
  | none => s

/-- Start a frame on a port, or defer to carrier on a field port, where it is flagged DEFERRED if it is timed (R117, R121). Carrier comes
from the PHY: its level at this instant is an input that no command carries, a free value. -/
def startOrDefer (k r : Nat) (s : State) : State :=
  if isField k then
    let (x, s1) := fresh s
    if x % 2 = 1 then deferTimed k r (modPort k (fun p => { p with carrier := true }) s1)
    else startOn k r s1
  else startOn k r s

/-- Start the next frame of a port, where the wire is free; a frame that defers is charged when it starts. -/
def tryStart (k : Nat) (s : State) : State :=
  let p := getPort s k
  if p.wire.isSome ∨ p.link = false ∨ p.carrier then s
  else match p.backoff with
    | some b => if b.until_ = none then startOrDefer k b.ref s else s
    | none => match nextTx s p with
      | none => s
      | some (r, cr) =>
        let t := startOrDefer k r s
        if (getPort t k).carrier then t else modPort k (fun q => { q with credits := cr }) t

/-- Every port sends what may go. -/
def kickPorts (s : State) : State := (s.net.ports.map (·.1)).foldl (fun t k => tryStart k t) s

/-- Insert a launch-queue entry behind those of equal time (R120). -/
def insertLq (e : LqEntry) : List LqEntry → List LqEntry
  | [] => [e]
  | x :: t => if e.launch < x.launch then e :: x :: t else x :: insertLq e t

def enterLq (k : Nat) (e : LqEntry) (s : State) : State := modPort k (fun p => { p with lq := insertLq e p.lq }) s

def dropLq (k r : Nat) (s : State) : State := modPort k (fun p => { p with lq := p.lq.filter (fun e => decide (e.ref ≠ r)) }) s

/-- A timed frame's launch has come on a port, LATE or not: it goes to the wire, or waits for it and is flagged DELAYED (R121). -/
def fireOn (k r : Nat) (s : State) : State :=
  match getFrame s r with
  | none => dropLq k r s
  | some f =>
    let s1 := dropLq k r s
    let p := getPort s1 k
    if f.pair ∧ p.link = false then discardCopy r k s1
    else
      let busy := p.wire.isSome || !p.due.isEmpty
      let s2 := if busy then bump (portCnt k 0x90) (flagFrame r (fun x => { x with delayed := true }) s1) else s1
      let s3 := if p.carrier ∨ p.backoff.isSome then deferTimed k r s2 else s2
      tryStart k (modPort k (fun q => { q with due := q.due ++ [r] }) s3)

/-- A timed action was late when it entered its queue (R98). The group of every late frame is that of the ports, 4 (DESIGN CHOICE, log
entry 61). -/
def lateAction (group late : Nat) (s : State) : State :=
  raise 0x030E 1 (BitVec.ofNat 8 group :: leBytes 8 late) none (bump 0x03000120 s)

/-- The latest-entered frame of another class than C0 in a launch queue. -/
def latestLower (p : Port) : Option Nat :=
  p.lq.foldl (fun best e => if e.cls = .c0 then best else match best with
    | none => some e.ref
    | some b => if b < e.ref then some e.ref else best) none

/-- Complete a frame that is refused or displaced. -/
def refuseFrame (r : Nat) (st : Sts) (s : State) : State :=
  match getFrame s r with
  | none => s
  | some f => completeFrame r (modFrame r (fun x => { x with status := st.w }) ((framePorts f).foldl (fun t k => dropLq k r t) s))

/-- A launch queue is full (R120). -/
def lqFull (s : State) (k : Nat) : Bool := decide (256 ≤ (getPort s k).lq.length)

/-- Make room for a C0 frame in a full queue by displacing a frame of another class (R120). -/
def displace (k : Nat) (s : State) : State :=
  if lqFull s k then
    match latestLower (getPort s k) with
    | some r => refuseFrame r .noResource (bump (portCnt k 0x88) s)
    | none => s
  else s

/-- What the device hands to a port: length from destination address to payload, RCT where it is PRP traffic. -/
structure TxReq where
  cls : Cls
  port : Nat
  pair : Bool
  prp : Bool
  len : Nat
  launch : Option Nat
  tsReq : Bool
  owner : TxOwner
  body : Bytes
  level : Nat := 0
  to_ : Option NetTo := none

/-- PRP traffic, which has an RCT: on a pair, and a supervision frame also where only one link is up (R111, R112). -/
def isPrp (q : TxReq) : Bool := q.prp && (q.pair || decide (q.owner = .supervision))

/-- Bytes on the wire (R107, R108). -/
def wireBytes (q : TxReq) : Nat := if isPrp q then max q.len 54 + 10 else max q.len 60 + 4

/-- The frame of a request. -/
def mkFrame (q : TxReq) (rct : Option U16) : TxFrame :=
  { cls := q.cls, port := q.port, pair := q.pair, rctSeq := rct, len := q.len, wireLen := wireBytes q, launch := q.launch, tsReq := q.tsReq
    tsA := false, tsB := false, left := if q.pair then 2 else 1, stampA := 0, stampB := 0, flags := .none, status := 0
    owner := q.owner, level := q.level, to_ := q.to_, body := q.body }

/-- Enter a frame that exists: at once, timed, late, or held (R111, R120). -/
def enterFrame (r : Nat) (f : TxFrame) (s : State) : State :=
  match f.launch with
  | none =>
    (framePorts f).foldl (fun t k =>
      if f.pair ∧ (getPort t k).link = false then discardCopy r k t
      else tryStart k (modPort k (fun p => { p with txq := p.txq ++ [r] }) t)) s
  | some at_ =>
    if at_ < taiNs s then
      let s1 := lateAction 4 (taiNs s - at_) (flagFrame r (fun x => { x with late := true }) s)
      (framePorts f).foldl (fun t k => fireOn k r t) s1
    else
      let s1 := if f.cls = .c0 then (framePorts f).foldl (fun t k => displace k t) s else s
      if (framePorts f).any (fun k => lqFull s1 k) then
        modPort f.port (fun p => { p with heldC0 := p.heldC0 ++ [r] }) s1
      else (framePorts f).foldl (fun t k => enterLq k { launch := at_, cls := f.cls, ref := r } t) s1

/-- Enter a C0 frame that a port holds, where the launch queues have room. -/
def releaseOne (k : Nat) (s : State) : State :=
  match (getPort s k).heldC0 with
  | [] => s
  | r :: rest =>
    match getFrame s r with
    | none => modPort k (fun p => { p with heldC0 := rest }) s
    | some f =>
      if (framePorts f).any (fun j => lqFull s j) then s
      else enterFrame r f (modPort k (fun p => { p with heldC0 := rest }) s)

/-- Enter a held C0 frame when an entry of a port has freed (R120): one of the port, or of its pair, which the pair's first port holds. -/
def releaseHeld (k : Nat) (s : State) : State := if k < 4 ∧ k % 2 = 1 then releaseOne (k - 1) (releaseOne k s) else releaseOne k s

/-- Hand a frame to its port or pair: the status with which it is refused, or OK and its number. -/
def sendFrame (q : TxReq) (s : State) : Sts × Nat × State :=
  let ports := if q.pair then [q.port, q.port + 1] else [q.port]
  let now := taiNs s
  let far : Bool := match q.launch with
    | some t => decide (now + 60000000000 < t)
    | none => false
  let late : Bool := match q.launch with
    | some t => decide (t < now)
    | none => true
  let host : Bool := match q.owner with
    | .host _ _ _ => true
    | _ => false
  let long (k : Nat) : Bool := decide ((getPort s k).maxFrame < wireBytes q)
  if host && ports.any long then (.badLength, 0, ports.foldl (fun t k => bumpIf (long k) (portCnt k 0x80) t) s)
  else if far ∧ q.cls ≠ .c0 then (.badParam, 0, s)
  else if q.launch.isSome ∧ s.clk.timeValid = false ∧ q.cls ≠ .c0 then (.busy, 0, s)
  else if late = false ∧ q.cls ≠ .c0 ∧ ports.any (fun k => lqFull s k) then
    (.noResource, 0, ports.foldl (fun t k => bumpIf (lqFull s k) (portCnt k 0x88) t) s)
  else
    let prp := isPrp q
    let pr := q.port / 2
    let seq := (getPair2 s pr).txSeq
    let q1 := if s.clk.timeValid then q else { q with launch := none }
    let f := mkFrame q1 (if prp then some seq else none)
    let r := s.net.frameNext
    let s1 := { s with net := { s.net with frames := tset s.net.frames r f, frameNext := r + 1 } }
    let s2 := if prp then setPair2 pr { getPair2 s1 pr with txSeq := seq + 1 } s1 else s1
    (.ok, r, enterFrame r f s2)

/-- Hand over a frame of the device's own; its status is not looked at. -/
def sendOwn (q : TxReq) (s : State) : State := (sendFrame q s).2.2

/-- Timed frames whose launch has come: port and frame, the earliest launch first. -/
def dueFrames (s : State) : List (Nat × Nat) :=
  s.net.ports.foldl (fun l e => l ++ (e.2.lq.filter (fun x => decide (x.launch ≤ taiNs s))).map (fun x => (e.1, x.ref))) []

/-- Fire every timed frame that is due, and take in what is held. -/
def fireFrames (s : State) : State :=
  (dueFrames s).foldl (fun t e => releaseHeld e.1 (fireOn e.1 e.2 t)) s

/-- A publication counts a frame that a step has cancelled as skipped (R79, R98). -/
def noteCancelled (o : TxOwner) (s : State) : State :=
  match o with
  | .publication n =>
    { s with aln := { s.aln with pubs := tmod s.aln.pubs n (fun p => { p with frames := p.frames - 1, skipped := sat1 p.skipped }) } }
  | _ => s

/-- The first transmission of a GOOSE change has been released: its retransmissions start t_min_ms from now (R226, R227). -/
def restartGoose (o : TxOwner) (s : State) : State :=
  match o with
  | .alarm n true _ =>
    { s with alm := { s.alm with stages := tmod s.alm.stages n (fun v =>
        { v with gse := v.gse.map (fun g => if g.sqNum = 0 ∧ g.nextEl.isSome then { g with nextEl := some (elNs s + g.tMinMs * 1000000) } else g) }) } }
  | _ => s

/-- A step cancels pending timed frames, and releases C0 frames of the alarm stage at once (R79, R120, R226): how many are cancelled. -/
def cancelLaunches (s : State) : Nat × State :=
  let refs := (s.net.ports.foldl (fun l e => l ++ e.2.lq.map (fun x => x.ref) ++ e.2.heldC0) []).eraseDups
  refs.foldl (fun (n, t) r =>
    match getFrame t r with
    | none => (n, t)
    | some f =>
      if f.cls = .c0 then
        let t1 := bump 0x08000180 (restartGoose f.owner (modPort f.port (fun p => { p with heldC0 := p.heldC0.filter (fun x => decide (x ≠ r)) }) t))
        (n, (framePorts f).foldl (fun u k => fireOn k r u) t1)
      else (n + 1, noteCancelled f.owner (refuseFrame r .busy (flagFrame r (fun x => { x with stepCancelled := true }) t)))) (0, s)

/-! ### LAN state of a pair (R116) -/

def lanOk (p : Pair) (b : Bool) : Bool := if b then p.lanBOk else p.lanAOk

/-- A port becomes LAN-down: cause 0 link, 1 silence. -/
def lanDown (k cause : Nat) (s : State) : State :=
  let pr := k / 2
  let b := decide (k % 2 = 1)
  let p := getPair2 s pr
  if lanOk p b = false then s
  else
    raise 0x0403 2 [BitVec.ofNat 8 pr, if b then 1 else 0, BitVec.ofNat 8 cause] none
      (setPair2 pr (if b then { p with lanBOk := false } else { p with lanAOk := false }) s)

/-- A frame is heard on a port of a pair. -/
def lanHeard (k : Nat) (s : State) : State :=
  let pr := k / 2
  let b := decide (k % 2 = 1)
  let p := getPair2 s pr
  let p1 := if b then { p with lanBOk := true, heardBEl := some (elNs s) } else { p with lanAOk := true, heardAEl := some (elNs s) }
  raiseIf (!lanOk p b) 0x0404 0 [BitVec.ofNat 8 pr, if b then 1 else 0] none (setPair2 pr p1 s)

/-- lan_silence_ms has passed on a port. -/
def silencePassed (s : State) (k : Nat) : Bool :=
  let p := getPair2 s (k / 2)
  match if k % 2 = 1 then p.heardBEl else p.heardAEl with
  | some e => decide (e + p.lanSilenceMs * 1000000 ≤ elNs s)
  | none => false

/-- A link goes down (R111, R116). A frame in back-off on a field port waits for the link with the others. -/
def linkDown (k : Nat) (s : State) : State :=
  let p := getPort s k
  if p.link = false then s
  else
    let onWire := match p.wire with
      | some (r, _) => [r]
      | none => []
    let inPair (r : Nat) : Bool := match getFrame s r with
      | some f => f.pair
      | none => false
    let gone := (p.txq ++ p.due).filter inPair
    let s1 := setPort k { p with link := false, speedAct := 0, wire := none, carrier := false
                                 txq := p.txq.filter (fun r => !inPair r), due := p.due.filter (fun r => !inPair r) } s
    let s2 := raise 0x0402 2 [BitVec.ofNat 8 k] none s1
    let s3 := if k < 4 then lanDown k 0 s2 else s2
    let s4 := gone.foldl (fun t r => discardCopy r k t) s3
    onWire.foldl (fun t r =>
      if inPair r then discardCopy r k t
      else finishCopy r (modFrame r (fun f => { f with status := Sts.busy.w, flags := { f.flags with linkDownA := true } }) t)) s4

/-! ### Registered ports (R486) -/

/-- A registration: a number for its use, TCP or UDP, the port number, the MACs, and whether RTP media comes to it. -/
structure Reg where
  use : Nat
  tcp : Bool
  num : Nat
  macs : Nat
  rtp : Bool

/-- MACs of a target: a port, or 0x10 and 0x11 for the pairs. -/
def macMask (target : Nat) : Nat := if target = 0x10 then 3 else if target = 0x11 then 12 else 2 ^ target

/-- Every MAC of P0–P3 and F0–F7. -/
def allMacs : Nat := 0xFFF

/-- Port numbers a channel's RTP leg registers (R320, R486). -/
def voiceRegs (ch : Nat) (v : VCh) : List Reg :=
  if v.cfg.pktKind ≠ 1 ∨ v.state = .closing then []
  else
    let r (n : Nat) (rtp : Bool) : Reg := ⟨16 + ch, false, n, macMask v.cfg.target.toNat, rtp⟩
    r v.cfg.localPort.toNat true :: (if v.cfg.flags.getLsbD 5 then [r (v.cfg.localPort.toNat + 1) false] else [])

/-- The registrations in force: streams 1, publications 2, alarm stage 3, capture engine 4, voice channel c by 16 + c. -/
def regs (s : State) : List Reg :=
  (s.ing.streams.filterMap (fun e =>
    if e.2.key.transport = 0 ∨ e.2.key.transport = 2 then
      some ⟨1, decide (e.2.key.transport = 2), e.2.key.dstPort.toNat, macMask e.2.port, false⟩ else none)) ++
  (s.aln.pubs.filterMap (fun e =>
    if e.2.host then none else some ⟨2, false, e.2.srcPort.toNat, macMask e.2.target, false⟩)) ++
  (if s.alm.rxPort = 0 then [] else [⟨3, false, s.alm.rxPort.toNat, allMacs, false⟩]) ++
  (if s.cap.rtPort = 0 then [] else [⟨4, false, s.cap.rtPort.toNat, allMacs, false⟩]) ++
  (s.voc.chans.foldl (fun l e => l ++ (voiceRegs e.1 e.2)) [])

/-- A port number is registered by another use on some MAC. -/
def portTaken (s : State) (use : Nat) (tcp : Bool) (num macs : Nat) : Bool :=
  (regs s).any (fun r => decide (r.use ≠ use ∧ r.tcp = tcp ∧ r.num = num ∧ r.macs &&& macs ≠ 0))

/-! ### PRP duplicates of unknown sources (R114, R115) -/

/-- A MAC address, first octet first. -/
def macBytes (m : U48) : Bytes := beBytes 6 m.toNat

/-- The skew of a duplicate of hi on a pair (R115). -/
def noteSkew (pr us : Nat) (mac : U48) (s : State) : State :=
  let p := getPair2 s pr
  let hi := decide (p.skewAlertMs * 1000 < us)
  let s1 := setPair2 pr { p with skewLastUs := us, skewMaxUs := max p.skewMaxUs us, skewHigh := hi } s
  raiseIf (hi && !p.skewHigh) 0x0405 1 ([BitVec.ofNat 8 pr] ++ leBytes 4 us ++ [0] ++ macBytes mac) none s1

/-- The window position of a discarded duplicate (R115). -/
def noteDup (pr d : Nat) (mac : U48) (s : State) : State :=
  let p := getPair2 s pr
  let m := max p.dupDMax d
  let again := decide (48 ≤ m) && !p.dupRaised
  let s1 := setPair2 pr { p with dupDMax := m, dupRaised := p.dupRaised || decide (48 ≤ m) } s
  raiseIf again 0x0405 1 ([BitVec.ofNat 8 pr] ++ leBytes 4 p.skewLastUs ++ [BitVec.ofNat 8 d] ++ macBytes mac) none s1

/-- The least recently accepted entry of the unknown-source table. -/
def oldestEntry (t : Tbl SrcEntry) : Option Nat :=
  (t.foldl (fun best e => match best with
    | none => some (e.1, e.2.lastEl)
    | some b => if e.2.lastEl < b.2 then some (e.1, e.2.lastEl) else best) none).map (·.1)

/-- Put an entry into the table, evicting the least recently accepted one where the table is full. -/
def newEntry (key : Nat) (e : SrcEntry) (s : State) : State :=
  let t := s.net.unknown
  let put (u : State) : State := { u with net := { u.net with unknown := tset u.net.unknown key e } }
  if (tget t key).isNone ∧ 8192 ≤ t.length then
    match oldestEntry t with
    | none => put s
    | some k =>
      let s1 := bump (pairCnt (k % 2) 0x60) { s with net := { s.net with unknown := tdel t k } }
      put (raise 0x0406 1 (beBytes 6 (k / 2) ++ [BitVec.ofNat 8 (k % 2)]) none s1)
  else put s

/-- Decide a frame with a valid RCT of no known stream: whether it is delivered (R114). -/
def unknownSource (k : Nat) (mac : U48) (seq : U16) (s : State) : Bool × State :=
  let pr := k / 2
  let key := mac.toNat * 2 + pr
  let now := elNs s
  let fresh1 : SrcEntry := { hi := seq, map := 1, dupMax := 0, lastEl := now, hiEl := now }
  match tget s.net.unknown key with
  | none => (true, newEntry key fresh1 s)
  | some e =>
    if e.lastEl + (getPair2 s pr).forgetMs * 1000000 < now then (true, newEntry key fresh1 s)
    else
      let d := (e.hi - seq).toNat
      if d < 64 ∧ e.map.getLsbD d then
        let s1 := newEntry key { e with dupMax := max e.dupMax d } (bump (pairCnt pr 0x40) s)
        let s2 := if d = 0 then noteSkew pr ((now - e.hiEl) / 1000) mac s1 else s1
        (false, noteDup pr d mac s2)
      else if d < 64 then (true, newEntry key { e with map := e.map ||| (1#64 <<< d), lastEl := now } s)
      else if 32768 ≤ d then
        let sh := (seq - e.hi).toNat
        (true, newEntry key { e with hi := seq, map := (if sh < 64 then e.map <<< sh else 0) ||| 1, lastEl := now, hiEl := now } s)
      else (true, newEntry key { e with lastEl := now } (bump (pairCnt pr 0x48) s))

/-! ### Ingress queues (R125, R126) -/

/-- Bytes that a frame takes in an ingress queue: whole 64-bit words (R133). -/
def queued (len : Nat) : Nat := (len + 7) / 8 * 8

/-- Occupancy of an ingress queue, bytes. -/
def occBytes (p : Port) : Nat := p.inq.foldl (fun n f => n + queued f.len) 0

/-- Occupancy, %. -/
def occPct (p : Port) : Nat := occBytes p * 100 / 65536

/-- Threshold of a class, %. -/
def thrOf (p : Port) : Cls → Nat
  | .c3 => p.thrC3
  | .c2 => p.thrC2
  | .c1 => p.thrC1
  | .c0 => 100

/-- Drop counter of a class (Table 4.10). -/
def dropCnt (k : Nat) (c : Cls) : Nat := portCnt k (0x58 + 8 * (3 - c.num))

/-- Remove the first frame of a class that no reader has begun. -/
def removeNew (c : Cls) : List InFrame → Option (List InFrame)
  | [] => none
  | f :: t => if f.cls = c ∧ f.begun = false then some t else (removeNew c t).map (fun u => f :: u)

/-- Reclaim one frame for C0: the lowest class, the newest frame of it (R126). -/
def reclaimOne (q : List InFrame) : Option (Cls × List InFrame) :=
  let r := q.reverse
  match removeNew .c3 r with
  | some t => some (.c3, t.reverse)
  | none => match removeNew .c2 r with
    | some t => some (.c2, t.reverse)
    | none => match removeNew .c1 r with
      | some t => some (.c1, t.reverse)
      | none => none

/-- A class drop. -/
def countDrop (k : Nat) (c : Cls) (s : State) : State :=
  let s1 := bump (dropCnt k c) s
  if c = .c1 then modPort k (fun p => { p with dropC1Now := true }) s1 else s1

/-- Make room for a C0 frame, `len` with what the writer's view overstates. -/
def reclaim (k len : Nat) : Nat → State → State
  | 0, s => s
  | n + 1, s =>
    let p := getPort s k
    if occBytes p + len ≤ 65536 then s
    else match reclaimOne p.inq with
      | none => s
      | some (c, q) => reclaim k len n (bump (portCnt k 0x78) (countDrop k c (setPort k { p with inq := q } s)))

/-- Put a frame into its port's queue, or drop it by its class: whether it entered. The writer's view of the occupancy overstates it by up to
3 words (R133), how many being a free value. -/
def enterIn (k : Nat) (f : InFrame) (s0 : State) : Bool × State :=
  let (x, s) := fresh s0
  let surplus := x % 4 * 8
  let put (t : State) : State :=
    modPort k (fun p => let q := { p with inq := p.inq ++ [f] }; { q with occHwm := max q.occHwm (occPct q) }) t
  let p := getPort s k
  match f.cls with
  | .c0 =>
    let s1 := reclaim k (queued f.len + surplus) p.inq.length s
    if occBytes (getPort s1 k) + queued f.len + surplus ≤ 65536 then (true, put s1)
    else
      let s2 := countDrop k .c0 s1
      (false, raise 0x0408 3 (BitVec.ofNat 8 k :: leBytes 8 (cntGet s2 (dropCnt k .c0))) none s2)
  | c =>
    if thrOf p c * 65536 ≤ (occBytes p + surplus) * 100 ∨ 65536 < occBytes p + surplus + queued f.len then (false, countDrop k c s) else (true, put s)

/-- Remove the first frame of a class. -/
def removeCls (c : Cls) : List InFrame → List InFrame
  | [] => []
  | f :: t => if f.cls = c then t else f :: removeCls c t

/-- A stalled ingress reader takes no frame but C0 (R389, R390). -/
def readerHeld (s : State) (k : Nat) (c : Cls) : Bool := isStalled s k && decide (c ≠ .c0)

/-- A consumer has taken the oldest frame of a class from a port's queue. -/
def popIn (k : Nat) (c : Cls) (s : State) : State :=
  if (getPort s k).inq = [] then s else modPort k (fun p => { p with inq := removeCls c p.inq }) s

/-- Words read with poison at a port's queue, with INGEST-POISON at most once per second (R134). -/
def poisonPort (k words : Nat) (s : State) : State :=
  if words = 0 then s
  else
    let s1 := bumpBy 0x05000128 words s
    let p := getPort s1 k
    if secondSince s1 p.lastPoisonEvtEl then
      raise 0x050C 2 ([0, BitVec.ofNat 8 k] ++ leBytes 8 (cntGet s1 0x05000128)) none (setPort k { p with lastPoisonEvtEl := some (elNs s) } s1)
    else s1

end Sys2Proof.Machine
end

