-- ==== Sys2Proof/Machine/AlignOps.lean ====
section
/-!
DEFINITION. Operations of the Clover aligner (06_alignment.md): grids and their pool, slabs with their releases, fills and patches, the
landing of reports, and publications.
-/

namespace Sys2Proof.Machine

/-! ### Streams -/

def getStream (s : State) (h : Nat) : Option Stream := tget s.ing.streams h
def setStream (h : Nat) (v : Stream) (s : State) : State := { s with ing := { s.ing with streams := tset s.ing.streams h v } }
def modStream (h : Nat) (f : Stream → Stream) (s : State) : State := { s with ing := { s.ing with streams := tmod s.ing.streams h f } }

/-- Channels of the active configuration: the descriptors in use. -/
def nChans (v : Stream) : Nat := (v.descs.filter (fun d => decide (d.kind ≠ 0))).length

/-- Reporting rate in force. -/
def streamRate (v : Stream) : Option Nat :=
  match v.active with
  | some c => if 0 < c.dataRate then some c.dataRate.toNat else none
  | none => if v.svRate ≠ 0 then some v.svRate else none

/-- The stream holding a channel handle, with the position. -/
def chanOwner (s : State) (ch : Nat) : Option (Nat × Nat) :=
  (tfind (fun _ v => decide (v.chanBase ≤ ch ∧ ch < v.chanBase + v.maxChannels)) s.ing.streams).map (fun (h, v) => (h, ch - v.chanBase))

/-- The descriptor of a channel handle; none where its kind is 0. -/
def chanDesc (s : State) (ch : Nat) : Option ChanDesc :=
  match chanOwner s ch with
  | some (h, p) => (getStream s h).bind (fun v => (v.descs[p]?).bind (fun d => if d.kind = 0 then none else some d))
  | none => none

/-- Kind of a channel handle (Table 5.7), 0 where unused. -/
def chanKind (s : State) (ch : Nat) : Nat := (chanDesc s ch).elim 0 (fun d => d.kind)

/-! ### Grids -/

def getGrid (s : State) (g : Nat) : Grid := tgetD s.aln.grids g .init
def setGrid (g : Nat) (v : Grid) (s : State) : State := { s with aln := { s.aln with grids := tset s.aln.grids g v } }
def modGrid (g : Nat) (f : Grid → Grid) (s : State) : State := setGrid g (f (getGrid s g)) s
def getSlab (s : State) (g tag : Nat) : Option Slab := tget (getGrid s g).slabs tag
def setSlab (g tag : Nat) (v : Slab) (s : State) : State := modGrid g (fun r => { r with slabs := tset r.slabs tag v }) s
def modSlab (g tag : Nat) (f : Slab → Slab) (s : State) : State := modGrid g (fun r => { r with slabs := tmod r.slabs tag f }) s

/-- Address of counter i of a grid (Table 6.10). -/
def gridCnt (g i : Nat) : Nat := 0x06001080 + g * 0x100 + 8 * i

/-- The first 1 µs tick of the device clock at or after an instant, and the tick reached last (R164). -/
def tickUp (t : Nat) : Nat := (t + 999) / 1000 * 1000
def tickNow (s : State) : Nat := taiNs s / 1000 * 1000

/-- Slots of a grid's ring (R159). -/
def slotsOf (rate windowMs : Nat) : Nat := (windowMs * rate + 999) / 1000 + 10

/-- Streams of a grid that have room. -/
def onGrid (s : State) (g : Nat) : List (Nat × AlnStream) := s.aln.streams.filter (fun e => decide (e.2.grid = g) && e.2.placed)

/-- Bytes of a grid's ring with a window, some streams and their cells (R159, R160). -/
def ringBytes (g windowMs streams cells : Nat) : Nat := slotsOf (rateOfGrid g) windowMs * (cells * 8 + (streams + 7) / 8 + 64)

/-- Cells that a stream takes in a slot: first, and first beyond. -/
def cellSpan (s : State) (e : Nat × AlnStream) : Nat × Nat :=
  (e.2.cellBase, e.2.cellBase + (getStream s e.1).elim 0 (fun v => v.maxChannels))

/-- Cells of a slot of a grid: up to the last that a stream takes. -/
def cellsOf (s : State) (g : Nat) : Nat := (onGrid s g).foldl (fun n e => max n (cellSpan s e).2) 0

/-- Slab pool in use by a grid, with a window. -/
def gridBytes (s : State) (g windowMs : Nat) : Nat :=
  if (getGrid s g).active then ringBytes g windowMs (onGrid s g).length (cellsOf s g) else 0

/-- Slab pool in use. -/
def poolBytes (s : State) : Nat := (List.range 20).foldl (fun n g => n + gridBytes s g (getGrid s g).cfg.windowMs) 0

/-- Pool size in bytes. -/
def poolSize (s : State) : Nat := s.aln.poolMib * 2 ^ 20

/-- Bring the high-water mark up, and raise SLAB-POOL-HIGH at 90 % (R160). -/
def poolCheck (s : State) : State :=
  let used := poolBytes s
  let hi := decide (poolSize s * 9 ≤ used * 10) && decide (0 < used)
  let pct := if poolSize s = 0 then 0 else used * 100 / poolSize s
  raiseIf (hi && !s.aln.poolHigh) 0x0603 1 (leBytes 4 (used / 2 ^ 20) ++ leBytes 4 s.aln.poolMib) none
    { s with aln := { s.aln with poolHigh := hi, usedHwm := max s.aln.usedHwm pct } }

/-- A grid is active while a stream or a publication uses it (R158). Slabs of one that is not stay until they have passed to HISTORY. -/
def gridCheck (g : Nat) (s : State) : State :=
  let want := s.aln.streams.any (fun e => decide (e.2.grid = g)) || s.aln.pubs.any (fun e => decide (e.2.grid = g))
  let have_ := (getGrid s g).active
  if want ∧ have_ = false then
    poolCheck (raise 0x0601 0 (BitVec.ofNat 8 g :: leBytes 2 (rateOfGrid g)) none (modGrid g (fun r => { r with active := true }) s))
  else if want = false ∧ have_ then
    poolCheck (raise 0x0602 0 [BitVec.ofNat 8 g] none (modGrid g (fun r => { r with active := false }) s))
  else s

/-! ### Cells -/

/-- What a cell that nothing has written holds; the spec states no value. -/
def staleCell (h tag p : Nat) : Cell :=
  { value := Config.unpredValue h tag p, angle := Config.unpredAngle h tag p, quality := Config.unpredQuality h tag p }

/-- The visible cell of a stream's position in a slab. -/
def slabCell (v : Slab) (h p : Nat) : Option SlabCell := (tgetD v.cells h [])[p]?

/-- The bytes of a cell (Table 5.4). -/
def Cell.bytes (c : Cell) : Bytes := leBytes 4 c.value.toNat ++ leBytes 2 c.quality.toNat ++ leBytes 2 c.angle.toNat

/-- Bytes of a stream's cells in a slab, for `n` positions. -/
def cellBytes (v : Slab) (h tag n : Nat) : Bytes :=
  ((List.range n).map (fun p => (((slabCell v h p).map (fun c => c.cell)).getD (staleCell h tag p)).bytes)).flatten

/-- Difference of two angles in the signed range (R167). -/
def wrapAng (d : Int) : Int := (d + 32768) % 65536 - 32768

/-- A cell serves as a base (R167). -/
def baseCell (s : State) (g h p idx : Nat) (cfgTag : Option Nat) : Option Cell :=
  let t := gridInstant (rateOfGrid g) idx
  match getSlab s g t, cfgTag with
  | some v, some ct =>
    if t < ct then none
    else match slabCell v h p with
      | some c => if c.received && !c.cell.quality.getLsbD 0 && !c.cell.quality.getLsbD 4 then some c.cell else none
      | none => none
  | _, _ => none

/-- Second differences of the bases n−1 … n−8, where three neighbours are bases: the six that Table 6.3 takes. -/
def secondDiffs {α β : Type} (f : α → α → α → β) : List (Option α) → List β
  | some a :: some b :: some c :: t => f a b c :: secondDiffs f (some b :: some c :: t)
  | _ :: t => secondDiffs f t
  | [] => []

/-- Second difference of values, as magnitude. -/
def valDiff (a b c : Cell) : Scale := qabs (qadd (qsub (f32val a.value) (qmul (qNat 2) (f32val b.value))) (f32val c.value))

/-- Second difference of angles. -/
def angDiff (a b c : Cell) : Nat :=
  let d1 := wrapAng ((a.angle.toNat : Int) - (b.angle.toNat : Int))
  let d2 := wrapAng ((b.angle.toNat : Int) - (c.angle.toNat : Int))
  (wrapAng (d1 - d2)).natAbs

/-- Floor of the half-width of a value (Table 6.3). -/
def valFloor (kind : Nat) (x : Scale) : Scale :=
  match kind with
  | 3 => ⟨1, 1000⟩
  | 4 => ⟨1, 100⟩
  | _ => qmul ⟨5, 10000⟩ (qabs x)

/-- One-step prediction of a channel (R167, Table 6.3) from the bases n−1 … n−8; none where it is unpredictable. -/
def predict (kind predK : Nat) (base : List (Option Cell)) : Option SlabCell :=
  match base with
  | some c1 :: some c2 :: _ =>
    let ds := secondDiffs valDiff base
    if ds.length < 2 then none
    else
      let q := (c1.quality &&& 0xFF3F) ||| 0x20
      if kind = 6 then
        some { cell := { c1 with quality := q }, received := false, fill := some ⟨0, 0, ds.length, true⟩ }
      else
        let x1 := f32val c1.value
        let fin := (f32toQ c1.value).isSome && (f32toQ c2.value).isSome
        let p := if fin then f32ofQ (qsub (qmul (qNat 2) x1) (f32val c2.value)) else Config.extrapInf c1.value c2.value
        let h := if fin then f32ofQ (qadd (qmul (qmk predK 4) (ds.foldl qmax qZero)) (valFloor kind x1)) else Config.widthInf c1.value c2.value
        if kind = 1 ∨ kind = 2 then
          let w := wrapAng ((c1.angle.toNat : Int) - (c2.angle.toNat : Int))
          let a := BitVec.ofInt 16 ((c1.angle.toNat : Int) + w)
          let m := (secondDiffs angDiff base).foldl max 0
          let ha := min 32767 ((predK * m + 3) / 4 + 16)
          some { cell := ⟨p, q, a⟩, received := false, fill := some ⟨h, BitVec.ofNat 16 ha, ds.length, false⟩ }
        else some { cell := ⟨p, q, 0⟩, received := false, fill := some ⟨h, 0, ds.length, false⟩ }
  | _ => none

/-- The fill of one position of a stream (R167): the cell, and whether it was predicted. -/
def fillCell (s : State) (g tag h p kind predK : Nat) (cfgTag : Option Nat) : SlabCell × Bool :=
  let n := gridIndex (rateOfGrid g) tag
  let base := (List.range 8).map (fun j => if n < j + 1 then none else baseCell s g h p (n - (j + 1)) cfgTag)
  let c := staleCell h tag p
  (predict kind predK base).elim
    ({ cell := { c with quality := (c.quality &&& 0xFFDF) ||| 1 }, received := false, fill := none }, false) (fun x => (x, true))

/-- Fill one missing stream of a slab. -/
def fillStream (g tag h : Nat) (s : State) : State :=
  match getStream s h, getSlab s g tag, tget s.aln.streams h with
  | some v, some sl, some a =>
    let r := (v.descs.take (nChans v)).zipIdx.map (fun (d, p) => fillCell s g tag h p d.kind sl.cfg.predK a.cfgTag)
    let ok := (r.filter (fun x => x.2)).length
    let s1 := modSlab g tag (fun x => { x with cells := tset x.cells h (r.map (·.1)), filled := x.filled + r.length }) s
    bumpBy (gridCnt g 9) (r.length - ok) (bumpBy (gridCnt g 8) ok s1)
  | _, _, _ => s

/-- Expected streams that are missing. -/
def missing (v : Slab) : List (Nat × Nat) := v.expected.filter (fun e => decide (e.1 ∉ v.present))

/-- Fill every missing expected stream (R167). -/
def fillSlab (g tag : Nat) (s : State) : State :=
  match getSlab s g tag with
  | none => s
  | some v => (missing v).foldl (fun t e => fillStream g tag e.1 t) (modSlab g tag (fun x => { x with filled := 0 }) s)

/-! ### Merging reports held apart -/

/-- A value lies outside the interval of the fill it replaces (R168, R169). -/
def outside (kind : Nat) (old : SlabCell) (new : Cell) : Bool :=
  match old.fill with
  | none => false
  | some f =>
    if new.quality.getLsbD 0 ∨ (f32toQ new.value).isNone then false
    else
      let out := qlt (f32val f.hVal) (qabs (qsub (f32val new.value) (f32val old.cell.value)))
      let arc := (wrapAng ((new.angle.toNat : Int) - (old.cell.angle.toNat : Int))).natAbs
      if kind = 1 ∨ kind = 2 then out || decide (f.hAng.toNat < arc) else out

/-- Put a cell at a position of a stream's cells in a slab. -/
def putCell (h tag p : Nat) (c : SlabCell) (l : List SlabCell) : List SlabCell :=
  let pad := (List.range (p + 1 - l.length)).map (fun i =>
    { cell := staleCell h tag (l.length + i), received := false, fill := none : SlabCell })
  (l ++ pad).set p c

/-- Reports that land on fills of a stream and lie outside their intervals. -/
def misses (kinds : List Nat) (old : List SlabCell) (l : List (Nat × Cell)) : Nat :=
  (l.filter (fun e => (old[e.1]?).elim false (fun o => outside (lget kinds e.1 0) o e.2))).length

/-- Make the reports held apart visible (R162): stream, position and cell of each, first held first. -/
def mergeHeld (g tag : Nat) (s : State) : List (Nat × Nat × Cell) × State :=
  match getSlab s g tag with
  | none => ([], s)
  | some v =>
    let step (acc : List (Nat × Nat × Cell) × State) (e : Nat × List (Nat × Cell)) : List (Nat × Nat × Cell) × State :=
      let (h, cs) := e
      (acc.1 ++ cs.map (fun (p, c) => (h, p, c)),
       modSlab g tag (fun x =>
         { x with cells := tset x.cells h (cs.foldl (fun l (p, c) => putCell h tag p ⟨c, true, none⟩ l) (tgetD x.cells h [])) }) acc.2)
    let (l, s1) := v.held.foldl step ([], s)
    (l, modSlab g tag (fun x => { x with held := [], heldTs := 0, merged := v.held.map (·.1),
                                         fixes := if v.state = .final then v.fixes ++ l.map (fun e => (e.1, e.2.1)) else v.fixes }) s1)

/-! ### Publications -/

def getPub (s : State) (n : Nat) : Option Pub := tget s.aln.pubs n
/-- A publication as it stands for the slab of a tag: its member list is the one in force there (R182). -/
def Pub.at (p : Pub) (tag : Nat) : Pub :=
  match p.older.find? (fun e => decide (tag < e.1)) with
  | some e => { p with members := e.2 }
  | none => p

def modPub (n : Nat) (f : Pub → Pub) (s : State) : State := { s with aln := { s.aln with pubs := tmod s.aln.pubs n f } }

/-- PUB-STATE-CHANGED codes (Table 6.11). -/
def PubState.num : PubState → Nat
  | .enabled => 1
  | .disabled => 2
  | .off => 3
  | .suspended => 4

/-- A publication changes state: cause 0 command, 1 receiver, 2 oversize (Table 6.7). -/
def pubState (n : Nat) (st : PubState) (cause : Nat) (s : State) : State :=
  match getPub s n with
  | none => s
  | some p =>
    if p.state = st then s
    else raise 0x0608 1 (leBytes 2 n ++ [BitVec.ofNat 8 p.state.num, BitVec.ofNat 8 st.num, BitVec.ofNat 8 cause]) (some p.owner)
      (modPub n (fun x => { x with state := st }) s)

/-- A member can be published: on the grid, ACTIVE. -/
def memberPresent (s : State) (g h : Nat) : Bool :=
  match getStream s h, tget s.aln.streams h with
  | some v, some a => decide (v.state = .active ∧ a.grid = g)
  | _, _ => false

/-- Bytes of a member's block on the wire (R177): STAT, the channels by kind, and FREQ and DFREQ also where it has no such channels. -/
def memberBytes (s : State) (h : Nat) : Nat :=
  match getStream s h with
  | none => 10
  | some v =>
    let ds := v.descs.take (nChans v)
    let fr := ds.any (fun d => decide (d.kind = 3 ∨ d.kind = 4))
    2 + (if fr then 0 else 8) +
      ds.foldl (fun n d => n + (match d.kind with
        | 1 => 8
        | 2 => 8
        | 6 => 2
        | _ => 4)) 0

/-- Length of a publication's C37.118 data frame (R177). -/
def c37Len (s : State) (ms : List Nat) : Nat := ms.foldl (fun n h => n + memberBytes s h) 16

/-- First port of a target and whether it is a pair. -/
def targetPort (t : Nat) : Nat := if 16 ≤ t then 2 * (t - 16) else t
def targetPair (t : Nat) : Bool := decide (16 ≤ t)

/-- Frame length from destination address to payload. -/
def udpLen (v6 : Bool) (payload : Nat) : Nat := 14 + (if v6 then 40 else 20) + 8 + payload

/-- Wire frame length on the target port, with RCT and FCS. -/
def pubFrameBytes (s : State) (target : Nat) (v6 : Bool) (ms : List Nat) : Nat :=
  let n := udpLen v6 (c37Len s ms)
  if targetPair target then max n 54 + 10 else max n 60 + 4

/-- The wire frame fits every port of the target (R177). -/
def pubFits (s : State) (target : Nat) (v6 : Bool) (ms : List Nat) : Bool :=
  let n := pubFrameBytes s target v6 ms
  let k := targetPort target
  decide (n ≤ (getPort s k).maxFrame) && (!targetPair target || decide (n ≤ (getPort s (k + 1)).maxFrame))

/-- A member's configuration has changed (R177, R178). -/
def pubMemberCfg (h : Nat) (s : State) : State :=
  s.aln.pubs.foldl (fun t e =>
    if h ∈ e.2.members then
      let v6 := e.2.options.getLsbD 3
      let t1 := modPub e.1 (fun p => { p with cfgCnt := p.cfgCnt + 1, chgFrom := some (p.chgFrom.getD 0)
                                              frameBytes := if p.host then 0 else pubFrameBytes t p.target v6 p.members }) t
      if e.2.host = false ∧ e.2.state = .enabled ∧ pubFits t e.2.target v6 e.2.members = false then pubState e.1 .suspended 2 t1 else t1
    else t) s

/-- A member has left its grid, is paused or is retiring: PUB-MEMBER-OFFGRID once (R175); one that is back can raise it again. -/
def pubMemberGrid (h : Nat) (s : State) : State :=
  s.aln.pubs.foldl (fun t e =>
    if h ∈ e.2.members then
      if memberPresent t e.2.grid h then modPub e.1 (fun p => { p with offgrid := p.offgrid.filter (fun x => decide (x ≠ h)) }) t
      else if h ∈ e.2.offgrid then t
      else raise 0x060A 1 (leBytes 2 e.1 ++ leBytes 4 h) (some e.2.owner) (modPub e.1 (fun p => { p with offgrid := h :: p.offgrid }) t)
    else t) s

/-- Channel count of a member in force at slab open (Table 6.9). -/
def memberCells (v : Slab) (h : Nat) : Nat := tgetD v.nChans h 0

/-- Flags of a member header (Table 6.9). -/
def memberFlags (s : State) (g : Nat) (v : Slab) (h : Nat) : Nat :=
  (if h ∈ v.present then 1 else 0) + (if (tgetD v.cells h []).any (fun c => c.fill.isSome) then 2 else 0) +
  (if memberPresent s g h then 0 else 4)

/-- Fill records of a stream from a record cell index on (Table 6.4). -/
def fillRecs (cells : List SlabCell) (base : Nat) : Bytes :=
  (cells.zipIdx.map (fun (c, i) => match c.fill with
    | some f => leBytes 4 (base + i) ++ leBytes 4 f.hVal.toNat ++ leBytes 2 f.hAng.toNat ++
        [BitVec.ofNat 8 f.nDiff, if f.hold then 1 else 0] ++ leBytes 4 0
    | none => [])).flatten

/-- Member, its first cell index in the record, and its cell count. -/
def memberBases (v : Slab) : List Nat → Nat → List (Nat × Nat × Nat)
  | [], _ => []
  | h :: t, b => (h, b, memberCells v h) :: memberBases v t (b + memberCells v h)

/-- Header of a host record (Table 6.8). -/
def recHead (n kind cause cells tag ts fills : Nat) : Bytes :=
  leBytes 2 n ++ [BitVec.ofNat 8 kind, BitVec.ofNat 8 cause] ++ leBytes 4 cells ++ leBytes 8 tag ++ leBytes 8 ts ++ leBytes 4 fills ++
  leBytes 4 0

/-- A FINAL record (R180). -/
def finalRec (s : State) (n : Nat) (p : Pub) (v : Slab) (tag cause : Nat) : Bytes :=
  let ms := memberBases v p.members 0
  let body := (ms.map (fun (h, _, k) =>
    leBytes 4 h ++ leBytes 2 k ++ leBytes 2 (memberFlags s p.grid v h) ++ cellBytes v h tag k)).flatten
  let fills := if p.options.getLsbD 1 then (ms.map (fun (h, b, k) => fillRecs ((tgetD v.cells h []).take k) b)).flatten else []
  recHead n 0 cause (ms.foldl (fun a m => a + m.2.2) 0) tag (taiNs s) (fills.length / 16) ++ body ++ fills

/-- Write a record to a host publication's ring, or skip it (R19, R180). -/
def pubRecord (n : Nat) (p : Pub) (tag : Nat) (data : Bytes) (patch absent : Bool) (s : State) : State :=
  match ringWrite p.owner p.ring (.publication n) data s with
  | some t => modPub n (fun x => { x with frames := sat1 x.frames, lastTag := tag, lastLaunch := taiNs s
                                          patchRecs := if patch then sat1 x.patchRecs else x.patchRecs
                                          incomplete := if absent then sat1 x.incomplete else x.incomplete }) t
  | none => modPub n (fun x => { x with skipped := sat1 x.skipped }) s

/-- Slab causes (Table 6.12). -/
def SlabCause.num : SlabCause → Nat
  | .none => 0
  | .complete => 1
  | .deadline => 2
  | .step => 3

/-- Host publications take a final release. -/
def pubFinal (g tag : Nat) (s : State) : State :=
  match getSlab s g tag with
  | none => s
  | some v =>
    s.aln.pubs.foldl (fun t e =>
      if e.2.host ∧ e.2.grid = g then
        let p := e.2.at tag
        if e.2.state = .enabled then
          pubRecord e.1 p tag (finalRec t e.1 p v tag v.cause.num) false (p.members.any (fun h => !memberPresent t g h)) t
        else modPub e.1 (fun x => { x with skipped := sat1 x.skipped }) t
      else t) s

/-- Publications take a patch release (R173, R180): a PATCH record for each, whether it touches a member or not. -/
def pubPatch (g tag : Nat) (l : List (Nat × Nat × Cell)) (s : State) : State :=
  match getSlab s g tag with
  | none => s
  | some v =>
    s.aln.pubs.foldl (fun t e =>
      if e.2.grid ≠ g ∨ e.2.state ≠ .enabled then t
      else if e.2.host then
        let ms := memberBases v (e.2.at tag).members 0
        let ents := l.filterMap (fun (h, p, c) => (ms.find? (fun m => decide (m.1 = h ∧ p < m.2.2))).map (fun m =>
          leBytes 4 (m.2.1 + p) ++ leBytes 4 0 ++ c.bytes))
        if e.2.options.getLsbD 0 then
          pubRecord e.1 e.2 tag (recHead e.1 1 0 ents.length tag (taiNs t) 0 ++ ents.flatten) true false t
        else t
      else if tag ≤ e.2.builtTag ∧ l.any (fun x => decide (x.1 ∈ (e.2.at tag).members)) then modPub e.1 (fun x => { x with latePatch := sat1 x.latePatch }) t
      else t) s

/-! ### Releases -/

/-- A release taken more than 10 µs after its condition was met (R165). -/
def noteLate (g tag due : Nat) (s : State) : State :=
  if due + 10000 < taiNs s then
    raise 0x060B 2 (BitVec.ofNat 8 g :: (leBytes 8 tag ++ leBytes 4 ((taiNs s - due) / 1000))) none (bump 0x06000100 s)
  else s

/-- The final release of a slab (R162, R164). -/
def finalRelease (g tag : Nat) (cause : SlabCause) (s0 : State) : State :=
  match getSlab s0 g tag with
  | none => s0
  | some v0 =>
    if v0.state ≠ .forming ∧ v0.state ≠ .speculative then s0
    else
      let s1 := (mergeHeld g tag s0).2
      let s2 := if cause = .complete then s1 else fillSlab g tag s1
      let now := taiNs s2
      let lag := (now - tag) / 1000
      let s3 := modSlab g tag (fun v => { v with state := .final, cause, finalTs := now }) s2
      let s4 := modGrid g (fun r => { r with lastFinalTs := now, finalLagUs := lag, finalLagMaxUs := max r.finalLagMaxUs lag }) s3
      let s5 := match cause with
        | .complete => bump (gridCnt g 2) s4
        | .deadline => bump (gridCnt g 3) s4
        | _ => s4
      let s6 := pubFinal g tag s5
      match getSlab s6 g tag with
      | none => s6
      | some v => kernelSlab g tag (fun h => cellBytes v h tag ((getStream s6 h).elim 0 (fun x => x.maxChannels))) s6

/-- Release a slab that is complete. -/
def checkComplete (g tag : Nat) (s : State) : State :=
  match getSlab s g tag with
  | some v => if (v.state = .forming ∨ v.state = .speculative) ∧ missing v = [] then finalRelease g tag .complete s else s
  | none => s

/-- The speculative release (R164). -/
def specRelease (g tag : Nat) (s : State) : State :=
  let s1 := fillSlab g tag (mergeHeld g tag s).2
  let now := taiNs s1
  bump (gridCnt g 1) (modGrid g (fun r => { r with lastSpecTs := now })
    (modSlab g tag (fun v => { v with state := .speculative, specTs := now }) s1))

/-- A patch release (R174). -/
def patchNow (g tag : Nat) (s : State) : State :=
  let (l, s1) := mergeHeld g tag s
  if l = [] then s1
  else
    let s2 := bump (gridCnt g 4) (modSlab g tag (fun v => { v with patches := v.patches + 1, lastPatchTs := taiNs s }) s1)
    pubPatch g tag l s2

/-- Releases a slab has had. -/
def releases (v : Slab) : Nat := (if v.specTs = 0 then 0 else 1) + (if v.finalTs = 0 then 0 else 1) + v.patches

/-- Close the open decisions of a slab in HISTORY (Table 6.5). -/
def closeDecisions (g tag : Nat) (s : State) : State :=
  match getSlab s g tag with
  | none => s
  | some v =>
    if v.state ≠ .history ∨ v.closed then s
    else
      let open_ (f : Decision → Bool) : Nat := tcount (fun _ d => f d) v.decisions
      let s1 := bumpBy (gridCnt g 13) (open_ (fun d => decide (d.status = .undecided) && d.lastUnknown)) s
      let s2 := bumpBy (gridCnt g 12) (open_ (fun d => decide (d.status = .raisedPredicted))) s1
      modSlab g tag (fun x =>
        { x with closed := true
                 decisions := tmap (fun _ d => if d.status = .undecided then { d with status := .notRaised } else d) x.decisions }) s2

/-- The clusterer has still to evaluate a release of a slab on which something is open. -/
def evalOpen (s : State) (g : Nat) (v : Slab) : Bool :=
  decide (s.isl.cfg.grid = some g ∧ v.evals < releases v) &&
  (decide (v.evals = 0) || v.decisions.any (fun d => decide (d.2.status = .undecided ∨ d.2.status = .raisedPredicted)))

/-- A slab enters HISTORY (Table 6.2): fills and a final release first where it had none, then a last patch. Its open decisions are closed when
the clusterer has evaluated that last release. -/
def toHistory (g tag : Nat) (s0 : State) : State :=
  let s1 := patchNow g tag (finalRelease g tag .deadline s0)
  match getSlab s1 g tag with
  | none => s1
  | some v =>
    if v.state = .history then s1
    else
      let s2 := modSlab g tag (fun x => { x with state := .history }) s1
      if evalOpen s2 g v then s2 else closeDecisions g tag s2

/-- Slabs leave their slots. -/
def dropSlabs (g : Nat) (tags : List Nat) (s : State) : State :=
  tags.foldl (fun t tag => modGrid g (fun x => { x with slabs := tdel x.slabs tag }) (closeDecisions g tag (toHistory g tag t))) s

/-- The lowest slot that no slab of a grid holds. -/
def freeSlotNo (slabs : Tbl Slab) : Nat :=
  ((List.range (slabs.length + 1)).find? (fun n => !slabs.any (fun e => decide (e.2.slot = n)))).getD slabs.length

/-- Keep at most `n` slabs: the oldest in HISTORY go first, failing those the oldest. The slabs kept lie in the first `n` slots. -/
def trimRing (g n : Nat) (s : State) : State :=
  let tags (t : State) (h : Bool) : List Nat := ((getGrid t g).slabs.filter (fun e => decide (e.2.state = .history) == h)).map (·.1)
  let ex := (getGrid s g).slabs.length - n
  let old := (tags s true).take ex
  let s1 := dropSlabs g (old ++ (tags s false).take (ex - old.length)) s
  ((getGrid s1 g).slabs.filter (fun e => decide (n ≤ e.2.slot))).foldl (fun t e =>
    modSlab g e.1 (fun v => { v with slot := freeSlotNo (getGrid t g).slabs }) t) s1

/-! ### Opening -/

/-- The deadline offset of an expected stream (R163), raising STREAM-WAIT-CAPPED when it becomes capped. -/
def deadlineOf (g h : Nat) (v : Stream) (c : GridCfg) (s : State) : Nat × State :=
  let max_ := c.maxWaitMs * 1000
  if 16 ≤ v.latN ∧ s.clk.timeValid then
    let w := v.latQ + c.marginUs
    let capped := decide (max_ < w)
    let was := (tget s.aln.streams h).elim false (fun a => a.capped)
    let s1 := { s with aln := { s.aln with streams := tmod s.aln.streams h (fun a => { a with capped, dUs := min w max_ }) } }
    (min w max_, raiseIf (capped && !was) 0x0605 1 (leBytes 4 h ++ [BitVec.ofNat 8 g] ++ leBytes 4 v.latQ ++ leBytes 2 c.maxWaitMs)
      (some v.owner) s1)
  else (max_, { s with aln := { s.aln with streams := tmod s.aln.streams h (fun a => { a with dUs := max_ }) } })

/-- Free a slot for a new slab. -/
def freeSlot (g : Nat) (s : State) : State := trimRing g (slotsOf (rateOfGrid g) (getGrid s g).cfg.windowMs - 1) s

/-- Open a slab (R162, R163). -/
def openSlab (g tag : Nat) (s0 : State) : State :=
  let s := freeSlot g s0
  let c := (getGrid s g).cfg
  let cand := (onGrid s g).filter (fun e => match getStream s e.1 with
    | some v => decide (v.state = .active) && !v.silent
    | none => false)
  let (exp_, s1) := cand.foldl (fun (acc : Tbl Nat × State) e =>
    match getStream acc.2 e.1 with
    | some v => let (d, t) := deadlineOf g e.1 v c acc.2; (tset acc.1 e.1 d, t)
    | none => acc) ([], s)
  let counts := (onGrid s g).map (fun e => (e.1, (getStream s e.1).elim 0 nChans))
  let v : Slab := { slot := freeSlotNo (getGrid s1 g).slabs, state := .forming, cause := .none, cfg := c, expected := exp_, present := [], cells := [], held := [], heldTs := 0
                    nChans := counts, filled := 0, late := 0, patches := 0, openTs := taiNs s, openEl := elNs s, chgTs := taiNs s, specTs := 0, finalTs := 0, lastPatchTs := 0
                    byTime := s.clk.timeValid, decisions := [], closed := false, merged := [], evals := 0, screened := false, scrPatches := 0, fixes := [] }
  bump (gridCnt g 0) (modGrid g (fun r => { r with newestTag := max r.newestTag tag }) (setSlab g tag v s1))

/-! ### Streams on grids -/

/-- Remove a stream from the expected set of every open slab of a grid (R163), and release what is complete thereby. -/
def unexpect (g h : Nat) (s : State) : State :=
  ((getGrid s g).slabs.map (·.1)).foldl (fun t tag =>
    match getSlab t g tag with
    | some v =>
      if v.state = .forming ∨ v.state = .speculative then
        checkComplete g tag (modSlab g tag (fun x => { x with expected := tdel x.expected h, chgTs := taiNs t }) t)
      else t
    | none => t) s

/-- Try to place a stream in its grid's slots (R159, R160), in the lowest run of cells that no other stream takes (DESIGN CHOICE, log entry
63): SLAB-POOL-FULL tells of the first attempt. -/
def placeStream (tell : Bool) (h : Nat) (s : State) : State :=
  match tget s.aln.streams h, getStream s h with
  | some a, some v =>
    if a.placed then s
    else
      let base := (lowestGap ((onGrid s a.grid).map (cellSpan s)) v.maxChannels).getD 0
      let put : State := { s with aln := { s.aln with streams := tmod s.aln.streams h (fun x => { x with placed := true, cellBase := base }) } }
      if poolBytes put ≤ poolSize put then poolCheck put
      else
        raiseIf tell 0x0604 2 (leBytes 4 h ++ [BitVec.ofNat 8 a.grid] ++ leBytes 8 (poolBytes put - poolBytes s)) (some v.owner) s
  | _, _ => s

/-- Leave a grid. -/
def leaveGrid (h : Nat) (s : State) : State :=
  match tget s.aln.streams h with
  | none => s
  | some a =>
    let s1 := { s with aln := { s.aln with streams := tdel s.aln.streams h } }
    pubMemberGrid h (poolCheck (gridCheck a.grid (unexpect a.grid h s1)))

/-- Join the grid of a rate. -/
def joinGrid (h rate : Nat) (s : State) : State :=
  match gridOfRate rate with
  | none => s
  | some g =>
    let a : AlnStream := { grid := g, capped := false, placed := false, cellBase := 0, dUs := 0, lateMap := 0, cfgTag := none, lastQ := none }
    let s1 := { s with aln := { s.aln with streams := tset s.aln.streams h a } }
    pubMemberGrid h (placeStream true h (gridCheck g s1))

/-- Bring a stream's place on the grids in line with its state and rate (R158, R143). -/
def syncGrid (h : Nat) (s : State) : State :=
  match getStream s h with
  | none => leaveGrid h s
  | some v =>
    let want := if v.state = .active ∨ v.state = .paused then (streamRate v).bind gridOfRate else none
    let have_ := (tget s.aln.streams h).map (fun a => a.grid)
    if want = have_ then pubMemberGrid h s
    else
      let s1 := leaveGrid h s
      match want with
      | some g => joinGrid h (rateOfGrid g) s1
      | none => s1

/-! ### Landing (R161, R166, R174) -/

/-- Slabs under R166 act on the tag of a landing report. -/
def untimed (g tag : Nat) (s : State) : State :=
  ((getGrid s g).slabs.map (·.1)).foldl (fun t o =>
    match getSlab t g o with
    | none => t
    | some v =>
      if v.byTime ∧ t.clk.timeValid then t
      else
        let t1 := if (v.state = .forming ∨ v.state = .speculative) ∧ o + v.cfg.maxWaitMs * 1000000 ≤ tag then finalRelease g o .deadline t else t
        match getSlab t1 g o with
        | some w => if w.state = .final ∧ o + w.cfg.windowMs * 1000000 ≤ tag then toHistory g o t1 else t1
        | none => t1) s

/-- A position of a stream holds a received report in a slab, held ones included. -/
def receivedAt (v : Slab) (h p : Nat) : Bool :=
  (slabCell v h p).elim false (fun c => c.received) || (tgetD v.held h []).any (fun e => decide (e.1 = p))

/-- Write the cells of a frame into its slab by position, or hold them apart; INTERVAL_MISS counts as they land (R169). -/
def writeCells (g tag h : Nat) (cells : List (Nat × Cell)) (v : Slab) (s : State) : State :=
  let new := cells.filter (fun e => !receivedAt v h e.1)
  let s1 := bumpBy (gridCnt g 7) (cells.length - new.length) s
  if new = [] then s1
  else
    let s2 := modSlab g tag (fun x => { x with present := if h ∈ x.present then x.present else h :: x.present
                                               chgTs := if h ∈ x.present then x.chgTs else taiNs s }) s1
    let noted (late : Bool) (t : State) : State :=
      { t with aln := { t.aln with streams := tmod t.aln.streams h (fun a =>
          { a with lateMap := (a.lateMap <<< 1) ||| (if late then 1 else 0), lastQ := (cells.head?).map (fun c => c.2.quality)
                   cfgTag := a.cfgTag.orElse (fun _ => some tag) }) } }
    if v.state = .forming then
      noted false (modSlab g tag (fun x =>
        { x with cells := tset x.cells h (new.foldl (fun l (p, c) => putCell h tag p ⟨c, true, none⟩ l) (tgetD x.cells h [])) }) s2)
    else
      let lateCells := new.map (fun (p, c) => (p, { c with quality := c.quality ||| 0x40 }))
      let fin := decide (v.state = .final)
      let s3 := modSlab g tag (fun x => { x with held := tset x.held h (tgetD x.held h [] ++ lateCells), late := x.late + new.length
                                                 heldTs := if x.held = [] then taiNs s else x.heldTs }) s2
      let kinds := (getStream s3 h).elim [] (fun x => x.descs.map (fun d => d.kind))
      let miss := misses kinds (tgetD v.cells h []) new
      noted fin (bumpBy (gridCnt g 10) miss (bumpBy (gridCnt g 5) (if fin then new.length else 0) s3))

/-- A slab that can no longer take a report tagged `tag` (R161). -/
def leftRing (s : State) (g tag : Nat) : Bool :=
  let r := getGrid s g
  if s.clk.timeValid then decide (tag + r.cfg.windowMs * 1000000 ≤ taiNs s)
  else decide (tag + r.cfg.windowMs * 1000000 ≤ r.newestTag) && !r.slabs.isEmpty

/-- A slab boundary of a grid: moves take effect, retiring publications end, and streams not placed are tried again (R31, R160, R176). -/
def slabBoundary (g : Nat) (s0 : State) : State :=
  let s := switchMoves g s0
  let s1 := s.aln.pubs.foldl (fun t e =>
    if e.2.grid ≠ g then t
    else if e.2.retiring then
      let t1 := { t with aln := { t.aln with pubs := tdel t.aln.pubs e.1 } }
      gridCheck g (if e.2.host then unbindRing e.2.owner e.2.ring (.publication e.1) t1 else t1)
    else modPub e.1 (fun x => { x with older := x.older.filter (fun l => decide ((getGrid t g).newestTag < l.1 + 4000000000)) }) t) s
  (s1.aln.streams.filter (fun e => decide (e.2.grid = g) && !e.2.placed)).foldl (fun t e => placeStream false e.1 t) s1

/-- Reports of a stream, by position, land in the slab of their time tag (R161). A slab that opens by it while TIME_VALID is 0 is a slab
boundary. -/
def landAt (h tag : Nat) (cells : List (Nat × Cell)) (s : State) : State :=
  match tget s.aln.streams h with
  | none => s
  | some a =>
    let g := a.grid
    if a.placed = false then bump 0x06000110 s
    else if s.clk.timeValid ∧ taiNs s + 2 * periodNs (rateOfGrid g) < tag then bump 0x06000118 s
    else
      match getSlab s g tag with
      | none =>
        if leftRing s g tag then bump (gridCnt g 6) s
        else
          let s1 := openSlab g tag (if s.clk.timeValid then s else slabBoundary g s)
          match getSlab s1 g tag with
          | none => s1
          | some v => untimed g tag (checkComplete g tag (writeCells g tag h cells v s1))
      | some v =>
        if v.state = .history then bump (gridCnt g 6) s
        else untimed g tag (checkComplete g tag (writeCells g tag h cells v s))

/-- A clock step commits (R79): every open slab has its final release, SLAB-STEP-RELEASED for each grid. -/
def stepRelease (s : State) : State :=
  (List.range 20).foldl (fun t g =>
    let tags := ((getGrid t g).slabs.filter (fun e => decide (e.2.state = .forming ∨ e.2.state = .speculative))).map (·.1)
    if tags = [] then t
    else raise 0x0607 1 (BitVec.ofNat 8 g :: leBytes 4 tags.length) none (tags.foldl (fun u tag => finalRelease g tag .step u) t)) s

end Sys2Proof.Machine
end

