-- ==== Sys2Proof/Machine/Fixed.lean ====
section
/-!
DEFINITION. Functions of real numbers in fixed point to 2^-80: sine and cosine, exponential and logarithm (log entries 20 and 24).
-/

namespace Sys2Proof.Machine

/-! ### Sine and cosine of angles in 2^-16 turn -/

/-- Terms of the sine or the cosine series from x² and a first term, in fixed point. -/
def trigSeries (x2 : Int) : Nat → Nat → Int → Int → Int
  | 0, _, _, acc => acc
  | fuel + 1, k, term, acc =>
    trigSeries x2 fuel (k + 2) (-(term * x2 / ((fx * (k + 1) * (k + 2) : Nat) : Int))) (acc + term)

/-- An angle in 2^-16 turn as fixed-point radians in −π to π. -/
def radFx (a : Int) : Int := wrapAng a * 2 * piQ.num * (fx : Int) / (65536 * (piQ.den : Int))

def sinFx (a : Int) : Int := let x := radFx a; trigSeries (x * x / (fx : Int)) 24 1 x 0
def cosFx (a : Int) : Int := let x := radFx a; trigSeries (x * x / (fx : Int)) 24 0 (fx : Int) 0

/-! ### Exponential, logarithm, sine and cosine, in fixed point -/

/-- Terms of e^−x for x below 1, alternating. -/
def expSeries (x : Nat) : Nat → Nat → Int → Int → Int
  | 0, _, _, acc => acc
  | fuel + 1, k, term, acc => expSeries x fuel (k + 1) (-(term * (x : Int) / ((fx * (k + 1) : Nat) : Int))) (acc + term)

/-- e^−(n/d) in fixed point. -/
def expNegFx (n d : Nat) : Nat :=
  let x := n * fx / max d 1 / 64
  let y := (expSeries x 40 0 (fx : Int) 0).toNat
  (List.range 6).foldl (fun (a : Nat) _ => a * a / fx) y

/-- e^x of a fixed-point number. -/
def expFx (x : Int) : Int :=
  let y := expNegFx x.natAbs fx
  if x ≤ 0 then (y : Int) else ((fx * fx / max y 1 : Nat) : Int)

/-- Terms of artanh t. -/
def artanhSeries (t2 : Nat) : Nat → Nat → Nat → Nat → Nat
  | 0, _, _, acc => acc
  | fuel + 1, term, k, acc => artanhSeries t2 fuel (term * t2 / fx) (k + 2) (acc + term / k)

def artanhFx (t : Nat) : Nat := artanhSeries (t * t / fx) 40 t 1 0

/-- ln of a positive fixed-point number: of its mantissa in 1 to 2, and its power of two. -/
def lnFx (x : Nat) : Int :=
  let k : Int := (x.log2 : Int) - 80
  let m := if 0 ≤ k then x / 2 ^ k.toNat else x * 2 ^ (-k).toNat
  2 * (artanhFx ((m - fx) * fx / (m + fx)) : Int) + k * 2 * (artanhFx (fx / 3) : Int)

/-- A rational in fixed point. -/
def toFx (x : Scale) : Int := if x.den = 0 then 0 else x.num * (fx : Int) / (x.den : Int)
def ofFx (x : Int) : Scale := qmk x fx

/-- 2π in fixed point, and an angle brought to −π to π. -/
def turnFx : Int := toFx (qmul (qNat 2) piQ)
def reduceFx (x : Int) : Int := (x + turnFx / 2) % turnFx - turnFx / 2

def sinRad (x : Int) : Int := let y := reduceFx x; trigSeries (y * y / (fx : Int)) 24 1 y 0
def cosRad (x : Int) : Int := let y := reduceFx x; trigSeries (y * y / (fx : Int)) 24 0 (fx : Int) 0

end Sys2Proof.Machine
end

