-- ==== Sys2Proof/Machine/TempOps.lean ====
section
/-!
DEFINITION. Temperature readings of Sage inputs (10.5, R268, R270, R271): hosts, channels and radio nodes give them.
-/

namespace Sys2Proof.Machine

def getInput (s : State) (n : Nat) : SgInput := tgetD s.sage.inputs n .init
def setInput (n : Nat) (v : SgInput) (s : State) : State := { s with sage := { s.sage with inputs := tset s.sage.inputs n v } }
def modInput (n : Nat) (f : SgInput → SgInput) (s : State) : State := setInput n (f (getInput s n)) s

/-- Address of a counter of an input block (Table 10.9). -/
def inputCnt (n off : Nat) : Nat := 0x0A020000 + n * 0x80 + off

/-- A reading in 0.01 °C reaches an input (R268, R270, R271). -/
def applyTemp (n : Nat) (temp : Int) (invalid : Bool) (instant : Nat) (s : State) : State :=
  let i := getInput s n
  if invalid ∨ temp < -5500 ∨ 15000 < temp then bump (inputCnt n 0x50) s
  else if i.tempRead ∧ instant < i.tempTs then s
  else
    let out := decide (temp < -4000 ∨ 12000 < temp)
    let stale := decide (instant + i.staleS * 1000000000 < taiNs s)
    let par := BitVec.ofNat 8 n :: leInt 2 temp
    let s1 := setInput n { i with tempApplied := temp, tempTs := instant, tempRead := true, tempOut := out, tempStale := stale } s
    let s2 := bumpIf out (inputCnt n 0x58) s1
    let s3 := raiseIf (out && !i.tempOut) 0x0A08 1 par none s2
    if i.tempStale ∧ stale = false then raise 0x0A07 0 par none s3
    else if stale ∧ i.tempStale = false then raise 0x0A06 1 (BitVec.ofNat 8 n :: leBytes 8 instant) none s3
    else s3

/-- A report of a stream whose channels are temperature sources of inputs (R270, source 2). -/
def reportTemps (h tag : Nat) (cells : List (Nat × Cell)) (s : State) : State :=
  match getStream s h with
  | none => s
  | some v =>
    s.sage.inputs.foldl (fun t e =>
      if e.2.tempSrc = 2 then
        match cells.find? (fun x => decide (v.chanBase + x.1 = e.2.tempId)) with
        | some (_, c) => applyTemp e.1 (qround (qmul (f32val c.value) (qNat 100))) (c.quality.getLsbD 0 || (f32toQ c.value).isNone) tag t
        | none => t
      else t) s

/-- Accepted reports of a stream, by position: temperature sources, and the aligner. -/
def landReport (h tag : Nat) (cells : List (Nat × Cell)) (s : State) : State := landAt h tag cells (reportTemps h tag cells s)

end Sys2Proof.Machine
end

