-- ==== Sys2Proof/Machine/CaptureOps.lean ====
section
/-!
DEFINITION. Operations of the capture engine (09_capture_records.md): lanes and their rings, triggers with their placement, records and
their bytes, streams, and exports.
-/

namespace Sys2Proof.Machine

def getCap (s : State) (c : Nat) : Option Cap := tget s.cap.caps c
def modCap (c : Nat) (f : Cap → Cap) (s : State) : State := { s with cap := { s.cap with caps := tmod s.cap.caps c f } }

/-! ### Lanes -/

/-- Row period of a lane, ns, and rows per second. -/
def laneRate (kind rate : Nat) : Nat :=
  match kind with
  | 0 => rateOfGrid rate
  | _ => 8000 * 2 ^ rate

def lanePeriod (kind rate : Nat) : Nat :=
  match kind with
  | 0 => periodNs (rateOfGrid rate)
  | _ => 125000 / 2 ^ rate

/-- Bytes of a source's word, and of a row padded to 8 B. -/
def wordBytes (kind : Nat) : Nat :=
  match kind with
  | 0 => 8
  | 1 => 4
  | _ => 2

def rowBytes (kind n : Nat) : Nat := (wordBytes kind * n + 7) / 8 * 8

/-- Rows of a lane in some milliseconds. -/
def rowsIn (kind rate ms : Nat) : Nat := (ms * laneRate kind rate + 999) / 1000

/-- Rows a block holds (R249). -/
def rowsPerBlock (rb : Nat) : Nat := max 1 (min 4096 (65536 / max rb 1))

/-- Ring length D (R237). -/
def ringMs (pre post hold : Nat) : Nat := pre + post + hold + 500

/-- Bytes of a record slot (R249), for lanes of kind, rate and channel count. -/
def slotSize (lanes : List (Nat × Nat × Nat)) (spanMs : Nat) : Nat :=
  let ch := lanes.foldl (fun n l => n + l.2.2) 0
  128 + 32 * lanes.length + 80 * ch + 2048 +
  lanes.foldl (fun n (k, r, c) =>
    let rows := rowsIn k r spanMs
    let rb := rowBytes k c
    let per := rowsPerBlock rb
    n + rows * rb + 16 * ((rows + per - 1) / per)) 0

/-- Pool bytes a capture takes (R237), its lanes at their largest. -/
def capBytes (lanes : List (Nat × Nat × Nat)) (pre post hold slots : Nat) : Nat :=
  lanes.foldl (fun n (k, r, c) => n + rowsIn k r (ringMs pre post hold) * rowBytes k c) 0 + slots * slotSize lanes (pre + post)

/-- Pool in use. -/
def capUsed (s : State) : Nat :=
  s.cap.caps.foldl (fun n e => n + e.2.poolBytes) 0 + s.cap.imports.foldl (fun n e => n + e.2.bytes) 0 +
  s.cap.merges.foldl (fun n e => n + e.2.bytes) 0

/-- The high-water mark, and CAPTURE-POOL-HIGH at 90 % (R237). -/
def capPoolCheck (s : State) : State :=
  let size := s.cap.poolMib * 2 ^ 20
  let used := capUsed s
  let hi := decide (size * 9 ≤ used * 10 ∧ 0 < used)
  let pct := if size = 0 then 0 else used * 100 / size
  raiseIf (hi && !s.cap.poolHigh) 0x0908 1 (leBytes 4 (used / 2 ^ 20) ++ leBytes 4 s.cap.poolMib) none
    { s with cap := { s.cap with poolHigh := hi, poolHwm := max s.cap.poolHwm pct } }

/-- A voice channel runs at 16 kS/s (Table 12.3). -/
def wideband (c : VoiceCfg) : Bool := decide (c.codec = 4)

/-- Voltage roles come first among a metering point's six inputs (Table 9.8 kind: 0 voltage, 1 current). -/
def inputCurrent (n : Nat) : Bool := decide (3 ≤ n % 6)

/-! ### Values of rows -/

/-- Sign of an n-bit field. -/
def signExt (bits n : Nat) : Int := if n < 2 ^ (bits - 1) then (n : Int) else (n : Int) - (2 ^ bits : Nat)

/-- The word of a cell. -/
def cellWord (c : Cell) : U64 := BitVec.ofNat 64 (c.value.toNat + c.quality.toNat * 2 ^ 32 + c.angle.toNat * 2 ^ 48)

/-- The value of a word in its scaled unit, none where R243 skips it. -/
def wordValue (kind : Nat) (scale : Scale) (w : U64) : Option Scale :=
  let n := w.toNat
  match kind with
  | 0 =>
    let q := BitVec.ofNat 16 (n / 2 ^ 32)
    if q.getLsbD 0 ∨ q.getLsbD 5 then none else f32toQ (BitVec.ofNat 32 n)
  | 1 => if n / 2 ^ 26 % 2 = 1 then none else some (qmul (qInt (signExt 24 (n % 2 ^ 24))) scale)
  | _ => some (qmk (signExt 16 (n % 2 ^ 16)) 32768)

/-- Scale of a source of a lane. -/
def sourceScale (s : State) (kind src : Nat) : U32 :=
  match kind with
  | 1 => (getInput s src).scale
  | 2 => f32ofQ ⟨1, 32768⟩
  | _ => 0x3F800000

/-- Value at a position of a row. -/
def rowValue (s : State) (l : Lane) (pos : Nat) (r : Nat × List U64) : Option Scale :=
  match r.2[pos]?, l.sources[pos]? with
  | some w, some (src, _) => wordValue l.kind (f32val (sourceScale s l.kind src)) w
  | _, _ => none

/-- Resolution of a source (R246) at a value. -/
def sourceRes (s : State) (l : Lane) (pos : Nat) (v : Scale) : Scale :=
  match l.kind, l.sources[pos]? with
  | 1, some (src, _) => f32val (sourceScale s 1 src)
  | 2, _ => ⟨1, 32768⟩
  | _, _ => if v.num = 0 then qpow2 (-150) else
    let e := qlog2 (qabs v)
    qpow2 ((if e < -126 then -126 else e) - 24)

/-! ### Placement (R245, R246) -/

/-- The cubic through u = −1, 0, 1, 2: coefficients of u³, u², u, 1. -/
def cubicOf (a b c d : Scale) : Scale × Scale × Scale × Scale :=
  let half (x : Scale) : Scale := qmul ⟨1, 2⟩ x
  let sixth (x : Scale) : Scale := qmul ⟨1, 6⟩ x
  let c3 := sixth (qsub (qsub d a) (qmul (qNat 3) (qsub c b)))
  let c2 := half (qadd (qsub a (qmul (qNat 2) b)) c)
  let c1 := qsub (qsub c b) (qadd c2 c3)
  (c3, c2, c1, b)

def cubicAt (p : Scale × Scale × Scale × Scale) (u : Scale) : Scale :=
  qadd (qmul (qadd (qmul (qadd (qmul p.1 u) p.2.1) u) p.2.2.1) u) p.2.2.2

def cubicSlope (p : Scale × Scale × Scale × Scale) (u : Scale) : Scale :=
  qadd (qmul (qadd (qmul (qmul (qNat 3) p.1) u) (qmul (qNat 2) p.2.1)) u) p.2.2.1

/-- A rational kept to 2^-64. -/
def qTrunc (x : Scale) : Scale := qmk (qfloor (qmul x (qNat (2 ^ 64)))) (2 ^ 64)

/-- Newton steps until two times differ by less than 1 ns; kept within [0, 1]. -/
def newton (p : Scale × Scale × Scale × Scale) (level : Scale) (period : Nat) : Nat → Scale → Scale
  | 0, u => u
  | fuel + 1, u =>
    let d := cubicSlope p u
    if d.num = 0 then u
    else
      let v := qTrunc (qsub u (qdiv (qsub (cubicAt p u) level) d))
      let v := qmax qZero (qmin (qNat 1) v)
      if qlt (qmul (qabs (qsub v u)) (qNat period)) (qNat 1) then v else newton p level period fuel v

/-- A placed trigger: its time, its bound in ns, and whether it was placed linearly. -/
structure Placed where
  t : Nat
  bound : Nat
  linear : Bool

/-- Round up. -/
def qceil (a : Scale) : Int := -(qfloor (qneg a))

/-- Place the crossing of a level between two values at instants ta and tb: cubic with the neighbours, else linear. `d4` is the fourth
difference. Where the slope at the crossing is zero, R246 gives no bound: a free value. -/
def place (period ta tb : Nat) (before : Option Scale) (a b : Scale) (after : Option Scale) (d4 q level : Scale) : Placed :=
  let lin := qdiv (qsub level a) (qsub b a)
  match before, after with
  | some z, some y =>
    let p := cubicOf z a b y
    let u := newton p level period 40 lin
    let sl := qabs (cubicSlope p u)
    let t := ta + (qround (qmul u (qNat period))).toNat
    if sl.num = 0 then ⟨t, Config.flatBound period, false⟩
    else
      let err := qdiv (qadd (qmul ⟨3, 128⟩ (qabs d4)) q) sl
      ⟨t, 1 + (qceil (qmul err (qNat period))).toNat, false⟩
  | _, _ => ⟨ta + (qround (qmul lin (qNat (tb - ta)))).toNat, (tb - ta) / 2, true⟩

/-! ### Marks and streams -/

/-- A mark at an instant. -/
def mkMark (kind lane flags trigKind entry time bound alarm arg0 arg1 : Nat) : Mark :=
  { kind, source := 0, lane, flags, trigKind, entry, time, boundNs := bound, alarm, arg0, arg1 }

/-- Bytes of a mark (Table 9.10). -/
def markBytes (m : Mark) : Bytes :=
  [BitVec.ofNat 8 m.kind, BitVec.ofNat 8 m.source, BitVec.ofNat 8 m.lane, BitVec.ofNat 8 m.flags, BitVec.ofNat 8 m.trigKind,
   BitVec.ofNat 8 m.entry, 0, 0] ++ leBytes 8 m.time ++
  (if m.kind = 4 then leBytes 8 m.arg0 ++ leBytes 8 m.arg1
   else if m.kind = 3 then leBytes 4 m.arg0 ++ List.replicate 12 0
   else leBytes 4 m.boundNs ++ leBytes 2 m.alarm ++ List.replicate 10 0)

/-- An item header (Table 9.11). -/
def itemHead (type lane flags count time : Nat) : Bytes :=
  [BitVec.ofNat 8 type, BitVec.ofNat 8 lane] ++ leBytes 2 flags ++ leBytes 4 count ++ leBytes 8 time

/-- Bytes of a row of a lane kind, padded to 8 B. -/
def rowData (kind : Nat) (r : List U64) : Bytes :=
  let b := (r.map (fun w => leBytes (wordBytes kind) w.toNat)).flatten
  b ++ List.replicate ((8 - b.length % 8) % 8) 0

/-- Write an item to a capture's stream ring, or skip it (R251). `disc`: TIME-DISCONTINUITY before. -/
def streamItem (c : Nat) (type lane count time : Nat) (data : Bytes) (disc : Bool) (s : State) : State :=
  match getCap s c with
  | none => s
  | some k =>
    match k.streamRing with
    | none => s
    | some ring =>
      if k.mode = 2 ∨ k.state = .disarmed then s
      else
        let flags := (if k.gapBefore then 1 else 0) + (if disc then 2 else 0)
        match ringWrite k.owner ring (.capture c) (itemHead type lane flags count time ++ data) s with
        | some t => modCap c (fun x => { x with gapBefore := false }) t
        | none =>
          let s1 := modCap c (fun x => { x with gapBefore := true, streamSkip := sat1 x.streamSkip }) s
          if secondSince s k.lastGapEl then
            raise 0x0905 1 (BitVec.ofNat 8 c :: leBytes 4 (k.streamSkip + 1) ++ leBytes 8 time) (some k.owner)
              (modCap c (fun x => { x with lastGapEl := some (elNs s) }) s1)
          else s1

/-- Put a mark into a record: at most 64 (R249). -/
def addMark (m : Mark) (r : RecSlot) : RecSlot × Bool :=
  if r.record.marks.length < 64 then ({ r with record := { r.record with marks := r.record.marks ++ [m] } }, false)
  else ({ r with record := { r.record with marksLost := true } }, true)

/-- Put a mark into a slot's record. -/
def slotMark (c slot : Nat) (m : Mark) (s : State) : State :=
  match (getCap s c).bind (fun k => tget k.slots slot) with
  | none => s
  | some r =>
    let (r1, lost) := addMark m r
    modCap c (fun k => { k with slots := tset k.slots slot r1, marksLost := if lost then sat1 k.marksLost else k.marksLost }) s

/-- Slots of a capture in some states. -/
def slotsIn (k : Cap) (f : RecState → Bool) : List Nat := (k.slots.filter (fun e => f e.2.state)).map (·.1)

def openRec : RecState → Bool
  | .recording | .assembling => true
  | _ => false

/-- Write a mark to the stream, and to the record in progress where `rec` says so. -/
def capMark (c : Nat) (m : Mark) (inRec : RecState → Bool) (s : State) : State :=
  match getCap s c with
  | none => s
  | some k =>
    let s1 := (slotsIn k inRec).foldl (fun t n => slotMark c n m t) s
    streamItem c 1 0xFF 1 m.time (markBytes m) false s1

/-- CAPTURE-STATE-CHANGED codes. -/
def CapState.num : CapState → Nat
  | .disarmed => 0
  | .filling => 1
  | .armed => 2
  | .recording => 3

def capState (c : Nat) (st : CapState) (s : State) : State :=
  match getCap s c with
  | none => s
  | some k =>
    if k.state = st then s
    else raise 0x0906 0 [BitVec.ofNat 8 c, BitVec.ofNat 8 k.state.num, BitVec.ofNat 8 st.num] (some k.owner)
      (modCap c (fun x => { x with state := st }) s)

/-! ### Remote triggers -/

/-- Send a remote-trigger frame (R244, Table 9.4), at the level of the capture that fired. -/
def sendRemote (level tTrig bound : Nat) (s : State) : State :=
  let b := s.cap
  if b.txTarget = 0xFF then s
  else
    let body := leBytes 4 0x4F545452 ++ [1, BitVec.ofNat 8 b.txGroup] ++ leBytes 2 (if s.clk.timeValid then 1 else 0) ++
      leBytes 8 b.unitId.toNat ++ leBytes 8 tTrig ++ leBytes 4 b.txSeq.toNat ++ leBytes 2 b.sourceId.toNat ++ leBytes 2 (min bound 65535)
    let s1 := bump 0x09000118 { s with cap := { b with txSeq := b.txSeq + 1 } }
    let v4 := decide (b.txDstAddr.toNat / 2 ^ 32 = 0xFFFF)
    sendOwn { cls := .c2, port := targetPort b.txTarget, pair := targetPair b.txTarget, prp := true, len := udpLen (!v4) body.length
              launch := none, tsReq := false, owner := .trigger, body, level
              to_ := some { addr := b.txDstAddr, dst := b.txDstPort } } s1

/-! ### Triggers (R240 to R242) -/

/-- A trigger: its kind, entry (0xFF host), lane, time, bound, flags of its mark, alarm and its raising slab, and whether to send it. -/
structure Trig where
  kind : Nat
  entry : Nat
  lane : Nat
  t : Nat
  bound : Nat
  linear : Bool
  predicted : Bool
  alarm : Option Nat
  send : Bool
  /-- Lane and position of the trigger channel. -/
  chan : Option (Nat × Nat)

/-- Every lane ring still holds every row from an instant on. -/
def ringsHold (k : Cap) (from_ : Nat) : Bool :=
  k.lanes.all (fun l => match l.rows with
    | [] => true
    | r :: _ => decide (r.1 < from_ + lanePeriod l.kind l.rate ∨ k.armTs + lanePeriod l.kind l.rate ≥ r.1))

/-- The record of an accepted trigger, before assembly. -/
def newRec (s : State) (c : Nat) (k : Cap) (g : Trig) (mark : Mark) : RecSlot :=
  let t0 := g.t - k.preMs * 1000000
  let t1 := g.t + k.postMs * 1000000
  { state := .recording, bytes := 0, readyTs := 0, condTs := none, condEl := 0, alarm := g.alarm, chan := g.chan
    record := { timeValid := s.clk.timeValid, merged := false, resampled := false, truncated := false, early := false, marksLost := false
                withdrawn := false, unitId := s.cap.unitId, recNo := k.recNo, capture := c, trigKind := g.kind, trigEntry := g.entry
                tq := s.clk.tq.toNat, tTrig := g.t, tStart := t0, tEnd := t1, boundNs := g.bound, utcOffset := s.clk.utcOffset
                sourceId := s.cap.sourceId, createdTs := 0, lanes := [], sources := [], meas := [], marks := [mark] } }

/-- A trigger of a capture that has fired (R239 to R241, R244). -/
def trigger (c : Nat) (g : Trig) (s0 : State) : State :=
  match getCap s0 c with
  | none => s0
  | some k0 =>
    let s1 := modCap c (fun x => { x with triggers := sat1 x.triggers }) s0
    let s := if g.send ∧ g.kind ≠ 7 then sendRemote k0.level g.t g.bound s1 else s1
    let fl := (if g.linear then 1 else 0) + (if g.predicted then 2 else 0)
    let mark (kind extra : Nat) : Mark := mkMark kind g.lane (fl + extra) g.kind g.entry g.t g.bound (g.alarm.getD 0) 0 0
    if k0.state = .disarmed then s
    else if k0.mode = 1 then streamItem c 1 0xFF 1 g.t (markBytes (mark 0 0)) false s
    else
      match k0.slots.find? (fun e => decide (e.2.record.tStart ≤ g.t ∧ g.t < e.2.record.tEnd)) with
      | some (n, r) =>
        if openRec r.state then
          streamItem c 1 0xFF 1 g.t (markBytes (mark 2 0)) false
            (modCap c (fun x => { x with retrig := sat1 x.retrig }) (slotMark c n (mark 2 0) s))
        else modCap c (fun x => { x with retrigLate := sat1 x.retrigLate }) s
      | none =>
        let from_ := g.t - k0.preMs * 1000000
        let notArmed := decide (g.t < k0.preMs * 1000000 ∨ from_ < k0.armTs ∨ k0.state = .filling)
        let gone := !ringsHold k0 from_
        if notArmed ∨ gone then
          let cause := if notArmed then 0 else 1
          let m := mark 1 (4 * cause)
          let s2 := capMark c m (fun x => decide (x = .recording)) s
          let s3 := modCap c (fun x => { x with early := sat1 x.early
                                                slots := tmap (fun _ r => if r.state = .recording then { r with record := { r.record with early := true } } else r) x.slots }) s2
          raise 0x0903 1 ([BitVec.ofNat 8 c, BitVec.ofNat 8 cause] ++ leBytes 8 g.t) (some k0.owner) s3
        else if k0.state = .recording then s
        else match tfreeFrom k0.slots k0.slotCount 0 with
          | none =>
            let s2 := streamItem c 1 0xFF 1 g.t (markBytes (mark 6 0)) false (modCap c (fun x => { x with recFull := sat1 x.recFull }) s)
            raise 0x0904 2 (BitVec.ofNat 8 c :: leBytes 8 g.t) (some k0.owner) s2
          | some n =>
            let r := newRec s c k0 g (mark 0 0)
            let s2 := modCap c (fun x => { x with slots := tset x.slots n r, recNo := x.recNo + 1 }) s
            let s3 := streamItem c 1 0xFF 1 g.t (markBytes (mark 0 0)) false (capState c .recording s2)
            raise 0x0901 0 ([BitVec.ofNat 8 c, BitVec.ofNat 8 g.entry, BitVec.ofNat 8 g.kind] ++ leBytes 8 g.t ++ leBytes 4 g.bound)
              (some k0.owner) s3

/-- An entry fires, unless its hold-off suppresses it (R242). -/
def fireEntry (c e : Nat) (t bound : Nat) (linear predicted : Bool) (alarm : Option Nat) (s : State) : State :=
  match (getCap s c).bind (fun k => tget k.entries e) with
  | none => s
  | some x =>
    let held := match x.holdEnd with
      | some h => decide (elNs s < h)
      | none => false
    if held then modCap c (fun k => { k with holdoff := sat1 k.holdoff }) s
    else
      let hold := if x.holdoffMs = 0 then none else some (elNs s + x.holdoffMs * 1000000)
      let s1 := modCap c (fun k => { k with entries := tset k.entries e { x with holdEnd := hold } }) s
      let lane := if 2 ≤ x.kind ∧ x.kind ≤ 5 then x.lane else 0xFF
      trigger c { kind := x.kind, entry := e, lane, t, bound, linear, predicted, alarm, send := x.send
                  chan := if 2 ≤ x.kind ∧ x.kind ≤ 5 then some (x.lane, x.pos) else none } s1

/-- An alarm is raised: ALARM entries of armed captures (Table 9.3). -/
def capAlarm (num tTrig : Nat) (predicted : Bool) (s : State) : State :=
  s.cap.caps.foldl (fun t c =>
    if c.2.state = .disarmed then t
    else c.2.entries.foldl (fun t e =>
      let lo := e.2.param.toNat % 65536
      let hi := e.2.param.toNat / 65536 % 65536
      if e.2.kind = 1 ∧ lo ≤ num ∧ num ≤ hi then fireEntry c.1 e.1 tTrig 0 false predicted (some num) t else t) t) s

/-- A raise is withdrawn (R247): records that it triggered and that are not assembled carry it. -/
def capWithdrawn (num tag : Nat) (s : State) : State :=
  s.cap.caps.foldl (fun t c =>
    c.2.slots.foldl (fun t e =>
      if openRec e.2.state ∧ e.2.alarm = some num ∧ e.2.record.tTrig = tag then
        let t1 := slotMark c.1 e.1 (mkMark 5 0xFF 0 1 e.2.record.trigEntry (taiNs t) 0 num 0 0) t
        modCap c.1 (fun k => { k with slots := tmod k.slots e.1 (fun r => { r with record := { r.record with withdrawn := true } }) }) t1
      else t) t) s

/-! ### Evaluation of rows (R243) -/

/-- A firing found: entry, time, bound, linear. -/
abbrev Firing := Nat × Placed

/-- The last value before an index that is not skipped, with its instant and whether it is the row just before. -/
def lastValid (s : State) (l : Lane) (pos : Nat) (rows : List (Nat × List U64)) (i : Nat) : Option (Nat × Scale × Bool) :=
  ((List.range i).reverse.findSome? (fun j => match rows[j]? with
    | some r => (rowValue s l pos r).map (fun v => (r.1, v, decide (j + 1 = i)))
    | none => none))

/-- Value of a row by index. -/
def valueAt (s : State) (l : Lane) (pos i : Nat) : Option Scale := (l.rows[i]?).bind (fun r => rowValue s l pos r)

/-- The fourth difference over rows k − 2 to k + 2 where all are there; a free value otherwise. -/
def fourth (s : State) (l : Lane) (pos k free : Nat) : Scale :=
  if k < 2 then qNat free else
  match valueAt s l pos (k - 2), valueAt s l pos (k - 1), valueAt s l pos k, valueAt s l pos (k + 1), valueAt s l pos (k + 2) with
  | some a, some b, some c, some d, some e =>
    qadd (qsub (qadd (qsub a (qmul (qNat 4) b)) (qmul (qNat 6) c)) (qmul (qNat 4) d)) e
  | _, _, _, _, _ => qNat free

/-- Whether a value passes a level from one row to the next, for a direction: 0 rising, 1 falling, 2 either. -/
def passes (dir : Nat) (a b level : Scale) : Bool :=
  let up := qlt a level && qle level b
  let down := qlt level a && qle b level
  match dir with
  | 0 => up
  | 1 => down
  | _ => up || down

/-- Inside the region of a LEVEL entry. -/
def inRegion (dir : Nat) (v level : Scale) : Bool := if dir = 0 then qlt level v else qlt v level

/-- Out of the region by hyst. -/
def outOfRegion (dir : Nat) (v level hyst : Scale) : Bool :=
  if dir = 0 then qlt v (qsub level hyst) else qlt (qadd level hyst) v

/-- Evaluate an interpolated entry on the row of index i, whose successor is there: the entry as it becomes, and where it fires. -/
def evalLevel (s : State) (l : Lane) (x : TrigEntry) (i : Nat) (free : Nat) : TrigEntry × Option Placed :=
  match valueAt s l x.pos i, l.rows[i]? with
  | some b, some rb =>
    let level := f32val x.level
    let first := { x with inside := inRegion x.dir b level, last := some true }
    match lastValid s l x.pos l.rows i with
    | none => (first, none)
    | some (ta, a, adj) =>
      let hit := if x.kind = 2 then !x.inside && inRegion x.dir b level && x.last.isSome else passes x.dir a b level
      let x1 := if x.kind = 2 then
          { x with last := some true
                   inside := if x.inside then !outOfRegion x.dir b level (f32val x.hyst) else inRegion x.dir b level }
        else x
      if hit && decide (a ≠ b) then
        let before := if adj ∧ 2 ≤ i then valueAt s l x.pos (i - 2) else none
        let after := if adj then valueAt s l x.pos (i + 1) else none
        (x1, some (place (lanePeriod l.kind l.rate) ta rb.1 before a b after (fourth s l x.pos (i - 1) free)
          (sourceRes s l x.pos a) level))
      else (x1, none)
  | _, _ => (x, none)

/-- Evaluate SLOPE and DIGITAL entries on the row of index i. -/
def evalNow (s : State) (l : Lane) (x : TrigEntry) (i : Nat) : TrigEntry × Option Placed :=
  let per := lanePeriod l.kind l.rate
  match valueAt s l x.pos i, l.rows[i]? with
  | some v, some r =>
    if x.kind = 4 then
      let n := x.param.toNat % 65536
      if i < n then (x, none)
      else match valueAt s l x.pos (i - n) with
        | some w =>
          let sl := qdiv (qmul (qabs (qsub v w)) (qNat 1000000000)) (qNat (n * per))
          (x, if qlt (f32val x.level) sl then some ⟨r.1, per, false⟩ else none)
        | none => (x, none)
    else
      let bit := decide ((qfloor v).toNat / 2 ^ (x.param.toNat % 16) % 2 = 1)
      let hit := match x.last with
        | some o => (x.dir != 1 && !o && bit) || (x.dir != 0 && o && !bit)
        | none => false
      ({ x with last := some bit }, if hit then some ⟨r.1, per, false⟩ else none)
  | _, _ => (x, none)

/-- Order of firings: by time, then entry. -/
def insFiring (f : Firing) : List Firing → List Firing
  | [] => [f]
  | g :: t => if f.2.t < g.2.t ∨ (f.2.t = g.2.t ∧ f.1 < g.1) then f :: g :: t else g :: insFiring f t

/-- An entry as it would stand before the row of index i, from the value before it (for a patch, evaluated in its place). -/
def entryAt (s : State) (l : Lane) (x : TrigEntry) (i : Nat) : TrigEntry :=
  match lastValid s l x.pos l.rows i with
  | none => { x with last := none }
  | some (_, a, _) =>
    if x.kind = 5 then { x with last := some (decide ((qfloor a).toNat / 2 ^ (x.param.toNat % 16) % 2 = 1)) }
    else { x with inside := inRegion x.dir a (f32val x.level), last := some true }

/-- Evaluate every entry on a lane's rows: `now_` is the row for SLOPE and DIGITAL, `lag` the rows for interpolated entries. A patch is
evaluated in its place and leaves the running state of an entry as it is. -/
def evalLane (c lane : Nat) (patch : Bool) (now_ : Option Nat) (lag : List Nat) (s0 : State) : State :=
  let (x, s) := fresh s0
  match getCap s c with
  | none => s
  | some k =>
    match k.lanes[lane]? with
    | none => s
    | some l =>
      let step (acc : List (Nat × TrigEntry) × List Firing) (e : Nat × TrigEntry) : List (Nat × TrigEntry) × List Firing :=
        if e.2.lane ≠ lane then acc
        else if e.2.kind = 2 ∨ e.2.kind = 3 then
          let (y, fs) := lag.foldl (fun (a : TrigEntry × List Firing) i =>
            let (z, p) := evalLevel s l (if patch then entryAt s l e.2 i else a.1) i x
            (if patch then a.1 else z, match p with
              | some q => insFiring (e.1, q) a.2
              | none => a.2)) (e.2, acc.2)
          (acc.1 ++ [(e.1, y)], fs)
        else if e.2.kind = 4 ∨ e.2.kind = 5 then
          match now_ with
          | none => acc
          | some i =>
            let (y, p) := evalNow s l (if patch then entryAt s l e.2 i else e.2) i
            (if patch then acc.1 else acc.1 ++ [(e.1, y)], match p with
              | some q => insFiring (e.1, q) acc.2
              | none => acc.2)
        else acc
      let (es, fs) := k.entries.foldl step ([], [])
      let s1 := modCap c (fun k => { k with entries := es.foldl (fun t e => tset t e.1 e.2) k.entries }) s
      fs.foldl (fun t f => fireEntry c f.1 f.2.t f.2.bound f.2.linear false none t) s1

/-! ### Rows -/

/-- Put a row into a ring in order of instant, replacing one at the same instant. -/
def insRow (r : Nat × List U64) : List (Nat × List U64) → List (Nat × List U64)
  | [] => [r]
  | q :: t => if r.1 < q.1 then r :: q :: t else if r.1 = q.1 then r :: t else q :: insRow r t

/-- Change a lane of a capture. -/
def modLane (c lane : Nat) (f : Lane → Lane) (s : State) : State :=
  modCap c (fun k => { k with lanes := k.lanes.mapIdx (fun i l => if i = lane then f l else l) }) s

/-- Write a row into a lane's ring, dropping what is older than D. -/
def writeRow (c lane : Nat) (k : Cap) (r : Nat × List U64) (s : State) : State :=
  let d := ringMs k.preMs k.postMs k.patchHoldMs * 1000000
  modLane c lane (fun l => { l with rows := (insRow r l.rows).filter (fun q => decide (r.1 < q.1 + d)) }) s

/-- The word of a report source in a slab. -/
def reportWord (s : State) (g tag src : Nat) : U64 :=
  match chanOwner s src, getSlab s g tag with
  | some (h, p), some v => cellWord (((slabCell v h p).map (fun c => c.cell)).getD (staleCell h tag p))
  | _, _ => cellWord (staleCell src tag 0)

/-- The slab of a tag has had its final release (R173): until then no capture reads it. -/
def slabFinal (s : State) (g tag : Nat) : Bool :=
  match getSlab s g tag with
  | some v => decide (v.state = .final ∨ v.state = .history)
  | none => false

/-- The Sage word of an input at a sample instant, where its metering point has delivered it (Table 9.1). -/
def sageWord (s : State) (t src : Nat) : Option U64 :=
  ((tgetD s.sage.mps (src / 6) .init).hist.find? (fun r => decide (r.stamp = t))).map (fun r =>
    let b (l : List Bool) (k : Nat) : Nat := if lget l (src % 6) false then 2 ^ k else 0
    BitVec.ofNat 64 ((lget r.vals (src % 6) 0 % 16777216).toNat + b r.unsettled 24 + b r.stale 25 + b r.missing 26))

/-- The voice sample of a channel and direction at a sample instant: silence where the channel ran no block then. -/
def voiceWord (s : State) (per t : Nat) (src : Nat × Nat) : U64 :=
  match (tget s.voc.chans src.1).bind (fun v => v.blocks.find? (fun b => decide (b.tai ≤ t ∧ t < b.tai + 10000000))) with
  | some b => (lget (if src.2 = 1 then b.send else b.recv) ((t - b.tai) / per) 0).zeroExtend 64
  | none => 0

/-- Elapsed instant of a time of the device clock, as the clock stands. -/
def elOf (s : State) (t : Nat) : Nat := elNs s + t - taiNs s

/-- A time is an instant of a lane's rows that has passed (Table 9.1). -/
def rowInstant (s : State) (l : Lane) (t : Nat) : Bool :=
  decide (t ≤ taiNs s) &&
  match l.kind with
  | 0 => decide (gridInstant (rateOfGrid l.rate) (gridIndex (rateOfGrid l.rate) t) = t)
  | 1 => decide (t % lanePeriod 1 l.rate = 0)
  | _ => decide (s.voc.originEl ≤ elOf s t ∧ (elOf s t - s.voc.originEl) % lanePeriod 2 l.rate = 0 ∧
      elOf s t < s.voc.originEl + s.voc.block * 10000000)

/-- A row of samples that a lane has not taken yet: every Sage source has delivered it, or the voice lattice has passed it. -/
def sampleRow (s : State) (l : Lane) (t : Nat) : Option (List U64) :=
  if rowInstant s l t = false ∨ (l.lastEl.any (fun e => decide (elOf s t ≤ e))) then none
  else match l.kind with
    | 0 => none
    | 1 =>
      let ws := l.sources.filterMap (fun e => sageWord s t e.1)
      if ws.length = l.sources.length then some ws else none
    | _ => some (l.sources.map (voiceWord s (lanePeriod 2 l.rate) t))

/-- The word of a row the engine could not take (R236). -/
def lostWord (kind : Nat) : U64 :=
  match kind with
  | 0 => cellWord { value := nanWord, quality := 1, angle := 0 }
  | 1 => 0x04000000
  | _ => 0

/-! ### Timed actions (R98) -/

/-- Insert a timed action by launch time, after those of the same time. -/
def insTimed (a : TimedAct) : List TimedAct → List TimedAct
  | [] => [a]
  | b :: t => if a.launch < b.launch then a :: b :: t else b :: insTimed a t

def addTimed (a : TimedAct) (s : State) : State := { s with clk := { s.clk with timed := insTimed a s.clk.timed } }

/-- Cancel the timed actions of some kinds. -/
def dropTimed (f : TimedKind → Bool) (s : State) : State :=
  { s with clk := { s.clk with timed := s.clk.timed.filter (fun a => !f a.kind) } }

/-- A clock step cancels the TIMED entries that wait (R79, R250): each completes with BUSY and STEP-CANCELLED, and its capture counts it. -/
def cancelTriggers (s : State) : State :=
  s.clk.timed.foldl (fun t a => match a.kind with
    | .trigger c e => modCap c (fun k =>
        { k with entries := tmod k.entries e (fun x => { x with cancelled := some Sts.busy.w }), timedCancelled := sat1 k.timedCancelled }) t
    | _ => t) s

/-- The TIMED entry of a capture fires (Table 9.3): the entry is then of kind 0. -/
def fireTimedEntry (c e : Nat) (t : Nat) (s : State) : State :=
  modCap c (fun k => { k with entries := tdel k.entries e }) (fireEntry c e t 0 false false none s)

/-! ### Records -/

/-- Every lane of a record holds its rows up to the end of its span, and every slab of its report lanes in the span is final (R247). -/
def spanWritten (s : State) (k : Cap) (r : Halga) : Bool :=
  k.lanes.all (fun l => (l.sources.isEmpty && decide (r.tEnd ≤ taiNs s)) || match l.rows.getLast? with
    | some q => decide (r.tEnd ≤ q.1 + lanePeriod l.kind l.rate)
    | none => false)

def spanFinal (s : State) (k : Cap) (r : Halga) : Bool :=
  k.lanes.all (fun l => decide (l.kind ≠ 0) ||
    (getGrid s l.rate).slabs.all (fun e =>
      decide (e.1 < r.tStart ∨ r.tEnd ≤ e.1 ∨ (e.2.state ≠ .forming ∧ e.2.state ≠ .speculative))))

/-- The channel entry of a source (Table 9.8). -/
def recChan (s : State) (kind : Nat) (src : Nat × Nat) : RecChan :=
  let digit (n : Nat) : Byte := BitVec.ofNat 8 (48 + n % 10)
  match kind with
  | 0 =>
    let d := chanDesc s src.1
    { kind := d.elim 0 (fun x => x.kind), source := src.1, scale := 0x3F800000, name := beBytes 16 (d.elim 0 (fun x => x.name)) }
  | 1 =>
    { kind := if inputCurrent src.1 then 1 else 0, source := src.1, scale := sourceScale s 1 src.1
      name := ([83, 65, 71, 69, 32, digit (src.1 / 10), digit src.1] ++ List.replicate 16 0).take 16 }
  | _ =>
    { kind := src.2, source := src.1, scale := sourceScale s 2 src.1
      name := ([86, 79, 73, 67, 69, 32, digit (src.1 / 1000), digit (src.1 / 100), digit (src.1 / 10), digit src.1, 32,
        if src.2 = 1 then 83 else 82] ++ List.replicate 16 0).take 16 }

/-- The lanes of a record: the rows of the rings within a span. -/
def recLanes (s : State) (k : Cap) (t0 t1 : Nat) : List RecLane :=
  k.lanes.map (fun l => { kind := l.kind, rate := l.rate, source := 0, chans := l.sources.map (recChan s l.kind)
                          rows := l.rows.filter (fun r => decide (t0 ≤ r.1 ∧ r.1 < t1)) })

/-- Positive-going crossings of a level by the rows of a channel, placed as in R245: instants. `z` is the value of the row before the last
valid one where that row is its neighbour, `last` the last valid row and whether it is the row just before. -/
def crossings (period : Nat) (level : Scale) (z : Option Scale) (last : Option (Nat × Scale × Bool)) : List (Nat × Option Scale) → List Nat
  | [] => []
  | (_, none) :: rest => crossings period level none (last.map (fun x => (x.1, x.2.1, false))) rest
  | (t, some b) :: rest =>
    let here := match last with
      | some (ta, a, adj) => if qlt a level && qle level b then
          [(place period ta t (if adj then z else none) a b (if adj then (rest.head?).bind (·.2) else none) qZero qZero level).t]
        else []
      | none => []
    here ++ crossings period level (last.bind (fun x => if x.2.2 then some x.2.1 else none)) (some (t, b, true)) rest

/-- Peak amplitude of a single-bin DFT (R248) at so many cycles in a time, over values at instants. -/
def dftPeak (from_ span cyc : Nat) (vals : List (Nat × Scale)) : U32 :=
  let at_ (f : Int → Int) : Int := vals.foldl (fun a e =>
    a + toFx e.2 * f (turnFx * ((e.1 - from_) * cyc : Nat) / (max span 1 : Nat)) / (fx : Int)) 0
  let re := at_ cosRad
  let im := at_ sinRad
  f32sqrtQ (qmk (4 * (re * re + im * im)) (fx * fx * max 1 (vals.length * vals.length)))

/-- Measurements of a channel (R248). With no valid row the spec states no minimum, maximum, mean and RMS: free values. -/
def measure (kind rate idx : Nat) (ch : RecChan) (flags pos : Nat) (rows : List (Nat × List U64)) (cross : Nat) : Meas :=
  let vals : List (Nat × Option Scale) := rows.map (fun r => (r.1, (r.2[pos]?).bind (wordValue kind (f32val ch.scale))))
  let ok := vals.filterMap (fun v => v.2)
  let n := ok.length
  let nan := nanWord
  let mean := qdiv (qsum ok) (qNat n)
  let base : Meas := { chan := idx, flags, nValid := n, min := Config.noRows 0, max := Config.noRows 1, mean := Config.noRows 2
                       rms := Config.noRows 3, fund := nan, freq := nan, periodNs := 0, crossNs := cross }
  match ok with
  | [] => base
  | v :: t =>
    let m1 := { base with min := f32ofQ (t.foldl qmin v), max := f32ofQ (t.foldl qmax v), mean := f32ofQ mean
                          rms := f32sqrtQ (qdiv (qsum (ok.map (fun x => qmul x x))) (qNat n)) }
    if kind ≠ 1 then m1
    else match crossings (lanePeriod kind rate) mean none none vals with
      | a :: b :: rest =>
        let last := (b :: rest).getLastD b
        let cyc := (b :: rest).length
        let per := divRound (last - a) cyc
        { m1 with periodNs := per, freq := f32ofQ (qmk (1000000000 * cyc) (last - a))
                  fund := dftPeak a (last - a) cyc ((vals.filter (fun v => decide (a ≤ v.1 ∧ v.1 < last))).filterMap (fun v => v.2.map (fun x => (v.1, x)))) }
      | _ => m1

/-- First positive-going crossing of its mean at or after an instant, for a channel of a lane. -/
def refCross (l : RecLane) (pos from_ : Nat) : Nat :=
  match l.chans[pos]? with
  | none => 0
  | some ch =>
    let vals : List (Nat × Option Scale) := l.rows.map (fun r => (r.1, (r.2[pos]?).bind (wordValue l.kind (f32val ch.scale))))
    let ok := vals.filterMap (fun v => v.2)
    ((crossings (lanePeriod l.kind l.rate) (qdiv (qsum ok) (qNat ok.length)) none none vals).find? (fun t => decide (from_ ≤ t))).getD 0

/-- Measurement entries of a record, by lane and channel. -/
def measAll (r : Halga) (trig ref : Option (Nat × Nat)) : List Meas :=
  (r.lanes.zipIdx.foldl (fun (acc : Nat × List Meas) (l, li) =>
    let ms := l.chans.zipIdx.map (fun (ch, p) =>
      let isTrig := decide (trig = some (li, p))
      let isRef := decide (ref = some (li, p))
      let cross := if isTrig then r.tTrig else if isRef && trig.isNone then refCross l p r.tTrig else 0
      measure l.kind l.rate (acc.1 + p) ch ((if isTrig then 1 else 0) + (if isRef then 2 else 0)) p l.rows cross)
    (acc.1 + l.chans.length, acc.2 ++ ms)) (0, [])).2

/-! ### The bytes of a record (R249) -/

/-- CRC-32 of IEEE 802.3. -/
def crc32Bit : Nat → Nat → Nat
  | 0, c => c
  | n + 1, c => crc32Bit n (if c % 2 = 1 then (c / 2) ^^^ 0xEDB88320 else c / 2)

def crc32 (b : Bytes) : Nat := (b.foldl (fun c x => crc32Bit 8 (c ^^^ x.toNat)) 0xFFFFFFFF) ^^^ 0xFFFFFFFF

/-- A clock step lies between two instants. -/
def stepBetween (steps : List Nat) (a b : Nat) : Bool := steps.any (fun t => decide (a < t ∧ t ≤ b))

/-- Cut rows into blocks: at a gap, at a clock step, at so many rows. -/
def blocksOf (period per : Nat) (steps : List Nat) : List (Nat × List U64) → List (List (Nat × List U64))
  | [] => []
  | r :: t =>
    match blocksOf period per steps t with
    | [] => [[r]]
    | b :: bs =>
      match b with
      | q :: _ => if q.1 ≤ r.1 + period + period / 2 ∧ b.length < per ∧ stepBetween steps r.1 q.1 = false then (r :: b) :: bs else [r] :: b :: bs
      | [] => [r] :: bs

/-- The instants at which the clock stepped, by a record's TIME-DISCONTINUITY marks of an input. -/
def stepsOf (r : Halga) (source : Nat) : List Nat :=
  (r.marks.filter (fun m => decide (m.kind = 4 ∧ m.source = source))).map (·.time)

/-- Blocks of a lane of a record. -/
def laneBlocks (r : Halga) (l : RecLane) : List (List (Nat × List U64)) :=
  blocksOf (lanePeriod l.kind l.rate) (rowsPerBlock (rowBytes l.kind l.chans.length)) (stepsOf r l.source) l.rows

/-- Data items of blocks: instant, lane and bytes, with GAP before or TIME-DISCONTINUITY before from the last row before each. -/
def blockItems (li : Nat) (l : RecLane) (steps : List Nat) : Option Nat → List (List (Nat × List U64)) → List (Nat × Nat × Bytes)
  | _, [] => []
  | p, [] :: t => blockItems li l steps p t
  | p, (q :: b) :: t =>
    let period := lanePeriod l.kind l.rate
    let fl := match p with
      | some e => (if e + period + period / 2 < q.1 then 1 else 0) + (if stepBetween steps e q.1 then 2 else 0)
      | none => 0
    (q.1, li, itemHead 0 li fl (b.length + 1) q.1 ++ ((q :: b).map (fun x => rowData l.kind x.2)).flatten) ::
      blockItems li l steps (some (((q :: b).getLast?).elim q.1 (·.1))) t

/-- Data items of a lane. -/
def laneItems (r : Halga) (li : Nat) (l : RecLane) : List (Nat × Nat × Bytes) := blockItems li l (stepsOf r l.source) none (laneBlocks r l)

/-- Insert an item by time and lane. -/
def insItem (x : Nat × Nat × Bytes) : List (Nat × Nat × Bytes) → List (Nat × Nat × Bytes)
  | [] => [x]
  | y :: t => if x.1 < y.1 ∨ (x.1 = y.1 ∧ x.2.1 < y.2.1) then x :: y :: t else y :: insItem x t

/-- A lane entry (Table 9.7). -/
def laneBytes (r : Halga) (l : RecLane) : Bytes :=
  let per := rowsPerBlock (rowBytes l.kind l.chans.length)
  [BitVec.ofNat 8 l.kind, BitVec.ofNat 8 l.rate] ++ leBytes 2 l.chans.length ++ leBytes 2 per ++ [BitVec.ofNat 8 l.source, 0] ++
  leBytes 4 l.rows.length ++ leBytes 4 (laneBlocks r l).length ++
  leBytes 8 ((l.rows.head?).elim 0 (·.1)) ++ leBytes 4 (lanePeriod l.kind l.rate) ++ leBytes 4 0

/-- A channel entry (Table 9.8). -/
def chanBytes (li : Nat) (c : RecChan) : Bytes :=
  [BitVec.ofNat 8 li, BitVec.ofNat 8 c.kind, 0, 0] ++ leBytes 4 c.source ++ leBytes 4 c.scale.toNat ++ leBytes 4 0 ++
  (c.name ++ List.replicate 16 0).take 16

/-- A measurement entry (Table 9.9). -/
def measBytes (m : Meas) : Bytes :=
  leBytes 2 m.chan ++ leBytes 2 m.flags ++ leBytes 4 m.nValid ++ leBytes 4 m.min.toNat ++ leBytes 4 m.max.toNat ++ leBytes 4 m.mean.toNat ++
  leBytes 4 m.rms.toNat ++ leBytes 4 m.fund.toNat ++ leBytes 4 m.freq.toNat ++ leBytes 4 m.periodNs ++ leBytes 4 0 ++ leBytes 8 m.crossNs

/-- Header flags (Table 9.6). -/
def halgaFlags (r : Halga) (stream : Bool) : Nat :=
  (if r.timeValid then 1 else 0) + (if r.merged then 2 else 0) + (if r.resampled then 4 else 0) + (if r.truncated then 8 else 0) +
  (if r.early then 16 else 0) + (if r.marksLost then 32 else 0) + (if r.withdrawn then 64 else 0) + (if stream then 128 else 0)

/-- Marks by time. -/
def insMark (m : Mark) : List Mark → List Mark
  | [] => [m]
  | x :: t => if m.time < x.time then m :: x :: t else x :: insMark m t

def sortMarks (l : List Mark) : List Mark := l.foldl (fun acc m => insMark m acc) []

/-- A header with some offsets, a total and a CRC (Table 9.6). -/
def halgaHead (r : Halga) (stream : Bool) (nChan : Nat) (offs : List Nat) (total crc : Nat) : Bytes :=
  [leBytes 4 0x474C4148, leBytes 2 1, leBytes 2 (halgaFlags r stream), leBytes 8 r.unitId.toNat, leBytes 4 r.recNo.toNat,
    [BitVec.ofNat 8 r.capture, BitVec.ofNat 8 r.trigKind, BitVec.ofNat 8 r.trigEntry, BitVec.ofNat 8 r.tq], leBytes 8 r.tTrig,
    leBytes 8 r.tStart, leBytes 8 r.tEnd, leBytes 4 r.boundNs, leInt 2 r.utcOffset, leBytes 2 r.sourceId.toNat,
    leBytes 2 r.lanes.length, leBytes 2 nChan, leBytes 2 r.marks.length, leBytes 2 r.sources.length,
    (offs.map (leBytes 4)).flatten, leBytes 8 total, leBytes 8 r.createdTs, List.replicate 20 0, leBytes 4 crc].flatten

/-- A source entry: 32 B naming an input's unit (R249). -/
def sourceBytes (u : U64) : Bytes := leBytes 8 u.toNat ++ List.replicate 24 0

/-- The bytes of a record. -/
def halgaBytes (r : Halga) : Bytes :=
  let lanes := (r.lanes.map (laneBytes r)).flatten
  let chans := (r.lanes.zipIdx.map (fun (l, i) => (l.chans.map (chanBytes i)).flatten)).flatten
  let srcs := (r.sources.map sourceBytes).flatten
  let meas := (r.meas.map measBytes).flatten
  let marks := ((sortMarks r.marks).map markBytes).flatten
  let items := (r.lanes.zipIdx.map (fun (l, i) => laneItems r i l)).flatten
  let data := ((items.foldl (fun acc x => insItem x acc) []).map (fun x => x.2.2)).flatten
  let o0 := 128
  let o1 := o0 + lanes.length
  let o2 := o1 + chans.length
  let o3 := o2 + srcs.length
  let o4 := o3 + meas.length
  let o5 := o4 + marks.length
  let total := o5 + data.length
  let rest := lanes ++ chans ++ srcs ++ meas ++ marks ++ data
  let head (crc : Nat) : Bytes := halgaHead r false (chans.length / 32) [o0, o1, o2, o3, o4, o5] total crc
  head (crc32 (head 0 ++ rest)) ++ rest

/-! ### Reading a record (R252) -/

/-- Rows of a data item. -/
def blockRows (kind rate n t0 : Nat) (b : Bytes) (count : Nat) : List (Nat × List U64) :=
  (List.range count).map (fun i =>
    let t := if kind = 0 then gridInstant (rateOfGrid rate) (gridIndex (rateOfGrid rate) t0 + i) else t0 + i * lanePeriod kind rate
    (t, (List.range n).map (fun c => BitVec.ofNat 64 (leAt b (i * rowBytes kind n + c * wordBytes kind) (wordBytes kind)))))

/-- Rows of the data items of a record, by lane; none where they are not whole data items of its lanes. -/
def readItems (lanes : List RecLane) : Nat → Bytes → Option (List (Nat × List (Nat × List U64)))
  | _, [] => some []
  | 0, _ => none
  | fuel + 1, b =>
    let li := leAt b 1 1
    let n := leAt b 4 4
    match lanes[li]? with
    | none => none
    | some l =>
      let len := n * rowBytes l.kind l.chans.length
      if leAt b 0 1 ≠ 0 ∨ b.length < 16 + len then none
      else (readItems lanes fuel (b.drop (16 + len))).map
        (fun r => (li, blockRows l.kind l.rate l.chans.length (leAt b 8 8) ((b.drop 16).take len) n) :: r)

/-- A mark entry read back (Table 9.10). -/
def readMark (b : Bytes) : Mark :=
  let k := leAt b 0 1
  let tr := decide (k ≠ 3 ∧ k ≠ 4)
  { kind := k, source := leAt b 1 1, lane := leAt b 2 1, flags := leAt b 3 1, trigKind := leAt b 4 1, entry := leAt b 5 1, time := leAt b 8 8
    boundNs := if tr then leAt b 16 4 else 0, alarm := if tr then leAt b 20 2 else 0
    arg0 := if k = 4 then leAt b 16 8 else if k = 3 then leAt b 16 4 else 0, arg1 := if k = 4 then leAt b 24 8 else 0 }

/-- A measurement entry read back (Table 9.9). -/
def readMeas (b : Bytes) : Meas :=
  let w (o : Nat) : U32 := BitVec.ofNat 32 (leAt b o 4)
  { chan := leAt b 0 2, flags := leAt b 2 2, nValid := leAt b 4 4, min := w 8, max := w 12, mean := w 16, rms := w 20, fund := w 24
    freq := w 28, periodNs := leAt b 32 4, crossNs := leAt b 40 8 }

/-- Entries of a table at an offset. -/
def entriesAt (b : Bytes) (o size n : Nat) : List Bytes := (List.range n).map (fun i => (b.drop (o + i * size)).take size)

/-- Lanes with the channels of the channel table, which come by lane and then source order. -/
def readLanes (chans : List Bytes) (lanes : List Bytes) : List RecLane :=
  (lanes.zipIdx).map (fun (l, i) =>
    { kind := leAt l 0 1, rate := leAt l 1 1, source := leAt l 6 1, rows := []
      chans := (chans.filter (fun c => decide (leAt c 0 1 = i))).map (fun c =>
        { kind := leAt c 1 1, source := leAt c 4 4, scale := BitVec.ofNat 32 (leAt c 8 4), name := (c.drop 16).take 16 }) })

/-- A record from its bytes (R249, R252): none where magic, version, total, offsets, CRC or data items are wrong. -/
def readHalga (b : Bytes) : Option Halga :=
  let n (o k : Nat) : Nat := leAt b o k
  let nl := n 56 2
  let nc := n 58 2
  let nm := n 60 2
  let ns := n 62 2
  let o1 := 128 + 32 * nl
  let o2 := o1 + 32 * nc
  let o3 := o2 + 32 * ns
  let o4 := o3 + 48 * nc
  let o5 := o4 + 32 * nm
  let lanes := readLanes (entriesAt b o1 32 nc) (entriesAt b 128 32 nl)
  let good := decide (128 ≤ b.length ∧ n 0 4 = 0x474C4148 ∧ n 4 2 = 1 ∧ n 88 8 = b.length ∧ o5 ≤ b.length ∧
    (List.range 6).map (fun i => n (64 + 4 * i) 4) = [128, o1, o2, o3, o4, o5] ∧ (lanes.foldl (fun a l => a + l.chans.length) 0) = nc ∧
    n 124 4 = crc32 (b.take 124 ++ [0, 0, 0, 0] ++ b.drop 128))
  let fl (k : Nat) : Bool := decide (n 6 2 / 2 ^ k % 2 = 1)
  if good = false then none
  else (readItems lanes b.length (b.drop o5)).map (fun items =>
    { timeValid := fl 0, merged := fl 1, resampled := fl 2, truncated := fl 3, early := fl 4, marksLost := fl 5, withdrawn := fl 6
      unitId := BitVec.ofNat 64 (n 8 8), recNo := BitVec.ofNat 32 (n 16 4), capture := n 20 1, trigKind := n 21 1, trigEntry := n 22 1, tq := n 23 1
      tTrig := n 24 8, tStart := n 32 8, tEnd := n 40 8, boundNs := n 48 4, utcOffset := s16 (n 52 2), sourceId := BitVec.ofNat 16 (n 54 2)
      createdTs := n 96 8
      lanes := lanes.zipIdx.map (fun (l, i) => { l with rows := ((items.filter (fun e => decide (e.1 = i))).map (·.2)).flatten })
      sources := (entriesAt b o2 32 ns).map (fun e => BitVec.ofNat 64 (leAt e 0 8))
      meas := (entriesAt b o3 48 nc).map readMeas, marks := (entriesAt b o4 32 nm).map readMark })

/-! ### Exports (R254) -/

/-- The export of a record: header and record, compressed where that is smaller; whether it was not. -/
def exportBytes (r : Halga) (fmt : Nat) : Bytes × Bool :=
  let raw := halgaBytes r
  let z := if fmt = 0 then raw else Config.compress fmt raw
  let bad := decide (fmt ≠ 0 ∧ raw.length ≤ z.length)
  let out := if bad then raw else z
  (leBytes 8 raw.length ++ leBytes 4 out.length ++ [BitVec.ofNat 8 fmt, if bad then 1 else 0, 0, 0] ++ out, bad)

/-- The Dill engine counts a device job that compressed a record (R254, Table 16.5). -/
def deviceJob (r : Halga) (fmt : Nat) (bad : Bool) (s : State) : State :=
  if fmt = 0 then s
  else
    let raw := halgaBytes r
    bumpIf bad 0x10000128 (bumpBy 0x10000118 (Config.compress fmt raw).length (bumpBy 0x10000110 raw.length
      (bump 0x10000108 (bump 0x10000100 s))))

/-- Auto export of every READY record that the ring has room for. -/
def autoExport (c : Nat) (s : State) : State :=
  match getCap s c with
  | none => s
  | some k =>
    match k.exportRing with
    | none => s
    | some ring =>
      (slotsIn k (fun x => decide (x = .ready))).foldl (fun t n =>
        match (getCap t c).bind (fun y => tget y.slots n) with
        | none => t
        | some r =>
          let (out, bad) := exportBytes r.record k.exportFmt
          match ringWrite k.owner ring (.capture c) out t with
          | none => t
          | some u => deviceJob r.record k.exportFmt bad
              (bump 0x09000138 (bumpIf bad 0x09000140 (modCap c (fun y => { y with slots := tdel y.slots n }) u)))) s

/-- The worst TQ code within a span, from the record of its changes. -/
def worstTq (s : State) (t0 t1 : Nat) : Nat :=
  let h := s.cap.tqHist
  let inside := (h.filter (fun e => decide (t0 ≤ e.1 ∧ e.1 < t1))).map (·.2)
  let before := (h.find? (fun e => decide (e.1 < t0))).map (·.2)
  (before.toList ++ inside).foldl max (if h.isEmpty then s.clk.tq.toNat else 0)

/-- The TQ code has changed. -/
def noteTq (s : State) : State :=
  let now := taiNs s
  { s with cap := { s.cap with tqHist := (now, s.clk.tq.toNat) :: (s.cap.tqHist.filter (fun e => decide (now < e.1 + 800000000000))) } }

/-- A clock step reaches every capture (R250): a mark, and a new block on every lane. -/
def capStep (oldNs newNs : Nat) (s : State) : State :=
  s.cap.caps.foldl (fun t c =>
    modCap c.1 (fun k => { k with lanes := k.lanes.map (fun l => { l with disc := true }) })
      (capMark c.1 (mkMark 4 0xFF 0 0 0 newNs 0 0 oldNs newNs) openRec t)) s

end Sys2Proof.Machine
end

