-- ==== Sys2Proof/Machine/VoiceAnnOps.lean ====
section
/-!
DEFINITION. Announcement requests of the voice subsystem (R340 to R342), which the alarm stage makes.
-/

namespace Sys2Proof.Machine

def getCh (s : State) (c : Nat) : Option VCh := tget s.voc.chans c
def setCh (c : Nat) (v : VCh) (s : State) : State := { s with voc := { s.voc with chans := tset s.voc.chans c v } }
def modCh (c : Nat) (f : VCh → VCh) (s : State) : State := { s with voc := { s.voc with chans := tmod s.voc.chans c f } }

/-- Partition of a channel, which its events reach. -/
def chPart (s : State) (c : Nat) : Option HP := (getCh s c).map (·.part)

def annReady (s : State) (a : Nat) : Bool :=
  match tget s.voc.anns a with
  | some x => x.ready
  | none => false

/-- VOICE-ANN-SKIPPED (R342): causes 0 not active, 1 queue full, 2 absent, 3 closed, 4 stopped. -/
def annSkip (ann ch cause : Nat) (s : State) : State :=
  raise 0x0C0B 1 (BitVec.ofNat 8 ann :: leBytes 2 ch ++ [BitVec.ofNat 8 cause]) (chPart s ch) (bump 0x0C000118 s)

/-- Insert a request by priority, then by request instant. -/
def insReq (r : AnnReq) : List AnnReq → List AnnReq
  | [] => [r]
  | q :: t => if q.priority < r.priority then r :: q :: t else q :: insReq r t

/-- Insert at the head of its priority. -/
def insHead (r : AnnReq) : List AnnReq → List AnnReq
  | [] => [r]
  | q :: t => if q.priority ≤ r.priority then r :: q :: t else q :: insHead r t

/-- A play request on a channel (R341, R342): the queue holds four. -/
def annRequest (ch : Nat) (r : AnnReq) (s0 : State) : State :=
  let s := bump 0x0C000108 s0
  match getCh s ch with
  | none => annSkip r.ann ch 0 s
  | some v =>
    if v.state ≠ .active then annSkip r.ann ch 0 s
    else if annReady s r.ann = false then annSkip r.ann ch 2 s
    else if v.queue.length < 4 then modCh ch (fun x => { x with queue := insReq r x.queue }) s
    else match v.queue.getLast? with
      | some z =>
        if z.priority < r.priority then
          annSkip z.ann ch 1 (modCh ch (fun x => { x with queue := insReq r x.queue.dropLast }) s)
        else annSkip r.ann ch 1 s
      | none => s

/-- The requests of a map entry for an alarm number, now. -/
def annEntry (e alarm : Nat) (withdraw : Bool) (s : State) : State :=
  match tget s.voc.annMap e with
  | none => s
  | some m =>
    let ann := if withdraw then m.withdrawAnn.toNat else m.ann.toNat
    let r : AnnReq := { ann, dir := m.dir.toNat, priority := m.priority.toNat, repeats := m.repeat_.toNat, alarm, reqEl := elNs s }
    if withdraw ∧ m.withdrawAnn = 0xFF then s
    else m.channels.foldl (fun t c => annRequest c.toNat r t) s

/-- Entries whose range holds an alarm number. -/
def annCovers (m : VoiceAnnMapP) (num : Nat) : Bool := decide (m.first.toNat ≤ num ∧ num ≤ m.last.toNat)

/-- An alarm is raised: `at_` is the deciding slab's tag or the start of the crossing interval (R341, R226). -/
def annAlarm (num at_ : Nat) (s : State) : State :=
  s.voc.annMap.foldl (fun t e =>
    if annCovers e.2 num = false then t
    else if e.2.timed = 0 ∨ t.clk.timeValid = false then annEntry e.1 num false t
    else
      let launch := at_ + e.2.offsetMs.toNat * 1000000
      if launch < taiNs t then lateAction 0x0C (taiNs t - launch) (annEntry e.1 num false t)
      else addTimed ⟨launch, .announcement e.1 num⟩ t) s

/-- A raise is withdrawn: its announcement runs on, and withdraw_ann is requested (R342). -/
def annWithdraw (num : Nat) (s : State) : State :=
  s.voc.annMap.foldl (fun t e => if annCovers e.2 num then annEntry e.1 num true t else t) s

/-- A clock step releases the announcements that wait for their instant (R79, R226). -/
def annRelease (s : State) : State :=
  s.clk.timed.foldl (fun t a => match a.kind with
    | .announcement e n => annEntry e n false t
    | _ => t)
    (dropTimed (fun k => match k with
      | .announcement _ _ => true
      | _ => false) s)

end Sys2Proof.Machine
end

