-- ==== Sys2Proof/Machine/StageOps.lean ====
section
/-!
DEFINITION. The alarm stage (8.7 to 8.9 of 08_islanding_alarms.md): pins, alarm frames and GOOSE publications, and what a raise, a clear
and a withdrawal of an alarm do.
-/

namespace Sys2Proof.Machine

def getStage (s : State) (n : Nat) : Stage := tgetD s.alm.stages n .init
def setStage (n : Nat) (v : Stage) (s : State) : State := { s with alm := { s.alm with stages := tset s.alm.stages n v } }
def modStage (n : Nat) (f : Stage → Stage) (s : State) : State := setStage n (f (getStage s n)) s

def StageState.num : StageState → Nat
  | .disabled => 0
  | .inactive => 1
  | .active => 2
  | .latched => 3
  | .test => 4

/-- A stage whose pin is to be asserted, and whose bit is set in the states of a frame. -/
def StageState.on : StageState → Bool
  | .active | .latched | .test => true
  | _ => false

/-! ### Latency (R230) -/

/-- An instant lies on the other side of a clock step. -/
def acrossStep (s : State) (ev : Nat) : Bool := decide (ev < s.clk.stepTs ∨ taiNs s < ev)

/-- Measure an output that changes or leaves at `out`: 0 pin, 1 frame, 2 GOOSE, 3 sag pin. It is late where Table 1.3 gives it a bound and
the bounds are not suspended (R23). The figures saturate at 32 bits. -/
def measureC0 (output stage : Nat) (m : C0Meas) (out : Nat) (s : State) : State :=
  if acrossStep s m.ev then s
  else
    let lat := out - m.ev
    let top (x : Nat) : Nat := min (max x lat) (2 ^ 32 - 1)
    let b := s.alm
    let s1 := { s with alm := match output with
      | 0 => { b with latMaxPin := top b.latMaxPin }
      | 1 => { b with latMaxFrame := top b.latMaxFrame }
      | 2 => { b with latMaxGoose := top b.latMaxGoose }
      | _ => { b with latMaxSag := top b.latMaxSag } }
    if m.bound.any (fun x => decide (x < lat)) && !s.dev.c0Off then
      raise 0x080B 2 ([BitVec.ofNat 8 output, BitVec.ofNat 8 stage] ++ leBytes 2 m.alarm ++ leBytes 8 m.ev ++ leBytes 8 out) none (bump 0x08000148 s1)
    else s1

/-- How the frame or GOOSE change of a raise is measured: 350 µs where it is launched at once, none for a sag, swell or interruption
(Table 1.3). -/
def raiseMeas (a : AlmInfo) (launch : Option Nat) : C0Meas :=
  ⟨a.ev, a.num, if launch.isNone ∧ a.sagBound.isNone then some 350000 else none⟩

/-! ### Pins and states -/

/-- The pin follows the stage state; a release waits until min_on_ms since assertion has elapsed (R222), and is measured from what brought it
(R230). -/
def pinFollow (n : Nat) (s : State) : State :=
  let v := getStage s n
  if v.state.on ∧ v.pin = false then setStage n { v with pin := true, pinEl := elNs s } s
  else if v.state.on = false ∧ v.pin ∧ v.pinEl + v.minOnMs * 1000000 ≤ elNs s then
    let s1 := setStage n { v with pin := false, rel := none } s
    match v.rel with
    | some (o, m) => measureC0 o n m (taiNs s) s1
    | none => s1
  else s

/-- A stage changes state (Table 8.4): ALARM-STAGE-CHANGED. -/
def stageState (n : Nat) (st : StageState) (alarm : Nat) (s : State) : State :=
  let v := getStage s n
  if v.state = st then s
  else
    raise 0x080C 1 ([BitVec.ofNat 8 n, BitVec.ofNat 8 st.num] ++ leBytes 2 alarm ++ leBytes 8 (taiNs s)) none
      (setStage n { v with state := st, lastChangeTs := BitVec.ofNat 64 (taiNs s), changes := bif decide (v.changes = BitVec.allOnes 64) then v.changes else v.changes + 1 } s)

/-- Bit n: stage n ACTIVE, LATCHED or TEST. -/
def statesMask (s : State) : Nat := s.alm.stages.foldl (fun m e => if e.2.state.on then m ||| 2 ^ e.1 else m) 0

/-! ### Alarm frames (R225, Table 8.5) -/

/-- The payload of an alarm frame. -/
def alarmBody (s : State) (kind stage alarm seq ev tag raiseTs flags : Nat) (value bound : U32) : Bytes :=
  let v := getStage s stage
  leBytes 4 0x4F54414C ++ [1, BitVec.ofNat 8 kind, BitVec.ofNat 8 stage, v.claim] ++ leBytes 2 alarm ++ leBytes 2 s.alm.sourceId.toNat ++
  leBytes 4 seq ++ leBytes 8 ev ++ leBytes 8 tag ++ leBytes 8 raiseTs ++
  leBytes 2 (flags + (if s.clk.timeValid then 8 else 0)) ++ [BitVec.ofNat 8 s.clk.tq.toNat, 0] ++ leBytes 2 (statesMask s) ++ leBytes 2 0 ++
  leBytes 4 value.toNat ++ leBytes 4 bound.toNat ++ List.replicate 8 0

/-- When an output of a stage goes out: at once, or at its timed instant (R225, R226). -/
def launchOf (s : State) (v : Stage) (tag : Nat) : Option Nat :=
  if v.timed ∧ s.clk.timeValid then some (tag + v.offsetUs * 1000) else none

/-- Hand an alarm frame to its port or pair; its number, where one was made. -/
def sendAlarm (stage : Nat) (body : Bytes) (launch : Option Nat) (meas : Option C0Meas) (s : State) : Nat × State :=
  let v := getStage s stage
  let v6 := !decide (v.dstAddr.toNat / 2 ^ 32 = 0xFFFF)
  (sendFrame { cls := .c0, port := targetPort v.frameTarget, pair := targetPair v.frameTarget, prp := true, len := udpLen v6 body.length
               launch, tsReq := false, owner := .alarm stage false meas, body
               to_ := some { addr := v.dstAddr, dst := v.dstPort, src := some v.srcPort } } s).2

/-- A frame about an alarm: kind 0 RAISE, 1 CLEAR, 2 WITHDRAWN. A RAISE has its repeats. -/
def alarmFrame (kind stage : Nat) (a : AlmInfo) (ev raiseTs flags : Nat) (s : State) : State :=
  let v := getStage s stage
  if v.frame = false then s
  else
    let launch := launchOf s v a.tag
    let body := alarmBody s kind stage a.num s.alm.seq.toNat ev a.tag raiseTs flags a.value a.bound
    let s1 := bumpIf (v.timed && !s.clk.timeValid) 0x08000180 { s with alm := { s.alm with seq := s.alm.seq + 1 } }
    let (r, s2) := sendAlarm stage body launch (if kind = 0 then some (raiseMeas a launch) else none) s1
    if kind = 0 ∧ 0 < s.alm.rep then
      { s2 with alm := { s2.alm with repeats := s2.alm.repeats ++ [⟨stage, a.num, body, 0, s.alm.rep, none, r⟩] } }
    else s2

/-- A STATE or a TEST frame of a stage. -/
def plainFrame (kind stage ev flags : Nat) (s : State) : State :=
  if (getStage s stage).frame = false then s
  else
    let body := alarmBody s kind stage 0 s.alm.seq.toNat ev 0 0 flags 0 0
    (sendAlarm stage body none none { s with alm := { s.alm with seq := s.alm.seq + 1 } }).2

/-! ### GOOSE (R227, Table 8.6) -/

/-- A BER element. -/
def ber (tag : Byte) (c : Bytes) : Bytes :=
  let n := c.length
  let len := if n < 128 then [BitVec.ofNat 8 n] else if n < 256 then [0x81, BitVec.ofNat 8 n] else 0x82 :: beBytes 2 n
  tag :: len ++ c

/-- A BER unsigned integer: shortest form with a zero sign bit. -/
def berUint (n : Nat) : Bytes :=
  let k := if n < 2 ^ 7 then 1 else if n < 2 ^ 15 then 2 else if n < 2 ^ 23 then 3 else if n < 2 ^ 31 then 4 else 5
  beBytes k n

/-- An ASCII field without its NUL padding. -/
def unpad (b : Bytes) : Bytes := b.takeWhile (fun c => decide (c ≠ 0))

/-- An IEC 61850 timestamp of a TAI instant, with the quality flags of Table 8.6. -/
def gooseTime (s : State) (t : Nat) : Bytes :=
  let q := (if s.clk.timeValid then 0 else 0x40) + (if s.clk.state = .locked then 0 else 0x20)
  beBytes 4 (taiToSoc s (t / 1000000000)) ++ beBytes 3 (t % 1000000000 * 2 ^ 24 / 1000000000) ++ [BitVec.ofNat 8 q]

/-- The GOOSE frame's APPID to APDU, IEC 61850-8-1. -/
def gooseBody (s : State) (st : StageState) (g : Goose) : Bytes :=
  let test : Byte := if st = .test then 0x10 else 0
  let q : Bytes := if g.questionable then [3, 0xC0, 0x80 ||| test] else [3, 0, test]
  let data := ber 0x83 [if st.on then 1 else 0] ++ ber 0x84 q ++ ber 0x91 (gooseTime s g.evTs.toNat) ++
    ber 0x86 (berUint g.alarm.toNat) ++ ber 0x86 (berUint g.changes.toNat)
  let pdu := ber 0x61 (ber 0x80 (unpad g.gocbRef) ++ ber 0x81 (berUint (2 * g.intervalMs)) ++ ber 0x82 (unpad g.datSet) ++
    ber 0x83 (unpad g.goId) ++ ber 0x84 (gooseTime s g.evTs.toNat) ++ ber 0x85 (berUint g.stNum.toNat) ++ ber 0x86 (berUint g.sqNum.toNat) ++
    ber 0x87 [0] ++ ber 0x88 (berUint g.confRev.toNat) ++ ber 0x89 [0] ++ ber 0x8A (berUint 5) ++ ber 0xAB data)
  beBytes 2 g.appid.toNat ++ beBytes 2 (8 + pdu.length) ++ [0, 0, 0, 0] ++ pdu

/-- A GOOSE frame from destination address to payload (R227): the source is the port's address, a pair's that of its first port. -/
def gooseFrame (s : State) (st : StageState) (g : Goose) : Bytes :=
  macBytes g.dstMac ++ macBytes (portMac s (targetPort g.target)) ++ [0x81, 0x00] ++ beBytes 2 g.vlan.toNat ++ [0x88, 0xB8] ++ gooseBody s st g

/-- Send a stage's GOOSE message as it stands. -/
def sendGoose (n : Nat) (launch : Option Nat) (meas : Option C0Meas) (s : State) : State :=
  match (getStage s n).gse with
  | none => s
  | some g =>
    let body := gooseFrame s (getStage s n).state g
    sendOwn { cls := .c0, port := targetPort g.target, pair := targetPair g.target, prp := true, len := body.length, launch
              tsReq := false, owner := .alarm n true meas, body } s

/-- Next of a wrapping number: from its end to 1. -/
def wrapOne (x : U32) : U32 := if x = 0xFFFFFFFF then 1 else x + 1

/-- A GOOSE change of a publishing stage, measured from `ev`; that of a raise (`bounded`) launched at once has a bound. -/
def gooseChange (n alarm ev tag : Nat) (questionable mayTime bounded : Bool) (s : State) : State :=
  let v := getStage s n
  match v.gse with
  | none => s
  | some g =>
    if v.goose = false ∨ v.state = .disabled then s
    else
      let launch := if mayTime then launchOf s v tag else none
      let wait := match launch with
        | some t => t - taiNs s
        | none => 0
      let g1 := { g with stNum := wrapOne g.stNum, sqNum := 0, questionable, evTs := BitVec.ofNat 64 ev, alarm := BitVec.ofNat 16 alarm
                         changes := g.changes + 1, intervalMs := g.tMinMs, nextEl := some (elNs s + wait + g.tMinMs * 1000000) }
      let s1 := bumpIf (mayTime && v.timed && !s.clk.timeValid) 0x08000180 (setStage n { v with gse := some g1 } s)
      sendGoose n launch (some ⟨ev, alarm, if bounded ∧ launch.isNone then some 350000 else none⟩) s1

/-- A stage begins to publish: stNum 1, the instant of the commit, zero in members 4 and 5. -/
def gooseStart (n : Nat) (s : State) : State :=
  let v := getStage s n
  match v.gse with
  | none => s
  | some g =>
    if v.goose = false ∨ v.state = .disabled then s
    else
      let g1 := { g with stNum := 1, sqNum := 0, questionable := false, evTs := BitVec.ofNat 64 (taiNs s), alarm := 0, changes := 0
                         intervalMs := g.tMinMs, nextEl := some (elNs s + g.tMinMs * 1000000) }
      sendGoose n none none (setStage n { v with gse := some g1 } s)

def gooseStop (n : Nat) (s : State) : State :=
  modStage n (fun v => { v with gse := v.gse.map (fun g => { g with nextEl := none }) }) s

/-- The multiple of refresh_ms at or before now, and the last one before now (R225). -/
def refreshAt (s : State) (ms : Nat) : Nat := let p := ms * 1000000; taiNs s / p * p
def refreshBefore (s : State) (ms : Nat) : Nat := let p := ms * 1000000; (taiNs s - 1) / p * p

/-! ### Raises, clears and withdrawals -/

/-- Stages that the map gives an alarm number (R220). -/
def stagesOf (s : State) (num : Nat) : Nat :=
  s.alm.map.foldl (fun m e => if e.2.1 ≤ num ∧ num ≤ e.2.2.1 then m ||| e.2.2.2.toNat else m) 0

def stageList (mask : Nat) : List Nat := (List.range 16).filter (fun n => decide (mask / 2 ^ n % 2 = 1))

/-- One alarm output, which reached evidence-complete at `ev`: more than 256 within some span of 1 ms that holds it are over the rate (R231). -/
def countOutput (ev : Nat) (s : State) : State :=
  let near := ev :: s.alm.recentOut.filter (fun t => decide (ev < t + 1000000 ∧ t < ev + 1000000))
  let s1 := { s with alm := { s.alm with recentOut := near } }
  let within (a : Nat) : Nat := (near.filter (fun t => decide (a ≤ t ∧ t < a + 1000000))).length
  let most := near.foldl (fun m a => if a ≤ ev then max m (within a) else m) 0
  if most ≤ 256 then s1
  else
    let s2 := bump 0x08000150 s1
    if secondSince s s.alm.lastRateEl then
      raise 0x080F 2 (leBytes 2 most ++ leBytes 8 (taiNs s)) none { s2 with alm := { s2.alm with lastRateEl := some (elNs s) } }
    else s2

/-- A raise's pin is measured from evidence-complete, or from the start of the crossing interval (R27). -/
def raisePin (n : Nat) (a : AlmInfo) (s : State) : State :=
  match a.sagBound with
  | some b => measureC0 3 n ⟨a.ev, a.num, some b⟩ (taiNs s) s
  | none => measureC0 0 n ⟨a.ev, a.num, some 200000⟩ (taiNs s) s

/-- The GOOSE change of a raise. -/
def raiseGoose (n : Nat) (a : AlmInfo) (s : State) : State := gooseChange n a.num a.ev a.tag false true a.sagBound.isNone s

/-- A raise reaches one stage (Table 8.4). -/
def raiseOn (n : Nat) (a : AlmInfo) (s0 : State) : State :=
  let s := modStage n (fun v => { v with active := if a.num ∈ v.active then v.active else v.active ++ [a.num] }) s0
  let v := getStage s n
  let fl := if a.predicted then 1 else 0
  match v.state with
  | .disabled => s
  | .test => alarmFrame 0 n a a.ev 0 fl (countOutput a.ev s)
  | .active => raiseGoose n a (alarmFrame 0 n a a.ev 0 fl (countOutput a.ev s))
  | _ =>
    let s1 := pinFollow n (stageState n .active a.num (countOutput a.ev s))
    raiseGoose n a (alarmFrame 0 n a a.ev 0 fl (if v.pin then s1 else raisePin n a s1))

/-- An alarm is raised: every stage it belongs to, captures and announcements. -/
def raiseNow (a : AlmInfo) (s : State) : State :=
  let mask := stagesOf s a.num
  let s1 := { s with alm := { s.alm with carried := tset s.alm.carried a.num (BitVec.ofNat 16 mask) } }
  let s2 := (stageList mask).foldl (fun t n => raiseOn n a t) s1
  capAlarm a.num a.tag a.predicted (annAlarm a.num a.tag s2)

/-- A clear reaches one stage (Table 8.4). -/
def clearOn (n : Nat) (a : AlmInfo) (s0 : State) : State :=
  let s := modStage n (fun v => { v with active := v.active.filter (fun x => decide (x ≠ a.num)) }) s0
  let v := getStage s n
  let goose : State → State := gooseChange n a.num a.ev a.tag false true false
  match v.state with
  | .test => alarmFrame 1 n a a.ev 0 0 s
  | .active =>
    if v.active ≠ [] then goose (alarmFrame 1 n a a.ev 0 0 s)
    else if v.latch ∧ v.acked = false then alarmFrame 1 n a a.ev 0 0 (stageState n .latched a.num s)
    else
      let from_ : Option (Nat × C0Meas) := some (if a.sagBound.isSome then 3 else 0, ⟨a.ev, a.num, none⟩)
      let s1 := pinFollow n (modStage n (fun x => { x with acked := false, rel := from_ }) (stageState n .inactive a.num s))
      goose (alarmFrame 1 n a a.ev 0 0 s1)
  | _ => s

/-- An alarm clears: the stages that took its raise. -/
def clearNow (a : AlmInfo) (s : State) : State :=
  ((List.range 16).filter (fun n => decide (a.num ∈ (getStage s n).active))).foldl (fun t n => clearOn n a t) s

/-- A withdrawal is noticed on each stage that carried the raise, in TEST too (R228). -/
def withdrawNow (a : AlmInfo) (raiseTs : Nat) (still : Bool) (s : State) : State :=
  let mask := (tgetD s.alm.carried a.num 0).toNat
  let now := taiNs s
  let s1 := (stageList mask).foldl (fun t n =>
    if (getStage t n).state = .disabled then t
    else gooseChange n a.num now a.tag true true false (alarmFrame 2 n a now raiseTs (if still then 2 else 0) t)) s
  capWithdrawn a.num a.tag (annWithdraw a.num s1)

/-- A happening takes its effect. -/
def actNow (x : StageAct) (s : State) : State :=
  match x with
  | .raise a => raiseNow a s
  | .withdraw a t still => withdrawNow a t still s
  | .clear a => clearNow a s

/-- A happening reaches the stage: at once, or in its turn where a step holds them. -/
def stageAct (x : StageAct) (s : State) : State :=
  match s.alm.held with
  | some l => { s with alm := { s.alm with held := some (l ++ [x]) } }
  | none => actNow x s

def stageRaise (a : AlmInfo) (s : State) : State := stageAct (.raise a) s
def stageClear (a : AlmInfo) (s : State) : State := stageAct (.clear a) s
def stageWithdraw (a : AlmInfo) (raiseTs : Nat) (still : Bool) (s : State) : State := stageAct (.withdraw a raiseTs still) s

/-- The place of a happening among those of one instant (R224): raises, then withdrawals, then clears. -/
def StageAct.rank : StageAct → Nat
  | .raise _ => 0
  | .withdraw _ _ _ => 1
  | .clear _ => 2

/-- Do some work of one instant, whose happenings then reach the stages in the order of R224. -/
def inTurn (f : State → State) (s : State) : State :=
  let t := f { s with alm := { s.alm with held := some [] } }
  let l := t.alm.held.getD []
  [0, 1, 2].foldl (fun u k => (l.filter (fun x => decide (x.rank = k))).foldl (fun w x => actNow x w) u)
    { t with alm := { t.alm with held := none } }

end Sys2Proof.Machine
end

