-- ==== Sys2Proof/Machine/ClusterOps.lean ====
section
/-!
DEFINITION. The coherency clusterer (8.1 to 8.5 of 08_islanding_alarms.md): observation of bus signals, membership, the quantities of R212
with their intervals, conditions of three values, decisions, and alarms of clusters. Frequencies are exact rationals; angles are rationals in
units of 2^-16 turn, their sums of unit vectors taken in fixed point to 2^-80 (log entry 20).
-/

namespace Sys2Proof.Machine

/-! ### Angles -/

/-- The argument of a sum of unit vectors, in 2^-16 turn; none where the sum is zero. -/
def argSum (l : List Int) : Option Scale :=
  let im := l.foldl (fun n a => n + sinFx a) 0
  let re := l.foldl (fun n a => n + cosFx a) 0
  if im = 0 ∧ re = 0 then none else some (qmul (qdiv (atan2Q (qInt im) (qInt re)) (qmul (qNat 2) piQ)) (qNat 65536))

/-- A difference of angles in the signed range −2^15 to 2^15 (the w of R212). -/
def wrapQ (x : Scale) : Scale := qsub x (qmul (qNat 65536) (qInt (qfloor (qdiv (qadd x (qNat 32768)) (qNat 65536)))))

/-! ### Intervals and three values -/

/-- An interval, and whether a predicted input went into it. -/
structure Iv where
  lo : Scale
  hi : Scale
  pred : Bool
  deriving DecidableEq, Repr

def ivSub (a b : Iv) : Iv := ⟨qsub a.lo b.hi, qsub a.hi b.lo, a.pred || b.pred⟩
def ivScale (k : Scale) (a : Iv) : Iv := ⟨qmul k a.lo, qmul k a.hi, a.pred⟩
def ivAround (x h : Scale) (p : Bool) : Iv := ⟨qsub x h, qadd x h, p⟩
def ivMid (a : Iv) : Scale := qmul ⟨1, 2⟩ (qadd a.lo a.hi)
def ivHalf (a : Iv) : Scale := qmul ⟨1, 2⟩ (qsub a.hi a.lo)

/-- The values of R170. -/
inductive Tri where
  | yes | no | unknown
  deriving DecidableEq, Repr

def Tri.and : Tri → Tri → Tri
  | .no, _ => .no
  | _, .no => .no
  | .yes, .yes => .yes
  | _, _ => .unknown

/-- The outcome of a predicate or a condition: its value, whether a predicted input was used, and whether a FALSE has a cause other than an
UNOBSERVED cluster (R214). -/
structure Res where
  v : Tri
  pred : Bool
  firm : Bool
  deriving DecidableEq, Repr

def resAnd (a b : Res) : Res :=
  ⟨a.v.and b.v, a.pred || b.pred, (decide (a.v = .no) && a.firm) || (decide (b.v = .no) && b.firm)⟩

def resTrue : Res := ⟨.yes, false, false⟩
/-- FALSE because of an UNOBSERVED cluster. -/
def resBlind : Res := ⟨.no, false, false⟩
def resFalse : Res := ⟨.no, false, true⟩
/-- A quantity of it is not defined at the slab: neither value is certain. -/
def resOpen : Res := ⟨.unknown, false, false⟩

/-- |x| > a (R214). -/
def absAbove (x : Iv) (a : Scale) : Res :=
  let v : Tri := if qlt a x.lo || qlt x.hi (qneg a) then .yes else if qle x.hi a && qle (qneg a) x.lo then .no else .unknown
  ⟨v, x.pred, true⟩

/-- x < a or x > b. -/
def outsideRange (x : Iv) (a b : Scale) : Res :=
  let v : Tri := if qlt x.hi a || qlt b x.lo then .yes else if qle a x.lo && qle x.hi b then .no else .unknown
  ⟨v, x.pred, true⟩

/-- The signs of x and y agree, neither zero: certain only where both intervals lie strictly on one side of zero. -/
def sameSign (x y : Iv) : Res :=
  let p (z : Iv) : Bool := qlt qZero z.lo
  let n (z : Iv) : Bool := qlt z.hi qZero
  let v : Tri := if (p x && p y) || (n x && n y) then .yes
    else if (p x && n y) || (n x && p y) then .no else .unknown
  ⟨v, x.pred || y.pred, true⟩

/-! ### Observation (R206) -/

/-- A report of a channel at a slab that counts as received or predicted. -/
def reportAt (s : State) (g tag ch kind : Nat) : Option SlabCell :=
  if chanKind s ch ≠ kind then none
  else match chanOwner s ch, getSlab s g tag with
    | some (h, p), some v =>
      (slabCell v h p).bind (fun c =>
        let q := c.cell.quality
        if (c.received || c.fill.isSome) && !q.getLsbD 0 && !q.getLsbD 1 && !q.getLsbD 2 && !q.getLsbD 4 then some c else none)
    | _, _ => none

/-- A bus signal at a slab where it is observed: frequency, angle and their half-widths. -/
structure Ob where
  f : Scale
  fh : Scale
  th : Int
  thh : Nat
  pred : Bool

def sigOb (s : State) (g tag : Nat) (x : Sig) : Option Ob :=
  match reportAt s g tag x.fChan 3, reportAt s g tag x.aChan 1 with
  | some a, some b =>
    match f32toQ a.cell.value with
    | some f => some { f, fh := (a.fill.map (fun y => f32val y.hVal)).getD qZero, th := (b.cell.angle.toNat : Int)
                       thh := (b.fill.map (fun y => y.hAng.toNat)).getD 0, pred := a.fill.isSome || b.fill.isSome }
    | none => none
  | _, _ => none

/-- Slabs of a window of some length that ends at a tag. -/
def windowTags (g tag len : Nat) : List Nat :=
  let r := rateOfGrid g
  let n := gridIndex r tag
  ((List.range len).reverse.filter (fun j => decide (j ≤ n))).map (fun j => gridInstant r (n - j))

/-- Slabs in some milliseconds, rounded up (R206, R213). -/
def slabsIn (g ms : Nat) : Nat := (ms * rateOfGrid g + 999) / 1000

/-- Observations of the members of a cluster at a slab. -/
def membersOb (s : State) (g tag : Nat) (memb : Tbl Nat) (c : Nat) : List Ob :=
  memb.filterMap (fun (i, d) => if d = c then (tget s.isl.signals i).bind (sigOb s g tag) else none)

def membersOf (memb : Tbl Nat) (c : Nat) : Nat := tcount (fun _ d => decide (d = c)) memb

/-- The clusters of a membership, in order of their numbers. -/
def cluNums (memb : Tbl Nat) : List Nat := (List.range 64).filter (fun c => memb.any (fun e => decide (e.2 = c)))

/-- Settings in force when a slab opened (R234). -/
def cfgFor (s : State) (v : Slab) : CluCfg × DetCfg :=
  match s.isl.cfgHist.find? (fun e => decide (e.1 ≤ v.openEl)) with
  | some e => e.2
  | none => (s.isl.cfg, s.isl.det)

/-! ### Distances (R207) -/

/-- Mean of the members' frequencies at a slab. -/
def trajAt (s : State) (g : Nat) (memb : Tbl Nat) (c tag : Nat) : Option Scale :=
  match membersOb s g tag memb c with
  | [] => none
  | l => some (qdiv (qsum (l.map (·.f))) (qNat l.length))

/-- Mean square of the difference of two trajectories over the slabs where both exist. -/
def meanSq (ks : List Nat) (a b : Nat → Option Scale) : Option Scale :=
  let ds := ks.filterMap (fun k => match a k, b k with
    | some x, some y => let d := qsub x y; some (qmul d d)
    | _, _ => none)
  if ds = [] then none else some (qdiv (qsum ds) (qNat ds.length))

/-- A root mean square is at most some millihertz. -/
def withinMhz (q : Option Scale) (mhz : Nat) : Bool :=
  match q with
  | some x => qle x (qmul (qmk mhz 1000) (qmk mhz 1000))
  | none => false

/-- The cluster of least distance, the lower number on a tie. -/
def nearest (l : List (Nat × Option Scale)) : Option (Nat × Scale) :=
  l.foldl (fun b e => match b, e.2 with
    | none, some d => some (e.1, d)
    | some (c, x), some d => if qlt d x then some (e.1, d) else some (c, x)
    | _, none => b) none

def sigTraj (s : State) (g i k : Nat) : Option Scale := ((tget s.isl.signals i).bind (sigOb s g k)).map (·.f)

/-- A signal is usable at the end of a window (R206). -/
def usableAt (s : State) (g : Nat) (cfg : CluCfg) (ks : List Nat) (x : Sig) : Bool :=
  let len := slabsIn g cfg.windowMs
  let cnt := (ks.filter (fun k => (sigOb s g k x).isSome)).length
  decide (cfg.usablePct * len ≤ cnt * 100) && ((ks.getLast?).any (fun k => (sigOb s g k x).isSome))

/-- One signal against the trajectories of the membership before: the membership it leaves, and the signals that need a cluster. -/
def assignOne (s : State) (g : Nat) (cfg : CluCfg) (ks : List Nat) (memb0 : Tbl Nat) (acc : Tbl Nat × List Nat) (e : Nat × Sig) :
    Tbl Nat × List Nat :=
  if usableAt s g cfg ks e.2 = false then acc
  else
    let d (c : Nat) : Option Scale := meanSq ks (sigTraj s g e.1) (trajAt s g memb0 c)
    let stay := match tget memb0 e.1 with
      | some c => withinMhz (d c) cfg.leaveMhz
      | none => false
    if stay then acc
    else match nearest (s.isl.clusters.map (fun c => (c.1, d c.1))) with
      | some (c, q) => if withinMhz (some q) cfg.joinMhz then (tset acc.1 e.1 c, acc.2) else (tdel acc.1 e.1, acc.2 ++ [e.1])
      | none => (tdel acc.1 e.1, acc.2 ++ [e.1])

/-! ### Clusters (R208) -/

def getClu (s : State) (c : Nat) : Option Clu := tget s.isl.clusters c
def modClu (c : Nat) (f : Clu → Clu) (s : State) : State := { s with isl := { s.isl with clusters := tmod s.isl.clusters c f } }

/-- The alarms of a cluster by condition: 0 island, 1 ROCOF, 2 excursion, 3 angle. -/
def cluAlarm (v : Clu) (i : Nat) : CluAlarm :=
  match i with
  | 0 => v.island
  | 1 => v.rocof
  | 2 => v.fexc
  | _ => v.angle

def setCluAlarm (v : Clu) (i : Nat) (a : CluAlarm) : Clu :=
  match i with
  | 0 => { v with island := a }
  | 1 => { v with rocof := a }
  | 2 => { v with fexc := a }
  | _ => { v with angle := a }

/-- Alarm number of a condition of a cluster (Table 8.3). -/
def cluNum (i c : Nat) : Nat := 0x2000 + 0x40 * i + c

/-- An alarm of a cluster clears (Table 8.2). -/
def clearAlarm (c i cause tag ev : Nat) (value bound : U32) (s : State) : State :=
  match getClu s c with
  | none => s
  | some v =>
    let a := cluAlarm v i
    if a.state = .clear then s
    else
      let s1 := modClu c (fun x => setCluAlarm x i { a with state := .clear, changed := tag }) s
      let s2 := raise 0x080A 1 (leBytes 2 (cluNum i c) ++ [BitVec.ofNat 8 cause]) none (bump 0x08000140 s1)
      stageClear { num := cluNum i c, tag, ev, value, bound, predicted := false, sagBound := none } s2

/-- A cluster is freed: its alarms clear, the island's with a cause of its own; no value decides such a clear. -/
def freeCluster (c islandCause tag ev : Nat) (s : State) : State :=
  let s1 := (List.range 4).foldl (fun t i =>
    let (x, t1) := fresh t
    clearAlarm c i (if i = 0 then islandCause else 3) tag ev (BitVec.ofNat 32 x) (BitVec.ofNat 32 (x / 2 ^ 32)) t1) s
  { s1 with isl := { s1.isl with clusters := tmap (fun _ v => { v with anchors := tdel v.anchors c }) (tdel s1.isl.clusters c)
                                 freed := s1.isl.freed ++ [c] } }

/-- The number a new cluster takes: never used, lowest first, then the one freed longest ago. -/
def takeNumber (s : State) : Option (Nat × State) :=
  if s.isl.everUsed < 64 then some (s.isl.everUsed, { s with isl := { s.isl with everUsed := s.isl.everUsed + 1 } })
  else match s.isl.freed with
    | c :: t => some (c, { s with isl := { s.isl with freed := t } })
    | [] => none

def newClu (tag seq members : Nat) : Clu :=
  { formedTag := tag, formedSeq := seq, unobsSince := none, members, observed := 0, f := qZero, r := qZero, theta := qZero, island := .init
    rocof := .init, fexc := .init, angle := .init, anchors := [] }

/-- Form clusters from the signals without one, lowest index first (R207). -/
def formGroups (g : Nat) (cfg : CluCfg) (ks : List Nat) (tag : Nat) : Nat → List Nat → Tbl Nat → Bool → State → Tbl Nat × Bool × State
  | 0, _, memb, full, s => (memb, full, s)
  | _ + 1, [], memb, full, s => (memb, full, s)
  | fuel + 1, l :: us, memb, full, s =>
    let grp := (l :: us).filter (fun j => decide (j = l) || withinMhz (meanSq ks (sigTraj s g j) (sigTraj s g l)) cfg.joinMhz)
    let rest := us.filter (fun j => decide (j ∉ grp))
    if grp.length < cfg.minMembers then formGroups g cfg ks tag fuel rest memb full s
    else match takeNumber s with
      | none => formGroups g cfg ks tag fuel rest memb true s
      | some (c, s1) =>
        let v := newClu tag s1.isl.formSeq grp.length
        let s2 := { s1 with isl := { s1.isl with clusters := tset s1.isl.clusters c v, formSeq := s1.isl.formSeq + 1 } }
        let s3 := raise 0x0801 1 (BitVec.ofNat 8 c :: leBytes 2 grp.length ++ leBytes 8 tag) none (bump 0x08000108 s2)
        formGroups g cfg ks tag fuel rest (grp.foldl (fun m j => tset m j c) memb) full s3

/-- Clusters left with no members are freed at once: of a slab evaluated after a later one, those that the later has none of either. -/
def freeEmpty (memb : Tbl Nat) (tag ev : Nat) (s : State) : State :=
  let later (c : Nat) : Bool := s.isl.memb.any (fun e => decide (tag < e.1) && e.2.any (fun m => decide (m.2 = c)))
  s.isl.clusters.foldl (fun t c => if membersOf memb c.1 = 0 ∧ later c.1 = false then freeCluster c.1 3 tag ev t else t) s

/-- The reference cluster of a slab (R209), and whether the list gave it. -/
def refOf (s : State) (g tag : Nat) (memb : Tbl Nat) : Option (Nat × Bool) :=
  let listed := s.isl.refList.findSome? (fun e => e.bind (fun i =>
    if ((tget s.isl.signals i).bind (sigOb s g tag)).isSome then tget memb i else none))
  match listed with
  | some c => some (c, true)
  | none =>
    ((cluNums memb).foldl (fun b c =>
      let n := (membersOb s g tag memb c).length
      match b with
      | none => some (c, n)
      | some (d, m) => if m < n then some (c, n) else some (d, m)) (none : Option (Nat × Nat))).map (fun x => (x.1, false))

/-- Pairs of clusters that merge, in order of their numbers, by the trajectories of the new membership (R207). -/
def mergeClusters (g : Nat) (cfg : CluCfg) (ks : List Nat) (tag ev : Nat) (memb0 : Tbl Nat) (s0 : State) : Tbl Nat × State :=
  let cs := s0.isl.clusters.map (·.1)
  let pairs := (cs.map (fun a => (cs.filter (fun b => decide (a < b))).map (fun b => (a, b)))).flatten
  pairs.foldl (fun (memb, s) (a, b) =>
    match getClu s a, getClu s b with
    | some x, some y =>
      if withinMhz (meanSq ks (trajAt s g memb0 a) (trajAt s g memb0 b)) cfg.mergeMhz then
        let r := (refOf s g tag memb0).map (·.1)
        let into := if r = some a then a else if r = some b then b else if x.formedSeq < y.formedSeq then a else b
        let gone := if into = a then b else a
        let memb1 := tmap (fun _ c => if c = gone then into else c) memb
        let s1 := raise 0x0802 1 ([BitVec.ofNat 8 gone, BitVec.ofNat 8 into] ++ leBytes 8 tag) none (bump 0x08000110 s)
        (memb1, freeCluster gone (if r = some into then 1 else 3) tag ev s1)
      else (memb, s)
    | _, _ => (memb, s)) (memb0, s0)

/-! ### Quantities (R212) -/

/-- F_c at a slab. -/
def freqOf (s : State) (g : Nat) (memb : Tbl Nat) (c tag : Nat) : Option Iv :=
  match membersOb s g tag memb c with
  | [] => none
  | l =>
    let n := qNat l.length
    some ⟨qdiv (qsum (l.map (fun o => qsub o.f o.fh))) n, qdiv (qsum (l.map (fun o => qadd o.f o.fh))) n, l.any (·.pred)⟩

/-- The slab some slabs before another. -/
def tagBefore (g tag m : Nat) : Nat := let r := rateOfGrid g; gridInstant r (gridIndex r tag - m)

/-- R_c at a slab. -/
def rocofOf (s : State) (g : Nat) (memb : Tbl Nat) (c tag spanMs : Nat) : Option Iv :=
  let r := rateOfGrid g
  let m := max 1 (divRound (spanMs * r) 1000)
  match freqOf s g memb c tag, freqOf s g memb c (tagBefore g tag m) with
  | some a, some b => some (ivScale (qmk r m) (ivSub a b))
  | _, _ => none

/-- Θ_c at a slab, with its half-width. -/
def thetaOf (s : State) (g : Nat) (memb : Tbl Nat) (c tag : Nat) : Option Iv :=
  match membersOb s g tag memb c with
  | [] => none
  | l => (argSum (l.map (·.th))).map (fun x => ivAround x (qmk (l.foldl (fun n o => n + o.thh) 0) l.length) (l.any (·.pred)))

/-- Θ_c − Θ_r at a slab, wrapped. -/
def rawTheta (s : State) (g : Nat) (memb : Tbl Nat) (c r tag : Nat) : Option Iv :=
  match thetaOf s g memb c tag, thetaOf s g memb r tag with
  | some a, some b => some (ivAround (wrapQ (qsub (ivMid a) (ivMid b))) (qadd (ivHalf a) (ivHalf b)) (a.pred || b.pred))
  | _, _ => none

/-- Slabs from one tag to another, both included, in order. -/
def tagsBetween (g t0 t1 : Nat) : List Nat :=
  let r := rateOfGrid g
  let i := gridIndex r t0
  let j := gridIndex r t1
  (List.range (j + 1 - i)).map (fun n => gridInstant r (i + n))

/-- The slab the accumulation starts from, and the angle there: the slab at which the cluster formed while it is held, and from then on one
whose whole turns are held; Θ_c − Θ_r is always what the cells there now give. -/
def thetaBase (s : State) (g : Nat) (memb : Tbl Nat) (c r tag : Nat) (ks : List Nat) : Option (Nat × Scale) :=
  let v := getClu s c
  let raw (k : Nat) : Option Scale := (rawTheta s g memb c r k).map ivMid
  let formed : Option (Nat × Scale) := v.bind (fun x => (raw x.formedTag).map (fun y => (x.formedTag, y)))
  let held : Option (Nat × Scale) :=
    (v.bind (fun x => tget x.anchors r)).bind (fun (t, a) => (raw t).map (fun y => (t, qadd a (wrapQ (qsub y a)))))
  ((formed.orElse (fun _ => held)).orElse (fun _ => (ks ++ [tag]).findSome? (fun k => (raw k).map (fun y => (k, y)))))

/-- Extend an angle over slabs in order by the wrapped increments of Θ_c − Θ_r; slabs where it is not defined are passed over. -/
def accumulate (raw : Nat → Option Iv) : List Nat → Scale → Option Scale → Scale
  | [], acc, _ => acc
  | k :: t, acc, last =>
    match raw k, last with
    | some x, some y => accumulate raw t (qadd acc (wrapQ (qsub (ivMid x) y))) (some (ivMid x))
    | some x, none => accumulate raw t acc (some (ivMid x))
    | none, _ => accumulate raw t acc last

/-- Θ_cr at a slab. -/
def angleOf (s : State) (g : Nat) (memb : Tbl Nat) (c r tag : Nat) (ks : List Nat) : Option Iv :=
  match rawTheta s g memb c r tag, thetaBase s g memb c r tag ks with
  | some x, some (t0, b) =>
    let raw := rawTheta s g memb c r
    let v := if t0 ≤ tag then accumulate raw (tagsBetween g t0 tag) b none
      else accumulate raw (tagsBetween g tag t0).reverse b none
    some (ivAround v (ivHalf x) x.pred)
  | _, _ => none

/-- D_cr at a slab. -/
def divOf (s : State) (g : Nat) (memb : Tbl Nat) (c r tag : Nat) : Option Iv :=
  match freqOf s g memb c tag, freqOf s g memb r tag with
  | some a, some b => some (ivSub a b)
  | _, _ => none

/-- A cluster is UNOBSERVED at a slab (R210). -/
def unobserved (s : State) (g : Nat) (cfg : CluCfg) (memb : Tbl Nat) (c tag : Nat) : Bool :=
  let m := membersOf memb c
  decide ((membersOb s g tag memb c).length < max 1 ((cfg.obsPct * m + 99) / 100))

/-! ### Topology (R214) -/

/-- A breaker entry lies on the boundary of a cluster. -/
def onBoundary (memb : Tbl Nat) (c : Nat) (b : Breaker) : Bool :=
  (decide (tget memb b.sigA = some c)) != (decide (tget memb b.sigB = some c))

/-- A breaker entry at a slab: closed or open, and whether predicted; none where its report is missing. -/
def breakerAt (s : State) (g tag : Nat) (b : Breaker) : Option (Bool × Bool) :=
  (reportAt s g tag b.chan 6).bind (fun c => (f32toQ c.cell.value).map (fun v =>
    (decide ((qfloor v).toNat / 2 ^ b.bit % 2 = 1) == b.closed, c.fill.isSome)))

/-- Topology agrees at a slab. -/
def topology (s : State) (g : Nat) (memb : Tbl Nat) (c tag : Nat) : Res :=
  s.isl.breakers.foldl (fun r e =>
    if onBoundary memb c e.2 = false then r
    else match breakerAt s g tag e.2 with
      | some (closed, p) => resAnd r (if closed then ⟨.no, p, true⟩ else ⟨.yes, p, false⟩)
      | none => r) resTrue

/-! ### Conditions (R213, R214) -/

/-- A frequency limit, in single precision. -/
def limitHz (mhz : Int) : Scale := f32val (f32ofQ (qmk mhz 1000))

/-- Nominal frequency, mHz. -/
def fNomMhz (cfg : CluCfg) : Nat := if cfg.fNom60 then 60000 else 50000

/-- Centidegrees as 2^-16 turn. -/
def cdeg (n : Nat) : Scale := qmk (n * 65536) 36000

/-- A predicate on a quantity that may not be defined. -/
def onIv (x : Option Iv) (f : Iv → Res) : Res :=
  match x with
  | some i => f i
  | none => resOpen

/-- The predicate of a condition of cluster c at slab k, with reference r. -/
def predicate (s : State) (g : Nat) (cfg : CluCfg) (det : DetCfg) (memb : Tbl Nat) (i c r k : Nat) (ks : List Nat) : Res :=
  if unobserved s g cfg memb c k then resBlind
  else if (i = 0 ∨ i = 3) ∧ unobserved s g cfg memb r k then resBlind
  else match i with
    | 0 =>
      let d := divOf s g memb c r k
      let step : Option Iv := match angleOf s g memb c r k ks, angleOf s g memb c r (tagBefore g k 1) ks with
        | some a, some b => some (ivAround (qsub (ivMid a) (ivMid b)) (qadd (ivHalf a) (ivHalf b)) (a.pred || b.pred))
        | _, _ => none
      let sign : Res := match d, step with
        | some x, some y => sameSign y x
        | _, _ => resOpen
      resAnd (resAnd (onIv d (fun x => absAbove x (qmk det.divMhz 1000))) sign) (topology s g memb c k)
    | 1 => onIv (rocofOf s g memb c k det.rocofSpanMs) (fun x => absAbove x (qmk det.rocofMhzs 1000))
    | 2 =>
      let n : Int := fNomMhz cfg
      onIv (freqOf s g memb c k) (fun x => outsideRange x (limitHz (n - det.fexcLoMhz)) (limitHz (n + det.fexcHiMhz)))
    | _ => onIv (angleOf s g memb c r k ks) (fun x => absAbove x (cdeg det.angThrCdeg))

/-- Confirmation time of a condition, ms. -/
def confMs (det : DetCfg) (i : Nat) : Nat :=
  match i with
  | 0 => det.islandConfMs
  | 1 => det.rocofConfMs
  | 2 => det.fexcConfMs
  | _ => det.angConfMs

def clearMs (det : DetCfg) (i : Nat) : Nat :=
  match i with
  | 0 => det.islandClearMs
  | 1 => det.rocofClearMs
  | 2 => det.fexcClearMs
  | _ => det.angClearMs

/-- Slabs of the span of a condition (R213). -/
def spanOf (g : Nat) (det : DetCfg) (i : Nat) : Nat := max 1 (slabsIn g (confMs det i))

/-- A condition on a slab: its predicates over its span. -/
def condition (s : State) (g : Nat) (cfg : CluCfg) (det : DetCfg) (memb : Tbl Nat) (i c r tag : Nat) : Res :=
  let ks := windowTags g tag (slabsIn g cfg.windowMs)
  if (i = 0 ∨ i = 3) ∧ c = r then resFalse
  else (windowTags g tag (spanOf g det i)).foldl (fun a k => resAnd a (predicate s g cfg det memb i c r k ks)) resTrue

/-- The deciding value of a condition at a slab, as binary32 with its half-width (Table 8.5). -/
def condValue (s : State) (g : Nat) (cfg : CluCfg) (det : DetCfg) (memb : Tbl Nat) (i c r tag : Nat) : U32 × U32 :=
  let ks := windowTags g tag (slabsIn g cfg.windowMs)
  let x : Option Iv := match i with
    | 0 => divOf s g memb c r tag
    | 1 => rocofOf s g memb c tag det.rocofSpanMs
    | 2 => freqOf s g memb c tag
    | _ => (angleOf s g memb c r tag ks).map (ivScale (qmk 360 65536))
  match x with
  | some v => (f32ofQ (ivMid v), f32ofQ (ivHalf v))
  | none => (0, 0)

/-! ### Decisions (R171, R215 to R218) -/

/-- Timestamp of a slab's last release (R165). -/
def releaseTs (v : Slab) : Nat :=
  match v.state with
  | .speculative => v.specTs
  | _ => if v.patches = 0 then v.finalTs else v.lastPatchTs

/-- Key of a condition of a cluster in a slab's decisions. -/
def decKey (c i : Nat) : Nat := c * 4 + i

/-- The event of a raise (Table 8.16). -/
def raiseEvt (i c members ev : Nat) (value : U32) (predicted : Bool) (s : State) : State :=
  let tail := leBytes 4 value.toNat ++ leBytes 8 ev ++ [if predicted then 1 else 0]
  match i with
  | 0 => raise 0x0806 3 (BitVec.ofNat 8 c :: leBytes 2 members ++ tail) none s
  | 1 => raise 0x0807 3 (BitVec.ofNat 8 c :: tail) none s
  | 2 => raise 0x0808 3 (BitVec.ofNat 8 c :: tail) none s
  | _ => raise 0x0809 2 (BitVec.ofNat 8 c :: tail) none s

/-- A condition has moved to RAISED or RAISED-PREDICTED on a slab (Table 8.2). -/
def raiseAlarm (i c members tag ev : Nat) (value bound : U32) (predicted : Bool) (s : State) : State :=
  match getClu s c with
  | none => s
  | some v =>
    if (cluAlarm v i).state ≠ .clear then s
    else
      let s1 := modClu c (fun x => setCluAlarm x i { state := .active, raisingTag := tag, raiseTs := ev, since := 0, changed := tag }) s
      let s2 := raiseEvt i c members ev value predicted (bump (if predicted then 0x08000138 else 0x08000130) s1)
      stageRaise { num := cluNum i c, tag, ev, value, bound, predicted, sagBound := none } s2

/-- The raising slab's raise is withdrawn (R172, R218), that of a cluster since freed too. -/
def withdrawAlarm (g i c tag handle : Nat) (d : Decision) (value bound : U32) (s : State) : State :=
  let a := (getClu s c).map (fun v => cluAlarm v i)
  let mine := d.raiser && a.elim true (fun x => decide (x.raisingTag = tag))
  let still := a.elim false (fun x => decide (x.state ≠ .clear))
  if mine = false then s
  else
    let s1 := bump (gridCnt g 11) s
    let s2 := raise 0x0606 2 (BitVec.ofNat 8 i :: leBytes 2 (cluNum i c) ++ [BitVec.ofNat 8 g] ++ leBytes 8 tag ++ leBytes 8 d.raiseTs ++
      leBytes 8 (taiNs s) ++ leBytes 4 handle) none s1
    stageWithdraw { num := cluNum i c, tag, ev := taiNs s, value, bound, predicted := false, sagBound := none } d.raiseTs still s2

/-- The stream whose report turned a result (R172): of those the release made visible, the first that a bus signal of the cluster or its
reference, or a breaker entry, reads. -/
def turnedBy (s : State) (memb : Tbl Nat) (c r : Nat) (late : List Nat) : Nat :=
  let reads (ch h : Nat) : Bool := (chanOwner s ch).any (fun e => decide (e.1 = h))
  (late.find? (fun h =>
    s.isl.signals.any (fun e => (decide (tget memb e.1 = some c) || decide (tget memb e.1 = some r)) && (reads e.2.fChan h || reads e.2.aChan h)) ||
    s.isl.breakers.any (fun e => reads e.2.chan h))).getD (late.headD 0)

/-- Re-evaluate one condition of one cluster on a slab (Table 6.5); `late` are the streams whose reports the release made visible. -/
def decide1 (g : Nat) (cfg : CluCfg) (det : DetCfg) (memb : Tbl Nat) (i c r tag ev : Nat) (late : List Nat) (s : State) : State :=
  match getSlab s g tag with
  | none => s
  | some v =>
    let handle := turnedBy s memb c r late
    let d := tgetD v.decisions (decKey c i) ⟨.undecided, false, 0, false⟩
    let res := condition s g cfg det memb i c r tag
    let pred := res.pred || (decide (res.v = .no) && !res.firm)
    let (value, bound) := condValue s g cfg det memb i c r tag
    let put (st : DecStatus) (ts : Nat) (raiser : Bool) : State :=
      modSlab g tag (fun x => { x with decisions := tset x.decisions (decKey c i) ⟨st, decide (res.v = .unknown), ts, raiser⟩ }) s
    match d.status, res.v with
    | .undecided, .yes =>
      raiseAlarm i c (membersOf memb c) tag ev value bound pred
        (put (if pred then .raisedPredicted else .raised) ev ((getClu s c).any (fun x => decide ((cluAlarm x i).state = .clear))))
    | .undecided, .no => if pred then put .undecided 0 false else put .notRaised 0 false
    | .undecided, .unknown => put .undecided 0 false
    | .raisedPredicted, .yes => put (if pred then .raisedPredicted else .raised) d.raiseTs d.raiser
    | .raisedPredicted, .no => withdrawAlarm g i c tag handle d value bound (put .withdrawn d.raiseTs d.raiser)
    | .raisedPredicted, .unknown => put .raisedPredicted d.raiseTs d.raiser
    | _, _ => s

/-- Re-evaluate the conditions on a slab that a release of slab `rel` reaches: of every cluster of its membership, freed ones too. -/
def decideSlab (g tag rel ev : Nat) (late : List Nat) (s : State) : State :=
  match getSlab s g tag, tget s.isl.memb tag with
  | some v, some memb =>
    if v.closed ∨ v.state = .forming then s
    else
      let (cfg, det) := cfgFor s v
      match refOf s g tag memb with
      | none => s
      | some (r, _) =>
        (cluNums memb).foldl (fun t c =>
          (List.range 4).foldl (fun u i =>
            if det.enables.getLsbD i ∧ rel ∈ windowTags g tag (spanOf g det i) then decide1 g cfg det memb i c r tag ev late u else u) t) s
  | _, _ => s

/-! ### Clears (Table 8.2) -/

/-- The clear condition of an alarm at a slab: none where an input is predicted, or a quantity is not defined. -/
def clearHolds (s : State) (g : Nat) (cfg : CluCfg) (det : DetCfg) (memb : Tbl Nat) (i c r tag : Nat) : Option Bool :=
  let ks := windowTags g tag (slabsIn g cfg.windowMs)
  if unobserved s g cfg memb c tag then none
  else if (i = 0 ∨ i = 3) ∧ unobserved s g cfg memb r tag then none
  else
    let small (x : Option Iv) (a : Scale) : Option Bool := x.bind (fun v => if v.pred then none else some (qle (qabs (ivMid v)) a))
    match i with
    | 0 => small (divOf s g memb c r tag) (qmk (det.divMhz - det.divHystMhz : Nat) 1000)
    | 1 => small (rocofOf s g memb c tag det.rocofSpanMs) (qmk (8 * det.rocofMhzs : Nat) 10000)
    | 2 =>
      let n : Int := 5 * fNomMhz cfg
      let lo := f32val (f32ofQ (qmk (n - 4 * det.fexcLoMhz) 5000))
      let hi := f32val (f32ofQ (qmk (n + 4 * det.fexcHiMhz) 5000))
      (freqOf s g memb c tag).bind (fun v => if v.pred then none else some (qle lo (ivMid v) && qle (ivMid v) hi))
    | _ => small (angleOf s g memb c r tag ks) (cdeg (det.angThrCdeg - det.angHystCdeg))

/-- Judge the clear of one alarm at a final or patch release. -/
def judgeClear (g : Nat) (cfg : CluCfg) (det : DetCfg) (memb : Tbl Nat) (i c r tag ev : Nat) (s : State) : State :=
  match getClu s c with
  | none => s
  | some v =>
    let a := cluAlarm v i
    let put (st : CluAlarmState) (since : Nat) : State :=
      modClu c (fun x => setCluAlarm x i { a with state := st, since, changed := tag }) s
    if a.state = .clear then s
    else match clearHolds s g cfg det memb i c r tag with
      | none => s
      | some false => if a.state = .clearing then put .active 0 else s
      | some true =>
        let since := if a.state = .clearing then a.since else tag
        let s1 := if a.state = .clearing then s else put .clearing tag
        if clearMs det i * 1000000 ≤ tag - since then
          let (value, bound) := condValue s g cfg det memb i c r tag
          clearAlarm c i 0 tag ev value bound s1
        else s1

/-- An island alarm of a cluster that has stayed UNOBSERVED clears with cause 2. -/
def blindClear (det : DetCfg) (c tag ev : Nat) (s : State) : State :=
  match getClu s c with
  | none => s
  | some v =>
    match v.unobsSince with
    | some t => if v.island.state ≠ .clear ∧ det.unobsClearS * 1000000000 ≤ tag - t then
        let (x, s1) := fresh s
        clearAlarm c 0 2 tag ev (BitVec.ofNat 32 x) (BitVec.ofNat 32 (x / 2 ^ 32)) s1
      else s
    | none => s

/-! ### The first release of a slab -/

/-- The membership that a slab's starts from (R207): that of the latest slab before it that has one, without clusters since freed; with none,
that of the bus signals' records. -/
def membBefore (s : State) (tag : Nat) : Tbl Nat :=
  let last := s.isl.memb.foldl (fun (b : Option (Tbl Nat)) e => if e.1 < tag then some e.2 else b) none
  let rec_ : Tbl Nat := s.isl.signals.filterMap (fun e => e.2.cluster.map (fun c => (e.1, c)))
  tkeep (fun _ c => (getClu s c).isSome) (last.getD rec_)

/-- Membership of a slab (R207, R208). The records of the bus signals are those of the latest slab. -/
def computeMembership (g : Nat) (cfg : CluCfg) (tag ev : Nat) (s : State) : State :=
  let ks := windowTags g tag (slabsIn g cfg.windowMs)
  let memb0 := membBefore s tag
  let (m1, us) := s.isl.signals.foldl (fun acc e => assignOne s g cfg ks memb0 acc e) (memb0, [])
  let s1 := freeEmpty m1 tag ev s
  let (m2, full, s2) := formGroups g cfg ks tag us.length us m1 false s1
  let (m3, s3) := mergeClusters g cfg ks tag ev m2 s2
  let upd (i : Nat) (x : Sig) : Sig :=
    let c := tget m3 i
    let d := c.bind (fun k => meanSq ks (sigTraj s3 g i) (trajAt s3 g m3 k))
    { x with cluster := c, usable := usableAt s3 g cfg ks x, observed := (sigOb s3 g tag x).isSome
             dOwn := match d with
               | some q => f32sqrtQ q
               | none => x.dOwn }
  let newest := s3.isl.memb.all (fun e => decide (e.1 < tag))
  let s4 := { s3 with isl := { s3.isl with signals := if newest then tmap upd s3.isl.signals else s3.isl.signals
                                           memb := tset s3.isl.memb tag m3 } }
  let none_ := s4.isl.signals.length - m3.length
  raiseIf full 0x080E 2 (leBytes 2 none_ ++ leBytes 8 tag) none s4

/-- A change of reference (R209). -/
def noteRef (g tag : Nat) (memb : Tbl Nat) (s : State) : State :=
  let r := refOf s g tag memb
  let new := r.map (·.1)
  let code (x : Option Nat) : Byte := BitVec.ofNat 8 (x.getD 0x7F)
  if new = s.isl.refCluster then s
  else raise 0x0805 1 [code s.isl.refCluster, code new, if (r.map (·.2)).getD false then 0 else 1] none
    { s with isl := { s.isl with refCluster := new } }

/-- UNOBSERVED clusters (R210), and the cluster records. -/
def noteClusters (g : Nat) (cfg : CluCfg) (det : DetCfg) (tag : Nat) (memb : Tbl Nat) (s0 : State) : State :=
  let ks := windowTags g tag (slabsIn g cfg.windowMs)
  (s0.isl.clusters.map (·.1)).foldl (fun s c =>
    match getClu s c with
    | none => s
    | some v =>
      let m := membersOf memb c
      let n := (membersOb s g tag memb c).length
      let blind := unobserved s g cfg memb c tag
      let th := match s.isl.refCluster with
        | some r => angleOf s g memb c r tag ks
        | none => none
      let mid (x : Option Iv) : Scale := (x.map ivMid).getD qZero
      let v1 := { v with members := m, observed := n, f := mid (freqOf s g memb c tag), r := mid (rocofOf s g memb c tag det.rocofSpanMs)
                         theta := mid (th.map (ivScale (qmk 360 65536)))
                         unobsSince := if blind then (if v.unobsSince.isSome then v.unobsSince else some tag) else none
                         anchors := (s.isl.clusters.map (·.1)).foldl (fun l o =>
                           if o = c then l
                           else (angleOf s g memb c o tag ks).elim l (fun x => tset l o (tag, ivMid x))) v.anchors }
      let s1 := bumpIf blind 0x08000118 (modClu c (fun _ => v1) s)
      if blind ∧ v.unobsSince = none then
        raise 0x0803 2 (BitVec.ofNat 8 c :: leBytes 2 m ++ leBytes 2 n ++ leBytes 8 tag) none s1
      else if blind = false ∧ v.unobsSince ≠ none then raise 0x0804 0 (BitVec.ofNat 8 c :: leBytes 8 tag) none s1
      else s1) s0

/-- Breaker entries on boundaries at a release of a slab: TOPO_VETO where one reads closed, TOPO_MISSING where its report is missing (R214). -/
def noteTopology (g tag : Nat) (memb : Tbl Nat) (s : State) : State :=
  let r := (refOf s g tag memb).map (·.1)
  s.isl.breakers.foldl (fun t e =>
    let cs := (cluNums memb).filter (fun c => onBoundary memb c e.2 && decide (some c ≠ r))
    if cs = [] then t
    else match breakerAt t g tag e.2 with
      | none => bump 0x08000128 t
      | some (false, _) => t
      | some (true, _) =>
        cs.foldl (fun u c => raise 0x080D 1 (BitVec.ofNat 8 c :: leBytes 2 e.1 ++ leBytes 8 tag) none (bump 0x08000120 u)) t) s

/-- Membership of slabs that are done is dropped, but for the latest. -/
def dropMemb (g : Nat) (s : State) : State :=
  let newest := s.isl.memb.foldl (fun n e => max n e.1) 0
  let live (t : Nat) : Bool := decide (t = newest) || (getSlab s g t).any (fun v => !v.closed)
  { s with isl := { s.isl with memb := tkeep (fun t _ => live t) s.isl.memb } }

/-- A release of a slab of the cluster grid reaches the clusterer (R207, R215). -/
def clusterEvaluate (g tag : Nat) (v : Slab) (s0 : State) : State :=
  let (cfg, det) := cfgFor s0 v
  let ev := releaseTs v
  let s1 := bump 0x08000100 (modSlab g tag (fun x => { x with evals := releases v }) s0)
  let first := (tget s1.isl.memb tag).isNone
  let s2 := if first then
      let t := computeMembership g cfg tag ev s1
      let memb := tgetD t.isl.memb tag []
      noteClusters g cfg det tag memb (noteRef g tag memb t)
    else s1
  let s2t := if det.enables.getLsbD 0 then noteTopology g tag (tgetD s2.isl.memb tag []) s2 else s2
  let later := ((getGrid s2t g).slabs.map (·.1)).filter (fun t => decide (tag ≤ t))
  let s3 := later.foldl (fun t k => decideSlab g k tag ev v.merged t) s2t
  let memb := tgetD s3.isl.memb tag []
  let s4 := if (v.state = .final ∨ v.state = .history) ∧ s3.isl.lastClear ≤ tag then
      match refOf s3 g tag memb with
      | some (r, _) =>
        (s3.isl.clusters.map (·.1)).foldl (fun t c =>
          (List.range 4).foldl (fun u i => judgeClear g cfg det memb i c r tag ev u) (blindClear det c tag ev t))
          { s3 with isl := { s3.isl with lastClear := tag } }
      | none => s3
    else s3
  dropMemb g (closeDecisions g tag { s4 with isl := { s4.isl with lastEvalTag := tag } })

/-- A patch of a slab is delivered only while some condition on it is open (Table 6.6, R215). -/
def patchWanted (s : State) (g tag : Nat) : Bool :=
  (getGrid s g).slabs.any (fun e =>
    decide (tag ≤ e.1) && e.2.decisions.any (fun d =>
      decide ((d.2.status = .undecided ∨ d.2.status = .raisedPredicted) ∧ tag ∈ windowTags g e.1 (spanOf g (cfgFor s e.2).2 (d.1 % 4)))))

end Sys2Proof.Machine
end

