-- ==== Sys2Proof/Machine/Alarm.lean ====
section
/-!
DEFINITION. The commands and events of coherency clustering, islanding and the alarm stage (group 0x08, 08_islanding_alarms.md).
-/

namespace Sys2Proof.Machine

/-! ### Clusterer settings -/

/-- New settings, for slabs that open from now on (R234). -/
def newSettings (cfg : CluCfg) (det : DetCfg) (s : State) : State :=
  let old : List (Nat × CluCfg × DetCfg) := if s.isl.cfgHist = [] then [(0, s.isl.cfg, s.isl.det)] else s.isl.cfgHist
  { s with isl := { s.isl with cfg, det, cfgHist := ((elNs s, cfg, det) :: old).take 16 } }

/-- CLUSTER_CONFIG (R205, R234). -/
def execClusterConfig (h : Hdr) (p : ClusterConfigP) (s : State) : Out :=
  .next (vci (cmd 0x0801 .control false 12) h
    (fun _ => decide (7 ≤ p.grid.toNat ∧ p.grid.toNat ≤ 19 ∧ p.fNom.toNat < 2 ∧ 200 ≤ p.windowMs.toNat ∧ p.windowMs.toNat ≤ 2000 ∧
      1 ≤ p.joinMhz.toNat ∧ p.joinMhz.toNat ≤ 100 ∧ p.joinMhz.toNat < p.leaveMhz.toNat ∧ p.leaveMhz.toNat ≤ 200 ∧
      1 ≤ p.mergeMhz.toNat ∧ p.mergeMhz.toNat ≤ p.joinMhz.toNat ∧ 1 ≤ p.minMembers.toNat ∧ 1 ≤ p.obsPct.toNat ∧ p.obsPct.toNat ≤ 100 ∧
      50 ≤ p.usablePct.toNat ∧ p.usablePct.toNat ≤ 100 ∧ p.rsv = 0))
    (fun t =>
      if t.isl.signals ≠ [] ∧ t.isl.cfg.grid ≠ some p.grid.toNat then refuse .busy t
      else done (newSettings { grid := some p.grid.toNat, fNom60 := decide (p.fNom = 1), windowMs := p.windowMs.toNat, joinMhz := p.joinMhz.toNat
                               leaveMhz := p.leaveMhz.toNat, mergeMhz := p.mergeMhz.toNat, minMembers := p.minMembers.toNat
                               obsPct := p.obsPct.toNat, usablePct := p.usablePct.toNat } t.isl.det t)) s)

/-- A channel of a kind on the cluster grid. -/
def onCluGrid (t : State) (ch kind : Nat) : Bool :=
  decide (chanKind t ch = kind) &&
  (match chanOwner t ch with
   | some (h, _) => (match tget t.aln.streams h with
     | some a => decide (some a.grid = t.isl.cfg.grid)
     | none => false)
   | none => false)

/-- BUS_SIGNAL_ADD (R205). -/
def execBusSignalAdd (h : Hdr) (p : BusSignalP) (s : State) : Out :=
  let i := p.index.toNat
  .next (vci (cmd 0x0802 .control false 12) h
    (fun t => decide (p.rsv = 0 ∧ i < 16384 ∧ tget t.isl.signals i = none) && onCluGrid t p.fChan.toNat 3 && onCluGrid t p.aChan.toNat 1)
    (fun t =>
      if 16384 ≤ t.isl.signals.length then refuse .noResource t
      else done { t with isl := { t.isl with signals := tset t.isl.signals i { fChan := p.fChan.toNat, aChan := p.aChan.toNat, cluster := none
                                                                               usable := false, observed := false, dOwn := 0 } } }) s)

/-- BUS_SIGNAL_REMOVE (R208, R234): a cluster it leaves empty is freed at once. -/
def execBusSignalRemove (h : Hdr) (p : BusSignalP) (s : State) : Out :=
  let i := p.index.toNat
  .next (vci (cmd 0x0802 .control false 12) h
    (fun t => decide (p.rsv = 0 ∧ i < 16384 ∧ p.fChan = 0 ∧ p.aChan = 0) && (tget t.isl.signals i).isSome)
    (fun t =>
      let t1 := { t with isl := { t.isl with signals := tdel t.isl.signals i, memb := tmap (fun _ m => tdel m i) t.isl.memb } }
      let memb : Tbl Nat := t1.isl.signals.filterMap (fun e => e.2.cluster.map (fun c => (e.1, c)))
      done (freeEmpty memb t1.isl.lastEvalTag (taiNs t1) t1)) s)

/-- CLUSTER_REF (R209). -/
def execClusterRef (h : Hdr) (p : ClusterRefP) (s : State) : Out :=
  .next (vci (cmd 0x0803 .control false 16) h
    (fun _ => decide (p.ref.length = 8) && p.ref.all (fun r => decide (r = 0xFFFF ∨ r.toNat < 16384)))
    (fun t => done { t with isl := { t.isl with refList := p.ref.map (fun r => if r = 0xFFFF then none else some r.toNat) } }) s)

/-- BREAKER_MAP_ADD (R214): the lowest free entry. -/
def execBreakerMapAdd (h : Hdr) (p : BreakerMapP) (s : State) : Out :=
  .next (vci (cmd 0x0804 .control false 16) h
    (fun t => decide (p.bit.toNat < 16 ∧ p.entry = 0 ∧ p.sigA.toNat < 16384 ∧ p.sigB.toNat < 16384 ∧ p.closed.toNat < 2 ∧ p.rsv = 0 ∧
      chanKind t p.chan.toNat = 6))
    (fun t => match tfreeFrom t.isl.breakers 1024 0 with
      | none => refuse .noResource t
      | some e =>
        let b : Breaker := { bit := p.bit.toNat, chan := p.chan.toNat, sigA := p.sigA.toNat, sigB := p.sigB.toNat, closed := decide (p.closed = 1) }
        doneWith (leBytes 2 e ++ leBytes 2 0) { t with isl := { t.isl with breakers := tset t.isl.breakers e b } }) s)

/-- BREAKER_MAP_REMOVE (R234). -/
def execBreakerMapRemove (h : Hdr) (p : BreakerMapP) (s : State) : Out :=
  .next (vci (cmd 0x0804 .control false 16) h
    (fun t => decide (p.entry.toNat < 1024 ∧ p.rsv = 0 ∧ p.bit.toNat < 16 ∧ p.closed.toNat < 2) && (tget t.isl.breakers p.entry.toNat).isSome)
    (fun t => doneWith (leBytes 2 p.entry.toNat ++ leBytes 2 0) { t with isl := { t.isl with breakers := tdel t.isl.breakers p.entry.toNat } }) s)

/-- Ranges of DETECTOR-CONFIG (Table 8.15). -/
def detectorOk (p : DetectorConfigP) : Bool :=
  let conf (x : U16) : Bool := decide (x.toNat ≤ 2000)
  let clr (x : U16) : Bool := decide (x.toNat ≤ 60000)
  let mhz (x : U16) : Bool := decide (10 ≤ x.toNat ∧ x.toNat ≤ 5000)
  decide (p.enables.toNat < 16 ∧ p.rsv = 0 ∧ 1 ≤ p.unobsClearS.toNat ∧ p.unobsClearS.toNat ≤ 3600 ∧ 1 ≤ p.divHystMhz.toNat ∧
    p.divHystMhz.toNat < p.divMhz.toNat ∧ 50 ≤ p.rocofMhzs.toNat ∧ p.rocofMhzs.toNat ≤ 20000 ∧ 20 ≤ p.rocofSpanMs.toNat ∧
    p.rocofSpanMs.toNat ≤ 1000 ∧ 100 ≤ p.angThrCdeg.toNat ∧ p.angThrCdeg.toNat ≤ 18000 ∧ 1 ≤ p.angHystCdeg.toNat ∧
    p.angHystCdeg.toNat < p.angThrCdeg.toNat) &&
  mhz p.divMhz && mhz p.fexcLoMhz && mhz p.fexcHiMhz && conf p.islandConfMs && conf p.rocofConfMs && conf p.fexcConfMs && conf p.angConfMs &&
  clr p.islandClearMs && clr p.rocofClearMs && clr p.fexcClearMs && clr p.angClearMs

/-- DETECTOR_CONFIG (R213, R234). -/
def execDetectorConfig (h : Hdr) (p : DetectorConfigP) (s : State) : Out :=
  .next (vci (cmd 0x0805 .control false 36) h (fun _ => detectorOk p)
    (fun t => done (newSettings t.isl.cfg
      { divMhz := p.divMhz.toNat, divHystMhz := p.divHystMhz.toNat, islandConfMs := p.islandConfMs.toNat, islandClearMs := p.islandClearMs.toNat
        rocofMhzs := p.rocofMhzs.toNat, rocofSpanMs := p.rocofSpanMs.toNat, rocofConfMs := p.rocofConfMs.toNat
        rocofClearMs := p.rocofClearMs.toNat, fexcLoMhz := p.fexcLoMhz.toNat, fexcHiMhz := p.fexcHiMhz.toNat, fexcConfMs := p.fexcConfMs.toNat
        fexcClearMs := p.fexcClearMs.toNat, angThrCdeg := p.angThrCdeg.toNat, angHystCdeg := p.angHystCdeg.toNat
        angConfMs := p.angConfMs.toNat, angClearMs := p.angClearMs.toNat, enables := BitVec.ofNat 4 p.enables.toNat
        unobsClearS := p.unobsClearS.toNat } t)) s)

/-- CLUSTER_EVALUATION: a release of the slab of the cluster grid with this tag that has not been evaluated (R207, R215). -/
def execClusterEvaluation (tag : U64) (s : State) : Out :=
  let k := tag.toNat
  .next (match s.isl.cfg.grid with
    | none => s
    | some g => match getSlab s g k with
      | none => s
      | some v =>
        if v.state = .forming ∨ releases v ≤ v.evals then s
        else if 0 < v.patches ∧ patchWanted s g k = false then closeDecisions g k (modSlab g k (fun x => { x with evals := releases v }) s)
        else inTurn (clusterEvaluate g k v) s)

/-! ### The alarm map -/

/-- ALARM_MAP_SET (R220). -/
def execAlarmMapSet (h : Hdr) (p : AlarmMapP) (s : State) : Out :=
  .next (vci (cmd 0x0806 .control false 12) h
    (fun _ => decide (p.rsv = 0 ∧ p.entry.toNat < 256 ∧ p.first.toNat ≤ p.last.toNat ∧ p.rsv2 = 0))
    (fun t => done { t with alm := { t.alm with map := tset t.alm.map p.entry.toNat (p.first.toNat, p.last.toNat, p.stages) } }) s)

/-- ALARM_MAP_REMOVE (R220, R234). -/
def execAlarmMapRemove (h : Hdr) (p : AlarmMapP) (s : State) : Out :=
  .next (vci (cmd 0x0806 .control false 12) h
    (fun t => decide (p.rsv = 0 ∧ p.entry.toNat < 256 ∧ p.first.toNat ≤ p.last.toNat ∧ p.rsv2 = 0) && (tget t.alm.map p.entry.toNat).isSome)
    (fun t => done { t with alm := { t.alm with map := tdel t.alm.map p.entry.toNat } }) s)

/-! ### Stage commands (R221 to R223) -/

/-- The claim of a partition suffices for a stage (R56, R221). -/
def stageClaimOk (t : State) (p : HP) (n : Nat) : Bool :=
  let v := getStage t n
  claimOk t p v.everEnabled v.claim

/-- A port or a pair. -/
def targetOk (k : U8) : Bool := decide (k.toNat < 12 ∨ k = 0x10 ∨ k = 0x11)

/-- The settings of ALARM-STAGE. -/
def stageSettings (p : AlarmStageP) (v : Stage) : Stage :=
  { v with latch := decide (p.mode = 1), activeLow := p.flags.getLsbD 0, frame := p.flags.getLsbD 1, goose := p.flags.getLsbD 2
           timed := p.flags.getLsbD 3, minOnMs := p.minOnMs.toNat, frameTarget := p.frameTarget.toNat, offsetUs := p.offsetUs.toNat
           dstPort := p.dstPort, srcPort := p.srcPort, dstAddr := p.dstAddr }

/-- ALARM_STAGE (R221, R222). -/
def execAlarmStage (h : Hdr) (p : AlarmStageP) (s : State) : Out :=
  let n := p.stage.toNat
  .next (vci (cmd 0x0807 .stage true 36) h
    (fun _ => decide (n < 16 ∧ p.enable.toNat < 2 ∧ p.mode.toNat < 2 ∧ p.flags.toNat < 16 ∧ p.minOnMs.toNat ≤ 10000 ∧ p.rsv = 0 ∧
      p.offsetUs.toNat ≤ 1000000 ∧ p.rsv2 = 0 ∧ p.rsv3 = 0) && targetOk p.frameTarget)
    (fun t =>
      if stageClaimOk t h.part n = false then refuse .notController t
      else
        let v := getStage t n
        let on := decide (v.state ≠ .disabled) && v.frame
        let t1 := setStage n { stageSettings p v with lastState := if on then v.lastState else refreshAt t t.alm.refreshMs } t
        if p.enable = 1 then
          let t2 := modStage n (fun x => { x with claim := (getPart t h.part).claim, everEnabled := true }) t1
          if v.state = .disabled then
            let t3 := modStage n (fun x => { x with acked := false }) t2
            done (gooseStart n (pinFollow n (stageState n (if v.active = [] then .inactive else .active) 0 t3)))
          else if v.goose = false ∧ p.flags.getLsbD 2 then done (gooseStart n t2)
          else if p.flags.getLsbD 2 = false then done (gooseStop n t2)
          else done t2
        else
          done (gooseStop n (modStage n (fun x => { x with pin := false, testEnd := none }) (stageState n .disabled 0 t1)))) s)

/-- ALARM-ACK on one stage (Table 8.4). -/
def ackOn (n : Nat) (s : State) : State :=
  match (getStage s n).state with
  | .active => modStage n (fun v => { v with acked := true }) s
  | .latched =>
    gooseChange n 0 (taiNs s) 0 false false false
      (pinFollow n (modStage n (fun v => { v with rel := some (0, ⟨taiNs s, 0, none⟩) }) (stageState n .inactive 0 s)))
  | _ => s

/-- ALARM_ACK (R223, R234). -/
def execAlarmAck (h : Hdr) (p : AlarmAckP) (s : State) : Out :=
  let ns := stageList p.stages.toNat
  .next (vci (cmd 0x0808 .stage true 4) h (fun _ => decide (p.rsv = 0))
    (fun t =>
      if ns.all (fun n => stageClaimOk t h.part n) = false then refuse .notController t
      else done (ns.foldl (fun u n => ackOn n u) t)) s)

def alarmTestOk (p : AlarmTestP) : Bool := decide (p.stage.toNat < 16 ∧ 1 ≤ p.durationMs.toNat ∧ p.durationMs.toNat ≤ 60000)

/-- ALARM_TEST_FORCE (R223). -/
def execAlarmTestForce (h : Hdr) (p : AlarmTestP) (s : State) : Out :=
  let n := p.stage.toNat
  .next (vci (cmd 0x0809 .stage false 4) h (fun _ => alarmTestOk p)
    (fun t =>
      if stageClaimOk t h.part n = false then refuse .notController t
      else if (getStage t n).state = .disabled then refuse .busy t
      else
        let t1 := stageState n .test 0 t
        let t2 := pinFollow n (modStage n (fun x => { x with testEnd := some (elNs t + p.durationMs.toNat * 1000000) }) t1)
        done (gooseChange n 0 (taiNs t) 0 false false false (plainFrame 4 n (taiNs t) 16 t2))) s)

/-- TEST ends: the state is recomputed from the stage's alarms (Table 8.4). -/
def endTest (n : Nat) (s : State) : State :=
  let v := getStage s n
  let s1 := stageState n (if v.active = [] then .inactive else .active) 0 s
  let s2 := pinFollow n (modStage n (fun x => { x with testEnd := none, acked := false, rel := some (0, ⟨taiNs s, 0, none⟩) }) s1)
  gooseChange n 0 (taiNs s) 0 false false false s2

/-- ALARM_TEST_RELEASE (R223). -/
def execAlarmTestRelease (h : Hdr) (p : AlarmTestP) (s : State) : Out :=
  let n := p.stage.toNat
  .next (vci (cmd 0x0809 .stage false 4) h (fun _ => alarmTestOk p)
    (fun t =>
      if stageClaimOk t h.part n = false then refuse .notController t
      else if (getStage t n).state = .test then done (endTest n t)
      else done t) s)

/-- ALARM_TEST_EXPIRY: duration elapsed. -/
def execAlarmTestExpiry (stage : BitVec 4) (s : State) : Out :=
  let n := stage.toNat
  .next (match (getStage s n).testEnd with
    | some e => if (getStage s n).state = .test ∧ e ≤ elNs s then endTest n s else s
    | none => s)

/-- PIN_MIN_ON_EXPIRY (R222). -/
def execPinMinOnExpiry (stage : BitVec 4) (s : State) : Out := .next (pinFollow stage.toNat s)

/-! ### Frames and GOOSE -/

/-- ALARM_FRAME_CONFIG (R225, R229, R486). -/
def execAlarmFrameConfig (h : Hdr) (p : AlarmFrameConfigP) (s : State) : Out :=
  .next (vci (cmd 0x080A .control false 8) h
    (fun t => decide (p.rep.toNat < 8 ∧ 1 ≤ p.repMs.toNat ∧ p.repMs.toNat ≤ 50 ∧ 100 ≤ p.refreshMs.toNat ∧ p.refreshMs.toNat ≤ 10000) &&
      (p.rxPort = 0 || !portTaken t 3 false p.rxPort.toNat allMacs))
    (fun t => done { t with alm := { t.alm with sourceId := p.sourceId, rep := p.rep.toNat, repMs := p.repMs.toNat
                                                refreshMs := p.refreshMs.toNat, rxPort := p.rxPort
                                                stages := tmap (fun _ v => { v with lastState := refreshAt t p.refreshMs.toNat })
                                                  t.alm.stages } }) s)

/-- 64 B of ASCII padded with NUL. -/
def asciiOk (b : Bytes) : Bool :=
  decide (b.length = 64) && b.all (fun c => decide (c.toNat < 128)) && (b.dropWhile (fun c => decide (c ≠ 0))).all (fun c => decide (c = 0))

/-- ALARM_GOOSE_CONFIG (R227): confRev counts configurations. -/
def execAlarmGooseConfig (h : Hdr) (p : AlarmGooseConfigP) (s : State) : Out :=
  let n := p.stage.toNat
  .next (vci (cmd 0x080B .stage false 208) h
    (fun _ => decide (n < 16 ∧ p.appid.toNat ≤ 0x3FFF ∧ p.vlan.getLsbD 12 = false ∧ 1 ≤ p.tMinMs.toNat ∧ p.tMinMs.toNat ≤ 16 ∧
      100 ≤ p.tMaxMs.toNat ∧ p.tMaxMs.toNat ≤ 10000 ∧ 0x010CCD010000 ≤ p.dstMac.toNat ∧ p.dstMac.toNat ≤ 0x010CCD0101FF ∧
      p.gocbRef.headD 0 ≠ 0) && targetOk p.target && asciiOk p.gocbRef && asciiOk p.datSet && asciiOk p.goId)
    (fun t =>
      if stageClaimOk t h.part n = false then refuse .notController t
      else
        let v := getStage t n
        let g0 : Goose := match v.gse with
          | some g => g
          | none => { target := 0, appid := 0, vlan := 0, tMinMs := 0, tMaxMs := 0, dstMac := 0, gocbRef := [], datSet := [], goId := []
                      stNum := 0, sqNum := 0, confRev := 0, nextEl := none, intervalMs := 0, questionable := false, evTs := 0, alarm := 0
                      changes := 0 }
        let g1 := { g0 with target := p.target.toNat, appid := p.appid, vlan := p.vlan, tMinMs := p.tMinMs.toNat, tMaxMs := p.tMaxMs.toNat
                            dstMac := p.dstMac, gocbRef := p.gocbRef, datSet := p.datSet, goId := p.goId, confRev := g0.confRev + 1 }
        let t1 := setStage n { v with gse := some g1 } t
        done (if v.gse.isNone then gooseStart n t1 else t1)) s)

/-- A repeat of a RAISE: its own seq, and REPEAT (R225). -/
def repeatBody (seq : Nat) (b : Bytes) : Bytes :=
  b.take 12 ++ leBytes 4 seq ++ (b.drop 16).take 24 ++ leBytes 2 (leNat ((b.drop 40).take 2) ||| 4) ++ b.drop 42

/-- Send the repeats of a stage that are due, one of each RAISE; a RAISE of which no bit went out has none. -/
def sendRepeats (n : Nat) : List Repeat → State → List Repeat × State
  | [], s => ([], s)
  | r :: t, s =>
    let due := match r.baseEl with
      | some b => decide (r.stage = n ∧ b + (r.sent + 1) * s.alm.repMs * 1000000 ≤ elNs s)
      | none => false
    if r.baseEl.isNone ∧ (getFrame s r.ref).isNone then sendRepeats n t s
    else if due then
      let body := repeatBody s.alm.seq.toNat r.body
      let s1 := (sendAlarm n body none none { s with alm := { s.alm with seq := s.alm.seq + 1 } }).2
      let (t1, s2) := sendRepeats n t s1
      (if r.sent + 1 < r.total then { r with sent := r.sent + 1 } :: t1 else t1, s2)
    else let (t1, s1) := sendRepeats n t s; (r :: t1, s1)

/-- ALARM_FRAME_REPEAT (R225). -/
def execAlarmFrameRepeat (stage : BitVec 4) (s : State) : Out :=
  let (l, t) := sendRepeats stage.toNat s.alm.repeats s
  .next { t with alm := { t.alm with repeats := l } }

/-- ALARM_STATE_REFRESH (R225): at a multiple of refresh_ms of device time that no STATE frame of the stage has been sent for. -/
def execAlarmStateRefresh (stage : BitVec 4) (s : State) : Out :=
  let n := stage.toNat
  let v := getStage s n
  let k := refreshAt s s.alm.refreshMs
  .next (if v.state = .disabled ∨ v.frame = false ∨ v.lastState = k then s
    else plainFrame 3 n k 0 (setStage n { v with lastState := k } s))

/-- GOOSE_RETRANSMIT (R227). -/
def execGooseRetransmit (stage : BitVec 4) (s : State) : Out :=
  let n := stage.toNat
  let v := getStage s n
  .next (match v.gse with
    | none => s
    | some g => match g.nextEl with
      | none => s
      | some e =>
        if e ≤ elNs s ∧ v.goose ∧ v.state ≠ .disabled then
          let iv := min g.tMaxMs (g.intervalMs * 2)
          let g1 := { g with sqNum := wrapOne g.sqNum, intervalMs := iv, nextEl := some (elNs s + iv * 1000000) }
          sendGoose n none none (setStage n { v with gse := some g1 } s)
        else s)

/-- ALARM_FRAME_RX (R229). -/
def execAlarmFrameRx (f : AlarmRx) (s : State) : Out :=
  .next (if s.alm.rxPort = 0 then s
    else
      let t := popIn f.port.toNat .c0 s
      let seen := tgetD t.alm.rxSeen f.sourceId.toNat []
      if f.poisoned then t
      else if f.len ≠ 64 ∨ f.magic ≠ 0x4F54414C ∨ f.version ≠ 1 then bump 0x08000170 t
      else if seen.contains f.seq then bump 0x08000178 t
      else
        let t1 := { t with alm := { t.alm with rxSeen := tset t.alm.rxSeen f.sourceId.toNat ((f.seq :: seen).take 16) } }
        raise 0x0810 1 (leBytes 2 f.sourceId.toNat ++ [f.kind, f.stage] ++ leBytes 2 f.alarm.toNat ++ [f.claim] ++ leBytes 2 f.flags.toNat ++
          leBytes 8 f.evTs.toNat) none (bump 0x08000168 t1))

end Sys2Proof.Machine
end

