-- ==== Sys2Proof/Machine/EstOps.lean ====
section
/-!
DEFINITION. The arithmetic of the mode estimators (7.4 of 07_oscillation.md): the band-pass, the autoregressive model with its recursive least
squares, the poles of the model, and the fit of amplitude and phase. The rules state the steps and not the number format: values are computed
in fixed point or as rationals and rounded to binary32 where they are stored (log entry 24).
-/

namespace Sys2Proof.Machine

/-! ### Single precision -/

/-- An operation on finite binary32 words, rounded once. -/
def fop (f : Scale → Scale → Scale) (a b : U32) : U32 := f32ofQ (f (f32val a) (f32val b))
def fadd (a b : U32) : U32 := fop qadd a b
def fsub (a b : U32) : U32 := fop qsub a b
def fmul (a b : U32) : U32 := fop qmul a b

/-- A free word that is a finite number. -/
def finiteWord (x : Nat) : U32 := let w : U32 := BitVec.ofNat 32 x; if (f32toQ w).isSome then w else 0

/-! ### Complex numbers in fixed point, and the poles of a model -/

structure FxCx where
  re : Int
  im : Int

def fxAdd (a b : FxCx) : FxCx := ⟨a.re + b.re, a.im + b.im⟩
def fxSub (a b : FxCx) : FxCx := ⟨a.re - b.re, a.im - b.im⟩
def fxMul (a b : FxCx) : FxCx := ⟨(a.re * b.re - a.im * b.im) / (fx : Int), (a.re * b.im + a.im * b.re) / (fx : Int)⟩
def cnorm (a : FxCx) : Int := a.re * a.re + a.im * a.im
def cdiv (a b : FxCx) : FxCx :=
  let n := cnorm b
  if n = 0 then ⟨0, 0⟩ else ⟨(a.re * b.re + a.im * b.im) * (fx : Int) / n, (a.im * b.re - a.re * b.im) * (fx : Int) / n⟩
def cabs (a : FxCx) : Nat := isqrt (cnorm a).toNat

/-- The polynomial z^8 − w₁ z^7 − … − w₈ of a model at a point. -/
def polyAt (w : List Int) (z : FxCx) : FxCx := w.foldl (fun acc c => fxSub (fxMul acc z) ⟨c, 0⟩) ⟨(fx : Int), 0⟩

/-- One step towards the roots of a polynomial, all at once. -/
def rootStep (w : List Int) (zs : List FxCx) : List FxCx :=
  zs.zipIdx.map (fun (z, i) =>
    let d := zs.zipIdx.foldl (fun a (y, j) => if i = j then a else fxMul a (fxSub z y)) (⟨(fx : Int), 0⟩ : FxCx)
    fxSub z (cdiv (polyAt w z) d))

/-- The poles of a model of order 8. -/
def polesOf (w : List Int) : List FxCx :=
  let q : FxCx := ⟨4 * (fx : Int) / 10, 9 * (fx : Int) / 10⟩
  let start := (List.range 8).map (fun k => (List.range k).foldl (fun a _ => fxMul a q) (⟨(fx : Int), 0⟩ : FxCx))
  (List.range 200).foldl (fun zs _ => rootStep w zs) start

/-- Argument of a pole, rad. -/
def argOf (z : FxCx) : Scale := atan2Q (ofFx z.im) (ofFx z.re)

/-- Frequency of a pole, Hz (R193). -/
def poleFreq (rate : Nat) (z : FxCx) : Scale := qdiv (qmul (argOf z) (qNat rate)) (qmul (qNat 2) piQ)

/-- Damping ratio of a pole: −ln|r| / √(ln²|r| + arg²(r)). -/
def poleZeta (z : FxCx) : Scale :=
  let l := lnFx (max (cabs z) 1)
  let a := toFx (argOf z)
  let d := isqrt (l * l + a * a).toNat
  qdiv (qInt (-l)) (qNat d)

/-- What the model's spectrum has in its denominator at a pole's frequency: the smaller, the higher its peak. -/
def peakDen (w : List Int) (z : FxCx) : Int :=
  let a := toFx (argOf z)
  cnorm (polyAt w ⟨cosRad a, sinRad a⟩)

/-- Of the complex pole pairs with a frequency between two edges (mHz), the one with the highest peak. -/
def pickPole (lo hi rate : Nat) (w : List Int) : Option FxCx :=
  let inside (z : FxCx) : Bool := decide (0 < z.im) && qle (qmk lo 1000) (poleFreq rate z) && qle (poleFreq rate z) (qmk hi 1000)
  (((polesOf w).filter inside).foldl (fun (r : Option (FxCx × Int)) z =>
    let d := peakDen w z
    match r with
    | some (y, e) => if d < e then some (z, d) else some (y, e)
    | none => some (z, d)) none).map (·.1)

/-! ### The band-pass and the model (R193, R194) -/

def EstModel.init : EstModel :=
  { xs := [], sig := [], w := List.replicate 8 0
    p := ((List.range 8).map (fun i => (List.range 8).map (fun j => if i = j then Config.rlsStart else 0))).flatten }

/-- One step of the fourth-order band-pass of a band (its coefficients are free: log entry 24): the model with the new value of the filtered
signal, of which some time is kept. -/
def filterStep (b rate keepNs tag : Nat) (x : U32) (m : EstModel) : EstModel :=
  let xs := x :: m.xs
  let num := qsum ((List.range 5).map (fun i => qmul (Config.butterNum b rate i) (f32val (lget xs i 0))))
  let den := qsum ((List.range 4).map (fun i => qmul (Config.butterDen b rate (i + 1)) (f32val (lget (m.sig.map (·.2)) i 0))))
  { m with xs := xs.take 4, sig := ((tag, f32ofQ (qsub num den)) :: m.sig).filter (fun e => decide (tag < e.1 + keepNs)) }

def dotQ (a b : List Scale) : Scale := qsum (List.zipWith qmul a b)

/-- The last eight filtered values, the newest first, leaving out the newest `n`. -/
def regressor (m : EstModel) (n : Nat) : List Scale := (List.range 8).map (fun i => f32val (lget (m.sig.map (·.2)) (i + n) 0))

/-- The model's prediction of the next filtered value. -/
def oneStep (m : EstModel) : U32 := f32ofQ (dotQ (m.w.map f32val) (regressor m 0))

/-- Recursive least squares with forgetting factor λ on the newest filtered value. -/
def modelStep (lam : Scale) (m : EstModel) : EstModel :=
  let phi := regressor m 1
  let y := f32val (lget (m.sig.map (·.2)) 0 0)
  let p (i j : Nat) : Scale := f32val (lget m.p (8 * i + j) 0)
  let pphi := (List.range 8).map (fun i => dotQ ((List.range 8).map (p i)) phi)
  let d := qadd lam (dotQ phi pphi)
  let k := pphi.map (fun x => qdiv x d)
  let e := qsub y (dotQ (m.w.map f32val) phi)
  { m with w := (List.range 8).map (fun i => f32ofQ (qadd (f32val (lget m.w i 0)) (qmul (lget k i qZero) e)))
           p := ((List.range 8).map (fun i => (List.range 8).map (fun j =>
             f32ofQ (qdiv (qsub (p i j) (qmul (lget k i qZero) (lget pphi j qZero))) lam)))).flatten }

/-! ### Amplitude and phase -/

/-- Sums of a least-squares fit: of u², v², uv, yu and yv. -/
structure FitSums where
  uu : Int
  vv : Int
  uv : Int
  yu : Int
  yv : Int

/-- Least-squares fit of A e^{−2πfζ(t − t_n)} cos(2πf(t − t_n) + φ) to the filtered signal over its last two cycles: A and φ. -/
def fitSignal (f zeta : Scale) (tag : Nat) (sig : List (Nat × U32)) : Scale × U16 :=
  let w := qmul (qmul (qNat 2) piQ) f
  let span := if f.num ≤ 0 then 0 else (qfloor (qdiv (qNat 2000000000) f)).toNat
  let s := (sig.filter (fun e => decide (tag ≤ e.1 + span))).foldl (fun (a : FitSums) e =>
    let dt := qmk (-((tag - e.1 : Nat) : Int)) 1000000000
    let g := expFx (toFx (qneg (qmul (qmul w zeta) dt)))
    let x := toFx (qmul w dt)
    let u := g * cosRad x / (fx : Int)
    let v := g * sinRad x / (fx : Int)
    let y := toFx (f32val e.2)
    ⟨a.uu + u * u / (fx : Int), a.vv + v * v / (fx : Int), a.uv + u * v / (fx : Int), a.yu + y * u / (fx : Int), a.yv + y * v / (fx : Int)⟩) ⟨0, 0, 0, 0, 0⟩
  let d := s.uu * s.vv - s.uv * s.uv
  if d = 0 then (qZero, 0)
  else
    let c := (s.yu * s.vv - s.yv * s.uv) * (fx : Int) / d
    let sn := (s.yu * s.uv - s.yv * s.uu) * (fx : Int) / d
    (ofFx (isqrt (c * c + sn * sn).toNat), angUnits (atan2Q (ofFx sn) (ofFx c)))

end Sys2Proof.Machine
end

