-- ==== Sys2Proof/Machine/OscOps.lean ====
section
/-!
DEFINITION. The oscillation screen, the estimators' slots, modes and their alarm conditions (07_oscillation.md). The resonators are computed in
binary32, an operation at a time; what the rules name without giving it (the filters' design, standard deviations, coherence, the share of
energy) is free (log entries 20 and 24).
-/

namespace Sys2Proof.Machine

/-! ### Bands (Table 7.1) -/

/-- Lower and upper edge, centre and width in mHz, and the minimum rate. -/
def band (b : Nat) : Nat × Nat × Nat × Nat × Nat :=
  match b with
  | 0 => (10, 100, 55, 90, 1)
  | 1 => (100, 800, 450, 700, 2)
  | 2 => (800, 2500, 1650, 1700, 6)
  | 3 => (2500, 5000, 3750, 2500, 12)
  | 4 => (5000, 15000, 10000, 10000, 50)
  | _ => (15000, 45000, 30000, 30000, 100)

def bandLo (b : Nat) : Nat := (band b).1
def bandHi (b : Nat) : Nat := (band b).2.1
def bandMid (b : Nat) : Nat := (band b).2.2.1
def bandWidth (b : Nat) : Nat := (band b).2.2.2.1
def bandRate (b : Nat) : Nat := (band b).2.2.2.2

/-- A band is computed on a grid (R184). -/
def bandOn (s : State) (g b : Nat) : Bool := s.osc.set.bandMask.getLsbD b && decide (bandRate b ≤ rateOfGrid g)

/-! ### Resonators (R185) -/

/-- ρ_b on a grid (R185): π BW T with BW in mHz. -/
def rho (b g : Nat) : Nat := expNegFx (piQ.num.toNat * bandWidth b) (piQ.den * 1000 * rateOfGrid g)

/-- f_b T as an angle in 2^-16 turn, and what is left of it. -/
def rotation (b g : Nat) : Int × Int :=
  let d := 1000 * rateOfGrid g
  let u := bandMid b * 65536 / d
  let rest : Int := (bandMid b * 65536 % d * 2 * piQ.num.toNat * fx / (d * 65536 * piQ.den) : Nat)
  let c0 := cosFx u
  let s0 := sinFx u
  let c1 := trigSeries (rest * rest / (fx : Int)) 6 0 (fx : Int) 0
  let s1 := trigSeries (rest * rest / (fx : Int)) 6 1 rest 0
  ((c0 * c1 - s0 * s1) / (fx : Int), (s0 * c1 + c0 * s1) / (fx : Int))

/-! ### Stored resonators (Table 7.2) -/

/-- A component of a resonator: mantissa × 2^(exp − 15). -/
def comp (m : BitVec 16) (e : BitVec 8) : Scale := qmul (qInt m.toInt) (qpow2 (e.toInt - 15))

def resonRe (r : Reson) : Scale := comp r.re r.exp
def resonIm (r : Reson) : Scale := comp r.im r.exp

/-- Store a complex value: the smallest exponent that holds both mantissas, each rounded to nearest. -/
def mkReson (x y : Scale) : Reson :=
  let top (a : Scale) : Int := if a.num = 0 then -128 else qlog2 (qabs a) + 1
  let e0 := clampInt (-128) 127 (max (top x) (top y))
  let mant (e : Int) (a : Scale) : Int := qround (qmul a (qpow2 (15 - e)))
  let fits (e : Int) : Bool := decide ((mant e x).natAbs ≤ 32767 ∧ (mant e y).natAbs ≤ 32767)
  let e := if fits e0 then e0 else clampInt (-128) 127 (e0 + 1)
  if x.num = 0 ∧ y.num = 0 then ⟨0, 0, 0⟩
  else ⟨BitVec.ofInt 16 (clampInt (-32768) 32767 (mant e x)), BitVec.ofInt 16 (clampInt (-32768) 32767 (mant e y)), BitVec.ofInt 8 e⟩

def resonZero : Reson := ⟨0, 0, 0⟩

/-- One step of a resonator (R185), in binary32: each product and each sum is rounded. -/
def resonStep (b g : Nat) (r : Reson) (x : U32) : Reson :=
  let p : Scale := ⟨(rho b g : Int), fx⟩
  let (c, sn) := rotation b g
  let a := f32ofQ (qmul p ⟨c, fx⟩)
  let b := f32ofQ (qmul p ⟨sn, fx⟩)
  let re := f32ofQ (resonRe r)
  let im := f32ofQ (resonIm r)
  mkReson (f32val (fadd (fsub (fmul a re) (fmul b im)) (fmul (f32ofQ (qsub (qNat 1) p)) x))) (f32val (fadd (fmul b re) (fmul a im)))

/-- Add (1 − ρ) δ to a resonator (R190). -/
def resonFix (b g : Nat) (r : Reson) (d : U32) : Reson :=
  mkReson (f32val (fadd (f32ofQ (resonRe r)) (fmul (f32ofQ (qsub (qNat 1) ⟨(rho b g : Int), fx⟩)) d))) (resonIm r)

/-- E_b = 2 |z|², in binary32. -/
def energy (r : Reson) : Scale :=
  let re := f32ofQ (resonRe r)
  let im := f32ofQ (resonIm r)
  f32val (fmul (f32ofQ (qNat 2)) (fadd (fmul re re) (fmul im im)))

/-- L = round(log2(E) × 256), clamped (R188); the least value where E is zero. -/
def logE (e : Scale) : Int :=
  if e.num ≤ 0 then -32768
  else
    let p : Scale := ⟨((e.num.toNat ^ 512 : Nat) : Int), e.den ^ 512⟩
    clampInt (-32768) 32767 ((qlog2 p + 1) / 2)

/-! ### Channels -/

def scrInit (g : Nat) : ScrChan :=
  { m := none, z := List.replicate 6 resonZero, base := List.replicate 6 0, flags := 0, warm := 0, grid := g, vUsed := none, mUsed := none, xUsed := none
    lastL := List.replicate 6 (-32768) }

def getScr (s : State) (ch g : Nat) : ScrChan := tgetD s.osc.chans ch (scrInit g)
def setScr (ch : Nat) (c : ScrChan) (s : State) : State := { s with osc := { s.osc with chans := tset s.osc.chans ch c } }

/-- Kinds 1, 2 and 5 are taken relative to the mean (R183). -/
def relKind (kind : Nat) : Bool := decide (kind = 1 ∨ kind = 2 ∨ kind = 5)

/-- The divisor of a deviation: none where the spec states no result, 1 where it is not relative. -/
def divisor (kind : Nat) (m : Scale) : Option Scale :=
  if relKind kind = false then some (qNat 1)
  else if kind = 5 ∧ qlt (qabs m) ⟨1, 1000000⟩ then some (qNat 1)
  else if m.num = 0 then none
  else some (qabs m)

/-- The deviation x of a value from a mean (R183); a free value where the mean is zero. -/
def deviation (kind : Nat) (v m : Scale) (s : State) : U32 × State :=
  match divisor kind m with
  | some d => (f32ofQ (qdiv (f32val (f32ofQ (qsub v m))) d), s)
  | none => let (x, t) := fresh s; (finiteWord x, t)

/-- The screening state of a channel as the host reads it (Table 7.2): a band that is not computed reads zero (R184), and so does a mean that
no report has given yet (DESIGN CHOICE, log entry 64). -/
def screenBytes (s : State) (c : ScrChan) : Bytes :=
  let on (b : Nat) : Bool := bandOn s c.grid b
  leBytes 4 (c.m.getD 0).toNat ++
  ((List.range 6).map (fun b =>
    let r := if on b then lget c.z b resonZero else resonZero
    leBytes 2 r.re.toNat ++ leBytes 2 r.im.toNat ++ [r.exp])).flatten ++
  ((List.range 6).map (fun b => leBytes 2 (if on b then (lget c.base b 0).toNat else 0))).flatten ++
  leBytes 2 (c.flags.toNat + 64 * c.warm)

/-- Square of the floor of a kind (R189). -/
def floorSq (o : OscSet) (kind : Nat) : Scale :=
  let f := match kind with
    | 3 => o.floorF
    | 4 => o.floorRocof
    | _ => o.floorRel
  qmk (f * f : Nat) (10 ^ 12)

/-- Score of a band in units of dB × 256 / 3.0103, against a threshold in dB: score ≥ thr. -/
def scoreAtLeast (l base : Int) (db : Nat) : Bool := decide ((db : Int) * 2560000 ≤ (l - base) * 30103)

/-- Recompute the flags of a channel from its resonators (R189): its bands' L and flags. -/
def reflag (s : State) (kind g : Nat) (c : ScrChan) : ScrChan :=
  let o := s.osc.set
  let one (b : Nat) : Int × Bool :=
    let e := energy (lget c.z b resonZero)
    let l := logE e
    let base := (lget c.base b 0).toInt
    let fl := c.flags.getLsbD b
    if bandOn s g b = false then (l, false)
    else if decide (o.warmS ≤ c.warm) && scoreAtLeast l base o.thrOnDb && qle (floorSq o kind) e then (l, true)
    else if !scoreAtLeast l base o.thrOffDb || qlt e (qdiv (floorSq o kind) (qNat 2)) then (l, false)
    else (l, fl)
  let r := (List.range 6).map one
  { c with lastL := r.map (·.1)
           flags := BitVec.ofNat 6 ((r.map (·.2)).zipIdx.foldl (fun n (f, i) => if f then n + 2 ^ i else n) 0) }

/-- Channel score: the band and its score, in the units of L, of a flagged channel (R189). -/
def chanScore (c : ScrChan) : Option (Nat × Int) :=
  (List.range 6).foldl (fun r b =>
    if c.flags.getLsbD b then
      let sc := lget c.lastL b 0 - (lget c.base b 0).toInt
      match r with
      | some (b0, x) => if x < sc then some (b, sc) else some (b0, x)
      | none => some (b, sc)
    else r) none

/-- A score as 0.01 dB. -/
def scoreCdb (sc : Int) : Int := qround (qmk (sc * 30103) 25600)

/-- Score of the channel of a slot now: its best flagged band, or the best band where none is flagged. -/
def scoreNow (c : ScrChan) : Int :=
  match chanScore c with
  | some (_, x) => x
  | none => (List.range 6).foldl (fun m b => max m (lget c.lastL b 0 - (lget c.base b 0).toInt)) (-65535)

/-- Learn a baseline (R188). -/
def learnBase (s : State) (g : Nat) (c : ScrChan) : ScrChan :=
  let one (b : Nat) : BitVec 16 :=
    let l := logE (energy (lget c.z b resonZero))
    let base := lget c.base b 0
    if bandOn s g b = false then base
    else if c.warm = 0 then BitVec.ofInt 16 l
    else
      let sh := if c.warm < s.osc.set.warmS then 4 else s.osc.set.baseShift
      let d0 := l - base.toInt
      let d := if c.flags.getLsbD b ∧ 0 < d0 then 0 else d0
      if d = 0 then base
      else
        let k : Int := (max 1 (d.natAbs / 2 ^ sh) : Nat)
        BitVec.ofInt 16 (if 0 < d then base.toInt + k else base.toInt - k)
  { c with base := (List.range 6).map one, warm := min (c.warm + 1) 1023 }

/-! ### Settings by slab (R204) -/

/-- Settings in force for a slab: those committed last when it opened. -/
def oscFor (s : State) (g tag : Nat) : OscSet :=
  match (getSlab s g tag).bind (fun v => s.osc.hist.find? (fun e => decide (e.1 ≤ v.openEl))) with
  | some e => e.2
  | none => s.osc.set

/-- Work on a slab, under the settings that it has; the registers keep theirs. -/
def underSlab (g tag : Nat) (f : State → State) (s : State) : State :=
  let t := f { s with osc := { s.osc with set := oscFor s g tag } }
  { t with osc := { t.osc with set := s.osc.set } }

/-- New settings, for slabs that open from now on. -/
def newOscSet (o : OscSet) (s : State) : State :=
  let old : List (Nat × OscSet) := if s.osc.hist = [] then [(0, s.osc.set)] else s.osc.hist
  { s with osc := { s.osc with set := o, hist := ((elNs s, o) :: old).take 16 } }

/-! ### Alarm conditions (R199, R200) -/

/-- An alarm condition and its since tag. -/
structure CondRec where
  state : CondState
  since : Nat

/-- An oscillation alarm clears: OSC-ALARM-CLEARED, cause 0 condition, 1 forced, 2 lost. -/
def oscCleared (num cause tag ev : Nat) (value : U32) (s : State) : State :=
  stageClear { num, tag, ev, value, bound := 0, predicted := false, sagBound := none }
    (raise 0x0709 1 (leBytes 2 num ++ [BitVec.ofNat 8 cause]) none (bump 0x07000160 s))

/-- One step of a condition (Table 7.6): its new state, whether it is raised and whether it is cleared. -/
def condStep (c : CondRec) (holds clears : Bool) (persistS clearS tag : Nat) : CondRec × Bool × Bool :=
  match c.state with
  | .clear => if holds then (if persistS = 0 then (⟨.active, tag⟩, true, false) else (⟨.pending, tag⟩, false, false)) else (c, false, false)
  | .pending =>
    if holds = false then (⟨.clear, c.since⟩, false, false)
    else if persistS * 1000000000 ≤ tag - c.since then (⟨.active, c.since⟩, true, false) else (c, false, false)
  | .active => if clears then (⟨.clearing, tag⟩, false, false) else (c, false, false)
  | .clearing =>
    if clears = false then (⟨.active, c.since⟩, false, false)
    else if clearS * 1000000000 ≤ tag - c.since then (⟨.clear, c.since⟩, false, true) else (c, false, false)

/-- A condition has raised its alarm. -/
def condOn (st : CondState) : Bool := decide (st = .active ∨ st = .clearing)

/-! ### Slots and modes -/

def getSlot (s : State) (n : Nat) : Option EstSlot := tget s.osc.slots n
def modSlot (n : Nat) (f : EstSlot → EstSlot) (s : State) : State := { s with osc := { s.osc with slots := tmod s.osc.slots n f } }
def getMode (s : State) (m : Nat) : Option Mode := tget s.osc.modes m
def modMode (m : Nat) (f : Mode → Mode) (s : State) : State := { s with osc := { s.osc with modes := tmod s.osc.modes m f } }

/-- The slot of a channel. -/
def slotOf (s : State) (ch : Nat) : Option (Nat × EstSlot) := tfind (fun _ v => decide (v.chan = ch)) s.osc.slots

def watchedChan (s : State) (ch : Nat) : Bool := tany (fun _ c => decide (c = ch)) s.osc.watch

/-- A slot that is a member of no mode shows none (Table 7.4). -/
def dropModes (s : State) : State :=
  let fix (n : Nat) (v : EstSlot) : EstSlot :=
    if v.mode.any (fun m => (getMode s m).any (fun x => decide (n ∈ x.members))) then v else { v with mode := none, shapeMag := 0, shapeAng := 0 }
  { s with osc := { s.osc with slots := tmap fix s.osc.slots } }

/-- A mode ends (R195): its conditions clear with cause lost. -/
def endMode (m : Nat) (s : State) : State :=
  match getMode s m with
  | none => s
  | some v =>
    let now := taiNs s
    let s1 := if condOn v.damp then oscCleared m 2 v.lastTs now v.zeta s else s
    let s2 := if condOn v.forced then oscCleared (0x100 + m) 2 v.lastTs now v.zeta s1 else s1
    raise 0x0703 0 (leBytes 2 m ++ leBytes 4 ((v.lastTs - v.firstTs) / 1000000000)) none <| dropModes
      { s2 with osc := { s2.osc with modes := tdel s2.osc.modes m, branches := tmap (fun _ b => if b.mode = some m then { b with mode := none } else b) s2.osc.branches } }

/-- The partition whose stream a channel belongs to (R47). -/
def chanPart (s : State) (ch : Nat) : Option HP := ((chanOwner s ch).bind (fun e => getStream s e.1)).map (fun v => v.owner)

/-- A slot is freed (Table 7.3); `cause` of OSC-ESTIMATOR-LOST where it is lost. -/
def freeEst (n : Nat) (cause : Option Nat) (s : State) : State :=
  match getSlot s n with
  | none => s
  | some v =>
    let s1 := if condOn v.ampAlarm then oscCleared (0x1000 + n) 2 v.lastTag (taiNs s) v.out.amp s else s
    let s2 := unplace 2 n { s1 with osc := { s1.osc with slots := tdel s1.osc.slots n } }
    let s3 := match v.mode with
      | some m =>
        let t := modMode m (fun x => { x with members := x.members.filter (fun k => decide (k ≠ n)) }) s2
        if (getMode t m).any (fun x => x.members.isEmpty) then endMode m t else t
      | none => s2
    match cause with
    | some c => raise 0x070A 1 (leBytes 2 n ++ leBytes 4 v.chan ++ [BitVec.ofNat 8 c]) (chanPart s v.chan) (bump 0x07000168 s3)
    | none => s3

/-- Every alarm condition of a slot and its mode is CLEAR. -/
def slotClear (s : State) (v : EstSlot) : Bool :=
  decide (v.ampAlarm = .clear) && (match v.mode.bind (getMode s) with
    | some m => decide (m.damp = .clear ∧ m.forced = .clear)
    | none => true)

/-- A change of a channel's flags: FLAG_ON and FLAG_OFF, and the state of its slot (Tables 7.3 and 7.9). -/
def noteFlags (ch : Nat) (old new : BitVec 6) (tag : Nat) (s : State) : State :=
  let s1 := bumpIf (decide (old = 0 ∧ new ≠ 0)) 0x07000110 (bumpIf (decide (old ≠ 0 ∧ new = 0)) 0x07000118 s)
  match slotOf s1 ch with
  | none => s1
  | some (n, v) =>
    let held := decide (new ≠ 0) || v.watched
    if v.state = .active ∧ held = false then modSlot n (fun x => { x with state := .hold, holdSince := tag }) s1
    else if v.state = .hold ∧ held then modSlot n (fun x => { x with state := .active, unwatched := false }) s1
    else s1

def EstOut.init : EstOut := ⟨0, 0, 0, 0, 0, 0, 0⟩

/-- Assign a channel to a slot (R191, Table 7.3): the model is cleared. -/
def assignSlot (n ch band g tag : Nat) (watched : Bool) (s : State) : State :=
  let c := getScr s ch g
  let inp : List (Nat × U32 × U32) := match c.xUsed with
    | some x => [(tgetD s.osc.screened g 0, x, (c.mUsed.orElse (fun _ => c.m)).getD 0)]
    | none => []
  let v : EstSlot := { state := .active, chan := ch, band, grid := g, watched, out := .init, converged := false, gappy := false
                       assignedTs := tag, convergedTs := 0, holdSince := 0, steps := 0, skipped := 0, nth := 0, recent := [], amps := []
                       ampAlarm := .clear, ampSince := 0, mode := none, shapeMag := 0, shapeAng := 0, lastTag := tag - 1
                       mdl := .init, inp, unwatched := false }
  placeNew 2 n { s with osc := { s.osc with slots := tset s.osc.slots n v } }

/-! ### Hooks of stream ingest (R186, Table 7.3) -/

/-- A channel is reset: its record, and its slot is lost. -/
def oscResetChan (ch : Nat) (s : State) : State :=
  let s1 := match tget s.osc.chans ch with
    | some c => bumpIf (decide (c.flags ≠ 0)) 0x07000118 { s with osc := { s.osc with chans := tdel s.osc.chans ch } }
    | none => s
  match slotOf s1 ch with
  | some (n, _) => freeEst n (some 0) s1
  | none => s1

/-- Channels of a stream. -/
def streamChans (s : State) (h : Nat) : List Nat :=
  match getStream s h with
  | some v => (List.range v.maxChannels).map (fun i => v.chanBase + i)
  | none => []

def oscResetStream (h : Nat) (s : State) : State := (streamChans s h).foldl (fun t ch => oscResetChan ch t) s

/-- A stream moves to another grid: resonators, flags and warm are zeroed, mean and baselines stay. -/
def oscMoveGrid (h g : Nat) (s : State) : State :=
  (streamChans s h).foldl (fun t ch => match tget t.osc.chans ch with
    | some c =>
      let t1 := bumpIf (decide (c.flags ≠ 0)) 0x07000118 (setScr ch { c with z := List.replicate 6 resonZero, flags := 0, warm := 0, grid := g
                                                                             vUsed := none, xUsed := none } t)
      (match slotOf t1 ch with
      | some (n, _) => freeEst n (some 0) t1
      | none => t1)
    | none => t) s

/-- A stream is retired (cause 1) or paused (cause 2): its slots are lost. -/
def oscLostStream (h cause : Nat) (s : State) : State :=
  (streamChans s h).foldl (fun t ch => match slotOf t ch with
    | some (n, _) => freeEst n (some cause) t
    | none => t) s

/-- A stream's configuration has changed (R186): positions of another kind or CHNAM are reset, and a move of grid follows. -/
def oscCfgHook (h : Nat) (old : List ChanDesc) (oldGrid : Option Nat) (s : State) : State :=
  match getStream s h with
  | none => s
  | some v =>
    let key (l : List ChanDesc) (i : Nat) : Option (Nat × Nat) := (l[i]?).bind (fun d => if d.kind = 0 then none else some (d.kind, d.name))
    let s1 := (List.range (max old.length v.descs.length)).foldl (fun t i =>
      if key old i = key v.descs i then t
      else
        let t1 := oscResetChan (v.chanBase + i) t
        if (key old i).isNone then placeNew 1 (v.chanBase + i) t1
        else if (key v.descs i).isNone then unplace 1 (v.chanBase + i) t1 else t1) s
    match oldGrid, (tget s1.aln.streams h).map (fun a => a.grid) with
    | some g0, some g => if g0 = g then s1 else oscMoveGrid h g s1
    | _, _ => s1

/-! ### The screen's step -/

/-- What a slab gives the screen for a channel: its cell where it is present (R187). -/
def screenInput (s : State) (g tag ch kind : Nat) : Option SlabCell := reportAt s g tag ch kind

/-- The slow mean after a received value (R183). -/
def meanStep (rate : Nat) (v m : Scale) : U32 := f32ofQ (qadd m (qdiv (qsub v m) (qNat (300 * rate))))

/-- The deviation and the mean after a value: the first is the mean. Those of a value that is not finite are not stated: free values. -/
def conditioned (kind rate : Nat) (v : U32) (m : Option U32) (s : State) : U32 × U32 × State :=
  match f32toQ v, m with
  | some _, none => (0, v, s)
  | some q, some w => let (x, t) := deviation kind q (f32val w) s; (x, meanStep rate q (f32val w), t)
  | none, _ => let (x, t) := fresh s; (finiteWord x, finiteWord (x / 2 ^ 32), t)

/-- One channel of a slab (R183, R185, R187 to R189); its slot keeps the input for its own step (R194). -/
def screenChan (g tag ch kind : Nat) (s0 : State) : State :=
  let c := getScr s0 ch g
  let inp := screenInput s0 g tag ch kind
  let s := bump (if inp.isSome then 0x07000100 else 0x07000108) s0
  let (x, m1, s1) : Option U32 × Option U32 × State := match inp with
    | none => (none, c.m, s)
    | some k => let (y, m, t) := conditioned kind (rateOfGrid g) k.cell.value c.m s; (some y, some m, t)
  let z := (List.range 6).map (fun b => if bandOn s1 g b then resonStep b g (lget c.z b resonZero) (x.getD 0) else resonZero)
  let c1 := { c with z, m := m1, mUsed := c.m, vUsed := inp.map (fun k => k.cell.value), xUsed := x, grid := g }
  let c2 := if tag % 1000000000 = 0 ∧ inp.isSome then learnBase s1 g c1 else c1
  let c3 := reflag s1 kind g c2
  let s2 := match slotOf s1 ch, x with
    | some (n, _), some y => modSlot n (fun v => { v with inp := v.inp ++ [(tag, y, (c.m.orElse (fun _ => m1)).getD 0)] }) s1
    | _, _ => s1
  noteFlags ch c.flags c3.flags tag (setScr ch c3 s2)

/-- Screened channels of a grid: channel and kind. -/
def gridChans (s : State) (g : Nat) : List (Nat × Nat) :=
  (s.aln.streams.filterMap (fun e => if e.2.grid = g then (getStream s e.1).map (fun v =>
    (v.descs.take (nChans v)).zipIdx.filterMap (fun (d, p) =>
      if 1 ≤ d.kind ∧ d.kind ≤ 5 then some (v.chanBase + p, d.kind) else none)) else none)).flatten

/-- One replaced cell of a patch (R190), of a channel with a record: one that was reset since is left as it is. -/
def patchChan (g tag ch kind : Nat) (s : State) : State :=
  match tget s.osc.chans ch with
  | none => s
  | some c =>
    let nv := (screenInput s g tag ch kind).map (fun k => k.cell.value)
    let rate := rateOfGrid g
    let (x, m0, s1) : Option U32 × Option U32 × State := match nv with
      | none => (none, c.mUsed, s)
      | some v => let (y, m, t) := conditioned kind rate v c.mUsed s; (some y, some m, t)
    let dx := fsub (x.getD 0) (c.xUsed.getD 0)
    let m1 := match c.m, nv, c.vUsed with
      | some m, some v, some u => some (f32ofQ (qadd (f32val m) (qdiv (qsub (f32val v) (f32val u)) (qNat (300 * rate)))))
      | none, some _, _ => m0
      | m, _, _ => m
    let z := (List.range 6).map (fun b => if bandOn s1 g b then resonFix b g (lget c.z b resonZero) dx else resonZero)
    let c1 := reflag s1 kind g { c with z, m := m1, vUsed := nv, xUsed := x }
    let s2 := match slotOf s1 ch with
      | some (n, _) => modSlot n (fun v => { v with inp := v.inp.filter (fun e => decide (e.1 ≠ tag)) ++
          (x.elim [] (fun y => [(tag, y, (c.mUsed.orElse (fun _ => m1)).getD 0)])) }) s1
      | none => s1
    bump 0x07000120 (noteFlags ch c.flags c1.flags tag (setScr ch c1 s2))

/-! ### Ranking (R191) -/

/-- Candidates: flagged channels that hold no slot, by score, then by channel. -/
def insCand (x : Nat × Nat × Int) : List (Nat × Nat × Int) → List (Nat × Nat × Int)
  | [] => [x]
  | y :: t => if y.2.2 < x.2.2 then x :: y :: t else y :: insCand x t

def candidates (s : State) : List (Nat × Nat × Int) :=
  s.osc.chans.foldl (fun l e =>
    if (slotOf s e.1).isSome ∨ chanKind s e.1 = 0 ∨ chanKind s e.1 = 6 then l
    else match chanScore e.2 with
      | some (b, sc) => insCand (e.1, b, sc) l
      | none => l) []

/-- The held slot to displace: not watched, conditions CLEAR, the lowest score. -/
def weakest (s : State) : Option (Nat × Int) :=
  s.osc.slots.foldl (fun r e =>
    if e.2.watched ∨ slotClear s e.2 = false then r
    else
      let sc := scoreNow (getScr s e.2.chan e.2.grid)
      match r with
      | some (n, x) => if sc < x then some (e.1, sc) else some (n, x)
      | none => some (e.1, sc)) none

/-- swap_db is kept: score(c) ≥ score(v) + swap_db. -/
def swapOk (s : State) (a b : Int) : Bool := scoreAtLeast a b s.osc.set.swapDb

/-- Assign the candidates in order; the number that is left over. -/
def rankGo (tag : Nat) : List (Nat × Nat × Int) → State → Nat × State
  | [], s => (0, s)
  | (ch, b, sc) :: t, s =>
    let g := (getScr s ch 0).grid
    match tfreeFrom s.osc.slots 4096 0 with
    | some n => rankGo tag t (assignSlot n ch b g tag false s)
    | none => match weakest s with
      | some (n, x) =>
        if swapOk s sc x then rankGo tag t (assignSlot n ch b g tag false (bump 0x07000138 (freeEst n none s)))
        else (t.length + 1, s)
      | none => (t.length + 1, s)

/-- Band of largest score of a channel that may not be flagged. -/
def bestBand (s : State) (c : ScrChan) (g : Nat) : Nat :=
  match chanScore c with
  | some (b, _) => b
  | none => ((List.range 6).foldl (fun (r : Nat × Int) b =>
      let sc := lget c.lastL b 0 - (lget c.base b 0).toInt
      if bandOn s g b ∧ r.2 < sc then (b, sc) else r) (0, -70000)).1

/-- Watched channels take slots first. -/
def rankWatched (tag : Nat) (s : State) : State :=
  s.osc.watch.foldl (fun t e =>
    let ch := e.2
    match slotOf t ch with
    | some (n, _) => modSlot n (fun v => { v with watched := true, state := .active, unwatched := false }) t
    | none =>
      match chanOwner t ch, chanDesc t ch with
      | some (h, _), some _ =>
        (match tget t.aln.streams h with
        | some a =>
          let c := getScr t ch a.grid
          (match tfreeFrom t.osc.slots 4096 0 with
          | some n => assignSlot n ch (bestBand t c a.grid) a.grid tag true t
          | none => match weakest t with
            | some (n, _) => assignSlot n ch (bestBand t c a.grid) a.grid tag true (bump 0x07000138 (freeEst n none t))
            | none => t)
        | none => t)
      | _, _ => t) s

/-- The pass of once per second. -/
def rankPass (tag : Nat) (s : State) : State :=
  let s1 := rankWatched tag (bump 0x07000128 { s with osc := { s.osc with lastRankTs := tag } })
  let (left, s2) := rankGo tag (candidates s1) s1
  if left = 0 then s2
  else
    let s3 := bumpBy 0x07000130 left s2
    let quiet := match s3.osc.lastFullTs with
      | some t => decide (t + 60000000000 ≤ tag)
      | none => true
    let low := (s3.osc.slots.map (fun e => scoreNow (getScr s3 e.2.chan e.2.grid))).foldl (fun (m : Option Int) x => some (m.elim x (min x))) none
    raiseIf quiet 0x0701 1 (leBytes 4 left ++ leInt 2 (scoreCdb (low.getD 0))) none { s3 with osc := { s3.osc with lastFullTs := some tag } }

/-! ### Estimator steps (R193, R194) -/

/-- Half-turns and edges: a frequency within the band, whatever the kernel finds. -/
def inBand (b : Nat) (w : U32) : U32 :=
  let q := f32toQ w
  let lo := qmk (bandLo b) 1000
  let hi := qmk (bandHi b) 1000
  match q with
  | some x => if qle lo x && qle x hi then w else f32ofQ lo
  | none => f32ofQ lo

/-- A word that is not negative. -/
def notNeg (w : U32) : U32 := if (f32toQ w).isSome then w &&& 0x7FFFFFFF else 0

/-- How long a slot keeps its filtered signal: two cycles at the lower edge of its band, window_s and forced_persist_s. -/
def sigKeep (o : OscSet) (b : Nat) : Nat := max (2000 * 1000000000 / bandLo b) (max o.windowS o.forcedPersistS * 1000000000)

/-- f and ζ of a model (R193): those of its pole pair of highest peak in the band; with no pair in the band the rule states none, and they are
free, f within the band. -/
def modelMode (b rate : Nat) (m : EstModel) (s : State) : U32 × U32 × State :=
  match pickPole (bandLo b) (bandHi b) rate (m.w.map (fun w => toFx (f32val w))) with
  | some z => (f32ofQ (poleFreq rate z), f32ofQ (poleZeta z), s)
  | none => let (x, t) := fresh s; (inBand b (BitVec.ofNat 32 x), finiteWord (x / 2 ^ 32), t)

/-- Amplitude, in the channel's unit, and phase of a fit; `m` is the mean at the step. -/
def fitOut (kind tag : Nat) (f zeta m : U32) (mdl : EstModel) : U32 × U16 :=
  let (a, ph) := fitSignal (f32val f) (f32val zeta) tag mdl.sig
  (f32ofQ (if relKind kind then qmul a (qabs (f32val m)) else a), ph)

/-- One step of an estimator (R193, R194): its model and its results. `skip` tells that the input is missing or predicted: the filter then
takes the model's own prediction, and the model stays. -/
def estResult (v : EstSlot) (kind tag : Nat) (skip : Bool) (s0 : State) : EstModel × EstOut × State :=
  let o := s0.osc.set
  let rate := rateOfGrid v.grid
  let c := getScr s0 v.chan v.grid
  let inp := v.inp.find? (fun e => decide (e.1 = tag))
  let m := inp.elim (c.m.getD 0) (fun e => e.2.2)
  let x := if skip then oneStep v.mdl else inp.elim 0 (fun e => e.2.1)
  let m1 := filterStep v.band rate (sigKeep o v.band) tag x v.mdl
  let score := scoreCdb (scoreNow c)
  if skip then
    let (amp, phase) := fitOut kind tag v.out.f v.out.zeta m m1
    (m1, { v.out with amp, phase, score }, s0)
  else
    let m2 := modelStep ⟨(expNegFx 1 (rate * o.windowS) : Int), fx⟩ m1
    let (f, zeta, s1) := modelMode v.band rate m2 s0
    let (amp, phase) := fitOut kind tag f zeta m m2
    let sd (k : Bool) : U32 := notNeg (Config.estSd m2.w m2.p v.band rate k)
    (m2, { f, zeta, amp, phase, fSd := sd false, zetaSd := sd true, score }, s1)

/-- The threshold of the amplitude condition (Table 7.5). -/
def ampThr (o : OscSet) (kind : Nat) (m : Option U32) : Scale :=
  match kind with
  | 3 => qmk o.ampF 1000000
  | 4 => qmk o.ampRocof 1000000
  | _ => qmul (qmk o.ampRel 1000000) (qabs (f32val (m.getD 0)))

/-- Ratios in 0.1 % units. -/
def permille (n : Nat) : Scale := qmk n 1000

/-- The final release of the slab after a tag: its timestamp (R201). -/
def decidingTs (s : State) (g tag : Nat) : Nat :=
  let r := rateOfGrid g
  match getSlab s g (gridInstant r (gridIndex r tag + 1)) with
  | some v => v.finalTs
  | none => taiNs s

/-- The amplitude condition of a slot at a step. -/
def ampCondition (n tag : Nat) (s : State) : State :=
  match getSlot s n with
  | none => s
  | some v =>
    if s.osc.set.enables.getLsbD 1 = false ∧ v.ampAlarm = .clear then s
    else
      let c := getScr s v.chan v.grid
      let thr := ampThr s.osc.set (chanKind s v.chan) c.m
      let a := f32val v.out.amp
      let holds := v.converged && qle thr a && s.osc.set.enables.getLsbD 1
      let clears := qlt a (qmul ⟨4, 5⟩ thr)
      let (k, up, down) := condStep ⟨v.ampAlarm, v.ampSince⟩ holds clears s.osc.set.ampPersistS s.osc.set.clearS tag
      let s1 := modSlot n (fun x => { x with ampAlarm := k.state, ampSince := k.since }) s
      let ev := decidingTs s v.grid tag
      if up then
        stageRaise { num := 0x1000 + n, tag, ev, value := v.out.amp, bound := 0, predicted := false, sagBound := none }
          (raise 0x0707 2 (leBytes 2 n ++ leBytes 4 v.chan ++ leBytes 4 v.out.amp.toNat) (chanPart s v.chan) (bump 0x07000158 s1))
      else if down then oscCleared (0x1000 + n) 0 tag ev v.out.amp s1
      else s1

/-- CONVERGED and GAPPY of a slot after a step (R194). -/
def convFlags (o : OscSet) (tag : Nat) (v : EstSlot) : EstSlot :=
  let rec_ := v.recent
  let bad := (rec_.filter (·.2)).length
  let gappy := decide (rec_.length < 10 * bad)
  let sd := f32val v.out.zetaSd
  let fq := f32val v.out.f
  let seconds := qmk (tag - v.assignedTs : Nat) 1000000000
  let long := qle (qdiv (qNat o.convCycles) fq) seconds && decide (0 < fq.num)
  let conv := if gappy || qlt (permille (2 * o.zetaSdMax)) sd then false
    else v.converged || (qle sd (permille o.zetaSdMax) && long)
  { v with gappy, converged := conv, convergedTs := if conv ∧ v.converged = false then tag else v.convergedTs }

/-- The record of Table 7.4. -/
def estRecord (n : Nat) (v : EstSlot) (tag : Nat) : Bytes :=
  let fl := (if v.converged then 1 else 0) + (if v.gappy then 2 else 0) + (if v.watched then 4 else 0) + (if v.state = .hold then 8 else 0)
  leBytes 2 n ++ leBytes 2 (v.mode.getD 0xFFFF) ++ leBytes 4 v.chan ++ leBytes 8 tag ++ leBytes 4 v.out.f.toNat ++ leBytes 4 v.out.zeta.toNat ++
  leBytes 4 v.out.amp.toNat ++ leBytes 2 v.out.phase.toNat ++ [BitVec.ofNat 8 v.band, BitVec.ofNat 8 fl] ++ leBytes 4 v.out.fSd.toNat ++
  leBytes 4 v.out.zetaSd.toNat ++ leBytes 4 v.shapeMag.toNat ++ leBytes 2 v.shapeAng.toNat ++ leInt 2 v.out.score

/-- Write a step's record to each bound ring (R198). -/
def estOutput (n tag : Nat) (s : State) : State :=
  match getSlot s n with
  | none => s
  | some v =>
    s.osc.outRing.foldl (fun t e =>
      if h : e.1 < 4 then
        if v.nth % max 1 (s.osc.outDiv.get ⟨e.1, h⟩) ≠ 0 then t
        else (match ringWrite ⟨e.1, h⟩ e.2 .estimator (estRecord n v tag) t with
        | some u => u
        | none => bump 0x07000178 t)
      else t) s

/-! ### Modes (R195 to R197) -/

/-- Amplitude of a slot, in per unit for kinds 1, 2 and 5. -/
def slotAmp (s : State) (v : EstSlot) : Scale :=
  let a := f32val v.out.amp
  if relKind (chanKind s v.chan) then qdiv a (qabs (f32val ((getScr s v.chan v.grid).m.getD 0))) else a

/-- The filtered signal of a slot over its last window_s. -/
def recentSig (s : State) (v : EstSlot) : List (Nat × U32) := v.mdl.sig.filter (fun e => decide (v.lastTag < e.1 + s.osc.set.windowS * 1000000000))

/-- Two estimators match (R195). -/
def slotsMatch (s : State) (a b : EstSlot) : Bool :=
  let fa := f32val a.out.f
  let fb := f32val b.out.f
  qle ⟨4, 5⟩ (Config.coherence (recentSig s a) (recentSig s b)) && qle (qabs (qsub fa fb)) (qmul (permille s.osc.set.groupDf) (qmax fa fb)) &&
  qle (qabs (qsub (f32val a.out.zeta) (f32val b.out.zeta))) (permille s.osc.set.groupDzeta)

/-- Merge the groups that a pair joins. -/
def joinPair (a b : Nat) (gs : List (List Nat)) : List (List Nat) :=
  let has (n : Nat) (g : List Nat) : Bool := decide (n ∈ g)
  match gs.find? (has a), gs.find? (has b) with
  | some x, some y => if x = y then gs else (x ++ y) :: gs.filter (fun g => decide (g ≠ x ∧ g ≠ y))
  | _, _ => gs

/-- Groups of slots, closed transitively. -/
def groupSlots (s : State) (slots : List (Nat × EstSlot)) : List (List Nat) :=
  let pairs := (slots.map (fun a => (slots.filter (fun b => decide (a.1 < b.1))).map (fun b => (a, b)))).flatten
  pairs.foldl (fun gs (a, b) => if slotsMatch s a.2 b.2 then joinPair a.1 b.1 gs else gs) (slots.map (fun a => [a.1]))

/-- How many members a group shares with a mode. -/
def shared (grp : List Nat) (m : Mode) : Nat := (grp.filter (fun n => decide (n ∈ m.members))).length

/-- The mode number a group keeps, among those not yet taken on its grid. -/
def keepNumber (s : State) (g : Nat) (grp taken : List Nat) : Option Nat :=
  (s.osc.modes.foldl (fun (r : Option (Nat × Nat)) e =>
    let k := shared grp e.2
    if e.2.grid ≠ g ∨ e.1 ∈ taken ∨ k = 0 then r
    else match r with
      | some (m, x) => if x < k then some (e.1, k) else some (m, x)
      | none => some (e.1, k)) none).map (·.1)

/-- The reference member: the frequency channel of largest amplitude, else the largest per-unit amplitude. -/
def refMember (s : State) (vs : List (Nat × EstSlot)) : Nat :=
  let freq := vs.filter (fun e => decide (chanKind s e.2.chan = 3))
  let l := if freq = [] then vs else freq
  (l.foldl (fun (r : Option (Nat × Scale)) e =>
    let a := slotAmp s e.2
    match r with
    | some (n, x) => if qlt x a then some (e.1, a) else some (n, x)
    | none => some (e.1, a)) none).elim 0 (·.1)

/-- Amplitude-weighted mean of a word of the members. -/
def ampMean (s : State) (vs : List (Nat × EstSlot)) (f : EstSlot → U32) : U32 :=
  let w := qsum (vs.map (fun e => slotAmp s e.2))
  let n := qsum (vs.map (fun e => qmul (slotAmp s e.2) (f32val (f e.2))))
  if w.num = 0 then (vs.head?).elim 0 (fun e => f e.2)
  else f32ofQ (qdiv n w)

/-- Write a group into its mode, with the shapes of its members. -/
def writeMode (m g tag : Nat) (grp : List Nat) (s0 : State) : State :=
  let vs := grp.filterMap (fun n => (getSlot s0 n).map (fun v => (n, v)))
  let ref := refMember s0 vs
  let (x, s) := fresh s0
  let f := ampMean s vs (fun v => v.out.f)
  let z := ampMean s vs (fun v => v.out.zeta)
  let fsd : U32 := notNeg (BitVec.ofNat 32 x)
  let zsd : U32 := notNeg (BitVec.ofNat 32 (x / 2 ^ 32))
  let s1 := match getMode s m with
    | some _ => modMode m (fun y => { y with members := grp, refSlot := ref, f, zeta := z, fSd := fsd, zetaSd := zsd, lastTs := tag }) s
    | none =>
      let md : Mode := { cls := .undetermined, grid := g, damp := .clear, dampSince := 0, forced := .clear, forcedSince := 0, members := grp
                         refSlot := ref, sourceBranch := none, f, zeta := z, fSd := fsd, zetaSd := zsd, firstTs := tag, classSince := tag
                         lastTs := tag, testsSince := none }
      raise 0x0702 1 (leBytes 2 m ++ [BitVec.ofNat 8 g] ++ leBytes 4 (qround (qmul (f32val f) (qNat 1000000))).toNat ++
        leInt 2 (qround (qmul (f32val z) (qNat 10000))) ++ leBytes 2 grp.length) none
        { s with osc := { s.osc with modes := tset s.osc.modes m md } }
  let ra := (getSlot s ref).elim qZero (slotAmp s)
  let rp := (getSlot s ref).elim 0 (fun v => v.out.phase)
  vs.foldl (fun t e => modSlot e.1 (fun v => { v with mode := some m, shapeMag := f32ofQ (qdiv (slotAmp s v) ra), shapeAng := v.out.phase - rp }) t) s1

/-- Give each group its mode; the numbers taken. -/
def placeGroups (g tag : Nat) : List (List Nat) → List Nat → State → List Nat × State
  | [], taken, s => (taken, s)
  | grp :: t, taken, s =>
    match keepNumber s g grp taken with
    | some m => placeGroups g tag t (m :: taken) (writeMode m g tag grp s)
    | none => match tfreeFrom s.osc.modes 256 0 with
      | some m => placeGroups g tag t (m :: taken) (writeMode m g tag grp s)
      | none =>
        let s1 := grp.foldl (fun u n => modSlot n (fun v => { v with mode := none }) u) s
        placeGroups g tag t taken (raise 0x0704 2 (leBytes 2 (grp.foldl min (grp.headD 0))) none (bump 0x07000150 s1))

/-- The amplitudes of a slot over a span stay within a quarter of their mean. -/
def ampSteady (v : EstSlot) (fromTag : Nat) : Bool :=
  let l := (v.amps.filter (fun e => decide (fromTag ≤ e.1))).map (fun e => f32val e.2)
  let mean := qdiv (qsum l) (qNat l.length)
  l.all (fun a => qle (qabs (qsub a mean)) (qdiv mean (qNat 4)))

/-- The class of a mode at the whole-second step (R196). -/
def oscClassify (m tag : Nat) (s : State) : State :=
  match getMode s m with
  | none => s
  | some v =>
    let z := f32val v.zeta
    let fz := permille s.osc.set.forcedZeta
    let span := s.osc.set.forcedPersistS * 1000000000
    let steady := (getSlot s v.refSlot).any (fun r => decide (r.assignedTs + span ≤ tag) && ampSteady r (tag - span))
    let share := (getSlot s v.refSlot).elim qZero (fun r => Config.energyShare r.mdl.sig v.f)
    let tests := qle (qabs z) fz && qle ⟨9, 10⟩ share
    let since := if tests then (match v.testsSince with
      | some t => some t
      | none => some tag) else none
    let forced := match since with
      | some t => decide (span ≤ tag - t) && steady
      | none => false
    let conv := v.members.any (fun n => (getSlot s n).any (fun r => r.converged))
    let cls : ModeClass := if forced then .forced else if conv && qlt fz z then .free else .undetermined
    let num (c : ModeClass) : Byte := match c with
      | .undetermined => 0
      | .free => 1
      | .forced => 2
    let s1 := modMode m (fun y => { y with cls, testsSince := since, classSince := if cls = y.cls then y.classSince else tag }) s
    raiseIf (decide (cls ≠ v.cls)) 0x0705 1 (leBytes 2 m ++ [num v.cls, num cls]) none s1

/-- Frequency of a mode in µHz. -/
def modeUhz (v : Mode) : Nat := (qround (qmul (f32val v.f) (qNat 1000000))).toNat

/-- The damping and forced conditions of a mode (Table 7.5, Table 7.6). -/
def modeAlarms (m tag : Nat) (s : State) : State :=
  match getMode s m with
  | none => s
  | some v =>
    let o := s.osc.set
    let ev := decidingTs s v.grid tag
    let z := f32val v.zeta
    let isF := decide (v.cls = .forced)
    let conv := v.members.any (fun n => (getSlot s n).any (fun r => r.converged))
    let s1 : State :=
      if isF ∧ condOn v.damp then oscCleared m 1 tag ev v.zeta (modMode m (fun y => { y with damp := .clear }) s)
      else
        let holds := conv && !isF && qlt z (permille o.zetaThr) && o.enables.getLsbD 0
        let clears := isF || qle (permille (o.zetaThr + o.zetaHyst)) z
        let (k, up, down) := condStep ⟨v.damp, v.dampSince⟩ holds clears o.dampPersistS o.clearS tag
        let t := modMode m (fun y => { y with damp := k.state, dampSince := k.since }) s
        if up then
          stageRaise { num := m, tag, ev, value := v.zeta, bound := 0, predicted := false, sagBound := none }
            (raise 0x0706 3 (leBytes 2 m ++ leInt 2 (qround (qmul z (qNat 10000))) ++ leBytes 4 (modeUhz v) ++ leBytes 8 v.dampSince) none
              (bump 0x07000158 t))
        else if down then oscCleared m 0 tag ev v.zeta t
        else t
    let (k, up, down) := condStep ⟨v.forced, v.forcedSince⟩ (isF && o.enables.getLsbD 2) (!isF) 0 o.clearS tag
    let s2 := modMode m (fun y => { y with forced := k.state, forcedSince := k.since }) s1
    if up then
      stageRaise { num := 0x100 + m, tag, ev, value := v.zeta, bound := 0, predicted := false, sagBound := none }
        (raise 0x0708 3 (leBytes 2 m ++ leBytes 4 (modeUhz v) ++ leBytes 2 (v.sourceBranch.getD 0xFFFF)) none (bump 0x07000158 s2))
    else if down then oscCleared (0x100 + m) 0 tag ev v.zeta s2
    else s2

/-- The converged mode of lowest ζ on a grid (R197). -/
def branchMode (s : State) (g : Nat) : Option Nat :=
  (s.osc.modes.foldl (fun (r : Option (Nat × Scale)) e =>
    if e.2.grid ≠ g ∨ (e.2.members.any (fun n => (getSlot s n).any (fun v => v.converged))) = false then r
    else match r with
      | some (m, x) => if qlt (f32val e.2.zeta) x then some (e.1, f32val e.2.zeta) else some (m, x)
      | none => some (e.1, f32val e.2.zeta)) none).map (·.1)

/-- Grid of a channel. -/
def chanGrid (s : State) (ch : Nat) : Option Nat :=
  (chanOwner s ch).bind (fun o => (tget s.aln.streams o.1).map (fun a => a.grid))

/-- Once per second, the branches of a grid take their mode. -/
def trackBranches (g : Nat) (s : State) : State :=
  let m := branchMode s g
  { s with osc := { s.osc with branches := tmap (fun _ b => if chanGrid s b.vChan = some g then (if b.mode = m then b else { b with mode := m, fil := [] }) else b) s.osc.branches } }

/-- What a branch measures at a step (R197): none where a report is missing or a magnitude is not positive. θ_V goes on from the last. -/
def flowPoint (s : State) (g tag : Nat) (b : Branch) : Option FlowPt :=
  match reportAt s g tag b.vChan 1, reportAt s g tag b.iChan 2 with
  | some v, some i =>
    let vm := f32val v.cell.value
    let im := f32val i.cell.value
    if vm.num ≤ 0 then none
    else
      let a := wrapAng ((v.cell.angle.toNat : Int) - (i.cell.angle.toNat : Int))
      let pow := qmul (qNat 3) (qmul vm im)
      let rad (x : Scale) : Scale := qmul x (qmul (qmk 2 65536) piQ)
      let th := rad (qInt v.cell.angle.toNat)
      let full := qmul (qNat 2) piQ
      let th1 := (b.raw.head?).elim th (fun p =>
        let d := qsub th p.th
        qadd p.th (qsub d (qmul full (qInt (qround (qdiv d full))))))
      some { tag, p := qmul pow (ofFx (cosFx a)), q := qmul pow (ofFx (sinFx a)), th := th1, lv := ofFx (lnFx (toFx vm).toNat) }
  | _, _ => none

/-- A branch's measurements band-passed at f ± max(0.1 f, 0.025 Hz). -/
def flowFilter (rate : Nat) (f : Scale) (raw : List FlowPt) (tag : Nat) : FlowPt :=
  let half := qmax (qmul ⟨1, 10⟩ f) ⟨25, 1000⟩
  let u (x : Scale) : Nat := (qround (qmul x (qNat 1000000))).toNat
  let pass (get : FlowPt → Scale) : Scale := Config.bandPass (raw.map get) (u (qsub f half)) (u (qadd f half)) rate
  { tag, p := pass (·.p), q := pass (·.q), th := pass (·.th), lv := pass (·.lv) }

/-- dW of a step, from the filtered measurements at it and before it. -/
def stepWork : List FlowPt → Scale
  | a :: b :: _ => qadd (qmul a.p (qsub a.th b.th)) (qmul a.q (qsub a.lv b.lv))
  | _ => qZero

/-- Σ dW over the steps of a list that lie after an instant, and how many they are. -/
def workOver (from_ : Nat) : List FlowPt → Scale × Nat
  | [] => (qZero, 0)
  | a :: t =>
    if a.tag ≤ from_ ∨ t = [] then (qZero, 0)
    else let (w, n) := workOver from_ t; (qadd (stepWork (a :: t)) w, n + 1)

/-- One branch at a step of its grid: def_w is the mean of dW/dt over the last two cycles. -/
def flowStep (s : State) (g tag : Nat) (b : Branch) : Branch :=
  match b.mode.bind (getMode s), flowPoint s g tag b with
  | some m, some pt =>
    let rate := rateOfGrid g
    let f := f32val m.f
    let keep := if f.num ≤ 0 then 0 else (qfloor (qdiv (qNat 2000000000) f)).toNat
    let raw := (pt :: b.raw).filter (fun e => decide (tag < e.tag + 200000000000))
    let fil := (flowFilter rate f raw tag :: b.fil).filter (fun e => decide (tag ≤ e.tag + keep + 1000000000))
    let (w, n) := workOver (tag - keep) fil
    let q := if n = 0 then qZero else qdiv (qmul w (qNat rate)) (qNat n)
    let lim := qNat (s.osc.set.defMinKw * 1000)
    { b with defW := f32ofQ q, dir := if qle lim q then 1 else if qle q (qneg lim) then -1 else 0, lastTs := tag, raw, fil }
  | _, _ => b

/-- The dissipating energy flow of the tracking branches of a grid at a step, and the source branch of each mode (R197). -/
def flowBranches (g tag : Nat) (s : State) : State :=
  let one (b : Branch) : Branch := if chanGrid s b.vChan ≠ some g ∨ b.mode = none ∨ b.lastTs = tag then b else flowStep s g tag b
  let bs := tmap (fun _ (b : Branch) => one b) s.osc.branches
  let best (m : Nat) : Option Nat :=
    (bs.foldl (fun (r : Option (Nat × Scale)) (e : Nat × Branch) =>
      if e.2.mode ≠ some m ∨ ¬ (e.2.dir = (1 : Int)) then r
      else match r with
        | some (n, x) => if qlt x (f32val e.2.defW) then some (e.1, f32val e.2.defW) else some (n, x)
        | none => some (e.1, f32val e.2.defW)) none).map (·.1)
  { s with osc := { s.osc with branches := bs, modes := tmap (fun m v => if v.grid = g then { v with sourceBranch := best m } else v) s.osc.modes } }

/-- The whole-second step of a grid: modes, classes, branches and conditions (R195 to R199). -/
def wholeSecond (g tag : Nat) (s : State) : State :=
  let conv := s.osc.slots.filter (fun e => decide (e.2.grid = g) && e.2.converged)
  let gs := groupSlots s conv
  let ordered := (s.osc.slots.map (·.1)).filterMap (fun n => gs.find? (fun grp => decide (grp.foldl min (grp.headD 0) = n)))
  let (taken, s2) := placeGroups g tag ordered [] s
  let grouped := gs.flatten
  let others := (s2.osc.modes.filter (fun e => decide (e.2.grid = g ∧ e.1 ∉ taken))).map (·.1)
  let s3 := others.foldl (fun t m =>
    let t1 := modMode m (fun v => { v with members := v.members.filter (fun n => decide (n ∉ grouped)) }) t
    if (getMode t1 m).any (fun v => v.members.isEmpty) then endMode m t1 else t1) s2
  let s4 := taken.reverse.foldl (fun t m => oscClassify m tag t) (dropModes s3)
  taken.reverse.foldl (fun t m => modeAlarms m tag t) (trackBranches g s4)

end Sys2Proof.Machine
end

