-- ==== Sys2Proof/Machine/IngestOps.lean ====
section
/-!
DEFINITION. Operations of stream ingest (05_stream_ingest.md): the directory, the checks of a C37.118 frame, configurations, accepted
reports, command frames, and the uses that keep a stream.
-/

namespace Sys2Proof.Machine

/-- A stream's key is looked up at a port (R150): the exact key, then source port 0; only where the stream's port or pair takes it. -/
def findStream (s : State) (k : Nat) (key : StreamKey) : Option (Nat × Stream) :=
  let look (w : StreamKey) : Option (Nat × Stream) := tfind (fun _ v => decide (v.key = w) && !v.eccBad) s.ing.streams
  let here (x : Option (Nat × Stream)) : Option (Nat × Stream) := x.filter (fun e => macMask e.2.port / 2 ^ k % 2 = 1)
  match look key with
  | some e => here (some e)
  | none => here (look { key with srcPort := 0 })

/-- A free run of descriptors in the pool: the lowest. -/
def allocChans (s : State) (n : Nat) : Option Nat :=
  (lowestGap (s.ing.streams.map (fun e => (e.2.chanBase, e.2.chanBase + e.2.maxChannels))) n).filter (fun b => decide (b + n ≤ 5242880))

/-- Stash entries in use. -/
def stashUsed (s : State) : Nat := tcount (fun _ v => v.inStash) s.ing.streams

/-- A stream or a channel of it is named by a use (R155). -/
def streamNamed (s : State) (h : Nat) (v : Stream) : Bool :=
  let mine (c : Nat) : Bool := decide (v.chanBase ≤ c ∧ c < v.chanBase + v.maxChannels)
  tany (fun _ g => mine g.fChan || mine g.aChan) s.isl.signals ||
  tany (fun _ b => mine b.chan) s.isl.breakers ||
  tany (fun _ c => c.lanes.any (fun l => decide (l.kind = 0) && l.sources.any (fun x => mine x.1))) s.cap.caps ||
  tany (fun _ p => decide (h ∈ p.members)) s.aln.pubs ||
  tany (fun _ c => mine c) s.osc.watch ||
  tany (fun _ b => mine b.vChan || mine b.iChan) s.osc.branches ||
  tany (fun _ k => tany (fun _ b => decide (b.kind = 2 ∧ h ∈ b.handles)) k.binds) s.sor.kernels ||
  tany (fun _ i => decide (i.tempSrc = 2) && mine i.tempId) s.sage.inputs

/-! ### Command frames -/

/-- CRC-CCITT of C37.118: polynomial 0x1021, initial value 0xFFFF. -/
def crcBit : Nat → Nat → Nat
  | 0, c => c
  | n + 1, c => crcBit n (if 32768 ≤ c then ((c * 2) ^^^ 0x1021) % 65536 else c * 2)

def crcCcitt (b : Bytes) : Nat := b.foldl (fun c x => crcBit 8 (c ^^^ (x.toNat * 256))) 0xFFFF

/-- SYNC, FRAMESIZE, IDCODE, SOC and FRACSEC of a frame, with its body and CHK; `typ` is the frame type, the version is that of
C37.118.2-2011 (log entry 21). -/
def c37Frame (typ idcode soc frac : Nat) (qual : Byte) (body : Bytes) : Bytes :=
  let f := [0xAA, BitVec.ofNat 8 (typ * 16 + 2)] ++ beBytes 2 (16 + body.length) ++ beBytes 2 idcode ++ beBytes 4 soc ++ [qual] ++
    beBytes 3 frac ++ body
  f ++ beBytes 2 (crcCcitt f)

/-- An address is IPv4-mapped. -/
def isV4 (a : BitVec 128) : Bool := decide (a.toNat / 2 ^ 32 = 0xFFFF)

/-- Send a C37.118 command frame to a stream's source, as C3 traffic. -/
def sendCommand (h cmd : Nat) (s : State) : State :=
  match getStream s h with
  | none => s
  | some v =>
    let ns := taiNs s
    let body := c37Frame 4 v.key.idcode.toNat (taiToSoc s (ns / 1000000000)) (divRound (ns % 1000000000 * 1000000) 1000000000) (qualByte s (ns / 1000000000))
      (beBytes 2 cmd)
    let tcp := decide (v.key.transport = 1 ∨ v.key.transport = 2)
    let len := 14 + (if isV4 v.key.srcAddr then 20 else 40) + (if tcp then 20 else 8) + body.length
    sendOwn { cls := .c3, port := targetPort v.port, pair := targetPair v.port, prp := true, len, launch := none, tsReq := false
              owner := .c37Command h, body
              to_ := some { tcp, addr := v.key.srcAddr, dst := v.key.srcPort, src := some v.key.dstPort } } s

/-- The start commands of STREAM-ADD: CFG-2, CFG-3, turn on transmission. -/
def sendStart (h : Nat) (start : U8) (s : State) : State :=
  let s1 := if start.getLsbD 0 then sendCommand h 5 s else s
  let s2 := if start.getLsbD 1 then sendCommand h 6 s1 else s1
  if start.getLsbD 2 then sendCommand h 2 s2 else s2

/-! ### Configurations (R142 to R144) -/

/-- Why a configuration is refused (Table 5.14). -/
def cfgRefusal (v : Stream) (c : C37Cfg) : Option Nat :=
  if v.maxChannels < chanCount c then some 0
  else if c.dataRate ≤ 0 ∨ (gridOfRate c.dataRate.toNat).isNone then some 1
  else if c.timeBase = 0 then some 2
  else none

/-- Apply a configuration to a stream (R143, R144): `tag` is the applying time tag, 0 without a data frame. -/
def applyCfg (h : Nat) (c : C37Cfg) (tag : Nat) (s : State) : State :=
  match getStream s h with
  | none => s
  | some v =>
    let (n, ds) := mergeDescs v.descs (cfgDescs c)
    let v1 := { v with active := some c, pending := none, descs := ds
                       state := if v.state = .awaitCfg then .active else v.state
                       silenceEl := if v.state = .awaitCfg then elNs s else v.silenceEl }
    let s1 := raise 0x0502 1 (leBytes 4 h ++ leBytes 2 c.cfgCnt.toNat ++ leBytes 2 (chanCount c) ++ leBytes 2 n ++ leBytes 8 tag)
      (some v.owner) (setStream h v1 s)
    let s2 := oscCfgHook h v.descs ((tget s.aln.streams h).map (fun a => a.grid)) (syncGrid h s1)
    let ct := if tag = 0 then none else some tag
    pubMemberCfg h { s2 with aln := { s2.aln with streams := tmod s2.aln.streams h (fun a => { a with cfgTag := ct }) } }

/-! ### Accepted data frames -/

/-- lat_q and lat_n after an arrival latency (R152). -/
def learnLat (v : Stream) (us : Nat) : Stream :=
  let l := min us 4194303
  let q := if v.latN = 0 then l else if v.latQ < l then min (v.latQ + 999) 4194303 else max (v.latQ - 1) 0
  { v with latQ := q, latN := min (v.latN + 1) 255, latLastUs := min us (2 ^ 32 - 1)
           latMaxUs := max v.latMaxUs (min us (2 ^ 32 - 1)) }

/-- Roll the one-second counts over (Table 5.11). -/
def rollSecond (s : State) : State :=
  let sec := s.clk.sec.toNat
  let i := s.ing
  if sec = i.curSec then s
  else if sec = i.curSec + 1 then
    { s with ing := { i with curSec := sec, frames1s := i.curFrames, reports1s := i.curReports, curFrames := 0, curReports := 0 } }
  else { s with ing := { i with curSec := sec, frames1s := 0, reports1s := 0, curFrames := 0, curReports := 0 } }

/-- TIME_DISCONTINUITY as a quality bit (R79). -/
def discBit (s : State) : U16 :=
  match s.ing.discUntilEl with
  | some e => if elNs s < e then 0x10 else 0
  | none => 0

/-- Reports of a stream are accepted with their time tag and their cells by position (R148, R152, R154); `at_` is the timestamp they arrived
with. -/
def acceptAt (h tag at_ : Nat) (cells : List (Nat × Cell)) (s0 : State) : State :=
  let s := rollSecond s0
  match getStream s h with
  | none => s
  | some v =>
    let v1 := if s.clk.timeValid then learnLat v ((at_ - tag) / 1000) else v
    let v2 := { v1 with frames := satAdd (2 ^ 64 - 1) v1.frames 1, lastTag := tag, silent := false, silenceEl := elNs s }
    let s1 := setStream h v2 s
    let s2 := raiseIf v.silent 0x0505 0 (leBytes 4 h ++ leBytes 4 ((elNs s - v.silenceEl) / 1000000)) (some v.owner) s1
    let s3 := { s2 with ing := { s2.ing with curFrames := s2.ing.curFrames + 1, curReports := s2.ing.curReports + cells.length } }
    landReport h tag cells s3

/-- A data frame of a stream is accepted. -/
def acceptReport (h tag at_ : Nat) (cells : List Cell) (s : State) : State := acceptAt h tag at_ (cells.zipIdx.map (fun (c, i) => (i, c))) s

/-! ### The checks of R140 -/

/-- The class under which a C37.118 frame waits in its port's queue (Table 4.5). -/
def c37Class (s : State) (k : Nat) (data : Bool) : Cls :=
  if data ∧ (getPort s k).inq.any (fun f => decide (f.cls = .c1)) then .c1 else .c3

/-- A stalled reader leaves a frame of a type where it waits (R390). -/
def c37Held (s : State) (hd : C37Head) (typ : Nat) : Bool := readerHeld s hd.port.toNat (c37Class s hd.port.toNat (decide (typ = 0)))

/-- Take the frame from its port's queue. -/
def popC37 (k : Nat) (data : Bool) (s : State) : State := popIn k (c37Class s k data) s

/-- What the read of the directory entry shows (R150): a corrected error is counted; an entry that cannot be corrected counts as absent until
it is rewritten. -/
def readEntry (k : Nat) (key : StreamKey) (e : EccRead) (s : State) : State :=
  match e, findStream s k key with
  | .fixed, some _ => bump 0x05000170 s
  | .bad, some (h, v) => setStream h { v with eccBad := true } s
  | _, _ => s

/-- PRP state of a known stream (R151): whether the frame goes on. -/
def streamPrp (h : Nat) (hd : C37Head) (s : State) : Bool × State :=
  match hd.rct, getStream s h with
  | some (seq, _), some v =>
    let pr := hd.port.toNat / 2
    let pairB := decide (pr = 1)
    if v.rctSeen = false then
      (true, setStream h { v with rctSeen := true, rctPair := pairB, prpHi := seq, prpMap := 1, prpHiEl := elNs s } s)
    else
      let d := (v.prpHi - seq).toNat
      if d < 16 ∧ v.prpMap.getLsbD d then
        let s1 := setStream h { v with dupDiscard := sat1 v.dupDiscard } s
        let s2 := if d = 0 then noteSkew pr ((elNs s - v.prpHiEl) / 1000) hd.srcMac s1 else s1
        (false, noteDup pr d hd.srcMac s2)
      else if d < 16 then (true, setStream h { v with prpMap := v.prpMap ||| (1#16 <<< d), rctPair := pairB } s)
      else if 32768 ≤ d then
        let sh := (seq - v.prpHi).toNat
        (true, setStream h { v with prpHi := seq, prpMap := (if sh < 16 then v.prpMap <<< sh else 0) ||| 1, rctPair := pairB
                                    prpHiEl := elNs s } s)
      else (true, setStream h { v with rctPair := pairB } (bump (pairCnt pr 0x48) s))
  | _, _ => (true, s)

/-- Count one in a field of a stream. -/
def countMal (h : Nat) (s : State) : State := modStream h (fun v => { v with malformed := sat1 v.malformed }) s

/-- Steps 4 and 5 of R140 for a frame of a stream. -/
def c37Sound (h : Nat) (hd : C37Head) (reserved : Bool) (s : State) : Bool × State :=
  if hd.frameSize ≠ hd.payloadLen ∨ (hd.version ≠ 1 ∧ hd.version ≠ 2) ∨ reserved then (false, countMal h s)
  else if hd.chkOk = false then (false, modStream h (fun v => { v with chkErr := sat1 v.chkErr }) s)
  else (true, s)

/-- A frame of no known stream (R140 step 2): `typ` is the frame type of SYNC: 0 data, 1 header, 2 CFG-1, 3 CFG-2, 5 CFG-3. -/
def unknownC37 (hd : C37Head) (typ : Nat) (s : State) : State :=
  let k := hd.port.toNat
  let (go, s1) := match hd.rct with
    | some (seq, _) => if k < 4 then unknownSource k hd.srcMac seq s else (true, s)
    | none => (true, s)
  if go = false then s1
  else
    let s2 := bump 0x05000100 s1
    if typ = 0 then s2
    else raise 0x0506 1 ([BitVec.ofNat 8 k, BitVec.ofNat 8 typ] ++ leBytes 2 hd.key.idcode.toNat ++ beBytes 16 hd.key.srcAddr.toNat ++
      leBytes 2 hd.key.srcPort.toNat ++ leBytes 2 hd.key.dstPort.toNat) none s2

/-- R140 steps 1 to 5 for a frame that only streams take: the stream where every check passes. -/
def c37Stage (hd : C37Head) (typ : Nat) (s0 : State) : Option Nat × State :=
  let k := hd.port.toNat
  let s := readEntry k hd.key hd.ecc (popC37 k (decide (typ = 0)) s0)
  match findStream s k hd.key with
  | some (h, v) =>
    if hd.poisoned then (none, setStream h { v with poisoned := sat1 v.poisoned } s)
    else if hd.payloadLen < 16 ∨ hd.syncOk = false then (none, bump 0x05000108 s)
    else
      let (go, s1) := streamPrp h hd s
      if go = false then (none, s1)
      else
        let (ok, s2) := c37Sound h hd false s1
        (if ok then some h else none, s2)
  | none =>
    if hd.poisoned then (none, s)
    else if hd.payloadLen < 16 ∨ hd.syncOk = false then (none, bump 0x05000108 s)
    else (none, unknownC37 hd typ s)

end Sys2Proof.Machine
end

