-- ==== Sys2Proof/Machine/Align.lean ====
section
/-!
DEFINITION. The commands and events of the Clover aligner (group 0x06, 06_alignment.md).
-/

namespace Sys2Proof.Machine

/-- Ranges of GRID-CONFIG (Table 6.15). -/
def gridConfigOk (p : GridConfigP) : Bool :=
  let w := p.windowMs.toNat
  let g := p.patchGapUs.toNat
  decide (p.grid.toNat < 20 ∧ (p.spec16 = 0 ∨ (8 ≤ p.spec16.toNat ∧ p.spec16.toNat ≤ 64)) ∧ 1 ≤ p.predK.toNat ∧ p.predK.toNat ≤ 40 ∧
    p.rsv = 0 ∧ p.rsv2 = 0 ∧ 100 ≤ w ∧ w ≤ 4000 ∧ 1 ≤ p.maxWaitMs.toNat ∧ p.maxWaitMs.toNat + 100 ≤ w ∧ 100 ≤ g ∧ g ≤ 100000)

/-- A slab whose instant no longer lies within its window enters HISTORY (Table 6.2), and the ring keeps the slots of the new window (R159). -/
def shrink (g windowMs : Nat) (s : State) : State :=
  ((getGrid s g).slabs.map (·.1)).foldl (fun t tag =>
    let out := if t.clk.timeValid then decide (tag + windowMs * 1000000 ≤ taiNs t)
      else decide (tag + windowMs * 1000000 ≤ (getGrid t g).newestTag)
    let t1 := modSlab g tag (fun v => { v with cfg := { v.cfg with windowMs := min v.cfg.windowMs windowMs } }) t
    if out then toHistory g tag t1 else t1) s
  |> trimRing g (slotsOf (rateOfGrid g) windowMs)

/-- GRID_CONFIG (R160, R182): for slabs that open later; a smaller window acts at once. -/
def execGridConfig (h : Hdr) (p : GridConfigP) (s : State) : Out :=
  let g := p.grid.toNat
  .next (vci (cmd 0x0601 .control false 16) h (fun _ => gridConfigOk p)
    (fun t =>
      let c : GridCfg := ⟨p.windowMs.toNat, p.maxWaitMs.toNat, p.marginUs.toNat, p.spec16.toNat, p.predK.toNat, p.patchGapUs.toNat⟩
      let old := (getGrid t g).cfg.windowMs
      let used := poolBytes t
      let new := used - gridBytes t g old + gridBytes t g c.windowMs
      if old < c.windowMs ∧ poolSize t < new then refuse .noResource t
      else
        let t1 := modGrid g (fun r => { r with cfg := c }) t
        done (poolCheck (if c.windowMs < old then shrink g c.windowMs t1 else t1))) s)

/-- Members are streams on the grid in ACTIVE or PAUSED (R175) that the partition may name (R52). -/
def membersOk (s : State) (p : HP) (g : Nat) (ms : List Nat) : Bool :=
  ms.all (fun h => match getStream s h, tget s.aln.streams h with
    | some v, some a => mayName s p v.owner && decide ((v.state = .active ∨ v.state = .paused) ∧ a.grid = g)
    | _, _ => false)

/-- Launch offset of a wire publication (Table 6.15). -/
def offsetOk (s : State) (g off : Nat) : Bool := decide (1000 ≤ off ∧ off ≤ 3999000 ∧ off < (getGrid s g).cfg.windowMs * 1000)

/-- Ranges of PUB-ADD (Table 6.15). -/
def pubAddOk (t : State) (h : Hdr) (p : PubAddP) : Bool :=
  let wire := decide (p.kind = 0)
  let k := p.target.toNat
  decide (p.kind.toNat < 2 ∧ p.grid.toNat < 20 ∧ p.level.toNat < 8 ∧ p.rsv = 0 ∧ 1 ≤ p.nMembers.toNat ∧ p.nMembers.toNat ≤ 1011 ∧
    p.handles.length = p.nMembers.toNat) &&
  membersOk t h.part p.grid.toNat (p.handles.map (·.toNat)) &&
  (if wire then
     decide (1 ≤ p.idcode.toNat ∧ p.idcode.toNat ≤ 65534 ∧ (k < 12 ∨ k = 0x10 ∨ k = 0x11) ∧ p.ring = 0 ∧ p.options &&& 0xF3 = 0) &&
     offsetOk t p.grid.toNat p.offsetUs.toNat &&
     pubFits t k (p.options.getLsbD 3) (p.handles.map (·.toNat)) && !portTaken t 2 false p.srcPort.toNat (macMask k)
   else
     decide (p.idcode = 0 ∧ p.target = 0 ∧ p.options &&& 0xFC = 0 ∧ p.ring.toNat < 64) && ringFree t h.part p.ring.toNat false)

/-- A publication as PUB-ADD makes it. -/
def newPub (t : State) (owner : HP) (p : PubAddP) : Pub :=
  let host := decide (p.kind = 1)
  let ms := p.handles.map (·.toNat)
  let lead := (p.offsetUs.toNat - 200) * 1000
  { host, grid := p.grid.toNat, state := .enabled, owner, idcode := p.idcode, target := p.target.toNat, ring := p.ring.toNat
    options := p.options, level := p.level.toNat, offsetUs := p.offsetUs.toNat, dstAddr := p.dstAddr, dstPort := p.dstPort
    srcPort := p.srcPort, cfgCnt := 0, members := ms, older := []
    frameBytes := if host then 0 else pubFrameBytes t p.target.toNat (p.options.getLsbD 3) ms
    lastTag := 0, lastLaunch := 0, frames := 0, incomplete := 0, skipped := 0, patchRecs := 0, latePatch := 0, offgrid := []
    chgFrom := none, chgUntil := 0, retiring := false, builtTag := taiNs t - lead }

/-- PUB_ADD (R175 to R177, R182). -/
def execPubAdd (h : Hdr) (p : PubAddP) (s : State) : Out :=
  .next (vci (cmd 0x0602 .openC false (36 + 4 * p.nMembers.toNat)) h (fun t => pubAddOk t h p)
    (fun t =>
      if (getPart t h.part).quota.publications < (useOf t h.part).publications + 1 then refuse .noResource t
      else match tfreeFrom t.aln.pubs 256 0 with
        | none => refuse .noResource t
        | some n =>
          let v := newPub t h.part p
          let t1 := { t with aln := { t.aln with pubs := tset t.aln.pubs n v } }
          let t2 := gridCheck v.grid t1
          let t3 := if v.host then bindRing h.part v.ring (.publication n) t2 else t2
          doneWith (leBytes 2 n ++ leBytes 2 0 ++ leBytes 4 v.frameBytes) t3) s)

/-- A new member list, for slabs of tags from `from_` on (R182): it is a configuration change of the publication (log entry 63). -/
def newMembers (from_ : Nat) (ms : List Nat) (p : Pub) : Pub :=
  { p with members := ms, older := p.older ++ [(from_, p.members)], cfgCnt := p.cfgCnt + 1, chgFrom := some from_
           offgrid := p.offgrid.filter (fun m => decide (m ∈ ms)) }

/-- PUB_CHANGE (R175 to R177, R182; Table 6.7). -/
def execPubChange (h : Hdr) (p : PubChangeP) (s : State) : Out :=
  let n := p.pub.toNat
  let ms := p.handles.map (·.toNat)
  .next (vci (cmd 0x0603 .openC false (12 + 4 * p.nMembers.toNat)) h
    (fun t => match getPub t n with
      | none => false
      | some v =>
        let list := if p.nMembers = 0 then v.members else ms
        mayName t h.part v.owner &&
        decide (p.enable.toNat < 2 ∧ p.rsv = 0 ∧ p.nMembers.toNat ≤ 1011 ∧ p.handles.length = p.nMembers.toNat) &&
        (p.nMembers = 0 || membersOk t h.part v.grid ms) &&
        (if v.host then decide (p.options &&& 0xFC = 0)
         else decide (p.options &&& 0xF3 = 0) && offsetOk t v.grid p.offsetUs.toNat &&
           (pubFits t v.target (p.options.getLsbD 3) list ||
             -- a frame that a member's configuration has already made too long is SUSPENDED's (Table 6.7)
             (p.nMembers = 0 && !pubFits t v.target (v.options.getLsbD 3) list))))
    (fun t =>
      match getPub t n with
      | none => refuse .badParam t
      | some v =>
        let list := if p.nMembers = 0 then v.members else ms
        let t1 := modPub n (fun x => { x with options := p.options, offsetUs := if x.host then x.offsetUs else p.offsetUs.toNat
                                              frameBytes := if x.host then 0 else pubFrameBytes t x.target (p.options.getLsbD 3) list }) t
        let t2 := if p.nMembers = 0 then t1 else modPub n (newMembers ((getGrid t v.grid).newestTag + 1) ms) t1
        let fits := v.host || pubFits t v.target (p.options.getLsbD 3) list
        done (match v.state with
          | .enabled => if p.enable = 0 then pubState n .disabled 0 t2 else t2
          | .disabled => if p.enable = 0 then t2 else pubState n (if fits then .enabled else .suspended) 0 t2
          | .off => if p.enable = 0 then t2 else pubState n .enabled 0 t2
          | .suspended => if fits then pubState n .enabled 0 t2 else t2)) s)

/-- PUB_RETIRE (R176): at the next slab boundary. -/
def execPubRetire (h : Hdr) (p : PubRetireP) (s : State) : Out :=
  let n := p.pub.toNat
  .next (vci (cmd 0x0604 .openC false 4) h
    (fun t => decide (p.rsv = 0) && (match getPub t n with
      | some v => mayName t h.part v.owner
      | none => false))
    (fun t => done (modPub n (fun x => { x with retiring := true }) t)) s)

/-- SLAB_OPEN (R162 to R164): the latest instant of the grid that has passed, while TIME_VALID is 1. -/
def execSlabOpen (grid : BitVec 5) (s : State) : Out :=
  let g := grid.toNat
  .next (if 20 ≤ g ∨ (getGrid s g).active = false then s
    else
      let r := rateOfGrid g
      let i := gridIndex r (taiNs s)
      let x := gridInstant r i
      let tag := if x ≤ taiNs s then x else gridInstant r (i - 1)
      let s1 := slabBoundary g s
      if (getGrid s1 g).active = false ∨ s1.clk.timeValid = false ∨ (getSlab s1 g tag).isSome ∨ leftRing s1 g tag then s1
      else checkComplete g tag (openSlab g tag s1))

/-- The instant of a slab's speculative release. -/
def specAt (g tag : Nat) (v : Slab) : Nat := tag + divRound (v.cfg.spec16 * 1000000000) (16 * rateOfGrid g)

/-- The instant at which every missing stream is past its deadline. -/
def deadlineAt (tag : Nat) (v : Slab) : Nat := tag + ((missing v).foldl (fun m e => max m e.2) 0) * 1000

/-- Release by device time applies to a slab (R166). -/
def byDevTime (s : State) (v : Slab) : Bool := s.clk.timeValid && v.byTime

/-- SPECULATIVE_RELEASE (R164): at a tick at which no earlier condition is met. -/
def execSpeculativeRelease (grid : BitVec 5) (tag : U64) (s : State) : Out :=
  let g := grid.toNat
  let t := tag.toNat
  .next (match getSlab s g t with
    | some v =>
      if byDevTime s v ∧ v.state = .forming ∧ 0 < v.cfg.spec16 ∧ specAt g t v ≤ tickNow s ∧ tickNow s < deadlineAt t v ∧ missing v ≠ [] then
        noteLate g t (tickUp (max (specAt g t v) v.openTs)) (specRelease g t s)
      else s
    | none => s)

/-- DEADLINE_RELEASE (R164). -/
def execDeadlineRelease (grid : BitVec 5) (tag : U64) (s : State) : Out :=
  let g := grid.toNat
  let t := tag.toNat
  .next (match getSlab s g t with
    | some v =>
      if byDevTime s v ∧ (v.state = .forming ∨ v.state = .speculative) ∧ missing v ≠ [] ∧ deadlineAt t v ≤ tickNow s then
        noteLate g t (tickUp (max (deadlineAt t v) v.chgTs)) (finalRelease g t .deadline s)
      else s
    | none => s)

/-- PATCH_RELEASE (R174). -/
def execPatchRelease (grid : BitVec 5) (tag : U64) (s : State) : Out :=
  let g := grid.toNat
  let t := tag.toNat
  .next (match getSlab s g t with
    | some v =>
      let due := tickUp (max v.heldTs (max v.finalTs v.lastPatchTs + v.cfg.patchGapUs * 1000))
      if v.state = .final ∧ v.held ≠ [] ∧ due ≤ taiNs s then noteLate g t due (patchNow g t s) else s
    | none => s)

/-- SLAB_HISTORY (R162, R174). -/
def execSlabHistory (grid : BitVec 5) (tag : U64) (s : State) : Out :=
  let g := grid.toNat
  let t := tag.toNat
  .next (match getSlab s g t with
    | some v =>
      let due := tickUp (t + v.cfg.windowMs * 1000000)
      if byDevTime s v ∧ v.state = .final ∧ due ≤ taiNs s then
        toHistory g t (if v.held = [] then s else noteLate g t due s)
      else s
    | none => s)

/-! ### Wire frames (R177, R178) -/

/-- STAT of a block rebuilt from a quality word (Table 5.5). -/
def wireStat (q : U16) (chg : Bool) : Nat :=
  let b (i : Nat) : Bool := q.getLsbD i
  (if b 0 then 0xC000 else if b 1 then 0x4000 else if b 2 then 0x8000 else 0) + (if b 3 then 0x2000 else 0) + (if b 7 then 0x0800 else 0) +
  (if b 8 || chg then 0x0400 else 0) + (if b 9 then 0x0200 else 0) + (q.toNat / 8192) * 64

/-- One channel on the wire: its value, or NaN where nothing is published. -/
def wireChan (kind : Nat) (ok : Option Cell) : Bytes :=
  let val := beBytes 4 (ok.elim nanWord (fun x => x.value)).toNat
  match kind with
  | 6 => beBytes 2 (ok.elim 0 (fun x => (qfloor (f32val x.value)).toNat))
  | 1 => val ++ beBytes 4 (ok.elim nanWord (fun x => f32ofQ (qmul (qmk (wrapAng x.angle.toNat) 32768) piQ))).toNat
  | 2 => val ++ beBytes 4 (ok.elim nanWord (fun x => f32ofQ (qmul (qmk (wrapAng x.angle.toNat) 32768) piQ))).toNat
  | _ => val

/-- Cells of a member as received, visible and not filled; none where it is absent, missing or filled. -/
def wireCells (s : State) (g h : Nat) (v : Option Slab) : Option (List Cell) :=
  match v with
  | none => none
  | some sl =>
    let cs := tgetD sl.cells h []
    if memberPresent s g h ∧ cs ≠ [] ∧ cs.all (fun c => c.received) then some (cs.map (fun c => c.cell)) else none

/-- A member's block (R177): its channels in position order; FREQ and DFREQ after the phasors where it has no such channels. -/
def wireBlock (s : State) (g h : Nat) (v : Option Slab) (chg : Bool) : Bytes :=
  let ds := match getStream s h with
    | some x => x.descs.take (nChans x)
    | none => []
  let fr := ds.any (fun d => decide (d.kind = 3 ∨ d.kind = 4))
  let cells := wireCells s g h v
  let stat : Nat := match cells with
    | some (c :: t) => wireStat (if (c :: t).all (fun x => x.quality.getLsbD 0) then c.quality else c.quality &&& 0xFFFE) chg
    | _ =>
      let tq := match (tget s.aln.streams h).bind (fun a => a.lastQ) with
        | some q => q.toNat / 8192
        | none => Config.noTq.toNat
      0xC000 + tq * 64 + (if chg then 0x0400 else 0)
  let ch := ds.zipIdx.map (fun (d, i) => wireChan d.kind (cells.bind (fun l => l[i]?)))
  let ph := (ds.takeWhile (fun d => decide (d.kind = 1 ∨ d.kind = 2))).length
  beBytes 2 stat ++ (ch.take ph).flatten ++ (if fr then [] else wireChan 3 none ++ wireChan 4 none) ++ (ch.drop ph).flatten

/-- A publication's frame for an instant of its grid is due: at T + offset_us − 200 µs, once (R178). -/
def pubDue (s : State) (p : Pub) (t : Nat) : Bool :=
  !p.host && decide (p.builtTag < t) && decide (gridInstant (rateOfGrid p.grid) (gridIndex (rateOfGrid p.grid) t) = t) &&
  decide (t + (p.offsetUs - 200) * 1000 ≤ taiNs s)

/-- The frame of a publication for an instant (R177, R178). -/
def pubBody (s : State) (p : Pub) (t : Nat) : Bytes :=
  let chg := p.chgFrom.any (fun f => decide (f ≤ t)) || decide (taiNs s < p.chgUntil)
  c37Frame 0 p.idcode.toNat (taiToSoc s (t / 1000000000)) (divRound (t % 1000000000 * 1000000) 1000000000) (qualByte s (t / 1000000000))
    (p.members.map (fun h => wireBlock s p.grid h (getSlab s p.grid t) chg)).flatten

/-- What a publication notes of a frame that has been launched, or skipped; `s` is the state the frame was built in. -/
def pubSent (n : Nat) (p : Pub) (t : Nat) (s : State) (st : Sts) (s2 : State) : State :=
  if st ≠ .ok then modPub n (fun x => { x with skipped := sat1 x.skipped }) s2
  else
    let sl := getSlab s p.grid t
    let bad := (p.members.filter (fun h => (wireCells s p.grid h sl).isNone)).length
    let early := match sl with
      | some v => decide (v.finalTs = 0)
      | none => true
    let inc := early || p.members.any (fun h => !memberPresent s p.grid h)
    let s3 := modPub n (fun x => { x with frames := sat1 x.frames, lastTag := t, lastLaunch := t + p.offsetUs * 1000
                                          incomplete := if inc then sat1 x.incomplete else x.incomplete
                                          chgFrom := x.chgFrom.filter (fun f => decide (t < f))
                                          chgUntil := if p.chgFrom.any (fun f => decide (f ≤ t)) then taiNs s + 60000000000 else x.chgUntil }) s2
    raiseIf inc 0x0609 1 (leBytes 2 n ++ leBytes 8 t ++ leBytes 4 bad) (some p.owner) s3

/-- PUB_FRAME_BUILD (R178): at T + offset_us − 200 µs. -/
def execPubFrameBuild (pub : U16) (tag : U64) (s : State) : Out :=
  let n := pub.toNat
  let t := tag.toNat
  .next (match getPub s n with
    | none => s
    | some p0 =>
      let p := p0.at t
      if pubDue s p t = false then s
      else
        let s1 := modPub n (fun x => { x with builtTag := t }) s
        if p.state ≠ .enabled ∨ s.clk.timeValid = false then modPub n (fun x => { x with skipped := sat1 x.skipped }) s1
        else
          let body := pubBody s p t
          let r := sendFrame { cls := .c1, port := targetPort p.target, pair := targetPair p.target, prp := true
                               len := udpLen (p.options.getLsbD 3) body.length, launch := some (t + p.offsetUs * 1000), tsReq := false
                               owner := .publication n, body, level := p.level
                               to_ := some { addr := p.dstAddr, dst := p.dstPort, src := some p.srcPort } } s1
          pubSent n p t s r.1 r.2.2)

end Sys2Proof.Machine
end

