-- ==== Sys2Proof/Machine/Capture.lean ====
section
/-!
DEFINITION. The commands and events of disturbance capture and Halga records (group 0x09, 09_capture_records.md).
-/

namespace Sys2Proof.Machine

/-! ### Configuration -/

/-- A lane of CAPTURE-ADD is in range (Tables 9.1 and 9.17). -/
def laneOk (l : LaneP) : Bool :=
  decide (l.rsv = 0 ∧ 1 ≤ l.maxSources.toNat ∧ l.maxSources.toNat ≤ 512) &&
  match l.kind.toNat with
  | 0 => decide (l.rate.toNat < 20)
  | 1 => decide (l.rate.toNat < 3)
  | 2 => decide (l.rate.toNat < 2)
  | _ => false

/-- Ranges of CAPTURE-ADD (Table 9.17, R235). -/
def captureAddOk (t : State) (h : Hdr) (p : CaptureAddP) : Bool :=
  let m := p.mode.toNat
  decide (1 ≤ m ∧ m ≤ 3 ∧ 1 ≤ p.nLanes.toNat ∧ p.nLanes.toNat ≤ 8 ∧ p.lanes.length = p.nLanes.toNat ∧ p.level.toNat < 8 ∧
    p.preMs.toNat ≤ 60000 ∧ 1 ≤ p.postMs.toNat ∧ p.postMs.toNat ≤ 600000 ∧ p.patchHoldMs.toNat ≤ 4000 ∧ p.exportFmt.toNat < 3 ∧
    (p.refLane.toNat < 8 ∨ p.refLane = 0xFF) ∧ p.rsv = 0) &&
  (if m = 1 then decide (p.slots = 0) else decide (1 ≤ p.slots.toNat ∧ p.slots.toNat ≤ 64)) &&
  (if m = 2 then decide (p.streamRing = 0xFF) else ringFree t h.part p.streamRing.toNat false) &&
  (decide (p.exportRing = 0xFF) || (ringFree t h.part p.exportRing.toNat false && decide (p.exportRing ≠ p.streamRing))) &&
  p.lanes.all laneOk && decide (p.lanes.foldl (fun n l => n + l.maxSources.toNat) 0 ≤ 1024)

/-- A ring operand, 0xFF none. -/
def optRing (r : U8) : Option Nat := if r = 0xFF then none else some r.toNat

def bindOpt (p : HP) (r : Option Nat) (u : RingUse) (s : State) : State :=
  match r with
  | some n => bindRing p n u s
  | none => s

def unbindOpt (p : HP) (r : Option Nat) (u : RingUse) (s : State) : State :=
  match r with
  | some n => unbindRing p n u s
  | none => s

/-- A capture as CAPTURE-ADD makes it. -/
def newCap (h : Hdr) (p : CaptureAddP) (pool : Nat) : Cap :=
  { mode := p.mode.toNat, state := .disarmed, owner := h.part, level := p.level.toNat, slotCount := p.slots.toNat
    streamRing := optRing p.streamRing, exportRing := optRing p.exportRing, exportFmt := p.exportFmt.toNat
    refLane := if p.refLane = 0xFF then none else some p.refLane.toNat, refPos := p.refPos.toNat, preMs := p.preMs.toNat
    postMs := p.postMs.toNat, patchHoldMs := p.patchHoldMs.toNat
    lanes := p.lanes.map (fun l => { kind := l.kind.toNat, rate := l.rate.toNat, maxSources := l.maxSources.toNat, sources := [], rows := [], disc := false, lastEl := none })
    entries := [], armTs := 0, armEl := 0, poolBytes := pool, recNo := 0, slots := [], triggers := 0, early := 0, retrig := 0
    retrigLate := 0, holdoff := 0, recFull := 0, records := 0, rowLost := 0, streamSkip := 0, patchAfterRec := 0, marksLost := 0, timedCancelled := 0
    gapBefore := false, lastGapEl := none, retiring := none }

/-- CAPTURE_ADD (R235, R237): quota, a free capture and room in the pool, at each lane's largest. -/
def execCaptureAdd (h : Hdr) (p : CaptureAddP) (s : State) : Out :=
  .next (vci (cmd 0x0901 .openC false (24 + 8 * p.nLanes.toNat)) h (fun t => captureAddOk t h p)
    (fun t =>
      let pool := capBytes (p.lanes.map (fun l => (l.kind.toNat, l.rate.toNat, l.maxSources.toNat))) p.preMs.toNat p.postMs.toNat
        p.patchHoldMs.toNat p.slots.toNat
      if (getPart t h.part).quota.captureRings < (useOf t h.part).captureRings + 1 ∨ t.cap.poolMib * 2 ^ 20 < capUsed t + pool then
        refuse .noResource t
      else match tfreeFrom t.cap.caps 64 0 with
        | none => refuse .noResource t
        | some c =>
          let k := newCap h p pool
          let t1 := { t with cap := { t.cap with caps := tset t.cap.caps c k } }
          let t2 := bindOpt h.part k.exportRing (.capture c) (bindOpt h.part k.streamRing (.capture c) t1)
          doneWith (BitVec.ofNat 8 c :: List.replicate 7 0 ++ leBytes 8 pool) (capPoolCheck t2)) s)

/-- A capture that a partition may name (R52). -/
def capNamed (t : State) (h : Hdr) (c : U8) : Bool :=
  match getCap t c.toNat with
  | some k => mayName t h.part k.owner
  | none => false

/-- A source matches its lane's kind and timing (Table 9.1). -/
def sourceOk (t : State) (h : Hdr) (l : Lane) (e : SourceP) : Bool :=
  let n := e.source.toNat
  decide (e.rsv = 0) &&
  match l.kind with
  | 0 => decide (e.dir = 0 ∧ 1 ≤ chanKind t n ∧ chanKind t n ≤ 6) &&
    (match chanOwner t n with
     | some (sh, _) => (match getStream t sh, tget t.aln.streams sh with
       | some v, some a => mayName t h.part v.owner && decide (a.grid = l.rate)
       | _, _ => false)
     | none => false)
  | 1 => decide (e.dir = 0 ∧ n < 96 ∧ (tgetD t.sage.mps (n / 6) .init).rate = l.rate)
  | _ => decide (e.dir.toNat < 2) &&
    (match tget t.voc.chans n with
     | some v => mayName t h.part v.part && decide ((if wideband v.cfg then 1 else 0) = l.rate)
     | none => false)

/-- CAPTURE_SOURCES (R235, R256). -/
def execCaptureSources (h : Hdr) (p : CaptureSourcesP) (s : State) : Out :=
  let c := p.capture.toNat
  .next (vci (cmd 0x0902 .openC false (8 + 8 * p.n.toNat)) h
    (fun t => capNamed t h p.capture && decide (p.rsv = 0 ∧ p.n.toNat ≤ 504 ∧ p.entries.length = p.n.toNat) &&
      (match (getCap t c).bind (fun k => k.lanes[p.lane.toNat]?) with
       | some l => p.entries.all (sourceOk t h l) && decide (p.n = 0 ∨ l.sources.length + p.n.toNat ≤ l.maxSources)
       | none => false))
    (fun t =>
      match getCap t c with
      | none => refuse .badParam t
      | some k =>
        if k.state ≠ .disarmed then refuse .busy t
        else
          let add := p.entries.map (fun e => (e.source.toNat, e.dir.toNat))
          done (modLane c p.lane.toNat (fun l => { l with sources := if p.n = 0 then [] else l.sources ++ add }) t)) s)

/-- Ranges of CAPTURE-TRIGGER-SET for the capture it names (Tables 9.3 and 9.17). -/
def triggerSetOk (k : Cap) (p : CaptureTriggerSetP) : Bool :=
  let kd := p.kind.toNat
  let dirMax := if kd = 2 then 1 else if kd = 3 ∨ kd = 5 then 2 else 0
  let n := p.param.toNat % 65536
  decide (p.entry.toNat < 16 ∧ kd ≤ 7 ∧ p.dir.toNat ≤ dirMax ∧ p.flags.toNat < 2 ∧ p.holdoffMs.toNat ≤ 600000 ∧ p.rsv = 0 ∧
    f32isNaN p.hyst = false ∧ (f32sign p.hyst = false ∨ p.hyst = 0x80000000)) &&
  (if 2 ≤ kd ∧ kd ≤ 5 then
     (match k.lanes[p.lane.toNat]? with
      | some l => decide (p.pos.toNat < l.maxSources ∧ f32isNaN p.level = false ∧ (kd ≠ 4 ∨ (1 ≤ n ∧ n ≤ 1024)) ∧ (kd ≠ 5 ∨ l.kind = 0))
      | none => false)
   else decide (kd = 0 ∨ p.lane = 0))

/-- CAPTURE_TRIGGER_SET (R242, R256): a TIMED entry is a timed action (R98). -/
def execCaptureTriggerSet (h : Hdr) (p : CaptureTriggerSetP) (s : State) : Out :=
  let c := p.capture.toNat
  let e := p.entry.toNat
  .next (vci (cmd 0x0903 .openC false 32) h
    (fun t => capNamed t h p.capture && (match getCap t c with
      | some k => triggerSetOk k p
      | none => false))
    (fun t =>
      match getCap t c with
      | none => refuse .badParam t
      | some k =>
        if k.state ≠ .disarmed ∨ (p.kind = 6 ∧ t.clk.timeValid = false) then refuse .busy t
        else
          let x : TrigEntry := { kind := p.kind.toNat, dir := p.dir.toNat, lane := p.lane.toNat, send := p.flags.getLsbD 0
                                 pos := p.pos.toNat, level := p.level, hyst := p.hyst, param := p.param
                                 holdoffMs := p.holdoffMs.toNat, holdEnd := none, inside := false, last := none, cancelled := none }
          let t1 := dropTimed (fun a => decide (a = .trigger c e)) t
          let t2 := modCap c (fun y => { y with entries := if p.kind = 0 then tdel y.entries e else tset y.entries e x }) t1
          if p.kind ≠ 6 then done t2
          else if p.param.toNat < taiNs t then
            done (lateAction 9 (taiNs t - p.param.toNat) (fireTimedEntry c e p.param.toNat t2))
          else done (addTimed ⟨p.param.toNat, .trigger c e⟩ t2)) s)

/-! ### Arming -/

/-- The tables of a stream: a header with STREAM set, and the lane and channel tables (R251). -/
def streamTables (s : State) (c : Nat) (k : Cap) : Bytes :=
  let r0 := (newRec s c k ⟨0, 0, 0, taiNs s, 0, false, false, none, false, none⟩ (mkMark 0 0 0 0 0 0 0 0 0 0)).record
  let r := { r0 with tStart := taiNs s, tEnd := 0, marks := [], lanes := recLanes s k 0 0 }
  let lanes := (r.lanes.map (laneBytes r)).flatten
  let chans := (r.lanes.zipIdx.map (fun (l, i) => (l.chans.map (chanBytes i)).flatten)).flatten
  halgaHead r true (chans.length / 32) [128, 128 + lanes.length, 0, 0, 0, 0] (128 + lanes.length + chans.length) 0 ++ lanes ++ chans

/-- CAPTURE_ARM (R239): rings restart empty. -/
def execCaptureArm (h : Hdr) (p : CaptureArmP) (s : State) : Out :=
  let c := p.capture.toNat
  .next (vci (cmd 0x0904 .openC true 4) h (fun t => capNamed t h p.capture && decide (p.rsv = 0))
    (fun t =>
      match getCap t c with
      | none => refuse .badParam t
      | some k =>
        if k.state ≠ .disarmed then done t
        else
          let t1 := modCap c (fun x => { x with armTs := taiNs t, armEl := elNs t, gapBefore := false
                                                lanes := x.lanes.map (fun l => { l with rows := [], disc := false, lastEl := none })
                                                entries := tmap (fun _ e => { e with inside := false, last := none }) x.entries }) t
          let t2 := capState c .filling t1
          let body := streamTables t2 c k
          done (streamItem c 2 0 body.length (taiNs t) body false t2)) s)

/-- Rows of a record that are in no ring any more are kept in the record. -/
def snapshot (s : State) (k : Cap) (r : RecSlot) : RecSlot :=
  if openRec r.state ∧ r.record.lanes = [] then { r with record := { r.record with lanes := recLanes s k r.record.tStart r.record.tEnd } }
  else r

/-- CAPTURE_DISARM (R239): a record in progress ends at the disarm instant. -/
def execCaptureDisarm (h : Hdr) (p : CaptureArmP) (s : State) : Out :=
  let c := p.capture.toNat
  .next (vci (cmd 0x0904 .openC true 4) h (fun t => capNamed t h p.capture && decide (p.rsv = 0))
    (fun t =>
      match getCap t c with
      | none => refuse .badParam t
      | some k =>
        if k.state = .disarmed then done t
        else
          let now := taiNs t
          let cut (r : RecSlot) : RecSlot :=
            if r.state = .recording then
              let r1 := { r with record := { r.record with tEnd := now, truncated := true } }
              { snapshot t k r1 with state := .assembling }
            else snapshot t k r
          let t1 := capState c .disarmed t
          done (modCap c (fun x => { x with slots := tmap (fun _ r => cut r) x.slots
                                            lanes := x.lanes.map (fun l => { l with rows := [] }) }) t1)) s)

/-- CAPTURE_FILLED: pre_ms after arming (Table 9.2). -/
def execCaptureFilled (capture : U8) (s : State) : Out :=
  .next (match getCap s capture.toNat with
    | none => s
    | some k =>
      if k.state = .filling ∧ k.armTs + k.preMs * 1000000 ≤ taiNs s then capState capture.toNat .armed s else s)

/-! ### Triggers -/

/-- CAPTURE_TRIGGER (R242, R250). -/
def execCaptureTrigger (h : Hdr) (p : CaptureTriggerP) (s : State) : Out :=
  let c := p.capture.toNat
  .next (vci (cmd 0x0905 .openC true 16) h (fun t => capNamed t h p.capture && decide (p.rsv = 0 ∧ p.flags.toNat < 4))
    (fun t =>
      if p.flags.getLsbD 0 ∧ t.clk.timeValid = false then refuse .busy t
      else
        let at_ := if p.flags.getLsbD 0 then p.tTrig.toNat else taiNs t
        done (trigger c { kind := 8, entry := 0xFF, lane := 0xFF, t := at_, bound := 0, linear := false, predicted := false
                          alarm := none, send := p.flags.getLsbD 1, chan := none } t)) s)

/-- TRIGGER_HOLDOFF_END (R242). -/
def execTriggerHoldoffEnd (capture : U8) (entry : BitVec 4) (s : State) : Out :=
  .next (match (getCap s capture.toNat).bind (fun k => tget k.entries entry.toNat) with
    | none => s
    | some x => match x.holdEnd with
      | some e => if e ≤ elNs s then
          modCap capture.toNat (fun k => { k with entries := tset k.entries entry.toNat { x with holdEnd := none } }) s else s
      | none => s)

/-- CAPTURE_REMOTE_CONFIG (R244, R486). -/
def execCaptureRemoteConfig (h : Hdr) (p : CaptureRemoteConfigP) (s : State) : Out :=
  let g := p.txTarget.toNat
  .next (vci (cmd 0x090B .control false 24) h
    (fun t => decide (p.txGroup.toNat < 64 ∧ (g < 12 ∨ g = 0x10 ∨ g = 0x11 ∨ g = 0xFF)) &&
      (p.rtPort = 0 || !portTaken t 4 false p.rtPort.toNat allMacs))
    (fun t => done { t with cap := { t.cap with rtPort := p.rtPort, sourceId := p.sourceId, txGroup := p.txGroup.toNat, txTarget := g
                                                txDstPort := p.txDstPort, txDstAddr := p.txDstAddr } }) s)

/-- CAPTURE-REMOTE-BAD with its count (R244). -/
def remoteBad (cause : Nat) (f : RemoteRx) (s : State) : State :=
  raise 0x0907 1 (BitVec.ofNat 8 cause :: leBytes 8 f.unitId.toNat) none (bump 0x09000110 s)

/-- REMOTE entries of a group fire. -/
def fireRemote (f : RemoteRx) (s : State) : State :=
  s.cap.caps.foldl (fun t c =>
    if c.2.state = .disarmed then t
    else c.2.entries.foldl (fun t e =>
      if e.2.kind = 7 ∧ e.2.param.toNat / 2 ^ f.group.toNat % 2 = 1 ∧ f.group.toNat < 64 then
        fireEntry c.1 e.1 f.tTrig.toNat f.boundNs.toNat false false none t
      else t) t) s

/-- REMOTE_TRIGGER_RX (R244): the first check that applies decides. -/
def execRemoteTriggerRx (f : RemoteRx) (s : State) : Out :=
  .next (if s.cap.rtPort = 0 then s
    else
      let t := popIn f.port.toNat .c0 s
      let seen := tgetD t.cap.rxSeen f.unitId.toNat []
      if f.len ≠ 32 ∨ f.magic ≠ 0x4F545452 ∨ f.version ≠ 1 then remoteBad 2 f t
      else if f.flags.getLsbD 0 = false ∨ t.clk.timeValid = false then remoteBad 0 f t
      else if taiNs t + 1000000000 < f.tTrig.toNat then remoteBad 1 f t
      else if seen.contains f.seq then bump 0x09000108 t
      else if f.poisoned then t
      else
        let t1 := { t with cap := { t.cap with rxSeen := tset t.cap.rxSeen f.unitId.toNat ((f.seq :: seen).take 16) } }
        fireRemote f (bump 0x09000100 t1))

/-! ### Rows -/

/-- Records whose rows are all written go to ASSEMBLING; those whose conditions of R247 are met note the instant. -/
def settleRecords (c : Nat) (s : State) : State :=
  match getCap s c with
  | none => s
  | some k =>
    let go (r : RecSlot) : RecSlot :=
      let written := decide (r.record.lanes ≠ []) || spanWritten s k r.record
      let r1 := if r.state = .recording ∧ written then { r with state := .assembling } else r
      if r1.state = .assembling ∧ r1.condTs = none ∧ written ∧ spanFinal s k r1.record then
        { r1 with condTs := some (taiNs s), condEl := elNs s } else r1
    let slots := tmap (fun _ r => go r) k.slots
    let t := modCap c (fun x => { x with slots }) s
    let was := tany (fun _ r => decide (r.state = .recording)) k.slots
    let is_ := tany (fun _ r => decide (r.state = .recording)) slots
    if was && !is_ && decide (k.state = .recording) then capState c .armed t else t

/-- First channel-table index of a lane. -/
def laneBase (k : Cap) (lane : Nat) : Nat := (k.lanes.take lane).foldl (fun n l => n + l.sources.length) 0

/-- The next row instant of a lane after an instant. -/
def nextInstant (l : Lane) (t : Nat) : Nat :=
  match l.kind with
  | 0 => let r := rateOfGrid l.rate; gridInstant r (gridIndex r t + 1)
  | _ => t + lanePeriod l.kind l.rate

/-- A type 3 item for the cells a patch changed (R251). -/
def patchItem (c lane base tag : Nat) (old new : List U64) (s : State) : State :=
  let es := (new.zipIdx).filterMap (fun (w, i) => if old[i]? = some w then none
    else some (leBytes 8 tag ++ leBytes 2 (base + i) ++ List.replicate 6 0 ++ leBytes 8 w.toNat))
  if es = [] then s else streamItem c 3 lane es.length tag es.flatten false s

/-- A row comes in at its end of the ring. -/
def newRow (c lane : Nat) (k : Cap) (l : Lane) (r : Nat × List U64) (s : State) : State :=
  let t0 := streamItem c 0 lane 1 r.1 (rowData l.kind r.2) l.disc (writeRow c lane k r s)
  let t1 := if l.disc then modLane c lane (fun x => { x with disc := false }) t0 else t0
  match ((getCap t1 c).bind (fun x => x.lanes[lane]?)).bind (fun y => y.rows.findIdx? (fun q => decide (q.1 = r.1))) with
  | some i => evalLane c lane false (some i) (if i = 0 then [] else [i - 1]) t1
  | none => t1

/-- Write rows the engine could not take (R236): they are rows like any other. -/
def lostRows (c lane : Nat) (k : Cap) (l : Lane) : Nat → Nat → State → State
  | 0, _, s => s
  | n + 1, t, s => lostRows c lane k { l with disc := false } n (nextInstant l t) (newRow c lane k l (t, l.sources.map (fun _ => lostWord l.kind)) s)

/-- A patch replaces a row that is still in the ring (R236), unless its record is assembled. -/
def patchRow (c lane : Nat) (k : Cap) (l : Lane) (tag : Nat) (words : List U64) (s : State) : State :=
  let late := tcount (fun _ r => !openRec r.state && decide (r.record.tStart ≤ tag ∧ tag < r.record.tEnd)) k.slots
  let s1 := if late = 0 then s else modCap c (fun x => { x with patchAfterRec := sat1 x.patchAfterRec }) s
  match l.rows.findIdx? (fun q => decide (q.1 = tag)) with
  | none => s1
  | some i =>
    let old := ((l.rows[i]?).map (·.2)).getD []
    let t1 := patchItem c lane (laneBase k lane) tag old words (writeRow c lane k (tag, words) s1)
    evalLane c lane true (some i) ([i, i + 1].filter (fun j => decide (j + 1 < l.rows.length))) t1

/-- The instant of the last of some rows. -/
def lastLost (l : Lane) : Nat → Nat → Nat
  | n + 2, t => lastLost l (n + 1) (nextInstant l t)
  | _, t => t

/-- A sample lane has taken its rows up to an elapsed instant. -/
def tookTo (c lane el : Nat) (s : State) : State := modLane c lane (fun l => { l with lastEl := some el }) s

/-- CAPTURE_ROWS (R236): what a lane takes from its source. The instants are those of the releases, of the samples that Sage has delivered
and of the voice lattice: no row carries a time the device clock did not give (R17). -/
def execCaptureRows (capture : U8) (lane : U8) (rows : CapIn) (s : State) : Out :=
  let c := capture.toNat
  let n := lane.toNat
  .next (match getCap s c with
    | none => s
    | some k =>
      if k.state = .disarmed then s
      else match k.lanes[n]? with
        | none => s
        | some l =>
          let t := match rows with
            | .report tag patch =>
              if l.kind ≠ 0 ∨ slabFinal s l.rate tag.toNat = false then s
              else
                let words := l.sources.map (fun e => reportWord s l.rate tag.toNat e.1)
                if patch then patchRow c n k l tag.toNat words s
                else if l.rows.any (fun r => decide (r.1 = tag.toNat)) then s
                else newRow c n k l (tag.toNat, words) s
            | .sample instant =>
              (match sampleRow s l instant.toNat with
              | none => s
              | some words => tookTo c n (elOf s instant.toNat) (newRow c n k l (instant.toNat, words) s))
            | .lost instant cnt =>
              let end_ := lastLost l cnt.toNat instant.toNat
              if cnt = 0 ∨ rowInstant s l instant.toNat = false ∨ taiNs s < end_ then s
              else
                let t1 := tookTo c n (elOf s end_) (lostRows c n k l cnt.toNat instant.toNat s)
                let t2 := modCap c (fun x => { x with rowLost := satAdd (2 ^ 64 - 1) x.rowLost cnt.toNat }) t1
                capMark c (mkMark 3 n 0 0 0 instant.toNat 0 0 cnt.toNat 0) (fun x => decide (x = .recording)) t2
          autoExport c (settleRecords c t))

/-! ### Records -/

/-- RECORD_ASSEMBLED (R247): patch_hold_ms after its conditions. -/
def execRecordAssembled (capture : U8) (slot : U8) (s0 : State) : Out :=
  let c := capture.toNat
  let n := slot.toNat
  let s := settleRecords c s0
  .next (match getCap s c with
    | none => s
    | some k =>
      match tget k.slots n with
      | none => s
      | some r =>
        if r.state ≠ .assembling ∨ r.condTs = none ∨ elNs s < r.condEl + k.patchHoldMs * 1000000 then s
        else
          let h := (snapshot s k r).record
          let h1 := { h with tq := BitVec.toNat (BitVec.ofNat 4 (worstTq s h.tStart h.tEnd)), createdTs := taiNs s }
          let h2 := { h1 with meas := measAll h1 r.chan (k.refLane.map (fun l => (l, k.refPos))) }
          let bytes := (halgaBytes h2).length
          let r1 := { r with state := .ready, record := h2, bytes, readyTs := taiNs s }
          let t := modCap c (fun x => { x with slots := tset x.slots n r1, records := sat1 x.records }) s
          autoExport c (raise 0x0902 0 ([capture, slot] ++ leBytes 4 h2.recNo.toNat ++ leBytes 4 bytes) (some k.owner) t))

/-- CAPTURE_RECORD_FREE (R256). -/
def execCaptureRecordFree (h : Hdr) (p : CaptureRecordFreeP) (s : State) : Out :=
  let c := p.capture.toNat
  .next (vci (cmd 0x0906 .openC false 4) h
    (fun t => capNamed t h p.capture && decide (p.rsv = 0) && (match getCap t c with
      | some k => decide (p.slot.toNat < k.slotCount)
      | none => false))
    (fun t =>
      match (getCap t c).bind (fun k => tget k.slots p.slot.toNat) with
      | some r =>
        if r.state ≠ .ready then refuse .busy t
        else done (modCap c (fun k => { k with slots := tdel k.slots p.slot.toNat }) t)
      | none => refuse .busy t) s)

/-! ### Exports, imports and merges -/

/-- The record store that source, capture and slot name (Table 9.17). -/
def recAt (s : State) (source c slot : Nat) : Option RecSlot :=
  match source with
  | 0 => (getCap s c).bind (fun k => tget k.slots slot)
  | 1 => tget s.cap.imports slot
  | _ => tget s.cap.merges slot

/-- Change or free that record. -/
def setRecAt (source c slot : Nat) (r : Option RecSlot) (s : State) : State :=
  let put (t : Tbl RecSlot) : Tbl RecSlot := match r with
    | some v => tset t slot v
    | none => tdel t slot
  match source with
  | 0 => modCap c (fun k => { k with slots := put k.slots }) s
  | 1 => { s with cap := { s.cap with imports := put s.cap.imports } }
  | _ => { s with cap := { s.cap with merges := put s.cap.merges } }

/-- source, capture and slot are in range and may be named. -/
def recNamed (t : State) (h : Hdr) (source c slot : U8) : Bool :=
  match source.toNat with
  | 0 => capNamed t h c && (match getCap t c.toNat with
    | some k => decide (slot.toNat < k.slotCount)
    | none => false)
  | 1 => decide (c = 0 ∧ slot.toNat < 16)
  | 2 => decide (c = 0 ∧ slot.toNat < 4)
  | _ => false

def setJob (id : Nat) (j : CapJob) (s : State) : State := { s with cap := { s.cap with jobs := tset s.cap.jobs id j } }
def delJob (id : Nat) (s : State) : State := { s with cap := { s.cap with jobs := tdel s.cap.jobs id } }

/-- CAPTURE_EXPORT (R254): the slot is EXPORTING until it completes. -/
def execCaptureExport (h : Hdr) (p : CaptureExportP) (s : State) : Out :=
  let src := p.source.toNat
  let c := p.capture.toNat
  let n := p.slot.toNat
  .next (vci (cmdLong 0x0907 .openC false 8) h
    (fun t => recNamed t h p.source p.capture p.slot && ringFree t h.part p.ring.toNat false &&
      decide (p.fmt.toNat < 3 ∧ p.freeAfter.toNat < 2 ∧ p.rsv = 0))
    (fun t =>
      match recAt t src c n with
      | none => refuse .busy t
      | some r =>
        if r.state ≠ .ready then refuse .busy t
        else
          let (id, t1) := startLong h 0x0907 10000 t
          let t2 := setRecAt src c n (some { r with state := .exporting }) t1
          ⟨.accepted, [], bindRing h.part p.ring.toNat .halga
            (setJob id (.exportJob src c n p.fmt.toNat h.part p.ring.toNat (decide (p.freeAfter = 1))) t2)⟩) s)

/-- CAPTURE_EXPORT_DONE (R254): once the ring has room for it. -/
def execCaptureExportDone (cmd_ : U32) (s : State) : Out :=
  let id := cmd_.toNat
  .next (match tget s.cap.jobs id with
    | some (.exportJob src c n fmt p ring fr) =>
      (match recAt s src c n with
      | none => s
      | some r =>
        let (out, bad) := exportBytes r.record fmt
        (match ringWrite p ring .halga out s with
        | none => s
        | some t =>
          let t1 := setRecAt src c n (if fr then none else some { r with state := .ready }) (delJob id (unbindRing p ring .halga t))
          completeLong id .ok [] (deviceJob r.record fmt bad (bump 0x09000138 (bumpIf bad 0x09000140 t1)))))
    | _ => s)

/-- CAPTURE_RETIRE (R256). -/
def execCaptureRetire (h : Hdr) (p : CaptureRetireP) (s : State) : Out :=
  let c := p.capture.toNat
  .next (vci (cmdLong 0x0908 .openC false 4) h (fun t => capNamed t h p.capture && decide (p.force.toNat < 2 ∧ p.rsv = 0))
    (fun t =>
      match getCap t c with
      | none => refuse .badParam t
      | some k =>
        if k.retiring.isSome ∨ (p.force = 0 ∧ tany (fun _ r => decide (r.state = .ready)) k.slots) then refuse .busy t
        else
          let (id, t1) := startLong h 0x0908 1000 t
          ⟨.accepted, [], modCap c (fun x => { x with retiring := some id }) t1⟩) s)

/-- CAPTURE_RETIRE_DONE: its memory returns to the pool; a slot that is being exported is waited for. -/
def execCaptureRetireDone (capture : U8) (s : State) : Out :=
  let c := capture.toNat
  .next (match getCap s c with
    | none => s
    | some k =>
      match k.retiring with
      | none => s
      | some id =>
        if tany (fun _ r => decide (r.state = .exporting)) k.slots then s
        else
          let t1 := unbindOpt k.owner k.exportRing (.capture c) (unbindOpt k.owner k.streamRing (.capture c) s)
          let t2 := dropTimed (fun a => match a with
            | .trigger x _ => decide (x = c)
            | _ => false) t1
          completeLong id .ok [] (capPoolCheck { t2 with cap := { t2.cap with caps := tdel t2.cap.caps c } }))

/-- A record store that is being filled. -/
def emptyRec : RecSlot :=
  { state := .assembling, bytes := 0, readyTs := 0, condTs := none, condEl := 0, alarm := none, chan := none
    record := { timeValid := false, merged := false, resampled := false, truncated := false, early := false, marksLost := false
                withdrawn := false, unitId := 0, recNo := 0, capture := 0, trigKind := 0, trigEntry := 0, tq := 0, tTrig := 0
                tStart := 0, tEnd := 0, boundNs := 0, utcOffset := 0, sourceId := 0, createdTs := 0, lanes := [], sources := []
                meas := [], marks := [] } }

/-- HALGA_IMPORT (R252): a free import slot, and room in the pool for the declared bytes. -/
def execHalgaImport (h : Hdr) (p : HalgaImportP) (s : State) : Out :=
  .next (vci (cmdLong 0x0909 .openC false 8) h
    (fun t => ringFree t h.part p.ring.toNat true && decide (p.rsv = 0 ∧ 256 ≤ p.bytes.toNat ∧ p.bytes.toNat ≤ 1073741824))
    (fun t =>
      match tfreeFrom t.cap.imports 16 0 with
      | none => refuse .noResource t
      | some n =>
        if t.cap.poolMib * 2 ^ 20 < capUsed t + p.bytes.toNat then refuse .noResource t
        else
          let (id, t1) := startLong h 0x0909 10000 t
          let t2 := { t1 with cap := { t1.cap with imports := tset t1.cap.imports n { emptyRec with bytes := p.bytes.toNat } } }
          ⟨.accepted, [], capPoolCheck (bindRing h.part p.ring.toNat .halga
            (setJob id (.importJob n h.part p.ring.toNat p.bytes.toNat) t2))⟩) s)

/-- Complete the next descriptors of a host-to-device ring. -/
def readBuffers (p : HP) (ring : Nat) (st : Sts) : Nat → State → State
  | 0, s => s
  | k + 1, s => readBuffers p ring st k (completeDesc p ring st 0 [] s)

/-- HALGA_IMPORT_DONE (R252): once the host has posted the bytes. -/
def execHalgaImportDone (cmd_ : U32) (r : HalgaIn) (s : State) : Out :=
  let id := cmd_.toNat
  .next (match tget s.cap.jobs id with
    | some (.importJob n p ring bytes) =>
      (match (getRing s p ring).bind (fun q => if q.use = .halga ∧ hostReads s p then buffersFor q.owned bytes else none) with
      | none => s
      | some k =>
        let got := if r.bytes.length = bytes then readHalga r.bytes else none
        let st : Sts := if r.poison ≠ 0 then .poisoned else if got.isSome then .ok else .badParam
        let t1 := delJob id (unbindRing p ring .halga (readBuffers p ring (if r.poison ≠ 0 then .poisoned else .ok) k (poisonDma p r.poison.toNat s)))
        (match st, got with
        | .ok, some rec =>
          let v := { emptyRec with state := .ready, bytes, record := rec, readyTs := taiNs s }
          completeLong id .ok [BitVec.ofNat 8 n] (bump 0x09000120 (setRecAt 1 0 n (some v) t1))
        | _, _ => completeLong id st [] (bumpIf (decide (st = .badParam)) 0x09000128 (setRecAt 1 0 n none t1))))
    | _ => s)

/-- Lanes of a record's kind: report, or Sage and voice. -/
def lanesOf (report : Bool) (r : Halga) : List RecLane := r.lanes.filter (fun l => decide (l.kind = 0) == report)

/-- Highest rate, rows per second, of the lanes of some records. -/
def topRate (report : Bool) (rs : List Halga) : Nat :=
  rs.foldl (fun m r => (lanesOf report r).foldl (fun m l => max m (laneRate l.kind l.rate)) m) 0

def chansOf (report : Bool) (rs : List Halga) : Nat :=
  rs.foldl (fun m r => (lanesOf report r).foldl (fun m l => m + l.chans.length) m) 0

/-- What R253 refuses of a resample: a rate below an input's, or a lane of more than 512 channels. -/
def resampleOk (sRate grid : Nat) (rs : List Halga) : Bool :=
  decide (topRate false rs ≤ 8000 * 2 ^ sRate ∧ chansOf false rs ≤ 512) &&
  (decide (grid = 0xFF) || decide (topRate true rs ≤ rateOfGrid grid ∧ chansOf true rs ≤ 512))

/-- HALGA_MERGE (R253). -/
def execHalgaMerge (h : Hdr) (p : HalgaMergeP) (s : State) : Out :=
  let at_ (t : State) (i : MergeInP) : Option RecSlot := recAt t i.source.toNat i.capture.toNat i.slot.toNat
  .next (vci (cmdLong 0x090A .openC false (4 + 4 * p.n.toNat)) h
    (fun t => decide (p.mode.toNat < 2 ∧ 2 ≤ p.n.toNat ∧ p.n.toNat ≤ 16 ∧ p.inputs.length = p.n.toNat) &&
      p.inputs.all (fun i => decide (i.rsv = 0) && recNamed t h i.source i.capture i.slot) &&
      (p.mode = 0 || (decide (p.sRate.toNat < 3 ∧ (p.grid.toNat < 20 ∨ p.grid = 0xFF)) &&
        resampleOk p.sRate.toNat p.grid.toNat (p.inputs.filterMap (fun i => (at_ t i).map (·.record))))))
    (fun t =>
      if p.inputs.all (fun i => match at_ t i with
          | some r => decide (r.state = .ready)
          | none => false) = false then refuse .busy t
      else match tfreeFrom t.cap.merges 4 0 with
        | none => refuse .noResource t
        | some n =>
          let (id, t1) := startLong h 0x090A 30000 t
          let t2 := { t1 with cap := { t1.cap with merges := tset t1.cap.merges n emptyRec } }
          ⟨.accepted, [], setJob id (.mergeJob n p.mode.toNat p.sRate.toNat p.grid.toNat
            (p.inputs.map (fun i => (i.source.toNat, i.capture.toNat, i.slot.toNat)))) t2⟩) s)

/-- The header of a merged record: the earliest t_trig, the worst tq; the rest from the input of that trigger. -/
def mergeHead (s : State) (rs : List Halga) (t0 t1 : Nat) (resampled : Bool) (d : Halga) : Halga :=
  let first := rs.foldl (fun a r => if r.tTrig < a.tTrig then r else a) (rs.headD d)
  let marks := (rs.zipIdx.map (fun (r, i) => r.marks.map (fun m => { m with source := i }))).flatten
  { first with timeValid := true, merged := true, resampled, unitId := s.cap.unitId, sourceId := s.cap.sourceId
               tq := rs.foldl (fun a r => max a r.tq) 0, tStart := t0, tEnd := t1, createdTs := taiNs s
               marksLost := rs.any (·.marksLost), sources := rs.map (·.unitId), marks := marks.take 1024, lanes := [], meas := [] }

def minOf (l : List Nat) : Nat := l.foldl min (l.headD 0)
def maxOf (l : List Nat) : Nat := l.foldl max 0

/-- Interleave (R253): every lane of every input, unchanged. -/
def interleave (s : State) (rs : List Halga) : Halga :=
  let h := mergeHead s rs (minOf (rs.map (·.tStart))) (maxOf (rs.map (·.tEnd))) false emptyRec.record
  let lanes := (rs.zipIdx.map (fun (r, i) => r.lanes.map (fun l => { l with source := i }))).flatten
  let meas := (rs.foldl (fun (a : Nat × List Meas) r =>
    (a.1 + r.lanes.foldl (fun n l => n + l.chans.length) 0, a.2 ++ r.meas.map (fun m => { m with chan := a.1 + m.chan }))) (0, [])).2
  { h with lanes, meas }

/-- The four rows around an instant: k − 1 to k + 2 with row k the last at or before it. -/
def around (t : Nat) : List (Nat × List U64) → Option ((Nat × List U64) × (Nat × List U64) × (Nat × List U64) × (Nat × List U64))
  | a :: b :: c :: d :: rest =>
    if b.1 ≤ t ∧ t < c.1 then some (a, b, c, d) else around t (b :: c :: d :: rest)
  | _ => none

/-- A resampled word from four words of a channel and the position u between the second and the third; flags are the OR of theirs. A voice
channel in a lane of Sage words (`out` 1) keeps its sample value. -/
def resampleWord (kind out : Nat) (a b c d : U64) (u : Scale) : U64 :=
  let n (w : U64) : Nat := w.toNat
  let at_ (f : U64 → Scale) : Scale := cubicAt (cubicOf (f a) (f b) (f c) (f d)) u
  let or_ : U64 := a ||| b ||| c ||| d
  let pos := (qfloor (qmul u (qNat (2 ^ 32)))).toNat
  match kind with
  | 0 =>
    let fl := (n or_) / 2 ^ 32 % 65536
    let vals := [a, b, c, d].map (fun w => f32toQ (BitVec.ofNat 32 (n w)))
    let v := if vals.all (·.isSome) then f32ofQ (at_ (fun w => f32val (BitVec.ofNat 32 (n w)))) else nanWord
    let ang := Config.resampleAngle ([a, b, c, d].map (fun w => BitVec.ofNat 16 (n w / 2 ^ 48))) pos
    BitVec.ofNat 64 (v.toNat + fl * 2 ^ 32 + ang.toNat * 2 ^ 48)
  | 1 =>
    let v := clampInt (-8388608) 8388607 (qround (at_ (fun w => qInt (signExt 24 (n w % 2 ^ 24)))))
    BitVec.ofNat 64 ((v % 16777216).toNat + n or_ / 2 ^ 24 % 8 * 2 ^ 24)
  | _ =>
    let v := clampInt (-32768) 32767 (qround (at_ (fun w => qInt (signExt 16 (n w % 2 ^ 16)))))
    BitVec.ofNat 64 (v % (if out = 1 then 16777216 else 65536)).toNat

/-- A channel of an input at an output instant; where four rows do not surround it, the word of a row that was not taken. -/
def resampleAt (out : Nat) (l : RecLane) (pos t : Nat) : U64 :=
  match around t l.rows with
  | some (a, b, c, d) =>
    let w (r : Nat × List U64) : U64 := lget r.2 pos 0
    resampleWord l.kind out (w a) (w b) (w c) (w d) (qmk ((t - b.1 : Nat) : Int) (c.1 - b.1))
  | none => lostWord out

/-- Output instants of a rate in a span. -/
def instantsIn (rate t0 t1 : Nat) : List Nat :=
  let i0 := (t0 * rate + 999999999) / 1000000000
  let i1 := (t1 * rate + 999999999) / 1000000000
  (List.range (i1 - i0)).map (fun i => gridInstant rate (i0 + i))

/-- One output lane of a resample, where some input has a lane of its kind. -/
def resampleLane (report : Bool) (kind rate t0 t1 : Nat) (rs : List Halga) : List RecLane :=
  let ls := (rs.map (lanesOf report)).flatten
  if ls = [] then []
  else
    [{ kind, rate, source := 0, chans := (ls.map (·.chans)).flatten
       rows := (instantsIn (laneRate kind rate) t0 t1).map (fun t =>
         (t, (ls.map (fun l => (List.range l.chans.length).map (fun p => resampleAt kind l p t))).flatten)) }]

/-- Resample (R253). -/
def resample (s : State) (sRate grid : Nat) (rs : List Halga) : Halga :=
  let t0 := maxOf (rs.map (·.tStart))
  let t1 := minOf (rs.map (·.tEnd))
  let h := mergeHead s rs t0 t1 true emptyRec.record
  let sk := if sRate = 2 ∨ rs.any (fun r => r.lanes.any (fun l => decide (l.kind = 1))) then 1 else 2
  let lanes := resampleLane false sk sRate t0 t1 rs ++ (if grid = 0xFF then [] else resampleLane true 0 grid t0 t1 rs)
  { h with lanes, meas := measAll { h with lanes } none none }

/-- HALGA_MERGE_DONE (R253). -/
def execHalgaMergeDone (cmd_ : U32) (s : State) : Out :=
  let id := cmd_.toNat
  .next (match tget s.cap.jobs id with
    | some (.mergeJob n mode sRate grid inputs) =>
      let rs := inputs.filterMap (fun i => (recAt s i.1 i.2.1 i.2.2).bind (fun r => if r.state = .ready then some r.record else none))
      let t := delJob id s
      let fail (st : Sts) : State := completeLong id st [] (setRecAt 2 0 n none t)
      if rs.length ≠ inputs.length then fail .busy
      else if rs.all (·.timeValid) = false then fail .badParam
      else
        let h := if mode = 0 then interleave s rs else resample s sRate grid rs
        let bytes := (halgaBytes h).length
        if s.cap.poolMib * 2 ^ 20 < capUsed s + bytes then fail .noResource
        else
          let v := { emptyRec with state := .ready, record := h, bytes, readyTs := taiNs s }
          completeLong id .ok (BitVec.ofNat 8 n :: List.replicate 3 0 ++ leBytes 4 bytes)
            (capPoolCheck (bump 0x09000130 (setRecAt 2 0 n (some v) t)))
    | _ => s)

end Sys2Proof.Machine
end

