-- ==== Sys2Proof/Machine/Ingest.lean ====
section
/-!
DEFINITION. The commands and events of stream ingest (group 0x05, 05_stream_ingest.md), but for sampled values and TDM highway frames,
which their consumers' files hold.
-/

namespace Sys2Proof.Machine

/-- A rate that a grid has. -/
def rateOk (r : Nat) : Bool := (gridOfRate r).isSome

/-- Ranges of STREAM-ADD (Table 5.10, R156). -/
def streamAddOk (p : StreamAddP) : Bool :=
  let t := p.transport.toNat
  let k := p.port.toNat
  decide (t < 4 ∧ (k < 12 ∨ k = 0x10 ∨ k = 0x11) ∧ (t = 3 → 4 ≤ k ∧ k < 12) ∧ p.level.toNat < 8 ∧ p.cfgPolicy.toNat < 2 ∧
    p.start.toNat < 8 ∧ p.rsv = 0 ∧ (t = 3 → p.start = 0) ∧ (t = 0 → p.srcPort = 0 → p.start = 0)) &&
  decide ((t = 1 ∨ t = 2 → p.srcPort ≠ 0) ∧ 1 ≤ p.maxChannels.toNat ∧ p.maxChannels.toNat ≤ 4096 ∧ (t = 3 → p.maxChannels = 10) ∧
    (t = 3 → p.srcAddr.toNat % 2 ^ 80 = 0) ∧ (t ≠ 3 → p.svRate = 0)) &&
  (t != 3 || rateOk p.svRate.toNat)

/-- The key a STREAM-ADD makes; that of a sampled-value stream is APPID and source MAC address alone (R149). -/
def addKey (p : StreamAddP) : StreamKey :=
  let sv := decide (p.transport = 3)
  { transport := p.transport, idcode := p.idcode, srcAddr := p.srcAddr, srcPort := if sv then 0 else p.srcPort, dstPort := if sv then 0 else p.dstPort }

/-- The descriptors of a stream of estimates: four voltage and four current phasors, frequency and ROCOF (R149). -/
def estDescs (volt curr : Nat) : List ChanDesc :=
  let mk (k : Nat) : ChanDesc := { kind := k, float := true, polar := true, cfgGen := 0, pos := 0, block := 0, fnom50 := true
                                   scale := ⟨1, 1⟩, offset := ⟨0, 1⟩, name := 0 }
  List.replicate volt (mk 1) ++ List.replicate curr (mk 2) ++ [mk 3, mk 4]

/-- A stream just added. -/
def newStream (key : StreamKey) (port level maxCh base svRate : Nat) (auto : Bool) (owner : HP) (now : Nat) : Stream :=
  { key, port, state := .awaitCfg, level, owner, auto, linkUp := false, silent := false, maxChannels := maxCh, chanBase := base, svRate
    active := none, pending := none, descs := [], lastTag := 0, latLastUs := 0, latMaxUs := 0, frames := 0, dupDiscard := 0
    malformed := 0, chkErr := 0, noCfg := 0, offGrid := 0, poisoned := 0, cfgRx := 0, rctSeen := false, rctPair := false, prpHi := 0
    prpMap := 0, prpHiEl := 0, latQ := 0, latN := 0, silenceEl := now, inStash := false, slot := 0, tag := 0, eccBad := false, retire := none, retireAt := none
    smpNext := none, cont := none, connEl := none }

/-- What refuses a new stream: quota, pool, number or directory (R51, R150, R153). -/
def addRefusal (p : HP) (maxCh : Nat) (s : State) : Option Sts :=
  let q := (getPart s p).quota
  let u := useOf s p
  if q.streams < u.streams + 1 ∨ q.channels < u.channels + maxCh ∨ 262144 ≤ s.ing.streams.length ∨ (allocChans s maxCh).isNone then some .noResource
  else none

/-- The bucket that one of the two hash functions names for a key (R150). -/
def bucketOf (gen : Nat) (second : Bool) (key : StreamKey) : Nat := Config.dirHash gen second key % 65536

/-- A free slot of a bucket: four slots, the lowest. -/
def slotIn (t : Tbl Stream) (b : Nat) : Option Nat :=
  (List.range 4).findSome? (fun i => if tany (fun _ v => !v.inStash && decide (v.slot = 4 * b + i)) t then none else some (4 * b + i))

/-- Make room in a bucket by relocating at most so many entries (R150): the entry of a slot, which the spec does not choose, goes to its other
bucket, where room is made for it in turn; its new slot is written before the old one is clear. -/
def relocate (gen : Nat) : Nat → Nat → Tbl Stream → Option (Tbl Stream)
  | 0, _, _ => none
  | n + 1, b, t =>
    match tfind (fun _ v => !v.inStash && decide (v.slot = 4 * b + n % 4)) t with
    | none => some t
    | some (h, v) =>
      let o := if bucketOf gen false v.key = b then bucketOf gen true v.key else bucketOf gen false v.key
      let room := match slotIn t o with
        | some _ => some t
        | none => relocate gen n o t
      room.bind (fun u => (slotIn u o).map (fun k => tset u h { v with slot := k }))

/-- A stream's place in the directory (R150): a slot of either bucket, after relocation where needed, or of the stash; none where all are full. -/
def placeDir (gen h : Nat) (v0 : Stream) (t : Tbl Stream) : Option (Tbl Stream) :=
  let v := { v0 with inStash := false, tag := Config.dirTag gen v0.key % 4096 }
  let b := bucketOf gen false v.key
  match (slotIn t b).orElse (fun _ => slotIn t (bucketOf gen true v.key)) with
  | some k => some (tset t h { v with slot := k })
  | none =>
    match (relocate gen 512 b t).bind (fun u => (slotIn u b).map (fun k => tset u h { v with slot := k })) with
    | some u => some u
    | none =>
      ((List.range 256).find? (fun i => !tany (fun _ x => x.inStash && decide (x.slot = i)) t)).map
        (fun i => tset t h { v with inStash := true, slot := i })

/-- Enter a stream into the directory: none where there is no place for it, in which case a rebuild begins. -/
def enterDir (h : Nat) (v : Stream) (s : State) : Option State :=
  (placeDir s.ing.hashGen.toNat h v s.ing.streams).map (fun t =>
    bumpIf ((tget t h).elim false (fun x => x.inStash)) 0x05000160 { s with ing := { s.ing with streams := t } })

/-- A rebuild of the directory begins (R150). -/
def beginRebuild (s : State) : State :=
  if s.ing.rebuilding then s else { s with ing := { s.ing with rebuilding := true, rebuildEl := elNs s, rebuildTries := 0 } }

/-- STREAM_ADD (R150, R153, R156). -/
def execStreamAdd (h : Hdr) (p : StreamAddP) (s : State) : Out :=
  .next (vci (cmd 0x0501 .openC false 32) h
    (fun t => streamAddOk p && !(t.ing.streams.any (fun e => decide (e.2.key = addKey p))) &&
      !(decide (p.transport = 0 ∨ p.transport = 2) && portTaken t 1 (decide (p.transport = 2)) p.dstPort.toNat (macMask p.port.toNat)))
    (fun t =>
      let mx := p.maxChannels.toNat
      match addRefusal h.part mx t, allocChans t mx, tfreeFrom t.ing.streams 262144 0 with
      | none, some base, some n =>
        let v := newStream (addKey p) p.port.toNat p.level.toNat mx base p.svRate.toNat (decide (p.cfgPolicy = 1)) h.part (elNs t)
        -- a TCP client starts connecting
        match enterDir n (if p.transport = 1 then { v with connEl := some (elNs t) } else v) t with
        | none => refuse .busy (beginRebuild t)
        | some t1 =>
          let t2 := oscResetStream n (placeNew 0 n (syncGrid n t1))
          let t3 := if p.transport = 0 then sendStart n p.start t2 else t2
          doneWith (leBytes 4 n ++ leBytes 4 base)
            { t3 with ing := { t3.ing with starts := if p.transport = 1 ∨ p.transport = 2 then tset t3.ing.starts n p.start else t3.ing.starts } }
      | _, _, _ => refuse .noResource t) s)

/-- A stream that the partition may name; local streams are their own chapters' (R52, R155). -/
def streamNameable (h : Hdr) (n : Nat) (t : State) : Bool :=
  match getStream t n with
  | some v => mayName t h.part v.owner
  | none => false

/-- Room after a stream's descriptors for so many in all. -/
def roomAfter (s : State) (n : Nat) (v : Stream) (mx : Nat) : Bool :=
  decide (v.chanBase + mx ≤ 5242880) &&
  s.ing.streams.all (fun e => decide (e.1 = n ∨ e.2.chanBase + e.2.maxChannels ≤ v.chanBase ∨ v.chanBase + mx ≤ e.2.chanBase))

/-- Channel count that max_channels may not go below (R156). -/
def chanFloor (v : Stream) : Nat := max (nChans v) (v.pending.elim 0 chanCount)

/-- STREAM_CHANGE (R154, R156). -/
def execStreamChange (h : Hdr) (p : StreamChangeP) (s : State) : Out :=
  let n := p.handle.toNat
  .next (vci (cmd 0x0502 .openC false 12) h
    (fun t => decide (p.level.toNat < 8 ∧ p.cfgPolicy.toNat < 2 ∧ p.pause.toNat < 2 ∧ p.rsv = 0 ∧ p.rsv2 = 0 ∧ 1 ≤ p.maxChannels.toNat ∧
        p.maxChannels.toNat ≤ 4096) && streamNameable h n t &&
      (match getStream t n with
       | some v => decide (chanFloor v ≤ p.maxChannels.toNat)
       | none => false))
    (fun t =>
      match getStream t n with
      | none => refuse .badParam t
      | some v =>
        let mx := p.maxChannels.toNat
        let q := (getPart t v.owner).quota
        if v.state = .retiring ∨ (p.pause = 1 ∧ v.state = .awaitCfg) then refuse .busy t
        else if q.channels + v.maxChannels < channelsOf t v.owner + mx then refuse .noResource t
        else if roomAfter t n v mx = false then refuse .busy t
        else
          let st := if p.pause = 1 then .paused else if v.state = .paused then .active else v.state
          let v1 := { v with level := p.level.toNat, auto := decide (p.cfgPolicy = 1), maxChannels := mx, state := st
                             silenceEl := if v.state = .paused ∧ st = .active then elNs t else v.silenceEl }
          let t1 := setStream n v1 t
          let t2 := if st = .paused ∧ v.state ≠ .paused then
              (match tget t1.aln.streams n with
               | some a => oscLostStream n 2 (unexpect a.grid n t1)
               | none => oscLostStream n 2 t1)
            else t1
          done (poolCheck (syncGrid n t2))) s)

/-- A stream begins to retire (Table 5.8); `id` is its long command. -/
def beginRetire (n : Nat) (id : Option Nat) (s : State) : State :=
  match getStream s n with
  | none => s
  | some v =>
    let at_ := (tget s.aln.streams n).map (fun a =>
      let r := rateOfGrid a.grid
      let i := gridIndex r (taiNs s)
      let x := gridInstant r i
      if taiNs s < x then x else gridInstant r (i + 1))
    syncGrid n (setStream n { v with state := .retiring, retire := id, retireAt := at_ } (oscLostStream n 1 s))

/-- STREAM_RETIRE (R154, R155, R156): not of a local stream. -/
def execStreamRetire (h : Hdr) (p : StreamRetireP) (s : State) : Out :=
  let n := p.handle.toNat
  .next (vci (cmdLong 0x0503 .openC false 4) h
    (fun t => streamNameable h n t && (match getStream t n with
      | some v => decide (v.key.transport ≠ 4)
      | none => false))
    (fun t =>
      match getStream t n with
      | none => refuse .badParam t
      | some v =>
        if v.state = .retiring ∨ streamNamed t n v then refuse .busy t
        else
          let (id, t1) := startLong h 0x0503 5000 t
          ⟨.accepted, [], beginRetire n (some id) t1⟩) s)

/-- The stream is gone: its descriptors return (R153, R154). -/
def freeStream (n : Nat) (s : State) : State :=
  match getStream s n with
  | none => s
  | some v =>
    let mps := tmap (fun _ m => if m.pmu = some n then { m with pmu := none } else m) s.sage.mps
    let s0 := (streamChans s n).foldl (fun t c => unplace 1 c t) (unplace 0 n s)
    let s1 := leaveGrid n { s0 with ing := { s0.ing with streams := tdel s0.ing.streams n, starts := tdel s0.ing.starts n }
                                    sage := { s0.sage with mps, sv := tdel s0.sage.sv n } }
    completeOpt v.retire .ok (leBytes 8 v.frames) (raise 0x050A 0 (leBytes 4 n) (some v.owner) s1)

/-- STREAM_RETIRED (R154): not before the slab boundary has passed. -/
def execStreamRetired (handle : U32) (s : State) : Out :=
  let n := handle.toNat
  .next (match getStream s n with
    | some v =>
      if v.state = .retiring ∧ (match v.retireAt with
        | some x => decide (x ≤ taiNs s)
        | none => true) = true then freeStream n s else s
    | none => s)

/-- STREAM_CFG_ACCEPT (R143, R156); BUSY for a stream in RETIRING, as STREAM-CHANGE (DESIGN CHOICE, log entry 62). -/
def execStreamCfgAccept (h : Hdr) (p : StreamCfgAcceptP) (s : State) : Out :=
  let n := p.handle.toNat
  .next (vci (cmd 0x0504 .openC false 8) h
    (fun t => decide (p.rsv = 0) && streamNameable h n t && (match getStream t n with
      | some v => v.pending.isSome
      | none => false))
    (fun t =>
      match (getStream t n).bind (fun v => v.pending) with
      | none => refuse .badParam t
      | some c =>
        if c.cfgCnt ≠ p.cfgCnt ∨ (getStream t n).elim false (fun v => decide (v.state = .retiring)) = true then refuse .busy t
        else done (applyCfg n c 0 t)) s)

/-- STREAM_REQUEST (R156). -/
def execStreamRequest (h : Hdr) (p : StreamRequestP) (s : State) : Out :=
  let n := p.handle.toNat
  .next (vci (cmd 0x0505 .openC false 8) h
    (fun t => decide (p.rsv = 0 ∧ (p.cmd = 1 ∨ p.cmd = 2 ∨ p.cmd = 3 ∨ p.cmd = 5 ∨ p.cmd = 6)) && streamNameable h n t &&
      (match getStream t n with
       | some v => decide (v.key.transport.toNat < 3 ∧ (v.key.transport = 0 → v.key.srcPort ≠ 0))
       | none => false))
    (fun t => done (sendCommand n p.cmd.toNat t)) s)

/-- A stream whose silence time has run out goes silent (R154, R489). -/
def checkSilent (n : Nat) (s : State) : State :=
  match getStream s n with
  | none => s
  | some v =>
    if v.state = .active ∧ v.silent = false ∧ v.silenceEl + s.ing.silenceMs * 1000000 ≤ elNs s then
      let s1 := raise 0x0504 2 (leBytes 4 n ++ leBytes 8 v.lastTag) (some v.owner) (setStream n { v with silent := true } s)
      match tget s1.aln.streams n with
      | some a => unexpect a.grid n s1
      | none => s1
    else s

/-- INGEST_CONFIG (R136, R489). -/
def execIngestConfig (h : Hdr) (p : IngestConfigP) (s : State) : Out :=
  let ct (x : U8) : Bool := decide (1 ≤ x.toNat ∧ x.toNat ≤ 32)
  .next (vci (cmd 0x0506 .control false 8) h
    (fun _ => ct p.ctP && ct p.ctF && ct p.ctM && ct p.ctDma && decide (100 ≤ p.silenceMs.toNat ∧ p.silenceMs.toNat ≤ 60000 ∧ p.rsv = 0))
    (fun t =>
      let t1 := { t with ing := { t.ing with ctP := p.ctP.toNat, ctF := p.ctF.toNat, ctM := p.ctM.toNat, ctDma := p.ctDma.toNat
                                             silenceMs := p.silenceMs.toNat } }
      done ((t1.ing.streams.map (·.1)).foldl (fun u n => checkSilent n u) t1)) s)

/-- STREAM_SILENT (R489). -/
def execStreamSilent (handle : U32) (s : State) : Out := .next (checkSilent handle.toNat s)

/-- Which configuration parses a data frame (R143): none where it fits neither. -/
def chooseCfg (v : Stream) (f : C37Data) : Option (C37Cfg × Bool) :=
  let fits (c : C37Cfg) : Bool := decide (layoutSize c = f.head.frameSize)
  match v.active, v.pending with
  | some a, some p =>
    if v.auto then
      let bit10 := (statsOf a f.body).any (fun x => x.getLsbD 10)
      if fits p && !fits a then some (p, true)
      else if fits p && fits a then (if bit10 then some (a, false) else some (p, true))
      else if fits a then some (a, false) else none
    else if fits a then some (a, false) else none
  | some a, none => if fits a then some (a, false) else none
  | none, _ => none

/-- The report of a data frame at an instant of its grid, or none that it snaps to (R147, R148); `at_` is the frame's timestamp. -/
def parseReport (n at_ : Nat) (f : C37Data) (c : C37Cfg) (snap : Option Nat) (s : State) : State :=
  match snap, getStream s n with
  | none, _ => modStream n (fun v => { v with offGrid := sat1 v.offGrid }) s
  | some tag, some v =>
    if s.clk.timeValid ∧ at_ + 1000000000 < tag then bump 0x05000150 s
    else
      let cells := frameCells v.descs c f.body f.descPoison (discBit s)
      acceptReport n tag at_ cells (bumpBy 0x05000148 (f.descPoison.filter (fun i => decide (i < cells.length))).length s)
  | some _, none => s

/-- A data frame of an ACTIVE stream under the configuration that parses it (R148). -/
def parseData (n at_ : Nat) (f : C37Data) (c : C37Cfg) (newCfg : Bool) (s : State) : State :=
  let hd := f.head
  let sec := socToTai s hd.soc.toNat (hd.timeQuality.getLsbD 5)
  let x := snapTag sec hd.fracsec.toNat c.timeBase c.dataRate.toNat
  parseReport n at_ f c x.1 (if newCfg then applyCfg n c (x.1.getD x.2) s else s)

/-- C37_DATA_FRAME (R137, R140, R141, R143, R146, R148). -/
def execC37DataFrame (f : C37Data) (s : State) : Out :=
  .next (if c37Held s f.head 0 then s else match c37Stage f.head 0 s with
    | (none, s1) => s1
    | (some n, s1) =>
      match getStream s1 n with
      | none => s1
      | some v =>
        match v.state with
        | .awaitCfg => setStream n { v with noCfg := sat1 v.noCfg } s1
        | .paused => setStream n { v with frames := sat1 v.frames } s1
        | .retiring => setStream n { v with frames := sat1 v.frames } s1
        | .active => match chooseCfg v f with
          | none => countMal n s1
          | some (c, newCfg) => parseData n (rxNs s f.head.port.toNat (c37Class s f.head.port.toNat true)) f c newCfg s1)

/-- A configuration reaches a stream (R142). -/
def takeCfg (n : Nat) (c : C37Cfg) (s : State) : State :=
  match getStream s n with
  | none => s
  | some v0 =>
    let v := { v0 with cfgRx := satAdd (2 ^ 64 - 1) v0.cfgRx 1 }
    let s1 := setStream n v s
    if v.state = .retiring then s1
    else match cfgRefusal v c with
      | some r => raise 0x0503 2 (leBytes 4 n ++ leBytes 2 (chanCount c) ++ [BitVec.ofNat 8 r]) (some v.owner) s1
      | none =>
        if v.state = .awaitCfg then applyCfg n c 0 s1
        else if v.active = some c then s1
        else
          raise 0x0501 1 (leBytes 4 n ++ leBytes 2 (v.active.elim 0 (fun a => a.cfgCnt.toNat)) ++ leBytes 2 c.cfgCnt.toNat ++
            leBytes 2 (chanCount c)) (some v.owner) (setStream n { v with pending := some c } s1)

/-- A CFG-3, or a frame of one that is divided (R141): the frames come by CONT_IDX, 1 and up, the last with 0xFFFF, up to 256 KiB together; one
that is missing or out of order discards the whole. -/
def joinCfg (n idx bytes : Nat) (c : C37Cfg) (s : State) : State :=
  match getStream s n with
  | none => s
  | some v =>
    let drop (t : State) : State := modStream n (fun x => { x with cont := none }) t
    let sofar := if idx = 1 then 0 else v.cont.elim 0 (·.2)
    if idx = 0 then takeCfg n c (drop s)
    else if (idx ≠ 1 ∧ v.cont.isNone) ∨ (idx ≠ 1 ∧ idx ≠ 0xFFFF ∧ v.cont.map (·.1) ≠ some idx) ∨ 262144 < sofar + bytes then countMal n (drop s)
    else if idx = 0xFFFF then takeCfg n c (drop s)
    else setStream n { v with cont := some (idx + 1, sofar + bytes) } s

/-- C37_CFG_FRAME (R141, R142). -/
def execC37CfgFrame (f : C37CfgFrame) (s : State) : Out :=
  let typ := match f.kind with
    | .cfg1 => 2
    | .cfg2 => 3
    | .cfg3 _ => 5
  .next (if c37Held s f.head typ then s else match c37Stage f.head typ s with
    | (none, s1) => s1
    | (some n, s1) =>
      match f.kind with
      | .cfg1 => modStream n (fun v => { v with cfgRx := sat1 v.cfgRx }) s1
      | .cfg2 => takeCfg n f.cfg s1
      | .cfg3 idx => joinCfg n idx.toNat f.head.frameSize f.cfg s1)

/-- C37_HEADER_FRAME (R141); of a stream in RETIRING it is counted and discarded (Table 5.8). -/
def execC37HeaderFrame (f : C37Header) (s : State) : Out :=
  .next (if c37Held s f.head 1 then s else match c37Stage f.head 1 s with
    | (none, s1) => s1
    | (some n, s1) =>
      match getStream s1 n with
      | none => s1
      | some v =>
        raiseIf (decide (v.state ≠ .retiring)) 0x050B 0 (leBytes 4 n ++ (f.text ++ List.replicate 64 0).take 64) (some v.owner)
          (setStream n { v with cfgRx := sat1 v.cfgRx } s1))

/-- A name in a CFG-3: its length and its bytes. -/
def cfg3Name (n : Nat) : Bytes := let b := (beBytes 255 n).dropWhile (fun x => decide (x = 0)); BitVec.ofNat 8 b.length :: b

/-- Members' active configurations in member order (R179), each with its stream. -/
def memberCfgs (s : State) (p : Pub) : List (Nat × List PmuCfg) :=
  p.members.map (fun h => (h, ((getStream s h).bind (fun v => v.active)).elim [] (fun c => c.blocks)))

/-- A member's block of a configuration frame: floating point throughout, its channels as its data block has them (R177). `cfg3` is the
CFG-3 form; the fields that the member's configuration does not give are free. -/
def cfgBlock (s : State) (p : Pub) (cfg3 : Bool) (h : Nat) (bs : List PmuCfg) : Bytes :=
  let name (n : Nat) : Bytes := if cfg3 then cfg3Name n else beBytes 16 n
  let digName (n : Nat) : Bytes := if cfg3 then ((List.range 16).map (fun i => cfg3Name (n / 2 ^ (128 * (15 - i)) % 2 ^ 128))).flatten else beBytes 256 n
  let ph := (bs.map (fun b => b.phasors)).flatten
  let an := (bs.map (fun b => b.analogs)).flatten
  let dg := (bs.map (fun b => b.digitals)).flatten
  let du := (bs.map (fun b => b.digUnit)).flatten
  let one := f32ofQ (qNat 1)
  let free (i : Nat) : Nat := Config.noPmu3 h i
  let x : Pmu3 := ((bs.head?).bind (fun b => b.cfg3)).getD
    ⟨BitVec.ofNat 128 (free 0), BitVec.ofNat 32 (free 1), BitVec.ofNat 32 (free 2), BitVec.ofNat 32 (free 3), BitVec.ofNat 8 (free 4),
     BitVec.ofNat 32 (free 5), BitVec.ofNat 32 (free 6)⟩
  name ((bs.head?).elim 0 (fun b => b.stn)) ++ beBytes 2 ((bs.head?).elim 0 (fun b => b.idcode.toNat)) ++
  (if cfg3 then beBytes 16 x.gPmuId.toNat else []) ++ beBytes 2 0x000F ++ beBytes 2 ph.length ++ beBytes 2 an.length ++ beBytes 2 dg.length ++
  (ph.map (fun c => name c.name)).flatten ++ (an.map (fun c => name c.name)).flatten ++ (dg.map digName).flatten ++
  (if cfg3 then
     (ph.map (fun c => beBytes 4 c.flags.toNat ++ beBytes 4 one.toNat ++ beBytes 4 0)).flatten ++
     (an.map (fun _ => beBytes 4 one.toNat ++ beBytes 4 0)).flatten
   else
     (ph.map (fun c => [if c.current then 1 else 0, 0, 0, 0])).flatten ++ (an.map (fun _ => beBytes 4 0)).flatten) ++
  (du.map (fun u => beBytes 4 u.toNat)).flatten ++
  (if cfg3 then beBytes 4 x.lat.toNat ++ beBytes 4 x.lon.toNat ++ beBytes 4 x.elev.toNat ++ [x.svcClass] ++ beBytes 4 x.window.toNat ++
     beBytes 4 x.grpDly.toNat else []) ++
  beBytes 2 ((bs.head?).elim 0 (fun b => if b.fnom50 then 1 else 0)) ++ beBytes 2 p.cfgCnt.toNat

/-- The body of the configuration frame of a publication (R179): of a CFG-3 its only frame. -/
def pubCfg (s : State) (p : Pub) (cfg3 : Bool) : Bytes :=
  (if cfg3 then beBytes 2 0 else []) ++ beBytes 4 1000000 ++ beBytes 2 p.members.length ++
  ((memberCfgs s p).map (fun e => cfgBlock s p cfg3 e.1 e.2)).flatten ++ beBytes 2 (rateOfGrid p.grid)

/-- A command reaches a publication (R179): 1 turn off, 2 turn on, 3 send header, 5 send CFG-2, 6 send CFG-3. -/
def pubCommand (n : Nat) (p : Pub) (cmd : Nat) (s : State) : State :=
  let reply (typ : Nat) (data : Bytes) : State :=
    let ns := taiNs s
    let body := c37Frame typ p.idcode.toNat (taiToSoc s (ns / 1000000000)) (divRound (ns % 1000000000 * 1000000) 1000000000)
      (qualByte s (ns / 1000000000)) data
    sendOwn { cls := .c3, port := targetPort p.target, pair := targetPair p.target, prp := true, len := udpLen (p.options.getLsbD 3) body.length
              launch := none, tsReq := false, owner := .c37Reply n, body
              to_ := some { addr := p.dstAddr, dst := p.dstPort, src := some p.srcPort } } s
  match cmd with
  | 1 => if p.options.getLsbD 2 = false then bump 0x06000108 s else if p.state = .enabled then pubState n .off 1 s else s
  | 2 => if p.state = .off then pubState n .enabled 1 s else s
  | 3 => reply 1 (Config.pubHeader n)
  | 5 => reply 3 (pubCfg s p false)
  | 6 => reply 5 (pubCfg s p true)
  | _ => bump 0x06000108 s

/-- The wire publications that take commands at a port number and MAC. -/
def pubsAt (s : State) (k : Nat) (dst : U16) : List (Nat × Pub) :=
  s.aln.pubs.filter (fun e => decide (e.2.host = false ∧ e.2.srcPort = dst ∧ macMask e.2.target / 2 ^ k % 2 = 1))

/-- C37_COMMAND_FRAME (R137, R140, R141, R179): also frames of the reserved types 6 and 7. -/
def execC37CommandFrame (f : C37Command) (s0 : State) : Out :=
  let hd := f.head
  let k := hd.port.toNat
  let s := readEntry k hd.key hd.ecc (popC37 k false s0)
  let reserved := decide (f.frameType ≠ 4)
  let pubs := if hd.key.transport = 0 then pubsAt s k hd.key.dstPort else []
  let act (t : State) : State :=
    match pubs.find? (fun e => decide (e.2.idcode = hd.key.idcode)) with
    | some (n, p) => pubCommand n p f.cmd.toNat t
    | none => bump 0x05000118 t
  .next (if c37Held s0 hd 4 then s0 else match findStream s k hd.key with
    | some (h, v) =>
      if hd.poisoned then setStream h { v with poisoned := sat1 v.poisoned } s
      else if hd.payloadLen < 16 ∨ hd.syncOk = false then bump 0x05000108 s
      else
        let (go, s1) := streamPrp h hd s
        if go = false then s1
        else
          let (ok, s2) := c37Sound h hd reserved s1
          if ok then act s2 else s2
    | none =>
      if hd.poisoned then s
      else if hd.payloadLen < 16 ∨ hd.syncOk = false then bump 0x05000108 s
      else
        let (go, s1) := match hd.rct with
          | some (seq, _) => if k < 4 then unknownSource k hd.srcMac seq s else (true, s)
          | none => (true, s)
        if go = false ∨ pubs.isEmpty ∨ reserved then s1
        else if hd.frameSize ≠ hd.payloadLen ∨ (hd.version ≠ 1 ∧ hd.version ≠ 2) ∨ hd.chkOk = false then s1
        else act s1)

/-- TCP_LINK_DOWN (R139). -/
def execTcpLinkDown (handle : U32) (s : State) : Out :=
  let n := handle.toNat
  .next (match getStream s n with
    | some v =>
      if (v.key.transport = 1 ∨ v.key.transport = 2) ∧ v.linkUp then
        raise 0x0507 2 (leBytes 4 n) (some v.owner) (setStream n { v with linkUp := false, connEl := none } s)
      else s
    | none => s)

/-- TCP_RECONNECT (R139): a TCP client whose connection is down tries again, every 5 s; TCP_CONNECTED follows where it succeeds. -/
def execTcpReconnect (handle : U32) (s : State) : Out :=
  .next (modStream handle.toNat (fun v =>
    if v.key.transport = 1 ∧ v.linkUp = false ∧ v.connEl.all (fun e => decide (e + 5000000000 ≤ elNs s)) = true then
      { v with connEl := some (elNs s) } else v) s)

/-- TCP_CONNECTED (R139): the start commands of STREAM-ADD are sent. -/
def execTcpConnected (handle : U32) (s : State) : Out :=
  let n := handle.toNat
  .next (match getStream s n with
    | some v =>
      if (v.key.transport = 1 ∨ v.key.transport = 2) ∧ v.linkUp = false then
        sendStart n (tgetD s.ing.starts n 0) (raise 0x0508 0 (leBytes 4 n) (some v.owner) (setStream n { v with linkUp := true } s))
      else s
    | none => s)

/-- A directory of other seeds: none where some stream finds no place under them. -/
def rebuildDir (gen : Nat) (l : Tbl Stream) : Option (Tbl Stream) :=
  l.foldl (fun t e => t.bind (fun u => placeDir gen e.1 e.2 u)) (some [])

/-- DIRECTORY_REBUILT (R150): every stream takes its place under the new seeds; where one finds none, other seeds are chosen and the rebuild
goes on. -/
def execDirectoryRebuilt (s : State) : Out :=
  .next (if s.ing.rebuilding = false then s
    else
      let gen := s.ing.hashGen + 1 + BitVec.ofNat 16 s.ing.rebuildTries
      match rebuildDir gen.toNat s.ing.streams with
      | none => { s with ing := { s.ing with rebuildTries := s.ing.rebuildTries + 1 } }
      | some streams =>
        let s1 := bump 0x05000168 { s with ing := { s.ing with rebuilding := false, hashGen := gen, streams } }
        raise 0x0509 1 (leBytes 2 gen.toNat ++ leBytes 4 ((elNs s - s.ing.rebuildEl) / 1000000)) none s1)

/-- DIRECTORY_ENTRY_REWRITE (R150). -/
def execDirectoryEntryRewrite (handle : U32) (s : State) : Out :=
  .next (modStream handle.toNat (fun v => { v with eccBad := false }) s)

end Sys2Proof.Machine
end

