-- ==== Sys2Proof/Machine/SageOps.lean ====
section
/-!
DEFINITION. Operations of the Sage front end (10_metrology_frontend.md): derived settings, the decimation chain, settling and suppression,
and local phasor estimation.
-/

namespace Sys2Proof.Machine

def getMp (s : State) (m : Nat) : SgMp := tgetD s.sage.mps m .init
def setMp (m : Nat) (v : SgMp) (s : State) : State := { s with sage := { s.sage with mps := tset s.sage.mps m v } }
def modMp (m : Nat) (f : SgMp → SgMp) (s : State) : State := setMp m (f (getMp s m)) s

/-- Address of a counter of a metering point block (Table 10.8). -/
def mpCnt (m off : Nat) : Nat := 0x0A010000 + m * 0x100 + off

/-! ### Derived settings -/

/-- f_mod, Hz (R258). -/
def fModHz (s : State) : Nat := if s.sage.fMod8 then 8192000 else 4096000

/-- A modulator clock, ns. -/
def tMod (s : State) : Scale := qmk 1000000000 (fModHz s)

/-- Output rate, S/s, and period, ns. -/
def rateHz (v : SgMp) : Nat := 8000 * 2 ^ v.rate
def periodOf (v : SgMp) : Nat := 125000 / 2 ^ v.rate

def dF (v : SgMp) : Nat := 2 ^ v.firDec
def fNomHz (v : SgMp) : Nat := if v.fNom60 then 60 else 50

/-- M (R261), by f_mod. -/
def cicMAt (fmod : Nat) (v : SgMp) : Nat := fmod / (rateHz v * dF v)

/-- M is a power of two from 64 to 512 (Table 10.2). -/
def mOk (fmod : Nat) (v : SgMp) : Bool :=
  let m := cicMAt fmod v
  decide (64 ≤ m ∧ m ≤ 512 ∧ m = 2 ^ m.log2)

def cicM (s : State) (v : SgMp) : Nat := cicMAt (fModHz s) v

/-- D_g, ns rounded down (R262). -/
def groupDelay (s : State) (v : SgMp) : Nat :=
  (v.cicN * (cicM s v - 1) + (v.firLen - 1) * cicM s v) * 1000000000 / (2 * fModHz s)

/-- S_chain in output samples (R273). -/
def sChain (v : SgMp) : Nat := (v.cicN + v.firLen - 1 + dF v - 1) / dF v

/-- P in samples (R266). -/
def acqP (v : SgMp) : Nat := divRound (v.acqCycles * rateHz v) (fNomHz v)

/-- F in samples (R264). -/
def fadeF (v : SgMp) : Nat := 2 ^ v.fadeK

/-- The settling span of a DC release, in samples (Table 10.5). -/
def dcSpan (v : SgMp) : Nat := divRound (2 * rateHz v) (fNomHz v)

/-- The first lattice instant at or after a time, and the last one before it (R259). -/
def periodUp (p t : Nat) : Nat := (t + p - 1) / p * p
def latticeBefore (p t : Nat) : Nat := (t - 1) / p * p

def activeBank (v : SgMp) : List Int := if v.bankB then v.coefB else v.coefA
def otherBank (v : SgMp) : List Int := if v.bankB then v.coefA else v.coefB
def activeLen (v : SgMp) : Nat := if v.bankB then v.lenB else v.lenA

/-- The inputs of a metering point (R257). -/
def inputsOf (m : Nat) : List Nat := (List.range 6).map (fun r => 6 * m + r)

/-- The metering point is under the seal. -/
def isSealedMp (s : State) (m : Nat) : Bool := s.eq.sealed.getLsbD m

/-! ### Settling and suppression (10.6) -/

/-- The UNSETTLED bit of an input (Table 10.9). -/
def inUnsettled (s : State) (i : SgInput) : Bool := i.lost || decide (i.dc = .acquire) || decide (taiNs s < i.until_)

/-- SAGE-MP-STATE. -/
def mpState (m : Nat) (st : MpState) (cause : SgCause) (s : State) : State :=
  let v := getMp s m
  if v.state = st then s
  else raise 0x0A01 1 [BitVec.ofNat 8 m, BitVec.ofNat 8 v.state.num, BitVec.ofNat 8 st.num, BitVec.ofNat 8 cause.num] none
        (setMp m { v with state := st } s)

/-- A suppression interval begins at a sample instant, unless one runs. -/
def beginSupp (m start : Nat) (cause : SgCause) (boot : Bool) (s : State) : State :=
  let v := getMp s m
  if v.state = .settling ∨ v.state = .fading then s
  else setMp m { v with suppStart := start, suppEnd := 0, suppCause := cause, suppBoot := boot } s

/-- A suppression interval ends with a last suppressed sample (R275). -/
def endSupp (m last : Nat) (s : State) : State :=
  let v := getMp s m
  let n := if v.suppStart ≤ last then (last - v.suppStart) / periodOf v + 1 else 0
  raise 0x0A02 2 (BitVec.ofNat 8 m :: leBytes 8 v.suppStart ++ leBytes 8 last ++ leBytes 4 n ++ [BitVec.ofNat 8 v.suppCause.num]) none
    (bump 0x0A000108 (setMp m { v with suppEnd := last, suppBoot := false } s))

/-- An input becomes UNSETTLED until an instant (R273). -/
def unsettle (n untilTs : Nat) (cause : SgCause) (s : State) : State :=
  modInput n (fun i => { i with until_ := max i.until_ untilTs, cause }) s

/-- The metering point leaves RUNNING when an input becomes UNSETTLED (Table 10.4). -/
def settleFrom (m start : Nat) (cause : SgCause) (s : State) : State :=
  if (getMp s m).state = .running then mpState m .settling cause (beginSupp m start cause false s) else s

/-- An input enters ACQUIRE (Table 10.3). -/
def toAcquire (n : Nat) (s : State) : State :=
  let i := getInput s n
  let s1 := setInput n { i with dc := .acquire, d := qZero, acq := [] } s
  raiseIf (decide (i.dc ≠ .acquire)) 0x0A0A 0 [BitVec.ofNat 8 n, 0] none s1

/-- An input starts over: filters empty, ACQUIRE, UNSETTLED for S_chain + P, the tap for three samples (R272, R273, R277). -/
def restartInput (v : SgMp) (cause : SgCause) (n : Nat) (s : State) : State :=
  let fresh_ (i : SgInput) : SgInput :=
    { i with integ := [], comb := [], bitPh := 0, line := [], frac := [], tapInteg := [], tapComb := [], tapPh := 0, tapLeft := 3 }
  let s1 := modInput n fresh_ (toAcquire n s)
  unsettle n (taiNs s + (sChain v + acqP v) * periodOf v) cause s1

/-- A chain restart (R272): a fade is abandoned to its new bank (R265). -/
def chainRestart (m : Nat) (cause : SgCause) (s : State) : State :=
  let v := getMp s m
  -- the chain goes on with the sample that is next, or from OFF with one that is output after D_g
  let nx := max v.next (periodUp (periodOf v) (if v.state = .off then taiNs s - groupDelay s v else v.next))
  let s1 := mpState m .settling cause (beginSupp m nx cause (decide (cause = .boot)) s)
  let s2 := modMp m (fun x => { x with fadePos := 0, next := nx, rem := qZero, bankB := x.bankB != decide (v.state = .fading) }) s1
  let s3 := (inputsOf m).foldl (fun t n => restartInput v cause n t) s2
  bump 0x0A000100 (bump (mpCnt m 0x80) s3)

/-- The metering point goes OFF. -/
def chainOff (m : Nat) (s : State) : State :=
  let v := getMp s m
  let s1 := if v.state = .settling ∨ v.state = .fading then endSupp m (latticeBefore (periodOf v) (taiNs s)) s else s
  modMp m (fun x => { x with fadePos := 0, bankB := x.bankB != decide (v.state = .fading) }) (mpState m .off .config s1)

/-- A clock step moves the decimation of every enabled metering point to the new lattice (R260); `delta` is the step, ns. -/
def sageStep (delta : Int) (s : State) : State :=
  s.sage.mps.foldl (fun t e =>
    let v := getMp t e.1
    if v.state = .off then t
    else
      let nx := periodUp (periodOf v) (taiNs t)
      let x := qadd v.rem (qInt delta)
      let r := qsub x (qmul (tMod t) (qInt (qfloor (qdiv x (tMod t)))))
      let t1 := modMp e.1 (fun y => { y with next := nx, rem := r, pmuNext := if y.pmuRate = 0 then 0 else gridIndex y.pmuRate (taiNs t) + 1 }) t
      let t2 := (inputsOf e.1).foldl (fun u n => unsettle n (taiNs u + sChain v * periodOf v) .clockStep u) t1
      settleFrom e.1 nx .clockStep t2) s

/-! ### The decimation chain (10.2) -/

def u48 (n : Int) : Nat := (n % 2 ^ 48).toNat
def s48 (n : Nat) : Int := if n < 2 ^ 47 then (n : Int) else (n : Int) - 2 ^ 48

/-- One modulator bit through the integrators. -/
def integrate (x : Int) : List Nat → List Nat
  | [] => []
  | a :: t => let y := u48 ((a : Int) + x); y :: integrate (y : Int) t

/-- A decimated value through the combs: the differences and the new delays. -/
def combs (x : Int) : List Nat → Int × List Nat
  | [] => (x, [])
  | a :: t =>
    let (y, r) := combs (x - (a : Int)) t
    (y, u48 x :: r)

/-- A register list of N stages. -/
def stages (n : Nat) (l : List Nat) : List Nat := if l.length = n then l else List.replicate n 0

/-- Full scale, ±(2^23 − 1) counts (R262), in a unit of 1/u count. -/
def fullScale (u : Nat) : Int := (2 ^ 23 - 1) * (u : Int)

/-- A CIC output normalised by a shift of N × log2 M, in 2^-22 count, and whether it was clamped. -/
def cicOut (n m : Nat) (x : Nat) : Int × Bool :=
  let y := s48 x * 2 ^ (45 - n * m.log2)
  let fs := fullScale (2 ^ 22)
  (clampInt (-fs) fs y, decide (y < -fs ∨ fs < y))

/-- Bits of an input through the CIC of order n and decimation m; the last component tells of a clamp. -/
def cicBits (n m len : Nat) (i : SgInput) (ovl : Bool) : List Bool → SgInput × Bool
  | [] => (i, ovl)
  | b :: t =>
    let integ := integrate (if b then 1 else -1) (stages n i.integ)
    if i.bitPh + 1 < m then cicBits n m len { i with integ, bitPh := i.bitPh + 1 } ovl t
    else
      let (x, c) := combs ((integ.getLastD 0 : Nat) : Int) (stages n i.comb)
      let (y, o) := cicOut n m (u48 x)
      cicBits n m len { i with integ, comb := c, bitPh := 0, line := (y :: i.line).take len } (ovl || o) t

/-- The FIR over the delay line, newest first, with coefficients mirrored about the centre tap (R263): in 2^-44 count. -/
def fir (len : Nat) (c line : List Int) : Int :=
  (List.range len).foldl (fun a k => a + lget c (min k (len - 1 - k)) 0 * lget line k 0) 0

/-- A value in counts clamped at full scale, and whether it was. -/
def clampQ (x : Scale) : Scale × Bool :=
  let fs := qInt (2 ^ 23 - 1)
  if qlt fs x then (fs, true) else if qlt x (qneg fs) then (qneg fs, true) else (x, false)

/-- Fading weight w of fade sample i (R264). -/
def fadeMix (f i : Nat) (old new : Scale) : Scale :=
  qadd (qmul (qmk (f - (i + 1)) f) old) (qmul (qmk (i + 1) f) new)

/-- The temperature interpolation (R268): g in 2^-31, and τ in 2^-8 ns. -/
def tempInterp (i : SgInput) : Scale × Scale :=
  let th := clampInt (-4000) 12000 i.tempApplied
  let j := min ((th + 4000) / 500).toNat 31
  let u := qmk (th + 4000 - 500 * (j : Int)) 500
  let at_ (k : Nat) : Int × Int := lget i.table k (0, 0)
  let lerp (a b : Int) : Scale := qadd (qInt a) (qmul u (qInt (b - a)))
  (lerp (at_ j).1 (at_ (j + 1)).1, lerp (at_ j).2 (at_ (j + 1)).2)

/-- The gain of an input (R268). -/
def gainOf (i : SgInput) : Scale :=
  qmul (qadd (qNat 1) (qmk i.calGain (2 ^ 31))) (qadd (qNat 1) (qdiv (tempInterp i).1 (qNat (2 ^ 31))))

/-- The delay of the fractional-delay stage, ns. -/
def delayOf (v : SgMp) (i : SgInput) : Scale := qadd v.rem (qdiv (qadd (qInt i.calDelay) (tempInterp i).2) (qNat 256))

/-- The DC-blocking stage (Table 10.3): the output, and the input after it. -/
def dcStage (v : SgMp) (x : Scale) (i : SgInput) : Scale × SgInput :=
  match i.dc with
  | .acquire => (x, { i with acq := (x :: i.acq).take (acqP v) })
  | .track => (qsub x i.d, { i with d := qadd i.d (qdiv (qsub x i.d) (qNat (2 ^ v.dcShift))) })
  | .frozen => (qsub x i.d, i)

/-- What an input delivers for one output sample: the 24-bit sample, the input after it, and whether a stage clamped. -/
def chainSample (s : State) (v : SgMp) (i0 : SgInput) (bits : List Bool) : Int × SgInput × Bool :=
  let c := cicBits v.cicN (cicM s v) v.firLen i0 false bits
  let i := c.1
  let toQ (b : List Int) : Scale := qmk (fir v.firLen b i.line) (2 ^ 44)
  let y := if v.state = .fading then fadeMix (fadeF v) (min v.fadePos (fadeF v - 1)) (toQ (activeBank v)) (toQ (otherBank v)) else toQ (activeBank v)
  let x := clampQ y
  let d := dcStage v x.1 i
  let i1 := d.2
  let z := clampQ (qmul d.1 (gainOf i1))
  let fr := (z.1 :: i1.frac).take 4
  let dl := delayOf v i1
  let w := clampQ (if dl.num = 0 then z.1 else Config.farrow fr dl (qNat (periodOf v)))
  (clampInt (-(2 ^ 23 - 1)) (2 ^ 23 - 1) (qround w.1), { i1 with frac := fr }, c.2 || x.2 || z.2 || w.2)

/-- Bits of a voltage input through its quality tap, a CIC of order 3 with M = 64 (R277): the clocks taken with each output, newest first. -/
def tapBits (i : SgInput) (k : Nat) (acc : List (Nat × Int)) : List Bool → SgInput × List (Nat × Int)
  | [] => (i, acc)
  | b :: t =>
    let integ := integrate (if b then 1 else -1) (stages 3 i.tapInteg)
    if i.tapPh + 1 < 64 then tapBits { i with tapInteg := integ, tapPh := i.tapPh + 1 } (k + 1) acc t
    else
      let (x, c) := combs ((integ.getLastD 0 : Nat) : Int) (stages 3 i.tapComb)
      tapBits { i with tapInteg := integ, tapComb := c, tapPh := 0 } (k + 1) ((k + 1, (cicOut 3 64 (u48 x)).1) :: acc) t

/-- The tap samples of the bits of one output sample, whose last bit arrived at an elapsed instant: the tap's delay of 94.5 modulator clocks
is removed, the current d subtracted and the gains applied; the first three after a restart carry UNSETTLED, and those of a LOST input
MISSING. -/
def tapRun (s : State) (endEl : Nat) (bits : List Bool) (i0 : SgInput) : SgInput :=
  let (i, outs) := tapBits i0 0 [] bits
  let n := bits.length
  outs.reverse.foldl (fun (x : SgInput) (k, y) =>
    let back := (2 * (n - k) + 189) * 1000000000 / (2 * fModHz s)
    let smp : TapSmp := { el := endEl - back, v := qmul (qsub (qmk y (2 ^ 22)) x.d) (gainOf x), bad := x.lost || decide (0 < x.tapLeft) }
    { x with tap := (smp :: x.tap).take 8192, tapLeft := x.tapLeft - 1 }) i

/-- The main-chain sample at an instant carries MISSING (R274). -/
def missingAt (i : SgInput) (stamp : Nat) : Bool :=
  (i.lost && decide (i.lostTs ≤ stamp)) || decide (i.lostTs ≤ stamp ∧ stamp < i.backTs)

/-- The main-chain sample at an instant carries UNSETTLED (R273, R274). -/
def unsettledAt (i : SgInput) (stamp : Nat) : Bool := decide (stamp < i.until_) || decide (i.dc = .acquire) || missingAt i stamp

/-! ### Local phasor estimation (10.8) -/

/-- A sample of estimation: its instant as elapsed or TAI ns, its eight values in primary units (va vb vc vn ia ib ic in), and per value whether
it is absent, UNSETTLED or TEMP_STALE; and whether it was timed without synchronisation. -/
structure EstSmp where
  ts : Nat
  vals : List Scale
  bad : List Bool
  unsettled : List Bool
  stale : List Bool
  unsync : Bool

/-- The sine and cosine of a rational number of turns, in fixed point. -/
def turnSin (x : Scale) : Int :=
  let f := qsub x (qInt (qround x))
  let r := f.num * 2 * piQ.num * (fx : Int) / ((f.den : Int) * (piQ.den : Int))
  trigSeries (r * r / (fx : Int)) 24 1 r 0
def turnCos (x : Scale) : Int :=
  let f := qsub x (qInt (qround x))
  let r := f.num * 2 * piQ.num * (fx : Int) / ((f.den : Int) * (piQ.den : Int))
  trigSeries (r * r / (fx : Int)) 24 0 (fx : Int) 0

/-- A complex number. -/
structure Cx where
  re : Scale
  im : Scale

def Cx.add (a b : Cx) : Cx := ⟨qadd a.re b.re, qadd a.im b.im⟩
def Cx.mul (a b : Cx) : Cx := ⟨qsub (qmul a.re b.re) (qmul a.im b.im), qadd (qmul a.re b.im) (qmul a.im b.re)⟩
def Cx.scale (k : Scale) (a : Cx) : Cx := ⟨qmul k a.re, qmul k a.im⟩
def Cx.abs2 (a : Cx) : Scale := qadd (qmul a.re a.re) (qmul a.im a.im)
def Cx.arg (a : Cx) : Scale := atan2Q a.im a.re

/-- e^(−j2πx) for x turns. -/
def cis (x : Scale) : Cx := ⟨qmk (turnCos x) fx, qmk (-(turnSin x)) fx⟩

/-- A rotation by 2π/3 k. -/
def rot3 (k : Nat) (a : Cx) : Cx := a.mul (cis (qmk (-(k : Int)) 3))

/-- What an estimate needs: f_w in µHz, nominal frequency in Hz, and W in cycles. -/
structure EstCfg where
  fw : Nat
  fNom : Nat
  w : Nat

/-- H, ns. -/
def EstCfg.h (c : EstCfg) : Scale := qmk (c.w * 1000000 * 1000000000) (2 * c.fw)

/-- Δ, ns (R280). -/
def EstCfg.delta (c : EstCfg) : Scale := qmk 1000000000 (2 * c.fNom)

/-- The samples of the window about t. -/
def estWindow (c : EstCfg) (t : Scale) (l : List EstSmp) : List EstSmp :=
  l.filter (fun x => qlt (qabs (qsub (qNat x.ts) t)) c.h)

/-- The weighted sum of R279 for value k about t, divided by the weights' sum and without √2, the phase referred to the second `sec` (ns). -/
def estSum (c : EstCfg) (t : Scale) (sec k : Nat) (l : List EstSmp) : Cx :=
  let term (x : EstSmp) : Scale × Cx :=
    let dt := qsub (qNat x.ts) t
    let cw := qmk (turnCos (qdiv dt (qmul (qNat 4) c.h))) fx
    let w := qmul cw cw
    (w, ((cis (qdiv (qmul dt (qNat c.fw)) (qNat (10 ^ 15)))).mul (cis (qdiv (qmul (qsub t (qNat sec)) (qNat c.fNom)) (qNat (10 ^ 9))))).scale
      (qmul w (lget x.vals k qZero)))
  let (sw, z) := l.foldl (fun (a : Scale × Cx) x => let (w, y) := term x; (qadd a.1 w, a.2.add y)) (qZero, ⟨qZero, qZero⟩)
  if sw.num = 0 then ⟨qZero, qZero⟩ else z.scale (qdiv (qNat 1) sw)

/-- The positive-sequence value of three (R279). -/
def posSeq (a b c : Cx) : Cx := ((a.add (rot3 1 b)).add (rot3 2 c)).scale (qmk 1 3)

/-- θ1 about an instant, rad. -/
def theta1 (c : EstCfg) (t : Scale) (sec : Nat) (l : List EstSmp) : Scale :=
  let w := estWindow c t l
  (posSeq (estSum c t sec 0 w) (estSum c t sec 1 w) (estSum c t sec 2 w)).arg

/-- An angle difference into −π to π. -/
def wrapPi (x : Scale) : Scale :=
  let two := qmul (qNat 2) piQ
  qsub x (qmul two (qInt (qfloor (qadd (qdiv x two) ⟨1, 2⟩))))

/-- Bits of a quality word: INVALID, UNSYNC, GA_NOMINAL, UNSETTLED, TEMP_STALE and tq3 (R281, Table 5.5). -/
def estQuality (s : State) (inv unsync nom uns stale : Bool) : U16 :=
  BitVec.ofNat 16 ((if inv then 1 else 0) + (if unsync then 8 else 0) + (if nom then 1024 else 0) + (if uns then 2048 else 0) +
    (if stale then 4096 else 0) + s.clk.statTq.toNat * 8192) ||| discBit s

/-- The ten cells of a report at t (R278 to R281): `neutral` puts the neutral quantities at positions 3 and 7; |V1| below `vmin` makes
frequency and ROCOF INVALID. -/
def estCells (s : State) (c : EstCfg) (neutral nom : Bool) (vmin : Scale) (t : Nat) (l : List EstSmp) : List Cell :=
  let tq := qNat t
  let sec := t / 1000000000 * 1000000000
  let w0 := estWindow c tq l
  let ws := w0 ++ estWindow c (qsub tq c.delta) l ++ estWindow c (qadd tq c.delta) l
  let anyOf (f : EstSmp → List Bool) (ks : List Nat) (x : List EstSmp) : Bool := x.any (fun e => ks.any (fun k => lget (f e) k false))
  let uns (x : List EstSmp) : Bool := x.any (fun e => e.unsync) || s.clk.syncErr
  let q (ks : List Nat) (x : List EstSmp) (more : Bool) : U16 :=
    estQuality s (more || x.isEmpty || anyOf EstSmp.bad ks x) (uns x) nom (anyOf EstSmp.unsettled ks x) (anyOf EstSmp.stale ks x)
  let ph (z : Cx) (qw : U16) : Cell := { value := f32sqrtQ (qmul (qNat 2) z.abs2), quality := qw, angle := angUnits z.arg }
  let x (k : Nat) : Cx := estSum c tq sec k w0
  let v1 := posSeq (x 0) (x 1) (x 2)
  let i1 := posSeq (x 4) (x 5) (x 6)
  let low := qlt (qmul (qNat 2) v1.abs2) (qmul vmin vmin)
  let thm := theta1 c (qsub tq c.delta) sec l
  let th0 := v1.arg
  let thp := theta1 c (qadd tq c.delta) sec l
  let d := qdiv c.delta (qNat 1000000000)
  let f := qadd (qNat c.fNom) (qdiv (wrapPi (qsub thp thm)) (qmul (qmul (qNat 4) piQ) d))
  let rc := qdiv (qsub (wrapPi (qsub thp th0)) (wrapPi (qsub th0 thm))) (qmul (qmul (qNat 2) piQ) (qmul d d))
  let fq := q [0, 1, 2] ws low
  [ph (x 0) (q [0] w0 false), ph (x 1) (q [1] w0 false), ph (x 2) (q [2] w0 false),
   (if neutral then ph (x 3) (q [3] w0 false) else ph v1 (q [0, 1, 2] w0 false)),
   ph (x 4) (q [4] w0 false), ph (x 5) (q [5] w0 false), ph (x 6) (q [6] w0 false),
   (if neutral then ph (x 7) (q [7] w0 false) else ph i1 (q [4, 5, 6] w0 false)),
   { value := f32ofQ f, quality := fq, angle := 0 }, { value := f32ofQ rc, quality := fq, angle := 0 }]

/-- f_w in µHz (R279). -/
def fwOf (s : State) (fNom : Nat) : Nat := if s.clk.gaState = .locked then s.clk.gaFreq else fNom * 1000000

/-- W in cycles by its code. -/
def winCycles (k : Nat) : Nat := 2 + 2 * k

/-- The instant by which samples of a report at t exist: t + Δ + H, ns rounded up (R280). -/
def reportDone (c : EstCfg) (t : Nat) : Nat := (-(qfloor (qneg (qadd (qNat t) (qadd c.delta c.h))))).toNat

end Sys2Proof.Machine
end

