-- ==== Sys2Proof/Machine/CfOps.lean ====
section
/-!
DEFINITION. Operations of the Cornflower coordinator (15_field_radio.md): timing of superframes and slots, SPI sequences, frames, node
events, and node data.
-/

namespace Sys2Proof.Machine

def setCf (c : CfBlk) (s : State) : State := { s with cf := c }
def modCf (f : CfBlk → CfBlk) (s : State) : State := { s with cf := f s.cf }
def getNode (s : State) (k : Nat) : Option Node := tget s.cf.nodes k
def modNode (k : Nat) (f : Node → Node) (s : State) : State := modCf (fun c => { c with nodes := tmod c.nodes k f }) s

/-- Bytes of a MIC setting (Table 15.5). -/
def micBytes (m : Nat) : Nat := 4 * 2 ^ m

/-! ### Timing (R403), in µs times the bit rate -/

/-- Airtime of a frame of some bytes. -/
def airN (p : CfProfileP) (bytes : Nat) : Nat := (bytes + p.phyOvh.toNat) * 8000000

def taN (p : CfProfileP) : Nat := p.tTaUs.toNat * p.bitrate.toNat

/-- T_b: a beacon is 15 B and its MIC. -/
def tbN (p : CfProfileP) (c : CfBlk) : Nat := airN p (15 + micBytes c.beaconMic) + taN p

/-- T_s. -/
def tsN (p : CfProfileP) (c : CfBlk) : Nat := airN p c.pollMax + taN p + airN p c.respMax + taN p

/-- S. -/
def slotCount (p : CfProfileP) (c : CfBlk) : Nat := (c.sfMs * 1000 * p.bitrate.toNat - tbN p c) / tsN p c

/-- A span in whole ns, rounded down. -/
def nsOf (p : CfProfileP) (n : Nat) : Nat := n * 1000 / p.bitrate.toNat

/-- T_b, T_s and S stay as they are (R403). -/
def timingSame (a b : CfBlk) : Bool :=
  match a.profile, b.profile with
  | some p, some q =>
    decide (tbN p a * q.bitrate.toNat = tbN q b * p.bitrate.toNat ∧ tsN p a * q.bitrate.toNat = tsN q b * p.bitrate.toNat ∧
      slotCount p a = slotCount q b)
  | _, _ => false

def sfNs (c : CfBlk) : Nat := c.sfMs * 1000000

/-- The next superframe to start and its elapsed start; one that is due counts as next. -/
def nextSf (s : State) : Nat × Nat :=
  let c := s.cf
  if elNs s < c.originEl then (0, c.originEl)
  else
    let n := (elNs s - c.originEl) / sfNs c
    let st := c.originEl + n * sfNs c
    match c.sfEl with
    | none => (n, st)
    | some e => if e < st then (n, st) else (n + 1, st + sfNs c)

/-- Elapsed start of slot j of the current superframe, and its end. -/
def slotStart (p : CfProfileP) (c : CfBlk) (j : Nat) : Nat := c.sfEl.getD 0 + nsOf p (tbN p c + j * tsN p c)
def slotEnd (p : CfProfileP) (c : CfBlk) (j : Nat) : Nat := slotStart p c (j + 1)

/-! ### Channels (R405, R406) -/

/-- Channels of a map in index order. -/
def HopMap.chans (m : HopMap) : List Nat := (List.range 64).filter (fun k => m.mask.getLsbD k)

/-- The channel of a superframe number; none before a map holds. -/
def HopMap.chanOf (m : HopMap) (no : Nat) : Option Nat := m.chans[(m.seed + no * m.inc) % m.chans.length]?

def getChan (c : CfBlk) (k : Nat) : CfChan := tgetD c.chans k .init
def modChan (k : Nat) (f : CfChan → CfChan) (c : CfBlk) : CfBlk := { c with chans := tset c.chans k (f (getChan c k)) }

/-- Occupancy of a channel in the window, ns. -/
def dwellUsed (s : State) (k : Nat) : Nat :=
  (getChan s.cf k).used.foldl (fun n e => if elNs s ≤ e.1 + s.cf.dwellWinS * 1000000000 then n + e.2 else n) 0

/-- Slots that a superframe number schedules, with their nodes. -/
def scheduled (c : CfBlk) (no : Nat) : List (Nat × Nat) :=
  (c.nodes.filter (fun e => decide (e.2.state ≠ .closed ∧ no % e.2.pollDiv = e.2.phase))).map (fun e => (e.2.slot, e.1))

/-- How many slots of the scheduled fit a budget beside the beacon, in ns; none where the beacon does not fit. -/
def fitSlots (p : CfProfileP) (c : CfBlk) (budget : Nat) : Nat → Option Nat
  | 0 => if nsOf p (tbN p c) ≤ budget then some 0 else none
  | k + 1 => if nsOf p (tbN p c + (k + 1) * tsN p c) ≤ budget then some (k + 1) else fitSlots p c budget k

/-- The map switches at its superframe (R405). -/
def mapSwitch (n : Nat) (s : State) : State :=
  match s.cf.mapNext with
  | some (m, _, at_) =>
    if at_ ≤ n then
      raise 0x0F0A 1 (s.cf.mapGen :: leBytes 4 n) none (modCf (fun c => { c with map := m, mapNext := none }) s)
    else s
  | none => s

/-! ### SPI sequences (R399) -/

/-- Expand a sequence: 0xF5 and a code insert a value. -/
def expandSeq (word : U16) (frame : Bytes) (idx : Nat) : Bytes → Bytes
  | a :: c :: t =>
    if a = 0xF5 then
      (if c = 0x00 then [BitVec.ofNat 8 (word.toNat / 256)]
       else if c = 0x01 then [BitVec.ofNat 8 word.toNat]
       else if c = 0x02 then Config.frameLenBytes frame.length
       else if c = 0x03 then (if idx = 2 then frame else [])
       else if c = 0xFF then [0xF5]
       else Config.profileCode c) ++ expandSeq word frame idx t
    else a :: expandSeq word frame idx (c :: t)
  | l => l

/-- Run sequence idx with a frame. -/
def runSeq (idx : Nat) (frame : Bytes) (s : State) : State :=
  match s.cf.profile with
  | none => s
  | some p =>
    match p.seqs[idx]? with
    | none => s
    | some q =>
      let b := expandSeq (getChan s.cf s.cf.chan).word frame idx (q.bytes.take q.len.toNat)
      modCf (fun c => { c with spi := ((idx, b) :: c.spi).take 16 }) s

/-- Launch a frame: it is loaded, and started so that its sync word leaves tx_lat_ns after the launch instant (R400). -/
def launchFrame (frame : Bytes) (s : State) : State :=
  let lat := s.cf.profile.elim 0 (fun p => p.txLatNs.toNat)
  runSeq 3 [] (runSeq 2 frame (modCf (fun c => { c with airTs := taiNs s + lat }) s))

/-- The level of CF_RST_N: a start-up drives it low for 1 ms, then high (R401). -/
def cfRstLevel (s : State) : Bool :=
  s.cf.rstN || decide (s.cf.state = .starting ∧ s.cf.failEl = none ∧ s.cf.startEl + 1000000 ≤ elNs s)

/-- The status byte tells that the transceiver is ready. -/
def statusReady (c : CfBlk) (status : U8) : Bool :=
  match c.profile with
  | some p => decide (status &&& p.stMask = p.stReady)
  | none => false

/-! ### Coordinator states (Table 15.2) -/

/-- Enter OFF: CF_RST_N held low. -/
def cfOff (s : State) : State :=
  modCf (fun c => { c with state := .off, rstN := false, txEl := none, beaconFails := 0, failEl := none
                           nodes := tmap (fun _ v => { v with polled := false }) c.nodes }) s

/-- Begin a start-up: the reset pulse. -/
def startUp (s : State) : State := modCf (fun c => { c with startEl := elNs s, failEl := none, rstN := false }) s

/-- Enter STARTING; polling stops. -/
def enterStarting (s : State) : State :=
  startUp (modCf (fun c => { c with state := .starting, tries := 0, faultRaised := false, txEl := none
                                    nodes := tmap (fun _ v => { v with polled := false }) c.nodes }) s)

/-- A start-up fails (R401): CF-RADIO-FAULT on the first failure of the entry. -/
def startFails (s : State) : State :=
  let c := s.cf
  raiseIf (!c.faultRaised) 0x0F02 3 (0x02 :: leBytes 4 c.sfNo.toNat) none
    (setCf { c with failEl := some (elNs s), tries := c.tries + 1, faultRaised := true } s)

/-- A beacon fails (R402): the third in a row restarts the transceiver. -/
def beaconFailed (cause : Nat) (s : State) : State :=
  let n := s.cf.beaconFails + 1
  let s1 := bump 0x0F000108 (modCf (fun c => { c with beaconFails := min n 3, txEl := none }) s)
  if n < 3 then s1
  else bump 0x0F000110 (enterStarting (raise 0x0F02 3 (BitVec.ofNat 8 cause :: leBytes 4 s.cf.sfNo.toNat) none s1))

/-! ### Frames (Table 15.3, R407) -/

/-- fc: type, EMPTY, KEY. -/
def fcOf (typ : Nat) (empty key : Bool) : Byte := BitVec.ofNat 8 (typ + (if empty then 8 else 0) + (if key then 16 else 0))

/-- A frame the coordinator sends: header, ciphertext and MIC, under the nonce of UNIT_ID. -/
def cfFrame (unit : U64) (key : BitVec 128) (mic : Nat) (fc : Byte) (addr : Nat) (seq : U8) (ctr : Nat) (payload : Bytes) : Bytes :=
  let header := fc :: leBytes 2 addr ++ [seq, BitVec.ofNat 8 ctr]
  let nonce := leBytes 8 unit.toNat ++ beBytes 4 ctr ++ [BitVec.ofNat 8 (5 + mic)]
  header ++ Config.ccmStar key nonce header payload (micBytes mic)

/-- The beacon of the current superframe. -/
def beaconFrame (unit : U64) (c : CfBlk) : Bytes :=
  let sw := c.mapNext.elim 0 (fun m => m.2.1.toNat)
  cfFrame unit c.keyB c.beaconMic (fcOf 0 false c.eSwB.isSome) 0xFFFF c.beaconSeq c.sfNo.toNat
    (leBytes 4 c.sfNo.toNat ++ [c.mapGen] ++ leBytes 4 sw ++ [0])

/-- A downlink record on the air. -/
def DlRec.bytes (d : DlRec) : Bytes := d.type :: BitVec.ofNat 8 d.body.length :: d.body

/-- How many queued records fit a number of bytes, in queue order (R415). -/
def dlFit : List DlRec → Nat → Nat
  | [], _ => 0
  | d :: t, room => if d.bytes.length ≤ room then dlFit t (room - d.bytes.length) + 1 else 0

/-! ### Node events (R404, R408) -/

/-- A node is closed because its counter is exhausted. -/
def closeNode (k : Nat) (s : State) : State := modNode k (fun v => { v with state := .closed, polled := false }) s

/-- CF-REKEY-DUE for a node once its counter has reached the threshold. -/
def rekeyDue (k : Nat) (s : State) : State :=
  match getNode s k with
  | none => s
  | some v =>
    if v.rekeyRaised = false ∧ 2 ^ 24 ≤ v.ctr + s.cf.rekeyWarn then
      raise 0x0F08 1 (leBytes 2 k ++ leBytes 4 v.ctr) (some v.part) (modNode k (fun x => { x with rekeyRaised := true }) s)
    else s

/-- A connection event of a node: its counter advances, a scheduled key switch applies, an exhausted counter closes the node. -/
def nodeEvent (k : Nat) (v : Node) (s : State) : State :=
  let c := v.ctr + 1
  let w := { v with polled := false, keyPrev := if v.sinceSw + 1 < 8 then v.keyPrev else none, sinceSw := v.sinceSw + 1 }
  let put (x : Node) : State := modNode k (fun _ => x) s
  match v.eSw with
  | some e =>
    if e ≤ c then
      put { w with key := v.keyNext.getD v.key, keyNext := none, keyPrev := some v.key, swAt := e, sinceSw := 0, ctr := 0, eSw := none
                   rekeyRaised := false }
    else rekeyDue k (put { w with ctr := c })
  | none =>
    if 2 ^ 24 ≤ c then raise 0x0F07 3 (leBytes 2 k) (some v.part) (closeNode k (put w))
    else rekeyDue k (put { w with ctr := c })

/-- The connection events of a superframe. -/
def nodeEvents (no : Nat) (s : State) : State :=
  s.cf.nodes.foldl (fun t e => if e.2.state ≠ .closed ∧ no % e.2.pollDiv = e.2.phase then nodeEvent e.1 e.2 t else t) s

/-- The beacon key switches at its superframe, and CF-REKEY-DUE for the beacon key (R408). -/
def beaconKey (n : Nat) (s : State) : State :=
  let c := s.cf
  let s1 := match c.eSwB with
    | some (_, at_) => if at_ ≤ n then setCf { c with keyB := c.keyBNext.getD c.keyB, keyBNext := none, eSwB := none, rekeyBRaised := false } s
                       else s
    | none => s
  if s1.cf.rekeyBRaised = false ∧ 2 ^ 32 ≤ n % 2 ^ 32 + c.rekeyWarn then
    raise 0x0F08 1 (leBytes 2 0xFFFF ++ leBytes 4 n) none (modCf (fun x => { x with rekeyBRaised := true }) s1)
  else s1

/-- Slot numbers of a phase that a node of another divisor takes: the two meet in some superframe. -/
def meets (d1 p1 d2 p2 : Nat) : Bool := decide (p1 % Nat.gcd d1 d2 = p2 % Nat.gcd d1 d2)

/-- The lowest free slot of a phase (R404). -/
def freeSlotOf (c : CfBlk) (slots d phase : Nat) : Option Nat :=
  (List.range slots).find? (fun j => !(tany (fun _ v => decide (v.slot = j) && meets d phase v.pollDiv v.phase) c.nodes))

/-- The lowest phase with a free slot, and that slot. -/
def placeNode (c : CfBlk) (slots d : Nat) : Option (Nat × Nat) :=
  (List.range d).findSome? (fun ph => (freeSlotOf c slots d ph).map (fun j => (ph, j)))

/-! ### Node data (R412 to R414) -/

/-- A record for the owner's output ring. -/
def outRecord (k : Nat) (v : Node) (typ : Byte) (body : Bytes) (ts : Nat) (s : State) : State :=
  let rec_ := leBytes 2 k ++ [typ, BitVec.ofNat 8 body.length] ++ leBytes 4 0 ++ leBytes 8 ts ++ body
  match s.cf.outRing.get v.part with
  | none => bump 0x0F000170 s
  | some n => match ringWrite v.part n .radio rec_ s with
    | some t => t
    | none => bump 0x0F000170 s

/-- The last instant of a rate at or before a time. -/
def instantBefore (r t : Nat) : Nat :=
  let i := gridIndex r t
  if gridInstant r i ≤ t then gridInstant r i else gridInstant r (i - 1)

/-- A reading of a sensor (R412, R413): temperature sources of Sage inputs, and the node's local stream. -/
def nodeReading (k sensor : Nat) (value : U32) (instant : Nat) (s : State) : State :=
  let bad := (f32toQ value).isNone
  let temp := qround (qmul (f32val value) (qNat 100))
  let s1 := s.sage.inputs.foldl (fun t e =>
    if e.2.tempSrc = 3 ∧ e.2.tempId = k * 16 + sensor then applyTemp e.1 temp bad instant t else t) s
  match (getNode s1 k).bind (fun v => v.handle.map (fun h => (v, h))) with
  | none => s1
  | some (v, h) =>
    match getStream s1 h with
    | none => s1
    | some st =>
      if st.state ≠ .active then s1
      else
        let cell : Cell := { value, angle := 0, quality := estQuality s1 bad s1.clk.syncErr false false false }
        let at_ := v.sensors.zipIdx.filterMap (fun (x, i) => if x = sensor then some (i, cell) else none)
        if at_ = [] then s1 else acceptAt h (instantBefore st.svRate instant) (taiNs s1) at_ s1

/-- The records of a response (R412); each takes at least two bytes of the fuel. -/
def takeRecords (k : Nat) (v : Node) (ts : Nat) : Nat → Bytes → State → State
  | 0, _, s => s
  | _, [], s => s
  | _, [_], s => bump 0x0F000160 s
  | n + 1, typ :: len :: t, s =>
    if t.length < len.toNat then bump 0x0F000160 s
    else
      let body := t.take len.toNat
      let s1 :=
        if typ = 0x01 ∧ len = 8 ∧ (body.headD 0).toNat < 16 then
          nodeReading k (body.headD 0).toNat (BitVec.ofNat 32 (leNat (body.drop 4))) (ts - leNat ((body.drop 2).take 2) * 1000000) s
        else if 0x80 ≤ typ.toNat ∧ typ.toNat ≤ 0xFE then outRecord k v typ body ts s
        else bump 0x0F000160 s
      takeRecords k v ts n (t.drop len.toNat) s1

/-- Records that three polls have carried without an acknowledgement are dropped (R415). -/
def dropDl (k : Nat) (s : State) : State :=
  match getNode s k with
  | none => s
  | some v =>
    let gone := v.dl.filter (fun d => decide (3 ≤ d.polls))
    let s1 := modNode k (fun x => { x with dl := x.dl.filter (fun d => decide (d.polls < 3)), dlFail := satAdd (2 ^ 64 - 1) x.dlFail gone.length }) s
    gone.foldl (fun t d => raise 0x0F0B 1 (leBytes 2 k ++ [d.type]) (some v.part) (bump 0x0F000168 t)) s1

/-- What a node's record keeps when the node goes. -/
def Node.left (v : Node) : NodeLeft :=
  { keyGen := v.keyGen, responses := v.responses, missed := v.missed, dup := v.dup, micFail := v.micFail, dlFail := v.dlFail }

/-- What the record of a node number held before a CF-NODE-ADD. -/
def nodeBefore (c : CfBlk) (k : Nat) : NodeLeft :=
  match tget c.nodes k with
  | some v => v.left
  | none => tgetD c.left k .init

/-- A node has no mapped stream, or one that can be retired (R155). -/
def nodeStreamFree (s : State) (v : Node) : Bool :=
  match v.handle with
  | none => true
  | some h => match getStream s h with
    | none => true
    | some st => !(decide (st.state = .retiring) || streamNamed s h st)

/-- Retire a node's stream. -/
def retireNodeStream (k : Nat) (v : Node) (s : State) : State :=
  match v.handle with
  | none => s
  | some h => beginRetire h none (modNode k (fun x => { x with handle := none, sensors := [] }) s)

end Sys2Proof.Machine
end

