-- ==== Sys2Proof/Machine/EqOps.lean ====
section
/-!
DEFINITION. Operations of energy, billing and supply quality (11_energy_quality.md): the energies of a cycle, registers, pulse outputs,
the gap log, energy images and the quality log.
-/

namespace Sys2Proof.Machine

def getEq (s : State) (m : Nat) : EqMp := tgetD s.eq.mps m .init
def setEq (m : Nat) (v : EqMp) (s : State) : State := { s with eq := { s.eq with mps := tset s.eq.mps m v } }
def modEq (m : Nat) (f : EqMp → EqMp) (s : State) : State := setEq m (f (getEq s m)) s

def getBReg (s : State) (b : Nat) : BReg := tgetD s.eq.regs b .init
def setBReg (b : Nat) (v : BReg) (s : State) : State := { s with eq := { s.eq with regs := tset s.eq.regs b v } }

def getPulse (s : State) (k : Nat) : Pulse := tgetD s.eq.pulses k (.init k)
def setPulse (k : Nat) (v : Pulse) (s : State) : State := { s with eq := { s.eq with pulses := tset s.eq.pulses k v } }

/-- Address of a counter of a metering point block and of a pulse output (Tables 11.5 and 11.7). -/
def eqCnt (m off : Nat) : Nat := 0x0B010000 + m * 0x200 + off
def pulseCnt (k off : Nat) : Nat := 0x0B030000 + k * 0x40 + off

/-- Udin, V (R285). -/
def udin (s : State) (m : Nat) : Scale := qmk (getEq s m).udinDv 10

/-! ### The gap log (R305, R306) -/

/-- A bound of S_ref over a length in ns, µVAh rounded up. -/
def gapBound (sRef : Scale) (len : Nat) : Nat := (-(qfloor (qneg (qdiv (qmul sRef (qNat len)) (qNat 3600000))))).toNat

/-- GAP on a metering point and on every register bound to it. -/
def setGap (m : Nat) (s : State) : State :=
  let s1 := modEq m (fun v => { v with gap := true }) s
  { s1 with eq := { s1.eq with regs := tmap (fun _ r => if r.mp = m then { r with gap := true } else r) s1.eq.regs } }

/-- EQ-OUTAGE for the metering points whose OUTAGE entries one instant completes: their mask and the first entry (Table 11.12). -/
def outageEvent (gs : List GapEntry) (s : State) : State :=
  match gs with
  | [] => s
  | g :: _ =>
    raise 0x0B07 1 (leBytes 2 (gs.foldl (fun a x => a + 2 ^ x.mp) 0) ++ leBytes 4 g.seq.toNat ++ leBytes 4 ((g.end_ - g.start) / 1000000000)) none
      (gs.foldl (fun t x => bump (eqCnt x.mp 0xF0) t) s)

/-- Announce an entry that is complete: METROLOGICAL-GAP, or EQ-OUTAGE for its metering point. -/
def gapEvent (g : GapEntry) (s : State) : State :=
  let len := g.end_ - g.start
  if g.kind = .outage then outageEvent [g] s
  else
    raise 0x0B06 3 ([BitVec.ofNat 8 g.mp, BitVec.ofNat 8 g.kind.num] ++ leBytes 4 g.seq.toNat ++ leBytes 4 (len / 1000000) ++
      leBytes 2 (min (g.bound / 1000000) 65535)) none (bump (eqCnt g.mp 0xE8) s)

/-- The acknowledged entry that is oldest. -/
def oldestAcked (t : Tbl GapEntry) (next : U32) : Option Nat :=
  (t.foldl (fun best e =>
    if e.2.acked then match best with
      | none => some e
      | some b => if (next - b.2.seq).toNat < (next - e.2.seq).toNat then some e else best
    else best) none).map (·.1)

/-- The newest entry of a metering point. -/
def newestOf (t : Tbl GapEntry) (next : U32) (m : Nat) : Option Nat :=
  (t.foldl (fun best e =>
    if e.2.mp = m then match best with
      | none => some e
      | some b => if (next - e.2.seq).toNat < (next - b.2.seq).toNat then some e else best
    else best) none).map (·.1)

/-- Enter a gap into the log (R306): GAP is set unless it is an OUTAGE. The entry that holds it comes with the state. -/
def enterGap (m : Nat) (kind : GapKind) (cause start end_ bound : Nat) (sRef : Scale) (unknown isOpen : Bool) (s0 : State) :
    State × Option GapEntry :=
  let s := if kind = .outage then s0 else setGap m s0
  let e : GapEntry := { seq := s.eq.nextG, mp := m, kind, acked := false, endUnknown := unknown, merged := false, cause, start, end_, bound
                        sRef, ackTs := 0, ackPart := 255, isOpen }
  let put (t : Tbl GapEntry) : State × Option GapEntry :=
    ({ s with eq := { s.eq with glog := tset t e.seq.toNat e, nextG := s.eq.nextG + 1 } }, some e)
  if s.eq.glog.length < 256 then put s.eq.glog
  else match oldestAcked s.eq.glog s.eq.nextG with
    | some k => put (tdel s.eq.glog k)
    | none =>
      let s1 := bump 0x0B000120 s
      match newestOf s.eq.glog s.eq.nextG m with
      | none => (s1, none)
      | some k =>
        let g := tgetD s1.eq.glog k e
        let g1 := { g with end_ := max g.end_ end_, bound := g.bound + bound, merged := true }
        ({ s1 with eq := { s1.eq with glog := tset s1.eq.glog k g1 } }, some g1)

/-- Enter a gap; an entry already complete is announced. -/
def recordGap (m : Nat) (kind : GapKind) (cause start end_ bound : Nat) (sRef : Scale) (unknown isOpen : Bool) (s : State) : State :=
  match enterGap m kind cause start end_ bound sRef unknown isOpen s with
  | (t, some g) => if isOpen then t else gapEvent g t
  | (t, none) => t

/-- Close the open entries of a metering point that a test names, at an instant (R296, R462). -/
def closeGaps (m : Nat) (f : GapEntry → Bool) (end_ : Nat) (unknown : Bool) (s : State) : State :=
  s.eq.glog.foldl (fun t e =>
    if e.2.mp = m ∧ e.2.isOpen ∧ f e.2 then
      let b := if e.2.kind = .outage then 0 else gapBound e.2.sRef (end_ - e.2.start)
      let g := { e.2 with end_, bound := b, isOpen := false, endUnknown := e.2.endUnknown || unknown }
      gapEvent g { t with eq := { t.eq with glog := tset t.eq.glog e.1 g } }
    else t) s

/-- An entry of the metering point is open: a start-up entry, or a seal check. -/
def gapOpen (s : State) (m : Nat) : Bool := tany (fun _ g => decide (g.mp = m) && g.isOpen) s.eq.glog

/-! ### Energies of a cycle (11.2) -/

/-- A delivered value in primary units. -/
def primary (s : State) (m r : Nat) (row : SgRow) : Scale := qmul (qInt (lget row.vals r 0)) (f32val (getInput s (6 * m + r)).scale)

/-- The samples of a span of elapsed time, newest first. -/
def sgRowsIn (l : List SgRow) (a b : Nat) : List SgRow := l.filter (fun r => decide (a ≤ r.el ∧ r.el < b))

/-- The pairs of voltage and current roles whose products make a three-phase sum, with signs: three phases, or two elements (R288). -/
def elements (three : Bool) : List (Nat × Nat × Int) := if three then [(0, 3, 1), (1, 5, -1)] else [(0, 3, 1), (1, 4, 1), (2, 5, 1)]

/-- Σ over the counted samples of v × i, summed over the elements. -/
def sumP (s : State) (m : Nat) (three : Bool) (rows : List SgRow) : Scale :=
  qsum (rows.map (fun r => qsum ((elements three).map (fun (v, i, sg) => qmul (qInt sg) (qmul (primary s m v r) (primary s m i r))))))

/-- Σ of v_h × i, i matched by 63 samples: over a history, newest first, for the counted samples of a span. -/
def sumQ (s : State) (m : Nat) (three : Bool) (a b : Nat) : List SgRow → Scale
  | [] => qZero
  | r :: t =>
    let rest := sumQ s m three a b t
    if a ≤ r.el ∧ r.el < b ∧ r.counted then
      match t[62]? with
      | some d =>
        qadd rest (qsum ((elements three).map (fun (v, i, sg) =>
          qmul (qInt sg) (qmul (Config.hilbert ((r :: t.take 126).map (primary s m v))) (primary s m i d)))))
      | none => rest
    else rest

/-- Σ over the phases of the root of Σv² Σi², which is n times RMS voltage times RMS current, to 2^-32. -/
def sumS (s : State) (m : Nat) (three : Bool) (rows : List SgRow) : Scale :=
  let sq (r : Nat) : Scale := qsum (rows.map (fun x => let y := primary s m r x; qmul y y))
  qsum ((List.range 3).map (fun k =>
    let p := qmul (sq k) (sq (k + 3))
    qmk (qsqrtFloor (if three then qdiv p (qNat 3) else p) (2 ^ 32)) (2 ^ 32)))

/-- The one-cycle DFT of a role at f_w, RMS (R287). -/
def dft1 (s : State) (m r fw : Nat) (rows : List SgRow) : Cx :=
  let z := rows.foldl (fun (a : Cx) x => a.add ((cis (qdiv (qmul (qNat x.el) (qNat fw)) (qNat (10 ^ 15)))).scale (primary s m r x))) ⟨qZero, qZero⟩
  -- √2 / N enters squared in every product of two phasors
  z.scale (qmk 1 rows.length)

/-- P1, Q1 and S1 (R288). -/
def fundamental (s : State) (m : Nat) (three : Bool) (fw : Nat) (rows : List SgRow) : Scale × Scale × Scale :=
  let x (r : Nat) : Cx := dft1 s m r fw rows
  let prod (v i : Nat) : Cx := let b := x i; (x v).mul ⟨b.re, qneg b.im⟩
  let pq := (elements three).foldl (fun (a : Cx) (v, i, sg) => a.add ((prod v i).scale (qInt (2 * sg)))) ⟨qZero, qZero⟩
  let s1 := qsum ((List.range 3).map (fun k =>
    let p := qmul (qNat 4) (qmul (x k).abs2 (x (k + 3)).abs2)
    qmk (qsqrtFloor (if three then qdiv p (qNat 3) else p) (2 ^ 32)) (2 ^ 32)))
  (pq.re, pq.im, s1)

/-- Quantity codes of a direction and a quadrant (Table 11.1), with the reverse flag. -/
def codeP (reverse : Bool) (p : Scale) : Nat := if (decide (p.num < 0)) != reverse then 1 else 0
def codeQ (reverse : Bool) (p q : Scale) : Nat :=
  let c := if 0 ≤ p.num then (if 0 ≤ q.num then 2 else 5) else (if 0 ≤ q.num then 3 else 4)
  if reverse then (match c with | 2 => 3 | 3 => 2 | 4 => 5 | _ => 4) else c

/-- What a span adds: energies by code in µWh, µvarh and µVAh, its apparent power, and its samples. -/
structure CycOut where
  energy : List (Nat × Scale)
  s : Scale
  n : Nat

/-- The energies of a span of elapsed time (R286 to R289). The fundamental quantities are those of a cycle every sample of which was
counted. -/
def cycleOut (s : State) (m a b : Nat) (whole : Bool) (fw : Nat) : CycOut :=
  let v := getMp s m
  let e := getEq s m
  let rows := (sgRowsIn v.hist a b).filter (fun r => r.counted)
  let n := rows.length
  let ts := periodOf v
  -- a sum of power over samples times Ts ns, in µ-units
  let en (x : Scale) : Scale := qdiv (qmul (qabs x) (qNat ts)) (qNat 3600000)
  let p := sumP s m e.threeWire rows
  let q := sumQ s m e.threeWire a b v.hist
  let ap := sumS s m e.threeWire rows
  let total := [(codeP e.reverse p, en p), (codeQ e.reverse p q, en q), (6, en ap)]
  let fund := if whole then
      let (p1, q1, s1) := fundamental s m e.threeWire fw rows
      let en1 (x : Scale) : Scale := qdiv (qmul (qabs x) (qNat (b - a))) (qNat 3600000)
      [(8 + codeP e.reverse p1, en1 p1), (8 + codeQ e.reverse p1 q1, en1 q1), (14, en1 s1)]
    else []
  { energy := if n = 0 then [] else total ++ fund, s := if n = 0 then qZero else qdiv ap (qNat n), n }

/-- Add an energy to an accumulator with its 16-bit residual (R289): the whole units added, and the metering point after it. -/
def accAdd (q : Nat) (e : Scale) (v : EqMp) : Nat × EqMp :=
  let x := (qfloor (qmul e (qNat 65536))).toNat + tgetD v.frac q 0
  let n := x / 65536
  (n, { v with acc := tset v.acc q ((tgetD v.acc q 0 + n) % 2 ^ 64), frac := tset v.frac q (x % 65536) })

/-- Add the energies of a span: whole units by code, and the metering point after it. -/
def accAll (es : List (Nat × Scale)) (v : EqMp) : List (Nat × Nat) × EqMp :=
  es.foldl (fun (l, w) (q, e) => let (n, w1) := accAdd q e w; (l ++ [(q, n)], w1)) ([], v)

/-! ### Registers and pulse outputs -/

/-- Rollovers of a register: ROLLOVERS sticks with its SATSUM bit, one EQ-ROLLOVER each (R291, R12). -/
def rollover (b ts : Nat) : Nat → State → State
  | 0, s => s
  | k + 1, s =>
    let r := getBReg s b
    let ro := if r.rollovers = 0xFFFFFFFF then r.rollovers else r.rollovers + 1
    let s1 := setBReg b { r with value := r.value - 10 ^ r.digits, rollovers := ro } s
    let s2 := if ro = 0xFFFFFFFF then { s1 with eq := { s1.eq with satsum := s1.eq.satsum ||| (1#64 <<< b) } } else s1
    rollover b ts k (raise 0x0B01 1 (BitVec.ofNat 8 b :: leBytes 4 ro.toNat ++ leBytes 8 ts) none s2)

/-- A register adds a cycle's energy (R291). -/
def regAdd (b e ts : Nat) (s : State) : State :=
  let r := getBReg s b
  let unit := 10 ^ (r.resCode + 3)
  let res := r.residual + e
  let v := r.value + res / unit
  rollover b ts (v / 10 ^ r.digits) (setBReg b { r with value := v, residual := res % unit } s)

/-- A pulse output takes a cycle's energy (R297, R298): crossings lie evenly in the cycle, whose span of elapsed time is t0 to t1 (log entry 40). -/
def pulseAdd (k e t0 t1 : Nat) (s : State) : State :=
  let p := getPulse s k
  let quan := p.quantum * 1000
  let res := p.residual + e
  let n := res / quan
  if n = 0 ∨ e = 0 then setPulse k { p with residual := res } s
  else
    let at_ (j : Nat) : Nat := t0 + (t1 - t0) * (j * quan - p.residual) / e
    let first := match p.tPrev with
      | some x => at_ 1 - x
      | none => 2 ^ 63
    let step := (t1 - t0) * quan / e
    let ovr := (if first < 2000000 then 1 else 0) + (if step < 2000000 then n - 1 else 0)
    let pn := if 1 < n then step else first
    let ow := satAdd (2 ^ 32 - 1) p.owed.toNat n
    let ring := decide (0 < ovr) && secondSince s p.lastOverEl
    let p1 := { p with residual := res % quan, owed := BitVec.ofNat 32 ow, tPrev := some (at_ n), pNs := pn
                       pUs := min (pn / 1000) (2 ^ 32 - 1)
                       overEl := if 0 < ovr ∧ p.overEl.isNone then some (elNs s) else p.overEl
                       lastOverEl := if ring then some (elNs s) else p.lastOverEl }
    let s1 := bumpBy (pulseCnt k 0x28) ovr (setPulse k p1 s)
    let s2 := if ow = 2 ^ 32 - 1 then { s1 with eq := { s1.eq with satsumPls := s1.eq.satsumPls ||| (1#32 <<< k) } } else s1
    raiseIf ring 0x0B02 2 (BitVec.ofNat 8 k :: leBytes 4 ow) none s2

/-- Registers and pulse outputs of a metering point add the whole units of a cycle; a register configured since its start takes none. -/
def distribute (m t1 startEl endEl : Nat) (l : List (Nat × Nat)) (s : State) : State :=
  let of (q : Nat) : Nat := (l.filter (fun x => decide (x.1 = q))).foldl (fun a x => a + x.2) 0
  let s1 := s.eq.regs.foldl (fun t e => if e.2.mp = m ∧ e.2.enable ∧ e.2.cfgEl ≤ startEl then regAdd e.1 (of e.2.quantity) t1 t else t) s
  (List.range 32).foldl (fun t k => let p := getPulse t k; if p.mp = m then pulseAdd k (of p.quantity) startEl endEl t else t) s1

/-! ### Energy images (R302, R303) -/

/-- The image of the energy state, at an instant. -/
def imageOf (ts : Nat) (seq : U32) (ok : Bool) (s : State) : EnergyImg :=
  { seq, ts, acc := tmap (fun _ v => v.acc) s.eq.mps, frac := tmap (fun _ v => v.frac) s.eq.mps, sRef := tmap (fun _ v => v.sRef) s.eq.mps
    regs := tmap (fun _ r => (r.value, r.residual, r.rollovers, r.gap)) s.eq.regs, glog := s.eq.glog, nextG := s.eq.nextG, crcOk := ok }

/-- Put an image back (R304). -/
def restoreImage (g : EnergyImg) (s : State) : State :=
  let mps := (List.range 16).foldl (fun t m =>
    match tget g.acc m with
    | some a => tset t m { tgetD t m EqMp.init with acc := a, frac := tgetD g.frac m [], sRef := tgetD g.sRef m qZero }
    | none => t) s.eq.mps
  let regs := g.regs.foldl (fun t e => tmod t e.1 (fun r => { r with value := e.2.1, residual := e.2.2.1, rollovers := e.2.2.2.1, gap := e.2.2.2.2 })) s.eq.regs
  { s with eq := { s.eq with mps, regs, glog := g.glog, nextG := g.nextG } }

/-- At a save the S values of two intervals move on (R305). -/
def rollSRef (v : EqMp) : EqMp := { v with sRef := qmax v.sPrev v.sMax, sPrev := v.sMax, sMax := qZero }

/-- Write a save to the slot that is next (R302): it verifies later. -/
def writeSave (ts : Nat) (s : State) : State :=
  let seq := s.eq.saveSeq + 1
  let s1 := { s with eq := { s.eq with mps := tmap (fun _ v => rollSRef v) s.eq.mps } }
  let g := imageOf ts seq false s1
  let b := s1.eq.nextB
  let s2 := eraseSectors 6 [if b then 0x141 else 0x140]
    { s1 with eq := { s1.eq with saveSeq := seq, lastSaveTs := ts, lastSaveEl := elNs s1, saveSoon := false, saving := some b
                                 slotA := if b then s1.eq.slotA else some g, slotB := if b then some g else s1.eq.slotB } }
  s2

/-- A save has verified (R302). -/
def verifySave (s : State) : State :=
  match s.eq.saving with
  | none => s
  | some b =>
    let ok (g : Option EnergyImg) : Option EnergyImg := g.map (fun x => { x with crcOk := true })
    bump 0x0B000100 { s with eq := { s.eq with saving := none, nextB := !b
                                               slotA := if b then s.eq.slotA else ok s.eq.slotA
                                               slotB := if b then ok s.eq.slotB else s.eq.slotB } }

/-! ### Quality events (11.6) -/

/-- The oldest completed entry of the quality log. -/
def oldestDone (t : Tbl QEntry) (next : U32) : Option Nat :=
  (t.foldl (fun best e =>
    if e.2.isOpen then best else match best with
      | none => some e
      | some b => if (next - b.2.seq).toNat < (next - e.2.seq).toNat then some e else best) none).map (·.1)

/-- An extreme as a root, to 2^-32 of Udin. -/
def rootOf (x : Scale) : Scale := qmk (qsqrtFloor x (2 ^ 32)) (2 ^ 32)

def qAlarm (m : Nat) (k : QKind) : Nat := 0x3000 + 4 * m + k.num

/-- What an event brings to the stage (R301): its start is the evidence, and the bound is half a period and 200 µs. -/
def qInfo (m : Nat) (k : QKind) (ts half : Nat) (x : Scale) : AlmInfo :=
  { num := qAlarm m k, tag := ts, ev := ts, value := f32ofQ (qmul (qNat 100) (rootOf x)), bound := 0, predicted := false, sagBound := some (half + 200000) }

/-- Change the open entry of a kind. -/
def qMod (m : Nat) (k : QKind) (f : QEntry → QEntry) (s : State) : State :=
  match tget (getEq s m).qOpen k.num with
  | some q => { s with eq := { s.eq with qlog := tmod s.eq.qlog q f } }
  | none => s

/-- An event starts (R301). -/
def qStart (m : Nat) (k : QKind) (ts half ph : Nat) (x : Scale) (nom : Bool) (s : State) : State :=
  let seq := s.eq.nextQ
  let e : QEntry := { seq, mp := m, kind := k, isOpen := true, gaNominal := nom, dataLost := false, containsInt := false, phase := ph, start := ts
                      end_ := 0, extreme := x, invalidSince := none }
  let t := if s.eq.qlog.length < 1024 then s.eq.qlog else match oldestDone s.eq.qlog seq with
    | some o => tdel s.eq.qlog o
    | none => s.eq.qlog
  let s1 := bumpIf (decide (1024 ≤ s.eq.qlog.length)) 0x0B000128 s
  let s2 := { s1 with eq := { s1.eq with qlog := tset t seq.toNat e, nextQ := seq + 1 } }
  let s3 := modEq m (fun v => { v with qOpen := tset v.qOpen k.num seq.toNat }) s2
  let s4 := bump (eqCnt m (0xD0 + 8 * k.num)) (if k = .interruption then qMod m .sag (fun x => { x with containsInt := true }) s3 else s3)
  raise 0x0B04 2 ([BitVec.ofNat 8 m, BitVec.ofNat 8 k.num] ++ leBytes 4 seq.toNat ++ leBytes 8 ts) none (stageRaise (qInfo m k ts half x) s4)

/-- An event ends (R300, R301). -/
def qEnd (m : Nat) (k : QKind) (ts half : Nat) (lost : Bool) (s : State) : State :=
  match (tget (getEq s m).qOpen k.num).bind (fun q => tget s.eq.qlog q) with
  | none => s
  | some e =>
    let s1 := { s with eq := { s.eq with qlog := tset s.eq.qlog e.seq.toNat { e with isOpen := false, end_ := ts, dataLost := lost } } }
    let s2 := modEq m (fun v => { v with qOpen := tdel v.qOpen k.num }) s1
    raise 0x0B05 1 ([BitVec.ofNat 8 m, BitVec.ofNat 8 k.num] ++ leBytes 4 e.seq.toNat ++ leBytes 4 ((ts - e.start) / 1000) ++
      leBytes 2 (min (qround (qmul (qNat 10000) (rootOf e.extreme))).toNat 65535)) none
      (stageClear (qInfo m k ts half e.extreme) s2)

/-- The flag of GA-NOMINAL joins an entry, an interruption joins a sag, and the extreme moves. -/
def qTrack (k : QKind) (vals : List (Nat × Scale)) (nom : Bool) (e : QEntry) : QEntry :=
  let better (a b : Scale) : Bool := if k = .swell then qlt b a else qlt a b
  let e1 := { e with gaNominal := e.gaNominal || nom, invalidSince := none }
  vals.foldl (fun x (ph, v) => if better v x.extreme then { x with extreme := v, phase := ph } else x) e1

/-- Start and end rules of Table 11.3 on the valid channel values, as mean squares over Udin². -/
def qStarts (v : EqMp) (k : QKind) (vals : List (Nat × Scale)) : Bool :=
  let lim (x : Nat) : Scale := qmk ((x * x : Nat) : Int) 1000000
  match k with
  | .sag => vals.any (fun x => qlt x.2 (lim v.sagThr))
  | .swell => vals.any (fun x => qlt (lim v.swellThr) x.2)
  | .interruption => decide (vals.length = 3) && vals.all (fun x => qlt x.2 (lim v.intThr))

def qEnds (v : EqMp) (k : QKind) (vals : List (Nat × Scale)) : Bool :=
  let lim (x : Nat) : Scale := qmk ((x * x : Nat) : Int) 1000000
  match k with
  | .sag => vals.all (fun x => qle (lim (v.sagThr + v.hyst)) x.2)
  | .swell => vals.all (fun x => qle x.2 (lim (v.swellThr - v.hyst)))
  | .interruption => vals.any (fun x => qle (lim (v.intThr + v.hyst)) x.2)

/-- The extreme an event starts with: the lowest or the highest value. -/
def qFirst (k : QKind) (vals : List (Nat × Scale)) : Nat × Scale :=
  match vals with
  | [] => (0, qZero)
  | a :: t => t.foldl (fun b x => if (if k = .swell then qlt b.2 x.2 else qlt x.2 b.2) then x else b) a

/-- One kind judged on one interval (R300). -/
def qJudge (m ts half : Nat) (nom : Bool) (vals : List (Nat × Scale)) (s : State) (k : QKind) : State :=
  let v := getEq s m
  let isOpen := (tget v.qOpen k.num).isSome
  if vals = [] then
    let s1 := qMod m k (fun e => { e with invalidSince := some (e.invalidSince.getD ts) }) s
    match (tget v.qOpen k.num).bind (fun q => tget s1.eq.qlog q) with
    | some e =>
      (match e.invalidSince with
       | some t0 => if t0 + 1000000000 ≤ ts + half then qEnd m k t0 half true s1 else s1
       | none => s1)
    | none => s1
  else if isOpen then
    if qEnds v k vals then qEnd m k ts half false s else qMod m k (qTrack k vals nom) s
  else if qStarts v k vals then
    let (ph, x) := qFirst k vals
    qStart m k ts half ph x nom s
  else s

end Sys2Proof.Machine
end

