-- ==== Sys2Proof/Machine/GaOps.lean ====
section
/-!
DEFINITION. The grid-angle clock (3.6 of 03_timebase.md) and the path of its reference's samples (10.9 of 10_metrology_frontend.md).
-/

namespace Sys2Proof.Machine

/-- f_nom of the grid-angle clock, µHz. -/
def gaNomUhz (c : ClkBlk) : Nat := if c.gaFNom60 then 60000000 else 50000000

/-- Enter NOMINAL: the phase is kept (R95). -/
def gaToNominal (cause : Nat) (s : State) : State :=
  let c := s.clk
  let s1 := bumpIf (decide (c.gaState ≠ .nominal)) 0x03000130
    { s with clk := { c with gaState := .nominal, gaFreq := gaNomUhz c, gaPhaseErr := 0, gaRun := 0, gaLow := 0, gaErr := 0
                             gaCycHeld := false, gaLowHeld := false, gaErrHeld := false } }
  raise 0x030C 2 [BitVec.ofNat 8 c.gaRefMp, BitVec.ofNat 8 cause] none s1

/-- The reference's three voltages are settled (R282). -/
def gaSettled (s : State) : Bool :=
  let m := s.clk.gaRefMp
  decide ((getMp s m).state ≠ .off) && ((inputsOf m).take 3).all (fun n => !inUnsettled s (getInput s n))

/-- f lies within f_nom ± 10 %. -/
def gaInRange (c : ClkBlk) (f : Nat) : Bool := decide (9 * gaNomUhz c ≤ 10 * f ∧ 10 * f ≤ 11 * gaNomUhz c)

/-! ### The oscillator -/

/-- What the oscillator adds to or takes from its frequency to close the phase error (R96): |s| in units of 1/65,536,000, at most ga_slew,
and no more than closes the error within a cycle. -/
def gaSlewOf (c : ClkBlk) : Nat := min (c.gaSlew * 65536) (c.gaPhaseErr.natAbs * 1000)

/-- Period of the oscillator, ns: 256 ticks to a cycle, of f_nom in NOMINAL (R95), of ga_freq × (1 + s) in ACQUIRING (R96), and in LOCKED of
what the loop makes of ga_freq and the phase error, where the rules give typical values only (R282: a free value). A positive phase error is
of an oscillator ahead of its reference, which then runs slower (DESIGN CHOICE, log entry 45). -/
def gaPeriod (c : ClkBlk) : Nat :=
  match c.gaState with
  | .nominal => 10 ^ 15 / (256 * gaNomUhz c)
  | .acquiring => 10 ^ 15 * 65536000 / (256 * max 1 c.gaFreq * (if 0 < c.gaPhaseErr then 65536000 - gaSlewOf c else 65536000 + gaSlewOf c))
  | .locked => 10 ^ 15 / (256 * max 1 (Config.gaOsc c.gaFreq c.gaPhaseErr))

/-- The oscillator's angle at an elapsed instant near its last tick, in 2^-16 turn: 256 to a tick. -/
def gaAngle (c : ClkBlk) (el : Nat) : Int :=
  ((c.gaCount.toNat % 256 * 256 : Nat) : Int) + ((el : Int) - c.gaLastEl) * 256 / (max 1 (gaPeriod c) : Nat)

/-- A tick is due a period after the one before it (R92, R93, R95), and never with it. -/
def gaDue (s : State) : Bool := decide (s.clk.gaLastEl + max 1 (gaPeriod s.clk) ≤ elNs s)

/-! ### The reference's samples (R93 to R96, R282) -/

/-- √3 to 2^-80. -/
def sqrt3 : Scale := qmk (isqrt (3 * fx * fx)) fx

/-- vα and vβ of three voltages (R282). -/
def alphaBeta (a b c : Scale) : Scale × Scale :=
  (qdiv (qsub (qsub (qmul (qNat 2) a) b) c) (qNat 3), qdiv (qsub b c) sqrt3)

/-- An angle in 2^-16 turn brought to −2^15 to 2^15 − 1. -/
def wrap16 (x : Int) : Int := (BitVec.ofInt 16 x).toInt

/-- A condition counted in whole spans (R94, R95): whether it has held since the span began, and its run of consecutive spans, after a sample
that shows `ok`; `ends` says that a span has ended since the sample before. -/
def spanRun (held : Bool) (run : Nat) (ends ok : Bool) : Bool × Nat :=
  let h := held || ends
  let r := if ends then (if held then run + 1 else 0) else run
  (h && ok, if ok then r else 0)

/-- The reference fails: a sample of it is UNSETTLED or MISSING (R95, R282). -/
def gaFail (s : State) : State :=
  if s.clk.gaState = .nominal then { s with clk := { s.clk with gaRun := 0, gaCycHeld := false } } else gaToNominal 3 s

/-- A sample of the reference: what it shows of V², of the frequency (µHz) and of the phase error (2^-8 tick), with Udin² (Table 3.5, R95).
The phase condition of R95 holds for LOCKED, since ACQUIRING closes an error of up to 128 ticks (R96, log entry 45). -/
def gaObserve (f : Nat) (ph : Int) (v2 u2 : Scale) (s0 : State) : State :=
  let c0 := s0.clk
  let half := decide (c0.gaCount.toNat / 128 ≠ c0.gaHalfNo)
  let cycle := decide (c0.gaCount.toNat / 256 ≠ c0.gaHalfNo / 2)
  let s := { s0 with clk := { c0 with gaMeas := f, gaHalfNo := c0.gaCount.toNat / 128 } }
  let c := s.clk
  match c.gaState with
  | .nominal =>
    let (held, run) := spanRun c.gaCycHeld c.gaRun cycle (gaInRange c f && qle (qmul (qNat 225) u2) (qmul (qNat 10000) v2))
    if 10 ≤ run then
      { s with clk := { c with gaState := .acquiring, gaRun := 0, gaCycHeld := true, gaLow := 0, gaErr := 0, gaLowHeld := true, gaErrHeld := true
                               gaFreq := f, gaPhaseErr := ph } }
    else { s with clk := { c with gaRun := run, gaCycHeld := held } }
  | st =>
    let (lowHeld, low) := spanRun c.gaLowHeld c.gaLow half (qlt (qmul (qNat 100) v2) u2)
    let (errHeld, err) := spanRun c.gaErrHeld c.gaErr half (decide (2048 < ph.natAbs ∧ st ≠ .acquiring))
    if gaInRange c f = false then gaToNominal 1 s
    else if 2 ≤ low then gaToNominal 0 s
    else if 4 ≤ err then gaToNominal 2 s
    else
      let (held, run) := spanRun c.gaCycHeld c.gaRun cycle (decide (ph.natAbs < 256))
      let s1 := { s with clk := { c with gaFreq := f, gaPhaseErr := ph, gaLow := low, gaErr := err, gaLowHeld := lowHeld, gaErrHeld := errHeld
                                         gaRun := run, gaCycHeld := held } }
      if st = .acquiring ∧ 10 ≤ run then
        raise 0x030D 0 (BitVec.ofNat 8 c.gaRefMp :: leBytes 4 f) none { s1 with clk := { s1.clk with gaState := .locked, gaRun := 0 } }
      else s1

/-- A row of a metering point reaches the grid-angle oscillator where it is the reference (R93, R282). The positive-sequence voltage rises
through zero a quarter turn after vα + jvβ has argument −π/2, and its RMS value is |vα + jvβ| / √2. The tracked frequency is a free value of
the loop (log entry 45). -/
def gaSample (m : Nat) (row : SgRow) (s : State) : State :=
  let c := s.clk
  if c.gaRefEn = false ∨ c.gaRefMp ≠ m then s
  else if (List.range 3).any (fun r => lget row.missing r false || lget row.unsettled r false) then gaFail s
  else
    let (al, be) := alphaBeta (primary s m 0 row) (primary s m 1 row) (primary s m 2 row)
    let ref := (angUnits (atan2Q be al)).toInt + 16384
    let ph := wrap16 (gaAngle c row.el - ref)
    let f := Config.gaTrack c.gaMeas ph (wrap16 (ref - c.gaRefAng)) (rateHz (getMp s m))
    gaObserve f ph (qdiv (qadd (qmul al al) (qmul be be)) (qNat 2)) (qmul (udin s m) (udin s m))
      { s with clk := { c with gaRefAng := wrap16 ref } }

end Sys2Proof.Machine
end

