-- ==== Sys2Proof/Machine/Sage.lean ====
section
/-!
DEFINITION. The commands and events of the Sage front end (group 0x0A, 10_metrology_frontend.md), and sampled-value frames, which feed its
estimation (R149).
-/

namespace Sys2Proof.Machine

/-! ### Configuration -/

/-- SAGE_CLOCK_CONFIG (R258, R261, R272, R295). -/
def execSageClockConfig (h : Hdr) (p : SageClockConfigP) (s : State) : Out :=
  let f8 := decide (p.fMod = 1)
  .next (vci (cmd 0x0A01 .control false 4) h
    (fun t => decide (p.fMod.toNat < 2 ∧ p.clkEn.toNat < 64 ∧ p.rsv = 0) &&
      t.sage.mps.all (fun e => !e.2.enable || mOk (if f8 then 8192000 else 4096000) e.2))
    (fun t =>
      let change := t.sage.fMod8 != f8
      if change ∧ t.eq.sealed ≠ 0 then refuse .isSealed t
      else
        let t1 := storeConfig { t with sage := { t.sage with fMod8 := f8, clkEn := p.clkEn.setWidth 6 } }
        stored 8 t (done (if change then t1.sage.mps.foldl (fun u e => if e.2.enable then chainRestart e.1 .config u else u) t1 else t1))) s)

/-- The settings a SAGE-CHAIN-CONFIG gives. -/
def chainSettings (p : SageChainConfigP) (v : SgMp) : SgMp :=
  { v with enable := decide (p.enable = 1), fNom60 := decide (p.fNom = 1), rate := p.rate.toNat, cicN := p.cicN.toNat, firDec := p.firDec.toNat
           fadeK := p.fadeK.toNat, firLen := p.firLen.toNat, dcShift := p.dcShift.toNat, acqCycles := p.acqCycles.toNat }

/-- Ranges of SAGE-CHAIN-CONFIG (Table 10.11, R261, R272). -/
def chainOk (p : SageChainConfigP) (t : State) : Bool :=
  let v := getMp t p.mp.toNat
  let w := chainSettings p v
  decide (p.mp.toNat < 16 ∧ p.enable.toNat < 2 ∧ p.fNom.toNat < 2 ∧ p.rate.toNat < 3 ∧ 3 ≤ p.cicN.toNat ∧ p.cicN.toNat ≤ 5 ∧
    p.firDec.toNat < 3 ∧ 4 ≤ p.fadeK.toNat ∧ p.fadeK.toNat ≤ 10 ∧ 15 ≤ p.firLen.toNat ∧ p.firLen.toNat ≤ 127 ∧ p.firLen.toNat % 2 = 1) &&
  decide (12 ≤ p.dcShift.toNat ∧ p.dcShift.toNat ≤ 22 ∧ 4 ≤ p.acqCycles.toNat ∧ p.acqCycles.toNat ≤ 24 ∧ p.rsv = 0) &&
  (!w.enable || (mOk (fModHz t) w && decide (activeLen v = w.firLen))) && (!v.enable || decide (v.firLen = w.firLen))

/-- A setting changes that restarts the chain (R272). -/
def chainChanged (v w : SgMp) : Bool :=
  decide (v.rate ≠ w.rate ∨ v.cicN ≠ w.cicN ∨ v.firDec ≠ w.firDec ∨ v.fNom60 ≠ w.fNom60 ∨ v.dcShift ≠ w.dcShift ∨ v.acqCycles ≠ w.acqCycles)

/-- SAGE_CHAIN_CONFIG (R272, Table 10.4). -/
def execSageChainConfig (h : Hdr) (p : SageChainConfigP) (s : State) : Out :=
  let m := p.mp.toNat
  .next (vci (cmd 0x0A02 .control false 12) h (chainOk p)
    (fun t =>
      let v := getMp t m
      let w := chainSettings p v
      if isSealedMp t m ∧ w ≠ v then refuse .isSealed t
      else
        let t1 := storeConfig (setMp m w t)
        stored 8 t (done (if w.enable then (if v.enable = false ∨ chainChanged v w then chainRestart m .config t1 else t1)
                          else if v.enable then chainOff m t1 else t1))) s)

/-- A coefficient of 24 bits sign-extended in 32 (R263). -/
def coefOk (c : U32) : Bool := decide (-(2 ^ 23) ≤ c.toInt ∧ c.toInt < 2 ^ 23)

/-- SAGE_FIR_LOAD (R263, R295): in OFF neither bank is in use (log entry 41). -/
def execSageFirLoad (h : Hdr) (p : SageFirLoadP) (s : State) : Out :=
  let m := p.mp.toNat
  let b := decide (p.bank = 1)
  .next (vci (cmd 0x0A03 .control false (4 + 4 * ((p.len.toNat + 1) / 2))) h
    (fun t => decide (p.mp.toNat < 16 ∧ p.bank.toNat < 2 ∧ p.rsv = 0 ∧ p.len.toNat = (getMp t m).firLen ∧ p.coeff.length = (p.len.toNat + 1) / 2) &&
      p.coeff.all coefOk)
    (fun t =>
      let v := getMp t m
      let c := p.coeff.map (fun x => x.toInt)
      let w := if b then { v with coefB := c, lenB := p.len.toNat } else { v with coefA := c, lenA := p.len.toNat }
      if isSealedMp t m ∧ w ≠ v then refuse .isSealed t
      else if v.state = .fading ∨ (v.state ≠ .off ∧ v.bankB = b) then refuse .busy t
      else stored 8 t (done (storeConfig (setMp m w t)))) s)

/-- SAGE_FIR_SWITCH (R264): to a bank of length fir_len. -/
def execSageFirSwitch (h : Hdr) (p : SageFirSwitchP) (s : State) : Out :=
  let m := p.mp.toNat
  .next (vci (cmd 0x0A04 .control false 4) h
    (fun t => let v := getMp t m
      decide (p.mp.toNat < 16 ∧ p.bank.toNat < 2 ∧ p.rsv = 0 ∧ decide (p.bank = 1) ≠ v.bankB ∧ (if v.bankB then v.lenA else v.lenB) = v.firLen))
    (fun t =>
      let v := getMp t m
      if isSealedMp t m then refuse .isSealed t
      else if v.state = .off ∨ v.state = .fading then refuse .busy t
      else
        let t1 := raise 0x0A09 1 ([BitVec.ofNat 8 m, BitVec.ofNat 8 p.bank.toNat] ++ leBytes 8 v.next) none
          (bump (mpCnt m 0x88) t)
        if v.state = .settling then stored 8 t (done (storeConfig (modMp m (fun x => { x with bankB := !x.bankB }) t1)))
        else
          let u := taiNs t + fadeF v * periodOf v
          let t2 := (inputsOf m).foldl (fun x n => unsettle n u .bankSwitch x) (beginSupp m v.next .bankSwitch false t1)
          stored 8 t (done (storeConfig (modMp m (fun x => { x with state := .fading, fadePos := 0, fadeStart := u }) t2)))) s)

/-- The inputs a role mask names. -/
def roleInputs (m mask : Nat) : List Nat := (inputsOf m).filter (fun n => decide (mask / 2 ^ (n % 6) % 2 = 1))

/-- Reserved bits and ranges of SAGE-DC. -/
def dcOk (p : SageDcP) : Bool := decide (p.mp.toNat < 16 ∧ p.inputs.toNat < 64 ∧ p.rsv = 0)

/-- A freeze of one input (Table 10.3). -/
def freezeInput (n : Nat) (s : State) : State :=
  match (getInput s n).dc with
  | .acquire => modInput n (fun i => { i with freezeReq := true }) s
  | .track => raise 0x0A0A 0 [BitVec.ofNat 8 n, 2] none (modInput n (fun i => { i with dc := .frozen }) s)
  | .frozen => s

/-- A release of one input (Table 10.3): UNSETTLED for its span. -/
def releaseInput (m n : Nat) (s : State) : State :=
  let v := getMp s m
  match (getInput s n).dc with
  | .acquire => modInput n (fun i => { i with freezeReq := false }) s
  | .track => s
  | .frozen =>
    let s1 := raise 0x0A0A 0 [BitVec.ofNat 8 n, 1] none (modInput n (fun i => { i with dc := .track }) s)
    settleFrom m v.next .dcRelease (unsettle n (taiNs s + dcSpan v * periodOf v) .dcRelease s1)

/-- SAGE_DC_FREEZE (R266, R267). -/
def execSageDcFreeze (h : Hdr) (p : SageDcP) (s : State) : Out :=
  .next (vci (cmd 0x0A05 .control false 4) h (fun _ => dcOk p)
    (fun t => done ((roleInputs p.mp.toNat p.inputs.toNat).foldl (fun u n => freezeInput n u) t)) s)

/-- SAGE_DC_RELEASE (R266, R267). -/
def execSageDcRelease (h : Hdr) (p : SageDcP) (s : State) : Out :=
  .next (vci (cmd 0x0A05 .control false 4) h (fun _ => dcOk p)
    (fun t => done ((roleInputs p.mp.toNat p.inputs.toNat).foldl (fun u n => releaseInput p.mp.toNat n u) t)) s)

/-- Every |cal_delay + τ_j| is at most 20,000 ns (R269). -/
def delaysOk (calDelay : Int) (table : List (Int × Int)) : Bool :=
  decide (calDelay.natAbs ≤ 5120000) && table.all (fun x => decide ((calDelay + x.2).natAbs ≤ 5120000))

/-- A binary32 that is finite and positive. -/
def posFinite (w : U32) : Bool := match f32toQ w with
  | some x => decide (0 < x.num)
  | none => false

/-- SAGE_CAL (R268, R269). -/
def execSageCal (h : Hdr) (p : SageCalP) (s : State) : Out :=
  let n := p.input.toNat
  .next (vci (cmd 0x0A06 .control false 16) h
    (fun t => decide (p.input.toNat < 96 ∧ p.rsv = 0) && posFinite p.scale &&
      (let tb := (getInput t n).table
       if tb = [] then delaysOk p.calDelay.toInt [] else tb.all (fun x => decide ((p.calDelay.toInt + x.2).natAbs ≤ 5120000))))
    (fun t =>
      let i := getInput t n
      let j := { i with scale := p.scale, calGain := p.calGain.toInt, calDelay := p.calDelay.toInt }
      if isSealedMp t (n / 6) ∧ j ≠ i then refuse .isSealed t else stored 8 t (done (storeConfig (setInput n j t)))) s)

/-- SAGE_TEMP_TABLE (R268, R269). -/
def execSageTempTable (h : Hdr) (p : SageTempTableP) (s : State) : Out :=
  let n := p.input.toNat
  let tb := p.points.map (fun x => (x.1.toInt, x.2.toInt))
  .next (vci (cmd 0x0A07 .control false 268) h
    (fun t => decide (p.input.toNat < 96 ∧ p.rsv = 0 ∧ p.points.length = 33) &&
      tb.all (fun x => decide (((getInput t n).calDelay + x.2).natAbs ≤ 5120000)))
    (fun t =>
      let i := getInput t n
      let old := if i.table = [] then List.replicate 33 (0, 0) else i.table
      if isSealedMp t (n / 6) ∧ old ≠ tb then refuse .isSealed t else stored 9 t (done (storeTables (setInput n { i with table := tb } t)))) s)

/-- Ranges of SAGE-TEMP-SOURCE (Table 10.11). -/
def tempSourceOk (p : SageTempSourceP) (t : State) : Bool :=
  decide (p.input.toNat < 96 ∧ p.tempSrc.toNat < 4 ∧ 1 ≤ p.staleS.toNat ∧ p.staleS.toNat ≤ 3600 ∧ -4000 ≤ p.tempDefault.toInt ∧
    p.tempDefault.toInt ≤ 12000 ∧ p.rsv = 0) &&
  (match p.tempSrc.toNat with
   | 2 => (chanDesc t p.tempId.toNat).any (fun d => decide (d.kind = 5))
   | 3 => decide (p.tempId.toNat < 16384)
   | _ => decide (p.tempId = 0))

/-- SAGE_TEMP_SOURCE (R270, R271): another source has given no reading yet. -/
def execSageTempSource (h : Hdr) (p : SageTempSourceP) (s : State) : Out :=
  let n := p.input.toNat
  .next (vci (cmd 0x0A08 .control false 12) h (tempSourceOk p)
    (fun t =>
      let i := getInput t n
      let src := p.tempSrc.toNat
      let j := { i with tempSrc := src, tempId := p.tempId.toNat, staleS := p.staleS.toNat, tempDefault := p.tempDefault.toInt }
      let same := decide (i.tempSrc = src ∧ i.tempId = p.tempId.toNat) && i.tempRead
      let stale := if src = 0 then false else if same then decide (i.tempTs + p.staleS.toNat * 1000000000 < taiNs t) else true
      let k := if same ∧ src ≠ 0 then { j with tempStale := stale }
               else { j with tempRead := false, tempApplied := p.tempDefault.toInt, tempTs := 0, tempOut := false, tempStale := stale }
      let t1 := storeConfig (setInput n k t)
      let t2 := raiseIf (stale && !i.tempStale) 0x0A06 1 (BitVec.ofNat 8 n :: leBytes 8 k.tempTs) none t1
      stored 8 t (done (raiseIf (i.tempStale && !stale) 0x0A07 0 (BitVec.ofNat 8 n :: leInt 2 k.tempApplied) none t2))) s)

/-- SAGE_TEMP (R270): readings taken at the doorbell's instant. -/
def execSageTemp (h : Hdr) (p : SageTempP) (s : State) : Out :=
  .next (vci (cmd 0x0A09 .control false (4 + 4 * p.n.toNat)) h
    (fun t => decide (1 ≤ p.n.toNat ∧ p.n.toNat ≤ 96 ∧ p.rsv = 0 ∧ p.entries.length = p.n.toNat) &&
      p.entries.all (fun e => decide (e.input.toNat < 96 ∧ e.rsv = 0 ∧ (getInput t e.input.toNat).tempSrc = 1)))
    (fun t => done (p.entries.foldl (fun u e => applyTemp e.input.toNat e.temp.toInt false (taiNs t) u) t)) s)

/-! ### Local streams (10.8) -/

/-- A reporting rate that divides 200, 120, 100, 60 or 50. -/
def pmuRateOk (r : Nat) : Bool := decide (0 < r) && [200, 120, 100, 60, 50].any (fun x => decide (x % r = 0)) && (gridOfRate r).isSome

/-- SAGE_PMU_ADD (R278, R284): one local stream for each metering point. -/
def execSagePmuAdd (h : Hdr) (p : SagePmuP) (s : State) : Out :=
  let m := p.mp.toNat
  .next (vci (cmd 0x0A0A .openC false 12) h
    (fun _ => decide (p.mp.toNat < 16 ∧ p.window.toNat < 3 ∧ p.level.toNat < 8 ∧ p.rsv = 0 ∧ p.handle = 0) && pmuRateOk p.rate.toNat)
    (fun t =>
      if (getMp t m).pmu.isSome then refuse .busy t
      else match addRefusal h.part 10 t, allocChans t 10, tfreeFrom t.ing.streams 262144 0 with
        | none, some base, some n =>
          let key : StreamKey := { transport := 4, idcode := BitVec.ofNat 16 m, srcAddr := 0, srcPort := 0, dstPort := 0 }
          let v := { newStream key 0 p.level.toNat 10 base p.rate.toNat false h.part (elNs t) with state := .active, descs := estDescs 4 4 }
          match enterDir n v t with
          | none => refuse .busy (beginRebuild t)
          | some t1 =>
            let t2 := oscResetStream n (placeNew 0 n (syncGrid n t1))
            let r := p.rate.toNat
            doneWith (leBytes 4 n ++ leBytes 4 base)
              (modMp m (fun x => { x with pmu := some n, pmuWindow := p.window.toNat, pmuRate := r, pmuNext := gridIndex r (taiNs t) + 1 }) t2)
        | _, _, _ => refuse .noResource t) s)

/-- SAGE_PMU_RETIRE (R154, R155, R284). -/
def execSagePmuRetire (h : Hdr) (p : SagePmuP) (s : State) : Out :=
  let n := p.handle.toNat
  .next (vci (cmdLong 0x0A0A .openC false 12) h
    (fun t => decide (p.mp = 0 ∧ p.rsv = 0) && streamNameable h n t && tany (fun _ m => decide (m.pmu = some n)) t.sage.mps)
    (fun t =>
      match getStream t n with
      | none => refuse .badParam t
      | some v =>
        if v.state = .retiring ∨ streamNamed t n v then refuse .busy t
        else
          let (id, t1) := startLong h 0x0A0A 5000 t
          ⟨.accepted, [], beginRetire n (some id) t1⟩) s)

/-- SAGE_PMU_SV_WINDOW (R281). -/
def execSagePmuSvWindow (h : Hdr) (p : SagePmuP) (s : State) : Out :=
  .next (vci (cmd 0x0A0A .openC false 12) h
    (fun _ => decide (p.mp = 0 ∧ p.window.toNat < 3 ∧ p.rsv = 0 ∧ p.handle = 0))
    (fun t => stored 8 t (done (storeConfig { t with sage := { t.sage with svWindow := p.window.toNat } }))) s)

/-! ### Samples -/

/-- The billing path may take a sample at an instant: not across t_f (R303), nor under a broken seal (R296). -/
def billable (s : State) (m stamp : Nat) : Bool :=
  !(getEq s m).sealBroken &&
  (match s.eq.tf, s.eq.resume with
   | some t, some r => decide (stamp < t ∨ r ≤ stamp)
   | some t, none => decide (stamp < t)
   | none, _ => true)

/-- What the first counted sample closes (R296, R462). -/
def countedFirst (m stamp el : Nat) (s : State) : State :=
  if gapOpen s m = false then s
  else
    let s1 := closeGaps m (fun g => decide (g.kind = .sealCheck)) stamp false s
    if s.eq.stepped ∨ s.eq.startTimeout then
      modEq m (fun e => { e with bootEl := el }) (closeGaps m (fun _ => true) stamp (!s.eq.stepped) s1)
    else modEq m (fun e => { e with bootEl := el }) s1

/-- Count the clamped samples of a row (R262): SAGE-OVERLOAD at most once per second per input. -/
def countOverloads : List (Nat × Bool) → State → State
  | [], s => s
  | (n, o) :: t, s =>
    if o = false then countOverloads t s
    else
      let s1 := bump (inputCnt n 0x40) s
      if secondSince s (getInput s n).ovlEl then
        countOverloads t (raise 0x0A05 2 (BitVec.ofNat 8 n :: leBytes 8 (cntGet s1 (inputCnt n 0x40))) none
          (modInput n (fun i => { i with ovlEl := some (elNs s) }) s1))
      else countOverloads t s1

/-- A row of a metering point that is running its chain. -/
def deliverRow (m : Nat) (bits : List (List Bool)) (s : State) : State :=
  let v := getMp s m
  let stamp := v.next
  let el := elNs s - (taiNs s - stamp)
  let outs := (List.range 6).map (fun r =>
    let n := 6 * m + r
    let i0 := getInput s n
    let (x, i, o) := chainSample s v i0 (lget bits r [])
    (n, i0, x, if r < 3 then tapRun s (el + groupDelay s v) (lget bits r []) i else i, o))
  let miss := outs.map (fun (_, i0, _, _, _) => missingAt i0 stamp)
  let uns := outs.map (fun (_, i0, _, _, _) => unsettledAt i0 stamp)
  let counted := billable s m stamp && uns.all (fun u => !u) && miss.all (fun u => !u)
  let row : SgRow := { stamp, el, vals := outs.map (fun (_, i0, x, _, _) => if missingAt i0 stamp then 0 else x), missing := miss
                       unsettled := uns, stale := outs.map (fun (_, i0, _, _, _) => i0.tempStale), counted }
  let s1 := outs.foldl (fun t (n, _, _, i, _) => setInput n i t) s
  let s2 := countOverloads (outs.map (fun (n, _, _, _, o) => (n, o))) s1
  let s3 := modMp m (fun x => { x with hist := (row :: x.hist).take 8192, next := x.next + periodOf v
                                       fadePos := if x.state = .fading then x.fadePos + 1 else 0 }) s2
  let s4 := modEq m (fun e => { e with counting := counted }) s3
  gaSample m row (if counted then countedFirst m stamp el s4 else bump (mpCnt m 0x90) s4)

/-- A row of a metering point in OFF: words with MISSING set (R274). -/
def offRow (m : Nat) (s : State) : State :=
  let v := getMp s m
  let stamp := latticeBefore (periodOf v) (taiNs s - groupDelay s v + 1)
  let new := match v.hist with
    | [] => true
    | r :: _ => decide (r.stamp < stamp)
  if new then
    let row : SgRow := { stamp, el := elNs s - (taiNs s - stamp), vals := List.replicate 6 0, missing := List.replicate 6 true
                         unsettled := List.replicate 6 true, stale := List.replicate 6 false, counted := false }
    gaSample m row (modEq m (fun e => { e with counting := false }) (setMp m { v with hist := (row :: v.hist).take 8192, next := stamp + periodOf v } s))
  else s

/-- The modulator's bits of a sample: M × D_f of each input since the sample a period before, where that one was delivered (R261). After a
restart or a move of the lattice the first sample takes as many as came. -/
def bitsOk (s : State) (v : SgMp) (bits : List (List Bool)) : Bool :=
  match v.hist with
  | r :: _ => decide (r.stamp + periodOf v ≠ v.next) || (List.range 6).all (fun k => decide ((lget bits k []).length = cicM s v * dF v))
  | [] => true

/-- SAGE_OUTPUT_SAMPLE (R259, R262 to R275): due when the sample's instant lies D_g in the past. -/
def execSageOutputSample (b : SageBits) (s : State) : Out :=
  let m := b.mp.toNat
  let v := getMp s m
  .next (if s.dev.boot ≠ .ready then s
    else if v.state = .off then offRow m s
    else if v.next + groupDelay s v ≤ taiNs s ∧ bitsOk s v b.bits then deliverRow m b.bits s
    else s)

/-- INPUT_LOST (R274): 1,024 modulator clocks without a transition. -/
def execInputLost (input : BitVec 7) (s : State) : Out :=
  let n := input.toNat
  let m := n / 6
  let i := getInput s n
  .next (if 96 ≤ n ∨ i.lost then s
    else
      let back := 1024 * 1000000000 / fModHz s
      let ts := taiNs s - back
      let s1 := bump (inputCnt n 0x48) (setInput n { i with lost := true, lostTs := ts, lostEl := elNs s - back } s)
      let s2 := raise 0x0A03 3 (BitVec.ofNat 8 n :: leBytes 8 ts) none s1
      settleFrom m (max (getMp s m).next (periodUp (periodOf (getMp s m)) ts)) .input s2)

/-- INPUT_RESTORED (R274): the input enters ACQUIRE and settles. -/
def execInputRestored (input : BitVec 7) (s : State) : Out :=
  let n := input.toNat
  let i := getInput s n
  .next (if i.lost = false then s
    else
      let s1 := setInput n { i with lost := false, backTs := taiNs s } s
      let s2 := restartInput (getMp s (n / 6)) .input n s1
      raise 0x0A04 1 (BitVec.ofNat 8 n :: leBytes 4 ((elNs s - i.lostEl) / 1000000)) none s2)

/-- DC_ACQUIRE_DONE (R266): the mean over the P samples, by the implementation's window. -/
def execDcAcquireDone (input : BitVec 7) (s : State) : Out :=
  let n := input.toNat
  let i := getInput s n
  .next (if i.dc = .acquire ∧ acqP (getMp s (n / 6)) ≤ i.acq.length then
      let st : DcState := if i.freezeReq then .frozen else .track
      raise 0x0A0A 0 [BitVec.ofNat 8 n, BitVec.ofNat 8 st.num] none
        (setInput n { i with dc := st, freezeReq := false, d := Config.hannMean i.acq, acq := [] } s)
    else s)

/-- The latest UNSETTLED_UNTIL of a metering point. -/
def lastUntil (s : State) (m : Nat) : Nat := (inputsOf m).foldl (fun a n => max a (getInput s n).until_) 0

/-- SETTLING_END (R272, R273, R275): no input is UNSETTLED. -/
def execSettlingEnd (mp : BitVec 4) (s : State) : Out :=
  let m := mp.toNat
  let v := getMp s m
  .next (if v.state = .settling ∧ (inputsOf m).all (fun n => !inUnsettled s (getInput s n)) then
      endSupp m (latticeBefore (periodOf v) (lastUntil s m)) (mpState m .running v.suppCause s)
    else s)

/-- FADE_END (R264): the bank faded to is active; an input still UNSETTLED keeps the metering point suppressed. -/
def execFadeEnd (mp : BitVec 4) (s : State) : Out :=
  let m := mp.toNat
  let v := getMp s m
  .next (if v.state = .fading ∧ fadeF v ≤ v.fadePos ∧ v.fadeStart ≤ taiNs s then
      let s1 := mpState m .running .bankSwitch (setMp m { v with bankB := !v.bankB, fadePos := 0 } s)
      if (inputsOf m).all (fun n => !inUnsettled s (getInput s n)) then endSupp m (latticeBefore (periodOf v) (lastUntil s m)) s1
      else mpState m .settling .input s1
    else s)

/-- TEMP_STALE_EXPIRY (R271). -/
def execTempStaleExpiry (input : BitVec 7) (s : State) : Out :=
  let n := input.toNat
  let i := getInput s n
  .next (if i.tempSrc ≠ 0 ∧ i.tempRead ∧ i.tempStale = false ∧ i.tempTs + i.staleS * 1000000000 < taiNs s then
      raise 0x0A06 1 (BitVec.ofNat 8 n :: leBytes 8 i.tempTs) none (setInput n { i with tempStale := true } s)
    else s)

/-! ### Estimation -/

/-- A delivered row as a sample of estimation. -/
def rowSmp (s : State) (m : Nat) (r : SgRow) : EstSmp :=
  let at_ (l : List Bool) : List Bool := l.take 3 ++ [false] ++ (l.drop 3).take 3 ++ [false]
  { ts := r.stamp, bad := at_ r.missing, unsettled := at_ r.unsettled, stale := at_ r.stale, unsync := false
    vals := ((List.range 3).map (fun k => primary s m k r)) ++ [qZero] ++ ((List.range 3).map (fun k => primary s m (k + 3) r)) ++ [qZero] }

/-- Take a report of a local stream; one that is not ACTIVE lands none (Table 5.8). -/
def landLocal (h tag : Nat) (cells : List Cell) (s : State) : State :=
  match getStream s h with
  | some v => if v.state = .active then acceptReport h tag (taiNs s) cells s else s
  | none => s

/-- LOCAL_PMU_REPORT (R278 to R281): due when samples to t + Δ + H exist, or, in OFF, when that time has passed. -/
def execLocalPmuReport (mp : BitVec 4) (s : State) : Out :=
  let m := mp.toNat
  let v := getMp s m
  .next (match v.pmu with
    | none => s
    | some h =>
      let t := gridInstant v.pmuRate v.pmuNext
      let c : EstCfg := { fw := fwOf s (fNomHz v), fNom := fNomHz v, w := winCycles v.pmuWindow }
      let fin := reportDone c t
      if fin + groupDelay s v ≤ taiNs s ∧ (v.state = .off ∨ fin ≤ v.next) then
        let s1 := setMp m { v with pmuNext := v.pmuNext + 1 } s
        let smps := if v.state = .off then [] else v.hist.map (rowSmp s m)
        landLocal h t (estCells s c false (decide (s.clk.gaState ≠ .locked)) (qdiv (udin s m) (qNat 10)) t smps) s1
      else s)

/-! ### Sampled values (R149) -/

def getSv (s : State) (h : Nat) : SvState := tgetD s.sage.sv h { smps := [], nextCnt := none, next := 0, rate256 := false }

/-- The instant of sample n of a second: at or before the frame's timestamp, less than 0.5 s before it. -/
def svInstant (now n rate : Nat) : Option Nat :=
  let off := n * 1000000000 / rate
  let sec := now / 1000000000 * 1000000000
  let t := if sec + off ≤ now then sec + off else sec + off - 1000000000
  if t ≤ now ∧ now < t + 500000000 then some t else none

/-- The samples of a frame. -/
def svSamples (f : SvFrame) (now rate : Nat) : List SvSmp :=
  (f.samples.zipIdx).filterMap (fun (l, j) =>
    let ts := if f.smpSynch = 0 then some now else svInstant now (f.smpCnt.toNat + j) rate
    let ints := l.map (fun x => x.toInt)
    ts.map (fun t => { ts := t, volts := (ints.drop 4).take 4, amps := ints.take 4, bad := lget f.bad j [], synced := decide (f.smpSynch ≠ 0) }))

/-- A sample in primary units: 10 mV and 1 mA. -/
def svSmp (x : SvSmp) : EstSmp :=
  { ts := x.ts, bad := ((List.range 4).map (fun k => lget x.bad (4 + k) false)) ++ (List.range 4).map (fun k => lget x.bad k false), unsettled := [], stale := [], unsync := !x.synced
    vals := ((List.range 4).map (fun k => qmk (lget x.volts k 0) 100)) ++ ((List.range 4).map (fun k => qmk (lget x.amps k 0) 1000)) }

/-- Reports of a sampled-value stream whose samples exist. -/
def svReports (h rate : Nat) (c : EstCfg) (nom : Bool) : Nat → State → State
  | 0, s => s
  | k + 1, s =>
    let v := getSv s h
    let t := gridInstant rate v.next
    match v.smps.getLast? with
    | none => s
    | some l =>
      if reportDone c t ≤ l.ts then
        let s1 := { s with sage := { s.sage with sv := tset s.sage.sv h { v with next := v.next + 1 } } }
        svReports h rate c nom k (landLocal h t (estCells s c true nom qZero t (v.smps.map svSmp)) s1)
      else s

/-- The first frame of a sampled-value stream, whose channels STREAM-ADD fixes, takes it from AWAIT-CFG to ACTIVE (DESIGN CHOICE, log entry
62). -/
def svStart (h : Nat) (v : Stream) (s : State) : Stream × State :=
  if v.state = .awaitCfg then
    let v1 := { v with state := .active, descs := estDescs 4 4, silenceEl := elNs s }
    (v1, syncGrid h (setStream h v1 s))
  else (v, s)

/-- SV_FRAME (R149): one or eight ASDUs by the rate, or no effect; samples are timed, a gap in smpCnt is counted, and estimates whose samples exist are reported. The nominal frequency is
that of the grid-angle clock (log entry 42). -/
def execSvFrame (f : SvFrame) (s : State) : Out :=
  let k := f.port.toNat
  let key : StreamKey := { transport := 3, idcode := f.appid, srcAddr := BitVec.ofNat 128 (f.srcMac.toNat * 2 ^ 80), srcPort := 0, dstPort := 0 }
  let s1 := readEntry k key f.ecc (popIn k .c1 s)
  .next (if readerHeld s k .c1 then s else match findStream s1 k key with
    | none => if f.poisoned then s1 else bump 0x05000100 s1
    | some (h, v0) =>
      if f.poisoned ∨ f.samples.length ≠ (if f.rate256 then 8 else 1) then s1
      else if v0.state = .paused ∨ v0.state = .retiring then setStream h { v0 with frames := sat1 v0.frames } s1
      else
        let (v, s1) := svStart h v0 s1
        let fNom := if s.clk.gaFNom60 then 60 else 50
        let rate := (if f.rate256 then 256 else 80) * fNom
        let now := rxNs s k .c1
        let sv := getSv s1 h
        let gap := match sv.nextCnt with
          | some n => decide (n ≠ f.smpCnt.toNat)
          | none => false
        let smps := svSamples f now rate
        let c : EstCfg := { fw := fwOf s fNom, fNom, w := winCycles s.sage.svWindow }
        let first := gridIndex v.svRate now + 1
        let sv1 : SvState := { smps := (sv.smps ++ smps).drop ((sv.smps ++ smps).length - 8192)
                               nextCnt := some ((f.smpCnt.toNat + f.samples.length) % rate)
                               next := if sv.next = 0 ∨ sv.next + 2 * v.svRate < first ∨ first + v.svRate < sv.next then first else sv.next
                               rate256 := f.rate256 }
        let s2 := bumpIf gap 0x05000158 { s1 with sage := { s1.sage with sv := tset s1.sage.sv h sv1 } }
        svReports h v.svRate c (decide (s.clk.gaState ≠ .locked)) 64 s2)

end Sys2Proof.Machine
end

