-- ==== Sys2Proof/Machine/Cf.lean ====
section
/-!
DEFINITION. The commands of group 0x0F and the happenings of the radio (15_field_radio.md).
-/

namespace Sys2Proof.Machine

/-! ### Commands -/

/-- Ranges of CF-XCVR-PROFILE (Table 15.9). -/
def profileOk (p : CfProfileP) : Bool :=
  decide (1000 ≤ p.spiKhz.toNat ∧ p.spiKhz.toNat ≤ 20000 ∧ p.irqPol.toNat < 2 ∧ p.phyOvh.toNat ≤ 64 ∧ 1200 ≤ p.bitrate.toNat ∧
    p.bitrate.toNat ≤ 500000 ∧ 50 ≤ p.tTaUs.toNat ∧ p.tTaUs.toNat ≤ 5000 ∧ p.stIdx.toNat ≤ 61 ∧ p.rsv = 0) &&
  p.seqs.all (fun q => decide (q.rsv = 0 ∧ q.len.toNat ≤ 62))

/-- CF_XCVR_PROFILE (R399, R403, R417). -/
def execCfXcvrProfile (h : Hdr) (p : CfProfileP) (s : State) : Out :=
  .next (vci (cmd 0x0F01 .control false 672) h (fun _ => profileOk p)
    (fun t =>
      let c := { t.cf with profile := some p }
      if t.cf.state ≠ .off then refuse .busy t
      else if t.cf.nodes ≠ [] ∧ timingSame t.cf c = false then refuse .busy t
      else done (setCf (p.chWords.zipIdx.foldl (fun c (w, k) => modChan k (fun x => { x with word := w }) c) c) t)) s)

/-- poll_max and resp_max hold the smallest frames of every node (R417). -/
def sizesOk (pollMax respMax : Nat) (c : CfBlk) : Bool :=
  c.nodes.all (fun e => decide (7 + micBytes e.2.mic ≤ pollMax ∧ 6 + micBytes e.2.mic ≤ respMax))

/-- The coordinator is enabled: the origin is set the first time (R403), and start-up begins. -/
def cfEnable (s : State) : State :=
  let c := s.cf
  let now := taiNs s
  let ts := if s.clk.timeValid then (now / sfNs c + 1) * sfNs c else now + sfNs c
  let s1 := if c.started then s else setCf { c with started := true, originTs := ts, originEl := elNs s + (ts - now) } s
  enterStarting s1

/-- CF_CONFIG (R401, R403, R417). -/
def execCfConfig (h : Hdr) (p : CfConfigP) (s : State) : Out :=
  .next (vci (cmd 0x0F02 .control false 16) h
    (fun t => decide (p.enable.toNat < 2 ∧ p.beaconMic.toNat < 3 ∧ 25 ≤ p.sfMs.toNat ∧ p.sfMs.toNat ≤ 1000 ∧ 11 ≤ p.pollMax.toNat ∧
        p.pollMax.toNat ≤ 2047 ∧ 10 ≤ p.respMax.toNat ∧ p.respMax.toNat ≤ 2047 ∧ 1 ≤ p.dwellMs.toNat ∧ p.dwellMs.toNat ≤ 10000 ∧
        1 ≤ p.dwellWinS.toNat ∧ p.dwellWinS.toNat ≤ 3600 ∧ 256 ≤ p.rekeyWarn.toNat ∧ p.rekeyWarn.toNat ≤ 8388608) &&
      sizesOk p.pollMax.toNat p.respMax.toNat t.cf)
    (fun t =>
      let c := { t.cf with enable := decide (p.enable = 1), beaconMic := p.beaconMic.toNat, sfMs := p.sfMs.toNat, pollMax := p.pollMax.toNat
                           respMax := p.respMax.toNat, dwellMs := p.dwellMs.toNat, dwellWinS := p.dwellWinS.toNat
                           rekeyWarn := p.rekeyWarn.toNat }
      if t.cf.nodes ≠ [] ∧ timingSame t.cf c = false then refuse .busy t
      else
        let t1 := setCf c t
        done (if p.enable = 0 then cfOff t1 else if c.state = .off ∧ c.profile.isSome then cfEnable t1 else t1)) s)

/-- CF_CHANNEL_MAP (R405): in effect at switch_sf, at least sixteen superframes on. -/
def execCfChannelMap (h : Hdr) (p : CfChannelMapP) (s : State) : Out :=
  let m : HopMap := { mask := p.mask, inc := p.hopInc.toNat, seed := p.hopSeed.toNat }
  .next (vci (cmd 0x0F03 .control false 16) h
    (fun t => decide (p.mask ≠ 0 ∧ Nat.gcd m.inc m.chans.length = 1 ∧ p.hopSeed.toNat < 64 ∧ p.rsv = 0 ∧
      16 ≤ (p.switchSf - t.cf.sfNo).toNat))
    (fun t =>
      let at_ := t.cf.sfIdx + (p.switchSf - t.cf.sfNo).toNat
      done (modCf (fun c => { c with mapNext := some (m, p.switchSf, at_), mapGen := c.mapGen + 1 }) t)) s)

/-- A node that the command may name (R52). -/
def nodeNameable (h : Hdr) (k : Nat) (t : State) : Bool :=
  match getNode t k with
  | some v => mayName t h.part v.part
  | none => false

/-- CF_NODE_ADD (R404, R408, R409, R417). -/
def execCfNodeAdd (h : Hdr) (p : CfNodeAddP) (s : State) : Out :=
  let k := p.node.toNat
  let d := p.pollDiv.toNat
  .next (vci (cmd 0x0F04 .openC false 32) h
    (fun t => decide (k < 1024 ∧ p.mic.toNat < 3 ∧ p.rsv = 0 ∧ 1 ≤ d ∧ d ≤ 256 ∧ 500 ≤ p.superMs.toNat ∧ p.superMs.toNat ≤ 32000 ∧
        3 * d * t.cf.sfMs ≤ p.superMs.toNat ∧ 7 + micBytes p.mic.toNat ≤ t.cf.pollMax ∧ 6 + micBytes p.mic.toNat ≤ t.cf.respMax) &&
      (match getNode t k with
       | none => true
       | some v => decide (v.state = .closed) && mayName t h.part v.part))
    (fun t =>
      let old := getNode t k
      let l := nodeBefore t.cf k
      let c := { t.cf with nodes := tdel t.cf.nodes k }
      match t.cf.profile.bind (fun q => placeNode c (slotCount q c) d) with
      | none => refuse .noResource t
      | some (phase, slot) =>
        let v : Node := { state := .added, part := (old.map (fun o => o.part)).getD h.part, mic := p.mic.toNat, misses := 0
                          eui64 := p.eui64, pollDiv := d, phase, slot, rxSeq := 0, txSeq := 0, dl := [], ctr := 0, eSw := none, key := p.key
                          keyNext := none, keyPrev := none, swAt := 0, sinceSw := 0, keyGen := l.keyGen + 1
                          rekeyRaised := false, superMs := p.superMs.toNat, lastRxTs := 0, superEl := elNs t
                          handle := old.bind (fun o => o.handle), sensors := (old.map (fun o => o.sensors)).getD [], ack := false
                          polled := false, responses := l.responses, missed := l.missed, dup := l.dup, micFail := l.micFail
                          dlFail := l.dlFail }
        doneWith (leBytes 2 phase ++ leBytes 1 slot ++ [0]) (setCf { c with nodes := tset c.nodes k v, left := tdel c.left k } t)) s)

/-- CF_NODE_REMOVE (R413, R417, Table 15.4). -/
def execCfNodeRemove (h : Hdr) (p : CfNodeP) (s : State) : Out :=
  let k := p.node.toNat
  .next (vci (cmd 0x0F05 .openC false 4) h (fun t => decide (p.rsv = 0) && nodeNameable h k t)
    (fun t =>
      match getNode t k with
      | none => refuse .badParam t
      | some v =>
        if nodeStreamFree t v = false then refuse .busy t
        else
          let t1 := modCf (fun c => { c with nodes := tdel c.nodes k, left := tset c.left k v.left }) (retireNodeStream k v t)
          done (raise 0x0F06 2 (leBytes 2 k ++ [1]) (some v.part) t1)) s)

/-- CF_NODE_KEY (R408, R417): node 0xFFFF is the beacon key, for the controller alone. -/
def execCfNodeKey (h : Hdr) (p : CfNodeKeyP) (s : State) : Out :=
  let k := p.node.toNat
  .next (vci (cmd 0x0F06 .openC false 24) h
    (fun t => decide (p.rsv = 0) &&
      (if p.node = 0xFFFF then !isCtrl t h.part || decide (8 ≤ (p.eSw - t.cf.sfNo).toNat)
       else nodeNameable h k t && (match getNode t k with
         | some v => decide (v.ctr + 8 ≤ p.eSw.toNat ∧ p.eSw.toNat < 2 ^ 24)
         | none => false)))
    (fun t =>
      if p.node = 0xFFFF then
        if isCtrl t h.part = false then refuse .notController t
        else done (modCf (fun c => { c with keyBNext := some p.key, eSwB := some (p.eSw, c.sfIdx + (p.eSw - c.sfNo).toNat)
                                            keyGenB := c.keyGenB + 1 }) t)
      else done (modNode k (fun v => { v with keyNext := some p.key, eSw := some p.eSw.toNat, keyGen := v.keyGen + 1 }) t)) s)

/-- Ranges of a mapping (Table 15.9). -/
def nodeMapOk (p : CfNodeStreamP) : Bool :=
  decide (1 ≤ p.n.toNat ∧ p.n.toNat ≤ 16 ∧ p.rate.toNat ≤ 10 ∧ p.level.toNat < 8 ∧ p.rsv = 0) && pmuRateOk p.rate.toNat &&
  p.sensors.zipIdx.all (fun (x, i) => if i < p.n.toNat then decide (x.toNat < 16) else decide (x = 0xFF))

/-- Descriptors of a node's stream: analog channels of kind 5 (R413). -/
def nodeDescs (n : Nat) : List ChanDesc :=
  List.replicate n { kind := 5, float := true, polar := true, cfgGen := 0, pos := 0, block := 0, fnom50 := true, scale := ⟨1, 1⟩
                     offset := ⟨0, 1⟩, name := 0 }

/-- CF_NODE_STREAM_MAP (R413, R18). -/
def execCfNodeStreamMap (h : Hdr) (p : CfNodeStreamP) (s : State) : Out :=
  let k := p.node.toNat
  let m := p.n.toNat
  .next (vci (cmd 0x0F07 .openC false 24) h (fun t => nodeMapOk p && nodeNameable h k t)
    (fun t =>
      match getNode t k with
      | none => refuse .badParam t
      | some w =>
        if w.handle.isSome then refuse .busy t
        else match addRefusal w.part m t, allocChans t m, tfreeFrom t.ing.streams 262144 0 with
          | none, some base, some n =>
            let key : StreamKey := { transport := 4, idcode := p.node, srcAddr := 1, srcPort := 0, dstPort := 0 }
            let v := { newStream key 0 p.level.toNat m base p.rate.toNat false w.part (elNs t) with state := .active, descs := nodeDescs m }
            match enterDir n v t with
            | none => refuse .busy (beginRebuild t)
            | some t1 =>
              let t2 := oscResetStream n (placeNew 0 n (syncGrid n t1))
              doneWith (leBytes 4 n ++ leBytes 4 base)
                (modNode k (fun x => { x with handle := some n, sensors := (p.sensors.take m).map (fun y => y.toNat) }) t2)
          | _, _, _ => refuse .noResource t) s)

/-- CF_NODE_STREAM_UNMAP (R413, R154, R155): answers with the stream it retires. -/
def execCfNodeStreamUnmap (h : Hdr) (p : CfNodeStreamP) (s : State) : Out :=
  let k := p.node.toNat
  .next (vci (cmd 0x0F07 .openC false 24) h
    (fun t => decide (p.rsv = 0) && nodeNameable h k t && ((getNode t k).bind (fun v => v.handle)).isSome)
    (fun t =>
      match getNode t k with
      | none => refuse .badParam t
      | some v =>
        if nodeStreamFree t v = false then refuse .busy t
        else
          let n := v.handle.getD 0
          doneWith (leBytes 4 n ++ leBytes 4 ((getStream t n).elim 0 (fun x => x.chanBase))) (retireNodeStream k v t)) s)

/-- CF_OUTPUT_BIND (R414): one ring for each partition. -/
def execCfOutputBind (h : Hdr) (p : RingBindP) (s : State) : Out :=
  .next (vci (cmd 0x0F08 .openC false 4) h
    (fun t => decide (p.rsv = 0) && (decide (p.ring = 0xFF) || decide (t.cf.outRing.get h.part = some p.ring.toNat) || ringFree t h.part p.ring.toNat false))
    (fun t =>
      let put (v : Option Nat) (u : State) : State := modCf (fun c => { c with outRing := c.outRing.set h.part v }) u
      match t.cf.outRing.get h.part with
      | some n => if p.ring = 0xFF then done (unbindRing h.part n .radio (put none t)) else refuse .busy t
      | none => if p.ring = 0xFF then done t else done (bindRing h.part p.ring.toNat .radio (put (some p.ring.toNat) t))) s)

/-- CF_SEND (R415): up to four records for each node. -/
def execCfSend (h : Hdr) (p : CfSendP) (s : State) : Out :=
  let k := p.node.toNat
  .next (vci (cmd 0x0F09 .openC false (4 + p.len.toNat)) h
    (fun t => decide (0x80 ≤ p.type.toNat ∧ p.type.toNat ≤ 0xFE) && nodeNameable h k t)
    (fun t =>
      match getNode t k with
      | none => refuse .badParam t
      | some v =>
        if t.cf.pollMax < 9 + micBytes v.mic + p.body.length then refuse .badLength t
        else if 4 ≤ v.dl.length then refuse .busy t
        else done (modNode k (fun x => { x with dl := x.dl ++ [{ type := p.type, body := p.body, polls := 0, seq := none }] }) t)) s)

/-! ### Start-up -/

/-- CF_RESET_WAIT_END (R401): 6 ms after the pulse began, sequences 0 and 5 run. -/
def execCfResetWaitEnd (status : U8) (s : State) : Out :=
  let c := s.cf
  .next (if c.state = .starting ∧ c.failEl = none ∧ c.startEl + 6000000 ≤ elNs s then
      let s1 := runSeq 5 [] (runSeq 0 [] (modCf (fun x => { x with rstN := true }) s))
      if statusReady c status then
        raise 0x0F01 0 (leBytes 4 c.sfNo.toNat) none (modCf (fun x => { x with state := .running, beaconFails := 0 }) s1)
      else startFails s1
    else s)

/-- CF_IRQ_TIMEOUT (R401): 10 ms after the sequences of start-up. -/
def execCfIrqTimeout (s : State) : Out :=
  let c := s.cf
  .next (if c.state = .starting ∧ c.failEl = none ∧ c.startEl + 16000000 ≤ elNs s then
      startFails (runSeq 0 [] (modCf (fun x => { x with rstN := true }) s))
    else s)

/-- CF_STARTUP_RETRY (Table 15.2). -/
def execCfStartupRetry (s : State) : Out :=
  let c := s.cf
  .next (match c.state, c.failEl with
    | .starting, some e => if e + (if c.tries ≤ 3 then 1000000000 else 10000000000) ≤ elNs s then startUp s else s
    | _, _ => s)

/-! ### Superframes -/

/-- SUPERFRAME_PLANNING (R406): 1 ms before a superframe. -/
def execSuperframePlanning (s : State) : Out :=
  let (n, st) := nextSf s
  let m := match s.cf.mapNext with
    | some (m, _, at_) => if at_ ≤ n then m else s.cf.map
    | none => s.cf.map
  .next (match s.cf.profile, m.chanOf (n % 2 ^ 32) with
    | some p, some ch =>
      if s.cf.state ≠ .running ∨ elNs s + 1000000 < st ∨ s.cf.planIdx = some n then s
      else
        let slots := ((scheduled s.cf (n % 2 ^ 32)).map (·.1)).mergeSort (· ≤ ·)
        let fit := fitSlots p s.cf (s.cf.dwellMs * 1000000 - dwellUsed s ch) slots.length
        let dropped := slots.length - fit.getD 0
        let s1 := modCf (fun c => { c with planIdx := some n, planSilent := fit.isNone, slotsPlan := lget slots (fit.getD 0) (2 ^ 32) }) s
        if fit = some slots.length then s1
        else
          let s2 := bumpBy 0x0F000120 dropped (bumpIf fit.isNone 0x0F000118
            (modCf (modChan ch (fun x => { x with dwellLimited := sat1 x.dwellLimited })) s1))
          if s.cf.lastDwellEl.elim true (fun e => decide (e + 1000000000 ≤ elNs s)) then
            raise 0x0F09 1 (BitVec.ofNat 8 ch :: leBytes 2 dropped ++ [if fit.isNone then 1 else 0]) none
              (modCf (fun c => { c with lastDwellEl := some (elNs s) }) s2)
          else s2
    | _, _ => s)

/-- BEACON_STATUS_CHECK (R402): 500 µs before a superframe that is not silent. -/
def execBeaconStatusCheck (status : U8) (s : State) : Out :=
  let (n, st) := nextSf s
  .next (if s.cf.state ≠ .running ∨ elNs s + 500000 < st ∨ s.cf.checkIdx = some n ∨ (s.cf.planIdx = some n ∧ s.cf.planSilent) then s
    else
      let s1 := runSeq 5 [] (modCf (fun c => { c with checkIdx := some n }) s)
      if statusReady s.cf status then s1 else beaconFailed 0 (modCf (fun c => { c with failIdx := some n }) s1))

/-- The radio's part of a superframe start: the channel, its dwell, and the beacon. -/
def radioStart (n ch : Nat) (p : CfProfileP) (s : State) : State :=
  let c := s.cf
  if c.state ≠ .running then s
  else
    let slots := ((scheduled c (n % 2 ^ 32)).filter (fun x => decide (c.planIdx ≠ some n ∨ x.1 < c.slotsPlan))).length
    let s1 := modCf (modChan ch (fun x => { x with superframes := sat1 x.superframes })) s
    if c.silent then s1
    else
      let occ := nsOf p (tbN p c + slots * tsN p c)
      let keep := fun (x : CfChan) => x.used.filter (fun e => decide (elNs s ≤ e.1 + c.dwellWinS * 1000000000))
      let s2 := runSeq 1 [] (modCf (modChan ch (fun x => { x with used := (elNs s, occ) :: keep x })) s1)
      if c.failIdx = some n then s2
      else
        launchFrame (beaconFrame s2.cap.unitId s2.cf) (modCf (fun x => { x with txEl := some (elNs s), beaconSeq := x.beaconSeq + 1 }) s2)

/-- SUPERFRAME_START (R402 to R408). -/
def execSuperframeStart (s : State) : Out :=
  let (n, st) := nextSf s
  .next (if s.cf.state = .off ∨ elNs s < st then s
    else if 0 < n ∧ n % 2 ^ 32 = 0 ∧ s.cf.eSwB = none then raise 0x0F07 3 (leBytes 2 0xFFFF) none (cfOff s)
    else
      let no := n % 2 ^ 32
      let s1 := mapSwitch n (modCf (fun c => { c with sfIdx := n, sfNo := BitVec.ofNat 32 n, sfEl := some st }) s)
      let s2 := nodeEvents no (beaconKey n s1)
      match s2.cf.map.chanOf no, s2.cf.profile with
      | some ch, some p =>
        radioStart n ch p (modCf (fun c => { c with chan := ch, silent := decide (c.planIdx = some n) && c.planSilent }) s2)
      | _, _ => s2)

/-! ### Slots -/

/-- The poll of a node. -/
def sendPoll (k : Nat) (v : Node) (s : State) : State :=
  let seq := v.txSeq + 1
  let take := dlFit v.dl (s.cf.pollMax - (7 + micBytes v.mic))
  let sent := (v.dl.take take).map (fun d => { d with polls := d.polls + 1, seq := some seq })
  let payload := [if v.ack then 1 else 0, if v.ack then v.rxSeq else 0] ++ (sent.map DlRec.bytes).flatten
  let f := cfFrame s.cap.unitId v.key v.mic (fcOf 1 (decide (take = 0)) v.eSw.isSome) k seq v.ctr payload
  launchFrame f (bump 0x0F000128
    (modNode k (fun x => { x with txSeq := seq, dl := sent ++ x.dl.drop take, ack := false, polled := true }) s))

/-- SLOT_POLL (R404, R406): the node's slot of the current superframe. -/
def execSlotPoll (node : U16) (s : State) : Out :=
  let k := node.toNat
  let c := s.cf
  .next (match getNode s k, c.profile with
    | some v, some p =>
      if c.state = .running ∧ c.sfEl.isSome ∧ c.silent = false ∧ v.state ≠ .closed ∧ c.sfNo.toNat % v.pollDiv = v.phase ∧ v.polled = false ∧
          (c.planIdx = some c.sfIdx → v.slot < c.slotsPlan) ∧ slotStart p c v.slot ≤ elNs s ∧ elNs s < slotEnd p c v.slot then
        sendPoll k v s
      else s
    | _, _ => s)

/-- SLOT_END (R409, R415, Table 15.4): the poll is missed. -/
def execSlotEnd (node : U16) (s : State) : Out :=
  let k := node.toNat
  .next (match getNode s k, s.cf.profile with
    | some v, some p =>
      if v.polled = false ∨ elNs s < slotEnd p s.cf v.slot then s
      else
        let n := v.misses + 1
        let lost := decide (3 ≤ n) && decide (v.state = .added ∨ v.state = .connected)
        let s1 := bump 0x0F000138 (modNode k (fun x => { x with polled := false, misses := min n 255, missed := sat1 x.missed,
                                                                 state := if lost then .lostPending else x.state }) s)
        dropDl k (raiseIf lost 0x0F04 2 (leBytes 2 k ++ leBytes 8 v.lastRxTs) (some v.part) s1)
    | _, _ => s)

/-- NODE_SUPERVISION_TIMEOUT (R409, Table 15.4). -/
def execNodeSupervisionTimeout (node : U16) (s : State) : Out :=
  let k := node.toNat
  .next (match getNode s k with
    | some v =>
      if (v.state = .added ∨ v.state = .lostPending) ∧ v.superEl + v.superMs * 1000000 ≤ elNs s then
        raise 0x0F06 2 (leBytes 2 k ++ [0]) (some v.part) (closeNode k s)
      else s
    | none => s)

/-! ### The transceiver -/

/-- CF_IRQ (R399, R400, R402): sequence 7 after each assertion. -/
def execCfIrq (k : IrqKind) (s : State) : Out :=
  .next (if s.cf.state = .off then s
    else
      let s1 := runSeq 7 [] s
      match k with
      | .sync =>
        let lat := s.cf.profile.elim 0 (fun p => p.rxLatNs.toNat)
        modCf (fun c => { c with syncEl := some (elNs s), syncTs := taiNs s - lat }) s1
      | .rxEnd => runSeq 6 [] s1
      | .txEnd =>
        let s2 := runSeq 4 [] s1
        if s.cf.txEl.isSome then bump 0x0F000100 (modCf (fun c => { c with txEl := none, beaconFails := 0 }) s2) else s2)

/-- BEACON_TX_TIMEOUT (R402): the beacon's airtime and 2 ms after its launch. -/
def execBeaconTxTimeout (s : State) : Out :=
  .next (match s.cf.txEl, s.cf.profile with
    | some e, some p =>
      if e + nsOf p (airN p (15 + micBytes s.cf.beaconMic)) + 2000000 ≤ elNs s then beaconFailed 1 s else s
    | _, _ => s)

/-- The counter a response is expected to carry (R407, R408): under the new key, or under the old one for eight events. -/
def responseOk (v : Node) (r : CfResponse) : Bool :=
  (r.authOk && decide (r.ctrLo = BitVec.ofNat 8 v.ctr)) ||
  (r.authOld && v.keyPrev.isSome && decide (v.sinceSw < 8) && decide (r.ctrLo = BitVec.ofNat 8 (v.swAt + v.sinceSw)))

/-- A response that authenticates (R409, R410, R415). -/
def validResponse (k : Nat) (v : Node) (r : CfResponse) (s : State) : State :=
  let ts := s.cf.syncTs
  let new := decide (r.seq ≠ v.rxSeq)
  let dup := decide (r.seq = v.rxSeq) && !r.empty
  let jump := new && decide (r.seq ≠ v.rxSeq + 1)
  let s1 := bump 0x0F000130 (modNode k (fun x =>
    { x with state := .connected, misses := 0, polled := false, ack := true, rxSeq := r.seq, lastRxTs := ts
             superEl := s.cf.syncEl.getD (elNs s), responses := sat1 x.responses, dup := if dup then sat1 x.dup else x.dup
             dl := x.dl.filter (fun d => decide (d.seq ≠ some r.ackSeq)) }) s)
  let s2 := bumpIf dup 0x0F000148 (bumpIf jump 0x0F000150 s1)
  let s3 := raiseIf (decide (v.state = .added)) 0x0F03 0 (leBytes 2 k) (some v.part) s2
  let s4 := raiseIf (decide (v.state = .lostPending)) 0x0F05 0 (leBytes 2 k ++ [BitVec.ofNat 8 v.misses]) (some v.part) s3
  let s5 := if new && !r.empty then takeRecords k v ts r.records.length r.records s4 else s4
  dropDl k s5

/-- RESPONSE_RX (R400, R407, R410). -/
def execResponseRx (r : CfResponse) (s : State) : Out :=
  let k := r.addr.toNat
  .next (if s.cf.state ≠ .running then s
    else if r.len.toNat < 9 ∨ 2047 < r.len.toNat then bump 0x0F000158 s
    else match getNode s k with
      | none => bump 0x0F000140 s
      | some v =>
        if v.state = .closed then bump 0x0F000140 s
        else if responseOk v r then validResponse k v r s
        else bump 0x0F000140 (modNode k (fun x => { x with micFail := sat1 x.micFail }) s))

end Sys2Proof.Machine
end

