-- ==== Sys2Proof/Machine/ClockOps.lean ====
section
/-!
DEFINITION. Operations of the device clock (03_timebase.md): its cycle, time quality, sources and the servo, steps, leap seconds, and
PTP messages.
-/

namespace Sys2Proof.Machine

/-! ### The cycle (R70, R71, R73, R77) -/

/-- INCR_APPLIED moves one LSB towards INCR_TARGET. -/
def slewIncr (a t : U40) : U40 := if a.toNat < t.toNat then a + 1 else if t.toNat < a.toNat then a - 1 else a

/-- One cycle of the 500 MHz timebase clock. -/
def clockCycle (c : ClkBlk) : ClkBlk :=
  let x := c.ns.toNat * 2 ^ 32 + c.frac.toNat + c.incrApplied.toNat
  let n := x / 2 ^ 32
  let k := if 1000000000 ≤ n then 1 else 0
  { c with sec := c.sec + BitVec.ofNat 48 k, ns := BitVec.ofNat 30 (n - k * 1000000000), frac := BitVec.ofNat 32 x, adv := c.adv + c.incrApplied.toNat
           incrApplied := slewIncr c.incrApplied c.incrTarget }

/-- What passes while nothing is commanded (log entry 1): one cycle of the clock; with PORN low there is none. -/
def idleCycle (s : State) : State := if s.dev.porn then { s with clk := clockCycle s.clk } else s

/-! ### Time quality (R87, Table 3.4) -/

/-- Band of an estimated error: TQ code and STAT bits 8–6. -/
def tqBand (err : Nat) : Nat × Nat :=
  if err < 100 then (3, 1) else if err < 1000 then (4, 2) else if err < 10000 then (5, 3) else if err < 100000 then (6, 4)
  else if err < 1000000 then (7, 5) else if err < 10000000 then (8, 6) else if err < 100000000 then (9, 7)
  else if err < 1000000000 then (10, 7) else if err < 10000000000 then (11, 7) else (15, 7)

/-- Estimated error, ns. -/
def estError (s : State) : Nat :=
  match s.clk.state with
  | .holdover => s.clk.e0Ns + s.clk.holdPpb * (elNs s - s.clk.holdStartEl) / 1000000000
  | _ => s.clk.offset.natAbs + s.clk.e0Ns

/-- TQ, STAT bits 8–6 and STAT bit 13 as the state gives them. -/
def tqCodes (s : State) : Nat × Nat × Bool :=
  let (q, st) := tqBand (estError s)
  match s.clk.state with
  | .unlocked => (15, 7, true)
  | .locked => (0, st, false)
  | .acquiring => (q, st, false)
  | .holdover => (q, st, decide (q = 15))

/-- STAT bits 5–4 (R87). -/
def unlockedBits (s : State) : Nat :=
  let t := elNs s - s.clk.leftLockedEl
  if s.clk.everLocked = false then 3
  else if s.clk.state = .locked ∨ t < 10000000000 then 0
  else if t < 100000000000 then 1
  else if t ≤ 1000000000000 then 2
  else 3

/-- Bring the published quality up to date: TIME-QUALITY-CHANGED at each change of TQ. -/
def updateTq (s : State) : State :=
  let (q, st, err) := tqCodes s
  let old := s.clk.tq.toNat
  let s0 := { s with clk := { s.clk with tq := BitVec.ofNat 4 q, statTq := BitVec.ofNat 3 st, syncErr := err
                                         unlockedCode := BitVec.ofNat 2 (unlockedBits s) } }
  if old = q then s0
  else
    -- the spec defines no estimated error in UNLOCKED: a free value
    let (e, s1) := if s.clk.state = .unlocked then fresh s0 else (estError s, s0)
    raise 0x0307 1 ([BitVec.ofNat 8 old, BitVec.ofNat 8 q] ++ leBytes 8 e) none (noteTq s1)

/-! ### States and sources (Tables 3.1 and 3.2) -/

def Src.num : Src → Nat
  | .none => 0
  | .ptp => 1
  | .pps => 2
  | .irig => 3

def ClkState.num : ClkState → Nat
  | .unlocked => 0
  | .acquiring => 1
  | .locked => 2
  | .holdover => 3

/-- Move to a state. -/
def setClk (st : ClkState) (s : State) : State :=
  let c := s.clk
  if c.state = st then s
  else
    let c1 := { c with state := st, stateChanges := c.stateChanges + 1, leftLockedEl := if c.state = .locked then elNs s else c.leftLockedEl
                       lockRun := 0, unlockRun := 0 }
    match st with
    | .holdover => bump 0x03000118 { s with clk := { c1 with holdStart := c.sec, holdStartEl := elNs s, incrTarget := c.incrFreq } }
    | .locked => { s with clk := { c1 with everLocked := true, timeValid := true } }
    | _ => { s with clk := c1 }

def getPtp (s : State) (k : Nat) : PtpPort := tgetD s.clk.ptpPorts k .init
def setPtp (k : Nat) (v : PtpPort) (s : State) : State := { s with clk := { s.clk with ptpPorts := tset s.clk.ptpPorts k v } }

/-- The two ports of the PTP pair, and its SLAVE port (R82). -/
def ptpFirst (s : State) : Nat := if s.clk.pair then 2 else 0
def slaveOf (s : State) : Nat := ptpFirst s + (if s.clk.slavePort then 1 else 0)

/-- A source is qualified and enabled. -/
def qualifies (s : State) : Src → Bool
  | .none => false
  | .ptp => s.clk.srcEn.getLsbD 0 && ((getPtp s (ptpFirst s)).qual || (getPtp s (ptpFirst s + 1)).qual)
  | .pps => s.clk.srcEn.getLsbD 1 && s.clk.ppsQual
  | .irig => s.clk.srcEn.getLsbD 2 && s.clk.irigQual

/-- The most preferred source that qualifies (R80). -/
def bestSrc (s : State) : Src :=
  if qualifies s .ptp then .ptp else if qualifies s .pps then .pps else if qualifies s .irig then .irig else .none

/-- The UTC offset in force after a change of what gives it (R88). -/
def applyUtc (s : State) : State :=
  match s.clk.source, (getPtp s (slaveOf s)).master with
  | .ptp, some m =>
    if m.utcValid then { s with clk := { s.clk with ptpUtcValid := true, utcOffset := m.utcOffset.toInt } }
    else { s with clk := { s.clk with ptpUtcValid := false, utcOffset := s.clk.utcSet } }
  | _, _ => { s with clk := { s.clk with ptpUtcValid := false, utcOffset := s.clk.utcSet } }

/-- Choose what may be taken: at once with no source active, after src_holdoff where a more preferred one has come (R80). -/
def selectSrc (s : State) : State :=
  let c := s.clk
  let b := bestSrc s
  if c.source = .none then { s with clk := { c with take := if qualifies s c.take then c.take else b, better := none } }
  else if b = .none ∨ c.source.num ≤ b.num then { s with clk := { c with take := .none, better := none } }
  else
    let tk := if c.take.num < c.source.num ∧ qualifies s c.take then c.take else .none
    match c.better with
    | some (x, _) =>
      if x = b then { s with clk := { c with take := tk } }
      else { s with clk := { c with take := tk, better := some (b, elNs s + c.srcHoldoff * 1000000000) } }
    | none =>
      if tk = b then { s with clk := { c with take := tk } }
      else { s with clk := { c with take := tk, better := some (b, elNs s + c.srcHoldoff * 1000000000) } }

/-- Whether no source is left, and the state that follows (Table 3.1). -/
def noneLeft (s : State) : State :=
  let c := s.clk
  if c.source ≠ .none ∨ bestSrc s ≠ .none then s
  else
    let last : Byte := BitVec.ofNat 8 c.lastSrc.num
    if c.state = .locked ∨ (c.state = .acquiring ∧ c.everLocked) then
      updateTq (raise 0x0302 2 (last :: leBytes 8 c.incrFreq.toNat) none (setClk .holdover s))
    else if c.state = .acquiring then updateTq (raise 0x0303 3 [last] none (setClk .unlocked s))
    else s

/-- A source has ceased to qualify (R75, R80): if it was active, the phase term is zero from now. -/
def loseSrc (x : Src) (s : State) : State :=
  let c := s.clk
  if c.source = x then
    noneLeft (selectSrc (applyUtc { s with clk := { c with source := .none, lastSrc := x, incrTarget := c.incrFreq, take := .none, better := none } }))
  else noneLeft (selectSrc s)

/-! ### Steps (R79) -/

/-- Timed triggers and announcement starts that wait. -/
def isTrigger : TimedKind → Bool
  | .trigger _ _ => true
  | _ => false

/-- The owner of a frame without the instant its latency would be measured from. -/
def noEvidence : TxOwner → TxOwner
  | .alarm n g _ => .alarm n g none
  | o => o

/-- Frames on their way no longer measure an instant of the old time (R230). -/
def forgetEvidence (s : State) : State :=
  { s with net := { s.net with frames := tmap (fun _ f => { f with owner := noEvidence f.owner }) s.net.frames } }

/-- What counts the instants of the device clock starts anew from the time stepped to: frames of wire publications (R178) and STATE frames of
stages (R225) are due from there on. -/
def restartDue (s : State) : State :=
  let due (p : Pub) : Pub := { p with builtTag := taiNs s - (p.offsetUs - 200) * 1000 - 1 }
  { s with aln := { s.aln with pubs := tmap (fun _ p => due p) s.aln.pubs }
           alm := { s.alm with stages := tmap (fun _ v => { v with lastState := refreshBefore s s.alm.refreshMs }) s.alm.stages } }

/-- A step of the clock to a time in ns with its fraction (R79): cause 0 UNLOCKED, 1 TIME-STEP. -/
def runStep (cause part new : Nat) (frac : U32) (s : State) : State :=
  let old := taiNs s
  -- 1: marks
  let s1 := if s.clk.timeValid then capStep old new { s with ing := { s.ing with discUntilEl := some (elNs s + 4000000000) } } else s
  let s2 := stepRelease s1
  -- 2: timed actions
  let (n, s3) := cancelLaunches s2
  let k := (s3.clk.timed.filter (fun a => isTrigger a.kind)).length
  let s4 := annRelease (dropTimed isTrigger (cancelTriggers s3))
  let s5 := raise 0x030F 2 (leBytes 8 (n + k)) none (bumpBy 0x03000128 (n + k) s4)
  -- 3: the clock
  let s6 := { s5 with clk := { s5.clk with sec := BitVec.ofNat 48 (new / 1000000000), ns := BitVec.ofNat 30 (new % 1000000000), frac
                                           stepTs := new, ppsRiseSec := none
                                           absOff := (absTick s5 * 1000 + new % 1000 : Nat) - (elNs s5 : Int) }
                      yar := { s5.yar with windowMs := new / 1000000 } }
  let s7 := raise 0x0306 2 (BitVec.ofNat 8 cause :: leBytes 8 old ++ leBytes 8 new ++ [BitVec.ofNat 8 part]) none (bump 0x03000100 s6)
  -- 5: validity and state
  let s8 := { s7 with clk := { s7.clk with timeValid := true }, eq := { s7.eq with stepped := true } }
  let s9 := if s8.clk.source = .none then s8 else setClk .acquiring s8
  updateTq (kickPorts (restartDue (sageStep ((new : Int) - (old : Int)) (forgetEvidence s9))))

/-! ### The servo (R75 to R77) -/

/-- ±ppm of the nominal increment, in LSB. -/
def ppmLsb (ppm : Nat) : Nat := ppm * 2 ^ 33 / 1000000

/-- The servo's estimate of the increment at an update (R77), which the spec does not give by formula: a free value; INCR_FREQ is confined to
±200 ppm and ten in a row outside set FREQ_LIMIT. The phase term removes the offset: its sign is against the offset, and its size, which
the spec does not give either, is a free value of 1 LSB to slew_ppm. -/
def servoRate (offset : Int) (s0 : State) : State :=
  let (x, s1) := fresh s0
  let (y, s) := fresh s1
  let c := s.clk
  let nom : Nat := 2 ^ 33
  let est := x % 2 ^ 40
  let lim := ppmLsb 200
  let bad := decide (est < nom - lim ∨ nom + lim < est)
  let freq := if est < nom - lim then nom - lim else if nom + lim < est then nom + lim else est
  let mag := if offset = 0 then 0 else min (ppmLsb c.slewPpm) (y + 1)
  let target := if 0 < offset then freq - mag else freq + mag
  let b := if bad then c.freqBad + 1 else 0
  let g := if bad then 0 else c.freqGood + 1
  let hit := decide (10 ≤ b) && !c.freqLimit
  let s2 := { s with clk := { c with incrFreq := BitVec.ofNat 40 freq, incrTarget := BitVec.ofNat 40 target, freqBad := b, freqGood := g
                                     freqLimit := if 10 ≤ b then true else if 10 ≤ g then false else c.freqLimit } }
  raiseIf hit 0x0309 3 (leInt 4 (((est : Int) - (nom : Int)) * 1000000000 / (nom : Int))) none s2

/-- An update of the active source in ACQUIRING or LOCKED (Table 3.1, R76). On the way to UNLOCKED by alert_us the source field becomes none and
INCR_TARGET the last INCR_FREQ, until the next update steps (DESIGN CHOICE, log entry 61). -/
def servo (offset : Int) (s0 : State) : State :=
  let s := { s0 with clk := { s0.clk with offset } }
  let c := s.clk
  let a := offset.natAbs
  if c.alertUs * 1000 < a ∧ c.everLocked = false ∧ c.state = .acquiring then
    updateTq (setClk .unlocked (applyUtc { s with clk := { c with take := c.source, source := .none, lastSrc := c.source, incrTarget := c.incrFreq } }))
  else
    let s1 := raiseIf (decide (c.alertUs * 1000 < a) && c.everLocked) 0x0308 2 (leInt 8 offset ++ leBytes 8 (a / c.slewPpm)) none s
    let s2 := servoRate offset s1
    let s3 := match c.state with
      | .acquiring =>
        let r := if a < 100 then c.lockRun + 1 else 0
        let t := { s2 with clk := { s2.clk with lockRun := r } }
        if 16 ≤ r then raise 0x0301 0 (BitVec.ofNat 8 c.source.num :: leInt 8 offset) none (setClk .locked t) else t
      | .locked =>
        let r := if 1000 ≤ a then c.unlockRun + 1 else 0
        let t := { s2 with clk := { s2.clk with unlockRun := r } }
        if 4 ≤ r then setClk .acquiring t else t
      | _ => s2
    updateTq s3

/-- The first update of a source that is taken (R75): a step from UNLOCKED, slew in every other state. After a loss the old source of
TIME-SOURCE-CHANGED is 0, as the source field then reads (DESIGN CHOICE, log entry 61). -/
def switchSrc (x : Src) (offset : Int) (s : State) : State :=
  let old := if s.clk.source = .none then s.clk.lastSrc else s.clk.source
  let par : Bytes := BitVec.ofNat 8 s.clk.source.num :: BitVec.ofNat 8 x.num :: leInt 8 offset
  let s1 := applyUtc (bump 0x03000108 { s with clk := { s.clk with source := x, take := .none, better := none, lastSrc := old } })
  if s.clk.state = .unlocked then
    let new := ((taiNs s : Int) - offset).toNat
    raise 0x0304 1 par none (runStep 0 255 new s1.clk.frac { s1 with clk := { s1.clk with offset } })
  else
    let s2 := raise 0x0304 1 par none s1
    let s3 := if s.clk.state = .holdover ∨ (s.clk.state = .locked ∧ 100 ≤ offset.natAbs) then setClk .acquiring s2
      else { s2 with clk := { s2.clk with lockRun := 0 } }
    selectSrc (servo offset s3)

/-- A servo update of a source: its offset, device time minus source time. -/
def servoUpdate (x : Src) (offset : Int) (s0 : State) : State :=
  if qualifies s0 x = false then s0
  else
    let s := selectSrc s0
    if s.clk.take = x ∧ s.clk.source ≠ x then switchSrc x offset s
    else if s.clk.source = x ∧ (s.clk.state = .acquiring ∨ s.clk.state = .locked) then servo offset s
    else s

/-! ### Leap seconds (R90, R91) -/

/-- TAI second of the end of the current UTC day. -/
def dayEnd (s : State) : Nat :=
  let utc := ((s.clk.sec.toNat : Int) - s.clk.utcOffset).toNat
  (((utc / 86400 + 1) * 86400 : Nat) + s.clk.utcOffset).toNat

/-- A leap second is announced: origin 0 PTP, 1 IRIG, 2 command. -/
def announceLeap (deletion : Bool) (tai origin : Nat) (s : State) : State :=
  if s.clk.leap.any (fun l => decide (l.tai = tai ∧ l.deletion = deletion)) then s
  else raise 0x030A 1 ((if deletion then 1 else 0) :: leBytes 8 tai ++ [BitVec.ofNat 8 origin]) none
        { s with clk := { s.clk with leap := some ⟨tai, deletion, origin⟩, leapPending := false } }

/-- While PTP is active with a valid offset its flags alone say whether a leap second is announced (R88); one whose instant has come
stands until it is applied. -/
def ptpLeap (leap61 leap59 : Bool) (s : State) : State :=
  if s.clk.leap.any (fun l => decide (leapInstant l ≤ s.clk.sec.toNat)) then s
  else if leap61 then announceLeap false (dayEnd s) 0 s
  else if leap59 then announceLeap true (dayEnd s) 0 s
  else { s with clk := { s.clk with leap := none, leapPending := false } }

/-! ### PTP (R81 to R84) -/

/-- IEEE 1588 comparison of two masters: whether the first is better. -/
def betterMaster (a b : AnnounceMsg) : Bool :=
  let ka := [a.priority1.toNat, a.gmClass.toNat, a.gmAccuracy.toNat, a.gmVariance.toNat, a.priority2.toNat, a.gmId.toNat, a.stepsRemoved.toNat, a.srcId.toNat]
  let kb := [b.priority1.toNat, b.gmClass.toNat, b.gmAccuracy.toNat, b.gmVariance.toNat, b.priority2.toNat, b.gmId.toNat, b.stepsRemoved.toNat, b.srcId.toNat]
  decide (ka < kb)

/-- What the registers show of the active master, and the states of the two ports: SLAVE 9, PASSIVE 7, LISTENING 4. -/
def showMaster (s : State) : State :=
  let k := ptpFirst s
  let st (p : Nat) : BitVec 4 :=
    match (getPtp s p).master with
    | none => 4
    | some _ => if p = slaveOf s then 9 else 7
  let c := { s.clk with portA := st k, portB := st (k + 1) }
  match (getPtp s (slaveOf s)).master with
  | some m => { s with clk := { c with gmId := m.gmId, gmClass := m.gmClass, gmAccuracy := m.gmAccuracy, gmVariance := m.gmVariance
                                       stepsRemoved := m.stepsRemoved, pathDelay := (getPtp s (slaveOf s)).delay } }
  | none => { s with clk := { c with gmId := 0, gmClass := 255, gmAccuracy := 0xFE, gmVariance := 0xFFFF, stepsRemoved := 0, pathDelay := 0 } }

/-- A port no longer has a qualified master (R83): the other port becomes SLAVE where it has one, else PTP is lost. -/
def demote (k : Nat) (s : State) : State :=
  let s1 := setPtp k { getPtp s k with qual := false } s
  if k ≠ slaveOf s then showMaster (if qualifies s1 .ptp then s1 else loseSrc .ptp s1)
  else
    let o := if s.clk.slavePort then ptpFirst s else ptpFirst s + 1
    if (getPtp s1 o).qual then showMaster (applyUtc { s1 with clk := { s1.clk with slavePort := !s.clk.slavePort } })
    else showMaster (loseSrc .ptp s1)

/-- A port gains a qualified master. -/
def promote (k : Nat) (s : State) : State :=
  let other := if k = ptpFirst s then ptpFirst s + 1 else ptpFirst s
  let s1 := setPtp k { getPtp s k with qual := true } s
  let s2 := if (getPtp s other).qual then s1 else { s1 with clk := { s1.clk with slavePort := decide (k ≠ ptpFirst s) } }
  showMaster (applyUtc (selectSrc s2))

/-- flagField of a message: two-step on Sync and Pdelay_Resp; on Announce the PTP timescale, the validity of currentUtcOffset, which is held
to be valid while TIME_VALID is 1, and the leap second that is announced (R81, R84, log entry 43). -/
def ptpFlags (c : ClkBlk) (typ : Nat) : Nat :=
  if typ = 0 ∨ typ = 3 then 0x0200
  else if typ = 11 then
    8 + (if c.timeValid then 4 else 0) + (match c.leap with
      | some l => if l.deletion then 2 else 1
      | none => 0)
  else 0

/-- clockIdentity of a port: its MAC address as an EUI-64. -/
def clockIdent (s : State) (k : Nat) : Bytes :=
  let mac := (portMac s k).toNat
  beBytes 3 (mac / 2 ^ 24) ++ [0xFF, 0xFE] ++ beBytes 3 (mac % 2 ^ 24)

/-- A PTP message of the device (IEEE 1588 header, log entry 43), its type, sequence and body, in its Ethernet frame (Table 3.3). -/
def ptpMsg (s : State) (k typ seq : Nat) (body : Bytes) : Bytes :=
  beBytes 6 ptpAddr.toNat ++ beBytes 6 (portMac s k).toNat ++ [0x88, 0xF7] ++
  [BitVec.ofNat 8 typ, 2] ++ beBytes 2 (34 + body.length) ++ [s.clk.domain, 0] ++ beBytes 2 (ptpFlags s.clk typ) ++
  List.replicate 12 0 ++ clockIdent s k ++ beBytes 2 1 ++ beBytes 2 seq ++
  [(if typ = 0 then 0 else if typ = 8 then 2 else 5), (if typ = 0 ∨ typ = 11 ∨ typ = 2 ∨ typ = 8 then 0 else 0x7F)] ++ body

/-- A timestamp of ten octets. -/
def ptpTime (ns : Nat) : Bytes := beBytes 6 (ns / 1000000000) ++ beBytes 4 (ns % 1000000000)

/-- Send a PTP message: kinds 0 Sync, 1 Announce, 2 Follow_Up, 3 Pdelay_Req, 4 Pdelay_Resp, 5 its Follow_Up. -/
def sendPtp (k kind : Nat) (body : Bytes) (s : State) : State :=
  sendOwn { cls := .c1, port := k, pair := false, prp := false, len := body.length, launch := none
            tsReq := decide (kind = 0 ∨ kind = 3 ∨ kind = 4), owner := .ptp k kind, body } s

/-- The clockClass a field master announces (R84). -/
def announcedClass (s : State) : Nat :=
  match s.clk.state with
  | .locked => 6
  | .holdover => if s.clk.tq.toNat ≤ 4 then 7 else 52
  | .acquiring => 52
  | .unlocked => 248

/-- Announce body of a field master (R84): the grandmaster is the active PTP master, or else the device itself (log entry 43). -/
def announceBody (s : State) (k : Nat) : Bytes :=
  let far := decide (s.clk.source = .ptp)
  ptpTime 0 ++ beBytes 2 (s.clk.utcOffset % 65536).toNat ++ [0, 128, BitVec.ofNat 8 (announcedClass s), 0xFE, 0xFF, 0xFF, 128] ++
  (if far then beBytes 8 s.clk.gmId.toNat ++ beBytes 2 (s.clk.stepsRemoved.toNat + 1) else clockIdent s k ++ beBytes 2 0) ++
  [if far then 0x20 else 0xA0]

end Sys2Proof.Machine
end

