-- ==== Sys2Proof/Machine/Clock.lean ====
section
/-!
DEFINITION. The commands and events of group 0x03 (03_timebase.md): the device clock, its sources, the grid-angle clock and timed actions.
-/

namespace Sys2Proof.Machine

/-! ### Configuration -/

/-- What a change of pair or domain, or of the enables, discards (R80, R82). -/
def dropSources (moved : Bool) (s : State) : State :=
  let c := s.clk
  let s1 := if moved then showMaster { s with clk := { c with ptpPorts := c.ptpPorts.filter (fun e => decide (4 ≤ e.1)), slavePort := false } }
    else if c.srcEn.getLsbD 0 then s
    else showMaster { s with clk := { c with ptpPorts := tmap (fun _ p => { p with qual := false, annPrev := none, master := none }) c.ptpPorts } }
  let s2 := if c.srcEn.getLsbD 1 then s1 else { s1 with clk := { s1.clk with ppsQual := false, ppsRun := 0, ppsAcc := none } }
  let s3 := if c.srcEn.getLsbD 2 then s2 else { s2 with clk := { s2.clk with irigQual := false, irigRun := 0, irigSec := none } }
  if s3.clk.source ≠ .none ∧ qualifies s3 s3.clk.source = false then loseSrc s3.clk.source s3 else noneLeft (selectSrc (applyUtc s3))

/-- TIME_SOURCE_CONFIG (R80, R82, R100). -/
def execTimeSourceConfig (h : Hdr) (p : TimeSourceConfigP) (s : State) : Out :=
  .next (vci (cmd 0x0301 .control false 8) h
    (fun _ => decide (p.srcEn.toNat < 8 ∧ p.pair.toNat < 2 ∧ p.domain.toNat < 128 ∧ 6 ≤ p.classLimit.toNat ∧ p.srcHoldoff.toNat ≤ 600 ∧ p.rsv = 0))
    (fun t =>
      let c := t.clk
      let moved := decide (c.pair ≠ decide (p.pair = 1) ∨ c.domain ≠ p.domain)
      done (dropSources moved { t with clk := { c with srcEn := p.srcEn.setWidth 3, pair := decide (p.pair = 1), domain := p.domain
                                                       classLimit := p.classLimit, srcHoldoff := p.srcHoldoff.toNat, fMaster := p.fMaster } })) s)

/-- The phase term in INCR_TARGET is confined to the slew bound (R77). -/
def confineSlew (c : ClkBlk) : ClkBlk :=
  let f := c.incrFreq.toNat
  let b := ppmLsb c.slewPpm
  { c with incrTarget := BitVec.ofNat 40 (max (f - b) (min (f + b) c.incrTarget.toNat)) }

/-- TIME_SLEW_CONFIG (R77): the new bound holds from the commit. -/
def execTimeSlewConfig (h : Hdr) (p : TimeSlewConfigP) (s : State) : Out :=
  .next (vci (cmd 0x0302 .control false 8) h
    (fun _ => decide (1 ≤ p.slewPpm.toNat ∧ p.slewPpm.toNat ≤ 500 ∧ p.rsv = 0 ∧ 1 ≤ p.alertUs.toNat ∧ p.alertUs.toNat ≤ 1000000))
    (fun t => done { t with clk := confineSlew { t.clk with slewPpm := p.slewPpm.toNat, alertUs := p.alertUs.toNat } }) s)

/-- TIME_HOLDOVER_CONFIG (R87). -/
def execTimeHoldoverConfig (h : Hdr) (p : TimeHoldoverConfigP) (s : State) : Out :=
  .next (vci (cmd 0x0303 .control false 4) h
    (fun _ => decide (1 ≤ p.holdPpb.toNat ∧ p.holdPpb.toNat ≤ 10000 ∧ 1 ≤ p.e0Ns.toNat ∧ p.e0Ns.toNat ≤ 10000))
    (fun t => done (updateTq { t with clk := { t.clk with holdPpb := p.holdPpb.toNat, e0Ns := p.e0Ns.toNat } })) s)

/-- TIME_UTC_OFFSET (R88, R90, R100). -/
def execTimeUtcOffset (h : Hdr) (p : TimeUtcOffsetP) (s : State) : Out :=
  .next (vci (cmd 0x0304 .control false 12) h
    (fun t => decide (p.utcOffset.toNat ≤ 255 ∧ p.leap.toNat < 3 ∧ p.rsv = 0 ∧
      (if p.leap = 0 then p.leapTaiS = 0 else ((p.leapTaiS.toNat : Int) - t.clk.utcOffset) % 86400 = 0)))
    (fun t =>
      if t.clk.source = .ptp ∧ t.clk.ptpUtcValid then refuse .busy t
      else
        let t1 := applyUtc { t with clk := { t.clk with utcSet := (p.utcOffset.toNat : Int) } }
        if p.leap = 0 then done { t1 with clk := { t1.clk with leap := none, leapPending := false } }
        else done (announceLeap (decide (p.leap = 2)) p.leapTaiS.toNat 2 t1)) s)

/-- Within 2 s of a leap second instant (R79). -/
def nearLeap (s : State) : Bool :=
  let near (x : Nat) : Bool := decide (absDiff (taiNs s) (x * 1000000000) ≤ 2000000000)
  (match s.clk.leap with
   | some l => near (leapInstant l)
   | none => false) || (s.clk.leapOccurred && near (s.clk.occurredEnd - 86400))

/-- The time a TIME-STEP gives (R79 step 3). -/
def stepTarget (p : TimeStepP) (s : State) : Int :=
  if p.mode = 0 then ((p.taiS.toNat * 1000000000 + p.taiNs.toNat : Nat) : Int) else (taiNs s : Int) + p.deltaNs.toInt

/-- TIME_STEP (R79, R100): a long command of 100 ms. A mode 1 whose target lies outside the clock's range is BAD-PARAM (DESIGN CHOICE, log
entry 61). -/
def execTimeStep (h : Hdr) (p : TimeStepP) (s : State) : Out :=
  .next (vci (cmdLong 0x0305 .control false 24) h
    (fun t => decide (p.mode.toNat < 2 ∧ p.rsv = 0 ∧ (if p.mode = 0 then p.taiS.toNat < 2 ^ 48 ∧ p.taiNs.toNat < 1000000000 else p.deltaNs ≠ 0) ∧
      0 ≤ stepTarget p t ∧ stepTarget p t < (2 ^ 48 * 1000000000 : Nat)))
    (fun t =>
      if nearLeap t then refuse .busy t
      else
        let (id, t1) := startLong h 0x0305 100 t
        ⟨.accepted, [], { t1 with clk := { t1.clk with steps := t1.clk.steps ++ [⟨id, h.part, p⟩] } }⟩) s)

/-- TIME_STEP_APPLY (R79): the oldest step that waits. -/
def execTimeStepApply (s : State) : Out :=
  .next (match s.clk.steps with
    | [] => s
    | r :: rest =>
      let old := taiNs s
      let new := (stepTarget r.p s % (2 ^ 48 * 1000000000 : Nat)).toNat
      let s1 := runStep 1 r.part.val new (if r.p.mode = 0 then 0 else s.clk.frac) { s with clk := { s.clk with steps := rest } }
      completeLong r.long .ok (leBytes 8 old ++ leBytes 8 new) s1)

/-- TIME_READ (R74). -/
def execTimeRead (h : Hdr) (s : State) : Out :=
  .next (vci (cmd 0x0308 .openC true 0) h (fun _ => true)
    (fun t =>
      let c := t.clk
      doneWith (leBytes 8 c.sec.toNat ++ leBytes 4 c.ns.toNat ++ leBytes 2 (c.frac.toNat / 65536) ++ [BitVec.ofNat 8 c.state.num, BitVec.ofNat 8 c.tq.toNat] ++
        leInt 2 c.utcOffset ++ [0, 0]) t) s)

/-! ### PTP -/

/-- An Announce of a PTP port's pair and domain (R80, R81, Table 3.2). -/
def takeAnnounce (k : Nat) (m : AnnounceMsg) (s : State) : State :=
  let st := getPtp s k
  let same : Bool := match st.master with
    | some o => decide (o.srcId = m.srcId ∧ o.srcPort = m.srcPort)
    | none => false
  let beats : Bool := match st.master with
    | some o => betterMaster m o
    | none => true
  let ok := decide (m.gmClass.toNat ≤ s.clk.classLimit.toNat) && s.clk.srcEn.getLsbD 0
  let s1 :=
    if same then
      let two := decide (elNs s ≤ st.annEl + 4000000000)
      let s2 := setPtp k { st with master := some m, annPrev := some st.annEl, annEl := elNs s } s
      if st.qual ∧ ok = false then demote k s2
      else if st.qual = false ∧ ok ∧ two then promote k s2
      else s2
    else if beats then
      let s2 := if st.qual then demote k s else s
      setPtp k { getPtp s2 k with master := some m, annPrev := none, annEl := elNs s, qual := false } s2
    else s
  if k ≠ slaveOf s1 then showMaster s1
  else
    let s2 := showMaster (applyUtc s1)
    if s2.clk.source = .ptp ∧ s2.clk.ptpUtcValid ∧ (same ∨ beats) then ptpLeap m.leap61 m.leap59 s2 else s2

/-- The TLVs that the device reads: alternate time offset indicators and organization extensions, the profile's and IEEE C37.238's; it
ignores the others (Table 3.3, log entry 43). -/
def readTlvs (l : List (U16 × Bytes)) : List (U16 × Bytes) :=
  l.filter (fun t => decide (t.1 = 0x0009) || (decide (t.1 = 0x0003) && decide (t.2.take 3 = [0x1C, 0x12, 0x9D])))

/-- A port of the PTP pair. -/
def isPtpPort (s : State) (k : Nat) : Bool := decide (k = ptpFirst s ∨ k = ptpFirst s + 1)

/-- A field port that is a PTP master (R84). -/
def isMasterPort (s : State) (k : Nat) : Bool := isField k && s.clk.fMaster.getLsbD (k - 4)

/-- PTP_ANNOUNCE_RX (R80 to R84). -/
def execPtpAnnounceRx (port : BitVec 4) (m : AnnounceMsg) (s : State) : Out :=
  let k := port.toNat
  let s1 := popIn k .c1 s
  .next (if readerHeld s k .c1 then s
    else if isMasterPort s k then bump 0x03000148 s1
    else if s.dev.boot = .ready ∧ isPtpPort s k ∧ m.domain = s.clk.domain ∧ m.ptpTimescale then
      takeAnnounce k { m with tlvs := readTlvs m.tlvs } s1
    else s1)

/-- PTP_SYNC_RX (R75, R82): the SLAVE port's master gives the offset. -/
def execPtpSyncRx (port : BitVec 4) (m : SyncMsg) (s : State) : Out :=
  let k := port.toNat
  let s1 := popIn k .c1 s
  let from_ : Bool := match (getPtp s k).master with
    | some o => decide (o.srcId = m.srcId ∧ o.srcPort = m.srcPort)
    | none => false
  .next (if readerHeld s k .c1 then s
    else if s.dev.boot = .ready ∧ k = slaveOf s ∧ (getPtp s k).qual ∧ from_ ∧ m.domain = s.clk.domain then
      let src : Nat := m.originS.toNat * 1000000000 + m.originNs.toNat + m.correctionNs.toNat + (getPtp s k).delay.toNat + m.ageNs.toNat +
        (getPort s k).rxLatNs.toNat
      servoUpdate .ptp ((taiNs s : Int) - (src : Int)) s1
    else s1)

/-- PDELAY_REQ_RX (R82, R84): answered on the ports of the pair and on master ports. -/
def execPdelayReqRx (m : PdelayReq) (s : State) : Out :=
  let k := m.port.toNat
  let s1 := popIn k .c1 s
  .next (if readerHeld s k .c1 then s
    else if s.dev.boot = .ready ∧ (isPtpPort s k ∨ isMasterPort s k) then
      sendPtp k 4 (ptpMsg s k 3 m.seq.toNat (ptpTime (taiNs s - m.ageNs.toNat - (getPort s k).rxLatNs.toNat) ++ beBytes 8 m.srcId.toNat ++ beBytes 2 m.srcPort.toNat)) s1
    else s1)

/-- PDELAY_RESP_RX (R82): half of what the exchange took beyond the responder's turnaround. -/
def execPdelayRespRx (m : PdelayResp) (s : State) : Out :=
  let k := m.port.toNat
  let s1 := popIn k .c1 s
  let v := getPtp s k
  .next (if readerHeld s k .c1 then s else match v.reqTs with
    | some t1 =>
      if isPtpPort s k ∧ m.seq = v.pdelaySeq then
        let d := (taiNs s - m.ageNs.toNat - (getPort s k).rxLatNs.toNat - t1 - m.turnNs.toNat) / 2
        showMaster (setPtp k { v with delay := BitVec.ofNat 32 d, reqTs := none } s1)
      else s1
    | none => s1)

/-- An instant a second after the last has come. -/
def secondDue (s : State) (l : Option Nat) : Bool := match l with
  | some t => decide (t + 1000000000 ≤ elNs s)
  | none => true

/-- PDELAY_REQ_TX (R82, Table 3.3): each second on each port of the pair. -/
def execPdelayReqTx (port : BitVec 4) (s : State) : Out :=
  let k := port.toNat
  let v := getPtp s k
  .next (if s.dev.boot = .ready ∧ isPtpPort s k ∧ (getPort s k).link ∧ secondDue s v.reqEl then
      let q := v.pdelaySeq + 1
      sendPtp k 3 (ptpMsg s k 2 q.toNat (List.replicate 20 0)) (setPtp k { v with pdelaySeq := q, reqEl := some (elNs s), reqTs := none } s)
    else s)

/-- PTP_MASTER_TX (R84): each second on a master port, Announce and two-step Sync. -/
def execPtpMasterTx (port : BitVec 4) (s : State) : Out :=
  let k := port.toNat
  let v := getPtp s k
  .next (if s.dev.boot = .ready ∧ isMasterPort s k ∧ (getPort s k).link ∧ secondDue s v.masterEl then
      let s1 := setPtp k { v with announceSeq := v.announceSeq + 1, syncSeq := v.syncSeq + 1, masterEl := some (elNs s) } s
      let s2 := sendPtp k 1 (ptpMsg s k 11 (v.announceSeq + 1).toNat (announceBody s k)) s1
      sendPtp k 0 (ptpMsg s k 0 (v.syncSeq + 1).toNat (ptpTime 0)) s2
    else s)

/-- ANNOUNCE_RECEIPT_TIMEOUT (R83, Table 3.2): three intervals without an Announce of the port's master. -/
def execAnnounceReceiptTimeout (port : BitVec 4) (s : State) : Out :=
  let k := port.toNat
  let v := getPtp s k
  .next (match v.master with
    | some m =>
      if isPtpPort s k ∧ v.annEl + 3000000000 ≤ elNs s then
        let s1 := raise 0x0305 1 (BitVec.ofNat 8 k :: leBytes 8 m.gmId.toNat) none (bump 0x03000110 s)
        let s2 := setPtp k { v with master := none, annPrev := none } s1
        if v.qual then demote k s2 else showMaster s2
      else s
    | none => s)

/-! ### PPS_IN and IRIG_IN -/

/-- PPS_IN_EDGE (R80, R85). -/
def execPpsInEdge (s : State) : Out :=
  let c := s.clk
  let now := taiNs s
  let close : Bool := match c.ppsEdge with
    | some t => decide (elNs s < t + 500000000)
    | none => false
  let s0 := { s with clk := { c with ppsEdge := some (elNs s) } }
  .next (if s.dev.boot ≠ .ready then s
    else if close then bump 0x03000138 s0
    else
      let near : Bool := match c.ppsAcc with
        | some t => decide (absDiff now (t + 1000000000) < 100000)
        | none => false
      let s1 := if c.ppsQual ∧ near = false then loseSrc .pps { s0 with clk := { s0.clk with ppsQual := false } } else s0
      let run := if near then c.ppsRun + 1 else 1
      let s2 := { s1 with clk := { s1.clk with ppsAcc := some now, ppsAccEl := elNs s, ppsRun := run } }
      let q := s2.clk.ppsQual || (decide (4 ≤ run) && c.timeValid && c.srcEn.getLsbD 1)
      if q then
        let s3 := selectSrc { s2 with clk := { s2.clk with ppsQual := true, ppsLast := BitVec.ofNat 64 now } }
        servoUpdate .pps ((now : Int) - (((now + 500000000) / 1000000000 * 1000000000 : Nat) : Int)) s3
      else s2)

/-- PPS_IN_LOSS (Table 3.2): no accepted edge for 1.5 s. -/
def execPpsInLoss (s : State) : Out :=
  .next (if s.clk.ppsQual ∧ s.clk.ppsAccEl + 1500000000 ≤ elNs s then
      loseSrc .pps { s with clk := { s.clk with ppsQual := false, ppsRun := 0 } }
    else s)

/-- Days from 1970-01-01 to a day of a year. -/
def dayNumber (y doy : Nat) : Nat := 365 * (y - 1970) + (y - 1969) / 4 - (y - 1901) / 100 + (y - 1601) / 400 + (doy - 1)

/-- Seconds of UTC that a frame describes in a year, its local offset added (R86; DESIGN CHOICE, log entry 61). The BCD time of day counts
where straight binary seconds are carried too (log entry 44). -/
def irigUtc (f : IrigFrame) (y : Nat) : Int :=
  let t : Nat := dayNumber y f.day.toNat * 86400 + f.hours.toNat * 3600 + f.minutes.toNat * 60 + f.seconds.toNat
  match f.ext with
  | some (off, _, _) => (t : Int) + off.toInt * 1800
  | none => (t : Int)

/-- TAI second of a frame, with the year it gives, or else the one nearest to the device clock (R86); none where no year is known. -/
def irigTai (f : IrigFrame) (s : State) : Option Nat :=
  let off : Int := match f.extUtc with
    | some u => u.toInt
    | none => s.clk.utcOffset
  match f.year.orElse (fun _ => f.extYear) with
  | some y => some (irigUtc f (2000 + y.toNat) + off).toNat
  | none =>
    if s.clk.timeValid = false then none
    else
      let dev : Int := s.clk.sec.toNat
      let y0 := 1970 + s.clk.sec.toNat / 31556952
      let c (y : Nat) : Int := irigUtc f y + off
      let pick (a b : Int) : Int := if (b - dev).natAbs < (a - dev).natAbs then b else a
      some (pick (pick (c (y0 - 1)) (c y0)) (c (y0 + 1))).toNat

/-- IRIG_FRAME (R80, R86, R88, R90). -/
def execIrigFrame (f : IrigFrame) (s : State) : Out :=
  let c := s.clk
  .next (if s.dev.boot ≠ .ready then s
    else if f.good = false then bump 0x03000140 s
    else
      -- without a year the count goes by the seconds of the frame's own year
      let known := irigTai f s
      let sec := known.getD (irigUtc f 1970).toNat
      let nxt : Bool := match c.irigSec with
        | some x => decide (sec = x + 1)
        | none => false
      let s1 := if c.irigQual ∧ nxt = false then loseSrc .irig { s with clk := { c with irigQual := false } } else s
      let run := if nxt then c.irigRun + 1 else 1
      let s2 := { s1 with clk := { s1.clk with irigSec := some sec, irigRun := run, irigEl := elNs s, irigLast := some f } }
      if s2.clk.irigQual ∨ (3 ≤ run ∧ known.isSome ∧ c.srcEn.getLsbD 2) then
        let u := match f.extUtc with
          | some x => x.toInt
          | none => s2.clk.utcSet
        let s3 := applyUtc (selectSrc { s2 with clk := { s2.clk with irigQual := true, utcSet := u } })
        let s4 := match f.ext with
          | some (_, true, del) => if s3.clk.ptpUtcValid ∨ s3.clk.leap.isSome then s3 else announceLeap del (dayEnd s3) 1 s3
          | _ => s3
        servoUpdate .irig ((taiNs s : Int) - (f.ageNs.toNat : Int) - ((sec * 1000000000 : Nat) : Int)) s4
      else s2)

/-- IRIG_LOSS (Table 3.2): no valid frame for 2 s. -/
def execIrigLoss (s : State) : Out :=
  .next (if s.clk.irigQual ∧ s.clk.irigEl + 2000000000 ≤ elNs s then loseSrc .irig { s with clk := { s.clk with irigQual := false, irigRun := 0 } } else s)

/-- SRC_HOLDOFF_EXPIRY (R80): the source is taken at its next update. -/
def execSrcHoldoffExpiry (s : State) : Out :=
  .next (match s.clk.better with
    | some (x, t) =>
      if t ≤ elNs s then
        if qualifies s x then { s with clk := { s.clk with take := x, better := none } } else { s with clk := { s.clk with better := none } }
      else s
    | none => s)

/-- TQ_BAND_ELAPSED (R87): in HOLDOVER, and for STAT bits 5–4 since leaving LOCKED. -/
def execTqBandElapsed (s : State) : Out := .next (if s.dev.boot = .ready then updateTq s else s)

/-! ### Leap seconds -/

/-- LEAP_PENDING_START (R90). -/
def execLeapPendingStart (s : State) : Out :=
  .next (match s.clk.leap with
    | some l =>
      if leapInstant l ≤ s.clk.sec.toNat + 60 then { s with clk := { s.clk with leapPending := true, leapDir := l.deletion } } else s
    | none => s)

/-- LEAP_APPLIED (R90, R91). -/
def execLeapApplied (s : State) : Out :=
  .next (match s.clk.leap with
    | some l =>
      if leapInstant l ≤ s.clk.sec.toNat then
        let d : Int := if l.deletion then -1 else 1
        let u := s.clk.utcOffset + d
        raise 0x030B 1 (leInt 2 u) none { s with clk := { s.clk with leap := none, leapPending := false, leapOccurred := true, leapDir := l.deletion
                                                                     occurredEnd := leapInstant l + 86400, utcOffset := u, utcSet := s.clk.utcSet + d } }
      else s
    | none => s)

/-- LEAP_OCCURRED_END (R90): 24 h after the instant. -/
def execLeapOccurredEnd (s : State) : Out :=
  .next (if s.clk.leapOccurred ∧ s.clk.occurredEnd ≤ s.clk.sec.toNat then { s with clk := { s.clk with leapOccurred := false } } else s)

/-! ### PPS_OUT (R99) -/

/-- PPS_OUT_CONFIG. -/
def execPpsOutConfig (h : Hdr) (p : PpsOutConfigP) (s : State) : Out :=
  .next (vci (cmd 0x0307 .control false 4) h (fun _ => decide (p.enable.toNat < 2 ∧ p.rsv = 0 ∧ 1 ≤ p.widthMs.toNat ∧ p.widthMs.toNat ≤ 500))
    (fun t => done { t with clk := { t.clk with ppsOutEn := decide (p.enable = 1), widthMs := p.widthMs.toNat
                                                ppsOut := t.clk.ppsOut && decide (p.enable = 1) } }) s)

/-- PPS_OUT_RISE: in the first cycle of a TAI second. -/
def execPpsOutRise (s : State) : Out :=
  .next (if s.clk.timeValid ∧ s.clk.ppsOutEn ∧ s.clk.ns.toNat ≤ 2 ∧ s.clk.ppsRiseSec ≠ some s.clk.sec.toNat then
      { s with clk := { s.clk with ppsOut := true, ppsRiseEl := elNs s, ppsRiseSec := some s.clk.sec.toNat } }
    else s)

/-- PPS_OUT_FALL: width_ms after the rise. -/
def execPpsOutFall (s : State) : Out :=
  .next (if s.clk.ppsOut ∧ s.clk.ppsRiseEl + s.clk.widthMs * 1000000 ≤ elNs s then { s with clk := { s.clk with ppsOut := false } } else s)

/-! ### The grid-angle clock (3.6) -/

/-- GA_CONFIG (R94). -/
def execGaConfig (h : Hdr) (p : GaConfigP) (s : State) : Out :=
  .next (vci (cmd 0x0306 .control false 4) h
    (fun _ => decide (p.refEn.toNat < 2 ∧ p.refMp.toNat < 16 ∧ p.fNom.toNat < 2 ∧ 1 ≤ p.gaSlew.toNat ∧ p.gaSlew.toNat ≤ 50))
    (fun t =>
      let c := t.clk
      let new := decide (p.refEn = 0 ∨ c.gaRefMp ≠ p.refMp.toNat ∨ c.gaRefEn = false ∨ c.gaFNom60 ≠ decide (p.fNom = 1))
      let t1 := { t with clk := { c with gaRefEn := decide (p.refEn = 1), gaRefMp := p.refMp.toNat, gaFNom60 := decide (p.fNom = 1), gaSlew := p.gaSlew.toNat } }
      done (if new then gaToNominal 4 t1 else t1)) s)

/-- Counting resumes at the first cycle that starts after PFAIL_N has risen (R303): an OUTAGE for every enabled metering point, and a save
within 1 s. -/
def eqResume (s : State) : State :=
  match s.eq.tf, s.eq.riseEl, s.eq.resume with
  | some t, some r, none =>
    if r ≤ elNs s then
      let now := taiNs s
      let s1 := { s with eq := { s.eq with resume := some now, riseEl := none, saveSoon := true } }
      let (t1, gs) := s1.sage.mps.foldl (fun (acc : State × List GapEntry) e =>
        if e.2.enable then
          let (u, g) := enterGap e.1 .outage 0 t now 0 qZero false false (modEq e.1 (fun v => { v with bootEl := elNs acc.1 }) acc.1)
          (u, acc.2 ++ g.toList)
        else acc) (s1, [])
      outageEvent gs t1
    else s
  | _, _, _ => s

/-- GA_TICK (R92 to R96): the tick carries its device-clock timestamp, which is that of its instant (R17). The samples of the reference decide its states, a reference that delivers none that is settled is lost. -/
def execGaTick (ts : U64) (s : State) : Out :=
  .next (if s.dev.boot ≠ .ready ∨ gaDue s = false ∨ ts ≠ BitVec.ofNat 64 (taiNs s) then s
    else
      let n := s.clk.gaCount + 1
      let half := decide (n.toNat % 128 = 0)
      let cycle := decide (n.toNat % 256 = 0)
      let s1 := { s with clk := { s.clk with gaCount := n, gaLastTs := BitVec.ofNat 64 (taiNs s), gaLastEl := elNs s } }
      let s2 := if s1.clk.gaState ≠ .nominal ∧ gaSettled s1 = false then gaToNominal 3 s1 else s1
      if half then
        let k := s2.clk.gaHalves + 1
        let mark : GaMark := { idx := k, ts := taiNs s, el := elNs s, nominal := decide (s2.clk.gaState ≠ .locked) }
        let s3 := { s2 with clk := { s2.clk with gaHalves := k, gaMarks := (mark :: s2.clk.gaMarks).take 512 } }
        if cycle then eqResume s3 else s3
      else s2)

/-! ### Timed actions (3.7) -/

/-- Fire timed triggers and announcement starts that are due. -/
def fireTimed : List TimedAct → State → State
  | [], s => s
  | a :: t, s =>
    match a.kind with
    | .trigger c e => fireTimed t (fireTimedEntry c e a.launch s)
    | .announcement e n => fireTimed t (annEntry e n false s)

/-- TIMED_ACTION_FIRE (R98): every action whose launch time the clock has reached. -/
def execTimedActionFire (s : State) : Out :=
  .next (if s.clk.timeValid = false then s
    else
      let due := s.clk.timed.filter (fun a => decide (a.launch ≤ taiNs s))
      let s1 := { s with clk := { s.clk with timed := s.clk.timed.filter (fun a => decide (taiNs s < a.launch)) } }
      fireTimed due (fireFrames s1))

/-! ### Transmission ends (R129) -/

/-- What the end of a frame's first bit to last gives its owner. -/
def ownerSent (k r stamp : Nat) (f : TxFrame) (s : State) : State :=
  match f.owner with
  | .ptp p 0 => sendPtp p 2 (ptpMsg s p 8 (getPtp s p).syncSeq.toNat (ptpTime stamp)) s
  | .ptp p 3 => setPtp p { getPtp s p with reqTs := some stamp } s
  | .ptp p 4 => sendPtp p 5 (ptpMsg s p 10 (beNat ((f.body.drop 44).take 2)) (ptpTime stamp ++ (f.body.drop 58).take 10)) s
  | .alarm n goose m =>
    let s1 := bump (if goose then 0x08000160 else 0x08000158) s
    let s2 := match m with
      | some x => measureC0 (if goose then 2 else 1) n x stamp s1
      | none => s1
    -- the elapsed instant of the first bit; the repeats of a RAISE follow the earlier of a pair's two
    let bit := elNs s - (taiNs s - stamp)
    { s2 with alm := { s2.alm with repeats := s2.alm.repeats.map (fun x =>
        if x.ref = r ∧ x.sent = 0 ∧ goose = false then { x with baseEl := some (x.baseEl.elim bit (fun b => min b bit)) } else x) } }
  | _ => let _ := k; s

/-- The redundancy control trailer of a copy (IEC 62439-3, R108): sequence number, LanId of its port, LSDUsize, which counts the padding and
the trailer, and the suffix. -/
def rctBytes (k : Nat) (f : TxFrame) : Bytes :=
  let head := if (f.body.drop 12).take 2 = [0x81, 0x00] then 18 else 14
  match f.rctSeq with
  | some q => beBytes 2 q.toNat ++ beBytes 2 ((if k % 2 = 1 then 0xB000 else 0xA000) + (f.wireLen - 4 - head)) ++ [0x88, 0xFB]
  | none => []

/-- A copy as it has gone out on a port. -/
def sentFrame (k : Nat) (f : TxFrame) : SentFrame :=
  let rct := rctBytes k f
  { port := k, owner := f.owner, to_ := f.to_, body := f.body, pad := f.wireLen - 4 - rct.length - f.len, rct }

/-- TX_COMPLETE (R109, R117, R122, R129): the frame on the wire of a port has gone, or met a late collision. -/
def execTxComplete (port : BitVec 4) (lateColl : Bool) (s : State) : Out :=
  let k := port.toNat
  let p := getPort s k
  .next (match p.wire with
    | none => s
    | some (r, at16) =>
      let s1 := setPort k { p with wire := none, backoff := none } s
      match getFrame s r with
      | none => tryStart k s1
      | some f =>
        let late := lateColl && isField k
        let held := p.tsq.any (fun e => decide (e.ref = r))
        let second := f.pair && decide (k = f.port + 1)
        let s2 := modFrame r (fun x =>
          let y := if held ∧ late = false then (if second then { x with stampB := at16, tsB := true } else { x with stampA := at16, tsA := true }) else x
          if late then { y with status := Sts.busy.w } else y) s1
        let s3 := if late then bump (portCnt k 0xA8) (bump (portCnt k 0xB0) (flagFrame r (fun x => { x with lateColl := true }) s2))
          else
            let t := bumpBy (portCnt k 0x18) f.wireLen (bump (portCnt k 0x10) s2)
            ownerSent k r (at16 / 65536) f { t with net := { t.net with sent := (sentFrame k f :: t.net.sent).take 64 } }
        releaseHeld k (tryStart k (finishCopy r s3)))

end Sys2Proof.Machine
end

