-- ==== Sys2Proof/Machine/Counters.lean ====
section
/-!
DEFINITION. COUNTER-CLEAR (R50): which aperture offsets name counters, group by group, and the clearing of them. A register word that holds
maxima which COUNTER-CLEAR sets (the tables' column "Set by") is named by the word's offset, and all its maxima clear (log entry 9).
-/

namespace Sys2Proof.Machine

/-- One of n words of 8 B from a base. -/
def inRun (off base n : Nat) : Bool := decide (base ≤ off ∧ off < base + 8 * n ∧ (off - base) % 8 = 0)

/-- One of n words from `start` in one of `count` entries of `stride` bytes. -/
def inArr (off base stride count start n : Nat) : Bool :=
  decide (base ≤ off ∧ off < base + stride * count) && inRun ((off - base) % stride) start n

/-- Whether an offset of a group names a counter: Tables 2.15, 3.8, 4.9 to 4.11, 5.12, 5.13, 6.10, 6.11, 7.9, 7.10, 8.9, 8.10, 8.13, 9.12
to 9.14, 10.7 to 10.9, 11.5, 11.7, 12.11 to 12.14, 13.12 to 13.15, 14.5 to 14.7, R392, 15.5 to 15.7, 16.5, 17.8, 17.9 and 18.6. Energy
state, ROLLOVERS, OWED, residuals (R293) and the persistent counts (R442) are none. `first` is the first stream record that window
table 0 of group 0x05 shows. -/
def isCounter (first g off : Nat) : Bool :=
  match g with
  | 1 => inRun off 0x100 1
  | 2 => inArr off 0x100 0x100 4 0x40 9
  | 3 => inRun off 0x100 10
  | 4 => inArr off 0 0x4000 13 0x100 25 || inArr off 0 0x4000 13 0x10 1 || inArr off 0x40000 0x100 2 0x40 7 ||
         inArr off 0x40000 0x100 2 0x08 2
  | 5 => inRun off 0x100 15 || (inArr off 0x800000 128 32768 64 8 || decide (0x800000 ≤ off ∧ off < 0xC00000 ∧ off % 128 = 60)) &&
         decide (first + (off - 0x800000) / 128 < 262144)
  | 6 => inRun off 0x08 1 || inRun off 0x100 4 || inArr off 0x1000 0x100 20 0x38 1 || inArr off 0x1000 0x100 20 0x80 15 ||
         inArr off 0x10000 128 256 64 5
  | 7 => inRun off 0x100 16 || inArr off 0x100000 128 4096 88 2
  | 8 => inRun off 0x60 2 || inRun off 0x100 17 || inArr off 0x1B0000 128 16 72 1
  | 9 => inRun off 0x30 1 || inRun off 0x100 9 || inArr off 0x100000 256 64 112 11
  | 10 => inRun off 0x100 2 || inArr off 0x10000 0x100 16 0x80 3 || inArr off 0x20000 0x80 96 0x40 4
  | 11 => inRun off 0x100 6 || inArr off 0x10000 0x200 16 0xC0 7 || inArr off 0x30000 0x40 32 0x20 2
  | 12 => inRun off 0x100 7 || inArr off 0x10000 0x100 8 0x40 2 || inArr off 0x100000 256 1024 112 16 || inArr off 0x200000 32 64 16 1
  | 13 => inRun off 0x100 6 || inArr off 0x10000 0x100 16 0x40 3 || inArr off 0x20000 0x400 128 0x200 6 ||
          inArr off 0x40000 0x200 32 320 5
  | 14 => inRun off 0x50 1 || inRun off 0x100 11 || inArr off 0x10000 0x40 64 0 3 || inArr off 0x20000 0x20 128 0 1 ||
          inArr off 0x20000 0x20 128 0x10 1 || inArr off 0x100000 64 16384 56 1 || inArr off 0x200000 64 16384 0 8 ||
          inArr off 0x310000 0x20 18 8 3
  | 15 => inRun off 0x100 15 || inArr off 0x10000 0x20 64 0x10 2 || inArr off 0x100000 128 1024 48 5
  | 16 => inRun off 0x100 10
  | 17 => inRun off 0x18 1 || inRun off 0x100 9
  | _ => false

/-- Clear a value whose offset is chosen. -/
def clr (f : Nat → Bool) (off v : Nat) : Nat := if f off then 0 else v

/-- Clear the counters of a group that are held by absolute address. -/
def clearCnt (g : Nat) (f : Nat → Bool) (s : State) : State :=
  { s with cnt := tkeep (fun a _ => !(decide (a / 0x1000000 = g) && f (a % 0x1000000))) s.cnt }

/-- A pair: its maxima; a clear of the group arms PRP-SKEW again (R115). -/
def clearPair (f : Nat → Bool) (base : Nat) (p : Pair) : Pair :=
  { p with dupDMax := clr f (base + 8) p.dupDMax, dupRaised := p.dupRaised && !f (base + 8)
           skewMaxUs := clr f (base + 0x10) p.skewMaxUs, skewHigh := false }

/-- A stream record of the window (Table 5.13). -/
def clearStream (f : Nat → Bool) (o : Nat) (v : Stream) : Stream :=
  { v with latMaxUs := clr f (o + 60) v.latMaxUs, frames := clr f (o + 64) v.frames, dupDiscard := clr f (o + 72) v.dupDiscard
           malformed := clr f (o + 80) v.malformed, chkErr := clr f (o + 88) v.chkErr, noCfg := clr f (o + 96) v.noCfg
           offGrid := clr f (o + 104) v.offGrid, poisoned := clr f (o + 112) v.poisoned, cfgRx := clr f (o + 120) v.cfgRx }

/-- A publication (Table 6.11). -/
def clearPub (f : Nat → Bool) (o : Nat) (v : Pub) : Pub :=
  { v with frames := clr f (o + 64) v.frames, incomplete := clr f (o + 72) v.incomplete, skipped := clr f (o + 80) v.skipped
           patchRecs := clr f (o + 88) v.patchRecs, latePatch := clr f (o + 96) v.latePatch }

/-- A capture (Table 9.14). -/
def clearCap (f : Nat → Bool) (o : Nat) (v : Cap) : Cap :=
  { v with triggers := clr f (o + 112) v.triggers, early := clr f (o + 120) v.early, retrig := clr f (o + 128) v.retrig
           retrigLate := clr f (o + 136) v.retrigLate, holdoff := clr f (o + 144) v.holdoff, recFull := clr f (o + 152) v.recFull
           records := clr f (o + 160) v.records, rowLost := clr f (o + 168) v.rowLost, streamSkip := clr f (o + 176) v.streamSkip
           patchAfterRec := clr f (o + 184) v.patchAfterRec, marksLost := clr f (o + 192) v.marksLost }

/-- A kernel (Table 13.15). -/
def clearKern (f : Nat → Bool) (o : Nat) (v : Kern) : Kern :=
  { v with runs := clr f (o + 320) v.runs, trigDrop := clr f (o + 328) v.trigDrop, trigIdle := clr f (o + 336) v.trigIdle
           outSkip := clr f (o + 344) v.outSkip, faults := clr f (o + 352) v.faults }

/-- A node (Table 15.7). -/
def clearNode (f : Nat → Bool) (o : Nat) (v : Node) : Node :=
  { v with responses := clr f (o + 48) v.responses, missed := clr f (o + 56) v.missed, dup := clr f (o + 64) v.dup
           micFail := clr f (o + 72) v.micFail, dlFail := clr f (o + 80) v.dlFail }

/-- What a removed node's record keeps. -/
def clearLeft (f : Nat → Bool) (o : Nat) (v : NodeLeft) : NodeLeft :=
  { v with responses := clr f (o + 48) v.responses, missed := clr f (o + 56) v.missed, dup := clr f (o + 64) v.dup
           micFail := clr f (o + 72) v.micFail, dlFail := clr f (o + 80) v.dlFail }

/-- A task and its wait histogram (Table 14.7, R392). -/
def clearTask (f : Nat → Bool) (t : Nat) (v : Task) : Task :=
  { v with dispatches := clr f (0x100000 + t * 64 + 56) v.dispatches
           hist := tkeep (fun b _ => !f (0x200000 + t * 64 + 8 * b)) v.hist }

/-- Groups 0x0E's queues, core loads and producers (Table 14.6). -/
def clearYar (f : Nat → Bool) (y : YarBlk) : YarBlk :=
  { y with expiryLagMax := clr f 0x50 y.expiryLagMax
           queues := tmap (fun q v => { v with depthMax := clr f (0x10000 + q * 0x40) v.depthMax
                                               enqueued := clr f (0x10000 + q * 0x40 + 8) v.enqueued
                                               pended := clr f (0x10000 + q * 0x40 + 16) v.pended }) y.queues
           loads := tmap (fun n v => { v with busyMax := clr f (0x20000 + n * 0x20) v.busyMax
                                              overAlert := clr f (0x20000 + n * 0x20 + 16) v.overAlert }) y.loads
           producers := tmap (fun n v => { v with stalls := clr f (0x310000 + n * 0x20 + 8) v.stalls
                                                  stallNs := clr f (0x310000 + n * 0x20 + 16) v.stallNs
                                                  stallMaxNs := clr f (0x310000 + n * 0x20 + 24) v.stallMaxNs }) y.producers
           tasks := tmap (fun t v => clearTask f t v) y.tasks }

/-- Clear the counters of a group whose offsets are chosen, at one commit point (R50). A stream record has an offset only while window
table 0 shows it, but a clear of the whole group reaches every record. -/
def clearGroup (first : Nat) (whole : Bool) (g : Nat) (f : Nat → Bool) (s0 : State) : State :=
  let s := clearCnt g f s0
  match g with
  | 4 => { s with net := { s.net with pair0 := clearPair f 0x40000 s.net.pair0, pair1 := clearPair f 0x40100 s.net.pair1
                                      ports := tmap (fun k v => { v with occHwm := clr f (k * 0x4000 + 0x10) v.occHwm }) s.net.ports } }
  | 5 => { s with ing := { s.ing with streams := tmap (fun n v =>
             if whole || decide (first ≤ n ∧ n < first + 32768) then clearStream f (0x800000 + (n - first) * 128) v else v) s.ing.streams } }
  | 6 => { s with aln := { s.aln with
             usedHwm := clr f 8 s.aln.usedHwm
             grids := tmap (fun n v => { v with finalLagMaxUs := clr f (0x1000 + n * 0x100 + 0x38) v.finalLagMaxUs }) s.aln.grids
             pubs := tmap (fun n v => clearPub f (0x10000 + n * 128) v) s.aln.pubs } }
  | 7 => { s with osc := { s.osc with slots := tmap (fun n v =>
             { v with steps := clr f (0x100000 + n * 128 + 88) v.steps, skipped := clr f (0x100000 + n * 128 + 96) v.skipped }) s.osc.slots } }
  | 8 => { s with alm := { s.alm with
             latMaxPin := clr f 0x60 s.alm.latMaxPin, latMaxFrame := clr f 0x60 s.alm.latMaxFrame
             latMaxGoose := clr f 0x68 s.alm.latMaxGoose, latMaxSag := clr f 0x68 s.alm.latMaxSag
             stages := tmap (fun n v => { v with changes := if f (0x1B0000 + n * 128 + 72) then 0 else v.changes }) s.alm.stages } }
  | 9 => { s with cap := { s.cap with poolHwm := clr f 0x30 s.cap.poolHwm
                                      caps := tmap (fun n v => clearCap f (0x100000 + n * 256) v) s.cap.caps } }
  | 12 => { s with voc := { s.voc with
              chans := tmap (fun n v => { v with cnt := v.cnt.mapIdx (fun i c => clr f (0x100000 + n * 256 + 112 + 8 * i) c) }) s.voc.chans
              anns := tmap (fun n v => { v with plays := clr f (0x200000 + n * 32 + 16) v.plays }) s.voc.anns } }
  | 13 => { s with sor := { s.sor with kernels := tmap (fun n v => clearKern f (0x40000 + n * 0x200) v) s.sor.kernels } }
  | 14 => { s with yar := clearYar f s.yar }
  | 15 => { s with cf := { s.cf with
              chans := tmap (fun n v => { v with superframes := clr f (0x10000 + n * 0x20 + 0x10) v.superframes
                                                 dwellLimited := clr f (0x10000 + n * 0x20 + 0x18) v.dwellLimited }) s.cf.chans
              nodes := tmap (fun n v => clearNode f (0x100000 + n * 128) v) s.cf.nodes
              left := tmap (fun n v => clearLeft f (0x100000 + n * 128) v) s.cf.left } }
  | 17 => { s with pop := { s.pop with bufHwm := clr f 0x18 s.pop.bufHwm } }
  | _ => s

/-- The first record that window table 0 of group 0x05 shows a partition. -/
def streamFirst (s : State) (p : HP) : Nat := tgetD (getPart s p).windows (5 * 256) 0

/-- COUNTER-CLEAR (R50). -/
def execCounterClear (h : Hdr) (p : CounterClearP) (s : State) : Out :=
  .next (vci (cmd 0x0102 .control false 8) h
    (fun t => decide (p.rsv = 0 ∧ 1 ≤ p.group.toNat ∧ p.group.toNat ≤ 0x11 ∧ p.scope.toNat ≤ 1 ∧
      (p.scope = 0 ∨ isCounter (streamFirst t h.part) p.group.toNat p.offset.toNat = true)))
    (fun t =>
      let f : Nat → Bool := if p.scope = 0 then fun _ => true else fun o => decide (o = p.offset.toNat)
      done (raise 0x0110 1 ([BitVec.ofNat 8 h.part.val, p.group, p.scope] ++ leBytes 4 p.offset.toNat) none
        (clearGroup (streamFirst t h.part) (decide (p.scope = 0)) p.group.toNat f t))) s)

end Sys2Proof.Machine
end

