-- ==== Sys2Proof/Machine/Inflate.lean ====
section
/-!
DEFINITION. The inflater of the Dill engine (R418: RFC 1951 and RFC 1950), fed one byte at a time so that its state carries over from one
segment to the next (R420).
-/

namespace Sys2Proof.Machine

/-- The number that n bits spell, first bit least significant, and the bits after them. -/
def takeBits : Nat → List Bool → Option (Nat × List Bool)
  | 0, l => some (0, l)
  | _ + 1, [] => none
  | n + 1, b :: t => (takeBits n t).map (fun (v, r) => ((if b then 1 else 0) + 2 * v, r))

/-- What reading a Huffman code gives. -/
inductive SymR where
  | stall | bad
  | sym (n : Nat) (rest : List Bool)
  deriving DecidableEq, Repr

/-- How many of a set of lengths are l. -/
def lensOf (lens : List Nat) (l : Nat) : Nat := (lens.filter (fun x => decide (x = l))).length

/-- Symbols of a canonical code in the order of their codes. -/
def codeSyms (lens : List Nat) : List Nat :=
  (List.range 15).flatMap (fun l => (lens.zipIdx.filter (fun x => decide (x.1 = l + 1))).map (·.2))

/-- Read a code bit by bit, with the counts of the lengths still to come. -/
def huffGo (syms : List Nat) : List Nat → Nat → Nat → Nat → List Bool → SymR
  | [], _, _, _, _ => .bad
  | _ :: _, _, _, _, [] => .stall
  | c :: cs, code, first, index, b :: t =>
    let k := code + (if b then 1 else 0)
    if k < first + c then
      match syms[index + (k - first)]? with
      | some n => .sym n t
      | none => .bad
    else huffGo syms cs (k * 2) ((first + c) * 2) (index + c) t

/-- Read one symbol of the code with the given lengths. -/
def huffSym (lens : List Nat) (bits : List Bool) : SymR :=
  huffGo (codeSyms lens) ((List.range 15).map (fun l => lensOf lens (l + 1))) 0 0 0 bits

/-- Codes left after giving out those of each length; none where a length has too many. -/
def codesLeft (lens : List Nat) : Option Nat :=
  (List.range 15).foldl (fun acc l => acc.bind (fun left =>
    let n := lensOf lens (l + 1)
    if left * 2 < n then none else some (left * 2 - n))) (some 1)

/-- A set of lengths is a code: complete, without a code, or with a single code of one bit. -/
def codeOk (lens : List Nat) : Bool :=
  let used := (lens.filter (fun x => decide (x ≠ 0))).length
  (codesLeft lens).elim false (fun n => decide (n = 0 ∨ used = 0 ∨ (used = 1 ∧ lensOf lens 1 = 1)))

/-- Lengths of the fixed codes. -/
def fixedLit : List Nat := List.replicate 144 8 ++ List.replicate 112 9 ++ List.replicate 24 7 ++ List.replicate 8 8
def fixedDist : List Nat := List.replicate 32 5

/-- What reading the header of a dynamic block gives. -/
inductive DynR where
  | stall | bad
  | ok (lit dist : List Nat) (rest : List Bool)
  deriving DecidableEq, Repr

/-- Order of the code length codes. -/
def clOrder : List Nat := [16, 17, 18, 0, 8, 7, 9, 6, 10, 5, 11, 4, 12, 3, 13, 2, 14, 1, 15]

/-- Read n three-bit lengths. -/
def readTriples : Nat → List Bool → Option (List Nat × List Bool)
  | 0, l => some ([], l)
  | n + 1, l => (takeBits 3 l).bind (fun (v, r) => (readTriples n r).map (fun (vs, r2) => (v :: vs, r2)))

/-- Read the code lengths of both codes: `want` in all, newest first in `acc`. -/
def readLens (cl : List Nat) (want : Nat) : Nat → List Nat → List Bool → DynR
  | 0, _, _ => .bad
  | fuel + 1, acc, bits =>
    if acc.length = want then .ok acc.reverse [] bits
    else match huffSym cl bits with
      | .stall => .stall
      | .bad => .bad
      | .sym n r =>
        if n < 16 then readLens cl want fuel (n :: acc) r
        else
          match takeBits (if n = 16 then 2 else if n = 17 then 3 else 7) r with
          | none => .stall
          | some (x, r2) =>
            let k := x + (if n = 18 then 11 else 3)
            if want < acc.length + k ∨ (n = 16 ∧ acc = []) then .bad
            else readLens cl want fuel (List.replicate k (if n = 16 then acc.headD 0 else 0) ++ acc) r2

/-- Read the header of a dynamic block. -/
def dynHeader (bits : List Bool) : DynR :=
  match takeBits 14 bits with
  | none => .stall
  | some (x, r) =>
    let (nl, nd, nc) := (x % 32 + 257, x / 32 % 32 + 1, x / 1024 + 4)
    if 286 < nl then .bad
    else match readTriples nc r with
      | none => .stall
      | some (ts, r2) =>
        let cl := (List.range 19).map (fun s => ((clOrder.zip ts).find? (fun e => decide (e.1 = s))).elim 0 (·.2))
        if codesLeft cl ≠ some 0 then .bad
        else match readLens cl (nl + nd) (nl + nd + 1) [] r2 with
          | .ok ls _ r3 =>
            let (lit, dist) := (ls.take nl, ls.drop nl)
            if codeOk lit && codeOk dist && decide (lit.getD 256 0 ≠ 0) then .ok lit dist r3 else .bad
          | x => x

/-- Base length and extra bits of length symbol 257 + k. -/
def lenCode (k : Nat) : Nat × Nat :=
  if k < 8 then (k + 3, 0) else if k < 28 then ((4 + k % 4) * 2 ^ (k / 4 - 1) + 3, k / 4 - 1) else (258, 0)

/-- Base distance and extra bits of distance symbol k. -/
def distCode (k : Nat) : Nat × Nat := if k < 2 then (k + 1, 0) else ((2 + k % 2) * 2 ^ (k / 2 - 1) + 1, k / 2 - 1)

/-- The inflater: where it stands, bits not consumed, history, Adler-32, and the bytes put out since it was fed. -/
structure Infl where
  inf : InfState
  bits : List Bool
  hist : Bytes
  a : Nat
  b : Nat
  zlib : Bool
  /-- Newest first. -/
  out : Bytes
  deriving DecidableEq, Repr

/-- Put one byte out. -/
def Infl.put (z : Infl) (x : Byte) : Infl :=
  let a := (z.a + x.toNat) % 65521
  { z with hist := (x :: z.hist).take 32768, a, b := (z.b + a) % 65521, out := x :: z.out }

/-- Copy n bytes from a distance. -/
def Infl.copy (d : Nat) : Nat → Infl → Infl
  | 0, z => z
  | n + 1, z => Infl.copy d n (z.put (z.hist.getD (d - 1) 0))

/-- One step of the inflater: it needs more bits, finds a stream error (cause of Table 16.9), or goes on. -/
inductive InfR where
  | stall
  | fail (cause : Nat)
  | go (z : Infl)
  deriving DecidableEq, Repr

/-- Where a block ends. -/
def Infl.blockEnd (z : Infl) (final : Bool) : Infl :=
  { z with inf := if final then (if z.zlib then .trailer else .ended) else .header }

/-- Bits from the next byte boundary on. -/
def Infl.aligned (z : Infl) : List Bool := z.bits.drop (z.bits.length % 8)

/-- A literal, a match or the end of a block. -/
def infSym (z : Infl) (lit dist : List Nat) (final : Bool) : InfR :=
  match huffSym lit z.bits with
  | .stall => .stall
  | .bad => .fail 2
  | .sym n r =>
    if n < 256 then .go ({ z with bits := r }.put (BitVec.ofNat 8 n))
    else if n = 256 then .go ({ z with bits := r }.blockEnd final)
    else if 285 < n then .fail 2
    else
      let (base, ext) := lenCode (n - 257)
      match takeBits ext r with
      | none => .stall
      | some (x, r2) =>
        match huffSym dist r2 with
        | .stall => .stall
        | .bad => .fail 2
        | .sym k r3 =>
          if 30 ≤ k then .fail 3
          else
            let (db, de) := distCode k
            match takeBits de r3 with
            | none => .stall
            | some (y, r4) =>
              if z.hist.length < db + y then .fail 3 else .go (Infl.copy (db + y) (base + x) { z with bits := r4 })

/-- One step. -/
def infStep (z : Infl) : InfR :=
  match z.inf with
  | .ended => .stall
  | .zlibHeader =>
    match takeBits 16 z.bits with
    | none => .stall
    | some (x, r) =>
      let (cmf, flg) := (x % 256, x / 256)
      if cmf % 16 = 8 ∧ cmf / 16 ≤ 7 ∧ flg / 32 % 2 = 0 ∧ (cmf * 256 + flg) % 31 = 0 then .go { z with bits := r, inf := .header } else .fail 4
  | .header =>
    match takeBits 3 z.bits with
    | none => .stall
    | some (x, r) =>
      let final := decide (x % 2 = 1)
      if x / 2 = 3 then .fail 1
      else if x / 2 = 1 then .go { z with bits := r, inf := .huff fixedLit fixedDist final }
      else if x / 2 = 2 then
        match dynHeader r with
        | .stall => .stall
        | .bad => .fail 2
        | .ok lit dist r2 => .go { z with bits := r2, inf := .huff lit dist final }
      else
        match takeBits 32 ({ z with bits := r }.aligned) with
        | none => .stall
        | some (y, r2) =>
          if y % 65536 + y / 65536 = 65535 then .go { z with bits := r2, inf := .stored (y % 65536) final } else .fail 1
  | .stored 0 final => .go (z.blockEnd final)
  | .stored (n + 1) final =>
    match takeBits 8 z.bits with
    | none => .stall
    | some (x, r) => .go ({ z with bits := r, inf := .stored n final }.put (BitVec.ofNat 8 x))
  | .huff lit dist final => infSym z lit dist final
  | .trailer =>
    match takeBits 32 z.aligned with
    | none => .stall
    | some (x, _) =>
      let got := x % 256 * 2 ^ 24 + x / 2 ^ 8 % 256 * 2 ^ 16 + x / 2 ^ 16 % 256 * 2 ^ 8 + x / 2 ^ 24
      if got = z.b * 65536 + z.a then .go { z with bits := [], inf := .ended } else .fail 5

/-- Steps until the bits run out. -/
def infRun : Nat → Infl → Infl × Option Nat
  | 0, z => (z, none)
  | n + 1, z =>
    match infStep z with
    | .stall => (z, none)
    | .fail c => (z, some c)
    | .go z' => infRun n z'

/-- Bits of a byte, least significant first. -/
def byteBits (x : Byte) : List Bool := (List.range 8).map (fun i => x.getLsbD i)

/-- Feed one byte. -/
def infFeed (z : Infl) (x : Byte) : Infl × Option Nat :=
  let z1 := { z with bits := z.bits ++ byteBits x, out := [] }
  infRun (z1.bits.length * 2 + 8) z1

/-- Where a run of bytes leaves the inflater: its state, the output newest first, bytes consumed, and how it stopped. -/
structure InfOut where
  z : Infl
  out : Bytes
  used : Nat
  stop : Option (DillSt × Nat)
  deriving DecidableEq, Repr

/-- Feed bytes under an output limit (R424): `lim c` is the limit after c bytes of the job's input, of which `inB` came before; `room` is
the total output so far. A byte whose output would pass the limit is not consumed, and output up to the limit before it is delivered. -/
def infBytes (lim : Nat → Nat) (inB room : Nat) : InfOut → Bytes → InfOut
  | o, [] => o
  | o, x :: t =>
    if o.z.inf = .ended then o
    else
      let (z, e) := infFeed o.z x
      let c := inB + o.used
      let total := room + o.out.length + z.out.length
      match e with
      | some cause => { z, out := (z.out.reverse.take (lim (c + 1) - (room + o.out.length))).reverse ++ o.out, used := o.used + 1, stop := some (.streamErr, cause) }
      | none =>
        if lim (c + 1) < total then
          let more := lim c - (room + o.out.length)
          { o with out := (z.out.reverse.take more).reverse ++ o.out, stop := some (.limit, 7) }
        else infBytes lim inB room { z, out := z.out ++ o.out, used := o.used + 1, stop := none } t

end Sys2Proof.Machine
end

