-- ==== Sys2Proof/Machine/DillOps.lean ====
section
/-!
DEFINITION. Operations of the Dill engine (16_compression.md): segments through a pipeline, output segments, and job switching.
-/

namespace Sys2Proof.Machine

def getJob (s : State) (j : Nat) : Option Job := tget s.dill.jobs j
def modJob (j : Nat) (f : Job → Job) (s : State) : State := { s with dill := { s.dill with jobs := tmod s.dill.jobs j f } }

/-- The job in a pipeline. -/
def pipeJob (s : State) (decomp : Bool) : Option Nat := if decomp then s.dill.decomp else s.dill.comp
def setPipe (decomp : Bool) (v : Option Nat) (s : State) : State :=
  if decomp then { s with dill := { s.dill with decomp := v } } else { s with dill := { s.dill with comp := v } }

def DillSt.sts : DillSt → Sts
  | .ok => .ok
  | .poisoned => .poisoned
  | .streamErr => .badParam
  | .limit => .expansionLimit
  | .notSmaller => .notSmaller

/-- Adler-32 over bytes, from its two sums. -/
def adlerOver (a b : Nat) : Bytes → Nat × Nat
  | [] => (a, b)
  | x :: t => let a' := (a + x.toNat) % 65521; adlerOver a' ((b + a') % 65521) t

def Job.adler (v : Job) : Nat := v.adlerB * 65536 + v.adlerA

/-- Complete descriptors of a ring through the first marked LAST. -/
def completeChain (p : HP) (n : Nat) (st : Sts) : Nat → State → State
  | 0, s => s
  | k + 1, s =>
    match (getRing s p n).bind (fun r => r.owned.head?) with
    | none => s
    | some d =>
      let s1 := completeDesc p n st 0 [] s
      if d.last then s1 else completeChain p n st k s1

/-- Whole segments that a ring's descriptors hold. -/
def chainsIn (s : State) (p : HP) (n : Nat) : Nat := (getRing s p n).elim 0 (fun r => (r.owned.filter (fun d => d.last)).length)

def completeSegment (v : Job) (st : Sts) (s : State) : State :=
  completeChain v.owner v.inRing st ((getRing s v.owner v.inRing).elim 0 (fun r => r.owned.length)) s

/-! ### The data of a segment -/

/-- zlib header of a level (R418). -/
def zlibHead (level : Nat) : Bytes :=
  let x := 0x7800 + level * 64
  beBytes 2 (x + (31 - x % 31) % 31)

/-- The trailer (Table 16.2). -/
def segTrailer (g : Segment) (used unused : Nat) (st : DillSt) (ended : Bool) : Bytes :=
  leBytes 8 g.tag.toNat ++ leBytes 4 used ++ leBytes 2 st.sts.num ++ [BitVec.ofNat 8 (min unused 255), if ended then 1 else 0]

/-- A segment through the compressor (R418, R420, R423). -/
def compressSegment (v : Job) (g : Segment) (s : State) : Job × Emit × State :=
  let (next, raw) := Config.deflate v.comp v.effort g.data g.flush g.final
  let (a, b) := adlerOver v.adlerA v.adlerB g.data
  let out := (if v.zlib ∧ v.inf = .zlibHeader then zlibHead v.effort else []) ++ raw ++ (if v.zlib ∧ g.final then beBytes 4 (b * 65536 + a) else [])
  if v.inTotal ≠ 0 ∧ v.inTotal ≤ v.outBytes + out.length then
    let (x, s1) := fresh s
    let used := v.taken + x % (g.data.length - v.taken + 1)
    let data := out.take (v.inTotal - v.outBytes)
    let (a', b') := adlerOver v.adlerA v.adlerB (g.data.take used)
    ({ v with adlerA := a', adlerB := b', inBytes := v.inBytes + used, outBytes := v.outBytes + data.length, notSmaller := true },
     { data, trailer := segTrailer g used 0 .notSmaller false, st := .notSmaller, cause := some 8, final := false }, s1)
  else
    let w := { v with comp := next, adlerA := a, adlerB := b, inf := .header, inBytes := v.inBytes + g.data.length
                      outBytes := v.outBytes + out.length }
    let st : DillSt := if g.final ∧ v.inTotal = 0 ∧ w.inBytes ≤ w.outBytes then .notSmaller else .ok
    (w, { data := out, trailer := segTrailer g g.data.length 0 st g.final, st, cause := none, final := g.final }, s)

/-- The output limit of a job after c bytes of input (R424). -/
def outLimit (v : Job) (c : Nat) : Nat := if v.absLimit then v.limitBytes else v.ratio * c + 65536

/-- A segment through the inflater (R420, R424, R425). -/
def inflateSegment (v : Job) (g : Segment) : Job × Emit :=
  let z : Infl := { inf := v.inf, bits := v.bits, hist := v.hist, a := v.adlerA, b := v.adlerB, zlib := v.zlib, out := [] }
  let o := infBytes (outLimit v) v.inBytes v.outBytes { z, out := [], used := 0, stop := none } g.data
  let ended := decide (o.z.inf = .ended)
  let stop := match o.stop with
    | some x => some x
    | none => if g.final && !ended then some (DillSt.streamErr, 6) else none
  let st := (stop.map (·.1)).getD .ok
  ({ v with inf := o.z.inf, bits := o.z.bits, hist := o.z.hist, adlerA := o.z.a, adlerB := o.z.b, inBytes := v.inBytes + o.used
            outBytes := v.outBytes + o.out.length },
   { data := o.out.reverse, trailer := segTrailer g o.used (if ended then g.data.length - o.used else 0) st (g.final && stop.isNone), st
     cause := stop.map (·.2), final := g.final })

/-- The inflater stops, or comes to the end of its stream, within some of a segment. -/
def stopsIn (v : Job) (data : Bytes) : Bool :=
  let z : Infl := { inf := v.inf, bits := v.bits, hist := v.hist, a := v.adlerA, b := v.adlerB, zlib := v.zlib, out := [] }
  let o := infBytes (outLimit v) v.inBytes v.outBytes { z, out := [], used := 0, stop := none } data
  v.decomp && (o.stop.isSome || decide (o.z.inf = .ended))

/-- The head segment has been taken in as far as its stream goes: its output segment is ready to write. -/
def segmentDone (j : Nat) (v : Job) (g : Segment) (s : State) : State :=
  let (w, e, s1) :=
    if g.poisoned then
      (v, { data := [], trailer := segTrailer g 0 0 .poisoned false, st := .poisoned, cause := some 0, final := false : Emit }, s)
    else if v.decomp then let (w, e) := inflateSegment v g; (w, e, s)
    else compressSegment v g s
  bumpBy 0x10000118 (w.outBytes - v.outBytes) (bumpBy 0x10000110 (w.inBytes - v.inBytes - v.taken)
    (modJob j (fun _ => { w with emit := some e, taken := 0, pendingIn := v.pendingIn.drop 1 }) s1))

/-! ### Output (R421) -/

/-- Write an output segment over posted buffers: what is left of it, or none when its LAST buffer is complete. -/
def writeOut (p : HP) (n : Nat) : Nat → Emit → State → Option Emit × State
  | 0, e, s => (some e, s)
  | k + 1, e, s =>
    match (getRing s p n).bind (fun r => r.owned.head?) with
    | none => (some e, s)
    | some d =>
      let room := d.len.toNat
      if e.data.length + 16 ≤ room then (none, completeDesc p n e.st.sts (e.data.length + 16) (e.data ++ e.trailer) s)
      else if e.data = [] then writeOut p n k e (completeDesc p n .ok 0 [] s)
      else
        let now := e.data.take room
        writeOut p n k { e with data := e.data.drop room } (completeDesc p n .ok now.length now s)

/-- Complete the input of the segments that wait, when the job has ended. -/
def refuseRest (v : Job) (s : State) : State :=
  v.pendingIn.foldl (fun t _ => completeSegment v (if v.notSmaller then .notSmaller else .busy) t) s

/-- The parameters of DILL-JOB-DONE and DILL-JOB-FAILED. -/
def jobDone (j : Nat) (v : Job) (st : Sts) (s : State) : State :=
  raise 0x1001 0 (BitVec.ofNat 8 j :: leBytes 2 st.num ++ leBytes 8 v.inBytes ++ leBytes 8 v.outBytes ++ leBytes 4 v.adler) (some v.owner) s

def jobFailed (j : Nat) (v : Job) (st : Sts) (cause : Nat) (s : State) : State :=
  raise 0x1002 2 (BitVec.ofNat 8 j :: leBytes 2 st.num ++ [BitVec.ofNat 8 cause] ++ leBytes 8 v.inBytes ++ leBytes 8 v.outBytes)
    (some v.owner) s

/-- The output segment is complete (Tables 16.3 and 16.5). -/
def segmentEnd (j : Nat) (v : Job) (e : Emit) (s : State) : State :=
  let s1 := bump 0x10000108 (completeSegment v (if e.cause.isSome then e.st.sts else .ok) s)
  let w := { v with emit := none, status := e.st.sts.w, segments := v.segments + 1 }
  let s2 := bumpIf (decide (e.st = .notSmaller)) 0x10000128 (bumpIf (decide (e.st = .limit)) 0x10000130
    (bumpIf (decide (e.st = .streamErr)) 0x10000138 (bumpIf (decide (e.st = .poisoned)) 0x10000140 s1)))
  match e.cause with
  | some c =>
    let x := { w with state := .failed, pendingIn := [] }
    jobFailed j x e.st.sts c (refuseRest w (setPipe v.decomp none (modJob j (fun _ => x) s2)))
  | none =>
    if e.final then
      let x := { w with state := .done, pendingIn := [] }
      jobDone j x e.st.sts (refuseRest w (setPipe v.decomp none (modJob j (fun _ => x) s2)))
    else modJob j (fun _ => w) s2

/-- Write as much of a job's output segment as posted buffers take; a job that finds none waits. -/
def pushOut (j : Nat) (v : Job) (e : Emit) (s : State) : State :=
  let s0 := match v.waitEl with
    | some t => bumpBy 0x10000148 (elNs s - t) s
    | none => s
  if (getPart s v.owner).link = false then modJob j (fun x => { x with waitEl := some (elNs s) }) s0
  else
    let n := (getRing s v.owner v.outRing).elim 0 (fun r => r.owned.length)
    match writeOut v.owner v.outRing n e s0 with
    | (some e', s1) => modJob j (fun x => { x with emit := some e', waitEl := some (elNs s) }) s1
    | (none, s1) => segmentEnd j { v with waitEl := none } e s1

/-! ### The pipelines (R422) -/

/-- A job has input for its pipeline, or output that it waits to write. -/
def Job.ready (v : Job) : Bool := decide (v.state = .idle ∨ v.state = .running) && !v.closeReq && (v.pendingIn ≠ [] || v.emit.isSome)

/-- Another job of the pipeline has pending input. -/
def otherReady (s : State) (j : Nat) (decomp : Bool) : Bool :=
  tany (fun k v => decide (k ≠ j ∧ v.decomp = decomp) && v.ready) s.dill.jobs

/-- Run the job a pipeline holds to its next switch point: the end of a segment, the quantum, or a wait for buffers. -/
def runJob (j : Nat) : Nat → State → State
  | 0, s => s
  | n + 1, s =>
    match getJob s j with
    | none => s
    | some v =>
      if v.ready = false then s
      else
        match v.emit with
        | some e =>
          let s1 := pushOut j v e s
          match getJob s1 j with
          | some w => if w.emit.isSome ∨ otherReady s1 j v.decomp then s1 else runJob j n s1
          | none => s1
        | none =>
          match v.pendingIn with
          | [] => s
          | g :: _ =>
            let left := g.data.length - v.taken
            let quantum := s.dill.quantumKib * 1024 - v.ran
            if g.poisoned = false ∧ otherReady s j v.decomp ∧ quantum < left ∧ stopsIn v (g.data.take (v.taken + quantum)) = false then
              bumpBy 0x10000110 quantum (modJob j (fun x => { x with taken := v.taken + quantum, ran := v.ran + quantum }) s)
            else runJob j n (segmentDone j { v with ran := v.ran + left } g s)

/-- A pipeline takes up a job. -/
def takeUp (j : Nat) (s : State) : State :=
  match getJob s j with
  | none => s
  | some v =>
    let fuel := 2 * v.pendingIn.length + 2
    runJob j fuel (setPipe v.decomp (some j) (modJob j (fun x => { x with state := .running, ran := 0, lastRunEl := elNs s }) s))

/-- The job a pipeline leaves is saved. -/
def leaveJob (decomp : Bool) (s : State) : State :=
  match pipeJob s decomp with
  | none => s
  | some j =>
    bump 0x10000120 (setPipe decomp none
      (modJob j (fun x => { x with state := if x.state = .running then .idle else x.state, lastRunEl := elNs s }) s))

/-- The next job for a pipeline: lowest level, then the longest time since its last run. -/
def nextJob (s : State) (decomp : Bool) : Option Nat :=
  let can (k : Nat) (v : Job) : Bool := decide (v.decomp = decomp ∧ pipeJob s decomp ≠ some k) && v.ready
  (s.dill.jobs.foldl (fun best e =>
    if can e.1 e.2 then
      match best with
      | none => some e
      | some b => if e.2.level < b.2.level ∨ (e.2.level = b.2.level ∧ e.2.lastRunEl < b.2.lastRunEl) then some e else best
    else best) none).map (·.1)

/-- Free a job (R426): unconsumed input completes with BUSY, the rings are unbound, and the close is done. -/
def freeJob (j : Nat) (v : Job) (s : State) : State :=
  let unbind (n : Nat) (t : State) : State :=
    match getRing t v.owner n with
    | some r => if r.use = .dill j then setRing v.owner n { r with use := .unbound } t else t
    | none => t
  let s1 := match getRing s v.owner v.inRing with
    | some r => if r.use = .dill j then flushRing v.owner v.inRing s else s
    | none => s
  let s2 := unbind v.outRing (unbind v.inRing s1)
  let s3 := if pipeJob s2 v.decomp = some j then setPipe v.decomp none s2 else s2
  let s4 := { s3 with dill := { s3.dill with jobs := tdel s3.dill.jobs j } }
  completeOpt v.closing .ok [] (if v.state = .done ∨ v.state = .failed then s4 else jobDone j v .busy s4)

end Sys2Proof.Machine
end

