-- ==== Sys2Proof/Machine/Dill.lean ====
section
/-!
DEFINITION. The commands of group 0x10 and the work of the Dill pipelines (16_compression.md).
-/

namespace Sys2Proof.Machine

/-- DILL_CONFIG (R422). -/
def execDillConfig (h : Hdr) (p : DillConfigP) (s : State) : Out :=
  .next (vci (cmd 0x1001 .control false 4) h
    (fun _ => decide (64 ≤ p.quantumKib.toNat ∧ p.quantumKib.toNat ≤ 4096 ∧ p.rsv = 0))
    (fun t => done { t with dill := { t.dill with quantumKib := p.quantumKib.toNat } }) s)

/-- Ranges of DILL-JOB-OPEN (Table 16.8). -/
def dillOpenOk (h : Hdr) (p : DillOpenP) (t : State) : Bool :=
  decide (p.dir.toNat < 2 ∧ p.fmt.toNat < 2 ∧ p.level.toNat < 8 ∧ p.rsv = 0 ∧ p.rsv2 = 0) &&
  (if p.dir = 0 then decide (p.effort.toNat < 4 ∧ p.limMode = 0 ∧ p.ratio = 0 ∧ p.limitBytes = 0)
   else decide (p.effort = 0 ∧ p.inTotal = 0) &&
     (if p.limMode = 0 then decide (p.limitBytes = 0)
      else decide (p.limMode = 1 ∧ p.ratio = 0 ∧ 1 ≤ p.limitBytes.toNat ∧ p.limitBytes.toNat ≤ 2 ^ 40))) &&
  ringFree t h.part p.inRing.toNat true && ringFree t h.part p.outRing.toNat false

/-- DILL_JOB_OPEN (R419). -/
def execDillJobOpen (h : Hdr) (p : DillOpenP) (s : State) : Out :=
  .next (vci (cmd 0x1002 .openC false 32) h (dillOpenOk h p)
    (fun t =>
      match tfreeFrom t.dill.jobs 48 16 with
      | none => refuse .noResource t
      | some j =>
        let zlib := decide (p.fmt = 1)
        let v : Job := { state := .idle, owner := h.part, decomp := decide (p.dir = 1), zlib, effort := p.effort.toNat
                         level := p.level.toNat, inRing := p.inRing.toNat, outRing := p.outRing.toNat, absLimit := decide (p.limMode = 1)
                         ratio := if p.dir = 1 ∧ p.limMode = 0 ∧ p.ratio = 0 then 1024 else p.ratio.toNat, status := 0
                         limitBytes := p.limitBytes.toNat, inTotal := p.inTotal.toNat, inBytes := 0, outBytes := 0, adlerA := 1, adlerB := 0
                         segments := 0, openTs := taiNs t, notSmaller := false, hist := [], bits := []
                         inf := if zlib then .zlibHeader else .header, comp := 0, pendingIn := [], taken := 0, ran := 0, emit := none
                         lastRunEl := elNs t, waitEl := none, closing := none, closeReq := false }
        doneWith [BitVec.ofNat 8 j, 0, 0, 0] (bump 0x10000100
          (bindRing h.part p.outRing.toNat (.dill j) (bindRing h.part p.inRing.toNat (.dill j)
            { t with dill := { t.dill with jobs := tset t.dill.jobs j v } })))) s)

/-- DILL_JOB_CLOSE (R426). -/
def execDillJobClose (h : Hdr) (p : DillCloseP) (s : State) : Out :=
  let j := p.job.toNat
  .next (vci (cmdLong 0x1003 .openC false 4) h
    (fun t => decide (16 ≤ j ∧ j < 64 ∧ p.rsv = 0) && (match getJob t j with
      | some v => mayName t h.part v.owner
      | none => false))
    (fun t =>
      match getJob t j with
      | none => refuse .badParam t
      | some v =>
        if v.closing.isSome then refuse .busy t
        else
          let (id, t1) := startLong h 0x1003 100 t
          ⟨.accepted, [], modJob j (fun x => { x with closing := some id, closeReq := true }) t1⟩) s)

/-- DILL_JOB_FREED (R426): the switch point of a job that closes. -/
def execDillJobFreed (job : BitVec 6) (s : State) : Out :=
  .next (match getJob s job.toNat with
    | some v => if v.closeReq then freeJob job.toNat v s else s
    | none => s)

/-- DILL_SEGMENT (R420 to R425): due when the job's ring holds the segment's descriptors. -/
def execDillSegment (seg : DillSegmentP) (s : State) : Out :=
  let j := seg.job.toNat
  .next (match getJob s j with
    | none => s
    | some v =>
      if v.closeReq ∨ hostReads s v.owner = false ∨ chainsIn s v.owner v.inRing ≤ v.pendingIn.length + (if v.emit.isSome then 1 else 0)
      then s
      else if v.state = .done ∨ v.state = .failed then completeSegment v (if v.notSmaller then .notSmaller else .busy) s
      else
        let g : Segment := { flush := seg.flags.getLsbD 0, final := seg.flags.getLsbD 1, tag := seg.tag, poisoned := decide (seg.poison ≠ 0)
                             data := seg.data }
        let s1 := modJob j (fun x => { x with pendingIn := x.pendingIn ++ [g] }) (poisonDma v.owner seg.poison.toNat s)
        match pipeJob s1 v.decomp with
        | none => takeUp j s1
        | some k =>
          if k = j then runJob j (2 * v.pendingIn.length + 4) s1
          else if ((getJob s1 k).elim false Job.ready) then s1
          else takeUp j (leaveJob v.decomp s1))

/-- DILL_JOB_SWITCH (R422): the pipeline turns to the next job, or goes on with its own where no other has input. -/
def execDillJobSwitch (decomp : Bool) (s : State) : Out :=
  .next (match nextJob s decomp with
    | some j => takeUp j (leaveJob decomp s)
    | none => match pipeJob s decomp with
      | some j => runJob j (2 * ((getJob s j).elim 0 (fun v => v.pendingIn.length)) + 2) s
      | none => s)

end Sys2Proof.Machine
end

