-- ==== Sys2Proof/Machine/Eq.lean ====
section
/-!
DEFINITION. The commands and events of energy, billing and supply quality (group 0x0B, 11_energy_quality.md), but for power failure, which
the reset kinds hold.
-/

namespace Sys2Proof.Machine

/-! ### Configuration -/

/-- Ranges of EQ-MP-CONFIG (Table 11.11). -/
def eqMpOk (p : EqMpConfigP) : Bool :=
  decide (p.mp.toNat < 16 ∧ p.wiring.toNat < 2 ∧ p.reverse.toNat < 2 ∧ p.rsv = 0 ∧ 1000 ≤ p.udinDv.toNat ∧ p.udinDv.toNat ≤ 16000000 ∧
    100 ≤ p.sagThr.toNat ∧ p.sagThr.toNat ≤ 990) &&
  decide (1010 ≤ p.swellThr.toNat ∧ p.swellThr.toNat ≤ 2000 ∧ 10 ≤ p.intThr.toNat ∧ p.intThr.toNat < p.sagThr.toNat ∧ 1 ≤ p.hyst.toNat ∧
    p.hyst.toNat ≤ 100)

/-- EQ_MP_CONFIG (R285, R295). -/
def execEqMpConfig (h : Hdr) (p : EqMpConfigP) (s : State) : Out :=
  let m := p.mp.toNat
  .next (vci (cmd 0x0B01 .control false 16) h (fun _ => eqMpOk p)
    (fun t =>
      let v := getEq t m
      let w := { v with threeWire := decide (p.wiring = 1), reverse := decide (p.reverse = 1), udinDv := p.udinDv.toNat, sagThr := p.sagThr.toNat
                        swellThr := p.swellThr.toNat, intThr := p.intThr.toNat, hyst := p.hyst.toNat }
      if isSealedMp t m ∧ w ≠ v then refuse .isSealed t else stored 8 t (done (storeConfig (setEq m w t)))) s)

/-- A quantity code that counts (Table 11.1). -/
def quantityOk (q : U8) : Bool := decide (q.toNat < 15 ∧ q.toNat ≠ 7)

/-- EQ_REG_CONFIG (R290, R293, R295). -/
def execEqRegConfig (h : Hdr) (p : EqRegConfigP) (s : State) : Out :=
  let b := p.reg.toNat
  .next (vci (cmd 0x0B02 .control false 8) h
    (fun _ => decide (p.reg.toNat < 64 ∧ p.mp.toNat < 16 ∧ 6 ≤ p.digits.toNat ∧ p.digits.toNat ≤ 10 ∧ p.resCode.toNat ≤ 9 ∧ p.enable.toNat < 2 ∧
      p.rsv = 0 ∧ 9 ≤ p.digits.toNat + p.resCode.toNat) && quantityOk p.quantity)
    (fun t =>
      let r := getBReg t b
      let q := { r with mp := p.mp.toNat, quantity := p.quantity.toNat, digits := p.digits.toNat, resCode := p.resCode.toNat
                        enable := decide (p.enable = 1) }
      if (isSealedMp t r.mp ∨ isSealedMp t q.mp) ∧ q ≠ r then refuse .isSealed t
      else
        let t1 := setBReg b { q with value := 0, residual := 0, rollovers := 0, cfgEl := elNs t, gap := (getEq t q.mp).gap } t
        let t2 := { t1 with eq := { t1.eq with satsum := t1.eq.satsum &&& ~~~(1#64 <<< b) } }
        stored 8 t (done (raise 0x0B0D 1 [0, BitVec.ofNat 8 b, BitVec.ofNat 8 h.part.val] none (storeConfig t2)))) s)

/-- PULSE_CONFIG (R295, R297, R298), a stage command: the claim latches when the output is enabled (R56). -/
def execPulseConfig (h : Hdr) (p : PulseConfigP) (s : State) : Out :=
  let k := p.output.toNat
  .next (vci (cmd 0x0B03 .stage true 12) h
    (fun _ => decide (p.output.toNat < 32 ∧ p.enable.toNat < 2 ∧ p.mp.toNat < 16 ∧ 2 ≤ p.widthMs.toNat ∧ p.widthMs.toNat ≤ 200 ∧
      p.activeLow.toNat < 2 ∧ p.rsv = 0 ∧ 1 ≤ p.quantumMwh.toNat) && quantityOk p.quantity)
    (fun t =>
      let v := getPulse t k
      let change := decide (v.mp ≠ p.mp.toNat ∨ v.quantity ≠ p.quantity.toNat ∨ v.quantum ≠ p.quantumMwh.toNat)
      if claimOk t h.part v.everEnabled v.claim = false then refuse .notController t
      else if (isSealedMp t v.mp ∨ isSealedMp t p.mp.toNat) ∧ change then refuse .isSealed t
      else
        let w := { v with enable := decide (p.enable = 1), activeLow := decide (p.activeLow = 1), mp := p.mp.toNat, quantity := p.quantity.toNat
                          widthMs := p.widthMs.toNat, quantum := p.quantumMwh.toNat
                          claim := if p.enable = 1 then (getPart t h.part).claim else v.claim
                          everEnabled := v.everEnabled || decide (p.enable = 1) }
        if change then
          let t2 := storeConfig (setPulse k { w with owed := 0, residual := 0 } t)
          stored 8 t (done (raise 0x0B0D 1 [1, BitVec.ofNat 8 k, BitVec.ofNat 8 h.part.val] none
            { t2 with eq := { t2.eq with satsumPls := t2.eq.satsumPls &&& ~~~(1#32 <<< k) } }))
        else stored 8 t (done (storeConfig (setPulse k w t)))) s)

/-- EQ_SAVE_CONFIG (R302). -/
def execEqSaveConfig (h : Hdr) (p : EqSaveConfigP) (s : State) : Out :=
  .next (vci (cmd 0x0B04 .control false 4) h (fun _ => decide (1 ≤ p.saveS.toNat ∧ p.saveS.toNat ≤ 300 ∧ p.rsv = 0))
    (fun t => stored 8 t (done (storeConfig { t with eq := { t.eq with saveS := p.saveS.toNat } }))) s)

/-- EQ_SEAL (R294, R295): a long command of 2,000 ms. -/
def execEqSeal (h : Hdr) (p : EqSealP) (s : State) : Out :=
  .next (vci (cmdLong 0x0B05 .control false 4) h (fun _ => decide (p.rsv = 0))
    (fun t =>
      if 4 ≤ t.pop.otpSeal.length then refuse .isSealed t
      else if t.eq.sealReq.isSome ∨ (List.range 16).any (fun m => p.mask.getLsbD m && !decide ((getMp t m).state = .running)) then refuse .busy t
      else
        let (id, t1) := startLong h 0x0B05 2000 t
        ⟨.accepted, [], { t1 with eq := { t1.eq with sealReq := some (p.mask, id) } }⟩) s)

/-- EQ_SEAL_DONE (R294, R445): the digests of a generation are those of the present configuration, whose bytes the implementation gives. -/
def execEqSealDone (s : State) : Out :=
  .next (match s.eq.sealReq with
    | none => s
    | some (mask, id) =>
      let part : HP := match tget s.host.long id with
        | some l => l.part
        | none => 0
      let (x, s0) := fresh s
      let content := leBytes 2 mask.toNat ++ [0, 0] ++ leBytes 96 (Config.sealDigests x) ++ List.replicate 24 0
      let t := writeGen s0.pop.otpSeal content
      let old := s.eq.sealed
      let s1 : State := { s0 with pop := { s0.pop with otpSeal := t } }
      let s2 : State := { s1 with eq := { s1.eq with sealed := mask, sealGen := t.length, sealReq := none
                                                     mps := tmap (fun _ v => { v with sealBroken := false }) s1.eq.mps } }
      let s3 := otpEvents 1 t.length part t.length (refreshOtp s2)
      let s4 := raise 0x0B09 2 (leBytes 2 old.toNat ++ leBytes 2 mask.toNat ++ [BitVec.ofNat 8 t.length]) none s3
      completeLong id .ok [BitVec.ofNat 8 t.length] s4)

/-- The entry of the gap log with a sequence number. -/
def gapEntry (s : State) (seq : U32) : Option GapEntry := tget s.eq.glog seq.toNat

/-- EQ_GAP_ACK (R306, R308): GAP clears when no entry of the metering point is left. -/
def execEqGapAck (h : Hdr) (p : EqGapAckP) (s : State) : Out :=
  .next (vci (cmd 0x0B06 .control false 4) h (fun t => (gapEntry t p.seq).any (fun g => !g.acked))
    (fun t =>
      match gapEntry t p.seq with
      | none => refuse .badParam t
      | some g =>
        let t1 := { t with eq := { t.eq with glog := tset t.eq.glog p.seq.toNat { g with acked := true, ackTs := taiNs t, ackPart := h.part.val } } }
        let t2 := raise 0x0B08 1 (BitVec.ofNat 8 g.mp :: leBytes 4 p.seq.toNat ++ [BitVec.ofNat 8 h.part.val]) none t1
        if tany (fun _ e => decide (e.mp = g.mp) && !e.acked) t2.eq.glog then done t2
        else
          let t3 := modEq g.mp (fun v => { v with gap := false }) t2
          done { t3 with eq := { t3.eq with regs := tmap (fun _ r => if r.mp = g.mp then { r with gap := false } else r) t3.eq.regs } }) s)

/-! ### Cycles -/

/-- The mark of a half-cycle number. -/
def markOf (s : State) (i : Nat) : Option GaMark := s.clk.gaMarks.find? (fun x => decide (x.idx = i))

/-- The first even mark from a number on that is still held. -/
def evenFrom (s : State) (i : Nat) : Option GaMark :=
  s.clk.gaMarks.reverse.find? (fun x => decide (i ≤ x.idx ∧ x.idx % 2 = 0))

/-- A gap in progress ends at the start of a cycle: one SUPPRESSED entry, widened to whole cycles (R305). -/
def endGap (m endTs endEl : Nat) (s : State) : State :=
  match (getEq s m).gapFrom with
  | none => s
  | some (ts, el, cause, ref) =>
    recordGap m .suppressed cause.num ts endTs (gapBound ref (endEl - el)) ref false false (modEq m (fun v => { v with gapFrom := none }) s)

/-- Largest S of the cycles that ended within 1 s before an instant. -/
def recentMax (l : List (Nat × Scale)) (el : Nat) : Scale :=
  (l.filter (fun x => decide (x.1 ≤ el ∧ el ≤ x.1 + 1000000000))).foldl (fun a x => qmax a x.2) qZero

/-- A cycle of a metering point whose samples are all delivered: its energies, or its part in a gap (R287 to R291, R305). -/
def closeCycle (m : Nat) (a b : GaMark) (s : State) : State :=
  let v := getMp s m
  let e := getEq s m
  let rows := sgRowsIn v.hist a.el b.el
  let whole := decide (rows ≠ []) && rows.all (fun r => r.counted)
  let fNom := fNomHz v
  let o := cycleOut s m a.el b.el whole (fwOf s fNom)
  let (ints, e1) := accAll o.energy e
  let e2 := { e1 with cycIdx := b.idx }
  let s1 := if o.n = 0 then setEq m e2 s
    else
      let e3 := { e2 with lastCycleTs := b.ts, sMax := qmax e2.sMax o.s
                          sRecent := (b.el, o.s) :: e2.sRecent.filter (fun x => decide (b.el ≤ x.1 + 1000000000)) }
      let t := bumpIf (a.nominal || b.nominal) (eqCnt m 0xC8) (bump (eqCnt m 0xC0) (setEq m e3 s))
      distribute m b.ts a.el b.el ints t
  -- the gap rules
  if whole ∨ v.state = .off then endGap m a.ts a.el s1
  else if a.el < e.bootEl ∨ gapOpen s m ∨ e.gapFrom.isSome then s1
  else modEq m (fun x => { x with gapFrom := some (a.ts, a.el, v.suppCause, recentMax e.sRecent a.el) }) s1

/-- ACCUMULATION_CYCLE_END (R287 to R291): due when the next cycle of 256 ticks has ended and its samples are delivered. -/
def execAccumulationCycleEnd (mp : BitVec 4) (s : State) : Out :=
  let m := mp.toNat
  let v := getMp s m
  .next (match evenFrom s (getEq s m).cycIdx with
    | none => s
    | some a =>
      match markOf s (a.idx + 2) with
      | none => s
      | some b =>
        if v.state = .off ∨ b.el + taiNs s ≤ elNs s + v.next then closeCycle m a b s else s)

/-! ### Pulses (R298) -/

/-- PULSE_START: an idle pin of an enabled output with OWED above zero. -/
def execPulseStart (output : BitVec 5) (s : State) : Out :=
  let k := output.toNat
  let p := getPulse s k
  let idle := p.activeUntil.isNone && (match p.idleUntil with
    | some t => decide (t ≤ elNs s)
    | none => true)
  .next (if p.enable ∧ idle ∧ p.owed ≠ 0 then
      let width := p.widthMs * 1000000
      let w := if p.pNs < 2 * width ∧ p.tPrev.isSome then max (p.pNs / 2) 1000000 else width
      let s1 := bump (pulseCnt k 0x20) (setPulse k { p with owed := p.owed - 1, wUs := w / 1000, activeUntil := some (elNs s + w)
                                                            idleUntil := some (elNs s + 2 * w) } s)
      match p.overEl with
      | some t => if p.owed = 1 then
          raise 0x0B03 0 (BitVec.ofNat 8 k :: leBytes 4 ((elNs s - t) / 1000000)) none (setPulse k { getPulse s1 k with overEl := none } s1)
        else s1
      | none => s1
    else s)

/-- PULSE_END: the pin goes idle for at least the pulse's width. -/
def execPulseEnd (output : BitVec 5) (s : State) : Out :=
  let k := output.toNat
  let p := getPulse s k
  .next (match p.activeUntil with
    | some t => if t ≤ elNs s then setPulse k { p with activeUntil := none } s else s
    | none => s)

/-! ### Saves (R302) -/

/-- The end of the latest cycle. -/
def lastEven (s : State) : Option GaMark := s.clk.gaMarks.find? (fun x => decide (x.idx % 2 = 0))

/-- ENERGY_SAVE (R302): at the end of the cycle that follows save_s, or within 1 s of a resumption. -/
def execEnergySave (s : State) : Out :=
  .next (if s.eq.saving.isSome ∨ s.eq.flushing ∨ s.dev.boot ≠ .ready then s
    else match lastEven s with
      | none => s
      | some g => if s.eq.lastSaveEl + s.eq.saveS * 1000000000 ≤ g.el ∨ s.eq.saveSoon then writeSave g.ts s else s)

/-- ENERGY_SAVE_VERIFIED (R302): a failure counts and is raised, and the next save goes to the same slot. -/
def execEnergySaveVerified (ok : Bool) (s : State) : Out :=
  .next (match s.eq.saving with
    | none => s
    | some b =>
      if ok then verifySave s
      else
        raise 0x0B0B 2 ((if b then 1 else 0) :: leBytes 4 s.eq.saveSeq.toNat) none
          (bump 0x0B000108 { s with eq := { s.eq with saving := none } }))

/-! ### Supply quality (11.6) -/

/-- The value of a voltage channel over a window, as the mean square of its tap samples over Udin² (R299): none where a sample carries
UNSETTLED or MISSING, or there is none. -/
def halfValue (s : State) (m k from_ to_ : Nat) : Option Scale :=
  let i := getInput s (6 * m + k)
  let w := i.tap.filter (fun x => decide (from_ ≤ x.el ∧ x.el < to_))
  if (getMp s m).state = .off ∨ (getEq s m).udinDv = 0 ∨ w = [] ∨ w.any (fun x => x.bad) then none
  else
    let sc := f32val i.scale
    some (qdiv (qmul (qmul sc sc) (qdiv (qsum (w.map (fun x => qmul x.v x.v))) (qNat w.length))) (qmul (udin s m) (udin s m)))

/-- The tap of a voltage channel has passed an instant. -/
def tapPast (s : State) (m k at_ : Nat) : Bool :=
  ((getInput s (6 * m + k)).tap.head?).any (fun x => decide (at_ ≤ x.el + 64 * 1000000000 / fModHz s))

/-- The work of one half-cycle interval of a metering point. -/
def halfCycle (m : Nat) (s : State) : State :=
  let e := getEq s m
  match s.clk.gaMarks.reverse.find? (fun x => decide (e.halfIdx ≤ x.idx)) with
    | none => s
    | some a =>
      match markOf s (a.idx + 1) with
      | none => s
      | some b =>
        if (getMp s m).state ≠ .off ∧ (List.range 3).all (fun k => tapPast s m k b.el) = false then s
        else
          let from_ := match (if a.idx = 0 then none else markOf s (a.idx - 1)) with
            | some z => z.el
            | none => a.el
          let vals := (List.range 3).filterMap (fun k => (halfValue s m k from_ b.el).map (fun x => (k, x)))
          let s1 := setEq m { e with halfIdx := b.idx } s
          [QKind.sag, QKind.swell, QKind.interruption].foldl (qJudge m a.ts (b.el - a.el) b.nominal vals) s1

/-- HALF_CYCLE_INTERVAL (R299 to R301): the next interval of 128 ticks that has ended, whose window is the 256 ticks to its end; due when the
taps have passed its end. -/
def execHalfCycleInterval (mp : BitVec 4) (s : State) : Out := .next (inTurn (halfCycle mp.toNat) s)

end Sys2Proof.Machine
end

