-- ==== Sys2Proof/Machine/Jtag.lean ====
section
/-!
DEFINITION. The JTAG TAP (R478): the controller of IEEE 1149.1 with BYPASS, IDCODE, SAMPLE/PRELOAD and EXTEST. It reaches nothing else of the
device.
-/

namespace Sys2Proof.Machine

/-- The next controller state. -/
def TapState.next : TapState → Bool → TapState
  | .reset, tms => if tms then .reset else .idle
  | .idle, tms => if tms then .selDr else .idle
  | .selDr, tms => if tms then .selIr else .capDr
  | .capDr, tms => if tms then .ex1Dr else .shDr
  | .shDr, tms => if tms then .ex1Dr else .shDr
  | .ex1Dr, tms => if tms then .updDr else .pauDr
  | .pauDr, tms => if tms then .ex2Dr else .pauDr
  | .ex2Dr, tms => if tms then .updDr else .shDr
  | .updDr, tms => if tms then .selDr else .idle
  | .selIr, tms => if tms then .reset else .capIr
  | .capIr, tms => if tms then .ex1Ir else .shIr
  | .shIr, tms => if tms then .ex1Ir else .shIr
  | .ex1Ir, tms => if tms then .updIr else .pauIr
  | .pauIr, tms => if tms then .ex2Ir else .pauIr
  | .ex2Ir, tms => if tms then .updIr else .shIr
  | .updIr, tms => if tms then .selDr else .idle

/-- The low n bits of a number, least significant first. -/
def bitList (n x : Nat) : List Bool := (List.range n).map (fun i => x.testBit i)

/-- The bits of IDCODE, least significant first (R478). -/
def idcodeBits : List Bool := [bitList 1 1, bitList 11 0x2B5, bitList 16 0x6250, bitList 4 Config.stepping.toNat].flatten

/-- The instruction a code selects; a code without one selects BYPASS, as all ones does. -/
def tapInstr (l : List Bool) : TapInstr :=
  if l.all (fun b => b) then .bypass
  else match Config.tapCode l with
    | 1 => .idcode
    | 2 => .samplePreload
    | 3 => .extest
    | _ => .bypass

/-- Shift one bit in at the far end. -/
def shiftIn (l : List Bool) (tdi : Bool) : List Bool := l.drop 1 ++ [tdi]

/-- The selected data register captures. -/
def captureDr (s : State) : State :=
  let put (l : List Bool) (t : State) : State := { t with jtag := { t.jtag with drShift := l } }
  match s.jtag.instr with
  | .bypass => put [false] s
  | .idcode => put (idcodeBits) s
  | _ => let (x, t) := fresh s; put (bitList Config.boundaryLen x) t

/-- A rising edge: the state acts, and the controller moves. -/
def tapRise (e : TckEdge) (s : State) : State :=
  let s1 := match s.jtag.tap with
    | .capDr => captureDr s
    | .shDr => { s with jtag := { s.jtag with drShift := shiftIn s.jtag.drShift e.tdi } }
    | .capIr => { s with jtag := { s.jtag with irShift := ([true, false] ++ (List.range (Config.tapIrLen - 2)).map Config.tapIrCapture) } }
    | .shIr => { s with jtag := { s.jtag with irShift := shiftIn s.jtag.irShift e.tdi } }
    | _ => s
  { s1 with jtag := { s1.jtag with tap := s1.jtag.tap.next e.tms } }

/-- A falling edge: updates, and TDO. -/
def tapFall (s : State) : State :=
  let j := s.jtag
  let k := match j.tap with
    | .reset => { j with instr := .idcode, driving := false }
    | .updIr => let i := tapInstr j.irShift; { j with instr := i, driving := decide (i = TapInstr.extest) }
    | .updDr => match j.instr with
      | .samplePreload => { j with boundary := j.drShift }
      | .extest => { j with boundary := j.drShift }
      | _ => j
    | _ => j
  let tdo := match j.tap with
    | .shDr => some (j.drShift.headD false)
    | .shIr => some (j.irShift.headD false)
    | _ => none
  { s with jtag := { k with tdo } }

/-- JTAG_TCK (R478): TRST_N low resets the controller. -/
def execJtagTck (e : TckEdge) (s : State) : Out :=
  .next (if e.trstN = false then { s with jtag := { s.jtag with tap := .reset, instr := .idcode, driving := false, tdo := none } }
    else if e.rising then tapRise e s
    else tapFall s)

end Sys2Proof.Machine
end

