-- ==== Sys2Proof/Machine/Kernel.lean ====
section
/-!
DEFINITION. The commands and events of user kernels (group 0x0D, 13.14).
-/

namespace Sys2Proof.Machine

def Kern.loading (h : Hdr) (p : KernelLoadP) (id : Nat) : Kern :=
  { state := .loading, part := h.part, unified := false, aovEvent := false, sramKib := 0, imageId := 0, imageVersion := 0
    scratchKib := 0, maxCycles := 0, keySlot := 0, faultCore := none, entry := 0, cores := [], sramBase := [], binds := []
    runs := 0, trigDrop := 0, trigIdle := 0, outSkip := 0, faults := 0, scratch := [], loadCores := p.cores.toNat, loadSrc := p.source
    loadIdx := p.index, loadBytes := p.bytes.toNat, long := some id, runFaulted := false }

/-- KERNEL_LOAD (R367, R374): a number is taken and the image is read. -/
def execKernelLoad (h : Hdr) (p : KernelLoadP) (s : State) : Out :=
  .next (vci (cmdLong 0x0D01 .openC false 8) h
    (fun t => decide (p.rsv = 0 ∧ p.source.toNat < 2 ∧ 1 ≤ p.cores.toNat ∧ p.cores.toNat ≤ 32 ∧ 256 ≤ p.bytes.toNat ∧
        p.bytes.toNat ≤ 164096) &&
      (if p.source = 0 then ringFree t h.part p.index.toNat true else decide (p.index.toNat < 32)))
    (fun t =>
      match tfreeFrom t.sor.kernels 32 0 with
      | none => refuse .noResource t
      | some k =>
        let (id, t1) := startLong h 0x0D01 5000 t
        let t2 := setKern k (Kern.loading h p id) t1
        ⟨.accepted, [], if p.source = 0 then bindRing h.part p.index.toNat .image t2 else t2⟩) s)

/-- The bytes a load takes: what was read from its ring, or what its flash slot holds, where that is valid. -/
def loadBytesOf (s : State) (x : Kern) (img : BelethIn) : Bytes :=
  (if x.loadSrc = 0 then img.bytes
   else if (tget (currentDir s).beleth x.loadIdx.toNat).any (fun e => e.valid) then tgetD s.pop.images (imgKey 2 x.loadIdx.toNat) [] else []).take
    x.loadBytes

/-- KERNEL_LOADED (R367, R369): the image read; it is written to every core, or rejected. -/
def execKernelLoaded (kernel : BitVec 5) (bytes : Bytes) (sig : BelethSig) (s : State) : Out :=
  let img_ : BelethIn := ⟨bytes, sig.keyDigest, sig.signatureOk, sig.bodyOk⟩
  let k := kernel.toNat
  .next (match getKern s k with
    | none => s
    | some x =>
      if x.state ≠ .loading ∨ (x.loadSrc = 0 ∧ (img_.bytes.length < x.loadBytes ∨ hostReads s x.part = false)) then s else
      let data := loadBytesOf s x img_
      let img := readBeleth { img_ with bytes := data }
      let s1 := if x.loadSrc = 0 then unbindRing x.part x.loadIdx.toNat .image s else s
      let failed := match imageCheck s1 data.length x.loadCores img with
        | some f => some f
        | none => if (reserveKern s1 k x img).isNone then some (.noResource, 5) else none
      match failed, reserveKern s1 k x img with
      | some (st, cause), _ =>
        let s2 := { s1 with sor := { s1.sor with kernels := tdel s1.sor.kernels k } }
        let s3 := raise 0x0D02 2 ([BitVec.ofNat 8 x.part.val, BitVec.ofNat 8 cause] ++ leBytes 8 img.imageId.toNat) (some x.part)
          (bump 0x0D000108 s2)
        completeOpt x.long st [BitVec.ofNat 8 k, BitVec.ofNat 8 cause, 0, 0] s3
      | none, some y =>
        let s2 := y.cores.foldl (fun t n => setCore n (loadCore k img (getCore t n)) t) (setKern k y s1)
        let s3 := raise 0x0D01 1 ([BitVec.ofNat 8 k] ++ leBytes 8 img.imageId.toNat ++ leBytes 4 img.imageVersion.toNat ++
          [BitVec.ofNat 8 y.cores.length]) (some x.part) (bump 0x0D000100 s2)
        completeOpt x.long .ok [BitVec.ofNat 8 k, 0xFF, 0, 0] s3
      | none, none => s1)

/-- Ranges of a binding (Table 13.17). -/
def bindRange (p : KernelBindP) : Bool :=
  let staged : Bool := decide (p.kind = 0 ∨ p.kind = 2)
  decide (p.rsv = 0 ∧ p.kernel.toNat < 32 ∧ p.binding.toNat < 16 ∧ p.kind.toNat < 5 ∧ p.level.toNat < 8) &&
  (if p.kind.toNat ≤ 1 then decide (p.ring.toNat < 64) else decide (p.ring = 0)) &&
  (if p.kind = 2 then decide (p.grid.toNat < 20 ∧ 1 ≤ p.n.toNat ∧ p.n.toNat ≤ 256 ∧ p.handles.length = p.n.toNat)
   else decide (p.grid = 0 ∧ p.n = 0)) &&
  (!staged || decide (p.stageOff.toNat % 64 = 0 ∧ 64 ≤ p.slotBytes.toNat ∧ p.slotBytes.toNat ≤ 1048576 ∧ p.slotBytes.toNat % 64 = 0 ∧
    1 ≤ p.slots.toNat ∧ p.slots.toNat ≤ 1024)) &&
  (if p.kind = 3 then decide (100 ≤ p.period.toNat ∧ p.period.toNat ≤ 60000000)
   else if p.kind = 4 then decide (1 ≤ p.period.toNat ∧ p.period.toNat ≤ 65535) else decide (p.period = 0))

/-- What a binding names exists and may be named: kernel, ring, staging space, streams on the grid (R374). -/
def bindNames (h : Hdr) (p : KernelBindP) (t : State) : Bool :=
  match getKern t p.kernel.toNat with
  | none => false
  | some x =>
    mayName t h.part x.part && (tget x.binds p.binding.toNat).isNone &&
    (if p.kind = 0 then ringFree t x.part p.ring.toNat true else if p.kind = 1 then ringFree t x.part p.ring.toNat false else true) &&
    (if p.kind = 0 ∨ p.kind = 2 then decide (p.stageOff.toNat + p.slotBytes.toNat * p.slots.toNat ≤ x.scratchKib * 1024) else true) &&
    p.handles.all (fun w => match tget t.ing.streams w.toNat, tget t.aln.streams w.toNat with
      | some st, some a => mayName t h.part st.owner && decide (a.grid = p.grid.toNat)
      | _, _ => false)

/-- KERNEL_BIND_ADD (R374, R381). -/
def execKernelBindAdd (h : Hdr) (p : KernelBindP) (s : State) : Out :=
  .next (vci (cmd 0x0D02 .openC false (24 + 4 * p.n.toNat)) h (fun t => bindRange p && bindNames h p t)
    (fun t =>
      match getKern t p.kernel.toNat with
      | none => refuse .badParam t
      | some x =>
        let chans := p.handles.foldl (fun n w => match tget t.ing.streams w.toNat with
          | some st => n + st.maxChannels
          | none => n) 0
        if x.state ≠ .loaded ∧ x.state ≠ .faulted then refuse .busy t
        else if p.kind = 2 ∧ p.slotBytes.toNat < 16 + 8 * chans then refuse .badLength t
        else
          let k := p.kernel.toNat
          let kind := p.kind.toNat
          let n := if kind = 0 ∨ kind = 2 then p.slots.toNat else if kind = 1 then 0 else 1
          match addTasks k x p.binding.toNat (if kind = 0 then 2 else 1) p.level.toNat (decide (2 ≤ kind)) (decide (3 ≤ kind)) n 0 [] t with
          | none => refuse .noResource t
          | some (ts, t1) =>
            let v : KBind := { kind, level := p.level.toNat, ring := p.ring.toNat, grid := p.grid.toNat, stageOff := p.stageOff.toNat
                               slotBytes := p.slotBytes.toNat, slots := p.slots.toNat, handles := p.handles.map BitVec.toNat
                               period := p.period.toNat, tasks := ts, next := 0, slot := [] }
            let t2 := modKern k (fun y => { y with binds := tset y.binds p.binding.toNat v }) t1
            let t3 := if kind ≤ 1 then bindRing x.part p.ring.toNat (.kernel k) t2 else t2
            done (armTimer v t3)) s)

/-- KERNEL_BIND_REMOVE (R374). -/
def execKernelBindRemove (h : Hdr) (p : KernelBindP) (s : State) : Out :=
  .next (vci (cmd 0x0D02 .openC false (24 + 4 * p.n.toNat)) h
    (fun t => decide (p.rsv = 0 ∧ p.kernel.toNat < 32 ∧ p.binding.toNat < 16) &&
      (match getKern t p.kernel.toNat with
       | some x => mayName t h.part x.part && (tget x.binds p.binding.toNat).isSome
       | none => false))
    (fun t =>
      match getKern t p.kernel.toNat with
      | none => refuse .badParam t
      | some x =>
        if x.state ≠ .loaded ∧ x.state ≠ .faulted then refuse .busy t
        else match tget x.binds p.binding.toNat with
          | none => refuse .badParam t
          | some v => done (dropBind x.part p.kernel.toNat v (modKern p.kernel.toNat (fun y => { y with binds := tdel y.binds p.binding.toNat }) t))) s)

/-- A kernel that the partition may name (R52). -/
def kernNamed (h : Hdr) (k : Nat) (t : State) : Bool :=
  match getKern t k with
  | some x => mayName t h.part x.part
  | none => false

/-- KERNEL_START (R369): from LOADED alone. -/
def execKernelStart (h : Hdr) (p : KernelStartP) (s : State) : Out :=
  .next (vci (cmd 0x0D03 .openC true 4) h (fun t => decide (p.rsv = 0 ∧ p.flags.toNat < 2) && kernNamed h p.kernel.toNat t)
    (fun t =>
      let k := p.kernel.toNat
      match getKern t k with
      | none => refuse .badParam t
      | some x =>
        if x.state ≠ .loaded then refuse .busy t
        else
          let aov := p.flags.getLsbD 0
          let t1 := modKern k (fun y => { y with aovEvent := aov, binds := tmap (fun _ b => { b with slot := [], next := 0 }) y.binds })
            (clearFaults k t)
          let t2 := { t1 with yar := { t1.yar with
            tasks := tmap (fun _ v => if v.kernel = some k then { v with aovEvent := aov } else v) t1.yar.tasks } }
          done (kernState k .running (x.binds.foldl (fun u b => armTimer b.2 u) t2))) s)

/-- KERNEL_STOP (R369, R378): no new dispatch; its tasks are cancelled. -/
def execKernelStop (h : Hdr) (p : KernelP) (s : State) : Out :=
  .next (vci (cmdLong 0x0D04 .openC true 4) h (fun t => decide (p.rsv = 0) && kernNamed h p.kernel.toNat t)
    (fun t =>
      let k := p.kernel.toNat
      match getKern t k with
      | none => refuse .badParam t
      | some x =>
        if (x.state ≠ .running ∧ x.state ≠ .faulted) ∨ x.long ≠ none then refuse .busy t
        else
          let (id, t1) := startLong h 0x0D04 200 t
          let t2 := modKern k (fun y => { y with long := some id }) t1
          let ts := t2.yar.tasks.filter (fun e => decide (e.2.kernel = some k))
          let t3 := ts.foldl (fun u e => cancelTask e.1 u) t2
          ⟨.accepted, [], kernState k (if x.state = .running then .stopping else .loaded) t3⟩) s)

/-- KERNEL_STOPPED (R369): every dispatched run has ended. -/
def execKernelStopped (kernel : BitVec 5) (s : State) : Out :=
  let k := kernel.toNat
  .next (match getKern s k with
    | none => s
    | some x =>
      if kernRuns s x ∨ x.state = .loading then s
      else
        let s1 := if x.state = .stopping then kernState k (if x.runFaulted then .faulted else .loaded) s else s
        completeOpt x.long .ok [] (modKern k (fun y => { y with long := none }) s1))

/-- KERNEL_UNLOAD (R369): cores, SRAM and scratch are freed. -/
def execKernelUnload (h : Hdr) (p : KernelP) (s : State) : Out :=
  .next (vci (cmd 0x0D05 .openC false 4) h (fun t => decide (p.rsv = 0) && kernNamed h p.kernel.toNat t)
    (fun t =>
      let k := p.kernel.toNat
      match getKern t k with
      | none => refuse .badParam t
      | some x =>
        if (x.state ≠ .loaded ∧ x.state ≠ .faulted) ∨ kernRuns t x then refuse .busy t
        else
          let t1 := x.binds.foldl (fun u b => dropBind x.part p.kernel.toNat b.2 u) t
          let t2 := x.cores.foldl (fun u n => setCore n { getCore u n with kernel := none, unified := false, state := .idle, fault := none,
                                                                            queue := [], task := none } u) t1
          let t3 := completeOpt x.long .ok [] { t2 with sor := { t2.sor with kernels := tdel t2.sor.kernels k } }
          done (raise 0x0D06 1 [BitVec.ofNat 8 k, BitVec.ofNat 8 x.part.val] (some x.part) t3)) s)

/-- Complete the descriptors of the oldest message, FIRST to LAST. -/
def takeMessage (p : HP) (n : Nat) (st : Sts) : List Desc → State → State
  | [], s => s
  | d :: t, s =>
    let s1 := completeDesc p n st d.len.toNat [] s
    if d.last then s1 else takeMessage p n st t s1

/-- Device time of the doorbell that gave the last descriptor of a ring's oldest message (R372). -/
def messageBell (r : Ring) (s : State) : Nat :=
  ((r.bells.find? (fun b => decide (r.owned.findIdx (·.last) < (b.1 - r.devIdx).toNat))).map (·.2)).getD (taiNs s)

/-- KERNEL_INPUT_MESSAGE (R371): a message of the owner's ring, staged; above slot_bytes it completes with BAD-LENGTH. A stalled DMA engine
reads none (R389). -/
def execKernelInputMessage (m : KernelMsg) (s : State) : Out :=
  let n := m.ring.toNat
  .next (match getRing s m.part n with
    | none => s
    | some r =>
      match r.use with
      | .kernel k =>
        if r.owned = [] ∨ hostReads s m.part = false then s
        else match getKern s k with
          | none => s
          | some x =>
            match tfind (fun _ b => decide (b.kind = 0 ∧ b.ring = n)) x.binds with
            | none => s
            | some (b, v) =>
              if m.poison ≠ 0 then takeMessage m.part n .poisoned r.owned (poisonDma m.part m.poison.toNat s)
              else if v.slotBytes < m.data.length then takeMessage m.part n .badLength r.owned s
              else triggerBind k b m.data (messageBell r s) (some (13 + m.part.val)) (takeMessage m.part n .ok r.owned s)
      | _ => s)

end Sys2Proof.Machine
end

