-- ==== Sys2Proof/Machine/Net.lean ====
section
/-!
DEFINITION. The commands and events of the network ports and PRP pairs (group 0x04, 04_network_ports.md).
-/

namespace Sys2Proof.Machine

/-- Largest max_frame of a port (Table 4.1). -/
def maxFrameOf (k : Nat) : Nat := if isField k then 1522 else 9600

/-- Ranges of PORT-CONFIG (Table 4.13). -/
def portConfigOk (p : PortConfigP) : Bool :=
  let k := p.port.toNat
  decide (k ≤ 12 ∧ p.enable.toNat < 2 ∧ p.rsv = 0 ∧ p.rsv2 = 0 ∧ p.fec.toNat < 3 ∧ p.rgmiiId.toNat < 2 ∧
    1518 ≤ p.maxFrame.toNat ∧ p.maxFrame.toNat ≤ maxFrameOf k ∧ (k ≠ 12 → p.rgmiiId = 0)) &&
  decide (1 ≤ p.thrC3.toNat ∧ p.thrC3.toNat < p.thrC2.toNat ∧ p.thrC2.toNat < p.thrC1.toNat ∧ p.thrC1.toNat ≤ 100) &&
  (if k < 4 then decide ((p.speed = 4 ∨ p.speed = 5) ∧ (p.fec = 2 → p.speed = 5)) else decide (p.fec ≠ 2))

/-- Both ports of a pair would be enabled at the same rate and FEC, or one disabled (R102). -/
def pairAgrees (s : State) (p : PortConfigP) : Bool :=
  let k := p.port.toNat
  if 4 ≤ k ∨ p.enable = 0 then true
  else
    let o := getPort s (if k % 2 = 0 then k + 1 else k - 1)
    !o.enable || decide (o.speed.toNat = p.speed.toNat ∧ o.fec.toNat = p.fec.toNat)

/-- PORT_CONFIG (R102, R131). -/
def execPortConfig (h : Hdr) (p : PortConfigP) (s : State) : Out :=
  .next (vci (cmd 0x0401 .control false 16) h (fun t => portConfigOk p && pairAgrees t p)
    (fun t =>
      let k := p.port.toNat
      let o := getPort t k
      let speed := if k < 4 then p.speed.setWidth 3 else o.speed
      let fec := if k < 4 then p.fec.setWidth 2 else o.fec
      let drop := decide (p.enable = 0) || decide (speed ≠ o.speed) || decide (fec ≠ o.fec)
      let t1 := if o.enable && drop then linkDown k t else t
      done (modPort k (fun q => { q with enable := decide (p.enable = 1), speed, fec
                                         rgmiiId := if k = 12 then decide (p.rgmiiId = 1) else q.rgmiiId, maxFrame := p.maxFrame.toNat
                                         rxLatNs := p.rxLatNs, txLatNs := p.txLatNs, thrC3 := p.thrC3.toNat, thrC2 := p.thrC2.toNat
                                         thrC1 := p.thrC1.toNat }) t1)) s)

/-- PRP_CONFIG (R116): a port whose silence already reaches the new value becomes LAN-down at the commit. -/
def execPrpConfig (h : Hdr) (p : PrpConfigP) (s : State) : Out :=
  .next (vci (cmd 0x0402 .control false 8) h
    (fun _ => decide (p.rsv = 0 ∧ p.pair.toNat < 2 ∧ 10 ≤ p.forgetMs.toNat ∧ p.forgetMs.toNat ≤ 2000 ∧ 1 ≤ p.skewAlertMs.toNat ∧
      p.skewAlertMs.toNat ≤ 1000 ∧ p.skewAlertMs.toNat < p.forgetMs.toNat ∧ 100 ≤ p.lanSilenceMs.toNat ∧ p.lanSilenceMs.toNat ≤ 60000))
    (fun t =>
      let pr := p.pair.toNat
      let t1 := setPair2 pr { getPair2 t pr with forgetMs := p.forgetMs.toNat, skewAlertMs := p.skewAlertMs.toNat
                                                 lanSilenceMs := p.lanSilenceMs.toNat } t
      done ([2 * pr, 2 * pr + 1].foldl (fun u k => if silencePassed u k then lanDown k 1 u else u) t1)) s)

/-- PORT_TX_BIND (R128). -/
def execPortTxBind (h : Hdr) (p : PortTxBindP) (s : State) : Out :=
  .next (vci (cmd 0x0403 .openC false 4) h
    (fun t => decide (p.rsv = 0 ∧ (p.target.toNat ≤ 12 ∨ p.target = 0x10 ∨ p.target = 0x11) ∧ p.ring.toNat < 64 ∧ p.ring ≠ p.reportRing) &&
      ringFree t h.part p.ring.toNat true && (decide (p.reportRing = 0xFF) || ringFree t h.part p.reportRing.toNat false))
    (fun t =>
      let rep := if p.reportRing = 0xFF then none else some p.reportRing.toNat
      let t1 := bindRing h.part p.ring.toNat (.frameTx p.target.toNat) t
      let t2 := match rep with
        | some k => bindRing h.part k .txReport t1
        | none => t1
      done { t2 with net := { t2.net with
        binds := tset t2.net.binds (h.part.val * 64 + p.ring.toNat) { taken := [], reportRing := rep, target := p.target.toNat } } }) s)

/-- PORT_LINK_UP (R103, R116): half duplex on M0 keeps the link down. P0–P3 run at their configured rate, F0–F7 at 10 Mb/s. -/
def execPortLinkUp (port : BitVec 4) (speed : BitVec 3) (halfDuplex : Bool) (s : State) : Out :=
  let k := port.toNat
  let p := getPort s k
  .next (if 12 < k ∨ p.enable = false ∨ p.link then s
    else if k = 12 ∧ halfDuplex then raise 0x040A 2 [BitVec.ofNat 8 k] none (setPort k { p with halfDuplex := true } s)
    else
      let act := if k = 12 then speed else p.speed
      let s1 := setPort k { p with link := true, speedAct := act, halfDuplex := false } s
      let s2 := raise 0x0401 0 [BitVec.ofNat 8 k, BitVec.ofNat 8 act.toNat] none s1
      let s3 := if k < 4 then
          let q := getPair2 s2 (k / 2)
          setPair2 (k / 2) (if k % 2 = 1 then { q with heardBEl := none } else { q with heardAEl := none }) s2
        else s2
      tryStart k s3)

/-- PORT_LINK_DOWN (R111, R116). -/
def execPortLinkDown (port : BitVec 4) (s : State) : Out :=
  .next (if 12 < port.toNat then s else linkDown port.toNat s)

/-- LAN_SILENCE (R116). -/
def execLanSilence (port : BitVec 4) (s : State) : Out :=
  let k := port.toNat
  .next (if k < 4 ∧ silencePassed s k then lanDown k 1 s else s)

/-- A supervision frame of a pair (IEC 62439-3, log entry 43): path 0 and version 1, its sequence number, the TLV of a duplicate-discard node
with its MAC address, and the end TLV. -/
def supervisionBody (s : State) (pr : Nat) : Bytes :=
  let mac := beBytes 6 (portMac s (2 * pr)).toNat
  beBytes 6 0x01154E000100 ++ mac ++ [0x88, 0xFB, 0x00, 0x01] ++ beBytes 2 (getPair2 s pr).supSeq.toNat ++ [20, 6] ++ mac ++ [0, 0]

/-- Two seconds have passed since the pair's last supervision frame (R112). -/
def supervisionDue (s : State) (pr : Nat) : Bool := (getPair2 s pr).supEl.all (fun e => decide (e + 2000000000 ≤ elNs s))

/-- PRP_SUPERVISION_TX (R112): every 2 s, on each port of the pair whose link is up. -/
def execPrpSupervisionTx (pair : Bool) (s : State) : Out :=
  let pr := if pair then 1 else 0
  let a := (getPort s (2 * pr)).link
  let b := (getPort s (2 * pr + 1)).link
  .next (if s.dev.boot ≠ .ready ∨ (a || b) = false ∨ supervisionDue s pr = false then s
    else
      let q := getPair2 s pr
      let body := supervisionBody s pr
      sendOwn { cls := .c3, port := if a then 2 * pr else 2 * pr + 1, pair := a && b, prp := true, len := body.length, launch := none, tsReq := false
                owner := .supervision, body } (setPair2 pr { q with supSeq := q.supSeq + 1, supEl := some (elNs s) } s))

/-- PRP_SUPERVISION_RX (R112): counted and discarded. -/
def execPrpSupervisionRx (port : BitVec 4) (s : State) : Out :=
  let k := port.toNat
  .next (if 4 ≤ k ∨ readerHeld s k .c3 = true then s else bump (pairCnt (k / 2) 0x68) (popIn k .c3 s))

/-- Descriptors of the oldest message that nothing has taken, FIRST to LAST. -/
def nextMessage : List Desc → Option (List Desc)
  | [] => none
  | d :: t => if d.last then some [d] else (nextMessage t).map (fun l => d :: l)

/-- HOST_FRAME_TX (R67, R128, R129): the next frame of a bound ring is checked and queued; one that is refused has its report too. -/
def execHostFrameTx (part : HP) (ring : BitVec 6) (f : HostFrame) (s : State) : Out :=
  let n := ring.toNat
  let key := part.val * 64 + n
  .next (match getRing s part n, tget s.net.binds key with
    | some r, some b =>
      let before := b.taken.foldl (fun k t => k + t.descs) 0
      match nextMessage (r.owned.drop before) with
      | none => s
      | some ds =>
        if r.use ≠ .frameTx b.target ∨ hostReads s part = false then s
        else
          let idx := r.devIdx + BitVec.ofNat 32 (before + ds.length - 1)
          let bytes := ds.foldl (fun k d => k + d.len.toNat) 0
          let pair := decide (16 ≤ b.target)
          let q : TxReq := { cls := ringClass r.use, port := if pair then 2 * (b.target - 16) else b.target, pair, prp := true, len := f.frameLen.toNat
                             launch := if f.launchNs = 0 then none else some f.launchNs.toNat, tsReq := f.flags.getLsbD 0
                             owner := .host part n idx, body := f.frame }
          let (st, ref, s1) : Sts × Nat × State :=
            if f.poison ≠ 0 then (.poisoned, s.net.frameNext, poisonDma part f.poison.toNat s)
            else if bytes ≠ 16 + f.frameLen.toNat ∨ f.frameLen.toNat < 14 then (.badLength, s.net.frameNext, s)
            else if f.rsv ≠ 0 ∨ 2 ≤ f.flags.toNat then (.badParam, s.net.frameNext, s)
            else
              let (st, _, t) := sendFrame q s
              (st, s.net.frameNext, t)
          let note (t : State) : State := { t with net := { t.net with binds := tmod t.net.binds key (fun x =>
            { x with taken := x.taken ++ [{ ref, descs := ds.length, status := none }] }) } }
          if st = .ok then
            -- the frame may have completed at once, before it could be noted
            let s2 := note s1
            if (getFrame s1 ref).isSome then s2 else settleHost part n ref Sts.busy.w s2
          else
            let s2 := { (note s1) with net := { (note s1).net with frameNext := max s1.net.frameNext (ref + 1) } }
            settleHost part n ref st.w (reportTx part n q.port idx { mkFrame q none with status := st.w } s2)
    | _, _ => s)

/-- FIELD_COLLISION (R117): jam, then back-off, or after the sixteenth attempt the frame is discarded. The draw of R117 is a free value. -/
def execFieldCollision (port : BitVec 4) (s : State) : Out :=
  let k := port.toNat
  let p := getPort s k
  .next (if isField k = false then s
    else match p.wire with
      | none => s
      | some (r, _) =>
        let n := (match p.backoff with
          | some b => b.attempts
          | none => 0) + 1
        let s1 := bump (portCnt k 0xA8) s
        let s2 := deferTimed k r s1
        if 16 ≤ n then
          let s3 := bump (portCnt k 0xB8) (setPort k { getPort s2 k with wire := none, backoff := none } s2)
          let s4 := raise 0x040B 1 (BitVec.ofNat 8 k :: leBytes 8 (cntGet s3 (portCnt k 0xB8))) none s3
          tryStart k (finishCopy r (modFrame r (fun f => { f with status := Sts.busy.w, flags := { f.flags with excColl := true } }) s4))
        else
          let (x, s3) := fresh s2
          let slots := x % 2 ^ (min n 10)
          setPort k { getPort s3 k with wire := none, backoff := some { ref := r, attempts := n, until_ := some (elNs s + slots * 51200) } } s3)

/-- BACKOFF_EXPIRY (R117). -/
def execBackoffExpiry (port : BitVec 4) (s : State) : Out :=
  let k := port.toNat
  let p := getPort s k
  .next (match p.backoff with
    | none => s
    | some b => match b.until_ with
      | none => s
      | some e => if elNs s < e then s else tryStart k (setPort k { p with backoff := some { b with until_ := none } } s))

/-- CARRIER_SENSE_DROP (R117): a frame that was deferring starts after the gap. -/
def execCarrierSenseDrop (port : BitVec 4) (s : State) : Out :=
  let k := port.toNat
  let p := getPort s k
  .next (if isField k = false ∨ p.carrier = false then s
    else
      let p1 := { p with carrier := false }
      let s1 := setPort k p1 s
      if p1.wire.isSome ∨ p1.link = false then s1
      else match p1.backoff with
        | some b => if b.until_ = none then startOn k b.ref s1 else s1
        | none => match nextTx s1 p1 with
          | none => s1
          | some (r, cr) => startOn k r (setPort k { p1 with credits := cr } s1))

/-- PRESSURE stands for the window that has ended (R127). -/
def pressureEnd (k : Nat) (s : State) : State :=
  let p := getPort s k
  let now := p.dropC1Now
  let s1 := setPort k { p with pressure := now, dropC1Now := false, lastPressureEl := if now then some (elNs s) else p.lastPressureEl } s
  let quiet : Bool := match p.lastPressureEl with
    | some t => decide (t + 1001000000 ≤ elNs s)
    | none => true
  raiseIf (now && quiet) 0x0407 2
    ([BitVec.ofNat 8 k, BitVec.ofNat 8 (occPct p)] ++ leBytes 8 (cntGet s (portCnt k 0x68))) none s1

/-- PRESSURE_WINDOW_END (R127), at every port: a 1 ms window has passed. -/
def execPressureWindowEnd (s : State) : Out :=
  .next (if elNs s < s.net.windowEl + 1000000 then s
    else (s.net.ports.map (·.1)).foldl (fun t k => pressureEnd k t) { s with net := { s.net with windowEl := elNs s / 1000000 * 1000000 } })

/-- A multicast address registered on a port (R105). -/
def multicastOk (s : State) (k : Nat) (a : U48) : Bool :=
  (decide (a = ptpAddr) && (decide (k / 2 = (if s.clk.pair then 1 else 0)) || (isField k && s.clk.fMaster.getLsbD (k - 4)))) ||
  (decide (k < 4 ∧ a.toNat / 256 = 0x01154E0001)) || (a.getLsbD 40 && Config.groupAddr k a)

/-- Class of a received frame (Table 4.5), and whether some row of the table takes it from the queue. -/
def classify (s : State) (f : RxFrame) : Cls × Bool :=
  let k := f.port.toNat
  let here (tcp : Bool) (n : Nat) : List Reg := (regs s).filter (fun r => decide (r.tcp = tcp ∧ r.num = n ∧ r.macs / 2 ^ k % 2 = 1))
  let c3 (taken : Bool) : Cls × Bool := (.c3, taken)
  if k = 12 then c3 false
  else match f.kind with
    | .pause => c3 false
    | .ptp => (.c1, true)
    | .supervision => c3 true
    | .sv => if isField k then (.c1, true) else c3 false
    | .c37 key data =>
      -- the connection of a TCP client is that of its source's address and ports
      let reg := (here (decide (key.transport = 2)) key.dstPort.toNat).any (fun r => decide (r.use = 1)) ||
        s.ing.streams.any (fun e => decide (key.transport = 1 ∧ e.2.key = { key with idcode := e.2.key.idcode } ∧ e.2.linkUp))
      if data && reg then (.c1, true) else c3 true
    | .udp n =>
      let u := here false n.toNat
      if u.any (fun r => decide (r.use = 3 ∨ r.use = 4)) then (.c0, true)
      else if u.any (fun r => r.rtp) then (.c1, true)
      else c3 (u.any (fun r => decide (16 ≤ r.use)))
    | .tcp _ => c3 false
    | .fragment => c3 false
    | .other => c3 false

/-- What a consumer finds of a frame that its own row tells of poison. -/
def tellsPoison : FrameKind → Bool
  | .c37 _ _ | .sv => true
  | _ => false

/-- RCT handling of a frame received on a pair (R113, R114), C37.118 frames of known streams being the directory's: whether it goes on. A
supervision frame, of which each one received counts (R112), does not enter duplicate discard (DEDUCED, log entry 62). -/
def rctStage (k : Nat) (f : RxFrame) (s : State) : Bool × State :=
  let heard := f.rct.isSome || decide (f.kind = .supervision)
  let s1 := if heard then lanHeard k s else s
  if f.kind = .ptp then (true, s1)
  else match f.rct with
    | none => (true, bump (pairCnt (k / 2) 0x58) s1)
    | some (seq, lanB) =>
      let s2 := bumpIf (lanB != decide (k % 2 = 1)) (pairCnt (k / 2) 0x50) s1
      match f.kind with
      | .c37 _ _ => (true, s2)
      | .supervision => (true, s2)
      | _ => unknownSource k f.src seq s2

/-- Cut-through threshold of a port's queue, bytes (R136). -/
def cutThrough (s : State) (k : Nat) : Nat := 64 * (if k < 4 then s.ing.ctP else if isField k then s.ing.ctF else s.ing.ctM)

/-- FRAME_RX (R105 to R109, R113, R124 to R126, R134 to R136, R139). -/
def execFrameRx (f : RxFrame) (s : State) : Out :=
  let k := f.port.toNat
  let p := getPort s k
  let len := f.len.toNat
  let begun := f.begun && decide (cutThrough s k ≤ len)
  let retro (t : State) : State := bumpIf begun 0x05000120 t
  .next (if 12 < k ∨ p.link = false then s
    else if len < 64 then bump (portCnt k (if isField k ∧ f.col then 0x38 else 0x28)) s
    else if p.maxFrame < len then retro (bump (portCnt k 0x30) s)
    else if f.fcsOk = false then retro (bump (portCnt k 0x20) s)
    else if f.kind = .pause then bump (portCnt k 0x48) s
    else if f.dst ≠ portMac s k ∧ f.dst ≠ 0xFFFFFFFFFFFF ∧ multicastOk s k f.dst = false then bump (portCnt k 0x40) s
    else
      let s1 := bumpBy (portCnt k 0x08) len (bump (portCnt k 0x00) s)
      let (go, s2) := if k < 4 then rctStage k f s1 else (true, s1)
      if go = false then s2
      else
        let (c, taken) := classify s2 f
        let (entered, s3) := enterIn k { cls := c, len, begun, ts16 := rxStamp s k } s2
        if entered = false then s3
        else
          let bad := decide (f.poison ≠ 0)
          let s4 := if bad then retro (bump (portCnt k 0x50) (poisonPort k f.poison.toNat s3))
            else bumpIf (decide (f.kind = .fragment)) 0x05000110 s3
          if taken ∧ (bad = false ∨ tellsPoison f.kind) then s4
          else modPort k (fun q => { q with inq := q.inq.take (q.inq.length - 1) }) s4)

end Sys2Proof.Machine
end

