-- ==== Sys2Proof/Machine/Osc.lean ====
section
/-!
DEFINITION. The commands and events of oscillation screening and mode estimation (group 0x07, 07_oscillation.md).
-/

namespace Sys2Proof.Machine

/-! ### Settings (R204, Table 7.14) -/

/-- OSC_SCREEN_CONFIG (R204). -/
def execOscScreenConfig (h : Hdr) (p : OscScreenConfigP) (s : State) : Out :=
  .next (vci (cmd 0x0701 .control false 20) h
    (fun _ => decide (3 ≤ p.thrOnDb.toNat ∧ p.thrOnDb.toNat ≤ 40 ∧ p.thrOffDb.toNat < p.thrOnDb.toNat ∧ 4 ≤ p.baseShift.toNat ∧
      p.baseShift.toNat ≤ 14 ∧ p.bandMask.toNat < 64 ∧ 10 ≤ p.warmS.toNat ∧ p.warmS.toNat ≤ 1023 ∧ p.rsv = 0 ∧ 1 ≤ p.floorF.toNat ∧
      p.floorF.toNat ≤ 1000000 ∧ 1 ≤ p.floorRocof.toNat ∧ p.floorRocof.toNat ≤ 10000000 ∧ 1 ≤ p.floorRel.toNat ∧
      p.floorRel.toNat ≤ 100000))
    (fun t => done (newOscSet { t.osc.set with
      thrOnDb := p.thrOnDb.toNat, thrOffDb := p.thrOffDb.toNat, baseShift := p.baseShift.toNat, bandMask := BitVec.ofNat 6 p.bandMask.toNat
      warmS := p.warmS.toNat, floorF := p.floorF.toNat, floorRocof := p.floorRocof.toNat, floorRel := p.floorRel.toNat } t)) s)

/-- OSC_EST_CONFIG (R204). -/
def execOscEstConfig (h : Hdr) (p : OscEstConfigP) (s : State) : Out :=
  .next (vci (cmd 0x0702 .control false 12) h
    (fun _ => decide (1 ≤ p.swapDb.toNat ∧ p.swapDb.toNat ≤ 20 ∧ 5 ≤ p.windowS.toNat ∧ p.windowS.toNat ≤ 120 ∧ 5 ≤ p.holdS.toNat ∧
      p.holdS.toNat ≤ 600 ∧ 1 ≤ p.zetaSdMax.toNat ∧ p.zetaSdMax.toNat ≤ 100 ∧ 3 ≤ p.convCycles.toNat ∧ p.convCycles.toNat ≤ 20 ∧
      5 ≤ p.groupDf.toNat ∧ p.groupDf.toNat ≤ 100 ∧ 5 ≤ p.groupDzeta.toNat ∧ p.groupDzeta.toNat ≤ 100 ∧ 1 ≤ p.defMinKw.toNat ∧
      p.defMinKw.toNat ≤ 1000000))
    (fun t => done (newOscSet { t.osc.set with
      swapDb := p.swapDb.toNat, holdS := p.holdS.toNat, windowS := p.windowS.toNat, zetaSdMax := p.zetaSdMax.toNat
      convCycles := p.convCycles.toNat, groupDf := p.groupDf.toNat, groupDzeta := p.groupDzeta.toNat, defMinKw := p.defMinKw.toNat } t)) s)

/-- OSC_ALARM_CONFIG (R204). -/
def execOscAlarmConfig (h : Hdr) (p : OscAlarmConfigP) (s : State) : Out :=
  .next (vci (cmd 0x0703 .control false 24) h
    (fun _ => decide (p.enables.toNat < 8 ∧ 1 ≤ p.zetaThr.toNat ∧ p.zetaThr.toNat ≤ 200 ∧ 1 ≤ p.zetaHyst.toNat ∧ p.zetaHyst.toNat ≤ 50 ∧
      1 ≤ p.forcedZeta.toNat ∧ p.forcedZeta.toNat ≤ 20 ∧ 1 ≤ p.dampPersistS.toNat ∧ p.dampPersistS.toNat ≤ 600 ∧
      1 ≤ p.ampPersistS.toNat ∧ p.ampPersistS.toNat ≤ 600 ∧ 10 ≤ p.forcedPersistS.toNat ∧ p.forcedPersistS.toNat ≤ 600 ∧
      1 ≤ p.clearS.toNat ∧ p.clearS.toNat ≤ 600 ∧ 1 ≤ p.ampF.toNat ∧ p.ampF.toNat ≤ 10000000 ∧ 1 ≤ p.ampRocof.toNat ∧
      p.ampRocof.toNat ≤ 100000000 ∧ 1 ≤ p.ampRel.toNat ∧ p.ampRel.toNat ≤ 1000000))
    (fun t => done (newOscSet { t.osc.set with
      enables := BitVec.ofNat 3 p.enables.toNat, zetaThr := p.zetaThr.toNat, zetaHyst := p.zetaHyst.toNat
      dampPersistS := p.dampPersistS.toNat, ampPersistS := p.ampPersistS.toNat, forcedPersistS := p.forcedPersistS.toNat
      clearS := p.clearS.toNat, ampF := p.ampF.toNat, ampRocof := p.ampRocof.toNat, ampRel := p.ampRel.toNat
      forcedZeta := p.forcedZeta.toNat } t)) s)

/-! ### Watch list and branches -/

/-- Kinds 1 to 5 are screened (R183). -/
def screenedKind (k : Nat) : Bool := decide (1 ≤ k ∧ k ≤ 5)

/-- OSC_WATCH_ADD (R191, R204): the lowest free entry. The slot follows at the next ranking; a slot the channel holds is watched now. -/
def execOscWatchAdd (h : Hdr) (p : OscWatchP) (s : State) : Out :=
  let ch := p.chan.toNat
  .next (vci (cmd 0x0704 .control false 8) h
    (fun t => decide (p.rsv = 0) && screenedKind (chanKind t ch) && !watchedChan t ch)
    (fun t => match tfreeFrom t.osc.watch 512 0 with
      | none => refuse .noResource t
      | some e =>
        let t1 := { t with osc := { t.osc with watch := tset t.osc.watch e ch } }
        done (match slotOf t1 ch with
          | some (n, _) => modSlot n (fun v => { v with watched := true, state := .active, unwatched := false }) t1
          | none => t1)) s)

/-- Tag of the slab the screen took last on a grid. -/
def lastScreened (s : State) (g : Nat) : Nat := tgetD s.osc.screened g 0

/-- OSC_WATCH_REMOVE (R204): an unflagged channel's slot goes to HOLD, to be freed after hold_s whatever its conditions (Table 7.3). -/
def execOscWatchRemove (h : Hdr) (p : OscWatchP) (s : State) : Out :=
  let ch := p.chan.toNat
  .next (vci (cmd 0x0704 .control false 8) h
    (fun t => decide (p.rsv = 0) && watchedChan t ch)
    (fun t =>
      let t1 := { t with osc := { t.osc with watch := tkeep (fun _ c => decide (c ≠ ch)) t.osc.watch } }
      done (match slotOf t1 ch with
        | some (n, v) =>
          if (getScr t1 ch v.grid).flags = 0 then
            modSlot n (fun x => { x with watched := false, state := .hold, unwatched := true, holdSince := lastScreened t1 x.grid }) t1
          else modSlot n (fun x => { x with watched := false }) t1
        | none => t1)) s)

/-- OSC_BRANCH_ADD (R197, R204): the lowest free number. -/
def execOscBranchAdd (h : Hdr) (p : OscBranchP) (s : State) : Out :=
  .next (vci (cmd 0x0705 .control false 12) h
    (fun t => decide (p.rsv = 0 ∧ p.branch = 0 ∧ chanKind t p.vChan.toNat = 1 ∧ chanKind t p.iChan.toNat = 2) &&
      (chanGrid t p.vChan.toNat).isSome && decide (chanGrid t p.vChan.toNat = chanGrid t p.iChan.toNat))
    (fun t => match tfreeFrom t.osc.branches 1024 0 with
      | none => refuse .noResource t
      | some n =>
        let b : Branch := { vChan := p.vChan.toNat, iChan := p.iChan.toNat, mode := none, dir := 0, defW := 0, lastTs := 0, part := h.part
                            raw := [], fil := [] }
        doneWith (leBytes 2 n ++ leBytes 2 0) { t with osc := { t.osc with branches := tset t.osc.branches n b } }) s)

/-- OSC_BRANCH_REMOVE (R204). -/
def execOscBranchRemove (h : Hdr) (p : OscBranchP) (s : State) : Out :=
  let n := p.branch.toNat
  .next (vci (cmd 0x0705 .control false 12) h
    (fun t => decide (p.rsv = 0 ∧ p.vChan = 0 ∧ p.iChan = 0 ∧ n < 1024) && (tget t.osc.branches n).isSome)
    (fun t => doneWith (leBytes 2 n ++ leBytes 2 0)
      { t with osc := { t.osc with
          branches := tdel t.osc.branches n
          modes := tmap (fun _ m => if m.sourceBranch = some n then { m with sourceBranch := none } else m) t.osc.modes } }) s)

/-! ### Relearning and output -/

/-- A channel relearns (R186): warm and flags, and its slot is lost (Table 7.3). -/
def relearnChan (ch : Nat) (s : State) : State :=
  let s1 := match tget s.osc.chans ch with
    | some c => bumpIf (decide (c.flags ≠ 0)) 0x07000118 (setScr ch { c with flags := 0, warm := 0 } s)
    | none => s
  let s2 := bump 0x07000170 s1
  match slotOf s2 ch with
  | some (n, _) => freeEst n (some 0) s2
  | none => s2

/-- Screened channels of a stream. -/
def screenedOf (s : State) (hd : Nat) : List Nat := (streamChans s hd).filter (fun ch => screenedKind (chanKind s ch))

/-- OSC_RELEARN (R186): recorded like a counter clear. -/
def execOscRelearn (h : Hdr) (p : OscRelearnP) (s : State) : Out :=
  let id := p.id.toNat
  .next (vci (cmd 0x0706 .control false 8) h
    (fun t => decide (p.rsv = 0) && (match p.scope.toNat with
      | 0 => screenedKind (chanKind t id)
      | 1 => (getStream t id).isSome
      | 2 => decide (id = 0)
      | _ => false))
    (fun t =>
      let l : List Nat := match p.scope.toNat with
        | 0 => [id]
        | 1 => screenedOf t id
        | _ => List.flatten (t.ing.streams.map (fun (e : Nat × Stream) => screenedOf t e.1))
      done (raise 0x0110 1 ([BitVec.ofNat 8 h.part.val, 0x07, p.scope] ++ leBytes 4 id) none (l.foldl (fun u ch => relearnChan ch u) t))) s)

/-- OSC_OUTPUT_BIND (R198, Table 7.7). -/
def execOscOutputBind (h : Hdr) (p : OscOutputBindP) (s : State) : Out :=
  .next (vci (cmd 0x0707 .openC false 4) h
    (fun t => decide (p.rsv = 0 ∧ 1 ≤ p.outDiv.toNat ∧ p.outDiv.toNat ≤ 200) &&
      (decide (p.ring = 0xFF) || decide (tget t.osc.outRing h.part.val = some p.ring.toNat) || ringFree t h.part p.ring.toNat false))
    (fun t =>
      let t1 := { t with osc := { t.osc with outDiv := t.osc.outDiv.set h.part p.outDiv.toNat } }
      match tget t.osc.outRing h.part.val with
      | some n =>
        if p.ring = 0xFF then done (unbindRing h.part n .estimator { t1 with osc := { t1.osc with outRing := tdel t1.osc.outRing h.part.val } })
        else refuse .busy t
      | none =>
        if p.ring = 0xFF then done t1
        else done (bindRing h.part p.ring.toNat .estimator
          { t1 with osc := { t1.osc with outRing := tset t1.osc.outRing h.part.val p.ring.toNat } })) s)

/-! ### The screen -/

/-- The screen's work on a slab: every channel of its grid, and once per second the ranking. -/
def screenSlab (g k : Nat) (s : State) : State :=
  let s1 := { s with osc := { s.osc with screened := tset s.osc.screened g k } }
  let s2 := (gridChans s1 g).foldl (fun t e => screenChan g k e.1 e.2 t) s1
  if k % 1000000000 = 0 ∧ s2.osc.lastRankTs < k then rankPass k s2 else s2

/-- The screen's work on the cells that patch releases have replaced in a slab. -/
def screenFixes (g k : Nat) (fixes : List (Nat × Nat)) (s : State) : State :=
  (gridChans s g).foldl (fun t e => if (chanOwner t e.1).any (fun o => decide (o ∈ fixes)) then patchChan g k e.1 e.2 t else t) s

/-- SCREEN_STEP: the final slab of a grid with this tag, once (R187, R191). -/
def execScreenStep (grid : BitVec 5) (tag : U64) (s : State) : Out :=
  let g := grid.toNat
  let k := tag.toNat
  .next (match getSlab s g k with
    | none => s
    | some v =>
      if v.screened ∨ (v.state ≠ .final ∧ v.state ≠ .history) then s
      else
        underSlab g k (screenSlab g k) (modSlab g k (fun x => { x with screened := true, scrPatches := x.patches, fixes := [] }) s))

/-- SCREEN_PATCH_FIX (R190): patch releases not yet looked at; where a later step has run each counts STALE_PATCH (Table 6.6). -/
def execScreenPatchFix (grid : BitVec 5) (tag : U64) (s : State) : Out :=
  let g := grid.toNat
  let k := tag.toNat
  .next (match getSlab s g k with
    | none => s
    | some v =>
      if v.screened = false ∨ v.patches ≤ v.scrPatches then s
      else
        let s1 := modSlab g k (fun x => { x with scrPatches := x.patches, fixes := [] }) s
        if lastScreened s1 g ≠ k then bumpBy (gridCnt g 14) (v.patches - v.scrPatches) s1
        else underSlab g k (screenFixes g k v.fixes) s1)

/-! ### Estimators -/

/-- The step of a slot on a slab is due: the next slab has been taken by the screen (R194), and no earlier step is left. -/
def stepDue (s : State) (v : EstSlot) (tag : Nat) : Bool :=
  let slabs := (getGrid s v.grid).slabs
  decide (v.lastTag < tag ∧ v.assignedTs ≤ tag ∧ tag < lastScreened s v.grid) &&
  slabs.any (fun e => decide (e.1 = tag) && e.2.screened) &&
  !slabs.any (fun e => decide (v.lastTag < e.1 ∧ v.assignedTs ≤ e.1 ∧ e.1 < tag) && e.2.screened)

/-- A slot after a step on a slab (R193, R194). -/
def stepSlot (v : EstSlot) (o : OscSet) (tag : Nat) (skip : Bool) (mdl : EstModel) (new : EstOut) : EstSlot :=
  let recent := ((tag, skip) :: v.recent).filter (fun e => decide (tag < e.1 + o.windowS * 1000000000))
  let amps := ((tag, new.amp) :: v.amps).filter (fun e => decide (tag ≤ e.1 + o.forcedPersistS * 1000000000))
  convFlags o tag
    { v with out := new, recent, amps, steps := sat1 v.steps, nth := v.nth + 1
             skipped := if skip then sat1 v.skipped else v.skipped, lastTag := tag
             mdl, inp := v.inp.filter (fun e => decide (tag < e.1)) }

/-- Every slot of a grid has stepped on a slab. -/
def gridStepped (s : State) (g tag : Nat) : Bool :=
  s.osc.slots.all (fun e => decide (e.2.grid ≠ g ∨ tag ≤ e.2.lastTag ∨ tag < e.2.assignedTs))

/-- The work of one step of an estimator on the slab of a tag. -/
def estimatorWork (n k : Nat) (s : State) : State :=
  match getSlot s n with
    | none => s
    | some v =>
      if stepDue s v k = false then s
      else
        let g := v.grid
        let skip := match reportAt s g k v.chan (chanKind s v.chan) with
          | some c => c.fill.isSome
          | none => true
        let (mdl, out, s1) := estResult v (chanKind s v.chan) k skip s
        let s2 := bumpIf skip 0x07000148 (bump 0x07000140 (modSlot n (fun x => stepSlot x s.osc.set k skip mdl out) s1))
        let s3 := estOutput n k (ampCondition n k s2)
        if gridStepped s3 g k = false then s3
        else
          let s4 := if k % 1000000000 = 0 then wholeSecond g k s3 else s3
          flowBranches g k s4

/-- ESTIMATOR_STEP (R193, R194, R198, R199), under the settings of its slab. -/
def execEstimatorStep (slot : U16) (tag : U64) (s : State) : Out :=
  let g := (getSlot s slot.toNat).elim 0 (fun v => v.grid)
  .next (inTurn (underSlab g tag.toNat (estimatorWork slot.toNat tag.toNat)) s)

/-- ESTIMATOR_HOLD_EXPIRY (Table 7.3). -/
def execEstimatorHoldExpiry (slot : U16) (s : State) : Out :=
  let n := slot.toNat
  .next (match getSlot s n with
    | none => s
    | some v =>
      let last := lastScreened s v.grid
      if v.state = .hold ∧ (v.unwatched || slotClear s v) = true ∧ v.holdSince + (oscFor s v.grid last).holdS * 1000000000 ≤ last then freeEst n none s else s)

end Sys2Proof.Machine
end

