-- ==== Sys2Proof/Machine/Partition.lean ====
section
/-!
DEFINITION. The commands and events of the host partitions (groups 0x01 and 0x02, 02_host_partitions.md; R464 of 18_startup_reset.md):
identification, snapshots, windows, heartbeats, claims, quotas, timers, rings, doorbells, links.
-/

namespace Sys2Proof.Machine

/-- IDENTIFY's response (Table 2.9): a slot that a cut write used counts as used (R444). -/
def identifyResp (s : State) : Bytes :=
  leBytes 4 0x6250 ++ leBytes 2 Config.stepping.toNat ++ [if s.dev.imageB then 1 else 0, 0] ++
  leBytes 4 (Config.fwVersion s.dev.imageB).toNat ++
  leBytes 4 (s.pop.otpBoot.length + 16 * s.pop.otpSeal.length + 256 * s.pop.otpDef.length)

/-- IDENTIFY (R49). -/
def execIdentify (h : Hdr) (s : State) : Out :=
  .next (vci { op := 0x0101, cls := .openC, u := true, long := false, len := 0, recovery := true } h (fun _ => true)
    (fun t => doneWith (identifyResp t) t) s)

/-- The SNAPSHOT of a partition: the copy, its instant and its generation (R63). -/
def takeSnapshot (p : HP) (q : SnapshotP) (s : State) : State :=
  let ms := if q.expiryMs = 0 then 10000 else q.expiryMs.toNat
  let s1 := { s with shadow := s.shadow.set p (some s.toBlocks) }
  modPart p (fun x => { x with snap := { state := .valid, gen := x.snap.gen + 1, taiS := s.clk.sec, groups := q.groups,
                                         windowed := q.windowed, expiry := elNs s + ms * 1000000 } }) s1

/-- SNAPSHOT (R63, R64): BUSY while one is held. -/
def execSnapshot (h : Hdr) (p : SnapshotP) (s : State) : Out :=
  .next (vci (cmd 0x0103 .openC false 16) h
    (fun _ => decide (p.rsv = 0 ∧ p.groups &&& 0xFFFC0001 = 0 ∧ p.windowed &&& 0xFFFC0001 = 0 ∧
      (p.expiryMs = 0 ∨ 100 ≤ p.expiryMs.toNat ∧ p.expiryMs.toNat ≤ 60000)))
    (fun t =>
      if (getPart t h.part).snap.state = .valid then refuse .busy t
      else
        let t1 := takeSnapshot h.part p t
        doneWith (leBytes 8 t.clk.sec.toNat ++ leBytes 4 t.clk.ns.toNat ++ leBytes 4 (getPart t1 h.part).snap.gen.toNat) t1) s)

/-- End a held snapshot: the view reverts to live state. -/
def endSnapshot (p : HP) (st : SnapState) (s : State) : State :=
  modPart p (fun x => { x with snap := { x.snap with state := st } }) { s with shadow := s.shadow.set p none }

/-- SNAPSHOT-RELEASE (R64): OK also where no snapshot is held (DESIGN CHOICE, log entry 60). -/
def execSnapshotRelease (h : Hdr) (s : State) : Out :=
  .next (vci (cmd 0x0104 .openC true 0) h (fun _ => true)
    (fun t => if (getPart t h.part).snap.state = .valid then done (endSnapshot h.part .released t) else done t) s)

/-- A snapshot ends without SNAPSHOT-RELEASE (R64): reason 0 shadow full, 1 expired. -/
def abortSnapshot (p : HP) (reason : Nat) (s : State) : State :=
  let n := (getPart s p).snap
  raise 0x020C 1 (leBytes 4 n.groups.toNat ++ leBytes 4 n.gen.toNat ++ [BitVec.ofNat 8 reason]) none (endSnapshot p .aborted s)

/-- SNAPSHOT_EXPIRY (R64). -/
def execSnapshotExpiry (part : HP) (s : State) : Out :=
  .next (if (getPart s part).snap.state = .valid ∧ (getPart s part).snap.expiry ≤ elNs s then abortSnapshot part 1 s else s)

/-- SHADOW_FULL (R64). -/
def execShadowFull (part : HP) (s : State) : Out :=
  .next (if (getPart s part).snap.state = .valid then abortSnapshot part 0 s else s)

/-- Entries of a windowed table, where the group has it; none for a table that is not windowed (2.8). -/
def windowSize (s : State) (group table first : Nat) : Option Nat :=
  match group, table with
  | 0x05, 0 => some 262144
  | 0x05, 1 => some 5242880
  | 0x06, g => if g < 20 ∧ (getGrid s g).active then some (slotsOf (rateOfGrid g) (getGrid s g).cfg.windowMs * cellsOf s g) else none
  | 0x07, 0 => some 5242880
  | 0x0D, 0 => some 128
  | 0x0D, 1 => some 16
  | 0x10, 0 => some 64
  | 0x09, t =>
    -- R255: a capture's record slots, or an import or merge slot
    let slot := first / 2 ^ 26
    if t < 64 then
      match tget s.cap.caps t with
      | some c => if slot < c.slotCount then some (2 ^ 32) else some 0
      | none => some 0
    else if t < 84 then (if slot = 0 then some (2 ^ 32) else some 0)
    else none
  | _, _ => none

/-- The windows of a partition once one is placed: groups 0x06 and 0x09 have one window, which shows the table it was last placed on (R181, R255). -/
def placeWindow (g t first : Nat) (w : Tbl Nat) : Tbl Nat :=
  tset (if g = 6 ∨ g = 9 then tkeep (fun k _ => decide (k / 256 ≠ g)) w else w) (g * 256 + t) first

/-- APERTURE-WINDOW (R49). -/
def execApertureWindow (h : Hdr) (p : ApertureWindowP) (s : State) : Out :=
  .next (vci (cmd 0x0105 .openC false 8) h
    (fun t => decide (p.rsv = 0) &&
      (match windowSize t p.group.toNat p.table.toNat p.first.toNat with
       | some n => decide (p.first.toNat < n)
       | none => false))
    (fun t => done (modPart h.part
      (fun x => { x with windows := placeWindow p.group.toNat p.table.toNat p.first.toNat x.windows }) t)) s)

/-- HEARTBEAT (R488): it counts at its doorbell. -/
def execHeartbeat (h : Hdr) (p : HeartbeatP) (s : State) : Out :=
  .next (vci (cmd 0x0201 .openC true 8) h (fun _ => decide (p.rsv = 0))
    (fun t =>
      let t1 := countHeartbeat h.part t
      doneWith (leBytes 4 p.hostSeq.toNat ++ [optHP t1.host.controller, BitVec.ofNat 8 (getPart t1 h.part).pstate.num, 0, 0] ++
        leBytes 8 t.clk.sec.toNat) t1) s)

/-- CLAIM-SET (R55): a claim that another partition holds is found after the checks of R39 (DESIGN CHOICE, log entry 60). -/
def execClaimSet (h : Hdr) (p : ClaimSetP) (s : State) : Out :=
  .next (vci (cmd 0x0202 .control true 4) h (fun _ => decide (p.rsv = 0 ∧ p.partition.toNat < 4))
    (fun t =>
      let q : HP := Fin.ofNat 4 p.partition.toNat
      if claimUnique t q p.claim then done (setClaim q p.claim h.part t) else refuse .badParam t) s)

/-- CLAIM-YIELD (R55): below the current claim. -/
def execClaimYield (h : Hdr) (p : ClaimYieldP) (s : State) : Out :=
  .next (vci (cmd 0x0203 .openC true 4) h (fun _ => decide (p.rsv = 0))
    (fun t =>
      if p.claim.toNat < (getPart t h.part).claim.toNat ∧ claimUnique t h.part p.claim then done (setClaim h.part p.claim h.part t)
      else refuse .badParam t) s)

/-- The quotas of an APPORTION. -/
def apportionQuota (p : ApportionP) : Quota :=
  ⟨p.streams.toNat, p.channels.toNat, p.voiceSlots.toNat, p.publications.toNat, p.dmaRings.toNat, p.captureRings.toNat,
   p.userCores.toNat⟩

/-- The sum of the quotas over the partitions. -/
def quotaSum (s : State) : Quota := allHP.foldl (fun a p => a.add (getPart s p).quota) Quota.zero

/-- APPORTION (R51): current use is checked with the ranges, the device limits last. -/
def execApportion (h : Hdr) (p : ApportionP) (s : State) : Out :=
  .next (vci (cmd 0x0204 .control false 32) h
    (fun t => decide (p.rsv = 0 ∧ p.partition.toNat < 4 ∧ p.dmaRings.toNat ≤ 64) &&
      (useOf t (Fin.ofNat 4 p.partition.toNat)).le (apportionQuota p))
    (fun t =>
      let q : HP := Fin.ofNat 4 p.partition.toNat
      let t1 := modPart q (fun x => { x with quota := apportionQuota p }) t
      if (quotaSum t1).le Quota.limit then
        done (raise 0x020D 1 (p.partition :: (apportionQuota p).bytes) none t1)
      else refuse .noResource t) s)

/-- PARTITION-TIMERS (R487, R57). -/
def execPartitionTimers (h : Hdr) (p : PartitionTimersP) (s : State) : Out :=
  .next (vci (cmd 0x0205 .control false 8) h
    (fun _ => decide (p.rsv = 0 ∧ 100 ≤ p.failMs.toNat ∧ p.failMs.toNat ≤ 5000 ∧ 1000 ≤ p.holdoffMs.toNat ∧ p.holdoffMs.toNat ≤ 60000 ∧
      p.hbpFitted.toNat < 16))
    (fun t =>
      let t1 := { t with host := { t.host with failMs := p.failMs, holdoffMs := p.holdoffMs } }
      let t2 := allHP.foldl (fun a q => modPart q (fun x => { x with hbpFitted := p.hbpFitted.getLsbD q.val }) a) t1
      done (evalAll t2)) s)

/-- Powers of two from 64 to 65,536. -/
def ringEntriesOk (n : Nat) : Bool := decide (n ∈ [64, 128, 256, 512, 1024, 2048, 4096, 8192, 16384, 32768, 65536])

/-- DMA-RING-SETUP (R68). -/
def execDmaRingSetup (h : Hdr) (p : DmaRingSetupP) (s : State) : Out :=
  .next (vci (cmd 0x0206 .openC false 16) h
    (fun _ => decide (p.rsv = 0 ∧ p.ring.toNat < 64 ∧ p.dir.toNat < 2 ∧ p.base.toNat % 4096 = 0) && ringEntriesOk p.entries.toNat)
    (fun t =>
      match getRing t h.part p.ring.toNat with
      | some _ => refuse .busy t
      | none =>
        if ringCount t h.part < (getPart t h.part).quota.dmaRings then
          done (setRing h.part p.ring.toNat
            { toDev := decide (p.dir = 1), entries := p.entries.toNat, base := p.base, hostIdx := 0, devIdx := 0, use := .unbound, bells := [],
              retiring := none, owned := [], lastDone := none } t)
        else refuse .noResource t) s)

/-- DMA-RING-RETIRE (R68): unbound at once, a long command of 100 ms. A ring that does not exist is found after the limit of R44, and a
second retire is BUSY (DESIGN CHOICE, log entry 60). -/
def execDmaRingRetire (h : Hdr) (p : DmaRingRetireP) (s : State) : Out :=
  .next (vci (cmdLong 0x0207 .openC false 4) h (fun _ => decide (p.rsv = 0 ∧ p.ring.toNat < 64))
    (fun t =>
      match getRing t h.part p.ring.toNat with
      | none => refuse .badParam t
      | some r =>
        if r.retiring ≠ none then refuse .busy t else
        let (id, t1) := startLong h 0x0207 100 (unbindUse h.part p.ring.toNat t)
        let t2 := modPart h.part (fun x => { x with rings := tmod x.rings p.ring.toNat (fun y => { y with retiring := some id }) }) t1
        ⟨.accepted, [], t2⟩) s)

/-- DMA_RING_RETIRE_DONE (R68): what the device owns completes with BUSY, the ring ends, and the command completes. -/
def execDmaRingRetireDone (part : HP) (ring : BitVec 6) (s : State) : Out :=
  .next (match getRing s part ring.toNat with
    | none => s
    | some r =>
      match r.retiring with
      | none => s
      | some id =>
        let s1 := flushRing part ring.toNat s
        completeLong id .ok [] (modPart part (fun x => { x with rings := tdel x.rings ring.toNat }) s1))

/-- EARLY_DOORBELL (R38, R458): ignored and counted. -/
def execEarlyDoorbell (part : HP) (urg : Bool) (s : State) : Out :=
  .next (if (getPart s part).present = false then s
    else if s.dev.boot = .ready then bump (partBase part + 0x60) s
    else if recovering s ∧ part = 0 ∧ urg = false then s
    else bump 0x01000100 s)

/-- DISCARDED_WRITE (R35). -/
def execDiscardedWrite (part : HP) (_bar : BitVec 3) (s : State) : Out :=
  .next (if (getPart s part).present then bump (partBase part + 0x80) s else s)

/-- EVT_CONS_WRITE (R48): discarded where it would pass EVT_PROD. -/
def execEvtConsWrite (part : HP) (value : U32) (s : State) : Out :=
  let q := getPart s part
  .next (if q.present = false then s
    else if (q.evtProd - q.evtCons).toNat < (value - q.evtCons).toNat then bump (partBase part + 0x80) s
    else eventsLost part (setPart part { q with evtCons := value } s))

/-- A descriptor the host did not describe. -/
def Desc.blank : Desc := ⟨0, 0, false, false, false⟩

/-- The doorbells of a ring that gave descriptors the device still owns. -/
def ringBells (r : Ring) : List (U32 × Nat) := r.bells.filter (fun b => decide (0 < (b.1 - r.devIdx).toInt))

/-- HOST_IDX_WRITE (R66): the device takes ownership of the new descriptors; discarded where the ring would hold more than its
entries, where it would move the index back, and where the ring does not exist (the last two DESIGN CHOICE, log entry 60). -/
def execHostIdxWrite (part : HP) (ring : BitVec 6) (value : U32) (descs : List Desc) (s : State) : Out :=
  .next (match getRing s part ring.toNat with
    | none => if (getPart s part).present then bump (partBase part + 0x80) s else s
    | some r =>
      if r.entries < (value - r.devIdx).toNat ∨ (value - r.devIdx).toNat < (r.hostIdx - r.devIdx).toNat then bump (partBase part + 0x80) s
      else
        let n := (value - r.hostIdx).toNat
        let new := (descs ++ List.replicate (n - descs.length) Desc.blank).take n
        setRing part ring.toNat { r with hostIdx := value, owned := r.owned ++ new, bells := ringBells r ++ if n = 0 then [] else [(value, taiNs s)] } s)

/-- DMA_DESCRIPTOR_DONE (R66, R67): the oldest host-to-device descriptor completes, with POISONED where words of its data arrived poisoned. -/
def execDmaDescriptorDone (part : HP) (ring : BitVec 6) (poison : U16) (s : State) : Out :=
  .next (match getRing s part ring.toNat with
    | none => s
    | some r =>
      if r.toDev = false ∨ hostReads s part = false then s
      else match r.owned with
        | [] => s
        | d :: _ => completeDesc part ring.toNat (if poison = 0 then .ok else .poisoned) d.len.toNat [] (poisonDma part poison.toNat s))

/-- HB_IN_CHANGE (R488): timed by its edge, 10 µs before it counts. -/
def execHbInChange (part : HP) (level : Bool) (s : State) : Out :=
  .next (if (getPart s part).present = false then s else
    evalPart part (modPart part (fun q => { q with p := true, hbIn := level, lastP := BitVec.ofNat 64 (taiNs s - 10000),
                                                   lastPEl := elNs s - 10000 }) s))

/-- PATH_V_TIMEOUT (R56): 100 ms after the last counted HEARTBEAT; a path P whose loss has the same timestamp is lost with it. -/
def execPathVTimeout (part : HP) (s : State) : Out :=
  let q := getPart s part
  .next (if q.v = false ∨ elNs s < q.lastVEl + 100000000 then s
    else
      let both := q.p && decide (q.lastPEl + 50000000 = q.lastVEl + 100000000)
      evalPart part (modPart part (fun x => { x with v := false, p := if both then false else x.p }) s))

/-- PATH_P_TIMEOUT (R488): 50 ms after the edge of the last counted level change; a path V whose loss has the same timestamp is lost with
it. -/
def execPathPTimeout (part : HP) (s : State) : Out :=
  let q := getPart s part
  .next (if q.p = false ∨ elNs s < q.lastPEl + 50000000 then s
    else
      let both := q.v && decide (q.lastPEl + 50000000 = q.lastVEl + 100000000)
      evalPart part (modPart part (fun x => { x with p := false, v := if both then false else x.v }) s))

/-- Whether a timer has run out. -/
def timerDue (s : State) (t : Option Nat) : Bool :=
  match t with
  | some e => decide (e ≤ elNs s)
  | none => false

/-- FAILURE_TIMER_EXPIRY (R58). -/
def execFailureTimerExpiry (part : HP) (s : State) : Out :=
  let q := getPart s part
  .next (if q.pstate = .failing ∧ timerDue s q.failTimer then
    toOut part 0x0204 (BitVec.ofNat 8 part.val :: q.claim :: (leBytes 8 q.lastV.toNat ++ leBytes 8 q.lastP.toNat)) 0 s
    else s)

/-- HOLDOFF_TIMER_EXPIRY (R58): failback by re-evaluation. -/
def execHoldoffTimerExpiry (part : HP) (s : State) : Out :=
  let q := getPart s part
  .next (if q.pstate = .returning ∧ timerDue s q.holdTimer then reeval 1 (toHealthy part s) else s)

/-- TAKEOVER_DEADLINE (R60). -/
def execTakeoverDeadline (part : HP) (s : State) : Out :=
  let q := getPart s part
  .next (if q.pstate.live ∧ timerDue s q.takeover then
    toOut part 0x0207 (BitVec.ofNat 8 part.val :: leBytes 8 (taiNs s - (elNs s - q.takeover.getD 0))) 3 s
    else s)

/-- PCIE_LINK_DOWN (R69). -/
def execPcieLinkDown (part : HP) (s : State) : Out := .next (modPart part (fun q => { q with link := false }) s)

/-- PCIE_LINK_UP (R69, R458): a partition whose lanes form no link never has one. -/
def execPcieLinkUp (part : HP) (s : State) : Out :=
  .next (modPart part (fun q => { q with link := q.present }) s)

/-- The rings of a partition by number. -/
def ringNumbers (s : State) (p : HP) : List Nat := (getPart s p).rings.map (·.1)

/-- PARTITION_RESET (R464). -/
def execPartitionReset (part : HP) (s : State) : Out :=
  .next (if (getPart s part).present = false then s else
    let s1 := (ringNumbers s part).foldl (fun t n => unbindUse part n t) s
    let s2 := if (getPart s1 part).snap.state = .valid then endSnapshot part .released s1 else s1
    let s3 := modPart part (fun q =>
      { q with mbxN := .init, mbxU := .init, cacheN := [], cacheU := [], evtProd := 0, evtCons := 0, evtRing := [],
               rings := tmap (fun _ r => { r with owned := [], lastDone := none }) q.rings }) s2
    eventsLost part s3)

end Sys2Proof.Machine
end

