-- ==== Sys2Proof/Machine/Poppy.lean ====
section
/-!
DEFINITION. The commands and events of the Poppy recorder, OTP and flash (group 0x11, 17_recorder_persistence.md).
-/

namespace Sys2Proof.Machine

/-- Set a partition's read window (R439). -/
def setWin (p : HP) (n : Nat) (s : State) : State := { s with pop := { s.pop with winFirst := s.pop.winFirst.set p n } }

/-- POPPY_CURSOR_ABSOLUTE (R439): a 48-bit record number. -/
def execPoppyCursorAbsolute (h : Hdr) (p : PoppyCursorP) (s : State) : Out :=
  .next (vci (cmd 0x1101 .openC true 16) h (fun _ => decide (p.rsv = 0 ∧ p.value.toNat < 2 ^ 48))
    (fun t => done (setWin h.part p.value.toNat t)) s)

/-- POPPY_CURSOR_RELATIVE (R439): a signed step; a window outside the record numbers returns BAD-PARAM. -/
def execPoppyCursorRelative (h : Hdr) (p : PoppyCursorP) (s : State) : Out :=
  .next (vci (cmd 0x1101 .openC true 16) h
    (fun t =>
      let n := (t.pop.winFirst.get h.part : Int) + p.value.toInt
      decide (p.rsv = 0 ∧ 0 ≤ n ∧ n < 2 ^ 48))
    (fun t => done (setWin h.part ((t.pop.winFirst.get h.part : Int) + p.value.toInt).toNat t)) s)

/-- POPPY_CURSOR_FIRST_KEPT (R439). -/
def execPoppyCursorFirstKept (h : Hdr) (p : PoppyCursorP) (s : State) : Out :=
  .next (vci (cmd 0x1101 .openC true 16) h (fun _ => decide (p.rsv = 0 ∧ p.value = 0)) (fun t => done (setWin h.part 0 t)) s)

/-- POPPY_CURSOR_OLDEST_CIRC (R439). -/
def execPoppyCursorOldestCirc (h : Hdr) (p : PoppyCursorP) (s : State) : Out :=
  .next (vci (cmd 0x1101 .openC true 16) h (fun _ => decide (p.rsv = 0 ∧ p.value = 0))
    (fun t => done (setWin h.part t.pop.oldestCirc t)) s)

/-- POPPY_CURSOR_LATEST (R439): NEXT_REC − 64; the spec does not state the window while fewer than 64 records exist, which is then a free
value. -/
def execPoppyCursorLatest (h : Hdr) (p : PoppyCursorP) (s : State) : Out :=
  .next (vci (cmd 0x1101 .openC true 16) h (fun _ => decide (p.rsv = 0 ∧ p.value = 0))
    (fun t =>
      if 64 ≤ t.pop.nextRec then done (setWin h.part (t.pop.nextRec - 64) t)
      else
        let (v, t1) := fresh t
        done (setWin h.part (v % 2 ^ 48) t1)) s)

/-- Count tokens of a code from now on, up to a burst (R432). -/
def rebase (s : State) (burst : Nat) (k : Bucket) : Bucket :=
  { k with tokens := min burst k.tokens, base := absTick s, granted := 0 }

/-- Set the default rate and burst: it applies to every code without an override. -/
def setDefaults (rate burst : Nat) (s : State) : State :=
  let free := grants s.pop.defRate (absTick s - s.pop.defBase)
  let ovr (c : Nat) : Bool := tany (fun _ o => decide (o.code.toNat = c)) s.pop.overrides
  let bs := tmap (fun c _ => if ovr c then bucketNow s c else rebase s burst (bucketNow s c)) s.pop.buckets
  { s with pop := { s.pop with defRate := rate, defBurst := burst, defBase := absTick s
                               defTokens := min burst (min s.pop.defBurst (s.pop.defTokens + free)), buckets := bs } }

/-- An event code: a group of Table 0.3 and a number from 0x01 to 0xFF (R441). -/
def eventCode (c : U16) : Bool := decide (1 ≤ c.toNat / 256 ∧ c.toNat / 256 ≤ 0x11 ∧ c.toNat % 256 ≠ 0)

/-- POPPY_RATE_SET (R452). -/
def execPoppyRateSet (h : Hdr) (p : PoppyRateP) (s : State) : Out :=
  .next (vci (cmd 0x1102 .control false 8) h
    (fun _ => decide (p.rsv = 0 ∧ 1 ≤ p.rate.toNat ∧ p.rate.toNat ≤ 1000 ∧ 1 ≤ p.burst.toNat ∧ p.burst.toNat ≤ 1000) &&
      (decide (p.code = 0) || eventCode p.code))
    (fun t =>
      if p.code = 0 then done (setDefaults p.rate.toNat p.burst.toNat t)
      else
        let slot := match tfind (fun _ o => decide (o.code = p.code)) t.pop.overrides with
          | some (k, _) => some k
          | none => tfreeFrom t.pop.overrides 64 0
        match slot with
        | none => refuse .noResource t
        | some k =>
          let b := rebase t p.burst.toNat (bucketNow t p.code.toNat)
          done (setBucket p.code.toNat b
            { t with pop := { t.pop with overrides := tset t.pop.overrides k ⟨p.code, p.rate.toNat, p.burst.toNat⟩ } })) s)

/-- POPPY_RATE_REMOVE (R452). -/
def execPoppyRateRemove (h : Hdr) (p : PoppyRateP) (s : State) : Out :=
  .next (vci (cmd 0x1102 .control false 8) h
    (fun t => decide (p.rsv = 0 ∧ p.rate = 0 ∧ p.burst = 0) &&
      (decide (p.code = 0) || tany (fun _ o => decide (o.code = p.code)) t.pop.overrides))
    (fun t =>
      if p.code = 0 then done (setDefaults 10 20 t)
      else
        let b := rebase t t.pop.defBurst (bucketNow t p.code.toNat)
        done (setBucket p.code.toNat b
          { t with pop := { t.pop with overrides := tkeep (fun _ o => decide (o.code ≠ p.code)) t.pop.overrides } })) s)

/-- Read k bytes at an offset of a generation (counted from its byte 0, whose header is 4 B). -/
def genField (c : Bytes) (off k : Nat) : Nat := leNat ((c.drop (off - 4)).take k)

/-- The quotas a defaults generation gives a partition (Table 17.6). -/
def genQuota (c : Bytes) (p : Nat) : Quota :=
  let f (i : Nat) := genField c (4 + p * 28 + i * 4) 4
  ⟨f 0, f 1, f 2, f 3, f 4, f 5, f 6⟩

/-- A boot configuration within its ranges (Table 17.5). -/
def bootContentOk (c : Bytes) : Bool :=
  decide (c.length = 188 ∧ genField c 4 1 < 4 ∧ genField c 5 1 < 2 ∧ 25 ≤ genField c 6 1 ∧ genField c 6 1 ≤ 133 ∧ genField c 7 1 = 0 ∧
    genField c 22 2 = 0 ∧ genField c 152 40 = 0)

/-- Partition defaults within their ranges (Table 17.6, R51, R55). -/
def defContentOk (c : Bytes) : Bool :=
  let q := (List.range 4).foldl (fun a p => a.add (genQuota c p)) Quota.zero
  let claims := ((c.drop 112).take 4).filter (fun x => decide (x ≠ 0))
  decide (c.length = 124) && q.le Quota.limit && (List.range 4).all (fun p => decide ((genQuota c p).dmaRings ≤ 64)) &&
  decide (claims.eraseDups.length = claims.length) &&
  decide (100 ≤ genField c 120 2 ∧ genField c 120 2 ≤ 5000 ∧ 1000 ≤ genField c 122 2 ∧ genField c 122 2 ≤ 60000 ∧
    genField c 124 1 < 16 ∧ genField c 125 3 = 0)

/-- The generations of an OTP group: 0 boot configuration, 1 seal, 2 defaults. -/
def otpGroup (s : State) (g : Nat) : Tbl OtpGen :=
  match g with
  | 0 => s.pop.otpBoot
  | 1 => s.pop.otpSeal
  | _ => s.pop.otpDef

def setOtpGroup (g : Nat) (t : Tbl OtpGen) (s : State) : State :=
  match g with
  | 0 => { s with pop := { s.pop with otpBoot := t } }
  | 1 => { s with pop := { s.pop with otpSeal := t } }
  | _ => { s with pop := { s.pop with otpDef := t } }

/-- OTP-WRITE (R445): SEALED on a frozen group, BUSY while one is in progress; a long command of 1,000 ms. -/
def execOtpWrite (h : Hdr) (p : OtpWriteP) (s : State) : Out :=
  .next (vci (cmdLong 0x1103 .control false (if p.group = 2 then 128 else 192)) h
    (fun _ => decide (p.rsv = 0) &&
      ((decide (p.group = 0) && bootContentOk p.content) || (decide (p.group = 2) && defContentOk p.content)))
    (fun t =>
      if 4 ≤ (otpGroup t p.group.toNat).length then refuse .isSealed t
      else if t.pop.otpPending ≠ none then refuse .busy t
      else
        let (id, t1) := startLong h 0x1103 1000 t
        ⟨.accepted, [], { t1 with pop := { t1.pop with otpPending := some (p.group, p.content, id, h.part) } }⟩) s)

/-- OTP_WRITE_DONE (R444, R445). -/
def execOtpWriteDone (ok : Bool) (s : State) : Out :=
  .next (match s.pop.otpPending with
    | none => s
    | some (g, content, id, part) =>
      if ok = false then s else
      let t := writeGen (otpGroup s g.toNat) content
      let s1 := refreshOtp (setOtpGroup g.toNat t { s with pop := { s.pop with otpPending := none } })
      completeLong id .ok [BitVec.ofNat 8 t.length] (otpEvents g.toNat t.length part t.length s1))

/-- The image a FLASH-IMAGE-WRITE names is the one that runs. -/
def writesRunning (s : State) (target : Nat) : Bool :=
  decide (s.dev.boot = .ready) && (decide (target = 0) && !s.dev.imageB || decide (target = 1) && s.dev.imageB)

/-- FLASH-IMAGE-WRITE (R449): BUSY on the running image; a long command of 30,000 ms; recovery serves targets 0 and 1 (R459). -/
def execFlashImageWrite (h : Hdr) (p : FlashImageWriteP) (s : State) : Out :=
  .next (vci { op := 0x1104, cls := .control, u := false, long := true, len := 8, recovery := decide (p.target.toNat < 2) } h
    (fun t => decide (p.rsv = 0 ∧ p.target.toNat < 3 ∧ (if p.target = 2 then p.slot.toNat < 32 else p.slot = 0) ∧ p.ring.toNat < 64 ∧
      (if p.target = 2 then 256 ≤ p.bytes.toNat ∧ p.bytes.toNat ≤ 164096 else 1 ≤ p.bytes.toNat ∧ p.bytes.toNat ≤ 8388608)) &&
      (recovering t || ringFree t h.part p.ring.toNat true))
    (fun t =>
      if writesRunning t p.target.toNat then refuse .busy t
      else
        let (id, t1) := startLong h 0x1104 30000 t
        let w : ImageWrite := { target := p.target, slot := p.slot.toNat, ring := p.ring.toNat, bytes := p.bytes.toNat, long := some id,
                                part := h.part }
        ⟨.accepted, [], bindRing h.part p.ring.toNat .image { t1 with pop := { t1.pop with imgPending := t1.pop.imgPending ++ [w] } }⟩) s)

/-- FLASH_IMAGE_WRITTEN (R449, R459): the oldest write in progress has its image; one that does not verify is refused with its region
untouched. -/
def execFlashImageWritten (img : ImageIn) (s : State) : Out :=
  .next (match s.pop.imgPending with
    | [] => s
    | w :: rest =>
      if img.img.bytes.length < w.bytes ∨ (recovering s || hostReads s w.part) = false then s
      else
      let s1 := unbindRing w.part w.ring .image { s with pop := { s.pop with imgPending := rest } }
      let data := img.img.bytes.take w.bytes
      let b := readBeleth { img.img with bytes := data }
      let firm := decide (w.target ≠ 2)
      if (if firm then img.ok else (belethCheck s1 data.length b).isNone) = false then completeOpt w.long .badParam [] s1
      else
        let version := if firm then img.version else b.imageVersion
        let e : ImgEnt := { valid := true, bytes := w.bytes, version, imageId := if firm then 0 else b.imageId, sha := if firm then img.sha else 0 }
        let (r, ks) := imageSectors w.target.toNat w.slot
        let s2 := eraseSectors r ks { s1 with pop := { s1.pop with images := tset s1.pop.images (imgKey w.target.toNat w.slot) data } }
        let d := putImage w.target.toNat w.slot e (currentDir s2)
        let s3 := if recovering s then
            let okA := (match s.dev.bootIn with | some b => b.imgA | none => false)
            let okB := (match s.dev.bootIn with | some b => b.imgB | none => false)
            let d' := if w.target = 0 then { d with imageB := { d.imageB with valid := okB } }
                      else { d with imageA := { d.imageA with valid := okA } }
            writeDirBoth d' s2
          else writeDir d s2
        completeOpt w.long .ok []
          (raise 0x1109 1 (w.target :: BitVec.ofNat 8 w.slot :: leBytes 4 version.toNat) none s3))

/-- FLASH-CONFIG (R450). -/
def execFlashConfig (h : Hdr) (p : FlashConfigP) (s : State) : Out :=
  .next (vci (cmd 0x1105 .control false 8) h
    (fun _ => decide (p.rsv = 0 ∧ 1000 ≤ p.endurance.toNat ∧ p.endurance.toNat ≤ 10000000 ∧ 50 ≤ p.wearPct.toNat ∧ p.wearPct.toNat ≤ 99))
    (fun t =>
      let t1 := { t with pop := { t.pop with endurance := p.endurance.toNat, wearPct := p.wearPct.toNat } }
      done ((List.range 11).foldl (fun a r => checkWear r a) t1)) s)

/-- RATE_LIMIT_REFILL (R433). -/
def execRateLimitRefill (code : U16) (s : State) : Out := .next (leaveLimited code.toNat s)

/-- FLUSH_PERIODIC (R434): every 10 s of device time. -/
def execFlushPeriodic (s : State) : Out :=
  .next (if elNs s < s.pop.periodicEl + 10000000000 then s
    else
      let s1 := { s with pop := { s.pop with periodicEl := s.pop.periodicEl + 10000000000 } }
      if s.pop.buffer = [] then s1 else beginFlush s1)

/-- FLUSH_START (R434): 512 buffered entries, a severity-3 record, or a reset the device initiates. -/
def execFlushStart (s : State) : Out :=
  .next (if 512 ≤ s.pop.buffer.length ∨ s.pop.buffer.any (fun r => decide (r.severity = 3)) ∨ s.dev.resetReq ≠ none then beginFlush s
    else s)

/-- FLUSH_DONE (R434, R450): on a second failure of a page the records stay buffered and the failure is counted and raised. -/
def execFlushDone (ok : Bool) (s : State) : Out :=
  .next (if s.pop.flushing = false then s
    else if ok then endFlush s
    else
      let num := (s.pop.buffer.head?.map (·.num)).getD s.pop.nextRec
      let s1 := bump 0x11000128 { s with pop := { s.pop with flushing := false } }
      raise 0x1105 3 ((if num < 32768 then 3 else 4) :: leBytes 4 (recAddr s num)) none s1)

/-- OP_TIME_LOG_WRITE (R443): every 10 s a cell, in two sectors that alternate; op_hours that stick set their SATSUM bit. -/
def execOpTimeLogWrite (s : State) : Out :=
  .next (if elNs s < s.pop.opLogEl + 10000000000 then s
    else
      let full := decide (2 ^ 32 - 1 ≤ opSeconds s / 3600)
      let s1 := { s with pop := { s.pop with opLogEl := s.pop.opLogEl + 10000000000, opLogged := opSeconds s, opCells := s.pop.opCells + 1
                                             satsum := if full then s.pop.satsum ||| 2 else s.pop.satsum } }
      if s.pop.opCells % 4096 = 0 then eraseSectors 5 [0x133 + s.pop.opCells / 4096 % 2] s1 else s1)

end Sys2Proof.Machine
end

