-- ==== Sys2Proof/Machine/ResetOps.lean ====
section
/-!
DEFINITION. Operations of power-up, boot, reset and power failure (18_startup_reset.md, with R303, R304, R434 to R437, R442 to R448): what a
reset clears, the boot stages, the restore, and saving before a reset.
-/

namespace Sys2Proof.Machine

def Cause.num : Cause → Nat
  | .powerOn => 0
  | .system => 1
  | .commanded => 2
  | .watchdog => 3
  | .firmwareHalt => 4

/-! ### What a reset clears (R442, R463) -/

/-- The record number after the last one in flash. -/
def recEnd (s : State) : Nat :=
  let hi (t : Tbl Rec) (n : Nat) : Nat := t.foldl (fun m e => max m (e.1 + 1)) n
  hi s.pop.circ (hi s.pop.kept 0)

/-- An OTP write in progress leaves its slot used (R444), and an image write leaves its target invalid (R449). -/
def cutWrites (s : State) : State :=
  let s1 := match s.pop.otpPending with
    | some (g, _, _, _) => setOtpGroup g.toNat (burnGen (otpGroup s g.toNat)) s
    | none => s
  let s2 := if s.eq.sealReq.isSome then setOtpGroup 1 (burnGen (otpGroup s1 1)) s1 else s1
  s2.pop.imgPending.foldl (fun t w =>
    let bad (d : DirCopy) : DirCopy := putImage w.target.toNat w.slot .none d
    { t with pop := { t.pop with dir0 := t.pop.dir0.map bad, dir1 := t.pop.dir1.map bad } }) s2

/-- The Poppy store as flash and OTP keep it. -/
def keptPop (p : PopBlk) (endRec : Nat) : PopBlk :=
  { PopBlk.init with
    nextRec := endRec, oldestCirc := p.oldestCirc, satsum := p.satsum, keptFull := p.keptFull, kept := p.kept, keptUsed := p.keptUsed, circ := p.circ,
    circSec := p.circSec, circCur := p.circCur, erases := p.erases, powerCycles := p.powerCycles, opBase := p.opLogged,
    opLogged := p.opLogged, opCells := p.opCells, otpBoot := p.otpBoot, otpSeal := p.otpSeal, otpDef := p.otpDef, dir0 := p.dir0,
    dir1 := p.dir1, dirLast := p.dirLast, images := p.images, cfgCopy := p.cfgCopy, tblCopy := p.tblCopy, failing := p.failing, flushSlot := p.flushSlot, flushUnreported := p.flushUnreported }

/-- Everything but what flash, OTP and the pins keep stands at its reset value; no command in progress is left (R463). -/
def clearAll (s0 : State) : State :=
  let s := cutWrites s0
  let newest := [s.eq.slotA, s.eq.slotB].foldl (fun m g => match g with
    | some x => if x.crcOk ∧ m < x.seq.toNat then x.seq.toNat else m
    | none => m) 0
  let seq := match s.eq.flushHdr with
    | some (_, q) => max newest q.toNat
    | none => newest
  { Blocks.reset with
    dev := { DevBlk.init with porn := s.dev.porn, pfailN := s.dev.pfailN, uncleanRec := s.dev.uncleanRec, bootIn := s.dev.bootIn
                              cycleDue := s.dev.cycleDue }
    pop := keptPop s.pop (recEnd s)
    eq := { EqBlk.init with
      slotA := s.eq.slotA, slotB := s.eq.slotB, flushHdr := s.eq.flushHdr, flushImg := s.eq.flushImg, stored := s.eq.stored,
      storedOld := s.eq.storedOld, saveSeq := BitVec.ofNat 32 seq }
    jtag := s.jtag
    free := s.free
    shadow := .all none
    pending := s.pending }

/-! ### Boot stages 1 to 4 (R455, R457, Table 18.3) -/

/-- A boot stage halts the device. -/
def haltAt (stage code : Nat) (s : State) : State :=
  { s with dev := { s.dev with boot := .halted, stage, haltCode := BitVec.ofNat 8 code } }

/-- Note a BOOT-WARNING. -/
def warn (c : Bool) (cause : U8) (s : State) : State :=
  if c then { s with dev := { s.dev with warnings := s.dev.warnings ++ [cause] } } else s

/-- A generation was written and does not verify, above the active one (R444). -/
def genFallback (t : Tbl OtpGen) : Bool := t.any (fun e => e.2.written && !e.2.crcOk && decide (activeNo t < e.2.gen))

/-- A byte of the active boot configuration, at an offset of the generation; 0 where none is written. -/
def bootField (s : State) (off k : Nat) : Nat := (activeGen s.pop.otpBoot).elim 0 (fun g => genField g.content off k)

/-- Partitions at boot: links by bifurcation (R33), and quotas, claims and timers of the defaults (R53). -/
def bootHosts (s : State) : State :=
  let bf := bootField s 4 1
  let present (p : HP) : Bool := match p with
    | 0 => true
    | 1 => bf.testBit 0
    | 2 => true
    | 3 => bf.testBit 1
  let base : HostBlk := match activeGen s.pop.otpDef with
    | none => .init
    | some g =>
      let part (p : HP) : Part :=
        { Part.init true (BitVec.ofNat 8 (genField g.content (116 + p.val) 1)) (genQuota g.content p.val) with
          hbpFitted := (genField g.content 124 1).testBit p.val }
      { HostBlk.init with parts := ⟨part 0, part 1, part 2, part 3⟩, failMs := BitVec.ofNat 16 (genField g.content 120 2)
                          holdoffMs := BitVec.ofNat 16 (genField g.content 122 2) }
  let put (p : HP) : Part := { base.parts.get p with present := present p }
  { s with host := { base with parts := ⟨put 0, put 1, put 2, put 3⟩ } }

/-- mac_base at boot (R105); with no generation written, that of the factory area stands. -/
def bootMacs (s : State) : State :=
  { s with net := { s.net with macBase := (activeGen s.pop.otpBoot).map (fun g => genField g.content 16 6) } }

/-- A Beleth key slot of the boot configuration; all zero means empty (R367). -/
def keySlotOf (s : State) (i : Nat) : Option (BitVec 256) :=
  let n := bootField s (24 + 32 * i) 32
  if n = 0 then none else some (BitVec.ofNat 256 n)

/-- Select the firmware image (R457): `ovr` 1 names A, 2 names B. -/
def selectImage (ovr : U8) (b : BootIn) (s : State) : Option (Bool × Bool) :=
  let d := currentDir s
  let ok (isB : Bool) : Bool := if isB then b.imgB && d.imageB.valid else b.imgA && d.imageA.valid
  let want := if ovr = 1 then false else if ovr = 2 then true else decide (bootField s 5 1 = 1)
  if ok want then some (want, false) else if ok (!want) then some (!want, true) else none

/-! ### Restore (R461, R304, Table 11.4) -/

/-- Put a save image on flash, without moving S_ref on: the save of stage 5. -/
def saveAt (ts : Nat) (s : State) : State :=
  let seq := s.eq.saveSeq + 1
  let g := imageOf ts seq true s
  let b := match s.eq.slotA, s.eq.slotB with
    | some x, some y => decide (y.crcOk = false ∨ (x.crcOk ∧ (x.seq - y.seq).toNat < 2 ^ 31))
    | some x, none => x.crcOk
    | none, _ => false
  bump 0x0B000100 (eraseSectors 6 [if b then 0x141 else 0x140]
    { s with eq := { s.eq with saveSeq := seq, lastSaveTs := ts, lastSaveEl := elNs s, nextB := !b, saving := none
                               slotA := if b then s.eq.slotA else some g, slotB := if b then some g else s.eq.slotB } })

/-- The newest save that verifies. -/
def newestSave (s : State) : Option EnergyImg :=
  match s.eq.slotA.filter (fun g => g.crcOk), s.eq.slotB.filter (fun g => g.crcOk) with
  | some a, some b => if (b.seq - a.seq).toNat < 2 ^ 31 then some b else some a
  | some a, none => some a
  | none, b => b

/-- A start-up entry for every enabled metering point. -/
def startGaps (kind : GapKind) (start end_ : Nat) (unknown isOpen : Bool) (s : State) : State :=
  s.sage.mps.foldl (fun t e =>
    if e.2.enable then
      let ref := (getEq t e.1).sRef
      let bound := if kind = .outage ∨ isOpen then 0 else gapBound ref (end_ - start)
      recordGap e.1 kind 0 start end_ bound ref unknown isOpen t
    else t) s

/-- Energy and the start-up entries (Table 11.4). -/
def restoreEnergy (s : State) : State :=
  let newer (q : U32) : Bool := match newestSave s with
    | some g => decide ((q - g.seq).toNat < 2 ^ 31 ∧ q ≠ g.seq)
    | none => true
  let hdr := s.eq.flushHdr.filter (fun x => newer x.2)
  let img := if hdr.isSome then s.eq.flushImg.filter (fun g => g.crcOk) else none
  match img, hdr, newestSave s with
  | some g, some (tf, _), _ =>
    startGaps .outage tf 0 false true (restoreImage g s)
  | _, some (tf, _), some g =>
    startGaps .outage tf 0 false true (startGaps .flushLost g.ts tf false false (bump 0x0B000118 (restoreImage g s)))
  | _, none, some g =>
    startGaps .flushLost g.ts 0 true true (bump 0x0B000118 (restoreImage g s))
  | _, _, none =>
    raise 0x0B0E 3 [] none (startGaps .flushLost 0 0 true true (bump 0x0B000118 s))

/-- Records of the flush slot go to their areas (R436, R461 step 1). -/
def restoreRecords (s : State) : State :=
  let new := s.pop.flushSlot.filter (fun r => (tget s.pop.kept r.num).isNone && (tget s.pop.circ r.num).isNone)
  let top := new.foldl (fun m r => max m (r.num + 1)) s.pop.nextRec
  new.foldl (fun t r => storeRec r t) { s with pop := { s.pop with nextRec := top } }

/-- The slot at which writing resumes after torn slots: the next page, of 256 B and eight slots (R438). -/
def slotAfter (used torn : Nat) : Nat :=
  if torn = 0 then used
  else
    let j := used + torn
    min 2047 (j + (8 - (j + 1) % 8) % 8)

/-- Torn slots found at start-up are counted and skipped: `tornEnd` of them lie behind the last record (R438). -/
def findTorn (b : BootIn) (s : State) : State :=
  let s1 := cntSet 0x11000120 b.torn.toNat s
  if s1.pop.nextRec < 32768 then
    let u := s1.pop.keptUsed
    { s1 with pop := { s1.pop with keptUsed := u / 2047 * 2047 + slotAfter (u % 2047) b.tornEnd.toNat } }
  else match tget s1.pop.circSec s1.pop.circCur with
    | some c => { s1 with pop := { s1.pop with circSec := tset s1.pop.circSec s1.pop.circCur
                                                { c with used := slotAfter c.used b.tornEnd.toNat } } }
    | none => s1

/-- power_cycles counts a PORN release and sticks (R443, Table 17.3). -/
def countCycle (s0 : State) : State :=
  let s := { s0 with dev := { s0.dev with cycleDue := true } }
  let n := s.pop.powerCycles
  if 0xFFFFFF ≤ n then s
  else
    let s1 := { s with pop := { s.pop with powerCycles := n + 1 } }
    if n + 1 = 0xFFFFFF then { s1 with pop := { s1.pop with satsum := s1.pop.satsum ||| 1 } } else s1

/-- Stage 5 (R461). -/
def restoreStage (b : BootIn) (s : State) : State :=
  let s1 := restoreRecords (findTorn b s)
  let s2 := { s1 with pop := { s1.pop with opCells := s1.pop.opCells + 1 } }
  let s3 := raiseIf s2.dev.cycleDue 0x110A 0 (leBytes 3 s2.pop.powerCycles ++ leBytes 4 (opHours s2)) none
    { s2 with dev := { s2.dev with cycleDue := false } }
  let s4 := saveAt (taiNs s3) (restoreEnergy s3)
  let ok := s4.eq.flushImg.elim false (fun g => g.crcOk)
  let s5 := raiseIf s4.pop.flushUnreported 0x0B0C 3 (leBytes 8 (s4.eq.flushHdr.elim 0 (·.1)) ++ [if ok then 1 else 0]) none s4
  if s5.eq.flushHdr.isSome ∨ s5.pop.flushSlot ≠ [] then
    eraseSectors 7 [0x142] { s5 with pop := { s5.pop with flushSlot := [], flushUnreported := false }
                                     eq := { s5.eq with flushHdr := none, flushImg := none } }
  else { s5 with pop := { s5.pop with flushUnreported := false } }

/-! ### Stage 6 (R448, R296) -/

/-- Apply a stored configuration: groups 0x0A and 0x0B. -/
def applyStored (c : StoredCfg) (s : State) : State :=
  { s with
    sage := { SageBlk.init with
      fMod8 := c.fMod8, clkEn := c.clkEn, svWindow := c.svWindow, mps := c.mps,
      inputs := tmap (fun _ i => { i with tempStale := decide (i.tempSrc ≠ 0) }) c.inputs }
    eq := { s.eq with mps := c.eqMps, regs := c.regs, pulses := c.pulses, saveS := c.saveS } }

/-- The stored configuration that boot takes, with its warning (R448); temperature tables have a region of their own. -/
def chooseStored (b : BootIn) (s : State) : State :=
  let tables (c : StoredCfg) : StoredCfg :=
    { c with inputs := s.eq.stored.inputs.foldl (fun t e => tset t e.1 { tgetD t e.1 SgInput.init with table := e.2.table }) c.inputs }
  if b.cfgNew then applyStored s.eq.stored s
  else if b.cfgOld then applyStored (tables s.eq.storedOld) (warn true 2 s)
  else applyStored (tables .init) (warn true 3 s)

/-- The seal (R296): the mask of the active generation; a metering point whose digests differ does not count, and opens a SEAL-CHECK gap. -/
def checkSeal (bad : U16) (s : State) : State :=
  let mask := (activeGen s.pop.otpSeal).elim 0 (fun g => genField g.content 4 2)
  let s1 := { s with eq := { s.eq with sealed := BitVec.ofNat 16 mask, sealGen := s.pop.otpSeal.length } }
  (List.range 16).foldl (fun t m =>
    if mask.testBit m ∧ bad.getLsbD m then
      let ref := (getEq t m).sRef
      recordGap m .sealCheck 0 (taiNs t) 0 0 ref false true
        (raise 0x0B0A 3 [BitVec.ofNat 8 m, 0] none (modEq m (fun v => { v with sealBroken := true }) t))
    else t) s1

/-- Stages 1 to 4 over a cleared device: it halts, or goes on to stage 5. -/
def bootStages (ovr : U8) (b : BootIn) (s0 : State) : State :=
  let s := { s0 with dev := { s0.dev with bootIn := some b, boot := .booting } }
  if b.pllOk = false then haltAt 0 7 s
  else if b.otpOk = false then haltAt 1 1 s
  else
    let s1 := warn (genFallback s.pop.otpBoot || genFallback s.pop.otpSeal || genFallback s.pop.otpDef) 4 (bootMacs (bootHosts (refreshOtp s)))
    if b.flashMib.toNat < 64 then haltAt 2 2 s1
    else
      let seen (ok : Bool) (d : Option DirCopy) : Option DirCopy := if ok then d else none
      let s2 := { s1 with pop := { s1.pop with flashMib := b.flashMib, dir0 := seen b.dir0 s1.pop.dir0, dir1 := seen b.dir1 s1.pop.dir1 } }
      let s3 := warn s2.pop.dir1.isNone 0 (warn s2.pop.dir0.isNone 0 s2)
      if s3.pop.dir0.isNone ∧ s3.pop.dir1.isNone then haltAt 2 3 s3
      else match selectImage ovr b s3 with
        | none => haltAt 3 4 s3
        | some (isB, fell) =>
          let s4 := warn fell 1 { s3 with dev := { s3.dev with imageB := isB, fallback := fell } }
          if b.trainOk = false then haltAt 4 5 s4
          else
            let mib := b.dramA.toNat + b.dramB.toNat
            if mib < 4096 ∨ b.dramA ≠ b.dramB then haltAt 4 6 s4
            else
              let unit := (activeGen s4.pop.otpBoot).elim Config.unitId (fun g => BitVec.ofNat 64 (genField g.content 8 8))
              { s4 with dev := { s4.dev with dramMib := BitVec.ofNat 32 mib, stage := 5 }
                        aln := { s4.aln with poolMib := mib * 3 / 8 }
                        cap := { s4.cap with poolMib := mib / 4, unitId := unit }
                        sor := { s4.sor with poolMib := mib / 32, keySlots := (List.range 4).map (keySlotOf s4) } }

/-- Stages 5 and 6 of a boot: the restore, whose start-up entries are those of the stored metering points, and the seal check. -/
def bootRestore (s : State) : State :=
  match s.dev.bootIn with
  | none => s
  | some b =>
    let t := checkSeal b.sealBad (restoreStage b (chooseStored b s))
    { t with dev := { t.dev with stage := 6 } }

/-- Limits of the boot stages, ms (Table 18.2). -/
def stageLimits : List Nat := [10, 40, 700, 800, 500, 450]

/-- The first stage whose duration passes its limit. -/
def stageOver (ms : List U16) : Option Nat := (((ms.zip stageLimits).zipIdx.find? (fun x => decide (x.1.2 < x.1.1.toNat))).map (·.2 + 1))

/-- A stage exceeds its limit (R455): the device halts there, with the stages before it done. -/
def stageLate (k : Nat) (s : State) : State := haltAt k 8 (if k = 6 then bootRestore s else s)

/-- A reset that runs the boot path (R463): PFAIL_N low holds it at PFAIL_WAIT (R455). -/
def restart (cause : Cause) (ovr : U8) (b : BootIn) (s : State) : State :=
  let s1 := clearAll s
  let s2 := { s1 with dev := { s1.dev with cause, ovr, boot := .booting } }
  if s2.dev.pfailN then bootStages ovr b s2 else { s2 with dev := { s2.dev with pfailWait := true, bootIn := none } }

/-- PFAIL_N rises on a boot that waited: it starts over at stage 1 (R455). This is no reset, so the device clock and BOOT_DB stay, and an
image that a DEVICE-RESET named still applies. -/
def resumeBoot (b : BootIn) (s : State) : State :=
  let s1 := clearAll s
  bootStages s.dev.ovr b
    { s1 with
      dev := { s1.dev with cause := s.dev.cause, ovr := s.dev.ovr, boot := .booting }
      clk := { s1.clk with sec := s.clk.sec, ns := s.clk.ns, frac := s.clk.frac, adv := s.clk.adv }
      cnt := s.cnt }

/-! ### Saving before a reset (R434, R463, Table 18.5) -/

/-- An energy save at the end of the last cycle, verified, and every buffered record flushed. -/
def saveAll (s : State) : State :=
  if s.dev.boot ≠ .ready then s
  else
    let ts := (lastEven s).elim (taiNs s) (fun g => g.ts)
    endFlush (beginFlush (verifySave (writeSave ts s)))

/-! ### Power failure (R303) -/

/-- t_f: the first billing-sample instant at or after now, of the metering points that run. -/
def failInstant (s : State) : Nat :=
  let p := s.sage.mps.foldl (fun a e => if e.2.state = .off then a else match a with
    | none => some (periodOf e.2)
    | some x => some (min x (periodOf e.2))) none
  match p with
  | some x => periodUp x (taiNs s)
  | none => taiNs s

/-- The energy of the cycle in progress up to t_f, in the registers and accumulators (log entry 46). -/
def partialCycle (tf m : Nat) (s : State) : State :=
  match evenFrom s (getEq s m).cycIdx with
  | none => s
  | some a =>
    let el := elNs s - (taiNs s - tf)
    let o := cycleOut s m a.el el false (fwOf s (fNomHz (getMp s m)))
    let (ints, e1) := accAll o.energy (getEq s m)
    s.eq.regs.foldl (fun t e =>
      if e.2.mp = m ∧ e.2.enable ∧ e.2.cfgEl ≤ a.el then
        regAdd e.1 ((ints.filter (fun x => decide (x.1 = e.2.quantity))).foldl (fun n x => n + x.2) 0) tf t
      else t) (setEq m e1 s)

/-- The image of the energy state at t_f. -/
def failImage (tf : Nat) (seq : U32) (ok : Bool) (s : State) : EnergyImg :=
  imageOf tf seq ok (s.sage.mps.foldl (fun t e => if e.2.state = .off then t else partialCycle tf e.1 t) s)

/-- Report a flush that has ended while the device goes on (Table 11.12). -/
def reportFlush (s : State) : State :=
  if s.pop.flushUnreported ∧ s.eq.flushing = false ∧ s.dev.pfailN then
    raise 0x0B0C 3 (leBytes 8 (s.eq.flushHdr.elim 0 (·.1)) ++ [if s.eq.flushImg.elim false (fun g => g.crcOk) then 1 else 0]) none
      { s with pop := { s.pop with flushUnreported := false } }
  else s

end Sys2Proof.Machine
end

