-- ==== Sys2Proof/Machine/Reset.lean ====
section
/-!
DEFINITION. The reset kinds, boot and power failure as the pins and the firmware bring them, DEVICE-RESET, and the doorbell of an opcode
that does not exist (18_startup_reset.md, R303, R462, R39).
-/

namespace Sys2Proof.Machine

/-! ### PORN and boot -/

/-- PORN_ASSERT (R454, R437): the device is held in reset; records not flushed are lost, unless a power-fail flush has ended. -/
def execPornAssert (s : State) : Out :=
  let ended := s.eq.flushHdr.isSome && !s.eq.flushing && s.eq.flushImg.elim false (fun g => g.crcOk)
  let lossy := decide (s.dev.boot = .ready) && !ended
  .next (if s.dev.porn = false then s
    else
      let s1 := clearAll s
      { s1 with dev := { s1.dev with porn := false, bootIn := none
                                     uncleanRec := if lossy then some (recEnd s1 - 1) else s.dev.uncleanRec } })

/-- POWER_ON_RESET (R455, R443): the rising edge of PORN. -/
def execPowerOnReset (b : BootIn) (s : State) : Out :=
  .next (if s.dev.porn ∧ s.dev.boot ≠ .reset then s
    else restart .powerOn 0 b (countCycle { s with dev := { s.dev with porn := true } }))

/-- BOOT_STAGE_TIMEOUT (R455). -/
def execBootStageTimeout (stage : BitVec 3) (s : State) : Out :=
  .next (if s.dev.boot = .booting ∧ s.dev.pfailWait = false ∧ 1 ≤ stage.toNat ∧ stage.toNat ≤ 6 then stageLate stage.toNat s else s)

/-- BOOT_READY (R456): the end of stage 6, every partition READY at one instant, and each metering point with a stored configuration starts
its chain; a stage over its limit halts the device instead. -/
def execBootReady (stageMs : List U16) (s0 : State) : Out :=
  .next (if s0.dev.boot ≠ .booting ∨ s0.dev.pfailWait then s0
    else match stageOver stageMs with
    | some k => stageLate k s0
    | none =>
      let s := bootRestore s0
      let ms := elNs s / 1000000
      let tbl : Tbl Nat := (stageMs.take 6).zipIdx.foldl (fun t (x, i) => tset t (i + 1) x.toNat) []
      let s1 := evalAll { s with
        dev := { s.dev with boot := .ready, stage := 6, bootMs := BitVec.ofNat 32 ms, readyTs := BitVec.ofNat 64 (taiNs s), stageMs := tbl }
        eq := { s.eq with readyEl := elNs s } }
      let s2 := raise 0x0111 1 ([BitVec.ofNat 8 s.dev.cause.num, if s.dev.imageB then 1 else 0] ++ leBytes 4 ms ++ leBytes 3 s.pop.powerCycles) none s1
      let s3 := s.dev.warnings.foldl (fun t w => raise 0x0112 2 [w] none t) { s2 with dev := { s2.dev with warnings := [] } }
      let s4 := match s.dev.uncleanRec with
        | some n => raise 0x1103 2 (leBytes 6 n) none (bump 0x11000140 { s3 with dev := { s3.dev with uncleanRec := none } })
        | none => s3
      s4.sage.mps.foldl (fun t e => if e.2.enable then chainRestart e.1 .boot t else t) s4)

/-! ### Other resets (R463, R465, R467) -/

/-- SRST_N resets the device: nothing is saved first. -/
def systemReset (b : BootIn) (clean : Bool) (s : State) : State :=
  let u := if clean then s.dev.uncleanRec else if s.dev.boot = .ready then some (recEnd s - 1) else s.dev.uncleanRec
  restart .system 0 b { s with dev := { s.dev with uncleanRec := u, bootIn := none } }

/-- SYSTEM_RESET (R463): during a power-fail flush it is taken when the flush ends; PORN prevails (R465). -/
def execSystemReset (b : BootIn) (s : State) : Out :=
  .next (if s.dev.porn = false then s
    else if s.eq.flushing then { s with dev := { s.dev with srstPending := true, bootIn := some b } }
    else systemReset b false s)

/-- WATCHDOG_EXPIRY (R463): suspended during a power-fail flush. -/
def execWatchdogExpiry (b : BootIn) (s : State) : Out :=
  .next (if s.dev.porn = false ∨ s.eq.flushing ∨ s.dev.boot ≠ .ready then s
    else restart .watchdog 0 b (saveAll s))

/-- FIRMWARE_HALT (R463). -/
def execFirmwareHalt (b : BootIn) (s : State) : Out :=
  .next (if s.dev.porn = false ∨ s.eq.flushing ∨ s.dev.boot ≠ .ready then s
    else restart .firmwareHalt 0 b (saveAll s))

/-- DEVICE_RESET (R467, R465): BUSY while PFAIL_N is low; recovery serves it too (R459). -/
def execDeviceReset (h : Hdr) (p : DeviceResetP) (s : State) : Out :=
  .next (vci { op := 0x0106, cls := .control, u := true, long := false, len := 8, recovery := true } h
    (fun _ => decide (p.confirm = 0x6250 ∧ p.image.toNat < 3 ∧ p.rsv = 0))
    (fun t =>
      if t.dev.pfailN = false then refuse .busy t
      else
        let t1 := raise 0x0113 2 [BitVec.ofNat 8 h.part.val, p.image] none { t with dev := { t.dev with resetReq := some p.image } }
        done (if t.dev.boot = .ready then beginFlush t1 else t1)) s)

/-- DEVICE_RESET_EXECUTE (R467): the reset of an accepted DEVICE-RESET, after its save and flush. -/
def execDeviceResetExecute (b : BootIn) (s : State) : Out :=
  .next (match s.dev.resetReq with
    | some img => if s.dev.porn = false ∨ s.eq.flushing then s else restart .commanded img b (saveAll s)
    | none => s)

/-! ### Power failure (R303, R455) -/

/-- PFAIL_ASSERT: counting stops at t_f and the flush begins; during boot the device waits. -/
def execPfailAssert (s : State) : Out :=
  .next (if s.dev.pfailN = false then s
    else
      let s1 := { s with dev := { s.dev with pfailN := false, c0Off := true } }
      match s.dev.boot with
      | .booting => { s1 with dev := { s1.dev with pfailWait := true } }
      | .ready =>
        let tf := match s.eq.tf, s.eq.resume with
          | some t, none => t
          | _, _ => failInstant s
        { s1 with eq := { s1.eq with tf := some tf, resume := none, riseEl := none, flushing := true, flushImg := none
                                     flushHdr := some (tf, s1.eq.saveSeq + 1) }
                  pop := { s1.pop with flushUnreported := true } }
      | _ => s1)

/-- PFAIL_RISE: a boot that waited starts over; otherwise counting resumes at the next cycle. -/
def execPfailRise (b : BootIn) (s : State) : Out :=
  .next (if s.dev.pfailN then s
    else
      let s1 := { s with dev := { s.dev with pfailN := true } }
      if s.dev.pfailWait then resumeBoot b s1
      else if s.eq.tf.isSome then reportFlush { s1 with eq := { s1.eq with riseEl := some (elNs s) } }
      else s1)

/-- POWER_FAIL_FLUSH_END: the energy image and, with it, the records that remain are in the flush slot; a pending SRST_N is taken. -/
def execPowerFailFlushEnd (complete : Bool) (s : State) : Out :=
  .next (if s.eq.flushing = false then s
    else match s.eq.flushHdr with
      | none => s
      | some (tf, seq) =>
        let g := failImage tf seq complete s
        let s1 := { s with eq := { s.eq with flushing := false, flushImg := some g }
                           pop := { s.pop with flushSlot := if complete then s.pop.buffer else [] } }
        let s2 := reportFlush (bumpIf complete 0x0B000110 s1)
        if s.dev.srstPending then
          match s.dev.bootIn with
          | some b => systemReset b complete s2
          | none => s2
        else s2)

/-- STARTUP_GAP_TIMEOUT (R462): 60 s after READY without a step, the entries close at the next counted sample. -/
def execStartupGapTimeout (s : State) : Out :=
  .next (if s.dev.boot = .ready ∧ s.clk.timeValid = false ∧ s.eq.readyEl + 60000000000 ≤ elNs s then
      { s with eq := { s.eq with startTimeout := true } }
    else s)

/-! ### Opcodes that do not exist (R39) -/

/-- How many opcodes a group defines; they are numbered from 1. -/
def opcodesOf : Nat → Nat
  | 0x01 => 6
  | 0x02 => 7
  | 0x03 => 8
  | 0x04 => 3
  | 0x05 => 6
  | 0x06 => 4
  | 0x07 => 7
  | 0x08 => 11
  | 0x09 => 11
  | 0x0A => 10
  | 0x0B => 6
  | 0x0C => 12
  | 0x0D => 5
  | 0x0E => 2
  | 0x0F => 9
  | 0x10 => 3
  | 0x11 => 5
  | _ => 0

def opcodeDefined (op : Nat) : Bool := decide (1 ≤ op % 256 ∧ op % 256 ≤ opcodesOf (op / 256))

/-- UNDEFINED_OPCODE (R39, steps 1 to 3; R458, R459): nothing happens for an opcode that is defined. -/
def execUndefinedOpcode (h : Hdr) (opcode : U16) (s : State) : Out :=
  let op := opcode.toNat
  let st : Sts := if 4080 < h.length.toNat then .badLength else .badOpcode
  .next (if opcodeDefined op ∨ (getPart s h.part).present = false then s
    else if recovering s then
      if h.part = 0 ∧ h.urg = false then respond h op st.w [] false s else bump 0x01000100 s
    else if s.dev.boot ≠ .ready then bump 0x01000100 s
    else
      let s1 := countCmd h s
      match cached s1 h with
      | some e => respond h op (e.status ||| 0x8000) e.resp false (bump (partBase h.part + 0x50) s1)
      | none => answer h op (refuse st s1))

end Sys2Proof.Machine
end

