-- ==== Sys2Proof/Machine/Flags.lean ====
section
/-!
DEFINITION. Arithmetic of the Sorrel cores with its flags (13.5): ALU results with ZNCV, accumulator updates with AOV, extraction with
EOV, and binary32 with FINV.
-/

namespace Sys2Proof.Machine

/-! ### ALU -/

/-- A result with its four flags. -/
structure AluOut where
  v : U32
  c : Bool
  o : Bool

/-- Write an ALU result and ZNCV. -/
def putAlu (d : Fin 16) (r : AluOut) (c : Core) : Core :=
  readyAt (dKey d) 1 (setD d r.v { c with z := decide (r.v = 0), n := r.v.msb, c := r.c, v := r.o })

/-- Set ZNCV of a compare, which writes no register. -/
def putCmp (r : AluOut) (c : Core) : Core := { c with z := decide (r.v = 0), n := r.v.msb, c := r.c, v := r.o }

/-- Addition. -/
def aluAdd (a b : U32) : AluOut :=
  ⟨a + b, decide (2 ^ 32 ≤ a.toNat + b.toNat), decide ((a + b).toInt ≠ a.toInt + b.toInt)⟩

/-- Subtraction; whether C is the borrow or its complement is the implementation's. -/
def aluSub (a b : U32) : AluOut :=
  ⟨a - b, decide (a.toNat < b.toNat) == Config.carryIsBorrow, decide ((a - b).toInt ≠ a.toInt - b.toInt)⟩

/-- A result whose carry and overflow the spec does not state: free values. -/
def aluFree (v : U32) (s : State) : AluOut × State :=
  let (x, s1) := fresh s
  (⟨v, decide (x % 2 = 1), decide (x / 2 % 2 = 1)⟩, s1)

/-- A result that the spec does not state at all. -/
def aluOpen (s : State) : AluOut × State :=
  let (x, s1) := fresh s
  aluFree (BitVec.ofNat 32 x) s1

/-- A shift by n: past 31 the spec states no result. -/
def aluShift (f : U32 → Nat → U32) (a n : U32) (s : State) : AluOut × State :=
  if n.toNat < 32 then aluFree (f a n.toNat) s else aluOpen s

/-- Rotation, in the implementation's direction. -/
def rotate (a : U32) (n : Nat) : U32 := if Config.rotLeft then a.rotateLeft (n % 32) else a.rotateRight (n % 32)

/-- a < b, in the signedness that MIN and MAX have in the implementation. -/
def minLess (a b : U32) : Bool := if Config.minSigned then a.slt b else a.ult b

/-- The high part of a product, in the implementation's signedness. -/
def mulHigh (a b : U32) : U32 :=
  if Config.mulhSigned then BitVec.ofInt 32 (a.toInt * b.toInt / 2 ^ 32) else BitVec.ofNat 32 (a.toNat * b.toNat / 2 ^ 32)

/-- Whether a condition holds on the flags. -/
def condHolds (k : Cond) (c : Core) : Bool :=
  k.getLsbD ((if c.z then 8 else 0) + (if c.n then 4 else 0) + (if c.c then 2 else 0) + (if c.v then 1 else 0))

/-! ### Accumulators (R354 to R357) -/

/-- Store an exact result into an accumulator (R355). -/
def accPut (a : Fin 4) (exact : Int) (ov : OvMode) (c : Core) : Core :=
  if -(2 ^ 71) ≤ exact ∧ exact < 2 ^ 71 then setAcc a exact c
  else
    let v : Int := match ov with
      | .sat => if exact < 0 then -(2 ^ 71) else 2 ^ 71 - 1
      | .wrap => (exact + 2 ^ 71) % 2 ^ 72 - 2 ^ 71
    setAcc a v { c with aov := true }

/-- A product of two operands of a width, as the form's signedness takes them (R354). -/
def product (w : Nat) (sg : MacSign) (a b : BitVec w) : Int :=
  match sg with
  | .ss => a.toInt * b.toInt
  | .su => (a.toNat : Int) * b.toInt
  | .uu => (a.toNat : Int) * (b.toNat : Int)

/-- Lanes of an operation: how many, and the width of an operand (R354). -/
def macShape : MacOp → Nat × Nat
  | .mac32 => (1, 32)
  | .dmac32 => (2, 32)
  | .dmac16 => (2, 16)
  | .qmac16 => (4, 16)

/-- Bytes each slot fetches. -/
def macSlotBytes (m : MacOp) : Nat := (macShape m).1 * (macShape m).2 / 8

/-- Add or subtract the products of the lanes from j on, each into the accumulator it names. -/
def macLanes (m : MacOp) (sub : Bool) (sg : MacSign) (ov : OvMode) (a b : U64) : Nat → List (Fin 4) → Core → Core
  | _, [], c => c
  | j, acc :: t, c =>
    let w := (macShape m).2
    let p := product w sg (a.extractLsb' (j * w) w) (b.extractLsb' (j * w) w)
    macLanes m sub sg ov a b (j + 1) t (accPut acc (if sub then getAcc c acc - p else getAcc c acc + p) ov c)

/-- Shift an accumulator left by a signed amount; past 72 places nothing changes but overflow (R357). -/
def accShift (a : Fin 4) (n : Int) (ov : OvMode) (c : Core) : Core :=
  if 0 ≤ n then accPut a (getAcc c a * 2 ^ (min n 72).toNat) ov c
  else setAcc a (getAcc c a / 2 ^ (min (-n) 72).toNat) c

/-- Redundant sign bits of a w-bit two's-complement number. -/
def signBits (w : Nat) (v : Int) : Nat :=
  let m : Nat := if v < 0 then (-(v + 1)).toNat else v.toNat
  w - 1 - (if m = 0 then 0 else m.log2 + 1)

/-- Shift right and round (R356). -/
def extractRound (v : Int) (n : Nat) (r : Rnd) : Int :=
  if n = 0 then v else
  match r with
  | .down => v / 2 ^ n
  | .up => (v + 2 ^ (n - 1)) / 2 ^ n
  | .even =>
    let q := v / 2 ^ n
    let rem := v % 2 ^ n
    if 2 * rem < 2 ^ n then q else if 2 ^ n < 2 * rem then q + 1 else if q % 2 = 0 then q else q + 1

/-- The value an extraction gives and whether it saturated (R356). -/
def extractAcc (v : Int) (n : Nat) (r : Rnd) (half : Bool) : Int × Bool :=
  let x := extractRound v n r
  let lo : Int := if half then -(2 ^ 15) else -(2 ^ 31)
  let hi : Int := if half then 2 ^ 15 - 1 else 2 ^ 31 - 1
  (clampInt lo hi x, decide (x < lo ∨ hi < x))

/-! ### binary32 (R358) -/

/-- Flush a subnormal to zero with its sign kept. -/
def f32flush (w : U32) : U32 :=
  if (w &&& 0x7F800000) = 0 then w &&& 0x80000000 else w

/-- A signalling NaN. -/
def f32isSnan (w : U32) : Bool := f32isNaN w && !w.getLsbD 22

/-- A quiet NaN, whose sign and payload the spec does not state. -/
def qnan (s : State) : U32 × State :=
  let (x, s1) := fresh s
  (BitVec.ofNat 32 x ||| 0x7FC00000, s1)

/-- A result of a binary32 operation: value, whether the operation is invalid, and the state. -/
structure FOut where
  v : U32
  inv : Bool
  s : State

/-- A quiet NaN as a result. -/
def fNan (inv : Bool) (s : State) : FOut :=
  let (v, s1) := qnan s
  ⟨v, inv, s1⟩

/-- A finite exact result, rounded and flushed; an exact zero has the sign given. -/
def fRound (a : Scale) (zeroNeg : Bool) (s : State) : FOut :=
  if a.num = 0 then ⟨if zeroNeg then 0x80000000 else 0, false, s⟩ else
  let w := f32ofQ a
  ⟨if (w &&& 0x7F800000) = 0 then (if a.num < 0 then 0x80000000 else 0) else w, false, s⟩

def f32inf (neg : Bool) : U32 := if neg then 0xFF800000 else 0x7F800000

/-- Addition of flushed operands. -/
def fAdd (a0 b0 : U32) (s : State) : FOut :=
  let a := f32flush a0
  let b := f32flush b0
  if f32isNaN a ∨ f32isNaN b then fNan (f32isSnan a || f32isSnan b) s
  else if f32isInf a then (if f32isInf b ∧ f32sign a ≠ f32sign b then fNan true s else ⟨a, false, s⟩)
  else if f32isInf b then ⟨b, false, s⟩
  else fRound (qadd (f32val a) (f32val b)) (f32sign a && f32sign b) s

/-- Multiplication of flushed operands. -/
def fMul (a0 b0 : U32) (s : State) : FOut :=
  let a := f32flush a0
  let b := f32flush b0
  let neg := f32sign a != f32sign b
  if f32isNaN a ∨ f32isNaN b then fNan (f32isSnan a || f32isSnan b) s
  else if f32isInf a ∨ f32isInf b then
    (if (f32val a).num = 0 ∧ f32isInf b ∨ (f32val b).num = 0 ∧ f32isInf a then fNan true s else ⟨f32inf neg, false, s⟩)
  else fRound (qmul (f32val a) (f32val b)) neg s

/-- The fused a × b + c. -/
def fFma (a0 b0 c0 : U32) (s : State) : FOut :=
  let a := f32flush a0
  let b := f32flush b0
  let c := f32flush c0
  let neg := f32sign a != f32sign b
  let zeroInf := (!f32isInf a && !f32isNaN a && decide ((f32val a).num = 0) && f32isInf b) ||
                 (!f32isInf b && !f32isNaN b && decide ((f32val b).num = 0) && f32isInf a)
  if f32isNaN a ∨ f32isNaN b ∨ f32isNaN c then fNan (zeroInf || f32isSnan a || f32isSnan b || f32isSnan c) s
  else if zeroInf then fNan true s
  else if f32isInf a ∨ f32isInf b then
    (if f32isInf c ∧ f32sign c ≠ neg then fNan true s else ⟨f32inf neg, false, s⟩)
  else if f32isInf c then ⟨c, false, s⟩
  else fRound (qadd (qmul (f32val a) (f32val b)) (f32val c)) (neg && f32sign c) s

/-- The operand of a subtraction with its sign turned; a NaN stays as it is. -/
def fNegate (b : U32) : U32 := if f32isNaN b then b else b ^^^ 0x80000000

/-- Minimum or maximum; the spec does not state the result for a NaN or for two zeros of opposite sign. -/
def fMinMax (mx : Bool) (a0 b0 : U32) (s : State) : FOut :=
  let a := f32flush a0
  let b := f32flush b0
  if f32isNaN a ∨ f32isNaN b then
    let (x, s1) := fresh s
    ⟨BitVec.ofNat 32 x, f32isSnan a || f32isSnan b, s1⟩
  else
    let less : Bool :=
      if f32isInf a then f32sign a && decide (a ≠ b)
      else if f32isInf b then !f32sign b
      else qlt (f32val a) (f32val b)
    let eq : Bool := decide (a = b)
    if eq then ⟨a, false, s⟩
    else if (a ||| b) = 0x80000000 then
      let (x, s1) := fresh s
      ⟨if x % 2 = 0 then a else b, false, s1⟩
    else ⟨if less != mx then a else b, false, s⟩

/-- Sign operations: magnitude or negation; a NaN gives a quiet NaN. -/
def fSign (f : U32 → U32) (a0 : U32) (s : State) : FOut :=
  let a := f32flush a0
  if f32isNaN a then fNan (f32isSnan a) s else ⟨f a, false, s⟩

/-- A compare: Z for equal, N for less; C and V, and all four on a NaN, are free values. -/
def fCmp (a0 b0 : U32) (c : Core) (s : State) : Core × State :=
  let a := f32flush a0
  let b := f32flush b0
  let (x, s1) := fresh s
  let fb (k : Nat) : Bool := decide (x / 2 ^ k % 2 = 1)
  if f32isNaN a ∨ f32isNaN b then
    ({ c with z := fb 0, n := fb 1, c := fb 2, v := fb 3, finv := c.finv || f32isSnan a || f32isSnan b || fb 4 }, s1)
  else
    let eq := decide (a = b) || decide ((a ||| b) = 0x80000000)
    let less : Bool :=
      if f32isInf a then f32sign a && decide (a ≠ b)
      else if f32isInf b then !f32sign b
      else qlt (f32val a) (f32val b)
    ({ c with z := eq, n := less, c := fb 2, v := fb 3 }, s1)

/-- Conversions; to an integer rounds to nearest even, and outside its range the result is a free value with FINV. -/
def fCvt (k : Cvt) (a0 : U32) (s : State) : FOut :=
  match k with
  | .fromInt => fRound (qInt a0.toInt) false s
  | .fromUint => fRound (qNat a0.toNat) false s
  | .toInt | .toUint =>
    let a := f32flush a0
    let r := qroundEven (f32val a)
    let ok : Bool := if k = .toInt then decide (-(2 ^ 31) ≤ r ∧ r < 2 ^ 31) else decide (0 ≤ r ∧ r < 2 ^ 32)
    if f32isNaN a ∨ f32isInf a ∨ ok = false then
      let (x, s1) := fresh s
      ⟨BitVec.ofNat 32 x, true, s1⟩
    else ⟨BitVec.ofInt 32 r, false, s⟩

/-- A number within 2^-12 of one. -/
def near1 (p : Scale) : Bool := qle (qabs (qsub p ⟨1, 1⟩)) ⟨1, 4096⟩

/-- FRCP: the implementation's estimate where it is accurate to 12 bits, else the rounded reciprocal; of zero the spec states none. -/
def fRcp (a0 : U32) (s : State) : FOut :=
  let a := f32flush a0
  if f32isNaN a then fNan (f32isSnan a) s
  else if f32isInf a then ⟨a &&& 0x80000000, false, s⟩
  else if (f32val a).num = 0 then
    let (x, s1) := fresh s
    ⟨BitVec.ofNat 32 x, decide (x / 2 ^ 32 % 2 = 1), s1⟩
  else
    let q := f32flush (Config.rcpEst a)
    if !f32isNaN q && !f32isInf q && near1 (qmul (f32val q) (f32val a)) then ⟨q, false, s⟩
    else fRound (qdiv ⟨1, 1⟩ (f32val a)) (f32sign a) s

/-- FRSQ, likewise; of a negative number it is invalid. -/
def fRsq (a0 : U32) (s : State) : FOut :=
  let a := f32flush a0
  if f32isNaN a then fNan (f32isSnan a) s
  else if (f32val a).num = 0 ∧ f32isInf a = false then
    let (x, s1) := fresh s
    ⟨BitVec.ofNat 32 x, decide (x / 2 ^ 32 % 2 = 1), s1⟩
  else if f32sign a then fNan true s
  else if f32isInf a then ⟨0, false, s⟩
  else
    let q := f32flush (Config.rsqEst a)
    let p := qmul (qmul (f32val q) (f32val q)) (f32val a)
    let lo : Scale := qmul ⟨4095, 4096⟩ ⟨4095, 4096⟩
    let hi : Scale := qmul ⟨4097, 4096⟩ ⟨4097, 4096⟩
    if !f32isNaN q && !f32isInf q && !f32sign q && qle lo p && qle p hi then ⟨q, false, s⟩
    else
      let w := f32sqrtQ (qdiv ⟨1, 1⟩ (f32val a))
      ⟨f32flush w, false, s⟩

end Sys2Proof.Machine
end

