-- ==== Sys2Proof/Machine/SorrelOps.lean ====
section
/-!
DEFINITION. How a Sorrel core executes an instruction (13.6 to 13.9): issue and stalls, budgets and faults, loops and branches, memory
slots, and queued transfers.
-/

namespace Sys2Proof.Machine

/-- What an instruction leaves: core, state, issue cycles, and the next address where it is not the following one. -/
structure Ex where
  c : Core
  s : State
  cyc : Nat
  pc : Option U32
  deriving DecidableEq

/-- One cycle, on to the next instruction. -/
def ex1 (c : Core) (s : State) : Except CoreFault Ex := .ok ⟨c, s, 1, none⟩

/-- Cycles of the run, saturating (Table 13.14). -/
def addCycles (k : Nat) (c : Core) : Core := { c with runCycles := satAdd (2 ^ 32 - 1) c.runCycles k, busy := c.busy + k }

/-- The budget of a core's runs, for a user kernel (R371). -/
def overBudget (s : State) (c : Core) : Bool :=
  match kernOf s c with
  | some k => decide (k.maxCycles ≤ c.runCycles)
  | none => false

/-- The next address after the instruction at `cur`: loop levels that end here count down (R359). The innermost level comes first. -/
def loopNext (cur next : U32) : List LoopLvl → List U32 → U32 × List LoopLvl × List U32
  | [], lc => (next, [], lc)
  | l :: t, lc =>
    if cur = l.last then
      let k := t.length
      let v : U32 := lget lc k 0 - 1
      let lc1 := lc.set k v
      if v = 0 then loopNext cur next t lc1 else (l.first, l :: t, lc1)
    else (next, l :: t, lc)

/-- Move on to the next instruction. -/
def advance (words : Nat) (c : Core) : Core :=
  let (p, ls, lc) := loopNext c.pc (c.pc + BitVec.ofNat 32 (4 * words)) c.loops c.lc
  { c with pc := p, loops := ls, lc }

/-- Levels that remain after a branch to an address (R360). -/
def leaveLoops (t : U32) : List LoopLvl → List LoopLvl
  | [] => []
  | l :: r => if l.first.toNat ≤ t.toNat ∧ t.toNat ≤ l.last.toNat then l :: r else leaveLoops t r

/-- Execute an instruction on a running core: fetch checks, the place in a loop, stalls on operands, the budget, the effect. An instruction
sent to a core that does not run has none. -/
def runInstr (core : CoreNo) (reads : List Nat) (words : Nat) (endOk : Bool) (f : Core → State → Except CoreFault Ex) (s : State) : State :=
  let n := core.toNat
  let c := getCore s n
  if c.state ≠ .running then s
  else if 0x8000 < c.pc.toNat + 4 * words then faultRun n .window s
  else if c.pc.toNat % 4 ≠ 0 then faultRun n .align s
  else if endOk = false ∧ c.loops.any (fun l => decide (l.last = c.pc)) then faultRun n .illegal s
  else
    let stall := reads.foldl (fun m k => max m (tgetD c.ready k 0 - c.runCycles)) 0
    let c1 := addCycles stall c
    let s1 := bumpBy (coreCnt n 0x208) stall (bumpBy (coreCnt n 0x220) stall (setCore n c1 s))
    if overBudget s1 c1 then faultRun n .budget s1
    else match f c1 s1 with
      | .error k => faultRun n k s1
      | .ok x =>
        let c2 := match x.pc with
          | some p => { x.c with pc := p }
          | none => advance words x.c
        bumpBy (coreCnt n 0x208) x.cyc (setCore n (addCycles x.cyc c2) x.s)

/-! ### ALU and float forms -/

/-- An ALU instruction: destination and ZNCV (Table 13.6). -/
def aluInstr (core : CoreNo) (reads : List Nat) (d : Fin 16) (f : Core → State → AluOut × State) (s : State) : State :=
  runInstr core reads 1 true (fun c t =>
    let (r, t1) := f c t
    ex1 (putAlu d r c) t1) s

/-- A binary32 instruction: destination, ready after some cycles, and FINV. -/
def fInstr (core : CoreNo) (reads : List Nat) (lat : Nat) (d : Fin 16) (f : Core → State → FOut) (s : State) : State :=
  runInstr core reads 1 true (fun c t =>
    let r := f c t
    ex1 (readyAt (dKey d) lat (setD d r.v { c with finv := c.finv || r.inv })) r.s) s

/-- An accumulator instruction: ready at once. -/
def accInstr (core : CoreNo) (reads : List Nat) (a : Fin 4) (f : Core → Core) (s : State) : State :=
  runInstr core reads 1 true (fun c t => ex1 (readyAt (aKey a) 1 (f c)) t) s

/-! ### Local memory -/

/-- A local access of w bytes: the address checks, for a dual word on each word. -/
def localCheck (e : Ea) (w : Nat) : Option CoreFault :=
  if w = 8 then
    match localFault e.a 4 with
    | some k => some k
    | none => localFault e.a2 4
  else localFault e.a w

/-- What w bytes at an address hold, as 64 bits. -/
def localLoad (c : Core) (e : Ea) (w : Nat) : U64 :=
  if w = 8 then dataWord c e.a2 ++ dataWord c e.a else BitVec.ofNat 64 (leNat (dataRead c e.a w))

/-- Store the low w bytes of 64 bits. -/
def localStore (e : Ea) (w : Nat) (v : U64) (c : Core) : Core :=
  if w = 8 then dataWrite e.a2 (leBytes 4 (v.toNat / 2 ^ 32)) (dataWrite e.a (leBytes 4 v.toNat) c)
  else dataWrite e.a (leBytes w v.toNat) c

def sizeBytes : Size → Nat
  | .b8 => 1
  | .b16 => 2
  | .b32 => 4

/-- A loaded value of w bytes as a register takes it. -/
def extendLoad (w : Nat) (signed : Bool) (v : U64) : U32 :=
  if signed then BitVec.ofInt 32 ((v.setWidth (8 * w)).toInt) else v.setWidth 32

/-! ### Bundles (R349, R354, R364) -/

/-- What a memory slot gives: the operand, registers to write, core, state, and the memory it used. -/
structure SlotOut where
  v : U64
  regs : List (Fin 16 × U32)
  c : Core
  s : State
  inX : Bool

def slotMode : Slot → AMode
  | .fetch m | .load m _ | .store m _ => m

/-- The D registers a slot reads. -/
def slotReads : Slot → List Nat
  | .store _ d => [dKey d, dKey (d + 1)]
  | _ => []

/-- The registers that a 32-bit or 64-bit value goes into. -/
def spread (w : Nat) (d : Fin 16) (v : U64) : List (Fin 16 × U32) :=
  if w = 8 then [(d, v.setWidth 32), (d + 1, v.extractLsb' 32 32)] else [(d, v.setWidth 32)]

/-- Run a memory slot of w bytes; D registers are read as they stood before the bundle. What a MAC lane takes from a slot that stores is not
stated: a free value. -/
def doSlot (w : Nat) (sl : Slot) (orig c : Core) (s : State) : Except CoreFault SlotOut :=
  match resolve (slotMode sl) c s with
  | .error k => .error k
  | .ok e =>
    match localCheck e w with
    | some k => .error k
    | none =>
      let inX := decide (e.a < 0x20000)
      match sl with
      | .fetch _ => .ok ⟨localLoad e.c e w, [], e.c, e.s, inX⟩
      | .load _ d =>
        if w = 8 ∧ d.val % 2 = 1 then .error .illegal
        else .ok ⟨localLoad e.c e w, spread w d (localLoad e.c e w), e.c, e.s, inX⟩
      | .store _ d =>
        if w = 8 ∧ d.val % 2 = 1 then .error .illegal
        else
          let v : U64 := if w = 8 then getD orig (d + 1) ++ getD orig d else (getD orig d).setWidth 64
          let (x, s1) := fresh e.s
          .ok ⟨BitVec.ofNat 64 x, [], localStore e w v e.c, s1, inX⟩

/-- A slot's pointer lies in the four that its slot uses (R349). -/
def slotPtrOk (second : Bool) (sl : Slot) : Bool :=
  match modePtr (slotMode sl) with
  | some i => decide (i.val / 4 = if second then 1 else 0)
  | none => false

/-- Registers that a slot would load. -/
def slotDest (w : Nat) : Slot → List (Fin 16)
  | .load _ d => if w = 8 then [d, d + 1] else [d]
  | _ => []

/-- Reserved encodings of a bundle (R349, R364). -/
def bundleOk (m : MacOp) (b : Bundle) (c : Core) : Bool :=
  let w := macSlotBytes m
  decide (b.accs.length = (macShape m).1) && decide (b.accs.Nodup) && slotPtrOk false b.slot1 && slotPtrOk true b.slot2 &&
  !(c.unified && decide (w = 8)) && !((slotDest w b.slot1).any (fun r => decide (r ∈ slotDest w b.slot2)))

/-- Pointers that a slot changes. -/
def slotPtrs (sl : Slot) : List (Fin 8) :=
  match slotMode sl with
  | .postInc i _ | .postMod i _ => [i]
  | _ => []

/-- A bundle's register move: from the registers as they stood; into a register that a slot also writes, a free value. -/
def bundleMove (mv : Option (SReg × SReg)) (b : Bundle) (regs : List (Fin 16 × U32)) (orig c : Core) (s : State) : Core × State :=
  match mv with
  | none => (c, s)
  | some (dst, src) =>
    let clash : Bool := match dst with
      | .d n => regs.any (fun e => decide (e.1 = n))
      | .i n => decide (n ∈ slotPtrs b.slot1) || decide (n ∈ slotPtrs b.slot2)
      | _ => false
    if clash then
      let (x, s1) := fresh s
      (setReg dst (BitVec.ofNat 32 x) c, s1)
    else
      let c1 := setReg dst (getReg orig src) c
      (match dst with
       | .d n => readyAt (dKey n) 1 c1
       | _ => c1, s)

/-- Effect of a bundle: both slots, the lanes, the move. Two slots in one memory of a DUAL core take two cycles. -/
def bundleEffect (m : MacOp) (sub : Bool) (n : Nat) (b : Bundle) (c : Core) (s : State) : Except CoreFault Ex :=
  if bundleOk m b c = false then .error .illegal
  else match doSlot (macSlotBytes m) b.slot1 c c s with
    | .error k => .error k
    | .ok o1 =>
      match doSlot (macSlotBytes m) b.slot2 c o1.c o1.s with
      | .error k => .error k
      | .ok o2 =>
        let c1 := macLanes m sub b.sign b.ov o1.v o2.v 0 b.accs o2.c
        let c2 := b.accs.foldl (fun x a => readyAt (aKey a) 1 x) c1
        let regs := o1.regs ++ o2.regs
        let c3 := regs.foldl (fun x e => readyAt (dKey e.1) 2 (setD e.1 e.2 x)) c2
        let (c4, s4) := bundleMove b.move b regs c c3 o2.s
        let same := !c.unified && decide (o1.inX = o2.inX)
        .ok ⟨c4, bumpIf same (coreCnt n 0x210) s4, if same then 2 else 1, none⟩

/-- A MAC bundle, two words (R364). -/
def bundle (m : MacOp) (sub : Bool) (core : CoreNo) (b : Bundle) (s : State) : State :=
  let mv := match b.move with
    | some (_, src) => regKeys src
    | none => []
  runInstr core (b.accs.map aKey ++ slotReads b.slot1 ++ slotReads b.slot2 ++ mv) 2 true
    (fun c t => bundleEffect m sub core.toNat b c t) s

/-! ### Flow -/

/-- Size in bytes of the instruction that stands at an IM address: bits [31:29] are 0b111 in a bundle (Table 13.7). -/
def instrBytes (c : Core) (a : Nat) : Nat := if leNat (ramRead c.im a 4) / 2 ^ 29 = 7 then 8 else 4

/-- Open a loop level of a count, or skip its body in two cycles. -/
def openLoop (count : Count) (first last : U32) (rep : Bool) (c : Core) (s : State) : Except CoreFault Ex :=
  let n : U32 := match count with
    | .imm k => k.setWidth 32
    | .reg d => getD c d
  let immZero : Bool := match count with
    | .imm k => decide (k = 0)
    | .reg _ => false
  if immZero then .error .illegal
  else if n = 0 then .ok ⟨c, s, 2, some (last + BitVec.ofNat 32 (instrBytes c last.toNat))⟩
  else if 4 ≤ c.loops.length then .error .illegal
  else ex1 { c with loops := { first, last, rep } :: c.loops, lc := c.lc.set c.loops.length n } s

def countReads : Count → List Nat
  | .reg d => [dKey d]
  | .imm _ => []

/-- A taken branch: three cycles, and the loops it leaves end. -/
def takeBranch (target : U32) (c : Core) (s : State) : Except CoreFault Ex :=
  .ok ⟨{ c with loops := leaveLoops target c.loops }, s, 3, some target⟩

/-! ### Queued transfers (R363) -/

/-- Bytes at a core address: X, Y, or cluster SRAM. -/
def xferRead (n : Nat) (c : Core) (a len : Nat) (s : State) : Bytes :=
  if a < 0x30000 then dataRead c a len else ramRead (getSram s (clusterOf n)) (a - 0x100000) len

/-- Whether a transfer's local side lies in the kernel's windows (R370). -/
def xferOk (s : State) (n : Nat) (c : Core) (a len : Nat) : Bool :=
  inData a len || (let (base, w) := sramWindow s n c; decide (0x100000 + base ≤ a ∧ a + len ≤ 0x100000 + base + w))

/-- Carry out the oldest transfer of a core. A device core's side in DRAM is not given: what it reads there is a free value. -/
def doXfer (n : Nat) (q : CoreXfer) (s : State) : State :=
  let c := getCore s n
  let cl := clusterOf n
  let count (k : Nat) (t : State) : State := bumpBy (0x0D010050 + cl * 0x100) k t
  match q with
  | .dma op =>
    let len := op.bytes.toNat
    let a := op.localAddr.toNat
    if op.toScratch then
      let data := xferRead n c a len s
      let s1 := match c.kernel with
        | some k => modKern k (fun x => { x with scratch := ramWrite x.scratch op.offset.toNat data }) s
        | none => s
      count len s1
    else
      let (data, s1) : Bytes × State := match kernOf s c with
        | some k => (ramRead k.scratch op.offset.toNat len, s)
        | none =>
          let (x, t) := fresh s
          (leBytes len x, t)
      let s2 := if a < 0x30000 then setCore n (dataWrite a data (getCore s1 n)) s1
        else setSram cl (ramWrite (getSram s1 cl) (a - 0x100000) data) s1
      count len s2
  | .out b a len =>
    let record := xferRead n c a.toNat len.toNat s
    let s1 := count record.length s
    match c.kernel with
    | none => s1
    | some k => match getKern s1 k with
      | none => s1
      | some x => match tget x.binds b with
        | none => s1
        | some v => match ringWrite x.part v.ring (.kernel k) record s1 with
          | some s2 => s2
          | none => setKern k { x with outSkip := sat1 x.outSkip } s1

end Sys2Proof.Machine
end

