-- ==== Sys2Proof/Machine/Sorrel.lean ====
section
/-!
DEFINITION. The instructions of the Sorrel cores (13.5 to 13.8), each on the core it names, and the two events of a core: a transfer's
end and a run that reaches its budget.
-/

namespace Sys2Proof.Machine

/-- DMAC32 (R354): the products of the lanes are added to the accumulators they name. -/
def execDmac32 (core : CoreNo) (b : Bundle) (s : State) : Out :=
  .next (bundle .dmac32 false core b s)

/-- QMAC16 (R354): the products of the lanes are added to the accumulators they name. -/
def execQmac16 (core : CoreNo) (b : Bundle) (s : State) : Out :=
  .next (bundle .qmac16 false core b s)

/-- MAC32 (R354): the products of the lanes are added to the accumulators they name. -/
def execMac32 (core : CoreNo) (b : Bundle) (s : State) : Out :=
  .next (bundle .mac32 false core b s)

/-- DMAC16 (R354): the products of the lanes are added to the accumulators they name. -/
def execDmac16 (core : CoreNo) (b : Bundle) (s : State) : Out :=
  .next (bundle .dmac16 false core b s)

/-- MSU (R354): the products are subtracted. -/
def execMsu (core : CoreNo) (op : MacOp) (b : Bundle) (s : State) : Out :=
  .next (bundle op true core b s)

/-- TAPMV (R362): the filter tap with a delay-line move. -/
def execTapmv (core : CoreNo) (acc : Fin 4) (i : Fin 8) (ov : OvMode) (s : State) : Out :=
  .next (runInstr core [aKey acc] 1 true (fun c t =>
    let a := getI c i
    let k := getI c 7
    let rep := match c.loops with
      | l :: _ => l.rep && decide (l.last = c.pc)
      | [] => false
    if 0x8000 < k + 4 then .error .window
    else if k % 4 ≠ 0 then .error .align
    else match localFault a 4 with
      | some f => .error f
      | none => match localFault (a + 4) 4 with
        | some f => .error f
        | none =>
          let coef : U32 := BitVec.ofNat 32 (leNat (ramRead c.im k 4))
          let x := dataWord c a
          let c1 := readyAt (aKey acc) 1 (accPut acc (getAcc c acc + coef.toInt * x.toInt) ov c)
          let c2 := dataWrite (a + 4) (leBytes 4 x.toNat) c1
          let c3 := setI i ((a : Int) - 4) c2
          .ok ⟨setI 7 ((getI c3 7 : Int) - 4) c3, t, if rep && c.unified then 1 else 2, none⟩) s)

/-- MACR (R354): a product of two D registers is added. -/
def execMacr (core : CoreNo) (acc : Fin 4) (a b : Fin 16) (sign : MacSign) (ov : OvMode) (s : State) : Out :=
  .next (accInstr core [aKey acc, dKey a, dKey b] acc
    (fun c => accPut acc (getAcc c acc + product 32 sign (getD c a) (getD c b)) ov c) s)

/-- MSUR (R354): a product of two D registers is subtracted. -/
def execMsur (core : CoreNo) (acc : Fin 4) (a b : Fin 16) (sign : MacSign) (ov : OvMode) (s : State) : Out :=
  .next (accInstr core [aKey acc, dKey a, dKey b] acc
    (fun c => accPut acc (getAcc c acc - product 32 sign (getD c a) (getD c b)) ov c) s)

/-- ADDA (R355): accumulator addition. -/
def execAdda (core : CoreNo) (dst src : Fin 4) (ov : OvMode) (s : State) : Out :=
  .next (accInstr core [aKey dst, aKey src] dst (fun c => accPut dst (getAcc c dst + getAcc c src) ov c) s)

/-- SUBA (R355): accumulator subtraction. -/
def execSuba (core : CoreNo) (dst src : Fin 4) (ov : OvMode) (s : State) : Out :=
  .next (accInstr core [aKey dst, aKey src] dst (fun c => accPut dst (getAcc c dst - getAcc c src) ov c) s)

/-- NEGA (R355): accumulator negation. -/
def execNega (core : CoreNo) (acc : Fin 4) (ov : OvMode) (s : State) : Out :=
  .next (accInstr core [aKey acc] acc (fun c => accPut acc (-(getAcc c acc)) ov c) s)

/-- ABSA (R355): accumulator magnitude. -/
def execAbsa (core : CoreNo) (acc : Fin 4) (ov : OvMode) (s : State) : Out :=
  .next (accInstr core [aKey acc] acc (fun c => accPut acc ((getAcc c acc).natAbs : Int) ov c) s)

/-- SHA (R355): accumulator shift. -/
def execSha (core : CoreNo) (acc : Fin 4) (left : Bool) (n : BitVec 6) (ov : OvMode) (s : State) : Out :=
  .next (accInstr core [aKey acc] acc
    (fun c => accShift acc (if left then (n.toNat : Int) else -(n.toNat : Int)) ov c) s)

/-- CLRA (R355): up to four accumulators become zero; more is no encoding. -/
def execClra (core : CoreNo) (accs : List (Fin 4)) (s : State) : Out :=
  .next (runInstr core (accs.map aKey) 1 true (fun c t =>
    if 4 < accs.length then .error .illegal
    else ex1 (accs.foldl (fun x a => readyAt (aKey a) 1 (setAcc a 0 x)) c) t) s)

/-- EXP (R357): redundant sign bits of an accumulator, minus 8. -/
def execExp (core : CoreNo) (d : Fin 16) (acc : Fin 4) (s : State) : Out :=
  .next (runInstr core [aKey acc] 1 true (fun c t =>
    ex1 (readyAt (dKey d) 2 (setD d (BitVec.ofInt 32 ((signBits 72 (getAcc c acc) : Int) - 8)) c)) t) s)

/-- EXPD (R357): redundant sign bits of a register. -/
def execExpd (core : CoreNo) (d a : Fin 16) (s : State) : Out :=
  .next (runInstr core [dKey a] 1 true (fun c t =>
    ex1 (readyAt (dKey d) 2 (setD d (BitVec.ofNat 32 (signBits 32 (getD c a).toInt)) c)) t) s)

/-- NORM (R357): shift an accumulator by a register, left where it is positive. -/
def execNorm (core : CoreNo) (acc : Fin 4) (d : Fin 16) (ov : OvMode) (s : State) : Out :=
  .next (runInstr core [aKey acc, dKey d] 1 true (fun c t =>
    ex1 (readyAt (aKey acc) 2 (accShift acc (getD c d).toInt ov c)) t) s)

/-- SAC (R356): shift, round and saturate an accumulator, and store it. -/
def execSac (core : CoreNo) (m : AMode) (acc : Fin 4) (shift : BitVec 6) (rnd : Rnd) (half : Bool) (s : State) : Out :=
  .next (runInstr core [aKey acc] 1 true (fun c t =>
    match resolve m c t with
    | .error k => .error k
    | .ok e =>
      let w := if half then 2 else 4
      match localFault e.a w with
      | some k => .error k
      | none =>
        let r := extractAcc (getAcc c acc) shift.toNat rnd half
        ex1 (dataWrite e.a (leInt w r.1) { e.c with eov := e.c.eov || r.2 }) e.s) s)

/-- MVA (R356): shift, round and saturate an accumulator into a D register. -/
def execMva (core : CoreNo) (d : Fin 16) (acc : Fin 4) (shift : BitVec 6) (rnd : Rnd) (half : Bool) (s : State) : Out :=
  .next (runInstr core [aKey acc] 1 true (fun c t =>
    let r := extractAcc (getAcc c acc) shift.toNat rnd half
    ex1 (readyAt (dKey d) 2 (setD d (BitVec.ofInt 32 r.1) { c with eov := c.eov || r.2 })) t) s)

/-- ADD (R361): integer addition. -/
def execAdd (core : CoreNo) (d a b : Fin 16) (s : State) : Out :=
  .next (aluInstr core [dKey a, dKey b] d (fun c t => (aluAdd (getD c a) (getD c b), t)) s)

/-- SUB (R361): integer subtraction. -/
def execSub (core : CoreNo) (d a b : Fin 16) (s : State) : Out :=
  .next (aluInstr core [dKey a, dKey b] d (fun c t => (aluSub (getD c a) (getD c b), t)) s)

/-- ADDI (R361): addition of an immediate. -/
def execAddi (core : CoreNo) (d a : Fin 16) (imm : U32) (s : State) : Out :=
  .next (aluInstr core [dKey a] d (fun c t => (aluAdd (getD c a) imm, t)) s)

/-- AND (R361): bitwise, with free C and V. -/
def execAndD (core : CoreNo) (d a b : Fin 16) (s : State) : Out :=
  .next (aluInstr core [dKey a, dKey b] d (fun c t => aluFree (getD c a &&& getD c b) t) s)

/-- OR (R361): bitwise, with free C and V. -/
def execOrD (core : CoreNo) (d a b : Fin 16) (s : State) : Out :=
  .next (aluInstr core [dKey a, dKey b] d (fun c t => aluFree (getD c a ||| getD c b) t) s)

/-- XOR (R361): bitwise, with free C and V. -/
def execXorD (core : CoreNo) (d a b : Fin 16) (s : State) : Out :=
  .next (aluInstr core [dKey a, dKey b] d (fun c t => aluFree (getD c a ^^^ getD c b) t) s)

/-- NOT (R361): complement, with free C and V. -/
def execNotD (core : CoreNo) (d a : Fin 16) (s : State) : Out :=
  .next (aluInstr core [dKey a] d (fun c t => aluFree (~~~(getD c a)) t) s)

/-- SHL (R361): shift; past 31 places, and in C and V, free values. -/
def execShl (core : CoreNo) (d a : Fin 16) (b : Src2) (s : State) : Out :=
  .next (aluInstr core (dKey a :: src2Keys b) d (fun c t => aluShift (fun x k => x <<< k) (getD c a) (src2 c b) t) s)

/-- SHR (R361): shift; past 31 places, and in C and V, free values. -/
def execShr (core : CoreNo) (d a : Fin 16) (b : Src2) (s : State) : Out :=
  .next (aluInstr core (dKey a :: src2Keys b) d (fun c t => aluShift (fun x k => x >>> k) (getD c a) (src2 c b) t) s)

/-- SAR (R361): shift; past 31 places, and in C and V, free values. -/
def execSar (core : CoreNo) (d a : Fin 16) (b : Src2) (s : State) : Out :=
  .next (aluInstr core (dKey a :: src2Keys b) d (fun c t => aluShift (fun x k => x.sshiftRight k) (getD c a) (src2 c b) t) s)

/-- ROT (R361): rotation. -/
def execRot (core : CoreNo) (d a : Fin 16) (b : Src2) (s : State) : Out :=
  .next (aluInstr core (dKey a :: src2Keys b) d (fun c t => aluFree (rotate (getD c a) (src2 c b).toNat) t) s)

/-- MIN (R361): the smaller of two registers. -/
def execMin (core : CoreNo) (d a b : Fin 16) (s : State) : Out :=
  .next (aluInstr core [dKey a, dKey b] d
    (fun c t => aluFree (if minLess (getD c a) (getD c b) then getD c a else getD c b) t) s)

/-- MAX (R361): the larger of two registers. -/
def execMax (core : CoreNo) (d a b : Fin 16) (s : State) : Out :=
  .next (aluInstr core [dKey a, dKey b] d
    (fun c t => aluFree (if minLess (getD c a) (getD c b) then getD c b else getD c a) t) s)

/-- ABS (R361): magnitude; of the most negative number the spec states none. -/
def execAbs (core : CoreNo) (d a : Fin 16) (s : State) : Out :=
  .next (aluInstr core [dKey a] d (fun c t =>
    if getD c a = 0x80000000 then aluOpen t else aluFree (if (getD c a).msb then -(getD c a) else getD c a) t) s)

/-- CMP (R361): compare, setting ZNCV of the difference. -/
def execCmp (core : CoreNo) (a : Fin 16) (b : Src2) (s : State) : Out :=
  .next (runInstr core (dKey a :: src2Keys b) 1 true (fun c t => ex1 (putCmp (aluSub (getD c a) (src2 c b)) c) t) s)

/-- SEL (R361): select by a condition. -/
def execSel (core : CoreNo) (cond : Cond) (d a b : Fin 16) (s : State) : Out :=
  .next (aluInstr core [dKey a, dKey b] d (fun c t => aluFree (if condHolds cond c then getD c a else getD c b) t) s)

/-- MUL (R361): low part of a product. -/
def execMul (core : CoreNo) (d a b : Fin 16) (s : State) : Out :=
  .next (runInstr core [dKey a, dKey b] 1 true (fun c t => ex1 (readyAt (dKey d) 2 (setD d (getD c a * getD c b) c)) t) s)

/-- MULH (R361): high part of a product. -/
def execMulh (core : CoreNo) (d a b : Fin 16) (s : State) : Out :=
  .next (runInstr core [dKey a, dKey b] 1 true
    (fun c t => ex1 (readyAt (dKey d) 2 (setD d (mulHigh (getD c a) (getD c b)) c)) t) s)

/-- DIVS (R361): one divide step, whose arithmetic the spec does not state. -/
def execDivs (core : CoreNo) (d a b : Fin 16) (s : State) : Out :=
  .next (runInstr core [dKey d, dKey a, dKey b] 1 true
    (fun c t => ex1 (readyAt (dKey d) 1 (setD d (Config.divStep (getD c d) (getD c a) (getD c b)) c)) t) s)

/-- FADD (R358): binary32, rounded to nearest even. -/
def execFadd (core : CoreNo) (d a b : Fin 16) (s : State) : Out :=
  .next (fInstr core [dKey a, dKey b] 3 d (fun c t => fAdd (getD c a) (getD c b) t) s)

/-- FSUB (R358): binary32, rounded to nearest even. -/
def execFsub (core : CoreNo) (d a b : Fin 16) (s : State) : Out :=
  .next (fInstr core [dKey a, dKey b] 3 d (fun c t => fAdd (getD c a) (fNegate (getD c b)) t) s)

/-- FMUL (R358): binary32, rounded to nearest even. -/
def execFmul (core : CoreNo) (d a b : Fin 16) (s : State) : Out :=
  .next (fInstr core [dKey a, dKey b] 3 d (fun c t => fMul (getD c a) (getD c b) t) s)

/-- FMA (R358): fused multiply-add. -/
def execFma (core : CoreNo) (d a b c : Fin 16) (s : State) : Out :=
  .next (fInstr core [dKey a, dKey b, dKey c] 3 d (fun x t => fFma (getD x a) (getD x b) (getD x c) t) s)

/-- FMIN (R358): binary32 minimum. -/
def execFmin (core : CoreNo) (d a b : Fin 16) (s : State) : Out :=
  .next (fInstr core [dKey a, dKey b] 3 d (fun c t => fMinMax false (getD c a) (getD c b) t) s)

/-- FMAX (R358): binary32 maximum. -/
def execFmax (core : CoreNo) (d a b : Fin 16) (s : State) : Out :=
  .next (fInstr core [dKey a, dKey b] 3 d (fun c t => fMinMax true (getD c a) (getD c b) t) s)

/-- FABS (R358): binary32 magnitude. -/
def execFabs (core : CoreNo) (d a : Fin 16) (s : State) : Out :=
  .next (fInstr core [dKey a] 3 d (fun c t => fSign (fun x => x &&& 0x7FFFFFFF) (getD c a) t) s)

/-- FNEG (R358): binary32 negation. -/
def execFneg (core : CoreNo) (d a : Fin 16) (s : State) : Out :=
  .next (fInstr core [dKey a] 3 d (fun c t => fSign (fun x => x ^^^ 0x80000000) (getD c a) t) s)

/-- FCMP (R358): binary32 compare. -/
def execFcmp (core : CoreNo) (a b : Fin 16) (s : State) : Out :=
  .next (runInstr core [dKey a, dKey b] 1 true (fun c t =>
    let (c1, t1) := fCmp (getD c a) (getD c b) c t
    ex1 c1 t1) s)

/-- FCVT (R358): conversion. -/
def execFcvt (core : CoreNo) (k : Cvt) (d a : Fin 16) (s : State) : Out :=
  .next (fInstr core [dKey a] 3 d (fun c t => fCvt k (getD c a) t) s)

/-- FRCP (R358): reciprocal estimate. -/
def execFrcp (core : CoreNo) (d a : Fin 16) (s : State) : Out :=
  .next (fInstr core [dKey a] 5 d (fun c t => fRcp (getD c a) t) s)

/-- FRSQ (R358): reciprocal square root estimate. -/
def execFrsq (core : CoreNo) (d a : Fin 16) (s : State) : Out :=
  .next (fInstr core [dKey a] 5 d (fun c t => fRsq (getD c a) t) s)

/-- A local load (R348, R349). -/
def loadInstr (core : CoreNo) (w : Nat) (dualOnly : Bool) (m : AMode) (put : U64 → Core → Core) (s : State) : State :=
  runInstr core [] 1 true (fun c t =>
    if dualOnly && c.unified then .error .illegal
    else match resolve m c t with
      | .error k => .error k
      | .ok e => match localCheck e w with
        | some k => .error k
        | none => ex1 (put (localLoad e.c e w) e.c) e.s) s

/-- A local store; the register is read as it stood. -/
def storeInstr (core : CoreNo) (reads : List Nat) (w : Nat) (dualOnly : Bool) (m : AMode) (v : Core → U64) (s : State) : State :=
  runInstr core reads 1 true (fun c t =>
    if dualOnly && c.unified then .error .illegal
    else match resolve m c t with
      | .error k => .error k
      | .ok e => match localCheck e w with
        | some k => .error k
        | none => ex1 (localStore e w (v c) e.c) e.s) s

/-- LD (R348): load from X or Y. -/
def execLd (core : CoreNo) (d : Fin 16) (sz : Size) (signed : Bool) (m : AMode) (s : State) : Out :=
  .next (loadInstr core (sizeBytes sz) false m (fun v c => readyAt (dKey d) 2 (setD d (extendLoad (sizeBytes sz) signed v) c)) s)

/-- ST (R348): store to X or Y. -/
def execSt (core : CoreNo) (m : AMode) (d : Fin 16) (sz : Size) (s : State) : Out :=
  .next (storeInstr core [dKey d] (sizeBytes sz) false m (fun c => (getD c d).setWidth 64) s)

/-- The two D registers of a pair. -/
def pairKeys (d : Fin 8) : List Nat := [2 * d.val, 2 * d.val + 1]

/-- LD64 (R349): a pair of D registers, in DUAL alone. -/
def execLd64 (core : CoreNo) (d : Fin 8) (m : AMode) (s : State) : Out :=
  .next (loadInstr core 8 true m (fun v c => (pairKeys d).foldl (fun x k => readyAt k 2 x) (setPair d v c)) s)

/-- ST64 (R349). -/
def execSt64 (core : CoreNo) (m : AMode) (d : Fin 8) (s : State) : Out :=
  .next (storeInstr core (pairKeys d) 8 true m (fun c => getPair c d) s)

/-- Count an access to cluster SRAM and its conflicts (Tables 13.13 and 13.14). -/
def countSram (n conf : Nat) (s : State) : State :=
  let base := 0x0D010040 + clusterOf n * 0x100
  bumpBy (coreCnt n 0x218) conf (bumpBy (base + 8) conf (bump base s))

/-- LDC (R350): ready 8 cycles after issue, and one more for each other access to the bank. -/
def execLdc (core : CoreNo) (d : Fin 16) (m : AMode) (conflicts : BitVec 3) (s : State) : Out :=
  .next (runInstr core [] 1 true (fun c t =>
    match resolve m c t with
    | .error k => .error k
    | .ok e => match sramFault e.s core.toNat c e.a 4 with
      | some k => .error k
      | none =>
        let v := leNat (ramRead (getSram e.s (clusterOf core.toNat)) (e.a - 0x100000) 4)
        ex1 (readyAt (dKey d) (8 + conflicts.toNat) (setD d (BitVec.ofNat 32 v) e.c)) (countSram core.toNat conflicts.toNat e.s)) s)

/-- STC (R350). -/
def execStc (core : CoreNo) (m : AMode) (d : Fin 16) (conflicts : BitVec 3) (s : State) : Out :=
  .next (runInstr core [dKey d] 1 true (fun c t =>
    match resolve m c t with
    | .error k => .error k
    | .ok e => match sramFault e.s core.toNat c e.a 4 with
      | some k => .error k
      | none =>
        let cl := clusterOf core.toNat
        ex1 e.c (countSram core.toNat conflicts.toNat
          (setSram cl (ramWrite (getSram e.s cl) (e.a - 0x100000) (leBytes 4 (getD c d).toNat)) e.s))) s)

/-- A register that the scoreboard follows is ready after one cycle. -/
def putReg (r : SReg) (v : U32) (c : Core) : Core :=
  match r with
  | .d n => readyAt (dKey n) 1 (setD n v c)
  | _ => setReg r v c

/-- MOVI (Table 13.6). -/
def execMovi (core : CoreNo) (r : SReg) (imm : U32) (s : State) : Out :=
  .next (runInstr core [] 1 true (fun c t => ex1 (putReg r imm c) t) s)

/-- MODI (R351): step a pointer, with its wrap. -/
def execModi (core : CoreNo) (i : Fin 8) (step : Src2) (s : State) : Out :=
  .next (runInstr core (src2Keys step) 1 true (fun c t =>
    let (c1, t1) := stepPtr i (src2 c step).toInt c t
    ex1 c1 t1) s)

/-- MOV (Table 13.6). -/
def execMov (core : CoreNo) (dst src : SReg) (s : State) : Out :=
  .next (runInstr core (regKeys src) 1 true (fun c t => ex1 (putReg dst (getReg c src) c) t) s)

/-- B (R360). -/
def execB (core : CoreNo) (target : U32) (s : State) : Out :=
  .next (runInstr core [] 1 false (fun c t => takeBranch target c t) s)

/-- BCC (R360): one cycle where it is not taken. -/
def execBcc (core : CoreNo) (cond : Cond) (target : U32) (s : State) : Out :=
  .next (runInstr core [] 1 false (fun c t => if condHolds cond c then takeBranch target c t else ex1 c t) s)

/-- CALL (R360): the return address goes onto the stack of eight. -/
def execCall (core : CoreNo) (target : U32) (s : State) : Out :=
  .next (runInstr core [] 1 false (fun c t =>
    if 8 ≤ c.stack.length then .error .stack
    else .ok ⟨{ c with stack := (c.pc + 4) :: c.stack }, t, 3, some target⟩) s)

/-- RET (R360). -/
def execRet (core : CoreNo) (s : State) : Out :=
  .next (runInstr core [] 1 false (fun c t =>
    match c.stack with
    | [] => .error .stack
    | a :: rest => .ok ⟨{ c with stack := rest }, t, 3, some a⟩) s)

/-- LOOP (R359): the body runs from the next instruction to `last`. -/
def execLoop (core : CoreNo) (count : Count) (last : U32) (s : State) : Out :=
  .next (runInstr core (countReads count) 1 false (fun c t => openLoop count (c.pc + 4) last false c t) s)

/-- REP (R359): the next instruction alone. -/
def execRep (core : CoreNo) (count : Count) (s : State) : Out :=
  .next (runInstr core (countReads count) 1 false (fun c t => openLoop count (c.pc + 4) (c.pc + 4) true c t) s)

/-- The queue of a running core is full: DMAQ and OUTQ stall (Table 13.6). -/
def queueFull (core : CoreNo) (s : State) : Bool :=
  let c := getCore s core.toNat
  decide (c.state = .running ∧ 16 ≤ c.queue.length)

/-- DMAQ (R363): its offset and length inside the scratch window, else a DMA fault; more than 65,536 B is no encoding. -/
def execDmaq (core : CoreNo) (op : DmaqOp) (s : State) : Out :=
  .next (if queueFull core s then s else
    runInstr core [] 1 true (fun c t =>
      let len := op.bytes.toNat
      let inScratch : Bool := match kernOf t c with
        | some k => decide (op.offset.toNat + len ≤ k.scratchKib * 1024)
        | none => true
      if 65536 < len then .error .illegal
      else if xferOk t core.toNat c op.localAddr.toNat len = false then .error .window
      else if inScratch = false then .error .dma
      else ex1 { c with queue := c.queue ++ [.dma op] } t) s)

/-- OUTQ (R363): naming no output binding, a DMA fault. -/
def execOutq (core : CoreNo) (binding : BitVec 4) (localAddr : BitVec 24) (bytes : BitVec 17) (s : State) : Out :=
  .next (if queueFull core s then s else
    runInstr core [] 1 true (fun c t =>
      let len := bytes.toNat
      let out : Bool := match kernOf t c with
        | some k => match tget k.binds binding.toNat with
          | some b => decide (b.kind = 1)
          | none => false
        | none => false
      if 65536 < len then .error .illegal
      else if xferOk t core.toNat c localAddr.toNat len = false then .error .window
      else if out = false then .error .dma
      else ex1 { c with queue := c.queue ++ [.out binding.toNat localAddr bytes] } t) s)

/-- WAITD (R363): while more than n transfers are outstanding the core waits. -/
def execWaitd (core : CoreNo) (n : BitVec 5) (s : State) : Out :=
  let c := getCore s core.toNat
  .next (if c.state = .running ∧ n.toNat < c.queue.length then s else runInstr core [] 1 true (fun c t => ex1 c t) s)

/-- DMA_TRANSFER_DONE (R363): the oldest transfer of the core completes. -/
def execDmaTransferDone (core : CoreNo) (s : State) : Out :=
  let n := core.toNat
  let c := getCore s n
  .next (match c.queue with
    | [] => s
    | q :: rest => doXfer n q (setCore n { c with queue := rest } s))

/-- MVCCR (R352): circular and bit-reversed addressing on I1 to I7 does not exist in UNIFIED. -/
def execMvccr (core : CoreNo) (d : Fin 16) (s : State) : Out :=
  .next (runInstr core [dKey d] 1 true (fun c t =>
    let v := getD c d
    if c.unified ∧ v &&& 0xFEFE ≠ 0 then .error .illegal
    else ex1 { c with circ := v.setWidth 8, brev := v.extractLsb' 8 8 } t) s)

/-- NOP. -/
def execNop (core : CoreNo) (s : State) : Out := .next (runInstr core [] 1 true (fun c t => ex1 c t) s)

/-- DONE (R377): four cycles, and the run ends. -/
def execDone (core : CoreNo) (s : State) : Out :=
  let t := runInstr core [] 1 false (fun c t => .ok ⟨c, t, 4, none⟩) s
  .next (if (getCore s core.toNat).state = .running ∧ (getCore t core.toNat).state = .running then endRun core.toNat t else t)

/-- BUDGET_FAULT (R371): a user kernel's run reaches max_cycles. -/
def execBudgetFault (core : CoreNo) (s : State) : Out :=
  let n := core.toNat
  let c := getCore s n
  .next (match kernOf s c with
    | none => s
    | some k =>
      if c.state ≠ .running then s
      else faultRun n .budget (setCore n { c with runCycles := max c.runCycles k.maxCycles } s))

end Sys2Proof.Machine
end

