-- ==== Sys2Proof/Machine/Timeout.lean ====
section
/-!
DEFINITION. LONG_COMMAND_TIMEOUT (R44): a long command that exceeds its time limit completes with TIMEOUT, and what each chapter says it
leaves (R79, R156, R256, R308, R344, R374, R426, R452, 13.9).
-/

namespace Sys2Proof.Machine

/-- A capture job that is cut off leaves its slot as it was before the command (R256). -/
def timeoutCapJob (id : Nat) (s : State) : State :=
  match tget s.cap.jobs id with
  | some (.exportJob src c n _ p ring _) =>
    let s1 := match recAt s src c n with
      | some r => setRecAt src c n (some { r with state := .ready }) s
      | none => s
    delJob id (unbindRing p ring .halga s1)
  | some (.importJob n p ring _) => delJob id (unbindRing p ring .halga (setRecAt 1 0 n none s))
  | some (.mergeJob n _ _ _ _) => delJob id (setRecAt 2 0 n none s)
  | none => s

/-- An image write that is cut off leaves its target invalid (R452). -/
def timeoutImage (id : Nat) (s : State) : State :=
  match s.pop.imgPending.find? (fun w => decide (w.long = some id)) with
  | none => s
  | some w =>
    let bad : ImgEnt := .none
    let s1 := { s with pop := { s.pop with imgPending := s.pop.imgPending.filter (fun x => decide (x.long ≠ some id))
                                           dir0 := s.pop.dir0.map (putImage w.target.toNat w.slot bad)
                                           dir1 := s.pop.dir1.map (putImage w.target.toNat w.slot bad) } }
    unbindRing w.part w.ring .image s1

/-- An OTP write that is cut off burns its slot with no generation written, the active one standing (R444, R452). -/
def timeoutOtp (id : Nat) (s : State) : State :=
  match s.pop.otpPending with
  | some (g, _, i, _) =>
    if i = id then refreshOtp (setOtpGroup g.toNat (burnGen (otpGroup s g.toNat)) { s with pop := { s.pop with otpPending := none } }) else s
  | none => s

/-- A seal that is cut off leaves the active generation unchanged (R308). -/
def timeoutSeal (id : Nat) (s : State) : State :=
  match s.eq.sealReq with
  | some (_, i) =>
    if i = id then
      let s1 := setOtpGroup 1 (burnGen (otpGroup s 1)) s
      refreshOtp { s1 with eq := { s1.eq with sealReq := none, sealGen := s1.pop.otpSeal.length } }
    else s
  | none => s

/-- A kernel being loaded whose image has not been read in time is ABSENT again, its ring free. -/
def timeoutLoad (id : Nat) (s : State) : State :=
  match tfind (fun _ x => decide (x.state = .loading ∧ x.long = some id)) s.sor.kernels with
  | none => s
  | some (k, x) =>
    let s1 := { s with sor := { s.sor with kernels := tdel s.sor.kernels k } }
    if x.loadSrc = 0 then unbindRing x.part x.loadIdx.toNat .image s1 else s1

/-- An announcement being loaded is absent, its ring free (R344). -/
def timeoutAnn (id : Nat) (s : State) : State :=
  match tfind (fun _ a => match a.loading with
      | some (i, _, _) => decide (i = id)
      | none => false) s.voc.anns with
  | none => s
  | some (a, x) =>
    let s1 := { s with voc := { s.voc with anns := tdel s.voc.anns a } }
    match x.loading with
    | some (_, p, n) => unbindRing p n .announcement s1
    | none => s1

/-- What a TIMEOUT leaves, by opcode. The others go on to their end, which completes nothing more: a retire of a ring or a stream,
a kernel in STOPPING, a job that closes. -/
def timeoutLeaves (opcode id : Nat) (s : State) : State :=
  match opcode with
  | 0x0305 => { s with clk := { s.clk with steps := s.clk.steps.filter (fun r => decide (r.long ≠ id)) } }
  | 0x0907 => timeoutCapJob id s
  | 0x0908 => { s with cap := { s.cap with caps := tmap (fun _ k => if k.retiring = some id then { k with retiring := none } else k) s.cap.caps } }
  | 0x0909 => timeoutCapJob id s
  | 0x090A => timeoutCapJob id s
  | 0x0B05 => timeoutSeal id s
  | 0x0C0A => timeoutAnn id s
  | 0x0D01 => timeoutLoad id s
  | 0x1103 => timeoutOtp id s
  | 0x1104 => timeoutImage id s
  | _ => s

/-- LONG_COMMAND_TIMEOUT (R44): due when the command's time limit has passed. -/
def execLongCommandTimeout (cmd : U32) (s : State) : Out :=
  .next (match tget s.host.long cmd.toNat with
    | none => s
    | some l =>
      if l.deadline ≤ elNs s then completeLong cmd.toNat .timeout [] (timeoutLeaves l.opcode.toNat cmd.toNat s) else s)

end Sys2Proof.Machine
end

