-- ==== Sys2Proof/Machine/VoiceOps.lean ====
section
/-!
DEFINITION. Operations of the voice subsystem (12_voice.md): the lattice, channels and pre-emption, the jitter buffer, tones and events, and
what a lattice block does in each direction. Signals that the spec does not give by value are free values (log entry 25).
-/

namespace Sys2Proof

/-- Flags of a configuration (Table 12.16). -/
def VoiceCfg.start (c : VoiceCfg) : Bool := c.flags.getLsbD 0
def VoiceCfg.preempt (c : VoiceCfg) : Bool := c.flags.getLsbD 1
def VoiceCfg.protected_ (c : VoiceCfg) : Bool := c.flags.getLsbD 2
def VoiceCfg.srtp (c : VoiceCfg) : Bool := c.flags.getLsbD 3
def VoiceCfg.latch (c : VoiceCfg) : Bool := c.flags.getLsbD 4
def VoiceCfg.rtcp (c : VoiceCfg) : Bool := c.flags.getLsbD 5

/-- A remote is given or latched (Table 12.16): zero port or address is none. -/
def VoiceCfg.remoteSet (c : VoiceCfg) : Bool := decide (c.remotePort ≠ 0 ∧ c.remoteAddr ≠ 0)

end Sys2Proof

namespace Sys2Proof.Machine

/-! ### Small parts -/

/-- Count n in counter i of a channel (Table 12.13): 0 RX_PKTS, 1 TX_PKTS, 2 LATE, 3 LOST, 4 DUP, 5 BAD_RTP, 6 BAD_PT, 7 WRONG_SRC,
8 CONCEALED_MS, 9 RESYNC, 10 AUTH_FAIL, 11 REPLAY, 12 TDM_HOLD, 13 HOST_UNDERRUN, 14 HOST_OVF, 15 HOST_SKIP. -/
def VCh.count (v : VCh) (i n : Nat) : VCh := { v with cnt := v.cnt.set i (satAdd (2 ^ 64 - 1) (lget v.cnt i 0) n) }

/-- The remote of a channel is known, and no transmit key is missing: it can send (R318, R334). -/
def VCh.canSend (v : VCh) : Bool := v.cfg.remoteSet && (!v.cfg.srtp || v.keyTx.isSome)

/-- Slots of a codec, samples of a 10 ms block, and samples to an RTP unit (R309, R317). -/
def codecSlots (c : VoiceCfg) : Nat := if wideband c then 2 else 1
def blockSamples (c : VoiceCfg) : Nat := if wideband c then 160 else 80
def perUnit (c : VoiceCfg) : Nat := if wideband c then 2 else 1

/-- RTP payload type of a codec (Table 12.3). -/
def codecPt (codec : Nat) (pt : U8) : Nat :=
  match codec with
  | 0 => 8
  | 1 => 0
  | 2 => pt.toNat
  | 3 => 18
  | _ => 9

/-- RTP units in a payload of a codec: 8,000 to the second. -/
def payloadUnits (codec : Nat) (b : Bytes) : Nat :=
  match codec with
  | 2 => b.length * 2
  | 3 => b.length / 10 * 80
  | _ => b.length

/-- Samples of a free signal. -/
def sig (d n : Nat) : List U16 := (List.range n).map (Config.signal d)

def silence (n : Nat) : List U16 := List.replicate n 0

/-- Exactly n samples: cut, or filled with silence. -/
def fit (n : Nat) (l : List U16) : List U16 := l.take n ++ silence (n - l.length)

/-- The idle octet of a law (R315). -/
def idleOctet (ulaw : Bool) : Byte := if ulaw then 0xFF else 0xD5

/-- A channel event (Table 12.17), which its partition's ring gets. -/
def chEvt (code sev ch : Nat) (params : Bytes) (s : State) : State := raise code sev (leBytes 2 ch ++ params) (chPart s ch) s

/-- VOICE-CH-STATE. -/
def chState (ch old new cause : Nat) (s : State) : State := chEvt 0x0C01 0 ch [BitVec.ofNat 8 old, BitVec.ofNat 8 new, BitVec.ofNat 8 cause] s

/-- 16-byte header and payload of a block for a host (Table 12.4). -/
def hostBlock (ch leg : Nat) (concealed gap : Bool) (ts : Nat) (pcm : List U16) : Bytes :=
  leBytes 2 ch ++ [BitVec.ofNat 8 leg, BitVec.ofNat 8 ((if concealed then 1 else 0) + (if gap then 2 else 0))] ++ leBytes 2 pcm.length ++
  leBytes 2 0 ++ leBytes 8 ts ++ (pcm.map (fun w => leBytes 2 w.toNat)).flatten

/-! ### Lattice and highways (R312, R314) -/

/-- fs_offset_ns of a frame start against the lattice, both as elapsed instants: slew and steps change neither phase (R312, R314). -/
def fsOffsetOf (fs : Option Nat) (originEl : Nat) : Nat :=
  match fs with
  | some f => ((f : Int) - (originEl : Int)).emod 125000 |>.toNat
  | none => 0

/-- Set the lattice origin when the number of channels rises from zero (R312). -/
def startLattice (s : State) : State :=
  if s.voc.chans ≠ [] then s
  else
    let now := taiNs s
    let at_ := if s.clk.timeValid then (now + 9999999) / 10000000 * 10000000 else now
    let el := elNs s + (at_ - now)
    { s with voc := { s.voc with origin := at_, originEl := el, block := 0
                                 highways := tmap (fun _ w => { w with fsOffset := fsOffsetOf s.voc.clkEl el }) s.voc.highways } }

/-- Elapsed start of the next block. -/
def blockStartEl (s : State) : Nat := s.voc.originEl + s.voc.block * 10000000

def getHw (s : State) (h : Nat) : Highway := tgetD s.voc.highways h .init

/-- A channel that holds a timeslot. -/
def slotHolder (s : State) (h t : Nat) : Option (Nat × VCh) :=
  tfind (fun _ v => decide (v.cfg.lineKind = 1 ∧ v.state ≠ .closing ∧ v.cfg.highway.toNat = h ∧ v.cfg.timeslot.toNat = t)) s.voc.chans

/-! ### Configurations (R310, R344) -/

/-- A ring field: unused where not needed, otherwise a ring of the partition, free or already carrying voice. -/
def voiceRing (s : State) (p : HP) (used toDev : Bool) (r : U8) : Bool :=
  if used = false then decide (r = 0xFF)
  else ringFree s p r.toNat toDev ||
    (match getRing s p r.toNat with
     | some x => decide (x.toDev = toDev ∧ x.use = .voice ∧ x.retiring = none)
     | none => false)

/-- Ranges of the configuration, but for rings and ports (Table 12.16). -/
def voiceCfgOk (c : VoiceCfg) : Bool :=
  let tdm := decide (c.lineKind = 1)
  let rtp := decide (c.pktKind = 1)
  decide (c.lineKind.toNat ≤ 2 ∧ c.pktKind.toNat ≤ 2 ∧ ¬(c.lineKind = 0 ∧ c.pktKind ≠ 1) ∧ c.codec.toNat ≤ 4 ∧ 1 ≤ c.ptime.toNat ∧
    c.ptime.toNat ≤ 6 ∧ c.priority.toNat ≤ 7 ∧ c.flags.toNat < 64 ∧ c.level.toNat ≤ 7 ∧ c.dscp.toNat ≤ 63 ∧ c.dtmfMode.toNat ≤ 2 ∧
    c.toneMask.toNat < 32 ∧ (c.evPt = 0 ∨ (96 ≤ c.evPt.toNat ∧ c.evPt.toNat ≤ 127)) ∧ c.jbAdapt.toNat < 2 ∧ c.ec &&& 0xC8 = 0 ∧
    (c.mediaTimeoutMs = 0 ∨ (100 ≤ c.mediaTimeoutMs.toNat ∧ c.mediaTimeoutMs.toNat ≤ 60000)) ∧ c.rsv = 0 ∧ 10 ≤ c.jbMinMs.toNat ∧
    c.jbMinMs.toNat ≤ c.jbInitMs.toNat ∧ c.jbInitMs.toNat ≤ c.jbMaxMs.toNat ∧ c.jbMaxMs.toNat ≤ 400) &&
  decide (c.pt.toNat = codecPt c.codec.toNat c.pt ∧ (c.codec = 2 → 96 ≤ c.pt.toNat ∧ c.pt.toNat ≤ 127)) &&
  (if tdm then decide (c.highway.toNat < 8 ∧ c.timeslot.toNat < 128 ∧ (if wideband c then c.law = 2 else c.law.toNat < 2))
   else decide (c.highway = 0 ∧ c.timeslot = 0 ∧ c.law = 0)) &&
  (if rtp then decide ((c.target.toNat < 12 ∨ c.target = 0x10 ∨ c.target = 0x11) ∧ 1024 ≤ c.localPort.toNat ∧ c.localPort.toNat ≤ 65534 ∧
      c.remotePort.toNat ≤ 65534) &&
      (c.latch || decide (c.remotePort ≠ 0 ∧ c.remoteAddr ≠ 0)) &&
      (!c.rtcp || decide (c.localPort.toNat % 2 = 0 ∧ c.remotePort.toNat % 2 = 0))
   else decide (c.target = 0))

/-- The rings of a configuration. -/
def voiceRingsOk (s : State) (p : HP) (c : VoiceCfg) : Bool :=
  let line := decide (c.lineKind = 2)
  let pkt := decide (c.pktKind = 2)
  voiceRing s p line true c.lineIn && voiceRing s p line false c.lineOut && voiceRing s p pkt true c.pktIn && voiceRing s p pkt false c.pktOut

/-- A port number of the RTP leg is registered by another use, for the channel's own number (R486). -/
def voicePortTaken (s : State) (ch : Nat) (c : VoiceCfg) : Bool :=
  decide (c.pktKind = 1) &&
  (portTaken s (16 + ch) false c.localPort.toNat (macMask c.target.toNat) ||
   (c.rtcp && portTaken s (16 + ch) false (c.localPort.toNat + 1) (macMask c.target.toNat)))

/-! ### Closing and pre-emption (R338, R339) -/

/-- Rings of a configuration that carry voice. -/
def cfgRings (c : VoiceCfg) : List Nat := [c.lineIn, c.lineOut, c.pktIn, c.pktOut].filterMap (fun r => if r = 0xFF then none else some r.toNat)

/-- Rings that no channel of the partition names any more are unbound. -/
def dropRings (p : HP) (l : List Nat) (s : State) : State :=
  l.foldl (fun t n =>
    if t.voc.chans.any (fun e => decide (e.2.part = p ∧ e.2.state ≠ .closing ∧ n ∈ cfgRings e.2.cfg)) then t
    else unbindRing p n .voice t) s

/-- The frame of a channel's packet: UDP from local to remote port, RTP at its level, or RTCP from and to the port one higher (R318, R320). -/
def sendVoice (rtcp : Bool) (own : TxOwner) (v : VCh) (body : Bytes) (s : State) : State :=
  let up : U16 := if rtcp then 1 else 0
  let ip := if v.cfg.remoteAddr.toNat / 2 ^ 32 = 0xFFFF then 20 else 40
  sendOwn { cls := if rtcp then .c3 else .c1, port := targetPort v.cfg.target.toNat, pair := targetPair v.cfg.target.toNat, prp := true
            len := 14 + ip + 8 + body.length, launch := none, tsReq := false, owner := own, body, level := v.cfg.level.toNat
            to_ := some { addr := v.cfg.remoteAddr, dst := v.cfg.remotePort + up, src := some (v.cfg.localPort + up), dscp := some v.cfg.dscp } } s

/-- Skip every queued request of a channel. -/
def skipQueue (ch cause : Nat) (s : State) : State :=
  match getCh s ch with
  | none => s
  | some v => v.queue.foldl (fun t r => annSkip r.ann ch cause t) (modCh ch (fun x => { x with queue := [] }) s)

/-- Close a channel (Table 12.8): cause 0 command, 1 pre-emption. -/
def closeCh (ch cause : Nat) (s : State) : State :=
  match getCh s ch with
  | none => s
  | some v =>
    if v.state = .closing then s
    else
      let s1 := if v.cfg.pktKind = 1 ∧ v.cfg.rtcp ∧ v.canSend then
          let (d, t) := fresh s
          sendVoice true (.rtcp ch) v (Config.rtcp v.ssrcTx true d) t
        else s
      let s2 := skipQueue ch 3 s1
      let s3 := modCh ch (fun x => { x with state := .closing, closeEl := elNs s, play := none, gen := none, telTx := none, telRx := none, jb := [] }) s2
      chState ch v.state.num 3 cause (dropRings v.part (cfgRings v.cfg) s3)

/-- Order candidates by priority, then latest opened first. -/
def insVictim (x : Nat × VCh) : List (Nat × VCh) → List (Nat × VCh)
  | [] => [x]
  | y :: t =>
    if x.2.cfg.priority.toNat < y.2.cfg.priority.toNat ∨ (x.2.cfg.priority = y.2.cfg.priority ∧ y.2.openTs < x.2.openTs) then x :: y :: t
    else y :: insVictim x t

/-- Shortest prefix whose slots reach a need. -/
def prefixFor : List (Nat × VCh) → Nat → Option (List (Nat × VCh))
  | _, 0 => some []
  | [], _ + 1 => none
  | x :: t, n + 1 => (prefixFor t (n + 1 - x.2.slots)).map (fun r => x :: r)

/-- The victims that make room for so many more slots; none: NO-RESOURCE (R339). -/
def victimsFor (s : State) (p : HP) (own : Option Nat) (more : Nat) (c : VoiceCfg) : Option (List (Nat × VCh)) :=
  let need := voiceSlotsOf s p + more - (getPart s p).quota.voiceSlots
  if need = 0 then some []
  else if c.preempt = false then none
  else
    let cand := s.voc.chans.filter (fun e => decide (e.2.part = p ∧ e.2.state ≠ .closing ∧ some e.1 ≠ own ∧
      e.2.cfg.priority.toNat < c.priority.toNat) && !e.2.cfg.protected_)
    prefixFor (cand.foldl (fun l e => insVictim e l) []) need

/-- Close the victims of a channel. -/
def preempt (by_ : Nat) (prio : U8) (l : List (Nat × VCh)) (s : State) : State :=
  l.foldl (fun t e =>
    closeCh e.1 1 (raise 0x0C02 2 (leBytes 2 e.1 ++ leBytes 2 by_ ++ [e.2.cfg.priority, prio]) (some e.2.part) (bump 0x0C000100 t))) s

/-- Victims as two channel numbers. -/
def victimBytes (l : List (Nat × VCh)) : Bytes :=
  let n (i : Nat) : Nat := ((l[i]?).map (·.1)).getD 0xFFFF
  leBytes 2 (n 0) ++ leBytes 2 (n 1)

/-! ### Jitter buffer (R322) -/

/-- τ of a timestamp without wrap. -/
def unwrapTs (m : Option JbClk) (ts : U32) : Int :=
  match m with
  | none => 0
  | some c => c.ext + (ts - c.ts).toInt

/-- Round an elapsed instant up to a sample of the narrowband lattice. -/
def latticeUp (s : State) (x : Int) : Int :=
  let o : Int := s.voc.originEl
  x + (-(x - o)).emod 125000

/-- Smallest of the pairs' values. -/
def minSnd : List (Nat × Int) → Option Int
  | [] => none
  | e :: t => match minSnd t with
    | some m => some (min e.2 m)
    | none => some e.2

/-- Keep what is no older than a span. -/
def within (now_ span : Nat) (l : List (Nat × Int)) : List (Nat × Int) := l.filter (fun e => decide (now_ ≤ e.1 + span))

/-- Target depth in ns. -/
def jbTarget (v : VCh) (now_ : Nat) : Nat :=
  let ms (x : U16) : Nat := x.toNat * 1000000
  let young := match v.firstPktEl with
    | some f => decide (now_ < f + 2000000000)
    | none => true
  if v.cfg.jbAdapt = 0 ∨ young = true then ms v.cfg.jbInitMs else max (ms v.cfg.jbMinMs) (min (ms v.cfg.jbMaxMs) (v.q + 10000000))

/-- The jitter estimate after a transit. -/
def jbTransit (v : VCh) (now_ : Nat) (x : Int) : VCh :=
  let tr := within now_ 10000000000 ((now_, x) :: v.transits)
  let d := x - (minSnd tr).getD x
  { v with transits := tr, q := if (v.q : Int) < d then v.q + 990000 else v.q - 10000, firstPktEl := some (v.firstPktEl.getD now_) }

/-- Depths of the last second, D1 and the target as the record shows them. -/
def jbShow (v : VCh) (now_ : Nat) : VCh :=
  let ds := within now_ 1000000000 v.depths
  { v with depths := ds, jbTargetUs := jbTarget v now_ / 1000, jbDepthUs := ((minSnd ds).getD (v.jbDepthUs * 1000)) / 1000 }

/-- Insert a packet in order of its RTP time. -/
def insPkt (p : JbPkt) : List JbPkt → List JbPkt
  | [] => [p]
  | x :: t => if p.ext < x.ext then p :: x :: t else x :: insPkt p t

/-- The mapping is set so that a packet's depth is the target. -/
def mapAt (s : State) (now_ : Nat) (v : VCh) (ts : U32) (ext : Int) : JbClk :=
  ⟨ts, ext, some (latticeUp s ((now_ : Int) + (jbTarget v now_ : Int)) - ext * 125000)⟩

/-- Resynchronise: the buffer is flushed, and the next packet sets the mapping. -/
def jbFlush (v : VCh) : VCh := { v with jb := [], map := v.map.map (fun m => { m with off := none }), depths := [] }

/-- Depth of a packet under a mapping. -/
def jbDepth (m : JbClk) (ext : Int) (now_ : Nat) : Int := ext * 125000 + m.off.getD 0 - (now_ : Int)

/-- A packet that arrived at an elapsed instant enters the jitter buffer: the channel, and whether a resync was forced. -/
def jbEnter (s : State) (now_ : Nat) (v0 : VCh) (seq : U16) (ts : U32) (old : Bool) (pt : BitVec 7) (payload : Bytes) : VCh × Bool :=
  let ext := unwrapTs v0.map ts
  let v := jbTransit v0 now_ ((now_ : Int) - ext * 125000)
  let put (w : VCh) (m : JbClk) : VCh := { w with jb := insPkt ⟨seq, ext, old, pt, payload⟩ w.jb, map := some { m with ts, ext } }
  match v.map.filter (fun m => m.off.isSome) with
  | none =>
    let m := mapAt s now_ v ts ext
    (jbShow { put v m with depths := [(now_, jbDepth m ext now_)] } now_, false)
  | some m =>
    let d := jbDepth m ext now_
    if d < 0 then
      (jbShow ({ v with depths := (now_, d) :: v.depths, map := some { m with ts, ext } }.count 2 1) now_, false)
    else if ((v.cfg.jbMaxMs.toNat + 20) * 1000000 : Int) < d then
      let w := jbFlush v
      let m2 := mapAt s now_ v ts ext
      (jbShow ({ put w m2 with depths := [(now_, jbDepth m2 ext now_)] }.count 9 1) now_, true)
    else (jbShow { put v m with depths := (now_, d) :: v.depths } now_, false)

/-! ### Playout (R322, R323) -/

/-- Codec a packet is decoded with. -/
def pktCodec (v : VCh) (p : JbPkt) : Nat :=
  if p.old then (v.oldCodec.map (·.1)).getD v.cfg.codec.toNat else v.cfg.codec.toNat

/-- Units a packet covers: comfort noise runs to the next packet. -/
def pktUnits (v : VCh) (p : JbPkt) : Option Nat := if p.pt = 13 then none else some (payloadUnits (pktCodec v p) p.payload)

/-- The packet that covers a unit: the last that begins at or before it, where it reaches so far. -/
def covering (v : VCh) (u : Int) : Option JbPkt :=
  match (v.jb.filter (fun p => decide (p.ext ≤ u))).getLast? with
  | none => none
  | some p => match pktUnits v p with
    | none => some p
    | some n => if u < p.ext + (n : Int) then some p else none

/-- Samples of a unit of a packet; G.711 by octet, otherwise a draw's. -/
def unitSamples (v : VCh) (p : JbPkt) (u : Int) (d : Nat) : List U16 :=
  let k := (u - p.ext).toNat
  let n := perUnit v.cfg
  let c := pktCodec v p
  if p.pt = 13 then (List.range n).map (fun i => Config.signal d (k * n + i))
  else if c ≤ 1 ∧ n = 1 then [Config.g711Dec (decide (c = 1)) (lget p.payload k 0)]
  else fit n ((Config.decode c p.payload (d + p.seq.toNat)).drop (k * n))

/-- Play a run of units from a position, with one draw; concealed units count on, and the first 2 ms after a concealment are a cross-fade. -/
def playUnits (d : Nat) : Nat → Int → VCh → List U16 × Bool × VCh
  | 0, _, v => ([], false, v)
  | k + 1, u, v =>
    let n := perUnit v.cfg
    match covering v u with
    | some p =>
      let raw := unitSamples v p u d
      let join := if 0 < v.concealRun then 16 else v.joinLeft
      let here := if 0 < join then (List.range n).map (fun i => Config.signal (d + 1) (u.toNat * n + i)) else raw
      let v1 := { v with concealRun := 0, joinLeft := join - 1 }
      let (l, c, w) := playUnits d k (u + 1) v1
      (here ++ l, c, w)
    | none =>
      let run := v.concealRun
      let here := if 480 ≤ run then silence n else (List.range n).map (fun i => Config.signal (d + 1) (u.toNat * n + i))
      let v1 := ({ v with concealRun := run + 1 }).count 8 ((run + 1) / 8 - run / 8)
      let (l, _, w) := playUnits d k (u + 1) v1
      (here ++ l, true, w)

end Sys2Proof.Machine
end

