-- ==== Sys2Proof/Machine/VoiceBlockOps.lean ====
section
/-!
DEFINITION. What one lattice block does on a channel (R312, R318, R322 to R333, R341, R342).
-/

namespace Sys2Proof.Machine

/-! ### Receive audio -/

/-- Packets that have begun by a unit: how many sequence numbers were lost before each (R323). -/
def countLost (endU : Int) (v : VCh) : VCh :=
  v.jb.foldl (fun w p =>
    if endU ≤ p.ext ∨ p.seq ∈ w.played then w
    else
      let gap : Nat := match w.lastSeq with
        | none => 0
        | some q =>
          let g := (p.seq - q - 1).toNat
          if 32768 ≤ g then 0
          else g - ((w.played.filter (fun x => decide ((x - q - 1).toNat < g))).length)
      { w.count 3 gap with played := (p.seq :: w.played).take 128, lastSeq := some p.seq }) v

/-- Drop the packets that are played out: comfort noise when a later packet has begun. -/
def dropPlayed (endU : Int) (v : VCh) : VCh :=
  let begun := (v.jb.filter (fun p => decide (p.ext < endU))).getLast?.map (·.ext)
  { v with jb := v.jb.filter (fun p => match pktUnits v p with
      | some n => decide (endU < p.ext + (n : Int))
      | none => decide (begun = some p.ext ∨ endU ≤ p.ext)) }

/-- Move the mapping and the depths by 5 ms. -/
def shiftMap (by_ : Int) (v : VCh) : VCh :=
  { v with map := v.map.map (fun m => { m with off := m.off.map (fun o => o + by_) }), depths := v.depths.map (fun e => (e.1, e.2 + by_))
           jbDepthUs := v.jbDepthUs + by_ / 1000 }

/-- 5 ms have passed since the last change of a kind. -/
def spaced (last : Option Nat) (now_ ns : Nat) : Bool :=
  match last with
  | some t => decide (t + ns ≤ now_)
  | none => true

/-- The received signal of a block of an RTP leg: samples, and whether any are concealed. -/
def playBlock (start : Nat) (low : Bool) (d : Nat) (v : VCh) : List U16 × Bool × VCh :=
  match v.map.bind (fun m => m.off) with
  | none => playUnits d 80 0 { v with jb := [] }
  | some off =>
    let u0 := ((start : Int) - off) / 125000
    let target : Int := jbTarget v start
    let d1 := minSnd (within start 1000000000 v.depths)
    let early := match d1 with
      | some x => decide (x < target - 5000000)
      | none => false
    let deep := match d1 with
      | some x => decide (target + 5000000 < x)
      | none => false
    let (l, c, w, endU) : List U16 × Bool × VCh × Int :=
      if early && spaced v.lastInsEl start 20000000 then
        let (a, _, w1) := playUnits d 40 u0 { v with jb := [] }
        let w2 := { shiftMap 5000000 { w1 with jb := v.jb } with lastInsEl := some start }
        let (b, _, w3) := playUnits d 40 u0 w2
        (a ++ b, true, w3, u0 + 40)
      else
        let (a, c, w1) := playUnits d 80 u0 v
        let quiet := c || low || (match covering v u0 with
          | some p => decide (p.pt = 13)
          | none => true)
        if deep && quiet && spaced v.lastRemEl start 100000000 then
          let v2 := { shiftMap (-5000000) v with lastRemEl := some start }
          let (b, c2, w2) := playUnits d 80 (u0 + 40) v2
          (b, c2, w2, u0 + 120)
        else (a, c, w1, u0 + 80)
    (l, c, jbShow (dropPlayed endU (countLost endU w)) start)

/-! ### Announcements (R341, R342) -/

/-- A play begins. -/
def annStart (ch : Nat) (r : AnnReq) (tai : Nat) (s : State) : State :=
  let t := modCh ch (fun v => { v with play := some ⟨r, r.repeats, 0⟩, queue := v.queue.erase r }) s
  raise 0x0C0A 1 (BitVec.ofNat 8 r.ann :: leBytes 2 ch ++ leBytes 2 r.alarm ++ leBytes 8 tai) (chPart s ch)
    (bump 0x0C000110 { t with voc := { t.voc with anns := tmod t.voc.anns r.ann (fun a => { a with plays := sat1 a.plays }) } })

/-- The request a block may start: the first of the queue made at least 2 ms before it. -/
def annPick (ch start tai : Nat) (s : State) : State :=
  match getCh s ch with
  | none => s
  | some v =>
    match v.queue.find? (fun r => decide (r.reqEl + 2000000 ≤ start)) with
    | none => s
    | some r => match v.play with
      | none => annStart ch r tai s
      | some p =>
        if p.req.priority < r.priority then
          annStart ch r tai (bump 0x0C000120 (modCh ch (fun x => { x with play := none, queue := insHead p.req (x.queue.erase r) }) s))
        else s

/-- Octets of a play for up to n samples, over its repeats. -/
def annTake (data : Bytes) : Nat → Nat → AnnPlay → Bytes × Option AnnPlay
  | 0, _, p => ([], some p)
  | fuel + 1, n, p =>
    let part := (data.drop p.pos).take n
    if p.pos + part.length < data.length then (part, some { p with pos := p.pos + part.length })
    else if p.left ≤ 1 then (part, none)
    else
      let (r, q) := annTake data fuel (n - part.length) { p with left := p.left - 1, pos := 0 }
      (part ++ r, q)

/-- Samples of the announcement in a block, and its direction. -/
def annBlock (ch : Nat) (s : State) : List U16 × Nat × State :=
  match getCh s ch with
  | none => ([], 0, s)
  | some v => match v.play with
    | none => ([], 0, s)
    | some p => match tget s.voc.anns p.req.ann with
      | none => ([], 0, modCh ch (fun x => { x with play := none }) s)
      | some a =>
        let (o, q) := annTake a.data 4 80 p
        let t := modCh ch (fun x => { x with play := q }) s
        if wideband v.cfg then
          let (d, u) := fresh t
          (sig d (2 * o.length), p.req.dir, u)
        else (o.map (Config.g711Dec a.ulaw), p.req.dir, t)

/-! ### Generated tones (R333) -/

/-- One RTP unit (125 µs) of a generated tone: whether it sounds, and what is left; a profile runs for its cycles, which `digits` counts. -/
def genStep (s : State) (g : ToneGen) : Bool × Option ToneGen :=
  let on := decide (g.pos < 8 * g.onMs)
  let pos := g.pos + 1
  if pos < 8 * (g.onMs + g.offMs) then (on, some { g with pos })
  else match g.profile with
    | some k =>
      let cycles := (tget s.voc.profiles k).elim 1 (fun p => p.cycles)
      (on, if g.digits.length + 1 < cycles then some { g with pos := 0, digits := 0 :: g.digits } else none)
    | none => (on, match g.digits with
      | _ :: a :: t => some { g with pos := 0, digits := a :: t }
      | _ => none)

/-- Units of a generated tone: whether each sounds, as far as it plays, and what is left. -/
def genRun (s : State) : Nat → Option ToneGen → List Bool × Option ToneGen
  | 0, g => ([], g)
  | _ + 1, none => ([], none)
  | k + 1, some g =>
    let (on, r) := genStep s g
    let (l, q) := genRun s k r
    (on :: l, q)

/-- Put one signal over another, from the block's first sample. -/
def overlay (top base : List U16) : List U16 := top ++ base.drop top.length

/-- A generated tone replaces its direction's audio while it plays: tone in its on time, silence in its off time. -/
def genOver (s : State) (v : VCh) (packet : Bool) (d : Nat) (base : List U16) : List U16 :=
  match v.gen with
  | none => base
  | some g =>
    if g.packet ≠ packet then base
    else
      let n := perUnit v.cfg
      let l := (genRun s 80 (some g)).1
      overlay ((l.zipIdx.map (fun (on, i) => if on then (List.range n).map (fun j => Config.signal d (i * n + j)) else silence n)).flatten) base

/-! ### Sending (R318, R331, R334) -/

/-- Send one RTP packet of a channel. -/
def sendRtp (ch pt : Nat) (marker : Bool) (ts : U32) (payload : Bytes) (s : State) : State :=
  match getCh s ch with
  | none => s
  | some v =>
    if v.canSend = false then s
    else
      let head := [(0x80 : Byte), BitVec.ofNat 8 (pt + if marker then 128 else 0)] ++ beBytes 2 v.seqTx.toNat ++ beBytes 4 ts.toNat ++
        beBytes 4 v.ssrcTx.toNat
      let body := match v.keyTx with
        | some k => if v.cfg.srtp then Config.srtp k.suite k.key k.salt v.pktIdxTx (head ++ payload) else head ++ payload
        | none => head ++ payload
      let v1 := { v.count 1 1 with seqTx := v.seqTx + 1, pktIdxTx := v.pktIdxTx + 1 }
      sendVoice false (.rtp ch) v1 body (setCh ch v1 s)

/-- Gather a block, and send the packet when its blocks are there. -/
def sendBlock (ch : Nat) (pcm : List U16) (s : State) : State :=
  match getCh s ch with
  | none => s
  | some v =>
    let g := v.gather ++ [pcm]
    let n := v.cfg.ptime.toNat
    if g.length < n then setCh ch { v with gather := g, tsTx := v.tsTx + 80 } s
    else
      let c := v.cfg.codec.toNat
      let (payload, t) : Bytes × State :=
        if c ≤ 1 then (g.flatten.map (Config.g711Enc (decide (c = 1))), s)
        else
          let (d, u) := fresh s
          ((g.zipIdx.map (fun (b, i) => Config.encode c b (d + i))).flatten, u)
      let ts := v.tsTx - BitVec.ofNat 32 (80 * (n - 1))
      sendRtp ch (codecPt c v.cfg.pt) v.marker ts payload
        (setCh ch { v with gather := [], tsTx := v.tsTx + 80, marker := v.marker && !v.canSend } t)

/-- Payload of a telephone event (RFC 4733). -/
def eventPayload (e : TelEvent) (end_ : Bool) (dur : Nat) : Bytes :=
  [BitVec.ofNat 8 e.event, BitVec.ofNat 8 (min e.volume 63 + if end_ then 128 else 0)] ++ beBytes 2 (min dur 65535)

/-- Service the event a channel sends, at a block. -/
def eventBlock (ch start : Nat) (s : State) : State :=
  match getCh s ch with
  | none => s
  | some v => match v.telTx with
    | none => s
    | some e =>
      let pt := v.cfg.evPt.toNat
      if 0 < e.ends then
        let left := if e.ends = 1 then none else some { e with ends := e.ends - 1, begun := true, lastEl := start }
        sendRtp ch pt (!e.begun) e.ts (eventPayload e true e.dur) (setCh ch { v with telTx := left } s)
      else
        let dur := e.dur + 80
        if 65535 < dur then
          sendRtp ch pt (!e.begun) e.ts (eventPayload e false 65535)
            (setCh ch { v with telTx := some { e with ts := e.ts + 65535, dur := dur - 65535, begun := true, lastEl := start } } s)
        else if e.begun = false ∨ e.lastEl + 50000000 ≤ start then
          sendRtp ch pt (!e.begun) e.ts (eventPayload e false dur)
            (setCh ch { v with telTx := some { e with dur, begun := true, lastEl := start } } s)
        else setCh ch { v with telTx := some { e with dur } } s

/-- Write a block to a host ring, or skip it (R324). -/
def hostOut (ch leg : Nat) (concealed : Bool) (tai : Nat) (pcm : List U16) (s : State) : State :=
  match getCh s ch with
  | none => s
  | some v =>
    let ring := if leg = 0 then v.cfg.lineOut else v.cfg.pktOut
    let gap := if leg = 0 then v.gapLine else v.gapPkt
    let mark (g : Bool) (x : VCh) : VCh := if leg = 0 then { x with gapLine := g } else { x with gapPkt := g }
    match ringWrite v.part ring.toNat .voice (hostBlock ch leg concealed gap tai pcm) s with
    | some t => modCh ch (mark false) t
    | none => modCh ch (fun x => (mark true x).count 15 1) s

/-! ### Tones -/

def toneKindNum : ToneKind → Nat
  | .dtmf => 0
  | .callProgress => 1
  | .ans => 2
  | .ansam => 3
  | .phaseReversal => 4
  | .v21 => 5

/-- Write a tone record (Table 12.7). -/
def toneRecord (ch : Nat) (send : Bool) (kind value level source : Nat) (end_ : Bool) (start durUs : Nat) (s : State) : State :=
  match getCh s ch with
  | none => s
  | some v => match s.voc.toneRing.get v.part with
    | none => s
    | some n =>
      let data := leBytes 2 ch ++ [if send then 1 else 0, BitVec.ofNat 8 kind, BitVec.ofNat 8 value, BitVec.ofNat 8 level,
        BitVec.ofNat 8 source, if end_ then 1 else 0] ++ leBytes 8 start ++ leBytes 4 durUs ++ List.replicate 12 0
      match ringWrite v.part n .tone data s with
      | some t => t
      | none => bump 0x0C000128 s

/-- A canceller runs on the channel. -/
def ecOn (v : VCh) : Bool := decide (v.cfg.lineKind ≠ 0) && v.cfg.ec.getLsbD 0

/-- The tone_mask bit of a tone (R327). -/
def maskBit (e : ToneEv) : Nat :=
  match e.kind, e.send with
  | .dtmf, true => 0
  | .dtmf, false => 1
  | .callProgress, true => 2
  | .callProgress, false => 3
  | _, _ => 4

/-- The event of a tone of the send signal (R331). -/
def eventOf (v : VCh) (e : ToneEv) : Option Nat :=
  if e.send = false ∨ v.cfg.dtmfMode = 0 ∨ v.cfg.evPt = 0 ∨ v.cfg.pktKind ≠ 1 then none
  else match e.kind with
    | .dtmf => if v.cfg.toneMask.getLsbD 0 then some e.value.toNat else none
    | .ans => if v.cfg.toneMask.getLsbD 4 then some 32 else none
    | .ansam => if v.cfg.toneMask.getLsbD 4 then some 34 else none
    | .phaseReversal =>
      if v.cfg.toneMask.getLsbD 4 then some (if (v.telTx.map (·.event)) = some 34 ∨ (v.telTx.map (·.event)) = some 35 then 35 else 33) else none
    | _ => none

/-- A tone may be detected where it stands: a profile that is set (R328), a direction that generates none (R333), and an end only of a tone that
has begun. -/
def toneSeen (s : State) (v : VCh) (e : ToneEv) : Bool :=
  if e.end_ then v.tones.any (fun x => x.is e)
  else !v.tones.any (fun x => x.is e) &&
    (match e.kind with
     | .dtmf => decide (e.value.toNat < 16)
     | .callProgress => (tget s.voc.profiles e.value.toNat).isSome
     | _ => true) &&
    (match v.gen with
     | some g => decide (g.packet ≠ e.send)
     | none => true)

/-- A tone's start or end on an ACTIVE channel: the canceller (Table 12.5), the record and the event. -/
def toneStep (start tai : Nat) (e : ToneEv) (s0 : State) : State :=
  let ch := e.channel.toNat
  match getCh s0 ch with
  | none => s0
  | some v =>
    if v.state ≠ .active ∨ toneSeen s0 v e = false then s0
    else
      let back := e.units.toNat * 125000
      let old := (v.tones.find? (fun x => x.is e)).getD ⟨e.send, e.kind, e.value, tai - back, start - back⟩
      let s := modCh ch (fun x => { x with tones := if e.end_ then x.tones.erase old else old :: x.tones }) s0
      let durNs := start - back - old.startEl
      let dir : Byte := if e.send then 1 else 0
      let s1 :=
        if ecOn v = false ∨ e.end_ then s
        else match e.kind, v.ecState with
          | .ans, .enabled => chEvt 0x0C03 1 ch [0, dir] (modCh ch (fun x => { x with ecState := .nlpOff }) s)
          | .ansam, .enabled => chEvt 0x0C03 1 ch [0, dir] (modCh ch (fun x => { x with ecState := .nlpOff }) s)
          | .phaseReversal, .enabled => chEvt 0x0C03 1 ch [1, dir] (modCh ch (fun x => { x with ecState := .disabled }) s)
          | .phaseReversal, .nlpOff => chEvt 0x0C03 1 ch [1, dir] (modCh ch (fun x => { x with ecState := .disabled }) s)
          | _, _ => s
      let s2 := if v.cfg.toneMask.getLsbD (maskBit e) then
          toneRecord ch e.send (toneKindNum e.kind) e.value.toNat e.level.toNat 0 e.end_ old.startNs (if e.end_ then durNs / 1000 else 0) s1
        else s1
      match eventOf v e with
      | none => s2
      | some k =>
        let mute := decide (e.kind = .dtmf ∧ v.cfg.dtmfMode = 1)
        if e.end_ then
          modCh ch (fun x => { x with
            telTx := x.telTx.map (fun t => { t with ends := 3, dur := min 65535 (x.tsTx - BitVec.ofNat 32 e.units.toNat - t.ts).toInt.toNat })
            dtmfOn := if mute then false else x.dtmfOn
            muteUntilEl := if mute then some (start - back + 20000000) else x.muteUntilEl }) s2
        else
          modCh ch (fun x => { x with
            telTx := some { event := k, begun := false, volume := e.level.toNat, ts := x.tsTx - BitVec.ofNat 32 e.units.toNat, dur := e.units.toNat, ends := 0
                            lastEl := start, startNs := old.startNs }
            dtmfOn := mute || x.dtmfOn }) s2

/-! ### A block of a channel -/

/-- Take from a FIFO of host blocks, or silence with HOST_UNDERRUN. -/
def popHost (pkt : Bool) (v : VCh) : List U16 × VCh :=
  match if pkt then v.pktFifo else v.lineFifo with
  | b :: t => (b, if pkt then { v with pktFifo := t } else { v with lineFifo := t })
  | [] => (silence (blockSamples v.cfg), v.count 13 1)

/-- Octets of the line toward a block's samples (R315): what is missing repeats the last octet. -/
def lineBlock (v : VCh) (d : Nat) : List U16 × VCh :=
  let o := v.lineIn.take 80 ++ List.replicate (80 - v.lineIn.length) v.lineLast
  let w := { v with lineIn := v.lineIn.drop 80 }
  (if v.cfg.law = 2 then fit 160 (Config.decode 4 o d) else o.map (Config.g711Dec (decide (v.cfg.law = 1))), w)

/-- The canceller's output (R325): the signal itself where nothing can act on it. -/
def ecBlock (v : VCh) (d : Nat) (pcm : List U16) : List U16 × VCh :=
  if ecOn v = false ∨ v.ecState = .disabled ∨ v.ecState = .hostOff then (pcm, v)
  else
    let bare := decide (v.ecState = .nlpOff) || !v.cfg.ec.getLsbD 1
    let w := { v with ecZero := v.ecZero && v.ecFrozen }
    if v.ecZero && v.ecFrozen && bare then (pcm, w)
    else (sig d pcm.length, { w with erl := Config.signal (d + 1) 0, erle := Config.signal (d + 1) 1, ecDelayUs := (Config.signal (d + 1) 2).toNat })

/-- The receive signal and where it goes (R311). -/
def receive (ch start tai : Nat) (low : Bool) (ann : List U16) (annDir : Nat) (s : State) : State :=
  match getCh s ch with
  | none => s
  | some v =>
    let n := blockSamples v.cfg
    let (d, s1) := fresh s
    let (base, con, w) : List U16 × Bool × VCh := match v.cfg.pktKind.toNat with
      | 0 => (silence n, false, v)
      | 1 => playBlock start low d v
      | _ => let (b, x) := popHost true v; (b, false, x)
    let digit := match w.telRx with
      | some e => decide (e.ends = 0 ∧ e.event ≤ 15)
      | none => false
    let (d2, s2) := fresh s1
    let a0 := if digit then sig d2 n else base
    let a1 := genOver s2 w false d2 a0
    let out := if annDir = 0 ∨ annDir = 2 then overlay ann a1 else a1
    let s3 := setCh ch { w with blocks := ⟨tai, start, out, []⟩ :: w.blocks.take 63 } s2
    match w.cfg.lineKind.toNat with
    | 1 =>
      let (d3, s4) := fresh s3
      let o := if w.cfg.law = 2 then Config.encode 4 out d3 else out.map (Config.g711Enc (decide (w.cfg.law = 1)))
      modCh ch (fun x => { x with lineOut := (x.lineOut ++ o.take 80) }) s4
    | 2 => hostOut ch 0 con tai out s3
    | _ => s3

/-- The send signal and where it goes. -/
def sendDir (ch start tai : Nat) (ann : List U16) (annDir : Nat) (s : State) : State :=
  match getCh s ch with
  | none => s
  | some v =>
    let n := blockSamples v.cfg
    let (d, s1) := fresh s
    let (base, w) : List U16 × VCh := match v.cfg.lineKind.toNat with
      | 0 => (silence n, v)
      | 1 => lineBlock v d
      | _ => popHost false v
    let (d2, s2) := fresh s1
    let (clean, w2) := ecBlock w d2 base
    let muted : Nat := if w2.dtmfOn then n else min n (((w2.muteUntilEl.getD 0 - start) * n + 9999999) / 10000000)
    let (d3, s3) := fresh s2
    let a1 := genOver s3 w2 true d3 (overlay (silence muted) clean)
    let out := if (annDir = 1 ∨ annDir = 2) ∧ ann ≠ [] then overlay ann a1 else a1
    let s4 := setCh ch { w2 with blocks := match w2.blocks with
        | b :: t => { b with send := clean } :: t
        | [] => [] } s3
    match w2.cfg.pktKind.toNat with
    | 1 => sendBlock ch out (eventBlock ch start s4)
    | 2 => hostOut ch 1 false tai out s4
    | _ => s4

/-- A generated tone moves on by a block. -/
def genBlock (ch : Nat) (s : State) : State :=
  match getCh s ch with
  | none => s
  | some v => match v.gen with
    | none => s
    | some g => setCh ch { v with gen := (genRun s 80 (some g)).2 } s

/-- One block of an ACTIVE channel. -/
def chanBlock (ch start tai : Nat) (low : Bool) (s : State) : State :=
  let (ann, dir, s1) := annBlock ch (annPick ch start tai s)
  let a := if ann = [] then 3 else dir
  genBlock ch (sendDir ch start tai ann a (receive ch start tai low ann a s1))

/-- A channel in CLOSING is FREE when its block has ended (Table 12.8). -/
def freeClosing (s : State) : State :=
  s.voc.chans.foldl (fun t e =>
    if e.2.state = .closing ∧ e.2.closeEl ≤ blockStartEl s then
      let t1 := chState e.1 3 0 0 t
      unplace 3 e.1 { t1 with voc := { t1.voc with chans := tdel t1.voc.chans e.1 } }
    else t) s

end Sys2Proof.Machine
end

