-- ==== Sys2Proof/Machine/Voice.lean ====
section
/-!
DEFINITION. The commands and events of the voice subsystem (group 0x0C, 12_voice.md), and the TDM frame of 05_stream_ingest.md.
-/

namespace Sys2Proof.Machine

/-! ### Highways -/

/-- How long until a highway's first frame (R314), in ns, for a clock that starts now or runs already. -/
def firstFrame (s : State) : Nat :=
  match s.voc.clkEl with
  | some f => (((f : Int) - (elNs s : Int)).emod 125000).toNat
  | none => if s.clk.timeValid then (taiNs s + 124999) / 125000 * 125000 - taiNs s else 0

/-- VOICE_TDM_CONFIG (R314, R315). -/
def execVoiceTdmConfig (h : Hdr) (p : VoiceTdmConfigP) (s : State) : Out :=
  let n := p.highway.toNat
  .next (vci (cmd 0x0C01 .control false 4) h (fun _ => decide (n < 8 ∧ p.enable.toNat < 2 ∧ p.drive.toNat < 2 ∧ p.idleLaw.toNat < 2))
    (fun t =>
      let was := t.voc.hwEn.getLsbD n
      let on := decide (p.enable = 1)
      let used := t.voc.chans.any (fun e => decide (e.2.cfg.lineKind = 1 ∧ e.2.state ≠ .closing ∧ e.2.cfg.highway.toNat = n))
      if was ∧ on = false ∧ used then refuse .busy t
      else
        let put (b : BitVec 8) (v : Bool) : BitVec 8 := if v then b ||| (1#8 <<< n) else b &&& ~~~(1#8 <<< n)
        let en := put t.voc.hwEn on
        let fs := firstFrame t
        let el := elNs t + fs
        let hw := if on ∧ was = false then { getHw t n with fsStartTs := taiNs t + fs
                                                            fsOffset := if t.voc.chans = [] then 0 else fsOffsetOf (some el) t.voc.originEl }
          else if on then getHw t n else { getHw t n with tx := [] }
        done { t with voc := { t.voc with hwEn := en, drive := put t.voc.drive (decide (p.drive = 1))
                                          idleLaw := put t.voc.idleLaw (decide (p.idleLaw = 1)), highways := tset t.voc.highways n hw
                                          clkEl := if en = 0 then none else some (t.voc.clkEl.getD el) } }) s)

/-- What a timeslot is driven with (R315), and the channel's octet taken. -/
def driveSlot (s : State) (n t : Nat) : Option Byte × Option Nat :=
  let idle := idleOctet (s.voc.idleLaw.getLsbD n)
  match slotHolder s n t with
  | none => (if s.voc.drive.getLsbD n then some idle else none, none)
  | some (c, v) =>
    if v.state = .active then
      match v.lineOut with
      | o :: _ => (some o, some c)
      | [] => (some idle, none)
    else (some idle, none)

/-- One received octet of a channel's timeslot (R316). -/
def takeOctet (f : TdmIn) (full : Bool) (c : Nat) (v : VCh) (s : State) : State :=
  let t := v.cfg.timeslot.toNat
  let bad := full || decide (t ∈ f.poisoned)
  let o := if bad then v.lineLast else lget f.octets t v.lineLast
  let keep (b : Bytes) : Bytes := b.drop (b.length - 320)
  let w := { v with lineIn := if v.state = .active then keep (v.lineIn ++ [o]) else [], lineLast := o }
  if bad then bump (0x0C010048 + f.highway.toNat * 0x100) (setCh c (w.count 12 1) s) else setCh c w s

/-- A frame of one highway: 16 words of a queue of 512, whose writer's view overstates what waits by up to 3 words, a free value (R132, R133,
R138). -/
def tdmOne (f : TdmIn) (s0 : State) : State :=
  let n := f.highway.toNat
  if s0.voc.hwEn.getLsbD n = false then s0
  else
    let (x, s) := fresh s0
    let full := decide (512 < f.waiting.toNat + x % 4 + 16)
    let driven := (List.range 128).map (fun t => (t, driveSlot s n t))
    let tx : Tbl Byte := driven.filterMap (fun (t, o, _) => o.map (fun b => (t, b)))
    let s1 := driven.foldl (fun t e => match e.2.2 with
      | some c => modCh c (fun v => { v with lineOut := v.lineOut.drop 1 }) t
      | none => t) s
    let s2 := { s1 with voc := { s1.voc with highways := tset s1.voc.highways n { getHw s1 n with tx } } }
    let s3 := if full then bump 0x05000140 s2 else bump (0x0C010040 + n * 0x100) s2
    let words := (f.poisoned.filter (fun i => decide (i < 128))).foldl (fun (l : List Nat) i => if i / 8 ∈ l then l else i / 8 :: l) []
    let s4 := if full ∨ words = [] then s3
      else
        let u := bumpBy 0x05000138 words.length s3
        let w := getHw u n
        if spaced w.lastPoisonEvtEl (elNs u) 1000000000 then
          raise 0x050C 2 ([2, BitVec.ofNat 8 n] ++ leBytes 8 (cntGet u 0x05000138)) none
            { u with voc := { u.voc with highways := tset u.voc.highways n { w with lastPoisonEvtEl := some (elNs u) } } }
        else u
    s4.voc.chans.foldl (fun t e =>
      if decide (e.2.cfg.lineKind = (1 : U8) ∧ e.2.state ≠ .closing ∧ e.2.cfg.highway.toNat = n) then
        (match getCh t e.1 with
        | some v => takeOctet f full e.1 v t
        | none => t)
      else t) s4

/-- TDM_FRAME (R313, R315, R316, R138). -/
def execTdmFrame (f : List TdmIn) (s : State) : Out := .next (f.foldl (fun t x => tdmOne x t) s)

/-! ### Channels -/

/-- A new channel. -/
def newCh (s : State) (p : HP) (c : VoiceCfg) (r1 r2 : Nat) : VCh :=
  { state := if c.start then .active else .idle, part := p, slots := codecSlots c, cfg := c
    ecState := if c.ec.getLsbD 0 then .enabled else .hostOff, ecFrozen := false, ecZero := true, erl := 0, erle := 0, ecDelayUs := 0
    ssrcTx := BitVec.ofNat 32 r1, ssrcRx := none, seqTx := BitVec.ofNat 16 r2, tsTx := BitVec.ofNat 32 (r2 / 65536), marker := true, gather := []
    latched := false, rocRx := 0, hiSeqRx := none, replay := 0, pktIdxTx := r2 % 65536
    keyTx := none, keyRx := none, keyRxPrev := none, keyGenTx := 0, keyGenRx := 0, oldCodec := none, jb := [], transits := [], q := 0
    firstPktEl := none, depths := [], map := none, played := [], lastSeq := none, concealRun := 0, joinLeft := 0, lastInsEl := none
    lastRemEl := none, jbTargetUs := c.jbInitMs.toNat * 1000, jbDepthUs := 0, openEl := elNs s, cnt := List.replicate 16 0
    openTs := taiNs s, lastRxTs := 0, lastRxEl := elNs s, mediaLost := false, rrFraction := 0, lineFifo := [], pktFifo := [], lineIn := []
    lineLast := idleOctet (decide (c.law = 1)), lineOut := [], gapLine := false, gapPkt := false, play := none, queue := [], gen := none
    telTx := none, telRx := none, tones := [], dtmfOn := false, muteUntilEl := none, lastAuthEvtEl := none
    nextRtcpEl := elNs s + 2500000000 + r2 / 2 ^ 48 % 5000000001, closeEl := 0, blocks := [] }

/-- A timeslot held by another channel. -/
def slotBusy (s : State) (own : Option Nat) (c : VoiceCfg) : Bool :=
  decide (c.lineKind = 1) && (match slotHolder s c.highway.toNat c.timeslot.toNat with
    | some (n, _) => decide (some n ≠ own)
    | none => false)

/-- VOICE_CH_OPEN (R309, R310, R338, R339, R344). -/
def execVoiceChOpen (h : Hdr) (p : VoiceCfg) (s : State) : Out :=
  .next (vci (cmd 0x0C02 .openC true 56) h
    (fun t => voiceCfgOk p && voiceRingsOk t h.part p && !voicePortTaken t 1024 p)
    (fun t =>
      if slotBusy t none p then refuse .busy t
      else match tfreeFrom t.voc.chans 1024 0, victimsFor t h.part none (codecSlots p) p with
        | some n, some vs =>
          let t1 := startLattice (preempt n p.priority vs t)
          let (r1, t2) := fresh t1
          let (r2, t3) := fresh t2
          let v := newCh t3 h.part p r1 r2
          let t4 := (cfgRings p).foldl (fun u r => bindRing h.part r .voice u) (placeNew 3 n (setCh n v t3))
          doneWith (leBytes 2 n ++ [BitVec.ofNat 8 v.slots, 0] ++ leBytes 4 v.ssrcTx.toNat ++ victimBytes vs) (chState n 0 v.state.num 0 t4)
        | _, _ => refuse .noResource t) s)

/-- A channel, not FREE, that the partition may name (R52). -/
def chNamed (t : State) (h : Hdr) (c : U16) : Bool :=
  match getCh t c.toNat with
  | some v => mayName t h.part v.part
  | none => false

/-- What VOICE-CH-MODIFY may not change. -/
def sameLegs (a b : VoiceCfg) : Bool :=
  decide (a.lineKind = b.lineKind ∧ a.pktKind = b.pktKind ∧ a.highway = b.highway ∧ a.timeslot = b.timeslot ∧ a.target = b.target ∧
    a.lineIn = b.lineIn ∧ a.lineOut = b.lineOut ∧ a.pktIn = b.pktIn ∧ a.pktOut = b.pktOut ∧ a.localPort = b.localPort)

/-- The canceller after a modify (Table 12.5): no direction is at fault, and the event's dir is a free value. -/
def ecModify (ch : Nat) (v : VCh) (c : VoiceCfg) (s : State) : State :=
  let on := c.ec.getLsbD 0
  if on = v.cfg.ec.getLsbD 0 then s
  else if on then chEvt 0x0C04 0 ch [] (modCh ch (fun x => { x with ecState := .enabled, ecZero := true }) s)
  else
    let (d, t) := fresh s
    chEvt 0x0C03 1 ch [2, BitVec.ofNat 8 d] (modCh ch (fun x => { x with ecState := .hostOff }) t)

/-- A channel under a new configuration (R318, R319). -/
def recfg (s : State) (v : VCh) (c : VoiceCfg) : VCh :=
  let codecNew := decide (c.codec ≠ v.cfg.codec ∨ c.pt ≠ v.cfg.pt)
  { v with cfg := c, slots := codecSlots c
           marker := v.marker || codecNew
           oldCodec := if codecNew then some (v.cfg.codec.toNat, codecPt v.cfg.codec.toNat v.cfg.pt, elNs s + 100000000) else v.oldCodec
           jb := if codecNew then v.jb.map (fun x => { x with old := true }) else v.jb
           gather := if codecNew ∨ c.ptime ≠ v.cfg.ptime then [] else v.gather
           latched := v.latched && v.cfg.latch && decide (c.remotePort = v.cfg.remotePort ∧ c.remoteAddr = v.cfg.remoteAddr) }

/-- VOICE_CH_MODIFY (R339, R344). -/
def execVoiceChModify (h : Hdr) (p : VoiceModifyP) (s : State) : Out :=
  let n := p.channel.toNat
  .next (vci (cmd 0x0C03 .openC false 60) h
    (fun t => decide (p.rsv = 0) && chNamed t h p.channel && voiceCfgOk p.cfg && (match getCh t n with
      | some v => sameLegs v.cfg p.cfg && !voicePortTaken t n p.cfg
      | none => false))
    (fun t => match getCh t n with
      | none => refuse .badParam t
      | some v =>
        if v.state = .closing then refuse .busy t
        else match (if codecSlots p.cfg ≤ v.slots then some [] else victimsFor t v.part (some n) (codecSlots p.cfg - v.slots) p.cfg) with
          | none => refuse .noResource t
          | some vs =>
            let t1 := preempt n p.cfg.priority vs t
            doneWith (victimBytes vs) (ecModify n v p.cfg (modCh n (fun x => recfg t1 x p.cfg) t1))) s)

/-- A command on a channel that is not FREE or CLOSING. -/
def chCmd (op : Nat) (u : Bool) (h : Hdr) (p : VoiceChP) (act : Nat → VCh → State → Rep) (s : State) : State :=
  let n := p.channel.toNat
  vci (cmd op .openC u 4) h (fun t => decide (p.rsv = 0) && chNamed t h p.channel)
    (fun t => match getCh t n with
      | none => refuse .badParam t
      | some v => if v.state = .closing then refuse .busy t else act n v t) s

/-- VOICE_CH_START (Table 12.8). -/
def execVoiceChStart (h : Hdr) (p : VoiceChP) (s : State) : Out :=
  .next (chCmd 0x0C04 true h p (fun n v t =>
    if v.state ≠ .idle then refuse .busy t
    else
      let v1 := { v with state := .active, jb := [], map := none, depths := [], marker := true, transits := [], q := 0, firstPktEl := none
                         played := [], lastSeq := none, gather := [], lastRxEl := elNs t, mediaLost := false }
      done (chState n 1 2 0 (setCh n v1 t))) s)

/-- VOICE_CH_STOP (Table 12.8). -/
def execVoiceChStop (h : Hdr) (p : VoiceChP) (s : State) : Out :=
  .next (chCmd 0x0C04 true h p (fun n v t =>
    if v.state ≠ .active then refuse .busy t
    else
      let t1 := skipQueue n 0 t
      let t2 := modCh n (fun x => { jbFlush x with state := .idle, play := none, gen := none, telTx := none, telRx := none, tones := []
                                                   dtmfOn := false, muteUntilEl := none, lineIn := [], lineOut := [], gather := [] }) t1
      done (chState n 2 1 0 t2)) s)

/-- EC_RESET (R325). -/
def execEcReset (h : Hdr) (p : VoiceChP) (s : State) : Out :=
  .next (chCmd 0x0C04 true h p (fun n _ t => done (modCh n (fun x => { x with ecZero := true }) t)) s)

/-- EC_FREEZE (R325). -/
def execEcFreeze (h : Hdr) (p : VoiceChP) (s : State) : Out :=
  .next (chCmd 0x0C04 true h p (fun n _ t => done (modCh n (fun x => { x with ecFrozen := true }) t)) s)

/-- EC_UNFREEZE (R325). -/
def execEcUnfreeze (h : Hdr) (p : VoiceChP) (s : State) : Out :=
  .next (chCmd 0x0C04 true h p (fun n _ t => done (modCh n (fun x => { x with ecFrozen := false }) t)) s)

/-- VOICE-JB-RESYNC. -/
def resyncEvt (ch : Nat) (s : State) : State :=
  chEvt 0x0C05 1 ch (leBytes 2 ((getCh s ch).elim 0 (fun v => jbTarget v (elNs s) / 1000000))) s

/-- JITTER_RESYNC (R322). -/
def execJitterResync (h : Hdr) (p : VoiceChP) (s : State) : Out :=
  .next (chCmd 0x0C04 true h p (fun n _ t => done (resyncEvt n (modCh n (fun x => (jbFlush x).count 9 1) t))) s)

/-- ANNOUNCEMENT_STOP (R342): every skip is told, the playing one among them. -/
def execAnnouncementStop (h : Hdr) (p : VoiceChP) (s : State) : Out :=
  .next (chCmd 0x0C04 true h p (fun n v t =>
    let t1 := match v.play with
      | some y => annSkip y.req.ann n 4 (modCh n (fun x => { x with play := none }) t)
      | none => t
    done (skipQueue n 4 t1)) s)

/-- VOICE_CH_CLOSE (R338). -/
def execVoiceChClose (h : Hdr) (p : VoiceChP) (s : State) : Out :=
  .next (chCmd 0x0C05 true h p (fun n _ t => done (closeCh n 0 t)) s)

/-- VOICE_SRTP_KEY (R335). -/
def execVoiceSrtpKey (h : Hdr) (p : VoiceSrtpKeyP) (s : State) : Out :=
  let n := p.channel.toNat
  .next (vci (cmd 0x0C06 .openC false 44) h
    (fun t => decide (p.rsv = 0 ∧ p.dir.toNat < 2 ∧ p.suite.toNat < 2 ∧ p.fromIndex.toNat < 2 ^ 48 ∧ (p.dir = 0 → p.fromIndex = 0)) &&
      chNamed t h p.channel)
    (fun t => match getCh t n with
      | none => refuse .badParam t
      | some v =>
        if v.state = .closing then refuse .busy t
        else
          let k : SrtpKey := ⟨p.suite.toNat, p.key, p.salt, p.fromIndex.toNat⟩
          if p.dir = 0 then doneWith (leBytes 2 (v.keyGenTx + 1).toNat) (setCh n { v with keyTx := some k, keyGenTx := v.keyGenTx + 1 } t)
          else doneWith (leBytes 2 (v.keyGenRx + 1).toNat)
            (setCh n { v with keyRx := some k, keyRxPrev := v.keyRx, keyGenRx := v.keyGenRx + 1 } t)) s)

/-! ### Tones -/

/-- VOICE_TONE_PROFILE (R328). -/
def execVoiceToneProfile (h : Hdr) (p : VoiceToneProfileP) (s : State) : Out :=
  let hz (x : U16) : Bool := decide (200 ≤ x.toNat ∧ x.toNat ≤ 3400)
  let ms (x : U16) : Bool := decide (50 ≤ x.toNat ∧ x.toNat ≤ 5000)
  .next (vci (cmd 0x0C07 .control false 12) h
    (fun _ => decide (p.profile.toNat < 8 ∧ 10 ≤ p.minLevel.toNat ∧ p.minLevel.toNat ≤ 50 ∧ 1 ≤ p.cycles.toNat ∧ p.cycles.toNat ≤ 8 ∧
      p.rsv = 0) && hz p.f1Hz && (decide (p.f2Hz = 0) || hz p.f2Hz) && ms p.onMs && (decide (p.offMs = 0) || ms p.offMs))
    (fun t =>
      let x : ToneProfile := { minLevel := p.minLevel.toNat, f1Hz := p.f1Hz.toNat, f2Hz := p.f2Hz.toNat, onMs := p.onMs.toNat
                               offMs := p.offMs.toNat, cycles := p.cycles.toNat }
      done { t with voc := { t.voc with profiles := tset t.voc.profiles p.profile.toNat x } }) s)

/-- VOICE_TONE_BIND (R330): a second bind waits for the unbind. -/
def execVoiceToneBind (h : Hdr) (p : RingBindP) (s : State) : Out :=
  .next (vci (cmd 0x0C08 .openC false 4) h
    (fun t => decide (p.rsv = 0) && (decide (p.ring = 0xFF) || decide (t.voc.toneRing.get h.part = some p.ring.toNat) || ringFree t h.part p.ring.toNat false))
    (fun t => match t.voc.toneRing.get h.part with
      | some n =>
        if p.ring = 0xFF then done (unbindRing h.part n .tone { t with voc := { t.voc with toneRing := t.voc.toneRing.set h.part none } })
        else refuse .busy t
      | none =>
        if p.ring = 0xFF then done t
        else done (bindRing h.part p.ring.toNat .tone
          { t with voc := { t.voc with toneRing := t.voc.toneRing.set h.part (some p.ring.toNat) } })) s)

/-- ASCII of a DTMF digit. -/
def dtmfChar (b : Byte) : Bool :=
  decide ((0x30 ≤ b.toNat ∧ b.toNat ≤ 0x39) ∨ b = 0x2A ∨ b = 0x23 ∨ (0x41 ≤ b.toNat ∧ b.toNat ≤ 0x44))

/-- VOICE_TONE_GEN (R333): a tone in progress is replaced. -/
def execVoiceToneGen (h : Hdr) (p : VoiceToneGenP) (s : State) : Out :=
  let n := p.channel.toNat
  .next (vci (cmd 0x0C09 .openC true (12 + p.digits.length)) h
    (fun t => decide (p.rsv = 0 ∧ p.dir.toNat < 2 ∧ p.kind.toNat < 2 ∧ p.level.toNat ≤ 30 ∧ 40 ≤ p.onMs.toNat ∧ p.onMs.toNat ≤ 1000 ∧
        40 ≤ p.offMs.toNat ∧ p.offMs.toNat ≤ 1000 ∧ p.n.toNat = p.digits.length) &&
      (if p.kind = 0 then decide (1 ≤ p.n.toNat ∧ p.n.toNat ≤ 32 ∧ p.profile = 0) && p.digits.all dtmfChar
       else decide (p.n = 0 ∧ p.profile.toNat < 8)) && chNamed t h p.channel)
    (fun t => match getCh t n with
      | none => refuse .badParam t
      | some v =>
        if v.state ≠ .active then refuse .busy t
        else done (setCh n { v with gen := some { packet := decide (p.dir = 1), digits := p.digits, level := p.level.toNat
                                                  profile := if p.kind = 1 then some p.profile.toNat else none
                                                  onMs := p.onMs.toNat, offMs := p.offMs.toNat, pos := 0 } } t)) s)

/-! ### Announcements -/

/-- An announcement is playing or queued. -/
def annInUse (s : State) (a : Nat) : Bool :=
  s.voc.chans.any (fun e => (match e.2.play with
    | some y => decide (y.req.ann = a)
    | none => false) || e.2.queue.any (fun r => decide (r.ann = a)))

/-- Bytes of the store in use. -/
def annBytes (s : State) : Nat := s.voc.anns.foldl (fun n e => n + e.2.bytes) 0

/-- VOICE_ANN_LOAD (R340). -/
def execVoiceAnnLoad (h : Hdr) (p : VoiceAnnLoadP) (s : State) : Out :=
  let a := p.ann.toNat
  .next (vci (cmdLong 0x0C0A .control false 12) h
    (fun t => decide (a < 64 ∧ p.law.toNat < 2 ∧ p.rsv = 0 ∧ p.rsv2 = 0 ∧ 800 ≤ p.bytes.toNat ∧ p.bytes.toNat ≤ 480000) &&
      ringFree t h.part p.ring.toNat true)
    (fun t =>
      let old := tget t.voc.anns a
      let loading := match old with
        | some x => x.loading.isSome
        | none => false
      if loading || annInUse t a then refuse .busy t
      else if 16777216 < annBytes t - (old.elim 0 (fun x => x.bytes)) + p.bytes.toNat then refuse .noResource t
      else
        let (id, t1) := startLong h 0x0C0A 10000 t
        let x : Ann := { ready := false, ulaw := decide (p.law = 1), bytes := p.bytes.toNat, loadedTs := 0, plays := 0, data := []
                         loading := some (id, h.part, p.ring.toNat) }
        ⟨.accepted, [], bindRing h.part p.ring.toNat .announcement { t1 with voc := { t1.voc with anns := tset t1.voc.anns a x } }⟩) s)

/-- VOICE_ANN_LOADED (R340): the bytes have been read. -/
def execVoiceAnnLoaded (ann : BitVec 6) (data : Bytes) (s : State) : Out :=
  let a := ann.toNat
  .next (match tget s.voc.anns a with
    | none => s
    | some x => match x.loading with
      | none => s
      | some (id, p, n) =>
        if data.length < x.bytes ∨ hostReads s p = false then s
        else
          let y := { x with ready := true, loading := none, data := data.take x.bytes, loadedTs := taiNs s }
          let t := unbindRing p n .announcement { s with voc := { s.voc with anns := tset s.voc.anns a y } }
          completeLong id .ok [] (raise 0x0C0C 0 (BitVec.ofNat 8 a :: leBytes 4 x.bytes) none t))

/-- Ranges of VOICE-ANN-MAP (Table 12.16). -/
def annMapOk (p : VoiceAnnMapP) : Bool :=
  decide (p.entry.toNat < 128 ∧ p.first.toNat ≤ p.last.toNat ∧ p.ann.toNat < 64 ∧ (p.withdrawAnn.toNat < 64 ∨ p.withdrawAnn = 0xFF) ∧
    p.dir.toNat < 3 ∧ p.priority.toNat < 8 ∧ 1 ≤ p.repeat_.toNat ∧ p.repeat_.toNat ≤ 15 ∧ p.timed.toNat < 2 ∧ p.offsetMs.toNat ≤ 60000 ∧
    1 ≤ p.nCh.toNat ∧ p.nCh.toNat ≤ 64 ∧ p.channels.length = p.nCh.toNat) && p.channels.all (fun c => decide (c.toNat < 1024))

/-- VOICE_ANN_MAP_SET (R341). -/
def execVoiceAnnMapSet (h : Hdr) (p : VoiceAnnMapP) (s : State) : Out :=
  .next (vci (cmd 0x0C0B .control false (16 + 2 * p.channels.length)) h (fun _ => annMapOk p)
    (fun t => done { t with voc := { t.voc with annMap := tset t.voc.annMap p.entry.toNat p } }) s)

/-- VOICE_ANN_MAP_REMOVE (R341). -/
def execVoiceAnnMapRemove (h : Hdr) (p : VoiceAnnMapP) (s : State) : Out :=
  .next (vci (cmd 0x0C0B .control false (16 + 2 * p.channels.length)) h (fun _ => annMapOk p)
    (fun t => done { t with voc := { t.voc with annMap := tdel t.voc.annMap p.entry.toNat } }) s)

/-- VOICE_ANN_PLAY (R342): it names no alarm, and what its events give as one is a free value. -/
def execVoiceAnnPlay (h : Hdr) (p : VoiceAnnPlayP) (s : State) : Out :=
  .next (vci (cmd 0x0C0C .openC true (8 + 2 * p.channels.length)) h
    (fun t => decide (p.ann.toNat < 64 ∧ p.dir.toNat < 3 ∧ p.priority.toNat < 8 ∧ 1 ≤ p.repeat_.toNat ∧ p.repeat_.toNat ≤ 15 ∧
        1 ≤ p.nCh.toNat ∧ p.nCh.toNat ≤ 64 ∧ p.channels.length = p.nCh.toNat ∧ p.rsv = 0) &&
      p.channels.all (fun c => decide (c.toNat < 1024) && (match getCh t c.toNat with
        | some v => mayName t h.part v.part
        | none => true)))
    (fun t =>
      let (x, t1) := fresh t
      let r : AnnReq := { ann := p.ann.toNat, dir := p.dir.toNat, priority := p.priority.toNat, repeats := p.repeat_.toNat
                          alarm := x % 65536, reqEl := elNs t1 }
      done (p.channels.foldl (fun u c => annRequest c.toNat r u) t1)) s)

/-! ### The lattice block -/

/-- One block of a channel in IDLE or CLOSING: in IDLE the receive signal is silence (Table 12.8), which a host line leg gets as its block. -/
def idleBlock (ch : Nat) (v : VCh) (tai : Nat) (s : State) : State :=
  if v.state = .idle ∧ v.cfg.lineKind = 2 then hostOut ch 0 false tai (silence (blockSamples v.cfg)) s else s

/-- VOICE_BLOCK (R312): the block whose start has come. -/
def execVoiceBlock (b : VoiceBlockIn) (s : State) : Out :=
  .next (
    if s.voc.chans = [] ∨ elNs s < blockStartEl s then s
    else
      let start := blockStartEl s
      let tai := taiNs s - (elNs s - start)
      let s1 := freeClosing s
      let s2 := b.tones.foldl (fun t e => toneStep start tai e t) s1
      let s3 := b.obs.foldl (fun t o => match getCh t o.channel.toNat with
        | some v =>
          if o.quiet250 ∧ v.state = .active ∧ ecOn v ∧ (v.ecState = .nlpOff ∨ v.ecState = .disabled) then
            chEvt 0x0C04 0 o.channel.toNat [] (setCh o.channel.toNat { v with ecState := .enabled } t)
          else t
        | none => t) s2
      let low (c : Nat) : Bool := b.obs.any (fun o => decide (o.channel.toNat = c) && o.lowEnergy)
      let s4 := s3.voc.chans.foldl (fun t e => if e.2.state = .active then chanBlock e.1 start tai (low e.1) t else idleBlock e.1 e.2 tai t) s3
      { s4 with voc := { s4.voc with block := s4.voc.block + 1 } })

/-! ### Received packets (R319) -/

/-- The RTP channel of a target and local port. -/
def rtpChan (s : State) (port : U8) (dst : Nat) : Option (Nat × VCh) :=
  tfind (fun _ v => decide (v.cfg.pktKind = 1 ∧ v.state ≠ .closing ∧ v.cfg.localPort.toNat = dst ∧
    macMask v.cfg.target.toNat &&& macMask port.toNat ≠ 0)) s.voc.chans

/-- Index of an SRTP packet (RFC 3711, Appendix A). -/
def srtpIndex (roc : Nat) (hi : Option U16) (seq : U16) : Nat :=
  match hi with
  | none => roc * 65536 + seq.toNat
  | some x =>
    let a := x.toNat
    let b := seq.toNat
    let v := if a < 32768 then (if a + 32768 < b then roc - 1 else roc) else (if b + 32768 < a then roc + 1 else roc)
    v * 65536 + b

/-- Whether an index is a replay. -/
def isReplay (v : VCh) (idx : Nat) : Bool :=
  match v.hiSeqRx with
  | none => false
  | some x =>
    let hi := v.rocRx * 65536 + x.toNat
    if hi < idx then false else decide (128 ≤ hi - idx) || v.replay.getLsbD (hi - idx)

/-- The replay window after an index is accepted. -/
def srtpAccept (v : VCh) (idx : Nat) : VCh :=
  match v.hiSeqRx with
  | none => { v with rocRx := idx / 65536, hiSeqRx := some (BitVec.ofNat 16 idx), replay := 1 }
  | some x =>
    let hi := v.rocRx * 65536 + x.toNat
    if hi < idx then
      { v with rocRx := idx / 65536, hiSeqRx := some (BitVec.ofNat 16 idx), replay := (if idx - hi < 128 then v.replay <<< (idx - hi) else 0) ||| 1 }
    else { v with replay := v.replay ||| (1#128 <<< (hi - idx)) }

/-- AUTH_FAIL, with its event at most once a second. -/
def authFail (ch : Nat) (v : VCh) (s : State) : State :=
  let w := v.count 10 1
  if spaced v.lastAuthEvtEl (elNs s) 1000000000 then
    chEvt 0x0C07 2 ch (leBytes 8 (lget w.cnt 10 0)) (setCh ch { w with lastAuthEvtEl := some (elNs s) } s)
  else setCh ch w s

/-- Kind and value of the record of a received event. -/
def eventKind (k : Nat) : Nat × Nat :=
  match k with
  | 32 => (2, 0)
  | 34 => (3, 0)
  | 33 => (4, 0)
  | 35 => (4, 0)
  | n => (0, n)

/-- End a received event with its record. -/
def endRxEvent (ch : Nat) (e : TelEvent) (dur : Nat) (s : State) : State :=
  let (k, v) := eventKind e.event
  toneRecord ch false k v e.volume 1 true e.startNs (dur * 125) (modCh ch (fun x => { x with telRx := some { e with dur, ends := 1 } }) s)

/-- A received event packet (R332), which arrived at an instant, TAI ns and elapsed. -/
def rxEvent (ch tai el : Nat) (v : VCh) (p : RtpPacket) (s : State) : State :=
  match p.payload with
  | ev :: fl :: d1 :: d0 :: _ =>
    let k := ev.toNat
    let dur := d1.toNat * 256 + d0.toNat
    if 15 < k ∧ (k < 32 ∨ 35 < k) then s
    else
      let same := match v.telRx with
        | some e => decide (e.ts = p.ts ∧ e.event = k)
        | none => false
      let done_ := match v.telRx with
        | some e => same && decide (e.ends ≠ 0)
        | none => false
      if done_ then s
      else
        let (e, t) : TelEvent × State := match v.telRx with
          | some e =>
            if same then ({ e with dur, lastEl := el }, s)
            else
              let s1 := if e.ends = 0 then endRxEvent ch e e.dur s else s
              let n : TelEvent := { event := k, begun := true, volume := fl.toNat % 64, ts := p.ts, dur, ends := 0, lastEl := el
                                    startNs := tai - dur * 125000 }
              let (a, b) := eventKind k
              (n, toneRecord ch false a b n.volume 1 false n.startNs 0 s1)
          | none =>
            let n : TelEvent := { event := k, begun := true, volume := fl.toNat % 64, ts := p.ts, dur, ends := 0, lastEl := el
                                  startNs := tai - dur * 125000 }
            let (a, b) := eventKind k
            (n, toneRecord ch false a b n.volume 1 false n.startNs 0 s)
        if fl.getLsbD 7 then endRxEvent ch e dur t else modCh ch (fun x => { x with telRx := some e }) t
  | _ => s

/-- A packet that passes every check (R319, R321, R322), and its arrival, TAI ns and elapsed: `idx` is its SRTP index. -/
def acceptRtp (ch tai el : Nat) (p : RtpPacket) (idx : Nat) (old : Bool) (v0 : VCh) (s0 : State) : State :=
  let changed := match v0.ssrcRx with
    | some x => decide (x ≠ p.ssrc)
    | none => false
  let s := if changed then chEvt 0x0C06 1 ch (leBytes 4 (v0.ssrcRx.getD 0).toNat ++ leBytes 4 p.ssrc.toNat) s0 else s0
  let v1 := if changed then { v0 with jb := [], map := none, depths := [], transits := [], q := 0, firstPktEl := none, played := [],
                                       lastSeq := none, rocRx := 0, hiSeqRx := none, replay := 0 } else v0
  let v2 := if v1.cfg.srtp then srtpAccept v1 idx else v1
  let latch := v2.cfg.latch && !v2.latched
  let v3 := if latch then { v2 with cfg := { v2.cfg with remoteAddr := p.srcAddr, remotePort := p.srcPort }, latched := true } else v2
  let silent := (el - v3.lastRxEl) / 1000000
  let v4 := { v3 with ssrcRx := some p.ssrc, lastRxTs := tai, lastRxEl := el, mediaLost := false }
  let s1 := setCh ch v4 s
  let s2 := if v0.mediaLost then chEvt 0x0C09 0 ch (leBytes 4 silent) s1 else s1
  if v4.cfg.evPt ≠ 0 ∧ p.pt.toNat = v4.cfg.evPt.toNat then
    rxEvent ch tai el v4 p (modCh ch (fun x => { x with played := (p.seq :: x.played).take 128 }) s2)
  else if v4.cfg.codec = 3 ∧ p.pt = 18 ∧ p.payload.length = 2 then s2
  else
    let (w, r) := jbEnter s2 el v4 p.seq p.ts old p.pt p.payload
    let s3 := setCh ch w s2
    if r then resyncEvt ch s3 else s3

/-- RTP_PACKET_RX (R319, R336, R338): the first check that fails discards the datagram. -/
def execRtpPacketRx (p : RtpPacket) (s0 : State) : Out :=
  let tai := rxNs s0 p.port.toNat .c1
  let el := rxEl s0 p.port.toNat .c1
  let s := popIn p.port.toNat .c1 s0
  .next (if readerHeld s0 p.port.toNat .c1 then s0 else match rtpChan s p.port p.dstPort.toNat with
    | none => s
    | some (ch, v0) =>
      let v := v0.count 0 1
      let fail (i : Nat) : State := setCh ch (v.count i 1) s
      if v.state ≠ .active then setCh ch v s
      else if p.version ≠ 2 then fail 5
      else if (v.cfg.latch = false ∨ v.latched) ∧ (v.cfg.remoteAddr ≠ p.srcAddr ∨ v.cfg.remotePort ≠ p.srcPort) then fail 7
      else
        let other := match v.ssrcRx with
          | some x => decide (x ≠ p.ssrc)
          | none => false
        let ctx := if other then { v with rocRx := 0, hiSeqRx := none, replay := 0 } else v
        let idx := srtpIndex ctx.rocRx ctx.hiSeqRx p.seq
        let auth := match v.keyRx with
          | none => false
          | some k => if k.fromIndex ≤ idx then p.authOk else v.keyRxPrev.isSome && p.authPrev
        if v.cfg.srtp ∧ v.keyRx.isSome ∧ isReplay ctx idx then fail 11
        else if v.cfg.srtp ∧ auth = false then authFail ch v s
        else
          let pt := p.pt.toNat
          let now_ := decide (pt = codecPt v.cfg.codec.toNat v.cfg.pt)
          let old := match v.oldCodec with
            | some (_, q, t) => decide (pt = q ∧ elNs s < t) && !now_
            | none => false
          let ev := decide (v.cfg.evPt ≠ 0 ∧ pt = v.cfg.evPt.toNat)
          if !(now_ || old || ev || decide (pt = 13)) then fail 6
          else if other = false ∧ (p.seq ∈ v.played ∨ v.jb.any (fun x => decide (x.seq = p.seq))) then fail 4
          else acceptRtp ch tai el p idx old v s)

/-- DTMF_EVENT_TIMEOUT (R332). -/
def execDtmfEventTimeout (ch : U16) (s : State) : Out :=
  .next (match getCh s ch.toNat with
    | none => s
    | some v => match v.telRx with
      | some e => if e.ends = 0 ∧ e.event ≤ 15 ∧ e.lastEl + 250000000 ≤ elNs s then endRxEvent ch.toNat e e.dur s else s
      | none => s)

/-- RTCP_TX (R320). -/
def execRtcpTx (ch : U16) (s : State) : Out :=
  let n := ch.toNat
  .next (match getCh s n with
    | none => s
    | some v =>
      if v.state ≠ .active ∨ v.cfg.pktKind ≠ 1 ∨ v.cfg.rtcp = false ∨ elNs s < v.nextRtcpEl then s
      else
        let (d, s1) := fresh s
        let s2 := setCh n { v with nextRtcpEl := elNs s + 2500000000 + d % 5000000001 } s1
        if v.canSend = false then s2
        else sendVoice true (.rtcp n) v (Config.rtcp v.ssrcTx false d) s2)

/-- RTCP_RX (R320). -/
def execRtcpRx (r : RtcpReport) (s0 : State) : Out :=
  let s := popIn r.port.toNat .c3 s0
  .next (if readerHeld s0 r.port.toNat .c3 then s0 else if r.dstPort = 0 then s else match rtpChan s r.port (r.dstPort.toNat - 1) with
    | none => s
    | some (ch, v) =>
      if v.state = .active ∧ v.cfg.rtcp ∧ v.cfg.remoteSet ∧ r.srcAddr = v.cfg.remoteAddr ∧ r.srcPort.toNat = v.cfg.remotePort.toNat + 1 ∧
          r.ssrc = v.ssrcTx ∧ (v.cfg.srtp → r.authOk) then setCh ch { v with rrFraction := r.fractionLost } s
      else s)

/-- VOICE_MEDIA_TIMEOUT (R321). -/
def execVoiceMediaTimeout (ch : U16) (s : State) : Out :=
  let n := ch.toNat
  .next (match getCh s n with
    | none => s
    | some v =>
      if v.state = .active ∧ v.cfg.pktKind = 1 ∧ v.cfg.mediaTimeoutMs ≠ 0 ∧ v.mediaLost = false ∧
          v.lastRxEl + v.cfg.mediaTimeoutMs.toNat * 1000000 ≤ elNs s then
        chEvt 0x0C08 2 n (leBytes 8 v.lastRxTs) (setCh n { v with mediaLost := true } s)
      else s)

/-- HOST_VOICE_BLOCK (R324): the next descriptor of a host-to-device ring. -/
def execHostVoiceBlock (b : HostVoice) (s : State) : Out :=
  let n := b.channel.toNat
  .next (match getRing s b.part b.ring.toNat with
    | none => s
    | some r =>
      if r.toDev = false ∨ r.owned = [] ∨ r.use ≠ .voice ∨ hostReads s b.part = false then s
      else
        let fail (st : Sts) : State := bump 0x0C000130 (completeDesc b.part b.ring.toNat st 0 [] s)
        if b.poison ≠ 0 then completeDesc b.part b.ring.toNat .poisoned 0 [] (poisonDma b.part b.poison.toNat s)
        else match getCh s n with
        | none => fail .badParam
        | some v =>
          let line := decide (b.leg = 0)
          let bound := decide (v.part = b.part ∧ v.state ≠ .closing) &&
            (if line then decide (v.cfg.lineKind = 2 ∧ v.cfg.lineIn.toNat = b.ring.toNat)
             else decide (b.leg = 1 ∧ v.cfg.pktKind = 2 ∧ v.cfg.pktIn.toNat = b.ring.toNat))
          if bound = false then fail .badParam
          else if b.samples.toNat ≠ blockSamples v.cfg ∨ b.pcm.length ≠ b.samples.toNat then fail .badLength
          else
            let f := if line then v.lineFifo else v.pktFifo
            let full := decide (8 ≤ f.length)
            let g := (if full then f.drop 1 else f) ++ [b.pcm]
            let w := if full then v.count 14 1 else v
            completeDesc b.part b.ring.toNat .ok (16 + 2 * b.pcm.length) [] (setCh n (if line then { w with lineFifo := g } else { w with pktFifo := g }) s))

end Sys2Proof.Machine
end

