-- ==== Sys2Proof/Machine/Yarrow.lean ====
section
/-!
DEFINITION. The commands and events of the Yarrow scheduler (group 0x0E, 14_yarrow_scheduler.md).
-/

namespace Sys2Proof.Machine

/-- YARROW_CONFIG (R397): taken over at the next window. -/
def execYarrowConfig (h : Hdr) (p : YarrowConfigP) (s : State) : Out :=
  .next (vci (cmd 0x0E01 .control false 4) h
    (fun _ => decide (p.rsv = 0 ∧ 50 ≤ p.qHighPct.toNat ∧ p.qHighPct.toNat ≤ 100 ∧ 50 ≤ p.loadAlertPct.toNat ∧ p.loadAlertPct.toNat ≤ 100))
    (fun t => done { t with yar := { t.yar with qHighPct := p.qHighPct.toNat, loadAlertPct := p.loadAlertPct.toNat } }) s)

/-- YARROW_LOAD_BIND (R397): BUSY while a ring is bound, until it is unbound with 0xFF. -/
def execYarrowLoadBind (h : Hdr) (p : YarrowLoadBindP) (s : State) : Out :=
  .next (vci (cmd 0x0E02 .openC false 4) h
    (fun t => decide (p.rsv = 0 ∧ 1 ≤ p.loadDiv.toNat ∧ p.loadDiv.toNat ≤ 100) &&
      (decide (p.ring = 0xFF) || decide (t.yar.loadRing.get h.part = some p.ring.toNat) || ringFree t h.part p.ring.toNat false))
    (fun t =>
      let y := t.yar
      match y.loadRing.get h.part with
      | some n =>
        if p.ring = 0xFF then
          done (unbindRing h.part n .load { t with yar := { y with loadRing := y.loadRing.set h.part none } })
        else refuse .busy t
      | none =>
        if p.ring = 0xFF then done t
        else done (bindRing h.part p.ring.toNat .load
          { t with yar := { y with loadRing := y.loadRing.set h.part (some p.ring.toNat), loadDiv := y.loadDiv.set h.part p.loadDiv.toNat
                                   loadWin := y.loadWin.set h.part 0, loadOn := y.loadOn.set h.part false
                                   loads := tmap (fun _ l => { l with sums := l.sums.set h.part 0 }) y.loads } })) s)

/-- TASK_DISPATCH (R387): one fabric cycle of matching. -/
def execTaskDispatch (s : State) : Out := .next (matchCores s)

/-- DELAY_EXPIRY (R384): up to four entries that are due. -/
def execDelayExpiry (s : State) : Out := .next (expireUpTo 4 s)

/-- A core's load at the end of a window (R393). -/
def coreWindow (n : Nat) (s : State) : State :=
  let c := getCore s n
  let l := tgetD s.yar.loads n .init
  let hot := decide (s.yar.loadAlertUse * 1200000 ≤ 100 * c.busy)
  let l1 := { l with busy := c.busy, busyMax := max l.busyMax c.busy, windowTs := taiNs s / 1000000 * 1000000
                     overAlert := if hot then sat1 l.overAlert else l.overAlert
                     lastOverEl := if hot then some (elNs s) else l.lastOverEl
                     sums := l.sums.map (fun x => x + c.busy), acc := l.acc + c.busy }
  let s1 := { s with yar := { s.yar with loads := tset s.yar.loads n l1 } }
  let s2 := if c.busy = 0 then s1 else setCore n { c with busy := 0 } s1
  raiseIf (hot && secondSince s l.lastOverEl) 0x0E04 1 [BitVec.ofNat 8 n, BitVec.ofNat 8 (c.busy / 12000)] none s2

/-- A load record (Table 14.11). -/
def loadRecord (s : State) (p : HP) : Bytes :=
  leBytes 8 (taiNs s / 1000000 * 1000000) ++ leBytes 2 (s.yar.loadDiv.get p) ++ leBytes 6 0 ++
  ((List.range 128).map (fun n => leBytes 4 ((tgetD s.yar.loads n .init).sums.get p))).flatten

/-- One more window of a partition's load record, written every load_div windows; the window in which the bind falls is not counted (R397). -/
def loadWindow (p : HP) (s : State) : State :=
  match s.yar.loadRing.get p with
  | none => s
  | some n =>
    let w := s.yar.loadWin.get p + 1
    if s.yar.loadOn.get p = false then
      { s with yar := { s.yar with loadOn := s.yar.loadOn.set p true, loads := tmap (fun _ l => { l with sums := l.sums.set p 0 }) s.yar.loads } }
    else if w < s.yar.loadDiv.get p then { s with yar := { s.yar with loadWin := s.yar.loadWin.set p w } }
    else
      let s1 := match ringWrite p n .load (loadRecord s p) s with
        | some t => t
        | none => bump 0x0E000150 s
      { s1 with yar := { s1.yar with loadWin := s1.yar.loadWin.set p 0, loads := tmap (fun _ l => { l with sums := l.sums.set p 0 }) s1.yar.loads } }

/-- LOAD_WINDOW_END (R393): at a whole millisecond of device time. -/
def execLoadWindowEnd (s : State) : Out :=
  .next (if taiNs s / 1000000 ≤ s.yar.windowMs then s
    else
      let s1 := (List.range 128).foldl (fun t n => coreWindow n t) s
      let s2 := allHP.foldl (fun t p => loadWindow p t) s1
      { s2 with yar := { s2.yar with windowMs := taiNs s / 1000000, qHighUse := s2.yar.qHighPct, loadAlertUse := s2.yar.loadAlertPct } })

/-- Device cores of classes C1 to C3 in a cluster. -/
def deviceCores (s : State) (cl : Nat) : List Nat :=
  ((List.range 8).filter (fun j => decide (j ≠ 0) && !isUser (getCore s (8 * cl + j)))).map (fun j => 8 * cl + j)

/-- Busy cycles of some cores over the last 10 s. -/
def busyOf (s : State) (l : List Nat) : Nat := l.foldl (fun n c => n + (tgetD s.yar.loads c .init).recent.sum) 0

/-- Seconds that the loads cover. -/
def loadSeconds (s : State) : Nat := (tgetD s.yar.loads 0 .init).recent.length

/-- A cluster bears more mean load than another. -/
def moreLoaded (s : State) (a b : Nat) : Bool :=
  let x := deviceCores s a
  let y := deviceCores s b
  decide (busyOf s y * x.length < busyOf s x * y.length)

/-- A cluster is over its share: its mean exceeds that of all device cores by 15 percentage points or more. -/
def overShare (s : State) (cl : Nat) : Bool :=
  let x := deviceCores s cl
  let all := (List.range 16).flatMap (deviceCores s)
  decide (0 < x.length) &&
    decide (busyOf s all * x.length * 100 + 15 * 1200000000 * loadSeconds s * x.length * all.length ≤ busyOf s x * all.length * 100)

/-- Clusters that a task may go to: those of its kernel's cores, for a user kernel's (R394). -/
def taskClusters (s : State) (k : Task) : List Nat :=
  match k.kernel with
  | none => List.range 16
  | some n => ((getKern s n).map kernClusters).getD []

/-- From the most loaded cluster, which is over its share, to the least loaded of those it may go to. -/
def clusterMove (s : State) (among : List Nat) (old new : Nat) : Bool :=
  overShare s old && decide (new ∈ among) && (List.range 16).all (fun c => !moreLoaded s c old) && among.all (fun c => !moreLoaded s new c)

/-- From the DRAM channel over its share to the other. -/
def dramMove (v : PlacementIn) (old new : Nat) : Bool :=
  decide (new < 2 ∧ old < 2 ∧ new ≠ old ∧ 600 < (lget v.dramShare old 0).toNat)

/-- The grid to whose slabs an item's state is bound. -/
def gridOfItem (s : State) (kind item : Nat) : Option Nat :=
  match kind with
  | 0 => (tget s.aln.streams item).map (fun a => a.grid)
  | 1 => (chanOwner s item).bind (fun e => (tget s.aln.streams e.1).map (fun a => a.grid))
  | 2 => (getSlot s item).map (fun v => v.grid)
  | _ => none

/-- A task that does not run changes its queue cluster (R394). -/
def moveTask (t : Nat) (k : Task) (cl : Nat) (s : State) : State :=
  let k1 := { k with cluster := cl, home := none }
  match k.state with
  | .ready =>
    let s1 := setTask t k1 (touchQueue k.cluster k.cls s)
    noteDepth cl k.cls (if k.reserved then s1 else freeEntry k.cluster k.cls s1)
  | .pending =>
    let s0 := touchQueue k.cluster k.cls s
    let q := getQ s0 k.cluster k.cls
    let s1 := setQ k.cluster k.cls { q with pend := q.pend.filter (fun x => decide (x ≠ t)) } s0
    if depthIn s1 cl k.cls < 1024 then enterReady t k1 s1
    else
      let r := getQ s1 cl k.cls
      setTask t k1 (setQ cl k.cls { r with pend := r.pend ++ [t], lastPendEl := some (elNs s1) } s1)
  | _ => setTask t k1 s

/-- A move of a task to another queue cluster: logged when it takes effect, at the end of the run of a task that runs. -/
def applyTaskMove (t reason cl : Nat) (s : State) : State :=
  match getTask s t with
  | none => s
  | some k =>
    if k.state = .free ∨ cl = k.cluster ∨ clusterMove s (taskClusters s k) k.cluster cl = false then s
    else if k.state = .running then setTask t { k with moveTo := some (cl, reason) } s
    else logTaskMove t k reason cl (moveTask t k cl s)

/-- A move of a placed item, from its place in the log to one that is no C0 core: state bound to slabs waits for a slab boundary. -/
def applyPlaceMove (v : PlacementIn) (m : MoveP) (s : State) : State :=
  let kind := m.kind.toNat
  let item := m.item.toNat
  let new := (m.new.1.toNat, m.new.2.1.toNat, m.new.2.2.toNat)
  match tget s.yar.places (placeKey kind item) with
  | none => s
  | some old =>
    let core := decide (new.1 = 0xFF ∨ (new.1 < 128 ∧ new.1 % 8 ≠ 0 ∧ isUser (getCore s new.1) = false ∧ new.2.1 = new.1 / 8))
    let ok := core && (if m.reason = 3 then dramMove v old.2.2 new.2.2 && decide (new.2.1 = old.2.1)
                       else clusterMove s (List.range 16) old.2.1 new.2.1 && decide (new.2.2 = old.2.2))
    if ok = false then s
    else match gridOfItem s kind item with
      | none => movePlace ⟨kind, m.reason.toNat, item, 0, new⟩ s
      | some g => { s with yar := { s.yar with moves := s.yar.moves ++ [⟨kind, m.reason.toNat, item, g, new⟩] } }

/-- One move (R31, R394, R395): of an item the device has, from the most loaded place to the least loaded. -/
def applyMove (v : PlacementIn) (s : State) (m : MoveP) : State :=
  if m.reason = 0 ∨ 3 < m.reason.toNat then s
  else match m.kind.toNat with
    | 0 | 1 | 2 | 3 => applyPlaceMove v m s
    | 4 => if (getTask s m.item.toNat).any (fun k => k.user) then s else applyTaskMove m.item.toNat m.reason.toNat m.new.2.1.toNat s
    | 5 => if (getTask s m.item.toNat).any (fun k => k.user) then applyTaskMove m.item.toNat m.reason.toNat m.new.2.1.toNat s else s
    | _ => s

/-- The loads of the second that ends. -/
def closeLoads (s : State) : State :=
  (List.range 128).foldl (fun t n =>
    let l := tgetD t.yar.loads n .init
    { t with yar := { t.yar with loads := tset t.yar.loads n { l with acc := 0, recent := (l.acc :: l.recent).take 10 } } }) s

/-- PLACEMENT_EVALUATION (R394): once per second, at most eight moves. -/
def execPlacementEvaluation (v : PlacementIn) (s : State) : Out :=
  .next (if elNs s < s.yar.lastEvalEl + 1000000000 then s
    else (v.moves.take 8).foldl (applyMove v) (closeLoads { s with yar := { s.yar with lastEvalEl := elNs s } }))

end Sys2Proof.Machine
end

