-- ==== Sys2Proof/Machine/Dispatch.lean ====
section
/-!
DEFINITION. One arm per command of the block: each calls its meaning.
-/

namespace Sys2Proof.Machine

def exec (i : Instr) (s : State) : Host.Outcome State Fault Refusal :=
  match i with
  | .identify h => Sys2Proof.Machine.execIdentify h s
  | .counterClear h p => Sys2Proof.Machine.execCounterClear h p s
  | .snapshot h p => Sys2Proof.Machine.execSnapshot h p s
  | .snapshotRelease h => Sys2Proof.Machine.execSnapshotRelease h s
  | .apertureWindow h p => Sys2Proof.Machine.execApertureWindow h p s
  | .deviceReset h p => Sys2Proof.Machine.execDeviceReset h p s
  | .heartbeat h p => Sys2Proof.Machine.execHeartbeat h p s
  | .claimSet h p => Sys2Proof.Machine.execClaimSet h p s
  | .claimYield h p => Sys2Proof.Machine.execClaimYield h p s
  | .apportion h p => Sys2Proof.Machine.execApportion h p s
  | .partitionTimers h p => Sys2Proof.Machine.execPartitionTimers h p s
  | .dmaRingSetup h p => Sys2Proof.Machine.execDmaRingSetup h p s
  | .dmaRingRetire h p => Sys2Proof.Machine.execDmaRingRetire h p s
  | .dmaRingRetireDone part ring => Sys2Proof.Machine.execDmaRingRetireDone part ring s
  | .longCommandTimeout cmd => Sys2Proof.Machine.execLongCommandTimeout cmd s
  | .earlyDoorbell part urg => Sys2Proof.Machine.execEarlyDoorbell part urg s
  | .discardedWrite part bar => Sys2Proof.Machine.execDiscardedWrite part bar s
  | .evtConsWrite part value => Sys2Proof.Machine.execEvtConsWrite part value s
  | .hostIdxWrite part ring value descs => Sys2Proof.Machine.execHostIdxWrite part ring value descs s
  | .dmaDescriptorDone part ring poison => Sys2Proof.Machine.execDmaDescriptorDone part ring poison s
  | .hbInChange part level => Sys2Proof.Machine.execHbInChange part level s
  | .pathVTimeout part => Sys2Proof.Machine.execPathVTimeout part s
  | .pathPTimeout part => Sys2Proof.Machine.execPathPTimeout part s
  | .failureTimerExpiry part => Sys2Proof.Machine.execFailureTimerExpiry part s
  | .holdoffTimerExpiry part => Sys2Proof.Machine.execHoldoffTimerExpiry part s
  | .takeoverDeadline part => Sys2Proof.Machine.execTakeoverDeadline part s
  | .snapshotExpiry part => Sys2Proof.Machine.execSnapshotExpiry part s
  | .shadowFull part => Sys2Proof.Machine.execShadowFull part s
  | .pcieLinkDown part => Sys2Proof.Machine.execPcieLinkDown part s
  | .pcieLinkUp part => Sys2Proof.Machine.execPcieLinkUp part s
  | .partitionReset part => Sys2Proof.Machine.execPartitionReset part s
  | .pornAssert => Sys2Proof.Machine.execPornAssert s
  | .powerOnReset b => Sys2Proof.Machine.execPowerOnReset b s
  | .bootStageTimeout stage => Sys2Proof.Machine.execBootStageTimeout stage s
  | .bootReady stageMs => Sys2Proof.Machine.execBootReady stageMs s
  | .systemReset b => Sys2Proof.Machine.execSystemReset b s
  | .watchdogExpiry b => Sys2Proof.Machine.execWatchdogExpiry b s
  | .firmwareHalt b => Sys2Proof.Machine.execFirmwareHalt b s
  | .deviceResetExecute b => Sys2Proof.Machine.execDeviceResetExecute b s
  | .pfailAssert => Sys2Proof.Machine.execPfailAssert s
  | .pfailRise b => Sys2Proof.Machine.execPfailRise b s
  | .powerFailFlushEnd complete => Sys2Proof.Machine.execPowerFailFlushEnd complete s
  | .startupGapTimeout => Sys2Proof.Machine.execStartupGapTimeout s
  | .timeSourceConfig h p => Sys2Proof.Machine.execTimeSourceConfig h p s
  | .timeSlewConfig h p => Sys2Proof.Machine.execTimeSlewConfig h p s
  | .timeHoldoverConfig h p => Sys2Proof.Machine.execTimeHoldoverConfig h p s
  | .timeUtcOffset h p => Sys2Proof.Machine.execTimeUtcOffset h p s
  | .timeStep h p => Sys2Proof.Machine.execTimeStep h p s
  | .timeStepApply => Sys2Proof.Machine.execTimeStepApply s
  | .gaConfig h p => Sys2Proof.Machine.execGaConfig h p s
  | .ppsOutConfig h p => Sys2Proof.Machine.execPpsOutConfig h p s
  | .timeRead h => Sys2Proof.Machine.execTimeRead h s
  | .ptpAnnounceRx port m => Sys2Proof.Machine.execPtpAnnounceRx port m s
  | .ptpSyncRx port m => Sys2Proof.Machine.execPtpSyncRx port m s
  | .pdelayReqRx m => Sys2Proof.Machine.execPdelayReqRx m s
  | .pdelayRespRx m => Sys2Proof.Machine.execPdelayRespRx m s
  | .pdelayReqTx port => Sys2Proof.Machine.execPdelayReqTx port s
  | .ptpMasterTx port => Sys2Proof.Machine.execPtpMasterTx port s
  | .announceReceiptTimeout port => Sys2Proof.Machine.execAnnounceReceiptTimeout port s
  | .ppsInEdge => Sys2Proof.Machine.execPpsInEdge s
  | .ppsInLoss => Sys2Proof.Machine.execPpsInLoss s
  | .irigFrame f => Sys2Proof.Machine.execIrigFrame f s
  | .irigLoss => Sys2Proof.Machine.execIrigLoss s
  | .srcHoldoffExpiry => Sys2Proof.Machine.execSrcHoldoffExpiry s
  | .tqBandElapsed => Sys2Proof.Machine.execTqBandElapsed s
  | .leapPendingStart => Sys2Proof.Machine.execLeapPendingStart s
  | .leapApplied => Sys2Proof.Machine.execLeapApplied s
  | .leapOccurredEnd => Sys2Proof.Machine.execLeapOccurredEnd s
  | .ppsOutRise => Sys2Proof.Machine.execPpsOutRise s
  | .ppsOutFall => Sys2Proof.Machine.execPpsOutFall s
  | .gaTick ts => Sys2Proof.Machine.execGaTick ts s
  | .timedActionFire => Sys2Proof.Machine.execTimedActionFire s
  | .portConfig h p => Sys2Proof.Machine.execPortConfig h p s
  | .prpConfig h p => Sys2Proof.Machine.execPrpConfig h p s
  | .portTxBind h p => Sys2Proof.Machine.execPortTxBind h p s
  | .frameRx f => Sys2Proof.Machine.execFrameRx f s
  | .portLinkUp port speed halfDuplex => Sys2Proof.Machine.execPortLinkUp port speed halfDuplex s
  | .portLinkDown port => Sys2Proof.Machine.execPortLinkDown port s
  | .lanSilence port => Sys2Proof.Machine.execLanSilence port s
  | .prpSupervisionTx pair => Sys2Proof.Machine.execPrpSupervisionTx pair s
  | .prpSupervisionRx port => Sys2Proof.Machine.execPrpSupervisionRx port s
  | .hostFrameTx part ring f => Sys2Proof.Machine.execHostFrameTx part ring f s
  | .txComplete port lateColl => Sys2Proof.Machine.execTxComplete port lateColl s
  | .fieldCollision port => Sys2Proof.Machine.execFieldCollision port s
  | .backoffExpiry port => Sys2Proof.Machine.execBackoffExpiry port s
  | .pressureWindowEnd => Sys2Proof.Machine.execPressureWindowEnd s
  | .streamAdd h p => Sys2Proof.Machine.execStreamAdd h p s
  | .streamChange h p => Sys2Proof.Machine.execStreamChange h p s
  | .streamRetire h p => Sys2Proof.Machine.execStreamRetire h p s
  | .streamRetired handle => Sys2Proof.Machine.execStreamRetired handle s
  | .streamCfgAccept h p => Sys2Proof.Machine.execStreamCfgAccept h p s
  | .streamRequest h p => Sys2Proof.Machine.execStreamRequest h p s
  | .ingestConfig h p => Sys2Proof.Machine.execIngestConfig h p s
  | .c37DataFrame f => Sys2Proof.Machine.execC37DataFrame f s
  | .c37CfgFrame f => Sys2Proof.Machine.execC37CfgFrame f s
  | .c37HeaderFrame f => Sys2Proof.Machine.execC37HeaderFrame f s
  | .c37CommandFrame f => Sys2Proof.Machine.execC37CommandFrame f s
  | .svFrame f => Sys2Proof.Machine.execSvFrame f s
  | .tcpLinkDown handle => Sys2Proof.Machine.execTcpLinkDown handle s
  | .tcpReconnect handle => Sys2Proof.Machine.execTcpReconnect handle s
  | .tcpConnected handle => Sys2Proof.Machine.execTcpConnected handle s
  | .streamSilent handle => Sys2Proof.Machine.execStreamSilent handle s
  | .directoryRebuilt => Sys2Proof.Machine.execDirectoryRebuilt s
  | .directoryEntryRewrite handle => Sys2Proof.Machine.execDirectoryEntryRewrite handle s
  | .tdmFrame f => Sys2Proof.Machine.execTdmFrame f s
  | .gridConfig h p => Sys2Proof.Machine.execGridConfig h p s
  | .pubAdd h p => Sys2Proof.Machine.execPubAdd h p s
  | .pubChange h p => Sys2Proof.Machine.execPubChange h p s
  | .pubRetire h p => Sys2Proof.Machine.execPubRetire h p s
  | .slabOpen grid => Sys2Proof.Machine.execSlabOpen grid s
  | .speculativeRelease grid tag => Sys2Proof.Machine.execSpeculativeRelease grid tag s
  | .deadlineRelease grid tag => Sys2Proof.Machine.execDeadlineRelease grid tag s
  | .patchRelease grid tag => Sys2Proof.Machine.execPatchRelease grid tag s
  | .slabHistory grid tag => Sys2Proof.Machine.execSlabHistory grid tag s
  | .pubFrameBuild pub tag => Sys2Proof.Machine.execPubFrameBuild pub tag s
  | .oscScreenConfig h p => Sys2Proof.Machine.execOscScreenConfig h p s
  | .oscEstConfig h p => Sys2Proof.Machine.execOscEstConfig h p s
  | .oscAlarmConfig h p => Sys2Proof.Machine.execOscAlarmConfig h p s
  | .oscWatchAdd h p => Sys2Proof.Machine.execOscWatchAdd h p s
  | .oscWatchRemove h p => Sys2Proof.Machine.execOscWatchRemove h p s
  | .oscBranchAdd h p => Sys2Proof.Machine.execOscBranchAdd h p s
  | .oscBranchRemove h p => Sys2Proof.Machine.execOscBranchRemove h p s
  | .oscRelearn h p => Sys2Proof.Machine.execOscRelearn h p s
  | .oscOutputBind h p => Sys2Proof.Machine.execOscOutputBind h p s
  | .screenStep grid tag => Sys2Proof.Machine.execScreenStep grid tag s
  | .screenPatchFix grid tag => Sys2Proof.Machine.execScreenPatchFix grid tag s
  | .estimatorStep slot tag => Sys2Proof.Machine.execEstimatorStep slot tag s
  | .estimatorHoldExpiry slot => Sys2Proof.Machine.execEstimatorHoldExpiry slot s
  | .clusterConfig h p => Sys2Proof.Machine.execClusterConfig h p s
  | .busSignalAdd h p => Sys2Proof.Machine.execBusSignalAdd h p s
  | .busSignalRemove h p => Sys2Proof.Machine.execBusSignalRemove h p s
  | .clusterRef h p => Sys2Proof.Machine.execClusterRef h p s
  | .breakerMapAdd h p => Sys2Proof.Machine.execBreakerMapAdd h p s
  | .breakerMapRemove h p => Sys2Proof.Machine.execBreakerMapRemove h p s
  | .detectorConfig h p => Sys2Proof.Machine.execDetectorConfig h p s
  | .alarmMapSet h p => Sys2Proof.Machine.execAlarmMapSet h p s
  | .alarmMapRemove h p => Sys2Proof.Machine.execAlarmMapRemove h p s
  | .alarmStage h p => Sys2Proof.Machine.execAlarmStage h p s
  | .alarmAck h p => Sys2Proof.Machine.execAlarmAck h p s
  | .alarmTestForce h p => Sys2Proof.Machine.execAlarmTestForce h p s
  | .alarmTestRelease h p => Sys2Proof.Machine.execAlarmTestRelease h p s
  | .alarmFrameConfig h p => Sys2Proof.Machine.execAlarmFrameConfig h p s
  | .alarmGooseConfig h p => Sys2Proof.Machine.execAlarmGooseConfig h p s
  | .clusterEvaluation tag => Sys2Proof.Machine.execClusterEvaluation tag s
  | .pinMinOnExpiry stage => Sys2Proof.Machine.execPinMinOnExpiry stage s
  | .alarmTestExpiry stage => Sys2Proof.Machine.execAlarmTestExpiry stage s
  | .alarmFrameRepeat stage => Sys2Proof.Machine.execAlarmFrameRepeat stage s
  | .alarmStateRefresh stage => Sys2Proof.Machine.execAlarmStateRefresh stage s
  | .gooseRetransmit stage => Sys2Proof.Machine.execGooseRetransmit stage s
  | .alarmFrameRx f => Sys2Proof.Machine.execAlarmFrameRx f s
  | .captureAdd h p => Sys2Proof.Machine.execCaptureAdd h p s
  | .captureSources h p => Sys2Proof.Machine.execCaptureSources h p s
  | .captureTriggerSet h p => Sys2Proof.Machine.execCaptureTriggerSet h p s
  | .captureArm h p => Sys2Proof.Machine.execCaptureArm h p s
  | .captureDisarm h p => Sys2Proof.Machine.execCaptureDisarm h p s
  | .captureTrigger h p => Sys2Proof.Machine.execCaptureTrigger h p s
  | .captureRecordFree h p => Sys2Proof.Machine.execCaptureRecordFree h p s
  | .captureExport h p => Sys2Proof.Machine.execCaptureExport h p s
  | .captureExportDone cmd => Sys2Proof.Machine.execCaptureExportDone cmd s
  | .captureRetire h p => Sys2Proof.Machine.execCaptureRetire h p s
  | .captureRetireDone capture => Sys2Proof.Machine.execCaptureRetireDone capture s
  | .halgaImport h p => Sys2Proof.Machine.execHalgaImport h p s
  | .halgaImportDone cmd r => Sys2Proof.Machine.execHalgaImportDone cmd r s
  | .halgaMerge h p => Sys2Proof.Machine.execHalgaMerge h p s
  | .halgaMergeDone cmd => Sys2Proof.Machine.execHalgaMergeDone cmd s
  | .captureRemoteConfig h p => Sys2Proof.Machine.execCaptureRemoteConfig h p s
  | .captureRows capture lane rows => Sys2Proof.Machine.execCaptureRows capture lane rows s
  | .captureFilled capture => Sys2Proof.Machine.execCaptureFilled capture s
  | .triggerHoldoffEnd capture entry => Sys2Proof.Machine.execTriggerHoldoffEnd capture entry s
  | .remoteTriggerRx f => Sys2Proof.Machine.execRemoteTriggerRx f s
  | .recordAssembled capture slot => Sys2Proof.Machine.execRecordAssembled capture slot s
  | .sageClockConfig h p => Sys2Proof.Machine.execSageClockConfig h p s
  | .sageChainConfig h p => Sys2Proof.Machine.execSageChainConfig h p s
  | .sageFirLoad h p => Sys2Proof.Machine.execSageFirLoad h p s
  | .sageFirSwitch h p => Sys2Proof.Machine.execSageFirSwitch h p s
  | .sageDcFreeze h p => Sys2Proof.Machine.execSageDcFreeze h p s
  | .sageDcRelease h p => Sys2Proof.Machine.execSageDcRelease h p s
  | .sageCal h p => Sys2Proof.Machine.execSageCal h p s
  | .sageTempTable h p => Sys2Proof.Machine.execSageTempTable h p s
  | .sageTempSource h p => Sys2Proof.Machine.execSageTempSource h p s
  | .sageTemp h p => Sys2Proof.Machine.execSageTemp h p s
  | .sagePmuAdd h p => Sys2Proof.Machine.execSagePmuAdd h p s
  | .sagePmuRetire h p => Sys2Proof.Machine.execSagePmuRetire h p s
  | .sagePmuSvWindow h p => Sys2Proof.Machine.execSagePmuSvWindow h p s
  | .sageOutputSample b => Sys2Proof.Machine.execSageOutputSample b s
  | .inputLost input => Sys2Proof.Machine.execInputLost input s
  | .inputRestored input => Sys2Proof.Machine.execInputRestored input s
  | .dcAcquireDone input => Sys2Proof.Machine.execDcAcquireDone input s
  | .settlingEnd mp => Sys2Proof.Machine.execSettlingEnd mp s
  | .fadeEnd mp => Sys2Proof.Machine.execFadeEnd mp s
  | .tempStaleExpiry input => Sys2Proof.Machine.execTempStaleExpiry input s
  | .localPmuReport mp => Sys2Proof.Machine.execLocalPmuReport mp s
  | .halfCycleInterval mp => Sys2Proof.Machine.execHalfCycleInterval mp s
  | .eqMpConfig h p => Sys2Proof.Machine.execEqMpConfig h p s
  | .eqRegConfig h p => Sys2Proof.Machine.execEqRegConfig h p s
  | .pulseConfig h p => Sys2Proof.Machine.execPulseConfig h p s
  | .eqSaveConfig h p => Sys2Proof.Machine.execEqSaveConfig h p s
  | .eqSeal h p => Sys2Proof.Machine.execEqSeal h p s
  | .eqSealDone => Sys2Proof.Machine.execEqSealDone s
  | .eqGapAck h p => Sys2Proof.Machine.execEqGapAck h p s
  | .accumulationCycleEnd mp => Sys2Proof.Machine.execAccumulationCycleEnd mp s
  | .pulseStart output => Sys2Proof.Machine.execPulseStart output s
  | .pulseEnd output => Sys2Proof.Machine.execPulseEnd output s
  | .energySave => Sys2Proof.Machine.execEnergySave s
  | .energySaveVerified ok => Sys2Proof.Machine.execEnergySaveVerified ok s
  | .voiceTdmConfig h p => Sys2Proof.Machine.execVoiceTdmConfig h p s
  | .voiceChOpen h p => Sys2Proof.Machine.execVoiceChOpen h p s
  | .voiceChModify h p => Sys2Proof.Machine.execVoiceChModify h p s
  | .voiceChStart h p => Sys2Proof.Machine.execVoiceChStart h p s
  | .voiceChStop h p => Sys2Proof.Machine.execVoiceChStop h p s
  | .ecReset h p => Sys2Proof.Machine.execEcReset h p s
  | .ecFreeze h p => Sys2Proof.Machine.execEcFreeze h p s
  | .ecUnfreeze h p => Sys2Proof.Machine.execEcUnfreeze h p s
  | .jitterResync h p => Sys2Proof.Machine.execJitterResync h p s
  | .announcementStop h p => Sys2Proof.Machine.execAnnouncementStop h p s
  | .voiceChClose h p => Sys2Proof.Machine.execVoiceChClose h p s
  | .voiceSrtpKey h p => Sys2Proof.Machine.execVoiceSrtpKey h p s
  | .voiceToneProfile h p => Sys2Proof.Machine.execVoiceToneProfile h p s
  | .voiceToneBind h p => Sys2Proof.Machine.execVoiceToneBind h p s
  | .voiceToneGen h p => Sys2Proof.Machine.execVoiceToneGen h p s
  | .voiceAnnLoad h p => Sys2Proof.Machine.execVoiceAnnLoad h p s
  | .voiceAnnLoaded ann data => Sys2Proof.Machine.execVoiceAnnLoaded ann data s
  | .voiceAnnMapSet h p => Sys2Proof.Machine.execVoiceAnnMapSet h p s
  | .voiceAnnMapRemove h p => Sys2Proof.Machine.execVoiceAnnMapRemove h p s
  | .voiceAnnPlay h p => Sys2Proof.Machine.execVoiceAnnPlay h p s
  | .voiceBlock b => Sys2Proof.Machine.execVoiceBlock b s
  | .rtpPacketRx p => Sys2Proof.Machine.execRtpPacketRx p s
  | .dtmfEventTimeout ch => Sys2Proof.Machine.execDtmfEventTimeout ch s
  | .rtcpTx ch => Sys2Proof.Machine.execRtcpTx ch s
  | .rtcpRx r => Sys2Proof.Machine.execRtcpRx r s
  | .voiceMediaTimeout ch => Sys2Proof.Machine.execVoiceMediaTimeout ch s
  | .hostVoiceBlock b => Sys2Proof.Machine.execHostVoiceBlock b s
  | .kernelLoad h p => Sys2Proof.Machine.execKernelLoad h p s
  | .kernelLoaded kernel bytes sig => Sys2Proof.Machine.execKernelLoaded kernel bytes sig s
  | .kernelBindAdd h p => Sys2Proof.Machine.execKernelBindAdd h p s
  | .kernelBindRemove h p => Sys2Proof.Machine.execKernelBindRemove h p s
  | .kernelStart h p => Sys2Proof.Machine.execKernelStart h p s
  | .kernelStop h p => Sys2Proof.Machine.execKernelStop h p s
  | .kernelStopped kernel => Sys2Proof.Machine.execKernelStopped kernel s
  | .kernelUnload h p => Sys2Proof.Machine.execKernelUnload h p s
  | .kernelInputMessage m => Sys2Proof.Machine.execKernelInputMessage m s
  | .dmac32 core b => Sys2Proof.Machine.execDmac32 core b s
  | .qmac16 core b => Sys2Proof.Machine.execQmac16 core b s
  | .mac32 core b => Sys2Proof.Machine.execMac32 core b s
  | .dmac16 core b => Sys2Proof.Machine.execDmac16 core b s
  | .msu core op b => Sys2Proof.Machine.execMsu core op b s
  | .tapmv core acc ix ov => Sys2Proof.Machine.execTapmv core acc ix ov s
  | .macr core acc a b sign ov => Sys2Proof.Machine.execMacr core acc a b sign ov s
  | .msur core acc a b sign ov => Sys2Proof.Machine.execMsur core acc a b sign ov s
  | .adda core dst src ov => Sys2Proof.Machine.execAdda core dst src ov s
  | .suba core dst src ov => Sys2Proof.Machine.execSuba core dst src ov s
  | .nega core acc ov => Sys2Proof.Machine.execNega core acc ov s
  | .absa core acc ov => Sys2Proof.Machine.execAbsa core acc ov s
  | .sha core acc left n ov => Sys2Proof.Machine.execSha core acc left n ov s
  | .clra core accs => Sys2Proof.Machine.execClra core accs s
  | .exp core d acc => Sys2Proof.Machine.execExp core d acc s
  | .expd core d a => Sys2Proof.Machine.execExpd core d a s
  | .norm core acc d ov => Sys2Proof.Machine.execNorm core acc d ov s
  | .sac core m acc shift rnd half => Sys2Proof.Machine.execSac core m acc shift rnd half s
  | .mva core d acc shift rnd half => Sys2Proof.Machine.execMva core d acc shift rnd half s
  | .add core d a b => Sys2Proof.Machine.execAdd core d a b s
  | .sub core d a b => Sys2Proof.Machine.execSub core d a b s
  | .addi core d a imm => Sys2Proof.Machine.execAddi core d a imm s
  | .andD core d a b => Sys2Proof.Machine.execAndD core d a b s
  | .orD core d a b => Sys2Proof.Machine.execOrD core d a b s
  | .xorD core d a b => Sys2Proof.Machine.execXorD core d a b s
  | .notD core d a => Sys2Proof.Machine.execNotD core d a s
  | .shl core d a b => Sys2Proof.Machine.execShl core d a b s
  | .shr core d a b => Sys2Proof.Machine.execShr core d a b s
  | .sar core d a b => Sys2Proof.Machine.execSar core d a b s
  | .rot core d a b => Sys2Proof.Machine.execRot core d a b s
  | .min core d a b => Sys2Proof.Machine.execMin core d a b s
  | .max core d a b => Sys2Proof.Machine.execMax core d a b s
  | .abs core d a => Sys2Proof.Machine.execAbs core d a s
  | .cmp core a b => Sys2Proof.Machine.execCmp core a b s
  | .sel core cond d a b => Sys2Proof.Machine.execSel core cond d a b s
  | .mul core d a b => Sys2Proof.Machine.execMul core d a b s
  | .mulh core d a b => Sys2Proof.Machine.execMulh core d a b s
  | .divs core d a b => Sys2Proof.Machine.execDivs core d a b s
  | .fadd core d a b => Sys2Proof.Machine.execFadd core d a b s
  | .fsub core d a b => Sys2Proof.Machine.execFsub core d a b s
  | .fmul core d a b => Sys2Proof.Machine.execFmul core d a b s
  | .fma core d a b c => Sys2Proof.Machine.execFma core d a b c s
  | .fmin core d a b => Sys2Proof.Machine.execFmin core d a b s
  | .fmax core d a b => Sys2Proof.Machine.execFmax core d a b s
  | .fabs core d a => Sys2Proof.Machine.execFabs core d a s
  | .fneg core d a => Sys2Proof.Machine.execFneg core d a s
  | .fcmp core a b => Sys2Proof.Machine.execFcmp core a b s
  | .fcvt core k d a => Sys2Proof.Machine.execFcvt core k d a s
  | .frcp core d a => Sys2Proof.Machine.execFrcp core d a s
  | .frsq core d a => Sys2Proof.Machine.execFrsq core d a s
  | .ld core d sz signed m => Sys2Proof.Machine.execLd core d sz signed m s
  | .st core m d sz => Sys2Proof.Machine.execSt core m d sz s
  | .ld64 core d m => Sys2Proof.Machine.execLd64 core d m s
  | .st64 core m d => Sys2Proof.Machine.execSt64 core m d s
  | .ldc core d m conflicts => Sys2Proof.Machine.execLdc core d m conflicts s
  | .stc core m d conflicts => Sys2Proof.Machine.execStc core m d conflicts s
  | .movi core r imm => Sys2Proof.Machine.execMovi core r imm s
  | .modi core ix step => Sys2Proof.Machine.execModi core ix step s
  | .mov core dst src => Sys2Proof.Machine.execMov core dst src s
  | .b core target => Sys2Proof.Machine.execB core target s
  | .bcc core cond target => Sys2Proof.Machine.execBcc core cond target s
  | .call core target => Sys2Proof.Machine.execCall core target s
  | .ret core => Sys2Proof.Machine.execRet core s
  | .loop core count last => Sys2Proof.Machine.execLoop core count last s
  | .rep core count => Sys2Proof.Machine.execRep core count s
  | .dmaq core op => Sys2Proof.Machine.execDmaq core op s
  | .outq core binding localAddr bytes => Sys2Proof.Machine.execOutq core binding localAddr bytes s
  | .waitd core n => Sys2Proof.Machine.execWaitd core n s
  | .dmaTransferDone core => Sys2Proof.Machine.execDmaTransferDone core s
  | .mvccr core d => Sys2Proof.Machine.execMvccr core d s
  | .nop core => Sys2Proof.Machine.execNop core s
  | .done core => Sys2Proof.Machine.execDone core s
  | .budgetFault core => Sys2Proof.Machine.execBudgetFault core s
  | .yarrowConfig h p => Sys2Proof.Machine.execYarrowConfig h p s
  | .yarrowLoadBind h p => Sys2Proof.Machine.execYarrowLoadBind h p s
  | .taskDispatch => Sys2Proof.Machine.execTaskDispatch s
  | .delayExpiry => Sys2Proof.Machine.execDelayExpiry s
  | .loadWindowEnd => Sys2Proof.Machine.execLoadWindowEnd s
  | .placementEvaluation v => Sys2Proof.Machine.execPlacementEvaluation v s
  | .cfXcvrProfile h p => Sys2Proof.Machine.execCfXcvrProfile h p s
  | .cfConfig h p => Sys2Proof.Machine.execCfConfig h p s
  | .cfChannelMap h p => Sys2Proof.Machine.execCfChannelMap h p s
  | .cfNodeAdd h p => Sys2Proof.Machine.execCfNodeAdd h p s
  | .cfNodeRemove h p => Sys2Proof.Machine.execCfNodeRemove h p s
  | .cfNodeKey h p => Sys2Proof.Machine.execCfNodeKey h p s
  | .cfNodeStreamMap h p => Sys2Proof.Machine.execCfNodeStreamMap h p s
  | .cfNodeStreamUnmap h p => Sys2Proof.Machine.execCfNodeStreamUnmap h p s
  | .cfOutputBind h p => Sys2Proof.Machine.execCfOutputBind h p s
  | .cfSend h p => Sys2Proof.Machine.execCfSend h p s
  | .cfResetWaitEnd status => Sys2Proof.Machine.execCfResetWaitEnd status s
  | .cfStartupRetry => Sys2Proof.Machine.execCfStartupRetry s
  | .cfIrqTimeout => Sys2Proof.Machine.execCfIrqTimeout s
  | .superframePlanning => Sys2Proof.Machine.execSuperframePlanning s
  | .beaconStatusCheck status => Sys2Proof.Machine.execBeaconStatusCheck status s
  | .superframeStart => Sys2Proof.Machine.execSuperframeStart s
  | .slotPoll node => Sys2Proof.Machine.execSlotPoll node s
  | .cfIrq k => Sys2Proof.Machine.execCfIrq k s
  | .responseRx r => Sys2Proof.Machine.execResponseRx r s
  | .beaconTxTimeout => Sys2Proof.Machine.execBeaconTxTimeout s
  | .slotEnd node => Sys2Proof.Machine.execSlotEnd node s
  | .nodeSupervisionTimeout node => Sys2Proof.Machine.execNodeSupervisionTimeout node s
  | .dillConfig h p => Sys2Proof.Machine.execDillConfig h p s
  | .dillJobOpen h p => Sys2Proof.Machine.execDillJobOpen h p s
  | .dillJobClose h p => Sys2Proof.Machine.execDillJobClose h p s
  | .dillJobFreed job => Sys2Proof.Machine.execDillJobFreed job s
  | .dillSegment seg => Sys2Proof.Machine.execDillSegment seg s
  | .dillJobSwitch decomp => Sys2Proof.Machine.execDillJobSwitch decomp s
  | .poppyCursorAbsolute h p => Sys2Proof.Machine.execPoppyCursorAbsolute h p s
  | .poppyCursorRelative h p => Sys2Proof.Machine.execPoppyCursorRelative h p s
  | .poppyCursorFirstKept h p => Sys2Proof.Machine.execPoppyCursorFirstKept h p s
  | .poppyCursorOldestCirc h p => Sys2Proof.Machine.execPoppyCursorOldestCirc h p s
  | .poppyCursorLatest h p => Sys2Proof.Machine.execPoppyCursorLatest h p s
  | .poppyRateSet h p => Sys2Proof.Machine.execPoppyRateSet h p s
  | .poppyRateRemove h p => Sys2Proof.Machine.execPoppyRateRemove h p s
  | .otpWrite h p => Sys2Proof.Machine.execOtpWrite h p s
  | .otpWriteDone ok => Sys2Proof.Machine.execOtpWriteDone ok s
  | .flashImageWrite h p => Sys2Proof.Machine.execFlashImageWrite h p s
  | .flashImageWritten img => Sys2Proof.Machine.execFlashImageWritten img s
  | .flashConfig h p => Sys2Proof.Machine.execFlashConfig h p s
  | .rateLimitRefill code => Sys2Proof.Machine.execRateLimitRefill code s
  | .flushPeriodic => Sys2Proof.Machine.execFlushPeriodic s
  | .flushStart => Sys2Proof.Machine.execFlushStart s
  | .flushDone ok => Sys2Proof.Machine.execFlushDone ok s
  | .opTimeLogWrite => Sys2Proof.Machine.execOpTimeLogWrite s
  | .undefinedOpcode h opcode => Sys2Proof.Machine.execUndefinedOpcode h opcode s
  | .carrierSenseDrop port => Sys2Proof.Machine.execCarrierSenseDrop port s
  | .jtagTck e => Sys2Proof.Machine.execJtagTck e s

end Sys2Proof.Machine
end

