-- ==== Sys2Proof/Machine/ApertureBase.lean ====
section
/-!
DEFINITION. What the aperture shows of groups 0x01, 0x02, 0x03 and 0x11 (Tables 2.13 to 2.15, 3.7, 3.8, 17.1, 17.8, 17.9 and 18.6), and how
words and entries of any group are read: fields packed into 64-bit words, and entries as bytes, least significant byte first (R9).
-/

namespace Sys2Proof.Machine

/-- The number that fields spell, each a width and a value, lowest first. A reserved field has the value 0 (R10). -/
def pack : List (Nat × Nat) → Nat
  | [] => 0
  | (w, v) :: t => v % 2 ^ w + 2 ^ w * pack t

def bit (b : Bool) : Nat × Nat := (1, if b then 1 else 0)

/-- A field of w bits that holds an integer in two's complement. -/
def sfield (w : Nat) (i : Int) : Nat × Nat := (w, (i % (2 ^ w : Int)).toNat)

/-- The 64-bit word at an offset of a structure. -/
def wordAt (b : Bytes) (off : Nat) : Nat := leNat ((b.drop off).take 8)

/-- The entry of an array that an offset lies in, and the offset within it. -/
def arrayAt (off base stride count : Nat) : Option (Nat × Nat) :=
  if base ≤ off ∧ off < base + stride * count then some ((off - base) / stride, (off - base) % stride) else none

/-- A counter of a group that the counters table holds (R12). -/
def groupCnt (s : State) (g off : Nat) : Nat := cntGet s (g * 0x1000000 + off)

/-- 0xFF, or a number below it. -/
def orFF (v : Option Nat) : Nat := v.getD 0xFF

/-- 0xFFFF_FFFF, or a number below it. -/
def orFF4 (v : Option Nat) : Nat := v.getD 0xFFFFFFFF

/-! ### Group 0x01 (Table 18.6) -/

def Boot.num : Boot → Nat
  | .reset => 0
  | .booting => 1
  | .ready => 2
  | .halted => 3

def aperture01 (s : State) (off : Nat) : Nat :=
  let d := s.dev
  match off with
  | 0x00 => pack [(4, d.boot.num), (4, d.stage), (8, d.haltCode.toNat), (4, d.cause.num), bit d.imageB, bit d.fallback, bit d.pfailWait,
                  bit (recovering s)]
  | 0x08 => d.bootMs.toNat
  | 0x18 => d.readyTs.toNat
  | 0x20 => pack [(32, d.dramMib.toNat), (4, d.otpBootGen.toNat), (4, d.otpSealGen.toNat), (4, d.otpDefGen.toNat)]
  | 0x40 => pack [(32, tgetD d.stageMs 1 0), (32, tgetD d.stageMs 2 0)]
  | 0x48 => pack [(32, tgetD d.stageMs 3 0), (32, tgetD d.stageMs 4 0)]
  | 0x50 => pack [(32, tgetD d.stageMs 5 0), (32, tgetD d.stageMs 6 0)]
  | _ => groupCnt s 0x01 off

/-! ### Group 0x02 (Tables 2.13 to 2.15) -/

/-- PSTATE of a partition, which STATUS mirrors (Table 2.14); a partition without a link reads OUT (R33). -/
def pstateWord (s : State) (p : HP) : Nat :=
  let q := getPart s p
  pack [(4, s.dev.boot.num), (3, q.pstate.num), bit q.link, (8, q.claim.toNat), bit (isCtrl s p), bit s.host.controller.isNone, bit q.v,
        bit (effP q), bit q.hbpFitted]

def aperture02 (s : State) (off : Nat) : Nat :=
  if off = 0 then
    pack [(2, s.host.controller.elim 0 (·.val)), bit s.host.controller.isNone, (5, 0), (8, (claimOf s s.host.controller).toNat),
          (16, s.host.changes.toNat), (16, s.host.failMs.toNat), (16, s.host.holdoffMs.toNat)]
  else match arrayAt off 0x100 0x100 4 with
    | some (n, o) =>
      let q := getPart s (Fin.ofNat 4 n)
      let u := q.quota
      match o with
      | 0x00 => pstateWord s (Fin.ofNat 4 n)
      | 0x08 => q.lastV.toNat
      | 0x10 => q.lastP.toNat
      | 0x18 => pack [(32, u.streams), (32, u.channels)]
      | 0x20 => pack [(32, u.voiceSlots), (32, u.publications)]
      | 0x28 => pack [(32, u.dmaRings), (32, u.captureRings)]
      | 0x30 => u.userCores % 2 ^ 32
      | _ => groupCnt s 0x02 off
    | none => 0

/-! ### Group 0x03 (Tables 3.7 and 3.8) -/

def GaState.num : GaState → Nat
  | .nominal => 0
  | .acquiring => 1
  | .locked => 2

def aperture03 (s : State) (off : Nat) : Nat :=
  let c := s.clk
  let (q, st, err) := tqCodes s
  match off with
  | 0x00 => pack [(3, c.state.num), bit c.timeValid, bit c.everLocked, (3, c.source.num), (4, q), (3, st), (2, unlockedBits s), bit err,
                  bit c.leapPending, bit c.leapOccurred, bit c.leapDir, bit c.freqLimit, bit c.slavePort, (9, 0), (32, c.stateChanges.toNat)]
  | 0x08 => pack [(30, c.ns.toNat), (34, c.sec.toNat)]
  | 0x18 => c.sec.toNat
  | 0x20 => pack [(16, c.frac.toNat / 2 ^ 16), (30, c.ns.toNat), (18, c.sec.toNat)]
  | 0x28 => c.incrApplied.toNat
  | 0x30 => c.incrTarget.toNat
  | 0x38 => c.incrFreq.toNat
  | 0x40 => pack [sfield 32 c.offset, (32, c.pathDelay.toNat)]
  | 0x48 => pack [(10, c.slewPpm), (22, 0), (32, c.alertUs)]
  | 0x50 => pack [sfield 16 c.utcOffset, bit c.ptpUtcValid]
  | 0x58 => pack [(3, c.srcEn.toNat), bit c.pair, (8, c.domain.toNat), (8, c.classLimit.toNat), (10, c.srcHoldoff), (2, 0), (8, c.fMaster.toNat)]
  | 0x60 => pack [(16, c.holdPpb), (16, c.e0Ns)]
  | 0x68 => c.holdStart.toNat
  | 0x70 => c.gmId.toNat
  | 0x78 => pack [(8, c.gmClass.toNat), (8, c.gmAccuracy.toNat), (16, c.gmVariance.toNat), (16, c.stepsRemoved.toNat), (4, c.portA.toNat),
                  (4, c.portB.toNat)]
  | 0x80 => pack [(2, c.gaState.num), bit (decide (c.gaState = .nominal)), (4, c.gaRefMp), bit c.gaRefEn, bit c.gaFNom60, (7, 0), (8, c.gaSlew)]
  | 0x88 => c.gaCount.toNat
  | 0x90 => pack [(32, c.gaFreq), sfield 16 c.gaPhaseErr]
  | 0x98 => c.gaLastTs.toNat
  | 0xA0 => pack [bit c.ppsOutEn, (5, 0), (10, c.widthMs)]
  | 0xA8 => c.ppsLast.toNat
  | _ => groupCnt s 0x03 off

/-! ### Group 0x11 (Tables 17.1, 17.8 and 17.9, R439, R451) -/

/-- A Poppy record with its CRC (Table 17.1). -/
def Rec.bytes (r : Rec) : Bytes :=
  let b := leBytes 2 r.code.toNat ++ [BitVec.ofNat 8 (pack [(2, r.severity.toNat), bit r.timeValid, bit r.trunc])] ++ leBytes 3 r.powerCycles ++
    leBytes 2 r.opSec ++ leBytes 4 r.opHours ++ leBytes 6 r.taiMs ++ r.params
  b ++ leBytes 2 (crcCcitt b)

/-- The record of a number as a read finds it: buffered, or in flash and not lost behind OLDEST_CIRC (R439). -/
def recordAt (s : State) (n : Nat) : Option Rec :=
  match s.pop.buffer.find? (fun r => decide (r.num = n)) with
  | some r => some r
  | none => if n < 32768 then tget s.pop.kept n else if n < s.pop.oldestCirc then none else tget s.pop.circ n

/-- A generation as OTP holds it (R444), in a slot of some bytes. -/
def OtpGen.bytes (size : Nat) (g : OtpGen) : Bytes :=
  let crc := if g.content = [] then 0 else crcCcitt g.content
  ([BitVec.ofNat 8 (pack [bit g.written, bit g.superseded]), BitVec.ofNat 8 g.gen] ++ leBytes 2 crc ++ g.content ++ List.replicate size 0).take size

/-- The OTP image (Table 17.4); a slot not used reads zero, and the factory area is what Sirbex wrote. -/
def otpByteAt (s : State) (off : Nat) : Byte :=
  let slot (t : Tbl OtpGen) (size o : Nat) : Byte := (tget t (o / size)).elim 0 (fun g => (OtpGen.bytes size g).getD (o % size) 0)
  if off < 0x100 then Config.factoryArea off
  else if off < 0x400 then slot s.pop.otpBoot 192 (off - 0x100)
  else if off < 0x600 then slot s.pop.otpSeal 128 (off - 0x400)
  else slot s.pop.otpDef 128 (off - 0x600)

def aperture11 (s : State) (off : Nat) : Nat :=
  let p := s.pop
  match off with
  | 0x00 => p.nextRec
  | 0x08 => p.oldestCirc
  | 0x10 => p.satsum.toNat
  | 0x18 => pack [(11, p.buffer.length), (11, p.bufHwm), bit p.flushing, bit p.keptFull]
  | 0x20 => pack [(32, opHours s), (16, opSeconds s % 3600)]
  | 0x28 => pack [(24, p.powerCycles), (8, 0), (16, p.flashMib.toNat)]
  | 0x30 => pack [(16, p.defRate), (16, p.defBurst)]
  | 0x38 => p.lastFlushTs.toNat
  | 0x40 => pack [(32, p.endurance), (8, p.wearPct)]
  | _ =>
    match arrayAt off 0x10000 0x1000 4, arrayAt off 0x20000 8 64, arrayAt off 0x30000 8 256, arrayAt off 0x40000 0x10 11 with
    | some (n, o), _, _, _ =>
      let first := p.winFirst.get (Fin.ofNat 4 n)
      if o = 0 then first
      else match arrayAt o 0x100 32 64 with
        | some (i, b) => (recordAt s (first + i)).elim 0 (fun r => wordAt r.bytes b)
        | none => 0
    | none, some (n, _), _, _ =>
      match tget p.overrides n with
      | some v => pack [(16, v.code.toNat), (16, v.rate), (16, v.burst), (8, 1)]
      | none => 0
    | none, none, some (w, _), _ => leNat ((List.range 8).map (fun k => otpByteAt s (8 * w + k)))
    | none, none, none, some (r, o) =>
      let (b, n) := regionOf r
      if o = 0 then pack [(32, b * 65536), (32, n * 65536)] else regionMax s r % 2 ^ 32
    | none, none, none, none => groupCnt s 0x11 off

end Sys2Proof.Machine
end

