-- ==== Sys2Proof/Machine/ApertureNet.lean ====
section
/-!
DEFINITION. What the aperture shows of groups 0x04 and 0x05 (Tables 4.9 to 4.11, R130, Tables 5.6, 5.7 and 5.11 to 5.13).
-/

namespace Sys2Proof.Machine

/-! ### Group 0x04 -/

/-- The registers and queues of a port (Table 4.9, R130). -/
def portWord (s : State) (k off : Nat) : Nat :=
  let p := getPort s k
  match off with
  | 0x00 => pack [bit p.enable, (3, p.speed.toNat), (2, p.fec.toNat), bit p.rgmiiId, (1, 0), (14, p.maxFrame), (10, 0), (16, p.rxLatNs.toNat),
                  (16, p.txLatNs.toNat)]
  | 0x08 => pack [(8, p.thrC3), (8, p.thrC2), (8, p.thrC1)]
  | 0x10 => pack [bit p.link, (3, p.speedAct.toNat), bit p.halfDuplex, bit p.pressure, (2, 0), (8, occPct p), (8, p.occHwm),
                  (9, p.lq.length), (7, p.tsq.length)]
  | 0x18 => p.lq.head?.elim 0 (·.launch)
  | 0x20 => (portMac s k).toNat
  | _ =>
    match arrayAt off 0x1000 16 256, arrayAt off 0x2000 16 64 with
    | some (n, o), _ =>
      match p.lq[n]? with
      | none => 0
      | some e =>
        if o = 0 then e.launch
        else
          let f := getFrame s e.ref
          pack [(8, e.cls.num), (8, if f.elim false (·.pair) then 1 else 0), (16, f.elim 0 (·.len))]
    | none, some (n, o) =>
      match p.tsq[n]? with
      | none => 0
      | some e =>
        let ts := (getFrame s e.ref).elim 0 (fun f => if f.pair ∧ k = f.port + 1 then f.stampB else f.stampA)
        if o = 0 then ts / 65536 else pack [(16, ts % 65536), (16, (Config.tsOwner e.ref).toNat)]
    | none, none => cntGet s (0x04000000 + k * 0x4000 + off)

/-- The registers of a pair (Table 4.11). -/
def pairWord (s : State) (pr off : Nat) : Nat :=
  let p := getPair2 s pr
  match off with
  | 0x00 => pack [(16, p.forgetMs), (16, p.skewAlertMs), (16, p.lanSilenceMs)]
  | 0x08 => pack [(16, p.txSeq.toNat), bit p.lanAOk, bit p.lanBOk, (6, p.dupDMax), (8, 0), (32, p.skewLastUs)]
  | 0x10 => p.skewMaxUs % 2 ^ 32
  | _ => cntGet s (pairCnt pr off)

def aperture04 (s : State) (off : Nat) : Nat :=
  match arrayAt off 0 0x4000 13, arrayAt off 0x40000 0x100 2, arrayAt off 0x50000 32 8192 with
  | some (k, o), _, _ => portWord s k o
  | none, some (pr, o), _ => pairWord s pr o
  | none, none, some (n, o) =>
    match s.net.unknown[n]? with
    | some (key, e) =>
      leNat ((List.range 8).map (fun i => Config.srcEntry (key / 2) (key % 2) e.hi e.map e.dupMax (e.lastEl / 1000000) (o + i)))
    | none => 0
  | none, none, none => 0

/-! ### Group 0x05 -/

def StState.num : StState → Nat
  | .awaitCfg => 1
  | .active => 2
  | .paused => 3
  | .retiring => 4

/-- A directory entry (Table 5.6). -/
def dirEntry (h : Nat) (v : Stream) : Nat :=
  pack [(18, h), (2, 1), (12, v.tag), bit v.rctSeen, bit v.rctPair, (16, v.prpHi.toNat), (16, v.prpMap.toNat), (22, v.latQ), (8, v.latN),
        (23, v.chanBase)]

/-- The directory entry in a slot, of the stash or of the directory. -/
def dirSlot (s : State) (stash : Bool) (n : Nat) : Nat :=
  match tfind (fun _ v => decide (v.inStash = stash ∧ v.slot = n)) s.ing.streams with
  | some (h, v) => dirEntry h v
  | none => 0

/-- A stream record (Table 5.13). -/
def streamBytes (v : Stream) : Bytes :=
  let a := v.active
  leBytes 2 v.key.idcode.toNat ++ [v.key.transport, BitVec.ofNat 8 v.state.num] ++ leBytes 16 v.key.srcAddr.toNat ++
  leBytes 2 v.key.srcPort.toNat ++ leBytes 2 v.key.dstPort.toNat ++
  [BitVec.ofNat 8 v.port, BitVec.ofNat 8 v.level, BitVec.ofNat 8 v.owner.val,
   BitVec.ofNat 8 (pack [bit v.auto, bit v.pending.isSome, bit v.linkUp, bit v.silent])] ++
  leBytes 2 v.maxChannels ++ leBytes 2 (nChans v) ++ leInt 2 (a.elim (v.svRate : Int) (·.dataRate)) ++ leBytes 2 (a.elim 0 (·.cfgCnt.toNat)) ++
  leBytes 2 (v.pending.elim 0xFFFF (·.cfgCnt.toNat)) ++ [0, 0] ++ leBytes 4 (a.elim 0 (·.timeBase)) ++ leBytes 4 v.chanBase ++
  leBytes 8 v.lastTag ++ leBytes 4 v.latLastUs ++ leBytes 4 v.latMaxUs ++ leBytes 8 v.frames ++ leBytes 8 v.dupDiscard ++
  leBytes 8 v.malformed ++ leBytes 8 v.chkErr ++ leBytes 8 v.noCfg ++ leBytes 8 v.offGrid ++ leBytes 8 v.poisoned ++ leBytes 8 v.cfgRx

/-- A channel descriptor (Table 5.7). -/
def descBytes (d : ChanDesc) : Bytes :=
  [BitVec.ofNat 8 d.kind, BitVec.ofNat 8 (pack [bit d.float, bit d.polar, (2, 0), (4, d.cfgGen.toNat)])] ++ leBytes 2 d.pos ++ leBytes 2 d.block ++
  [if d.fnom50 then 1 else 0, 0] ++ leBytes 4 (f32ofQ d.scale).toNat ++ leBytes 4 (f32ofQ d.offset).toNat

/-- The first entry that a window of a partition shows. -/
def windowFirst (s : State) (p : HP) (g t : Nat) : Nat := tgetD (getPart s p).windows (g * 256 + t) 0

/-- The table that a window of groups 0x06 and 0x09 shows. -/
def windowTable (s : State) (p : HP) (g : Nat) : Nat := (tfind (fun k _ => decide (k / 256 = g)) (getPart s p).windows).elim 0 (fun e => e.1 % 256)

def aperture05 (s : State) (p : HP) (off : Nat) : Nat :=
  let i := (rollSecond s).ing
  match off with
  | 0x00 => pack [(6, i.ctP), (2, 0), (6, i.ctF), (2, 0), (6, i.ctM), (2, 0), (6, i.ctDma), (2, 0), (16, i.silenceMs)]
  | 0x08 => pack [(19, i.streams.length), (9, stashUsed s), bit i.rebuilding, (3, 0), (16, i.hashGen.toNat)]
  | 0x18 => pack [(23, i.streams.foldl (fun n e => n + e.2.maxChannels) 0), (9, 0),
                  (23, i.streams.foldl (fun n e => n + (e.2.descs.filter (fun d => decide (d.kind ≠ 0))).length) 0)]
  | 0x20 => pack [(32, i.frames1s), (32, i.reports1s)]
  | _ =>
    match arrayAt off 0x10000 16 256, arrayAt off 0x400000 16 262144, arrayAt off 0x800000 128 32768, arrayAt off 0xC00000 16 262144 with
    | some (n, o), _, _, _ => dirSlot s true n / 2 ^ (8 * o) % 2 ^ 64
    | none, some (n, o), _, _ => dirSlot s false n / 2 ^ (8 * o) % 2 ^ 64
    | none, none, some (n, o), _ =>
      match getStream s (windowFirst s p 5 0 + n) with
      | some v => wordAt (streamBytes v) o
      | none => 0
    | none, none, none, some (n, o) =>
      match chanDesc s (windowFirst s p 5 1 + n) with
      | some d => wordAt (descBytes d) o
      | none => 0
    | none, none, none, none => groupCnt s 5 off

end Sys2Proof.Machine
end

