-- ==== Sys2Proof/Machine/ApertureGrid.lean ====
section
/-!
DEFINITION. What the aperture shows of groups 0x06, 0x07 and 0x08 (Tables 6.10 to 6.13, 7.2, 7.8 to 7.12 and 8.9 to 8.13; R181, R203, R233).
-/

namespace Sys2Proof.Machine

/-! ### Group 0x06 -/

/-- The registers of a grid (Table 6.10). -/
def gridWord (s : State) (g off : Nat) : Nat :=
  let v := getGrid s g
  match off with
  | 0x00 => pack [(16, rateOfGrid g), bit v.active, (15, 0), (32, periodNs (rateOfGrid g))]
  | 0x08 => pack [(13, v.cfg.windowMs), (3, 0), (12, v.cfg.maxWaitMs), (4, 0), (16, v.cfg.marginUs), (7, v.cfg.spec16), (1, 0), (6, v.cfg.predK)]
  | 0x10 => pack [(17, v.cfg.patchGapUs), (15, 0), (19, (onGrid s g).length)]
  | 0x18 => pack [(23, cellsOf s g), (9, 0), (10, slotsOf (rateOfGrid g) v.cfg.windowMs)]
  | 0x20 => v.newestTag
  | 0x28 => v.lastSpecTs
  | 0x30 => v.lastFinalTs
  | 0x38 => pack [(32, v.finalLagUs), (32, v.finalLagMaxUs)]
  | _ => cntGet s (0x06001000 + g * 0x100 + off)

/-- A publication record (Table 6.11). -/
def pubBytes (p : Pub) : Bytes :=
  [if p.host then 1 else 0, BitVec.ofNat 8 p.grid, BitVec.ofNat 8 p.state.num, BitVec.ofNat 8 p.owner.val] ++ leBytes 2 p.idcode.toNat ++
  [BitVec.ofNat 8 p.target, BitVec.ofNat 8 p.ring, p.options, BitVec.ofNat 8 p.level] ++ leBytes 2 p.members.length ++ leBytes 4 p.offsetUs ++
  leBytes 16 p.dstAddr.toNat ++ leBytes 2 p.dstPort.toNat ++ leBytes 2 p.srcPort.toNat ++ leBytes 2 p.cfgCnt.toNat ++ [0, 0] ++
  leBytes 4 p.frameBytes ++ [0, 0, 0, 0] ++ leBytes 8 p.lastTag ++ leBytes 8 p.lastLaunch ++ leBytes 8 p.frames ++ leBytes 8 p.incomplete ++
  leBytes 8 p.skipped ++ leBytes 8 p.patchRecs ++ leBytes 8 p.latePatch

def SlabState.num : SlabState → Nat
  | .forming => 1
  | .speculative => 2
  | .final => 3
  | .history => 4

/-- A slot header (Table 6.12). -/
def slotBytes (tag : Nat) (v : Slab) : Bytes :=
  leBytes 8 tag ++ [BitVec.ofNat 8 v.state.num, BitVec.ofNat 8 v.cause.num, 0, 0] ++ leBytes 4 v.expected.length ++
  leBytes 4 (v.present.filter (fun h => (tget v.expected h).isSome)).length ++ leBytes 4 v.filled ++ leBytes 4 v.late ++ leBytes 4 v.patches ++
  leBytes 8 v.openTs ++ leBytes 8 v.specTs ++ leBytes 8 v.finalTs ++ leBytes 8 v.lastPatchTs

/-- The slab in a slot of a grid's ring (R159). -/
def slabIn (s : State) (g slot : Nat) : Option (Nat × Slab) := tfind (fun _ v => decide (v.slot = slot)) (getGrid s g).slabs

/-- A stream alignment record (Table 6.13); a stream on no grid has grid 0xFF. -/
def alnBytes (s : State) (h : Nat) : Bytes :=
  match tget s.aln.streams h with
  | none => [0xFF]
  | some a =>
    [BitVec.ofNat 8 a.grid, BitVec.ofNat 8 (pack [bit ((getStream s h).elim false (fun v => decide (16 ≤ v.latN))), bit a.capped, bit (!a.placed)]), 0, 0] ++
    leBytes 4 a.cellBase ++ leBytes 4 a.dUs ++ leBytes 4 ((List.range 1024).filter (fun i => a.lateMap.getLsbD i)).length

/-- The cell of a slot, as the cell window shows it. -/
def ringCell (s : State) (g slot cell : Nat) : Cell :=
  match slabIn s g slot, (onGrid s g).find? (fun e => decide ((cellSpan s e).1 ≤ cell ∧ cell < (cellSpan s e).2)) with
  | some (tag, v), some (h, a) => ((slabCell v h (cell - a.cellBase)).map (fun c => c.cell)).getD (staleCell h tag (cell - a.cellBase))
  | _, _ => staleCell g slot cell

def aperture06 (s : State) (p : HP) (off : Nat) : Nat :=
  match off with
  | 0x00 => pack [(32, s.aln.poolMib), (32, poolBytes s / 2 ^ 20)]
  | 0x08 => pack [(8, s.aln.usedHwm)]
  | 0x10 => 0
  | _ =>
    if off < 0x1000 then groupCnt s 6 off
    else if off < 0x2400 then gridWord s ((off - 0x1000) / 0x100) (off % 0x100)
    else if off < 0x20000 then
      match arrayAt off 0x10000 128 256 with
      | some (n, o) => (getPub s n).elim 0 (fun v => wordAt (pubBytes v) o)
      | none => 0
    else if off < 0x120000 then
      match arrayAt off 0x20000 0x1000 256 with
      | some (n, o) => (getPub s n).elim 0 (fun v => pack [(32, lget v.members (o / 4) 0), (32, lget v.members (o / 4 + 1) 0)])
      | none => 0
    else match arrayAt off 0x140000 0x10000 20, arrayAt off 0x300000 16 262144, arrayAt off 0x800000 8 1048576 with
      | some (g, o), _, _ => (slabIn s g (o / 64)).elim 0 (fun e => wordAt (slotBytes e.1 e.2) (o % 64))
      | none, some (h, o), _ => wordAt (alnBytes s h) o
      | none, none, some (i, _) =>
        let g := windowTable s p 6
        let n := max 1 (cellsOf s g)
        let k := windowFirst s p 6 g + i
        leNat (ringCell s g (k / n) (k % n)).bytes
      | none, none, none => 0

/-! ### Group 0x07 -/

def SlotState.num : SlotState → Nat
  | .active => 1
  | .hold => 2

def CondState.num : CondState → Nat
  | .clear => 0
  | .pending => 1
  | .active => 2
  | .clearing => 3

def ModeClass.num : ModeClass → Nat
  | .undetermined => 0
  | .free => 1
  | .forced => 2

/-- An estimator record (Table 7.10). -/
def slotRecBytes (n : Nat) (v : EstSlot) : Bytes :=
  estRecord n v v.lastTag ++ [BitVec.ofNat 8 v.state.num, BitVec.ofNat 8 v.ampAlarm.num, BitVec.ofNat 8 v.grid] ++ List.replicate 5 0 ++
  leBytes 8 v.assignedTs ++ leBytes 8 v.convergedTs ++ leBytes 8 v.ampSince ++ leBytes 8 v.holdSince ++ leBytes 8 v.steps ++ leBytes 8 v.skipped

/-- A mode record (Table 7.11). -/
def modeBytes (m : Mode) : Bytes :=
  [1, BitVec.ofNat 8 m.cls.num, BitVec.ofNat 8 m.grid, BitVec.ofNat 8 m.damp.num, BitVec.ofNat 8 m.forced.num, 0] ++ leBytes 2 m.members.length ++
  leBytes 2 m.refSlot ++ leBytes 2 (m.sourceBranch.getD 0xFFFF) ++ leBytes 4 m.f.toNat ++ leBytes 4 m.zeta.toNat ++ leBytes 4 m.fSd.toNat ++
  leBytes 4 m.zetaSd.toNat ++ [0, 0, 0, 0] ++ leBytes 8 m.firstTs ++ leBytes 8 m.classSince ++ leBytes 8 m.dampSince ++ leBytes 8 m.forcedSince ++
  leBytes 8 m.lastTs

/-- A branch record (Table 7.12). -/
def branchBytes (b : Branch) : Bytes :=
  leBytes 4 b.vChan ++ leBytes 4 b.iChan ++ [if b.mode = none then 1 else 2] ++ leInt 1 b.dir ++ leBytes 2 (b.mode.getD 0xFFFF) ++
  leBytes 4 b.defW.toNat ++ leBytes 8 b.lastTs ++ [BitVec.ofNat 8 b.part.val]

def aperture07 (s : State) (p : HP) (off : Nat) : Nat :=
  let o := s.osc.set
  match off with
  | 0x00 => pack [(8, o.thrOnDb), (8, o.thrOffDb), (4, o.baseShift), (4, 0), (10, o.warmS), (6, o.bandMask.toNat)]
  | 0x08 => pack [(32, o.floorF), (32, o.floorRocof)]
  | 0x10 => pack [(32, o.floorRel)]
  | 0x18 => pack [(8, o.swapDb), (10, o.holdS), (7, o.windowS), (7, 0), (8, o.zetaSdMax), (5, o.convCycles), (3, 0), (8, o.groupDf), (8, o.groupDzeta)]
  | 0x20 => pack [(8, orFF (tget s.osc.outRing 0)), (8, s.osc.outDiv.get 0)]
  | 0x28 => pack [(8, orFF (tget s.osc.outRing 1)), (8, s.osc.outDiv.get 1)]
  | 0x30 => pack [(8, orFF (tget s.osc.outRing 2)), (8, s.osc.outDiv.get 2)]
  | 0x38 => pack [(8, orFF (tget s.osc.outRing 3)), (8, s.osc.outDiv.get 3)]
  | 0x40 => pack [(3, o.enables.toNat), (5, 0), (8, o.zetaThr), (8, o.zetaHyst), (10, o.dampPersistS), (10, o.ampPersistS), (10, o.forcedPersistS),
                  (10, o.clearS)]
  | 0x48 => pack [(32, o.ampF), (32, o.ampRocof)]
  | 0x50 => pack [(32, o.ampRel), (8, o.forcedZeta)]
  | 0x58 => pack [(32, o.defMinKw)]
  | 0x60 => pack [(23, (s.osc.chans.filter (fun e => decide (e.2.flags ≠ 0))).length), (13, s.osc.slots.length), (9, s.osc.modes.length),
                  (11, s.osc.branches.length)]
  | 0x68 => pack [(10, s.osc.watch.length)]
  | 0x70 => s.osc.lastRankTs
  | _ =>
    if off < 0x100000 then groupCnt s 7 off
    else if off < 0x1A0000 then
      match arrayAt off 0x100000 128 4096, arrayAt off 0x180000 128 256, arrayAt off 0x190000 32 1024 with
      | some (n, k), _, _ => (getSlot s n).elim 0 (fun v => wordAt (slotRecBytes n v) k)
      | none, some (n, k), _ => (getMode s n).elim 0 (fun v => wordAt (modeBytes v) k)
      | none, none, some (n, k) => (tget s.osc.branches n).elim 0 (fun v => wordAt (branchBytes v) k)
      | none, none, none => 0
    else match arrayAt off 0x1A0000 8 256, arrayAt off 0x400000 48 262144 with
      | some (n, _), _ => pack [(32, orFF4 (tget s.osc.watch (2 * n))), (32, orFF4 (tget s.osc.watch (2 * n + 1)))]
      | none, some (n, k) =>
        let ch := windowFirst s p 7 0 + n
        (tget s.osc.chans ch).elim 0 (fun c => wordAt (screenBytes s c) k)
      | none, none => 0

/-! ### Group 0x08 -/

/-- A bus signal record (Table 8.11). -/
def sigBytes (s : State) (n : Nat) : Bytes :=
  match tget s.isl.signals n with
  | none => leBytes 4 0xFFFFFFFF
  | some v =>
    leBytes 4 v.fChan ++ leBytes 4 v.aChan ++
    [BitVec.ofNat 8 (orFF v.cluster), BitVec.ofNat 8 (pack [bit v.usable, bit v.observed, bit (decide (some n ∈ s.isl.refList))]), 0, 0] ++
    leBytes 4 v.dOwn.toNat

def CluAlarmState.num : CluAlarmState → Nat
  | .clear => 0
  | .active => 1
  | .clearing => 2

/-- A cluster record (Table 8.12). -/
def clusterBytes (s : State) (n : Nat) (c : Clu) : Bytes :=
  let alarms := [c.island, c.rocof, c.fexc, c.angle]
  [1, BitVec.ofNat 8 (pack [bit (decide (s.isl.refCluster = some n)), bit c.unobsSince.isSome])] ++ leBytes 2 c.members ++ leBytes 2 c.observed ++
  [0, 0] ++ leBytes 4 (f32ofQ c.f).toNat ++ leBytes 4 (f32ofQ c.r).toNat ++ leBytes 4 (f32ofQ c.theta).toNat ++
  alarms.map (fun a => BitVec.ofNat 8 a.state.num) ++ leBytes 8 c.formedTag ++ leBytes 8 (c.unobsSince.getD 0) ++
  (alarms.map (fun a => leBytes 8 a.changed)).flatten

/-- A breaker entry, as the BREAKER-MAP payload with the entry's state in byte 13 (R233). -/
def breakerBytes (n : Nat) (b : Breaker) : Bytes :=
  [0, BitVec.ofNat 8 b.bit] ++ leBytes 2 n ++ leBytes 4 b.chan ++ leBytes 2 b.sigA ++ leBytes 2 b.sigB ++ [if b.closed then 1 else 0, 1]

/-- A stage record (Table 8.13). -/
def stageBytes (v : Stage) : Bytes :=
  let g {α : Type} (d : α) (f : Goose → α) : α := v.gse.elim d f
  [BitVec.ofNat 8 v.state.num, if v.latch then 1 else 0, v.claim,
   BitVec.ofNat 8 (pack [bit v.activeLow, bit v.frame, bit v.goose, bit v.timed, bit v.acked])] ++ leBytes 2 v.minOnMs ++
  [BitVec.ofNat 8 v.frameTarget, BitVec.ofNat 8 (g 0 (·.target))] ++ leBytes 4 v.offsetUs ++ leBytes 2 (g 0 (·.appid.toNat)) ++
  leBytes 2 (g 0 (·.vlan.toNat)) ++ leBytes 2 (g 0 (·.tMinMs)) ++ leBytes 2 (g 0 (·.tMaxMs)) ++ leBytes 4 (g 0 (·.stNum.toNat)) ++
  leBytes 4 (g 0 (·.sqNum.toNat)) ++ leBytes 4 (g 0 (·.confRev.toNat)) ++ leBytes 4 v.active.length ++ leBytes 2 v.dstPort.toNat ++
  leBytes 2 v.srcPort.toNat ++ leBytes 16 v.dstAddr.toNat ++ leBytes 6 (g 0 (·.dstMac.toNat)) ++ [0, 0] ++ leBytes 8 v.lastChangeTs.toNat ++
  leBytes 8 v.changes.toNat

/-- An ASCII field of 64 B, padded with NUL. -/
def name64 (b : Bytes) : Bytes := (b ++ List.replicate 64 0).take 64

/-- Four entries of the reference list (R209). -/
def refWord (s : State) (k : Nat) : Nat :=
  pack ((List.range 4).map (fun i => (16, (lget s.isl.refList (k + i) none).getD 0xFFFF)))

def aperture08 (s : State) (off : Nat) : Nat :=
  let c := s.isl.cfg
  let d := s.isl.det
  let a := s.alm
  match off with
  | 0x00 => pack [(5, c.grid.getD 0x1F), bit c.fNom60, (2, 0), (11, c.windowMs), (13, 0), (8, c.joinMhz), (8, c.leaveMhz), (8, c.mergeMhz),
                  (8, c.minMembers)]
  | 0x08 => pack [(7, c.obsPct), (1, 0), (7, c.usablePct)]
  | 0x18 => pack [(16, d.divMhz), (16, d.divHystMhz), (16, d.islandConfMs), (16, d.islandClearMs)]
  | 0x20 => pack [(16, d.rocofMhzs), (16, d.rocofSpanMs), (16, d.rocofConfMs), (16, d.rocofClearMs)]
  | 0x28 => pack [(16, d.fexcLoMhz), (16, d.fexcHiMhz), (16, d.fexcConfMs), (16, d.fexcClearMs)]
  | 0x30 => pack [(16, d.angThrCdeg), (16, d.angHystCdeg), (16, d.angConfMs), (16, d.angClearMs)]
  | 0x38 => pack [(4, d.enables.toNat), (12, 0), (16, d.unobsClearS)]
  | 0x40 => pack [(15, s.isl.signals.length), (1, 0), (7, s.isl.clusters.length), (1, 0), (7, s.isl.refCluster.getD 0x7F), (1, 0),
                  (15, (s.isl.signals.filter (fun e => e.2.cluster.isNone)).length)]
  | 0x48 => s.isl.lastEvalTag
  | 0x50 => refWord s 0
  | 0x58 => refWord s 4
  | 0x60 => pack [(32, a.latMaxPin), (32, a.latMaxFrame)]
  | 0x68 => pack [(32, a.latMaxGoose), (32, a.latMaxSag)]
  | 0x70 => pack [(16, a.sourceId.toNat), (3, a.rep), (5, 0), (8, a.repMs), (16, a.refreshMs), (16, a.rxPort.toNat)]
  | _ =>
    if off < 0x100000 then groupCnt s 8 off
    else if off < 0x190000 then
      match arrayAt off 0x100000 16 16384, arrayAt off 0x180000 128 64 with
      | some (n, o), _ => wordAt (sigBytes s n) o
      | none, some (n, o) => (tget s.isl.clusters n).elim 0 (fun v => wordAt (clusterBytes s n v) o)
      | none, none => 0
    else match arrayAt off 0x190000 16 1024, arrayAt off 0x1A0000 8 256, arrayAt off 0x1B0000 128 16, arrayAt off 0x1C0000 0x100 16 with
      | some (n, o), _, _, _ => (tget s.isl.breakers n).elim 0 (fun v => wordAt (breakerBytes n v) o)
      | none, some (n, _), _, _ => (tget a.map n).elim 0 (fun e => pack [(16, e.1), (16, e.2.1), (16, e.2.2.toNat)])
      | none, none, some (n, o), _ => wordAt (stageBytes (getStage s n)) o
      | none, none, none, some (n, o) =>
        match (getStage s n).gse with
        | some g => wordAt (name64 g.gocbRef ++ name64 g.datSet ++ name64 g.goId) o
        | none => 0
      | none, none, none, none => 0

end Sys2Proof.Machine
end

