-- ==== Sys2Proof/Machine/ApertureMet.lean ====
section
/-!
DEFINITION. What the aperture shows of groups 0x09, 0x0A and 0x0B (Tables 9.12 to 9.15, 10.7 to 10.9 and 11.5 to 11.9; R255, R283, R307).
-/

namespace Sys2Proof.Machine

/-! ### Group 0x09 -/

def RecState.num : RecState → Nat
  | .recording => 1
  | .assembling => 2
  | .ready => 3
  | .exporting => 4

/-- A slot entry (Table 9.15). -/
def recSlotBytes (r : RecSlot) : Bytes :=
  [BitVec.ofNat 8 r.state.num, BitVec.ofNat 8 (halgaFlags r.record false), BitVec.ofNat 8 r.record.trigKind, BitVec.ofNat 8 r.record.trigEntry] ++
  leBytes 4 r.record.recNo.toNat ++ leBytes 8 r.record.tTrig ++ leBytes 4 r.bytes ++ leBytes 2 r.record.marks.length ++ [0, 0] ++ leBytes 8 r.readyTs

/-- A trigger entry, as the CAPTURE-TRIGGER-SET payload (R255). -/
def trigBytes (c n : Nat) (e : TrigEntry) : Bytes :=
  [BitVec.ofNat 8 c, BitVec.ofNat 8 n, BitVec.ofNat 8 e.kind, BitVec.ofNat 8 e.dir, BitVec.ofNat 8 e.lane, if e.send then 1 else 0] ++
  leBytes 2 e.pos ++ leBytes 4 e.level.toNat ++ leBytes 4 e.hyst.toNat ++ leBytes 8 e.param.toNat ++ leBytes 4 e.holdoffMs

/-- A capture record (Table 9.14). -/
def capRecBytes (k : Cap) : Bytes :=
  let lane (l : Lane) : Bytes := [BitVec.ofNat 8 l.kind, BitVec.ofNat 8 l.rate] ++ leBytes 2 l.maxSources ++ [0, 0, 0, 0]
  [BitVec.ofNat 8 k.mode, BitVec.ofNat 8 k.state.num, BitVec.ofNat 8 k.owner.val, BitVec.ofNat 8 k.level, BitVec.ofNat 8 k.lanes.length,
   BitVec.ofNat 8 k.slotCount, BitVec.ofNat 8 (orFF k.streamRing), BitVec.ofNat 8 (orFF k.exportRing)] ++ leBytes 4 k.preMs ++ leBytes 4 k.postMs ++
  leBytes 2 k.patchHoldMs ++ [BitVec.ofNat 8 k.exportFmt, BitVec.ofNat 8 (orFF k.refLane)] ++ leBytes 2 k.refPos ++
  leBytes 2 (k.lanes.foldl (fun n l => n + l.sources.length) 0) ++ ((k.lanes.map lane).flatten ++ List.replicate 64 0).take 64 ++ leBytes 8 k.armTs ++
  leBytes 8 k.poolBytes ++ leBytes 4 k.recNo.toNat ++ [0, 0, 0, 0] ++
  ([k.triggers, k.early, k.retrig, k.retrigLate, k.holdoff, k.recFull, k.records, k.rowLost, k.streamSkip, k.patchAfterRec, k.marksLost].map
    (fun n => leBytes 8 n)).flatten

/-- The record that the window of a partition shows, from its first byte on. -/
def shownRecord (s : State) (p : HP) : Bytes :=
  let t := windowTable s p 9
  let f := windowFirst s p 9 t
  let r : Option RecSlot :=
    if t < 64 then (getCap s t).bind (fun k => tget k.slots (f / 2 ^ 26))
    else if t < 80 then tget s.cap.imports (t - 64)
    else tget s.cap.merges (t - 80)
  match r with
  | none => []
  | some v => if v.state = .ready ∨ v.state = .exporting then (halgaBytes v.record).drop (64 * (f % 2 ^ 26)) else []

def aperture09 (s : State) (p : HP) (off : Nat) : Nat :=
  let c := s.cap
  match off with
  | 0x00 => pack [(32, c.poolMib), (32, capUsed s / 2 ^ 20)]
  | 0x08 => pack [(16, c.rtPort.toNat), (16, c.sourceId.toNat), (6, c.txGroup), (8, c.txTarget), (2, 0), (16, c.txDstPort.toNat)]
  | 0x10 => 0
  | 0x18 => c.unitId.toNat
  | 0x20 => c.txDstAddr.toNat % 2 ^ 64
  | 0x28 => c.txDstAddr.toNat / 2 ^ 64
  | 0x30 => pack [(7, c.caps.length), (1, 0), (8, c.poolHwm)]
  | _ =>
    if off < 0x100000 then groupCnt s 9 off
    else if 0x800000 ≤ off then wordAt (shownRecord s p) (off - 0x800000)
    else match arrayAt off 0x100000 256 64, arrayAt off 0x110000 0x200 64, arrayAt off 0x120000 0x800 64, arrayAt off 0x140000 32 20 with
      | some (n, o), _, _, _ => (getCap s n).elim 0 (fun k => wordAt (capRecBytes k) o)
      | none, some (n, o), _, _ => ((getCap s n).bind (fun k => tget k.entries (o / 32))).elim 0 (fun e => wordAt (trigBytes n (o / 32) e) (o % 32))
      | none, none, some (n, o), _ => ((getCap s n).bind (fun k => tget k.slots (o / 32))).elim 0 (fun r => wordAt (recSlotBytes r) (o % 32))
      | none, none, none, some (n, o) =>
        (if n < 16 then tget c.imports n else tget c.merges (n - 16)).elim 0 (fun r => wordAt (recSlotBytes r) o)
      | none, none, none, none => 0

/-! ### Group 0x0A -/

/-- A number as the bits below 64, from a test of each. -/
def maskOf (n : Nat) (f : Nat → Bool) : Nat := (List.range n).foldl (fun a i => if f i then a + 2 ^ i else a) 0

def mpSuppressed (v : SgMp) : Bool := decide (v.suppStart ≠ 0 ∧ v.suppEnd = 0)

/-- A metering point block (Table 10.8). -/
def mpWord (s : State) (m off : Nat) : Nat :=
  let v := getMp s m
  match off with
  | 0x00 => pack [bit v.enable, bit v.fNom60, (2, v.rate), (3, v.cicN), (1, 0), (10, cicM s v), (2, v.firDec), (4, v.fadeK), (7, v.firLen), (1, 0),
                  (5, v.dcShift), (5, v.acqCycles)]
  | 0x08 => pack [(3, v.state.num), bit v.bankB, bit (isSealedMp s m), (7, v.lenA), (7, v.lenB), (13, 0), (10, v.fadePos)]
  | 0x10 => v.suppStart
  | 0x18 => v.suppEnd
  | 0x20 => pack [(32, groupDelay s v), (32, orFF4 v.pmu)]
  | _ => cntGet s (mpCnt m off)

/-- An input block (Table 10.9). -/
def inputWord (s : State) (n off : Nat) : Nat :=
  let i := getInput s n
  match off with
  | 0x00 => i.scale.toNat
  | 0x08 => pack [sfield 32 i.calGain, sfield 32 i.calDelay]
  | 0x10 => pack [(2, i.dc.num), bit i.freezeReq, bit i.lost, bit (inUnsettled s i), bit i.tempStale, (2, i.tempSrc), (24, 0), (32, i.tempId)]
  | 0x18 => pack [sfield 16 i.tempApplied, sfield 16 i.tempDefault, (12, i.staleS)]
  | 0x20 => i.tempTs
  | 0x28 => pack [sfield 32 (qround (qmul i.d (qNat 256))), sfield 32 (qround (tempInterp i).1)]
  | 0x30 => i.until_
  | _ => cntGet s (inputCnt n off)

/-- Two 32-bit words of a list, from an offset in bytes. -/
def words32 (f : Nat → Int) (off : Nat) : Nat := pack [sfield 32 (f (off / 4)), sfield 32 (f (off / 4 + 1))]

def aperture0A (s : State) (off : Nat) : Nat :=
  let g := s.sage
  match off with
  | 0x00 => pack [bit g.fMod8, (6, g.clkEn.toNat), (1, 0), (2, g.svWindow)]
  | 0x08 => pack [(16, maskOf 16 (fun m => decide ((getMp s m).state = .running))), (16, maskOf 16 (fun m => mpSuppressed (getMp s m)))]
  | 0x10 => 0
  | 0x18 => maskOf 64 (fun n => (getInput s n).lost)
  | 0x20 => maskOf 32 (fun n => (getInput s (64 + n)).lost)
  | _ =>
    match arrayAt off 0x10000 0x100 16, arrayAt off 0x20000 0x80 96, arrayAt off 0x40000 0x400 16, arrayAt off 0x60000 0x200 96 with
    | some (m, o), _, _, _ => mpWord s m o
    | none, some (n, o), _, _ => inputWord s n o
    | none, none, some (m, o), _ =>
      let v := getMp s m
      let bank := if o < 0x200 then v.coefA else v.coefB
      words32 (fun k => if k < 64 then lget bank k 0 else 0) (o % 0x200)
    | none, none, none, some (n, o) =>
      if o < 264 then let e := lget (getInput s n).table (o / 8) (0, 0); pack [sfield 32 e.1, sfield 32 e.2] else 0
    | none, none, none, none => groupCnt s 10 off

/-! ### Group 0x0B -/

/-- A metering point block of energy (Table 11.5). -/
def eqWord (s : State) (m off : Nat) : Nat :=
  let v := getEq s m
  match off with
  | 0x00 => pack [bit v.threeWire, bit v.reverse, (6, 0), (24, v.udinDv)]
  | 0x08 => pack [(11, v.sagThr), (11, v.swellThr), (10, v.intThr), (10, v.hyst)]
  | 0x10 => pack [bit v.gap, bit v.sealBroken, bit v.counting, (3, maskOf 3 (fun k => (tget v.qOpen k).isSome))]
  | 0x18 => pack [(32, (f32ofQ v.sRef).toNat), (32, (f32ofQ v.sMax).toNat)]
  | 0x20 => v.lastCycleTs
  | _ =>
    match arrayAt off 0x40 8 16 with
    | some (q, _) => tgetD v.acc q 0 % 2 ^ 64
    | none => cntGet s (eqCnt m off)

/-- A billing register (Table 11.6). Value, GAP and the low bits of ROLLOVERS share one word (R291). -/
def bregWord (s : State) (b off : Nat) : Nat :=
  let r := getBReg s b
  match off with
  | 0x00 => pack [(34, r.value), bit r.gap, (1, 0), (28, r.rollovers.toNat)]
  | 0x08 => pack [(4, r.mp), (4, r.quantity), (4, r.digits), (4, r.resCode), bit r.enable, bit (isSealedMp s r.mp)]
  | 0x10 => r.residual
  | _ => r.rollovers.toNat

/-- A pulse output (Table 11.7). -/
def pulseWord (s : State) (k off : Nat) : Nat :=
  let v := getPulse s k
  match off with
  | 0x00 => pack [bit v.enable, bit v.activeLow, (4, v.mp), (4, v.quantity), (8, v.widthMs), (8, v.claim.toNat)]
  | 0x08 => pack [(32, v.quantum), (32, v.owed.toNat)]
  | 0x10 => v.residual
  | 0x18 => pack [(32, v.wUs), (32, v.pUs)]
  | _ => cntGet s (pulseCnt k off)

/-- A quality log entry (Table 11.8). -/
def qEntryBytes (e : QEntry) : Bytes :=
  leBytes 4 e.seq.toNat ++ [BitVec.ofNat 8 e.mp, BitVec.ofNat 8 e.kind.num,
    BitVec.ofNat 8 (pack [bit e.isOpen, bit e.gaNominal, bit e.dataLost, bit e.containsInt]), BitVec.ofNat 8 e.phase] ++
  leBytes 8 e.start ++ leBytes 8 e.end_ ++ leBytes 4 (f32ofQ (qmul (qNat 100) (rootOf e.extreme))).toNat

/-- A gap log entry (Table 11.9). -/
def gapEntryBytes (e : GapEntry) : Bytes :=
  leBytes 4 e.seq.toNat ++ [BitVec.ofNat 8 e.mp, BitVec.ofNat 8 e.kind.num, BitVec.ofNat 8 (pack [bit e.acked, bit e.endUnknown, bit e.merged]),
    BitVec.ofNat 8 e.cause] ++ leBytes 8 e.start ++ leBytes 8 e.end_ ++ leBytes 8 e.bound ++ leBytes 4 (f32ofQ e.sRef).toNat ++ [0, 0, 0, 0] ++
  leBytes 8 e.ackTs ++ [BitVec.ofNat 8 e.ackPart]

def aperture0B (s : State) (off : Nat) : Nat :=
  let q := s.eq
  match off with
  | 0x00 => pack [(9, q.saveS), (23, 0), (32, q.saveSeq.toNat)]
  | 0x08 => q.lastSaveTs
  | 0x10 => q.satsum.toNat
  | 0x18 => q.satsumPls.toNat
  | 0x20 => pack [(16, q.sealed.toNat), (4, q.sealGen)]
  | 0x28 => pack [(32, q.nextQ.toNat), (32, q.nextG.toNat)]
  | _ =>
    if off < 0x10000 then groupCnt s 11 off
    else if off < 0x20000 then match arrayAt off 0x10000 0x200 16 with
      | some (m, o) => eqWord s m o
      | none => 0
    else match arrayAt off 0x20000 0x20 64, arrayAt off 0x30000 0x40 32, arrayAt off 0x40000 32 1024, arrayAt off 0x50000 64 256 with
      | some (b, o), _, _, _ => bregWord s b o
      | none, some (k, o), _, _ => pulseWord s k o
      | none, none, some (n, o), _ => (tfind (fun seq _ => decide (seq % 1024 = n)) q.qlog).elim 0 (fun e => wordAt (qEntryBytes e.2) o)
      | none, none, none, some (n, o) => (tfind (fun seq _ => decide (seq % 256 = n)) q.glog).elim 0 (fun e => wordAt (gapEntryBytes e.2) o)
      | none, none, none, none => 0

end Sys2Proof.Machine
end

