-- ==== Sys2Proof/Machine/ApertureVoice.lean ====
section
/-!
DEFINITION. What the aperture shows of groups 0x0C and 0x0D (Tables 12.11 to 12.14 and 13.12 to 13.15; R343, R373). Keys are in no register
(R337).
-/

namespace Sys2Proof.Machine

/-! ### Group 0x0C -/

/-- The 56 configuration bytes of VOICE-CH-OPEN (Table 12.16). -/
def voiceCfgBytes (c : VoiceCfg) : Bytes :=
  [c.lineKind, c.pktKind, c.codec, c.ptime, c.priority, c.flags, c.level, c.dscp, c.highway, c.timeslot, c.law, c.target, c.lineIn, c.lineOut, c.pktIn,
   c.pktOut, c.dtmfMode, c.toneMask, c.pt, c.evPt] ++ leBytes 2 c.localPort.toNat ++ leBytes 2 c.remotePort.toNat ++ leBytes 16 c.remoteAddr.toNat ++
  leBytes 2 c.jbMinMs.toNat ++ leBytes 2 c.jbMaxMs.toNat ++ leBytes 2 c.jbInitMs.toNat ++ [c.jbAdapt, c.ec] ++ leBytes 2 c.mediaTimeoutMs.toNat ++
  leBytes 6 c.rsv.toNat

/-- A channel record (Table 12.13). -/
def voiceBytes (v : VCh) : Bytes :=
  [BitVec.ofNat 8 v.state.num, BitVec.ofNat 8 v.part.val, BitVec.ofNat 8 v.slots, BitVec.ofNat 8 v.ecState.num] ++ voiceCfgBytes v.cfg ++
  leBytes 4 v.ssrcTx.toNat ++ leBytes 4 (v.ssrcRx.elim 0 (fun x => x.toNat)) ++ leBytes 4 v.jbTargetUs ++ leInt 4 v.jbDepthUs ++ leBytes 2 v.erl.toNat ++
  leBytes 2 v.erle.toNat ++ leBytes 4 v.ecDelayUs ++ leBytes 2 v.keyGenTx.toNat ++ leBytes 2 v.keyGenRx.toNat ++ leBytes 8 v.openTs ++
  leBytes 8 v.lastRxTs ++ [v.rrFraction, BitVec.ofNat 8 (orFF (v.play.map (fun a => a.req.ann)))] ++
  ((v.queue.map (fun (a : AnnReq) => BitVec.ofNat 8 a.ann)) ++ List.replicate 4 0xFF).take 4 ++ [0, 0] ++ (v.cnt.map (fun n => leBytes 8 n)).flatten

/-- An announcement entry (Table 12.14). -/
def annEntryBytes (a : Ann) : Bytes :=
  [if a.ready then 2 else 1, if a.ulaw then 1 else 0, 0, 0] ++ leBytes 4 a.bytes ++ leBytes 8 a.loadedTs ++ leBytes 8 a.plays

/-- A map entry, as the VOICE-ANN-MAP payload with its state in byte 1 (R343). -/
def annMapBytes (e : VoiceAnnMapP) : Bytes :=
  [e.entry, 1] ++ leBytes 2 e.first.toNat ++ leBytes 2 e.last.toNat ++ [e.ann, e.withdrawAnn, e.dir, e.priority, e.repeat_, e.timed] ++
  leBytes 2 e.offsetMs.toNat ++ leBytes 2 e.nCh.toNat ++ (e.channels.map (fun c => leBytes 2 c.toNat)).flatten

/-- A highway block (Table 12.12). -/
def highwayWord (s : State) (h off : Nat) : Nat :=
  let v := getHw s h
  match off with
  | 0x00 => pack [(17, v.fsOffset), (15, 0), (8, ((List.range 128).filter (fun t => (slotHolder s h t).isSome)).length)]
  | 0x08 => v.fsStartTs
  | _ => cntGet s (0x0C010000 + h * 0x100 + off)

def aperture0C (s : State) (off : Nat) : Nat :=
  let v := s.voc
  match off with
  | 0x00 => pack [(8, v.hwEn.toNat), (8, v.drive.toNat), (8, v.idleLaw.toNat)]
  | 0x08 => pack [(11, v.chans.foldl (fun n e => n + e.2.slots) 0), (5, 0), (11, v.chans.length), (5, 0),
                  (7, (v.anns.filter (fun e => e.2.ready)).length)]
  | 0x10 => 0
  | 0x18 => v.origin
  | 0x20 => pack [(32, annBytes s)]
  | 0x28 => orFF (v.toneRing.get 0)
  | 0x30 => orFF (v.toneRing.get 1)
  | 0x38 => orFF (v.toneRing.get 2)
  | 0x40 => orFF (v.toneRing.get 3)
  | _ =>
    if off < 0x10000 then groupCnt s 12 off
    else if off < 0x20000 then match arrayAt off 0x10000 0x100 8 with
      | some (h, o) => highwayWord s h o
      | none => 0
    else match arrayAt off 0x20000 0x100 8, arrayAt off 0x100000 256 1024, arrayAt off 0x200000 32 64, arrayAt off 0x210000 0x100 128 with
      | some (h, o), _, _, _ => pack ((List.range 4).map (fun k => (16, (slotHolder s h (o / 2 + k)).elim 0xFFFF (·.1))))
      | none, some (n, o), _, _ => (tget v.chans n).elim 0 (fun c => wordAt (voiceBytes c) o)
      | none, none, some (n, o), _ => (tget v.anns n).elim 0 (fun a => wordAt (annEntryBytes a) o)
      | none, none, none, some (n, o) => (tget v.annMap n).elim 0 (fun e => wordAt (annMapBytes e) o)
      | none, none, none, none => 0

/-! ### Group 0x0D -/

def CoreState.num : CoreState → Nat
  | .idle => 0
  | .running => 1
  | .faulted => 2

/-- Two registers of 32-bit places, from a number on. -/
def regPair {w : Nat} (l : List (BitVec w)) (o : Nat) : Nat := pack [(32, (lget l (o / 4) 0).toNat), (32, (lget l (o / 4 + 1) 0).toNat)]

/-- A core block (Table 13.14). -/
def coreWord (s : State) (n off : Nat) : Nat :=
  let c := getCore s n
  match off with
  | 0x00 => pack [(2, c.state.num), bit c.unified, bit (isUser c), (6, c.kernel.getD 0x3F), (3, c.fault.elim 0 (·.num)), (19, 0), (32, c.pc.toNat)]
  | 0x08 => pack [(32, cstWord c), (8, c.circ.toNat), (8, c.brev.toNat)]
  | 0x10 => c.runTs
  | 0x18 => pack [(32, c.faultPc.toNat), (32, min c.runCycles (2 ^ 32 - 1))]
  | _ =>
    if off < 0x60 then regPair c.d (off - 0x20)
    else if off < 0xA0 then
      let v := (lget c.acc ((off - 0x60) / 16) 0 % 2 ^ 72).toNat
      if off % 16 = 0 then v % 2 ^ 64 else v / 2 ^ 64
    else if off < 0xC0 then regPair c.i (off - 0xA0)
    else if off < 0xE0 then regPair c.k (off - 0xC0)
    else if off < 0x100 then regPair c.ba (off - 0xE0)
    else if off < 0x120 then regPair c.ln (off - 0x100)
    else if off < 0x130 then regPair c.lc (off - 0x120)
    else cntGet s (coreCnt n off)

/-- A binding of a kernel record (Table 13.15). -/
def kbindBytes (b : KBind) : Bytes :=
  [BitVec.ofNat 8 b.kind, BitVec.ofNat 8 b.level, BitVec.ofNat 8 b.ring, BitVec.ofNat 8 b.grid] ++ leBytes 4 b.stageOff ++ leBytes 4 b.slotBytes ++
  leBytes 2 b.slots ++ [0, 0]

/-- A kernel record (Table 13.15). -/
def kernBytes (k : Kern) : Bytes :=
  [BitVec.ofNat 8 k.state.num, BitVec.ofNat 8 k.part.val, BitVec.ofNat 8 k.cores.length, BitVec.ofNat 8 (pack [bit k.unified, bit k.aovEvent])] ++
  leBytes 4 k.sramKib ++ leBytes 8 k.imageId.toNat ++ leBytes 4 k.imageVersion.toNat ++ leBytes 4 k.scratchKib ++ leBytes 4 k.maxCycles ++
  [BitVec.ofNat 8 k.keySlot, BitVec.ofNat 8 (orFF k.faultCore), 0, 0] ++
  ((k.cores.map (fun (n : Nat) => BitVec.ofNat 8 n)) ++ List.replicate 32 0xFF).take 32 ++
  ((List.range 16).map (fun b => (tget k.binds b).elim (List.replicate 16 0) kbindBytes)).flatten ++ leBytes 8 k.runs ++ leBytes 8 k.trigDrop ++
  leBytes 8 k.trigIdle ++ leBytes 8 k.outSkip ++ leBytes 8 k.faults

/-- The memories of a core as window table 0 shows them: IM, X and Y (R373). -/
def coreMemWord (c : Core) (o : Nat) : Nat :=
  if o < 0x8000 then leNat (ramRead c.im o 8) else if o < 0x18000 then leNat (ramRead c.x (o - 0x8000) 8) else leNat (ramRead c.y (o - 0x18000) 8)

def aperture0D (s : State) (p : HP) (off : Nat) : Nat :=
  let r := s.sor
  match off with
  | 0x00 => pack [(6, userCores s), (6, r.kernels.length)]
  | 0x08 => maskOf 4 (fun k => (lget r.keySlots k none).isSome)
  | 0x10 => 0
  | 0x18 => pack [(32, r.poolMib), (32, (poolUsed s + 1023) / 1024)]
  | _ =>
    if off < 0x40 then 0
    else if off < 0xC0 then
      -- KEY_DIGEST: byte 0 of the digest first
      (lget r.keySlots ((off - 0x40) / 0x20) none).elim 0 (fun d => wordAt (beBytes 32 d.toNat) (off % 0x20))
    else if off < 0x10000 then groupCnt s 13 off
    else match arrayAt off 0x10000 0x100 16, arrayAt off 0x20000 0x400 128, arrayAt off 0x40000 0x200 32, arrayAt off 0x400000 0x28000 1,
        arrayAt off 0x800000 0x100000 1 with
      | some (c, o), _, _, _, _ =>
        if o = 0 then pack [(8, maskOf 8 (fun j => isUser (getCore s (8 * c + j)))), (10, sramUsed s c)] else cntGet s (0x0D010000 + c * 0x100 + o)
      | none, some (n, o), _, _, _ => coreWord s n o
      | none, none, some (k, o), _, _ => (getKern s k).elim 0 (fun v => wordAt (kernBytes v) o)
      | none, none, none, some (_, o), _ => coreMemWord (getCore s (windowFirst s p 13 0)) o
      | none, none, none, none, some (_, o) => leNat (ramRead (getSram s (windowFirst s p 13 1)) o 8)
      | none, none, none, none, none => 0

end Sys2Proof.Machine
end

