-- ==== Sys2Proof/Machine/ApertureRadio.lean ====
section
/-!
DEFINITION. What the aperture shows of groups 0x0E, 0x0F and 0x10 (Tables 14.5 to 14.7 and 14.10, 15.5 to 15.7, and 16.4 to 16.6; R396, R416,
R427).
-/

namespace Sys2Proof.Machine

/-! ### Group 0x0E -/

def DelayKind.num : DelayKind → Nat
  | .abs => 1
  | .ga => 2

/-- A task record (Table 14.7). -/
def taskBytes (k : Task) : Bytes :=
  let d (f : Delay → Nat) : Nat := k.delay.elim 0 f
  [BitVec.ofNat 8 k.state.num, BitVec.ofNat 8 k.cls, BitVec.ofNat 8 k.level,
   BitVec.ofNat 8 (pack [bit k.reserved, bit k.bound, bit k.user, bit k.andMode, bit k.cancelPend, bit k.aovEvent]), BitVec.ofNat 8 k.cluster,
   BitVec.ofNat 8 (orFF k.home), BitVec.ofNat 8 (orFF k.kernel), BitVec.ofNat 8 k.owner] ++ leBytes 4 k.flags.toNat ++ leBytes 4 k.mask.toNat ++
  [BitVec.ofNat 8 (d (fun x => x.kind.num)), 0, 0, 0] ++ leBytes 4 (d (fun x => x.period)) ++ leBytes 8 (d (fun x => x.due)) ++ leBytes 8 k.readyTs ++
  [BitVec.ofNat 8 k.lastCore, k.lastStatus.setWidth 8, 0, 0] ++ leBytes 4 k.lastCycles ++ leBytes 8 k.lastEndTs ++ leBytes 8 k.dispatches

/-- A placement log entry (Table 14.10). -/
def placeEntryBytes (e : PlaceEntry) : Bytes :=
  leBytes 4 e.seq.toNat ++ [BitVec.ofNat 8 e.kind, BitVec.ofNat 8 e.reason, 0, 0] ++ leBytes 4 e.item ++ placeBytes e.old ++ [0] ++
  placeBytes e.new ++ [0] ++ leBytes 8 e.ts

/-- The least due value of the delay entries of a list. -/
def leastDue (s : State) (kind : DelayKind) : Nat :=
  (s.yar.tasks.foldl (fun (m : Option Nat) e => match e.2.delay with
    | some d => if d.kind = kind then some (m.elim d.due (fun x => min x d.due)) else m
    | none => m) none).getD 0

def tasksIn (s : State) (f : Task → Bool) : Nat := (s.yar.tasks.filter (fun e => f e.2)).length

def loadWord (s : State) (p : HP) : Nat := pack [(8, orFF (s.yar.loadRing.get p)), (8, s.yar.loadDiv.get p)]

def aperture0E (s : State) (off : Nat) : Nat :=
  let y := s.yar
  match off with
  | 0x00 => pack [(8, y.qHighPct), (8, y.loadAlertPct)]
  | 0x08 => pack [(15, y.tasks.length), (15, tasksIn s (fun k => decide (k.state = .ready))), (15, tasksIn s (fun k => decide (k.state = .pending))),
                  (15, tasksIn s (fun k => k.delay.isSome))]
  | 0x10 => 0
  | 0x18 => absTick s
  | 0x20 => leastDue s .abs
  | 0x28 => pack [(40, leastDue s .ga)]
  | 0x30 => loadWord s 0
  | 0x38 => loadWord s 1
  | 0x40 => loadWord s 2
  | 0x48 => loadWord s 3
  | 0x50 => pack [(32, y.expiryLagMax)]
  | _ =>
    match arrayAt off 0x10000 0x40 64, arrayAt off 0x20000 0x20 128, arrayAt off 0x100000 64 16384, arrayAt off 0x200000 64 16384,
        arrayAt off 0x300000 32 256, arrayAt off 0x310000 0x20 18 with
    | some (n, o), _, _, _, _, _ =>
      let q := getQ s (n / 4) (n % 4)
      match o with
      | 0x00 => pack [(11, depthIn s (n / 4) (n % 4)), (11, q.depthMax), (10, reservedIn s (n / 4) (n % 4)), (14, q.pend.length)]
      | 0x08 => q.enqueued
      | 0x10 => q.pended
      | _ => 0
    | none, some (n, o), _, _, _, _ =>
      let l := tgetD y.loads n .init
      match o with
      | 0x00 => pack [(21, l.busy), (21, l.busyMax)]
      | 0x08 => l.windowTs
      | 0x10 => l.overAlert
      | _ => 0
    | none, none, some (t, o), _, _, _ => (getTask s t).elim 0 (fun k => wordAt (taskBytes k) o)
    | none, none, none, some (t, o), _, _ => (getTask s t).elim 0 (fun k => tgetD k.hist (o / 8) 0)
    | none, none, none, none, some (n, o), _ => (tget y.placeLog n).elim 0 (fun e => wordAt (placeEntryBytes e) o)
    | none, none, none, none, none, some (n, o) =>
      let d := getProd s n
      match o with
      | 0x00 => pack [bit (isStalled s n)]
      | 0x08 => d.stalls
      | 0x10 => d.stallNs
      | _ => d.stallMaxNs
    | none, none, none, none, none, none => groupCnt s 14 off

/-! ### Group 0x0F -/

def CfState.num : CfState → Nat
  | .off => 0
  | .starting => 1
  | .running => 2

/-- A node record (Table 15.7). -/
def nodeBytes (v : Node) : Bytes :=
  [BitVec.ofNat 8 v.state.num, BitVec.ofNat 8 v.part.val, BitVec.ofNat 8 v.mic, BitVec.ofNat 8 v.misses] ++ leBytes 8 v.eui64.toNat ++
  leBytes 2 v.pollDiv ++ leBytes 2 v.phase ++ [BitVec.ofNat 8 v.slot, v.rxSeq, v.txSeq, BitVec.ofNat 8 v.dl.length] ++ leBytes 4 (v.ctr % 2 ^ 24) ++
  leBytes 4 (orFF4 v.eSw) ++ leBytes 2 v.keyGen.toNat ++ leBytes 2 v.superMs ++ leBytes 8 v.lastRxTs ++ leBytes 4 (orFF4 v.handle) ++ [0, 0, 0, 0] ++
  leBytes 8 v.responses ++ leBytes 8 v.missed ++ leBytes 8 v.dup ++ leBytes 8 v.micFail ++ leBytes 8 v.dlFail

/-- The record of a node that is FREE: what its last node left (R417). -/
def leftBytes (v : NodeLeft) : Bytes :=
  List.replicate 24 0 ++ leBytes 4 0xFFFFFFFF ++ leBytes 2 v.keyGen.toNat ++ List.replicate 10 0 ++ leBytes 4 0xFFFFFFFF ++ [0, 0, 0, 0] ++
  leBytes 8 v.responses ++ leBytes 8 v.missed ++ leBytes 8 v.dup ++ leBytes 8 v.micFail ++ leBytes 8 v.dlFail

def aperture0F (s : State) (off : Nat) : Nat :=
  let c := s.cf
  let pr {α : Type} (d : α) (f : CfProfileP → α) : α := c.profile.elim d f
  match off with
  | 0x00 => pack [bit c.enable, (10, c.sfMs), (2, c.beaconMic), (3, 0), (11, c.respMax), (5, 0), (11, c.pollMax)]
  | 0x08 => pack [(16, c.dwellMs), (16, c.dwellWinS), (24, c.rekeyWarn)]
  | 0x10 => 0
  | 0x18 => pack [(2, c.state.num), (2, c.beaconFails), (12, 0), (11, c.nodes.length)]
  | 0x20 => pack [(32, c.sfNo.toNat), (6, c.chan), bit c.silent]
  | 0x28 => c.originTs
  | 0x30 => pack [(7, ((List.range 64).filter (fun k => c.map.mask.getLsbD k)).length), (1, 0), (6, c.map.inc), (2, 0), (6, c.map.seed), (2, 0), (8, c.mapGen.toNat),
                  (32, c.mapNext.elim 0 (fun m => m.2.1.toNat))]
  | 0x38 => c.map.mask.toNat
  | 0x40 => pack [(15, pr 0 (·.spiKhz.toNat)), (1, pr 0 (·.irqPol.toNat)), (16, pr 0 (·.tTaUs.toNat)), (32, pr 0 (·.bitrate.toNat))]
  | 0x48 => pack [(8, pr 0 (·.phyOvh.toNat)), bit c.profile.isSome, (7, 0), (16, pr 0 (·.rxLatNs.toNat)), (16, pr 0 (·.txLatNs.toNat)),
                  (16, c.keyGenB.toNat)]
  | 0x50 => orFF (c.outRing.get 0)
  | 0x58 => orFF (c.outRing.get 1)
  | 0x60 => orFF (c.outRing.get 2)
  | 0x68 => orFF (c.outRing.get 3)
  | _ =>
    match arrayAt off 0x10000 0x20 64, arrayAt off 0x100000 128 1024 with
    | some (k, o), _ =>
      let v := getChan c k
      match o with
      | 0x00 => pack [(16, v.word.toNat), bit (c.map.mask.getLsbD k)]
      | 0x08 => pack [(32, dwellUsed s k / 1000)]
      | 0x10 => v.superframes
      | _ => v.dwellLimited
    | none, some (n, o) =>
      match tget c.nodes n with
      | some v => wordAt (nodeBytes v) o
      | none => wordAt (leftBytes (tgetD c.left n .init)) o
    | none, none => groupCnt s 15 off

/-! ### Group 0x10 -/

/-- A job record (Table 16.6). IN_BYTES counts the part of a running segment that the engine has taken in. -/
def jobBytes (v : Job) : Bytes :=
  let dev (n : Nat) : Byte := BitVec.ofNat 8 n
  [dev v.state.num, dev v.owner.val, if v.decomp then 1 else 0, if v.zlib then 1 else 0, dev v.effort, dev v.level, dev v.inRing, dev v.outRing,
   if v.absLimit then 1 else 0, 0] ++ leBytes 2 v.ratio ++ leBytes 2 v.status.toNat ++ [0, 0] ++ leBytes 8 v.limitBytes ++ leBytes 8 v.inTotal ++
  leBytes 8 (v.inBytes + v.taken) ++ leBytes 8 v.outBytes ++ leBytes 4 v.adler ++ leBytes 4 v.segments.toNat ++ leBytes 8 v.openTs

def aperture10 (s : State) (p : HP) (off : Nat) : Nat :=
  match off with
  | 0x00 => pack [(13, s.dill.quantumKib)]
  | 0x08 => pack [(7, s.dill.jobs.length), (6, s.dill.comp.getD 0x3F), (6, s.dill.decomp.getD 0x3F)]
  | 0x10 => 0
  | _ =>
    match arrayAt off 0x10000 128 64, arrayAt off 0x400000 0xA000 1 with
    | some (n, o), _ => (getJob s n).elim 0 (fun v => wordAt (jobBytes v) o)
    | none, some (_, o) =>
      (getJob s (windowFirst s p 16 0)).elim 0 (fun v => (Config.dillSaved v.hist v.bits v.comp o).toNat)
    | none, none => groupCnt s 16 off

end Sys2Proof.Machine
end

