-- ==== Sys2Proof/Machine/Aperture.lean ====
section
/-!
DEFINITION. What a partition's host reads: BAR2, the state aperture, live or through a snapshot (R63, R64, R458), BAR0 and BAR4 (Tables 2.3, 2.4,
2.7 and 2.12), and a finished descriptor in host memory (Table 2.16). No read changes state (R11), so these are functions and no commands.
-/

namespace Sys2Proof.Machine

/-- The 64-bit word at an offset of a group, as state shows it to a partition. An address that no table names reads zero. -/
def groupWord (s : State) (p : HP) (g off : Nat) : Nat :=
  match g with
  | 1 => aperture01 s off
  | 2 => aperture02 s off
  | 3 => aperture03 s off
  | 4 => aperture04 s off
  | 5 => aperture05 s p off
  | 6 => aperture06 s p off
  | 7 => aperture07 s p off
  | 8 => aperture08 s off
  | 9 => aperture09 s p off
  | 10 => aperture0A s off
  | 11 => aperture0B s off
  | 12 => aperture0C s off
  | 13 => aperture0D s p off
  | 14 => aperture0E s off
  | 15 => aperture0F s off
  | 16 => aperture10 s p off
  | 17 => aperture11 s off
  | _ => 0

/-- The windows of a partition that belong to a group. -/
def groupWindows (s : State) (p : HP) (g : Nat) : Tbl Nat := tkeep (fun k _ => decide (k / 256 = g)) (getPart s p).windows

/-- The state that a partition sees of a group: the copy of its snapshot where that holds the group, shown through the windows as they stand; of a
group limited to its window, the copy only while its windows stand as they did (R63, Table 2.9). -/
def viewOf (s : State) (p : HP) (g : Nat) : State :=
  let q := getPart s p
  match s.shadow.get p with
  | none => s
  | some b =>
    let frozen : State := { s with toBlocks := b }
    if q.snap.state = .valid ∧ q.snap.groups.getLsbD g ∧
        (q.snap.windowed.getLsbD g = false ∨ groupWindows frozen p g = groupWindows s p g) then
      modPart p (fun x => { x with windows := q.windows }) frozen
    else s

/-- Whether a group can be read: group 0x01 from the training of the link on, every other from READY on (R458). -/
def groupReadable (s : State) (g : Nat) : Bool := decide (g = 1 ∨ s.dev.boot = .ready)

/-- An aligned 64-bit read of BAR2 (R62). Group 0x00 and every group above 0x11 read zero (R14). -/
def apertureRead (s : State) (p : HP) (addr : Nat) : U64 :=
  let g := addr / 0x1000000
  if g = 0 ∨ 0x11 < g ∨ groupReadable s g = false then 0
  else BitVec.ofNat 64 (groupWord (viewOf s p g) p g (addr % 0x1000000 / 8 * 8))

/-- An aligned 32-bit read of BAR2. -/
def apertureRead32 (s : State) (p : HP) (addr : Nat) : U32 :=
  (apertureRead s p addr).extractLsb' (if addr / 4 % 2 = 0 then 0 else 32) 32

/-! ### BAR0 and BAR4 -/

/-- An event entry (Table 2.7). -/
def EvtEntry.bytes (e : EvtEntry) : Bytes :=
  leBytes 4 e.seq.toNat ++ leBytes 2 e.code.toNat ++ [BitVec.ofNat 8 e.severity.toNat, BitVec.ofNat 8 (pack [bit e.timeValid, bit e.completion])] ++
  leBytes 8 e.taiS.toNat ++ leBytes 4 e.taiNs.toNat ++ leBytes 4 e.tag.toNat ++ leBytes 2 e.status.toNat ++ leBytes 2 e.params.length ++
  (e.params ++ List.replicate 100 0).take 100

def SnapState.num : SnapState → Nat
  | .none => 0
  | .valid => 1
  | .aborted => 2
  | .released => 3

/-- SNAP_STAT (Table 2.12). -/
def snapBytes (n : Snap) : Bytes := leBytes 4 n.state.num ++ leBytes 4 n.gen.toNat ++ leBytes 8 n.taiS.toNat

/-- Word 3 of the VCI header after a command (Table 2.5). -/
def mbxWord3 (m : Mbx) : Nat := pack [(16, m.status.toNat), (12, m.resp.length), (3, 0), bit m.done]

/-- A mailbox from its word 3 on: what the device has written over the request (R37). -/
def mbxBytes (m : Mbx) : Bytes := leBytes 4 (mbxWord3 m) ++ m.resp

/-- An aligned 32-bit read of BAR0 where the device writes (Table 2.3); words 0 to 2 of a mailbox are the host's own. -/
def bar0Read (s : State) (p : HP) (off : Nat) : U32 :=
  let q := getPart s p
  let word (b : Bytes) (o : Nat) : U32 := BitVec.ofNat 32 (leNat ((b.drop o).take 4))
  if off < 0x1000 then word (mbxBytes q.mbxN) (off - 12)
  else if off < 0x2000 then word (mbxBytes q.mbxU) (off - 0x100C)
  else if off = 0x2008 then q.evtCons
  else if off = 0x200C then q.evtProd
  else if off = 0x2010 then BitVec.ofNat 32 (pstateWord s p)
  else if 0x2018 ≤ off ∧ off < 0x2028 then word (snapBytes q.snap) (off - 0x2018)
  else if 0x8000 ≤ off ∧ off < 0x10000 then (tget q.evtRing ((off - 0x8000) / 128)).elim 0 (fun e => word e.bytes (off % 128))
  else 0

/-- DEV_IDX of a ring (Table 2.4). -/
def bar4Read (s : State) (p : HP) (off : Nat) : U32 :=
  if off < 0x400 ∧ off % 16 = 4 then (tget (getPart s p).rings (off / 16)).elim 0 (fun r => r.devIdx) else 0

/-- A descriptor as the device leaves it in host memory: status and len written, OWN clear (R66, Table 2.16). -/
def DescDone.bytes (d : DescDone) : Bytes :=
  leBytes 8 d.desc.addr.toNat ++ leBytes 4 d.len.toNat ++
  leBytes 2 (pack [(1, 0), bit d.desc.first, bit d.desc.last, bit d.desc.int]) ++ leBytes 2 d.status.toNat

/-- The VCI header of a request with its opcode (Table 2.5); a host writes word 3 as zero (R37). -/
def hdrBytes (op : U16) (h : Hdr) : Bytes :=
  leBytes 4 (pack [(16, op.toNat), (16, h.length.toNat)]) ++ leBytes 4 h.tag.toNat ++
  leBytes 4 (pack [(4, h.hpart.toNat), (4, h.rsv.toNat % 16), bit h.hurgent, bit h.hcontrol, (22, h.rsv.toNat / 16)]) ++ leBytes 4 0

end Sys2Proof.Machine
end

