-- ==== Sys2Proof/WellFormed.lean ====
section
/-!
DEFINITION. Which terms of the syntax the spec's tables can spell: ports that exist, lists as long as their count fields or tables say,
conversion factors with a denominator, bundles with as many accumulators as lanes.
-/

namespace Sys2Proof

/-- A port of Table 4.1: P0 to P3, F0 to F7, M0. -/
def portOk (port : BitVec 4) : Bool := decide (port.toNat ≤ 12)

/-- A conversion factor divides by no zero. -/
def scaleOk (x : Scale) : Bool := decide (0 < x.den)

/-- The factors of a C37.118 configuration. -/
def cfgOk (c : C37Cfg) : Bool :=
  c.blocks.all (fun b => b.phasors.all (fun x => scaleOk x.scale && scaleOk x.angleOff) &&
    b.analogs.all (fun x => scaleOk x.scale && scaleOk x.offset))

/-- A command that the spec's tables can spell. -/
def Instr.wf : Instr → Bool
  | .identify _ => true
  | .counterClear _ _ => true
  | .snapshot _ _ => true
  | .snapshotRelease _ => true
  | .apertureWindow _ _ => true
  | .deviceReset _ _ => true
  | .heartbeat _ _ => true
  | .claimSet _ _ => true
  | .claimYield _ _ => true
  | .apportion _ _ => true
  | .partitionTimers _ _ => true
  | .dmaRingSetup _ _ => true
  | .dmaRingRetire _ _ => true
  | .dmaRingRetireDone _ _ => true
  | .longCommandTimeout _ => true
  | .earlyDoorbell _ _ => true
  | .discardedWrite _ _ => true
  | .evtConsWrite _ _ => true
  | .hostIdxWrite _ _ _ _ => true
  | .dmaDescriptorDone _ _ _ => true
  | .hbInChange _ _ => true
  | .pathVTimeout _ => true
  | .pathPTimeout _ => true
  | .failureTimerExpiry _ => true
  | .holdoffTimerExpiry _ => true
  | .takeoverDeadline _ => true
  | .snapshotExpiry _ => true
  | .shadowFull _ => true
  | .pcieLinkDown _ => true
  | .pcieLinkUp _ => true
  | .partitionReset _ => true
  | .pornAssert => true
  | .powerOnReset _ => true
  | .bootStageTimeout _ => true
  | .bootReady _ => true
  | .systemReset _ => true
  | .watchdogExpiry _ => true
  | .firmwareHalt _ => true
  | .deviceResetExecute _ => true
  | .pfailAssert => true
  | .pfailRise _ => true
  | .powerFailFlushEnd _ => true
  | .startupGapTimeout => true
  | .timeSourceConfig _ _ => true
  | .timeSlewConfig _ _ => true
  | .timeHoldoverConfig _ _ => true
  | .timeUtcOffset _ _ => true
  | .timeStep _ _ => true
  | .timeStepApply => true
  | .gaConfig _ _ => true
  | .ppsOutConfig _ _ => true
  | .timeRead _ => true
  | .ptpAnnounceRx port _ => portOk port
  | .ptpSyncRx port _ => portOk port
  | .pdelayReqRx m => portOk m.port
  | .pdelayRespRx m => portOk m.port
  | .pdelayReqTx port => portOk port
  | .ptpMasterTx port => portOk port
  | .announceReceiptTimeout port => portOk port
  | .ppsInEdge => true
  | .ppsInLoss => true
  | .irigFrame _ => true
  | .irigLoss => true
  | .srcHoldoffExpiry => true
  | .tqBandElapsed => true
  | .leapPendingStart => true
  | .leapApplied => true
  | .leapOccurredEnd => true
  | .ppsOutRise => true
  | .ppsOutFall => true
  | .gaTick _ => true
  | .timedActionFire => true
  | .portConfig _ _ => true
  | .prpConfig _ _ => true
  | .portTxBind _ _ => true
  | .frameRx f => portOk f.port
  | .portLinkUp port _ _ => portOk port
  | .portLinkDown port => portOk port
  | .lanSilence port => portOk port
  | .prpSupervisionTx _ => true
  | .prpSupervisionRx port => portOk port
  | .hostFrameTx _ _ _ => true
  | .txComplete port _ => portOk port
  | .fieldCollision port => portOk port
  | .backoffExpiry port => portOk port
  | .pressureWindowEnd => true
  | .streamAdd _ _ => true
  | .streamChange _ _ => true
  | .streamRetire _ _ => true
  | .streamRetired _ => true
  | .streamCfgAccept _ _ => true
  | .streamRequest _ _ => true
  | .ingestConfig _ _ => true
  | .c37DataFrame f => portOk f.head.port
  | .c37CfgFrame f => portOk f.head.port && cfgOk f.cfg
  | .c37HeaderFrame f => portOk f.head.port
  | .c37CommandFrame f => portOk f.head.port
  | .svFrame f => portOk f.port && f.samples.all (fun x => decide (x.length = 8))
  | .tcpLinkDown _ => true
  | .tcpReconnect _ => true
  | .tcpConnected _ => true
  | .streamSilent _ => true
  | .directoryRebuilt => true
  | .directoryEntryRewrite _ => true
  | .tdmFrame f => f.all (fun x => decide (x.octets.length = 128) && x.poisoned.all (fun k => decide (k < 128)))
  | .gridConfig _ _ => true
  | .pubAdd _ p => decide (p.handles.length = p.nMembers.toNat)
  | .pubChange _ p => decide (p.handles.length = p.nMembers.toNat)
  | .pubRetire _ _ => true
  | .slabOpen _ => true
  | .speculativeRelease _ _ => true
  | .deadlineRelease _ _ => true
  | .patchRelease _ _ => true
  | .slabHistory _ _ => true
  | .pubFrameBuild _ _ => true
  | .oscScreenConfig _ _ => true
  | .oscEstConfig _ _ => true
  | .oscAlarmConfig _ _ => true
  | .oscWatchAdd _ _ => true
  | .oscWatchRemove _ _ => true
  | .oscBranchAdd _ _ => true
  | .oscBranchRemove _ _ => true
  | .oscRelearn _ _ => true
  | .oscOutputBind _ _ => true
  | .screenStep _ _ => true
  | .screenPatchFix _ _ => true
  | .estimatorStep _ _ => true
  | .estimatorHoldExpiry _ => true
  | .clusterConfig _ _ => true
  | .busSignalAdd _ _ => true
  | .busSignalRemove _ _ => true
  | .clusterRef _ p => decide (p.ref.length = 8)
  | .breakerMapAdd _ _ => true
  | .breakerMapRemove _ _ => true
  | .detectorConfig _ _ => true
  | .alarmMapSet _ _ => true
  | .alarmMapRemove _ _ => true
  | .alarmStage _ _ => true
  | .alarmAck _ _ => true
  | .alarmTestForce _ _ => true
  | .alarmTestRelease _ _ => true
  | .alarmFrameConfig _ _ => true
  | .alarmGooseConfig _ p => decide (p.gocbRef.length = 64 ∧ p.datSet.length = 64 ∧ p.goId.length = 64)
  | .clusterEvaluation _ => true
  | .pinMinOnExpiry _ => true
  | .alarmTestExpiry _ => true
  | .alarmFrameRepeat _ => true
  | .alarmStateRefresh _ => true
  | .gooseRetransmit _ => true
  | .alarmFrameRx f => portOk f.port
  | .captureAdd _ p => decide (p.lanes.length = p.nLanes.toNat)
  | .captureSources _ p => decide (p.entries.length = p.n.toNat)
  | .captureTriggerSet _ _ => true
  | .captureArm _ _ => true
  | .captureDisarm _ _ => true
  | .captureTrigger _ _ => true
  | .captureRecordFree _ _ => true
  | .captureExport _ _ => true
  | .captureExportDone _ => true
  | .captureRetire _ _ => true
  | .captureRetireDone _ => true
  | .halgaImport _ _ => true
  | .halgaImportDone _ _ => true
  | .halgaMerge _ p => decide (p.inputs.length = p.n.toNat)
  | .halgaMergeDone _ => true
  | .captureRemoteConfig _ _ => true
  | .captureRows _ _ _ => true
  | .captureFilled _ => true
  | .triggerHoldoffEnd _ _ => true
  | .remoteTriggerRx f => portOk f.port
  | .recordAssembled _ _ => true
  | .sageClockConfig _ _ => true
  | .sageChainConfig _ _ => true
  | .sageFirLoad _ p => decide (p.coeff.length = (p.len.toNat + 1) / 2)
  | .sageFirSwitch _ _ => true
  | .sageDcFreeze _ _ => true
  | .sageDcRelease _ _ => true
  | .sageCal _ _ => true
  | .sageTempTable _ p => decide (p.points.length = 33)
  | .sageTempSource _ _ => true
  | .sageTemp _ p => decide (p.entries.length = p.n.toNat)
  | .sagePmuAdd _ _ => true
  | .sagePmuRetire _ _ => true
  | .sagePmuSvWindow _ _ => true
  | .sageOutputSample bb => decide (bb.bits.length = 6)
  | .inputLost _ => true
  | .inputRestored _ => true
  | .dcAcquireDone _ => true
  | .settlingEnd _ => true
  | .fadeEnd _ => true
  | .tempStaleExpiry _ => true
  | .localPmuReport _ => true
  | .halfCycleInterval _ => true
  | .eqMpConfig _ _ => true
  | .eqRegConfig _ _ => true
  | .pulseConfig _ _ => true
  | .eqSaveConfig _ _ => true
  | .eqSeal _ _ => true
  | .eqSealDone => true
  | .eqGapAck _ _ => true
  | .accumulationCycleEnd _ => true
  | .pulseStart _ => true
  | .pulseEnd _ => true
  | .energySave => true
  | .energySaveVerified _ => true
  | .voiceTdmConfig _ _ => true
  | .voiceChOpen _ _ => true
  | .voiceChModify _ _ => true
  | .voiceChStart _ _ => true
  | .voiceChStop _ _ => true
  | .ecReset _ _ => true
  | .ecFreeze _ _ => true
  | .ecUnfreeze _ _ => true
  | .jitterResync _ _ => true
  | .announcementStop _ _ => true
  | .voiceChClose _ _ => true
  | .voiceSrtpKey _ _ => true
  | .voiceToneProfile _ _ => true
  | .voiceToneBind _ _ => true
  | .voiceToneGen _ p => decide (p.digits.length = p.n.toNat)
  | .voiceAnnLoad _ _ => true
  | .voiceAnnLoaded _ _ => true
  | .voiceAnnMapSet _ p => decide (p.channels.length = p.nCh.toNat)
  | .voiceAnnMapRemove _ p => decide (p.channels.length = p.nCh.toNat)
  | .voiceAnnPlay _ p => decide (p.channels.length = p.nCh.toNat)
  | .voiceBlock _ => true
  | .rtpPacketRx _ => true
  | .dtmfEventTimeout _ => true
  | .rtcpTx _ => true
  | .rtcpRx _ => true
  | .voiceMediaTimeout _ => true
  | .hostVoiceBlock _ => true
  | .kernelLoad _ _ => true
  | .kernelLoaded _ _ _ => true
  | .kernelBindAdd _ p => decide (p.handles.length = p.n.toNat)
  | .kernelBindRemove _ p => decide (p.handles.length = p.n.toNat)
  | .kernelStart _ _ => true
  | .kernelStop _ _ => true
  | .kernelStopped _ => true
  | .kernelUnload _ _ => true
  | .kernelInputMessage _ => true
  | .dmac32 _ bb => decide (bb.accs.length = 2) && decide bb.accs.Nodup
  | .qmac16 _ bb => decide (bb.accs.length = 4) && decide bb.accs.Nodup
  | .mac32 _ bb => decide (bb.accs.length = 1) && decide bb.accs.Nodup
  | .dmac16 _ bb => decide (bb.accs.length = 2) && decide bb.accs.Nodup
  | .msu _ _ bb => decide bb.accs.Nodup
  | .tapmv _ _ _ _ => true
  | .macr _ _ _ _ _ _ => true
  | .msur _ _ _ _ _ _ => true
  | .adda _ _ _ _ => true
  | .suba _ _ _ _ => true
  | .nega _ _ _ => true
  | .absa _ _ _ => true
  | .sha _ _ _ _ _ => true
  | .clra _ accs => decide (accs.length ≤ 4)
  | .exp _ _ _ => true
  | .expd _ _ _ => true
  | .norm _ _ _ _ => true
  | .sac _ _ _ _ _ _ => true
  | .mva _ _ _ _ _ _ => true
  | .add _ _ _ _ => true
  | .sub _ _ _ _ => true
  | .addi _ _ _ imm => decide (imm.toNat < 2 ^ 16 ∨ 2 ^ 32 - 2 ^ 15 ≤ imm.toNat)
  | .andD _ _ _ _ => true
  | .orD _ _ _ _ => true
  | .xorD _ _ _ _ => true
  | .notD _ _ _ => true
  | .shl _ _ _ _ => true
  | .shr _ _ _ _ => true
  | .sar _ _ _ _ => true
  | .rot _ _ _ _ => true
  | .min _ _ _ _ => true
  | .max _ _ _ _ => true
  | .abs _ _ _ => true
  | .cmp _ _ _ => true
  | .sel _ _ _ _ _ => true
  | .mul _ _ _ _ => true
  | .mulh _ _ _ _ => true
  | .divs _ _ _ _ => true
  | .fadd _ _ _ _ => true
  | .fsub _ _ _ _ => true
  | .fmul _ _ _ _ => true
  | .fma _ _ _ _ _ => true
  | .fmin _ _ _ _ => true
  | .fmax _ _ _ _ => true
  | .fabs _ _ _ => true
  | .fneg _ _ _ => true
  | .fcmp _ _ _ => true
  | .fcvt _ _ _ _ => true
  | .frcp _ _ _ => true
  | .frsq _ _ _ => true
  | .ld _ _ _ _ _ => true
  | .st _ _ _ _ => true
  | .ld64 _ _ _ => true
  | .st64 _ _ _ => true
  | .ldc _ _ _ _ => true
  | .stc _ _ _ _ => true
  | .movi _ _ imm => decide (imm.toNat < 2 ^ 21 ∨ 2 ^ 32 - 2 ^ 20 ≤ imm.toNat)
  | .modi _ _ _ => true
  | .mov _ _ _ => true
  | .b _ _ => true
  | .bcc _ _ _ => true
  | .call _ _ => true
  | .ret _ => true
  | .loop _ _ _ => true
  | .rep _ _ => true
  | .dmaq _ _ => true
  | .outq _ _ _ _ => true
  | .waitd _ _ => true
  | .dmaTransferDone _ => true
  | .mvccr _ _ => true
  | .nop _ => true
  | .done _ => true
  | .budgetFault _ => true
  | .yarrowConfig _ _ => true
  | .yarrowLoadBind _ _ => true
  | .taskDispatch => true
  | .delayExpiry => true
  | .loadWindowEnd => true
  | .placementEvaluation _ => true
  | .cfXcvrProfile _ p => decide (p.seqs.length = 8 ∧ p.chWords.length = 64) && p.seqs.all (fun q => decide (q.bytes.length = 62))
  | .cfConfig _ _ => true
  | .cfChannelMap _ _ => true
  | .cfNodeAdd _ _ => true
  | .cfNodeRemove _ _ => true
  | .cfNodeKey _ _ => true
  | .cfNodeStreamMap _ _ => true
  | .cfNodeStreamUnmap _ _ => true
  | .cfOutputBind _ _ => true
  | .cfSend _ p => decide (p.body.length = p.len.toNat)
  | .cfResetWaitEnd _ => true
  | .cfStartupRetry => true
  | .cfIrqTimeout => true
  | .superframePlanning => true
  | .beaconStatusCheck _ => true
  | .superframeStart => true
  | .slotPoll _ => true
  | .cfIrq _ => true
  | .responseRx _ => true
  | .beaconTxTimeout => true
  | .slotEnd _ => true
  | .nodeSupervisionTimeout _ => true
  | .dillConfig _ _ => true
  | .dillJobOpen _ _ => true
  | .dillJobClose _ _ => true
  | .dillJobFreed _ => true
  | .dillSegment _ => true
  | .dillJobSwitch _ => true
  | .poppyCursorAbsolute _ _ => true
  | .poppyCursorRelative _ _ => true
  | .poppyCursorFirstKept _ _ => true
  | .poppyCursorOldestCirc _ _ => true
  | .poppyCursorLatest _ _ => true
  | .poppyRateSet _ _ => true
  | .poppyRateRemove _ _ => true
  | .otpWrite _ _ => true
  | .otpWriteDone _ => true
  | .flashImageWrite _ _ => true
  | .flashImageWritten _ => true
  | .flashConfig _ _ => true
  | .rateLimitRefill _ => true
  | .flushPeriodic => true
  | .flushStart => true
  | .flushDone _ => true
  | .opTimeLogWrite => true
  | .undefinedOpcode _ _ => true
  | .carrierSenseDrop port => portOk port
  | .jtagTck _ => true

/-- A well-formed command. -/
abbrev WellFormed (i : Instr) : Prop := i.wf = true

end Sys2Proof
end

