-- ==== Sys2Proof/Safety.lean ====
section
/-!
DEFINITION. What statements about the machine are said with: the parts of its state, what a step leaves unchanged, when the host's command
is taken and how it is answered, and the invariant of the state.
-/

namespace Sys2Proof.Machine

/-- The parts of the state. -/
inductive Blk where
  | dev | clk | host | pop | net | ing | aln | osc | isl | alm | cap | sage | eq | voc | sor | yar | cf | dill | jtag | cnt | free | shadow
  | pending
  deriving DecidableEq, Repr

/-- A part of two states is the same. -/
def Blk.same (s t : State) : Blk → Prop
  | .dev => t.dev = s.dev
  | .clk => t.clk = s.clk
  | .host => t.host = s.host
  | .pop => t.pop = s.pop
  | .net => t.net = s.net
  | .ing => t.ing = s.ing
  | .aln => t.aln = s.aln
  | .osc => t.osc = s.osc
  | .isl => t.isl = s.isl
  | .alm => t.alm = s.alm
  | .cap => t.cap = s.cap
  | .sage => t.sage = s.sage
  | .eq => t.eq = s.eq
  | .voc => t.voc = s.voc
  | .sor => t.sor = s.sor
  | .yar => t.yar = s.yar
  | .cf => t.cf = s.cf
  | .dill => t.dill = s.dill
  | .jtag => t.jtag = s.jtag
  | .cnt => t.cnt = s.cnt
  | .free => t.free = s.free
  | .shadow => t.shadow = s.shadow
  | .pending => t.pending = s.pending

/-- From one state to another, nothing changes but the parts listed. -/
def OnlyIn (l : List Blk) (s t : State) : Prop := ∀ b, b ∉ l → Blk.same s t b

/-- A header that fits its command and its mailbox (R39, R40, R41). -/
abbrev HeaderFits (c : Cmd) (h : Hdr) : Prop :=
  h.length.toNat = c.len ∧ c.len ≤ 4080 ∧ (h.urg = true → c.u = true) ∧ h.hpart.toNat = h.part.val ∧ h.hurgent = h.urg ∧
  h.hcontrol = decide (c.cls = .control) ∧ h.rsv = 0

/-- No response to the tag is cached (R42). -/
abbrev TagFresh (h : Hdr) (s : State) : Prop := cached s h = none

/-- A command that is taken and passes every check of R39 but its own: the device is READY, the partition's lanes form a link, the header fits,
the tag is fresh, a control-class command comes from the controller, and a long command finds fewer than 16 outstanding. -/
abbrev Admitted (c : Cmd) (h : Hdr) (s : State) : Prop :=
  (getPart s h.part).present = true ∧ s.dev.boot = .ready ∧ HeaderFits c h ∧ TagFresh h s ∧
  (c.cls = .control → s.host.controller = some h.part) ∧ (c.long = true → outstanding s h.part < 16)

/-- The mailbox a header came in by. -/
def mbxOf (h : Hdr) (s : State) : Mbx := if h.urg then (getPart s h.part).mbxU else (getPart s h.part).mbxN

/-- The command is answered in its mailbox (Table 2.5). -/
def Answers (h : Hdr) (op : Nat) (st : Sts) (resp : Bytes) (t : State) : Prop :=
  mbxOf h t = { opcode := BitVec.ofNat 16 op, tag := h.tag, status := st.w, resp, done := true }

/-- Counters of the aperture stand in canonical form, none listed at zero, none past its end (R12). -/
def CountersSound (s : State) : Prop := Tbl.wf s.cnt = true ∧ ∀ e ∈ s.cnt, 0 < e.2 ∧ e.2 < 2 ^ 64

/-- The unflushed buffer of the Poppy recorder holds at most 1,024 records (R434, R435). -/
def BufferSound (s : State) : Prop := s.pop.buffer.length ≤ 1024

/-- The nanoseconds of device time lie below one second (R71). -/
def ClockSound (s : State) : Prop := s.clk.ns.toNat < 1000000000

/-- What every step keeps: the counters, the record buffer and the clock are sound. -/
def Sound (s : State) : Prop := CountersSound s ∧ BufferSound s ∧ ClockSound s

/-- The memories of the cores and clusters stand in canonical form. -/
def RamsSound (s : State) : Prop :=
  (∀ e ∈ s.sor.cores, Ram.wf e.2.im = true ∧ Ram.wf e.2.x = true ∧ Ram.wf e.2.y = true) ∧ ∀ e ∈ s.sor.sram, Ram.wf e.2 = true

/-! ### Instructions of the Sorrel cores -/

/-- The cycles an instruction waits for its operands (R361). -/
def stallOf (core : CoreNo) (reads : List Nat) (s : State) : Nat :=
  reads.foldl (fun m k => max m (tgetD (getCore s core.toNat).ready k 0 - (getCore s core.toNat).runCycles)) 0

/-- The core when the operands of its instruction are ready. -/
def coreAt (core : CoreNo) (reads : List Nat) (s : State) : Core := addCycles (stallOf core reads s) (getCore s core.toNat)

/-- The state then: the stall has been counted. -/
def stateAt (core : CoreNo) (reads : List Nat) (s : State) : State :=
  bumpBy (coreCnt core.toNat 0x208) (stallOf core reads s)
    (bumpBy (coreCnt core.toNat 0x220) (stallOf core reads s) (setCore core.toNat (coreAt core reads s) s))

/-- An instruction of so many words issues: its core runs, its words lie in IM at a multiple of 4, it does not stand at the end of a loop body
where it may not, and the budget of the run is not spent (R359, R371, Table 13.8). -/
abbrev Issues (core : CoreNo) (reads : List Nat) (words : Nat) (endOk : Bool) (s : State) : Prop :=
  (getCore s core.toNat).state = .running ∧ (getCore s core.toNat).pc.toNat + 4 * words ≤ 0x8000 ∧ (getCore s core.toNat).pc.toNat % 4 = 0 ∧
  (endOk = true ∨ (getCore s core.toNat).loops.any (fun l => decide (l.last = (getCore s core.toNat).pc)) = false) ∧
  overBudget (stateAt core reads s) (coreAt core reads s) = false

/-- An instruction retires: its cycles count, and the core goes on at the address it gives, or after its words. -/
def retire (core : CoreNo) (words : Nat) (x : Ex) : State :=
  bumpBy (coreCnt core.toNat 0x208) x.cyc
    (setCore core.toNat (addCycles x.cyc (match x.pc with
      | some p => { x.c with pc := p }
      | none => advance words x.c)) x.s)

end Sys2Proof.Machine
end

