-- ==== Sys2Proof/Certificates/Slice0/Obligations.lean ====
section
/-!
DEFINITION. The statements for the provers, by chapter of the spec. Statements of completion say under which conditions on the state and
the operands a command has its effect, and give the next state; `u` is the state with the command counted.
-/

open Sys2Proof Sys2Proof.Machine

/-- Tier 1. With a command in front, a step is that command run with the rest of the queue: first in, first out, one at a time (the queue is the
  model's, log entry 2). -/
def Obligations.StepRunsFrontCommand : Prop :=
  ∀ (c : Instr) (rest : List Instr) (s : State), step { s with pending := c :: rest } = exec c { s with pending := rest }

/-- Tier 1. On an empty queue a step answers a next state: one 500 MHz cycle of the device clock (the model's choice, log entry 1). While PORN is low
  nothing changes; otherwise only the clock block does, and elapsed time advances by INCR. -/
def Obligations.IdleStepAdvancesClock : Prop :=
  ∀ s : State, s.pending = [] → ∃ t, step s = .next t ∧ OnlyIn [.clk] s t ∧ (s.dev.porn = false → t = s) ∧
    (s.dev.porn = true → t.clk.adv = s.clk.adv + s.clk.incrApplied.toNat)

/-- Tier 2. Every command, in every state, answers a next state: none faults and none is refused, since the spec gives every row an effect. -/
def Obligations.EveryCommandAnswersNextState : Prop :=
  ∀ (c : Instr) (s : State), ∃ t, exec c s = .next t

/-- Tier 2. R39, R42, R458: what a doorbell does. Before READY (and outside recovery) it is ignored and counted in BOOT_DB; a cached tag is answered
  with its cached status and response, bit 15 set, and REPLAYS counted; otherwise the first of the checks that fails gives the status, with
  no effect. Stated of `vci`, the one path that every VCI command takes. -/
def Obligations.DoorbellChecksInOrder : Prop :=
  ∀ (c : Cmd) (h : Hdr) (ok : State → Bool) (body : State → Rep) (s : State), (getPart s h.part).present = true →
    let u := countCmd h s
    (s.dev.boot ≠ .ready → recovering s = false → vci c h ok body s = bump 0x01000100 s) ∧
    (s.dev.boot = .ready → ∀ e, cached s h = some e →
      vci c h ok body s = respond h c.op (e.status ||| 0x8000) e.resp false (bump (partBase h.part + 0x50) u)) ∧
    (s.dev.boot = .ready → cached s h = none →
      (4080 < h.length.toNat → vci c h ok body s = answer h c.op (refuse .badLength u)) ∧
      (h.length.toNat ≤ 4080 →
        (h.urg = true ∧ c.u = false → vci c h ok body s = answer h c.op (refuse .badOpcode u)) ∧
        ((h.urg = true → c.u = true) →
          (h.length.toNat ≠ c.len → vci c h ok body s = answer h c.op (refuse .badLength u)) ∧
          (h.length.toNat = c.len →
            (h.hpart.toNat ≠ h.part.val ∨ h.hurgent ≠ h.urg ∨ h.hcontrol ≠ decide (c.cls = .control) ∨ h.rsv ≠ 0 ∨ ok u = false →
              vci c h ok body s = answer h c.op (refuse .badParam u)) ∧
            (HeaderFits c h → ok u = true →
              (c.cls = .control → s.host.controller ≠ some h.part → vci c h ok body s = answer h c.op (refuse .notController u)) ∧
              ((c.cls = .control → s.host.controller = some h.part) →
                (c.long = true ∧ 16 ≤ outstanding s h.part → vci c h ok body s = answer h c.op (refuse .busy u)) ∧
                ((c.long = true → outstanding s h.part < 16) → vci c h ok body s = answer h c.op (body u))))))))

/-- Tier 2. R37, R42: the answer: opcode, tag, status, response and DONE in the mailbox the command came in by; a nonzero tag is cached for replay; the
  mailbox's vector is signalled; no part of the machine but the partition and the counters changes. -/
def Obligations.AnswerStandsInMailbox : Prop :=
  ∀ (h : Hdr) (op : Nat) (st : Sts) (resp : Bytes) (s : State),
    let t := answer h op ⟨st, resp, s⟩
    Answers h op st resp t ∧ OnlyIn [.host, .cnt] s t ∧
    (h.tag ≠ 0 → cached t h = some { tag := h.tag, opcode := BitVec.ofNat 16 op, status := st.w, resp }) ∧
    tgetD (getPart t h.part).msix (if h.urg then 1 else 0) 0 = tgetD (getPart s h.part).msix (if h.urg then 1 else 0) 0 + 1 ∧
    (∀ p : HP, p ≠ h.part → getPart t p = getPart s p) ∧ t.host.controller = s.host.controller ∧ t.host.long = s.host.long ∧
    (st ≠ .notController → t.cnt = s.cnt)

/-- Tier 1. R49, R50, R63, R64: IDENTIFY, SNAPSHOT, SNAPSHOT-RELEASE, APERTURE-WINDOW and COUNTER-CLEAR have their effect. Groups 0x06 and 0x09 have one
  window, on the table it was last placed on (R181, R255; the model's reading, log entry 65). -/
def Obligations.DeviceCommandsComplete : Prop :=
  ∀ (h : Hdr) (s : State), let u := countCmd h s
  (Admitted (⟨0x0101, .openC, true, false, 0, true⟩) h s → 
    exec (.identify h) s = .next (answer h 0x0101 (doneWith (leBytes 4 0x6250 ++ leBytes 2 Config.stepping.toNat ++ [if s.dev.imageB then 1 else 0, 0]
      ++ leBytes 4 (Config.fwVersion s.dev.imageB).toNat ++ leBytes 4 (s.pop.otpBoot.length + 16 * s.pop.otpSeal.length + 256 * s.pop.otpDef.length))
      u))) ∧
  (∀ (p : SnapshotP), Admitted (cmd 0x0103 .openC false 16) h s → p.rsv = 0 → p.groups &&& 0xFFFC0001 = 0 → p.windowed &&& 0xFFFC0001 = 0 → p.expiryMs =
    0 ∨ (100 ≤ p.expiryMs.toNat ∧ p.expiryMs.toNat ≤ 60000) → (getPart s h.part).snap.state ≠ .valid → 
    ∃ t, exec (.snapshot h p) s = .next t ∧ Answers h 0x0103 .ok (leBytes 8 s.clk.sec.toNat ++ leBytes 4 s.clk.ns.toNat ++ leBytes 4 ((getPart s
      h.part).snap.gen + 1).toNat) t ∧ t.shadow.get h.part = some u.toBlocks ∧ (getPart t h.part).snap =
      { state := .valid, gen := (getPart s h.part).snap.gen + 1, taiS := s.clk.sec, groups := p.groups, windowed := p.windowed, expiry := elNs s + (if
          p.expiryMs = 0 then 10000 else p.expiryMs.toNat) * 1000000 } ∧ OnlyIn [.host, .cnt, .shadow] s t) ∧
  (Admitted (cmd 0x0104 .openC true 0) h s → (getPart s h.part).snap.state = .valid → 
    ∃ t, exec (.snapshotRelease h) s = .next t ∧ Answers h 0x0104 .ok [] t ∧ t.shadow.get h.part = none ∧ (getPart t h.part).snap =
      { (getPart s h.part).snap with state := .released } ∧ OnlyIn [.host, .cnt, .shadow] s t) ∧
  (∀ (p : ApertureWindowP) (n : Nat), Admitted (cmd 0x0105 .openC false 8) h s → p.rsv = 0 → windowSize s p.group.toNat p.table.toNat p.first.toNat =
    some n → p.first.toNat < n → 
    exec (.apertureWindow h p) s = .next (answer h 0x0105 (done (modPart h.part (fun x =>
      { x with windows := placeWindow p.group.toNat p.table.toNat p.first.toNat x.windows }) u)))) ∧
  (∀ (g b f : Nat) (w : Tbl Nat), b < 256 → 
    tget (placeWindow g b f w) (g * 256 + b) = some f ∧ (∀ k, k / 256 ≠ g → tget (placeWindow g b f w) k = tget w k) ∧ ((g = 6 ∨ g = 9) → ∀ k, k / 256
      = g → k ≠ g * 256 + b → tget (placeWindow g b f w) k = none)) ∧
  (∀ (p : CounterClearP), Admitted (cmd 0x0102 .control false 8) h s → p.rsv = 0 → 1 ≤ p.group.toNat → p.group.toNat ≤ 0x11 → p.scope = 0 ∨ (p.scope = 1
    ∧ isCounter (streamFirst s h.part) p.group.toNat p.offset.toNat = true) → 
    ∃ v, exec (.counterClear h p) s = .next (answer h 0x0102 (done (raise 0x0110 1 ([BitVec.ofNat 8 h.part.val, p.group, p.scope] ++ leBytes 4
      p.offset.toNat) none v))) ∧
      (∀ a, a / 0x1000000 = p.group.toNat → (p.scope = 0 ∨ a % 0x1000000 = p.offset.toNat) → cntGet v a = 0) ∧
      (∀ a, (a / 0x1000000 ≠ p.group.toNat ∨ p.scope = 1 ∧ a % 0x1000000 ≠ p.offset.toNat) → cntGet v a = cntGet u a) ∧
      v.eq.regs = s.eq.regs ∧ v.eq.pulses = s.eq.pulses ∧ v.pop.powerCycles = s.pop.powerCycles ∧ v.pop.erases = s.pop.erases)

/-- Tier 1. R49, R55, R60, R66: the heartbeat, claims, quotas, timers and DMA rings. -/
def Obligations.PartitionCommandsComplete : Prop :=
  ∀ (h : Hdr) (s : State), let u := countCmd h s
  (∀ (p : HeartbeatP) (v : State), Admitted (cmd 0x0201 .openC true 8) h s → p.rsv = 0 → v = evalPart h.part (modPart h.part (fun q =>
    { q with v := true, lastV := BitVec.ofNat 64 (taiNs s), lastVEl := elNs s, takeover := none }) u) → 
    exec (.heartbeat h p) s = .next (answer h 0x0201 (doneWith (leBytes 4 p.hostSeq.toNat ++ [optHP v.host.controller,
      BitVec.ofNat 8 (getPart v h.part).pstate.num, 0, 0] ++ leBytes 8 s.clk.sec.toNat) v))) ∧
  (∀ (p : ClaimSetP), Admitted (cmd 0x0202 .control true 4) h s → p.rsv = 0 → p.partition.toNat < 4 → claimUnique s (Fin.ofNat 4 p.partition.toNat)
    p.claim = true → 
    exec (.claimSet h p) s = .next (answer h 0x0202 (done (setClaim (Fin.ofNat 4 p.partition.toNat) p.claim h.part u)))) ∧
  (∀ (p : ClaimYieldP), Admitted (cmd 0x0203 .openC true 4) h s → p.rsv = 0 → p.claim.toNat < (getPart s h.part).claim.toNat → claimUnique s h.part
    p.claim = true → 
    exec (.claimYield h p) s = .next (answer h 0x0203 (done (setClaim h.part p.claim h.part u)))) ∧
  (∀ (p : ApportionP) (v : State), Admitted (cmd 0x0204 .control false 32) h s → p.rsv = 0 → p.partition.toNat < 4 → p.dmaRings.toNat ≤ 64 → (useOf s
    (Fin.ofNat 4 p.partition.toNat)).le (apportionQuota p) = true → v = modPart (Fin.ofNat 4 p.partition.toNat) (fun x =>
    { x with quota := apportionQuota p }) (countCmd h s) → (quotaSum v).le Quota.limit = true → 
    exec (.apportion h p) s = .next (answer h 0x0204 (done (raise 0x020D 1 (p.partition :: (apportionQuota p).bytes) none v)))) ∧
  (∀ (p : PartitionTimersP), Admitted (cmd 0x0205 .control false 8) h s → p.rsv = 0 → 100 ≤ p.failMs.toNat → p.failMs.toNat ≤ 5000 → 1000 ≤
    p.holdoffMs.toNat → p.holdoffMs.toNat ≤ 60000 → p.hbpFitted.toNat < 16 → 
    ∃ v, exec (.partitionTimers h p) s = .next (answer h 0x0205 (done (evalAll v))) ∧ v.host.failMs = p.failMs ∧ v.host.holdoffMs = p.holdoffMs ∧
      (∀ q : HP, getPart v q = { getPart s q with hbpFitted := p.hbpFitted.getLsbD q.val }) ∧ OnlyIn [.host, .cnt] s v) ∧
  (∀ (p : DmaRingSetupP), Admitted (cmd 0x0206 .openC false 16) h s → p.rsv = 0 → p.ring.toNat < 64 → p.dir.toNat < 2 → p.base.toNat % 4096 = 0 →
    ringEntriesOk p.entries.toNat = true → getRing s h.part p.ring.toNat = none → ringCount s h.part < (getPart s h.part).quota.dmaRings → 
    ∃ t, exec (.dmaRingSetup h p) s = .next t ∧ Answers h 0x0206 .ok [] t ∧ getRing t h.part p.ring.toNat = some
      { toDev := decide (p.dir = 1), entries := p.entries.toNat, base := p.base, hostIdx := 0, devIdx := 0, use := .unbound, bells := [], retiring :=
          none, owned := [], lastDone := none } ∧ OnlyIn [.host, .cnt] s t) ∧
  (∀ (p : DmaRingRetireP) (r : Ring), Admitted (cmdLong 0x0207 .openC false 4) h s → p.rsv = 0 → p.ring.toNat < 64 → getRing s h.part p.ring.toNat =
    some r → r.retiring = none → 
    exec (.dmaRingRetire h p) s = .next (answer h 0x0207 (⟨.accepted, [], modPart h.part (fun x =>
      { x with rings := tmod x.rings p.ring.toNat (fun y => { y with retiring := some s.host.longNext }) }) (startLong h 0x0207 100 (unbindUse h.part
      p.ring.toNat u)).2⟩)))

/-- Tier 1. R38, R48, R58, R66: what host links, heartbeat inputs and writes outside the mailboxes do, and what a partition's reset leaves. -/
def Obligations.PartitionEventsComplete : Prop :=
  ∀ (p : HP) (s : State),
  (∀ (urg : Bool), (getPart s p).present = true → s.dev.boot = .ready → 
    exec (.earlyDoorbell p urg) s = .next (bump (partBase p + 0x60) s)) ∧
  (∀ (bar : BitVec 3), (getPart s p).present = true → 
    exec (.discardedWrite p bar) s = .next (bump (partBase p + 0x80) s)) ∧
  (∀ (value : U32), (getPart s p).present = true → (value - (getPart s p).evtCons).toNat ≤ ((getPart s p).evtProd - (getPart s p).evtCons).toNat → 
    exec (.evtConsWrite p value) s = .next (eventsLost p (setPart p { getPart s p with evtCons := value } s))) ∧
  (∀ (ring : BitVec 6) (value : U32) (descs : List Desc) (r : Ring), getRing s p ring.toNat = some r → (value - r.devIdx).toNat ≤ r.entries → (r.hostIdx
    - r.devIdx).toNat ≤ (value - r.devIdx).toNat → descs.length = (value - r.hostIdx).toNat → 
    exec (.hostIdxWrite p ring value descs) s = .next (setRing p ring.toNat
      { r with hostIdx := value, owned := r.owned ++ descs, bells := ringBells r ++ if value = r.hostIdx then [] else [(value, taiNs s)] } s)) ∧
  (∀ (ring : BitVec 6) (poison : U16) (r : Ring) (d : Desc) (rest : List Desc), getRing s p ring.toNat = some r → r.toDev = true → hostReads s p = true
    → r.owned = d :: rest → 
    ∃ t, exec (.dmaDescriptorDone p ring poison) s = .next t ∧ getRing t p ring.toNat = some
      { r with owned := rest, devIdx := r.devIdx + 1, lastDone := some { desc := d, status := if poison = 0 then 0 else 10, len := d.len, data := [] }
                 } ∧ cntGet t 0x05000130 = cntGet (bumpBy 0x05000130 poison.toNat s) 0x05000130 ∧ (poison = 0 → OnlyIn [.host] s t)) ∧
  (∀ (ring : BitVec 6) (r : Ring) (id : Nat), getRing s p ring.toNat = some r → r.retiring = some id → 
    exec (.dmaRingRetireDone p ring) s = .next (completeLong id .ok [] (modPart p (fun x => { x with rings := tdel x.rings ring.toNat }) (flushRing p
      ring.toNat s)))) ∧
  (∀ (level : Bool), (getPart s p).present = true → 
    exec (.hbInChange p level) s = .next (evalPart p (modPart p (fun q =>
      { q with p := true, hbIn := level, lastP := BitVec.ofNat 64 (taiNs s - 10000), lastPEl := elNs s - 10000 }) s))) ∧
  (exec (.pcieLinkDown p) s = .next (modPart p (fun q => { q with link := false }) s)) ∧
  (exec (.pcieLinkUp p) s = .next (modPart p (fun q => { q with link := q.present }) s)) ∧
  ((getPart s p).present = true → 
    ∃ v, exec (.partitionReset p) s = .next (eventsLost p v) ∧ (getPart v p).mbxN = .init ∧ (getPart v p).mbxU = .init ∧ (getPart v p).cacheN = [] ∧
      (getPart v p).cacheU = [] ∧ (getPart v p).evtProd = 0 ∧ (getPart v p).evtCons = 0 ∧ (getPart v p).evtRing = [] ∧
      (∀ n r, getRing v p n = some r → r.owned = []) ∧ v.host.controller = s.host.controller)

/-- Tier 1. R44, R58, R60, R64: the losses of the two paths, the partition timers, the ends of snapshots, and long commands at their limits. -/
def Obligations.PartitionTimersComplete : Prop :=
  ∀ (p : HP) (s : State),
  ((getPart s p).v = true → (getPart s p).lastVEl + 100000000 ≤ elNs s → 
    exec (.pathVTimeout p) s = .next (evalPart p (modPart p (fun x =>
      { x with v := false, p := if (getPart s p).p = true ∧ (getPart s p).lastPEl + 50000000 = (getPart s p).lastVEl + 100000000 then false else x.p
                 }) s))) ∧
  ((getPart s p).p = true → (getPart s p).lastPEl + 50000000 ≤ elNs s → 
    exec (.pathPTimeout p) s = .next (evalPart p (modPart p (fun x =>
      { x with p := false, v := if (getPart s p).v = true ∧ (getPart s p).lastPEl + 50000000 = (getPart s p).lastVEl + 100000000 then false else x.v
                 }) s))) ∧
  (∀ (e : Nat), (getPart s p).pstate = .failing → (getPart s p).failTimer = some e → e ≤ elNs s → 
    exec (.failureTimerExpiry p) s = .next (toOut p 0x0204 (BitVec.ofNat 8 p.val :: (getPart s p).claim :: (leBytes 8 (getPart s p).lastV.toNat ++
      leBytes 8 (getPart s p).lastP.toNat)) 0 s)) ∧
  (∀ (e : Nat), (getPart s p).pstate = .returning → (getPart s p).holdTimer = some e → e ≤ elNs s → 
    exec (.holdoffTimerExpiry p) s = .next (reeval 1 (toHealthy p s))) ∧
  (∀ (e : Nat), (getPart s p).pstate.live = true → (getPart s p).takeover = some e → e ≤ elNs s → 
    exec (.takeoverDeadline p) s = .next (toOut p 0x0207 (BitVec.ofNat 8 p.val :: leBytes 8 (taiNs s - (elNs s - e))) 3 s)) ∧
  ((getPart s p).snap.state = .valid → (getPart s p).snap.expiry ≤ elNs s → 
    exec (.snapshotExpiry p) s = .next (raise 0x020C 1 (leBytes 4 (getPart s p).snap.groups.toNat ++ leBytes 4 (getPart s p).snap.gen.toNat ++ [1])
      none (endSnapshot p .aborted s))) ∧
  ((getPart s p).snap.state = .valid → 
    exec (.shadowFull p) s = .next (raise 0x020C 1 (leBytes 4 (getPart s p).snap.groups.toNat ++ leBytes 4 (getPart s p).snap.gen.toNat ++ [0]) none
      (endSnapshot p .aborted s))) ∧
  (∀ (id : U32) (l : LongCmd), tget s.host.long id.toNat = some l → l.deadline ≤ elNs s → 
    exec (.longCommandTimeout id) s = .next (completeLong id.toNat .timeout [] (timeoutLeaves l.opcode.toNat id.toNat s)))

/-- Tier 2. R57 to R59: a partition's moves by its paths (Table 2.10): from HEALTHY, DEGRADED and FAILING by the two paths alone, at the instant they
  change; RETURNING and OUT go to OUT or stay OUT while a path is lost. -/
def Obligations.PartitionMovesByItsPaths : Prop :=
  ∀ (p : HP) (s : State), s.dev.boot = .ready → (getPart s p).present = true →
  let q := getPart s p
  let new := (getPart (evalPart p s) p).pstate
  (q.pstate = .healthy ∨ q.pstate = .degraded ∨ q.pstate = .failing →
    new = if q.v = true ∧ effP q = true then .healthy else if q.v = false ∧ effP q = false then .failing
          else .degraded) ∧
  (q.pstate = .returning → q.v = false ∨ effP q = false → new = .out) ∧
  (q.pstate = .out → q.v = false ∨ effP q = false → new = .out)

/-- Tier 1. The commands of the device clock, the grid-angle clock and PPS_OUT have their effect on the operands their tables allow (R74, R77, R79, R80,
  R82, R87, R88, R94, R99, R100). -/
def Obligations.TimeCommandsComplete : Prop :=
  ∀ (h : Hdr) (s : State), let u := countCmd h s
  (∀ (p : TimeSourceConfigP), Admitted (cmd 0x0301 .control false 8) h s → p.srcEn.toNat < 8 → p.pair.toNat < 2 → p.domain.toNat < 128 → 6 ≤
    p.classLimit.toNat → p.srcHoldoff.toNat ≤ 600 → p.rsv = 0 → 
    exec (.timeSourceConfig h p) s = .next (answer h 0x0301 (done (dropSources (decide (s.clk.pair ≠ decide (p.pair = 1) ∨ s.clk.domain ≠ p.domain))
      { u with clk := { s.clk with srcEn := p.srcEn.setWidth 3, pair := decide (p.pair = 1), domain := p.domain, classLimit := p.classLimit,
                                     srcHoldoff := p.srcHoldoff.toNat, fMaster := p.fMaster } })))) ∧
  (∀ (p : TimeSlewConfigP), Admitted (cmd 0x0302 .control false 8) h s → 1 ≤ p.slewPpm.toNat → p.slewPpm.toNat ≤ 500 → p.rsv = 0 → 1 ≤ p.alertUs.toNat →
    p.alertUs.toNat ≤ 1000000 → 
    exec (.timeSlewConfig h p) s = .next (answer h 0x0302 (done
      { u with clk := confineSlew { s.clk with slewPpm := p.slewPpm.toNat, alertUs := p.alertUs.toNat } }))) ∧
  (∀ (c : ClkBlk), 
    (confineSlew c).incrTarget.toNat ≤ c.incrFreq.toNat + ppmLsb c.slewPpm ∧ c.incrFreq.toNat ≤ (confineSlew c).incrTarget.toNat + ppmLsb c.slewPpm ∧
      (c.incrTarget.toNat ≤ c.incrFreq.toNat + ppmLsb c.slewPpm → c.incrFreq.toNat ≤ c.incrTarget.toNat + ppmLsb c.slewPpm → (confineSlew
      c).incrTarget = c.incrTarget)) ∧
  (∀ (p : TimeHoldoverConfigP), Admitted (cmd 0x0303 .control false 4) h s → 1 ≤ p.holdPpb.toNat → p.holdPpb.toNat ≤ 10000 → 1 ≤ p.e0Ns.toNat →
    p.e0Ns.toNat ≤ 10000 → 
    exec (.timeHoldoverConfig h p) s = .next (answer h 0x0303 (done (updateTq
      { u with clk := { s.clk with holdPpb := p.holdPpb.toNat, e0Ns := p.e0Ns.toNat } })))) ∧
  (∀ (p : TimeUtcOffsetP), Admitted (cmd 0x0304 .control false 12) h s → p.utcOffset.toNat ≤ 255 → p.leap = 0 → p.rsv = 0 → p.leapTaiS = 0 → ¬
    (s.clk.source = .ptp ∧ s.clk.ptpUtcValid = true) → 
    ∃ v, v = applyUtc { u with clk := { s.clk with utcSet := (p.utcOffset.toNat : Int) } } ∧
    exec (.timeUtcOffset h p) s = .next (answer h 0x0304 (done ({ v with clk := { v.clk with leap := none, leapPending := false } })))) ∧
  (∀ (p : TimeUtcOffsetP), Admitted (cmd 0x0304 .control false 12) h s → p.utcOffset.toNat ≤ 255 → p.leap = 1 ∨ p.leap = 2 → p.rsv = 0 →
    ((p.leapTaiS.toNat : Int) - s.clk.utcOffset) % 86400 = 0 → ¬ (s.clk.source = .ptp ∧ s.clk.ptpUtcValid = true) → 
    exec (.timeUtcOffset h p) s = .next (answer h 0x0304 (done (announceLeap (decide (p.leap = 2)) p.leapTaiS.toNat 2 (applyUtc
      { u with clk := { s.clk with utcSet := (p.utcOffset.toNat : Int) } }))))) ∧
  (∀ (p : TimeStepP), Admitted (cmdLong 0x0305 .control false 24) h s → p.mode.toNat < 2 → p.rsv = 0 → (p.mode = 0 → p.taiS.toNat < 2 ^ 48 ∧
    p.taiNs.toNat < 1000000000) → (p.mode = 1 → p.deltaNs ≠ 0) → 0 ≤ stepTarget p s → stepTarget p s < (2 ^ 48 * 1000000000 : Nat) → nearLeap s =
    false → 
    ∃ v, v = (startLong h 0x0305 100 u).2 ∧
    exec (.timeStep h p) s = .next (answer h 0x0305 (⟨.accepted, [],
      { v with clk := { s.clk with steps := s.clk.steps ++ [⟨s.host.longNext, h.part, p⟩] } }⟩))) ∧
  (∀ (p : GaConfigP), Admitted (cmd 0x0306 .control false 4) h s → p.refEn.toNat < 2 → p.refMp.toNat < 16 → p.fNom.toNat < 2 → 1 ≤ p.gaSlew.toNat →
    p.gaSlew.toNat ≤ 50 → 
    ∃ v, v = { u with clk := { s.clk with gaRefEn := decide (p.refEn = 1), gaRefMp := p.refMp.toNat, gaFNom60 := decide (p.fNom = 1), gaSlew :=
                                            p.gaSlew.toNat } } ∧
    exec (.gaConfig h p) s = .next (answer h 0x0306 (done (if p.refEn = 0 ∨ s.clk.gaRefMp ≠ p.refMp.toNat ∨ s.clk.gaRefEn = false ∨ s.clk.gaFNom60 ≠
      decide (p.fNom = 1) then gaToNominal 4 v else v)))) ∧
  (∀ (p : PpsOutConfigP), Admitted (cmd 0x0307 .control false 4) h s → p.enable.toNat < 2 → p.rsv = 0 → 1 ≤ p.widthMs.toNat → p.widthMs.toNat ≤ 500 → 
    exec (.ppsOutConfig h p) s = .next (answer h 0x0307 (done
      { u with clk := { s.clk with ppsOutEn := decide (p.enable = 1), widthMs := p.widthMs.toNat, ppsOut := s.clk.ppsOut && decide (p.enable = 1) }
                 }))) ∧
  (Admitted (cmd 0x0308 .openC true 0) h s → 
    exec (.timeRead h) s = .next (answer h 0x0308 (doneWith (leBytes 8 s.clk.sec.toNat ++ leBytes 4 s.clk.ns.toNat ++ leBytes 2 (s.clk.frac.toNat /
      65536) ++ [BitVec.ofNat 8 s.clk.state.num, BitVec.ofNat 8 s.clk.tq.toNat] ++ leInt 2 s.clk.utcOffset ++ [0, 0]) u)))

/-- Tier 1. PTP, PPS_IN and IRIG_IN deliver, are lost and hold off as Table 3.2 and R80 to R86 give: under the conditions of each event, the state that
  follows. -/
def Obligations.TimeSourceEventsComplete : Prop :=
  ∀ s : State,
  (∀ (port : BitVec 4) (m : AnnounceMsg), readerHeld s port.toNat .c1 = false → s.dev.boot = .ready → isMasterPort s port.toNat = false → isPtpPort s
    port.toNat = true → m.domain = s.clk.domain → m.ptpTimescale = true → 
    exec (.ptpAnnounceRx port m) s = .next (takeAnnounce port.toNat { m with tlvs := readTlvs m.tlvs } (popIn port.toNat .c1 s))) ∧
  (∀ (port : BitVec 4) (m : AnnounceMsg), readerHeld s port.toNat .c1 = false → isMasterPort s port.toNat = true → 
    exec (.ptpAnnounceRx port m) s = .next (bump 0x03000148 (popIn port.toNat .c1 s))) ∧
  (∀ (port : BitVec 4) (m : SyncMsg) (o : AnnounceMsg), readerHeld s port.toNat .c1 = false → s.dev.boot = .ready → port.toNat = slaveOf s → (getPtp s
    port.toNat).qual = true → (getPtp s port.toNat).master = some o → o.srcId = m.srcId → o.srcPort = m.srcPort → m.domain = s.clk.domain → 
    exec (.ptpSyncRx port m) s = .next (servoUpdate .ptp ((taiNs s : Int) - ((m.originS.toNat * 1000000000 + m.originNs.toNat + m.correctionNs.toNat +
      (getPtp s port.toNat).delay.toNat + m.ageNs.toNat + (getPort s port.toNat).rxLatNs.toNat : Nat) : Int)) (popIn port.toNat .c1 s))) ∧
  (∀ (m : PdelayReq), readerHeld s m.port.toNat .c1 = false → s.dev.boot = .ready → isPtpPort s m.port.toNat = true ∨ isMasterPort s m.port.toNat = true
    → 
    exec (.pdelayReqRx m) s = .next (sendPtp m.port.toNat 4 (ptpMsg s m.port.toNat 3 m.seq.toNat (ptpTime (taiNs s - m.ageNs.toNat - (getPort s
      m.port.toNat).rxLatNs.toNat) ++ beBytes 8 m.srcId.toNat ++ beBytes 2 m.srcPort.toNat)) (popIn m.port.toNat .c1 s))) ∧
  (∀ (m : PdelayResp) (t : Nat), readerHeld s m.port.toNat .c1 = false → isPtpPort s m.port.toNat = true → (getPtp s m.port.toNat).reqTs = some t →
    m.seq = (getPtp s m.port.toNat).pdelaySeq → 
    exec (.pdelayRespRx m) s = .next (showMaster (setPtp m.port.toNat
      { getPtp s m.port.toNat with delay := BitVec.ofNat 32 ((taiNs s - m.ageNs.toNat - (getPort s m.port.toNat).rxLatNs.toNat - t - m.turnNs.toNat) /
                                     2), reqTs := none } (popIn m.port.toNat .c1 s)))) ∧
  (∀ (port : BitVec 4), s.dev.boot = .ready → isPtpPort s port.toNat = true → (getPort s port.toNat).link = true → secondDue s (getPtp s
    port.toNat).reqEl = true → 
    exec (.pdelayReqTx port) s = .next (sendPtp port.toNat 3 (ptpMsg s port.toNat 2 ((getPtp s port.toNat).pdelaySeq + 1).toNat (List.replicate 20 0))
      (setPtp port.toNat { getPtp s port.toNat with pdelaySeq := (getPtp s port.toNat).pdelaySeq + 1, reqEl := some (elNs s), reqTs := none } s))) ∧
  (∀ (port : BitVec 4), s.dev.boot = .ready → isMasterPort s port.toNat = true → (getPort s port.toNat).link = true → secondDue s (getPtp s
    port.toNat).masterEl = true → 
    ∃ v, v = getPtp s port.toNat ∧
    exec (.ptpMasterTx port) s = .next (sendPtp port.toNat 0 (ptpMsg s port.toNat 0 (v.syncSeq + 1).toNat (ptpTime 0)) (sendPtp port.toNat 1 (ptpMsg s
      port.toNat 11 (v.announceSeq + 1).toNat (announceBody s port.toNat)) (setPtp port.toNat
      { v with announceSeq := v.announceSeq + 1, syncSeq := v.syncSeq + 1, masterEl := some (elNs s) } s)))) ∧
  (∀ (port : BitVec 4) (m : AnnounceMsg), (getPtp s port.toNat).master = some m → isPtpPort s port.toNat = true → (getPtp s port.toNat).annEl +
    3000000000 ≤ elNs s → 
    ∃ v, v = setPtp port.toNat { getPtp s port.toNat with master := none, annPrev := none } (raise 0x0305 1 (BitVec.ofNat 8 port.toNat :: leBytes 8
      m.gmId.toNat) none (bump 0x03000110 s)) ∧
    exec (.announceReceiptTimeout port) s = .next (if (getPtp s port.toNat).qual then demote port.toNat v else showMaster v)) ∧
  (s.dev.boot = .ready → (∀ t, s.clk.ppsEdge = some t → t + 500000000 ≤ elNs s) → s.clk.ppsQual = false → s.clk.ppsRun < 3 → 
    ∃ t, exec .ppsInEdge s = .next t ∧ t.clk.ppsEdge = some (elNs s) ∧ t.clk.ppsAcc = some (taiNs s) ∧ t.clk.ppsQual = false ∧ t.clk.ppsRun = (match
      s.clk.ppsAcc with | some x => if absDiff (taiNs s) (x + 1000000000) < 100000 then s.clk.ppsRun + 1 else 1 | none => 1) ∧ OnlyIn [.clk] s t) ∧
  (∀ (t : Nat), s.dev.boot = .ready → s.clk.ppsEdge = some t → elNs s < t + 500000000 → 
    exec .ppsInEdge s = .next (bump 0x03000138 { s with clk := { s.clk with ppsEdge := some (elNs s) } })) ∧
  (∀ (a : Nat), s.dev.boot = .ready → (∀ t, s.clk.ppsEdge = some t → t + 500000000 ≤ elNs s) → s.clk.ppsAcc = some a → absDiff (taiNs s) (a +
    1000000000) < 100000 → 3 ≤ s.clk.ppsRun → s.clk.timeValid = true → s.clk.srcEn.getLsbD 1 = true → 
    exec .ppsInEdge s = .next (servoUpdate .pps ((taiNs s : Int) - (((taiNs s + 500000000) / 1000000000 * 1000000000 : Nat) : Int)) (selectSrc
      { s with clk := { s.clk with ppsEdge := some (elNs s), ppsAcc := some (taiNs s), ppsAccEl := elNs s, ppsRun := s.clk.ppsRun + 1, ppsQual :=
                                     true, ppsLast := BitVec.ofNat 64 (taiNs s) } }))) ∧
  (s.clk.ppsQual = true → s.clk.ppsAccEl + 1500000000 ≤ elNs s → 
    exec .ppsInLoss s = .next (loseSrc .pps { s with clk := { s.clk with ppsQual := false, ppsRun := 0 } })) ∧
  (∀ (f : IrigFrame), s.dev.boot = .ready → f.good = false → 
    exec (.irigFrame f) s = .next (bump 0x03000140 s)) ∧
  (∀ (f : IrigFrame), s.dev.boot = .ready → f.good = true → s.clk.irigQual = false → (s.clk.irigSec ≠ none → s.clk.irigRun < 2) → 
    exec (.irigFrame f) s = .next ({ s with clk := { s.clk with irigSec := some ((irigTai f s).getD (irigUtc f 1970).toNat), irigEl := elNs s, irigRun
                                                                  := if s.clk.irigSec.map (· + 1) = some ((irigTai f s).getD (irigUtc f 1970).toNat)
                                                                  then s.clk.irigRun + 1 else 1, irigLast := some f } })) ∧
  (∀ (f : IrigFrame) (x : Nat), s.dev.boot = .ready → f.good = true → irigTai f s = some (x + 1) → s.clk.irigSec = some x → 2 ≤ s.clk.irigRun →
    s.clk.srcEn.getLsbD 2 = true → f.ext = none → f.extUtc = none → 
    ∃ t, exec (.irigFrame f) s = .next t ∧ t = servoUpdate .irig ((taiNs s : Int) - (f.ageNs.toNat : Int) - (((x + 1) * 1000000000 : Nat) : Int))
      (applyUtc (selectSrc { s with clk := { s.clk with irigSec := some (x + 1), irigRun := s.clk.irigRun + 1, irigEl := elNs s, irigLast := some f,
                                                          irigQual := true } }))) ∧
  (s.clk.irigQual = true → s.clk.irigEl + 2000000000 ≤ elNs s → 
    exec .irigLoss s = .next (loseSrc .irig { s with clk := { s.clk with irigQual := false, irigRun := 0 } })) ∧
  (∀ (x : Src) (t : Nat), s.clk.better = some (x, t) → t ≤ elNs s → qualifies s x = true → 
    exec .srcHoldoffExpiry s = .next ({ s with clk := { s.clk with take := x, better := none } })) ∧
  (s.dev.boot = .ready → 
    exec .tqBandElapsed s = .next (updateTq s))

/-- Tier 1. What device time brings about when its instant has come: the waiting step, the leap second, PPS_OUT and the timed actions (R79, R90, R91,
  R98, R99). -/
def Obligations.TimeInstantsComplete : Prop :=
  ∀ s : State,
  (∀ (r : StepReq) (rest : List StepReq), s.clk.steps = r :: rest → 
    ∃ new, new = (stepTarget r.p s % (2 ^ 48 * 1000000000 : Nat)).toNat ∧
    exec .timeStepApply s = .next (completeLong r.long .ok (leBytes 8 (taiNs s) ++ leBytes 8 new) (runStep 1 r.part.val new (if r.p.mode = 0 then 0
      else s.clk.frac) { s with clk := { s.clk with steps := rest } }))) ∧
  (∀ (l : Leap), s.clk.leap = some l → leapInstant l ≤ s.clk.sec.toNat + 60 → 
    exec .leapPendingStart s = .next ({ s with clk := { s.clk with leapPending := true, leapDir := l.deletion } })) ∧
  (∀ (l : Leap), s.clk.leap = some l → leapInstant l ≤ s.clk.sec.toNat → 
    ∃ d, d = (if l.deletion then -1 else 1 : Int) ∧
    exec .leapApplied s = .next (raise 0x030B 1 (leInt 2 (s.clk.utcOffset + d)) none
      { s with clk := { s.clk with leap := none, leapPending := false, leapOccurred := true, leapDir := l.deletion, occurredEnd := leapInstant l +
                                     86400, utcOffset := s.clk.utcOffset + d, utcSet := s.clk.utcSet + d } })) ∧
  (s.clk.leapOccurred = true → s.clk.occurredEnd ≤ s.clk.sec.toNat → 
    exec .leapOccurredEnd s = .next ({ s with clk := { s.clk with leapOccurred := false } })) ∧
  (s.clk.timeValid = true → s.clk.ppsOutEn = true → s.clk.ns.toNat ≤ 2 → s.clk.ppsRiseSec ≠ some s.clk.sec.toNat → 
    exec .ppsOutRise s = .next ({ s with clk := { s.clk with ppsOut := true, ppsRiseEl := elNs s, ppsRiseSec := some s.clk.sec.toNat } })) ∧
  (s.clk.ppsOut = true → s.clk.ppsRiseEl + s.clk.widthMs * 1000000 ≤ elNs s → 
    exec .ppsOutFall s = .next ({ s with clk := { s.clk with ppsOut := false } })) ∧
  (s.clk.timeValid = true → 
    exec .timedActionFire s = .next (fireTimed (s.clk.timed.filter (fun a => decide (a.launch ≤ taiNs s))) (fireFrames
      { s with clk := { s.clk with timed := s.clk.timed.filter (fun a => decide (taiNs s < a.launch)) } })))

/-- Tier 1. A due tick of the grid-angle clock counts, is stamped with device time, and ends in NOMINAL where the reference gives no settled samples
  (Table 3.5; the other moves come with the samples); every 128th is remembered as a mark (R92 to R96). -/
def Obligations.GridAngleTickCompletes : Prop :=
  ∀ s : State,
  (∀ (ts : U64), s.dev.boot = .ready → gaDue s = true → ts = BitVec.ofNat 64 (taiNs s) → (s.clk.gaCount + 1).toNat % 128 ≠ 0 → 
    ∃ x, x = { s with clk := { s.clk with gaCount := s.clk.gaCount + 1, gaLastTs := BitVec.ofNat 64 (taiNs s), gaLastEl := elNs s } } ∧
    ∃ v, v = (if x.clk.gaState ≠ .nominal ∧ gaSettled x = false then gaToNominal 3 x else x) ∧
    exec (.gaTick ts) s = .next v) ∧
  (∀ (ts : U64), s.dev.boot = .ready → gaDue s = true → ts = BitVec.ofNat 64 (taiNs s) → (s.clk.gaCount + 1).toNat % 128 = 0 → 
    ∃ x, x = { s with clk := { s.clk with gaCount := s.clk.gaCount + 1, gaLastTs := BitVec.ofNat 64 (taiNs s), gaLastEl := elNs s } } ∧
    ∃ v, v = (if x.clk.gaState ≠ .nominal ∧ gaSettled x = false then gaToNominal 3 x else x) ∧
    ∃ w, w = { v with clk := { v.clk with gaHalves := v.clk.gaHalves + 1, gaMarks := (⟨v.clk.gaHalves + 1, taiNs s, elNs s, decide (v.clk.gaState ≠
                                            .locked)⟩ :: v.clk.gaMarks).take 512 } } ∧
    exec (.gaTick ts) s = .next (if (s.clk.gaCount + 1).toNat % 256 = 0 then eqResume w else w))

/-- Tier 2. R70: one cycle adds INCR_APPLIED to the clock of 48-bit seconds, nanoseconds and fraction, exactly and modulo the wrap of the seconds; the
  nanoseconds stay below one second. -/
def Obligations.ClockAdvancesByIncrement : Prop :=
  ∀ c : ClkBlk, c.ns.toNat < 1000000000 →
    let t (x : ClkBlk) : Nat := (x.sec.toNat * 1000000000 + x.ns.toNat) * 2 ^ 32 + x.frac.toNat
    let d := clockCycle c
    t d = (t c + c.incrApplied.toNat) % (2 ^ 48 * 1000000000 * 2 ^ 32) ∧ d.ns.toNat < 1000000000 ∧
    (d.sec = c.sec ∧ (c.ns.toNat * 2 ^ 32 + c.frac.toNat + c.incrApplied.toNat) / 2 ^ 32 = d.ns.toNat ∨
      d.sec = c.sec + 1 ∧ (c.ns.toNat * 2 ^ 32 + c.frac.toNat + c.incrApplied.toNat) / 2 ^ 32 = d.ns.toNat + 1000000000)

/-- Tier 2. In one cycle INCR_APPLIED moves toward INCR_TARGET by at most one LSB, never past it, and a confined increment under a confined target stays
  confined (R73, R77). -/
def Obligations.IncrementMovesByOneLsb : Prop :=
  ∀ c : ClkBlk,
    let d := clockCycle c
    d.incrTarget = c.incrTarget ∧ d.incrFreq = c.incrFreq ∧
    (c.incrApplied.toNat < c.incrTarget.toNat → d.incrApplied.toNat = c.incrApplied.toNat + 1) ∧
    (c.incrTarget.toNat < c.incrApplied.toNat → d.incrApplied.toNat + 1 = c.incrApplied.toNat) ∧
    (c.incrApplied = c.incrTarget → d.incrApplied = c.incrApplied) ∧
    ∀ lo hi : Nat, lo ≤ c.incrApplied.toNat → c.incrApplied.toNat ≤ hi → lo ≤ c.incrTarget.toNat → c.incrTarget.toNat ≤ hi →
      lo ≤ d.incrApplied.toNat ∧ d.incrApplied.toNat ≤ hi

/-- Tier 2. R77: after every servo update INCR_FREQ lies within 200 ppm of nominal, and INCR_TARGET within slew_ppm of INCR_FREQ, on the side that
  removes the offset; the estimate and the size of the phase term are free values (log entry 5). -/
def Obligations.ServoKeepsRateConfined : Prop :=
  ∀ (offset : Int) (s : State), 1 ≤ s.clk.slewPpm → s.clk.slewPpm ≤ 500 →
    let c := (servoRate offset s).clk
    ppmLsb 200 = 1717986 ∧ 2 ^ 33 - ppmLsb 200 ≤ c.incrFreq.toNat ∧ c.incrFreq.toNat ≤ 2 ^ 33 + ppmLsb 200 ∧
    c.incrTarget.toNat ≤ c.incrFreq.toNat + ppmLsb s.clk.slewPpm ∧ c.incrFreq.toNat ≤ c.incrTarget.toNat + ppmLsb s.clk.slewPpm ∧
    (offset = 0 → c.incrTarget = c.incrFreq) ∧ (0 < offset → c.incrTarget.toNat < c.incrFreq.toNat) ∧
    (offset < 0 → c.incrFreq.toNat < c.incrTarget.toNat) ∧ c.incrApplied = s.clk.incrApplied

/-- Tier 1. PORT-CONFIG, PRP-CONFIG and PORT-TX-BIND have their effect on operands within their tables (R102, R116, R128, R131). -/
def Obligations.PortCommandsComplete : Prop :=
  ∀ (h : Hdr) (s : State), let u := countCmd h s
  (∀ (p : PortConfigP), Admitted (cmd 0x0401 .control false 16) h s → portConfigOk p = true → pairAgrees s p = true → 
    ∃ k, k = p.port.toNat ∧
    ∃ o, o = getPort s k ∧
    ∃ v, v = (if o.enable && (decide (p.enable = 0) || decide (k < 4 ∧ p.speed.setWidth 3 ≠ o.speed) || decide (k < 4 ∧ p.fec.setWidth 2 ≠ o.fec))
      then linkDown k u else u) ∧
    exec (.portConfig h p) s = .next (answer h 0x0401 (done (modPort k (fun q =>
      { q with enable := decide (p.enable = 1), speed := if k < 4 then p.speed.setWidth 3 else o.speed, fec := if k < 4 then p.fec.setWidth 2 else
                 o.fec, rgmiiId := if k = 12 then decide (p.rgmiiId = 1) else q.rgmiiId, maxFrame := p.maxFrame.toNat, rxLatNs := p.rxLatNs, txLatNs
                 := p.txLatNs, thrC3 := p.thrC3.toNat, thrC2 := p.thrC2.toNat, thrC1 := p.thrC1.toNat }) v)))) ∧
  (∀ (p : PrpConfigP), Admitted (cmd 0x0402 .control false 8) h s → p.rsv = 0 → p.pair.toNat < 2 → 10 ≤ p.forgetMs.toNat → p.forgetMs.toNat ≤ 2000 → 1 ≤
    p.skewAlertMs.toNat → p.skewAlertMs.toNat ≤ 1000 → p.skewAlertMs.toNat < p.forgetMs.toNat → 100 ≤ p.lanSilenceMs.toNat → p.lanSilenceMs.toNat ≤
    60000 → 
    ∃ pr, pr = p.pair.toNat ∧
    exec (.prpConfig h p) s = .next (answer h 0x0402 (done ([2 * pr, 2 * pr + 1].foldl (fun t k => if silencePassed t k then lanDown k 1 t else t)
      (setPair2 pr { getPair2 s pr with forgetMs := p.forgetMs.toNat, skewAlertMs := p.skewAlertMs.toNat, lanSilenceMs := p.lanSilenceMs.toNat }
      u))))) ∧
  (∀ (p : PortTxBindP), Admitted (cmd 0x0403 .openC false 4) h s → p.rsv = 0 → p.target.toNat ≤ 12 ∨ p.target = 0x10 ∨ p.target = 0x11 → p.ring.toNat <
    64 → p.reportRing = 0xFF → ringFree s h.part p.ring.toNat true = true → 
    ∃ v, v = bindRing h.part p.ring.toNat (.frameTx p.target.toNat) u ∧
    exec (.portTxBind h p) s = .next (answer h 0x0403 (done { v with net :=
                                                                       { v.net with binds := tset v.net.binds (h.part.val * 64 + p.ring.toNat)
                                                                                      { taken := [], reportRing := none, target := p.target.toNat } }
                                                                       }))) ∧
  (∀ (p : PortTxBindP), Admitted (cmd 0x0403 .openC false 4) h s → p.rsv = 0 → p.target.toNat ≤ 12 ∨ p.target = 0x10 ∨ p.target = 0x11 → p.ring.toNat <
    64 → p.ring ≠ p.reportRing → p.reportRing ≠ 0xFF → ringFree s h.part p.ring.toNat true = true → ringFree s h.part p.reportRing.toNat false = true
    → 
    ∃ v, v = bindRing h.part p.reportRing.toNat .txReport (bindRing h.part p.ring.toNat (.frameTx p.target.toNat) u) ∧
    exec (.portTxBind h p) s = .next (answer h 0x0403 (done { v with net :=
                                                                       { v.net with binds := tset v.net.binds (h.part.val * 64 + p.ring.toNat)
                                                                                      { taken := [], reportRing := some p.reportRing.toNat, target :=
                                                                                          p.target.toNat } } })))

/-- Tier 1. Links, LAN silence, supervision, carrier, back-off and the ends of frames have their effect at the ports (R103, R111, R112, R116, R117,
  R127, R129). -/
def Obligations.PortEventsComplete : Prop :=
  ∀ (k : BitVec 4) (s : State), let q := getPort s k.toNat
  (∀ (speed : BitVec 3), k.toNat ≤ 12 → 4 ≤ k.toNat → q.enable = true → q.link = false → 
    ∃ act, act = (if k.toNat = 12 then speed else q.speed) ∧
    exec (.portLinkUp k speed false) s = .next (tryStart k.toNat (raise 0x0401 0 [BitVec.ofNat 8 k.toNat, BitVec.ofNat 8 act.toNat] none (setPort
      k.toNat { q with link := true, speedAct := act, halfDuplex := false } s)))) ∧
  (∀ (speed : BitVec 3), k.toNat = 12 → q.enable = true → q.link = false → 
    exec (.portLinkUp k speed true) s = .next (raise 0x040A 2 [BitVec.ofNat 8 k.toNat] none (setPort k.toNat { q with halfDuplex := true } s))) ∧
  (∀ (speed : BitVec 3) (half : Bool), k.toNat < 4 → q.enable = true → q.link = false → 
    ∃ v, v = raise 0x0401 0 [BitVec.ofNat 8 k.toNat, BitVec.ofNat 8 q.speed.toNat] none (setPort k.toNat
      { q with link := true, speedAct := q.speed, halfDuplex := false } s) ∧
    ∃ r, r = getPair2 v (k.toNat / 2) ∧
    exec (.portLinkUp k speed half) s = .next (tryStart k.toNat (setPair2 (k.toNat / 2) (if k.toNat % 2 = 1 then { r with heardBEl := none } else
      { r with heardAEl := none }) v))) ∧
  (k.toNat ≤ 12 → 
    exec (.portLinkDown k) s = .next (linkDown k.toNat s)) ∧
  (k.toNat < 4 → silencePassed s k.toNat = true → 
    exec (.lanSilence k) s = .next (lanDown k.toNat 1 s)) ∧
  (∀ (pair : Bool) (pr : Nat) (a b : Bool), (pr = if pair then 1 else 0) → a = (getPort s (2 * pr)).link → b = (getPort s (2 * pr + 1)).link → (a || b)
    = true → s.dev.boot = .ready → supervisionDue s pr = true → 
    exec (.prpSupervisionTx pair) s = .next (sendOwn { cls := .c3, port := if a then 2 * pr else 2 * pr + 1, pair := a && b, prp := true, len :=
                                                         (supervisionBody s pr).length, launch := none, tsReq := false, owner := .supervision, body :=
                                                         supervisionBody s pr } (setPair2 pr
      { getPair2 s pr with supSeq := (getPair2 s pr).supSeq + 1, supEl := some (elNs s) } s))) ∧
  (k.toNat < 4 → readerHeld s k.toNat .c3 = false → 
    exec (.prpSupervisionRx k) s = .next (bump (pairCnt (k.toNat / 2) 0x68) (popIn k.toNat .c3 s))) ∧
  (∀ (r a : Nat), isField k.toNat = true → q.wire = some (r, a) → q.backoff = none → 
    ∃ v, v = fresh (deferTimed k.toNat r (bump (portCnt k.toNat 0xA8) s)) ∧
    exec (.fieldCollision k) s = .next (setPort k.toNat { getPort v.2 k.toNat with wire := none, backoff := some
                                                                                     { ref := r, attempts := 1, until_ := some (elNs s + v.1 % 2 *
                                                                                         51200) } } v.2)) ∧
  (∀ (r a : Nat) (b : Backoff), isField k.toNat = true → q.wire = some (r, a) → q.backoff = some b → 15 ≤ b.attempts → 
    ∃ x, x = deferTimed k.toNat r (bump (portCnt k.toNat 0xA8) s) ∧
    ∃ v, v = bump (portCnt k.toNat 0xB8) (setPort k.toNat { getPort x k.toNat with wire := none, backoff := none } x) ∧
    ∃ w, w = raise 0x040B 1 (BitVec.ofNat 8 k.toNat :: leBytes 8 (cntGet v (portCnt k.toNat 0xB8))) none v ∧
    exec (.fieldCollision k) s = .next (tryStart k.toNat (finishCopy r (modFrame r (fun f =>
      { f with status := Sts.busy.w, flags := { f.flags with excColl := true } }) w)))) ∧
  (∀ (b : Backoff) (e : Nat), q.backoff = some b → b.until_ = some e → e ≤ elNs s → 
    exec (.backoffExpiry k) s = .next (tryStart k.toNat (setPort k.toNat { q with backoff := some { b with until_ := none } } s))) ∧
  (∀ (r : Nat) (c : Nat × Nat × Nat), isField k.toNat = true → q.carrier = true → q.wire = none → q.link = true → q.backoff = none → nextTx (setPort
    k.toNat { q with carrier := false } s) { q with carrier := false } = some (r, c) → 
    exec (.carrierSenseDrop k) s = .next (startOn k.toNat r (setPort k.toNat { q with carrier := false, credits := c } (setPort k.toNat
      { q with carrier := false } s)))) ∧
  (s.net.windowEl + 1000000 ≤ elNs s → 
    exec .pressureWindowEnd s = .next ((s.net.ports.map (·.1)).foldl (fun t j => pressureEnd j t)
      { s with net := { s.net with windowEl := elNs s / 1000000 * 1000000 } })) ∧
  (∀ (r a : Nat) (f : TxFrame), q.wire = some (r, a) → getFrame (setPort k.toNat { q with wire := none, backoff := none } s) r = some f → q.tsq.any (fun
    e => decide (e.ref = r)) = false → 
    ∃ v, v = modFrame r id (setPort k.toNat { q with wire := none, backoff := none } s) ∧
    ∃ w, w = bumpBy (portCnt k.toNat 0x18) f.wireLen (bump (portCnt k.toNat 0x10) v) ∧
    exec (.txComplete k false) s = .next (releaseHeld k.toNat (tryStart k.toNat (finishCopy r (ownerSent k.toNat r (a / 65536) f
      { w with net := { w.net with sent := (sentFrame k.toNat f :: w.net.sent).take 64 } }))))) ∧
  (∀ (r a : Nat) (f : TxFrame), isField k.toNat = true → q.wire = some (r, a) → getFrame (setPort k.toNat { q with wire := none, backoff := none } s) r
    = some f → 
    ∃ v, v = modFrame r (fun x => { x with status := Sts.busy.w }) (setPort k.toNat { q with wire := none, backoff := none } s) ∧
    exec (.txComplete k true) s = .next (releaseHeld k.toNat (tryStart k.toNat (finishCopy r (bump (portCnt k.toNat 0xA8) (bump (portCnt k.toNat 0xB0)
      (flagFrame r (fun x => { x with lateColl := true }) v)))))))

/-- Tier 1. R105 to R107, R124: a received frame is counted by what is wrong with it, in the order of the checks, or enters the ingress queue with the
  class of Table 4.5; R128: a host frame is queued to its port. -/
def Obligations.FramesAreReceivedOrCounted : Prop :=
  ∀ s : State,
  (∀ (f : RxFrame), f.port.toNat ≤ 12 → (getPort s f.port.toNat).link = true → f.len.toNat < 64 → 
    exec (.frameRx f) s = .next (bump (portCnt f.port.toNat (if isField f.port.toNat = true ∧ f.col = true then 0x38 else 0x28)) s)) ∧
  (∀ (f : RxFrame), f.port.toNat ≤ 12 → (getPort s f.port.toNat).link = true → 64 ≤ f.len.toNat → (getPort s f.port.toNat).maxFrame < f.len.toNat → 
    exec (.frameRx f) s = .next (bumpIf (f.begun && decide (cutThrough s f.port.toNat ≤ f.len.toNat)) 0x05000120 (bump (portCnt f.port.toNat 0x30)
      s))) ∧
  (∀ (f : RxFrame), f.port.toNat ≤ 12 → (getPort s f.port.toNat).link = true → 64 ≤ f.len.toNat → f.len.toNat ≤ (getPort s f.port.toNat).maxFrame →
    f.fcsOk = false → 
    exec (.frameRx f) s = .next (bumpIf (f.begun && decide (cutThrough s f.port.toNat ≤ f.len.toNat)) 0x05000120 (bump (portCnt f.port.toNat 0x20)
      s))) ∧
  (∀ (f : RxFrame), f.port.toNat ≤ 12 → (getPort s f.port.toNat).link = true → 64 ≤ f.len.toNat → f.len.toNat ≤ (getPort s f.port.toNat).maxFrame →
    f.fcsOk = true → f.kind = .pause → 
    exec (.frameRx f) s = .next (bump (portCnt f.port.toNat 0x48) s)) ∧
  (∀ (f : RxFrame), f.port.toNat ≤ 12 → (getPort s f.port.toNat).link = true → 64 ≤ f.len.toNat → f.len.toNat ≤ (getPort s f.port.toNat).maxFrame →
    f.fcsOk = true → f.kind ≠ .pause → f.dst ≠ portMac s f.port.toNat → f.dst ≠ 0xFFFFFFFFFFFF → multicastOk s f.port.toNat f.dst = false → 
    exec (.frameRx f) s = .next (bump (portCnt f.port.toNat 0x40) s)) ∧
  (∀ (f : RxFrame), f.port.toNat ≤ 12 → (getPort s f.port.toNat).link = true → 64 ≤ f.len.toNat → f.len.toNat ≤ (getPort s f.port.toNat).maxFrame →
    f.fcsOk = true → f.kind ≠ .pause → f.dst = portMac s f.port.toNat ∨ f.dst = 0xFFFFFFFFFFFF ∨ multicastOk s f.port.toNat f.dst = true → 
    let k := f.port.toNat
    let v := bumpBy (portCnt k 0x08) f.len.toNat (bump (portCnt k 0x00) s)
    let w := if k < 4 then rctStage k f v else (true, v)
    (w.1 = false → exec (.frameRx f) s = .next w.2) ∧
    (w.1 = true → f.poison = 0 →
      let c := classify w.2 f
      let r := enterIn k { cls := c.1, len := f.len.toNat, begun := f.begun && decide (cutThrough s k ≤ f.len.toNat), ts16 := rxStamp s k } w.2
      let x := bumpIf (decide (f.kind = .fragment)) 0x05000110 r.2
      exec (.frameRx f) s = .next (if r.1 = false then r.2 else if c.2 then x else modPort k (fun q => { q with inq := q.inq.take (q.inq.length - 1)
                                                                                                                  }) x))) ∧
  (∀ (part : HP) (ring : BitVec 6) (f : HostFrame) (r : Ring) (b : TxBind) (ds : List Desc), getRing s part ring.toNat = some r → tget s.net.binds
    (part.val * 64 + ring.toNat) = some b → b.taken = [] → nextMessage r.owned = some ds → r.use = .frameTx b.target → hostReads s part = true →
    f.poison = 0 → ds.foldl (fun k d => k + d.len.toNat) 0 = 16 + f.frameLen.toNat → 14 ≤ f.frameLen.toNat → f.frameLen.toNat ≤ 9596 → f.rsv = 0 →
    f.flags.toNat < 2 → 
    let q : TxReq := { cls := .c3, port := if 16 ≤ b.target then 2 * (b.target - 16) else b.target, pair := decide (16 ≤ b.target), prp := true, len
                         := f.frameLen.toNat, launch := if f.launchNs = 0 then none else some f.launchNs.toNat, tsReq := f.flags.getLsbD 0, owner :=
                         .host part ring.toNat (r.devIdx + BitVec.ofNat 32 (ds.length - 1)), body := f.frame }
    let w := sendFrame q s
    let b2 := tmod w.2.2.net.binds (part.val * 64 + ring.toNat) (fun x =>
      { x with taken := x.taken ++ [{ ref := s.net.frameNext, descs := ds.length, status := none }] })
    let v := { w.2.2 with net := { w.2.2.net with binds := b2 } }
    w.1 = .ok → exec (.hostFrameTx part ring f) s = .next (if (getFrame v s.net.frameNext).isSome then v else settleHost part ring.toNat
      s.net.frameNext Sts.busy.w v))

/-- Tier 1. The stream directory commands have their effect on operands within Table 5.10 (R136, R142, R143, R150, R153 to R156, R489). -/
def Obligations.IngestCommandsComplete : Prop :=
  ∀ (h : Hdr) (s : State), let u := countCmd h s
  (∀ (p : StreamAddP) (b n : Nat), Admitted (cmd 0x0501 .openC false 32) h s → streamAddOk p = true → s.ing.streams.any (fun e => decide (e.2.key =
    addKey p)) = false → ((p.transport = 0 ∨ p.transport = 2) → portTaken s 1 (decide (p.transport = 2)) p.dstPort.toNat (macMask p.port.toNat) =
    false) → addRefusal h.part p.maxChannels.toNat s = none → allocChans s p.maxChannels.toNat = some b → tfreeFrom s.ing.streams 262144 0 = some n →
    stashUsed s < 256 → 
    ∃ v, v = (let x := newStream (addKey p) p.port.toNat p.level.toNat p.maxChannels.toNat b p.svRate.toNat (decide (p.cfgPolicy = 1)) h.part (elNs
      s); if p.transport = 1 then { x with connEl := some (elNs s) } else x) ∧
    ∃ w, enterDir n v u = some w ∧ ∃ x, x = (if p.transport = 0 then sendStart n p.start (oscResetStream n (placeNew 0 n (syncGrid n w))) else
      oscResetStream n (placeNew 0 n (syncGrid n w))) ∧
    exec (.streamAdd h p) s = .next (answer h 0x0501 (doneWith (leBytes 4 n ++ leBytes 4 b)
      { x with ing := { x.ing with starts := if p.transport = 1 ∨ p.transport = 2 then tset x.ing.starts n p.start else x.ing.starts } }))) ∧
  (∀ (p : StreamChangeP) (v : Stream), Admitted (cmd 0x0502 .openC false 12) h s → p.level.toNat < 8 → p.cfgPolicy.toNat < 2 → p.pause = 0 → p.rsv = 0 →
    p.rsv2 = 0 → 1 ≤ p.maxChannels.toNat → p.maxChannels.toNat ≤ 4096 → getStream s p.handle.toNat = some v → mayName s h.part v.owner = true →
    chanFloor v ≤ p.maxChannels.toNat → v.state = .active ∨ v.state = .awaitCfg → channelsOf s v.owner + p.maxChannels.toNat ≤ (getPart s
    v.owner).quota.channels + v.maxChannels → roomAfter s p.handle.toNat v p.maxChannels.toNat = true → 
    exec (.streamChange h p) s = .next (answer h 0x0502 (done (poolCheck (syncGrid p.handle.toNat (setStream p.handle.toNat
      { v with level := p.level.toNat, auto := decide (p.cfgPolicy = 1), maxChannels := p.maxChannels.toNat } u)))))) ∧
  (∀ (p : StreamChangeP) (v : Stream) (a : AlnStream), Admitted (cmd 0x0502 .openC false 12) h s → p.level.toNat < 8 → p.cfgPolicy.toNat < 2 → p.pause =
    1 → p.rsv = 0 → p.rsv2 = 0 → 1 ≤ p.maxChannels.toNat → p.maxChannels.toNat ≤ 4096 → getStream s p.handle.toNat = some v → mayName s h.part v.owner
    = true → chanFloor v ≤ p.maxChannels.toNat → v.state = .active → channelsOf s v.owner + p.maxChannels.toNat ≤ (getPart s v.owner).quota.channels +
    v.maxChannels → roomAfter s p.handle.toNat v p.maxChannels.toNat = true → tget s.aln.streams p.handle.toNat = some a → 
    exec (.streamChange h p) s = .next (answer h 0x0502 (done (poolCheck (syncGrid p.handle.toNat (oscLostStream p.handle.toNat 2 (unexpect a.grid
      p.handle.toNat (setStream p.handle.toNat { v with level := p.level.toNat, auto := decide (p.cfgPolicy = 1), maxChannels := p.maxChannels.toNat,
                                                          state := .paused, silent := false } u)))))))) ∧
  (∀ (p : StreamRetireP) (v : Stream), Admitted (cmdLong 0x0503 .openC false 4) h s → getStream s p.handle.toNat = some v → mayName s h.part v.owner =
    true → v.key.transport ≠ 4 → v.state ≠ .retiring → streamNamed s p.handle.toNat v = false → 
    exec (.streamRetire h p) s = .next (answer h 0x0503 (⟨.accepted, [], beginRetire p.handle.toNat (some s.host.longNext) (startLong h 0x0503 5000
      u).2⟩))) ∧
  (∀ (p : StreamCfgAcceptP) (v : Stream) (c : C37Cfg), Admitted (cmd 0x0504 .openC false 8) h s → p.rsv = 0 → getStream s p.handle.toNat = some v →
    mayName s h.part v.owner = true → v.pending = some c → c.cfgCnt = p.cfgCnt → v.state ≠ .retiring → 
    exec (.streamCfgAccept h p) s = .next (answer h 0x0504 (done (applyCfg p.handle.toNat c 0 u)))) ∧
  (∀ (p : StreamRequestP) (v : Stream), Admitted (cmd 0x0505 .openC false 8) h s → p.rsv = 0 → p.cmd = 1 ∨ p.cmd = 2 ∨ p.cmd = 3 ∨ p.cmd = 5 ∨ p.cmd = 6
    → getStream s p.handle.toNat = some v → mayName s h.part v.owner = true → v.key.transport.toNat < 3 → (v.key.transport = 0 → v.key.srcPort ≠ 0) → 
    exec (.streamRequest h p) s = .next (answer h 0x0505 (done (sendCommand p.handle.toNat p.cmd.toNat u)))) ∧
  (∀ (p : IngestConfigP), Admitted (cmd 0x0506 .control false 8) h s → 1 ≤ p.ctP.toNat ∧ p.ctP.toNat ≤ 32 → 1 ≤ p.ctF.toNat ∧ p.ctF.toNat ≤ 32 → 1 ≤
    p.ctM.toNat ∧ p.ctM.toNat ≤ 32 → 1 ≤ p.ctDma.toNat ∧ p.ctDma.toNat ≤ 32 → 100 ≤ p.silenceMs.toNat → p.silenceMs.toNat ≤ 60000 → p.rsv = 0 → 
    exec (.ingestConfig h p) s = .next (answer h 0x0506 (done ((s.ing.streams.map (·.1)).foldl (fun t n => checkSilent n t)
      { u with ing := { s.ing with ctP := p.ctP.toNat, ctF := p.ctF.toNat, ctM := p.ctM.toNat, ctDma := p.ctDma.toNat, silenceMs := p.silenceMs.toNat
                                     } }))))

/-- Tier 1. R140 to R143, R148: what a C37.118 frame that passes the checks does to its stream, by its kind and the state of the stream; R179: a command
  to a publication. -/
def Obligations.StreamFramesComplete : Prop :=
  ∀ s : State,
  (∀ (f : C37Data) (n : Nat) (v : Stream) (t : State), c37Stage f.head 0 s = (some n, t) → c37Held s f.head 0 = false → getStream t n = some v → v.state
    = .awaitCfg → 
    exec (.c37DataFrame f) s = .next (setStream n { v with noCfg := sat1 v.noCfg } t)) ∧
  (∀ (f : C37Data) (n : Nat) (v : Stream) (t : State), c37Stage f.head 0 s = (some n, t) → c37Held s f.head 0 = false → getStream t n = some v → v.state
    = .paused ∨ v.state = .retiring → 
    exec (.c37DataFrame f) s = .next (setStream n { v with frames := sat1 v.frames } t)) ∧
  (∀ (f : C37Data) (n : Nat) (v : Stream) (t : State) (c : C37Cfg) (new : Bool), c37Stage f.head 0 s = (some n, t) → c37Held s f.head 0 = false →
    getStream t n = some v → v.state = .active → chooseCfg v f = some (c, new) → 
    exec (.c37DataFrame f) s = .next (parseData n (rxNs s f.head.port.toNat (c37Class s f.head.port.toNat true)) f c new t)) ∧
  (∀ (f : C37CfgFrame) (n : Nat) (t : State), c37Stage f.head 2 s = (some n, t) → c37Held s f.head 2 = false → f.kind = .cfg1 → 
    exec (.c37CfgFrame f) s = .next (modStream n (fun x => { x with cfgRx := sat1 x.cfgRx }) t)) ∧
  (∀ (f : C37CfgFrame) (n : Nat) (t : State), c37Stage f.head 3 s = (some n, t) → c37Held s f.head 3 = false → f.kind = .cfg2 → 
    exec (.c37CfgFrame f) s = .next (takeCfg n f.cfg t)) ∧
  (∀ (f : C37CfgFrame) (idx : U16) (n : Nat) (t : State), c37Stage f.head 5 s = (some n, t) → c37Held s f.head 5 = false → f.kind = .cfg3 idx → 
    exec (.c37CfgFrame f) s = .next (joinCfg n idx.toNat f.head.frameSize f.cfg t)) ∧
  (∀ (f : C37Header) (n : Nat) (v : Stream) (t : State), c37Stage f.head 1 s = (some n, t) → c37Held s f.head 1 = false → getStream t n = some v →
    v.state ≠ .retiring → 
    exec (.c37HeaderFrame f) s = .next (raise 0x050B 0 (leBytes 4 n ++ (f.text ++ List.replicate 64 0).take 64) (some v.owner) (setStream n
      { v with cfgRx := sat1 v.cfgRx } t))) ∧
  (∀ (f : C37Command) (n : Nat) (p : Pub) (x : State), x = readEntry f.head.port.toNat f.head.key f.head.ecc (popC37 f.head.port.toNat false s) →
    c37Held s f.head 4 = false → findStream x f.head.port.toNat f.head.key = none → f.head.poisoned = false → 16 ≤ f.head.payloadLen → f.head.syncOk =
    true → f.head.rct = none → f.frameType = 4 → f.head.frameSize = f.head.payloadLen → f.head.version = 2 → f.head.chkOk = true →
    f.head.key.transport = 0 → (pubsAt x f.head.port.toNat f.head.key.dstPort).find? (fun e => decide (e.2.idcode = f.head.key.idcode)) = some (n, p)
    → 
    exec (.c37CommandFrame f) s = .next (pubCommand n p f.cmd.toNat x))

/-- Tier 1. Streams fall silent, retire, and gain or lose their TCP link; the directory is rebuilt and its entries rewritten (R139, R150, R154, R489). -/
def Obligations.IngestEventsComplete : Prop :=
  ∀ (handle : U32) (s : State), let n := handle.toNat
  (∀ (v : Stream) (a : AlnStream), getStream s n = some v → v.state = .active → v.silent = false → v.silenceEl + s.ing.silenceMs * 1000000 ≤ elNs s →
    tget (raise 0x0504 2 (leBytes 4 n ++ leBytes 8 v.lastTag) (some v.owner) (setStream n { v with silent := true } s)).aln.streams n = some a → 
    exec (.streamSilent handle) s = .next (unexpect a.grid n (raise 0x0504 2 (leBytes 4 n ++ leBytes 8 v.lastTag) (some v.owner) (setStream n
      { v with silent := true } s)))) ∧
  (∀ (v : Stream) (x : Nat), getStream s n = some v → v.state = .retiring → v.retireAt = some x → x ≤ taiNs s → 
    exec (.streamRetired handle) s = .next (freeStream n s)) ∧
  (∀ (v : Stream), getStream s n = some v → v.key.transport = 1 ∨ v.key.transport = 2 → v.linkUp = true → 
    exec (.tcpLinkDown handle) s = .next (raise 0x0507 2 (leBytes 4 n) (some v.owner) (setStream n { v with linkUp := false, connEl := none } s))) ∧
  (∀ (v : Stream) (e : Nat), getStream s n = some v → v.key.transport = 1 → v.linkUp = false → v.connEl = some e → e + 5000000000 ≤ elNs s → 
    exec (.tcpReconnect handle) s = .next (modStream n (fun x => { x with connEl := some (elNs s) }) s)) ∧
  (∀ (v : Stream), getStream s n = some v → v.key.transport = 1 ∨ v.key.transport = 2 → v.linkUp = false → 
    exec (.tcpConnected handle) s = .next (sendStart n (tgetD s.ing.starts n 0) (raise 0x0508 0 (leBytes 4 n) (some v.owner) (setStream n
      { v with linkUp := true } s)))) ∧
  (∀ (g : U16) (d : Tbl Stream), s.ing.rebuilding = true → g = s.ing.hashGen + 1 + BitVec.ofNat 16 s.ing.rebuildTries → rebuildDir g.toNat s.ing.streams
    = some d → 
    exec .directoryRebuilt s = .next (raise 0x0509 1 (leBytes 2 g.toNat ++ leBytes 4 ((elNs s - s.ing.rebuildEl) / 1000000)) none (bump 0x05000168
      { s with ing := { s.ing with rebuilding := false, hashGen := g, streams := d } }))) ∧
  (exec (.directoryEntryRewrite handle) s = .next (modStream n (fun v => { v with eccBad := false }) s))

/-- Tier 1. GRID-CONFIG and the publication commands have their effect on operands within Table 6.15 (R160, R175 to R177, R182). -/
def Obligations.AlignmentCommandsComplete : Prop :=
  ∀ (h : Hdr) (s : State), let u := countCmd h s
  (∀ (p : GridConfigP), Admitted (cmd 0x0601 .control false 16) h s → gridConfigOk p = true → p.windowMs.toNat ≤ (getGrid s p.grid.toNat).cfg.windowMs ∨
    poolBytes s - gridBytes s p.grid.toNat (getGrid s p.grid.toNat).cfg.windowMs + gridBytes s p.grid.toNat p.windowMs.toNat ≤ poolSize s → 
    ∃ g, g = p.grid.toNat ∧
    ∃ v, v = modGrid g (fun r => { r with cfg := ⟨p.windowMs.toNat, p.maxWaitMs.toNat, p.marginUs.toNat, p.spec16.toNat, p.predK.toNat,
                                            p.patchGapUs.toNat⟩ }) u ∧
    exec (.gridConfig h p) s = .next (answer h 0x0601 (done (poolCheck (if p.windowMs.toNat < (getGrid s g).cfg.windowMs then shrink g
      p.windowMs.toNat v else v))))) ∧
  (∀ (p : PubAddP) (n : Nat), Admitted (cmd 0x0602 .openC false (36 + 4 * p.nMembers.toNat)) h s → pubAddOk s h p = true → (useOf s h.part).publications
    + 1 ≤ (getPart s h.part).quota.publications → tfreeFrom s.aln.pubs 256 0 = some n → p.kind = 0 → 
    ∃ v, v = newPub s h.part p ∧
    exec (.pubAdd h p) s = .next (answer h 0x0602 (doneWith (leBytes 2 n ++ leBytes 2 0 ++ leBytes 4 v.frameBytes) (gridCheck v.grid
      { u with aln := { s.aln with pubs := tset s.aln.pubs n v } })))) ∧
  (∀ (p : PubAddP) (n : Nat), Admitted (cmd 0x0602 .openC false (36 + 4 * p.nMembers.toNat)) h s → pubAddOk s h p = true → (useOf s h.part).publications
    + 1 ≤ (getPart s h.part).quota.publications → tfreeFrom s.aln.pubs 256 0 = some n → p.kind = 1 → 
    ∃ v, v = newPub s h.part p ∧
    exec (.pubAdd h p) s = .next (answer h 0x0602 (doneWith (leBytes 2 n ++ leBytes 2 0 ++ leBytes 4 0) (bindRing h.part v.ring (.publication n)
      (gridCheck v.grid { u with aln := { s.aln with pubs := tset s.aln.pubs n v } }))))) ∧
  (∀ (p : PubChangeP) (v : Pub), Admitted (cmd 0x0603 .openC false (12 + 4 * p.nMembers.toNat)) h s → getPub s p.pub.toNat = some v → mayName s h.part
    v.owner = true → p.enable = 1 → p.rsv = 0 → p.nMembers = 0 → p.handles = [] → v.host = true → p.options &&& 0xFC = 0 → 
    exec (.pubChange h p) s = .next (answer h 0x0603 (done (pubState p.pub.toNat .enabled 0 (modPub p.pub.toNat (fun x =>
      { x with options := p.options, frameBytes := if x.host then 0 else pubFrameBytes s x.target (p.options.getLsbD 3) v.members, offsetUs := if
                 x.host then x.offsetUs else p.offsetUs.toNat }) u))))) ∧
  (∀ (p : PubRetireP) (v : Pub), Admitted (cmd 0x0604 .openC false 4) h s → p.rsv = 0 → getPub s p.pub.toNat = some v → mayName s h.part v.owner = true
    → 
    exec (.pubRetire h p) s = .next (answer h 0x0604 (done (modPub p.pub.toNat (fun x => { x with retiring := true }) u))))

/-- Tier 1. A slab opens, is released at its speculative instant, at its deadline and for patches, and leaves its window; a publication frame is built
  (R160 to R164, R174, R178). -/
def Obligations.SlabEventsComplete : Prop :=
  ∀ s : State,
  (∀ (grid : BitVec 5) (g t : Nat), g = grid.toNat → g < 20 → (getGrid s g).active = true → (t = (if gridInstant (rateOfGrid g) (gridIndex (rateOfGrid
    g) (taiNs s)) ≤ taiNs s then gridInstant (rateOfGrid g) (gridIndex (rateOfGrid g) (taiNs s)) else gridInstant (rateOfGrid g) (gridIndex
    (rateOfGrid g) (taiNs s) - 1))) → (getGrid (slabBoundary g s) g).active = true → (slabBoundary g s).clk.timeValid = true → getSlab (slabBoundary g
    s) g t = none → leftRing (slabBoundary g s) g t = false → 
    exec (.slabOpen grid) s = .next (checkComplete g t (openSlab g t (slabBoundary g s)))) ∧
  (∀ (grid : BitVec 5) (tag : U64) (v : Slab), getSlab s grid.toNat tag.toNat = some v → byDevTime s v = true → v.state = .forming → 0 < v.cfg.spec16 →
    specAt grid.toNat tag.toNat v ≤ tickNow s → tickNow s < deadlineAt tag.toNat v → missing v ≠ [] → 
    exec (.speculativeRelease grid tag) s = .next (noteLate grid.toNat tag.toNat (tickUp (max (specAt grid.toNat tag.toNat v) v.openTs)) (specRelease
      grid.toNat tag.toNat s))) ∧
  (∀ (grid : BitVec 5) (tag : U64) (v : Slab), getSlab s grid.toNat tag.toNat = some v → byDevTime s v = true → v.state = .forming ∨ v.state =
    .speculative → missing v ≠ [] → deadlineAt tag.toNat v ≤ tickNow s → 
    exec (.deadlineRelease grid tag) s = .next (noteLate grid.toNat tag.toNat (tickUp (max (deadlineAt tag.toNat v) v.chgTs)) (finalRelease grid.toNat
      tag.toNat .deadline s))) ∧
  (∀ (grid : BitVec 5) (tag : U64) (v : Slab) (due : Nat), getSlab s grid.toNat tag.toNat = some v → v.state = .final → v.held ≠ [] → due = tickUp (max
    v.heldTs (max v.finalTs v.lastPatchTs + v.cfg.patchGapUs * 1000)) → due ≤ taiNs s → 
    exec (.patchRelease grid tag) s = .next (noteLate grid.toNat tag.toNat due (patchNow grid.toNat tag.toNat s))) ∧
  (∀ (grid : BitVec 5) (tag : U64) (v : Slab) (due : Nat), getSlab s grid.toNat tag.toNat = some v → byDevTime s v = true → v.state = .final → due =
    tickUp (tag.toNat + v.cfg.windowMs * 1000000) → due ≤ taiNs s → 
    exec (.slabHistory grid tag) s = .next (toHistory grid.toNat tag.toNat (if v.held = [] then s else noteLate grid.toNat tag.toNat due s))) ∧
  (∀ (pub : U16) (tag : U64) (p : Pub), getPub s pub.toNat = some p → 
    let q := p.at tag.toNat
    let r := rateOfGrid q.grid
    let w := modPub pub.toNat (fun x => { x with builtTag := tag.toNat }) s
    q.host = false → q.builtTag < tag.toNat → gridInstant r (gridIndex r tag.toNat) = tag.toNat → tag.toNat + (q.offsetUs - 200) * 1000 ≤ taiNs s →
    (q.state ≠ .enabled ∨ s.clk.timeValid = false → exec (.pubFrameBuild pub tag) s = .next (modPub pub.toNat (fun x =>
      { x with skipped := sat1 x.skipped }) w)) ∧
    (q.state = .enabled → s.clk.timeValid = true →
      let chg := q.chgFrom.any (fun f => decide (f ≤ tag.toNat)) || decide (taiNs s < q.chgUntil)
      let blocks := (q.members.map (fun m => wireBlock s q.grid m (getSlab s q.grid tag.toNat) chg)).flatten
      let body := c37Frame 0 q.idcode.toNat (taiToSoc s (tag.toNat / 1000000000)) (divRound (tag.toNat % 1000000000 * 1000000) 1000000000) (qualByte s
        (tag.toNat / 1000000000)) blocks
      let f := sendFrame { cls := .c1, port := targetPort q.target, pair := targetPair q.target, prp := true, len := udpLen (q.options.getLsbD 3)
                             body.length, launch := some (tag.toNat + q.offsetUs * 1000), tsReq := false, owner := .publication pub.toNat, body, level
                             := q.level, to_ := some { addr := q.dstAddr, dst := q.dstPort, src := some q.srcPort } } w
      exec (.pubFrameBuild pub tag) s = .next (pubSent pub.toNat q tag.toNat s f.1 f.2.2) ∧
      (f.1 ≠ .ok → pubSent pub.toNat q tag.toNat s f.1 f.2.2 = modPub pub.toNat (fun x => { x with skipped := sat1 x.skipped }) f.2.2) ∧
      (f.1 = .ok → ∃ inc bad, pubSent pub.toNat q tag.toNat s f.1 f.2.2 = raiseIf inc 0x0609 1 (leBytes 2 pub.toNat ++ leBytes 8 tag.toNat ++ leBytes
        4 bad) (some q.owner)
        (modPub pub.toNat (fun x => { x with frames := sat1 x.frames, lastTag := tag.toNat, lastLaunch := tag.toNat + q.offsetUs * 1000, incomplete :=
                                               if inc then sat1 x.incomplete else x.incomplete, chgFrom := x.chgFrom.filter (fun f => decide
                                               (tag.toNat < f)), chgUntil := if q.chgFrom.any (fun f => decide (f ≤ tag.toNat)) then taiNs s +
                                               60000000000 else x.chgUntil }) f.2.2))))

/-- Tier 1. The oscillation commands have their effect on operands within Table 7.14 (R186, R191, R197, R198, R204). -/
def Obligations.OscillationCommandsComplete : Prop :=
  ∀ (h : Hdr) (s : State), let u := countCmd h s
  (∀ (o : OscSet), 
    (newOscSet o s).osc.set = o ∧ OnlyIn [.osc] s (newOscSet o s) ∧ ∃ old, (newOscSet o s).osc.hist = ((elNs s, o) :: old).take 16) ∧
  (∀ (p : OscScreenConfigP), Admitted (cmd 0x0701 .control false 20) h s → 3 ≤ p.thrOnDb.toNat ∧ p.thrOnDb.toNat ≤ 40 → p.thrOffDb.toNat <
    p.thrOnDb.toNat → 4 ≤ p.baseShift.toNat ∧ p.baseShift.toNat ≤ 14 → p.bandMask.toNat < 64 → 10 ≤ p.warmS.toNat ∧ p.warmS.toNat ≤ 1023 → p.rsv = 0 →
    1 ≤ p.floorF.toNat ∧ p.floorF.toNat ≤ 1000000 → 1 ≤ p.floorRocof.toNat ∧ p.floorRocof.toNat ≤ 10000000 → 1 ≤ p.floorRel.toNat ∧ p.floorRel.toNat ≤
    100000 → 
    exec (.oscScreenConfig h p) s = .next (answer h 0x0701 (done (newOscSet
      { s.osc.set with thrOnDb := p.thrOnDb.toNat, thrOffDb := p.thrOffDb.toNat, baseShift := p.baseShift.toNat, bandMask := BitVec.ofNat 6
                         p.bandMask.toNat, warmS := p.warmS.toNat, floorF := p.floorF.toNat, floorRocof := p.floorRocof.toNat, floorRel :=
                         p.floorRel.toNat } u)))) ∧
  (∀ (p : OscEstConfigP), Admitted (cmd 0x0702 .control false 12) h s → 1 ≤ p.swapDb.toNat ∧ p.swapDb.toNat ≤ 20 → 5 ≤ p.windowS.toNat ∧ p.windowS.toNat
    ≤ 120 → 5 ≤ p.holdS.toNat ∧ p.holdS.toNat ≤ 600 → 1 ≤ p.zetaSdMax.toNat ∧ p.zetaSdMax.toNat ≤ 100 → 3 ≤ p.convCycles.toNat ∧ p.convCycles.toNat ≤
    20 → 5 ≤ p.groupDf.toNat ∧ p.groupDf.toNat ≤ 100 → 5 ≤ p.groupDzeta.toNat ∧ p.groupDzeta.toNat ≤ 100 → 1 ≤ p.defMinKw.toNat ∧ p.defMinKw.toNat ≤
    1000000 → 
    exec (.oscEstConfig h p) s = .next (answer h 0x0702 (done (newOscSet
      { s.osc.set with swapDb := p.swapDb.toNat, holdS := p.holdS.toNat, windowS := p.windowS.toNat, zetaSdMax := p.zetaSdMax.toNat, convCycles :=
                         p.convCycles.toNat, groupDf := p.groupDf.toNat, groupDzeta := p.groupDzeta.toNat, defMinKw := p.defMinKw.toNat } u)))) ∧
  (∀ (p : OscAlarmConfigP), Admitted (cmd 0x0703 .control false 24) h s → p.enables.toNat < 8 → 1 ≤ p.zetaThr.toNat ∧ p.zetaThr.toNat ≤ 200 → 1 ≤
    p.zetaHyst.toNat ∧ p.zetaHyst.toNat ≤ 50 → 1 ≤ p.forcedZeta.toNat ∧ p.forcedZeta.toNat ≤ 20 → 1 ≤ p.dampPersistS.toNat ∧ p.dampPersistS.toNat ≤
    600 → 1 ≤ p.ampPersistS.toNat ∧ p.ampPersistS.toNat ≤ 600 → 10 ≤ p.forcedPersistS.toNat ∧ p.forcedPersistS.toNat ≤ 600 → 1 ≤ p.clearS.toNat ∧
    p.clearS.toNat ≤ 600 → 1 ≤ p.ampF.toNat ∧ p.ampF.toNat ≤ 10000000 → 1 ≤ p.ampRocof.toNat ∧ p.ampRocof.toNat ≤ 100000000 → 1 ≤ p.ampRel.toNat ∧
    p.ampRel.toNat ≤ 1000000 → 
    exec (.oscAlarmConfig h p) s = .next (answer h 0x0703 (done (newOscSet
      { s.osc.set with enables := BitVec.ofNat 3 p.enables.toNat, zetaThr := p.zetaThr.toNat, zetaHyst := p.zetaHyst.toNat, dampPersistS :=
                         p.dampPersistS.toNat, ampPersistS := p.ampPersistS.toNat, forcedPersistS := p.forcedPersistS.toNat, clearS := p.clearS.toNat,
                         ampF := p.ampF.toNat, ampRocof := p.ampRocof.toNat, ampRel := p.ampRel.toNat, forcedZeta := p.forcedZeta.toNat } u)))) ∧
  (∀ (p : OscWatchP) (e : Nat), Admitted (cmd 0x0704 .control false 8) h s → p.rsv = 0 → screenedKind (chanKind s p.chan.toNat) = true → watchedChan s
    p.chan.toNat = false → tfreeFrom s.osc.watch 512 0 = some e → 
    ∃ v, v = { u with osc := { s.osc with watch := tset s.osc.watch e p.chan.toNat } } ∧
    exec (.oscWatchAdd h p) s = .next (answer h 0x0704 (done ((slotOf v p.chan.toNat).elim v (fun e => modSlot e.1 (fun x =>
      { x with watched := true, state := .active, unwatched := false }) v))))) ∧
  (∀ (p : OscWatchP), Admitted (cmd 0x0704 .control false 8) h s → p.rsv = 0 → watchedChan s p.chan.toNat = true → slotOf s p.chan.toNat = none → 
    exec (.oscWatchRemove h p) s = .next (answer h 0x0704 (done
      { u with osc := { s.osc with watch := tkeep (fun _ c => decide (c ≠ p.chan.toNat)) s.osc.watch } }))) ∧
  (∀ (p : OscBranchP) (n : Nat), Admitted (cmd 0x0705 .control false 12) h s → p.rsv = 0 → p.branch = 0 → chanKind s p.vChan.toNat = 1 → chanKind s
    p.iChan.toNat = 2 → (chanGrid s p.vChan.toNat).isSome = true → chanGrid s p.vChan.toNat = chanGrid s p.iChan.toNat → tfreeFrom s.osc.branches 1024
    0 = some n → 
    exec (.oscBranchAdd h p) s = .next (answer h 0x0705 (doneWith (leBytes 2 n ++ leBytes 2 0)
      { u with osc := { s.osc with branches := tset s.osc.branches n
                                     { vChan := p.vChan.toNat, iChan := p.iChan.toNat, mode := none, dir := 0, defW := 0, lastTs := 0, part := h.part,
                                         raw := [], fil := [] } } }))) ∧
  (∀ (p : OscBranchP), Admitted (cmd 0x0705 .control false 12) h s → p.rsv = 0 → p.vChan = 0 → p.iChan = 0 → p.branch.toNat < 1024 → (tget
    s.osc.branches p.branch.toNat).isSome = true → 
    exec (.oscBranchRemove h p) s = .next (answer h 0x0705 (doneWith (leBytes 2 p.branch.toNat ++ leBytes 2 0)
      { u with osc := { s.osc with branches := tdel s.osc.branches p.branch.toNat, modes := tmap (fun _ m => if m.sourceBranch = some p.branch.toNat
                                     then { m with sourceBranch := none } else m) s.osc.modes } }))) ∧
  (∀ (p : OscRelearnP), Admitted (cmd 0x0706 .control false 8) h s → p.rsv = 0 → p.scope = 0 → screenedKind (chanKind s p.id.toNat) = true → 
    exec (.oscRelearn h p) s = .next (answer h 0x0706 (done (raise 0x0110 1 ([BitVec.ofNat 8 h.part.val, 0x07, p.scope] ++ leBytes 4 p.id.toNat) none
      (relearnChan p.id.toNat u))))) ∧
  (∀ (p : OscRelearnP), Admitted (cmd 0x0706 .control false 8) h s → p.rsv = 0 → p.scope = 1 → (getStream s p.id.toNat).isSome = true → 
    exec (.oscRelearn h p) s = .next (answer h 0x0706 (done (raise 0x0110 1 ([BitVec.ofNat 8 h.part.val, 0x07, p.scope] ++ leBytes 4 p.id.toNat) none
      ((screenedOf s p.id.toNat).foldl (fun t ch => relearnChan ch t) u))))) ∧
  (∀ (p : OscOutputBindP), Admitted (cmd 0x0707 .openC false 4) h s → p.rsv = 0 → 1 ≤ p.outDiv.toNat ∧ p.outDiv.toNat ≤ 200 → p.ring ≠ 0xFF → tget
    s.osc.outRing h.part.val = none → ringFree s h.part p.ring.toNat false = true → 
    exec (.oscOutputBind h p) s = .next (answer h 0x0707 (done (bindRing h.part p.ring.toNat .estimator
      { u with osc := { s.osc with outDiv := s.osc.outDiv.set h.part p.outDiv.toNat, outRing := tset s.osc.outRing h.part.val p.ring.toNat } })))) ∧
  (∀ (p : OscOutputBindP) (n : Nat), Admitted (cmd 0x0707 .openC false 4) h s → p.rsv = 0 → 1 ≤ p.outDiv.toNat ∧ p.outDiv.toNat ≤ 200 → p.ring = 0xFF →
    tget s.osc.outRing h.part.val = some n → 
    exec (.oscOutputBind h p) s = .next (answer h 0x0707 (done (unbindRing h.part n .estimator
      { u with osc := { s.osc with outDiv := s.osc.outDiv.set h.part p.outDiv.toNat, outRing := tdel s.osc.outRing h.part.val } }))))

/-- Tier 1. The screen takes each final slab once and its patches after it; an estimator slot steps on a due slab, and is freed when its hold has run
  out (R187, R190, R193, R194, Table 7.3). The standard deviations of a step are free values (log entry 24). -/
def Obligations.OscillationEventsComplete : Prop :=
  ∀ s : State,
  (∀ (grid : BitVec 5) (tag : U64) (v : Slab), getSlab s grid.toNat tag.toNat = some v → v.screened = false → v.state = .final ∨ v.state = .history → 
    exec (.screenStep grid tag) s = .next (underSlab grid.toNat tag.toNat (screenSlab grid.toNat tag.toNat) (modSlab grid.toNat tag.toNat (fun x =>
      { x with screened := true, scrPatches := x.patches, fixes := [] }) s))) ∧
  (∀ (g k : Nat) (f : State → State), 
    (k % 1000000000 ≠ 0 → screenSlab g k s = (gridChans { s with osc := { s.osc with screened := tset s.osc.screened g k } } g).foldl (fun t e =>
      screenChan g k e.1 e.2 t) { s with osc := { s.osc with screened := tset s.osc.screened g k } }) ∧ (underSlab g k f s).osc.set = s.osc.set) ∧
  (∀ (grid : BitVec 5) (tag : U64) (v : Slab), getSlab s grid.toNat tag.toNat = some v → v.screened = true → v.scrPatches < v.patches → 
    ∃ w, w = modSlab grid.toNat tag.toNat (fun x => { x with scrPatches := x.patches, fixes := [] }) s ∧
    exec (.screenPatchFix grid tag) s = .next (if lastScreened w grid.toNat ≠ tag.toNat then bumpBy (gridCnt grid.toNat 14) (v.patches - v.scrPatches)
      w else underSlab grid.toNat tag.toNat (screenFixes grid.toNat tag.toNat v.fixes) w)) ∧
  (∀ (slot : U16) (tag : U64) (v : EstSlot), getSlot s slot.toNat = some v → 
    exec (.estimatorStep slot tag) s = .next (inTurn (underSlab v.grid tag.toNat (estimatorWork slot.toNat tag.toNat)) s)) ∧
  (∀ (n k : Nat) (v : EstSlot), getSlot s n = some v → stepDue s v k = true → 
    let skip := match reportAt s v.grid k v.chan (chanKind s v.chan) with
      | some c => c.fill.isSome
      | none => true
    let r := estResult v (chanKind s v.chan) k skip s
    let w := bumpIf skip 0x07000148 (bump 0x07000140 (modSlot n (fun x => stepSlot x s.osc.set k skip r.1 r.2.1) r.2.2))
    let x := estOutput n k (ampCondition n k w)
    estimatorWork n k s = (if gridStepped x v.grid k = false then x else flowBranches v.grid k (if k % 1000000000 = 0 then wholeSecond v.grid k x else
      x))) ∧
  (∀ (slot : U16) (v : EstSlot), getSlot s slot.toNat = some v → v.state = .hold → v.unwatched = true ∨ slotClear s v = true → v.holdSince + (oscFor s
    v.grid (lastScreened s v.grid)).holdS * 1000000000 ≤ lastScreened s v.grid → 
    exec (.estimatorHoldExpiry slot) s = .next (freeEst slot.toNat none s))

/-- Tier 1. The clusterer commands have their effect on operands within Table 8.15 (R205, R209, R213, R214, R220, R234). -/
def Obligations.IslandCommandsComplete : Prop :=
  ∀ (h : Hdr) (s : State), let u := countCmd h s
  (∀ (p : ClusterConfigP), Admitted (cmd 0x0801 .control false 12) h s → 7 ≤ p.grid.toNat → p.grid.toNat ≤ 19 → p.fNom.toNat < 2 → 200 ≤
    p.windowMs.toNat → p.windowMs.toNat ≤ 2000 → 1 ≤ p.joinMhz.toNat → p.joinMhz.toNat ≤ 100 → p.joinMhz.toNat < p.leaveMhz.toNat → p.leaveMhz.toNat ≤
    200 → 1 ≤ p.mergeMhz.toNat → p.mergeMhz.toNat ≤ p.joinMhz.toNat → 1 ≤ p.minMembers.toNat → 1 ≤ p.obsPct.toNat → p.obsPct.toNat ≤ 100 → 50 ≤
    p.usablePct.toNat → p.usablePct.toNat ≤ 100 → p.rsv = 0 → s.isl.signals = [] ∨ s.isl.cfg.grid = some p.grid.toNat → 
    exec (.clusterConfig h p) s = .next (answer h 0x0801 (done (newSettings
      { grid := some p.grid.toNat, fNom60 := decide (p.fNom = 1), windowMs := p.windowMs.toNat, joinMhz := p.joinMhz.toNat, leaveMhz :=
          p.leaveMhz.toNat, mergeMhz := p.mergeMhz.toNat, minMembers := p.minMembers.toNat, obsPct := p.obsPct.toNat, usablePct := p.usablePct.toNat }
      s.isl.det u)))) ∧
  (∀ (p : BusSignalP), Admitted (cmd 0x0802 .control false 12) h s → p.rsv = 0 → p.index.toNat < 16384 → tget s.isl.signals p.index.toNat = none →
    onCluGrid s p.fChan.toNat 3 = true → onCluGrid s p.aChan.toNat 1 = true → s.isl.signals.length < 16384 → 
    exec (.busSignalAdd h p) s = .next (answer h 0x0802 (done
      { u with isl := { s.isl with signals := tset s.isl.signals p.index.toNat
                                     { fChan := p.fChan.toNat, aChan := p.aChan.toNat, cluster := none, usable := false, observed := false, dOwn := 0
                                         } } }))) ∧
  (∀ (p : BusSignalP), Admitted (cmd 0x0802 .control false 12) h s → p.rsv = 0 → p.index.toNat < 16384 → p.fChan = 0 → p.aChan = 0 → (tget s.isl.signals
    p.index.toNat).isSome = true → 
    ∃ v, v = { u with isl := { s.isl with signals := tdel s.isl.signals p.index.toNat, memb := tmap (fun _ m => tdel m p.index.toNat) s.isl.memb } } ∧
    exec (.busSignalRemove h p) s = .next (answer h 0x0802 (done (freeEmpty (v.isl.signals.filterMap (fun e => e.2.cluster.map (fun c => (e.1, c))))
      s.isl.lastEvalTag (taiNs s) v)))) ∧
  (∀ (p : ClusterRefP), Admitted (cmd 0x0803 .control false 16) h s → p.ref.length = 8 → p.ref.all (fun r => decide (r = 0xFFFF ∨ r.toNat < 16384)) =
    true → 
    exec (.clusterRef h p) s = .next (answer h 0x0803 (done { u with isl :=
                                                                       { s.isl with refList := p.ref.map (fun r => if r = 0xFFFF then none else some
                                                                                      r.toNat) } }))) ∧
  (∀ (p : BreakerMapP) (e : Nat), Admitted (cmd 0x0804 .control false 16) h s → p.bit.toNat < 16 → p.entry = 0 → p.sigA.toNat < 16384 → p.sigB.toNat <
    16384 → p.closed.toNat < 2 → p.rsv = 0 → chanKind s p.chan.toNat = 6 → tfreeFrom s.isl.breakers 1024 0 = some e → 
    exec (.breakerMapAdd h p) s = .next (answer h 0x0804 (doneWith (leBytes 2 e ++ leBytes 2 0)
      { u with isl := { s.isl with breakers := tset s.isl.breakers e
                                     { bit := p.bit.toNat, chan := p.chan.toNat, sigA := p.sigA.toNat, sigB := p.sigB.toNat, closed := decide
                                         (p.closed = 1) } } }))) ∧
  (∀ (p : BreakerMapP), Admitted (cmd 0x0804 .control false 16) h s → p.entry.toNat < 1024 → p.rsv = 0 → p.bit.toNat < 16 → p.closed.toNat < 2 → (tget
    s.isl.breakers p.entry.toNat).isSome = true → 
    exec (.breakerMapRemove h p) s = .next (answer h 0x0804 (doneWith (leBytes 2 p.entry.toNat ++ leBytes 2 0)
      { u with isl := { s.isl with breakers := tdel s.isl.breakers p.entry.toNat } }))) ∧
  (∀ (p : DetectorConfigP), Admitted (cmd 0x0805 .control false 36) h s → detectorOk p = true → 
    exec (.detectorConfig h p) s = .next (answer h 0x0805 (done (newSettings s.isl.cfg
      { divMhz := p.divMhz.toNat, divHystMhz := p.divHystMhz.toNat, islandConfMs := p.islandConfMs.toNat, islandClearMs := p.islandClearMs.toNat,
          rocofMhzs := p.rocofMhzs.toNat, rocofSpanMs := p.rocofSpanMs.toNat, rocofConfMs := p.rocofConfMs.toNat, rocofClearMs :=
          p.rocofClearMs.toNat, fexcLoMhz := p.fexcLoMhz.toNat, fexcHiMhz := p.fexcHiMhz.toNat, fexcConfMs := p.fexcConfMs.toNat, fexcClearMs :=
          p.fexcClearMs.toNat, angThrCdeg := p.angThrCdeg.toNat, angHystCdeg := p.angHystCdeg.toNat, angConfMs := p.angConfMs.toNat, angClearMs :=
          p.angClearMs.toNat, enables := BitVec.ofNat 4 p.enables.toNat, unobsClearS := p.unobsClearS.toNat } u)))) ∧
  (∀ (p : AlarmMapP), Admitted (cmd 0x0806 .control false 12) h s → p.rsv = 0 → p.entry.toNat < 256 → p.first.toNat ≤ p.last.toNat → p.rsv2 = 0 → 
    exec (.alarmMapSet h p) s = .next (answer h 0x0806 (done { u with alm :=
                                                                        { s.alm with map := tset s.alm.map p.entry.toNat (p.first.toNat, p.last.toNat,
                                                                                       p.stages) } }))) ∧
  (∀ (p : AlarmMapP), Admitted (cmd 0x0806 .control false 12) h s → p.rsv = 0 → p.entry.toNat < 256 → p.first.toNat ≤ p.last.toNat → p.rsv2 = 0 → (tget
    s.alm.map p.entry.toNat).isSome = true → 
    exec (.alarmMapRemove h p) s = .next (answer h 0x0806 (done { u with alm := { s.alm with map := tdel s.alm.map p.entry.toNat } }))) ∧
  (∀ (p : AlarmFrameConfigP), Admitted (cmd 0x080A .control false 8) h s → p.rep.toNat < 8 → 1 ≤ p.repMs.toNat → p.repMs.toNat ≤ 50 → 100 ≤
    p.refreshMs.toNat → p.refreshMs.toNat ≤ 10000 → (p.rxPort ≠ 0 → portTaken s 3 false p.rxPort.toNat allMacs = false) → 
    exec (.alarmFrameConfig h p) s = .next (answer h 0x080A (done
      { u with alm := { s.alm with sourceId := p.sourceId, rep := p.rep.toNat, repMs := p.repMs.toNat, refreshMs := p.refreshMs.toNat, rxPort :=
                                     p.rxPort, stages := tmap (fun _ v => { v with lastState := refreshAt s p.refreshMs.toNat }) s.alm.stages } })))

/-- Tier 1. R221 to R223, R227: the commands of an alarm stage, from a partition whose claim suffices (R56). -/
def Obligations.AlarmStageCommandsComplete : Prop :=
  ∀ (h : Hdr) (s : State), let u := countCmd h s
  (∀ (p : AlarmStageP), Admitted (cmd 0x0807 .stage true 36) h s → p.stage.toNat < 16 → p.enable = 1 → p.mode.toNat < 2 → p.flags.toNat < 16 →
    p.minOnMs.toNat ≤ 10000 → p.rsv = 0 → p.offsetUs.toNat ≤ 1000000 → p.rsv2 = 0 → p.rsv3 = 0 → targetOk p.frameTarget = true → stageClaimOk s h.part
    p.stage.toNat = true → (getStage s p.stage.toNat).state = .disabled → 
    ∃ n, n = p.stage.toNat ∧
    ∃ v, v = modStage n (fun x => { x with claim := (getPart s h.part).claim, everEnabled := true }) (setStage n
      { stageSettings p (getStage s n) with lastState := refreshAt s s.alm.refreshMs } u) ∧
    ∃ w, w = modStage n (fun x => { x with acked := false }) v ∧
    exec (.alarmStage h p) s = .next (answer h 0x0807 (done (gooseStart n (pinFollow n (stageState n (if (getStage s n).active = [] then .inactive
      else .active) 0 w)))))) ∧
  (∀ (p : AlarmStageP), Admitted (cmd 0x0807 .stage true 36) h s → p.stage.toNat < 16 → p.enable = 0 → p.mode.toNat < 2 → p.flags.toNat < 16 →
    p.minOnMs.toNat ≤ 10000 → p.rsv = 0 → p.offsetUs.toNat ≤ 1000000 → p.rsv2 = 0 → p.rsv3 = 0 → targetOk p.frameTarget = true → stageClaimOk s h.part
    p.stage.toNat = true → 
    ∃ n, n = p.stage.toNat ∧
    exec (.alarmStage h p) s = .next (answer h 0x0807 (done (gooseStop n (modStage n (fun x => { x with pin := false, testEnd := none }) (stageState n
      .disabled 0 (setStage n { stageSettings p (getStage s n) with lastState := if (getStage s n).state ≠ .disabled ∧ (getStage s n).frame = true
                                                                      then (getStage s n).lastState else refreshAt s s.alm.refreshMs } u))))))) ∧
  (∀ (p : AlarmAckP), Admitted (cmd 0x0808 .stage true 4) h s → p.rsv = 0 → (stageList p.stages.toNat).all (fun n => stageClaimOk s h.part n) = true → 
    exec (.alarmAck h p) s = .next (answer h 0x0808 (done ((stageList p.stages.toNat).foldl (fun t n => ackOn n t) u)))) ∧
  (∀ (p : AlarmTestP), Admitted (cmd 0x0809 .stage false 4) h s → alarmTestOk p = true → stageClaimOk s h.part p.stage.toNat = true → (getStage s
    p.stage.toNat).state ≠ .disabled → 
    ∃ n, n = p.stage.toNat ∧
    exec (.alarmTestForce h p) s = .next (answer h 0x0809 (done (gooseChange n 0 (taiNs s) 0 false false false (plainFrame 4 n (taiNs s) 16 (pinFollow
      n (modStage n (fun x => { x with testEnd := some (elNs s + p.durationMs.toNat * 1000000) }) (stageState n .test 0 u)))))))) ∧
  (∀ (p : AlarmTestP), Admitted (cmd 0x0809 .stage false 4) h s → alarmTestOk p = true → stageClaimOk s h.part p.stage.toNat = true → (getStage s
    p.stage.toNat).state = .test → 
    exec (.alarmTestRelease h p) s = .next (answer h 0x0809 (done (endTest p.stage.toNat u)))) ∧
  (∀ (p : AlarmGooseConfigP), Admitted (cmd 0x080B .stage false 208) h s → p.stage.toNat < 16 → p.appid.toNat ≤ 0x3FFF → p.vlan.getLsbD 12 = false → 1 ≤
    p.tMinMs.toNat → p.tMinMs.toNat ≤ 16 → 100 ≤ p.tMaxMs.toNat → p.tMaxMs.toNat ≤ 10000 → 0x010CCD010000 ≤ p.dstMac.toNat → p.dstMac.toNat ≤
    0x010CCD0101FF → p.gocbRef.headD 0 ≠ 0 → targetOk p.target = true → asciiOk p.gocbRef = true → asciiOk p.datSet = true → asciiOk p.goId = true →
    stageClaimOk s h.part p.stage.toNat = true → (getStage s p.stage.toNat).gse = none → 
    ∃ n, n = p.stage.toNat ∧
    exec (.alarmGooseConfig h p) s = .next (answer h 0x080B (done (gooseStart n (setStage n
      { getStage s n with gse := some { target := p.target.toNat, appid := p.appid, vlan := p.vlan, tMinMs := p.tMinMs.toNat, tMaxMs :=
                                          p.tMaxMs.toNat, dstMac := p.dstMac, gocbRef := p.gocbRef, datSet := p.datSet, goId := p.goId, stNum := 0,
                                          sqNum := 0, confRev := 1, nextEl := none, intervalMs := 0, questionable := false, evTs := 0, alarm := 0,
                                          changes := 0 } } u))))) ∧
  (∀ (p : AlarmGooseConfigP) (g : Goose), Admitted (cmd 0x080B .stage false 208) h s → p.stage.toNat < 16 → p.appid.toNat ≤ 0x3FFF → p.vlan.getLsbD 12 =
    false → 1 ≤ p.tMinMs.toNat → p.tMinMs.toNat ≤ 16 → 100 ≤ p.tMaxMs.toNat → p.tMaxMs.toNat ≤ 10000 → 0x010CCD010000 ≤ p.dstMac.toNat →
    p.dstMac.toNat ≤ 0x010CCD0101FF → p.gocbRef.headD 0 ≠ 0 → targetOk p.target = true → asciiOk p.gocbRef = true → asciiOk p.datSet = true → asciiOk
    p.goId = true → stageClaimOk s h.part p.stage.toNat = true → (getStage s p.stage.toNat).gse = some g → 
    ∃ n, n = p.stage.toNat ∧
    exec (.alarmGooseConfig h p) s = .next (answer h 0x080B (done (setStage n
      { getStage s n with gse := some { g with target := p.target.toNat, appid := p.appid, vlan := p.vlan, tMinMs := p.tMinMs.toNat, tMaxMs :=
                                                 p.tMaxMs.toNat, dstMac := p.dstMac, gocbRef := p.gocbRef, datSet := p.datSet, goId := p.goId, confRev
                                                 := g.confRev + 1 } } u))))

/-- Tier 1. A slab release is evaluated by the clusterer; tests and pins end; frames repeat, refresh, are retransmitted and received (R207, R215, R222,
  R223, R225, R227, R229). -/
def Obligations.AlarmEventsComplete : Prop :=
  ∀ (n : BitVec 4) (s : State), let v := getStage s n.toNat
  (∀ (tag : U64) (g : Nat) (x : Slab), s.isl.cfg.grid = some g → getSlab s g tag.toNat = some x → x.state ≠ .forming → x.evals < releases x → x.patches
    = 0 ∨ patchWanted s g tag.toNat = true → 
    exec (.clusterEvaluation tag) s = .next (inTurn (clusterEvaluate g tag.toNat x) s)) ∧
  (∀ (e : Nat), v.testEnd = some e → v.state = .test → e ≤ elNs s → 
    exec (.alarmTestExpiry n) s = .next (endTest n.toNat s)) ∧
  (exec (.pinMinOnExpiry n) s = .next (pinFollow n.toNat s)) ∧
  (
    let r := sendRepeats n.toNat s.alm.repeats s
    exec (.alarmFrameRepeat n) s = .next { r.2 with alm := { r.2.alm with repeats := r.1 } }) ∧
  (v.state ≠ .disabled → v.frame = true → v.lastState ≠ refreshAt s s.alm.refreshMs → 
    exec (.alarmStateRefresh n) s = .next (plainFrame 3 n.toNat (refreshAt s s.alm.refreshMs) 0 (setStage n.toNat
      { v with lastState := refreshAt s s.alm.refreshMs } s))) ∧
  (∀ (g : Goose) (e : Nat), v.gse = some g → g.nextEl = some e → e ≤ elNs s → v.goose = true → v.state ≠ .disabled → 
    ∃ iv, iv = min g.tMaxMs (g.intervalMs * 2) ∧
    exec (.gooseRetransmit n) s = .next (sendGoose n.toNat none none (setStage n.toNat
      { v with gse := some { g with sqNum := wrapOne g.sqNum, intervalMs := iv, nextEl := some (elNs s + iv * 1000000) } } s))) ∧
  (∀ (f : AlarmRx), s.alm.rxPort ≠ 0 → f.poisoned = true → 
    exec (.alarmFrameRx f) s = .next (popIn f.port.toNat .c0 s)) ∧
  (∀ (f : AlarmRx), s.alm.rxPort ≠ 0 → f.poisoned = false → f.len ≠ 64 ∨ f.magic ≠ 0x4F54414C ∨ f.version ≠ 1 → 
    exec (.alarmFrameRx f) s = .next (bump 0x08000170 (popIn f.port.toNat .c0 s))) ∧
  (∀ (f : AlarmRx), s.alm.rxPort ≠ 0 → f.poisoned = false → f.len = 64 → f.magic = 0x4F54414C → f.version = 1 → (tgetD (popIn f.port.toNat .c0
    s).alm.rxSeen f.sourceId.toNat []).contains f.seq = true → 
    exec (.alarmFrameRx f) s = .next (bump 0x08000178 (popIn f.port.toNat .c0 s))) ∧
  (∀ (f : AlarmRx) (seen : List U32), s.alm.rxPort ≠ 0 → f.poisoned = false → f.len = 64 → f.magic = 0x4F54414C → f.version = 1 → seen = tgetD (popIn
    f.port.toNat .c0 s).alm.rxSeen f.sourceId.toNat [] → seen.contains f.seq = false → 
    ∃ t, t = popIn f.port.toNat .c0 s ∧
    exec (.alarmFrameRx f) s = .next (raise 0x0810 1 (leBytes 2 f.sourceId.toNat ++ [f.kind, f.stage] ++ leBytes 2 f.alarm.toNat ++ [f.claim] ++
      leBytes 2 f.flags.toNat ++ leBytes 8 f.evTs.toNat) none (bump 0x08000168
      { t with alm := { t.alm with rxSeen := tset t.alm.rxSeen f.sourceId.toNat ((f.seq :: seen).take 16) } })))

/-- Tier 1. R235 to R244, R256: captures are added, given sources and triggers, armed, triggered, disarmed, freed and retired, on operands within Table
  9.17. -/
def Obligations.CaptureCommandsComplete : Prop :=
  ∀ (h : Hdr) (s : State), let u := countCmd h s
  (∀ (p : CaptureAddP) (b c : Nat), Admitted (cmd 0x0901 .openC false (24 + 8 * p.nLanes.toNat)) h s → captureAddOk s h p = true → b = capBytes
    (p.lanes.map (fun l => (l.kind.toNat, l.rate.toNat, l.maxSources.toNat))) p.preMs.toNat p.postMs.toNat p.patchHoldMs.toNat p.slots.toNat → (useOf
    s h.part).captureRings + 1 ≤ (getPart s h.part).quota.captureRings → capUsed s + b ≤ s.cap.poolMib * 2 ^ 20 → tfreeFrom s.cap.caps 64 0 = some c →
    
    ∃ k, k = newCap h p b ∧
    exec (.captureAdd h p) s = .next (answer h 0x0901 (doneWith (BitVec.ofNat 8 c :: List.replicate 7 0 ++ leBytes 8 b) (capPoolCheck (bindOpt h.part
      k.exportRing (.capture c) (bindOpt h.part k.streamRing (.capture c) { u with cap := { s.cap with caps := tset s.cap.caps c k } })))))) ∧
  (∀ (p : CaptureSourcesP) (k : Cap) (l : Lane), Admitted (cmd 0x0902 .openC false (8 + 8 * p.n.toNat)) h s → getCap s p.capture.toNat = some k →
    mayName s h.part k.owner = true → p.rsv = 0 → p.n.toNat ≤ 504 → p.entries.length = p.n.toNat → k.lanes[p.lane.toNat]? = some l → p.entries.all
    (sourceOk s h l) = true → p.n = 0 ∨ l.sources.length + p.n.toNat ≤ l.maxSources → k.state = .disarmed → 
    exec (.captureSources h p) s = .next (answer h 0x0902 (done (modLane p.capture.toNat p.lane.toNat (fun l =>
      { l with sources := if p.n = 0 then [] else l.sources ++ p.entries.map (fun e => (e.source.toNat, e.dir.toNat)) }) u)))) ∧
  (∀ (p : CaptureTriggerSetP) (k : Cap), Admitted (cmd 0x0903 .openC false 32) h s → getCap s p.capture.toNat = some k → mayName s h.part k.owner = true
    → triggerSetOk k p = true → k.state = .disarmed → p.kind ≠ 6 → 
    ∃ e, e = p.entry.toNat ∧
    ∃ v, v = dropTimed (fun a => decide (a = .trigger p.capture.toNat e)) u ∧
    exec (.captureTriggerSet h p) s = .next (answer h 0x0903 (done (modCap p.capture.toNat (fun y =>
      { y with entries := if p.kind = 0 then tdel y.entries e else tset y.entries e
                 { kind := p.kind.toNat, dir := p.dir.toNat, lane := p.lane.toNat, send := p.flags.getLsbD 0, pos := p.pos.toNat, level := p.level,
                     hyst := p.hyst, param := p.param, holdoffMs := p.holdoffMs.toNat, holdEnd := none, inside := false, last := none, cancelled :=
                     none } }) v)))) ∧
  (∀ (p : CaptureTriggerSetP) (k : Cap), Admitted (cmd 0x0903 .openC false 32) h s → getCap s p.capture.toNat = some k → mayName s h.part k.owner = true
    → triggerSetOk k p = true → k.state = .disarmed → p.kind = 6 → s.clk.timeValid = true → taiNs s ≤ p.param.toNat → 
    ∃ e, e = p.entry.toNat ∧
    ∃ v, v = dropTimed (fun a => decide (a = .trigger p.capture.toNat e)) u ∧
    exec (.captureTriggerSet h p) s = .next (answer h 0x0903 (done (addTimed ⟨p.param.toNat, .trigger p.capture.toNat e⟩ (modCap p.capture.toNat (fun
      y => { y with entries := tset y.entries e { kind := 6, dir := p.dir.toNat, lane := p.lane.toNat, send := p.flags.getLsbD 0, pos := p.pos.toNat,
                                                    level := p.level, hyst := p.hyst, param := p.param, holdoffMs := p.holdoffMs.toNat, holdEnd :=
                                                    none, inside := false, last := none, cancelled := none } }) v))))) ∧
  (∀ (p : CaptureArmP) (k : Cap), Admitted (cmd 0x0904 .openC true 4) h s → getCap s p.capture.toNat = some k → mayName s h.part k.owner = true → p.rsv
    = 0 → k.state = .disarmed → 
    ∃ c, c = p.capture.toNat ∧
    ∃ v, v = capState c .filling (modCap c (fun x => { x with armTs := taiNs s, armEl := elNs s, gapBefore := false, lanes := x.lanes.map (fun l =>
                                                                { l with rows := [], disc := false, lastEl := none }), entries := tmap (fun _ e =>
                                                                { e with inside := false, last := none }) x.entries }) u) ∧
    exec (.captureArm h p) s = .next (answer h 0x0904 (done (streamItem c 2 0 (streamTables v c k).length (taiNs s) (streamTables v c k) false v)))) ∧
  (∀ (p : CaptureArmP) (k : Cap), Admitted (cmd 0x0904 .openC true 4) h s → getCap s p.capture.toNat = some k → mayName s h.part k.owner = true → p.rsv
    = 0 → k.state ≠ .disarmed → tany (fun _ r => openRec r.state) k.slots = false → 
    ∃ t, exec (.captureDisarm h p) s = .next t ∧ Answers h 0x0904 .ok [] t ∧ (getCap t p.capture.toNat).map (·.state) = some .disarmed ∧ (getCap t
      p.capture.toNat).map (fun x => x.lanes.map (·.rows)) = some (k.lanes.map (fun _ => []))) ∧
  (∀ (p : CaptureTriggerP), Admitted (cmd 0x0905 .openC true 16) h s → capNamed s h p.capture = true → p.rsv = 0 → p.flags.toNat < 4 → (p.flags.getLsbD
    0 = true → s.clk.timeValid = true) → 
    exec (.captureTrigger h p) s = .next (answer h 0x0905 (done (trigger p.capture.toNat
      { kind := 8, entry := 0xFF, lane := 0xFF, t := if p.flags.getLsbD 0 then p.tTrig.toNat else taiNs s, bound := 0, linear := false, predicted :=
          false, alarm := none, send := p.flags.getLsbD 1, chan := none } u)))) ∧
  (∀ (p : CaptureRecordFreeP) (k : Cap) (r : RecSlot), Admitted (cmd 0x0906 .openC false 4) h s → getCap s p.capture.toNat = some k → mayName s h.part
    k.owner = true → p.rsv = 0 → p.slot.toNat < k.slotCount → tget k.slots p.slot.toNat = some r → r.state = .ready → 
    exec (.captureRecordFree h p) s = .next (answer h 0x0906 (done (modCap p.capture.toNat (fun x => { x with slots := tdel x.slots p.slot.toNat })
      u)))) ∧
  (∀ (p : CaptureExportP) (r : RecSlot), Admitted (cmdLong 0x0907 .openC false 8) h s → recNamed s h p.source p.capture p.slot = true → ringFree s
    h.part p.ring.toNat false = true → p.fmt.toNat < 3 → p.freeAfter.toNat < 2 → p.rsv = 0 → recAt s p.source.toNat p.capture.toNat p.slot.toNat =
    some r → r.state = .ready → 
    ∃ id, id = s.host.longNext ∧
    exec (.captureExport h p) s = .next (answer h 0x0907 (⟨.accepted, [], bindRing h.part p.ring.toNat .halga (setJob id (.exportJob p.source.toNat
      p.capture.toNat p.slot.toNat p.fmt.toNat h.part p.ring.toNat (decide (p.freeAfter = 1))) (setRecAt p.source.toNat p.capture.toNat p.slot.toNat
      (some { r with state := .exporting }) (startLong h 0x0907 10000 u).2))⟩))) ∧
  (∀ (p : CaptureRetireP) (k : Cap), Admitted (cmdLong 0x0908 .openC false 4) h s → getCap s p.capture.toNat = some k → mayName s h.part k.owner = true
    → p.force.toNat < 2 → p.rsv = 0 → k.retiring = none → (p.force = 0 → tany (fun _ r => decide (r.state = .ready)) k.slots = false) → 
    exec (.captureRetire h p) s = .next (answer h 0x0908 (⟨.accepted, [], modCap p.capture.toNat (fun x => { x with retiring := some s.host.longNext
                                                                                                                      }) (startLong h 0x0908 1000
      u).2⟩))) ∧
  (∀ (p : HalgaImportP) (n : Nat), Admitted (cmdLong 0x0909 .openC false 8) h s → ringFree s h.part p.ring.toNat true = true → p.rsv = 0 → 256 ≤
    p.bytes.toNat → p.bytes.toNat ≤ 1073741824 → tfreeFrom s.cap.imports 16 0 = some n → capUsed s + p.bytes.toNat ≤ s.cap.poolMib * 2 ^ 20 → 
    ∃ v, v = (startLong h 0x0909 10000 u).2 ∧
    exec (.halgaImport h p) s = .next (answer h 0x0909 (⟨.accepted, [], capPoolCheck (bindRing h.part p.ring.toNat .halga (setJob s.host.longNext
      (.importJob n h.part p.ring.toNat p.bytes.toNat) { v with cap :=
                                                                  { v.cap with imports := tset v.cap.imports n
                                                                                 { emptyRec with bytes := p.bytes.toNat } } }))⟩))) ∧
  (∀ (p : HalgaMergeP) (n : Nat), Admitted (cmdLong 0x090A .openC false (4 + 4 * p.n.toNat)) h s → p.mode = 0 → 2 ≤ p.n.toNat → p.n.toNat ≤ 16 →
    p.inputs.length = p.n.toNat → p.inputs.all (fun i => decide (i.rsv = 0) && recNamed s h i.source i.capture i.slot) = true → p.inputs.all (fun i =>
    match recAt s i.source.toNat i.capture.toNat i.slot.toNat with | some r => decide (r.state = .ready) | none => false) = true → tfreeFrom
    s.cap.merges 4 0 = some n → 
    ∃ v, v = (startLong h 0x090A 30000 u).2 ∧
    exec (.halgaMerge h p) s = .next (answer h 0x090A (⟨.accepted, [], setJob s.host.longNext (.mergeJob n 0 p.sRate.toNat p.grid.toNat (p.inputs.map
      (fun i => (i.source.toNat, i.capture.toNat, i.slot.toNat)))) { v with cap := { v.cap with merges := tset v.cap.merges n emptyRec } }⟩))) ∧
  (∀ (p : CaptureRemoteConfigP), Admitted (cmd 0x090B .control false 24) h s → p.txGroup.toNat < 64 → p.txTarget.toNat < 12 ∨ p.txTarget.toNat = 0x10 ∨
    p.txTarget.toNat = 0x11 ∨ p.txTarget.toNat = 0xFF → p.rtPort = 0 ∨ portTaken s 4 false p.rtPort.toNat allMacs = false → 
    exec (.captureRemoteConfig h p) s = .next (answer h 0x090B (done
      { u with cap := { s.cap with rtPort := p.rtPort, sourceId := p.sourceId, txGroup := p.txGroup.toNat, txTarget := p.txTarget.toNat, txDstPort :=
                                     p.txDstPort, txDstAddr := p.txDstAddr } })))

/-- Tier 1. R236, R242, R244, R247, R252 to R254, R256: what the capture engine does with rows, at the ends of its delays, with remote triggers, and
  when its exports, imports and merges are done. -/
def Obligations.CaptureEventsComplete : Prop :=
  ∀ (c : U8) (s : State),
  (∀ (k : Cap), getCap s c.toNat = some k → k.state = .filling → k.armTs + k.preMs * 1000000 ≤ taiNs s → 
    exec (.captureFilled c) s = .next (capState c.toNat .armed s)) ∧
  (∀ (entry : BitVec 4) (k : Cap) (x : TrigEntry) (e : Nat), getCap s c.toNat = some k → tget k.entries entry.toNat = some x → x.holdEnd = some e → e ≤
    elNs s → 
    exec (.triggerHoldoffEnd c entry) s = .next (modCap c.toNat (fun y => { y with entries := tset y.entries entry.toNat { x with holdEnd := none } })
      s)) ∧
  (∀ (lane : U8) (tag : U64) (patch : Bool) (k : Cap) (l : Lane), getCap s c.toNat = some k → k.state ≠ .disarmed → k.lanes[lane.toNat]? = some l →
    l.kind = 0 → slabFinal s l.rate tag.toNat = true → patch = true ∨ l.rows.any (fun r => decide (r.1 = tag.toNat)) = false → 
    ∃ ws, ws = l.sources.map (fun e => reportWord s l.rate tag.toNat e.1) ∧
    exec (.captureRows c lane (.report tag patch)) s = .next (autoExport c.toNat (settleRecords c.toNat (if patch then patchRow c.toNat lane.toNat k l
      tag.toNat ws s else newRow c.toNat lane.toNat k l (tag.toNat, ws) s)))) ∧
  (∀ (lane : U8) (instant : U64) (words : List U64) (k : Cap) (l : Lane), getCap s c.toNat = some k → k.state ≠ .disarmed → k.lanes[lane.toNat]? = some
    l → sampleRow s l instant.toNat = some words → 
    exec (.captureRows c lane (.sample instant)) s = .next (autoExport c.toNat (settleRecords c.toNat (tookTo c.toNat lane.toNat (elOf s
      instant.toNat) (newRow c.toNat lane.toNat k l (instant.toNat, words) s))))) ∧
  (∀ (lane : U8) (instant : U64) (cnt : U32) (k : Cap) (l : Lane), getCap s c.toNat = some k → k.state ≠ .disarmed → k.lanes[lane.toNat]? = some l → cnt
    ≠ 0 → rowInstant s l instant.toNat = true → lastLost l cnt.toNat instant.toNat ≤ taiNs s → 
    exec (.captureRows c lane (.lost instant cnt)) s = .next (autoExport c.toNat (settleRecords c.toNat (capMark c.toNat (mkMark 3 lane.toNat 0 0 0
      instant.toNat 0 0 cnt.toNat 0) (fun x => decide (x = .recording)) (modCap c.toNat (fun x =>
      { x with rowLost := satAdd (2 ^ 64 - 1) x.rowLost cnt.toNat }) (tookTo c.toNat lane.toNat (elOf s (lastLost l cnt.toNat instant.toNat))
      (lostRows c.toNat lane.toNat k l cnt.toNat instant.toNat s))))))) ∧
  (∀ (slot : U8) (k : Cap) (r : RecSlot), getCap (settleRecords c.toNat s) c.toNat = some k → tget k.slots slot.toNat = some r → r.state = .assembling →
    r.condTs ≠ none → r.condEl + k.patchHoldMs * 1000000 ≤ elNs (settleRecords c.toNat s) → 
    ∃ t, exec (.recordAssembled c slot) s = .next t ∧ ∃ v w, t = autoExport c.toNat (raise 0x0902 0 ([c, slot] ++ leBytes 4 v.record.recNo.toNat ++
      leBytes 4 v.bytes) (some k.owner) w) ∧ v.state = .ready ∧ v.bytes = (halgaBytes v.record).length ∧ w = modCap c.toNat (fun x =>
      { x with slots := tset x.slots slot.toNat v, records := sat1 x.records }) (settleRecords c.toNat s)) ∧
  (∀ (cmd : U32) (src n fmt : Nat) (d : Nat) (p : HP) (ring : Nat) (fr : Bool) (r : RecSlot) (w : State), tget s.cap.jobs cmd.toNat = some (.exportJob
    src d n fmt p ring fr) → recAt s src d n = some r → ringWrite p ring .halga (exportBytes r.record fmt).1 s = some w → 
    exec (.captureExportDone cmd) s = .next (completeLong cmd.toNat .ok [] (deviceJob r.record fmt (exportBytes r.record fmt).2 (bump 0x09000138
      (bumpIf (exportBytes r.record fmt).2 0x09000140 (setRecAt src d n (if fr then none else some { r with state := .ready }) (delJob cmd.toNat
      (unbindRing p ring .halga w)))))))) ∧
  (∀ (k : Cap) (id : Nat), getCap s c.toNat = some k → k.retiring = some id → tany (fun _ r => decide (r.state = .exporting)) k.slots = false → 
    ∃ v, v = dropTimed (fun a => match a with | .trigger x _ => decide (x = c.toNat) | _ => false) (unbindOpt k.owner k.exportRing (.capture c.toNat)
      (unbindOpt k.owner k.streamRing (.capture c.toNat) s)) ∧
    exec (.captureRetireDone c) s = .next (completeLong id .ok [] (capPoolCheck { v with cap := { v.cap with caps := tdel v.cap.caps c.toNat } }))) ∧
  (∀ (cmd : U32) (r : HalgaIn) (n : Nat) (p : HP) (ring bytes k : Nat) (q : Ring) (x : Halga), tget s.cap.jobs cmd.toNat = some (.importJob n p ring
    bytes) → getRing s p ring = some q → q.use = .halga → hostReads s p = true → buffersFor q.owned bytes = some k → r.poison = 0 → r.bytes.length =
    bytes → readHalga r.bytes = some x → 
    exec (.halgaImportDone cmd r) s = .next (completeLong cmd.toNat .ok [BitVec.ofNat 8 n] (bump 0x09000120 (setRecAt 1 0 n (some
      { emptyRec with state := .ready, bytes, record := x, readyTs := taiNs s }) (delJob cmd.toNat (unbindRing p ring .halga (readBuffers p ring .ok k
      s))))))) ∧
  (∀ (cmd : U32) (n mode sRate grid : Nat) (inputs : List (Nat × Nat × Nat)), tget s.cap.jobs cmd.toNat = some (.mergeJob n mode sRate grid inputs) → 
    let rs := inputs.filterMap (fun i => (recAt s i.1 i.2.1 i.2.2).bind (fun r => if r.state = .ready then some r.record else none))
    let x := if mode = 0 then interleave s rs else resample s sRate grid rs
    let bytes := (halgaBytes x).length
    rs.length = inputs.length → rs.all (·.timeValid) = true → capUsed s + bytes ≤ s.cap.poolMib * 2 ^ 20 →
    exec (.halgaMergeDone cmd) s = .next (completeLong cmd.toNat .ok (BitVec.ofNat 8 n :: List.replicate 3 0 ++ leBytes 4 bytes)
      (capPoolCheck (bump 0x09000130 (setRecAt 2 0 n (some { emptyRec with state := .ready, record := x, bytes, readyTs := taiNs s }) (delJob
        cmd.toNat s)))))) ∧
  (∀ (f : RemoteRx), s.cap.rtPort ≠ 0 → f.len ≠ 32 ∨ f.magic ≠ 0x4F545452 ∨ f.version ≠ 1 → 
    exec (.remoteTriggerRx f) s = .next (remoteBad 2 f (popIn f.port.toNat .c0 s))) ∧
  (∀ (f : RemoteRx), s.cap.rtPort ≠ 0 → f.len = 32 → f.magic = 0x4F545452 → f.version = 1 → f.flags.getLsbD 0 = true → (popIn f.port.toNat .c0
    s).clk.timeValid = true → f.tTrig.toNat ≤ taiNs (popIn f.port.toNat .c0 s) + 1000000000 → (tgetD (popIn f.port.toNat .c0 s).cap.rxSeen
    f.unitId.toNat []).contains f.seq = false → f.poisoned = false → 
    ∃ t, t = popIn f.port.toNat .c0 s ∧
    exec (.remoteTriggerRx f) s = .next (fireRemote f (bump 0x09000100
      { t with cap := { t.cap with rxSeen := tset t.cap.rxSeen f.unitId.toNat ((f.seq :: tgetD t.cap.rxSeen f.unitId.toNat []).take 16) } })))

/-- Tier 1. R258, R261 to R264, R266 to R271, R278, R281, R284: the Sage settings, coefficients, calibration, temperatures and local streams take their
  commands on operands within Table 10.11. -/
def Obligations.SageCommandsComplete : Prop :=
  ∀ (h : Hdr) (s : State), let u := countCmd h s
  (∀ (p : SageClockConfigP), Admitted (cmd 0x0A01 .control false 4) h s → p.fMod.toNat < 2 → p.clkEn.toNat < 64 → p.rsv = 0 → (s.sage.mps.all (fun e =>
    !e.2.enable || mOk (if p.fMod = 1 then 8192000 else 4096000) e.2) = true) → s.sage.fMod8 = decide (p.fMod = 1) → 8 ∉ s.pop.failing → 
    exec (.sageClockConfig h p) s = .next (answer h 0x0A01 (done (storeConfig { u with sage := { s.sage with clkEn := BitVec.ofNat 6 p.clkEn.toNat }
                                                                                         })))) ∧
  (∀ (p : SageClockConfigP), Admitted (cmd 0x0A01 .control false 4) h s → p.fMod.toNat < 2 → p.clkEn.toNat < 64 → p.rsv = 0 → (s.sage.mps.all (fun e =>
    !e.2.enable || mOk (if p.fMod = 1 then 8192000 else 4096000) e.2) = true) → s.sage.fMod8 ≠ decide (p.fMod = 1) → s.eq.sealed = 0 → 8 ∉
    s.pop.failing → 
    ∃ v, v = storeConfig { u with sage := { s.sage with fMod8 := decide (p.fMod = 1), clkEn := BitVec.ofNat 6 p.clkEn.toNat } } ∧
    exec (.sageClockConfig h p) s = .next (answer h 0x0A01 (done (s.sage.mps.foldl (fun t e => if e.2.enable then chainRestart e.1 .config t else t)
      v)))) ∧
  (∀ (p : SageChainConfigP), Admitted (cmd 0x0A02 .control false 12) h s → chainOk p s = true → isSealedMp s p.mp.toNat = false ∨ chainSettings p (getMp
    s p.mp.toNat) = getMp s p.mp.toNat → 8 ∉ s.pop.failing → 
    ∃ m, m = p.mp.toNat ∧
    ∃ v, v = getMp s m ∧
    ∃ w, w = chainSettings p v ∧
    ∃ t, t = storeConfig (setMp m w u) ∧
    exec (.sageChainConfig h p) s = .next (answer h 0x0A02 (done (if w.enable then (if v.enable = false ∨ chainChanged v w then chainRestart m .config
      t else t) else if v.enable then chainOff m t else t)))) ∧
  (∀ (p : SageFirLoadP), Admitted (cmd 0x0A03 .control false (4 + 4 * ((p.len.toNat + 1) / 2))) h s → p.mp.toNat < 16 → p.rsv = 0 → p.bank.toNat < 2 →
    p.len.toNat = (getMp s p.mp.toNat).firLen → p.coeff.length = (p.len.toNat + 1) / 2 → p.coeff.all coefOk = true → isSealedMp s p.mp.toNat = false →
    (getMp s p.mp.toNat).state ≠ .fading → (getMp s p.mp.toNat).state = .off ∨ (getMp s p.mp.toNat).bankB ≠ decide (p.bank = 1) → 8 ∉ s.pop.failing → 
    ∃ m, m = p.mp.toNat ∧
    ∃ v, v = getMp s m ∧
    ∃ c, c = p.coeff.map (fun x => x.toInt) ∧
    exec (.sageFirLoad h p) s = .next (answer h 0x0A03 (done (storeConfig (setMp m (if p.bank = 1 then { v with coefB := c, lenB := p.len.toNat } else
      { v with coefA := c, lenA := p.len.toNat }) u))))) ∧
  (∀ (p : SageFirSwitchP), Admitted (cmd 0x0A04 .control false 4) h s → p.mp.toNat < 16 → p.rsv = 0 → p.bank.toNat < 2 → decide (p.bank = 1) ≠ (getMp s
    p.mp.toNat).bankB → ((if (getMp s p.mp.toNat).bankB then (getMp s p.mp.toNat).lenA else (getMp s p.mp.toNat).lenB) = (getMp s p.mp.toNat).firLen)
    → isSealedMp s p.mp.toNat = false → (getMp s p.mp.toNat).state = .running ∨ (getMp s p.mp.toNat).state = .settling → 8 ∉ s.pop.failing → 
    ∃ m, m = p.mp.toNat ∧
    ∃ v, v = getMp s m ∧
    ∃ t, t = raise 0x0A09 1 ([BitVec.ofNat 8 m, BitVec.ofNat 8 p.bank.toNat] ++ leBytes 8 v.next) none (bump (mpCnt m 0x88) u) ∧
    ∃ e, e = taiNs t + fadeF v * periodOf v ∧
    exec (.sageFirSwitch h p) s = .next (answer h 0x0A04 (done (storeConfig (modMp m (fun x => if v.state = .settling then
      { x with bankB := !x.bankB } else { x with state := .fading, fadePos := 0, fadeStart := e }) (if v.state = .settling then t else (inputsOf
      m).foldl (fun x n => unsettle n e .bankSwitch x) (beginSupp m v.next .bankSwitch false t))))))) ∧
  (∀ (p : SageDcP), Admitted (cmd 0x0A05 .control false 4) h s → p.mp.toNat < 16 → p.rsv = 0 → p.inputs.toNat < 64 → 
    exec (.sageDcFreeze h p) s = .next (answer h 0x0A05 (done ((roleInputs p.mp.toNat p.inputs.toNat).foldl (fun t n => freezeInput n t) u)))) ∧
  (∀ (p : SageDcP), Admitted (cmd 0x0A05 .control false 4) h s → p.mp.toNat < 16 → p.rsv = 0 → p.inputs.toNat < 64 → 
    exec (.sageDcRelease h p) s = .next (answer h 0x0A05 (done ((roleInputs p.mp.toNat p.inputs.toNat).foldl (fun t n => releaseInput p.mp.toNat n t)
      u)))) ∧
  (∀ (p : SageCalP), Admitted (cmd 0x0A06 .control false 16) h s → p.input.toNat < 96 → p.rsv = 0 → posFinite p.scale = true → ((if (getInput s
    p.input.toNat).table = [] then [(0, 0)] else (getInput s p.input.toNat).table).all (fun x => decide ((p.calDelay.toInt + x.2).natAbs ≤ 5120000)) =
    true) → isSealedMp s (p.input.toNat / 6) = false → 8 ∉ s.pop.failing → 
    ∃ n, n = p.input.toNat ∧
    exec (.sageCal h p) s = .next (answer h 0x0A06 (done (storeConfig (setInput n
      { getInput s n with scale := p.scale, calGain := p.calGain.toInt, calDelay := p.calDelay.toInt } u))))) ∧
  (∀ (p : SageTempTableP), Admitted (cmd 0x0A07 .control false 268) h s → p.input.toNat < 96 → p.rsv = 0 → p.points.length = 33 → p.points.all (fun x =>
    decide (((getInput s p.input.toNat).calDelay + x.2.toInt).natAbs ≤ 5120000)) = true → isSealedMp s (p.input.toNat / 6) = false → 9 ∉ s.pop.failing
    → 
    ∃ n, n = p.input.toNat ∧
    exec (.sageTempTable h p) s = .next (answer h 0x0A07 (done (storeTables (setInput n
      { getInput s n with table := p.points.map (fun x => (x.1.toInt, x.2.toInt)) } u))))) ∧
  (∀ (p : SageTempSourceP), Admitted (cmd 0x0A08 .control false 12) h s → tempSourceOk p s = true → 8 ∉ s.pop.failing → (getInput s
    p.input.toNat).tempSrc ≠ p.tempSrc.toNat ∨ (getInput s p.input.toNat).tempId ≠ p.tempId.toNat ∨ (getInput s p.input.toNat).tempRead = false ∨
    p.tempSrc = 0 → 
    ∃ n, n = p.input.toNat ∧
    ∃ i, i = getInput s n ∧
    ∃ d, d = p.tempDefault.toInt ∧
    ∃ stale, stale = decide (p.tempSrc ≠ 0) ∧
    ∃ j, j = { i with tempSrc := p.tempSrc.toNat, tempId := p.tempId.toNat, staleS := p.staleS.toNat, tempDefault := d, tempRead := false, tempApplied
                        := d, tempTs := 0, tempOut := false, tempStale := stale } ∧
    exec (.sageTempSource h p) s = .next (answer h 0x0A08 (done (raiseIf (i.tempStale && !stale) 0x0A07 0 (BitVec.ofNat 8 n :: leInt 2 d) none
      (raiseIf (stale && !i.tempStale) 0x0A06 1 (BitVec.ofNat 8 n :: leBytes 8 0) none (storeConfig (setInput n j u))))))) ∧
  (∀ (p : SageTempSourceP), Admitted (cmd 0x0A08 .control false 12) h s → tempSourceOk p s = true → 8 ∉ s.pop.failing → (getInput s
    p.input.toNat).tempSrc = p.tempSrc.toNat → (getInput s p.input.toNat).tempId = p.tempId.toNat → (getInput s p.input.toNat).tempRead = true →
    p.tempSrc ≠ 0 → 
    ∃ n, n = p.input.toNat ∧
    ∃ i, i = getInput s n ∧
    ∃ stale, stale = decide (i.tempTs + p.staleS.toNat * 1000000000 < taiNs s) ∧
    exec (.sageTempSource h p) s = .next (answer h 0x0A08 (done (raiseIf (i.tempStale && !stale) 0x0A07 0 (BitVec.ofNat 8 n :: leInt 2 i.tempApplied)
      none (raiseIf (stale && !i.tempStale) 0x0A06 1 (BitVec.ofNat 8 n :: leBytes 8 i.tempTs) none (storeConfig (setInput n
      { i with staleS := p.staleS.toNat, tempDefault := p.tempDefault.toInt, tempStale := stale } u))))))) ∧
  (∀ (p : SageTempP), Admitted (cmd 0x0A09 .control false (4 + 4 * p.n.toNat)) h s → 1 ≤ p.n.toNat → p.n.toNat ≤ 96 → p.rsv = 0 → p.entries.length =
    p.n.toNat → p.entries.all (fun e => decide (e.input.toNat < 96 ∧ e.rsv = 0 ∧ (getInput s e.input.toNat).tempSrc = 1)) = true → 
    exec (.sageTemp h p) s = .next (answer h 0x0A09 (done (p.entries.foldl (fun t e => applyTemp e.input.toNat e.temp.toInt false (taiNs u) t) u)))) ∧
  (∀ (p : SagePmuP) (n b : Nat), Admitted (cmd 0x0A0A .openC false 12) h s → p.mp.toNat < 16 → p.rsv = 0 → p.window.toNat < 3 → p.level.toNat < 8 →
    p.handle = 0 → pmuRateOk p.rate.toNat = true → (getMp s p.mp.toNat).pmu = none → addRefusal h.part 10 s = none → allocChans s 10 = some b →
    tfreeFrom s.ing.streams 262144 0 = some n → stashUsed s < 256 → 
    ∃ v, v = { newStream ⟨4, BitVec.ofNat 16 p.mp.toNat, 0, 0, 0⟩ 0 p.level.toNat 10 b p.rate.toNat false h.part (elNs s) with state := .active, descs
                                                                                                                                 := estDescs 4 4 } ∧
    ∃ w, enterDir n v u = some w ∧
    exec (.sagePmuAdd h p) s = .next (answer h 0x0A0A (doneWith (leBytes 4 n ++ leBytes 4 b)
      (modMp p.mp.toNat (fun x => { x with pmu := some n, pmuWindow := p.window.toNat, pmuRate := p.rate.toNat, pmuNext := gridIndex p.rate.toNat
                                             (taiNs s) + 1 })
        (oscResetStream n (placeNew 0 n (syncGrid n w))))))) ∧
  (∀ (p : SagePmuP) (v : Stream), Admitted (cmdLong 0x0A0A .openC false 12) h s → p.mp = 0 → p.rsv = 0 → streamNameable h p.handle.toNat s = true → tany
    (fun _ m => decide (m.pmu = some p.handle.toNat)) s.sage.mps = true → getStream s p.handle.toNat = some v → v.state ≠ .retiring → streamNamed s
    p.handle.toNat v = false → 
    exec (.sagePmuRetire h p) s = .next (answer h 0x0A0A (⟨.accepted, [], beginRetire p.handle.toNat (some s.host.longNext) (startLong h 0x0A0A 5000
      u).2⟩))) ∧
  (∀ (p : SagePmuP), Admitted (cmd 0x0A0A .openC false 12) h s → p.mp = 0 → p.window.toNat < 3 → p.rsv = 0 → p.handle = 0 → 8 ∉ s.pop.failing → 
    exec (.sagePmuSvWindow h p) s = .next (answer h 0x0A0A (done (storeConfig { u with sage := { s.sage with svWindow := p.window.toNat } }))))

/-- Tier 1. R262 to R266, R271 to R275, R278 to R280, R149: output samples are delivered at their time, inputs are lost and return, DC acquisition,
  settling and fades end, temperatures grow stale, and local streams report. -/
def Obligations.SageEventsComplete : Prop :=
  ∀ (s : State),
  (∀ (b : SageBits), s.dev.boot = .ready → (getMp s b.mp.toNat).state ≠ .off → (getMp s b.mp.toNat).next + groupDelay s (getMp s b.mp.toNat) ≤ taiNs s →
    bitsOk s (getMp s b.mp.toNat) b.bits = true → 
    exec (.sageOutputSample b) s = .next (deliverRow b.mp.toNat b.bits s)) ∧
  (∀ (b : SageBits), s.dev.boot = .ready → (getMp s b.mp.toNat).state = .off → 
    exec (.sageOutputSample b) s = .next (offRow b.mp.toNat s)) ∧
  (∀ (input : BitVec 7), input.toNat < 96 → (getInput s input.toNat).lost = false → 
    ∃ n, n = input.toNat ∧
    ∃ back, back = 1024 * 1000000000 / fModHz s ∧
    ∃ ts, ts = taiNs s - back ∧
    ∃ t, t = raise 0x0A03 3 (BitVec.ofNat 8 n :: leBytes 8 ts) none (bump (inputCnt n 0x48) (setInput n
      { getInput s n with lost := true, lostTs := ts, lostEl := elNs s - back } s)) ∧
    exec (.inputLost input) s = .next (settleFrom (n / 6) (max (getMp t (n / 6)).next (periodUp (periodOf (getMp t (n / 6))) ts)) .input t)) ∧
  (∀ (input : BitVec 7), (getInput s input.toNat).lost = true → 
    ∃ n, n = input.toNat ∧
    exec (.inputRestored input) s = .next (raise 0x0A04 1 (BitVec.ofNat 8 n :: leBytes 4 ((elNs s - (getInput s n).lostEl) / 1000000)) none
      (restartInput (getMp s (n / 6)) .input n (setInput n { getInput s n with lost := false, backTs := taiNs s } s)))) ∧
  (∀ (input : BitVec 7), (getInput s input.toNat).dc = .acquire → acqP (getMp s (input.toNat / 6)) ≤ (getInput s input.toNat).acq.length → 
    ∃ n, n = input.toNat ∧
    ∃ i, i = getInput s n ∧
    ∃ st, st = (if i.freezeReq then DcState.frozen else DcState.track) ∧
    exec (.dcAcquireDone input) s = .next (raise 0x0A0A 0 [BitVec.ofNat 8 n, BitVec.ofNat 8 st.num] none (setInput n
      { i with dc := st, freezeReq := false, d := Config.hannMean i.acq, acq := [] } s))) ∧
  (∀ (mp : BitVec 4), (getMp s mp.toNat).state = .settling → (inputsOf mp.toNat).all (fun n => !inUnsettled s (getInput s n)) = true → 
    ∃ m, m = mp.toNat ∧
    exec (.settlingEnd mp) s = .next (endSupp m (latticeBefore (periodOf (getMp s m)) (lastUntil s m)) (mpState m .running (getMp s m).suppCause s))) ∧
  (∀ (mp : BitVec 4), (getMp s mp.toNat).state = .fading → fadeF (getMp s mp.toNat) ≤ (getMp s mp.toNat).fadePos → (getMp s mp.toNat).fadeStart ≤ taiNs
    s → 
    ∃ m, m = mp.toNat ∧
    ∃ v, v = getMp s m ∧
    ∃ t, t = mpState m .running .bankSwitch (setMp m { v with bankB := !v.bankB, fadePos := 0 } s) ∧
    exec (.fadeEnd mp) s = .next (if (inputsOf m).all (fun n => !inUnsettled s (getInput s n)) then endSupp m (latticeBefore (periodOf v) (lastUntil s
      m)) t else mpState m .settling .input t)) ∧
  (∀ (input : BitVec 7), (getInput s input.toNat).tempSrc ≠ 0 → (getInput s input.toNat).tempRead = true → (getInput s input.toNat).tempStale = false →
    (getInput s input.toNat).tempTs + (getInput s input.toNat).staleS * 1000000000 < taiNs s → 
    ∃ n, n = input.toNat ∧
    exec (.tempStaleExpiry input) s = .next (raise 0x0A06 1 (BitVec.ofNat 8 n :: leBytes 8 (getInput s n).tempTs) none (setInput n
      { getInput s n with tempStale := true } s))) ∧
  (∀ (mp : BitVec 4) (k : Nat) (d : Nat), (getMp s mp.toNat).pmu = some k → d = reportDone ⟨fwOf s (fNomHz (getMp s mp.toNat)), fNomHz (getMp s
    mp.toNat), winCycles (getMp s mp.toNat).pmuWindow⟩ (gridInstant (getMp s mp.toNat).pmuRate (getMp s mp.toNat).pmuNext) → d + groupDelay s (getMp s
    mp.toNat) ≤ taiNs s → (getMp s mp.toNat).state = .off ∨ d ≤ (getMp s mp.toNat).next → 
    let v := getMp s mp.toNat
    let c : EstCfg := ⟨fwOf s (fNomHz v), fNomHz v, winCycles v.pmuWindow⟩
    let t := gridInstant v.pmuRate v.pmuNext
    exec (.localPmuReport mp) s = .next (landLocal k t (estCells s c false (decide (s.clk.gaState ≠ .locked)) (qdiv (udin s mp.toNat) (qNat 10)) t
      (if v.state = .off then [] else v.hist.map (rowSmp s mp.toNat))) (setMp mp.toNat { v with pmuNext := v.pmuNext + 1 } s))) ∧
  (∀ (f : SvFrame) (s1 : State), readerHeld s f.port.toNat .c1 = false → s1 = readEntry f.port.toNat ⟨3, f.appid, BitVec.ofNat 128 (f.srcMac.toNat * 2 ^
    80), 0, 0⟩ f.ecc (popIn f.port.toNat .c1 s) → findStream s1 f.port.toNat ⟨3, f.appid, BitVec.ofNat 128 (f.srcMac.toNat * 2 ^ 80), 0, 0⟩ = none → 
    exec (.svFrame f) s = .next (bumpIf (!f.poisoned) 0x05000100 s1)) ∧
  (∀ (f : SvFrame) (s1 : State) (n : Nat) (v : Stream), readerHeld s f.port.toNat .c1 = false → s1 = readEntry f.port.toNat ⟨3, f.appid, BitVec.ofNat
    128 (f.srcMac.toNat * 2 ^ 80), 0, 0⟩ f.ecc (popIn f.port.toNat .c1 s) → findStream s1 f.port.toNat ⟨3, f.appid, BitVec.ofNat 128 (f.srcMac.toNat *
    2 ^ 80), 0, 0⟩ = some (n, v) → (f.poisoned = true ∨ f.samples.length ≠ (if f.rate256 then 8 else 1)) → 
    exec (.svFrame f) s = .next s1) ∧
  (∀ (f : SvFrame) (s1 : State) (n : Nat) (v : Stream), readerHeld s f.port.toNat .c1 = false → s1 = readEntry f.port.toNat ⟨3, f.appid, BitVec.ofNat
    128 (f.srcMac.toNat * 2 ^ 80), 0, 0⟩ f.ecc (popIn f.port.toNat .c1 s) → findStream s1 f.port.toNat ⟨3, f.appid, BitVec.ofNat 128 (f.srcMac.toNat *
    2 ^ 80), 0, 0⟩ = some (n, v) → f.poisoned = false → (f.samples.length = (if f.rate256 then 8 else 1)) → v.state = .paused ∨ v.state = .retiring → 
    exec (.svFrame f) s = .next (setStream n { v with frames := sat1 v.frames } s1)) ∧
  (∀ (f : SvFrame) (s1 : State) (n : Nat) (v : Stream), readerHeld s f.port.toNat .c1 = false → s1 = readEntry f.port.toNat ⟨3, f.appid, BitVec.ofNat
    128 (f.srcMac.toNat * 2 ^ 80), 0, 0⟩ f.ecc (popIn f.port.toNat .c1 s) → findStream s1 f.port.toNat ⟨3, f.appid, BitVec.ofNat 128 (f.srcMac.toNat *
    2 ^ 80), 0, 0⟩ = some (n, v) → f.poisoned = false → (f.samples.length = (if f.rate256 then 8 else 1)) → v.state ≠ .paused → v.state ≠ .retiring → 
    let fNom := if s.clk.gaFNom60 then 60 else 50
    let rate := (if f.rate256 then 256 else 80) * fNom
    let now := rxNs s f.port.toNat .c1
    let w := (svStart n v s1).1
    let s2 := (svStart n v s1).2
    let sv := getSv s2 n
    let first := gridIndex w.svRate now + 1
    let l := sv.smps ++ svSamples f now rate
    let x : SvState := { smps := l.drop (l.length - 8192), nextCnt := some ((f.smpCnt.toNat + f.samples.length) % rate), rate256 := f.rate256
                         next := if sv.next = 0 ∨ sv.next + 2 * w.svRate < first ∨ first + w.svRate < sv.next then first else sv.next }
    let gap := match sv.nextCnt with | some k => decide (k ≠ f.smpCnt.toNat) | none => false
    let t := bumpIf gap 0x05000158 { s2 with sage := { s2.sage with sv := tset s2.sage.sv n x } }
    exec (.svFrame f) s = .next (svReports n w.svRate ⟨fwOf s fNom, fNom, winCycles s.sage.svWindow⟩ (decide (s.clk.gaState ≠ .locked)) 64 t))

/-- Tier 1. R285, R290, R293 to R295, R297, R302, R306, R308: the settings of energy and quality, the registers, the pulse outputs, the seal and the gap
  log take their commands on operands within Table 11.11. -/
def Obligations.EnergyCommandsComplete : Prop :=
  ∀ (h : Hdr) (s : State), let u := countCmd h s
  (∀ (p : EqMpConfigP), Admitted (cmd 0x0B01 .control false 16) h s → eqMpOk p = true → isSealedMp s p.mp.toNat = false → 8 ∉ s.pop.failing → 
    exec (.eqMpConfig h p) s = .next (answer h 0x0B01 (done (storeConfig (setEq p.mp.toNat
      { getEq s p.mp.toNat with threeWire := decide (p.wiring = 1), reverse := decide (p.reverse = 1), udinDv := p.udinDv.toNat, sagThr :=
                                  p.sagThr.toNat, swellThr := p.swellThr.toNat, intThr := p.intThr.toNat, hyst := p.hyst.toNat } u))))) ∧
  (∀ (p : EqRegConfigP), Admitted (cmd 0x0B02 .control false 8) h s → p.reg.toNat < 64 → p.mp.toNat < 16 → 6 ≤ p.digits.toNat → p.digits.toNat ≤ 10 →
    p.resCode.toNat ≤ 9 → p.enable.toNat < 2 → p.rsv = 0 → 9 ≤ p.digits.toNat + p.resCode.toNat → quantityOk p.quantity = true → isSealedMp s (getBReg
    s p.reg.toNat).mp = false → isSealedMp s p.mp.toNat = false → 8 ∉ s.pop.failing → 
    ∃ b, b = p.reg.toNat ∧
    ∃ v, v = setBReg b { mp := p.mp.toNat, quantity := p.quantity.toNat, digits := p.digits.toNat, resCode := p.resCode.toNat, enable := decide
                           (p.enable = 1), value := 0, residual := 0, rollovers := 0, cfgEl := elNs s, gap := (getEq s p.mp.toNat).gap } u ∧
    exec (.eqRegConfig h p) s = .next (answer h 0x0B02 (done (raise 0x0B0D 1 [0, BitVec.ofNat 8 b, BitVec.ofNat 8 h.part.val] none (storeConfig
      { v with eq := { v.eq with satsum := s.eq.satsum &&& ~~~(1#64 <<< b) } }))))) ∧
  (∀ (p : PulseConfigP), Admitted (cmd 0x0B03 .stage true 12) h s → p.output.toNat < 32 → p.enable.toNat < 2 → p.mp.toNat < 16 → 2 ≤ p.widthMs.toNat →
    p.widthMs.toNat ≤ 200 → p.activeLow.toNat < 2 → p.rsv = 0 → 1 ≤ p.quantumMwh.toNat → quantityOk p.quantity = true → claimOk s h.part (getPulse s
    p.output.toNat).everEnabled (getPulse s p.output.toNat).claim = true → (getPulse s p.output.toNat).mp = p.mp.toNat → (getPulse s
    p.output.toNat).quantity = p.quantity.toNat → (getPulse s p.output.toNat).quantum = p.quantumMwh.toNat → 8 ∉ s.pop.failing → 
    ∃ v, v = getPulse s p.output.toNat ∧
    exec (.pulseConfig h p) s = .next (answer h 0x0B03 (done (storeConfig (setPulse p.output.toNat
      { v with enable := decide (p.enable = 1), activeLow := decide (p.activeLow = 1), mp := p.mp.toNat, quantity := p.quantity.toNat, widthMs :=
                 p.widthMs.toNat, quantum := p.quantumMwh.toNat, claim := if p.enable = 1 then (getPart s h.part).claim else v.claim, everEnabled :=
                 v.everEnabled || decide (p.enable = 1) } u))))) ∧
  (∀ (p : PulseConfigP), Admitted (cmd 0x0B03 .stage true 12) h s → p.output.toNat < 32 → p.enable.toNat < 2 → p.mp.toNat < 16 → 2 ≤ p.widthMs.toNat →
    p.widthMs.toNat ≤ 200 → p.activeLow.toNat < 2 → p.rsv = 0 → 1 ≤ p.quantumMwh.toNat → quantityOk p.quantity = true → claimOk s h.part (getPulse s
    p.output.toNat).everEnabled (getPulse s p.output.toNat).claim = true → isSealedMp s (getPulse s p.output.toNat).mp = false → isSealedMp s
    p.mp.toNat = false → (getPulse s p.output.toNat).mp ≠ p.mp.toNat ∨ (getPulse s p.output.toNat).quantity ≠ p.quantity.toNat ∨ (getPulse s
    p.output.toNat).quantum ≠ p.quantumMwh.toNat → 8 ∉ s.pop.failing → 
    ∃ k, k = p.output.toNat ∧
    ∃ v, v = getPulse s k ∧
    ∃ w, w = storeConfig (setPulse k { v with enable := decide (p.enable = 1), activeLow := decide (p.activeLow = 1), mp := p.mp.toNat, quantity :=
                                                p.quantity.toNat, widthMs := p.widthMs.toNat, quantum := p.quantumMwh.toNat, claim := if p.enable = 1
                                                then (getPart s h.part).claim else v.claim, everEnabled := v.everEnabled || decide (p.enable = 1),
                                                owed := 0, residual := 0 } u) ∧
    exec (.pulseConfig h p) s = .next (answer h 0x0B03 (done (raise 0x0B0D 1 [1, BitVec.ofNat 8 k, BitVec.ofNat 8 h.part.val] none
      { w with eq := { w.eq with satsumPls := w.eq.satsumPls &&& ~~~(1#32 <<< k) } })))) ∧
  (∀ (p : EqSaveConfigP), Admitted (cmd 0x0B04 .control false 4) h s → 1 ≤ p.saveS.toNat → p.saveS.toNat ≤ 300 → p.rsv = 0 → 8 ∉ s.pop.failing → 
    exec (.eqSaveConfig h p) s = .next (answer h 0x0B04 (done (storeConfig { u with eq := { s.eq with saveS := p.saveS.toNat } })))) ∧
  (∀ (p : EqSealP), Admitted (cmdLong 0x0B05 .control false 4) h s → p.rsv = 0 → s.pop.otpSeal.length < 4 → s.eq.sealReq = none → (List.range 16).all
    (fun m => !p.mask.getLsbD m || decide ((getMp s m).state = .running)) = true → 
    ∃ v, v = (startLong h 0x0B05 2000 u).2 ∧
    exec (.eqSeal h p) s = .next (answer h 0x0B05 (⟨.accepted, [], { v with eq := { s.eq with sealReq := some (p.mask, s.host.longNext) } }⟩))) ∧
  (∀ (p : EqGapAckP) (g : GapEntry), Admitted (cmd 0x0B06 .control false 4) h s → gapEntry s p.seq = some g → g.acked = false → tany (fun k e => decide
    (e.mp = g.mp ∧ k ≠ p.seq.toNat) && !e.acked) s.eq.glog = false → Tbl.wf s.eq.glog = true → 
    ∃ v, v = raise 0x0B08 1 (BitVec.ofNat 8 g.mp :: leBytes 4 p.seq.toNat ++ [BitVec.ofNat 8 h.part.val]) none
      { u with eq := { s.eq with glog := tset s.eq.glog p.seq.toNat { g with acked := true, ackTs := taiNs s, ackPart := h.part.val } } } ∧
    ∃ w, w = modEq g.mp (fun x => { x with gap := false }) v ∧
    exec (.eqGapAck h p) s = .next (answer h 0x0B06 (done { w with eq :=
                                                                     { w.eq with regs := tmap (fun _ r => if r.mp = g.mp then { r with gap := false }
                                                                                   else r) w.eq.regs } }))) ∧
  (∀ (p : EqGapAckP) (g : GapEntry), Admitted (cmd 0x0B06 .control false 4) h s → gapEntry s p.seq = some g → g.acked = false → tany (fun k e => decide
    (e.mp = g.mp ∧ k ≠ p.seq.toNat) && !e.acked) s.eq.glog = true → Tbl.wf s.eq.glog = true → 
    exec (.eqGapAck h p) s = .next (answer h 0x0B06 (done (raise 0x0B08 1 (BitVec.ofNat 8 g.mp :: leBytes 4 p.seq.toNat ++ [BitVec.ofNat 8
      h.part.val]) none { u with eq := { s.eq with glog := tset s.eq.glog p.seq.toNat
                                                     { g with acked := true, ackTs := taiNs s, ackPart := h.part.val } } }))))

/-- Tier 1. R287, R294, R298, R299, R302: the seal takes effect, cycles close, pulses start and end, saves are written and verified, and half-cycles are
  judged. -/
def Obligations.EnergyEventsComplete : Prop :=
  ∀ (s : State),
  (∀ (mask : U16) (id : Nat) (l : LongCmd), s.eq.sealReq = some (mask, id) → tget s.host.long id = some l → 
    let x := fresh s
    let t := writeGen x.2.pop.otpSeal (leBytes 2 mask.toNat ++ [0, 0] ++ leBytes 96 (Config.sealDigests x.1) ++ List.replicate 24 0)
    let a : State := { x.2 with pop := { x.2.pop with otpSeal := t }
                                eq := { x.2.eq with sealed := mask, sealGen := t.length, sealReq := none
                                                    mps := tmap (fun _ v => { v with sealBroken := false }) x.2.eq.mps } }
    exec .eqSealDone s = .next (completeLong id .ok [BitVec.ofNat 8 t.length] (raise 0x0B09 2 (leBytes 2 s.eq.sealed.toNat ++ leBytes 2 mask.toNat ++
      [BitVec.ofNat 8 t.length]) none (otpEvents 1 t.length l.part t.length (refreshOtp a))))) ∧
  (∀ (mp : BitVec 4) (a b : GaMark), evenFrom s (getEq s mp.toNat).cycIdx = some a → markOf s (a.idx + 2) = some b → (getMp s mp.toNat).state = .off ∨
    b.el + taiNs s ≤ elNs s + (getMp s mp.toNat).next → 
    exec (.accumulationCycleEnd mp) s = .next (closeCycle mp.toNat a b s)) ∧
  (∀ (output : BitVec 5), (getPulse s output.toNat).enable = true → (getPulse s output.toNat).activeUntil = none → (getPulse s
    output.toNat).idleUntil.getD 0 ≤ elNs s → (getPulse s output.toNat).owed ≠ 0 → (getPulse s output.toNat).overEl = none ∨ (getPulse s
    output.toNat).owed ≠ 1 → 
    ∃ k, k = output.toNat ∧
    ∃ p, p = getPulse s k ∧
    ∃ w, w = (if p.pNs < 2 * (p.widthMs * 1000000) ∧ p.tPrev.isSome then max (p.pNs / 2) 1000000 else p.widthMs * 1000000) ∧
    exec (.pulseStart output) s = .next (bump (pulseCnt k 0x20) (setPulse k
      { p with owed := p.owed - 1, wUs := w / 1000, activeUntil := some (elNs s + w), idleUntil := some (elNs s + 2 * w) } s))) ∧
  (∀ (output : BitVec 5) (o : Nat), (getPulse s output.toNat).enable = true → (getPulse s output.toNat).activeUntil = none → (getPulse s
    output.toNat).idleUntil.getD 0 ≤ elNs s → (getPulse s output.toNat).owed = 1 → (getPulse s output.toNat).overEl = some o → 
    ∃ k, k = output.toNat ∧
    ∃ p, p = getPulse s k ∧
    ∃ w, w = (if p.pNs < 2 * (p.widthMs * 1000000) ∧ p.tPrev.isSome then max (p.pNs / 2) 1000000 else p.widthMs * 1000000) ∧
    ∃ v, v = bump (pulseCnt k 0x20) (setPulse k { p with owed := 0, wUs := w / 1000, activeUntil := some (elNs s + w), idleUntil := some (elNs s + 2 *
                                                           w) } s) ∧
    exec (.pulseStart output) s = .next (raise 0x0B03 0 (BitVec.ofNat 8 k :: leBytes 4 ((elNs s - o) / 1000000)) none (setPulse k
      { getPulse v k with overEl := none } v))) ∧
  (∀ (output : BitVec 5) (e : Nat), (getPulse s output.toNat).activeUntil = some e → e ≤ elNs s → 
    exec (.pulseEnd output) s = .next (setPulse output.toNat { getPulse s output.toNat with activeUntil := none } s)) ∧
  (∀ (g : GaMark), s.dev.boot = .ready → s.eq.saving = none → s.eq.flushing = false → lastEven s = some g → s.eq.lastSaveEl + s.eq.saveS * 1000000000 ≤
    g.el ∨ s.eq.saveSoon = true → 
    exec .energySave s = .next (writeSave g.ts s)) ∧
  (s.eq.saving.isSome = true → 
    exec (.energySaveVerified true) s = .next (verifySave s)) ∧
  (∀ (b : Bool), s.eq.saving = some b → 
    exec (.energySaveVerified false) s = .next (raise 0x0B0B 2 ((if b then 1 else 0) :: leBytes 4 s.eq.saveSeq.toNat) none (bump 0x0B000108
      { s with eq := { s.eq with saving := none } }))) ∧
  (∀ (mp : BitVec 4) (a b : GaMark), s.clk.gaMarks.reverse.find? (fun x => decide ((getEq s mp.toNat).halfIdx ≤ x.idx)) = some a → markOf s (a.idx + 1)
    = some b → (getMp s mp.toNat).state = .off ∨ (List.range 3).all (fun k => tapPast s mp.toNat k b.el) = true → 
    let m := mp.toNat
    let from_ := if a.idx = 0 then a.el else (markOf s (a.idx - 1)).elim a.el (fun z => z.el)
    let vals := (List.range 3).filterMap (fun k => (halfValue s m k from_ b.el).map (fun x => (k, x)))
    exec (.halfCycleInterval mp) s = .next (inTurn (fun x => [QKind.sag, QKind.swell, QKind.interruption].foldl (qJudge m a.ts (b.el - a.el) b.nominal
      vals)
      (setEq m { getEq x m with halfIdx := b.idx } x)) s))

/-- Tier 1. R310, R314, R318, R319, R322, R325, R328, R330, R333, R335, R338 to R342, Table 12.8: highways, channels, keys, tones and announcements take
  their commands on operands within Table 12.16. -/
def Obligations.VoiceCommandsComplete : Prop :=
  ∀ (h : Hdr) (s : State), let u := countCmd h s
  (∀ (p : VoiceTdmConfigP), Admitted (cmd 0x0C01 .control false 4) h s → p.highway.toNat < 8 → p.enable.toNat < 2 → p.drive.toNat < 2 → p.idleLaw.toNat
    < 2 → p.enable = 1 ∨ s.voc.hwEn.getLsbD p.highway.toNat = false ∨ s.voc.chans.any (fun e => decide (e.2.cfg.lineKind = 1 ∧ e.2.state ≠ .closing ∧
    e.2.cfg.highway.toNat = p.highway.toNat)) = false → 
    let n := p.highway.toNat
    let put := fun (b : BitVec 8) (x : U8) => if x = 1 then b ||| (1#8 <<< n) else b &&& ~~~(1#8 <<< n)
    let hw := if p.enable = 1 ∧ s.voc.hwEn.getLsbD n = false then
                { getHw s n with fsStartTs := taiNs s + firstFrame s, fsOffset := if s.voc.chans = [] then 0 else fsOffsetOf (some (elNs s +
                                   firstFrame s)) s.voc.originEl }
              else if p.enable = 1 then getHw s n else { getHw s n with tx := [] }
    exec (.voiceTdmConfig h p) s = .next (answer h 0x0C01 (done { u with voc := { s.voc with
      hwEn := put s.voc.hwEn p.enable, drive := put s.voc.drive p.drive, idleLaw := put s.voc.idleLaw p.idleLaw
      highways := tset s.voc.highways n hw, clkEl := if put s.voc.hwEn p.enable = 0 then none else some (s.voc.clkEl.getD (elNs s + firstFrame s)) }
        }))) ∧
  (∀ (p : VoiceCfg) (n : Nat) (vs : List (Nat × VCh)), Admitted (cmd 0x0C02 .openC true 56) h s → voiceCfgOk p = true → voiceRingsOk s h.part p = true →
    voicePortTaken s 1024 p = false → slotBusy s none p = false → tfreeFrom s.voc.chans 1024 0 = some n → victimsFor s h.part none (codecSlots p) p =
    some vs → 
    ∃ t, exec (.voiceChOpen h p) s = .next (answer h 0x0C02 (doneWith (leBytes 2 n ++ [BitVec.ofNat 8 (codecSlots p), 0] ++
      leBytes 4 ((getCh t n).elim 0 (fun v => v.ssrcTx.toNat)) ++ victimBytes vs) t)) ∧
    (∀ v, getCh t n = some v → v.cfg = p ∧ v.part = h.part ∧ v.slots = codecSlots p ∧ v.state = (if p.start then .active else .idle)) ∧
    (getCh t n).isSome = true) ∧
  (∀ (p : VoiceModifyP) (v : VCh), Admitted (cmd 0x0C03 .openC false 60) h s → p.rsv = 0 → chNamed s h p.channel = true → getCh s p.channel.toNat = some
    v → v.state ≠ .closing → voiceCfgOk p.cfg = true → sameLegs v.cfg p.cfg = true → voicePortTaken s p.channel.toNat p.cfg = false → codecSlots p.cfg
    ≤ v.slots → 
    ∃ n, n = p.channel.toNat ∧
    exec (.voiceChModify h p) s = .next (answer h 0x0C03 (doneWith (victimBytes []) (ecModify n v p.cfg (modCh n (fun x => recfg u x p.cfg) u))))) ∧
  (∀ (p : VoiceModifyP) (v : VCh) (l : List (Nat × VCh)), Admitted (cmd 0x0C03 .openC false 60) h s → p.rsv = 0 → chNamed s h p.channel = true → getCh s
    p.channel.toNat = some v → v.state ≠ .closing → voiceCfgOk p.cfg = true → sameLegs v.cfg p.cfg = true → voicePortTaken s p.channel.toNat p.cfg =
    false → v.slots < codecSlots p.cfg → victimsFor s v.part (some p.channel.toNat) (codecSlots p.cfg - v.slots) p.cfg = some l → 
    ∃ n, n = p.channel.toNat ∧
    ∃ w, w = preempt n p.cfg.priority l u ∧
    exec (.voiceChModify h p) s = .next (answer h 0x0C03 (doneWith (victimBytes l) (ecModify n v p.cfg (modCh n (fun x => recfg w x p.cfg) w))))) ∧
  (∀ (p : VoiceChP) (v : VCh), Admitted (cmd 0x0C04 .openC true 4) h s → p.rsv = 0 → chNamed s h p.channel = true → getCh s p.channel.toNat = some v →
    v.state = .idle → 
    ∃ n, n = p.channel.toNat ∧
    exec (.voiceChStart h p) s = .next (answer h 0x0C04 (done (chState n 1 2 0 (setCh n
      { v with state := .active, jb := [], map := none, depths := [], marker := true, transits := [], q := 0, firstPktEl := none, played := [],
                 lastSeq := none, gather := [], lastRxEl := elNs s, mediaLost := false } u))))) ∧
  (∀ (p : VoiceChP) (v : VCh), Admitted (cmd 0x0C04 .openC true 4) h s → p.rsv = 0 → chNamed s h p.channel = true → getCh s p.channel.toNat = some v →
    v.state = .active → 
    ∃ n, n = p.channel.toNat ∧
    exec (.voiceChStop h p) s = .next (answer h 0x0C04 (done (chState n 2 1 0 (modCh n (fun x =>
      { jbFlush x with state := .idle, play := none, gen := none, telTx := none, telRx := none, tones := [], dtmfOn := false, muteUntilEl := none,
                         lineIn := [], lineOut := [], gather := [] }) (skipQueue n 0 u)))))) ∧
  (∀ (p : VoiceChP) (v : VCh), Admitted (cmd 0x0C04 .openC true 4) h s → p.rsv = 0 → chNamed s h p.channel = true → getCh s p.channel.toNat = some v →
    v.state ≠ .closing → 
    exec (.ecReset h p) s = .next (answer h 0x0C04 (done (modCh p.channel.toNat (fun x => { x with ecZero := true }) u)))) ∧
  (∀ (p : VoiceChP) (v : VCh), Admitted (cmd 0x0C04 .openC true 4) h s → p.rsv = 0 → chNamed s h p.channel = true → getCh s p.channel.toNat = some v →
    v.state ≠ .closing → 
    exec (.ecFreeze h p) s = .next (answer h 0x0C04 (done (modCh p.channel.toNat (fun x => { x with ecFrozen := true }) u)))) ∧
  (∀ (p : VoiceChP) (v : VCh), Admitted (cmd 0x0C04 .openC true 4) h s → p.rsv = 0 → chNamed s h p.channel = true → getCh s p.channel.toNat = some v →
    v.state ≠ .closing → 
    exec (.ecUnfreeze h p) s = .next (answer h 0x0C04 (done (modCh p.channel.toNat (fun x => { x with ecFrozen := false }) u)))) ∧
  (∀ (p : VoiceChP) (v : VCh), Admitted (cmd 0x0C04 .openC true 4) h s → p.rsv = 0 → chNamed s h p.channel = true → getCh s p.channel.toNat = some v →
    v.state ≠ .closing → 
    exec (.jitterResync h p) s = .next (answer h 0x0C04 (done (resyncEvt p.channel.toNat (modCh p.channel.toNat (fun x => (jbFlush x).count 9 1)
      u))))) ∧
  (∀ (p : VoiceChP) (v : VCh), Admitted (cmd 0x0C04 .openC true 4) h s → p.rsv = 0 → chNamed s h p.channel = true → getCh s p.channel.toNat = some v →
    v.state ≠ .closing → 
    ∃ n, n = p.channel.toNat ∧
    exec (.announcementStop h p) s = .next (answer h 0x0C04 (done (skipQueue n 4 (v.play.elim u (fun y => annSkip y.req.ann n 4 (modCh n (fun x =>
      { x with play := none }) u))))))) ∧
  (∀ (p : VoiceChP) (v : VCh), Admitted (cmd 0x0C05 .openC true 4) h s → p.rsv = 0 → chNamed s h p.channel = true → getCh s p.channel.toNat = some v →
    v.state ≠ .closing → 
    exec (.voiceChClose h p) s = .next (answer h 0x0C05 (done (closeCh p.channel.toNat 0 u)))) ∧
  (∀ (p : VoiceSrtpKeyP) (v : VCh), Admitted (cmd 0x0C06 .openC false 44) h s → p.rsv = 0 → chNamed s h p.channel = true → getCh s p.channel.toNat =
    some v → v.state ≠ .closing → p.dir = 0 → p.suite.toNat < 2 → p.fromIndex = 0 → 
    exec (.voiceSrtpKey h p) s = .next (answer h 0x0C06 (doneWith (leBytes 2 (v.keyGenTx + 1).toNat) (setCh p.channel.toNat
      { v with keyTx := some ⟨p.suite.toNat, p.key, p.salt, 0⟩, keyGenTx := v.keyGenTx + 1 } u)))) ∧
  (∀ (p : VoiceSrtpKeyP) (v : VCh), Admitted (cmd 0x0C06 .openC false 44) h s → p.rsv = 0 → chNamed s h p.channel = true → getCh s p.channel.toNat =
    some v → v.state ≠ .closing → p.dir = 1 → p.suite.toNat < 2 → p.fromIndex.toNat < 2 ^ 48 → 
    exec (.voiceSrtpKey h p) s = .next (answer h 0x0C06 (doneWith (leBytes 2 (v.keyGenRx + 1).toNat) (setCh p.channel.toNat
      { v with keyRx := some ⟨p.suite.toNat, p.key, p.salt, p.fromIndex.toNat⟩, keyRxPrev := v.keyRx, keyGenRx := v.keyGenRx + 1 } u)))) ∧
  (∀ (p : VoiceToneProfileP), Admitted (cmd 0x0C07 .control false 12) h s → p.profile.toNat < 8 → 10 ≤ p.minLevel.toNat → p.minLevel.toNat ≤ 50 → 200 ≤
    p.f1Hz.toNat → p.f1Hz.toNat ≤ 3400 → p.f2Hz = 0 ∨ (200 ≤ p.f2Hz.toNat ∧ p.f2Hz.toNat ≤ 3400) → 50 ≤ p.onMs.toNat → p.onMs.toNat ≤ 5000 → p.offMs =
    0 ∨ (50 ≤ p.offMs.toNat ∧ p.offMs.toNat ≤ 5000) → 1 ≤ p.cycles.toNat → p.cycles.toNat ≤ 8 → p.rsv = 0 → 
    exec (.voiceToneProfile h p) s = .next (answer h 0x0C07 (done
      { u with voc := { s.voc with profiles := tset s.voc.profiles p.profile.toNat
                                     { minLevel := p.minLevel.toNat, f1Hz := p.f1Hz.toNat, f2Hz := p.f2Hz.toNat, onMs := p.onMs.toNat, offMs :=
                                         p.offMs.toNat, cycles := p.cycles.toNat } } }))) ∧
  (∀ (p : RingBindP), Admitted (cmd 0x0C08 .openC false 4) h s → p.rsv = 0 → p.ring ≠ 0xFF → ringFree s h.part p.ring.toNat false = true →
    s.voc.toneRing.get h.part = none → 
    exec (.voiceToneBind h p) s = .next (answer h 0x0C08 (done (bindRing h.part p.ring.toNat .tone
      { u with voc := { s.voc with toneRing := s.voc.toneRing.set h.part (some p.ring.toNat) } })))) ∧
  (∀ (p : RingBindP) (r : Nat), Admitted (cmd 0x0C08 .openC false 4) h s → p.rsv = 0 → p.ring = 0xFF → s.voc.toneRing.get h.part = some r → 
    exec (.voiceToneBind h p) s = .next (answer h 0x0C08 (done (unbindRing h.part r .tone
      { u with voc := { s.voc with toneRing := s.voc.toneRing.set h.part none } })))) ∧
  (∀ (p : VoiceToneGenP) (v : VCh), Admitted (cmd 0x0C09 .openC true (12 + p.digits.length)) h s → p.rsv = 0 → p.dir.toNat < 2 → p.level.toNat ≤ 30 → 40
    ≤ p.onMs.toNat → p.onMs.toNat ≤ 1000 → 40 ≤ p.offMs.toNat → p.offMs.toNat ≤ 1000 → p.n.toNat = p.digits.length → (p.kind = 0 ∧ 1 ≤ p.n.toNat ∧
    p.n.toNat ≤ 32 ∧ p.profile = 0 ∧ p.digits.all dtmfChar = true) ∨ (p.kind = 1 ∧ p.n = 0 ∧ p.profile.toNat < 8) → chNamed s h p.channel = true →
    getCh s p.channel.toNat = some v → v.state = .active → 
    exec (.voiceToneGen h p) s = .next (answer h 0x0C09 (done (setCh p.channel.toNat
      { v with gen := some { packet := decide (p.dir = 1), digits := p.digits, level := p.level.toNat, profile := if p.kind = 1 then some
                               p.profile.toNat else none, onMs := p.onMs.toNat, offMs := p.offMs.toNat, pos := 0 } } u)))) ∧
  (∀ (p : VoiceAnnLoadP), Admitted (cmdLong 0x0C0A .control false 12) h s → p.ann.toNat < 64 → p.law.toNat < 2 → p.rsv = 0 → p.rsv2 = 0 → 800 ≤
    p.bytes.toNat → p.bytes.toNat ≤ 480000 → ringFree s h.part p.ring.toNat true = true → (tget s.voc.anns p.ann.toNat).all (fun x => decide
    (x.loading = none)) = true → annInUse s p.ann.toNat = false → annBytes s - (tget s.voc.anns p.ann.toNat).elim 0 (·.bytes) + p.bytes.toNat ≤
    16777216 → 
    ∃ v, v = (startLong h 0x0C0A 10000 u).2 ∧
    exec (.voiceAnnLoad h p) s = .next (answer h 0x0C0A (⟨.accepted, [], bindRing h.part p.ring.toNat .announcement
      { v with voc := { s.voc with anns := tset s.voc.anns p.ann.toNat
                                     { ready := false, ulaw := decide (p.law = 1), bytes := p.bytes.toNat, loadedTs := 0, plays := 0, data := [],
                                         loading := some (s.host.longNext, h.part, p.ring.toNat) } } }⟩))) ∧
  (∀ (p : VoiceAnnMapP), Admitted (cmd 0x0C0B .control false (16 + 2 * p.channels.length)) h s → annMapOk p = true → 
    exec (.voiceAnnMapSet h p) s = .next (answer h 0x0C0B (done { u with voc := { s.voc with annMap := tset s.voc.annMap p.entry.toNat p } }))) ∧
  (∀ (p : VoiceAnnMapP), Admitted (cmd 0x0C0B .control false (16 + 2 * p.channels.length)) h s → annMapOk p = true → 
    exec (.voiceAnnMapRemove h p) s = .next (answer h 0x0C0B (done { u with voc := { s.voc with annMap := tdel s.voc.annMap p.entry.toNat } }))) ∧
  (∀ (p : VoiceAnnPlayP), Admitted (cmd 0x0C0C .openC true (8 + 2 * p.channels.length)) h s → p.ann.toNat < 64 → p.dir.toNat < 3 → p.priority.toNat < 8
    → 1 ≤ p.repeat_.toNat → p.repeat_.toNat ≤ 15 → 1 ≤ p.nCh.toNat → p.nCh.toNat ≤ 64 → p.channels.length = p.nCh.toNat → p.rsv = 0 → p.channels.all
    (fun c => decide (c.toNat < 1024) && (getCh s c.toNat).all (fun v => mayName s h.part v.part)) = true → 
    ∃ w, w = fresh u ∧
    exec (.voiceAnnPlay h p) s = .next (answer h 0x0C0C (done (p.channels.foldl (fun t c => annRequest c.toNat
      { ann := p.ann.toNat, dir := p.dir.toNat, priority := p.priority.toNat, repeats := p.repeat_.toNat, alarm := w.1 % 65536, reqEl := elNs s } t)
      w.2))))

/-- Tier 1. R312, R313, R319 to R321, R324, R332, R340: highway frames, lattice blocks, RTP and RTCP datagrams, timeouts and host blocks have their
  effect. Signals that the spec does not give by value are free values (log entry 25). -/
def Obligations.VoiceEventsComplete : Prop :=
  ∀ (s : State),
  (∀ (f : List TdmIn), 
    exec (.tdmFrame f) s = .next (f.foldl (fun t x => tdmOne x t) s)) ∧
  (∀ (chans : List ToneEv) (obs : List VoiceObs) (start : Nat), s.voc.chans ≠ [] → start = blockStartEl s → start ≤ elNs s → 
    let a := chans.foldl (fun t e => toneStep start (taiNs s - (elNs s - start)) e t) (freeClosing s)
    let b := obs.foldl (fun t o => (getCh t o.channel.toNat).elim t (fun v =>
      if o.quiet250 ∧ v.state = .active ∧ ecOn v ∧ (v.ecState = .nlpOff ∨ v.ecState = .disabled) then
        chEvt 0x0C04 0 o.channel.toNat [] (setCh o.channel.toNat { v with ecState := .enabled } t) else t)) a
    let c := b.voc.chans.foldl (fun t e => if e.2.state = .active then
      chanBlock e.1 start (taiNs s - (elNs s - start)) (obs.any (fun o => decide (o.channel.toNat = e.1) && o.lowEnergy)) t
      else idleBlock e.1 e.2 (taiNs s - (elNs s - start)) t) b
    exec (.voiceBlock ⟨chans, obs⟩) s = .next { c with voc := { c.voc with block := c.voc.block + 1 } }) ∧
  (∀ (a : BitVec 6) (data : Bytes) (x : Ann) (id n : Nat) (p : HP), tget s.voc.anns a.toNat = some x → x.loading = some (id, p, n) → x.bytes ≤
    data.length → hostReads s p = true → 
    exec (.voiceAnnLoaded a data) s = .next (completeLong id .ok [] (raise 0x0C0C 0 (BitVec.ofNat 8 a.toNat :: leBytes 4 x.bytes) none (unbindRing p n
      .announcement { s with voc := { s.voc with anns := tset s.voc.anns a.toNat
                                                   { x with ready := true, loading := none, data := data.take x.bytes, loadedTs := taiNs s } } })))) ∧
  (∀ (p : RtpPacket), readerHeld s p.port.toNat .c1 = false → rtpChan (popIn p.port.toNat .c1 s) p.port p.dstPort.toNat = none → 
    exec (.rtpPacketRx p) s = .next (popIn p.port.toNat .c1 s)) ∧
  (∀ (p : RtpPacket) (c : Nat) (v : VCh), readerHeld s p.port.toNat .c1 = false → rtpChan (popIn p.port.toNat .c1 s) p.port p.dstPort.toNat = some (c,
    v) → v.state ≠ .active → 
    exec (.rtpPacketRx p) s = .next (setCh c (v.count 0 1) (popIn p.port.toNat .c1 s))) ∧
  (∀ (p : RtpPacket) (c : Nat) (v : VCh), readerHeld s p.port.toNat .c1 = false → rtpChan (popIn p.port.toNat .c1 s) p.port p.dstPort.toNat = some (c,
    v) → v.state = .active → p.version ≠ 2 → 
    exec (.rtpPacketRx p) s = .next (setCh c ((v.count 0 1).count 5 1) (popIn p.port.toNat .c1 s))) ∧
  (∀ (p : RtpPacket) (c : Nat) (v : VCh), readerHeld s p.port.toNat .c1 = false → rtpChan (popIn p.port.toNat .c1 s) p.port p.dstPort.toNat = some (c,
    v) → v.state = .active → p.version = 2 → v.cfg.latch = false ∨ v.latched = true → v.cfg.remoteAddr ≠ p.srcAddr ∨ v.cfg.remotePort ≠ p.srcPort → 
    exec (.rtpPacketRx p) s = .next (setCh c ((v.count 0 1).count 7 1) (popIn p.port.toNat .c1 s))) ∧
  (∀ (p : RtpPacket) (c : Nat) (v : VCh), readerHeld s p.port.toNat .c1 = false → rtpChan (popIn p.port.toNat .c1 s) p.port p.dstPort.toNat = some (c,
    v) → v.state = .active → p.version = 2 → (v.cfg.latch = true ∧ v.latched = false) ∨ (v.cfg.remoteAddr = p.srcAddr ∧ v.cfg.remotePort = p.srcPort)
    → v.cfg.srtp = false → v.ssrcRx = none ∨ v.ssrcRx = some p.ssrc → p.pt.toNat = codecPt v.cfg.codec.toNat v.cfg.pt → p.seq ∉ v.played → v.jb.any
    (fun x => decide (x.seq = p.seq)) = false → 
    exec (.rtpPacketRx p) s = .next (acceptRtp c (rxNs s p.port.toNat .c1) (rxEl s p.port.toNat .c1) p (srtpIndex v.rocRx v.hiSeqRx p.seq) false
      (v.count 0 1) (popIn p.port.toNat .c1 s))) ∧
  (∀ (c : U16) (v : VCh) (e : TelEvent), getCh s c.toNat = some v → v.telRx = some e → e.ends = 0 → e.event ≤ 15 → e.lastEl + 250000000 ≤ elNs s → 
    exec (.dtmfEventTimeout c) s = .next (endRxEvent c.toNat e e.dur s)) ∧
  (∀ (c : U16) (v : VCh), getCh s c.toNat = some v → v.state = .active → v.cfg.pktKind = 1 → v.cfg.rtcp = true → v.nextRtcpEl ≤ elNs s → 
    let w := fresh s
    let a := setCh c.toNat { v with nextRtcpEl := elNs s + 2500000000 + w.1 % 5000000001 } w.2
    exec (.rtcpTx c) s = .next (if v.canSend = false then a
      else sendVoice true (.rtcp c.toNat) v (Config.rtcp v.ssrcTx false w.1) a)) ∧
  (∀ (r : RtcpReport) (c : Nat) (v : VCh), readerHeld s r.port.toNat .c3 = false → r.dstPort ≠ 0 → rtpChan (popIn r.port.toNat .c3 s) r.port
    (r.dstPort.toNat - 1) = some (c, v) → v.state = .active → v.cfg.rtcp = true → v.cfg.remoteSet = true → r.srcAddr = v.cfg.remoteAddr →
    r.srcPort.toNat = v.cfg.remotePort.toNat + 1 → r.ssrc = v.ssrcTx → v.cfg.srtp = false ∨ r.authOk = true → 
    exec (.rtcpRx r) s = .next (setCh c { v with rrFraction := r.fractionLost } (popIn r.port.toNat .c3 s))) ∧
  (∀ (c : U16) (v : VCh), getCh s c.toNat = some v → v.state = .active → v.cfg.pktKind = 1 → v.cfg.mediaTimeoutMs ≠ 0 → v.mediaLost = false → v.lastRxEl
    + v.cfg.mediaTimeoutMs.toNat * 1000000 ≤ elNs s → 
    exec (.voiceMediaTimeout c) s = .next (chEvt 0x0C08 2 c.toNat (leBytes 8 v.lastRxTs) (setCh c.toNat { v with mediaLost := true } s))) ∧
  (∀ (b : HostVoice) (r : Ring) (v : VCh), getRing s b.part b.ring.toNat = some r → r.toDev = true → r.owned ≠ [] → r.use = .voice → hostReads s b.part
    = true → b.poison = 0 → getCh s b.channel.toNat = some v → v.part = b.part → v.state ≠ .closing → (b.leg = 0 ∧ v.cfg.lineKind = 2 ∧
    v.cfg.lineIn.toNat = b.ring.toNat) ∨ (b.leg = 1 ∧ v.cfg.pktKind = 2 ∧ v.cfg.pktIn.toNat = b.ring.toNat) → b.samples.toNat = blockSamples v.cfg →
    b.pcm.length = b.samples.toNat → 
    let f := if b.leg = 0 then v.lineFifo else v.pktFifo
    let g := (if 8 ≤ f.length then f.drop 1 else f) ++ [b.pcm]
    let w := if 8 ≤ f.length then v.count 14 1 else v
    exec (.hostVoiceBlock b) s = .next (completeDesc b.part b.ring.toNat .ok (16 + 2 * b.pcm.length) []
      (setCh b.channel.toNat (if b.leg = 0 then { w with lineFifo := g } else { w with pktFifo := g }) s)))

/-- Tier 1. R354 to R357, R361, R362, Table 13.6: the MAC bundles and the accumulator instructions, on a running core, with their result, and the cycles
  they take. -/
def Obligations.MacInstructionsComplete : Prop :=
  ∀ (core : CoreNo) (s : State),
  (∀ (b : Bundle) (k : List Nat) (c : Core) (t : State) (x : Ex), k = b.accs.map aKey ++ slotReads b.slot1 ++ slotReads b.slot2 ++ b.move.elim [] (fun e
    => regKeys e.2) → Issues core k 2 true s → c = coreAt core k s → t = stateAt core k s → 
    (bundleEffect .dmac32 false core.toNat b c t = .ok x → exec (.dmac32 core b) s = .next (retire core 2 x)) ∧
    (bundleEffect .qmac16 false core.toNat b c t = .ok x → exec (.qmac16 core b) s = .next (retire core 2 x)) ∧
    (bundleEffect .mac32 false core.toNat b c t = .ok x → exec (.mac32 core b) s = .next (retire core 2 x)) ∧
    (bundleEffect .dmac16 false core.toNat b c t = .ok x → exec (.dmac16 core b) s = .next (retire core 2 x)) ∧
    (∀ op, bundleEffect op true core.toNat b c t = .ok x → exec (.msu core op b) s = .next (retire core 2 x))) ∧
  (∀ (op : MacOp) (sub : Bool) (sg : MacSign) (ov : OvMode) (accs : List (Fin 4)) (m1 m2 : AMode) (c : Core) (e1 e2 : Ea), bundleOk op ⟨accs, sg, ov,
    .fetch m1, .fetch m2, none⟩ c = true → resolve m1 c s = .ok e1 → localCheck e1 (macSlotBytes op) = none → resolve m2 e1.c e1.s = .ok e2 →
    localCheck e2 (macSlotBytes op) = none → 
    let w := macSlotBytes op
    let same := !c.unified && decide (decide (e1.a < 0x20000) = decide (e2.a < 0x20000))
    bundleEffect op sub core.toNat ⟨accs, sg, ov, .fetch m1, .fetch m2, none⟩ c s =
      .ok ⟨accs.foldl (fun x a => readyAt (aKey a) 1 x) (macLanes op sub sg ov (localLoad e1.c e1 w) (localLoad e2.c e2 w) 0 accs e2.c),
        bumpIf same (coreCnt core.toNat 0x210) e2.s, if same then 2 else 1, none⟩) ∧
  (∀ (acc : Fin 4) (i : Fin 8) (ov : OvMode) (c : Core) (t : State), Issues core ([aKey acc]) 1 true s → c = coreAt core ([aKey acc]) s → t = stateAt
    core ([aKey acc]) s → getI c 7 + 4 ≤ 0x8000 → getI c 7 % 4 = 0 → localFault (getI c i) 4 = none → localFault (getI c i + 4) 4 = none → 
    exec (.tapmv core acc i ov) s = .next (retire core 1 ⟨setI 7 ((getI (setI i ((getI c i : Int) - 4) (dataWrite (getI c i + 4) (leBytes 4 (dataWord
      c (getI c i)).toNat) (readyAt (aKey acc) 1 (accPut acc (getAcc c acc + (BitVec.ofNat 32 (leNat (ramRead c.im (getI c 7) 4))).toInt * (dataWord c
      (getI c i)).toInt) ov c)))) 7 : Int) - 4) (setI i ((getI c i : Int) - 4) (dataWrite (getI c i + 4) (leBytes 4 (dataWord c (getI c i)).toNat)
      (readyAt (aKey acc) 1 (accPut acc (getAcc c acc + (BitVec.ofNat 32 (leNat (ramRead c.im (getI c 7) 4))).toInt * (dataWord c (getI c i)).toInt)
      ov c)))), t, if (c.loops.head?.elim false (fun l => l.rep && decide (l.last = c.pc))) && c.unified then 1 else 2, none⟩)) ∧
  (∀ (acc : Fin 4) (a b : Fin 16) (sign : MacSign) (ov : OvMode), Issues core ([aKey acc, dKey a, dKey b]) 1 true s → 
    ∃ c, c = coreAt core ([aKey acc, dKey a, dKey b]) s ∧
    ∃ t, t = stateAt core ([aKey acc, dKey a, dKey b]) s ∧
    exec (.macr core acc a b sign ov) s = .next (retire core 1 ⟨readyAt (aKey acc) 1 (accPut acc (getAcc c acc + product 32 sign (getD c a) (getD c
      b)) ov c), t, 1, none⟩)) ∧
  (∀ (acc : Fin 4) (a b : Fin 16) (sign : MacSign) (ov : OvMode), Issues core ([aKey acc, dKey a, dKey b]) 1 true s → 
    ∃ c, c = coreAt core ([aKey acc, dKey a, dKey b]) s ∧
    ∃ t, t = stateAt core ([aKey acc, dKey a, dKey b]) s ∧
    exec (.msur core acc a b sign ov) s = .next (retire core 1 ⟨readyAt (aKey acc) 1 (accPut acc (getAcc c acc - product 32 sign (getD c a) (getD c
      b)) ov c), t, 1, none⟩)) ∧
  (∀ (dst src : Fin 4) (ov : OvMode), Issues core ([aKey dst, aKey src]) 1 true s → 
    ∃ c, c = coreAt core ([aKey dst, aKey src]) s ∧
    ∃ t, t = stateAt core ([aKey dst, aKey src]) s ∧
    exec (.adda core dst src ov) s = .next (retire core 1 ⟨readyAt (aKey dst) 1 (accPut dst (getAcc c dst + getAcc c src) ov c), t, 1, none⟩)) ∧
  (∀ (dst src : Fin 4) (ov : OvMode), Issues core ([aKey dst, aKey src]) 1 true s → 
    ∃ c, c = coreAt core ([aKey dst, aKey src]) s ∧
    ∃ t, t = stateAt core ([aKey dst, aKey src]) s ∧
    exec (.suba core dst src ov) s = .next (retire core 1 ⟨readyAt (aKey dst) 1 (accPut dst (getAcc c dst - getAcc c src) ov c), t, 1, none⟩)) ∧
  (∀ (acc : Fin 4) (ov : OvMode), Issues core ([aKey acc]) 1 true s → 
    ∃ c, c = coreAt core ([aKey acc]) s ∧
    ∃ t, t = stateAt core ([aKey acc]) s ∧
    exec (.nega core acc ov) s = .next (retire core 1 ⟨readyAt (aKey acc) 1 (accPut acc (-(getAcc c acc)) ov c), t, 1, none⟩)) ∧
  (∀ (acc : Fin 4) (ov : OvMode), Issues core ([aKey acc]) 1 true s → 
    ∃ c, c = coreAt core ([aKey acc]) s ∧
    ∃ t, t = stateAt core ([aKey acc]) s ∧
    exec (.absa core acc ov) s = .next (retire core 1 ⟨readyAt (aKey acc) 1 (accPut acc ((getAcc c acc).natAbs : Int) ov c), t, 1, none⟩)) ∧
  (∀ (acc : Fin 4) (left : Bool) (n : BitVec 6) (ov : OvMode), Issues core ([aKey acc]) 1 true s → 
    ∃ c, c = coreAt core ([aKey acc]) s ∧
    ∃ t, t = stateAt core ([aKey acc]) s ∧
    exec (.sha core acc left n ov) s = .next (retire core 1 ⟨readyAt (aKey acc) 1 (accShift acc (if left then (n.toNat : Int) else -(n.toNat : Int))
      ov c), t, 1, none⟩)) ∧
  (∀ (accs : List (Fin 4)) (c : Core) (t : State), Issues core (accs.map aKey) 1 true s → c = coreAt core (accs.map aKey) s → t = stateAt core (accs.map
    aKey) s → accs.length ≤ 4 → 
    exec (.clra core accs) s = .next (retire core 1 ⟨accs.foldl (fun x a => readyAt (aKey a) 1 (setAcc a 0 x)) c, t, 1, none⟩)) ∧
  (∀ (d : Fin 16) (acc : Fin 4), Issues core ([aKey acc]) 1 true s → 
    ∃ c, c = coreAt core ([aKey acc]) s ∧
    ∃ t, t = stateAt core ([aKey acc]) s ∧
    exec (.exp core d acc) s = .next (retire core 1 ⟨readyAt (dKey d) 2 (setD d (BitVec.ofInt 32 ((signBits 72 (getAcc c acc) : Int) - 8)) c), t, 1,
      none⟩)) ∧
  (∀ (d a : Fin 16), Issues core ([dKey a]) 1 true s → 
    ∃ c, c = coreAt core ([dKey a]) s ∧
    ∃ t, t = stateAt core ([dKey a]) s ∧
    exec (.expd core d a) s = .next (retire core 1 ⟨readyAt (dKey d) 2 (setD d (BitVec.ofNat 32 (signBits 32 (getD c a).toInt)) c), t, 1, none⟩)) ∧
  (∀ (acc : Fin 4) (d : Fin 16) (ov : OvMode), Issues core ([aKey acc, dKey d]) 1 true s → 
    ∃ c, c = coreAt core ([aKey acc, dKey d]) s ∧
    ∃ t, t = stateAt core ([aKey acc, dKey d]) s ∧
    exec (.norm core acc d ov) s = .next (retire core 1 ⟨readyAt (aKey acc) 2 (accShift acc (getD c d).toInt ov c), t, 1, none⟩)) ∧
  (∀ (m : AMode) (acc : Fin 4) (shift : BitVec 6) (rnd : Rnd) (half : Bool) (e : Ea) (c : Core) (t : State), Issues core ([aKey acc]) 1 true s → c =
    coreAt core ([aKey acc]) s → t = stateAt core ([aKey acc]) s → resolve m c t = .ok e → (localFault e.a (if half then 2 else 4) = none) → 
    exec (.sac core m acc shift rnd half) s = .next (retire core 1 ⟨dataWrite e.a (leInt (if half then 2 else 4) (extractAcc (getAcc c acc)
      shift.toNat rnd half).1) { e.c with eov := e.c.eov || (extractAcc (getAcc c acc) shift.toNat rnd half).2 }, e.s, 1, none⟩)) ∧
  (∀ (d : Fin 16) (acc : Fin 4) (shift : BitVec 6) (rnd : Rnd) (half : Bool), Issues core ([aKey acc]) 1 true s → 
    ∃ c, c = coreAt core ([aKey acc]) s ∧
    ∃ t, t = stateAt core ([aKey acc]) s ∧
    exec (.mva core d acc shift rnd half) s = .next (retire core 1 ⟨readyAt (dKey d) 2 (setD d (BitVec.ofInt 32 (extractAcc (getAcc c acc) shift.toNat
      rnd half).1) { c with eov := c.eov || (extractAcc (getAcc c acc) shift.toNat rnd half).2 }), t, 1, none⟩))

/-- Tier 1. R358, R361, Table 13.6: the integer and binary32 instructions on D registers, on a running core. Carry and overflow where the spec gives no
  rule, and results it does not state, are free values (log entry 5). -/
def Obligations.AluAndFloatInstructionsComplete : Prop :=
  ∀ (core : CoreNo) (s : State),
  (∀ (d a b : Fin 16), Issues core ([dKey a, dKey b]) 1 true s → 
    ∃ c, c = coreAt core ([dKey a, dKey b]) s ∧
    ∃ t, t = stateAt core ([dKey a, dKey b]) s ∧
    exec (.add core d a b) s = .next (retire core 1 ⟨putAlu d (aluAdd (getD c a) (getD c b)) c, t, 1, none⟩)) ∧
  (∀ (d a b : Fin 16), Issues core ([dKey a, dKey b]) 1 true s → 
    ∃ c, c = coreAt core ([dKey a, dKey b]) s ∧
    ∃ t, t = stateAt core ([dKey a, dKey b]) s ∧
    exec (.sub core d a b) s = .next (retire core 1 ⟨putAlu d (aluSub (getD c a) (getD c b)) c, t, 1, none⟩)) ∧
  (∀ (d a : Fin 16) (imm : U32), Issues core ([dKey a]) 1 true s → 
    ∃ c, c = coreAt core ([dKey a]) s ∧
    ∃ t, t = stateAt core ([dKey a]) s ∧
    exec (.addi core d a imm) s = .next (retire core 1 ⟨putAlu d (aluAdd (getD c a) imm) c, t, 1, none⟩)) ∧
  (∀ (d a b : Fin 16), Issues core ([dKey a, dKey b]) 1 true s → 
    ∃ c, c = coreAt core ([dKey a, dKey b]) s ∧
    ∃ t, t = stateAt core ([dKey a, dKey b]) s ∧
    exec (.andD core d a b) s = .next (retire core 1 ⟨putAlu d (aluFree (getD c a &&& getD c b) t).1 c, (aluFree (getD c a &&& getD c b) t).2, 1,
      none⟩)) ∧
  (∀ (d a b : Fin 16), Issues core ([dKey a, dKey b]) 1 true s → 
    ∃ c, c = coreAt core ([dKey a, dKey b]) s ∧
    ∃ t, t = stateAt core ([dKey a, dKey b]) s ∧
    exec (.orD core d a b) s = .next (retire core 1 ⟨putAlu d (aluFree (getD c a ||| getD c b) t).1 c, (aluFree (getD c a ||| getD c b) t).2, 1,
      none⟩)) ∧
  (∀ (d a b : Fin 16), Issues core ([dKey a, dKey b]) 1 true s → 
    ∃ c, c = coreAt core ([dKey a, dKey b]) s ∧
    ∃ t, t = stateAt core ([dKey a, dKey b]) s ∧
    exec (.xorD core d a b) s = .next (retire core 1 ⟨putAlu d (aluFree (getD c a ^^^ getD c b) t).1 c, (aluFree (getD c a ^^^ getD c b) t).2, 1,
      none⟩)) ∧
  (∀ (d a : Fin 16), Issues core ([dKey a]) 1 true s → 
    ∃ c, c = coreAt core ([dKey a]) s ∧
    ∃ t, t = stateAt core ([dKey a]) s ∧
    exec (.notD core d a) s = .next (retire core 1 ⟨putAlu d (aluFree (~~~(getD c a)) t).1 c, (aluFree (~~~(getD c a)) t).2, 1, none⟩)) ∧
  (∀ (d a : Fin 16) (b : Src2), Issues core (dKey a :: src2Keys b) 1 true s → 
    ∃ c, c = coreAt core (dKey a :: src2Keys b) s ∧
    ∃ t, t = stateAt core (dKey a :: src2Keys b) s ∧
    exec (.shl core d a b) s = .next (retire core 1 ⟨putAlu d (aluShift (fun x k => x <<< k) (getD c a) (src2 c b) t).1 c, (aluShift (fun x k => x <<<
      k) (getD c a) (src2 c b) t).2, 1, none⟩)) ∧
  (∀ (d a : Fin 16) (b : Src2), Issues core (dKey a :: src2Keys b) 1 true s → 
    ∃ c, c = coreAt core (dKey a :: src2Keys b) s ∧
    ∃ t, t = stateAt core (dKey a :: src2Keys b) s ∧
    exec (.shr core d a b) s = .next (retire core 1 ⟨putAlu d (aluShift (fun x k => x >>> k) (getD c a) (src2 c b) t).1 c, (aluShift (fun x k => x >>>
      k) (getD c a) (src2 c b) t).2, 1, none⟩)) ∧
  (∀ (d a : Fin 16) (b : Src2), Issues core (dKey a :: src2Keys b) 1 true s → 
    ∃ c, c = coreAt core (dKey a :: src2Keys b) s ∧
    ∃ t, t = stateAt core (dKey a :: src2Keys b) s ∧
    exec (.sar core d a b) s = .next (retire core 1 ⟨putAlu d (aluShift (fun x k => x.sshiftRight k) (getD c a) (src2 c b) t).1 c, (aluShift (fun x k
      => x.sshiftRight k) (getD c a) (src2 c b) t).2, 1, none⟩)) ∧
  (∀ (d a : Fin 16) (b : Src2), Issues core (dKey a :: src2Keys b) 1 true s → 
    ∃ c, c = coreAt core (dKey a :: src2Keys b) s ∧
    ∃ t, t = stateAt core (dKey a :: src2Keys b) s ∧
    exec (.rot core d a b) s = .next (retire core 1 ⟨putAlu d (aluFree (rotate (getD c a) (src2 c b).toNat) t).1 c, (aluFree (rotate (getD c a) (src2
      c b).toNat) t).2, 1, none⟩)) ∧
  (∀ (d a b : Fin 16), Issues core ([dKey a, dKey b]) 1 true s → 
    ∃ c, c = coreAt core ([dKey a, dKey b]) s ∧
    ∃ t, t = stateAt core ([dKey a, dKey b]) s ∧
    exec (.min core d a b) s = .next (retire core 1 ⟨putAlu d (aluFree (if minLess (getD c a) (getD c b) then getD c a else getD c b) t).1 c, (aluFree
      (if minLess (getD c a) (getD c b) then getD c a else getD c b) t).2, 1, none⟩)) ∧
  (∀ (d a b : Fin 16), Issues core ([dKey a, dKey b]) 1 true s → 
    ∃ c, c = coreAt core ([dKey a, dKey b]) s ∧
    ∃ t, t = stateAt core ([dKey a, dKey b]) s ∧
    exec (.max core d a b) s = .next (retire core 1 ⟨putAlu d (aluFree (if minLess (getD c a) (getD c b) then getD c b else getD c a) t).1 c, (aluFree
      (if minLess (getD c a) (getD c b) then getD c b else getD c a) t).2, 1, none⟩)) ∧
  (∀ (d a : Fin 16), Issues core ([dKey a]) 1 true s → 
    ∃ c, c = coreAt core ([dKey a]) s ∧
    ∃ t, t = stateAt core ([dKey a]) s ∧
    exec (.abs core d a) s = .next (retire core 1 ⟨putAlu d ((if getD c a = 0x80000000 then aluOpen t else aluFree (if (getD c a).msb then -(getD c a)
      else getD c a) t)).1 c, ((if getD c a = 0x80000000 then aluOpen t else aluFree (if (getD c a).msb then -(getD c a) else getD c a) t)).2, 1,
      none⟩)) ∧
  (∀ (a : Fin 16) (b : Src2), Issues core (dKey a :: src2Keys b) 1 true s → 
    ∃ c, c = coreAt core (dKey a :: src2Keys b) s ∧
    ∃ t, t = stateAt core (dKey a :: src2Keys b) s ∧
    exec (.cmp core a b) s = .next (retire core 1 ⟨putCmp (aluSub (getD c a) (src2 c b)) c, t, 1, none⟩)) ∧
  (∀ (cond : Cond) (d a b : Fin 16), Issues core ([dKey a, dKey b]) 1 true s → 
    ∃ c, c = coreAt core ([dKey a, dKey b]) s ∧
    ∃ t, t = stateAt core ([dKey a, dKey b]) s ∧
    exec (.sel core cond d a b) s = .next (retire core 1 ⟨putAlu d (aluFree (if condHolds cond c then getD c a else getD c b) t).1 c, (aluFree (if
      condHolds cond c then getD c a else getD c b) t).2, 1, none⟩)) ∧
  (∀ (d a b : Fin 16), Issues core ([dKey a, dKey b]) 1 true s → 
    ∃ c, c = coreAt core ([dKey a, dKey b]) s ∧
    ∃ t, t = stateAt core ([dKey a, dKey b]) s ∧
    exec (.mul core d a b) s = .next (retire core 1 ⟨readyAt (dKey d) 2 (setD d (getD c a * getD c b) c), t, 1, none⟩)) ∧
  (∀ (d a b : Fin 16), Issues core ([dKey a, dKey b]) 1 true s → 
    ∃ c, c = coreAt core ([dKey a, dKey b]) s ∧
    ∃ t, t = stateAt core ([dKey a, dKey b]) s ∧
    exec (.mulh core d a b) s = .next (retire core 1 ⟨readyAt (dKey d) 2 (setD d (mulHigh (getD c a) (getD c b)) c), t, 1, none⟩)) ∧
  (∀ (d a b : Fin 16), Issues core ([dKey d, dKey a, dKey b]) 1 true s → 
    ∃ c, c = coreAt core ([dKey d, dKey a, dKey b]) s ∧
    ∃ t, t = stateAt core ([dKey d, dKey a, dKey b]) s ∧
    exec (.divs core d a b) s = .next (retire core 1 ⟨readyAt (dKey d) 1 (setD d (Config.divStep (getD c d) (getD c a) (getD c b)) c), t, 1, none⟩)) ∧
  (∀ (d a b : Fin 16), Issues core ([dKey a, dKey b]) 1 true s → 
    ∃ c, c = coreAt core ([dKey a, dKey b]) s ∧
    ∃ t, t = stateAt core ([dKey a, dKey b]) s ∧
    exec (.fadd core d a b) s = .next (retire core 1 ⟨readyAt (dKey d) 3 (setD d (fAdd (getD c a) (getD c b) t).v
      { c with finv := c.finv || (fAdd (getD c a) (getD c b) t).inv }), (fAdd (getD c a) (getD c b) t).s, 1, none⟩)) ∧
  (∀ (d a b : Fin 16), Issues core ([dKey a, dKey b]) 1 true s → 
    ∃ c, c = coreAt core ([dKey a, dKey b]) s ∧
    ∃ t, t = stateAt core ([dKey a, dKey b]) s ∧
    exec (.fsub core d a b) s = .next (retire core 1 ⟨readyAt (dKey d) 3 (setD d (fAdd (getD c a) (fNegate (getD c b)) t).v
      { c with finv := c.finv || (fAdd (getD c a) (fNegate (getD c b)) t).inv }), (fAdd (getD c a) (fNegate (getD c b)) t).s, 1, none⟩)) ∧
  (∀ (d a b : Fin 16), Issues core ([dKey a, dKey b]) 1 true s → 
    ∃ c, c = coreAt core ([dKey a, dKey b]) s ∧
    ∃ t, t = stateAt core ([dKey a, dKey b]) s ∧
    exec (.fmul core d a b) s = .next (retire core 1 ⟨readyAt (dKey d) 3 (setD d (fMul (getD c a) (getD c b) t).v
      { c with finv := c.finv || (fMul (getD c a) (getD c b) t).inv }), (fMul (getD c a) (getD c b) t).s, 1, none⟩)) ∧
  (∀ (d a b x : Fin 16), Issues core ([dKey a, dKey b, dKey x]) 1 true s → 
    ∃ c, c = coreAt core ([dKey a, dKey b, dKey x]) s ∧
    ∃ t, t = stateAt core ([dKey a, dKey b, dKey x]) s ∧
    exec (.fma core d a b x) s = .next (retire core 1 ⟨readyAt (dKey d) 3 (setD d (fFma (getD c a) (getD c b) (getD c x) t).v
      { c with finv := c.finv || (fFma (getD c a) (getD c b) (getD c x) t).inv }), (fFma (getD c a) (getD c b) (getD c x) t).s, 1, none⟩)) ∧
  (∀ (d a b : Fin 16), Issues core ([dKey a, dKey b]) 1 true s → 
    ∃ c, c = coreAt core ([dKey a, dKey b]) s ∧
    ∃ t, t = stateAt core ([dKey a, dKey b]) s ∧
    exec (.fmin core d a b) s = .next (retire core 1 ⟨readyAt (dKey d) 3 (setD d (fMinMax false (getD c a) (getD c b) t).v
      { c with finv := c.finv || (fMinMax false (getD c a) (getD c b) t).inv }), (fMinMax false (getD c a) (getD c b) t).s, 1, none⟩)) ∧
  (∀ (d a b : Fin 16), Issues core ([dKey a, dKey b]) 1 true s → 
    ∃ c, c = coreAt core ([dKey a, dKey b]) s ∧
    ∃ t, t = stateAt core ([dKey a, dKey b]) s ∧
    exec (.fmax core d a b) s = .next (retire core 1 ⟨readyAt (dKey d) 3 (setD d (fMinMax true (getD c a) (getD c b) t).v
      { c with finv := c.finv || (fMinMax true (getD c a) (getD c b) t).inv }), (fMinMax true (getD c a) (getD c b) t).s, 1, none⟩)) ∧
  (∀ (d a : Fin 16), Issues core ([dKey a]) 1 true s → 
    ∃ c, c = coreAt core ([dKey a]) s ∧
    ∃ t, t = stateAt core ([dKey a]) s ∧
    exec (.fabs core d a) s = .next (retire core 1 ⟨readyAt (dKey d) 3 (setD d (fSign (fun x => x &&& 0x7FFFFFFF) (getD c a) t).v
      { c with finv := c.finv || (fSign (fun x => x &&& 0x7FFFFFFF) (getD c a) t).inv }), (fSign (fun x => x &&& 0x7FFFFFFF) (getD c a) t).s, 1,
      none⟩)) ∧
  (∀ (d a : Fin 16), Issues core ([dKey a]) 1 true s → 
    ∃ c, c = coreAt core ([dKey a]) s ∧
    ∃ t, t = stateAt core ([dKey a]) s ∧
    exec (.fneg core d a) s = .next (retire core 1 ⟨readyAt (dKey d) 3 (setD d (fSign (fun x => x ^^^ 0x80000000) (getD c a) t).v
      { c with finv := c.finv || (fSign (fun x => x ^^^ 0x80000000) (getD c a) t).inv }), (fSign (fun x => x ^^^ 0x80000000) (getD c a) t).s, 1,
      none⟩)) ∧
  (∀ (a b : Fin 16), Issues core ([dKey a, dKey b]) 1 true s → 
    ∃ c, c = coreAt core ([dKey a, dKey b]) s ∧
    ∃ t, t = stateAt core ([dKey a, dKey b]) s ∧
    exec (.fcmp core a b) s = .next (retire core 1 ⟨(fCmp (getD c a) (getD c b) c t).1, (fCmp (getD c a) (getD c b) c t).2, 1, none⟩)) ∧
  (∀ (k : Cvt) (d a : Fin 16), Issues core ([dKey a]) 1 true s → 
    ∃ c, c = coreAt core ([dKey a]) s ∧
    ∃ t, t = stateAt core ([dKey a]) s ∧
    exec (.fcvt core k d a) s = .next (retire core 1 ⟨readyAt (dKey d) 3 (setD d (fCvt k (getD c a) t).v
      { c with finv := c.finv || (fCvt k (getD c a) t).inv }), (fCvt k (getD c a) t).s, 1, none⟩)) ∧
  (∀ (d a : Fin 16), Issues core ([dKey a]) 1 true s → 
    ∃ c, c = coreAt core ([dKey a]) s ∧
    ∃ t, t = stateAt core ([dKey a]) s ∧
    exec (.frcp core d a) s = .next (retire core 1 ⟨readyAt (dKey d) 5 (setD d (fRcp (getD c a) t).v
      { c with finv := c.finv || (fRcp (getD c a) t).inv }), (fRcp (getD c a) t).s, 1, none⟩)) ∧
  (∀ (d a : Fin 16), Issues core ([dKey a]) 1 true s → 
    ∃ c, c = coreAt core ([dKey a]) s ∧
    ∃ t, t = stateAt core ([dKey a]) s ∧
    exec (.frsq core d a) s = .next (retire core 1 ⟨readyAt (dKey d) 5 (setD d (fRsq (getD c a) t).v
      { c with finv := c.finv || (fRsq (getD c a) t).inv }), (fRsq (getD c a) t).s, 1, none⟩))

/-- Tier 1. R348 to R353, R359, R360, R363, R371, R377: loads, stores, moves, branches, loops, queued transfers and the end of a run, on a running core. -/
def Obligations.MemoryAndControlInstructionsComplete : Prop :=
  ∀ (core : CoreNo) (s : State),
  (∀ (d : Fin 16) (sz : Size) (signed : Bool) (m : AMode) (e : Ea) (c : Core) (t : State), Issues core ([]) 1 true s → c = coreAt core ([]) s → t =
    stateAt core ([]) s → resolve m c t = .ok e → localCheck e (sizeBytes sz) = none → 
    exec (.ld core d sz signed m) s = .next (retire core 1 ⟨readyAt (dKey d) 2 (setD d (extendLoad (sizeBytes sz) signed (localLoad e.c e (sizeBytes
      sz))) e.c), e.s, 1, none⟩)) ∧
  (∀ (m : AMode) (d : Fin 16) (sz : Size) (e : Ea) (c : Core) (t : State), Issues core ([dKey d]) 1 true s → c = coreAt core ([dKey d]) s → t = stateAt
    core ([dKey d]) s → resolve m c t = .ok e → localCheck e (sizeBytes sz) = none → 
    exec (.st core m d sz) s = .next (retire core 1 ⟨localStore e (sizeBytes sz) ((getD c d).setWidth 64) e.c, e.s, 1, none⟩)) ∧
  (∀ (d : Fin 8) (m : AMode) (e : Ea) (c : Core) (t : State), Issues core ([]) 1 true s → c = coreAt core ([]) s → t = stateAt core ([]) s → c.unified =
    false → resolve m c t = .ok e → localCheck e 8 = none → 
    exec (.ld64 core d m) s = .next (retire core 1 ⟨(pairKeys d).foldl (fun x k => readyAt k 2 x) (setPair d (localLoad e.c e 8) e.c), e.s, 1, none⟩)) ∧
  (∀ (m : AMode) (d : Fin 8) (e : Ea) (c : Core) (t : State), Issues core (pairKeys d) 1 true s → c = coreAt core (pairKeys d) s → t = stateAt core
    (pairKeys d) s → c.unified = false → resolve m c t = .ok e → localCheck e 8 = none → 
    exec (.st64 core m d) s = .next (retire core 1 ⟨localStore e 8 (getPair c d) e.c, e.s, 1, none⟩)) ∧
  (∀ (d : Fin 16) (m : AMode) (k : BitVec 3) (e : Ea) (c : Core) (t : State), Issues core ([]) 1 true s → c = coreAt core ([]) s → t = stateAt core ([])
    s → resolve m c t = .ok e → sramFault e.s core.toNat c e.a 4 = none → 
    exec (.ldc core d m k) s = .next (retire core 1 ⟨readyAt (dKey d) (8 + k.toNat) (setD d (BitVec.ofNat 32 (leNat (ramRead (getSram e.s (clusterOf
      core.toNat)) (e.a - 0x100000) 4))) e.c), countSram core.toNat k.toNat e.s, 1, none⟩)) ∧
  (∀ (m : AMode) (d : Fin 16) (k : BitVec 3) (e : Ea) (c : Core) (t : State), Issues core ([dKey d]) 1 true s → c = coreAt core ([dKey d]) s → t =
    stateAt core ([dKey d]) s → resolve m c t = .ok e → sramFault e.s core.toNat c e.a 4 = none → 
    exec (.stc core m d k) s = .next (retire core 1 ⟨e.c, countSram core.toNat k.toNat (setSram (clusterOf core.toNat) (ramWrite (getSram e.s
      (clusterOf core.toNat)) (e.a - 0x100000) (leBytes 4 (getD c d).toNat)) e.s), 1, none⟩)) ∧
  (∀ (r : SReg) (imm : U32), Issues core ([]) 1 true s → 
    ∃ c, c = coreAt core ([]) s ∧
    ∃ t, t = stateAt core ([]) s ∧
    exec (.movi core r imm) s = .next (retire core 1 ⟨putReg r imm c, t, 1, none⟩)) ∧
  (∀ (i : Fin 8) (step : Src2), Issues core (src2Keys step) 1 true s → 
    ∃ c, c = coreAt core (src2Keys step) s ∧
    ∃ t, t = stateAt core (src2Keys step) s ∧
    exec (.modi core i step) s = .next (retire core 1 ⟨(stepPtr i (src2 c step).toInt c t).1, (stepPtr i (src2 c step).toInt c t).2, 1, none⟩)) ∧
  (∀ (dst src : SReg), Issues core (regKeys src) 1 true s → 
    ∃ c, c = coreAt core (regKeys src) s ∧
    ∃ t, t = stateAt core (regKeys src) s ∧
    exec (.mov core dst src) s = .next (retire core 1 ⟨putReg dst (getReg c src) c, t, 1, none⟩)) ∧
  (∀ (target : U32), Issues core ([]) 1 false s → 
    ∃ c, c = coreAt core ([]) s ∧
    ∃ t, t = stateAt core ([]) s ∧
    exec (.b core target) s = .next (retire core 1 ⟨{ c with loops := leaveLoops target c.loops }, t, 3, some target⟩)) ∧
  (∀ (cond : Cond) (target : U32) (c : Core) (t : State), Issues core ([]) 1 false s → c = coreAt core ([]) s → t = stateAt core ([]) s → condHolds cond
    c = true → 
    exec (.bcc core cond target) s = .next (retire core 1 ⟨{ c with loops := leaveLoops target c.loops }, t, 3, some target⟩)) ∧
  (∀ (cond : Cond) (target : U32) (c : Core) (t : State), Issues core ([]) 1 false s → c = coreAt core ([]) s → t = stateAt core ([]) s → condHolds cond
    c = false → 
    exec (.bcc core cond target) s = .next (retire core 1 ⟨c, t, 1, none⟩)) ∧
  (∀ (target : U32) (c : Core) (t : State), Issues core ([]) 1 false s → c = coreAt core ([]) s → t = stateAt core ([]) s → c.stack.length < 8 → 
    exec (.call core target) s = .next (retire core 1 ⟨{ c with stack := (c.pc + 4) :: c.stack }, t, 3, some target⟩)) ∧
  (∀ (a : U32) (l : List U32) (c : Core) (t : State), Issues core ([]) 1 false s → c = coreAt core ([]) s → t = stateAt core ([]) s → c.stack = a :: l →
    
    exec (.ret core) s = .next (retire core 1 ⟨{ c with stack := l }, t, 3, some a⟩)) ∧
  (∀ (count : Count) (last : U32) (n : U32) (c : Core) (t : State), Issues core (countReads count) 1 false s → c = coreAt core (countReads count) s → t
    = stateAt core (countReads count) s → n = (match count with | .imm k => k.setWidth 32 | .reg d => getD c d) → n ≠ 0 → c.loops.length < 4 → 
    exec (.loop core count last) s = .next (retire core 1 ⟨{ c with loops := ⟨c.pc + 4, last, false⟩ :: c.loops, lc := c.lc.set c.loops.length n }, t,
      1, none⟩)) ∧
  (∀ (d : Fin 16) (last : U32) (c : Core) (t : State), Issues core [dKey d] 1 false s → c = coreAt core [dKey d] s → t = stateAt core [dKey d] s → getD
    c d = 0 → 
    exec (.loop core (.reg d) last) s = .next (retire core 1 ⟨c, t, 2, some (last + BitVec.ofNat 32 (instrBytes c last.toNat))⟩)) ∧
  (∀ (count : Count) (n : U32) (c : Core) (t : State), Issues core (countReads count) 1 false s → c = coreAt core (countReads count) s → t = stateAt
    core (countReads count) s → n = (match count with | .imm k => k.setWidth 32 | .reg d => getD c d) → n ≠ 0 → c.loops.length < 4 → 
    exec (.rep core count) s = .next (retire core 1 ⟨{ c with loops := ⟨c.pc + 4, c.pc + 4, true⟩ :: c.loops, lc := c.lc.set c.loops.length n }, t, 1,
      none⟩)) ∧
  (∀ (op : DmaqOp) (c : Core) (t : State), Issues core ([]) 1 true s → c = coreAt core ([]) s → t = stateAt core ([]) s → (getCore s
    core.toNat).queue.length < 16 → op.bytes.toNat ≤ 65536 → xferOk t core.toNat c op.localAddr.toNat op.bytes.toNat = true → (kernOf t c).all (fun k
    => decide (op.offset.toNat + op.bytes.toNat ≤ k.scratchKib * 1024)) = true → 
    exec (.dmaq core op) s = .next (retire core 1 ⟨{ c with queue := c.queue ++ [.dma op] }, t, 1, none⟩)) ∧
  (∀ (i : BitVec 4) (a : BitVec 24) (len : BitVec 17) (k : Kern) (v : KBind) (c : Core) (t : State), Issues core ([]) 1 true s → c = coreAt core ([]) s
    → t = stateAt core ([]) s → (getCore s core.toNat).queue.length < 16 → len.toNat ≤ 65536 → xferOk t core.toNat c a.toNat len.toNat = true → kernOf
    t c = some k → tget k.binds i.toNat = some v → v.kind = 1 → 
    exec (.outq core i a len) s = .next (retire core 1 ⟨{ c with queue := c.queue ++ [.out i.toNat a len] }, t, 1, none⟩)) ∧
  (∀ (n : BitVec 5) (c : Core) (t : State), Issues core ([]) 1 true s → c = coreAt core ([]) s → t = stateAt core ([]) s → (getCore s
    core.toNat).queue.length ≤ n.toNat → 
    exec (.waitd core n) s = .next (retire core 1 ⟨c, t, 1, none⟩)) ∧
  (∀ (q : CoreXfer) (l : List CoreXfer), (getCore s core.toNat).queue = q :: l → 
    exec (.dmaTransferDone core) s = .next (doXfer core.toNat q (setCore core.toNat { getCore s core.toNat with queue := l } s))) ∧
  (∀ (d : Fin 16) (c : Core) (t : State), Issues core ([dKey d]) 1 true s → c = coreAt core ([dKey d]) s → t = stateAt core ([dKey d]) s → c.unified =
    false ∨ getD c d &&& 0xFEFE = 0 → 
    exec (.mvccr core d) s = .next (retire core 1 ⟨{ c with circ := (getD c d).setWidth 8, brev := (getD c d).extractLsb' 8 8 }, t, 1, none⟩)) ∧
  (Issues core ([]) 1 true s → 
    ∃ c, c = coreAt core ([]) s ∧
    ∃ t, t = stateAt core ([]) s ∧
    exec (.nop core) s = .next (retire core 1 ⟨c, t, 1, none⟩)) ∧
  (Issues core [] 1 false s → 
    exec (.done core) s = .next (endRun core.toNat (retire core 1 ⟨coreAt core [] s, stateAt core [] s, 4, none⟩))) ∧
  (∀ (k : Kern), (getCore s core.toNat).state = .running → kernOf s (getCore s core.toNat) = some k → 
    exec (.budgetFault core) s = .next (faultRun core.toNat .budget (setCore core.toNat
      { getCore s core.toNat with runCycles := max (getCore s core.toNat).runCycles k.maxCycles } s)))

/-- Tier 2. R365, Table 13.8: an instruction that faults freezes its core: the core is FAULTED with the kind of the fault and the address of the
  instruction, and the instruction has not retired. Accesses outside X and Y, misaligned ones, a ninth CALL, a RET without a CALL, a LOOP of
  an immediate count of zero, and a fetch outside IM fault so; an instruction for a core that does not run has no effect. -/
def Obligations.CoreFaultsFreezeTheCore : Prop :=
  ∀ (core : CoreNo) (s : State),
  (∀ (f : CoreFault), 
    (getCore (faultRun core.toNat f s) core.toNat).state = .faulted ∧ (getCore (faultRun core.toNat f s) core.toNat).fault = some f ∧ (getCore
      (faultRun core.toNat f s) core.toNat).faultPc = (getCore s core.toNat).pc ∧ (getCore (faultRun core.toNat f s) core.toNat).d = (getCore s
      core.toNat).d ∧ (getCore (faultRun core.toNat f s) core.toNat).acc = (getCore s core.toNat).acc ∧ (∀ n, n ≠ core.toNat → getCore (faultRun
      core.toNat f s) n = getCore s n)) ∧
  (∀ (d : Fin 16) (sz : Size) (sg : Bool) (m : AMode) (e : Ea) (f : CoreFault), Issues core [] 1 true s → resolve m (coreAt core [] s) (stateAt core []
    s) = .ok e → localCheck e (sizeBytes sz) = some f → 
    exec (.ld core d sz sg m) s = .next (faultRun core.toNat f (stateAt core [] s))) ∧
  (∀ (d : Fin 16) (sz : Size) (m : AMode) (e : Ea) (f : CoreFault), Issues core [dKey d] 1 true s → resolve m (coreAt core [dKey d] s) (stateAt core
    [dKey d] s) = .ok e → localCheck e (sizeBytes sz) = some f → 
    exec (.st core m d sz) s = .next (faultRun core.toNat f (stateAt core [dKey d] s))) ∧
  (∀ (target : U32), Issues core [] 1 false s → 8 ≤ (coreAt core [] s).stack.length → 
    exec (.call core target) s = .next (faultRun core.toNat .stack (stateAt core [] s))) ∧
  (Issues core [] 1 false s → (coreAt core [] s).stack = [] → 
    exec (.ret core) s = .next (faultRun core.toNat .stack (stateAt core [] s))) ∧
  (∀ (last : U32), Issues core [] 1 false s → 
    exec (.loop core (.imm 0) last) s = .next (faultRun core.toNat .illegal (stateAt core [] s))) ∧
  ((getCore s core.toNat).state = .running → 0x8000 < (getCore s core.toNat).pc.toNat + 4 → 
    exec (.nop core) s = .next (faultRun core.toNat .window s)) ∧
  ((getCore s core.toNat).state ≠ .running → 
    exec (.nop core) s = .next s ∧ exec (.add core 0 0 0) s = .next s ∧ exec (.done core) s = .next s)

/-- Tier 1. R367, R369, R374, R378, Table 13.17: kernels are loaded, bound, started, stopped and unloaded. -/
def Obligations.KernelCommandsComplete : Prop :=
  ∀ (h : Hdr) (s : State), let u := countCmd h s
  (∀ (p : KernelLoadP) (k : Nat), Admitted (cmdLong 0x0D01 .openC false 8) h s → p.rsv = 0 → (p.source = 0 ∧ ringFree s h.part p.index.toNat true =
    true) ∨ (p.source = 1 ∧ p.index.toNat < 32) → 1 ≤ p.cores.toNat → p.cores.toNat ≤ 32 → 256 ≤ p.bytes.toNat → p.bytes.toNat ≤ 164096 → tfreeFrom
    s.sor.kernels 32 0 = some k → 
    ∃ v, v = setKern k (Kern.loading h p s.host.longNext) (startLong h 0x0D01 5000 u).2 ∧
    exec (.kernelLoad h p) s = .next (answer h 0x0D01 (⟨.accepted, [], if p.source = 0 then bindRing h.part p.index.toNat .image v else v⟩))) ∧
  (∀ (p : KernelBindP) (x : Kern) (ts : List Nat) (w : State), Admitted (cmd 0x0D02 .openC false (24 + 4 * p.n.toNat)) h s → bindRange p = true →
    bindNames h p s = true → getKern s p.kernel.toNat = some x → x.state = .loaded ∨ x.state = .faulted → (p.kind = 2 → 16 + 8 * (p.handles.foldl (fun
    n w => (tget s.ing.streams w.toNat).elim n (fun st => n + st.maxChannels)) 0) ≤ p.slotBytes.toNat) → (addTasks p.kernel.toNat x p.binding.toNat
    (if p.kind.toNat = 0 then 2 else 1) p.level.toNat (decide (2 ≤ p.kind.toNat)) (decide (3 ≤ p.kind.toNat)) (if p.kind.toNat = 0 ∨ p.kind.toNat = 2
    then p.slots.toNat else if p.kind.toNat = 1 then 0 else 1) 0 [] (countCmd h s) = some (ts, w)) → 
    ∃ v, v = ({ kind := p.kind.toNat, level := p.level.toNat, ring := p.ring.toNat, grid := p.grid.toNat, stageOff := p.stageOff.toNat, slotBytes :=
                  p.slotBytes.toNat, slots := p.slots.toNat, handles := p.handles.map BitVec.toNat, period := p.period.toNat, tasks := ts, next := 0,
                  slot := [] } : KBind) ∧
    ∃ z, z = modKern p.kernel.toNat (fun y => { y with binds := tset y.binds p.binding.toNat v }) w ∧
    exec (.kernelBindAdd h p) s = .next (answer h 0x0D02 (done (armTimer v (if p.kind.toNat ≤ 1 then bindRing x.part p.ring.toNat (.kernel
      p.kernel.toNat) z else z))))) ∧
  (∀ (p : KernelBindP) (x : Kern) (v : KBind), Admitted (cmd 0x0D02 .openC false (24 + 4 * p.n.toNat)) h s → p.rsv = 0 → p.kernel.toNat < 32 →
    p.binding.toNat < 16 → getKern s p.kernel.toNat = some x → mayName s h.part x.part = true → tget x.binds p.binding.toNat = some v → x.state =
    .loaded ∨ x.state = .faulted → 
    exec (.kernelBindRemove h p) s = .next (answer h 0x0D02 (done (dropBind x.part p.kernel.toNat v (modKern p.kernel.toNat (fun y =>
      { y with binds := tdel y.binds p.binding.toNat }) u))))) ∧
  (∀ (p : KernelStartP) (x : Kern), Admitted (cmd 0x0D03 .openC true 4) h s → p.rsv = 0 → kernNamed h p.kernel.toNat s = true → getKern s p.kernel.toNat
    = some x → p.flags.toNat < 2 → x.state = .loaded → 
    ∃ k, k = p.kernel.toNat ∧
    ∃ v, v = modKern k (fun y => { y with aovEvent := p.flags.getLsbD 0, binds := tmap (fun _ b => { b with slot := [], next := 0 }) y.binds })
      (clearFaults k u) ∧
    ∃ w, w = { v with yar := { v.yar with tasks := tmap (fun _ y => if y.kernel = some k then { y with aovEvent := p.flags.getLsbD 0 } else y)
                                            v.yar.tasks } } ∧
    exec (.kernelStart h p) s = .next (answer h 0x0D03 (done (kernState k .running (x.binds.foldl (fun t b => armTimer b.2 t) w))))) ∧
  (∀ (p : KernelP) (x : Kern), Admitted (cmdLong 0x0D04 .openC true 4) h s → p.rsv = 0 → kernNamed h p.kernel.toNat s = true → getKern s p.kernel.toNat
    = some x → x.state = .running ∨ x.state = .faulted → x.long = none → 
    ∃ k, k = p.kernel.toNat ∧
    ∃ v, v = modKern k (fun y => { y with long := some s.host.longNext }) (startLong h 0x0D04 200 u).2 ∧
    exec (.kernelStop h p) s = .next (answer h 0x0D04 (⟨.accepted, [], kernState k (if x.state = .running then .stopping else .loaded)
      ((v.yar.tasks.filter (fun e => decide (e.2.kernel = some k))).foldl (fun t e => cancelTask e.1 t) v)⟩))) ∧
  (∀ (p : KernelP) (x : Kern), Admitted (cmd 0x0D05 .openC false 4) h s → p.rsv = 0 → kernNamed h p.kernel.toNat s = true → getKern s p.kernel.toNat =
    some x → x.state = .loaded ∨ x.state = .faulted → kernRuns s x = false → 
    ∃ k, k = p.kernel.toNat ∧
    ∃ v, v = x.cores.foldl (fun t n => setCore n { getCore t n with kernel := none, unified := false, state := .idle, fault := none, queue := [], task
                                                                      := none } t) (x.binds.foldl (fun t b => dropBind x.part k b.2 t) u) ∧
    exec (.kernelUnload h p) s = .next (answer h 0x0D05 (done (raise 0x0D06 1 [BitVec.ofNat 8 k, BitVec.ofNat 8 x.part.val] (some x.part) (completeOpt
      x.long .ok [] { v with sor := { v.sor with kernels := tdel v.sor.kernels k } })))))

/-- Tier 1. R367 to R369, R371: a kernel is loaded with what its load reserves, or rejected at the first check that fails with its status and cause; it
  has stopped when every run has ended; a message triggers its binding. -/
def Obligations.KernelEventsComplete : Prop :=
  ∀ (s : State),
  (∀ (k : BitVec 5) (i : BelethIn) (x y : Kern) (b : Beleth) (v : State), getKern s k.toNat = some x → x.state = .loading → (x.loadSrc = 0 → x.loadBytes
    ≤ i.bytes.length ∧ hostReads s x.part = true) → b = readBeleth { i with bytes := loadBytesOf s x i } → (v = (if x.loadSrc = 0 then unbindRing
    x.part x.loadIdx.toNat .image s else s)) → imageCheck v (loadBytesOf s x i).length x.loadCores b = none → reserveKern v k.toNat x b = some y → 
    exec (.kernelLoaded k i.bytes ⟨i.keyDigest, i.signatureOk, i.bodyOk⟩) s = .next (completeOpt x.long .ok [BitVec.ofNat 8 k.toNat, 0xFF, 0, 0]
      (raise 0x0D01 1 ([BitVec.ofNat 8 k.toNat] ++ leBytes 8 b.imageId.toNat ++ leBytes 4 b.imageVersion.toNat ++ [BitVec.ofNat 8 y.cores.length])
        (some x.part) (bump 0x0D000100 (y.cores.foldl (fun t n => setCore n (loadCore k.toNat b (getCore t n)) t) (setKern k.toNat y v)))))) ∧
  (∀ (k : BitVec 5) (i : BelethIn) (x : Kern) (b : Beleth) (st : Sts) (cause : Nat) (v : State), getKern s k.toNat = some x → x.state = .loading →
    (x.loadSrc = 0 → x.loadBytes ≤ i.bytes.length ∧ hostReads s x.part = true) → b = readBeleth { i with bytes := loadBytesOf s x i } → (v = (if
    x.loadSrc = 0 then unbindRing x.part x.loadIdx.toNat .image s else s)) → imageCheck v (loadBytesOf s x i).length x.loadCores b = some (st, cause)
    → 
    exec (.kernelLoaded k i.bytes ⟨i.keyDigest, i.signatureOk, i.bodyOk⟩) s = .next (completeOpt x.long st [BitVec.ofNat 8 k.toNat, BitVec.ofNat 8
      cause, 0, 0]
      (raise 0x0D02 2 ([BitVec.ofNat 8 x.part.val, BitVec.ofNat 8 cause] ++ leBytes 8 b.imageId.toNat) (some x.part)
        (bump 0x0D000108 { v with sor := { v.sor with kernels := tdel v.sor.kernels k.toNat } })))) ∧
  (∀ (k : BitVec 5) (i : BelethIn) (x : Kern) (b : Beleth) (v : State), getKern s k.toNat = some x → x.state = .loading → (x.loadSrc = 0 → x.loadBytes ≤
    i.bytes.length ∧ hostReads s x.part = true) → b = readBeleth { i with bytes := loadBytesOf s x i } → (v = (if x.loadSrc = 0 then unbindRing x.part
    x.loadIdx.toNat .image s else s)) → imageCheck v (loadBytesOf s x i).length x.loadCores b = none → reserveKern v k.toNat x b = none → 
    exec (.kernelLoaded k i.bytes ⟨i.keyDigest, i.signatureOk, i.bodyOk⟩) s = .next (completeOpt x.long .noResource [BitVec.ofNat 8 k.toNat,
      BitVec.ofNat 8 5, 0, 0]
      (raise 0x0D02 2 ([BitVec.ofNat 8 x.part.val, BitVec.ofNat 8 5] ++ leBytes 8 b.imageId.toNat) (some x.part)
        (bump 0x0D000108 { v with sor := { v.sor with kernels := tdel v.sor.kernels k.toNat } })))) ∧
  (∀ (k : BitVec 5) (x : Kern), getKern s k.toNat = some x → kernRuns s x = false → x.state ≠ .loading → 
    let v := if x.state = .stopping then kernState k.toNat (if x.runFaulted then .faulted else .loaded) s else s
    exec (.kernelStopped k) s = .next (completeOpt x.long .ok [] (modKern k.toNat (fun y => { y with long := none }) v))) ∧
  (∀ (m : KernelMsg) (r : Ring) (k b : Nat) (x : Kern) (v : KBind), getRing s m.part m.ring.toNat = some r → r.use = .kernel k → r.owned ≠ [] →
    hostReads s m.part = true → getKern s k = some x → tfind (fun _ b => decide (b.kind = 0 ∧ b.ring = m.ring.toNat)) x.binds = some (b, v) → m.poison
    = 0 → m.data.length ≤ v.slotBytes → 
    exec (.kernelInputMessage m) s = .next (triggerBind k b m.data (messageBell r s) (some (13 + m.part.val)) (takeMessage m.part m.ring.toNat .ok
      r.owned s))) ∧
  (∀ (m : KernelMsg) (r : Ring) (k b : Nat) (x : Kern) (v : KBind), getRing s m.part m.ring.toNat = some r → r.use = .kernel k → r.owned ≠ [] →
    hostReads s m.part = true → getKern s k = some x → tfind (fun _ b => decide (b.kind = 0 ∧ b.ring = m.ring.toNat)) x.binds = some (b, v) → m.poison
    = 0 → v.slotBytes < m.data.length → 
    exec (.kernelInputMessage m) s = .next (takeMessage m.part m.ring.toNat .badLength r.owned s)) ∧
  (∀ (m : KernelMsg) (r : Ring) (k b : Nat) (x : Kern) (v : KBind), getRing s m.part m.ring.toNat = some r → r.use = .kernel k → r.owned ≠ [] →
    hostReads s m.part = true → getKern s k = some x → tfind (fun _ b => decide (b.kind = 0 ∧ b.ring = m.ring.toNat)) x.binds = some (b, v) → m.poison
    ≠ 0 → 
    exec (.kernelInputMessage m) s = .next (takeMessage m.part m.ring.toNat .poisoned r.owned (poisonDma m.part m.poison.toNat s)))

/-- Tier 1. R384, R387, R393, R394, R397: the scheduler takes its settings and load rings, matches free cores with ready tasks, expires delays, closes
  load windows and applies the moves of an evaluation. -/
def Obligations.SchedulerCompletes : Prop :=
  ∀ (s : State),
  (∀ (h : Hdr) (p : YarrowConfigP), Admitted (cmd 0x0E01 .control false 4) h s → p.rsv = 0 → 50 ≤ p.qHighPct.toNat → p.qHighPct.toNat ≤ 100 → 50 ≤
    p.loadAlertPct.toNat → p.loadAlertPct.toNat ≤ 100 → 
    ∃ u, u = countCmd h s ∧
    exec (.yarrowConfig h p) s = .next (answer h 0x0E01 (done
      { u with yar := { s.yar with qHighPct := p.qHighPct.toNat, loadAlertPct := p.loadAlertPct.toNat } }))) ∧
  (∀ (h : Hdr) (p : YarrowLoadBindP), Admitted (cmd 0x0E02 .openC false 4) h s → p.rsv = 0 → 1 ≤ p.loadDiv.toNat → p.loadDiv.toNat ≤ 100 → p.ring ≠ 0xFF
    → ringFree s h.part p.ring.toNat false = true → s.yar.loadRing.get h.part = none → 
    ∃ u, u = countCmd h s ∧
    exec (.yarrowLoadBind h p) s = .next (answer h 0x0E02 (done (bindRing h.part p.ring.toNat .load
      { u with yar := { s.yar with loadRing := s.yar.loadRing.set h.part (some p.ring.toNat), loadDiv := s.yar.loadDiv.set h.part p.loadDiv.toNat,
                                     loadWin := s.yar.loadWin.set h.part 0, loadOn := s.yar.loadOn.set h.part false, loads := tmap (fun _ l =>
                                     { l with sums := l.sums.set h.part 0 }) s.yar.loads } })))) ∧
  (∀ (h : Hdr) (p : YarrowLoadBindP) (n : Nat), Admitted (cmd 0x0E02 .openC false 4) h s → p.rsv = 0 → 1 ≤ p.loadDiv.toNat → p.loadDiv.toNat ≤ 100 →
    p.ring = 0xFF → s.yar.loadRing.get h.part = some n → 
    ∃ u, u = countCmd h s ∧
    exec (.yarrowLoadBind h p) s = .next (answer h 0x0E02 (done (unbindRing h.part n .load
      { u with yar := { s.yar with loadRing := s.yar.loadRing.set h.part none } })))) ∧
  (exec .taskDispatch s = .next (matchCores s)) ∧
  (exec .delayExpiry s = .next (expireUpTo 4 s)) ∧
  (s.yar.windowMs < taiNs s / 1000000 → 
    let a := (List.range 128).foldl (fun t n => coreWindow n t) s
    let b := allHP.foldl (fun t p => loadWindow p t) a
    exec .loadWindowEnd s = .next { b with yar := { b.yar with windowMs := taiNs s / 1000000, qHighUse := b.yar.qHighPct, loadAlertUse :=
                                                                 b.yar.loadAlertPct } }) ∧
  (∀ (v : PlacementIn), s.yar.lastEvalEl + 1000000000 ≤ elNs s → 
    exec (.placementEvaluation v) s = .next ((v.moves.take 8).foldl (applyMove v) (closeLoads { s with yar := { s.yar with lastEvalEl := elNs s } })))

/-- Tier 1. R399, R401, R403 to R405, R408, R413 to R415, R417: the transceiver profile, the settings, maps, nodes, keys, streams and downlink records
  are taken on operands within Table 15.9. -/
def Obligations.RadioCommandsComplete : Prop :=
  ∀ (h : Hdr) (s : State), let u := countCmd h s
  (∀ (p : CfProfileP), Admitted (cmd 0x0F01 .control false 672) h s → profileOk p = true → s.cf.state = .off → s.cf.nodes = [] ∨ timingSame s.cf
    { s.cf with profile := some p } = true → 
    exec (.cfXcvrProfile h p) s = .next (answer h 0x0F01 (done (setCf (p.chWords.zipIdx.foldl (fun c (w, k) => modChan k (fun x =>
      { x with word := w }) c) { s.cf with profile := some p }) u)))) ∧
  (∀ (p : CfConfigP) (c : CfBlk), Admitted (cmd 0x0F02 .control false 16) h s → p.enable.toNat < 2 → p.beaconMic.toNat < 3 → 25 ≤ p.sfMs.toNat →
    p.sfMs.toNat ≤ 1000 → 11 ≤ p.pollMax.toNat → p.pollMax.toNat ≤ 2047 → 10 ≤ p.respMax.toNat → p.respMax.toNat ≤ 2047 → 1 ≤ p.dwellMs.toNat →
    p.dwellMs.toNat ≤ 10000 → 1 ≤ p.dwellWinS.toNat → p.dwellWinS.toNat ≤ 3600 → 256 ≤ p.rekeyWarn.toNat → p.rekeyWarn.toNat ≤ 8388608 → sizesOk
    p.pollMax.toNat p.respMax.toNat s.cf = true → c = { s.cf with enable := decide (p.enable = 1), beaconMic := p.beaconMic.toNat, sfMs :=
                                                                    p.sfMs.toNat, pollMax := p.pollMax.toNat, respMax := p.respMax.toNat, dwellMs :=
                                                                    p.dwellMs.toNat, dwellWinS := p.dwellWinS.toNat, rekeyWarn := p.rekeyWarn.toNat }
    → s.cf.nodes = [] ∨ timingSame s.cf c = true → 
    exec (.cfConfig h p) s = .next (answer h 0x0F02 (done (if p.enable = 0 then cfOff (setCf c u)
      else if s.cf.state = .off ∧ s.cf.profile.isSome then cfEnable (setCf c u) else setCf c u)))) ∧
  (∀ (p : CfChannelMapP), Admitted (cmd 0x0F03 .control false 16) h s → p.mask ≠ 0 → Nat.gcd p.hopInc.toNat (HopMap.chans ⟨p.mask, p.hopInc.toNat,
    p.hopSeed.toNat⟩).length = 1 → p.hopSeed.toNat < 64 → p.rsv = 0 → 16 ≤ (p.switchSf - s.cf.sfNo).toNat → 
    exec (.cfChannelMap h p) s = .next (answer h 0x0F03 (done (modCf (fun c =>
      { c with mapNext := some (⟨p.mask, p.hopInc.toNat, p.hopSeed.toNat⟩, p.switchSf, c.sfIdx + (p.switchSf - c.sfNo).toNat), mapGen := c.mapGen + 1
                 }) u)))) ∧
  (∀ (p : CfNodeAddP) (q : CfProfileP) (ph sl : Nat), Admitted (cmd 0x0F04 .openC false 32) h s → p.node.toNat < 1024 → p.mic.toNat < 3 → p.rsv = 0 → 1
    ≤ p.pollDiv.toNat → p.pollDiv.toNat ≤ 256 → 500 ≤ p.superMs.toNat → p.superMs.toNat ≤ 32000 → 3 * p.pollDiv.toNat * s.cf.sfMs ≤ p.superMs.toNat →
    7 + micBytes p.mic.toNat ≤ s.cf.pollMax → 6 + micBytes p.mic.toNat ≤ s.cf.respMax → (getNode s p.node.toNat).all (fun v => decide (v.state =
    .closed) && mayName s h.part v.part) = true → s.cf.profile = some q → placeNode { s.cf with nodes := tdel s.cf.nodes p.node.toNat } (slotCount q
    { s.cf with nodes := tdel s.cf.nodes p.node.toNat }) p.pollDiv.toNat = some (ph, sl) → 
    ∃ k, k = p.node.toNat ∧
    ∃ old, old = getNode s k ∧
    ∃ l, l = nodeBefore s.cf k ∧
    exec (.cfNodeAdd h p) s = .next (answer h 0x0F04 (doneWith (leBytes 2 ph ++ leBytes 1 sl ++ [0]) (setCf
      { s.cf with nodes := tset (tdel s.cf.nodes k) k { state := .added, part := (old.map (fun o => o.part)).getD h.part, mic := p.mic.toNat, misses
                                                          := 0, eui64 := p.eui64, pollDiv := p.pollDiv.toNat, phase := ph, slot := sl, rxSeq := 0,
                                                          txSeq := 0, dl := [], ctr := 0, eSw := none, key := p.key, keyNext := none, keyPrev := none,
                                                          swAt := 0, sinceSw := 0, keyGen := l.keyGen + 1, rekeyRaised := false, superMs :=
                                                          p.superMs.toNat, lastRxTs := 0, superEl := elNs s, handle := old.bind (fun o => o.handle),
                                                          sensors := (old.map (fun o => o.sensors)).getD [], ack := false, polled := false, responses
                                                          := l.responses, missed := l.missed, dup := l.dup, micFail := l.micFail, dlFail := l.dlFail
                                                          }, left := tdel s.cf.left k } u)))) ∧
  (∀ (p : CfNodeP) (v : Node), Admitted (cmd 0x0F05 .openC false 4) h s → p.rsv = 0 → nodeNameable h p.node.toNat s = true → getNode s p.node.toNat =
    some v → nodeStreamFree s v = true → 
    exec (.cfNodeRemove h p) s = .next (answer h 0x0F05 (done (raise 0x0F06 2 (leBytes 2 p.node.toNat ++ [1]) (some v.part) (modCf (fun c =>
      { c with nodes := tdel c.nodes p.node.toNat, left := tset c.left p.node.toNat v.left }) (retireNodeStream p.node.toNat v u)))))) ∧
  (∀ (p : CfNodeKeyP) (v : Node), Admitted (cmd 0x0F06 .openC false 24) h s → p.rsv = 0 → p.node ≠ 0xFFFF → nodeNameable h p.node.toNat s = true →
    getNode s p.node.toNat = some v → v.ctr + 8 ≤ p.eSw.toNat → p.eSw.toNat < 2 ^ 24 → 
    exec (.cfNodeKey h p) s = .next (answer h 0x0F06 (done (modNode p.node.toNat (fun x =>
      { x with keyNext := some p.key, eSw := some p.eSw.toNat, keyGen := x.keyGen + 1 }) u)))) ∧
  (∀ (p : CfNodeKeyP), Admitted (cmd 0x0F06 .openC false 24) h s → p.rsv = 0 → p.node = 0xFFFF → s.host.controller = some h.part → 8 ≤ (p.eSw -
    s.cf.sfNo).toNat → 
    exec (.cfNodeKey h p) s = .next (answer h 0x0F06 (done (modCf (fun c =>
      { c with keyBNext := some p.key, eSwB := some (p.eSw, c.sfIdx + (p.eSw - c.sfNo).toNat), keyGenB := c.keyGenB + 1 }) u)))) ∧
  (∀ (p : CfNodeStreamP) (w : Node) (b n : Nat), Admitted (cmd 0x0F07 .openC false 24) h s → nodeMapOk p = true → nodeNameable h p.node.toNat s = true →
    getNode s p.node.toNat = some w → w.handle = none → addRefusal w.part p.n.toNat s = none → allocChans s p.n.toNat = some b → tfreeFrom
    s.ing.streams 262144 0 = some n → stashUsed s < 256 → 
    ∃ v, v = { newStream ⟨4, p.node, 1, 0, 0⟩ 0 p.level.toNat p.n.toNat b p.rate.toNat false w.part (elNs s) with state := .active, descs := nodeDescs
                                                                                                                    p.n.toNat } ∧
    ∃ x, enterDir n v u = some x ∧
    exec (.cfNodeStreamMap h p) s = .next (answer h 0x0F07 (doneWith (leBytes 4 n ++ leBytes 4 b)
      (modNode p.node.toNat (fun y => { y with handle := some n, sensors := (p.sensors.take p.n.toNat).map (fun z => z.toNat) })
        (oscResetStream n (placeNew 0 n (syncGrid n x))))))) ∧
  (∀ (p : CfNodeStreamP) (v : Node) (n : Nat), Admitted (cmd 0x0F07 .openC false 24) h s → p.rsv = 0 → nodeNameable h p.node.toNat s = true → getNode s
    p.node.toNat = some v → v.handle = some n → nodeStreamFree s v = true → 
    exec (.cfNodeStreamUnmap h p) s = .next (answer h 0x0F07 (doneWith (leBytes 4 n ++ leBytes 4 ((getStream s n).elim 0 (·.chanBase)))
      (retireNodeStream p.node.toNat v u)))) ∧
  (∀ (p : RingBindP), Admitted (cmd 0x0F08 .openC false 4) h s → p.rsv = 0 → p.ring ≠ 0xFF → ringFree s h.part p.ring.toNat false = true →
    s.cf.outRing.get h.part = none → 
    exec (.cfOutputBind h p) s = .next (answer h 0x0F08 (done (bindRing h.part p.ring.toNat .radio (modCf (fun c =>
      { c with outRing := c.outRing.set h.part (some p.ring.toNat) }) u))))) ∧
  (∀ (p : RingBindP) (n : Nat), Admitted (cmd 0x0F08 .openC false 4) h s → p.rsv = 0 → p.ring = 0xFF → s.cf.outRing.get h.part = some n → 
    exec (.cfOutputBind h p) s = .next (answer h 0x0F08 (done (unbindRing h.part n .radio (modCf (fun c =>
      { c with outRing := c.outRing.set h.part none }) u))))) ∧
  (∀ (p : CfSendP) (v : Node), Admitted (cmd 0x0F09 .openC false (4 + p.len.toNat)) h s → 0x80 ≤ p.type.toNat → p.type.toNat ≤ 0xFE → nodeNameable h
    p.node.toNat s = true → getNode s p.node.toNat = some v → 9 + micBytes v.mic + p.body.length ≤ s.cf.pollMax → v.dl.length < 4 → 
    exec (.cfSend h p) s = .next (answer h 0x0F09 (done (modNode p.node.toNat (fun x =>
      { x with dl := x.dl ++ [{ type := p.type, body := p.body, polls := 0, seq := none }] }) u))))

/-- Tier 1. R399 to R410, R415, Tables 15.2 and 15.4: the transceiver starts, superframes are planned and begin, beacons are sent or fail, nodes are
  polled, answer, miss polls and are closed. Frames are ciphered by an implementation function (log entry 5). -/
def Obligations.RadioEventsComplete : Prop :=
  ∀ (s : State),
  (∀ (status : U8), s.cf.state = .starting → s.cf.failEl = none → s.cf.startEl + 6000000 ≤ elNs s → 
    let a := runSeq 5 [] (runSeq 0 [] (modCf (fun x => { x with rstN := true }) s))
    exec (.cfResetWaitEnd status) s = .next (if statusReady s.cf status then
      raise 0x0F01 0 (leBytes 4 s.cf.sfNo.toNat) none (modCf (fun x => { x with state := .running, beaconFails := 0 }) a) else startFails a)) ∧
  (s.cf.state = .starting → s.cf.failEl = none → s.cf.startEl + 16000000 ≤ elNs s → 
    exec .cfIrqTimeout s = .next (startFails (runSeq 0 [] (modCf (fun x => { x with rstN := true }) s)))) ∧
  (∀ (e : Nat), s.cf.state = .starting → s.cf.failEl = some e → (e + (if s.cf.tries ≤ 3 then 1000000000 else 10000000000) ≤ elNs s) → 
    exec .cfStartupRetry s = .next (startUp s)) ∧
  (∀ (n st ch : Nat) (p : CfProfileP) (m : HopMap), nextSf s = (n, st) → (m = s.cf.mapNext.elim s.cf.map (fun e => if e.2.2 ≤ n then e.1 else s.cf.map))
    → s.cf.profile = some p → m.chanOf (n % 2 ^ 32) = some ch → s.cf.state = .running → st ≤ elNs s + 1000000 → s.cf.planIdx ≠ some n → 
    let sl := ((scheduled s.cf (n % 2 ^ 32)).map (·.1)).mergeSort (· ≤ ·)
    let fit := fitSlots p s.cf (s.cf.dwellMs * 1000000 - dwellUsed s ch) sl.length
    let a := modCf (fun c => { c with planIdx := some n, planSilent := fit.isNone, slotsPlan := lget sl (fit.getD 0) (2 ^ 32) }) s
    let b := bumpBy 0x0F000120 (sl.length - fit.getD 0) (bumpIf fit.isNone 0x0F000118 (modCf (modChan ch (fun x =>
      { x with dwellLimited := sat1 x.dwellLimited })) a))
    exec .superframePlanning s = .next (if fit = some sl.length then a
      else if s.cf.lastDwellEl.elim true (fun e => decide (e + 1000000000 ≤ elNs s)) then
        raise 0x0F09 1 (BitVec.ofNat 8 ch :: leBytes 2 (sl.length - fit.getD 0) ++ [if fit.isNone then 1 else 0]) none (modCf (fun c =>
          { c with lastDwellEl := some (elNs s) }) b)
      else b)) ∧
  (∀ (status : U8) (n st : Nat), nextSf s = (n, st) → s.cf.state = .running → st ≤ elNs s + 500000 → s.cf.checkIdx ≠ some n → s.cf.planIdx ≠ some n ∨
    s.cf.planSilent = false → 
    let a := runSeq 5 [] (modCf (fun c => { c with checkIdx := some n }) s)
    exec (.beaconStatusCheck status) s = .next (if statusReady s.cf status then a else beaconFailed 0 (modCf (fun c => { c with failIdx := some n })
      a))) ∧
  (∀ (n st ch : Nat) (p : CfProfileP) (a : State), nextSf s = (n, st) → s.cf.state ≠ .off → st ≤ elNs s → n % 2 ^ 32 ≠ 0 ∨ n = 0 ∨ s.cf.eSwB ≠ none → a
    = nodeEvents (n % 2 ^ 32) (beaconKey n (mapSwitch n (modCf (fun c => { c with sfIdx := n, sfNo := BitVec.ofNat 32 n, sfEl := some st }) s))) →
    a.cf.map.chanOf (n % 2 ^ 32) = some ch → a.cf.profile = some p → 
    exec .superframeStart s = .next (radioStart n ch p (modCf (fun c => { c with chan := ch, silent := decide (c.planIdx = some n) && c.planSilent })
      a))) ∧
  (∀ (node : U16) (v : Node) (p : CfProfileP), getNode s node.toNat = some v → s.cf.profile = some p → s.cf.state = .running → s.cf.sfEl.isSome = true →
    s.cf.silent = false → v.state ≠ .closed → s.cf.sfNo.toNat % v.pollDiv = v.phase → v.polled = false → (s.cf.planIdx = some s.cf.sfIdx → v.slot <
    s.cf.slotsPlan) → slotStart p s.cf v.slot ≤ elNs s → elNs s < slotEnd p s.cf v.slot → 
    exec (.slotPoll node) s = .next (sendPoll node.toNat v s)) ∧
  (∀ (node : U16) (v : Node) (p : CfProfileP), getNode s node.toNat = some v → s.cf.profile = some p → v.polled = true → slotEnd p s.cf v.slot ≤ elNs s
    → 
    let k := node.toNat
    let lost := decide (3 ≤ v.misses + 1) && decide (v.state = .added ∨ v.state = .connected)
    exec (.slotEnd node) s = .next (dropDl k (raiseIf lost 0x0F04 2 (leBytes 2 k ++ leBytes 8 v.lastRxTs) (some v.part) (bump 0x0F000138
      (modNode k (fun x => { x with polled := false, misses := min (v.misses + 1) 255, missed := sat1 x.missed, state := if lost then .lostPending
                                      else x.state }) s))))) ∧
  (∀ (node : U16) (v : Node), getNode s node.toNat = some v → v.state = .added ∨ v.state = .lostPending → v.superEl + v.superMs * 1000000 ≤ elNs s → 
    exec (.nodeSupervisionTimeout node) s = .next (raise 0x0F06 2 (leBytes 2 node.toNat ++ [0]) (some v.part) (closeNode node.toNat s))) ∧
  (s.cf.state ≠ .off → 
    exec (.cfIrq .sync) s = .next (modCf (fun c => { c with syncEl := some (elNs s), syncTs := taiNs s - s.cf.profile.elim 0 (fun p =>
                                                              p.rxLatNs.toNat) }) (runSeq 7 [] s))) ∧
  (s.cf.state ≠ .off → 
    exec (.cfIrq .rxEnd) s = .next (runSeq 6 [] (runSeq 7 [] s))) ∧
  (s.cf.state ≠ .off → s.cf.txEl ≠ none → 
    exec (.cfIrq .txEnd) s = .next (bump 0x0F000100 (modCf (fun c => { c with txEl := none, beaconFails := 0 }) (runSeq 4 [] (runSeq 7 [] s))))) ∧
  (∀ (e : Nat) (p : CfProfileP), s.cf.txEl = some e → s.cf.profile = some p → e + nsOf p (airN p (15 + micBytes s.cf.beaconMic)) + 2000000 ≤ elNs s → 
    exec .beaconTxTimeout s = .next (beaconFailed 1 s)) ∧
  (∀ (r : CfResponse), s.cf.state = .running → r.len.toNat < 9 ∨ 2047 < r.len.toNat → 
    exec (.responseRx r) s = .next (bump 0x0F000158 s)) ∧
  (∀ (r : CfResponse) (v : Node), s.cf.state = .running → 9 ≤ r.len.toNat → r.len.toNat ≤ 2047 → getNode s r.addr.toNat = some v → v.state ≠ .closed →
    responseOk v r = true → 
    exec (.responseRx r) s = .next (validResponse r.addr.toNat v r s)) ∧
  (∀ (r : CfResponse) (v : Node), s.cf.state = .running → 9 ≤ r.len.toNat → r.len.toNat ≤ 2047 → getNode s r.addr.toNat = some v → v.state ≠ .closed →
    responseOk v r = false → 
    exec (.responseRx r) s = .next (bump 0x0F000140 (modNode r.addr.toNat (fun x => { x with micFail := sat1 x.micFail }) s)))

/-- Tier 1. R419 to R422, R426: the quantum is set, jobs open and close, and segments pass through the two pipelines. -/
def Obligations.DillCompletes : Prop :=
  ∀ (s : State),
  (∀ (h : Hdr) (p : DillConfigP), Admitted (cmd 0x1001 .control false 4) h s → 64 ≤ p.quantumKib.toNat → p.quantumKib.toNat ≤ 4096 → p.rsv = 0 → 
    ∃ u, u = countCmd h s ∧
    exec (.dillConfig h p) s = .next (answer h 0x1001 (done { u with dill := { s.dill with quantumKib := p.quantumKib.toNat } }))) ∧
  (∀ (h : Hdr) (p : DillOpenP) (j : Nat) (v : Job), Admitted (cmd 0x1002 .openC false 32) h s → dillOpenOk h p s = true → tfreeFrom s.dill.jobs 48 16 =
    some j → (v = { state := .idle, owner := h.part, decomp := decide (p.dir = 1), zlib := decide (p.fmt = 1), effort := p.effort.toNat, level :=
                      p.level.toNat, inRing := p.inRing.toNat, outRing := p.outRing.toNat, absLimit := decide (p.limMode = 1), ratio := if p.dir = 1 ∧
                      p.limMode = 0 ∧ p.ratio = 0 then 1024 else p.ratio.toNat, status := 0, limitBytes := p.limitBytes.toNat, inTotal :=
                      p.inTotal.toNat, inBytes := 0, outBytes := 0, adlerA := 1, adlerB := 0, segments := 0, openTs := taiNs s, notSmaller := false,
                      hist := [], bits := [], inf := if p.fmt = 1 then .zlibHeader else .header, comp := 0, pendingIn := [], taken := 0, ran := 0,
                      emit := none, lastRunEl := elNs s, waitEl := none, closing := none, closeReq := false }) → 
    ∃ u, u = countCmd h s ∧
    exec (.dillJobOpen h p) s = .next (answer h 0x1002 (doneWith [BitVec.ofNat 8 j, 0, 0, 0] (bump 0x10000100 (bindRing h.part p.outRing.toNat (.dill
      j) (bindRing h.part p.inRing.toNat (.dill j) { u with dill := { s.dill with jobs := tset s.dill.jobs j v } })))))) ∧
  (∀ (h : Hdr) (p : DillCloseP) (v : Job), Admitted (cmdLong 0x1003 .openC false 4) h s → 16 ≤ p.job.toNat → p.job.toNat < 64 → p.rsv = 0 → getJob s
    p.job.toNat = some v → mayName s h.part v.owner = true → v.closing = none → 
    ∃ u, u = countCmd h s ∧
    exec (.dillJobClose h p) s = .next (answer h 0x1003 (⟨.accepted, [], modJob p.job.toNat (fun x =>
      { x with closing := some s.host.longNext, closeReq := true }) (startLong h 0x1003 100 u).2⟩))) ∧
  (∀ (job : BitVec 6) (v : Job), getJob s job.toNat = some v → v.closeReq = true → 
    exec (.dillJobFreed job) s = .next (freeJob job.toNat v s)) ∧
  (∀ (seg : DillSegmentP) (v : Job), getJob s seg.job.toNat = some v → v.closeReq = false → hostReads s v.owner = true → (v.pendingIn.length + (if
    v.emit.isSome then 1 else 0) < chainsIn s v.owner v.inRing) → v.state = .done ∨ v.state = .failed → 
    exec (.dillSegment seg) s = .next (completeSegment v (if v.notSmaller then .notSmaller else .busy) s)) ∧
  (∀ (seg : DillSegmentP) (v : Job) (w : State), getJob s seg.job.toNat = some v → v.closeReq = false → hostReads s v.owner = true → (v.pendingIn.length
    + (if v.emit.isSome then 1 else 0) < chainsIn s v.owner v.inRing) → v.state = .idle ∨ v.state = .running → w = modJob seg.job.toNat (fun x =>
    { x with pendingIn := x.pendingIn ++ [{ flush := seg.flags.getLsbD 0, final := seg.flags.getLsbD 1, tag := seg.tag, poisoned := decide (seg.poison
                                              ≠ 0), data := seg.data }] }) (poisonDma v.owner seg.poison.toNat s) → pipeJob w v.decomp = none → 
    exec (.dillSegment seg) s = .next (takeUp seg.job.toNat w)) ∧
  (∀ (seg : DillSegmentP) (v : Job) (w : State), getJob s seg.job.toNat = some v → v.closeReq = false → hostReads s v.owner = true → (v.pendingIn.length
    + (if v.emit.isSome then 1 else 0) < chainsIn s v.owner v.inRing) → v.state = .idle ∨ v.state = .running → w = modJob seg.job.toNat (fun x =>
    { x with pendingIn := x.pendingIn ++ [{ flush := seg.flags.getLsbD 0, final := seg.flags.getLsbD 1, tag := seg.tag, poisoned := decide (seg.poison
                                              ≠ 0), data := seg.data }] }) (poisonDma v.owner seg.poison.toNat s) → pipeJob w v.decomp = some
    seg.job.toNat → 
    exec (.dillSegment seg) s = .next (runJob seg.job.toNat (2 * v.pendingIn.length + 4) w)) ∧
  (∀ (seg : DillSegmentP) (v : Job) (w : State) (k : Nat), getJob s seg.job.toNat = some v → v.closeReq = false → hostReads s v.owner = true →
    (v.pendingIn.length + (if v.emit.isSome then 1 else 0) < chainsIn s v.owner v.inRing) → v.state = .idle ∨ v.state = .running → w = modJob
    seg.job.toNat (fun x => { x with pendingIn := x.pendingIn ++
                                       [{ flush := seg.flags.getLsbD 0, final := seg.flags.getLsbD 1, tag := seg.tag, poisoned := decide (seg.poison ≠
                                            0), data := seg.data }] }) (poisonDma v.owner seg.poison.toNat s) → pipeJob w v.decomp = some k → k ≠
    seg.job.toNat → (getJob w k).elim false Job.ready = true → 
    exec (.dillSegment seg) s = .next w) ∧
  (∀ (seg : DillSegmentP) (v : Job) (w : State) (k : Nat), getJob s seg.job.toNat = some v → v.closeReq = false → hostReads s v.owner = true →
    (v.pendingIn.length + (if v.emit.isSome then 1 else 0) < chainsIn s v.owner v.inRing) → v.state = .idle ∨ v.state = .running → w = modJob
    seg.job.toNat (fun x => { x with pendingIn := x.pendingIn ++
                                       [{ flush := seg.flags.getLsbD 0, final := seg.flags.getLsbD 1, tag := seg.tag, poisoned := decide (seg.poison ≠
                                            0), data := seg.data }] }) (poisonDma v.owner seg.poison.toNat s) → pipeJob w v.decomp = some k → k ≠
    seg.job.toNat → (getJob w k).elim false Job.ready = false → 
    exec (.dillSegment seg) s = .next (takeUp seg.job.toNat (leaveJob v.decomp w))) ∧
  (∀ (decomp : Bool) (j : Nat), nextJob s decomp = none → pipeJob s decomp = some j → 
    exec (.dillJobSwitch decomp) s = .next (runJob j (2 * ((getJob s j).elim 0 (fun v => v.pendingIn.length)) + 2) s)) ∧
  (∀ (decomp : Bool) (j : Nat), nextJob s decomp = some j → 
    exec (.dillJobSwitch decomp) s = .next (takeUp j (leaveJob decomp s)))

/-- Tier 1. R439, R445, R449, R450, R452: the read window moves, rates are set and removed, OTP and image writes start, and the wear settings are taken,
  on operands within Table 17.12. -/
def Obligations.RecorderCommandsComplete : Prop :=
  ∀ (h : Hdr) (s : State), let u := countCmd h s
  (∀ (p : PoppyCursorP), Admitted (cmd 0x1101 .openC true 16) h s → p.rsv = 0 → p.value.toNat < 2 ^ 48 → 
    exec (.poppyCursorAbsolute h p) s = .next (answer h 0x1101 (done (setWin h.part p.value.toNat u)))) ∧
  (∀ (p : PoppyCursorP) (n : Nat), Admitted (cmd 0x1101 .openC true 16) h s → p.rsv = 0 → (s.pop.winFirst.get h.part : Int) + p.value.toInt = n → n < 2
    ^ 48 → 
    exec (.poppyCursorRelative h p) s = .next (answer h 0x1101 (done (setWin h.part n u)))) ∧
  (∀ (p : PoppyCursorP), Admitted (cmd 0x1101 .openC true 16) h s → p.rsv = 0 → p.value = 0 → 
    exec (.poppyCursorFirstKept h p) s = .next (answer h 0x1101 (done (setWin h.part 0 u)))) ∧
  (∀ (p : PoppyCursorP), Admitted (cmd 0x1101 .openC true 16) h s → p.rsv = 0 → p.value = 0 → 
    exec (.poppyCursorOldestCirc h p) s = .next (answer h 0x1101 (done (setWin h.part s.pop.oldestCirc u)))) ∧
  (∀ (p : PoppyCursorP), Admitted (cmd 0x1101 .openC true 16) h s → p.rsv = 0 → p.value = 0 → 64 ≤ s.pop.nextRec → 
    exec (.poppyCursorLatest h p) s = .next (answer h 0x1101 (done (setWin h.part (s.pop.nextRec - 64) u)))) ∧
  (∀ (p : PoppyCursorP), Admitted (cmd 0x1101 .openC true 16) h s → p.rsv = 0 → p.value = 0 → s.pop.nextRec < 64 → 
    ∃ w, w = fresh u ∧
    exec (.poppyCursorLatest h p) s = .next (answer h 0x1101 (done (setWin h.part (w.1 % 2 ^ 48) w.2)))) ∧
  (∀ (p : PoppyRateP), Admitted (cmd 0x1102 .control false 8) h s → p.rsv = 0 → 1 ≤ p.rate.toNat → p.rate.toNat ≤ 1000 → 1 ≤ p.burst.toNat →
    p.burst.toNat ≤ 1000 → p.code = 0 → 
    exec (.poppyRateSet h p) s = .next (answer h 0x1102 (done (setDefaults p.rate.toNat p.burst.toNat u)))) ∧
  (∀ (p : PoppyRateP) (k : Nat), Admitted (cmd 0x1102 .control false 8) h s → p.rsv = 0 → 1 ≤ p.rate.toNat → p.rate.toNat ≤ 1000 → 1 ≤ p.burst.toNat →
    p.burst.toNat ≤ 1000 → eventCode p.code = true → tfind (fun _ o => decide (o.code = p.code)) s.pop.overrides = none → tfreeFrom s.pop.overrides 64
    0 = some k → 
    exec (.poppyRateSet h p) s = .next (answer h 0x1102 (done (setBucket p.code.toNat (rebase u p.burst.toNat (bucketNow u p.code.toNat))
      { u with pop := { s.pop with overrides := tset s.pop.overrides k ⟨p.code, p.rate.toNat, p.burst.toNat⟩ } })))) ∧
  (∀ (p : PoppyRateP) (k : Nat) (o : RateOvr), Admitted (cmd 0x1102 .control false 8) h s → p.rsv = 0 → 1 ≤ p.rate.toNat → p.rate.toNat ≤ 1000 → 1 ≤
    p.burst.toNat → p.burst.toNat ≤ 1000 → eventCode p.code = true → tfind (fun _ o => decide (o.code = p.code)) s.pop.overrides = some (k, o) → 
    exec (.poppyRateSet h p) s = .next (answer h 0x1102 (done (setBucket p.code.toNat (rebase u p.burst.toNat (bucketNow u p.code.toNat))
      { u with pop := { s.pop with overrides := tset s.pop.overrides k ⟨p.code, p.rate.toNat, p.burst.toNat⟩ } })))) ∧
  (∀ (p : PoppyRateP), Admitted (cmd 0x1102 .control false 8) h s → p.rsv = 0 → p.rate = 0 → p.burst = 0 → p.code = 0 → 
    exec (.poppyRateRemove h p) s = .next (answer h 0x1102 (done (setDefaults 10 20 u)))) ∧
  (∀ (p : PoppyRateP), Admitted (cmd 0x1102 .control false 8) h s → p.rsv = 0 → p.rate = 0 → p.burst = 0 → p.code ≠ 0 → tany (fun _ o => decide (o.code
    = p.code)) s.pop.overrides = true → 
    exec (.poppyRateRemove h p) s = .next (answer h 0x1102 (done (setBucket p.code.toNat (rebase u s.pop.defBurst (bucketNow u p.code.toNat))
      { u with pop := { s.pop with overrides := tkeep (fun _ o => decide (o.code ≠ p.code)) s.pop.overrides } })))) ∧
  (∀ (p : OtpWriteP), (Admitted (cmdLong 0x1103 .control false (if p.group = 2 then 128 else 192)) h s) → p.rsv = 0 → (p.group = 0 ∧ bootContentOk
    p.content = true) ∨ (p.group = 2 ∧ defContentOk p.content = true) → (otpGroup s p.group.toNat).length < 4 → s.pop.otpPending = none → 
    ∃ v, v = (startLong h 0x1103 1000 u).2 ∧
    exec (.otpWrite h p) s = .next (answer h 0x1103 (⟨.accepted, [],
      { v with pop := { v.pop with otpPending := some (p.group, p.content, s.host.longNext, h.part) } }⟩))) ∧
  (∀ (p : FlashImageWriteP), Admitted ⟨0x1104, .control, false, true, 8, decide (p.target.toNat < 2)⟩ h s → p.rsv = 0 → p.target.toNat < 3 → (if
    p.target = 2 then p.slot.toNat < 32 else p.slot = 0) → p.ring.toNat < 64 → (if p.target = 2 then 256 ≤ p.bytes.toNat ∧ p.bytes.toNat ≤ 164096 else
    1 ≤ p.bytes.toNat ∧ p.bytes.toNat ≤ 8388608) → ringFree s h.part p.ring.toNat true = true → writesRunning s p.target.toNat = false → 
    ∃ v, v = (startLong h 0x1104 30000 u).2 ∧
    exec (.flashImageWrite h p) s = .next (answer h 0x1104 ⟨.accepted, [], bindRing h.part p.ring.toNat .image { v with
      pop := { v.pop with imgPending := s.pop.imgPending ++ [⟨p.target, p.slot.toNat, p.ring.toNat, p.bytes.toNat, some s.host.longNext, h.part⟩] }
        }⟩)) ∧
  (∀ (p : FlashConfigP), Admitted (cmd 0x1105 .control false 8) h s → p.rsv = 0 → 1000 ≤ p.endurance.toNat → p.endurance.toNat ≤ 10000000 → 50 ≤
    p.wearPct.toNat → p.wearPct.toNat ≤ 99 → 
    exec (.flashConfig h p) s = .next (answer h 0x1105 (done ((List.range 11).foldl (fun a r => checkWear r a)
      { u with pop := { s.pop with endurance := p.endurance.toNat, wearPct := p.wearPct.toNat } }))))

/-- Tier 1. R433, R434, R443 to R445, R447, R449, R450: codes leave LIMITED, flushes begin and end, operating time is logged, and OTP and image writes
  end. -/
def Obligations.RecorderEventsComplete : Prop :=
  ∀ (s : State),
  (∀ (code : U16) (k : Bucket), k = bucketNow s code.toNat → k.limited = true → (rateOf s code.toNat).2 ≤ k.tokens → 
    exec (.rateLimitRefill code) s = .next (raiseRaw 0x1101 1 (leBytes 2 code.toNat ++ leBytes 4 (min k.suppressed (2 ^ 32 - 1)) ++ leBytes 4
      (k.lastMs - k.firstMs)) none (setBucket code.toNat { k with limited := false, suppressed := 0 } s))) ∧
  (s.pop.periodicEl + 10000000000 ≤ elNs s → s.pop.buffer ≠ [] → 
    ∃ v, v = { s with pop := { s.pop with periodicEl := s.pop.periodicEl + 10000000000 } } ∧
    exec .flushPeriodic s = .next (beginFlush v)) ∧
  (s.pop.periodicEl + 10000000000 ≤ elNs s → s.pop.buffer = [] → 
    exec .flushPeriodic s = .next ({ s with pop := { s.pop with periodicEl := s.pop.periodicEl + 10000000000 } })) ∧
  (512 ≤ s.pop.buffer.length ∨ s.pop.buffer.any (fun r => decide (r.severity = 3)) = true ∨ s.dev.resetReq ≠ none → 
    exec .flushStart s = .next ({ s with pop := { s.pop with flushing := true, flushEnd := s.pop.nextRec } })) ∧
  (s.pop.flushing = true → 
    exec (.flushDone true) s = .next (reportOverflow (bump 0x11000108 ((s.pop.buffer.filter (fun r => decide (r.num < s.pop.flushEnd))).foldl (fun t r
      => storeRec r t) { s with pop := { s.pop with buffer := s.pop.buffer.filter (fun r => decide (s.pop.flushEnd ≤ r.num)), flushing := false,
                                                      lastFlushTs := BitVec.ofNat 64 (taiNs s) } })))) ∧
  (∀ (n : Nat), s.pop.flushing = true → n = (s.pop.buffer.head?.map (·.num)).getD s.pop.nextRec → 
    ∃ v, v = bump 0x11000128 { s with pop := { s.pop with flushing := false } } ∧
    exec (.flushDone false) s = .next (raise 0x1105 3 ((if n < 32768 then 3 else 4) :: leBytes 4 (recAddr s n)) none v)) ∧
  (∀ (v : State), s.pop.opLogEl + 10000000000 ≤ elNs s → (v = { s with pop :=
                                                                       { s.pop with opLogEl := s.pop.opLogEl + 10000000000, opLogged := opSeconds s,
                                                                                      opCells := s.pop.opCells + 1, satsum := if 2 ^ 32 - 1 ≤
                                                                                      opSeconds s / 3600 then s.pop.satsum ||| 2 else s.pop.satsum }
                                                                       }) → 
    exec .opTimeLogWrite s = .next (if s.pop.opCells % 4096 = 0 then eraseSectors 5 [0x133 + s.pop.opCells / 4096 % 2] v else v)) ∧
  (∀ (g : U8) (c : Bytes) (id : Nat) (p : HP) (l : Tbl OtpGen) (v : State), s.pop.otpPending = some (g, c, id, p) → l = writeGen (otpGroup s g.toNat) c
    → v = refreshOtp (setOtpGroup g.toNat l { s with pop := { s.pop with otpPending := none } }) → 
    exec (.otpWriteDone true) s = .next (completeLong id .ok [BitVec.ofNat 8 l.length] (otpEvents g.toNat l.length p l.length v))) ∧
  (∀ (i : ImageIn) (w : ImageWrite) (rest : List ImageWrite) (v x : State), s.pop.imgPending = w :: rest → recovering s = false → hostReads s w.part =
    true → w.bytes ≤ i.img.bytes.length → v = unbindRing w.part w.ring .image { s with pop := { s.pop with imgPending := rest } } → x = eraseSectors
    (imageSectors w.target.toNat w.slot).1 (imageSectors w.target.toNat w.slot).2
    { v with pop := { v.pop with images := tset v.pop.images (imgKey w.target.toNat w.slot) (i.img.bytes.take w.bytes) } } → w.target ≠ 2 → i.ok =
    true → 
    exec (.flashImageWritten i) s = .next (completeOpt w.long .ok [] (raise 0x1109 1 (w.target :: BitVec.ofNat 8 w.slot :: leBytes 4 i.version.toNat)
      none (writeDir (putImage w.target.toNat w.slot ⟨true, w.bytes, i.version, 0, i.sha⟩ (currentDir x)) x)))) ∧
  (∀ (i : ImageIn) (w : ImageWrite) (rest : List ImageWrite) (v x : State) (b : Beleth), s.pop.imgPending = w :: rest → recovering s = false → hostReads
    s w.part = true → w.bytes ≤ i.img.bytes.length → v = unbindRing w.part w.ring .image { s with pop := { s.pop with imgPending := rest } } → x =
    eraseSectors (imageSectors w.target.toNat w.slot).1 (imageSectors w.target.toNat w.slot).2
    { v with pop := { v.pop with images := tset v.pop.images (imgKey w.target.toNat w.slot) (i.img.bytes.take w.bytes) } } → w.target = 2 → b =
    readBeleth { i.img with bytes := i.img.bytes.take w.bytes } → belethCheck v (i.img.bytes.take w.bytes).length b = none → 
    exec (.flashImageWritten i) s = .next (completeOpt w.long .ok [] (raise 0x1109 1 (w.target :: BitVec.ofNat 8 w.slot :: leBytes 4
      b.imageVersion.toNat) none (writeDir (putImage w.target.toNat w.slot ⟨true, w.bytes, b.imageVersion, b.imageId, 0⟩ (currentDir x)) x)))) ∧
  (∀ (i : ImageIn) (w : ImageWrite) (rest : List ImageWrite) (v : State), s.pop.imgPending = w :: rest → recovering s = true ∨ hostReads s w.part = true
    → w.bytes ≤ i.img.bytes.length → v = unbindRing w.part w.ring .image { s with pop := { s.pop with imgPending := rest } } → w.target ≠ 2 → i.ok =
    false → 
    exec (.flashImageWritten i) s = .next (completeOpt w.long .badParam [] v)) ∧
  (∀ (i : ImageIn) (w : ImageWrite) (rest : List ImageWrite) (v : State), s.pop.imgPending = w :: rest → recovering s = true ∨ hostReads s w.part = true
    → w.bytes ≤ i.img.bytes.length → v = unbindRing w.part w.ring .image { s with pop := { s.pop with imgPending := rest } } → w.target = 2 →
    (belethCheck v (i.img.bytes.take w.bytes).length (readBeleth { i.img with bytes := i.img.bytes.take w.bytes })).isNone = false → 
    exec (.flashImageWritten i) s = .next (completeOpt w.long .badParam [] v))

/-- Tier 1. R437, R454 to R457, R462, R463, R465, R467: PORN, power-on, the end of boot, and each kind of reset; the boot path clears the device and
  runs the stages, or waits on PFAIL_N. -/
def Obligations.ResetsAndBootComplete : Prop :=
  ∀ (s : State),
  (∀ (v : State) (r : Option Nat), s.dev.porn = true → v = clearAll s → (r = if s.dev.boot = .ready ∧ ¬ (s.eq.flushHdr.isSome = true ∧ s.eq.flushing =
    false ∧ s.eq.flushImg.elim false (fun g => g.crcOk) = true) then some (recEnd v - 1) else s.dev.uncleanRec) → 
    exec .pornAssert s = .next ({ v with dev := { v.dev with porn := false, bootIn := none, uncleanRec := r } })) ∧
  (∀ (b : BootIn) (v : State), s.dev.porn = false ∨ s.dev.boot = .reset → v = { s with dev := { s.dev with porn := true } } → 
    exec (.powerOnReset b) s = .next (restart .powerOn 0 b (countCycle v))) ∧
  (∀ (stage : BitVec 3), s.dev.boot = .booting → s.dev.pfailWait = false → 1 ≤ stage.toNat → stage.toNat ≤ 6 → 
    ∃ t, exec (.bootStageTimeout stage) s = .next t ∧ t = stageLate stage.toNat s ∧ t.dev.boot = .halted ∧ t.dev.stage = stage.toNat ∧ t.dev.haltCode
      = 8) ∧
  (∀ (stageMs : List U16), s.dev.boot = .booting → s.dev.pfailWait = false → stageOver stageMs = none → 
    ∃ t, exec (.bootReady stageMs) s = .next t ∧ t.dev.boot = .ready ∧ t.dev.stage = 6 ∧ t.dev.bootMs = BitVec.ofNat 32 (elNs s / 1000000) ∧
      t.dev.readyTs = BitVec.ofNat 64 (taiNs s) ∧ t.dev.warnings = [] ∧ t.eq.readyEl = elNs s) ∧
  (∀ (stageMs : List U16) (k : Nat), s.dev.boot = .booting → s.dev.pfailWait = false → stageOver stageMs = some k → 
    exec (.bootReady stageMs) s = .next (stageLate k s)) ∧
  (∀ (b : BootIn) (u : Option Nat) (v : State), s.dev.porn = true → s.eq.flushing = false → (u = if s.dev.boot = .ready then some (recEnd s - 1) else
    s.dev.uncleanRec) → v = { s with dev := { s.dev with uncleanRec := u, bootIn := none } } → 
    exec (.systemReset b) s = .next (restart .system 0 b v)) ∧
  (∀ (b : BootIn), s.dev.porn = true → s.eq.flushing = true → 
    exec (.systemReset b) s = .next ({ s with dev := { s.dev with srstPending := true, bootIn := some b } })) ∧
  (∀ (b : BootIn), s.dev.porn = true → s.eq.flushing = false → s.dev.boot = .ready → 
    exec (.watchdogExpiry b) s = .next (restart .watchdog 0 b (saveAll s))) ∧
  (∀ (b : BootIn), s.dev.porn = true → s.eq.flushing = false → s.dev.boot = .ready → 
    exec (.firmwareHalt b) s = .next (restart .firmwareHalt 0 b (saveAll s))) ∧
  (∀ (h : Hdr) (p : DeviceResetP), Admitted ⟨0x0106, .control, true, false, 8, true⟩ h s → p.confirm = 0x6250 → p.image.toNat < 3 → p.rsv = 0 →
    s.dev.pfailN = true → 
    ∃ u, u = countCmd h s ∧
    exec (.deviceReset h p) s = .next (answer h 0x0106 (done (beginFlush (raise 0x0113 2 [BitVec.ofNat 8 h.part.val, p.image] none
      { u with dev := { s.dev with resetReq := some p.image } }))))) ∧
  (∀ (b : BootIn) (img : U8), s.dev.resetReq = some img → s.dev.porn = true → s.eq.flushing = false → 
    exec (.deviceResetExecute b) s = .next (restart .commanded img b (saveAll s))) ∧
  (∀ (cause : Cause) (ovr : U8) (b : BootIn) (u v : State), s.dev.pfailN = true → u = clearAll s → v =
    { u with dev := { u.dev with cause, ovr, boot := .booting } } → 
    restart cause ovr b s = bootStages ovr b v) ∧
  (∀ (cause : Cause) (ovr : U8) (b : BootIn) (u : State), s.dev.pfailN = false → u = clearAll s → 
    restart cause ovr b s = { u with dev := { u.dev with cause, ovr, boot := .booting, pfailWait := true, bootIn := none } })

/-- Tier 1. R303, R304, R434, R455, R462: PFAIL_N falls and rises, the power-fail flush ends with the image and the records, and the start-up gap closes
  after 60 s. -/
def Obligations.PowerFailureCompletes : Prop :=
  ∀ (s : State),
  (∀ (tf : Nat) (v : State), s.dev.pfailN = true → s.dev.boot = .ready → (s.eq.tf = some tf ∧ s.eq.resume = none) ∨ ((s.eq.tf = none ∨
    s.eq.resume.isSome = true) ∧ tf = failInstant s) → v = { s with dev := { s.dev with pfailN := false, c0Off := true } } → 
    exec .pfailAssert s = .next ({ v with eq := { v.eq with tf := some tf, resume := none, riseEl := none, flushing := true, flushImg := none,
                                                              flushHdr := some (tf, s.eq.saveSeq + 1) }, pop := { v.pop with flushUnreported := true }
                                            })) ∧
  (s.dev.pfailN = true → s.dev.boot = .booting → 
    exec .pfailAssert s = .next ({ s with dev := { s.dev with pfailN := false, c0Off := true, pfailWait := true } })) ∧
  (∀ (b : BootIn) (v : State), s.dev.pfailN = false → s.dev.pfailWait = false → s.eq.tf.isSome = true → v =
    { s with dev := { s.dev with pfailN := true }, eq := { s.eq with riseEl := some (elNs s) } } → 
    exec (.pfailRise b) s = .next (reportFlush v)) ∧
  (∀ (b : BootIn) (v : State), s.dev.pfailN = false → s.dev.pfailWait = true → v = { s with dev := { s.dev with pfailN := true } } → 
    exec (.pfailRise b) s = .next (resumeBoot b v)) ∧
  (∀ (complete : Bool) (tf : Nat) (seq : U32) (v : State), s.eq.flushing = true → s.eq.flushHdr = some (tf, seq) → s.dev.srstPending = false → (v =
    { s with eq := { s.eq with flushing := false, flushImg := some (failImage tf seq complete s) }, pop :=
               { s.pop with flushSlot := if complete then s.pop.buffer else [] } }) → 
    exec (.powerFailFlushEnd complete) s = .next (reportFlush (bumpIf complete 0x0B000110 v))) ∧
  (∀ (complete : Bool) (tf : Nat) (seq : U32) (v : State) (b : BootIn), s.eq.flushing = true → s.eq.flushHdr = some (tf, seq) → s.dev.srstPending = true
    → s.dev.bootIn = some b → (v = { s with eq := { s.eq with flushing := false, flushImg := some (failImage tf seq complete s) }, pop :=
                                              { s.pop with flushSlot := if complete then s.pop.buffer else [] } }) → 
    exec (.powerFailFlushEnd complete) s = .next (systemReset b complete (reportFlush (bumpIf complete 0x0B000110 v)))) ∧
  (s.dev.boot = .ready → s.clk.timeValid = false → s.eq.readyEl + 60000000000 ≤ elNs s → 
    exec .startupGapTimeout s = .next ({ s with eq := { s.eq with startTimeout := true } }))

/-- Tier 1. R39, R458, R459, R478: an opcode that does not exist is answered BAD-OPCODE (or BAD-LENGTH where the length is past 4,080) and changes
  nothing else; the TAP controller moves on rising edges of TCK, acts on them, and updates on falling edges. -/
def Obligations.UndefinedOpcodesAndTapComplete : Prop :=
  ∀ (s : State),
  (∀ (h : Hdr) (opcode : U16), opcodeDefined opcode.toNat = false → (getPart s h.part).present = true → s.dev.boot = .ready → cached s h = none → 
    exec (.undefinedOpcode h opcode) s = .next (answer h opcode.toNat (refuse (if 4080 < h.length.toNat then .badLength else .badOpcode) (countCmd h
      s)))) ∧
  (∀ (h : Hdr) (opcode : U16), opcodeDefined opcode.toNat = false → (getPart s h.part).present = true → recovering s = true → h.part = 0 → h.urg = false
    → 
    exec (.undefinedOpcode h opcode) s = .next (respond h opcode.toNat (if 4080 < h.length.toNat then Sts.badLength else Sts.badOpcode).w [] false s)) ∧
  (∀ (e : TckEdge), e.trstN = false → 
    exec (.jtagTck e) s = .next ({ s with jtag := { s.jtag with tap := .reset, instr := .idcode, driving := false, tdo := none } })) ∧
  (∀ (e : TckEdge), e.trstN = true → e.rising = true → 
    ∃ t, exec (.jtagTck e) s = .next t ∧ t.jtag.tap = s.jtag.tap.next e.tms ∧ t.jtag.instr = s.jtag.instr ∧ t.jtag.boundary = s.jtag.boundary ∧
      t.jtag.irShift = (if s.jtag.tap = .shIr then s.jtag.irShift.drop 1 ++ [e.tdi] else if s.jtag.tap = .capIr then [true, false] ++ (List.range
      (Config.tapIrLen - 2)).map Config.tapIrCapture else s.jtag.irShift) ∧ (s.jtag.tap = .shDr → t.jtag.drShift = s.jtag.drShift.drop 1 ++ [e.tdi]) ∧
      (s.jtag.tap = .capDr → s.jtag.instr = .idcode → t.jtag.drShift = idcodeBits) ∧ (s.jtag.tap = .capDr → s.jtag.instr = .bypass → t.jtag.drShift =
      [false]) ∧ OnlyIn [.jtag, .free] s t) ∧
  (∀ (e : TckEdge), e.trstN = true → e.rising = false → s.jtag.tap = .updIr → 
    exec (.jtagTck e) s = .next ({ s with jtag := { s.jtag with instr := tapInstr s.jtag.irShift, driving := decide (tapInstr s.jtag.irShift =
                                                                  .extest), tdo := none } })) ∧
  (∀ (e : TckEdge), e.trstN = true → e.rising = false → 
    ∃ t, exec (.jtagTck e) s = .next t ∧ t.jtag.tap = s.jtag.tap ∧ (s.jtag.tap = .reset → t.jtag.instr = .idcode ∧ t.jtag.driving = false) ∧
      (s.jtag.tap = .updDr → t.jtag.boundary = if s.jtag.instr = .samplePreload ∨ s.jtag.instr = .extest then s.jtag.drShift else s.jtag.boundary) ∧
      (s.jtag.tap = .shDr → t.jtag.tdo = some (s.jtag.drShift.headD false)) ∧ OnlyIn [.jtag] s t)

/-- Tier 2. R48: an event is written at EVT_PROD mod 256, which then advances; no entry between EVT_CONS and EVT_PROD is overwritten; with 256 entries
  standing an event is not written, counts EVT_LOST and still takes a sequence number; when space returns EVENTS-LOST is written first, in
  that ring alone; EVT_CONS moves by the host's write, and one that would pass EVT_PROD is discarded and counted. -/
def Obligations.EventRingWritesAtProducer : Prop :=
  ∀ (p : HP) (e : EvtIn) (s : State),
    let q := getPart s p
    let n := (q.evtProd - q.evtCons).toNat
    let t := pushEvt p e s
    let par := leBytes 8 q.lost ++ leBytes 4 q.lostFirst.toNat
    (n < 256 → (getPart t p).evtProd = q.evtProd + 1 ∧ tget (getPart t p).evtRing (q.evtProd.toNat % 256) = some (mkEntry s e q.evtSeq)) ∧
    (256 ≤ n → (getPart t p).evtProd = q.evtProd ∧ (getPart t p).evtRing = q.evtRing ∧
      cntGet t (partBase p + 0x68) = min (2 ^ 64 - 1) (cntGet s (partBase p + 0x68) + 1)) ∧
    (getPart t p).evtSeq = q.evtSeq + 1 ∧ (getPart t p).evtCons = q.evtCons ∧
    (n ≤ 256 → ∀ i < n, tget (getPart t p).evtRing ((q.evtCons.toNat + i) % 256) = tget q.evtRing ((q.evtCons.toNat + i) % 256)) ∧
    (∀ r : HP, r ≠ p → getPart t r = getPart s r) ∧
    (0 < q.lost → n < 256 → ∃ v, eventsLost p s = pushRec 0x020B 2 par v ∧
      tget (getPart v p).evtRing (q.evtProd.toNat % 256) = some (mkEntry s ⟨0x020B, 2, par, false, 0, 0⟩ q.evtSeq) ∧
      (getPart v p).evtProd = q.evtProd + 1 ∧ ∀ r : HP, r ≠ p → getPart v r = getPart s r) ∧
    (∀ value : U32, q.present = true → (value - q.evtCons).toNat ≤ n →
      exec (.evtConsWrite p value) s = .next (eventsLost p (setPart p { q with evtCons := value } s))) ∧
    (∀ value : U32, q.present = true → n < (value - q.evtCons).toNat → exec (.evtConsWrite p value) s = .next (bump (partBase p + 0x80) s))

/-- Tier 1. R103: M0 runs full duplex only: a half-duplex link of its PHY sets HALF_DUPLEX and raises HALF-DUPLEX-REFUSED, and the link stays down; a
  full-duplex link comes up. -/
def Obligations.HalfDuplexIsRefusedOnM0 : Prop :=
  ∀ (speed : BitVec 3) (s : State), (getPort s 12).enable = true → (getPort s 12).link = false →
    (∃ t, exec (.portLinkUp 12 speed true) s = .next t ∧ (getPort t 12).link = false ∧ (getPort t 12).halfDuplex = true ∧
      t = raise 0x040A 2 [12] none (setPort 12 { getPort s 12 with halfDuplex := true } s)) ∧
    (∃ t, exec (.portLinkUp 12 speed false) s = .next t ∧ (getPort t 12).link = true ∧ (getPort t 12).halfDuplex = false)

/-- Tier 2. R432, R433, R435: an occurrence of an event takes a token of its code and is raised and recorded, or is suppressed: no ring, no record,
  SUPPRESSED counted and its code LIMITED. A record that finds the buffer full is discarded, or displaces the newest of severity 0 or 1, and
  BUF_LOST counts one. (A record that a flush in progress holds is not displaced, log entry 8.) -/
def Obligations.EventTakesTokenOrIsSuppressed : Prop :=
  ∀ (code sev : Nat) (params : Bytes) (o : Option HP) (s : State),
    let u := leaveLimited code s
    let k := bucketNow u code
    (0 < k.tokens → raise code sev params o s = raiseRaw code sev params o (setBucket code { k with tokens := k.tokens - 1 } u)) ∧
    (k.tokens = 0 → OnlyIn [.pop, .cnt] u (raise code sev params o s) ∧ (raise code sev params o s).pop.buffer = u.pop.buffer ∧
      cntGet (raise code sev params o s) 0x11000110 = min (2 ^ 64 - 1) (cntGet u 0x11000110 + 1) ∧
      ∃ b, tget (raise code sev params o s).pop.buckets code = some b ∧ b.limited = true ∧ b.suppressed = k.suppressed + 1) ∧
    (s.pop.buffer.length < 1024 → (pushRec code sev params s).pop.buffer = s.pop.buffer ++ [mkRec s s.pop.nextRec code sev params]) ∧
    (1024 ≤ s.pop.buffer.length →
      (pushRec code sev params s).pop.bufLost = s.pop.bufLost + 1 ∧
      cntGet (pushRec code sev params s) 0x11000118 = min (2 ^ 64 - 1) (cntGet s 0x11000118 + 1) ∧
      (sev ≤ 1 → (pushRec code sev params s).pop.buffer = s.pop.buffer) ∧
      (2 ≤ sev → (∀ r ∈ s.pop.buffer, 2 ≤ r.severity.toNat) → (pushRec code sev params s).pop.buffer = s.pop.buffer) ∧
      (2 ≤ sev → s.pop.flushing = false → ∀ (a b : List Rec) (r : Rec), s.pop.buffer = a ++ r :: b → r.severity.toNat ≤ 1 →
        (∀ x ∈ b, 2 ≤ x.severity.toNat) → (pushRec code sev params s).pop.buffer =
          a ++ b.map (fun x => { x with num := x.num - 1 }) ++ [mkRec s (s.pop.nextRec - 1) code sev params]))

/-- Tier 3. From every sound state, a step that answers a next state leaves a sound state: the counters stand in canonical form, none listed at zero and
  none past its end (R12), the record buffer holds at most 1,024 records (R434, R435), and the nanoseconds of device time lie below one
  second (R71). -/
def Obligations.EveryStepKeepsMachineSound : Prop :=
  ∀ s t : State, Sound s → step s = .next t → Sound t

/-- Tier 3. No command changes the queue of those that wait (the queue is the model's, log entry 2): what stood behind it still stands, in the same
  order, whatever the state and the command. -/
def Obligations.CommandsLeaveTheQueue : Prop :=
  ∀ (c : Instr) (s t : State), exec c s = .next t → t.pending = s.pending

/-- Tier 1. The state after reset is sound, and its memories stand in canonical form. -/
def Obligations.ResetIsSound : Prop :=
  Sound State.reset ∧ RamsSound State.reset

/-- Tier 2. R14, R63, R458: group 0x00 and every group above 0x11 read zero; before READY every group but 0x01 reads zero; a group that a valid snapshot
  holds whole reads what it held when the snapshot was taken, whatever state has become since. -/
def Obligations.ApertureShowsStateOrSnapshot : Prop :=
  ∀ (p : HP) (addr : Nat) (s t : State),
    let g := addr / 0x1000000
    (g = 0 ∨ 0x11 < g → apertureRead s p addr = 0) ∧
    (g ≠ 1 → s.dev.boot ≠ .ready → apertureRead s p addr = 0) ∧
    ((getPart s p).snap.state = .valid → (getPart s p).snap.groups.getLsbD g = true → (getPart s p).snap.windowed.getLsbD g = false →
      (s.shadow.get p).isSome = true → s.dev.boot = .ready → t.dev.boot = .ready → t.shadow = s.shadow → getPart t p = getPart s p →
      apertureRead t p addr = apertureRead s p addr)
end

