-- ==== Sys2Proof/Laws/Aperture.lean ====
section
/-!
SUPPORT. What an aperture word rests on: the blocks alone, not the snapshots' copies nor the commands that wait (R62, R63).
-/

namespace Sys2Proof.Machine

variable (b : Blocks) (l m : Quad (Option Blocks)) (x y : List Instr) (o : Nat)

theorem aperture01_blocks : aperture01 ⟨b, l, x⟩ o = aperture01 ⟨b, m, y⟩ o := rfl

theorem aperture02_blocks : aperture02 ⟨b, l, x⟩ o = aperture02 ⟨b, m, y⟩ o := rfl

theorem aperture03_blocks : aperture03 ⟨b, l, x⟩ o = aperture03 ⟨b, m, y⟩ o := rfl

theorem aperture04_blocks : aperture04 ⟨b, l, x⟩ o = aperture04 ⟨b, m, y⟩ o := rfl

theorem aperture05_blocks (p : HP) : aperture05 ⟨b, l, x⟩ p o = aperture05 ⟨b, m, y⟩ p o := by
  have e : (rollSecond ⟨b, l, x⟩).ing = (rollSecond ⟨b, m, y⟩).ing := by
    unfold rollSecond
    dsimp only
    split
    · rfl
    · split <;> rfl
  unfold aperture05
  rw [e]
  rfl

theorem aperture06_blocks (p : HP) : aperture06 ⟨b, l, x⟩ p o = aperture06 ⟨b, m, y⟩ p o := rfl

theorem aperture07_blocks (p : HP) : aperture07 ⟨b, l, x⟩ p o = aperture07 ⟨b, m, y⟩ p o := rfl

theorem aperture08_blocks : aperture08 ⟨b, l, x⟩ o = aperture08 ⟨b, m, y⟩ o := rfl

theorem aperture09_blocks (p : HP) : aperture09 ⟨b, l, x⟩ p o = aperture09 ⟨b, m, y⟩ p o := rfl

theorem aperture0A_blocks : aperture0A ⟨b, l, x⟩ o = aperture0A ⟨b, m, y⟩ o := rfl

theorem aperture0B_blocks : aperture0B ⟨b, l, x⟩ o = aperture0B ⟨b, m, y⟩ o := rfl

theorem aperture0C_blocks : aperture0C ⟨b, l, x⟩ o = aperture0C ⟨b, m, y⟩ o := rfl

theorem aperture0D_blocks (p : HP) : aperture0D ⟨b, l, x⟩ p o = aperture0D ⟨b, m, y⟩ p o := rfl

theorem aperture0E_blocks : aperture0E ⟨b, l, x⟩ o = aperture0E ⟨b, m, y⟩ o := rfl

theorem aperture0F_blocks : aperture0F ⟨b, l, x⟩ o = aperture0F ⟨b, m, y⟩ o := rfl

theorem aperture10_blocks (p : HP) : aperture10 ⟨b, l, x⟩ p o = aperture10 ⟨b, m, y⟩ p o := rfl

theorem aperture11_blocks : aperture11 ⟨b, l, x⟩ o = aperture11 ⟨b, m, y⟩ o := rfl

/-- A word of a group rests on the blocks alone. -/
theorem groupWord_blocks (p : HP) (g : Nat) : groupWord ⟨b, l, x⟩ p g o = groupWord ⟨b, m, y⟩ p g o := by
  unfold groupWord
  split
  · exact aperture01_blocks b l m x y o
  · exact aperture02_blocks b l m x y o
  · exact aperture03_blocks b l m x y o
  · exact aperture04_blocks b l m x y o
  · exact aperture05_blocks b l m x y o p
  · exact aperture06_blocks b l m x y o p
  · exact aperture07_blocks b l m x y o p
  · exact aperture08_blocks b l m x y o
  · exact aperture09_blocks b l m x y o p
  · exact aperture0A_blocks b l m x y o
  · exact aperture0B_blocks b l m x y o
  · exact aperture0C_blocks b l m x y o
  · exact aperture0D_blocks b l m x y o p
  · exact aperture0E_blocks b l m x y o
  · exact aperture0F_blocks b l m x y o
  · exact aperture10_blocks b l m x y o p
  · exact aperture11_blocks b l m x y o
  · rfl

end Sys2Proof.Machine
end

