-- ==== Sys2Proof/Laws/Vci.lean ====
section
/-!
SUPPORT. Lemmas about counters, mailboxes and the one path of a VCI command.
-/

namespace Sys2Proof.Machine

/-! ### Counting changes nothing but the counters -/

@[simp] theorem cntSet_blocks (a v : Nat) (s : State) : { cntSet a v s with cnt := s.cnt } = s := rfl

theorem bump_def (a : Nat) (s : State) : bump a s = cntSet a (satAdd (2 ^ 64 - 1) (cntGet s a) 1) s := rfl

theorem bumpIf_cases (c : Bool) (a : Nat) (s : State) : bumpIf c a s = s ∨ bumpIf c a s = bump a s := by
  cases c <;> simp [bumpIf]

/-! ### Partitions -/

theorem Quad.get_set_self {α : Type} (q : Quad α) (p : HP) (v : α) : (q.set p v).get p = v := by
  match p with
  | 0 => rfl
  | 1 => rfl
  | 2 => rfl
  | 3 => rfl

theorem Quad.get_set_other {α : Type} (q : Quad α) {p r : HP} (v : α) (h : r ≠ p) : (q.set p v).get r = q.get r := by
  match p, r with
  | 0, 0 => exact absurd rfl h
  | 1, 1 => exact absurd rfl h
  | 2, 2 => exact absurd rfl h
  | 3, 3 => exact absurd rfl h
  | 0, 1 | 0, 2 | 0, 3 | 1, 0 | 1, 2 | 1, 3 | 2, 0 | 2, 1 | 2, 3 | 3, 0 | 3, 1 | 3, 2 => rfl

@[simp] theorem getPart_setPart (s : State) (p : HP) (v : Part) : getPart (setPart p v s) p = v := Quad.get_set_self _ _ _

theorem getPart_setPart_other (s : State) {p r : HP} (v : Part) (h : r ≠ p) : getPart (setPart p v s) r = getPart s r :=
  Quad.get_set_other _ _ h

@[simp] theorem getPart_modPart (s : State) (p : HP) (f : Part → Part) : getPart (modPart p f s) p = f (getPart s p) :=
  getPart_setPart _ _ _

@[simp] theorem getPart_bump (s : State) (a : Nat) (p : HP) : getPart (bump a s) p = getPart s p := rfl

@[simp] theorem getPart_countCmd (s : State) (h : Hdr) (p : HP) : getPart (countCmd h s) p = getPart s p := rfl

/-! ### The answer to a command -/

theorem respond_onlyIn (h : Hdr) (op : Nat) (st : U16) (resp : Bytes) (k : Bool) (s : State) :
    OnlyIn [.host] s (respond h op st resp k s) := by
  intro b hb
  cases b <;> first | rfl | exact absurd (by decide) hb

theorem OnlyIn.trans {l m n : List Blk} {s t u : State} (h1 : OnlyIn l s t) (h2 : OnlyIn m t u) (hl : ∀ b, b ∈ l → b ∈ n)
    (hm : ∀ b, b ∈ m → b ∈ n) : OnlyIn n s u := by
  intro b hb
  have a := h1 b (fun hh => hb (hl b hh))
  have c := h2 b (fun hh => hb (hm b hh))
  cases b <;> exact Eq.trans c a

theorem OnlyIn.refl (l : List Blk) (s : State) : OnlyIn l s s := by
  intro b _
  cases b <;> rfl

theorem OnlyIn.mono {l m : List Blk} {s t : State} (h : OnlyIn l s t) (hl : ∀ b, b ∈ l → b ∈ m) : OnlyIn m s t :=
  fun b hb => h b (fun hh => hb (hl b hh))

theorem bumpIf_onlyIn (c : Bool) (a : Nat) (s : State) : OnlyIn [.cnt] s (bumpIf c a s) := by
  rcases bumpIf_cases c a s with h | h <;> rw [h]
  · exact OnlyIn.refl _ _
  · intro b hb
    cases b <;> first | rfl | exact absurd (by decide) hb

theorem countCmd_onlyIn (h : Hdr) (s : State) : OnlyIn [.cnt] s (countCmd h s) := by
  intro b hb
  cases b <;> first | rfl | exact absurd (by decide) hb

/-- An answer changes nothing but the partition's mailbox, cache and vectors, and the counters. -/
theorem answer_onlyIn (h : Hdr) (op : Nat) (r : Rep) : OnlyIn [.host, .cnt] r.s (answer h op r) :=
  OnlyIn.trans (bumpIf_onlyIn _ _ r.s) (respond_onlyIn h op r.st.w r.resp true _) (by decide) (by decide)

theorem mbxOf_msix (h : Hdr) (p : HP) (v : Nat) (s : State) : mbxOf h (msix p v s) = mbxOf h s := by
  unfold mbxOf msix
  by_cases e : h.part = p
  · subst e
    simp
  · unfold modPart
    rw [getPart_setPart_other _ _ e]

/-- The response stands in the mailbox the command came in by (Table 2.5). -/
theorem respond_mbx (h : Hdr) (op : Nat) (st : U16) (resp : Bytes) (k : Bool) (s : State) :
    mbxOf h (respond h op st resp k s) = { opcode := BitVec.ofNat 16 op, tag := h.tag, status := st, resp, done := true } := by
  unfold respond
  simp only [mbxOf_msix]
  unfold mbxOf
  rw [getPart_modPart]
  cases h.urg <;> rfl

theorem answer_answers (h : Hdr) (op : Nat) (st : Sts) (resp : Bytes) (s : State) : Answers h op st resp (answer h op ⟨st, resp, s⟩) :=
  respond_mbx h op st.w resp true _

/-! ### A command that is taken -/

theorem cached_countCmd (s : State) (h : Hdr) : cached (countCmd h s) h = cached s h := rfl

/-- What `vci` does with a command that is taken and passes its own checks: its effect, answered. -/
theorem vci_admitted {c : Cmd} {h : Hdr} {ok : State → Bool} {body : State → Rep} {s : State} (a : Admitted c h s)
    (k : ok (countCmd h s) = true) : vci c h ok body s = answer h c.op (body (countCmd h s)) := by
  obtain ⟨hp, hb, ⟨hl, hl2, hu, hh, hur, hct, hr⟩, ht, hc, hlong⟩ := a
  have hrec : recovering s = false := by simp [recovering, hb]
  have hcheck : vciCheck c h true (countCmd h s) = none := by
    unfold vciCheck
    have e1 : ¬ 4080 < c.len := by omega
    have e2 : (h.urg && !c.u) = false := by
      cases hx : h.urg
      · rfl
      · simp [hu hx]
    have e3 : ¬ (c.cls = .control ∧ isCtrl (countCmd h s) h.part = false) := by
      rintro ⟨x, y⟩
      have : isCtrl (countCmd h s) h.part = true := by
        unfold isCtrl
        exact decide_eq_true (hc x)
      rw [this] at y
      exact absurd y (by decide)
    have e4 : ¬ (c.long = true ∧ 16 ≤ outstanding (countCmd h s) h.part) := by
      rintro ⟨x, y⟩
      have := hlong x
      change 16 ≤ outstanding s h.part at y
      omega
    have e5 : ¬ (h.hpart.toNat ≠ h.part.val ∨ h.hurgent ≠ h.urg ∨ h.hcontrol ≠ decide (c.cls = .control)) := by
      simp [hh, hur, hct]
    simp only [e1, e2, e3, e4, e5, hl, hr, if_false, ne_eq, not_true_eq_false, Bool.false_eq_true, or_self, reduceCtorEq]
  unfold vci
  simp only [hp, hrec, hb, ne_eq, not_true_eq_false, if_false, Bool.false_eq_true, Bool.true_eq_false, cached_countCmd]
  rw [ht]
  simp only [k, hcheck]

end Sys2Proof.Machine
end

