-- ==== Sys2Proof/Laws/Count.lean ====
section
/-!
SUPPORT. Counting a command changes no reading of the state but that of a counter: one equation per block and per reading that the effects
of commands take.
-/

namespace Sys2Proof.Machine

@[simp] theorem countCmd_dev (k : Hdr) (s : State) : (countCmd k s).dev = s.dev := rfl
@[simp] theorem countCmd_clk (k : Hdr) (s : State) : (countCmd k s).clk = s.clk := rfl
@[simp] theorem countCmd_host (k : Hdr) (s : State) : (countCmd k s).host = s.host := rfl
@[simp] theorem countCmd_pop (k : Hdr) (s : State) : (countCmd k s).pop = s.pop := rfl
@[simp] theorem countCmd_net (k : Hdr) (s : State) : (countCmd k s).net = s.net := rfl
@[simp] theorem countCmd_ing (k : Hdr) (s : State) : (countCmd k s).ing = s.ing := rfl
@[simp] theorem countCmd_aln (k : Hdr) (s : State) : (countCmd k s).aln = s.aln := rfl
@[simp] theorem countCmd_osc (k : Hdr) (s : State) : (countCmd k s).osc = s.osc := rfl
@[simp] theorem countCmd_isl (k : Hdr) (s : State) : (countCmd k s).isl = s.isl := rfl
@[simp] theorem countCmd_alm (k : Hdr) (s : State) : (countCmd k s).alm = s.alm := rfl
@[simp] theorem countCmd_cap (k : Hdr) (s : State) : (countCmd k s).cap = s.cap := rfl
@[simp] theorem countCmd_sage (k : Hdr) (s : State) : (countCmd k s).sage = s.sage := rfl
@[simp] theorem countCmd_eq (k : Hdr) (s : State) : (countCmd k s).eq = s.eq := rfl
@[simp] theorem countCmd_voc (k : Hdr) (s : State) : (countCmd k s).voc = s.voc := rfl
@[simp] theorem countCmd_sor (k : Hdr) (s : State) : (countCmd k s).sor = s.sor := rfl
@[simp] theorem countCmd_yar (k : Hdr) (s : State) : (countCmd k s).yar = s.yar := rfl
@[simp] theorem countCmd_cf (k : Hdr) (s : State) : (countCmd k s).cf = s.cf := rfl
@[simp] theorem countCmd_dill (k : Hdr) (s : State) : (countCmd k s).dill = s.dill := rfl
@[simp] theorem countCmd_jtag (k : Hdr) (s : State) : (countCmd k s).jtag = s.jtag := rfl
@[simp] theorem countCmd_free (k : Hdr) (s : State) : (countCmd k s).free = s.free := rfl
@[simp] theorem countCmd_shadow (k : Hdr) (s : State) : (countCmd k s).shadow = s.shadow := rfl
@[simp] theorem countCmd_pending (k : Hdr) (s : State) : (countCmd k s).pending = s.pending := rfl

@[simp] theorem onCluGrid_countCmd (k : Hdr) (t : State) (ch kind : Nat) : onCluGrid (countCmd k t) ch kind = onCluGrid t ch kind := rfl
@[simp] theorem stageClaimOk_countCmd (k : Hdr) (t : State) (p : HP) (n : Nat) : stageClaimOk (countCmd k t) p n = stageClaimOk t p n := rfl
@[simp] theorem refreshAt_countCmd (k : Hdr) (s : State) (ms : Nat) : refreshAt (countCmd k s) ms = refreshAt s ms := rfl
@[simp] theorem membersOk_countCmd (k : Hdr) (s : State) (p : HP) (g : Nat) (ms : List Nat) :
    membersOk (countCmd k s) p g ms = membersOk s p g ms := rfl
@[simp] theorem offsetOk_countCmd (k : Hdr) (s : State) (g off : Nat) : offsetOk (countCmd k s) g off = offsetOk s g off := rfl
@[simp] theorem pubAddOk_countCmd (k : Hdr) (t : State) (h : Hdr) (p : PubAddP) : pubAddOk (countCmd k t) h p = pubAddOk t h p := rfl
@[simp] theorem newPub_countCmd (k : Hdr) (t : State) (owner : HP) (p : PubAddP) : newPub (countCmd k t) owner p = newPub t owner p := rfl
@[simp] theorem getStream_countCmd (k : Hdr) (s : State) (h : Nat) : getStream (countCmd k s) h = getStream s h := rfl
@[simp] theorem chanKind_countCmd (k : Hdr) (s : State) (ch : Nat) : chanKind (countCmd k s) ch = chanKind s ch := rfl
@[simp] theorem getGrid_countCmd (k : Hdr) (s : State) (g : Nat) : getGrid (countCmd k s) g = getGrid s g := rfl
@[simp] theorem gridBytes_countCmd (k : Hdr) (s : State) (g windowMs : Nat) : gridBytes (countCmd k s) g windowMs = gridBytes s g windowMs := rfl
@[simp] theorem poolBytes_countCmd (k : Hdr) (s : State) : poolBytes (countCmd k s) = poolBytes s := rfl
@[simp] theorem poolSize_countCmd (k : Hdr) (s : State) : poolSize (countCmd k s) = poolSize s := rfl
@[simp] theorem getPub_countCmd (k : Hdr) (s : State) (n : Nat) : getPub (countCmd k s) n = getPub s n := rfl
@[simp] theorem pubFrameBytes_countCmd (k : Hdr) (s : State) (target : Nat) (v6 : Bool) (ms : List Nat) :
    pubFrameBytes (countCmd k s) target v6 ms = pubFrameBytes s target v6 ms := rfl
@[simp] theorem pubFits_countCmd (k : Hdr) (s : State) (target : Nat) (v6 : Bool) (ms : List Nat) :
    pubFits (countCmd k s) target v6 ms = pubFits s target v6 ms := rfl
@[simp] theorem captureAddOk_countCmd (k : Hdr) (t : State) (h : Hdr) (p : CaptureAddP) : captureAddOk (countCmd k t) h p = captureAddOk t h p := rfl
@[simp] theorem capNamed_countCmd (k : Hdr) (t : State) (h : Hdr) (c : U8) : capNamed (countCmd k t) h c = capNamed t h c := rfl
@[simp] theorem sourceOk_countCmd (k : Hdr) (t : State) (h : Hdr) (l : Lane) (e : SourceP) : sourceOk (countCmd k t) h l e = sourceOk t h l e := rfl
@[simp] theorem streamTables_countCmd (hd : Hdr) (s : State) (c : Nat) (k : Cap) : streamTables (countCmd hd s) c k = streamTables s c k := rfl
@[simp] theorem snapshot_countCmd (hd : Hdr) (s : State) (k : Cap) (r : RecSlot) : snapshot (countCmd hd s) k r = snapshot s k r := rfl
@[simp] theorem recAt_countCmd (k : Hdr) (s : State) (source c slot : Nat) : recAt (countCmd k s) source c slot = recAt s source c slot := rfl
@[simp] theorem recNamed_countCmd (k : Hdr) (t : State) (h : Hdr) (source c slot : U8) :
    recNamed (countCmd k t) h source c slot = recNamed t h source c slot := rfl
@[simp] theorem getCap_countCmd (k : Hdr) (s : State) (c : Nat) : getCap (countCmd k s) c = getCap s c := rfl
@[simp] theorem capUsed_countCmd (k : Hdr) (s : State) : capUsed (countCmd k s) = capUsed s := rfl
@[simp] theorem nodeNameable_countCmd (hd : Hdr) (h : Hdr) (k : Nat) (t : State) : nodeNameable h k (countCmd hd t) = nodeNameable h k t := rfl
@[simp] theorem getNode_countCmd (hd : Hdr) (s : State) (k : Nat) : getNode (countCmd hd s) k = getNode s k := rfl
@[simp] theorem nodeStreamFree_countCmd (k : Hdr) (s : State) (v : Node) : nodeStreamFree (countCmd k s) v = nodeStreamFree s v := rfl
@[simp] theorem nearLeap_countCmd (k : Hdr) (s : State) : nearLeap (countCmd k s) = nearLeap s := rfl
@[simp] theorem stepTarget_countCmd (k : Hdr) (p : TimeStepP) (s : State) : stepTarget p (countCmd k s) = stepTarget p s := rfl
@[simp] theorem isPtpPort_countCmd (hd : Hdr) (s : State) (k : Nat) : isPtpPort (countCmd hd s) k = isPtpPort s k := rfl
@[simp] theorem isMasterPort_countCmd (hd : Hdr) (s : State) (k : Nat) : isMasterPort (countCmd hd s) k = isMasterPort s k := rfl
@[simp] theorem secondDue_countCmd (k : Hdr) (s : State) (l : Option Nat) : secondDue (countCmd k s) l = secondDue s l := rfl
@[simp] theorem irigTai_countCmd (k : Hdr) (f : IrigFrame) (s : State) : irigTai f (countCmd k s) = irigTai f s := rfl
@[simp] theorem gaDue_countCmd (k : Hdr) (s : State) : gaDue (countCmd k s) = gaDue s := rfl
@[simp] theorem getPtp_countCmd (hd : Hdr) (s : State) (k : Nat) : getPtp (countCmd hd s) k = getPtp s k := rfl
@[simp] theorem slaveOf_countCmd (k : Hdr) (s : State) : slaveOf (countCmd k s) = slaveOf s := rfl
@[simp] theorem ptpMsg_countCmd (hd : Hdr) (s : State) (k typ seq : Nat) (body : Bytes) :
    ptpMsg (countCmd hd s) k typ seq body = ptpMsg s k typ seq body := rfl
@[simp] theorem announceBody_countCmd (k : Hdr) (s : State) : announceBody (countCmd k s) = announceBody s := rfl
@[simp] theorem streamFirst_countCmd (k : Hdr) (s : State) (p : HP) : streamFirst (countCmd k s) p = streamFirst s p := rfl
@[simp] theorem dillOpenOk_countCmd (k : Hdr) (h : Hdr) (p : DillOpenP) (t : State) : dillOpenOk h p (countCmd k t) = dillOpenOk h p t := rfl
@[simp] theorem getJob_countCmd (k : Hdr) (s : State) (j : Nat) : getJob (countCmd k s) j = getJob s j := rfl
@[simp] theorem gapEntry_countCmd (k : Hdr) (s : State) (seq : U32) : gapEntry (countCmd k s) seq = gapEntry s seq := rfl
@[simp] theorem getEq_countCmd (k : Hdr) (s : State) (m : Nat) : getEq (countCmd k s) m = getEq s m := rfl
@[simp] theorem getBReg_countCmd (k : Hdr) (s : State) (b : Nat) : getBReg (countCmd k s) b = getBReg s b := rfl
@[simp] theorem getPulse_countCmd (hd : Hdr) (s : State) (k : Nat) : getPulse (countCmd hd s) k = getPulse s k := rfl
@[simp] theorem addRefusal_countCmd (k : Hdr) (p : HP) (maxCh : Nat) (s : State) : addRefusal p maxCh (countCmd k s) = addRefusal p maxCh s := rfl
@[simp] theorem streamNameable_countCmd (k : Hdr) (h : Hdr) (n : Nat) (t : State) : streamNameable h n (countCmd k t) = streamNameable h n t := rfl
@[simp] theorem roomAfter_countCmd (k : Hdr) (s : State) (n : Nat) (v : Stream) (mx : Nat) :
    roomAfter (countCmd k s) n v mx = roomAfter s n v mx := rfl
@[simp] theorem pubsAt_countCmd (hd : Hdr) (s : State) (k : Nat) (dst : U16) : pubsAt (countCmd hd s) k dst = pubsAt s k dst := rfl
@[simp] theorem findStream_countCmd (hd : Hdr) (s : State) (k : Nat) (key : StreamKey) : findStream (countCmd hd s) k key = findStream s k key := rfl
@[simp] theorem allocChans_countCmd (k : Hdr) (s : State) (n : Nat) : allocChans (countCmd k s) n = allocChans s n := rfl
@[simp] theorem stashUsed_countCmd (k : Hdr) (s : State) : stashUsed (countCmd k s) = stashUsed s := rfl
@[simp] theorem streamNamed_countCmd (k : Hdr) (s : State) (h : Nat) (v : Stream) : streamNamed (countCmd k s) h v = streamNamed s h v := rfl
@[simp] theorem bindNames_countCmd (k : Hdr) (h : Hdr) (p : KernelBindP) (t : State) : bindNames h p (countCmd k t) = bindNames h p t := rfl
@[simp] theorem kernNamed_countCmd (hd : Hdr) (h : Hdr) (k : Nat) (t : State) : kernNamed h k (countCmd hd t) = kernNamed h k t := rfl
@[simp] theorem kernRuns_countCmd (k : Hdr) (s : State) (x : Kern) : kernRuns (countCmd k s) x = kernRuns s x := rfl
@[simp] theorem pairAgrees_countCmd (k : Hdr) (s : State) (p : PortConfigP) : pairAgrees (countCmd k s) p = pairAgrees s p := rfl
@[simp] theorem multicastOk_countCmd (hd : Hdr) (s : State) (k : Nat) (a : U48) : multicastOk (countCmd hd s) k a = multicastOk s k a := rfl
@[simp] theorem classify_countCmd (k : Hdr) (s : State) (f : RxFrame) : classify (countCmd k s) f = classify s f := rfl
@[simp] theorem getPort_countCmd (hd : Hdr) (s : State) (k : Nat) : getPort (countCmd hd s) k = getPort s k := rfl
@[simp] theorem getPair2_countCmd (k : Hdr) (s : State) (pr : Nat) : getPair2 (countCmd k s) pr = getPair2 s pr := rfl
@[simp] theorem getFrame_countCmd (k : Hdr) (s : State) (r : Nat) : getFrame (countCmd k s) r = getFrame s r := rfl
@[simp] theorem nextTx_countCmd (k : Hdr) (s : State) (p : Port) : nextTx (countCmd k s) p = nextTx s p := rfl
@[simp] theorem silencePassed_countCmd (hd : Hdr) (s : State) (k : Nat) : silencePassed (countCmd hd s) k = silencePassed s k := rfl
@[simp] theorem regs_countCmd (k : Hdr) (s : State) : regs (countCmd k s) = regs s := rfl
@[simp] theorem portTaken_countCmd (k : Hdr) (s : State) (use : Nat) (tcp : Bool) (num macs : Nat) :
    portTaken (countCmd k s) use tcp num macs = portTaken s use tcp num macs := rfl
@[simp] theorem getCore_countCmd (k : Hdr) (s : State) (n : Nat) : getCore (countCmd k s) n = getCore s n := rfl
@[simp] theorem elNs_countCmd (k : Hdr) (s : State) : elNs (countCmd k s) = elNs s := rfl
@[simp] theorem taiNs_countCmd (k : Hdr) (s : State) : taiNs (countCmd k s) = taiNs s := rfl
@[simp] theorem isCtrl_countCmd (k : Hdr) (s : State) (p : HP) : isCtrl (countCmd k s) p = isCtrl s p := rfl
@[simp] theorem bucketNow_countCmd (k : Hdr) (s : State) (code : Nat) : bucketNow (countCmd k s) code = bucketNow s code := rfl
@[simp] theorem recovering_countCmd (k : Hdr) (s : State) : recovering (countCmd k s) = recovering s := rfl
@[simp] theorem getRing_countCmd (k : Hdr) (s : State) (p : HP) (n : Nat) : getRing (countCmd k s) p n = getRing s p n := rfl
@[simp] theorem ringFree_countCmd (k : Hdr) (s : State) (p : HP) (n : Nat) (toDev : Bool) :
    ringFree (countCmd k s) p n toDev = ringFree s p n toDev := rfl
@[simp] theorem ringCount_countCmd (k : Hdr) (s : State) (p : HP) : ringCount (countCmd k s) p = ringCount s p := rfl
@[simp] theorem lastScreened_countCmd (k : Hdr) (s : State) (g : Nat) : lastScreened (countCmd k s) g = lastScreened s g := rfl
@[simp] theorem screenedOf_countCmd (k : Hdr) (s : State) (hd : Nat) : screenedOf (countCmd k s) hd = screenedOf s hd := rfl
@[simp] theorem getScr_countCmd (k : Hdr) (s : State) (ch g : Nat) : getScr (countCmd k s) ch g = getScr s ch g := rfl
@[simp] theorem slotOf_countCmd (k : Hdr) (s : State) (ch : Nat) : slotOf (countCmd k s) ch = slotOf s ch := rfl
@[simp] theorem watchedChan_countCmd (k : Hdr) (s : State) (ch : Nat) : watchedChan (countCmd k s) ch = watchedChan s ch := rfl
@[simp] theorem chanGrid_countCmd (k : Hdr) (s : State) (ch : Nat) : chanGrid (countCmd k s) ch = chanGrid s ch := rfl
@[simp] theorem claimUnique_countCmd (k : Hdr) (s : State) (p : HP) (c : U8) : claimUnique (countCmd k s) p c = claimUnique s p c := rfl
@[simp] theorem claimOk_countCmd (k : Hdr) (s : State) (p : HP) (everEnabled : Bool) (latched : U8) :
    claimOk (countCmd k s) p everEnabled latched = claimOk s p everEnabled latched := rfl
@[simp] theorem mayName_countCmd (k : Hdr) (s : State) (p owner : HP) : mayName (countCmd k s) p owner = mayName s p owner := rfl
@[simp] theorem channelsOf_countCmd (k : Hdr) (s : State) (p : HP) : channelsOf (countCmd k s) p = channelsOf s p := rfl
@[simp] theorem useOf_countCmd (k : Hdr) (s : State) (p : HP) : useOf (countCmd k s) p = useOf s p := rfl
@[simp] theorem identifyResp_countCmd (k : Hdr) (s : State) : identifyResp (countCmd k s) = identifyResp s := rfl
@[simp] theorem windowSize_countCmd (k : Hdr) (s : State) (group table first : Nat) :
    windowSize (countCmd k s) group table first = windowSize s group table first := rfl
@[simp] theorem quotaSum_countCmd (k : Hdr) (s : State) : quotaSum (countCmd k s) = quotaSum s := rfl
@[simp] theorem rebase_countCmd (hd : Hdr) (s : State) (burst : Nat) (k : Bucket) : rebase (countCmd hd s) burst k = rebase s burst k := rfl
@[simp] theorem otpGroup_countCmd (k : Hdr) (s : State) (g : Nat) : otpGroup (countCmd k s) g = otpGroup s g := rfl
@[simp] theorem writesRunning_countCmd (k : Hdr) (s : State) (target : Nat) : writesRunning (countCmd k s) target = writesRunning s target := rfl
@[simp] theorem chainOk_countCmd (k : Hdr) (p : SageChainConfigP) (t : State) : chainOk p (countCmd k t) = chainOk p t := rfl
@[simp] theorem tempSourceOk_countCmd (k : Hdr) (p : SageTempSourceP) (t : State) : tempSourceOk p (countCmd k t) = tempSourceOk p t := rfl
@[simp] theorem getMp_countCmd (k : Hdr) (s : State) (m : Nat) : getMp (countCmd k s) m = getMp s m := rfl
@[simp] theorem isSealedMp_countCmd (k : Hdr) (s : State) (m : Nat) : isSealedMp (countCmd k s) m = isSealedMp s m := rfl
@[simp] theorem getStage_countCmd (k : Hdr) (s : State) (n : Nat) : getStage (countCmd k s) n = getStage s n := rfl
@[simp] theorem getInput_countCmd (k : Hdr) (s : State) (n : Nat) : getInput (countCmd k s) n = getInput s n := rfl
@[simp] theorem firstFrame_countCmd (k : Hdr) (s : State) : firstFrame (countCmd k s) = firstFrame s := rfl
@[simp] theorem newCh_countCmd (k : Hdr) (s : State) (p : HP) (c : VoiceCfg) (r1 r2 : Nat) : newCh (countCmd k s) p c r1 r2 = newCh s p c r1 r2 := rfl
@[simp] theorem slotBusy_countCmd (k : Hdr) (s : State) (own : Option Nat) (c : VoiceCfg) : slotBusy (countCmd k s) own c = slotBusy s own c := rfl
@[simp] theorem chNamed_countCmd (k : Hdr) (t : State) (h : Hdr) (c : U16) : chNamed (countCmd k t) h c = chNamed t h c := rfl
@[simp] theorem recfg_countCmd (k : Hdr) (s : State) (v : VCh) (c : VoiceCfg) : recfg (countCmd k s) v c = recfg s v c := rfl
@[simp] theorem annInUse_countCmd (k : Hdr) (s : State) (a : Nat) : annInUse (countCmd k s) a = annInUse s a := rfl
@[simp] theorem annBytes_countCmd (k : Hdr) (s : State) : annBytes (countCmd k s) = annBytes s := rfl
@[simp] theorem getCh_countCmd (k : Hdr) (s : State) (c : Nat) : getCh (countCmd k s) c = getCh s c := rfl
@[simp] theorem getHw_countCmd (k : Hdr) (s : State) (h : Nat) : getHw (countCmd k s) h = getHw s h := rfl
@[simp] theorem voiceRingsOk_countCmd (k : Hdr) (s : State) (p : HP) (c : VoiceCfg) : voiceRingsOk (countCmd k s) p c = voiceRingsOk s p c := rfl
@[simp] theorem voicePortTaken_countCmd (k : Hdr) (s : State) (ch : Nat) (c : VoiceCfg) :
    voicePortTaken (countCmd k s) ch c = voicePortTaken s ch c := rfl
@[simp] theorem victimsFor_countCmd (k : Hdr) (s : State) (p : HP) (own : Option Nat) (more : Nat) (c : VoiceCfg) :
    victimsFor (countCmd k s) p own more c = victimsFor s p own more c := rfl
@[simp] theorem isStalled_countCmd (k : Hdr) (s : State) (id : Nat) : isStalled (countCmd k s) id = isStalled s id := rfl
@[simp] theorem getKern_countCmd (hd : Hdr) (s : State) (k : Nat) : getKern (countCmd hd s) k = getKern s k := rfl

end Sys2Proof.Machine
end

