-- ==== Sys2Proof/Laws/Table.lean ====
section
/-!
SUPPORT. Tables and memories: what a read gives after a write, and that every operation keeps the canonical form.
-/

namespace Sys2Proof.Machine

theorem wf_cons {α : Type} (k : Nat) (v : α) (t : Tbl α) : Tbl.wf ((k, v) :: t) = true ↔ (∀ e ∈ t, k < e.1) ∧ Tbl.wf t = true := by
  induction t generalizing k v with
  | nil => simp [Tbl.wf]
  | cons e t ih =>
    obtain ⟨k', v'⟩ := e
    simp only [Tbl.wf, Bool.and_eq_true, decide_eq_true_eq, ih k' v', List.mem_cons, forall_eq_or_imp]
    constructor
    · rintro ⟨h, h1, h2⟩; exact ⟨⟨h, fun e he => Nat.lt_trans h (h1 e he)⟩, h1, h2⟩
    · rintro ⟨⟨h, _⟩, h1, h2⟩; exact ⟨h, h1, h2⟩
theorem mem_tset {α : Type} {t : Tbl α} {k : Nat} {v : α} {e} : e ∈ tset t k v → e = (k, v) ∨ e ∈ t := by
  induction t with
  | nil => simp [tset]
  | cons a t ih =>
    obtain ⟨k', v'⟩ := a
    unfold tset
    split
    · simp
    · split
      · simp; tauto
      · simp only [List.mem_cons]; rintro (h | h)
        · tauto
        · have := ih h; tauto
theorem wf_tset {α : Type} {t : Tbl α} {k : Nat} {v : α} (h : Tbl.wf t = true) : Tbl.wf (tset t k v) = true := by
  induction t with
  | nil => rfl
  | cons a t ih =>
    obtain ⟨k', v'⟩ := a
    have h' := (wf_cons k' v' t).1 h
    unfold tset
    split
    · rw [wf_cons]; refine ⟨?_, h⟩
      simp only [List.mem_cons, forall_eq_or_imp]
      exact ⟨by assumption, fun e he => Nat.lt_trans (by assumption) (h'.1 e he)⟩
    · split
      · subst_vars; rw [wf_cons]; exact h'
      · rw [wf_cons]; refine ⟨fun e he => ?_, ih h'.2⟩
        rcases mem_tset he with h1 | h1
        · subst h1; dsimp only; omega
        · exact h'.1 e h1
theorem mem_tdel {α} {t : Tbl α} {k : Nat} {e} : e ∈ tdel t k → e ∈ t := by
  induction t with
  | nil => simp [tdel]
  | cons a t ih =>
    obtain ⟨k', v'⟩ := a
    unfold tdel
    split
    · intro h; exact List.mem_cons_of_mem _ (ih h)
    · simp only [List.mem_cons]; rintro (h | h)
      · exact Or.inl h
      · exact Or.inr (ih h)
theorem wf_tdel {α} {t : Tbl α} {k : Nat} (h : Tbl.wf t = true) : Tbl.wf (tdel t k) = true := by
  induction t with
  | nil => rfl
  | cons a t ih =>
    obtain ⟨k', v'⟩ := a
    have h' := (wf_cons k' v' t).1 h
    unfold tdel
    split
    · exact ih h'.2
    · rw [wf_cons]; exact ⟨fun e he => h'.1 e (mem_tdel he), ih h'.2⟩
theorem mem_tkeep {α} {f : Nat → α → Bool} {t : Tbl α} {e} : e ∈ tkeep f t → e ∈ t := by
  induction t with
  | nil => simp [tkeep]
  | cons a t ih =>
    obtain ⟨k', v'⟩ := a
    unfold tkeep
    split
    · simp only [List.mem_cons]; rintro (h | h)
      · exact Or.inl h
      · exact Or.inr (ih h)
    · intro h; exact List.mem_cons_of_mem _ (ih h)
theorem wf_tkeep {α} {f : Nat → α → Bool} {t : Tbl α} (h : Tbl.wf t = true) : Tbl.wf (tkeep f t) = true := by
  induction t with
  | nil => rfl
  | cons a t ih =>
    obtain ⟨k', v'⟩ := a
    have h' := (wf_cons k' v' t).1 h
    unfold tkeep
    split
    · rw [wf_cons]; exact ⟨fun e he => h'.1 e (mem_tkeep he), ih h'.2⟩
    · exact ih h'.2

theorem tget_tset {α : Type} (t : Tbl α) (k j : Nat) (v : α) : tget (tset t k v) j = if j = k then some v else tget t j := by
  induction t with
  | nil => simp [tset, tget, eq_comm]
  | cons e t ih =>
    obtain ⟨k', v'⟩ := e
    unfold tset
    split
    · by_cases h : k = j
      · simp [tget, h]
      · simp [tget, h, Ne.symm h]
    · split
      · subst_vars
        by_cases h : j = k'
        · simp [tget, h]
        · simp [tget, h, Ne.symm h]
      · by_cases h : j = k'
        · subst h; simp [tget]; omega
        · have : ¬ k' = j := Ne.symm h
          simp [tget, this, ih]

theorem tget_tdel {α : Type} (t : Tbl α) (k j : Nat) : tget (tdel t k) j = if j = k then none else tget t j := by
  induction t with
  | nil => simp [tdel, tget]
  | cons e t ih =>
    obtain ⟨k', v'⟩ := e
    unfold tdel
    split
    · subst_vars; rw [ih]; by_cases h : j = k'
      · simp [h]
      · simp [tget, h, Ne.symm h]
    · by_cases h : j = k'
      · subst h; simp [tget]; omega
      · have : ¬ k' = j := Ne.symm h
        simp [tget, this, ih]

/-- A read of a memory after a write of one byte. -/
theorem ramGet_ramSet (r : Ram) (a c : Nat) (b : Byte) : ramGet (ramSet r a b) c = if c = a then b else ramGet r c := by
  unfold ramGet ramSet tgetD
  split
  · rw [tget_tdel]; split
    · simp_all
    · rfl
  · rw [tget_tset]; split
    · simp
    · rfl

/-- Writing bytes leaves every byte outside them alone. -/
theorem ramGet_ramWrite_other (l : Bytes) (r : Ram) (a c : Nat) (h : c < a ∨ a + l.length ≤ c) : ramGet (ramWrite r a l) c = ramGet r c := by
  induction l generalizing r a with
  | nil => rfl
  | cons b l ih =>
    rw [ramWrite, ih _ _ (by simp only [List.length_cons] at h; omega), ramGet_ramSet, if_neg]
    simp only [List.length_cons] at h
    omega

/-- Bytes read back as they were written. -/
theorem ramGet_ramWrite (l : Bytes) (r : Ram) (a i : Nat) (h : i < l.length) : ramGet (ramWrite r a l) (a + i) = l[i] := by
  induction l generalizing r a i with
  | nil => simp at h
  | cons b l ih =>
    rw [ramWrite]
    cases i with
    | zero => rw [ramGet_ramWrite_other _ _ _ _ (by omega), ramGet_ramSet]; simp
    | succ i =>
      have := ih (ramSet r a b) (a + 1) i (by simpa using h)
      rw [show a + (i + 1) = a + 1 + i by omega, this]
      simp

/-- Writing a byte keeps the canonical form. -/
theorem ramSet_wf (r : Ram) (a : Nat) (b : Byte) (h : Ram.wf r = true) : Ram.wf (ramSet r a b) = true := by
  unfold Ram.wf at *
  simp only [Bool.and_eq_true, List.all_eq_true, decide_eq_true_eq] at *
  unfold ramSet
  split
  · exact ⟨wf_tdel h.1, fun e he => h.2 e (mem_tdel he)⟩
  · refine ⟨wf_tset h.1, fun e he => ?_⟩
    rcases mem_tset he with h1 | h1
    · subst h1; assumption
    · exact h.2 e h1

/-- Writing bytes keeps the canonical form. -/
theorem ramWrite_wf (l : Bytes) (r : Ram) (a : Nat) (h : Ram.wf r = true) : Ram.wf (ramWrite r a l) = true := by
  induction l generalizing r a with
  | nil => exact h
  | cons b l ih => exact ih _ _ (ramSet_wf _ _ _ h)

/-- A memory that nothing has written stands in canonical form. -/
theorem ram_empty_wf : Ram.wf [] = true := rfl

end Sys2Proof.Machine
end

