-- ==== Sys2Proof/Laws/Counters.lean ====
section
/-!
SUPPORT. What a counter reads after a count, and what raising an event and ending a long command leave unchanged.
-/

namespace Sys2Proof.Machine

/-- A counter after one is set: it saturates (R12). -/
theorem cntGet_cntSet (a b v : Nat) (s : State) : cntGet (cntSet a v s) b = if b = a then min v (2 ^ 64 - 1) else cntGet s b := by
  unfold cntGet cntSet tgetD
  dsimp only
  split
  · subst_vars; rw [tget_tdel]; split <;> simp
  · rw [tget_tset]; split <;> simp

/-- A counter after one counts one. -/
theorem cntGet_bump (a b : Nat) (s : State) : cntGet (bump a s) b = if b = a then min (2 ^ 64 - 1) (cntGet s a + 1) else cntGet s b := by
  rw [bump_def, cntGet_cntSet]
  unfold satAdd
  split
  · split <;> omega
  · rfl

theorem bump_onlyIn (a : Nat) (s : State) : OnlyIn [.cnt] s (bump a s) := by
  intro b hb
  cases b <;> first | rfl | simp at hb

theorem setPart_onlyIn (p : HP) (v : Part) (s : State) : OnlyIn [.host] s (setPart p v s) := by
  intro b hb
  cases b <;> first | rfl | simp at hb

theorem msix_onlyIn (p : HP) (v : Nat) (s : State) : OnlyIn [.host] s (msix p v s) := setPart_onlyIn _ _ _

/-- An event written into a ring, or lost, changes its partition and the counters alone. -/
theorem pushEvt_onlyIn (p : HP) (e : EvtIn) (s : State) : OnlyIn [.host, .cnt] s (pushEvt p e s) := by
  unfold pushEvt
  dsimp only
  split
  · split
    · exact (setPart_onlyIn _ _ _).trans (msix_onlyIn _ _ _) (by simp) (by simp)
    · exact (setPart_onlyIn _ _ _).mono (by simp)
  · exact (setPart_onlyIn _ _ _).trans (bump_onlyIn _ _) (by simp) (by simp)

/-- A record changes the recorder and the counters alone. -/
theorem pushRec_onlyIn (code sev : Nat) (params : Bytes) (s : State) : OnlyIn [.pop, .cnt] s (pushRec code sev params s) := by
  intro b hb
  unfold pushRec
  dsimp only
  split
  · cases b <;> first | rfl | simp at hb
  · split
    · cases b <;> first | rfl | simp at hb
    · split <;> (cases b <;> first | rfl | simp at hb)

theorem raiseRaw_onlyIn (code sev : Nat) (params : Bytes) (o : Option HP) (s : State) :
    OnlyIn [.host, .pop, .cnt] s (raiseRaw code sev params o s) := by
  unfold raiseRaw
  dsimp only
  have h : ∀ (l : List HP) (t : State), OnlyIn [.host, .cnt] s t →
      OnlyIn [.host, .cnt] s (l.foldl (fun t p => if evtReaches s code o p then
        pushEvt p { code, sev, params, completion := false, tag := 0, status := 0 } t else t) t) := by
    intro l
    induction l with
    | nil => exact fun _ h => h
    | cons p l ih =>
      intro t h
      refine ih _ ?_
      dsimp only
      split
      · exact h.trans (pushEvt_onlyIn _ _ _) (by simp) (by simp)
      · exact h
  exact (h _ s (OnlyIn.refl _ s)).trans (pushRec_onlyIn _ _ _ _) (by simp) (by simp)

theorem setBucket_onlyIn (code : Nat) (k : Bucket) (s : State) : OnlyIn [.pop] s (setBucket code k s) := by
  intro b hb
  cases b <;> first | rfl | simp at hb

theorem leaveLimited_onlyIn (code : Nat) (s : State) : OnlyIn [.host, .pop, .cnt] s (leaveLimited code s) := by
  unfold leaveLimited
  dsimp only
  split
  · exact (setBucket_onlyIn _ _ _).trans (raiseRaw_onlyIn _ _ _ _ _) (by simp) (by simp)
  · exact OnlyIn.refl _ s

/-- Raising an event changes the partitions' rings, the recorder and the counters alone. -/
theorem raise_onlyIn (code sev : Nat) (params : Bytes) (o : Option HP) (s : State) :
    OnlyIn [.host, .pop, .cnt] s (raise code sev params o s) := by
  unfold raise
  dsimp only
  refine (leaveLimited_onlyIn code s).trans (m := [.host, .pop, .cnt]) ?_ (by simp) (by simp)
  split
  · exact (setBucket_onlyIn _ _ _).trans (raiseRaw_onlyIn _ _ _ _ _) (by simp) (by simp)
  · exact (setBucket_onlyIn _ _ _).trans (bump_onlyIn _ _) (by simp) (by simp)

end Sys2Proof.Machine
end

