-- ==== Sys2Proof/Laws/KeptOps.lean ====
section
/-!
SUPPORT. What every operation of the machine keeps: a sound state, and the commands that wait. The lemmas the proofs of Kept1 onwards are
made of.
-/

namespace Sys2Proof.Machine

/-- Counters in canonical form, none at zero and none past its end. -/
def CountersOk (t : Tbl Nat) : Prop := Tbl.wf t = true ∧ ∀ e ∈ t, 0 < e.2 ∧ e.2 < 2 ^ 64
/-- What every operation keeps, of the parts it is about. -/
def KeptIn (ns : BitVec 30) (b : List Rec) (c : Tbl Nat) (p q : List Instr) : Prop :=
  ns.toNat < 1000000000 ∧ b.length ≤ 1024 ∧ CountersOk c ∧ p = q
/-- The state is sound and these commands wait: every operation keeps it. -/
def Kept (q0 : List Instr) (s : State) : Prop := KeptIn s.clk.ns s.pop.buffer s.cnt s.pending q0
variable {q0 : List Instr}

theorem kept_mk {dev clk host pop net ing aln osc isl alm cap sage eq voc sor yar cf dill jtag cnt free sh pend} :
  Kept q0 (State.mk (Blocks.mk dev clk host pop net ing aln osc isl alm cap sage eq voc sor yar cf dill jtag cnt free) sh pend) = KeptIn clk.ns pop.buffer cnt pend q0 := rfl
theorem keptIn_kept (s : State) : KeptIn s.clk.ns s.pop.buffer s.cnt s.pending q0 = Kept q0 s := rfl
theorem kept_foldl {α : Type} {g : State → α → State} (h : ∀ t x, Kept q0 t → Kept q0 (g t x)) {l : List α} {s : State} (hs : Kept q0 s) : Kept q0 (l.foldl g s) := by
  induction l generalizing s with
  | nil => exact hs
  | cons a l ih => exact ih (h _ _ hs)
theorem kept_foldl2 {α β : Type} {g : β × State → α → β × State} (h : ∀ t x, Kept q0 t.2 → Kept q0 (g t x).2) {l : List α} {s : β × State} (hs : Kept q0 s.2) : Kept q0 (l.foldl g s).2 := by
  induction l generalizing s with
  | nil => exact hs
  | cons a l ih => exact ih (h _ _ hs)
@[simp] theorem CountersOk_tkeep {f} {t : Tbl Nat} (h : CountersOk t) : CountersOk (tkeep f t) := ⟨wf_tkeep h.1, fun e he => h.2 e (mem_tkeep he)⟩
@[simp] theorem cntSet_kept (a v : Nat) (s : State) (h : Kept q0 s) : Kept q0 (cntSet a v s) := by
  obtain ⟨h1, h2, ⟨h3, h4⟩, h5⟩ := h
  refine ⟨h1, h2, ?_, h5⟩
  show CountersOk (if v = 0 then tdel s.cnt a else tset s.cnt a (min v (2 ^ 64 - 1)))
  split
  · exact ⟨wf_tdel h3, fun e he => h4 e (mem_tdel he)⟩
  · refine ⟨wf_tset h3, fun e he => ?_⟩
    rcases mem_tset he with h6 | h6
    · subst h6; dsimp only; omega
    · exact h4 e h6
theorem kept_imp {s t : State} (h : Kept q0 s) (a : t.clk.ns = s.clk.ns) (b : t.pop.buffer = s.pop.buffer) (c : t.cnt = s.cnt) (d : t.pending = s.pending) : Kept q0 t := by
  unfold Kept at *; rw [a, b, c, d]; exact h
theorem kept_fresh2 (s : State) : Kept q0 (fresh s).2 = Kept q0 s := rfl

theorem kept_cut (x : State) {t : State} (h : Kept q0 x) (k : Kept q0 x → Kept q0 t) : Kept q0 t := k h
theorem kept_cutr (x : Rep) {t : State} (h : Kept q0 x.s) (k : Kept q0 x.s → Kept q0 t) : Kept q0 t := k h
theorem kept_cutp {α : Type} (x : α × State) {t : State} (h : Kept q0 x.2) (k : Kept q0 x.2 → Kept q0 t) : Kept q0 t := k h
theorem kept_cutf (x : State → State) {t : State} (h : ∀ u, Kept q0 u → Kept q0 (x u)) (k : (∀ u, Kept q0 u → Kept q0 (x u)) → Kept q0 t) : Kept q0 t := k h
theorem kept_cutg {α : Type} (x : α → State → State) {t : State} (h : ∀ a u, Kept q0 u → Kept q0 (x a u)) (k : (∀ a u, Kept q0 u → Kept q0 (x a u)) → Kept q0 t) : Kept q0 t := k h
theorem kept_ite {c : Prop} [Decidable c] {a b : State} (h : Kept q0 a) (k : Kept q0 b) : Kept q0 (if c then a else b) := by split <;> assumption
theorem kept_upd {dev clk host pop net ing aln osc isl alm cap sage eq voc sor yar cf dill jtag cnt free sh pend} {t : State} (hp : pend = t.pending)
  (h : Kept q0 t) (h1 : clk.ns = t.clk.ns) (h2 : pop.buffer = t.pop.buffer) (h3 : cnt = t.cnt) :
  Kept q0 (State.mk (Blocks.mk dev clk host pop net ing aln osc isl alm cap sage eq voc sor yar cf dill jtag cnt free) sh pend) := by
  subst hp; rw [kept_mk, h1, h2, h3]; exact h
theorem kept_eq2 {α : Type} {p : α × State} {a t} (e : p = (a, t)) (h : Kept q0 p.2) : Kept q0 t := by subst e; exact h
theorem kept_eq3 {α β : Type} {p : α × β × State} {a b t} (e : p = (a, b, t)) (h : Kept q0 p.2.2) : Kept q0 t := by subst e; exact h
theorem kept_some {p : Option State} {t} (e : p = some t) (h : ∀ t, p = some t → Kept q0 t) : Kept q0 t := h t e
theorem kept_elim {α : Type} {o : Option α} {d : State} {f : α → State} (h : Kept q0 d) (k : ∀ x, Kept q0 (f x)) : Kept q0 (o.elim d f) := by cases o <;> simp [Option.elim, *]
theorem kept_getD {o : Option State} {d : State} (h : Kept q0 d) (k : ∀ t, o = some t → Kept q0 t) : Kept q0 (o.getD d) := by cases o <;> simp_all
theorem kept_fresh2' {s : State} (h : Kept q0 s) : Kept q0 (fresh s).2 := h
theorem kept_ite2 {α : Type} {c : Prop} [Decidable c] {a b : α × State} (h : Kept q0 a.2) (k : Kept q0 b.2) : Kept q0 (if c then a else b).2 := by split <;> assumption
theorem kept_ite3 {α β : Type} {c : Prop} [Decidable c] {a b : α × β × State} (h : Kept q0 a.2.2) (k : Kept q0 b.2.2) : Kept q0 (if c then a else b).2.2 := by split <;> assumption
theorem kept_iter {c : Prop} [Decidable c] {a b : Rep} (h : Kept q0 a.s) (k : Kept q0 b.s) : Kept q0 (if c then a else b).s := by split <;> assumption
theorem kept_cuth {α β : Type} (x : α × State → β → α × State) {t : State} (h : ∀ a b, Kept q0 a.2 → Kept q0 (x a b).2) (k : (∀ a b, Kept q0 a.2 → Kept q0 (x a b).2) → Kept q0 t) : Kept q0 t := k h
theorem kept_time {s t : State} (h : Kept q0 s) (m : Nat) (a : t.clk.ns = BitVec.ofNat 30 (m % 1000000000)) (b : t.pop.buffer = s.pop.buffer)
    (c : t.cnt = s.cnt) (d : t.pending = s.pending) : Kept q0 t := by
  unfold Kept at *
  rw [a, b, c, d]
  refine ⟨?_, h.2.1, h.2.2.1, h.2.2.2⟩
  simp only [BitVec.toNat_ofNat]
  have := Nat.mod_lt m (show 1000000000 > 0 by omega)
  have h2 := Nat.mod_le (m % 1000000000) (2 ^ 30)
  omega
theorem kept_clk {s : State} (h : Kept q0 s) {c : ClkBlk} (e : c.ns = s.clk.ns) : Kept q0 { s with clk := c } := by
  refine ⟨?_, h.2.1, h.2.2.1, h.2.2.2⟩
  rw [e]; exact h.1
theorem target_ns (c : ClkBlk) (x : BitVec 40) : ({ c with incrTarget := x } : ClkBlk).ns = c.ns := rfl
theorem confineSlew_ns (c : ClkBlk) : (confineSlew c).ns = c.ns := target_ns c _
/-- An instruction that answers keeps it. -/
def KeptEx (q0 : List Instr) (r : Except CoreFault Ex) : Prop := ∀ x, r = .ok x → Kept q0 x.s
/-- An address that resolves keeps it. -/
def KeptEa (q0 : List Instr) (r : Except CoreFault Ea) : Prop := ∀ x, r = .ok x → Kept q0 x.s
/-- A slot of a bundle that answers keeps it. -/
def KeptSlot (q0 : List Instr) (r : Except CoreFault SlotOut) : Prop := ∀ x, r = .ok x → Kept q0 x.s
/-- A command that answers a next state keeps it. -/
def KeptOut (q0 : List Instr) (o : Out) : Prop := ∀ t, o = .next t → Kept q0 t
theorem keptOut_next {s : State} (h : Kept q0 s) : KeptOut q0 (.next s) := fun _ e => by cases e; exact h
theorem keptEx_ok {x : Ex} (h : Kept q0 x.s) : KeptEx q0 (.ok x) := fun _ e => by cases e; exact h
theorem keptEx_err (k : CoreFault) : KeptEx q0 (.error k) := fun _ e => by cases e
theorem keptEa_ok {x : Ea} (h : Kept q0 x.s) : KeptEa q0 (.ok x) := fun _ e => by cases e; exact h
theorem keptEa_err (k : CoreFault) : KeptEa q0 (.error k) := fun _ e => by cases e
theorem keptSlot_ok {x : SlotOut} (h : Kept q0 x.s) : KeptSlot q0 (.ok x) := fun _ e => by cases e; exact h
theorem keptSlot_err (k : CoreFault) : KeptSlot q0 (.error k) := fun _ e => by cases e
theorem keptEx_get {r : Except CoreFault Ex} {x : Ex} (e : r = .ok x) (h : KeptEx q0 r) : Kept q0 x.s := h x e
theorem keptEa_get {r : Except CoreFault Ea} {x : Ea} (e : r = .ok x) (h : KeptEa q0 r) : Kept q0 x.s := h x e
theorem keptSlot_get {r : Except CoreFault SlotOut} {x : SlotOut} (e : r = .ok x) (h : KeptSlot q0 r) : Kept q0 x.s := h x e

end Sys2Proof.Machine
end

