-- ==== Sys2Proof/Laws/Kept1.lean ====
section
/-!
SUPPORT. Operations keep a sound state and the commands that wait (part 1).
-/

namespace Sys2Proof.Machine

set_option Elab.async false
set_option linter.tactic.unusedName false

variable {q0 : List Instr}

theorem fresh_kept (s : State) (h_s : Kept q0 s) : Kept q0 (fresh s).2 := by
  unfold fresh
  with_reducible
    dsimp -zeta only
    refine kept_upd rfl ?_ rfl rfl rfl
    assumption

theorem bumpBy_kept (addr n : Nat) (s : State) (h_s : Kept q0 s) : Kept q0 (bumpBy addr n s) := by
  unfold bumpBy
  with_reducible
    apply cntSet_kept
    assumption

theorem bump_kept (addr : Nat) (s : State) (h_s : Kept q0 s) : Kept q0 (bump addr s) := by
  unfold bump
  with_reducible
    apply bumpBy_kept
    assumption

theorem cntMax_kept (addr v : Nat) (s : State) (h_s : Kept q0 s) : Kept q0 (cntMax addr v s) := by
  unfold cntMax
  with_reducible
    refine kept_ite ?_ ?_
    apply cntSet_kept
    assumption
    assumption

theorem bumpIf_kept (c : Bool) (addr : Nat) (s : State) (h_s : Kept q0 s) : Kept q0 (bumpIf c addr s) := by
  unfold bumpIf
  with_reducible
    refine kept_ite ?_ ?_
    apply bump_kept
    assumption
    assumption

theorem setPart_kept (p : HP) (v : Part) (s : State) (h_s : Kept q0 s) : Kept q0 (setPart p v s) := by
  unfold setPart
  with_reducible
    extract_lets +onlyGivenNames x
    refine kept_upd rfl ?_ rfl rfl rfl
    assumption

theorem modPart_kept (p : HP) (f : Part → Part) (s : State) (h_s : Kept q0 s) : Kept q0 (modPart p f s) := by
  unfold modPart
  with_reducible
    apply setPart_kept
    assumption

theorem msix_kept (p : HP) (v : Nat) (s : State) (h_s : Kept q0 s) : Kept q0 (msix p v s) := by
  unfold msix
  with_reducible
    apply modPart_kept
    assumption

theorem pushEvt_kept (p : HP) (e : EvtIn) (s : State) (h_s : Kept q0 s) : Kept q0 (pushEvt p e s) := by
  unfold pushEvt
  with_reducible
    refine kept_ite ?_ ?_
    refine kept_ite ?_ ?_
    apply msix_kept
    apply setPart_kept
    assumption
    apply setPart_kept
    assumption
    apply bump_kept
    apply setPart_kept
    assumption

theorem pushRec_kept (code sev : Nat) (params : Bytes) (s : State) (h_s : Kept q0 s) : Kept q0 (pushRec code sev params s) := by
  have h2 := h_s.2.1
  have hl : ∀ keep (l t : List Rec), dropNewestLow keep l = some t → t.length + 1 = l.length := by
    intro keep l
    induction l with
    | nil => intro t h; cases h
    | cons r l ih =>
      intro t h
      unfold dropNewestLow at h
      split at h
      · cases h; rfl
      · split at h
        · cases h; simp [ih _ ‹_›]
        · cases h
  have hup : ∀ (b : List Rec) (n m : Nat), b.length ≤ 1024 → Kept q0 { s with pop := { s.pop with buffer := b, nextRec := n, bufHwm := m } } :=
    fun b n m hb => ⟨h_s.1, hb, h_s.2.2.1, h_s.2.2.2⟩
  have hlost : Kept q0 (bump 0x11000118 { s with pop := { s.pop with bufLost := s.pop.bufLost + 1 } }) := bump_kept _ _ h_s
  unfold pushRec
  dsimp only
  split
  · refine bump_kept _ _ ⟨h_s.1, ?_, h_s.2.2.1, h_s.2.2.2⟩
    simp; omega
  · split
    · exact hlost
    · split
      · exact hlost
      · refine bump_kept _ _ ⟨hlost.1, ?_, hlost.2.2.1, hlost.2.2.2⟩
        have := hl _ _ _ ‹_›
        simp at this ⊢; omega

theorem setBucket_kept (code : Nat) (k : Bucket) (s : State) (h_s : Kept q0 s) : Kept q0 (setBucket code k s) := by
  unfold setBucket
  with_reducible
    extract_lets +onlyGivenNames x
    refine kept_upd rfl ?_ rfl rfl rfl
    assumption

theorem raiseRaw_kept (code sev : Nat) (params : Bytes) (owner : Option HP) (s : State) (h_s : Kept q0 s) : Kept q0 (raiseRaw code sev params owner s) := by
  unfold raiseRaw
  with_reducible
    apply pushRec_kept
    extract_lets +onlyGivenNames x
    refine kept_foldl (fun t x ht => ?_) ?_
    refine kept_ite ?_ ?_
    apply pushEvt_kept
    assumption
    assumption
    assumption

theorem leaveLimited_kept (code : Nat) (s : State) (h_s : Kept q0 s) : Kept q0 (leaveLimited code s) := by
  unfold leaveLimited
  with_reducible
    refine kept_ite ?_ ?_
    apply raiseRaw_kept
    apply setBucket_kept
    assumption
    assumption

theorem raise_kept (code sev : Nat) (params : Bytes) (owner : Option HP) (s0 : State) (h_s0 : Kept q0 s0) : Kept q0 (raise code sev params owner s0) := by
  unfold raise
  with_reducible
    refine kept_ite ?_ ?_
    apply raiseRaw_kept
    apply setBucket_kept
    apply leaveLimited_kept
    assumption
    apply bump_kept
    apply setBucket_kept
    apply leaveLimited_kept
    assumption

theorem raiseIf_kept (c : Bool) (code sev : Nat) (params : Bytes) (owner : Option HP) (s : State) (h_s : Kept q0 s) : Kept q0 (raiseIf c code sev params owner s) := by
  unfold raiseIf
  with_reducible
    refine kept_ite ?_ ?_
    apply raise_kept
    assumption
    assumption

theorem eventsLost_kept (p : HP) (s : State) (h_s : Kept q0 s) : Kept q0 (eventsLost p s) := by
  unfold eventsLost
  with_reducible
    refine kept_ite ?_ ?_
    apply pushRec_kept
    apply pushEvt_kept
    apply setPart_kept
    assumption
    assumption

theorem refuse_kept (st : Sts) (s : State) (h_s : Kept q0 s) : Kept q0 (refuse st s).s := by
  unfold refuse
  with_reducible
    assumption

theorem done_kept (s : State) (h_s : Kept q0 s) : Kept q0 (done s).s := by
  unfold done
  with_reducible
    assumption

theorem doneWith_kept (resp : Bytes) (s : State) (h_s : Kept q0 s) : Kept q0 (doneWith resp s).s := by
  unfold doneWith
  with_reducible
    assumption

theorem startLong_kept (h : Hdr) (opcode limitMs : Nat) (s : State) (h_s : Kept q0 s) : Kept q0 (startLong h opcode limitMs s).2 := by
  unfold startLong
  with_reducible
    extract_lets +onlyGivenNames x
    extract_lets +onlyGivenNames x
    extract_lets +onlyGivenNames x
    dsimp -zeta only
    refine kept_upd rfl ?_ rfl rfl rfl
    assumption

theorem completeLong_kept (id : Nat) (st : Sts) (result : Bytes) (s : State) (h_s : Kept q0 s) : Kept q0 (completeLong id st result s) := by
  unfold completeLong
  with_reducible
    extract_lets +onlyGivenNames x
    extract_lets +onlyGivenNames x; refine kept_cut x ?_ ?_ <;> [(subst x); (clear_value x; intro _)]
    refine kept_upd rfl ?_ rfl rfl rfl
    assumption
    split
    assumption
    apply pushEvt_kept
    apply modPart_kept
    assumption

theorem completeOpt_kept (id : Option Nat) (st : Sts) (result : Bytes) (s : State) (h_s : Kept q0 s) : Kept q0 (completeOpt id st result s) := by
  unfold completeOpt
  with_reducible
    split
    apply completeLong_kept
    assumption
    assumption

theorem respond_kept (h : Hdr) (op : Nat) (st : U16) (resp : Bytes) (cache : Bool) (s : State) (h_s : Kept q0 s) : Kept q0 (respond h op st resp cache s) := by
  unfold respond
  with_reducible
    apply msix_kept
    apply modPart_kept
    assumption

theorem answer_kept (h : Hdr) (op : Nat) (r : Rep) (h_r : Kept q0 r.s) : Kept q0 (answer h op r) := by
  unfold answer
  with_reducible
    apply respond_kept
    apply bumpIf_kept
    assumption

theorem vciRecovery_kept (c : Cmd) (h : Hdr) (ok : Bool) (body : State → Rep) (s : State) (h_body : ∀ x0, Kept q0 x0 → Kept q0 (body x0).s) (h_s : Kept q0 s) : Kept q0 (vciRecovery c h ok body s) := by
  unfold vciRecovery
  with_reducible
    refine kept_ite ?_ ?_
    apply respond_kept
    refine kept_iter ?_ ?_
    apply refuse_kept
    assumption
    refine kept_iter ?_ ?_
    apply refuse_kept
    assumption
    refine kept_iter ?_ ?_
    apply refuse_kept
    assumption
    refine kept_iter ?_ ?_
    apply refuse_kept
    assumption
    apply h_body
    assumption
    apply bump_kept
    assumption

theorem countCmd_kept (h : Hdr) (s : State) (h_s : Kept q0 s) : Kept q0 (countCmd h s) := by
  unfold countCmd
  with_reducible
    apply bump_kept
    assumption

theorem vci_kept (c : Cmd) (h : Hdr) (ok : State → Bool) (body : State → Rep) (s : State) (h_body : ∀ x0, Kept q0 x0 → Kept q0 (body x0).s) (h_s : Kept q0 s) : Kept q0 (vci c h ok body s) := by
  unfold vci
  with_reducible
    refine kept_ite ?_ ?_
    assumption
    refine kept_ite ?_ ?_
    apply vciRecovery_kept
    assumption
    assumption
    refine kept_ite ?_ ?_
    apply bump_kept
    assumption
    extract_lets +onlyGivenNames x; refine kept_cut x ?_ ?_ <;> [(subst x); (clear_value x; intro _)]
    apply countCmd_kept
    assumption
    split
    apply respond_kept
    apply bump_kept
    assumption
    split
    apply answer_kept
    apply refuse_kept
    assumption
    apply answer_kept
    apply h_body
    assumption

theorem setRing_kept (p : HP) (n : Nat) (r : Ring) (s : State) (h_s : Kept q0 s) : Kept q0 (setRing p n r s) := by
  unfold setRing
  with_reducible
    apply modPart_kept
    assumption

theorem bindRing_kept (p : HP) (n : Nat) (u : RingUse) (s : State) (h_s : Kept q0 s) : Kept q0 (bindRing p n u s) := by
  unfold bindRing
  with_reducible
    split
    apply setRing_kept
    assumption
    assumption

theorem unbindRing_kept (p : HP) (n : Nat) (u : RingUse) (s : State) (h_s : Kept q0 s) : Kept q0 (unbindRing p n u s) := by
  unfold unbindRing
  with_reducible
    split
    refine kept_ite ?_ ?_
    apply setRing_kept
    assumption
    assumption
    assumption

theorem completeDesc_kept (p : HP) (n : Nat) (st : Sts) (len : Nat) (data : Bytes) (s : State) (h_s : Kept q0 s) : Kept q0 (completeDesc p n st len data s) := by
  unfold completeDesc
  with_reducible
    split
    assumption
    split
    assumption
    refine kept_ite ?_ ?_
    apply msix_kept
    apply setRing_kept
    assumption
    apply setRing_kept
    assumption

theorem writeBuffers_kept (p : HP) (n : Nat) (a0 : Nat) (a1 : Bytes) (a2 : State) (h_a2 : Kept q0 a2) : Kept q0 (writeBuffers p n a0 a1 a2) := by
  fun_induction writeBuffers p n a0 a1 a2
  with_reducible
    assumption
    assumption
    assumption
    rename_i ih; apply ih
    apply completeDesc_kept
    assumption

theorem ringWrite_kept (p : HP) (n : Nat) (u : RingUse) (data : Bytes) (s : State) (h_s : Kept q0 s) : ∀ t, (ringWrite p n u data s) = some t → Kept q0 t := by
  intro t h
  unfold ringWrite at h
  split at h
  · cases h
  · split at h
    · cases h
    · split at h
      · cases h
      · cases h; exact writeBuffers_kept _ _ _ _ _ h_s

theorem setCore_kept (n : Nat) (c : Core) (s : State) (h_s : Kept q0 s) : Kept q0 (setCore n c s) := by
  unfold setCore
  with_reducible
    extract_lets +onlyGivenNames x
    refine kept_upd rfl ?_ rfl rfl rfl
    assumption

theorem setSram_kept (cl : Nat) (r : Ram) (s : State) (h_s : Kept q0 s) : Kept q0 (setSram cl r s) := by
  unfold setSram
  with_reducible
    extract_lets +onlyGivenNames x
    refine kept_upd rfl ?_ rfl rfl rfl
    assumption

theorem stepPtr_kept (i : Fin 8) (step : Int) (c : Core) (s : State) (h_s : Kept q0 s) : Kept q0 (stepPtr i step c s).2 := by
  unfold stepPtr
  with_reducible
    refine kept_ite2 ?_ ?_
    refine kept_ite2 ?_ ?_
    assumption
    apply fresh_kept
    assumption
    refine kept_ite2 ?_ ?_
    assumption
    assumption

theorem resolve_kept (m : AMode) (c : Core) (s : State) (h_s : Kept q0 s) : KeptEa q0 (resolve m c s) := by
  unfold resolve
  with_reducible
    dsimp -zeta only
    split
    refine keptEa_ok ?_
    assumption
    split
    refine keptEa_ok ?_
    apply stepPtr_kept
    assumption
    exact keptEa_err _
    refine keptEa_ok ?_
    apply stepPtr_kept
    assumption
    extract_lets +onlyGivenNames x
    refine keptEa_ok ?_
    assumption
    refine keptEa_ok ?_
    assumption

theorem setTask_kept (t : Nat) (v : Task) (s : State) (h_s : Kept q0 s) : Kept q0 (setTask t v s) := by
  unfold setTask
  with_reducible
    extract_lets +onlyGivenNames x
    refine kept_upd rfl ?_ rfl rfl rfl
    assumption

theorem modTask_kept (t : Nat) (f : Task → Task) (s : State) (h_s : Kept q0 s) : Kept q0 (modTask t f s) := by
  unfold modTask
  with_reducible
    extract_lets +onlyGivenNames x
    refine kept_upd rfl ?_ rfl rfl rfl
    assumption

theorem setQ_kept (cl cls : Nat) (q : RdyQueue) (s : State) (h_s : Kept q0 s) : Kept q0 (setQ cl cls q s) := by
  unfold setQ
  with_reducible
    extract_lets +onlyGivenNames x
    refine kept_upd rfl ?_ rfl rfl rfl
    assumption

theorem poisonDma_kept (p : HP) (words : Nat) (s : State) (h_s : Kept q0 s) : Kept q0 (poisonDma p words s) := by
  unfold poisonDma
  with_reducible
    refine kept_ite ?_ ?_
    assumption
    refine kept_ite ?_ ?_
    apply raise_kept
    extract_lets +onlyGivenNames x
    refine kept_upd rfl ?_ rfl rfl rfl
    apply bumpBy_kept
    assumption
    apply bumpBy_kept
    assumption

theorem noteDepth_kept (cl cls : Nat) (s : State) (h_s : Kept q0 s) : Kept q0 (noteDepth cl cls s) := by
  unfold noteDepth
  with_reducible
    apply raiseIf_kept
    apply setQ_kept
    assumption

theorem touchQueue_kept (cl cls : Nat) (s : State) (h_s : Kept q0 s) : Kept q0 (touchQueue cl cls s) := by
  unfold touchQueue
  with_reducible
    apply setQ_kept
    assumption

theorem setProd_kept (id : Nat) (v : Producer) (s : State) (h_s : Kept q0 s) : Kept q0 (setProd id v s) := by
  unfold setProd
  with_reducible
    extract_lets +onlyGivenNames x
    refine kept_upd rfl ?_ rfl rfl rfl
    assumption

theorem stallProd_kept (id : Nat) (s : State) (h_s : Kept q0 s) : Kept q0 (stallProd id s) := by
  unfold stallProd
  with_reducible
    apply setProd_kept
    assumption

theorem resumeProd_kept (id : Nat) (s : State) (h_s : Kept q0 s) : Kept q0 (resumeProd id s) := by
  unfold resumeProd
  with_reducible
    extract_lets +onlyGivenNames x
    split
    assumption
    apply raiseIf_kept
    apply setProd_kept
    assumption

theorem resumeTask_kept (t : Nat) (s : State) (h_s : Kept q0 s) : Kept q0 (resumeTask t s) := by
  unfold resumeTask
  with_reducible
    split
    assumption
    split
    assumption
    apply resumeProd_kept
    apply setTask_kept
    assumption

theorem enterReady_kept (t : Nat) (k : Task) (s : State) (h_s : Kept q0 s) : Kept q0 (enterReady t k s) := by
  unfold enterReady
  with_reducible
    apply noteDepth_kept
    apply resumeTask_kept
    apply setTask_kept
    apply setQ_kept
    assumption

theorem makeReady_kept (t : Nat) (k0 : Task) (s : State) (h_s : Kept q0 s) : Kept q0 (makeReady t k0 s) := by
  unfold makeReady
  with_reducible
    refine kept_ite ?_ ?_
    apply enterReady_kept
    assumption
    apply raiseIf_kept
    apply bump_kept
    apply setTask_kept
    apply setQ_kept
    assumption

theorem freeEntry_kept (cl cls : Nat) (s : State) (h_s : Kept q0 s) : Kept q0 (freeEntry cl cls s) := by
  unfold freeEntry
  with_reducible
    extract_lets +onlyGivenNames x
    split
    assumption
    refine kept_ite ?_ ?_
    extract_lets +onlyGivenNames x
    split
    apply enterReady_kept
    apply setQ_kept
    assumption
    apply setQ_kept
    assumption
    assumption

theorem setFlags_kept (t : Nat) (bits : U32) (producer : Option Nat) (s : State) (h_s : Kept q0 s) : Kept q0 (setFlags t bits producer s) := by
  unfold setFlags
  with_reducible
    split
    assumption
    refine kept_ite ?_ ?_
    assumption
    refine kept_ite ?_ ?_
    extract_lets +onlyGivenNames x; refine kept_cut x ?_ ?_ <;> [(subst x); (clear_value x; intro _)]
    apply makeReady_kept
    apply bumpIf_kept
    assumption
    split
    refine kept_ite ?_ ?_
    apply stallProd_kept
    apply setTask_kept
    assumption
    assumption
    assumption
    apply setTask_kept
    apply bumpIf_kept
    assumption

theorem dequeue_kept (t : Nat) (k : Task) (s : State) (h_s : Kept q0 s) : Kept q0 (dequeue t k s) := by
  unfold dequeue
  with_reducible
    refine kept_ite ?_ ?_
    apply freeEntry_kept
    apply setTask_kept
    apply setQ_kept
    apply touchQueue_kept
    assumption
    apply resumeTask_kept
    apply setTask_kept
    apply setQ_kept
    apply touchQueue_kept
    assumption

theorem cancelTask_kept (t : Nat) (s : State) (h_s : Kept q0 s) : Kept q0 (cancelTask t s) := by
  unfold cancelTask
  with_reducible
    split
    assumption
    split
    assumption
    apply setTask_kept
    assumption
    apply bump_kept
    apply dequeue_kept
    assumption
    apply bump_kept
    apply dequeue_kept
    assumption
    apply setTask_kept
    assumption

theorem deleteTask_kept (t : Nat) (s : State) (h_s : Kept q0 s) : Kept q0 (deleteTask t s) := by
  unfold deleteTask
  with_reducible
    split
    assumption
    split
    apply setTask_kept
    assumption
    apply modTask_kept
    apply dequeue_kept
    assumption
    apply modTask_kept
    apply dequeue_kept
    assumption
    apply setTask_kept
    assumption

theorem setDelay_kept (t : Nat) (kind : DelayKind) (n period : Nat) (s : State) (h_s : Kept q0 s) : Kept q0 (setDelay t kind n period s) := by
  unfold setDelay
  with_reducible
    refine kept_ite ?_ ?_
    apply setFlags_kept
    assumption
    apply modTask_kept
    extract_lets +onlyGivenNames x
    refine kept_upd rfl ?_ rfl rfl rfl
    assumption

theorem setKern_kept (k : Nat) (v : Kern) (s : State) (h_s : Kept q0 s) : Kept q0 (setKern k v s) := by
  unfold setKern
  with_reducible
    extract_lets +onlyGivenNames x
    refine kept_upd rfl ?_ rfl rfl rfl
    assumption

theorem modKern_kept (k : Nat) (f : Kern → Kern) (s : State) (h_s : Kept q0 s) : Kept q0 (modKern k f s) := by
  unfold modKern
  with_reducible
    extract_lets +onlyGivenNames x
    refine kept_upd rfl ?_ rfl rfl rfl
    assumption

theorem modBind_kept (k b : Nat) (f : KBind → KBind) (s : State) (h_s : Kept q0 s) : Kept q0 (modBind k b f s) := by
  unfold modBind
  with_reducible
    apply modKern_kept
    assumption

theorem trigDrop_kept (k b : Nat) (s : State) (h_s : Kept q0 s) : Kept q0 (trigDrop k b s) := by
  unfold trigDrop
  with_reducible
    split
    assumption
    apply raise_kept
    apply setKern_kept
    assumption

theorem trigIdle_kept (k : Nat) (s : State) (h_s : Kept q0 s) : Kept q0 (trigIdle k s) := by
  unfold trigIdle
  with_reducible
    apply modKern_kept
    assumption

theorem noteRun_kept (t k b slot instant : Nat) (s : State) (h_s : Kept q0 s) : Kept q0 (noteRun t k b slot instant s) := by
  unfold noteRun
  with_reducible
    apply modTask_kept
    extract_lets +onlyGivenNames x
    refine kept_upd rfl ?_ rfl rfl rfl
    assumption

theorem triggerBind_kept (k b : Nat) (data : Bytes) (instant : Nat) (producer : Option Nat) (s : State) (h_s : Kept q0 s) : Kept q0 (triggerBind k b data instant producer s) := by
  unfold triggerBind
  with_reducible
    split
    assumption
    split
    assumption
    refine kept_ite ?_ ?_
    apply trigIdle_kept
    assumption
    refine kept_ite ?_ ?_
    apply trigDrop_kept
    assumption
    apply setFlags_kept
    apply noteRun_kept
    apply setKern_kept
    assumption

theorem expire_kept (t : Nat) (d : Delay) (s : State) (h_s : Kept q0 s) : Kept q0 (expire t d s) := by
  unfold expire
  with_reducible
    extract_lets +onlyGivenNames x
    extract_lets +onlyGivenNames x
    extract_lets +onlyGivenNames x; refine kept_cut x ?_ ?_ <;> [(subst x); (clear_value x; intro _)]
    apply modTask_kept
    assumption
    extract_lets +onlyGivenNames x
    extract_lets +onlyGivenNames x; refine kept_cut x ?_ ?_ <;> [(subst x); (clear_value x; intro _)]
    apply bump_kept
    extract_lets +onlyGivenNames x
    refine kept_upd rfl ?_ rfl rfl rfl
    assumption
    extract_lets +onlyGivenNames x; refine kept_cut x ?_ ?_ <;> [(subst x); (clear_value x; intro _)]
    apply raiseIf_kept
    assumption
    split
    assumption
    split
    apply setFlags_kept
    assumption
    split
    apply setFlags_kept
    assumption
    refine kept_ite ?_ ?_
    apply trigIdle_kept
    assumption
    refine kept_ite ?_ ?_
    apply trigDrop_kept
    apply bump_kept
    assumption
    apply setFlags_kept
    apply noteRun_kept
    assumption

theorem expireUpTo_kept (a0 : Nat) (a1 : State) (h_a1 : Kept q0 a1) : Kept q0 (expireUpTo a0 a1) := by
  fun_induction expireUpTo a0 a1
  with_reducible
    assumption
    assumption
    rename_i ih; apply ih
    apply expire_kept
    assumption

theorem dispatchOn_kept (t : Nat) (k : Task) (n pass : Nat) (s : State) (h_s : Kept q0 s) : Kept q0 (dispatchOn t k n pass s) := by
  unfold dispatchOn
  with_reducible
    extract_lets +onlyGivenNames x
    extract_lets +onlyGivenNames x
    extract_lets +onlyGivenNames x
    extract_lets +onlyGivenNames x; refine kept_cut x ?_ ?_ <;> [(subst x); (clear_value x; intro _)]
    apply touchQueue_kept
    assumption
    extract_lets +onlyGivenNames x; refine kept_cut x ?_ ?_ <;> [(subst x); (clear_value x; intro _)]
    apply setTask_kept
    assumption
    extract_lets +onlyGivenNames x; refine kept_cut x ?_ ?_ <;> [(subst x); (clear_value x; intro _)]
    refine kept_ite ?_ ?_
    assumption
    apply freeEntry_kept
    assumption
    extract_lets +onlyGivenNames x
    extract_lets +onlyGivenNames x
    extract_lets +onlyGivenNames x
    extract_lets +onlyGivenNames x; refine kept_cut x ?_ ?_ <;> [(subst x); (clear_value x; intro _)]
    apply setCore_kept
    assumption
    extract_lets +onlyGivenNames x; refine kept_cut x ?_ ?_ <;> [(subst x); (clear_value x; intro _)]
    apply bump_kept
    apply bump_kept
    apply bump_kept
    apply bump_kept
    assumption
    split
    assumption
    apply modKern_kept
    assumption

theorem runPass_kept (pass : Nat) (a0 : List Nat) (a1 : List Nat) (a2 : State) (h_a2 : Kept q0 a2) : Kept q0 (runPass pass a0 a1 a2).2 := by
  fun_induction runPass pass a0 a1 a2
  with_reducible
    assumption
    rename_i ih; apply ih
    assumption
    rename_i ih; apply ih
    apply dispatchOn_kept
    extract_lets +onlyGivenNames x
    refine kept_upd rfl ?_ rfl rfl rfl
    assumption

theorem matchCores_kept (s : State) (h_s : Kept q0 s) : Kept q0 (matchCores s) := by
  unfold matchCores
  with_reducible
    refine kept_ite ?_ ?_
    assumption
    apply runPass_kept
    apply runPass_kept
    apply runPass_kept
    assumption

theorem logPlacement_kept (kind reason item : Nat) (old new : Nat × Nat × Nat) (s : State) (h_s : Kept q0 s) : Kept q0 (logPlacement kind reason item old new s) := by
  unfold logPlacement
  with_reducible
    apply raise_kept
    extract_lets +onlyGivenNames x
    refine kept_upd rfl ?_ rfl rfl rfl
    assumption

theorem placeNew_kept (kind item : Nat) (s : State) (h_s : Kept q0 s) : Kept q0 (placeNew kind item s) := by
  unfold placeNew
  with_reducible
    apply logPlacement_kept
    extract_lets +onlyGivenNames x
    refine kept_upd rfl ?_ rfl rfl rfl
    apply fresh_kept
    assumption

theorem unplace_kept (kind item : Nat) (s : State) (h_s : Kept q0 s) : Kept q0 (unplace kind item s) := by
  unfold unplace
  with_reducible
    extract_lets +onlyGivenNames x
    refine kept_upd rfl ?_ rfl rfl rfl
    assumption

theorem movePlace_kept (m : PlaceMove) (s : State) (h_s : Kept q0 s) : Kept q0 (movePlace m s) := by
  unfold movePlace
  with_reducible
    extract_lets +onlyGivenNames x
    split
    assumption
    apply logPlacement_kept
    extract_lets +onlyGivenNames x
    refine kept_upd rfl ?_ rfl rfl rfl
    assumption

theorem switchMoves_kept (g : Nat) (s : State) (h_s : Kept q0 s) : Kept q0 (switchMoves g s) := by
  unfold switchMoves
  with_reducible
    extract_lets +onlyGivenNames x
    refine kept_foldl (fun t x ht => ?_) ?_
    apply movePlace_kept
    assumption
    extract_lets +onlyGivenNames x
    refine kept_upd rfl ?_ rfl rfl rfl
    assumption

theorem logTaskMove_kept (t : Nat) (k : Task) (reason cl : Nat) (s : State) (h_s : Kept q0 s) : Kept q0 (logTaskMove t k reason cl s) := by
  unfold logTaskMove
  with_reducible
    apply logPlacement_kept
    assumption

theorem endTask_kept (n t : Nat) (fault : Bool) (s : State) (h_s : Kept q0 s) : Kept q0 (endTask n t fault s) := by
  unfold endTask
  with_reducible
    extract_lets +onlyGivenNames x
    split
    assumption
    refine kept_ite ?_ ?_
    apply setTask_kept
    apply bumpIf_kept
    apply bumpIf_kept
    extract_lets +onlyGivenNames x
    split
    apply logTaskMove_kept
    assumption
    assumption
    refine kept_ite ?_ ?_
    apply setTask_kept
    apply bumpIf_kept
    apply bumpIf_kept
    extract_lets +onlyGivenNames x
    split
    apply logTaskMove_kept
    assumption
    assumption
    refine kept_ite ?_ ?_
    apply makeReady_kept
    apply bumpIf_kept
    apply bumpIf_kept
    extract_lets +onlyGivenNames x
    split
    apply logTaskMove_kept
    assumption
    assumption
    apply setTask_kept
    apply bumpIf_kept
    apply bumpIf_kept
    extract_lets +onlyGivenNames x
    split
    apply logTaskMove_kept
    assumption
    assumption

theorem releaseSlot_kept (r : TaskRun) (s : State) (h_s : Kept q0 s) : Kept q0 (releaseSlot r s) := by
  unfold releaseSlot
  with_reducible
    apply modBind_kept
    assumption

theorem aovEvent_kept (n k : Nat) (r : TaskRun) (s : State) (h_s : Kept q0 s) : Kept q0 (aovEvent n k r s) := by
  unfold aovEvent
  with_reducible
    split
    apply raiseIf_kept
    assumption
    assumption

theorem endRun_kept (n : Nat) (s : State) (h_s : Kept q0 s) : Kept q0 (endRun n s) := by
  unfold endRun
  with_reducible
    apply setCore_kept
    extract_lets +onlyGivenNames x
    split
    apply bumpIf_kept
    apply bumpIf_kept
    assumption
    apply endTask_kept
    extract_lets +onlyGivenNames x
    split
    apply aovEvent_kept
    apply releaseSlot_kept
    apply bumpIf_kept
    apply bumpIf_kept
    assumption
    apply bumpIf_kept
    apply bumpIf_kept
    assumption

theorem faultRun_kept (n : Nat) (f : CoreFault) (s : State) (h_s : Kept q0 s) : Kept q0 (faultRun n f s) := by
  unfold faultRun
  with_reducible
    extract_lets +onlyGivenNames x
    extract_lets +onlyGivenNames x
    extract_lets +onlyGivenNames x; refine kept_cut x ?_ ?_ <;> [(subst x); (clear_value x; intro _)]
    apply setCore_kept
    assumption
    extract_lets +onlyGivenNames x; refine kept_cut x ?_ ?_ <;> [(subst x); (clear_value x; intro _)]
    apply bumpIf_kept
    apply bump_kept
    assumption
    extract_lets +onlyGivenNames x
    extract_lets +onlyGivenNames x; refine kept_cut x ?_ ?_ <;> [(subst x); (clear_value x; intro _)]
    dsimp -zeta only
    split
    split
    apply raise_kept
    apply aovEvent_kept
    apply setKern_kept
    assumption
    assumption
    apply pushRec_kept
    apply fresh_kept
    assumption
    extract_lets +onlyGivenNames x; refine kept_cut x ?_ ?_ <;> [(subst x); (clear_value x; intro _)]
    apply bumpIf_kept
    apply bumpIf_kept
    assumption
    clear_value *; split
    apply setCore_kept
    apply endTask_kept
    assumption
    assumption

theorem relatch_kept (old new : U8) (cause : Nat) (s : State) (h_s : Kept q0 s) : Kept q0 (relatch old new cause s) := by
  unfold relatch
  with_reducible
    refine kept_ite ?_ ?_
    assumption
    apply raise_kept
    extract_lets +onlyGivenNames x
    extract_lets +onlyGivenNames x
    refine kept_upd rfl ?_ rfl rfl rfl
    assumption

theorem reeval_kept (reason : Nat) (s : State) (h_s : Kept q0 s) : Kept q0 (reeval reason s) := by
  unfold reeval
  with_reducible
    refine kept_ite ?_ ?_
    assumption
    extract_lets +onlyGivenNames x
    extract_lets +onlyGivenNames x
    extract_lets +onlyGivenNames x; refine kept_cut x ?_ ?_ <;> [(subst x); (clear_value x; intro _)]
    refine kept_upd rfl ?_ rfl rfl rfl
    assumption
    extract_lets +onlyGivenNames x
    extract_lets +onlyGivenNames x; refine kept_cut x ?_ ?_ <;> [(subst x); (clear_value x; intro _)]
    apply raise_kept
    assumption
    split
    apply raise_kept
    assumption
    apply modPart_kept
    extract_lets +onlyGivenNames x
    refine kept_foldl (fun t x ht => ?_) ?_
    apply relatch_kept
    assumption
    assumption

theorem toHealthy_kept (p : HP) (s : State) (h_s : Kept q0 s) : Kept q0 (toHealthy p s) := by
  unfold toHealthy
  with_reducible
    apply raise_kept
    apply modPart_kept
    assumption

theorem toDegraded_kept (p : HP) (lost : Option Nat) (s : State) (h_s : Kept q0 s) : Kept q0 (toDegraded p lost s) := by
  unfold toDegraded
  with_reducible
    extract_lets +onlyGivenNames x; refine kept_cut x ?_ ?_ <;> [(subst x); (clear_value x; intro _)]
    apply bump_kept
    apply modPart_kept
    assumption
    split
    apply raise_kept
    assumption
    assumption

theorem toFailing_kept (p : HP) (fromHealthy : Bool) (s : State) (h_s : Kept q0 s) : Kept q0 (toFailing p fromHealthy s) := by
  unfold toFailing
  with_reducible
    apply raiseIf_kept
    apply modPart_kept
    assumption

theorem toReturning_kept (p : HP) (s : State) (h_s : Kept q0 s) : Kept q0 (toReturning p s) := by
  unfold toReturning
  with_reducible
    apply raise_kept
    apply modPart_kept
    assumption

theorem evalPart_kept (p : HP) (s : State) (h_s : Kept q0 s) : Kept q0 (evalPart p s) := by
  unfold evalPart
  with_reducible
    refine kept_ite ?_ ?_
    assumption
    apply reeval_kept
    extract_lets +onlyGivenNames x
    split
    refine kept_ite ?_ ?_
    extract_lets +onlyGivenNames x
    split
    apply toHealthy_kept
    assumption
    refine kept_ite ?_ ?_
    apply toReturning_kept
    assumption
    apply toHealthy_kept
    assumption
    assumption
    refine kept_ite ?_ ?_
    assumption
    apply modPart_kept
    assumption
    refine kept_ite ?_ ?_
    assumption
    refine kept_ite ?_ ?_
    apply toFailing_kept
    assumption
    apply toDegraded_kept
    assumption
    refine kept_ite ?_ ?_
    apply toHealthy_kept
    assumption
    refine kept_ite ?_ ?_
    apply toFailing_kept
    assumption
    assumption
    refine kept_ite ?_ ?_
    apply toHealthy_kept
    assumption
    refine kept_ite ?_ ?_
    apply toDegraded_kept
    assumption
    assumption

theorem evalAll_kept (s : State) (h_s : Kept q0 s) : Kept q0 (evalAll s) := by
  unfold evalAll
  with_reducible
    refine kept_foldl (fun t x ht => ?_) ?_
    apply evalPart_kept
    assumption
    assumption

theorem toOut_kept (p : HP) (code : Nat) (params : Bytes) (reason : Nat) (s : State) (h_s : Kept q0 s) : Kept q0 (toOut p code params reason s) := by
  unfold toOut
  with_reducible
    apply evalPart_kept
    apply reeval_kept
    apply raise_kept
    apply bump_kept
    apply modPart_kept
    assumption

theorem countHeartbeat_kept (p : HP) (s : State) (h_s : Kept q0 s) : Kept q0 (countHeartbeat p s) := by
  unfold countHeartbeat
  with_reducible
    apply evalPart_kept
    apply modPart_kept
    assumption

theorem setClaim_kept (p : HP) (new : U8) (issuer : HP) (s : State) (h_s : Kept q0 s) : Kept q0 (setClaim p new issuer s) := by
  unfold setClaim
  with_reducible
    apply reeval_kept
    refine kept_ite ?_ ?_
    apply raise_kept
    apply modPart_kept
    assumption
    apply relatch_kept
    apply raise_kept
    apply modPart_kept
    assumption

theorem unbindUse_kept (p : HP) (n : Nat) (s : State) (h_s : Kept q0 s) : Kept q0 (unbindUse p n s) := by
  unfold unbindUse
  with_reducible
    split
    assumption
    extract_lets +onlyGivenNames x; refine kept_cut x ?_ ?_ <;> [(subst x); (clear_value x; intro _)]
    apply setRing_kept
    assumption
    extract_lets +onlyGivenNames x
    extract_lets +onlyGivenNames x
    extract_lets +onlyGivenNames x; refine kept_cut x ?_ ?_ <;> [(subst x); (clear_value x; intro _)]
    clear_value *; split
    apply unbindRing_kept
    assumption
    assumption
    extract_lets +onlyGivenNames x
    extract_lets +onlyGivenNames x
    extract_lets +onlyGivenNames x
    extract_lets +onlyGivenNames x
    extract_lets +onlyGivenNames x
    extract_lets +onlyGivenNames x
    extract_lets +onlyGivenNames x
    extract_lets +onlyGivenNames x
    extract_lets +onlyGivenNames x
    split
    refine kept_upd rfl ?_ rfl rfl rfl
    assumption
    refine kept_upd rfl ?_ rfl rfl rfl
    assumption
    refine kept_upd rfl ?_ rfl rfl rfl
    assumption
    refine kept_upd rfl ?_ rfl rfl rfl
    assumption
    refine kept_upd rfl ?_ rfl rfl rfl
    assumption
    refine kept_upd rfl ?_ rfl rfl rfl
    assumption
    refine kept_upd rfl ?_ rfl rfl rfl
    assumption
    assumption

theorem flushRing_kept (p : HP) (n : Nat) (s : State) (h_s : Kept q0 s) : Kept q0 (flushRing p n s) := by
  unfold flushRing
  with_reducible
    split
    assumption
    refine kept_foldl (fun t x ht => ?_) ?_
    apply completeDesc_kept
    assumption
    assumption

theorem checkWear_kept (r : Nat) (s : State) (h_s : Kept q0 s) : Kept q0 (checkWear r s) := by
  unfold checkWear
  with_reducible
    refine kept_ite ?_ ?_
    apply raise_kept
    extract_lets +onlyGivenNames x
    refine kept_upd rfl ?_ rfl rfl rfl
    assumption
    assumption

theorem countErase_kept (sector : Nat) (s : State) (h_s : Kept q0 s) : Kept q0 (countErase sector s) := by
  unfold countErase
  with_reducible
    refine kept_ite ?_ ?_
    assumption
    refine kept_ite ?_ ?_
    extract_lets +onlyGivenNames x
    extract_lets +onlyGivenNames x
    dsimp -zeta only
    refine kept_upd rfl ?_ rfl rfl rfl
    assumption
    extract_lets +onlyGivenNames x
    refine kept_upd rfl ?_ rfl rfl rfl
    assumption

theorem eraseSectors_kept (r : Nat) (sectors : List Nat) (s : State) (h_s : Kept q0 s) : Kept q0 (eraseSectors r sectors s) := by
  unfold eraseSectors
  with_reducible
    apply checkWear_kept
    extract_lets +onlyGivenNames x
    refine kept_foldl (fun t x ht => ?_) ?_
    apply countErase_kept
    assumption
    assumption

theorem keepConfig_kept (s : State) (h_s : Kept q0 s) : Kept q0 (keepConfig s) := by
  unfold keepConfig
  with_reducible
    apply bump_kept
    extract_lets +onlyGivenNames x
    refine kept_upd rfl ?_ rfl rfl rfl
    assumption

theorem storeConfig_kept (s : State) (h_s : Kept q0 s) : Kept q0 (storeConfig s) := by
  unfold storeConfig
  with_reducible
    apply keepConfig_kept
    apply eraseSectors_kept
    extract_lets +onlyGivenNames x
    refine kept_upd rfl ?_ rfl rfl rfl
    assumption

theorem stored_kept (region : Nat) (s : State) (r : Rep) (h_s : Kept q0 s) (h_r : Kept q0 r.s) : Kept q0 (stored region s r).s := by
  unfold stored
  with_reducible
    refine kept_iter ?_ ?_
    apply refuse_kept
    apply raise_kept
    apply bump_kept
    assumption
    assumption

theorem storeTables_kept (s : State) (h_s : Kept q0 s) : Kept q0 (storeTables s) := by
  unfold storeTables
  with_reducible
    apply keepConfig_kept
    apply eraseSectors_kept
    extract_lets +onlyGivenNames x
    refine kept_upd rfl ?_ rfl rfl rfl
    assumption

theorem storeCirc_kept (r : Rec) (s : State) (h_s : Kept q0 s) : Kept q0 (storeCirc r s) := by
  have h1 : ∀ c : PopBlk, c.buffer = s.pop.buffer → Kept q0 { s with pop := c } := fun c hc => kept_imp h_s rfl hc rfl rfl
  have h2 : ∀ nxt, Kept q0 (match tget s.pop.circSec nxt with
        | none => s
        | some _ =>
          eraseSectors 4 [0x121 + nxt]
            { s with pop := { s.pop with circ := tkeep (fun k _ => decide (oldestIn (tdel s.pop.circSec nxt) ≤ k)) s.pop.circ
                                         circSec := tdel s.pop.circSec nxt, oldestCirc := oldestIn (tdel s.pop.circSec nxt) } }) := by
    intro nxt
    split
    · exact h_s
    · exact eraseSectors_kept _ _ _ (h1 _ rfl)
  unfold storeCirc
  cases tget s.pop.circSec s.pop.circCur with
  | none => exact h1 _ rfl
  | some c => exact kept_ite (h1 _ rfl) (kept_imp (h2 _) rfl rfl rfl rfl)

theorem storeRec_kept (r : Rec) (s : State) (h_s : Kept q0 s) : Kept q0 (storeRec r s) := by
  have h : Kept q0 { s with pop := { s.pop with kept := tset s.pop.kept r.num r, keptUsed := s.pop.keptUsed + 1 } } := kept_upd rfl h_s rfl rfl rfl
  exact kept_ite (kept_ite (raise_kept _ _ _ _ _ (kept_upd rfl h rfl rfl rfl)) h) (storeCirc_kept _ _ h_s)

theorem beginFlush_kept (s : State) (h_s : Kept q0 s) : Kept q0 (beginFlush s) := by
  unfold beginFlush
  with_reducible
    extract_lets +onlyGivenNames x
    refine kept_upd rfl ?_ rfl rfl rfl
    assumption

theorem reportOverflow_kept (s : State) (h_s : Kept q0 s) : Kept q0 (reportOverflow s) := by
  unfold reportOverflow
  with_reducible
    refine kept_ite ?_ ?_
    apply raise_kept
    extract_lets +onlyGivenNames x
    refine kept_upd rfl ?_ rfl rfl rfl
    assumption
    assumption

theorem endFlush_kept (s : State) (h_s : Kept q0 s) : Kept q0 (endFlush s) := by
  have h1 : ∀ (b : List Rec) (f : Bool) (ts : U64), b.length ≤ 1024 → Kept q0 { s with pop := { s.pop with buffer := b, flushing := f, lastFlushTs := ts } } :=
    fun b f ts hb => ⟨h_s.1, hb, h_s.2.2.1, h_s.2.2.2⟩
  unfold endFlush
  refine reportOverflow_kept _ (bump_kept _ _ (kept_foldl (fun t x ht => storeRec_kept _ _ ht) (h1 _ _ _ ?_)))
  exact Nat.le_trans (List.length_filter_le _ _) h_s.2.1

theorem otpEvents_kept (group gen : Nat) (p : HP) (used : Nat) (s : State) (h_s : Kept q0 s) : Kept q0 (otpEvents group gen p used s) := by
  unfold otpEvents
  with_reducible
    apply raiseIf_kept
    apply raise_kept
    apply bump_kept
    assumption

theorem refreshOtp_kept (s : State) (h_s : Kept q0 s) : Kept q0 (refreshOtp s) := by
  unfold refreshOtp
  with_reducible
    extract_lets +onlyGivenNames x
    refine kept_upd rfl ?_ rfl rfl rfl
    assumption

theorem writeDir_kept (d : DirCopy) (s : State) (h_s : Kept q0 s) : Kept q0 (writeDir d s) := by
  unfold writeDir
  with_reducible
    refine kept_ite ?_ ?_
    apply eraseSectors_kept
    extract_lets +onlyGivenNames x
    refine kept_upd rfl ?_ rfl rfl rfl
    assumption
    apply eraseSectors_kept
    extract_lets +onlyGivenNames x
    refine kept_upd rfl ?_ rfl rfl rfl
    assumption

theorem writeDirBoth_kept (d : DirCopy) (s : State) (h_s : Kept q0 s) : Kept q0 (writeDirBoth d s) := by
  unfold writeDirBoth
  with_reducible
    apply eraseSectors_kept
    extract_lets +onlyGivenNames x
    dsimp -zeta only
    refine kept_upd rfl ?_ rfl rfl rfl
    assumption

theorem addTask_kept (k : Nat) (x : Kern) (b cls level : Nat) (reserved timer : Bool) (slot : Nat) (s : State) (h_s : Kept q0 s) : ∀ t, (addTask k x b cls level reserved timer slot s) = some t → Kept q0 t.2 := by
  intro t h
  unfold addTask at h
  rw [Option.bind_eq_some_iff] at h
  obtain ⟨p, h1, h2⟩ := h
  dsimp only at h2
  split at h2
  · cases h2
  · split at h2
    · cases h2
    · cases h2
      exact logPlacement_kept _ _ _ _ _ _ (setTask_kept _ _ _ h_s)

theorem addTasks_kept (k : Nat) (x : Kern) (b cls level : Nat) (reserved timer : Bool) (a0 : Nat) (a1 : Nat) (a2 : List Nat) (a3 : State) (h_a3 : Kept q0 a3) : ∀ t, (addTasks k x b cls level reserved timer a0 a1 a2 a3) = some t → Kept q0 t.2 := by
  induction a0 generalizing a1 a2 a3 with
  | zero => intro t h; simp only [addTasks, Option.some.injEq] at h; subst h; exact h_a3
  | succ n ih =>
    intro t h
    rw [addTasks, Option.bind_eq_some_iff] at h
    obtain ⟨p, h1, h2⟩ := h
    exact ih _ _ _ (addTask_kept _ _ _ _ _ _ _ _ _ h_a3 _ h1) t h2

theorem armTimer_kept (v : KBind) (s : State) (h_s : Kept q0 s) : Kept q0 (armTimer v s) := by
  unfold armTimer
  with_reducible
    refine kept_ite ?_ ?_
    extract_lets +onlyGivenNames x
    split
    split
    refine kept_ite ?_ ?_
    assumption
    apply setDelay_kept
    assumption
    assumption
    assumption
    assumption

theorem dropBind_kept (p : HP) (kern : Nat) (v : KBind) (s : State) (h_s : Kept q0 s) : Kept q0 (dropBind p kern v s) := by
  unfold dropBind
  with_reducible
    refine kept_ite ?_ ?_
    apply unbindRing_kept
    extract_lets +onlyGivenNames x
    refine kept_foldl (fun t x ht => ?_) ?_
    apply deleteTask_kept
    assumption
    assumption
    extract_lets +onlyGivenNames x
    refine kept_foldl (fun t x ht => ?_) ?_
    apply deleteTask_kept
    assumption
    assumption

theorem kernelSlab_kept (grid tag : Nat) (cells : Nat → Bytes) (s : State) (h_s : Kept q0 s) : Kept q0 (kernelSlab grid tag cells s) := by
  unfold kernelSlab
  with_reducible
    refine kept_foldl (fun t x ht => ?_) ?_
    extract_lets +onlyGivenNames x
    refine kept_foldl (fun t x ht => ?_) ?_
    refine kept_ite ?_ ?_
    apply triggerBind_kept
    assumption
    assumption
    assumption
    assumption

theorem kernState_kept (k : Nat) (st : KState) (s : State) (h_s : Kept q0 s) : Kept q0 (kernState k st s) := by
  unfold kernState
  with_reducible
    split
    assumption
    apply raise_kept
    apply setKern_kept
    assumption

theorem clearFaults_kept (k : Nat) (s : State) (h_s : Kept q0 s) : Kept q0 (clearFaults k s) := by
  unfold clearFaults
  with_reducible
    split
    assumption
    refine kept_foldl (fun t x ht => ?_) ?_
    refine kept_ite ?_ ?_
    apply setCore_kept
    assumption
    assumption
    apply setKern_kept
    assumption

theorem setPort_kept (k : Nat) (p : Port) (s : State) (h_s : Kept q0 s) : Kept q0 (setPort k p s) := by
  unfold setPort
  with_reducible
    extract_lets +onlyGivenNames x
    refine kept_upd rfl ?_ rfl rfl rfl
    assumption

theorem modPort_kept (k : Nat) (f : Port → Port) (s : State) (h_s : Kept q0 s) : Kept q0 (modPort k f s) := by
  unfold modPort
  with_reducible
    apply setPort_kept
    assumption

theorem setPair2_kept (pr : Nat) (p : Pair) (s : State) (h_s : Kept q0 s) : Kept q0 (setPair2 pr p s) := by
  unfold setPair2
  with_reducible
    refine kept_ite ?_ ?_
    extract_lets +onlyGivenNames x
    refine kept_upd rfl ?_ rfl rfl rfl
    assumption
    extract_lets +onlyGivenNames x
    refine kept_upd rfl ?_ rfl rfl rfl
    assumption

theorem modFrame_kept (r : Nat) (f : TxFrame → TxFrame) (s : State) (h_s : Kept q0 s) : Kept q0 (modFrame r f s) := by
  unfold modFrame
  with_reducible
    extract_lets +onlyGivenNames x
    refine kept_upd rfl ?_ rfl rfl rfl
    assumption

theorem freeTs_kept (r : Nat) (f : TxFrame) (s : State) (h_s : Kept q0 s) : Kept q0 (freeTs r f s) := by
  unfold freeTs
  with_reducible
    refine kept_foldl (fun t x ht => ?_) ?_
    apply modPort_kept
    assumption
    assumption

theorem reportTx_kept (p : HP) (n k : Nat) (index : U32) (f : TxFrame) (s : State) (h_s : Kept q0 s) : Kept q0 (reportTx p n k index f s) := by
  unfold reportTx
  with_reducible
    split
    split
    refine ringWrite_kept _ _ _ _ _  ?_  _ ‹_›
    assumption
    apply bump_kept
    assumption
    assumption

theorem completeDescs_kept (p : HP) (n : Nat) (st : U16) (a0 : Nat) (a1 : State) (h_a1 : Kept q0 a1) : Kept q0 (completeDescs p n st a0 a1) := by
  induction a0 generalizing a1 with
  | zero => exact h_a1
  | succ k ih =>
    unfold completeDescs
    split
    · exact h_a1
    · split
      · exact h_a1
      · exact ih _ (kept_ite (msix_kept _ _ _ (setRing_kept _ _ _ _ h_a1)) (setRing_kept _ _ _ _ h_a1))

theorem flushTaken_kept (p : HP) (n : Nat) (a0 : List Taken) (a1 : State) (h_a1 : Kept q0 a1) : Kept q0 (flushTaken p n a0 a1).2 := by
  fun_induction flushTaken p n a0 a1
  with_reducible
    assumption
    assumption
    rename_i ih; apply ih
    apply completeDescs_kept
    assumption

theorem settleHost_kept (p : HP) (n ref : Nat) (st : U16) (s : State) (h_s : Kept q0 s) : Kept q0 (settleHost p n ref st s) := by
  unfold settleHost
  with_reducible
    extract_lets +onlyGivenNames x
    dsimp -zeta only
    split
    assumption
    extract_lets +onlyGivenNames x
    extract_lets +onlyGivenNames x
    refine kept_upd rfl ?_ rfl rfl rfl
    apply flushTaken_kept
    assumption

theorem completeFrame_kept (r : Nat) (s : State) (h_s : Kept q0 s) : Kept q0 (completeFrame r s) := by
  unfold completeFrame
  with_reducible
    extract_lets +onlyGivenNames x
    split
    assumption
    extract_lets +onlyGivenNames x; refine kept_cut x ?_ ?_ <;> [(subst x); (clear_value x; intro _)]
    apply freeTs_kept
    extract_lets +onlyGivenNames x
    refine kept_upd rfl ?_ rfl rfl rfl
    assumption
    split
    apply settleHost_kept
    apply reportTx_kept
    assumption
    assumption

theorem finishCopy_kept (r : Nat) (s : State) (h_s : Kept q0 s) : Kept q0 (finishCopy r s) := by
  unfold finishCopy
  with_reducible
    extract_lets +onlyGivenNames x; refine kept_cut x ?_ ?_ <;> [(subst x); (clear_value x; intro _)]
    apply modFrame_kept
    assumption
    split
    assumption
    refine kept_ite ?_ ?_
    apply completeFrame_kept
    assumption
    assumption

theorem flagFrame_kept (r : Nat) (g : TxFlags → TxFlags) (s : State) (h_s : Kept q0 s) : Kept q0 (flagFrame r g s) := by
  unfold flagFrame
  with_reducible
    apply modFrame_kept
    assumption

theorem discardCopy_kept (r k : Nat) (s : State) (h_s : Kept q0 s) : Kept q0 (discardCopy r k s) := by
  unfold discardCopy
  with_reducible
    split
    assumption
    apply finishCopy_kept
    refine kept_ite ?_ ?_
    apply modFrame_kept
    apply bump_kept
    apply flagFrame_kept
    assumption
    apply bump_kept
    apply flagFrame_kept
    assumption

theorem takeTs_kept (k r : Nat) (ptp : Bool) (s : State) (h_s : Kept q0 s) : Kept q0 (takeTs k r ptp s) := by
  unfold takeTs
  with_reducible
    refine kept_ite ?_ ?_
    assumption
    refine kept_ite ?_ ?_
    apply setPort_kept
    assumption
    refine kept_ite ?_ ?_
    apply raise_kept
    apply setPort_kept
    apply bump_kept
    apply flagFrame_kept
    assumption
    apply bump_kept
    apply flagFrame_kept
    assumption

theorem startOn_kept (k r : Nat) (s : State) (h_s : Kept q0 s) : Kept q0 (startOn k r s) := by
  unfold startOn
  with_reducible
    split
    assumption
    apply modPort_kept
    refine kept_ite ?_ ?_
    apply takeTs_kept
    assumption
    assumption

theorem deferTimed_kept (k r : Nat) (s : State) (h_s : Kept q0 s) : Kept q0 (deferTimed k r s) := by
  unfold deferTimed
  with_reducible
    split
    refine kept_ite ?_ ?_
    apply bump_kept
    apply flagFrame_kept
    assumption
    assumption
    assumption

theorem startOrDefer_kept (k r : Nat) (s : State) (h_s : Kept q0 s) : Kept q0 (startOrDefer k r s) := by
  unfold startOrDefer
  with_reducible
    refine kept_ite ?_ ?_
    refine kept_ite ?_ ?_
    apply deferTimed_kept
    apply modPort_kept
    apply fresh_kept
    assumption
    apply startOn_kept
    apply fresh_kept
    assumption
    apply startOn_kept
    assumption

theorem tryStart_kept (k : Nat) (s : State) (h_s : Kept q0 s) : Kept q0 (tryStart k s) := by
  unfold tryStart
  with_reducible
    refine kept_ite ?_ ?_
    assumption
    extract_lets +onlyGivenNames x
    split
    refine kept_ite ?_ ?_
    apply startOrDefer_kept
    assumption
    assumption
    split
    assumption
    refine kept_ite ?_ ?_
    apply startOrDefer_kept
    assumption
    apply modPort_kept
    apply startOrDefer_kept
    assumption

theorem kickPorts_kept (s : State) (h_s : Kept q0 s) : Kept q0 (kickPorts s) := by
  unfold kickPorts
  with_reducible
    refine kept_foldl (fun t x ht => ?_) ?_
    apply tryStart_kept
    assumption
    assumption

theorem enterLq_kept (k : Nat) (e : LqEntry) (s : State) (h_s : Kept q0 s) : Kept q0 (enterLq k e s) := by
  unfold enterLq
  with_reducible
    apply modPort_kept
    assumption

theorem dropLq_kept (k r : Nat) (s : State) (h_s : Kept q0 s) : Kept q0 (dropLq k r s) := by
  unfold dropLq
  with_reducible
    apply modPort_kept
    assumption

theorem fireOn_kept (k r : Nat) (s : State) (h_s : Kept q0 s) : Kept q0 (fireOn k r s) := by
  unfold fireOn
  with_reducible
    extract_lets +onlyGivenNames x; refine kept_cut x ?_ ?_ <;> [(subst x); (clear_value x; intro _)]
    apply dropLq_kept
    assumption
    extract_lets +onlyGivenNames x
    extract_lets +onlyGivenNames x
    extract_lets +onlyGivenNames x; refine kept_cut x ?_ ?_ <;> [(subst x); (clear_value x; intro _)]
    refine kept_ite ?_ ?_
    apply bump_kept
    apply flagFrame_kept
    assumption
    assumption
    extract_lets +onlyGivenNames x; refine kept_cut x ?_ ?_ <;> [(subst x); (clear_value x; intro _)]
    refine kept_ite ?_ ?_
    apply deferTimed_kept
    assumption
    assumption
    split
    apply dropLq_kept
    assumption
    refine kept_ite ?_ ?_
    apply discardCopy_kept
    assumption
    apply tryStart_kept
    apply modPort_kept
    assumption

theorem lateAction_kept (group late : Nat) (s : State) (h_s : Kept q0 s) : Kept q0 (lateAction group late s) := by
  unfold lateAction
  with_reducible
    apply raise_kept
    apply bump_kept
    assumption

theorem refuseFrame_kept (r : Nat) (st : Sts) (s : State) (h_s : Kept q0 s) : Kept q0 (refuseFrame r st s) := by
  unfold refuseFrame
  with_reducible
    split
    assumption
    apply completeFrame_kept
    apply modFrame_kept
    extract_lets +onlyGivenNames x
    refine kept_foldl (fun t x ht => ?_) ?_
    apply dropLq_kept
    assumption
    assumption

theorem displace_kept (k : Nat) (s : State) (h_s : Kept q0 s) : Kept q0 (displace k s) := by
  unfold displace
  with_reducible
    refine kept_ite ?_ ?_
    extract_lets +onlyGivenNames x
    split
    apply refuseFrame_kept
    apply bump_kept
    assumption
    assumption
    assumption

theorem enterFrame_kept (r : Nat) (f : TxFrame) (s : State) (h_s : Kept q0 s) : Kept q0 (enterFrame r f s) := by
  unfold enterFrame
  with_reducible
    extract_lets +onlyGivenNames x; refine kept_cut x ?_ ?_ <;> [(subst x); (clear_value x; intro _)]
    refine kept_ite ?_ ?_
    extract_lets +onlyGivenNames x
    refine kept_foldl (fun t x ht => ?_) ?_
    apply displace_kept
    assumption
    assumption
    assumption
    split
    refine kept_foldl (fun t x ht => ?_) ?_
    refine kept_ite ?_ ?_
    apply discardCopy_kept
    assumption
    apply tryStart_kept
    apply modPort_kept
    assumption
    assumption
    refine kept_ite ?_ ?_
    extract_lets +onlyGivenNames x; refine kept_cut x ?_ ?_ <;> [(subst x); (clear_value x; intro _)]
    apply lateAction_kept
    apply flagFrame_kept
    assumption
    refine kept_foldl (fun t x ht => ?_) ?_
    apply fireOn_kept
    assumption
    assumption
    refine kept_ite ?_ ?_
    apply modPort_kept
    assumption
    extract_lets +onlyGivenNames x
    refine kept_foldl (fun t x ht => ?_) ?_
    apply enterLq_kept
    assumption
    assumption

theorem releaseOne_kept (k : Nat) (s : State) (h_s : Kept q0 s) : Kept q0 (releaseOne k s) := by
  unfold releaseOne
  with_reducible
    split
    assumption
    split
    apply modPort_kept
    assumption
    refine kept_ite ?_ ?_
    assumption
    apply enterFrame_kept
    apply modPort_kept
    assumption

theorem releaseHeld_kept (k : Nat) (s : State) (h_s : Kept q0 s) : Kept q0 (releaseHeld k s) := by
  unfold releaseHeld
  with_reducible
    refine kept_ite ?_ ?_
    apply releaseOne_kept
    apply releaseOne_kept
    assumption
    apply releaseOne_kept
    assumption

theorem sendFrame_kept (q : TxReq) (s : State) (h_s : Kept q0 s) : Kept q0 (sendFrame q s).2.2 := by
  unfold sendFrame
  with_reducible
    refine kept_ite3 ?_ ?_
    extract_lets +onlyGivenNames x
    refine kept_foldl (fun t x ht => ?_) ?_
    apply bumpIf_kept
    assumption
    assumption
    refine kept_ite3 ?_ ?_
    assumption
    refine kept_ite3 ?_ ?_
    assumption
    refine kept_ite3 ?_ ?_
    extract_lets +onlyGivenNames x
    refine kept_foldl (fun t x ht => ?_) ?_
    apply bumpIf_kept
    assumption
    assumption
    apply enterFrame_kept
    refine kept_ite ?_ ?_
    apply setPair2_kept
    extract_lets +onlyGivenNames x
    split
    split
    refine kept_upd rfl ?_ rfl rfl rfl
    assumption
    refine kept_upd rfl ?_ rfl rfl rfl
    assumption
    split
    refine kept_upd rfl ?_ rfl rfl rfl
    assumption
    refine kept_upd rfl ?_ rfl rfl rfl
    assumption
    extract_lets +onlyGivenNames x
    split
    split
    refine kept_upd rfl ?_ rfl rfl rfl
    assumption
    refine kept_upd rfl ?_ rfl rfl rfl
    assumption
    split
    refine kept_upd rfl ?_ rfl rfl rfl
    assumption
    refine kept_upd rfl ?_ rfl rfl rfl
    assumption

theorem sendOwn_kept (q : TxReq) (s : State) (h_s : Kept q0 s) : Kept q0 (sendOwn q s) := by
  unfold sendOwn
  with_reducible
    apply sendFrame_kept
    assumption

theorem fireFrames_kept (s : State) (h_s : Kept q0 s) : Kept q0 (fireFrames s) := by
  unfold fireFrames
  with_reducible
    refine kept_foldl (fun t x ht => ?_) ?_
    apply releaseHeld_kept
    apply fireOn_kept
    assumption
    assumption

theorem noteCancelled_kept (o : TxOwner) (s : State) (h_s : Kept q0 s) : Kept q0 (noteCancelled o s) := by
  unfold noteCancelled
  with_reducible
    extract_lets +onlyGivenNames x
    split
    refine kept_upd rfl ?_ rfl rfl rfl
    assumption
    assumption

theorem restartGoose_kept (o : TxOwner) (s : State) (h_s : Kept q0 s) : Kept q0 (restartGoose o s) := by
  unfold restartGoose
  with_reducible
    extract_lets +onlyGivenNames x
    split
    refine kept_upd rfl ?_ rfl rfl rfl
    assumption
    assumption

theorem cancelLaunches_kept (s : State) (h_s : Kept q0 s) : Kept q0 (cancelLaunches s).2 := by
  unfold cancelLaunches
  with_reducible
    extract_lets +onlyGivenNames x
    dsimp -zeta only
    refine kept_foldl2 (fun t x ht => ?_) ?_
    extract_lets +onlyGivenNames x
    split
    assumption
    refine kept_ite2 ?_ ?_
    extract_lets +onlyGivenNames x; refine kept_cut x ?_ ?_ <;> [(subst x); (clear_value x; intro _)]
    apply bump_kept
    apply restartGoose_kept
    apply modPort_kept
    assumption
    refine kept_foldl (fun t x ht => ?_) ?_
    apply fireOn_kept
    assumption
    assumption
    apply noteCancelled_kept
    apply refuseFrame_kept
    apply flagFrame_kept
    assumption
    assumption

theorem lanDown_kept (k cause : Nat) (s : State) (h_s : Kept q0 s) : Kept q0 (lanDown k cause s) := by
  unfold lanDown
  with_reducible
    refine kept_ite ?_ ?_
    assumption
    apply raise_kept
    apply setPair2_kept
    assumption

theorem lanHeard_kept (k : Nat) (s : State) (h_s : Kept q0 s) : Kept q0 (lanHeard k s) := by
  unfold lanHeard
  with_reducible
    apply raiseIf_kept
    apply setPair2_kept
    assumption

theorem linkDown_kept (k : Nat) (s : State) (h_s : Kept q0 s) : Kept q0 (linkDown k s) := by
  unfold linkDown
  with_reducible
    refine kept_ite ?_ ?_
    assumption
    extract_lets +onlyGivenNames x
    extract_lets +onlyGivenNames x
    extract_lets +onlyGivenNames x
    extract_lets +onlyGivenNames x; refine kept_cut x ?_ ?_ <;> [(subst x); (clear_value x; intro _)]
    apply setPort_kept
    assumption
    extract_lets +onlyGivenNames x; refine kept_cut x ?_ ?_ <;> [(subst x); (clear_value x; intro _)]
    apply raise_kept
    assumption
    extract_lets +onlyGivenNames x; refine kept_cut x ?_ ?_ <;> [(subst x); (clear_value x; intro _)]
    refine kept_ite ?_ ?_
    apply lanDown_kept
    assumption
    assumption
    extract_lets +onlyGivenNames x; refine kept_cut x ?_ ?_ <;> [(subst x); (clear_value x; intro _)]
    refine kept_foldl (fun t x ht => ?_) ?_
    apply discardCopy_kept
    assumption
    assumption
    refine kept_foldl (fun t x ht => ?_) ?_
    refine kept_ite ?_ ?_
    apply discardCopy_kept
    assumption
    apply finishCopy_kept
    apply modFrame_kept
    assumption
    assumption

theorem noteSkew_kept (pr us : Nat) (mac : U48) (s : State) (h_s : Kept q0 s) : Kept q0 (noteSkew pr us mac s) := by
  unfold noteSkew
  with_reducible
    apply raiseIf_kept
    apply setPair2_kept
    assumption

theorem noteDup_kept (pr d : Nat) (mac : U48) (s : State) (h_s : Kept q0 s) : Kept q0 (noteDup pr d mac s) := by
  unfold noteDup
  with_reducible
    apply raiseIf_kept
    apply setPair2_kept
    assumption

theorem newEntry_kept (key : Nat) (e : SrcEntry) (s : State) (h_s : Kept q0 s) : Kept q0 (newEntry key e s) := by
  unfold newEntry
  with_reducible
    refine kept_ite ?_ ?_
    extract_lets +onlyGivenNames x
    dsimp -zeta only
    extract_lets +onlyGivenNames x
    split
    refine kept_upd rfl ?_ rfl rfl rfl
    assumption
    extract_lets +onlyGivenNames x; refine kept_cut x ?_ ?_ <;> [(subst x); (clear_value x; intro _)]
    apply bump_kept
    extract_lets +onlyGivenNames x
    refine kept_upd rfl ?_ rfl rfl rfl
    assumption
    extract_lets +onlyGivenNames x
    refine kept_upd rfl ?_ rfl rfl rfl
    apply raise_kept
    assumption
    extract_lets +onlyGivenNames x
    dsimp -zeta only
    extract_lets +onlyGivenNames x
    refine kept_upd rfl ?_ rfl rfl rfl
    assumption

theorem unknownSource_kept (k : Nat) (mac : U48) (seq : U16) (s : State) (h_s : Kept q0 s) : Kept q0 (unknownSource k mac seq s).2 := by
  unfold unknownSource
  with_reducible
    extract_lets +onlyGivenNames x
    extract_lets +onlyGivenNames x
    extract_lets +onlyGivenNames x
    extract_lets +onlyGivenNames x
    split
    apply newEntry_kept
    assumption
    refine kept_ite2 ?_ ?_
    apply newEntry_kept
    assumption
    refine kept_ite2 ?_ ?_
    apply noteDup_kept
    refine kept_ite ?_ ?_
    apply noteSkew_kept
    apply newEntry_kept
    apply bump_kept
    assumption
    apply newEntry_kept
    apply bump_kept
    assumption
    refine kept_ite2 ?_ ?_
    apply newEntry_kept
    assumption
    refine kept_ite2 ?_ ?_
    apply newEntry_kept
    assumption
    apply newEntry_kept
    apply bump_kept
    assumption

theorem countDrop_kept (k : Nat) (c : Cls) (s : State) (h_s : Kept q0 s) : Kept q0 (countDrop k c s) := by
  unfold countDrop
  with_reducible
    refine kept_ite ?_ ?_
    apply modPort_kept
    apply bump_kept
    assumption
    apply bump_kept
    assumption

theorem reclaim_kept (k len : Nat) (a0 : Nat) (a1 : State) (h_a1 : Kept q0 a1) : Kept q0 (reclaim k len a0 a1) := by
  fun_induction reclaim k len a0 a1
  with_reducible
    assumption
    assumption
    assumption
    rename_i ih; apply ih
    apply bump_kept
    apply countDrop_kept
    apply setPort_kept
    assumption

theorem enterIn_kept (k : Nat) (f : InFrame) (s0 : State) (h_s0 : Kept q0 s0) : Kept q0 (enterIn k f s0).2 := by
  unfold enterIn
  with_reducible
    extract_lets +onlyGivenNames x; refine kept_cutf x ?_ ?_ <;> [(subst x); (clear_value x; intro _)]
    apply modPort_kept
    dsimp -zeta only
    extract_lets +onlyGivenNames x
    extract_lets +onlyGivenNames x
    extract_lets +onlyGivenNames x; refine kept_cut x ?_ ?_ <;> [(subst x); (clear_value x; intro _)]
    apply reclaim_kept
    apply fresh_kept
    assumption
    extract_lets +onlyGivenNames x; refine kept_cut x ?_ ?_ <;> [(subst x); (clear_value x; intro _)]
    apply countDrop_kept
    assumption
    split
    refine kept_ite2 ?_ ?_
    extract_lets +onlyGivenNames x
    dsimp -zeta only
    apply_assumption
    assumption
    apply raise_kept
    assumption
    refine kept_ite2 ?_ ?_
    apply countDrop_kept
    apply fresh_kept
    assumption
    extract_lets +onlyGivenNames x
    dsimp -zeta only
    apply_assumption
    apply fresh_kept
    assumption

theorem popIn_kept (k : Nat) (c : Cls) (s : State) (h_s : Kept q0 s) : Kept q0 (popIn k c s) := by
  unfold popIn
  with_reducible
    refine kept_ite ?_ ?_
    assumption
    apply modPort_kept
    assumption

theorem poisonPort_kept (k words : Nat) (s : State) (h_s : Kept q0 s) : Kept q0 (poisonPort k words s) := by
  unfold poisonPort
  with_reducible
    refine kept_ite ?_ ?_
    assumption
    refine kept_ite ?_ ?_
    apply raise_kept
    apply setPort_kept
    apply bumpBy_kept
    assumption
    apply bumpBy_kept
    assumption

theorem setStream_kept (h : Nat) (v : Stream) (s : State) (h_s : Kept q0 s) : Kept q0 (setStream h v s) := by
  unfold setStream
  with_reducible
    extract_lets +onlyGivenNames x
    refine kept_upd rfl ?_ rfl rfl rfl
    assumption

theorem modStream_kept (h : Nat) (f : Stream → Stream) (s : State) (h_s : Kept q0 s) : Kept q0 (modStream h f s) := by
  unfold modStream
  with_reducible
    extract_lets +onlyGivenNames x
    refine kept_upd rfl ?_ rfl rfl rfl
    assumption

theorem setGrid_kept (g : Nat) (v : Grid) (s : State) (h_s : Kept q0 s) : Kept q0 (setGrid g v s) := by
  unfold setGrid
  with_reducible
    extract_lets +onlyGivenNames x
    refine kept_upd rfl ?_ rfl rfl rfl
    assumption

theorem modGrid_kept (g : Nat) (f : Grid → Grid) (s : State) (h_s : Kept q0 s) : Kept q0 (modGrid g f s) := by
  unfold modGrid
  with_reducible
    apply setGrid_kept
    assumption

theorem setSlab_kept (g tag : Nat) (v : Slab) (s : State) (h_s : Kept q0 s) : Kept q0 (setSlab g tag v s) := by
  unfold setSlab
  with_reducible
    apply modGrid_kept
    assumption

theorem modSlab_kept (g tag : Nat) (f : Slab → Slab) (s : State) (h_s : Kept q0 s) : Kept q0 (modSlab g tag f s) := by
  unfold modSlab
  with_reducible
    apply modGrid_kept
    assumption

theorem poolCheck_kept (s : State) (h_s : Kept q0 s) : Kept q0 (poolCheck s) := by
  unfold poolCheck
  with_reducible
    apply raiseIf_kept
    extract_lets +onlyGivenNames x
    split
    refine kept_upd rfl ?_ rfl rfl rfl
    assumption
    refine kept_upd rfl ?_ rfl rfl rfl
    assumption

theorem gridCheck_kept (g : Nat) (s : State) (h_s : Kept q0 s) : Kept q0 (gridCheck g s) := by
  unfold gridCheck
  with_reducible
    refine kept_ite ?_ ?_
    apply poolCheck_kept
    apply raise_kept
    apply modGrid_kept
    assumption
    refine kept_ite ?_ ?_
    apply poolCheck_kept
    apply raise_kept
    apply modGrid_kept
    assumption
    assumption

theorem fillStream_kept (g tag h : Nat) (s : State) (h_s : Kept q0 s) : Kept q0 (fillStream g tag h s) := by
  unfold fillStream
  with_reducible
    dsimp -zeta only
    split
    apply bumpBy_kept
    apply bumpBy_kept
    apply modSlab_kept
    assumption
    assumption

theorem fillSlab_kept (g tag : Nat) (s : State) (h_s : Kept q0 s) : Kept q0 (fillSlab g tag s) := by
  unfold fillSlab
  with_reducible
    split
    assumption
    refine kept_foldl (fun t x ht => ?_) ?_
    apply fillStream_kept
    assumption
    apply modSlab_kept
    assumption

theorem mergeHeld_kept (g tag : Nat) (s : State) (h_s : Kept q0 s) : Kept q0 (mergeHeld g tag s).2 := by
  unfold mergeHeld
  with_reducible
    extract_lets +onlyGivenNames x; refine kept_cuth x ?_ ?_ <;> [(subst x); (clear_value x; intro _)]
    intro _
    intro _
    apply modSlab_kept
    dsimp -zeta only
    split
    assumption
    apply modSlab_kept
    extract_lets +onlyGivenNames x
    refine kept_foldl2 (fun t x ht => ?_) ?_
    extract_lets +onlyGivenNames x
    apply_assumption
    assumption
    assumption

theorem modPub_kept (n : Nat) (f : Pub → Pub) (s : State) (h_s : Kept q0 s) : Kept q0 (modPub n f s) := by
  unfold modPub
  with_reducible
    extract_lets +onlyGivenNames x
    refine kept_upd rfl ?_ rfl rfl rfl
    assumption

theorem pubState_kept (n : Nat) (st : PubState) (cause : Nat) (s : State) (h_s : Kept q0 s) : Kept q0 (pubState n st cause s) := by
  unfold pubState
  with_reducible
    split
    assumption
    refine kept_ite ?_ ?_
    assumption
    apply raise_kept
    apply modPub_kept
    assumption

theorem pubMemberCfg_kept (h : Nat) (s : State) (h_s : Kept q0 s) : Kept q0 (pubMemberCfg h s) := by
  unfold pubMemberCfg
  with_reducible
    refine kept_foldl (fun t x ht => ?_) ?_
    refine kept_ite ?_ ?_
    refine kept_ite ?_ ?_
    apply pubState_kept
    apply modPub_kept
    assumption
    apply modPub_kept
    assumption
    assumption
    assumption

theorem pubMemberGrid_kept (h : Nat) (s : State) (h_s : Kept q0 s) : Kept q0 (pubMemberGrid h s) := by
  unfold pubMemberGrid
  with_reducible
    refine kept_foldl (fun t x ht => ?_) ?_
    refine kept_ite ?_ ?_
    refine kept_ite ?_ ?_
    apply modPub_kept
    assumption
    refine kept_ite ?_ ?_
    assumption
    apply raise_kept
    apply modPub_kept
    assumption
    assumption
    assumption

theorem pubRecord_kept (n : Nat) (p : Pub) (tag : Nat) (data : Bytes) (patch absent : Bool) (s : State) (h_s : Kept q0 s) : Kept q0 (pubRecord n p tag data patch absent s) := by
  unfold pubRecord
  with_reducible
    split
    apply modPub_kept
    refine ringWrite_kept _ _ _ _ _  ?_  _ ‹_›
    assumption
    apply modPub_kept
    assumption

theorem pubFinal_kept (g tag : Nat) (s : State) (h_s : Kept q0 s) : Kept q0 (pubFinal g tag s) := by
  unfold pubFinal
  with_reducible
    split
    assumption
    refine kept_foldl (fun t x ht => ?_) ?_
    refine kept_ite ?_ ?_
    refine kept_ite ?_ ?_
    apply pubRecord_kept
    assumption
    apply modPub_kept
    assumption
    assumption
    assumption

theorem pubPatch_kept (g tag : Nat) (l : List (Nat × Nat × Cell)) (s : State) (h_s : Kept q0 s) : Kept q0 (pubPatch g tag l s) := by
  unfold pubPatch
  with_reducible
    dsimp -zeta only
    split
    assumption
    refine kept_foldl (fun t x ht => ?_) ?_
    refine kept_ite ?_ ?_
    assumption
    refine kept_ite ?_ ?_
    refine kept_ite ?_ ?_
    apply pubRecord_kept
    assumption
    assumption
    refine kept_ite ?_ ?_
    apply modPub_kept
    assumption
    assumption
    assumption

theorem noteLate_kept (g tag due : Nat) (s : State) (h_s : Kept q0 s) : Kept q0 (noteLate g tag due s) := by
  unfold noteLate
  with_reducible
    refine kept_ite ?_ ?_
    apply raise_kept
    apply bump_kept
    assumption
    assumption

theorem finalRelease_kept (g tag : Nat) (cause : SlabCause) (s0 : State) (h_s0 : Kept q0 s0) : Kept q0 (finalRelease g tag cause s0) := by
  unfold finalRelease
  with_reducible
    extract_lets +onlyGivenNames x; refine kept_cut x ?_ ?_ <;> [(subst x); (clear_value x; intro _)]
    apply mergeHeld_kept
    assumption
    extract_lets +onlyGivenNames x; refine kept_cut x ?_ ?_ <;> [(subst x); (clear_value x; intro _)]
    refine kept_ite ?_ ?_
    assumption
    apply fillSlab_kept
    assumption
    extract_lets +onlyGivenNames x
    extract_lets +onlyGivenNames x
    extract_lets +onlyGivenNames x; refine kept_cut x ?_ ?_ <;> [(subst x); (clear_value x; intro _)]
    apply modSlab_kept
    assumption
    extract_lets +onlyGivenNames x; refine kept_cut x ?_ ?_ <;> [(subst x); (clear_value x; intro _)]
    apply modGrid_kept
    assumption
    extract_lets +onlyGivenNames x; refine kept_cut x ?_ ?_ <;> [(subst x); (clear_value x; intro _)]
    split
    apply bump_kept
    assumption
    apply bump_kept
    assumption
    assumption
    extract_lets +onlyGivenNames x; refine kept_cut x ?_ ?_ <;> [(subst x); (clear_value x; intro _)]
    apply pubFinal_kept
    assumption
    split
    assumption
    refine kept_ite ?_ ?_
    assumption
    extract_lets +onlyGivenNames x
    split
    assumption
    apply kernelSlab_kept
    assumption

theorem checkComplete_kept (g tag : Nat) (s : State) (h_s : Kept q0 s) : Kept q0 (checkComplete g tag s) := by
  unfold checkComplete
  with_reducible
    split
    refine kept_ite ?_ ?_
    apply finalRelease_kept
    assumption
    assumption
    assumption

theorem specRelease_kept (g tag : Nat) (s : State) (h_s : Kept q0 s) : Kept q0 (specRelease g tag s) := by
  unfold specRelease
  with_reducible
    apply bump_kept
    apply modGrid_kept
    apply modSlab_kept
    apply fillSlab_kept
    apply mergeHeld_kept
    assumption

theorem patchNow_kept (g tag : Nat) (s : State) (h_s : Kept q0 s) : Kept q0 (patchNow g tag s) := by
  unfold patchNow
  with_reducible
    refine kept_ite ?_ ?_
    apply mergeHeld_kept
    assumption
    apply pubPatch_kept
    apply bump_kept
    apply modSlab_kept
    apply mergeHeld_kept
    assumption

theorem closeDecisions_kept (g tag : Nat) (s : State) (h_s : Kept q0 s) : Kept q0 (closeDecisions g tag s) := by
  unfold closeDecisions
  with_reducible
    split
    assumption
    refine kept_ite ?_ ?_
    assumption
    apply modSlab_kept
    apply bumpBy_kept
    apply bumpBy_kept
    assumption

theorem toHistory_kept (g tag : Nat) (s0 : State) (h_s0 : Kept q0 s0) : Kept q0 (toHistory g tag s0) := by
  unfold toHistory
  with_reducible
    extract_lets +onlyGivenNames x; refine kept_cut x ?_ ?_ <;> [(subst x); (clear_value x; intro _)]
    apply patchNow_kept
    apply finalRelease_kept
    assumption
    extract_lets +onlyGivenNames x; refine kept_cut x ?_ ?_ <;> [(subst x); (clear_value x; intro _)]
    apply modSlab_kept
    assumption
    split
    assumption
    refine kept_ite ?_ ?_
    assumption
    refine kept_ite ?_ ?_
    assumption
    apply closeDecisions_kept
    assumption

theorem dropSlabs_kept (g : Nat) (tags : List Nat) (s : State) (h_s : Kept q0 s) : Kept q0 (dropSlabs g tags s) := by
  unfold dropSlabs
  with_reducible
    refine kept_foldl (fun t x ht => ?_) ?_
    apply modGrid_kept
    apply closeDecisions_kept
    apply toHistory_kept
    assumption
    assumption

theorem trimRing_kept (g n : Nat) (s : State) (h_s : Kept q0 s) : Kept q0 (trimRing g n s) := by
  unfold trimRing
  with_reducible
    extract_lets +onlyGivenNames x
    extract_lets +onlyGivenNames x
    extract_lets +onlyGivenNames x
    extract_lets +onlyGivenNames x; refine kept_cut x ?_ ?_ <;> [(subst x); (clear_value x; intro _)]
    apply dropSlabs_kept
    assumption
    refine kept_foldl (fun t x ht => ?_) ?_
    apply modSlab_kept
    assumption
    assumption

theorem deadlineOf_kept (g h : Nat) (v : Stream) (c : GridCfg) (s : State) (h_s : Kept q0 s) : Kept q0 (deadlineOf g h v c s).2 := by
  unfold deadlineOf
  with_reducible
    refine kept_ite2 ?_ ?_
    apply raiseIf_kept
    extract_lets +onlyGivenNames x
    refine kept_upd rfl ?_ rfl rfl rfl
    assumption
    extract_lets +onlyGivenNames x
    dsimp -zeta only
    refine kept_upd rfl ?_ rfl rfl rfl
    assumption

theorem freeSlot_kept (g : Nat) (s : State) (h_s : Kept q0 s) : Kept q0 (freeSlot g s) := by
  unfold freeSlot
  with_reducible
    apply trimRing_kept
    assumption

theorem openSlab_kept (g tag : Nat) (s0 : State) (h_s0 : Kept q0 s0) : Kept q0 (openSlab g tag s0) := by
  unfold openSlab
  with_reducible
    apply bump_kept
    apply modGrid_kept
    apply setSlab_kept
    extract_lets +onlyGivenNames x
    dsimp -zeta only
    refine kept_foldl2 (fun t x ht => ?_) ?_
    extract_lets +onlyGivenNames x
    split
    apply deadlineOf_kept
    assumption
    assumption
    apply freeSlot_kept
    assumption

theorem unexpect_kept (g h : Nat) (s : State) (h_s : Kept q0 s) : Kept q0 (unexpect g h s) := by
  unfold unexpect
  with_reducible
    refine kept_foldl (fun t x ht => ?_) ?_
    extract_lets +onlyGivenNames x
    split
    refine kept_ite ?_ ?_
    apply checkComplete_kept
    apply modSlab_kept
    assumption
    assumption
    assumption
    assumption

theorem placeStream_kept (tell : Bool) (h : Nat) (s : State) (h_s : Kept q0 s) : Kept q0 (placeStream tell h s) := by
  unfold placeStream
  with_reducible
    extract_lets +onlyGivenNames x
    split
    refine kept_ite ?_ ?_
    assumption
    refine kept_ite ?_ ?_
    apply poolCheck_kept
    extract_lets +onlyGivenNames x
    refine kept_upd rfl ?_ rfl rfl rfl
    assumption
    apply raiseIf_kept
    assumption
    assumption

theorem leaveGrid_kept (h : Nat) (s : State) (h_s : Kept q0 s) : Kept q0 (leaveGrid h s) := by
  unfold leaveGrid
  with_reducible
    extract_lets +onlyGivenNames x
    extract_lets +onlyGivenNames x; refine kept_cut x ?_ ?_ <;> [(subst x); (clear_value x; intro _)]
    refine kept_upd rfl ?_ rfl rfl rfl
    assumption
    split
    assumption
    apply pubMemberGrid_kept
    apply poolCheck_kept
    apply gridCheck_kept
    apply unexpect_kept
    assumption

end Sys2Proof.Machine
end

