-- ==== Sys2Proof/Laws/Kept2.lean ====
section
/-!
SUPPORT. Operations keep a sound state and the commands that wait (part 2).
-/

namespace Sys2Proof.Machine

set_option Elab.async false
set_option linter.tactic.unusedName false

variable {q0 : List Instr}

theorem joinGrid_kept (h rate : Nat) (s : State) (h_s : Kept q0 s) : Kept q0 (joinGrid h rate s) := by
  unfold joinGrid
  with_reducible
    extract_lets +onlyGivenNames x
    split
    assumption
    apply pubMemberGrid_kept
    apply placeStream_kept
    apply gridCheck_kept
    extract_lets +onlyGivenNames x
    refine kept_upd rfl ?_ rfl rfl rfl
    assumption

theorem syncGrid_kept (h : Nat) (s : State) (h_s : Kept q0 s) : Kept q0 (syncGrid h s) := by
  unfold syncGrid
  with_reducible
    extract_lets +onlyGivenNames x
    extract_lets +onlyGivenNames x; refine kept_cut x ?_ ?_ <;> [(subst x); (clear_value x; intro _)]
    apply leaveGrid_kept
    assumption
    split
    apply leaveGrid_kept
    assumption
    refine kept_ite ?_ ?_
    apply pubMemberGrid_kept
    assumption
    extract_lets +onlyGivenNames x
    split
    apply joinGrid_kept
    assumption
    assumption

theorem untimed_kept (g tag : Nat) (s : State) (h_s : Kept q0 s) : Kept q0 (untimed g tag s) := by
  unfold untimed
  with_reducible
    refine kept_foldl (fun t x ht => ?_) ?_
    extract_lets +onlyGivenNames x
    split
    assumption
    refine kept_ite ?_ ?_
    assumption
    extract_lets +onlyGivenNames x; refine kept_cut x ?_ ?_ <;> [(subst x); (clear_value x; intro _)]
    refine kept_ite ?_ ?_
    apply finalRelease_kept
    assumption
    assumption
    split
    refine kept_ite ?_ ?_
    apply toHistory_kept
    assumption
    assumption
    assumption
    assumption

theorem writeCells_kept (g tag h : Nat) (cells : List (Nat × Cell)) (v : Slab) (s : State) (h_s : Kept q0 s) : Kept q0 (writeCells g tag h cells v s) := by
  unfold writeCells
  with_reducible
    refine kept_ite ?_ ?_
    apply bumpBy_kept
    assumption
    refine kept_ite ?_ ?_
    extract_lets +onlyGivenNames x
    dsimp -zeta only
    extract_lets +onlyGivenNames x
    split
    refine kept_upd rfl ?_ rfl rfl rfl
    apply modSlab_kept
    apply modSlab_kept
    apply bumpBy_kept
    assumption
    refine kept_upd rfl ?_ rfl rfl rfl
    apply modSlab_kept
    apply modSlab_kept
    apply bumpBy_kept
    assumption
    extract_lets +onlyGivenNames x
    extract_lets +onlyGivenNames x
    extract_lets +onlyGivenNames x; refine kept_cut x ?_ ?_ <;> [(subst x); (clear_value x; intro _)]
    apply modSlab_kept
    apply modSlab_kept
    apply bumpBy_kept
    assumption
    extract_lets +onlyGivenNames x
    extract_lets +onlyGivenNames x
    dsimp -zeta only
    extract_lets +onlyGivenNames x
    split
    refine kept_upd rfl ?_ rfl rfl rfl
    apply bumpBy_kept
    apply bumpBy_kept
    assumption
    refine kept_upd rfl ?_ rfl rfl rfl
    apply bumpBy_kept
    apply bumpBy_kept
    assumption

theorem slabBoundary_kept (g : Nat) (s0 : State) (h_s0 : Kept q0 s0) : Kept q0 (slabBoundary g s0) := by
  unfold slabBoundary
  with_reducible
    extract_lets +onlyGivenNames x; refine kept_cut x ?_ ?_ <;> [(subst x); (clear_value x; intro _)]
    apply switchMoves_kept
    assumption
    extract_lets +onlyGivenNames x; refine kept_cut x ?_ ?_ <;> [(subst x); (clear_value x; intro _)]
    refine kept_foldl (fun t x ht => ?_) ?_
    refine kept_ite ?_ ?_
    assumption
    refine kept_ite ?_ ?_
    apply gridCheck_kept
    refine kept_ite ?_ ?_
    apply unbindRing_kept
    extract_lets +onlyGivenNames x
    refine kept_upd rfl ?_ rfl rfl rfl
    assumption
    extract_lets +onlyGivenNames x
    refine kept_upd rfl ?_ rfl rfl rfl
    assumption
    apply modPub_kept
    assumption
    assumption
    refine kept_foldl (fun t x ht => ?_) ?_
    apply placeStream_kept
    assumption
    assumption

theorem landAt_kept (h tag : Nat) (cells : List (Nat × Cell)) (s : State) (h_s : Kept q0 s) : Kept q0 (landAt h tag cells s) := by
  unfold landAt
  with_reducible
    split
    assumption
    refine kept_ite ?_ ?_
    apply bump_kept
    assumption
    refine kept_ite ?_ ?_
    apply bump_kept
    assumption
    extract_lets +onlyGivenNames x; refine kept_cut x ?_ ?_ <;> [(subst x); (clear_value x; intro _)]
    apply openSlab_kept
    refine kept_ite ?_ ?_
    assumption
    apply slabBoundary_kept
    assumption
    split
    refine kept_ite ?_ ?_
    apply bump_kept
    assumption
    extract_lets +onlyGivenNames x
    split
    assumption
    apply untimed_kept
    apply checkComplete_kept
    apply writeCells_kept
    assumption
    refine kept_ite ?_ ?_
    apply bump_kept
    assumption
    apply untimed_kept
    apply checkComplete_kept
    apply writeCells_kept
    assumption

theorem stepRelease_kept (s : State) (h_s : Kept q0 s) : Kept q0 (stepRelease s) := by
  unfold stepRelease
  with_reducible
    refine kept_foldl (fun t x ht => ?_) ?_
    refine kept_ite ?_ ?_
    assumption
    apply raise_kept
    extract_lets +onlyGivenNames x
    refine kept_foldl (fun t x ht => ?_) ?_
    apply finalRelease_kept
    assumption
    assumption
    assumption

theorem setInput_kept (n : Nat) (v : SgInput) (s : State) (h_s : Kept q0 s) : Kept q0 (setInput n v s) := by
  unfold setInput
  with_reducible
    extract_lets +onlyGivenNames x
    refine kept_upd rfl ?_ rfl rfl rfl
    assumption

theorem modInput_kept (n : Nat) (f : SgInput → SgInput) (s : State) (h_s : Kept q0 s) : Kept q0 (modInput n f s) := by
  unfold modInput
  with_reducible
    apply setInput_kept
    assumption

theorem applyTemp_kept (n : Nat) (temp : Int) (invalid : Bool) (instant : Nat) (s : State) (h_s : Kept q0 s) : Kept q0 (applyTemp n temp invalid instant s) := by
  unfold applyTemp
  with_reducible
    refine kept_ite ?_ ?_
    apply bump_kept
    assumption
    refine kept_ite ?_ ?_
    assumption
    refine kept_ite ?_ ?_
    apply raise_kept
    apply raiseIf_kept
    apply bumpIf_kept
    apply setInput_kept
    assumption
    refine kept_ite ?_ ?_
    apply raise_kept
    apply raiseIf_kept
    apply bumpIf_kept
    apply setInput_kept
    assumption
    apply raiseIf_kept
    apply bumpIf_kept
    apply setInput_kept
    assumption

theorem reportTemps_kept (h tag : Nat) (cells : List (Nat × Cell)) (s : State) (h_s : Kept q0 s) : Kept q0 (reportTemps h tag cells s) := by
  unfold reportTemps
  with_reducible
    split
    assumption
    refine kept_foldl (fun t x ht => ?_) ?_
    refine kept_ite ?_ ?_
    extract_lets +onlyGivenNames x
    split
    apply applyTemp_kept
    assumption
    assumption
    assumption
    assumption

theorem landReport_kept (h tag : Nat) (cells : List (Nat × Cell)) (s : State) (h_s : Kept q0 s) : Kept q0 (landReport h tag cells s) := by
  unfold landReport
  with_reducible
    apply landAt_kept
    apply reportTemps_kept
    assumption

theorem modCap_kept (c : Nat) (f : Cap → Cap) (s : State) (h_s : Kept q0 s) : Kept q0 (modCap c f s) := by
  unfold modCap
  with_reducible
    extract_lets +onlyGivenNames x
    refine kept_upd rfl ?_ rfl rfl rfl
    assumption

theorem capPoolCheck_kept (s : State) (h_s : Kept q0 s) : Kept q0 (capPoolCheck s) := by
  unfold capPoolCheck
  with_reducible
    apply raiseIf_kept
    extract_lets +onlyGivenNames x
    split
    refine kept_upd rfl ?_ rfl rfl rfl
    assumption
    refine kept_upd rfl ?_ rfl rfl rfl
    assumption

theorem streamItem_kept (c : Nat) (type lane count time : Nat) (data : Bytes) (disc : Bool) (s : State) (h_s : Kept q0 s) : Kept q0 (streamItem c type lane count time data disc s) := by
  unfold streamItem
  with_reducible
    extract_lets +onlyGivenNames x; refine kept_cut x ?_ ?_ <;> [(subst x); (clear_value x; intro _)]
    apply modCap_kept
    assumption
    split
    assumption
    extract_lets +onlyGivenNames x
    split
    assumption
    refine kept_ite ?_ ?_
    assumption
    extract_lets +onlyGivenNames x
    split
    apply modCap_kept
    refine ringWrite_kept _ _ _ _ _  ?_  _ ‹_›
    assumption
    refine kept_ite ?_ ?_
    apply raise_kept
    apply modCap_kept
    assumption
    assumption

theorem slotMark_kept (c slot : Nat) (m : Mark) (s : State) (h_s : Kept q0 s) : Kept q0 (slotMark c slot m s) := by
  unfold slotMark
  with_reducible
    dsimp -zeta only
    split
    assumption
    apply modCap_kept
    assumption

theorem capMark_kept (c : Nat) (m : Mark) (inRec : RecState → Bool) (s : State) (h_s : Kept q0 s) : Kept q0 (capMark c m inRec s) := by
  unfold capMark
  with_reducible
    split
    assumption
    apply streamItem_kept
    extract_lets +onlyGivenNames x
    refine kept_foldl (fun t x ht => ?_) ?_
    apply slotMark_kept
    assumption
    assumption

theorem capState_kept (c : Nat) (st : CapState) (s : State) (h_s : Kept q0 s) : Kept q0 (capState c st s) := by
  unfold capState
  with_reducible
    split
    assumption
    refine kept_ite ?_ ?_
    assumption
    apply raise_kept
    apply modCap_kept
    assumption

theorem sendRemote_kept (level tTrig bound : Nat) (s : State) (h_s : Kept q0 s) : Kept q0 (sendRemote level tTrig bound s) := by
  unfold sendRemote
  with_reducible
    refine kept_ite ?_ ?_
    assumption
    apply sendOwn_kept
    apply bump_kept
    extract_lets +onlyGivenNames x
    refine kept_upd rfl ?_ rfl rfl rfl
    assumption

theorem trigger_kept (c : Nat) (g : Trig) (s0 : State) (h_s0 : Kept q0 s0) : Kept q0 (trigger c g s0) := by
  unfold trigger
  with_reducible
    extract_lets +onlyGivenNames x; refine kept_cut x ?_ ?_ <;> [(subst x); (clear_value x; intro _)]
    apply modCap_kept
    assumption
    extract_lets +onlyGivenNames x
    extract_lets +onlyGivenNames x
    split
    assumption
    refine kept_ite ?_ ?_
    refine kept_ite ?_ ?_
    apply sendRemote_kept
    assumption
    assumption
    refine kept_ite ?_ ?_
    apply streamItem_kept
    refine kept_ite ?_ ?_
    apply sendRemote_kept
    assumption
    assumption
    extract_lets +onlyGivenNames x
    extract_lets +onlyGivenNames x
    extract_lets +onlyGivenNames x
    extract_lets +onlyGivenNames x
    extract_lets +onlyGivenNames x
    extract_lets +onlyGivenNames x; refine kept_cut x ?_ ?_ <;> [(subst x); (clear_value x; intro _)]
    apply capMark_kept
    refine kept_ite ?_ ?_
    apply sendRemote_kept
    assumption
    assumption
    extract_lets +onlyGivenNames x; refine kept_cut x ?_ ?_ <;> [(subst x); (clear_value x; intro _)]
    apply modCap_kept
    assumption
    extract_lets +onlyGivenNames x; refine kept_cut x ?_ ?_ <;> [(subst x); (clear_value x; intro _)]
    apply streamItem_kept
    apply modCap_kept
    refine kept_ite ?_ ?_
    apply sendRemote_kept
    assumption
    assumption
    extract_lets +onlyGivenNames x
    split
    refine kept_ite ?_ ?_
    apply streamItem_kept
    apply modCap_kept
    apply slotMark_kept
    refine kept_ite ?_ ?_
    apply sendRemote_kept
    assumption
    assumption
    apply modCap_kept
    refine kept_ite ?_ ?_
    apply sendRemote_kept
    assumption
    assumption
    refine kept_ite ?_ ?_
    apply raise_kept
    assumption
    refine kept_ite ?_ ?_
    refine kept_ite ?_ ?_
    apply sendRemote_kept
    assumption
    assumption
    extract_lets +onlyGivenNames x
    split
    apply raise_kept
    assumption
    apply raise_kept
    apply streamItem_kept
    apply capState_kept
    apply modCap_kept
    refine kept_ite ?_ ?_
    apply sendRemote_kept
    assumption
    assumption

theorem fireEntry_kept (c e : Nat) (t bound : Nat) (linear predicted : Bool) (alarm : Option Nat) (s : State) (h_s : Kept q0 s) : Kept q0 (fireEntry c e t bound linear predicted alarm s) := by
  unfold fireEntry
  with_reducible
    split
    assumption
    refine kept_ite ?_ ?_
    apply modCap_kept
    assumption
    apply trigger_kept
    apply modCap_kept
    assumption

theorem capAlarm_kept (num tTrig : Nat) (predicted : Bool) (s : State) (h_s : Kept q0 s) : Kept q0 (capAlarm num tTrig predicted s) := by
  unfold capAlarm
  with_reducible
    refine kept_foldl (fun t x ht => ?_) ?_
    refine kept_ite ?_ ?_
    assumption
    extract_lets +onlyGivenNames x
    refine kept_foldl (fun t x ht => ?_) ?_
    refine kept_ite ?_ ?_
    apply fireEntry_kept
    assumption
    assumption
    assumption
    assumption

theorem capWithdrawn_kept (num tag : Nat) (s : State) (h_s : Kept q0 s) : Kept q0 (capWithdrawn num tag s) := by
  unfold capWithdrawn
  with_reducible
    refine kept_foldl (fun t x ht => ?_) ?_
    extract_lets +onlyGivenNames x
    refine kept_foldl (fun t x ht => ?_) ?_
    refine kept_ite ?_ ?_
    apply modCap_kept
    apply slotMark_kept
    assumption
    assumption
    assumption
    assumption

theorem evalLane_kept (c lane : Nat) (patch : Bool) (now_ : Option Nat) (lag : List Nat) (s0 : State) (h_s0 : Kept q0 s0) : Kept q0 (evalLane c lane patch now_ lag s0) := by
  unfold evalLane
  with_reducible
    dsimp -zeta only
    split
    apply fresh_kept
    assumption
    split
    apply fresh_kept
    assumption
    extract_lets +onlyGivenNames x
    extract_lets +onlyGivenNames x; refine kept_cut x ?_ ?_ <;> [(subst x); (clear_value x; intro _)]
    apply modCap_kept
    apply fresh_kept
    assumption
    refine kept_foldl (fun t x ht => ?_) ?_
    apply fireEntry_kept
    assumption
    assumption

theorem modLane_kept (c lane : Nat) (f : Lane → Lane) (s : State) (h_s : Kept q0 s) : Kept q0 (modLane c lane f s) := by
  unfold modLane
  with_reducible
    apply modCap_kept
    assumption

theorem writeRow_kept (c lane : Nat) (k : Cap) (r : Nat × List U64) (s : State) (h_s : Kept q0 s) : Kept q0 (writeRow c lane k r s) := by
  unfold writeRow
  with_reducible
    apply modLane_kept
    assumption

theorem addTimed_kept (a : TimedAct) (s : State) (h_s : Kept q0 s) : Kept q0 (addTimed a s) := by
  unfold addTimed
  with_reducible
    extract_lets +onlyGivenNames x
    refine kept_upd rfl ?_ rfl rfl rfl
    assumption

theorem dropTimed_kept (f : TimedKind → Bool) (s : State) (h_s : Kept q0 s) : Kept q0 (dropTimed f s) := by
  unfold dropTimed
  with_reducible
    extract_lets +onlyGivenNames x
    refine kept_upd rfl ?_ rfl rfl rfl
    assumption

theorem cancelTriggers_kept (s : State) (h_s : Kept q0 s) : Kept q0 (cancelTriggers s) := by
  unfold cancelTriggers
  with_reducible
    refine kept_foldl (fun t x ht => ?_) ?_
    extract_lets +onlyGivenNames x
    split
    apply modCap_kept
    assumption
    assumption
    assumption

theorem fireTimedEntry_kept (c e : Nat) (t : Nat) (s : State) (h_s : Kept q0 s) : Kept q0 (fireTimedEntry c e t s) := by
  unfold fireTimedEntry
  with_reducible
    apply modCap_kept
    apply fireEntry_kept
    assumption

theorem deviceJob_kept (r : Halga) (fmt : Nat) (bad : Bool) (s : State) (h_s : Kept q0 s) : Kept q0 (deviceJob r fmt bad s) := by
  unfold deviceJob
  with_reducible
    refine kept_ite ?_ ?_
    assumption
    apply bumpIf_kept
    apply bumpBy_kept
    apply bumpBy_kept
    apply bump_kept
    apply bump_kept
    assumption

theorem autoExport_kept (c : Nat) (s : State) (h_s : Kept q0 s) : Kept q0 (autoExport c s) := by
  unfold autoExport
  with_reducible
    dsimp -zeta only
    split
    assumption
    split
    assumption
    refine kept_foldl (fun t x ht => ?_) ?_
    extract_lets +onlyGivenNames x
    split
    assumption
    split
    assumption
    apply deviceJob_kept
    apply bump_kept
    apply bumpIf_kept
    apply modCap_kept
    refine ringWrite_kept _ _ _ _ _  ?_  _ ‹_›
    assumption
    assumption

theorem noteTq_kept (s : State) (h_s : Kept q0 s) : Kept q0 (noteTq s) := by
  unfold noteTq
  with_reducible
    extract_lets +onlyGivenNames x
    extract_lets +onlyGivenNames x
    refine kept_upd rfl ?_ rfl rfl rfl
    assumption

theorem capStep_kept (oldNs newNs : Nat) (s : State) (h_s : Kept q0 s) : Kept q0 (capStep oldNs newNs s) := by
  unfold capStep
  with_reducible
    refine kept_foldl (fun t x ht => ?_) ?_
    apply modCap_kept
    apply capMark_kept
    assumption
    assumption

theorem setCh_kept (c : Nat) (v : VCh) (s : State) (h_s : Kept q0 s) : Kept q0 (setCh c v s) := by
  unfold setCh
  with_reducible
    extract_lets +onlyGivenNames x
    refine kept_upd rfl ?_ rfl rfl rfl
    assumption

theorem modCh_kept (c : Nat) (f : VCh → VCh) (s : State) (h_s : Kept q0 s) : Kept q0 (modCh c f s) := by
  unfold modCh
  with_reducible
    extract_lets +onlyGivenNames x
    refine kept_upd rfl ?_ rfl rfl rfl
    assumption

theorem annSkip_kept (ann ch cause : Nat) (s : State) (h_s : Kept q0 s) : Kept q0 (annSkip ann ch cause s) := by
  unfold annSkip
  with_reducible
    apply raise_kept
    apply bump_kept
    assumption

theorem annRequest_kept (ch : Nat) (r : AnnReq) (s0 : State) (h_s0 : Kept q0 s0) : Kept q0 (annRequest ch r s0) := by
  unfold annRequest
  with_reducible
    extract_lets +onlyGivenNames x; refine kept_cut x ?_ ?_ <;> [(subst x); (clear_value x; intro _)]
    apply bump_kept
    assumption
    split
    apply annSkip_kept
    assumption
    refine kept_ite ?_ ?_
    apply annSkip_kept
    assumption
    refine kept_ite ?_ ?_
    apply annSkip_kept
    assumption
    refine kept_ite ?_ ?_
    apply modCh_kept
    assumption
    extract_lets +onlyGivenNames x
    split
    refine kept_ite ?_ ?_
    apply annSkip_kept
    apply modCh_kept
    assumption
    apply annSkip_kept
    assumption
    assumption

theorem annEntry_kept (e alarm : Nat) (withdraw : Bool) (s : State) (h_s : Kept q0 s) : Kept q0 (annEntry e alarm withdraw s) := by
  unfold annEntry
  with_reducible
    split
    assumption
    refine kept_ite ?_ ?_
    assumption
    extract_lets +onlyGivenNames x
    refine kept_foldl (fun t x ht => ?_) ?_
    apply annRequest_kept
    assumption
    assumption

theorem annAlarm_kept (num at_ : Nat) (s : State) (h_s : Kept q0 s) : Kept q0 (annAlarm num at_ s) := by
  unfold annAlarm
  with_reducible
    refine kept_foldl (fun t x ht => ?_) ?_
    refine kept_ite ?_ ?_
    assumption
    refine kept_ite ?_ ?_
    apply annEntry_kept
    assumption
    refine kept_ite ?_ ?_
    apply lateAction_kept
    apply annEntry_kept
    assumption
    apply addTimed_kept
    assumption
    assumption

theorem annWithdraw_kept (num : Nat) (s : State) (h_s : Kept q0 s) : Kept q0 (annWithdraw num s) := by
  unfold annWithdraw
  with_reducible
    refine kept_foldl (fun t x ht => ?_) ?_
    refine kept_ite ?_ ?_
    apply annEntry_kept
    assumption
    assumption
    assumption

theorem annRelease_kept (s : State) (h_s : Kept q0 s) : Kept q0 (annRelease s) := by
  unfold annRelease
  with_reducible
    refine kept_foldl (fun t x ht => ?_) ?_
    extract_lets +onlyGivenNames x
    split
    apply annEntry_kept
    assumption
    assumption
    apply dropTimed_kept
    assumption

theorem setStage_kept (n : Nat) (v : Stage) (s : State) (h_s : Kept q0 s) : Kept q0 (setStage n v s) := by
  unfold setStage
  with_reducible
    extract_lets +onlyGivenNames x
    refine kept_upd rfl ?_ rfl rfl rfl
    assumption

theorem modStage_kept (n : Nat) (f : Stage → Stage) (s : State) (h_s : Kept q0 s) : Kept q0 (modStage n f s) := by
  unfold modStage
  with_reducible
    apply setStage_kept
    assumption

theorem measureC0_kept (output stage : Nat) (m : C0Meas) (out : Nat) (s : State) (h_s : Kept q0 s) : Kept q0 (measureC0 output stage m out s) := by
  unfold measureC0
  with_reducible
    refine kept_ite ?_ ?_
    assumption
    refine kept_ite ?_ ?_
    apply raise_kept
    apply bump_kept
    extract_lets +onlyGivenNames x
    dsimp -zeta only
    split
    refine kept_upd rfl ?_ rfl rfl rfl
    assumption
    refine kept_upd rfl ?_ rfl rfl rfl
    assumption
    refine kept_upd rfl ?_ rfl rfl rfl
    assumption
    refine kept_upd rfl ?_ rfl rfl rfl
    assumption
    extract_lets +onlyGivenNames x
    dsimp -zeta only
    split
    refine kept_upd rfl ?_ rfl rfl rfl
    assumption
    refine kept_upd rfl ?_ rfl rfl rfl
    assumption
    refine kept_upd rfl ?_ rfl rfl rfl
    assumption
    refine kept_upd rfl ?_ rfl rfl rfl
    assumption

theorem pinFollow_kept (n : Nat) (s : State) (h_s : Kept q0 s) : Kept q0 (pinFollow n s) := by
  unfold pinFollow
  with_reducible
    refine kept_ite ?_ ?_
    apply setStage_kept
    assumption
    refine kept_ite ?_ ?_
    extract_lets +onlyGivenNames x; refine kept_cut x ?_ ?_ <;> [(subst x); (clear_value x; intro _)]
    apply setStage_kept
    assumption
    split
    apply measureC0_kept
    assumption
    assumption
    assumption

theorem stageState_kept (n : Nat) (st : StageState) (alarm : Nat) (s : State) (h_s : Kept q0 s) : Kept q0 (stageState n st alarm s) := by
  unfold stageState
  with_reducible
    refine kept_ite ?_ ?_
    assumption
    apply raise_kept
    apply setStage_kept
    assumption

theorem sendAlarm_kept (stage : Nat) (body : Bytes) (launch : Option Nat) (meas : Option C0Meas) (s : State) (h_s : Kept q0 s) : Kept q0 (sendAlarm stage body launch meas s).2 := by
  unfold sendAlarm
  with_reducible
    apply sendFrame_kept
    assumption

theorem alarmFrame_kept (kind stage : Nat) (a : AlmInfo) (ev raiseTs flags : Nat) (s : State) (h_s : Kept q0 s) : Kept q0 (alarmFrame kind stage a ev raiseTs flags s) := by
  unfold alarmFrame
  with_reducible
    refine kept_ite ?_ ?_
    assumption
    refine kept_ite ?_ ?_
    extract_lets +onlyGivenNames x
    extract_lets +onlyGivenNames x
    split
    refine kept_upd rfl ?_ rfl rfl rfl
    apply sendAlarm_kept
    apply bumpIf_kept
    extract_lets +onlyGivenNames x
    refine kept_upd rfl ?_ rfl rfl rfl
    assumption
    refine kept_upd rfl ?_ rfl rfl rfl
    apply sendAlarm_kept
    apply bumpIf_kept
    extract_lets +onlyGivenNames x
    refine kept_upd rfl ?_ rfl rfl rfl
    assumption
    apply sendAlarm_kept
    apply bumpIf_kept
    extract_lets +onlyGivenNames x
    refine kept_upd rfl ?_ rfl rfl rfl
    assumption

theorem plainFrame_kept (kind stage ev flags : Nat) (s : State) (h_s : Kept q0 s) : Kept q0 (plainFrame kind stage ev flags s) := by
  unfold plainFrame
  with_reducible
    refine kept_ite ?_ ?_
    assumption
    apply sendAlarm_kept
    extract_lets +onlyGivenNames x
    refine kept_upd rfl ?_ rfl rfl rfl
    assumption

theorem sendGoose_kept (n : Nat) (launch : Option Nat) (meas : Option C0Meas) (s : State) (h_s : Kept q0 s) : Kept q0 (sendGoose n launch meas s) := by
  unfold sendGoose
  with_reducible
    split
    assumption
    apply sendOwn_kept
    assumption

theorem gooseChange_kept (n alarm ev tag : Nat) (questionable mayTime bounded : Bool) (s : State) (h_s : Kept q0 s) : Kept q0 (gooseChange n alarm ev tag questionable mayTime bounded s) := by
  unfold gooseChange
  with_reducible
    extract_lets +onlyGivenNames x
    extract_lets +onlyGivenNames x
    extract_lets +onlyGivenNames x
    split
    assumption
    refine kept_ite ?_ ?_
    assumption
    apply sendGoose_kept
    apply bumpIf_kept
    apply setStage_kept
    assumption

theorem gooseStart_kept (n : Nat) (s : State) (h_s : Kept q0 s) : Kept q0 (gooseStart n s) := by
  unfold gooseStart
  with_reducible
    extract_lets +onlyGivenNames x
    split
    assumption
    refine kept_ite ?_ ?_
    assumption
    apply sendGoose_kept
    apply setStage_kept
    assumption

theorem gooseStop_kept (n : Nat) (s : State) (h_s : Kept q0 s) : Kept q0 (gooseStop n s) := by
  unfold gooseStop
  with_reducible
    apply modStage_kept
    assumption

theorem countOutput_kept (ev : Nat) (s : State) (h_s : Kept q0 s) : Kept q0 (countOutput ev s) := by
  unfold countOutput
  with_reducible
    refine kept_ite ?_ ?_
    extract_lets +onlyGivenNames x
    refine kept_upd rfl ?_ rfl rfl rfl
    assumption
    refine kept_ite ?_ ?_
    apply raise_kept
    extract_lets +onlyGivenNames x
    extract_lets +onlyGivenNames x
    refine kept_upd rfl ?_ rfl rfl rfl
    apply bump_kept
    extract_lets +onlyGivenNames x
    refine kept_upd rfl ?_ rfl rfl rfl
    assumption
    apply bump_kept
    extract_lets +onlyGivenNames x
    refine kept_upd rfl ?_ rfl rfl rfl
    assumption

theorem raisePin_kept (n : Nat) (a : AlmInfo) (s : State) (h_s : Kept q0 s) : Kept q0 (raisePin n a s) := by
  unfold raisePin
  with_reducible
    split
    apply measureC0_kept
    assumption
    apply measureC0_kept
    assumption

theorem raiseGoose_kept (n : Nat) (a : AlmInfo) (s : State) (h_s : Kept q0 s) : Kept q0 (raiseGoose n a s) := by
  unfold raiseGoose
  with_reducible
    apply gooseChange_kept
    assumption

theorem raiseOn_kept (n : Nat) (a : AlmInfo) (s0 : State) (h_s0 : Kept q0 s0) : Kept q0 (raiseOn n a s0) := by
  unfold raiseOn
  with_reducible
    extract_lets +onlyGivenNames x; refine kept_cut x ?_ ?_ <;> [(subst x); (clear_value x; intro _)]
    apply modStage_kept
    assumption
    extract_lets +onlyGivenNames x
    extract_lets +onlyGivenNames x
    extract_lets +onlyGivenNames x; refine kept_cut x ?_ ?_ <;> [(subst x); (clear_value x; intro _)]
    apply pinFollow_kept
    apply stageState_kept
    apply countOutput_kept
    assumption
    split
    assumption
    apply alarmFrame_kept
    apply countOutput_kept
    assumption
    apply raiseGoose_kept
    apply alarmFrame_kept
    apply countOutput_kept
    assumption
    apply raiseGoose_kept
    apply alarmFrame_kept
    refine kept_ite ?_ ?_
    assumption
    apply raisePin_kept
    assumption

theorem raiseNow_kept (a : AlmInfo) (s : State) (h_s : Kept q0 s) : Kept q0 (raiseNow a s) := by
  unfold raiseNow
  with_reducible
    apply capAlarm_kept
    apply annAlarm_kept
    extract_lets +onlyGivenNames x
    refine kept_foldl (fun t x ht => ?_) ?_
    apply raiseOn_kept
    assumption
    extract_lets +onlyGivenNames x
    refine kept_upd rfl ?_ rfl rfl rfl
    assumption

theorem clearOn_kept (n : Nat) (a : AlmInfo) (s0 : State) (h_s0 : Kept q0 s0) : Kept q0 (clearOn n a s0) := by
  unfold clearOn
  with_reducible
    extract_lets +onlyGivenNames x; refine kept_cut x ?_ ?_ <;> [(subst x); (clear_value x; intro _)]
    apply modStage_kept
    assumption
    extract_lets +onlyGivenNames x
    extract_lets +onlyGivenNames x; refine kept_cutf x ?_ ?_ <;> [(subst x); (clear_value x; intro _)]
    apply gooseChange_kept
    extract_lets +onlyGivenNames x
    extract_lets +onlyGivenNames x; refine kept_cut x ?_ ?_ <;> [(subst x); (clear_value x; intro _)]
    apply pinFollow_kept
    apply modStage_kept
    apply stageState_kept
    assumption
    split
    apply alarmFrame_kept
    assumption
    refine kept_ite ?_ ?_
    extract_lets +onlyGivenNames x
    apply_assumption
    apply alarmFrame_kept
    assumption
    refine kept_ite ?_ ?_
    apply alarmFrame_kept
    apply stageState_kept
    assumption
    extract_lets +onlyGivenNames x
    apply_assumption
    apply alarmFrame_kept
    assumption
    assumption

theorem clearNow_kept (a : AlmInfo) (s : State) (h_s : Kept q0 s) : Kept q0 (clearNow a s) := by
  unfold clearNow
  with_reducible
    refine kept_foldl (fun t x ht => ?_) ?_
    apply clearOn_kept
    assumption
    assumption

theorem withdrawNow_kept (a : AlmInfo) (raiseTs : Nat) (still : Bool) (s : State) (h_s : Kept q0 s) : Kept q0 (withdrawNow a raiseTs still s) := by
  unfold withdrawNow
  with_reducible
    apply capWithdrawn_kept
    apply annWithdraw_kept
    extract_lets +onlyGivenNames x
    refine kept_foldl (fun t x ht => ?_) ?_
    refine kept_ite ?_ ?_
    assumption
    apply gooseChange_kept
    apply alarmFrame_kept
    assumption
    assumption

theorem actNow_kept (x : StageAct) (s : State) (h_s : Kept q0 s) : Kept q0 (actNow x s) := by
  unfold actNow
  with_reducible
    split
    apply raiseNow_kept
    assumption
    apply withdrawNow_kept
    assumption
    apply clearNow_kept
    assumption

theorem stageAct_kept (x : StageAct) (s : State) (h_s : Kept q0 s) : Kept q0 (stageAct x s) := by
  unfold stageAct
  with_reducible
    extract_lets +onlyGivenNames x
    split
    refine kept_upd rfl ?_ rfl rfl rfl
    assumption
    apply actNow_kept
    assumption

theorem stageRaise_kept (a : AlmInfo) (s : State) (h_s : Kept q0 s) : Kept q0 (stageRaise a s) := by
  unfold stageRaise
  with_reducible
    apply stageAct_kept
    assumption

theorem stageClear_kept (a : AlmInfo) (s : State) (h_s : Kept q0 s) : Kept q0 (stageClear a s) := by
  unfold stageClear
  with_reducible
    apply stageAct_kept
    assumption

theorem stageWithdraw_kept (a : AlmInfo) (raiseTs : Nat) (still : Bool) (s : State) (h_s : Kept q0 s) : Kept q0 (stageWithdraw a raiseTs still s) := by
  unfold stageWithdraw
  with_reducible
    apply stageAct_kept
    assumption

theorem inTurn_kept (f : State → State) (s : State) (h_f : ∀ x0, Kept q0 x0 → Kept q0 (f x0)) (h_s : Kept q0 s) : Kept q0 (inTurn f s) := by
  unfold inTurn
  with_reducible
    extract_lets +onlyGivenNames x
    extract_lets +onlyGivenNames x; refine kept_cut x ?_ ?_ <;> [(subst x); (clear_value x; intro _)]
    apply h_f
    extract_lets +onlyGivenNames x
    refine kept_upd rfl ?_ rfl rfl rfl
    assumption
    extract_lets +onlyGivenNames x
    extract_lets +onlyGivenNames x
    refine kept_foldl (fun t x ht => ?_) ?_
    extract_lets +onlyGivenNames x
    refine kept_foldl (fun t x ht => ?_) ?_
    apply actNow_kept
    assumption
    assumption
    extract_lets +onlyGivenNames x
    refine kept_upd rfl ?_ rfl rfl rfl
    assumption

theorem modClu_kept (c : Nat) (f : Clu → Clu) (s : State) (h_s : Kept q0 s) : Kept q0 (modClu c f s) := by
  unfold modClu
  with_reducible
    extract_lets +onlyGivenNames x
    refine kept_upd rfl ?_ rfl rfl rfl
    assumption

theorem clearAlarm_kept (c i cause tag ev : Nat) (value bound : U32) (s : State) (h_s : Kept q0 s) : Kept q0 (clearAlarm c i cause tag ev value bound s) := by
  unfold clearAlarm
  with_reducible
    split
    assumption
    refine kept_ite ?_ ?_
    assumption
    apply stageClear_kept
    apply raise_kept
    apply bump_kept
    apply modClu_kept
    assumption

theorem freeCluster_kept (c islandCause tag ev : Nat) (s : State) (h_s : Kept q0 s) : Kept q0 (freeCluster c islandCause tag ev s) := by
  unfold freeCluster
  with_reducible
    extract_lets +onlyGivenNames x; refine kept_cut x ?_ ?_ <;> [(subst x); (clear_value x; intro _)]
    refine kept_foldl (fun t x ht => ?_) ?_
    apply clearAlarm_kept
    apply fresh_kept
    assumption
    assumption
    extract_lets +onlyGivenNames x
    refine kept_upd rfl ?_ rfl rfl rfl
    assumption

theorem takeNumber_kept (s : State) (h_s : Kept q0 s) : ∀ t, (takeNumber s) = some t → Kept q0 t.2 := by
  intro t h
  unfold takeNumber at h
  split at h
  · cases h; exact h_s
  · split at h <;> cases h
    exact h_s

theorem formGroups_kept (g : Nat) (cfg : CluCfg) (ks : List Nat) (tag : Nat) (a0 : Nat) (a1 : List Nat) (a2 : Tbl Nat) (a3 : Bool) (a4 : State) (h_a4 : Kept q0 a4) : Kept q0 (formGroups g cfg ks tag a0 a1 a2 a3 a4).2.2 := by
  fun_induction formGroups g cfg ks tag a0 a1 a2 a3 a4
  with_reducible
    assumption
    assumption
    rename_i ih; apply ih
    assumption
    rename_i ih; apply ih
    assumption
    rename_i ih; apply ih
    apply raise_kept
    apply bump_kept
    extract_lets +onlyGivenNames x
    refine kept_upd rfl ?_ rfl rfl rfl
    refine takeNumber_kept _  ?_  _ ‹_›
    assumption

theorem freeEmpty_kept (memb : Tbl Nat) (tag ev : Nat) (s : State) (h_s : Kept q0 s) : Kept q0 (freeEmpty memb tag ev s) := by
  unfold freeEmpty
  with_reducible
    extract_lets +onlyGivenNames x
    refine kept_foldl (fun t x ht => ?_) ?_
    refine kept_ite ?_ ?_
    apply freeCluster_kept
    assumption
    assumption
    assumption

theorem mergeClusters_kept (g : Nat) (cfg : CluCfg) (ks : List Nat) (tag ev : Nat) (memb0 : Tbl Nat) (s0 : State) (h_s0 : Kept q0 s0) : Kept q0 (mergeClusters g cfg ks tag ev memb0 s0).2 := by
  unfold mergeClusters
  with_reducible
    extract_lets +onlyGivenNames x
    extract_lets +onlyGivenNames x
    dsimp -zeta only
    refine kept_foldl2 (fun t x ht => ?_) ?_
    extract_lets +onlyGivenNames x
    split
    refine kept_ite2 ?_ ?_
    apply freeCluster_kept
    apply raise_kept
    apply bump_kept
    assumption
    assumption
    assumption
    assumption

theorem raiseEvt_kept (i c members ev : Nat) (value : U32) (predicted : Bool) (s : State) (h_s : Kept q0 s) : Kept q0 (raiseEvt i c members ev value predicted s) := by
  unfold raiseEvt
  with_reducible
    extract_lets +onlyGivenNames x
    split
    apply raise_kept
    assumption
    apply raise_kept
    assumption
    apply raise_kept
    assumption
    apply raise_kept
    assumption

theorem raiseAlarm_kept (i c members tag ev : Nat) (value bound : U32) (predicted : Bool) (s : State) (h_s : Kept q0 s) : Kept q0 (raiseAlarm i c members tag ev value bound predicted s) := by
  unfold raiseAlarm
  with_reducible
    extract_lets +onlyGivenNames x; refine kept_cut x ?_ ?_ <;> [(subst x); (clear_value x; intro _)]
    apply modClu_kept
    assumption
    extract_lets +onlyGivenNames x; refine kept_cut x ?_ ?_ <;> [(subst x); (clear_value x; intro _)]
    apply raiseEvt_kept
    apply bump_kept
    assumption
    split
    assumption
    refine kept_ite ?_ ?_
    assumption
    apply stageRaise_kept
    assumption

theorem withdrawAlarm_kept (g i c tag handle : Nat) (d : Decision) (value bound : U32) (s : State) (h_s : Kept q0 s) : Kept q0 (withdrawAlarm g i c tag handle d value bound s) := by
  unfold withdrawAlarm
  with_reducible
    refine kept_ite ?_ ?_
    assumption
    apply stageWithdraw_kept
    apply raise_kept
    apply bump_kept
    assumption

theorem decide1_kept (g : Nat) (cfg : CluCfg) (det : DetCfg) (memb : Tbl Nat) (i c r tag ev : Nat) (late : List Nat) (s : State) (h_s : Kept q0 s) : Kept q0 (decide1 g cfg det memb i c r tag ev late s) := by
  unfold decide1
  with_reducible
    extract_lets +onlyGivenNames x
    extract_lets +onlyGivenNames x
    extract_lets +onlyGivenNames x
    extract_lets +onlyGivenNames x
    dsimp -zeta only
    split
    assumption
    extract_lets +onlyGivenNames x
    split
    apply raiseAlarm_kept
    apply modSlab_kept
    assumption
    refine kept_ite ?_ ?_
    apply modSlab_kept
    assumption
    apply modSlab_kept
    assumption
    apply modSlab_kept
    assumption
    apply modSlab_kept
    assumption
    apply withdrawAlarm_kept
    apply modSlab_kept
    assumption
    apply modSlab_kept
    assumption
    assumption

theorem decideSlab_kept (g tag rel ev : Nat) (late : List Nat) (s : State) (h_s : Kept q0 s) : Kept q0 (decideSlab g tag rel ev late s) := by
  unfold decideSlab
  with_reducible
    dsimp -zeta only
    split
    refine kept_ite ?_ ?_
    assumption
    extract_lets +onlyGivenNames x
    split
    assumption
    refine kept_foldl (fun t x ht => ?_) ?_
    extract_lets +onlyGivenNames x
    refine kept_foldl (fun t x ht => ?_) ?_
    refine kept_ite ?_ ?_
    apply decide1_kept
    assumption
    assumption
    assumption
    assumption
    assumption

theorem judgeClear_kept (g : Nat) (cfg : CluCfg) (det : DetCfg) (memb : Tbl Nat) (i c r tag ev : Nat) (s : State) (h_s : Kept q0 s) : Kept q0 (judgeClear g cfg det memb i c r tag ev s) := by
  unfold judgeClear
  with_reducible
    dsimp -zeta only
    split
    assumption
    refine kept_ite ?_ ?_
    assumption
    extract_lets +onlyGivenNames x
    extract_lets +onlyGivenNames x; refine kept_cut x ?_ ?_ <;> [(subst x); (clear_value x; intro _)]
    refine kept_ite ?_ ?_
    assumption
    apply modClu_kept
    assumption
    dsimp -zeta only
    split
    assumption
    refine kept_ite ?_ ?_
    apply modClu_kept
    assumption
    assumption
    refine kept_ite ?_ ?_
    apply clearAlarm_kept
    assumption
    assumption

theorem blindClear_kept (det : DetCfg) (c tag ev : Nat) (s : State) (h_s : Kept q0 s) : Kept q0 (blindClear det c tag ev s) := by
  unfold blindClear
  with_reducible
    dsimp -zeta only
    split
    assumption
    split
    refine kept_ite ?_ ?_
    apply clearAlarm_kept
    apply fresh_kept
    assumption
    assumption
    assumption

theorem computeMembership_kept (g : Nat) (cfg : CluCfg) (tag ev : Nat) (s : State) (h_s : Kept q0 s) : Kept q0 (computeMembership g cfg tag ev s) := by
  unfold computeMembership
  with_reducible
    apply raiseIf_kept
    extract_lets +onlyGivenNames x
    split
    refine kept_upd rfl ?_ rfl rfl rfl
    apply mergeClusters_kept
    apply formGroups_kept
    apply freeEmpty_kept
    assumption
    refine kept_upd rfl ?_ rfl rfl rfl
    apply mergeClusters_kept
    apply formGroups_kept
    apply freeEmpty_kept
    assumption

theorem noteRef_kept (g tag : Nat) (memb : Tbl Nat) (s : State) (h_s : Kept q0 s) : Kept q0 (noteRef g tag memb s) := by
  unfold noteRef
  with_reducible
    refine kept_ite ?_ ?_
    assumption
    apply raise_kept
    extract_lets +onlyGivenNames x
    refine kept_upd rfl ?_ rfl rfl rfl
    assumption

theorem noteClusters_kept (g : Nat) (cfg : CluCfg) (det : DetCfg) (tag : Nat) (memb : Tbl Nat) (s0 : State) (h_s0 : Kept q0 s0) : Kept q0 (noteClusters g cfg det tag memb s0) := by
  unfold noteClusters
  with_reducible
    extract_lets +onlyGivenNames x
    extract_lets +onlyGivenNames x
    refine kept_foldl (fun t x ht => ?_) ?_
    extract_lets +onlyGivenNames x
    extract_lets +onlyGivenNames x
    extract_lets +onlyGivenNames x
    extract_lets +onlyGivenNames x
    split
    assumption
    refine kept_ite ?_ ?_
    apply raise_kept
    apply bumpIf_kept
    apply modClu_kept
    assumption
    refine kept_ite ?_ ?_
    apply raise_kept
    apply bumpIf_kept
    apply modClu_kept
    assumption
    apply bumpIf_kept
    apply modClu_kept
    assumption
    assumption

theorem noteTopology_kept (g tag : Nat) (memb : Tbl Nat) (s : State) (h_s : Kept q0 s) : Kept q0 (noteTopology g tag memb s) := by
  unfold noteTopology
  with_reducible
    extract_lets +onlyGivenNames x
    refine kept_foldl (fun t x ht => ?_) ?_
    refine kept_ite ?_ ?_
    assumption
    extract_lets +onlyGivenNames x
    split
    apply bump_kept
    assumption
    assumption
    refine kept_foldl (fun t x ht => ?_) ?_
    apply raise_kept
    apply bump_kept
    assumption
    assumption
    assumption

theorem dropMemb_kept (g : Nat) (s : State) (h_s : Kept q0 s) : Kept q0 (dropMemb g s) := by
  unfold dropMemb
  with_reducible
    extract_lets +onlyGivenNames x
    extract_lets +onlyGivenNames x
    extract_lets +onlyGivenNames x
    refine kept_upd rfl ?_ rfl rfl rfl
    assumption

theorem clusterEvaluate_kept (g tag : Nat) (v : Slab) (s0 : State) (h_s0 : Kept q0 s0) : Kept q0 (clusterEvaluate g tag v s0) := by
  unfold clusterEvaluate
  generalize cfgFor s0 v = cd
  obtain ⟨cfg, det⟩ := cd
  dsimp -zeta only
  extract_lets ev s1 first t0 memb0 s2 s2t later s3 memb b1 s4 b2
  have h1 : Kept q0 s1 := bump_kept _ _ (modSlab_kept _ _ _ _ h_s0)
  clear_value s1
  have h2 : Kept q0 s2 := by
    refine kept_ite ?_ h1
    have h : Kept q0 t0 := computeMembership_kept g cfg tag ev s1 h1
    clear_value t0
    exact noteClusters_kept _ _ _ _ _ _ (noteRef_kept _ _ _ _ h)
  clear_value s2
  have h2t : Kept q0 s2t := kept_ite (noteTopology_kept _ _ _ _ h2) h2
  clear_value s2t
  have h3 : Kept q0 s3 := kept_foldl (fun t x ht => decideSlab_kept _ _ _ _ _ _ ht) h2t
  clear_value s3
  have h4 : Kept q0 s4 := by
    refine kept_ite ?_ h3
    split
    · exact kept_foldl (fun t c ht => kept_foldl (fun u i hu => judgeClear_kept _ _ _ _ _ _ _ _ _ _ hu) (blindClear_kept _ _ _ _ _ ht)) (kept_imp h3 rfl rfl rfl rfl)
    · exact h3
  clear_value s4
  exact dropMemb_kept _ _ (closeDecisions_kept _ _ _ (kept_imp h4 rfl rfl rfl rfl))

theorem newSettings_kept (cfg : CluCfg) (det : DetCfg) (s : State) (h_s : Kept q0 s) : Kept q0 (newSettings cfg det s) := by
  unfold newSettings
  with_reducible
    extract_lets +onlyGivenNames x
    extract_lets +onlyGivenNames x
    refine kept_upd rfl ?_ rfl rfl rfl
    assumption

theorem execClusterConfig_kept (h : Hdr) (p : ClusterConfigP) (s : State) (h_s : Kept q0 s) : KeptOut q0 (execClusterConfig h p s) := by
  unfold execClusterConfig
  with_reducible
    refine keptOut_next ?_
    apply vci_kept
    extract_lets +onlyGivenNames x
    intro _
    intro _
    refine kept_iter ?_ ?_
    apply refuse_kept
    assumption
    apply done_kept
    apply newSettings_kept
    assumption
    assumption

theorem execBusSignalAdd_kept (h : Hdr) (p : BusSignalP) (s : State) (h_s : Kept q0 s) : KeptOut q0 (execBusSignalAdd h p s) := by
  unfold execBusSignalAdd
  with_reducible
    extract_lets +onlyGivenNames x
    refine keptOut_next ?_
    apply vci_kept
    extract_lets +onlyGivenNames x
    intro _
    extract_lets +onlyGivenNames x
    intro _
    refine kept_iter ?_ ?_
    apply refuse_kept
    assumption
    apply done_kept
    extract_lets +onlyGivenNames x
    refine kept_upd rfl ?_ rfl rfl rfl
    assumption
    assumption

theorem execBusSignalRemove_kept (h : Hdr) (p : BusSignalP) (s : State) (h_s : Kept q0 s) : KeptOut q0 (execBusSignalRemove h p s) := by
  unfold execBusSignalRemove
  with_reducible
    extract_lets +onlyGivenNames x
    refine keptOut_next ?_
    apply vci_kept
    extract_lets +onlyGivenNames x
    intro _
    extract_lets +onlyGivenNames x
    extract_lets +onlyGivenNames x
    extract_lets +onlyGivenNames x
    intro _
    apply done_kept
    apply freeEmpty_kept
    extract_lets +onlyGivenNames x
    refine kept_upd rfl ?_ rfl rfl rfl
    assumption
    assumption

theorem execClusterRef_kept (h : Hdr) (p : ClusterRefP) (s : State) (h_s : Kept q0 s) : KeptOut q0 (execClusterRef h p s) := by
  unfold execClusterRef
  with_reducible
    refine keptOut_next ?_
    apply vci_kept
    extract_lets +onlyGivenNames x
    intro _
    extract_lets +onlyGivenNames x
    intro _
    apply done_kept
    extract_lets +onlyGivenNames x
    refine kept_upd rfl ?_ rfl rfl rfl
    assumption
    assumption

theorem execBreakerMapAdd_kept (h : Hdr) (p : BreakerMapP) (s : State) (h_s : Kept q0 s) : KeptOut q0 (execBreakerMapAdd h p s) := by
  unfold execBreakerMapAdd
  with_reducible
    extract_lets +onlyGivenNames x
    refine keptOut_next ?_
    apply vci_kept
    extract_lets +onlyGivenNames x
    intro _
    extract_lets +onlyGivenNames x
    intro _
    split
    apply refuse_kept
    assumption
    apply doneWith_kept
    extract_lets +onlyGivenNames x
    refine kept_upd rfl ?_ rfl rfl rfl
    assumption
    assumption

theorem execBreakerMapRemove_kept (h : Hdr) (p : BreakerMapP) (s : State) (h_s : Kept q0 s) : KeptOut q0 (execBreakerMapRemove h p s) := by
  unfold execBreakerMapRemove
  with_reducible
    refine keptOut_next ?_
    apply vci_kept
    extract_lets +onlyGivenNames x
    intro _
    extract_lets +onlyGivenNames x
    intro _
    apply doneWith_kept
    extract_lets +onlyGivenNames x
    refine kept_upd rfl ?_ rfl rfl rfl
    assumption
    assumption

theorem execDetectorConfig_kept (h : Hdr) (p : DetectorConfigP) (s : State) (h_s : Kept q0 s) : KeptOut q0 (execDetectorConfig h p s) := by
  unfold execDetectorConfig
  with_reducible
    refine keptOut_next ?_
    apply vci_kept
    extract_lets +onlyGivenNames x
    intro _
    intro _
    apply done_kept
    apply newSettings_kept
    assumption
    assumption

theorem execClusterEvaluation_kept (tag : U64) (s : State) (h_s : Kept q0 s) : KeptOut q0 (execClusterEvaluation tag s) := by
  unfold execClusterEvaluation
  with_reducible
    extract_lets +onlyGivenNames x
    refine keptOut_next ?_
    extract_lets +onlyGivenNames x
    split
    assumption
    split
    assumption
    refine kept_ite ?_ ?_
    assumption
    refine kept_ite ?_ ?_
    apply closeDecisions_kept
    apply modSlab_kept
    assumption
    apply inTurn_kept
    apply clusterEvaluate_kept
    assumption

theorem execAlarmMapSet_kept (h : Hdr) (p : AlarmMapP) (s : State) (h_s : Kept q0 s) : KeptOut q0 (execAlarmMapSet h p s) := by
  unfold execAlarmMapSet
  with_reducible
    refine keptOut_next ?_
    apply vci_kept
    extract_lets +onlyGivenNames x
    intro _
    extract_lets +onlyGivenNames x
    intro _
    apply done_kept
    extract_lets +onlyGivenNames x
    refine kept_upd rfl ?_ rfl rfl rfl
    assumption
    assumption

theorem execAlarmMapRemove_kept (h : Hdr) (p : AlarmMapP) (s : State) (h_s : Kept q0 s) : KeptOut q0 (execAlarmMapRemove h p s) := by
  unfold execAlarmMapRemove
  with_reducible
    refine keptOut_next ?_
    apply vci_kept
    extract_lets +onlyGivenNames x
    intro _
    extract_lets +onlyGivenNames x
    intro _
    apply done_kept
    extract_lets +onlyGivenNames x
    refine kept_upd rfl ?_ rfl rfl rfl
    assumption
    assumption

theorem execAlarmStage_kept (h : Hdr) (p : AlarmStageP) (s : State) (h_s : Kept q0 s) : KeptOut q0 (execAlarmStage h p s) := by
  unfold execAlarmStage
  with_reducible
    extract_lets +onlyGivenNames x
    refine keptOut_next ?_
    apply vci_kept
    extract_lets +onlyGivenNames x
    intro _
    extract_lets +onlyGivenNames x
    extract_lets +onlyGivenNames x
    extract_lets +onlyGivenNames x
    extract_lets +onlyGivenNames x
    extract_lets +onlyGivenNames x
    extract_lets +onlyGivenNames x
    intro _
    refine kept_iter ?_ ?_
    apply refuse_kept
    assumption
    refine kept_iter ?_ ?_
    refine kept_iter ?_ ?_
    apply done_kept
    apply gooseStart_kept
    apply pinFollow_kept
    apply stageState_kept
    apply modStage_kept
    apply modStage_kept
    apply setStage_kept
    assumption
    refine kept_iter ?_ ?_
    apply done_kept
    apply gooseStart_kept
    apply modStage_kept
    apply setStage_kept
    assumption
    refine kept_iter ?_ ?_
    apply done_kept
    apply gooseStop_kept
    apply modStage_kept
    apply setStage_kept
    assumption
    apply done_kept
    apply modStage_kept
    apply setStage_kept
    assumption
    apply done_kept
    apply gooseStop_kept
    apply modStage_kept
    apply stageState_kept
    apply setStage_kept
    assumption
    assumption

theorem ackOn_kept (n : Nat) (s : State) (h_s : Kept q0 s) : Kept q0 (ackOn n s) := by
  unfold ackOn
  with_reducible
    split
    apply modStage_kept
    assumption
    apply gooseChange_kept
    apply pinFollow_kept
    apply modStage_kept
    apply stageState_kept
    assumption
    assumption

theorem execAlarmAck_kept (h : Hdr) (p : AlarmAckP) (s : State) (h_s : Kept q0 s) : KeptOut q0 (execAlarmAck h p s) := by
  unfold execAlarmAck
  with_reducible
    extract_lets +onlyGivenNames x
    refine keptOut_next ?_
    apply vci_kept
    extract_lets +onlyGivenNames x
    intro _
    intro _
    refine kept_iter ?_ ?_
    apply refuse_kept
    assumption
    apply done_kept
    extract_lets +onlyGivenNames x
    refine kept_foldl (fun t x ht => ?_) ?_
    apply ackOn_kept
    assumption
    assumption
    assumption

theorem execAlarmTestForce_kept (h : Hdr) (p : AlarmTestP) (s : State) (h_s : Kept q0 s) : KeptOut q0 (execAlarmTestForce h p s) := by
  unfold execAlarmTestForce
  with_reducible
    extract_lets +onlyGivenNames x
    refine keptOut_next ?_
    apply vci_kept
    extract_lets +onlyGivenNames x
    intro _
    extract_lets +onlyGivenNames x
    extract_lets +onlyGivenNames x
    intro _
    refine kept_iter ?_ ?_
    apply refuse_kept
    assumption
    refine kept_iter ?_ ?_
    apply refuse_kept
    assumption
    apply done_kept
    apply gooseChange_kept
    apply plainFrame_kept
    apply pinFollow_kept
    apply modStage_kept
    apply stageState_kept
    assumption
    assumption

theorem endTest_kept (n : Nat) (s : State) (h_s : Kept q0 s) : Kept q0 (endTest n s) := by
  unfold endTest
  with_reducible
    apply gooseChange_kept
    apply pinFollow_kept
    apply modStage_kept
    apply stageState_kept
    assumption

theorem execAlarmTestRelease_kept (h : Hdr) (p : AlarmTestP) (s : State) (h_s : Kept q0 s) : KeptOut q0 (execAlarmTestRelease h p s) := by
  unfold execAlarmTestRelease
  with_reducible
    extract_lets +onlyGivenNames x
    refine keptOut_next ?_
    apply vci_kept
    extract_lets +onlyGivenNames x
    intro _
    intro _
    refine kept_iter ?_ ?_
    apply refuse_kept
    assumption
    refine kept_iter ?_ ?_
    apply done_kept
    apply endTest_kept
    assumption
    apply done_kept
    assumption
    assumption

theorem execAlarmTestExpiry_kept (stage : BitVec 4) (s : State) (h_s : Kept q0 s) : KeptOut q0 (execAlarmTestExpiry stage s) := by
  unfold execAlarmTestExpiry
  with_reducible
    extract_lets +onlyGivenNames x
    refine keptOut_next ?_
    extract_lets +onlyGivenNames x
    split
    refine kept_ite ?_ ?_
    apply endTest_kept
    assumption
    assumption
    assumption

theorem execPinMinOnExpiry_kept (stage : BitVec 4) (s : State) (h_s : Kept q0 s) : KeptOut q0 (execPinMinOnExpiry stage s) := by
  unfold execPinMinOnExpiry
  with_reducible
    refine keptOut_next ?_
    apply pinFollow_kept
    assumption

theorem execAlarmFrameConfig_kept (h : Hdr) (p : AlarmFrameConfigP) (s : State) (h_s : Kept q0 s) : KeptOut q0 (execAlarmFrameConfig h p s) := by
  unfold execAlarmFrameConfig
  with_reducible
    refine keptOut_next ?_
    apply vci_kept
    extract_lets +onlyGivenNames x
    intro _
    extract_lets +onlyGivenNames x
    intro _
    apply done_kept
    extract_lets +onlyGivenNames x
    refine kept_upd rfl ?_ rfl rfl rfl
    assumption
    assumption

theorem execAlarmGooseConfig_kept (h : Hdr) (p : AlarmGooseConfigP) (s : State) (h_s : Kept q0 s) : KeptOut q0 (execAlarmGooseConfig h p s) := by
  unfold execAlarmGooseConfig
  with_reducible
    extract_lets +onlyGivenNames x
    refine keptOut_next ?_
    apply vci_kept
    extract_lets +onlyGivenNames x
    intro _
    extract_lets +onlyGivenNames x
    extract_lets +onlyGivenNames x
    extract_lets +onlyGivenNames x
    extract_lets +onlyGivenNames x
    intro _
    refine kept_iter ?_ ?_
    apply refuse_kept
    assumption
    apply done_kept
    refine kept_ite ?_ ?_
    apply gooseStart_kept
    apply setStage_kept
    assumption
    apply setStage_kept
    assumption
    assumption

theorem sendRepeats_kept (n : Nat) (a0 : List Repeat) (a1 : State) (h_a1 : Kept q0 a1) : Kept q0 (sendRepeats n a0 a1).2 := by
  fun_induction sendRepeats n a0 a1
  with_reducible
    assumption
    rename_i ih; apply ih
    assumption
    refine kept_eq2 ‹_› ?_
    rename_i ih; apply ih
    apply sendAlarm_kept
    extract_lets +onlyGivenNames x
    refine kept_upd rfl ?_ rfl rfl rfl
    assumption
    refine kept_eq2 ‹_› ?_
    rename_i ih; apply ih
    assumption

theorem execAlarmFrameRepeat_kept (stage : BitVec 4) (s : State) (h_s : Kept q0 s) : KeptOut q0 (execAlarmFrameRepeat stage s) := by
  unfold execAlarmFrameRepeat
  with_reducible
    refine keptOut_next ?_
    extract_lets +onlyGivenNames x
    refine kept_upd rfl ?_ rfl rfl rfl
    apply sendRepeats_kept
    assumption

theorem execAlarmStateRefresh_kept (stage : BitVec 4) (s : State) (h_s : Kept q0 s) : KeptOut q0 (execAlarmStateRefresh stage s) := by
  unfold execAlarmStateRefresh
  with_reducible
    extract_lets +onlyGivenNames x
    extract_lets +onlyGivenNames x
    extract_lets +onlyGivenNames x
    refine keptOut_next ?_
    refine kept_ite ?_ ?_
    assumption
    apply plainFrame_kept
    apply setStage_kept
    assumption

theorem execGooseRetransmit_kept (stage : BitVec 4) (s : State) (h_s : Kept q0 s) : KeptOut q0 (execGooseRetransmit stage s) := by
  unfold execGooseRetransmit
  with_reducible
    extract_lets +onlyGivenNames x
    extract_lets +onlyGivenNames x
    refine keptOut_next ?_
    extract_lets +onlyGivenNames x
    split
    assumption
    extract_lets +onlyGivenNames x
    extract_lets +onlyGivenNames x
    split
    assumption
    refine kept_ite ?_ ?_
    apply sendGoose_kept
    apply setStage_kept
    assumption
    assumption

theorem execAlarmFrameRx_kept (f : AlarmRx) (s : State) (h_s : Kept q0 s) : KeptOut q0 (execAlarmFrameRx f s) := by
  unfold execAlarmFrameRx
  with_reducible
    extract_lets +onlyGivenNames x
    extract_lets +onlyGivenNames x
    extract_lets +onlyGivenNames x
    extract_lets +onlyGivenNames x
    refine keptOut_next ?_
    refine kept_ite ?_ ?_
    assumption
    refine kept_ite ?_ ?_
    apply popIn_kept
    assumption
    refine kept_ite ?_ ?_
    apply bump_kept
    apply popIn_kept
    assumption
    refine kept_ite ?_ ?_
    apply bump_kept
    apply popIn_kept
    assumption
    apply raise_kept
    apply bump_kept
    extract_lets +onlyGivenNames x; refine kept_cut x ?_ ?_ <;> [(subst x); (clear_value x; intro _)]
    refine kept_upd rfl ?_ rfl rfl rfl
    apply popIn_kept
    assumption
    assumption

theorem setScr_kept (ch : Nat) (c : ScrChan) (s : State) (h_s : Kept q0 s) : Kept q0 (setScr ch c s) := by
  unfold setScr
  with_reducible
    extract_lets +onlyGivenNames x
    refine kept_upd rfl ?_ rfl rfl rfl
    assumption

theorem deviation_kept (kind : Nat) (v m : Scale) (s : State) (h_s : Kept q0 s) : Kept q0 (deviation kind v m s).2 := by
  unfold deviation
  with_reducible
    dsimp -zeta only
    split
    assumption
    apply fresh_kept
    assumption

theorem underSlab_kept (g tag : Nat) (f : State → State) (s : State) (h_f : ∀ x0, Kept q0 x0 → Kept q0 (f x0)) (h_s : Kept q0 s) : Kept q0 (underSlab g tag f s) := by
  unfold underSlab
  with_reducible
    extract_lets +onlyGivenNames x
    extract_lets +onlyGivenNames x; refine kept_cut x ?_ ?_ <;> [(subst x); (clear_value x; intro _)]
    apply h_f
    extract_lets +onlyGivenNames x
    refine kept_upd rfl ?_ rfl rfl rfl
    assumption
    extract_lets +onlyGivenNames x
    refine kept_upd rfl ?_ rfl rfl rfl
    assumption

theorem newOscSet_kept (o : OscSet) (s : State) (h_s : Kept q0 s) : Kept q0 (newOscSet o s) := by
  unfold newOscSet
  with_reducible
    extract_lets +onlyGivenNames x
    extract_lets +onlyGivenNames x
    refine kept_upd rfl ?_ rfl rfl rfl
    assumption

theorem oscCleared_kept (num cause tag ev : Nat) (value : U32) (s : State) (h_s : Kept q0 s) : Kept q0 (oscCleared num cause tag ev value s) := by
  unfold oscCleared
  with_reducible
    apply stageClear_kept
    apply raise_kept
    apply bump_kept
    assumption

theorem modSlot_kept (n : Nat) (f : EstSlot → EstSlot) (s : State) (h_s : Kept q0 s) : Kept q0 (modSlot n f s) := by
  unfold modSlot
  with_reducible
    extract_lets +onlyGivenNames x
    refine kept_upd rfl ?_ rfl rfl rfl
    assumption

theorem modMode_kept (m : Nat) (f : Mode → Mode) (s : State) (h_s : Kept q0 s) : Kept q0 (modMode m f s) := by
  unfold modMode
  with_reducible
    extract_lets +onlyGivenNames x
    refine kept_upd rfl ?_ rfl rfl rfl
    assumption

theorem dropModes_kept (s : State) (h_s : Kept q0 s) : Kept q0 (dropModes s) := by
  unfold dropModes
  with_reducible
    extract_lets +onlyGivenNames x
    extract_lets +onlyGivenNames x
    refine kept_upd rfl ?_ rfl rfl rfl
    assumption

theorem endMode_kept (m : Nat) (s : State) (h_s : Kept q0 s) : Kept q0 (endMode m s) := by
  unfold endMode
  with_reducible
    extract_lets +onlyGivenNames x
    split
    assumption
    apply raise_kept
    apply dropModes_kept
    extract_lets +onlyGivenNames x
    split
    split
    refine kept_upd rfl ?_ rfl rfl rfl
    apply oscCleared_kept
    apply oscCleared_kept
    assumption
    refine kept_upd rfl ?_ rfl rfl rfl
    apply oscCleared_kept
    assumption
    split
    refine kept_upd rfl ?_ rfl rfl rfl
    apply oscCleared_kept
    assumption
    refine kept_upd rfl ?_ rfl rfl rfl
    assumption

theorem freeEst_kept (n : Nat) (cause : Option Nat) (s : State) (h_s : Kept q0 s) : Kept q0 (freeEst n cause s) := by
  unfold freeEst
  with_reducible
    split
    assumption
    extract_lets +onlyGivenNames x; refine kept_cut x ?_ ?_ <;> [(subst x); (clear_value x; intro _)]
    refine kept_ite ?_ ?_
    apply oscCleared_kept
    assumption
    assumption
    extract_lets +onlyGivenNames x
    extract_lets +onlyGivenNames x; refine kept_cut x ?_ ?_ <;> [(subst x); (clear_value x; intro _)]
    apply unplace_kept
    extract_lets +onlyGivenNames x
    refine kept_upd rfl ?_ rfl rfl rfl
    assumption
    extract_lets +onlyGivenNames x; refine kept_cut x ?_ ?_ <;> [(subst x); (clear_value x; intro _)]
    split
    refine kept_ite ?_ ?_
    apply endMode_kept
    apply modMode_kept
    assumption
    apply modMode_kept
    assumption
    assumption
    split
    apply raise_kept
    apply bump_kept
    assumption
    assumption

theorem noteFlags_kept (ch : Nat) (old new : BitVec 6) (tag : Nat) (s : State) (h_s : Kept q0 s) : Kept q0 (noteFlags ch old new tag s) := by
  unfold noteFlags
  with_reducible
    extract_lets +onlyGivenNames x; refine kept_cut x ?_ ?_ <;> [(subst x); (clear_value x; intro _)]
    apply bumpIf_kept
    apply bumpIf_kept
    assumption
    split
    assumption
    refine kept_ite ?_ ?_
    apply modSlot_kept
    assumption
    refine kept_ite ?_ ?_
    apply modSlot_kept
    assumption
    assumption

theorem assignSlot_kept (n ch band g tag : Nat) (watched : Bool) (s : State) (h_s : Kept q0 s) : Kept q0 (assignSlot n ch band g tag watched s) := by
  unfold assignSlot
  with_reducible
    apply placeNew_kept
    extract_lets +onlyGivenNames x
    split
    refine kept_upd rfl ?_ rfl rfl rfl
    assumption
    refine kept_upd rfl ?_ rfl rfl rfl
    assumption

theorem oscResetChan_kept (ch : Nat) (s : State) (h_s : Kept q0 s) : Kept q0 (oscResetChan ch s) := by
  unfold oscResetChan
  with_reducible
    extract_lets +onlyGivenNames x
    extract_lets +onlyGivenNames x; refine kept_cut x ?_ ?_ <;> [(subst x); (clear_value x; intro _)]
    split
    apply bumpIf_kept
    extract_lets +onlyGivenNames x
    refine kept_upd rfl ?_ rfl rfl rfl
    assumption
    assumption
    split
    apply freeEst_kept
    assumption
    assumption

theorem oscResetStream_kept (h : Nat) (s : State) (h_s : Kept q0 s) : Kept q0 (oscResetStream h s) := by
  unfold oscResetStream
  with_reducible
    refine kept_foldl (fun t x ht => ?_) ?_
    apply oscResetChan_kept
    assumption
    assumption

theorem oscMoveGrid_kept (h g : Nat) (s : State) (h_s : Kept q0 s) : Kept q0 (oscMoveGrid h g s) := by
  unfold oscMoveGrid
  with_reducible
    refine kept_foldl (fun t x ht => ?_) ?_
    extract_lets +onlyGivenNames x
    split
    extract_lets +onlyGivenNames x; refine kept_cut x ?_ ?_ <;> [(subst x); (clear_value x; intro _)]
    apply bumpIf_kept
    apply setScr_kept
    assumption
    split
    apply freeEst_kept
    assumption
    assumption
    assumption
    assumption

theorem oscLostStream_kept (h cause : Nat) (s : State) (h_s : Kept q0 s) : Kept q0 (oscLostStream h cause s) := by
  unfold oscLostStream
  with_reducible
    refine kept_foldl (fun t x ht => ?_) ?_
    extract_lets +onlyGivenNames x
    split
    apply freeEst_kept
    assumption
    assumption
    assumption

theorem oscCfgHook_kept (h : Nat) (old : List ChanDesc) (oldGrid : Option Nat) (s : State) (h_s : Kept q0 s) : Kept q0 (oscCfgHook h old oldGrid s) := by
  unfold oscCfgHook
  with_reducible
    extract_lets +onlyGivenNames x
    split
    assumption
    extract_lets +onlyGivenNames x; refine kept_cut x ?_ ?_ <;> [(subst x); (clear_value x; intro _)]
    refine kept_foldl (fun t x ht => ?_) ?_
    refine kept_ite ?_ ?_
    assumption
    refine kept_ite ?_ ?_
    apply placeNew_kept
    apply oscResetChan_kept
    assumption
    refine kept_ite ?_ ?_
    apply unplace_kept
    apply oscResetChan_kept
    assumption
    apply oscResetChan_kept
    assumption
    assumption
    split
    refine kept_ite ?_ ?_
    assumption
    apply oscMoveGrid_kept
    assumption
    assumption

theorem conditioned_kept (kind rate : Nat) (v : U32) (m : Option U32) (s : State) (h_s : Kept q0 s) : Kept q0 (conditioned kind rate v m s).2.2 := by
  unfold conditioned
  with_reducible
    dsimp -zeta only
    split
    assumption
    apply deviation_kept
    assumption
    apply fresh_kept
    assumption

theorem screenChan_kept (g tag ch kind : Nat) (s0 : State) (h_s0 : Kept q0 s0) : Kept q0 (screenChan g tag ch kind s0) := by
  unfold screenChan
  with_reducible
    apply noteFlags_kept
    apply setScr_kept
    extract_lets +onlyGivenNames x
    dsimp -zeta only
    split
    apply modSlot_kept
    extract_lets +onlyGivenNames x
    split
    apply bump_kept
    assumption
    apply conditioned_kept
    apply bump_kept
    assumption
    split
    apply bump_kept
    assumption
    apply conditioned_kept
    apply bump_kept
    assumption

theorem patchChan_kept (g tag ch kind : Nat) (s : State) (h_s : Kept q0 s) : Kept q0 (patchChan g tag ch kind s) := by
  unfold patchChan
  with_reducible
    extract_lets +onlyGivenNames x
    extract_lets +onlyGivenNames x
    dsimp -zeta only
    split
    assumption
    apply bump_kept
    apply noteFlags_kept
    apply setScr_kept
    extract_lets +onlyGivenNames x
    split
    apply modSlot_kept
    extract_lets +onlyGivenNames x
    clear_value *; split
    assumption
    apply conditioned_kept
    assumption
    clear_value *; split
    assumption
    apply conditioned_kept
    assumption

theorem rankGo_kept (tag : Nat) (a0 : List (Nat × Nat × Int)) (a1 : State) (h_a1 : Kept q0 a1) : Kept q0 (rankGo tag a0 a1).2 := by
  fun_induction rankGo tag a0 a1
  with_reducible
    assumption
    rename_i ih; apply ih
    apply assignSlot_kept
    assumption
    rename_i ih; apply ih
    apply assignSlot_kept
    apply bump_kept
    apply freeEst_kept
    assumption
    assumption
    assumption

theorem rankWatched_kept (tag : Nat) (s : State) (h_s : Kept q0 s) : Kept q0 (rankWatched tag s) := by
  unfold rankWatched
  with_reducible
    refine kept_foldl (fun t x ht => ?_) ?_
    extract_lets +onlyGivenNames x
    split
    apply modSlot_kept
    assumption
    split
    split
    extract_lets +onlyGivenNames x
    split
    apply assignSlot_kept
    assumption
    split
    apply assignSlot_kept
    apply bump_kept
    apply freeEst_kept
    assumption
    assumption
    assumption
    assumption
    assumption

theorem rankPass_kept (tag : Nat) (s : State) (h_s : Kept q0 s) : Kept q0 (rankPass tag s) := by
  unfold rankPass
  with_reducible
    refine kept_ite ?_ ?_
    apply rankGo_kept
    apply rankWatched_kept
    apply bump_kept
    extract_lets +onlyGivenNames x
    refine kept_upd rfl ?_ rfl rfl rfl
    assumption
    apply raiseIf_kept
    extract_lets +onlyGivenNames x
    extract_lets +onlyGivenNames x
    refine kept_upd rfl ?_ rfl rfl rfl
    apply bumpBy_kept
    apply rankGo_kept
    apply rankWatched_kept
    apply bump_kept
    extract_lets +onlyGivenNames x
    refine kept_upd rfl ?_ rfl rfl rfl
    assumption

theorem modelMode_kept (b rate : Nat) (m : EstModel) (s : State) (h_s : Kept q0 s) : Kept q0 (modelMode b rate m s).2.2 := by
  unfold modelMode
  with_reducible
    dsimp -zeta only
    split
    assumption
    apply fresh_kept
    assumption

theorem estResult_kept (v : EstSlot) (kind tag : Nat) (skip : Bool) (s0 : State) (h_s0 : Kept q0 s0) : Kept q0 (estResult v kind tag skip s0).2.2 := by
  unfold estResult
  with_reducible
    refine kept_ite3 ?_ ?_
    assumption
    apply modelMode_kept
    assumption

theorem ampCondition_kept (n tag : Nat) (s : State) (h_s : Kept q0 s) : Kept q0 (ampCondition n tag s) := by
  unfold ampCondition
  with_reducible
    dsimp -zeta only
    split
    assumption
    refine kept_ite ?_ ?_
    assumption
    refine kept_ite ?_ ?_
    apply stageRaise_kept
    apply raise_kept
    apply bump_kept
    apply modSlot_kept
    assumption
    refine kept_ite ?_ ?_
    apply oscCleared_kept
    apply modSlot_kept
    assumption
    apply modSlot_kept
    assumption

theorem estOutput_kept (n tag : Nat) (s : State) (h_s : Kept q0 s) : Kept q0 (estOutput n tag s) := by
  unfold estOutput
  with_reducible
    split
    assumption
    refine kept_foldl (fun t x ht => ?_) ?_
    extract_lets +onlyGivenNames x
    split
    refine kept_ite ?_ ?_
    assumption
    extract_lets +onlyGivenNames x
    split
    refine ringWrite_kept _ _ _ _ _  ?_  _ ‹_›
    assumption
    apply bump_kept
    assumption
    assumption
    assumption

theorem writeMode_kept (m g tag : Nat) (grp : List Nat) (s0 : State) (h_s0 : Kept q0 s0) : Kept q0 (writeMode m g tag grp s0) := by
  unfold writeMode
  with_reducible
    extract_lets +onlyGivenNames x
    extract_lets +onlyGivenNames x
    refine kept_foldl (fun t x ht => ?_) ?_
    apply modSlot_kept
    assumption
    extract_lets +onlyGivenNames x
    extract_lets +onlyGivenNames x
    split
    apply modMode_kept
    apply fresh_kept
    assumption
    apply raise_kept
    extract_lets +onlyGivenNames x
    refine kept_upd rfl ?_ rfl rfl rfl
    apply fresh_kept
    assumption

theorem placeGroups_kept (g tag : Nat) (a0 : List (List Nat)) (a1 : List Nat) (a2 : State) (h_a2 : Kept q0 a2) : Kept q0 (placeGroups g tag a0 a1 a2).2 := by
  fun_induction placeGroups g tag a0 a1 a2
  with_reducible
    assumption
    rename_i ih; apply ih
    apply writeMode_kept
    assumption
    rename_i ih; apply ih
    apply writeMode_kept
    assumption
    rename_i ih; apply ih
    apply raise_kept
    apply bump_kept
    extract_lets +onlyGivenNames x
    refine kept_foldl (fun t x ht => ?_) ?_
    apply modSlot_kept
    assumption
    assumption

theorem oscClassify_kept (m tag : Nat) (s : State) (h_s : Kept q0 s) : Kept q0 (oscClassify m tag s) := by
  unfold oscClassify
  with_reducible
    extract_lets +onlyGivenNames x
    extract_lets +onlyGivenNames x
    extract_lets +onlyGivenNames x
    split
    assumption
    apply raiseIf_kept
    apply modMode_kept
    assumption

theorem modeAlarms_kept (m tag : Nat) (s : State) (h_s : Kept q0 s) : Kept q0 (modeAlarms m tag s) := by
  unfold modeAlarms
  with_reducible
    extract_lets +onlyGivenNames x
    dsimp -zeta only
    split
    assumption
    refine kept_ite ?_ ?_
    apply stageRaise_kept
    apply raise_kept
    apply bump_kept
    apply modMode_kept
    refine kept_ite ?_ ?_
    apply oscCleared_kept
    apply modMode_kept
    assumption
    refine kept_ite ?_ ?_
    apply stageRaise_kept
    apply raise_kept
    apply bump_kept
    apply modMode_kept
    assumption
    refine kept_ite ?_ ?_
    apply oscCleared_kept
    apply modMode_kept
    assumption
    apply modMode_kept
    assumption
    refine kept_ite ?_ ?_
    apply oscCleared_kept
    apply modMode_kept
    refine kept_ite ?_ ?_
    apply oscCleared_kept
    apply modMode_kept
    assumption
    refine kept_ite ?_ ?_
    apply stageRaise_kept
    apply raise_kept
    apply bump_kept
    apply modMode_kept
    assumption
    refine kept_ite ?_ ?_
    apply oscCleared_kept
    apply modMode_kept
    assumption
    apply modMode_kept
    assumption
    apply modMode_kept
    refine kept_ite ?_ ?_
    apply oscCleared_kept
    apply modMode_kept
    assumption
    refine kept_ite ?_ ?_
    apply stageRaise_kept
    apply raise_kept
    apply bump_kept
    apply modMode_kept
    assumption
    refine kept_ite ?_ ?_
    apply oscCleared_kept
    apply modMode_kept
    assumption
    apply modMode_kept
    assumption

theorem trackBranches_kept (g : Nat) (s : State) (h_s : Kept q0 s) : Kept q0 (trackBranches g s) := by
  unfold trackBranches
  with_reducible
    extract_lets +onlyGivenNames x
    extract_lets +onlyGivenNames x
    refine kept_upd rfl ?_ rfl rfl rfl
    assumption

theorem flowBranches_kept (g tag : Nat) (s : State) (h_s : Kept q0 s) : Kept q0 (flowBranches g tag s) := by
  unfold flowBranches
  with_reducible
    extract_lets +onlyGivenNames x
    extract_lets +onlyGivenNames x
    extract_lets +onlyGivenNames x
    extract_lets +onlyGivenNames x
    refine kept_upd rfl ?_ rfl rfl rfl
    assumption

theorem wholeSecond_kept (g tag : Nat) (s : State) (h_s : Kept q0 s) : Kept q0 (wholeSecond g tag s) := by
  unfold wholeSecond
  with_reducible
    extract_lets +onlyGivenNames x
    extract_lets +onlyGivenNames x
    extract_lets +onlyGivenNames x
    extract_lets +onlyGivenNames x
    refine kept_foldl (fun t x ht => ?_) ?_
    apply modeAlarms_kept
    assumption
    apply trackBranches_kept
    extract_lets +onlyGivenNames x
    refine kept_foldl (fun t x ht => ?_) ?_
    apply oscClassify_kept
    assumption
    apply dropModes_kept
    extract_lets +onlyGivenNames x
    refine kept_foldl (fun t x ht => ?_) ?_
    refine kept_ite ?_ ?_
    apply endMode_kept
    apply modMode_kept
    assumption
    apply modMode_kept
    assumption
    apply placeGroups_kept
    assumption

theorem sendCommand_kept (h cmd : Nat) (s : State) (h_s : Kept q0 s) : Kept q0 (sendCommand h cmd s) := by
  unfold sendCommand
  with_reducible
    extract_lets +onlyGivenNames x
    split
    assumption
    apply sendOwn_kept
    assumption

theorem sendStart_kept (h : Nat) (start : U8) (s : State) (h_s : Kept q0 s) : Kept q0 (sendStart h start s) := by
  unfold sendStart
  with_reducible
    refine kept_ite ?_ ?_
    apply sendCommand_kept
    refine kept_ite ?_ ?_
    apply sendCommand_kept
    refine kept_ite ?_ ?_
    apply sendCommand_kept
    assumption
    assumption
    refine kept_ite ?_ ?_
    apply sendCommand_kept
    assumption
    assumption
    refine kept_ite ?_ ?_
    apply sendCommand_kept
    refine kept_ite ?_ ?_
    apply sendCommand_kept
    assumption
    assumption
    refine kept_ite ?_ ?_
    apply sendCommand_kept
    assumption
    assumption

theorem applyCfg_kept (h : Nat) (c : C37Cfg) (tag : Nat) (s : State) (h_s : Kept q0 s) : Kept q0 (applyCfg h c tag s) := by
  unfold applyCfg
  with_reducible
    extract_lets +onlyGivenNames x
    dsimp -zeta only
    split
    assumption
    apply pubMemberCfg_kept
    extract_lets +onlyGivenNames x
    split
    refine kept_upd rfl ?_ rfl rfl rfl
    apply oscCfgHook_kept
    apply syncGrid_kept
    apply raise_kept
    apply setStream_kept
    assumption
    refine kept_upd rfl ?_ rfl rfl rfl
    apply oscCfgHook_kept
    apply syncGrid_kept
    apply raise_kept
    apply setStream_kept
    assumption

theorem rollSecond_kept (s : State) (h_s : Kept q0 s) : Kept q0 (rollSecond s) := by
  unfold rollSecond
  with_reducible
    refine kept_ite ?_ ?_
    assumption
    refine kept_ite ?_ ?_
    extract_lets +onlyGivenNames x
    refine kept_upd rfl ?_ rfl rfl rfl
    assumption
    extract_lets +onlyGivenNames x
    refine kept_upd rfl ?_ rfl rfl rfl
    assumption

theorem acceptAt_kept (h tag at_ : Nat) (cells : List (Nat × Cell)) (s0 : State) (h_s0 : Kept q0 s0) : Kept q0 (acceptAt h tag at_ cells s0) := by
  unfold acceptAt
  with_reducible
    extract_lets +onlyGivenNames x; refine kept_cut x ?_ ?_ <;> [(subst x); (clear_value x; intro _)]
    apply rollSecond_kept
    assumption
    split
    assumption
    apply landReport_kept
    extract_lets +onlyGivenNames x
    split
    refine kept_upd rfl ?_ rfl rfl rfl
    apply raiseIf_kept
    apply setStream_kept
    assumption
    refine kept_upd rfl ?_ rfl rfl rfl
    apply raiseIf_kept
    apply setStream_kept
    assumption

end Sys2Proof.Machine
end

