-- ==== Sys2Proof/Laws/Kept3.lean ====
section
/-!
SUPPORT. Operations keep a sound state and the commands that wait (part 3).
-/

namespace Sys2Proof.Machine

set_option Elab.async false
set_option linter.tactic.unusedName false

variable {q0 : List Instr}

theorem acceptReport_kept (h tag at_ : Nat) (cells : List Cell) (s : State) (h_s : Kept q0 s) : Kept q0 (acceptReport h tag at_ cells s) := by
  unfold acceptReport
  with_reducible
    apply acceptAt_kept
    assumption

theorem popC37_kept (k : Nat) (data : Bool) (s : State) (h_s : Kept q0 s) : Kept q0 (popC37 k data s) := by
  unfold popC37
  with_reducible
    apply popIn_kept
    assumption

theorem readEntry_kept (k : Nat) (key : StreamKey) (e : EccRead) (s : State) (h_s : Kept q0 s) : Kept q0 (readEntry k key e s) := by
  unfold readEntry
  with_reducible
    split
    apply bump_kept
    assumption
    apply setStream_kept
    assumption
    assumption

theorem streamPrp_kept (h : Nat) (hd : C37Head) (s : State) (h_s : Kept q0 s) : Kept q0 (streamPrp h hd s).2 := by
  unfold streamPrp
  with_reducible
    extract_lets +onlyGivenNames x
    extract_lets +onlyGivenNames x
    split
    refine kept_ite2 ?_ ?_
    apply setStream_kept
    assumption
    refine kept_ite2 ?_ ?_
    apply noteDup_kept
    refine kept_ite ?_ ?_
    apply noteSkew_kept
    apply setStream_kept
    assumption
    apply setStream_kept
    assumption
    refine kept_ite2 ?_ ?_
    apply setStream_kept
    assumption
    refine kept_ite2 ?_ ?_
    apply setStream_kept
    assumption
    apply setStream_kept
    apply bump_kept
    assumption
    assumption

theorem countMal_kept (h : Nat) (s : State) (h_s : Kept q0 s) : Kept q0 (countMal h s) := by
  unfold countMal
  with_reducible
    apply modStream_kept
    assumption

theorem c37Sound_kept (h : Nat) (hd : C37Head) (reserved : Bool) (s : State) (h_s : Kept q0 s) : Kept q0 (c37Sound h hd reserved s).2 := by
  unfold c37Sound
  with_reducible
    refine kept_ite2 ?_ ?_
    apply countMal_kept
    assumption
    refine kept_ite2 ?_ ?_
    apply modStream_kept
    assumption
    assumption

theorem unknownC37_kept (hd : C37Head) (typ : Nat) (s : State) (h_s : Kept q0 s) : Kept q0 (unknownC37 hd typ s) := by
  unfold unknownC37
  with_reducible
    refine kept_ite ?_ ?_
    extract_lets +onlyGivenNames x
    split
    refine kept_ite2 ?_ ?_
    apply unknownSource_kept
    assumption
    assumption
    assumption
    refine kept_ite ?_ ?_
    apply bump_kept
    extract_lets +onlyGivenNames x
    split
    refine kept_ite2 ?_ ?_
    apply unknownSource_kept
    assumption
    assumption
    assumption
    apply raise_kept
    apply bump_kept
    extract_lets +onlyGivenNames x
    split
    refine kept_ite2 ?_ ?_
    apply unknownSource_kept
    assumption
    assumption
    assumption

theorem c37Stage_kept (hd : C37Head) (typ : Nat) (s0 : State) (h_s0 : Kept q0 s0) : Kept q0 (c37Stage hd typ s0).2 := by
  unfold c37Stage
  with_reducible
    extract_lets +onlyGivenNames x
    extract_lets +onlyGivenNames x; refine kept_cut x ?_ ?_ <;> [(subst x); (clear_value x; intro _)]
    apply readEntry_kept
    apply popC37_kept
    assumption
    dsimp -zeta only
    split
    refine kept_ite2 ?_ ?_
    apply setStream_kept
    assumption
    refine kept_ite2 ?_ ?_
    apply bump_kept
    assumption
    refine kept_ite2 ?_ ?_
    apply streamPrp_kept
    assumption
    apply c37Sound_kept
    apply streamPrp_kept
    assumption
    refine kept_ite2 ?_ ?_
    assumption
    refine kept_ite2 ?_ ?_
    apply bump_kept
    assumption
    apply unknownC37_kept
    assumption

theorem shrink_kept (g windowMs : Nat) (s : State) (h_s : Kept q0 s) : Kept q0 (shrink g windowMs s) := by
  unfold shrink
  with_reducible
    apply trimRing_kept
    extract_lets +onlyGivenNames x
    refine kept_foldl (fun t x ht => ?_) ?_
    refine kept_ite ?_ ?_
    apply toHistory_kept
    apply modSlab_kept
    assumption
    apply modSlab_kept
    assumption
    assumption

theorem execGridConfig_kept (h : Hdr) (p : GridConfigP) (s : State) (h_s : Kept q0 s) : KeptOut q0 (execGridConfig h p s) := by
  unfold execGridConfig
  with_reducible
    extract_lets +onlyGivenNames x
    extract_lets +onlyGivenNames x
    refine keptOut_next ?_
    apply vci_kept
    extract_lets +onlyGivenNames x
    intro _
    extract_lets +onlyGivenNames x
    extract_lets +onlyGivenNames x
    extract_lets +onlyGivenNames x
    extract_lets +onlyGivenNames x
    intro _
    refine kept_iter ?_ ?_
    apply refuse_kept
    assumption
    apply done_kept
    apply poolCheck_kept
    refine kept_ite ?_ ?_
    apply shrink_kept
    apply modGrid_kept
    assumption
    apply modGrid_kept
    assumption
    assumption

theorem execPubAdd_kept (h : Hdr) (p : PubAddP) (s : State) (h_s : Kept q0 s) : KeptOut q0 (execPubAdd h p s) := by
  unfold execPubAdd
  with_reducible
    refine keptOut_next ?_
    apply vci_kept
    extract_lets +onlyGivenNames x
    intro _
    extract_lets +onlyGivenNames x
    extract_lets +onlyGivenNames x
    intro _
    refine kept_iter ?_ ?_
    apply refuse_kept
    assumption
    extract_lets +onlyGivenNames x
    split
    apply refuse_kept
    assumption
    apply doneWith_kept
    refine kept_ite ?_ ?_
    apply bindRing_kept
    apply gridCheck_kept
    extract_lets +onlyGivenNames x
    refine kept_upd rfl ?_ rfl rfl rfl
    assumption
    apply gridCheck_kept
    extract_lets +onlyGivenNames x
    refine kept_upd rfl ?_ rfl rfl rfl
    assumption
    assumption

theorem execPubChange_kept (h : Hdr) (p : PubChangeP) (s : State) (h_s : Kept q0 s) : KeptOut q0 (execPubChange h p s) := by
  unfold execPubChange
  with_reducible
    extract_lets +onlyGivenNames x
    extract_lets +onlyGivenNames x
    refine keptOut_next ?_
    apply vci_kept
    extract_lets +onlyGivenNames x
    intro _
    intro _
    split
    apply refuse_kept
    assumption
    apply done_kept
    extract_lets +onlyGivenNames x
    split
    refine kept_ite ?_ ?_
    apply pubState_kept
    refine kept_ite ?_ ?_
    apply modPub_kept
    assumption
    apply modPub_kept
    apply modPub_kept
    assumption
    refine kept_ite ?_ ?_
    apply modPub_kept
    assumption
    apply modPub_kept
    apply modPub_kept
    assumption
    refine kept_ite ?_ ?_
    refine kept_ite ?_ ?_
    apply modPub_kept
    assumption
    apply modPub_kept
    apply modPub_kept
    assumption
    apply pubState_kept
    refine kept_ite ?_ ?_
    apply modPub_kept
    assumption
    apply modPub_kept
    apply modPub_kept
    assumption
    refine kept_ite ?_ ?_
    refine kept_ite ?_ ?_
    apply modPub_kept
    assumption
    apply modPub_kept
    apply modPub_kept
    assumption
    apply pubState_kept
    refine kept_ite ?_ ?_
    apply modPub_kept
    assumption
    apply modPub_kept
    apply modPub_kept
    assumption
    refine kept_ite ?_ ?_
    apply pubState_kept
    refine kept_ite ?_ ?_
    apply modPub_kept
    assumption
    apply modPub_kept
    apply modPub_kept
    assumption
    refine kept_ite ?_ ?_
    apply modPub_kept
    assumption
    apply modPub_kept
    apply modPub_kept
    assumption
    assumption

theorem execPubRetire_kept (h : Hdr) (p : PubRetireP) (s : State) (h_s : Kept q0 s) : KeptOut q0 (execPubRetire h p s) := by
  unfold execPubRetire
  with_reducible
    extract_lets +onlyGivenNames x
    refine keptOut_next ?_
    apply vci_kept
    extract_lets +onlyGivenNames x
    intro _
    intro _
    apply done_kept
    apply modPub_kept
    assumption
    assumption

theorem execSlabOpen_kept (grid : BitVec 5) (s : State) (h_s : Kept q0 s) : KeptOut q0 (execSlabOpen grid s) := by
  unfold execSlabOpen
  with_reducible
    extract_lets +onlyGivenNames x
    extract_lets +onlyGivenNames x
    extract_lets +onlyGivenNames x
    extract_lets +onlyGivenNames x
    extract_lets +onlyGivenNames x
    extract_lets +onlyGivenNames x
    refine keptOut_next ?_
    refine kept_ite ?_ ?_
    assumption
    refine kept_ite ?_ ?_
    apply slabBoundary_kept
    assumption
    apply checkComplete_kept
    apply openSlab_kept
    apply slabBoundary_kept
    assumption

theorem execSpeculativeRelease_kept (grid : BitVec 5) (tag : U64) (s : State) (h_s : Kept q0 s) : KeptOut q0 (execSpeculativeRelease grid tag s) := by
  unfold execSpeculativeRelease
  with_reducible
    extract_lets +onlyGivenNames x
    extract_lets +onlyGivenNames x
    refine keptOut_next ?_
    extract_lets +onlyGivenNames x
    split
    refine kept_ite ?_ ?_
    apply noteLate_kept
    apply specRelease_kept
    assumption
    assumption
    assumption

theorem execDeadlineRelease_kept (grid : BitVec 5) (tag : U64) (s : State) (h_s : Kept q0 s) : KeptOut q0 (execDeadlineRelease grid tag s) := by
  unfold execDeadlineRelease
  with_reducible
    extract_lets +onlyGivenNames x
    extract_lets +onlyGivenNames x
    refine keptOut_next ?_
    extract_lets +onlyGivenNames x
    split
    refine kept_ite ?_ ?_
    apply noteLate_kept
    apply finalRelease_kept
    assumption
    assumption
    assumption

theorem execPatchRelease_kept (grid : BitVec 5) (tag : U64) (s : State) (h_s : Kept q0 s) : KeptOut q0 (execPatchRelease grid tag s) := by
  unfold execPatchRelease
  with_reducible
    extract_lets +onlyGivenNames x
    extract_lets +onlyGivenNames x
    refine keptOut_next ?_
    extract_lets +onlyGivenNames x
    split
    refine kept_ite ?_ ?_
    apply noteLate_kept
    apply patchNow_kept
    assumption
    assumption
    assumption

theorem execSlabHistory_kept (grid : BitVec 5) (tag : U64) (s : State) (h_s : Kept q0 s) : KeptOut q0 (execSlabHistory grid tag s) := by
  unfold execSlabHistory
  with_reducible
    extract_lets +onlyGivenNames x
    extract_lets +onlyGivenNames x
    refine keptOut_next ?_
    extract_lets +onlyGivenNames x
    split
    refine kept_ite ?_ ?_
    apply toHistory_kept
    refine kept_ite ?_ ?_
    assumption
    apply noteLate_kept
    assumption
    assumption
    assumption

theorem pubSent_kept (n : Nat) (p : Pub) (t : Nat) (s : State) (st : Sts) (s2 : State) (h_s : Kept q0 s) (h_s2 : Kept q0 s2) : Kept q0 (pubSent n p t s st s2) := by
  unfold pubSent
  with_reducible
    refine kept_ite ?_ ?_
    apply modPub_kept
    assumption
    apply raiseIf_kept
    apply modPub_kept
    assumption

theorem execPubFrameBuild_kept (pub : U16) (tag : U64) (s : State) (h_s : Kept q0 s) : KeptOut q0 (execPubFrameBuild pub tag s) := by
  unfold execPubFrameBuild
  with_reducible
    extract_lets +onlyGivenNames x
    extract_lets +onlyGivenNames x
    extract_lets +onlyGivenNames x
    refine keptOut_next ?_
    extract_lets +onlyGivenNames x; refine kept_cut x ?_ ?_ <;> [(subst x); (clear_value x; intro _)]
    apply modPub_kept
    assumption
    split
    assumption
    refine kept_ite ?_ ?_
    assumption
    refine kept_ite ?_ ?_
    apply modPub_kept
    assumption
    apply pubSent_kept
    assumption
    apply sendFrame_kept
    assumption

theorem setMp_kept (m : Nat) (v : SgMp) (s : State) (h_s : Kept q0 s) : Kept q0 (setMp m v s) := by
  unfold setMp
  with_reducible
    extract_lets +onlyGivenNames x
    refine kept_upd rfl ?_ rfl rfl rfl
    assumption

theorem modMp_kept (m : Nat) (f : SgMp → SgMp) (s : State) (h_s : Kept q0 s) : Kept q0 (modMp m f s) := by
  unfold modMp
  with_reducible
    apply setMp_kept
    assumption

theorem mpState_kept (m : Nat) (st : MpState) (cause : SgCause) (s : State) (h_s : Kept q0 s) : Kept q0 (mpState m st cause s) := by
  unfold mpState
  with_reducible
    refine kept_ite ?_ ?_
    assumption
    apply raise_kept
    apply setMp_kept
    assumption

theorem beginSupp_kept (m start : Nat) (cause : SgCause) (boot : Bool) (s : State) (h_s : Kept q0 s) : Kept q0 (beginSupp m start cause boot s) := by
  unfold beginSupp
  with_reducible
    refine kept_ite ?_ ?_
    assumption
    apply setMp_kept
    assumption

theorem endSupp_kept (m last : Nat) (s : State) (h_s : Kept q0 s) : Kept q0 (endSupp m last s) := by
  unfold endSupp
  with_reducible
    apply raise_kept
    apply bump_kept
    apply setMp_kept
    assumption

theorem unsettle_kept (n untilTs : Nat) (cause : SgCause) (s : State) (h_s : Kept q0 s) : Kept q0 (unsettle n untilTs cause s) := by
  unfold unsettle
  with_reducible
    apply modInput_kept
    assumption

theorem settleFrom_kept (m start : Nat) (cause : SgCause) (s : State) (h_s : Kept q0 s) : Kept q0 (settleFrom m start cause s) := by
  unfold settleFrom
  with_reducible
    refine kept_ite ?_ ?_
    apply mpState_kept
    apply beginSupp_kept
    assumption
    assumption

theorem toAcquire_kept (n : Nat) (s : State) (h_s : Kept q0 s) : Kept q0 (toAcquire n s) := by
  unfold toAcquire
  with_reducible
    apply raiseIf_kept
    apply setInput_kept
    assumption

theorem restartInput_kept (v : SgMp) (cause : SgCause) (n : Nat) (s : State) (h_s : Kept q0 s) : Kept q0 (restartInput v cause n s) := by
  unfold restartInput
  with_reducible
    apply unsettle_kept
    apply modInput_kept
    apply toAcquire_kept
    assumption

theorem chainRestart_kept (m : Nat) (cause : SgCause) (s : State) (h_s : Kept q0 s) : Kept q0 (chainRestart m cause s) := by
  unfold chainRestart
  with_reducible
    apply bump_kept
    apply bump_kept
    extract_lets +onlyGivenNames x
    refine kept_foldl (fun t x ht => ?_) ?_
    apply restartInput_kept
    assumption
    apply modMp_kept
    apply mpState_kept
    apply beginSupp_kept
    assumption

theorem chainOff_kept (m : Nat) (s : State) (h_s : Kept q0 s) : Kept q0 (chainOff m s) := by
  unfold chainOff
  with_reducible
    apply modMp_kept
    apply mpState_kept
    refine kept_ite ?_ ?_
    apply endSupp_kept
    assumption
    assumption

theorem sageStep_kept (delta : Int) (s : State) (h_s : Kept q0 s) : Kept q0 (sageStep delta s) := by
  unfold sageStep
  with_reducible
    refine kept_foldl (fun t x ht => ?_) ?_
    refine kept_ite ?_ ?_
    assumption
    apply settleFrom_kept
    extract_lets +onlyGivenNames x
    refine kept_foldl (fun t x ht => ?_) ?_
    apply unsettle_kept
    assumption
    apply modMp_kept
    assumption
    assumption

theorem enterDir_kept (h : Nat) (v : Stream) (s : State) (h_s : Kept q0 s) : ∀ t, (enterDir h v s) = some t → Kept q0 t := by
  intro t h
  unfold enterDir at h
  rw [Option.map_eq_some_iff] at h
  obtain ⟨x, _, rfl⟩ := h
  exact bumpIf_kept _ _ _ (kept_imp h_s rfl rfl rfl rfl)

theorem beginRebuild_kept (s : State) (h_s : Kept q0 s) : Kept q0 (beginRebuild s) := by
  unfold beginRebuild
  with_reducible
    refine kept_ite ?_ ?_
    assumption
    extract_lets +onlyGivenNames x
    refine kept_upd rfl ?_ rfl rfl rfl
    assumption

theorem execStreamAdd_kept (h : Hdr) (p : StreamAddP) (s : State) (h_s : Kept q0 s) : KeptOut q0 (execStreamAdd h p s) := by
  unfold execStreamAdd
  with_reducible
    extract_lets +onlyGivenNames x
    refine keptOut_next ?_
    apply vci_kept
    extract_lets +onlyGivenNames x
    intro _
    intro _
    split
    extract_lets +onlyGivenNames x
    split
    apply refuse_kept
    apply beginRebuild_kept
    assumption
    apply doneWith_kept
    extract_lets +onlyGivenNames x
    split
    split
    refine kept_upd rfl ?_ rfl rfl rfl
    apply sendStart_kept
    apply oscResetStream_kept
    apply placeNew_kept
    apply syncGrid_kept
    refine enterDir_kept _ _ _  ?_  _ ‹_›
    assumption
    refine kept_upd rfl ?_ rfl rfl rfl
    apply sendStart_kept
    apply oscResetStream_kept
    apply placeNew_kept
    apply syncGrid_kept
    refine enterDir_kept _ _ _  ?_  _ ‹_›
    assumption
    split
    refine kept_upd rfl ?_ rfl rfl rfl
    apply oscResetStream_kept
    apply placeNew_kept
    apply syncGrid_kept
    refine enterDir_kept _ _ _  ?_  _ ‹_›
    assumption
    refine kept_upd rfl ?_ rfl rfl rfl
    apply oscResetStream_kept
    apply placeNew_kept
    apply syncGrid_kept
    refine enterDir_kept _ _ _  ?_  _ ‹_›
    assumption
    apply refuse_kept
    assumption
    assumption

theorem execStreamChange_kept (h : Hdr) (p : StreamChangeP) (s : State) (h_s : Kept q0 s) : KeptOut q0 (execStreamChange h p s) := by
  unfold execStreamChange
  with_reducible
    extract_lets +onlyGivenNames x
    extract_lets +onlyGivenNames x
    refine keptOut_next ?_
    apply vci_kept
    extract_lets +onlyGivenNames x
    intro _
    intro _
    split
    apply refuse_kept
    assumption
    refine kept_iter ?_ ?_
    apply refuse_kept
    assumption
    refine kept_iter ?_ ?_
    apply refuse_kept
    assumption
    refine kept_iter ?_ ?_
    apply refuse_kept
    assumption
    apply done_kept
    apply poolCheck_kept
    apply syncGrid_kept
    refine kept_ite ?_ ?_
    extract_lets +onlyGivenNames x
    split
    apply oscLostStream_kept
    apply unexpect_kept
    apply setStream_kept
    assumption
    apply oscLostStream_kept
    apply setStream_kept
    assumption
    apply setStream_kept
    assumption
    assumption

theorem beginRetire_kept (n : Nat) (id : Option Nat) (s : State) (h_s : Kept q0 s) : Kept q0 (beginRetire n id s) := by
  unfold beginRetire
  with_reducible
    extract_lets +onlyGivenNames x
    split
    assumption
    apply syncGrid_kept
    apply setStream_kept
    apply oscLostStream_kept
    assumption

theorem execStreamRetire_kept (h : Hdr) (p : StreamRetireP) (s : State) (h_s : Kept q0 s) : KeptOut q0 (execStreamRetire h p s) := by
  unfold execStreamRetire
  with_reducible
    extract_lets +onlyGivenNames x
    refine keptOut_next ?_
    apply vci_kept
    extract_lets +onlyGivenNames x
    intro _
    intro _
    dsimp -zeta only
    split
    apply refuse_kept
    assumption
    refine kept_iter ?_ ?_
    apply refuse_kept
    assumption
    apply beginRetire_kept
    apply startLong_kept
    assumption
    assumption

theorem freeStream_kept (n : Nat) (s : State) (h_s : Kept q0 s) : Kept q0 (freeStream n s) := by
  unfold freeStream
  with_reducible
    extract_lets +onlyGivenNames x
    extract_lets +onlyGivenNames x; refine kept_cut x ?_ ?_ <;> [(subst x); (clear_value x; intro _)]
    refine kept_foldl (fun t x ht => ?_) ?_
    apply unplace_kept
    assumption
    apply unplace_kept
    assumption
    extract_lets +onlyGivenNames x
    extract_lets +onlyGivenNames x
    extract_lets +onlyGivenNames x; refine kept_cut x ?_ ?_ <;> [(subst x); (clear_value x; intro _)]
    apply leaveGrid_kept
    extract_lets +onlyGivenNames x
    refine kept_upd rfl ?_ rfl rfl rfl
    assumption
    split
    assumption
    apply completeOpt_kept
    apply raise_kept
    assumption

theorem execStreamRetired_kept (handle : U32) (s : State) (h_s : Kept q0 s) : KeptOut q0 (execStreamRetired handle s) := by
  unfold execStreamRetired
  with_reducible
    extract_lets +onlyGivenNames x
    refine keptOut_next ?_
    extract_lets +onlyGivenNames x
    split
    refine kept_ite ?_ ?_
    apply freeStream_kept
    assumption
    assumption
    assumption

theorem execStreamCfgAccept_kept (h : Hdr) (p : StreamCfgAcceptP) (s : State) (h_s : Kept q0 s) : KeptOut q0 (execStreamCfgAccept h p s) := by
  unfold execStreamCfgAccept
  with_reducible
    extract_lets +onlyGivenNames x
    refine keptOut_next ?_
    apply vci_kept
    extract_lets +onlyGivenNames x
    intro _
    intro _
    split
    apply refuse_kept
    assumption
    refine kept_iter ?_ ?_
    apply refuse_kept
    assumption
    apply done_kept
    apply applyCfg_kept
    assumption
    assumption

theorem execStreamRequest_kept (h : Hdr) (p : StreamRequestP) (s : State) (h_s : Kept q0 s) : KeptOut q0 (execStreamRequest h p s) := by
  unfold execStreamRequest
  with_reducible
    extract_lets +onlyGivenNames x
    refine keptOut_next ?_
    apply vci_kept
    extract_lets +onlyGivenNames x
    intro _
    intro _
    apply done_kept
    apply sendCommand_kept
    assumption
    assumption

theorem checkSilent_kept (n : Nat) (s : State) (h_s : Kept q0 s) : Kept q0 (checkSilent n s) := by
  unfold checkSilent
  with_reducible
    split
    assumption
    refine kept_ite ?_ ?_
    extract_lets +onlyGivenNames x; refine kept_cut x ?_ ?_ <;> [(subst x); (clear_value x; intro _)]
    apply raise_kept
    apply setStream_kept
    assumption
    split
    apply unexpect_kept
    assumption
    assumption
    assumption

theorem execIngestConfig_kept (h : Hdr) (p : IngestConfigP) (s : State) (h_s : Kept q0 s) : KeptOut q0 (execIngestConfig h p s) := by
  unfold execIngestConfig
  with_reducible
    extract_lets +onlyGivenNames x
    refine keptOut_next ?_
    apply vci_kept
    extract_lets +onlyGivenNames x
    intro _
    extract_lets +onlyGivenNames x
    extract_lets +onlyGivenNames x
    intro _
    apply done_kept
    extract_lets +onlyGivenNames x; refine kept_cut x ?_ ?_ <;> [(subst x); (clear_value x; intro _)]
    refine kept_upd rfl ?_ rfl rfl rfl
    assumption
    refine kept_foldl (fun t x ht => ?_) ?_
    apply checkSilent_kept
    assumption
    assumption
    assumption

theorem execStreamSilent_kept (handle : U32) (s : State) (h_s : Kept q0 s) : KeptOut q0 (execStreamSilent handle s) := by
  unfold execStreamSilent
  with_reducible
    refine keptOut_next ?_
    apply checkSilent_kept
    assumption

theorem parseReport_kept (n at_ : Nat) (f : C37Data) (c : C37Cfg) (snap : Option Nat) (s : State) (h_s : Kept q0 s) : Kept q0 (parseReport n at_ f c snap s) := by
  unfold parseReport
  with_reducible
    split
    apply modStream_kept
    assumption
    refine kept_ite ?_ ?_
    apply bump_kept
    assumption
    apply acceptReport_kept
    apply bumpBy_kept
    assumption
    assumption

theorem parseData_kept (n at_ : Nat) (f : C37Data) (c : C37Cfg) (newCfg : Bool) (s : State) (h_s : Kept q0 s) : Kept q0 (parseData n at_ f c newCfg s) := by
  unfold parseData
  with_reducible
    apply parseReport_kept
    refine kept_ite ?_ ?_
    apply applyCfg_kept
    assumption
    assumption

theorem execC37DataFrame_kept (f : C37Data) (s : State) (h_s : Kept q0 s) : KeptOut q0 (execC37DataFrame f s) := by
  unfold execC37DataFrame
  with_reducible
    refine keptOut_next ?_
    refine kept_ite ?_ ?_
    assumption
    extract_lets +onlyGivenNames x
    split
    refine kept_eq2 ‹_› ?_
    apply c37Stage_kept
    assumption
    split
    refine kept_eq2 ‹_› ?_
    apply c37Stage_kept
    assumption
    split
    apply setStream_kept
    extract_lets +onlyGivenNames x
    refine kept_eq2 ‹_› ?_
    apply c37Stage_kept
    assumption
    apply setStream_kept
    extract_lets +onlyGivenNames x
    refine kept_eq2 ‹_› ?_
    apply c37Stage_kept
    assumption
    apply setStream_kept
    extract_lets +onlyGivenNames x
    refine kept_eq2 ‹_› ?_
    apply c37Stage_kept
    assumption
    split
    apply countMal_kept
    extract_lets +onlyGivenNames x
    refine kept_eq2 ‹_› ?_
    apply c37Stage_kept
    assumption
    apply parseData_kept
    extract_lets +onlyGivenNames x
    refine kept_eq2 ‹_› ?_
    apply c37Stage_kept
    assumption

theorem takeCfg_kept (n : Nat) (c : C37Cfg) (s : State) (h_s : Kept q0 s) : Kept q0 (takeCfg n c s) := by
  unfold takeCfg
  with_reducible
    split
    assumption
    refine kept_ite ?_ ?_
    apply setStream_kept
    assumption
    extract_lets +onlyGivenNames x
    dsimp -zeta only
    split
    apply raise_kept
    apply setStream_kept
    assumption
    refine kept_ite ?_ ?_
    apply applyCfg_kept
    apply setStream_kept
    assumption
    refine kept_ite ?_ ?_
    apply setStream_kept
    assumption
    apply raise_kept
    apply setStream_kept
    apply setStream_kept
    assumption

theorem joinCfg_kept (n idx bytes : Nat) (c : C37Cfg) (s : State) (h_s : Kept q0 s) : Kept q0 (joinCfg n idx bytes c s) := by
  unfold joinCfg
  with_reducible
    extract_lets +onlyGivenNames x; refine kept_cutf x ?_ ?_ <;> [(subst x); (clear_value x; intro _)]
    apply modStream_kept
    split
    assumption
    refine kept_ite ?_ ?_
    apply takeCfg_kept
    extract_lets +onlyGivenNames x
    apply_assumption
    assumption
    refine kept_ite ?_ ?_
    apply countMal_kept
    extract_lets +onlyGivenNames x
    apply_assumption
    assumption
    refine kept_ite ?_ ?_
    apply takeCfg_kept
    extract_lets +onlyGivenNames x
    apply_assumption
    assumption
    apply setStream_kept
    assumption

theorem execC37CfgFrame_kept (f : C37CfgFrame) (s : State) (h_s : Kept q0 s) : KeptOut q0 (execC37CfgFrame f s) := by
  unfold execC37CfgFrame
  with_reducible
    extract_lets +onlyGivenNames x
    refine keptOut_next ?_
    refine kept_ite ?_ ?_
    assumption
    extract_lets +onlyGivenNames x
    split
    refine kept_eq2 ‹_› ?_
    apply c37Stage_kept
    assumption
    split
    apply modStream_kept
    extract_lets +onlyGivenNames x
    refine kept_eq2 ‹_› ?_
    apply c37Stage_kept
    assumption
    apply takeCfg_kept
    extract_lets +onlyGivenNames x
    refine kept_eq2 ‹_› ?_
    apply c37Stage_kept
    assumption
    apply joinCfg_kept
    extract_lets +onlyGivenNames x
    refine kept_eq2 ‹_› ?_
    apply c37Stage_kept
    assumption

theorem execC37HeaderFrame_kept (f : C37Header) (s : State) (h_s : Kept q0 s) : KeptOut q0 (execC37HeaderFrame f s) := by
  unfold execC37HeaderFrame
  with_reducible
    refine keptOut_next ?_
    refine kept_ite ?_ ?_
    assumption
    extract_lets +onlyGivenNames x
    split
    refine kept_eq2 ‹_› ?_
    apply c37Stage_kept
    assumption
    split
    refine kept_eq2 ‹_› ?_
    apply c37Stage_kept
    assumption
    apply raiseIf_kept
    apply setStream_kept
    extract_lets +onlyGivenNames x
    refine kept_eq2 ‹_› ?_
    apply c37Stage_kept
    assumption

theorem pubCommand_kept (n : Nat) (p : Pub) (cmd : Nat) (s : State) (h_s : Kept q0 s) : Kept q0 (pubCommand n p cmd s) := by
  unfold pubCommand
  with_reducible
    extract_lets +onlyGivenNames x
    extract_lets +onlyGivenNames x
    split
    refine kept_ite ?_ ?_
    apply bump_kept
    assumption
    refine kept_ite ?_ ?_
    apply pubState_kept
    assumption
    assumption
    refine kept_ite ?_ ?_
    apply pubState_kept
    assumption
    assumption
    apply sendOwn_kept
    assumption
    apply sendOwn_kept
    assumption
    apply sendOwn_kept
    assumption
    apply bump_kept
    assumption

theorem execC37CommandFrame_kept (f : C37Command) (s0 : State) (h_s0 : Kept q0 s0) : KeptOut q0 (execC37CommandFrame f s0) := by
  unfold execC37CommandFrame
  with_reducible
    extract_lets +onlyGivenNames x
    extract_lets +onlyGivenNames x
    extract_lets +onlyGivenNames x
    extract_lets +onlyGivenNames x
    extract_lets +onlyGivenNames x
    extract_lets +onlyGivenNames x
    refine keptOut_next ?_
    refine kept_ite ?_ ?_
    assumption
    extract_lets +onlyGivenNames x; refine kept_cutf x ?_ ?_ <;> [(subst x); (clear_value x; intro _)]
    intro _
    intro _
    dsimp -zeta only
    split
    apply pubCommand_kept
    assumption
    apply bump_kept
    assumption
    dsimp -zeta only
    split
    refine kept_ite ?_ ?_
    apply setStream_kept
    apply readEntry_kept
    apply popC37_kept
    assumption
    refine kept_ite ?_ ?_
    apply bump_kept
    apply readEntry_kept
    apply popC37_kept
    assumption
    refine kept_ite ?_ ?_
    apply streamPrp_kept
    apply readEntry_kept
    apply popC37_kept
    assumption
    refine kept_ite ?_ ?_
    extract_lets +onlyGivenNames x
    apply_assumption
    apply c37Sound_kept
    apply streamPrp_kept
    apply readEntry_kept
    apply popC37_kept
    assumption
    apply c37Sound_kept
    apply streamPrp_kept
    apply readEntry_kept
    apply popC37_kept
    assumption
    refine kept_ite ?_ ?_
    apply readEntry_kept
    apply popC37_kept
    assumption
    refine kept_ite ?_ ?_
    apply bump_kept
    apply readEntry_kept
    apply popC37_kept
    assumption
    refine kept_ite ?_ ?_
    extract_lets +onlyGivenNames x
    split
    refine kept_ite2 ?_ ?_
    apply unknownSource_kept
    apply readEntry_kept
    apply popC37_kept
    assumption
    apply readEntry_kept
    apply popC37_kept
    assumption
    apply readEntry_kept
    apply popC37_kept
    assumption
    refine kept_ite ?_ ?_
    extract_lets +onlyGivenNames x
    split
    refine kept_ite2 ?_ ?_
    apply unknownSource_kept
    apply readEntry_kept
    apply popC37_kept
    assumption
    apply readEntry_kept
    apply popC37_kept
    assumption
    apply readEntry_kept
    apply popC37_kept
    assumption
    extract_lets +onlyGivenNames x
    split
    split
    apply_assumption
    apply unknownSource_kept
    apply readEntry_kept
    apply popC37_kept
    assumption
    dsimp -zeta only
    apply_assumption
    apply readEntry_kept
    apply popC37_kept
    assumption
    dsimp -zeta only
    apply_assumption
    apply readEntry_kept
    apply popC37_kept
    assumption

theorem execTcpLinkDown_kept (handle : U32) (s : State) (h_s : Kept q0 s) : KeptOut q0 (execTcpLinkDown handle s) := by
  unfold execTcpLinkDown
  with_reducible
    extract_lets +onlyGivenNames x
    refine keptOut_next ?_
    extract_lets +onlyGivenNames x
    split
    refine kept_ite ?_ ?_
    apply raise_kept
    apply setStream_kept
    assumption
    assumption
    assumption

theorem execTcpReconnect_kept (handle : U32) (s : State) (h_s : Kept q0 s) : KeptOut q0 (execTcpReconnect handle s) := by
  unfold execTcpReconnect
  with_reducible
    refine keptOut_next ?_
    apply modStream_kept
    assumption

theorem execTcpConnected_kept (handle : U32) (s : State) (h_s : Kept q0 s) : KeptOut q0 (execTcpConnected handle s) := by
  unfold execTcpConnected
  with_reducible
    extract_lets +onlyGivenNames x
    refine keptOut_next ?_
    extract_lets +onlyGivenNames x
    split
    refine kept_ite ?_ ?_
    apply sendStart_kept
    apply raise_kept
    apply setStream_kept
    assumption
    assumption
    assumption

theorem execDirectoryRebuilt_kept (s : State) (h_s : Kept q0 s) : KeptOut q0 (execDirectoryRebuilt s) := by
  unfold execDirectoryRebuilt
  with_reducible
    extract_lets +onlyGivenNames x
    extract_lets +onlyGivenNames x
    refine keptOut_next ?_
    refine kept_ite ?_ ?_
    assumption
    extract_lets +onlyGivenNames x
    split
    refine kept_upd rfl ?_ rfl rfl rfl
    assumption
    apply raise_kept
    apply bump_kept
    extract_lets +onlyGivenNames x
    refine kept_upd rfl ?_ rfl rfl rfl
    assumption

theorem execDirectoryEntryRewrite_kept (handle : U32) (s : State) (h_s : Kept q0 s) : KeptOut q0 (execDirectoryEntryRewrite handle s) := by
  unfold execDirectoryEntryRewrite
  with_reducible
    refine keptOut_next ?_
    apply modStream_kept
    assumption

theorem setCf_kept (c : CfBlk) (s : State) (h_s : Kept q0 s) : Kept q0 (setCf c s) := by
  unfold setCf
  with_reducible
    refine kept_upd rfl ?_ rfl rfl rfl
    assumption

theorem modCf_kept (f : CfBlk → CfBlk) (s : State) (h_s : Kept q0 s) : Kept q0 (modCf f s) := by
  unfold modCf
  with_reducible
    refine kept_upd rfl ?_ rfl rfl rfl
    assumption

theorem modNode_kept (k : Nat) (f : Node → Node) (s : State) (h_s : Kept q0 s) : Kept q0 (modNode k f s) := by
  unfold modNode
  with_reducible
    apply modCf_kept
    assumption

theorem mapSwitch_kept (n : Nat) (s : State) (h_s : Kept q0 s) : Kept q0 (mapSwitch n s) := by
  unfold mapSwitch
  with_reducible
    split
    refine kept_ite ?_ ?_
    apply raise_kept
    apply modCf_kept
    assumption
    assumption
    assumption

theorem runSeq_kept (idx : Nat) (frame : Bytes) (s : State) (h_s : Kept q0 s) : Kept q0 (runSeq idx frame s) := by
  unfold runSeq
  with_reducible
    split
    assumption
    split
    assumption
    apply modCf_kept
    assumption

theorem launchFrame_kept (frame : Bytes) (s : State) (h_s : Kept q0 s) : Kept q0 (launchFrame frame s) := by
  unfold launchFrame
  with_reducible
    apply runSeq_kept
    apply runSeq_kept
    apply modCf_kept
    assumption

theorem cfOff_kept (s : State) (h_s : Kept q0 s) : Kept q0 (cfOff s) := by
  unfold cfOff
  with_reducible
    apply modCf_kept
    assumption

theorem startUp_kept (s : State) (h_s : Kept q0 s) : Kept q0 (startUp s) := by
  unfold startUp
  with_reducible
    apply modCf_kept
    assumption

theorem enterStarting_kept (s : State) (h_s : Kept q0 s) : Kept q0 (enterStarting s) := by
  unfold enterStarting
  with_reducible
    apply startUp_kept
    apply modCf_kept
    assumption

theorem startFails_kept (s : State) (h_s : Kept q0 s) : Kept q0 (startFails s) := by
  unfold startFails
  with_reducible
    apply raiseIf_kept
    apply setCf_kept
    assumption

theorem beaconFailed_kept (cause : Nat) (s : State) (h_s : Kept q0 s) : Kept q0 (beaconFailed cause s) := by
  unfold beaconFailed
  with_reducible
    refine kept_ite ?_ ?_
    apply bump_kept
    apply modCf_kept
    assumption
    apply bump_kept
    apply enterStarting_kept
    apply raise_kept
    apply bump_kept
    apply modCf_kept
    assumption

theorem closeNode_kept (k : Nat) (s : State) (h_s : Kept q0 s) : Kept q0 (closeNode k s) := by
  unfold closeNode
  with_reducible
    apply modNode_kept
    assumption

theorem rekeyDue_kept (k : Nat) (s : State) (h_s : Kept q0 s) : Kept q0 (rekeyDue k s) := by
  unfold rekeyDue
  with_reducible
    split
    assumption
    refine kept_ite ?_ ?_
    apply raise_kept
    apply modNode_kept
    assumption
    assumption

theorem nodeEvent_kept (k : Nat) (v : Node) (s : State) (h_s : Kept q0 s) : Kept q0 (nodeEvent k v s) := by
  unfold nodeEvent
  with_reducible
    extract_lets +onlyGivenNames x
    extract_lets +onlyGivenNames x
    extract_lets +onlyGivenNames x
    split
    refine kept_ite ?_ ?_
    apply modNode_kept
    assumption
    apply rekeyDue_kept
    apply modNode_kept
    assumption
    refine kept_ite ?_ ?_
    apply raise_kept
    apply closeNode_kept
    apply modNode_kept
    assumption
    apply rekeyDue_kept
    apply modNode_kept
    assumption

theorem nodeEvents_kept (no : Nat) (s : State) (h_s : Kept q0 s) : Kept q0 (nodeEvents no s) := by
  unfold nodeEvents
  with_reducible
    refine kept_foldl (fun t x ht => ?_) ?_
    refine kept_ite ?_ ?_
    apply nodeEvent_kept
    assumption
    assumption
    assumption

theorem beaconKey_kept (n : Nat) (s : State) (h_s : Kept q0 s) : Kept q0 (beaconKey n s) := by
  unfold beaconKey
  with_reducible
    refine kept_ite ?_ ?_
    apply raise_kept
    apply modCf_kept
    extract_lets +onlyGivenNames x
    split
    refine kept_ite ?_ ?_
    apply setCf_kept
    assumption
    assumption
    assumption
    extract_lets +onlyGivenNames x
    split
    refine kept_ite ?_ ?_
    apply setCf_kept
    assumption
    assumption
    assumption

theorem outRecord_kept (k : Nat) (v : Node) (typ : Byte) (body : Bytes) (ts : Nat) (s : State) (h_s : Kept q0 s) : Kept q0 (outRecord k v typ body ts s) := by
  unfold outRecord
  with_reducible
    extract_lets +onlyGivenNames x
    split
    apply bump_kept
    assumption
    split
    refine ringWrite_kept _ _ _ _ _  ?_  _ ‹_›
    assumption
    apply bump_kept
    assumption

theorem nodeReading_kept (k sensor : Nat) (value : U32) (instant : Nat) (s : State) (h_s : Kept q0 s) : Kept q0 (nodeReading k sensor value instant s) := by
  unfold nodeReading
  with_reducible
    extract_lets +onlyGivenNames x
    extract_lets +onlyGivenNames x
    extract_lets +onlyGivenNames x; refine kept_cut x ?_ ?_ <;> [(subst x); (clear_value x; intro _)]
    refine kept_foldl (fun t x ht => ?_) ?_
    refine kept_ite ?_ ?_
    apply applyTemp_kept
    assumption
    assumption
    assumption
    extract_lets +onlyGivenNames x
    dsimp -zeta only
    split
    assumption
    extract_lets +onlyGivenNames x
    split
    assumption
    refine kept_ite ?_ ?_
    assumption
    refine kept_ite ?_ ?_
    assumption
    apply acceptAt_kept
    assumption

theorem takeRecords_kept (k : Nat) (v : Node) (ts : Nat) (a0 : Nat) (a1 : Bytes) (a2 : State) (h_a2 : Kept q0 a2) : Kept q0 (takeRecords k v ts a0 a1 a2) := by
  fun_induction takeRecords k v ts a0 a1 a2
  with_reducible
    assumption
    assumption
    apply bump_kept
    assumption
    apply bump_kept
    assumption
    rename_i ih; apply ih
    refine kept_ite ?_ ?_
    apply nodeReading_kept
    assumption
    refine kept_ite ?_ ?_
    apply outRecord_kept
    assumption
    apply bump_kept
    assumption

theorem dropDl_kept (k : Nat) (s : State) (h_s : Kept q0 s) : Kept q0 (dropDl k s) := by
  unfold dropDl
  with_reducible
    split
    assumption
    extract_lets +onlyGivenNames x
    extract_lets +onlyGivenNames x; refine kept_cut x ?_ ?_ <;> [(subst x); (clear_value x; intro _)]
    apply modNode_kept
    assumption
    refine kept_foldl (fun t x ht => ?_) ?_
    apply raise_kept
    apply bump_kept
    assumption
    assumption

theorem retireNodeStream_kept (k : Nat) (v : Node) (s : State) (h_s : Kept q0 s) : Kept q0 (retireNodeStream k v s) := by
  unfold retireNodeStream
  with_reducible
    split
    assumption
    apply beginRetire_kept
    apply modNode_kept
    assumption

theorem setEq_kept (m : Nat) (v : EqMp) (s : State) (h_s : Kept q0 s) : Kept q0 (setEq m v s) := by
  unfold setEq
  with_reducible
    extract_lets +onlyGivenNames x
    refine kept_upd rfl ?_ rfl rfl rfl
    assumption

theorem modEq_kept (m : Nat) (f : EqMp → EqMp) (s : State) (h_s : Kept q0 s) : Kept q0 (modEq m f s) := by
  unfold modEq
  with_reducible
    apply setEq_kept
    assumption

theorem setBReg_kept (b : Nat) (v : BReg) (s : State) (h_s : Kept q0 s) : Kept q0 (setBReg b v s) := by
  unfold setBReg
  with_reducible
    extract_lets +onlyGivenNames x
    refine kept_upd rfl ?_ rfl rfl rfl
    assumption

theorem setPulse_kept (k : Nat) (v : Pulse) (s : State) (h_s : Kept q0 s) : Kept q0 (setPulse k v s) := by
  unfold setPulse
  with_reducible
    extract_lets +onlyGivenNames x
    refine kept_upd rfl ?_ rfl rfl rfl
    assumption

theorem setGap_kept (m : Nat) (s : State) (h_s : Kept q0 s) : Kept q0 (setGap m s) := by
  unfold setGap
  with_reducible
    extract_lets +onlyGivenNames x; refine kept_cut x ?_ ?_ <;> [(subst x); (clear_value x; intro _)]
    apply modEq_kept
    assumption
    extract_lets +onlyGivenNames x
    refine kept_upd rfl ?_ rfl rfl rfl
    assumption

theorem outageEvent_kept (gs : List GapEntry) (s : State) (h_s : Kept q0 s) : Kept q0 (outageEvent gs s) := by
  unfold outageEvent
  with_reducible
    split
    assumption
    apply raise_kept
    extract_lets +onlyGivenNames x
    refine kept_foldl (fun t x ht => ?_) ?_
    apply bump_kept
    assumption
    assumption

theorem gapEvent_kept (g : GapEntry) (s : State) (h_s : Kept q0 s) : Kept q0 (gapEvent g s) := by
  unfold gapEvent
  with_reducible
    refine kept_ite ?_ ?_
    apply outageEvent_kept
    assumption
    apply raise_kept
    apply bump_kept
    assumption

theorem enterGap_kept (m : Nat) (kind : GapKind) (cause start end_ bound : Nat) (sRef : Scale) (unknown isOpen : Bool) (s0 : State) (h_s0 : Kept q0 s0) : Kept q0 (enterGap m kind cause start end_ bound sRef unknown isOpen s0).1 := by
  unfold enterGap
  with_reducible
    extract_lets +onlyGivenNames x; refine kept_cut x ?_ ?_ <;> [(subst x); (clear_value x; intro _)]
    refine kept_ite ?_ ?_
    assumption
    apply setGap_kept
    assumption
    extract_lets +onlyGivenNames x
    extract_lets +onlyGivenNames x
    extract_lets +onlyGivenNames x
    extract_lets +onlyGivenNames x; refine kept_cut x ?_ ?_ <;> [(subst x); (clear_value x; intro _)]
    apply bump_kept
    assumption
    extract_lets +onlyGivenNames x
    split
    refine kept_upd rfl ?_ rfl rfl rfl
    assumption
    split
    refine kept_upd rfl ?_ rfl rfl rfl
    assumption
    split
    assumption
    extract_lets +onlyGivenNames x
    extract_lets +onlyGivenNames x
    dsimp -zeta only
    refine kept_upd rfl ?_ rfl rfl rfl
    assumption

theorem recordGap_kept (m : Nat) (kind : GapKind) (cause start end_ bound : Nat) (sRef : Scale) (unknown isOpen : Bool) (s : State) (h_s : Kept q0 s) : Kept q0 (recordGap m kind cause start end_ bound sRef unknown isOpen s) := by
  have h := enterGap_kept m kind cause start end_ bound sRef unknown isOpen s h_s
  unfold recordGap
  split
  · next t g heq =>
    rw [heq] at h
    exact kept_ite h (gapEvent_kept _ _ h)
  · next t heq =>
    rw [heq] at h
    exact h

theorem closeGaps_kept (m : Nat) (f : GapEntry → Bool) (end_ : Nat) (unknown : Bool) (s : State) (h_s : Kept q0 s) : Kept q0 (closeGaps m f end_ unknown s) := by
  unfold closeGaps
  with_reducible
    refine kept_foldl (fun t x ht => ?_) ?_
    refine kept_ite ?_ ?_
    apply gapEvent_kept
    extract_lets +onlyGivenNames x
    extract_lets +onlyGivenNames x
    split
    refine kept_upd rfl ?_ rfl rfl rfl
    assumption
    refine kept_upd rfl ?_ rfl rfl rfl
    assumption
    assumption
    assumption

theorem rollover_kept (b ts : Nat) (a0 : Nat) (a1 : State) (h_a1 : Kept q0 a1) : Kept q0 (rollover b ts a0 a1) := by
  fun_induction rollover b ts a0 a1
  with_reducible
    assumption
    rename_i ih; apply ih
    apply raise_kept
    refine kept_ite ?_ ?_
    extract_lets +onlyGivenNames x
    refine kept_upd rfl ?_ rfl rfl rfl
    apply setBReg_kept
    assumption
    apply setBReg_kept
    assumption

theorem regAdd_kept (b e ts : Nat) (s : State) (h_s : Kept q0 s) : Kept q0 (regAdd b e ts s) := by
  unfold regAdd
  with_reducible
    apply rollover_kept
    apply setBReg_kept
    assumption

theorem pulseAdd_kept (k e t0 t1 : Nat) (s : State) (h_s : Kept q0 s) : Kept q0 (pulseAdd k e t0 t1 s) := by
  unfold pulseAdd
  with_reducible
    refine kept_ite ?_ ?_
    apply setPulse_kept
    assumption
    apply raiseIf_kept
    refine kept_ite ?_ ?_
    extract_lets +onlyGivenNames x
    dsimp -zeta only
    split
    split
    split
    split
    split
    split
    refine kept_upd rfl ?_ rfl rfl rfl
    apply bumpBy_kept
    apply setPulse_kept
    assumption
    refine kept_upd rfl ?_ rfl rfl rfl
    apply bumpBy_kept
    apply setPulse_kept
    assumption
    split
    refine kept_upd rfl ?_ rfl rfl rfl
    apply bumpBy_kept
    apply setPulse_kept
    assumption
    refine kept_upd rfl ?_ rfl rfl rfl
    apply bumpBy_kept
    apply setPulse_kept
    assumption
    split
    split
    refine kept_upd rfl ?_ rfl rfl rfl
    apply bumpBy_kept
    apply setPulse_kept
    assumption
    refine kept_upd rfl ?_ rfl rfl rfl
    apply bumpBy_kept
    apply setPulse_kept
    assumption
    split
    refine kept_upd rfl ?_ rfl rfl rfl
    apply bumpBy_kept
    apply setPulse_kept
    assumption
    refine kept_upd rfl ?_ rfl rfl rfl
    apply bumpBy_kept
    apply setPulse_kept
    assumption
    split
    split
    split
    refine kept_upd rfl ?_ rfl rfl rfl
    apply bumpBy_kept
    apply setPulse_kept
    assumption
    refine kept_upd rfl ?_ rfl rfl rfl
    apply bumpBy_kept
    apply setPulse_kept
    assumption
    split
    refine kept_upd rfl ?_ rfl rfl rfl
    apply bumpBy_kept
    apply setPulse_kept
    assumption
    refine kept_upd rfl ?_ rfl rfl rfl
    apply bumpBy_kept
    apply setPulse_kept
    assumption
    split
    split
    refine kept_upd rfl ?_ rfl rfl rfl
    apply bumpBy_kept
    apply setPulse_kept
    assumption
    refine kept_upd rfl ?_ rfl rfl rfl
    apply bumpBy_kept
    apply setPulse_kept
    assumption
    split
    refine kept_upd rfl ?_ rfl rfl rfl
    apply bumpBy_kept
    apply setPulse_kept
    assumption
    refine kept_upd rfl ?_ rfl rfl rfl
    apply bumpBy_kept
    apply setPulse_kept
    assumption
    split
    split
    split
    split
    refine kept_upd rfl ?_ rfl rfl rfl
    apply bumpBy_kept
    apply setPulse_kept
    assumption
    refine kept_upd rfl ?_ rfl rfl rfl
    apply bumpBy_kept
    apply setPulse_kept
    assumption
    split
    refine kept_upd rfl ?_ rfl rfl rfl
    apply bumpBy_kept
    apply setPulse_kept
    assumption
    refine kept_upd rfl ?_ rfl rfl rfl
    apply bumpBy_kept
    apply setPulse_kept
    assumption
    split
    split
    refine kept_upd rfl ?_ rfl rfl rfl
    apply bumpBy_kept
    apply setPulse_kept
    assumption
    refine kept_upd rfl ?_ rfl rfl rfl
    apply bumpBy_kept
    apply setPulse_kept
    assumption
    split
    refine kept_upd rfl ?_ rfl rfl rfl
    apply bumpBy_kept
    apply setPulse_kept
    assumption
    refine kept_upd rfl ?_ rfl rfl rfl
    apply bumpBy_kept
    apply setPulse_kept
    assumption
    split
    split
    split
    refine kept_upd rfl ?_ rfl rfl rfl
    apply bumpBy_kept
    apply setPulse_kept
    assumption
    refine kept_upd rfl ?_ rfl rfl rfl
    apply bumpBy_kept
    apply setPulse_kept
    assumption
    split
    refine kept_upd rfl ?_ rfl rfl rfl
    apply bumpBy_kept
    apply setPulse_kept
    assumption
    refine kept_upd rfl ?_ rfl rfl rfl
    apply bumpBy_kept
    apply setPulse_kept
    assumption
    split
    split
    refine kept_upd rfl ?_ rfl rfl rfl
    apply bumpBy_kept
    apply setPulse_kept
    assumption
    refine kept_upd rfl ?_ rfl rfl rfl
    apply bumpBy_kept
    apply setPulse_kept
    assumption
    split
    refine kept_upd rfl ?_ rfl rfl rfl
    apply bumpBy_kept
    apply setPulse_kept
    assumption
    refine kept_upd rfl ?_ rfl rfl rfl
    apply bumpBy_kept
    apply setPulse_kept
    assumption
    split
    split
    split
    split
    split
    refine kept_upd rfl ?_ rfl rfl rfl
    apply bumpBy_kept
    apply setPulse_kept
    assumption
    refine kept_upd rfl ?_ rfl rfl rfl
    apply bumpBy_kept
    apply setPulse_kept
    assumption
    split
    refine kept_upd rfl ?_ rfl rfl rfl
    apply bumpBy_kept
    apply setPulse_kept
    assumption
    refine kept_upd rfl ?_ rfl rfl rfl
    apply bumpBy_kept
    apply setPulse_kept
    assumption
    split
    split
    refine kept_upd rfl ?_ rfl rfl rfl
    apply bumpBy_kept
    apply setPulse_kept
    assumption
    refine kept_upd rfl ?_ rfl rfl rfl
    apply bumpBy_kept
    apply setPulse_kept
    assumption
    split
    refine kept_upd rfl ?_ rfl rfl rfl
    apply bumpBy_kept
    apply setPulse_kept
    assumption
    refine kept_upd rfl ?_ rfl rfl rfl
    apply bumpBy_kept
    apply setPulse_kept
    assumption
    split
    split
    split
    refine kept_upd rfl ?_ rfl rfl rfl
    apply bumpBy_kept
    apply setPulse_kept
    assumption
    refine kept_upd rfl ?_ rfl rfl rfl
    apply bumpBy_kept
    apply setPulse_kept
    assumption
    split
    refine kept_upd rfl ?_ rfl rfl rfl
    apply bumpBy_kept
    apply setPulse_kept
    assumption
    refine kept_upd rfl ?_ rfl rfl rfl
    apply bumpBy_kept
    apply setPulse_kept
    assumption
    split
    split
    refine kept_upd rfl ?_ rfl rfl rfl
    apply bumpBy_kept
    apply setPulse_kept
    assumption
    refine kept_upd rfl ?_ rfl rfl rfl
    apply bumpBy_kept
    apply setPulse_kept
    assumption
    split
    refine kept_upd rfl ?_ rfl rfl rfl
    apply bumpBy_kept
    apply setPulse_kept
    assumption
    refine kept_upd rfl ?_ rfl rfl rfl
    apply bumpBy_kept
    apply setPulse_kept
    assumption
    split
    split
    split
    split
    refine kept_upd rfl ?_ rfl rfl rfl
    apply bumpBy_kept
    apply setPulse_kept
    assumption
    refine kept_upd rfl ?_ rfl rfl rfl
    apply bumpBy_kept
    apply setPulse_kept
    assumption
    split
    refine kept_upd rfl ?_ rfl rfl rfl
    apply bumpBy_kept
    apply setPulse_kept
    assumption
    refine kept_upd rfl ?_ rfl rfl rfl
    apply bumpBy_kept
    apply setPulse_kept
    assumption
    split
    split
    refine kept_upd rfl ?_ rfl rfl rfl
    apply bumpBy_kept
    apply setPulse_kept
    assumption
    refine kept_upd rfl ?_ rfl rfl rfl
    apply bumpBy_kept
    apply setPulse_kept
    assumption
    split
    refine kept_upd rfl ?_ rfl rfl rfl
    apply bumpBy_kept
    apply setPulse_kept
    assumption
    refine kept_upd rfl ?_ rfl rfl rfl
    apply bumpBy_kept
    apply setPulse_kept
    assumption
    split
    split
    split
    refine kept_upd rfl ?_ rfl rfl rfl
    apply bumpBy_kept
    apply setPulse_kept
    assumption
    refine kept_upd rfl ?_ rfl rfl rfl
    apply bumpBy_kept
    apply setPulse_kept
    assumption
    split
    refine kept_upd rfl ?_ rfl rfl rfl
    apply bumpBy_kept
    apply setPulse_kept
    assumption
    refine kept_upd rfl ?_ rfl rfl rfl
    apply bumpBy_kept
    apply setPulse_kept
    assumption
    split
    split
    refine kept_upd rfl ?_ rfl rfl rfl
    apply bumpBy_kept
    apply setPulse_kept
    assumption
    refine kept_upd rfl ?_ rfl rfl rfl
    apply bumpBy_kept
    apply setPulse_kept
    assumption
    split
    refine kept_upd rfl ?_ rfl rfl rfl
    apply bumpBy_kept
    apply setPulse_kept
    assumption
    refine kept_upd rfl ?_ rfl rfl rfl
    apply bumpBy_kept
    apply setPulse_kept
    assumption
    apply bumpBy_kept
    apply setPulse_kept
    assumption

theorem distribute_kept (m t1 startEl endEl : Nat) (l : List (Nat × Nat)) (s : State) (h_s : Kept q0 s) : Kept q0 (distribute m t1 startEl endEl l s) := by
  unfold distribute
  with_reducible
    extract_lets +onlyGivenNames x
    extract_lets +onlyGivenNames x; refine kept_cut x ?_ ?_ <;> [(subst x); (clear_value x; intro _)]
    refine kept_foldl (fun t x ht => ?_) ?_
    refine kept_ite ?_ ?_
    apply regAdd_kept
    assumption
    assumption
    assumption
    refine kept_foldl (fun t x ht => ?_) ?_
    refine kept_ite ?_ ?_
    apply pulseAdd_kept
    assumption
    assumption
    assumption

theorem restoreImage_kept (g : EnergyImg) (s : State) (h_s : Kept q0 s) : Kept q0 (restoreImage g s) := by
  unfold restoreImage
  with_reducible
    extract_lets +onlyGivenNames x
    extract_lets +onlyGivenNames x
    extract_lets +onlyGivenNames x
    refine kept_upd rfl ?_ rfl rfl rfl
    assumption

theorem writeSave_kept (ts : Nat) (s : State) (h_s : Kept q0 s) : Kept q0 (writeSave ts s) := by
  unfold writeSave
  with_reducible
    apply eraseSectors_kept
    extract_lets +onlyGivenNames x
    extract_lets +onlyGivenNames x
    dsimp -zeta only
    split
    refine kept_upd rfl ?_ rfl rfl rfl
    assumption
    refine kept_upd rfl ?_ rfl rfl rfl
    assumption

theorem verifySave_kept (s : State) (h_s : Kept q0 s) : Kept q0 (verifySave s) := by
  unfold verifySave
  with_reducible
    extract_lets +onlyGivenNames x
    extract_lets +onlyGivenNames x
    split
    assumption
    apply bump_kept
    extract_lets +onlyGivenNames x
    split
    refine kept_upd rfl ?_ rfl rfl rfl
    assumption
    refine kept_upd rfl ?_ rfl rfl rfl
    assumption

theorem qMod_kept (m : Nat) (k : QKind) (f : QEntry → QEntry) (s : State) (h_s : Kept q0 s) : Kept q0 (qMod m k f s) := by
  unfold qMod
  with_reducible
    extract_lets +onlyGivenNames x
    split
    refine kept_upd rfl ?_ rfl rfl rfl
    assumption
    assumption

theorem qStart_kept (m : Nat) (k : QKind) (ts half ph : Nat) (x : Scale) (nom : Bool) (s : State) (h_s : Kept q0 s) : Kept q0 (qStart m k ts half ph x nom s) := by
  unfold qStart
  with_reducible
    apply raise_kept
    apply stageRaise_kept
    apply bump_kept
    refine kept_ite ?_ ?_
    apply qMod_kept
    apply modEq_kept
    extract_lets +onlyGivenNames x
    split
    refine kept_upd rfl ?_ rfl rfl rfl
    apply bumpIf_kept
    assumption
    split
    refine kept_upd rfl ?_ rfl rfl rfl
    apply bumpIf_kept
    assumption
    refine kept_upd rfl ?_ rfl rfl rfl
    apply bumpIf_kept
    assumption
    apply modEq_kept
    extract_lets +onlyGivenNames x
    split
    refine kept_upd rfl ?_ rfl rfl rfl
    apply bumpIf_kept
    assumption
    split
    refine kept_upd rfl ?_ rfl rfl rfl
    apply bumpIf_kept
    assumption
    refine kept_upd rfl ?_ rfl rfl rfl
    apply bumpIf_kept
    assumption

theorem qEnd_kept (m : Nat) (k : QKind) (ts half : Nat) (lost : Bool) (s : State) (h_s : Kept q0 s) : Kept q0 (qEnd m k ts half lost s) := by
  unfold qEnd
  with_reducible
    extract_lets +onlyGivenNames x
    split
    assumption
    apply raise_kept
    apply stageClear_kept
    apply modEq_kept
    extract_lets +onlyGivenNames x
    refine kept_upd rfl ?_ rfl rfl rfl
    assumption

theorem qJudge_kept (m ts half : Nat) (nom : Bool) (vals : List (Nat × Scale)) (s : State) (k : QKind) (h_s : Kept q0 s) : Kept q0 (qJudge m ts half nom vals s k) := by
  unfold qJudge
  with_reducible
    refine kept_ite ?_ ?_
    extract_lets +onlyGivenNames x; refine kept_cut x ?_ ?_ <;> [(subst x); (clear_value x; intro _)]
    apply qMod_kept
    assumption
    split
    split
    refine kept_ite ?_ ?_
    apply qEnd_kept
    assumption
    assumption
    assumption
    assumption
    refine kept_ite ?_ ?_
    refine kept_ite ?_ ?_
    apply qEnd_kept
    assumption
    apply qMod_kept
    assumption
    refine kept_ite ?_ ?_
    apply qStart_kept
    assumption
    assumption

theorem gaToNominal_kept (cause : Nat) (s : State) (h_s : Kept q0 s) : Kept q0 (gaToNominal cause s) := by
  unfold gaToNominal
  with_reducible
    apply raise_kept
    apply bumpIf_kept
    extract_lets +onlyGivenNames x
    refine kept_upd rfl ?_ rfl rfl rfl
    assumption

theorem gaFail_kept (s : State) (h_s : Kept q0 s) : Kept q0 (gaFail s) := by
  unfold gaFail
  with_reducible
    refine kept_ite ?_ ?_
    extract_lets +onlyGivenNames x
    refine kept_upd rfl ?_ rfl rfl rfl
    assumption
    apply gaToNominal_kept
    assumption

theorem gaObserve_kept (f : Nat) (ph : Int) (v2 u2 : Scale) (s0 : State) (h_s0 : Kept q0 s0) : Kept q0 (gaObserve f ph v2 u2 s0) := by
  unfold gaObserve
  with_reducible
    extract_lets +onlyGivenNames x
    extract_lets +onlyGivenNames x
    extract_lets +onlyGivenNames x
    extract_lets +onlyGivenNames x; refine kept_cut x ?_ ?_ <;> [(subst x); (clear_value x; intro _)]
    refine kept_upd rfl ?_ rfl rfl rfl
    assumption
    extract_lets +onlyGivenNames x
    dsimp -zeta only
    split
    refine kept_ite ?_ ?_
    extract_lets +onlyGivenNames x
    refine kept_upd rfl ?_ rfl rfl rfl
    assumption
    extract_lets +onlyGivenNames x
    refine kept_upd rfl ?_ rfl rfl rfl
    assumption
    refine kept_ite ?_ ?_
    apply gaToNominal_kept
    assumption
    refine kept_ite ?_ ?_
    apply gaToNominal_kept
    assumption
    refine kept_ite ?_ ?_
    apply gaToNominal_kept
    assumption
    refine kept_ite ?_ ?_
    apply raise_kept
    extract_lets +onlyGivenNames x
    dsimp -zeta only
    refine kept_upd rfl ?_ rfl rfl rfl
    assumption
    extract_lets +onlyGivenNames x
    refine kept_upd rfl ?_ rfl rfl rfl
    assumption

theorem gaSample_kept (m : Nat) (row : SgRow) (s : State) (h_s : Kept q0 s) : Kept q0 (gaSample m row s) := by
  unfold gaSample
  with_reducible
    refine kept_ite ?_ ?_
    assumption
    refine kept_ite ?_ ?_
    apply gaFail_kept
    assumption
    apply gaObserve_kept
    extract_lets +onlyGivenNames x
    refine kept_upd rfl ?_ rfl rfl rfl
    assumption

theorem execSageClockConfig_kept (h : Hdr) (p : SageClockConfigP) (s : State) (h_s : Kept q0 s) : KeptOut q0 (execSageClockConfig h p s) := by
  unfold execSageClockConfig
  with_reducible
    extract_lets +onlyGivenNames x
    refine keptOut_next ?_
    apply vci_kept
    extract_lets +onlyGivenNames x
    intro _
    extract_lets +onlyGivenNames x
    extract_lets +onlyGivenNames x
    extract_lets +onlyGivenNames x
    intro _
    refine kept_iter ?_ ?_
    apply refuse_kept
    assumption
    apply stored_kept
    assumption
    apply done_kept
    refine kept_ite ?_ ?_
    extract_lets +onlyGivenNames x; refine kept_cut x ?_ ?_ <;> [(subst x); (clear_value x; intro _)]
    apply storeConfig_kept
    extract_lets +onlyGivenNames x
    refine kept_upd rfl ?_ rfl rfl rfl
    assumption
    refine kept_foldl (fun t x ht => ?_) ?_
    refine kept_ite ?_ ?_
    apply chainRestart_kept
    assumption
    assumption
    assumption
    apply storeConfig_kept
    extract_lets +onlyGivenNames x; refine kept_cut x ?_ ?_ <;> [(subst x); (clear_value x; intro _)]
    apply storeConfig_kept
    extract_lets +onlyGivenNames x
    refine kept_upd rfl ?_ rfl rfl rfl
    assumption
    refine kept_upd rfl ?_ rfl rfl rfl
    assumption
    assumption

theorem execSageChainConfig_kept (h : Hdr) (p : SageChainConfigP) (s : State) (h_s : Kept q0 s) : KeptOut q0 (execSageChainConfig h p s) := by
  unfold execSageChainConfig
  with_reducible
    extract_lets +onlyGivenNames x
    refine keptOut_next ?_
    apply vci_kept
    extract_lets +onlyGivenNames x
    intro _
    extract_lets +onlyGivenNames x
    extract_lets +onlyGivenNames x
    extract_lets +onlyGivenNames x
    intro _
    refine kept_iter ?_ ?_
    apply refuse_kept
    assumption
    apply stored_kept
    assumption
    apply done_kept
    refine kept_ite ?_ ?_
    refine kept_ite ?_ ?_
    apply chainRestart_kept
    apply storeConfig_kept
    apply setMp_kept
    assumption
    apply storeConfig_kept
    apply setMp_kept
    assumption
    refine kept_ite ?_ ?_
    apply chainOff_kept
    apply storeConfig_kept
    apply setMp_kept
    assumption
    apply storeConfig_kept
    apply setMp_kept
    assumption
    assumption

theorem execSageFirLoad_kept (h : Hdr) (p : SageFirLoadP) (s : State) (h_s : Kept q0 s) : KeptOut q0 (execSageFirLoad h p s) := by
  unfold execSageFirLoad
  with_reducible
    extract_lets +onlyGivenNames x
    extract_lets +onlyGivenNames x
    extract_lets +onlyGivenNames x
    refine keptOut_next ?_
    apply vci_kept
    extract_lets +onlyGivenNames x
    intro _
    extract_lets +onlyGivenNames x
    extract_lets +onlyGivenNames x
    intro _
    refine kept_iter ?_ ?_
    apply refuse_kept
    assumption
    refine kept_iter ?_ ?_
    apply refuse_kept
    assumption
    apply stored_kept
    assumption
    apply done_kept
    apply storeConfig_kept
    apply setMp_kept
    assumption
    assumption

theorem execSageFirSwitch_kept (h : Hdr) (p : SageFirSwitchP) (s : State) (h_s : Kept q0 s) : KeptOut q0 (execSageFirSwitch h p s) := by
  unfold execSageFirSwitch
  with_reducible
    extract_lets +onlyGivenNames x
    refine keptOut_next ?_
    apply vci_kept
    extract_lets +onlyGivenNames x
    intro _
    extract_lets +onlyGivenNames x
    extract_lets +onlyGivenNames x
    extract_lets +onlyGivenNames x
    extract_lets +onlyGivenNames x
    intro _
    refine kept_iter ?_ ?_
    apply refuse_kept
    assumption
    refine kept_iter ?_ ?_
    apply refuse_kept
    assumption
    refine kept_iter ?_ ?_
    apply stored_kept
    assumption
    apply done_kept
    apply storeConfig_kept
    apply modMp_kept
    apply raise_kept
    apply bump_kept
    assumption
    apply stored_kept
    assumption
    apply done_kept
    apply storeConfig_kept
    apply modMp_kept
    extract_lets +onlyGivenNames x; refine kept_cut x ?_ ?_ <;> [(subst x); (clear_value x; intro _)]
    refine kept_foldl (fun t x ht => ?_) ?_
    apply unsettle_kept
    assumption
    apply beginSupp_kept
    apply raise_kept
    apply bump_kept
    assumption
    assumption
    assumption

theorem freezeInput_kept (n : Nat) (s : State) (h_s : Kept q0 s) : Kept q0 (freezeInput n s) := by
  unfold freezeInput
  with_reducible
    split
    apply modInput_kept
    assumption
    apply raise_kept
    apply modInput_kept
    assumption
    assumption

theorem releaseInput_kept (m n : Nat) (s : State) (h_s : Kept q0 s) : Kept q0 (releaseInput m n s) := by
  unfold releaseInput
  with_reducible
    extract_lets +onlyGivenNames x
    extract_lets +onlyGivenNames x; refine kept_cut x ?_ ?_ <;> [(subst x); (clear_value x; intro _)]
    apply raise_kept
    apply modInput_kept
    assumption
    split
    apply modInput_kept
    assumption
    assumption
    apply settleFrom_kept
    apply unsettle_kept
    assumption

theorem execSageDcFreeze_kept (h : Hdr) (p : SageDcP) (s : State) (h_s : Kept q0 s) : KeptOut q0 (execSageDcFreeze h p s) := by
  unfold execSageDcFreeze
  with_reducible
    refine keptOut_next ?_
    apply vci_kept
    extract_lets +onlyGivenNames x
    intro _
    intro _
    apply done_kept
    extract_lets +onlyGivenNames x
    refine kept_foldl (fun t x ht => ?_) ?_
    apply freezeInput_kept
    assumption
    assumption
    assumption

theorem execSageDcRelease_kept (h : Hdr) (p : SageDcP) (s : State) (h_s : Kept q0 s) : KeptOut q0 (execSageDcRelease h p s) := by
  unfold execSageDcRelease
  with_reducible
    refine keptOut_next ?_
    apply vci_kept
    extract_lets +onlyGivenNames x
    intro _
    intro _
    apply done_kept
    extract_lets +onlyGivenNames x
    refine kept_foldl (fun t x ht => ?_) ?_
    apply releaseInput_kept
    assumption
    assumption
    assumption

theorem execSageCal_kept (h : Hdr) (p : SageCalP) (s : State) (h_s : Kept q0 s) : KeptOut q0 (execSageCal h p s) := by
  unfold execSageCal
  with_reducible
    extract_lets +onlyGivenNames x
    refine keptOut_next ?_
    apply vci_kept
    extract_lets +onlyGivenNames x
    intro _
    extract_lets +onlyGivenNames x
    extract_lets +onlyGivenNames x
    intro _
    refine kept_iter ?_ ?_
    apply refuse_kept
    assumption
    apply stored_kept
    assumption
    apply done_kept
    apply storeConfig_kept
    apply setInput_kept
    assumption
    assumption

theorem execSageTempTable_kept (h : Hdr) (p : SageTempTableP) (s : State) (h_s : Kept q0 s) : KeptOut q0 (execSageTempTable h p s) := by
  unfold execSageTempTable
  with_reducible
    extract_lets +onlyGivenNames x
    extract_lets +onlyGivenNames x
    refine keptOut_next ?_
    apply vci_kept
    extract_lets +onlyGivenNames x
    intro _
    extract_lets +onlyGivenNames x
    extract_lets +onlyGivenNames x
    intro _
    refine kept_iter ?_ ?_
    apply refuse_kept
    assumption
    apply stored_kept
    assumption
    apply done_kept
    apply storeTables_kept
    apply setInput_kept
    assumption
    assumption

theorem execSageTempSource_kept (h : Hdr) (p : SageTempSourceP) (s : State) (h_s : Kept q0 s) : KeptOut q0 (execSageTempSource h p s) := by
  unfold execSageTempSource
  with_reducible
    extract_lets +onlyGivenNames x
    extract_lets +onlyGivenNames x
    refine keptOut_next ?_
    apply vci_kept
    extract_lets +onlyGivenNames x
    intro _
    extract_lets +onlyGivenNames x
    extract_lets +onlyGivenNames x
    extract_lets +onlyGivenNames x
    extract_lets +onlyGivenNames x
    extract_lets +onlyGivenNames x
    extract_lets +onlyGivenNames x
    extract_lets +onlyGivenNames x
    intro _
    apply stored_kept
    assumption
    apply done_kept
    apply raiseIf_kept
    apply raiseIf_kept
    apply storeConfig_kept
    apply setInput_kept
    assumption
    assumption

theorem execSageTemp_kept (h : Hdr) (p : SageTempP) (s : State) (h_s : Kept q0 s) : KeptOut q0 (execSageTemp h p s) := by
  unfold execSageTemp
  with_reducible
    refine keptOut_next ?_
    apply vci_kept
    extract_lets +onlyGivenNames x
    intro _
    intro _
    apply done_kept
    extract_lets +onlyGivenNames x
    refine kept_foldl (fun t x ht => ?_) ?_
    apply applyTemp_kept
    assumption
    assumption
    assumption

theorem execSagePmuAdd_kept (h : Hdr) (p : SagePmuP) (s : State) (h_s : Kept q0 s) : KeptOut q0 (execSagePmuAdd h p s) := by
  unfold execSagePmuAdd
  with_reducible
    extract_lets +onlyGivenNames x
    extract_lets +onlyGivenNames x
    extract_lets +onlyGivenNames x
    refine keptOut_next ?_
    apply vci_kept
    extract_lets +onlyGivenNames x
    intro _
    intro _
    refine kept_iter ?_ ?_
    apply refuse_kept
    assumption
    extract_lets +onlyGivenNames x
    split
    extract_lets +onlyGivenNames x
    extract_lets +onlyGivenNames x
    split
    apply refuse_kept
    apply beginRebuild_kept
    assumption
    apply doneWith_kept
    apply modMp_kept
    apply oscResetStream_kept
    apply placeNew_kept
    apply syncGrid_kept
    refine enterDir_kept _ _ _  ?_  _ ‹_›
    assumption
    apply refuse_kept
    assumption
    assumption

theorem execSagePmuRetire_kept (h : Hdr) (p : SagePmuP) (s : State) (h_s : Kept q0 s) : KeptOut q0 (execSagePmuRetire h p s) := by
  unfold execSagePmuRetire
  with_reducible
    extract_lets +onlyGivenNames x
    refine keptOut_next ?_
    apply vci_kept
    extract_lets +onlyGivenNames x
    intro _
    intro _
    dsimp -zeta only
    split
    apply refuse_kept
    assumption
    refine kept_iter ?_ ?_
    apply refuse_kept
    assumption
    apply beginRetire_kept
    apply startLong_kept
    assumption
    assumption

theorem execSagePmuSvWindow_kept (h : Hdr) (p : SagePmuP) (s : State) (h_s : Kept q0 s) : KeptOut q0 (execSagePmuSvWindow h p s) := by
  unfold execSagePmuSvWindow
  with_reducible
    refine keptOut_next ?_
    apply vci_kept
    extract_lets +onlyGivenNames x
    intro _
    extract_lets +onlyGivenNames x
    intro _
    apply stored_kept
    assumption
    apply done_kept
    apply storeConfig_kept
    extract_lets +onlyGivenNames x
    refine kept_upd rfl ?_ rfl rfl rfl
    assumption
    assumption

theorem countedFirst_kept (m stamp el : Nat) (s : State) (h_s : Kept q0 s) : Kept q0 (countedFirst m stamp el s) := by
  unfold countedFirst
  with_reducible
    refine kept_ite ?_ ?_
    assumption
    refine kept_ite ?_ ?_
    apply modEq_kept
    apply closeGaps_kept
    apply closeGaps_kept
    assumption
    apply modEq_kept
    apply closeGaps_kept
    assumption

theorem countOverloads_kept (a0 : List (Nat × Bool)) (a1 : State) (h_a1 : Kept q0 a1) : Kept q0 (countOverloads a0 a1) := by
  fun_induction countOverloads a0 a1
  with_reducible
    assumption
    rename_i ih; apply ih
    assumption
    rename_i ih; apply ih
    apply raise_kept
    apply modInput_kept
    apply bump_kept
    assumption
    rename_i ih; apply ih
    apply bump_kept
    assumption

theorem deliverRow_kept (m : Nat) (bits : List (List Bool)) (s : State) (h_s : Kept q0 s) : Kept q0 (deliverRow m bits s) := by
  unfold deliverRow
  with_reducible
    apply gaSample_kept
    refine kept_ite ?_ ?_
    apply countedFirst_kept
    apply modEq_kept
    apply modMp_kept
    apply countOverloads_kept
    extract_lets +onlyGivenNames x
    refine kept_foldl (fun t x ht => ?_) ?_
    apply setInput_kept
    assumption
    assumption
    apply bump_kept
    apply modEq_kept
    apply modMp_kept
    apply countOverloads_kept
    extract_lets +onlyGivenNames x
    refine kept_foldl (fun t x ht => ?_) ?_
    apply setInput_kept
    assumption
    assumption

theorem offRow_kept (m : Nat) (s : State) (h_s : Kept q0 s) : Kept q0 (offRow m s) := by
  unfold offRow
  with_reducible
    refine kept_ite ?_ ?_
    apply gaSample_kept
    apply modEq_kept
    apply setMp_kept
    assumption
    assumption

theorem execSageOutputSample_kept (b : SageBits) (s : State) (h_s : Kept q0 s) : KeptOut q0 (execSageOutputSample b s) := by
  unfold execSageOutputSample
  with_reducible
    extract_lets +onlyGivenNames x
    extract_lets +onlyGivenNames x
    refine keptOut_next ?_
    refine kept_ite ?_ ?_
    assumption
    refine kept_ite ?_ ?_
    apply offRow_kept
    assumption
    refine kept_ite ?_ ?_
    apply deliverRow_kept
    assumption
    assumption

theorem execInputLost_kept (input : BitVec 7) (s : State) (h_s : Kept q0 s) : KeptOut q0 (execInputLost input s) := by
  unfold execInputLost
  with_reducible
    extract_lets +onlyGivenNames x
    extract_lets +onlyGivenNames x
    extract_lets +onlyGivenNames x
    extract_lets +onlyGivenNames x
    extract_lets +onlyGivenNames x
    extract_lets +onlyGivenNames x
    extract_lets +onlyGivenNames x
    refine keptOut_next ?_
    refine kept_ite ?_ ?_
    assumption
    apply settleFrom_kept
    apply raise_kept
    apply bump_kept
    apply setInput_kept
    assumption

theorem execInputRestored_kept (input : BitVec 7) (s : State) (h_s : Kept q0 s) : KeptOut q0 (execInputRestored input s) := by
  unfold execInputRestored
  with_reducible
    extract_lets +onlyGivenNames x
    extract_lets +onlyGivenNames x
    extract_lets +onlyGivenNames x
    extract_lets +onlyGivenNames x
    refine keptOut_next ?_
    refine kept_ite ?_ ?_
    assumption
    apply raise_kept
    apply restartInput_kept
    apply setInput_kept
    assumption

theorem execDcAcquireDone_kept (input : BitVec 7) (s : State) (h_s : Kept q0 s) : KeptOut q0 (execDcAcquireDone input s) := by
  unfold execDcAcquireDone
  with_reducible
    extract_lets +onlyGivenNames x
    extract_lets +onlyGivenNames x
    extract_lets +onlyGivenNames x
    refine keptOut_next ?_
    refine kept_ite ?_ ?_
    apply raise_kept
    apply setInput_kept
    assumption
    assumption

theorem execSettlingEnd_kept (mp : BitVec 4) (s : State) (h_s : Kept q0 s) : KeptOut q0 (execSettlingEnd mp s) := by
  unfold execSettlingEnd
  with_reducible
    extract_lets +onlyGivenNames x
    extract_lets +onlyGivenNames x
    refine keptOut_next ?_
    refine kept_ite ?_ ?_
    apply endSupp_kept
    apply mpState_kept
    assumption
    assumption

theorem execFadeEnd_kept (mp : BitVec 4) (s : State) (h_s : Kept q0 s) : KeptOut q0 (execFadeEnd mp s) := by
  unfold execFadeEnd
  with_reducible
    extract_lets +onlyGivenNames x
    extract_lets +onlyGivenNames x
    extract_lets +onlyGivenNames x
    refine keptOut_next ?_
    refine kept_ite ?_ ?_
    refine kept_ite ?_ ?_
    apply endSupp_kept
    apply mpState_kept
    apply setMp_kept
    assumption
    apply mpState_kept
    apply mpState_kept
    apply setMp_kept
    assumption
    assumption

theorem execTempStaleExpiry_kept (input : BitVec 7) (s : State) (h_s : Kept q0 s) : KeptOut q0 (execTempStaleExpiry input s) := by
  unfold execTempStaleExpiry
  with_reducible
    extract_lets +onlyGivenNames x
    extract_lets +onlyGivenNames x
    refine keptOut_next ?_
    refine kept_ite ?_ ?_
    apply raise_kept
    apply setInput_kept
    assumption
    assumption

theorem landLocal_kept (h tag : Nat) (cells : List Cell) (s : State) (h_s : Kept q0 s) : Kept q0 (landLocal h tag cells s) := by
  unfold landLocal
  with_reducible
    split
    refine kept_ite ?_ ?_
    apply acceptReport_kept
    assumption
    assumption
    assumption

theorem execLocalPmuReport_kept (mp : BitVec 4) (s : State) (h_s : Kept q0 s) : KeptOut q0 (execLocalPmuReport mp s) := by
  unfold execLocalPmuReport
  with_reducible
    extract_lets +onlyGivenNames x
    extract_lets +onlyGivenNames x
    extract_lets +onlyGivenNames x
    extract_lets +onlyGivenNames x
    extract_lets +onlyGivenNames x
    extract_lets +onlyGivenNames x
    extract_lets +onlyGivenNames x
    refine keptOut_next ?_
    extract_lets +onlyGivenNames x
    split
    assumption
    refine kept_ite ?_ ?_
    apply landLocal_kept
    apply setMp_kept
    assumption
    assumption

end Sys2Proof.Machine
end

