-- ==== Sys2Proof/Laws/Kept4.lean ====
section
/-!
SUPPORT. Operations keep a sound state and the commands that wait (part 4).
-/

namespace Sys2Proof.Machine

set_option Elab.async false
set_option linter.tactic.unusedName false

variable {q0 : List Instr}

theorem svReports_kept (h rate : Nat) (c : EstCfg) (nom : Bool) (a0 : Nat) (a1 : State) (h_a1 : Kept q0 a1) : Kept q0 (svReports h rate c nom a0 a1) := by
  fun_induction svReports h rate c nom a0 a1
  with_reducible
    assumption
    assumption
    rename_i ih; apply ih
    apply landLocal_kept
    extract_lets +onlyGivenNames x
    refine kept_upd rfl ?_ rfl rfl rfl
    assumption
    assumption

theorem svStart_kept (h : Nat) (v : Stream) (s : State) (h_s : Kept q0 s) : Kept q0 (svStart h v s).2 := by
  unfold svStart
  with_reducible
    refine kept_ite2 ?_ ?_
    apply syncGrid_kept
    apply setStream_kept
    assumption
    assumption

theorem execSvFrame_kept (f : SvFrame) (s : State) (h_s : Kept q0 s) : KeptOut q0 (execSvFrame f s) := by
  unfold execSvFrame
  with_reducible
    extract_lets +onlyGivenNames x
    extract_lets +onlyGivenNames x
    extract_lets +onlyGivenNames x
    extract_lets +onlyGivenNames x
    extract_lets +onlyGivenNames x
    extract_lets +onlyGivenNames x
    extract_lets +onlyGivenNames x
    extract_lets +onlyGivenNames x
    refine keptOut_next ?_
    refine kept_ite ?_ ?_
    assumption
    extract_lets +onlyGivenNames x
    dsimp -zeta only
    split
    refine kept_ite ?_ ?_
    apply readEntry_kept
    apply popIn_kept
    assumption
    apply bump_kept
    apply readEntry_kept
    apply popIn_kept
    assumption
    refine kept_ite ?_ ?_
    apply readEntry_kept
    apply popIn_kept
    assumption
    refine kept_ite ?_ ?_
    apply setStream_kept
    apply readEntry_kept
    apply popIn_kept
    assumption
    apply svReports_kept
    apply bumpIf_kept
    extract_lets +onlyGivenNames x
    split
    refine kept_upd rfl ?_ rfl rfl rfl
    apply svStart_kept
    apply readEntry_kept
    apply popIn_kept
    assumption
    refine kept_upd rfl ?_ rfl rfl rfl
    apply svStart_kept
    apply readEntry_kept
    apply popIn_kept
    assumption

theorem execCfXcvrProfile_kept (h : Hdr) (p : CfProfileP) (s : State) (h_s : Kept q0 s) : KeptOut q0 (execCfXcvrProfile h p s) := by
  unfold execCfXcvrProfile
  with_reducible
    refine keptOut_next ?_
    apply vci_kept
    extract_lets +onlyGivenNames x
    intro _
    extract_lets +onlyGivenNames x
    extract_lets +onlyGivenNames x
    intro _
    refine kept_iter ?_ ?_
    apply refuse_kept
    assumption
    refine kept_iter ?_ ?_
    apply refuse_kept
    assumption
    apply done_kept
    apply setCf_kept
    assumption
    assumption

theorem cfEnable_kept (s : State) (h_s : Kept q0 s) : Kept q0 (cfEnable s) := by
  unfold cfEnable
  with_reducible
    apply enterStarting_kept
    refine kept_ite ?_ ?_
    assumption
    apply setCf_kept
    assumption

theorem execCfConfig_kept (h : Hdr) (p : CfConfigP) (s : State) (h_s : Kept q0 s) : KeptOut q0 (execCfConfig h p s) := by
  unfold execCfConfig
  with_reducible
    refine keptOut_next ?_
    apply vci_kept
    extract_lets +onlyGivenNames x
    intro _
    extract_lets +onlyGivenNames x
    extract_lets +onlyGivenNames x
    extract_lets +onlyGivenNames x
    intro _
    refine kept_iter ?_ ?_
    apply refuse_kept
    assumption
    apply done_kept
    refine kept_ite ?_ ?_
    apply cfOff_kept
    apply setCf_kept
    assumption
    refine kept_ite ?_ ?_
    apply cfEnable_kept
    apply setCf_kept
    assumption
    apply setCf_kept
    assumption
    assumption

theorem execCfChannelMap_kept (h : Hdr) (p : CfChannelMapP) (s : State) (h_s : Kept q0 s) : KeptOut q0 (execCfChannelMap h p s) := by
  unfold execCfChannelMap
  with_reducible
    extract_lets +onlyGivenNames x
    refine keptOut_next ?_
    apply vci_kept
    extract_lets +onlyGivenNames x
    intro _
    extract_lets +onlyGivenNames x
    intro _
    apply done_kept
    apply modCf_kept
    assumption
    assumption

theorem execCfNodeAdd_kept (h : Hdr) (p : CfNodeAddP) (s : State) (h_s : Kept q0 s) : KeptOut q0 (execCfNodeAdd h p s) := by
  unfold execCfNodeAdd
  with_reducible
    extract_lets +onlyGivenNames x
    extract_lets +onlyGivenNames x
    refine keptOut_next ?_
    apply vci_kept
    extract_lets +onlyGivenNames x
    intro _
    extract_lets +onlyGivenNames x
    extract_lets +onlyGivenNames x
    extract_lets +onlyGivenNames x
    extract_lets +onlyGivenNames x
    intro _
    split
    apply refuse_kept
    assumption
    apply doneWith_kept
    apply setCf_kept
    assumption
    assumption

theorem execCfNodeRemove_kept (h : Hdr) (p : CfNodeP) (s : State) (h_s : Kept q0 s) : KeptOut q0 (execCfNodeRemove h p s) := by
  unfold execCfNodeRemove
  with_reducible
    extract_lets +onlyGivenNames x
    refine keptOut_next ?_
    apply vci_kept
    extract_lets +onlyGivenNames x
    intro _
    intro _
    split
    apply refuse_kept
    assumption
    refine kept_iter ?_ ?_
    apply refuse_kept
    assumption
    apply done_kept
    apply raise_kept
    apply modCf_kept
    apply retireNodeStream_kept
    assumption
    assumption

theorem execCfNodeKey_kept (h : Hdr) (p : CfNodeKeyP) (s : State) (h_s : Kept q0 s) : KeptOut q0 (execCfNodeKey h p s) := by
  unfold execCfNodeKey
  with_reducible
    extract_lets +onlyGivenNames x
    refine keptOut_next ?_
    apply vci_kept
    extract_lets +onlyGivenNames x
    intro _
    intro _
    refine kept_iter ?_ ?_
    refine kept_iter ?_ ?_
    apply refuse_kept
    assumption
    apply done_kept
    apply modCf_kept
    assumption
    apply done_kept
    apply modNode_kept
    assumption
    assumption

theorem execCfNodeStreamMap_kept (h : Hdr) (p : CfNodeStreamP) (s : State) (h_s : Kept q0 s) : KeptOut q0 (execCfNodeStreamMap h p s) := by
  unfold execCfNodeStreamMap
  with_reducible
    extract_lets +onlyGivenNames x
    extract_lets +onlyGivenNames x
    extract_lets +onlyGivenNames x
    refine keptOut_next ?_
    apply vci_kept
    extract_lets +onlyGivenNames x
    intro _
    intro _
    split
    apply refuse_kept
    assumption
    refine kept_iter ?_ ?_
    apply refuse_kept
    assumption
    extract_lets +onlyGivenNames x
    split
    extract_lets +onlyGivenNames x
    extract_lets +onlyGivenNames x
    split
    apply refuse_kept
    apply beginRebuild_kept
    assumption
    apply doneWith_kept
    apply modNode_kept
    apply oscResetStream_kept
    apply placeNew_kept
    apply syncGrid_kept
    refine enterDir_kept _ _ _  ?_  _ ‹_›
    assumption
    apply refuse_kept
    assumption
    assumption

theorem execCfNodeStreamUnmap_kept (h : Hdr) (p : CfNodeStreamP) (s : State) (h_s : Kept q0 s) : KeptOut q0 (execCfNodeStreamUnmap h p s) := by
  unfold execCfNodeStreamUnmap
  with_reducible
    extract_lets +onlyGivenNames x
    refine keptOut_next ?_
    apply vci_kept
    extract_lets +onlyGivenNames x
    intro _
    intro _
    split
    apply refuse_kept
    assumption
    refine kept_iter ?_ ?_
    apply refuse_kept
    assumption
    apply doneWith_kept
    apply retireNodeStream_kept
    assumption
    assumption

theorem execCfOutputBind_kept (h : Hdr) (p : RingBindP) (s : State) (h_s : Kept q0 s) : KeptOut q0 (execCfOutputBind h p s) := by
  unfold execCfOutputBind
  with_reducible
    extract_lets +onlyGivenNames x
    refine keptOut_next ?_
    apply vci_kept
    extract_lets +onlyGivenNames x
    intro _
    intro _
    split
    refine kept_iter ?_ ?_
    apply done_kept
    apply unbindRing_kept
    apply modCf_kept
    assumption
    apply refuse_kept
    assumption
    refine kept_iter ?_ ?_
    apply done_kept
    assumption
    apply done_kept
    apply bindRing_kept
    apply modCf_kept
    assumption
    assumption

theorem execCfSend_kept (h : Hdr) (p : CfSendP) (s : State) (h_s : Kept q0 s) : KeptOut q0 (execCfSend h p s) := by
  unfold execCfSend
  with_reducible
    extract_lets +onlyGivenNames x
    refine keptOut_next ?_
    apply vci_kept
    extract_lets +onlyGivenNames x
    intro _
    intro _
    split
    apply refuse_kept
    assumption
    refine kept_iter ?_ ?_
    apply refuse_kept
    assumption
    refine kept_iter ?_ ?_
    apply refuse_kept
    assumption
    apply done_kept
    apply modNode_kept
    assumption
    assumption

theorem execCfResetWaitEnd_kept (status : U8) (s : State) (h_s : Kept q0 s) : KeptOut q0 (execCfResetWaitEnd status s) := by
  unfold execCfResetWaitEnd
  with_reducible
    extract_lets +onlyGivenNames x
    extract_lets +onlyGivenNames x
    refine keptOut_next ?_
    refine kept_ite ?_ ?_
    refine kept_ite ?_ ?_
    apply raise_kept
    apply modCf_kept
    apply runSeq_kept
    apply runSeq_kept
    apply modCf_kept
    assumption
    apply startFails_kept
    apply runSeq_kept
    apply runSeq_kept
    apply modCf_kept
    assumption
    assumption

theorem execCfIrqTimeout_kept (s : State) (h_s : Kept q0 s) : KeptOut q0 (execCfIrqTimeout s) := by
  unfold execCfIrqTimeout
  with_reducible
    extract_lets +onlyGivenNames x
    refine keptOut_next ?_
    refine kept_ite ?_ ?_
    apply startFails_kept
    apply runSeq_kept
    apply modCf_kept
    assumption
    assumption

theorem execCfStartupRetry_kept (s : State) (h_s : Kept q0 s) : KeptOut q0 (execCfStartupRetry s) := by
  unfold execCfStartupRetry
  with_reducible
    extract_lets +onlyGivenNames x
    refine keptOut_next ?_
    extract_lets +onlyGivenNames x
    split
    refine kept_ite ?_ ?_
    apply startUp_kept
    assumption
    assumption
    assumption

theorem execSuperframePlanning_kept (s : State) (h_s : Kept q0 s) : KeptOut q0 (execSuperframePlanning s) := by
  unfold execSuperframePlanning
  with_reducible
    refine keptOut_next ?_
    extract_lets +onlyGivenNames x
    split
    refine kept_ite ?_ ?_
    assumption
    refine kept_ite ?_ ?_
    apply modCf_kept
    assumption
    refine kept_ite ?_ ?_
    apply raise_kept
    apply modCf_kept
    apply bumpBy_kept
    apply bumpIf_kept
    apply modCf_kept
    apply modCf_kept
    assumption
    apply bumpBy_kept
    apply bumpIf_kept
    apply modCf_kept
    apply modCf_kept
    assumption
    assumption

theorem execBeaconStatusCheck_kept (status : U8) (s : State) (h_s : Kept q0 s) : KeptOut q0 (execBeaconStatusCheck status s) := by
  unfold execBeaconStatusCheck
  with_reducible
    refine keptOut_next ?_
    refine kept_ite ?_ ?_
    assumption
    refine kept_ite ?_ ?_
    apply runSeq_kept
    apply modCf_kept
    assumption
    apply beaconFailed_kept
    apply modCf_kept
    apply runSeq_kept
    apply modCf_kept
    assumption

theorem radioStart_kept (n ch : Nat) (p : CfProfileP) (s : State) (h_s : Kept q0 s) : Kept q0 (radioStart n ch p s) := by
  unfold radioStart
  with_reducible
    refine kept_ite ?_ ?_
    assumption
    refine kept_ite ?_ ?_
    apply modCf_kept
    assumption
    refine kept_ite ?_ ?_
    apply runSeq_kept
    apply modCf_kept
    apply modCf_kept
    assumption
    apply launchFrame_kept
    apply modCf_kept
    apply runSeq_kept
    apply modCf_kept
    apply modCf_kept
    assumption

theorem execSuperframeStart_kept (s : State) (h_s : Kept q0 s) : KeptOut q0 (execSuperframeStart s) := by
  unfold execSuperframeStart
  with_reducible
    refine keptOut_next ?_
    refine kept_ite ?_ ?_
    assumption
    refine kept_ite ?_ ?_
    apply raise_kept
    apply cfOff_kept
    assumption
    extract_lets +onlyGivenNames x
    extract_lets +onlyGivenNames x; refine kept_cut x ?_ ?_ <;> [(subst x); (clear_value x; intro _)]
    apply mapSwitch_kept
    apply modCf_kept
    assumption
    extract_lets +onlyGivenNames x; refine kept_cut x ?_ ?_ <;> [(subst x); (clear_value x; intro _)]
    apply nodeEvents_kept
    apply beaconKey_kept
    assumption
    split
    apply radioStart_kept
    apply modCf_kept
    assumption
    assumption

theorem sendPoll_kept (k : Nat) (v : Node) (s : State) (h_s : Kept q0 s) : Kept q0 (sendPoll k v s) := by
  unfold sendPoll
  with_reducible
    apply launchFrame_kept
    apply bump_kept
    apply modNode_kept
    assumption

theorem execSlotPoll_kept (node : U16) (s : State) (h_s : Kept q0 s) : KeptOut q0 (execSlotPoll node s) := by
  unfold execSlotPoll
  with_reducible
    extract_lets +onlyGivenNames x
    extract_lets +onlyGivenNames x
    refine keptOut_next ?_
    extract_lets +onlyGivenNames x
    split
    refine kept_ite ?_ ?_
    apply sendPoll_kept
    assumption
    assumption
    assumption

theorem execSlotEnd_kept (node : U16) (s : State) (h_s : Kept q0 s) : KeptOut q0 (execSlotEnd node s) := by
  unfold execSlotEnd
  with_reducible
    extract_lets +onlyGivenNames x
    refine keptOut_next ?_
    extract_lets +onlyGivenNames x
    split
    refine kept_ite ?_ ?_
    assumption
    apply dropDl_kept
    apply raiseIf_kept
    apply bump_kept
    apply modNode_kept
    assumption
    assumption

theorem execNodeSupervisionTimeout_kept (node : U16) (s : State) (h_s : Kept q0 s) : KeptOut q0 (execNodeSupervisionTimeout node s) := by
  unfold execNodeSupervisionTimeout
  with_reducible
    extract_lets +onlyGivenNames x
    refine keptOut_next ?_
    extract_lets +onlyGivenNames x
    split
    refine kept_ite ?_ ?_
    apply raise_kept
    apply closeNode_kept
    assumption
    assumption
    assumption

theorem execCfIrq_kept (k : IrqKind) (s : State) (h_s : Kept q0 s) : KeptOut q0 (execCfIrq k s) := by
  unfold execCfIrq
  with_reducible
    extract_lets +onlyGivenNames x
    extract_lets +onlyGivenNames x
    extract_lets +onlyGivenNames x
    refine keptOut_next ?_
    refine kept_ite ?_ ?_
    assumption
    extract_lets +onlyGivenNames x; refine kept_cut x ?_ ?_ <;> [(subst x); (clear_value x; intro _)]
    apply runSeq_kept
    apply runSeq_kept
    assumption
    split
    apply modCf_kept
    apply runSeq_kept
    assumption
    apply runSeq_kept
    apply runSeq_kept
    assumption
    refine kept_ite ?_ ?_
    apply bump_kept
    apply modCf_kept
    assumption
    assumption

theorem execBeaconTxTimeout_kept (s : State) (h_s : Kept q0 s) : KeptOut q0 (execBeaconTxTimeout s) := by
  unfold execBeaconTxTimeout
  with_reducible
    refine keptOut_next ?_
    extract_lets +onlyGivenNames x
    split
    refine kept_ite ?_ ?_
    apply beaconFailed_kept
    assumption
    assumption
    assumption

theorem validResponse_kept (k : Nat) (v : Node) (r : CfResponse) (s : State) (h_s : Kept q0 s) : Kept q0 (validResponse k v r s) := by
  unfold validResponse
  with_reducible
    apply dropDl_kept
    refine kept_ite ?_ ?_
    apply takeRecords_kept
    apply raiseIf_kept
    apply raiseIf_kept
    apply bumpIf_kept
    apply bumpIf_kept
    apply bump_kept
    apply modNode_kept
    assumption
    apply raiseIf_kept
    apply raiseIf_kept
    apply bumpIf_kept
    apply bumpIf_kept
    apply bump_kept
    apply modNode_kept
    assumption

theorem execResponseRx_kept (r : CfResponse) (s : State) (h_s : Kept q0 s) : KeptOut q0 (execResponseRx r s) := by
  unfold execResponseRx
  with_reducible
    extract_lets +onlyGivenNames x
    refine keptOut_next ?_
    refine kept_ite ?_ ?_
    assumption
    refine kept_ite ?_ ?_
    apply bump_kept
    assumption
    extract_lets +onlyGivenNames x
    split
    apply bump_kept
    assumption
    refine kept_ite ?_ ?_
    apply bump_kept
    assumption
    refine kept_ite ?_ ?_
    apply validResponse_kept
    assumption
    apply bump_kept
    apply modNode_kept
    assumption

theorem clearCnt_kept (g : Nat) (f : Nat → Bool) (s : State) (h_s : Kept q0 s) : Kept q0 (clearCnt g f s) := by
  exact ⟨h_s.1, h_s.2.1, CountersOk_tkeep h_s.2.2.1, h_s.2.2.2⟩

theorem clearGroup_kept (first : Nat) (whole : Bool) (g : Nat) (f : Nat → Bool) (s0 : State) (h_s0 : Kept q0 s0) : Kept q0 (clearGroup first whole g f s0) := by
  unfold clearGroup
  with_reducible
    extract_lets +onlyGivenNames x; refine kept_cut x ?_ ?_ <;> [(subst x); (clear_value x; intro _)]
    apply clearCnt_kept
    assumption
    extract_lets +onlyGivenNames x
    extract_lets +onlyGivenNames x
    extract_lets +onlyGivenNames x
    extract_lets +onlyGivenNames x
    extract_lets +onlyGivenNames x
    extract_lets +onlyGivenNames x
    extract_lets +onlyGivenNames x
    extract_lets +onlyGivenNames x
    extract_lets +onlyGivenNames x
    extract_lets +onlyGivenNames x
    split
    refine kept_upd rfl ?_ rfl rfl rfl
    assumption
    refine kept_upd rfl ?_ rfl rfl rfl
    assumption
    refine kept_upd rfl ?_ rfl rfl rfl
    assumption
    refine kept_upd rfl ?_ rfl rfl rfl
    assumption
    refine kept_upd rfl ?_ rfl rfl rfl
    assumption
    refine kept_upd rfl ?_ rfl rfl rfl
    assumption
    refine kept_upd rfl ?_ rfl rfl rfl
    assumption
    refine kept_upd rfl ?_ rfl rfl rfl
    assumption
    refine kept_upd rfl ?_ rfl rfl rfl
    assumption
    refine kept_upd rfl ?_ rfl rfl rfl
    assumption
    refine kept_upd rfl ?_ rfl rfl rfl
    assumption
    assumption

theorem execCounterClear_kept (h : Hdr) (p : CounterClearP) (s : State) (h_s : Kept q0 s) : KeptOut q0 (execCounterClear h p s) := by
  unfold execCounterClear
  with_reducible
    extract_lets +onlyGivenNames x
    refine keptOut_next ?_
    apply vci_kept
    extract_lets +onlyGivenNames x
    intro _
    intro _
    apply done_kept
    apply raise_kept
    apply clearGroup_kept
    assumption
    assumption

theorem modJob_kept (j : Nat) (f : Job → Job) (s : State) (h_s : Kept q0 s) : Kept q0 (modJob j f s) := by
  unfold modJob
  with_reducible
    extract_lets +onlyGivenNames x
    refine kept_upd rfl ?_ rfl rfl rfl
    assumption

theorem setPipe_kept (decomp : Bool) (v : Option Nat) (s : State) (h_s : Kept q0 s) : Kept q0 (setPipe decomp v s) := by
  unfold setPipe
  with_reducible
    refine kept_ite ?_ ?_
    extract_lets +onlyGivenNames x
    refine kept_upd rfl ?_ rfl rfl rfl
    assumption
    extract_lets +onlyGivenNames x
    refine kept_upd rfl ?_ rfl rfl rfl
    assumption

theorem completeChain_kept (p : HP) (n : Nat) (st : Sts) (a0 : Nat) (a1 : State) (h_a1 : Kept q0 a1) : Kept q0 (completeChain p n st a0 a1) := by
  fun_induction completeChain p n st a0 a1
  with_reducible
    assumption
    assumption
    apply completeDesc_kept
    assumption
    rename_i ih; apply ih
    apply completeDesc_kept
    assumption

theorem completeSegment_kept (v : Job) (st : Sts) (s : State) (h_s : Kept q0 s) : Kept q0 (completeSegment v st s) := by
  unfold completeSegment
  with_reducible
    apply completeChain_kept
    assumption

theorem compressSegment_kept (v : Job) (g : Segment) (s : State) (h_s : Kept q0 s) : Kept q0 (compressSegment v g s).2.2 := by
  unfold compressSegment
  with_reducible
    refine kept_ite3 ?_ ?_
    apply fresh_kept
    assumption
    assumption

theorem segmentDone_kept (j : Nat) (v : Job) (g : Segment) (s : State) (h_s : Kept q0 s) : Kept q0 (segmentDone j v g s) := by
  unfold segmentDone
  with_reducible
    apply bumpBy_kept
    apply bumpBy_kept
    apply modJob_kept
    refine kept_ite3 ?_ ?_
    assumption
    refine kept_ite3 ?_ ?_
    assumption
    apply compressSegment_kept
    assumption

theorem writeOut_kept (p : HP) (n : Nat) (a0 : Nat) (a1 : Emit) (a2 : State) (h_a2 : Kept q0 a2) : Kept q0 (writeOut p n a0 a1 a2).2 := by
  fun_induction writeOut p n a0 a1 a2
  with_reducible
    assumption
    assumption
    apply completeDesc_kept
    assumption
    rename_i ih; apply ih
    apply completeDesc_kept
    assumption
    rename_i ih; apply ih
    apply completeDesc_kept
    assumption

theorem refuseRest_kept (v : Job) (s : State) (h_s : Kept q0 s) : Kept q0 (refuseRest v s) := by
  unfold refuseRest
  with_reducible
    refine kept_foldl (fun t x ht => ?_) ?_
    apply completeSegment_kept
    assumption
    assumption

theorem jobDone_kept (j : Nat) (v : Job) (st : Sts) (s : State) (h_s : Kept q0 s) : Kept q0 (jobDone j v st s) := by
  unfold jobDone
  with_reducible
    apply raise_kept
    assumption

theorem jobFailed_kept (j : Nat) (v : Job) (st : Sts) (cause : Nat) (s : State) (h_s : Kept q0 s) : Kept q0 (jobFailed j v st cause s) := by
  unfold jobFailed
  with_reducible
    apply raise_kept
    assumption

theorem segmentEnd_kept (j : Nat) (v : Job) (e : Emit) (s : State) (h_s : Kept q0 s) : Kept q0 (segmentEnd j v e s) := by
  unfold segmentEnd
  with_reducible
    extract_lets +onlyGivenNames x; refine kept_cut x ?_ ?_ <;> [(subst x); (clear_value x; intro _)]
    apply bump_kept
    apply completeSegment_kept
    assumption
    extract_lets +onlyGivenNames x
    extract_lets +onlyGivenNames x; refine kept_cut x ?_ ?_ <;> [(subst x); (clear_value x; intro _)]
    apply bumpIf_kept
    apply bumpIf_kept
    apply bumpIf_kept
    apply bumpIf_kept
    assumption
    extract_lets +onlyGivenNames x
    extract_lets +onlyGivenNames x
    split
    apply jobFailed_kept
    apply refuseRest_kept
    apply setPipe_kept
    apply modJob_kept
    assumption
    refine kept_ite ?_ ?_
    apply jobDone_kept
    apply refuseRest_kept
    apply setPipe_kept
    apply modJob_kept
    assumption
    apply modJob_kept
    assumption

theorem pushOut_kept (j : Nat) (v : Job) (e : Emit) (s : State) (h_s : Kept q0 s) : Kept q0 (pushOut j v e s) := by
  unfold pushOut
  with_reducible
    refine kept_ite ?_ ?_
    apply modJob_kept
    extract_lets +onlyGivenNames x
    split
    apply bumpBy_kept
    assumption
    assumption
    extract_lets +onlyGivenNames x
    split
    apply modJob_kept
    extract_lets +onlyGivenNames x
    refine kept_eq2 ‹_› ?_
    apply writeOut_kept
    extract_lets +onlyGivenNames x
    split
    apply bumpBy_kept
    assumption
    assumption
    apply segmentEnd_kept
    extract_lets +onlyGivenNames x
    refine kept_eq2 ‹_› ?_
    apply writeOut_kept
    extract_lets +onlyGivenNames x
    split
    apply bumpBy_kept
    assumption
    assumption

theorem runJob_kept (j : Nat) (a0 : Nat) (a1 : State) (h_a1 : Kept q0 a1) : Kept q0 (runJob j a0 a1) := by
  fun_induction runJob j a0 a1
  with_reducible
    assumption
    assumption
    assumption
    apply pushOut_kept
    assumption
    rename_i ih; apply ih
    apply pushOut_kept
    assumption
    apply pushOut_kept
    assumption
    assumption
    apply bumpBy_kept
    apply modJob_kept
    assumption
    rename_i ih; apply ih
    apply segmentDone_kept
    assumption

theorem takeUp_kept (j : Nat) (s : State) (h_s : Kept q0 s) : Kept q0 (takeUp j s) := by
  unfold takeUp
  with_reducible
    split
    assumption
    apply runJob_kept
    apply setPipe_kept
    apply modJob_kept
    assumption

theorem leaveJob_kept (decomp : Bool) (s : State) (h_s : Kept q0 s) : Kept q0 (leaveJob decomp s) := by
  unfold leaveJob
  with_reducible
    split
    assumption
    apply bump_kept
    apply setPipe_kept
    apply modJob_kept
    assumption

theorem freeJob_kept (j : Nat) (v : Job) (s : State) (h_s : Kept q0 s) : Kept q0 (freeJob j v s) := by
  have hu : ∀ n t, Kept q0 t → Kept q0 (match getRing t v.owner n with
      | some r => if r.use = .dill j then setRing v.owner n { r with use := .unbound } t else t
      | none => t) := by
    intro n t ht
    split
    · exact kept_ite (setRing_kept _ _ _ _ ht) ht
    · exact ht
  have h1 : Kept q0 (match getRing s v.owner v.inRing with
      | some r => if r.use = .dill j then flushRing v.owner v.inRing s else s
      | none => s) := by
    split
    · exact kept_ite (flushRing_kept _ _ _ h_s) h_s
    · exact h_s
  unfold freeJob
  extract_lets unbind s1 s2 s3 b1 s4
  have h2 : Kept q0 s2 := hu _ _ (hu _ _ h1)
  clear_value s2
  have h3 : Kept q0 s3 := kept_ite (setPipe_kept _ _ _ h2) h2
  clear_value s3
  have h4 : Kept q0 s4 := kept_imp h3 rfl rfl rfl rfl
  clear_value s4
  exact completeOpt_kept _ _ _ _ (kept_ite h4 (jobDone_kept _ _ _ _ h4))

theorem execDillConfig_kept (h : Hdr) (p : DillConfigP) (s : State) (h_s : Kept q0 s) : KeptOut q0 (execDillConfig h p s) := by
  unfold execDillConfig
  with_reducible
    refine keptOut_next ?_
    apply vci_kept
    extract_lets +onlyGivenNames x
    intro _
    extract_lets +onlyGivenNames x
    intro _
    apply done_kept
    extract_lets +onlyGivenNames x
    refine kept_upd rfl ?_ rfl rfl rfl
    assumption
    assumption

theorem execDillJobOpen_kept (h : Hdr) (p : DillOpenP) (s : State) (h_s : Kept q0 s) : KeptOut q0 (execDillJobOpen h p s) := by
  unfold execDillJobOpen
  with_reducible
    extract_lets +onlyGivenNames x
    refine keptOut_next ?_
    apply vci_kept
    extract_lets +onlyGivenNames x
    intro _
    extract_lets +onlyGivenNames x
    extract_lets +onlyGivenNames x
    intro _
    split
    apply refuse_kept
    assumption
    apply doneWith_kept
    apply bump_kept
    apply bindRing_kept
    apply bindRing_kept
    extract_lets +onlyGivenNames x
    refine kept_upd rfl ?_ rfl rfl rfl
    assumption
    assumption

theorem execDillJobClose_kept (h : Hdr) (p : DillCloseP) (s : State) (h_s : Kept q0 s) : KeptOut q0 (execDillJobClose h p s) := by
  unfold execDillJobClose
  with_reducible
    extract_lets +onlyGivenNames x
    refine keptOut_next ?_
    apply vci_kept
    extract_lets +onlyGivenNames x
    intro _
    intro _
    dsimp -zeta only
    split
    apply refuse_kept
    assumption
    refine kept_iter ?_ ?_
    apply refuse_kept
    assumption
    apply modJob_kept
    apply startLong_kept
    assumption
    assumption

theorem execDillJobFreed_kept (job : BitVec 6) (s : State) (h_s : Kept q0 s) : KeptOut q0 (execDillJobFreed job s) := by
  unfold execDillJobFreed
  with_reducible
    refine keptOut_next ?_
    extract_lets +onlyGivenNames x
    split
    refine kept_ite ?_ ?_
    apply freeJob_kept
    assumption
    assumption
    assumption

theorem execDillSegment_kept (seg : DillSegmentP) (s : State) (h_s : Kept q0 s) : KeptOut q0 (execDillSegment seg s) := by
  unfold execDillSegment
  with_reducible
    extract_lets +onlyGivenNames x
    extract_lets +onlyGivenNames x
    refine keptOut_next ?_
    extract_lets +onlyGivenNames x
    split
    assumption
    refine kept_ite ?_ ?_
    assumption
    refine kept_ite ?_ ?_
    apply completeSegment_kept
    assumption
    extract_lets +onlyGivenNames x; refine kept_cut x ?_ ?_ <;> [(subst x); (clear_value x; intro _)]
    apply modJob_kept
    apply poisonDma_kept
    assumption
    split
    apply takeUp_kept
    assumption
    refine kept_ite ?_ ?_
    apply runJob_kept
    assumption
    refine kept_ite ?_ ?_
    assumption
    apply takeUp_kept
    apply leaveJob_kept
    assumption

theorem execDillJobSwitch_kept (decomp : Bool) (s : State) (h_s : Kept q0 s) : KeptOut q0 (execDillJobSwitch decomp s) := by
  unfold execDillJobSwitch
  with_reducible
    refine keptOut_next ?_
    extract_lets +onlyGivenNames x
    split
    apply takeUp_kept
    apply leaveJob_kept
    assumption
    split
    apply runJob_kept
    assumption
    assumption

theorem execOscScreenConfig_kept (h : Hdr) (p : OscScreenConfigP) (s : State) (h_s : Kept q0 s) : KeptOut q0 (execOscScreenConfig h p s) := by
  unfold execOscScreenConfig
  with_reducible
    refine keptOut_next ?_
    apply vci_kept
    extract_lets +onlyGivenNames x
    intro _
    extract_lets +onlyGivenNames x
    intro _
    apply done_kept
    apply newOscSet_kept
    assumption
    assumption

theorem execOscEstConfig_kept (h : Hdr) (p : OscEstConfigP) (s : State) (h_s : Kept q0 s) : KeptOut q0 (execOscEstConfig h p s) := by
  unfold execOscEstConfig
  with_reducible
    refine keptOut_next ?_
    apply vci_kept
    extract_lets +onlyGivenNames x
    intro _
    extract_lets +onlyGivenNames x
    intro _
    apply done_kept
    apply newOscSet_kept
    assumption
    assumption

theorem execOscAlarmConfig_kept (h : Hdr) (p : OscAlarmConfigP) (s : State) (h_s : Kept q0 s) : KeptOut q0 (execOscAlarmConfig h p s) := by
  unfold execOscAlarmConfig
  with_reducible
    refine keptOut_next ?_
    apply vci_kept
    extract_lets +onlyGivenNames x
    intro _
    extract_lets +onlyGivenNames x
    intro _
    apply done_kept
    apply newOscSet_kept
    assumption
    assumption

theorem execOscWatchAdd_kept (h : Hdr) (p : OscWatchP) (s : State) (h_s : Kept q0 s) : KeptOut q0 (execOscWatchAdd h p s) := by
  unfold execOscWatchAdd
  with_reducible
    extract_lets +onlyGivenNames x
    refine keptOut_next ?_
    apply vci_kept
    extract_lets +onlyGivenNames x
    intro _
    extract_lets +onlyGivenNames x
    intro _
    split
    apply refuse_kept
    assumption
    apply done_kept
    extract_lets +onlyGivenNames x
    split
    apply modSlot_kept
    extract_lets +onlyGivenNames x
    refine kept_upd rfl ?_ rfl rfl rfl
    assumption
    refine kept_upd rfl ?_ rfl rfl rfl
    assumption
    assumption

theorem execOscWatchRemove_kept (h : Hdr) (p : OscWatchP) (s : State) (h_s : Kept q0 s) : KeptOut q0 (execOscWatchRemove h p s) := by
  unfold execOscWatchRemove
  with_reducible
    extract_lets +onlyGivenNames x
    refine keptOut_next ?_
    apply vci_kept
    extract_lets +onlyGivenNames x
    intro _
    extract_lets +onlyGivenNames x
    extract_lets +onlyGivenNames x
    intro _
    apply done_kept
    extract_lets +onlyGivenNames x; refine kept_cut x ?_ ?_ <;> [(subst x); (clear_value x; intro _)]
    refine kept_upd rfl ?_ rfl rfl rfl
    assumption
    split
    refine kept_ite ?_ ?_
    apply modSlot_kept
    assumption
    apply modSlot_kept
    assumption
    assumption
    assumption

theorem execOscBranchAdd_kept (h : Hdr) (p : OscBranchP) (s : State) (h_s : Kept q0 s) : KeptOut q0 (execOscBranchAdd h p s) := by
  unfold execOscBranchAdd
  with_reducible
    extract_lets +onlyGivenNames x
    refine keptOut_next ?_
    apply vci_kept
    extract_lets +onlyGivenNames x
    intro _
    extract_lets +onlyGivenNames x
    intro _
    split
    apply refuse_kept
    assumption
    apply doneWith_kept
    extract_lets +onlyGivenNames x
    refine kept_upd rfl ?_ rfl rfl rfl
    assumption
    assumption

theorem execOscBranchRemove_kept (h : Hdr) (p : OscBranchP) (s : State) (h_s : Kept q0 s) : KeptOut q0 (execOscBranchRemove h p s) := by
  unfold execOscBranchRemove
  with_reducible
    extract_lets +onlyGivenNames x
    refine keptOut_next ?_
    apply vci_kept
    extract_lets +onlyGivenNames x
    intro _
    extract_lets +onlyGivenNames x
    intro _
    apply doneWith_kept
    extract_lets +onlyGivenNames x
    refine kept_upd rfl ?_ rfl rfl rfl
    assumption
    assumption

theorem relearnChan_kept (ch : Nat) (s : State) (h_s : Kept q0 s) : Kept q0 (relearnChan ch s) := by
  unfold relearnChan
  with_reducible
    extract_lets +onlyGivenNames x; refine kept_cut x ?_ ?_ <;> [(subst x); (clear_value x; intro _)]
    split
    apply bumpIf_kept
    apply setScr_kept
    assumption
    assumption
    extract_lets +onlyGivenNames x; refine kept_cut x ?_ ?_ <;> [(subst x); (clear_value x; intro _)]
    apply bump_kept
    assumption
    split
    apply freeEst_kept
    assumption
    assumption

theorem execOscRelearn_kept (h : Hdr) (p : OscRelearnP) (s : State) (h_s : Kept q0 s) : KeptOut q0 (execOscRelearn h p s) := by
  unfold execOscRelearn
  with_reducible
    extract_lets +onlyGivenNames x
    refine keptOut_next ?_
    apply vci_kept
    extract_lets +onlyGivenNames x
    intro _
    extract_lets +onlyGivenNames x
    intro _
    apply done_kept
    apply raise_kept
    extract_lets +onlyGivenNames x
    refine kept_foldl (fun t x ht => ?_) ?_
    apply relearnChan_kept
    assumption
    assumption
    assumption

theorem execOscOutputBind_kept (h : Hdr) (p : OscOutputBindP) (s : State) (h_s : Kept q0 s) : KeptOut q0 (execOscOutputBind h p s) := by
  unfold execOscOutputBind
  with_reducible
    refine keptOut_next ?_
    apply vci_kept
    extract_lets +onlyGivenNames x
    intro _
    extract_lets +onlyGivenNames x
    extract_lets +onlyGivenNames x
    extract_lets +onlyGivenNames x
    intro _
    split
    refine kept_iter ?_ ?_
    apply done_kept
    apply unbindRing_kept
    extract_lets +onlyGivenNames x
    refine kept_upd rfl ?_ rfl rfl rfl
    extract_lets +onlyGivenNames x
    refine kept_upd rfl ?_ rfl rfl rfl
    assumption
    apply refuse_kept
    assumption
    refine kept_iter ?_ ?_
    apply done_kept
    extract_lets +onlyGivenNames x
    refine kept_upd rfl ?_ rfl rfl rfl
    assumption
    apply done_kept
    apply bindRing_kept
    extract_lets +onlyGivenNames x
    refine kept_upd rfl ?_ rfl rfl rfl
    extract_lets +onlyGivenNames x
    refine kept_upd rfl ?_ rfl rfl rfl
    assumption
    assumption

theorem screenSlab_kept (g k : Nat) (s : State) (h_s : Kept q0 s) : Kept q0 (screenSlab g k s) := by
  unfold screenSlab
  with_reducible
    refine kept_ite ?_ ?_
    apply rankPass_kept
    extract_lets +onlyGivenNames x
    refine kept_foldl (fun t x ht => ?_) ?_
    apply screenChan_kept
    assumption
    extract_lets +onlyGivenNames x
    refine kept_upd rfl ?_ rfl rfl rfl
    assumption
    extract_lets +onlyGivenNames x
    refine kept_foldl (fun t x ht => ?_) ?_
    apply screenChan_kept
    assumption
    extract_lets +onlyGivenNames x
    refine kept_upd rfl ?_ rfl rfl rfl
    assumption

theorem screenFixes_kept (g k : Nat) (fixes : List (Nat × Nat)) (s : State) (h_s : Kept q0 s) : Kept q0 (screenFixes g k fixes s) := by
  unfold screenFixes
  with_reducible
    refine kept_foldl (fun t x ht => ?_) ?_
    refine kept_ite ?_ ?_
    apply patchChan_kept
    assumption
    assumption
    assumption

theorem execScreenStep_kept (grid : BitVec 5) (tag : U64) (s : State) (h_s : Kept q0 s) : KeptOut q0 (execScreenStep grid tag s) := by
  unfold execScreenStep
  with_reducible
    extract_lets +onlyGivenNames x
    extract_lets +onlyGivenNames x
    refine keptOut_next ?_
    extract_lets +onlyGivenNames x
    split
    assumption
    refine kept_ite ?_ ?_
    assumption
    apply underSlab_kept
    apply screenSlab_kept
    apply modSlab_kept
    assumption

theorem execScreenPatchFix_kept (grid : BitVec 5) (tag : U64) (s : State) (h_s : Kept q0 s) : KeptOut q0 (execScreenPatchFix grid tag s) := by
  unfold execScreenPatchFix
  with_reducible
    extract_lets +onlyGivenNames x
    extract_lets +onlyGivenNames x
    extract_lets +onlyGivenNames x
    refine keptOut_next ?_
    extract_lets +onlyGivenNames x; refine kept_cut x ?_ ?_ <;> [(subst x); (clear_value x; intro _)]
    apply modSlab_kept
    assumption
    split
    assumption
    refine kept_ite ?_ ?_
    assumption
    refine kept_ite ?_ ?_
    apply bumpBy_kept
    assumption
    apply underSlab_kept
    apply screenFixes_kept
    assumption

theorem estimatorWork_kept (n k : Nat) (s : State) (h_s : Kept q0 s) : Kept q0 (estimatorWork n k s) := by
  unfold estimatorWork
  with_reducible
    dsimp -zeta only
    split
    assumption
    refine kept_ite ?_ ?_
    assumption
    refine kept_ite ?_ ?_
    apply estOutput_kept
    apply ampCondition_kept
    apply bumpIf_kept
    apply bump_kept
    apply modSlot_kept
    apply estResult_kept
    assumption
    apply flowBranches_kept
    refine kept_ite ?_ ?_
    apply wholeSecond_kept
    apply estOutput_kept
    apply ampCondition_kept
    apply bumpIf_kept
    apply bump_kept
    apply modSlot_kept
    apply estResult_kept
    assumption
    apply estOutput_kept
    apply ampCondition_kept
    apply bumpIf_kept
    apply bump_kept
    apply modSlot_kept
    apply estResult_kept
    assumption

theorem execEstimatorStep_kept (slot : U16) (tag : U64) (s : State) (h_s : Kept q0 s) : KeptOut q0 (execEstimatorStep slot tag s) := by
  unfold execEstimatorStep
  with_reducible
    extract_lets +onlyGivenNames x
    refine keptOut_next ?_
    apply inTurn_kept
    extract_lets +onlyGivenNames x
    intro _
    apply underSlab_kept
    apply estimatorWork_kept
    assumption

theorem execEstimatorHoldExpiry_kept (slot : U16) (s : State) (h_s : Kept q0 s) : KeptOut q0 (execEstimatorHoldExpiry slot s) := by
  unfold execEstimatorHoldExpiry
  with_reducible
    extract_lets +onlyGivenNames x
    refine keptOut_next ?_
    extract_lets +onlyGivenNames x
    split
    assumption
    refine kept_ite ?_ ?_
    apply freeEst_kept
    assumption
    assumption

theorem updateTq_kept (s : State) (h_s : Kept q0 s) : Kept q0 (updateTq s) := by
  unfold updateTq
  with_reducible
    refine kept_ite ?_ ?_
    extract_lets +onlyGivenNames x
    refine kept_upd rfl ?_ rfl rfl rfl
    assumption
    apply raise_kept
    apply noteTq_kept
    refine kept_ite2 ?_ ?_
    apply fresh_kept
    extract_lets +onlyGivenNames x
    refine kept_upd rfl ?_ rfl rfl rfl
    assumption
    extract_lets +onlyGivenNames x
    dsimp -zeta only
    refine kept_upd rfl ?_ rfl rfl rfl
    assumption

theorem setClk_kept (st : ClkState) (s : State) (h_s : Kept q0 s) : Kept q0 (setClk st s) := by
  unfold setClk
  with_reducible
    refine kept_ite ?_ ?_
    assumption
    extract_lets +onlyGivenNames x
    split
    apply bump_kept
    extract_lets +onlyGivenNames x
    refine kept_upd rfl ?_ rfl rfl rfl
    assumption
    refine kept_upd rfl ?_ rfl rfl rfl
    assumption
    refine kept_upd rfl ?_ rfl rfl rfl
    assumption

theorem setPtp_kept (k : Nat) (v : PtpPort) (s : State) (h_s : Kept q0 s) : Kept q0 (setPtp k v s) := by
  unfold setPtp
  with_reducible
    extract_lets +onlyGivenNames x
    refine kept_upd rfl ?_ rfl rfl rfl
    assumption

theorem applyUtc_kept (s : State) (h_s : Kept q0 s) : Kept q0 (applyUtc s) := by
  unfold applyUtc
  with_reducible
    extract_lets +onlyGivenNames x
    split
    refine kept_ite ?_ ?_
    extract_lets +onlyGivenNames x
    refine kept_upd rfl ?_ rfl rfl rfl
    assumption
    extract_lets +onlyGivenNames x
    refine kept_upd rfl ?_ rfl rfl rfl
    assumption
    refine kept_upd rfl ?_ rfl rfl rfl
    assumption

theorem selectSrc_kept (s : State) (h_s : Kept q0 s) : Kept q0 (selectSrc s) := by
  unfold selectSrc
  with_reducible
    refine kept_ite ?_ ?_
    extract_lets +onlyGivenNames x
    split
    refine kept_upd rfl ?_ rfl rfl rfl
    assumption
    refine kept_upd rfl ?_ rfl rfl rfl
    assumption
    refine kept_ite ?_ ?_
    extract_lets +onlyGivenNames x
    refine kept_upd rfl ?_ rfl rfl rfl
    assumption
    extract_lets +onlyGivenNames x
    split
    refine kept_ite ?_ ?_
    extract_lets +onlyGivenNames x
    refine kept_upd rfl ?_ rfl rfl rfl
    assumption
    extract_lets +onlyGivenNames x
    refine kept_upd rfl ?_ rfl rfl rfl
    assumption
    refine kept_ite ?_ ?_
    extract_lets +onlyGivenNames x
    refine kept_upd rfl ?_ rfl rfl rfl
    assumption
    extract_lets +onlyGivenNames x
    refine kept_upd rfl ?_ rfl rfl rfl
    assumption

theorem noneLeft_kept (s : State) (h_s : Kept q0 s) : Kept q0 (noneLeft s) := by
  unfold noneLeft
  with_reducible
    refine kept_ite ?_ ?_
    assumption
    refine kept_ite ?_ ?_
    apply updateTq_kept
    apply raise_kept
    apply setClk_kept
    assumption
    refine kept_ite ?_ ?_
    apply updateTq_kept
    apply raise_kept
    apply setClk_kept
    assumption
    assumption

theorem loseSrc_kept (x : Src) (s : State) (h_s : Kept q0 s) : Kept q0 (loseSrc x s) := by
  unfold loseSrc
  with_reducible
    refine kept_ite ?_ ?_
    apply noneLeft_kept
    apply selectSrc_kept
    apply applyUtc_kept
    extract_lets +onlyGivenNames x
    refine kept_upd rfl ?_ rfl rfl rfl
    assumption
    apply noneLeft_kept
    apply selectSrc_kept
    assumption

theorem forgetEvidence_kept (s : State) (h_s : Kept q0 s) : Kept q0 (forgetEvidence s) := by
  unfold forgetEvidence
  with_reducible
    extract_lets +onlyGivenNames x
    refine kept_upd rfl ?_ rfl rfl rfl
    assumption

theorem restartDue_kept (s : State) (h_s : Kept q0 s) : Kept q0 (restartDue s) := by
  unfold restartDue
  with_reducible
    extract_lets +onlyGivenNames x
    extract_lets +onlyGivenNames x
    extract_lets +onlyGivenNames x
    refine kept_upd rfl ?_ rfl rfl rfl
    assumption

theorem runStep_kept (cause part new : Nat) (frac : U32) (s : State) (h_s : Kept q0 s) : Kept q0 (runStep cause part new frac s) := by
  have h1 : Kept q0 (if s.clk.timeValid then capStep (taiNs s) new { s with ing := { s.ing with discUntilEl := some (elNs s + 4000000000) } } else s) :=
    kept_ite (capStep_kept _ _ _ (kept_imp h_s rfl rfl rfl rfl)) h_s
  unfold runStep
  extract_lets old b0 s1 s2
  have h2 : Kept q0 s2 := stepRelease_kept _ h1
  clear_value s2
  have h3 := cancelLaunches_kept _ h2
  split
  rename_i n s3 heq
  rw [heq] at h3
  clear heq
  extract_lets k s4 s5 c6 y6 s6 s7 c8 e8 s8 s9
  have h5 : Kept q0 s5 := raise_kept _ _ _ _ _ (bumpBy_kept _ _ _ (annRelease_kept _ (dropTimed_kept _ _ (cancelTriggers_kept _ h3))))
  clear_value s5
  have h6 : Kept q0 s6 := kept_time h5 _ rfl rfl rfl rfl
  have h7 : Kept q0 s7 := raise_kept _ _ _ _ _ (bump_kept _ _ h6)
  clear_value s7
  have h8 : Kept q0 s8 := kept_imp h7 rfl rfl rfl rfl
  clear_value s8
  exact updateTq_kept _ (kickPorts_kept _ (restartDue_kept _ (sageStep_kept _ _ (forgetEvidence_kept _ (kept_ite h8 (setClk_kept _ _ h8))))))

theorem servoRate_kept (offset : Int) (s0 : State) (h_s0 : Kept q0 s0) : Kept q0 (servoRate offset s0) := by
  unfold servoRate
  with_reducible
    apply raiseIf_kept
    extract_lets +onlyGivenNames x
    split
    split
    split
    split
    split
    refine kept_upd rfl ?_ rfl rfl rfl
    apply fresh_kept
    apply fresh_kept
    assumption
    split
    refine kept_upd rfl ?_ rfl rfl rfl
    apply fresh_kept
    apply fresh_kept
    assumption
    refine kept_upd rfl ?_ rfl rfl rfl
    apply fresh_kept
    apply fresh_kept
    assumption
    split
    refine kept_upd rfl ?_ rfl rfl rfl
    apply fresh_kept
    apply fresh_kept
    assumption
    split
    refine kept_upd rfl ?_ rfl rfl rfl
    apply fresh_kept
    apply fresh_kept
    assumption
    refine kept_upd rfl ?_ rfl rfl rfl
    apply fresh_kept
    apply fresh_kept
    assumption
    split
    split
    refine kept_upd rfl ?_ rfl rfl rfl
    apply fresh_kept
    apply fresh_kept
    assumption
    split
    refine kept_upd rfl ?_ rfl rfl rfl
    apply fresh_kept
    apply fresh_kept
    assumption
    refine kept_upd rfl ?_ rfl rfl rfl
    apply fresh_kept
    apply fresh_kept
    assumption
    split
    refine kept_upd rfl ?_ rfl rfl rfl
    apply fresh_kept
    apply fresh_kept
    assumption
    split
    refine kept_upd rfl ?_ rfl rfl rfl
    apply fresh_kept
    apply fresh_kept
    assumption
    refine kept_upd rfl ?_ rfl rfl rfl
    apply fresh_kept
    apply fresh_kept
    assumption
    split
    split
    split
    split
    refine kept_upd rfl ?_ rfl rfl rfl
    apply fresh_kept
    apply fresh_kept
    assumption
    split
    refine kept_upd rfl ?_ rfl rfl rfl
    apply fresh_kept
    apply fresh_kept
    assumption
    refine kept_upd rfl ?_ rfl rfl rfl
    apply fresh_kept
    apply fresh_kept
    assumption
    split
    refine kept_upd rfl ?_ rfl rfl rfl
    apply fresh_kept
    apply fresh_kept
    assumption
    split
    refine kept_upd rfl ?_ rfl rfl rfl
    apply fresh_kept
    apply fresh_kept
    assumption
    refine kept_upd rfl ?_ rfl rfl rfl
    apply fresh_kept
    apply fresh_kept
    assumption
    split
    split
    refine kept_upd rfl ?_ rfl rfl rfl
    apply fresh_kept
    apply fresh_kept
    assumption
    split
    refine kept_upd rfl ?_ rfl rfl rfl
    apply fresh_kept
    apply fresh_kept
    assumption
    refine kept_upd rfl ?_ rfl rfl rfl
    apply fresh_kept
    apply fresh_kept
    assumption
    split
    refine kept_upd rfl ?_ rfl rfl rfl
    apply fresh_kept
    apply fresh_kept
    assumption
    split
    refine kept_upd rfl ?_ rfl rfl rfl
    apply fresh_kept
    apply fresh_kept
    assumption
    refine kept_upd rfl ?_ rfl rfl rfl
    apply fresh_kept
    apply fresh_kept
    assumption
    split
    split
    split
    refine kept_upd rfl ?_ rfl rfl rfl
    apply fresh_kept
    apply fresh_kept
    assumption
    split
    refine kept_upd rfl ?_ rfl rfl rfl
    apply fresh_kept
    apply fresh_kept
    assumption
    refine kept_upd rfl ?_ rfl rfl rfl
    apply fresh_kept
    apply fresh_kept
    assumption
    split
    refine kept_upd rfl ?_ rfl rfl rfl
    apply fresh_kept
    apply fresh_kept
    assumption
    split
    refine kept_upd rfl ?_ rfl rfl rfl
    apply fresh_kept
    apply fresh_kept
    assumption
    refine kept_upd rfl ?_ rfl rfl rfl
    apply fresh_kept
    apply fresh_kept
    assumption
    split
    split
    refine kept_upd rfl ?_ rfl rfl rfl
    apply fresh_kept
    apply fresh_kept
    assumption
    split
    refine kept_upd rfl ?_ rfl rfl rfl
    apply fresh_kept
    apply fresh_kept
    assumption
    refine kept_upd rfl ?_ rfl rfl rfl
    apply fresh_kept
    apply fresh_kept
    assumption
    split
    refine kept_upd rfl ?_ rfl rfl rfl
    apply fresh_kept
    apply fresh_kept
    assumption
    split
    refine kept_upd rfl ?_ rfl rfl rfl
    apply fresh_kept
    apply fresh_kept
    assumption
    refine kept_upd rfl ?_ rfl rfl rfl
    apply fresh_kept
    apply fresh_kept
    assumption
    split
    split
    split
    split
    refine kept_upd rfl ?_ rfl rfl rfl
    apply fresh_kept
    apply fresh_kept
    assumption
    split
    refine kept_upd rfl ?_ rfl rfl rfl
    apply fresh_kept
    apply fresh_kept
    assumption
    refine kept_upd rfl ?_ rfl rfl rfl
    apply fresh_kept
    apply fresh_kept
    assumption
    split
    refine kept_upd rfl ?_ rfl rfl rfl
    apply fresh_kept
    apply fresh_kept
    assumption
    split
    refine kept_upd rfl ?_ rfl rfl rfl
    apply fresh_kept
    apply fresh_kept
    assumption
    refine kept_upd rfl ?_ rfl rfl rfl
    apply fresh_kept
    apply fresh_kept
    assumption
    split
    split
    refine kept_upd rfl ?_ rfl rfl rfl
    apply fresh_kept
    apply fresh_kept
    assumption
    split
    refine kept_upd rfl ?_ rfl rfl rfl
    apply fresh_kept
    apply fresh_kept
    assumption
    refine kept_upd rfl ?_ rfl rfl rfl
    apply fresh_kept
    apply fresh_kept
    assumption
    split
    refine kept_upd rfl ?_ rfl rfl rfl
    apply fresh_kept
    apply fresh_kept
    assumption
    split
    refine kept_upd rfl ?_ rfl rfl rfl
    apply fresh_kept
    apply fresh_kept
    assumption
    refine kept_upd rfl ?_ rfl rfl rfl
    apply fresh_kept
    apply fresh_kept
    assumption
    split
    split
    split
    split
    refine kept_upd rfl ?_ rfl rfl rfl
    apply fresh_kept
    apply fresh_kept
    assumption
    split
    refine kept_upd rfl ?_ rfl rfl rfl
    apply fresh_kept
    apply fresh_kept
    assumption
    refine kept_upd rfl ?_ rfl rfl rfl
    apply fresh_kept
    apply fresh_kept
    assumption
    split
    refine kept_upd rfl ?_ rfl rfl rfl
    apply fresh_kept
    apply fresh_kept
    assumption
    split
    refine kept_upd rfl ?_ rfl rfl rfl
    apply fresh_kept
    apply fresh_kept
    assumption
    refine kept_upd rfl ?_ rfl rfl rfl
    apply fresh_kept
    apply fresh_kept
    assumption
    split
    split
    refine kept_upd rfl ?_ rfl rfl rfl
    apply fresh_kept
    apply fresh_kept
    assumption
    split
    refine kept_upd rfl ?_ rfl rfl rfl
    apply fresh_kept
    apply fresh_kept
    assumption
    refine kept_upd rfl ?_ rfl rfl rfl
    apply fresh_kept
    apply fresh_kept
    assumption
    split
    refine kept_upd rfl ?_ rfl rfl rfl
    apply fresh_kept
    apply fresh_kept
    assumption
    split
    refine kept_upd rfl ?_ rfl rfl rfl
    apply fresh_kept
    apply fresh_kept
    assumption
    refine kept_upd rfl ?_ rfl rfl rfl
    apply fresh_kept
    apply fresh_kept
    assumption
    split
    split
    split
    refine kept_upd rfl ?_ rfl rfl rfl
    apply fresh_kept
    apply fresh_kept
    assumption
    split
    refine kept_upd rfl ?_ rfl rfl rfl
    apply fresh_kept
    apply fresh_kept
    assumption
    refine kept_upd rfl ?_ rfl rfl rfl
    apply fresh_kept
    apply fresh_kept
    assumption
    split
    refine kept_upd rfl ?_ rfl rfl rfl
    apply fresh_kept
    apply fresh_kept
    assumption
    split
    refine kept_upd rfl ?_ rfl rfl rfl
    apply fresh_kept
    apply fresh_kept
    assumption
    refine kept_upd rfl ?_ rfl rfl rfl
    apply fresh_kept
    apply fresh_kept
    assumption
    split
    split
    refine kept_upd rfl ?_ rfl rfl rfl
    apply fresh_kept
    apply fresh_kept
    assumption
    split
    refine kept_upd rfl ?_ rfl rfl rfl
    apply fresh_kept
    apply fresh_kept
    assumption
    refine kept_upd rfl ?_ rfl rfl rfl
    apply fresh_kept
    apply fresh_kept
    assumption
    split
    refine kept_upd rfl ?_ rfl rfl rfl
    apply fresh_kept
    apply fresh_kept
    assumption
    split
    refine kept_upd rfl ?_ rfl rfl rfl
    apply fresh_kept
    apply fresh_kept
    assumption
    refine kept_upd rfl ?_ rfl rfl rfl
    apply fresh_kept
    apply fresh_kept
    assumption

theorem servo_kept (offset : Int) (s0 : State) (h_s0 : Kept q0 s0) : Kept q0 (servo offset s0) := by
  unfold servo
  with_reducible
    refine kept_ite ?_ ?_
    apply updateTq_kept
    apply setClk_kept
    apply applyUtc_kept
    extract_lets +onlyGivenNames x
    dsimp -zeta only
    refine kept_upd rfl ?_ rfl rfl rfl
    assumption
    apply updateTq_kept
    extract_lets +onlyGivenNames x
    extract_lets +onlyGivenNames x
    extract_lets +onlyGivenNames x
    extract_lets +onlyGivenNames x; refine kept_cut x ?_ ?_ <;> [(subst x); (clear_value x; intro _)]
    dsimp -zeta only
    refine kept_upd rfl ?_ rfl rfl rfl
    apply servoRate_kept
    apply raiseIf_kept
    extract_lets +onlyGivenNames x
    refine kept_upd rfl ?_ rfl rfl rfl
    assumption
    extract_lets +onlyGivenNames x
    extract_lets +onlyGivenNames x; refine kept_cut x ?_ ?_ <;> [(subst x); (clear_value x; intro _)]
    dsimp -zeta only
    refine kept_upd rfl ?_ rfl rfl rfl
    apply servoRate_kept
    apply raiseIf_kept
    extract_lets +onlyGivenNames x
    refine kept_upd rfl ?_ rfl rfl rfl
    assumption
    dsimp -zeta only
    split
    refine kept_ite ?_ ?_
    apply raise_kept
    apply setClk_kept
    assumption
    assumption
    refine kept_ite ?_ ?_
    apply setClk_kept
    assumption
    assumption
    apply servoRate_kept
    apply raiseIf_kept
    extract_lets +onlyGivenNames x
    refine kept_upd rfl ?_ rfl rfl rfl
    assumption

theorem switchSrc_kept (x : Src) (offset : Int) (s : State) (h_s : Kept q0 s) : Kept q0 (switchSrc x offset s) := by
  have h1 : ∀ old, Kept q0 (applyUtc (bump 0x03000108 { s with clk := { s.clk with source := x, take := .none, better := none, lastSrc := old } })) :=
    fun old => applyUtc_kept _ (bump_kept _ _ (kept_imp h_s rfl rfl rfl rfl))
  unfold switchSrc
  extract_lets +onlyGivenNames old par src s1
  have h2 : Kept q0 s1 := h1 old
  clear_value s1
  refine kept_ite ?_ ?_
  · exact raise_kept _ _ _ _ _ (runStep_kept _ _ _ _ _ (kept_imp h2 rfl rfl rfl rfl))
  · extract_lets +onlyGivenNames s2 s3
    have h3 : Kept q0 s2 := raise_kept _ _ _ _ _ h2
    clear_value s2
    exact selectSrc_kept _ (servo_kept _ _ (kept_ite (setClk_kept _ _ h3) (kept_imp h3 rfl rfl rfl rfl)))

theorem servoUpdate_kept (x : Src) (offset : Int) (s0 : State) (h_s0 : Kept q0 s0) : Kept q0 (servoUpdate x offset s0) := by
  have h := selectSrc_kept _ h_s0
  exact kept_ite h_s0 (kept_ite (switchSrc_kept _ _ _ h) (kept_ite (servo_kept _ _ h) h))

theorem announceLeap_kept (deletion : Bool) (tai origin : Nat) (s : State) (h_s : Kept q0 s) : Kept q0 (announceLeap deletion tai origin s) := by
  unfold announceLeap
  with_reducible
    refine kept_ite ?_ ?_
    assumption
    apply raise_kept
    extract_lets +onlyGivenNames x
    refine kept_upd rfl ?_ rfl rfl rfl
    assumption

theorem ptpLeap_kept (leap61 leap59 : Bool) (s : State) (h_s : Kept q0 s) : Kept q0 (ptpLeap leap61 leap59 s) := by
  unfold ptpLeap
  with_reducible
    refine kept_ite ?_ ?_
    assumption
    refine kept_ite ?_ ?_
    apply announceLeap_kept
    assumption
    refine kept_ite ?_ ?_
    apply announceLeap_kept
    assumption
    extract_lets +onlyGivenNames x
    refine kept_upd rfl ?_ rfl rfl rfl
    assumption

theorem showMaster_kept (s : State) (h_s : Kept q0 s) : Kept q0 (showMaster s) := by
  unfold showMaster
  with_reducible
    extract_lets +onlyGivenNames x
    extract_lets +onlyGivenNames x
    extract_lets +onlyGivenNames x
    extract_lets +onlyGivenNames x
    split
    refine kept_upd rfl ?_ rfl rfl rfl
    assumption
    refine kept_upd rfl ?_ rfl rfl rfl
    assumption

theorem demote_kept (k : Nat) (s : State) (h_s : Kept q0 s) : Kept q0 (demote k s) := by
  unfold demote
  with_reducible
    refine kept_ite ?_ ?_
    apply showMaster_kept
    refine kept_ite ?_ ?_
    apply setPtp_kept
    assumption
    apply loseSrc_kept
    apply setPtp_kept
    assumption
    refine kept_ite ?_ ?_
    apply showMaster_kept
    apply applyUtc_kept
    extract_lets +onlyGivenNames x
    extract_lets +onlyGivenNames x
    refine kept_upd rfl ?_ rfl rfl rfl
    apply setPtp_kept
    assumption
    apply showMaster_kept
    apply loseSrc_kept
    apply setPtp_kept
    assumption

theorem promote_kept (k : Nat) (s : State) (h_s : Kept q0 s) : Kept q0 (promote k s) := by
  unfold promote
  with_reducible
    apply showMaster_kept
    apply applyUtc_kept
    apply selectSrc_kept
    refine kept_ite ?_ ?_
    apply setPtp_kept
    assumption
    extract_lets +onlyGivenNames x
    extract_lets +onlyGivenNames x
    refine kept_upd rfl ?_ rfl rfl rfl
    apply setPtp_kept
    assumption

theorem sendPtp_kept (k kind : Nat) (body : Bytes) (s : State) (h_s : Kept q0 s) : Kept q0 (sendPtp k kind body s) := by
  unfold sendPtp
  with_reducible
    apply sendOwn_kept
    assumption

theorem dropSources_kept (moved : Bool) (s : State) (h_s : Kept q0 s) : Kept q0 (dropSources moved s) := by
  unfold dropSources
  extract_lets c s1 b1 s2 b2 s3
  have h1 : Kept q0 s1 := kept_ite (showMaster_kept _ (kept_imp h_s rfl rfl rfl rfl)) (kept_ite h_s (showMaster_kept _ (kept_imp h_s rfl rfl rfl rfl)))
  clear_value s1
  have h2 : Kept q0 s2 := kept_ite h1 (kept_imp h1 rfl rfl rfl rfl)
  clear_value s2
  have h3 : Kept q0 s3 := kept_ite h2 (kept_imp h2 rfl rfl rfl rfl)
  clear_value s3
  exact kept_ite (loseSrc_kept _ _ h3) (noneLeft_kept _ (selectSrc_kept _ (applyUtc_kept _ h3)))

theorem execTimeSourceConfig_kept (h : Hdr) (p : TimeSourceConfigP) (s : State) (h_s : Kept q0 s) : KeptOut q0 (execTimeSourceConfig h p s) := by
  unfold execTimeSourceConfig
  with_reducible
    refine keptOut_next ?_
    apply vci_kept
    extract_lets +onlyGivenNames x
    intro _
    extract_lets +onlyGivenNames x
    extract_lets +onlyGivenNames x
    intro _
    apply done_kept
    apply dropSources_kept
    extract_lets +onlyGivenNames x
    refine kept_upd rfl ?_ rfl rfl rfl
    assumption
    assumption

theorem execTimeSlewConfig_kept (h : Hdr) (p : TimeSlewConfigP) (s : State) (h_s : Kept q0 s) : KeptOut q0 (execTimeSlewConfig h p s) := by
  unfold execTimeSlewConfig
  refine keptOut_next ?_
  refine vci_kept _ _ _ _ _ ?_ h_s
  intro t ht
  exact done_kept _ (kept_clk ht (confineSlew_ns _))

theorem execTimeHoldoverConfig_kept (h : Hdr) (p : TimeHoldoverConfigP) (s : State) (h_s : Kept q0 s) : KeptOut q0 (execTimeHoldoverConfig h p s) := by
  unfold execTimeHoldoverConfig
  with_reducible
    refine keptOut_next ?_
    apply vci_kept
    extract_lets +onlyGivenNames x
    intro _
    extract_lets +onlyGivenNames x
    intro _
    apply done_kept
    apply updateTq_kept
    extract_lets +onlyGivenNames x
    refine kept_upd rfl ?_ rfl rfl rfl
    assumption
    assumption

theorem execTimeUtcOffset_kept (h : Hdr) (p : TimeUtcOffsetP) (s : State) (h_s : Kept q0 s) : KeptOut q0 (execTimeUtcOffset h p s) := by
  unfold execTimeUtcOffset
  with_reducible
    refine keptOut_next ?_
    apply vci_kept
    extract_lets +onlyGivenNames x
    intro _
    extract_lets +onlyGivenNames x
    extract_lets +onlyGivenNames x
    extract_lets +onlyGivenNames x
    intro _
    refine kept_iter ?_ ?_
    apply refuse_kept
    assumption
    refine kept_iter ?_ ?_
    apply done_kept
    extract_lets +onlyGivenNames x
    refine kept_upd rfl ?_ rfl rfl rfl
    apply applyUtc_kept
    extract_lets +onlyGivenNames x
    refine kept_upd rfl ?_ rfl rfl rfl
    assumption
    apply done_kept
    apply announceLeap_kept
    apply applyUtc_kept
    extract_lets +onlyGivenNames x
    refine kept_upd rfl ?_ rfl rfl rfl
    assumption
    assumption

theorem execTimeStep_kept (h : Hdr) (p : TimeStepP) (s : State) (h_s : Kept q0 s) : KeptOut q0 (execTimeStep h p s) := by
  unfold execTimeStep
  with_reducible
    refine keptOut_next ?_
    apply vci_kept
    extract_lets +onlyGivenNames x
    intro _
    intro _
    refine kept_iter ?_ ?_
    apply refuse_kept
    assumption
    extract_lets +onlyGivenNames x
    dsimp -zeta only
    extract_lets +onlyGivenNames x
    refine kept_upd rfl ?_ rfl rfl rfl
    apply startLong_kept
    assumption
    assumption

theorem execTimeStepApply_kept (s : State) (h_s : Kept q0 s) : KeptOut q0 (execTimeStepApply s) := by
  unfold execTimeStepApply
  with_reducible
    extract_lets +onlyGivenNames x
    extract_lets +onlyGivenNames x
    refine keptOut_next ?_
    extract_lets +onlyGivenNames x
    split
    assumption
    apply completeLong_kept
    apply runStep_kept
    extract_lets +onlyGivenNames x
    refine kept_upd rfl ?_ rfl rfl rfl
    assumption

theorem execTimeRead_kept (h : Hdr) (s : State) (h_s : Kept q0 s) : KeptOut q0 (execTimeRead h s) := by
  unfold execTimeRead
  with_reducible
    refine keptOut_next ?_
    apply vci_kept
    extract_lets +onlyGivenNames x
    intro _
    apply doneWith_kept
    assumption

theorem takeAnnounce_kept (k : Nat) (m : AnnounceMsg) (s : State) (h_s : Kept q0 s) : Kept q0 (takeAnnounce k m s) := by
  unfold takeAnnounce
  with_reducible
    refine kept_ite ?_ ?_
    apply showMaster_kept
    refine kept_ite ?_ ?_
    refine kept_ite ?_ ?_
    apply demote_kept
    apply setPtp_kept
    assumption
    refine kept_ite ?_ ?_
    apply promote_kept
    apply setPtp_kept
    assumption
    apply setPtp_kept
    assumption
    refine kept_ite ?_ ?_
    apply setPtp_kept
    refine kept_ite ?_ ?_
    apply demote_kept
    assumption
    assumption
    assumption
    refine kept_ite ?_ ?_
    apply ptpLeap_kept
    apply showMaster_kept
    apply applyUtc_kept
    refine kept_ite ?_ ?_
    refine kept_ite ?_ ?_
    apply demote_kept
    apply setPtp_kept
    assumption
    refine kept_ite ?_ ?_
    apply promote_kept
    apply setPtp_kept
    assumption
    apply setPtp_kept
    assumption
    refine kept_ite ?_ ?_
    apply setPtp_kept
    refine kept_ite ?_ ?_
    apply demote_kept
    assumption
    assumption
    assumption
    apply showMaster_kept
    apply applyUtc_kept
    refine kept_ite ?_ ?_
    refine kept_ite ?_ ?_
    apply demote_kept
    apply setPtp_kept
    assumption
    refine kept_ite ?_ ?_
    apply promote_kept
    apply setPtp_kept
    assumption
    apply setPtp_kept
    assumption
    refine kept_ite ?_ ?_
    apply setPtp_kept
    refine kept_ite ?_ ?_
    apply demote_kept
    assumption
    assumption
    assumption

theorem execPtpAnnounceRx_kept (port : BitVec 4) (m : AnnounceMsg) (s : State) (h_s : Kept q0 s) : KeptOut q0 (execPtpAnnounceRx port m s) := by
  unfold execPtpAnnounceRx
  with_reducible
    extract_lets +onlyGivenNames x
    extract_lets +onlyGivenNames x
    refine keptOut_next ?_
    refine kept_ite ?_ ?_
    assumption
    refine kept_ite ?_ ?_
    apply bump_kept
    apply popIn_kept
    assumption
    refine kept_ite ?_ ?_
    apply takeAnnounce_kept
    apply popIn_kept
    assumption
    apply popIn_kept
    assumption

theorem execPtpSyncRx_kept (port : BitVec 4) (m : SyncMsg) (s : State) (h_s : Kept q0 s) : KeptOut q0 (execPtpSyncRx port m s) := by
  unfold execPtpSyncRx
  with_reducible
    extract_lets +onlyGivenNames x
    extract_lets +onlyGivenNames x
    extract_lets +onlyGivenNames x
    extract_lets +onlyGivenNames x
    refine keptOut_next ?_
    refine kept_ite ?_ ?_
    assumption
    refine kept_ite ?_ ?_
    apply servoUpdate_kept
    apply popIn_kept
    assumption
    apply popIn_kept
    assumption

theorem execPdelayReqRx_kept (m : PdelayReq) (s : State) (h_s : Kept q0 s) : KeptOut q0 (execPdelayReqRx m s) := by
  unfold execPdelayReqRx
  with_reducible
    extract_lets +onlyGivenNames x
    extract_lets +onlyGivenNames x
    refine keptOut_next ?_
    refine kept_ite ?_ ?_
    assumption
    refine kept_ite ?_ ?_
    apply sendPtp_kept
    apply popIn_kept
    assumption
    apply popIn_kept
    assumption

theorem execPdelayRespRx_kept (m : PdelayResp) (s : State) (h_s : Kept q0 s) : KeptOut q0 (execPdelayRespRx m s) := by
  unfold execPdelayRespRx
  with_reducible
    extract_lets +onlyGivenNames x
    extract_lets +onlyGivenNames x
    extract_lets +onlyGivenNames x
    refine keptOut_next ?_
    refine kept_ite ?_ ?_
    assumption
    extract_lets +onlyGivenNames x
    split
    refine kept_ite ?_ ?_
    apply showMaster_kept
    apply setPtp_kept
    apply popIn_kept
    assumption
    apply popIn_kept
    assumption
    apply popIn_kept
    assumption

theorem execPdelayReqTx_kept (port : BitVec 4) (s : State) (h_s : Kept q0 s) : KeptOut q0 (execPdelayReqTx port s) := by
  unfold execPdelayReqTx
  with_reducible
    extract_lets +onlyGivenNames x
    extract_lets +onlyGivenNames x
    extract_lets +onlyGivenNames x
    refine keptOut_next ?_
    refine kept_ite ?_ ?_
    apply sendPtp_kept
    apply setPtp_kept
    assumption
    assumption

theorem execPtpMasterTx_kept (port : BitVec 4) (s : State) (h_s : Kept q0 s) : KeptOut q0 (execPtpMasterTx port s) := by
  unfold execPtpMasterTx
  with_reducible
    extract_lets +onlyGivenNames x
    extract_lets +onlyGivenNames x
    extract_lets +onlyGivenNames x
    extract_lets +onlyGivenNames x
    refine keptOut_next ?_
    refine kept_ite ?_ ?_
    apply sendPtp_kept
    apply sendPtp_kept
    apply setPtp_kept
    assumption
    assumption

theorem execAnnounceReceiptTimeout_kept (port : BitVec 4) (s : State) (h_s : Kept q0 s) : KeptOut q0 (execAnnounceReceiptTimeout port s) := by
  unfold execAnnounceReceiptTimeout
  with_reducible
    extract_lets +onlyGivenNames x
    extract_lets +onlyGivenNames x
    refine keptOut_next ?_
    extract_lets +onlyGivenNames x
    split
    refine kept_ite ?_ ?_
    refine kept_ite ?_ ?_
    apply demote_kept
    apply setPtp_kept
    apply raise_kept
    apply bump_kept
    assumption
    apply showMaster_kept
    apply setPtp_kept
    apply raise_kept
    apply bump_kept
    assumption
    assumption
    assumption

theorem execPpsInEdge_kept (s : State) (h_s : Kept q0 s) : KeptOut q0 (execPpsInEdge s) := by
  unfold execPpsInEdge
  with_reducible
    extract_lets +onlyGivenNames x
    extract_lets +onlyGivenNames x
    extract_lets +onlyGivenNames x
    extract_lets +onlyGivenNames x
    extract_lets +onlyGivenNames x
    extract_lets +onlyGivenNames x
    extract_lets +onlyGivenNames x
    extract_lets +onlyGivenNames x
    extract_lets +onlyGivenNames x
    extract_lets +onlyGivenNames x
    extract_lets +onlyGivenNames x
    extract_lets +onlyGivenNames x
    extract_lets +onlyGivenNames x
    refine keptOut_next ?_
    refine kept_ite ?_ ?_
    assumption
    refine kept_ite ?_ ?_
    apply bump_kept
    extract_lets +onlyGivenNames x; refine kept_cut x ?_ ?_ <;> [(subst x); (clear_value x; intro _)]
    apply selectSrc_kept
    extract_lets +onlyGivenNames x
    refine kept_upd rfl ?_ rfl rfl rfl
    extract_lets +onlyGivenNames x
    refine kept_upd rfl ?_ rfl rfl rfl
    refine kept_ite ?_ ?_
    apply loseSrc_kept
    extract_lets +onlyGivenNames x
    refine kept_upd rfl ?_ rfl rfl rfl
    extract_lets +onlyGivenNames x
    refine kept_upd rfl ?_ rfl rfl rfl
    assumption
    extract_lets +onlyGivenNames x
    refine kept_upd rfl ?_ rfl rfl rfl
    assumption
    refine kept_upd rfl ?_ rfl rfl rfl
    assumption
    refine kept_ite ?_ ?_
    apply servoUpdate_kept
    apply selectSrc_kept
    extract_lets +onlyGivenNames x; refine kept_cut x ?_ ?_ <;> [(subst x); (clear_value x; intro _)]
    apply selectSrc_kept
    extract_lets +onlyGivenNames x
    refine kept_upd rfl ?_ rfl rfl rfl
    extract_lets +onlyGivenNames x
    refine kept_upd rfl ?_ rfl rfl rfl
    refine kept_ite ?_ ?_
    apply loseSrc_kept
    extract_lets +onlyGivenNames x
    refine kept_upd rfl ?_ rfl rfl rfl
    extract_lets +onlyGivenNames x
    refine kept_upd rfl ?_ rfl rfl rfl
    assumption
    extract_lets +onlyGivenNames x
    refine kept_upd rfl ?_ rfl rfl rfl
    assumption
    refine kept_upd rfl ?_ rfl rfl rfl
    extract_lets +onlyGivenNames x
    refine kept_upd rfl ?_ rfl rfl rfl
    refine kept_ite ?_ ?_
    apply loseSrc_kept
    extract_lets +onlyGivenNames x
    refine kept_upd rfl ?_ rfl rfl rfl
    extract_lets +onlyGivenNames x
    refine kept_upd rfl ?_ rfl rfl rfl
    assumption
    extract_lets +onlyGivenNames x
    refine kept_upd rfl ?_ rfl rfl rfl
    assumption
    extract_lets +onlyGivenNames x; refine kept_cut x ?_ ?_ <;> [(subst x); (clear_value x; intro _)]
    apply selectSrc_kept
    extract_lets +onlyGivenNames x
    refine kept_upd rfl ?_ rfl rfl rfl
    extract_lets +onlyGivenNames x
    refine kept_upd rfl ?_ rfl rfl rfl
    refine kept_ite ?_ ?_
    apply loseSrc_kept
    extract_lets +onlyGivenNames x
    refine kept_upd rfl ?_ rfl rfl rfl
    extract_lets +onlyGivenNames x
    refine kept_upd rfl ?_ rfl rfl rfl
    assumption
    extract_lets +onlyGivenNames x
    refine kept_upd rfl ?_ rfl rfl rfl
    assumption
    refine kept_upd rfl ?_ rfl rfl rfl
    refine kept_ite ?_ ?_
    apply loseSrc_kept
    extract_lets +onlyGivenNames x
    refine kept_upd rfl ?_ rfl rfl rfl
    extract_lets +onlyGivenNames x
    refine kept_upd rfl ?_ rfl rfl rfl
    assumption
    extract_lets +onlyGivenNames x
    refine kept_upd rfl ?_ rfl rfl rfl
    assumption

theorem execPpsInLoss_kept (s : State) (h_s : Kept q0 s) : KeptOut q0 (execPpsInLoss s) := by
  unfold execPpsInLoss
  with_reducible
    extract_lets +onlyGivenNames x
    refine keptOut_next ?_
    refine kept_ite ?_ ?_
    apply loseSrc_kept
    extract_lets +onlyGivenNames x
    refine kept_upd rfl ?_ rfl rfl rfl
    assumption
    assumption

theorem execIrigFrame_kept (f : IrigFrame) (s : State) (h_s : Kept q0 s) : KeptOut q0 (execIrigFrame f s) := by
  unfold execIrigFrame
  with_reducible
    extract_lets +onlyGivenNames x
    extract_lets +onlyGivenNames x
    extract_lets +onlyGivenNames x
    extract_lets +onlyGivenNames x
    extract_lets +onlyGivenNames x
    extract_lets +onlyGivenNames x
    extract_lets +onlyGivenNames x
    extract_lets +onlyGivenNames x
    extract_lets +onlyGivenNames x
    extract_lets +onlyGivenNames x
    extract_lets +onlyGivenNames x
    extract_lets +onlyGivenNames x
    refine keptOut_next ?_
    refine kept_ite ?_ ?_
    assumption
    refine kept_ite ?_ ?_
    apply bump_kept
    assumption
    refine kept_ite ?_ ?_
    apply servoUpdate_kept
    extract_lets +onlyGivenNames x; refine kept_cut x ?_ ?_ <;> [(subst x); (clear_value x; intro _)]
    split
    refine kept_ite ?_ ?_
    apply applyUtc_kept
    apply selectSrc_kept
    extract_lets +onlyGivenNames x; refine kept_cut x ?_ ?_ <;> [(subst x); (clear_value x; intro _)]
    apply applyUtc_kept
    apply selectSrc_kept
    extract_lets +onlyGivenNames x
    refine kept_upd rfl ?_ rfl rfl rfl
    extract_lets +onlyGivenNames x
    refine kept_upd rfl ?_ rfl rfl rfl
    refine kept_ite ?_ ?_
    apply loseSrc_kept
    extract_lets +onlyGivenNames x
    refine kept_upd rfl ?_ rfl rfl rfl
    assumption
    assumption
    refine kept_upd rfl ?_ rfl rfl rfl
    extract_lets +onlyGivenNames x
    refine kept_upd rfl ?_ rfl rfl rfl
    refine kept_ite ?_ ?_
    apply loseSrc_kept
    extract_lets +onlyGivenNames x
    refine kept_upd rfl ?_ rfl rfl rfl
    assumption
    assumption
    apply announceLeap_kept
    apply applyUtc_kept
    apply selectSrc_kept
    extract_lets +onlyGivenNames x; refine kept_cut x ?_ ?_ <;> [(subst x); (clear_value x; intro _)]
    apply applyUtc_kept
    apply selectSrc_kept
    extract_lets +onlyGivenNames x
    refine kept_upd rfl ?_ rfl rfl rfl
    extract_lets +onlyGivenNames x
    refine kept_upd rfl ?_ rfl rfl rfl
    refine kept_ite ?_ ?_
    apply loseSrc_kept
    extract_lets +onlyGivenNames x
    refine kept_upd rfl ?_ rfl rfl rfl
    assumption
    assumption
    refine kept_upd rfl ?_ rfl rfl rfl
    extract_lets +onlyGivenNames x
    refine kept_upd rfl ?_ rfl rfl rfl
    refine kept_ite ?_ ?_
    apply loseSrc_kept
    extract_lets +onlyGivenNames x
    refine kept_upd rfl ?_ rfl rfl rfl
    assumption
    assumption
    apply applyUtc_kept
    apply selectSrc_kept
    extract_lets +onlyGivenNames x; refine kept_cut x ?_ ?_ <;> [(subst x); (clear_value x; intro _)]
    apply applyUtc_kept
    apply selectSrc_kept
    extract_lets +onlyGivenNames x
    refine kept_upd rfl ?_ rfl rfl rfl
    extract_lets +onlyGivenNames x
    refine kept_upd rfl ?_ rfl rfl rfl
    refine kept_ite ?_ ?_
    apply loseSrc_kept
    extract_lets +onlyGivenNames x
    refine kept_upd rfl ?_ rfl rfl rfl
    assumption
    assumption
    refine kept_upd rfl ?_ rfl rfl rfl
    extract_lets +onlyGivenNames x
    refine kept_upd rfl ?_ rfl rfl rfl
    refine kept_ite ?_ ?_
    apply loseSrc_kept
    extract_lets +onlyGivenNames x
    refine kept_upd rfl ?_ rfl rfl rfl
    assumption
    assumption
    assumption
    extract_lets +onlyGivenNames x; refine kept_cut x ?_ ?_ <;> [(subst x); (clear_value x; intro _)]
    split
    refine kept_ite ?_ ?_
    apply applyUtc_kept
    apply selectSrc_kept
    extract_lets +onlyGivenNames x; refine kept_cut x ?_ ?_ <;> [(subst x); (clear_value x; intro _)]
    apply applyUtc_kept
    apply selectSrc_kept
    extract_lets +onlyGivenNames x
    refine kept_upd rfl ?_ rfl rfl rfl
    extract_lets +onlyGivenNames x
    refine kept_upd rfl ?_ rfl rfl rfl
    refine kept_ite ?_ ?_
    apply loseSrc_kept
    extract_lets +onlyGivenNames x
    refine kept_upd rfl ?_ rfl rfl rfl
    assumption
    assumption
    refine kept_upd rfl ?_ rfl rfl rfl
    extract_lets +onlyGivenNames x
    refine kept_upd rfl ?_ rfl rfl rfl
    refine kept_ite ?_ ?_
    apply loseSrc_kept
    extract_lets +onlyGivenNames x
    refine kept_upd rfl ?_ rfl rfl rfl
    assumption
    assumption
    apply announceLeap_kept
    apply applyUtc_kept
    apply selectSrc_kept
    extract_lets +onlyGivenNames x; refine kept_cut x ?_ ?_ <;> [(subst x); (clear_value x; intro _)]
    apply applyUtc_kept
    apply selectSrc_kept
    extract_lets +onlyGivenNames x
    refine kept_upd rfl ?_ rfl rfl rfl
    extract_lets +onlyGivenNames x
    refine kept_upd rfl ?_ rfl rfl rfl
    refine kept_ite ?_ ?_
    apply loseSrc_kept
    extract_lets +onlyGivenNames x
    refine kept_upd rfl ?_ rfl rfl rfl
    assumption
    assumption
    refine kept_upd rfl ?_ rfl rfl rfl
    extract_lets +onlyGivenNames x
    refine kept_upd rfl ?_ rfl rfl rfl
    refine kept_ite ?_ ?_
    apply loseSrc_kept
    extract_lets +onlyGivenNames x
    refine kept_upd rfl ?_ rfl rfl rfl
    assumption
    assumption
    apply applyUtc_kept
    apply selectSrc_kept
    extract_lets +onlyGivenNames x; refine kept_cut x ?_ ?_ <;> [(subst x); (clear_value x; intro _)]
    apply applyUtc_kept
    apply selectSrc_kept
    extract_lets +onlyGivenNames x
    refine kept_upd rfl ?_ rfl rfl rfl
    extract_lets +onlyGivenNames x
    refine kept_upd rfl ?_ rfl rfl rfl
    refine kept_ite ?_ ?_
    apply loseSrc_kept
    extract_lets +onlyGivenNames x
    refine kept_upd rfl ?_ rfl rfl rfl
    assumption
    assumption
    refine kept_upd rfl ?_ rfl rfl rfl
    extract_lets +onlyGivenNames x
    refine kept_upd rfl ?_ rfl rfl rfl
    refine kept_ite ?_ ?_
    apply loseSrc_kept
    extract_lets +onlyGivenNames x
    refine kept_upd rfl ?_ rfl rfl rfl
    assumption
    assumption
    refine kept_upd rfl ?_ rfl rfl rfl
    refine kept_ite ?_ ?_
    apply loseSrc_kept
    extract_lets +onlyGivenNames x
    refine kept_upd rfl ?_ rfl rfl rfl
    assumption
    assumption

end Sys2Proof.Machine
end

