-- ==== Sys2Proof/Laws/Kept5.lean ====
section
/-!
SUPPORT. Operations keep a sound state and the commands that wait (part 5).
-/

namespace Sys2Proof.Machine

set_option Elab.async false
set_option linter.tactic.unusedName false

variable {q0 : List Instr}

theorem execIrigLoss_kept (s : State) (h_s : Kept q0 s) : KeptOut q0 (execIrigLoss s) := by
  unfold execIrigLoss
  with_reducible
    extract_lets +onlyGivenNames x
    refine keptOut_next ?_
    refine kept_ite ?_ ?_
    apply loseSrc_kept
    extract_lets +onlyGivenNames x
    refine kept_upd rfl ?_ rfl rfl rfl
    assumption
    assumption

theorem execSrcHoldoffExpiry_kept (s : State) (h_s : Kept q0 s) : KeptOut q0 (execSrcHoldoffExpiry s) := by
  unfold execSrcHoldoffExpiry
  with_reducible
    extract_lets +onlyGivenNames x
    refine keptOut_next ?_
    extract_lets +onlyGivenNames x
    split
    refine kept_ite ?_ ?_
    refine kept_ite ?_ ?_
    extract_lets +onlyGivenNames x
    refine kept_upd rfl ?_ rfl rfl rfl
    assumption
    extract_lets +onlyGivenNames x
    refine kept_upd rfl ?_ rfl rfl rfl
    assumption
    assumption
    assumption

theorem execTqBandElapsed_kept (s : State) (h_s : Kept q0 s) : KeptOut q0 (execTqBandElapsed s) := by
  unfold execTqBandElapsed
  with_reducible
    refine keptOut_next ?_
    refine kept_ite ?_ ?_
    apply updateTq_kept
    assumption
    assumption

theorem execLeapPendingStart_kept (s : State) (h_s : Kept q0 s) : KeptOut q0 (execLeapPendingStart s) := by
  unfold execLeapPendingStart
  with_reducible
    extract_lets +onlyGivenNames x
    refine keptOut_next ?_
    extract_lets +onlyGivenNames x
    split
    refine kept_ite ?_ ?_
    extract_lets +onlyGivenNames x
    refine kept_upd rfl ?_ rfl rfl rfl
    assumption
    assumption
    assumption

theorem execLeapApplied_kept (s : State) (h_s : Kept q0 s) : KeptOut q0 (execLeapApplied s) := by
  unfold execLeapApplied
  with_reducible
    extract_lets +onlyGivenNames x
    refine keptOut_next ?_
    extract_lets +onlyGivenNames x
    split
    refine kept_ite ?_ ?_
    apply raise_kept
    extract_lets +onlyGivenNames x
    split
    refine kept_upd rfl ?_ rfl rfl rfl
    assumption
    refine kept_upd rfl ?_ rfl rfl rfl
    assumption
    assumption
    assumption

theorem execLeapOccurredEnd_kept (s : State) (h_s : Kept q0 s) : KeptOut q0 (execLeapOccurredEnd s) := by
  unfold execLeapOccurredEnd
  with_reducible
    extract_lets +onlyGivenNames x
    refine keptOut_next ?_
    refine kept_ite ?_ ?_
    extract_lets +onlyGivenNames x
    refine kept_upd rfl ?_ rfl rfl rfl
    assumption
    assumption

theorem execPpsOutConfig_kept (h : Hdr) (p : PpsOutConfigP) (s : State) (h_s : Kept q0 s) : KeptOut q0 (execPpsOutConfig h p s) := by
  unfold execPpsOutConfig
  with_reducible
    refine keptOut_next ?_
    apply vci_kept
    extract_lets +onlyGivenNames x
    intro _
    extract_lets +onlyGivenNames x
    intro _
    apply done_kept
    extract_lets +onlyGivenNames x
    refine kept_upd rfl ?_ rfl rfl rfl
    assumption
    assumption

theorem execPpsOutRise_kept (s : State) (h_s : Kept q0 s) : KeptOut q0 (execPpsOutRise s) := by
  unfold execPpsOutRise
  with_reducible
    extract_lets +onlyGivenNames x
    refine keptOut_next ?_
    refine kept_ite ?_ ?_
    extract_lets +onlyGivenNames x
    refine kept_upd rfl ?_ rfl rfl rfl
    assumption
    assumption

theorem execPpsOutFall_kept (s : State) (h_s : Kept q0 s) : KeptOut q0 (execPpsOutFall s) := by
  unfold execPpsOutFall
  with_reducible
    extract_lets +onlyGivenNames x
    refine keptOut_next ?_
    refine kept_ite ?_ ?_
    extract_lets +onlyGivenNames x
    refine kept_upd rfl ?_ rfl rfl rfl
    assumption
    assumption

theorem execGaConfig_kept (h : Hdr) (p : GaConfigP) (s : State) (h_s : Kept q0 s) : KeptOut q0 (execGaConfig h p s) := by
  unfold execGaConfig
  with_reducible
    refine keptOut_next ?_
    apply vci_kept
    extract_lets +onlyGivenNames x
    intro _
    extract_lets +onlyGivenNames x
    extract_lets +onlyGivenNames x
    extract_lets +onlyGivenNames x
    intro _
    apply done_kept
    refine kept_ite ?_ ?_
    apply gaToNominal_kept
    extract_lets +onlyGivenNames x; refine kept_cut x ?_ ?_ <;> [(subst x); (clear_value x; intro _)]
    refine kept_upd rfl ?_ rfl rfl rfl
    assumption
    assumption
    extract_lets +onlyGivenNames x; refine kept_cut x ?_ ?_ <;> [(subst x); (clear_value x; intro _)]
    refine kept_upd rfl ?_ rfl rfl rfl
    assumption
    assumption
    assumption

theorem eqResume_kept (s : State) (h_s : Kept q0 s) : Kept q0 (eqResume s) := by
  unfold eqResume
  split
  · refine kept_ite ?_ h_s
    extract_lets now b1 s1
    have h1 : Kept q0 s1 := kept_imp h_s rfl rfl rfl rfl
    clear_value s1
    have hf : ∀ (t0 : Nat) (l : Tbl SgMp) (a : State × List GapEntry), Kept q0 a.1 → Kept q0 (l.foldl (fun (acc : State × List GapEntry) e =>
        if e.2.enable then
          let (u, g) := enterGap e.1 .outage 0 t0 now 0 qZero false false (modEq e.1 (fun v => { v with bootEl := elNs acc.1 }) acc.1)
          (u, acc.2 ++ g.toList)
        else acc) a).1 := by
      intro t0 l
      induction l with
      | nil => exact fun a h => h
      | cons e l ih =>
        intro a h
        refine ih _ ?_
        dsimp -zeta only
        split
        · exact enterGap_kept _ _ _ _ _ _ _ _ _ _ (modEq_kept _ _ _ h)
        · exact h
    exact outageEvent_kept _ _ (hf _ _ _ h1)
  · exact h_s

theorem execGaTick_kept (ts : U64) (s : State) (h_s : Kept q0 s) : KeptOut q0 (execGaTick ts s) := by
  unfold execGaTick
  with_reducible
    extract_lets +onlyGivenNames x
    extract_lets +onlyGivenNames x
    extract_lets +onlyGivenNames x
    extract_lets +onlyGivenNames x
    extract_lets +onlyGivenNames x
    extract_lets +onlyGivenNames x
    extract_lets +onlyGivenNames x
    extract_lets +onlyGivenNames x
    extract_lets +onlyGivenNames x
    extract_lets +onlyGivenNames x
    refine keptOut_next ?_
    refine kept_ite ?_ ?_
    assumption
    refine kept_ite ?_ ?_
    refine kept_ite ?_ ?_
    apply eqResume_kept
    extract_lets +onlyGivenNames x; refine kept_cut x ?_ ?_ <;> [(subst x); (clear_value x; intro _)]
    refine kept_upd rfl ?_ rfl rfl rfl
    refine kept_ite ?_ ?_
    apply gaToNominal_kept
    extract_lets +onlyGivenNames x
    refine kept_upd rfl ?_ rfl rfl rfl
    assumption
    extract_lets +onlyGivenNames x
    refine kept_upd rfl ?_ rfl rfl rfl
    assumption
    assumption
    extract_lets +onlyGivenNames x; refine kept_cut x ?_ ?_ <;> [(subst x); (clear_value x; intro _)]
    refine kept_upd rfl ?_ rfl rfl rfl
    refine kept_ite ?_ ?_
    apply gaToNominal_kept
    extract_lets +onlyGivenNames x
    refine kept_upd rfl ?_ rfl rfl rfl
    assumption
    extract_lets +onlyGivenNames x
    refine kept_upd rfl ?_ rfl rfl rfl
    assumption
    assumption
    refine kept_ite ?_ ?_
    apply gaToNominal_kept
    extract_lets +onlyGivenNames x; refine kept_cut x ?_ ?_ <;> [(subst x); (clear_value x; intro _)]
    refine kept_upd rfl ?_ rfl rfl rfl
    refine kept_ite ?_ ?_
    apply gaToNominal_kept
    extract_lets +onlyGivenNames x
    refine kept_upd rfl ?_ rfl rfl rfl
    assumption
    extract_lets +onlyGivenNames x
    refine kept_upd rfl ?_ rfl rfl rfl
    assumption
    refine kept_upd rfl ?_ rfl rfl rfl
    assumption
    extract_lets +onlyGivenNames x; refine kept_cut x ?_ ?_ <;> [(subst x); (clear_value x; intro _)]
    refine kept_upd rfl ?_ rfl rfl rfl
    refine kept_ite ?_ ?_
    apply gaToNominal_kept
    extract_lets +onlyGivenNames x
    refine kept_upd rfl ?_ rfl rfl rfl
    assumption
    extract_lets +onlyGivenNames x
    refine kept_upd rfl ?_ rfl rfl rfl
    assumption
    refine kept_upd rfl ?_ rfl rfl rfl
    assumption

theorem fireTimed_kept (a0 : List TimedAct) (a1 : State) (h_a1 : Kept q0 a1) : Kept q0 (fireTimed a0 a1) := by
  fun_induction fireTimed a0 a1
  with_reducible
    assumption
    rename_i ih; apply ih
    apply fireTimedEntry_kept
    assumption
    rename_i ih; apply ih
    apply annEntry_kept
    assumption

theorem execTimedActionFire_kept (s : State) (h_s : Kept q0 s) : KeptOut q0 (execTimedActionFire s) := by
  unfold execTimedActionFire
  with_reducible
    extract_lets +onlyGivenNames x
    extract_lets +onlyGivenNames x
    extract_lets +onlyGivenNames x
    refine keptOut_next ?_
    refine kept_ite ?_ ?_
    assumption
    apply fireTimed_kept
    apply fireFrames_kept
    extract_lets +onlyGivenNames x; refine kept_cut x ?_ ?_ <;> [(subst x); (clear_value x; intro _)]
    refine kept_upd rfl ?_ rfl rfl rfl
    assumption
    assumption

theorem ownerSent_kept (k r stamp : Nat) (f : TxFrame) (s : State) (h_s : Kept q0 s) : Kept q0 (ownerSent k r stamp f s) := by
  unfold ownerSent
  with_reducible
    extract_lets +onlyGivenNames x
    extract_lets +onlyGivenNames x
    split
    apply sendPtp_kept
    assumption
    apply setPtp_kept
    assumption
    apply sendPtp_kept
    assumption
    extract_lets +onlyGivenNames x; refine kept_cut x ?_ ?_ <;> [(subst x); (clear_value x; intro _)]
    apply bump_kept
    assumption
    extract_lets +onlyGivenNames x; refine kept_cut x ?_ ?_ <;> [(subst x); (clear_value x; intro _)]
    split
    apply measureC0_kept
    assumption
    assumption
    extract_lets +onlyGivenNames x
    refine kept_upd rfl ?_ rfl rfl rfl
    assumption
    assumption

theorem execTxComplete_kept (port : BitVec 4) (lateColl : Bool) (s : State) (h_s : Kept q0 s) : KeptOut q0 (execTxComplete port lateColl s) := by
  unfold execTxComplete
  with_reducible
    extract_lets +onlyGivenNames x
    extract_lets +onlyGivenNames x
    extract_lets +onlyGivenNames x
    extract_lets +onlyGivenNames x
    refine keptOut_next ?_
    extract_lets +onlyGivenNames x
    split
    assumption
    extract_lets +onlyGivenNames x
    split
    apply tryStart_kept
    apply setPort_kept
    assumption
    apply releaseHeld_kept
    apply tryStart_kept
    apply finishCopy_kept
    refine kept_ite ?_ ?_
    apply bump_kept
    apply bump_kept
    apply flagFrame_kept
    apply modFrame_kept
    apply setPort_kept
    assumption
    apply ownerSent_kept
    extract_lets +onlyGivenNames x
    split
    split
    split
    refine kept_upd rfl ?_ rfl rfl rfl
    apply bumpBy_kept
    apply bump_kept
    apply modFrame_kept
    apply setPort_kept
    assumption
    refine kept_upd rfl ?_ rfl rfl rfl
    apply bumpBy_kept
    apply bump_kept
    apply modFrame_kept
    apply setPort_kept
    assumption
    split
    refine kept_upd rfl ?_ rfl rfl rfl
    apply bumpBy_kept
    apply bump_kept
    apply modFrame_kept
    apply setPort_kept
    assumption
    refine kept_upd rfl ?_ rfl rfl rfl
    apply bumpBy_kept
    apply bump_kept
    apply modFrame_kept
    apply setPort_kept
    assumption
    split
    refine kept_upd rfl ?_ rfl rfl rfl
    apply bumpBy_kept
    apply bump_kept
    apply modFrame_kept
    apply setPort_kept
    assumption
    refine kept_upd rfl ?_ rfl rfl rfl
    apply bumpBy_kept
    apply bump_kept
    apply modFrame_kept
    apply setPort_kept
    assumption

theorem execEqMpConfig_kept (h : Hdr) (p : EqMpConfigP) (s : State) (h_s : Kept q0 s) : KeptOut q0 (execEqMpConfig h p s) := by
  unfold execEqMpConfig
  with_reducible
    extract_lets +onlyGivenNames x
    refine keptOut_next ?_
    apply vci_kept
    extract_lets +onlyGivenNames x
    intro _
    extract_lets +onlyGivenNames x
    extract_lets +onlyGivenNames x
    intro _
    refine kept_iter ?_ ?_
    apply refuse_kept
    assumption
    apply stored_kept
    assumption
    apply done_kept
    apply storeConfig_kept
    apply setEq_kept
    assumption
    assumption

theorem execEqRegConfig_kept (h : Hdr) (p : EqRegConfigP) (s : State) (h_s : Kept q0 s) : KeptOut q0 (execEqRegConfig h p s) := by
  unfold execEqRegConfig
  with_reducible
    extract_lets +onlyGivenNames x
    refine keptOut_next ?_
    apply vci_kept
    extract_lets +onlyGivenNames x
    intro _
    extract_lets +onlyGivenNames x
    extract_lets +onlyGivenNames x
    extract_lets +onlyGivenNames x
    extract_lets +onlyGivenNames x
    extract_lets +onlyGivenNames x
    intro _
    refine kept_iter ?_ ?_
    apply refuse_kept
    assumption
    apply stored_kept
    assumption
    apply done_kept
    apply raise_kept
    apply storeConfig_kept
    extract_lets +onlyGivenNames x; refine kept_cut x ?_ ?_ <;> [(subst x); (clear_value x; intro _)]
    refine kept_upd rfl ?_ rfl rfl rfl
    apply setBReg_kept
    assumption
    assumption
    assumption

theorem execPulseConfig_kept (h : Hdr) (p : PulseConfigP) (s : State) (h_s : Kept q0 s) : KeptOut q0 (execPulseConfig h p s) := by
  unfold execPulseConfig
  with_reducible
    extract_lets +onlyGivenNames x
    refine keptOut_next ?_
    apply vci_kept
    extract_lets +onlyGivenNames x
    intro _
    extract_lets +onlyGivenNames x
    extract_lets +onlyGivenNames x
    extract_lets +onlyGivenNames x
    extract_lets +onlyGivenNames x
    extract_lets +onlyGivenNames x
    intro _
    refine kept_iter ?_ ?_
    apply refuse_kept
    assumption
    refine kept_iter ?_ ?_
    apply refuse_kept
    assumption
    refine kept_iter ?_ ?_
    apply stored_kept
    assumption
    apply done_kept
    apply raise_kept
    extract_lets +onlyGivenNames x
    refine kept_upd rfl ?_ rfl rfl rfl
    apply storeConfig_kept
    apply setPulse_kept
    assumption
    apply stored_kept
    assumption
    apply done_kept
    apply storeConfig_kept
    apply setPulse_kept
    assumption
    assumption

theorem execEqSaveConfig_kept (h : Hdr) (p : EqSaveConfigP) (s : State) (h_s : Kept q0 s) : KeptOut q0 (execEqSaveConfig h p s) := by
  unfold execEqSaveConfig
  with_reducible
    refine keptOut_next ?_
    apply vci_kept
    extract_lets +onlyGivenNames x
    intro _
    extract_lets +onlyGivenNames x
    intro _
    apply stored_kept
    assumption
    apply done_kept
    apply storeConfig_kept
    extract_lets +onlyGivenNames x
    refine kept_upd rfl ?_ rfl rfl rfl
    assumption
    assumption

theorem execEqSeal_kept (h : Hdr) (p : EqSealP) (s : State) (h_s : Kept q0 s) : KeptOut q0 (execEqSeal h p s) := by
  unfold execEqSeal
  with_reducible
    refine keptOut_next ?_
    apply vci_kept
    extract_lets +onlyGivenNames x
    intro _
    intro _
    refine kept_iter ?_ ?_
    apply refuse_kept
    assumption
    refine kept_iter ?_ ?_
    apply refuse_kept
    assumption
    extract_lets +onlyGivenNames x
    dsimp -zeta only
    extract_lets +onlyGivenNames x
    refine kept_upd rfl ?_ rfl rfl rfl
    apply startLong_kept
    assumption
    assumption

theorem execEqSealDone_kept (s : State) (h_s : Kept q0 s) : KeptOut q0 (execEqSealDone s) := by
  unfold execEqSealDone
  with_reducible
    extract_lets +onlyGivenNames x
    refine keptOut_next ?_
    extract_lets +onlyGivenNames x
    dsimp -zeta only
    extract_lets +onlyGivenNames x
    split
    assumption
    apply completeLong_kept
    apply raise_kept
    apply otpEvents_kept
    apply refreshOtp_kept
    extract_lets +onlyGivenNames x
    dsimp -zeta only
    refine kept_upd rfl ?_ rfl rfl rfl
    apply fresh_kept
    assumption

theorem execEqGapAck_kept (h : Hdr) (p : EqGapAckP) (s : State) (h_s : Kept q0 s) : KeptOut q0 (execEqGapAck h p s) := by
  unfold execEqGapAck
  with_reducible
    refine keptOut_next ?_
    apply vci_kept
    extract_lets +onlyGivenNames x
    intro _
    extract_lets +onlyGivenNames x
    intro _
    split
    apply refuse_kept
    assumption
    refine kept_iter ?_ ?_
    apply done_kept
    apply raise_kept
    extract_lets +onlyGivenNames x
    refine kept_upd rfl ?_ rfl rfl rfl
    assumption
    apply done_kept
    extract_lets +onlyGivenNames x
    refine kept_upd rfl ?_ rfl rfl rfl
    apply modEq_kept
    apply raise_kept
    extract_lets +onlyGivenNames x
    refine kept_upd rfl ?_ rfl rfl rfl
    assumption
    assumption

theorem endGap_kept (m endTs endEl : Nat) (s : State) (h_s : Kept q0 s) : Kept q0 (endGap m endTs endEl s) := by
  unfold endGap
  with_reducible
    split
    assumption
    apply recordGap_kept
    apply modEq_kept
    assumption

theorem closeCycle_kept (m : Nat) (a b : GaMark) (s : State) (h_s : Kept q0 s) : Kept q0 (closeCycle m a b s) := by
  unfold closeCycle
  with_reducible
    refine kept_ite ?_ ?_
    apply endGap_kept
    refine kept_ite ?_ ?_
    apply setEq_kept
    assumption
    apply distribute_kept
    apply bumpIf_kept
    apply bump_kept
    apply setEq_kept
    assumption
    refine kept_ite ?_ ?_
    refine kept_ite ?_ ?_
    apply setEq_kept
    assumption
    apply distribute_kept
    apply bumpIf_kept
    apply bump_kept
    apply setEq_kept
    assumption
    apply modEq_kept
    refine kept_ite ?_ ?_
    apply setEq_kept
    assumption
    apply distribute_kept
    apply bumpIf_kept
    apply bump_kept
    apply setEq_kept
    assumption

theorem execAccumulationCycleEnd_kept (mp : BitVec 4) (s : State) (h_s : Kept q0 s) : KeptOut q0 (execAccumulationCycleEnd mp s) := by
  unfold execAccumulationCycleEnd
  with_reducible
    extract_lets +onlyGivenNames x
    extract_lets +onlyGivenNames x
    refine keptOut_next ?_
    extract_lets +onlyGivenNames x
    split
    assumption
    split
    assumption
    refine kept_ite ?_ ?_
    apply closeCycle_kept
    assumption
    assumption

theorem execPulseStart_kept (output : BitVec 5) (s : State) (h_s : Kept q0 s) : KeptOut q0 (execPulseStart output s) := by
  unfold execPulseStart
  with_reducible
    extract_lets +onlyGivenNames x
    extract_lets +onlyGivenNames x
    extract_lets +onlyGivenNames x
    extract_lets +onlyGivenNames x
    extract_lets +onlyGivenNames x
    extract_lets +onlyGivenNames x
    extract_lets +onlyGivenNames x
    refine keptOut_next ?_
    refine kept_ite ?_ ?_
    extract_lets +onlyGivenNames x
    split
    refine kept_ite ?_ ?_
    apply raise_kept
    apply setPulse_kept
    apply bump_kept
    apply setPulse_kept
    assumption
    apply bump_kept
    apply setPulse_kept
    assumption
    apply bump_kept
    apply setPulse_kept
    assumption
    assumption

theorem execPulseEnd_kept (output : BitVec 5) (s : State) (h_s : Kept q0 s) : KeptOut q0 (execPulseEnd output s) := by
  unfold execPulseEnd
  with_reducible
    extract_lets +onlyGivenNames x
    extract_lets +onlyGivenNames x
    refine keptOut_next ?_
    extract_lets +onlyGivenNames x
    split
    refine kept_ite ?_ ?_
    apply setPulse_kept
    assumption
    assumption
    assumption

theorem execEnergySave_kept (s : State) (h_s : Kept q0 s) : KeptOut q0 (execEnergySave s) := by
  unfold execEnergySave
  with_reducible
    refine keptOut_next ?_
    refine kept_ite ?_ ?_
    assumption
    extract_lets +onlyGivenNames x
    split
    assumption
    refine kept_ite ?_ ?_
    apply writeSave_kept
    assumption
    assumption

theorem execEnergySaveVerified_kept (ok : Bool) (s : State) (h_s : Kept q0 s) : KeptOut q0 (execEnergySaveVerified ok s) := by
  unfold execEnergySaveVerified
  with_reducible
    extract_lets +onlyGivenNames x
    refine keptOut_next ?_
    extract_lets +onlyGivenNames x
    split
    assumption
    refine kept_ite ?_ ?_
    apply verifySave_kept
    assumption
    apply raise_kept
    apply bump_kept
    extract_lets +onlyGivenNames x
    refine kept_upd rfl ?_ rfl rfl rfl
    assumption

theorem halfCycle_kept (m : Nat) (s : State) (h_s : Kept q0 s) : Kept q0 (halfCycle m s) := by
  unfold halfCycle
  with_reducible
    extract_lets +onlyGivenNames x
    split
    assumption
    extract_lets +onlyGivenNames x
    split
    assumption
    refine kept_ite ?_ ?_
    assumption
    extract_lets +onlyGivenNames x
    extract_lets +onlyGivenNames x; refine kept_cut x ?_ ?_ <;> [(subst x); (clear_value x; intro _)]
    apply setEq_kept
    assumption
    refine kept_foldl (fun t x ht => ?_) ?_
    apply qJudge_kept
    assumption
    assumption

theorem execHalfCycleInterval_kept (mp : BitVec 4) (s : State) (h_s : Kept q0 s) : KeptOut q0 (execHalfCycleInterval mp s) := by
  unfold execHalfCycleInterval
  with_reducible
    refine keptOut_next ?_
    apply inTurn_kept
    apply halfCycle_kept
    assumption

theorem setWin_kept (p : HP) (n : Nat) (s : State) (h_s : Kept q0 s) : Kept q0 (setWin p n s) := by
  unfold setWin
  with_reducible
    extract_lets +onlyGivenNames x
    refine kept_upd rfl ?_ rfl rfl rfl
    assumption

theorem execPoppyCursorAbsolute_kept (h : Hdr) (p : PoppyCursorP) (s : State) (h_s : Kept q0 s) : KeptOut q0 (execPoppyCursorAbsolute h p s) := by
  unfold execPoppyCursorAbsolute
  with_reducible
    refine keptOut_next ?_
    apply vci_kept
    extract_lets +onlyGivenNames x
    intro _
    intro _
    apply done_kept
    apply setWin_kept
    assumption
    assumption

theorem execPoppyCursorRelative_kept (h : Hdr) (p : PoppyCursorP) (s : State) (h_s : Kept q0 s) : KeptOut q0 (execPoppyCursorRelative h p s) := by
  unfold execPoppyCursorRelative
  with_reducible
    refine keptOut_next ?_
    apply vci_kept
    extract_lets +onlyGivenNames x
    intro _
    intro _
    apply done_kept
    apply setWin_kept
    assumption
    assumption

theorem execPoppyCursorFirstKept_kept (h : Hdr) (p : PoppyCursorP) (s : State) (h_s : Kept q0 s) : KeptOut q0 (execPoppyCursorFirstKept h p s) := by
  unfold execPoppyCursorFirstKept
  with_reducible
    refine keptOut_next ?_
    apply vci_kept
    extract_lets +onlyGivenNames x
    intro _
    intro _
    apply done_kept
    apply setWin_kept
    assumption
    assumption

theorem execPoppyCursorOldestCirc_kept (h : Hdr) (p : PoppyCursorP) (s : State) (h_s : Kept q0 s) : KeptOut q0 (execPoppyCursorOldestCirc h p s) := by
  unfold execPoppyCursorOldestCirc
  with_reducible
    refine keptOut_next ?_
    apply vci_kept
    extract_lets +onlyGivenNames x
    intro _
    intro _
    apply done_kept
    apply setWin_kept
    assumption
    assumption

theorem execPoppyCursorLatest_kept (h : Hdr) (p : PoppyCursorP) (s : State) (h_s : Kept q0 s) : KeptOut q0 (execPoppyCursorLatest h p s) := by
  unfold execPoppyCursorLatest
  with_reducible
    refine keptOut_next ?_
    apply vci_kept
    extract_lets +onlyGivenNames x
    intro _
    intro _
    refine kept_iter ?_ ?_
    apply done_kept
    apply setWin_kept
    assumption
    apply done_kept
    apply setWin_kept
    apply fresh_kept
    assumption
    assumption

theorem setDefaults_kept (rate burst : Nat) (s : State) (h_s : Kept q0 s) : Kept q0 (setDefaults rate burst s) := by
  unfold setDefaults
  with_reducible
    extract_lets +onlyGivenNames x
    extract_lets +onlyGivenNames x
    extract_lets +onlyGivenNames x
    extract_lets +onlyGivenNames x
    refine kept_upd rfl ?_ rfl rfl rfl
    assumption

theorem execPoppyRateSet_kept (h : Hdr) (p : PoppyRateP) (s : State) (h_s : Kept q0 s) : KeptOut q0 (execPoppyRateSet h p s) := by
  unfold execPoppyRateSet
  refine keptOut_next (vci_kept _ _ _ _ _ (fun t ht => ?_) h_s)
  refine kept_iter (done_kept _ (setDefaults_kept _ _ _ ht)) ?_
  extract_lets slot
  clear_value slot
  cases slot with
  | none => exact refuse_kept _ _ ht
  | some k => exact done_kept _ (setBucket_kept _ _ _ (kept_imp ht rfl rfl rfl rfl))

theorem execPoppyRateRemove_kept (h : Hdr) (p : PoppyRateP) (s : State) (h_s : Kept q0 s) : KeptOut q0 (execPoppyRateRemove h p s) := by
  unfold execPoppyRateRemove
  with_reducible
    refine keptOut_next ?_
    apply vci_kept
    extract_lets +onlyGivenNames x
    intro _
    extract_lets +onlyGivenNames x
    extract_lets +onlyGivenNames x
    intro _
    refine kept_iter ?_ ?_
    apply done_kept
    apply setDefaults_kept
    assumption
    apply done_kept
    apply setBucket_kept
    extract_lets +onlyGivenNames x
    refine kept_upd rfl ?_ rfl rfl rfl
    assumption
    assumption

theorem setOtpGroup_kept (g : Nat) (t : Tbl OtpGen) (s : State) (h_s : Kept q0 s) : Kept q0 (setOtpGroup g t s) := by
  unfold setOtpGroup
  with_reducible
    extract_lets +onlyGivenNames x
    split
    refine kept_upd rfl ?_ rfl rfl rfl
    assumption
    refine kept_upd rfl ?_ rfl rfl rfl
    assumption
    refine kept_upd rfl ?_ rfl rfl rfl
    assumption

theorem execOtpWrite_kept (h : Hdr) (p : OtpWriteP) (s : State) (h_s : Kept q0 s) : KeptOut q0 (execOtpWrite h p s) := by
  unfold execOtpWrite
  with_reducible
    refine keptOut_next ?_
    apply vci_kept
    extract_lets +onlyGivenNames x
    intro _
    intro _
    refine kept_iter ?_ ?_
    apply refuse_kept
    assumption
    refine kept_iter ?_ ?_
    apply refuse_kept
    assumption
    extract_lets +onlyGivenNames x
    dsimp -zeta only
    extract_lets +onlyGivenNames x
    refine kept_upd rfl ?_ rfl rfl rfl
    apply startLong_kept
    assumption
    assumption

theorem execOtpWriteDone_kept (ok : Bool) (s : State) (h_s : Kept q0 s) : KeptOut q0 (execOtpWriteDone ok s) := by
  unfold execOtpWriteDone
  with_reducible
    extract_lets +onlyGivenNames x
    refine keptOut_next ?_
    extract_lets +onlyGivenNames x
    split
    assumption
    refine kept_ite ?_ ?_
    assumption
    apply completeLong_kept
    apply otpEvents_kept
    apply refreshOtp_kept
    apply setOtpGroup_kept
    extract_lets +onlyGivenNames x
    refine kept_upd rfl ?_ rfl rfl rfl
    assumption

theorem execFlashImageWrite_kept (h : Hdr) (p : FlashImageWriteP) (s : State) (h_s : Kept q0 s) : KeptOut q0 (execFlashImageWrite h p s) := by
  unfold execFlashImageWrite
  with_reducible
    refine keptOut_next ?_
    apply vci_kept
    extract_lets +onlyGivenNames x
    intro _
    intro _
    refine kept_iter ?_ ?_
    apply refuse_kept
    assumption
    apply bindRing_kept
    extract_lets +onlyGivenNames x
    refine kept_upd rfl ?_ rfl rfl rfl
    apply startLong_kept
    assumption
    assumption

theorem execFlashImageWritten_kept (img : ImageIn) (s : State) (h_s : Kept q0 s) : KeptOut q0 (execFlashImageWritten img s) := by
  unfold execFlashImageWritten
  with_reducible
    extract_lets +onlyGivenNames x
    extract_lets +onlyGivenNames x
    extract_lets +onlyGivenNames x
    extract_lets +onlyGivenNames x
    refine keptOut_next ?_
    extract_lets +onlyGivenNames x
    dsimp -zeta only
    split
    assumption
    refine kept_ite ?_ ?_
    assumption
    refine kept_ite ?_ ?_
    apply completeOpt_kept
    apply unbindRing_kept
    extract_lets +onlyGivenNames x
    refine kept_upd rfl ?_ rfl rfl rfl
    assumption
    apply completeOpt_kept
    apply raise_kept
    refine kept_ite ?_ ?_
    apply writeDirBoth_kept
    apply eraseSectors_kept
    extract_lets +onlyGivenNames x
    refine kept_upd rfl ?_ rfl rfl rfl
    apply unbindRing_kept
    extract_lets +onlyGivenNames x
    refine kept_upd rfl ?_ rfl rfl rfl
    assumption
    apply writeDir_kept
    apply eraseSectors_kept
    extract_lets +onlyGivenNames x
    refine kept_upd rfl ?_ rfl rfl rfl
    apply unbindRing_kept
    extract_lets +onlyGivenNames x
    refine kept_upd rfl ?_ rfl rfl rfl
    assumption

theorem execFlashConfig_kept (h : Hdr) (p : FlashConfigP) (s : State) (h_s : Kept q0 s) : KeptOut q0 (execFlashConfig h p s) := by
  unfold execFlashConfig
  with_reducible
    refine keptOut_next ?_
    apply vci_kept
    extract_lets +onlyGivenNames x
    intro _
    extract_lets +onlyGivenNames x
    extract_lets +onlyGivenNames x
    intro _
    apply done_kept
    extract_lets +onlyGivenNames x; refine kept_cut x ?_ ?_ <;> [(subst x); (clear_value x; intro _)]
    refine kept_upd rfl ?_ rfl rfl rfl
    assumption
    refine kept_foldl (fun t x ht => ?_) ?_
    apply checkWear_kept
    assumption
    assumption
    assumption

theorem execRateLimitRefill_kept (code : U16) (s : State) (h_s : Kept q0 s) : KeptOut q0 (execRateLimitRefill code s) := by
  unfold execRateLimitRefill
  with_reducible
    refine keptOut_next ?_
    apply leaveLimited_kept
    assumption

theorem execFlushPeriodic_kept (s : State) (h_s : Kept q0 s) : KeptOut q0 (execFlushPeriodic s) := by
  unfold execFlushPeriodic
  with_reducible
    extract_lets +onlyGivenNames x
    extract_lets +onlyGivenNames x
    refine keptOut_next ?_
    refine kept_ite ?_ ?_
    assumption
    refine kept_ite ?_ ?_
    extract_lets +onlyGivenNames x; refine kept_cut x ?_ ?_ <;> [(subst x); (clear_value x; intro _)]
    refine kept_upd rfl ?_ rfl rfl rfl
    assumption
    assumption
    apply beginFlush_kept
    extract_lets +onlyGivenNames x; refine kept_cut x ?_ ?_ <;> [(subst x); (clear_value x; intro _)]
    refine kept_upd rfl ?_ rfl rfl rfl
    assumption
    assumption

theorem execFlushStart_kept (s : State) (h_s : Kept q0 s) : KeptOut q0 (execFlushStart s) := by
  unfold execFlushStart
  with_reducible
    refine keptOut_next ?_
    refine kept_ite ?_ ?_
    apply beginFlush_kept
    assumption
    assumption

theorem execFlushDone_kept (ok : Bool) (s : State) (h_s : Kept q0 s) : KeptOut q0 (execFlushDone ok s) := by
  unfold execFlushDone
  with_reducible
    extract_lets +onlyGivenNames x
    extract_lets +onlyGivenNames x
    extract_lets +onlyGivenNames x
    refine keptOut_next ?_
    refine kept_ite ?_ ?_
    assumption
    refine kept_ite ?_ ?_
    apply endFlush_kept
    assumption
    apply raise_kept
    apply bump_kept
    extract_lets +onlyGivenNames x; refine kept_cut x ?_ ?_ <;> [(subst x); (clear_value x; intro _)]
    apply bump_kept
    extract_lets +onlyGivenNames x
    refine kept_upd rfl ?_ rfl rfl rfl
    assumption
    refine kept_upd rfl ?_ rfl rfl rfl
    assumption

theorem execOpTimeLogWrite_kept (s : State) (h_s : Kept q0 s) : KeptOut q0 (execOpTimeLogWrite s) := by
  unfold execOpTimeLogWrite
  with_reducible
    extract_lets +onlyGivenNames x
    extract_lets +onlyGivenNames x
    extract_lets +onlyGivenNames x
    refine keptOut_next ?_
    refine kept_ite ?_ ?_
    assumption
    refine kept_ite ?_ ?_
    apply eraseSectors_kept
    extract_lets +onlyGivenNames x; refine kept_cut x ?_ ?_ <;> [(subst x); (clear_value x; intro _)]
    split
    refine kept_upd rfl ?_ rfl rfl rfl
    assumption
    refine kept_upd rfl ?_ rfl rfl rfl
    assumption
    assumption
    extract_lets +onlyGivenNames x; refine kept_cut x ?_ ?_ <;> [(subst x); (clear_value x; intro _)]
    split
    refine kept_upd rfl ?_ rfl rfl rfl
    assumption
    refine kept_upd rfl ?_ rfl rfl rfl
    assumption
    assumption

theorem cutWrites_kept (s : State) (h_s : Kept q0 s) : Kept q0 (cutWrites s) := by
  unfold cutWrites
  with_reducible
    extract_lets +onlyGivenNames x; refine kept_cut x ?_ ?_ <;> [(subst x); (clear_value x; intro _)]
    split
    apply setOtpGroup_kept
    assumption
    assumption
    extract_lets +onlyGivenNames x; refine kept_cut x ?_ ?_ <;> [(subst x); (clear_value x; intro _)]
    refine kept_ite ?_ ?_
    apply setOtpGroup_kept
    assumption
    assumption
    refine kept_foldl (fun t x ht => ?_) ?_
    extract_lets +onlyGivenNames x
    extract_lets +onlyGivenNames x
    refine kept_upd rfl ?_ rfl rfl rfl
    assumption
    assumption

theorem clearAll_kept (s0 : State) (h_s0 : Kept q0 s0) : Kept q0 (clearAll s0) := by
  have h : Kept q0 (cutWrites s0) := cutWrites_kept _ h_s0
  refine ⟨?_, ?_, ⟨rfl, ?_⟩, h.2.2.2⟩
  · show (0 : BitVec 30).toNat < _; decide
  · show ([] : List Rec).length ≤ _; decide
  · intro e he; cases he

theorem haltAt_kept (stage code : Nat) (s : State) (h_s : Kept q0 s) : Kept q0 (haltAt stage code s) := by
  unfold haltAt
  with_reducible
    extract_lets +onlyGivenNames x
    refine kept_upd rfl ?_ rfl rfl rfl
    assumption

theorem warn_kept (c : Bool) (cause : U8) (s : State) (h_s : Kept q0 s) : Kept q0 (warn c cause s) := by
  unfold warn
  with_reducible
    refine kept_ite ?_ ?_
    extract_lets +onlyGivenNames x
    refine kept_upd rfl ?_ rfl rfl rfl
    assumption
    assumption

theorem bootHosts_kept (s : State) (h_s : Kept q0 s) : Kept q0 (bootHosts s) := by
  unfold bootHosts
  with_reducible
    extract_lets +onlyGivenNames x
    extract_lets +onlyGivenNames x
    extract_lets +onlyGivenNames x
    extract_lets +onlyGivenNames x
    extract_lets +onlyGivenNames x
    refine kept_upd rfl ?_ rfl rfl rfl
    assumption

theorem bootMacs_kept (s : State) (h_s : Kept q0 s) : Kept q0 (bootMacs s) := by
  unfold bootMacs
  with_reducible
    extract_lets +onlyGivenNames x
    refine kept_upd rfl ?_ rfl rfl rfl
    assumption

theorem saveAt_kept (ts : Nat) (s : State) (h_s : Kept q0 s) : Kept q0 (saveAt ts s) := by
  unfold saveAt
  with_reducible
    apply bump_kept
    apply eraseSectors_kept
    extract_lets +onlyGivenNames x
    split
    split
    refine kept_upd rfl ?_ rfl rfl rfl
    assumption
    refine kept_upd rfl ?_ rfl rfl rfl
    assumption
    split
    refine kept_upd rfl ?_ rfl rfl rfl
    assumption
    refine kept_upd rfl ?_ rfl rfl rfl
    assumption
    split
    refine kept_upd rfl ?_ rfl rfl rfl
    assumption
    refine kept_upd rfl ?_ rfl rfl rfl
    assumption

theorem startGaps_kept (kind : GapKind) (start end_ : Nat) (unknown isOpen : Bool) (s : State) (h_s : Kept q0 s) : Kept q0 (startGaps kind start end_ unknown isOpen s) := by
  unfold startGaps
  with_reducible
    refine kept_foldl (fun t x ht => ?_) ?_
    refine kept_ite ?_ ?_
    apply recordGap_kept
    assumption
    assumption
    assumption

theorem restoreEnergy_kept (s : State) (h_s : Kept q0 s) : Kept q0 (restoreEnergy s) := by
  unfold restoreEnergy
  with_reducible
    extract_lets +onlyGivenNames x
    extract_lets +onlyGivenNames x
    extract_lets +onlyGivenNames x
    split
    apply startGaps_kept
    apply restoreImage_kept
    assumption
    apply startGaps_kept
    apply startGaps_kept
    apply bump_kept
    apply restoreImage_kept
    assumption
    apply startGaps_kept
    apply bump_kept
    apply restoreImage_kept
    assumption
    apply raise_kept
    apply startGaps_kept
    apply bump_kept
    assumption

theorem restoreRecords_kept (s : State) (h_s : Kept q0 s) : Kept q0 (restoreRecords s) := by
  unfold restoreRecords
  with_reducible
    extract_lets +onlyGivenNames x
    extract_lets +onlyGivenNames x
    extract_lets +onlyGivenNames x
    refine kept_foldl (fun t x ht => ?_) ?_
    apply storeRec_kept
    assumption
    extract_lets +onlyGivenNames x
    refine kept_upd rfl ?_ rfl rfl rfl
    assumption

theorem findTorn_kept (b : BootIn) (s : State) (h_s : Kept q0 s) : Kept q0 (findTorn b s) := by
  unfold findTorn
  with_reducible
    refine kept_ite ?_ ?_
    extract_lets +onlyGivenNames x
    extract_lets +onlyGivenNames x
    refine kept_upd rfl ?_ rfl rfl rfl
    apply cntSet_kept
    assumption
    extract_lets +onlyGivenNames x
    split
    refine kept_upd rfl ?_ rfl rfl rfl
    apply cntSet_kept
    assumption
    apply cntSet_kept
    assumption

theorem countCycle_kept (s0 : State) (h_s0 : Kept q0 s0) : Kept q0 (countCycle s0) := by
  unfold countCycle
  with_reducible
    refine kept_ite ?_ ?_
    extract_lets +onlyGivenNames x
    refine kept_upd rfl ?_ rfl rfl rfl
    assumption
    refine kept_ite ?_ ?_
    extract_lets +onlyGivenNames x
    extract_lets +onlyGivenNames x
    extract_lets +onlyGivenNames x
    dsimp -zeta only
    refine kept_upd rfl ?_ rfl rfl rfl
    assumption
    extract_lets +onlyGivenNames x
    extract_lets +onlyGivenNames x
    dsimp -zeta only
    refine kept_upd rfl ?_ rfl rfl rfl
    assumption

theorem restoreStage_kept (b : BootIn) (s : State) (h_s : Kept q0 s) : Kept q0 (restoreStage b s) := by
  unfold restoreStage
  extract_lets s1 b1 s2 b1b s3 s4 ok s5 b2 b3
  have h1 : Kept q0 s1 := restoreRecords_kept _ (findTorn_kept _ _ h_s)
  clear_value s1
  have h2 : Kept q0 s2 := kept_imp h1 rfl rfl rfl rfl
  clear_value s2
  have h3 : Kept q0 s3 := raiseIf_kept _ _ _ _ _ _ (kept_imp h2 rfl rfl rfl rfl)
  clear_value s3
  have h4 : Kept q0 s4 := saveAt_kept _ _ (restoreEnergy_kept _ h3)
  clear_value s4
  have h5 : Kept q0 s5 := raiseIf_kept _ _ _ _ _ _ h4
  clear_value s5
  exact kept_ite (eraseSectors_kept _ _ _ (kept_imp h5 rfl rfl rfl rfl)) (kept_imp h5 rfl rfl rfl rfl)

theorem applyStored_kept (c : StoredCfg) (s : State) (h_s : Kept q0 s) : Kept q0 (applyStored c s) := by
  unfold applyStored
  with_reducible
    extract_lets +onlyGivenNames x
    extract_lets +onlyGivenNames x
    refine kept_upd rfl ?_ rfl rfl rfl
    assumption

theorem chooseStored_kept (b : BootIn) (s : State) (h_s : Kept q0 s) : Kept q0 (chooseStored b s) := by
  unfold chooseStored
  with_reducible
    refine kept_ite ?_ ?_
    apply applyStored_kept
    assumption
    refine kept_ite ?_ ?_
    apply applyStored_kept
    apply warn_kept
    assumption
    apply applyStored_kept
    apply warn_kept
    assumption

theorem checkSeal_kept (bad : U16) (s : State) (h_s : Kept q0 s) : Kept q0 (checkSeal bad s) := by
  unfold checkSeal
  with_reducible
    extract_lets +onlyGivenNames x
    extract_lets +onlyGivenNames x
    extract_lets +onlyGivenNames x; refine kept_cut x ?_ ?_ <;> [(subst x); (clear_value x; intro _)]
    refine kept_upd rfl ?_ rfl rfl rfl
    assumption
    refine kept_foldl (fun t x ht => ?_) ?_
    refine kept_ite ?_ ?_
    apply recordGap_kept
    apply raise_kept
    apply modEq_kept
    assumption
    assumption
    assumption

theorem bootStages_kept (ovr : U8) (b : BootIn) (s0 : State) (h_s0 : Kept q0 s0) : Kept q0 (bootStages ovr b s0) := by
  unfold bootStages
  with_reducible
    refine kept_ite ?_ ?_
    apply haltAt_kept
    extract_lets +onlyGivenNames x
    refine kept_upd rfl ?_ rfl rfl rfl
    assumption
    refine kept_ite ?_ ?_
    apply haltAt_kept
    extract_lets +onlyGivenNames x
    refine kept_upd rfl ?_ rfl rfl rfl
    assumption
    refine kept_ite ?_ ?_
    apply haltAt_kept
    apply warn_kept
    apply bootMacs_kept
    apply bootHosts_kept
    apply refreshOtp_kept
    extract_lets +onlyGivenNames x
    refine kept_upd rfl ?_ rfl rfl rfl
    assumption
    refine kept_ite ?_ ?_
    apply haltAt_kept
    apply warn_kept
    apply warn_kept
    extract_lets +onlyGivenNames x
    extract_lets +onlyGivenNames x
    dsimp -zeta only
    split
    split
    refine kept_upd rfl ?_ rfl rfl rfl
    apply warn_kept
    apply bootMacs_kept
    apply bootHosts_kept
    apply refreshOtp_kept
    extract_lets +onlyGivenNames x
    refine kept_upd rfl ?_ rfl rfl rfl
    assumption
    refine kept_upd rfl ?_ rfl rfl rfl
    apply warn_kept
    apply bootMacs_kept
    apply bootHosts_kept
    apply refreshOtp_kept
    extract_lets +onlyGivenNames x
    refine kept_upd rfl ?_ rfl rfl rfl
    assumption
    split
    refine kept_upd rfl ?_ rfl rfl rfl
    apply warn_kept
    apply bootMacs_kept
    apply bootHosts_kept
    apply refreshOtp_kept
    extract_lets +onlyGivenNames x
    refine kept_upd rfl ?_ rfl rfl rfl
    assumption
    refine kept_upd rfl ?_ rfl rfl rfl
    apply warn_kept
    apply bootMacs_kept
    apply bootHosts_kept
    apply refreshOtp_kept
    extract_lets +onlyGivenNames x
    refine kept_upd rfl ?_ rfl rfl rfl
    assumption
    extract_lets +onlyGivenNames x
    extract_lets +onlyGivenNames x
    extract_lets +onlyGivenNames x
    extract_lets +onlyGivenNames x
    dsimp -zeta only
    split
    apply haltAt_kept
    apply warn_kept
    apply warn_kept
    extract_lets +onlyGivenNames x
    split
    split
    refine kept_upd rfl ?_ rfl rfl rfl
    apply warn_kept
    apply bootMacs_kept
    apply bootHosts_kept
    apply refreshOtp_kept
    extract_lets +onlyGivenNames x
    refine kept_upd rfl ?_ rfl rfl rfl
    assumption
    refine kept_upd rfl ?_ rfl rfl rfl
    apply warn_kept
    apply bootMacs_kept
    apply bootHosts_kept
    apply refreshOtp_kept
    extract_lets +onlyGivenNames x
    refine kept_upd rfl ?_ rfl rfl rfl
    assumption
    split
    refine kept_upd rfl ?_ rfl rfl rfl
    apply warn_kept
    apply bootMacs_kept
    apply bootHosts_kept
    apply refreshOtp_kept
    extract_lets +onlyGivenNames x
    refine kept_upd rfl ?_ rfl rfl rfl
    assumption
    refine kept_upd rfl ?_ rfl rfl rfl
    apply warn_kept
    apply bootMacs_kept
    apply bootHosts_kept
    apply refreshOtp_kept
    extract_lets +onlyGivenNames x
    refine kept_upd rfl ?_ rfl rfl rfl
    assumption
    refine kept_ite ?_ ?_
    apply haltAt_kept
    apply warn_kept
    extract_lets +onlyGivenNames x
    split
    split
    refine kept_upd rfl ?_ rfl rfl rfl
    apply warn_kept
    apply warn_kept
    extract_lets +onlyGivenNames x
    refine kept_upd rfl ?_ rfl rfl rfl
    apply warn_kept
    apply bootMacs_kept
    apply bootHosts_kept
    apply refreshOtp_kept
    extract_lets +onlyGivenNames x
    refine kept_upd rfl ?_ rfl rfl rfl
    assumption
    refine kept_upd rfl ?_ rfl rfl rfl
    apply warn_kept
    apply warn_kept
    extract_lets +onlyGivenNames x
    refine kept_upd rfl ?_ rfl rfl rfl
    apply warn_kept
    apply bootMacs_kept
    apply bootHosts_kept
    apply refreshOtp_kept
    extract_lets +onlyGivenNames x
    refine kept_upd rfl ?_ rfl rfl rfl
    assumption
    split
    refine kept_upd rfl ?_ rfl rfl rfl
    apply warn_kept
    apply warn_kept
    extract_lets +onlyGivenNames x
    refine kept_upd rfl ?_ rfl rfl rfl
    apply warn_kept
    apply bootMacs_kept
    apply bootHosts_kept
    apply refreshOtp_kept
    extract_lets +onlyGivenNames x
    refine kept_upd rfl ?_ rfl rfl rfl
    assumption
    refine kept_upd rfl ?_ rfl rfl rfl
    apply warn_kept
    apply warn_kept
    extract_lets +onlyGivenNames x
    refine kept_upd rfl ?_ rfl rfl rfl
    apply warn_kept
    apply bootMacs_kept
    apply bootHosts_kept
    apply refreshOtp_kept
    extract_lets +onlyGivenNames x
    refine kept_upd rfl ?_ rfl rfl rfl
    assumption
    refine kept_ite ?_ ?_
    apply haltAt_kept
    apply warn_kept
    extract_lets +onlyGivenNames x
    split
    split
    refine kept_upd rfl ?_ rfl rfl rfl
    apply warn_kept
    apply warn_kept
    extract_lets +onlyGivenNames x
    refine kept_upd rfl ?_ rfl rfl rfl
    apply warn_kept
    apply bootMacs_kept
    apply bootHosts_kept
    apply refreshOtp_kept
    extract_lets +onlyGivenNames x
    refine kept_upd rfl ?_ rfl rfl rfl
    assumption
    refine kept_upd rfl ?_ rfl rfl rfl
    apply warn_kept
    apply warn_kept
    extract_lets +onlyGivenNames x
    refine kept_upd rfl ?_ rfl rfl rfl
    apply warn_kept
    apply bootMacs_kept
    apply bootHosts_kept
    apply refreshOtp_kept
    extract_lets +onlyGivenNames x
    refine kept_upd rfl ?_ rfl rfl rfl
    assumption
    split
    refine kept_upd rfl ?_ rfl rfl rfl
    apply warn_kept
    apply warn_kept
    extract_lets +onlyGivenNames x
    refine kept_upd rfl ?_ rfl rfl rfl
    apply warn_kept
    apply bootMacs_kept
    apply bootHosts_kept
    apply refreshOtp_kept
    extract_lets +onlyGivenNames x
    refine kept_upd rfl ?_ rfl rfl rfl
    assumption
    refine kept_upd rfl ?_ rfl rfl rfl
    apply warn_kept
    apply warn_kept
    extract_lets +onlyGivenNames x
    refine kept_upd rfl ?_ rfl rfl rfl
    apply warn_kept
    apply bootMacs_kept
    apply bootHosts_kept
    apply refreshOtp_kept
    extract_lets +onlyGivenNames x
    refine kept_upd rfl ?_ rfl rfl rfl
    assumption
    extract_lets +onlyGivenNames x
    extract_lets +onlyGivenNames x
    extract_lets +onlyGivenNames x
    extract_lets +onlyGivenNames x
    extract_lets +onlyGivenNames x
    split
    split
    refine kept_upd rfl ?_ rfl rfl rfl
    apply warn_kept
    extract_lets +onlyGivenNames x
    refine kept_upd rfl ?_ rfl rfl rfl
    apply warn_kept
    apply warn_kept
    extract_lets +onlyGivenNames x
    refine kept_upd rfl ?_ rfl rfl rfl
    apply warn_kept
    apply bootMacs_kept
    apply bootHosts_kept
    apply refreshOtp_kept
    extract_lets +onlyGivenNames x
    refine kept_upd rfl ?_ rfl rfl rfl
    assumption
    refine kept_upd rfl ?_ rfl rfl rfl
    apply warn_kept
    extract_lets +onlyGivenNames x
    refine kept_upd rfl ?_ rfl rfl rfl
    apply warn_kept
    apply warn_kept
    extract_lets +onlyGivenNames x
    refine kept_upd rfl ?_ rfl rfl rfl
    apply warn_kept
    apply bootMacs_kept
    apply bootHosts_kept
    apply refreshOtp_kept
    extract_lets +onlyGivenNames x
    refine kept_upd rfl ?_ rfl rfl rfl
    assumption
    split
    refine kept_upd rfl ?_ rfl rfl rfl
    apply warn_kept
    extract_lets +onlyGivenNames x
    refine kept_upd rfl ?_ rfl rfl rfl
    apply warn_kept
    apply warn_kept
    extract_lets +onlyGivenNames x
    refine kept_upd rfl ?_ rfl rfl rfl
    apply warn_kept
    apply bootMacs_kept
    apply bootHosts_kept
    apply refreshOtp_kept
    extract_lets +onlyGivenNames x
    refine kept_upd rfl ?_ rfl rfl rfl
    assumption
    refine kept_upd rfl ?_ rfl rfl rfl
    apply warn_kept
    extract_lets +onlyGivenNames x
    refine kept_upd rfl ?_ rfl rfl rfl
    apply warn_kept
    apply warn_kept
    extract_lets +onlyGivenNames x
    refine kept_upd rfl ?_ rfl rfl rfl
    apply warn_kept
    apply bootMacs_kept
    apply bootHosts_kept
    apply refreshOtp_kept
    extract_lets +onlyGivenNames x
    refine kept_upd rfl ?_ rfl rfl rfl
    assumption

theorem bootRestore_kept (s : State) (h_s : Kept q0 s) : Kept q0 (bootRestore s) := by
  unfold bootRestore
  with_reducible
    split
    assumption
    extract_lets +onlyGivenNames x; refine kept_cut x ?_ ?_ <;> [(subst x); (clear_value x; intro _)]
    apply checkSeal_kept
    apply restoreStage_kept
    apply chooseStored_kept
    assumption
    extract_lets +onlyGivenNames x
    refine kept_upd rfl ?_ rfl rfl rfl
    assumption

theorem stageLate_kept (k : Nat) (s : State) (h_s : Kept q0 s) : Kept q0 (stageLate k s) := by
  unfold stageLate
  with_reducible
    apply haltAt_kept
    refine kept_ite ?_ ?_
    apply bootRestore_kept
    assumption
    assumption

theorem restart_kept (cause : Cause) (ovr : U8) (b : BootIn) (s : State) (h_s : Kept q0 s) : Kept q0 (restart cause ovr b s) := by
  unfold restart
  with_reducible
    refine kept_ite ?_ ?_
    apply bootStages_kept
    extract_lets +onlyGivenNames x
    refine kept_upd rfl ?_ rfl rfl rfl
    apply clearAll_kept
    assumption
    extract_lets +onlyGivenNames x
    extract_lets +onlyGivenNames x
    dsimp -zeta only
    refine kept_upd rfl ?_ rfl rfl rfl
    apply clearAll_kept
    assumption

theorem resumeBoot_kept (b : BootIn) (s : State) (h_s : Kept q0 s) : Kept q0 (resumeBoot b s) := by
  have h1 : Kept q0 (clearAll s) := clearAll_kept _ h_s
  unfold resumeBoot
  exact bootStages_kept _ _ _ ⟨h_s.1, h1.2.1, h_s.2.2.1, h1.2.2.2⟩

theorem saveAll_kept (s : State) (h_s : Kept q0 s) : Kept q0 (saveAll s) := by
  unfold saveAll
  with_reducible
    refine kept_ite ?_ ?_
    assumption
    apply endFlush_kept
    apply beginFlush_kept
    apply verifySave_kept
    apply writeSave_kept
    assumption

theorem partialCycle_kept (tf m : Nat) (s : State) (h_s : Kept q0 s) : Kept q0 (partialCycle tf m s) := by
  unfold partialCycle
  with_reducible
    extract_lets +onlyGivenNames x
    dsimp -zeta only
    split
    assumption
    extract_lets +onlyGivenNames x
    refine kept_foldl (fun t x ht => ?_) ?_
    refine kept_ite ?_ ?_
    apply regAdd_kept
    assumption
    assumption
    apply setEq_kept
    assumption

theorem reportFlush_kept (s : State) (h_s : Kept q0 s) : Kept q0 (reportFlush s) := by
  unfold reportFlush
  with_reducible
    refine kept_ite ?_ ?_
    apply raise_kept
    extract_lets +onlyGivenNames x
    refine kept_upd rfl ?_ rfl rfl rfl
    assumption
    assumption

theorem execPornAssert_kept (s : State) (h_s : Kept q0 s) : KeptOut q0 (execPornAssert s) := by
  unfold execPornAssert
  with_reducible
    extract_lets +onlyGivenNames x
    extract_lets +onlyGivenNames x
    extract_lets +onlyGivenNames x
    extract_lets +onlyGivenNames x
    refine keptOut_next ?_
    refine kept_ite ?_ ?_
    assumption
    extract_lets +onlyGivenNames x
    split
    refine kept_upd rfl ?_ rfl rfl rfl
    apply clearAll_kept
    assumption
    refine kept_upd rfl ?_ rfl rfl rfl
    apply clearAll_kept
    assumption

theorem execPowerOnReset_kept (b : BootIn) (s : State) (h_s : Kept q0 s) : KeptOut q0 (execPowerOnReset b s) := by
  unfold execPowerOnReset
  with_reducible
    extract_lets +onlyGivenNames x
    refine keptOut_next ?_
    refine kept_ite ?_ ?_
    assumption
    apply restart_kept
    apply countCycle_kept
    extract_lets +onlyGivenNames x
    refine kept_upd rfl ?_ rfl rfl rfl
    assumption

theorem execBootStageTimeout_kept (stage : BitVec 3) (s : State) (h_s : Kept q0 s) : KeptOut q0 (execBootStageTimeout stage s) := by
  unfold execBootStageTimeout
  with_reducible
    refine keptOut_next ?_
    refine kept_ite ?_ ?_
    apply stageLate_kept
    assumption
    assumption

theorem execBootReady_kept (stageMs : List U16) (s0 : State) (h_s0 : Kept q0 s0) : KeptOut q0 (execBootReady stageMs s0) := by
  unfold execBootReady
  with_reducible
    extract_lets +onlyGivenNames x
    extract_lets +onlyGivenNames x
    extract_lets +onlyGivenNames x
    extract_lets +onlyGivenNames x
    extract_lets +onlyGivenNames x
    extract_lets +onlyGivenNames x
    extract_lets +onlyGivenNames x
    extract_lets +onlyGivenNames x
    extract_lets +onlyGivenNames x
    extract_lets +onlyGivenNames x
    extract_lets +onlyGivenNames x
    refine keptOut_next ?_
    refine kept_ite ?_ ?_
    assumption
    extract_lets +onlyGivenNames x; refine kept_cut x ?_ ?_ <;> [(subst x); (clear_value x; intro _)]
    split
    apply raise_kept
    apply bump_kept
    extract_lets +onlyGivenNames x
    refine kept_upd rfl ?_ rfl rfl rfl
    extract_lets +onlyGivenNames x
    refine kept_foldl (fun t x ht => ?_) ?_
    apply raise_kept
    assumption
    extract_lets +onlyGivenNames x
    refine kept_upd rfl ?_ rfl rfl rfl
    apply raise_kept
    apply evalAll_kept
    extract_lets +onlyGivenNames x
    refine kept_upd rfl ?_ rfl rfl rfl
    apply bootRestore_kept
    assumption
    refine kept_foldl (fun t x ht => ?_) ?_
    apply raise_kept
    assumption
    extract_lets +onlyGivenNames x
    refine kept_upd rfl ?_ rfl rfl rfl
    apply raise_kept
    apply evalAll_kept
    extract_lets +onlyGivenNames x
    refine kept_upd rfl ?_ rfl rfl rfl
    apply bootRestore_kept
    assumption
    split
    apply stageLate_kept
    assumption
    refine kept_foldl (fun t x ht => ?_) ?_
    refine kept_ite ?_ ?_
    apply chainRestart_kept
    assumption
    assumption
    assumption

theorem systemReset_kept (b : BootIn) (clean : Bool) (s : State) (h_s : Kept q0 s) : Kept q0 (systemReset b clean s) := by
  unfold systemReset
  with_reducible
    apply restart_kept
    extract_lets +onlyGivenNames x
    split
    refine kept_upd rfl ?_ rfl rfl rfl
    assumption
    split
    refine kept_upd rfl ?_ rfl rfl rfl
    assumption
    refine kept_upd rfl ?_ rfl rfl rfl
    assumption

theorem execSystemReset_kept (b : BootIn) (s : State) (h_s : Kept q0 s) : KeptOut q0 (execSystemReset b s) := by
  unfold execSystemReset
  with_reducible
    extract_lets +onlyGivenNames x
    refine keptOut_next ?_
    refine kept_ite ?_ ?_
    assumption
    refine kept_ite ?_ ?_
    extract_lets +onlyGivenNames x
    refine kept_upd rfl ?_ rfl rfl rfl
    assumption
    apply systemReset_kept
    assumption

theorem execWatchdogExpiry_kept (b : BootIn) (s : State) (h_s : Kept q0 s) : KeptOut q0 (execWatchdogExpiry b s) := by
  unfold execWatchdogExpiry
  with_reducible
    refine keptOut_next ?_
    refine kept_ite ?_ ?_
    assumption
    apply restart_kept
    apply saveAll_kept
    assumption

theorem execFirmwareHalt_kept (b : BootIn) (s : State) (h_s : Kept q0 s) : KeptOut q0 (execFirmwareHalt b s) := by
  unfold execFirmwareHalt
  with_reducible
    refine keptOut_next ?_
    refine kept_ite ?_ ?_
    assumption
    apply restart_kept
    apply saveAll_kept
    assumption

theorem execDeviceReset_kept (h : Hdr) (p : DeviceResetP) (s : State) (h_s : Kept q0 s) : KeptOut q0 (execDeviceReset h p s) := by
  unfold execDeviceReset
  with_reducible
    refine keptOut_next ?_
    apply vci_kept
    extract_lets +onlyGivenNames x
    intro _
    extract_lets +onlyGivenNames x
    extract_lets +onlyGivenNames x
    intro _
    refine kept_iter ?_ ?_
    apply refuse_kept
    assumption
    apply done_kept
    refine kept_ite ?_ ?_
    apply beginFlush_kept
    apply raise_kept
    extract_lets +onlyGivenNames x; refine kept_cut x ?_ ?_ <;> [(subst x); (clear_value x; intro _)]
    apply raise_kept
    extract_lets +onlyGivenNames x
    refine kept_upd rfl ?_ rfl rfl rfl
    assumption
    refine kept_upd rfl ?_ rfl rfl rfl
    assumption
    apply raise_kept
    extract_lets +onlyGivenNames x; refine kept_cut x ?_ ?_ <;> [(subst x); (clear_value x; intro _)]
    apply raise_kept
    extract_lets +onlyGivenNames x
    refine kept_upd rfl ?_ rfl rfl rfl
    assumption
    refine kept_upd rfl ?_ rfl rfl rfl
    assumption
    assumption

theorem execDeviceResetExecute_kept (b : BootIn) (s : State) (h_s : Kept q0 s) : KeptOut q0 (execDeviceResetExecute b s) := by
  unfold execDeviceResetExecute
  with_reducible
    refine keptOut_next ?_
    extract_lets +onlyGivenNames x
    split
    refine kept_ite ?_ ?_
    assumption
    apply restart_kept
    apply saveAll_kept
    assumption
    assumption

theorem execPfailAssert_kept (s : State) (h_s : Kept q0 s) : KeptOut q0 (execPfailAssert s) := by
  unfold execPfailAssert
  with_reducible
    extract_lets +onlyGivenNames x
    extract_lets +onlyGivenNames x
    extract_lets +onlyGivenNames x
    extract_lets +onlyGivenNames x
    extract_lets +onlyGivenNames x
    extract_lets +onlyGivenNames x
    refine keptOut_next ?_
    refine kept_ite ?_ ?_
    assumption
    extract_lets +onlyGivenNames x
    split
    refine kept_upd rfl ?_ rfl rfl rfl
    extract_lets +onlyGivenNames x
    refine kept_upd rfl ?_ rfl rfl rfl
    assumption
    refine kept_upd rfl ?_ rfl rfl rfl
    extract_lets +onlyGivenNames x
    refine kept_upd rfl ?_ rfl rfl rfl
    assumption
    refine kept_upd rfl ?_ rfl rfl rfl
    assumption

theorem execPfailRise_kept (b : BootIn) (s : State) (h_s : Kept q0 s) : KeptOut q0 (execPfailRise b s) := by
  unfold execPfailRise
  with_reducible
    extract_lets +onlyGivenNames x
    extract_lets +onlyGivenNames x
    extract_lets +onlyGivenNames x
    refine keptOut_next ?_
    refine kept_ite ?_ ?_
    assumption
    refine kept_ite ?_ ?_
    apply resumeBoot_kept
    extract_lets +onlyGivenNames x
    refine kept_upd rfl ?_ rfl rfl rfl
    assumption
    refine kept_ite ?_ ?_
    apply reportFlush_kept
    extract_lets +onlyGivenNames x
    refine kept_upd rfl ?_ rfl rfl rfl
    extract_lets +onlyGivenNames x
    refine kept_upd rfl ?_ rfl rfl rfl
    assumption
    extract_lets +onlyGivenNames x
    refine kept_upd rfl ?_ rfl rfl rfl
    assumption

theorem execPowerFailFlushEnd_kept (complete : Bool) (s : State) (h_s : Kept q0 s) : KeptOut q0 (execPowerFailFlushEnd complete s) := by
  unfold execPowerFailFlushEnd
  with_reducible
    extract_lets +onlyGivenNames x
    extract_lets +onlyGivenNames x
    refine keptOut_next ?_
    refine kept_ite ?_ ?_
    assumption
    extract_lets +onlyGivenNames x
    split
    assumption
    refine kept_ite ?_ ?_
    extract_lets +onlyGivenNames x
    split
    apply systemReset_kept
    apply reportFlush_kept
    apply bumpIf_kept
    extract_lets +onlyGivenNames x
    split
    refine kept_upd rfl ?_ rfl rfl rfl
    assumption
    refine kept_upd rfl ?_ rfl rfl rfl
    assumption
    apply reportFlush_kept
    apply bumpIf_kept
    extract_lets +onlyGivenNames x
    split
    refine kept_upd rfl ?_ rfl rfl rfl
    assumption
    refine kept_upd rfl ?_ rfl rfl rfl
    assumption
    apply reportFlush_kept
    apply bumpIf_kept
    extract_lets +onlyGivenNames x
    split
    refine kept_upd rfl ?_ rfl rfl rfl
    assumption
    refine kept_upd rfl ?_ rfl rfl rfl
    assumption

theorem execStartupGapTimeout_kept (s : State) (h_s : Kept q0 s) : KeptOut q0 (execStartupGapTimeout s) := by
  unfold execStartupGapTimeout
  with_reducible
    extract_lets +onlyGivenNames x
    refine keptOut_next ?_
    refine kept_ite ?_ ?_
    extract_lets +onlyGivenNames x
    refine kept_upd rfl ?_ rfl rfl rfl
    assumption
    assumption

theorem execUndefinedOpcode_kept (h : Hdr) (opcode : U16) (s : State) (h_s : Kept q0 s) : KeptOut q0 (execUndefinedOpcode h opcode s) := by
  unfold execUndefinedOpcode
  with_reducible
    extract_lets +onlyGivenNames x
    extract_lets +onlyGivenNames x
    extract_lets +onlyGivenNames x
    refine keptOut_next ?_
    refine kept_ite ?_ ?_
    assumption
    refine kept_ite ?_ ?_
    refine kept_ite ?_ ?_
    apply respond_kept
    assumption
    apply bump_kept
    assumption
    refine kept_ite ?_ ?_
    apply bump_kept
    assumption
    extract_lets +onlyGivenNames x; refine kept_cut x ?_ ?_ <;> [(subst x); (clear_value x; intro _)]
    apply countCmd_kept
    assumption
    split
    apply respond_kept
    apply bump_kept
    assumption
    apply answer_kept
    apply refuse_kept
    assumption

theorem chEvt_kept (code sev ch : Nat) (params : Bytes) (s : State) (h_s : Kept q0 s) : Kept q0 (chEvt code sev ch params s) := by
  unfold chEvt
  with_reducible
    apply raise_kept
    assumption

theorem chState_kept (ch old new cause : Nat) (s : State) (h_s : Kept q0 s) : Kept q0 (chState ch old new cause s) := by
  unfold chState
  with_reducible
    apply chEvt_kept
    assumption

theorem startLattice_kept (s : State) (h_s : Kept q0 s) : Kept q0 (startLattice s) := by
  unfold startLattice
  with_reducible
    refine kept_ite ?_ ?_
    assumption
    extract_lets +onlyGivenNames x
    extract_lets +onlyGivenNames x
    extract_lets +onlyGivenNames x
    extract_lets +onlyGivenNames x
    refine kept_upd rfl ?_ rfl rfl rfl
    assumption

theorem dropRings_kept (p : HP) (l : List Nat) (s : State) (h_s : Kept q0 s) : Kept q0 (dropRings p l s) := by
  unfold dropRings
  with_reducible
    refine kept_foldl (fun t x ht => ?_) ?_
    refine kept_ite ?_ ?_
    assumption
    apply unbindRing_kept
    assumption
    assumption

theorem sendVoice_kept (rtcp : Bool) (own : TxOwner) (v : VCh) (body : Bytes) (s : State) (h_s : Kept q0 s) : Kept q0 (sendVoice rtcp own v body s) := by
  unfold sendVoice
  with_reducible
    apply sendOwn_kept
    assumption

theorem skipQueue_kept (ch cause : Nat) (s : State) (h_s : Kept q0 s) : Kept q0 (skipQueue ch cause s) := by
  unfold skipQueue
  with_reducible
    split
    assumption
    refine kept_foldl (fun t x ht => ?_) ?_
    apply annSkip_kept
    assumption
    apply modCh_kept
    assumption

theorem closeCh_kept (ch cause : Nat) (s : State) (h_s : Kept q0 s) : Kept q0 (closeCh ch cause s) := by
  unfold closeCh
  with_reducible
    dsimp -zeta only
    split
    assumption
    refine kept_ite ?_ ?_
    assumption
    apply chState_kept
    apply dropRings_kept
    apply modCh_kept
    apply skipQueue_kept
    refine kept_ite ?_ ?_
    apply sendVoice_kept
    apply fresh_kept
    assumption
    assumption

theorem preempt_kept (by_ : Nat) (prio : U8) (l : List (Nat × VCh)) (s : State) (h_s : Kept q0 s) : Kept q0 (preempt by_ prio l s) := by
  unfold preempt
  with_reducible
    refine kept_foldl (fun t x ht => ?_) ?_
    apply closeCh_kept
    apply raise_kept
    apply bump_kept
    assumption
    assumption

theorem annStart_kept (ch : Nat) (r : AnnReq) (tai : Nat) (s : State) (h_s : Kept q0 s) : Kept q0 (annStart ch r tai s) := by
  unfold annStart
  with_reducible
    apply raise_kept
    apply bump_kept
    extract_lets +onlyGivenNames x
    refine kept_upd rfl ?_ rfl rfl rfl
    apply modCh_kept
    assumption

theorem annPick_kept (ch start tai : Nat) (s : State) (h_s : Kept q0 s) : Kept q0 (annPick ch start tai s) := by
  unfold annPick
  with_reducible
    split
    assumption
    split
    assumption
    split
    apply annStart_kept
    assumption
    refine kept_ite ?_ ?_
    apply annStart_kept
    apply bump_kept
    apply modCh_kept
    assumption
    assumption

theorem annBlock_kept (ch : Nat) (s : State) (h_s : Kept q0 s) : Kept q0 (annBlock ch s).2.2 := by
  unfold annBlock
  with_reducible
    dsimp -zeta only
    split
    assumption
    split
    assumption
    split
    apply modCh_kept
    assumption
    refine kept_ite3 ?_ ?_
    apply fresh_kept
    apply modCh_kept
    assumption
    apply modCh_kept
    assumption

theorem sendRtp_kept (ch pt : Nat) (marker : Bool) (ts : U32) (payload : Bytes) (s : State) (h_s : Kept q0 s) : Kept q0 (sendRtp ch pt marker ts payload s) := by
  unfold sendRtp
  with_reducible
    split
    assumption
    refine kept_ite ?_ ?_
    assumption
    apply sendVoice_kept
    apply setCh_kept
    assumption

theorem sendBlock_kept (ch : Nat) (pcm : List U16) (s : State) (h_s : Kept q0 s) : Kept q0 (sendBlock ch pcm s) := by
  unfold sendBlock
  with_reducible
    dsimp -zeta only
    split
    assumption
    refine kept_ite ?_ ?_
    apply setCh_kept
    assumption
    apply sendRtp_kept
    apply setCh_kept
    refine kept_ite2 ?_ ?_
    assumption
    apply fresh_kept
    assumption

theorem eventBlock_kept (ch start : Nat) (s : State) (h_s : Kept q0 s) : Kept q0 (eventBlock ch start s) := by
  unfold eventBlock
  with_reducible
    split
    assumption
    extract_lets +onlyGivenNames x
    split
    assumption
    refine kept_ite ?_ ?_
    apply sendRtp_kept
    apply setCh_kept
    assumption
    refine kept_ite ?_ ?_
    apply sendRtp_kept
    apply setCh_kept
    assumption
    refine kept_ite ?_ ?_
    apply sendRtp_kept
    apply setCh_kept
    assumption
    apply setCh_kept
    assumption

theorem hostOut_kept (ch leg : Nat) (concealed : Bool) (tai : Nat) (pcm : List U16) (s : State) (h_s : Kept q0 s) : Kept q0 (hostOut ch leg concealed tai pcm s) := by
  unfold hostOut
  with_reducible
    extract_lets +onlyGivenNames x
    split
    assumption
    extract_lets +onlyGivenNames x
    extract_lets +onlyGivenNames x
    split
    apply modCh_kept
    refine ringWrite_kept _ _ _ _ _  ?_  _ ‹_›
    assumption
    apply modCh_kept
    assumption

theorem toneRecord_kept (ch : Nat) (send : Bool) (kind value level source : Nat) (end_ : Bool) (start durUs : Nat) (s : State) (h_s : Kept q0 s) : Kept q0 (toneRecord ch send kind value level source end_ start durUs s) := by
  unfold toneRecord
  with_reducible
    extract_lets +onlyGivenNames x
    split
    assumption
    split
    assumption
    split
    refine ringWrite_kept _ _ _ _ _  ?_  _ ‹_›
    assumption
    apply bump_kept
    assumption

theorem toneStep_kept (start tai : Nat) (e : ToneEv) (s0 : State) (h_s0 : Kept q0 s0) : Kept q0 (toneStep start tai e s0) := by
  unfold toneStep
  with_reducible
    extract_lets +onlyGivenNames x
    extract_lets +onlyGivenNames x
    extract_lets +onlyGivenNames x
    split
    assumption
    refine kept_ite ?_ ?_
    assumption
    extract_lets +onlyGivenNames x
    extract_lets +onlyGivenNames x; refine kept_cut x ?_ ?_ <;> [(subst x); (clear_value x; intro _)]
    apply modCh_kept
    assumption
    extract_lets +onlyGivenNames x
    extract_lets +onlyGivenNames x; refine kept_cut x ?_ ?_ <;> [(subst x); (clear_value x; intro _)]
    refine kept_ite ?_ ?_
    assumption
    extract_lets +onlyGivenNames x
    split
    apply chEvt_kept
    apply modCh_kept
    assumption
    apply chEvt_kept
    apply modCh_kept
    assumption
    apply chEvt_kept
    apply modCh_kept
    assumption
    apply chEvt_kept
    apply modCh_kept
    assumption
    assumption
    extract_lets +onlyGivenNames x; refine kept_cut x ?_ ?_ <;> [(subst x); (clear_value x; intro _)]
    refine kept_ite ?_ ?_
    apply toneRecord_kept
    assumption
    assumption
    extract_lets +onlyGivenNames x
    split
    assumption
    refine kept_ite ?_ ?_
    apply modCh_kept
    assumption
    apply modCh_kept
    assumption

theorem receive_kept (ch start tai : Nat) (low : Bool) (ann : List U16) (annDir : Nat) (s : State) (h_s : Kept q0 s) : Kept q0 (receive ch start tai low ann annDir s) := by
  unfold receive
  with_reducible
    dsimp -zeta only
    split
    assumption
    extract_lets +onlyGivenNames x
    extract_lets +onlyGivenNames x
    extract_lets +onlyGivenNames x
    extract_lets +onlyGivenNames x
    extract_lets +onlyGivenNames x
    extract_lets +onlyGivenNames x; refine kept_cut x ?_ ?_ <;> [(subst x); (clear_value x; intro _)]
    apply setCh_kept
    apply fresh_kept
    apply fresh_kept
    assumption
    extract_lets +onlyGivenNames x
    split
    apply modCh_kept
    apply fresh_kept
    assumption
    apply hostOut_kept
    assumption
    assumption

theorem sendDir_kept (ch start tai : Nat) (ann : List U16) (annDir : Nat) (s : State) (h_s : Kept q0 s) : Kept q0 (sendDir ch start tai ann annDir s) := by
  unfold sendDir
  with_reducible
    dsimp -zeta only
    split
    assumption
    extract_lets +onlyGivenNames x
    extract_lets +onlyGivenNames x
    extract_lets +onlyGivenNames x
    extract_lets +onlyGivenNames x
    extract_lets +onlyGivenNames x; refine kept_cut x ?_ ?_ <;> [(subst x); (clear_value x; intro _)]
    apply setCh_kept
    apply fresh_kept
    apply fresh_kept
    apply fresh_kept
    assumption
    split
    apply sendBlock_kept
    apply eventBlock_kept
    assumption
    apply hostOut_kept
    assumption
    assumption

theorem genBlock_kept (ch : Nat) (s : State) (h_s : Kept q0 s) : Kept q0 (genBlock ch s) := by
  unfold genBlock
  with_reducible
    split
    assumption
    split
    assumption
    apply setCh_kept
    assumption

theorem chanBlock_kept (ch start tai : Nat) (low : Bool) (s : State) (h_s : Kept q0 s) : Kept q0 (chanBlock ch start tai low s) := by
  unfold chanBlock
  with_reducible
    apply genBlock_kept
    apply sendDir_kept
    apply receive_kept
    apply annBlock_kept
    apply annPick_kept
    assumption

theorem freeClosing_kept (s : State) (h_s : Kept q0 s) : Kept q0 (freeClosing s) := by
  unfold freeClosing
  with_reducible
    refine kept_foldl (fun t x ht => ?_) ?_
    refine kept_ite ?_ ?_
    apply unplace_kept
    extract_lets +onlyGivenNames x
    refine kept_upd rfl ?_ rfl rfl rfl
    apply chState_kept
    assumption
    assumption
    assumption

theorem execVoiceTdmConfig_kept (h : Hdr) (p : VoiceTdmConfigP) (s : State) (h_s : Kept q0 s) : KeptOut q0 (execVoiceTdmConfig h p s) := by
  unfold execVoiceTdmConfig
  with_reducible
    extract_lets +onlyGivenNames x
    extract_lets +onlyGivenNames x
    extract_lets +onlyGivenNames x
    refine keptOut_next ?_
    apply vci_kept
    extract_lets +onlyGivenNames x
    intro _
    extract_lets +onlyGivenNames x
    extract_lets +onlyGivenNames x
    extract_lets +onlyGivenNames x
    extract_lets +onlyGivenNames x
    extract_lets +onlyGivenNames x
    extract_lets +onlyGivenNames x
    extract_lets +onlyGivenNames x
    extract_lets +onlyGivenNames x
    intro _
    refine kept_iter ?_ ?_
    apply refuse_kept
    assumption
    apply done_kept
    extract_lets +onlyGivenNames x
    split
    refine kept_upd rfl ?_ rfl rfl rfl
    assumption
    refine kept_upd rfl ?_ rfl rfl rfl
    assumption
    assumption

theorem takeOctet_kept (f : TdmIn) (full : Bool) (c : Nat) (v : VCh) (s : State) (h_s : Kept q0 s) : Kept q0 (takeOctet f full c v s) := by
  unfold takeOctet
  with_reducible
    refine kept_ite ?_ ?_
    apply bump_kept
    apply setCh_kept
    assumption
    apply setCh_kept
    assumption

theorem tdmOne_kept (f : TdmIn) (s0 : State) (h_s0 : Kept q0 s0) : Kept q0 (tdmOne f s0) := by
  unfold tdmOne
  with_reducible
    refine kept_ite ?_ ?_
    assumption
    extract_lets +onlyGivenNames x
    refine kept_foldl (fun t x ht => ?_) ?_
    refine kept_ite ?_ ?_
    extract_lets +onlyGivenNames x
    split
    apply takeOctet_kept
    assumption
    assumption
    assumption
    refine kept_ite ?_ ?_
    refine kept_ite ?_ ?_
    apply bump_kept
    extract_lets +onlyGivenNames x
    extract_lets +onlyGivenNames x
    dsimp -zeta only
    refine kept_upd rfl ?_ rfl rfl rfl
    extract_lets +onlyGivenNames x
    refine kept_foldl (fun t x ht => ?_) ?_
    extract_lets +onlyGivenNames x
    split
    apply modCh_kept
    assumption
    assumption
    apply fresh_kept
    assumption
    apply bump_kept
    extract_lets +onlyGivenNames x
    extract_lets +onlyGivenNames x
    dsimp -zeta only
    refine kept_upd rfl ?_ rfl rfl rfl
    extract_lets +onlyGivenNames x
    refine kept_foldl (fun t x ht => ?_) ?_
    extract_lets +onlyGivenNames x
    split
    apply modCh_kept
    assumption
    assumption
    apply fresh_kept
    assumption
    refine kept_ite ?_ ?_
    apply raise_kept
    extract_lets +onlyGivenNames x
    extract_lets +onlyGivenNames x
    extract_lets +onlyGivenNames x
    dsimp -zeta only
    split
    refine kept_upd rfl ?_ rfl rfl rfl
    apply bumpBy_kept
    apply bump_kept
    extract_lets +onlyGivenNames x
    refine kept_upd rfl ?_ rfl rfl rfl
    extract_lets +onlyGivenNames x
    refine kept_foldl (fun t x ht => ?_) ?_
    extract_lets +onlyGivenNames x
    split
    apply modCh_kept
    assumption
    assumption
    apply fresh_kept
    assumption
    refine kept_upd rfl ?_ rfl rfl rfl
    apply bumpBy_kept
    apply bump_kept
    extract_lets +onlyGivenNames x
    refine kept_upd rfl ?_ rfl rfl rfl
    extract_lets +onlyGivenNames x
    refine kept_foldl (fun t x ht => ?_) ?_
    extract_lets +onlyGivenNames x
    split
    apply modCh_kept
    assumption
    assumption
    apply fresh_kept
    assumption
    apply bumpBy_kept
    refine kept_ite ?_ ?_
    apply bump_kept
    extract_lets +onlyGivenNames x
    extract_lets +onlyGivenNames x
    dsimp -zeta only
    refine kept_upd rfl ?_ rfl rfl rfl
    extract_lets +onlyGivenNames x
    refine kept_foldl (fun t x ht => ?_) ?_
    extract_lets +onlyGivenNames x
    split
    apply modCh_kept
    assumption
    assumption
    apply fresh_kept
    assumption
    apply bump_kept
    extract_lets +onlyGivenNames x
    extract_lets +onlyGivenNames x
    dsimp -zeta only
    refine kept_upd rfl ?_ rfl rfl rfl
    extract_lets +onlyGivenNames x
    refine kept_foldl (fun t x ht => ?_) ?_
    extract_lets +onlyGivenNames x
    split
    apply modCh_kept
    assumption
    assumption
    apply fresh_kept
    assumption

theorem execTdmFrame_kept (f : List TdmIn) (s : State) (h_s : Kept q0 s) : KeptOut q0 (execTdmFrame f s) := by
  unfold execTdmFrame
  with_reducible
    refine keptOut_next ?_
    extract_lets +onlyGivenNames x
    refine kept_foldl (fun t x ht => ?_) ?_
    apply tdmOne_kept
    assumption
    assumption

end Sys2Proof.Machine
end

