-- ==== Sys2Proof/Laws/Kept6.lean ====
section
/-!
SUPPORT. Operations keep a sound state and the commands that wait (part 6).
-/

namespace Sys2Proof.Machine

set_option Elab.async false
set_option linter.tactic.unusedName false

variable {q0 : List Instr}

theorem execVoiceChOpen_kept (h : Hdr) (p : VoiceCfg) (s : State) (h_s : Kept q0 s) : KeptOut q0 (execVoiceChOpen h p s) := by
  unfold execVoiceChOpen
  with_reducible
    refine keptOut_next ?_
    apply vci_kept
    extract_lets +onlyGivenNames x
    intro _
    intro _
    refine kept_iter ?_ ?_
    apply refuse_kept
    assumption
    extract_lets +onlyGivenNames x
    dsimp -zeta only
    split
    apply doneWith_kept
    apply chState_kept
    extract_lets +onlyGivenNames x
    refine kept_foldl (fun t x ht => ?_) ?_
    apply bindRing_kept
    assumption
    apply placeNew_kept
    apply setCh_kept
    apply fresh_kept
    apply fresh_kept
    apply startLattice_kept
    apply preempt_kept
    assumption
    apply refuse_kept
    assumption
    assumption

theorem ecModify_kept (ch : Nat) (v : VCh) (c : VoiceCfg) (s : State) (h_s : Kept q0 s) : Kept q0 (ecModify ch v c s) := by
  unfold ecModify
  with_reducible
    refine kept_ite ?_ ?_
    assumption
    refine kept_ite ?_ ?_
    apply chEvt_kept
    apply modCh_kept
    assumption
    apply chEvt_kept
    apply modCh_kept
    apply fresh_kept
    assumption

theorem execVoiceChModify_kept (h : Hdr) (p : VoiceModifyP) (s : State) (h_s : Kept q0 s) : KeptOut q0 (execVoiceChModify h p s) := by
  unfold execVoiceChModify
  with_reducible
    extract_lets +onlyGivenNames x
    refine keptOut_next ?_
    apply vci_kept
    extract_lets +onlyGivenNames x
    intro _
    intro _
    split
    apply refuse_kept
    assumption
    refine kept_iter ?_ ?_
    apply refuse_kept
    assumption
    extract_lets +onlyGivenNames x
    split
    apply refuse_kept
    assumption
    apply doneWith_kept
    apply ecModify_kept
    apply modCh_kept
    apply preempt_kept
    assumption
    assumption

theorem chCmd_kept (op : Nat) (u : Bool) (h : Hdr) (p : VoiceChP) (act : Nat → VCh → State → Rep) (s : State) (h_act : ∀ x0 x1 x2, Kept q0 x2 → Kept q0 (act x0 x1 x2).s) (h_s : Kept q0 s) : Kept q0 (chCmd op u h p act s) := by
  unfold chCmd
  refine vci_kept _ _ _ _ _ (fun t ht => ?_) h_s
  split
  · exact ht
  · exact kept_iter ht (h_act _ _ _ ht)

theorem execVoiceChStart_kept (h : Hdr) (p : VoiceChP) (s : State) (h_s : Kept q0 s) : KeptOut q0 (execVoiceChStart h p s) := by
  unfold execVoiceChStart
  with_reducible
    refine keptOut_next ?_
    apply chCmd_kept
    extract_lets +onlyGivenNames x
    intro _
    intro _
    intro _
    extract_lets +onlyGivenNames x
    intro _
    refine kept_iter ?_ ?_
    apply refuse_kept
    assumption
    apply done_kept
    apply chState_kept
    apply setCh_kept
    assumption
    assumption

theorem execVoiceChStop_kept (h : Hdr) (p : VoiceChP) (s : State) (h_s : Kept q0 s) : KeptOut q0 (execVoiceChStop h p s) := by
  unfold execVoiceChStop
  with_reducible
    refine keptOut_next ?_
    apply chCmd_kept
    extract_lets +onlyGivenNames x
    intro _
    intro _
    intro _
    extract_lets +onlyGivenNames x
    extract_lets +onlyGivenNames x
    intro _
    refine kept_iter ?_ ?_
    apply refuse_kept
    assumption
    apply done_kept
    apply chState_kept
    apply modCh_kept
    apply skipQueue_kept
    assumption
    assumption

theorem execEcReset_kept (h : Hdr) (p : VoiceChP) (s : State) (h_s : Kept q0 s) : KeptOut q0 (execEcReset h p s) := by
  unfold execEcReset
  with_reducible
    refine keptOut_next ?_
    apply chCmd_kept
    extract_lets +onlyGivenNames x
    intro _
    intro _
    intro _
    intro _
    apply done_kept
    apply modCh_kept
    assumption
    assumption

theorem execEcFreeze_kept (h : Hdr) (p : VoiceChP) (s : State) (h_s : Kept q0 s) : KeptOut q0 (execEcFreeze h p s) := by
  unfold execEcFreeze
  with_reducible
    refine keptOut_next ?_
    apply chCmd_kept
    extract_lets +onlyGivenNames x
    intro _
    intro _
    intro _
    intro _
    apply done_kept
    apply modCh_kept
    assumption
    assumption

theorem execEcUnfreeze_kept (h : Hdr) (p : VoiceChP) (s : State) (h_s : Kept q0 s) : KeptOut q0 (execEcUnfreeze h p s) := by
  unfold execEcUnfreeze
  with_reducible
    refine keptOut_next ?_
    apply chCmd_kept
    extract_lets +onlyGivenNames x
    intro _
    intro _
    intro _
    intro _
    apply done_kept
    apply modCh_kept
    assumption
    assumption

theorem resyncEvt_kept (ch : Nat) (s : State) (h_s : Kept q0 s) : Kept q0 (resyncEvt ch s) := by
  unfold resyncEvt
  with_reducible
    apply chEvt_kept
    assumption

theorem execJitterResync_kept (h : Hdr) (p : VoiceChP) (s : State) (h_s : Kept q0 s) : KeptOut q0 (execJitterResync h p s) := by
  unfold execJitterResync
  with_reducible
    refine keptOut_next ?_
    apply chCmd_kept
    extract_lets +onlyGivenNames x
    intro _
    intro _
    intro _
    intro _
    apply done_kept
    apply resyncEvt_kept
    apply modCh_kept
    assumption
    assumption

theorem execAnnouncementStop_kept (h : Hdr) (p : VoiceChP) (s : State) (h_s : Kept q0 s) : KeptOut q0 (execAnnouncementStop h p s) := by
  unfold execAnnouncementStop
  with_reducible
    refine keptOut_next ?_
    apply chCmd_kept
    extract_lets +onlyGivenNames x
    intro _
    intro _
    intro _
    extract_lets +onlyGivenNames x
    intro _
    apply done_kept
    apply skipQueue_kept
    extract_lets +onlyGivenNames x; refine kept_cut x ?_ ?_ <;> [(subst x); (clear_value x; intro _)]
    split
    apply annSkip_kept
    apply modCh_kept
    assumption
    assumption
    assumption
    assumption

theorem execVoiceChClose_kept (h : Hdr) (p : VoiceChP) (s : State) (h_s : Kept q0 s) : KeptOut q0 (execVoiceChClose h p s) := by
  unfold execVoiceChClose
  with_reducible
    refine keptOut_next ?_
    apply chCmd_kept
    extract_lets +onlyGivenNames x
    intro _
    intro _
    intro _
    intro _
    apply done_kept
    apply closeCh_kept
    assumption
    assumption

theorem execVoiceSrtpKey_kept (h : Hdr) (p : VoiceSrtpKeyP) (s : State) (h_s : Kept q0 s) : KeptOut q0 (execVoiceSrtpKey h p s) := by
  unfold execVoiceSrtpKey
  with_reducible
    extract_lets +onlyGivenNames x
    extract_lets +onlyGivenNames x
    refine keptOut_next ?_
    apply vci_kept
    extract_lets +onlyGivenNames x
    intro _
    intro _
    split
    apply refuse_kept
    assumption
    refine kept_iter ?_ ?_
    apply refuse_kept
    assumption
    refine kept_iter ?_ ?_
    apply doneWith_kept
    apply setCh_kept
    assumption
    apply doneWith_kept
    apply setCh_kept
    assumption
    assumption

theorem execVoiceToneProfile_kept (h : Hdr) (p : VoiceToneProfileP) (s : State) (h_s : Kept q0 s) : KeptOut q0 (execVoiceToneProfile h p s) := by
  unfold execVoiceToneProfile
  with_reducible
    extract_lets +onlyGivenNames x
    extract_lets +onlyGivenNames x
    extract_lets +onlyGivenNames x
    refine keptOut_next ?_
    apply vci_kept
    extract_lets +onlyGivenNames x
    intro _
    extract_lets +onlyGivenNames x
    intro _
    apply done_kept
    extract_lets +onlyGivenNames x
    refine kept_upd rfl ?_ rfl rfl rfl
    assumption
    assumption

theorem execVoiceToneBind_kept (h : Hdr) (p : RingBindP) (s : State) (h_s : Kept q0 s) : KeptOut q0 (execVoiceToneBind h p s) := by
  unfold execVoiceToneBind
  with_reducible
    refine keptOut_next ?_
    apply vci_kept
    extract_lets +onlyGivenNames x
    intro _
    extract_lets +onlyGivenNames x
    intro _
    split
    refine kept_iter ?_ ?_
    apply done_kept
    apply unbindRing_kept
    extract_lets +onlyGivenNames x
    refine kept_upd rfl ?_ rfl rfl rfl
    assumption
    apply refuse_kept
    assumption
    refine kept_iter ?_ ?_
    apply done_kept
    assumption
    apply done_kept
    apply bindRing_kept
    extract_lets +onlyGivenNames x
    refine kept_upd rfl ?_ rfl rfl rfl
    assumption
    assumption

theorem execVoiceToneGen_kept (h : Hdr) (p : VoiceToneGenP) (s : State) (h_s : Kept q0 s) : KeptOut q0 (execVoiceToneGen h p s) := by
  unfold execVoiceToneGen
  with_reducible
    extract_lets +onlyGivenNames x
    refine keptOut_next ?_
    apply vci_kept
    extract_lets +onlyGivenNames x
    intro _
    intro _
    split
    apply refuse_kept
    assumption
    refine kept_iter ?_ ?_
    apply refuse_kept
    assumption
    apply done_kept
    apply setCh_kept
    assumption
    assumption

theorem execVoiceAnnLoad_kept (h : Hdr) (p : VoiceAnnLoadP) (s : State) (h_s : Kept q0 s) : KeptOut q0 (execVoiceAnnLoad h p s) := by
  unfold execVoiceAnnLoad
  with_reducible
    extract_lets +onlyGivenNames x
    refine keptOut_next ?_
    apply vci_kept
    extract_lets +onlyGivenNames x
    intro _
    extract_lets +onlyGivenNames x
    extract_lets +onlyGivenNames x
    intro _
    refine kept_iter ?_ ?_
    apply refuse_kept
    assumption
    refine kept_iter ?_ ?_
    apply refuse_kept
    assumption
    apply bindRing_kept
    extract_lets +onlyGivenNames x
    refine kept_upd rfl ?_ rfl rfl rfl
    apply startLong_kept
    assumption
    assumption

theorem execVoiceAnnLoaded_kept (ann : BitVec 6) (data : Bytes) (s : State) (h_s : Kept q0 s) : KeptOut q0 (execVoiceAnnLoaded ann data s) := by
  unfold execVoiceAnnLoaded
  with_reducible
    extract_lets +onlyGivenNames x
    extract_lets +onlyGivenNames x
    refine keptOut_next ?_
    extract_lets +onlyGivenNames x
    split
    assumption
    extract_lets +onlyGivenNames x
    split
    assumption
    refine kept_ite ?_ ?_
    assumption
    apply completeLong_kept
    apply raise_kept
    apply unbindRing_kept
    extract_lets +onlyGivenNames x
    refine kept_upd rfl ?_ rfl rfl rfl
    assumption

theorem execVoiceAnnMapSet_kept (h : Hdr) (p : VoiceAnnMapP) (s : State) (h_s : Kept q0 s) : KeptOut q0 (execVoiceAnnMapSet h p s) := by
  unfold execVoiceAnnMapSet
  with_reducible
    refine keptOut_next ?_
    apply vci_kept
    extract_lets +onlyGivenNames x
    intro _
    extract_lets +onlyGivenNames x
    intro _
    apply done_kept
    extract_lets +onlyGivenNames x
    refine kept_upd rfl ?_ rfl rfl rfl
    assumption
    assumption

theorem execVoiceAnnMapRemove_kept (h : Hdr) (p : VoiceAnnMapP) (s : State) (h_s : Kept q0 s) : KeptOut q0 (execVoiceAnnMapRemove h p s) := by
  unfold execVoiceAnnMapRemove
  with_reducible
    refine keptOut_next ?_
    apply vci_kept
    extract_lets +onlyGivenNames x
    intro _
    extract_lets +onlyGivenNames x
    intro _
    apply done_kept
    extract_lets +onlyGivenNames x
    refine kept_upd rfl ?_ rfl rfl rfl
    assumption
    assumption

theorem execVoiceAnnPlay_kept (h : Hdr) (p : VoiceAnnPlayP) (s : State) (h_s : Kept q0 s) : KeptOut q0 (execVoiceAnnPlay h p s) := by
  unfold execVoiceAnnPlay
  with_reducible
    refine keptOut_next ?_
    apply vci_kept
    extract_lets +onlyGivenNames x
    intro _
    intro _
    apply done_kept
    extract_lets +onlyGivenNames x
    refine kept_foldl (fun t x ht => ?_) ?_
    apply annRequest_kept
    assumption
    apply fresh_kept
    assumption
    assumption

theorem idleBlock_kept (ch : Nat) (v : VCh) (tai : Nat) (s : State) (h_s : Kept q0 s) : Kept q0 (idleBlock ch v tai s) := by
  unfold idleBlock
  with_reducible
    refine kept_ite ?_ ?_
    apply hostOut_kept
    assumption
    assumption

theorem execVoiceBlock_kept (b : VoiceBlockIn) (s : State) (h_s : Kept q0 s) : KeptOut q0 (execVoiceBlock b s) := by
  unfold execVoiceBlock
  with_reducible
    extract_lets +onlyGivenNames x
    extract_lets +onlyGivenNames x
    extract_lets +onlyGivenNames x
    extract_lets +onlyGivenNames x
    extract_lets +onlyGivenNames x
    extract_lets +onlyGivenNames x
    extract_lets +onlyGivenNames x
    extract_lets +onlyGivenNames x
    refine keptOut_next ?_
    refine kept_ite ?_ ?_
    assumption
    extract_lets +onlyGivenNames x
    refine kept_upd rfl ?_ rfl rfl rfl
    extract_lets +onlyGivenNames x
    refine kept_foldl (fun t x ht => ?_) ?_
    refine kept_ite ?_ ?_
    apply chanBlock_kept
    assumption
    apply idleBlock_kept
    assumption
    extract_lets +onlyGivenNames x
    refine kept_foldl (fun t x ht => ?_) ?_
    extract_lets +onlyGivenNames x
    split
    refine kept_ite ?_ ?_
    apply chEvt_kept
    apply setCh_kept
    assumption
    assumption
    assumption
    extract_lets +onlyGivenNames x
    refine kept_foldl (fun t x ht => ?_) ?_
    apply toneStep_kept
    assumption
    apply freeClosing_kept
    assumption

theorem authFail_kept (ch : Nat) (v : VCh) (s : State) (h_s : Kept q0 s) : Kept q0 (authFail ch v s) := by
  unfold authFail
  with_reducible
    refine kept_ite ?_ ?_
    apply chEvt_kept
    apply setCh_kept
    assumption
    apply setCh_kept
    assumption

theorem endRxEvent_kept (ch : Nat) (e : TelEvent) (dur : Nat) (s : State) (h_s : Kept q0 s) : Kept q0 (endRxEvent ch e dur s) := by
  unfold endRxEvent
  with_reducible
    apply toneRecord_kept
    apply modCh_kept
    assumption

theorem rxEvent_kept (ch tai el : Nat) (v : VCh) (p : RtpPacket) (s : State) (h_s : Kept q0 s) : Kept q0 (rxEvent ch tai el v p s) := by
  unfold rxEvent
  with_reducible
    dsimp -zeta only
    split
    refine kept_ite ?_ ?_
    assumption
    refine kept_ite ?_ ?_
    assumption
    refine kept_ite ?_ ?_
    apply endRxEvent_kept
    extract_lets +onlyGivenNames x
    split
    refine kept_ite2 ?_ ?_
    assumption
    apply toneRecord_kept
    refine kept_ite ?_ ?_
    apply endRxEvent_kept
    assumption
    assumption
    apply toneRecord_kept
    assumption
    apply modCh_kept
    extract_lets +onlyGivenNames x
    split
    refine kept_ite2 ?_ ?_
    assumption
    apply toneRecord_kept
    refine kept_ite ?_ ?_
    apply endRxEvent_kept
    assumption
    assumption
    apply toneRecord_kept
    assumption
    assumption

theorem acceptRtp_kept (ch tai el : Nat) (p : RtpPacket) (idx : Nat) (old : Bool) (v0 : VCh) (s0 : State) (h_s0 : Kept q0 s0) : Kept q0 (acceptRtp ch tai el p idx old v0 s0) := by
  unfold acceptRtp
  with_reducible
    refine kept_ite ?_ ?_
    apply rxEvent_kept
    apply modCh_kept
    refine kept_ite ?_ ?_
    apply chEvt_kept
    apply setCh_kept
    refine kept_ite ?_ ?_
    apply chEvt_kept
    assumption
    assumption
    apply setCh_kept
    refine kept_ite ?_ ?_
    apply chEvt_kept
    assumption
    assumption
    refine kept_ite ?_ ?_
    refine kept_ite ?_ ?_
    apply chEvt_kept
    apply setCh_kept
    refine kept_ite ?_ ?_
    apply chEvt_kept
    assumption
    assumption
    apply setCh_kept
    refine kept_ite ?_ ?_
    apply chEvt_kept
    assumption
    assumption
    refine kept_ite ?_ ?_
    apply resyncEvt_kept
    apply setCh_kept
    refine kept_ite ?_ ?_
    apply chEvt_kept
    apply setCh_kept
    refine kept_ite ?_ ?_
    apply chEvt_kept
    assumption
    assumption
    apply setCh_kept
    refine kept_ite ?_ ?_
    apply chEvt_kept
    assumption
    assumption
    apply setCh_kept
    refine kept_ite ?_ ?_
    apply chEvt_kept
    apply setCh_kept
    refine kept_ite ?_ ?_
    apply chEvt_kept
    assumption
    assumption
    apply setCh_kept
    refine kept_ite ?_ ?_
    apply chEvt_kept
    assumption
    assumption

theorem execRtpPacketRx_kept (p : RtpPacket) (s0 : State) (h_s0 : Kept q0 s0) : KeptOut q0 (execRtpPacketRx p s0) := by
  unfold execRtpPacketRx
  with_reducible
    extract_lets +onlyGivenNames x
    extract_lets +onlyGivenNames x
    extract_lets +onlyGivenNames x
    extract_lets +onlyGivenNames x
    refine keptOut_next ?_
    refine kept_ite ?_ ?_
    assumption
    extract_lets +onlyGivenNames x
    split
    apply popIn_kept
    assumption
    refine kept_ite ?_ ?_
    apply setCh_kept
    apply popIn_kept
    assumption
    refine kept_ite ?_ ?_
    apply setCh_kept
    apply popIn_kept
    assumption
    refine kept_ite ?_ ?_
    apply setCh_kept
    apply popIn_kept
    assumption
    refine kept_ite ?_ ?_
    apply setCh_kept
    apply popIn_kept
    assumption
    refine kept_ite ?_ ?_
    apply authFail_kept
    apply popIn_kept
    assumption
    refine kept_ite ?_ ?_
    apply setCh_kept
    apply popIn_kept
    assumption
    refine kept_ite ?_ ?_
    apply setCh_kept
    apply popIn_kept
    assumption
    apply acceptRtp_kept
    apply popIn_kept
    assumption

theorem execDtmfEventTimeout_kept (ch : U16) (s : State) (h_s : Kept q0 s) : KeptOut q0 (execDtmfEventTimeout ch s) := by
  unfold execDtmfEventTimeout
  with_reducible
    refine keptOut_next ?_
    extract_lets +onlyGivenNames x
    split
    assumption
    split
    refine kept_ite ?_ ?_
    apply endRxEvent_kept
    assumption
    assumption
    assumption

theorem execRtcpTx_kept (ch : U16) (s : State) (h_s : Kept q0 s) : KeptOut q0 (execRtcpTx ch s) := by
  unfold execRtcpTx
  with_reducible
    extract_lets +onlyGivenNames x
    refine keptOut_next ?_
    extract_lets +onlyGivenNames x
    dsimp -zeta only
    split
    assumption
    refine kept_ite ?_ ?_
    assumption
    refine kept_ite ?_ ?_
    apply setCh_kept
    apply fresh_kept
    assumption
    apply sendVoice_kept
    apply setCh_kept
    apply fresh_kept
    assumption

theorem execRtcpRx_kept (r : RtcpReport) (s0 : State) (h_s0 : Kept q0 s0) : KeptOut q0 (execRtcpRx r s0) := by
  unfold execRtcpRx
  with_reducible
    extract_lets +onlyGivenNames x
    refine keptOut_next ?_
    refine kept_ite ?_ ?_
    assumption
    refine kept_ite ?_ ?_
    apply popIn_kept
    assumption
    extract_lets +onlyGivenNames x; refine kept_cut x ?_ ?_ <;> [(subst x); (clear_value x; intro _)]
    apply popIn_kept
    assumption
    split
    assumption
    refine kept_ite ?_ ?_
    apply setCh_kept
    assumption
    assumption

theorem execVoiceMediaTimeout_kept (ch : U16) (s : State) (h_s : Kept q0 s) : KeptOut q0 (execVoiceMediaTimeout ch s) := by
  unfold execVoiceMediaTimeout
  with_reducible
    extract_lets +onlyGivenNames x
    refine keptOut_next ?_
    extract_lets +onlyGivenNames x
    split
    assumption
    refine kept_ite ?_ ?_
    apply chEvt_kept
    apply setCh_kept
    assumption
    assumption

theorem execHostVoiceBlock_kept (b : HostVoice) (s : State) (h_s : Kept q0 s) : KeptOut q0 (execHostVoiceBlock b s) := by
  unfold execHostVoiceBlock
  with_reducible
    extract_lets +onlyGivenNames x
    extract_lets +onlyGivenNames x
    extract_lets +onlyGivenNames x
    refine keptOut_next ?_
    extract_lets +onlyGivenNames x
    split
    assumption
    refine kept_ite ?_ ?_
    assumption
    refine kept_ite ?_ ?_
    apply completeDesc_kept
    apply poisonDma_kept
    assumption
    extract_lets +onlyGivenNames x
    split
    apply bump_kept
    apply completeDesc_kept
    assumption
    refine kept_ite ?_ ?_
    apply bump_kept
    apply completeDesc_kept
    assumption
    refine kept_ite ?_ ?_
    apply bump_kept
    apply completeDesc_kept
    assumption
    apply completeDesc_kept
    apply setCh_kept
    assumption

theorem execYarrowConfig_kept (h : Hdr) (p : YarrowConfigP) (s : State) (h_s : Kept q0 s) : KeptOut q0 (execYarrowConfig h p s) := by
  unfold execYarrowConfig
  with_reducible
    refine keptOut_next ?_
    apply vci_kept
    extract_lets +onlyGivenNames x
    intro _
    extract_lets +onlyGivenNames x
    intro _
    apply done_kept
    extract_lets +onlyGivenNames x
    refine kept_upd rfl ?_ rfl rfl rfl
    assumption
    assumption

theorem execYarrowLoadBind_kept (h : Hdr) (p : YarrowLoadBindP) (s : State) (h_s : Kept q0 s) : KeptOut q0 (execYarrowLoadBind h p s) := by
  unfold execYarrowLoadBind
  with_reducible
    refine keptOut_next ?_
    apply vci_kept
    extract_lets +onlyGivenNames x
    intro _
    extract_lets +onlyGivenNames x
    intro _
    split
    refine kept_iter ?_ ?_
    apply done_kept
    apply unbindRing_kept
    extract_lets +onlyGivenNames x
    refine kept_upd rfl ?_ rfl rfl rfl
    assumption
    apply refuse_kept
    assumption
    refine kept_iter ?_ ?_
    apply done_kept
    assumption
    apply done_kept
    apply bindRing_kept
    extract_lets +onlyGivenNames x
    refine kept_upd rfl ?_ rfl rfl rfl
    assumption
    assumption

theorem execTaskDispatch_kept (s : State) (h_s : Kept q0 s) : KeptOut q0 (execTaskDispatch s) := by
  unfold execTaskDispatch
  with_reducible
    refine keptOut_next ?_
    apply matchCores_kept
    assumption

theorem execDelayExpiry_kept (s : State) (h_s : Kept q0 s) : KeptOut q0 (execDelayExpiry s) := by
  unfold execDelayExpiry
  with_reducible
    refine keptOut_next ?_
    apply expireUpTo_kept
    assumption

theorem coreWindow_kept (n : Nat) (s : State) (h_s : Kept q0 s) : Kept q0 (coreWindow n s) := by
  unfold coreWindow
  with_reducible
    apply raiseIf_kept
    refine kept_ite ?_ ?_
    extract_lets +onlyGivenNames x
    split
    refine kept_upd rfl ?_ rfl rfl rfl
    assumption
    refine kept_upd rfl ?_ rfl rfl rfl
    assumption
    apply setCore_kept
    extract_lets +onlyGivenNames x
    split
    refine kept_upd rfl ?_ rfl rfl rfl
    assumption
    refine kept_upd rfl ?_ rfl rfl rfl
    assumption

theorem loadWindow_kept (p : HP) (s : State) (h_s : Kept q0 s) : Kept q0 (loadWindow p s) := by
  unfold loadWindow
  with_reducible
    extract_lets +onlyGivenNames x
    extract_lets +onlyGivenNames x
    split
    assumption
    refine kept_ite ?_ ?_
    extract_lets +onlyGivenNames x
    refine kept_upd rfl ?_ rfl rfl rfl
    assumption
    refine kept_ite ?_ ?_
    extract_lets +onlyGivenNames x
    refine kept_upd rfl ?_ rfl rfl rfl
    assumption
    extract_lets +onlyGivenNames x; refine kept_cut x ?_ ?_ <;> [(subst x); (clear_value x; intro _)]
    split
    refine ringWrite_kept _ _ _ _ _  ?_  _ ‹_›
    assumption
    apply bump_kept
    assumption
    extract_lets +onlyGivenNames x
    refine kept_upd rfl ?_ rfl rfl rfl
    assumption

theorem execLoadWindowEnd_kept (s : State) (h_s : Kept q0 s) : KeptOut q0 (execLoadWindowEnd s) := by
  unfold execLoadWindowEnd
  with_reducible
    extract_lets +onlyGivenNames x
    extract_lets +onlyGivenNames x
    extract_lets +onlyGivenNames x
    refine keptOut_next ?_
    refine kept_ite ?_ ?_
    assumption
    extract_lets +onlyGivenNames x
    refine kept_upd rfl ?_ rfl rfl rfl
    extract_lets +onlyGivenNames x
    refine kept_foldl (fun t x ht => ?_) ?_
    apply loadWindow_kept
    assumption
    extract_lets +onlyGivenNames x
    refine kept_foldl (fun t x ht => ?_) ?_
    apply coreWindow_kept
    assumption
    assumption

theorem moveTask_kept (t : Nat) (k : Task) (cl : Nat) (s : State) (h_s : Kept q0 s) : Kept q0 (moveTask t k cl s) := by
  unfold moveTask
  with_reducible
    extract_lets +onlyGivenNames x
    extract_lets +onlyGivenNames x; refine kept_cut x ?_ ?_ <;> [(subst x); (clear_value x; intro _)]
    apply setTask_kept
    apply touchQueue_kept
    assumption
    extract_lets +onlyGivenNames x; refine kept_cut x ?_ ?_ <;> [(subst x); (clear_value x; intro _)]
    apply touchQueue_kept
    assumption
    extract_lets +onlyGivenNames x
    extract_lets +onlyGivenNames x; refine kept_cut x ?_ ?_ <;> [(subst x); (clear_value x; intro _)]
    apply setQ_kept
    assumption
    extract_lets +onlyGivenNames x
    split
    apply noteDepth_kept
    refine kept_ite ?_ ?_
    assumption
    apply freeEntry_kept
    assumption
    refine kept_ite ?_ ?_
    apply enterReady_kept
    assumption
    apply setTask_kept
    apply setQ_kept
    assumption
    apply setTask_kept
    assumption

theorem applyTaskMove_kept (t reason cl : Nat) (s : State) (h_s : Kept q0 s) : Kept q0 (applyTaskMove t reason cl s) := by
  unfold applyTaskMove
  with_reducible
    split
    assumption
    refine kept_ite ?_ ?_
    assumption
    refine kept_ite ?_ ?_
    apply setTask_kept
    assumption
    apply logTaskMove_kept
    apply moveTask_kept
    assumption

theorem applyPlaceMove_kept (v : PlacementIn) (m : MoveP) (s : State) (h_s : Kept q0 s) : Kept q0 (applyPlaceMove v m s) := by
  unfold applyPlaceMove
  with_reducible
    extract_lets +onlyGivenNames x
    extract_lets +onlyGivenNames x
    extract_lets +onlyGivenNames x
    extract_lets +onlyGivenNames x
    extract_lets +onlyGivenNames x
    split
    assumption
    refine kept_ite ?_ ?_
    assumption
    extract_lets +onlyGivenNames x
    split
    apply movePlace_kept
    assumption
    refine kept_upd rfl ?_ rfl rfl rfl
    assumption

theorem applyMove_kept (v : PlacementIn) (s : State) (m : MoveP) (h_s : Kept q0 s) : Kept q0 (applyMove v s m) := by
  unfold applyMove
  with_reducible
    refine kept_ite ?_ ?_
    assumption
    extract_lets +onlyGivenNames x
    split
    apply applyPlaceMove_kept
    assumption
    apply applyPlaceMove_kept
    assumption
    apply applyPlaceMove_kept
    assumption
    apply applyPlaceMove_kept
    assumption
    refine kept_ite ?_ ?_
    assumption
    apply applyTaskMove_kept
    assumption
    refine kept_ite ?_ ?_
    apply applyTaskMove_kept
    assumption
    assumption
    assumption

theorem closeLoads_kept (s : State) (h_s : Kept q0 s) : Kept q0 (closeLoads s) := by
  unfold closeLoads
  with_reducible
    refine kept_foldl (fun t x ht => ?_) ?_
    extract_lets +onlyGivenNames x
    extract_lets +onlyGivenNames x
    refine kept_upd rfl ?_ rfl rfl rfl
    assumption
    assumption

theorem execPlacementEvaluation_kept (v : PlacementIn) (s : State) (h_s : Kept q0 s) : KeptOut q0 (execPlacementEvaluation v s) := by
  unfold execPlacementEvaluation
  with_reducible
    extract_lets +onlyGivenNames x
    refine keptOut_next ?_
    refine kept_ite ?_ ?_
    assumption
    extract_lets +onlyGivenNames x
    refine kept_foldl (fun t x ht => ?_) ?_
    apply applyMove_kept
    assumption
    apply closeLoads_kept
    extract_lets +onlyGivenNames x
    refine kept_upd rfl ?_ rfl rfl rfl
    assumption

theorem bindOpt_kept (p : HP) (r : Option Nat) (u : RingUse) (s : State) (h_s : Kept q0 s) : Kept q0 (bindOpt p r u s) := by
  unfold bindOpt
  with_reducible
    split
    apply bindRing_kept
    assumption
    assumption

theorem unbindOpt_kept (p : HP) (r : Option Nat) (u : RingUse) (s : State) (h_s : Kept q0 s) : Kept q0 (unbindOpt p r u s) := by
  unfold unbindOpt
  with_reducible
    split
    apply unbindRing_kept
    assumption
    assumption

theorem execCaptureAdd_kept (h : Hdr) (p : CaptureAddP) (s : State) (h_s : Kept q0 s) : KeptOut q0 (execCaptureAdd h p s) := by
  unfold execCaptureAdd
  with_reducible
    extract_lets +onlyGivenNames x
    extract_lets +onlyGivenNames x
    refine keptOut_next ?_
    apply vci_kept
    extract_lets +onlyGivenNames x
    intro _
    extract_lets +onlyGivenNames x
    intro _
    refine kept_iter ?_ ?_
    apply refuse_kept
    assumption
    extract_lets +onlyGivenNames x
    split
    apply refuse_kept
    assumption
    apply doneWith_kept
    apply capPoolCheck_kept
    apply bindOpt_kept
    apply bindOpt_kept
    extract_lets +onlyGivenNames x
    refine kept_upd rfl ?_ rfl rfl rfl
    assumption
    assumption

theorem execCaptureSources_kept (h : Hdr) (p : CaptureSourcesP) (s : State) (h_s : Kept q0 s) : KeptOut q0 (execCaptureSources h p s) := by
  unfold execCaptureSources
  with_reducible
    extract_lets +onlyGivenNames x
    extract_lets +onlyGivenNames x
    refine keptOut_next ?_
    apply vci_kept
    extract_lets +onlyGivenNames x
    intro _
    intro _
    split
    apply refuse_kept
    assumption
    refine kept_iter ?_ ?_
    apply refuse_kept
    assumption
    apply done_kept
    apply modLane_kept
    assumption
    assumption

theorem execCaptureTriggerSet_kept (h : Hdr) (p : CaptureTriggerSetP) (s : State) (h_s : Kept q0 s) : KeptOut q0 (execCaptureTriggerSet h p s) := by
  unfold execCaptureTriggerSet
  with_reducible
    extract_lets +onlyGivenNames x
    extract_lets +onlyGivenNames x
    extract_lets +onlyGivenNames x
    refine keptOut_next ?_
    apply vci_kept
    extract_lets +onlyGivenNames x
    intro _
    extract_lets +onlyGivenNames x
    extract_lets +onlyGivenNames x
    intro _
    split
    apply refuse_kept
    assumption
    refine kept_iter ?_ ?_
    apply refuse_kept
    assumption
    refine kept_iter ?_ ?_
    apply done_kept
    apply modCap_kept
    apply dropTimed_kept
    assumption
    refine kept_iter ?_ ?_
    apply done_kept
    apply lateAction_kept
    apply fireTimedEntry_kept
    apply modCap_kept
    apply dropTimed_kept
    assumption
    apply done_kept
    apply addTimed_kept
    apply modCap_kept
    apply dropTimed_kept
    assumption
    assumption

theorem execCaptureArm_kept (h : Hdr) (p : CaptureArmP) (s : State) (h_s : Kept q0 s) : KeptOut q0 (execCaptureArm h p s) := by
  unfold execCaptureArm
  with_reducible
    extract_lets +onlyGivenNames x
    refine keptOut_next ?_
    apply vci_kept
    extract_lets +onlyGivenNames x
    intro _
    extract_lets +onlyGivenNames x
    extract_lets +onlyGivenNames x
    intro _
    split
    apply refuse_kept
    assumption
    refine kept_iter ?_ ?_
    apply done_kept
    assumption
    apply done_kept
    apply streamItem_kept
    apply capState_kept
    apply modCap_kept
    assumption
    assumption

theorem execCaptureDisarm_kept (h : Hdr) (p : CaptureArmP) (s : State) (h_s : Kept q0 s) : KeptOut q0 (execCaptureDisarm h p s) := by
  unfold execCaptureDisarm
  with_reducible
    extract_lets +onlyGivenNames x
    refine keptOut_next ?_
    apply vci_kept
    extract_lets +onlyGivenNames x
    intro _
    extract_lets +onlyGivenNames x
    extract_lets +onlyGivenNames x
    intro _
    split
    apply refuse_kept
    assumption
    refine kept_iter ?_ ?_
    apply done_kept
    assumption
    apply done_kept
    apply modCap_kept
    apply capState_kept
    assumption
    assumption

theorem execCaptureFilled_kept (capture : U8) (s : State) (h_s : Kept q0 s) : KeptOut q0 (execCaptureFilled capture s) := by
  unfold execCaptureFilled
  with_reducible
    refine keptOut_next ?_
    extract_lets +onlyGivenNames x
    split
    assumption
    refine kept_ite ?_ ?_
    apply capState_kept
    assumption
    assumption

theorem execCaptureTrigger_kept (h : Hdr) (p : CaptureTriggerP) (s : State) (h_s : Kept q0 s) : KeptOut q0 (execCaptureTrigger h p s) := by
  unfold execCaptureTrigger
  with_reducible
    extract_lets +onlyGivenNames x
    refine keptOut_next ?_
    apply vci_kept
    extract_lets +onlyGivenNames x
    intro _
    extract_lets +onlyGivenNames x
    intro _
    refine kept_iter ?_ ?_
    apply refuse_kept
    assumption
    apply done_kept
    apply trigger_kept
    assumption
    assumption

theorem execTriggerHoldoffEnd_kept (capture : U8) (entry : BitVec 4) (s : State) (h_s : Kept q0 s) : KeptOut q0 (execTriggerHoldoffEnd capture entry s) := by
  unfold execTriggerHoldoffEnd
  with_reducible
    refine keptOut_next ?_
    extract_lets +onlyGivenNames x
    split
    assumption
    split
    refine kept_ite ?_ ?_
    apply modCap_kept
    assumption
    assumption
    assumption

theorem execCaptureRemoteConfig_kept (h : Hdr) (p : CaptureRemoteConfigP) (s : State) (h_s : Kept q0 s) : KeptOut q0 (execCaptureRemoteConfig h p s) := by
  unfold execCaptureRemoteConfig
  with_reducible
    extract_lets +onlyGivenNames x
    refine keptOut_next ?_
    apply vci_kept
    extract_lets +onlyGivenNames x
    intro _
    extract_lets +onlyGivenNames x
    intro _
    apply done_kept
    extract_lets +onlyGivenNames x
    refine kept_upd rfl ?_ rfl rfl rfl
    assumption
    assumption

theorem remoteBad_kept (cause : Nat) (f : RemoteRx) (s : State) (h_s : Kept q0 s) : Kept q0 (remoteBad cause f s) := by
  unfold remoteBad
  with_reducible
    apply raise_kept
    apply bump_kept
    assumption

theorem fireRemote_kept (f : RemoteRx) (s : State) (h_s : Kept q0 s) : Kept q0 (fireRemote f s) := by
  unfold fireRemote
  with_reducible
    refine kept_foldl (fun t x ht => ?_) ?_
    refine kept_ite ?_ ?_
    assumption
    extract_lets +onlyGivenNames x
    refine kept_foldl (fun t x ht => ?_) ?_
    refine kept_ite ?_ ?_
    apply fireEntry_kept
    assumption
    assumption
    assumption
    assumption

theorem execRemoteTriggerRx_kept (f : RemoteRx) (s : State) (h_s : Kept q0 s) : KeptOut q0 (execRemoteTriggerRx f s) := by
  unfold execRemoteTriggerRx
  with_reducible
    extract_lets +onlyGivenNames x
    extract_lets +onlyGivenNames x
    extract_lets +onlyGivenNames x
    extract_lets +onlyGivenNames x
    refine keptOut_next ?_
    refine kept_ite ?_ ?_
    assumption
    refine kept_ite ?_ ?_
    apply remoteBad_kept
    apply popIn_kept
    assumption
    refine kept_ite ?_ ?_
    apply remoteBad_kept
    apply popIn_kept
    assumption
    refine kept_ite ?_ ?_
    apply remoteBad_kept
    apply popIn_kept
    assumption
    refine kept_ite ?_ ?_
    apply bump_kept
    apply popIn_kept
    assumption
    refine kept_ite ?_ ?_
    apply popIn_kept
    assumption
    apply fireRemote_kept
    apply bump_kept
    extract_lets +onlyGivenNames x; refine kept_cut x ?_ ?_ <;> [(subst x); (clear_value x; intro _)]
    refine kept_upd rfl ?_ rfl rfl rfl
    apply popIn_kept
    assumption
    assumption

theorem settleRecords_kept (c : Nat) (s : State) (h_s : Kept q0 s) : Kept q0 (settleRecords c s) := by
  unfold settleRecords
  with_reducible
    split
    assumption
    refine kept_ite ?_ ?_
    apply capState_kept
    apply modCap_kept
    assumption
    apply modCap_kept
    assumption

theorem patchItem_kept (c lane base tag : Nat) (old new : List U64) (s : State) (h_s : Kept q0 s) : Kept q0 (patchItem c lane base tag old new s) := by
  unfold patchItem
  with_reducible
    refine kept_ite ?_ ?_
    assumption
    apply streamItem_kept
    assumption

theorem newRow_kept (c lane : Nat) (k : Cap) (l : Lane) (r : Nat × List U64) (s : State) (h_s : Kept q0 s) : Kept q0 (newRow c lane k l r s) := by
  unfold newRow
  with_reducible
    extract_lets +onlyGivenNames x; refine kept_cut x ?_ ?_ <;> [(subst x); (clear_value x; intro _)]
    apply streamItem_kept
    apply writeRow_kept
    assumption
    extract_lets +onlyGivenNames x; refine kept_cut x ?_ ?_ <;> [(subst x); (clear_value x; intro _)]
    refine kept_ite ?_ ?_
    apply modLane_kept
    assumption
    assumption
    split
    apply evalLane_kept
    assumption
    assumption

theorem lostRows_kept (c lane : Nat) (k : Cap) (l : Lane) (a0 : Nat) (a1 : Nat) (a2 : State) (h_a2 : Kept q0 a2) : Kept q0 (lostRows c lane k l a0 a1 a2) := by
  fun_induction lostRows c lane k l a0 a1 a2
  with_reducible
    assumption
    rename_i ih; apply ih
    apply newRow_kept
    assumption

theorem patchRow_kept (c lane : Nat) (k : Cap) (l : Lane) (tag : Nat) (words : List U64) (s : State) (h_s : Kept q0 s) : Kept q0 (patchRow c lane k l tag words s) := by
  unfold patchRow
  with_reducible
    extract_lets +onlyGivenNames x
    extract_lets +onlyGivenNames x; refine kept_cut x ?_ ?_ <;> [(subst x); (clear_value x; intro _)]
    refine kept_ite ?_ ?_
    assumption
    apply modCap_kept
    assumption
    split
    assumption
    apply evalLane_kept
    apply patchItem_kept
    apply writeRow_kept
    assumption

theorem tookTo_kept (c lane el : Nat) (s : State) (h_s : Kept q0 s) : Kept q0 (tookTo c lane el s) := by
  unfold tookTo
  with_reducible
    apply modLane_kept
    assumption

theorem execCaptureRows_kept (capture : U8) (lane : U8) (rows : CapIn) (s : State) (h_s : Kept q0 s) : KeptOut q0 (execCaptureRows capture lane rows s) := by
  unfold execCaptureRows
  with_reducible
    extract_lets +onlyGivenNames x
    extract_lets +onlyGivenNames x
    refine keptOut_next ?_
    extract_lets +onlyGivenNames x
    split
    assumption
    refine kept_ite ?_ ?_
    assumption
    extract_lets +onlyGivenNames x
    split
    assumption
    apply autoExport_kept
    apply settleRecords_kept
    extract_lets +onlyGivenNames x
    split
    refine kept_ite ?_ ?_
    assumption
    refine kept_ite ?_ ?_
    apply patchRow_kept
    assumption
    refine kept_ite ?_ ?_
    assumption
    apply newRow_kept
    assumption
    split
    assumption
    apply tookTo_kept
    apply newRow_kept
    assumption
    refine kept_ite ?_ ?_
    assumption
    apply capMark_kept
    apply modCap_kept
    apply tookTo_kept
    apply lostRows_kept
    assumption

theorem execRecordAssembled_kept (capture : U8) (slot : U8) (s0 : State) (h_s0 : Kept q0 s0) : KeptOut q0 (execRecordAssembled capture slot s0) := by
  unfold execRecordAssembled
  with_reducible
    extract_lets +onlyGivenNames x
    extract_lets +onlyGivenNames x
    extract_lets +onlyGivenNames x
    refine keptOut_next ?_
    extract_lets +onlyGivenNames x; refine kept_cut x ?_ ?_ <;> [(subst x); (clear_value x; intro _)]
    apply settleRecords_kept
    assumption
    split
    assumption
    split
    assumption
    refine kept_ite ?_ ?_
    assumption
    apply autoExport_kept
    apply raise_kept
    apply modCap_kept
    assumption

theorem execCaptureRecordFree_kept (h : Hdr) (p : CaptureRecordFreeP) (s : State) (h_s : Kept q0 s) : KeptOut q0 (execCaptureRecordFree h p s) := by
  unfold execCaptureRecordFree
  with_reducible
    extract_lets +onlyGivenNames x
    refine keptOut_next ?_
    apply vci_kept
    extract_lets +onlyGivenNames x
    intro _
    intro _
    split
    refine kept_iter ?_ ?_
    apply refuse_kept
    assumption
    apply done_kept
    apply modCap_kept
    assumption
    apply refuse_kept
    assumption
    assumption

theorem setRecAt_kept (source c slot : Nat) (r : Option RecSlot) (s : State) (h_s : Kept q0 s) : Kept q0 (setRecAt source c slot r s) := by
  unfold setRecAt
  with_reducible
    extract_lets +onlyGivenNames x
    extract_lets +onlyGivenNames x
    split
    apply modCap_kept
    assumption
    refine kept_upd rfl ?_ rfl rfl rfl
    assumption
    refine kept_upd rfl ?_ rfl rfl rfl
    assumption

theorem setJob_kept (id : Nat) (j : CapJob) (s : State) (h_s : Kept q0 s) : Kept q0 (setJob id j s) := by
  unfold setJob
  with_reducible
    extract_lets +onlyGivenNames x
    refine kept_upd rfl ?_ rfl rfl rfl
    assumption

theorem delJob_kept (id : Nat) (s : State) (h_s : Kept q0 s) : Kept q0 (delJob id s) := by
  unfold delJob
  with_reducible
    extract_lets +onlyGivenNames x
    refine kept_upd rfl ?_ rfl rfl rfl
    assumption

theorem execCaptureExport_kept (h : Hdr) (p : CaptureExportP) (s : State) (h_s : Kept q0 s) : KeptOut q0 (execCaptureExport h p s) := by
  unfold execCaptureExport
  with_reducible
    extract_lets +onlyGivenNames x
    extract_lets +onlyGivenNames x
    extract_lets +onlyGivenNames x
    refine keptOut_next ?_
    apply vci_kept
    extract_lets +onlyGivenNames x
    intro _
    intro _
    dsimp -zeta only
    split
    apply refuse_kept
    assumption
    refine kept_iter ?_ ?_
    apply refuse_kept
    assumption
    apply bindRing_kept
    apply setJob_kept
    apply setRecAt_kept
    apply startLong_kept
    assumption
    assumption

theorem execCaptureExportDone_kept (cmd_ : U32) (s : State) (h_s : Kept q0 s) : KeptOut q0 (execCaptureExportDone cmd_ s) := by
  unfold execCaptureExportDone
  with_reducible
    extract_lets +onlyGivenNames x
    refine keptOut_next ?_
    extract_lets +onlyGivenNames x
    dsimp -zeta only
    split
    split
    assumption
    split
    assumption
    apply completeLong_kept
    apply deviceJob_kept
    apply bump_kept
    apply bumpIf_kept
    apply setRecAt_kept
    apply delJob_kept
    apply unbindRing_kept
    refine ringWrite_kept _ _ _ _ _  ?_  _ ‹_›
    assumption
    assumption

theorem execCaptureRetire_kept (h : Hdr) (p : CaptureRetireP) (s : State) (h_s : Kept q0 s) : KeptOut q0 (execCaptureRetire h p s) := by
  unfold execCaptureRetire
  with_reducible
    extract_lets +onlyGivenNames x
    refine keptOut_next ?_
    apply vci_kept
    extract_lets +onlyGivenNames x
    intro _
    intro _
    dsimp -zeta only
    split
    apply refuse_kept
    assumption
    refine kept_iter ?_ ?_
    apply refuse_kept
    assumption
    apply modCap_kept
    apply startLong_kept
    assumption
    assumption

theorem execCaptureRetireDone_kept (capture : U8) (s : State) (h_s : Kept q0 s) : KeptOut q0 (execCaptureRetireDone capture s) := by
  unfold execCaptureRetireDone
  with_reducible
    extract_lets +onlyGivenNames x
    refine keptOut_next ?_
    extract_lets +onlyGivenNames x
    split
    assumption
    extract_lets +onlyGivenNames x; refine kept_cut x ?_ ?_ <;> [(subst x); (clear_value x; intro _)]
    apply unbindOpt_kept
    apply unbindOpt_kept
    assumption
    extract_lets +onlyGivenNames x; refine kept_cut x ?_ ?_ <;> [(subst x); (clear_value x; intro _)]
    apply dropTimed_kept
    assumption
    extract_lets +onlyGivenNames x
    split
    assumption
    refine kept_ite ?_ ?_
    assumption
    apply completeLong_kept
    apply capPoolCheck_kept
    extract_lets +onlyGivenNames x
    refine kept_upd rfl ?_ rfl rfl rfl
    assumption

theorem execHalgaImport_kept (h : Hdr) (p : HalgaImportP) (s : State) (h_s : Kept q0 s) : KeptOut q0 (execHalgaImport h p s) := by
  unfold execHalgaImport
  with_reducible
    extract_lets +onlyGivenNames x
    refine keptOut_next ?_
    apply vci_kept
    extract_lets +onlyGivenNames x
    intro _
    intro _
    dsimp -zeta only
    extract_lets +onlyGivenNames x
    split
    apply refuse_kept
    assumption
    refine kept_iter ?_ ?_
    apply refuse_kept
    assumption
    apply capPoolCheck_kept
    apply bindRing_kept
    apply setJob_kept
    extract_lets +onlyGivenNames x
    refine kept_upd rfl ?_ rfl rfl rfl
    apply startLong_kept
    assumption
    assumption

theorem readBuffers_kept (p : HP) (ring : Nat) (st : Sts) (a0 : Nat) (a1 : State) (h_a1 : Kept q0 a1) : Kept q0 (readBuffers p ring st a0 a1) := by
  fun_induction readBuffers p ring st a0 a1
  with_reducible
    assumption
    rename_i ih; apply ih
    apply completeDesc_kept
    assumption

theorem execHalgaImportDone_kept (cmd_ : U32) (r : HalgaIn) (s : State) (h_s : Kept q0 s) : KeptOut q0 (execHalgaImportDone cmd_ r s) := by
  unfold execHalgaImportDone
  with_reducible
    extract_lets +onlyGivenNames x
    extract_lets +onlyGivenNames x
    refine keptOut_next ?_
    extract_lets +onlyGivenNames x
    split
    extract_lets +onlyGivenNames x
    extract_lets +onlyGivenNames x
    split
    assumption
    extract_lets +onlyGivenNames x; refine kept_cut x ?_ ?_ <;> [(subst x); (clear_value x; intro _)]
    apply delJob_kept
    apply unbindRing_kept
    apply readBuffers_kept
    apply poisonDma_kept
    assumption
    clear_value *; split
    apply completeLong_kept
    apply bump_kept
    apply setRecAt_kept
    assumption
    apply completeLong_kept
    apply bumpIf_kept
    apply setRecAt_kept
    assumption
    assumption

theorem execHalgaMerge_kept (h : Hdr) (p : HalgaMergeP) (s : State) (h_s : Kept q0 s) : KeptOut q0 (execHalgaMerge h p s) := by
  unfold execHalgaMerge
  with_reducible
    extract_lets +onlyGivenNames x
    refine keptOut_next ?_
    apply vci_kept
    extract_lets +onlyGivenNames x
    intro _
    intro _
    refine kept_iter ?_ ?_
    apply refuse_kept
    assumption
    extract_lets +onlyGivenNames x
    dsimp -zeta only
    extract_lets +onlyGivenNames x
    split
    apply refuse_kept
    assumption
    apply setJob_kept
    extract_lets +onlyGivenNames x
    refine kept_upd rfl ?_ rfl rfl rfl
    apply startLong_kept
    assumption
    assumption

theorem execHalgaMergeDone_kept (cmd_ : U32) (s : State) (h_s : Kept q0 s) : KeptOut q0 (execHalgaMergeDone cmd_ s) := by
  unfold execHalgaMergeDone
  with_reducible
    extract_lets +onlyGivenNames x
    extract_lets +onlyGivenNames x
    extract_lets +onlyGivenNames x
    refine keptOut_next ?_
    extract_lets +onlyGivenNames x
    split
    refine kept_ite ?_ ?_
    apply completeLong_kept
    apply setRecAt_kept
    apply delJob_kept
    assumption
    refine kept_ite ?_ ?_
    apply completeLong_kept
    apply setRecAt_kept
    apply delJob_kept
    assumption
    refine kept_ite ?_ ?_
    apply completeLong_kept
    apply setRecAt_kept
    apply delJob_kept
    assumption
    apply completeLong_kept
    apply capPoolCheck_kept
    apply bump_kept
    apply setRecAt_kept
    apply delJob_kept
    assumption
    assumption

theorem captureDr_kept (s : State) (h_s : Kept q0 s) : Kept q0 (captureDr s) := by
  unfold captureDr
  with_reducible
    extract_lets +onlyGivenNames x; refine kept_cutg x ?_ ?_ <;> [(subst x); (clear_value x; intro _)]
    intro _
    intro _
    intro _
    dsimp -zeta only
    extract_lets +onlyGivenNames x
    refine kept_upd rfl ?_ rfl rfl rfl
    assumption
    dsimp -zeta only
    split
    apply_assumption
    assumption
    apply_assumption
    assumption
    apply_assumption
    apply fresh_kept
    assumption

theorem tapRise_kept (e : TckEdge) (s : State) (h_s : Kept q0 s) : Kept q0 (tapRise e s) := by
  unfold tapRise
  with_reducible
    extract_lets +onlyGivenNames x
    extract_lets +onlyGivenNames x; refine kept_cut x ?_ ?_ <;> [(subst x); (clear_value x; intro _)]
    split
    apply captureDr_kept
    assumption
    refine kept_upd rfl ?_ rfl rfl rfl
    assumption
    refine kept_upd rfl ?_ rfl rfl rfl
    assumption
    refine kept_upd rfl ?_ rfl rfl rfl
    assumption
    assumption
    extract_lets +onlyGivenNames x
    refine kept_upd rfl ?_ rfl rfl rfl
    assumption

theorem tapFall_kept (s : State) (h_s : Kept q0 s) : Kept q0 (tapFall s) := by
  unfold tapFall
  with_reducible
    extract_lets +onlyGivenNames x
    extract_lets +onlyGivenNames x
    extract_lets +onlyGivenNames x
    extract_lets +onlyGivenNames x
    refine kept_upd rfl ?_ rfl rfl rfl
    assumption

theorem execJtagTck_kept (e : TckEdge) (s : State) (h_s : Kept q0 s) : KeptOut q0 (execJtagTck e s) := by
  unfold execJtagTck
  with_reducible
    extract_lets +onlyGivenNames x
    refine keptOut_next ?_
    refine kept_ite ?_ ?_
    extract_lets +onlyGivenNames x
    refine kept_upd rfl ?_ rfl rfl rfl
    assumption
    refine kept_ite ?_ ?_
    apply tapRise_kept
    assumption
    apply tapFall_kept
    assumption

theorem execKernelLoad_kept (h : Hdr) (p : KernelLoadP) (s : State) (h_s : Kept q0 s) : KeptOut q0 (execKernelLoad h p s) := by
  unfold execKernelLoad
  with_reducible
    refine keptOut_next ?_
    apply vci_kept
    extract_lets +onlyGivenNames x
    intro _
    intro _
    dsimp -zeta only
    split
    apply refuse_kept
    assumption
    refine kept_ite ?_ ?_
    apply bindRing_kept
    apply setKern_kept
    apply startLong_kept
    assumption
    apply setKern_kept
    apply startLong_kept
    assumption
    assumption

theorem execKernelLoaded_kept (kernel : BitVec 5) (bytes : Bytes) (sig : BelethSig) (s : State) (h_s : Kept q0 s) : KeptOut q0 (execKernelLoaded kernel bytes sig s) := by
  unfold execKernelLoaded
  with_reducible
    extract_lets +onlyGivenNames x
    extract_lets +onlyGivenNames x
    refine keptOut_next ?_
    extract_lets +onlyGivenNames x
    split
    assumption
    refine kept_ite ?_ ?_
    assumption
    extract_lets +onlyGivenNames x
    extract_lets +onlyGivenNames x
    extract_lets +onlyGivenNames x; refine kept_cut x ?_ ?_ <;> [(subst x); (clear_value x; intro _)]
    refine kept_ite ?_ ?_
    apply unbindRing_kept
    assumption
    assumption
    extract_lets +onlyGivenNames x
    extract_lets +onlyGivenNames x
    extract_lets +onlyGivenNames x; refine kept_cut x ?_ ?_ <;> [(subst x); (clear_value x; intro _)]
    refine kept_upd rfl ?_ rfl rfl rfl
    assumption
    split
    apply completeOpt_kept
    apply raise_kept
    apply bump_kept
    assumption
    apply completeOpt_kept
    apply raise_kept
    apply bump_kept
    extract_lets +onlyGivenNames x
    refine kept_foldl (fun t x ht => ?_) ?_
    apply setCore_kept
    assumption
    apply setKern_kept
    assumption
    assumption

theorem execKernelBindAdd_kept (h : Hdr) (p : KernelBindP) (s : State) (h_s : Kept q0 s) : KeptOut q0 (execKernelBindAdd h p s) := by
  unfold execKernelBindAdd
  with_reducible
    extract_lets +onlyGivenNames x
    extract_lets +onlyGivenNames x
    extract_lets +onlyGivenNames x
    refine keptOut_next ?_
    apply vci_kept
    extract_lets +onlyGivenNames x
    intro _
    extract_lets +onlyGivenNames x
    intro _
    split
    apply refuse_kept
    assumption
    refine kept_iter ?_ ?_
    apply refuse_kept
    assumption
    refine kept_iter ?_ ?_
    apply refuse_kept
    assumption
    extract_lets +onlyGivenNames x
    split
    apply refuse_kept
    assumption
    apply done_kept
    apply armTimer_kept
    refine kept_ite ?_ ?_
    apply bindRing_kept
    apply modKern_kept
    refine addTasks_kept _ _ _ _ _ _ _ _ _ _ _  ?_  _ ‹_›
    assumption
    apply modKern_kept
    refine addTasks_kept _ _ _ _ _ _ _ _ _ _ _  ?_  _ ‹_›
    assumption
    assumption

theorem execKernelBindRemove_kept (h : Hdr) (p : KernelBindP) (s : State) (h_s : Kept q0 s) : KeptOut q0 (execKernelBindRemove h p s) := by
  unfold execKernelBindRemove
  with_reducible
    refine keptOut_next ?_
    apply vci_kept
    extract_lets +onlyGivenNames x
    intro _
    intro _
    split
    apply refuse_kept
    assumption
    refine kept_iter ?_ ?_
    apply refuse_kept
    assumption
    extract_lets +onlyGivenNames x
    split
    apply refuse_kept
    assumption
    apply done_kept
    apply dropBind_kept
    apply modKern_kept
    assumption
    assumption

theorem execKernelStart_kept (h : Hdr) (p : KernelStartP) (s : State) (h_s : Kept q0 s) : KeptOut q0 (execKernelStart h p s) := by
  unfold execKernelStart
  with_reducible
    extract_lets +onlyGivenNames x
    extract_lets +onlyGivenNames x
    refine keptOut_next ?_
    apply vci_kept
    extract_lets +onlyGivenNames x
    intro _
    extract_lets +onlyGivenNames x
    extract_lets +onlyGivenNames x
    extract_lets +onlyGivenNames x
    intro _
    split
    apply refuse_kept
    assumption
    refine kept_iter ?_ ?_
    apply refuse_kept
    assumption
    apply done_kept
    apply kernState_kept
    extract_lets +onlyGivenNames x; refine kept_cut x ?_ ?_ <;> [(subst x); (clear_value x; intro _)]
    refine kept_upd rfl ?_ rfl rfl rfl
    apply modKern_kept
    apply clearFaults_kept
    assumption
    refine kept_foldl (fun t x ht => ?_) ?_
    apply armTimer_kept
    assumption
    assumption
    assumption

theorem execKernelStop_kept (h : Hdr) (p : KernelP) (s : State) (h_s : Kept q0 s) : KeptOut q0 (execKernelStop h p s) := by
  unfold execKernelStop
  with_reducible
    extract_lets +onlyGivenNames x
    refine keptOut_next ?_
    apply vci_kept
    extract_lets +onlyGivenNames x
    intro _
    intro _
    dsimp -zeta only
    extract_lets +onlyGivenNames x; refine kept_cut x ?_ ?_ <;> [(subst x); (clear_value x; intro _)]
    apply modKern_kept
    apply startLong_kept
    assumption
    extract_lets +onlyGivenNames x
    extract_lets +onlyGivenNames x; refine kept_cut x ?_ ?_ <;> [(subst x); (clear_value x; intro _)]
    refine kept_foldl (fun t x ht => ?_) ?_
    apply cancelTask_kept
    assumption
    assumption
    split
    apply refuse_kept
    assumption
    refine kept_iter ?_ ?_
    apply refuse_kept
    assumption
    apply kernState_kept
    assumption
    assumption

theorem execKernelStopped_kept (kernel : BitVec 5) (s : State) (h_s : Kept q0 s) : KeptOut q0 (execKernelStopped kernel s) := by
  unfold execKernelStopped
  with_reducible
    extract_lets +onlyGivenNames x
    refine keptOut_next ?_
    extract_lets +onlyGivenNames x
    split
    assumption
    refine kept_ite ?_ ?_
    assumption
    apply completeOpt_kept
    apply modKern_kept
    refine kept_ite ?_ ?_
    apply kernState_kept
    assumption
    assumption

theorem execKernelUnload_kept (h : Hdr) (p : KernelP) (s : State) (h_s : Kept q0 s) : KeptOut q0 (execKernelUnload h p s) := by
  unfold execKernelUnload
  with_reducible
    extract_lets +onlyGivenNames x
    refine keptOut_next ?_
    apply vci_kept
    extract_lets +onlyGivenNames x
    intro _
    intro _
    split
    apply refuse_kept
    assumption
    refine kept_iter ?_ ?_
    apply refuse_kept
    assumption
    apply done_kept
    apply raise_kept
    apply completeOpt_kept
    extract_lets +onlyGivenNames x
    refine kept_upd rfl ?_ rfl rfl rfl
    extract_lets +onlyGivenNames x
    refine kept_foldl (fun t x ht => ?_) ?_
    apply setCore_kept
    assumption
    extract_lets +onlyGivenNames x
    refine kept_foldl (fun t x ht => ?_) ?_
    apply dropBind_kept
    assumption
    assumption
    assumption

theorem takeMessage_kept (p : HP) (n : Nat) (st : Sts) (a0 : List Desc) (a1 : State) (h_a1 : Kept q0 a1) : Kept q0 (takeMessage p n st a0 a1) := by
  fun_induction takeMessage p n st a0 a1
  with_reducible
    assumption
    apply completeDesc_kept
    assumption
    rename_i ih; apply ih
    apply completeDesc_kept
    assumption

theorem execKernelInputMessage_kept (m : KernelMsg) (s : State) (h_s : Kept q0 s) : KeptOut q0 (execKernelInputMessage m s) := by
  unfold execKernelInputMessage
  with_reducible
    extract_lets +onlyGivenNames x
    refine keptOut_next ?_
    extract_lets +onlyGivenNames x
    split
    assumption
    split
    refine kept_ite ?_ ?_
    assumption
    extract_lets +onlyGivenNames x
    split
    assumption
    split
    assumption
    refine kept_ite ?_ ?_
    apply takeMessage_kept
    apply poisonDma_kept
    assumption
    refine kept_ite ?_ ?_
    apply takeMessage_kept
    assumption
    apply triggerBind_kept
    apply takeMessage_kept
    assumption
    assumption

theorem execPortConfig_kept (h : Hdr) (p : PortConfigP) (s : State) (h_s : Kept q0 s) : KeptOut q0 (execPortConfig h p s) := by
  unfold execPortConfig
  with_reducible
    extract_lets +onlyGivenNames x
    refine keptOut_next ?_
    apply vci_kept
    extract_lets +onlyGivenNames x
    intro _
    extract_lets +onlyGivenNames x
    extract_lets +onlyGivenNames x
    extract_lets +onlyGivenNames x
    extract_lets +onlyGivenNames x
    extract_lets +onlyGivenNames x
    intro _
    apply done_kept
    apply modPort_kept
    refine kept_ite ?_ ?_
    apply linkDown_kept
    assumption
    assumption
    assumption

theorem execPrpConfig_kept (h : Hdr) (p : PrpConfigP) (s : State) (h_s : Kept q0 s) : KeptOut q0 (execPrpConfig h p s) := by
  unfold execPrpConfig
  with_reducible
    extract_lets +onlyGivenNames x
    refine keptOut_next ?_
    apply vci_kept
    extract_lets +onlyGivenNames x
    intro _
    extract_lets +onlyGivenNames x
    extract_lets +onlyGivenNames x
    intro _
    apply done_kept
    extract_lets +onlyGivenNames x; refine kept_cut x ?_ ?_ <;> [(subst x); (clear_value x; intro _)]
    apply setPair2_kept
    assumption
    refine kept_foldl (fun t x ht => ?_) ?_
    refine kept_ite ?_ ?_
    apply lanDown_kept
    assumption
    assumption
    assumption
    assumption

theorem execPortTxBind_kept (h : Hdr) (p : PortTxBindP) (s : State) (h_s : Kept q0 s) : KeptOut q0 (execPortTxBind h p s) := by
  unfold execPortTxBind
  refine keptOut_next (vci_kept _ _ _ _ _ (fun t ht => ?_) h_s)
  have h1 := bindRing_kept h.part p.ring.toNat (.frameTx p.target.toNat) _ ht
  refine done_kept _ (kept_imp (s := match (if p.reportRing = 0xFF then none else some p.reportRing.toNat) with
        | some k => bindRing h.part k .txReport (bindRing h.part p.ring.toNat (.frameTx p.target.toNat) t)
        | none => bindRing h.part p.ring.toNat (.frameTx p.target.toNat) t) ?_ rfl rfl rfl rfl)
  split
  · exact bindRing_kept _ _ _ _ h1
  · exact h1

theorem execPortLinkUp_kept (port : BitVec 4) (speed : BitVec 3) (halfDuplex : Bool) (s : State) (h_s : Kept q0 s) : KeptOut q0 (execPortLinkUp port speed halfDuplex s) := by
  unfold execPortLinkUp
  with_reducible
    extract_lets +onlyGivenNames x
    extract_lets +onlyGivenNames x
    extract_lets +onlyGivenNames x
    extract_lets +onlyGivenNames x
    extract_lets +onlyGivenNames x
    extract_lets +onlyGivenNames x
    extract_lets +onlyGivenNames x
    refine keptOut_next ?_
    refine kept_ite ?_ ?_
    assumption
    refine kept_ite ?_ ?_
    apply raise_kept
    apply setPort_kept
    assumption
    apply tryStart_kept
    refine kept_ite ?_ ?_
    apply setPair2_kept
    apply raise_kept
    apply setPort_kept
    assumption
    apply raise_kept
    apply setPort_kept
    assumption

theorem execPortLinkDown_kept (port : BitVec 4) (s : State) (h_s : Kept q0 s) : KeptOut q0 (execPortLinkDown port s) := by
  unfold execPortLinkDown
  with_reducible
    refine keptOut_next ?_
    refine kept_ite ?_ ?_
    assumption
    apply linkDown_kept
    assumption

theorem execLanSilence_kept (port : BitVec 4) (s : State) (h_s : Kept q0 s) : KeptOut q0 (execLanSilence port s) := by
  unfold execLanSilence
  with_reducible
    extract_lets +onlyGivenNames x
    refine keptOut_next ?_
    refine kept_ite ?_ ?_
    apply lanDown_kept
    assumption
    assumption

theorem execPrpSupervisionTx_kept (pair : Bool) (s : State) (h_s : Kept q0 s) : KeptOut q0 (execPrpSupervisionTx pair s) := by
  unfold execPrpSupervisionTx
  with_reducible
    extract_lets +onlyGivenNames x
    extract_lets +onlyGivenNames x
    extract_lets +onlyGivenNames x
    extract_lets +onlyGivenNames x
    extract_lets +onlyGivenNames x
    refine keptOut_next ?_
    refine kept_ite ?_ ?_
    assumption
    apply sendOwn_kept
    apply setPair2_kept
    assumption

theorem execPrpSupervisionRx_kept (port : BitVec 4) (s : State) (h_s : Kept q0 s) : KeptOut q0 (execPrpSupervisionRx port s) := by
  unfold execPrpSupervisionRx
  with_reducible
    extract_lets +onlyGivenNames x
    refine keptOut_next ?_
    refine kept_ite ?_ ?_
    assumption
    apply bump_kept
    apply popIn_kept
    assumption

theorem execHostFrameTx_kept (part : HP) (ring : BitVec 6) (f : HostFrame) (s : State) (h_s : Kept q0 s) : KeptOut q0 (execHostFrameTx part ring f s) := by
  unfold execHostFrameTx
  with_reducible
    extract_lets +onlyGivenNames x
    extract_lets +onlyGivenNames x
    refine keptOut_next ?_
    extract_lets +onlyGivenNames x
    dsimp -zeta only
    split
    extract_lets +onlyGivenNames x
    extract_lets +onlyGivenNames x
    split
    assumption
    refine kept_ite ?_ ?_
    assumption
    refine kept_ite ?_ ?_
    refine kept_ite ?_ ?_
    extract_lets +onlyGivenNames x
    dsimp -zeta only
    extract_lets +onlyGivenNames x
    split
    dsimp -zeta only
    refine kept_upd rfl ?_ rfl rfl rfl
    apply poisonDma_kept
    assumption
    split
    dsimp -zeta only
    refine kept_upd rfl ?_ rfl rfl rfl
    assumption
    split
    dsimp -zeta only
    refine kept_upd rfl ?_ rfl rfl rfl
    assumption
    dsimp -zeta only
    split
    split
    refine kept_upd rfl ?_ rfl rfl rfl
    apply sendFrame_kept
    assumption
    refine kept_upd rfl ?_ rfl rfl rfl
    apply sendFrame_kept
    assumption
    split
    refine kept_upd rfl ?_ rfl rfl rfl
    apply sendFrame_kept
    assumption
    refine kept_upd rfl ?_ rfl rfl rfl
    apply sendFrame_kept
    assumption
    apply settleHost_kept
    extract_lets +onlyGivenNames x
    dsimp -zeta only
    extract_lets +onlyGivenNames x
    split
    dsimp -zeta only
    refine kept_upd rfl ?_ rfl rfl rfl
    apply poisonDma_kept
    assumption
    split
    dsimp -zeta only
    refine kept_upd rfl ?_ rfl rfl rfl
    assumption
    split
    dsimp -zeta only
    refine kept_upd rfl ?_ rfl rfl rfl
    assumption
    dsimp -zeta only
    split
    split
    refine kept_upd rfl ?_ rfl rfl rfl
    apply sendFrame_kept
    assumption
    refine kept_upd rfl ?_ rfl rfl rfl
    apply sendFrame_kept
    assumption
    split
    refine kept_upd rfl ?_ rfl rfl rfl
    apply sendFrame_kept
    assumption
    refine kept_upd rfl ?_ rfl rfl rfl
    apply sendFrame_kept
    assumption
    apply settleHost_kept
    apply reportTx_kept
    extract_lets +onlyGivenNames x; refine kept_cut x ?_ ?_ <;> [(subst x); (clear_value x; intro _)]
    dsimp -zeta only
    extract_lets +onlyGivenNames x
    split
    dsimp -zeta only
    refine kept_upd rfl ?_ rfl rfl rfl
    apply poisonDma_kept
    assumption
    split
    dsimp -zeta only
    refine kept_upd rfl ?_ rfl rfl rfl
    assumption
    split
    dsimp -zeta only
    refine kept_upd rfl ?_ rfl rfl rfl
    assumption
    dsimp -zeta only
    split
    split
    refine kept_upd rfl ?_ rfl rfl rfl
    apply sendFrame_kept
    assumption
    refine kept_upd rfl ?_ rfl rfl rfl
    apply sendFrame_kept
    assumption
    split
    refine kept_upd rfl ?_ rfl rfl rfl
    apply sendFrame_kept
    assumption
    refine kept_upd rfl ?_ rfl rfl rfl
    apply sendFrame_kept
    assumption
    extract_lets +onlyGivenNames x
    split
    dsimp -zeta only
    refine kept_upd rfl ?_ rfl rfl rfl
    assumption
    split
    dsimp -zeta only
    refine kept_upd rfl ?_ rfl rfl rfl
    assumption
    split
    dsimp -zeta only
    refine kept_upd rfl ?_ rfl rfl rfl
    assumption
    dsimp -zeta only
    split
    split
    refine kept_upd rfl ?_ rfl rfl rfl
    assumption
    refine kept_upd rfl ?_ rfl rfl rfl
    assumption
    split
    refine kept_upd rfl ?_ rfl rfl rfl
    assumption
    refine kept_upd rfl ?_ rfl rfl rfl
    assumption
    assumption

theorem execFieldCollision_kept (port : BitVec 4) (s : State) (h_s : Kept q0 s) : KeptOut q0 (execFieldCollision port s) := by
  unfold execFieldCollision
  with_reducible
    extract_lets +onlyGivenNames x
    extract_lets +onlyGivenNames x
    extract_lets +onlyGivenNames x
    extract_lets +onlyGivenNames x
    refine keptOut_next ?_
    refine kept_ite ?_ ?_
    assumption
    extract_lets +onlyGivenNames x; refine kept_cut x ?_ ?_ <;> [(subst x); (clear_value x; intro _)]
    apply bump_kept
    assumption
    dsimp -zeta only
    split
    assumption
    refine kept_ite ?_ ?_
    apply tryStart_kept
    apply finishCopy_kept
    apply modFrame_kept
    apply raise_kept
    apply bump_kept
    apply setPort_kept
    apply deferTimed_kept
    assumption
    apply setPort_kept
    apply fresh_kept
    apply deferTimed_kept
    assumption

theorem execBackoffExpiry_kept (port : BitVec 4) (s : State) (h_s : Kept q0 s) : KeptOut q0 (execBackoffExpiry port s) := by
  unfold execBackoffExpiry
  with_reducible
    extract_lets +onlyGivenNames x
    extract_lets +onlyGivenNames x
    refine keptOut_next ?_
    extract_lets +onlyGivenNames x
    split
    assumption
    split
    assumption
    refine kept_ite ?_ ?_
    assumption
    apply tryStart_kept
    apply setPort_kept
    assumption

theorem execCarrierSenseDrop_kept (port : BitVec 4) (s : State) (h_s : Kept q0 s) : KeptOut q0 (execCarrierSenseDrop port s) := by
  unfold execCarrierSenseDrop
  with_reducible
    extract_lets +onlyGivenNames x
    extract_lets +onlyGivenNames x
    extract_lets +onlyGivenNames x
    extract_lets +onlyGivenNames x
    refine keptOut_next ?_
    refine kept_ite ?_ ?_
    assumption
    refine kept_ite ?_ ?_
    apply setPort_kept
    assumption
    extract_lets +onlyGivenNames x; refine kept_cut x ?_ ?_ <;> [(subst x); (clear_value x; intro _)]
    apply setPort_kept
    assumption
    split
    refine kept_ite ?_ ?_
    apply startOn_kept
    assumption
    assumption
    split
    assumption
    apply startOn_kept
    apply setPort_kept
    assumption

theorem pressureEnd_kept (k : Nat) (s : State) (h_s : Kept q0 s) : Kept q0 (pressureEnd k s) := by
  unfold pressureEnd
  with_reducible
    apply raiseIf_kept
    apply setPort_kept
    assumption

theorem execPressureWindowEnd_kept (s : State) (h_s : Kept q0 s) : KeptOut q0 (execPressureWindowEnd s) := by
  unfold execPressureWindowEnd
  with_reducible
    extract_lets +onlyGivenNames x
    refine keptOut_next ?_
    refine kept_ite ?_ ?_
    assumption
    extract_lets +onlyGivenNames x
    refine kept_foldl (fun t x ht => ?_) ?_
    apply pressureEnd_kept
    assumption
    extract_lets +onlyGivenNames x
    refine kept_upd rfl ?_ rfl rfl rfl
    assumption

theorem rctStage_kept (k : Nat) (f : RxFrame) (s : State) (h_s : Kept q0 s) : Kept q0 (rctStage k f s).2 := by
  unfold rctStage
  with_reducible
    refine kept_ite2 ?_ ?_
    refine kept_ite ?_ ?_
    apply lanHeard_kept
    assumption
    assumption
    extract_lets +onlyGivenNames x
    split
    apply bump_kept
    refine kept_ite ?_ ?_
    apply lanHeard_kept
    assumption
    assumption
    extract_lets +onlyGivenNames x; refine kept_cut x ?_ ?_ <;> [(subst x); (clear_value x; intro _)]
    apply bumpIf_kept
    refine kept_ite ?_ ?_
    apply lanHeard_kept
    assumption
    assumption
    split
    assumption
    assumption
    apply unknownSource_kept
    assumption

theorem execFrameRx_kept (f : RxFrame) (s : State) (h_s : Kept q0 s) : KeptOut q0 (execFrameRx f s) := by
  unfold execFrameRx
  with_reducible
    extract_lets +onlyGivenNames x
    extract_lets +onlyGivenNames x
    extract_lets +onlyGivenNames x
    extract_lets +onlyGivenNames x
    extract_lets +onlyGivenNames x
    extract_lets +onlyGivenNames x
    extract_lets +onlyGivenNames x
    refine keptOut_next ?_
    refine kept_ite ?_ ?_
    assumption
    refine kept_ite ?_ ?_
    apply bump_kept
    assumption
    refine kept_ite ?_ ?_
    apply bumpIf_kept
    apply bump_kept
    assumption
    refine kept_ite ?_ ?_
    apply bumpIf_kept
    apply bump_kept
    assumption
    refine kept_ite ?_ ?_
    apply bump_kept
    assumption
    refine kept_ite ?_ ?_
    apply bump_kept
    assumption
    refine kept_ite ?_ ?_
    refine kept_ite2 ?_ ?_
    apply rctStage_kept
    apply bumpBy_kept
    apply bump_kept
    assumption
    apply bumpBy_kept
    apply bump_kept
    assumption
    refine kept_ite ?_ ?_
    apply enterIn_kept
    refine kept_ite2 ?_ ?_
    apply rctStage_kept
    apply bumpBy_kept
    apply bump_kept
    assumption
    apply bumpBy_kept
    apply bump_kept
    assumption
    refine kept_ite ?_ ?_
    refine kept_ite ?_ ?_
    apply bumpIf_kept
    apply bump_kept
    apply poisonPort_kept
    apply enterIn_kept
    refine kept_ite2 ?_ ?_
    apply rctStage_kept
    apply bumpBy_kept
    apply bump_kept
    assumption
    apply bumpBy_kept
    apply bump_kept
    assumption
    apply bumpIf_kept
    apply enterIn_kept
    refine kept_ite2 ?_ ?_
    apply rctStage_kept
    apply bumpBy_kept
    apply bump_kept
    assumption
    apply bumpBy_kept
    apply bump_kept
    assumption
    apply modPort_kept
    refine kept_ite ?_ ?_
    apply bumpIf_kept
    apply bump_kept
    apply poisonPort_kept
    apply enterIn_kept
    refine kept_ite2 ?_ ?_
    apply rctStage_kept
    apply bumpBy_kept
    apply bump_kept
    assumption
    apply bumpBy_kept
    apply bump_kept
    assumption
    apply bumpIf_kept
    apply enterIn_kept
    refine kept_ite2 ?_ ?_
    apply rctStage_kept
    apply bumpBy_kept
    apply bump_kept
    assumption
    apply bumpBy_kept
    apply bump_kept
    assumption

theorem execIdentify_kept (h : Hdr) (s : State) (h_s : Kept q0 s) : KeptOut q0 (execIdentify h s) := by
  unfold execIdentify
  with_reducible
    refine keptOut_next ?_
    apply vci_kept
    extract_lets +onlyGivenNames x
    intro _
    apply doneWith_kept
    assumption

theorem takeSnapshot_kept (p : HP) (q : SnapshotP) (s : State) (h_s : Kept q0 s) : Kept q0 (takeSnapshot p q s) := by
  unfold takeSnapshot
  with_reducible
    apply modPart_kept
    extract_lets +onlyGivenNames x
    refine kept_upd rfl ?_ rfl rfl rfl
    assumption

theorem execSnapshot_kept (h : Hdr) (p : SnapshotP) (s : State) (h_s : Kept q0 s) : KeptOut q0 (execSnapshot h p s) := by
  unfold execSnapshot
  with_reducible
    refine keptOut_next ?_
    apply vci_kept
    extract_lets +onlyGivenNames x
    intro _
    extract_lets +onlyGivenNames x
    intro _
    refine kept_iter ?_ ?_
    apply refuse_kept
    assumption
    apply doneWith_kept
    apply takeSnapshot_kept
    assumption
    assumption

theorem endSnapshot_kept (p : HP) (st : SnapState) (s : State) (h_s : Kept q0 s) : Kept q0 (endSnapshot p st s) := by
  unfold endSnapshot
  with_reducible
    apply modPart_kept
    extract_lets +onlyGivenNames x
    refine kept_upd rfl ?_ rfl rfl rfl
    assumption

theorem execSnapshotRelease_kept (h : Hdr) (s : State) (h_s : Kept q0 s) : KeptOut q0 (execSnapshotRelease h s) := by
  unfold execSnapshotRelease
  with_reducible
    refine keptOut_next ?_
    apply vci_kept
    extract_lets +onlyGivenNames x
    intro _
    intro _
    refine kept_iter ?_ ?_
    apply done_kept
    apply endSnapshot_kept
    assumption
    apply done_kept
    assumption
    assumption

theorem abortSnapshot_kept (p : HP) (reason : Nat) (s : State) (h_s : Kept q0 s) : Kept q0 (abortSnapshot p reason s) := by
  unfold abortSnapshot
  with_reducible
    apply raise_kept
    apply endSnapshot_kept
    assumption

theorem execSnapshotExpiry_kept (part : HP) (s : State) (h_s : Kept q0 s) : KeptOut q0 (execSnapshotExpiry part s) := by
  unfold execSnapshotExpiry
  with_reducible
    refine keptOut_next ?_
    refine kept_ite ?_ ?_
    apply abortSnapshot_kept
    assumption
    assumption

theorem execShadowFull_kept (part : HP) (s : State) (h_s : Kept q0 s) : KeptOut q0 (execShadowFull part s) := by
  unfold execShadowFull
  with_reducible
    refine keptOut_next ?_
    refine kept_ite ?_ ?_
    apply abortSnapshot_kept
    assumption
    assumption

theorem execApertureWindow_kept (h : Hdr) (p : ApertureWindowP) (s : State) (h_s : Kept q0 s) : KeptOut q0 (execApertureWindow h p s) := by
  unfold execApertureWindow
  with_reducible
    refine keptOut_next ?_
    apply vci_kept
    extract_lets +onlyGivenNames x
    intro _
    intro _
    apply done_kept
    apply modPart_kept
    assumption
    assumption

theorem execHeartbeat_kept (h : Hdr) (p : HeartbeatP) (s : State) (h_s : Kept q0 s) : KeptOut q0 (execHeartbeat h p s) := by
  unfold execHeartbeat
  with_reducible
    refine keptOut_next ?_
    apply vci_kept
    extract_lets +onlyGivenNames x
    intro _
    extract_lets +onlyGivenNames x
    intro _
    apply doneWith_kept
    apply countHeartbeat_kept
    assumption
    assumption

theorem execClaimSet_kept (h : Hdr) (p : ClaimSetP) (s : State) (h_s : Kept q0 s) : KeptOut q0 (execClaimSet h p s) := by
  unfold execClaimSet
  with_reducible
    extract_lets +onlyGivenNames x
    refine keptOut_next ?_
    apply vci_kept
    extract_lets +onlyGivenNames x
    intro _
    intro _
    refine kept_iter ?_ ?_
    apply done_kept
    apply setClaim_kept
    assumption
    apply refuse_kept
    assumption
    assumption

end Sys2Proof.Machine
end

