-- ==== Sys2Proof/Laws/Kept7.lean ====
section
/-!
SUPPORT. Operations keep a sound state and the commands that wait (part 7).
-/

namespace Sys2Proof.Machine

set_option Elab.async false
set_option linter.tactic.unusedName false

variable {q0 : List Instr}

theorem execClaimYield_kept (h : Hdr) (p : ClaimYieldP) (s : State) (h_s : Kept q0 s) : KeptOut q0 (execClaimYield h p s) := by
  unfold execClaimYield
  with_reducible
    refine keptOut_next ?_
    apply vci_kept
    extract_lets +onlyGivenNames x
    intro _
    intro _
    refine kept_iter ?_ ?_
    apply done_kept
    apply setClaim_kept
    assumption
    apply refuse_kept
    assumption
    assumption

theorem execApportion_kept (h : Hdr) (p : ApportionP) (s : State) (h_s : Kept q0 s) : KeptOut q0 (execApportion h p s) := by
  unfold execApportion
  with_reducible
    extract_lets +onlyGivenNames x
    refine keptOut_next ?_
    apply vci_kept
    extract_lets +onlyGivenNames x
    intro _
    extract_lets +onlyGivenNames x
    intro _
    refine kept_iter ?_ ?_
    apply done_kept
    apply raise_kept
    apply modPart_kept
    assumption
    apply refuse_kept
    assumption
    assumption

theorem execPartitionTimers_kept (h : Hdr) (p : PartitionTimersP) (s : State) (h_s : Kept q0 s) : KeptOut q0 (execPartitionTimers h p s) := by
  unfold execPartitionTimers
  with_reducible
    refine keptOut_next ?_
    apply vci_kept
    extract_lets +onlyGivenNames x
    intro _
    extract_lets +onlyGivenNames x
    extract_lets +onlyGivenNames x
    extract_lets +onlyGivenNames x
    intro _
    apply done_kept
    apply evalAll_kept
    extract_lets +onlyGivenNames x; refine kept_cut x ?_ ?_ <;> [(subst x); (clear_value x; intro _)]
    refine kept_foldl (fun t x ht => ?_) ?_
    apply modPart_kept
    assumption
    extract_lets +onlyGivenNames x; refine kept_cut x ?_ ?_ <;> [(subst x); (clear_value x; intro _)]
    refine kept_upd rfl ?_ rfl rfl rfl
    assumption
    assumption
    assumption
    assumption

theorem execDmaRingSetup_kept (h : Hdr) (p : DmaRingSetupP) (s : State) (h_s : Kept q0 s) : KeptOut q0 (execDmaRingSetup h p s) := by
  unfold execDmaRingSetup
  with_reducible
    refine keptOut_next ?_
    apply vci_kept
    extract_lets +onlyGivenNames x
    intro _
    intro _
    split
    apply refuse_kept
    assumption
    refine kept_iter ?_ ?_
    apply done_kept
    apply setRing_kept
    assumption
    apply refuse_kept
    assumption
    assumption

theorem execDmaRingRetire_kept (h : Hdr) (p : DmaRingRetireP) (s : State) (h_s : Kept q0 s) : KeptOut q0 (execDmaRingRetire h p s) := by
  unfold execDmaRingRetire
  with_reducible
    refine keptOut_next ?_
    apply vci_kept
    extract_lets +onlyGivenNames x
    intro _
    intro _
    dsimp -zeta only
    extract_lets +onlyGivenNames x; refine kept_cut x ?_ ?_ <;> [(subst x); (clear_value x; intro _)]
    apply modPart_kept
    apply startLong_kept
    apply unbindUse_kept
    assumption
    split
    apply refuse_kept
    assumption
    refine kept_iter ?_ ?_
    apply refuse_kept
    assumption
    assumption
    assumption

theorem execDmaRingRetireDone_kept (part : HP) (ring : BitVec 6) (s : State) (h_s : Kept q0 s) : KeptOut q0 (execDmaRingRetireDone part ring s) := by
  unfold execDmaRingRetireDone
  with_reducible
    extract_lets +onlyGivenNames x
    refine keptOut_next ?_
    extract_lets +onlyGivenNames x; refine kept_cut x ?_ ?_ <;> [(subst x); (clear_value x; intro _)]
    apply flushRing_kept
    assumption
    split
    assumption
    split
    assumption
    apply completeLong_kept
    apply modPart_kept
    assumption

theorem execEarlyDoorbell_kept (part : HP) (urg : Bool) (s : State) (h_s : Kept q0 s) : KeptOut q0 (execEarlyDoorbell part urg s) := by
  unfold execEarlyDoorbell
  with_reducible
    refine keptOut_next ?_
    refine kept_ite ?_ ?_
    assumption
    refine kept_ite ?_ ?_
    apply bump_kept
    assumption
    refine kept_ite ?_ ?_
    assumption
    apply bump_kept
    assumption

theorem execDiscardedWrite_kept (part : HP) (_bar : BitVec 3) (s : State) (h_s : Kept q0 s) : KeptOut q0 (execDiscardedWrite part _bar s) := by
  unfold execDiscardedWrite
  with_reducible
    refine keptOut_next ?_
    refine kept_ite ?_ ?_
    apply bump_kept
    assumption
    assumption

theorem execEvtConsWrite_kept (part : HP) (value : U32) (s : State) (h_s : Kept q0 s) : KeptOut q0 (execEvtConsWrite part value s) := by
  unfold execEvtConsWrite
  with_reducible
    extract_lets +onlyGivenNames x
    refine keptOut_next ?_
    refine kept_ite ?_ ?_
    assumption
    refine kept_ite ?_ ?_
    apply bump_kept
    assumption
    apply eventsLost_kept
    apply setPart_kept
    assumption

theorem execHostIdxWrite_kept (part : HP) (ring : BitVec 6) (value : U32) (descs : List Desc) (s : State) (h_s : Kept q0 s) : KeptOut q0 (execHostIdxWrite part ring value descs s) := by
  unfold execHostIdxWrite
  with_reducible
    refine keptOut_next ?_
    extract_lets +onlyGivenNames x
    split
    refine kept_ite ?_ ?_
    apply bump_kept
    assumption
    assumption
    refine kept_ite ?_ ?_
    apply bump_kept
    assumption
    apply setRing_kept
    assumption

theorem execDmaDescriptorDone_kept (part : HP) (ring : BitVec 6) (poison : U16) (s : State) (h_s : Kept q0 s) : KeptOut q0 (execDmaDescriptorDone part ring poison s) := by
  unfold execDmaDescriptorDone
  with_reducible
    refine keptOut_next ?_
    extract_lets +onlyGivenNames x
    split
    assumption
    refine kept_ite ?_ ?_
    assumption
    extract_lets +onlyGivenNames x
    split
    assumption
    apply completeDesc_kept
    apply poisonDma_kept
    assumption

theorem execHbInChange_kept (part : HP) (level : Bool) (s : State) (h_s : Kept q0 s) : KeptOut q0 (execHbInChange part level s) := by
  unfold execHbInChange
  with_reducible
    refine keptOut_next ?_
    refine kept_ite ?_ ?_
    assumption
    apply evalPart_kept
    apply modPart_kept
    assumption

theorem execPathVTimeout_kept (part : HP) (s : State) (h_s : Kept q0 s) : KeptOut q0 (execPathVTimeout part s) := by
  unfold execPathVTimeout
  with_reducible
    extract_lets +onlyGivenNames x
    extract_lets +onlyGivenNames x
    refine keptOut_next ?_
    refine kept_ite ?_ ?_
    assumption
    apply evalPart_kept
    apply modPart_kept
    assumption

theorem execPathPTimeout_kept (part : HP) (s : State) (h_s : Kept q0 s) : KeptOut q0 (execPathPTimeout part s) := by
  unfold execPathPTimeout
  with_reducible
    extract_lets +onlyGivenNames x
    extract_lets +onlyGivenNames x
    refine keptOut_next ?_
    refine kept_ite ?_ ?_
    assumption
    apply evalPart_kept
    apply modPart_kept
    assumption

theorem execFailureTimerExpiry_kept (part : HP) (s : State) (h_s : Kept q0 s) : KeptOut q0 (execFailureTimerExpiry part s) := by
  unfold execFailureTimerExpiry
  with_reducible
    extract_lets +onlyGivenNames x
    refine keptOut_next ?_
    refine kept_ite ?_ ?_
    apply toOut_kept
    assumption
    assumption

theorem execHoldoffTimerExpiry_kept (part : HP) (s : State) (h_s : Kept q0 s) : KeptOut q0 (execHoldoffTimerExpiry part s) := by
  unfold execHoldoffTimerExpiry
  with_reducible
    extract_lets +onlyGivenNames x
    refine keptOut_next ?_
    refine kept_ite ?_ ?_
    apply reeval_kept
    apply toHealthy_kept
    assumption
    assumption

theorem execTakeoverDeadline_kept (part : HP) (s : State) (h_s : Kept q0 s) : KeptOut q0 (execTakeoverDeadline part s) := by
  unfold execTakeoverDeadline
  with_reducible
    extract_lets +onlyGivenNames x
    refine keptOut_next ?_
    refine kept_ite ?_ ?_
    apply toOut_kept
    assumption
    assumption

theorem execPcieLinkDown_kept (part : HP) (s : State) (h_s : Kept q0 s) : KeptOut q0 (execPcieLinkDown part s) := by
  unfold execPcieLinkDown
  with_reducible
    refine keptOut_next ?_
    apply modPart_kept
    assumption

theorem execPcieLinkUp_kept (part : HP) (s : State) (h_s : Kept q0 s) : KeptOut q0 (execPcieLinkUp part s) := by
  unfold execPcieLinkUp
  with_reducible
    refine keptOut_next ?_
    apply modPart_kept
    assumption

theorem execPartitionReset_kept (part : HP) (s : State) (h_s : Kept q0 s) : KeptOut q0 (execPartitionReset part s) := by
  unfold execPartitionReset
  with_reducible
    extract_lets +onlyGivenNames x
    extract_lets +onlyGivenNames x
    extract_lets +onlyGivenNames x
    refine keptOut_next ?_
    refine kept_ite ?_ ?_
    assumption
    apply eventsLost_kept
    apply modPart_kept
    refine kept_ite ?_ ?_
    apply endSnapshot_kept
    extract_lets +onlyGivenNames x; refine kept_cut x ?_ ?_ <;> [(subst x); (clear_value x; intro _)]
    apply modPart_kept
    refine kept_ite ?_ ?_
    apply endSnapshot_kept
    extract_lets +onlyGivenNames x; refine kept_cut x ?_ ?_ <;> [(subst x); (clear_value x; intro _)]
    refine kept_ite ?_ ?_
    apply endSnapshot_kept
    extract_lets +onlyGivenNames x; refine kept_cut x ?_ ?_ <;> [(subst x); (clear_value x; intro _)]
    refine kept_foldl (fun t x ht => ?_) ?_
    apply unbindUse_kept
    assumption
    assumption
    assumption
    extract_lets +onlyGivenNames x; refine kept_cut x ?_ ?_ <;> [(subst x); (clear_value x; intro _)]
    refine kept_foldl (fun t x ht => ?_) ?_
    apply unbindUse_kept
    assumption
    assumption
    assumption
    refine kept_foldl (fun t x ht => ?_) ?_
    apply unbindUse_kept
    assumption
    assumption
    extract_lets +onlyGivenNames x; refine kept_cut x ?_ ?_ <;> [(subst x); (clear_value x; intro _)]
    refine kept_ite ?_ ?_
    apply endSnapshot_kept
    extract_lets +onlyGivenNames x; refine kept_cut x ?_ ?_ <;> [(subst x); (clear_value x; intro _)]
    refine kept_foldl (fun t x ht => ?_) ?_
    apply unbindUse_kept
    assumption
    assumption
    assumption
    extract_lets +onlyGivenNames x; refine kept_cut x ?_ ?_ <;> [(subst x); (clear_value x; intro _)]
    refine kept_foldl (fun t x ht => ?_) ?_
    apply unbindUse_kept
    assumption
    assumption
    assumption
    refine kept_foldl (fun t x ht => ?_) ?_
    apply unbindUse_kept
    assumption
    assumption
    refine kept_foldl (fun t x ht => ?_) ?_
    apply unbindUse_kept
    assumption
    assumption
    extract_lets +onlyGivenNames x; refine kept_cut x ?_ ?_ <;> [(subst x); (clear_value x; intro _)]
    apply modPart_kept
    refine kept_ite ?_ ?_
    apply endSnapshot_kept
    extract_lets +onlyGivenNames x; refine kept_cut x ?_ ?_ <;> [(subst x); (clear_value x; intro _)]
    refine kept_ite ?_ ?_
    apply endSnapshot_kept
    extract_lets +onlyGivenNames x; refine kept_cut x ?_ ?_ <;> [(subst x); (clear_value x; intro _)]
    refine kept_foldl (fun t x ht => ?_) ?_
    apply unbindUse_kept
    assumption
    assumption
    assumption
    extract_lets +onlyGivenNames x; refine kept_cut x ?_ ?_ <;> [(subst x); (clear_value x; intro _)]
    refine kept_foldl (fun t x ht => ?_) ?_
    apply unbindUse_kept
    assumption
    assumption
    assumption
    refine kept_foldl (fun t x ht => ?_) ?_
    apply unbindUse_kept
    assumption
    assumption
    extract_lets +onlyGivenNames x; refine kept_cut x ?_ ?_ <;> [(subst x); (clear_value x; intro _)]
    refine kept_ite ?_ ?_
    apply endSnapshot_kept
    extract_lets +onlyGivenNames x; refine kept_cut x ?_ ?_ <;> [(subst x); (clear_value x; intro _)]
    refine kept_foldl (fun t x ht => ?_) ?_
    apply unbindUse_kept
    assumption
    assumption
    assumption
    extract_lets +onlyGivenNames x; refine kept_cut x ?_ ?_ <;> [(subst x); (clear_value x; intro _)]
    refine kept_foldl (fun t x ht => ?_) ?_
    apply unbindUse_kept
    assumption
    assumption
    assumption
    refine kept_foldl (fun t x ht => ?_) ?_
    apply unbindUse_kept
    assumption
    assumption
    refine kept_foldl (fun t x ht => ?_) ?_
    apply unbindUse_kept
    assumption
    assumption

theorem aluFree_kept (v : U32) (s : State) (h_s : Kept q0 s) : Kept q0 (aluFree v s).2 := by
  unfold aluFree
  with_reducible
    apply fresh_kept
    assumption

theorem aluOpen_kept (s : State) (h_s : Kept q0 s) : Kept q0 (aluOpen s).2 := by
  unfold aluOpen
  with_reducible
    apply aluFree_kept
    apply fresh_kept
    assumption

theorem aluShift_kept (f : U32 → Nat → U32) (a n : U32) (s : State) (h_s : Kept q0 s) : Kept q0 (aluShift f a n s).2 := by
  unfold aluShift
  with_reducible
    refine kept_ite2 ?_ ?_
    apply aluFree_kept
    assumption
    apply aluOpen_kept
    assumption

theorem qnan_kept (s : State) (h_s : Kept q0 s) : Kept q0 (qnan s).2 := by
  unfold qnan
  with_reducible
    apply fresh_kept
    assumption

theorem fNan_kept (inv : Bool) (s : State) (h_s : Kept q0 s) : Kept q0 (fNan inv s).s := by
  unfold fNan
  with_reducible
    apply qnan_kept
    assumption

theorem fRound_kept (a : Scale) (zeroNeg : Bool) (s : State) (h_s : Kept q0 s) : Kept q0 (fRound a zeroNeg s).s := by
  unfold fRound
  with_reducible
    extract_lets +onlyGivenNames x
    split
    assumption
    assumption

theorem fAdd_kept (a0 b0 : U32) (s : State) (h_s : Kept q0 s) : Kept q0 (fAdd a0 b0 s).s := by
  unfold fAdd
  with_reducible
    extract_lets +onlyGivenNames x
    extract_lets +onlyGivenNames x
    split
    apply fNan_kept
    assumption
    split
    split
    apply fNan_kept
    assumption
    assumption
    split
    assumption
    apply fRound_kept
    assumption

theorem fMul_kept (a0 b0 : U32) (s : State) (h_s : Kept q0 s) : Kept q0 (fMul a0 b0 s).s := by
  unfold fMul
  with_reducible
    extract_lets +onlyGivenNames x
    extract_lets +onlyGivenNames x
    extract_lets +onlyGivenNames x
    split
    apply fNan_kept
    assumption
    split
    split
    apply fNan_kept
    assumption
    assumption
    apply fRound_kept
    assumption

theorem fFma_kept (a0 b0 c0 : U32) (s : State) (h_s : Kept q0 s) : Kept q0 (fFma a0 b0 c0 s).s := by
  unfold fFma
  with_reducible
    extract_lets +onlyGivenNames x
    extract_lets +onlyGivenNames x
    extract_lets +onlyGivenNames x
    extract_lets +onlyGivenNames x
    extract_lets +onlyGivenNames x
    split
    apply fNan_kept
    assumption
    split
    apply fNan_kept
    assumption
    split
    split
    apply fNan_kept
    assumption
    assumption
    split
    assumption
    apply fRound_kept
    assumption

theorem fMinMax_kept (mx : Bool) (a0 b0 : U32) (s : State) (h_s : Kept q0 s) : Kept q0 (fMinMax mx a0 b0 s).s := by
  unfold fMinMax
  with_reducible
    extract_lets +onlyGivenNames x
    extract_lets +onlyGivenNames x
    extract_lets +onlyGivenNames x
    extract_lets +onlyGivenNames x
    dsimp -zeta only
    split
    apply fresh_kept
    assumption
    split
    assumption
    split
    apply fresh_kept
    assumption
    assumption

theorem fSign_kept (f : U32 → U32) (a0 : U32) (s : State) (h_s : Kept q0 s) : Kept q0 (fSign f a0 s).s := by
  unfold fSign
  with_reducible
    extract_lets +onlyGivenNames x
    split
    apply fNan_kept
    assumption
    assumption

theorem fCmp_kept (a0 b0 : U32) (c : Core) (s : State) (h_s : Kept q0 s) : Kept q0 (fCmp a0 b0 c s).2 := by
  unfold fCmp
  with_reducible
    refine kept_ite2 ?_ ?_
    apply fresh_kept
    assumption
    apply fresh_kept
    assumption

theorem fCvt_kept (k : Cvt) (a0 : U32) (s : State) (h_s : Kept q0 s) : Kept q0 (fCvt k a0 s).s := by
  unfold fCvt
  with_reducible
    extract_lets +onlyGivenNames x
    extract_lets +onlyGivenNames x
    extract_lets +onlyGivenNames x
    dsimp -zeta only
    split
    apply fRound_kept
    assumption
    apply fRound_kept
    assumption
    split
    apply fresh_kept
    assumption
    assumption
    split
    apply fresh_kept
    assumption
    assumption

theorem fRcp_kept (a0 : U32) (s : State) (h_s : Kept q0 s) : Kept q0 (fRcp a0 s).s := by
  unfold fRcp
  with_reducible
    extract_lets +onlyGivenNames x
    extract_lets +onlyGivenNames x
    dsimp -zeta only
    split
    apply fNan_kept
    assumption
    split
    assumption
    split
    apply fresh_kept
    assumption
    split
    assumption
    apply fRound_kept
    assumption

theorem fRsq_kept (a0 : U32) (s : State) (h_s : Kept q0 s) : Kept q0 (fRsq a0 s).s := by
  unfold fRsq
  with_reducible
    extract_lets +onlyGivenNames x
    extract_lets +onlyGivenNames x
    extract_lets +onlyGivenNames x
    extract_lets +onlyGivenNames x
    extract_lets +onlyGivenNames x
    extract_lets +onlyGivenNames x
    dsimp -zeta only
    split
    apply fNan_kept
    assumption
    split
    apply fresh_kept
    assumption
    split
    apply fNan_kept
    assumption
    split
    assumption
    split
    assumption
    assumption

theorem ex1_kept (c : Core) (s : State) (h_s : Kept q0 s) : KeptEx q0 (ex1 c s) := by
  unfold ex1
  with_reducible
    refine keptEx_ok ?_
    assumption

theorem runInstr_kept (core : CoreNo) (reads : List Nat) (words : Nat) (endOk : Bool) (f : Core → State → Except CoreFault Ex) (s : State) (h_f : ∀ c t, Kept q0 t → KeptEx q0 (f c t)) (h_s : Kept q0 s) : Kept q0 (runInstr core reads words endOk f s) := by
  unfold runInstr
  dsimp only
  split
  · exact h_s
  · split
    · exact faultRun_kept _ _ _ h_s
    · split
      · exact faultRun_kept _ _ _ h_s
      · split
        · exact faultRun_kept _ _ _ h_s
        · split
          · exact faultRun_kept _ _ _ (bumpBy_kept _ _ _ (bumpBy_kept _ _ _ (setCore_kept _ _ _ h_s)))
          · split
            · exact faultRun_kept _ _ _ (bumpBy_kept _ _ _ (bumpBy_kept _ _ _ (setCore_kept _ _ _ h_s)))
            · exact bumpBy_kept _ _ _ (setCore_kept _ _ _ (h_f _ _ (bumpBy_kept _ _ _ (bumpBy_kept _ _ _ (setCore_kept _ _ _ h_s))) _ ‹_›))

theorem aluInstr_kept (core : CoreNo) (reads : List Nat) (d : Fin 16) (f : Core → State → AluOut × State) (s : State) (h_f : ∀ c t, Kept q0 t → Kept q0 (f c t).2) (h_s : Kept q0 s) : Kept q0 (aluInstr core reads d f s) := by
  unfold aluInstr
  with_reducible
    apply runInstr_kept
    extract_lets +onlyGivenNames x
    intro _
    intro _
    intro _
    apply ex1_kept
    apply h_f
    assumption
    assumption

theorem fInstr_kept (core : CoreNo) (reads : List Nat) (lat : Nat) (d : Fin 16) (f : Core → State → FOut) (s : State) (h_f : ∀ c t, Kept q0 t → Kept q0 (f c t).s) (h_s : Kept q0 s) : Kept q0 (fInstr core reads lat d f s) := by
  unfold fInstr
  with_reducible
    apply runInstr_kept
    extract_lets +onlyGivenNames x
    intro _
    intro _
    extract_lets +onlyGivenNames x
    intro _
    apply ex1_kept
    apply h_f
    assumption
    assumption

theorem accInstr_kept (core : CoreNo) (reads : List Nat) (a : Fin 4) (f : Core → Core) (s : State) (h_s : Kept q0 s) : Kept q0 (accInstr core reads a f s) := by
  unfold accInstr
  with_reducible
    apply runInstr_kept
    extract_lets +onlyGivenNames x
    intro _
    apply ex1_kept
    assumption

theorem doSlot_kept (w : Nat) (sl : Slot) (orig c : Core) (s : State) (h_s : Kept q0 s) : KeptSlot q0 (doSlot w sl orig c s) := by
  unfold doSlot
  with_reducible
    dsimp -zeta only
    split
    exact keptSlot_err _
    extract_lets +onlyGivenNames x
    split
    exact keptSlot_err _
    split
    refine keptSlot_ok ?_
    extract_lets +onlyGivenNames x
    refine keptEa_get ‹_› ?_
    apply resolve_kept
    assumption
    split
    exact keptSlot_err _
    refine keptSlot_ok ?_
    extract_lets +onlyGivenNames x
    refine keptEa_get ‹_› ?_
    apply resolve_kept
    assumption
    extract_lets +onlyGivenNames x
    split
    exact keptSlot_err _
    refine keptSlot_ok ?_
    apply fresh_kept
    extract_lets +onlyGivenNames x
    refine keptEa_get ‹_› ?_
    apply resolve_kept
    assumption

theorem bundleMove_kept (mv : Option (SReg × SReg)) (b : Bundle) (regs : List (Fin 16 × U32)) (orig c : Core) (s : State) (h_s : Kept q0 s) : Kept q0 (bundleMove mv b regs orig c s).2 := by
  unfold bundleMove
  with_reducible
    dsimp -zeta only
    split
    assumption
    refine kept_ite2 ?_ ?_
    apply fresh_kept
    assumption
    assumption

theorem bundleEffect_kept (m : MacOp) (sub : Bool) (n : Nat) (b : Bundle) (c : Core) (s : State) (h_s : Kept q0 s) : KeptEx q0 (bundleEffect m sub n b c s) := by
  unfold bundleEffect
  with_reducible
    dsimp -zeta only
    split
    exact keptEx_err _
    split
    exact keptEx_err _
    split
    exact keptEx_err _
    extract_lets +onlyGivenNames x
    extract_lets +onlyGivenNames x
    extract_lets +onlyGivenNames x
    extract_lets +onlyGivenNames x
    extract_lets +onlyGivenNames x
    refine keptEx_ok ?_
    apply bumpIf_kept
    apply bundleMove_kept
    extract_lets +onlyGivenNames x
    refine keptSlot_get ‹_› ?_
    apply doSlot_kept
    extract_lets +onlyGivenNames x
    refine keptSlot_get ‹_› ?_
    apply doSlot_kept
    assumption

theorem bundle_kept (m : MacOp) (sub : Bool) (core : CoreNo) (b : Bundle) (s : State) (h_s : Kept q0 s) : Kept q0 (bundle m sub core b s) := by
  unfold bundle
  with_reducible
    apply runInstr_kept
    apply bundleEffect_kept
    assumption

theorem openLoop_kept (count : Count) (first last : U32) (rep : Bool) (c : Core) (s : State) (h_s : Kept q0 s) : KeptEx q0 (openLoop count first last rep c s) := by
  unfold openLoop
  with_reducible
    extract_lets +onlyGivenNames x
    extract_lets +onlyGivenNames x
    split
    exact keptEx_err _
    split
    refine keptEx_ok ?_
    assumption
    split
    exact keptEx_err _
    apply ex1_kept
    assumption

theorem takeBranch_kept (target : U32) (c : Core) (s : State) (h_s : Kept q0 s) : KeptEx q0 (takeBranch target c s) := by
  unfold takeBranch
  with_reducible
    refine keptEx_ok ?_
    assumption

theorem doXfer_kept (n : Nat) (q : CoreXfer) (s : State) (h_s : Kept q0 s) : Kept q0 (doXfer n q s) := by
  unfold doXfer
  with_reducible
    extract_lets +onlyGivenNames x
    extract_lets +onlyGivenNames x
    extract_lets +onlyGivenNames x; refine kept_cutg x ?_ ?_ <;> [(subst x); (clear_value x; intro _)]
    apply bumpBy_kept
    dsimp -zeta only
    split
    refine kept_ite ?_ ?_
    extract_lets +onlyGivenNames x
    extract_lets +onlyGivenNames x; refine kept_cut x ?_ ?_ <;> [(subst x); (clear_value x; intro _)]
    split
    apply modKern_kept
    assumption
    assumption
    apply_assumption
    assumption
    extract_lets +onlyGivenNames x; refine kept_cut x ?_ ?_ <;> [(subst x); (clear_value x; intro _)]
    refine kept_ite ?_ ?_
    apply setCore_kept
    extract_lets +onlyGivenNames x
    split
    assumption
    apply fresh_kept
    assumption
    apply setSram_kept
    extract_lets +onlyGivenNames x
    split
    assumption
    apply fresh_kept
    assumption
    apply_assumption
    assumption
    extract_lets +onlyGivenNames x
    extract_lets +onlyGivenNames x; refine kept_cut x ?_ ?_ <;> [(subst x); (clear_value x; intro _)]
    apply_assumption
    assumption
    split
    assumption
    split
    assumption
    split
    assumption
    split
    refine ringWrite_kept _ _ _ _ _  ?_  _ ‹_›
    assumption
    apply setKern_kept
    assumption

theorem execDmac32_kept (core : CoreNo) (b : Bundle) (s : State) (h_s : Kept q0 s) : KeptOut q0 (execDmac32 core b s) := by
  unfold execDmac32
  with_reducible
    refine keptOut_next ?_
    apply bundle_kept
    assumption

theorem execQmac16_kept (core : CoreNo) (b : Bundle) (s : State) (h_s : Kept q0 s) : KeptOut q0 (execQmac16 core b s) := by
  unfold execQmac16
  with_reducible
    refine keptOut_next ?_
    apply bundle_kept
    assumption

theorem execMac32_kept (core : CoreNo) (b : Bundle) (s : State) (h_s : Kept q0 s) : KeptOut q0 (execMac32 core b s) := by
  unfold execMac32
  with_reducible
    refine keptOut_next ?_
    apply bundle_kept
    assumption

theorem execDmac16_kept (core : CoreNo) (b : Bundle) (s : State) (h_s : Kept q0 s) : KeptOut q0 (execDmac16 core b s) := by
  unfold execDmac16
  with_reducible
    refine keptOut_next ?_
    apply bundle_kept
    assumption

theorem execMsu_kept (core : CoreNo) (op : MacOp) (b : Bundle) (s : State) (h_s : Kept q0 s) : KeptOut q0 (execMsu core op b s) := by
  unfold execMsu
  with_reducible
    refine keptOut_next ?_
    apply bundle_kept
    assumption

theorem execTapmv_kept (core : CoreNo) (acc : Fin 4) (i : Fin 8) (ov : OvMode) (s : State) (h_s : Kept q0 s) : KeptOut q0 (execTapmv core acc i ov s) := by
  unfold execTapmv
  with_reducible
    refine keptOut_next ?_
    apply runInstr_kept
    extract_lets +onlyGivenNames x
    intro _
    extract_lets +onlyGivenNames x
    extract_lets +onlyGivenNames x
    extract_lets +onlyGivenNames x
    extract_lets +onlyGivenNames x
    extract_lets +onlyGivenNames x
    extract_lets +onlyGivenNames x
    extract_lets +onlyGivenNames x
    extract_lets +onlyGivenNames x
    intro _
    intro _
    split
    exact keptEx_err _
    split
    exact keptEx_err _
    split
    exact keptEx_err _
    split
    exact keptEx_err _
    refine keptEx_ok ?_
    assumption
    assumption

theorem execMacr_kept (core : CoreNo) (acc : Fin 4) (a b : Fin 16) (sign : MacSign) (ov : OvMode) (s : State) (h_s : Kept q0 s) : KeptOut q0 (execMacr core acc a b sign ov s) := by
  unfold execMacr
  with_reducible
    refine keptOut_next ?_
    apply accInstr_kept
    assumption

theorem execMsur_kept (core : CoreNo) (acc : Fin 4) (a b : Fin 16) (sign : MacSign) (ov : OvMode) (s : State) (h_s : Kept q0 s) : KeptOut q0 (execMsur core acc a b sign ov s) := by
  unfold execMsur
  with_reducible
    refine keptOut_next ?_
    apply accInstr_kept
    assumption

theorem execAdda_kept (core : CoreNo) (dst src : Fin 4) (ov : OvMode) (s : State) (h_s : Kept q0 s) : KeptOut q0 (execAdda core dst src ov s) := by
  unfold execAdda
  with_reducible
    refine keptOut_next ?_
    apply accInstr_kept
    assumption

theorem execSuba_kept (core : CoreNo) (dst src : Fin 4) (ov : OvMode) (s : State) (h_s : Kept q0 s) : KeptOut q0 (execSuba core dst src ov s) := by
  unfold execSuba
  with_reducible
    refine keptOut_next ?_
    apply accInstr_kept
    assumption

theorem execNega_kept (core : CoreNo) (acc : Fin 4) (ov : OvMode) (s : State) (h_s : Kept q0 s) : KeptOut q0 (execNega core acc ov s) := by
  unfold execNega
  with_reducible
    refine keptOut_next ?_
    apply accInstr_kept
    assumption

theorem execAbsa_kept (core : CoreNo) (acc : Fin 4) (ov : OvMode) (s : State) (h_s : Kept q0 s) : KeptOut q0 (execAbsa core acc ov s) := by
  unfold execAbsa
  with_reducible
    refine keptOut_next ?_
    apply accInstr_kept
    assumption

theorem execSha_kept (core : CoreNo) (acc : Fin 4) (left : Bool) (n : BitVec 6) (ov : OvMode) (s : State) (h_s : Kept q0 s) : KeptOut q0 (execSha core acc left n ov s) := by
  unfold execSha
  with_reducible
    refine keptOut_next ?_
    apply accInstr_kept
    assumption

theorem execClra_kept (core : CoreNo) (accs : List (Fin 4)) (s : State) (h_s : Kept q0 s) : KeptOut q0 (execClra core accs s) := by
  unfold execClra
  with_reducible
    refine keptOut_next ?_
    apply runInstr_kept
    extract_lets +onlyGivenNames x
    intro _
    intro _
    intro _
    split
    exact keptEx_err _
    apply ex1_kept
    assumption
    assumption

theorem execExp_kept (core : CoreNo) (d : Fin 16) (acc : Fin 4) (s : State) (h_s : Kept q0 s) : KeptOut q0 (execExp core d acc s) := by
  unfold execExp
  with_reducible
    refine keptOut_next ?_
    apply runInstr_kept
    extract_lets +onlyGivenNames x
    intro _
    apply ex1_kept
    assumption

theorem execExpd_kept (core : CoreNo) (d a : Fin 16) (s : State) (h_s : Kept q0 s) : KeptOut q0 (execExpd core d a s) := by
  unfold execExpd
  with_reducible
    refine keptOut_next ?_
    apply runInstr_kept
    extract_lets +onlyGivenNames x
    intro _
    apply ex1_kept
    assumption

theorem execNorm_kept (core : CoreNo) (acc : Fin 4) (d : Fin 16) (ov : OvMode) (s : State) (h_s : Kept q0 s) : KeptOut q0 (execNorm core acc d ov s) := by
  unfold execNorm
  with_reducible
    refine keptOut_next ?_
    apply runInstr_kept
    extract_lets +onlyGivenNames x
    intro _
    apply ex1_kept
    assumption

theorem execSac_kept (core : CoreNo) (m : AMode) (acc : Fin 4) (shift : BitVec 6) (rnd : Rnd) (half : Bool) (s : State) (h_s : Kept q0 s) : KeptOut q0 (execSac core m acc shift rnd half s) := by
  unfold execSac
  with_reducible
    extract_lets +onlyGivenNames x
    refine keptOut_next ?_
    apply runInstr_kept
    extract_lets +onlyGivenNames x
    intro _
    extract_lets +onlyGivenNames x
    intro _
    intro _
    split
    exact keptEx_err _
    extract_lets +onlyGivenNames x
    split
    exact keptEx_err _
    apply ex1_kept
    extract_lets +onlyGivenNames x
    refine keptEa_get ‹_› ?_
    apply resolve_kept
    assumption
    assumption

theorem execMva_kept (core : CoreNo) (d : Fin 16) (acc : Fin 4) (shift : BitVec 6) (rnd : Rnd) (half : Bool) (s : State) (h_s : Kept q0 s) : KeptOut q0 (execMva core d acc shift rnd half s) := by
  unfold execMva
  with_reducible
    refine keptOut_next ?_
    apply runInstr_kept
    extract_lets +onlyGivenNames x
    intro _
    apply ex1_kept
    assumption

theorem execAdd_kept (core : CoreNo) (d a b : Fin 16) (s : State) (h_s : Kept q0 s) : KeptOut q0 (execAdd core d a b s) := by
  unfold execAdd
  with_reducible
    refine keptOut_next ?_
    apply aluInstr_kept
    extract_lets +onlyGivenNames x
    intro _
    intro _
    intro _
    assumption
    assumption

theorem execSub_kept (core : CoreNo) (d a b : Fin 16) (s : State) (h_s : Kept q0 s) : KeptOut q0 (execSub core d a b s) := by
  unfold execSub
  with_reducible
    refine keptOut_next ?_
    apply aluInstr_kept
    extract_lets +onlyGivenNames x
    intro _
    intro _
    intro _
    assumption
    assumption

theorem execAddi_kept (core : CoreNo) (d a : Fin 16) (imm : U32) (s : State) (h_s : Kept q0 s) : KeptOut q0 (execAddi core d a imm s) := by
  unfold execAddi
  with_reducible
    refine keptOut_next ?_
    apply aluInstr_kept
    extract_lets +onlyGivenNames x
    intro _
    intro _
    intro _
    assumption
    assumption

theorem execAndD_kept (core : CoreNo) (d a b : Fin 16) (s : State) (h_s : Kept q0 s) : KeptOut q0 (execAndD core d a b s) := by
  unfold execAndD
  with_reducible
    refine keptOut_next ?_
    apply aluInstr_kept
    extract_lets +onlyGivenNames x
    intro _
    apply aluFree_kept
    assumption

theorem execOrD_kept (core : CoreNo) (d a b : Fin 16) (s : State) (h_s : Kept q0 s) : KeptOut q0 (execOrD core d a b s) := by
  unfold execOrD
  with_reducible
    refine keptOut_next ?_
    apply aluInstr_kept
    extract_lets +onlyGivenNames x
    intro _
    apply aluFree_kept
    assumption

theorem execXorD_kept (core : CoreNo) (d a b : Fin 16) (s : State) (h_s : Kept q0 s) : KeptOut q0 (execXorD core d a b s) := by
  unfold execXorD
  with_reducible
    refine keptOut_next ?_
    apply aluInstr_kept
    extract_lets +onlyGivenNames x
    intro _
    apply aluFree_kept
    assumption

theorem execNotD_kept (core : CoreNo) (d a : Fin 16) (s : State) (h_s : Kept q0 s) : KeptOut q0 (execNotD core d a s) := by
  unfold execNotD
  with_reducible
    refine keptOut_next ?_
    apply aluInstr_kept
    extract_lets +onlyGivenNames x
    intro _
    apply aluFree_kept
    assumption

theorem execShl_kept (core : CoreNo) (d a : Fin 16) (b : Src2) (s : State) (h_s : Kept q0 s) : KeptOut q0 (execShl core d a b s) := by
  unfold execShl
  with_reducible
    refine keptOut_next ?_
    apply aluInstr_kept
    extract_lets +onlyGivenNames x
    intro _
    apply aluShift_kept
    assumption

theorem execShr_kept (core : CoreNo) (d a : Fin 16) (b : Src2) (s : State) (h_s : Kept q0 s) : KeptOut q0 (execShr core d a b s) := by
  unfold execShr
  with_reducible
    refine keptOut_next ?_
    apply aluInstr_kept
    extract_lets +onlyGivenNames x
    intro _
    apply aluShift_kept
    assumption

theorem execSar_kept (core : CoreNo) (d a : Fin 16) (b : Src2) (s : State) (h_s : Kept q0 s) : KeptOut q0 (execSar core d a b s) := by
  unfold execSar
  with_reducible
    refine keptOut_next ?_
    apply aluInstr_kept
    extract_lets +onlyGivenNames x
    intro _
    apply aluShift_kept
    assumption

theorem execRot_kept (core : CoreNo) (d a : Fin 16) (b : Src2) (s : State) (h_s : Kept q0 s) : KeptOut q0 (execRot core d a b s) := by
  unfold execRot
  with_reducible
    refine keptOut_next ?_
    apply aluInstr_kept
    extract_lets +onlyGivenNames x
    intro _
    apply aluFree_kept
    assumption

theorem execMin_kept (core : CoreNo) (d a b : Fin 16) (s : State) (h_s : Kept q0 s) : KeptOut q0 (execMin core d a b s) := by
  unfold execMin
  with_reducible
    refine keptOut_next ?_
    apply aluInstr_kept
    extract_lets +onlyGivenNames x
    intro _
    apply aluFree_kept
    assumption

theorem execMax_kept (core : CoreNo) (d a b : Fin 16) (s : State) (h_s : Kept q0 s) : KeptOut q0 (execMax core d a b s) := by
  unfold execMax
  with_reducible
    refine keptOut_next ?_
    apply aluInstr_kept
    extract_lets +onlyGivenNames x
    intro _
    apply aluFree_kept
    assumption

theorem execAbs_kept (core : CoreNo) (d a : Fin 16) (s : State) (h_s : Kept q0 s) : KeptOut q0 (execAbs core d a s) := by
  unfold execAbs
  with_reducible
    refine keptOut_next ?_
    apply aluInstr_kept
    extract_lets +onlyGivenNames x
    intro _
    intro _
    intro _
    refine kept_ite2 ?_ ?_
    apply aluOpen_kept
    assumption
    apply aluFree_kept
    assumption
    assumption

theorem execCmp_kept (core : CoreNo) (a : Fin 16) (b : Src2) (s : State) (h_s : Kept q0 s) : KeptOut q0 (execCmp core a b s) := by
  unfold execCmp
  with_reducible
    refine keptOut_next ?_
    apply runInstr_kept
    extract_lets +onlyGivenNames x
    intro _
    apply ex1_kept
    assumption

theorem execSel_kept (core : CoreNo) (cond : Cond) (d a b : Fin 16) (s : State) (h_s : Kept q0 s) : KeptOut q0 (execSel core cond d a b s) := by
  unfold execSel
  with_reducible
    refine keptOut_next ?_
    apply aluInstr_kept
    extract_lets +onlyGivenNames x
    intro _
    apply aluFree_kept
    assumption

theorem execMul_kept (core : CoreNo) (d a b : Fin 16) (s : State) (h_s : Kept q0 s) : KeptOut q0 (execMul core d a b s) := by
  unfold execMul
  with_reducible
    refine keptOut_next ?_
    apply runInstr_kept
    extract_lets +onlyGivenNames x
    intro _
    apply ex1_kept
    assumption

theorem execMulh_kept (core : CoreNo) (d a b : Fin 16) (s : State) (h_s : Kept q0 s) : KeptOut q0 (execMulh core d a b s) := by
  unfold execMulh
  with_reducible
    refine keptOut_next ?_
    apply runInstr_kept
    extract_lets +onlyGivenNames x
    intro _
    apply ex1_kept
    assumption

theorem execDivs_kept (core : CoreNo) (d a b : Fin 16) (s : State) (h_s : Kept q0 s) : KeptOut q0 (execDivs core d a b s) := by
  unfold execDivs
  with_reducible
    refine keptOut_next ?_
    apply runInstr_kept
    extract_lets +onlyGivenNames x
    intro _
    apply ex1_kept
    assumption

theorem execFadd_kept (core : CoreNo) (d a b : Fin 16) (s : State) (h_s : Kept q0 s) : KeptOut q0 (execFadd core d a b s) := by
  unfold execFadd
  with_reducible
    refine keptOut_next ?_
    apply fInstr_kept
    extract_lets +onlyGivenNames x
    intro _
    apply fAdd_kept
    assumption

theorem execFsub_kept (core : CoreNo) (d a b : Fin 16) (s : State) (h_s : Kept q0 s) : KeptOut q0 (execFsub core d a b s) := by
  unfold execFsub
  with_reducible
    refine keptOut_next ?_
    apply fInstr_kept
    extract_lets +onlyGivenNames x
    intro _
    apply fAdd_kept
    assumption

theorem execFmul_kept (core : CoreNo) (d a b : Fin 16) (s : State) (h_s : Kept q0 s) : KeptOut q0 (execFmul core d a b s) := by
  unfold execFmul
  with_reducible
    refine keptOut_next ?_
    apply fInstr_kept
    extract_lets +onlyGivenNames x
    intro _
    apply fMul_kept
    assumption

theorem execFma_kept (core : CoreNo) (d a b c : Fin 16) (s : State) (h_s : Kept q0 s) : KeptOut q0 (execFma core d a b c s) := by
  unfold execFma
  with_reducible
    refine keptOut_next ?_
    apply fInstr_kept
    extract_lets +onlyGivenNames x
    intro _
    apply fFma_kept
    assumption

theorem execFmin_kept (core : CoreNo) (d a b : Fin 16) (s : State) (h_s : Kept q0 s) : KeptOut q0 (execFmin core d a b s) := by
  unfold execFmin
  with_reducible
    refine keptOut_next ?_
    apply fInstr_kept
    extract_lets +onlyGivenNames x
    intro _
    apply fMinMax_kept
    assumption

theorem execFmax_kept (core : CoreNo) (d a b : Fin 16) (s : State) (h_s : Kept q0 s) : KeptOut q0 (execFmax core d a b s) := by
  unfold execFmax
  with_reducible
    refine keptOut_next ?_
    apply fInstr_kept
    extract_lets +onlyGivenNames x
    intro _
    apply fMinMax_kept
    assumption

theorem execFabs_kept (core : CoreNo) (d a : Fin 16) (s : State) (h_s : Kept q0 s) : KeptOut q0 (execFabs core d a s) := by
  unfold execFabs
  with_reducible
    refine keptOut_next ?_
    apply fInstr_kept
    extract_lets +onlyGivenNames x
    intro _
    apply fSign_kept
    assumption

theorem execFneg_kept (core : CoreNo) (d a : Fin 16) (s : State) (h_s : Kept q0 s) : KeptOut q0 (execFneg core d a s) := by
  unfold execFneg
  with_reducible
    refine keptOut_next ?_
    apply fInstr_kept
    extract_lets +onlyGivenNames x
    intro _
    apply fSign_kept
    assumption

theorem execFcmp_kept (core : CoreNo) (a b : Fin 16) (s : State) (h_s : Kept q0 s) : KeptOut q0 (execFcmp core a b s) := by
  unfold execFcmp
  with_reducible
    refine keptOut_next ?_
    apply runInstr_kept
    extract_lets +onlyGivenNames x
    intro _
    intro _
    intro _
    apply ex1_kept
    apply fCmp_kept
    assumption
    assumption

theorem execFcvt_kept (core : CoreNo) (k : Cvt) (d a : Fin 16) (s : State) (h_s : Kept q0 s) : KeptOut q0 (execFcvt core k d a s) := by
  unfold execFcvt
  with_reducible
    refine keptOut_next ?_
    apply fInstr_kept
    extract_lets +onlyGivenNames x
    intro _
    apply fCvt_kept
    assumption

theorem execFrcp_kept (core : CoreNo) (d a : Fin 16) (s : State) (h_s : Kept q0 s) : KeptOut q0 (execFrcp core d a s) := by
  unfold execFrcp
  with_reducible
    refine keptOut_next ?_
    apply fInstr_kept
    extract_lets +onlyGivenNames x
    intro _
    apply fRcp_kept
    assumption

theorem execFrsq_kept (core : CoreNo) (d a : Fin 16) (s : State) (h_s : Kept q0 s) : KeptOut q0 (execFrsq core d a s) := by
  unfold execFrsq
  with_reducible
    refine keptOut_next ?_
    apply fInstr_kept
    extract_lets +onlyGivenNames x
    intro _
    apply fRsq_kept
    assumption

theorem loadInstr_kept (core : CoreNo) (w : Nat) (dualOnly : Bool) (m : AMode) (put : U64 → Core → Core) (s : State) (h_s : Kept q0 s) : Kept q0 (loadInstr core w dualOnly m put s) := by
  unfold loadInstr
  with_reducible
    apply runInstr_kept
    extract_lets +onlyGivenNames x
    intro _
    intro _
    intro _
    split
    exact keptEx_err _
    split
    exact keptEx_err _
    split
    exact keptEx_err _
    apply ex1_kept
    extract_lets +onlyGivenNames x
    refine keptEa_get ‹_› ?_
    apply resolve_kept
    assumption
    assumption

theorem storeInstr_kept (core : CoreNo) (reads : List Nat) (w : Nat) (dualOnly : Bool) (m : AMode) (v : Core → U64) (s : State) (h_s : Kept q0 s) : Kept q0 (storeInstr core reads w dualOnly m v s) := by
  unfold storeInstr
  with_reducible
    apply runInstr_kept
    extract_lets +onlyGivenNames x
    intro _
    intro _
    intro _
    split
    exact keptEx_err _
    split
    exact keptEx_err _
    split
    exact keptEx_err _
    apply ex1_kept
    extract_lets +onlyGivenNames x
    refine keptEa_get ‹_› ?_
    apply resolve_kept
    assumption
    assumption

theorem execLd_kept (core : CoreNo) (d : Fin 16) (sz : Size) (signed : Bool) (m : AMode) (s : State) (h_s : Kept q0 s) : KeptOut q0 (execLd core d sz signed m s) := by
  unfold execLd
  with_reducible
    refine keptOut_next ?_
    apply loadInstr_kept
    assumption

theorem execSt_kept (core : CoreNo) (m : AMode) (d : Fin 16) (sz : Size) (s : State) (h_s : Kept q0 s) : KeptOut q0 (execSt core m d sz s) := by
  unfold execSt
  with_reducible
    refine keptOut_next ?_
    apply storeInstr_kept
    assumption

theorem execLd64_kept (core : CoreNo) (d : Fin 8) (m : AMode) (s : State) (h_s : Kept q0 s) : KeptOut q0 (execLd64 core d m s) := by
  unfold execLd64
  with_reducible
    refine keptOut_next ?_
    apply loadInstr_kept
    assumption

theorem execSt64_kept (core : CoreNo) (m : AMode) (d : Fin 8) (s : State) (h_s : Kept q0 s) : KeptOut q0 (execSt64 core m d s) := by
  unfold execSt64
  with_reducible
    refine keptOut_next ?_
    apply storeInstr_kept
    assumption

theorem countSram_kept (n conf : Nat) (s : State) (h_s : Kept q0 s) : Kept q0 (countSram n conf s) := by
  unfold countSram
  with_reducible
    apply bumpBy_kept
    apply bumpBy_kept
    apply bump_kept
    assumption

theorem execLdc_kept (core : CoreNo) (d : Fin 16) (m : AMode) (conflicts : BitVec 3) (s : State) (h_s : Kept q0 s) : KeptOut q0 (execLdc core d m conflicts s) := by
  unfold execLdc
  with_reducible
    refine keptOut_next ?_
    apply runInstr_kept
    extract_lets +onlyGivenNames x
    intro _
    intro _
    intro _
    split
    exact keptEx_err _
    extract_lets +onlyGivenNames x
    split
    exact keptEx_err _
    apply ex1_kept
    apply countSram_kept
    extract_lets +onlyGivenNames x
    refine keptEa_get ‹_› ?_
    apply resolve_kept
    assumption
    assumption

theorem execStc_kept (core : CoreNo) (m : AMode) (d : Fin 16) (conflicts : BitVec 3) (s : State) (h_s : Kept q0 s) : KeptOut q0 (execStc core m d conflicts s) := by
  unfold execStc
  with_reducible
    extract_lets +onlyGivenNames x
    refine keptOut_next ?_
    apply runInstr_kept
    extract_lets +onlyGivenNames x
    intro _
    intro _
    intro _
    split
    exact keptEx_err _
    split
    exact keptEx_err _
    apply ex1_kept
    apply countSram_kept
    apply setSram_kept
    extract_lets +onlyGivenNames x
    refine keptEa_get ‹_› ?_
    apply resolve_kept
    assumption
    assumption

theorem execMovi_kept (core : CoreNo) (r : SReg) (imm : U32) (s : State) (h_s : Kept q0 s) : KeptOut q0 (execMovi core r imm s) := by
  unfold execMovi
  with_reducible
    refine keptOut_next ?_
    apply runInstr_kept
    extract_lets +onlyGivenNames x
    intro _
    apply ex1_kept
    assumption

theorem execModi_kept (core : CoreNo) (i : Fin 8) (step : Src2) (s : State) (h_s : Kept q0 s) : KeptOut q0 (execModi core i step s) := by
  unfold execModi
  with_reducible
    refine keptOut_next ?_
    apply runInstr_kept
    extract_lets +onlyGivenNames x
    intro _
    intro _
    intro _
    apply ex1_kept
    apply stepPtr_kept
    assumption
    assumption

theorem execMov_kept (core : CoreNo) (dst src : SReg) (s : State) (h_s : Kept q0 s) : KeptOut q0 (execMov core dst src s) := by
  unfold execMov
  with_reducible
    refine keptOut_next ?_
    apply runInstr_kept
    extract_lets +onlyGivenNames x
    intro _
    apply ex1_kept
    assumption

theorem execB_kept (core : CoreNo) (target : U32) (s : State) (h_s : Kept q0 s) : KeptOut q0 (execB core target s) := by
  unfold execB
  with_reducible
    refine keptOut_next ?_
    apply runInstr_kept
    apply takeBranch_kept
    assumption

theorem execBcc_kept (core : CoreNo) (cond : Cond) (target : U32) (s : State) (h_s : Kept q0 s) : KeptOut q0 (execBcc core cond target s) := by
  unfold execBcc
  with_reducible
    refine keptOut_next ?_
    apply runInstr_kept
    extract_lets +onlyGivenNames x
    intro _
    intro _
    intro _
    split
    apply takeBranch_kept
    assumption
    apply ex1_kept
    assumption
    assumption

theorem execCall_kept (core : CoreNo) (target : U32) (s : State) (h_s : Kept q0 s) : KeptOut q0 (execCall core target s) := by
  unfold execCall
  with_reducible
    refine keptOut_next ?_
    apply runInstr_kept
    extract_lets +onlyGivenNames x
    intro _
    intro _
    intro _
    split
    exact keptEx_err _
    refine keptEx_ok ?_
    assumption
    assumption

theorem execRet_kept (core : CoreNo) (s : State) (h_s : Kept q0 s) : KeptOut q0 (execRet core s) := by
  unfold execRet
  with_reducible
    refine keptOut_next ?_
    apply runInstr_kept
    extract_lets +onlyGivenNames x
    intro _
    intro _
    intro _
    split
    exact keptEx_err _
    refine keptEx_ok ?_
    assumption
    assumption

theorem execLoop_kept (core : CoreNo) (count : Count) (last : U32) (s : State) (h_s : Kept q0 s) : KeptOut q0 (execLoop core count last s) := by
  unfold execLoop
  with_reducible
    refine keptOut_next ?_
    apply runInstr_kept
    extract_lets +onlyGivenNames x
    intro _
    apply openLoop_kept
    assumption

theorem execRep_kept (core : CoreNo) (count : Count) (s : State) (h_s : Kept q0 s) : KeptOut q0 (execRep core count s) := by
  unfold execRep
  with_reducible
    refine keptOut_next ?_
    apply runInstr_kept
    extract_lets +onlyGivenNames x
    intro _
    apply openLoop_kept
    assumption

theorem execDmaq_kept (core : CoreNo) (op : DmaqOp) (s : State) (h_s : Kept q0 s) : KeptOut q0 (execDmaq core op s) := by
  unfold execDmaq
  with_reducible
    extract_lets +onlyGivenNames x
    refine keptOut_next ?_
    refine kept_ite ?_ ?_
    assumption
    apply runInstr_kept
    extract_lets +onlyGivenNames x
    intro _
    intro _
    extract_lets +onlyGivenNames x
    intro _
    split
    exact keptEx_err _
    split
    exact keptEx_err _
    split
    exact keptEx_err _
    apply ex1_kept
    assumption
    assumption

theorem execOutq_kept (core : CoreNo) (binding : BitVec 4) (localAddr : BitVec 24) (bytes : BitVec 17) (s : State) (h_s : Kept q0 s) : KeptOut q0 (execOutq core binding localAddr bytes s) := by
  unfold execOutq
  with_reducible
    extract_lets +onlyGivenNames x
    refine keptOut_next ?_
    refine kept_ite ?_ ?_
    assumption
    apply runInstr_kept
    extract_lets +onlyGivenNames x
    intro _
    intro _
    extract_lets +onlyGivenNames x
    intro _
    split
    exact keptEx_err _
    split
    exact keptEx_err _
    split
    exact keptEx_err _
    apply ex1_kept
    assumption
    assumption

theorem execWaitd_kept (core : CoreNo) (n : BitVec 5) (s : State) (h_s : Kept q0 s) : KeptOut q0 (execWaitd core n s) := by
  unfold execWaitd
  with_reducible
    extract_lets +onlyGivenNames x
    refine keptOut_next ?_
    refine kept_ite ?_ ?_
    assumption
    apply runInstr_kept
    apply ex1_kept
    assumption

theorem execDmaTransferDone_kept (core : CoreNo) (s : State) (h_s : Kept q0 s) : KeptOut q0 (execDmaTransferDone core s) := by
  unfold execDmaTransferDone
  with_reducible
    extract_lets +onlyGivenNames x
    extract_lets +onlyGivenNames x
    refine keptOut_next ?_
    extract_lets +onlyGivenNames x
    split
    assumption
    apply doXfer_kept
    apply setCore_kept
    assumption

theorem execMvccr_kept (core : CoreNo) (d : Fin 16) (s : State) (h_s : Kept q0 s) : KeptOut q0 (execMvccr core d s) := by
  unfold execMvccr
  with_reducible
    refine keptOut_next ?_
    apply runInstr_kept
    extract_lets +onlyGivenNames x
    intro _
    extract_lets +onlyGivenNames x
    intro _
    intro _
    split
    exact keptEx_err _
    apply ex1_kept
    assumption
    assumption

theorem execNop_kept (core : CoreNo) (s : State) (h_s : Kept q0 s) : KeptOut q0 (execNop core s) := by
  unfold execNop
  with_reducible
    refine keptOut_next ?_
    apply runInstr_kept
    apply ex1_kept
    assumption

theorem execDone_kept (core : CoreNo) (s : State) (h_s : Kept q0 s) : KeptOut q0 (execDone core s) := by
  unfold execDone
  with_reducible
    extract_lets +onlyGivenNames x
    refine keptOut_next ?_
    refine kept_ite ?_ ?_
    apply endRun_kept
    apply runInstr_kept
    extract_lets +onlyGivenNames x
    intro _
    intro _
    intro _
    refine keptEx_ok ?_
    assumption
    assumption
    apply runInstr_kept
    extract_lets +onlyGivenNames x
    intro _
    intro _
    intro _
    refine keptEx_ok ?_
    assumption
    assumption

theorem execBudgetFault_kept (core : CoreNo) (s : State) (h_s : Kept q0 s) : KeptOut q0 (execBudgetFault core s) := by
  unfold execBudgetFault
  with_reducible
    extract_lets +onlyGivenNames x
    extract_lets +onlyGivenNames x
    refine keptOut_next ?_
    extract_lets +onlyGivenNames x
    split
    assumption
    refine kept_ite ?_ ?_
    assumption
    apply faultRun_kept
    apply setCore_kept
    assumption

theorem timeoutCapJob_kept (id : Nat) (s : State) (h_s : Kept q0 s) : Kept q0 (timeoutCapJob id s) := by
  unfold timeoutCapJob
  with_reducible
    split
    apply delJob_kept
    apply unbindRing_kept
    extract_lets +onlyGivenNames x
    split
    apply setRecAt_kept
    assumption
    assumption
    apply delJob_kept
    apply unbindRing_kept
    apply setRecAt_kept
    assumption
    apply delJob_kept
    apply setRecAt_kept
    assumption
    assumption

theorem timeoutImage_kept (id : Nat) (s : State) (h_s : Kept q0 s) : Kept q0 (timeoutImage id s) := by
  unfold timeoutImage
  with_reducible
    extract_lets +onlyGivenNames x
    extract_lets +onlyGivenNames x
    split
    assumption
    apply unbindRing_kept
    extract_lets +onlyGivenNames x
    refine kept_upd rfl ?_ rfl rfl rfl
    assumption

theorem timeoutOtp_kept (id : Nat) (s : State) (h_s : Kept q0 s) : Kept q0 (timeoutOtp id s) := by
  unfold timeoutOtp
  with_reducible
    extract_lets +onlyGivenNames x
    split
    refine kept_ite ?_ ?_
    apply refreshOtp_kept
    apply setOtpGroup_kept
    extract_lets +onlyGivenNames x
    refine kept_upd rfl ?_ rfl rfl rfl
    assumption
    assumption
    assumption

theorem timeoutSeal_kept (id : Nat) (s : State) (h_s : Kept q0 s) : Kept q0 (timeoutSeal id s) := by
  unfold timeoutSeal
  with_reducible
    extract_lets +onlyGivenNames x; refine kept_cut x ?_ ?_ <;> [(subst x); (clear_value x; intro _)]
    apply setOtpGroup_kept
    assumption
    extract_lets +onlyGivenNames x
    split
    refine kept_ite ?_ ?_
    apply refreshOtp_kept
    extract_lets +onlyGivenNames x
    refine kept_upd rfl ?_ rfl rfl rfl
    assumption
    assumption
    assumption

theorem timeoutLoad_kept (id : Nat) (s : State) (h_s : Kept q0 s) : Kept q0 (timeoutLoad id s) := by
  unfold timeoutLoad
  with_reducible
    extract_lets +onlyGivenNames x
    split
    assumption
    refine kept_ite ?_ ?_
    apply unbindRing_kept
    extract_lets +onlyGivenNames x
    refine kept_upd rfl ?_ rfl rfl rfl
    assumption
    extract_lets +onlyGivenNames x
    refine kept_upd rfl ?_ rfl rfl rfl
    assumption

theorem timeoutAnn_kept (id : Nat) (s : State) (h_s : Kept q0 s) : Kept q0 (timeoutAnn id s) := by
  unfold timeoutAnn
  with_reducible
    extract_lets +onlyGivenNames x
    split
    assumption
    extract_lets +onlyGivenNames x; refine kept_cut x ?_ ?_ <;> [(subst x); (clear_value x; intro _)]
    refine kept_upd rfl ?_ rfl rfl rfl
    assumption
    split
    apply unbindRing_kept
    assumption
    assumption

theorem timeoutLeaves_kept (opcode id : Nat) (s : State) (h_s : Kept q0 s) : Kept q0 (timeoutLeaves opcode id s) := by
  unfold timeoutLeaves
  with_reducible
    extract_lets +onlyGivenNames x
    extract_lets +onlyGivenNames x
    split
    refine kept_upd rfl ?_ rfl rfl rfl
    assumption
    apply timeoutCapJob_kept
    assumption
    refine kept_upd rfl ?_ rfl rfl rfl
    assumption
    apply timeoutCapJob_kept
    assumption
    apply timeoutCapJob_kept
    assumption
    apply timeoutSeal_kept
    assumption
    apply timeoutAnn_kept
    assumption
    apply timeoutLoad_kept
    assumption
    apply timeoutOtp_kept
    assumption
    apply timeoutImage_kept
    assumption
    assumption

theorem execLongCommandTimeout_kept (cmd : U32) (s : State) (h_s : Kept q0 s) : KeptOut q0 (execLongCommandTimeout cmd s) := by
  unfold execLongCommandTimeout
  with_reducible
    refine keptOut_next ?_
    extract_lets +onlyGivenNames x
    split
    assumption
    refine kept_ite ?_ ?_
    apply completeLong_kept
    apply timeoutLeaves_kept
    assumption
    assumption

theorem clockCycle_ns (c : ClkBlk) (h : c.ns.toNat < 1000000000) : (clockCycle c).ns.toNat < 1000000000 := by
  have h1 := c.frac.isLt
  have h2 := c.incrApplied.isLt
  unfold clockCycle
  dsimp only
  generalize c.ns.toNat = a at *
  generalize c.frac.toNat = b at *
  generalize c.incrApplied.toNat = d at *
  rw [BitVec.toNat_ofNat]
  have h3 : (a * 2 ^ 32 + b + d) / 2 ^ 32 < 1000000300 := by omega
  generalize (a * 2 ^ 32 + b + d) / 2 ^ 32 = n at *
  split <;> omega

theorem kept_clkNs {q0 : List Instr} {s : State} (h : Kept q0 s) (c : ClkBlk) (hc : c.ns.toNat < 1000000000) : Kept q0 { s with clk := c } :=
  ⟨hc, h.2.1, h.2.2.1, h.2.2.2⟩

theorem idleCycle_kept {q0 : List Instr} (s : State) (h : Kept q0 s) : Kept q0 (idleCycle s) :=
  kept_ite (kept_clkNs h _ (clockCycle_ns _ h.1)) h

end Sys2Proof.Machine
end

