-- ==== Sys2Proof/Laws/Sorrel.lean ====
section
/-!
SUPPORT. The one path of an instruction of a Sorrel core: what it is when the instruction issues and answers, and when it faults.
-/

namespace Sys2Proof.Machine

/-- An instruction that issues and answers retires. -/
theorem runInstr_issues {core : CoreNo} {reads : List Nat} {w : Nat} {e : Bool} {f : Core → State → Except CoreFault Ex} {s : State} {x : Ex}
    (h : Issues core reads w e s) (k : f (coreAt core reads s) (stateAt core reads s) = .ok x) :
    runInstr core reads w e f s = retire core w x := by
  obtain ⟨h1, h2, h3, h4, h5⟩ := h
  have h5' := h5
  unfold stateAt coreAt stallOf at h5' k
  unfold runInstr
  have h2' : ¬ (0x8000 < (getCore s core.toNat).pc.toNat + 4 * w) := by omega
  have h4' : ¬ (e = false ∧ ((getCore s core.toNat).loops.any fun l => decide (l.last = (getCore s core.toNat).pc)) = true) := by
    rintro ⟨a, b⟩
    cases h4 with
    | inl h => rw [a] at h; cases h
    | inr h => rw [h] at b; cases b
  simp only [h1, ne_eq, not_true_eq_false, if_false, h2', h3, h4', h5', k, retire, Bool.false_eq_true]
  try rfl

/-- An instruction that issues and faults freezes its core. -/
theorem runInstr_error {core : CoreNo} {reads : List Nat} {w : Nat} {e : Bool} {f : Core → State → Except CoreFault Ex} {s : State}
    {x : CoreFault} (h : Issues core reads w e s) (k : f (coreAt core reads s) (stateAt core reads s) = .error x) :
    runInstr core reads w e f s = faultRun core.toNat x (stateAt core reads s) := by
  obtain ⟨h1, h2, h3, h4, h5⟩ := h
  have h5' := h5
  unfold stateAt coreAt stallOf at h5' k
  unfold runInstr
  have h2' : ¬ (0x8000 < (getCore s core.toNat).pc.toNat + 4 * w) := by omega
  have h4' : ¬ (e = false ∧ ((getCore s core.toNat).loops.any fun l => decide (l.last = (getCore s core.toNat).pc)) = true) := by
    rintro ⟨a, b⟩
    cases h4 with
    | inl h => rw [a] at h; cases h
    | inr h => rw [h] at b; cases b
  simp only [h1, ne_eq, not_true_eq_false, if_false, h2', h3, h4', h5', k, Bool.false_eq_true]
  try rfl

end Sys2Proof.Machine
end

