-- ==== Sys2Proof/Laws/State.lean ====
section
/-!
SUPPORT. What an update of one part of the state leaves unchanged, field by field.
-/

namespace Sys2Proof.Machine

set_option Elab.async false

@[simp] theorem cntSet_dev (addr v : Nat) (s : State) : (cntSet addr v s).dev = s.dev := rfl
@[simp] theorem cntSet_clk (addr v : Nat) (s : State) : (cntSet addr v s).clk = s.clk := rfl
@[simp] theorem cntSet_host (addr v : Nat) (s : State) : (cntSet addr v s).host = s.host := rfl
@[simp] theorem cntSet_pop (addr v : Nat) (s : State) : (cntSet addr v s).pop = s.pop := rfl
@[simp] theorem cntSet_net (addr v : Nat) (s : State) : (cntSet addr v s).net = s.net := rfl
@[simp] theorem cntSet_ing (addr v : Nat) (s : State) : (cntSet addr v s).ing = s.ing := rfl
@[simp] theorem cntSet_aln (addr v : Nat) (s : State) : (cntSet addr v s).aln = s.aln := rfl
@[simp] theorem cntSet_osc (addr v : Nat) (s : State) : (cntSet addr v s).osc = s.osc := rfl
@[simp] theorem cntSet_isl (addr v : Nat) (s : State) : (cntSet addr v s).isl = s.isl := rfl
@[simp] theorem cntSet_alm (addr v : Nat) (s : State) : (cntSet addr v s).alm = s.alm := rfl
@[simp] theorem cntSet_cap (addr v : Nat) (s : State) : (cntSet addr v s).cap = s.cap := rfl
@[simp] theorem cntSet_sage (addr v : Nat) (s : State) : (cntSet addr v s).sage = s.sage := rfl
@[simp] theorem cntSet_eq (addr v : Nat) (s : State) : (cntSet addr v s).eq = s.eq := rfl
@[simp] theorem cntSet_voc (addr v : Nat) (s : State) : (cntSet addr v s).voc = s.voc := rfl
@[simp] theorem cntSet_sor (addr v : Nat) (s : State) : (cntSet addr v s).sor = s.sor := rfl
@[simp] theorem cntSet_yar (addr v : Nat) (s : State) : (cntSet addr v s).yar = s.yar := rfl
@[simp] theorem cntSet_cf (addr v : Nat) (s : State) : (cntSet addr v s).cf = s.cf := rfl
@[simp] theorem cntSet_dill (addr v : Nat) (s : State) : (cntSet addr v s).dill = s.dill := rfl
@[simp] theorem cntSet_jtag (addr v : Nat) (s : State) : (cntSet addr v s).jtag = s.jtag := rfl
@[simp] theorem cntSet_free (addr v : Nat) (s : State) : (cntSet addr v s).free = s.free := rfl
@[simp] theorem cntSet_shadow (addr v : Nat) (s : State) : (cntSet addr v s).shadow = s.shadow := rfl
@[simp] theorem cntSet_pending (addr v : Nat) (s : State) : (cntSet addr v s).pending = s.pending := rfl

@[simp] theorem bumpBy_dev (addr n : Nat) (s : State) : (bumpBy addr n s).dev = s.dev := rfl
@[simp] theorem bumpBy_clk (addr n : Nat) (s : State) : (bumpBy addr n s).clk = s.clk := rfl
@[simp] theorem bumpBy_host (addr n : Nat) (s : State) : (bumpBy addr n s).host = s.host := rfl
@[simp] theorem bumpBy_pop (addr n : Nat) (s : State) : (bumpBy addr n s).pop = s.pop := rfl
@[simp] theorem bumpBy_net (addr n : Nat) (s : State) : (bumpBy addr n s).net = s.net := rfl
@[simp] theorem bumpBy_ing (addr n : Nat) (s : State) : (bumpBy addr n s).ing = s.ing := rfl
@[simp] theorem bumpBy_aln (addr n : Nat) (s : State) : (bumpBy addr n s).aln = s.aln := rfl
@[simp] theorem bumpBy_osc (addr n : Nat) (s : State) : (bumpBy addr n s).osc = s.osc := rfl
@[simp] theorem bumpBy_isl (addr n : Nat) (s : State) : (bumpBy addr n s).isl = s.isl := rfl
@[simp] theorem bumpBy_alm (addr n : Nat) (s : State) : (bumpBy addr n s).alm = s.alm := rfl
@[simp] theorem bumpBy_cap (addr n : Nat) (s : State) : (bumpBy addr n s).cap = s.cap := rfl
@[simp] theorem bumpBy_sage (addr n : Nat) (s : State) : (bumpBy addr n s).sage = s.sage := rfl
@[simp] theorem bumpBy_eq (addr n : Nat) (s : State) : (bumpBy addr n s).eq = s.eq := rfl
@[simp] theorem bumpBy_voc (addr n : Nat) (s : State) : (bumpBy addr n s).voc = s.voc := rfl
@[simp] theorem bumpBy_sor (addr n : Nat) (s : State) : (bumpBy addr n s).sor = s.sor := rfl
@[simp] theorem bumpBy_yar (addr n : Nat) (s : State) : (bumpBy addr n s).yar = s.yar := rfl
@[simp] theorem bumpBy_cf (addr n : Nat) (s : State) : (bumpBy addr n s).cf = s.cf := rfl
@[simp] theorem bumpBy_dill (addr n : Nat) (s : State) : (bumpBy addr n s).dill = s.dill := rfl
@[simp] theorem bumpBy_jtag (addr n : Nat) (s : State) : (bumpBy addr n s).jtag = s.jtag := rfl
@[simp] theorem bumpBy_free (addr n : Nat) (s : State) : (bumpBy addr n s).free = s.free := rfl
@[simp] theorem bumpBy_shadow (addr n : Nat) (s : State) : (bumpBy addr n s).shadow = s.shadow := rfl
@[simp] theorem bumpBy_pending (addr n : Nat) (s : State) : (bumpBy addr n s).pending = s.pending := rfl

@[simp] theorem bump_dev (addr : Nat) (s : State) : (bump addr s).dev = s.dev := rfl
@[simp] theorem bump_clk (addr : Nat) (s : State) : (bump addr s).clk = s.clk := rfl
@[simp] theorem bump_host (addr : Nat) (s : State) : (bump addr s).host = s.host := rfl
@[simp] theorem bump_pop (addr : Nat) (s : State) : (bump addr s).pop = s.pop := rfl
@[simp] theorem bump_net (addr : Nat) (s : State) : (bump addr s).net = s.net := rfl
@[simp] theorem bump_ing (addr : Nat) (s : State) : (bump addr s).ing = s.ing := rfl
@[simp] theorem bump_aln (addr : Nat) (s : State) : (bump addr s).aln = s.aln := rfl
@[simp] theorem bump_osc (addr : Nat) (s : State) : (bump addr s).osc = s.osc := rfl
@[simp] theorem bump_isl (addr : Nat) (s : State) : (bump addr s).isl = s.isl := rfl
@[simp] theorem bump_alm (addr : Nat) (s : State) : (bump addr s).alm = s.alm := rfl
@[simp] theorem bump_cap (addr : Nat) (s : State) : (bump addr s).cap = s.cap := rfl
@[simp] theorem bump_sage (addr : Nat) (s : State) : (bump addr s).sage = s.sage := rfl
@[simp] theorem bump_eq (addr : Nat) (s : State) : (bump addr s).eq = s.eq := rfl
@[simp] theorem bump_voc (addr : Nat) (s : State) : (bump addr s).voc = s.voc := rfl
@[simp] theorem bump_sor (addr : Nat) (s : State) : (bump addr s).sor = s.sor := rfl
@[simp] theorem bump_yar (addr : Nat) (s : State) : (bump addr s).yar = s.yar := rfl
@[simp] theorem bump_cf (addr : Nat) (s : State) : (bump addr s).cf = s.cf := rfl
@[simp] theorem bump_dill (addr : Nat) (s : State) : (bump addr s).dill = s.dill := rfl
@[simp] theorem bump_jtag (addr : Nat) (s : State) : (bump addr s).jtag = s.jtag := rfl
@[simp] theorem bump_free (addr : Nat) (s : State) : (bump addr s).free = s.free := rfl
@[simp] theorem bump_shadow (addr : Nat) (s : State) : (bump addr s).shadow = s.shadow := rfl
@[simp] theorem bump_pending (addr : Nat) (s : State) : (bump addr s).pending = s.pending := rfl

@[simp] theorem setPart_dev (p : HP) (v : Part) (s : State) : (setPart p v s).dev = s.dev := rfl
@[simp] theorem setPart_clk (p : HP) (v : Part) (s : State) : (setPart p v s).clk = s.clk := rfl
@[simp] theorem setPart_pop (p : HP) (v : Part) (s : State) : (setPart p v s).pop = s.pop := rfl
@[simp] theorem setPart_net (p : HP) (v : Part) (s : State) : (setPart p v s).net = s.net := rfl
@[simp] theorem setPart_ing (p : HP) (v : Part) (s : State) : (setPart p v s).ing = s.ing := rfl
@[simp] theorem setPart_aln (p : HP) (v : Part) (s : State) : (setPart p v s).aln = s.aln := rfl
@[simp] theorem setPart_osc (p : HP) (v : Part) (s : State) : (setPart p v s).osc = s.osc := rfl
@[simp] theorem setPart_isl (p : HP) (v : Part) (s : State) : (setPart p v s).isl = s.isl := rfl
@[simp] theorem setPart_alm (p : HP) (v : Part) (s : State) : (setPart p v s).alm = s.alm := rfl
@[simp] theorem setPart_cap (p : HP) (v : Part) (s : State) : (setPart p v s).cap = s.cap := rfl
@[simp] theorem setPart_sage (p : HP) (v : Part) (s : State) : (setPart p v s).sage = s.sage := rfl
@[simp] theorem setPart_eq (p : HP) (v : Part) (s : State) : (setPart p v s).eq = s.eq := rfl
@[simp] theorem setPart_voc (p : HP) (v : Part) (s : State) : (setPart p v s).voc = s.voc := rfl
@[simp] theorem setPart_sor (p : HP) (v : Part) (s : State) : (setPart p v s).sor = s.sor := rfl
@[simp] theorem setPart_yar (p : HP) (v : Part) (s : State) : (setPart p v s).yar = s.yar := rfl
@[simp] theorem setPart_cf (p : HP) (v : Part) (s : State) : (setPart p v s).cf = s.cf := rfl
@[simp] theorem setPart_dill (p : HP) (v : Part) (s : State) : (setPart p v s).dill = s.dill := rfl
@[simp] theorem setPart_jtag (p : HP) (v : Part) (s : State) : (setPart p v s).jtag = s.jtag := rfl
@[simp] theorem setPart_cnt (p : HP) (v : Part) (s : State) : (setPart p v s).cnt = s.cnt := rfl
@[simp] theorem setPart_free (p : HP) (v : Part) (s : State) : (setPart p v s).free = s.free := rfl
@[simp] theorem setPart_shadow (p : HP) (v : Part) (s : State) : (setPart p v s).shadow = s.shadow := rfl
@[simp] theorem setPart_pending (p : HP) (v : Part) (s : State) : (setPart p v s).pending = s.pending := rfl

@[simp] theorem modPart_dev (p : HP) (f : Part → Part) (s : State) : (modPart p f s).dev = s.dev := rfl
@[simp] theorem modPart_clk (p : HP) (f : Part → Part) (s : State) : (modPart p f s).clk = s.clk := rfl
@[simp] theorem modPart_pop (p : HP) (f : Part → Part) (s : State) : (modPart p f s).pop = s.pop := rfl
@[simp] theorem modPart_net (p : HP) (f : Part → Part) (s : State) : (modPart p f s).net = s.net := rfl
@[simp] theorem modPart_ing (p : HP) (f : Part → Part) (s : State) : (modPart p f s).ing = s.ing := rfl
@[simp] theorem modPart_aln (p : HP) (f : Part → Part) (s : State) : (modPart p f s).aln = s.aln := rfl
@[simp] theorem modPart_osc (p : HP) (f : Part → Part) (s : State) : (modPart p f s).osc = s.osc := rfl
@[simp] theorem modPart_isl (p : HP) (f : Part → Part) (s : State) : (modPart p f s).isl = s.isl := rfl
@[simp] theorem modPart_alm (p : HP) (f : Part → Part) (s : State) : (modPart p f s).alm = s.alm := rfl
@[simp] theorem modPart_cap (p : HP) (f : Part → Part) (s : State) : (modPart p f s).cap = s.cap := rfl
@[simp] theorem modPart_sage (p : HP) (f : Part → Part) (s : State) : (modPart p f s).sage = s.sage := rfl
@[simp] theorem modPart_eq (p : HP) (f : Part → Part) (s : State) : (modPart p f s).eq = s.eq := rfl
@[simp] theorem modPart_voc (p : HP) (f : Part → Part) (s : State) : (modPart p f s).voc = s.voc := rfl
@[simp] theorem modPart_sor (p : HP) (f : Part → Part) (s : State) : (modPart p f s).sor = s.sor := rfl
@[simp] theorem modPart_yar (p : HP) (f : Part → Part) (s : State) : (modPart p f s).yar = s.yar := rfl
@[simp] theorem modPart_cf (p : HP) (f : Part → Part) (s : State) : (modPart p f s).cf = s.cf := rfl
@[simp] theorem modPart_dill (p : HP) (f : Part → Part) (s : State) : (modPart p f s).dill = s.dill := rfl
@[simp] theorem modPart_jtag (p : HP) (f : Part → Part) (s : State) : (modPart p f s).jtag = s.jtag := rfl
@[simp] theorem modPart_cnt (p : HP) (f : Part → Part) (s : State) : (modPart p f s).cnt = s.cnt := rfl
@[simp] theorem modPart_free (p : HP) (f : Part → Part) (s : State) : (modPart p f s).free = s.free := rfl
@[simp] theorem modPart_shadow (p : HP) (f : Part → Part) (s : State) : (modPart p f s).shadow = s.shadow := rfl
@[simp] theorem modPart_pending (p : HP) (f : Part → Part) (s : State) : (modPart p f s).pending = s.pending := rfl

@[simp] theorem msix_dev (p : HP) (v : Nat) (s : State) : (msix p v s).dev = s.dev := rfl
@[simp] theorem msix_clk (p : HP) (v : Nat) (s : State) : (msix p v s).clk = s.clk := rfl
@[simp] theorem msix_pop (p : HP) (v : Nat) (s : State) : (msix p v s).pop = s.pop := rfl
@[simp] theorem msix_net (p : HP) (v : Nat) (s : State) : (msix p v s).net = s.net := rfl
@[simp] theorem msix_ing (p : HP) (v : Nat) (s : State) : (msix p v s).ing = s.ing := rfl
@[simp] theorem msix_aln (p : HP) (v : Nat) (s : State) : (msix p v s).aln = s.aln := rfl
@[simp] theorem msix_osc (p : HP) (v : Nat) (s : State) : (msix p v s).osc = s.osc := rfl
@[simp] theorem msix_isl (p : HP) (v : Nat) (s : State) : (msix p v s).isl = s.isl := rfl
@[simp] theorem msix_alm (p : HP) (v : Nat) (s : State) : (msix p v s).alm = s.alm := rfl
@[simp] theorem msix_cap (p : HP) (v : Nat) (s : State) : (msix p v s).cap = s.cap := rfl
@[simp] theorem msix_sage (p : HP) (v : Nat) (s : State) : (msix p v s).sage = s.sage := rfl
@[simp] theorem msix_eq (p : HP) (v : Nat) (s : State) : (msix p v s).eq = s.eq := rfl
@[simp] theorem msix_voc (p : HP) (v : Nat) (s : State) : (msix p v s).voc = s.voc := rfl
@[simp] theorem msix_sor (p : HP) (v : Nat) (s : State) : (msix p v s).sor = s.sor := rfl
@[simp] theorem msix_yar (p : HP) (v : Nat) (s : State) : (msix p v s).yar = s.yar := rfl
@[simp] theorem msix_cf (p : HP) (v : Nat) (s : State) : (msix p v s).cf = s.cf := rfl
@[simp] theorem msix_dill (p : HP) (v : Nat) (s : State) : (msix p v s).dill = s.dill := rfl
@[simp] theorem msix_jtag (p : HP) (v : Nat) (s : State) : (msix p v s).jtag = s.jtag := rfl
@[simp] theorem msix_cnt (p : HP) (v : Nat) (s : State) : (msix p v s).cnt = s.cnt := rfl
@[simp] theorem msix_free (p : HP) (v : Nat) (s : State) : (msix p v s).free = s.free := rfl
@[simp] theorem msix_shadow (p : HP) (v : Nat) (s : State) : (msix p v s).shadow = s.shadow := rfl
@[simp] theorem msix_pending (p : HP) (v : Nat) (s : State) : (msix p v s).pending = s.pending := rfl

@[simp] theorem setBucket_dev (code : Nat) (k : Bucket) (s : State) : (setBucket code k s).dev = s.dev := rfl
@[simp] theorem setBucket_clk (code : Nat) (k : Bucket) (s : State) : (setBucket code k s).clk = s.clk := rfl
@[simp] theorem setBucket_host (code : Nat) (k : Bucket) (s : State) : (setBucket code k s).host = s.host := rfl
@[simp] theorem setBucket_net (code : Nat) (k : Bucket) (s : State) : (setBucket code k s).net = s.net := rfl
@[simp] theorem setBucket_ing (code : Nat) (k : Bucket) (s : State) : (setBucket code k s).ing = s.ing := rfl
@[simp] theorem setBucket_aln (code : Nat) (k : Bucket) (s : State) : (setBucket code k s).aln = s.aln := rfl
@[simp] theorem setBucket_osc (code : Nat) (k : Bucket) (s : State) : (setBucket code k s).osc = s.osc := rfl
@[simp] theorem setBucket_isl (code : Nat) (k : Bucket) (s : State) : (setBucket code k s).isl = s.isl := rfl
@[simp] theorem setBucket_alm (code : Nat) (k : Bucket) (s : State) : (setBucket code k s).alm = s.alm := rfl
@[simp] theorem setBucket_cap (code : Nat) (k : Bucket) (s : State) : (setBucket code k s).cap = s.cap := rfl
@[simp] theorem setBucket_sage (code : Nat) (k : Bucket) (s : State) : (setBucket code k s).sage = s.sage := rfl
@[simp] theorem setBucket_eq (code : Nat) (k : Bucket) (s : State) : (setBucket code k s).eq = s.eq := rfl
@[simp] theorem setBucket_voc (code : Nat) (k : Bucket) (s : State) : (setBucket code k s).voc = s.voc := rfl
@[simp] theorem setBucket_sor (code : Nat) (k : Bucket) (s : State) : (setBucket code k s).sor = s.sor := rfl
@[simp] theorem setBucket_yar (code : Nat) (k : Bucket) (s : State) : (setBucket code k s).yar = s.yar := rfl
@[simp] theorem setBucket_cf (code : Nat) (k : Bucket) (s : State) : (setBucket code k s).cf = s.cf := rfl
@[simp] theorem setBucket_dill (code : Nat) (k : Bucket) (s : State) : (setBucket code k s).dill = s.dill := rfl
@[simp] theorem setBucket_jtag (code : Nat) (k : Bucket) (s : State) : (setBucket code k s).jtag = s.jtag := rfl
@[simp] theorem setBucket_cnt (code : Nat) (k : Bucket) (s : State) : (setBucket code k s).cnt = s.cnt := rfl
@[simp] theorem setBucket_free (code : Nat) (k : Bucket) (s : State) : (setBucket code k s).free = s.free := rfl
@[simp] theorem setBucket_shadow (code : Nat) (k : Bucket) (s : State) : (setBucket code k s).shadow = s.shadow := rfl
@[simp] theorem setBucket_pending (code : Nat) (k : Bucket) (s : State) : (setBucket code k s).pending = s.pending := rfl

@[simp] theorem setRing_dev (p : HP) (n : Nat) (r : Ring) (s : State) : (setRing p n r s).dev = s.dev := rfl
@[simp] theorem setRing_clk (p : HP) (n : Nat) (r : Ring) (s : State) : (setRing p n r s).clk = s.clk := rfl
@[simp] theorem setRing_pop (p : HP) (n : Nat) (r : Ring) (s : State) : (setRing p n r s).pop = s.pop := rfl
@[simp] theorem setRing_net (p : HP) (n : Nat) (r : Ring) (s : State) : (setRing p n r s).net = s.net := rfl
@[simp] theorem setRing_ing (p : HP) (n : Nat) (r : Ring) (s : State) : (setRing p n r s).ing = s.ing := rfl
@[simp] theorem setRing_aln (p : HP) (n : Nat) (r : Ring) (s : State) : (setRing p n r s).aln = s.aln := rfl
@[simp] theorem setRing_osc (p : HP) (n : Nat) (r : Ring) (s : State) : (setRing p n r s).osc = s.osc := rfl
@[simp] theorem setRing_isl (p : HP) (n : Nat) (r : Ring) (s : State) : (setRing p n r s).isl = s.isl := rfl
@[simp] theorem setRing_alm (p : HP) (n : Nat) (r : Ring) (s : State) : (setRing p n r s).alm = s.alm := rfl
@[simp] theorem setRing_cap (p : HP) (n : Nat) (r : Ring) (s : State) : (setRing p n r s).cap = s.cap := rfl
@[simp] theorem setRing_sage (p : HP) (n : Nat) (r : Ring) (s : State) : (setRing p n r s).sage = s.sage := rfl
@[simp] theorem setRing_eq (p : HP) (n : Nat) (r : Ring) (s : State) : (setRing p n r s).eq = s.eq := rfl
@[simp] theorem setRing_voc (p : HP) (n : Nat) (r : Ring) (s : State) : (setRing p n r s).voc = s.voc := rfl
@[simp] theorem setRing_sor (p : HP) (n : Nat) (r : Ring) (s : State) : (setRing p n r s).sor = s.sor := rfl
@[simp] theorem setRing_yar (p : HP) (n : Nat) (r : Ring) (s : State) : (setRing p n r s).yar = s.yar := rfl
@[simp] theorem setRing_cf (p : HP) (n : Nat) (r : Ring) (s : State) : (setRing p n r s).cf = s.cf := rfl
@[simp] theorem setRing_dill (p : HP) (n : Nat) (r : Ring) (s : State) : (setRing p n r s).dill = s.dill := rfl
@[simp] theorem setRing_jtag (p : HP) (n : Nat) (r : Ring) (s : State) : (setRing p n r s).jtag = s.jtag := rfl
@[simp] theorem setRing_cnt (p : HP) (n : Nat) (r : Ring) (s : State) : (setRing p n r s).cnt = s.cnt := rfl
@[simp] theorem setRing_free (p : HP) (n : Nat) (r : Ring) (s : State) : (setRing p n r s).free = s.free := rfl
@[simp] theorem setRing_shadow (p : HP) (n : Nat) (r : Ring) (s : State) : (setRing p n r s).shadow = s.shadow := rfl
@[simp] theorem setRing_pending (p : HP) (n : Nat) (r : Ring) (s : State) : (setRing p n r s).pending = s.pending := rfl

@[simp] theorem setCore_dev (n : Nat) (c : Core) (s : State) : (setCore n c s).dev = s.dev := rfl
@[simp] theorem setCore_clk (n : Nat) (c : Core) (s : State) : (setCore n c s).clk = s.clk := rfl
@[simp] theorem setCore_host (n : Nat) (c : Core) (s : State) : (setCore n c s).host = s.host := rfl
@[simp] theorem setCore_pop (n : Nat) (c : Core) (s : State) : (setCore n c s).pop = s.pop := rfl
@[simp] theorem setCore_net (n : Nat) (c : Core) (s : State) : (setCore n c s).net = s.net := rfl
@[simp] theorem setCore_ing (n : Nat) (c : Core) (s : State) : (setCore n c s).ing = s.ing := rfl
@[simp] theorem setCore_aln (n : Nat) (c : Core) (s : State) : (setCore n c s).aln = s.aln := rfl
@[simp] theorem setCore_osc (n : Nat) (c : Core) (s : State) : (setCore n c s).osc = s.osc := rfl
@[simp] theorem setCore_isl (n : Nat) (c : Core) (s : State) : (setCore n c s).isl = s.isl := rfl
@[simp] theorem setCore_alm (n : Nat) (c : Core) (s : State) : (setCore n c s).alm = s.alm := rfl
@[simp] theorem setCore_cap (n : Nat) (c : Core) (s : State) : (setCore n c s).cap = s.cap := rfl
@[simp] theorem setCore_sage (n : Nat) (c : Core) (s : State) : (setCore n c s).sage = s.sage := rfl
@[simp] theorem setCore_eq (n : Nat) (c : Core) (s : State) : (setCore n c s).eq = s.eq := rfl
@[simp] theorem setCore_voc (n : Nat) (c : Core) (s : State) : (setCore n c s).voc = s.voc := rfl
@[simp] theorem setCore_yar (n : Nat) (c : Core) (s : State) : (setCore n c s).yar = s.yar := rfl
@[simp] theorem setCore_cf (n : Nat) (c : Core) (s : State) : (setCore n c s).cf = s.cf := rfl
@[simp] theorem setCore_dill (n : Nat) (c : Core) (s : State) : (setCore n c s).dill = s.dill := rfl
@[simp] theorem setCore_jtag (n : Nat) (c : Core) (s : State) : (setCore n c s).jtag = s.jtag := rfl
@[simp] theorem setCore_cnt (n : Nat) (c : Core) (s : State) : (setCore n c s).cnt = s.cnt := rfl
@[simp] theorem setCore_free (n : Nat) (c : Core) (s : State) : (setCore n c s).free = s.free := rfl
@[simp] theorem setCore_shadow (n : Nat) (c : Core) (s : State) : (setCore n c s).shadow = s.shadow := rfl
@[simp] theorem setCore_pending (n : Nat) (c : Core) (s : State) : (setCore n c s).pending = s.pending := rfl

@[simp] theorem setSram_dev (cl : Nat) (r : Ram) (s : State) : (setSram cl r s).dev = s.dev := rfl
@[simp] theorem setSram_clk (cl : Nat) (r : Ram) (s : State) : (setSram cl r s).clk = s.clk := rfl
@[simp] theorem setSram_host (cl : Nat) (r : Ram) (s : State) : (setSram cl r s).host = s.host := rfl
@[simp] theorem setSram_pop (cl : Nat) (r : Ram) (s : State) : (setSram cl r s).pop = s.pop := rfl
@[simp] theorem setSram_net (cl : Nat) (r : Ram) (s : State) : (setSram cl r s).net = s.net := rfl
@[simp] theorem setSram_ing (cl : Nat) (r : Ram) (s : State) : (setSram cl r s).ing = s.ing := rfl
@[simp] theorem setSram_aln (cl : Nat) (r : Ram) (s : State) : (setSram cl r s).aln = s.aln := rfl
@[simp] theorem setSram_osc (cl : Nat) (r : Ram) (s : State) : (setSram cl r s).osc = s.osc := rfl
@[simp] theorem setSram_isl (cl : Nat) (r : Ram) (s : State) : (setSram cl r s).isl = s.isl := rfl
@[simp] theorem setSram_alm (cl : Nat) (r : Ram) (s : State) : (setSram cl r s).alm = s.alm := rfl
@[simp] theorem setSram_cap (cl : Nat) (r : Ram) (s : State) : (setSram cl r s).cap = s.cap := rfl
@[simp] theorem setSram_sage (cl : Nat) (r : Ram) (s : State) : (setSram cl r s).sage = s.sage := rfl
@[simp] theorem setSram_eq (cl : Nat) (r : Ram) (s : State) : (setSram cl r s).eq = s.eq := rfl
@[simp] theorem setSram_voc (cl : Nat) (r : Ram) (s : State) : (setSram cl r s).voc = s.voc := rfl
@[simp] theorem setSram_yar (cl : Nat) (r : Ram) (s : State) : (setSram cl r s).yar = s.yar := rfl
@[simp] theorem setSram_cf (cl : Nat) (r : Ram) (s : State) : (setSram cl r s).cf = s.cf := rfl
@[simp] theorem setSram_dill (cl : Nat) (r : Ram) (s : State) : (setSram cl r s).dill = s.dill := rfl
@[simp] theorem setSram_jtag (cl : Nat) (r : Ram) (s : State) : (setSram cl r s).jtag = s.jtag := rfl
@[simp] theorem setSram_cnt (cl : Nat) (r : Ram) (s : State) : (setSram cl r s).cnt = s.cnt := rfl
@[simp] theorem setSram_free (cl : Nat) (r : Ram) (s : State) : (setSram cl r s).free = s.free := rfl
@[simp] theorem setSram_shadow (cl : Nat) (r : Ram) (s : State) : (setSram cl r s).shadow = s.shadow := rfl
@[simp] theorem setSram_pending (cl : Nat) (r : Ram) (s : State) : (setSram cl r s).pending = s.pending := rfl

@[simp] theorem setTask_dev (t : Nat) (v : Task) (s : State) : (setTask t v s).dev = s.dev := rfl
@[simp] theorem setTask_clk (t : Nat) (v : Task) (s : State) : (setTask t v s).clk = s.clk := rfl
@[simp] theorem setTask_host (t : Nat) (v : Task) (s : State) : (setTask t v s).host = s.host := rfl
@[simp] theorem setTask_pop (t : Nat) (v : Task) (s : State) : (setTask t v s).pop = s.pop := rfl
@[simp] theorem setTask_net (t : Nat) (v : Task) (s : State) : (setTask t v s).net = s.net := rfl
@[simp] theorem setTask_ing (t : Nat) (v : Task) (s : State) : (setTask t v s).ing = s.ing := rfl
@[simp] theorem setTask_aln (t : Nat) (v : Task) (s : State) : (setTask t v s).aln = s.aln := rfl
@[simp] theorem setTask_osc (t : Nat) (v : Task) (s : State) : (setTask t v s).osc = s.osc := rfl
@[simp] theorem setTask_isl (t : Nat) (v : Task) (s : State) : (setTask t v s).isl = s.isl := rfl
@[simp] theorem setTask_alm (t : Nat) (v : Task) (s : State) : (setTask t v s).alm = s.alm := rfl
@[simp] theorem setTask_cap (t : Nat) (v : Task) (s : State) : (setTask t v s).cap = s.cap := rfl
@[simp] theorem setTask_sage (t : Nat) (v : Task) (s : State) : (setTask t v s).sage = s.sage := rfl
@[simp] theorem setTask_eq (t : Nat) (v : Task) (s : State) : (setTask t v s).eq = s.eq := rfl
@[simp] theorem setTask_voc (t : Nat) (v : Task) (s : State) : (setTask t v s).voc = s.voc := rfl
@[simp] theorem setTask_sor (t : Nat) (v : Task) (s : State) : (setTask t v s).sor = s.sor := rfl
@[simp] theorem setTask_cf (t : Nat) (v : Task) (s : State) : (setTask t v s).cf = s.cf := rfl
@[simp] theorem setTask_dill (t : Nat) (v : Task) (s : State) : (setTask t v s).dill = s.dill := rfl
@[simp] theorem setTask_jtag (t : Nat) (v : Task) (s : State) : (setTask t v s).jtag = s.jtag := rfl
@[simp] theorem setTask_cnt (t : Nat) (v : Task) (s : State) : (setTask t v s).cnt = s.cnt := rfl
@[simp] theorem setTask_free (t : Nat) (v : Task) (s : State) : (setTask t v s).free = s.free := rfl
@[simp] theorem setTask_shadow (t : Nat) (v : Task) (s : State) : (setTask t v s).shadow = s.shadow := rfl
@[simp] theorem setTask_pending (t : Nat) (v : Task) (s : State) : (setTask t v s).pending = s.pending := rfl

@[simp] theorem modTask_dev (t : Nat) (f : Task → Task) (s : State) : (modTask t f s).dev = s.dev := rfl
@[simp] theorem modTask_clk (t : Nat) (f : Task → Task) (s : State) : (modTask t f s).clk = s.clk := rfl
@[simp] theorem modTask_host (t : Nat) (f : Task → Task) (s : State) : (modTask t f s).host = s.host := rfl
@[simp] theorem modTask_pop (t : Nat) (f : Task → Task) (s : State) : (modTask t f s).pop = s.pop := rfl
@[simp] theorem modTask_net (t : Nat) (f : Task → Task) (s : State) : (modTask t f s).net = s.net := rfl
@[simp] theorem modTask_ing (t : Nat) (f : Task → Task) (s : State) : (modTask t f s).ing = s.ing := rfl
@[simp] theorem modTask_aln (t : Nat) (f : Task → Task) (s : State) : (modTask t f s).aln = s.aln := rfl
@[simp] theorem modTask_osc (t : Nat) (f : Task → Task) (s : State) : (modTask t f s).osc = s.osc := rfl
@[simp] theorem modTask_isl (t : Nat) (f : Task → Task) (s : State) : (modTask t f s).isl = s.isl := rfl
@[simp] theorem modTask_alm (t : Nat) (f : Task → Task) (s : State) : (modTask t f s).alm = s.alm := rfl
@[simp] theorem modTask_cap (t : Nat) (f : Task → Task) (s : State) : (modTask t f s).cap = s.cap := rfl
@[simp] theorem modTask_sage (t : Nat) (f : Task → Task) (s : State) : (modTask t f s).sage = s.sage := rfl
@[simp] theorem modTask_eq (t : Nat) (f : Task → Task) (s : State) : (modTask t f s).eq = s.eq := rfl
@[simp] theorem modTask_voc (t : Nat) (f : Task → Task) (s : State) : (modTask t f s).voc = s.voc := rfl
@[simp] theorem modTask_sor (t : Nat) (f : Task → Task) (s : State) : (modTask t f s).sor = s.sor := rfl
@[simp] theorem modTask_cf (t : Nat) (f : Task → Task) (s : State) : (modTask t f s).cf = s.cf := rfl
@[simp] theorem modTask_dill (t : Nat) (f : Task → Task) (s : State) : (modTask t f s).dill = s.dill := rfl
@[simp] theorem modTask_jtag (t : Nat) (f : Task → Task) (s : State) : (modTask t f s).jtag = s.jtag := rfl
@[simp] theorem modTask_cnt (t : Nat) (f : Task → Task) (s : State) : (modTask t f s).cnt = s.cnt := rfl
@[simp] theorem modTask_free (t : Nat) (f : Task → Task) (s : State) : (modTask t f s).free = s.free := rfl
@[simp] theorem modTask_shadow (t : Nat) (f : Task → Task) (s : State) : (modTask t f s).shadow = s.shadow := rfl
@[simp] theorem modTask_pending (t : Nat) (f : Task → Task) (s : State) : (modTask t f s).pending = s.pending := rfl

@[simp] theorem setQ_dev (cl cls : Nat) (q : RdyQueue) (s : State) : (setQ cl cls q s).dev = s.dev := rfl
@[simp] theorem setQ_clk (cl cls : Nat) (q : RdyQueue) (s : State) : (setQ cl cls q s).clk = s.clk := rfl
@[simp] theorem setQ_host (cl cls : Nat) (q : RdyQueue) (s : State) : (setQ cl cls q s).host = s.host := rfl
@[simp] theorem setQ_pop (cl cls : Nat) (q : RdyQueue) (s : State) : (setQ cl cls q s).pop = s.pop := rfl
@[simp] theorem setQ_net (cl cls : Nat) (q : RdyQueue) (s : State) : (setQ cl cls q s).net = s.net := rfl
@[simp] theorem setQ_ing (cl cls : Nat) (q : RdyQueue) (s : State) : (setQ cl cls q s).ing = s.ing := rfl
@[simp] theorem setQ_aln (cl cls : Nat) (q : RdyQueue) (s : State) : (setQ cl cls q s).aln = s.aln := rfl
@[simp] theorem setQ_osc (cl cls : Nat) (q : RdyQueue) (s : State) : (setQ cl cls q s).osc = s.osc := rfl
@[simp] theorem setQ_isl (cl cls : Nat) (q : RdyQueue) (s : State) : (setQ cl cls q s).isl = s.isl := rfl
@[simp] theorem setQ_alm (cl cls : Nat) (q : RdyQueue) (s : State) : (setQ cl cls q s).alm = s.alm := rfl
@[simp] theorem setQ_cap (cl cls : Nat) (q : RdyQueue) (s : State) : (setQ cl cls q s).cap = s.cap := rfl
@[simp] theorem setQ_sage (cl cls : Nat) (q : RdyQueue) (s : State) : (setQ cl cls q s).sage = s.sage := rfl
@[simp] theorem setQ_eq (cl cls : Nat) (q : RdyQueue) (s : State) : (setQ cl cls q s).eq = s.eq := rfl
@[simp] theorem setQ_voc (cl cls : Nat) (q : RdyQueue) (s : State) : (setQ cl cls q s).voc = s.voc := rfl
@[simp] theorem setQ_sor (cl cls : Nat) (q : RdyQueue) (s : State) : (setQ cl cls q s).sor = s.sor := rfl
@[simp] theorem setQ_cf (cl cls : Nat) (q : RdyQueue) (s : State) : (setQ cl cls q s).cf = s.cf := rfl
@[simp] theorem setQ_dill (cl cls : Nat) (q : RdyQueue) (s : State) : (setQ cl cls q s).dill = s.dill := rfl
@[simp] theorem setQ_jtag (cl cls : Nat) (q : RdyQueue) (s : State) : (setQ cl cls q s).jtag = s.jtag := rfl
@[simp] theorem setQ_cnt (cl cls : Nat) (q : RdyQueue) (s : State) : (setQ cl cls q s).cnt = s.cnt := rfl
@[simp] theorem setQ_free (cl cls : Nat) (q : RdyQueue) (s : State) : (setQ cl cls q s).free = s.free := rfl
@[simp] theorem setQ_shadow (cl cls : Nat) (q : RdyQueue) (s : State) : (setQ cl cls q s).shadow = s.shadow := rfl
@[simp] theorem setQ_pending (cl cls : Nat) (q : RdyQueue) (s : State) : (setQ cl cls q s).pending = s.pending := rfl

@[simp] theorem setProd_dev (id : Nat) (v : Producer) (s : State) : (setProd id v s).dev = s.dev := rfl
@[simp] theorem setProd_clk (id : Nat) (v : Producer) (s : State) : (setProd id v s).clk = s.clk := rfl
@[simp] theorem setProd_host (id : Nat) (v : Producer) (s : State) : (setProd id v s).host = s.host := rfl
@[simp] theorem setProd_pop (id : Nat) (v : Producer) (s : State) : (setProd id v s).pop = s.pop := rfl
@[simp] theorem setProd_net (id : Nat) (v : Producer) (s : State) : (setProd id v s).net = s.net := rfl
@[simp] theorem setProd_ing (id : Nat) (v : Producer) (s : State) : (setProd id v s).ing = s.ing := rfl
@[simp] theorem setProd_aln (id : Nat) (v : Producer) (s : State) : (setProd id v s).aln = s.aln := rfl
@[simp] theorem setProd_osc (id : Nat) (v : Producer) (s : State) : (setProd id v s).osc = s.osc := rfl
@[simp] theorem setProd_isl (id : Nat) (v : Producer) (s : State) : (setProd id v s).isl = s.isl := rfl
@[simp] theorem setProd_alm (id : Nat) (v : Producer) (s : State) : (setProd id v s).alm = s.alm := rfl
@[simp] theorem setProd_cap (id : Nat) (v : Producer) (s : State) : (setProd id v s).cap = s.cap := rfl
@[simp] theorem setProd_sage (id : Nat) (v : Producer) (s : State) : (setProd id v s).sage = s.sage := rfl
@[simp] theorem setProd_eq (id : Nat) (v : Producer) (s : State) : (setProd id v s).eq = s.eq := rfl
@[simp] theorem setProd_voc (id : Nat) (v : Producer) (s : State) : (setProd id v s).voc = s.voc := rfl
@[simp] theorem setProd_sor (id : Nat) (v : Producer) (s : State) : (setProd id v s).sor = s.sor := rfl
@[simp] theorem setProd_cf (id : Nat) (v : Producer) (s : State) : (setProd id v s).cf = s.cf := rfl
@[simp] theorem setProd_dill (id : Nat) (v : Producer) (s : State) : (setProd id v s).dill = s.dill := rfl
@[simp] theorem setProd_jtag (id : Nat) (v : Producer) (s : State) : (setProd id v s).jtag = s.jtag := rfl
@[simp] theorem setProd_cnt (id : Nat) (v : Producer) (s : State) : (setProd id v s).cnt = s.cnt := rfl
@[simp] theorem setProd_free (id : Nat) (v : Producer) (s : State) : (setProd id v s).free = s.free := rfl
@[simp] theorem setProd_shadow (id : Nat) (v : Producer) (s : State) : (setProd id v s).shadow = s.shadow := rfl
@[simp] theorem setProd_pending (id : Nat) (v : Producer) (s : State) : (setProd id v s).pending = s.pending := rfl

@[simp] theorem setKern_dev (k : Nat) (v : Kern) (s : State) : (setKern k v s).dev = s.dev := rfl
@[simp] theorem setKern_clk (k : Nat) (v : Kern) (s : State) : (setKern k v s).clk = s.clk := rfl
@[simp] theorem setKern_host (k : Nat) (v : Kern) (s : State) : (setKern k v s).host = s.host := rfl
@[simp] theorem setKern_pop (k : Nat) (v : Kern) (s : State) : (setKern k v s).pop = s.pop := rfl
@[simp] theorem setKern_net (k : Nat) (v : Kern) (s : State) : (setKern k v s).net = s.net := rfl
@[simp] theorem setKern_ing (k : Nat) (v : Kern) (s : State) : (setKern k v s).ing = s.ing := rfl
@[simp] theorem setKern_aln (k : Nat) (v : Kern) (s : State) : (setKern k v s).aln = s.aln := rfl
@[simp] theorem setKern_osc (k : Nat) (v : Kern) (s : State) : (setKern k v s).osc = s.osc := rfl
@[simp] theorem setKern_isl (k : Nat) (v : Kern) (s : State) : (setKern k v s).isl = s.isl := rfl
@[simp] theorem setKern_alm (k : Nat) (v : Kern) (s : State) : (setKern k v s).alm = s.alm := rfl
@[simp] theorem setKern_cap (k : Nat) (v : Kern) (s : State) : (setKern k v s).cap = s.cap := rfl
@[simp] theorem setKern_sage (k : Nat) (v : Kern) (s : State) : (setKern k v s).sage = s.sage := rfl
@[simp] theorem setKern_eq (k : Nat) (v : Kern) (s : State) : (setKern k v s).eq = s.eq := rfl
@[simp] theorem setKern_voc (k : Nat) (v : Kern) (s : State) : (setKern k v s).voc = s.voc := rfl
@[simp] theorem setKern_yar (k : Nat) (v : Kern) (s : State) : (setKern k v s).yar = s.yar := rfl
@[simp] theorem setKern_cf (k : Nat) (v : Kern) (s : State) : (setKern k v s).cf = s.cf := rfl
@[simp] theorem setKern_dill (k : Nat) (v : Kern) (s : State) : (setKern k v s).dill = s.dill := rfl
@[simp] theorem setKern_jtag (k : Nat) (v : Kern) (s : State) : (setKern k v s).jtag = s.jtag := rfl
@[simp] theorem setKern_cnt (k : Nat) (v : Kern) (s : State) : (setKern k v s).cnt = s.cnt := rfl
@[simp] theorem setKern_free (k : Nat) (v : Kern) (s : State) : (setKern k v s).free = s.free := rfl
@[simp] theorem setKern_shadow (k : Nat) (v : Kern) (s : State) : (setKern k v s).shadow = s.shadow := rfl
@[simp] theorem setKern_pending (k : Nat) (v : Kern) (s : State) : (setKern k v s).pending = s.pending := rfl

@[simp] theorem modKern_dev (k : Nat) (f : Kern → Kern) (s : State) : (modKern k f s).dev = s.dev := rfl
@[simp] theorem modKern_clk (k : Nat) (f : Kern → Kern) (s : State) : (modKern k f s).clk = s.clk := rfl
@[simp] theorem modKern_host (k : Nat) (f : Kern → Kern) (s : State) : (modKern k f s).host = s.host := rfl
@[simp] theorem modKern_pop (k : Nat) (f : Kern → Kern) (s : State) : (modKern k f s).pop = s.pop := rfl
@[simp] theorem modKern_net (k : Nat) (f : Kern → Kern) (s : State) : (modKern k f s).net = s.net := rfl
@[simp] theorem modKern_ing (k : Nat) (f : Kern → Kern) (s : State) : (modKern k f s).ing = s.ing := rfl
@[simp] theorem modKern_aln (k : Nat) (f : Kern → Kern) (s : State) : (modKern k f s).aln = s.aln := rfl
@[simp] theorem modKern_osc (k : Nat) (f : Kern → Kern) (s : State) : (modKern k f s).osc = s.osc := rfl
@[simp] theorem modKern_isl (k : Nat) (f : Kern → Kern) (s : State) : (modKern k f s).isl = s.isl := rfl
@[simp] theorem modKern_alm (k : Nat) (f : Kern → Kern) (s : State) : (modKern k f s).alm = s.alm := rfl
@[simp] theorem modKern_cap (k : Nat) (f : Kern → Kern) (s : State) : (modKern k f s).cap = s.cap := rfl
@[simp] theorem modKern_sage (k : Nat) (f : Kern → Kern) (s : State) : (modKern k f s).sage = s.sage := rfl
@[simp] theorem modKern_eq (k : Nat) (f : Kern → Kern) (s : State) : (modKern k f s).eq = s.eq := rfl
@[simp] theorem modKern_voc (k : Nat) (f : Kern → Kern) (s : State) : (modKern k f s).voc = s.voc := rfl
@[simp] theorem modKern_yar (k : Nat) (f : Kern → Kern) (s : State) : (modKern k f s).yar = s.yar := rfl
@[simp] theorem modKern_cf (k : Nat) (f : Kern → Kern) (s : State) : (modKern k f s).cf = s.cf := rfl
@[simp] theorem modKern_dill (k : Nat) (f : Kern → Kern) (s : State) : (modKern k f s).dill = s.dill := rfl
@[simp] theorem modKern_jtag (k : Nat) (f : Kern → Kern) (s : State) : (modKern k f s).jtag = s.jtag := rfl
@[simp] theorem modKern_cnt (k : Nat) (f : Kern → Kern) (s : State) : (modKern k f s).cnt = s.cnt := rfl
@[simp] theorem modKern_free (k : Nat) (f : Kern → Kern) (s : State) : (modKern k f s).free = s.free := rfl
@[simp] theorem modKern_shadow (k : Nat) (f : Kern → Kern) (s : State) : (modKern k f s).shadow = s.shadow := rfl
@[simp] theorem modKern_pending (k : Nat) (f : Kern → Kern) (s : State) : (modKern k f s).pending = s.pending := rfl

@[simp] theorem modBind_dev (k b : Nat) (f : KBind → KBind) (s : State) : (modBind k b f s).dev = s.dev := rfl
@[simp] theorem modBind_clk (k b : Nat) (f : KBind → KBind) (s : State) : (modBind k b f s).clk = s.clk := rfl
@[simp] theorem modBind_host (k b : Nat) (f : KBind → KBind) (s : State) : (modBind k b f s).host = s.host := rfl
@[simp] theorem modBind_pop (k b : Nat) (f : KBind → KBind) (s : State) : (modBind k b f s).pop = s.pop := rfl
@[simp] theorem modBind_net (k b : Nat) (f : KBind → KBind) (s : State) : (modBind k b f s).net = s.net := rfl
@[simp] theorem modBind_ing (k b : Nat) (f : KBind → KBind) (s : State) : (modBind k b f s).ing = s.ing := rfl
@[simp] theorem modBind_aln (k b : Nat) (f : KBind → KBind) (s : State) : (modBind k b f s).aln = s.aln := rfl
@[simp] theorem modBind_osc (k b : Nat) (f : KBind → KBind) (s : State) : (modBind k b f s).osc = s.osc := rfl
@[simp] theorem modBind_isl (k b : Nat) (f : KBind → KBind) (s : State) : (modBind k b f s).isl = s.isl := rfl
@[simp] theorem modBind_alm (k b : Nat) (f : KBind → KBind) (s : State) : (modBind k b f s).alm = s.alm := rfl
@[simp] theorem modBind_cap (k b : Nat) (f : KBind → KBind) (s : State) : (modBind k b f s).cap = s.cap := rfl
@[simp] theorem modBind_sage (k b : Nat) (f : KBind → KBind) (s : State) : (modBind k b f s).sage = s.sage := rfl
@[simp] theorem modBind_eq (k b : Nat) (f : KBind → KBind) (s : State) : (modBind k b f s).eq = s.eq := rfl
@[simp] theorem modBind_voc (k b : Nat) (f : KBind → KBind) (s : State) : (modBind k b f s).voc = s.voc := rfl
@[simp] theorem modBind_yar (k b : Nat) (f : KBind → KBind) (s : State) : (modBind k b f s).yar = s.yar := rfl
@[simp] theorem modBind_cf (k b : Nat) (f : KBind → KBind) (s : State) : (modBind k b f s).cf = s.cf := rfl
@[simp] theorem modBind_dill (k b : Nat) (f : KBind → KBind) (s : State) : (modBind k b f s).dill = s.dill := rfl
@[simp] theorem modBind_jtag (k b : Nat) (f : KBind → KBind) (s : State) : (modBind k b f s).jtag = s.jtag := rfl
@[simp] theorem modBind_cnt (k b : Nat) (f : KBind → KBind) (s : State) : (modBind k b f s).cnt = s.cnt := rfl
@[simp] theorem modBind_free (k b : Nat) (f : KBind → KBind) (s : State) : (modBind k b f s).free = s.free := rfl
@[simp] theorem modBind_shadow (k b : Nat) (f : KBind → KBind) (s : State) : (modBind k b f s).shadow = s.shadow := rfl
@[simp] theorem modBind_pending (k b : Nat) (f : KBind → KBind) (s : State) : (modBind k b f s).pending = s.pending := rfl

@[simp] theorem setPort_dev (k : Nat) (p : Port) (s : State) : (setPort k p s).dev = s.dev := rfl
@[simp] theorem setPort_clk (k : Nat) (p : Port) (s : State) : (setPort k p s).clk = s.clk := rfl
@[simp] theorem setPort_host (k : Nat) (p : Port) (s : State) : (setPort k p s).host = s.host := rfl
@[simp] theorem setPort_pop (k : Nat) (p : Port) (s : State) : (setPort k p s).pop = s.pop := rfl
@[simp] theorem setPort_ing (k : Nat) (p : Port) (s : State) : (setPort k p s).ing = s.ing := rfl
@[simp] theorem setPort_aln (k : Nat) (p : Port) (s : State) : (setPort k p s).aln = s.aln := rfl
@[simp] theorem setPort_osc (k : Nat) (p : Port) (s : State) : (setPort k p s).osc = s.osc := rfl
@[simp] theorem setPort_isl (k : Nat) (p : Port) (s : State) : (setPort k p s).isl = s.isl := rfl
@[simp] theorem setPort_alm (k : Nat) (p : Port) (s : State) : (setPort k p s).alm = s.alm := rfl
@[simp] theorem setPort_cap (k : Nat) (p : Port) (s : State) : (setPort k p s).cap = s.cap := rfl
@[simp] theorem setPort_sage (k : Nat) (p : Port) (s : State) : (setPort k p s).sage = s.sage := rfl
@[simp] theorem setPort_eq (k : Nat) (p : Port) (s : State) : (setPort k p s).eq = s.eq := rfl
@[simp] theorem setPort_voc (k : Nat) (p : Port) (s : State) : (setPort k p s).voc = s.voc := rfl
@[simp] theorem setPort_sor (k : Nat) (p : Port) (s : State) : (setPort k p s).sor = s.sor := rfl
@[simp] theorem setPort_yar (k : Nat) (p : Port) (s : State) : (setPort k p s).yar = s.yar := rfl
@[simp] theorem setPort_cf (k : Nat) (p : Port) (s : State) : (setPort k p s).cf = s.cf := rfl
@[simp] theorem setPort_dill (k : Nat) (p : Port) (s : State) : (setPort k p s).dill = s.dill := rfl
@[simp] theorem setPort_jtag (k : Nat) (p : Port) (s : State) : (setPort k p s).jtag = s.jtag := rfl
@[simp] theorem setPort_cnt (k : Nat) (p : Port) (s : State) : (setPort k p s).cnt = s.cnt := rfl
@[simp] theorem setPort_free (k : Nat) (p : Port) (s : State) : (setPort k p s).free = s.free := rfl
@[simp] theorem setPort_shadow (k : Nat) (p : Port) (s : State) : (setPort k p s).shadow = s.shadow := rfl
@[simp] theorem setPort_pending (k : Nat) (p : Port) (s : State) : (setPort k p s).pending = s.pending := rfl

@[simp] theorem modPort_dev (k : Nat) (f : Port → Port) (s : State) : (modPort k f s).dev = s.dev := rfl
@[simp] theorem modPort_clk (k : Nat) (f : Port → Port) (s : State) : (modPort k f s).clk = s.clk := rfl
@[simp] theorem modPort_host (k : Nat) (f : Port → Port) (s : State) : (modPort k f s).host = s.host := rfl
@[simp] theorem modPort_pop (k : Nat) (f : Port → Port) (s : State) : (modPort k f s).pop = s.pop := rfl
@[simp] theorem modPort_ing (k : Nat) (f : Port → Port) (s : State) : (modPort k f s).ing = s.ing := rfl
@[simp] theorem modPort_aln (k : Nat) (f : Port → Port) (s : State) : (modPort k f s).aln = s.aln := rfl
@[simp] theorem modPort_osc (k : Nat) (f : Port → Port) (s : State) : (modPort k f s).osc = s.osc := rfl
@[simp] theorem modPort_isl (k : Nat) (f : Port → Port) (s : State) : (modPort k f s).isl = s.isl := rfl
@[simp] theorem modPort_alm (k : Nat) (f : Port → Port) (s : State) : (modPort k f s).alm = s.alm := rfl
@[simp] theorem modPort_cap (k : Nat) (f : Port → Port) (s : State) : (modPort k f s).cap = s.cap := rfl
@[simp] theorem modPort_sage (k : Nat) (f : Port → Port) (s : State) : (modPort k f s).sage = s.sage := rfl
@[simp] theorem modPort_eq (k : Nat) (f : Port → Port) (s : State) : (modPort k f s).eq = s.eq := rfl
@[simp] theorem modPort_voc (k : Nat) (f : Port → Port) (s : State) : (modPort k f s).voc = s.voc := rfl
@[simp] theorem modPort_sor (k : Nat) (f : Port → Port) (s : State) : (modPort k f s).sor = s.sor := rfl
@[simp] theorem modPort_yar (k : Nat) (f : Port → Port) (s : State) : (modPort k f s).yar = s.yar := rfl
@[simp] theorem modPort_cf (k : Nat) (f : Port → Port) (s : State) : (modPort k f s).cf = s.cf := rfl
@[simp] theorem modPort_dill (k : Nat) (f : Port → Port) (s : State) : (modPort k f s).dill = s.dill := rfl
@[simp] theorem modPort_jtag (k : Nat) (f : Port → Port) (s : State) : (modPort k f s).jtag = s.jtag := rfl
@[simp] theorem modPort_cnt (k : Nat) (f : Port → Port) (s : State) : (modPort k f s).cnt = s.cnt := rfl
@[simp] theorem modPort_free (k : Nat) (f : Port → Port) (s : State) : (modPort k f s).free = s.free := rfl
@[simp] theorem modPort_shadow (k : Nat) (f : Port → Port) (s : State) : (modPort k f s).shadow = s.shadow := rfl
@[simp] theorem modPort_pending (k : Nat) (f : Port → Port) (s : State) : (modPort k f s).pending = s.pending := rfl

@[simp] theorem modFrame_dev (r : Nat) (f : TxFrame → TxFrame) (s : State) : (modFrame r f s).dev = s.dev := rfl
@[simp] theorem modFrame_clk (r : Nat) (f : TxFrame → TxFrame) (s : State) : (modFrame r f s).clk = s.clk := rfl
@[simp] theorem modFrame_host (r : Nat) (f : TxFrame → TxFrame) (s : State) : (modFrame r f s).host = s.host := rfl
@[simp] theorem modFrame_pop (r : Nat) (f : TxFrame → TxFrame) (s : State) : (modFrame r f s).pop = s.pop := rfl
@[simp] theorem modFrame_ing (r : Nat) (f : TxFrame → TxFrame) (s : State) : (modFrame r f s).ing = s.ing := rfl
@[simp] theorem modFrame_aln (r : Nat) (f : TxFrame → TxFrame) (s : State) : (modFrame r f s).aln = s.aln := rfl
@[simp] theorem modFrame_osc (r : Nat) (f : TxFrame → TxFrame) (s : State) : (modFrame r f s).osc = s.osc := rfl
@[simp] theorem modFrame_isl (r : Nat) (f : TxFrame → TxFrame) (s : State) : (modFrame r f s).isl = s.isl := rfl
@[simp] theorem modFrame_alm (r : Nat) (f : TxFrame → TxFrame) (s : State) : (modFrame r f s).alm = s.alm := rfl
@[simp] theorem modFrame_cap (r : Nat) (f : TxFrame → TxFrame) (s : State) : (modFrame r f s).cap = s.cap := rfl
@[simp] theorem modFrame_sage (r : Nat) (f : TxFrame → TxFrame) (s : State) : (modFrame r f s).sage = s.sage := rfl
@[simp] theorem modFrame_eq (r : Nat) (f : TxFrame → TxFrame) (s : State) : (modFrame r f s).eq = s.eq := rfl
@[simp] theorem modFrame_voc (r : Nat) (f : TxFrame → TxFrame) (s : State) : (modFrame r f s).voc = s.voc := rfl
@[simp] theorem modFrame_sor (r : Nat) (f : TxFrame → TxFrame) (s : State) : (modFrame r f s).sor = s.sor := rfl
@[simp] theorem modFrame_yar (r : Nat) (f : TxFrame → TxFrame) (s : State) : (modFrame r f s).yar = s.yar := rfl
@[simp] theorem modFrame_cf (r : Nat) (f : TxFrame → TxFrame) (s : State) : (modFrame r f s).cf = s.cf := rfl
@[simp] theorem modFrame_dill (r : Nat) (f : TxFrame → TxFrame) (s : State) : (modFrame r f s).dill = s.dill := rfl
@[simp] theorem modFrame_jtag (r : Nat) (f : TxFrame → TxFrame) (s : State) : (modFrame r f s).jtag = s.jtag := rfl
@[simp] theorem modFrame_cnt (r : Nat) (f : TxFrame → TxFrame) (s : State) : (modFrame r f s).cnt = s.cnt := rfl
@[simp] theorem modFrame_free (r : Nat) (f : TxFrame → TxFrame) (s : State) : (modFrame r f s).free = s.free := rfl
@[simp] theorem modFrame_shadow (r : Nat) (f : TxFrame → TxFrame) (s : State) : (modFrame r f s).shadow = s.shadow := rfl
@[simp] theorem modFrame_pending (r : Nat) (f : TxFrame → TxFrame) (s : State) : (modFrame r f s).pending = s.pending := rfl

@[simp] theorem setStream_dev (h : Nat) (v : Stream) (s : State) : (setStream h v s).dev = s.dev := rfl
@[simp] theorem setStream_clk (h : Nat) (v : Stream) (s : State) : (setStream h v s).clk = s.clk := rfl
@[simp] theorem setStream_host (h : Nat) (v : Stream) (s : State) : (setStream h v s).host = s.host := rfl
@[simp] theorem setStream_pop (h : Nat) (v : Stream) (s : State) : (setStream h v s).pop = s.pop := rfl
@[simp] theorem setStream_net (h : Nat) (v : Stream) (s : State) : (setStream h v s).net = s.net := rfl
@[simp] theorem setStream_aln (h : Nat) (v : Stream) (s : State) : (setStream h v s).aln = s.aln := rfl
@[simp] theorem setStream_osc (h : Nat) (v : Stream) (s : State) : (setStream h v s).osc = s.osc := rfl
@[simp] theorem setStream_isl (h : Nat) (v : Stream) (s : State) : (setStream h v s).isl = s.isl := rfl
@[simp] theorem setStream_alm (h : Nat) (v : Stream) (s : State) : (setStream h v s).alm = s.alm := rfl
@[simp] theorem setStream_cap (h : Nat) (v : Stream) (s : State) : (setStream h v s).cap = s.cap := rfl
@[simp] theorem setStream_sage (h : Nat) (v : Stream) (s : State) : (setStream h v s).sage = s.sage := rfl
@[simp] theorem setStream_eq (h : Nat) (v : Stream) (s : State) : (setStream h v s).eq = s.eq := rfl
@[simp] theorem setStream_voc (h : Nat) (v : Stream) (s : State) : (setStream h v s).voc = s.voc := rfl
@[simp] theorem setStream_sor (h : Nat) (v : Stream) (s : State) : (setStream h v s).sor = s.sor := rfl
@[simp] theorem setStream_yar (h : Nat) (v : Stream) (s : State) : (setStream h v s).yar = s.yar := rfl
@[simp] theorem setStream_cf (h : Nat) (v : Stream) (s : State) : (setStream h v s).cf = s.cf := rfl
@[simp] theorem setStream_dill (h : Nat) (v : Stream) (s : State) : (setStream h v s).dill = s.dill := rfl
@[simp] theorem setStream_jtag (h : Nat) (v : Stream) (s : State) : (setStream h v s).jtag = s.jtag := rfl
@[simp] theorem setStream_cnt (h : Nat) (v : Stream) (s : State) : (setStream h v s).cnt = s.cnt := rfl
@[simp] theorem setStream_free (h : Nat) (v : Stream) (s : State) : (setStream h v s).free = s.free := rfl
@[simp] theorem setStream_shadow (h : Nat) (v : Stream) (s : State) : (setStream h v s).shadow = s.shadow := rfl
@[simp] theorem setStream_pending (h : Nat) (v : Stream) (s : State) : (setStream h v s).pending = s.pending := rfl

@[simp] theorem modStream_dev (h : Nat) (f : Stream → Stream) (s : State) : (modStream h f s).dev = s.dev := rfl
@[simp] theorem modStream_clk (h : Nat) (f : Stream → Stream) (s : State) : (modStream h f s).clk = s.clk := rfl
@[simp] theorem modStream_host (h : Nat) (f : Stream → Stream) (s : State) : (modStream h f s).host = s.host := rfl
@[simp] theorem modStream_pop (h : Nat) (f : Stream → Stream) (s : State) : (modStream h f s).pop = s.pop := rfl
@[simp] theorem modStream_net (h : Nat) (f : Stream → Stream) (s : State) : (modStream h f s).net = s.net := rfl
@[simp] theorem modStream_aln (h : Nat) (f : Stream → Stream) (s : State) : (modStream h f s).aln = s.aln := rfl
@[simp] theorem modStream_osc (h : Nat) (f : Stream → Stream) (s : State) : (modStream h f s).osc = s.osc := rfl
@[simp] theorem modStream_isl (h : Nat) (f : Stream → Stream) (s : State) : (modStream h f s).isl = s.isl := rfl
@[simp] theorem modStream_alm (h : Nat) (f : Stream → Stream) (s : State) : (modStream h f s).alm = s.alm := rfl
@[simp] theorem modStream_cap (h : Nat) (f : Stream → Stream) (s : State) : (modStream h f s).cap = s.cap := rfl
@[simp] theorem modStream_sage (h : Nat) (f : Stream → Stream) (s : State) : (modStream h f s).sage = s.sage := rfl
@[simp] theorem modStream_eq (h : Nat) (f : Stream → Stream) (s : State) : (modStream h f s).eq = s.eq := rfl
@[simp] theorem modStream_voc (h : Nat) (f : Stream → Stream) (s : State) : (modStream h f s).voc = s.voc := rfl
@[simp] theorem modStream_sor (h : Nat) (f : Stream → Stream) (s : State) : (modStream h f s).sor = s.sor := rfl
@[simp] theorem modStream_yar (h : Nat) (f : Stream → Stream) (s : State) : (modStream h f s).yar = s.yar := rfl
@[simp] theorem modStream_cf (h : Nat) (f : Stream → Stream) (s : State) : (modStream h f s).cf = s.cf := rfl
@[simp] theorem modStream_dill (h : Nat) (f : Stream → Stream) (s : State) : (modStream h f s).dill = s.dill := rfl
@[simp] theorem modStream_jtag (h : Nat) (f : Stream → Stream) (s : State) : (modStream h f s).jtag = s.jtag := rfl
@[simp] theorem modStream_cnt (h : Nat) (f : Stream → Stream) (s : State) : (modStream h f s).cnt = s.cnt := rfl
@[simp] theorem modStream_free (h : Nat) (f : Stream → Stream) (s : State) : (modStream h f s).free = s.free := rfl
@[simp] theorem modStream_shadow (h : Nat) (f : Stream → Stream) (s : State) : (modStream h f s).shadow = s.shadow := rfl
@[simp] theorem modStream_pending (h : Nat) (f : Stream → Stream) (s : State) : (modStream h f s).pending = s.pending := rfl

@[simp] theorem setGrid_dev (g : Nat) (v : Grid) (s : State) : (setGrid g v s).dev = s.dev := rfl
@[simp] theorem setGrid_clk (g : Nat) (v : Grid) (s : State) : (setGrid g v s).clk = s.clk := rfl
@[simp] theorem setGrid_host (g : Nat) (v : Grid) (s : State) : (setGrid g v s).host = s.host := rfl
@[simp] theorem setGrid_pop (g : Nat) (v : Grid) (s : State) : (setGrid g v s).pop = s.pop := rfl
@[simp] theorem setGrid_net (g : Nat) (v : Grid) (s : State) : (setGrid g v s).net = s.net := rfl
@[simp] theorem setGrid_ing (g : Nat) (v : Grid) (s : State) : (setGrid g v s).ing = s.ing := rfl
@[simp] theorem setGrid_osc (g : Nat) (v : Grid) (s : State) : (setGrid g v s).osc = s.osc := rfl
@[simp] theorem setGrid_isl (g : Nat) (v : Grid) (s : State) : (setGrid g v s).isl = s.isl := rfl
@[simp] theorem setGrid_alm (g : Nat) (v : Grid) (s : State) : (setGrid g v s).alm = s.alm := rfl
@[simp] theorem setGrid_cap (g : Nat) (v : Grid) (s : State) : (setGrid g v s).cap = s.cap := rfl
@[simp] theorem setGrid_sage (g : Nat) (v : Grid) (s : State) : (setGrid g v s).sage = s.sage := rfl
@[simp] theorem setGrid_eq (g : Nat) (v : Grid) (s : State) : (setGrid g v s).eq = s.eq := rfl
@[simp] theorem setGrid_voc (g : Nat) (v : Grid) (s : State) : (setGrid g v s).voc = s.voc := rfl
@[simp] theorem setGrid_sor (g : Nat) (v : Grid) (s : State) : (setGrid g v s).sor = s.sor := rfl
@[simp] theorem setGrid_yar (g : Nat) (v : Grid) (s : State) : (setGrid g v s).yar = s.yar := rfl
@[simp] theorem setGrid_cf (g : Nat) (v : Grid) (s : State) : (setGrid g v s).cf = s.cf := rfl
@[simp] theorem setGrid_dill (g : Nat) (v : Grid) (s : State) : (setGrid g v s).dill = s.dill := rfl
@[simp] theorem setGrid_jtag (g : Nat) (v : Grid) (s : State) : (setGrid g v s).jtag = s.jtag := rfl
@[simp] theorem setGrid_cnt (g : Nat) (v : Grid) (s : State) : (setGrid g v s).cnt = s.cnt := rfl
@[simp] theorem setGrid_free (g : Nat) (v : Grid) (s : State) : (setGrid g v s).free = s.free := rfl
@[simp] theorem setGrid_shadow (g : Nat) (v : Grid) (s : State) : (setGrid g v s).shadow = s.shadow := rfl
@[simp] theorem setGrid_pending (g : Nat) (v : Grid) (s : State) : (setGrid g v s).pending = s.pending := rfl

@[simp] theorem modGrid_dev (g : Nat) (f : Grid → Grid) (s : State) : (modGrid g f s).dev = s.dev := rfl
@[simp] theorem modGrid_clk (g : Nat) (f : Grid → Grid) (s : State) : (modGrid g f s).clk = s.clk := rfl
@[simp] theorem modGrid_host (g : Nat) (f : Grid → Grid) (s : State) : (modGrid g f s).host = s.host := rfl
@[simp] theorem modGrid_pop (g : Nat) (f : Grid → Grid) (s : State) : (modGrid g f s).pop = s.pop := rfl
@[simp] theorem modGrid_net (g : Nat) (f : Grid → Grid) (s : State) : (modGrid g f s).net = s.net := rfl
@[simp] theorem modGrid_ing (g : Nat) (f : Grid → Grid) (s : State) : (modGrid g f s).ing = s.ing := rfl
@[simp] theorem modGrid_osc (g : Nat) (f : Grid → Grid) (s : State) : (modGrid g f s).osc = s.osc := rfl
@[simp] theorem modGrid_isl (g : Nat) (f : Grid → Grid) (s : State) : (modGrid g f s).isl = s.isl := rfl
@[simp] theorem modGrid_alm (g : Nat) (f : Grid → Grid) (s : State) : (modGrid g f s).alm = s.alm := rfl
@[simp] theorem modGrid_cap (g : Nat) (f : Grid → Grid) (s : State) : (modGrid g f s).cap = s.cap := rfl
@[simp] theorem modGrid_sage (g : Nat) (f : Grid → Grid) (s : State) : (modGrid g f s).sage = s.sage := rfl
@[simp] theorem modGrid_eq (g : Nat) (f : Grid → Grid) (s : State) : (modGrid g f s).eq = s.eq := rfl
@[simp] theorem modGrid_voc (g : Nat) (f : Grid → Grid) (s : State) : (modGrid g f s).voc = s.voc := rfl
@[simp] theorem modGrid_sor (g : Nat) (f : Grid → Grid) (s : State) : (modGrid g f s).sor = s.sor := rfl
@[simp] theorem modGrid_yar (g : Nat) (f : Grid → Grid) (s : State) : (modGrid g f s).yar = s.yar := rfl
@[simp] theorem modGrid_cf (g : Nat) (f : Grid → Grid) (s : State) : (modGrid g f s).cf = s.cf := rfl
@[simp] theorem modGrid_dill (g : Nat) (f : Grid → Grid) (s : State) : (modGrid g f s).dill = s.dill := rfl
@[simp] theorem modGrid_jtag (g : Nat) (f : Grid → Grid) (s : State) : (modGrid g f s).jtag = s.jtag := rfl
@[simp] theorem modGrid_cnt (g : Nat) (f : Grid → Grid) (s : State) : (modGrid g f s).cnt = s.cnt := rfl
@[simp] theorem modGrid_free (g : Nat) (f : Grid → Grid) (s : State) : (modGrid g f s).free = s.free := rfl
@[simp] theorem modGrid_shadow (g : Nat) (f : Grid → Grid) (s : State) : (modGrid g f s).shadow = s.shadow := rfl
@[simp] theorem modGrid_pending (g : Nat) (f : Grid → Grid) (s : State) : (modGrid g f s).pending = s.pending := rfl

@[simp] theorem setSlab_dev (g tag : Nat) (v : Slab) (s : State) : (setSlab g tag v s).dev = s.dev := rfl
@[simp] theorem setSlab_clk (g tag : Nat) (v : Slab) (s : State) : (setSlab g tag v s).clk = s.clk := rfl
@[simp] theorem setSlab_host (g tag : Nat) (v : Slab) (s : State) : (setSlab g tag v s).host = s.host := rfl
@[simp] theorem setSlab_pop (g tag : Nat) (v : Slab) (s : State) : (setSlab g tag v s).pop = s.pop := rfl
@[simp] theorem setSlab_net (g tag : Nat) (v : Slab) (s : State) : (setSlab g tag v s).net = s.net := rfl
@[simp] theorem setSlab_ing (g tag : Nat) (v : Slab) (s : State) : (setSlab g tag v s).ing = s.ing := rfl
@[simp] theorem setSlab_osc (g tag : Nat) (v : Slab) (s : State) : (setSlab g tag v s).osc = s.osc := rfl
@[simp] theorem setSlab_isl (g tag : Nat) (v : Slab) (s : State) : (setSlab g tag v s).isl = s.isl := rfl
@[simp] theorem setSlab_alm (g tag : Nat) (v : Slab) (s : State) : (setSlab g tag v s).alm = s.alm := rfl
@[simp] theorem setSlab_cap (g tag : Nat) (v : Slab) (s : State) : (setSlab g tag v s).cap = s.cap := rfl
@[simp] theorem setSlab_sage (g tag : Nat) (v : Slab) (s : State) : (setSlab g tag v s).sage = s.sage := rfl
@[simp] theorem setSlab_eq (g tag : Nat) (v : Slab) (s : State) : (setSlab g tag v s).eq = s.eq := rfl
@[simp] theorem setSlab_voc (g tag : Nat) (v : Slab) (s : State) : (setSlab g tag v s).voc = s.voc := rfl
@[simp] theorem setSlab_sor (g tag : Nat) (v : Slab) (s : State) : (setSlab g tag v s).sor = s.sor := rfl
@[simp] theorem setSlab_yar (g tag : Nat) (v : Slab) (s : State) : (setSlab g tag v s).yar = s.yar := rfl
@[simp] theorem setSlab_cf (g tag : Nat) (v : Slab) (s : State) : (setSlab g tag v s).cf = s.cf := rfl
@[simp] theorem setSlab_dill (g tag : Nat) (v : Slab) (s : State) : (setSlab g tag v s).dill = s.dill := rfl
@[simp] theorem setSlab_jtag (g tag : Nat) (v : Slab) (s : State) : (setSlab g tag v s).jtag = s.jtag := rfl
@[simp] theorem setSlab_cnt (g tag : Nat) (v : Slab) (s : State) : (setSlab g tag v s).cnt = s.cnt := rfl
@[simp] theorem setSlab_free (g tag : Nat) (v : Slab) (s : State) : (setSlab g tag v s).free = s.free := rfl
@[simp] theorem setSlab_shadow (g tag : Nat) (v : Slab) (s : State) : (setSlab g tag v s).shadow = s.shadow := rfl
@[simp] theorem setSlab_pending (g tag : Nat) (v : Slab) (s : State) : (setSlab g tag v s).pending = s.pending := rfl

@[simp] theorem modSlab_dev (g tag : Nat) (f : Slab → Slab) (s : State) : (modSlab g tag f s).dev = s.dev := rfl
@[simp] theorem modSlab_clk (g tag : Nat) (f : Slab → Slab) (s : State) : (modSlab g tag f s).clk = s.clk := rfl
@[simp] theorem modSlab_host (g tag : Nat) (f : Slab → Slab) (s : State) : (modSlab g tag f s).host = s.host := rfl
@[simp] theorem modSlab_pop (g tag : Nat) (f : Slab → Slab) (s : State) : (modSlab g tag f s).pop = s.pop := rfl
@[simp] theorem modSlab_net (g tag : Nat) (f : Slab → Slab) (s : State) : (modSlab g tag f s).net = s.net := rfl
@[simp] theorem modSlab_ing (g tag : Nat) (f : Slab → Slab) (s : State) : (modSlab g tag f s).ing = s.ing := rfl
@[simp] theorem modSlab_osc (g tag : Nat) (f : Slab → Slab) (s : State) : (modSlab g tag f s).osc = s.osc := rfl
@[simp] theorem modSlab_isl (g tag : Nat) (f : Slab → Slab) (s : State) : (modSlab g tag f s).isl = s.isl := rfl
@[simp] theorem modSlab_alm (g tag : Nat) (f : Slab → Slab) (s : State) : (modSlab g tag f s).alm = s.alm := rfl
@[simp] theorem modSlab_cap (g tag : Nat) (f : Slab → Slab) (s : State) : (modSlab g tag f s).cap = s.cap := rfl
@[simp] theorem modSlab_sage (g tag : Nat) (f : Slab → Slab) (s : State) : (modSlab g tag f s).sage = s.sage := rfl
@[simp] theorem modSlab_eq (g tag : Nat) (f : Slab → Slab) (s : State) : (modSlab g tag f s).eq = s.eq := rfl
@[simp] theorem modSlab_voc (g tag : Nat) (f : Slab → Slab) (s : State) : (modSlab g tag f s).voc = s.voc := rfl
@[simp] theorem modSlab_sor (g tag : Nat) (f : Slab → Slab) (s : State) : (modSlab g tag f s).sor = s.sor := rfl
@[simp] theorem modSlab_yar (g tag : Nat) (f : Slab → Slab) (s : State) : (modSlab g tag f s).yar = s.yar := rfl
@[simp] theorem modSlab_cf (g tag : Nat) (f : Slab → Slab) (s : State) : (modSlab g tag f s).cf = s.cf := rfl
@[simp] theorem modSlab_dill (g tag : Nat) (f : Slab → Slab) (s : State) : (modSlab g tag f s).dill = s.dill := rfl
@[simp] theorem modSlab_jtag (g tag : Nat) (f : Slab → Slab) (s : State) : (modSlab g tag f s).jtag = s.jtag := rfl
@[simp] theorem modSlab_cnt (g tag : Nat) (f : Slab → Slab) (s : State) : (modSlab g tag f s).cnt = s.cnt := rfl
@[simp] theorem modSlab_free (g tag : Nat) (f : Slab → Slab) (s : State) : (modSlab g tag f s).free = s.free := rfl
@[simp] theorem modSlab_shadow (g tag : Nat) (f : Slab → Slab) (s : State) : (modSlab g tag f s).shadow = s.shadow := rfl
@[simp] theorem modSlab_pending (g tag : Nat) (f : Slab → Slab) (s : State) : (modSlab g tag f s).pending = s.pending := rfl

@[simp] theorem modPub_dev (n : Nat) (f : Pub → Pub) (s : State) : (modPub n f s).dev = s.dev := rfl
@[simp] theorem modPub_clk (n : Nat) (f : Pub → Pub) (s : State) : (modPub n f s).clk = s.clk := rfl
@[simp] theorem modPub_host (n : Nat) (f : Pub → Pub) (s : State) : (modPub n f s).host = s.host := rfl
@[simp] theorem modPub_pop (n : Nat) (f : Pub → Pub) (s : State) : (modPub n f s).pop = s.pop := rfl
@[simp] theorem modPub_net (n : Nat) (f : Pub → Pub) (s : State) : (modPub n f s).net = s.net := rfl
@[simp] theorem modPub_ing (n : Nat) (f : Pub → Pub) (s : State) : (modPub n f s).ing = s.ing := rfl
@[simp] theorem modPub_osc (n : Nat) (f : Pub → Pub) (s : State) : (modPub n f s).osc = s.osc := rfl
@[simp] theorem modPub_isl (n : Nat) (f : Pub → Pub) (s : State) : (modPub n f s).isl = s.isl := rfl
@[simp] theorem modPub_alm (n : Nat) (f : Pub → Pub) (s : State) : (modPub n f s).alm = s.alm := rfl
@[simp] theorem modPub_cap (n : Nat) (f : Pub → Pub) (s : State) : (modPub n f s).cap = s.cap := rfl
@[simp] theorem modPub_sage (n : Nat) (f : Pub → Pub) (s : State) : (modPub n f s).sage = s.sage := rfl
@[simp] theorem modPub_eq (n : Nat) (f : Pub → Pub) (s : State) : (modPub n f s).eq = s.eq := rfl
@[simp] theorem modPub_voc (n : Nat) (f : Pub → Pub) (s : State) : (modPub n f s).voc = s.voc := rfl
@[simp] theorem modPub_sor (n : Nat) (f : Pub → Pub) (s : State) : (modPub n f s).sor = s.sor := rfl
@[simp] theorem modPub_yar (n : Nat) (f : Pub → Pub) (s : State) : (modPub n f s).yar = s.yar := rfl
@[simp] theorem modPub_cf (n : Nat) (f : Pub → Pub) (s : State) : (modPub n f s).cf = s.cf := rfl
@[simp] theorem modPub_dill (n : Nat) (f : Pub → Pub) (s : State) : (modPub n f s).dill = s.dill := rfl
@[simp] theorem modPub_jtag (n : Nat) (f : Pub → Pub) (s : State) : (modPub n f s).jtag = s.jtag := rfl
@[simp] theorem modPub_cnt (n : Nat) (f : Pub → Pub) (s : State) : (modPub n f s).cnt = s.cnt := rfl
@[simp] theorem modPub_free (n : Nat) (f : Pub → Pub) (s : State) : (modPub n f s).free = s.free := rfl
@[simp] theorem modPub_shadow (n : Nat) (f : Pub → Pub) (s : State) : (modPub n f s).shadow = s.shadow := rfl
@[simp] theorem modPub_pending (n : Nat) (f : Pub → Pub) (s : State) : (modPub n f s).pending = s.pending := rfl

@[simp] theorem setInput_dev (n : Nat) (v : SgInput) (s : State) : (setInput n v s).dev = s.dev := rfl
@[simp] theorem setInput_clk (n : Nat) (v : SgInput) (s : State) : (setInput n v s).clk = s.clk := rfl
@[simp] theorem setInput_host (n : Nat) (v : SgInput) (s : State) : (setInput n v s).host = s.host := rfl
@[simp] theorem setInput_pop (n : Nat) (v : SgInput) (s : State) : (setInput n v s).pop = s.pop := rfl
@[simp] theorem setInput_net (n : Nat) (v : SgInput) (s : State) : (setInput n v s).net = s.net := rfl
@[simp] theorem setInput_ing (n : Nat) (v : SgInput) (s : State) : (setInput n v s).ing = s.ing := rfl
@[simp] theorem setInput_aln (n : Nat) (v : SgInput) (s : State) : (setInput n v s).aln = s.aln := rfl
@[simp] theorem setInput_osc (n : Nat) (v : SgInput) (s : State) : (setInput n v s).osc = s.osc := rfl
@[simp] theorem setInput_isl (n : Nat) (v : SgInput) (s : State) : (setInput n v s).isl = s.isl := rfl
@[simp] theorem setInput_alm (n : Nat) (v : SgInput) (s : State) : (setInput n v s).alm = s.alm := rfl
@[simp] theorem setInput_cap (n : Nat) (v : SgInput) (s : State) : (setInput n v s).cap = s.cap := rfl
@[simp] theorem setInput_eq (n : Nat) (v : SgInput) (s : State) : (setInput n v s).eq = s.eq := rfl
@[simp] theorem setInput_voc (n : Nat) (v : SgInput) (s : State) : (setInput n v s).voc = s.voc := rfl
@[simp] theorem setInput_sor (n : Nat) (v : SgInput) (s : State) : (setInput n v s).sor = s.sor := rfl
@[simp] theorem setInput_yar (n : Nat) (v : SgInput) (s : State) : (setInput n v s).yar = s.yar := rfl
@[simp] theorem setInput_cf (n : Nat) (v : SgInput) (s : State) : (setInput n v s).cf = s.cf := rfl
@[simp] theorem setInput_dill (n : Nat) (v : SgInput) (s : State) : (setInput n v s).dill = s.dill := rfl
@[simp] theorem setInput_jtag (n : Nat) (v : SgInput) (s : State) : (setInput n v s).jtag = s.jtag := rfl
@[simp] theorem setInput_cnt (n : Nat) (v : SgInput) (s : State) : (setInput n v s).cnt = s.cnt := rfl
@[simp] theorem setInput_free (n : Nat) (v : SgInput) (s : State) : (setInput n v s).free = s.free := rfl
@[simp] theorem setInput_shadow (n : Nat) (v : SgInput) (s : State) : (setInput n v s).shadow = s.shadow := rfl
@[simp] theorem setInput_pending (n : Nat) (v : SgInput) (s : State) : (setInput n v s).pending = s.pending := rfl

@[simp] theorem modInput_dev (n : Nat) (f : SgInput → SgInput) (s : State) : (modInput n f s).dev = s.dev := rfl
@[simp] theorem modInput_clk (n : Nat) (f : SgInput → SgInput) (s : State) : (modInput n f s).clk = s.clk := rfl
@[simp] theorem modInput_host (n : Nat) (f : SgInput → SgInput) (s : State) : (modInput n f s).host = s.host := rfl
@[simp] theorem modInput_pop (n : Nat) (f : SgInput → SgInput) (s : State) : (modInput n f s).pop = s.pop := rfl
@[simp] theorem modInput_net (n : Nat) (f : SgInput → SgInput) (s : State) : (modInput n f s).net = s.net := rfl
@[simp] theorem modInput_ing (n : Nat) (f : SgInput → SgInput) (s : State) : (modInput n f s).ing = s.ing := rfl
@[simp] theorem modInput_aln (n : Nat) (f : SgInput → SgInput) (s : State) : (modInput n f s).aln = s.aln := rfl
@[simp] theorem modInput_osc (n : Nat) (f : SgInput → SgInput) (s : State) : (modInput n f s).osc = s.osc := rfl
@[simp] theorem modInput_isl (n : Nat) (f : SgInput → SgInput) (s : State) : (modInput n f s).isl = s.isl := rfl
@[simp] theorem modInput_alm (n : Nat) (f : SgInput → SgInput) (s : State) : (modInput n f s).alm = s.alm := rfl
@[simp] theorem modInput_cap (n : Nat) (f : SgInput → SgInput) (s : State) : (modInput n f s).cap = s.cap := rfl
@[simp] theorem modInput_eq (n : Nat) (f : SgInput → SgInput) (s : State) : (modInput n f s).eq = s.eq := rfl
@[simp] theorem modInput_voc (n : Nat) (f : SgInput → SgInput) (s : State) : (modInput n f s).voc = s.voc := rfl
@[simp] theorem modInput_sor (n : Nat) (f : SgInput → SgInput) (s : State) : (modInput n f s).sor = s.sor := rfl
@[simp] theorem modInput_yar (n : Nat) (f : SgInput → SgInput) (s : State) : (modInput n f s).yar = s.yar := rfl
@[simp] theorem modInput_cf (n : Nat) (f : SgInput → SgInput) (s : State) : (modInput n f s).cf = s.cf := rfl
@[simp] theorem modInput_dill (n : Nat) (f : SgInput → SgInput) (s : State) : (modInput n f s).dill = s.dill := rfl
@[simp] theorem modInput_jtag (n : Nat) (f : SgInput → SgInput) (s : State) : (modInput n f s).jtag = s.jtag := rfl
@[simp] theorem modInput_cnt (n : Nat) (f : SgInput → SgInput) (s : State) : (modInput n f s).cnt = s.cnt := rfl
@[simp] theorem modInput_free (n : Nat) (f : SgInput → SgInput) (s : State) : (modInput n f s).free = s.free := rfl
@[simp] theorem modInput_shadow (n : Nat) (f : SgInput → SgInput) (s : State) : (modInput n f s).shadow = s.shadow := rfl
@[simp] theorem modInput_pending (n : Nat) (f : SgInput → SgInput) (s : State) : (modInput n f s).pending = s.pending := rfl

@[simp] theorem modCap_dev (c : Nat) (f : Cap → Cap) (s : State) : (modCap c f s).dev = s.dev := rfl
@[simp] theorem modCap_clk (c : Nat) (f : Cap → Cap) (s : State) : (modCap c f s).clk = s.clk := rfl
@[simp] theorem modCap_host (c : Nat) (f : Cap → Cap) (s : State) : (modCap c f s).host = s.host := rfl
@[simp] theorem modCap_pop (c : Nat) (f : Cap → Cap) (s : State) : (modCap c f s).pop = s.pop := rfl
@[simp] theorem modCap_net (c : Nat) (f : Cap → Cap) (s : State) : (modCap c f s).net = s.net := rfl
@[simp] theorem modCap_ing (c : Nat) (f : Cap → Cap) (s : State) : (modCap c f s).ing = s.ing := rfl
@[simp] theorem modCap_aln (c : Nat) (f : Cap → Cap) (s : State) : (modCap c f s).aln = s.aln := rfl
@[simp] theorem modCap_osc (c : Nat) (f : Cap → Cap) (s : State) : (modCap c f s).osc = s.osc := rfl
@[simp] theorem modCap_isl (c : Nat) (f : Cap → Cap) (s : State) : (modCap c f s).isl = s.isl := rfl
@[simp] theorem modCap_alm (c : Nat) (f : Cap → Cap) (s : State) : (modCap c f s).alm = s.alm := rfl
@[simp] theorem modCap_sage (c : Nat) (f : Cap → Cap) (s : State) : (modCap c f s).sage = s.sage := rfl
@[simp] theorem modCap_eq (c : Nat) (f : Cap → Cap) (s : State) : (modCap c f s).eq = s.eq := rfl
@[simp] theorem modCap_voc (c : Nat) (f : Cap → Cap) (s : State) : (modCap c f s).voc = s.voc := rfl
@[simp] theorem modCap_sor (c : Nat) (f : Cap → Cap) (s : State) : (modCap c f s).sor = s.sor := rfl
@[simp] theorem modCap_yar (c : Nat) (f : Cap → Cap) (s : State) : (modCap c f s).yar = s.yar := rfl
@[simp] theorem modCap_cf (c : Nat) (f : Cap → Cap) (s : State) : (modCap c f s).cf = s.cf := rfl
@[simp] theorem modCap_dill (c : Nat) (f : Cap → Cap) (s : State) : (modCap c f s).dill = s.dill := rfl
@[simp] theorem modCap_jtag (c : Nat) (f : Cap → Cap) (s : State) : (modCap c f s).jtag = s.jtag := rfl
@[simp] theorem modCap_cnt (c : Nat) (f : Cap → Cap) (s : State) : (modCap c f s).cnt = s.cnt := rfl
@[simp] theorem modCap_free (c : Nat) (f : Cap → Cap) (s : State) : (modCap c f s).free = s.free := rfl
@[simp] theorem modCap_shadow (c : Nat) (f : Cap → Cap) (s : State) : (modCap c f s).shadow = s.shadow := rfl
@[simp] theorem modCap_pending (c : Nat) (f : Cap → Cap) (s : State) : (modCap c f s).pending = s.pending := rfl

@[simp] theorem modLane_dev (c lane : Nat) (f : Lane → Lane) (s : State) : (modLane c lane f s).dev = s.dev := rfl
@[simp] theorem modLane_clk (c lane : Nat) (f : Lane → Lane) (s : State) : (modLane c lane f s).clk = s.clk := rfl
@[simp] theorem modLane_host (c lane : Nat) (f : Lane → Lane) (s : State) : (modLane c lane f s).host = s.host := rfl
@[simp] theorem modLane_pop (c lane : Nat) (f : Lane → Lane) (s : State) : (modLane c lane f s).pop = s.pop := rfl
@[simp] theorem modLane_net (c lane : Nat) (f : Lane → Lane) (s : State) : (modLane c lane f s).net = s.net := rfl
@[simp] theorem modLane_ing (c lane : Nat) (f : Lane → Lane) (s : State) : (modLane c lane f s).ing = s.ing := rfl
@[simp] theorem modLane_aln (c lane : Nat) (f : Lane → Lane) (s : State) : (modLane c lane f s).aln = s.aln := rfl
@[simp] theorem modLane_osc (c lane : Nat) (f : Lane → Lane) (s : State) : (modLane c lane f s).osc = s.osc := rfl
@[simp] theorem modLane_isl (c lane : Nat) (f : Lane → Lane) (s : State) : (modLane c lane f s).isl = s.isl := rfl
@[simp] theorem modLane_alm (c lane : Nat) (f : Lane → Lane) (s : State) : (modLane c lane f s).alm = s.alm := rfl
@[simp] theorem modLane_sage (c lane : Nat) (f : Lane → Lane) (s : State) : (modLane c lane f s).sage = s.sage := rfl
@[simp] theorem modLane_eq (c lane : Nat) (f : Lane → Lane) (s : State) : (modLane c lane f s).eq = s.eq := rfl
@[simp] theorem modLane_voc (c lane : Nat) (f : Lane → Lane) (s : State) : (modLane c lane f s).voc = s.voc := rfl
@[simp] theorem modLane_sor (c lane : Nat) (f : Lane → Lane) (s : State) : (modLane c lane f s).sor = s.sor := rfl
@[simp] theorem modLane_yar (c lane : Nat) (f : Lane → Lane) (s : State) : (modLane c lane f s).yar = s.yar := rfl
@[simp] theorem modLane_cf (c lane : Nat) (f : Lane → Lane) (s : State) : (modLane c lane f s).cf = s.cf := rfl
@[simp] theorem modLane_dill (c lane : Nat) (f : Lane → Lane) (s : State) : (modLane c lane f s).dill = s.dill := rfl
@[simp] theorem modLane_jtag (c lane : Nat) (f : Lane → Lane) (s : State) : (modLane c lane f s).jtag = s.jtag := rfl
@[simp] theorem modLane_cnt (c lane : Nat) (f : Lane → Lane) (s : State) : (modLane c lane f s).cnt = s.cnt := rfl
@[simp] theorem modLane_free (c lane : Nat) (f : Lane → Lane) (s : State) : (modLane c lane f s).free = s.free := rfl
@[simp] theorem modLane_shadow (c lane : Nat) (f : Lane → Lane) (s : State) : (modLane c lane f s).shadow = s.shadow := rfl
@[simp] theorem modLane_pending (c lane : Nat) (f : Lane → Lane) (s : State) : (modLane c lane f s).pending = s.pending := rfl

@[simp] theorem setCh_dev (c : Nat) (v : VCh) (s : State) : (setCh c v s).dev = s.dev := rfl
@[simp] theorem setCh_clk (c : Nat) (v : VCh) (s : State) : (setCh c v s).clk = s.clk := rfl
@[simp] theorem setCh_host (c : Nat) (v : VCh) (s : State) : (setCh c v s).host = s.host := rfl
@[simp] theorem setCh_pop (c : Nat) (v : VCh) (s : State) : (setCh c v s).pop = s.pop := rfl
@[simp] theorem setCh_net (c : Nat) (v : VCh) (s : State) : (setCh c v s).net = s.net := rfl
@[simp] theorem setCh_ing (c : Nat) (v : VCh) (s : State) : (setCh c v s).ing = s.ing := rfl
@[simp] theorem setCh_aln (c : Nat) (v : VCh) (s : State) : (setCh c v s).aln = s.aln := rfl
@[simp] theorem setCh_osc (c : Nat) (v : VCh) (s : State) : (setCh c v s).osc = s.osc := rfl
@[simp] theorem setCh_isl (c : Nat) (v : VCh) (s : State) : (setCh c v s).isl = s.isl := rfl
@[simp] theorem setCh_alm (c : Nat) (v : VCh) (s : State) : (setCh c v s).alm = s.alm := rfl
@[simp] theorem setCh_cap (c : Nat) (v : VCh) (s : State) : (setCh c v s).cap = s.cap := rfl
@[simp] theorem setCh_sage (c : Nat) (v : VCh) (s : State) : (setCh c v s).sage = s.sage := rfl
@[simp] theorem setCh_eq (c : Nat) (v : VCh) (s : State) : (setCh c v s).eq = s.eq := rfl
@[simp] theorem setCh_sor (c : Nat) (v : VCh) (s : State) : (setCh c v s).sor = s.sor := rfl
@[simp] theorem setCh_yar (c : Nat) (v : VCh) (s : State) : (setCh c v s).yar = s.yar := rfl
@[simp] theorem setCh_cf (c : Nat) (v : VCh) (s : State) : (setCh c v s).cf = s.cf := rfl
@[simp] theorem setCh_dill (c : Nat) (v : VCh) (s : State) : (setCh c v s).dill = s.dill := rfl
@[simp] theorem setCh_jtag (c : Nat) (v : VCh) (s : State) : (setCh c v s).jtag = s.jtag := rfl
@[simp] theorem setCh_cnt (c : Nat) (v : VCh) (s : State) : (setCh c v s).cnt = s.cnt := rfl
@[simp] theorem setCh_free (c : Nat) (v : VCh) (s : State) : (setCh c v s).free = s.free := rfl
@[simp] theorem setCh_shadow (c : Nat) (v : VCh) (s : State) : (setCh c v s).shadow = s.shadow := rfl
@[simp] theorem setCh_pending (c : Nat) (v : VCh) (s : State) : (setCh c v s).pending = s.pending := rfl

@[simp] theorem modCh_dev (c : Nat) (f : VCh → VCh) (s : State) : (modCh c f s).dev = s.dev := rfl
@[simp] theorem modCh_clk (c : Nat) (f : VCh → VCh) (s : State) : (modCh c f s).clk = s.clk := rfl
@[simp] theorem modCh_host (c : Nat) (f : VCh → VCh) (s : State) : (modCh c f s).host = s.host := rfl
@[simp] theorem modCh_pop (c : Nat) (f : VCh → VCh) (s : State) : (modCh c f s).pop = s.pop := rfl
@[simp] theorem modCh_net (c : Nat) (f : VCh → VCh) (s : State) : (modCh c f s).net = s.net := rfl
@[simp] theorem modCh_ing (c : Nat) (f : VCh → VCh) (s : State) : (modCh c f s).ing = s.ing := rfl
@[simp] theorem modCh_aln (c : Nat) (f : VCh → VCh) (s : State) : (modCh c f s).aln = s.aln := rfl
@[simp] theorem modCh_osc (c : Nat) (f : VCh → VCh) (s : State) : (modCh c f s).osc = s.osc := rfl
@[simp] theorem modCh_isl (c : Nat) (f : VCh → VCh) (s : State) : (modCh c f s).isl = s.isl := rfl
@[simp] theorem modCh_alm (c : Nat) (f : VCh → VCh) (s : State) : (modCh c f s).alm = s.alm := rfl
@[simp] theorem modCh_cap (c : Nat) (f : VCh → VCh) (s : State) : (modCh c f s).cap = s.cap := rfl
@[simp] theorem modCh_sage (c : Nat) (f : VCh → VCh) (s : State) : (modCh c f s).sage = s.sage := rfl
@[simp] theorem modCh_eq (c : Nat) (f : VCh → VCh) (s : State) : (modCh c f s).eq = s.eq := rfl
@[simp] theorem modCh_sor (c : Nat) (f : VCh → VCh) (s : State) : (modCh c f s).sor = s.sor := rfl
@[simp] theorem modCh_yar (c : Nat) (f : VCh → VCh) (s : State) : (modCh c f s).yar = s.yar := rfl
@[simp] theorem modCh_cf (c : Nat) (f : VCh → VCh) (s : State) : (modCh c f s).cf = s.cf := rfl
@[simp] theorem modCh_dill (c : Nat) (f : VCh → VCh) (s : State) : (modCh c f s).dill = s.dill := rfl
@[simp] theorem modCh_jtag (c : Nat) (f : VCh → VCh) (s : State) : (modCh c f s).jtag = s.jtag := rfl
@[simp] theorem modCh_cnt (c : Nat) (f : VCh → VCh) (s : State) : (modCh c f s).cnt = s.cnt := rfl
@[simp] theorem modCh_free (c : Nat) (f : VCh → VCh) (s : State) : (modCh c f s).free = s.free := rfl
@[simp] theorem modCh_shadow (c : Nat) (f : VCh → VCh) (s : State) : (modCh c f s).shadow = s.shadow := rfl
@[simp] theorem modCh_pending (c : Nat) (f : VCh → VCh) (s : State) : (modCh c f s).pending = s.pending := rfl

@[simp] theorem setStage_dev (n : Nat) (v : Stage) (s : State) : (setStage n v s).dev = s.dev := rfl
@[simp] theorem setStage_clk (n : Nat) (v : Stage) (s : State) : (setStage n v s).clk = s.clk := rfl
@[simp] theorem setStage_host (n : Nat) (v : Stage) (s : State) : (setStage n v s).host = s.host := rfl
@[simp] theorem setStage_pop (n : Nat) (v : Stage) (s : State) : (setStage n v s).pop = s.pop := rfl
@[simp] theorem setStage_net (n : Nat) (v : Stage) (s : State) : (setStage n v s).net = s.net := rfl
@[simp] theorem setStage_ing (n : Nat) (v : Stage) (s : State) : (setStage n v s).ing = s.ing := rfl
@[simp] theorem setStage_aln (n : Nat) (v : Stage) (s : State) : (setStage n v s).aln = s.aln := rfl
@[simp] theorem setStage_osc (n : Nat) (v : Stage) (s : State) : (setStage n v s).osc = s.osc := rfl
@[simp] theorem setStage_isl (n : Nat) (v : Stage) (s : State) : (setStage n v s).isl = s.isl := rfl
@[simp] theorem setStage_cap (n : Nat) (v : Stage) (s : State) : (setStage n v s).cap = s.cap := rfl
@[simp] theorem setStage_sage (n : Nat) (v : Stage) (s : State) : (setStage n v s).sage = s.sage := rfl
@[simp] theorem setStage_eq (n : Nat) (v : Stage) (s : State) : (setStage n v s).eq = s.eq := rfl
@[simp] theorem setStage_voc (n : Nat) (v : Stage) (s : State) : (setStage n v s).voc = s.voc := rfl
@[simp] theorem setStage_sor (n : Nat) (v : Stage) (s : State) : (setStage n v s).sor = s.sor := rfl
@[simp] theorem setStage_yar (n : Nat) (v : Stage) (s : State) : (setStage n v s).yar = s.yar := rfl
@[simp] theorem setStage_cf (n : Nat) (v : Stage) (s : State) : (setStage n v s).cf = s.cf := rfl
@[simp] theorem setStage_dill (n : Nat) (v : Stage) (s : State) : (setStage n v s).dill = s.dill := rfl
@[simp] theorem setStage_jtag (n : Nat) (v : Stage) (s : State) : (setStage n v s).jtag = s.jtag := rfl
@[simp] theorem setStage_cnt (n : Nat) (v : Stage) (s : State) : (setStage n v s).cnt = s.cnt := rfl
@[simp] theorem setStage_free (n : Nat) (v : Stage) (s : State) : (setStage n v s).free = s.free := rfl
@[simp] theorem setStage_shadow (n : Nat) (v : Stage) (s : State) : (setStage n v s).shadow = s.shadow := rfl
@[simp] theorem setStage_pending (n : Nat) (v : Stage) (s : State) : (setStage n v s).pending = s.pending := rfl

@[simp] theorem modStage_dev (n : Nat) (f : Stage → Stage) (s : State) : (modStage n f s).dev = s.dev := rfl
@[simp] theorem modStage_clk (n : Nat) (f : Stage → Stage) (s : State) : (modStage n f s).clk = s.clk := rfl
@[simp] theorem modStage_host (n : Nat) (f : Stage → Stage) (s : State) : (modStage n f s).host = s.host := rfl
@[simp] theorem modStage_pop (n : Nat) (f : Stage → Stage) (s : State) : (modStage n f s).pop = s.pop := rfl
@[simp] theorem modStage_net (n : Nat) (f : Stage → Stage) (s : State) : (modStage n f s).net = s.net := rfl
@[simp] theorem modStage_ing (n : Nat) (f : Stage → Stage) (s : State) : (modStage n f s).ing = s.ing := rfl
@[simp] theorem modStage_aln (n : Nat) (f : Stage → Stage) (s : State) : (modStage n f s).aln = s.aln := rfl
@[simp] theorem modStage_osc (n : Nat) (f : Stage → Stage) (s : State) : (modStage n f s).osc = s.osc := rfl
@[simp] theorem modStage_isl (n : Nat) (f : Stage → Stage) (s : State) : (modStage n f s).isl = s.isl := rfl
@[simp] theorem modStage_cap (n : Nat) (f : Stage → Stage) (s : State) : (modStage n f s).cap = s.cap := rfl
@[simp] theorem modStage_sage (n : Nat) (f : Stage → Stage) (s : State) : (modStage n f s).sage = s.sage := rfl
@[simp] theorem modStage_eq (n : Nat) (f : Stage → Stage) (s : State) : (modStage n f s).eq = s.eq := rfl
@[simp] theorem modStage_voc (n : Nat) (f : Stage → Stage) (s : State) : (modStage n f s).voc = s.voc := rfl
@[simp] theorem modStage_sor (n : Nat) (f : Stage → Stage) (s : State) : (modStage n f s).sor = s.sor := rfl
@[simp] theorem modStage_yar (n : Nat) (f : Stage → Stage) (s : State) : (modStage n f s).yar = s.yar := rfl
@[simp] theorem modStage_cf (n : Nat) (f : Stage → Stage) (s : State) : (modStage n f s).cf = s.cf := rfl
@[simp] theorem modStage_dill (n : Nat) (f : Stage → Stage) (s : State) : (modStage n f s).dill = s.dill := rfl
@[simp] theorem modStage_jtag (n : Nat) (f : Stage → Stage) (s : State) : (modStage n f s).jtag = s.jtag := rfl
@[simp] theorem modStage_cnt (n : Nat) (f : Stage → Stage) (s : State) : (modStage n f s).cnt = s.cnt := rfl
@[simp] theorem modStage_free (n : Nat) (f : Stage → Stage) (s : State) : (modStage n f s).free = s.free := rfl
@[simp] theorem modStage_shadow (n : Nat) (f : Stage → Stage) (s : State) : (modStage n f s).shadow = s.shadow := rfl
@[simp] theorem modStage_pending (n : Nat) (f : Stage → Stage) (s : State) : (modStage n f s).pending = s.pending := rfl

@[simp] theorem modClu_dev (c : Nat) (f : Clu → Clu) (s : State) : (modClu c f s).dev = s.dev := rfl
@[simp] theorem modClu_clk (c : Nat) (f : Clu → Clu) (s : State) : (modClu c f s).clk = s.clk := rfl
@[simp] theorem modClu_host (c : Nat) (f : Clu → Clu) (s : State) : (modClu c f s).host = s.host := rfl
@[simp] theorem modClu_pop (c : Nat) (f : Clu → Clu) (s : State) : (modClu c f s).pop = s.pop := rfl
@[simp] theorem modClu_net (c : Nat) (f : Clu → Clu) (s : State) : (modClu c f s).net = s.net := rfl
@[simp] theorem modClu_ing (c : Nat) (f : Clu → Clu) (s : State) : (modClu c f s).ing = s.ing := rfl
@[simp] theorem modClu_aln (c : Nat) (f : Clu → Clu) (s : State) : (modClu c f s).aln = s.aln := rfl
@[simp] theorem modClu_osc (c : Nat) (f : Clu → Clu) (s : State) : (modClu c f s).osc = s.osc := rfl
@[simp] theorem modClu_alm (c : Nat) (f : Clu → Clu) (s : State) : (modClu c f s).alm = s.alm := rfl
@[simp] theorem modClu_cap (c : Nat) (f : Clu → Clu) (s : State) : (modClu c f s).cap = s.cap := rfl
@[simp] theorem modClu_sage (c : Nat) (f : Clu → Clu) (s : State) : (modClu c f s).sage = s.sage := rfl
@[simp] theorem modClu_eq (c : Nat) (f : Clu → Clu) (s : State) : (modClu c f s).eq = s.eq := rfl
@[simp] theorem modClu_voc (c : Nat) (f : Clu → Clu) (s : State) : (modClu c f s).voc = s.voc := rfl
@[simp] theorem modClu_sor (c : Nat) (f : Clu → Clu) (s : State) : (modClu c f s).sor = s.sor := rfl
@[simp] theorem modClu_yar (c : Nat) (f : Clu → Clu) (s : State) : (modClu c f s).yar = s.yar := rfl
@[simp] theorem modClu_cf (c : Nat) (f : Clu → Clu) (s : State) : (modClu c f s).cf = s.cf := rfl
@[simp] theorem modClu_dill (c : Nat) (f : Clu → Clu) (s : State) : (modClu c f s).dill = s.dill := rfl
@[simp] theorem modClu_jtag (c : Nat) (f : Clu → Clu) (s : State) : (modClu c f s).jtag = s.jtag := rfl
@[simp] theorem modClu_cnt (c : Nat) (f : Clu → Clu) (s : State) : (modClu c f s).cnt = s.cnt := rfl
@[simp] theorem modClu_free (c : Nat) (f : Clu → Clu) (s : State) : (modClu c f s).free = s.free := rfl
@[simp] theorem modClu_shadow (c : Nat) (f : Clu → Clu) (s : State) : (modClu c f s).shadow = s.shadow := rfl
@[simp] theorem modClu_pending (c : Nat) (f : Clu → Clu) (s : State) : (modClu c f s).pending = s.pending := rfl

@[simp] theorem setScr_dev (ch : Nat) (c : ScrChan) (s : State) : (setScr ch c s).dev = s.dev := rfl
@[simp] theorem setScr_clk (ch : Nat) (c : ScrChan) (s : State) : (setScr ch c s).clk = s.clk := rfl
@[simp] theorem setScr_host (ch : Nat) (c : ScrChan) (s : State) : (setScr ch c s).host = s.host := rfl
@[simp] theorem setScr_pop (ch : Nat) (c : ScrChan) (s : State) : (setScr ch c s).pop = s.pop := rfl
@[simp] theorem setScr_net (ch : Nat) (c : ScrChan) (s : State) : (setScr ch c s).net = s.net := rfl
@[simp] theorem setScr_ing (ch : Nat) (c : ScrChan) (s : State) : (setScr ch c s).ing = s.ing := rfl
@[simp] theorem setScr_aln (ch : Nat) (c : ScrChan) (s : State) : (setScr ch c s).aln = s.aln := rfl
@[simp] theorem setScr_isl (ch : Nat) (c : ScrChan) (s : State) : (setScr ch c s).isl = s.isl := rfl
@[simp] theorem setScr_alm (ch : Nat) (c : ScrChan) (s : State) : (setScr ch c s).alm = s.alm := rfl
@[simp] theorem setScr_cap (ch : Nat) (c : ScrChan) (s : State) : (setScr ch c s).cap = s.cap := rfl
@[simp] theorem setScr_sage (ch : Nat) (c : ScrChan) (s : State) : (setScr ch c s).sage = s.sage := rfl
@[simp] theorem setScr_eq (ch : Nat) (c : ScrChan) (s : State) : (setScr ch c s).eq = s.eq := rfl
@[simp] theorem setScr_voc (ch : Nat) (c : ScrChan) (s : State) : (setScr ch c s).voc = s.voc := rfl
@[simp] theorem setScr_sor (ch : Nat) (c : ScrChan) (s : State) : (setScr ch c s).sor = s.sor := rfl
@[simp] theorem setScr_yar (ch : Nat) (c : ScrChan) (s : State) : (setScr ch c s).yar = s.yar := rfl
@[simp] theorem setScr_cf (ch : Nat) (c : ScrChan) (s : State) : (setScr ch c s).cf = s.cf := rfl
@[simp] theorem setScr_dill (ch : Nat) (c : ScrChan) (s : State) : (setScr ch c s).dill = s.dill := rfl
@[simp] theorem setScr_jtag (ch : Nat) (c : ScrChan) (s : State) : (setScr ch c s).jtag = s.jtag := rfl
@[simp] theorem setScr_cnt (ch : Nat) (c : ScrChan) (s : State) : (setScr ch c s).cnt = s.cnt := rfl
@[simp] theorem setScr_free (ch : Nat) (c : ScrChan) (s : State) : (setScr ch c s).free = s.free := rfl
@[simp] theorem setScr_shadow (ch : Nat) (c : ScrChan) (s : State) : (setScr ch c s).shadow = s.shadow := rfl
@[simp] theorem setScr_pending (ch : Nat) (c : ScrChan) (s : State) : (setScr ch c s).pending = s.pending := rfl

@[simp] theorem modSlot_dev (n : Nat) (f : EstSlot → EstSlot) (s : State) : (modSlot n f s).dev = s.dev := rfl
@[simp] theorem modSlot_clk (n : Nat) (f : EstSlot → EstSlot) (s : State) : (modSlot n f s).clk = s.clk := rfl
@[simp] theorem modSlot_host (n : Nat) (f : EstSlot → EstSlot) (s : State) : (modSlot n f s).host = s.host := rfl
@[simp] theorem modSlot_pop (n : Nat) (f : EstSlot → EstSlot) (s : State) : (modSlot n f s).pop = s.pop := rfl
@[simp] theorem modSlot_net (n : Nat) (f : EstSlot → EstSlot) (s : State) : (modSlot n f s).net = s.net := rfl
@[simp] theorem modSlot_ing (n : Nat) (f : EstSlot → EstSlot) (s : State) : (modSlot n f s).ing = s.ing := rfl
@[simp] theorem modSlot_aln (n : Nat) (f : EstSlot → EstSlot) (s : State) : (modSlot n f s).aln = s.aln := rfl
@[simp] theorem modSlot_isl (n : Nat) (f : EstSlot → EstSlot) (s : State) : (modSlot n f s).isl = s.isl := rfl
@[simp] theorem modSlot_alm (n : Nat) (f : EstSlot → EstSlot) (s : State) : (modSlot n f s).alm = s.alm := rfl
@[simp] theorem modSlot_cap (n : Nat) (f : EstSlot → EstSlot) (s : State) : (modSlot n f s).cap = s.cap := rfl
@[simp] theorem modSlot_sage (n : Nat) (f : EstSlot → EstSlot) (s : State) : (modSlot n f s).sage = s.sage := rfl
@[simp] theorem modSlot_eq (n : Nat) (f : EstSlot → EstSlot) (s : State) : (modSlot n f s).eq = s.eq := rfl
@[simp] theorem modSlot_voc (n : Nat) (f : EstSlot → EstSlot) (s : State) : (modSlot n f s).voc = s.voc := rfl
@[simp] theorem modSlot_sor (n : Nat) (f : EstSlot → EstSlot) (s : State) : (modSlot n f s).sor = s.sor := rfl
@[simp] theorem modSlot_yar (n : Nat) (f : EstSlot → EstSlot) (s : State) : (modSlot n f s).yar = s.yar := rfl
@[simp] theorem modSlot_cf (n : Nat) (f : EstSlot → EstSlot) (s : State) : (modSlot n f s).cf = s.cf := rfl
@[simp] theorem modSlot_dill (n : Nat) (f : EstSlot → EstSlot) (s : State) : (modSlot n f s).dill = s.dill := rfl
@[simp] theorem modSlot_jtag (n : Nat) (f : EstSlot → EstSlot) (s : State) : (modSlot n f s).jtag = s.jtag := rfl
@[simp] theorem modSlot_cnt (n : Nat) (f : EstSlot → EstSlot) (s : State) : (modSlot n f s).cnt = s.cnt := rfl
@[simp] theorem modSlot_free (n : Nat) (f : EstSlot → EstSlot) (s : State) : (modSlot n f s).free = s.free := rfl
@[simp] theorem modSlot_shadow (n : Nat) (f : EstSlot → EstSlot) (s : State) : (modSlot n f s).shadow = s.shadow := rfl
@[simp] theorem modSlot_pending (n : Nat) (f : EstSlot → EstSlot) (s : State) : (modSlot n f s).pending = s.pending := rfl

@[simp] theorem modMode_dev (m : Nat) (f : Mode → Mode) (s : State) : (modMode m f s).dev = s.dev := rfl
@[simp] theorem modMode_clk (m : Nat) (f : Mode → Mode) (s : State) : (modMode m f s).clk = s.clk := rfl
@[simp] theorem modMode_host (m : Nat) (f : Mode → Mode) (s : State) : (modMode m f s).host = s.host := rfl
@[simp] theorem modMode_pop (m : Nat) (f : Mode → Mode) (s : State) : (modMode m f s).pop = s.pop := rfl
@[simp] theorem modMode_net (m : Nat) (f : Mode → Mode) (s : State) : (modMode m f s).net = s.net := rfl
@[simp] theorem modMode_ing (m : Nat) (f : Mode → Mode) (s : State) : (modMode m f s).ing = s.ing := rfl
@[simp] theorem modMode_aln (m : Nat) (f : Mode → Mode) (s : State) : (modMode m f s).aln = s.aln := rfl
@[simp] theorem modMode_isl (m : Nat) (f : Mode → Mode) (s : State) : (modMode m f s).isl = s.isl := rfl
@[simp] theorem modMode_alm (m : Nat) (f : Mode → Mode) (s : State) : (modMode m f s).alm = s.alm := rfl
@[simp] theorem modMode_cap (m : Nat) (f : Mode → Mode) (s : State) : (modMode m f s).cap = s.cap := rfl
@[simp] theorem modMode_sage (m : Nat) (f : Mode → Mode) (s : State) : (modMode m f s).sage = s.sage := rfl
@[simp] theorem modMode_eq (m : Nat) (f : Mode → Mode) (s : State) : (modMode m f s).eq = s.eq := rfl
@[simp] theorem modMode_voc (m : Nat) (f : Mode → Mode) (s : State) : (modMode m f s).voc = s.voc := rfl
@[simp] theorem modMode_sor (m : Nat) (f : Mode → Mode) (s : State) : (modMode m f s).sor = s.sor := rfl
@[simp] theorem modMode_yar (m : Nat) (f : Mode → Mode) (s : State) : (modMode m f s).yar = s.yar := rfl
@[simp] theorem modMode_cf (m : Nat) (f : Mode → Mode) (s : State) : (modMode m f s).cf = s.cf := rfl
@[simp] theorem modMode_dill (m : Nat) (f : Mode → Mode) (s : State) : (modMode m f s).dill = s.dill := rfl
@[simp] theorem modMode_jtag (m : Nat) (f : Mode → Mode) (s : State) : (modMode m f s).jtag = s.jtag := rfl
@[simp] theorem modMode_cnt (m : Nat) (f : Mode → Mode) (s : State) : (modMode m f s).cnt = s.cnt := rfl
@[simp] theorem modMode_free (m : Nat) (f : Mode → Mode) (s : State) : (modMode m f s).free = s.free := rfl
@[simp] theorem modMode_shadow (m : Nat) (f : Mode → Mode) (s : State) : (modMode m f s).shadow = s.shadow := rfl
@[simp] theorem modMode_pending (m : Nat) (f : Mode → Mode) (s : State) : (modMode m f s).pending = s.pending := rfl

@[simp] theorem setMp_dev (m : Nat) (v : SgMp) (s : State) : (setMp m v s).dev = s.dev := rfl
@[simp] theorem setMp_clk (m : Nat) (v : SgMp) (s : State) : (setMp m v s).clk = s.clk := rfl
@[simp] theorem setMp_host (m : Nat) (v : SgMp) (s : State) : (setMp m v s).host = s.host := rfl
@[simp] theorem setMp_pop (m : Nat) (v : SgMp) (s : State) : (setMp m v s).pop = s.pop := rfl
@[simp] theorem setMp_net (m : Nat) (v : SgMp) (s : State) : (setMp m v s).net = s.net := rfl
@[simp] theorem setMp_ing (m : Nat) (v : SgMp) (s : State) : (setMp m v s).ing = s.ing := rfl
@[simp] theorem setMp_aln (m : Nat) (v : SgMp) (s : State) : (setMp m v s).aln = s.aln := rfl
@[simp] theorem setMp_osc (m : Nat) (v : SgMp) (s : State) : (setMp m v s).osc = s.osc := rfl
@[simp] theorem setMp_isl (m : Nat) (v : SgMp) (s : State) : (setMp m v s).isl = s.isl := rfl
@[simp] theorem setMp_alm (m : Nat) (v : SgMp) (s : State) : (setMp m v s).alm = s.alm := rfl
@[simp] theorem setMp_cap (m : Nat) (v : SgMp) (s : State) : (setMp m v s).cap = s.cap := rfl
@[simp] theorem setMp_eq (m : Nat) (v : SgMp) (s : State) : (setMp m v s).eq = s.eq := rfl
@[simp] theorem setMp_voc (m : Nat) (v : SgMp) (s : State) : (setMp m v s).voc = s.voc := rfl
@[simp] theorem setMp_sor (m : Nat) (v : SgMp) (s : State) : (setMp m v s).sor = s.sor := rfl
@[simp] theorem setMp_yar (m : Nat) (v : SgMp) (s : State) : (setMp m v s).yar = s.yar := rfl
@[simp] theorem setMp_cf (m : Nat) (v : SgMp) (s : State) : (setMp m v s).cf = s.cf := rfl
@[simp] theorem setMp_dill (m : Nat) (v : SgMp) (s : State) : (setMp m v s).dill = s.dill := rfl
@[simp] theorem setMp_jtag (m : Nat) (v : SgMp) (s : State) : (setMp m v s).jtag = s.jtag := rfl
@[simp] theorem setMp_cnt (m : Nat) (v : SgMp) (s : State) : (setMp m v s).cnt = s.cnt := rfl
@[simp] theorem setMp_free (m : Nat) (v : SgMp) (s : State) : (setMp m v s).free = s.free := rfl
@[simp] theorem setMp_shadow (m : Nat) (v : SgMp) (s : State) : (setMp m v s).shadow = s.shadow := rfl
@[simp] theorem setMp_pending (m : Nat) (v : SgMp) (s : State) : (setMp m v s).pending = s.pending := rfl

@[simp] theorem modMp_dev (m : Nat) (f : SgMp → SgMp) (s : State) : (modMp m f s).dev = s.dev := rfl
@[simp] theorem modMp_clk (m : Nat) (f : SgMp → SgMp) (s : State) : (modMp m f s).clk = s.clk := rfl
@[simp] theorem modMp_host (m : Nat) (f : SgMp → SgMp) (s : State) : (modMp m f s).host = s.host := rfl
@[simp] theorem modMp_pop (m : Nat) (f : SgMp → SgMp) (s : State) : (modMp m f s).pop = s.pop := rfl
@[simp] theorem modMp_net (m : Nat) (f : SgMp → SgMp) (s : State) : (modMp m f s).net = s.net := rfl
@[simp] theorem modMp_ing (m : Nat) (f : SgMp → SgMp) (s : State) : (modMp m f s).ing = s.ing := rfl
@[simp] theorem modMp_aln (m : Nat) (f : SgMp → SgMp) (s : State) : (modMp m f s).aln = s.aln := rfl
@[simp] theorem modMp_osc (m : Nat) (f : SgMp → SgMp) (s : State) : (modMp m f s).osc = s.osc := rfl
@[simp] theorem modMp_isl (m : Nat) (f : SgMp → SgMp) (s : State) : (modMp m f s).isl = s.isl := rfl
@[simp] theorem modMp_alm (m : Nat) (f : SgMp → SgMp) (s : State) : (modMp m f s).alm = s.alm := rfl
@[simp] theorem modMp_cap (m : Nat) (f : SgMp → SgMp) (s : State) : (modMp m f s).cap = s.cap := rfl
@[simp] theorem modMp_eq (m : Nat) (f : SgMp → SgMp) (s : State) : (modMp m f s).eq = s.eq := rfl
@[simp] theorem modMp_voc (m : Nat) (f : SgMp → SgMp) (s : State) : (modMp m f s).voc = s.voc := rfl
@[simp] theorem modMp_sor (m : Nat) (f : SgMp → SgMp) (s : State) : (modMp m f s).sor = s.sor := rfl
@[simp] theorem modMp_yar (m : Nat) (f : SgMp → SgMp) (s : State) : (modMp m f s).yar = s.yar := rfl
@[simp] theorem modMp_cf (m : Nat) (f : SgMp → SgMp) (s : State) : (modMp m f s).cf = s.cf := rfl
@[simp] theorem modMp_dill (m : Nat) (f : SgMp → SgMp) (s : State) : (modMp m f s).dill = s.dill := rfl
@[simp] theorem modMp_jtag (m : Nat) (f : SgMp → SgMp) (s : State) : (modMp m f s).jtag = s.jtag := rfl
@[simp] theorem modMp_cnt (m : Nat) (f : SgMp → SgMp) (s : State) : (modMp m f s).cnt = s.cnt := rfl
@[simp] theorem modMp_free (m : Nat) (f : SgMp → SgMp) (s : State) : (modMp m f s).free = s.free := rfl
@[simp] theorem modMp_shadow (m : Nat) (f : SgMp → SgMp) (s : State) : (modMp m f s).shadow = s.shadow := rfl
@[simp] theorem modMp_pending (m : Nat) (f : SgMp → SgMp) (s : State) : (modMp m f s).pending = s.pending := rfl

@[simp] theorem setCf_dev (c : CfBlk) (s : State) : (setCf c s).dev = s.dev := rfl
@[simp] theorem setCf_clk (c : CfBlk) (s : State) : (setCf c s).clk = s.clk := rfl
@[simp] theorem setCf_host (c : CfBlk) (s : State) : (setCf c s).host = s.host := rfl
@[simp] theorem setCf_pop (c : CfBlk) (s : State) : (setCf c s).pop = s.pop := rfl
@[simp] theorem setCf_net (c : CfBlk) (s : State) : (setCf c s).net = s.net := rfl
@[simp] theorem setCf_ing (c : CfBlk) (s : State) : (setCf c s).ing = s.ing := rfl
@[simp] theorem setCf_aln (c : CfBlk) (s : State) : (setCf c s).aln = s.aln := rfl
@[simp] theorem setCf_osc (c : CfBlk) (s : State) : (setCf c s).osc = s.osc := rfl
@[simp] theorem setCf_isl (c : CfBlk) (s : State) : (setCf c s).isl = s.isl := rfl
@[simp] theorem setCf_alm (c : CfBlk) (s : State) : (setCf c s).alm = s.alm := rfl
@[simp] theorem setCf_cap (c : CfBlk) (s : State) : (setCf c s).cap = s.cap := rfl
@[simp] theorem setCf_sage (c : CfBlk) (s : State) : (setCf c s).sage = s.sage := rfl
@[simp] theorem setCf_eq (c : CfBlk) (s : State) : (setCf c s).eq = s.eq := rfl
@[simp] theorem setCf_voc (c : CfBlk) (s : State) : (setCf c s).voc = s.voc := rfl
@[simp] theorem setCf_sor (c : CfBlk) (s : State) : (setCf c s).sor = s.sor := rfl
@[simp] theorem setCf_yar (c : CfBlk) (s : State) : (setCf c s).yar = s.yar := rfl
@[simp] theorem setCf_dill (c : CfBlk) (s : State) : (setCf c s).dill = s.dill := rfl
@[simp] theorem setCf_jtag (c : CfBlk) (s : State) : (setCf c s).jtag = s.jtag := rfl
@[simp] theorem setCf_cnt (c : CfBlk) (s : State) : (setCf c s).cnt = s.cnt := rfl
@[simp] theorem setCf_free (c : CfBlk) (s : State) : (setCf c s).free = s.free := rfl
@[simp] theorem setCf_shadow (c : CfBlk) (s : State) : (setCf c s).shadow = s.shadow := rfl
@[simp] theorem setCf_pending (c : CfBlk) (s : State) : (setCf c s).pending = s.pending := rfl

@[simp] theorem modCf_dev (f : CfBlk → CfBlk) (s : State) : (modCf f s).dev = s.dev := rfl
@[simp] theorem modCf_clk (f : CfBlk → CfBlk) (s : State) : (modCf f s).clk = s.clk := rfl
@[simp] theorem modCf_host (f : CfBlk → CfBlk) (s : State) : (modCf f s).host = s.host := rfl
@[simp] theorem modCf_pop (f : CfBlk → CfBlk) (s : State) : (modCf f s).pop = s.pop := rfl
@[simp] theorem modCf_net (f : CfBlk → CfBlk) (s : State) : (modCf f s).net = s.net := rfl
@[simp] theorem modCf_ing (f : CfBlk → CfBlk) (s : State) : (modCf f s).ing = s.ing := rfl
@[simp] theorem modCf_aln (f : CfBlk → CfBlk) (s : State) : (modCf f s).aln = s.aln := rfl
@[simp] theorem modCf_osc (f : CfBlk → CfBlk) (s : State) : (modCf f s).osc = s.osc := rfl
@[simp] theorem modCf_isl (f : CfBlk → CfBlk) (s : State) : (modCf f s).isl = s.isl := rfl
@[simp] theorem modCf_alm (f : CfBlk → CfBlk) (s : State) : (modCf f s).alm = s.alm := rfl
@[simp] theorem modCf_cap (f : CfBlk → CfBlk) (s : State) : (modCf f s).cap = s.cap := rfl
@[simp] theorem modCf_sage (f : CfBlk → CfBlk) (s : State) : (modCf f s).sage = s.sage := rfl
@[simp] theorem modCf_eq (f : CfBlk → CfBlk) (s : State) : (modCf f s).eq = s.eq := rfl
@[simp] theorem modCf_voc (f : CfBlk → CfBlk) (s : State) : (modCf f s).voc = s.voc := rfl
@[simp] theorem modCf_sor (f : CfBlk → CfBlk) (s : State) : (modCf f s).sor = s.sor := rfl
@[simp] theorem modCf_yar (f : CfBlk → CfBlk) (s : State) : (modCf f s).yar = s.yar := rfl
@[simp] theorem modCf_dill (f : CfBlk → CfBlk) (s : State) : (modCf f s).dill = s.dill := rfl
@[simp] theorem modCf_jtag (f : CfBlk → CfBlk) (s : State) : (modCf f s).jtag = s.jtag := rfl
@[simp] theorem modCf_cnt (f : CfBlk → CfBlk) (s : State) : (modCf f s).cnt = s.cnt := rfl
@[simp] theorem modCf_free (f : CfBlk → CfBlk) (s : State) : (modCf f s).free = s.free := rfl
@[simp] theorem modCf_shadow (f : CfBlk → CfBlk) (s : State) : (modCf f s).shadow = s.shadow := rfl
@[simp] theorem modCf_pending (f : CfBlk → CfBlk) (s : State) : (modCf f s).pending = s.pending := rfl

@[simp] theorem modNode_dev (k : Nat) (f : Node → Node) (s : State) : (modNode k f s).dev = s.dev := rfl
@[simp] theorem modNode_clk (k : Nat) (f : Node → Node) (s : State) : (modNode k f s).clk = s.clk := rfl
@[simp] theorem modNode_host (k : Nat) (f : Node → Node) (s : State) : (modNode k f s).host = s.host := rfl
@[simp] theorem modNode_pop (k : Nat) (f : Node → Node) (s : State) : (modNode k f s).pop = s.pop := rfl
@[simp] theorem modNode_net (k : Nat) (f : Node → Node) (s : State) : (modNode k f s).net = s.net := rfl
@[simp] theorem modNode_ing (k : Nat) (f : Node → Node) (s : State) : (modNode k f s).ing = s.ing := rfl
@[simp] theorem modNode_aln (k : Nat) (f : Node → Node) (s : State) : (modNode k f s).aln = s.aln := rfl
@[simp] theorem modNode_osc (k : Nat) (f : Node → Node) (s : State) : (modNode k f s).osc = s.osc := rfl
@[simp] theorem modNode_isl (k : Nat) (f : Node → Node) (s : State) : (modNode k f s).isl = s.isl := rfl
@[simp] theorem modNode_alm (k : Nat) (f : Node → Node) (s : State) : (modNode k f s).alm = s.alm := rfl
@[simp] theorem modNode_cap (k : Nat) (f : Node → Node) (s : State) : (modNode k f s).cap = s.cap := rfl
@[simp] theorem modNode_sage (k : Nat) (f : Node → Node) (s : State) : (modNode k f s).sage = s.sage := rfl
@[simp] theorem modNode_eq (k : Nat) (f : Node → Node) (s : State) : (modNode k f s).eq = s.eq := rfl
@[simp] theorem modNode_voc (k : Nat) (f : Node → Node) (s : State) : (modNode k f s).voc = s.voc := rfl
@[simp] theorem modNode_sor (k : Nat) (f : Node → Node) (s : State) : (modNode k f s).sor = s.sor := rfl
@[simp] theorem modNode_yar (k : Nat) (f : Node → Node) (s : State) : (modNode k f s).yar = s.yar := rfl
@[simp] theorem modNode_dill (k : Nat) (f : Node → Node) (s : State) : (modNode k f s).dill = s.dill := rfl
@[simp] theorem modNode_jtag (k : Nat) (f : Node → Node) (s : State) : (modNode k f s).jtag = s.jtag := rfl
@[simp] theorem modNode_cnt (k : Nat) (f : Node → Node) (s : State) : (modNode k f s).cnt = s.cnt := rfl
@[simp] theorem modNode_free (k : Nat) (f : Node → Node) (s : State) : (modNode k f s).free = s.free := rfl
@[simp] theorem modNode_shadow (k : Nat) (f : Node → Node) (s : State) : (modNode k f s).shadow = s.shadow := rfl
@[simp] theorem modNode_pending (k : Nat) (f : Node → Node) (s : State) : (modNode k f s).pending = s.pending := rfl

@[simp] theorem setEq_dev (m : Nat) (v : EqMp) (s : State) : (setEq m v s).dev = s.dev := rfl
@[simp] theorem setEq_clk (m : Nat) (v : EqMp) (s : State) : (setEq m v s).clk = s.clk := rfl
@[simp] theorem setEq_host (m : Nat) (v : EqMp) (s : State) : (setEq m v s).host = s.host := rfl
@[simp] theorem setEq_pop (m : Nat) (v : EqMp) (s : State) : (setEq m v s).pop = s.pop := rfl
@[simp] theorem setEq_net (m : Nat) (v : EqMp) (s : State) : (setEq m v s).net = s.net := rfl
@[simp] theorem setEq_ing (m : Nat) (v : EqMp) (s : State) : (setEq m v s).ing = s.ing := rfl
@[simp] theorem setEq_aln (m : Nat) (v : EqMp) (s : State) : (setEq m v s).aln = s.aln := rfl
@[simp] theorem setEq_osc (m : Nat) (v : EqMp) (s : State) : (setEq m v s).osc = s.osc := rfl
@[simp] theorem setEq_isl (m : Nat) (v : EqMp) (s : State) : (setEq m v s).isl = s.isl := rfl
@[simp] theorem setEq_alm (m : Nat) (v : EqMp) (s : State) : (setEq m v s).alm = s.alm := rfl
@[simp] theorem setEq_cap (m : Nat) (v : EqMp) (s : State) : (setEq m v s).cap = s.cap := rfl
@[simp] theorem setEq_sage (m : Nat) (v : EqMp) (s : State) : (setEq m v s).sage = s.sage := rfl
@[simp] theorem setEq_voc (m : Nat) (v : EqMp) (s : State) : (setEq m v s).voc = s.voc := rfl
@[simp] theorem setEq_sor (m : Nat) (v : EqMp) (s : State) : (setEq m v s).sor = s.sor := rfl
@[simp] theorem setEq_yar (m : Nat) (v : EqMp) (s : State) : (setEq m v s).yar = s.yar := rfl
@[simp] theorem setEq_cf (m : Nat) (v : EqMp) (s : State) : (setEq m v s).cf = s.cf := rfl
@[simp] theorem setEq_dill (m : Nat) (v : EqMp) (s : State) : (setEq m v s).dill = s.dill := rfl
@[simp] theorem setEq_jtag (m : Nat) (v : EqMp) (s : State) : (setEq m v s).jtag = s.jtag := rfl
@[simp] theorem setEq_cnt (m : Nat) (v : EqMp) (s : State) : (setEq m v s).cnt = s.cnt := rfl
@[simp] theorem setEq_free (m : Nat) (v : EqMp) (s : State) : (setEq m v s).free = s.free := rfl
@[simp] theorem setEq_shadow (m : Nat) (v : EqMp) (s : State) : (setEq m v s).shadow = s.shadow := rfl
@[simp] theorem setEq_pending (m : Nat) (v : EqMp) (s : State) : (setEq m v s).pending = s.pending := rfl

@[simp] theorem modEq_dev (m : Nat) (f : EqMp → EqMp) (s : State) : (modEq m f s).dev = s.dev := rfl
@[simp] theorem modEq_clk (m : Nat) (f : EqMp → EqMp) (s : State) : (modEq m f s).clk = s.clk := rfl
@[simp] theorem modEq_host (m : Nat) (f : EqMp → EqMp) (s : State) : (modEq m f s).host = s.host := rfl
@[simp] theorem modEq_pop (m : Nat) (f : EqMp → EqMp) (s : State) : (modEq m f s).pop = s.pop := rfl
@[simp] theorem modEq_net (m : Nat) (f : EqMp → EqMp) (s : State) : (modEq m f s).net = s.net := rfl
@[simp] theorem modEq_ing (m : Nat) (f : EqMp → EqMp) (s : State) : (modEq m f s).ing = s.ing := rfl
@[simp] theorem modEq_aln (m : Nat) (f : EqMp → EqMp) (s : State) : (modEq m f s).aln = s.aln := rfl
@[simp] theorem modEq_osc (m : Nat) (f : EqMp → EqMp) (s : State) : (modEq m f s).osc = s.osc := rfl
@[simp] theorem modEq_isl (m : Nat) (f : EqMp → EqMp) (s : State) : (modEq m f s).isl = s.isl := rfl
@[simp] theorem modEq_alm (m : Nat) (f : EqMp → EqMp) (s : State) : (modEq m f s).alm = s.alm := rfl
@[simp] theorem modEq_cap (m : Nat) (f : EqMp → EqMp) (s : State) : (modEq m f s).cap = s.cap := rfl
@[simp] theorem modEq_sage (m : Nat) (f : EqMp → EqMp) (s : State) : (modEq m f s).sage = s.sage := rfl
@[simp] theorem modEq_voc (m : Nat) (f : EqMp → EqMp) (s : State) : (modEq m f s).voc = s.voc := rfl
@[simp] theorem modEq_sor (m : Nat) (f : EqMp → EqMp) (s : State) : (modEq m f s).sor = s.sor := rfl
@[simp] theorem modEq_yar (m : Nat) (f : EqMp → EqMp) (s : State) : (modEq m f s).yar = s.yar := rfl
@[simp] theorem modEq_cf (m : Nat) (f : EqMp → EqMp) (s : State) : (modEq m f s).cf = s.cf := rfl
@[simp] theorem modEq_dill (m : Nat) (f : EqMp → EqMp) (s : State) : (modEq m f s).dill = s.dill := rfl
@[simp] theorem modEq_jtag (m : Nat) (f : EqMp → EqMp) (s : State) : (modEq m f s).jtag = s.jtag := rfl
@[simp] theorem modEq_cnt (m : Nat) (f : EqMp → EqMp) (s : State) : (modEq m f s).cnt = s.cnt := rfl
@[simp] theorem modEq_free (m : Nat) (f : EqMp → EqMp) (s : State) : (modEq m f s).free = s.free := rfl
@[simp] theorem modEq_shadow (m : Nat) (f : EqMp → EqMp) (s : State) : (modEq m f s).shadow = s.shadow := rfl
@[simp] theorem modEq_pending (m : Nat) (f : EqMp → EqMp) (s : State) : (modEq m f s).pending = s.pending := rfl

@[simp] theorem setBReg_dev (b : Nat) (v : BReg) (s : State) : (setBReg b v s).dev = s.dev := rfl
@[simp] theorem setBReg_clk (b : Nat) (v : BReg) (s : State) : (setBReg b v s).clk = s.clk := rfl
@[simp] theorem setBReg_host (b : Nat) (v : BReg) (s : State) : (setBReg b v s).host = s.host := rfl
@[simp] theorem setBReg_pop (b : Nat) (v : BReg) (s : State) : (setBReg b v s).pop = s.pop := rfl
@[simp] theorem setBReg_net (b : Nat) (v : BReg) (s : State) : (setBReg b v s).net = s.net := rfl
@[simp] theorem setBReg_ing (b : Nat) (v : BReg) (s : State) : (setBReg b v s).ing = s.ing := rfl
@[simp] theorem setBReg_aln (b : Nat) (v : BReg) (s : State) : (setBReg b v s).aln = s.aln := rfl
@[simp] theorem setBReg_osc (b : Nat) (v : BReg) (s : State) : (setBReg b v s).osc = s.osc := rfl
@[simp] theorem setBReg_isl (b : Nat) (v : BReg) (s : State) : (setBReg b v s).isl = s.isl := rfl
@[simp] theorem setBReg_alm (b : Nat) (v : BReg) (s : State) : (setBReg b v s).alm = s.alm := rfl
@[simp] theorem setBReg_cap (b : Nat) (v : BReg) (s : State) : (setBReg b v s).cap = s.cap := rfl
@[simp] theorem setBReg_sage (b : Nat) (v : BReg) (s : State) : (setBReg b v s).sage = s.sage := rfl
@[simp] theorem setBReg_voc (b : Nat) (v : BReg) (s : State) : (setBReg b v s).voc = s.voc := rfl
@[simp] theorem setBReg_sor (b : Nat) (v : BReg) (s : State) : (setBReg b v s).sor = s.sor := rfl
@[simp] theorem setBReg_yar (b : Nat) (v : BReg) (s : State) : (setBReg b v s).yar = s.yar := rfl
@[simp] theorem setBReg_cf (b : Nat) (v : BReg) (s : State) : (setBReg b v s).cf = s.cf := rfl
@[simp] theorem setBReg_dill (b : Nat) (v : BReg) (s : State) : (setBReg b v s).dill = s.dill := rfl
@[simp] theorem setBReg_jtag (b : Nat) (v : BReg) (s : State) : (setBReg b v s).jtag = s.jtag := rfl
@[simp] theorem setBReg_cnt (b : Nat) (v : BReg) (s : State) : (setBReg b v s).cnt = s.cnt := rfl
@[simp] theorem setBReg_free (b : Nat) (v : BReg) (s : State) : (setBReg b v s).free = s.free := rfl
@[simp] theorem setBReg_shadow (b : Nat) (v : BReg) (s : State) : (setBReg b v s).shadow = s.shadow := rfl
@[simp] theorem setBReg_pending (b : Nat) (v : BReg) (s : State) : (setBReg b v s).pending = s.pending := rfl

@[simp] theorem setPulse_dev (k : Nat) (v : Pulse) (s : State) : (setPulse k v s).dev = s.dev := rfl
@[simp] theorem setPulse_clk (k : Nat) (v : Pulse) (s : State) : (setPulse k v s).clk = s.clk := rfl
@[simp] theorem setPulse_host (k : Nat) (v : Pulse) (s : State) : (setPulse k v s).host = s.host := rfl
@[simp] theorem setPulse_pop (k : Nat) (v : Pulse) (s : State) : (setPulse k v s).pop = s.pop := rfl
@[simp] theorem setPulse_net (k : Nat) (v : Pulse) (s : State) : (setPulse k v s).net = s.net := rfl
@[simp] theorem setPulse_ing (k : Nat) (v : Pulse) (s : State) : (setPulse k v s).ing = s.ing := rfl
@[simp] theorem setPulse_aln (k : Nat) (v : Pulse) (s : State) : (setPulse k v s).aln = s.aln := rfl
@[simp] theorem setPulse_osc (k : Nat) (v : Pulse) (s : State) : (setPulse k v s).osc = s.osc := rfl
@[simp] theorem setPulse_isl (k : Nat) (v : Pulse) (s : State) : (setPulse k v s).isl = s.isl := rfl
@[simp] theorem setPulse_alm (k : Nat) (v : Pulse) (s : State) : (setPulse k v s).alm = s.alm := rfl
@[simp] theorem setPulse_cap (k : Nat) (v : Pulse) (s : State) : (setPulse k v s).cap = s.cap := rfl
@[simp] theorem setPulse_sage (k : Nat) (v : Pulse) (s : State) : (setPulse k v s).sage = s.sage := rfl
@[simp] theorem setPulse_voc (k : Nat) (v : Pulse) (s : State) : (setPulse k v s).voc = s.voc := rfl
@[simp] theorem setPulse_sor (k : Nat) (v : Pulse) (s : State) : (setPulse k v s).sor = s.sor := rfl
@[simp] theorem setPulse_yar (k : Nat) (v : Pulse) (s : State) : (setPulse k v s).yar = s.yar := rfl
@[simp] theorem setPulse_cf (k : Nat) (v : Pulse) (s : State) : (setPulse k v s).cf = s.cf := rfl
@[simp] theorem setPulse_dill (k : Nat) (v : Pulse) (s : State) : (setPulse k v s).dill = s.dill := rfl
@[simp] theorem setPulse_jtag (k : Nat) (v : Pulse) (s : State) : (setPulse k v s).jtag = s.jtag := rfl
@[simp] theorem setPulse_cnt (k : Nat) (v : Pulse) (s : State) : (setPulse k v s).cnt = s.cnt := rfl
@[simp] theorem setPulse_free (k : Nat) (v : Pulse) (s : State) : (setPulse k v s).free = s.free := rfl
@[simp] theorem setPulse_shadow (k : Nat) (v : Pulse) (s : State) : (setPulse k v s).shadow = s.shadow := rfl
@[simp] theorem setPulse_pending (k : Nat) (v : Pulse) (s : State) : (setPulse k v s).pending = s.pending := rfl

@[simp] theorem setGap_dev (m : Nat) (s : State) : (setGap m s).dev = s.dev := rfl
@[simp] theorem setGap_clk (m : Nat) (s : State) : (setGap m s).clk = s.clk := rfl
@[simp] theorem setGap_host (m : Nat) (s : State) : (setGap m s).host = s.host := rfl
@[simp] theorem setGap_pop (m : Nat) (s : State) : (setGap m s).pop = s.pop := rfl
@[simp] theorem setGap_net (m : Nat) (s : State) : (setGap m s).net = s.net := rfl
@[simp] theorem setGap_ing (m : Nat) (s : State) : (setGap m s).ing = s.ing := rfl
@[simp] theorem setGap_aln (m : Nat) (s : State) : (setGap m s).aln = s.aln := rfl
@[simp] theorem setGap_osc (m : Nat) (s : State) : (setGap m s).osc = s.osc := rfl
@[simp] theorem setGap_isl (m : Nat) (s : State) : (setGap m s).isl = s.isl := rfl
@[simp] theorem setGap_alm (m : Nat) (s : State) : (setGap m s).alm = s.alm := rfl
@[simp] theorem setGap_cap (m : Nat) (s : State) : (setGap m s).cap = s.cap := rfl
@[simp] theorem setGap_sage (m : Nat) (s : State) : (setGap m s).sage = s.sage := rfl
@[simp] theorem setGap_voc (m : Nat) (s : State) : (setGap m s).voc = s.voc := rfl
@[simp] theorem setGap_sor (m : Nat) (s : State) : (setGap m s).sor = s.sor := rfl
@[simp] theorem setGap_yar (m : Nat) (s : State) : (setGap m s).yar = s.yar := rfl
@[simp] theorem setGap_cf (m : Nat) (s : State) : (setGap m s).cf = s.cf := rfl
@[simp] theorem setGap_dill (m : Nat) (s : State) : (setGap m s).dill = s.dill := rfl
@[simp] theorem setGap_jtag (m : Nat) (s : State) : (setGap m s).jtag = s.jtag := rfl
@[simp] theorem setGap_cnt (m : Nat) (s : State) : (setGap m s).cnt = s.cnt := rfl
@[simp] theorem setGap_free (m : Nat) (s : State) : (setGap m s).free = s.free := rfl
@[simp] theorem setGap_shadow (m : Nat) (s : State) : (setGap m s).shadow = s.shadow := rfl
@[simp] theorem setGap_pending (m : Nat) (s : State) : (setGap m s).pending = s.pending := rfl

@[simp] theorem modJob_dev (j : Nat) (f : Job → Job) (s : State) : (modJob j f s).dev = s.dev := rfl
@[simp] theorem modJob_clk (j : Nat) (f : Job → Job) (s : State) : (modJob j f s).clk = s.clk := rfl
@[simp] theorem modJob_host (j : Nat) (f : Job → Job) (s : State) : (modJob j f s).host = s.host := rfl
@[simp] theorem modJob_pop (j : Nat) (f : Job → Job) (s : State) : (modJob j f s).pop = s.pop := rfl
@[simp] theorem modJob_net (j : Nat) (f : Job → Job) (s : State) : (modJob j f s).net = s.net := rfl
@[simp] theorem modJob_ing (j : Nat) (f : Job → Job) (s : State) : (modJob j f s).ing = s.ing := rfl
@[simp] theorem modJob_aln (j : Nat) (f : Job → Job) (s : State) : (modJob j f s).aln = s.aln := rfl
@[simp] theorem modJob_osc (j : Nat) (f : Job → Job) (s : State) : (modJob j f s).osc = s.osc := rfl
@[simp] theorem modJob_isl (j : Nat) (f : Job → Job) (s : State) : (modJob j f s).isl = s.isl := rfl
@[simp] theorem modJob_alm (j : Nat) (f : Job → Job) (s : State) : (modJob j f s).alm = s.alm := rfl
@[simp] theorem modJob_cap (j : Nat) (f : Job → Job) (s : State) : (modJob j f s).cap = s.cap := rfl
@[simp] theorem modJob_sage (j : Nat) (f : Job → Job) (s : State) : (modJob j f s).sage = s.sage := rfl
@[simp] theorem modJob_eq (j : Nat) (f : Job → Job) (s : State) : (modJob j f s).eq = s.eq := rfl
@[simp] theorem modJob_voc (j : Nat) (f : Job → Job) (s : State) : (modJob j f s).voc = s.voc := rfl
@[simp] theorem modJob_sor (j : Nat) (f : Job → Job) (s : State) : (modJob j f s).sor = s.sor := rfl
@[simp] theorem modJob_yar (j : Nat) (f : Job → Job) (s : State) : (modJob j f s).yar = s.yar := rfl
@[simp] theorem modJob_cf (j : Nat) (f : Job → Job) (s : State) : (modJob j f s).cf = s.cf := rfl
@[simp] theorem modJob_jtag (j : Nat) (f : Job → Job) (s : State) : (modJob j f s).jtag = s.jtag := rfl
@[simp] theorem modJob_cnt (j : Nat) (f : Job → Job) (s : State) : (modJob j f s).cnt = s.cnt := rfl
@[simp] theorem modJob_free (j : Nat) (f : Job → Job) (s : State) : (modJob j f s).free = s.free := rfl
@[simp] theorem modJob_shadow (j : Nat) (f : Job → Job) (s : State) : (modJob j f s).shadow = s.shadow := rfl
@[simp] theorem modJob_pending (j : Nat) (f : Job → Job) (s : State) : (modJob j f s).pending = s.pending := rfl

@[simp] theorem setPtp_dev (k : Nat) (v : PtpPort) (s : State) : (setPtp k v s).dev = s.dev := rfl
@[simp] theorem setPtp_host (k : Nat) (v : PtpPort) (s : State) : (setPtp k v s).host = s.host := rfl
@[simp] theorem setPtp_pop (k : Nat) (v : PtpPort) (s : State) : (setPtp k v s).pop = s.pop := rfl
@[simp] theorem setPtp_net (k : Nat) (v : PtpPort) (s : State) : (setPtp k v s).net = s.net := rfl
@[simp] theorem setPtp_ing (k : Nat) (v : PtpPort) (s : State) : (setPtp k v s).ing = s.ing := rfl
@[simp] theorem setPtp_aln (k : Nat) (v : PtpPort) (s : State) : (setPtp k v s).aln = s.aln := rfl
@[simp] theorem setPtp_osc (k : Nat) (v : PtpPort) (s : State) : (setPtp k v s).osc = s.osc := rfl
@[simp] theorem setPtp_isl (k : Nat) (v : PtpPort) (s : State) : (setPtp k v s).isl = s.isl := rfl
@[simp] theorem setPtp_alm (k : Nat) (v : PtpPort) (s : State) : (setPtp k v s).alm = s.alm := rfl
@[simp] theorem setPtp_cap (k : Nat) (v : PtpPort) (s : State) : (setPtp k v s).cap = s.cap := rfl
@[simp] theorem setPtp_sage (k : Nat) (v : PtpPort) (s : State) : (setPtp k v s).sage = s.sage := rfl
@[simp] theorem setPtp_eq (k : Nat) (v : PtpPort) (s : State) : (setPtp k v s).eq = s.eq := rfl
@[simp] theorem setPtp_voc (k : Nat) (v : PtpPort) (s : State) : (setPtp k v s).voc = s.voc := rfl
@[simp] theorem setPtp_sor (k : Nat) (v : PtpPort) (s : State) : (setPtp k v s).sor = s.sor := rfl
@[simp] theorem setPtp_yar (k : Nat) (v : PtpPort) (s : State) : (setPtp k v s).yar = s.yar := rfl
@[simp] theorem setPtp_cf (k : Nat) (v : PtpPort) (s : State) : (setPtp k v s).cf = s.cf := rfl
@[simp] theorem setPtp_dill (k : Nat) (v : PtpPort) (s : State) : (setPtp k v s).dill = s.dill := rfl
@[simp] theorem setPtp_jtag (k : Nat) (v : PtpPort) (s : State) : (setPtp k v s).jtag = s.jtag := rfl
@[simp] theorem setPtp_cnt (k : Nat) (v : PtpPort) (s : State) : (setPtp k v s).cnt = s.cnt := rfl
@[simp] theorem setPtp_free (k : Nat) (v : PtpPort) (s : State) : (setPtp k v s).free = s.free := rfl
@[simp] theorem setPtp_shadow (k : Nat) (v : PtpPort) (s : State) : (setPtp k v s).shadow = s.shadow := rfl
@[simp] theorem setPtp_pending (k : Nat) (v : PtpPort) (s : State) : (setPtp k v s).pending = s.pending := rfl

@[simp] theorem setWin_dev (p : HP) (n : Nat) (s : State) : (setWin p n s).dev = s.dev := rfl
@[simp] theorem setWin_clk (p : HP) (n : Nat) (s : State) : (setWin p n s).clk = s.clk := rfl
@[simp] theorem setWin_host (p : HP) (n : Nat) (s : State) : (setWin p n s).host = s.host := rfl
@[simp] theorem setWin_net (p : HP) (n : Nat) (s : State) : (setWin p n s).net = s.net := rfl
@[simp] theorem setWin_ing (p : HP) (n : Nat) (s : State) : (setWin p n s).ing = s.ing := rfl
@[simp] theorem setWin_aln (p : HP) (n : Nat) (s : State) : (setWin p n s).aln = s.aln := rfl
@[simp] theorem setWin_osc (p : HP) (n : Nat) (s : State) : (setWin p n s).osc = s.osc := rfl
@[simp] theorem setWin_isl (p : HP) (n : Nat) (s : State) : (setWin p n s).isl = s.isl := rfl
@[simp] theorem setWin_alm (p : HP) (n : Nat) (s : State) : (setWin p n s).alm = s.alm := rfl
@[simp] theorem setWin_cap (p : HP) (n : Nat) (s : State) : (setWin p n s).cap = s.cap := rfl
@[simp] theorem setWin_sage (p : HP) (n : Nat) (s : State) : (setWin p n s).sage = s.sage := rfl
@[simp] theorem setWin_eq (p : HP) (n : Nat) (s : State) : (setWin p n s).eq = s.eq := rfl
@[simp] theorem setWin_voc (p : HP) (n : Nat) (s : State) : (setWin p n s).voc = s.voc := rfl
@[simp] theorem setWin_sor (p : HP) (n : Nat) (s : State) : (setWin p n s).sor = s.sor := rfl
@[simp] theorem setWin_yar (p : HP) (n : Nat) (s : State) : (setWin p n s).yar = s.yar := rfl
@[simp] theorem setWin_cf (p : HP) (n : Nat) (s : State) : (setWin p n s).cf = s.cf := rfl
@[simp] theorem setWin_dill (p : HP) (n : Nat) (s : State) : (setWin p n s).dill = s.dill := rfl
@[simp] theorem setWin_jtag (p : HP) (n : Nat) (s : State) : (setWin p n s).jtag = s.jtag := rfl
@[simp] theorem setWin_cnt (p : HP) (n : Nat) (s : State) : (setWin p n s).cnt = s.cnt := rfl
@[simp] theorem setWin_free (p : HP) (n : Nat) (s : State) : (setWin p n s).free = s.free := rfl
@[simp] theorem setWin_shadow (p : HP) (n : Nat) (s : State) : (setWin p n s).shadow = s.shadow := rfl
@[simp] theorem setWin_pending (p : HP) (n : Nat) (s : State) : (setWin p n s).pending = s.pending := rfl

@[simp] theorem setDefaults_dev (rate burst : Nat) (s : State) : (setDefaults rate burst s).dev = s.dev := rfl
@[simp] theorem setDefaults_clk (rate burst : Nat) (s : State) : (setDefaults rate burst s).clk = s.clk := rfl
@[simp] theorem setDefaults_host (rate burst : Nat) (s : State) : (setDefaults rate burst s).host = s.host := rfl
@[simp] theorem setDefaults_net (rate burst : Nat) (s : State) : (setDefaults rate burst s).net = s.net := rfl
@[simp] theorem setDefaults_ing (rate burst : Nat) (s : State) : (setDefaults rate burst s).ing = s.ing := rfl
@[simp] theorem setDefaults_aln (rate burst : Nat) (s : State) : (setDefaults rate burst s).aln = s.aln := rfl
@[simp] theorem setDefaults_osc (rate burst : Nat) (s : State) : (setDefaults rate burst s).osc = s.osc := rfl
@[simp] theorem setDefaults_isl (rate burst : Nat) (s : State) : (setDefaults rate burst s).isl = s.isl := rfl
@[simp] theorem setDefaults_alm (rate burst : Nat) (s : State) : (setDefaults rate burst s).alm = s.alm := rfl
@[simp] theorem setDefaults_cap (rate burst : Nat) (s : State) : (setDefaults rate burst s).cap = s.cap := rfl
@[simp] theorem setDefaults_sage (rate burst : Nat) (s : State) : (setDefaults rate burst s).sage = s.sage := rfl
@[simp] theorem setDefaults_eq (rate burst : Nat) (s : State) : (setDefaults rate burst s).eq = s.eq := rfl
@[simp] theorem setDefaults_voc (rate burst : Nat) (s : State) : (setDefaults rate burst s).voc = s.voc := rfl
@[simp] theorem setDefaults_sor (rate burst : Nat) (s : State) : (setDefaults rate burst s).sor = s.sor := rfl
@[simp] theorem setDefaults_yar (rate burst : Nat) (s : State) : (setDefaults rate burst s).yar = s.yar := rfl
@[simp] theorem setDefaults_cf (rate burst : Nat) (s : State) : (setDefaults rate burst s).cf = s.cf := rfl
@[simp] theorem setDefaults_dill (rate burst : Nat) (s : State) : (setDefaults rate burst s).dill = s.dill := rfl
@[simp] theorem setDefaults_jtag (rate burst : Nat) (s : State) : (setDefaults rate burst s).jtag = s.jtag := rfl
@[simp] theorem setDefaults_cnt (rate burst : Nat) (s : State) : (setDefaults rate burst s).cnt = s.cnt := rfl
@[simp] theorem setDefaults_free (rate burst : Nat) (s : State) : (setDefaults rate burst s).free = s.free := rfl
@[simp] theorem setDefaults_shadow (rate burst : Nat) (s : State) : (setDefaults rate burst s).shadow = s.shadow := rfl
@[simp] theorem setDefaults_pending (rate burst : Nat) (s : State) : (setDefaults rate burst s).pending = s.pending := rfl

@[simp] theorem setJob_dev (id : Nat) (j : CapJob) (s : State) : (setJob id j s).dev = s.dev := rfl
@[simp] theorem setJob_clk (id : Nat) (j : CapJob) (s : State) : (setJob id j s).clk = s.clk := rfl
@[simp] theorem setJob_host (id : Nat) (j : CapJob) (s : State) : (setJob id j s).host = s.host := rfl
@[simp] theorem setJob_pop (id : Nat) (j : CapJob) (s : State) : (setJob id j s).pop = s.pop := rfl
@[simp] theorem setJob_net (id : Nat) (j : CapJob) (s : State) : (setJob id j s).net = s.net := rfl
@[simp] theorem setJob_ing (id : Nat) (j : CapJob) (s : State) : (setJob id j s).ing = s.ing := rfl
@[simp] theorem setJob_aln (id : Nat) (j : CapJob) (s : State) : (setJob id j s).aln = s.aln := rfl
@[simp] theorem setJob_osc (id : Nat) (j : CapJob) (s : State) : (setJob id j s).osc = s.osc := rfl
@[simp] theorem setJob_isl (id : Nat) (j : CapJob) (s : State) : (setJob id j s).isl = s.isl := rfl
@[simp] theorem setJob_alm (id : Nat) (j : CapJob) (s : State) : (setJob id j s).alm = s.alm := rfl
@[simp] theorem setJob_sage (id : Nat) (j : CapJob) (s : State) : (setJob id j s).sage = s.sage := rfl
@[simp] theorem setJob_eq (id : Nat) (j : CapJob) (s : State) : (setJob id j s).eq = s.eq := rfl
@[simp] theorem setJob_voc (id : Nat) (j : CapJob) (s : State) : (setJob id j s).voc = s.voc := rfl
@[simp] theorem setJob_sor (id : Nat) (j : CapJob) (s : State) : (setJob id j s).sor = s.sor := rfl
@[simp] theorem setJob_yar (id : Nat) (j : CapJob) (s : State) : (setJob id j s).yar = s.yar := rfl
@[simp] theorem setJob_cf (id : Nat) (j : CapJob) (s : State) : (setJob id j s).cf = s.cf := rfl
@[simp] theorem setJob_dill (id : Nat) (j : CapJob) (s : State) : (setJob id j s).dill = s.dill := rfl
@[simp] theorem setJob_jtag (id : Nat) (j : CapJob) (s : State) : (setJob id j s).jtag = s.jtag := rfl
@[simp] theorem setJob_cnt (id : Nat) (j : CapJob) (s : State) : (setJob id j s).cnt = s.cnt := rfl
@[simp] theorem setJob_free (id : Nat) (j : CapJob) (s : State) : (setJob id j s).free = s.free := rfl
@[simp] theorem setJob_shadow (id : Nat) (j : CapJob) (s : State) : (setJob id j s).shadow = s.shadow := rfl
@[simp] theorem setJob_pending (id : Nat) (j : CapJob) (s : State) : (setJob id j s).pending = s.pending := rfl

end Sys2Proof.Machine
end

