-- ==== Sys2Proof/Machine/Pins.lean ====
section
/-!
DEFINITION. What the output pins show (R460, Table 18.4): a function of state, before READY and from READY on.
-/

namespace Sys2Proof.Machine

/-- What a pin shows. A running pin carries a clock; an idle one is a transmitter at electrical idle. -/
inductive PinLevel where
  | highZ | low | high | running | idle
  deriving DecidableEq, Repr

def PinLevel.of (b : Bool) : PinLevel := if b then .high else .low

def isReady (s : State) : Bool := decide (s.dev.boot = .ready)

/-- A pin that is at high impedance while PORN is low, and has a level of its own before READY. -/
def pinWith (s : State) (before after : PinLevel) : PinLevel :=
  if s.dev.porn = false then .highZ else if isReady s then after else before

/-- An alarm output is driven from the first enable on, with its polarity (R221). -/
def almPin (s : State) (n : Nat) : PinLevel :=
  let v := getStage s n
  pinWith s .highZ (if v.everEnabled then .of (v.pin != v.activeLow) else .highZ)

/-- A pulse output is driven from the first enable on (R297), active while a pulse runs (R298). -/
def plsPin (s : State) (k : Nat) : PinLevel :=
  let v := getPulse s k
  pinWith s .highZ (if v.everEnabled then .of ((v.activeUntil.elim false (fun t => decide (elNs s < t))) != v.activeLow) else .highZ)

def ppsPin (s : State) : PinLevel := pinWith s .low (.of s.clk.ppsOut)

/-- MD_CLKj: low until stage 6, then running where it is enabled (Table 10.7). -/
def mdClkPin (s : State) (j : Nat) : PinLevel :=
  let run : PinLevel := if s.sage.clkEn.getLsbD j then .running else .low
  pinWith s (if 6 ≤ s.dev.stage then run else .low) run

/-- TDM_CLK and TDM_FS run while the clock of R314 does. -/
def tdmClkPin (s : State) : PinLevel := pinWith s .low (if s.voc.clkEl.isSome then .running else .low)

def cfRstPin (s : State) : PinLevel := pinWith s .low (.of (cfRstLevel s))

/-- The radio SPI is idle between sequences. -/
def cfSckPin (s : State) : PinLevel := pinWith s .low .low
def cfCsPin (s : State) : PinLevel := pinWith s .high .high

/-- The transmitter of a port: at electrical idle, or with TX_EN low, until PORT-CONFIG enables the port. -/
def portTxPin (s : State) (k : Nat) : PinLevel :=
  if k < 4 then (if isReady s ∧ (getPort s k).enable then .running else .idle)
  else pinWith s .low (if (getPort s k).enable then .running else .low)

end Sys2Proof.Machine
end

