-- ==== Sys2Proof/Tests/Slice0.lean ====
section
/-!
SUPPORT. Tests: a machine for tests, the checks of well-formed terms, single steps with expected results worked out from the spec, and for
every statement with hypotheses a state and operands that meet them, clause by clause.
-/

open Sys2Proof Sys2Proof.Machine

namespace Sys2Proof.Tests

set_option Elab.async false

/-! ### A machine for tests -/

/-- A device that is READY with HP0 as controller, a long time after reset. -/
def rdy : State :=
  { State.reset with
    dev := { DevBlk.init with boot := .ready, dramMib := 65536 }
    clk := { ClkBlk.init with adv := 2 ^ 32 * 100000000000000 }
    host := { HostBlk.init with controller := some 0
                                parts := { HostBlk.init.parts with a0 := { Part.init true 4 Quota.limit with link := true, pstate := .healthy } } } }

/-- A header that fits a command, from HP0. -/
def hdr (c : Cmd) : Hdr :=
  { part := 0, urg := false, length := BitVec.ofNat 16 c.len, tag := 1, hpart := 0, hurgent := false, hcontrol := decide (c.cls = .control), rsv := 0 }

/-- An Announce. -/
def annMsg : AnnounceMsg := ⟨0, 7, 128, 6, 0x21, 0, 128, 0, 1, 1, true, true, 37, false, false, []⟩

/-- A PTP port with a qualified master and a peer delay request under way, a PPS edge just seen, and links up. -/
def ptpRdy : State :=
  { rdy with
    clk := { rdy.clk with ptpPorts := [(0, { PtpPort.init with master := some annMsg, qual := true, reqTs := some 0 })], fMaster := 1
                          ppsEdge := some (elNs rdy) }
    net := { rdy.net with ports := tset (tset rdy.net.ports 4 { getPort rdy 4 with link := true }) 1 { getPort rdy 1 with link := true } } }

def macRdy : State := { ptpRdy with net := { ptpRdy.net with macBase := some 0x020000000000 } }

/-- Three good PPS edges, the last half a second and more ago. -/
def ppsRdy : State := { rdy with clk := { rdy.clk with timeValid := true, ppsRun := 3, ppsAcc := some 0, sec := 1 } }

/-- A leap second announced. -/
def leapRdy : State := { rdy with clk := { rdy.clk with leap := some ⟨37, false, 0⟩ } }

def irigF : IrigFrame := ⟨true, 0, 0, 0, 1, some 26, none, none, none, none, none, 0⟩
def pdReq : PdelayReq := ⟨0, 0, 0, 0, 0⟩
def pdResp : PdelayResp := ⟨0, 0, 0, 0⟩

def aRing (toDev : Bool) : Ring := ⟨toDev, 256, 0, 0, 0, .unbound, none, [], [], none⟩

/-- A device-to-host ring 0 and a host-to-device ring 1, both free. -/
def ringRdy : State :=
  { rdy with host := { rdy.host with parts := { rdy.host.parts with a0 := { rdy.host.parts.a0 with rings := [(0, aRing false), (1, aRing true)] } } } }

/-- Ports 3, 4 and 12 enabled, their links down. -/
def enRdy : State :=
  { rdy with net := { rdy.net with ports := [(3, { Port.init 3 with enable := true }), (4, { Port.init 4 with enable := true }), (12, { Port.init 12 with enable := true })] } }

def txF : TxFrame := ⟨.c3, 4, false, none, 60, 64, none, false, false, false, 1, 0, 0, .none, 0, .supervision, 0, none, []⟩

/-- A frame on the wire of field port F0. -/
def txRdy : State :=
  { rdy with net := { rdy.net with ports := [(4, { Port.init 4 with enable := true, link := true, wire := some (0, 0) })], frames := [(0, txF)], frameNext := 1 } }

def rxF : RxFrame := ⟨1, 64, true, false, 0xFFFFFFFFFFFF, 5, .other, none, 0, false⟩

def hostTxRing : Ring := { aRing true with use := .frameTx 4, owned := [⟨0, 76, true, true, false⟩] }

/-- A host frame waits in ring 1, bound to field port F0. -/
def hostTxRdy : State :=
  { rdy with host := { rdy.host with parts := { rdy.host.parts with a0 := { rdy.host.parts.a0 with rings := [(1, hostTxRing)] } } }
             net := { rdy.net with binds := [(1, ⟨[], none, 4⟩)] } }

def strAdd : StreamAddP := ⟨1, 0, 7, 1, 5000, 4712, 0, 0, 7, 0, 4, 0⟩
def key0 : StreamKey := ⟨1, 7, 1, 5000, 4712⟩
def cfg0 : C37Cfg := ⟨1000000, [⟨0, 0, 0, [⟨false, ⟨1, 1⟩, ⟨0, 1⟩, 0, 0⟩], [], [], [], true, none⟩], 3, 50⟩

/-- An active stream of one phasor at 50 reports a second. -/
def str0 : Stream :=
  { newStream key0 0 0 4 0 0 false 0 0 with state := .active, active := some cfg0, linkUp := true, descs := (mergeDescs [] (cfgDescs cfg0)).2 }
def strRdy0 : State := { rdy with ing := { rdy.ing with streams := [(0, str0)] } }
/-- The stream on its grid. -/
def strRdy : State := syncGrid 0 strRdy0
def alnStr0 : AlnStream := (tget strRdy.aln.streams 0).getD ⟨0, false, false, 0, 0, 0, none, none⟩
def waitRdy : State := { rdy with ing := { rdy.ing with streams := [(0, { str0 with state := .awaitCfg })] } }
def pauseRdy : State := { rdy with ing := { rdy.ing with streams := [(0, { str0 with state := .paused })] } }
def head0 : C37Head := ⟨0, none, 0, key0, 26, 26, true, 2, true, 0, 0, 0, false, .clean⟩
def dataF : C37Data := ⟨head0, List.replicate 10 0, []⟩
def pub0 : Pub :=
  ⟨false, 0, .enabled, 0, 9, 0, 0, 0, 0, 0, 0, 0, 4713, 0, [], [], 0, 0, 0, 0, 0, 0, 0, 0, [], none, 0, false, 0⟩
def pubRdy : State := { rdy with aln := { rdy.aln with pubs := [(0, pub0)] } }

/-- The grid of 50 reports a second, with a slab open for the stream. -/
def g50 : Nat := (gridOfRate 50).getD 0
def slabTag : Nat := 1000000000
def timely : State :=
  syncGrid 0 { strRdy0 with clk := { rdy.clk with sec := 5, timeValid := true }, aln := { AlnBlk.init with poolMib := 4096 } }
def slabZ : Slab :=
  ⟨0, .forming, .none, ⟨0, 0, 0, 0, 0, 0⟩, [], [], [], [], 0, [], 0, 0, 0, 0, 0, 0, 0, 0, 0, false, [], false, [], 0, false, 0, []⟩
def slabRdy : State := openSlab g50 slabTag timely
def slab0 : Slab := (getSlab slabRdy g50 slabTag).getD slabZ
def slab1 : Slab := { slabZ with state := .final, byTime := true, finalTs := 2 }
def finalRdy : State := setSlab g50 slabTag slab1 { rdy with clk := { rdy.clk with sec := 5, timeValid := true } }
def pubP : PubAddP := ⟨0, BitVec.ofNat 8 g50, 9, 0, 0, 0, 0, 0, 4712, 4713, 100000, 1, 0, [0]⟩
def specRdy : State :=
  openSlab g50 slabTag (modGrid g50 (fun r => { r with cfg := { r.cfg with spec16 := 8 } })
    { timely with clk := { timely.clk with sec := 1, ns := 15000000 } })
def patchRdy : State := modSlab g50 slabTag (fun v => { v with held := [(0, [])] }) finalRdy

/-- A stream of a voltage and a current phasor. -/
def viRdy : State :=
  syncGrid 0 { rdy with ing := { rdy.ing with streams := [(0, { str0 with descs := (mergeDescs [] (cfgDescs
    { cfg0 with blocks := [⟨0, 0, 0, [⟨false, ⟨1, 1⟩, ⟨0, 1⟩, 0, 0⟩, ⟨true, ⟨1, 1⟩, ⟨0, 1⟩, 0, 0⟩], [], [], [], true, none⟩] })).2 })] } }

def slotV : EstSlot :=
  ⟨.active, 0, 0, g50, true, ⟨0, 0, 0, 0, 0, 0, 0⟩, false, false, 0, 0, 0, 0, 0, 0, [], [], .clear, 0, none, 0, 0, 0, ⟨[], [], [], []⟩, [],
   false⟩
/-- An estimator slot, and a slab that the screen has taken with a later one. -/
def slotRdy : State :=
  setSlab g50 slabTag { slab1 with screened := true }
    { finalRdy with osc := { finalRdy.osc with slots := [(0, slotV)], screened := [(g50, 1020000000)] } }

def cluP : ClusterConfigP := ⟨19, 1, 2000, 100, 200, 100, 1, 100, 50, 0⟩
/-- The clusterer on the grid of a stream of a voltage phasor. -/
def cluRdy : State := { viRdy with isl := { viRdy.isl with cfg := { viRdy.isl.cfg with grid := some g50 } } }
/-- A stream whose first block has a digital word. -/
def digRdy : State :=
  { rdy with ing := { rdy.ing with streams := [(0, { str0 with descs := (mergeDescs [] (cfgDescs
    { cfg0 with blocks := [⟨0, 0, 0, [⟨false, ⟨1, 1⟩, ⟨0, 1⟩, 0, 0⟩], [], [0], [0], true, none⟩] })).2 })] } }
def detP : DetectorConfigP := ⟨15, 0, 3600, 5000, 4999, 2000, 60000, 50, 1000, 0, 0, 10, 5000, 0, 0, 18000, 1, 0, 0⟩
def stgP : AlarmStageP := ⟨3, 1, 1, 15, 10000, 0, 1000000, 0x11, 0, 0, 0, 0, 0⟩
def goo0 : Goose :=
  ⟨0, 0, 0, 16, 100, 0x010CCD010000, [], [], [], 0, 0, 1, some 9, 4, false, 0, 0, 0⟩
/-- Stage 3 enabled and inactive. -/
def stgRdy : State := { rdy with alm := { rdy.alm with stages := [(3, { getStage rdy 3 with state := .inactive })] } }
def gooRdy : State := { rdy with alm := { rdy.alm with stages := [(3, { getStage rdy 3 with state := .inactive, goose := true, gse := some goo0 })] } }
def ascii64 : Bytes := 65 :: List.replicate 63 0
def gooP : AlarmGooseConfigP := ⟨3, 0x10, 0x3FFF, 0xEFFF, 16, 10000, 0x010CCD0101FF, ascii64, ascii64, ascii64⟩
def rxRdy : State := { rdy with alm := { rdy.alm with rxPort := 4000 } }
def rxAlm : AlarmRx := ⟨0, 64, 0x4F54414C, 1, 1, 3, 4, 9, 2, 7, 0, 0, false⟩

def capP : CaptureAddP := ⟨2, 1, 7, 2, 60000, 1000, 4000, 0xFF, 0xFF, 2, 7, 0, 0, [⟨1, 0, 6, 0⟩]⟩
def capB : Nat := capBytes [(1, 0, 6)] 60000 1000 4000 2
def capRdy : State := { rdy with cap := { rdy.cap with poolMib := 4096 } }
def cap0 : Cap := newCap (hdr (cmd 0x0901 .openC false 32)) capP capB
/-- A capture of one Sage lane: disarmed, and armed. -/
def capRdy1 : State := { capRdy with cap := { capRdy.cap with caps := [(0, cap0)] } }
def capRdy2 : State := { capRdy with cap := { capRdy.cap with caps := [(0, { cap0 with state := .armed })] } }
def capRdy3 : State := { capRdy with cap := { capRdy.cap with caps := [(0, { cap0 with state := .armed, lanes := [⟨0, 15, 6, [], [], false, none⟩] })] } }
def capLane0 : Lane := ⟨0, g50, 6, [], [], false, none⟩
def capLane1 : Lane := ⟨1, 0, 6, [], [], false, none⟩
def capRdy4 : State :=
  { finalRdy with cap := { capRdy.cap with caps := [(0, { cap0 with state := .armed, lanes := [capLane0] })] } }
def trigE : TrigEntry := ⟨2, 0, 0, false, 0, 0, 0, 0, 0, some 9, false, none, none⟩
def rec0 : RecSlot := { emptyRec with state := .ready }
def asm0 : RecSlot := { emptyRec with condTs := some 0, record := { emptyRec.record with lanes := [⟨1, 0, 0, [], []⟩] } }
def capRec : Cap := { cap0 with slots := [(1, rec0)] }
def recRdy : State := { capRdy with cap := { capRdy.cap with caps := [(0, capRec)] } }
def asmRdy : State := { capRdy with cap := { capRdy.cap with caps := [(0, { capRec with slots := [(1, asm0)] })] } }
def expRdy : State :=
  { recRdy with
    host := { rdy.host with parts := { rdy.host.parts with a0 := { rdy.host.parts.a0 with rings :=
      [(0, { aRing false with use := .halga, owned := [⟨0, 4096, false, false, false⟩] })] } } }
    cap := { recRdy.cap with caps := [(0, { capRec with slots := [(1, { rec0 with state := .ready })] })]
                             jobs := [(5, .exportJob 0 0 1 0 0 0 true)] } }
def expOut : State := (ringWrite 0 0 .halga (exportBytes rec0.record 0).1 expRdy).getD rdy
def impBytes : Bytes := halgaBytes emptyRec.record
def impRing : Ring := { aRing true with use := .halga, owned := [⟨0, 4096, true, true, false⟩] }
def impRdy : State :=
  { capRdy with
    host := { rdy.host with parts := { rdy.host.parts with a0 := { rdy.host.parts.a0 with rings := [(1, impRing)] } } }
    cap := { capRdy.cap with jobs := [(5, .importJob 0 0 1 impBytes.length)] } }
def rtRdy : State := { rdy with cap := { rdy.cap with rtPort := 4000 } }
def rtF : RemoteRx := ⟨0, 32, 0x4F545452, 1, 3, 1, 9, 0, 7, 2, 0, false⟩

/-- Metering point 0 running at 8 kS/s with both banks of 15 taps loaded. -/
def sgMp0 : SgMp :=
  { SgMp.init with enable := true, state := .running, firLen := 15, lenA := 15, lenB := 15, coefA := List.replicate 8 0, coefB := List.replicate 8 1
                   next := 1000000000 }
def sgRun : State :=
  { rdy with clk := { rdy.clk with sec := 5 }, sage := { rdy.sage with mps := [(0, sgMp0)], inputs := [(0, { SgInput.init with dc := .frozen })] } }
def capSage : State := { sgRun with cap := { capRdy.cap with caps := [(0, { cap0 with state := .armed })] } }
def sgLoaded : State := { sgRun with sage := { sgRun.sage with mps := [(15, { SgMp.init with lenA := 15 })] } }
def sgRead : State := { sgRun with sage := { sgRun.sage with inputs := [(0, { SgInput.init with tempSrc := 3, tempId := 16383, tempRead := true, tempApplied := 2500, tempTs := 1 })] } }
def sgLate : State := sgRun
def sgTemp : State := { rdy with sage := { rdy.sage with inputs := [(95, { SgInput.init with tempSrc := 1 })] } }
def sgStale : State := { sgTemp with sage := { sgTemp.sage with inputs := [(95, { SgInput.init with tempSrc := 1, tempRead := true })] }, clk := { rdy.clk with sec := 61 } }
def sgLost : State := { sgRun with sage := { sgRun.sage with inputs := [(0, { SgInput.init with lost := true })] } }
def sgAcq : State := { sgRun with sage := { sgRun.sage with inputs := [(0, { SgInput.init with acq := List.replicate 2560 ⟨1, 1⟩ })] } }
def sgTrack : Tbl SgInput := (List.range 6).map (fun n => (n, { SgInput.init with dc := .track }))
def sgSettle : State := { sgRun with sage := { sgRun.sage with mps := [(0, { sgMp0 with state := .settling })], inputs := sgTrack } }
def sgFade : State := { sgRun with sage := { sgRun.sage with mps := [(0, { sgMp0 with state := .fading, fadePos := 256 })], inputs := sgTrack } }
def pmuStr : Stream := { newStream ⟨4, 0, 0, 0, 0⟩ 0 0 10 0 50 false 0 0 with state := .active, descs := estDescs 4 4 }
def pmuRdy : State := { sgRun with ing := { rdy.ing with streams := [(0, pmuStr)] }, sage := { sgRun.sage with mps := [(0, { sgMp0 with pmu := some 0, pmuRate := 50, pmuNext := 60, next := 2000000000 })] } }
def svF : SvFrame := ⟨0, 0x4000, 5, 0, 1, false, [List.replicate 8 false], false, .clean, [List.replicate 8 0]⟩
def svStr : Stream := { newStream ⟨3, 0x4000, BitVec.ofNat 128 (5 * 2 ^ 80), 0, 0⟩ 0 0 10 0 50 false 0 0 with state := .active, descs := estDescs 4 4 }
def svRdy : State := { rdy with ing := { rdy.ing with streams := [(0, svStr)] } }

def gap0 : GapEntry := ⟨0, 0, .outage, false, false, false, 0, 0, 1, 0, Scale.zero, 0, 255, false⟩
def gapRdy : State := { rdy with eq := { rdy.eq with glog := [(0, gap0)], nextG := 1, mps := [(0, { EqMp.init with gap := true })] } }
def gapRdy2 : State := { gapRdy with eq := { gapRdy.eq with glog := [(0, gap0), (1, { gap0 with seq := 1 })], nextG := 2 } }
def sealLong : LongCmd := ⟨0, false, 1, 0x0B05, 0⟩
def svPaused : State := { rdy with ing := { rdy.ing with streams := [(0, { svStr with state := .paused })] } }
def sealRdy : State := { sgRun with eq := { sgRun.eq with sealReq := some (1, 4) }, host := { sgRun.host with long := [(4, sealLong)] } }
def cycRdy : State :=
  { sgRun with clk := { sgRun.clk with gaMarks := [⟨2, 20000000, 20000000, false⟩, ⟨1, 10000000, 10000000, false⟩, ⟨0, 0, 0, false⟩] }
               eq := { sgRun.eq with mps := [(0, { EqMp.init with udinDv := 2300 })] } }
def pls0 : Pulse := { Pulse.init 31 with enable := true, owed := 2 }
def plsRdy : State := { rdy with eq := { rdy.eq with pulses := [(31, pls0)] } }
def plsRdy2 : State := { rdy with eq := { rdy.eq with pulses := [(31, { pls0 with owed := 1, overEl := some 5 })] } }
def plsRdy3 : State := { rdy with eq := { rdy.eq with pulses := [(31, { pls0 with activeUntil := some 5 })] } }
def savRdy : State := { rdy with eq := { rdy.eq with saving := some true } }

/-- A channel between timeslot 5 of highway 0 and RTP, its line G.711 A-law. -/
def vcfg0 : VoiceCfg :=
  ⟨1, 1, 0, 2, 3, 0, 0, 0, 0, 5, 0, 0, 0xFF, 0xFF, 0xFF, 0xFF, 0, 0, 8, 0, 4000, 5000, 7, 10, 400, 20, 0, 0, 0, 0⟩
def vch0 : VCh := newCh rdy 0 vcfg0 1 2
def vchA : VCh := { vch0 with state := .active }
def vocRdy : State := { rdy with voc := { rdy.voc with chans := [(0, vch0)] } }
def vocAct : State := { rdy with voc := { rdy.voc with chans := [(0, vchA)] } }
def vcfgR : VoiceCfg := { vcfg0 with lineKind := 0, timeslot := 0 }
def vchR : VCh := newCh rdy 0 vcfgR 1 2
def rtpRdyI : State := { rdy with voc := { rdy.voc with chans := [(0, vchR)] } }
def rtpRdy : State := { rdy with voc := { rdy.voc with chans := [(0, { vchR with state := .active })] } }
def vchR2 : VCh := { vchR with state := .active, cfg := { vcfgR with flags := 32 }, nextRtcpEl := 0 }
def rtpRdy2 : State := { rdy with voc := { rdy.voc with chans := [(0, vchR2)] } }
def rtp0 : RtpPacket := ⟨0, 4000, 7, 5000, 2, false, 8, 1, 0, 9, [0xD5], false, false⟩
def tel0 : TelEvent := ⟨15, true, 0, 0, 0, 0, 0, 0⟩
def ann0 : Ann := ⟨false, false, 2, 0, 0, [], some (4, 0, 1)⟩
def annRdy : State := { ringRdy with voc := { rdy.voc with anns := [(63, ann0)] }, host := { ringRdy.host with long := [(4, { sealLong with opcode := 0x0C0A })] } }
def vchM : VCh := { vchR with state := .active, lastRxEl := 0, cfg := { vcfgR with mediaTimeoutMs := 100 } }
def mtoRdy : State := { rdy with voc := { rdy.voc with chans := [(0, vchM)] } }
def vcfgH : VoiceCfg := { vcfg0 with lineKind := 2, timeslot := 0, lineIn := 1, lineOut := 0 }
def vchH : VCh := newCh rdy 0 vcfgH 1 2
def hvRing : Ring := { aRing true with use := .voice, owned := [⟨0, 176, true, true, false⟩] }
def hvRdy : State :=
  { rdy with host := { rdy.host with parts := { rdy.host.parts with a0 := { rdy.host.parts.a0 with rings := [(1, hvRing)] } } }
             voc := { rdy.voc with chans := [(0, vchH)] } }

/-! Core 1 of cluster 0, running. -/
def corC : Core := { Core.init with state := .running, i := [0, 0, 0, 0x10000, 0, 0, 0, 0x20000] }
def corOf (c : Core) : State := { rdy with sor := { rdy.sor with cores := [(1, c)] } }
def corRdy : State := corOf corC
def corTap : State := corOf { corC with i := [0, 0, 0, 0x10000, 0, 0, 0, 0x7FFC] }
def corRet : State := corOf { corC with stack := [8] }
def corFull : State := corOf { corC with stack := [1, 2, 3, 4, 5, 6, 7, 8] }
def corEnd : State := corOf { corC with pc := 0x8000 }
def corXfer : State := corOf { corC with queue := [.dma ⟨true, 0x10000, 0, 4⟩] }
def bun0 : Bundle := ⟨[3], .su, .sat, .fetch (.ind 3), .fetch (.ind 7), none⟩
def kLoadP : KernelLoadP := ⟨0, 1, 1, 0, 256⟩
def outBind : KBind := ⟨1, 0, 0, 0, 0, 0, 0, [], 0, [], 0, []⟩
def kern0 : Kern :=
  { Kern.loading (hdr (cmdLong 0x0D01 .openC false 8)) kLoadP 4 with state := .running, maxCycles := 1000, cores := [1], binds := [(15, outBind)], long := none }
def corKern : State := { rdy with sor := { rdy.sor with cores := [(1, { corC with kernel := some 0 })], kernels := [(0, kern0)] } }
def kernL : Kern := { kern0 with state := .loaded }
def kerRing : State := { ringRdy with sor := { rdy.sor with kernels := [(0, kernL)] } }
def kernI : Kern := { kern0 with state := .loaded, cores := [1] }
def kerIdle : State := { rdy with sor := { rdy.sor with kernels := [(0, kernI)], cores := [(1, { Core.init with kernel := some 0 })] } }
/-- A Beleth image of one core: 4 B of instructions, 1 KiB of scratch, key slot 0. -/
def imgBytes : Bytes := leBytes 4 0x454C4542 ++ leBytes 2 1 ++ leBytes 2 0 ++ leBytes 8 7 ++ leBytes 4 1 ++ [0, 1, 1, 0] ++ leBytes 4 0 ++ leBytes 4 4 ++
  leBytes 4 0 ++ leBytes 4 0 ++ leBytes 4 1 ++ leBytes 4 1000 ++ leBytes 4 4 ++ List.replicate 208 0
def imgIn : BelethIn := ⟨imgBytes, 9, true, true⟩
def kernW : Kern := { Kern.loading (hdr (cmdLong 0x0D01 .openC false 8)) kLoadP 4 with loadSrc := 1 }
def loadRdy : State := { rdy with sor := { rdy.sor with kernels := [(0, kernW)] } }
def kernR : Kern := { kernW with loadSrc := 0, loadBytes := 260 }
def loadFull : State := { rdy with sor := { rdy.sor with kernels := [(0, kernR)], keySlots := [some 9], poolMib := 0 } }
def inBind : KBind := ⟨0, 0, 1, 0, 0, 64, 1, [], 0, [], 0, []⟩
def kernM : Kern := { kern0 with binds := [(0, inBind)] }
def kmsgRing : Ring := { aRing true with use := .kernel 0, owned := [⟨0, 2, true, true, false⟩] }
def kmsgRdy : State :=
  { rdy with host := { rdy.host with parts := { rdy.host.parts with a0 := { rdy.host.parts.a0 with rings := [(1, kmsgRing)] } } }
             sor := { rdy.sor with kernels := [(0, kernM)] } }

/-! The radio: a profile, a node in slot 0 of every superframe. -/
def cfProf : CfProfileP :=
  ⟨1000, 0, 4, 500000, 50, 7, 0, 0, 0xFF, 5, 0, List.replicate 8 ⟨1, 0, [0xF5, 0xFF]⟩, [7]⟩
def cfProfd : State := { rdy with cf := { rdy.cf with profile := some cfProf } }
def node0 : Node :=
  { state := .added, part := 0, mic := 0, misses := 0, eui64 := 9, pollDiv := 1, phase := 0, slot := 0, rxSeq := 0, txSeq := 0, dl := [], ctr := 0
    eSw := none, key := 5, keyNext := none, keyPrev := none, swAt := 0, sinceSw := 0, keyGen := 1, rekeyRaised := false, superMs := 500
    lastRxTs := 0, superEl := 0, handle := none, sensors := [], ack := false, polled := false, responses := 0, missed := 0, dup := 0, micFail := 0
    dlFail := 0 }
def cfNod : State := { cfProfd with cf := { cfProfd.cf with nodes := [(1023, node0)] } }
def cfNodB : State := { cfNod with cf := { cfNod.cf with pollMax := 15 } }
def cfNodM : State := { cfNod with cf := { cfNod.cf with nodes := [(1023, { node0 with handle := some 0 })] }, ing := { rdy.ing with streams := [(0, str0)] } }
def cfStart : State := { cfProfd with cf := { cfProfd.cf with state := .starting } }
def cfRun : State := { cfNod with cf := { cfNod.cf with state := .running, map := ⟨1, 1, 0⟩, originEl := 0 } }
def cfN : Nat := (nextSf cfRun).1
/-- In slot 0 of the current superframe. -/
def cfSlot : State := { cfRun with cf := { cfRun.cf with sfEl := some (elNs rdy - nsOf cfProf (tbN cfProf cfRun.cf)) } }
def cfMiss : State := { cfRun with cf := { cfRun.cf with sfEl := some 0, nodes := [(1023, { node0 with polled := true, misses := 2 })] } }
def cfTx : State := { cfRun with cf := { cfRun.cf with txEl := some 5 } }
def resp0 : CfResponse := ⟨10, true, 1023, 1, 0, true, false, 0, []⟩

/-! A decompression job on a ring that holds one segment. -/
def dilP : DillOpenP := ⟨1, 0, 0, 7, 1, 0, 0, 0, 0, 0, 0, 0⟩
def dilJob : Job :=
  { state := .idle, owner := 0, decomp := true, zlib := false, effort := 0, level := 7, inRing := 1, outRing := 0, absLimit := false, ratio := 1024
    status := 0, limitBytes := 0, inTotal := 0, inBytes := 0, outBytes := 0, adlerA := 1, adlerB := 0, segments := 0, openTs := 0
    notSmaller := false, hist := [], bits := [], inf := .header, comp := 0, pendingIn := [], taken := 0, ran := 0, emit := none
    lastRunEl := elNs rdy, waitEl := none, closing := none, closeReq := false }
def dilSeg : DillSegmentP := ⟨16, 2, 0, 9, 0, [1, 1, 0, 254, 255, 65]⟩
def dilOf (l : Tbl Job) (pipe : Option Nat) : State :=
  { rdy with host := { rdy.host with parts := { rdy.host.parts with a0 := { rdy.host.parts.a0 with rings :=
      [(0, { aRing false with use := .dill 16, owned := [⟨0, 64, true, true, false⟩] }),
       (1, { aRing true with use := .dill 16, owned := [⟨0, 22, true, true, false⟩] })] } } }
             dill := { rdy.dill with jobs := l, decomp := pipe } }
def dilRdy : State := dilOf [(16, dilJob)] none
def dilClose : State := dilOf [(16, { dilJob with closeReq := true })] none
def dilDone : State := dilOf [(16, { dilJob with state := .done })] none
def dilQd (v : Job) : Job := { v with pendingIn := [⟨false, true, 9, false, [1, 1, 0, 254, 255, 65]⟩] }
def dilW : State := dilOf [(16, dilQd dilJob)] none
def dilRun : State := dilOf [(16, { dilJob with state := .running })] (some 16)
def dilRunW : State := dilOf [(16, dilQd { dilJob with state := .running })] (some 16)
def dilBusy : Job := dilQd { dilJob with state := .running, inRing := 2 }
def dilTwo : State := dilOf [(16, dilJob), (17, dilBusy)] (some 17)
def dilTwoW : State := dilOf [(16, dilQd dilJob), (17, dilBusy)] (some 17)
def dilTri : State := dilOf [(16, dilJob), (17, { dilJob with state := .running, inRing := 2 })] (some 17)
def dilTriW : State := dilOf [(16, dilQd dilJob), (17, { dilJob with state := .running, inRing := 2 })] (some 17)

/-! The recorder: a code that is limited, buffered records, writes in progress. -/
def bootC : Bytes := [0, 0, 100] ++ List.replicate 185 0
def limRdy : State := { rdy with pop := { rdy.pop with buckets := [(5, ⟨20, 0, 0, true, 7, 0, 1000⟩)] } }
def rec3 : Rec := { mkRec rdy 5 0x0113 3 [] with num := 5 }
def bufRdy : State := { rdy with pop := { rdy.pop with buffer := [rec3], nextRec := 6 } }
def flRdy : State := beginFlush bufRdy
def otpRdy : State :=
  { rdy with pop := { rdy.pop with otpPending := some (0, bootC, 4, 0) }, host := { rdy.host with long := [(4, { sealLong with opcode := 0x1103 })] } }
def imgW : ImageWrite := ⟨2, 31, 1, 260, some 4, 0⟩
def imgWF : ImageWrite := ⟨0, 0, 1, 256, some 4, 0⟩
def imgRdy : State :=
  { ringRdy with sor := { ringRdy.sor with keySlots := [some 9] }, pop := { rdy.pop with imgPending := [imgW] }, host := { ringRdy.host with long := [(4, { sealLong with opcode := 0x1104 })] } }
def imgRdyF : State := { imgRdy with pop := { imgRdy.pop with imgPending := [imgWF] } }

/-! Boot and power failure. -/

def bootI : BootIn := ⟨true, true, 64, true, true, true, true, true, 8192, 8192, true, true, 0, 0, 0⟩
def bootRdy : State := { rdy with dev := { rdy.dev with boot := .booting } }
def flushRdy : State :=
  { rdy with dev := { rdy.dev with pfailN := false }, eq := { rdy.eq with flushing := true, tf := some 5, flushHdr := some (5, 1) } }
def srstRdy : State := { flushRdy with dev := { flushRdy.dev with srstPending := true, bootIn := some bootI } }
def failRdy : State := { rdy with dev := { rdy.dev with pfailN := false }, eq := { rdy.eq with tf := some 5 } }
def waitBoot : State := { rdy with dev := { rdy.dev with boot := .booting, pfailN := false, pfailWait := true } }
def reqRdy : State := { rdy with dev := { rdy.dev with resetReq := some 2 } }
def recRdyB : State := { rdy with dev := { rdy.dev with boot := .halted, haltCode := 4 } }
def tapRdy : State := { rdy with jtag := { rdy.jtag with tap := .updIr } }

/-! Partition HP0: a snapshot, paths and timers. -/
def hp0Of (f : Part → Part) : State := { rdy with host := { rdy.host with parts := { rdy.host.parts with a0 := f rdy.host.parts.a0 } } }
def snapRdy : State := hp0Of (fun q => { q with snap := { q.snap with state := .valid, gen := 1 } })
def evtRdy : State := hp0Of (fun q => { q with evtProd := 9, evtCons := 4 })
def retRdy : State :=
  { hp0Of (fun q => { q with rings := [(1, { aRing true with retiring := some 4 })] }) with
    host := { (hp0Of (fun q => { q with rings := [(1, { aRing true with retiring := some 4 })] })).host with long := [(4, { sealLong with opcode := 0x0207 })] } }
def pathRdy : State := hp0Of (fun q => { q with v := true, p := true })
def failgRdy : State := hp0Of (fun q => { q with pstate := .failing, failTimer := some 9 })
def retgRdy : State := hp0Of (fun q => { q with pstate := .returning, holdTimer := some 9 })
def takeRdy : State := hp0Of (fun q => { q with takeover := some 9 })
def apN : Nat := (windowSize rdy 5 0 9).getD 0
def apP : ApportionP := ⟨0, 0, 1, 1, 0, 0, 64, 0, 0⟩

/-- A success stands where its option has a value. -/
theorem ok_of {ε α : Type} {r : Except ε α} {x : α} (h : r.toOption = some x) : r = .ok x := by
  cases r <;> simp_all [Except.toOption]

/-! ### Ill-formed terms are refused -/

def pmuBits (n : Nat) : SageBits := ⟨0, List.replicate n []⟩

theorem test_wf_accepts : (Instr.identify (hdr (cmd 0x0101 .openC true 0))).wf = true ∧ (Instr.portLinkUp 12 0 true).wf = true ∧
    (Instr.mac32 0 bun0).wf = true ∧ (Instr.pubAdd (hdr (cmd 0x0604 .openC true 64)) pubP).wf = true := by decide +kernel

theorem test_wf_ports : (Instr.portLinkUp 13 0 false).wf = false ∧ (Instr.portLinkDown 15).wf = false ∧ (Instr.ptpAnnounceRx 14 annMsg).wf = false ∧
    (Instr.ptpSyncRx 13 ⟨0, 0, 0, 0, 0, 0, 0⟩).wf = false ∧ (Instr.pdelayReqRx { pdReq with port := 13 }).wf = false ∧
    (Instr.pdelayRespRx { pdResp with port := 13 }).wf = false ∧ (Instr.pdelayReqTx 13).wf = false ∧ (Instr.ptpMasterTx 15).wf = false ∧
    (Instr.announceReceiptTimeout 13).wf = false ∧ (Instr.frameRx { rxF with port := 13 }).wf = false ∧ (Instr.lanSilence 13).wf = false ∧
    (Instr.prpSupervisionRx 13).wf = false ∧ (Instr.txComplete 13 false).wf = false ∧ (Instr.fieldCollision 13).wf = false ∧
    (Instr.backoffExpiry 13).wf = false ∧ (Instr.carrierSenseDrop 13).wf = false ∧ (Instr.alarmFrameRx { rxAlm with port := 13 }).wf = false ∧
    (Instr.remoteTriggerRx { rtF with port := 13 }).wf = false ∧ (Instr.svFrame { svF with port := 13 }).wf = false := by decide +kernel

theorem test_wf_frames : (Instr.c37DataFrame ⟨{ head0 with port := 13 }, [], []⟩).wf = false ∧
    (Instr.c37CfgFrame ⟨{ head0 with port := 13 }, .cfg2, cfg0⟩).wf = false ∧
    (Instr.c37CfgFrame ⟨head0, .cfg2, { cfg0 with blocks := [⟨0, 0, 0, [⟨false, ⟨1, 0⟩, ⟨0, 1⟩, 0, 0⟩], [], [], [], true, none⟩] }⟩).wf = false ∧
    (Instr.c37CfgFrame ⟨head0, .cfg2, cfg0⟩).wf = true ∧ (Instr.svFrame { svF with samples := [[]] }).wf = false ∧
    (Instr.tdmFrame [⟨0, List.replicate 127 0, [], 0⟩]).wf = false ∧ (Instr.tdmFrame [⟨0, List.replicate 128 0, [128], 0⟩]).wf = false ∧
    (Instr.sageOutputSample (pmuBits 5)).wf = false ∧ (Instr.sageOutputSample (pmuBits 6)).wf = true := by decide +kernel

theorem test_wf_immediates : (Instr.movi 0 (.d 0) 0x200000).wf = false ∧ (Instr.movi 0 (.i 0) 0x1FFFFF).wf = true ∧
    (Instr.addi 0 0 0 0x10000).wf = false ∧ (Instr.addi 0 0 0 0xFFFF8000).wf = true := by decide +kernel

theorem test_wf_payload_lists : (Instr.pubAdd (hdr (cmd 0x0604 .openC true 64)) { pubP with handles := [] }).wf = false ∧
    (Instr.alarmGooseConfig (hdr (cmd 0x080A .openC true 0)) { gooP with goId := [] }).wf = false ∧
    (Instr.captureAdd (hdr (cmd 0x0901 .openC false 32)) { capP with lanes := [] }).wf = false ∧
    (Instr.sageFirLoad (hdr (cmd 0x0A03 .openC false 8)) ⟨0, 0, 15, 0, []⟩).wf = false := by decide +kernel

theorem test_wf_more_lists (h : Hdr) : (∀ p : PubChangeP, (Instr.pubChange h { p with nMembers := 1, handles := [] }).wf = false) ∧
    (∀ p : ClusterRefP, (Instr.clusterRef h { p with ref := [] }).wf = false) ∧
    (∀ p : CaptureSourcesP, (Instr.captureSources h { p with n := 1, entries := [] }).wf = false) ∧
    (∀ p : HalgaMergeP, (Instr.halgaMerge h { p with n := 1, inputs := [] }).wf = false) ∧
    (∀ p : SageTempTableP, (Instr.sageTempTable h { p with points := [] }).wf = false) ∧
    (∀ p : SageTempP, (Instr.sageTemp h { p with n := 1, entries := [] }).wf = false) ∧
    (∀ p : VoiceToneGenP, (Instr.voiceToneGen h { p with n := 1, digits := [] }).wf = false) ∧
    (∀ p : VoiceAnnMapP, (Instr.voiceAnnMapSet h { p with nCh := 1, channels := [] }).wf = false) ∧
    (∀ p : VoiceAnnMapP, (Instr.voiceAnnMapRemove h { p with nCh := 1, channels := [] }).wf = false) ∧
    (∀ p : VoiceAnnPlayP, (Instr.voiceAnnPlay h { p with nCh := 1, channels := [] }).wf = false) ∧
    (∀ p : KernelBindP, (Instr.kernelBindAdd h { p with n := 1, handles := [] }).wf = false) ∧
    (∀ p : KernelBindP, (Instr.kernelBindRemove h { p with n := 1, handles := [] }).wf = false) ∧
    (∀ p : CfProfileP, (Instr.cfXcvrProfile h { p with seqs := [] }).wf = false) ∧
    (∀ p : CfSendP, (Instr.cfSend h { p with len := 1, body := [] }).wf = false) := by
  refine ⟨?_, ?_, ?_, ?_, ?_, ?_, ?_, ?_, ?_, ?_, ?_, ?_, ?_, ?_⟩ <;> intro p <;> simp [Instr.wf, scaleOk]

theorem test_wf_cores : (Instr.dmac32 0 { bun0 with accs := [1, 1] }).wf = false ∧ (Instr.qmac16 0 bun0).wf = false ∧
    (Instr.mac32 0 { bun0 with accs := [] }).wf = false ∧ (Instr.dmac16 0 bun0).wf = false ∧ (Instr.msu 0 .mac32 { bun0 with accs := [3, 3] }).wf = false ∧
    (Instr.clra 0 [0, 1, 2, 3, 0]).wf = false := by decide +kernel

/-! ### Worked examples of the spec -/

/-- After R77: slew_ppm 50 bounds the phase term at 429,496 LSB. -/
theorem test_slew_bound : ppmLsb 50 = 429496 := by decide +kernel

/-- After R107: 1,512 B from the host become 1,522 B on each LAN of a pair, and 40 B become 64 B. -/
theorem test_c37_wire_length : udpLen false 40 + 6 + 4 = 92 := by decide +kernel

/-- After R160: seventy slots of 250,000 streams of 20 channels take 2,802,191,980 B. -/
theorem test_slab_pool : ringBytes 16 1000 250000 5000000 = 2802191980 := by decide +kernel

/-- After R154: lat_q rises from 12,000 µs by 999 µs a frame: 29,982 µs after 18 frames of 30,000 µs. -/
theorem test_latency_rises :
    ((List.replicate 18 30000).foldl (fun v l => learnLat v l) { str0 with latQ := 12000, latN := 100 }).latQ = 29982 := by decide +kernel

/-- After R353: eight 4 B elements in bit-reversed order are at offsets 0, 16, 8, 24, 4, 20, 12 and 28. -/
theorem test_reverse_carry : (List.range 7).foldl (fun l _ => l ++ [revCarry 5 (l.getLast?.getD 0) 16]) [0] = [0, 16, 8, 24, 4, 20, 12, 28] := by
  decide +kernel

/-- After R263: the group delay of the default chain is 2,062 µs, rounded down. -/
theorem test_group_delay : groupDelay rdy SgMp.init / 1000 = 2062 := by decide +kernel

/-- R355: an accumulator update past the guard bits sets AOV; SAT stores the bound, WRAP the sum modulo 2^72. -/
theorem test_guard_overflow : (accPut 0 (2 ^ 71) .sat Core.init).acc[0]? = some (2 ^ 71 - 1) ∧ (accPut 0 (2 ^ 71) .sat Core.init).aov = true ∧
    (accPut 0 (2 ^ 71) .wrap Core.init).acc[0]? = some (-(2 ^ 71)) ∧ (accPut 0 (2 ^ 71 - 1) .sat Core.init).aov = false := by decide +kernel

/-- R14: an opcode of group 0x12 is answered BAD-OPCODE. -/
theorem test_undefined_opcode : (match exec (.undefinedOpcode (hdr (cmd 0x1201 .openC true 0)) 0x1201) rdy with
    | .next t => (mbxOf (hdr (cmd 0x1201 .openC true 0)) t).status | _ => 0) = 3 := by decide +kernel

/-- R13: the counter at 0x0D00_0100 reads at that address of the aperture, in READY; R458: not before READY. -/
theorem test_aperture_counter : apertureRead (bump 0x0D000100 rdy) 0 0x0D000100 = 1 ∧ apertureRead (bump 0x0D000100 State.reset) 0 0x0D000100 = 0 := by
  decide +kernel

/-- The queue is first in, first out. -/
theorem test_step_takes_the_front : (match step { rdy with pending := [.nop 1, .done 1] } with | .next t => t.pending | _ => []) = [.done 1] := by
  decide +kernel

/-! ### Witnesses that need more than evaluation -/

def loadOk : State := { loadFull with sor := { loadFull.sor with poolMib := 64 } }

/-- A load that passes its checks reserves what it asks for, whichever cores the device picks. -/
theorem test_kernelLoaded_can_be_met : ∃ (s : State) (k : BitVec 5) (i : BelethIn) (x y : Kern) (b : Beleth) (v : State),
    getKern s k.toNat = some x ∧ x.state = .loading ∧ (x.loadSrc = 0 → x.loadBytes ≤ i.bytes.length ∧ hostReads s x.part = true) ∧
    b = readBeleth { i with bytes := loadBytesOf s x i } ∧ v = (if x.loadSrc = 0 then unbindRing x.part x.loadIdx.toNat .image s else s) ∧
    imageCheck v (loadBytesOf s x i).length x.loadCores b = none ∧ reserveKern v k.toNat x b = some y := by
  have e : loadBytesOf loadOk kernR imgIn = imgBytes := by decide +kernel
  have c : unbindRing kernR.part kernR.loadIdx.toNat .image loadOk = loadOk := by decide +kernel
  have h : imageCheck loadOk imgBytes.length kernR.loadCores (readBeleth imgIn) = none := by decide +kernel
  have h1 : ∀ l, chooseCores loadOk 0 kernR.loadCores (readBeleth imgIn).sramKib.toNat = some l →
      ∃ y, reserveKern loadOk 0 kernR (readBeleth imgIn) = some y := by
    intro l hl
    refine ⟨loadKern loadOk 0 kernR (readBeleth imgIn) l, ?_⟩
    unfold reserveKern
    rw [if_neg (by decide +kernel), hl]
    rfl
  have h2 : ∃ l, chooseCores loadOk 0 kernR.loadCores (readBeleth imgIn).sramKib.toNat = some l := by
    unfold chooseCores
    dsimp only
    split
    · exact ⟨_, rfl⟩
    · exact ⟨_, if_pos (by decide +kernel)⟩
  obtain ⟨l, hl⟩ := h2
  obtain ⟨y, hy⟩ := h1 l hl
  refine ⟨loadOk, 0, imgIn, kernR, y, readBeleth imgIn, loadOk, by decide +kernel, by decide +kernel, fun _ => by decide +kernel, ?_, ?_, ?_, hy⟩
  · rw [e]; rfl
  · rw [if_pos (by decide), c]
  · rw [e]; exact h

theorem test_DoorbellChecksInOrder_can_be_met : (getPart rdy 0).present = true ∧ rdy.dev.boot = .ready ∧ (getPart State.reset 0).present = true ∧
    State.reset.dev.boot ≠ .ready ∧ recovering State.reset = false ∧ cached rdy (hdr (cmd 0x0101 .openC true 0)) = none ∧
    HeaderFits (cmd 0x0101 .openC true 0) (hdr (cmd 0x0101 .openC true 0)) := by decide +kernel

theorem test_PartitionMovesByItsPaths_can_be_met : rdy.dev.boot = .ready ∧ (getPart rdy 0).present = true ∧
    (getPart rdy 0).pstate = .healthy ∧ (getPart retgRdy 0).pstate = .returning := by decide +kernel

theorem test_clock_statements_can_be_met : ClkBlk.init.ns.toNat < 1000000000 ∧ ClkBlk.init.slewPpm ≤ 500 := by decide +kernel

theorem test_EventRing_can_be_met : (getPart evtRdy 0).present = true ∧ ((getPart evtRdy 0).evtProd - (getPart evtRdy 0).evtCons).toNat < 256 ∧
    0 < (getPart (hp0Of (fun q => { q with lost := 1 })) 0).lost := by decide +kernel

theorem test_HalfDuplex_can_be_met : (getPort enRdy 12).enable = true ∧ (getPort enRdy 12).link = false := by decide +kernel

theorem test_EventTakesToken_can_be_met : 0 < (bucketNow (leaveLimited 0x0101 rdy) 0x0101).tokens ∧ rdy.pop.buffer.length < 1024 ∧
    1024 ≤ { rdy with pop := { rdy.pop with buffer := List.replicate 1024 rec3 } }.pop.buffer.length := by decide +kernel

theorem test_Sound_can_be_met : Sound State.reset :=
  ⟨⟨by decide, by decide⟩, by unfold BufferSound; decide, by unfold ClockSound; decide⟩

/-- A state under a valid snapshot of group 0x05. -/
def snapShown : State :=
  setPart 0 { getPart rdy 0 with snap := { (getPart rdy 0).snap with state := .valid, groups := 1 <<< 5, windowed := 0 } }
    { rdy with shadow := rdy.shadow.set 0 (some rdy.toBlocks) }

theorem test_ApertureShowsStateOrSnapshot_can_be_met : (getPart snapShown 0).snap.state = .valid ∧
    (getPart snapShown 0).snap.groups.getLsbD (0x5000000 / 0x1000000) = true ∧ (getPart snapShown 0).snap.windowed.getLsbD 5 = false ∧
    (snapShown.shadow.get 0).isSome = true ∧ snapShown.dev.boot = .ready ∧ getPart { snapShown with cf := .init } 0 = getPart snapShown 0 ∧
    (0x12000000 / 0x1000000 : Nat) = 0x12 ∧ State.reset.dev.boot ≠ .ready := by decide +kernel

/-! ### States and operands that meet the hypotheses of the statements -/

/-- The hypotheses of DeviceCommandsComplete can be met, clause by clause. -/
theorem test_DeviceCommandsComplete_can_be_met :
    (∃ (h : Hdr) (s : State), Admitted (⟨0x0101, .openC, true, false, 0, true⟩) h s) ∧
    (∃ (h : Hdr) (s : State) (p : SnapshotP), Admitted (cmd 0x0103 .openC false 16) h s ∧ p.rsv = 0 ∧ p.groups &&& 0xFFFC0001 = 0 ∧ p.windowed &&&
      0xFFFC0001 = 0 ∧ (p.expiryMs = 0 ∨ (100 ≤ p.expiryMs.toNat ∧ p.expiryMs.toNat ≤ 60000)) ∧ (getPart s h.part).snap.state ≠ .valid) ∧
    (∃ (h : Hdr) (s : State), Admitted (cmd 0x0104 .openC true 0) h s ∧ (getPart s h.part).snap.state = .valid) ∧
    (∃ (h : Hdr) (s : State) (p : ApertureWindowP) (n : Nat), Admitted (cmd 0x0105 .openC false 8) h s ∧ p.rsv = 0 ∧ windowSize s p.group.toNat
      p.table.toNat p.first.toNat = some n ∧ p.first.toNat < n) ∧
    (∃ (b : Nat), b < 256) ∧
    (∃ (h : Hdr) (s : State) (p : CounterClearP), Admitted (cmd 0x0102 .control false 8) h s ∧ p.rsv = 0 ∧ 1 ≤ p.group.toNat ∧ p.group.toNat ≤ 0x11 ∧
      (p.scope = 0 ∨ (p.scope = 1 ∧ isCounter (streamFirst s h.part) p.group.toNat p.offset.toNat = true))) :=
  ⟨⟨hdr (⟨0x0101, .openC, true, false, 0, true⟩), rdy, by decide +kernel⟩,
   ⟨hdr (cmd 0x0103 .openC false 16), rdy, ⟨2, 0, 60000, 0⟩, by decide +kernel⟩,
   ⟨hdr (cmd 0x0104 .openC true 0), snapRdy, by decide +kernel⟩,
   ⟨hdr (cmd 0x0105 .openC false 8), rdy, ⟨5, 0, 0, 9⟩, apN, by decide +kernel⟩,
   ⟨3, by decide +kernel⟩,
   ⟨hdr (cmd 0x0102 .control false 8), rdy, ⟨2, 1, 0, 0x140⟩, by decide +kernel⟩⟩

/-- The hypotheses of PartitionCommandsComplete can be met, clause by clause. -/
theorem test_PartitionCommandsComplete_can_be_met :
    (∃ (h : Hdr) (s : State) (p : HeartbeatP) (v : State), let u := countCmd h s; Admitted (cmd 0x0201 .openC true 8) h s ∧ p.rsv = 0 ∧ v = evalPart
      h.part (modPart h.part (fun q => { q with v := true, lastV := BitVec.ofNat 64 (taiNs s), lastVEl := elNs s, takeover := none }) u)) ∧
    (∃ (h : Hdr) (s : State) (p : ClaimSetP), Admitted (cmd 0x0202 .control true 4) h s ∧ p.rsv = 0 ∧ p.partition.toNat < 4 ∧ claimUnique s (Fin.ofNat
      4 p.partition.toNat) p.claim = true) ∧
    (∃ (h : Hdr) (s : State) (p : ClaimYieldP), Admitted (cmd 0x0203 .openC true 4) h s ∧ p.rsv = 0 ∧ p.claim.toNat < (getPart s h.part).claim.toNat ∧
      claimUnique s h.part p.claim = true) ∧
    (∃ (h : Hdr) (s : State) (p : ApportionP) (v : State), Admitted (cmd 0x0204 .control false 32) h s ∧ p.rsv = 0 ∧ p.partition.toNat < 4 ∧
      p.dmaRings.toNat ≤ 64 ∧ (useOf s (Fin.ofNat 4 p.partition.toNat)).le (apportionQuota p) = true ∧ v = modPart (Fin.ofNat 4 p.partition.toNat)
      (fun x => { x with quota := apportionQuota p }) (countCmd h s) ∧ (quotaSum v).le Quota.limit = true) ∧
    (∃ (h : Hdr) (s : State) (p : PartitionTimersP), Admitted (cmd 0x0205 .control false 8) h s ∧ p.rsv = 0 ∧ 100 ≤ p.failMs.toNat ∧ p.failMs.toNat ≤
      5000 ∧ 1000 ≤ p.holdoffMs.toNat ∧ p.holdoffMs.toNat ≤ 60000 ∧ p.hbpFitted.toNat < 16) ∧
    (∃ (h : Hdr) (s : State) (p : DmaRingSetupP), Admitted (cmd 0x0206 .openC false 16) h s ∧ p.rsv = 0 ∧ p.ring.toNat < 64 ∧ p.dir.toNat < 2 ∧
      p.base.toNat % 4096 = 0 ∧ ringEntriesOk p.entries.toNat = true ∧ getRing s h.part p.ring.toNat = none ∧ ringCount s h.part < (getPart s
      h.part).quota.dmaRings) ∧
    (∃ (h : Hdr) (s : State) (p : DmaRingRetireP) (r : Ring), Admitted (cmdLong 0x0207 .openC false 4) h s ∧ p.rsv = 0 ∧ p.ring.toNat < 64 ∧ getRing s
      h.part p.ring.toNat = some r ∧ r.retiring = none) :=
  ⟨⟨hdr (cmd 0x0201 .openC true 8), rdy, ⟨7, 0⟩, evalPart 0 (modPart 0 (fun q =>
      { q with v := true, lastV := BitVec.ofNat 64 (taiNs rdy), lastVEl := elNs rdy, takeover := none }) (countCmd (hdr (cmd 0x0201 .openC true 8))
      rdy)), by dsimp only; decide +kernel⟩,
   ⟨hdr (cmd 0x0202 .control true 4), rdy, ⟨3, 9, 0⟩, by decide +kernel⟩,
   ⟨hdr (cmd 0x0203 .openC true 4), rdy, ⟨0, 0⟩, by decide +kernel⟩,
   ⟨hdr (cmd 0x0204 .control false 32), rdy, apP, modPart (Fin.ofNat 4 apP.partition.toNat) (fun x => { x with quota := apportionQuota apP }) (countCmd
      (hdr (cmd 0x0204 .control false 32)) rdy), by decide +kernel⟩,
   ⟨hdr (cmd 0x0205 .control false 8), rdy, ⟨5000, 60000, 15, 0⟩, by decide +kernel⟩,
   ⟨hdr (cmd 0x0206 .openC false 16), rdy, ⟨63, 1, 0, 65536, 0xFFFFFFFFFFFFF000⟩, by decide +kernel⟩,
   ⟨hdr (cmdLong 0x0207 .openC false 4), ringRdy, ⟨1, 0⟩, aRing true, by decide +kernel⟩⟩

/-- The hypotheses of PartitionEventsComplete can be met, clause by clause. -/
theorem test_PartitionEventsComplete_can_be_met :
    (∃ (p : HP) (s : State), (getPart s p).present = true ∧ s.dev.boot = .ready) ∧
    (∃ (p : HP) (s : State), (getPart s p).present = true) ∧
    (∃ (p : HP) (s : State) (value : U32), (getPart s p).present = true ∧ (value - (getPart s p).evtCons).toNat ≤ ((getPart s p).evtProd - (getPart s
      p).evtCons).toNat) ∧
    (∃ (p : HP) (s : State) (ring : BitVec 6) (value : U32) (descs : List Desc) (r : Ring), getRing s p ring.toNat = some r ∧ (value - r.devIdx).toNat
      ≤ r.entries ∧ (r.hostIdx - r.devIdx).toNat ≤ (value - r.devIdx).toNat ∧ descs.length = (value - r.hostIdx).toNat) ∧
    (∃ (p : HP) (s : State) (ring : BitVec 6) (r : Ring) (d : Desc) (rest : List Desc), getRing s p ring.toNat = some r ∧ r.toDev = true ∧ hostReads s
      p = true ∧ r.owned = d :: rest) ∧
    (∃ (p : HP) (s : State) (ring : BitVec 6) (r : Ring) (id : Nat), getRing s p ring.toNat = some r ∧ r.retiring = some id) ∧
    (∃ (p : HP) (s : State), (getPart s p).present = true) ∧
    (∃ (p : HP) (s : State), (getPart s p).present = true) :=
  ⟨⟨0, rdy, by decide +kernel⟩,
   ⟨0, rdy, by decide +kernel⟩,
   ⟨0, evtRdy, 5, by decide +kernel⟩,
   ⟨0, ringRdy, 1, 1, [⟨0, 4, true, true, false⟩], aRing true, by decide +kernel⟩,
   ⟨0, hostTxRdy, 1, hostTxRing, ⟨0, 76, true, true, false⟩, [], by decide +kernel⟩,
   ⟨0, retRdy, 1, { aRing true with retiring := some 4 }, 4, by decide +kernel⟩,
   ⟨0, rdy, by decide +kernel⟩,
   ⟨0, ringRdy, by decide +kernel⟩⟩

/-- The hypotheses of PartitionTimersComplete can be met, clause by clause. -/
theorem test_PartitionTimersComplete_can_be_met :
    (∃ (p : HP) (s : State), (getPart s p).v = true ∧ (getPart s p).lastVEl + 100000000 ≤ elNs s) ∧
    (∃ (p : HP) (s : State), (getPart s p).p = true ∧ (getPart s p).lastPEl + 50000000 ≤ elNs s) ∧
    (∃ (p : HP) (s : State) (e : Nat), (getPart s p).pstate = .failing ∧ (getPart s p).failTimer = some e ∧ e ≤ elNs s) ∧
    (∃ (p : HP) (s : State) (e : Nat), (getPart s p).pstate = .returning ∧ (getPart s p).holdTimer = some e ∧ e ≤ elNs s) ∧
    (∃ (p : HP) (s : State) (e : Nat), (getPart s p).pstate.live = true ∧ (getPart s p).takeover = some e ∧ e ≤ elNs s) ∧
    (∃ (p : HP) (s : State), (getPart s p).snap.state = .valid ∧ (getPart s p).snap.expiry ≤ elNs s) ∧
    (∃ (p : HP) (s : State), (getPart s p).snap.state = .valid) ∧
    (∃ (s : State) (id : U32) (l : LongCmd), tget s.host.long id.toNat = some l ∧ l.deadline ≤ elNs s) :=
  ⟨⟨0, pathRdy, by decide +kernel⟩,
   ⟨0, pathRdy, by decide +kernel⟩,
   ⟨0, failgRdy, 9, by decide +kernel⟩,
   ⟨0, retgRdy, 9, by decide +kernel⟩,
   ⟨0, takeRdy, 9, by decide +kernel⟩,
   ⟨0, snapRdy, by decide +kernel⟩,
   ⟨0, snapRdy, by decide +kernel⟩,
   ⟨otpRdy, 4, { sealLong with opcode := 0x1103 }, by decide +kernel⟩⟩

/-- The hypotheses of TimeCommandsComplete can be met, clause by clause. -/
theorem test_TimeCommandsComplete_can_be_met :
    (∃ (h : Hdr) (s : State) (p : TimeSourceConfigP), Admitted (cmd 0x0301 .control false 8) h s ∧ p.srcEn.toNat < 8 ∧ p.pair.toNat < 2 ∧
      p.domain.toNat < 128 ∧ 6 ≤ p.classLimit.toNat ∧ p.srcHoldoff.toNat ≤ 600 ∧ p.rsv = 0) ∧
    (∃ (h : Hdr) (s : State) (p : TimeSlewConfigP), Admitted (cmd 0x0302 .control false 8) h s ∧ 1 ≤ p.slewPpm.toNat ∧ p.slewPpm.toNat ≤ 500 ∧ p.rsv =
      0 ∧ 1 ≤ p.alertUs.toNat ∧ p.alertUs.toNat ≤ 1000000) ∧
    (∃ (h : Hdr) (s : State) (p : TimeHoldoverConfigP), Admitted (cmd 0x0303 .control false 4) h s ∧ 1 ≤ p.holdPpb.toNat ∧ p.holdPpb.toNat ≤ 10000 ∧ 1
      ≤ p.e0Ns.toNat ∧ p.e0Ns.toNat ≤ 10000) ∧
    (∃ (h : Hdr) (s : State) (p : TimeUtcOffsetP), Admitted (cmd 0x0304 .control false 12) h s ∧ p.utcOffset.toNat ≤ 255 ∧ p.leap = 0 ∧ p.rsv = 0 ∧
      p.leapTaiS = 0 ∧ (¬ (s.clk.source = .ptp ∧ s.clk.ptpUtcValid = true))) ∧
    (∃ (h : Hdr) (s : State) (p : TimeUtcOffsetP), Admitted (cmd 0x0304 .control false 12) h s ∧ p.utcOffset.toNat ≤ 255 ∧ (p.leap = 1 ∨ p.leap = 2) ∧
      p.rsv = 0 ∧ ((p.leapTaiS.toNat : Int) - s.clk.utcOffset) % 86400 = 0 ∧ (¬ (s.clk.source = .ptp ∧ s.clk.ptpUtcValid = true))) ∧
    (∃ (h : Hdr) (s : State) (p : TimeStepP), Admitted (cmdLong 0x0305 .control false 24) h s ∧ p.mode.toNat < 2 ∧ p.rsv = 0 ∧ (p.mode = 0 →
      p.taiS.toNat < 2 ^ 48 ∧ p.taiNs.toNat < 1000000000) ∧ (p.mode = 1 → p.deltaNs ≠ 0) ∧ 0 ≤ stepTarget p s ∧ stepTarget p s < (2 ^ 48 * 1000000000
      : Nat) ∧ nearLeap s = false) ∧
    (∃ (h : Hdr) (s : State) (p : GaConfigP), Admitted (cmd 0x0306 .control false 4) h s ∧ p.refEn.toNat < 2 ∧ p.refMp.toNat < 16 ∧ p.fNom.toNat < 2 ∧
      1 ≤ p.gaSlew.toNat ∧ p.gaSlew.toNat ≤ 50) ∧
    (∃ (h : Hdr) (s : State) (p : PpsOutConfigP), Admitted (cmd 0x0307 .control false 4) h s ∧ p.enable.toNat < 2 ∧ p.rsv = 0 ∧ 1 ≤ p.widthMs.toNat ∧
      p.widthMs.toNat ≤ 500) ∧
    (∃ (h : Hdr) (s : State), Admitted (cmd 0x0308 .openC true 0) h s) :=
  ⟨⟨hdr (cmd 0x0301 .control false 8), rdy, ⟨7, 0, 3, 7, 10, 1, 0⟩, by decide +kernel⟩,
   ⟨hdr (cmd 0x0302 .control false 8), rdy, ⟨500, 0, 1000000⟩, by decide +kernel⟩,
   ⟨hdr (cmd 0x0303 .control false 4), rdy, ⟨10000, 1⟩, by decide +kernel⟩,
   ⟨hdr (cmd 0x0304 .control false 12), rdy, ⟨255, 0, 0, 0⟩, by decide +kernel⟩,
   ⟨hdr (cmd 0x0304 .control false 12), rdy, ⟨37, 2, 0, 86437⟩, by decide +kernel⟩,
   ⟨hdr (cmdLong 0x0305 .control false 24), rdy, ⟨1, 0, 0, 0, 5⟩, by decide +kernel⟩,
   ⟨hdr (cmd 0x0306 .control false 4), rdy, ⟨1, 15, 1, 50⟩, by decide +kernel⟩,
   ⟨hdr (cmd 0x0307 .control false 4), rdy, ⟨1, 0, 500⟩, by decide +kernel⟩,
   ⟨hdr (cmd 0x0308 .openC true 0), rdy, by decide +kernel⟩⟩

/-- The hypotheses of TimeSourceEventsComplete can be met, clause by clause. -/
theorem test_TimeSourceEventsComplete_can_be_met :
    (∃ (s : State) (port : BitVec 4) (m : AnnounceMsg), readerHeld s port.toNat .c1 = false ∧ s.dev.boot = .ready ∧ isMasterPort s port.toNat = false
      ∧ isPtpPort s port.toNat = true ∧ m.domain = s.clk.domain ∧ m.ptpTimescale = true) ∧
    (∃ (s : State) (port : BitVec 4), readerHeld s port.toNat .c1 = false ∧ isMasterPort s port.toNat = true) ∧
    (∃ (s : State) (port : BitVec 4) (m : SyncMsg) (o : AnnounceMsg), readerHeld s port.toNat .c1 = false ∧ s.dev.boot = .ready ∧ port.toNat = slaveOf
      s ∧ (getPtp s port.toNat).qual = true ∧ (getPtp s port.toNat).master = some o ∧ o.srcId = m.srcId ∧ o.srcPort = m.srcPort ∧ m.domain =
      s.clk.domain) ∧
    (∃ (s : State) (m : PdelayReq), readerHeld s m.port.toNat .c1 = false ∧ s.dev.boot = .ready ∧ (isPtpPort s m.port.toNat = true ∨ isMasterPort s
      m.port.toNat = true)) ∧
    (∃ (s : State) (m : PdelayResp) (t : Nat), readerHeld s m.port.toNat .c1 = false ∧ isPtpPort s m.port.toNat = true ∧ (getPtp s m.port.toNat).reqTs
      = some t ∧ m.seq = (getPtp s m.port.toNat).pdelaySeq) ∧
    (∃ (s : State) (port : BitVec 4), s.dev.boot = .ready ∧ isPtpPort s port.toNat = true ∧ (getPort s port.toNat).link = true ∧ secondDue s (getPtp s
      port.toNat).reqEl = true) ∧
    (∃ (s : State) (port : BitVec 4), s.dev.boot = .ready ∧ isMasterPort s port.toNat = true ∧ (getPort s port.toNat).link = true ∧ secondDue s
      (getPtp s port.toNat).masterEl = true) ∧
    (∃ (s : State) (port : BitVec 4) (m : AnnounceMsg), (getPtp s port.toNat).master = some m ∧ isPtpPort s port.toNat = true ∧ (getPtp s
      port.toNat).annEl + 3000000000 ≤ elNs s) ∧
    (∃ (s : State), s.dev.boot = .ready ∧ (∀ t, s.clk.ppsEdge = some t → t + 500000000 ≤ elNs s) ∧ s.clk.ppsQual = false ∧ s.clk.ppsRun < 3) ∧
    (∃ (s : State) (t : Nat), s.dev.boot = .ready ∧ s.clk.ppsEdge = some t ∧ elNs s < t + 500000000) ∧
    (∃ (s : State) (a : Nat), s.dev.boot = .ready ∧ (∀ t, s.clk.ppsEdge = some t → t + 500000000 ≤ elNs s) ∧ s.clk.ppsAcc = some a ∧ absDiff (taiNs s)
      (a + 1000000000) < 100000 ∧ 3 ≤ s.clk.ppsRun ∧ s.clk.timeValid = true ∧ s.clk.srcEn.getLsbD 1 = true) ∧
    (∃ (s : State), s.clk.ppsQual = true ∧ s.clk.ppsAccEl + 1500000000 ≤ elNs s) ∧
    (∃ (s : State) (f : IrigFrame), s.dev.boot = .ready ∧ f.good = false) ∧
    (∃ (s : State) (f : IrigFrame), s.dev.boot = .ready ∧ f.good = true ∧ s.clk.irigQual = false ∧ (s.clk.irigSec ≠ none → s.clk.irigRun < 2)) ∧
    (∃ (s : State) (f : IrigFrame) (x : Nat), s.dev.boot = .ready ∧ f.good = true ∧ irigTai f s = some (x + 1) ∧ s.clk.irigSec = some x ∧ 2 ≤
      s.clk.irigRun ∧ s.clk.srcEn.getLsbD 2 = true ∧ f.ext = none ∧ f.extUtc = none) ∧
    (∃ (s : State), s.clk.irigQual = true ∧ s.clk.irigEl + 2000000000 ≤ elNs s) ∧
    (∃ (s : State) (x : Src) (t : Nat), s.clk.better = some (x, t) ∧ t ≤ elNs s ∧ qualifies s x = true) ∧
    (∃ (s : State), s.dev.boot = .ready) :=
  ⟨⟨rdy, 0, annMsg, by decide +kernel⟩,
   ⟨{ rdy with clk := { rdy.clk with fMaster := 1 } }, 4, by decide +kernel⟩,
   ⟨ptpRdy, 0, ⟨0, 1, 1, 0, 0, 0, 0⟩, annMsg, by decide +kernel⟩,
   ⟨rdy, pdReq, by decide +kernel⟩,
   ⟨ptpRdy, pdResp, 0, by decide +kernel⟩,
   ⟨ptpRdy, 1, by decide +kernel⟩,
   ⟨ptpRdy, 4, by decide +kernel⟩,
   ⟨ptpRdy, 0, annMsg, by decide +kernel⟩,
   ⟨rdy, by decide +kernel⟩,
   ⟨ptpRdy, elNs ptpRdy, by decide +kernel⟩,
   ⟨ppsRdy, 0, by decide +kernel⟩,
   ⟨{ ptpRdy with clk := { ptpRdy.clk with ppsQual := true } }, by decide +kernel⟩,
   ⟨rdy, { irigF with good := false }, by decide +kernel⟩,
   ⟨rdy, irigF, by decide +kernel⟩,
   ⟨{ rdy with clk := { rdy.clk with irigSec := some 1767225636, irigRun := 2 } }, irigF, 1767225636, by decide +kernel⟩,
   ⟨{ ptpRdy with clk := { ptpRdy.clk with irigQual := true } }, by decide +kernel⟩,
   ⟨{ ptpRdy with clk := { ptpRdy.clk with better := some (.ptp, 0) } }, .ptp, 0, by decide +kernel⟩,
   ⟨rdy, by decide +kernel⟩⟩

/-- The hypotheses of TimeInstantsComplete can be met, clause by clause. -/
theorem test_TimeInstantsComplete_can_be_met :
    (∃ (s : State) (r : StepReq) (rest : List StepReq), s.clk.steps = r :: rest) ∧
    (∃ (s : State) (l : Leap), s.clk.leap = some l ∧ leapInstant l ≤ s.clk.sec.toNat + 60) ∧
    (∃ (s : State) (l : Leap), s.clk.leap = some l ∧ leapInstant l ≤ s.clk.sec.toNat) ∧
    (∃ (s : State), s.clk.leapOccurred = true ∧ s.clk.occurredEnd ≤ s.clk.sec.toNat) ∧
    (∃ (s : State), s.clk.timeValid = true ∧ s.clk.ppsOutEn = true ∧ s.clk.ns.toNat ≤ 2 ∧ s.clk.ppsRiseSec ≠ some s.clk.sec.toNat) ∧
    (∃ (s : State), s.clk.ppsOut = true ∧ s.clk.ppsRiseEl + s.clk.widthMs * 1000000 ≤ elNs s) ∧
    (∃ (s : State), s.clk.timeValid = true) :=
  ⟨⟨{ rdy with clk := { rdy.clk with steps := [⟨0, 0, ⟨1, 0, 0, 0, 5⟩⟩] } }, ⟨0, 0, ⟨1, 0, 0, 0, 5⟩⟩, [], by decide +kernel⟩,
   ⟨leapRdy, ⟨37, false, 0⟩, by decide +kernel⟩,
   ⟨{ leapRdy with clk := { leapRdy.clk with sec := 38 } }, ⟨37, false, 0⟩, by decide +kernel⟩,
   ⟨{ leapRdy with clk := { leapRdy.clk with leapOccurred := true } }, by decide +kernel⟩,
   ⟨{ rdy with clk := { rdy.clk with timeValid := true } }, by decide +kernel⟩,
   ⟨{ ptpRdy with clk := { ptpRdy.clk with ppsOut := true } }, by decide +kernel⟩,
   ⟨{ rdy with clk := { rdy.clk with timeValid := true } }, by decide +kernel⟩⟩

/-- The hypotheses of GridAngleTickCompletes can be met, clause by clause. -/
theorem test_GridAngleTickCompletes_can_be_met :
    (∃ (s : State) (ts : U64), s.dev.boot = .ready ∧ gaDue s = true ∧ ts = BitVec.ofNat 64 (taiNs s) ∧ (s.clk.gaCount + 1).toNat % 128 ≠ 0) ∧
    (∃ (s : State) (ts : U64), s.dev.boot = .ready ∧ gaDue s = true ∧ ts = BitVec.ofNat 64 (taiNs s) ∧ (s.clk.gaCount + 1).toNat % 128 = 0) :=
  ⟨⟨ptpRdy, BitVec.ofNat 64 (taiNs ptpRdy), by decide +kernel⟩,
   ⟨{ ptpRdy with clk := { ptpRdy.clk with gaCount := 127 } }, BitVec.ofNat 64 (taiNs ptpRdy), by decide +kernel⟩⟩

/-- The hypotheses of PortCommandsComplete can be met, clause by clause. -/
theorem test_PortCommandsComplete_can_be_met :
    (∃ (h : Hdr) (s : State) (p : PortConfigP), Admitted (cmd 0x0401 .control false 16) h s ∧ portConfigOk p = true ∧ pairAgrees s p = true) ∧
    (∃ (h : Hdr) (s : State) (p : PrpConfigP), Admitted (cmd 0x0402 .control false 8) h s ∧ p.rsv = 0 ∧ p.pair.toNat < 2 ∧ 10 ≤ p.forgetMs.toNat ∧
      p.forgetMs.toNat ≤ 2000 ∧ 1 ≤ p.skewAlertMs.toNat ∧ p.skewAlertMs.toNat ≤ 1000 ∧ p.skewAlertMs.toNat < p.forgetMs.toNat ∧ 100 ≤
      p.lanSilenceMs.toNat ∧ p.lanSilenceMs.toNat ≤ 60000) ∧
    (∃ (h : Hdr) (s : State) (p : PortTxBindP), Admitted (cmd 0x0403 .openC false 4) h s ∧ p.rsv = 0 ∧ (p.target.toNat ≤ 12 ∨ p.target = 0x10 ∨
      p.target = 0x11) ∧ p.ring.toNat < 64 ∧ p.reportRing = 0xFF ∧ ringFree s h.part p.ring.toNat true = true) ∧
    (∃ (h : Hdr) (s : State) (p : PortTxBindP), Admitted (cmd 0x0403 .openC false 4) h s ∧ p.rsv = 0 ∧ (p.target.toNat ≤ 12 ∨ p.target = 0x10 ∨
      p.target = 0x11) ∧ p.ring.toNat < 64 ∧ p.ring ≠ p.reportRing ∧ p.reportRing ≠ 0xFF ∧ ringFree s h.part p.ring.toNat true = true ∧ ringFree s
      h.part p.reportRing.toNat false = true) :=
  ⟨⟨hdr (cmd 0x0401 .control false 16), rdy, ⟨4, 1, 0, 0, 0, 0, 1522, 0, 0, 1, 2, 100, 0⟩, by decide +kernel⟩,
   ⟨hdr (cmd 0x0402 .control false 8), rdy, ⟨1, 0, 10, 9, 60000⟩, by decide +kernel⟩,
   ⟨hdr (cmd 0x0403 .openC false 4), ringRdy, ⟨1, 0xFF, 0x11, 0⟩, by decide +kernel⟩,
   ⟨hdr (cmd 0x0403 .openC false 4), ringRdy, ⟨1, 0, 12, 0⟩, by decide +kernel⟩⟩

/-- The hypotheses of PortEventsComplete can be met, clause by clause. -/
theorem test_PortEventsComplete_can_be_met :
    (∃ (k : BitVec 4) (s : State), let q := getPort s k.toNat; k.toNat ≤ 12 ∧ 4 ≤ k.toNat ∧ q.enable = true ∧ q.link = false) ∧
    (∃ (k : BitVec 4) (s : State), let q := getPort s k.toNat; k.toNat = 12 ∧ q.enable = true ∧ q.link = false) ∧
    (∃ (k : BitVec 4) (s : State), let q := getPort s k.toNat; k.toNat < 4 ∧ q.enable = true ∧ q.link = false) ∧
    (∃ (k : BitVec 4), k.toNat ≤ 12) ∧
    (∃ (k : BitVec 4) (s : State), k.toNat < 4 ∧ silencePassed s k.toNat = true) ∧
    (∃ (s : State) (pair : Bool) (pr : Nat) (a : Bool) (b : Bool), (pr = if pair then 1 else 0) ∧ a = (getPort s (2 * pr)).link ∧ b = (getPort s (2 *
      pr + 1)).link ∧ (a || b) = true ∧ s.dev.boot = .ready ∧ supervisionDue s pr = true) ∧
    (∃ (k : BitVec 4) (s : State), k.toNat < 4 ∧ readerHeld s k.toNat .c3 = false) ∧
    (∃ (k : BitVec 4) (s : State) (r : Nat) (a : Nat), let q := getPort s k.toNat; isField k.toNat = true ∧ q.wire = some (r, a) ∧ q.backoff = none) ∧
    (∃ (k : BitVec 4) (s : State) (r : Nat) (a : Nat) (b : Backoff), let q := getPort s k.toNat; isField k.toNat = true ∧ q.wire = some (r, a) ∧
      q.backoff = some b ∧ 15 ≤ b.attempts) ∧
    (∃ (k : BitVec 4) (s : State) (b : Backoff) (e : Nat), let q := getPort s k.toNat; q.backoff = some b ∧ b.until_ = some e ∧ e ≤ elNs s) ∧
    (∃ (k : BitVec 4) (s : State) (r : Nat) (c : Nat × Nat × Nat), let q := getPort s k.toNat; isField k.toNat = true ∧ q.carrier = true ∧ q.wire =
      none ∧ q.link = true ∧ q.backoff = none ∧ nextTx (setPort k.toNat { q with carrier := false } s) { q with carrier := false } = some (r, c)) ∧
    (∃ (s : State), s.net.windowEl + 1000000 ≤ elNs s) ∧
    (∃ (k : BitVec 4) (s : State) (r : Nat) (a : Nat) (f : TxFrame), let q := getPort s k.toNat; q.wire = some (r, a) ∧ getFrame (setPort k.toNat
      { q with wire := none, backoff := none } s) r = some f ∧ q.tsq.any (fun e => decide (e.ref = r)) = false) ∧
    (∃ (k : BitVec 4) (s : State) (r : Nat) (a : Nat) (f : TxFrame), let q := getPort s k.toNat; isField k.toNat = true ∧ q.wire = some (r, a) ∧
      getFrame (setPort k.toNat { q with wire := none, backoff := none } s) r = some f) :=
  ⟨⟨12, enRdy, by dsimp only; decide +kernel⟩,
   ⟨12, enRdy, by dsimp only; decide +kernel⟩,
   ⟨3, enRdy, by dsimp only; decide +kernel⟩,
   ⟨4, by decide +kernel⟩,
   ⟨3, { rdy with net := { rdy.net with pair1 := { rdy.net.pair1 with heardBEl := some 0 } } }, by decide +kernel⟩,
   ⟨ptpRdy, false, 0, false, true, by decide +kernel⟩,
   ⟨3, rdy, by decide +kernel⟩,
   ⟨4, txRdy, 0, 0, by dsimp only; decide +kernel⟩,
   ⟨4, { txRdy with net := { txRdy.net with ports := tset txRdy.net.ports 4 { getPort txRdy 4 with backoff := some ⟨0, 15, none⟩ } } }, 0, 0, ⟨0, 15,
      none⟩, by dsimp only; decide +kernel⟩,
   ⟨4, { txRdy with net := { txRdy.net with ports := tset txRdy.net.ports 4 { getPort txRdy 4 with backoff := some ⟨0, 1, some 5⟩, wire := none } } },
      ⟨0, 1, some 5⟩, 5, by dsimp only; decide +kernel⟩,
   ⟨4, { txRdy with net := { txRdy.net with ports := tset txRdy.net.ports 4 { getPort txRdy 4 with carrier := true, wire := none, txq := [0] } } }, 0,
      (8, 4, 0), by dsimp only; decide +kernel⟩,
   ⟨rdy, by decide +kernel⟩,
   ⟨4, txRdy, 0, 0, txF, by dsimp only; decide +kernel⟩,
   ⟨4, txRdy, 0, 0, txF, by dsimp only; decide +kernel⟩⟩

/-- The hypotheses of FramesAreReceivedOrCounted can be met, clause by clause. -/
theorem test_FramesAreReceivedOrCounted_can_be_met :
    (∃ (s : State) (f : RxFrame), f.port.toNat ≤ 12 ∧ (getPort s f.port.toNat).link = true ∧ f.len.toNat < 64) ∧
    (∃ (s : State) (f : RxFrame), f.port.toNat ≤ 12 ∧ (getPort s f.port.toNat).link = true ∧ 64 ≤ f.len.toNat ∧ (getPort s f.port.toNat).maxFrame <
      f.len.toNat) ∧
    (∃ (s : State) (f : RxFrame), f.port.toNat ≤ 12 ∧ (getPort s f.port.toNat).link = true ∧ 64 ≤ f.len.toNat ∧ f.len.toNat ≤ (getPort s
      f.port.toNat).maxFrame ∧ f.fcsOk = false) ∧
    (∃ (s : State) (f : RxFrame), f.port.toNat ≤ 12 ∧ (getPort s f.port.toNat).link = true ∧ 64 ≤ f.len.toNat ∧ f.len.toNat ≤ (getPort s
      f.port.toNat).maxFrame ∧ f.fcsOk = true ∧ f.kind = .pause) ∧
    (∃ (s : State) (f : RxFrame), f.port.toNat ≤ 12 ∧ (getPort s f.port.toNat).link = true ∧ 64 ≤ f.len.toNat ∧ f.len.toNat ≤ (getPort s
      f.port.toNat).maxFrame ∧ f.fcsOk = true ∧ f.kind ≠ .pause ∧ f.dst ≠ portMac s f.port.toNat ∧ f.dst ≠ 0xFFFFFFFFFFFF ∧ multicastOk s f.port.toNat
      f.dst = false) ∧
    (∃ (s : State) (f : RxFrame), f.port.toNat ≤ 12 ∧ (getPort s f.port.toNat).link = true ∧ 64 ≤ f.len.toNat ∧ f.len.toNat ≤ (getPort s
      f.port.toNat).maxFrame ∧ f.fcsOk = true ∧ f.kind ≠ .pause ∧ (f.dst = portMac s f.port.toNat ∨ f.dst = 0xFFFFFFFFFFFF ∨ multicastOk s
      f.port.toNat f.dst = true)) ∧
    (∃ (s : State) (part : HP) (ring : BitVec 6) (f : HostFrame) (r : Ring) (b : TxBind) (ds : List Desc), getRing s part ring.toNat = some r ∧ tget
      s.net.binds (part.val * 64 + ring.toNat) = some b ∧ b.taken = [] ∧ nextMessage r.owned = some ds ∧ r.use = .frameTx b.target ∧ hostReads s part
      = true ∧ f.poison = 0 ∧ ds.foldl (fun k d => k + d.len.toNat) 0 = 16 + f.frameLen.toNat ∧ 14 ≤ f.frameLen.toNat ∧ f.frameLen.toNat ≤ 9596 ∧
      f.rsv = 0 ∧ f.flags.toNat < 2) :=
  ⟨⟨ptpRdy, { rxF with len := 63 }, by decide +kernel⟩,
   ⟨ptpRdy, { rxF with len := 65535 }, by decide +kernel⟩,
   ⟨ptpRdy, { rxF with fcsOk := false }, by decide +kernel⟩,
   ⟨ptpRdy, { rxF with kind := .pause }, by decide +kernel⟩,
   ⟨macRdy, { rxF with dst := 5 }, by decide +kernel⟩,
   ⟨macRdy, rxF, by decide +kernel⟩,
   ⟨hostTxRdy, 0, 1, ⟨0, 0, 60, 0, [], 0⟩, hostTxRing, ⟨[], none, 4⟩, [⟨0, 76, true, true, false⟩], by decide +kernel⟩⟩

/-- The hypotheses of IngestCommandsComplete can be met, clause by clause. -/
theorem test_IngestCommandsComplete_can_be_met :
    (∃ (h : Hdr) (s : State) (p : StreamAddP) (b : Nat) (n : Nat), Admitted (cmd 0x0501 .openC false 32) h s ∧ streamAddOk p = true ∧
      s.ing.streams.any (fun e => decide (e.2.key = addKey p)) = false ∧ ((p.transport = 0 ∨ p.transport = 2) → portTaken s 1 (decide (p.transport =
      2)) p.dstPort.toNat (macMask p.port.toNat) = false) ∧ addRefusal h.part p.maxChannels.toNat s = none ∧ allocChans s p.maxChannels.toNat = some b
      ∧ tfreeFrom s.ing.streams 262144 0 = some n ∧ stashUsed s < 256) ∧
    (∃ (h : Hdr) (s : State) (p : StreamChangeP) (v : Stream), Admitted (cmd 0x0502 .openC false 12) h s ∧ p.level.toNat < 8 ∧ p.cfgPolicy.toNat < 2 ∧
      p.pause = 0 ∧ p.rsv = 0 ∧ p.rsv2 = 0 ∧ 1 ≤ p.maxChannels.toNat ∧ p.maxChannels.toNat ≤ 4096 ∧ getStream s p.handle.toNat = some v ∧ mayName s
      h.part v.owner = true ∧ chanFloor v ≤ p.maxChannels.toNat ∧ (v.state = .active ∨ v.state = .awaitCfg) ∧ channelsOf s v.owner +
      p.maxChannels.toNat ≤ (getPart s v.owner).quota.channels + v.maxChannels ∧ roomAfter s p.handle.toNat v p.maxChannels.toNat = true) ∧
    (∃ (h : Hdr) (s : State) (p : StreamChangeP) (v : Stream) (a : AlnStream), Admitted (cmd 0x0502 .openC false 12) h s ∧ p.level.toNat < 8 ∧
      p.cfgPolicy.toNat < 2 ∧ p.pause = 1 ∧ p.rsv = 0 ∧ p.rsv2 = 0 ∧ 1 ≤ p.maxChannels.toNat ∧ p.maxChannels.toNat ≤ 4096 ∧ getStream s p.handle.toNat
      = some v ∧ mayName s h.part v.owner = true ∧ chanFloor v ≤ p.maxChannels.toNat ∧ v.state = .active ∧ channelsOf s v.owner + p.maxChannels.toNat
      ≤ (getPart s v.owner).quota.channels + v.maxChannels ∧ roomAfter s p.handle.toNat v p.maxChannels.toNat = true ∧ tget s.aln.streams
      p.handle.toNat = some a) ∧
    (∃ (h : Hdr) (s : State) (p : StreamRetireP) (v : Stream), Admitted (cmdLong 0x0503 .openC false 4) h s ∧ getStream s p.handle.toNat = some v ∧
      mayName s h.part v.owner = true ∧ v.key.transport ≠ 4 ∧ v.state ≠ .retiring ∧ streamNamed s p.handle.toNat v = false) ∧
    (∃ (h : Hdr) (s : State) (p : StreamCfgAcceptP) (v : Stream) (c : C37Cfg), Admitted (cmd 0x0504 .openC false 8) h s ∧ p.rsv = 0 ∧ getStream s
      p.handle.toNat = some v ∧ mayName s h.part v.owner = true ∧ v.pending = some c ∧ c.cfgCnt = p.cfgCnt ∧ v.state ≠ .retiring) ∧
    (∃ (h : Hdr) (s : State) (p : StreamRequestP) (v : Stream), Admitted (cmd 0x0505 .openC false 8) h s ∧ p.rsv = 0 ∧ (p.cmd = 1 ∨ p.cmd = 2 ∨ p.cmd
      = 3 ∨ p.cmd = 5 ∨ p.cmd = 6) ∧ getStream s p.handle.toNat = some v ∧ mayName s h.part v.owner = true ∧ v.key.transport.toNat < 3 ∧
      (v.key.transport = 0 → v.key.srcPort ≠ 0)) ∧
    (∃ (h : Hdr) (s : State) (p : IngestConfigP), Admitted (cmd 0x0506 .control false 8) h s ∧ (1 ≤ p.ctP.toNat ∧ p.ctP.toNat ≤ 32) ∧ (1 ≤ p.ctF.toNat
      ∧ p.ctF.toNat ≤ 32) ∧ (1 ≤ p.ctM.toNat ∧ p.ctM.toNat ≤ 32) ∧ (1 ≤ p.ctDma.toNat ∧ p.ctDma.toNat ≤ 32) ∧ 100 ≤ p.silenceMs.toNat ∧
      p.silenceMs.toNat ≤ 60000 ∧ p.rsv = 0) :=
  ⟨⟨hdr (cmd 0x0501 .openC false 32), rdy, strAdd, 0, 0, by decide +kernel⟩,
   ⟨hdr (cmd 0x0502 .openC false 12), strRdy, ⟨0, 7, 1, 0, 0, 4096, 0⟩, str0, by decide +kernel⟩,
   ⟨hdr (cmd 0x0502 .openC false 12), strRdy, ⟨0, 7, 1, 1, 0, 4096, 0⟩, str0, alnStr0, by decide +kernel⟩,
   ⟨hdr (cmdLong 0x0503 .openC false 4), strRdy, ⟨0⟩, str0, by decide +kernel⟩,
   ⟨hdr (cmd 0x0504 .openC false 8), { strRdy with ing := { strRdy.ing with streams := [(0, { str0 with pending := some cfg0 })] } }, ⟨0, 3, 0⟩,
      { str0 with pending := some cfg0 }, cfg0, by decide +kernel⟩,
   ⟨hdr (cmd 0x0505 .openC false 8), strRdy, ⟨0, 6, 0⟩, str0, by decide +kernel⟩,
   ⟨hdr (cmd 0x0506 .control false 8), rdy, ⟨1, 32, 1, 32, 60000, 0⟩, by decide +kernel⟩⟩

/-- The hypotheses of StreamFramesComplete can be met, clause by clause. -/
theorem test_StreamFramesComplete_can_be_met :
    (∃ (s : State) (f : C37Data) (n : Nat) (v : Stream) (t : State), c37Stage f.head 0 s = (some n, t) ∧ c37Held s f.head 0 = false ∧ getStream t n =
      some v ∧ v.state = .awaitCfg) ∧
    (∃ (s : State) (f : C37Data) (n : Nat) (v : Stream) (t : State), c37Stage f.head 0 s = (some n, t) ∧ c37Held s f.head 0 = false ∧ getStream t n =
      some v ∧ (v.state = .paused ∨ v.state = .retiring)) ∧
    (∃ (s : State) (f : C37Data) (n : Nat) (v : Stream) (t : State) (c : C37Cfg) (new : Bool), c37Stage f.head 0 s = (some n, t) ∧ c37Held s f.head 0
      = false ∧ getStream t n = some v ∧ v.state = .active ∧ chooseCfg v f = some (c, new)) ∧
    (∃ (s : State) (f : C37CfgFrame) (n : Nat) (t : State), c37Stage f.head 2 s = (some n, t) ∧ c37Held s f.head 2 = false ∧ f.kind = .cfg1) ∧
    (∃ (s : State) (f : C37CfgFrame) (n : Nat) (t : State), c37Stage f.head 3 s = (some n, t) ∧ c37Held s f.head 3 = false ∧ f.kind = .cfg2) ∧
    (∃ (s : State) (f : C37CfgFrame) (idx : U16) (n : Nat) (t : State), c37Stage f.head 5 s = (some n, t) ∧ c37Held s f.head 5 = false ∧ f.kind =
      .cfg3 idx) ∧
    (∃ (s : State) (f : C37Header) (n : Nat) (v : Stream) (t : State), c37Stage f.head 1 s = (some n, t) ∧ c37Held s f.head 1 = false ∧ getStream t n
      = some v ∧ v.state ≠ .retiring) ∧
    (∃ (s : State) (f : C37Command) (n : Nat) (p : Pub) (x : State), x = readEntry f.head.port.toNat f.head.key f.head.ecc (popC37 f.head.port.toNat
      false s) ∧ c37Held s f.head 4 = false ∧ findStream x f.head.port.toNat f.head.key = none ∧ f.head.poisoned = false ∧ 16 ≤ f.head.payloadLen ∧
      f.head.syncOk = true ∧ f.head.rct = none ∧ f.frameType = 4 ∧ f.head.frameSize = f.head.payloadLen ∧ f.head.version = 2 ∧ f.head.chkOk = true ∧
      f.head.key.transport = 0 ∧ (pubsAt x f.head.port.toNat f.head.key.dstPort).find? (fun e => decide (e.2.idcode = f.head.key.idcode)) = some (n,
      p)) :=
  ⟨⟨waitRdy, dataF, 0, { str0 with state := .awaitCfg }, waitRdy, by decide +kernel⟩,
   ⟨pauseRdy, dataF, 0, { str0 with state := .paused }, pauseRdy, by decide +kernel⟩,
   ⟨strRdy, dataF, 0, str0, strRdy, cfg0, false, by decide +kernel⟩,
   ⟨strRdy, ⟨head0, .cfg1, cfg0⟩, 0, strRdy, by decide +kernel⟩,
   ⟨strRdy, ⟨head0, .cfg2, cfg0⟩, 0, strRdy, by decide +kernel⟩,
   ⟨strRdy, ⟨head0, .cfg3 0xFFFF, cfg0⟩, 0xFFFF, 0, strRdy, by decide +kernel⟩,
   ⟨strRdy, ⟨head0, []⟩, 0, str0, strRdy, by decide +kernel⟩,
   ⟨pubRdy, ⟨{ head0 with key := { key0 with transport := 0, dstPort := 4713, idcode := 9 } }, 4, 1⟩, 0, pub0, pubRdy, by decide +kernel⟩⟩

/-- The hypotheses of IngestEventsComplete can be met, clause by clause. -/
theorem test_IngestEventsComplete_can_be_met :
    (∃ (handle : U32) (s : State) (v : Stream) (a : AlnStream), let n := handle.toNat; getStream s n = some v ∧ v.state = .active ∧ v.silent = false ∧
      v.silenceEl + s.ing.silenceMs * 1000000 ≤ elNs s ∧ tget (raise 0x0504 2 (leBytes 4 n ++ leBytes 8 v.lastTag) (some v.owner) (setStream n
      { v with silent := true } s)).aln.streams n = some a) ∧
    (∃ (handle : U32) (s : State) (v : Stream) (x : Nat), let n := handle.toNat; getStream s n = some v ∧ v.state = .retiring ∧ v.retireAt = some x ∧
      x ≤ taiNs s) ∧
    (∃ (handle : U32) (s : State) (v : Stream), let n := handle.toNat; getStream s n = some v ∧ (v.key.transport = 1 ∨ v.key.transport = 2) ∧ v.linkUp
      = true) ∧
    (∃ (handle : U32) (s : State) (v : Stream) (e : Nat), let n := handle.toNat; getStream s n = some v ∧ v.key.transport = 1 ∧ v.linkUp = false ∧
      v.connEl = some e ∧ e + 5000000000 ≤ elNs s) ∧
    (∃ (handle : U32) (s : State) (v : Stream), let n := handle.toNat; getStream s n = some v ∧ (v.key.transport = 1 ∨ v.key.transport = 2) ∧ v.linkUp
      = false) ∧
    (∃ (s : State) (g : U16) (d : Tbl Stream), s.ing.rebuilding = true ∧ g = s.ing.hashGen + 1 + BitVec.ofNat 16 s.ing.rebuildTries ∧ rebuildDir
      g.toNat s.ing.streams = some d) :=
  ⟨⟨0, strRdy, str0, alnStr0, by dsimp only; decide +kernel⟩,
   ⟨0, { strRdy with ing := { strRdy.ing with streams := [(0, { str0 with state := .retiring, retireAt := some 0 })] } },
      { str0 with state := .retiring, retireAt := some 0 }, 0, by dsimp only; decide +kernel⟩,
   ⟨0, strRdy, str0, by dsimp only; decide +kernel⟩,
   ⟨0, { strRdy with ing := { strRdy.ing with streams := [(0, { str0 with linkUp := false, connEl := some 0 })] } },
      { str0 with linkUp := false, connEl := some 0 }, 0, by dsimp only; decide +kernel⟩,
   ⟨0, { strRdy with ing := { strRdy.ing with streams := [(0, { str0 with linkUp := false })] } }, { str0 with linkUp := false },
      by dsimp only; decide +kernel⟩,
   ⟨{ rdy with ing := { rdy.ing with rebuilding := true } }, 1, [], by decide +kernel⟩⟩

/-- The hypotheses of AlignmentCommandsComplete can be met, clause by clause. -/
theorem test_AlignmentCommandsComplete_can_be_met :
    (∃ (h : Hdr) (s : State) (p : GridConfigP), Admitted (cmd 0x0601 .control false 16) h s ∧ gridConfigOk p = true ∧ (p.windowMs.toNat ≤ (getGrid s
      p.grid.toNat).cfg.windowMs ∨ poolBytes s - gridBytes s p.grid.toNat (getGrid s p.grid.toNat).cfg.windowMs + gridBytes s p.grid.toNat
      p.windowMs.toNat ≤ poolSize s)) ∧
    (∃ (h : Hdr) (s : State) (p : PubAddP) (n : Nat), Admitted (cmd 0x0602 .openC false (36 + 4 * p.nMembers.toNat)) h s ∧ pubAddOk s h p = true ∧
      (useOf s h.part).publications + 1 ≤ (getPart s h.part).quota.publications ∧ tfreeFrom s.aln.pubs 256 0 = some n ∧ p.kind = 0) ∧
    (∃ (h : Hdr) (s : State) (p : PubAddP) (n : Nat), Admitted (cmd 0x0602 .openC false (36 + 4 * p.nMembers.toNat)) h s ∧ pubAddOk s h p = true ∧
      (useOf s h.part).publications + 1 ≤ (getPart s h.part).quota.publications ∧ tfreeFrom s.aln.pubs 256 0 = some n ∧ p.kind = 1) ∧
    (∃ (h : Hdr) (s : State) (p : PubChangeP) (v : Pub), Admitted (cmd 0x0603 .openC false (12 + 4 * p.nMembers.toNat)) h s ∧ getPub s p.pub.toNat =
      some v ∧ mayName s h.part v.owner = true ∧ p.enable = 1 ∧ p.rsv = 0 ∧ p.nMembers = 0 ∧ p.handles = [] ∧ v.host = true ∧ p.options &&& 0xFC = 0) ∧
    (∃ (h : Hdr) (s : State) (p : PubRetireP) (v : Pub), Admitted (cmd 0x0604 .openC false 4) h s ∧ p.rsv = 0 ∧ getPub s p.pub.toNat = some v ∧
      mayName s h.part v.owner = true) :=
  ⟨⟨hdr (cmd 0x0601 .control false 16), rdy, ⟨19, 64, 40, 0, 101, 1, 0, 0, 100000⟩, by decide +kernel⟩,
   ⟨hdr (cmd 0x0602 .openC false 40), strRdy, pubP, 0, by decide +kernel⟩,
   ⟨hdr (cmd 0x0602 .openC false 40), { strRdy with host := ringRdy.host }, { pubP with kind := 1, idcode := 0, ring := 0, offsetUs := 0 }, 0,
      by decide +kernel⟩,
   ⟨hdr (cmd 0x0603 .openC false 12), { rdy with aln := { rdy.aln with pubs := [(0, { pub0 with host := true })] } }, ⟨0, 1, 3, 0, 0, 0, []⟩,
      { pub0 with host := true }, by decide +kernel⟩,
   ⟨hdr (cmd 0x0604 .openC false 4), pubRdy, ⟨0, 0⟩, pub0, by decide +kernel⟩⟩

/-- The hypotheses of SlabEventsComplete can be met, clause by clause. -/
theorem test_SlabEventsComplete_can_be_met :
    (∃ (s : State) (grid : BitVec 5) (g : Nat) (t : Nat), g = grid.toNat ∧ g < 20 ∧ (getGrid s g).active = true ∧ t = (if gridInstant (rateOfGrid g)
      (gridIndex (rateOfGrid g) (taiNs s)) ≤ taiNs s then gridInstant (rateOfGrid g) (gridIndex (rateOfGrid g) (taiNs s)) else gridInstant (rateOfGrid
      g) (gridIndex (rateOfGrid g) (taiNs s) - 1)) ∧ (getGrid (slabBoundary g s) g).active = true ∧ (slabBoundary g s).clk.timeValid = true ∧ getSlab
      (slabBoundary g s) g t = none ∧ leftRing (slabBoundary g s) g t = false) ∧
    (∃ (s : State) (grid : BitVec 5) (tag : U64) (v : Slab), getSlab s grid.toNat tag.toNat = some v ∧ byDevTime s v = true ∧ v.state = .forming ∧ 0 <
      v.cfg.spec16 ∧ specAt grid.toNat tag.toNat v ≤ tickNow s ∧ tickNow s < deadlineAt tag.toNat v ∧ missing v ≠ []) ∧
    (∃ (s : State) (grid : BitVec 5) (tag : U64) (v : Slab), getSlab s grid.toNat tag.toNat = some v ∧ byDevTime s v = true ∧ (v.state = .forming ∨
      v.state = .speculative) ∧ missing v ≠ [] ∧ deadlineAt tag.toNat v ≤ tickNow s) ∧
    (∃ (s : State) (grid : BitVec 5) (tag : U64) (v : Slab) (due : Nat), getSlab s grid.toNat tag.toNat = some v ∧ v.state = .final ∧ v.held ≠ [] ∧
      due = tickUp (max v.heldTs (max v.finalTs v.lastPatchTs + v.cfg.patchGapUs * 1000)) ∧ due ≤ taiNs s) ∧
    (∃ (s : State) (grid : BitVec 5) (tag : U64) (v : Slab) (due : Nat), getSlab s grid.toNat tag.toNat = some v ∧ byDevTime s v = true ∧ v.state =
      .final ∧ due = tickUp (tag.toNat + v.cfg.windowMs * 1000000) ∧ due ≤ taiNs s) ∧
    (∃ (s : State) (pub : U16) (p : Pub), getPub s pub.toNat = some p) :=
  ⟨⟨timely, BitVec.ofNat 5 g50, g50, 5000000000, by decide +kernel⟩,
   ⟨specRdy, BitVec.ofNat 5 g50, 1000000000, (getSlab specRdy g50 slabTag).getD slabZ, by decide +kernel⟩,
   ⟨slabRdy, BitVec.ofNat 5 g50, 1000000000, slab0, by decide +kernel⟩,
   ⟨patchRdy, BitVec.ofNat 5 g50, 1000000000, { slab1 with held := [(0, [])] }, 1000, by decide +kernel⟩,
   ⟨finalRdy, BitVec.ofNat 5 g50, 1000000000, slab1, 1000000000, by decide +kernel⟩,
   ⟨pubRdy, 0, pub0, by decide +kernel⟩⟩

/-- The hypotheses of OscillationCommandsComplete can be met, clause by clause. -/
theorem test_OscillationCommandsComplete_can_be_met :
    (∃ (h : Hdr) (s : State) (p : OscScreenConfigP), Admitted (cmd 0x0701 .control false 20) h s ∧ (3 ≤ p.thrOnDb.toNat ∧ p.thrOnDb.toNat ≤ 40) ∧
      p.thrOffDb.toNat < p.thrOnDb.toNat ∧ (4 ≤ p.baseShift.toNat ∧ p.baseShift.toNat ≤ 14) ∧ p.bandMask.toNat < 64 ∧ (10 ≤ p.warmS.toNat ∧
      p.warmS.toNat ≤ 1023) ∧ p.rsv = 0 ∧ (1 ≤ p.floorF.toNat ∧ p.floorF.toNat ≤ 1000000) ∧ (1 ≤ p.floorRocof.toNat ∧ p.floorRocof.toNat ≤ 10000000) ∧
      (1 ≤ p.floorRel.toNat ∧ p.floorRel.toNat ≤ 100000)) ∧
    (∃ (h : Hdr) (s : State) (p : OscEstConfigP), Admitted (cmd 0x0702 .control false 12) h s ∧ (1 ≤ p.swapDb.toNat ∧ p.swapDb.toNat ≤ 20) ∧ (5 ≤
      p.windowS.toNat ∧ p.windowS.toNat ≤ 120) ∧ (5 ≤ p.holdS.toNat ∧ p.holdS.toNat ≤ 600) ∧ (1 ≤ p.zetaSdMax.toNat ∧ p.zetaSdMax.toNat ≤ 100) ∧ (3 ≤
      p.convCycles.toNat ∧ p.convCycles.toNat ≤ 20) ∧ (5 ≤ p.groupDf.toNat ∧ p.groupDf.toNat ≤ 100) ∧ (5 ≤ p.groupDzeta.toNat ∧ p.groupDzeta.toNat ≤
      100) ∧ (1 ≤ p.defMinKw.toNat ∧ p.defMinKw.toNat ≤ 1000000)) ∧
    (∃ (h : Hdr) (s : State) (p : OscAlarmConfigP), Admitted (cmd 0x0703 .control false 24) h s ∧ p.enables.toNat < 8 ∧ (1 ≤ p.zetaThr.toNat ∧
      p.zetaThr.toNat ≤ 200) ∧ (1 ≤ p.zetaHyst.toNat ∧ p.zetaHyst.toNat ≤ 50) ∧ (1 ≤ p.forcedZeta.toNat ∧ p.forcedZeta.toNat ≤ 20) ∧ (1 ≤
      p.dampPersistS.toNat ∧ p.dampPersistS.toNat ≤ 600) ∧ (1 ≤ p.ampPersistS.toNat ∧ p.ampPersistS.toNat ≤ 600) ∧ (10 ≤ p.forcedPersistS.toNat ∧
      p.forcedPersistS.toNat ≤ 600) ∧ (1 ≤ p.clearS.toNat ∧ p.clearS.toNat ≤ 600) ∧ (1 ≤ p.ampF.toNat ∧ p.ampF.toNat ≤ 10000000) ∧ (1 ≤
      p.ampRocof.toNat ∧ p.ampRocof.toNat ≤ 100000000) ∧ (1 ≤ p.ampRel.toNat ∧ p.ampRel.toNat ≤ 1000000)) ∧
    (∃ (h : Hdr) (s : State) (p : OscWatchP) (e : Nat), Admitted (cmd 0x0704 .control false 8) h s ∧ p.rsv = 0 ∧ screenedKind (chanKind s
      p.chan.toNat) = true ∧ watchedChan s p.chan.toNat = false ∧ tfreeFrom s.osc.watch 512 0 = some e) ∧
    (∃ (h : Hdr) (s : State) (p : OscWatchP), Admitted (cmd 0x0704 .control false 8) h s ∧ p.rsv = 0 ∧ watchedChan s p.chan.toNat = true ∧ slotOf s
      p.chan.toNat = none) ∧
    (∃ (h : Hdr) (s : State) (p : OscBranchP) (n : Nat), Admitted (cmd 0x0705 .control false 12) h s ∧ p.rsv = 0 ∧ p.branch = 0 ∧ chanKind s
      p.vChan.toNat = 1 ∧ chanKind s p.iChan.toNat = 2 ∧ (chanGrid s p.vChan.toNat).isSome = true ∧ chanGrid s p.vChan.toNat = chanGrid s
      p.iChan.toNat ∧ tfreeFrom s.osc.branches 1024 0 = some n) ∧
    (∃ (h : Hdr) (s : State) (p : OscBranchP), Admitted (cmd 0x0705 .control false 12) h s ∧ p.rsv = 0 ∧ p.vChan = 0 ∧ p.iChan = 0 ∧ p.branch.toNat <
      1024 ∧ (tget s.osc.branches p.branch.toNat).isSome = true) ∧
    (∃ (h : Hdr) (s : State) (p : OscRelearnP), Admitted (cmd 0x0706 .control false 8) h s ∧ p.rsv = 0 ∧ p.scope = 0 ∧ screenedKind (chanKind s
      p.id.toNat) = true) ∧
    (∃ (h : Hdr) (s : State) (p : OscRelearnP), Admitted (cmd 0x0706 .control false 8) h s ∧ p.rsv = 0 ∧ p.scope = 1 ∧ (getStream s p.id.toNat).isSome
      = true) ∧
    (∃ (h : Hdr) (s : State) (p : OscOutputBindP), Admitted (cmd 0x0707 .openC false 4) h s ∧ p.rsv = 0 ∧ (1 ≤ p.outDiv.toNat ∧ p.outDiv.toNat ≤ 200)
      ∧ p.ring ≠ 0xFF ∧ tget s.osc.outRing h.part.val = none ∧ ringFree s h.part p.ring.toNat false = true) ∧
    (∃ (h : Hdr) (s : State) (p : OscOutputBindP) (n : Nat), Admitted (cmd 0x0707 .openC false 4) h s ∧ p.rsv = 0 ∧ (1 ≤ p.outDiv.toNat ∧
      p.outDiv.toNat ≤ 200) ∧ p.ring = 0xFF ∧ tget s.osc.outRing h.part.val = some n) :=
  ⟨⟨hdr (cmd 0x0701 .control false 20), rdy, ⟨40, 39, 14, 63, 1023, 0, 1000000, 1, 100000⟩, by decide +kernel⟩,
   ⟨hdr (cmd 0x0702 .control false 12), rdy, ⟨20, 5, 600, 1, 20, 5, 100, 1⟩, by decide +kernel⟩,
   ⟨hdr (cmd 0x0703 .control false 24), rdy, ⟨7, 200, 1, 20, 600, 1, 10, 600, 1, 100000000, 1⟩, by decide +kernel⟩,
   ⟨hdr (cmd 0x0704 .control false 8), strRdy, ⟨0, 0⟩, 0, by decide +kernel⟩,
   ⟨hdr (cmd 0x0704 .control false 8), { strRdy with osc := { strRdy.osc with watch := [(0, 0)] } }, ⟨0, 0⟩, by decide +kernel⟩,
   ⟨hdr (cmd 0x0705 .control false 12), viRdy, ⟨0, 0, 0, 1⟩, 0, by decide +kernel⟩,
   ⟨hdr (cmd 0x0705 .control false 12), { rdy with osc := { rdy.osc with branches := [(1023, ⟨0, 1, none, 0, 0, 0, 0, [], []⟩)] } }, ⟨0, 1023, 0, 0⟩,
      by decide +kernel⟩,
   ⟨hdr (cmd 0x0706 .control false 8), strRdy, ⟨0, 0, 0⟩, by decide +kernel⟩,
   ⟨hdr (cmd 0x0706 .control false 8), strRdy, ⟨1, 0, 0⟩, by decide +kernel⟩,
   ⟨hdr (cmd 0x0707 .openC false 4), ringRdy, ⟨0, 200, 0⟩, by decide +kernel⟩,
   ⟨hdr (cmd 0x0707 .openC false 4), { ringRdy with osc := { ringRdy.osc with outRing := [(0, 0)] } }, ⟨255, 1, 0⟩, 0, by decide +kernel⟩⟩

/-- The hypotheses of OscillationEventsComplete can be met, clause by clause. -/
theorem test_OscillationEventsComplete_can_be_met :
    (∃ (s : State) (grid : BitVec 5) (tag : U64) (v : Slab), getSlab s grid.toNat tag.toNat = some v ∧ v.screened = false ∧ (v.state = .final ∨
      v.state = .history)) ∧
    (∃ (s : State) (grid : BitVec 5) (tag : U64) (v : Slab), getSlab s grid.toNat tag.toNat = some v ∧ v.screened = true ∧ v.scrPatches < v.patches) ∧
    (∃ (s : State) (slot : U16) (v : EstSlot), getSlot s slot.toNat = some v) ∧
    (∃ (s : State) (n : Nat) (k : Nat) (v : EstSlot), getSlot s n = some v ∧ stepDue s v k = true) ∧
    (∃ (s : State) (slot : U16) (v : EstSlot), getSlot s slot.toNat = some v ∧ v.state = .hold ∧ (v.unwatched = true ∨ slotClear s v = true) ∧
      v.holdSince + (oscFor s v.grid (lastScreened s v.grid)).holdS * 1000000000 ≤ lastScreened s v.grid) :=
  ⟨⟨finalRdy, BitVec.ofNat 5 g50, 1000000000, slab1, by decide +kernel⟩,
   ⟨setSlab g50 slabTag { slab1 with screened := true, patches := 1 } finalRdy, BitVec.ofNat 5 g50, 1000000000,
      { slab1 with screened := true, patches := 1 }, by decide +kernel⟩,
   ⟨slotRdy, 0, slotV, by decide +kernel⟩,
   ⟨slotRdy, 0, 1000000000, slotV, by decide +kernel⟩,
   ⟨{ slotRdy with osc := { slotRdy.osc with slots := [(0, { slotV with state := .hold })], screened := [(g50, 900000000000)] } }, 0,
      { slotV with state := .hold }, by decide +kernel⟩⟩

/-- The hypotheses of IslandCommandsComplete can be met, clause by clause. -/
theorem test_IslandCommandsComplete_can_be_met :
    (∃ (h : Hdr) (s : State) (p : ClusterConfigP), Admitted (cmd 0x0801 .control false 12) h s ∧ 7 ≤ p.grid.toNat ∧ p.grid.toNat ≤ 19 ∧ p.fNom.toNat <
      2 ∧ 200 ≤ p.windowMs.toNat ∧ p.windowMs.toNat ≤ 2000 ∧ 1 ≤ p.joinMhz.toNat ∧ p.joinMhz.toNat ≤ 100 ∧ p.joinMhz.toNat < p.leaveMhz.toNat ∧
      p.leaveMhz.toNat ≤ 200 ∧ 1 ≤ p.mergeMhz.toNat ∧ p.mergeMhz.toNat ≤ p.joinMhz.toNat ∧ 1 ≤ p.minMembers.toNat ∧ 1 ≤ p.obsPct.toNat ∧
      p.obsPct.toNat ≤ 100 ∧ 50 ≤ p.usablePct.toNat ∧ p.usablePct.toNat ≤ 100 ∧ p.rsv = 0 ∧ (s.isl.signals = [] ∨ s.isl.cfg.grid = some p.grid.toNat)) ∧
    (∃ (h : Hdr) (s : State) (p : BusSignalP), Admitted (cmd 0x0802 .control false 12) h s ∧ p.rsv = 0 ∧ p.index.toNat < 16384 ∧ tget s.isl.signals
      p.index.toNat = none ∧ onCluGrid s p.fChan.toNat 3 = true ∧ onCluGrid s p.aChan.toNat 1 = true ∧ s.isl.signals.length < 16384) ∧
    (∃ (h : Hdr) (s : State) (p : BusSignalP), Admitted (cmd 0x0802 .control false 12) h s ∧ p.rsv = 0 ∧ p.index.toNat < 16384 ∧ p.fChan = 0 ∧ p.aChan
      = 0 ∧ (tget s.isl.signals p.index.toNat).isSome = true) ∧
    (∃ (h : Hdr) (s : State) (p : ClusterRefP), Admitted (cmd 0x0803 .control false 16) h s ∧ p.ref.length = 8 ∧ (p.ref.all (fun r => decide (r =
      0xFFFF ∨ r.toNat < 16384)) = true)) ∧
    (∃ (h : Hdr) (s : State) (p : BreakerMapP) (e : Nat), Admitted (cmd 0x0804 .control false 16) h s ∧ p.bit.toNat < 16 ∧ p.entry = 0 ∧ p.sigA.toNat
      < 16384 ∧ p.sigB.toNat < 16384 ∧ p.closed.toNat < 2 ∧ p.rsv = 0 ∧ chanKind s p.chan.toNat = 6 ∧ tfreeFrom s.isl.breakers 1024 0 = some e) ∧
    (∃ (h : Hdr) (s : State) (p : BreakerMapP), Admitted (cmd 0x0804 .control false 16) h s ∧ p.entry.toNat < 1024 ∧ p.rsv = 0 ∧ p.bit.toNat < 16 ∧
      p.closed.toNat < 2 ∧ (tget s.isl.breakers p.entry.toNat).isSome = true) ∧
    (∃ (h : Hdr) (s : State) (p : DetectorConfigP), Admitted (cmd 0x0805 .control false 36) h s ∧ detectorOk p = true) ∧
    (∃ (h : Hdr) (s : State) (p : AlarmMapP), Admitted (cmd 0x0806 .control false 12) h s ∧ p.rsv = 0 ∧ p.entry.toNat < 256 ∧ p.first.toNat ≤
      p.last.toNat ∧ p.rsv2 = 0) ∧
    (∃ (h : Hdr) (s : State) (p : AlarmMapP), Admitted (cmd 0x0806 .control false 12) h s ∧ p.rsv = 0 ∧ p.entry.toNat < 256 ∧ p.first.toNat ≤
      p.last.toNat ∧ p.rsv2 = 0 ∧ (tget s.alm.map p.entry.toNat).isSome = true) ∧
    (∃ (h : Hdr) (s : State) (p : AlarmFrameConfigP), Admitted (cmd 0x080A .control false 8) h s ∧ p.rep.toNat < 8 ∧ 1 ≤ p.repMs.toNat ∧ p.repMs.toNat
      ≤ 50 ∧ 100 ≤ p.refreshMs.toNat ∧ p.refreshMs.toNat ≤ 10000 ∧ (p.rxPort ≠ 0 → portTaken s 3 false p.rxPort.toNat allMacs = false)) :=
  ⟨⟨hdr (cmd 0x0801 .control false 12), rdy, cluP, by decide +kernel⟩,
   ⟨hdr (cmd 0x0802 .control false 12), cluRdy, ⟨0, 16383, 2, 0⟩, by decide +kernel⟩,
   ⟨hdr (cmd 0x0802 .control false 12), { rdy with isl := { rdy.isl with signals := [(5, ⟨1, 0, none, false, false, 0⟩)] } }, ⟨0, 5, 0, 0⟩,
      by decide +kernel⟩,
   ⟨hdr (cmd 0x0803 .control false 16), rdy, ⟨[0xFFFF, 16383, 0, 0, 0, 0, 0, 0]⟩, by decide +kernel⟩,
   ⟨hdr (cmd 0x0804 .control false 16), digRdy, ⟨15, 0, 3, 16383, 0, 1, 0⟩, 0, by decide +kernel⟩,
   ⟨hdr (cmd 0x0804 .control false 16), { rdy with isl := { rdy.isl with breakers := [(1023, ⟨0, 0, 0, 0, false⟩)] } }, ⟨0, 1023, 0, 0, 0, 0, 0⟩,
      by decide +kernel⟩,
   ⟨hdr (cmd 0x0805 .control false 36), rdy, detP, by decide +kernel⟩,
   ⟨hdr (cmd 0x0806 .control false 12), rdy, ⟨0, 255, 7, 7, 0, 0⟩, by decide +kernel⟩,
   ⟨hdr (cmd 0x0806 .control false 12), { rdy with alm := { rdy.alm with map := [(255, (7, 7, 0))] } }, ⟨0, 255, 7, 7, 0, 0⟩, by decide +kernel⟩,
   ⟨hdr (cmd 0x080A .control false 8), rdy, ⟨3, 7, 50, 10000, 4000⟩, by decide +kernel⟩⟩

/-- The hypotheses of AlarmStageCommandsComplete can be met, clause by clause. -/
theorem test_AlarmStageCommandsComplete_can_be_met :
    (∃ (h : Hdr) (s : State) (p : AlarmStageP), Admitted (cmd 0x0807 .stage true 36) h s ∧ p.stage.toNat < 16 ∧ p.enable = 1 ∧ p.mode.toNat < 2 ∧
      p.flags.toNat < 16 ∧ p.minOnMs.toNat ≤ 10000 ∧ p.rsv = 0 ∧ p.offsetUs.toNat ≤ 1000000 ∧ p.rsv2 = 0 ∧ p.rsv3 = 0 ∧ targetOk p.frameTarget = true
      ∧ stageClaimOk s h.part p.stage.toNat = true ∧ (getStage s p.stage.toNat).state = .disabled) ∧
    (∃ (h : Hdr) (s : State) (p : AlarmStageP), Admitted (cmd 0x0807 .stage true 36) h s ∧ p.stage.toNat < 16 ∧ p.enable = 0 ∧ p.mode.toNat < 2 ∧
      p.flags.toNat < 16 ∧ p.minOnMs.toNat ≤ 10000 ∧ p.rsv = 0 ∧ p.offsetUs.toNat ≤ 1000000 ∧ p.rsv2 = 0 ∧ p.rsv3 = 0 ∧ targetOk p.frameTarget = true
      ∧ stageClaimOk s h.part p.stage.toNat = true) ∧
    (∃ (h : Hdr) (s : State) (p : AlarmAckP), Admitted (cmd 0x0808 .stage true 4) h s ∧ p.rsv = 0 ∧ (stageList p.stages.toNat).all (fun n =>
      stageClaimOk s h.part n) = true) ∧
    (∃ (h : Hdr) (s : State) (p : AlarmTestP), Admitted (cmd 0x0809 .stage false 4) h s ∧ alarmTestOk p = true ∧ stageClaimOk s h.part p.stage.toNat =
      true ∧ (getStage s p.stage.toNat).state ≠ .disabled) ∧
    (∃ (h : Hdr) (s : State) (p : AlarmTestP), Admitted (cmd 0x0809 .stage false 4) h s ∧ alarmTestOk p = true ∧ stageClaimOk s h.part p.stage.toNat =
      true ∧ (getStage s p.stage.toNat).state = .test) ∧
    (∃ (h : Hdr) (s : State) (p : AlarmGooseConfigP), Admitted (cmd 0x080B .stage false 208) h s ∧ p.stage.toNat < 16 ∧ p.appid.toNat ≤ 0x3FFF ∧
      p.vlan.getLsbD 12 = false ∧ 1 ≤ p.tMinMs.toNat ∧ p.tMinMs.toNat ≤ 16 ∧ 100 ≤ p.tMaxMs.toNat ∧ p.tMaxMs.toNat ≤ 10000 ∧ 0x010CCD010000 ≤
      p.dstMac.toNat ∧ p.dstMac.toNat ≤ 0x010CCD0101FF ∧ p.gocbRef.headD 0 ≠ 0 ∧ targetOk p.target = true ∧ asciiOk p.gocbRef = true ∧ asciiOk
      p.datSet = true ∧ asciiOk p.goId = true ∧ stageClaimOk s h.part p.stage.toNat = true ∧ (getStage s p.stage.toNat).gse = none) ∧
    (∃ (h : Hdr) (s : State) (p : AlarmGooseConfigP) (g : Goose), Admitted (cmd 0x080B .stage false 208) h s ∧ p.stage.toNat < 16 ∧ p.appid.toNat ≤
      0x3FFF ∧ p.vlan.getLsbD 12 = false ∧ 1 ≤ p.tMinMs.toNat ∧ p.tMinMs.toNat ≤ 16 ∧ 100 ≤ p.tMaxMs.toNat ∧ p.tMaxMs.toNat ≤ 10000 ∧ 0x010CCD010000 ≤
      p.dstMac.toNat ∧ p.dstMac.toNat ≤ 0x010CCD0101FF ∧ p.gocbRef.headD 0 ≠ 0 ∧ targetOk p.target = true ∧ asciiOk p.gocbRef = true ∧ asciiOk
      p.datSet = true ∧ asciiOk p.goId = true ∧ stageClaimOk s h.part p.stage.toNat = true ∧ (getStage s p.stage.toNat).gse = some g) :=
  ⟨⟨hdr (cmd 0x0807 .stage true 36), rdy, stgP, by decide +kernel⟩,
   ⟨hdr (cmd 0x0807 .stage true 36), rdy, { stgP with enable := 0 }, by decide +kernel⟩,
   ⟨hdr (cmd 0x0808 .stage true 4), rdy, ⟨0x8001, 0⟩, by decide +kernel⟩,
   ⟨hdr (cmd 0x0809 .stage false 4), stgRdy, ⟨3, 60000⟩, by decide +kernel⟩,
   ⟨hdr (cmd 0x0809 .stage false 4), { stgRdy with alm := { stgRdy.alm with stages := [(3, { getStage stgRdy 3 with state := .test })] } }, ⟨3, 1⟩,
      by decide +kernel⟩,
   ⟨hdr (cmd 0x080B .stage false 208), rdy, gooP, by decide +kernel⟩,
   ⟨hdr (cmd 0x080B .stage false 208), gooRdy, gooP, goo0, by decide +kernel⟩⟩

/-- The hypotheses of AlarmEventsComplete can be met, clause by clause. -/
theorem test_AlarmEventsComplete_can_be_met :
    (∃ (s : State) (tag : U64) (g : Nat) (x : Slab), s.isl.cfg.grid = some g ∧ getSlab s g tag.toNat = some x ∧ x.state ≠ .forming ∧ x.evals <
      releases x ∧ (x.patches = 0 ∨ patchWanted s g tag.toNat = true)) ∧
    (∃ (n : BitVec 4) (s : State) (e : Nat), let v := getStage s n.toNat; v.testEnd = some e ∧ v.state = .test ∧ e ≤ elNs s) ∧
    (∃ (n : BitVec 4) (s : State), let v := getStage s n.toNat; v.state ≠ .disabled ∧ v.frame = true ∧ v.lastState ≠ refreshAt s s.alm.refreshMs) ∧
    (∃ (n : BitVec 4) (s : State) (g : Goose) (e : Nat), let v := getStage s n.toNat; v.gse = some g ∧ g.nextEl = some e ∧ e ≤ elNs s ∧ v.goose = true
      ∧ v.state ≠ .disabled) ∧
    (∃ (s : State) (f : AlarmRx), s.alm.rxPort ≠ 0 ∧ f.poisoned = true) ∧
    (∃ (s : State) (f : AlarmRx), s.alm.rxPort ≠ 0 ∧ f.poisoned = false ∧ (f.len ≠ 64 ∨ f.magic ≠ 0x4F54414C ∨ f.version ≠ 1)) ∧
    (∃ (s : State) (f : AlarmRx), s.alm.rxPort ≠ 0 ∧ f.poisoned = false ∧ f.len = 64 ∧ f.magic = 0x4F54414C ∧ f.version = 1 ∧ (tgetD (popIn
      f.port.toNat .c0 s).alm.rxSeen f.sourceId.toNat []).contains f.seq = true) ∧
    (∃ (s : State) (f : AlarmRx) (seen : List U32), s.alm.rxPort ≠ 0 ∧ f.poisoned = false ∧ f.len = 64 ∧ f.magic = 0x4F54414C ∧ f.version = 1 ∧ seen =
      tgetD (popIn f.port.toNat .c0 s).alm.rxSeen f.sourceId.toNat [] ∧ seen.contains f.seq = false) :=
  ⟨⟨{ finalRdy with isl := { cluRdy.isl with signals := [] } }, 1000000000, g50, slab1, by decide +kernel⟩,
   ⟨3, { stgRdy with alm := { stgRdy.alm with stages := [(3, { getStage stgRdy 3 with state := .test, testEnd := some 4 })] } }, 4,
      by dsimp only; decide +kernel⟩,
   ⟨3, { stgRdy with alm := { stgRdy.alm with stages := [(3, { getStage stgRdy 3 with frame := true, lastState := 1 })] } },
      by dsimp only; decide +kernel⟩,
   ⟨3, gooRdy, goo0, 9, by dsimp only; decide +kernel⟩,
   ⟨rxRdy, { rxAlm with poisoned := true }, by decide +kernel⟩,
   ⟨rxRdy, { rxAlm with version := 2 }, by decide +kernel⟩,
   ⟨{ rxRdy with alm := { rxRdy.alm with rxSeen := [(2, [7])] } }, rxAlm, by decide +kernel⟩,
   ⟨rxRdy, rxAlm, [], by decide +kernel⟩⟩

/-- The hypotheses of CaptureCommandsComplete can be met, clause by clause. -/
theorem test_CaptureCommandsComplete_can_be_met :
    (∃ (h : Hdr) (s : State) (p : CaptureAddP) (b : Nat) (c : Nat), Admitted (cmd 0x0901 .openC false (24 + 8 * p.nLanes.toNat)) h s ∧ captureAddOk s
      h p = true ∧ b = capBytes (p.lanes.map (fun l => (l.kind.toNat, l.rate.toNat, l.maxSources.toNat))) p.preMs.toNat p.postMs.toNat
      p.patchHoldMs.toNat p.slots.toNat ∧ (useOf s h.part).captureRings + 1 ≤ (getPart s h.part).quota.captureRings ∧ capUsed s + b ≤ s.cap.poolMib *
      2 ^ 20 ∧ tfreeFrom s.cap.caps 64 0 = some c) ∧
    (∃ (h : Hdr) (s : State) (p : CaptureSourcesP) (k : Cap) (l : Lane), Admitted (cmd 0x0902 .openC false (8 + 8 * p.n.toNat)) h s ∧ getCap s
      p.capture.toNat = some k ∧ mayName s h.part k.owner = true ∧ p.rsv = 0 ∧ p.n.toNat ≤ 504 ∧ p.entries.length = p.n.toNat ∧ k.lanes[p.lane.toNat]?
      = some l ∧ p.entries.all (sourceOk s h l) = true ∧ (p.n = 0 ∨ l.sources.length + p.n.toNat ≤ l.maxSources) ∧ k.state = .disarmed) ∧
    (∃ (h : Hdr) (s : State) (p : CaptureTriggerSetP) (k : Cap), Admitted (cmd 0x0903 .openC false 32) h s ∧ getCap s p.capture.toNat = some k ∧
      mayName s h.part k.owner = true ∧ triggerSetOk k p = true ∧ k.state = .disarmed ∧ p.kind ≠ 6) ∧
    (∃ (h : Hdr) (s : State) (p : CaptureTriggerSetP) (k : Cap), Admitted (cmd 0x0903 .openC false 32) h s ∧ getCap s p.capture.toNat = some k ∧
      mayName s h.part k.owner = true ∧ triggerSetOk k p = true ∧ k.state = .disarmed ∧ p.kind = 6 ∧ s.clk.timeValid = true ∧ taiNs s ≤ p.param.toNat) ∧
    (∃ (h : Hdr) (s : State) (p : CaptureArmP) (k : Cap), Admitted (cmd 0x0904 .openC true 4) h s ∧ getCap s p.capture.toNat = some k ∧ mayName s
      h.part k.owner = true ∧ p.rsv = 0 ∧ k.state = .disarmed) ∧
    (∃ (h : Hdr) (s : State) (p : CaptureArmP) (k : Cap), Admitted (cmd 0x0904 .openC true 4) h s ∧ getCap s p.capture.toNat = some k ∧ mayName s
      h.part k.owner = true ∧ p.rsv = 0 ∧ k.state ≠ .disarmed ∧ tany (fun _ r => openRec r.state) k.slots = false) ∧
    (∃ (h : Hdr) (s : State) (p : CaptureTriggerP), Admitted (cmd 0x0905 .openC true 16) h s ∧ capNamed s h p.capture = true ∧ p.rsv = 0 ∧
      p.flags.toNat < 4 ∧ (p.flags.getLsbD 0 = true → s.clk.timeValid = true)) ∧
    (∃ (h : Hdr) (s : State) (p : CaptureRecordFreeP) (k : Cap) (r : RecSlot), Admitted (cmd 0x0906 .openC false 4) h s ∧ getCap s p.capture.toNat =
      some k ∧ mayName s h.part k.owner = true ∧ p.rsv = 0 ∧ p.slot.toNat < k.slotCount ∧ tget k.slots p.slot.toNat = some r ∧ r.state = .ready) ∧
    (∃ (h : Hdr) (s : State) (p : CaptureExportP) (r : RecSlot), Admitted (cmdLong 0x0907 .openC false 8) h s ∧ recNamed s h p.source p.capture p.slot
      = true ∧ ringFree s h.part p.ring.toNat false = true ∧ p.fmt.toNat < 3 ∧ p.freeAfter.toNat < 2 ∧ p.rsv = 0 ∧ recAt s p.source.toNat
      p.capture.toNat p.slot.toNat = some r ∧ r.state = .ready) ∧
    (∃ (h : Hdr) (s : State) (p : CaptureRetireP) (k : Cap), Admitted (cmdLong 0x0908 .openC false 4) h s ∧ getCap s p.capture.toNat = some k ∧
      mayName s h.part k.owner = true ∧ p.force.toNat < 2 ∧ p.rsv = 0 ∧ k.retiring = none ∧ (p.force = 0 → tany (fun _ r => decide (r.state = .ready))
      k.slots = false)) ∧
    (∃ (h : Hdr) (s : State) (p : HalgaImportP) (n : Nat), Admitted (cmdLong 0x0909 .openC false 8) h s ∧ ringFree s h.part p.ring.toNat true = true ∧
      p.rsv = 0 ∧ 256 ≤ p.bytes.toNat ∧ p.bytes.toNat ≤ 1073741824 ∧ tfreeFrom s.cap.imports 16 0 = some n ∧ capUsed s + p.bytes.toNat ≤ s.cap.poolMib
      * 2 ^ 20) ∧
    (∃ (h : Hdr) (s : State) (p : HalgaMergeP) (n : Nat), Admitted (cmdLong 0x090A .openC false (4 + 4 * p.n.toNat)) h s ∧ p.mode = 0 ∧ 2 ≤ p.n.toNat
      ∧ p.n.toNat ≤ 16 ∧ p.inputs.length = p.n.toNat ∧ p.inputs.all (fun i => decide (i.rsv = 0) && recNamed s h i.source i.capture i.slot) = true ∧
      p.inputs.all (fun i => match recAt s i.source.toNat i.capture.toNat i.slot.toNat with | some r => decide (r.state = .ready) | none => false) =
      true ∧ tfreeFrom s.cap.merges 4 0 = some n) ∧
    (∃ (h : Hdr) (s : State) (p : CaptureRemoteConfigP), Admitted (cmd 0x090B .control false 24) h s ∧ p.txGroup.toNat < 64 ∧ (p.txTarget.toNat < 12 ∨
      p.txTarget.toNat = 0x10 ∨ p.txTarget.toNat = 0x11 ∨ p.txTarget.toNat = 0xFF) ∧ (p.rtPort = 0 ∨ portTaken s 4 false p.rtPort.toNat allMacs =
      false)) :=
  ⟨⟨hdr (cmd 0x0901 .openC false 32), capRdy, capP, capB, 0, by decide +kernel⟩,
   ⟨hdr (cmd 0x0902 .openC false 16), capRdy1, ⟨0, 0, 1, 0, [⟨95, 0, 0⟩]⟩, cap0, ⟨1, 0, 6, [], [], false, none⟩, by decide +kernel⟩,
   ⟨hdr (cmd 0x0903 .openC false 32), capRdy1, ⟨0, 15, 2, 1, 0, 1, 5, 0, 0, 0, 600000, 0⟩, cap0, by decide +kernel⟩,
   ⟨hdr (cmd 0x0903 .openC false 32), { capRdy1 with clk := { capRdy1.clk with timeValid := true } }, ⟨0, 15, 6, 0, 0, 1, 0, 0, 0, 1000, 600000, 0⟩,
      cap0, by decide +kernel⟩,
   ⟨hdr (cmd 0x0904 .openC true 4), capRdy1, ⟨0, 0⟩, cap0, by decide +kernel⟩,
   ⟨hdr (cmd 0x0904 .openC true 4), capRdy2, ⟨0, 0⟩, { cap0 with state := .armed }, by decide +kernel⟩,
   ⟨hdr (cmd 0x0905 .openC true 16), capRdy2, ⟨0, 2, 0, 0⟩, by decide +kernel⟩,
   ⟨hdr (cmd 0x0906 .openC false 4), recRdy, ⟨0, 1, 0⟩, capRec, rec0, by decide +kernel⟩,
   ⟨hdr (cmdLong 0x0907 .openC false 8), { recRdy with host := ringRdy.host }, ⟨0, 0, 1, 2, 0, 1, 0⟩, rec0, by decide +kernel⟩,
   ⟨hdr (cmdLong 0x0908 .openC false 4), recRdy, ⟨0, 1, 0⟩, capRec, by decide +kernel⟩,
   ⟨hdr (cmdLong 0x0909 .openC false 8), { capRdy with host := ringRdy.host }, ⟨1, 0, 256⟩, 0, by decide +kernel⟩,
   ⟨hdr (cmdLong 0x090A .openC false 12), recRdy, ⟨0, 2, 0, 0, [⟨0, 0, 1, 0⟩, ⟨0, 0, 1, 0⟩]⟩, 0, by decide +kernel⟩,
   ⟨hdr (cmd 0x090B .control false 24), rdy, ⟨4000, 3, 63, 0x11, 4000, 0⟩, by decide +kernel⟩⟩

/-- The hypotheses of CaptureEventsComplete can be met, clause by clause. -/
theorem test_CaptureEventsComplete_can_be_met :
    (∃ (c : U8) (s : State) (k : Cap), getCap s c.toNat = some k ∧ k.state = .filling ∧ k.armTs + k.preMs * 1000000 ≤ taiNs s) ∧
    (∃ (c : U8) (s : State) (entry : BitVec 4) (k : Cap) (x : TrigEntry) (e : Nat), getCap s c.toNat = some k ∧ tget k.entries entry.toNat = some x ∧
      x.holdEnd = some e ∧ e ≤ elNs s) ∧
    (∃ (c : U8) (s : State) (lane : U8) (tag : U64) (patch : Bool) (k : Cap) (l : Lane), getCap s c.toNat = some k ∧ k.state ≠ .disarmed ∧
      k.lanes[lane.toNat]? = some l ∧ l.kind = 0 ∧ slabFinal s l.rate tag.toNat = true ∧ (patch = true ∨ l.rows.any (fun r => decide (r.1 =
      tag.toNat)) = false)) ∧
    (∃ (c : U8) (s : State) (lane : U8) (instant : U64) (words : List U64) (k : Cap) (l : Lane), getCap s c.toNat = some k ∧ k.state ≠ .disarmed ∧
      k.lanes[lane.toNat]? = some l ∧ sampleRow s l instant.toNat = some words) ∧
    (∃ (c : U8) (s : State) (lane : U8) (instant : U64) (cnt : U32) (k : Cap) (l : Lane), getCap s c.toNat = some k ∧ k.state ≠ .disarmed ∧
      k.lanes[lane.toNat]? = some l ∧ cnt ≠ 0 ∧ rowInstant s l instant.toNat = true ∧ lastLost l cnt.toNat instant.toNat ≤ taiNs s) ∧
    (∃ (c : U8) (s : State) (slot : U8) (k : Cap) (r : RecSlot), getCap (settleRecords c.toNat s) c.toNat = some k ∧ tget k.slots slot.toNat = some r
      ∧ r.state = .assembling ∧ r.condTs ≠ none ∧ r.condEl + k.patchHoldMs * 1000000 ≤ elNs (settleRecords c.toNat s)) ∧
    (∃ (s : State) (cmd : U32) (src : Nat) (n : Nat) (fmt : Nat) (d : Nat) (p : HP) (ring : Nat) (fr : Bool) (r : RecSlot) (w : State), tget
      s.cap.jobs cmd.toNat = some (.exportJob src d n fmt p ring fr) ∧ recAt s src d n = some r ∧ ringWrite p ring .halga (exportBytes r.record fmt).1
      s = some w) ∧
    (∃ (c : U8) (s : State) (k : Cap) (id : Nat), getCap s c.toNat = some k ∧ k.retiring = some id ∧ tany (fun _ r => decide (r.state = .exporting))
      k.slots = false) ∧
    (∃ (s : State) (cmd : U32) (r : HalgaIn) (n : Nat) (p : HP) (ring : Nat) (bytes : Nat) (k : Nat) (q : Ring) (x : Halga), tget s.cap.jobs cmd.toNat
      = some (.importJob n p ring bytes) ∧ getRing s p ring = some q ∧ q.use = .halga ∧ hostReads s p = true ∧ buffersFor q.owned bytes = some k ∧
      r.poison = 0 ∧ r.bytes.length = bytes ∧ readHalga r.bytes = some x) ∧
    (∃ (s : State) (cmd : U32) (n : Nat) (mode : Nat) (sRate : Nat) (grid : Nat) (inputs : List (Nat × Nat × Nat)), tget s.cap.jobs cmd.toNat = some
      (.mergeJob n mode sRate grid inputs)) ∧
    (∃ (s : State) (f : RemoteRx), s.cap.rtPort ≠ 0 ∧ (f.len ≠ 32 ∨ f.magic ≠ 0x4F545452 ∨ f.version ≠ 1)) ∧
    (∃ (s : State) (f : RemoteRx), s.cap.rtPort ≠ 0 ∧ f.len = 32 ∧ f.magic = 0x4F545452 ∧ f.version = 1 ∧ f.flags.getLsbD 0 = true ∧ (popIn
      f.port.toNat .c0 s).clk.timeValid = true ∧ f.tTrig.toNat ≤ taiNs (popIn f.port.toNat .c0 s) + 1000000000 ∧ (tgetD (popIn f.port.toNat .c0
      s).cap.rxSeen f.unitId.toNat []).contains f.seq = false ∧ f.poisoned = false) :=
  ⟨⟨0, { capRdy1 with cap := { capRdy1.cap with caps := [(0, { cap0 with state := .filling })] }, clk := { capRdy1.clk with sec := 61 } },
      { cap0 with state := .filling }, by decide +kernel⟩,
   ⟨0, { capRdy1 with cap := { capRdy1.cap with caps := [(0, { cap0 with entries := [(3, trigE)] })] } }, 3, { cap0 with entries := [(3, trigE)] },
      trigE, 9, by decide +kernel⟩,
   ⟨0, capRdy4, 0, 1000000000, false, { cap0 with state := .armed, lanes := [capLane0] }, capLane0, by decide +kernel⟩,
   ⟨0, capSage, 0, 5000000000, [], { cap0 with state := .armed }, capLane1, by decide +kernel⟩,
   ⟨0, capSage, 0, 5000000000, 1, { cap0 with state := .armed }, capLane1, by decide +kernel⟩,
   ⟨0, asmRdy, 1, { capRec with slots := [(1, asm0)] }, asm0, by decide +kernel⟩,
   ⟨expRdy, 5, 0, 1, 0, 0, 0, 0, true, rec0, expOut, by decide +kernel⟩,
   ⟨0, { capRdy with cap := { capRdy.cap with caps := [(0, { cap0 with retiring := some 4 })] } }, { cap0 with retiring := some 4 }, 4,
      by decide +kernel⟩,
   ⟨impRdy, 5, ⟨0, impBytes⟩, 0, 0, 1, impBytes.length, 1, impRing, (readHalga impBytes).getD emptyRec.record, by decide +kernel⟩,
   ⟨{ recRdy with cap := { recRdy.cap with jobs := [(5, .mergeJob 0 0 0 0 [])] } }, 5, 0, 0, 0, 0, [], by decide +kernel⟩,
   ⟨rtRdy, { rtF with len := 31 }, by decide +kernel⟩,
   ⟨{ rtRdy with clk := { rtRdy.clk with timeValid := true } }, rtF, by decide +kernel⟩⟩

/-- The hypotheses of SageCommandsComplete can be met, clause by clause. -/
theorem test_SageCommandsComplete_can_be_met :
    (∃ (h : Hdr) (s : State) (p : SageClockConfigP), Admitted (cmd 0x0A01 .control false 4) h s ∧ p.fMod.toNat < 2 ∧ p.clkEn.toNat < 64 ∧ p.rsv = 0 ∧
      s.sage.mps.all (fun e => !e.2.enable || mOk (if p.fMod = 1 then 8192000 else 4096000) e.2) = true ∧ s.sage.fMod8 = decide (p.fMod = 1) ∧ 8 ∉
      s.pop.failing) ∧
    (∃ (h : Hdr) (s : State) (p : SageClockConfigP), Admitted (cmd 0x0A01 .control false 4) h s ∧ p.fMod.toNat < 2 ∧ p.clkEn.toNat < 64 ∧ p.rsv = 0 ∧
      s.sage.mps.all (fun e => !e.2.enable || mOk (if p.fMod = 1 then 8192000 else 4096000) e.2) = true ∧ s.sage.fMod8 ≠ decide (p.fMod = 1) ∧
      s.eq.sealed = 0 ∧ 8 ∉ s.pop.failing) ∧
    (∃ (h : Hdr) (s : State) (p : SageChainConfigP), Admitted (cmd 0x0A02 .control false 12) h s ∧ chainOk p s = true ∧ (isSealedMp s p.mp.toNat =
      false ∨ chainSettings p (getMp s p.mp.toNat) = getMp s p.mp.toNat) ∧ 8 ∉ s.pop.failing) ∧
    (∃ (h : Hdr) (s : State) (p : SageFirLoadP), Admitted (cmd 0x0A03 .control false (4 + 4 * ((p.len.toNat + 1) / 2))) h s ∧ p.mp.toNat < 16 ∧ p.rsv
      = 0 ∧ p.bank.toNat < 2 ∧ p.len.toNat = (getMp s p.mp.toNat).firLen ∧ p.coeff.length = (p.len.toNat + 1) / 2 ∧ p.coeff.all coefOk = true ∧
      isSealedMp s p.mp.toNat = false ∧ (getMp s p.mp.toNat).state ≠ .fading ∧ ((getMp s p.mp.toNat).state = .off ∨ (getMp s p.mp.toNat).bankB ≠
      decide (p.bank = 1)) ∧ 8 ∉ s.pop.failing) ∧
    (∃ (h : Hdr) (s : State) (p : SageFirSwitchP), Admitted (cmd 0x0A04 .control false 4) h s ∧ p.mp.toNat < 16 ∧ p.rsv = 0 ∧ p.bank.toNat < 2 ∧
      decide (p.bank = 1) ≠ (getMp s p.mp.toNat).bankB ∧ (if (getMp s p.mp.toNat).bankB then (getMp s p.mp.toNat).lenA else (getMp s p.mp.toNat).lenB)
      = (getMp s p.mp.toNat).firLen ∧ isSealedMp s p.mp.toNat = false ∧ ((getMp s p.mp.toNat).state = .running ∨ (getMp s p.mp.toNat).state =
      .settling) ∧ 8 ∉ s.pop.failing) ∧
    (∃ (h : Hdr) (s : State) (p : SageDcP), Admitted (cmd 0x0A05 .control false 4) h s ∧ p.mp.toNat < 16 ∧ p.rsv = 0 ∧ p.inputs.toNat < 64) ∧
    (∃ (h : Hdr) (s : State) (p : SageDcP), Admitted (cmd 0x0A05 .control false 4) h s ∧ p.mp.toNat < 16 ∧ p.rsv = 0 ∧ p.inputs.toNat < 64) ∧
    (∃ (h : Hdr) (s : State) (p : SageCalP), Admitted (cmd 0x0A06 .control false 16) h s ∧ p.input.toNat < 96 ∧ p.rsv = 0 ∧ posFinite p.scale = true ∧
      (if (getInput s p.input.toNat).table = [] then [(0, 0)] else (getInput s p.input.toNat).table).all (fun x => decide ((p.calDelay.toInt +
      x.2).natAbs ≤ 5120000)) = true ∧ isSealedMp s (p.input.toNat / 6) = false ∧ 8 ∉ s.pop.failing) ∧
    (∃ (h : Hdr) (s : State) (p : SageTempTableP), Admitted (cmd 0x0A07 .control false 268) h s ∧ p.input.toNat < 96 ∧ p.rsv = 0 ∧ p.points.length =
      33 ∧ p.points.all (fun x => decide (((getInput s p.input.toNat).calDelay + x.2.toInt).natAbs ≤ 5120000)) = true ∧ isSealedMp s (p.input.toNat /
      6) = false ∧ 9 ∉ s.pop.failing) ∧
    (∃ (h : Hdr) (s : State) (p : SageTempSourceP), Admitted (cmd 0x0A08 .control false 12) h s ∧ tempSourceOk p s = true ∧ 8 ∉ s.pop.failing ∧
      ((getInput s p.input.toNat).tempSrc ≠ p.tempSrc.toNat ∨ (getInput s p.input.toNat).tempId ≠ p.tempId.toNat ∨ (getInput s p.input.toNat).tempRead
      = false ∨ p.tempSrc = 0)) ∧
    (∃ (h : Hdr) (s : State) (p : SageTempSourceP), Admitted (cmd 0x0A08 .control false 12) h s ∧ tempSourceOk p s = true ∧ 8 ∉ s.pop.failing ∧
      (getInput s p.input.toNat).tempSrc = p.tempSrc.toNat ∧ (getInput s p.input.toNat).tempId = p.tempId.toNat ∧ (getInput s p.input.toNat).tempRead
      = true ∧ p.tempSrc ≠ 0) ∧
    (∃ (h : Hdr) (s : State) (p : SageTempP), Admitted (cmd 0x0A09 .control false (4 + 4 * p.n.toNat)) h s ∧ 1 ≤ p.n.toNat ∧ p.n.toNat ≤ 96 ∧ p.rsv =
      0 ∧ p.entries.length = p.n.toNat ∧ (p.entries.all (fun e => decide (e.input.toNat < 96 ∧ e.rsv = 0 ∧ (getInput s e.input.toNat).tempSrc = 1)) =
      true)) ∧
    (∃ (h : Hdr) (s : State) (p : SagePmuP) (n : Nat) (b : Nat), Admitted (cmd 0x0A0A .openC false 12) h s ∧ p.mp.toNat < 16 ∧ p.rsv = 0 ∧
      p.window.toNat < 3 ∧ p.level.toNat < 8 ∧ p.handle = 0 ∧ pmuRateOk p.rate.toNat = true ∧ (getMp s p.mp.toNat).pmu = none ∧ addRefusal h.part 10 s
      = none ∧ allocChans s 10 = some b ∧ tfreeFrom s.ing.streams 262144 0 = some n ∧ stashUsed s < 256) ∧
    (∃ (h : Hdr) (s : State) (p : SagePmuP) (v : Stream), Admitted (cmdLong 0x0A0A .openC false 12) h s ∧ p.mp = 0 ∧ p.rsv = 0 ∧ streamNameable h
      p.handle.toNat s = true ∧ tany (fun _ m => decide (m.pmu = some p.handle.toNat)) s.sage.mps = true ∧ getStream s p.handle.toNat = some v ∧
      v.state ≠ .retiring ∧ streamNamed s p.handle.toNat v = false) ∧
    (∃ (h : Hdr) (s : State) (p : SagePmuP), Admitted (cmd 0x0A0A .openC false 12) h s ∧ p.mp = 0 ∧ p.window.toNat < 3 ∧ p.rsv = 0 ∧ p.handle = 0 ∧ 8
      ∉ s.pop.failing) :=
  ⟨⟨hdr (cmd 0x0A01 .control false 4), rdy, ⟨0, 63, 0⟩, by decide +kernel⟩,
   ⟨hdr (cmd 0x0A01 .control false 4), sgRun, ⟨1, 63, 0⟩, by decide +kernel⟩,
   ⟨hdr (cmd 0x0A02 .control false 12), sgLoaded, ⟨15, 1, 1, 0, 3, 1, 10, 15, 22, 24, 0⟩, by decide +kernel⟩,
   ⟨hdr (cmd 0x0A03 .control false 36), sgRun, ⟨0, 1, 15, 0, List.replicate 8 (-8388608)⟩, by decide +kernel⟩,
   ⟨hdr (cmd 0x0A04 .control false 4), sgRun, ⟨0, 1, 0⟩, by decide +kernel⟩,
   ⟨hdr (cmd 0x0A05 .control false 4), sgRun, ⟨0, 63, 0⟩, by decide +kernel⟩,
   ⟨hdr (cmd 0x0A05 .control false 4), sgRun, ⟨0, 3, 0⟩, by decide +kernel⟩,
   ⟨hdr (cmd 0x0A06 .control false 16), rdy, ⟨95, 0, 0x3F800000, 1, 5120000⟩, by decide +kernel⟩,
   ⟨hdr (cmd 0x0A07 .control false 268), rdy, ⟨95, 0, List.replicate 33 (0, 5120000)⟩, by decide +kernel⟩,
   ⟨hdr (cmd 0x0A08 .control false 12), rdy, ⟨0, 3, 1, 16383, 0xF060, 0⟩, by decide +kernel⟩,
   ⟨hdr (cmd 0x0A08 .control false 12), sgRead, ⟨0, 3, 1, 16383, 0xF060, 0⟩, by decide +kernel⟩,
   ⟨hdr (cmd 0x0A09 .control false 8), sgTemp, ⟨1, 0, [⟨95, 0, 0xEA84⟩]⟩, by decide +kernel⟩,
   ⟨hdr (cmd 0x0A0A .openC false 12), rdy, ⟨15, 2, 7, 50, 0, 0⟩, 0, 0, by decide +kernel⟩,
   ⟨hdr (cmdLong 0x0A0A .openC false 12), pmuRdy, ⟨0, 0, 0, 0, 0, 0⟩, pmuStr, by decide +kernel⟩,
   ⟨hdr (cmd 0x0A0A .openC false 12), rdy, ⟨0, 2, 0, 0, 0, 0⟩, by decide +kernel⟩⟩

/-- The hypotheses of SageEventsComplete can be met, clause by clause. -/
theorem test_SageEventsComplete_can_be_met :
    (∃ (s : State) (b : SageBits), s.dev.boot = .ready ∧ (getMp s b.mp.toNat).state ≠ .off ∧ (getMp s b.mp.toNat).next + groupDelay s (getMp s
      b.mp.toNat) ≤ taiNs s ∧ bitsOk s (getMp s b.mp.toNat) b.bits = true) ∧
    (∃ (s : State) (b : SageBits), s.dev.boot = .ready ∧ (getMp s b.mp.toNat).state = .off) ∧
    (∃ (s : State) (input : BitVec 7), input.toNat < 96 ∧ (getInput s input.toNat).lost = false) ∧
    (∃ (s : State) (input : BitVec 7), (getInput s input.toNat).lost = true) ∧
    (∃ (s : State) (input : BitVec 7), (getInput s input.toNat).dc = .acquire ∧ acqP (getMp s (input.toNat / 6)) ≤ (getInput s
      input.toNat).acq.length) ∧
    (∃ (s : State) (mp : BitVec 4), (getMp s mp.toNat).state = .settling ∧ (inputsOf mp.toNat).all (fun n => !inUnsettled s (getInput s n)) = true) ∧
    (∃ (s : State) (mp : BitVec 4), (getMp s mp.toNat).state = .fading ∧ fadeF (getMp s mp.toNat) ≤ (getMp s mp.toNat).fadePos ∧ (getMp s
      mp.toNat).fadeStart ≤ taiNs s) ∧
    (∃ (s : State) (input : BitVec 7), (getInput s input.toNat).tempSrc ≠ 0 ∧ (getInput s input.toNat).tempRead = true ∧ (getInput s
      input.toNat).tempStale = false ∧ (getInput s input.toNat).tempTs + (getInput s input.toNat).staleS * 1000000000 < taiNs s) ∧
    (∃ (s : State) (mp : BitVec 4) (k : Nat) (d : Nat), (getMp s mp.toNat).pmu = some k ∧ d = reportDone ⟨fwOf s (fNomHz (getMp s mp.toNat)), fNomHz
      (getMp s mp.toNat), winCycles (getMp s mp.toNat).pmuWindow⟩ (gridInstant (getMp s mp.toNat).pmuRate (getMp s mp.toNat).pmuNext) ∧ d + groupDelay
      s (getMp s mp.toNat) ≤ taiNs s ∧ ((getMp s mp.toNat).state = .off ∨ d ≤ (getMp s mp.toNat).next)) ∧
    (∃ (s : State) (f : SvFrame) (s1 : State), readerHeld s f.port.toNat .c1 = false ∧ s1 = readEntry f.port.toNat ⟨3, f.appid, BitVec.ofNat 128
      (f.srcMac.toNat * 2 ^ 80), 0, 0⟩ f.ecc (popIn f.port.toNat .c1 s) ∧ findStream s1 f.port.toNat ⟨3, f.appid, BitVec.ofNat 128 (f.srcMac.toNat * 2
      ^ 80), 0, 0⟩ = none) ∧
    (∃ (s : State) (f : SvFrame) (s1 : State) (n : Nat) (v : Stream), readerHeld s f.port.toNat .c1 = false ∧ s1 = readEntry f.port.toNat ⟨3, f.appid,
      BitVec.ofNat 128 (f.srcMac.toNat * 2 ^ 80), 0, 0⟩ f.ecc (popIn f.port.toNat .c1 s) ∧ findStream s1 f.port.toNat ⟨3, f.appid, BitVec.ofNat 128
      (f.srcMac.toNat * 2 ^ 80), 0, 0⟩ = some (n, v) ∧ (f.poisoned = true ∨ f.samples.length ≠ (if f.rate256 then 8 else 1))) ∧
    (∃ (s : State) (f : SvFrame) (s1 : State) (n : Nat) (v : Stream), readerHeld s f.port.toNat .c1 = false ∧ s1 = readEntry f.port.toNat ⟨3, f.appid,
      BitVec.ofNat 128 (f.srcMac.toNat * 2 ^ 80), 0, 0⟩ f.ecc (popIn f.port.toNat .c1 s) ∧ findStream s1 f.port.toNat ⟨3, f.appid, BitVec.ofNat 128
      (f.srcMac.toNat * 2 ^ 80), 0, 0⟩ = some (n, v) ∧ f.poisoned = false ∧ f.samples.length = (if f.rate256 then 8 else 1) ∧ (v.state = .paused ∨
      v.state = .retiring)) ∧
    (∃ (s : State) (f : SvFrame) (s1 : State) (n : Nat) (v : Stream), readerHeld s f.port.toNat .c1 = false ∧ s1 = readEntry f.port.toNat ⟨3, f.appid,
      BitVec.ofNat 128 (f.srcMac.toNat * 2 ^ 80), 0, 0⟩ f.ecc (popIn f.port.toNat .c1 s) ∧ findStream s1 f.port.toNat ⟨3, f.appid, BitVec.ofNat 128
      (f.srcMac.toNat * 2 ^ 80), 0, 0⟩ = some (n, v) ∧ f.poisoned = false ∧ f.samples.length = (if f.rate256 then 8 else 1) ∧ v.state ≠ .paused ∧
      v.state ≠ .retiring) :=
  ⟨⟨sgLate, ⟨0, List.replicate 6 (List.replicate 256 true)⟩, by decide +kernel⟩,
   ⟨sgLate, ⟨1, []⟩, by decide +kernel⟩,
   ⟨sgRun, 5, by decide +kernel⟩,
   ⟨sgLost, 0, by decide +kernel⟩,
   ⟨sgAcq, 0, by decide +kernel⟩,
   ⟨sgSettle, 0, by decide +kernel⟩,
   ⟨sgFade, 0, by decide +kernel⟩,
   ⟨sgStale, 95, by decide +kernel⟩,
   ⟨pmuRdy, 0, 0, reportDone ⟨50000000, 50, 2⟩ 1200000000, by decide +kernel⟩,
   ⟨rdy, svF, rdy, by decide +kernel⟩,
   ⟨svRdy, { svF with poisoned := true }, svRdy, 0, svStr, by decide +kernel⟩,
   ⟨svPaused, svF, svPaused, 0, { svStr with state := .paused }, by decide +kernel⟩,
   ⟨svRdy, svF, svRdy, 0, svStr, by decide +kernel⟩⟩

/-- The hypotheses of EnergyCommandsComplete can be met, clause by clause. -/
theorem test_EnergyCommandsComplete_can_be_met :
    (∃ (h : Hdr) (s : State) (p : EqMpConfigP), Admitted (cmd 0x0B01 .control false 16) h s ∧ eqMpOk p = true ∧ isSealedMp s p.mp.toNat = false ∧ 8 ∉
      s.pop.failing) ∧
    (∃ (h : Hdr) (s : State) (p : EqRegConfigP), Admitted (cmd 0x0B02 .control false 8) h s ∧ p.reg.toNat < 64 ∧ p.mp.toNat < 16 ∧ 6 ≤ p.digits.toNat
      ∧ p.digits.toNat ≤ 10 ∧ p.resCode.toNat ≤ 9 ∧ p.enable.toNat < 2 ∧ p.rsv = 0 ∧ 9 ≤ p.digits.toNat + p.resCode.toNat ∧ quantityOk p.quantity =
      true ∧ isSealedMp s (getBReg s p.reg.toNat).mp = false ∧ isSealedMp s p.mp.toNat = false ∧ 8 ∉ s.pop.failing) ∧
    (∃ (h : Hdr) (s : State) (p : PulseConfigP), Admitted (cmd 0x0B03 .stage true 12) h s ∧ p.output.toNat < 32 ∧ p.enable.toNat < 2 ∧ p.mp.toNat < 16
      ∧ 2 ≤ p.widthMs.toNat ∧ p.widthMs.toNat ≤ 200 ∧ p.activeLow.toNat < 2 ∧ p.rsv = 0 ∧ 1 ≤ p.quantumMwh.toNat ∧ quantityOk p.quantity = true ∧
      claimOk s h.part (getPulse s p.output.toNat).everEnabled (getPulse s p.output.toNat).claim = true ∧ (getPulse s p.output.toNat).mp = p.mp.toNat
      ∧ (getPulse s p.output.toNat).quantity = p.quantity.toNat ∧ (getPulse s p.output.toNat).quantum = p.quantumMwh.toNat ∧ 8 ∉ s.pop.failing) ∧
    (∃ (h : Hdr) (s : State) (p : PulseConfigP), Admitted (cmd 0x0B03 .stage true 12) h s ∧ p.output.toNat < 32 ∧ p.enable.toNat < 2 ∧ p.mp.toNat < 16
      ∧ 2 ≤ p.widthMs.toNat ∧ p.widthMs.toNat ≤ 200 ∧ p.activeLow.toNat < 2 ∧ p.rsv = 0 ∧ 1 ≤ p.quantumMwh.toNat ∧ quantityOk p.quantity = true ∧
      claimOk s h.part (getPulse s p.output.toNat).everEnabled (getPulse s p.output.toNat).claim = true ∧ isSealedMp s (getPulse s p.output.toNat).mp
      = false ∧ isSealedMp s p.mp.toNat = false ∧ ((getPulse s p.output.toNat).mp ≠ p.mp.toNat ∨ (getPulse s p.output.toNat).quantity ≠
      p.quantity.toNat ∨ (getPulse s p.output.toNat).quantum ≠ p.quantumMwh.toNat) ∧ 8 ∉ s.pop.failing) ∧
    (∃ (h : Hdr) (s : State) (p : EqSaveConfigP), Admitted (cmd 0x0B04 .control false 4) h s ∧ 1 ≤ p.saveS.toNat ∧ p.saveS.toNat ≤ 300 ∧ p.rsv = 0 ∧ 8
      ∉ s.pop.failing) ∧
    (∃ (h : Hdr) (s : State) (p : EqSealP), Admitted (cmdLong 0x0B05 .control false 4) h s ∧ p.rsv = 0 ∧ s.pop.otpSeal.length < 4 ∧ s.eq.sealReq =
      none ∧ (List.range 16).all (fun m => !p.mask.getLsbD m || decide ((getMp s m).state = .running)) = true) ∧
    (∃ (h : Hdr) (s : State) (p : EqGapAckP) (g : GapEntry), Admitted (cmd 0x0B06 .control false 4) h s ∧ gapEntry s p.seq = some g ∧ g.acked = false
      ∧ (tany (fun k e => decide (e.mp = g.mp ∧ k ≠ p.seq.toNat) && !e.acked) s.eq.glog = false) ∧ Tbl.wf s.eq.glog = true) ∧
    (∃ (h : Hdr) (s : State) (p : EqGapAckP) (g : GapEntry), Admitted (cmd 0x0B06 .control false 4) h s ∧ gapEntry s p.seq = some g ∧ g.acked = false
      ∧ (tany (fun k e => decide (e.mp = g.mp ∧ k ≠ p.seq.toNat) && !e.acked) s.eq.glog = true) ∧ Tbl.wf s.eq.glog = true) :=
  ⟨⟨hdr (cmd 0x0B01 .control false 16), rdy, ⟨15, 1, 1, 0, 16000000, 990, 1010, 989, 100⟩, by decide +kernel⟩,
   ⟨hdr (cmd 0x0B02 .control false 8), rdy, ⟨63, 15, 14, 6, 3, 1, 0⟩, by decide +kernel⟩,
   ⟨hdr (cmd 0x0B03 .stage true 12), rdy, ⟨31, 1, 15, 1, 200, 1, 0, 1000000⟩, by decide +kernel⟩,
   ⟨hdr (cmd 0x0B03 .stage true 12), rdy, ⟨31, 1, 0, 6, 2, 0, 0, 1⟩, by decide +kernel⟩,
   ⟨hdr (cmd 0x0B04 .control false 4), rdy, ⟨300, 0⟩, by decide +kernel⟩,
   ⟨hdr (cmdLong 0x0B05 .control false 4), sgRun, ⟨1, 0⟩, by decide +kernel⟩,
   ⟨hdr (cmd 0x0B06 .control false 4), gapRdy, ⟨0⟩, gap0, by decide +kernel⟩,
   ⟨hdr (cmd 0x0B06 .control false 4), gapRdy2, ⟨0⟩, gap0, by decide +kernel⟩⟩

/-- The hypotheses of EnergyEventsComplete can be met, clause by clause. -/
theorem test_EnergyEventsComplete_can_be_met :
    (∃ (s : State) (mask : U16) (id : Nat) (l : LongCmd), s.eq.sealReq = some (mask, id) ∧ tget s.host.long id = some l) ∧
    (∃ (s : State) (mp : BitVec 4) (a : GaMark) (b : GaMark), evenFrom s (getEq s mp.toNat).cycIdx = some a ∧ markOf s (a.idx + 2) = some b ∧ ((getMp
      s mp.toNat).state = .off ∨ b.el + taiNs s ≤ elNs s + (getMp s mp.toNat).next)) ∧
    (∃ (s : State) (output : BitVec 5), (getPulse s output.toNat).enable = true ∧ (getPulse s output.toNat).activeUntil = none ∧ (getPulse s
      output.toNat).idleUntil.getD 0 ≤ elNs s ∧ (getPulse s output.toNat).owed ≠ 0 ∧ ((getPulse s output.toNat).overEl = none ∨ (getPulse s
      output.toNat).owed ≠ 1)) ∧
    (∃ (s : State) (output : BitVec 5) (o : Nat), (getPulse s output.toNat).enable = true ∧ (getPulse s output.toNat).activeUntil = none ∧ (getPulse s
      output.toNat).idleUntil.getD 0 ≤ elNs s ∧ (getPulse s output.toNat).owed = 1 ∧ (getPulse s output.toNat).overEl = some o) ∧
    (∃ (s : State) (output : BitVec 5) (e : Nat), (getPulse s output.toNat).activeUntil = some e ∧ e ≤ elNs s) ∧
    (∃ (s : State) (g : GaMark), s.dev.boot = .ready ∧ s.eq.saving = none ∧ s.eq.flushing = false ∧ lastEven s = some g ∧ (s.eq.lastSaveEl +
      s.eq.saveS * 1000000000 ≤ g.el ∨ s.eq.saveSoon = true)) ∧
    (∃ (s : State), s.eq.saving.isSome = true) ∧
    (∃ (s : State) (b : Bool), s.eq.saving = some b) ∧
    (∃ (s : State) (mp : BitVec 4) (a : GaMark) (b : GaMark), s.clk.gaMarks.reverse.find? (fun x => decide ((getEq s mp.toNat).halfIdx ≤ x.idx)) =
      some a ∧ markOf s (a.idx + 1) = some b ∧ ((getMp s mp.toNat).state = .off ∨ (List.range 3).all (fun k => tapPast s mp.toNat k b.el) = true)) :=
  ⟨⟨sealRdy, 1, 4, sealLong, by decide +kernel⟩,
   ⟨cycRdy, 0, ⟨0, 0, 0, false⟩, ⟨2, 20000000, 20000000, false⟩, by decide +kernel⟩,
   ⟨plsRdy, 31, by decide +kernel⟩,
   ⟨plsRdy2, 31, 5, by decide +kernel⟩,
   ⟨plsRdy3, 31, 5, by decide +kernel⟩,
   ⟨{ cycRdy with eq := { cycRdy.eq with saveSoon := true } }, ⟨2, 20000000, 20000000, false⟩, by decide +kernel⟩,
   ⟨savRdy, by decide +kernel⟩,
   ⟨savRdy, true, by decide +kernel⟩,
   ⟨cycRdy, 1, ⟨0, 0, 0, false⟩, ⟨1, 10000000, 10000000, false⟩, by decide +kernel⟩⟩

/-- The hypotheses of VoiceCommandsComplete can be met, clause by clause. -/
theorem test_VoiceCommandsComplete_can_be_met :
    (∃ (h : Hdr) (s : State) (p : VoiceTdmConfigP), Admitted (cmd 0x0C01 .control false 4) h s ∧ p.highway.toNat < 8 ∧ p.enable.toNat < 2 ∧
      p.drive.toNat < 2 ∧ p.idleLaw.toNat < 2 ∧ (p.enable = 1 ∨ s.voc.hwEn.getLsbD p.highway.toNat = false ∨ s.voc.chans.any (fun e => decide
      (e.2.cfg.lineKind = 1 ∧ e.2.state ≠ .closing ∧ e.2.cfg.highway.toNat = p.highway.toNat)) = false)) ∧
    (∃ (h : Hdr) (s : State) (p : VoiceCfg) (n : Nat) (vs : List (Nat × VCh)), Admitted (cmd 0x0C02 .openC true 56) h s ∧ voiceCfgOk p = true ∧
      voiceRingsOk s h.part p = true ∧ voicePortTaken s 1024 p = false ∧ slotBusy s none p = false ∧ tfreeFrom s.voc.chans 1024 0 = some n ∧
      victimsFor s h.part none (codecSlots p) p = some vs) ∧
    (∃ (h : Hdr) (s : State) (p : VoiceModifyP) (v : VCh), Admitted (cmd 0x0C03 .openC false 60) h s ∧ p.rsv = 0 ∧ chNamed s h p.channel = true ∧
      getCh s p.channel.toNat = some v ∧ v.state ≠ .closing ∧ voiceCfgOk p.cfg = true ∧ sameLegs v.cfg p.cfg = true ∧ voicePortTaken s p.channel.toNat
      p.cfg = false ∧ codecSlots p.cfg ≤ v.slots) ∧
    (∃ (h : Hdr) (s : State) (p : VoiceModifyP) (v : VCh) (l : List (Nat × VCh)), Admitted (cmd 0x0C03 .openC false 60) h s ∧ p.rsv = 0 ∧ chNamed s h
      p.channel = true ∧ getCh s p.channel.toNat = some v ∧ v.state ≠ .closing ∧ voiceCfgOk p.cfg = true ∧ sameLegs v.cfg p.cfg = true ∧
      voicePortTaken s p.channel.toNat p.cfg = false ∧ v.slots < codecSlots p.cfg ∧ victimsFor s v.part (some p.channel.toNat) (codecSlots p.cfg -
      v.slots) p.cfg = some l) ∧
    (∃ (h : Hdr) (s : State) (p : VoiceChP) (v : VCh), Admitted (cmd 0x0C04 .openC true 4) h s ∧ p.rsv = 0 ∧ chNamed s h p.channel = true ∧ getCh s
      p.channel.toNat = some v ∧ v.state = .idle) ∧
    (∃ (h : Hdr) (s : State) (p : VoiceChP) (v : VCh), Admitted (cmd 0x0C04 .openC true 4) h s ∧ p.rsv = 0 ∧ chNamed s h p.channel = true ∧ getCh s
      p.channel.toNat = some v ∧ v.state = .active) ∧
    (∃ (h : Hdr) (s : State) (p : VoiceChP) (v : VCh), Admitted (cmd 0x0C04 .openC true 4) h s ∧ p.rsv = 0 ∧ chNamed s h p.channel = true ∧ getCh s
      p.channel.toNat = some v ∧ v.state ≠ .closing) ∧
    (∃ (h : Hdr) (s : State) (p : VoiceChP) (v : VCh), Admitted (cmd 0x0C04 .openC true 4) h s ∧ p.rsv = 0 ∧ chNamed s h p.channel = true ∧ getCh s
      p.channel.toNat = some v ∧ v.state ≠ .closing) ∧
    (∃ (h : Hdr) (s : State) (p : VoiceChP) (v : VCh), Admitted (cmd 0x0C04 .openC true 4) h s ∧ p.rsv = 0 ∧ chNamed s h p.channel = true ∧ getCh s
      p.channel.toNat = some v ∧ v.state ≠ .closing) ∧
    (∃ (h : Hdr) (s : State) (p : VoiceChP) (v : VCh), Admitted (cmd 0x0C04 .openC true 4) h s ∧ p.rsv = 0 ∧ chNamed s h p.channel = true ∧ getCh s
      p.channel.toNat = some v ∧ v.state ≠ .closing) ∧
    (∃ (h : Hdr) (s : State) (p : VoiceChP) (v : VCh), Admitted (cmd 0x0C04 .openC true 4) h s ∧ p.rsv = 0 ∧ chNamed s h p.channel = true ∧ getCh s
      p.channel.toNat = some v ∧ v.state ≠ .closing) ∧
    (∃ (h : Hdr) (s : State) (p : VoiceChP) (v : VCh), Admitted (cmd 0x0C05 .openC true 4) h s ∧ p.rsv = 0 ∧ chNamed s h p.channel = true ∧ getCh s
      p.channel.toNat = some v ∧ v.state ≠ .closing) ∧
    (∃ (h : Hdr) (s : State) (p : VoiceSrtpKeyP) (v : VCh), Admitted (cmd 0x0C06 .openC false 44) h s ∧ p.rsv = 0 ∧ chNamed s h p.channel = true ∧
      getCh s p.channel.toNat = some v ∧ v.state ≠ .closing ∧ p.dir = 0 ∧ p.suite.toNat < 2 ∧ p.fromIndex = 0) ∧
    (∃ (h : Hdr) (s : State) (p : VoiceSrtpKeyP) (v : VCh), Admitted (cmd 0x0C06 .openC false 44) h s ∧ p.rsv = 0 ∧ chNamed s h p.channel = true ∧
      getCh s p.channel.toNat = some v ∧ v.state ≠ .closing ∧ p.dir = 1 ∧ p.suite.toNat < 2 ∧ p.fromIndex.toNat < 2 ^ 48) ∧
    (∃ (h : Hdr) (s : State) (p : VoiceToneProfileP), Admitted (cmd 0x0C07 .control false 12) h s ∧ p.profile.toNat < 8 ∧ 10 ≤ p.minLevel.toNat ∧
      p.minLevel.toNat ≤ 50 ∧ 200 ≤ p.f1Hz.toNat ∧ p.f1Hz.toNat ≤ 3400 ∧ (p.f2Hz = 0 ∨ (200 ≤ p.f2Hz.toNat ∧ p.f2Hz.toNat ≤ 3400)) ∧ 50 ≤ p.onMs.toNat
      ∧ p.onMs.toNat ≤ 5000 ∧ (p.offMs = 0 ∨ (50 ≤ p.offMs.toNat ∧ p.offMs.toNat ≤ 5000)) ∧ 1 ≤ p.cycles.toNat ∧ p.cycles.toNat ≤ 8 ∧ p.rsv = 0) ∧
    (∃ (h : Hdr) (s : State) (p : RingBindP), Admitted (cmd 0x0C08 .openC false 4) h s ∧ p.rsv = 0 ∧ p.ring ≠ 0xFF ∧ ringFree s h.part p.ring.toNat
      false = true ∧ s.voc.toneRing.get h.part = none) ∧
    (∃ (h : Hdr) (s : State) (p : RingBindP) (r : Nat), Admitted (cmd 0x0C08 .openC false 4) h s ∧ p.rsv = 0 ∧ p.ring = 0xFF ∧ s.voc.toneRing.get
      h.part = some r) ∧
    (∃ (h : Hdr) (s : State) (p : VoiceToneGenP) (v : VCh), Admitted (cmd 0x0C09 .openC true (12 + p.digits.length)) h s ∧ p.rsv = 0 ∧ p.dir.toNat < 2
      ∧ p.level.toNat ≤ 30 ∧ 40 ≤ p.onMs.toNat ∧ p.onMs.toNat ≤ 1000 ∧ 40 ≤ p.offMs.toNat ∧ p.offMs.toNat ≤ 1000 ∧ p.n.toNat = p.digits.length ∧
      ((p.kind = 0 ∧ 1 ≤ p.n.toNat ∧ p.n.toNat ≤ 32 ∧ p.profile = 0 ∧ p.digits.all dtmfChar = true) ∨ (p.kind = 1 ∧ p.n = 0 ∧ p.profile.toNat < 8)) ∧
      chNamed s h p.channel = true ∧ getCh s p.channel.toNat = some v ∧ v.state = .active) ∧
    (∃ (h : Hdr) (s : State) (p : VoiceAnnLoadP), Admitted (cmdLong 0x0C0A .control false 12) h s ∧ p.ann.toNat < 64 ∧ p.law.toNat < 2 ∧ p.rsv = 0 ∧
      p.rsv2 = 0 ∧ 800 ≤ p.bytes.toNat ∧ p.bytes.toNat ≤ 480000 ∧ ringFree s h.part p.ring.toNat true = true ∧ (tget s.voc.anns p.ann.toNat).all (fun
      x => decide (x.loading = none)) = true ∧ annInUse s p.ann.toNat = false ∧ annBytes s - (tget s.voc.anns p.ann.toNat).elim 0 (·.bytes) +
      p.bytes.toNat ≤ 16777216) ∧
    (∃ (h : Hdr) (s : State) (p : VoiceAnnMapP), Admitted (cmd 0x0C0B .control false (16 + 2 * p.channels.length)) h s ∧ annMapOk p = true) ∧
    (∃ (h : Hdr) (s : State) (p : VoiceAnnMapP), Admitted (cmd 0x0C0B .control false (16 + 2 * p.channels.length)) h s ∧ annMapOk p = true) ∧
    (∃ (h : Hdr) (s : State) (p : VoiceAnnPlayP), Admitted (cmd 0x0C0C .openC true (8 + 2 * p.channels.length)) h s ∧ p.ann.toNat < 64 ∧ p.dir.toNat <
      3 ∧ p.priority.toNat < 8 ∧ 1 ≤ p.repeat_.toNat ∧ p.repeat_.toNat ≤ 15 ∧ 1 ≤ p.nCh.toNat ∧ p.nCh.toNat ≤ 64 ∧ p.channels.length = p.nCh.toNat ∧
      p.rsv = 0 ∧ p.channels.all (fun c => decide (c.toNat < 1024) && (getCh s c.toNat).all (fun v => mayName s h.part v.part)) = true) :=
  ⟨⟨hdr (cmd 0x0C01 .control false 4), rdy, ⟨7, 1, 1, 1⟩, by decide +kernel⟩,
   ⟨hdr (cmd 0x0C02 .openC true 56), vocRdy, { vcfg0 with timeslot := 6, localPort := 4002 }, 1, [], by decide +kernel⟩,
   ⟨hdr (cmd 0x0C03 .openC false 60), vocRdy, ⟨0, 0, { vcfg0 with priority := 7 }⟩, vch0, by decide +kernel⟩,
   ⟨hdr (cmd 0x0C03 .openC false 60), { vocRdy with voc := { vocRdy.voc with chans := [(0, { vchR with slots := 1 })] } }, ⟨0, 0,
      { vcfgR with codec := 4, pt := 9 }⟩, { vchR with slots := 1 }, [], by decide +kernel⟩,
   ⟨hdr (cmd 0x0C04 .openC true 4), vocRdy, ⟨0, 0⟩, vch0, by decide +kernel⟩,
   ⟨hdr (cmd 0x0C04 .openC true 4), vocAct, ⟨0, 0⟩, vchA, by decide +kernel⟩,
   ⟨hdr (cmd 0x0C04 .openC true 4), vocRdy, ⟨0, 0⟩, vch0, by decide +kernel⟩,
   ⟨hdr (cmd 0x0C04 .openC true 4), vocRdy, ⟨0, 0⟩, vch0, by decide +kernel⟩,
   ⟨hdr (cmd 0x0C04 .openC true 4), vocRdy, ⟨0, 0⟩, vch0, by decide +kernel⟩,
   ⟨hdr (cmd 0x0C04 .openC true 4), vocRdy, ⟨0, 0⟩, vch0, by decide +kernel⟩,
   ⟨hdr (cmd 0x0C04 .openC true 4), vocAct, ⟨0, 0⟩, vchA, by decide +kernel⟩,
   ⟨hdr (cmd 0x0C05 .openC true 4), vocRdy, ⟨0, 0⟩, vch0, by decide +kernel⟩,
   ⟨hdr (cmd 0x0C06 .openC false 44), vocRdy, ⟨0, 0, 1, 5, 6, 0, 0⟩, vch0, by decide +kernel⟩,
   ⟨hdr (cmd 0x0C06 .openC false 44), vocRdy, ⟨0, 1, 0, 5, 6, 0, 0xFFFFFFFFFFFF⟩, vch0, by decide +kernel⟩,
   ⟨hdr (cmd 0x0C07 .control false 12), rdy, ⟨7, 50, 3400, 0, 5000, 50, 8, 0⟩, by decide +kernel⟩,
   ⟨hdr (cmd 0x0C08 .openC false 4), ringRdy, ⟨0, 0⟩, by decide +kernel⟩,
   ⟨hdr (cmd 0x0C08 .openC false 4), { rdy with voc := { rdy.voc with toneRing := .all (some 3) } }, ⟨255, 0⟩, 3, by decide +kernel⟩,
   ⟨hdr (cmd 0x0C09 .openC true 14), vocAct, ⟨0, 1, 0, 30, 0, 40, 1000, 2, 0, [0x44, 0x2A]⟩, vchA, by decide +kernel⟩,
   ⟨hdr (cmdLong 0x0C0A .control false 12), ringRdy, ⟨63, 1, 0, 480000, 1, 0⟩, by decide +kernel⟩,
   ⟨hdr (cmd 0x0C0B .control false 18), rdy, ⟨127, 5, 5, 63, 255, 2, 7, 15, 1, 60000, 1, [1023]⟩, by decide +kernel⟩,
   ⟨hdr (cmd 0x0C0B .control false 18), rdy, ⟨127, 5, 5, 63, 255, 2, 7, 15, 1, 60000, 1, [1023]⟩, by decide +kernel⟩,
   ⟨hdr (cmd 0x0C0C .openC true 10), rdy, ⟨63, 2, 7, 15, 1, 0, [1023]⟩, by decide +kernel⟩⟩

/-- The hypotheses of VoiceEventsComplete can be met, clause by clause. -/
theorem test_VoiceEventsComplete_can_be_met :
    (∃ (s : State) (start : Nat), s.voc.chans ≠ [] ∧ start = blockStartEl s ∧ start ≤ elNs s) ∧
    (∃ (s : State) (a : BitVec 6) (data : Bytes) (x : Ann) (id : Nat) (n : Nat) (p : HP), tget s.voc.anns a.toNat = some x ∧ x.loading = some (id, p,
      n) ∧ x.bytes ≤ data.length ∧ hostReads s p = true) ∧
    (∃ (s : State) (p : RtpPacket), readerHeld s p.port.toNat .c1 = false ∧ rtpChan (popIn p.port.toNat .c1 s) p.port p.dstPort.toNat = none) ∧
    (∃ (s : State) (p : RtpPacket) (c : Nat) (v : VCh), readerHeld s p.port.toNat .c1 = false ∧ rtpChan (popIn p.port.toNat .c1 s) p.port
      p.dstPort.toNat = some (c, v) ∧ v.state ≠ .active) ∧
    (∃ (s : State) (p : RtpPacket) (c : Nat) (v : VCh), readerHeld s p.port.toNat .c1 = false ∧ rtpChan (popIn p.port.toNat .c1 s) p.port
      p.dstPort.toNat = some (c, v) ∧ v.state = .active ∧ p.version ≠ 2) ∧
    (∃ (s : State) (p : RtpPacket) (c : Nat) (v : VCh), readerHeld s p.port.toNat .c1 = false ∧ rtpChan (popIn p.port.toNat .c1 s) p.port
      p.dstPort.toNat = some (c, v) ∧ v.state = .active ∧ p.version = 2 ∧ (v.cfg.latch = false ∨ v.latched = true) ∧ (v.cfg.remoteAddr ≠ p.srcAddr ∨
      v.cfg.remotePort ≠ p.srcPort)) ∧
    (∃ (s : State) (p : RtpPacket) (c : Nat) (v : VCh), readerHeld s p.port.toNat .c1 = false ∧ rtpChan (popIn p.port.toNat .c1 s) p.port
      p.dstPort.toNat = some (c, v) ∧ v.state = .active ∧ p.version = 2 ∧ ((v.cfg.latch = true ∧ v.latched = false) ∨ (v.cfg.remoteAddr = p.srcAddr ∧
      v.cfg.remotePort = p.srcPort)) ∧ v.cfg.srtp = false ∧ (v.ssrcRx = none ∨ v.ssrcRx = some p.ssrc) ∧ p.pt.toNat = codecPt v.cfg.codec.toNat
      v.cfg.pt ∧ p.seq ∉ v.played ∧ v.jb.any (fun x => decide (x.seq = p.seq)) = false) ∧
    (∃ (s : State) (c : U16) (v : VCh) (e : TelEvent), getCh s c.toNat = some v ∧ v.telRx = some e ∧ e.ends = 0 ∧ e.event ≤ 15 ∧ e.lastEl + 250000000
      ≤ elNs s) ∧
    (∃ (s : State) (c : U16) (v : VCh), getCh s c.toNat = some v ∧ v.state = .active ∧ v.cfg.pktKind = 1 ∧ v.cfg.rtcp = true ∧ v.nextRtcpEl ≤ elNs s) ∧
    (∃ (s : State) (r : RtcpReport) (c : Nat) (v : VCh), readerHeld s r.port.toNat .c3 = false ∧ r.dstPort ≠ 0 ∧ rtpChan (popIn r.port.toNat .c3 s)
      r.port (r.dstPort.toNat - 1) = some (c, v) ∧ v.state = .active ∧ v.cfg.rtcp = true ∧ v.cfg.remoteSet = true ∧ r.srcAddr = v.cfg.remoteAddr ∧
      r.srcPort.toNat = v.cfg.remotePort.toNat + 1 ∧ r.ssrc = v.ssrcTx ∧ (v.cfg.srtp = false ∨ r.authOk = true)) ∧
    (∃ (s : State) (c : U16) (v : VCh), getCh s c.toNat = some v ∧ v.state = .active ∧ v.cfg.pktKind = 1 ∧ v.cfg.mediaTimeoutMs ≠ 0 ∧ v.mediaLost =
      false ∧ v.lastRxEl + v.cfg.mediaTimeoutMs.toNat * 1000000 ≤ elNs s) ∧
    (∃ (s : State) (b : HostVoice) (r : Ring) (v : VCh), getRing s b.part b.ring.toNat = some r ∧ r.toDev = true ∧ r.owned ≠ [] ∧ r.use = .voice ∧
      hostReads s b.part = true ∧ b.poison = 0 ∧ getCh s b.channel.toNat = some v ∧ v.part = b.part ∧ v.state ≠ .closing ∧ ((b.leg = 0 ∧
      v.cfg.lineKind = 2 ∧ v.cfg.lineIn.toNat = b.ring.toNat) ∨ (b.leg = 1 ∧ v.cfg.pktKind = 2 ∧ v.cfg.pktIn.toNat = b.ring.toNat)) ∧ b.samples.toNat
      = blockSamples v.cfg ∧ b.pcm.length = b.samples.toNat) :=
  ⟨⟨vocAct, 0, by decide +kernel⟩,
   ⟨annRdy, 63, [1, 2], ann0, 4, 1, 0, by decide +kernel⟩,
   ⟨rdy, rtp0, by decide +kernel⟩,
   ⟨rtpRdyI, rtp0, 0, vchR, by decide +kernel⟩,
   ⟨rtpRdy, { rtp0 with version := 1 }, 0, { vchR with state := .active }, by decide +kernel⟩,
   ⟨rtpRdy, { rtp0 with srcPort := 1 }, 0, { vchR with state := .active }, by decide +kernel⟩,
   ⟨rtpRdy, rtp0, 0, { vchR with state := .active }, by decide +kernel⟩,
   ⟨{ vocAct with voc := { vocAct.voc with chans := [(0, { vchA with telRx := some tel0 })] } }, 0, { vchA with telRx := some tel0 }, tel0,
      by decide +kernel⟩,
   ⟨rtpRdy2, 0, vchR2, by decide +kernel⟩,
   ⟨rtpRdy2, ⟨0, 4001, 7, 5001, 1, 9, false⟩, 0, vchR2, by decide +kernel⟩,
   ⟨mtoRdy, 0, vchM, by decide +kernel⟩,
   ⟨hvRdy, ⟨0, 1, 0, 0, 0, 80, 0, 0, List.replicate 80 0, 0⟩, hvRing, vchH, by decide +kernel⟩⟩

/-- The hypotheses of MacInstructionsComplete can be met, clause by clause. -/
theorem test_MacInstructionsComplete_can_be_met :
    (∃ (core : CoreNo) (s : State) (b : Bundle) (k : List Nat) (c : Core) (t : State), k = b.accs.map aKey ++ slotReads b.slot1 ++ slotReads b.slot2
      ++ b.move.elim [] (fun e => regKeys e.2) ∧ Issues core k 2 true s ∧ c = coreAt core k s ∧ t = stateAt core k s) ∧
    (∃ (s : State) (op : MacOp) (sg : MacSign) (ov : OvMode) (accs : List (Fin 4)) (m1 : AMode) (m2 : AMode) (c : Core) (e1 : Ea) (e2 : Ea), bundleOk
      op ⟨accs, sg, ov, .fetch m1, .fetch m2, none⟩ c = true ∧ resolve m1 c s = .ok e1 ∧ localCheck e1 (macSlotBytes op) = none ∧ resolve m2 e1.c e1.s
      = .ok e2 ∧ localCheck e2 (macSlotBytes op) = none) ∧
    (∃ (core : CoreNo) (s : State) (acc : Fin 4) (i : Fin 8) (c : Core) (t : State), Issues core ([aKey acc]) 1 true s ∧ c = coreAt core ([aKey acc])
      s ∧ t = stateAt core ([aKey acc]) s ∧ getI c 7 + 4 ≤ 0x8000 ∧ getI c 7 % 4 = 0 ∧ localFault (getI c i) 4 = none ∧ localFault (getI c i + 4) 4 =
      none) ∧
    (∃ (core : CoreNo) (s : State) (acc : Fin 4) (a : Fin 16) (b : Fin 16), Issues core ([aKey acc, dKey a, dKey b]) 1 true s) ∧
    (∃ (core : CoreNo) (s : State) (acc : Fin 4) (a : Fin 16) (b : Fin 16), Issues core ([aKey acc, dKey a, dKey b]) 1 true s) ∧
    (∃ (core : CoreNo) (s : State) (dst : Fin 4) (src : Fin 4), Issues core ([aKey dst, aKey src]) 1 true s) ∧
    (∃ (core : CoreNo) (s : State) (dst : Fin 4) (src : Fin 4), Issues core ([aKey dst, aKey src]) 1 true s) ∧
    (∃ (core : CoreNo) (s : State) (acc : Fin 4), Issues core ([aKey acc]) 1 true s) ∧
    (∃ (core : CoreNo) (s : State) (acc : Fin 4), Issues core ([aKey acc]) 1 true s) ∧
    (∃ (core : CoreNo) (s : State) (acc : Fin 4), Issues core ([aKey acc]) 1 true s) ∧
    (∃ (core : CoreNo) (s : State) (accs : List (Fin 4)) (c : Core) (t : State), Issues core (accs.map aKey) 1 true s ∧ c = coreAt core (accs.map
      aKey) s ∧ t = stateAt core (accs.map aKey) s ∧ accs.length ≤ 4) ∧
    (∃ (core : CoreNo) (s : State) (acc : Fin 4), Issues core ([aKey acc]) 1 true s) ∧
    (∃ (core : CoreNo) (s : State) (a : Fin 16), Issues core ([dKey a]) 1 true s) ∧
    (∃ (core : CoreNo) (s : State) (acc : Fin 4) (d : Fin 16), Issues core ([aKey acc, dKey d]) 1 true s) ∧
    (∃ (core : CoreNo) (s : State) (m : AMode) (acc : Fin 4) (half : Bool) (e : Ea) (c : Core) (t : State), Issues core ([aKey acc]) 1 true s ∧ c =
      coreAt core ([aKey acc]) s ∧ t = stateAt core ([aKey acc]) s ∧ resolve m c t = .ok e ∧ localFault e.a (if half then 2 else 4) = none) ∧
    (∃ (core : CoreNo) (s : State) (acc : Fin 4), Issues core ([aKey acc]) 1 true s) :=
  ⟨⟨1, corRdy, bun0, [19], coreAt 1 [19] corRdy, stateAt 1 [19] corRdy, by decide +kernel⟩,
   ⟨corRdy, .qmac16, .uu, .wrap, [3, 2, 1, 0], .ind 3, .ind 7, corC, ⟨0x10000, 0x10004, corC, corRdy⟩, ⟨0x20000, 0x20004, corC, corRdy⟩,
      by decide +kernel, ok_of (by decide +kernel), by decide +kernel, ok_of (by decide +kernel), by decide +kernel⟩,
   ⟨1, corTap, 3, 3, coreAt 1 ([aKey (3)]) corTap, stateAt 1 ([aKey (3)]) corTap, by decide +kernel⟩,
   ⟨1, corRdy, 3, 15, 15, by decide +kernel⟩,
   ⟨1, corRdy, 3, 15, 15, by decide +kernel⟩,
   ⟨1, corRdy, 3, 3, by decide +kernel⟩,
   ⟨1, corRdy, 3, 3, by decide +kernel⟩,
   ⟨1, corRdy, 3, by decide +kernel⟩,
   ⟨1, corRdy, 3, by decide +kernel⟩,
   ⟨1, corRdy, 3, by decide +kernel⟩,
   ⟨1, corRdy, [0, 1, 2, 3], coreAt 1 [16, 17, 18, 19] corRdy, stateAt 1 [16, 17, 18, 19] corRdy, by decide +kernel⟩,
   ⟨1, corRdy, 3, by decide +kernel⟩,
   ⟨1, corRdy, 15, by decide +kernel⟩,
   ⟨1, corRdy, 3, 15, by decide +kernel⟩,
   ⟨1, corRdy, .abs 0x10000, 3, true, ⟨0x10000, 0x10004, coreAt 1 [19] corRdy, stateAt 1 [19] corRdy⟩, coreAt 1 ([aKey (3)]) corRdy, stateAt 1 ([aKey
      (3)]) corRdy, by decide +kernel, by decide +kernel, by decide +kernel, ok_of (by decide +kernel), by decide +kernel⟩,
   ⟨1, corRdy, 3, by decide +kernel⟩⟩

/-- The hypotheses of AluAndFloatInstructionsComplete can be met, clause by clause. -/
theorem test_AluAndFloatInstructionsComplete_can_be_met :
    (∃ (core : CoreNo) (s : State) (a : Fin 16) (b : Fin 16), Issues core ([dKey a, dKey b]) 1 true s) ∧
    (∃ (core : CoreNo) (s : State) (a : Fin 16) (b : Fin 16), Issues core ([dKey a, dKey b]) 1 true s) ∧
    (∃ (core : CoreNo) (s : State) (a : Fin 16), Issues core ([dKey a]) 1 true s) ∧
    (∃ (core : CoreNo) (s : State) (a : Fin 16) (b : Fin 16), Issues core ([dKey a, dKey b]) 1 true s) ∧
    (∃ (core : CoreNo) (s : State) (a : Fin 16) (b : Fin 16), Issues core ([dKey a, dKey b]) 1 true s) ∧
    (∃ (core : CoreNo) (s : State) (a : Fin 16) (b : Fin 16), Issues core ([dKey a, dKey b]) 1 true s) ∧
    (∃ (core : CoreNo) (s : State) (a : Fin 16), Issues core ([dKey a]) 1 true s) ∧
    (∃ (core : CoreNo) (s : State) (a : Fin 16) (b : Src2), Issues core (dKey a :: src2Keys b) 1 true s) ∧
    (∃ (core : CoreNo) (s : State) (a : Fin 16) (b : Src2), Issues core (dKey a :: src2Keys b) 1 true s) ∧
    (∃ (core : CoreNo) (s : State) (a : Fin 16) (b : Src2), Issues core (dKey a :: src2Keys b) 1 true s) ∧
    (∃ (core : CoreNo) (s : State) (a : Fin 16) (b : Src2), Issues core (dKey a :: src2Keys b) 1 true s) ∧
    (∃ (core : CoreNo) (s : State) (a : Fin 16) (b : Fin 16), Issues core ([dKey a, dKey b]) 1 true s) ∧
    (∃ (core : CoreNo) (s : State) (a : Fin 16) (b : Fin 16), Issues core ([dKey a, dKey b]) 1 true s) ∧
    (∃ (core : CoreNo) (s : State) (a : Fin 16), Issues core ([dKey a]) 1 true s) ∧
    (∃ (core : CoreNo) (s : State) (a : Fin 16) (b : Src2), Issues core (dKey a :: src2Keys b) 1 true s) ∧
    (∃ (core : CoreNo) (s : State) (a : Fin 16) (b : Fin 16), Issues core ([dKey a, dKey b]) 1 true s) ∧
    (∃ (core : CoreNo) (s : State) (a : Fin 16) (b : Fin 16), Issues core ([dKey a, dKey b]) 1 true s) ∧
    (∃ (core : CoreNo) (s : State) (a : Fin 16) (b : Fin 16), Issues core ([dKey a, dKey b]) 1 true s) ∧
    (∃ (core : CoreNo) (s : State) (d : Fin 16) (a : Fin 16) (b : Fin 16), Issues core ([dKey d, dKey a, dKey b]) 1 true s) ∧
    (∃ (core : CoreNo) (s : State) (a : Fin 16) (b : Fin 16), Issues core ([dKey a, dKey b]) 1 true s) ∧
    (∃ (core : CoreNo) (s : State) (a : Fin 16) (b : Fin 16), Issues core ([dKey a, dKey b]) 1 true s) ∧
    (∃ (core : CoreNo) (s : State) (a : Fin 16) (b : Fin 16), Issues core ([dKey a, dKey b]) 1 true s) ∧
    (∃ (core : CoreNo) (s : State) (a : Fin 16) (b : Fin 16) (x : Fin 16), Issues core ([dKey a, dKey b, dKey x]) 1 true s) ∧
    (∃ (core : CoreNo) (s : State) (a : Fin 16) (b : Fin 16), Issues core ([dKey a, dKey b]) 1 true s) ∧
    (∃ (core : CoreNo) (s : State) (a : Fin 16) (b : Fin 16), Issues core ([dKey a, dKey b]) 1 true s) ∧
    (∃ (core : CoreNo) (s : State) (a : Fin 16), Issues core ([dKey a]) 1 true s) ∧
    (∃ (core : CoreNo) (s : State) (a : Fin 16), Issues core ([dKey a]) 1 true s) ∧
    (∃ (core : CoreNo) (s : State) (a : Fin 16) (b : Fin 16), Issues core ([dKey a, dKey b]) 1 true s) ∧
    (∃ (core : CoreNo) (s : State) (a : Fin 16), Issues core ([dKey a]) 1 true s) ∧
    (∃ (core : CoreNo) (s : State) (a : Fin 16), Issues core ([dKey a]) 1 true s) ∧
    (∃ (core : CoreNo) (s : State) (a : Fin 16), Issues core ([dKey a]) 1 true s) :=
  ⟨⟨1, corRdy, 15, 15, by decide +kernel⟩,
   ⟨1, corRdy, 15, 15, by decide +kernel⟩,
   ⟨1, corRdy, 15, by decide +kernel⟩,
   ⟨1, corRdy, 15, 15, by decide +kernel⟩,
   ⟨1, corRdy, 15, 15, by decide +kernel⟩,
   ⟨1, corRdy, 15, 15, by decide +kernel⟩,
   ⟨1, corRdy, 15, by decide +kernel⟩,
   ⟨1, corRdy, 15, .imm 31, by decide +kernel⟩,
   ⟨1, corRdy, 15, .imm 31, by decide +kernel⟩,
   ⟨1, corRdy, 15, .imm 31, by decide +kernel⟩,
   ⟨1, corRdy, 15, .imm 31, by decide +kernel⟩,
   ⟨1, corRdy, 15, 15, by decide +kernel⟩,
   ⟨1, corRdy, 15, 15, by decide +kernel⟩,
   ⟨1, corRdy, 15, by decide +kernel⟩,
   ⟨1, corRdy, 15, .imm 31, by decide +kernel⟩,
   ⟨1, corRdy, 15, 15, by decide +kernel⟩,
   ⟨1, corRdy, 15, 15, by decide +kernel⟩,
   ⟨1, corRdy, 15, 15, by decide +kernel⟩,
   ⟨1, corRdy, 15, 15, 15, by decide +kernel⟩,
   ⟨1, corRdy, 15, 15, by decide +kernel⟩,
   ⟨1, corRdy, 15, 15, by decide +kernel⟩,
   ⟨1, corRdy, 15, 15, by decide +kernel⟩,
   ⟨1, corRdy, 15, 15, 15, by decide +kernel⟩,
   ⟨1, corRdy, 15, 15, by decide +kernel⟩,
   ⟨1, corRdy, 15, 15, by decide +kernel⟩,
   ⟨1, corRdy, 15, by decide +kernel⟩,
   ⟨1, corRdy, 15, by decide +kernel⟩,
   ⟨1, corRdy, 15, 15, by decide +kernel⟩,
   ⟨1, corRdy, 15, by decide +kernel⟩,
   ⟨1, corRdy, 15, by decide +kernel⟩,
   ⟨1, corRdy, 15, by decide +kernel⟩⟩

/-- The hypotheses of MemoryAndControlInstructionsComplete can be met, clause by clause. -/
theorem test_MemoryAndControlInstructionsComplete_can_be_met :
    (∃ (core : CoreNo) (s : State) (sz : Size) (m : AMode) (e : Ea) (c : Core) (t : State), Issues core ([]) 1 true s ∧ c = coreAt core ([]) s ∧ t =
      stateAt core ([]) s ∧ resolve m c t = .ok e ∧ localCheck e (sizeBytes sz) = none) ∧
    (∃ (core : CoreNo) (s : State) (m : AMode) (d : Fin 16) (sz : Size) (e : Ea) (c : Core) (t : State), Issues core ([dKey d]) 1 true s ∧ c = coreAt
      core ([dKey d]) s ∧ t = stateAt core ([dKey d]) s ∧ resolve m c t = .ok e ∧ localCheck e (sizeBytes sz) = none) ∧
    (∃ (core : CoreNo) (s : State) (m : AMode) (e : Ea) (c : Core) (t : State), Issues core ([]) 1 true s ∧ c = coreAt core ([]) s ∧ t = stateAt core
      ([]) s ∧ c.unified = false ∧ resolve m c t = .ok e ∧ localCheck e 8 = none) ∧
    (∃ (core : CoreNo) (s : State) (m : AMode) (d : Fin 8) (e : Ea) (c : Core) (t : State), Issues core (pairKeys d) 1 true s ∧ c = coreAt core
      (pairKeys d) s ∧ t = stateAt core (pairKeys d) s ∧ c.unified = false ∧ resolve m c t = .ok e ∧ localCheck e 8 = none) ∧
    (∃ (core : CoreNo) (s : State) (m : AMode) (e : Ea) (c : Core) (t : State), Issues core ([]) 1 true s ∧ c = coreAt core ([]) s ∧ t = stateAt core
      ([]) s ∧ resolve m c t = .ok e ∧ sramFault e.s core.toNat c e.a 4 = none) ∧
    (∃ (core : CoreNo) (s : State) (m : AMode) (d : Fin 16) (e : Ea) (c : Core) (t : State), Issues core ([dKey d]) 1 true s ∧ c = coreAt core ([dKey
      d]) s ∧ t = stateAt core ([dKey d]) s ∧ resolve m c t = .ok e ∧ sramFault e.s core.toNat c e.a 4 = none) ∧
    (∃ (core : CoreNo) (s : State), Issues core ([]) 1 true s) ∧
    (∃ (core : CoreNo) (s : State) (step : Src2), Issues core (src2Keys step) 1 true s) ∧
    (∃ (core : CoreNo) (s : State) (src : SReg), Issues core (regKeys src) 1 true s) ∧
    (∃ (core : CoreNo) (s : State), Issues core ([]) 1 false s) ∧
    (∃ (core : CoreNo) (s : State) (cond : Cond) (c : Core) (t : State), Issues core ([]) 1 false s ∧ c = coreAt core ([]) s ∧ t = stateAt core ([]) s
      ∧ condHolds cond c = true) ∧
    (∃ (core : CoreNo) (s : State) (cond : Cond) (c : Core) (t : State), Issues core ([]) 1 false s ∧ c = coreAt core ([]) s ∧ t = stateAt core ([]) s
      ∧ condHolds cond c = false) ∧
    (∃ (core : CoreNo) (s : State) (c : Core) (t : State), Issues core ([]) 1 false s ∧ c = coreAt core ([]) s ∧ t = stateAt core ([]) s ∧
      c.stack.length < 8) ∧
    (∃ (core : CoreNo) (s : State) (a : U32) (l : List U32) (c : Core) (t : State), Issues core ([]) 1 false s ∧ c = coreAt core ([]) s ∧ t = stateAt
      core ([]) s ∧ c.stack = a :: l) ∧
    (∃ (core : CoreNo) (s : State) (count : Count) (n : U32) (c : Core) (t : State), Issues core (countReads count) 1 false s ∧ c = coreAt core
      (countReads count) s ∧ t = stateAt core (countReads count) s ∧ n = (match count with | .imm k => k.setWidth 32 | .reg d => getD c d) ∧ n ≠ 0 ∧
      c.loops.length < 4) ∧
    (∃ (core : CoreNo) (s : State) (d : Fin 16) (c : Core) (t : State), Issues core [dKey d] 1 false s ∧ c = coreAt core [dKey d] s ∧ t = stateAt core
      [dKey d] s ∧ getD c d = 0) ∧
    (∃ (core : CoreNo) (s : State) (count : Count) (n : U32) (c : Core) (t : State), Issues core (countReads count) 1 false s ∧ c = coreAt core
      (countReads count) s ∧ t = stateAt core (countReads count) s ∧ n = (match count with | .imm k => k.setWidth 32 | .reg d => getD c d) ∧ n ≠ 0 ∧
      c.loops.length < 4) ∧
    (∃ (core : CoreNo) (s : State) (op : DmaqOp) (c : Core) (t : State), Issues core ([]) 1 true s ∧ c = coreAt core ([]) s ∧ t = stateAt core ([]) s
      ∧ (getCore s core.toNat).queue.length < 16 ∧ op.bytes.toNat ≤ 65536 ∧ xferOk t core.toNat c op.localAddr.toNat op.bytes.toNat = true ∧ (kernOf t
      c).all (fun k => decide (op.offset.toNat + op.bytes.toNat ≤ k.scratchKib * 1024)) = true) ∧
    (∃ (core : CoreNo) (s : State) (i : BitVec 4) (a : BitVec 24) (len : BitVec 17) (k : Kern) (v : KBind) (c : Core) (t : State), Issues core ([]) 1
      true s ∧ c = coreAt core ([]) s ∧ t = stateAt core ([]) s ∧ (getCore s core.toNat).queue.length < 16 ∧ len.toNat ≤ 65536 ∧ xferOk t core.toNat c
      a.toNat len.toNat = true ∧ kernOf t c = some k ∧ tget k.binds i.toNat = some v ∧ v.kind = 1) ∧
    (∃ (core : CoreNo) (s : State) (n : BitVec 5) (c : Core) (t : State), Issues core ([]) 1 true s ∧ c = coreAt core ([]) s ∧ t = stateAt core ([]) s
      ∧ (getCore s core.toNat).queue.length ≤ n.toNat) ∧
    (∃ (core : CoreNo) (s : State) (q : CoreXfer) (l : List CoreXfer), (getCore s core.toNat).queue = q :: l) ∧
    (∃ (core : CoreNo) (s : State) (d : Fin 16) (c : Core) (t : State), Issues core ([dKey d]) 1 true s ∧ c = coreAt core ([dKey d]) s ∧ t = stateAt
      core ([dKey d]) s ∧ (c.unified = false ∨ getD c d &&& 0xFEFE = 0)) ∧
    (∃ (core : CoreNo) (s : State), Issues core ([]) 1 true s) ∧
    (∃ (core : CoreNo) (s : State), Issues core [] 1 false s) ∧
    (∃ (core : CoreNo) (s : State) (k : Kern), (getCore s core.toNat).state = .running ∧ kernOf s (getCore s core.toNat) = some k) :=
  ⟨⟨1, corRdy, .b16, .abs 0x10000, ⟨0x10000, 0x10004, coreAt 1 [] corRdy, stateAt 1 [] corRdy⟩, coreAt 1 ([]) corRdy, stateAt 1 ([]) corRdy,
      by decide +kernel, by decide +kernel, by decide +kernel, ok_of (by decide +kernel), by decide +kernel⟩,
   ⟨1, corRdy, .abs 0x10000, 15, .b16, ⟨0x10000, 0x10004, coreAt 1 [15] corRdy, stateAt 1 [15] corRdy⟩, coreAt 1 ([dKey (15)]) corRdy, stateAt 1 ([dKey
      (15)]) corRdy, by decide +kernel, by decide +kernel, by decide +kernel, ok_of (by decide +kernel), by decide +kernel⟩,
   ⟨1, corRdy, .abs 0x10000, ⟨0x10000, 0x10004, coreAt 1 [] corRdy, stateAt 1 [] corRdy⟩, coreAt 1 ([]) corRdy, stateAt 1 ([]) corRdy, by decide +kernel,
      by decide +kernel, by decide +kernel, by decide +kernel, ok_of (by decide +kernel), by decide +kernel⟩,
   ⟨1, corRdy, .abs 0x10000, 7, ⟨0x10000, 0x10004, coreAt 1 (pairKeys 7) corRdy, stateAt 1 (pairKeys 7) corRdy⟩, coreAt 1 (pairKeys (7)) corRdy, stateAt
      1 (pairKeys (7)) corRdy, by decide +kernel, by decide +kernel, by decide +kernel, by decide +kernel, ok_of (by decide +kernel),
      by decide +kernel⟩,
   ⟨1, corRdy, .abs 0x100000, ⟨0x100000, 0x100004, coreAt 1 [] corRdy, stateAt 1 [] corRdy⟩, coreAt 1 ([]) corRdy, stateAt 1 ([]) corRdy,
      by decide +kernel, by decide +kernel, by decide +kernel, ok_of (by decide +kernel), by decide +kernel⟩,
   ⟨1, corRdy, .abs 0x100000, 15, ⟨0x100000, 0x100004, coreAt 1 [15] corRdy, stateAt 1 [15] corRdy⟩, coreAt 1 ([dKey (15)]) corRdy, stateAt 1 ([dKey
      (15)]) corRdy, by decide +kernel, by decide +kernel, by decide +kernel, ok_of (by decide +kernel), by decide +kernel⟩,
   ⟨1, corRdy, by decide +kernel⟩,
   ⟨1, corRdy, .imm 31, by decide +kernel⟩,
   ⟨1, corRdy, .k 7, by decide +kernel⟩,
   ⟨1, corRdy, by decide +kernel⟩,
   ⟨1, corRdy, 0xFFFF, coreAt 1 ([]) corRdy, stateAt 1 ([]) corRdy, by decide +kernel⟩,
   ⟨1, corRdy, 0, coreAt 1 ([]) corRdy, stateAt 1 ([]) corRdy, by decide +kernel⟩,
   ⟨1, corRdy, coreAt 1 ([]) corRdy, stateAt 1 ([]) corRdy, by decide +kernel⟩,
   ⟨1, corRet, 8, [], coreAt 1 ([]) corRet, stateAt 1 ([]) corRet, by decide +kernel⟩,
   ⟨1, corRdy, .imm 0xFFFF, 0xFFFF, coreAt 1 (countReads (.imm 0xFFFF)) corRdy, stateAt 1 (countReads (.imm 0xFFFF)) corRdy, by decide +kernel⟩,
   ⟨1, corRdy, 15, coreAt 1 [15] corRdy, stateAt 1 [15] corRdy, by decide +kernel⟩,
   ⟨1, corRdy, .imm 0xFFFF, 0xFFFF, coreAt 1 (countReads (.imm 0xFFFF)) corRdy, stateAt 1 (countReads (.imm 0xFFFF)) corRdy, by decide +kernel⟩,
   ⟨1, corRdy, ⟨true, 0x10000, 0, 65536⟩, coreAt 1 ([]) corRdy, stateAt 1 ([]) corRdy, by decide +kernel⟩,
   ⟨1, corKern, 15, 0x10000, 65536, kern0, outBind, coreAt 1 ([]) corKern, stateAt 1 ([]) corKern, by decide +kernel⟩,
   ⟨1, corRdy, 0, coreAt 1 ([]) corRdy, stateAt 1 ([]) corRdy, by decide +kernel⟩,
   ⟨1, corXfer, .dma ⟨true, 0x10000, 0, 4⟩, [], by decide +kernel⟩,
   ⟨1, corRdy, 15, coreAt 1 ([dKey (15)]) corRdy, stateAt 1 ([dKey (15)]) corRdy, by decide +kernel⟩,
   ⟨1, corRdy, by decide +kernel⟩,
   ⟨1, corRdy, by decide +kernel⟩,
   ⟨1, corKern, kern0, by decide +kernel⟩⟩

/-- The hypotheses of CoreFaultsFreezeTheCore can be met, clause by clause. -/
theorem test_CoreFaultsFreezeTheCore_can_be_met :
    (∃ (core : CoreNo) (s : State) (sz : Size) (m : AMode) (e : Ea) (f : CoreFault), Issues core [] 1 true s ∧ resolve m (coreAt core [] s) (stateAt
      core [] s) = .ok e ∧ localCheck e (sizeBytes sz) = some f) ∧
    (∃ (core : CoreNo) (s : State) (d : Fin 16) (sz : Size) (m : AMode) (e : Ea) (f : CoreFault), Issues core [dKey d] 1 true s ∧ resolve m (coreAt
      core [dKey d] s) (stateAt core [dKey d] s) = .ok e ∧ localCheck e (sizeBytes sz) = some f) ∧
    (∃ (core : CoreNo) (s : State), Issues core [] 1 false s ∧ 8 ≤ (coreAt core [] s).stack.length) ∧
    (∃ (core : CoreNo) (s : State), Issues core [] 1 false s ∧ (coreAt core [] s).stack = []) ∧
    (∃ (core : CoreNo) (s : State), Issues core [] 1 false s) ∧
    (∃ (core : CoreNo) (s : State), (getCore s core.toNat).state = .running ∧ 0x8000 < (getCore s core.toNat).pc.toNat + 4) ∧
    (∃ (core : CoreNo) (s : State), (getCore s core.toNat).state ≠ .running) :=
  ⟨⟨1, corRdy, .b16, .abs 0x10001, ⟨0x10001, 0x10005, coreAt 1 [] corRdy, stateAt 1 [] corRdy⟩, .align, by decide +kernel, ok_of (by decide +kernel),
      by decide +kernel⟩,
   ⟨1, corRdy, 15, .b32, .abs 0x2FFFE, ⟨0x2FFFE, 0x30002, coreAt 1 [15] corRdy, stateAt 1 [15] corRdy⟩, .window, by decide +kernel, ok_of
      (by decide +kernel), by decide +kernel⟩,
   ⟨1, corFull, by decide +kernel⟩,
   ⟨1, corRdy, by decide +kernel⟩,
   ⟨1, corRdy, by decide +kernel⟩,
   ⟨1, corEnd, by decide +kernel⟩,
   ⟨1, rdy, by decide +kernel⟩⟩

/-- The hypotheses of KernelCommandsComplete can be met, clause by clause. -/
theorem test_KernelCommandsComplete_can_be_met :
    (∃ (h : Hdr) (s : State) (p : KernelLoadP) (k : Nat), Admitted (cmdLong 0x0D01 .openC false 8) h s ∧ p.rsv = 0 ∧ ((p.source = 0 ∧ ringFree s
      h.part p.index.toNat true = true) ∨ (p.source = 1 ∧ p.index.toNat < 32)) ∧ 1 ≤ p.cores.toNat ∧ p.cores.toNat ≤ 32 ∧ 256 ≤ p.bytes.toNat ∧
      p.bytes.toNat ≤ 164096 ∧ tfreeFrom s.sor.kernels 32 0 = some k) ∧
    (∃ (h : Hdr) (s : State) (p : KernelBindP) (x : Kern) (ts : List Nat) (w : State), Admitted (cmd 0x0D02 .openC false (24 + 4 * p.n.toNat)) h s ∧
      bindRange p = true ∧ bindNames h p s = true ∧ getKern s p.kernel.toNat = some x ∧ (x.state = .loaded ∨ x.state = .faulted) ∧ (p.kind = 2 → 16 +
      8 * (p.handles.foldl (fun n w => (tget s.ing.streams w.toNat).elim n (fun st => n + st.maxChannels)) 0) ≤ p.slotBytes.toNat) ∧ (addTasks
      p.kernel.toNat x p.binding.toNat (if p.kind.toNat = 0 then 2 else 1) p.level.toNat (decide (2 ≤ p.kind.toNat)) (decide (3 ≤ p.kind.toNat)) (if
      p.kind.toNat = 0 ∨ p.kind.toNat = 2 then p.slots.toNat else if p.kind.toNat = 1 then 0 else 1) 0 [] (countCmd h s) = some (ts, w))) ∧
    (∃ (h : Hdr) (s : State) (p : KernelBindP) (x : Kern) (v : KBind), Admitted (cmd 0x0D02 .openC false (24 + 4 * p.n.toNat)) h s ∧ p.rsv = 0 ∧
      p.kernel.toNat < 32 ∧ p.binding.toNat < 16 ∧ getKern s p.kernel.toNat = some x ∧ mayName s h.part x.part = true ∧ tget x.binds p.binding.toNat =
      some v ∧ (x.state = .loaded ∨ x.state = .faulted)) ∧
    (∃ (h : Hdr) (s : State) (p : KernelStartP) (x : Kern), Admitted (cmd 0x0D03 .openC true 4) h s ∧ p.rsv = 0 ∧ kernNamed h p.kernel.toNat s = true
      ∧ getKern s p.kernel.toNat = some x ∧ p.flags.toNat < 2 ∧ x.state = .loaded) ∧
    (∃ (h : Hdr) (s : State) (p : KernelP) (x : Kern), Admitted (cmdLong 0x0D04 .openC true 4) h s ∧ p.rsv = 0 ∧ kernNamed h p.kernel.toNat s = true ∧
      getKern s p.kernel.toNat = some x ∧ (x.state = .running ∨ x.state = .faulted) ∧ x.long = none) ∧
    (∃ (h : Hdr) (s : State) (p : KernelP) (x : Kern), Admitted (cmd 0x0D05 .openC false 4) h s ∧ p.rsv = 0 ∧ kernNamed h p.kernel.toNat s = true ∧
      getKern s p.kernel.toNat = some x ∧ (x.state = .loaded ∨ x.state = .faulted) ∧ kernRuns s x = false) :=
  ⟨⟨hdr (cmdLong 0x0D01 .openC false 8), ringRdy, ⟨0, 1, 32, 0, 164096⟩, 0, by decide +kernel⟩,
   ⟨hdr (cmd 0x0D02 .openC false 24), kerRing, ⟨0, 0, 1, 7, 0, 0, 0, 0, 0, 0, 0, 0, []⟩, kernL, [], countCmd (hdr (cmd 0x0D02 .openC false 24)) kerRing,
      by decide +kernel⟩,
   ⟨hdr (cmd 0x0D02 .openC false 24), kerRing, ⟨0, 15, 1, 7, 0, 0, 0, 0, 0, 0, 0, 0, []⟩, kernL, outBind, by decide +kernel⟩,
   ⟨hdr (cmd 0x0D03 .openC true 4), kerRing, ⟨0, 1, 0⟩, kernL, by decide +kernel⟩,
   ⟨hdr (cmdLong 0x0D04 .openC true 4), corKern, ⟨0, 0⟩, kern0, by decide +kernel⟩,
   ⟨hdr (cmd 0x0D05 .openC false 4), kerIdle, ⟨0, 0⟩, kernI, by decide +kernel⟩⟩

/-- The hypotheses of KernelEventsComplete can be met, clause by clause. -/
theorem test_KernelEventsComplete_can_be_met :
    (∃ (s : State) (k : BitVec 5) (i : BelethIn) (x : Kern) (b : Beleth) (st : Sts) (cause : Nat) (v : State), getKern s k.toNat = some x ∧ x.state =
      .loading ∧ (x.loadSrc = 0 → x.loadBytes ≤ i.bytes.length ∧ hostReads s x.part = true) ∧ b = readBeleth { i with bytes := loadBytesOf s x i } ∧ v
      = (if x.loadSrc = 0 then unbindRing x.part x.loadIdx.toNat .image s else s) ∧ imageCheck v (loadBytesOf s x i).length x.loadCores b = some (st,
      cause)) ∧
    (∃ (s : State) (k : BitVec 5) (i : BelethIn) (x : Kern) (b : Beleth) (v : State), getKern s k.toNat = some x ∧ x.state = .loading ∧ (x.loadSrc = 0
      → x.loadBytes ≤ i.bytes.length ∧ hostReads s x.part = true) ∧ b = readBeleth { i with bytes := loadBytesOf s x i } ∧ v = (if x.loadSrc = 0 then
      unbindRing x.part x.loadIdx.toNat .image s else s) ∧ imageCheck v (loadBytesOf s x i).length x.loadCores b = none ∧ reserveKern v k.toNat x b =
      none) ∧
    (∃ (s : State) (k : BitVec 5) (x : Kern), getKern s k.toNat = some x ∧ kernRuns s x = false ∧ x.state ≠ .loading) ∧
    (∃ (s : State) (m : KernelMsg) (r : Ring) (k : Nat) (b : Nat) (x : Kern) (v : KBind), getRing s m.part m.ring.toNat = some r ∧ r.use = .kernel k ∧
      r.owned ≠ [] ∧ hostReads s m.part = true ∧ getKern s k = some x ∧ (tfind (fun _ b => decide (b.kind = 0 ∧ b.ring = m.ring.toNat)) x.binds = some
      (b, v)) ∧ m.poison = 0 ∧ m.data.length ≤ v.slotBytes) ∧
    (∃ (s : State) (m : KernelMsg) (r : Ring) (k : Nat) (b : Nat) (x : Kern) (v : KBind), getRing s m.part m.ring.toNat = some r ∧ r.use = .kernel k ∧
      r.owned ≠ [] ∧ hostReads s m.part = true ∧ getKern s k = some x ∧ (tfind (fun _ b => decide (b.kind = 0 ∧ b.ring = m.ring.toNat)) x.binds = some
      (b, v)) ∧ m.poison = 0 ∧ v.slotBytes < m.data.length) ∧
    (∃ (s : State) (m : KernelMsg) (r : Ring) (k : Nat) (b : Nat) (x : Kern) (v : KBind), getRing s m.part m.ring.toNat = some r ∧ r.use = .kernel k ∧
      r.owned ≠ [] ∧ hostReads s m.part = true ∧ getKern s k = some x ∧ (tfind (fun _ b => decide (b.kind = 0 ∧ b.ring = m.ring.toNat)) x.binds = some
      (b, v)) ∧ m.poison ≠ 0) :=
  ⟨⟨loadRdy, 0, ⟨List.replicate 255 0, 0, true, true⟩, kernW, readBeleth ⟨List.replicate 255 0, 0, true, true⟩, .badLength, 0, loadRdy,
      by decide +kernel⟩,
   ⟨loadFull, 0, imgIn, kernR, readBeleth imgIn, unbindRing 0 0 .image loadFull, by decide +kernel⟩,
   ⟨kerIdle, 0, kernI, by decide +kernel⟩,
   ⟨kmsgRdy, ⟨0, 1, [1, 2], 0⟩, kmsgRing, 0, 0, kernM, inBind, by decide +kernel⟩,
   ⟨kmsgRdy, ⟨0, 1, List.replicate 65 0, 0⟩, kmsgRing, 0, 0, kernM, inBind, by decide +kernel⟩,
   ⟨kmsgRdy, ⟨0, 1, [1, 2], 1⟩, kmsgRing, 0, 0, kernM, inBind, by decide +kernel⟩⟩

/-- The hypotheses of SchedulerCompletes can be met, clause by clause. -/
theorem test_SchedulerCompletes_can_be_met :
    (∃ (s : State) (h : Hdr) (p : YarrowConfigP), Admitted (cmd 0x0E01 .control false 4) h s ∧ p.rsv = 0 ∧ 50 ≤ p.qHighPct.toNat ∧ p.qHighPct.toNat ≤
      100 ∧ 50 ≤ p.loadAlertPct.toNat ∧ p.loadAlertPct.toNat ≤ 100) ∧
    (∃ (s : State) (h : Hdr) (p : YarrowLoadBindP), Admitted (cmd 0x0E02 .openC false 4) h s ∧ p.rsv = 0 ∧ 1 ≤ p.loadDiv.toNat ∧ p.loadDiv.toNat ≤ 100
      ∧ p.ring ≠ 0xFF ∧ ringFree s h.part p.ring.toNat false = true ∧ s.yar.loadRing.get h.part = none) ∧
    (∃ (s : State) (h : Hdr) (p : YarrowLoadBindP) (n : Nat), Admitted (cmd 0x0E02 .openC false 4) h s ∧ p.rsv = 0 ∧ 1 ≤ p.loadDiv.toNat ∧
      p.loadDiv.toNat ≤ 100 ∧ p.ring = 0xFF ∧ s.yar.loadRing.get h.part = some n) ∧
    (∃ (s : State), s.yar.windowMs < taiNs s / 1000000) ∧
    (∃ (s : State), s.yar.lastEvalEl + 1000000000 ≤ elNs s) :=
  ⟨⟨rdy, hdr (cmd 0x0E01 .control false 4), ⟨50, 100, 0⟩, by decide +kernel⟩,
   ⟨ringRdy, hdr (cmd 0x0E02 .openC false 4), ⟨0, 100, 0⟩, by decide +kernel⟩,
   ⟨{ rdy with yar := { rdy.yar with loadRing := .all (some 3) } }, hdr (cmd 0x0E02 .openC false 4), ⟨255, 1, 0⟩, 3, by decide +kernel⟩,
   ⟨{ rdy with clk := { rdy.clk with ns := 15000000 } }, by decide +kernel⟩,
   ⟨{ rdy with yar := { rdy.yar with lastEvalEl := 0 } }, by decide +kernel⟩⟩

/-- The hypotheses of RadioCommandsComplete can be met, clause by clause. -/
theorem test_RadioCommandsComplete_can_be_met :
    (∃ (h : Hdr) (s : State) (p : CfProfileP), Admitted (cmd 0x0F01 .control false 672) h s ∧ profileOk p = true ∧ s.cf.state = .off ∧ (s.cf.nodes =
      [] ∨ timingSame s.cf { s.cf with profile := some p } = true)) ∧
    (∃ (h : Hdr) (s : State) (p : CfConfigP) (c : CfBlk), Admitted (cmd 0x0F02 .control false 16) h s ∧ p.enable.toNat < 2 ∧ p.beaconMic.toNat < 3 ∧
      25 ≤ p.sfMs.toNat ∧ p.sfMs.toNat ≤ 1000 ∧ 11 ≤ p.pollMax.toNat ∧ p.pollMax.toNat ≤ 2047 ∧ 10 ≤ p.respMax.toNat ∧ p.respMax.toNat ≤ 2047 ∧ 1 ≤
      p.dwellMs.toNat ∧ p.dwellMs.toNat ≤ 10000 ∧ 1 ≤ p.dwellWinS.toNat ∧ p.dwellWinS.toNat ≤ 3600 ∧ 256 ≤ p.rekeyWarn.toNat ∧ p.rekeyWarn.toNat ≤
      8388608 ∧ sizesOk p.pollMax.toNat p.respMax.toNat s.cf = true ∧ c =
      { s.cf with enable := decide (p.enable = 1), beaconMic := p.beaconMic.toNat, sfMs := p.sfMs.toNat, pollMax := p.pollMax.toNat, respMax :=
                    p.respMax.toNat, dwellMs := p.dwellMs.toNat, dwellWinS := p.dwellWinS.toNat, rekeyWarn := p.rekeyWarn.toNat } ∧ (s.cf.nodes = [] ∨
      timingSame s.cf c = true)) ∧
    (∃ (h : Hdr) (s : State) (p : CfChannelMapP), Admitted (cmd 0x0F03 .control false 16) h s ∧ p.mask ≠ 0 ∧ Nat.gcd p.hopInc.toNat (HopMap.chans
      ⟨p.mask, p.hopInc.toNat, p.hopSeed.toNat⟩).length = 1 ∧ p.hopSeed.toNat < 64 ∧ p.rsv = 0 ∧ 16 ≤ (p.switchSf - s.cf.sfNo).toNat) ∧
    (∃ (h : Hdr) (s : State) (p : CfNodeAddP) (q : CfProfileP) (ph : Nat) (sl : Nat), Admitted (cmd 0x0F04 .openC false 32) h s ∧ p.node.toNat < 1024
      ∧ p.mic.toNat < 3 ∧ p.rsv = 0 ∧ 1 ≤ p.pollDiv.toNat ∧ p.pollDiv.toNat ≤ 256 ∧ 500 ≤ p.superMs.toNat ∧ p.superMs.toNat ≤ 32000 ∧ 3 *
      p.pollDiv.toNat * s.cf.sfMs ≤ p.superMs.toNat ∧ 7 + micBytes p.mic.toNat ≤ s.cf.pollMax ∧ 6 + micBytes p.mic.toNat ≤ s.cf.respMax ∧ (getNode s
      p.node.toNat).all (fun v => decide (v.state = .closed) && mayName s h.part v.part) = true ∧ s.cf.profile = some q ∧ placeNode
      { s.cf with nodes := tdel s.cf.nodes p.node.toNat } (slotCount q { s.cf with nodes := tdel s.cf.nodes p.node.toNat }) p.pollDiv.toNat = some
      (ph, sl)) ∧
    (∃ (h : Hdr) (s : State) (p : CfNodeP) (v : Node), Admitted (cmd 0x0F05 .openC false 4) h s ∧ p.rsv = 0 ∧ nodeNameable h p.node.toNat s = true ∧
      getNode s p.node.toNat = some v ∧ nodeStreamFree s v = true) ∧
    (∃ (h : Hdr) (s : State) (p : CfNodeKeyP) (v : Node), Admitted (cmd 0x0F06 .openC false 24) h s ∧ p.rsv = 0 ∧ p.node ≠ 0xFFFF ∧ nodeNameable h
      p.node.toNat s = true ∧ getNode s p.node.toNat = some v ∧ v.ctr + 8 ≤ p.eSw.toNat ∧ p.eSw.toNat < 2 ^ 24) ∧
    (∃ (h : Hdr) (s : State) (p : CfNodeKeyP), Admitted (cmd 0x0F06 .openC false 24) h s ∧ p.rsv = 0 ∧ p.node = 0xFFFF ∧ s.host.controller = some
      h.part ∧ 8 ≤ (p.eSw - s.cf.sfNo).toNat) ∧
    (∃ (h : Hdr) (s : State) (p : CfNodeStreamP) (w : Node) (b : Nat) (n : Nat), Admitted (cmd 0x0F07 .openC false 24) h s ∧ nodeMapOk p = true ∧
      nodeNameable h p.node.toNat s = true ∧ getNode s p.node.toNat = some w ∧ w.handle = none ∧ addRefusal w.part p.n.toNat s = none ∧ allocChans s
      p.n.toNat = some b ∧ tfreeFrom s.ing.streams 262144 0 = some n ∧ stashUsed s < 256) ∧
    (∃ (h : Hdr) (s : State) (p : CfNodeStreamP) (v : Node) (n : Nat), Admitted (cmd 0x0F07 .openC false 24) h s ∧ p.rsv = 0 ∧ nodeNameable h
      p.node.toNat s = true ∧ getNode s p.node.toNat = some v ∧ v.handle = some n ∧ nodeStreamFree s v = true) ∧
    (∃ (h : Hdr) (s : State) (p : RingBindP), Admitted (cmd 0x0F08 .openC false 4) h s ∧ p.rsv = 0 ∧ p.ring ≠ 0xFF ∧ ringFree s h.part p.ring.toNat
      false = true ∧ s.cf.outRing.get h.part = none) ∧
    (∃ (h : Hdr) (s : State) (p : RingBindP) (n : Nat), Admitted (cmd 0x0F08 .openC false 4) h s ∧ p.rsv = 0 ∧ p.ring = 0xFF ∧ s.cf.outRing.get h.part
      = some n) ∧
    (∃ (h : Hdr) (s : State) (p : CfSendP) (v : Node), Admitted (cmd 0x0F09 .openC false (4 + p.len.toNat)) h s ∧ 0x80 ≤ p.type.toNat ∧ p.type.toNat ≤
      0xFE ∧ nodeNameable h p.node.toNat s = true ∧ getNode s p.node.toNat = some v ∧ 9 + micBytes v.mic + p.body.length ≤ s.cf.pollMax ∧ v.dl.length
      < 4) :=
  ⟨⟨hdr (cmd 0x0F01 .control false 672), rdy, cfProf, by decide +kernel⟩,
   ⟨hdr (cmd 0x0F02 .control false 16), cfProfd, ⟨1, 2, 25, 11, 2047, 1, 3600, 256⟩,
      { cfProfd.cf with enable := true, beaconMic := 2, sfMs := 25, pollMax := 11, respMax := 2047, dwellMs := 1, dwellWinS := 3600, rekeyWarn := 256
                          }, by decide +kernel⟩,
   ⟨hdr (cmd 0x0F03 .control false 16), rdy, ⟨0x8000000000000001, 3, 63, 0, 16⟩, by decide +kernel⟩,
   ⟨hdr (cmd 0x0F04 .openC false 32), cfProfd, ⟨1023, 0, 0, 9, 1, 500, 5⟩, cfProf, 0, 0, by decide +kernel⟩,
   ⟨hdr (cmd 0x0F05 .openC false 4), cfNod, ⟨1023, 0⟩, node0, by decide +kernel⟩,
   ⟨hdr (cmd 0x0F06 .openC false 24), cfNod, ⟨1023, 0, 8, 7⟩, node0, by decide +kernel⟩,
   ⟨hdr (cmd 0x0F06 .openC false 24), rdy, ⟨0xFFFF, 0, 8, 7⟩, by decide +kernel⟩,
   ⟨hdr (cmd 0x0F07 .openC false 24), cfNod, ⟨1023, 2, 10, 7, 0, [15, 0, 0xFF, 0xFF, 0xFF, 0xFF, 0xFF, 0xFF, 0xFF, 0xFF, 0xFF, 0xFF, 0xFF, 0xFF, 0xFF,
      0xFF]⟩, node0, 0, 0, by decide +kernel⟩,
   ⟨hdr (cmd 0x0F07 .openC false 24), cfNodM, ⟨1023, 0, 0, 0, 0, []⟩, { node0 with handle := some 0 }, 0, by decide +kernel⟩,
   ⟨hdr (cmd 0x0F08 .openC false 4), ringRdy, ⟨0, 0⟩, by decide +kernel⟩,
   ⟨hdr (cmd 0x0F08 .openC false 4), { rdy with cf := { rdy.cf with outRing := .all (some 3) } }, ⟨255, 0⟩, 3, by decide +kernel⟩,
   ⟨hdr (cmd 0x0F09 .openC false 6), cfNodB, ⟨1023, 0xFE, 2, [1, 2]⟩, node0, by decide +kernel⟩⟩

/-- The hypotheses of RadioEventsComplete can be met, clause by clause. -/
theorem test_RadioEventsComplete_can_be_met :
    (∃ (s : State), s.cf.state = .starting ∧ s.cf.failEl = none ∧ s.cf.startEl + 6000000 ≤ elNs s) ∧
    (∃ (s : State), s.cf.state = .starting ∧ s.cf.failEl = none ∧ s.cf.startEl + 16000000 ≤ elNs s) ∧
    (∃ (s : State) (e : Nat), s.cf.state = .starting ∧ s.cf.failEl = some e ∧ e + (if s.cf.tries ≤ 3 then 1000000000 else 10000000000) ≤ elNs s) ∧
    (∃ (s : State) (n : Nat) (st : Nat) (ch : Nat) (p : CfProfileP) (m : HopMap), nextSf s = (n, st) ∧ (m = s.cf.mapNext.elim s.cf.map (fun e => if
      e.2.2 ≤ n then e.1 else s.cf.map)) ∧ s.cf.profile = some p ∧ m.chanOf (n % 2 ^ 32) = some ch ∧ s.cf.state = .running ∧ st ≤ elNs s + 1000000 ∧
      s.cf.planIdx ≠ some n) ∧
    (∃ (s : State) (n : Nat) (st : Nat), nextSf s = (n, st) ∧ s.cf.state = .running ∧ st ≤ elNs s + 500000 ∧ s.cf.checkIdx ≠ some n ∧ (s.cf.planIdx ≠
      some n ∨ s.cf.planSilent = false)) ∧
    (∃ (s : State) (n : Nat) (st : Nat) (ch : Nat) (p : CfProfileP) (a : State), nextSf s = (n, st) ∧ s.cf.state ≠ .off ∧ st ≤ elNs s ∧ (n % 2 ^ 32 ≠
      0 ∨ n = 0 ∨ s.cf.eSwB ≠ none) ∧ a = nodeEvents (n % 2 ^ 32) (beaconKey n (mapSwitch n (modCf (fun c =>
      { c with sfIdx := n, sfNo := BitVec.ofNat 32 n, sfEl := some st }) s))) ∧ a.cf.map.chanOf (n % 2 ^ 32) = some ch ∧ a.cf.profile = some p) ∧
    (∃ (s : State) (node : U16) (v : Node) (p : CfProfileP), getNode s node.toNat = some v ∧ s.cf.profile = some p ∧ s.cf.state = .running ∧
      s.cf.sfEl.isSome = true ∧ s.cf.silent = false ∧ v.state ≠ .closed ∧ s.cf.sfNo.toNat % v.pollDiv = v.phase ∧ v.polled = false ∧ (s.cf.planIdx =
      some s.cf.sfIdx → v.slot < s.cf.slotsPlan) ∧ slotStart p s.cf v.slot ≤ elNs s ∧ elNs s < slotEnd p s.cf v.slot) ∧
    (∃ (s : State) (node : U16) (v : Node) (p : CfProfileP), getNode s node.toNat = some v ∧ s.cf.profile = some p ∧ v.polled = true ∧ slotEnd p s.cf
      v.slot ≤ elNs s) ∧
    (∃ (s : State) (node : U16) (v : Node), getNode s node.toNat = some v ∧ (v.state = .added ∨ v.state = .lostPending) ∧ v.superEl + v.superMs *
      1000000 ≤ elNs s) ∧
    (∃ (s : State), s.cf.state ≠ .off) ∧
    (∃ (s : State), s.cf.state ≠ .off) ∧
    (∃ (s : State), s.cf.state ≠ .off ∧ s.cf.txEl ≠ none) ∧
    (∃ (s : State) (e : Nat) (p : CfProfileP), s.cf.txEl = some e ∧ s.cf.profile = some p ∧ e + nsOf p (airN p (15 + micBytes s.cf.beaconMic)) +
      2000000 ≤ elNs s) ∧
    (∃ (s : State) (r : CfResponse), s.cf.state = .running ∧ (r.len.toNat < 9 ∨ 2047 < r.len.toNat)) ∧
    (∃ (s : State) (r : CfResponse) (v : Node), s.cf.state = .running ∧ 9 ≤ r.len.toNat ∧ r.len.toNat ≤ 2047 ∧ getNode s r.addr.toNat = some v ∧
      v.state ≠ .closed ∧ responseOk v r = true) ∧
    (∃ (s : State) (r : CfResponse) (v : Node), s.cf.state = .running ∧ 9 ≤ r.len.toNat ∧ r.len.toNat ≤ 2047 ∧ getNode s r.addr.toNat = some v ∧
      v.state ≠ .closed ∧ responseOk v r = false) :=
  ⟨⟨cfStart, by decide +kernel⟩,
   ⟨cfStart, by decide +kernel⟩,
   ⟨{ cfStart with cf := { cfStart.cf with failEl := some 5, tries := 4 } }, 5, by decide +kernel⟩,
   ⟨cfRun, cfN, (nextSf cfRun).2, 0, cfProf, ⟨1, 1, 0⟩, by decide +kernel⟩,
   ⟨cfRun, cfN, (nextSf cfRun).2, by decide +kernel⟩,
   ⟨cfRun, cfN, (nextSf cfRun).2, 0, cfProf, nodeEvents (cfN % 2 ^ 32) (beaconKey cfN (mapSwitch cfN (modCf (fun c =>
      { c with sfIdx := cfN, sfNo := BitVec.ofNat 32 cfN, sfEl := some (nextSf cfRun).2 }) cfRun))), by decide +kernel⟩,
   ⟨cfSlot, 1023, node0, cfProf, by decide +kernel⟩,
   ⟨cfMiss, 1023, { node0 with polled := true, misses := 2 }, cfProf, by decide +kernel⟩,
   ⟨cfSlot, 1023, node0, by decide +kernel⟩,
   ⟨cfSlot, by decide +kernel⟩,
   ⟨cfSlot, by decide +kernel⟩,
   ⟨cfTx, by decide +kernel⟩,
   ⟨cfTx, 5, cfProf, by decide +kernel⟩,
   ⟨cfSlot, { resp0 with len := 8 }, by decide +kernel⟩,
   ⟨cfSlot, resp0, node0, by decide +kernel⟩,
   ⟨cfSlot, { resp0 with authOk := false }, node0, by decide +kernel⟩⟩

/-- The hypotheses of DillCompletes can be met, clause by clause. -/
theorem test_DillCompletes_can_be_met :
    (∃ (s : State) (h : Hdr) (p : DillConfigP), Admitted (cmd 0x1001 .control false 4) h s ∧ 64 ≤ p.quantumKib.toNat ∧ p.quantumKib.toNat ≤ 4096 ∧
      p.rsv = 0) ∧
    (∃ (s : State) (h : Hdr) (p : DillOpenP) (j : Nat) (v : Job), Admitted (cmd 0x1002 .openC false 32) h s ∧ dillOpenOk h p s = true ∧ tfreeFrom
      s.dill.jobs 48 16 = some j ∧ (v = { state := .idle, owner := h.part, decomp := decide (p.dir = 1), zlib := decide (p.fmt = 1), effort :=
                                            p.effort.toNat, level := p.level.toNat, inRing := p.inRing.toNat, outRing := p.outRing.toNat, absLimit :=
                                            decide (p.limMode = 1), ratio := if p.dir = 1 ∧ p.limMode = 0 ∧ p.ratio = 0 then 1024 else p.ratio.toNat,
                                            status := 0, limitBytes := p.limitBytes.toNat, inTotal := p.inTotal.toNat, inBytes := 0, outBytes := 0,
                                            adlerA := 1, adlerB := 0, segments := 0, openTs := taiNs s, notSmaller := false, hist := [], bits := [],
                                            inf := if p.fmt = 1 then .zlibHeader else .header, comp := 0, pendingIn := [], taken := 0, ran := 0, emit
                                            := none, lastRunEl := elNs s, waitEl := none, closing := none, closeReq := false })) ∧
    (∃ (s : State) (h : Hdr) (p : DillCloseP) (v : Job), Admitted (cmdLong 0x1003 .openC false 4) h s ∧ 16 ≤ p.job.toNat ∧ p.job.toNat < 64 ∧ p.rsv =
      0 ∧ getJob s p.job.toNat = some v ∧ mayName s h.part v.owner = true ∧ v.closing = none) ∧
    (∃ (s : State) (job : BitVec 6) (v : Job), getJob s job.toNat = some v ∧ v.closeReq = true) ∧
    (∃ (s : State) (seg : DillSegmentP) (v : Job), getJob s seg.job.toNat = some v ∧ v.closeReq = false ∧ hostReads s v.owner = true ∧
      v.pendingIn.length + (if v.emit.isSome then 1 else 0) < chainsIn s v.owner v.inRing ∧ (v.state = .done ∨ v.state = .failed)) ∧
    (∃ (s : State) (seg : DillSegmentP) (v : Job) (w : State), getJob s seg.job.toNat = some v ∧ v.closeReq = false ∧ hostReads s v.owner = true ∧
      v.pendingIn.length + (if v.emit.isSome then 1 else 0) < chainsIn s v.owner v.inRing ∧ (v.state = .idle ∨ v.state = .running) ∧ w = modJob
      seg.job.toNat (fun x => { x with pendingIn := x.pendingIn ++
                                         [{ flush := seg.flags.getLsbD 0, final := seg.flags.getLsbD 1, tag := seg.tag, poisoned := decide (seg.poison
                                              ≠ 0), data := seg.data }] }) (poisonDma v.owner seg.poison.toNat s) ∧ pipeJob w v.decomp = none) ∧
    (∃ (s : State) (seg : DillSegmentP) (v : Job) (w : State), getJob s seg.job.toNat = some v ∧ v.closeReq = false ∧ hostReads s v.owner = true ∧
      v.pendingIn.length + (if v.emit.isSome then 1 else 0) < chainsIn s v.owner v.inRing ∧ (v.state = .idle ∨ v.state = .running) ∧ w = modJob
      seg.job.toNat (fun x => { x with pendingIn := x.pendingIn ++
                                         [{ flush := seg.flags.getLsbD 0, final := seg.flags.getLsbD 1, tag := seg.tag, poisoned := decide (seg.poison
                                              ≠ 0), data := seg.data }] }) (poisonDma v.owner seg.poison.toNat s) ∧ pipeJob w v.decomp = some
      seg.job.toNat) ∧
    (∃ (s : State) (seg : DillSegmentP) (v : Job) (w : State) (k : Nat), getJob s seg.job.toNat = some v ∧ v.closeReq = false ∧ hostReads s v.owner =
      true ∧ v.pendingIn.length + (if v.emit.isSome then 1 else 0) < chainsIn s v.owner v.inRing ∧ (v.state = .idle ∨ v.state = .running) ∧ w = modJob
      seg.job.toNat (fun x => { x with pendingIn := x.pendingIn ++
                                         [{ flush := seg.flags.getLsbD 0, final := seg.flags.getLsbD 1, tag := seg.tag, poisoned := decide (seg.poison
                                              ≠ 0), data := seg.data }] }) (poisonDma v.owner seg.poison.toNat s) ∧ pipeJob w v.decomp = some k ∧ k ≠
      seg.job.toNat ∧ (getJob w k).elim false Job.ready = true) ∧
    (∃ (s : State) (seg : DillSegmentP) (v : Job) (w : State) (k : Nat), getJob s seg.job.toNat = some v ∧ v.closeReq = false ∧ hostReads s v.owner =
      true ∧ v.pendingIn.length + (if v.emit.isSome then 1 else 0) < chainsIn s v.owner v.inRing ∧ (v.state = .idle ∨ v.state = .running) ∧ w = modJob
      seg.job.toNat (fun x => { x with pendingIn := x.pendingIn ++
                                         [{ flush := seg.flags.getLsbD 0, final := seg.flags.getLsbD 1, tag := seg.tag, poisoned := decide (seg.poison
                                              ≠ 0), data := seg.data }] }) (poisonDma v.owner seg.poison.toNat s) ∧ pipeJob w v.decomp = some k ∧ k ≠
      seg.job.toNat ∧ (getJob w k).elim false Job.ready = false) ∧
    (∃ (s : State) (decomp : Bool) (j : Nat), nextJob s decomp = none ∧ pipeJob s decomp = some j) ∧
    (∃ (s : State) (decomp : Bool) (j : Nat), nextJob s decomp = some j) :=
  ⟨⟨rdy, hdr (cmd 0x1001 .control false 4), ⟨4096, 0⟩, by decide +kernel⟩,
   ⟨ringRdy, hdr (cmd 0x1002 .openC false 32), dilP, 16, dilJob, by decide +kernel⟩,
   ⟨dilRdy, hdr (cmdLong 0x1003 .openC false 4), ⟨16, 0⟩, dilJob, by decide +kernel⟩,
   ⟨dilClose, 16, { dilJob with closeReq := true }, by decide +kernel⟩,
   ⟨dilDone, dilSeg, { dilJob with state := .done }, by decide +kernel⟩,
   ⟨dilRdy, dilSeg, dilJob, dilW, by decide +kernel⟩,
   ⟨dilRun, dilSeg, { dilJob with state := .running }, dilRunW, by decide +kernel⟩,
   ⟨dilTwo, dilSeg, dilJob, dilTwoW, 17, by decide +kernel⟩,
   ⟨dilTri, dilSeg, dilJob, dilTriW, 17, by decide +kernel⟩,
   ⟨dilRunW, true, 16, by decide +kernel⟩,
   ⟨dilTwoW, true, 16, by decide +kernel⟩⟩

/-- The hypotheses of RecorderCommandsComplete can be met, clause by clause. -/
theorem test_RecorderCommandsComplete_can_be_met :
    (∃ (h : Hdr) (s : State) (p : PoppyCursorP), Admitted (cmd 0x1101 .openC true 16) h s ∧ p.rsv = 0 ∧ p.value.toNat < 2 ^ 48) ∧
    (∃ (h : Hdr) (s : State) (p : PoppyCursorP) (n : Nat), Admitted (cmd 0x1101 .openC true 16) h s ∧ p.rsv = 0 ∧ (s.pop.winFirst.get h.part : Int) +
      p.value.toInt = n ∧ n < 2 ^ 48) ∧
    (∃ (h : Hdr) (s : State) (p : PoppyCursorP), Admitted (cmd 0x1101 .openC true 16) h s ∧ p.rsv = 0 ∧ p.value = 0) ∧
    (∃ (h : Hdr) (s : State) (p : PoppyCursorP), Admitted (cmd 0x1101 .openC true 16) h s ∧ p.rsv = 0 ∧ p.value = 0) ∧
    (∃ (h : Hdr) (s : State) (p : PoppyCursorP), Admitted (cmd 0x1101 .openC true 16) h s ∧ p.rsv = 0 ∧ p.value = 0 ∧ 64 ≤ s.pop.nextRec) ∧
    (∃ (h : Hdr) (s : State) (p : PoppyCursorP), Admitted (cmd 0x1101 .openC true 16) h s ∧ p.rsv = 0 ∧ p.value = 0 ∧ s.pop.nextRec < 64) ∧
    (∃ (h : Hdr) (s : State) (p : PoppyRateP), Admitted (cmd 0x1102 .control false 8) h s ∧ p.rsv = 0 ∧ 1 ≤ p.rate.toNat ∧ p.rate.toNat ≤ 1000 ∧ 1 ≤
      p.burst.toNat ∧ p.burst.toNat ≤ 1000 ∧ p.code = 0) ∧
    (∃ (h : Hdr) (s : State) (p : PoppyRateP) (k : Nat), Admitted (cmd 0x1102 .control false 8) h s ∧ p.rsv = 0 ∧ 1 ≤ p.rate.toNat ∧ p.rate.toNat ≤
      1000 ∧ 1 ≤ p.burst.toNat ∧ p.burst.toNat ≤ 1000 ∧ eventCode p.code = true ∧ tfind (fun _ o => decide (o.code = p.code)) s.pop.overrides = none ∧
      tfreeFrom s.pop.overrides 64 0 = some k) ∧
    (∃ (h : Hdr) (s : State) (p : PoppyRateP) (k : Nat) (o : RateOvr), Admitted (cmd 0x1102 .control false 8) h s ∧ p.rsv = 0 ∧ 1 ≤ p.rate.toNat ∧
      p.rate.toNat ≤ 1000 ∧ 1 ≤ p.burst.toNat ∧ p.burst.toNat ≤ 1000 ∧ eventCode p.code = true ∧ tfind (fun _ o => decide (o.code = p.code))
      s.pop.overrides = some (k, o)) ∧
    (∃ (h : Hdr) (s : State) (p : PoppyRateP), Admitted (cmd 0x1102 .control false 8) h s ∧ p.rsv = 0 ∧ p.rate = 0 ∧ p.burst = 0 ∧ p.code = 0) ∧
    (∃ (h : Hdr) (s : State) (p : PoppyRateP), Admitted (cmd 0x1102 .control false 8) h s ∧ p.rsv = 0 ∧ p.rate = 0 ∧ p.burst = 0 ∧ p.code ≠ 0 ∧ tany
      (fun _ o => decide (o.code = p.code)) s.pop.overrides = true) ∧
    (∃ (h : Hdr) (s : State) (p : OtpWriteP), Admitted (cmdLong 0x1103 .control false (if p.group = 2 then 128 else 192)) h s ∧ p.rsv = 0 ∧ ((p.group
      = 0 ∧ bootContentOk p.content = true) ∨ (p.group = 2 ∧ defContentOk p.content = true)) ∧ (otpGroup s p.group.toNat).length < 4 ∧
      s.pop.otpPending = none) ∧
    (∃ (h : Hdr) (s : State) (p : FlashImageWriteP), Admitted ⟨0x1104, .control, false, true, 8, decide (p.target.toNat < 2)⟩ h s ∧ p.rsv = 0 ∧
      p.target.toNat < 3 ∧ if p.target = 2 then p.slot.toNat < 32 else p.slot = 0 ∧ p.ring.toNat < 64 ∧ (if p.target = 2 then 256 ≤ p.bytes.toNat ∧
      p.bytes.toNat ≤ 164096 else 1 ≤ p.bytes.toNat ∧ p.bytes.toNat ≤ 8388608) ∧ ringFree s h.part p.ring.toNat true = true ∧ writesRunning s
      p.target.toNat = false) ∧
    (∃ (h : Hdr) (s : State) (p : FlashConfigP), Admitted (cmd 0x1105 .control false 8) h s ∧ p.rsv = 0 ∧ 1000 ≤ p.endurance.toNat ∧ p.endurance.toNat
      ≤ 10000000 ∧ 50 ≤ p.wearPct.toNat ∧ p.wearPct.toNat ≤ 99) :=
  ⟨⟨hdr (cmd 0x1101 .openC true 16), rdy, ⟨0, 0xFFFFFFFFFFFF⟩, by decide +kernel⟩,
   ⟨hdr (cmd 0x1101 .openC true 16), { rdy with pop := { rdy.pop with winFirst := .all 9 } }, ⟨0, 0xFFFFFFFFFFFFFFF8⟩, 1, by decide +kernel⟩,
   ⟨hdr (cmd 0x1101 .openC true 16), rdy, ⟨0, 0⟩, by decide +kernel⟩,
   ⟨hdr (cmd 0x1101 .openC true 16), rdy, ⟨0, 0⟩, by decide +kernel⟩,
   ⟨hdr (cmd 0x1101 .openC true 16), { rdy with pop := { rdy.pop with nextRec := 64 } }, ⟨0, 0⟩, by decide +kernel⟩,
   ⟨hdr (cmd 0x1101 .openC true 16), rdy, ⟨0, 0⟩, by decide +kernel⟩,
   ⟨hdr (cmd 0x1102 .control false 8), rdy, ⟨0, 0, 1000, 1⟩, by decide +kernel⟩,
   ⟨hdr (cmd 0x1102 .control false 8), rdy, ⟨0, 0x0111, 1, 1000⟩, 0, by decide +kernel⟩,
   ⟨hdr (cmd 0x1102 .control false 8), { rdy with pop := { rdy.pop with overrides := [(63, ⟨0x0111, 9, 9⟩)] } }, ⟨0, 0x0111, 1, 1000⟩, 63, ⟨0x0111, 9,
      9⟩, by decide +kernel⟩,
   ⟨hdr (cmd 0x1102 .control false 8), rdy, ⟨0, 0, 0, 0⟩, by decide +kernel⟩,
   ⟨hdr (cmd 0x1102 .control false 8), { rdy with pop := { rdy.pop with overrides := [(63, ⟨0x0111, 9, 9⟩)] } }, ⟨0, 0x0111, 0, 0⟩, by decide +kernel⟩,
   ⟨hdr (cmdLong 0x1103 .control false 192), rdy, ⟨0, 0, bootC⟩, by decide +kernel⟩,
   ⟨hdr ⟨0x1104, .control, false, true, 8, false⟩, ringRdy, ⟨2, 31, 1, 0, 256⟩, by decide +kernel⟩,
   ⟨hdr (cmd 0x1105 .control false 8), rdy, ⟨10000000, 50, 0⟩, by decide +kernel⟩⟩

/-- The hypotheses of RecorderEventsComplete can be met, clause by clause. -/
theorem test_RecorderEventsComplete_can_be_met :
    (∃ (s : State) (code : U16) (k : Bucket), k = bucketNow s code.toNat ∧ k.limited = true ∧ (rateOf s code.toNat).2 ≤ k.tokens) ∧
    (∃ (s : State), s.pop.periodicEl + 10000000000 ≤ elNs s ∧ s.pop.buffer ≠ []) ∧
    (∃ (s : State), s.pop.periodicEl + 10000000000 ≤ elNs s ∧ s.pop.buffer = []) ∧
    (∃ (s : State), (512 ≤ s.pop.buffer.length ∨ s.pop.buffer.any (fun r => decide (r.severity = 3)) = true ∨ s.dev.resetReq ≠ none)) ∧
    (∃ (s : State), s.pop.flushing = true) ∧
    (∃ (s : State) (n : Nat), s.pop.flushing = true ∧ n = (s.pop.buffer.head?.map (·.num)).getD s.pop.nextRec) ∧
    (∃ (s : State) (v : State), s.pop.opLogEl + 10000000000 ≤ elNs s ∧ (v =
      { s with pop := { s.pop with opLogEl := s.pop.opLogEl + 10000000000, opLogged := opSeconds s, opCells := s.pop.opCells + 1, satsum := if 2 ^ 32
                                     - 1 ≤ opSeconds s / 3600 then s.pop.satsum ||| 2 else s.pop.satsum } })) ∧
    (∃ (s : State) (g : U8) (c : Bytes) (id : Nat) (p : HP) (l : Tbl OtpGen) (v : State), s.pop.otpPending = some (g, c, id, p) ∧ l = writeGen
      (otpGroup s g.toNat) c ∧ v = refreshOtp (setOtpGroup g.toNat l { s with pop := { s.pop with otpPending := none } })) ∧
    (∃ (s : State) (i : ImageIn) (w : ImageWrite) (rest : List ImageWrite) (v : State) (x : State), s.pop.imgPending = w :: rest ∧ recovering s =
      false ∧ hostReads s w.part = true ∧ w.bytes ≤ i.img.bytes.length ∧ v = unbindRing w.part w.ring .image
      { s with pop := { s.pop with imgPending := rest } } ∧ x = eraseSectors (imageSectors w.target.toNat w.slot).1 (imageSectors w.target.toNat
      w.slot).2 { v with pop := { v.pop with images := tset v.pop.images (imgKey w.target.toNat w.slot) (i.img.bytes.take w.bytes) } } ∧ w.target ≠ 2
      ∧ i.ok = true) ∧
    (∃ (s : State) (i : ImageIn) (w : ImageWrite) (rest : List ImageWrite) (v : State) (x : State) (b : Beleth), s.pop.imgPending = w :: rest ∧
      recovering s = false ∧ hostReads s w.part = true ∧ w.bytes ≤ i.img.bytes.length ∧ v = unbindRing w.part w.ring .image
      { s with pop := { s.pop with imgPending := rest } } ∧ x = eraseSectors (imageSectors w.target.toNat w.slot).1 (imageSectors w.target.toNat
      w.slot).2 { v with pop := { v.pop with images := tset v.pop.images (imgKey w.target.toNat w.slot) (i.img.bytes.take w.bytes) } } ∧ w.target = 2
      ∧ b = readBeleth { i.img with bytes := i.img.bytes.take w.bytes } ∧ belethCheck v (i.img.bytes.take w.bytes).length b = none) ∧
    (∃ (s : State) (i : ImageIn) (w : ImageWrite) (rest : List ImageWrite) (v : State), s.pop.imgPending = w :: rest ∧ (recovering s = true ∨
      hostReads s w.part = true) ∧ w.bytes ≤ i.img.bytes.length ∧ v = unbindRing w.part w.ring .image
      { s with pop := { s.pop with imgPending := rest } } ∧ w.target ≠ 2 ∧ i.ok = false) ∧
    (∃ (s : State) (i : ImageIn) (w : ImageWrite) (rest : List ImageWrite) (v : State), s.pop.imgPending = w :: rest ∧ (recovering s = true ∨
      hostReads s w.part = true) ∧ w.bytes ≤ i.img.bytes.length ∧ v = unbindRing w.part w.ring .image
      { s with pop := { s.pop with imgPending := rest } } ∧ w.target = 2 ∧ (belethCheck v (i.img.bytes.take w.bytes).length (readBeleth
      { i.img with bytes := i.img.bytes.take w.bytes })).isNone = false) :=
  ⟨⟨limRdy, 5, bucketNow limRdy 5, by decide +kernel⟩,
   ⟨bufRdy, by decide +kernel⟩,
   ⟨rdy, by decide +kernel⟩,
   ⟨bufRdy, by decide +kernel⟩,
   ⟨flRdy, by decide +kernel⟩,
   ⟨flRdy, 5, by decide +kernel⟩,
   ⟨rdy, { rdy with pop := { rdy.pop with opLogEl := rdy.pop.opLogEl + 10000000000, opLogged := opSeconds rdy, opCells := rdy.pop.opCells + 1 } },
      by decide +kernel⟩,
   ⟨otpRdy, 0, bootC, 4, 0, writeGen [] bootC, refreshOtp (setOtpGroup 0 (writeGen [] bootC)
      { otpRdy with pop := { otpRdy.pop with otpPending := none } }), by decide +kernel⟩,
   ⟨imgRdyF, ⟨imgIn, true, 7, 9⟩, imgWF, [], unbindRing 0 1 .image { imgRdyF with pop := { imgRdyF.pop with imgPending := [] } }, eraseSectors
      (imageSectors imgWF.target.toNat imgWF.slot).1 (imageSectors imgWF.target.toNat imgWF.slot).2
      { (unbindRing 0 1 .image { imgRdyF with pop := { imgRdyF.pop with imgPending := [] } }) with pop :=
                                                                                                     { (unbindRing 0 1 .image
                                                                                                         { imgRdyF with pop :=
                                                                                                                          { imgRdyF.pop with
                                                                                                                                               imgPending
                                                                                                                                               := [] }
                                                                                                                          }).pop with images := tset
                                                                                                                                        (unbindRing 0
                                                                                                                                        1 .image
                                                                                                                                        { imgRdyF with
                                                                                                                                                         pop
                                                                                                                                                         :=
                                                                                                                                                         {
                                                                                                                                                             imgRdyF.pop
                                                                                                                                                             with
                                                                                                                                                                    imgPending
                                                                                                                                                                    :=
                                                                                                                                                                    []
                                                                                                                                                                    }
                                                                                                                                                         }).pop.images
                                                                                                                                        (imgKey
                                                                                                                                        imgWF.target.toNat
                                                                                                                                        imgWF.slot)
                                                                                                                                        (imgBytes.take
                                                                                                                                        imgWF.bytes) }
                                                                                                     }, by decide +kernel⟩,
   ⟨imgRdy, ⟨imgIn, true, 7, 9⟩, imgW, [], unbindRing 0 1 .image { imgRdy with pop := { imgRdy.pop with imgPending := [] } }, eraseSectors (imageSectors
      imgW.target.toNat imgW.slot).1 (imageSectors imgW.target.toNat imgW.slot).2
      { (unbindRing 0 1 .image { imgRdy with pop := { imgRdy.pop with imgPending := [] } }) with pop :=
                                                                                                   { (unbindRing 0 1 .image
                                                                                                       { imgRdy with pop :=
                                                                                                                       { imgRdy.pop with imgPending :=
                                                                                                                                           [] } }).pop
                                                                                                       with images := tset (unbindRing 0 1 .image
                                                                                                              { imgRdy with pop :=
                                                                                                                              { imgRdy.pop with
                                                                                                                                                  imgPending
                                                                                                                                                  :=
                                                                                                                                                  [] }
                                                                                                                              }).pop.images (imgKey
                                                                                                              imgW.target.toNat imgW.slot)
                                                                                                              (imgBytes.take imgW.bytes) } },
      readBeleth imgIn, by decide +kernel⟩,
   ⟨imgRdyF, ⟨imgIn, false, 7, 9⟩, imgWF, [], unbindRing 0 1 .image { imgRdyF with pop := { imgRdyF.pop with imgPending := [] } }, by decide +kernel⟩,
   ⟨imgRdy, ⟨{ imgIn with signatureOk := false }, true, 7, 9⟩, imgW, [], unbindRing 0 1 .image
      { imgRdy with pop := { imgRdy.pop with imgPending := [] } }, by decide +kernel⟩⟩

/-- The hypotheses of ResetsAndBootComplete can be met, clause by clause. -/
theorem test_ResetsAndBootComplete_can_be_met :
    (∃ (s : State) (v : State) (r : Option Nat), s.dev.porn = true ∧ v = clearAll s ∧ (r = if s.dev.boot = .ready ∧ ¬ (s.eq.flushHdr.isSome = true ∧
      s.eq.flushing = false ∧ s.eq.flushImg.elim false (fun g => g.crcOk) = true) then some (recEnd v - 1) else s.dev.uncleanRec)) ∧
    (∃ (s : State) (v : State), (s.dev.porn = false ∨ s.dev.boot = .reset) ∧ v = { s with dev := { s.dev with porn := true } }) ∧
    (∃ (s : State) (stage : BitVec 3), s.dev.boot = .booting ∧ s.dev.pfailWait = false ∧ 1 ≤ stage.toNat ∧ stage.toNat ≤ 6) ∧
    (∃ (s : State) (stageMs : List U16), s.dev.boot = .booting ∧ s.dev.pfailWait = false ∧ stageOver stageMs = none) ∧
    (∃ (s : State) (stageMs : List U16) (k : Nat), s.dev.boot = .booting ∧ s.dev.pfailWait = false ∧ stageOver stageMs = some k) ∧
    (∃ (s : State) (u : Option Nat) (v : State), s.dev.porn = true ∧ s.eq.flushing = false ∧ (u = if s.dev.boot = .ready then some (recEnd s - 1) else
      s.dev.uncleanRec) ∧ v = { s with dev := { s.dev with uncleanRec := u, bootIn := none } }) ∧
    (∃ (s : State), s.dev.porn = true ∧ s.eq.flushing = true) ∧
    (∃ (s : State), s.dev.porn = true ∧ s.eq.flushing = false ∧ s.dev.boot = .ready) ∧
    (∃ (s : State), s.dev.porn = true ∧ s.eq.flushing = false ∧ s.dev.boot = .ready) ∧
    (∃ (s : State) (h : Hdr) (p : DeviceResetP), Admitted ⟨0x0106, .control, true, false, 8, true⟩ h s ∧ p.confirm = 0x6250 ∧ p.image.toNat < 3 ∧
      p.rsv = 0 ∧ s.dev.pfailN = true) ∧
    (∃ (s : State) (img : U8), s.dev.resetReq = some img ∧ s.dev.porn = true ∧ s.eq.flushing = false) ∧
    (∃ (s : State) (cause : Cause) (ovr : U8) (u : State) (v : State), s.dev.pfailN = true ∧ u = clearAll s ∧ v =
      { u with dev := { u.dev with cause, ovr, boot := .booting } }) ∧
    (∃ (s : State) (u : State), s.dev.pfailN = false ∧ u = clearAll s) :=
  ⟨⟨rdy, clearAll rdy, some (recEnd (clearAll rdy) - 1), by decide +kernel⟩,
   ⟨State.reset, State.reset, by decide +kernel⟩,
   ⟨bootRdy, 6, by decide +kernel⟩,
   ⟨bootRdy, [1, 2], by decide +kernel⟩,
   ⟨bootRdy, [65535], 1, by decide +kernel⟩,
   ⟨rdy, some (recEnd rdy - 1), { rdy with dev := { rdy.dev with uncleanRec := some (recEnd rdy - 1), bootIn := none } }, by decide +kernel⟩,
   ⟨flushRdy, by decide +kernel⟩,
   ⟨rdy, by decide +kernel⟩,
   ⟨rdy, by decide +kernel⟩,
   ⟨rdy, hdr ⟨0x0106, .control, true, false, 8, true⟩, ⟨0x6250, 2, 0⟩, by decide +kernel⟩,
   ⟨reqRdy, 2, by decide +kernel⟩,
   ⟨rdy, .powerOn, 0, clearAll rdy, { clearAll rdy with dev := { (clearAll rdy).dev with cause := .powerOn, ovr := 0, boot := .booting } },
      by decide +kernel⟩,
   ⟨waitBoot, clearAll waitBoot, by decide +kernel⟩⟩

/-- The hypotheses of PowerFailureCompletes can be met, clause by clause. -/
theorem test_PowerFailureCompletes_can_be_met :
    (∃ (s : State) (tf : Nat) (v : State), s.dev.pfailN = true ∧ s.dev.boot = .ready ∧ ((s.eq.tf = some tf ∧ s.eq.resume = none) ∨ ((s.eq.tf = none ∨
      s.eq.resume.isSome = true) ∧ tf = failInstant s)) ∧ v = { s with dev := { s.dev with pfailN := false, c0Off := true } }) ∧
    (∃ (s : State), s.dev.pfailN = true ∧ s.dev.boot = .booting) ∧
    (∃ (s : State) (v : State), s.dev.pfailN = false ∧ s.dev.pfailWait = false ∧ s.eq.tf.isSome = true ∧ v =
      { s with dev := { s.dev with pfailN := true }, eq := { s.eq with riseEl := some (elNs s) } }) ∧
    (∃ (s : State) (v : State), s.dev.pfailN = false ∧ s.dev.pfailWait = true ∧ v = { s with dev := { s.dev with pfailN := true } }) ∧
    (∃ (s : State) (complete : Bool) (tf : Nat) (seq : U32) (v : State), s.eq.flushing = true ∧ s.eq.flushHdr = some (tf, seq) ∧ s.dev.srstPending =
      false ∧ (v = { s with eq := { s.eq with flushing := false, flushImg := some (failImage tf seq complete s) }, pop :=
                              { s.pop with flushSlot := if complete then s.pop.buffer else [] } })) ∧
    (∃ (s : State) (complete : Bool) (tf : Nat) (seq : U32) (v : State) (b : BootIn), s.eq.flushing = true ∧ s.eq.flushHdr = some (tf, seq) ∧
      s.dev.srstPending = true ∧ s.dev.bootIn = some b ∧ (v =
      { s with eq := { s.eq with flushing := false, flushImg := some (failImage tf seq complete s) }, pop :=
                 { s.pop with flushSlot := if complete then s.pop.buffer else [] } })) ∧
    (∃ (s : State), s.dev.boot = .ready ∧ s.clk.timeValid = false ∧ s.eq.readyEl + 60000000000 ≤ elNs s) :=
  ⟨⟨rdy, failInstant rdy, { rdy with dev := { rdy.dev with pfailN := false, c0Off := true } }, by decide +kernel⟩,
   ⟨bootRdy, by decide +kernel⟩,
   ⟨failRdy, { failRdy with dev := { failRdy.dev with pfailN := true }, eq := { failRdy.eq with riseEl := some (elNs failRdy) } }, by decide +kernel⟩,
   ⟨waitBoot, { waitBoot with dev := { waitBoot.dev with pfailN := true } }, by decide +kernel⟩,
   ⟨flushRdy, true, 5, 1, { flushRdy with eq := { flushRdy.eq with flushing := false, flushImg := some (failImage 5 1 true flushRdy) }, pop :=
                                         { flushRdy.pop with flushSlot := flushRdy.pop.buffer } }, by decide +kernel⟩,
   ⟨srstRdy, false, 5, 1, { srstRdy with eq := { srstRdy.eq with flushing := false, flushImg := some (failImage 5 1 false srstRdy) }, pop :=
                                        { srstRdy.pop with flushSlot := [] } }, bootI, by decide +kernel⟩,
   ⟨rdy, by decide +kernel⟩⟩

/-- The hypotheses of UndefinedOpcodesAndTapComplete can be met, clause by clause. -/
theorem test_UndefinedOpcodesAndTapComplete_can_be_met :
    (∃ (s : State) (h : Hdr) (opcode : U16), opcodeDefined opcode.toNat = false ∧ (getPart s h.part).present = true ∧ s.dev.boot = .ready ∧ cached s h
      = none) ∧
    (∃ (s : State) (h : Hdr) (opcode : U16), opcodeDefined opcode.toNat = false ∧ (getPart s h.part).present = true ∧ recovering s = true ∧ h.part = 0
      ∧ h.urg = false) ∧
    (∃ (e : TckEdge), e.trstN = false) ∧
    (∃ (e : TckEdge), e.trstN = true ∧ e.rising = true) ∧
    (∃ (s : State) (e : TckEdge), e.trstN = true ∧ e.rising = false ∧ s.jtag.tap = .updIr) ∧
    (∃ (e : TckEdge), e.trstN = true ∧ e.rising = false) :=
  ⟨⟨rdy, { hdr (cmd 0 .openC false 0) with length := 4081 }, 0x0107, by decide +kernel⟩,
   ⟨recRdyB, hdr (cmd 0 .openC false 0), 0x1106, by decide +kernel⟩,
   ⟨⟨true, true, true, false⟩, by decide +kernel⟩,
   ⟨⟨true, true, true, true⟩, by decide +kernel⟩,
   ⟨tapRdy, ⟨false, true, true, true⟩, by decide +kernel⟩,
   ⟨⟨false, true, true, true⟩, by decide +kernel⟩⟩

end Sys2Proof.Tests
end

/-!
The statements of 00_scope.md: the state after reset is sound, and every step keeps a sound state sound. The invariant that the operations
carry (`Kept`, Laws/KeptOps.lean) is tied to `Sound`, lifted to `exec` command by command, and from `exec` to `step`.
-/

namespace Sys2Proof.Machine

variable {q : List Instr} {s t : State}

/-! ### The invariant of the operations and the soundness of the state -/

theorem kept_iff : Kept q s ↔ Sound s ∧ s.pending = q := by
  constructor
  · rintro ⟨hns, hbuf, hcnt, hq⟩
    exact ⟨⟨hcnt, hbuf, hns⟩, hq⟩
  · rintro ⟨⟨hcnt, hbuf, hns⟩, hq⟩
    exact ⟨hns, hbuf, hcnt, hq⟩

theorem Sound.kept (h : Sound s) : Kept s.pending s := kept_iff.2 ⟨h, rfl⟩

theorem Kept.sound (h : Kept q s) : Sound s := (kept_iff.1 h).1

/-- Soundness does not look at the commands that wait. -/
theorem Sound.setPending (h : Sound s) (l : List Instr) : Sound { s with pending := l } := h

/-! ### Commands and steps -/

/-- Whatever the command, a next state it answers is sound and holds the same waiting commands. -/
theorem exec_kept (c : Instr) (s : State) (hs : Kept q s) : KeptOut q (exec c s) := by
  cases c with
  | identify h => exact execIdentify_kept h s hs
  | counterClear h p => exact execCounterClear_kept h p s hs
  | snapshot h p => exact execSnapshot_kept h p s hs
  | snapshotRelease h => exact execSnapshotRelease_kept h s hs
  | apertureWindow h p => exact execApertureWindow_kept h p s hs
  | deviceReset h p => exact execDeviceReset_kept h p s hs
  | heartbeat h p => exact execHeartbeat_kept h p s hs
  | claimSet h p => exact execClaimSet_kept h p s hs
  | claimYield h p => exact execClaimYield_kept h p s hs
  | apportion h p => exact execApportion_kept h p s hs
  | partitionTimers h p => exact execPartitionTimers_kept h p s hs
  | dmaRingSetup h p => exact execDmaRingSetup_kept h p s hs
  | dmaRingRetire h p => exact execDmaRingRetire_kept h p s hs
  | dmaRingRetireDone part ring => exact execDmaRingRetireDone_kept part ring s hs
  | longCommandTimeout cmd => exact execLongCommandTimeout_kept cmd s hs
  | earlyDoorbell part urg => exact execEarlyDoorbell_kept part urg s hs
  | discardedWrite part bar => exact execDiscardedWrite_kept part bar s hs
  | evtConsWrite part value => exact execEvtConsWrite_kept part value s hs
  | hostIdxWrite part ring value descs => exact execHostIdxWrite_kept part ring value descs s hs
  | dmaDescriptorDone part ring poison => exact execDmaDescriptorDone_kept part ring poison s hs
  | hbInChange part level => exact execHbInChange_kept part level s hs
  | pathVTimeout part => exact execPathVTimeout_kept part s hs
  | pathPTimeout part => exact execPathPTimeout_kept part s hs
  | failureTimerExpiry part => exact execFailureTimerExpiry_kept part s hs
  | holdoffTimerExpiry part => exact execHoldoffTimerExpiry_kept part s hs
  | takeoverDeadline part => exact execTakeoverDeadline_kept part s hs
  | snapshotExpiry part => exact execSnapshotExpiry_kept part s hs
  | shadowFull part => exact execShadowFull_kept part s hs
  | pcieLinkDown part => exact execPcieLinkDown_kept part s hs
  | pcieLinkUp part => exact execPcieLinkUp_kept part s hs
  | partitionReset part => exact execPartitionReset_kept part s hs
  | pornAssert => exact execPornAssert_kept s hs
  | powerOnReset b => exact execPowerOnReset_kept b s hs
  | bootStageTimeout stage => exact execBootStageTimeout_kept stage s hs
  | bootReady stageMs => exact execBootReady_kept stageMs s hs
  | systemReset b => exact execSystemReset_kept b s hs
  | watchdogExpiry b => exact execWatchdogExpiry_kept b s hs
  | firmwareHalt b => exact execFirmwareHalt_kept b s hs
  | deviceResetExecute b => exact execDeviceResetExecute_kept b s hs
  | pfailAssert => exact execPfailAssert_kept s hs
  | pfailRise b => exact execPfailRise_kept b s hs
  | powerFailFlushEnd complete => exact execPowerFailFlushEnd_kept complete s hs
  | startupGapTimeout => exact execStartupGapTimeout_kept s hs
  | timeSourceConfig h p => exact execTimeSourceConfig_kept h p s hs
  | timeSlewConfig h p => exact execTimeSlewConfig_kept h p s hs
  | timeHoldoverConfig h p => exact execTimeHoldoverConfig_kept h p s hs
  | timeUtcOffset h p => exact execTimeUtcOffset_kept h p s hs
  | timeStep h p => exact execTimeStep_kept h p s hs
  | timeStepApply => exact execTimeStepApply_kept s hs
  | gaConfig h p => exact execGaConfig_kept h p s hs
  | ppsOutConfig h p => exact execPpsOutConfig_kept h p s hs
  | timeRead h => exact execTimeRead_kept h s hs
  | ptpAnnounceRx port m => exact execPtpAnnounceRx_kept port m s hs
  | ptpSyncRx port m => exact execPtpSyncRx_kept port m s hs
  | pdelayReqRx m => exact execPdelayReqRx_kept m s hs
  | pdelayRespRx m => exact execPdelayRespRx_kept m s hs
  | pdelayReqTx port => exact execPdelayReqTx_kept port s hs
  | ptpMasterTx port => exact execPtpMasterTx_kept port s hs
  | announceReceiptTimeout port => exact execAnnounceReceiptTimeout_kept port s hs
  | ppsInEdge => exact execPpsInEdge_kept s hs
  | ppsInLoss => exact execPpsInLoss_kept s hs
  | irigFrame f => exact execIrigFrame_kept f s hs
  | irigLoss => exact execIrigLoss_kept s hs
  | srcHoldoffExpiry => exact execSrcHoldoffExpiry_kept s hs
  | tqBandElapsed => exact execTqBandElapsed_kept s hs
  | leapPendingStart => exact execLeapPendingStart_kept s hs
  | leapApplied => exact execLeapApplied_kept s hs
  | leapOccurredEnd => exact execLeapOccurredEnd_kept s hs
  | ppsOutRise => exact execPpsOutRise_kept s hs
  | ppsOutFall => exact execPpsOutFall_kept s hs
  | gaTick ts => exact execGaTick_kept ts s hs
  | timedActionFire => exact execTimedActionFire_kept s hs
  | portConfig h p => exact execPortConfig_kept h p s hs
  | prpConfig h p => exact execPrpConfig_kept h p s hs
  | portTxBind h p => exact execPortTxBind_kept h p s hs
  | frameRx f => exact execFrameRx_kept f s hs
  | portLinkUp port speed halfDuplex => exact execPortLinkUp_kept port speed halfDuplex s hs
  | portLinkDown port => exact execPortLinkDown_kept port s hs
  | lanSilence port => exact execLanSilence_kept port s hs
  | prpSupervisionTx pair => exact execPrpSupervisionTx_kept pair s hs
  | prpSupervisionRx port => exact execPrpSupervisionRx_kept port s hs
  | hostFrameTx part ring f => exact execHostFrameTx_kept part ring f s hs
  | txComplete port lateColl => exact execTxComplete_kept port lateColl s hs
  | fieldCollision port => exact execFieldCollision_kept port s hs
  | backoffExpiry port => exact execBackoffExpiry_kept port s hs
  | pressureWindowEnd => exact execPressureWindowEnd_kept s hs
  | streamAdd h p => exact execStreamAdd_kept h p s hs
  | streamChange h p => exact execStreamChange_kept h p s hs
  | streamRetire h p => exact execStreamRetire_kept h p s hs
  | streamRetired handle => exact execStreamRetired_kept handle s hs
  | streamCfgAccept h p => exact execStreamCfgAccept_kept h p s hs
  | streamRequest h p => exact execStreamRequest_kept h p s hs
  | ingestConfig h p => exact execIngestConfig_kept h p s hs
  | c37DataFrame f => exact execC37DataFrame_kept f s hs
  | c37CfgFrame f => exact execC37CfgFrame_kept f s hs
  | c37HeaderFrame f => exact execC37HeaderFrame_kept f s hs
  | c37CommandFrame f => exact execC37CommandFrame_kept f s hs
  | svFrame f => exact execSvFrame_kept f s hs
  | tcpLinkDown handle => exact execTcpLinkDown_kept handle s hs
  | tcpReconnect handle => exact execTcpReconnect_kept handle s hs
  | tcpConnected handle => exact execTcpConnected_kept handle s hs
  | streamSilent handle => exact execStreamSilent_kept handle s hs
  | directoryRebuilt => exact execDirectoryRebuilt_kept s hs
  | directoryEntryRewrite handle => exact execDirectoryEntryRewrite_kept handle s hs
  | tdmFrame f => exact execTdmFrame_kept f s hs
  | gridConfig h p => exact execGridConfig_kept h p s hs
  | pubAdd h p => exact execPubAdd_kept h p s hs
  | pubChange h p => exact execPubChange_kept h p s hs
  | pubRetire h p => exact execPubRetire_kept h p s hs
  | slabOpen grid => exact execSlabOpen_kept grid s hs
  | speculativeRelease grid tag => exact execSpeculativeRelease_kept grid tag s hs
  | deadlineRelease grid tag => exact execDeadlineRelease_kept grid tag s hs
  | patchRelease grid tag => exact execPatchRelease_kept grid tag s hs
  | slabHistory grid tag => exact execSlabHistory_kept grid tag s hs
  | pubFrameBuild pub tag => exact execPubFrameBuild_kept pub tag s hs
  | oscScreenConfig h p => exact execOscScreenConfig_kept h p s hs
  | oscEstConfig h p => exact execOscEstConfig_kept h p s hs
  | oscAlarmConfig h p => exact execOscAlarmConfig_kept h p s hs
  | oscWatchAdd h p => exact execOscWatchAdd_kept h p s hs
  | oscWatchRemove h p => exact execOscWatchRemove_kept h p s hs
  | oscBranchAdd h p => exact execOscBranchAdd_kept h p s hs
  | oscBranchRemove h p => exact execOscBranchRemove_kept h p s hs
  | oscRelearn h p => exact execOscRelearn_kept h p s hs
  | oscOutputBind h p => exact execOscOutputBind_kept h p s hs
  | screenStep grid tag => exact execScreenStep_kept grid tag s hs
  | screenPatchFix grid tag => exact execScreenPatchFix_kept grid tag s hs
  | estimatorStep slot tag => exact execEstimatorStep_kept slot tag s hs
  | estimatorHoldExpiry slot => exact execEstimatorHoldExpiry_kept slot s hs
  | clusterConfig h p => exact execClusterConfig_kept h p s hs
  | busSignalAdd h p => exact execBusSignalAdd_kept h p s hs
  | busSignalRemove h p => exact execBusSignalRemove_kept h p s hs
  | clusterRef h p => exact execClusterRef_kept h p s hs
  | breakerMapAdd h p => exact execBreakerMapAdd_kept h p s hs
  | breakerMapRemove h p => exact execBreakerMapRemove_kept h p s hs
  | detectorConfig h p => exact execDetectorConfig_kept h p s hs
  | alarmMapSet h p => exact execAlarmMapSet_kept h p s hs
  | alarmMapRemove h p => exact execAlarmMapRemove_kept h p s hs
  | alarmStage h p => exact execAlarmStage_kept h p s hs
  | alarmAck h p => exact execAlarmAck_kept h p s hs
  | alarmTestForce h p => exact execAlarmTestForce_kept h p s hs
  | alarmTestRelease h p => exact execAlarmTestRelease_kept h p s hs
  | alarmFrameConfig h p => exact execAlarmFrameConfig_kept h p s hs
  | alarmGooseConfig h p => exact execAlarmGooseConfig_kept h p s hs
  | clusterEvaluation tag => exact execClusterEvaluation_kept tag s hs
  | pinMinOnExpiry stage => exact execPinMinOnExpiry_kept stage s hs
  | alarmTestExpiry stage => exact execAlarmTestExpiry_kept stage s hs
  | alarmFrameRepeat stage => exact execAlarmFrameRepeat_kept stage s hs
  | alarmStateRefresh stage => exact execAlarmStateRefresh_kept stage s hs
  | gooseRetransmit stage => exact execGooseRetransmit_kept stage s hs
  | alarmFrameRx f => exact execAlarmFrameRx_kept f s hs
  | captureAdd h p => exact execCaptureAdd_kept h p s hs
  | captureSources h p => exact execCaptureSources_kept h p s hs
  | captureTriggerSet h p => exact execCaptureTriggerSet_kept h p s hs
  | captureArm h p => exact execCaptureArm_kept h p s hs
  | captureDisarm h p => exact execCaptureDisarm_kept h p s hs
  | captureTrigger h p => exact execCaptureTrigger_kept h p s hs
  | captureRecordFree h p => exact execCaptureRecordFree_kept h p s hs
  | captureExport h p => exact execCaptureExport_kept h p s hs
  | captureExportDone cmd => exact execCaptureExportDone_kept cmd s hs
  | captureRetire h p => exact execCaptureRetire_kept h p s hs
  | captureRetireDone capture => exact execCaptureRetireDone_kept capture s hs
  | halgaImport h p => exact execHalgaImport_kept h p s hs
  | halgaImportDone cmd r => exact execHalgaImportDone_kept cmd r s hs
  | halgaMerge h p => exact execHalgaMerge_kept h p s hs
  | halgaMergeDone cmd => exact execHalgaMergeDone_kept cmd s hs
  | captureRemoteConfig h p => exact execCaptureRemoteConfig_kept h p s hs
  | captureRows capture lane rows => exact execCaptureRows_kept capture lane rows s hs
  | captureFilled capture => exact execCaptureFilled_kept capture s hs
  | triggerHoldoffEnd capture entry => exact execTriggerHoldoffEnd_kept capture entry s hs
  | remoteTriggerRx f => exact execRemoteTriggerRx_kept f s hs
  | recordAssembled capture slot => exact execRecordAssembled_kept capture slot s hs
  | sageClockConfig h p => exact execSageClockConfig_kept h p s hs
  | sageChainConfig h p => exact execSageChainConfig_kept h p s hs
  | sageFirLoad h p => exact execSageFirLoad_kept h p s hs
  | sageFirSwitch h p => exact execSageFirSwitch_kept h p s hs
  | sageDcFreeze h p => exact execSageDcFreeze_kept h p s hs
  | sageDcRelease h p => exact execSageDcRelease_kept h p s hs
  | sageCal h p => exact execSageCal_kept h p s hs
  | sageTempTable h p => exact execSageTempTable_kept h p s hs
  | sageTempSource h p => exact execSageTempSource_kept h p s hs
  | sageTemp h p => exact execSageTemp_kept h p s hs
  | sagePmuAdd h p => exact execSagePmuAdd_kept h p s hs
  | sagePmuRetire h p => exact execSagePmuRetire_kept h p s hs
  | sagePmuSvWindow h p => exact execSagePmuSvWindow_kept h p s hs
  | sageOutputSample b => exact execSageOutputSample_kept b s hs
  | inputLost input => exact execInputLost_kept input s hs
  | inputRestored input => exact execInputRestored_kept input s hs
  | dcAcquireDone input => exact execDcAcquireDone_kept input s hs
  | settlingEnd mp => exact execSettlingEnd_kept mp s hs
  | fadeEnd mp => exact execFadeEnd_kept mp s hs
  | tempStaleExpiry input => exact execTempStaleExpiry_kept input s hs
  | localPmuReport mp => exact execLocalPmuReport_kept mp s hs
  | halfCycleInterval mp => exact execHalfCycleInterval_kept mp s hs
  | eqMpConfig h p => exact execEqMpConfig_kept h p s hs
  | eqRegConfig h p => exact execEqRegConfig_kept h p s hs
  | pulseConfig h p => exact execPulseConfig_kept h p s hs
  | eqSaveConfig h p => exact execEqSaveConfig_kept h p s hs
  | eqSeal h p => exact execEqSeal_kept h p s hs
  | eqSealDone => exact execEqSealDone_kept s hs
  | eqGapAck h p => exact execEqGapAck_kept h p s hs
  | accumulationCycleEnd mp => exact execAccumulationCycleEnd_kept mp s hs
  | pulseStart output => exact execPulseStart_kept output s hs
  | pulseEnd output => exact execPulseEnd_kept output s hs
  | energySave => exact execEnergySave_kept s hs
  | energySaveVerified ok => exact execEnergySaveVerified_kept ok s hs
  | voiceTdmConfig h p => exact execVoiceTdmConfig_kept h p s hs
  | voiceChOpen h p => exact execVoiceChOpen_kept h p s hs
  | voiceChModify h p => exact execVoiceChModify_kept h p s hs
  | voiceChStart h p => exact execVoiceChStart_kept h p s hs
  | voiceChStop h p => exact execVoiceChStop_kept h p s hs
  | ecReset h p => exact execEcReset_kept h p s hs
  | ecFreeze h p => exact execEcFreeze_kept h p s hs
  | ecUnfreeze h p => exact execEcUnfreeze_kept h p s hs
  | jitterResync h p => exact execJitterResync_kept h p s hs
  | announcementStop h p => exact execAnnouncementStop_kept h p s hs
  | voiceChClose h p => exact execVoiceChClose_kept h p s hs
  | voiceSrtpKey h p => exact execVoiceSrtpKey_kept h p s hs
  | voiceToneProfile h p => exact execVoiceToneProfile_kept h p s hs
  | voiceToneBind h p => exact execVoiceToneBind_kept h p s hs
  | voiceToneGen h p => exact execVoiceToneGen_kept h p s hs
  | voiceAnnLoad h p => exact execVoiceAnnLoad_kept h p s hs
  | voiceAnnLoaded ann data => exact execVoiceAnnLoaded_kept ann data s hs
  | voiceAnnMapSet h p => exact execVoiceAnnMapSet_kept h p s hs
  | voiceAnnMapRemove h p => exact execVoiceAnnMapRemove_kept h p s hs
  | voiceAnnPlay h p => exact execVoiceAnnPlay_kept h p s hs
  | voiceBlock b => exact execVoiceBlock_kept b s hs
  | rtpPacketRx p => exact execRtpPacketRx_kept p s hs
  | dtmfEventTimeout ch => exact execDtmfEventTimeout_kept ch s hs
  | rtcpTx ch => exact execRtcpTx_kept ch s hs
  | rtcpRx r => exact execRtcpRx_kept r s hs
  | voiceMediaTimeout ch => exact execVoiceMediaTimeout_kept ch s hs
  | hostVoiceBlock b => exact execHostVoiceBlock_kept b s hs
  | kernelLoad h p => exact execKernelLoad_kept h p s hs
  | kernelLoaded kernel bytes sig => exact execKernelLoaded_kept kernel bytes sig s hs
  | kernelBindAdd h p => exact execKernelBindAdd_kept h p s hs
  | kernelBindRemove h p => exact execKernelBindRemove_kept h p s hs
  | kernelStart h p => exact execKernelStart_kept h p s hs
  | kernelStop h p => exact execKernelStop_kept h p s hs
  | kernelStopped kernel => exact execKernelStopped_kept kernel s hs
  | kernelUnload h p => exact execKernelUnload_kept h p s hs
  | kernelInputMessage m => exact execKernelInputMessage_kept m s hs
  | dmac32 core b => exact execDmac32_kept core b s hs
  | qmac16 core b => exact execQmac16_kept core b s hs
  | mac32 core b => exact execMac32_kept core b s hs
  | dmac16 core b => exact execDmac16_kept core b s hs
  | msu core op b => exact execMsu_kept core op b s hs
  | tapmv core acc ix ov => exact execTapmv_kept core acc ix ov s hs
  | macr core acc a b sign ov => exact execMacr_kept core acc a b sign ov s hs
  | msur core acc a b sign ov => exact execMsur_kept core acc a b sign ov s hs
  | adda core dst src ov => exact execAdda_kept core dst src ov s hs
  | suba core dst src ov => exact execSuba_kept core dst src ov s hs
  | nega core acc ov => exact execNega_kept core acc ov s hs
  | absa core acc ov => exact execAbsa_kept core acc ov s hs
  | sha core acc left n ov => exact execSha_kept core acc left n ov s hs
  | clra core accs => exact execClra_kept core accs s hs
  | exp core d acc => exact execExp_kept core d acc s hs
  | expd core d a => exact execExpd_kept core d a s hs
  | norm core acc d ov => exact execNorm_kept core acc d ov s hs
  | sac core m acc shift rnd half => exact execSac_kept core m acc shift rnd half s hs
  | mva core d acc shift rnd half => exact execMva_kept core d acc shift rnd half s hs
  | add core d a b => exact execAdd_kept core d a b s hs
  | sub core d a b => exact execSub_kept core d a b s hs
  | addi core d a imm => exact execAddi_kept core d a imm s hs
  | andD core d a b => exact execAndD_kept core d a b s hs
  | orD core d a b => exact execOrD_kept core d a b s hs
  | xorD core d a b => exact execXorD_kept core d a b s hs
  | notD core d a => exact execNotD_kept core d a s hs
  | shl core d a b => exact execShl_kept core d a b s hs
  | shr core d a b => exact execShr_kept core d a b s hs
  | sar core d a b => exact execSar_kept core d a b s hs
  | rot core d a b => exact execRot_kept core d a b s hs
  | min core d a b => exact execMin_kept core d a b s hs
  | max core d a b => exact execMax_kept core d a b s hs
  | abs core d a => exact execAbs_kept core d a s hs
  | cmp core a b => exact execCmp_kept core a b s hs
  | sel core cond d a b => exact execSel_kept core cond d a b s hs
  | mul core d a b => exact execMul_kept core d a b s hs
  | mulh core d a b => exact execMulh_kept core d a b s hs
  | divs core d a b => exact execDivs_kept core d a b s hs
  | fadd core d a b => exact execFadd_kept core d a b s hs
  | fsub core d a b => exact execFsub_kept core d a b s hs
  | fmul core d a b => exact execFmul_kept core d a b s hs
  | fma core d a b c => exact execFma_kept core d a b c s hs
  | fmin core d a b => exact execFmin_kept core d a b s hs
  | fmax core d a b => exact execFmax_kept core d a b s hs
  | fabs core d a => exact execFabs_kept core d a s hs
  | fneg core d a => exact execFneg_kept core d a s hs
  | fcmp core a b => exact execFcmp_kept core a b s hs
  | fcvt core k d a => exact execFcvt_kept core k d a s hs
  | frcp core d a => exact execFrcp_kept core d a s hs
  | frsq core d a => exact execFrsq_kept core d a s hs
  | ld core d sz signed m => exact execLd_kept core d sz signed m s hs
  | st core m d sz => exact execSt_kept core m d sz s hs
  | ld64 core d m => exact execLd64_kept core d m s hs
  | st64 core m d => exact execSt64_kept core m d s hs
  | ldc core d m conflicts => exact execLdc_kept core d m conflicts s hs
  | stc core m d conflicts => exact execStc_kept core m d conflicts s hs
  | movi core r imm => exact execMovi_kept core r imm s hs
  | modi core ix step => exact execModi_kept core ix step s hs
  | mov core dst src => exact execMov_kept core dst src s hs
  | b core target => exact execB_kept core target s hs
  | bcc core cond target => exact execBcc_kept core cond target s hs
  | call core target => exact execCall_kept core target s hs
  | ret core => exact execRet_kept core s hs
  | loop core count last => exact execLoop_kept core count last s hs
  | rep core count => exact execRep_kept core count s hs
  | dmaq core op => exact execDmaq_kept core op s hs
  | outq core binding localAddr bytes => exact execOutq_kept core binding localAddr bytes s hs
  | waitd core n => exact execWaitd_kept core n s hs
  | dmaTransferDone core => exact execDmaTransferDone_kept core s hs
  | mvccr core d => exact execMvccr_kept core d s hs
  | nop core => exact execNop_kept core s hs
  | done core => exact execDone_kept core s hs
  | budgetFault core => exact execBudgetFault_kept core s hs
  | yarrowConfig h p => exact execYarrowConfig_kept h p s hs
  | yarrowLoadBind h p => exact execYarrowLoadBind_kept h p s hs
  | taskDispatch => exact execTaskDispatch_kept s hs
  | delayExpiry => exact execDelayExpiry_kept s hs
  | loadWindowEnd => exact execLoadWindowEnd_kept s hs
  | placementEvaluation v => exact execPlacementEvaluation_kept v s hs
  | cfXcvrProfile h p => exact execCfXcvrProfile_kept h p s hs
  | cfConfig h p => exact execCfConfig_kept h p s hs
  | cfChannelMap h p => exact execCfChannelMap_kept h p s hs
  | cfNodeAdd h p => exact execCfNodeAdd_kept h p s hs
  | cfNodeRemove h p => exact execCfNodeRemove_kept h p s hs
  | cfNodeKey h p => exact execCfNodeKey_kept h p s hs
  | cfNodeStreamMap h p => exact execCfNodeStreamMap_kept h p s hs
  | cfNodeStreamUnmap h p => exact execCfNodeStreamUnmap_kept h p s hs
  | cfOutputBind h p => exact execCfOutputBind_kept h p s hs
  | cfSend h p => exact execCfSend_kept h p s hs
  | cfResetWaitEnd status => exact execCfResetWaitEnd_kept status s hs
  | cfStartupRetry => exact execCfStartupRetry_kept s hs
  | cfIrqTimeout => exact execCfIrqTimeout_kept s hs
  | superframePlanning => exact execSuperframePlanning_kept s hs
  | beaconStatusCheck status => exact execBeaconStatusCheck_kept status s hs
  | superframeStart => exact execSuperframeStart_kept s hs
  | slotPoll node => exact execSlotPoll_kept node s hs
  | cfIrq k => exact execCfIrq_kept k s hs
  | responseRx r => exact execResponseRx_kept r s hs
  | beaconTxTimeout => exact execBeaconTxTimeout_kept s hs
  | slotEnd node => exact execSlotEnd_kept node s hs
  | nodeSupervisionTimeout node => exact execNodeSupervisionTimeout_kept node s hs
  | dillConfig h p => exact execDillConfig_kept h p s hs
  | dillJobOpen h p => exact execDillJobOpen_kept h p s hs
  | dillJobClose h p => exact execDillJobClose_kept h p s hs
  | dillJobFreed job => exact execDillJobFreed_kept job s hs
  | dillSegment seg => exact execDillSegment_kept seg s hs
  | dillJobSwitch decomp => exact execDillJobSwitch_kept decomp s hs
  | poppyCursorAbsolute h p => exact execPoppyCursorAbsolute_kept h p s hs
  | poppyCursorRelative h p => exact execPoppyCursorRelative_kept h p s hs
  | poppyCursorFirstKept h p => exact execPoppyCursorFirstKept_kept h p s hs
  | poppyCursorOldestCirc h p => exact execPoppyCursorOldestCirc_kept h p s hs
  | poppyCursorLatest h p => exact execPoppyCursorLatest_kept h p s hs
  | poppyRateSet h p => exact execPoppyRateSet_kept h p s hs
  | poppyRateRemove h p => exact execPoppyRateRemove_kept h p s hs
  | otpWrite h p => exact execOtpWrite_kept h p s hs
  | otpWriteDone ok => exact execOtpWriteDone_kept ok s hs
  | flashImageWrite h p => exact execFlashImageWrite_kept h p s hs
  | flashImageWritten img => exact execFlashImageWritten_kept img s hs
  | flashConfig h p => exact execFlashConfig_kept h p s hs
  | rateLimitRefill code => exact execRateLimitRefill_kept code s hs
  | flushPeriodic => exact execFlushPeriodic_kept s hs
  | flushStart => exact execFlushStart_kept s hs
  | flushDone ok => exact execFlushDone_kept ok s hs
  | opTimeLogWrite => exact execOpTimeLogWrite_kept s hs
  | undefinedOpcode h opcode => exact execUndefinedOpcode_kept h opcode s hs
  | carrierSenseDrop port => exact execCarrierSenseDrop_kept port s hs
  | jtagTck e => exact execJtagTck_kept e s hs

theorem exec_sound {c : Instr} (hs : Sound s) (h : exec c s = .next t) : Sound t :=
  (exec_kept c s hs.kept t h).sound

theorem step_idle (h : s.pending = []) : step s = .next (idleCycle s) := by
  simp only [step, h]

theorem step_command {c : Instr} {rest : List Instr} (h : s.pending = c :: rest) : step s = exec c { s with pending := rest } := by
  simp only [step, h]

theorem step_sound (hs : Sound s) (h : step s = .next t) : Sound t := by
  cases hp : s.pending with
  | nil =>
    rw [step_idle hp] at h
    cases h
    exact (idleCycle_kept s hs.kept).sound
  | cons c rest =>
    rw [step_command hp] at h
    exact exec_sound (hs.setPending rest) h

/-- Settles O57: each command keeps the state sound by its own operations, and an idle step by the carry of the clock into seconds. -/
theorem everyStepKeepsMachineSound : Obligations.EveryStepKeepsMachineSound :=
  fun _ _ hs h => step_sound hs h

/-! ### The state after reset -/

theorem countersSound_reset : CountersSound State.reset := ⟨rfl, List.forall_mem_nil _⟩

theorem bufferSound_reset : BufferSound State.reset := Nat.zero_le _

theorem clockSound_reset : ClockSound State.reset := by
  unfold ClockSound
  decide

theorem ramsSound_reset : RamsSound State.reset := ⟨List.forall_mem_nil _, List.forall_mem_nil _⟩

/-- Settles O59: at reset no counter, record or memory byte is listed, and the clock stands at zero. -/
theorem resetIsSound : Obligations.ResetIsSound :=
  ⟨⟨countersSound_reset, bufferSound_reset, clockSound_reset⟩, ramsSound_reset⟩

end Sys2Proof.Machine

/-!
The path of a VCI command (2.3 to 2.5 of 02_host_partitions.md): the checks of R39 one by one, what a doorbell does in each case, and the
answer in its mailbox.
-/

namespace Sys2Proof.Machine

/-! ### The checks of a doorbell, in their order (R39) -/

section
variable {c : Cmd} {h : Hdr} {k : Bool} {s : State}

theorem vciCheck_tooLong (hlen : 4080 < h.length.toNat) : vciCheck c h k s = some .badLength := if_pos hlen

theorem vciCheck_notUrgent (hlen : h.length.toNat ≤ 4080) (hu : h.urg = true) (hc : c.u = false) :
    vciCheck c h k s = some .badOpcode := by
  have h1 : ¬ 4080 < h.length.toNat := by omega
  simp [vciCheck, h1, hu, hc]

/-- Past the opcode, the length and the header are left to check. -/
theorem vciCheck_inMailbox (hlen : h.length.toNat ≤ 4080) (hu : h.urg = true → c.u = true) :
    vciCheck c h k s =
      if h.length.toNat ≠ c.len then some .badLength
      else if h.hpart.toNat ≠ h.part.val ∨ h.hurgent ≠ h.urg ∨ h.hcontrol ≠ decide (c.cls = .control) then some .badParam
      else if h.rsv ≠ 0 ∨ k = false then some .badParam
      else if c.cls = .control ∧ isCtrl s h.part = false then some .notController
      else if c.long ∧ 16 ≤ outstanding s h.part then some .busy
      else none := by
  have h1 : ¬ 4080 < h.length.toNat := by omega
  have h2 : ¬ (h.urg && !c.u) = true := by simpa using hu
  rw [vciCheck, if_neg h1, if_neg h2]

theorem vciCheck_wrongLength (hlen : h.length.toNat ≤ 4080) (hu : h.urg = true → c.u = true) (hn : h.length.toNat ≠ c.len) :
    vciCheck c h k s = some .badLength := by
  rw [vciCheck_inMailbox hlen hu, if_pos hn]

theorem vciCheck_badHeader (hlen : h.length.toNat ≤ 4080) (hu : h.urg = true → c.u = true) (hn : h.length.toNat = c.len)
    (hbad : h.hpart.toNat ≠ h.part.val ∨ h.hurgent ≠ h.urg ∨ h.hcontrol ≠ decide (c.cls = .control) ∨ h.rsv ≠ 0 ∨ k = false) :
    vciCheck c h k s = some .badParam := by
  rw [vciCheck_inMailbox hlen hu, if_neg (not_not.2 hn)]
  split
  · rfl
  · rw [if_pos (by tauto)]

/-- A header that fits, with its ranges, leaves the controller and the long commands to check. -/
theorem vciCheck_headerFits (hh : HeaderFits c h) :
    vciCheck c h true s =
      if c.cls = .control ∧ isCtrl s h.part = false then some .notController
      else if c.long ∧ 16 ≤ outstanding s h.part then some .busy
      else none := by
  obtain ⟨hl, hmax, hu, hpart, hurg, hctl, hrsv⟩ := hh
  rw [vciCheck_inMailbox (by omega) hu, if_neg (not_not.2 hl), if_neg (by simp [hpart, hurg, hctl]), if_neg (by simp [hrsv])]

theorem isCtrl_eq_false_iff {p : HP} : isCtrl s p = false ↔ s.host.controller ≠ some p := decide_eq_false_iff_not

theorem vciCheck_notController (hh : HeaderFits c h) (hcls : c.cls = .control) (hctl : s.host.controller ≠ some h.part) :
    vciCheck c h true s = some .notController := by
  rw [vciCheck_headerFits hh, if_pos ⟨hcls, isCtrl_eq_false_iff.2 hctl⟩]

theorem not_control_without_controller (hctl : c.cls = .control → s.host.controller = some h.part) :
    ¬ (c.cls = .control ∧ isCtrl s h.part = false) :=
  fun ⟨hcls, hno⟩ => isCtrl_eq_false_iff.1 hno (hctl hcls)

theorem vciCheck_longBusy (hh : HeaderFits c h) (hctl : c.cls = .control → s.host.controller = some h.part)
    (hlong : c.long = true) (hout : 16 ≤ outstanding s h.part) : vciCheck c h true s = some .busy := by
  rw [vciCheck_headerFits hh, if_neg (not_control_without_controller hctl), if_pos ⟨hlong, hout⟩]

end

/-! ### What a doorbell does (R38, R39, R42) -/

section
variable {c : Cmd} {h : Hdr} {ok : State → Bool} {body : State → Rep} {s : State} {st : Sts}

theorem recovering_of_ready (hb : s.dev.boot = .ready) : recovering s = false := by simp [recovering, hb]

/-- Before READY and outside recovery a doorbell counts in BOOT_DB alone. -/
theorem vci_beforeReady (hp : (getPart s h.part).present = true) (hb : s.dev.boot ≠ .ready) (hr : recovering s = false) :
    vci c h ok body s = bump 0x01000100 s := by
  simp [vci, hp, hb, hr]

/-- A cached tag is answered with what is cached, and REPLAYS counted (R42). -/
theorem vci_replay {e : Cached} (hp : (getPart s h.part).present = true) (hb : s.dev.boot = .ready) (ht : cached s h = some e) :
    vci c h ok body s =
      respond h c.op (e.status ||| 0x8000) e.resp false (bump (partBase h.part + 0x50) (countCmd h s)) := by
  simp [vci, hp, hb, recovering_of_ready hb, cached_countCmd, ht]

/-- A check that fails gives the status, with no effect. -/
theorem vci_refused (hp : (getPart s h.part).present = true) (hb : s.dev.boot = .ready) (ht : cached s h = none)
    (hc : vciCheck c h (ok (countCmd h s)) (countCmd h s) = some st) :
    vci c h ok body s = answer h c.op (refuse st (countCmd h s)) := by
  simp [vci, hp, hb, recovering_of_ready hb, cached_countCmd, ht, hc]

end

/-- Settles O4: `vci` taken apart by presence, READY and the cache, and then check by check of `vciCheck`. -/
theorem doorbellChecksInOrder : Obligations.DoorbellChecksInOrder := by
  intro c h ok body s hp u
  refine ⟨fun hb hr => vci_beforeReady hp hb hr, fun hb e ht => vci_replay hp hb ht, fun hb ht => ?_⟩
  have refused : ∀ st, vciCheck c h (ok u) u = some st → vci c h ok body s = answer h c.op (refuse st u) :=
    fun st hc => vci_refused hp hb ht hc
  refine ⟨fun hlong => refused _ (vciCheck_tooLong hlong), fun hlen => ⟨fun ⟨hu, hc⟩ => refused _ (vciCheck_notUrgent hlen hu hc), ?_⟩⟩
  refine fun hu => ⟨fun hn => refused _ (vciCheck_wrongLength hlen hu hn), fun hn => ?_⟩
  refine ⟨fun hbad => refused _ (vciCheck_badHeader hlen hu hn hbad), fun hh hok => ?_⟩
  refine ⟨fun hcls hno => refused _ ?_, fun hctl => ⟨fun ⟨hl, hout⟩ => refused _ ?_, fun hout => ?_⟩⟩
  · rw [hok]
    exact vciCheck_notController hh hcls hno
  · rw [hok]
    exact vciCheck_longBusy hh hctl hl hout
  · exact vci_admitted ⟨hp, hb, hh, ht, hctl, hout⟩ hok

/-! ### The answer in its mailbox (R36, R37, R42) -/

section
variable (h : Hdr) (op : Nat) (st : Sts) (w : U16) (resp : Bytes) (keep : Bool) (s : State)

theorem getPart_modPart_other {p r : HP} (f : Part → Part) (hr : r ≠ p) : getPart (modPart p f s) r = getPart s r :=
  getPart_setPart_other _ _ hr

@[simp] theorem getPart_msix (p : HP) (v : Nat) :
    getPart (msix p v s) p = { getPart s p with msix := tset (getPart s p).msix v (tgetD (getPart s p).msix v 0 + 1) } :=
  getPart_modPart _ _ _

theorem getPart_msix_other {p r : HP} (v : Nat) (hr : r ≠ p) : getPart (msix p v s) r = getPart s r :=
  getPart_modPart_other _ _ hr

@[simp] theorem getPart_bumpIf (b : Bool) (a : Nat) (p : HP) : getPart (bumpIf b a s) p = getPart s p := by
  cases b <;> rfl

@[simp] theorem bumpIf_host (b : Bool) (a : Nat) : (bumpIf b a s).host = s.host := by
  cases b <;> rfl

theorem getPart_respond_other {p : HP} (hp : p ≠ h.part) : getPart (respond h op w resp keep s) p = getPart s p := by
  rw [respond, getPart_msix_other _ _ hp, getPart_modPart_other _ _ hp]

theorem tgetD_tset_same {α : Type} (t : Tbl α) (n : Nat) (v d : α) : tgetD (tset t n v) n d = v := by
  simp [tgetD, tget_tset]

@[simp] theorem respond_controller : (respond h op w resp keep s).host.controller = s.host.controller := rfl

@[simp] theorem respond_long : (respond h op w resp keep s).host.long = s.host.long := rfl

@[simp] theorem respond_cnt : (respond h op w resp keep s).cnt = s.cnt := rfl

/-- The mailbox's vector is signalled once (R36). -/
theorem respond_msix :
    tgetD (getPart (respond h op w resp keep s) h.part).msix (if h.urg then 1 else 0) 0 =
      tgetD (getPart s h.part).msix (if h.urg then 1 else 0) 0 + 1 := by
  rw [respond, getPart_msix, getPart_modPart]
  cases h.urg <;> exact tgetD_tset_same _ _ _ _

/-- A nonzero tag's response is the one its mailbox's cache replays (R42). -/
theorem cached_respond (htag : h.tag ≠ 0) :
    cached (respond h op w resp true s) h = some { tag := h.tag, opcode := BitVec.ofNat 16 op, status := w, resp } := by
  have hne : ¬ h.tag = 0#32 := htag
  rw [cached, if_neg htag, respond, getPart_msix, getPart_modPart]
  cases h.urg <;> simp [hne]

theorem answer_eq_respond (r : Rep) :
    answer h op r = respond h op r.st.w r.resp true (bumpIf (decide (r.st = .notController)) (partBase h.part + 0x58) r.s) := rfl

end

/-- Settles O5: the answer is one write of the mailbox, of its cache and of its vector, in the partition it came in by. -/
theorem answerStandsInMailbox : Obligations.AnswerStandsInMailbox := by
  intro h op st resp s t
  let u := bumpIf (decide (st = .notController)) (partBase h.part + 0x58) s
  have ht : t = respond h op st.w resp true u := answer_eq_respond h op ⟨st, resp, s⟩
  have hhost : u.host = s.host := bumpIf_host _ _ _
  refine ⟨answer_answers h op st resp s, answer_onlyIn h op ⟨st, resp, s⟩, fun htag => ?_, ?_, fun p hp => ?_, ?_, ?_, fun hst => ?_⟩
  · rw [ht, cached_respond h op st.w resp u htag]
  · rw [ht, respond_msix, getPart_bumpIf]
  · rw [ht, getPart_respond_other _ _ _ _ _ _ hp, getPart_bumpIf]
  · rw [ht, respond_controller, hhost]
  · rw [ht, respond_long, hhost]
  · rw [ht, respond_cnt]
    simp [u, bumpIf, hst]

end Sys2Proof.Machine
/-!
The event ring (2.6 of 02_host_partitions.md, R48): what writing an event does to the partition it is for.
-/

namespace Sys2Proof.Machine

/-! ### Writing an event -/

/-- The entries that stand between EVT_CONS and EVT_PROD. -/
def evtStanding (q : Part) : Nat := (q.evtProd - q.evtCons).toNat

section
variable {p r : HP} {e : EvtIn} {s : State}

/-- With room the event is written at EVT_PROD; only the ring, its index, the sequence number and the vectors change. -/
theorem getPart_pushEvt_room (hn : evtStanding (getPart s p) < 256) :
    ∃ m, getPart (pushEvt p e s) p =
      { getPart s p with
        evtRing := tset (getPart s p).evtRing ((getPart s p).evtProd.toNat % 256) (mkEntry s e (getPart s p).evtSeq)
        evtProd := (getPart s p).evtProd + 1, evtSeq := (getPart s p).evtSeq + 1, msix := m } := by
  unfold evtStanding at hn
  simp only [pushEvt, if_pos hn]
  split
  · exact ⟨_, by rw [getPart_msix, getPart_setPart]⟩
  · exact ⟨_, by rw [getPart_setPart]⟩

/-- Without room the event takes its sequence number and is counted lost. -/
theorem pushEvt_full (hn : 256 ≤ evtStanding (getPart s p)) :
    pushEvt p e s = bump (partBase p + 0x68) (setPart p
      { getPart s p with evtSeq := (getPart s p).evtSeq + 1, lost := (getPart s p).lost + 1
                         lostFirst := if (getPart s p).lost = 0 then (getPart s p).evtSeq else (getPart s p).lostFirst } s) := by
  unfold evtStanding at hn
  simp only [pushEvt, if_neg (Nat.not_lt.2 hn)]

theorem getPart_pushEvt_full (hn : 256 ≤ evtStanding (getPart s p)) :
    getPart (pushEvt p e s) p =
      { getPart s p with evtSeq := (getPart s p).evtSeq + 1, lost := (getPart s p).lost + 1
                         lostFirst := if (getPart s p).lost = 0 then (getPart s p).evtSeq else (getPart s p).lostFirst } := by
  rw [pushEvt_full hn, getPart_bump, getPart_setPart]

theorem getPart_pushEvt_other (hr : r ≠ p) : getPart (pushEvt p e s) r = getPart s r := by
  rcases Nat.lt_or_ge (evtStanding (getPart s p)) 256 with hn | hn
  · unfold evtStanding at hn
    simp only [pushEvt, if_pos hn]
    split
    · rw [getPart_msix_other _ _ hr, getPart_setPart_other _ _ hr]
    · rw [getPart_setPart_other _ _ hr]
  · rw [pushEvt_full hn, getPart_bump, getPart_setPart_other _ _ hr]

/-- Room or not, the event takes a sequence number, and EVT_CONS stands. -/
theorem pushEvt_seq_cons :
    (getPart (pushEvt p e s) p).evtSeq = (getPart s p).evtSeq + 1 ∧ (getPart (pushEvt p e s) p).evtCons = (getPart s p).evtCons := by
  rcases Nat.lt_or_ge (evtStanding (getPart s p)) 256 with hn | hn
  · obtain ⟨m, hm⟩ := getPart_pushEvt_room (e := e) hn
    rw [hm]
    exact ⟨rfl, rfl⟩
  · rw [getPart_pushEvt_full hn]
    exact ⟨rfl, rfl⟩

/-- While there is room, EVT_PROD points past every entry that stands: 256 divides 2^32, where the indices wrap. -/
theorem evtSlot_ne_prod {q : Part} {i : Nat} (hn : evtStanding q < 256) (hi : i < evtStanding q) :
    (q.evtCons.toNat + i) % 256 ≠ q.evtProd.toNat % 256 := by
  unfold evtStanding at hn hi
  rw [BitVec.toNat_sub] at hn hi
  have hc := q.evtCons.isLt
  have hp := q.evtProd.isLt
  omega

/-- No entry that stands is overwritten. -/
theorem pushEvt_keeps_entries {i : Nat} (hi : i < evtStanding (getPart s p)) :
    tget (getPart (pushEvt p e s) p).evtRing (((getPart s p).evtCons.toNat + i) % 256) =
      tget (getPart s p).evtRing (((getPart s p).evtCons.toNat + i) % 256) := by
  rcases Nat.lt_or_ge (evtStanding (getPart s p)) 256 with hn | hn
  · obtain ⟨m, hm⟩ := getPart_pushEvt_room (e := e) hn
    rw [hm, tget_tset, if_neg (evtSlot_ne_prod hn hi)]
  · rw [getPart_pushEvt_full hn]

/-! ### EVENTS-LOST and EVT_CONS -/

/-- When space has returned, EVENTS-LOST is pushed after the counts of lost events are taken back. -/
theorem eventsLost_room (hl : 0 < (getPart s p).lost) (hn : evtStanding (getPart s p) < 256) :
    eventsLost p s =
      pushRec 0x020B 2 (leBytes 8 (getPart s p).lost ++ leBytes 4 (getPart s p).lostFirst.toNat)
        (pushEvt p ⟨0x020B, 2, leBytes 8 (getPart s p).lost ++ leBytes 4 (getPart s p).lostFirst.toNat, false, 0, 0⟩
          (setPart p { getPart s p with lost := 0, lostFirst := 0 } s)) :=
  if_pos ⟨hl, hn⟩

theorem exec_evtConsWrite (value : U32) : exec (.evtConsWrite p value) s = execEvtConsWrite p value s := rfl

/-- A host's EVT_CONS that does not pass EVT_PROD is taken, and EVENTS-LOST follows where it is due. -/
theorem exec_evtConsWrite_taken {value : U32} (hp : (getPart s p).present = true)
    (hv : (value - (getPart s p).evtCons).toNat ≤ evtStanding (getPart s p)) :
    exec (.evtConsWrite p value) s = .next (eventsLost p (setPart p { getPart s p with evtCons := value } s)) := by
  unfold evtStanding at hv
  rw [exec_evtConsWrite, execEvtConsWrite, if_neg (by simp [hp]), if_neg (Nat.not_lt.2 hv)]

/-- One that would pass EVT_PROD is discarded and counted. -/
theorem exec_evtConsWrite_discarded {value : U32} (hp : (getPart s p).present = true)
    (hv : evtStanding (getPart s p) < (value - (getPart s p).evtCons).toNat) :
    exec (.evtConsWrite p value) s = .next (bump (partBase p + 0x80) s) := by
  unfold evtStanding at hv
  rw [exec_evtConsWrite, execEvtConsWrite, if_neg (by simp [hp]), if_pos hv]

end

/-- Settles O54: a push with room, a push without, EVENTS-LOST as one more push, and the host's write of EVT_CONS. -/
theorem eventRingWritesAtProducer : Obligations.EventRingWritesAtProducer := by
  intro p e s q n t par
  refine ⟨fun hn => ?_, fun hn => ⟨?_, ?_, ?_⟩, pushEvt_seq_cons.1, pushEvt_seq_cons.2, fun _ i hi => pushEvt_keeps_entries hi,
    fun r hr => getPart_pushEvt_other hr, fun hl hn => ?_, fun value hp hv => exec_evtConsWrite_taken hp hv,
    fun value hp hv => exec_evtConsWrite_discarded hp hv⟩
  · obtain ⟨m, hm⟩ := getPart_pushEvt_room (e := e) hn
    rw [hm]
    exact ⟨rfl, by simp [tget_tset, q]⟩
  · rw [getPart_pushEvt_full hn]
  · rw [getPart_pushEvt_full hn]
  · change cntGet (pushEvt p e s) _ = _
    rw [pushEvt_full hn, cntGet_bump, if_pos rfl]
    rfl
  · let v0 := setPart p { q with lost := 0, lostFirst := 0 } s
    have hq0 : getPart v0 p = { q with lost := 0, lostFirst := 0 } := getPart_setPart _ _ _
    have hn0 : evtStanding (getPart v0 p) < 256 := by rw [hq0]; exact hn
    obtain ⟨m, hm⟩ := getPart_pushEvt_room (e := ⟨0x020B, 2, par, false, 0, 0⟩) hn0
    refine ⟨_, eventsLost_room hl hn, ?_, ?_, fun r hr => ?_⟩
    · rw [hm, hq0]
      simp [tget_tset, mkEntry, v0]
    · rw [hm, hq0]
    · rw [getPart_pushEvt_other hr, getPart_setPart_other _ _ hr]
end Sys2Proof.Machine
/-!
The commands of groups 0x01 and 0x02 (2.4, 2.6 to 2.10 of 02_host_partitions.md): each from the one path of `vci`, its own checks met and
its effect at the commit point.
-/

namespace Sys2Proof.Machine

/-! ### A command from its path -/

section
variable {i : Instr} {c : Cmd} {h : Hdr} {ok : State → Bool} {body : State → Rep} {r : Rep} {s : State}

/-- A command whose meaning is `vci`, admitted and within its own checks, is answered with what its body gives. -/
theorem exec_admitted {o : Out} {op : Nat} (e : exec i s = o) (path : o = .next (vci c h ok body s)) (a : Admitted c h s)
    (k : ok (countCmd h s) = true) (b : body (countCmd h s) = r) (hop : c.op = op) : exec i s = .next (answer h op r) := by
  rw [e, path, vci_admitted a k, b, hop]

theorem answer_onlyIn_of {op : Nat} {l : List Blk} (hr : OnlyIn l (countCmd h s) r.s) (hh : .host ∈ l) (hc : .cnt ∈ l) :
    OnlyIn l s (answer h op r) := by
  have h1 : OnlyIn l s (countCmd h s) := (countCmd_onlyIn h s).mono (by simpa using hc)
  have h2 : OnlyIn l r.s (answer h op r) := (answer_onlyIn h op r).mono (by simp [hh, hc])
  exact (h1.trans hr (fun _ => id) (fun _ => id)).trans h2 (fun _ => id) (fun _ => id)

end

section
variable (h : Hdr) (s : State)

theorem exec_identify : exec (.identify h) s = execIdentify h s := rfl
theorem exec_snapshot (p : SnapshotP) : exec (.snapshot h p) s = execSnapshot h p s := rfl
theorem exec_snapshotRelease : exec (.snapshotRelease h) s = execSnapshotRelease h s := rfl
theorem exec_apertureWindow (p : ApertureWindowP) : exec (.apertureWindow h p) s = execApertureWindow h p s := rfl
theorem exec_counterClear (p : CounterClearP) : exec (.counterClear h p) s = execCounterClear h p s := rfl
theorem exec_heartbeat (p : HeartbeatP) : exec (.heartbeat h p) s = execHeartbeat h p s := rfl
theorem exec_claimSet (p : ClaimSetP) : exec (.claimSet h p) s = execClaimSet h p s := rfl
theorem exec_claimYield (p : ClaimYieldP) : exec (.claimYield h p) s = execClaimYield h p s := rfl
theorem exec_apportion (p : ApportionP) : exec (.apportion h p) s = execApportion h p s := rfl
theorem exec_partitionTimers (p : PartitionTimersP) : exec (.partitionTimers h p) s = execPartitionTimers h p s := rfl
theorem exec_dmaRingSetup (p : DmaRingSetupP) : exec (.dmaRingSetup h p) s = execDmaRingSetup h p s := rfl
theorem exec_dmaRingRetire (p : DmaRingRetireP) : exec (.dmaRingRetire h p) s = execDmaRingRetire h p s := rfl

end

/-! ### What an answer leaves of its partition -/

/-- The fields of a partition that an answer leaves: all but the mailboxes, their caches and the vectors. -/
def SamePartBut (q r : Part) : Prop :=
  r = { q with mbxN := r.mbxN, mbxU := r.mbxU, cacheN := r.cacheN, cacheU := r.cacheU, msix := r.msix }

theorem getPart_answer (h : Hdr) (op : Nat) (r : Rep) (p : HP) : SamePartBut (getPart r.s p) (getPart (answer h op r) p) := by
  rw [answer]
  by_cases hp : p = h.part
  · subst hp
    rw [respond, getPart_msix, getPart_modPart, getPart_bumpIf]
    cases h.urg <;> rfl
  · rw [getPart_respond_other _ _ _ _ _ _ hp, getPart_bumpIf]
    rfl

@[simp] theorem getPart_answer_snap (h : Hdr) (op : Nat) (r : Rep) (p : HP) :
    (getPart (answer h op r) p).snap = (getPart r.s p).snap := by rw [getPart_answer h op r p]

@[simp] theorem getRing_answer (h : Hdr) (op : Nat) (r : Rep) (p : HP) (n : Nat) :
    getRing (answer h op r) p n = getRing r.s p n := by rw [getRing, getPart_answer h op r p]; rfl

@[simp] theorem answer_shadow (h : Hdr) (op : Nat) (r : Rep) : (answer h op r).shadow = r.s.shadow :=
  answer_onlyIn h op r .shadow (by decide)

/-! ### Identification, snapshots and windows (2.8) -/

section
variable (h : Hdr) (s : State)

theorem takeSnapshot_onlyIn (p : HP) (q : SnapshotP) : OnlyIn [.host, .shadow] s (takeSnapshot p q s) := by
  intro b hb
  cases b <;> first | rfl | simp at hb

theorem endSnapshot_onlyIn (p : HP) (st : SnapState) : OnlyIn [.host, .shadow] s (endSnapshot p st s) := by
  intro b hb
  cases b <;> first | rfl | simp at hb

theorem takeSnapshot_shadow (p : HP) (q : SnapshotP) : (takeSnapshot p q s).shadow.get p = some s.toBlocks :=
  Quad.get_set_self _ _ _

theorem endSnapshot_shadow (p : HP) (st : SnapState) : (endSnapshot p st s).shadow.get p = none :=
  Quad.get_set_self _ _ _

theorem takeSnapshot_snap (p : HP) (q : SnapshotP) :
    (getPart (takeSnapshot p q s) p).snap =
      { state := .valid, gen := (getPart s p).snap.gen + 1, taiS := s.clk.sec, groups := q.groups, windowed := q.windowed
        expiry := elNs s + (if q.expiryMs = 0 then 10000 else q.expiryMs.toNat) * 1000000 } := by
  rw [takeSnapshot, getPart_modPart]
  rfl

theorem endSnapshot_snap (p : HP) (st : SnapState) :
    (getPart (endSnapshot p st s) p).snap = { (getPart s p).snap with state := st } := by
  rw [endSnapshot, getPart_modPart]
  rfl

theorem tget_tkeep {α : Type} (f : Nat → Bool) (t : Tbl α) (k : Nat) :
    tget (tkeep (fun j _ => f j) t) k = if f k then tget t k else none := by
  induction t with
  | nil => simp [tkeep, tget]
  | cons e t ih =>
    obtain ⟨j, v⟩ := e
    rw [tkeep]
    by_cases hj : j = k
    · subst hj
      by_cases hf : f j <;> simp [hf, tget, ih]
    · by_cases hf : f j <;> simp [hf, tget, ih, hj]

theorem placeWindow_self (g b f : Nat) (w : Tbl Nat) : tget (placeWindow g b f w) (g * 256 + b) = some f := by
  rw [placeWindow, tget_tset, if_pos rfl]

/-- A window of another group stays where it is. -/
theorem placeWindow_otherGroup {g b k : Nat} (f : Nat) (w : Tbl Nat) (hb : b < 256) (hk : k / 256 ≠ g) :
    tget (placeWindow g b f w) k = tget w k := by
  rw [placeWindow, tget_tset, if_neg (by omega)]
  split
  · rw [tget_tkeep (fun j => decide (j / 256 ≠ g)), if_pos (by simpa using hk)]
  · rfl

/-- Groups 0x06 and 0x09 have one window (R181, R255). -/
theorem placeWindow_one {g b k : Nat} (f : Nat) (w : Tbl Nat) (hg : g = 6 ∨ g = 9) (hk : k / 256 = g) (hne : k ≠ g * 256 + b) :
    tget (placeWindow g b f w) k = none := by
  rw [placeWindow, tget_tset, if_neg hne, if_pos hg, tget_tkeep (fun j => decide (j / 256 ≠ g)), if_neg (by simpa using hk)]

/-! ### COUNTER-CLEAR (R50) -/

theorem cntGet_clearCnt (g : Nat) (f : Nat → Bool) (a : Nat) :
    cntGet (clearCnt g f s) a = if a / 0x1000000 = g ∧ f (a % 0x1000000) = true then 0 else cntGet s a := by
  rw [cntGet, clearCnt, tgetD, tget_tkeep (fun j => !(decide (j / 0x1000000 = g) && f (j % 0x1000000)))]
  by_cases hg : a / 0x1000000 = g ∧ f (a % 0x1000000) = true
  · rw [if_pos hg, if_neg (by simp [hg])]
    rfl
  · rw [if_neg hg, if_pos (by simpa [imp_iff_not_or] using hg)]
    rfl

/-- What clearing a group keeps, beside its own items: the counters by address are those of `clearCnt`, and energy state, pulses and the
persistent counts stay (R293, R442). -/
theorem clearGroup_keeps (first : Nat) (whole : Bool) (g : Nat) (f : Nat → Bool) :
    (clearGroup first whole g f s).cnt = (clearCnt g f s).cnt ∧ (clearGroup first whole g f s).eq = s.eq ∧
    (clearGroup first whole g f s).pop.powerCycles = s.pop.powerCycles ∧ (clearGroup first whole g f s).pop.erases = s.pop.erases := by
  unfold clearGroup
  dsimp only
  split <;> exact ⟨rfl, rfl, rfl, rfl⟩

theorem cntGet_clearGroup (first : Nat) (whole : Bool) (g : Nat) (f : Nat → Bool) (a : Nat) :
    cntGet (clearGroup first whole g f s) a = if a / 0x1000000 = g ∧ f (a % 0x1000000) = true then 0 else cntGet s a := by
  rw [← cntGet_clearCnt, cntGet, (clearGroup_keeps s first whole g f).1]
  rfl

end

/-- The offsets that a COUNTER-CLEAR names. -/
def clearNames (p : CounterClearP) : Nat → Bool := if p.scope = 0 then fun _ => true else fun o => decide (o = p.offset.toNat)

theorem clearNames_iff {p : CounterClearP} {o : Nat} : clearNames p o = true ↔ p.scope = 0 ∨ o = p.offset.toNat := by
  unfold clearNames
  split
  · exact iff_of_true rfl (.inl ‹_›)
  · exact decide_eq_true_iff.trans (or_iff_right ‹_›).symm

/-- Settles O6: each command is admitted by its own checks; SNAPSHOT and its release by what they leave in the partition and its shadow,
COUNTER-CLEAR by what a clear of the group leaves in every counter. -/
theorem deviceCommandsComplete : Obligations.DeviceCommandsComplete := by
  intro h s u
  refine ⟨fun a => exec_admitted (exec_identify _ _) rfl a rfl rfl rfl, ?_, ?_, ?_, ?_, ?_⟩
  case refine_1 =>
    intro p a hrsv hg hw he hv
    refine ⟨_, exec_admitted (exec_snapshot _ _ _) rfl a ?_ (if_neg hv) rfl, ?_, ?_, ?_, ?_⟩
    · exact decide_eq_true ⟨hrsv, hg, hw, he⟩
    · have hgen : (getPart s h.part).snap.gen + 1 = (getPart (takeSnapshot h.part p u) h.part).snap.gen := by
        rw [takeSnapshot_snap]
        rfl
      rw [hgen]
      exact answer_answers _ _ _ _ _
    · rw [answer_shadow]
      exact takeSnapshot_shadow _ _ _
    · rw [getPart_answer_snap]
      exact takeSnapshot_snap _ _ _
    · exact answer_onlyIn_of ((takeSnapshot_onlyIn _ _ _).mono (by decide)) (by decide) (by decide)
  case refine_2 =>
    intro a hv
    refine ⟨_, exec_admitted (exec_snapshotRelease _ _) rfl a rfl (if_pos hv) rfl, answer_answers _ _ _ _ _, ?_, ?_, ?_⟩
    · rw [answer_shadow]
      exact endSnapshot_shadow _ _ _
    · rw [getPart_answer_snap]
      exact endSnapshot_snap _ _ _
    · exact answer_onlyIn_of ((endSnapshot_onlyIn _ _ _).mono (by decide)) (by decide) (by decide)
  case refine_3 =>
    intro p n a hrsv hsize hn
    refine exec_admitted (exec_apertureWindow _ _ _) rfl a ?_ rfl rfl
    simp [hrsv, hsize, hn]
  case refine_4 =>
    intro g b f w hb
    exact ⟨placeWindow_self g b f w, fun k hk => placeWindow_otherGroup f w hb hk, fun hg k hk hne => placeWindow_one f w hg hk hne⟩
  case refine_5 =>
    intro p a hrsv hg1 hg2 hscope
    refine ⟨clearGroup (streamFirst s h.part) (decide (p.scope = 0)) p.group.toNat (clearNames p) u,
      exec_admitted (exec_counterClear _ _ _) rfl a ?_ rfl rfl, ?_, ?_, ?_⟩
    · have hle : p.scope.toNat ≤ 1 := by rcases hscope with h0 | ⟨h1, -⟩ <;> simp [*]
      exact decide_eq_true ⟨hrsv, hg1, hg2, hle, hscope.imp_right And.right⟩
    · intro b hb hnamed
      rw [cntGet_clearGroup, if_pos ⟨hb, clearNames_iff.2 hnamed⟩]
    · intro b hb
      have hkept : ¬ (b / 0x1000000 = p.group.toNat ∧ clearNames p (b % 0x1000000) = true) := by
        rw [clearNames_iff]
        rcases hb with hb | ⟨h1, hoff⟩
        · exact fun hc => hb hc.1
        · rintro ⟨-, h0 | ho⟩
          · rw [h1] at h0
            exact absurd h0 (by decide)
          · exact hoff ho
      rw [cntGet_clearGroup, if_neg hkept]
    · obtain ⟨-, heq, hpc, her⟩ := clearGroup_keeps u (streamFirst s h.part) (decide (p.scope = 0)) p.group.toNat (clearNames p)
      rw [heq, hpc, her]
      exact ⟨rfl, rfl, rfl, rfl⟩

/-! ### Rings that end, and the timers of all partitions (2.6, 2.10) -/

/-- Of the block of the partitions, only the partitions' own records change. -/
def HostPartsOnly (s t : State) : Prop := t.host = { s.host with parts := t.host.parts }

theorem HostPartsOnly.trans {s t u : State} (h1 : HostPartsOnly s t) (h2 : HostPartsOnly t u) : HostPartsOnly s u := by
  unfold HostPartsOnly at *
  rw [h2, h1]

theorem setRing_hostPartsOnly (p : HP) (n : Nat) (r : Ring) (s : State) : HostPartsOnly s (setRing p n r s) := rfl

theorem unbindRing_hostPartsOnly (p : HP) (n : Nat) (x : RingUse) (s : State) : HostPartsOnly s (unbindRing p n x s) := by
  unfold unbindRing
  split
  · split
    · rfl
    · rfl
  · rfl

/-- Unbinding a ring touches rings, and blocks that bound it. -/
theorem unbindUse_hostPartsOnly (p : HP) (n : Nat) (s : State) : HostPartsOnly s (unbindUse p n s) := by
  unfold unbindUse
  dsimp only
  split
  · rfl
  · rename_i r _
    split
    case h_2 =>
      split
      · exact (setRing_hostPartsOnly p n { r with use := .unbound } s).trans (unbindRing_hostPartsOnly p _ .txReport _)
      · rfl
    all_goals rfl

/-- Changing each partition in turn changes each once. -/
theorem getPart_foldl_modPart (f : HP → Part → Part) (s : State) (r : HP) :
    getPart (allHP.foldl (fun a q => modPart q (f q) a) s) r = f r (getPart s r) := by
  match r with
  | 0 => rfl
  | 1 => rfl
  | 2 => rfl
  | 3 => rfl

theorem foldl_modPart_onlyIn (f : HP → Part → Part) (l : List HP) (s : State) :
    OnlyIn [.host] s (l.foldl (fun a q => modPart q (f q) a) s) := by
  induction l generalizing s with
  | nil => exact OnlyIn.refl _ _
  | cons p l ih => exact (setPart_onlyIn p _ s).trans (ih _) (fun _ => id) (fun _ => id)

theorem foldl_modPart_hostPartsOnly (f : HP → Part → Part) (l : List HP) (s : State) :
    HostPartsOnly s (l.foldl (fun a q => modPart q (f q) a) s) := by
  induction l generalizing s with
  | nil => rfl
  | cons p l ih => exact HostPartsOnly.trans (t := modPart p (f p) s) rfl (ih _)

@[simp] theorem getRing_setRing (p : HP) (n : Nat) (r : Ring) (s : State) : getRing (setRing p n r s) p n = some r := by
  rw [setRing, getRing, getPart_modPart, tget_tset, if_pos rfl]

theorem setRing_onlyIn (p : HP) (n : Nat) (r : Ring) (s : State) : OnlyIn [.host] s (setRing p n r s) := setPart_onlyIn _ _ _

/-- The state of a PARTITION-TIMERS before the partitions are evaluated: the timers, and each partition's heartbeat input. -/
def withTimers (p : PartitionTimersP) (s : State) : State :=
  allHP.foldl (fun a q => modPart q (fun x => { x with hbpFitted := p.hbpFitted.getLsbD q.val }) a)
    { s with host := { s.host with failMs := p.failMs, holdoffMs := p.holdoffMs } }

theorem withTimers_timers (p : PartitionTimersP) (s : State) :
    (withTimers p s).host.failMs = p.failMs ∧ (withTimers p s).host.holdoffMs = p.holdoffMs := by
  have hh := foldl_modPart_hostPartsOnly (fun q x => { x with hbpFitted := p.hbpFitted.getLsbD q.val }) allHP
    { s with host := { s.host with failMs := p.failMs, holdoffMs := p.holdoffMs } }
  unfold withTimers
  rw [hh]
  exact ⟨rfl, rfl⟩

theorem withTimers_onlyIn (p : PartitionTimersP) (s : State) : OnlyIn [.host] s (withTimers p s) := by
  have h1 : OnlyIn [.host] s { s with host := { s.host with failMs := p.failMs, holdoffMs := p.holdoffMs } } := by
    intro b hb
    cases b <;> first | rfl | simp at hb
  exact h1.trans (foldl_modPart_onlyIn (fun q x => { x with hbpFitted := p.hbpFitted.getLsbD q.val }) allHP _) (fun _ => id) (fun _ => id)

/-- Settles O7: each command is admitted by its own checks; a retire's long command takes the number that unbinding its ring leaves. -/
theorem partitionCommandsComplete : Obligations.PartitionCommandsComplete := by
  intro h s u
  refine ⟨?_, ?_, ?_, ?_, ?_, ?_, ?_⟩
  case refine_1 =>
    intro p v a hrsv hv
    subst hv
    exact exec_admitted (exec_heartbeat _ _ _) rfl a (decide_eq_true hrsv) rfl rfl
  case refine_2 =>
    intro p a hrsv hp hq
    exact exec_admitted (exec_claimSet _ _ _) rfl a (decide_eq_true ⟨hrsv, hp⟩) (if_pos hq) rfl
  case refine_3 =>
    intro p a hrsv hlt hq
    exact exec_admitted (exec_claimYield _ _ _) rfl a (decide_eq_true hrsv) (if_pos ⟨hlt, hq⟩) rfl
  case refine_4 =>
    intro p v a hrsv hp hrings huse hv hsum
    subst hv
    exact exec_admitted (exec_apportion _ _ _) rfl a (Bool.and_eq_true_iff.2 ⟨decide_eq_true ⟨hrsv, hp, hrings⟩, huse⟩) (if_pos hsum) rfl
  case refine_5 =>
    intro p a hrsv hf1 hf2 hh1 hh2 hfit
    refine ⟨withTimers p u, exec_admitted (exec_partitionTimers _ _ _) rfl a (decide_eq_true ⟨hrsv, hf1, hf2, hh1, hh2, hfit⟩) rfl rfl,
      (withTimers_timers p u).1, (withTimers_timers p u).2, fun q => ?_, ?_⟩
    · exact getPart_foldl_modPart _ _ q
    · exact (countCmd_onlyIn h s).trans (withTimers_onlyIn p u) (by decide) (by decide)
  case refine_6 =>
    intro p a hrsv hring hdir hbase hent hnone hquota
    refine ⟨_, exec_admitted (exec_dmaRingSetup _ _ _) rfl a ?_ (by simp only [getRing_countCmd, hnone]; exact if_pos hquota) rfl,
      answer_answers _ _ _ _ _, ?_, ?_⟩
    · exact Bool.and_eq_true_iff.2 ⟨decide_eq_true ⟨hrsv, hring, hdir, hbase⟩, hent⟩
    · rw [getRing_answer]
      exact getRing_setRing _ _ _ _
    · exact answer_onlyIn_of ((setRing_onlyIn _ _ _ _).mono (by decide)) (by decide) (by decide)
  case refine_7 =>
    intro p r a hrsv hring hr hret
    have hid : (unbindUse h.part p.ring.toNat u).host.longNext = s.host.longNext := by
      rw [unbindUse_hostPartsOnly h.part p.ring.toNat u]
      rfl
    refine exec_admitted (exec_dmaRingRetire _ _ _) rfl a (decide_eq_true ⟨hrsv, hring⟩) ?_ rfl
    rw [← hid]
    simp only [getRing_countCmd, hr]
    exact if_neg (not_not.2 hret)

end Sys2Proof.Machine
/-!
The events of the partitions (2.6 to 2.10 of 02_host_partitions.md): the timers, the ends of snapshots and long commands, and a completed
descriptor whose data held no poisoned word.
-/

namespace Sys2Proof.Machine

/-! ### A completed descriptor on a counter past its end (R12, R66) -/

/-- A host-to-device ring whose one descriptor the device owns. -/
def oneDescRing : Ring :=
  { toDev := true, entries := 64, base := 0, hostIdx := 1, devIdx := 0, use := .unbound, bells := [], retiring := none
    owned := [Desc.blank], lastDone := none }

/-- A state of the model in which the counter of poisoned words stands past its end of 2^64 - 1. -/
def poisonPastEnd : State :=
  { State.reset with
    host := { HostBlk.init with parts := { HostBlk.init.parts with a0 :=
      { Part.init true 4 Quota.limit with link := true, rings := [(0, oneDescRing)] } } }
    cnt := [(0x05000130, 2 ^ 64)] }

theorem exec_dmaDescriptorDone_poisonPastEnd :
    exec (.dmaDescriptorDone 0 0 0) poisonPastEnd = .next (completeDesc 0 0 .ok 0 [] poisonPastEnd) := rfl

/-- Refutes O8, in its clause on DMA_DESCRIPTOR_DONE alone: with no poisoned word the row leaves the counter of poisoned words as it is,
while `bumpBy` of nothing brings a counter past its end back to it. The statement takes every state, this one too, whose counters are not
sound (`CountersSound`); from reset none is reached (O57, O59). -/
theorem not_partitionEventsComplete : ¬ Obligations.PartitionEventsComplete := by
  intro holds
  obtain ⟨-, -, -, -, hdone, -⟩ := holds 0 poisonPastEnd
  obtain ⟨t, ht, -, hcnt, -⟩ := hdone 0 0 oneDescRing Desc.blank [] rfl rfl rfl rfl
  rw [exec_dmaDescriptorDone_poisonPastEnd] at ht
  cases ht
  have left : cntGet (completeDesc 0 0 .ok 0 [] poisonPastEnd) 0x05000130 = 2 ^ 64 := rfl
  have right : cntGet (bumpBy 0x05000130 0 poisonPastEnd) 0x05000130 = 2 ^ 64 - 1 := rfl
  have heq : (2 ^ 64 : Nat) = 2 ^ 64 - 1 := left.symm.trans (hcnt.trans right)
  exact absurd heq (by decide)

/-! ### Timers (R58, R60, R64) -/

section
variable {p : HP} {s : State}

theorem exec_pathVTimeout : exec (.pathVTimeout p) s = execPathVTimeout p s := rfl
theorem exec_pathPTimeout : exec (.pathPTimeout p) s = execPathPTimeout p s := rfl
theorem exec_failureTimerExpiry : exec (.failureTimerExpiry p) s = execFailureTimerExpiry p s := rfl
theorem exec_holdoffTimerExpiry : exec (.holdoffTimerExpiry p) s = execHoldoffTimerExpiry p s := rfl
theorem exec_takeoverDeadline : exec (.takeoverDeadline p) s = execTakeoverDeadline p s := rfl
theorem exec_snapshotExpiry : exec (.snapshotExpiry p) s = execSnapshotExpiry p s := rfl
theorem exec_shadowFull : exec (.shadowFull p) s = execShadowFull p s := rfl
theorem exec_longCommandTimeout (id : U32) : exec (.longCommandTimeout id) s = execLongCommandTimeout id s := rfl

theorem timerDue_some {e : Nat} (he : e ≤ elNs s) : timerDue s (some e) = true := decide_eq_true he

/-- A path that counts and is past its limit is not spared. -/
theorem pathDue {live : Bool} {last limit now : Nat} (hlive : live = true) (hdue : last + limit ≤ now) :
    ¬ (live = false ∨ now < last + limit) := by
  rintro (h0 | hlt)
  · rw [hlive] at h0
    exact absurd h0 (by decide)
  · exact absurd hlt (Nat.not_lt.2 hdue)

end

/-- Settles O9: each row is due by its hypotheses, and what it then does is its effect. -/
theorem partitionTimersComplete : Obligations.PartitionTimersComplete := by
  intro p s
  refine ⟨fun hv hdue => ?_, fun hp hdue => ?_, fun e hst htimer hdue => ?_, fun e hst htimer hdue => ?_, fun e hlive htimer hdue => ?_,
    fun hvalid hdue => ?_, fun hvalid => ?_, fun id l hl hdue => ?_⟩
  · simp only [exec_pathVTimeout, execPathVTimeout, if_neg (pathDue hv hdue), Bool.and_eq_true, decide_eq_true_eq]
  · simp only [exec_pathPTimeout, execPathPTimeout, if_neg (pathDue hp hdue), Bool.and_eq_true, decide_eq_true_eq]
  · rw [exec_failureTimerExpiry, execFailureTimerExpiry, htimer, if_pos ⟨hst, timerDue_some hdue⟩]
  · rw [exec_holdoffTimerExpiry, execHoldoffTimerExpiry, htimer, if_pos ⟨hst, timerDue_some hdue⟩]
  · rw [exec_takeoverDeadline, execTakeoverDeadline, htimer, if_pos ⟨hlive, timerDue_some hdue⟩]
    rfl
  · rw [exec_snapshotExpiry, execSnapshotExpiry, if_pos ⟨hvalid, hdue⟩]
    rfl
  · rw [exec_shadowFull, execShadowFull, if_pos hvalid]
    rfl
  · simp only [exec_longCommandTimeout, execLongCommandTimeout, hl, if_pos hdue]

end Sys2Proof.Machine

/-!
The commands of an alarm stage (8.7 to 8.9 of 08_islanding_alarms.md, R221 to R223, R227).
-/

namespace Sys2Proof.Machine

section
variable (h : Hdr) (s : State)

theorem exec_alarmStage (p : AlarmStageP) : exec (.alarmStage h p) s = execAlarmStage h p s := rfl
theorem exec_alarmAck (p : AlarmAckP) : exec (.alarmAck h p) s = execAlarmAck h p s := rfl
theorem exec_alarmTestForce (p : AlarmTestP) : exec (.alarmTestForce h p) s = execAlarmTestForce h p s := rfl
theorem exec_alarmTestRelease (p : AlarmTestP) : exec (.alarmTestRelease h p) s = execAlarmTestRelease h p s := rfl
theorem exec_alarmGooseConfig (p : AlarmGooseConfigP) : exec (.alarmGooseConfig h p) s = execAlarmGooseConfig h p s := rfl

end

section
variable {s : State} {h : Hdr} {n : Nat}

/-- A claim that suffices is not refused once the command is counted. -/
theorem stageClaim_counted (hc : stageClaimOk s h.part n = true) : ¬ stageClaimOk (countCmd h s) h.part n = false := by
  rw [stageClaimOk_countCmd, hc]
  decide

/-- A stage that is not DISABLED and sends frames, as a test and as a condition. -/
theorem stageOn_iff {v : Stage} :
    (decide (v.state ≠ .disabled) && v.frame) = true ↔ v.state ≠ .disabled ∧ v.frame = true := by
  rw [Bool.and_eq_true, decide_eq_true_eq]

theorem stageOff_of_disabled {v : Stage} (hv : v.state = .disabled) : ¬ (decide (v.state ≠ .disabled) && v.frame) = true :=
  fun hon => (stageOn_iff.1 hon).1 hv

end

/-- Settles O29: each command is admitted by its own checks and by its claim, and the stage's state says which branch it takes. -/
theorem alarmStageCommandsComplete : Obligations.AlarmStageCommandsComplete := by
  intro h s u
  refine ⟨?_, ?_, ?_, ?_, ?_, ?_, ?_⟩
  case refine_1 =>
    intro p a hn hen hmode hflags hmin hrsv hoff hrsv2 hrsv3 htgt hclaim hst
    have hen2 : p.enable.toNat < 2 := by rw [hen]; decide
    refine ⟨_, rfl, _, rfl, _, rfl, exec_admitted (exec_alarmStage _ _ _) rfl a ?_ ?_ rfl⟩
    · exact Bool.and_eq_true_iff.2 ⟨decide_eq_true ⟨hn, hen2, hmode, hflags, hmin, hrsv, hoff, hrsv2, hrsv3⟩, htgt⟩
    · refine (if_neg (stageClaim_counted hclaim)).trans ((if_pos hen).trans ((if_pos hst).trans ?_))
      rw [getStage_countCmd, if_neg (stageOff_of_disabled hst)]
      rfl
  case refine_2 =>
    intro p a hn hen hmode hflags hmin hrsv hoff hrsv2 hrsv3 htgt hclaim
    have hen2 : p.enable.toNat < 2 := by rw [hen]; decide
    have hen1 : ¬ p.enable = 1 := by rw [hen]; decide
    refine ⟨_, rfl, exec_admitted (exec_alarmStage _ _ _) rfl a ?_ ?_ rfl⟩
    · exact Bool.and_eq_true_iff.2 ⟨decide_eq_true ⟨hn, hen2, hmode, hflags, hmin, hrsv, hoff, hrsv2, hrsv3⟩, htgt⟩
    · refine (if_neg (stageClaim_counted hclaim)).trans ((if_neg hen1).trans ?_)
      simp only [stageOn_iff]
      rfl
  case refine_3 =>
    intro p a hrsv hclaim
    have hcounted : ¬ (stageList p.stages.toNat).all (fun n => stageClaimOk (countCmd h s) h.part n) = false := by simp [hclaim]
    exact exec_admitted (exec_alarmAck _ _ _) rfl a (decide_eq_true hrsv) (if_neg hcounted) rfl
  case refine_4 =>
    intro p a hok hclaim hst
    exact ⟨_, rfl, exec_admitted (exec_alarmTestForce _ _ _) rfl a hok ((if_neg (stageClaim_counted hclaim)).trans (if_neg hst)) rfl⟩
  case refine_5 =>
    intro p a hok hclaim hst
    exact exec_admitted (exec_alarmTestRelease _ _ _) rfl a hok ((if_neg (stageClaim_counted hclaim)).trans (if_pos hst)) rfl
  case refine_6 =>
    intro p a hn happ hvlan hmin1 hmin2 hmax1 hmax2 hmac1 hmac2 hhead htgt hcb hds hgo hclaim hgse
    refine ⟨_, rfl, exec_admitted (exec_alarmGooseConfig _ _ _) rfl a ?_ ((if_neg (stageClaim_counted hclaim)).trans ?_) rfl⟩
    · simp only [Bool.and_eq_true, decide_eq_true_eq]
      exact ⟨⟨⟨⟨⟨hn, happ, hvlan, hmin1, hmin2, hmax1, hmax2, hmac1, hmac2, hhead⟩, htgt⟩, hcb⟩, hds⟩, hgo⟩
    · simp only [getStage_countCmd, hgse]
      rfl
  case refine_7 =>
    intro p g a hn happ hvlan hmin1 hmin2 hmax1 hmax2 hmac1 hmac2 hhead htgt hcb hds hgo hclaim hgse
    refine ⟨_, rfl, exec_admitted (exec_alarmGooseConfig _ _ _) rfl a ?_ ((if_neg (stageClaim_counted hclaim)).trans ?_) rfl⟩
    · simp only [Bool.and_eq_true, decide_eq_true_eq]
      exact ⟨⟨⟨⟨⟨hn, happ, hvlan, hmin1, hmin2, hmax1, hmax2, hmac1, hmac2, hhead⟩, htgt⟩, hcb⟩, hds⟩, hgo⟩
    · simp only [getStage_countCmd, hgse]
      rfl

end Sys2Proof.Machine

/-!
Opcodes that do not exist (R39, R458, R459), and the JTAG TAP (R478).
-/

namespace Sys2Proof.Machine

/-! ### Opcodes that do not exist -/

section
variable {h : Hdr} {opcode : U16} {s : State}

/-- The status an opcode that does not exist is answered with (R39, checks 2 and 3). -/
def undefinedSts (h : Hdr) : Sts := if 4080 < h.length.toNat then .badLength else .badOpcode

theorem exec_undefinedOpcode_ready (hop : opcodeDefined opcode.toNat = false) (hp : (getPart s h.part).present = true)
    (hb : s.dev.boot = .ready) (ht : cached s h = none) :
    exec (.undefinedOpcode h opcode) s = .next (answer h opcode.toNat (refuse (undefinedSts h) (countCmd h s))) := by
  change execUndefinedOpcode h opcode s = _
  simp [execUndefinedOpcode, undefinedSts, hop, hp, hb, recovering_of_ready hb, cached_countCmd, ht]

theorem exec_undefinedOpcode_recovery (hop : opcodeDefined opcode.toNat = false) (hp : (getPart s h.part).present = true)
    (hr : recovering s = true) (h0 : h.part = 0) (hu : h.urg = false) :
    exec (.undefinedOpcode h opcode) s = .next (respond h opcode.toNat (undefinedSts h).w [] false s) := by
  change execUndefinedOpcode h opcode s = _
  have hp0 : (getPart s 0).present = true := h0 ▸ hp
  simp [execUndefinedOpcode, undefinedSts, hop, hr, h0, hu, hp0]

end

/-! ### The TAP controller -/

section
variable (e : TckEdge) (s : State)

/-- A capture loads the selected data register: IDCODE its bits, BYPASS one zero, the boundary register what stands on the pins. -/
theorem captureDr_eq : ∃ l f, captureDr s = { s with jtag := { s.jtag with drShift := l }, free := f } ∧
    (s.jtag.instr = .idcode → l = idcodeBits) ∧ (s.jtag.instr = .bypass → l = [false]) := by
  cases hi : s.jtag.instr
  case bypass => exact ⟨[false], s.free, by simp [captureDr, hi], by simp, by simp⟩
  case idcode => exact ⟨idcodeBits, s.free, by simp [captureDr, hi], by simp, by simp⟩
  all_goals exact ⟨bitList Config.boundaryLen (fresh s).1, s.free + 1, by simp [captureDr, hi, fresh], by simp, by simp⟩

/-- The instruction register after a rising edge: it shifts, or captures 01 with the rest by name (log entry 49). -/
def irAfterRise (e : TckEdge) (j : JtagBlk) : List Bool :=
  if j.tap = .shIr then j.irShift.drop 1 ++ [e.tdi]
  else if j.tap = .capIr then [true, false] ++ (List.range (Config.tapIrLen - 2)).map Config.tapIrCapture
  else j.irShift

/-- What a rising edge does: the controller moves, and the shift stage of one register acts. -/
theorem tapRise_eq : ∃ l f,
    tapRise e s = { s with jtag := { s.jtag with drShift := l, irShift := irAfterRise e s.jtag, tap := s.jtag.tap.next e.tms }, free := f } ∧
    (s.jtag.tap = .shDr → l = s.jtag.drShift.drop 1 ++ [e.tdi]) ∧
    (s.jtag.tap = .capDr → s.jtag.instr = .idcode → l = idcodeBits) ∧ (s.jtag.tap = .capDr → s.jtag.instr = .bypass → l = [false]) := by
  unfold tapRise irAfterRise
  cases ht : s.jtag.tap
  case capDr =>
    obtain ⟨l, f, hc, hid, hby⟩ := captureDr_eq s
    refine ⟨l, f, ?_, by simp, fun _ => hid, fun _ => hby⟩
    simp [hc, ht]
  case shDr => exact ⟨s.jtag.drShift.drop 1 ++ [e.tdi], s.free, by simp [ht, shiftIn], by simp, by simp, by simp⟩
  all_goals exact ⟨s.jtag.drShift, s.free, by simp [ht, shiftIn], by simp, by simp, by simp⟩

theorem tapRise_onlyIn : OnlyIn [.jtag, .free] s (tapRise e s) := by
  obtain ⟨l, f, hr, -⟩ := tapRise_eq e s
  rw [hr]
  intro b hb
  cases b <;> first | rfl | simp at hb

theorem tapFall_onlyIn : OnlyIn [.jtag] s (tapFall s) := by
  intro b hb
  cases b <;> first | rfl | simp at hb

/-- The controller moves on rising edges only. -/
theorem tapFall_tap : (tapFall s).jtag.tap = s.jtag.tap := by
  unfold tapFall
  cases ht : s.jtag.tap
  case updDr => cases hi : s.jtag.instr <;> simp [ht, hi]
  all_goals simp [ht]

variable {s}

theorem tapFall_reset (ht : s.jtag.tap = .reset) : (tapFall s).jtag.instr = .idcode ∧ (tapFall s).jtag.driving = false := by
  simp [tapFall, ht]

theorem tapFall_updIr (ht : s.jtag.tap = .updIr) :
    tapFall s = { s with jtag := { s.jtag with instr := tapInstr s.jtag.irShift, driving := decide (tapInstr s.jtag.irShift = .extest)
                                               tdo := none } } := by
  simp [tapFall, ht]

theorem tapFall_updDr (ht : s.jtag.tap = .updDr) :
    (tapFall s).jtag.boundary =
      if s.jtag.instr = .samplePreload ∨ s.jtag.instr = .extest then s.jtag.drShift else s.jtag.boundary := by
  cases hi : s.jtag.instr <;> simp [tapFall, ht, hi]

theorem tapFall_shDr (ht : s.jtag.tap = .shDr) : (tapFall s).jtag.tdo = some (s.jtag.drShift.headD false) := by
  simp [tapFall, ht]

end

section
variable {e : TckEdge} {s : State}

theorem exec_jtagTck_trst (ht : e.trstN = false) :
    exec (.jtagTck e) s = .next { s with jtag := { s.jtag with tap := .reset, instr := .idcode, driving := false, tdo := none } } := by
  change execJtagTck e s = _
  rw [execJtagTck, if_pos ht]

theorem exec_jtagTck_rise (ht : e.trstN = true) (hr : e.rising = true) : exec (.jtagTck e) s = .next (tapRise e s) := by
  change execJtagTck e s = _
  rw [execJtagTck, if_neg (by simp [ht]), if_pos hr]

theorem exec_jtagTck_fall (ht : e.trstN = true) (hr : e.rising = false) : exec (.jtagTck e) s = .next (tapFall s) := by
  change execJtagTck e s = _
  rw [execJtagTck, if_neg (by simp [ht]), if_neg (by simp [hr])]

end

/-- Settles O53: the two answers to an opcode that does not exist, and what each edge of TCK does to the TAP. -/
theorem undefinedOpcodesAndTapComplete : Obligations.UndefinedOpcodesAndTapComplete := by
  intro s
  refine ⟨fun h op hop hp hb ht => exec_undefinedOpcode_ready hop hp hb ht,
    fun h op hop hp hr h0 hu => exec_undefinedOpcode_recovery hop hp hr h0 hu, fun e ht => exec_jtagTck_trst ht, fun e ht hr => ?_, fun e ht hr htap => ?_, fun e ht hr => ?_⟩
  · obtain ⟨l, f, heq, hsh, hid, hby⟩ := tapRise_eq e s
    refine ⟨_, exec_jtagTck_rise ht hr, ?_, ?_, ?_, ?_, ?_, ?_, ?_, tapRise_onlyIn e s⟩ <;> rw [heq]
    · rfl
    · exact hsh
    · exact hid
    · exact hby
  · rw [exec_jtagTck_fall ht hr, tapFall_updIr htap]
  · exact ⟨_, exec_jtagTck_fall ht hr, tapFall_tap s, tapFall_reset, tapFall_updDr, tapFall_shDr, tapFall_onlyIn s⟩

end Sys2Proof.Machine

/-!
The cycle of the device clock and the servo's rate (3.1 and 3.2 of 03_timebase.md, R70, R73, R77).
-/

namespace Sys2Proof.Machine

/-! ### One cycle of the clock -/

/-- Nanoseconds and fraction after an advance, before a carry into the seconds, in units of 2^-32 ns. -/
def advanced (c : ClkBlk) : Nat := c.ns.toNat * 2 ^ 32 + c.frac.toNat + c.incrApplied.toNat

section
variable {c : ClkBlk}

/-- Below one second before an advance, below two after it. -/
theorem advanced_lt (hns : c.ns.toNat < 1000000000) : advanced c / 2 ^ 32 < 2000000000 := by
  have hf := c.frac.isLt
  have hi := c.incrApplied.isLt
  unfold advanced
  omega

theorem clockCycle_frac : (clockCycle c).frac.toNat = advanced c % 2 ^ 32 := BitVec.toNat_ofNat _ _

theorem clockCycle_noCarry (hn : advanced c / 2 ^ 32 < 1000000000) :
    (clockCycle c).sec = c.sec ∧ (clockCycle c).ns.toNat = advanced c / 2 ^ 32 := by
  unfold advanced at hn ⊢
  simp only [clockCycle, if_neg (Nat.not_le.2 hn), BitVec.toNat_ofNat, Nat.zero_mul, Nat.sub_zero]
  exact ⟨BitVec.add_zero _, Nat.mod_eq_of_lt (by omega)⟩

theorem clockCycle_carry (hns : c.ns.toNat < 1000000000) (hn : 1000000000 ≤ advanced c / 2 ^ 32) :
    (clockCycle c).sec = c.sec + 1 ∧ (clockCycle c).ns.toNat + 1000000000 = advanced c / 2 ^ 32 := by
  have hlt := advanced_lt hns
  unfold advanced at hn hlt ⊢
  simp only [clockCycle, if_pos hn, BitVec.toNat_ofNat, Nat.one_mul]
  refine ⟨rfl, ?_⟩
  rw [Nat.mod_eq_of_lt (by omega)]
  omega

/-- Device time in units of 2^-32 ns. -/
def fineTime (c : ClkBlk) : Nat := (c.sec.toNat * 1000000000 + c.ns.toNat) * 2 ^ 32 + c.frac.toNat

theorem fineTime_clockCycle (hns : c.ns.toNat < 1000000000) :
    fineTime (clockCycle c) = (fineTime c + c.incrApplied.toNat) % (2 ^ 48 * 1000000000 * 2 ^ 32) := by
  have hsec := c.sec.isLt
  have hf := clockCycle_frac (c := c)
  have hlt := advanced_lt hns
  have hsum : fineTime c + c.incrApplied.toNat = c.sec.toNat * 1000000000 * 2 ^ 32 + advanced c := by
    unfold fineTime advanced
    ring
  rw [hsum, fineTime, hf]
  rcases Nat.lt_or_ge (advanced c / 2 ^ 32) 1000000000 with hn | hn
  · obtain ⟨hs, hd⟩ := clockCycle_noCarry hn
    rw [hs, hd]
    omega
  · obtain ⟨hs, hd⟩ := clockCycle_carry hns hn
    have h1 : (c.sec + 1).toNat = (c.sec.toNat + 1) % 2 ^ 48 := BitVec.toNat_add _ _
    rw [hs, h1]
    omega

end

/-- Settles O15: the nanoseconds carry into the seconds or they do not. -/
theorem clockAdvancesByIncrement : Obligations.ClockAdvancesByIncrement := by
  intro c hns t d
  refine ⟨fineTime_clockCycle hns, clockCycle_ns c hns, ?_⟩
  rcases Nat.lt_or_ge (advanced c / 2 ^ 32) 1000000000 with hn | hn
  · exact .inl ((clockCycle_noCarry hn).imp_right Eq.symm)
  · exact .inr ((clockCycle_carry hns hn).imp_right Eq.symm)

/-! ### The slew of the increment (R73) -/

section
variable {a t : U40}

theorem slewIncr_below (h : a.toNat < t.toNat) : (slewIncr a t).toNat = a.toNat + 1 := by
  rw [slewIncr, if_pos h]
  bv_omega

theorem slewIncr_above (h : t.toNat < a.toNat) : (slewIncr a t).toNat + 1 = a.toNat := by
  rw [slewIncr, if_neg (by omega), if_pos h]
  bv_omega

theorem slewIncr_self : slewIncr t t = t := by
  rw [slewIncr, if_neg (Nat.lt_irrefl _), if_neg (Nat.lt_irrefl _)]

/-- The slewed increment lies between the increment and its target. -/
theorem slewIncr_between :
    min a.toNat t.toNat ≤ (slewIncr a t).toNat ∧ (slewIncr a t).toNat ≤ max a.toNat t.toNat := by
  rcases Nat.lt_trichotomy a.toNat t.toNat with h | h | h
  · have := slewIncr_below h
    omega
  · rw [BitVec.eq_of_toNat_eq h, slewIncr_self]
    omega
  · have := slewIncr_above h
    omega

end

@[simp] theorem clockCycle_incrApplied (c : ClkBlk) : (clockCycle c).incrApplied = slewIncr c.incrApplied c.incrTarget := rfl
/-- Time and INCR_APPLIED as a cycle writes them, by name: the rest of the rate stands whatever they are. -/
theorem rate_of_timeUpdate (c : ClkBlk) (sec : U48) (ns : BitVec 30) (frac : U32) (adv : Nat) (incr : U40) :
    ({ c with sec := sec, ns := ns, frac := frac, adv := adv, incrApplied := incr } : ClkBlk).incrTarget = c.incrTarget ∧
    ({ c with sec := sec, ns := ns, frac := frac, adv := adv, incrApplied := incr } : ClkBlk).incrFreq = c.incrFreq := ⟨rfl, rfl⟩

@[simp] theorem clockCycle_incrTarget (c : ClkBlk) : (clockCycle c).incrTarget = c.incrTarget := (rate_of_timeUpdate c _ _ _ _ _).1
@[simp] theorem clockCycle_incrFreq (c : ClkBlk) : (clockCycle c).incrFreq = c.incrFreq := (rate_of_timeUpdate c _ _ _ _ _).2

/-- Settles O16: INCR_APPLIED is slewed once in the cycle, and the rest of the rate stands. -/
theorem incrementMovesByOneLsb : Obligations.IncrementMovesByOneLsb := by
  intro c
  simp only [clockCycle_incrApplied]
  refine ⟨clockCycle_incrTarget c, clockCycle_incrFreq c, slewIncr_below, slewIncr_above, fun h => ?_, fun lo hi hla hah hlt hth => ?_⟩
  · rw [h, slewIncr_self]
  · obtain ⟨hmin, hmax⟩ := slewIncr_between (a := c.incrApplied) (t := c.incrTarget)
    omega

/-! ### The servo's rate (R77) -/

@[simp] theorem raise_clk (code sev : Nat) (params : Bytes) (o : Option HP) (s : State) : (raise code sev params o s).clk = s.clk :=
  raise_onlyIn code sev params o s .clk (by decide)

@[simp] theorem raiseIf_clk (b : Bool) (code sev : Nat) (params : Bytes) (o : Option HP) (s : State) :
    (raiseIf b code sev params o s).clk = s.clk := by
  cases b
  · rfl
  · exact raise_clk _ _ _ _ _

theorem ppmLsb_200 : ppmLsb 200 = 1717986 := by decide

theorem ppmLsb_pos {ppm : Nat} (h : 1 ≤ ppm) : 1 ≤ ppmLsb ppm := by
  unfold ppmLsb
  omega

theorem ppmLsb_le {ppm : Nat} (h : ppm ≤ 500) : ppmLsb ppm ≤ 4294967 := by
  unfold ppmLsb
  omega

/-- INCR_FREQ of an estimate, confined to 200 ppm about nominal. -/
def confinedFreq (est : Nat) : Nat :=
  if est < 2 ^ 33 - ppmLsb 200 then 2 ^ 33 - ppmLsb 200 else if 2 ^ 33 + ppmLsb 200 < est then 2 ^ 33 + ppmLsb 200 else est

theorem confinedFreq_bounds (est : Nat) :
    2 ^ 33 - ppmLsb 200 ≤ confinedFreq est ∧ confinedFreq est ≤ 2 ^ 33 + ppmLsb 200 := by
  unfold confinedFreq
  split
  · omega
  · split <;> omega

/-- The size of the phase term at a free value, from 1 LSB to the slew bound where there is an offset. -/
def phaseSize (offset : Int) (slewPpm y : Nat) : Nat := if offset = 0 then 0 else min (ppmLsb slewPpm) (y + 1)

theorem phaseSize_le (offset : Int) (slewPpm y : Nat) : phaseSize offset slewPpm y ≤ ppmLsb slewPpm := by
  unfold phaseSize
  split <;> omega

theorem phaseSize_pos {offset : Int} {slewPpm y : Nat} (h : offset ≠ 0) (hs : 1 ≤ slewPpm) : 1 ≤ phaseSize offset slewPpm y := by
  have := ppmLsb_pos hs
  rw [phaseSize, if_neg h]
  omega

/-- The rate after an update: a confined INCR_FREQ, and INCR_TARGET off it by the phase term, against the offset. -/
theorem servoRate_rate (offset : Int) (s : State) : ∃ est y,
    (servoRate offset s).clk.incrFreq = BitVec.ofNat 40 (confinedFreq est) ∧
    (servoRate offset s).clk.incrTarget = BitVec.ofNat 40 (if 0 < offset then confinedFreq est - phaseSize offset s.clk.slewPpm y
      else confinedFreq est + phaseSize offset s.clk.slewPpm y) ∧
    (servoRate offset s).clk.incrApplied = s.clk.incrApplied := by
  refine ⟨(fresh s).1 % 2 ^ 40, (fresh (fresh s).2).1, ?_⟩
  simp only [servoRate, raiseIf_clk]
  exact ⟨rfl, rfl, rfl⟩

/-- Settles O17: the confined estimate and the bounded phase term, without overflow of the 40-bit increments. -/
theorem servoKeepsRateConfined : Obligations.ServoKeepsRateConfined := by
  intro offset s hlo hhi c
  obtain ⟨est, y, hfreq, htarget, happ⟩ := servoRate_rate offset s
  obtain ⟨hf1, hf2⟩ := confinedFreq_bounds est
  have hm := phaseSize_le offset s.clk.slewPpm y
  have hb := ppmLsb_le hhi
  rw [ppmLsb_200] at hf1 hf2 ⊢
  have hfn : c.incrFreq.toNat = confinedFreq est := by
    rw [hfreq, BitVec.toNat_ofNat]
    omega
  have htn : c.incrTarget.toNat = if 0 < offset then confinedFreq est - phaseSize offset s.clk.slewPpm y
      else confinedFreq est + phaseSize offset s.clk.slewPpm y := by
    rw [htarget, BitVec.toNat_ofNat]
    split <;> omega
  refine ⟨rfl, ?_, ?_, ?_, ?_, fun h0 => ?_, fun hpos => ?_, fun hneg => ?_, happ⟩
  · omega
  · omega
  · rw [hfn, htn]
    split <;> omega
  · rw [hfn, htn]
    split <;> omega
  · have hzero : phaseSize offset s.clk.slewPpm y = 0 := if_pos h0
    rw [htarget, hfreq, hzero, if_neg (by omega), Nat.add_zero]
  · have := phaseSize_pos (y := y) (show offset ≠ 0 by omega) hlo
    rw [hfn, htn, if_pos hpos]
    omega
  · have := phaseSize_pos (y := y) (show offset ≠ 0 by omega) hlo
    rw [hfn, htn, if_neg (by omega)]
    omega

end Sys2Proof.Machine

/-!
The commands of group 0x03 (3.2 to 3.7 of 03_timebase.md, R74, R77 to R80, R82, R87, R88, R94, R99, R100).
-/

namespace Sys2Proof.Machine

section
variable (h : Hdr) (s : State)

theorem exec_timeSourceConfig (p : TimeSourceConfigP) : exec (.timeSourceConfig h p) s = execTimeSourceConfig h p s := rfl
theorem exec_timeSlewConfig (p : TimeSlewConfigP) : exec (.timeSlewConfig h p) s = execTimeSlewConfig h p s := rfl
theorem exec_timeHoldoverConfig (p : TimeHoldoverConfigP) : exec (.timeHoldoverConfig h p) s = execTimeHoldoverConfig h p s := rfl
theorem exec_timeUtcOffset (p : TimeUtcOffsetP) : exec (.timeUtcOffset h p) s = execTimeUtcOffset h p s := rfl
theorem exec_timeStep (p : TimeStepP) : exec (.timeStep h p) s = execTimeStep h p s := rfl
theorem exec_gaConfig (p : GaConfigP) : exec (.gaConfig h p) s = execGaConfig h p s := rfl
theorem exec_ppsOutConfig (p : PpsOutConfigP) : exec (.ppsOutConfig h p) s = execPpsOutConfig h p s := rfl
theorem exec_timeRead : exec (.timeRead h) s = execTimeRead h s := rfl

/-- The confined target does not overflow its 40 bits: it moves down, or up to a bound that INCR_FREQ covers. -/
theorem confineSlew_incrTarget (c : ClkBlk) :
    (confineSlew c).incrTarget.toNat =
      max (c.incrFreq.toNat - ppmLsb c.slewPpm) (min (c.incrFreq.toNat + ppmLsb c.slewPpm) c.incrTarget.toNat) := by
  have hf := c.incrFreq.isLt
  have ht := c.incrTarget.isLt
  simp only [confineSlew, BitVec.toNat_ofNat]
  exact Nat.mod_eq_of_lt (by omega)

theorem confineSlew_of_within {c : ClkBlk} (hup : c.incrTarget.toNat ≤ c.incrFreq.toNat + ppmLsb c.slewPpm)
    (hdown : c.incrFreq.toNat ≤ c.incrTarget.toNat + ppmLsb c.slewPpm) : (confineSlew c).incrTarget = c.incrTarget := by
  apply BitVec.eq_of_toNat_eq
  rw [confineSlew_incrTarget]
  omega

end

/-- Settles O11: each command is admitted by its own checks, and its body then runs on the counted state, whose clock is that of the state. -/
theorem timeCommandsComplete : Obligations.TimeCommandsComplete := by
  intro h s u
  refine ⟨?_, ?_, ?_, ?_, ?_, ?_, ?_, ?_, ?_, ?_⟩
  case refine_1 =>
    intro p a hen hpair hdom hclass hhold hrsv
    exact exec_admitted (exec_timeSourceConfig _ _ _) rfl a (decide_eq_true ⟨hen, hpair, hdom, hclass, hhold, hrsv⟩) rfl rfl
  case refine_2 =>
    intro p a hs1 hs2 hrsv ha1 ha2
    exact exec_admitted (exec_timeSlewConfig _ _ _) rfl a (decide_eq_true ⟨hs1, hs2, hrsv, ha1, ha2⟩) rfl rfl
  case refine_3 =>
    intro c
    refine ⟨?_, ?_, fun hup hdown => confineSlew_of_within hup hdown⟩
    · rw [confineSlew_incrTarget]
      omega
    · rw [confineSlew_incrTarget]
      omega
  case refine_4 =>
    intro p a hh1 hh2 he1 he2
    exact exec_admitted (exec_timeHoldoverConfig _ _ _) rfl a (decide_eq_true ⟨hh1, hh2, he1, he2⟩) rfl rfl
  case refine_5 =>
    intro p a hutc hleap hrsv htai hptp
    have hlt : p.leap.toNat < 3 := by rw [hleap]; decide
    refine ⟨_, rfl, exec_admitted (exec_timeUtcOffset _ _ _) rfl a ?_ ((if_neg hptp).trans (if_pos hleap)) rfl⟩
    refine decide_eq_true ⟨hutc, hlt, hrsv, ?_⟩
    rw [if_pos hleap]
    exact htai
  case refine_6 =>
    intro p a hutc hleap hrsv hday hptp
    have hlt : p.leap.toNat < 3 := by rcases hleap with hl | hl <;> rw [hl] <;> decide
    have hne : ¬ p.leap = 0 := by rcases hleap with hl | hl <;> rw [hl] <;> decide
    refine exec_admitted (exec_timeUtcOffset _ _ _) rfl a ?_ ((if_neg hptp).trans (if_neg hne)) rfl
    refine decide_eq_true ⟨hutc, hlt, hrsv, ?_⟩
    rw [if_neg hne]
    exact hday
  case refine_7 =>
    intro p a hmode hrsv habs hrel hge hlt hleap
    have hnear : ¬ nearLeap (countCmd h s) = true := by simp [hleap]
    refine ⟨_, rfl, exec_admitted (exec_timeStep _ _ _) rfl a ?_ (if_neg hnear) rfl⟩
    refine decide_eq_true ⟨hmode, hrsv, ?_, hge, hlt⟩
    split
    · exact habs ‹_›
    · exact hrel (by bv_omega)
  case refine_8 =>
    intro p a hen hmp hnom hs1 hs2
    refine ⟨_, rfl, exec_admitted (exec_gaConfig _ _ _) rfl a (decide_eq_true ⟨hen, hmp, hnom, hs1, hs2⟩) ?_ rfl⟩
    simp only [decide_eq_true_eq]
    rfl
  case refine_9 =>
    intro p a hen hrsv hw1 hw2
    exact exec_admitted (exec_ppsOutConfig _ _ _) rfl a (decide_eq_true ⟨hen, hrsv, hw1, hw2⟩) rfl rfl
  case refine_10 =>
    intro a
    exact exec_admitted (exec_timeRead _ _) rfl a rfl rfl rfl

end Sys2Proof.Machine

/-!
The time sources (3.2 and 3.3 of 03_timebase.md, Table 3.2, R75, R80 to R87): Announce, Sync and the peer delay, PPS_IN, IRIG_IN, and the
hold-off of a preferred source.
-/

namespace Sys2Proof.Machine

section
variable (s : State)

theorem exec_ptpAnnounceRx (port : BitVec 4) (m : AnnounceMsg) : exec (.ptpAnnounceRx port m) s = execPtpAnnounceRx port m s := rfl
theorem exec_ptpSyncRx (port : BitVec 4) (m : SyncMsg) : exec (.ptpSyncRx port m) s = execPtpSyncRx port m s := rfl
theorem exec_pdelayReqRx (m : PdelayReq) : exec (.pdelayReqRx m) s = execPdelayReqRx m s := rfl
theorem exec_pdelayRespRx (m : PdelayResp) : exec (.pdelayRespRx m) s = execPdelayRespRx m s := rfl
theorem exec_pdelayReqTx (port : BitVec 4) : exec (.pdelayReqTx port) s = execPdelayReqTx port s := rfl
theorem exec_ptpMasterTx (port : BitVec 4) : exec (.ptpMasterTx port) s = execPtpMasterTx port s := rfl
theorem exec_announceReceiptTimeout (port : BitVec 4) : exec (.announceReceiptTimeout port) s = execAnnounceReceiptTimeout port s := rfl
theorem exec_ppsInEdge : exec .ppsInEdge s = execPpsInEdge s := rfl
theorem exec_ppsInLoss : exec .ppsInLoss s = execPpsInLoss s := rfl
theorem exec_irigFrame (f : IrigFrame) : exec (.irigFrame f) s = execIrigFrame f s := rfl
theorem exec_irigLoss : exec .irigLoss s = execIrigLoss s := rfl
theorem exec_srcHoldoffExpiry : exec .srcHoldoffExpiry s = execSrcHoldoffExpiry s := rfl
theorem exec_tqBandElapsed : exec .tqBandElapsed s = execTqBandElapsed s := rfl

end

/-! ### PPS_IN (R80, R85) -/

/-- The edge stands closer than 500 ms to the one before it. -/
def ppsClose (s : State) : Bool := match s.clk.ppsEdge with
  | some t => decide (elNs s < t + 500000000)
  | none => false

/-- The edge stands within 100 µs of a second after the accepted one before it. -/
def ppsNear (s : State) : Bool := match s.clk.ppsAcc with
  | some t => decide (absDiff (taiNs s) (t + 1000000000) < 100000)
  | none => false

/-- The run of near edges with this one. -/
def ppsRunWith (s : State) : Nat := if ppsNear s then s.clk.ppsRun + 1 else 1

/-- The edge is noted, accepted or not. -/
def ppsSeen (s : State) : State := { s with clk := { s.clk with ppsEdge := some (elNs s) } }

/-- The edge at s accepted in s1, which holds what a broken run has left. -/
def ppsAccept (s s1 : State) : State :=
  { s1 with clk := { s1.clk with ppsAcc := some (taiNs s), ppsAccEl := elNs s, ppsRun := ppsRunWith s } }

/-- The source is qualified with the accepted edge. -/
def ppsQualifies (s s1 : State) : Bool :=
  s1.clk.ppsQual || (decide (4 ≤ ppsRunWith s) && s.clk.timeValid && s.clk.srcEn.getLsbD 1)

/-- The update of a qualified source: the edge marks the nearest second. -/
def ppsUpdate (s s1 : State) : State :=
  servoUpdate .pps ((taiNs s : Int) - (((taiNs s + 500000000) / 1000000000 * 1000000000 : Nat) : Int))
    (selectSrc { ppsAccept s s1 with clk := { (ppsAccept s s1).clk with ppsQual := true, ppsLast := BitVec.ofNat 64 (taiNs s) } })

/-- What an edge that is not too close does, s1 as in `ppsAccept`. -/
def ppsTake (s s1 : State) : State := if ppsQualifies s s1 then ppsUpdate s s1 else ppsAccept s s1

/-- PPS_IN_EDGE in the terms above. -/
theorem exec_ppsInEdge_eq (s : State) :
    exec .ppsInEdge s = .next (if s.dev.boot ≠ .ready then s
      else if ppsClose s then bump 0x03000138 (ppsSeen s)
      else ppsTake s (if s.clk.ppsQual ∧ ppsNear s = false then
          loseSrc .pps { ppsSeen s with clk := { (ppsSeen s).clk with ppsQual := false } }
        else ppsSeen s)) := rfl

section
variable {s : State}

theorem ppsClose_of_apart (hapart : ∀ t, s.clk.ppsEdge = some t → t + 500000000 ≤ elNs s) : ppsClose s = false := by
  unfold ppsClose
  cases he : s.clk.ppsEdge with
  | none => rfl
  | some t => exact decide_eq_false (Nat.not_lt.2 (hapart t he))

theorem ppsClose_of_some {t : Nat} (he : s.clk.ppsEdge = some t) (hlt : elNs s < t + 500000000) : ppsClose s = true := by
  simp only [ppsClose, he, decide_eq_true hlt]

theorem ppsNear_of_some {t : Nat} (ha : s.clk.ppsAcc = some t) (hlt : absDiff (taiNs s) (t + 1000000000) < 100000) :
    ppsNear s = true := by
  simp only [ppsNear, ha, decide_eq_true hlt]

theorem ppsRunWith_le : ppsRunWith s ≤ s.clk.ppsRun + 1 := by
  unfold ppsRunWith
  split <;> omega

/-- A spaced edge that breaks no qualified run is accepted on the state itself. -/
theorem exec_ppsInEdge_spaced (hb : s.dev.boot = .ready) (hc : ppsClose s = false) (hk : ¬ (s.clk.ppsQual = true ∧ ppsNear s = false)) :
    exec .ppsInEdge s = .next (ppsTake s (ppsSeen s)) := by
  rw [exec_ppsInEdge_eq, if_neg (not_not.2 hb), if_neg (by simp [hc]), if_neg hk]

theorem ppsTake_unqualified (hq : s.clk.ppsQual = false) (hrun : s.clk.ppsRun < 3) :
    ppsTake s (ppsSeen s) = ppsAccept s (ppsSeen s) := by
  have hle := ppsRunWith_le (s := s)
  have hfew : ¬ 4 ≤ ppsRunWith s := by omega
  rw [ppsTake, if_neg (by simp [ppsQualifies, ppsSeen, hq, hfew])]

theorem ppsTake_long (hn : ppsNear s = true) (hrun : 3 ≤ s.clk.ppsRun) (hv : s.clk.timeValid = true) (hen : s.clk.srcEn.getLsbD 1 = true) :
    ppsTake s (ppsSeen s) = ppsUpdate s (ppsSeen s) := by
  have hmany : 4 ≤ ppsRunWith s := by
    rw [ppsRunWith, if_pos hn]
    omega
  rw [ppsTake, if_pos]
  rw [ppsQualifies, decide_eq_true hmany, hv, hen]
  exact Bool.or_true _

theorem withClk_onlyIn (c : ClkBlk) : OnlyIn [.clk] s { s with clk := c } := by
  intro b hb
  cases b <;> first | rfl | simp at hb

end

/-! ### IRIG_IN (R80, R86) -/

/-- The second a frame names: TAI, or without a year that of the frame's own year. -/
def irigSecond (f : IrigFrame) (s : State) : Nat := (irigTai f s).getD (irigUtc f 1970).toNat

/-- The frame names the second after the one before it. -/
def irigNext (f : IrigFrame) (s : State) : Bool := match s.clk.irigSec with
  | some x => decide (irigSecond f s = x + 1)
  | none => false

/-- The run of consecutive frames with this one. -/
def irigRunWith (f : IrigFrame) (s : State) : Nat := if irigNext f s then s.clk.irigRun + 1 else 1

/-- The frame at s counted in s1, which holds what a broken run has left. -/
def irigCount (f : IrigFrame) (s s1 : State) : State :=
  { s1 with clk := { s1.clk with irigSec := some (irigSecond f s), irigRun := irigRunWith f s, irigEl := elNs s, irigLast := some f } }

/-- The UTC offset a frame sets. -/
def irigUtcSet (f : IrigFrame) (s1 : State) : Int := match f.extUtc with
  | some x => x.toInt
  | none => s1.clk.utcSet

/-- What a frame's extension announces. -/
def irigLeap (f : IrigFrame) (s : State) : State := match f.ext with
  | some (_, true, del) => if s.clk.ptpUtcValid ∨ s.clk.leap.isSome then s else announceLeap del (dayEnd s) 1 s
  | _ => s

/-- The update of a qualified source. -/
def irigUpdate (f : IrigFrame) (s s1 : State) : State :=
  servoUpdate .irig ((taiNs s : Int) - (f.ageNs.toNat : Int) - ((irigSecond f s * 1000000000 : Nat) : Int))
    (irigLeap f (applyUtc (selectSrc
      { irigCount f s s1 with clk := { (irigCount f s s1).clk with irigQual := true, utcSet := irigUtcSet f s1 } })))

/-- What a good frame does, s1 as in `irigCount`. -/
def irigTake (f : IrigFrame) (s s1 : State) : State :=
  if s1.clk.irigQual ∨ (3 ≤ irigRunWith f s ∧ (irigTai f s).isSome ∧ s.clk.srcEn.getLsbD 2) then irigUpdate f s s1 else irigCount f s s1

/-- IRIG_FRAME in the terms above. -/
theorem exec_irigFrame_eq (f : IrigFrame) (s : State) :
    exec (.irigFrame f) s = .next (if s.dev.boot ≠ .ready then s
      else if f.good = false then bump 0x03000140 s
      else irigTake f s (if s.clk.irigQual ∧ irigNext f s = false then loseSrc .irig { s with clk := { s.clk with irigQual := false } }
        else s)) := rfl

section
variable {f : IrigFrame} {s : State}

theorem exec_irigFrame_bad (hb : s.dev.boot = .ready) (hg : f.good = false) : exec (.irigFrame f) s = .next (bump 0x03000140 s) := by
  rw [exec_irigFrame_eq, if_neg (not_not.2 hb), if_pos hg]

/-- A good frame that breaks no qualified run is counted on the state itself. -/
theorem exec_irigFrame_good (hb : s.dev.boot = .ready) (hg : f.good = true) (hk : ¬ (s.clk.irigQual = true ∧ irigNext f s = false)) :
    exec (.irigFrame f) s = .next (irigTake f s s) := by
  rw [exec_irigFrame_eq, if_neg (not_not.2 hb), if_neg (by simp [hg]), if_neg hk]

theorem irigNext_iff : irigNext f s = true ↔ s.clk.irigSec.map (· + 1) = some (irigSecond f s) := by
  unfold irigNext
  cases s.clk.irigSec with
  | none => simp
  | some x => simp [eq_comm]

theorem irigRunWith_eq :
    irigRunWith f s = if s.clk.irigSec.map (· + 1) = some (irigSecond f s) then s.clk.irigRun + 1 else 1 := by
  simp only [irigRunWith, irigNext_iff]

theorem irigRunWith_le_two (hrun : s.clk.irigSec ≠ none → s.clk.irigRun < 2) : irigRunWith f s ≤ 2 := by
  rw [irigRunWith_eq]
  cases hs : s.clk.irigSec with
  | none => simp
  | some x =>
    have hlt := hrun (by simp [hs])
    split <;> omega

theorem irigTake_unqualified (hq : s.clk.irigQual = false) (hrun : s.clk.irigSec ≠ none → s.clk.irigRun < 2) :
    irigTake f s s = irigCount f s s := by
  have hle := irigRunWith_le_two (f := f) hrun
  have hfew : ¬ 3 ≤ irigRunWith f s := by omega
  rw [irigTake, if_neg (by simp [hq, hfew])]

theorem irigTake_long (hn : irigNext f s = true) (hrun : 2 ≤ s.clk.irigRun) (hk : (irigTai f s).isSome = true)
    (hen : s.clk.srcEn.getLsbD 2 = true) : irigTake f s s = irigUpdate f s s := by
  have hmany : 3 ≤ irigRunWith f s := by
    rw [irigRunWith, if_pos hn]
    omega
  rw [irigTake, if_pos (.inr ⟨hmany, hk, hen⟩)]

/-- A frame without an extension announces no leap second. -/
theorem irigLeap_plain (he : f.ext = none) (s : State) : irigLeap f s = s := by
  simp only [irigLeap, he]

theorem irigUtcSet_plain (hu : f.extUtc = none) : irigUtcSet f s = s.clk.utcSet := by
  simp only [irigUtcSet, hu]

end

/-- Settles O12: each row's hypotheses are its conditions; of the edges and frames that decide a run, `ppsTake` and `irigTake` say what they do. -/
theorem timeSourceEventsComplete : Obligations.TimeSourceEventsComplete := by
  intro s
  refine ⟨?_, ?_, ?_, ?_, ?_, ?_, ?_, ?_, ?_, ?_, ?_, ?_, ?_, ?_, ?_, ?_, ?_, ?_⟩
  case refine_1 =>
    intro port m hheld hb hno hport hdom hscale
    rw [exec_ptpAnnounceRx, execPtpAnnounceRx, if_neg (by simp [hheld]), if_neg (by simp [hno]), if_pos ⟨hb, hport, hdom, hscale⟩]
  case refine_2 =>
    intro port m hheld hmaster
    rw [exec_ptpAnnounceRx, execPtpAnnounceRx, if_neg (by simp [hheld]), if_pos hmaster]
  case refine_3 =>
    intro port m o hheld hb hslave hqual hmaster hid hsp hdom
    simp only [exec_ptpSyncRx, execPtpSyncRx, hmaster]
    rw [if_neg (by simp [hheld]), if_pos ⟨hb, hslave, hqual, decide_eq_true ⟨hid, hsp⟩, hdom⟩]
  case refine_4 =>
    intro m hheld hb hport
    rw [exec_pdelayReqRx, execPdelayReqRx, if_neg (by simp [hheld]), if_pos ⟨hb, hport⟩]
  case refine_5 =>
    intro m t hheld hport hreq hseq
    simp only [exec_pdelayRespRx, execPdelayRespRx, hreq]
    rw [if_neg (by simp [hheld]), if_pos ⟨hport, hseq⟩]
  case refine_6 =>
    intro port hb hport hlink hdue
    rw [exec_pdelayReqTx, execPdelayReqTx, if_pos ⟨hb, hport, hlink, hdue⟩]
  case refine_7 =>
    intro port hb hport hlink hdue
    refine ⟨_, rfl, ?_⟩
    rw [exec_ptpMasterTx, execPtpMasterTx, if_pos ⟨hb, hport, hlink, hdue⟩]
  case refine_8 =>
    intro port m hmaster hport hdue
    refine ⟨_, rfl, ?_⟩
    simp only [exec_announceReceiptTimeout, execAnnounceReceiptTimeout, hmaster, if_pos (And.intro hport hdue)]
  case refine_9 =>
    intro hb hapart hq hrun
    refine ⟨_, exec_ppsInEdge_spaced hb (ppsClose_of_apart hapart) (by simp [hq]), ?_⟩
    rw [ppsTake_unqualified hq hrun]
    refine ⟨rfl, rfl, hq, ?_, withClk_onlyIn _⟩
    change ppsRunWith s = _
    unfold ppsRunWith ppsNear
    cases s.clk.ppsAcc with
    | none => rfl
    | some x => simp only [decide_eq_true_eq]
  case refine_10 =>
    intro t hb hedge hlt
    rw [exec_ppsInEdge_eq, if_neg (not_not.2 hb), if_pos (ppsClose_of_some hedge hlt)]
    rfl
  case refine_11 =>
    intro a hb hapart hacc hlt hrun hv hen
    have hn := ppsNear_of_some hacc hlt
    rw [exec_ppsInEdge_spaced hb (ppsClose_of_apart hapart) (by simp [hn]), ppsTake_long hn hrun hv hen]
    simp only [ppsUpdate, ppsAccept, ppsSeen, ppsRunWith, if_pos hn]
  case refine_12 =>
    intro hq hdue
    rw [exec_ppsInLoss, execPpsInLoss, if_pos ⟨hq, hdue⟩]
  case refine_13 =>
    intro f hb hg
    exact exec_irigFrame_bad hb hg
  case refine_14 =>
    intro f hb hg hq hrun
    rw [exec_irigFrame_good hb hg (by simp [hq]), irigTake_unqualified hq hrun, irigCount, irigRunWith_eq]
    rfl
  case refine_15 =>
    intro f x hb hg htai hsec hrun hen hext hutc
    have hsecond : irigSecond f s = x + 1 := by rw [irigSecond, htai]; rfl
    have hn : irigNext f s = true := by rw [irigNext_iff, hsec, hsecond]; rfl
    refine ⟨_, exec_irigFrame_good hb hg (by simp [hn]), ?_⟩
    rw [irigTake_long hn hrun (by rw [htai]; rfl) hen, irigUpdate, irigLeap_plain hext, irigUtcSet_plain hutc]
    simp only [irigCount, hsecond, irigRunWith, if_pos hn]
  case refine_16 =>
    intro hq hdue
    rw [exec_irigLoss, execIrigLoss, if_pos ⟨hq, hdue⟩]
  case refine_17 =>
    intro x t hbetter hdue hqual
    simp only [exec_srcHoldoffExpiry, execSrcHoldoffExpiry, hbetter, if_pos hdue, if_pos hqual]
  case refine_18 =>
    intro hb
    rw [exec_tqBandElapsed, execTqBandElapsed, if_pos hb]

end Sys2Proof.Machine

/-!
What device time brings about at its instants, and a tick of the grid-angle clock (3.4 to 3.7 of 03_timebase.md, R79, R90 to R96, R98, R99).
-/

namespace Sys2Proof.Machine

section
variable (s : State)

theorem exec_timeStepApply : exec .timeStepApply s = execTimeStepApply s := rfl
theorem exec_leapPendingStart : exec .leapPendingStart s = execLeapPendingStart s := rfl
theorem exec_leapApplied : exec .leapApplied s = execLeapApplied s := rfl
theorem exec_leapOccurredEnd : exec .leapOccurredEnd s = execLeapOccurredEnd s := rfl
theorem exec_ppsOutRise : exec .ppsOutRise s = execPpsOutRise s := rfl
theorem exec_ppsOutFall : exec .ppsOutFall s = execPpsOutFall s := rfl
theorem exec_timedActionFire : exec .timedActionFire s = execTimedActionFire s := rfl
theorem exec_gaTick (ts : U64) : exec (.gaTick ts) s = execGaTick ts s := rfl

end

/-- Settles O13: each row is due by its hypotheses, and what it then does is its effect. -/
theorem timeInstantsComplete : Obligations.TimeInstantsComplete := by
  intro s
  refine ⟨fun r rest hsteps => ⟨_, rfl, ?_⟩, fun l hl hdue => ?_, fun l hl hdue => ⟨_, rfl, ?_⟩, fun hocc hend => ?_,
    fun hvalid hen hns hsec => ?_, fun hout hdue => ?_, fun hvalid => ?_⟩
  · rw [exec_timeStepApply, execTimeStepApply, hsteps]
  · simp only [exec_leapPendingStart, execLeapPendingStart, hl, if_pos hdue]
  · simp only [exec_leapApplied, execLeapApplied, hl, if_pos hdue]
  · rw [exec_leapOccurredEnd, execLeapOccurredEnd, if_pos ⟨hocc, hend⟩]
  · rw [exec_ppsOutRise, execPpsOutRise, if_pos ⟨hvalid, hen, hns, hsec⟩]
  · rw [exec_ppsOutFall, execPpsOutFall, if_pos ⟨hout, hdue⟩]
  · rw [exec_timedActionFire, execTimedActionFire, if_neg (by simp [hvalid])]

/-! ### A tick of the grid-angle clock -/

section
variable {s : State} {ts : U64}

/-- A tick that is due and carries its own instant is taken. -/
theorem gaTick_taken (hb : s.dev.boot = .ready) (hdue : gaDue s = true) (hts : ts = BitVec.ofNat 64 (taiNs s)) :
    ¬ (s.dev.boot ≠ .ready ∨ gaDue s = false ∨ ts ≠ BitVec.ofNat 64 (taiNs s)) := by
  simp [hb, hdue, hts]

end

/-- Settles O14: a tick is counted and stamped, the loss of its reference decides its state, and a half cycle leaves a mark. -/
theorem gridAngleTickCompletes : Obligations.GridAngleTickCompletes := by
  intro s
  refine ⟨fun ts hb hdue hts hhalf => ⟨_, rfl, _, rfl, ?_⟩, fun ts hb hdue hts hhalf => ⟨_, rfl, _, rfl, _, rfl, ?_⟩⟩
  · simp only [exec_gaTick, execGaTick, if_neg (gaTick_taken hb hdue hts), decide_eq_true_eq, if_neg hhalf]
  · simp only [exec_gaTick, execGaTick, if_neg (gaTick_taken hb hdue hts), decide_eq_true_eq, if_pos hhalf]

end Sys2Proof.Machine

/-!
The ports on their way to a frame (4.1, 4.3, 4.6 of 04_network_ports.md): what raising an event, counting and starting a frame leave of a
port, and a half-duplex link of M0 (R103).
-/

namespace Sys2Proof.Machine

/-! ### Reading a port -/

section
variable (s : State) (k : Nat)

@[simp] theorem getPort_setPort (p : Port) : getPort (setPort k p s) k = p := by
  simp [getPort, setPort, tgetD, tget_tset]

@[simp] theorem getPort_modPort (f : Port → Port) : getPort (modPort k f s) k = f (getPort s k) := getPort_setPort s k _

@[simp] theorem getPort_bump (a : Nat) : getPort (bump a s) k = getPort s k := rfl
@[simp] theorem getPort_fresh : getPort (fresh s).2 k = getPort s k := rfl
@[simp] theorem getPort_flagFrame (r : Nat) (g : TxFlags → TxFlags) : getPort (flagFrame r g s) k = getPort s k := rfl

@[simp] theorem raise_net (code sev : Nat) (params : Bytes) (o : Option HP) : (raise code sev params o s).net = s.net :=
  raise_onlyIn code sev params o s .net (by decide)

@[simp] theorem getPort_raise (code sev : Nat) (params : Bytes) (o : Option HP) : getPort (raise code sev params o s) k = getPort s k := by
  simp only [getPort, raise_net]

@[simp] theorem getPort_deferTimed (j r : Nat) : getPort (deferTimed j r s) k = getPort s k := by
  unfold deferTimed
  split
  · split <;> rfl
  · rfl

end

/-! ### Starting a frame leaves the port's link (R103) -/

/-- A port has the link it had: up or down, and reported half duplex or not. -/
def SameLink (k : Nat) (s t : State) : Prop :=
  (getPort t k).link = (getPort s k).link ∧ (getPort t k).halfDuplex = (getPort s k).halfDuplex

section
variable {k : Nat} {s t u : State}

theorem SameLink.refl (k : Nat) (s : State) : SameLink k s s := ⟨rfl, rfl⟩

theorem SameLink.trans (h : SameLink k s t) (g : SameLink k t u) : SameLink k s u := ⟨g.1.trans h.1, g.2.trans h.2⟩

theorem sameLink_of_getPort_eq (h : getPort t k = getPort s k) : SameLink k s t := ⟨congrArg Port.link h, congrArg Port.halfDuplex h⟩

theorem modPort_sameLink {f : Port → Port} (hl : (f (getPort s k)).link = (getPort s k).link)
    (hd : (f (getPort s k)).halfDuplex = (getPort s k).halfDuplex) : SameLink k s (modPort k f s) := by
  rw [SameLink, getPort_modPort]
  exact ⟨hl, hd⟩

end

section
variable (k r : Nat) (s : State)

theorem takeTs_sameLink (ptp : Bool) : SameLink k s (takeTs k r ptp s) := by
  unfold takeTs
  extract_lets p lost second s1 q s2
  have hs1 : getPort s1 k = getPort s k := by simp [s1]
  have hs2 : SameLink k s s2 := by simp [SameLink, s2, q, hs1]
  split_ifs
  · exact .refl k s
  · exact modPort_sameLink (f := fun p => { p with tsq := p.tsq ++ [⟨r, ptp⟩] }) rfl rfl
  · exact hs2.trans (sameLink_of_getPort_eq (getPort_raise _ _ _ _ _ _))
  · exact sameLink_of_getPort_eq hs1

theorem startOn_sameLink : SameLink k s (startOn k r s) := by
  unfold startOn
  dsimp only
  split
  · exact .refl k s
  · refine SameLink.trans ?_ (modPort_sameLink rfl rfl)
    split
    · exact takeTs_sameLink k r s _
    · exact .refl k s

theorem startOrDefer_sameLink : SameLink k s (startOrDefer k r s) := by
  unfold startOrDefer
  dsimp only
  split
  · split
    · refine (modPort_sameLink (s := (fresh s).2) (f := fun p => { p with carrier := true }) rfl rfl).trans ?_
      exact sameLink_of_getPort_eq (getPort_deferTimed _ _ _ _)
    · exact startOn_sameLink k r (fresh s).2
  · exact startOn_sameLink k r s

/-- Starting the next frame of a port leaves its link. -/
theorem tryStart_sameLink : SameLink k s (tryStart k s) := by
  unfold tryStart
  dsimp only
  split
  · exact .refl k s
  · split
    · split
      · exact startOrDefer_sameLink k _ s
      · exact .refl k s
    · split
      · exact .refl k s
      · split
        · exact startOrDefer_sameLink k _ s
        · exact (startOrDefer_sameLink k _ s).trans (modPort_sameLink rfl rfl)

end

/-! ### A link that comes up (R103, R116) -/

/-- A link comes up at a port, full duplex, with PORT-LINK-UP. -/
def portUp (k : Nat) (speed : BitVec 3) (s : State) : State :=
  raise 0x0401 0 [BitVec.ofNat 8 k, BitVec.ofNat 8 speed.toNat] none
    (setPort k { getPort s k with link := true, speedAct := speed, halfDuplex := false } s)

/-- The PHY of M0 reports half duplex: the link stays down, with HALF-DUPLEX-REFUSED. -/
def halfDuplexRefused (k : Nat) (s : State) : State :=
  raise 0x040A 2 [BitVec.ofNat 8 k] none (setPort k { getPort s k with halfDuplex := true } s)

/-- A port of a pair whose link has come up has not been heard since. -/
def unheard (k : Nat) (s : State) : State :=
  let q := getPair2 s (k / 2)
  setPair2 (k / 2) (if k % 2 = 1 then { q with heardBEl := none } else { q with heardAEl := none }) s

theorem getPort_portUp (k : Nat) (speed : BitVec 3) (s : State) :
    getPort (portUp k speed s) k = { getPort s k with link := true, speedAct := speed, halfDuplex := false } := by
  rw [portUp, getPort_raise, getPort_setPort]

theorem getPort_halfDuplexRefused (k : Nat) (s : State) :
    getPort (halfDuplexRefused k s) k = { getPort s k with halfDuplex := true } := by
  rw [halfDuplexRefused, getPort_raise, getPort_setPort]

section
variable {port : BitVec 4} {speed : BitVec 3} {half : Bool} {s : State}

/-- PORT_LINK_UP in the terms above. -/
theorem exec_portLinkUp_eq (port : BitVec 4) (speed : BitVec 3) (half : Bool) (s : State) :
    exec (.portLinkUp port speed half) s = .next (
      if 12 < port.toNat ∨ (getPort s port.toNat).enable = false ∨ (getPort s port.toNat).link then s
      else if port.toNat = 12 ∧ half then halfDuplexRefused port.toNat s
      else
        let t := portUp port.toNat (if port.toNat = 12 then speed else (getPort s port.toNat).speed) s
        tryStart port.toNat (if port.toNat < 4 then unheard port.toNat t else t)) := rfl

/-- An enabled port whose link is down is not spared. -/
theorem linkUp_taken (hk : port.toNat ≤ 12) (hen : (getPort s port.toNat).enable = true) (hl : (getPort s port.toNat).link = false) :
    ¬ (12 < port.toNat ∨ (getPort s port.toNat).enable = false ∨ (getPort s port.toNat).link = true) := by
  simp [hen, hl, hk]

theorem exec_portLinkUp_half (hk : port.toNat = 12) (hen : (getPort s port.toNat).enable = true)
    (hl : (getPort s port.toNat).link = false) :
    exec (.portLinkUp port speed true) s = .next (halfDuplexRefused port.toNat s) := by
  rw [exec_portLinkUp_eq, if_neg (linkUp_taken (Nat.le_of_eq hk) hen hl), if_pos ⟨hk, rfl⟩]

/-- Full duplex, or at a port that does not look at it, the link comes up. -/
theorem exec_portLinkUp_up (hk : port.toNat ≤ 12) (hfull : ¬ (port.toNat = 12 ∧ half = true))
    (hen : (getPort s port.toNat).enable = true) (hl : (getPort s port.toNat).link = false) :
    exec (.portLinkUp port speed half) s = .next (tryStart port.toNat
      (if port.toNat < 4 then unheard port.toNat (portUp port.toNat (if port.toNat = 12 then speed else (getPort s port.toNat).speed) s)
        else portUp port.toNat (if port.toNat = 12 then speed else (getPort s port.toNat).speed) s)) := by
  rw [exec_portLinkUp_eq, if_neg (linkUp_taken hk hen hl), if_neg hfull]

end

/-- Settles O55: a half-duplex report leaves the link down, and the start of a frame leaves the link that has come up. -/
theorem halfDuplexIsRefusedOnM0 : Obligations.HalfDuplexIsRefusedOnM0 := by
  intro speed s hen hl
  refine ⟨⟨_, exec_portLinkUp_half rfl hen hl, ?_, ?_, rfl⟩, ⟨_, exec_portLinkUp_up (Nat.le_refl 12) (by simp) hen hl, ?_⟩⟩
  · exact (congrArg Port.link (getPort_halfDuplexRefused 12 s)).trans hl
  · exact congrArg Port.halfDuplex (getPort_halfDuplexRefused 12 s)
  · have hup := getPort_portUp 12 speed s
    obtain ⟨hlink, hdup⟩ := tryStart_sameLink 12 (portUp 12 speed s)
    exact ⟨hlink.trans (congrArg Port.link hup), hdup.trans (congrArg Port.halfDuplex hup)⟩

end Sys2Proof.Machine

/-!
The commands of group 0x04 (4.1, 4.4, 4.8, 4.10 of 04_network_ports.md, R102, R116, R128, R131).
-/

namespace Sys2Proof.Machine

section
variable (h : Hdr) (s : State)

theorem exec_portConfig (p : PortConfigP) : exec (.portConfig h p) s = execPortConfig h p s := rfl
theorem exec_prpConfig (p : PrpConfigP) : exec (.prpConfig h p) s = execPrpConfig h p s := rfl
theorem exec_portTxBind (p : PortTxBindP) : exec (.portTxBind h p) s = execPortTxBind h p s := rfl

end

/-- Settles O18: each command is admitted by its own checks, and its body then runs on the counted state, whose ports are those of the state. -/
theorem portCommandsComplete : Obligations.PortCommandsComplete := by
  intro h s u
  refine ⟨?_, ?_, ?_, ?_⟩
  case refine_1 =>
    intro p a hok hpair
    refine ⟨_, rfl, _, rfl, _, rfl, exec_admitted (exec_portConfig _ _ _) rfl a ?_ ?_ rfl⟩
    · rw [pairAgrees_countCmd, hok, hpair]
      rfl
    · by_cases hk : p.port.toNat < 4 <;> simp [u, hk]
  case refine_2 =>
    intro p a hrsv hpair hf1 hf2 hs1 hs2 hlt hl1 hl2
    exact ⟨_, rfl, exec_admitted (exec_prpConfig _ _ _) rfl a (decide_eq_true ⟨hrsv, hpair, hf1, hf2, hs1, hs2, hlt, hl1, hl2⟩) rfl rfl⟩
  case refine_3 =>
    intro p a hrsv htgt hring hrep hfree
    have hne : p.ring ≠ p.reportRing := by
      rintro heq
      rw [heq, hrep] at hring
      exact absurd hring (by decide)
    refine ⟨_, rfl, exec_admitted (exec_portTxBind _ _ _) rfl a ?_ ?_ rfl⟩
    · rw [decide_eq_true (And.intro hrsv ⟨htgt, hring, hne⟩), ringFree_countCmd, hfree, decide_eq_true hrep]
      rfl
    · simp only [if_pos hrep]
      rfl
  case refine_4 =>
    intro p a hrsv htgt hring hne hrep hfree hfreeRep
    refine ⟨_, rfl, exec_admitted (exec_portTxBind _ _ _) rfl a ?_ ?_ rfl⟩
    · rw [decide_eq_true (And.intro hrsv ⟨htgt, hring, hne⟩), ringFree_countCmd, hfree, ringFree_countCmd, hfreeRep, Bool.or_true]
      rfl
    · simp only [if_neg hrep]
      rfl

end Sys2Proof.Machine

/-!
The events of the ports (4.1, 4.4, 4.5, 4.7, 4.8 of 04_network_ports.md, R103, R111, R112, R116, R117, R127, R129).
-/

namespace Sys2Proof.Machine

section
variable (k : BitVec 4) (s : State)

theorem exec_portLinkDown : exec (.portLinkDown k) s = execPortLinkDown k s := rfl
theorem exec_lanSilence : exec (.lanSilence k) s = execLanSilence k s := rfl
theorem exec_prpSupervisionTx (pair : Bool) : exec (.prpSupervisionTx pair) s = execPrpSupervisionTx pair s := rfl
theorem exec_prpSupervisionRx : exec (.prpSupervisionRx k) s = execPrpSupervisionRx k s := rfl
theorem exec_fieldCollision : exec (.fieldCollision k) s = execFieldCollision k s := rfl
theorem exec_backoffExpiry : exec (.backoffExpiry k) s = execBackoffExpiry k s := rfl
theorem exec_carrierSenseDrop : exec (.carrierSenseDrop k) s = execCarrierSenseDrop k s := rfl
theorem exec_pressureWindowEnd : exec .pressureWindowEnd s = execPressureWindowEnd s := rfl
theorem exec_txComplete (late : Bool) : exec (.txComplete k late) s = execTxComplete k late s := rfl

end

/-- Settles O19: each row's hypotheses are its conditions, and name the branch it takes; what it then does is its effect. -/
theorem portEventsComplete : Obligations.PortEventsComplete := by
  intro k s
  dsimp only
  refine ⟨?_, ?_, ?_, ?_, ?_, ?_, ?_, ?_, ?_, ?_, ?_, ?_, ?_, ?_⟩
  case refine_1 =>
    intro speed hk hge hen hl
    refine ⟨_, rfl, ?_⟩
    rw [exec_portLinkUp_up hk (by simp) hen hl, if_neg (Nat.not_lt.2 hge)]
    rfl
  case refine_2 =>
    intro speed hk hen hl
    exact exec_portLinkUp_half hk hen hl
  case refine_3 =>
    intro speed half hk hen hl
    have hne : ¬ k.toNat = 12 := by omega
    refine ⟨_, rfl, _, rfl, ?_⟩
    rw [exec_portLinkUp_up (by omega) (fun hm => hne hm.1) hen hl, if_pos hk, if_neg hne]
    rfl
  case refine_4 =>
    intro hk
    rw [exec_portLinkDown, execPortLinkDown, if_neg (Nat.not_lt.2 hk)]
  case refine_5 =>
    intro hk hsil
    rw [exec_lanSilence, execLanSilence, if_pos ⟨hk, hsil⟩]
  case refine_6 =>
    intro pair pr a b hpr ha hb hlink hboot hdue
    subst hpr ha hb
    rw [exec_prpSupervisionTx, execPrpSupervisionTx, if_neg (by rw [hlink, hdue]; simp [hboot])]
  case refine_7 =>
    intro hk hheld
    rw [exec_prpSupervisionRx, execPrpSupervisionRx, if_neg (by simp [hk, hheld])]
  case refine_8 =>
    intro r a hf hw hb
    refine ⟨_, rfl, ?_⟩
    rw [exec_fieldCollision, execFieldCollision, if_neg (by simp [hf])]
    simp [hw, hb]
  case refine_9 =>
    intro r a b hf hw hb hn
    refine ⟨_, rfl, _, rfl, _, rfl, ?_⟩
    have hlast : 16 ≤ b.attempts + 1 := by omega
    rw [exec_fieldCollision, execFieldCollision, if_neg (by simp [hf])]
    simp [hw, hb, hlast]
  case refine_10 =>
    intro b e hb he hdue
    simp only [exec_backoffExpiry, execBackoffExpiry, hb, he, if_neg (Nat.not_lt.2 hdue)]
  case refine_11 =>
    intro r c hf hc hw hl hb hnext
    simp only [hw, hl, hb] at hnext
    rw [exec_carrierSenseDrop, execCarrierSenseDrop, if_neg (by simp [hf, hc])]
    simp [hw, hl, hb, hnext]
  case refine_12 =>
    intro hdue
    rw [exec_pressureWindowEnd, execPressureWindowEnd, if_neg (Nat.not_lt.2 hdue)]
  case refine_13 =>
    intro r a f hw hfr hts
    refine ⟨_, rfl, _, rfl, ?_⟩
    have hfr' : getFrame s r = some f := hfr
    simp only [exec_txComplete, execTxComplete, hw, hfr', hts, Bool.false_and, Bool.false_eq_true, false_and, if_false]
    rfl
  case refine_14 =>
    intro r a f hf hw hfr
    refine ⟨_, rfl, ?_⟩
    have hfr' : getFrame s r = some f := hfr
    simp [exec_txComplete, execTxComplete, hw, hfr', hf]

end Sys2Proof.Machine

/-!
Frames that are received, and frames that a host hands over (4.1, 4.2, 4.4, 4.7, 4.8 of 04_network_ports.md, R105 to R107, R113, R124, R128).
-/

namespace Sys2Proof.Machine

/-! ### A received frame (R105 to R107, R124) -/

section
variable (f : RxFrame) (s : State)

/-- The frame's consumer has begun to read it (R136). -/
def rxBegun : Bool := f.begun && decide (cutThrough s f.port.toNat ≤ f.len.toNat)

/-- A frame that turns out bad after its consumer has begun to read it counts in RETRO_BAD (R136). -/
def rxRetro (t : State) : State := bumpIf (rxBegun f s) 0x05000120 t

/-- The frame is for the port (R105). -/
def rxAddressed : Prop :=
  f.dst = portMac s f.port.toNat ∨ f.dst = 0xFFFFFFFFFFFF ∨ multicastOk s f.port.toNat f.dst = true

/-- A good frame is counted, and on a pair its RCT decides whether it goes on (R113). -/
def rxRct : Bool × State :=
  let v := bumpBy (portCnt f.port.toNat 0x08) f.len.toNat (bump (portCnt f.port.toNat 0x00) s)
  if f.port.toNat < 4 then rctStage f.port.toNat f v else (true, v)

/-- What the ingress queue is handed of a frame received at s. -/
def rxIn (c : Cls) : InFrame := { cls := c, len := f.len.toNat, begun := rxBegun f s, ts16 := rxStamp s f.port.toNat }

/-- A frame received at s enters its queue at t, with poison or without, and leaves it again where no row of Table 4.5 takes it. -/
def rxEnter (t : State) : State :=
  let c := classify t f
  let r := enterIn f.port.toNat (rxIn f s c.1) t
  if r.1 = false then r.2
  else
    let bad := decide (f.poison ≠ 0)
    let x := if bad then rxRetro f s (bump (portCnt f.port.toNat 0x50) (poisonPort f.port.toNat f.poison.toNat r.2))
      else bumpIf (decide (f.kind = .fragment)) 0x05000110 r.2
    if c.2 ∧ (bad = false ∨ tellsPoison f.kind) then x
    else modPort f.port.toNat (fun q => { q with inq := q.inq.take (q.inq.length - 1) }) x

/-- A frame that passes the checks. -/
def rxTake : State := if (rxRct f s).1 = false then (rxRct f s).2 else rxEnter f s (rxRct f s).2

/-- FRAME_RX in the terms above. -/
theorem exec_frameRx_eq : exec (.frameRx f) s = .next (
    if 12 < f.port.toNat ∨ (getPort s f.port.toNat).link = false then s
    else if f.len.toNat < 64 then bump (portCnt f.port.toNat (if isField f.port.toNat ∧ f.col then 0x38 else 0x28)) s
    else if (getPort s f.port.toNat).maxFrame < f.len.toNat then rxRetro f s (bump (portCnt f.port.toNat 0x30) s)
    else if f.fcsOk = false then rxRetro f s (bump (portCnt f.port.toNat 0x20) s)
    else if f.kind = .pause then bump (portCnt f.port.toNat 0x48) s
    else if f.dst ≠ portMac s f.port.toNat ∧ f.dst ≠ 0xFFFFFFFFFFFF ∧ multicastOk s f.port.toNat f.dst = false then
      bump (portCnt f.port.toNat 0x40) s
    else rxTake f s) := rfl

end

section
variable {f : RxFrame} {s : State}

/-- A frame at a port whose link is up is not skipped. -/
theorem linked_not_skipped (hk : f.port.toNat ≤ 12) (hl : (getPort s f.port.toNat).link = true) :
    ¬ (12 < f.port.toNat ∨ (getPort s f.port.toNat).link = false) := by
  simp [hk, hl]

/-- A frame of a length that the port takes and with a good FCS: a PAUSE frame is counted, another needs an address of the port. -/
theorem exec_frameRx_good (hk : f.port.toNat ≤ 12) (hl : (getPort s f.port.toNat).link = true) (hmin : 64 ≤ f.len.toNat)
    (hmax : f.len.toNat ≤ (getPort s f.port.toNat).maxFrame) (hfcs : f.fcsOk = true) :
    exec (.frameRx f) s = .next (
      if f.kind = .pause then bump (portCnt f.port.toNat 0x48) s
      else if f.dst ≠ portMac s f.port.toNat ∧ f.dst ≠ 0xFFFFFFFFFFFF ∧ multicastOk s f.port.toNat f.dst = false then
        bump (portCnt f.port.toNat 0x40) s
      else rxTake f s) := by
  rw [exec_frameRx_eq, if_neg (linked_not_skipped hk hl), if_neg (Nat.not_lt.2 hmin), if_neg (Nat.not_lt.2 hmax), if_neg (by simp [hfcs])]

theorem not_filtered (h : rxAddressed f s) :
    ¬ (f.dst ≠ portMac s f.port.toNat ∧ f.dst ≠ 0xFFFFFFFFFFFF ∧ multicastOk s f.port.toNat f.dst = false) := by
  rintro ⟨hmac, hbc, hmc⟩
  rcases h with h1 | h1 | h1
  · exact hmac h1
  · exact hbc h1
  · simp [h1] at hmc

theorem rxTake_stopped (hgo : (rxRct f s).1 = false) : rxTake f s = (rxRct f s).2 := if_pos hgo

theorem rxTake_entered (hgo : (rxRct f s).1 = true) : rxTake f s = rxEnter f s (rxRct f s).2 := if_neg (by simp [hgo])

/-- A frame without poison that enters its queue stays there where a row of Table 4.5 takes it. -/
theorem rxEnter_clean (hp : f.poison = 0) (t : State) : rxEnter f s t =
    let c := classify t f
    let r := enterIn f.port.toNat (rxIn f s c.1) t
    let x := bumpIf (decide (f.kind = .fragment)) 0x05000110 r.2
    if r.1 = false then r.2 else if c.2 then x
    else modPort f.port.toNat (fun q => { q with inq := q.inq.take (q.inq.length - 1) }) x := by
  simp [rxEnter, hp]

end

/-! ### A host's frame (R128) -/

theorem exec_hostFrameTx (part : HP) (ring : BitVec 6) (f : HostFrame) (s : State) :
    exec (.hostFrameTx part ring f) s = execHostFrameTx part ring f s := rfl

@[simp] theorem ringClass_frameTx (port : Nat) : ringClass (.frameTx port) = .c3 := rfl

/-- Settles O20: the checks stand in the order of the hypotheses; a good frame is `rxTake`, and a host's frame without fault goes to `sendFrame`. -/
theorem framesAreReceivedOrCounted : Obligations.FramesAreReceivedOrCounted := by
  intro s
  refine ⟨?_, ?_, ?_, ?_, ?_, ?_, ?_⟩
  case refine_1 =>
    intro f hk hl hlen
    rw [exec_frameRx_eq, if_neg (linked_not_skipped hk hl), if_pos hlen]
  case refine_2 =>
    intro f hk hl hmin hmax
    rw [exec_frameRx_eq, if_neg (linked_not_skipped hk hl), if_neg (Nat.not_lt.2 hmin), if_pos hmax]
    rfl
  case refine_3 =>
    intro f hk hl hmin hmax hfcs
    rw [exec_frameRx_eq, if_neg (linked_not_skipped hk hl), if_neg (Nat.not_lt.2 hmin), if_neg (Nat.not_lt.2 hmax), if_pos hfcs]
    rfl
  case refine_4 =>
    intro f hk hl hmin hmax hfcs hkind
    rw [exec_frameRx_good hk hl hmin hmax hfcs, if_pos hkind]
  case refine_5 =>
    intro f hk hl hmin hmax hfcs hkind hmac hbc hmc
    rw [exec_frameRx_good hk hl hmin hmax hfcs, if_neg hkind, if_pos ⟨hmac, hbc, hmc⟩]
  case refine_6 =>
    intro f hk hl hmin hmax hfcs hkind haddr
    have htake : exec (.frameRx f) s = .next (rxTake f s) := by
      rw [exec_frameRx_good hk hl hmin hmax hfcs, if_neg hkind, if_neg (not_filtered haddr)]
    refine ⟨fun hstop => ?_, fun hgo hp => ?_⟩
    · rw [htake, rxTake_stopped hstop]
      rfl
    · rw [htake, rxTake_entered hgo, rxEnter_clean hp]
      rfl
  case refine_7 =>
    intro part ring f r b ds hr hb htaken hds huse hreads hp hbytes hmin hmax hrsv hflags q w b2 v hok
    have hread : ¬ (RingUse.frameTx b.target ≠ .frameTx b.target ∨ hostReads s part = false) := by simp [hreads]
    have hlen : ¬ (ds.foldl (fun k d => k + d.len.toNat) 0 ≠ 16 + f.frameLen.toNat ∨ f.frameLen.toNat < 14) := by omega
    have hpar : ¬ (f.rsv ≠ 0 ∨ 2 ≤ f.flags.toNat) := by simp [hrsv, hflags]
    simp only [exec_hostFrameTx, execHostFrameTx, hr, hb, htaken, List.foldl_nil, List.drop_zero, hds, huse, if_neg hread,
      if_neg (not_not.2 hp), if_neg hlen, if_neg hpar, ringClass_frameTx, decide_eq_true_eq, Nat.zero_add]
    exact congrArg Host.Outcome.next (if_pos hok)

end Sys2Proof.Machine

/-!
The stream commands (5.8 of 05_stream_ingest.md, R154, R156): a pause of a stream that has fallen silent.
-/

namespace Sys2Proof.Machine

/-! ### A pause leaves SILENT as it stands (Table 5.8) -/

/-- A sampled-value stream at 50 reports a second, in ACTIVE, that has fallen silent. -/
def silentStream : Stream :=
  { newStream ⟨3, 7, 0, 0, 0⟩ 4 0 10 0 50 false 0 0 with state := .active, descs := estDescs 4 4, silent := true }

/-- That stream's place on the grid of its rate. -/
def silentOnGrid : AlnStream := ⟨(gridOfRate 50).getD 0, false, false, 0, 0, 0, none, none⟩

/-- A device that is READY with that stream alone. -/
def silentState : State :=
  { State.reset with
    dev := { State.reset.dev with boot := .ready }
    ing := { State.reset.ing with streams := [(0, silentStream)] }
    aln := { State.reset.aln with streams := [(0, silentOnGrid)] } }

/-- The header of a STREAM-CHANGE from HP0. -/
def pauseHdr : Hdr := ⟨0, false, 12, 1, 0, false, false, 0⟩

/-- Its request: pause 1, and the stream's own settings. -/
def pauseReq : StreamChangeP := ⟨0, 0, 0, 1, 0, 10, 0⟩

/-- SILENT of stream 0 after a step. -/
def silentAfter : Out → Option Bool
  | .next t => (getStream t 0).map (fun v => v.silent)
  | _ => none

theorem pause_admitted : Admitted (cmd 0x0502 .openC false 12) pauseHdr silentState := by decide

theorem exec_streamChange_keepsSilent : silentAfter (exec (.streamChange pauseHdr pauseReq) silentState) = some true := rfl

/-- Refutes O21, in its clause on STREAM-CHANGE with pause 1: the pause leaves SILENT of a stream that has fallen silent, which ends with its
next accepted data frame (R154), while the statement has it cleared. -/
theorem not_ingestCommandsComplete : ¬ Obligations.IngestCommandsComplete := by
  intro holds
  obtain ⟨-, -, hpause, -⟩ := holds pauseHdr silentState
  have heq := hpause pauseReq silentStream silentOnGrid pause_admitted (by decide) (by decide) rfl rfl rfl (by decide) (by decide) rfl rfl
    (by decide) rfl (by decide) rfl rfl
  have hclear : silentAfter (exec (.streamChange pauseHdr pauseReq) silentState) = some false := (congrArg silentAfter heq).trans rfl
  exact absurd (exec_streamChange_keepsSilent.symm.trans hclear) (by decide)

end Sys2Proof.Machine

/-!
Frames of C37.118 that pass the checks of R140 (5.2 to 5.4 of 05_stream_ingest.md, R140 to R143, R148, R179).
-/

namespace Sys2Proof.Machine

section
variable (s : State)

theorem exec_c37DataFrame (f : C37Data) : exec (.c37DataFrame f) s = execC37DataFrame f s := rfl
theorem exec_c37HeaderFrame (f : C37Header) : exec (.c37HeaderFrame f) s = execC37HeaderFrame f s := rfl
theorem exec_c37CommandFrame (f : C37Command) : exec (.c37CommandFrame f) s = execC37CommandFrame f s := rfl

end

/-! ### A data frame and a configuration frame of a stream -/

/-- What a data frame that passes the checks does to its stream, by the stream's state (R148). -/
def takeData (n : Nat) (v : Stream) (f : C37Data) (at_ : Nat) (s : State) : State :=
  match v.state with
  | .awaitCfg => setStream n { v with noCfg := sat1 v.noCfg } s
  | .paused => setStream n { v with frames := sat1 v.frames } s
  | .retiring => setStream n { v with frames := sat1 v.frames } s
  | .active => match chooseCfg v f with
    | none => countMal n s
    | some (c, newCfg) => parseData n at_ f c newCfg s

/-- The type in SYNC of a configuration frame. -/
def cfgFrameType : CfgKind → Nat
  | .cfg1 => 2
  | .cfg2 => 3
  | .cfg3 _ => 5

/-- What a configuration frame that passes the checks does to its stream, by its kind (R141, R142). -/
def takeCfgFrame (n : Nat) (f : C37CfgFrame) (s : State) : State :=
  match f.kind with
  | .cfg1 => modStream n (fun x => { x with cfgRx := sat1 x.cfgRx }) s
  | .cfg2 => takeCfg n f.cfg s
  | .cfg3 idx => joinCfg n idx.toNat f.head.frameSize f.cfg s

section
variable {s t : State} {n : Nat} {v : Stream}

theorem exec_c37DataFrame_staged {f : C37Data} (hst : c37Stage f.head 0 s = (some n, t)) (hheld : c37Held s f.head 0 = false)
    (hv : getStream t n = some v) :
    exec (.c37DataFrame f) s = .next (takeData n v f (rxNs s f.head.port.toNat (c37Class s f.head.port.toNat true)) t) := by
  simp only [exec_c37DataFrame, execC37DataFrame, hheld, hst, hv, Bool.false_eq_true, if_false]
  rfl

/-- C37_CFG_FRAME in the terms above. -/
theorem exec_c37CfgFrame_eq (f : C37CfgFrame) (s : State) : exec (.c37CfgFrame f) s = .next (
    if c37Held s f.head (cfgFrameType f.kind) then s
    else match c37Stage f.head (cfgFrameType f.kind) s with
      | (none, s1) => s1
      | (some n, s1) => takeCfgFrame n f s1) := rfl

theorem exec_c37CfgFrame_staged {f : C37CfgFrame} {typ : Nat} (htyp : cfgFrameType f.kind = typ) (hst : c37Stage f.head typ s = (some n, t))
    (hheld : c37Held s f.head typ = false) : exec (.c37CfgFrame f) s = .next (takeCfgFrame n f t) := by
  rw [exec_c37CfgFrame_eq, htyp, if_neg (by simp [hheld]), hst]

/-- The header of a stream that does not retire is told (R141). -/
theorem exec_c37HeaderFrame_staged {f : C37Header} (hst : c37Stage f.head 1 s = (some n, t)) (hheld : c37Held s f.head 1 = false)
    (hv : getStream t n = some v) (hret : v.state ≠ .retiring) :
    exec (.c37HeaderFrame f) s = .next (raise 0x050B 0 (leBytes 4 n ++ (f.text ++ List.replicate 64 0).take 64) (some v.owner)
      (setStream n { v with cfgRx := sat1 v.cfgRx } t)) := by
  simp only [exec_c37HeaderFrame, execC37HeaderFrame, hheld, hst, hv, Bool.false_eq_true, if_false]
  rw [raiseIf, if_pos (decide_eq_true hret)]

end

/-! ### A command frame of no known stream (R140, R179) -/

/-- The publications that a command frame may reach at its port, read from the state past its queue and the directory. -/
def commandPubs (f : C37Command) (x : State) : List (Nat × Pub) :=
  if f.head.key.transport = 0 then pubsAt x f.head.port.toNat f.head.key.dstPort else []

/-- What a command frame that passes the checks does: its command to the publication of its IDCODE, or a count where there is none. -/
def commandAct (f : C37Command) (x : State) : State :=
  match (commandPubs f x).find? (fun e => decide (e.2.idcode = f.head.key.idcode)) with
  | some (n, p) => pubCommand n p f.cmd.toNat x
  | none => bump 0x05000118 x

/-- The frame names a publication's port as a command of the type that has one. -/
def commandNames (f : C37Command) (x : State) : Prop := (commandPubs f x).isEmpty = false ∧ f.frameType = 4

/-- Steps 4 and 5 of R140 for a frame of no stream. -/
def commandSound (f : C37Command) : Prop :=
  f.head.frameSize = f.head.payloadLen ∧ (f.head.version = 1 ∨ f.head.version = 2) ∧ f.head.chkOk = true

section
variable {f : C37Command} {s x : State} {n : Nat} {p : Pub}

theorem exec_c37CommandFrame_unknown (hx : x = readEntry f.head.port.toNat f.head.key f.head.ecc (popC37 f.head.port.toNat false s))
    (hheld : c37Held s f.head 4 = false) (hfind : findStream x f.head.port.toNat f.head.key = none) (hpoison : f.head.poisoned = false)
    (hlen : 16 ≤ f.head.payloadLen) (hsync : f.head.syncOk = true) (hrct : f.head.rct = none) (hnames : commandNames f x)
    (hsound : commandSound f) : exec (.c37CommandFrame f) s = .next (commandAct f x) := by
  obtain ⟨hpubs, htype⟩ := hnames
  obtain ⟨hsize, hver, hchk⟩ := hsound
  have hlong : ¬ (f.head.payloadLen < 16 ∨ f.head.syncOk = false) := by simp [hsync, hlen]
  have hnamed : ¬ (true = false ∨ (commandPubs f x).isEmpty = true ∨ decide (f.frameType ≠ 4) = true) := by simp [hpubs, htype]
  have hgood : ¬ (f.head.frameSize ≠ f.head.payloadLen ∨ (f.head.version ≠ 1 ∧ f.head.version ≠ 2) ∨ f.head.chkOk = false) := by
    rcases hver with hv | hv <;> simp [hsize, hv, hchk]
  subst hx
  simp only [exec_c37CommandFrame, execC37CommandFrame, hfind, hrct]
  rw [if_neg (by simp [hheld]), if_neg (by simp [hpoison]), if_neg hlong]
  exact congrArg Host.Outcome.next ((if_neg hnamed).trans (if_neg hgood))

theorem commandAct_found (hpub : (commandPubs f x).find? (fun e => decide (e.2.idcode = f.head.key.idcode)) = some (n, p)) :
    commandAct f x = pubCommand n p f.cmd.toNat x := by
  simp only [commandAct, hpub]

/-- Where a publication is found, there is one. -/
theorem commandPubs_nonempty {g : Nat × Pub → Bool} {e : Nat × Pub} (hpub : (commandPubs f x).find? g = some e) :
    (commandPubs f x).isEmpty = false :=
  List.isEmpty_eq_false_iff.2 (List.ne_nil_of_mem (List.mem_of_find?_eq_some hpub))

end

/-- Settles O22: a frame that passes the checks is taken by its stream's state or its own kind, and a command by the publication it names. -/
theorem streamFramesComplete : Obligations.StreamFramesComplete := by
  intro s
  refine ⟨?_, ?_, ?_, ?_, ?_, ?_, ?_, ?_⟩
  case refine_1 =>
    intro f n v t hst hheld hv hwait
    rw [exec_c37DataFrame_staged hst hheld hv, takeData, hwait]
  case refine_2 =>
    intro f n v t hst hheld hv hidle
    rw [exec_c37DataFrame_staged hst hheld hv, takeData]
    rcases hidle with hpaused | hretiring
    · rw [hpaused]
    · rw [hretiring]
  case refine_3 =>
    intro f n v t c new hst hheld hv hact hcfg
    simp only [exec_c37DataFrame_staged hst hheld hv, takeData, hact, hcfg]
  case refine_4 =>
    intro f n t hst hheld hk
    rw [exec_c37CfgFrame_staged (congrArg cfgFrameType hk) hst hheld, takeCfgFrame, hk]
  case refine_5 =>
    intro f n t hst hheld hk
    rw [exec_c37CfgFrame_staged (congrArg cfgFrameType hk) hst hheld, takeCfgFrame, hk]
  case refine_6 =>
    intro f idx n t hst hheld hk
    rw [exec_c37CfgFrame_staged (congrArg cfgFrameType hk) hst hheld, takeCfgFrame, hk]
  case refine_7 =>
    intro f n v t hst hheld hv hret
    exact exec_c37HeaderFrame_staged hst hheld hv hret
  case refine_8 =>
    intro f n p x hx hheld hfind hpoison hlen hsync hrct htype hsize hver hchk htr hpub
    rw [← show commandPubs f x = pubsAt x f.head.port.toNat f.head.key.dstPort from if_pos htr] at hpub
    rw [exec_c37CommandFrame_unknown hx hheld hfind hpoison hlen hsync hrct ⟨commandPubs_nonempty hpub, htype⟩ ⟨hsize, .inr hver, hchk⟩,
      commandAct_found hpub]

end Sys2Proof.Machine

/-!
Silence, retirement and TCP links of streams, and the rebuild of the directory (5.2, 5.6, 5.8 of 05_stream_ingest.md, R139, R150, R154, R489).
-/

namespace Sys2Proof.Machine

section
variable (handle : U32) (s : State)

theorem exec_streamSilent : exec (.streamSilent handle) s = execStreamSilent handle s := rfl
theorem exec_streamRetired : exec (.streamRetired handle) s = execStreamRetired handle s := rfl
theorem exec_tcpLinkDown : exec (.tcpLinkDown handle) s = execTcpLinkDown handle s := rfl
theorem exec_tcpReconnect : exec (.tcpReconnect handle) s = execTcpReconnect handle s := rfl
theorem exec_tcpConnected : exec (.tcpConnected handle) s = execTcpConnected handle s := rfl
theorem exec_directoryRebuilt : exec .directoryRebuilt s = execDirectoryRebuilt s := rfl
theorem exec_directoryEntryRewrite : exec (.directoryEntryRewrite handle) s = execDirectoryEntryRewrite handle s := rfl

end

/-- A change of an entry is what it makes of that entry. -/
theorem tmod_congr {α : Type} {f g : α → α} {t : Tbl α} {k : Nat} {v : α} (hv : tget t k = some v) (hfg : f v = g v) :
    tmod t k f = tmod t k g := by
  induction t with
  | nil => rfl
  | cons e t ih =>
    obtain ⟨j, w⟩ := e
    rw [tget] at hv
    rw [tmod, tmod]
    by_cases hj : j = k
    · rw [if_pos hj] at hv
      cases hv
      rw [if_pos hj, if_pos hj, hfg]
    · rw [if_neg hj] at hv
      rw [if_neg hj, if_neg hj, ih hv]

section
variable {s : State} {n : Nat} {v : Stream}

theorem modStream_congr {f g : Stream → Stream} (hv : getStream s n = some v) (hfg : f v = g v) : modStream n f s = modStream n g s := by
  rw [modStream, modStream, tmod_congr hv hfg]

/-- The stream is marked, and its silence told. -/
def fallSilent (n : Nat) (v : Stream) (s : State) : State :=
  raise 0x0504 2 (leBytes 4 n ++ leBytes 8 v.lastTag) (some v.owner) (setStream n { v with silent := true } s)

theorem checkSilent_of_some (hv : getStream s n = some v) :
    checkSilent n s =
      if v.state = .active ∧ v.silent = false ∧ v.silenceEl + s.ing.silenceMs * 1000000 ≤ elNs s then
        match tget (fallSilent n v s).aln.streams n with
        | some a => unexpect a.grid n (fallSilent n v s)
        | none => fallSilent n v s
      else s := by
  rw [checkSilent, hv]
  rfl

theorem checkSilent_due {a : AlnStream} (hv : getStream s n = some v) (hact : v.state = .active) (hsil : v.silent = false)
    (hdue : v.silenceEl + s.ing.silenceMs * 1000000 ≤ elNs s) (ha : tget (fallSilent n v s).aln.streams n = some a) :
    checkSilent n s = unexpect a.grid n (fallSilent n v s) := by
  rw [checkSilent_of_some hv, if_pos ⟨hact, hsil, hdue⟩, ha]

end

/-- Settles O23: each row's hypotheses are its conditions, and what it then does is its effect. -/
theorem ingestEventsComplete : Obligations.IngestEventsComplete := by
  intro handle s
  dsimp only
  refine ⟨?_, ?_, ?_, ?_, ?_, ?_, exec_directoryEntryRewrite handle s⟩
  case refine_1 =>
    intro v a hv hact hsil hdue ha
    exact (exec_streamSilent handle s).trans (congrArg Host.Outcome.next (checkSilent_due hv hact hsil hdue ha))
  case refine_2 =>
    intro v x hv hret hat hdue
    simp only [exec_streamRetired, execStreamRetired, hv, hret, hat, true_and, decide_eq_true hdue, if_true]
  case refine_3 =>
    intro v hv htr hup
    simp only [exec_tcpLinkDown, execTcpLinkDown, hv, if_pos (And.intro htr hup)]
  case refine_4 =>
    intro v e hv htr hdown hconn hdue
    have hall : v.connEl.all (fun e => decide (e + 5000000000 ≤ elNs s)) = true := by
      rw [hconn, Option.all_some, decide_eq_true hdue]
    exact (exec_tcpReconnect handle s).trans (congrArg Host.Outcome.next (modStream_congr hv (if_pos ⟨htr, hdown, hall⟩)))
  case refine_5 =>
    intro v hv htr hdown
    simp only [exec_tcpConnected, execTcpConnected, hv, if_pos (And.intro htr hdown)]
  case refine_6 =>
    intro g d hre hg hd
    subst hg
    simp only [exec_directoryRebuilt, execDirectoryRebuilt, hre, hd, Bool.true_eq_false, if_false]

end Sys2Proof.Machine

/-!
The events of the Sage front end and of its local and sampled-value streams (10.2 to 10.8 of 10_metrology_frontend.md, 5.5 of
05_stream_ingest.md, R149, R262 to R266, R271 to R275, R278 to R280).
-/

namespace Sys2Proof.Machine

section
variable (s : State)

theorem exec_sageOutputSample (b : SageBits) : exec (.sageOutputSample b) s = execSageOutputSample b s := rfl
theorem exec_inputLost (input : BitVec 7) : exec (.inputLost input) s = execInputLost input s := rfl
theorem exec_inputRestored (input : BitVec 7) : exec (.inputRestored input) s = execInputRestored input s := rfl
theorem exec_dcAcquireDone (input : BitVec 7) : exec (.dcAcquireDone input) s = execDcAcquireDone input s := rfl
theorem exec_settlingEnd (mp : BitVec 4) : exec (.settlingEnd mp) s = execSettlingEnd mp s := rfl
theorem exec_fadeEnd (mp : BitVec 4) : exec (.fadeEnd mp) s = execFadeEnd mp s := rfl
theorem exec_tempStaleExpiry (input : BitVec 7) : exec (.tempStaleExpiry input) s = execTempStaleExpiry input s := rfl
theorem exec_localPmuReport (mp : BitVec 4) : exec (.localPmuReport mp) s = execLocalPmuReport mp s := rfl

end

/-! ### What telling of an input leaves of the metering points -/

@[simp] theorem raise_sage (code sev : Nat) (params : Bytes) (o : Option HP) (s : State) : (raise code sev params o s).sage = s.sage :=
  raise_onlyIn code sev params o s .sage (by decide)

@[simp] theorem getMp_raise (code sev : Nat) (params : Bytes) (o : Option HP) (s : State) (m : Nat) :
    getMp (raise code sev params o s) m = getMp s m := by
  rw [getMp, raise_sage]
  rfl

@[simp] theorem getMp_bump (a : Nat) (s : State) (m : Nat) : getMp (bump a s) m = getMp s m := rfl
@[simp] theorem getMp_setInput (n : Nat) (i : SgInput) (s : State) (m : Nat) : getMp (setInput n i s) m = getMp s m := rfl

/-! ### A sampled-value frame (R149) -/

/-- The key of a frame's stream. -/
def svKey (f : SvFrame) : StreamKey := ⟨3, f.appid, BitVec.ofNat 128 (f.srcMac.toNat * 2 ^ 80), 0, 0⟩

/-- The state past the frame's queue and the read of its directory entry. -/
def svRead (f : SvFrame) (s : State) : State := readEntry f.port.toNat (svKey f) f.ecc (popIn f.port.toNat .c1 s)

/-- The frame has poison, or not as many samples as its rate has. -/
abbrev SvBad (f : SvFrame) : Prop := f.poisoned = true ∨ f.samples.length ≠ (if f.rate256 then 8 else 1)

/-- The nominal frequency of sampled values at s, Hz (log entry 42). -/
def svNom (s : State) : Nat := if s.clk.gaFNom60 then 60 else 50

/-- Samples a second of a frame at s. -/
def svRate (f : SvFrame) (s : State) : Nat := (if f.rate256 then 256 else 80) * svNom s

/-- A stream's samples with those of a frame received at s, the latest 8,192 of them, and what its next frame and its next report are. -/
def svTaken (f : SvFrame) (s : State) (rate : Nat) (sv : SvState) : SvState :=
  let now := rxNs s f.port.toNat .c1
  let first := gridIndex rate now + 1
  let l := sv.smps ++ svSamples f now (svRate f s)
  { smps := l.drop (l.length - 8192), nextCnt := some ((f.smpCnt.toNat + f.samples.length) % svRate f s), rate256 := f.rate256
    next := if sv.next = 0 ∨ sv.next + 2 * rate < first ∨ first + rate < sv.next then first else sv.next }

/-- The count of the frame is not the one that its stream's last frame leads to. -/
def svGap (f : SvFrame) (sv : SvState) : Bool := match sv.nextCnt with
  | some k => decide (k ≠ f.smpCnt.toNat)
  | none => false

/-- A frame received at s reaches stream n, w as its start leaves it in s2: its samples are taken, and the reports that are due are made. -/
def svTake (f : SvFrame) (s : State) (n : Nat) (w : Stream) (s2 : State) : State :=
  svReports n w.svRate ⟨fwOf s (svNom s), svNom s, winCycles s.sage.svWindow⟩ (decide (s.clk.gaState ≠ .locked)) 64
    (bumpIf (svGap f (getSv s2 n)) 0x05000158
      { s2 with sage := { s2.sage with sv := tset s2.sage.sv n (svTaken f s w.svRate (getSv s2 n)) } })

/-- SV_FRAME in the terms above. -/
theorem exec_svFrame_eq (f : SvFrame) (s : State) : exec (.svFrame f) s = .next (
    if readerHeld s f.port.toNat .c1 then s
    else match findStream (svRead f s) f.port.toNat (svKey f) with
      | none => if f.poisoned then svRead f s else bump 0x05000100 (svRead f s)
      | some (n, v) =>
        if SvBad f then svRead f s
        else if v.state = .paused ∨ v.state = .retiring then setStream n { v with frames := sat1 v.frames } (svRead f s)
        else svTake f s n (svStart n v (svRead f s)).1 (svStart n v (svRead f s)).2) := rfl

section
variable {f : SvFrame} {s : State} {n : Nat} {v : Stream}

theorem exec_svFrame_unknown (hheld : readerHeld s f.port.toNat .c1 = false)
    (hfind : findStream (svRead f s) f.port.toNat (svKey f) = none) :
    exec (.svFrame f) s = .next (bumpIf (!f.poisoned) 0x05000100 (svRead f s)) := by
  rw [exec_svFrame_eq, if_neg (by simp [hheld]), hfind]
  dsimp only
  cases f.poisoned
  · rfl
  · rfl

theorem exec_svFrame_known (hheld : readerHeld s f.port.toNat .c1 = false)
    (hfind : findStream (svRead f s) f.port.toNat (svKey f) = some (n, v)) :
    exec (.svFrame f) s = .next (
      if SvBad f then svRead f s
      else if v.state = .paused ∨ v.state = .retiring then setStream n { v with frames := sat1 v.frames } (svRead f s)
      else svTake f s n (svStart n v (svRead f s)).1 (svStart n v (svRead f s)).2) := by
  rw [exec_svFrame_eq, if_neg (by simp [hheld]), hfind]

theorem svFrame_whole (hpoison : f.poisoned = false) (hlen : f.samples.length = if f.rate256 then 8 else 1) :
    ¬ SvBad f := by
  simp [SvBad, hpoison, hlen]

/-- A stream that is paused or retires counts the frame alone. -/
theorem exec_svFrame_idle (hheld : readerHeld s f.port.toNat .c1 = false)
    (hfind : findStream (svRead f s) f.port.toNat (svKey f) = some (n, v))
    (hwhole : ¬ SvBad f) (hidle : v.state = .paused ∨ v.state = .retiring) :
    exec (.svFrame f) s = .next (setStream n { v with frames := sat1 v.frames } (svRead f s)) := by
  rw [exec_svFrame_known hheld hfind, if_neg hwhole, if_pos hidle]

/-- Another stream takes it, started where it waits for its first frame. -/
theorem exec_svFrame_taken (hheld : readerHeld s f.port.toNat .c1 = false)
    (hfind : findStream (svRead f s) f.port.toNat (svKey f) = some (n, v))
    (hwhole : ¬ SvBad f) (hon : ¬ (v.state = .paused ∨ v.state = .retiring)) :
    exec (.svFrame f) s = .next (svTake f s n (svStart n v (svRead f s)).1 (svStart n v (svRead f s)).2) := by
  rw [exec_svFrame_known hheld hfind, if_neg hwhole, if_neg hon]

end

/-- Settles O34: each row is due by its hypotheses, and what it then does is its effect; a sampled-value frame by the state of its stream. -/
theorem sageEventsComplete : Obligations.SageEventsComplete := by
  intro s
  refine ⟨?_, ?_, ?_, ?_, ?_, ?_, ?_, ?_, ?_, ?_, ?_, ?_, ?_⟩
  case refine_1 =>
    intro b hb hon hdue hbits
    rw [exec_sageOutputSample, execSageOutputSample, if_neg (not_not.2 hb), if_neg hon, if_pos ⟨hdue, hbits⟩]
  case refine_2 =>
    intro b hb hoff
    rw [exec_sageOutputSample, execSageOutputSample, if_neg (not_not.2 hb), if_pos hoff]
  case refine_3 =>
    intro input hn hlost
    refine ⟨_, rfl, _, rfl, _, rfl, _, rfl, ?_⟩
    rw [exec_inputLost, execInputLost, if_neg (by simp [hlost, hn])]
    simp only [getMp_raise, getMp_bump, getMp_setInput]
  case refine_4 =>
    intro input hlost
    refine ⟨_, rfl, ?_⟩
    rw [exec_inputRestored, execInputRestored, if_neg (by simp [hlost])]
  case refine_5 =>
    intro input hacq hlen
    refine ⟨_, rfl, _, rfl, _, rfl, ?_⟩
    rw [exec_dcAcquireDone, execDcAcquireDone, if_pos ⟨hacq, hlen⟩]
  case refine_6 =>
    intro mp hset hall
    refine ⟨_, rfl, ?_⟩
    rw [exec_settlingEnd, execSettlingEnd, if_pos ⟨hset, hall⟩]
  case refine_7 =>
    intro mp hfade hlen hdue
    refine ⟨_, rfl, _, rfl, _, rfl, ?_⟩
    rw [exec_fadeEnd, execFadeEnd, if_pos ⟨hfade, hlen, hdue⟩]
  case refine_8 =>
    intro input hsrc hread hstale hdue
    refine ⟨_, rfl, ?_⟩
    rw [exec_tempStaleExpiry, execTempStaleExpiry, if_pos ⟨hsrc, hread, hstale, hdue⟩]
  case refine_9 =>
    intro mp k d hpmu hd hdue hready
    subst hd
    simp only [exec_localPmuReport, execLocalPmuReport, hpmu]
    rw [if_pos ⟨hdue, hready⟩]
  case refine_10 =>
    intro f s1 hheld hs1 hfind
    subst hs1
    exact exec_svFrame_unknown hheld hfind
  case refine_11 =>
    intro f s1 n v hheld hs1 hfind hbad
    subst hs1
    exact (exec_svFrame_known hheld hfind).trans (congrArg Host.Outcome.next (if_pos hbad))
  case refine_12 =>
    intro f s1 n v hheld hs1 hfind hpoison hlen hidle
    subst hs1
    exact exec_svFrame_idle hheld hfind (svFrame_whole hpoison hlen) hidle
  case refine_13 =>
    intro f s1 n v hheld hs1 hfind hpoison hlen hpaused hretiring
    subst hs1
    exact exec_svFrame_taken hheld hfind (svFrame_whole hpoison hlen) (not_or.2 ⟨hpaused, hretiring⟩)

end Sys2Proof.Machine

/-!
The commands of group 0x06 (6.1, 6.6 and 6.8 of 06_alignment.md, R160, R175 to R177, R182).
-/

namespace Sys2Proof.Machine

section
variable (h : Hdr) (s : State)

theorem exec_gridConfig (p : GridConfigP) : exec (.gridConfig h p) s = execGridConfig h p s := rfl
theorem exec_pubAdd (p : PubAddP) : exec (.pubAdd h p) s = execPubAdd h p s := rfl
theorem exec_pubChange (p : PubChangeP) : exec (.pubChange h p) s = execPubChange h p s := rfl
theorem exec_pubRetire (p : PubRetireP) : exec (.pubRetire h p) s = execPubRetire h p s := rfl

end

/-! ### A publication that is added (R175 to R177) -/

theorem newPub_host (s : State) (owner : HP) (p : PubAddP) : (newPub s owner p).host = decide (p.kind = 1) := rfl

theorem newPub_frameBytes_host {p : PubAddP} (hkind : p.kind = 1) (s : State) (owner : HP) : (newPub s owner p).frameBytes = 0 :=
  if_pos (decide_eq_true hkind)

/-- State s with a publication in place n, its grid brought in line. -/
def withPub (n : Nat) (v : Pub) (s : State) : State := gridCheck v.grid { s with aln := { s.aln with pubs := tset s.aln.pubs n v } }

/-- PUB-ADD takes the lowest free place (log entry 15) where the quota has room; a host publication binds its ring. -/
theorem exec_pubAdd_taken {h : Hdr} {s : State} {p : PubAddP} {n : Nat}
    (a : Admitted (cmd 0x0602 .openC false (36 + 4 * p.nMembers.toNat)) h s) (hok : pubAddOk s h p = true)
    (hquota : (useOf s h.part).publications + 1 ≤ (getPart s h.part).quota.publications) (hfree : tfreeFrom s.aln.pubs 256 0 = some n) :
    exec (.pubAdd h p) s = .next (answer h 0x0602 (doneWith (leBytes 2 n ++ leBytes 2 0 ++ leBytes 4 (newPub s h.part p).frameBytes)
      (if (newPub s h.part p).host then
        bindRing h.part (newPub s h.part p).ring (.publication n) (withPub n (newPub s h.part p) (countCmd h s))
      else withPub n (newPub s h.part p) (countCmd h s)))) := by
  refine exec_admitted (exec_pubAdd _ _ _) rfl a hok ?_ rfl
  have hfree' : tfreeFrom (countCmd h s).aln.pubs 256 0 = some n := hfree
  rw [getPart_countCmd, useOf_countCmd, if_neg (Nat.not_lt.2 hquota), hfree']
  rfl

/-! ### A publication that changes (Table 6.7) -/

theorem tget_tmod_same {α : Type} (t : Tbl α) (k : Nat) (f : α → α) : tget (tmod t k f) k = (tget t k).map f := by
  induction t with
  | nil => rfl
  | cons e t ih =>
    obtain ⟨j, v⟩ := e
    by_cases hj : j = k
    · simp [tmod, tget, hj]
    · simp [tmod, tget, hj, ih]

@[simp] theorem getPub_modPub (n : Nat) (f : Pub → Pub) (s : State) : getPub (modPub n f s) n = (getPub s n).map f :=
  tget_tmod_same _ _ _

/-- A change of its settings leaves a publication where it stands, so that one that is ENABLED is not enabled again. -/
theorem pubState_modPub_same {n : Nat} {st : PubState} {f : Pub → Pub} {s : State} {v : Pub} (cause : Nat) (hv : getPub s n = some v)
    (hst : (f v).state = st) : pubState n st cause (modPub n f s) = modPub n f s := by
  simp only [pubState, getPub_modPub, hv, Option.map_some, if_pos hst]

/-- Settles O24: each command is admitted by its own checks, and its body then runs on the counted state, whose grids and publications are
those of the state; a host publication is enabled from each state of Table 6.7. -/
theorem alignmentCommandsComplete : Obligations.AlignmentCommandsComplete := by
  intro h s u
  refine ⟨?_, ?_, ?_, ?_, ?_⟩
  case refine_1 =>
    intro p a hok hroom
    refine ⟨_, rfl, _, rfl, exec_admitted (exec_gridConfig _ _ _) rfl a hok (if_neg ?_) rfl⟩
    simp only [getGrid_countCmd, gridBytes_countCmd, poolBytes_countCmd, poolSize_countCmd]
    omega
  case refine_2 =>
    intro p n a hok hquota hfree hkind
    have hwire : ¬ (newPub s h.part p).host = true := by simp [newPub_host, hkind]
    refine ⟨_, rfl, ?_⟩
    rw [exec_pubAdd_taken a hok hquota hfree, if_neg hwire]
    rfl
  case refine_3 =>
    intro p n a hok hquota hfree hkind
    have hhost : (newPub s h.part p).host = true := decide_eq_true hkind
    refine ⟨_, rfl, ?_⟩
    rw [exec_pubAdd_taken a hok hquota hfree, if_pos hhost, newPub_frameBytes_host hkind]
    rfl
  case refine_4 =>
    intro p v a hv hname hen hrsv hn hl hhost hopt
    refine exec_admitted (exec_pubChange _ _ _) rfl a ?_ ?_ rfl
    · have hopt' : p.options &&& 252#8 = 0#8 := hopt
      simp [hv, hname, hen, hrsv, hn, hl, hhost, hopt']
    · simp only [getPub_countCmd, hv, hn, hhost, hen, if_true, Bool.true_or, pubFrameBytes_countCmd]
      cases hst : v.state with
      | enabled => exact congrArg done (pubState_modPub_same (s := u) 0 hv (by exact hst)).symm
      | disabled | off | suspended => rfl
  case refine_5 =>
    intro p v a hrsv hv hname
    refine exec_admitted (exec_pubRetire _ _ _) rfl a ?_ rfl rfl
    simp [hrsv, hv, hname]

end Sys2Proof.Machine

/-!
The events of the slabs, and the frames of wire publications (6.1, 6.2, 6.5 and 6.6 of 06_alignment.md, R160 to R164, R174, R177, R178).
-/

namespace Sys2Proof.Machine

/-! ### Slabs (R160 to R164, R174) -/

section
variable (grid : BitVec 5) (tag : U64) (s : State)

theorem exec_slabOpen : exec (.slabOpen grid) s = execSlabOpen grid s := rfl
theorem exec_speculativeRelease : exec (.speculativeRelease grid tag) s = execSpeculativeRelease grid tag s := rfl
theorem exec_deadlineRelease : exec (.deadlineRelease grid tag) s = execDeadlineRelease grid tag s := rfl
theorem exec_patchRelease : exec (.patchRelease grid tag) s = execPatchRelease grid tag s := rfl
theorem exec_slabHistory : exec (.slabHistory grid tag) s = execSlabHistory grid tag s := rfl

end

/-! ### The frame of a wire publication (R177, R178) -/

section
variable {s : State} {pub : U16} {tag : U64} {p : Pub}

theorem exec_pubFrameBuild : exec (.pubFrameBuild pub tag) s = execPubFrameBuild pub tag s := rfl

/-- A frame is due once, at an instant of its grid, from 200 µs before its launch (R178). -/
theorem pubDue_iff {q : Pub} {t : Nat} :
    pubDue s q t = true ↔ q.host = false ∧ q.builtTag < t ∧ gridInstant (rateOfGrid q.grid) (gridIndex (rateOfGrid q.grid) t) = t ∧
      t + (q.offsetUs - 200) * 1000 ≤ taiNs s := by
  simp [pubDue, and_assoc]

/-- State s once publication n has taken the instant t. -/
def pubTaken (n t : Nat) (s : State) : State := modPub n (fun x => { x with builtTag := t }) s

/-- The frame of publication n for instant t, as it is handed to its port. -/
def pubFrame (n : Nat) (q : Pub) (t : Nat) (s : State) : Sts × Nat × State :=
  sendFrame { cls := .c1, port := targetPort q.target, pair := targetPair q.target, prp := true,
              len := udpLen (q.options.getLsbD 3) (pubBody s q t).length, launch := some (t + q.offsetUs * 1000), tsReq := false,
              owner := .publication n, body := pubBody s q t, level := q.level,
              to_ := some { addr := q.dstAddr, dst := q.dstPort, src := some q.srcPort } } (pubTaken n t s)

/-- A frame that is due is skipped, or built and handed over. -/
theorem exec_pubFrameBuild_due (hp : getPub s pub.toNat = some p) (hdue : pubDue s (p.at tag.toNat) tag.toNat = true) :
    exec (.pubFrameBuild pub tag) s = .next (
      if (p.at tag.toNat).state ≠ .enabled ∨ s.clk.timeValid = false then
        modPub pub.toNat (fun x => { x with skipped := sat1 x.skipped }) (pubTaken pub.toNat tag.toNat s)
      else
        pubSent pub.toNat (p.at tag.toNat) tag.toNat s (pubFrame pub.toNat (p.at tag.toNat) tag.toNat s).1
          (pubFrame pub.toNat (p.at tag.toNat) tag.toNat s).2.2) := by
  simp only [exec_pubFrameBuild, execPubFrameBuild, hp, hdue, Bool.true_eq_false, if_false]
  rfl

variable {n t : Nat} {q : Pub} {st : Sts} {s2 : State}

theorem pubSent_skipped (hst : st ≠ .ok) : pubSent n q t s st s2 = modPub n (fun x => { x with skipped := sat1 x.skipped }) s2 :=
  if_pos hst

end

/-- Settles O25: each row is due by its hypotheses, and what it then does is its effect; a wire frame goes by the state of its publication
and by what its port answers. -/
theorem slabEventsComplete : Obligations.SlabEventsComplete := by
  intro s
  refine ⟨?_, ?_, ?_, ?_, ?_, ?_⟩
  case refine_1 =>
    intro grid g t hg hlt hact ht hact1 hvalid hnone hring
    subst hg
    have hgrid : ¬ (20 ≤ grid.toNat ∨ (getGrid s grid.toNat).active = false) := by simp [hlt, hact]
    rw [exec_slabOpen, execSlabOpen, if_neg hgrid]
    simp only [← ht]
    rw [if_neg (by simp [hact1, hvalid, hnone, hring])]
  case refine_2 =>
    intro grid tag v hv hdev hst hspec hdue hbefore hmiss
    simp only [exec_speculativeRelease, execSpeculativeRelease, hv]
    rw [if_pos ⟨hdev, hst, hspec, hdue, hbefore, hmiss⟩]
  case refine_3 =>
    intro grid tag v hv hdev hst hmiss hdue
    simp only [exec_deadlineRelease, execDeadlineRelease, hv]
    rw [if_pos ⟨hdev, hst, hmiss, hdue⟩]
  case refine_4 =>
    intro grid tag v due hv hst hheld hdue hpast
    subst hdue
    simp only [exec_patchRelease, execPatchRelease, hv]
    rw [if_pos ⟨hst, hheld, hpast⟩]
  case refine_5 =>
    intro grid tag v due hv hdev hst hdue hpast
    subst hdue
    simp only [exec_slabHistory, execSlabHistory, hv]
    rw [if_pos ⟨hdev, hst, hpast⟩]
  case refine_6 =>
    intro pub tag p hp q r w hwire hnew hgrid hpast
    have hdue : pubDue s q tag.toNat = true := pubDue_iff.2 ⟨hwire, hnew, hgrid, hpast⟩
    refine ⟨fun hskip => ?_, fun hon hvalid => ⟨?_, pubSent_skipped, fun hsent => ⟨_, _, if_neg (not_not.2 hsent)⟩⟩⟩
    · rw [exec_pubFrameBuild_due hp hdue, if_pos hskip]
      rfl
    · have hgoes : ¬ (q.state ≠ .enabled ∨ s.clk.timeValid = false) := by simp only [hon, hvalid]; decide
      rw [exec_pubFrameBuild_due hp hdue, if_neg hgoes]
      rfl

end Sys2Proof.Machine

/-!
The commands of group 0x07 (7.1, 7.3 to 7.5 and 7.10 of 07_oscillation.md, R186, R191, R197, R198, R204).
-/

namespace Sys2Proof.Machine

section
variable (h : Hdr) (s : State)

theorem exec_oscScreenConfig (p : OscScreenConfigP) : exec (.oscScreenConfig h p) s = execOscScreenConfig h p s := rfl
theorem exec_oscEstConfig (p : OscEstConfigP) : exec (.oscEstConfig h p) s = execOscEstConfig h p s := rfl
theorem exec_oscAlarmConfig (p : OscAlarmConfigP) : exec (.oscAlarmConfig h p) s = execOscAlarmConfig h p s := rfl
theorem exec_oscWatchAdd (p : OscWatchP) : exec (.oscWatchAdd h p) s = execOscWatchAdd h p s := rfl
theorem exec_oscWatchRemove (p : OscWatchP) : exec (.oscWatchRemove h p) s = execOscWatchRemove h p s := rfl
theorem exec_oscBranchAdd (p : OscBranchP) : exec (.oscBranchAdd h p) s = execOscBranchAdd h p s := rfl
theorem exec_oscBranchRemove (p : OscBranchP) : exec (.oscBranchRemove h p) s = execOscBranchRemove h p s := rfl
theorem exec_oscRelearn (p : OscRelearnP) : exec (.oscRelearn h p) s = execOscRelearn h p s := rfl
theorem exec_oscOutputBind (p : OscOutputBindP) : exec (.oscOutputBind h p) s = execOscOutputBind h p s := rfl

end

/-! ### The oscillation block alone -/

theorem withOsc_onlyIn (o : OscBlk) (s : State) : OnlyIn [.osc] s { s with osc := o } := by
  intro b hb
  cases b with
  | osc => exact absurd (by decide) hb
  | _ => rfl

/-- New settings stand in force, head the history of which slab has which, and change nothing else (R204). -/
theorem newOscSet_effect (o : OscSet) (s : State) :
    (newOscSet o s).osc.set = o ∧ OnlyIn [.osc] s (newOscSet o s) ∧ ∃ old, (newOscSet o s).osc.hist = ((elNs s, o) :: old).take 16 :=
  ⟨rfl, withOsc_onlyIn _ _, _, rfl⟩

/-- A change of the watch list in a counted command leaves each channel its slot. -/
theorem slotOf_withWatch (h : Hdr) (s : State) (w : Tbl Nat) (ch : Nat) :
    slotOf { countCmd h s with osc := { s.osc with watch := w } } ch = slotOf s ch := rfl

/-- Settles O26: each command is admitted by its own checks, and its body then runs on the counted state, whose oscillation block is that of
the state; which branch it takes is named by the hypotheses. -/
theorem oscillationCommandsComplete : Obligations.OscillationCommandsComplete := by
  intro h s u
  refine ⟨fun o => newOscSet_effect o s, ?_, ?_, ?_, ?_, ?_, ?_, ?_, ?_, ?_, ?_, ?_⟩
  case refine_1 =>
    rintro p a ⟨hon1, hon2⟩ hoff ⟨hsh1, hsh2⟩ hmask ⟨hwarm1, hwarm2⟩ hrsv ⟨hf1, hf2⟩ ⟨hr1, hr2⟩ hrel
    exact exec_admitted (exec_oscScreenConfig _ _ _) rfl a
      (decide_eq_true ⟨hon1, hon2, hoff, hsh1, hsh2, hmask, hwarm1, hwarm2, hrsv, hf1, hf2, hr1, hr2, hrel⟩) rfl rfl
  case refine_2 =>
    rintro p a ⟨hsw1, hsw2⟩ ⟨hw1, hw2⟩ ⟨hh1, hh2⟩ ⟨hz1, hz2⟩ ⟨hc1, hc2⟩ ⟨hdf1, hdf2⟩ ⟨hdz1, hdz2⟩ hmin
    exact exec_admitted (exec_oscEstConfig _ _ _) rfl a
      (decide_eq_true ⟨hsw1, hsw2, hw1, hw2, hh1, hh2, hz1, hz2, hc1, hc2, hdf1, hdf2, hdz1, hdz2, hmin⟩) rfl rfl
  case refine_3 =>
    rintro p a hen ⟨hz1, hz2⟩ ⟨hy1, hy2⟩ ⟨hfz1, hfz2⟩ ⟨hd1, hd2⟩ ⟨ha1, ha2⟩ ⟨hf1, hf2⟩ ⟨hc1, hc2⟩ ⟨haf1, haf2⟩ ⟨har1, har2⟩ hrel
    exact exec_admitted (exec_oscAlarmConfig _ _ _) rfl a
      (decide_eq_true ⟨hen, hz1, hz2, hy1, hy2, hfz1, hfz2, hd1, hd2, ha1, ha2, hf1, hf2, hc1, hc2, haf1, haf2, har1, har2, hrel⟩) rfl rfl
  case refine_4 =>
    intro p e a hrsv hkind hnew hfree
    refine ⟨_, rfl, exec_admitted (exec_oscWatchAdd _ _ _) rfl a ?_ ?_ rfl⟩
    · simp [hrsv, hkind, hnew]
    · simp only [countCmd_osc, hfree, u, slotOf_withWatch]
      cases slotOf s p.chan.toNat with
      | none => rfl
      | some v => rfl
  case refine_5 =>
    intro p a hrsv hwatched hslot
    refine exec_admitted (exec_oscWatchRemove _ _ _) rfl a ?_ ?_ rfl
    · simp [hrsv, hwatched]
    · simp only [countCmd_osc, slotOf_withWatch, hslot]
      rfl
  case refine_6 =>
    intro p n a hrsv hbr hv hi hgrid hsame hfree
    refine exec_admitted (exec_oscBranchAdd _ _ _) rfl a ?_ ?_ rfl
    · rw [chanKind_countCmd, chanKind_countCmd, chanGrid_countCmd, chanGrid_countCmd, hgrid, decide_eq_true hsame,
        decide_eq_true (And.intro hrsv ⟨hbr, hv, hi⟩)]
      rfl
    · simp only [countCmd_osc, hfree]
      rfl
  case refine_7 =>
    intro p a hrsv hv hi hlt hbranch
    refine exec_admitted (exec_oscBranchRemove _ _ _) rfl a ?_ rfl rfl
    simp [hrsv, hv, hi, hlt, hbranch]
  case refine_8 =>
    intro p a hrsv hscope hkind
    refine exec_admitted (exec_oscRelearn _ _ _) rfl a ?_ ?_ rfl
    · simp [hrsv, hscope, hkind]
    · rw [hscope]
      rfl
  case refine_9 =>
    intro p a hrsv hscope hstream
    refine exec_admitted (exec_oscRelearn _ _ _) rfl a ?_ ?_ rfl
    · simp [hrsv, hscope, hstream]
    · rw [hscope]
      rfl
  case refine_10 =>
    intro p a hrsv hdiv hring hnone hfree
    refine exec_admitted (exec_oscOutputBind _ _ _) rfl a ?_ ?_ rfl
    · simp [hrsv, hdiv, hfree]
    · simp only [countCmd_osc, hnone, if_neg hring]
      rfl
  case refine_11 =>
    intro p n a hrsv hdiv hring hbound
    refine exec_admitted (exec_oscOutputBind _ _ _) rfl a ?_ ?_ rfl
    · simp [hrsv, hdiv, hring]
    · simp only [countCmd_osc, hbound, if_pos hring]
      rfl

end Sys2Proof.Machine

/-!
The events of the screen and of the estimator slots (7.2 to 7.5 of 07_oscillation.md, R187, R190, R193, R194, R198, Table 7.3).
-/

namespace Sys2Proof.Machine

section
variable (grid : BitVec 5) (slot : U16) (tag : U64) (s : State)

theorem exec_screenStep : exec (.screenStep grid tag) s = execScreenStep grid tag s := rfl
theorem exec_screenPatchFix : exec (.screenPatchFix grid tag) s = execScreenPatchFix grid tag s := rfl
theorem exec_estimatorStep : exec (.estimatorStep slot tag) s = execEstimatorStep slot tag s := rfl
theorem exec_estimatorHoldExpiry : exec (.estimatorHoldExpiry slot) s = execEstimatorHoldExpiry slot s := rfl

end

/-! ### A slab's work -/

/-- Work on a slab has the slab's settings and leaves the registers theirs (R204). -/
theorem underSlab_set (g k : Nat) (f : State → State) (s : State) : (underSlab g k f s).osc.set = s.osc.set := rfl

/-- Between whole seconds the screen takes the channels of its grid and ranks none (R191). -/
theorem screenSlab_between {g k : Nat} (hk : k % 1000000000 ≠ 0) (s : State) :
    screenSlab g k s = (gridChans { s with osc := { s.osc with screened := tset s.osc.screened g k } } g).foldl
      (fun t e => screenChan g k e.1 e.2 t) { s with osc := { s.osc with screened := tset s.osc.screened g k } } :=
  if_neg (fun hs => hk hs.1)

/-! ### One step of an estimator (R193, R194) -/

/-- The input of slot v on the slab of tag k is missing or predicted (R194). -/
def stepSkips (v : EstSlot) (k : Nat) (s : State) : Bool :=
  match reportAt s v.grid k v.chan (chanKind s v.chan) with
  | some c => c.fill.isSome
  | none => true

/-- State s once slot n, which is v in it, has stepped on the slab of tag k and its record is written. -/
def estStepped (n k : Nat) (v : EstSlot) (s : State) : State :=
  let r := estResult v (chanKind s v.chan) k (stepSkips v k s) s
  estOutput n k (ampCondition n k (bumpIf (stepSkips v k s) 0x07000148
    (bump 0x07000140 (modSlot n (fun x => stepSlot x s.osc.set k (stepSkips v k s) r.1 r.2.1) r.2.2))))

/-- A step that is due is made; the last of its grid's slots takes the work of the grid with it. -/
theorem estimatorWork_due {n k : Nat} {v : EstSlot} {s : State} (hv : getSlot s n = some v) (hdue : stepDue s v k = true) :
    estimatorWork n k s =
      if gridStepped (estStepped n k v s) v.grid k = false then estStepped n k v s
      else flowBranches v.grid k (if k % 1000000000 = 0 then wholeSecond v.grid k (estStepped n k v s) else estStepped n k v s) := by
  have hgo : ¬ stepDue s v k = false := by simp [hdue]
  simp only [estimatorWork, hv, if_neg hgo]
  rfl

/-- Settles O27: each row is due by its hypotheses, and what it then does is its effect; a step of an estimator is `estStepped`, and the work
of its grid where it is the last of the grid's slots. -/
theorem oscillationEventsComplete : Obligations.OscillationEventsComplete := by
  intro s
  refine ⟨?_, ?_, ?_, ?_, ?_, ?_⟩
  case refine_1 =>
    intro grid tag v hv hnew hst
    have htaken : ¬ (v.screened ∨ (v.state ≠ .final ∧ v.state ≠ .history)) := by
      rintro (hscr | ⟨hnf, hnh⟩)
      · simp [hnew] at hscr
      · exact hst.elim hnf hnh
    simp only [exec_screenStep, execScreenStep, hv, if_neg htaken]
  case refine_2 =>
    intro g k f
    exact ⟨fun hk => screenSlab_between hk s, underSlab_set g k f s⟩
  case refine_3 =>
    intro grid tag v hv hscr hpatch
    refine ⟨_, rfl, ?_⟩
    have hopen : ¬ (v.screened = false ∨ v.patches ≤ v.scrPatches) := by
      simp [hscr, hpatch]
    simp only [exec_screenPatchFix, execScreenPatchFix, hv, if_neg hopen]
  case refine_4 =>
    intro slot tag v hv
    simp only [exec_estimatorStep, execEstimatorStep, hv, Option.elim_some]
  case refine_5 =>
    intro n k v hv hdue
    exact estimatorWork_due hv hdue
  case refine_6 =>
    intro slot v hv hst hmay hpast
    have hmay' : (v.unwatched || slotClear s v) = true := Bool.or_eq_true_iff.2 hmay
    simp only [exec_estimatorHoldExpiry, execEstimatorHoldExpiry, hv]
    rw [if_pos ⟨hst, hmay', hpast⟩]

end Sys2Proof.Machine

/-!
The commands of the clusterer, the detectors, the alarm map and the alarm frames (8.1, 8.3, 8.4, 8.7, 8.8 and 8.13 of
08_islanding_alarms.md, R205, R209, R213, R214, R220, R225, R229, R234).
-/

namespace Sys2Proof.Machine

section
variable (h : Hdr) (s : State)

theorem exec_clusterConfig (p : ClusterConfigP) : exec (.clusterConfig h p) s = execClusterConfig h p s := rfl
theorem exec_busSignalAdd (p : BusSignalP) : exec (.busSignalAdd h p) s = execBusSignalAdd h p s := rfl
theorem exec_busSignalRemove (p : BusSignalP) : exec (.busSignalRemove h p) s = execBusSignalRemove h p s := rfl
theorem exec_clusterRef (p : ClusterRefP) : exec (.clusterRef h p) s = execClusterRef h p s := rfl
theorem exec_breakerMapAdd (p : BreakerMapP) : exec (.breakerMapAdd h p) s = execBreakerMapAdd h p s := rfl
theorem exec_breakerMapRemove (p : BreakerMapP) : exec (.breakerMapRemove h p) s = execBreakerMapRemove h p s := rfl
theorem exec_detectorConfig (p : DetectorConfigP) : exec (.detectorConfig h p) s = execDetectorConfig h p s := rfl
theorem exec_alarmMapSet (p : AlarmMapP) : exec (.alarmMapSet h p) s = execAlarmMapSet h p s := rfl
theorem exec_alarmMapRemove (p : AlarmMapP) : exec (.alarmMapRemove h p) s = execAlarmMapRemove h p s := rfl
theorem exec_alarmFrameConfig (p : AlarmFrameConfigP) : exec (.alarmFrameConfig h p) s = execAlarmFrameConfig h p s := rfl

end

/-- A grid that may be set, since no bus signal is mapped or it is the cluster grid already, is not BUSY (R205). -/
theorem clusterGrid_free {s : State} {g : Nat} (hfree : s.isl.signals = [] ∨ s.isl.cfg.grid = some g) :
    ¬ (s.isl.signals ≠ [] ∧ s.isl.cfg.grid ≠ some g) := by
  rintro ⟨hsig, hgrid⟩
  exact hfree.elim hsig hgrid

/-- Settles O28: each command is admitted by its own checks, and its body then runs on the counted state, whose clusterer and alarm blocks
are those of the state; a breaker takes the lowest free entry (log entry 15). -/
theorem islandCommandsComplete : Obligations.IslandCommandsComplete := by
  intro h s u
  refine ⟨?_, ?_, ?_, ?_, ?_, ?_, ?_, ?_, ?_, ?_⟩
  case refine_1 =>
    intro p a hg1 hg2 hnom hw1 hw2 hj1 hj2 hleave1 hleave2 hm1 hm2 hmin ho1 ho2 hus1 hus2 hrsv hfree
    exact exec_admitted (exec_clusterConfig _ _ _) rfl a
      (decide_eq_true ⟨hg1, hg2, hnom, hw1, hw2, hj1, hj2, hleave1, hleave2, hm1, hm2, hmin, ho1, ho2, hus1, hus2, hrsv⟩)
      (if_neg (clusterGrid_free hfree)) rfl
  case refine_2 =>
    intro p a hrsv hi hnew hf ha hroom
    refine exec_admitted (exec_busSignalAdd _ _ _) rfl a ?_ (if_neg (Nat.not_le.2 hroom)) rfl
    rw [onCluGrid_countCmd, onCluGrid_countCmd, hf, ha, Bool.and_true, Bool.and_true]
    exact decide_eq_true ⟨hrsv, hi, hnew⟩
  case refine_3 =>
    intro p a hrsv hi hf ha hstands
    exact ⟨_, rfl, exec_admitted (exec_busSignalRemove _ _ _) rfl a
      (Bool.and_eq_true_iff.2 ⟨decide_eq_true ⟨hrsv, hi, hf, ha⟩, hstands⟩) rfl rfl⟩
  case refine_4 =>
    intro p a hlen hrefs
    exact exec_admitted (exec_clusterRef _ _ _) rfl a (Bool.and_eq_true_iff.2 ⟨decide_eq_true hlen, hrefs⟩) rfl rfl
  case refine_5 =>
    intro p e a hbit hentry hsa hsb hclosed hrsv hkind hfree
    refine exec_admitted (exec_breakerMapAdd _ _ _) rfl a (decide_eq_true ⟨hbit, hentry, hsa, hsb, hclosed, hrsv, hkind⟩) ?_ rfl
    simp only [countCmd_isl, hfree]
    rfl
  case refine_6 =>
    intro p a hentry hrsv hbit hclosed hstands
    exact exec_admitted (exec_breakerMapRemove _ _ _) rfl a
      (Bool.and_eq_true_iff.2 ⟨decide_eq_true ⟨hentry, hrsv, hbit, hclosed⟩, hstands⟩) rfl rfl
  case refine_7 =>
    intro p a hok
    exact exec_admitted (exec_detectorConfig _ _ _) rfl a hok rfl rfl
  case refine_8 =>
    intro p a hrsv hentry hrange hrsv2
    exact exec_admitted (exec_alarmMapSet _ _ _) rfl a (decide_eq_true ⟨hrsv, hentry, hrange, hrsv2⟩) rfl rfl
  case refine_9 =>
    intro p a hrsv hentry hrange hrsv2 hstands
    exact exec_admitted (exec_alarmMapRemove _ _ _) rfl a
      (Bool.and_eq_true_iff.2 ⟨decide_eq_true ⟨hrsv, hentry, hrange, hrsv2⟩, hstands⟩) rfl rfl
  case refine_10 =>
    intro p a hrep hms1 hms2 href1 href2 hport
    refine exec_admitted (exec_alarmFrameConfig _ _ _) rfl a
      (Bool.and_eq_true_iff.2 ⟨decide_eq_true ⟨hrep, hms1, hms2, href1, href2⟩, ?_⟩) rfl rfl
    rw [portTaken_countCmd, Bool.or_eq_true, decide_eq_true_eq, Bool.not_eq_true']
    exact or_iff_not_imp_left.2 hport

end Sys2Proof.Machine

/-!
The evaluations of the clusterer, and the timed work and the frames of the alarm stages (8.2, 8.4, 8.7 and 8.8 of 08_islanding_alarms.md,
R207, R215, R222, R223, R225, R227, R229).
-/

namespace Sys2Proof.Machine

section
variable (n : BitVec 4) (s : State)

theorem exec_clusterEvaluation (tag : U64) : exec (.clusterEvaluation tag) s = execClusterEvaluation tag s := rfl
theorem exec_alarmTestExpiry : exec (.alarmTestExpiry n) s = execAlarmTestExpiry n s := rfl
theorem exec_pinMinOnExpiry : exec (.pinMinOnExpiry n) s = execPinMinOnExpiry n s := rfl
theorem exec_alarmFrameRepeat : exec (.alarmFrameRepeat n) s = execAlarmFrameRepeat n s := rfl
theorem exec_alarmStateRefresh : exec (.alarmStateRefresh n) s = execAlarmStateRefresh n s := rfl
theorem exec_gooseRetransmit : exec (.gooseRetransmit n) s = execGooseRetransmit n s := rfl

end

/-! ### A received alarm frame (R229) -/

section
variable {f : AlarmRx} {s : State}

/-- The frame is no alarm frame of 64 bytes of version 1 (Table 8.5). -/
abbrev AlarmRxBad (f : AlarmRx) : Prop := f.len ≠ 64 ∨ f.magic ≠ 0x4F54414C ∨ f.version ≠ 1

theorem alarmRx_whole (hlen : f.len = 64) (hmagic : f.magic = 0x4F54414C) (hversion : f.version = 1) : ¬ AlarmRxBad f := by
  simp [AlarmRxBad, hlen, hmagic, hversion]

/-- The sequence numbers last taken from the source of a frame, as they stand in state t. -/
def alarmRxSeen (f : AlarmRx) (t : State) : List U32 := tgetD t.alm.rxSeen f.sourceId.toNat []

/-- A new frame is noted by its sequence number, counted, and told to the hosts. -/
def alarmRxTake (f : AlarmRx) (t : State) : State :=
  raise 0x0810 1 (leBytes 2 f.sourceId.toNat ++ [f.kind, f.stage] ++ leBytes 2 f.alarm.toNat ++ [f.claim] ++ leBytes 2 f.flags.toNat ++
    leBytes 8 f.evTs.toNat) none (bump 0x08000168
    { t with alm := { t.alm with rxSeen := tset t.alm.rxSeen f.sourceId.toNat ((f.seq :: alarmRxSeen f t).take 16) } })

/-- With a receive port set, the frame leaves its queue and is judged by poison, form and sequence number in this order. -/
theorem exec_alarmFrameRx_on (hport : s.alm.rxPort ≠ 0) : exec (.alarmFrameRx f) s = .next (
    if f.poisoned then popIn f.port.toNat .c0 s
    else if AlarmRxBad f then bump 0x08000170 (popIn f.port.toNat .c0 s)
    else if (alarmRxSeen f (popIn f.port.toNat .c0 s)).contains f.seq then bump 0x08000178 (popIn f.port.toNat .c0 s)
    else alarmRxTake f (popIn f.port.toNat .c0 s)) :=
  congrArg Host.Outcome.next (if_neg hport)

/-- A frame that is read whole is a repeat of one taken before, or is taken. -/
theorem exec_alarmFrameRx_whole (hport : s.alm.rxPort ≠ 0) (hpoison : f.poisoned = false) (hwhole : ¬ AlarmRxBad f) :
    exec (.alarmFrameRx f) s = .next (
      if (alarmRxSeen f (popIn f.port.toNat .c0 s)).contains f.seq then bump 0x08000178 (popIn f.port.toNat .c0 s)
      else alarmRxTake f (popIn f.port.toNat .c0 s)) := by
  rw [exec_alarmFrameRx_on hport, if_neg (by simp [hpoison]), if_neg hwhole]

end

/-- Settles O30: each row is due by its hypotheses, and what it then does is its effect; a received frame goes by what it shows. -/
theorem alarmEventsComplete : Obligations.AlarmEventsComplete := by
  intro n s v
  refine ⟨?_, ?_, exec_pinMinOnExpiry n s, exec_alarmFrameRepeat n s, ?_, ?_, ?_, ?_, ?_, ?_⟩
  case refine_1 =>
    intro tag g x hg hx hst hnew hwanted
    have hopen : ¬ (x.state = .forming ∨ releases x ≤ x.evals) := not_or.2 ⟨hst, Nat.not_le.2 hnew⟩
    have hdeliver : ¬ (0 < x.patches ∧ patchWanted s g tag.toNat = false) := by
      rintro ⟨hpatch, hno⟩
      exact hwanted.elim (Nat.ne_of_gt hpatch) (by simp [hno])
    simp only [exec_clusterEvaluation, execClusterEvaluation, hg, hx, if_neg hopen, if_neg hdeliver]
  case refine_2 =>
    intro e hend hst hdue
    simp only [exec_alarmTestExpiry, execAlarmTestExpiry]
    rw [hend]
    exact congrArg Host.Outcome.next (if_pos ⟨hst, hdue⟩)
  case refine_3 =>
    intro hst hframe hlast
    have hdue : ¬ (v.state = .disabled ∨ v.frame = false ∨ v.lastState = refreshAt s s.alm.refreshMs) := by
      simp [hst, hframe, hlast]
    exact congrArg Host.Outcome.next (if_neg hdue)
  case refine_4 =>
    intro g e hgse hnext hdue hon hst
    refine ⟨_, rfl, ?_⟩
    simp only [exec_gooseRetransmit, execGooseRetransmit]
    rw [hgse]
    dsimp only
    rw [hnext]
    exact congrArg Host.Outcome.next (if_pos ⟨hdue, hon, hst⟩)
  case refine_5 =>
    intro f hport hpoison
    rw [exec_alarmFrameRx_on hport, if_pos hpoison]
  case refine_6 =>
    intro f hport hpoison hbad
    rw [exec_alarmFrameRx_on hport, if_neg (by simp [hpoison]), if_pos hbad]
  case refine_7 =>
    intro f hport hpoison hlen hmagic hversion hseen
    rw [exec_alarmFrameRx_whole hport hpoison (alarmRx_whole hlen hmagic hversion)]
    exact congrArg Host.Outcome.next (if_pos hseen)
  case refine_8 =>
    intro f seen hport hpoison hlen hmagic hversion hseen hnew
    have hfirst : ¬ (alarmRxSeen f (popIn f.port.toNat .c0 s)).contains f.seq = true := by
      rw [alarmRxSeen, ← hseen, hnew]
      decide
    refine ⟨_, rfl, ?_⟩
    rw [exec_alarmFrameRx_whole hport hpoison (alarmRx_whole hlen hmagic hversion), if_neg hfirst, hseen]
    rfl

end Sys2Proof.Machine

/-!
The commands of group 0x09 (9.1 to 9.3, 9.8 and 9.11 of 09_capture_records.md, R235, R239, R242, R244, R252 to R254, R256).
-/

namespace Sys2Proof.Machine

section
variable (h : Hdr) (s : State)

theorem exec_captureAdd (p : CaptureAddP) : exec (.captureAdd h p) s = execCaptureAdd h p s := rfl
theorem exec_captureSources (p : CaptureSourcesP) : exec (.captureSources h p) s = execCaptureSources h p s := rfl
theorem exec_captureTriggerSet (p : CaptureTriggerSetP) : exec (.captureTriggerSet h p) s = execCaptureTriggerSet h p s := rfl
theorem exec_captureArm (p : CaptureArmP) : exec (.captureArm h p) s = execCaptureArm h p s := rfl
theorem exec_captureDisarm (p : CaptureArmP) : exec (.captureDisarm h p) s = execCaptureDisarm h p s := rfl
theorem exec_captureTrigger (p : CaptureTriggerP) : exec (.captureTrigger h p) s = execCaptureTrigger h p s := rfl
theorem exec_captureRecordFree (p : CaptureRecordFreeP) : exec (.captureRecordFree h p) s = execCaptureRecordFree h p s := rfl
theorem exec_captureExport (p : CaptureExportP) : exec (.captureExport h p) s = execCaptureExport h p s := rfl
theorem exec_captureRetire (p : CaptureRetireP) : exec (.captureRetire h p) s = execCaptureRetire h p s := rfl
theorem exec_halgaImport (p : HalgaImportP) : exec (.halgaImport h p) s = execHalgaImport h p s := rfl
theorem exec_halgaMerge (p : HalgaMergeP) : exec (.halgaMerge h p) s = execHalgaMerge h p s := rfl
theorem exec_captureRemoteConfig (p : CaptureRemoteConfigP) :
    exec (.captureRemoteConfig h p) s = execCaptureRemoteConfig h p s := rfl

end

/-! ### Reading a capture -/

section
variable {s : State}

@[simp] theorem raise_cap (code sev : Nat) (params : Bytes) (o : Option HP) (s : State) : (raise code sev params o s).cap = s.cap :=
  raise_onlyIn code sev params o s .cap (by decide)

@[simp] theorem getCap_raise (code sev : Nat) (params : Bytes) (o : Option HP) (s : State) (c : Nat) :
    getCap (raise code sev params o s) c = getCap s c := by
  rw [getCap, raise_cap, getCap]

@[simp] theorem getCap_modCap (c : Nat) (f : Cap → Cap) (s : State) : getCap (modCap c f s) c = (getCap s c).map f :=
  tget_tmod_same _ _ _

@[simp] theorem getCap_answer (h : Hdr) (op : Nat) (r : Rep) (c : Nat) : getCap (answer h op r) c = getCap r.s c := by
  have hcap : (answer h op r).cap = r.s.cap := answer_onlyIn h op r .cap (by decide)
  rw [getCap, hcap, getCap]

/-- A change of state reaches the state it names, and leaves the rest of its capture. -/
theorem getCap_capState {c : Nat} {k : Cap} {st : CapState} (hk : getCap s c = some k) :
    getCap (capState c st s) c = some { k with state := st } := by
  simp only [capState, hk]
  split
  · rename_i hst
    rw [hk, ← hst]
  · rw [getCap_raise, getCap_modCap, hk, Option.map_some]

theorem capNamed_of_mayName {h : Hdr} {c : U8} {k : Cap} (hk : getCap s c.toNat = some k) (hmay : mayName s h.part k.owner = true) :
    capNamed s h c = true := by
  simp only [capNamed, hk, hmay]

end

/-! ### A trigger entry (R242) -/

/-- The entry of a CAPTURE-TRIGGER-SET, at rest. -/
def triggerEntry (p : CaptureTriggerSetP) : TrigEntry :=
  { kind := p.kind.toNat, dir := p.dir.toNat, lane := p.lane.toNat, send := p.flags.getLsbD 0, pos := p.pos.toNat, level := p.level
    hyst := p.hyst, param := p.param, holdoffMs := p.holdoffMs.toNat, holdEnd := none, inside := false, last := none, cancelled := none }

/-- The named capture has the entry, kind 0 clears it, and what the old entry had scheduled is dropped. -/
def withTrigger (p : CaptureTriggerSetP) (s : State) : State :=
  modCap p.capture.toNat (fun y => { y with entries := if p.kind = 0 then tdel y.entries p.entry.toNat
                                                       else tset y.entries p.entry.toNat (triggerEntry p) })
    (dropTimed (fun a => decide (a = .trigger p.capture.toNat p.entry.toNat)) s)

/-- The entry of a disarmed capture is set; a TIMED one fires at once when it is late, and is scheduled otherwise. -/
theorem exec_captureTriggerSet_disarmed {h : Hdr} {s : State} {p : CaptureTriggerSetP} {k : Cap}
    (a : Admitted (cmd 0x0903 .openC false 32) h s) (hk : getCap s p.capture.toNat = some k) (hmay : mayName s h.part k.owner = true)
    (hok : triggerSetOk k p = true) (hst : k.state = .disarmed) (hvalid : p.kind = 6 → s.clk.timeValid = true) :
    exec (.captureTriggerSet h p) s = .next (answer h 0x0903 (
      if p.kind ≠ 6 then done (withTrigger p (countCmd h s))
      else if p.param.toNat < taiNs s then
        done (lateAction 9 (taiNs s - p.param.toNat) (fireTimedEntry p.capture.toNat p.entry.toNat p.param.toNat (withTrigger p (countCmd h s))))
      else done (addTimed ⟨p.param.toNat, .trigger p.capture.toNat p.entry.toNat⟩ (withTrigger p (countCmd h s))))) := by
  refine exec_admitted (exec_captureTriggerSet _ _ _) rfl a ?_ ?_ rfl
  · simp only [getCap_countCmd, hk, hok, Bool.and_true]
    exact capNamed_of_mayName hk hmay
  · have hgo : ¬ (k.state ≠ .disarmed ∨ (p.kind = 6 ∧ (countCmd h s).clk.timeValid = false)) := by
      rintro (hrun | ⟨htimed, hno⟩)
      · exact hrun hst
      · rw [countCmd_clk, hvalid htimed] at hno
        cases hno
    simp only [getCap_countCmd, hk, if_neg hgo]
    rfl

/-! ### Disarming (R239) -/

/-- A record at the disarm instant: one in progress is cut there, and rows still in the rings are kept in it. -/
def disarmRecord (s : State) (k : Cap) (r : RecSlot) : RecSlot :=
  if r.state = .recording then
    { snapshot s k { r with record := { r.record with tEnd := taiNs s, truncated := true } } with state := .assembling }
  else snapshot s k r

/-- Capture c, which is k, disarmed: its records are closed and its rings are empty. -/
def disarmCap (c : Nat) (k : Cap) (s : State) : State :=
  modCap c (fun x => { x with slots := tmap (fun _ r => disarmRecord s k r) x.slots
                              lanes := x.lanes.map (fun l => { l with rows := [] }) }) (capState c .disarmed s)

section
variable {h : Hdr} {s : State} {k : Cap}

/-- A disarmed capture is DISARMED, with no row in any lane. -/
theorem disarmCap_empties {c : Nat} (hk : getCap s c = some k) :
    (getCap (disarmCap c k s) c).map (·.state) = some .disarmed ∧
    (getCap (disarmCap c k s) c).map (fun x => x.lanes.map (·.rows)) = some (k.lanes.map (fun _ => [])) := by
  rw [disarmCap, getCap_modCap, getCap_capState hk]
  exact ⟨rfl, congrArg some List.map_map⟩

theorem exec_captureDisarm_running {p : CaptureArmP} (a : Admitted (cmd 0x0904 .openC true 4) h s)
    (hk : getCap s p.capture.toNat = some k) (hmay : mayName s h.part k.owner = true) (hrsv : p.rsv = 0) (hst : k.state ≠ .disarmed) :
    exec (.captureDisarm h p) s = .next (answer h 0x0904 (done (disarmCap p.capture.toNat k (countCmd h s)))) := by
  refine exec_admitted (exec_captureDisarm _ _ _) rfl a ?_ ?_ rfl
  · exact Bool.and_eq_true_iff.2 ⟨capNamed_of_mayName hk hmay, decide_eq_true hrsv⟩
  · simp only [getCap_countCmd, hk, if_neg hst]
    rfl

end

/-- Settles O31: each command is admitted by its own checks, and its body then runs on the counted state, whose captures, imports and merges
are those of the state; a new capture, import or merge takes the lowest free number (log entry 15). -/
theorem captureCommandsComplete : Obligations.CaptureCommandsComplete := by
  intro h s u
  refine ⟨?_, ?_, ?_, ?_, ?_, ?_, ?_, ?_, ?_, ?_, ?_, ?_, ?_⟩
  case refine_1 =>
    intro p b c a hok hb hquota hroom hfree
    subst hb
    refine ⟨_, rfl, exec_admitted (exec_captureAdd _ _ _) rfl a hok ?_ rfl⟩
    refine (if_neg (not_or.2 ⟨Nat.not_lt.2 hquota, Nat.not_lt.2 hroom⟩)).trans ?_
    simp only [countCmd_cap, hfree]
    rfl
  case refine_2 =>
    intro p k l a hk hmay hrsv hn hlen hl hsrc hroom hst
    refine exec_admitted (exec_captureSources _ _ _) rfl a ?_ ?_ rfl
    · simp only [getCap_countCmd, hk, Option.bind_some, hl, Bool.and_eq_true, decide_eq_true_eq]
      exact ⟨⟨capNamed_of_mayName hk hmay, hrsv, hn, hlen⟩, hsrc, hroom⟩
    · simp only [getCap_countCmd, hk, if_neg (not_not.2 hst)]
      rfl
  case refine_3 =>
    intro p k a hk hmay hok hst hkind
    refine ⟨_, rfl, _, rfl, ?_⟩
    rw [exec_captureTriggerSet_disarmed a hk hmay hok hst (fun hc => absurd hc hkind), if_pos hkind]
    rfl
  case refine_4 =>
    intro p k a hk hmay hok hst hkind hvalid hlate
    refine ⟨_, rfl, _, rfl, ?_⟩
    rw [exec_captureTriggerSet_disarmed a hk hmay hok hst (fun _ => hvalid), if_neg (not_not.2 hkind), if_neg (Nat.not_lt.2 hlate)]
    simp only [withTrigger, triggerEntry, hkind]
    rfl
  case refine_5 =>
    intro p k a hk hmay hrsv hst
    refine ⟨_, rfl, _, rfl, exec_admitted (exec_captureArm _ _ _) rfl a ?_ ?_ rfl⟩
    · exact Bool.and_eq_true_iff.2 ⟨capNamed_of_mayName hk hmay, decide_eq_true hrsv⟩
    · simp only [getCap_countCmd, hk, if_neg (not_not.2 hst)]
      rfl
  case refine_6 =>
    intro p k a hk hmay hrsv hst _
    refine ⟨_, exec_captureDisarm_running a hk hmay hrsv hst, answer_answers _ _ _ _ _, ?_⟩
    rw [getCap_answer]
    exact disarmCap_empties hk
  case refine_7 =>
    intro p a hnamed hrsv hflags hvalid
    refine exec_admitted (exec_captureTrigger _ _ _) rfl a ?_ (if_neg ?_) rfl
    · exact Bool.and_eq_true_iff.2 ⟨hnamed, decide_eq_true ⟨hrsv, hflags⟩⟩
    · rintro ⟨hat, hno⟩
      rw [countCmd_clk, hvalid hat] at hno
      cases hno
  case refine_8 =>
    intro p k r a hk hmay hrsv hslot hr hready
    refine exec_admitted (exec_captureRecordFree _ _ _) rfl a ?_ ?_ rfl
    · simp only [getCap_countCmd, hk, Bool.and_eq_true, decide_eq_true_eq]
      exact ⟨⟨capNamed_of_mayName hk hmay, hrsv⟩, hslot⟩
    · simp only [getCap_countCmd, hk, Option.bind_some, hr, if_neg (not_not.2 hready)]
      rfl
  case refine_9 =>
    intro p r a hnamed hring hfmt hfree hrsv hr hready
    refine ⟨_, rfl, exec_admitted (exec_captureExport _ _ _) rfl a ?_ ?_ rfl⟩
    · simp only [Bool.and_eq_true, decide_eq_true_eq]
      exact ⟨⟨hnamed, hring⟩, hfmt, hfree, hrsv⟩
    · simp only [recAt_countCmd, hr, if_neg (not_not.2 hready)]
      rfl
  case refine_10 =>
    intro p k a hk hmay hforce hrsv hret hnone
    refine exec_admitted (exec_captureRetire _ _ _) rfl a ?_ ?_ rfl
    · exact Bool.and_eq_true_iff.2 ⟨capNamed_of_mayName hk hmay, decide_eq_true ⟨hforce, hrsv⟩⟩
    · have hgo : ¬ (k.retiring.isSome ∨ (p.force = 0 ∧ tany (fun _ r => decide (r.state = .ready)) k.slots)) := by
        rintro (hsome | ⟨hzero, hany⟩)
        · simp [hret] at hsome
        · simp [hnone hzero] at hany
      simp only [getCap_countCmd, hk, if_neg hgo]
      rfl
  case refine_11 =>
    intro p n a hring hrsv hmin hmax hfree hroom
    refine ⟨_, rfl, exec_admitted (exec_halgaImport _ _ _) rfl a ?_ ?_ rfl⟩
    · exact Bool.and_eq_true_iff.2 ⟨hring, decide_eq_true ⟨hrsv, hmin, hmax⟩⟩
    · rw [countCmd_cap, hfree]
      exact if_neg (Nat.not_lt.2 hroom)
  case refine_12 =>
    intro p n a hmode hn1 hn2 hlen hnamed hready hfree
    refine ⟨_, rfl, exec_admitted (exec_halgaMerge _ _ _) rfl a ?_ ?_ rfl⟩
    · have hmode2 : p.mode.toNat < 2 := by rw [hmode]; decide
      simp only [Bool.and_eq_true, Bool.or_eq_true, decide_eq_true_eq]
      exact ⟨⟨⟨hmode2, hn1, hn2, hlen⟩, by simpa using hnamed⟩, .inl (by simp [hmode])⟩
    · refine (if_neg (fun hbusy => Bool.false_ne_true (hbusy.symm.trans hready))).trans ?_
      simp only [countCmd_cap, hfree, hmode]
      rfl
  case refine_13 =>
    intro p a hgroup htarget hport
    refine exec_admitted (exec_captureRemoteConfig _ _ _) rfl a ?_ rfl rfl
    simp only [portTaken_countCmd, Bool.and_eq_true, Bool.or_eq_true, decide_eq_true_eq, Bool.not_eq_true']
    exact ⟨⟨hgroup, htarget⟩, by simpa using hport⟩

end Sys2Proof.Machine

/-!
The events of the capture engine, of the records and of remote triggers (9.1 to 9.3, 9.5 and 9.8 of 09_capture_records.md, R236, R242, R244, R247,
R252 to R254, R256).
-/

namespace Sys2Proof.Machine

section
variable (c : U8) (s : State)

theorem exec_captureFilled : exec (.captureFilled c) s = execCaptureFilled c s := rfl
theorem exec_triggerHoldoffEnd (entry : BitVec 4) : exec (.triggerHoldoffEnd c entry) s = execTriggerHoldoffEnd c entry s := rfl
theorem exec_captureRows (lane : U8) (rows : CapIn) : exec (.captureRows c lane rows) s = execCaptureRows c lane rows s := rfl
theorem exec_recordAssembled (slot : U8) : exec (.recordAssembled c slot) s = execRecordAssembled c slot s := rfl
theorem exec_captureExportDone (cmd : U32) : exec (.captureExportDone cmd) s = execCaptureExportDone cmd s := rfl
theorem exec_captureRetireDone : exec (.captureRetireDone c) s = execCaptureRetireDone c s := rfl
theorem exec_halgaImportDone (cmd : U32) (r : HalgaIn) : exec (.halgaImportDone cmd r) s = execHalgaImportDone cmd r s := rfl
theorem exec_halgaMergeDone (cmd : U32) : exec (.halgaMergeDone cmd) s = execHalgaMergeDone cmd s := rfl
theorem exec_remoteTriggerRx (f : RemoteRx) : exec (.remoteTriggerRx f) s = execRemoteTriggerRx f s := rfl

end

/-! ### Rows (R236) -/

/-- State s once lane n of capture c, which are l and k in it, has taken rows. -/
def takeRows (c n : Nat) (k : Cap) (l : Lane) (s : State) : CapIn → State
  | .report tag patch =>
    if l.kind ≠ 0 ∨ slabFinal s l.rate tag.toNat = false then s
    else
      let words := l.sources.map (fun e => reportWord s l.rate tag.toNat e.1)
      if patch then patchRow c n k l tag.toNat words s
      else if l.rows.any (fun r => decide (r.1 = tag.toNat)) then s
      else newRow c n k l (tag.toNat, words) s
  | .sample instant =>
    match sampleRow s l instant.toNat with
    | none => s
    | some words => tookTo c n (elOf s instant.toNat) (newRow c n k l (instant.toNat, words) s)
  | .lost instant cnt =>
    if cnt = 0 ∨ rowInstant s l instant.toNat = false ∨ taiNs s < lastLost l cnt.toNat instant.toNat then s
    else
      capMark c (mkMark 3 n 0 0 0 instant.toNat 0 0 cnt.toNat 0) (fun x => decide (x = .recording))
        (modCap c (fun x => { x with rowLost := satAdd (2 ^ 64 - 1) x.rowLost cnt.toNat })
          (tookTo c n (elOf s (lastLost l cnt.toNat instant.toNat)) (lostRows c n k l cnt.toNat instant.toNat s)))

/-- A capture that is armed takes the rows of its lane; its records are then settled, and exported where they are to be. -/
theorem exec_captureRows_running {c lane : U8} {s : State} {k : Cap} {l : Lane} (rows : CapIn) (hk : getCap s c.toNat = some k)
    (hst : k.state ≠ .disarmed) (hl : k.lanes[lane.toNat]? = some l) :
    exec (.captureRows c lane rows) s =
      .next (autoExport c.toNat (settleRecords c.toNat (takeRows c.toNat lane.toNat k l s rows))) := by
  simp only [exec_captureRows, execCaptureRows, hk, if_neg hst, hl]
  cases rows with
  | report tag patch => rfl
  | sample instant => rfl
  | lost instant cnt => rfl

/-! ### Records (R247) -/

/-- A slot whose record is assembled in state s: the record with its worst time quality and its measurements, READY. -/
def assembledSlot (s : State) (k : Cap) (r : RecSlot) : RecSlot :=
  let h := (snapshot s k r).record
  let h1 := { h with tq := BitVec.toNat (BitVec.ofNat 4 (worstTq s h.tStart h.tEnd)), createdTs := taiNs s }
  let h2 := { h1 with meas := measAll h1 r.chan (k.refLane.map (fun l => (l, k.refPos))) }
  { r with state := .ready, record := h2, bytes := (halgaBytes h2).length, readyTs := taiNs s }

/-- An assembled record is READY, with the length of its bytes. -/
theorem assembledSlot_ready (s : State) (k : Cap) (r : RecSlot) :
    (assembledSlot s k r).state = .ready ∧ (assembledSlot s k r).bytes = (halgaBytes (assembledSlot s k r).record).length :=
  ⟨rfl, rfl⟩

/-! ### Imports (R252) -/

/-- A Halga file that comes whole, unpoisoned and readable stands in its import slot, READY. -/
theorem exec_halgaImportDone_read {cmd : U32} {r : HalgaIn} {s : State} {n ring bytes k : Nat} {p : HP} {q : Ring} {x : Halga}
    (hjob : tget s.cap.jobs cmd.toNat = some (.importJob n p ring bytes)) (hq : getRing s p ring = some q) (huse : q.use = .halga)
    (hreads : hostReads s p = true) (hbuf : buffersFor q.owned bytes = some k) (hclean : r.poison = 0) (hlen : r.bytes.length = bytes)
    (hread : readHalga r.bytes = some x) :
    exec (.halgaImportDone cmd r) s = .next (completeLong cmd.toNat .ok [BitVec.ofNat 8 n] (bump 0x09000120
      (setRecAt 1 0 n (some { emptyRec with state := .ready, bytes, record := x, readyTs := taiNs s })
        (delJob cmd.toNat (unbindRing p ring .halga (readBuffers p ring .ok k s)))))) := by
  have hposted : (getRing s p ring).bind (fun q => if q.use = .halga ∧ hostReads s p then buffersFor q.owned bytes else none) = some k := by
    rw [hq, Option.bind_some, if_pos ⟨huse, hreads⟩, hbuf]
  simp only [exec_halgaImportDone, execHalgaImportDone, hjob]
  rw [hposted]
  simp only [hclean, if_pos hlen, hread]
  rfl

/-! ### Remote triggers (R244) -/

section
variable {f : RemoteRx} {s : State}

/-- The frame is no remote-trigger frame of 32 bytes of version 1 (Table 9.4). -/
abbrev RemoteRxBad (f : RemoteRx) : Prop := f.len ≠ 32 ∨ f.magic ≠ 0x4F545452 ∨ f.version ≠ 1

/-- The sequence numbers last taken from the unit of a frame, as they stand in state t. -/
def remoteSeen (f : RemoteRx) (t : State) : List U32 := tgetD t.cap.rxSeen f.unitId.toNat []

/-- A new trigger is noted by its sequence number, counted, and fires the entries of its group. -/
def remoteTake (f : RemoteRx) (t : State) : State :=
  fireRemote f (bump 0x09000100
    { t with cap := { t.cap with rxSeen := tset t.cap.rxSeen f.unitId.toNat ((f.seq :: remoteSeen f t).take 16) } })

/-- With a receive port set, the frame leaves its queue, and the first check that applies decides. -/
theorem exec_remoteTriggerRx_on (hport : s.cap.rtPort ≠ 0) {t : State} (ht : t = popIn f.port.toNat .c0 s) :
    exec (.remoteTriggerRx f) s = .next (
      if RemoteRxBad f then remoteBad 2 f t
      else if f.flags.getLsbD 0 = false ∨ t.clk.timeValid = false then remoteBad 0 f t
      else if taiNs t + 1000000000 < f.tTrig.toNat then remoteBad 1 f t
      else if (remoteSeen f t).contains f.seq then bump 0x09000108 t
      else if f.poisoned then t
      else remoteTake f t) := by
  subst ht
  exact congrArg Host.Outcome.next (if_neg hport)

end

/-- Settles O32: each row is due by its hypotheses, and what it then does is its effect; a received trigger goes by the checks of R244 in
their order. -/
theorem captureEventsComplete : Obligations.CaptureEventsComplete := by
  intro c s
  refine ⟨?_, ?_, ?_, ?_, ?_, ?_, ?_, ?_, ?_, ?_, ?_, ?_⟩
  case refine_1 =>
    intro k hk hst hdue
    simp only [exec_captureFilled, execCaptureFilled, hk]
    rw [if_pos ⟨hst, hdue⟩]
  case refine_2 =>
    intro entry k x e hk hx hend hdue
    simp only [exec_triggerHoldoffEnd, execTriggerHoldoffEnd, hk, Option.bind_some, hx, hend, if_pos hdue]
  case refine_3 =>
    intro lane tag patch k l hk hst hl hkind hfinal hnew
    have hopen : ¬ (l.kind ≠ 0 ∨ slabFinal s l.rate tag.toNat = false) := by simp [hkind, hfinal]
    refine ⟨_, rfl, ?_⟩
    rw [exec_captureRows_running _ hk hst hl, takeRows, if_neg hopen]
    cases patch with
    | true => rfl
    | false =>
      have hfirst : ¬ l.rows.any (fun r => decide (r.1 = tag.toNat)) = true := by
        rw [hnew.resolve_left (by decide)]
        decide
      simp only [if_neg hfirst]
  case refine_4 =>
    intro lane instant words k l hk hst hl hrow
    simp only [exec_captureRows_running _ hk hst hl, takeRows, hrow]
  case refine_5 =>
    intro lane instant cnt k l hk hst hl hcnt hinst hpast
    have hlost : ¬ (cnt = 0 ∨ rowInstant s l instant.toNat = false ∨ taiNs s < lastLost l cnt.toNat instant.toNat) :=
      not_or.2 ⟨hcnt, by simp [hinst, hpast]⟩
    rw [exec_captureRows_running _ hk hst hl, takeRows, if_neg hlost]
  case refine_6 =>
    intro slot k r hk hr hst hcond hdue
    have hready : ¬ (r.state ≠ .assembling ∨ r.condTs = none ∨
        elNs (settleRecords c.toNat s) < r.condEl + k.patchHoldMs * 1000000) := by
      simp [hst, hcond, hdue]
    obtain ⟨hdone, hbytes⟩ := assembledSlot_ready (settleRecords c.toNat s) k r
    refine ⟨_, ?_, assembledSlot (settleRecords c.toNat s) k r, _, rfl, hdone, hbytes, rfl⟩
    simp only [exec_recordAssembled, execRecordAssembled, hk, hr, if_neg hready]
    rfl
  case refine_7 =>
    intro cmd src n fmt d p ring fr r w hjob hrec hwrite
    simp only [exec_captureExportDone, execCaptureExportDone, hjob, hrec, hwrite]
  case refine_8 =>
    intro k id hk hret hidle
    have hready : ¬ tany (fun _ r => decide (r.state = .exporting)) k.slots = true := by simp [hidle]
    refine ⟨_, rfl, ?_⟩
    simp only [exec_captureRetireDone, execCaptureRetireDone, hk, hret]
    exact congrArg Host.Outcome.next (if_neg hready)
  case refine_9 =>
    exact fun _ _ _ _ _ _ _ _ _ => exec_halgaImportDone_read
  case refine_10 =>
    intro cmd n mode sRate grid inputs hjob rs x bytes hall hvalid hroom
    have hvalid' : ¬ rs.all (·.timeValid) = false := by simp [hvalid]
    simp only [exec_halgaMergeDone, execHalgaMergeDone, hjob]
    rw [if_neg (not_not.2 hall), if_neg hvalid', if_neg (Nat.not_lt.2 hroom)]
  case refine_11 =>
    intro f hport hbad
    rw [exec_remoteTriggerRx_on hport rfl, if_pos hbad]
  case refine_12 =>
    intro f hport hlen hmagic hversion hflag hvalid hearly hnew hclean
    refine ⟨_, rfl, ?_⟩
    have hwhole : ¬ RemoteRxBad f := by simp [RemoteRxBad, hlen, hmagic, hversion]
    have htimed : ¬ (f.flags.getLsbD 0 = false ∨ (popIn f.port.toNat .c0 s).clk.timeValid = false) := by simp [hflag, hvalid]
    have hfirst : ¬ (remoteSeen f (popIn f.port.toNat .c0 s)).contains f.seq = true := by
      rw [remoteSeen, hnew]
      decide
    rw [exec_remoteTriggerRx_on hport rfl, if_neg hwhole, if_neg htimed, if_neg (Nat.not_lt.2 hearly), if_neg hfirst, if_neg (by simp [hclean])]
    rfl

end Sys2Proof.Machine

/-!
The commands of the Sage front end and of its local streams (10.1 to 10.5, 10.8 and 10.11 of 10_metrology_frontend.md, R258, R261 to R264,
R266 to R271, R278, R281, R284).
-/

namespace Sys2Proof.Machine

section
variable (h : Hdr) (s : State)

theorem exec_sageClockConfig (p : SageClockConfigP) : exec (.sageClockConfig h p) s = execSageClockConfig h p s := rfl
theorem exec_sageChainConfig (p : SageChainConfigP) : exec (.sageChainConfig h p) s = execSageChainConfig h p s := rfl
theorem exec_sageFirLoad (p : SageFirLoadP) : exec (.sageFirLoad h p) s = execSageFirLoad h p s := rfl
theorem exec_sageFirSwitch (p : SageFirSwitchP) : exec (.sageFirSwitch h p) s = execSageFirSwitch h p s := rfl
theorem exec_sageDcFreeze (p : SageDcP) : exec (.sageDcFreeze h p) s = execSageDcFreeze h p s := rfl
theorem exec_sageDcRelease (p : SageDcP) : exec (.sageDcRelease h p) s = execSageDcRelease h p s := rfl
theorem exec_sageCal (p : SageCalP) : exec (.sageCal h p) s = execSageCal h p s := rfl
theorem exec_sageTempTable (p : SageTempTableP) : exec (.sageTempTable h p) s = execSageTempTable h p s := rfl
theorem exec_sageTempSource (p : SageTempSourceP) : exec (.sageTempSource h p) s = execSageTempSource h p s := rfl
theorem exec_sageTemp (p : SageTempP) : exec (.sageTemp h p) s = execSageTemp h p s := rfl
theorem exec_sagePmuAdd (p : SagePmuP) : exec (.sagePmuAdd h p) s = execSagePmuAdd h p s := rfl
theorem exec_sagePmuRetire (p : SagePmuP) : exec (.sagePmuRetire h p) s = execSagePmuRetire h p s := rfl
theorem exec_sagePmuSvWindow (p : SagePmuP) : exec (.sagePmuSvWindow h p) s = execSagePmuSvWindow h p s := rfl

end

/-! ### Settings that are stored (R448) -/

/-- A write that does not fail verification leaves the command's own answer. -/
theorem stored_verified {h : Hdr} {s : State} {region : Nat} {r : Rep} (hf : region ∉ s.pop.failing) :
    stored region (countCmd h s) r = r := if_neg hf

theorem countErase_sage (sector : Nat) (s : State) : (countErase sector s).sage = s.sage := by
  unfold countErase
  dsimp only
  split
  · rfl
  · split <;> rfl

theorem checkWear_sage (r : Nat) (s : State) : (checkWear r s).sage = s.sage := by
  unfold checkWear
  dsimp only
  split
  · rw [raise_sage]
  · rfl

theorem foldl_countErase_sage (l : List Nat) (s : State) : (l.foldl (fun t k => countErase k t) s).sage = s.sage := by
  induction l generalizing s with
  | nil => rfl
  | cons k l ih => rw [List.foldl_cons, ih, countErase_sage]

theorem keepConfig_sage (s : State) : (keepConfig s).sage = s.sage := rfl

/-- Storing the configuration leaves the Sage settings that it stores. -/
@[simp] theorem storeConfig_sage (s : State) : (storeConfig s).sage = s.sage := by
  simp only [storeConfig, keepConfig_sage, eraseSectors, checkWear_sage, foldl_countErase_sage]

/-! ### Settings of a metering point and of an input -/

section
variable {s : State} {m : Nat}

/-- A metering point that is not sealed takes any settings (R295). -/
theorem unsealed_takes {change : Prop} (hun : isSealedMp s m = false) : ¬ (isSealedMp s m = true ∧ change) := by
  simp [hun]

/-- A bank that is not in use is not BUSY (R263). -/
theorem bank_free {v : SgMp} {b : Bool} (hfade : v.state ≠ .fading) (hidle : v.state = .off ∨ v.bankB ≠ b) :
    ¬ (v.state = .fading ∨ (v.state ≠ .off ∧ v.bankB = b)) := by
  rintro (hf | ⟨hon, hb⟩)
  · exact hfade hf
  · exact hidle.elim hon (fun hne => hne hb)

/-- An input without a table has zero delay at each of its points, so that the delay itself is bounded (R269). -/
theorem calDelay_ok {d : Int} {tb : List (Int × Int)}
    (hd : (if tb = [] then [(0, 0)] else tb).all (fun x => decide ((d + x.2).natAbs ≤ 5120000)) = true) :
    (if tb = [] then delaysOk d [] else tb.all (fun x => decide ((d + x.2).natAbs ≤ 5120000))) = true := by
  by_cases htb : tb = []
  · rw [if_pos htb] at hd ⊢
    simpa [delaysOk] using hd
  · rwa [if_neg htb] at hd ⊢

@[simp] theorem taiNs_raise (code sev : Nat) (params : Bytes) (o : Option HP) (s : State) :
    taiNs (raise code sev params o s) = taiNs s := by
  rw [taiNs, raise_clk]
  rfl

@[simp] theorem taiNs_bump (a : Nat) (s : State) : taiNs (bump a s) = taiNs s := rfl

end

/-! ### A temperature source (R270, R271) -/

/-- An input keeps its last reading: its source is the one named, and has given one. -/
def keepsReading (p : SageTempSourceP) (i : SgInput) : Bool :=
  decide (i.tempSrc = p.tempSrc.toNat ∧ i.tempId = p.tempId.toNat) && i.tempRead

/-- The reading is stale from the command on: none has been given by the named source, or the last one is too old. -/
def staleFrom (p : SageTempSourceP) (i : SgInput) (now : Nat) : Bool :=
  if p.tempSrc.toNat = 0 then false
  else if keepsReading p i then decide (i.tempTs + p.staleS.toNat * 1000000000 < now) else true

/-- An input with the source of a SAGE-TEMP-SOURCE: it keeps its last reading, or has the default applied. -/
def withSource (p : SageTempSourceP) (i : SgInput) (now : Nat) : SgInput :=
  let j := { i with tempSrc := p.tempSrc.toNat, tempId := p.tempId.toNat, staleS := p.staleS.toNat, tempDefault := p.tempDefault.toInt }
  if keepsReading p i ∧ p.tempSrc.toNat ≠ 0 then { j with tempStale := staleFrom p i now }
  else { j with tempRead := false, tempApplied := p.tempDefault.toInt, tempTs := 0, tempOut := false, tempStale := staleFrom p i now }

/-- Input n, which is i, becomes j; its reading becomes stale, or is so no more. -/
def tellSource (n : Nat) (i j : SgInput) (s : State) : State :=
  raiseIf (i.tempStale && !j.tempStale) 0x0A07 0 (BitVec.ofNat 8 n :: leInt 2 j.tempApplied) none
    (raiseIf (j.tempStale && !i.tempStale) 0x0A06 1 (BitVec.ofNat 8 n :: leBytes 8 j.tempTs) none (storeConfig (setInput n j s)))

section
variable {p : SageTempSourceP} {i : SgInput} {now : Nat}

theorem withSource_stale : (withSource p i now).tempStale = staleFrom p i now := by
  unfold withSource
  split <;> rfl

theorem tempSrc_eq_zero_iff : p.tempSrc = 0 ↔ p.tempSrc.toNat = 0 :=
  ⟨fun e => by rw [e]; rfl, fun e => BitVec.eq_of_toNat_eq e⟩

/-- Another source, one that has given no reading, or none: the default is applied, and stale but where there is no source. -/
theorem withSource_new (hnew : i.tempSrc ≠ p.tempSrc.toNat ∨ i.tempId ≠ p.tempId.toNat ∨ i.tempRead = false ∨ p.tempSrc = 0) :
    withSource p i now =
      { i with tempSrc := p.tempSrc.toNat, tempId := p.tempId.toNat, staleS := p.staleS.toNat, tempDefault := p.tempDefault.toInt
               tempRead := false, tempApplied := p.tempDefault.toInt, tempTs := 0, tempOut := false
               tempStale := decide (p.tempSrc ≠ 0) } := by
  by_cases hnone : p.tempSrc = 0
  · simp [withSource, staleFrom, hnone]
  · have hpos : p.tempSrc.toNat ≠ 0 := fun e => hnone (tempSrc_eq_zero_iff.2 e)
    have hother : keepsReading p i = false := by
      rcases hnew with hsrc | hid | hread | hzero
      · simp [keepsReading, hsrc]
      · simp [keepsReading, hid]
      · simp [keepsReading, hread]
      · exact absurd hzero hnone
    simp only [withSource, staleFrom, hother, if_neg hpos, Bool.false_eq_true, false_and, if_false, decide_eq_true hnone]

/-- The same source, which has given a reading: that is kept, and its age decides whether it is stale. -/
theorem withSource_same (hsrc : i.tempSrc = p.tempSrc.toNat) (hid : i.tempId = p.tempId.toNat) (hread : i.tempRead = true)
    (hsome : p.tempSrc ≠ 0) :
    withSource p i now =
      { i with staleS := p.staleS.toNat, tempDefault := p.tempDefault.toInt
               tempStale := decide (i.tempTs + p.staleS.toNat * 1000000000 < now) } := by
  have hpos : p.tempSrc.toNat ≠ 0 := fun e => hsome (tempSrc_eq_zero_iff.2 e)
  have hsame : keepsReading p i = true := by simp [keepsReading, hsrc, hid, hread]
  simp only [withSource, staleFrom, if_pos (And.intro hsame hpos), if_neg hpos, if_pos hsame]
  rw [← hsrc, ← hid]

end

theorem exec_sageTempSource_stored {h : Hdr} {s : State} {p : SageTempSourceP} (a : Admitted (cmd 0x0A08 .control false 12) h s)
    (hok : tempSourceOk p s = true) (hf : 8 ∉ s.pop.failing) :
    exec (.sageTempSource h p) s = .next (answer h 0x0A08 (done (tellSource p.input.toNat (getInput s p.input.toNat)
      (withSource p (getInput s p.input.toNat) (taiNs s)) (countCmd h s)))) := by
  refine exec_admitted (exec_sageTempSource _ _ _) rfl a hok ((stored_verified hf).trans ?_) rfl
  rw [tellSource, withSource_stale]
  rfl

/-! ### A place in the directory (R150) -/

/-- The stash places that the entries of a directory hold. -/
def stashSlots : Tbl Stream → List Nat
  | [] => []
  | (_, v) :: t => if v.inStash then v.slot :: stashSlots t else stashSlots t

theorem length_stashSlots (t : Tbl Stream) : (stashSlots t).length = tcount (fun _ v => v.inStash) t := by
  induction t with
  | nil => rfl
  | cons e t ih =>
    obtain ⟨k, v⟩ := e
    cases hv : v.inStash <;> simp [stashSlots, tcount, hv, ih, Nat.add_comm]

theorem mem_stashSlots_iff (t : Tbl Stream) (i : Nat) :
    i ∈ stashSlots t ↔ tany (fun _ v => v.inStash && decide (v.slot = i)) t = true := by
  induction t with
  | nil => simp [stashSlots, tany]
  | cons e t ih =>
    obtain ⟨k, v⟩ := e
    cases hv : v.inStash <;> simp [stashSlots, tany, hv, ih, @eq_comm _ i]

/-- With fewer than 256 of its places held, the stash has one that is free. -/
theorem stash_has_room {t : Tbl Stream} (hroom : tcount (fun _ v => v.inStash) t < 256) :
    ∃ i ∈ List.range 256, (!tany (fun _ v => v.inStash && decide (v.slot = i)) t) = true := by
  by_contra hfull
  have hall : List.range 256 ⊆ stashSlots t := by
    intro i hi
    by_contra hfree
    exact hfull ⟨i, hi, by rwa [mem_stashSlots_iff, Bool.not_eq_true, ← Bool.not_eq_true'] at hfree⟩
  have hlen := (List.nodup_range.subperm hall).length_le
  rw [List.length_range, length_stashSlots] at hlen
  omega

/-- A stream has its place while the stash has room. -/
theorem placeDir_isSome (gen n : Nat) (v : Stream) {t : Tbl Stream} (hroom : tcount (fun _ v => v.inStash) t < 256) :
    (placeDir gen n v t).isSome = true := by
  unfold placeDir
  dsimp only
  split
  · rfl
  · split
    · rfl
    · rw [Option.isSome_map, List.find?_isSome]
      exact stash_has_room hroom

theorem enterDir_of_room (n : Nat) (v : Stream) {s : State} (hroom : stashUsed s < 256) : ∃ t, enterDir n v s = some t := by
  rw [← Option.isSome_iff_exists, enterDir, Option.isSome_map]
  exact placeDir_isSome _ _ _ hroom

/-! ### A local stream (R278) -/

/-- The local stream of a SAGE-PMU add: its key is that of its metering point (log entry 23), and it is ACTIVE with estimates. -/
def localStream (p : SagePmuP) (owner : HP) (base now : Nat) : Stream :=
  { newStream ⟨4, BitVec.ofNat 16 p.mp.toNat, 0, 0, 0⟩ 0 p.level.toNat 10 base p.rate.toNat false owner now with
    state := .active, descs := estDescs 4 4 }

/-- A local stream takes the lowest free handle (log entry 15) and its place in the directory. -/
theorem exec_sagePmuAdd_entered {h : Hdr} {s w : State} {p : SagePmuP} {n b : Nat} (a : Admitted (cmd 0x0A0A .openC false 12) h s)
    (hok : (decide (p.mp.toNat < 16 ∧ p.window.toNat < 3 ∧ p.level.toNat < 8 ∧ p.rsv = 0 ∧ p.handle = 0) && pmuRateOk p.rate.toNat) = true)
    (hnone : (getMp s p.mp.toNat).pmu = none) (hadd : addRefusal h.part 10 s = none) (hbase : allocChans s 10 = some b)
    (hfree : tfreeFrom s.ing.streams 262144 0 = some n) (hw : enterDir n (localStream p h.part b (elNs s)) (countCmd h s) = some w) :
    exec (.sagePmuAdd h p) s = .next (answer h 0x0A0A (doneWith (leBytes 4 n ++ leBytes 4 b)
      (modMp p.mp.toNat (fun x => { x with pmu := some n, pmuWindow := p.window.toNat, pmuRate := p.rate.toNat
                                           pmuNext := gridIndex p.rate.toNat (taiNs s) + 1 })
        (oscResetStream n (placeNew 0 n (syncGrid n w)))))) := by
  refine exec_admitted (exec_sagePmuAdd _ _ _) rfl a hok ?_ rfl
  have hfirst : ¬ (getMp (countCmd h s) p.mp.toNat).pmu.isSome = true := by simp [hnone]
  refine (if_neg hfirst).trans ?_
  rw [localStream] at hw
  simp only [addRefusal_countCmd, allocChans_countCmd, countCmd_ing, elNs_countCmd, hadd, hbase, hfree, hw]
  rfl

/-- Settles O33: each command is admitted by its own checks, and its body then runs on the counted state, whose Sage block and streams are
those of the state; a local stream takes the lowest free handle (log entry 15) under the key of its metering point (log entry 23). -/
theorem sageCommandsComplete : Obligations.SageCommandsComplete := by
  intro h s u
  refine ⟨?_, ?_, ?_, ?_, ?_, ?_, ?_, ?_, ?_, ?_, ?_, ?_, ?_, ?_, ?_⟩
  case refine_1 =>
    intro p a hmod hclk hrsv hm hsame hf
    refine exec_admitted (exec_sageClockConfig _ _ _) rfl a ?_ ?_ rfl
    · simpa [hmod, hclk, hrsv] using hm
    · simp only [countCmd_sage, hsame, bne_self_eq_false, Bool.false_eq_true, false_and, if_false]
      refine (stored_verified hf).trans ?_
      rw [BitVec.ofNat_toNat]
  case refine_2 =>
    intro p a hmod hclk hrsv hm hchange hunsealed hf
    have hch : (s.sage.fMod8 != decide (p.fMod = 1)) = true := bne_iff_ne.2 hchange
    refine ⟨_, rfl, exec_admitted (exec_sageClockConfig _ _ _) rfl a ?_ ?_ rfl⟩
    · simpa [hmod, hclk, hrsv] using hm
    · simp only [countCmd_sage, hch, countCmd_eq, hunsealed, ne_eq, not_true_eq_false, and_false, if_false, if_true, storeConfig_sage]
      refine (stored_verified hf).trans ?_
      rw [BitVec.ofNat_toNat]
      rfl
  case refine_3 =>
    intro p a hok hsealed hf
    have hgo : ¬ (isSealedMp s p.mp.toNat = true ∧ chainSettings p (getMp s p.mp.toNat) ≠ getMp s p.mp.toNat) := by
      rintro ⟨hseal, hne⟩
      exact hsealed.elim (fun hun => by rw [hseal] at hun; cases hun) hne
    exact ⟨_, rfl, _, rfl, _, rfl, _, rfl, exec_admitted (exec_sageChainConfig _ _ _) rfl a hok
      ((if_neg hgo).trans (stored_verified hf)) rfl⟩
  case refine_4 =>
    intro p a hmp hrsv hbank hlen hcoeff hco hunsealed hfade hidle hf
    refine ⟨_, rfl, _, rfl, _, rfl, exec_admitted (exec_sageFirLoad _ _ _) rfl a ?_ ?_ rfl⟩
    · exact Bool.and_eq_true_iff.2 ⟨decide_eq_true ⟨hmp, hbank, hrsv, hlen, hcoeff⟩, hco⟩
    · refine (if_neg (unsealed_takes (s := u) hunsealed)).trans ((if_neg (bank_free (v := getMp s p.mp.toNat) hfade hidle)).trans
        ((stored_verified hf).trans ?_))
      simp only [getMp_countCmd, decide_eq_true_eq]
      rfl
  case refine_5 =>
    intro p a hmp hrsv hbank hother hlen hunsealed hst hf
    have hrun : ¬ ((getMp s p.mp.toNat).state = .off ∨ (getMp s p.mp.toNat).state = .fading) := by
      rcases hst with hst | hst <;> simp [hst]
    refine ⟨_, rfl, _, rfl, _, rfl, _, rfl, exec_admitted (exec_sageFirSwitch _ _ _) rfl a ?_ ?_ rfl⟩
    · exact decide_eq_true ⟨hmp, hbank, hrsv, hother, hlen⟩
    · have hun : ¬ isSealedMp u p.mp.toNat = true := by simpa [u] using hunsealed
      refine (if_neg hun).trans ((if_neg hrun).trans ?_)
      simp only [getMp_countCmd, taiNs_raise, taiNs_bump]
      rcases hst with hst | hst
      · have hset : ¬ (getMp s p.mp.toNat).state = .settling := by simp [hst]
        simp only [if_neg hset]
        exact (if_neg hset).trans (stored_verified hf)
      · simp only [if_pos hst]
        exact (if_pos hst).trans (stored_verified hf)
  case refine_6 =>
    intro p a hmp hrsv hin
    exact exec_admitted (exec_sageDcFreeze _ _ _) rfl a (decide_eq_true ⟨hmp, hin, hrsv⟩) rfl rfl
  case refine_7 =>
    intro p a hmp hrsv hin
    exact exec_admitted (exec_sageDcRelease _ _ _) rfl a (decide_eq_true ⟨hmp, hin, hrsv⟩) rfl rfl
  case refine_8 =>
    intro p a hin hrsv hscale hdelay hunsealed hf
    refine ⟨_, rfl, exec_admitted (exec_sageCal _ _ _) rfl a ?_
      ((if_neg (unsealed_takes (s := u) hunsealed)).trans (stored_verified hf)) rfl⟩
    simp only [Bool.and_eq_true, decide_eq_true_eq]
    exact ⟨⟨⟨hin, hrsv⟩, hscale⟩, calDelay_ok hdelay⟩
  case refine_9 =>
    intro p a hin hrsv hlen hdelay hunsealed hf
    refine ⟨_, rfl, exec_admitted (exec_sageTempTable _ _ _) rfl a ?_
      ((if_neg (unsealed_takes (s := u) hunsealed)).trans (stored_verified hf)) rfl⟩
    rw [List.all_map]
    exact Bool.and_eq_true_iff.2 ⟨decide_eq_true ⟨hin, hrsv, hlen⟩, hdelay⟩
  case refine_10 =>
    intro p a hok hf hnew
    refine ⟨_, rfl, _, rfl, _, rfl, _, rfl, _, rfl, ?_⟩
    rw [exec_sageTempSource_stored a hok hf, withSource_new hnew]
    rfl
  case refine_11 =>
    intro p a hok hf hsrc hid hread hsome
    refine ⟨_, rfl, _, rfl, _, rfl, ?_⟩
    rw [exec_sageTempSource_stored a hok hf, withSource_same hsrc hid hread hsome]
    rfl
  case refine_12 =>
    intro p a hn1 hn2 hrsv hlen hentries
    exact exec_admitted (exec_sageTemp _ _ _) rfl a (Bool.and_eq_true_iff.2 ⟨decide_eq_true ⟨hn1, hn2, hrsv, hlen⟩, hentries⟩) rfl rfl
  case refine_13 =>
    intro p n b a hmp hrsv hwin hlevel hhandle hrate hnone hadd hbase hfree hroom
    obtain ⟨w, hw⟩ := enterDir_of_room n (localStream p h.part b (elNs s)) (s := u) hroom
    exact ⟨_, rfl, w, hw, exec_sagePmuAdd_entered a
      (Bool.and_eq_true_iff.2 ⟨decide_eq_true ⟨hmp, hwin, hlevel, hrsv, hhandle⟩, hrate⟩) hnone hadd hbase hfree hw⟩
  case refine_14 =>
    intro p v a hmp hrsv hname hlocal hv hst hunnamed
    refine exec_admitted (exec_sagePmuRetire _ _ _) rfl a ?_ ?_ rfl
    · simp only [Bool.and_eq_true, decide_eq_true_eq]
      exact ⟨⟨⟨hmp, hrsv⟩, hname⟩, hlocal⟩
    · have hgo : ¬ (v.state = .retiring ∨ streamNamed s p.handle.toNat v = true) := by simp [hst, hunnamed]
      simp only [getStream_countCmd, streamNamed_countCmd, hv]
      exact if_neg hgo
  case refine_15 =>
    intro p a hmp hwin hrsv hhandle hf
    exact exec_admitted (exec_sagePmuSvWindow _ _ _) rfl a (decide_eq_true ⟨hmp, hwin, hrsv, hhandle⟩) (stored_verified hf) rfl

end Sys2Proof.Machine

/-!
The commands of energy and quality (11.2 to 11.7 of 11_energy_quality.md, R285, R290, R293 to R295, R297, R302, R306, R308).
-/

namespace Sys2Proof.Machine

section
variable (h : Hdr) (s : State)

theorem exec_eqMpConfig (p : EqMpConfigP) : exec (.eqMpConfig h p) s = execEqMpConfig h p s := rfl
theorem exec_eqRegConfig (p : EqRegConfigP) : exec (.eqRegConfig h p) s = execEqRegConfig h p s := rfl
theorem exec_pulseConfig (p : PulseConfigP) : exec (.pulseConfig h p) s = execPulseConfig h p s := rfl
theorem exec_eqSaveConfig (p : EqSaveConfigP) : exec (.eqSaveConfig h p) s = execEqSaveConfig h p s := rfl
theorem exec_eqSeal (p : EqSealP) : exec (.eqSeal h p) s = execEqSeal h p s := rfl
theorem exec_eqGapAck (p : EqGapAckP) : exec (.eqGapAck h p) s = execEqGapAck h p s := rfl

end

/-! ### A test over a table after a write -/

section
variable {α : Type} {t : Tbl α} {k : Nat} {v : α}

theorem tany_iff {f : Nat → α → Bool} : tany f t = true ↔ ∃ e ∈ t, f e.1 e.2 = true := by
  induction t with
  | nil => simp [tany]
  | cons e t ih => simp [tany, ih]

theorem mem_tset_iff (hwf : Tbl.wf t = true) {e : Nat × α} : e ∈ tset t k v ↔ e = (k, v) ∨ (e ∈ t ∧ e.1 ≠ k) := by
  induction t with
  | nil => simp [tset]
  | cons a t ih =>
    obtain ⟨k', v'⟩ := a
    obtain ⟨hrise, hwf'⟩ := (wf_cons k' v' t).1 hwf
    unfold tset
    split
    next hlt =>
      have hother : ∀ x ∈ (k', v') :: t, x.1 ≠ k := by
        intro x hx
        rcases List.mem_cons.1 hx with rfl | hx
        · exact Nat.ne_of_gt hlt
        · exact Nat.ne_of_gt (Nat.lt_trans hlt (hrise x hx))
      rw [List.mem_cons]
      exact or_congr_right ⟨fun he => ⟨he, hother e he⟩, And.left⟩
    next hge =>
      split
      next heq =>
        subst heq
        have hother : ∀ x ∈ t, x.1 ≠ k := fun x hx => Nat.ne_of_gt (hrise x hx)
        rw [List.mem_cons, List.mem_cons]
        refine or_congr_right ⟨fun he => ⟨Or.inr he, hother e he⟩, ?_⟩
        rintro ⟨rfl | he, hne⟩
        · exact absurd rfl hne
        · exact he
      next hne =>
        rw [List.mem_cons, List.mem_cons, ih hwf']
        have hfirst : e = (k', v') → e.1 ≠ k := by
          rintro rfl
          exact Ne.symm hne
        tauto

/-- After a write, a test is met by the new entry or by an entry at another key. -/
theorem tany_tset (hwf : Tbl.wf t = true) (f : Nat → α → Bool) :
    tany f (tset t k v) = (f k v || tany (fun j e => decide (j ≠ k) && f j e) t) := by
  rw [Bool.eq_iff_iff, Bool.or_eq_true, tany_iff, tany_iff]
  constructor
  · rintro ⟨e, he, hf⟩
    rcases (mem_tset_iff hwf).1 he with rfl | ⟨he, hne⟩
    · exact Or.inl hf
    · exact Or.inr ⟨e, he, Bool.and_eq_true_iff.2 ⟨decide_eq_true hne, hf⟩⟩
  · rintro (hf | ⟨e, he, hf⟩)
    · exact ⟨(k, v), (mem_tset_iff hwf).2 (Or.inl rfl), hf⟩
    · obtain ⟨hne, hf⟩ := Bool.and_eq_true_iff.1 hf
      exact ⟨e, (mem_tset_iff hwf).2 (Or.inr ⟨he, of_decide_eq_true hne⟩), hf⟩

end

/-! ### The gap log (R306, R308) -/

@[simp] theorem raise_eq (code sev : Nat) (params : Bytes) (o : Option HP) (s : State) : (raise code sev params o s).eq = s.eq :=
  raise_onlyIn code sev params o s .eq (by decide)

/-- Entry g of the gap log as partition part has acknowledged it. -/
def ackedEntry (part : HP) (now : Nat) (g : GapEntry) : GapEntry := { g with acked := true, ackTs := now, ackPart := part.val }

/-- State s once partition part has acknowledged entry g of the gap log, with its number seq, and the event is raised. -/
def gapAcked (part : HP) (seq : U32) (g : GapEntry) (s : State) : State :=
  raise 0x0B08 1 (BitVec.ofNat 8 g.mp :: leBytes 4 seq.toNat ++ [BitVec.ofNat 8 part.val]) none
    { s with eq := { s.eq with glog := tset s.eq.glog seq.toNat (ackedEntry part (taiNs s) g) } }

/-- State s with GAP clear at metering point m and at its registers. -/
def gapCleared (m : Nat) (s : State) : State :=
  let w := modEq m (fun x => { x with gap := false }) s
  { w with eq := { w.eq with regs := tmap (fun _ r => if r.mp = m then { r with gap := false } else r) w.eq.regs } }

/-- Another entry of the metering point of g stands unacknowledged in a gap log. -/
def gapLeft (seq : U32) (g : GapEntry) (t : Tbl GapEntry) : Bool := tany (fun k e => decide (e.mp = g.mp ∧ k ≠ seq.toNat) && !e.acked) t

/-- What is left of the metering point's entries after the acknowledgement are the others. -/
theorem gapAcked_left {part : HP} {seq : U32} {g : GapEntry} {s : State} (hwf : Tbl.wf s.eq.glog = true) :
    tany (fun _ e => decide (e.mp = g.mp) && !e.acked) (gapAcked part seq g s).eq.glog = gapLeft seq g s.eq.glog := by
  rw [gapAcked, raise_eq, tany_tset hwf, gapLeft]
  simp only [ackedEntry, Bool.not_true, Bool.and_false, Bool.false_or]
  congr
  funext k e
  rw [Bool.decide_and, Bool.and_assoc, Bool.and_left_comm]

/-- An acknowledgement of an entry clears GAP when no other entry of its metering point is left. -/
theorem exec_eqGapAck_taken {h : Hdr} {s : State} {p : EqGapAckP} {g : GapEntry} (a : Admitted (cmd 0x0B06 .control false 4) h s)
    (hg : gapEntry s p.seq = some g) (hack : g.acked = false) (hwf : Tbl.wf s.eq.glog = true) :
    exec (.eqGapAck h p) s = .next (answer h 0x0B06 (done (if gapLeft p.seq g s.eq.glog then gapAcked h.part p.seq g (countCmd h s)
      else gapCleared g.mp (gapAcked h.part p.seq g (countCmd h s))))) := by
  refine exec_admitted (exec_eqGapAck _ _ _) rfl a ?_ ?_ rfl
  · simp [hg, hack]
  · have hleft := gapAcked_left (part := h.part) (seq := p.seq) (g := g) (s := countCmd h s) hwf
    rw [gapEntry_countCmd, hg]
    by_cases hmore : gapLeft p.seq g s.eq.glog = true
    · rw [if_pos hmore]
      exact if_pos (hleft.trans hmore)
    · rw [if_neg hmore]
      exact if_neg (fun hs => hmore (hleft.symm.trans hs))

/-! ### Pulse outputs (R297) -/

/-- State s once the count of output k has started again: its saturation summary is cleared and the event raised. -/
def pulseRecounted (part : HP) (k : Nat) (s : State) : State :=
  raise 0x0B0D 1 [1, BitVec.ofNat 8 k, BitVec.ofNat 8 part.val] none
    { s with eq := { s.eq with satsumPls := s.eq.satsumPls &&& ~~~(1#32 <<< k) } }

/-- Two metering points that are not sealed (R295). -/
theorem neither_sealed {s : State} {m n : Nat} (hm : isSealedMp s m = false) (hn : isSealedMp s n = false) :
    ¬ (isSealedMp s m = true ∨ isSealedMp s n = true) := by
  simp [hm, hn]

/-- A claim that is enough before a command is counted is enough after. -/
theorem claim_counted {h : Hdr} {s : State} {latched : U8} {everEnabled : Bool} (hclaim : claimOk s h.part everEnabled latched = true) :
    ¬ claimOk (countCmd h s) h.part everEnabled latched = false := by
  simp [hclaim]

section
variable {h : Hdr} {s : State} {p : PulseConfigP}

/-- A change of what output v counts: its metering point, its quantity or its quantum. -/
abbrev PulseChanges (p : PulseConfigP) (v : Pulse) : Prop :=
  v.mp ≠ p.mp.toNat ∨ v.quantity ≠ p.quantity.toNat ∨ v.quantum ≠ p.quantumMwh.toNat

/-- The settings of output v after a PULSE-CONFIG of a partition whose claim is c, which latches when the output is enabled (R56). -/
def pulseSettings (p : PulseConfigP) (c : U8) (v : Pulse) : Pulse :=
  { v with enable := decide (p.enable = 1), activeLow := decide (p.activeLow = 1), mp := p.mp.toNat, quantity := p.quantity.toNat
           widthMs := p.widthMs.toNat, quantum := p.quantumMwh.toNat, claim := if p.enable = 1 then c else v.claim
           everEnabled := v.everEnabled || decide (p.enable = 1) }

/-- The checks of PULSE-CONFIG (Table 11.11). -/
def PulseConfigOk (p : PulseConfigP) : Prop :=
  (p.output.toNat < 32 ∧ p.enable.toNat < 2 ∧ p.mp.toNat < 16 ∧ 2 ≤ p.widthMs.toNat ∧ p.widthMs.toNat ≤ 200 ∧ p.activeLow.toNat < 2 ∧ p.rsv = 0 ∧
    1 ≤ p.quantumMwh.toNat) ∧ quantityOk p.quantity = true

/-- Settings that count the same stand, whether or not the metering point is sealed. -/
theorem exec_pulseConfig_same (a : Admitted (cmd 0x0B03 .stage true 12) h s) (hok : PulseConfigOk p)
    (hclaim : claimOk s h.part (getPulse s p.output.toNat).everEnabled (getPulse s p.output.toNat).claim = true)
    (hsame : ¬ PulseChanges p (getPulse s p.output.toNat)) (hf : 8 ∉ s.pop.failing) :
    exec (.pulseConfig h p) s = .next (answer h 0x0B03 (done (storeConfig (setPulse p.output.toNat
      (pulseSettings p (getPart s h.part).claim (getPulse s p.output.toNat)) (countCmd h s))))) := by
  obtain ⟨hoperands, hq⟩ := hok
  refine exec_admitted (exec_pulseConfig _ _ _) rfl a (Bool.and_eq_true_iff.2 ⟨decide_eq_true hoperands, hq⟩) ?_ rfl
  refine (if_neg (claim_counted hclaim)).trans ((if_neg ?_).trans ((if_neg ?_).trans (stored_verified hf)))
  · exact fun hs => hsame (of_decide_eq_true hs.2)
  · exact fun hs => hsame (of_decide_eq_true hs)

/-- A change of what an unsealed output counts loses what it owed (R297). -/
theorem exec_pulseConfig_changed (a : Admitted (cmd 0x0B03 .stage true 12) h s) (hok : PulseConfigOk p)
    (hclaim : claimOk s h.part (getPulse s p.output.toNat).everEnabled (getPulse s p.output.toNat).claim = true)
    (hun : isSealedMp s (getPulse s p.output.toNat).mp = false) (hun' : isSealedMp s p.mp.toNat = false)
    (hchange : PulseChanges p (getPulse s p.output.toNat)) (hf : 8 ∉ s.pop.failing) {w : State}
    (hw : w = storeConfig (setPulse p.output.toNat
      { pulseSettings p (getPart s h.part).claim (getPulse s p.output.toNat) with owed := 0, residual := 0 } (countCmd h s))) :
    exec (.pulseConfig h p) s = .next (answer h 0x0B03 (done (pulseRecounted h.part p.output.toNat w))) := by
  subst hw
  obtain ⟨hoperands, hq⟩ := hok
  refine exec_admitted (exec_pulseConfig _ _ _) rfl a (Bool.and_eq_true_iff.2 ⟨decide_eq_true hoperands, hq⟩) ?_ rfl
  refine (if_neg (claim_counted hclaim)).trans ((if_neg ?_).trans ((if_pos (decide_eq_true hchange)).trans ?_))
  · exact fun hs => neither_sealed (s := countCmd h s) hun hun' hs.1
  · refine (stored_verified hf).trans ?_
    simp only [pulseRecounted, pulseSettings, getPulse_countCmd, getPart_countCmd]

end

/-! ### The seal (R294) -/

/-- With no seal requested and every metering point of the mask running, EQ-SEAL is not BUSY. -/
theorem seal_free {s : State} {mask : U16} (hreq : s.eq.sealReq = none)
    (hrun : (List.range 16).all (fun m => !mask.getLsbD m || decide ((getMp s m).state = .running)) = true) :
    ¬ (s.eq.sealReq.isSome = true ∨ (List.range 16).any (fun m => mask.getLsbD m && !decide ((getMp s m).state = .running)) = true) := by
  rintro (hbusy | hstopped)
  · simp [hreq] at hbusy
  · rw [← Bool.not_eq_false, ← Bool.not_eq_true', List.not_any_eq_all_not] at hstopped
    simp [hrun] at hstopped

/-- Settles O35: each command is admitted by its own checks, and its body then runs on the counted state, whose energy block is that of the
state; an acknowledgement clears GAP when it is the last of its metering point. -/
theorem energyCommandsComplete : Obligations.EnergyCommandsComplete := by
  intro h s u
  refine ⟨?_, ?_, ?_, ?_, ?_, ?_, ?_, ?_⟩
  case refine_1 =>
    intro p a hok hun hf
    exact exec_admitted (exec_eqMpConfig _ _ _) rfl a hok ((if_neg (unsealed_takes (s := u) hun)).trans (stored_verified hf)) rfl
  case refine_2 =>
    intro p a hreg hmp hd6 hd10 hres hen hrsv hsum hq hun hun' hf
    refine ⟨_, rfl, _, rfl, exec_admitted (exec_eqRegConfig _ _ _) rfl a ?_ ((if_neg ?_).trans (stored_verified hf)) rfl⟩
    · exact Bool.and_eq_true_iff.2 ⟨decide_eq_true ⟨hreg, hmp, hd6, hd10, hres, hen, hrsv, hsum⟩, hq⟩
    · exact fun hs => neither_sealed (s := u) hun hun' hs.1
  case refine_3 =>
    intro p a hout hen hmp hw2 hw200 hlow hrsv hquantum hq hclaim hsame hsameq hsamen hf
    refine ⟨_, rfl, exec_pulseConfig_same a ⟨⟨hout, hen, hmp, hw2, hw200, hlow, hrsv, hquantum⟩, hq⟩ hclaim ?_ hf⟩
    simp [PulseChanges, hsame, hsameq, hsamen]
  case refine_4 =>
    intro p a hout hen hmp hw2 hw200 hlow hrsv hquantum hq hclaim hun hun' hchange hf
    exact ⟨_, rfl, _, rfl, _, rfl,
      exec_pulseConfig_changed a ⟨⟨hout, hen, hmp, hw2, hw200, hlow, hrsv, hquantum⟩, hq⟩ hclaim hun hun' hchange hf rfl⟩
  case refine_5 =>
    intro p a h1 h300 hrsv hf
    exact exec_admitted (exec_eqSaveConfig _ _ _) rfl a (decide_eq_true ⟨h1, h300, hrsv⟩) (stored_verified hf) rfl
  case refine_6 =>
    intro p a hrsv hgen hreq hrun
    refine ⟨_, rfl, exec_admitted (exec_eqSeal _ _ _) rfl a (decide_eq_true hrsv)
      ((if_neg (Nat.not_le.2 hgen)).trans ((if_neg ?_).trans rfl)) rfl⟩
    exact seal_free (s := u) hreq hrun
  case refine_7 =>
    intro p g a hg hack hlast hwf
    refine ⟨_, rfl, _, rfl, (exec_eqGapAck_taken a hg hack hwf).trans ?_⟩
    rw [gapLeft, hlast]
    rfl
  case refine_8 =>
    intro p g a hg hack hmore hwf
    refine (exec_eqGapAck_taken a hg hack hwf).trans ?_
    rw [gapLeft, if_pos hmore]
    rfl

end Sys2Proof.Machine

/-!
The events of energy and quality (11.3 to 11.6 of 11_energy_quality.md, R287, R294, R298, R299, R302).
-/

namespace Sys2Proof.Machine

section
variable (s : State)

theorem exec_eqSealDone : exec .eqSealDone s = execEqSealDone s := rfl
theorem exec_accumulationCycleEnd (mp : BitVec 4) : exec (.accumulationCycleEnd mp) s = execAccumulationCycleEnd mp s := rfl
theorem exec_pulseStart (output : BitVec 5) : exec (.pulseStart output) s = execPulseStart output s := rfl
theorem exec_pulseEnd (output : BitVec 5) : exec (.pulseEnd output) s = execPulseEnd output s := rfl
theorem exec_energySave : exec .energySave s = execEnergySave s := rfl
theorem exec_energySaveVerified (ok : Bool) : exec (.energySaveVerified ok) s = execEnergySaveVerified ok s := rfl
theorem exec_halfCycleInterval (mp : BitVec 4) : exec (.halfCycleInterval mp) s = execHalfCycleInterval mp s := rfl

end

section
variable {s : State}

/-! ### Pulses (R298) -/

/-- The width of the next pulse of an output, in nanoseconds: the set width, or half the interval of its quanta where they come faster. -/
def pulseWidth (p : Pulse) : Nat :=
  if p.pNs < 2 * (p.widthMs * 1000000) ∧ p.tPrev.isSome then max (p.pNs / 2) 1000000 else p.widthMs * 1000000

/-- State s once a pulse of output k, which is p in it, has begun. -/
def pulseBegun (k : Nat) (p : Pulse) (s : State) : State :=
  bump (pulseCnt k 0x20) (setPulse k { p with owed := p.owed - 1, wUs := pulseWidth p / 1000, activeUntil := some (elNs s + pulseWidth p)
                                              idleUntil := some (elNs s + 2 * pulseWidth p) } s)

/-- State s once output k has raised PULSE-CAUGHT-UP for an overrun that began at the instant o. -/
def pulseCaughtUp (k o : Nat) (s : State) : State :=
  raise 0x0B03 0 (BitVec.ofNat 8 k :: leBytes 4 ((elNs s - o) / 1000000)) none (setPulse k { getPulse s k with overEl := none } s)

/-- The end of an overrun is told when the last pulse that was owed has begun. -/
def pulseTold (k : Nat) (p : Pulse) (t : State) : State :=
  match p.overEl with
  | some o => if p.owed = 1 then pulseCaughtUp k o t else t
  | none => t

theorem pulseTold_more {k : Nat} {p : Pulse} (hover : p.overEl = none ∨ p.owed ≠ 1) (t : State) : pulseTold k p t = t := by
  unfold pulseTold
  split
  next o ho => exact if_neg (hover.resolve_left (by simp [ho]))
  next => rfl

theorem pulseTold_last {k o : Nat} {p : Pulse} (hover : p.overEl = some o) (howed : p.owed = 1) (t : State) :
    pulseTold k p t = pulseCaughtUp k o t := by
  simp only [pulseTold, hover, if_pos howed]

/-- An idle pin of an enabled output that owes a pulse starts one. -/
theorem exec_pulseStart_owed {output : BitVec 5} {p : Pulse} (hp : getPulse s output.toNat = p) (henable : p.enable = true)
    (hactive : p.activeUntil = none) (hidle : p.idleUntil.getD 0 ≤ elNs s) (howed : p.owed ≠ 0) :
    exec (.pulseStart output) s = .next (pulseTold output.toNat p (pulseBegun output.toNat p s)) := by
  subst hp
  rw [exec_pulseStart, execPulseStart]
  refine congrArg Host.Outcome.next ((if_pos ⟨henable, ?_, howed⟩).trans rfl)
  rw [hactive, Option.isNone_none, Bool.true_and]
  split
  next t ht =>
    rw [ht] at hidle
    exact decide_eq_true hidle
  next => rfl

/-- The last pulse that is owed leaves none. -/
theorem pulseBegun_last {k : Nat} {p : Pulse} (howed : p.owed = 1) :
    pulseBegun k p s = bump (pulseCnt k 0x20) (setPulse k { p with
      owed := 0, wUs := pulseWidth p / 1000, activeUntil := some (elNs s + pulseWidth p), idleUntil := some (elNs s + 2 * pulseWidth p) } s) := by
  rw [pulseBegun, howed]
  rfl

/-! ### Half-cycle intervals (R299) -/

/-- State s with the happenings of its instant held back until its work is done (R224). -/
def holdHappenings (s : State) : State := { s with alm := { s.alm with held := some [] } }

/-- Work of one instant is done on the state whose happenings are held, so that only what it does there counts. -/
theorem inTurn_congr {f g : State → State} (hfg : f (holdHappenings s) = g (holdHappenings s)) : inTurn f s = inTurn g s := by
  unfold holdHappenings at hfg
  rw [inTurn, inTurn, hfg]

/-- The start of the window of the interval from mark a: the mark before it, where there is one. -/
def halfFrom (a : GaMark) (s : State) : Nat := if a.idx = 0 then a.el else (markOf s (a.idx - 1)).elim a.el (fun z => z.el)

/-- An interval that has ended, and whose taps have passed its end, is judged. -/
theorem halfCycle_due {m : Nat} {a b : GaMark} (ha : s.clk.gaMarks.reverse.find? (fun x => decide ((getEq s m).halfIdx ≤ x.idx)) = some a)
    (hb : markOf s (a.idx + 1) = some b)
    (hdue : (getMp s m).state = .off ∨ (List.range 3).all (fun k => tapPast s m k b.el) = true) :
    halfCycle m s = [QKind.sag, QKind.swell, QKind.interruption].foldl (qJudge m a.ts (b.el - a.el) b.nominal
      ((List.range 3).filterMap (fun k => (halfValue s m k (halfFrom a s) b.el).map (fun x => (k, x)))))
      (setEq m { getEq s m with halfIdx := b.idx } s) := by
  have hgo : ¬ ((getMp s m).state ≠ .off ∧ (List.range 3).all (fun k => tapPast s m k b.el) = false) := by
    rintro ⟨hon, hfew⟩
    exact hdue.elim hon (fun hall => by rw [hall] at hfew; cases hfew)
  simp only [halfCycle, ha, hb, if_neg hgo, halfFrom]
  by_cases h0 : a.idx = 0
  · simp only [if_pos h0]
  · simp only [if_neg h0]
    cases markOf s (a.idx - 1) <;> rfl

end

/-- Settles O36: each row is due by its hypotheses, and what it then does is its effect; the last pulse that an output owes ends its overrun,
and an interval is judged with the happenings of its instant held. -/
theorem energyEventsComplete : Obligations.EnergyEventsComplete := by
  intro s
  refine ⟨?_, ?_, ?_, ?_, ?_, ?_, ?_, ?_, ?_⟩
  case refine_1 =>
    intro mask id l hreq hl
    simp only [exec_eqSealDone, execEqSealDone, hreq, hl]
  case refine_2 =>
    intro mp a b ha hb hdue
    simp only [exec_accumulationCycleEnd, execAccumulationCycleEnd, ha, hb, if_pos hdue]
  case refine_3 =>
    intro output henable hactive hidle howed hover
    have hbegun := exec_pulseStart_owed rfl henable hactive hidle howed
    rw [pulseTold_more hover] at hbegun
    exact ⟨_, rfl, _, rfl, _, rfl, hbegun⟩
  case refine_4 =>
    intro output o henable hactive hidle howed hover
    have hlast := exec_pulseStart_owed rfl henable hactive hidle (by rw [howed]; decide)
    rw [pulseTold_last hover howed, pulseBegun_last howed] at hlast
    exact ⟨_, rfl, _, rfl, _, rfl, _, rfl, hlast⟩
  case refine_5 =>
    intro output e hactive hdue
    simp only [exec_pulseEnd, execPulseEnd, hactive, if_pos hdue]
  case refine_6 =>
    intro g hb hsave hflush hg hdue
    have hgo : ¬ (s.eq.saving.isSome ∨ s.eq.flushing ∨ s.dev.boot ≠ .ready) := by simp [hsave, hflush, hb]
    simp only [exec_energySave, execEnergySave, if_neg hgo, hg, if_pos hdue]
  case refine_7 =>
    intro hsave
    obtain ⟨b, hb⟩ := Option.isSome_iff_exists.1 hsave
    simp only [exec_energySaveVerified, execEnergySaveVerified, hb, if_true]
  case refine_8 =>
    intro b hb
    simp only [exec_energySaveVerified, execEnergySaveVerified, hb, Bool.false_eq_true, if_false]
  case refine_9 =>
    intro mp a b ha hb hdue
    exact congrArg Host.Outcome.next (inTurn_congr (halfCycle_due (s := holdHappenings s) ha hb hdue))

end Sys2Proof.Machine

/-!
Power failure (11.7 of 11_energy_quality.md and 18_startup_reset.md, R303, R304, R434, R455, R462).
-/

namespace Sys2Proof.Machine

section
variable (s : State)

theorem exec_pfailAssert : exec .pfailAssert s = execPfailAssert s := rfl
theorem exec_pfailRise (b : BootIn) : exec (.pfailRise b) s = execPfailRise b s := rfl
theorem exec_powerFailFlushEnd (complete : Bool) : exec (.powerFailFlushEnd complete) s = execPowerFailFlushEnd complete s := rfl
theorem exec_startupGapTimeout : exec .startupGapTimeout s = execStartupGapTimeout s := rfl

end

section
variable {s : State}

/-! ### PFAIL_N falls (R303) -/

/-- State s once PFAIL_N has fallen: every C0 bound is suspended (R23). -/
def pfailLow (s : State) : State := { s with dev := { s.dev with pfailN := false, c0Off := true } }

/-- State s once the flush of a failure at t_f has begun. -/
def flushFrom (tf : Nat) (s : State) : State :=
  { s with eq := { s.eq with tf := some tf, resume := none, riseEl := none, flushing := true, flushImg := none
                             flushHdr := some (tf, s.eq.saveSeq + 1) }
           pop := { s.pop with flushUnreported := true } }

/-- A failure before counting has resumed keeps the earlier t_f. -/
theorem exec_pfailAssert_again {tf : Nat} (hpin : s.dev.pfailN = true) (hb : s.dev.boot = .ready) (htf : s.eq.tf = some tf)
    (hres : s.eq.resume = none) : exec .pfailAssert s = .next (flushFrom tf (pfailLow s)) := by
  simp only [exec_pfailAssert, execPfailAssert, flushFrom, pfailLow, hpin, hb, htf, hres, Bool.true_eq_false, if_false]

/-- A failure while the device counts, or is about to resume, stops counting at the next billing sample. -/
theorem exec_pfailAssert_first (hpin : s.dev.pfailN = true) (hb : s.dev.boot = .ready)
    (hcount : s.eq.tf = none ∨ s.eq.resume.isSome = true) : exec .pfailAssert s = .next (flushFrom (failInstant s) (pfailLow s)) := by
  rcases hcount with htf | hres
  · simp only [exec_pfailAssert, execPfailAssert, flushFrom, pfailLow, hpin, hb, htf, Bool.true_eq_false, if_false]
  · obtain ⟨n, hn⟩ := Option.isSome_iff_exists.1 hres
    cases htf : s.eq.tf <;>
      simp only [exec_pfailAssert, execPfailAssert, flushFrom, pfailLow, hpin, hb, htf, hn, Bool.true_eq_false, if_false]

/-! ### The flush ends (R304, R463) -/

/-- State s once a flush has ended with the image of t_f and, where it was completed, the records of the buffer. -/
def flushEnded (complete : Bool) (tf : Nat) (seq : U32) (s : State) : State :=
  reportFlush (bumpIf complete 0x0B000110
    { s with eq := { s.eq with flushing := false, flushImg := some (failImage tf seq complete s) }
             pop := { s.pop with flushSlot := if complete then s.pop.buffer else [] } })

theorem exec_powerFailFlushEnd_ended {complete : Bool} {tf : Nat} {seq : U32} (hfl : s.eq.flushing = true)
    (hhdr : s.eq.flushHdr = some (tf, seq)) (hrst : s.dev.srstPending = false) :
    exec (.powerFailFlushEnd complete) s = .next (flushEnded complete tf seq s) := by
  simp only [exec_powerFailFlushEnd, execPowerFailFlushEnd, flushEnded, hfl, hhdr, hrst, Bool.true_eq_false, Bool.false_eq_true, if_false]

/-- An SRST_N that came during the flush is taken when it ends. -/
theorem exec_powerFailFlushEnd_reset {complete : Bool} {tf : Nat} {seq : U32} {b : BootIn} (hfl : s.eq.flushing = true)
    (hhdr : s.eq.flushHdr = some (tf, seq)) (hrst : s.dev.srstPending = true) (hin : s.dev.bootIn = some b) :
    exec (.powerFailFlushEnd complete) s = .next (systemReset b complete (flushEnded complete tf seq s)) := by
  simp only [exec_powerFailFlushEnd, execPowerFailFlushEnd, flushEnded, hfl, hhdr, hrst, hin, Bool.true_eq_false, if_false, if_true]

end

/-- Settles O52: each row is due by its hypotheses, and what it then does is its effect; a fall of PFAIL_N keeps the t_f of a failure that
counting has not yet resumed from, and takes the next billing sample otherwise. -/
theorem powerFailureCompletes : Obligations.PowerFailureCompletes := by
  intro s
  refine ⟨?_, ?_, ?_, ?_, ?_, ?_, ?_⟩
  case refine_1 =>
    rintro tf v hpin hb (⟨htf, hres⟩ | ⟨hcount, rfl⟩) rfl
    · exact exec_pfailAssert_again hpin hb htf hres
    · exact exec_pfailAssert_first hpin hb hcount
  case refine_2 =>
    intro hpin hb
    simp only [exec_pfailAssert, execPfailAssert, hpin, hb, Bool.true_eq_false, if_false]
  case refine_3 =>
    rintro b v hpin hwait htf rfl
    simp only [exec_pfailRise, execPfailRise, hpin, hwait, htf, Bool.false_eq_true, if_false, if_true]
  case refine_4 =>
    rintro b v hpin hwait rfl
    simp only [exec_pfailRise, execPfailRise, hpin, hwait, Bool.false_eq_true, if_false, if_true]
  case refine_5 =>
    rintro complete tf seq v hfl hhdr hrst rfl
    exact exec_powerFailFlushEnd_ended hfl hhdr hrst
  case refine_6 =>
    rintro complete tf seq v b hfl hhdr hrst hin rfl
    exact exec_powerFailFlushEnd_reset hfl hhdr hrst hin
  case refine_7 =>
    intro hb hinvalid hpast
    rw [exec_startupGapTimeout, execStartupGapTimeout, if_pos ⟨hb, hinvalid, hpast⟩]

end Sys2Proof.Machine

/-!
The step of the machine: what a command in front, an empty queue and any command at all answer.
-/

namespace Sys2Proof.Machine

/-- Settles O1: the model's `step` is that row, as `step_command` states it. -/
theorem stepRunsFrontCommand : Obligations.StepRunsFrontCommand :=
  fun _ _ _ => step_command rfl

/-- Settles O2: an idle step runs the clock's cycle while PORN is high, and is the same state while it is low. -/
theorem idleStepAdvancesClock : Obligations.IdleStepAdvancesClock := by
  intro s hq
  refine ⟨idleCycle s, step_idle hq, ?_⟩
  cases hp : s.dev.porn with
  | false =>
    have hid : idleCycle s = s := if_neg (by simp [hp])
    rw [hid]
    exact ⟨OnlyIn.refl _ _, fun _ => rfl, nofun⟩
  | true =>
    have hid : idleCycle s = { s with clk := clockCycle s.clk } := if_pos hp
    rw [hid]
    exact ⟨withClk_onlyIn _, nofun, fun _ => rfl⟩

/-- Settles O3: the row of each command is a next state as it stands. -/
theorem everyCommandAnswersNextState : Obligations.EveryCommandAnswersNextState := by
  intro c s
  cases c <;> exact ⟨_, rfl⟩

end Sys2Proof.Machine

/-!
The partitions' states by their paths (2.5 of 02_host_partitions.md, R57 to R59, Table 2.10).
-/

namespace Sys2Proof.Machine

/-! ### What leaves the partitions' states (Table 2.10) -/

/-- Every partition is in the state it was in. -/
def PStatesKept (s t : State) : Prop := ∀ p : HP, (getPart t p).pstate = (getPart s p).pstate

section
variable {s t u : State}

theorem PStatesKept.refl (s : State) : PStatesKept s s := fun _ => rfl

theorem PStatesKept.trans (h1 : PStatesKept s t) (h2 : PStatesKept t u) : PStatesKept s u := fun p => (h2 p).trans (h1 p)

/-- A state whose block of the partitions is the same. -/
theorem pstatesKept_of_host (h : t.host = s.host) : PStatesKept s t := fun p => by rw [getPart, getPart, h]

theorem pstatesKept_of_onlyIn {l : List Blk} (h : OnlyIn l s t) (hl : .host ∉ l) : PStatesKept s t := pstatesKept_of_host (h .host hl)

theorem foldl_pstatesKept {α : Type} {g : State → α → State} (hg : ∀ t x, PStatesKept t (g t x)) (l : List α) (s : State) :
    PStatesKept s (l.foldl g s) := by
  induction l generalizing s with
  | nil => exact .refl s
  | cons x l ih => exact (hg s x).trans (ih _)

theorem modPart_pstatesKept {p : HP} {f : Part → Part} (hf : ∀ q, (f q).pstate = q.pstate) (s : State) : PStatesKept s (modPart p f s) := by
  intro r
  by_cases hr : r = p
  · rw [hr, getPart_modPart, hf]
  · rw [getPart_modPart_other _ _ hr]

theorem pushEvt_pstatesKept (p : HP) (e : EvtIn) (s : State) : PStatesKept s (pushEvt p e s) := by
  intro r
  by_cases hr : r = p
  · rw [hr]
    rcases Nat.lt_or_ge (evtStanding (getPart s p)) 256 with hn | hn
    · obtain ⟨m, hm⟩ := getPart_pushEvt_room (e := e) hn
      rw [hm]
    · rw [getPart_pushEvt_full hn]
  · rw [getPart_pushEvt_other hr]

theorem raiseRaw_pstatesKept (code sev : Nat) (params : Bytes) (o : Option HP) (s : State) :
    PStatesKept s (raiseRaw code sev params o s) := by
  refine PStatesKept.trans (foldl_pstatesKept (fun t p => ?_) allHP s) (pstatesKept_of_onlyIn (pushRec_onlyIn _ _ _ _) (by decide))
  split
  · exact pushEvt_pstatesKept _ _ _
  · exact .refl _

theorem setBucket_pstatesKept (code : Nat) (k : Bucket) (s : State) : PStatesKept s (setBucket code k s) := pstatesKept_of_host rfl

theorem leaveLimited_pstatesKept (code : Nat) (s : State) : PStatesKept s (leaveLimited code s) := by
  unfold leaveLimited
  dsimp only
  split
  · exact (setBucket_pstatesKept _ _ _).trans (raiseRaw_pstatesKept _ _ _ _ _)
  · exact .refl _

/-- Raising an event moves no partition. -/
theorem raise_pstatesKept (code sev : Nat) (params : Bytes) (o : Option HP) (s : State) : PStatesKept s (raise code sev params o s) := by
  refine (leaveLimited_pstatesKept code s).trans ?_
  unfold raise
  dsimp only
  split
  · exact (setBucket_pstatesKept _ _ _).trans (raiseRaw_pstatesKept _ _ _ _ _)
  · exact (setBucket_pstatesKept _ _ _).trans (pstatesKept_of_onlyIn (bump_onlyIn _ _) (by decide))

theorem relatch_pstatesKept (old new : U8) (cause : Nat) (s : State) : PStatesKept s (relatch old new cause s) := by
  unfold relatch
  dsimp only
  split
  · exact .refl s
  · intro p
    rw [raise_pstatesKept]
    rfl

/-- A new controller is in the state it was in, and so are the others (R59, R60). -/
theorem reeval_pstatesKept (reason : Nat) (s : State) : PStatesKept s (reeval reason s) := by
  unfold reeval
  dsimp only
  split
  · exact .refl s
  · intro p
    split
    · rw [raise_pstatesKept, raise_pstatesKept]
      rfl
    · rw [modPart_pstatesKept (by intro; rfl), foldl_pstatesKept (fun _ _ => relatch_pstatesKept _ _ _ _), raise_pstatesKept]
      rfl

/-! ### A partition's moves by its paths (R57, R58, Table 2.10) -/

variable {p : HP}

theorem toHealthy_pstate : (getPart (toHealthy p s) p).pstate = .healthy := by
  rw [toHealthy, raise_pstatesKept, getPart_modPart]

theorem toDegraded_pstate (lost : Option Nat) : (getPart (toDegraded p lost s) p).pstate = .degraded := by
  cases lost with
  | none => rw [toDegraded, getPart_bump, getPart_modPart]
  | some m => rw [toDegraded, raise_pstatesKept, getPart_bump, getPart_modPart]

theorem toFailing_pstate (tell : Bool) : (getPart (toFailing p tell s) p).pstate = .failing := by
  cases tell with
  | false => rw [toFailing, raiseIf, if_neg Bool.false_ne_true, getPart_modPart]
  | true => rw [toFailing, raiseIf, if_pos rfl, raise_pstatesKept, getPart_modPart]

end

/-- Settles O10: of the two paths both, one or none is left; the state that the move enters is left alone by the re-evaluation of the
controller. -/
theorem partitionMovesByItsPaths : Obligations.PartitionMovesByItsPaths := by
  intro p s hb hp q new
  have hgo : ¬ (s.dev.boot ≠ .ready ∨ (getPart s p).present = false) := by simp [hb, hp]
  have hnew : new = (getPart (evalPart p s) p).pstate := rfl
  rw [evalPart, if_neg hgo, reeval_pstatesKept] at hnew
  refine ⟨fun hst => ?_, fun hst hlost => ?_, fun hst hlost => ?_⟩
  · rcases hst with hst | hst | hst <;> cases hv : q.v <;> cases heff : effP q <;>
      simpa [q, hst, hv, heff, toHealthy_pstate, toDegraded_pstate, toFailing_pstate] using hnew
  · have hboth : ¬ (q.v = true ∧ effP q = true) := by rcases hlost with hl | hl <;> simp [hl]
    simpa [q, hst, if_neg hboth] using hnew
  · have hboth : ¬ (q.v = true ∧ effP q = true) := by rcases hlost with hl | hl <;> simp [hl]
    simpa [q, hst, if_neg hboth] using hnew

end Sys2Proof.Machine

/-!
An occurrence of an event and the record buffer (17.2 of 17_recorder_persistence.md, R432 to R435).
-/

namespace Sys2Proof.Machine

/-! ### A token, or suppression (R432, R433) -/

section
variable {code sev : Nat} {params : Bytes} {o : Option HP} {s : State}

/-- The bucket of a suppressed occurrence, k before it: LIMITED, with the instants of its first and its last one. -/
def suppressedBucket (k : Bucket) (s : State) : Bucket :=
  { k with limited := true, suppressed := k.suppressed + 1, firstMs := if k.limited then k.firstMs else elMs s, lastMs := elMs s }

/-- An occurrence that finds no token is suppressed. -/
theorem raise_suppressed (hk : (bucketNow (leaveLimited code s) code).tokens = 0) :
    raise code sev params o s = bump 0x11000110 (setBucket code
      (suppressedBucket (bucketNow (leaveLimited code s) code) (leaveLimited code s)) (leaveLimited code s)) := by
  rw [raise, if_neg (by rw [hk]; exact Nat.lt_irrefl 0)]
  rfl

/-! ### The record buffer (R434, R435) -/

/-- State s with one more record lost. -/
def recordLost (s : State) : State := bump 0x11000118 { s with pop := { s.pop with bufLost := s.pop.bufLost + 1 } }

/-- A record that finds the buffer full loses itself, or the newest of severity 0 or 1 that no flush holds. -/
theorem pushRec_full (hfull : 1024 ≤ s.pop.buffer.length) :
    pushRec code sev params s = if sev ≤ 1 then recordLost s else
      match dropNewestLow (if s.pop.flushing then s.pop.flushEnd else 0) s.pop.buffer.reverse with
      | none => recordLost s
      | some t => bump 0x11000100 { recordLost s with pop :=
          { (recordLost s).pop with buffer := t.reverse ++ [mkRec s (s.pop.nextRec - 1) code sev params] } } := by
  rw [pushRec, if_neg (Nat.not_lt.2 hfull)]
  rfl

/-- No record of severity 0 or 1, none to displace. -/
theorem dropNewestLow_none {keep : Nat} {l : List Rec} (h : ∀ r ∈ l, 2 ≤ r.severity.toNat) : dropNewestLow keep l = none := by
  induction l with
  | nil => rfl
  | cons r l ih =>
    obtain ⟨hr, hl⟩ := List.forall_mem_cons.1 h
    rw [dropNewestLow, if_neg (by omega), ih hl]

/-- The newest record of severity 0 or 1 goes, and those newer than it are numbered down. -/
theorem dropNewestLow_some {a b : List Rec} {r : Rec} (hr : r.severity.toNat ≤ 1) (hb : ∀ x ∈ b, 2 ≤ x.severity.toNat) :
    dropNewestLow 0 (b ++ r :: a) = some (b.map (fun x => { x with num := x.num - 1 }) ++ a) := by
  induction b with
  | nil => exact if_pos ⟨hr, Nat.zero_le _⟩
  | cons x b ih =>
    obtain ⟨hx, hb⟩ := List.forall_mem_cons.1 hb
    rw [List.cons_append, dropNewestLow, if_neg (by omega), ih hb]
    rfl

end

/-- Settles O56: with a token the occurrence is raised past the limits and without one it is suppressed, by the bucket as it stands after
LIMITED was left; a full buffer is searched for its newest record of severity 0 or 1 from its newest end. -/
theorem eventTakesTokenOrIsSuppressed : Obligations.EventTakesTokenOrIsSuppressed := by
  intro code sev params o s u k
  refine ⟨fun hk => if_pos hk, fun hk => ?_, fun hroom => ?_, fun hfull => ?_⟩
  · have hr := raise_suppressed (sev := sev) (params := params) (o := o) hk
    rw [hr]
    refine ⟨?_, rfl, ?_, suppressedBucket k u, ?_, rfl, rfl⟩
    · exact (setBucket_onlyIn _ _ _).trans (bump_onlyIn _ _) (by decide) (by decide)
    · rw [cntGet_bump, if_pos rfl]
      rfl
    · exact (tget_tset _ _ _ _).trans (if_pos rfl)
  · rw [pushRec, if_pos hroom]
    rfl
  · rw [pushRec_full hfull]
    have hcnt : cntGet (recordLost s) 0x11000118 = min (2 ^ 64 - 1) (cntGet s 0x11000118 + 1) := by
      rw [recordLost, cntGet_bump, if_pos rfl]
      rfl
    refine ⟨?_, ?_, fun hlow => ?_, fun hsev hall => ?_, fun hsev hfl a b r hbuf hr hb => ?_⟩
    · split
      · rfl
      · split <;> rfl
    · split
      · exact hcnt
      · split
        · exact hcnt
        · rw [cntGet_bump, if_neg (by decide)]
          exact hcnt
    · rw [if_pos hlow]
      rfl
    · rw [if_neg (by omega), dropNewestLow_none (by simpa using hall)]
      rfl
    · rw [if_neg (by omega), hbuf, hfl, if_neg Bool.false_ne_true, List.reverse_append, List.reverse_cons, List.append_assoc,
        List.singleton_append, dropNewestLow_some hr (by simpa using hb)]
      simp

end Sys2Proof.Machine

/-!
The commands of group 0x0C (12.11 of 12_voice.md, R310, R314 to R342, Table 12.16).
-/

namespace Sys2Proof.Machine

section
variable (h : Hdr) (s : State)

theorem exec_voiceTdmConfig (p : VoiceTdmConfigP) : exec (.voiceTdmConfig h p) s = execVoiceTdmConfig h p s := rfl
theorem exec_voiceChOpen (p : VoiceCfg) : exec (.voiceChOpen h p) s = execVoiceChOpen h p s := rfl
theorem exec_voiceChModify (p : VoiceModifyP) : exec (.voiceChModify h p) s = execVoiceChModify h p s := rfl
theorem exec_voiceChStart (p : VoiceChP) : exec (.voiceChStart h p) s = execVoiceChStart h p s := rfl
theorem exec_voiceChStop (p : VoiceChP) : exec (.voiceChStop h p) s = execVoiceChStop h p s := rfl
theorem exec_ecReset (p : VoiceChP) : exec (.ecReset h p) s = execEcReset h p s := rfl
theorem exec_ecFreeze (p : VoiceChP) : exec (.ecFreeze h p) s = execEcFreeze h p s := rfl
theorem exec_ecUnfreeze (p : VoiceChP) : exec (.ecUnfreeze h p) s = execEcUnfreeze h p s := rfl
theorem exec_jitterResync (p : VoiceChP) : exec (.jitterResync h p) s = execJitterResync h p s := rfl
theorem exec_announcementStop (p : VoiceChP) : exec (.announcementStop h p) s = execAnnouncementStop h p s := rfl
theorem exec_voiceChClose (p : VoiceChP) : exec (.voiceChClose h p) s = execVoiceChClose h p s := rfl
theorem exec_voiceSrtpKey (p : VoiceSrtpKeyP) : exec (.voiceSrtpKey h p) s = execVoiceSrtpKey h p s := rfl
theorem exec_voiceToneProfile (p : VoiceToneProfileP) : exec (.voiceToneProfile h p) s = execVoiceToneProfile h p s := rfl
theorem exec_voiceToneBind (p : RingBindP) : exec (.voiceToneBind h p) s = execVoiceToneBind h p s := rfl
theorem exec_voiceToneGen (p : VoiceToneGenP) : exec (.voiceToneGen h p) s = execVoiceToneGen h p s := rfl
theorem exec_voiceAnnLoad (p : VoiceAnnLoadP) : exec (.voiceAnnLoad h p) s = execVoiceAnnLoad h p s := rfl
theorem exec_voiceAnnMapSet (p : VoiceAnnMapP) : exec (.voiceAnnMapSet h p) s = execVoiceAnnMapSet h p s := rfl
theorem exec_voiceAnnMapRemove (p : VoiceAnnMapP) : exec (.voiceAnnMapRemove h p) s = execVoiceAnnMapRemove h p s := rfl
theorem exec_voiceAnnPlay (p : VoiceAnnPlayP) : exec (.voiceAnnPlay h p) s = execVoiceAnnPlay h p s := rfl

end

section
variable {h : Hdr} {s : State}

/-! ### Commands that name one channel (Table 12.16) -/

/-- A command on a channel that its partition may name and that is not CLOSING acts on it. -/
theorem chCmd_admitted {op : Nat} {urgent : Bool} {p : VoiceChP} {v : VCh} {act : Nat → VCh → State → Rep} {i : Instr}
    (e : exec i s = .next (chCmd op urgent h p act s)) (a : Admitted (cmd op .openC urgent 4) h s) (hrsv : p.rsv = 0)
    (hname : chNamed s h p.channel = true) (hv : getCh s p.channel.toNat = some v) (hopen : v.state ≠ .closing) :
    exec i s = .next (answer h op (act p.channel.toNat v (countCmd h s))) := by
  rw [e, chCmd, vci_admitted a]
  · simp only [getCh_countCmd, hv, if_neg hopen]
    rfl
  · simp [hrsv, hname]

/-! ### A channel that is opened (R314, R315) -/

section
variable {t : State}

theorem raise_voc (code sev : Nat) (params : Bytes) (o : Option HP) : (raise code sev params o t).voc = t.voc :=
  raise_onlyIn _ _ _ _ _ .voc (by decide)

theorem bindRing_voc (p : HP) (n : Nat) (use : RingUse) : (bindRing p n use t).voc = t.voc := by
  unfold bindRing
  split
  · exact setRing_onlyIn _ _ _ _ .voc (by decide)
  · rfl

theorem foldl_bindRing_voc (p : HP) (use : RingUse) (l : List Nat) : (l.foldl (fun w r => bindRing p r use w) t).voc = t.voc := by
  induction l generalizing t with
  | nil => rfl
  | cons r l ih => exact ih.trans (bindRing_voc _ _ _)

theorem placeNew_voc (kind item : Nat) : (placeNew kind item t).voc = t.voc := raise_voc _ _ _ _

theorem chState_voc (ch old new cause : Nat) : (chState ch old new cause t).voc = t.voc := raise_voc _ _ _ _

end

theorem getCh_of_voc {s t : State} (h : t.voc = s.voc) (c : Nat) : getCh t c = getCh s c := congrArg (fun v : VocBlk => tget v.chans c) h

/-- A channel stands in its place with what it was opened with, whatever its opening then binds, places and reports. -/
theorem getCh_opened (n : Nat) (v : VCh) (p : HP) (old new cause : Nat) (rings : List Nat) (t : State) :
    getCh (chState n old new cause (rings.foldl (fun w r => bindRing p r .voice w) (placeNew 3 n (setCh n v t)))) n = some v := by
  rw [getCh_of_voc ((chState_voc _ _ _ _).trans ((foldl_bindRing_voc _ _ _).trans (placeNew_voc _ _)))]
  exact (tget_tset _ _ _ _).trans (if_pos rfl)

/-- The state in which a channel's opening draws its random values: its victims closed and the lattice started. -/
def chMade (n : Nat) (p : VoiceCfg) (vs : List (Nat × VCh)) (s : State) : State := startLattice (preempt n p.priority vs s)

/-- The channel that VOICE-CH-OPEN makes: its identifier and its counts are drawn first. -/
def chOpened (n : Nat) (owner : HP) (p : VoiceCfg) (vs : List (Nat × VCh)) (s : State) : VCh :=
  let x := fresh (chMade n p vs s)
  let y := fresh x.2
  newCh y.2 owner p x.1 y.1

end

/-- Settles O37: each command is admitted by its own checks, and its body then runs on the counted state, whose voice block is that of the
state; an opened channel stands in its place whatever its opening then reports. -/
theorem voiceCommandsComplete : Obligations.VoiceCommandsComplete := by
  intro h s u
  refine ⟨?_, ?_, ?_, ?_, ?_, ?_, ?_, ?_, ?_, ?_, ?_, ?_, ?_, ?_, ?_, ?_, ?_, ?_, ?_, ?_, ?_, ?_⟩
  case refine_1 =>
    intro p a hn hen hdr hil hfree
    refine exec_admitted (exec_voiceTdmConfig _ _ _) rfl a (by simp [hn, hen, hdr, hil]) ?_ rfl
    have hgo : ¬ (s.voc.hwEn.getLsbD p.highway.toNat = true ∧ decide (p.enable = 1) = false ∧ s.voc.chans.any (fun e => decide (e.2.cfg.lineKind = 1 ∧
        e.2.state ≠ .closing ∧ e.2.cfg.highway.toNat = p.highway.toNat)) = true) := by
      rintro ⟨hon, hoff, hused⟩
      rcases hfree with h1 | h1 | h1
      · simp [h1] at hoff
      · rw [h1] at hon; cases hon
      · rw [h1] at hused; cases hused
    dsimp only [countCmd_voc]
    rw [if_neg hgo]
    simp only [decide_eq_true_eq, firstFrame_countCmd, getHw_countCmd, elNs_countCmd, taiNs_countCmd]
    rfl
  case refine_2 =>
    intro p n vs a hok hrings hport hslot hfree hvict
    let v := chOpened n h.part p vs u
    let x := fresh (chMade n p vs u)
    let t := chState n 0 v.state.num 0 ((cfgRings p).foldl (fun w r => bindRing h.part r .voice w) (placeNew 3 n (setCh n v (fresh x.2).2)))
    have hv : getCh t n = some v := getCh_opened _ _ _ _ _ _ _ _
    refine ⟨t, exec_admitted (exec_voiceChOpen _ _ _) rfl a (by simp [hok, hrings, hport]) ?_ rfl, ?_, by rw [hv]; rfl⟩
    · rw [slotBusy_countCmd, if_neg (by simp [hslot]), countCmd_voc, hfree, victimsFor_countCmd, hvict, hv]
      rfl
    · intro w hw
      obtain rfl : v = w := Option.some.inj (hv.symm.trans hw)
      exact ⟨rfl, rfl, rfl, rfl⟩
  case refine_3 =>
    intro p v a hrsv hname hv hopen hok hlegs hport hslots
    refine ⟨_, rfl, exec_admitted (exec_voiceChModify _ _ _) rfl a (by simp [hrsv, hname, hok, hv, hlegs, hport]) ?_ rfl⟩
    simp only [getCh_countCmd, hv, if_neg hopen, if_pos hslots]
    rfl
  case refine_4 =>
    intro p v l a hrsv hname hv hopen hok hlegs hport hslots hvict
    refine ⟨_, rfl, _, rfl, exec_admitted (exec_voiceChModify _ _ _) rfl a (by simp [hrsv, hname, hok, hv, hlegs, hport]) ?_ rfl⟩
    simp only [getCh_countCmd, hv, if_neg hopen, if_neg (Nat.not_le.2 hslots), victimsFor_countCmd, hvict]
    rfl
  case refine_5 =>
    intro p v a hrsv hname hv hidle
    refine ⟨_, rfl, ?_⟩
    rw [chCmd_admitted (exec_voiceChStart _ _ _) a hrsv hname hv (by simp [hidle]), if_neg (not_not_intro hidle)]
    rfl
  case refine_6 =>
    intro p v a hrsv hname hv hactive
    refine ⟨_, rfl, ?_⟩
    rw [chCmd_admitted (exec_voiceChStop _ _ _) a hrsv hname hv (by simp [hactive]), if_neg (not_not_intro hactive)]
  case refine_7 =>
    intro p v a hrsv hname hv hopen
    rw [chCmd_admitted (exec_ecReset _ _ _) a hrsv hname hv hopen]
  case refine_8 =>
    intro p v a hrsv hname hv hopen
    rw [chCmd_admitted (exec_ecFreeze _ _ _) a hrsv hname hv hopen]
  case refine_9 =>
    intro p v a hrsv hname hv hopen
    rw [chCmd_admitted (exec_ecUnfreeze _ _ _) a hrsv hname hv hopen]
  case refine_10 =>
    intro p v a hrsv hname hv hopen
    rw [chCmd_admitted (exec_jitterResync _ _ _) a hrsv hname hv hopen]
  case refine_11 =>
    intro p v a hrsv hname hv hopen
    refine ⟨_, rfl, ?_⟩
    rw [chCmd_admitted (exec_announcementStop _ _ _) a hrsv hname hv hopen]
    cases v.play <;> rfl
  case refine_12 =>
    intro p v a hrsv hname hv hopen
    rw [chCmd_admitted (exec_voiceChClose _ _ _) a hrsv hname hv hopen]
  case refine_13 =>
    intro p v a hrsv hname hv hopen hdir hsuite hfrom
    refine exec_admitted (exec_voiceSrtpKey _ _ _) rfl a (by simp [hrsv, hname, hdir, hsuite, hfrom]) ?_ rfl
    simp only [getCh_countCmd, hv, if_neg hopen, if_pos hdir, hfrom]
    rfl
  case refine_14 =>
    intro p v a hrsv hname hv hopen hdir hsuite hfrom
    refine exec_admitted (exec_voiceSrtpKey _ _ _) rfl a (by simpa [hrsv, hname, hdir, hsuite] using hfrom) ?_ rfl
    simp only [getCh_countCmd, hv, if_neg hopen, if_neg (show p.dir ≠ 0 by simp [hdir])]
    rfl
  case refine_15 =>
    intro p a hprof hmin hmin2 hf1 hf1' hf2 hon hon2 hoff hcyc hcyc2 hrsv
    refine exec_admitted (exec_voiceToneProfile _ _ _) rfl a ?_ rfl rfl
    simpa [hprof, hmin, hmin2, hf1, hf1', hon, hon2, hcyc, hcyc2, hrsv] using And.intro hf2 hoff
  case refine_16 =>
    intro p a hrsv hring hfree hnone
    refine exec_admitted (exec_voiceToneBind _ _ _) rfl a (by simp [hrsv, hfree]) ?_ rfl
    simp only [countCmd_voc, hnone, if_neg hring]
    rfl
  case refine_17 =>
    intro p r a hrsv hring hsome
    refine exec_admitted (exec_voiceToneBind _ _ _) rfl a (by simp [hrsv, hring]) ?_ rfl
    simp only [countCmd_voc, hsome, if_pos hring]
    rfl
  case refine_18 =>
    intro p v a hrsv hdir hlevel hon hon2 hoff hoff2 hn hkind hname hv hactive
    refine exec_admitted (exec_voiceToneGen _ _ _) rfl a ?_ ?_ rfl
    · rcases hkind with ⟨hk, hn1, hn2, hprof, hdig⟩ | ⟨hk, hn0, hprof⟩
      · simp [hrsv, hdir, hlevel, hon, hon2, hoff, hoff2, ← hn, hn1, hn2, hk, hprof, hdig, hname]
      · simp [hrsv, hdir, hlevel, hon, hon2, hoff, hoff2, ← hn, hn0, hk, hprof, hname]
    · simp only [getCh_countCmd, hv, if_neg (not_not_intro hactive)]
      rfl
  case refine_19 =>
    intro p a hann hlaw hrsv hrsv2 hmin hmax hfree hload huse hroom
    refine ⟨_, rfl, exec_admitted (exec_voiceAnnLoad _ _ _) rfl a (by simp [hann, hlaw, hrsv, hrsv2, hmin, hmax, hfree]) ?_ rfl⟩
    cases hold : tget s.voc.anns p.ann.toNat with
    | none =>
      rw [hold] at hroom
      simp only [countCmd_voc, hold, annInUse_countCmd, huse, annBytes_countCmd, if_neg (Nat.not_lt.2 hroom), Bool.or_self,
        Bool.false_eq_true, if_false]
      rfl
    | some x =>
      rw [hold] at hload hroom
      have hidle : x.loading = none := by simpa using hload
      simp only [countCmd_voc, hold, hidle, annInUse_countCmd, huse, annBytes_countCmd, if_neg (Nat.not_lt.2 hroom), Option.isSome_none,
        Bool.or_self, Bool.false_eq_true, if_false]
      rfl
  case refine_20 => exact fun p a hok => exec_admitted (exec_voiceAnnMapSet _ _ _) rfl a hok rfl rfl
  case refine_21 => exact fun p a hok => exec_admitted (exec_voiceAnnMapRemove _ _ _) rfl a hok rfl rfl
  case refine_22 =>
    intro p a hann hdir hprio hrep hrep2 hch hch2 hlen hrsv hall
    have hnames := List.all_eq_true.1 hall
    refine ⟨_, rfl, exec_admitted (exec_voiceAnnPlay _ _ _) rfl a ?_ rfl rfl⟩
    simp only [hann, hdir, hprio, hrep, hrep2, hch, hch2, hlen, hrsv, and_self, decide_true, Bool.true_and, List.all_eq_true]
    intro c hc
    have hcc := hnames c hc
    rw [getCh_countCmd]
    cases hv : getCh s c.toNat with
    | none => simpa [hv] using hcc
    | some v => simpa [hv] using hcc
end Sys2Proof.Machine

/-!
The events of voice (12.2 to 12.8 of 12_voice.md, R312, R313, R319 to R324, R332, R340).
-/

namespace Sys2Proof.Machine

section
variable (s : State)

theorem exec_tdmFrame (f : List TdmIn) : exec (.tdmFrame f) s = execTdmFrame f s := rfl
theorem exec_voiceBlock (b : VoiceBlockIn) : exec (.voiceBlock b) s = execVoiceBlock b s := rfl
theorem exec_voiceAnnLoaded (a : BitVec 6) (data : Bytes) : exec (.voiceAnnLoaded a data) s = execVoiceAnnLoaded a data s := rfl
theorem exec_rtpPacketRx (p : RtpPacket) : exec (.rtpPacketRx p) s = execRtpPacketRx p s := rfl
theorem exec_dtmfEventTimeout (c : U16) : exec (.dtmfEventTimeout c) s = execDtmfEventTimeout c s := rfl
theorem exec_rtcpTx (c : U16) : exec (.rtcpTx c) s = execRtcpTx c s := rfl
theorem exec_rtcpRx (r : RtcpReport) : exec (.rtcpRx r) s = execRtcpRx r s := rfl
theorem exec_voiceMediaTimeout (c : U16) : exec (.voiceMediaTimeout c) s = execVoiceMediaTimeout c s := rfl
theorem exec_hostVoiceBlock (b : HostVoice) : exec (.hostVoiceBlock b) s = execHostVoiceBlock b s := rfl

end

/-- What one lattice block's observation does to its channel (R332). -/
def obsStep (o : VoiceObs) (t : State) : State :=
  match getCh t o.channel.toNat with
  | some v =>
    if o.quiet250 ∧ v.state = .active ∧ ecOn v ∧ (v.ecState = .nlpOff ∨ v.ecState = .disabled) then
      chEvt 0x0C04 0 o.channel.toNat [] (setCh o.channel.toNat { v with ecState := .enabled } t)
    else t
  | none => t

section
variable {s : State}

/-- What the checks past a datagram's source do with it (R319 to R321): its SRTP, its payload type and its sequence number. -/
def rtpCheck (c tai el : Nat) (p : RtpPacket) (v : VCh) (s : State) : State :=
  let fail (i : Nat) : State := setCh c (v.count i 1) s
  let other := match v.ssrcRx with
    | some x => decide (x ≠ p.ssrc)
    | none => false
  let ctx := if other then { v with rocRx := 0, hiSeqRx := none, replay := 0 } else v
  let idx := srtpIndex ctx.rocRx ctx.hiSeqRx p.seq
  let auth := match v.keyRx with
    | none => false
    | some k => if k.fromIndex ≤ idx then p.authOk else v.keyRxPrev.isSome && p.authPrev
  if v.cfg.srtp ∧ v.keyRx.isSome ∧ isReplay ctx idx then fail 11
  else if v.cfg.srtp ∧ auth = false then authFail c v s
  else
    let now_ := decide (p.pt.toNat = codecPt v.cfg.codec.toNat v.cfg.pt)
    let old := match v.oldCodec with
      | some (_, q, t) => decide (p.pt.toNat = q ∧ elNs s < t) && !now_
      | none => false
    let ev := decide (v.cfg.evPt ≠ 0 ∧ p.pt.toNat = v.cfg.evPt.toNat)
    if !(now_ || old || ev || decide (p.pt.toNat = 13)) then fail 6
    else if other = false ∧ (p.seq ∈ v.played ∨ v.jb.any (fun x => decide (x.seq = p.seq))) then fail 4
    else acceptRtp c tai el p idx old v s

/-- A datagram of a channel goes by the channel's state, its version and its source, in that order. -/
theorem exec_rtpPacketRx_found {p : RtpPacket} {c : Nat} {v : VCh} (hheld : readerHeld s p.port.toNat .c1 = false)
    (hchan : rtpChan (popIn p.port.toNat .c1 s) p.port p.dstPort.toNat = some (c, v)) :
    exec (.rtpPacketRx p) s = .next (
      if v.state ≠ .active then setCh c (v.count 0 1) (popIn p.port.toNat .c1 s)
      else if p.version ≠ 2 then setCh c ((v.count 0 1).count 5 1) (popIn p.port.toNat .c1 s)
      else if (v.cfg.latch = false ∨ v.latched) ∧ (v.cfg.remoteAddr ≠ p.srcAddr ∨ v.cfg.remotePort ≠ p.srcPort) then
        setCh c ((v.count 0 1).count 7 1) (popIn p.port.toNat .c1 s)
      else rtpCheck c (rxNs s p.port.toNat .c1) (rxEl s p.port.toNat .c1) p (v.count 0 1) (popIn p.port.toNat .c1 s)) := by
  simp only [exec_rtpPacketRx, execRtpPacketRx, hheld, hchan, Bool.false_eq_true, if_false]
  rfl

/-- In the clear, from the source that was heard before or the first, of the channel's codec and of a new number, it is taken. -/
theorem rtpCheck_accepted {c tai el : Nat} {p : RtpPacket} {v : VCh} (hsrtp : v.cfg.srtp = false)
    (hssrc : v.ssrcRx = none ∨ v.ssrcRx = some p.ssrc) (hpt : p.pt.toNat = codecPt v.cfg.codec.toNat v.cfg.pt) (hplayed : p.seq ∉ v.played)
    (hbuffer : v.jb.any (fun x => decide (x.seq = p.seq)) = false) :
    rtpCheck c tai el p v s = acceptRtp c tai el p (srtpIndex v.rocRx v.hiSeqRx p.seq) false v s := by
  unfold rtpCheck
  rcases hssrc with h | h <;> cases v.oldCodec <;> simp [h, hsrtp, hpt, hplayed, hbuffer]

end

/-- Settles O38: each row is due by its hypotheses, and what it then does is its effect; a packet by its channel's state and its source. -/
theorem voiceEventsComplete : Obligations.VoiceEventsComplete := by
  intro s
  refine ⟨?_, ?_, ?_, ?_, ?_, ?_, ?_, ?_, ?_, ?_, ?_, ?_, ?_⟩
  case refine_1 => exact fun f => exec_tdmFrame s f
  case refine_2 =>
    rintro tones obs start hchans rfl hdue
    rw [exec_voiceBlock, execVoiceBlock, if_neg (not_or.2 ⟨hchans, Nat.not_lt.2 hdue⟩)]
    have hobs : (fun (t : State) (o : VoiceObs) => obsStep o t) = fun t o => (getCh t o.channel.toNat).elim t (fun v =>
        if o.quiet250 ∧ v.state = .active ∧ ecOn v ∧ (v.ecState = .nlpOff ∨ v.ecState = .disabled) then
          chEvt 0x0C04 0 o.channel.toNat [] (setCh o.channel.toNat { v with ecState := .enabled } t) else t) := by
      funext t o
      unfold obsStep
      cases getCh t o.channel.toNat <;> rfl
    rw [← hobs]
    rfl
  case refine_3 =>
    intro a data x id n p hx hload hlen hreads
    have hgo : ¬ (data.length < x.bytes ∨ hostReads s p = false) := by simp [hreads, hlen]
    simp only [exec_voiceAnnLoaded, execVoiceAnnLoaded, hx, hload, if_neg hgo]
  case refine_4 =>
    intro p hheld hnone
    simp only [exec_rtpPacketRx, execRtpPacketRx, hheld, hnone, Bool.false_eq_true, if_false]
  case refine_5 =>
    intro p c v hheld hchan hst
    rw [exec_rtpPacketRx_found hheld hchan, if_pos hst]
  case refine_6 =>
    intro p c v hheld hchan hactive hversion
    rw [exec_rtpPacketRx_found hheld hchan, if_neg (not_not_intro hactive), if_pos hversion]
  case refine_7 =>
    intro p c v hheld hchan hactive hversion hlatch hsource
    rw [exec_rtpPacketRx_found hheld hchan, if_neg (not_not_intro hactive), if_neg (not_not_intro hversion), if_pos ⟨hlatch, hsource⟩]
  case refine_8 =>
    intro p c v hheld hchan hactive hversion hsource hsrtp hssrc hpt hnew hnew2
    have hsource' : ¬ ((v.cfg.latch = false ∨ v.latched = true) ∧ (v.cfg.remoteAddr ≠ p.srcAddr ∨ v.cfg.remotePort ≠ p.srcPort)) := by
      rintro ⟨hl, hr⟩
      rcases hsource with ⟨h1, h2⟩ | ⟨h1, h2⟩
      · simp [h1, h2] at hl
      · simp [h1, h2] at hr
    rw [exec_rtpPacketRx_found hheld hchan, if_neg (not_not_intro hactive), if_neg (not_not_intro hversion), if_neg hsource']
    exact congrArg _ (rtpCheck_accepted (v := v.count 0 1) hsrtp hssrc hpt hnew hnew2)
  case refine_9 =>
    intro c v e hv he hends hevent hdue
    simp only [exec_dtmfEventTimeout, execDtmfEventTimeout, hv, he]
    rw [if_pos ⟨hends, hevent, hdue⟩]
  case refine_10 =>
    intro c v hv hactive hpkt hrtcp hdue
    have hgo : ¬ (v.state ≠ .active ∨ v.cfg.pktKind ≠ 1 ∨ v.cfg.rtcp = false ∨ elNs s < v.nextRtcpEl) := by
      simp [hactive, hpkt, hrtcp, hdue]
    simp only [exec_rtcpTx, execRtcpTx, hv, if_neg hgo]
  case refine_11 =>
    intro r c v hheld hport hchan hactive hrtcp hset haddr hsport hssrc hauth
    have hgo : v.state = .active ∧ v.cfg.rtcp = true ∧ v.cfg.remoteSet = true ∧ r.srcAddr = v.cfg.remoteAddr ∧
        r.srcPort.toNat = v.cfg.remotePort.toNat + 1 ∧ r.ssrc = v.ssrcTx ∧ (v.cfg.srtp = true → r.authOk = true) :=
      ⟨hactive, hrtcp, hset, haddr, hsport, hssrc, fun hs => hauth.resolve_left (by simp [hs])⟩
    simp only [exec_rtcpRx, execRtcpRx, hheld, if_neg hport, hchan, if_pos hgo, Bool.false_eq_true, if_false]
  case refine_12 =>
    intro c v hv hactive hpkt hms hlost hdue
    simp only [exec_voiceMediaTimeout, execVoiceMediaTimeout, hv]
    rw [if_pos ⟨hactive, hpkt, hms, hlost, hdue⟩]
  case refine_13 =>
    intro b r v hr hdev howned huse hreads hpoison hv hpart hopen hleg hsamples hpcm
    have hgo : ¬ (r.toDev = false ∨ r.owned = [] ∨ r.use ≠ .voice ∨ hostReads s b.part = false) := by simp [hdev, howned, huse, hreads]
    have hlen : ¬ (b.samples.toNat ≠ blockSamples v.cfg ∨ b.pcm.length ≠ b.samples.toNat) := by simp [hsamples, hpcm]
    simp only [exec_hostVoiceBlock, execHostVoiceBlock, hr, if_neg hgo, if_neg (not_not_intro hpoison), hv, hpart, true_and, if_neg hlen, decide_eq_true hopen,
      Bool.true_and, decide_eq_true_eq]
    rcases hleg with ⟨hleg, hkind, hin⟩ | ⟨hleg, hkind, hin⟩
    · simp only [hleg, hkind, hin, if_true, and_self, decide_true, Bool.true_eq_false, if_false]
    · simp only [hleg, hkind, hin, and_self, decide_true]
      rfl
end Sys2Proof.Machine

/-!
The MAC bundles and the accumulator instructions (13.6 of 13_sorrel_cores.md, R354 to R357, Table 13.6).
-/

namespace Sys2Proof.Machine

section
variable {core : CoreNo} {reads : List Nat} {w : Nat} {endOk : Bool} {f : Core → State → Except CoreFault Ex} {s : State}

/-- An instruction that its row gives to `runInstr`, that issues and answers, retires. -/
theorem exec_issued {i : Instr} {x : Ex} (e : exec i s = .next (runInstr core reads w endOk f s)) (h : Issues core reads w endOk s)
    (k : f (coreAt core reads s) (stateAt core reads s) = .ok x) : exec i s = .next (retire core w x) := by
  rw [e, runInstr_issues h k]

end

section
variable (core : CoreNo) (s : State)

/-! ### The rows of the instructions -/

theorem exec_dmac32 (b : Bundle) : exec (.dmac32 core b) s = execDmac32 core b s := rfl
theorem exec_qmac16 (b : Bundle) : exec (.qmac16 core b) s = execQmac16 core b s := rfl
theorem exec_mac32 (b : Bundle) : exec (.mac32 core b) s = execMac32 core b s := rfl
theorem exec_dmac16 (b : Bundle) : exec (.dmac16 core b) s = execDmac16 core b s := rfl
theorem exec_msu (op : MacOp) (b : Bundle) : exec (.msu core op b) s = execMsu core op b s := rfl
theorem exec_tapmv (acc : Fin 4) (i : Fin 8) (ov : OvMode) : exec (.tapmv core acc i ov) s = execTapmv core acc i ov s := rfl
theorem exec_macr (acc : Fin 4) (a b : Fin 16) (sign : MacSign) (ov : OvMode) :
    exec (.macr core acc a b sign ov) s = execMacr core acc a b sign ov s := rfl
theorem exec_msur (acc : Fin 4) (a b : Fin 16) (sign : MacSign) (ov : OvMode) :
    exec (.msur core acc a b sign ov) s = execMsur core acc a b sign ov s := rfl
theorem exec_adda (dst src : Fin 4) (ov : OvMode) : exec (.adda core dst src ov) s = execAdda core dst src ov s := rfl
theorem exec_suba (dst src : Fin 4) (ov : OvMode) : exec (.suba core dst src ov) s = execSuba core dst src ov s := rfl
theorem exec_nega (acc : Fin 4) (ov : OvMode) : exec (.nega core acc ov) s = execNega core acc ov s := rfl
theorem exec_absa (acc : Fin 4) (ov : OvMode) : exec (.absa core acc ov) s = execAbsa core acc ov s := rfl
theorem exec_sha (acc : Fin 4) (left : Bool) (n : BitVec 6) (ov : OvMode) : exec (.sha core acc left n ov) s = execSha core acc left n ov s := rfl
theorem exec_clra (accs : List (Fin 4)) : exec (.clra core accs) s = execClra core accs s := rfl
theorem exec_exp (d : Fin 16) (acc : Fin 4) : exec (.exp core d acc) s = execExp core d acc s := rfl
theorem exec_expd (d a : Fin 16) : exec (.expd core d a) s = execExpd core d a s := rfl
theorem exec_norm (acc : Fin 4) (d : Fin 16) (ov : OvMode) : exec (.norm core acc d ov) s = execNorm core acc d ov s := rfl
theorem exec_sac (m : AMode) (acc : Fin 4) (shift : BitVec 6) (rnd : Rnd) (half : Bool) :
    exec (.sac core m acc shift rnd half) s = execSac core m acc shift rnd half s := rfl
theorem exec_mva (d : Fin 16) (acc : Fin 4) (shift : BitVec 6) (rnd : Rnd) (half : Bool) :
    exec (.mva core d acc shift rnd half) s = execMva core d acc shift rnd half s := rfl

end

/-! ### MAC bundles (R354, R355) -/

/-- What a bundle reads: its accumulators, its two slots and its move. -/
def bundleReads (b : Bundle) : List Nat := b.accs.map aKey ++ slotReads b.slot1 ++ slotReads b.slot2 ++ b.move.elim [] (fun e => regKeys e.2)

theorem bundle_eq_runInstr (m : MacOp) (sub : Bool) (core : CoreNo) (b : Bundle) (s : State) :
    bundle m sub core b s = runInstr core (bundleReads b) 2 true (bundleEffect m sub core.toNat b) s := by
  unfold bundle bundleReads
  cases b.move <;> rfl

/-- A bundle of two fetches and no move: it multiplies, and takes two cycles where both words come from one bank. -/
theorem bundleEffect_fetches {op : MacOp} {sub : Bool} {sg : MacSign} {ov : OvMode} {accs : List (Fin 4)} {m1 m2 : AMode} {c : Core} {s : State}
    {e1 e2 : Ea} {n : Nat} (hok : bundleOk op ⟨accs, sg, ov, .fetch m1, .fetch m2, none⟩ c = true) (h1 : resolve m1 c s = .ok e1)
    (hl1 : localCheck e1 (macSlotBytes op) = none) (h2 : resolve m2 e1.c e1.s = .ok e2) (hl2 : localCheck e2 (macSlotBytes op) = none) :
    let w := macSlotBytes op
    let same := !c.unified && decide (decide (e1.a < 0x20000) = decide (e2.a < 0x20000))
    bundleEffect op sub n ⟨accs, sg, ov, .fetch m1, .fetch m2, none⟩ c s =
      .ok ⟨accs.foldl (fun x a => readyAt (aKey a) 1 x) (macLanes op sub sg ov (localLoad e1.c e1 w) (localLoad e2.c e2 w) 0 accs e2.c),
        bumpIf same (coreCnt n 0x210) e2.s, if same then 2 else 1, none⟩ := by
  have hs1 : doSlot (macSlotBytes op) (.fetch m1) c c s =
      .ok ⟨localLoad e1.c e1 (macSlotBytes op), [], e1.c, e1.s, decide (e1.a < 0x20000)⟩ := by simp only [doSlot, slotMode, h1, hl1]
  have hs2 : doSlot (macSlotBytes op) (.fetch m2) c e1.c e1.s =
      .ok ⟨localLoad e2.c e2 (macSlotBytes op), [], e2.c, e2.s, decide (e2.a < 0x20000)⟩ := by simp only [doSlot, slotMode, h2, hl2]
  simp only [bundleEffect, hok, hs1, hs2, Bool.true_eq_false, if_false]
  rfl

/-! ### TAPMV (R357) -/

/-- The core after a TAPMV: the tap is multiplied and moved up, and both pointers step down. -/
def tapMoved (acc : Fin 4) (i : Fin 8) (ov : OvMode) (c : Core) : Core :=
  let x := dataWord c (getI c i)
  let c1 := setI i ((getI c i : Int) - 4) (dataWrite (getI c i + 4) (leBytes 4 x.toNat)
    (readyAt (aKey acc) 1 (accPut acc (getAcc c acc + (BitVec.ofNat 32 (leNat (ramRead c.im (getI c 7) 4))).toInt * x.toInt) ov c)))
  setI 7 ((getI c1 7 : Int) - 4) c1

/-- Its cycles: one inside a repeat of a unified core, two elsewhere. -/
def tapCycles (c : Core) : Nat := if (c.loops.head?.elim false (fun l => l.rep && decide (l.last = c.pc))) && c.unified then 1 else 2

theorem exec_tapmv_issued {core : CoreNo} {acc : Fin 4} {i : Fin 8} {ov : OvMode} {s : State} (h : Issues core [aKey acc] 1 true s) {c : Core}
    (hc : c = coreAt core [aKey acc] s) (hend : getI c 7 + 4 ≤ 0x8000) (halign : getI c 7 % 4 = 0) (hread : localFault (getI c i) 4 = none)
    (hwrite : localFault (getI c i + 4) 4 = none) :
    exec (.tapmv core acc i ov) s = .next (retire core 1 ⟨tapMoved acc i ov c, stateAt core [aKey acc] s, tapCycles c, none⟩) := by
  subst hc
  refine exec_issued (exec_tapmv core s acc i ov) h ?_
  simp only [if_neg (Nat.not_lt.2 hend), if_neg (not_not_intro halign), hread, hwrite]
  unfold tapMoved tapCycles
  cases (coreAt core [aKey acc] s).loops <;> rfl

/-- Settles O39: each instruction issues by its hypotheses, and what it answers then retires. -/
theorem macInstructionsComplete : Obligations.MacInstructionsComplete := by
  intro core s
  refine ⟨?_, ?_, ?_, ?_, ?_, ?_, ?_, ?_, ?_, ?_, ?_, ?_, ?_, ?_, ?_, ?_⟩
  case refine_1 =>
    rintro b k c t x rfl h rfl rfl
    refine ⟨fun he => ?_, fun he => ?_, fun he => ?_, fun he => ?_, fun op he => ?_⟩
    · exact exec_issued ((exec_dmac32 core s b).trans (congrArg Host.Outcome.next (bundle_eq_runInstr _ _ _ _ _))) h he
    · exact exec_issued ((exec_qmac16 core s b).trans (congrArg Host.Outcome.next (bundle_eq_runInstr _ _ _ _ _))) h he
    · exact exec_issued ((exec_mac32 core s b).trans (congrArg Host.Outcome.next (bundle_eq_runInstr _ _ _ _ _))) h he
    · exact exec_issued ((exec_dmac16 core s b).trans (congrArg Host.Outcome.next (bundle_eq_runInstr _ _ _ _ _))) h he
    · exact exec_issued ((exec_msu core s op b).trans (congrArg Host.Outcome.next (bundle_eq_runInstr _ _ _ _ _))) h he
  case refine_2 => exact fun op sub sg ov accs m1 m2 c e1 e2 hok h1 hl1 h2 hl2 => bundleEffect_fetches hok h1 hl1 h2 hl2
  case refine_3 =>
    rintro acc i ov c t h hc rfl hend halign hread hwrite
    exact exec_tapmv_issued h hc hend halign hread hwrite
  case refine_4 => exact fun acc a b sign ov h => ⟨_, rfl, _, rfl, exec_issued (exec_macr _ _ _ _ _ _ _) h rfl⟩
  case refine_5 => exact fun acc a b sign ov h => ⟨_, rfl, _, rfl, exec_issued (exec_msur _ _ _ _ _ _ _) h rfl⟩
  case refine_6 => exact fun dst src ov h => ⟨_, rfl, _, rfl, exec_issued (exec_adda _ _ _ _ _) h rfl⟩
  case refine_7 => exact fun dst src ov h => ⟨_, rfl, _, rfl, exec_issued (exec_suba _ _ _ _ _) h rfl⟩
  case refine_8 => exact fun acc ov h => ⟨_, rfl, _, rfl, exec_issued (exec_nega _ _ _ _) h rfl⟩
  case refine_9 => exact fun acc ov h => ⟨_, rfl, _, rfl, exec_issued (exec_absa _ _ _ _) h rfl⟩
  case refine_10 => exact fun acc left n ov h => ⟨_, rfl, _, rfl, exec_issued (exec_sha _ _ _ _ _ _) h rfl⟩
  case refine_11 =>
    rintro accs c t h rfl rfl hlen
    exact exec_issued (exec_clra _ _ _) h (if_neg (Nat.not_lt.2 hlen))
  case refine_12 => exact fun d acc h => ⟨_, rfl, _, rfl, exec_issued (exec_exp _ _ _ _) h rfl⟩
  case refine_13 => exact fun d a h => ⟨_, rfl, _, rfl, exec_issued (exec_expd _ _ _ _) h rfl⟩
  case refine_14 => exact fun acc d ov h => ⟨_, rfl, _, rfl, exec_issued (exec_norm _ _ _ _ _) h rfl⟩
  case refine_15 =>
    rintro m acc shift rnd half e c t h rfl rfl hm hl
    refine exec_issued (exec_sac _ _ _ _ _ _ _) h ?_
    simp only [hm, hl]
    rfl
  case refine_16 => exact fun d acc shift rnd half h => ⟨_, rfl, _, rfl, exec_issued (exec_mva _ _ _ _ _ _ _) h rfl⟩

end Sys2Proof.Machine

/-!
The integer and binary32 instructions on D registers (13.6 of 13_sorrel_cores.md, R358, Table 13.6).
-/

namespace Sys2Proof.Machine

section
variable (core : CoreNo) (s : State)

theorem exec_add (d a b : Fin 16) : exec (.add core d a b) s = execAdd core d a b s := rfl
theorem exec_sub (d a b : Fin 16) : exec (.sub core d a b) s = execSub core d a b s := rfl
theorem exec_addi (d a : Fin 16) (imm : U32) : exec (.addi core d a imm) s = execAddi core d a imm s := rfl
theorem exec_andD (d a b : Fin 16) : exec (.andD core d a b) s = execAndD core d a b s := rfl
theorem exec_orD (d a b : Fin 16) : exec (.orD core d a b) s = execOrD core d a b s := rfl
theorem exec_xorD (d a b : Fin 16) : exec (.xorD core d a b) s = execXorD core d a b s := rfl
theorem exec_notD (d a : Fin 16) : exec (.notD core d a) s = execNotD core d a s := rfl
theorem exec_shl (d a : Fin 16) (b : Src2) : exec (.shl core d a b) s = execShl core d a b s := rfl
theorem exec_shr (d a : Fin 16) (b : Src2) : exec (.shr core d a b) s = execShr core d a b s := rfl
theorem exec_sar (d a : Fin 16) (b : Src2) : exec (.sar core d a b) s = execSar core d a b s := rfl
theorem exec_rot (d a : Fin 16) (b : Src2) : exec (.rot core d a b) s = execRot core d a b s := rfl
theorem exec_min (d a b : Fin 16) : exec (.min core d a b) s = execMin core d a b s := rfl
theorem exec_max (d a b : Fin 16) : exec (.max core d a b) s = execMax core d a b s := rfl
theorem exec_abs (d a : Fin 16) : exec (.abs core d a) s = execAbs core d a s := rfl
theorem exec_cmp (a : Fin 16) (b : Src2) : exec (.cmp core a b) s = execCmp core a b s := rfl
theorem exec_sel (cond : Cond) (d a b : Fin 16) : exec (.sel core cond d a b) s = execSel core cond d a b s := rfl
theorem exec_mul (d a b : Fin 16) : exec (.mul core d a b) s = execMul core d a b s := rfl
theorem exec_mulh (d a b : Fin 16) : exec (.mulh core d a b) s = execMulh core d a b s := rfl
theorem exec_divs (d a b : Fin 16) : exec (.divs core d a b) s = execDivs core d a b s := rfl
theorem exec_fadd (d a b : Fin 16) : exec (.fadd core d a b) s = execFadd core d a b s := rfl
theorem exec_fsub (d a b : Fin 16) : exec (.fsub core d a b) s = execFsub core d a b s := rfl
theorem exec_fmul (d a b : Fin 16) : exec (.fmul core d a b) s = execFmul core d a b s := rfl
theorem exec_fma (d a b c : Fin 16) : exec (.fma core d a b c) s = execFma core d a b c s := rfl
theorem exec_fmin (d a b : Fin 16) : exec (.fmin core d a b) s = execFmin core d a b s := rfl
theorem exec_fmax (d a b : Fin 16) : exec (.fmax core d a b) s = execFmax core d a b s := rfl
theorem exec_fabs (d a : Fin 16) : exec (.fabs core d a) s = execFabs core d a s := rfl
theorem exec_fneg (d a : Fin 16) : exec (.fneg core d a) s = execFneg core d a s := rfl
theorem exec_fcmp (a b : Fin 16) : exec (.fcmp core a b) s = execFcmp core a b s := rfl
theorem exec_fcvt (k : Cvt) (d a : Fin 16) : exec (.fcvt core k d a) s = execFcvt core k d a s := rfl
theorem exec_frcp (d a : Fin 16) : exec (.frcp core d a) s = execFrcp core d a s := rfl
theorem exec_frsq (d a : Fin 16) : exec (.frsq core d a) s = execFrsq core d a s := rfl

end

/-- Settles O40: each instruction issues by its hypothesis, and what it answers then retires. -/
theorem aluAndFloatInstructionsComplete : Obligations.AluAndFloatInstructionsComplete := by
  intro core s
  refine ⟨?_, ?_, ?_, ?_, ?_, ?_, ?_, ?_, ?_, ?_, ?_, ?_, ?_, ?_, ?_, ?_, ?_, ?_, ?_, ?_, ?_, ?_, ?_, ?_, ?_, ?_, ?_, ?_, ?_, ?_, ?_⟩
  case refine_1 => exact fun _ _ _ h => ⟨_, rfl, _, rfl, exec_issued (exec_add core s _ _ _) h rfl⟩
  case refine_2 => exact fun _ _ _ h => ⟨_, rfl, _, rfl, exec_issued (exec_sub core s _ _ _) h rfl⟩
  case refine_3 => exact fun _ _ _ h => ⟨_, rfl, _, rfl, exec_issued (exec_addi core s _ _ _) h rfl⟩
  case refine_4 => exact fun _ _ _ h => ⟨_, rfl, _, rfl, exec_issued (exec_andD core s _ _ _) h rfl⟩
  case refine_5 => exact fun _ _ _ h => ⟨_, rfl, _, rfl, exec_issued (exec_orD core s _ _ _) h rfl⟩
  case refine_6 => exact fun _ _ _ h => ⟨_, rfl, _, rfl, exec_issued (exec_xorD core s _ _ _) h rfl⟩
  case refine_7 => exact fun _ _ h => ⟨_, rfl, _, rfl, exec_issued (exec_notD core s _ _) h rfl⟩
  case refine_8 => exact fun _ _ _ h => ⟨_, rfl, _, rfl, exec_issued (exec_shl core s _ _ _) h rfl⟩
  case refine_9 => exact fun _ _ _ h => ⟨_, rfl, _, rfl, exec_issued (exec_shr core s _ _ _) h rfl⟩
  case refine_10 => exact fun _ _ _ h => ⟨_, rfl, _, rfl, exec_issued (exec_sar core s _ _ _) h rfl⟩
  case refine_11 => exact fun _ _ _ h => ⟨_, rfl, _, rfl, exec_issued (exec_rot core s _ _ _) h rfl⟩
  case refine_12 => exact fun _ _ _ h => ⟨_, rfl, _, rfl, exec_issued (exec_min core s _ _ _) h rfl⟩
  case refine_13 => exact fun _ _ _ h => ⟨_, rfl, _, rfl, exec_issued (exec_max core s _ _ _) h rfl⟩
  case refine_14 => exact fun _ _ h => ⟨_, rfl, _, rfl, exec_issued (exec_abs core s _ _) h rfl⟩
  case refine_15 => exact fun _ _ h => ⟨_, rfl, _, rfl, exec_issued (exec_cmp core s _ _) h rfl⟩
  case refine_16 => exact fun _ _ _ _ h => ⟨_, rfl, _, rfl, exec_issued (exec_sel core s _ _ _ _) h rfl⟩
  case refine_17 => exact fun _ _ _ h => ⟨_, rfl, _, rfl, exec_issued (exec_mul core s _ _ _) h rfl⟩
  case refine_18 => exact fun _ _ _ h => ⟨_, rfl, _, rfl, exec_issued (exec_mulh core s _ _ _) h rfl⟩
  case refine_19 => exact fun _ _ _ h => ⟨_, rfl, _, rfl, exec_issued (exec_divs core s _ _ _) h rfl⟩
  case refine_20 => exact fun _ _ _ h => ⟨_, rfl, _, rfl, exec_issued (exec_fadd core s _ _ _) h rfl⟩
  case refine_21 => exact fun _ _ _ h => ⟨_, rfl, _, rfl, exec_issued (exec_fsub core s _ _ _) h rfl⟩
  case refine_22 => exact fun _ _ _ h => ⟨_, rfl, _, rfl, exec_issued (exec_fmul core s _ _ _) h rfl⟩
  case refine_23 => exact fun _ _ _ _ h => ⟨_, rfl, _, rfl, exec_issued (exec_fma core s _ _ _ _) h rfl⟩
  case refine_24 => exact fun _ _ _ h => ⟨_, rfl, _, rfl, exec_issued (exec_fmin core s _ _ _) h rfl⟩
  case refine_25 => exact fun _ _ _ h => ⟨_, rfl, _, rfl, exec_issued (exec_fmax core s _ _ _) h rfl⟩
  case refine_26 => exact fun _ _ h => ⟨_, rfl, _, rfl, exec_issued (exec_fabs core s _ _) h rfl⟩
  case refine_27 => exact fun _ _ h => ⟨_, rfl, _, rfl, exec_issued (exec_fneg core s _ _) h rfl⟩
  case refine_28 => exact fun _ _ h => ⟨_, rfl, _, rfl, exec_issued (exec_fcmp core s _ _) h rfl⟩
  case refine_29 => exact fun _ _ _ h => ⟨_, rfl, _, rfl, exec_issued (exec_fcvt core s _ _ _) h rfl⟩
  case refine_30 => exact fun _ _ h => ⟨_, rfl, _, rfl, exec_issued (exec_frcp core s _ _) h rfl⟩
  case refine_31 => exact fun _ _ h => ⟨_, rfl, _, rfl, exec_issued (exec_frsq core s _ _) h rfl⟩

end Sys2Proof.Machine

/-!
Loads, stores, moves, branches, loops and queued transfers of a core (13.5 to 13.9 of 13_sorrel_cores.md, R348 to R353, R359, R360, R363, R371).
-/

namespace Sys2Proof.Machine

section
variable (core : CoreNo) (s : State)

theorem exec_ld (d : Fin 16) (sz : Size) (signed : Bool) (m : AMode) : exec (.ld core d sz signed m) s = execLd core d sz signed m s := rfl
theorem exec_st (m : AMode) (d : Fin 16) (sz : Size) : exec (.st core m d sz) s = execSt core m d sz s := rfl
theorem exec_ld64 (d : Fin 8) (m : AMode) : exec (.ld64 core d m) s = execLd64 core d m s := rfl
theorem exec_st64 (m : AMode) (d : Fin 8) : exec (.st64 core m d) s = execSt64 core m d s := rfl
theorem exec_ldc (d : Fin 16) (m : AMode) (conflicts : BitVec 3) : exec (.ldc core d m conflicts) s = execLdc core d m conflicts s := rfl
theorem exec_stc (m : AMode) (d : Fin 16) (conflicts : BitVec 3) : exec (.stc core m d conflicts) s = execStc core m d conflicts s := rfl
theorem exec_movi (r : SReg) (imm : U32) : exec (.movi core r imm) s = execMovi core r imm s := rfl
theorem exec_modi (i : Fin 8) (step : Src2) : exec (.modi core i step) s = execModi core i step s := rfl
theorem exec_mov (dst src : SReg) : exec (.mov core dst src) s = execMov core dst src s := rfl
theorem exec_b (target : U32) : exec (.b core target) s = execB core target s := rfl
theorem exec_bcc (cond : Cond) (target : U32) : exec (.bcc core cond target) s = execBcc core cond target s := rfl
theorem exec_call (target : U32) : exec (.call core target) s = execCall core target s := rfl
theorem exec_ret : exec (.ret core) s = execRet core s := rfl
theorem exec_loop (count : Count) (last : U32) : exec (.loop core count last) s = execLoop core count last s := rfl
theorem exec_rep (count : Count) : exec (.rep core count) s = execRep core count s := rfl
theorem exec_dmaq (op : DmaqOp) : exec (.dmaq core op) s = execDmaq core op s := rfl
theorem exec_outq (binding : BitVec 4) (localAddr : BitVec 24) (bytes : BitVec 17) :
    exec (.outq core binding localAddr bytes) s = execOutq core binding localAddr bytes s := rfl
theorem exec_waitd (n : BitVec 5) : exec (.waitd core n) s = execWaitd core n s := rfl
theorem exec_dmaTransferDone : exec (.dmaTransferDone core) s = execDmaTransferDone core s := rfl
theorem exec_mvccr (d : Fin 16) : exec (.mvccr core d) s = execMvccr core d s := rfl
theorem exec_nop : exec (.nop core) s = execNop core s := rfl
theorem exec_done : exec (.done core) s = execDone core s := rfl
theorem exec_budgetFault : exec (.budgetFault core) s = execBudgetFault core s := rfl

end

section
variable {core : CoreNo} {s : State}

/-! ### Loops (R359) -/

/-- The count of a loop (Table 13.6). -/
def loopCount (count : Count) (c : Core) : U32 :=
  match count with
  | .imm k => k.setWidth 32
  | .reg d => getD c d

/-- A count that is not zero opens one more level, where four do not stand. -/
theorem openLoop_opened {count : Count} {first last : U32} {rep : Bool} {c : Core} {t : State} (hcount : loopCount count c ≠ 0)
    (hroom : c.loops.length < 4) :
    openLoop count first last rep c t =
      .ok ⟨{ c with loops := ⟨first, last, rep⟩ :: c.loops, lc := c.lc.set c.loops.length (loopCount count c) }, t, 1, none⟩ := by
  cases count with
  | imm k =>
    have hk : k ≠ 0 := fun hk => hcount (by rw [hk]; rfl)
    have hn : k.setWidth 32 ≠ (0 : U32) := hcount
    simp only [openLoop, decide_eq_true_eq, if_neg hk, if_neg hn, if_neg (Nat.not_le.2 hroom)]
    rfl
  | reg d =>
    have hn : getD c d ≠ 0 := hcount
    simp only [openLoop, Bool.false_eq_true, if_false, if_neg hn, if_neg (Nat.not_le.2 hroom)]
    rfl

/-! ### The queue of transfers (R360) -/

theorem queueFull_room (hroom : (getCore s core.toNat).queue.length < 16) : ¬ queueFull core s = true := by
  simp [queueFull, hroom]

/-! ### The end of a run (R363) -/

theorem getCore_setCore_same (n : Nat) (c : Core) (t : State) : getCore (setCore n c t) n = c := tgetD_tset_same _ _ _ _

theorem getCore_bumpBy (a k n : Nat) (t : State) : getCore (bumpBy a k t) n = getCore t n := rfl

/-- A core that goes on to the next address runs on. -/
theorem retire_running {x : Ex} {w : Nat} (hrun : x.c.state = .running) : (getCore (retire core w x) core.toNat).state = .running := by
  rw [retire, getCore_bumpBy, getCore_setCore_same]
  cases x.pc <;> exact hrun

end

/-- Settles O41: each instruction issues by its hypotheses, and what it answers then retires; DONE ends the run of a core that runs on. -/
theorem memoryAndControlInstructionsComplete : Obligations.MemoryAndControlInstructionsComplete := by
  intro core s
  refine ⟨?_, ?_, ?_, ?_, ?_, ?_, ?_, ?_, ?_, ?_, ?_, ?_, ?_, ?_, ?_, ?_, ?_, ?_, ?_, ?_, ?_, ?_, ?_, ?_, ?_⟩
  case refine_1 =>
    rintro d sz signed m e c t h rfl rfl hm hl
    refine exec_issued (exec_ld core s _ _ _ _) h ?_
    simp only [Bool.false_and, Bool.false_eq_true, if_false, hm, hl]
    rfl
  case refine_2 =>
    rintro m d sz e c t h rfl rfl hm hl
    refine exec_issued (exec_st core s _ _ _) h ?_
    simp only [Bool.false_and, Bool.false_eq_true, if_false, hm, hl]
    rfl
  case refine_3 =>
    rintro d m e c t h rfl rfl hdual hm hl
    refine exec_issued (exec_ld64 core s _ _) h ?_
    simp only [Bool.true_and, hdual, Bool.false_eq_true, if_false, hm, hl]
    rfl
  case refine_4 =>
    rintro m d e c t h rfl rfl hdual hm hl
    refine exec_issued (exec_st64 core s _ _) h ?_
    simp only [Bool.true_and, hdual, Bool.false_eq_true, if_false, hm, hl]
    rfl
  case refine_5 =>
    rintro d m k e c t h rfl rfl hm hl
    refine exec_issued (exec_ldc core s _ _ _) h ?_
    simp only [hm, hl]
    rfl
  case refine_6 =>
    rintro m d k e c t h rfl rfl hm hl
    refine exec_issued (exec_stc core s _ _ _) h ?_
    simp only [hm, hl]
    rfl
  case refine_7 => exact fun r imm h => ⟨_, rfl, _, rfl, exec_issued (exec_movi core s _ _) h rfl⟩
  case refine_8 => exact fun i step h => ⟨_, rfl, _, rfl, exec_issued (exec_modi core s _ _) h rfl⟩
  case refine_9 => exact fun dst src h => ⟨_, rfl, _, rfl, exec_issued (exec_mov core s _ _) h rfl⟩
  case refine_10 => exact fun target h => ⟨_, rfl, _, rfl, exec_issued (exec_b core s _) h rfl⟩
  case refine_11 =>
    rintro cond target c t h rfl rfl hcond
    exact exec_issued (exec_bcc core s _ _) h (if_pos hcond)
  case refine_12 =>
    rintro cond target c t h rfl rfl hcond
    exact exec_issued (exec_bcc core s _ _) h (if_neg (by simp [hcond]))
  case refine_13 =>
    rintro target c t h rfl rfl hroom
    exact exec_issued (exec_call core s _) h (if_neg (Nat.not_le.2 hroom))
  case refine_14 =>
    rintro a l c t h rfl rfl hstack
    refine exec_issued (exec_ret core s) h ?_
    simp only [hstack]
  case refine_15 =>
    rintro count last n c t h rfl rfl rfl hn hroom
    exact exec_issued (exec_loop core s _ _) h (openLoop_opened hn hroom)
  case refine_16 =>
    rintro d last c t h rfl rfl hzero
    exact exec_issued (exec_loop core s _ _) h (if_pos hzero)
  case refine_17 =>
    rintro count n c t h rfl rfl rfl hn hroom
    exact exec_issued (exec_rep core s _) h (openLoop_opened hn hroom)
  case refine_18 =>
    rintro op c t h rfl rfl hroom hlen hlocal hscratch
    rw [exec_dmaq, execDmaq, if_neg (queueFull_room hroom)]
    refine congrArg Host.Outcome.next (runInstr_issues h ?_)
    cases hk : kernOf (stateAt core [] s) (coreAt core [] s) with
    | none => 
      simp only [if_neg (Nat.not_lt.2 hlen), hlocal, Bool.true_eq_false, if_false]
      rfl
    | some k =>
      have hin : op.offset.toNat + op.bytes.toNat ≤ k.scratchKib * 1024 := by simpa [hk] using hscratch
      simp only [if_neg (Nat.not_lt.2 hlen), hlocal, decide_eq_true hin, Bool.true_eq_false, if_false]
      rfl
  case refine_19 =>
    rintro i a len k v c t h rfl rfl hroom hlen hlocal hk hv hkind
    rw [exec_outq, execOutq, if_neg (queueFull_room hroom)]
    refine congrArg Host.Outcome.next (runInstr_issues h ?_)
    simp only [hk, hv, if_neg (Nat.not_lt.2 hlen), hlocal, decide_eq_true hkind, Bool.true_eq_false, if_false]
    rfl
  case refine_20 =>
    rintro n c t h rfl rfl hroom
    have hgo : ¬ ((getCore s core.toNat).state = .running ∧ n.toNat < (getCore s core.toNat).queue.length) := fun hq => Nat.not_lt.2 hroom hq.2
    rw [exec_waitd, execWaitd, if_neg hgo]
    exact congrArg Host.Outcome.next (runInstr_issues h rfl)
  case refine_21 =>
    intro q l hq
    simp only [exec_dmaTransferDone, execDmaTransferDone, hq]
  case refine_22 =>
    rintro d c t h rfl rfl hccr
    refine exec_issued (exec_mvccr core s _) h (if_neg ?_)
    rintro ⟨hu, hv⟩
    rcases hccr with hccr | hccr
    · rw [hccr] at hu; cases hu
    · exact hv hccr
  case refine_23 => exact fun h => ⟨_, rfl, _, rfl, exec_issued (exec_nop core s) h rfl⟩
  case refine_24 =>
    intro h
    have ht := runInstr_issues (f := fun c t => .ok ⟨c, t, 4, none⟩) h rfl
    obtain ⟨hrun, -⟩ := h
    rw [exec_done, execDone, ht, if_pos ⟨hrun, retire_running hrun⟩]
  case refine_25 =>
    intro k hrun hk
    simp only [exec_budgetFault, execBudgetFault, hk, if_neg (not_not_intro hrun)]

end Sys2Proof.Machine

/-!
The kernel commands and the kernels' events (13.10 to 13.13 of 13_sorrel_cores.md, R367 to R369, R371, R374, Table 13.17).
-/

namespace Sys2Proof.Machine

section
variable (h : Hdr) (s : State)

theorem exec_kernelLoad (p : KernelLoadP) : exec (.kernelLoad h p) s = execKernelLoad h p s := rfl
theorem exec_kernelBindAdd (p : KernelBindP) : exec (.kernelBindAdd h p) s = execKernelBindAdd h p s := rfl
theorem exec_kernelBindRemove (p : KernelBindP) : exec (.kernelBindRemove h p) s = execKernelBindRemove h p s := rfl
theorem exec_kernelStart (p : KernelStartP) : exec (.kernelStart h p) s = execKernelStart h p s := rfl
theorem exec_kernelStop (p : KernelP) : exec (.kernelStop h p) s = execKernelStop h p s := rfl
theorem exec_kernelUnload (p : KernelP) : exec (.kernelUnload h p) s = execKernelUnload h p s := rfl
theorem exec_kernelLoaded (kernel : BitVec 5) (bytes : Bytes) (sig : BelethSig) :
    exec (.kernelLoaded kernel bytes sig) s = execKernelLoaded kernel bytes sig s := rfl
theorem exec_kernelStopped (kernel : BitVec 5) : exec (.kernelStopped kernel) s = execKernelStopped kernel s := rfl
theorem exec_kernelInputMessage (m : KernelMsg) : exec (.kernelInputMessage m) s = execKernelInputMessage m s := rfl

end

/-- A kernel that is LOADED or FAULTED is not busy. -/
theorem loaded_or_faulted {x : Kern} (h : x.state = .loaded ∨ x.state = .faulted) : ¬ (x.state ≠ .loaded ∧ x.state ≠ .faulted) := by
  rintro ⟨h1, h2⟩
  exact h.elim h1 h2

/-- The channels of a binding's streams, added up one stream at a time. -/
def addChans (s : State) (n : Nat) (w : U32) : Nat :=
  match tget s.ing.streams w.toNat with
  | some st => n + st.maxChannels
  | none => n

/-- Settles O43: each command is admitted by its own checks, and its body then runs on the counted state, whose kernels are those of the
state. -/
theorem kernelCommandsComplete : Obligations.KernelCommandsComplete := by
  intro h s u
  refine ⟨?_, ?_, ?_, ?_, ?_, ?_⟩
  case refine_1 =>
    intro p k a hrsv hsource hmin hmax hmin2 hmax2 hfree
    refine ⟨_, rfl, exec_admitted (exec_kernelLoad _ _ _) rfl a ?_ ?_ rfl⟩
    · rcases hsource with ⟨hsrc, hring⟩ | ⟨hsrc, hidx⟩
      · simp [hrsv, hsrc, hmin, hmax, hmin2, hmax2, hring]
      · simp [hrsv, hsrc, hmin, hmax, hmin2, hmax2, hidx]
    · have hfree' : tfreeFrom (countCmd h s).sor.kernels 32 0 = some k := hfree
      simp only [hfree']
      rfl
  case refine_2 =>
    intro p x ts w a hrange hnames hx hst hslots htasks
    refine ⟨_, rfl, _, rfl, exec_admitted (exec_kernelBindAdd _ _ _) rfl a (by simp [hrange, hnames]) ?_ rfl⟩
    have hfold : (fun (n : Nat) (w : U32) => (tget s.ing.streams w.toNat).elim n (fun st => n + st.maxChannels)) = addChans s := by
      funext n w
      unfold addChans
      cases tget s.ing.streams w.toNat <;> rfl
    rw [hfold] at hslots
    have hroom : ¬ (p.kind = 2 ∧ p.slotBytes.toNat < 16 + 8 * p.handles.foldl (addChans s) 0) := fun hk =>
      absurd (hslots hk.1) (Nat.not_le.2 hk.2)
    simp only [getKern_countCmd, hx, if_neg (loaded_or_faulted hst), htasks]
    exact if_neg hroom
  case refine_3 =>
    intro p x v a hrsv hk hb hx hname hv hst
    refine exec_admitted (exec_kernelBindRemove _ _ _) rfl a (by simp [hrsv, hk, hb, hx, hname, hv]) ?_ rfl
    simp only [getKern_countCmd, hx, if_neg (loaded_or_faulted hst), hv]
    rfl
  case refine_4 =>
    intro p x a hrsv hname hx hflags hst
    refine ⟨_, rfl, _, rfl, _, rfl, exec_admitted (exec_kernelStart _ _ _) rfl a (by simp [hrsv, hname, hflags]) ?_ rfl⟩
    simp only [getKern_countCmd, hx, if_neg (not_not_intro hst)]
    rfl
  case refine_5 =>
    intro p x a hrsv hname hx hst hlong
    have hgo : ¬ ((x.state ≠ .running ∧ x.state ≠ .faulted) ∨ x.long ≠ none) := by
      rintro (⟨h1, h2⟩ | h1)
      · exact hst.elim h1 h2
      · exact h1 hlong
    refine ⟨_, rfl, _, rfl, exec_admitted (exec_kernelStop _ _ _) rfl a (by simp [hrsv, hname]) ?_ rfl⟩
    simp only [getKern_countCmd, hx, if_neg hgo]
    rfl
  case refine_6 =>
    intro p x a hrsv hname hx hst hruns
    have hgo : ¬ ((x.state ≠ .loaded ∧ x.state ≠ .faulted) ∨ kernRuns (countCmd h s) x = true) := by
      simp only [kernRuns_countCmd, hruns, Bool.false_eq_true, or_false]
      exact loaded_or_faulted hst
    refine ⟨_, rfl, _, rfl, exec_admitted (exec_kernelUnload _ _ _) rfl a (by simp [hrsv, hname]) ?_ rfl⟩
    simp only [getKern_countCmd, hx, if_neg hgo]
    rfl

section
variable {s : State} {k : BitVec 5} {i : BelethIn} {x : Kern}

/-! ### A kernel's load (R367 to R369) -/

/-- The state in which an image is checked: its image ring has been unbound. -/
def imageTaken (x : Kern) (s : State) : State := if x.loadSrc = 0 then unbindRing x.part x.loadIdx.toNat .image s else s

/-- The image of a load. -/
def loadImage (s : State) (x : Kern) (i : BelethIn) : Beleth := readBeleth { i with bytes := loadBytesOf s x i }

/-- A load that fails, with its status and cause. -/
def loadFailed (k : Nat) (x : Kern) (b : Beleth) (st : Sts) (cause : Nat) (v : State) : State :=
  completeOpt x.long st [BitVec.ofNat 8 k, BitVec.ofNat 8 cause, 0, 0]
    (raise 0x0D02 2 ([BitVec.ofNat 8 x.part.val, BitVec.ofNat 8 cause] ++ leBytes 8 b.imageId.toNat) (some x.part)
      (bump 0x0D000108 { v with sor := { v.sor with kernels := tdel v.sor.kernels k } }))

/-- A load that ends, of a kernel with what it reserves. -/
def loadDone (k : Nat) (x y : Kern) (b : Beleth) (v : State) : State :=
  completeOpt x.long .ok [BitVec.ofNat 8 k, 0xFF, 0, 0]
    (raise 0x0D01 1 ([BitVec.ofNat 8 k] ++ leBytes 8 b.imageId.toNat ++ leBytes 4 b.imageVersion.toNat ++ [BitVec.ofNat 8 y.cores.length])
      (some x.part) (bump 0x0D000100 (y.cores.foldl (fun t n => setCore n (loadCore k b (getCore t n)) t) (setKern k y v))))

/-- The bytes of a load are there: it is from flash, or its ring has given them to a partition that the host reads. -/
abbrev LoadHeld (s : State) (x : Kern) (i : BelethIn) : Prop := x.loadSrc = 0 → x.loadBytes ≤ i.bytes.length ∧ hostReads s x.part = true

theorem loadHeld_goes (hload : x.state = .loading) (hheld : LoadHeld s x i) :
    ¬ (x.state ≠ .loading ∨ (x.loadSrc = 0 ∧ (i.bytes.length < x.loadBytes ∨ hostReads s x.part = false))) := by
  rintro (h1 | ⟨hsrc, h1 | h1⟩)
  · exact h1 hload
  · exact absurd h1 (Nat.not_lt.2 (hheld hsrc).1)
  · rw [(hheld hsrc).2] at h1
    cases h1

section
variable (hx : getKern s k.toNat = some x) (hload : x.state = .loading) (hheld : LoadHeld s x i)
include hx hload hheld

/-- An image that a check rejects. -/
theorem exec_kernelLoaded_rejected {st : Sts} {cause : Nat}
    (hcheck : imageCheck (imageTaken x s) (loadBytesOf s x i).length x.loadCores (loadImage s x i) = some (st, cause)) :
    exec (.kernelLoaded k i.bytes ⟨i.keyDigest, i.signatureOk, i.bodyOk⟩) s =
      .next (loadFailed k.toNat x (loadImage s x i) st cause (imageTaken x s)) := by
  unfold imageTaken loadImage at hcheck
  simp only [exec_kernelLoaded, execKernelLoaded, hx, if_neg (loadHeld_goes hload hheld), hcheck]
  rfl

/-- An image for which nothing is free. -/
theorem exec_kernelLoaded_noResource (hcheck : imageCheck (imageTaken x s) (loadBytesOf s x i).length x.loadCores (loadImage s x i) = none)
    (hres : reserveKern (imageTaken x s) k.toNat x (loadImage s x i) = none) :
    exec (.kernelLoaded k i.bytes ⟨i.keyDigest, i.signatureOk, i.bodyOk⟩) s =
      .next (loadFailed k.toNat x (loadImage s x i) .noResource 5 (imageTaken x s)) := by
  unfold imageTaken loadImage at hcheck hres
  simp only [exec_kernelLoaded, execKernelLoaded, hx, if_neg (loadHeld_goes hload hheld), hcheck, hres, Option.isNone_none, if_true]
  rfl

/-- An image that is taken. -/
theorem exec_kernelLoaded_taken {y : Kern}
    (hcheck : imageCheck (imageTaken x s) (loadBytesOf s x i).length x.loadCores (loadImage s x i) = none)
    (hres : reserveKern (imageTaken x s) k.toNat x (loadImage s x i) = some y) :
    exec (.kernelLoaded k i.bytes ⟨i.keyDigest, i.signatureOk, i.bodyOk⟩) s =
      .next (loadDone k.toNat x y (loadImage s x i) (imageTaken x s)) := by
  unfold imageTaken loadImage at hcheck hres
  simp only [exec_kernelLoaded, execKernelLoaded, hx, if_neg (loadHeld_goes hload hheld), hcheck, hres, Option.isNone_some,
    Bool.false_eq_true, if_false]
  rfl

end

/-! ### A message that triggers a binding (R371) -/

/-- A message on the ring of a kernel's binding goes by its poison and its length. -/
theorem exec_kernelInputMessage_bound {m : KernelMsg} {r : Ring} {n b : Nat} {v : KBind} (hr : getRing s m.part m.ring.toNat = some r)
    (huse : r.use = .kernel n) (howned : r.owned ≠ []) (hreads : hostReads s m.part = true) (hx : getKern s n = some x)
    (hbind : tfind (fun _ b => decide (b.kind = 0 ∧ b.ring = m.ring.toNat)) x.binds = some (b, v)) :
    exec (.kernelInputMessage m) s = .next (
      if m.poison ≠ 0 then takeMessage m.part m.ring.toNat .poisoned r.owned (poisonDma m.part m.poison.toNat s)
      else if v.slotBytes < m.data.length then takeMessage m.part m.ring.toNat .badLength r.owned s
      else triggerBind n b m.data (messageBell r s) (some (13 + m.part.val)) (takeMessage m.part m.ring.toNat .ok r.owned s)) := by
  have hgo : ¬ (r.owned = [] ∨ hostReads s m.part = false) := by simp [howned, hreads]
  simp only [exec_kernelInputMessage, execKernelInputMessage, hr, huse, if_neg hgo, hx, hbind]

end

/-- Settles O44: an image goes by its checks and by what its kernel may reserve, and a message by its binding. -/
theorem kernelEventsComplete : Obligations.KernelEventsComplete := by
  intro s
  refine ⟨?_, ?_, ?_, ?_, ?_, ?_, ?_⟩
  case refine_1 =>
    rintro k i x y b v hx hload hheld rfl rfl hcheck hres
    exact exec_kernelLoaded_taken hx hload hheld hcheck hres
  case refine_2 =>
    rintro k i x b st cause v hx hload hheld rfl rfl hcheck
    exact exec_kernelLoaded_rejected hx hload hheld hcheck
  case refine_3 =>
    rintro k i x b v hx hload hheld rfl rfl hcheck hres
    exact exec_kernelLoaded_noResource hx hload hheld hcheck hres
  case refine_4 =>
    intro k x hx hruns hst
    have hgo : ¬ (kernRuns s x = true ∨ x.state = .loading) := by simp [hruns, hst]
    simp only [exec_kernelStopped, execKernelStopped, hx, if_neg hgo]
  case refine_5 =>
    intro m r k b x v hr huse howned hreads hx hbind hpoison hlen
    rw [exec_kernelInputMessage_bound hr huse howned hreads hx hbind, if_neg (not_not_intro hpoison), if_neg (Nat.not_lt.2 hlen)]
  case refine_6 =>
    intro m r k b x v hr huse howned hreads hx hbind hpoison hlen
    rw [exec_kernelInputMessage_bound hr huse howned hreads hx hbind, if_neg (not_not_intro hpoison), if_pos hlen]
  case refine_7 =>
    intro m r k b x v hr huse howned hreads hx hbind hpoison
    rw [exec_kernelInputMessage_bound hr huse howned hreads hx hbind, if_pos hpoison]

end Sys2Proof.Machine

/-!
The scheduler's commands and instants (14.3 to 14.8 of 14_yarrow_scheduler.md, R384, R387, R393, R394, R397).
-/

namespace Sys2Proof.Machine

section
variable (s : State)

theorem exec_yarrowConfig (h : Hdr) (p : YarrowConfigP) : exec (.yarrowConfig h p) s = execYarrowConfig h p s := rfl
theorem exec_yarrowLoadBind (h : Hdr) (p : YarrowLoadBindP) : exec (.yarrowLoadBind h p) s = execYarrowLoadBind h p s := rfl
theorem exec_taskDispatch : exec .taskDispatch s = execTaskDispatch s := rfl
theorem exec_delayExpiry : exec .delayExpiry s = execDelayExpiry s := rfl
theorem exec_loadWindowEnd : exec .loadWindowEnd s = execLoadWindowEnd s := rfl
theorem exec_placementEvaluation (v : PlacementIn) : exec (.placementEvaluation v) s = execPlacementEvaluation v s := rfl

end

/-- Settles O45: each command is admitted by its own checks, and each instant is due by its hypothesis. -/
theorem schedulerCompletes : Obligations.SchedulerCompletes := by
  intro s
  refine ⟨?_, ?_, ?_, exec_taskDispatch s, exec_delayExpiry s, ?_, ?_⟩
  case refine_1 =>
    intro h p a hrsv hq hq2 hl hl2
    exact ⟨_, rfl, exec_admitted (exec_yarrowConfig _ _ _) rfl a (by simp [hrsv, hq, hq2, hl, hl2]) rfl rfl⟩
  case refine_2 =>
    intro h p a hrsv hdiv hdiv2 hring hfree hnone
    refine ⟨_, rfl, exec_admitted (exec_yarrowLoadBind _ _ _) rfl a (by simp [hrsv, hdiv, hdiv2, hfree]) ?_ rfl⟩
    simp only [countCmd_yar, hnone, if_neg hring]
  case refine_3 =>
    intro h p n a hrsv hdiv hdiv2 hring hsome
    refine ⟨_, rfl, exec_admitted (exec_yarrowLoadBind _ _ _) rfl a (by simp [hrsv, hdiv, hdiv2, hring]) ?_ rfl⟩
    simp only [countCmd_yar, hsome, if_pos hring]
  case refine_4 =>
    intro hdue
    rw [exec_loadWindowEnd, execLoadWindowEnd, if_neg (Nat.not_le.2 hdue)]
  case refine_5 =>
    intro v hdue
    rw [exec_placementEvaluation, execPlacementEvaluation, if_neg (Nat.not_lt.2 hdue)]

end Sys2Proof.Machine

/-!
The commands of group 0x0F (15.9 of 15_field_radio.md, R399, R401 to R417, Table 15.9).
-/

namespace Sys2Proof.Machine

section
variable (h : Hdr) (s : State)

theorem exec_cfXcvrProfile (p : CfProfileP) : exec (.cfXcvrProfile h p) s = execCfXcvrProfile h p s := rfl
theorem exec_cfConfig (p : CfConfigP) : exec (.cfConfig h p) s = execCfConfig h p s := rfl
theorem exec_cfChannelMap (p : CfChannelMapP) : exec (.cfChannelMap h p) s = execCfChannelMap h p s := rfl
theorem exec_cfNodeAdd (p : CfNodeAddP) : exec (.cfNodeAdd h p) s = execCfNodeAdd h p s := rfl
theorem exec_cfNodeRemove (p : CfNodeP) : exec (.cfNodeRemove h p) s = execCfNodeRemove h p s := rfl
theorem exec_cfNodeKey (p : CfNodeKeyP) : exec (.cfNodeKey h p) s = execCfNodeKey h p s := rfl
theorem exec_cfNodeStreamMap (p : CfNodeStreamP) : exec (.cfNodeStreamMap h p) s = execCfNodeStreamMap h p s := rfl
theorem exec_cfNodeStreamUnmap (p : CfNodeStreamP) : exec (.cfNodeStreamUnmap h p) s = execCfNodeStreamUnmap h p s := rfl
theorem exec_cfOutputBind (p : RingBindP) : exec (.cfOutputBind h p) s = execCfOutputBind h p s := rfl
theorem exec_cfSend (p : CfSendP) : exec (.cfSend h p) s = execCfSend h p s := rfl

end

/-- The timing of the nodes stands: there are none, or the slots are the same. -/
theorem timing_stands {a b : CfBlk} (h : a.nodes = [] ∨ timingSame a b = true) : ¬ (a.nodes ≠ [] ∧ timingSame a b = false) := by
  rintro ⟨h1, h2⟩
  rcases h with h | h
  · exact h1 h
  · rw [h] at h2
    cases h2

/-- The stream that CF-NODE-STREAM maps a node to (R415). -/
def nodeStream (p : CfNodeStreamP) (w : Node) (b : Nat) (s : State) : Stream :=
  { newStream ⟨4, p.node, 1, 0, 0⟩ 0 p.level.toNat p.n.toNat b p.rate.toNat false w.part (elNs s) with
    state := .active, descs := nodeDescs p.n.toNat }

/-- Settles O46: each command is admitted by its own checks, and its body then runs on the counted state, whose radio block is that of the
state; a mapped node's stream finds its place in the directory where the stash has room. -/
theorem radioCommandsComplete : Obligations.RadioCommandsComplete := by
  intro h s u
  refine ⟨?_, ?_, ?_, ?_, ?_, ?_, ?_, ?_, ?_, ?_, ?_, ?_⟩
  case refine_1 =>
    intro p a hok hoff htiming
    exact exec_admitted (exec_cfXcvrProfile _ _ _) rfl a hok ((if_neg (not_not_intro hoff)).trans (if_neg (timing_stands htiming))) rfl
  case refine_2 =>
    rintro p c a hen hmic hsf hsf2 hpoll hpoll2 hresp hresp2 hdwell hdwell2 hwin hwin2 hwarn hwarn2 hsizes rfl htiming
    refine exec_admitted (exec_cfConfig _ _ _) rfl a ?_ ?_ rfl
    · simp [hen, hmic, hsf, hsf2, hpoll, hpoll2, hresp, hresp2, hdwell, hdwell2, hwin, hwin2, hwarn, hwarn2, hsizes]
    · exact if_neg (timing_stands htiming)
  case refine_3 =>
    intro p a hmask hgcd hseed hrsv hsw
    exact exec_admitted (exec_cfChannelMap _ _ _) rfl a (by simpa [hseed, hrsv] using And.intro hmask (And.intro hgcd hsw)) rfl rfl
  case refine_4 =>
    intro p q ph sl a hnode hmic hrsv hdiv hdiv2 hsup hsup2 hsup3 hpoll hresp hold hq hplace
    refine ⟨_, rfl, _, rfl, _, rfl, exec_admitted (exec_cfNodeAdd _ _ _) rfl a ?_ ?_ rfl⟩
    · cases hv : getNode s p.node.toNat with
      | none => simp [hnode, hmic, hrsv, hdiv, hdiv2, hsup, hsup2, hsup3, hpoll, hresp, hv]
      | some v =>
        rw [hv] at hold
        have hold' : v.state = .closed ∧ mayName s h.part v.part = true := by simpa using hold
        simp [hnode, hmic, hrsv, hdiv, hdiv2, hsup, hsup2, hsup3, hpoll, hresp, hv, hold']
    · simp only [hq] at hplace
      simp only [countCmd_cf, hq, Option.bind_some, hplace, getNode_countCmd, elNs_countCmd]
      rfl
  case refine_5 =>
    intro p v a hrsv hname hv hfree
    refine exec_admitted (exec_cfNodeRemove _ _ _) rfl a (by simp [hrsv, hname]) ?_ rfl
    simp only [getNode_countCmd, hv, nodeStreamFree_countCmd, hfree, Bool.true_eq_false, if_false]
    rfl
  case refine_6 =>
    intro p v a hrsv hnode hname hv hctr hsw
    refine exec_admitted (exec_cfNodeKey _ _ _) rfl a ?_ (if_neg hnode) rfl
    have hnode' : ¬ p.node = 65535#16 := hnode
    simpa [hrsv, hnode', hname, hv, hctr] using hsw
  case refine_7 =>
    intro p a hrsv hnode hctrl hsw
    have hctrl' : isCtrl s h.part = true := decide_eq_true hctrl
    refine exec_admitted (exec_cfNodeKey _ _ _) rfl a ?_ ?_ rfl
    · simp only [if_pos hnode, hrsv, decide_true, isCtrl_countCmd, hctrl', Bool.not_true, Bool.false_or, Bool.true_and, countCmd_cf]
      exact decide_eq_true hsw
    · simp only [if_pos hnode, isCtrl_countCmd, hctrl', Bool.true_eq_false, if_false]
      rfl
  case refine_8 =>
    intro p w b n a hok hname hw hnone hadd hb hn hroom
    obtain ⟨x, hx⟩ := enterDir_of_room n (nodeStream p w b s) (s := countCmd h s) hroom
    refine ⟨_, rfl, x, hx, exec_admitted (exec_cfNodeStreamMap _ _ _) rfl a (by simp [hok, hname]) ?_ rfl⟩
    unfold nodeStream at hx
    simp only [getNode_countCmd, hw, hnone, Option.isSome_none, Bool.false_eq_true, if_false, addRefusal_countCmd, hadd, allocChans_countCmd, hb,
      countCmd_ing, hn, elNs_countCmd, hx]
  case refine_9 =>
    intro p v n a hrsv hname hv hn hfree
    refine exec_admitted (exec_cfNodeStreamUnmap _ _ _) rfl a (by simp [hrsv, hname, hv, hn]) ?_ rfl
    simp only [getNode_countCmd, hv, nodeStreamFree_countCmd, hfree, hn, Bool.true_eq_false, if_false]
    rfl
  case refine_10 =>
    intro p a hrsv hring hfree hnone
    refine exec_admitted (exec_cfOutputBind _ _ _) rfl a (by simp [hrsv, hfree]) ?_ rfl
    simp only [countCmd_cf, hnone, if_neg hring]
    rfl
  case refine_11 =>
    intro p n a hrsv hring hsome
    refine exec_admitted (exec_cfOutputBind _ _ _) rfl a (by simp [hrsv, hring]) ?_ rfl
    simp only [countCmd_cf, hsome, if_pos hring]
    rfl
  case refine_12 =>
    intro p v a htype htype2 hname hv hlen hroom
    refine exec_admitted (exec_cfSend _ _ _) rfl a (by simpa [hname] using And.intro htype htype2) ?_ rfl
    simp only [getNode_countCmd, hv, countCmd_cf, if_neg (Nat.not_lt.2 hlen), if_neg (Nat.not_le.2 hroom)]
    rfl

end Sys2Proof.Machine

/-!
The radio's events (15.1 to 15.6 of 15_field_radio.md, R399 to R410, R415, Tables 15.2 and 15.4).
-/

namespace Sys2Proof.Machine

section
variable (s : State)

theorem exec_cfResetWaitEnd (status : U8) : exec (.cfResetWaitEnd status) s = execCfResetWaitEnd status s := rfl
theorem exec_cfIrqTimeout : exec .cfIrqTimeout s = execCfIrqTimeout s := rfl
theorem exec_cfStartupRetry : exec .cfStartupRetry s = execCfStartupRetry s := rfl
theorem exec_superframePlanning : exec .superframePlanning s = execSuperframePlanning s := rfl
theorem exec_beaconStatusCheck (status : U8) : exec (.beaconStatusCheck status) s = execBeaconStatusCheck status s := rfl
theorem exec_superframeStart : exec .superframeStart s = execSuperframeStart s := rfl
theorem exec_slotPoll (node : U16) : exec (.slotPoll node) s = execSlotPoll node s := rfl
theorem exec_slotEnd (node : U16) : exec (.slotEnd node) s = execSlotEnd node s := rfl
theorem exec_nodeSupervisionTimeout (node : U16) : exec (.nodeSupervisionTimeout node) s = execNodeSupervisionTimeout node s := rfl
theorem exec_cfIrq (k : IrqKind) : exec (.cfIrq k) s = execCfIrq k s := rfl
theorem exec_beaconTxTimeout : exec .beaconTxTimeout s = execBeaconTxTimeout s := rfl
theorem exec_responseRx (r : CfResponse) : exec (.responseRx r) s = execResponseRx r s := rfl

end

section
variable {s : State}

/-! ### Superframes (R404, R405) -/

/-- The map that superframe n hops by: the new one from the superframe it is set for. -/
def hopMapAt (n : Nat) (c : CfBlk) : HopMap := c.mapNext.elim c.map (fun e => if e.2.2 ≤ n then e.1 else c.map)

/-- The plan of a superframe that is due: its slots, so far as its channel's dwell leaves room (R404). -/
theorem exec_superframePlanning_due {n st ch : Nat} {p : CfProfileP} (hn : nextSf s = (n, st)) (hp : s.cf.profile = some p)
    (hch : (hopMapAt n s.cf).chanOf (n % 2 ^ 32) = some ch) (hrun : s.cf.state = .running) (hdue : st ≤ elNs s + 1000000)
    (hnew : s.cf.planIdx ≠ some n) :
    let sl := ((scheduled s.cf (n % 2 ^ 32)).map (·.1)).mergeSort (· ≤ ·)
    let fit := fitSlots p s.cf (s.cf.dwellMs * 1000000 - dwellUsed s ch) sl.length
    let a := modCf (fun c => { c with planIdx := some n, planSilent := fit.isNone, slotsPlan := lget sl (fit.getD 0) (2 ^ 32) }) s
    let b := bumpBy 0x0F000120 (sl.length - fit.getD 0) (bumpIf fit.isNone 0x0F000118 (modCf (modChan ch (fun x =>
      { x with dwellLimited := sat1 x.dwellLimited })) a))
    exec .superframePlanning s = .next (if fit = some sl.length then a
      else if s.cf.lastDwellEl.elim true (fun e => decide (e + 1000000000 ≤ elNs s)) then
        raise 0x0F09 1 (BitVec.ofNat 8 ch :: leBytes 2 (sl.length - fit.getD 0) ++ [if fit.isNone then 1 else 0]) none (modCf (fun c =>
          { c with lastDwellEl := some (elNs s) }) b)
      else b) := by
  have hgo : ¬ (s.cf.state ≠ .running ∨ elNs s + 1000000 < st ∨ s.cf.planIdx = some n) := by
    rintro (h | h | h)
    · exact h hrun
    · omega
    · exact hnew h
  rw [hopMapAt] at hch
  cases hm : s.cf.mapNext with
  | none =>
    rw [hm] at hch
    simp only [Option.elim_none] at hch
    simp only [exec_superframePlanning, execSuperframePlanning, hn, hm, hp, hch, if_neg hgo]
  | some e =>
    rw [hm] at hch
    simp only [Option.elim_some] at hch
    simp only [exec_superframePlanning, execSuperframePlanning, hn, hm, hp, hch, if_neg hgo]

/-! ### Responses (R409, R410) -/

/-- A response of a node that is not CLOSED, of a length in range, goes by its authentication. -/
theorem exec_responseRx_node {r : CfResponse} {v : Node} (hrun : s.cf.state = .running) (hlen : 9 ≤ r.len.toNat) (hlen2 : r.len.toNat ≤ 2047)
    (hv : getNode s r.addr.toNat = some v) (hopen : v.state ≠ .closed) :
    exec (.responseRx r) s = .next (if responseOk v r then validResponse r.addr.toNat v r s
      else bump 0x0F000140 (modNode r.addr.toNat (fun x => { x with micFail := sat1 x.micFail }) s)) := by
  have hgo : ¬ (r.len.toNat < 9 ∨ 2047 < r.len.toNat) := by omega
  simp only [exec_responseRx, execResponseRx, if_neg (not_not_intro hrun), if_neg hgo, hv, if_neg hopen]

end

/-- Settles O47: each row is due by its hypotheses, and what it then does is its effect; a plan goes by the room of its channel's dwell, and a
response by its authentication. -/
theorem radioEventsComplete : Obligations.RadioEventsComplete := by
  intro s
  refine ⟨?_, ?_, ?_, ?_, ?_, ?_, ?_, ?_, ?_, ?_, ?_, ?_, ?_, ?_, ?_, ?_⟩
  case refine_1 =>
    intro status hst hfail hdue
    rw [exec_cfResetWaitEnd, execCfResetWaitEnd, if_pos ⟨hst, hfail, hdue⟩]
  case refine_2 =>
    intro hst hfail hdue
    rw [exec_cfIrqTimeout, execCfIrqTimeout, if_pos ⟨hst, hfail, hdue⟩]
  case refine_3 =>
    intro e hst hfail hdue
    simp only [exec_cfStartupRetry, execCfStartupRetry, hst, hfail]
    rw [if_pos hdue]
  case refine_4 =>
    rintro n st ch p m hn rfl hp hch hrun hdue hnew
    exact exec_superframePlanning_due hn hp hch hrun hdue hnew
  case refine_5 =>
    intro status n st hn hrun hdue hnew hplan
    have hgo : ¬ (s.cf.state ≠ .running ∨ elNs s + 500000 < st ∨ s.cf.checkIdx = some n ∨ (s.cf.planIdx = some n ∧ s.cf.planSilent = true)) := by
      rintro (h | h | h | ⟨h, h2⟩)
      · exact h hrun
      · omega
      · exact hnew h
      · rcases hplan with hplan | hplan
        · exact hplan h
        · rw [hplan] at h2
          cases h2
    simp only [exec_beaconStatusCheck, execBeaconStatusCheck, hn, if_neg hgo]
  case refine_6 =>
    rintro n st ch p a hn hon hdue hwrap rfl hch hp
    have hgo : ¬ (s.cf.state = .off ∨ elNs s < st) := by
      rintro (h | h)
      · exact hon h
      · omega
    have hlast : ¬ (0 < n ∧ n % 2 ^ 32 = 0 ∧ s.cf.eSwB = none) := by
      rintro ⟨h1, h2, h3⟩
      rcases hwrap with h | h | h
      · exact h h2
      · omega
      · exact h h3
    simp only [exec_superframeStart, execSuperframeStart, hn, if_neg hgo, if_neg hlast, hch, hp]
  case refine_7 =>
    intro node v p hv hp hrun hsf hloud hopen hphase hpolled hplan hstart hend
    simp only [exec_slotPoll, execSlotPoll, hv, hp]
    rw [if_pos ⟨hrun, hsf, hloud, hopen, hphase, hpolled, hplan, hstart, hend⟩]
  case refine_8 =>
    intro node v p hv hp hpolled hend
    have hgo : ¬ (v.polled = false ∨ elNs s < slotEnd p s.cf v.slot) := by simp [hpolled, hend]
    simp only [exec_slotEnd, execSlotEnd, hv, hp, if_neg hgo]
  case refine_9 =>
    intro node v hv hst hdue
    simp only [exec_nodeSupervisionTimeout, execNodeSupervisionTimeout, hv]
    rw [if_pos ⟨hst, hdue⟩]
  case refine_10 =>
    intro hon
    rw [exec_cfIrq, execCfIrq, if_neg hon]
  case refine_11 =>
    intro hon
    rw [exec_cfIrq, execCfIrq, if_neg hon]
  case refine_12 =>
    intro hon htx
    rw [exec_cfIrq, execCfIrq, if_neg hon]
    exact congrArg Host.Outcome.next (if_pos (Option.isSome_iff_ne_none.2 htx))
  case refine_13 =>
    intro e p htx hp hdue
    simp only [exec_beaconTxTimeout, execBeaconTxTimeout, htx, hp]
    rw [if_pos hdue]
  case refine_14 =>
    intro r hrun hlen
    rw [exec_responseRx, execResponseRx, if_neg (not_not_intro hrun), if_pos hlen]
  case refine_15 =>
    intro r v hrun hlen hlen2 hv hopen hok
    rw [exec_responseRx_node hrun hlen hlen2 hv hopen, if_pos hok]
  case refine_16 =>
    intro r v hrun hlen hlen2 hv hopen hbad
    rw [exec_responseRx_node hrun hlen hlen2 hv hopen, hbad, if_neg Bool.false_ne_true]

end Sys2Proof.Machine

/-!
The jobs of the Dill engine (16.2 to 16.5 of 16_compression.md, R419 to R422, R426).
-/

namespace Sys2Proof.Machine

section
variable (s : State)

theorem exec_dillConfig (h : Hdr) (p : DillConfigP) : exec (.dillConfig h p) s = execDillConfig h p s := rfl
theorem exec_dillJobOpen (h : Hdr) (p : DillOpenP) : exec (.dillJobOpen h p) s = execDillJobOpen h p s := rfl
theorem exec_dillJobClose (h : Hdr) (p : DillCloseP) : exec (.dillJobClose h p) s = execDillJobClose h p s := rfl
theorem exec_dillJobFreed (job : BitVec 6) : exec (.dillJobFreed job) s = execDillJobFreed job s := rfl
theorem exec_dillSegment (seg : DillSegmentP) : exec (.dillSegment seg) s = execDillSegment seg s := rfl
theorem exec_dillJobSwitch (decomp : Bool) : exec (.dillJobSwitch decomp) s = execDillJobSwitch decomp s := rfl

end

section
variable {s : State} {seg : DillSegmentP} {v : Job}

/-! ### Segments (R421, R422) -/

/-- A segment joins those that its job has still to take. -/
def segmentQueued (seg : DillSegmentP) (v : Job) (s : State) : State :=
  let g : Segment := { flush := seg.flags.getLsbD 0, final := seg.flags.getLsbD 1, tag := seg.tag, poisoned := decide (seg.poison ≠ 0),
                       data := seg.data }
  modJob seg.job.toNat (fun x => { x with pendingIn := x.pendingIn ++ [g] }) (poisonDma v.owner seg.poison.toNat s)

/-- The pipeline of the job takes the segment up: it is free, it runs the job, or it runs another one that may or may not go on. -/
def segmentPipe (j : Nat) (v : Job) (w : State) : State :=
  match pipeJob w v.decomp with
  | none => takeUp j w
  | some k =>
    if k = j then runJob j (2 * v.pendingIn.length + 4) w
    else if ((getJob w k).elim false Job.ready) then w
    else takeUp j (leaveJob v.decomp w)

/-- The chain of a segment stands in the input ring of a job that is not closing. -/
abbrev SegmentHeld (s : State) (v : Job) : Prop :=
  v.closeReq = false ∧ hostReads s v.owner = true ∧ v.pendingIn.length + (if v.emit.isSome then 1 else 0) < chainsIn s v.owner v.inRing

theorem segmentHeld_goes (h : SegmentHeld s v) : ¬ (v.closeReq = true ∨ hostReads s v.owner = false ∨
    chainsIn s v.owner v.inRing ≤ v.pendingIn.length + (if v.emit.isSome then 1 else 0)) := by
  obtain ⟨hopen, hreads, hchain⟩ := h
  simp only [hopen, hreads, Bool.false_eq_true, Bool.true_eq_false, false_or]
  exact Nat.not_le.2 hchain

/-- A segment of a job that has ended comes back. -/
theorem exec_dillSegment_ended (hv : getJob s seg.job.toNat = some v) (hheld : SegmentHeld s v) (hst : v.state = .done ∨ v.state = .failed) :
    exec (.dillSegment seg) s = .next (completeSegment v (if v.notSmaller then .notSmaller else .busy) s) := by
  simp only [exec_dillSegment, execDillSegment, hv, if_neg (segmentHeld_goes hheld)]
  exact congrArg Host.Outcome.next (if_pos hst)

/-- A segment of a job that goes on joins its queue, and its pipeline takes it up. -/
theorem exec_dillSegment_queued (hv : getJob s seg.job.toNat = some v) (hheld : SegmentHeld s v) (hst : v.state = .idle ∨ v.state = .running) :
    exec (.dillSegment seg) s = .next (segmentPipe seg.job.toNat v (segmentQueued seg v s)) := by
  have hgo : ¬ (v.state = .done ∨ v.state = .failed) := by rcases hst with h | h <;> simp [h]
  simp only [exec_dillSegment, execDillSegment, hv, if_neg (segmentHeld_goes hheld), if_neg hgo]
  rfl

end

/-- Settles O48: each command is admitted by its own checks, and a segment goes by the state of its job and by what its pipeline runs. -/
theorem dillCompletes : Obligations.DillCompletes := by
  intro s
  refine ⟨?_, ?_, ?_, ?_, ?_, ?_, ?_, ?_, ?_, ?_, ?_⟩
  case refine_1 =>
    intro h p a hmin hmax hrsv
    exact ⟨_, rfl, exec_admitted (exec_dillConfig _ _ _) rfl a (by simp [hmin, hmax, hrsv]) rfl rfl⟩
  case refine_2 =>
    rintro h p j v a hok hfree rfl
    refine ⟨_, rfl, exec_admitted (exec_dillJobOpen _ _ _) rfl a hok ?_ rfl⟩
    simp only [countCmd_dill, hfree, decide_eq_true_eq]
    rfl
  case refine_3 =>
    intro h p v a hmin hmax hrsv hv hname hclosing
    refine ⟨_, rfl, exec_admitted (exec_dillJobClose _ _ _) rfl a (by simp [hmin, hmax, hrsv, hv, hname]) ?_ rfl⟩
    simp only [getJob_countCmd, hv, hclosing, Option.isSome_none, Bool.false_eq_true, if_false]
    rfl
  case refine_4 =>
    intro job v hv hreq
    simp only [exec_dillJobFreed, execDillJobFreed, hv, hreq, if_true]
  case refine_5 =>
    intro seg v hv hopen hreads hchain hst
    exact exec_dillSegment_ended hv ⟨hopen, hreads, hchain⟩ hst
  case refine_6 =>
    rintro seg v w hv hopen hreads hchain hst rfl hpipe
    rw [exec_dillSegment_queued hv ⟨hopen, hreads, hchain⟩ hst, segmentPipe, segmentQueued, hpipe]
  case refine_7 =>
    rintro seg v w hv hopen hreads hchain hst rfl hpipe
    rw [exec_dillSegment_queued hv ⟨hopen, hreads, hchain⟩ hst, segmentPipe, segmentQueued, hpipe]
    exact congrArg Host.Outcome.next (if_pos rfl)
  case refine_8 =>
    rintro seg v w k hv hopen hreads hchain hst rfl hpipe hother hready
    rw [exec_dillSegment_queued hv ⟨hopen, hreads, hchain⟩ hst, segmentPipe, segmentQueued, hpipe]
    exact congrArg Host.Outcome.next ((if_neg hother).trans (if_pos hready))
  case refine_9 =>
    rintro seg v w k hv hopen hreads hchain hst rfl hpipe hother hready
    rw [exec_dillSegment_queued hv ⟨hopen, hreads, hchain⟩ hst, segmentPipe, segmentQueued, hpipe]
    exact congrArg Host.Outcome.next ((if_neg hother).trans (if_neg (by rw [hready]; exact Bool.false_ne_true)))
  case refine_10 =>
    intro decomp j hnext hpipe
    simp only [exec_dillJobSwitch, execDillJobSwitch, hnext, hpipe]
  case refine_11 =>
    intro decomp j hnext
    simp only [exec_dillJobSwitch, execDillJobSwitch, hnext]

end Sys2Proof.Machine

/-!
The commands of group 0x11 (17.10 of 17_recorder_persistence.md, R439, R445, R449, R450, R452, Table 17.11).
-/

namespace Sys2Proof.Machine

section
variable (h : Hdr) (s : State)

theorem exec_poppyCursorAbsolute (p : PoppyCursorP) : exec (.poppyCursorAbsolute h p) s = execPoppyCursorAbsolute h p s := rfl
theorem exec_poppyCursorRelative (p : PoppyCursorP) : exec (.poppyCursorRelative h p) s = execPoppyCursorRelative h p s := rfl
theorem exec_poppyCursorFirstKept (p : PoppyCursorP) : exec (.poppyCursorFirstKept h p) s = execPoppyCursorFirstKept h p s := rfl
theorem exec_poppyCursorOldestCirc (p : PoppyCursorP) : exec (.poppyCursorOldestCirc h p) s = execPoppyCursorOldestCirc h p s := rfl
theorem exec_poppyCursorLatest (p : PoppyCursorP) : exec (.poppyCursorLatest h p) s = execPoppyCursorLatest h p s := rfl
theorem exec_poppyRateSet (p : PoppyRateP) : exec (.poppyRateSet h p) s = execPoppyRateSet h p s := rfl
theorem exec_poppyRateRemove (p : PoppyRateP) : exec (.poppyRateRemove h p) s = execPoppyRateRemove h p s := rfl
theorem exec_otpWrite (p : OtpWriteP) : exec (.otpWrite h p) s = execOtpWrite h p s := rfl
theorem exec_flashImageWrite (p : FlashImageWriteP) : exec (.flashImageWrite h p) s = execFlashImageWrite h p s := rfl
theorem exec_flashConfig (p : FlashConfigP) : exec (.flashConfig h p) s = execFlashConfig h p s := rfl

end

/-! ### Rates (R433, R439) -/

theorem eventCode_ne_zero {c : U16} (hc : eventCode c = true) : c ≠ 0 := by
  rintro rfl
  cases hc

section
variable {h : Hdr} {s : State} {p : PoppyRateP} {k : Nat}

/-- A code's own rate, in slot k of the overrides. -/
def rateOverridden (p : PoppyRateP) (k : Nat) (s : State) : State :=
  setBucket p.code.toNat (rebase s p.burst.toNat (bucketNow s p.code.toNat))
    { s with pop := { s.pop with overrides := tset s.pop.overrides k ⟨p.code, p.rate.toNat, p.burst.toNat⟩ } }

/-- The slot that a code's own rate takes: the one it has, or the lowest free one (log entry 15). -/
abbrev RateSlot (s : State) (c : U16) (k : Nat) : Prop :=
  (∃ o, tfind (fun _ o => decide (o.code = c)) s.pop.overrides = some (k, o)) ∨
  (tfind (fun _ o => decide (o.code = c)) s.pop.overrides = none ∧ tfreeFrom s.pop.overrides 64 0 = some k)

theorem exec_poppyRateSet_code (a : Admitted (cmd 0x1102 .control false 8) h s) (hrsv : p.rsv = 0) (hrate : 1 ≤ p.rate.toNat)
    (hrate2 : p.rate.toNat ≤ 1000) (hburst : 1 ≤ p.burst.toNat) (hburst2 : p.burst.toNat ≤ 1000) (hcode : eventCode p.code = true)
    (hslot : RateSlot s p.code k) :
    exec (.poppyRateSet h p) s = .next (answer h 0x1102 (done (rateOverridden p k (countCmd h s)))) := by
  refine exec_admitted (exec_poppyRateSet _ _ _) rfl a (by simp [hrsv, hrate, hrate2, hburst, hburst2, hcode]) ?_ rfl
  rcases hslot with ⟨o, ho⟩ | ⟨hnone, hfree⟩
  · simp only [if_neg (eventCode_ne_zero hcode), countCmd_pop, ho]
    rfl
  · simp only [if_neg (eventCode_ne_zero hcode), countCmd_pop, hnone, hfree]
    rfl

end

/-- Settles O49: each command is admitted by its own checks, and its body then runs on the counted state, whose recorder block is that of the
state; a window of fewer than 64 records begins at a free value (log entry 48), and a code's rate takes its slot or the lowest free one (log
entry 15). -/
theorem recorderCommandsComplete : Obligations.RecorderCommandsComplete := by
  intro h s u
  refine ⟨?_, ?_, ?_, ?_, ?_, ?_, ?_, ?_, ?_, ?_, ?_, ?_, ?_, ?_⟩
  case refine_1 => exact fun p a hrsv hmax => exec_admitted (exec_poppyCursorAbsolute _ _ _) rfl a (by simpa [hrsv] using hmax) rfl rfl
  case refine_2 =>
    intro p n a hrsv hn hmax
    refine exec_admitted (exec_poppyCursorRelative _ _ _) rfl a ?_ ?_ rfl
    · have hn2 : (0 : Int) ≤ n ∧ (n : Int) < 2 ^ 48 := by omega
      simpa only [countCmd_pop, hn, hrsv, true_and, decide_eq_true_eq] using hn2
    · simp only [countCmd_pop, hn, Int.toNat_natCast]
      rfl
  case refine_3 => exact fun p a hrsv hval => exec_admitted (exec_poppyCursorFirstKept _ _ _) rfl a (by simp [hrsv, hval]) rfl rfl
  case refine_4 => exact fun p a hrsv hval => exec_admitted (exec_poppyCursorOldestCirc _ _ _) rfl a (by simp [hrsv, hval]) rfl rfl
  case refine_5 =>
    exact fun p a hrsv hval hmin => exec_admitted (exec_poppyCursorLatest _ _ _) rfl a (by simp [hrsv, hval]) (if_pos hmin) rfl
  case refine_6 =>
    exact fun p a hrsv hval hfew =>
      ⟨_, rfl, exec_admitted (exec_poppyCursorLatest _ _ _) rfl a (by simp [hrsv, hval]) (if_neg (Nat.not_le.2 hfew)) rfl⟩
  case refine_7 =>
    intro p a hrsv hrate hrate2 hburst hburst2 hcode
    exact exec_admitted (exec_poppyRateSet _ _ _) rfl a (by simp [hrsv, hrate, hrate2, hburst, hburst2, hcode]) (if_pos hcode) rfl
  case refine_8 =>
    intro p k a hrsv hrate hrate2 hburst hburst2 hcode hnone hfree
    exact exec_poppyRateSet_code a hrsv hrate hrate2 hburst hburst2 hcode (.inr ⟨hnone, hfree⟩)
  case refine_9 =>
    intro p k o a hrsv hrate hrate2 hburst hburst2 hcode ho
    exact exec_poppyRateSet_code a hrsv hrate hrate2 hburst hburst2 hcode (.inl ⟨o, ho⟩)
  case refine_10 =>
    intro p a hrsv hrate hburst hcode
    exact exec_admitted (exec_poppyRateRemove _ _ _) rfl a (by simp [hrsv, hrate, hburst, hcode]) (if_pos hcode) rfl
  case refine_11 =>
    intro p a hrsv hrate hburst hcode hany
    exact exec_admitted (exec_poppyRateRemove _ _ _) rfl a (by simp [hrsv, hrate, hburst, hany]) (if_neg hcode) rfl
  case refine_12 =>
    intro p a hrsv hcontent hroom hidle
    refine ⟨_, rfl, exec_admitted (exec_otpWrite _ _ _) rfl a ?_ ?_ rfl⟩
    · rcases hcontent with ⟨hg, hc⟩ | ⟨hg, hc⟩ <;> simp [hrsv, hg, hc]
    · simp only [otpGroup_countCmd, if_neg (Nat.not_le.2 hroom), countCmd_pop, hidle, ne_eq, not_true_eq_false, if_false]
      rfl
  case refine_13 =>
    intro p a hrsv htarget hslot hring hbytes hfree hrun
    refine ⟨_, rfl, exec_admitted (exec_flashImageWrite _ _ _) rfl a ?_ ?_ rfl⟩
    · simp only [ringFree_countCmd, hfree, Bool.or_true, Bool.and_true, decide_eq_true_eq]
      exact ⟨hrsv, htarget, hslot, hring, hbytes⟩
    · simp only [writesRunning_countCmd, hrun, Bool.false_eq_true, if_false]
      rfl
  case refine_14 =>
    intro p a hrsv hend hend2 hwear hwear2
    exact exec_admitted (exec_flashConfig _ _ _) rfl a (by simp [hrsv, hend, hend2, hwear, hwear2]) rfl rfl

end Sys2Proof.Machine

/-!
The recorder's events (17.2 to 17.8 of 17_recorder_persistence.md, R433, R434, R443 to R450).
-/

namespace Sys2Proof.Machine

section
variable (s : State)

theorem exec_rateLimitRefill (code : U16) : exec (.rateLimitRefill code) s = execRateLimitRefill code s := rfl
theorem exec_flushPeriodic : exec .flushPeriodic s = execFlushPeriodic s := rfl
theorem exec_flushStart : exec .flushStart s = execFlushStart s := rfl
theorem exec_flushDone (ok : Bool) : exec (.flushDone ok) s = execFlushDone ok s := rfl
theorem exec_opTimeLogWrite : exec .opTimeLogWrite s = execOpTimeLogWrite s := rfl
theorem exec_otpWriteDone (ok : Bool) : exec (.otpWriteDone ok) s = execOtpWriteDone ok s := rfl
theorem exec_flashImageWritten (img : ImageIn) : exec (.flashImageWritten img) s = execFlashImageWritten img s := rfl

end

section
variable {s : State} {i : ImageIn} {w : ImageWrite} {rest : List ImageWrite}

/-! ### Image writes (R449, R450) -/

/-- The state in which a written image is checked: the write has left the list, and its ring is unbound. -/
def writeTaken (w : ImageWrite) (rest : List ImageWrite) (s : State) : State :=
  unbindRing w.part w.ring .image { s with pop := { s.pop with imgPending := rest } }

/-- The sectors of an image erased and its bytes written. -/
def imageStored (w : ImageWrite) (data : Bytes) (v : State) : State :=
  eraseSectors (imageSectors w.target.toNat w.slot).1 (imageSectors w.target.toNat w.slot).2
    { v with pop := { v.pop with images := tset v.pop.images (imgKey w.target.toNat w.slot) data } }

/-- The write ends with its entry in the directory. -/
def imageDone (w : ImageWrite) (e : ImgEnt) (x : State) : State :=
  completeOpt w.long .ok [] (raise 0x1109 1 (w.target :: BitVec.ofNat 8 w.slot :: leBytes 4 e.version.toNat) none
    (writeDir (putImage w.target.toNat w.slot e (currentDir x)) x))

/-- The image of a kernel that a write carries. -/
abbrev writeImage (i : ImageIn) (w : ImageWrite) : Beleth := readBeleth { i.img with bytes := i.img.bytes.take w.bytes }

section
variable (hw : s.pop.imgPending = w :: rest) (hlen : w.bytes ≤ i.img.bytes.length)
include hw hlen

/-- An image that fails its check is not written. -/
theorem exec_flashImageWritten_rejected (hheld : recovering s = true ∨ hostReads s w.part = true)
    (hbad : (if decide (w.target ≠ 2) then i.ok
      else (belethCheck (writeTaken w rest s) (i.img.bytes.take w.bytes).length (writeImage i w)).isNone) = false) :
    exec (.flashImageWritten i) s = .next (completeOpt w.long .badParam [] (writeTaken w rest s)) := by
  have hgo : ¬ (i.img.bytes.length < w.bytes ∨ (recovering s || hostReads s w.part) = false) := by
    rcases hheld with h | h <;> simp [h, hlen]
  rw [writeTaken] at hbad
  simp only [exec_flashImageWritten, execFlashImageWritten, hw, if_neg hgo, hbad, if_true]
  rfl

section
variable (hrec : recovering s = false) (hreads : hostReads s w.part = true)
include hrec hreads

/-- A firmware image that is good is written with its version and digest. -/
theorem exec_flashImageWritten_firmware (ht : w.target ≠ 2) (hok : i.ok = true) :
    exec (.flashImageWritten i) s = .next (imageDone w ⟨true, w.bytes, i.version, 0, i.sha⟩
      (imageStored w (i.img.bytes.take w.bytes) (writeTaken w rest s))) := by
  simp only [exec_flashImageWritten, execFlashImageWritten, hw, hreads, Bool.or_true, Bool.true_eq_false, or_false, if_neg (Nat.not_lt.2 hlen),
    decide_eq_true ht, hok, hrec, Bool.false_eq_true, if_true, if_false]
  rfl

/-- A kernel's image that is good is written with its version and identity. -/
theorem exec_flashImageWritten_kernel (ht : w.target = 2)
    (hok : belethCheck (writeTaken w rest s) (i.img.bytes.take w.bytes).length (writeImage i w) = none) :
    exec (.flashImageWritten i) s = .next (imageDone w ⟨true, w.bytes, (writeImage i w).imageVersion, (writeImage i w).imageId, 0⟩
      (imageStored w (i.img.bytes.take w.bytes) (writeTaken w rest s))) := by
  have ht' : decide (w.target ≠ 2) = false := decide_eq_false (not_not_intro ht)
  rw [writeTaken] at hok
  simp only [exec_flashImageWritten, execFlashImageWritten, hw, hreads, Bool.or_true, Bool.true_eq_false, or_false, if_neg (Nat.not_lt.2 hlen),
    ht', hok, hrec, Option.isNone_none, Bool.false_eq_true, if_false]
  rfl

end

end

end

/-- Settles O50: each row is due by its hypotheses, and what it then does is its effect; an image goes by its target and its check. -/
theorem recorderEventsComplete : Obligations.RecorderEventsComplete := by
  intro s
  refine ⟨?_, ?_, ?_, ?_, ?_, ?_, ?_, ?_, ?_, ?_, ?_, ?_⟩
  case refine_1 =>
    rintro code k rfl hlim hfull
    rw [exec_rateLimitRefill, execRateLimitRefill, leaveLimited, if_pos ⟨hlim, hfull⟩]
  case refine_2 =>
    intro hdue hbuf
    refine ⟨_, rfl, ?_⟩
    simp only [exec_flushPeriodic, execFlushPeriodic, if_neg (Nat.not_lt.2 hdue), if_neg hbuf]
  case refine_3 =>
    intro hdue hbuf
    simp only [exec_flushPeriodic, execFlushPeriodic, if_neg (Nat.not_lt.2 hdue), if_pos hbuf]
  case refine_4 =>
    intro hdue
    rw [exec_flushStart, execFlushStart, if_pos hdue]
    rfl
  case refine_5 =>
    intro hfl
    have hgo : ¬ s.pop.flushing = false := by simp [hfl]
    rw [exec_flushDone, execFlushDone, if_neg hgo, if_pos rfl]
    rfl
  case refine_6 =>
    rintro n hfl rfl
    have hgo : ¬ s.pop.flushing = false := by simp [hfl]
    refine ⟨_, rfl, ?_⟩
    rw [exec_flushDone, execFlushDone, if_neg hgo, if_neg Bool.false_ne_true]
  case refine_7 =>
    rintro v hdue rfl
    simp only [exec_opTimeLogWrite, execOpTimeLogWrite, if_neg (Nat.not_lt.2 hdue), decide_eq_true_eq]
  case refine_8 =>
    rintro g c id p l v hpend rfl rfl
    simp only [exec_otpWriteDone, execOtpWriteDone, hpend, Bool.true_eq_false, if_false]
  case refine_9 =>
    rintro i w rest v x hw hrec hreads hlen rfl rfl ht hok
    exact exec_flashImageWritten_firmware hw hlen hrec hreads ht hok
  case refine_10 =>
    rintro i w rest v x b hw hrec hreads hlen rfl rfl ht rfl hok
    exact exec_flashImageWritten_kernel hw hlen hrec hreads ht hok
  case refine_11 =>
    rintro i w rest v hw hheld hlen rfl ht hbad
    exact exec_flashImageWritten_rejected hw hlen hheld (by rw [if_pos (decide_eq_true ht)]; exact hbad)
  case refine_12 =>
    rintro i w rest v hw hheld hlen rfl ht hbad
    exact exec_flashImageWritten_rejected hw hlen hheld (by rw [if_neg (by simp [ht])]; exact hbad)

end Sys2Proof.Machine

/-!
The resets and the boot path (18.1 to 18.5 of 18_startup_reset.md, R437, R454 to R457, R463, R465, R467).
-/

namespace Sys2Proof.Machine

section
variable (s : State)

theorem exec_pornAssert : exec .pornAssert s = execPornAssert s := rfl
theorem exec_powerOnReset (b : BootIn) : exec (.powerOnReset b) s = execPowerOnReset b s := rfl
theorem exec_bootStageTimeout (stage : BitVec 3) : exec (.bootStageTimeout stage) s = execBootStageTimeout stage s := rfl
theorem exec_bootReady (stageMs : List U16) : exec (.bootReady stageMs) s = execBootReady stageMs s := rfl
theorem exec_systemReset (b : BootIn) : exec (.systemReset b) s = execSystemReset b s := rfl
theorem exec_watchdogExpiry (b : BootIn) : exec (.watchdogExpiry b) s = execWatchdogExpiry b s := rfl
theorem exec_firmwareHalt (b : BootIn) : exec (.firmwareHalt b) s = execFirmwareHalt b s := rfl
theorem exec_deviceReset (h : Hdr) (p : DeviceResetP) : exec (.deviceReset h p) s = execDeviceReset h p s := rfl
theorem exec_deviceResetExecute (b : BootIn) : exec (.deviceResetExecute b) s = execDeviceResetExecute b s := rfl

end

/-! ### What restoring the stored state leaves of the clock (R456) -/

section
variable {s : State}

/-- What each step of a fold leaves alone, the fold does. -/
theorem foldl_view {σ α γ : Type*} (view : σ → γ) {g : σ → α → σ} (hg : ∀ t x, view (g t x) = view t) (l : List α) (t : σ) :
    view (l.foldl g t) = view t := by
  induction l generalizing t with
  | nil => rfl
  | cons x l ih => rw [List.foldl_cons, ih, hg]

theorem foldl_clk {α : Type} {g : State → α → State} (hg : ∀ t x, (g t x).clk = t.clk) (l : List α) (s : State) : (l.foldl g s).clk = s.clk :=
  foldl_view (fun t : State => t.clk) hg l s

@[simp] theorem warn_clk (c : Bool) (cause : U8) : (warn c cause s).clk = s.clk := by
  unfold warn
  split <;> rfl

@[simp] theorem countErase_clk (k : Nat) : (countErase k s).clk = s.clk := by
  unfold countErase
  dsimp only
  split
  · rfl
  · split <;> rfl

@[simp] theorem checkWear_clk (r : Nat) : (checkWear r s).clk = s.clk := by
  unfold checkWear
  dsimp only
  split
  · rw [raise_clk]
  · rfl

@[simp] theorem eraseSectors_clk (r : Nat) (l : List Nat) : (eraseSectors r l s).clk = s.clk := by
  rw [eraseSectors, checkWear_clk, foldl_clk (fun _ _ => countErase_clk _)]

@[simp] theorem storeCirc_clk (r : Rec) : (storeCirc r s).clk = s.clk := by
  unfold storeCirc
  dsimp only
  split
  · split
    · rfl
    · split
      · rfl
      · exact eraseSectors_clk _ _
  · rfl

@[simp] theorem storeRec_clk (r : Rec) : (storeRec r s).clk = s.clk := by
  unfold storeRec
  dsimp only
  split
  · split
    · exact raise_clk _ _ _ _ _
    · rfl
  · exact storeCirc_clk _

@[simp] theorem findTorn_clk (b : BootIn) : (findTorn b s).clk = s.clk := by
  unfold findTorn
  dsimp only
  split
  · rfl
  · split <;> rfl

@[simp] theorem restoreRecords_clk : (restoreRecords s).clk = s.clk := by
  rw [restoreRecords, foldl_clk (fun _ _ => storeRec_clk _)]

@[simp] theorem outageEvent_clk (l : List GapEntry) : (outageEvent l s).clk = s.clk := by
  cases l with
  | nil => rfl
  | cons g l => rw [outageEvent, raise_clk, foldl_clk (fun t x => bump_clk _ t)]

@[simp] theorem gapEvent_clk (g : GapEntry) : (gapEvent g s).clk = s.clk := by
  unfold gapEvent
  dsimp only
  split
  · exact outageEvent_clk _
  · exact raise_clk _ _ _ _ _

/-- The state after a gap, by the two ways to enter it: in the log, or counted as lost. -/
theorem enterGap_clk (m : Nat) (kind : GapKind) (cause start end_ bound : Nat) (ref : Scale) (unknown isOpen : Bool) :
    (enterGap m kind cause start end_ bound ref unknown isOpen s).1.clk = s.clk := by
  unfold enterGap
  dsimp only
  (repeat' split) <;> rfl

@[simp] theorem recordGap_clk (m : Nat) (kind : GapKind) (cause start end_ bound : Nat) (ref : Scale) (unknown isOpen : Bool) :
    (recordGap m kind cause start end_ bound ref unknown isOpen s).clk = s.clk := by
  have h := enterGap_clk (s := s) m kind cause start end_ bound ref unknown isOpen
  unfold recordGap
  split
  next t g ht =>
    rw [ht] at h
    split
    · exact h
    · exact (gapEvent_clk _).trans h
  next t ht =>
    rw [ht] at h
    exact h

@[simp] theorem startGaps_clk (kind : GapKind) (start end_ : Nat) (unknown isOpen : Bool) :
    (startGaps kind start end_ unknown isOpen s).clk = s.clk := by
  refine foldl_clk (fun t e => ?_) _ _
  dsimp only
  split
  · exact recordGap_clk _ _ _ _ _ _ _ _ _
  · rfl

@[simp] theorem restoreImage_clk (g : EnergyImg) : (restoreImage g s).clk = s.clk := rfl

@[simp] theorem restoreEnergy_clk : (restoreEnergy s).clk = s.clk := by
  unfold restoreEnergy
  dsimp only
  split <;> simp

@[simp] theorem saveAt_clk (ts : Nat) : (saveAt ts s).clk = s.clk := by
  unfold saveAt
  dsimp only
  rw [bump_clk, eraseSectors_clk]

@[simp] theorem restoreStage_clk (b : BootIn) : (restoreStage b s).clk = s.clk := by
  simp [restoreStage, apply_ite (fun t : State => t.clk)]

@[simp] theorem applyStored_clk (c : StoredCfg) : (applyStored c s).clk = s.clk := rfl

@[simp] theorem chooseStored_clk (b : BootIn) : (chooseStored b s).clk = s.clk := by
  unfold chooseStored
  dsimp only
  split
  · exact applyStored_clk _
  · split <;> rw [applyStored_clk, warn_clk]

@[simp] theorem checkSeal_clk (bad : U16) : (checkSeal bad s).clk = s.clk := by
  unfold checkSeal
  dsimp only
  rw [foldl_clk]
  intro t m
  split
  · rw [recordGap_clk, raise_clk]
    rfl
  · rfl

@[simp] theorem bootRestore_clk : (bootRestore s).clk = s.clk := by
  unfold bootRestore
  split
  · rfl
  · exact (checkSeal_clk _).trans ((restoreStage_clk _).trans (chooseStored_clk _))

end

/-! ### What the first evaluation and the chains leave of the device (R457) -/

/-- The device block, and the instant of READY. -/
def bootView (s : State) : DevBlk × Nat := (s.dev, s.eq.readyEl)

section
variable {s : State}

theorem foldl_bootView {α : Type} {g : State → α → State} (hg : ∀ t x, bootView (g t x) = bootView t) (l : List α) (s : State) :
    bootView (l.foldl g s) = bootView s := foldl_view bootView hg l s

@[simp] theorem raise_bootView (code sev : Nat) (params : Bytes) (o : Option HP) : bootView (raise code sev params o s) = bootView s := by
  have h := raise_onlyIn code sev params o s
  rw [bootView, bootView, h .dev (by decide), h .eq (by decide)]

@[simp] theorem raiseIf_bootView (c : Bool) (code sev : Nat) (params : Bytes) (o : Option HP) :
    bootView (raiseIf c code sev params o s) = bootView s := by
  unfold raiseIf
  split
  · exact raise_bootView _ _ _ _
  · rfl

@[simp] theorem bump_bootView (a : Nat) : bootView (bump a s) = bootView s := rfl
@[simp] theorem modPart_bootView (p : HP) (f : Part → Part) : bootView (modPart p f s) = bootView s := rfl
@[simp] theorem setMp_bootView (m : Nat) (v : SgMp) : bootView (setMp m v s) = bootView s := rfl
@[simp] theorem modMp_bootView (m : Nat) (f : SgMp → SgMp) : bootView (modMp m f s) = bootView s := rfl
@[simp] theorem setInput_bootView (n : Nat) (v : SgInput) : bootView (setInput n v s) = bootView s := rfl
@[simp] theorem modInput_bootView (n : Nat) (f : SgInput → SgInput) : bootView (modInput n f s) = bootView s := rfl

@[simp] theorem relatch_bootView (old new : U8) (cause : Nat) : bootView (relatch old new cause s) = bootView s := by
  unfold relatch
  dsimp only
  split
  · rfl
  · rw [raise_bootView]
    rfl

@[simp] theorem reeval_bootView (reason : Nat) : bootView (reeval reason s) = bootView s := by
  unfold reeval
  dsimp only
  split
  · rfl
  · split
    · rw [raise_bootView, raise_bootView]
      rfl
    · rw [modPart_bootView, foldl_bootView (fun _ _ => relatch_bootView _ _ _), raise_bootView]
      rfl

@[simp] theorem toHealthy_bootView (p : HP) : bootView (toHealthy p s) = bootView s := by rw [toHealthy, raise_bootView, modPart_bootView]

@[simp] theorem toReturning_bootView (p : HP) : bootView (toReturning p s) = bootView s := by
  unfold toReturning
  dsimp only
  rw [raise_bootView, modPart_bootView]

@[simp] theorem toDegraded_bootView (p : HP) (lost : Option Nat) : bootView (toDegraded p lost s) = bootView s := by
  cases lost with
  | none => rfl
  | some m => rw [toDegraded, raise_bootView, bump_bootView, modPart_bootView]

@[simp] theorem toFailing_bootView (p : HP) (tell : Bool) : bootView (toFailing p tell s) = bootView s := by
  rw [toFailing, raiseIf_bootView, modPart_bootView]

@[simp] theorem evalPart_bootView (p : HP) : bootView (evalPart p s) = bootView s := by
  unfold evalPart
  dsimp only
  split
  · rfl
  · rw [reeval_bootView]
    (repeat' split) <;> simp

@[simp] theorem evalAll_bootView : bootView (evalAll s) = bootView s := foldl_bootView (fun _ _ => evalPart_bootView _) _ _

@[simp] theorem beginSupp_bootView (m start : Nat) (cause : SgCause) (boot : Bool) : bootView (beginSupp m start cause boot s) = bootView s := by
  unfold beginSupp
  dsimp only
  split <;> rfl

@[simp] theorem mpState_bootView (m : Nat) (st : MpState) (cause : SgCause) : bootView (mpState m st cause s) = bootView s := by
  unfold mpState
  dsimp only
  split
  · rfl
  · rw [raise_bootView, setMp_bootView]

@[simp] theorem restartInput_bootView (v : SgMp) (cause : SgCause) (n : Nat) : bootView (restartInput v cause n s) = bootView s := by
  unfold restartInput unsettle toAcquire
  dsimp only
  rw [modInput_bootView, modInput_bootView, raiseIf_bootView, setInput_bootView]

@[simp] theorem chainRestart_bootView (m : Nat) (cause : SgCause) : bootView (chainRestart m cause s) = bootView s := by
  unfold chainRestart
  dsimp only
  rw [bump_bootView, bump_bootView, foldl_bootView (fun _ _ => restartInput_bootView _ _ _), modMp_bootView, mpState_bootView, beginSupp_bootView]

end

/-- The device in READY: its boot time and its instant, no warning, and the record of an unclean end cleared. -/
structure BootedAt (t : State) (ms ts el : Nat) : Prop where
  boot : t.dev.boot = .ready
  stage : t.dev.stage = 6
  bootMs : t.dev.bootMs = BitVec.ofNat 32 ms
  readyTs : t.dev.readyTs = BitVec.ofNat 64 ts
  warnings : t.dev.warnings = []
  readyEl : t.eq.readyEl = el

section
variable {s t : State} {ms ts el : Nat}

theorem BootedAt.of_bootView (h : bootView t = bootView s) (b : BootedAt s ms ts el) : BootedAt t ms ts el := by
  obtain ⟨hdev, hel⟩ := Prod.mk.inj h
  constructor
  · rw [hdev, b.boot]
  · rw [hdev, b.stage]
  · rw [hdev, b.bootMs]
  · rw [hdev, b.readyTs]
  · rw [hdev, b.warnings]
  · rw [hel, b.readyEl]

/-- The report of an unclean end leaves the device READY. -/
theorem BootedAt.uncleanTold (b : BootedAt s ms ts el) : BootedAt (bump 0x11000140 { s with dev := { s.dev with uncleanRec := none } }) ms ts el :=
  ⟨b.boot, b.stage, b.bootMs, b.readyTs, b.warnings, b.readyEl⟩

/-- The device that enters READY and has told its warnings. -/
theorem BootedAt.of_entered {tbl : Tbl Nat} (h : bootView t = bootView { s with
      dev := { s.dev with boot := .ready, stage := 6, bootMs := BitVec.ofNat 32 ms, readyTs := BitVec.ofNat 64 ts, stageMs := tbl }
      eq := { s.eq with readyEl := el } }) : BootedAt { t with dev := { t.dev with warnings := [] } } ms ts el := by
  obtain ⟨hdev, hel⟩ := Prod.mk.inj h
  constructor <;> simp [hdev, hel]

end

section
variable {s : State}

/-- READY is entered past the last stage: the stored state is restored, and what follows it leaves the device block and the instant. -/
theorem exec_bootReady_booted {stageMs : List U16} (hgo : ¬ (s.dev.boot ≠ .booting ∨ s.dev.pfailWait = true))
    (hover : stageOver stageMs = none) :
    ∃ t, exec (.bootReady stageMs) s = .next t ∧ BootedAt t (elNs s / 1000000) (taiNs s) (elNs s) := by
  have hel : elNs (bootRestore s) = elNs s := by rw [elNs, elNs, bootRestore_clk]
  have htai : taiNs (bootRestore s) = taiNs s := by rw [taiNs, taiNs, bootRestore_clk]
  obtain ⟨t, ht⟩ : ∃ t, exec (.bootReady stageMs) s = .next t := ⟨_, rfl⟩
  refine ⟨t, ht, ?_⟩
  simp only [exec_bootReady, execBootReady, if_neg hgo, hover, hel, htai, Host.Outcome.next.injEq] at ht
  subst ht
  refine .of_bootView (foldl_bootView (fun t e => ?_) _ _) ?_
  · split
    · exact chainRestart_bootView _ _
    · rfl
  · split
    · refine .of_bootView (raise_bootView _ _ _ _) (.uncleanTold (.of_bootView (foldl_bootView (fun _ _ => raise_bootView _ _ _ _) _ _) ?_))
      exact .of_entered ((raise_bootView _ _ _ _).trans evalAll_bootView)
    · refine .of_bootView (foldl_bootView (fun _ _ => raise_bootView _ _ _ _) _ _) ?_
      exact .of_entered ((raise_bootView _ _ _ _).trans evalAll_bootView)

/-! ### The clearing of the device (R454, R455) -/

theorem foldl_dev {α : Type} {g : State → α → State} (hg : ∀ t x, (g t x).dev = t.dev) (l : List α) (s : State) : (l.foldl g s).dev = s.dev :=
  foldl_view (fun t : State => t.dev) hg l s

@[simp] theorem setOtpGroup_dev (g : Nat) (l : Tbl OtpGen) (s : State) : (setOtpGroup g l s).dev = s.dev := by
  unfold setOtpGroup
  split <;> rfl

theorem cutWrites_dev (s : State) : (cutWrites s).dev = s.dev := by
  unfold cutWrites
  dsimp only
  refine (foldl_dev ?_ _ _).trans ?_
  · exact fun _ _ => rfl
  (repeat' split) <;> simp

theorem clearAll_pfailN (s : State) : (clearAll s).dev.pfailN = s.dev.pfailN := by
  change (cutWrites s).dev.pfailN = s.dev.pfailN
  rw [cutWrites_dev]

/-- A fall of PORN loses records: the device was READY, and no flush has ended with its image (R437). -/
theorem lossy_iff : (decide (s.dev.boot = .ready) && !(s.eq.flushHdr.isSome && !s.eq.flushing && s.eq.flushImg.elim false (fun g => g.crcOk))) = true ↔
    s.dev.boot = .ready ∧ ¬ (s.eq.flushHdr.isSome = true ∧ s.eq.flushing = false ∧ s.eq.flushImg.elim false (fun g => g.crcOk) = true) := by
  simp only [Bool.and_eq_true, decide_eq_true_eq, Bool.not_eq_true', ← Bool.not_eq_true, and_assoc]

end

/-- Settles O51: each row is due by its hypotheses, and what it then does is its effect; READY is entered with what the first evaluation and the
chains leave alone. -/
theorem resetsAndBootComplete : Obligations.ResetsAndBootComplete := by
  intro s
  refine ⟨?_, ?_, ?_, ?_, ?_, ?_, ?_, ?_, ?_, ?_, ?_, ?_, ?_⟩
  case refine_1 =>
    rintro v r hporn rfl rfl
    rw [exec_pornAssert, execPornAssert, if_neg (by simp [hporn])]
    simp only [lossy_iff]
  case refine_2 =>
    rintro b v hrow rfl
    have hgo : ¬ (s.dev.porn = true ∧ s.dev.boot ≠ .reset) := by
      rintro ⟨h1, h2⟩
      rcases hrow with h | h
      · rw [h] at h1
        cases h1
      · exact h2 h
    rw [exec_powerOnReset, execPowerOnReset, if_neg hgo]
  case refine_3 =>
    intro stage hboot hwait hmin hmax
    refine ⟨_, ?_, rfl, rfl, rfl, rfl⟩
    rw [exec_bootStageTimeout, execBootStageTimeout, if_pos ⟨hboot, hwait, hmin, hmax⟩]
  case refine_4 =>
    intro stageMs hboot hwait hover
    have hgo : ¬ (s.dev.boot ≠ .booting ∨ s.dev.pfailWait = true) := by simp [hboot, hwait]
    obtain ⟨t, ht, b⟩ := exec_bootReady_booted hgo hover
    exact ⟨t, ht, b.boot, b.stage, b.bootMs, b.readyTs, b.warnings, b.readyEl⟩
  case refine_5 =>
    intro stageMs k hboot hwait hover
    have hgo : ¬ (s.dev.boot ≠ .booting ∨ s.dev.pfailWait = true) := by simp [hboot, hwait]
    simp only [exec_bootReady, execBootReady, if_neg hgo, hover]
  case refine_6 =>
    rintro b u v hporn hfl rfl rfl
    have hon : ¬ s.dev.porn = false := by simp [hporn]
    have hidle : ¬ s.eq.flushing = true := by simp [hfl]
    rw [exec_systemReset, execSystemReset, if_neg hon, if_neg hidle, systemReset]
    rfl
  case refine_7 =>
    intro b hporn hfl
    rw [exec_systemReset, execSystemReset, if_neg (by simp [hporn]), if_pos hfl]
  case refine_8 =>
    intro b hporn hfl hboot
    rw [exec_watchdogExpiry, execWatchdogExpiry, if_neg (by simp [hporn, hfl, hboot])]
  case refine_9 =>
    intro b hporn hfl hboot
    rw [exec_firmwareHalt, execFirmwareHalt, if_neg (by simp [hporn, hfl, hboot])]
  case refine_10 =>
    intro h p a hconfirm himage hrsv hpfail
    have ⟨_, hready, _⟩ := a
    refine ⟨_, rfl, exec_admitted (exec_deviceReset _ _ _) rfl a (by simp [hconfirm, himage, hrsv]) ?_ rfl⟩
    simp only [countCmd_dev, hpfail, Bool.true_eq_false, if_false, hready, if_true]
  case refine_11 =>
    intro b img hreq hporn hfl
    have hgo : ¬ (s.dev.porn = false ∨ s.eq.flushing = true) := by simp [hporn, hfl]
    simp only [exec_deviceResetExecute, execDeviceResetExecute, hreq, if_neg hgo]
  case refine_12 =>
    rintro cause ovr b u v hpfail rfl rfl
    rw [restart, if_pos ((clearAll_pfailN s).trans hpfail)]
  case refine_13 =>
    rintro cause ovr b u hpfail rfl
    have hoff : ¬ (clearAll s).dev.pfailN = true := by simp [clearAll_pfailN, hpfail]
    rw [restart, if_neg hoff]

end Sys2Proof.Machine

/-!
No command disturbs the queue (the queue is the model's, log entry 2). One lemma per operation of the model says that it leaves the commands
that wait as they are: `_pending` of a function that answers a state, `_waiting` of one that answers an outcome, `exWaiting` of the effect of
a core's instruction. They follow the order of the model, and `simp` carries them from a chapter's operations to its commands.
-/

namespace Sys2Proof.Machine

/-- The commands that wait after an outcome; a fault or a refusal has no state of its own. -/
def waiting : Out → List Instr
  | .next t => t.pending
  | _ => []

@[simp] theorem waiting_next (t : State) : waiting (.next t) = t.pending := rfl

@[simp] theorem ite_pending (c : Prop) [Decidable c] (a b : State) : (if c then a else b).pending = if c then a.pending else b.pending :=
  apply_ite State.pending c a b

@[simp] theorem pair_ite_pending {α : Type} (c : Prop) [Decidable c] (a b : α × State) :
    (if c then a else b).2.pending = if c then a.2.pending else b.2.pending := apply_ite (fun x => x.2.pending) c a b

@[simp] theorem rep_ite_pending (c : Prop) [Decidable c] (a b : Rep) : (if c then a else b).s.pending = if c then a.s.pending else b.s.pending :=
  apply_ite (fun x => x.s.pending) c a b

@[simp] theorem foldl_pending {α : Type} {g : State → α → State} (h : ∀ t x, (g t x).pending = t.pending) (l : List α) (s : State) :
    (l.foldl g s).pending = s.pending :=
  foldl_view State.pending h l s

theorem foldl_pair_pending {α β : Type} {g : β × State → α → β × State} (h : ∀ t x, (g t x).2.pending = t.2.pending) (l : List α)
    (s : β × State) : (l.foldl g s).2.pending = s.2.pending :=
  foldl_view (fun x => x.2.pending) h l s

/-! ### The operations every chapter shares -/

@[simp] theorem fresh_pending (s : State) : (fresh s).2.pending = s.pending := by simp [fresh]
@[simp] theorem cntMax_pending (addr v : Nat) (s : State) : (cntMax addr v s).pending = s.pending := by simp [cntMax]
@[simp] theorem bumpIf_pending (c : Bool) (addr : Nat) (s : State) : (bumpIf c addr s).pending = s.pending := by simp [bumpIf]
@[simp] theorem pushEvt_pending (p : HP) (e : EvtIn) (s : State) : (pushEvt p e s).pending = s.pending := by simp [pushEvt]
@[simp] theorem pushRec_pending (code sev : Nat) (params : Bytes) (s : State) : (pushRec code sev params s).pending = s.pending := by
  unfold pushRec
  dsimp only
  (repeat' split) <;> simp [*]
@[simp] theorem raiseRaw_pending (code sev : Nat) (params : Bytes) (owner : Option HP) (s : State) :
    (raiseRaw code sev params owner s).pending = s.pending := by
  simp [raiseRaw]
@[simp] theorem leaveLimited_pending (code : Nat) (s : State) : (leaveLimited code s).pending = s.pending := by simp [leaveLimited]
@[simp] theorem raise_pending (code sev : Nat) (params : Bytes) (owner : Option HP) (s0 : State) :
    (raise code sev params owner s0).pending = s0.pending := by
  simp [raise]
@[simp] theorem raiseIf_pending (c : Bool) (code sev : Nat) (params : Bytes) (owner : Option HP) (s : State) :
    (raiseIf c code sev params owner s).pending = s.pending := by
  simp [raiseIf]
@[simp] theorem eventsLost_pending (p : HP) (s : State) : (eventsLost p s).pending = s.pending := by simp [eventsLost]
@[simp] theorem refuse_pending (st : Sts) (s : State) : (refuse st s).s.pending = s.pending := by simp [refuse]
@[simp] theorem done_pending (s : State) : (done s).s.pending = s.pending := by simp [done]
@[simp] theorem doneWith_pending (resp : Bytes) (s : State) : (doneWith resp s).s.pending = s.pending := by simp [doneWith]
@[simp] theorem startLong_pending (h : Hdr) (opcode limitMs : Nat) (s : State) : (startLong h opcode limitMs s).2.pending = s.pending := by
  simp [startLong]
@[simp] theorem completeLong_pending (id : Nat) (st : Sts) (result : Bytes) (s : State) : (completeLong id st result s).pending = s.pending := by
  unfold completeLong
  split <;> simp [*]
@[simp] theorem completeOpt_pending (id : Option Nat) (st : Sts) (result : Bytes) (s : State) :
    (completeOpt id st result s).pending = s.pending := by
  unfold completeOpt
  split <;> simp [*]
@[simp] theorem respond_pending (h : Hdr) (op : Nat) (st : U16) (resp : Bytes) (cache : Bool) (s : State) :
    (respond h op st resp cache s).pending = s.pending := by
  simp [respond]
@[simp] theorem answer_pending (h : Hdr) (op : Nat) (r : Rep) : (answer h op r).pending = r.s.pending := by simp [answer]
@[simp] theorem vciRecovery_pending (c : Cmd) (h : Hdr) (ok : Bool) (body : State → Rep) (s : State)
    (hbody : ∀ x0, (body x0).s.pending = x0.pending) :
    (vciRecovery c h ok body s).pending = s.pending := by
  simp [vciRecovery, hbody]
@[simp] theorem vci_pending (c : Cmd) (h : Hdr) (ok : State → Bool) (body : State → Rep) (s : State)
    (hbody : ∀ x0, (body x0).s.pending = x0.pending) :
    (vci c h ok body s).pending = s.pending := by
  unfold vci
  dsimp only
  (repeat' split) <;> simp [*]
@[simp] theorem bindRing_pending (p : HP) (n : Nat) (u : RingUse) (s : State) : (bindRing p n u s).pending = s.pending := by
  unfold bindRing
  split <;> simp [*]
@[simp] theorem unbindRing_pending (p : HP) (n : Nat) (u : RingUse) (s : State) : (unbindRing p n u s).pending = s.pending := by
  unfold unbindRing
  split <;> simp [*]
@[simp] theorem completeDesc_pending (p : HP) (n : Nat) (st : Sts) (len : Nat) (data : Bytes) (s : State) :
    (completeDesc p n st len data s).pending = s.pending := by
  unfold completeDesc
  (repeat' split) <;> simp [*]
@[simp] theorem writeBuffers_pending (p : HP) (n : Nat) (a0 : Nat) (a1 : Bytes) (a2 : State) :
    (writeBuffers p n a0 a1 a2).pending = a2.pending := by
  fun_induction writeBuffers p n a0 a1 a2 <;> simp [*]
theorem ringWrite_pending (p : HP) (n : Nat) (u : RingUse) (data : Bytes) (s : State) {t} (h : ringWrite p n u data s = some t) :
    t.pending = s.pending := by
  unfold ringWrite at h
  (repeat' split at h) <;> cases h
  simp

/-! ### Operands of the Sorrel cores -/

@[simp] theorem stepPtr_pending (i : Fin 8) (step : Int) (c : Core) (s : State) : (stepPtr i step c s).2.pending = s.pending := by simp [stepPtr]
theorem resolve_pending (m : AMode) (c : Core) (s : State) {x} (h : resolve m c s = .ok x) : x.s.pending = s.pending := by
  unfold resolve at h
  grind [stepPtr_pending]

/-! ### Operations of the Yarrow scheduler -/

@[simp] theorem poisonDma_pending (p : HP) (words : Nat) (s : State) : (poisonDma p words s).pending = s.pending := by
  unfold poisonDma
  dsimp only
  (repeat' split) <;> simp [*]
@[simp] theorem noteDepth_pending (cl cls : Nat) (s : State) : (noteDepth cl cls s).pending = s.pending := by simp [noteDepth]
@[simp] theorem touchQueue_pending (cl cls : Nat) (s : State) : (touchQueue cl cls s).pending = s.pending := by simp [touchQueue]
@[simp] theorem stallProd_pending (id : Nat) (s : State) : (stallProd id s).pending = s.pending := by simp [stallProd]
@[simp] theorem resumeProd_pending (id : Nat) (s : State) : (resumeProd id s).pending = s.pending := by
  unfold resumeProd
  dsimp only
  split <;> simp [*]
@[simp] theorem resumeTask_pending (t : Nat) (s : State) : (resumeTask t s).pending = s.pending := by
  unfold resumeTask
  (repeat' split) <;> simp [*]
@[simp] theorem enterReady_pending (t : Nat) (k : Task) (s : State) : (enterReady t k s).pending = s.pending := by simp [enterReady]
@[simp] theorem makeReady_pending (t : Nat) (k0 : Task) (s : State) : (makeReady t k0 s).pending = s.pending := by simp [makeReady]
@[simp] theorem freeEntry_pending (cl cls : Nat) (s : State) : (freeEntry cl cls s).pending = s.pending := by
  unfold freeEntry
  dsimp only
  (repeat' split) <;> simp [*]
@[simp] theorem setFlags_pending (t : Nat) (bits : U32) (producer : Option Nat) (s : State) : (setFlags t bits producer s).pending = s.pending := by
  unfold setFlags
  dsimp only
  (repeat' split) <;> simp [*]
@[simp] theorem dequeue_pending (t : Nat) (k : Task) (s : State) : (dequeue t k s).pending = s.pending := by simp [dequeue]
@[simp] theorem cancelTask_pending (t : Nat) (s : State) : (cancelTask t s).pending = s.pending := by
  unfold cancelTask
  (repeat' split) <;> simp [*]
@[simp] theorem deleteTask_pending (t : Nat) (s : State) : (deleteTask t s).pending = s.pending := by
  unfold deleteTask
  (repeat' split) <;> simp [*]
@[simp] theorem setDelay_pending (t : Nat) (kind : DelayKind) (n period : Nat) (s : State) : (setDelay t kind n period s).pending = s.pending := by
  simp [setDelay]
@[simp] theorem trigDrop_pending (k b : Nat) (s : State) : (trigDrop k b s).pending = s.pending := by
  unfold trigDrop
  split <;> simp [*]
@[simp] theorem trigIdle_pending (k : Nat) (s : State) : (trigIdle k s).pending = s.pending := by simp [trigIdle]
@[simp] theorem noteRun_pending (t k b slot instant : Nat) (s : State) : (noteRun t k b slot instant s).pending = s.pending := by simp [noteRun]
@[simp] theorem triggerBind_pending (k b : Nat) (data : Bytes) (instant : Nat) (producer : Option Nat) (s : State) :
    (triggerBind k b data instant producer s).pending = s.pending := by
  unfold triggerBind
  (repeat' split) <;> simp [*]
@[simp] theorem expire_pending (t : Nat) (d : Delay) (s : State) : (expire t d s).pending = s.pending := by
  unfold expire
  dsimp only
  (repeat' split) <;> simp [*]
@[simp] theorem expireUpTo_pending (a0 : Nat) (a1 : State) : (expireUpTo a0 a1).pending = a1.pending := by
  fun_induction expireUpTo a0 a1 <;> simp [*]
@[simp] theorem dispatchOn_pending (t : Nat) (k : Task) (n pass : Nat) (s : State) : (dispatchOn t k n pass s).pending = s.pending := by
  unfold dispatchOn
  dsimp only
  split <;> simp [*]
@[simp] theorem runPass_pending (pass : Nat) (a0 : List Nat) (a1 : List Nat) (a2 : State) : (runPass pass a0 a1 a2).2.pending = a2.pending := by
  fun_induction runPass pass a0 a1 a2 <;> simp_all +zetaDelta
@[simp] theorem matchCores_pending (s : State) : (matchCores s).pending = s.pending := by simp [matchCores]
@[simp] theorem logPlacement_pending (kind reason item : Nat) (old new : Nat × Nat × Nat) (s : State) :
    (logPlacement kind reason item old new s).pending = s.pending := by
  simp [logPlacement]
@[simp] theorem placeNew_pending (kind item : Nat) (s : State) : (placeNew kind item s).pending = s.pending := by simp [placeNew]
@[simp] theorem unplace_pending (kind item : Nat) (s : State) : (unplace kind item s).pending = s.pending := by simp [unplace]
@[simp] theorem movePlace_pending (m : PlaceMove) (s : State) : (movePlace m s).pending = s.pending := by
  unfold movePlace
  split <;> simp [*]
@[simp] theorem switchMoves_pending (g : Nat) (s : State) : (switchMoves g s).pending = s.pending := by simp [switchMoves]
@[simp] theorem logTaskMove_pending (t : Nat) (k : Task) (reason cl : Nat) (s : State) : (logTaskMove t k reason cl s).pending = s.pending := by
  simp [logTaskMove]
@[simp] theorem endTask_pending (n t : Nat) (fault : Bool) (s : State) : (endTask n t fault s).pending = s.pending := by
  unfold endTask
  (repeat' split) <;> simp [*]
@[simp] theorem releaseSlot_pending (r : TaskRun) (s : State) : (releaseSlot r s).pending = s.pending := by simp [releaseSlot]
@[simp] theorem aovEvent_pending (n k : Nat) (r : TaskRun) (s : State) : (aovEvent n k r s).pending = s.pending := by
  unfold aovEvent
  split <;> simp [*]
@[simp] theorem endRun_pending (n : Nat) (s : State) : (endRun n s).pending = s.pending := by
  unfold endRun
  dsimp only
  (repeat' split) <;> simp [*]
@[simp] theorem faultRun_pending (n : Nat) (f : CoreFault) (s : State) : (faultRun n f s).pending = s.pending := by
  unfold faultRun
  dsimp only
  (repeat' split) <;> simp [*]

/-! ### Host partitions -/

@[simp] theorem relatch_pending (old new : U8) (cause : Nat) (s : State) : (relatch old new cause s).pending = s.pending := by simp [relatch]
@[simp] theorem reeval_pending (reason : Nat) (s : State) : (reeval reason s).pending = s.pending := by
  unfold reeval
  dsimp only
  (repeat' split) <;> simp [*]
@[simp] theorem toHealthy_pending (p : HP) (s : State) : (toHealthy p s).pending = s.pending := by simp [toHealthy]
@[simp] theorem toDegraded_pending (p : HP) (lost : Option Nat) (s : State) : (toDegraded p lost s).pending = s.pending := by
  unfold toDegraded
  split <;> simp [*]
@[simp] theorem toFailing_pending (p : HP) (fromHealthy : Bool) (s : State) : (toFailing p fromHealthy s).pending = s.pending := by simp [toFailing]
@[simp] theorem toReturning_pending (p : HP) (s : State) : (toReturning p s).pending = s.pending := by simp [toReturning]
@[simp] theorem evalPart_pending (p : HP) (s : State) : (evalPart p s).pending = s.pending := by
  unfold evalPart
  dsimp only
  (repeat' split) <;> simp [*]
@[simp] theorem evalAll_pending (s : State) : (evalAll s).pending = s.pending := by simp [evalAll]
@[simp] theorem toOut_pending (p : HP) (code : Nat) (params : Bytes) (reason : Nat) (s : State) :
    (toOut p code params reason s).pending = s.pending := by
  simp [toOut]
@[simp] theorem countHeartbeat_pending (p : HP) (s : State) : (countHeartbeat p s).pending = s.pending := by simp [countHeartbeat]
@[simp] theorem setClaim_pending (p : HP) (new : U8) (issuer : HP) (s : State) : (setClaim p new issuer s).pending = s.pending := by simp [setClaim]
@[simp] theorem unbindUse_pending (p : HP) (n : Nat) (s : State) : (unbindUse p n s).pending = s.pending := by
  unfold unbindUse
  dsimp only
  (repeat' split) <;> simp [*]
@[simp] theorem flushRing_pending (p : HP) (n : Nat) (s : State) : (flushRing p n s).pending = s.pending := by
  unfold flushRing
  split <;> simp [*]

/-! ### Operations of the record store, of OTP generations and of flash -/

@[simp] theorem checkWear_pending (r : Nat) (s : State) : (checkWear r s).pending = s.pending := by simp [checkWear]
@[simp] theorem countErase_pending (sector : Nat) (s : State) : (countErase sector s).pending = s.pending := by simp [countErase]
@[simp] theorem eraseSectors_pending (r : Nat) (sectors : List Nat) (s : State) : (eraseSectors r sectors s).pending = s.pending := by
  simp [eraseSectors]
@[simp] theorem keepConfig_pending (s : State) : (keepConfig s).pending = s.pending := by simp [keepConfig]
@[simp] theorem storeConfig_pending (s : State) : (storeConfig s).pending = s.pending := by simp [storeConfig]
@[simp] theorem stored_pending {region : Nat} {s : State} {r : Rep} (h : r.s.pending = s.pending) : (stored region s r).s.pending = s.pending := by
  unfold stored
  split
  · simp
  · exact h
@[simp] theorem storeTables_pending (s : State) : (storeTables s).pending = s.pending := by simp [storeTables]
@[simp] theorem storeCirc_pending (r : Rec) (s : State) : (storeCirc r s).pending = s.pending := by
  unfold storeCirc
  dsimp only
  (repeat' split) <;> simp [*]
@[simp] theorem storeRec_pending (r : Rec) (s : State) : (storeRec r s).pending = s.pending := by simp [storeRec]
@[simp] theorem beginFlush_pending (s : State) : (beginFlush s).pending = s.pending := by simp [beginFlush]
@[simp] theorem reportOverflow_pending (s : State) : (reportOverflow s).pending = s.pending := by simp [reportOverflow]
@[simp] theorem endFlush_pending (s : State) : (endFlush s).pending = s.pending := by simp [endFlush]
@[simp] theorem otpEvents_pending (group gen : Nat) (p : HP) (used : Nat) (s : State) : (otpEvents group gen p used s).pending = s.pending := by
  simp [otpEvents]
@[simp] theorem refreshOtp_pending (s : State) : (refreshOtp s).pending = s.pending := by simp [refreshOtp]
@[simp] theorem writeDir_pending (d : DirCopy) (s : State) : (writeDir d s).pending = s.pending := by simp [writeDir]
@[simp] theorem writeDirBoth_pending (d : DirCopy) (s : State) : (writeDirBoth d s).pending = s.pending := by simp [writeDirBoth]

/-! ### User kernels -/

theorem addTask_pending (k : Nat) (x : Kern) (b cls level : Nat) (reserved timer : Bool) (slot : Nat) (s : State)
    {t} (h : addTask k x b cls level reserved timer slot s = some t) :
    t.2.pending = s.pending := by
  simp only [addTask, Option.bind_eq_some_iff] at h
  obtain ⟨n, -, h⟩ := h
  (repeat' split at h) <;> cases h
  simp
theorem addTasks_pending (k : Nat) (x : Kern) (b cls level : Nat) (reserved timer : Bool) (a0 : Nat) (a1 : Nat) (a2 : List Nat) (a3 : State)
    {t} (h : addTasks k x b cls level reserved timer a0 a1 a2 a3 = some t) :
    t.2.pending = a3.pending := by
  induction a0 generalizing a1 a2 a3 with
  | zero => cases h; rfl
  | succ n ih =>
    obtain ⟨p, hp, h⟩ := Option.bind_eq_some_iff.1 h
    rw [ih _ _ _ h, addTask_pending _ _ _ _ _ _ _ _ _ hp]
@[simp] theorem armTimer_pending (v : KBind) (s : State) : (armTimer v s).pending = s.pending := by
  unfold armTimer
  (repeat' split) <;> simp [*]
@[simp] theorem dropBind_pending (p : HP) (kern : Nat) (v : KBind) (s : State) : (dropBind p kern v s).pending = s.pending := by simp [dropBind]
@[simp] theorem kernelSlab_pending (grid tag : Nat) (cells : Nat → Bytes) (s : State) : (kernelSlab grid tag cells s).pending = s.pending := by
  simp [kernelSlab]
@[simp] theorem kernState_pending (k : Nat) (st : KState) (s : State) : (kernState k st s).pending = s.pending := by
  unfold kernState
  split <;> simp [*]
@[simp] theorem clearFaults_pending (k : Nat) (s : State) : (clearFaults k s).pending = s.pending := by
  unfold clearFaults
  split <;> simp [*]

/-! ### Operations of the network ports -/

@[simp] theorem setPair2_pending (pr : Nat) (p : Pair) (s : State) : (setPair2 pr p s).pending = s.pending := by simp [setPair2]
@[simp] theorem freeTs_pending (r : Nat) (f : TxFrame) (s : State) : (freeTs r f s).pending = s.pending := by
  unfold freeTs
  exact foldl_pending (fun _ _ => by simp) _ _
@[simp] theorem reportTx_pending (p : HP) (n k : Nat) (index : U32) (f : TxFrame) (s : State) : (reportTx p n k index f s).pending = s.pending := by
  unfold reportTx
  split
  · split
    next t ht => exact ringWrite_pending _ _ _ _ _ ht
    next => simp
  · rfl
@[simp] theorem completeDescs_pending (p : HP) (n : Nat) (st : U16) (a0 : Nat) (a1 : State) :
    (completeDescs p n st a0 a1).pending = a1.pending := by
  induction a0 generalizing a1 with
  | zero => rfl
  | succ k ih =>
    unfold completeDescs
    split
    · rfl
    · split
      · rfl
      · rw [ih]
        split <;> simp
@[simp] theorem flushTaken_pending (p : HP) (n : Nat) (a0 : List Taken) (a1 : State) : (flushTaken p n a0 a1).2.pending = a1.pending := by
  fun_induction flushTaken p n a0 a1 <;> simp [*]
@[simp] theorem settleHost_pending (p : HP) (n ref : Nat) (st : U16) (s : State) : (settleHost p n ref st s).pending = s.pending := by
  unfold settleHost
  dsimp only
  split <;> simp [*]
@[simp] theorem completeFrame_pending (r : Nat) (s : State) : (completeFrame r s).pending = s.pending := by
  unfold completeFrame
  (repeat' split) <;> simp [*]
@[simp] theorem finishCopy_pending (r : Nat) (s : State) : (finishCopy r s).pending = s.pending := by
  unfold finishCopy
  split <;> simp [*]
@[simp] theorem flagFrame_pending (r : Nat) (g : TxFlags → TxFlags) (s : State) : (flagFrame r g s).pending = s.pending := by simp [flagFrame]
@[simp] theorem discardCopy_pending (r k : Nat) (s : State) : (discardCopy r k s).pending = s.pending := by
  unfold discardCopy
  split <;> simp [*]
@[simp] theorem takeTs_pending (k r : Nat) (ptp : Bool) (s : State) : (takeTs k r ptp s).pending = s.pending := by simp [takeTs]
@[simp] theorem startOn_pending (k r : Nat) (s : State) : (startOn k r s).pending = s.pending := by
  unfold startOn
  split <;> simp [*]
@[simp] theorem deferTimed_pending (k r : Nat) (s : State) : (deferTimed k r s).pending = s.pending := by
  unfold deferTimed
  split <;> simp [*]
@[simp] theorem startOrDefer_pending (k r : Nat) (s : State) : (startOrDefer k r s).pending = s.pending := by simp [startOrDefer]
@[simp] theorem tryStart_pending (k : Nat) (s : State) : (tryStart k s).pending = s.pending := by
  unfold tryStart
  dsimp only
  (repeat' split) <;> simp [*]
@[simp] theorem kickPorts_pending (s : State) : (kickPorts s).pending = s.pending := by simp [kickPorts]
@[simp] theorem enterLq_pending (k : Nat) (e : LqEntry) (s : State) : (enterLq k e s).pending = s.pending := by simp [enterLq]
@[simp] theorem dropLq_pending (k r : Nat) (s : State) : (dropLq k r s).pending = s.pending := by simp [dropLq]
@[simp] theorem fireOn_pending (k r : Nat) (s : State) : (fireOn k r s).pending = s.pending := by
  unfold fireOn
  split <;> simp [*]
@[simp] theorem lateAction_pending (group late : Nat) (s : State) : (lateAction group late s).pending = s.pending := by simp [lateAction]
@[simp] theorem refuseFrame_pending (r : Nat) (st : Sts) (s : State) : (refuseFrame r st s).pending = s.pending := by
  unfold refuseFrame
  split <;> simp [*]
@[simp] theorem displace_pending (k : Nat) (s : State) : (displace k s).pending = s.pending := by
  unfold displace
  (repeat' split) <;> simp [*]
@[simp] theorem enterFrame_pending (r : Nat) (f : TxFrame) (s : State) : (enterFrame r f s).pending = s.pending := by
  unfold enterFrame
  split <;> simp [*]
@[simp] theorem releaseOne_pending (k : Nat) (s : State) : (releaseOne k s).pending = s.pending := by
  unfold releaseOne
  (repeat' split) <;> simp [*]
@[simp] theorem releaseHeld_pending (k : Nat) (s : State) : (releaseHeld k s).pending = s.pending := by simp [releaseHeld]
@[simp] theorem sendFrame_pending (q : TxReq) (s : State) : (sendFrame q s).2.2.pending = s.pending := by
  unfold sendFrame
  dsimp only
  (repeat' split) <;> simp_all
@[simp] theorem sendOwn_pending (q : TxReq) (s : State) : (sendOwn q s).pending = s.pending := by simp [sendOwn]
@[simp] theorem fireFrames_pending (s : State) : (fireFrames s).pending = s.pending := by simp [fireFrames]
@[simp] theorem noteCancelled_pending (o : TxOwner) (s : State) : (noteCancelled o s).pending = s.pending := by
  unfold noteCancelled
  split <;> simp [*]
@[simp] theorem restartGoose_pending (o : TxOwner) (s : State) : (restartGoose o s).pending = s.pending := by
  unfold restartGoose
  split <;> simp [*]
@[simp] theorem cancelLaunches_pending (s : State) : (cancelLaunches s).2.pending = s.pending := by
  unfold cancelLaunches
  refine foldl_pair_pending (fun t x => ?_) _ _
  dsimp only
  split
  · rfl
  · split <;> simp
@[simp] theorem lanDown_pending (k cause : Nat) (s : State) : (lanDown k cause s).pending = s.pending := by simp [lanDown]
@[simp] theorem lanHeard_pending (k : Nat) (s : State) : (lanHeard k s).pending = s.pending := by simp [lanHeard]
@[simp] theorem linkDown_pending (k : Nat) (s : State) : (linkDown k s).pending = s.pending := by simp [linkDown]
@[simp] theorem noteSkew_pending (pr us : Nat) (mac : U48) (s : State) : (noteSkew pr us mac s).pending = s.pending := by simp [noteSkew]
@[simp] theorem noteDup_pending (pr d : Nat) (mac : U48) (s : State) : (noteDup pr d mac s).pending = s.pending := by simp [noteDup]
@[simp] theorem newEntry_pending (key : Nat) (e : SrcEntry) (s : State) : (newEntry key e s).pending = s.pending := by
  unfold newEntry
  dsimp only
  (repeat' split) <;> simp [*]
@[simp] theorem unknownSource_pending (k : Nat) (mac : U48) (seq : U16) (s : State) : (unknownSource k mac seq s).2.pending = s.pending := by
  unfold unknownSource
  dsimp only
  split <;> simp [*]
@[simp] theorem countDrop_pending (k : Nat) (c : Cls) (s : State) : (countDrop k c s).pending = s.pending := by simp [countDrop]
@[simp] theorem reclaim_pending (k len : Nat) (a0 : Nat) (a1 : State) : (reclaim k len a0 a1).pending = a1.pending := by
  fun_induction reclaim k len a0 a1 <;> simp [*]
@[simp] theorem enterIn_pending (k : Nat) (f : InFrame) (s0 : State) : (enterIn k f s0).2.pending = s0.pending := by
  unfold enterIn
  dsimp only
  (repeat' split) <;> simp_all
@[simp] theorem popIn_pending (k : Nat) (c : Cls) (s : State) : (popIn k c s).pending = s.pending := by simp [popIn]
@[simp] theorem poisonPort_pending (k words : Nat) (s : State) : (poisonPort k words s).pending = s.pending := by simp [poisonPort]

/-! ### Operations of the Clover aligner -/

@[simp] theorem poolCheck_pending (s : State) : (poolCheck s).pending = s.pending := by simp [poolCheck]
@[simp] theorem gridCheck_pending (g : Nat) (s : State) : (gridCheck g s).pending = s.pending := by simp [gridCheck]
@[simp] theorem fillStream_pending (g tag h : Nat) (s : State) : (fillStream g tag h s).pending = s.pending := by
  unfold fillStream
  split <;> simp [*]
@[simp] theorem fillSlab_pending (g tag : Nat) (s : State) : (fillSlab g tag s).pending = s.pending := by
  unfold fillSlab
  split <;> simp [*]
@[simp] theorem mergeHeld_pending (g tag : Nat) (s : State) : (mergeHeld g tag s).2.pending = s.pending := by
  unfold mergeHeld
  split
  · rfl
  · dsimp only
    rw [modSlab_pending]
    exact foldl_pair_pending (fun t x => by simp) _ _
@[simp] theorem pubState_pending (n : Nat) (st : PubState) (cause : Nat) (s : State) : (pubState n st cause s).pending = s.pending := by
  unfold pubState
  split <;> simp [*]
@[simp] theorem pubMemberCfg_pending (h : Nat) (s : State) : (pubMemberCfg h s).pending = s.pending := by simp [pubMemberCfg]
@[simp] theorem pubMemberGrid_pending (h : Nat) (s : State) : (pubMemberGrid h s).pending = s.pending := by simp [pubMemberGrid]
@[simp] theorem pubRecord_pending (n : Nat) (p : Pub) (tag : Nat) (data : Bytes) (patch absent : Bool) (s : State) :
    (pubRecord n p tag data patch absent s).pending = s.pending := by
  unfold pubRecord
  split
  · next t ht => rw [modPub_pending, ringWrite_pending _ _ _ _ _ ht]
  · simp
@[simp] theorem pubFinal_pending (g tag : Nat) (s : State) : (pubFinal g tag s).pending = s.pending := by
  unfold pubFinal
  split <;> simp [*]
@[simp] theorem pubPatch_pending (g tag : Nat) (l : List (Nat × Nat × Cell)) (s : State) : (pubPatch g tag l s).pending = s.pending := by
  unfold pubPatch
  split <;> simp [*]
@[simp] theorem noteLate_pending (g tag due : Nat) (s : State) : (noteLate g tag due s).pending = s.pending := by simp [noteLate]
@[simp] theorem finalRelease_pending (g tag : Nat) (cause : SlabCause) (s0 : State) : (finalRelease g tag cause s0).pending = s0.pending := by
  unfold finalRelease
  dsimp only
  (repeat' split) <;> simp [*]
@[simp] theorem checkComplete_pending (g tag : Nat) (s : State) : (checkComplete g tag s).pending = s.pending := by
  unfold checkComplete
  split <;> simp [*]
@[simp] theorem specRelease_pending (g tag : Nat) (s : State) : (specRelease g tag s).pending = s.pending := by simp [specRelease]
@[simp] theorem patchNow_pending (g tag : Nat) (s : State) : (patchNow g tag s).pending = s.pending := by simp [patchNow]
@[simp] theorem closeDecisions_pending (g tag : Nat) (s : State) : (closeDecisions g tag s).pending = s.pending := by
  unfold closeDecisions
  split <;> simp [*]
@[simp] theorem toHistory_pending (g tag : Nat) (s0 : State) : (toHistory g tag s0).pending = s0.pending := by
  unfold toHistory
  dsimp only
  split <;> simp [*]
@[simp] theorem dropSlabs_pending (g : Nat) (tags : List Nat) (s : State) : (dropSlabs g tags s).pending = s.pending := by simp [dropSlabs]
@[simp] theorem trimRing_pending (g n : Nat) (s : State) : (trimRing g n s).pending = s.pending := by
  unfold trimRing
  exact (foldl_pending (fun t e => modSlab_pending _ _ _ _) _ _).trans (dropSlabs_pending _ _ _)
@[simp] theorem deadlineOf_pending (g h : Nat) (v : Stream) (c : GridCfg) (s : State) : (deadlineOf g h v c s).2.pending = s.pending := by
  simp [deadlineOf]
@[simp] theorem freeSlot_pending (g : Nat) (s : State) : (freeSlot g s).pending = s.pending := by simp [freeSlot]
@[simp] theorem openSlab_pending (g tag : Nat) (s0 : State) : (openSlab g tag s0).pending = s0.pending := by
  unfold openSlab
  dsimp only
  rw [bump_pending, modGrid_pending, setSlab_pending]
  refine (foldl_pair_pending (fun t x => ?_) _ _).trans (freeSlot_pending _ _)
  split <;> simp
@[simp] theorem unexpect_pending (g h : Nat) (s : State) : (unexpect g h s).pending = s.pending := by
  unfold unexpect
  refine foldl_pending (fun t x => ?_) _ _
  (repeat' split) <;> simp [*]
@[simp] theorem placeStream_pending (tell : Bool) (h : Nat) (s : State) : (placeStream tell h s).pending = s.pending := by
  unfold placeStream
  split <;> simp [*]
@[simp] theorem leaveGrid_pending (h : Nat) (s : State) : (leaveGrid h s).pending = s.pending := by
  unfold leaveGrid
  cases tget s.aln.streams h with
  | none => rfl
  | some a =>
    exact (pubMemberGrid_pending _ _).trans ((poolCheck_pending _).trans ((gridCheck_pending _ _).trans (unexpect_pending _ _ _)))
@[simp] theorem joinGrid_pending (h rate : Nat) (s : State) : (joinGrid h rate s).pending = s.pending := by
  unfold joinGrid
  split <;> simp [*]
@[simp] theorem syncGrid_pending (h : Nat) (s : State) : (syncGrid h s).pending = s.pending := by
  unfold syncGrid
  dsimp only
  (repeat' split) <;> simp [*]
@[simp] theorem untimed_pending (g tag : Nat) (s : State) : (untimed g tag s).pending = s.pending := by
  unfold untimed
  refine foldl_pending (fun t x => ?_) _ _
  dsimp only
  split
  · rfl
  · split
    · rfl
    · split
      · split <;> split <;> simp
      · split <;> simp
@[simp] theorem writeCells_pending (g tag h : Nat) (cells : List (Nat × Cell)) (v : Slab) (s : State) :
    (writeCells g tag h cells v s).pending = s.pending := by
  simp [writeCells]
@[simp] theorem slabBoundary_pending (g : Nat) (s0 : State) : (slabBoundary g s0).pending = s0.pending := by simp [slabBoundary]
@[simp] theorem landAt_pending (h tag : Nat) (cells : List (Nat × Cell)) (s : State) : (landAt h tag cells s).pending = s.pending := by
  unfold landAt
  dsimp only
  (repeat' split) <;> simp [*]
@[simp] theorem stepRelease_pending (s : State) : (stepRelease s).pending = s.pending := by simp [stepRelease]

/-! ### Temperature readings of Sage inputs -/

@[simp] theorem applyTemp_pending (n : Nat) (temp : Int) (invalid : Bool) (instant : Nat) (s : State) :
    (applyTemp n temp invalid instant s).pending = s.pending := by
  simp [applyTemp]
@[simp] theorem reportTemps_pending (h tag : Nat) (cells : List (Nat × Cell)) (s : State) : (reportTemps h tag cells s).pending = s.pending := by
  unfold reportTemps
  split
  · rfl
  · refine foldl_pending (fun t x => ?_) _ _
    split
    · split <;> simp
    · rfl
@[simp] theorem landReport_pending (h tag : Nat) (cells : List (Nat × Cell)) (s : State) : (landReport h tag cells s).pending = s.pending := by
  simp [landReport]

/-! ### Operations of the capture engine -/

@[simp] theorem capPoolCheck_pending (s : State) : (capPoolCheck s).pending = s.pending := by simp [capPoolCheck]
@[simp] theorem streamItem_pending (c : Nat) (type lane count time : Nat) (data : Bytes) (disc : Bool) (s : State) :
    (streamItem c type lane count time data disc s).pending = s.pending := by
  unfold streamItem
  split
  · rfl
  · split
    · rfl
    · split
      · rfl
      · dsimp only
        split
        next t ht => rw [modCap_pending, ringWrite_pending _ _ _ _ _ ht]
        next => split <;> simp
@[simp] theorem slotMark_pending (c slot : Nat) (m : Mark) (s : State) : (slotMark c slot m s).pending = s.pending := by
  unfold slotMark
  split <;> simp [*]
@[simp] theorem capMark_pending (c : Nat) (m : Mark) (inRec : RecState → Bool) (s : State) : (capMark c m inRec s).pending = s.pending := by
  unfold capMark
  split <;> simp [*]
@[simp] theorem capState_pending (c : Nat) (st : CapState) (s : State) : (capState c st s).pending = s.pending := by
  unfold capState
  split <;> simp [*]
@[simp] theorem sendRemote_pending (level tTrig bound : Nat) (s : State) : (sendRemote level tTrig bound s).pending = s.pending := by
  simp [sendRemote]
@[simp] theorem trigger_pending (c : Nat) (g : Trig) (s0 : State) : (trigger c g s0).pending = s0.pending := by
  unfold trigger
  dsimp only
  (repeat' split) <;> simp_all
@[simp] theorem fireEntry_pending (c e : Nat) (t bound : Nat) (linear predicted : Bool) (alarm : Option Nat) (s : State) :
    (fireEntry c e t bound linear predicted alarm s).pending = s.pending := by
  unfold fireEntry
  split <;> simp [*]
@[simp] theorem capAlarm_pending (num tTrig : Nat) (predicted : Bool) (s : State) : (capAlarm num tTrig predicted s).pending = s.pending := by
  simp [capAlarm]
@[simp] theorem capWithdrawn_pending (num tag : Nat) (s : State) : (capWithdrawn num tag s).pending = s.pending := by simp [capWithdrawn]
@[simp] theorem evalLane_pending (c lane : Nat) (patch : Bool) (now_ : Option Nat) (lag : List Nat) (s0 : State) :
    (evalLane c lane patch now_ lag s0).pending = s0.pending := by
  unfold evalLane
  dsimp only
  (repeat' split) <;> simp [*]
@[simp] theorem writeRow_pending (c lane : Nat) (k : Cap) (r : Nat × List U64) (s : State) : (writeRow c lane k r s).pending = s.pending := by
  simp [writeRow]
@[simp] theorem addTimed_pending (a : TimedAct) (s : State) : (addTimed a s).pending = s.pending := by simp [addTimed]
@[simp] theorem dropTimed_pending (f : TimedKind → Bool) (s : State) : (dropTimed f s).pending = s.pending := by simp [dropTimed]
@[simp] theorem cancelTriggers_pending (s : State) : (cancelTriggers s).pending = s.pending := by
  unfold cancelTriggers
  refine foldl_pending (fun t x => ?_) _ _
  (repeat' split) <;> simp [*]
@[simp] theorem fireTimedEntry_pending (c e : Nat) (t : Nat) (s : State) : (fireTimedEntry c e t s).pending = s.pending := by simp [fireTimedEntry]
@[simp] theorem deviceJob_pending (r : Halga) (fmt : Nat) (bad : Bool) (s : State) : (deviceJob r fmt bad s).pending = s.pending := by
  simp [deviceJob]
@[simp] theorem autoExport_pending (c : Nat) (s : State) : (autoExport c s).pending = s.pending := by
  unfold autoExport
  split
  · rfl
  · split
    · rfl
    · refine foldl_pending (fun t n => ?_) _ _
      split
      · rfl
      · dsimp only
        split
        next => rfl
        next u hu => simp [ringWrite_pending _ _ _ _ _ hu]
@[simp] theorem noteTq_pending (s : State) : (noteTq s).pending = s.pending := by simp [noteTq]
@[simp] theorem capStep_pending (oldNs newNs : Nat) (s : State) : (capStep oldNs newNs s).pending = s.pending := by simp [capStep]

/-! ### Announcement requests of the voice subsystem -/

@[simp] theorem annSkip_pending (ann ch cause : Nat) (s : State) : (annSkip ann ch cause s).pending = s.pending := by simp [annSkip]
@[simp] theorem annRequest_pending (ch : Nat) (r : AnnReq) (s0 : State) : (annRequest ch r s0).pending = s0.pending := by
  unfold annRequest
  dsimp only
  (repeat' split) <;> simp [*]
@[simp] theorem annEntry_pending (e alarm : Nat) (withdraw : Bool) (s : State) : (annEntry e alarm withdraw s).pending = s.pending := by
  unfold annEntry
  split <;> simp [*]
@[simp] theorem annAlarm_pending (num at_ : Nat) (s : State) : (annAlarm num at_ s).pending = s.pending := by simp [annAlarm]
@[simp] theorem annWithdraw_pending (num : Nat) (s : State) : (annWithdraw num s).pending = s.pending := by simp [annWithdraw]
@[simp] theorem annRelease_pending (s : State) : (annRelease s).pending = s.pending := by
  unfold annRelease
  refine foldl_pending (fun t x => ?_) _ _
  (repeat' split) <;> simp [*]

/-! ### The alarm stage -/

@[simp] theorem measureC0_pending (output stage : Nat) (m : C0Meas) (out : Nat) (s : State) :
    (measureC0 output stage m out s).pending = s.pending := by
  simp [measureC0]
@[simp] theorem pinFollow_pending (n : Nat) (s : State) : (pinFollow n s).pending = s.pending := by
  unfold pinFollow
  dsimp only
  (repeat' split) <;> simp [*]
@[simp] theorem stageState_pending (n : Nat) (st : StageState) (alarm : Nat) (s : State) : (stageState n st alarm s).pending = s.pending := by
  simp [stageState]
@[simp] theorem sendAlarm_pending (stage : Nat) (body : Bytes) (launch : Option Nat) (meas : Option C0Meas) (s : State) :
    (sendAlarm stage body launch meas s).2.pending = s.pending := by
  simp [sendAlarm]
@[simp] theorem alarmFrame_pending (kind stage : Nat) (a : AlmInfo) (ev raiseTs flags : Nat) (s : State) :
    (alarmFrame kind stage a ev raiseTs flags s).pending = s.pending := by
  simp [alarmFrame]
@[simp] theorem plainFrame_pending (kind stage ev flags : Nat) (s : State) : (plainFrame kind stage ev flags s).pending = s.pending := by
  simp [plainFrame]
@[simp] theorem sendGoose_pending (n : Nat) (launch : Option Nat) (meas : Option C0Meas) (s : State) :
    (sendGoose n launch meas s).pending = s.pending := by
  unfold sendGoose
  split <;> simp [*]
@[simp] theorem gooseChange_pending (n alarm ev tag : Nat) (questionable mayTime bounded : Bool) (s : State) :
    (gooseChange n alarm ev tag questionable mayTime bounded s).pending = s.pending := by
  unfold gooseChange
  dsimp only
  split <;> simp [*]
@[simp] theorem gooseStart_pending (n : Nat) (s : State) : (gooseStart n s).pending = s.pending := by
  unfold gooseStart
  dsimp only
  split <;> simp [*]
@[simp] theorem gooseStop_pending (n : Nat) (s : State) : (gooseStop n s).pending = s.pending := by simp [gooseStop]
@[simp] theorem countOutput_pending (ev : Nat) (s : State) : (countOutput ev s).pending = s.pending := by simp [countOutput]
@[simp] theorem raisePin_pending (n : Nat) (a : AlmInfo) (s : State) : (raisePin n a s).pending = s.pending := by
  unfold raisePin
  split <;> simp [*]
@[simp] theorem raiseGoose_pending (n : Nat) (a : AlmInfo) (s : State) : (raiseGoose n a s).pending = s.pending := by simp [raiseGoose]
@[simp] theorem raiseOn_pending (n : Nat) (a : AlmInfo) (s0 : State) : (raiseOn n a s0).pending = s0.pending := by
  unfold raiseOn
  dsimp only
  split <;> simp [*]
@[simp] theorem raiseNow_pending (a : AlmInfo) (s : State) : (raiseNow a s).pending = s.pending := by simp [raiseNow]
@[simp] theorem clearOn_pending (n : Nat) (a : AlmInfo) (s0 : State) : (clearOn n a s0).pending = s0.pending := by
  unfold clearOn
  dsimp only
  split <;> simp [*]
@[simp] theorem clearNow_pending (a : AlmInfo) (s : State) : (clearNow a s).pending = s.pending := by simp [clearNow]
@[simp] theorem withdrawNow_pending (a : AlmInfo) (raiseTs : Nat) (still : Bool) (s : State) :
    (withdrawNow a raiseTs still s).pending = s.pending := by
  simp [withdrawNow]
@[simp] theorem actNow_pending (x : StageAct) (s : State) : (actNow x s).pending = s.pending := by
  unfold actNow
  split <;> simp [*]
@[simp] theorem stageAct_pending (x : StageAct) (s : State) : (stageAct x s).pending = s.pending := by
  unfold stageAct
  split <;> simp [*]
@[simp] theorem stageRaise_pending (a : AlmInfo) (s : State) : (stageRaise a s).pending = s.pending := by simp [stageRaise]
@[simp] theorem stageClear_pending (a : AlmInfo) (s : State) : (stageClear a s).pending = s.pending := by simp [stageClear]
@[simp] theorem stageWithdraw_pending (a : AlmInfo) (raiseTs : Nat) (still : Bool) (s : State) :
    (stageWithdraw a raiseTs still s).pending = s.pending := by
  simp [stageWithdraw]
@[simp] theorem inTurn_pending (f : State → State) (s : State) (hf : ∀ x0, (f x0).pending = x0.pending) : (inTurn f s).pending = s.pending := by
  simp [inTurn, hf]

/-! ### The coherency clusterer -/

@[simp] theorem clearAlarm_pending (c i cause tag ev : Nat) (value bound : U32) (s : State) :
    (clearAlarm c i cause tag ev value bound s).pending = s.pending := by
  unfold clearAlarm
  split <;> simp [*]
@[simp] theorem freeCluster_pending (c islandCause tag ev : Nat) (s : State) : (freeCluster c islandCause tag ev s).pending = s.pending := by
  simp [freeCluster]
theorem takeNumber_pending (s : State) {t} (h : takeNumber s = some t) : t.2.pending = s.pending := by
  unfold takeNumber at h
  (repeat' split at h) <;> cases h <;> rfl
@[simp] theorem formGroups_pending (g : Nat) (cfg : CluCfg) (ks : List Nat) (tag : Nat)
    (a0 : Nat) (a1 : List Nat) (a2 : Tbl Nat) (a3 : Bool) (a4 : State) :
    (formGroups g cfg ks tag a0 a1 a2 a3 a4).2.2.pending = a4.pending := by
  fun_induction formGroups g cfg ks tag a0 a1 a2 a3 a4 with
  | case5 _ _ _ _ _ s _ _ _ c s1 hc v s2 s3 ih =>
    rw [ih]
    have hs : s1.pending = s.pending := takeNumber_pending s hc
    simp [s3, s2, hs]
  | _ => simp_all
@[simp] theorem freeEmpty_pending (memb : Tbl Nat) (tag ev : Nat) (s : State) : (freeEmpty memb tag ev s).pending = s.pending := by simp [freeEmpty]
@[simp] theorem mergeClusters_pending (g : Nat) (cfg : CluCfg) (ks : List Nat) (tag ev : Nat) (memb0 : Tbl Nat) (s0 : State) :
    (mergeClusters g cfg ks tag ev memb0 s0).2.pending = s0.pending := by
  unfold mergeClusters
  refine foldl_pair_pending (fun t x => ?_) _ _
  dsimp only
  split
  · split <;> simp
  · rfl
@[simp] theorem raiseEvt_pending (i c members ev : Nat) (value : U32) (predicted : Bool) (s : State) :
    (raiseEvt i c members ev value predicted s).pending = s.pending := by
  unfold raiseEvt
  dsimp only
  split <;> simp [*]
@[simp] theorem raiseAlarm_pending (i c members tag ev : Nat) (value bound : U32) (predicted : Bool) (s : State) :
    (raiseAlarm i c members tag ev value bound predicted s).pending = s.pending := by
  unfold raiseAlarm
  split <;> simp [*]
@[simp] theorem withdrawAlarm_pending (g i c tag handle : Nat) (d : Decision) (value bound : U32) (s : State) :
    (withdrawAlarm g i c tag handle d value bound s).pending = s.pending := by
  simp [withdrawAlarm]
@[simp] theorem decide1_pending (g : Nat) (cfg : CluCfg) (det : DetCfg) (memb : Tbl Nat) (i c r tag ev : Nat) (late : List Nat) (s : State) :
    (decide1 g cfg det memb i c r tag ev late s).pending = s.pending := by
  unfold decide1
  dsimp only
  (repeat' split) <;> simp [*]
@[simp] theorem decideSlab_pending (g tag rel ev : Nat) (late : List Nat) (s : State) : (decideSlab g tag rel ev late s).pending = s.pending := by
  unfold decideSlab
  (repeat' split) <;> simp [*]
@[simp] theorem judgeClear_pending (g : Nat) (cfg : CluCfg) (det : DetCfg) (memb : Tbl Nat) (i c r tag ev : Nat) (s : State) :
    (judgeClear g cfg det memb i c r tag ev s).pending = s.pending := by
  unfold judgeClear
  (repeat' split) <;> simp [*]
@[simp] theorem blindClear_pending (det : DetCfg) (c tag ev : Nat) (s : State) : (blindClear det c tag ev s).pending = s.pending := by
  unfold blindClear
  dsimp only
  (repeat' split) <;> simp [*]
@[simp] theorem computeMembership_pending (g : Nat) (cfg : CluCfg) (tag ev : Nat) (s : State) :
    (computeMembership g cfg tag ev s).pending = s.pending := by
  simp [computeMembership]
@[simp] theorem noteRef_pending (g tag : Nat) (memb : Tbl Nat) (s : State) : (noteRef g tag memb s).pending = s.pending := by simp [noteRef]
@[simp] theorem noteClusters_pending (g : Nat) (cfg : CluCfg) (det : DetCfg) (tag : Nat) (memb : Tbl Nat) (s0 : State) :
    (noteClusters g cfg det tag memb s0).pending = s0.pending := by
  unfold noteClusters
  refine foldl_pending (fun t x => ?_) _ _
  (repeat' split) <;> simp [*]
@[simp] theorem noteTopology_pending (g tag : Nat) (memb : Tbl Nat) (s : State) : (noteTopology g tag memb s).pending = s.pending := by
  unfold noteTopology
  refine foldl_pending (fun t x => ?_) _ _
  (repeat' split) <;> simp [*]
@[simp] theorem dropMemb_pending (g : Nat) (s : State) : (dropMemb g s).pending = s.pending := by simp [dropMemb]
@[simp] theorem clusterEvaluate_pending (g tag : Nat) (v : Slab) (s0 : State) : (clusterEvaluate g tag v s0).pending = s0.pending := by
  unfold clusterEvaluate
  dsimp only
  (repeat' split) <;> simp [*]

/-! ### The commands and events of coherency clustering, islanding and the alarm stage -/

@[simp] theorem newSettings_pending (cfg : CluCfg) (det : DetCfg) (s : State) : (newSettings cfg det s).pending = s.pending := by simp [newSettings]
@[simp] theorem execClusterConfig_waiting (h : Hdr) (p : ClusterConfigP) (s : State) : waiting (execClusterConfig h p s) = s.pending := by
  simp [execClusterConfig]
@[simp] theorem execBusSignalAdd_waiting (h : Hdr) (p : BusSignalP) (s : State) : waiting (execBusSignalAdd h p s) = s.pending := by
  simp [execBusSignalAdd]
@[simp] theorem execBusSignalRemove_waiting (h : Hdr) (p : BusSignalP) (s : State) : waiting (execBusSignalRemove h p s) = s.pending := by
  simp [execBusSignalRemove]
@[simp] theorem execClusterRef_waiting (h : Hdr) (p : ClusterRefP) (s : State) : waiting (execClusterRef h p s) = s.pending := by
  simp [execClusterRef]
@[simp] theorem execBreakerMapAdd_waiting (h : Hdr) (p : BreakerMapP) (s : State) : waiting (execBreakerMapAdd h p s) = s.pending := by
  unfold execBreakerMapAdd
  refine vci_pending _ _ _ _ _ (fun t => ?_)
  (repeat' split) <;> simp [*]
@[simp] theorem execBreakerMapRemove_waiting (h : Hdr) (p : BreakerMapP) (s : State) : waiting (execBreakerMapRemove h p s) = s.pending := by
  simp [execBreakerMapRemove]
@[simp] theorem execDetectorConfig_waiting (h : Hdr) (p : DetectorConfigP) (s : State) : waiting (execDetectorConfig h p s) = s.pending := by
  simp [execDetectorConfig]
@[simp] theorem execClusterEvaluation_waiting (tag : U64) (s : State) : waiting (execClusterEvaluation tag s) = s.pending := by
  unfold execClusterEvaluation
  dsimp only [waiting]
  (repeat' split) <;> simp [*]
@[simp] theorem execAlarmMapSet_waiting (h : Hdr) (p : AlarmMapP) (s : State) : waiting (execAlarmMapSet h p s) = s.pending := by
  simp [execAlarmMapSet]
@[simp] theorem execAlarmMapRemove_waiting (h : Hdr) (p : AlarmMapP) (s : State) : waiting (execAlarmMapRemove h p s) = s.pending := by
  simp [execAlarmMapRemove]
@[simp] theorem execAlarmStage_waiting (h : Hdr) (p : AlarmStageP) (s : State) : waiting (execAlarmStage h p s) = s.pending := by
  simp [execAlarmStage]
@[simp] theorem ackOn_pending (n : Nat) (s : State) : (ackOn n s).pending = s.pending := by
  unfold ackOn
  split <;> simp [*]
@[simp] theorem execAlarmAck_waiting (h : Hdr) (p : AlarmAckP) (s : State) : waiting (execAlarmAck h p s) = s.pending := by simp [execAlarmAck]
@[simp] theorem execAlarmTestForce_waiting (h : Hdr) (p : AlarmTestP) (s : State) : waiting (execAlarmTestForce h p s) = s.pending := by
  simp [execAlarmTestForce]
@[simp] theorem endTest_pending (n : Nat) (s : State) : (endTest n s).pending = s.pending := by simp [endTest]
@[simp] theorem execAlarmTestRelease_waiting (h : Hdr) (p : AlarmTestP) (s : State) : waiting (execAlarmTestRelease h p s) = s.pending := by
  simp [execAlarmTestRelease]
@[simp] theorem execAlarmTestExpiry_waiting (stage : BitVec 4) (s : State) : waiting (execAlarmTestExpiry stage s) = s.pending := by
  unfold execAlarmTestExpiry
  dsimp only [waiting]
  (repeat' split) <;> simp [*]
@[simp] theorem execPinMinOnExpiry_waiting (stage : BitVec 4) (s : State) : waiting (execPinMinOnExpiry stage s) = s.pending := by
  simp [execPinMinOnExpiry]
@[simp] theorem execAlarmFrameConfig_waiting (h : Hdr) (p : AlarmFrameConfigP) (s : State) : waiting (execAlarmFrameConfig h p s) = s.pending := by
  simp [execAlarmFrameConfig]
@[simp] theorem execAlarmGooseConfig_waiting (h : Hdr) (p : AlarmGooseConfigP) (s : State) : waiting (execAlarmGooseConfig h p s) = s.pending := by
  simp [execAlarmGooseConfig]
@[simp] theorem sendRepeats_pending (n : Nat) (a0 : List Repeat) (a1 : State) : (sendRepeats n a0 a1).2.pending = a1.pending := by
  fun_induction sendRepeats n a0 a1 <;> simp_all +zetaDelta
@[simp] theorem execAlarmFrameRepeat_waiting (stage : BitVec 4) (s : State) : waiting (execAlarmFrameRepeat stage s) = s.pending := by
  simp [execAlarmFrameRepeat]
@[simp] theorem execAlarmStateRefresh_waiting (stage : BitVec 4) (s : State) : waiting (execAlarmStateRefresh stage s) = s.pending := by
  simp [execAlarmStateRefresh]
@[simp] theorem execGooseRetransmit_waiting (stage : BitVec 4) (s : State) : waiting (execGooseRetransmit stage s) = s.pending := by
  unfold execGooseRetransmit
  dsimp only [waiting]
  (repeat' split) <;> simp [*]
@[simp] theorem execAlarmFrameRx_waiting (f : AlarmRx) (s : State) : waiting (execAlarmFrameRx f s) = s.pending := by simp [execAlarmFrameRx]

/-! ### The oscillation screen, the estimators' slots, modes and their alarm conditions -/

@[simp] theorem deviation_pending (kind : Nat) (v m : Scale) (s : State) : (deviation kind v m s).2.pending = s.pending := by
  unfold deviation
  split <;> simp [*]
@[simp] theorem underSlab_pending (g tag : Nat) (f : State → State) (s : State) (hf : ∀ x0, (f x0).pending = x0.pending) :
    (underSlab g tag f s).pending = s.pending := by
  simp [underSlab, hf]
@[simp] theorem newOscSet_pending (o : OscSet) (s : State) : (newOscSet o s).pending = s.pending := by simp [newOscSet]
@[simp] theorem oscCleared_pending (num cause tag ev : Nat) (value : U32) (s : State) :
    (oscCleared num cause tag ev value s).pending = s.pending := by
  simp [oscCleared]
@[simp] theorem dropModes_pending (s : State) : (dropModes s).pending = s.pending := by simp [dropModes]
@[simp] theorem endMode_pending (m : Nat) (s : State) : (endMode m s).pending = s.pending := by
  unfold endMode
  split <;> simp [*]
@[simp] theorem freeEst_pending (n : Nat) (cause : Option Nat) (s : State) : (freeEst n cause s).pending = s.pending := by
  unfold freeEst
  (repeat' split) <;> simp [*]
@[simp] theorem noteFlags_pending (ch : Nat) (old new : BitVec 6) (tag : Nat) (s : State) : (noteFlags ch old new tag s).pending = s.pending := by
  unfold noteFlags
  dsimp only
  split <;> simp [*]
@[simp] theorem assignSlot_pending (n ch band g tag : Nat) (watched : Bool) (s : State) :
    (assignSlot n ch band g tag watched s).pending = s.pending := by
  simp [assignSlot]
@[simp] theorem oscResetChan_pending (ch : Nat) (s : State) : (oscResetChan ch s).pending = s.pending := by
  unfold oscResetChan
  dsimp only
  (repeat' split) <;> simp [*]
@[simp] theorem oscResetStream_pending (h : Nat) (s : State) : (oscResetStream h s).pending = s.pending := by simp [oscResetStream]
@[simp] theorem oscMoveGrid_pending (h g : Nat) (s : State) : (oscMoveGrid h g s).pending = s.pending := by
  unfold oscMoveGrid
  refine foldl_pending (fun t x => ?_) _ _
  split
  · dsimp only
    split <;> simp
  · rfl
@[simp] theorem oscLostStream_pending (h cause : Nat) (s : State) : (oscLostStream h cause s).pending = s.pending := by
  unfold oscLostStream
  refine foldl_pending (fun t x => ?_) _ _
  (repeat' split) <;> simp [*]
@[simp] theorem oscCfgHook_pending (h : Nat) (old : List ChanDesc) (oldGrid : Option Nat) (s : State) :
    (oscCfgHook h old oldGrid s).pending = s.pending := by
  unfold oscCfgHook
  dsimp only
  (repeat' split) <;> simp [*]
@[simp] theorem conditioned_pending (kind rate : Nat) (v : U32) (m : Option U32) (s : State) :
    (conditioned kind rate v m s).2.2.pending = s.pending := by
  unfold conditioned
  split <;> simp [*]
@[simp] theorem screenChan_pending (g tag ch kind : Nat) (s0 : State) : (screenChan g tag ch kind s0).pending = s0.pending := by
  unfold screenChan
  dsimp only
  (repeat' split) <;> simp [*]
@[simp] theorem patchChan_pending (g tag ch kind : Nat) (s : State) : (patchChan g tag ch kind s).pending = s.pending := by
  unfold patchChan
  dsimp only
  (repeat' split) <;> simp [*]
@[simp] theorem rankGo_pending (tag : Nat) (a0 : List (Nat × Nat × Int)) (a1 : State) : (rankGo tag a0 a1).2.pending = a1.pending := by
  fun_induction rankGo tag a0 a1 <;> simp [*]
@[simp] theorem rankWatched_pending (tag : Nat) (s : State) : (rankWatched tag s).pending = s.pending := by
  unfold rankWatched
  refine foldl_pending (fun t x => ?_) _ _
  dsimp only
  (repeat' split) <;> simp
@[simp] theorem rankPass_pending (tag : Nat) (s : State) : (rankPass tag s).pending = s.pending := by simp [rankPass]
@[simp] theorem modelMode_pending (b rate : Nat) (m : EstModel) (s : State) : (modelMode b rate m s).2.2.pending = s.pending := by
  unfold modelMode
  dsimp only
  (repeat' split) <;> simp_all
@[simp] theorem estResult_pending (v : EstSlot) (kind tag : Nat) (skip : Bool) (s0 : State) :
    (estResult v kind tag skip s0).2.2.pending = s0.pending := by
  unfold estResult
  split <;> simp [*]
@[simp] theorem ampCondition_pending (n tag : Nat) (s : State) : (ampCondition n tag s).pending = s.pending := by
  unfold ampCondition
  split <;> simp [*]
@[simp] theorem estOutput_pending (n tag : Nat) (s : State) : (estOutput n tag s).pending = s.pending := by
  unfold estOutput
  split
  · rfl
  · refine foldl_pending (fun t e => ?_) _ _
    split
    · split
      · rfl
      · split
        next u hu => exact ringWrite_pending _ _ _ _ _ hu
        next => simp
    · rfl
@[simp] theorem writeMode_pending (m g tag : Nat) (grp : List Nat) (s0 : State) : (writeMode m g tag grp s0).pending = s0.pending := by
  unfold writeMode
  dsimp only
  refine (foldl_pending (fun t x => modSlot_pending _ _ _) _ _).trans ?_
  split <;> simp
@[simp] theorem placeGroups_pending (g tag : Nat) (a0 : List (List Nat)) (a1 : List Nat) (a2 : State) :
    (placeGroups g tag a0 a1 a2).2.pending = a2.pending := by
  induction a0 generalizing a1 a2 with
  | nil => rfl
  | cons grp t ih =>
    unfold placeGroups
    split
    · rw [ih, writeMode_pending]
    · split
      · rw [ih, writeMode_pending]
      · dsimp only
        rw [ih, raise_pending, bump_pending, foldl_pending (fun u n => modSlot_pending n _ u)]
@[simp] theorem oscClassify_pending (m tag : Nat) (s : State) : (oscClassify m tag s).pending = s.pending := by
  unfold oscClassify
  split <;> simp [*]
@[simp] theorem modeAlarms_pending (m tag : Nat) (s : State) : (modeAlarms m tag s).pending = s.pending := by
  unfold modeAlarms
  split <;> simp [*]
@[simp] theorem trackBranches_pending (g : Nat) (s : State) : (trackBranches g s).pending = s.pending := by simp [trackBranches]
@[simp] theorem flowBranches_pending (g tag : Nat) (s : State) : (flowBranches g tag s).pending = s.pending := by simp [flowBranches]
@[simp] theorem wholeSecond_pending (g tag : Nat) (s : State) : (wholeSecond g tag s).pending = s.pending := by
  unfold wholeSecond
  dsimp only
  rw [foldl_pending (fun t m => modeAlarms_pending m tag t), trackBranches_pending,
    foldl_pending (fun t m => oscClassify_pending m tag t), dropModes_pending, foldl_pending, placeGroups_pending]
  intro t m
  split <;> simp

/-! ### Operations of stream ingest -/

@[simp] theorem sendCommand_pending (h cmd : Nat) (s : State) : (sendCommand h cmd s).pending = s.pending := by
  unfold sendCommand
  split <;> simp [*]
@[simp] theorem sendStart_pending (h : Nat) (start : U8) (s : State) : (sendStart h start s).pending = s.pending := by simp [sendStart]
@[simp] theorem applyCfg_pending (h : Nat) (c : C37Cfg) (tag : Nat) (s : State) : (applyCfg h c tag s).pending = s.pending := by
  unfold applyCfg
  split <;> simp [*]
@[simp] theorem rollSecond_pending (s : State) : (rollSecond s).pending = s.pending := by simp [rollSecond]
@[simp] theorem acceptAt_pending (h tag at_ : Nat) (cells : List (Nat × Cell)) (s0 : State) :
    (acceptAt h tag at_ cells s0).pending = s0.pending := by
  unfold acceptAt
  dsimp only
  split <;> simp [*]
@[simp] theorem acceptReport_pending (h tag at_ : Nat) (cells : List Cell) (s : State) : (acceptReport h tag at_ cells s).pending = s.pending := by
  simp [acceptReport]
@[simp] theorem popC37_pending (k : Nat) (data : Bool) (s : State) : (popC37 k data s).pending = s.pending := by simp [popC37]
@[simp] theorem readEntry_pending (k : Nat) (key : StreamKey) (e : EccRead) (s : State) : (readEntry k key e s).pending = s.pending := by
  unfold readEntry
  split <;> simp [*]
@[simp] theorem streamPrp_pending (h : Nat) (hd : C37Head) (s : State) : (streamPrp h hd s).2.pending = s.pending := by
  unfold streamPrp
  split <;> simp [*]
@[simp] theorem countMal_pending (h : Nat) (s : State) : (countMal h s).pending = s.pending := by simp [countMal]
@[simp] theorem c37Sound_pending (h : Nat) (hd : C37Head) (reserved : Bool) (s : State) : (c37Sound h hd reserved s).2.pending = s.pending := by
  simp [c37Sound]
@[simp] theorem unknownC37_pending (hd : C37Head) (typ : Nat) (s : State) : (unknownC37 hd typ s).pending = s.pending := by
  unfold unknownC37
  split <;> simp [*]
@[simp] theorem c37Stage_pending (hd : C37Head) (typ : Nat) (s0 : State) : (c37Stage hd typ s0).2.pending = s0.pending := by
  unfold c37Stage
  dsimp only
  split <;> simp [*]

/-! ### The commands and events of the Clover aligner -/

@[simp] theorem shrink_pending (g windowMs : Nat) (s : State) : (shrink g windowMs s).pending = s.pending := by simp [shrink]
@[simp] theorem execGridConfig_waiting (h : Hdr) (p : GridConfigP) (s : State) : waiting (execGridConfig h p s) = s.pending := by
  simp [execGridConfig]
@[simp] theorem execPubAdd_waiting (h : Hdr) (p : PubAddP) (s : State) : waiting (execPubAdd h p s) = s.pending := by
  unfold execPubAdd
  refine vci_pending _ _ _ _ _ (fun t => ?_)
  (repeat' split) <;> simp [*]
@[simp] theorem execPubChange_waiting (h : Hdr) (p : PubChangeP) (s : State) : waiting (execPubChange h p s) = s.pending := by
  unfold execPubChange
  refine vci_pending _ _ _ _ _ (fun t => ?_)
  (repeat' split) <;> simp [*]
@[simp] theorem execPubRetire_waiting (h : Hdr) (p : PubRetireP) (s : State) : waiting (execPubRetire h p s) = s.pending := by simp [execPubRetire]
@[simp] theorem execSlabOpen_waiting (grid : BitVec 5) (s : State) : waiting (execSlabOpen grid s) = s.pending := by simp [execSlabOpen]
@[simp] theorem execSpeculativeRelease_waiting (grid : BitVec 5) (tag : U64) (s : State) :
    waiting (execSpeculativeRelease grid tag s) = s.pending := by
  unfold execSpeculativeRelease
  dsimp only [waiting]
  (repeat' split) <;> simp [*]
@[simp] theorem execDeadlineRelease_waiting (grid : BitVec 5) (tag : U64) (s : State) : waiting (execDeadlineRelease grid tag s) = s.pending := by
  unfold execDeadlineRelease
  dsimp only [waiting]
  (repeat' split) <;> simp [*]
@[simp] theorem execPatchRelease_waiting (grid : BitVec 5) (tag : U64) (s : State) : waiting (execPatchRelease grid tag s) = s.pending := by
  unfold execPatchRelease
  dsimp only [waiting]
  (repeat' split) <;> simp [*]
@[simp] theorem execSlabHistory_waiting (grid : BitVec 5) (tag : U64) (s : State) : waiting (execSlabHistory grid tag s) = s.pending := by
  unfold execSlabHistory
  dsimp only [waiting]
  (repeat' split) <;> simp [*]
@[simp] theorem pubSent_pending (n : Nat) (p : Pub) (t : Nat) (s : State) (st : Sts) (s2 : State) :
    (pubSent n p t s st s2).pending = s2.pending := by
  simp [pubSent]
@[simp] theorem execPubFrameBuild_waiting (pub : U16) (tag : U64) (s : State) : waiting (execPubFrameBuild pub tag s) = s.pending := by
  unfold execPubFrameBuild
  dsimp only [waiting]
  (repeat' split) <;> simp [*]

/-! ### Operations of the Sage front end -/

@[simp] theorem mpState_pending (m : Nat) (st : MpState) (cause : SgCause) (s : State) : (mpState m st cause s).pending = s.pending := by
  simp [mpState]
@[simp] theorem beginSupp_pending (m start : Nat) (cause : SgCause) (boot : Bool) (s : State) :
    (beginSupp m start cause boot s).pending = s.pending := by
  simp [beginSupp]
@[simp] theorem endSupp_pending (m last : Nat) (s : State) : (endSupp m last s).pending = s.pending := by simp [endSupp]
@[simp] theorem unsettle_pending (n untilTs : Nat) (cause : SgCause) (s : State) : (unsettle n untilTs cause s).pending = s.pending := by
  simp [unsettle]
@[simp] theorem settleFrom_pending (m start : Nat) (cause : SgCause) (s : State) : (settleFrom m start cause s).pending = s.pending := by
  simp [settleFrom]
@[simp] theorem toAcquire_pending (n : Nat) (s : State) : (toAcquire n s).pending = s.pending := by simp [toAcquire]
@[simp] theorem restartInput_pending (v : SgMp) (cause : SgCause) (n : Nat) (s : State) : (restartInput v cause n s).pending = s.pending := by
  simp [restartInput]
@[simp] theorem chainRestart_pending (m : Nat) (cause : SgCause) (s : State) : (chainRestart m cause s).pending = s.pending := by
  simp [chainRestart]
@[simp] theorem chainOff_pending (m : Nat) (s : State) : (chainOff m s).pending = s.pending := by simp [chainOff]
@[simp] theorem sageStep_pending (delta : Int) (s : State) : (sageStep delta s).pending = s.pending := by simp [sageStep]

/-! ### The commands and events of stream ingest -/

theorem enterDir_pending (h : Nat) (v : Stream) (s : State) {t} (h : enterDir h v s = some t) : t.pending = s.pending := by
  obtain ⟨t, -, rfl⟩ := Option.map_eq_some_iff.1 h
  rw [bumpIf_pending]
@[simp] theorem beginRebuild_pending (s : State) : (beginRebuild s).pending = s.pending := by simp [beginRebuild]
@[simp] theorem execStreamAdd_waiting (h : Hdr) (p : StreamAddP) (s : State) : waiting (execStreamAdd h p s) = s.pending := by
  unfold execStreamAdd
  refine vci_pending _ _ _ _ _ (fun t => ?_)
  dsimp only
  split
  · split
    · simp
    · next t1 h1 => simp [← enterDir_pending _ _ _ h1]
  · simp
@[simp] theorem execStreamChange_waiting (h : Hdr) (p : StreamChangeP) (s : State) : waiting (execStreamChange h p s) = s.pending := by
  unfold execStreamChange
  refine vci_pending _ _ _ _ _ (fun t => ?_)
  dsimp only
  (repeat' split) <;> simp [*]
@[simp] theorem beginRetire_pending (n : Nat) (id : Option Nat) (s : State) : (beginRetire n id s).pending = s.pending := by
  unfold beginRetire
  split <;> simp [*]
@[simp] theorem execStreamRetire_waiting (h : Hdr) (p : StreamRetireP) (s : State) : waiting (execStreamRetire h p s) = s.pending := by
  unfold execStreamRetire
  refine vci_pending _ _ _ _ _ (fun t => ?_)
  dsimp only
  (repeat' split) <;> simp [*]
@[simp] theorem freeStream_pending (n : Nat) (s : State) : (freeStream n s).pending = s.pending := by
  unfold freeStream
  split <;> simp [*]
@[simp] theorem execStreamRetired_waiting (handle : U32) (s : State) : waiting (execStreamRetired handle s) = s.pending := by
  unfold execStreamRetired
  dsimp only [waiting]
  (repeat' split) <;> simp [*]
@[simp] theorem execStreamCfgAccept_waiting (h : Hdr) (p : StreamCfgAcceptP) (s : State) : waiting (execStreamCfgAccept h p s) = s.pending := by
  unfold execStreamCfgAccept
  refine vci_pending _ _ _ _ _ (fun t => ?_)
  (repeat' split) <;> simp [*]
@[simp] theorem execStreamRequest_waiting (h : Hdr) (p : StreamRequestP) (s : State) : waiting (execStreamRequest h p s) = s.pending := by
  simp [execStreamRequest]
@[simp] theorem checkSilent_pending (n : Nat) (s : State) : (checkSilent n s).pending = s.pending := by
  unfold checkSilent
  dsimp only
  (repeat' split) <;> simp [*]
@[simp] theorem execIngestConfig_waiting (h : Hdr) (p : IngestConfigP) (s : State) : waiting (execIngestConfig h p s) = s.pending := by
  simp [execIngestConfig]
@[simp] theorem execStreamSilent_waiting (handle : U32) (s : State) : waiting (execStreamSilent handle s) = s.pending := by simp [execStreamSilent]
@[simp] theorem parseReport_pending (n at_ : Nat) (f : C37Data) (c : C37Cfg) (snap : Option Nat) (s : State) :
    (parseReport n at_ f c snap s).pending = s.pending := by
  unfold parseReport
  split <;> simp [*]
@[simp] theorem parseData_pending (n at_ : Nat) (f : C37Data) (c : C37Cfg) (newCfg : Bool) (s : State) :
    (parseData n at_ f c newCfg s).pending = s.pending := by
  simp [parseData]
theorem c37Match_pending {hd : C37Head} {typ : Nat} {g : Nat → State → State} (hg : ∀ n t, (g n t).pending = t.pending) (s : State) :
    (if c37Held s hd typ then s else match c37Stage hd typ s with
      | (none, s1) => s1
      | (some n, s1) => g n s1).pending = s.pending := by
  have hc := c37Stage_pending hd typ s
  split
  · rfl
  · split <;> simp_all
@[simp] theorem execC37DataFrame_waiting (f : C37Data) (s : State) : waiting (execC37DataFrame f s) = s.pending := by
  refine c37Match_pending (fun n t => ?_) s
  split
  · rfl
  · split
    · exact setStream_pending _ _ _
    · exact setStream_pending _ _ _
    · exact setStream_pending _ _ _
    · split <;> simp
@[simp] theorem takeCfg_pending (n : Nat) (c : C37Cfg) (s : State) : (takeCfg n c s).pending = s.pending := by
  unfold takeCfg
  dsimp only
  (repeat' split) <;> simp [*]
@[simp] theorem joinCfg_pending (n idx bytes : Nat) (c : C37Cfg) (s : State) : (joinCfg n idx bytes c s).pending = s.pending := by
  unfold joinCfg
  split <;> simp [*]
@[simp] theorem execC37CfgFrame_waiting (f : C37CfgFrame) (s : State) : waiting (execC37CfgFrame f s) = s.pending := by
  refine c37Match_pending (fun n t => ?_) s
  split <;> simp
@[simp] theorem execC37HeaderFrame_waiting (f : C37Header) (s : State) : waiting (execC37HeaderFrame f s) = s.pending := by
  refine c37Match_pending (fun n t => ?_) s
  split <;> simp
@[simp] theorem pubCommand_pending (n : Nat) (p : Pub) (cmd : Nat) (s : State) : (pubCommand n p cmd s).pending = s.pending := by
  unfold pubCommand
  split <;> simp [*]
@[simp] theorem execC37CommandFrame_waiting (f : C37Command) (s0 : State) : waiting (execC37CommandFrame f s0) = s0.pending := by
  unfold execC37CommandFrame
  dsimp only [waiting]
  (repeat' split) <;> simp [*]
@[simp] theorem execTcpLinkDown_waiting (handle : U32) (s : State) : waiting (execTcpLinkDown handle s) = s.pending := by
  unfold execTcpLinkDown
  dsimp only [waiting]
  (repeat' split) <;> simp [*]
@[simp] theorem execTcpReconnect_waiting (handle : U32) (s : State) : waiting (execTcpReconnect handle s) = s.pending := by simp [execTcpReconnect]
@[simp] theorem execTcpConnected_waiting (handle : U32) (s : State) : waiting (execTcpConnected handle s) = s.pending := by
  unfold execTcpConnected
  dsimp only [waiting]
  (repeat' split) <;> simp [*]
@[simp] theorem execDirectoryRebuilt_waiting (s : State) : waiting (execDirectoryRebuilt s) = s.pending := by
  unfold execDirectoryRebuilt
  dsimp only [waiting]
  (repeat' split) <;> simp [*]
@[simp] theorem execDirectoryEntryRewrite_waiting (handle : U32) (s : State) : waiting (execDirectoryEntryRewrite handle s) = s.pending := by
  simp [execDirectoryEntryRewrite]

/-! ### Operations of the Cornflower coordinator -/

@[simp] theorem mapSwitch_pending (n : Nat) (s : State) : (mapSwitch n s).pending = s.pending := by
  unfold mapSwitch
  split <;> simp [*]
@[simp] theorem runSeq_pending (idx : Nat) (frame : Bytes) (s : State) : (runSeq idx frame s).pending = s.pending := by
  unfold runSeq
  (repeat' split) <;> simp [*]
@[simp] theorem launchFrame_pending (frame : Bytes) (s : State) : (launchFrame frame s).pending = s.pending := by simp [launchFrame]
@[simp] theorem cfOff_pending (s : State) : (cfOff s).pending = s.pending := by simp [cfOff]
@[simp] theorem startUp_pending (s : State) : (startUp s).pending = s.pending := by simp [startUp]
@[simp] theorem enterStarting_pending (s : State) : (enterStarting s).pending = s.pending := by simp [enterStarting]
@[simp] theorem startFails_pending (s : State) : (startFails s).pending = s.pending := by simp [startFails]
@[simp] theorem beaconFailed_pending (cause : Nat) (s : State) : (beaconFailed cause s).pending = s.pending := by simp [beaconFailed]
@[simp] theorem closeNode_pending (k : Nat) (s : State) : (closeNode k s).pending = s.pending := by simp [closeNode]
@[simp] theorem rekeyDue_pending (k : Nat) (s : State) : (rekeyDue k s).pending = s.pending := by
  unfold rekeyDue
  split <;> simp [*]
@[simp] theorem nodeEvent_pending (k : Nat) (v : Node) (s : State) : (nodeEvent k v s).pending = s.pending := by
  unfold nodeEvent
  dsimp only
  split <;> simp [*]
@[simp] theorem nodeEvents_pending (no : Nat) (s : State) : (nodeEvents no s).pending = s.pending := by simp [nodeEvents]
@[simp] theorem beaconKey_pending (n : Nat) (s : State) : (beaconKey n s).pending = s.pending := by
  unfold beaconKey
  dsimp only
  split <;> simp [*]
@[simp] theorem outRecord_pending (k : Nat) (v : Node) (typ : Byte) (body : Bytes) (ts : Nat) (s : State) :
    (outRecord k v typ body ts s).pending = s.pending := by
  unfold outRecord
  dsimp only
  split
  · simp
  · split
    next t ht => exact ringWrite_pending _ _ _ _ _ ht
    next => simp
@[simp] theorem nodeReading_pending (k sensor : Nat) (value : U32) (instant : Nat) (s : State) :
    (nodeReading k sensor value instant s).pending = s.pending := by
  unfold nodeReading
  dsimp only
  (repeat' split) <;> simp [*]
@[simp] theorem takeRecords_pending (k : Nat) (v : Node) (ts : Nat) (a0 : Nat) (a1 : Bytes) (a2 : State) :
    (takeRecords k v ts a0 a1 a2).pending = a2.pending := by
  fun_induction takeRecords k v ts a0 a1 a2 <;> simp_all +zetaDelta
@[simp] theorem dropDl_pending (k : Nat) (s : State) : (dropDl k s).pending = s.pending := by
  unfold dropDl
  split <;> simp [*]
@[simp] theorem retireNodeStream_pending (k : Nat) (v : Node) (s : State) : (retireNodeStream k v s).pending = s.pending := by
  unfold retireNodeStream
  split <;> simp [*]

/-! ### Operations of energy, billing and supply quality -/

@[simp] theorem outageEvent_pending (gs : List GapEntry) (s : State) : (outageEvent gs s).pending = s.pending := by
  unfold outageEvent
  split
  · rfl
  · rw [raise_pending, foldl_pending (fun t x => bump_pending _ t)]
@[simp] theorem gapEvent_pending (g : GapEntry) (s : State) : (gapEvent g s).pending = s.pending := by simp [gapEvent]
@[simp] theorem enterGap_pending (m : Nat) (kind : GapKind) (cause start end_ bound : Nat) (sRef : Scale) (unknown isOpen : Bool) (s0 : State) :
    (enterGap m kind cause start end_ bound sRef unknown isOpen s0).1.pending = s0.pending := by
  unfold enterGap
  dsimp only
  (repeat' split) <;> simp [*]
@[simp] theorem recordGap_pending (m : Nat) (kind : GapKind) (cause start end_ bound : Nat) (sRef : Scale) (unknown isOpen : Bool) (s : State) :
    (recordGap m kind cause start end_ bound sRef unknown isOpen s).pending = s.pending := by
  unfold recordGap
  have h := enterGap_pending m kind cause start end_ bound sRef unknown isOpen s
  split
  · rw [‹enterGap _ _ _ _ _ _ _ _ _ _ = _›] at h
    split <;> simpa using h
  · rw [‹enterGap _ _ _ _ _ _ _ _ _ _ = _›] at h
    exact h
@[simp] theorem closeGaps_pending (m : Nat) (f : GapEntry → Bool) (end_ : Nat) (unknown : Bool) (s : State) :
    (closeGaps m f end_ unknown s).pending = s.pending := by
  simp [closeGaps]
@[simp] theorem rollover_pending (b ts : Nat) (a0 : Nat) (a1 : State) : (rollover b ts a0 a1).pending = a1.pending := by
  induction a0 generalizing a1 with
  | zero => rfl
  | succ k ih => simp [rollover, ih]
@[simp] theorem regAdd_pending (b e ts : Nat) (s : State) : (regAdd b e ts s).pending = s.pending := by simp [regAdd]
@[simp] theorem pulseAdd_pending (k e t0 t1 : Nat) (s : State) : (pulseAdd k e t0 t1 s).pending = s.pending := by simp [pulseAdd]
@[simp] theorem distribute_pending (m t1 startEl endEl : Nat) (l : List (Nat × Nat)) (s : State) :
    (distribute m t1 startEl endEl l s).pending = s.pending := by
  simp [distribute]
@[simp] theorem restoreImage_pending (g : EnergyImg) (s : State) : (restoreImage g s).pending = s.pending := by simp [restoreImage]
@[simp] theorem writeSave_pending (ts : Nat) (s : State) : (writeSave ts s).pending = s.pending := by simp [writeSave]
@[simp] theorem verifySave_pending (s : State) : (verifySave s).pending = s.pending := by
  unfold verifySave
  split <;> simp [*]
@[simp] theorem qMod_pending (m : Nat) (k : QKind) (f : QEntry → QEntry) (s : State) : (qMod m k f s).pending = s.pending := by
  unfold qMod
  split <;> simp [*]
@[simp] theorem qStart_pending (m : Nat) (k : QKind) (ts half ph : Nat) (x : Scale) (nom : Bool) (s : State) :
    (qStart m k ts half ph x nom s).pending = s.pending := by
  simp [qStart]
@[simp] theorem qEnd_pending (m : Nat) (k : QKind) (ts half : Nat) (lost : Bool) (s : State) : (qEnd m k ts half lost s).pending = s.pending := by
  unfold qEnd
  split <;> simp [*]
@[simp] theorem qJudge_pending (m ts half : Nat) (nom : Bool) (vals : List (Nat × Scale)) (s : State) (k : QKind) :
    (qJudge m ts half nom vals s k).pending = s.pending := by
  unfold qJudge
  dsimp only
  (repeat' split) <;> simp [*]

/-! ### The grid-angle clock -/

@[simp] theorem gaToNominal_pending (cause : Nat) (s : State) : (gaToNominal cause s).pending = s.pending := by simp [gaToNominal]
@[simp] theorem gaFail_pending (s : State) : (gaFail s).pending = s.pending := by simp [gaFail]
@[simp] theorem gaObserve_pending (f : Nat) (ph : Int) (v2 u2 : Scale) (s0 : State) : (gaObserve f ph v2 u2 s0).pending = s0.pending := by
  unfold gaObserve
  dsimp only
  split <;> simp [*]
@[simp] theorem gaSample_pending (m : Nat) (row : SgRow) (s : State) : (gaSample m row s).pending = s.pending := by simp [gaSample]

/-! ### The commands and events of the Sage front end -/

@[simp] theorem execSageClockConfig_waiting (h : Hdr) (p : SageClockConfigP) (s : State) : waiting (execSageClockConfig h p s) = s.pending := by
  unfold execSageClockConfig
  refine vci_pending _ _ _ _ _ (fun t => ?_)
  dsimp only
  split
  · simp
  · refine stored_pending ((done_pending _).trans ?_)
    split
    · exact (foldl_pending (fun u e => by split <;> simp) _ _).trans (storeConfig_pending _)
    · exact storeConfig_pending _
@[simp] theorem execSageChainConfig_waiting (h : Hdr) (p : SageChainConfigP) (s : State) : waiting (execSageChainConfig h p s) = s.pending := by
  simp [execSageChainConfig]
@[simp] theorem execSageFirLoad_waiting (h : Hdr) (p : SageFirLoadP) (s : State) : waiting (execSageFirLoad h p s) = s.pending := by
  simp [execSageFirLoad]
@[simp] theorem execSageFirSwitch_waiting (h : Hdr) (p : SageFirSwitchP) (s : State) : waiting (execSageFirSwitch h p s) = s.pending := by
  unfold execSageFirSwitch
  refine vci_pending _ _ _ _ _ (fun t => ?_)
  dsimp only
  split
  · simp
  · split
    · simp
    · split
      · exact stored_pending (by simp)
      · refine stored_pending ?_
        rw [done_pending, storeConfig_pending, modMp_pending, foldl_pending (fun x n => unsettle_pending n _ _ x)]
        simp
@[simp] theorem freezeInput_pending (n : Nat) (s : State) : (freezeInput n s).pending = s.pending := by
  unfold freezeInput
  split <;> simp [*]
@[simp] theorem releaseInput_pending (m n : Nat) (s : State) : (releaseInput m n s).pending = s.pending := by
  unfold releaseInput
  split <;> simp [*]
@[simp] theorem execSageDcFreeze_waiting (h : Hdr) (p : SageDcP) (s : State) : waiting (execSageDcFreeze h p s) = s.pending := by
  simp [execSageDcFreeze]
@[simp] theorem execSageDcRelease_waiting (h : Hdr) (p : SageDcP) (s : State) : waiting (execSageDcRelease h p s) = s.pending := by
  simp [execSageDcRelease]
@[simp] theorem execSageCal_waiting (h : Hdr) (p : SageCalP) (s : State) : waiting (execSageCal h p s) = s.pending := by simp [execSageCal]
@[simp] theorem execSageTempTable_waiting (h : Hdr) (p : SageTempTableP) (s : State) : waiting (execSageTempTable h p s) = s.pending := by
  simp [execSageTempTable]
@[simp] theorem execSageTempSource_waiting (h : Hdr) (p : SageTempSourceP) (s : State) : waiting (execSageTempSource h p s) = s.pending := by
  simp [execSageTempSource]
@[simp] theorem execSageTemp_waiting (h : Hdr) (p : SageTempP) (s : State) : waiting (execSageTemp h p s) = s.pending := by simp [execSageTemp]
@[simp] theorem execSagePmuAdd_waiting (h : Hdr) (p : SagePmuP) (s : State) : waiting (execSagePmuAdd h p s) = s.pending := by
  unfold execSagePmuAdd
  refine vci_pending _ _ _ _ _ (fun t => ?_)
  dsimp only
  split
  · simp
  · split
    · split
      · simp
      · next t1 h1 => simp [← enterDir_pending _ _ _ h1]
    · simp
@[simp] theorem execSagePmuRetire_waiting (h : Hdr) (p : SagePmuP) (s : State) : waiting (execSagePmuRetire h p s) = s.pending := by
  unfold execSagePmuRetire
  refine vci_pending _ _ _ _ _ (fun t => ?_)
  dsimp only
  (repeat' split) <;> simp [*]
@[simp] theorem execSagePmuSvWindow_waiting (h : Hdr) (p : SagePmuP) (s : State) : waiting (execSagePmuSvWindow h p s) = s.pending := by
  simp [execSagePmuSvWindow]
@[simp] theorem countedFirst_pending (m stamp el : Nat) (s : State) : (countedFirst m stamp el s).pending = s.pending := by simp [countedFirst]
@[simp] theorem countOverloads_pending (a0 : List (Nat × Bool)) (a1 : State) : (countOverloads a0 a1).pending = a1.pending := by
  fun_induction countOverloads a0 a1 <;> simp_all +zetaDelta
@[simp] theorem deliverRow_pending (m : Nat) (bits : List (List Bool)) (s : State) : (deliverRow m bits s).pending = s.pending := by
  simp -implicitDefEqProofs [deliverRow]
@[simp] theorem offRow_pending (m : Nat) (s : State) : (offRow m s).pending = s.pending := by simp [offRow]
@[simp] theorem execSageOutputSample_waiting (b : SageBits) (s : State) : waiting (execSageOutputSample b s) = s.pending := by
  simp [execSageOutputSample]
@[simp] theorem execInputLost_waiting (input : BitVec 7) (s : State) : waiting (execInputLost input s) = s.pending := by simp [execInputLost]
@[simp] theorem execInputRestored_waiting (input : BitVec 7) (s : State) : waiting (execInputRestored input s) = s.pending := by
  simp [execInputRestored]
@[simp] theorem execDcAcquireDone_waiting (input : BitVec 7) (s : State) : waiting (execDcAcquireDone input s) = s.pending := by
  simp [execDcAcquireDone]
@[simp] theorem execSettlingEnd_waiting (mp : BitVec 4) (s : State) : waiting (execSettlingEnd mp s) = s.pending := by simp [execSettlingEnd]
@[simp] theorem execFadeEnd_waiting (mp : BitVec 4) (s : State) : waiting (execFadeEnd mp s) = s.pending := by simp [execFadeEnd]
@[simp] theorem execTempStaleExpiry_waiting (input : BitVec 7) (s : State) : waiting (execTempStaleExpiry input s) = s.pending := by
  simp [execTempStaleExpiry]
@[simp] theorem landLocal_pending (h tag : Nat) (cells : List Cell) (s : State) : (landLocal h tag cells s).pending = s.pending := by
  unfold landLocal
  split <;> simp [*]
@[simp] theorem execLocalPmuReport_waiting (mp : BitVec 4) (s : State) : waiting (execLocalPmuReport mp s) = s.pending := by
  unfold execLocalPmuReport
  dsimp only [waiting]
  (repeat' split) <;> simp [*]
@[simp] theorem svReports_pending (h rate : Nat) (c : EstCfg) (nom : Bool) (a0 : Nat) (a1 : State) :
    (svReports h rate c nom a0 a1).pending = a1.pending := by
  fun_induction svReports h rate c nom a0 a1 <;> simp_all +zetaDelta
@[simp] theorem svStart_pending (h : Nat) (v : Stream) (s : State) : (svStart h v s).2.pending = s.pending := by simp [svStart]
@[simp] theorem execSvFrame_waiting (f : SvFrame) (s : State) : waiting (execSvFrame f s) = s.pending := by
  unfold execSvFrame
  dsimp only [waiting]
  (repeat' split) <;> simp [*]

/-! ### The commands of group 0x0F and the happenings of the radio -/

@[simp] theorem execCfXcvrProfile_waiting (h : Hdr) (p : CfProfileP) (s : State) : waiting (execCfXcvrProfile h p s) = s.pending := by
  simp [execCfXcvrProfile]
@[simp] theorem cfEnable_pending (s : State) : (cfEnable s).pending = s.pending := by simp [cfEnable]
@[simp] theorem execCfConfig_waiting (h : Hdr) (p : CfConfigP) (s : State) : waiting (execCfConfig h p s) = s.pending := by simp [execCfConfig]
@[simp] theorem execCfChannelMap_waiting (h : Hdr) (p : CfChannelMapP) (s : State) : waiting (execCfChannelMap h p s) = s.pending := by
  simp [execCfChannelMap]
@[simp] theorem execCfNodeAdd_waiting (h : Hdr) (p : CfNodeAddP) (s : State) : waiting (execCfNodeAdd h p s) = s.pending := by
  unfold execCfNodeAdd
  refine vci_pending _ _ _ _ _ (fun t => ?_)
  dsimp only
  (repeat' split) <;> simp [*]
@[simp] theorem execCfNodeRemove_waiting (h : Hdr) (p : CfNodeP) (s : State) : waiting (execCfNodeRemove h p s) = s.pending := by
  unfold execCfNodeRemove
  refine vci_pending _ _ _ _ _ (fun t => ?_)
  (repeat' split) <;> simp [*]
@[simp] theorem execCfNodeKey_waiting (h : Hdr) (p : CfNodeKeyP) (s : State) : waiting (execCfNodeKey h p s) = s.pending := by simp [execCfNodeKey]
@[simp] theorem execCfNodeStreamMap_waiting (h : Hdr) (p : CfNodeStreamP) (s : State) : waiting (execCfNodeStreamMap h p s) = s.pending := by
  unfold execCfNodeStreamMap
  refine vci_pending _ _ _ _ _ (fun t => ?_)
  dsimp only
  split
  · simp
  · split
    · simp
    · split
      · split
        · simp
        · next t1 h1 => simp [← enterDir_pending _ _ _ h1]
      · simp
@[simp] theorem execCfNodeStreamUnmap_waiting (h : Hdr) (p : CfNodeStreamP) (s : State) : waiting (execCfNodeStreamUnmap h p s) = s.pending := by
  unfold execCfNodeStreamUnmap
  refine vci_pending _ _ _ _ _ (fun t => ?_)
  (repeat' split) <;> simp [*]
@[simp] theorem execCfOutputBind_waiting (h : Hdr) (p : RingBindP) (s : State) : waiting (execCfOutputBind h p s) = s.pending := by
  unfold execCfOutputBind
  refine vci_pending _ _ _ _ _ (fun t => ?_)
  (repeat' split) <;> simp [*]
@[simp] theorem execCfSend_waiting (h : Hdr) (p : CfSendP) (s : State) : waiting (execCfSend h p s) = s.pending := by
  unfold execCfSend
  refine vci_pending _ _ _ _ _ (fun t => ?_)
  (repeat' split) <;> simp [*]
@[simp] theorem execCfResetWaitEnd_waiting (status : U8) (s : State) : waiting (execCfResetWaitEnd status s) = s.pending := by
  simp [execCfResetWaitEnd]
@[simp] theorem execCfIrqTimeout_waiting (s : State) : waiting (execCfIrqTimeout s) = s.pending := by simp [execCfIrqTimeout]
@[simp] theorem execCfStartupRetry_waiting (s : State) : waiting (execCfStartupRetry s) = s.pending := by
  unfold execCfStartupRetry
  dsimp only [waiting]
  (repeat' split) <;> simp [*]
@[simp] theorem execSuperframePlanning_waiting (s : State) : waiting (execSuperframePlanning s) = s.pending := by
  unfold execSuperframePlanning
  dsimp only [waiting]
  (repeat' split) <;> simp [*]
@[simp] theorem execBeaconStatusCheck_waiting (status : U8) (s : State) : waiting (execBeaconStatusCheck status s) = s.pending := by
  simp [execBeaconStatusCheck]
@[simp] theorem radioStart_pending (n ch : Nat) (p : CfProfileP) (s : State) : (radioStart n ch p s).pending = s.pending := by simp [radioStart]
@[simp] theorem execSuperframeStart_waiting (s : State) : waiting (execSuperframeStart s) = s.pending := by
  unfold execSuperframeStart
  dsimp only [waiting]
  (repeat' split) <;> simp [*]
@[simp] theorem sendPoll_pending (k : Nat) (v : Node) (s : State) : (sendPoll k v s).pending = s.pending := by simp [sendPoll]
@[simp] theorem execSlotPoll_waiting (node : U16) (s : State) : waiting (execSlotPoll node s) = s.pending := by
  unfold execSlotPoll
  dsimp only [waiting]
  (repeat' split) <;> simp [*]
@[simp] theorem execSlotEnd_waiting (node : U16) (s : State) : waiting (execSlotEnd node s) = s.pending := by
  unfold execSlotEnd
  dsimp only [waiting]
  (repeat' split) <;> simp [*]
@[simp] theorem execNodeSupervisionTimeout_waiting (node : U16) (s : State) : waiting (execNodeSupervisionTimeout node s) = s.pending := by
  unfold execNodeSupervisionTimeout
  dsimp only [waiting]
  (repeat' split) <;> simp [*]
@[simp] theorem execCfIrq_waiting (k : IrqKind) (s : State) : waiting (execCfIrq k s) = s.pending := by
  unfold execCfIrq
  dsimp only [waiting]
  (repeat' split) <;> simp [*]
@[simp] theorem execBeaconTxTimeout_waiting (s : State) : waiting (execBeaconTxTimeout s) = s.pending := by
  unfold execBeaconTxTimeout
  dsimp only [waiting]
  (repeat' split) <;> simp [*]
@[simp] theorem validResponse_pending (k : Nat) (v : Node) (r : CfResponse) (s : State) : (validResponse k v r s).pending = s.pending := by
  simp [validResponse]
@[simp] theorem execResponseRx_waiting (r : CfResponse) (s : State) : waiting (execResponseRx r s) = s.pending := by
  unfold execResponseRx
  dsimp only [waiting]
  (repeat' split) <;> simp [*]

/-! ### COUNTER-CLEAR -/

@[simp] theorem clearCnt_pending (g : Nat) (f : Nat → Bool) (s : State) : (clearCnt g f s).pending = s.pending := by simp [clearCnt]
@[simp] theorem clearGroup_pending (first : Nat) (whole : Bool) (g : Nat) (f : Nat → Bool) (s0 : State) :
    (clearGroup first whole g f s0).pending = s0.pending := by
  unfold clearGroup
  split <;> simp [*]
@[simp] theorem execCounterClear_waiting (h : Hdr) (p : CounterClearP) (s : State) : waiting (execCounterClear h p s) = s.pending := by
  simp [execCounterClear]

/-! ### Operations of the Dill engine -/

@[simp] theorem setPipe_pending (decomp : Bool) (v : Option Nat) (s : State) : (setPipe decomp v s).pending = s.pending := by simp [setPipe]
@[simp] theorem completeChain_pending (p : HP) (n : Nat) (st : Sts) (a0 : Nat) (a1 : State) :
    (completeChain p n st a0 a1).pending = a1.pending := by
  induction a0 generalizing a1 with
  | zero => rfl
  | succ k ih =>
    unfold completeChain
    split
    · rfl
    · dsimp only
      split
      · simp
      · rw [ih, completeDesc_pending]
@[simp] theorem completeSegment_pending (v : Job) (st : Sts) (s : State) : (completeSegment v st s).pending = s.pending := by simp [completeSegment]
@[simp] theorem compressSegment_pending (v : Job) (g : Segment) (s : State) : (compressSegment v g s).2.2.pending = s.pending := by
  unfold compressSegment
  dsimp only
  (repeat' split) <;> simp [*]
@[simp] theorem segmentDone_pending (j : Nat) (v : Job) (g : Segment) (s : State) : (segmentDone j v g s).pending = s.pending := by
  unfold segmentDone
  dsimp only
  (repeat' split) <;> simp [*]
@[simp] theorem writeOut_pending (p : HP) (n : Nat) (a0 : Nat) (a1 : Emit) (a2 : State) : (writeOut p n a0 a1 a2).2.pending = a2.pending := by
  fun_induction writeOut p n a0 a1 a2 <;> simp [*]
@[simp] theorem refuseRest_pending (v : Job) (s : State) : (refuseRest v s).pending = s.pending := by simp [refuseRest]
@[simp] theorem jobDone_pending (j : Nat) (v : Job) (st : Sts) (s : State) : (jobDone j v st s).pending = s.pending := by simp [jobDone]
@[simp] theorem jobFailed_pending (j : Nat) (v : Job) (st : Sts) (cause : Nat) (s : State) : (jobFailed j v st cause s).pending = s.pending := by
  simp [jobFailed]
@[simp] theorem segmentEnd_pending (j : Nat) (v : Job) (e : Emit) (s : State) : (segmentEnd j v e s).pending = s.pending := by
  unfold segmentEnd
  dsimp only
  split <;> simp [*]
@[simp] theorem pushOut_pending (j : Nat) (v : Job) (e : Emit) (s : State) : (pushOut j v e s).pending = s.pending := by
  unfold pushOut
  extract_lets s0 n
  have h0 : s0.pending = s.pending := by unfold s0; split <;> simp
  have hw := writeOut_pending v.owner v.outRing n e s0
  split
  · simp [h0]
  · split <;> simp_all
@[simp] theorem runJob_pending (j : Nat) (a0 : Nat) (a1 : State) : (runJob j a0 a1).pending = a1.pending := by
  fun_induction runJob j a0 a1 <;> simp_all +zetaDelta
@[simp] theorem takeUp_pending (j : Nat) (s : State) : (takeUp j s).pending = s.pending := by
  unfold takeUp
  split <;> simp [*]
@[simp] theorem leaveJob_pending (decomp : Bool) (s : State) : (leaveJob decomp s).pending = s.pending := by
  unfold leaveJob
  split <;> simp [*]
@[simp] theorem freeJob_pending (j : Nat) (v : Job) (s : State) : (freeJob j v s).pending = s.pending := by
  unfold freeJob
  dsimp only
  (repeat' split) <;> simp [*]

/-! ### The commands of group 0x10 and the work of the Dill pipelines -/

@[simp] theorem execDillConfig_waiting (h : Hdr) (p : DillConfigP) (s : State) : waiting (execDillConfig h p s) = s.pending := by
  simp [execDillConfig]
@[simp] theorem execDillJobOpen_waiting (h : Hdr) (p : DillOpenP) (s : State) : waiting (execDillJobOpen h p s) = s.pending := by
  unfold execDillJobOpen
  refine vci_pending _ _ _ _ _ (fun t => ?_)
  (repeat' split) <;> simp [*]
@[simp] theorem execDillJobClose_waiting (h : Hdr) (p : DillCloseP) (s : State) : waiting (execDillJobClose h p s) = s.pending := by
  unfold execDillJobClose
  refine vci_pending _ _ _ _ _ (fun t => ?_)
  dsimp only
  (repeat' split) <;> simp [*]
@[simp] theorem execDillJobFreed_waiting (job : BitVec 6) (s : State) : waiting (execDillJobFreed job s) = s.pending := by
  unfold execDillJobFreed
  dsimp only [waiting]
  (repeat' split) <;> simp [*]
@[simp] theorem execDillSegment_waiting (seg : DillSegmentP) (s : State) : waiting (execDillSegment seg s) = s.pending := by
  unfold execDillSegment
  dsimp only [waiting]
  (repeat' split) <;> simp [*]
@[simp] theorem execDillJobSwitch_waiting (decomp : Bool) (s : State) : waiting (execDillJobSwitch decomp s) = s.pending := by
  unfold execDillJobSwitch
  dsimp only [waiting]
  (repeat' split) <;> simp [*]

/-! ### The commands and events of oscillation screening and mode estimation -/

@[simp] theorem execOscScreenConfig_waiting (h : Hdr) (p : OscScreenConfigP) (s : State) : waiting (execOscScreenConfig h p s) = s.pending := by
  simp [execOscScreenConfig]
@[simp] theorem execOscEstConfig_waiting (h : Hdr) (p : OscEstConfigP) (s : State) : waiting (execOscEstConfig h p s) = s.pending := by
  simp [execOscEstConfig]
@[simp] theorem execOscAlarmConfig_waiting (h : Hdr) (p : OscAlarmConfigP) (s : State) : waiting (execOscAlarmConfig h p s) = s.pending := by
  simp [execOscAlarmConfig]
@[simp] theorem execOscWatchAdd_waiting (h : Hdr) (p : OscWatchP) (s : State) : waiting (execOscWatchAdd h p s) = s.pending := by
  unfold execOscWatchAdd
  refine vci_pending _ _ _ _ _ (fun t => ?_)
  dsimp only
  (repeat' split) <;> simp [*]
@[simp] theorem execOscWatchRemove_waiting (h : Hdr) (p : OscWatchP) (s : State) : waiting (execOscWatchRemove h p s) = s.pending := by
  unfold execOscWatchRemove
  refine vci_pending _ _ _ _ _ (fun t => ?_)
  dsimp only
  (repeat' split) <;> simp [*]
@[simp] theorem execOscBranchAdd_waiting (h : Hdr) (p : OscBranchP) (s : State) : waiting (execOscBranchAdd h p s) = s.pending := by
  unfold execOscBranchAdd
  refine vci_pending _ _ _ _ _ (fun t => ?_)
  (repeat' split) <;> simp [*]
@[simp] theorem execOscBranchRemove_waiting (h : Hdr) (p : OscBranchP) (s : State) : waiting (execOscBranchRemove h p s) = s.pending := by
  simp [execOscBranchRemove]
@[simp] theorem relearnChan_pending (ch : Nat) (s : State) : (relearnChan ch s).pending = s.pending := by
  unfold relearnChan
  dsimp only
  (repeat' split) <;> simp [*]
@[simp] theorem execOscRelearn_waiting (h : Hdr) (p : OscRelearnP) (s : State) : waiting (execOscRelearn h p s) = s.pending := by
  simp [execOscRelearn]
@[simp] theorem execOscOutputBind_waiting (h : Hdr) (p : OscOutputBindP) (s : State) : waiting (execOscOutputBind h p s) = s.pending := by
  unfold execOscOutputBind
  refine vci_pending _ _ _ _ _ (fun t => ?_)
  (repeat' split) <;> simp [*]
@[simp] theorem screenSlab_pending (g k : Nat) (s : State) : (screenSlab g k s).pending = s.pending := by simp [screenSlab]
@[simp] theorem screenFixes_pending (g k : Nat) (fixes : List (Nat × Nat)) (s : State) : (screenFixes g k fixes s).pending = s.pending := by
  simp [screenFixes]
@[simp] theorem execScreenStep_waiting (grid : BitVec 5) (tag : U64) (s : State) : waiting (execScreenStep grid tag s) = s.pending := by
  unfold execScreenStep
  dsimp only [waiting]
  (repeat' split) <;> simp [*]
@[simp] theorem execScreenPatchFix_waiting (grid : BitVec 5) (tag : U64) (s : State) : waiting (execScreenPatchFix grid tag s) = s.pending := by
  unfold execScreenPatchFix
  dsimp only [waiting]
  (repeat' split) <;> simp [*]
@[simp] theorem estimatorWork_pending (n k : Nat) (s : State) : (estimatorWork n k s).pending = s.pending := by
  unfold estimatorWork
  split <;> simp [*]
@[simp] theorem execEstimatorStep_waiting (slot : U16) (tag : U64) (s : State) : waiting (execEstimatorStep slot tag s) = s.pending := by
  simp [execEstimatorStep]
@[simp] theorem execEstimatorHoldExpiry_waiting (slot : U16) (s : State) : waiting (execEstimatorHoldExpiry slot s) = s.pending := by
  unfold execEstimatorHoldExpiry
  dsimp only [waiting]
  (repeat' split) <;> simp [*]

/-! ### Operations of the device clock -/

@[simp] theorem updateTq_pending (s : State) : (updateTq s).pending = s.pending := by simp [updateTq]
@[simp] theorem setClk_pending (st : ClkState) (s : State) : (setClk st s).pending = s.pending := by
  unfold setClk
  split <;> simp [*]
@[simp] theorem applyUtc_pending (s : State) : (applyUtc s).pending = s.pending := by
  unfold applyUtc
  split <;> simp [*]
@[simp] theorem selectSrc_pending (s : State) : (selectSrc s).pending = s.pending := by
  unfold selectSrc
  dsimp only
  (repeat' split) <;> simp [*]
@[simp] theorem noneLeft_pending (s : State) : (noneLeft s).pending = s.pending := by simp [noneLeft]
@[simp] theorem loseSrc_pending (x : Src) (s : State) : (loseSrc x s).pending = s.pending := by simp [loseSrc]
@[simp] theorem forgetEvidence_pending (s : State) : (forgetEvidence s).pending = s.pending := by simp [forgetEvidence]
@[simp] theorem restartDue_pending (s : State) : (restartDue s).pending = s.pending := by simp [restartDue]
@[simp] theorem runStep_pending (cause part new : Nat) (frac : U32) (s : State) : (runStep cause part new frac s).pending = s.pending := by
  simp [runStep]
@[simp] theorem servoRate_pending (offset : Int) (s0 : State) : (servoRate offset s0).pending = s0.pending := by simp [servoRate]
@[simp] theorem servo_pending (offset : Int) (s0 : State) : (servo offset s0).pending = s0.pending := by
  unfold servo
  dsimp only
  (repeat' split) <;> simp [*]
@[simp] theorem switchSrc_pending (x : Src) (offset : Int) (s : State) : (switchSrc x offset s).pending = s.pending := by simp [switchSrc]
@[simp] theorem servoUpdate_pending (x : Src) (offset : Int) (s0 : State) : (servoUpdate x offset s0).pending = s0.pending := by simp [servoUpdate]
@[simp] theorem announceLeap_pending (deletion : Bool) (tai origin : Nat) (s : State) :
    (announceLeap deletion tai origin s).pending = s.pending := by
  simp [announceLeap]
@[simp] theorem ptpLeap_pending (leap61 leap59 : Bool) (s : State) : (ptpLeap leap61 leap59 s).pending = s.pending := by simp [ptpLeap]
@[simp] theorem showMaster_pending (s : State) : (showMaster s).pending = s.pending := by
  unfold showMaster
  split <;> simp [*]
@[simp] theorem demote_pending (k : Nat) (s : State) : (demote k s).pending = s.pending := by simp [demote]
@[simp] theorem promote_pending (k : Nat) (s : State) : (promote k s).pending = s.pending := by simp [promote]
@[simp] theorem sendPtp_pending (k kind : Nat) (body : Bytes) (s : State) : (sendPtp k kind body s).pending = s.pending := by simp [sendPtp]

/-! ### The commands and events of group 0x03 -/

@[simp] theorem dropSources_pending (moved : Bool) (s : State) : (dropSources moved s).pending = s.pending := by simp [dropSources]
@[simp] theorem execTimeSourceConfig_waiting (h : Hdr) (p : TimeSourceConfigP) (s : State) : waiting (execTimeSourceConfig h p s) = s.pending := by
  simp [execTimeSourceConfig]
@[simp] theorem execTimeSlewConfig_waiting (h : Hdr) (p : TimeSlewConfigP) (s : State) : waiting (execTimeSlewConfig h p s) = s.pending := by
  simp [execTimeSlewConfig]
@[simp] theorem execTimeHoldoverConfig_waiting (h : Hdr) (p : TimeHoldoverConfigP) (s : State) :
    waiting (execTimeHoldoverConfig h p s) = s.pending := by
  simp [execTimeHoldoverConfig]
@[simp] theorem execTimeUtcOffset_waiting (h : Hdr) (p : TimeUtcOffsetP) (s : State) : waiting (execTimeUtcOffset h p s) = s.pending := by
  simp [execTimeUtcOffset]
@[simp] theorem execTimeStep_waiting (h : Hdr) (p : TimeStepP) (s : State) : waiting (execTimeStep h p s) = s.pending := by simp [execTimeStep]
@[simp] theorem execTimeStepApply_waiting (s : State) : waiting (execTimeStepApply s) = s.pending := by
  unfold execTimeStepApply
  dsimp only [waiting]
  (repeat' split) <;> simp [*]
@[simp] theorem execTimeRead_waiting (h : Hdr) (s : State) : waiting (execTimeRead h s) = s.pending := by simp [execTimeRead]
@[simp] theorem takeAnnounce_pending (k : Nat) (m : AnnounceMsg) (s : State) : (takeAnnounce k m s).pending = s.pending := by simp [takeAnnounce]
@[simp] theorem execPtpAnnounceRx_waiting (port : BitVec 4) (m : AnnounceMsg) (s : State) : waiting (execPtpAnnounceRx port m s) = s.pending := by
  simp [execPtpAnnounceRx]
@[simp] theorem execPtpSyncRx_waiting (port : BitVec 4) (m : SyncMsg) (s : State) : waiting (execPtpSyncRx port m s) = s.pending := by
  simp [execPtpSyncRx]
@[simp] theorem execPdelayReqRx_waiting (m : PdelayReq) (s : State) : waiting (execPdelayReqRx m s) = s.pending := by simp [execPdelayReqRx]
@[simp] theorem execPdelayRespRx_waiting (m : PdelayResp) (s : State) : waiting (execPdelayRespRx m s) = s.pending := by
  unfold execPdelayRespRx
  dsimp only [waiting]
  (repeat' split) <;> simp [*]
@[simp] theorem execPdelayReqTx_waiting (port : BitVec 4) (s : State) : waiting (execPdelayReqTx port s) = s.pending := by simp [execPdelayReqTx]
@[simp] theorem execPtpMasterTx_waiting (port : BitVec 4) (s : State) : waiting (execPtpMasterTx port s) = s.pending := by simp [execPtpMasterTx]
@[simp] theorem execAnnounceReceiptTimeout_waiting (port : BitVec 4) (s : State) : waiting (execAnnounceReceiptTimeout port s) = s.pending := by
  unfold execAnnounceReceiptTimeout
  dsimp only [waiting]
  (repeat' split) <;> simp [*]
@[simp] theorem execPpsInEdge_waiting (s : State) : waiting (execPpsInEdge s) = s.pending := by simp [execPpsInEdge]
@[simp] theorem execPpsInLoss_waiting (s : State) : waiting (execPpsInLoss s) = s.pending := by simp [execPpsInLoss]
@[simp] theorem execIrigFrame_waiting (f : IrigFrame) (s : State) : waiting (execIrigFrame f s) = s.pending := by
  unfold execIrigFrame
  dsimp only [waiting]
  (repeat' split) <;> simp [*]
@[simp] theorem execIrigLoss_waiting (s : State) : waiting (execIrigLoss s) = s.pending := by simp [execIrigLoss]
@[simp] theorem execSrcHoldoffExpiry_waiting (s : State) : waiting (execSrcHoldoffExpiry s) = s.pending := by
  unfold execSrcHoldoffExpiry
  dsimp only [waiting]
  (repeat' split) <;> simp [*]
@[simp] theorem execTqBandElapsed_waiting (s : State) : waiting (execTqBandElapsed s) = s.pending := by simp [execTqBandElapsed]
@[simp] theorem execLeapPendingStart_waiting (s : State) : waiting (execLeapPendingStart s) = s.pending := by
  unfold execLeapPendingStart
  dsimp only [waiting]
  (repeat' split) <;> simp [*]
@[simp] theorem execLeapApplied_waiting (s : State) : waiting (execLeapApplied s) = s.pending := by
  unfold execLeapApplied
  dsimp only [waiting]
  (repeat' split) <;> simp [*]
@[simp] theorem execLeapOccurredEnd_waiting (s : State) : waiting (execLeapOccurredEnd s) = s.pending := by simp [execLeapOccurredEnd]
@[simp] theorem execPpsOutConfig_waiting (h : Hdr) (p : PpsOutConfigP) (s : State) : waiting (execPpsOutConfig h p s) = s.pending := by
  simp [execPpsOutConfig]
@[simp] theorem execPpsOutRise_waiting (s : State) : waiting (execPpsOutRise s) = s.pending := by simp [execPpsOutRise]
@[simp] theorem execPpsOutFall_waiting (s : State) : waiting (execPpsOutFall s) = s.pending := by simp [execPpsOutFall]
@[simp] theorem execGaConfig_waiting (h : Hdr) (p : GaConfigP) (s : State) : waiting (execGaConfig h p s) = s.pending := by simp [execGaConfig]
@[simp] theorem eqResume_pending (s : State) : (eqResume s).pending = s.pending := by
  unfold eqResume
  split
  · split
    · refine (outageEvent_pending _ _).trans ?_
      refine foldl_view (fun x : State × List GapEntry => x.1.pending) (fun x e => ?_) _ _
      dsimp only
      split
      · exact (enterGap_pending _ _ _ _ _ _ _ _ _ _).trans (modEq_pending _ _ _)
      · rfl
    · rfl
  · rfl
@[simp] theorem execGaTick_waiting (ts : U64) (s : State) : waiting (execGaTick ts s) = s.pending := by simp [execGaTick]
@[simp] theorem fireTimed_pending (a0 : List TimedAct) (a1 : State) : (fireTimed a0 a1).pending = a1.pending := by
  fun_induction fireTimed a0 a1 <;> simp [*]
@[simp] theorem execTimedActionFire_waiting (s : State) : waiting (execTimedActionFire s) = s.pending := by simp [execTimedActionFire]
@[simp] theorem ownerSent_pending (k r stamp : Nat) (f : TxFrame) (s : State) : (ownerSent k r stamp f s).pending = s.pending := by
  unfold ownerSent
  (repeat' split) <;> simp [*]
@[simp] theorem execTxComplete_waiting (port : BitVec 4) (lateColl : Bool) (s : State) : waiting (execTxComplete port lateColl s) = s.pending := by
  unfold execTxComplete
  dsimp only [waiting]
  (repeat' split) <;> simp [*]

/-! ### The commands and events of energy, billing and supply quality -/

@[simp] theorem execEqMpConfig_waiting (h : Hdr) (p : EqMpConfigP) (s : State) : waiting (execEqMpConfig h p s) = s.pending := by
  simp [execEqMpConfig]
@[simp] theorem execEqRegConfig_waiting (h : Hdr) (p : EqRegConfigP) (s : State) : waiting (execEqRegConfig h p s) = s.pending := by
  simp [execEqRegConfig]
@[simp] theorem execPulseConfig_waiting (h : Hdr) (p : PulseConfigP) (s : State) : waiting (execPulseConfig h p s) = s.pending := by
  simp [execPulseConfig]
@[simp] theorem execEqSaveConfig_waiting (h : Hdr) (p : EqSaveConfigP) (s : State) : waiting (execEqSaveConfig h p s) = s.pending := by
  simp [execEqSaveConfig]
@[simp] theorem execEqSeal_waiting (h : Hdr) (p : EqSealP) (s : State) : waiting (execEqSeal h p s) = s.pending := by simp [execEqSeal]
@[simp] theorem execEqSealDone_waiting (s : State) : waiting (execEqSealDone s) = s.pending := by
  unfold execEqSealDone
  dsimp only [waiting]
  (repeat' split) <;> simp [*]
@[simp] theorem execEqGapAck_waiting (h : Hdr) (p : EqGapAckP) (s : State) : waiting (execEqGapAck h p s) = s.pending := by
  unfold execEqGapAck
  refine vci_pending _ _ _ _ _ (fun t => ?_)
  (repeat' split) <;> simp [*]
@[simp] theorem endGap_pending (m endTs endEl : Nat) (s : State) : (endGap m endTs endEl s).pending = s.pending := by
  unfold endGap
  split <;> simp [*]
@[simp] theorem closeCycle_pending (m : Nat) (a b : GaMark) (s : State) : (closeCycle m a b s).pending = s.pending := by simp [closeCycle]
@[simp] theorem execAccumulationCycleEnd_waiting (mp : BitVec 4) (s : State) : waiting (execAccumulationCycleEnd mp s) = s.pending := by
  unfold execAccumulationCycleEnd
  dsimp only [waiting]
  (repeat' split) <;> simp [*]
@[simp] theorem execPulseStart_waiting (output : BitVec 5) (s : State) : waiting (execPulseStart output s) = s.pending := by
  unfold execPulseStart
  dsimp only [waiting]
  (repeat' split) <;> simp [*]
@[simp] theorem execPulseEnd_waiting (output : BitVec 5) (s : State) : waiting (execPulseEnd output s) = s.pending := by
  unfold execPulseEnd
  dsimp only [waiting]
  (repeat' split) <;> simp [*]
@[simp] theorem execEnergySave_waiting (s : State) : waiting (execEnergySave s) = s.pending := by
  unfold execEnergySave
  dsimp only [waiting]
  (repeat' split) <;> simp [*]
@[simp] theorem execEnergySaveVerified_waiting (ok : Bool) (s : State) : waiting (execEnergySaveVerified ok s) = s.pending := by
  unfold execEnergySaveVerified
  dsimp only [waiting]
  (repeat' split) <;> simp [*]
@[simp] theorem halfCycle_pending (m : Nat) (s : State) : (halfCycle m s).pending = s.pending := by
  unfold halfCycle
  dsimp only
  (repeat' split) <;> simp [*]
@[simp] theorem execHalfCycleInterval_waiting (mp : BitVec 4) (s : State) : waiting (execHalfCycleInterval mp s) = s.pending := by
  simp [execHalfCycleInterval]

/-! ### The commands and events of the Poppy recorder, OTP and flash -/

@[simp] theorem execPoppyCursorAbsolute_waiting (h : Hdr) (p : PoppyCursorP) (s : State) : waiting (execPoppyCursorAbsolute h p s) = s.pending := by
  simp [execPoppyCursorAbsolute]
@[simp] theorem execPoppyCursorRelative_waiting (h : Hdr) (p : PoppyCursorP) (s : State) : waiting (execPoppyCursorRelative h p s) = s.pending := by
  simp [execPoppyCursorRelative]
@[simp] theorem execPoppyCursorFirstKept_waiting (h : Hdr) (p : PoppyCursorP) (s : State) :
    waiting (execPoppyCursorFirstKept h p s) = s.pending := by
  simp [execPoppyCursorFirstKept]
@[simp] theorem execPoppyCursorOldestCirc_waiting (h : Hdr) (p : PoppyCursorP) (s : State) :
    waiting (execPoppyCursorOldestCirc h p s) = s.pending := by
  simp [execPoppyCursorOldestCirc]
@[simp] theorem execPoppyCursorLatest_waiting (h : Hdr) (p : PoppyCursorP) (s : State) : waiting (execPoppyCursorLatest h p s) = s.pending := by
  simp [execPoppyCursorLatest]
@[simp] theorem execPoppyRateSet_waiting (h : Hdr) (p : PoppyRateP) (s : State) : waiting (execPoppyRateSet h p s) = s.pending := by
  unfold execPoppyRateSet
  refine vci_pending _ _ _ _ _ (fun t => ?_)
  dsimp only
  (repeat' split) <;> simp [*]
@[simp] theorem execPoppyRateRemove_waiting (h : Hdr) (p : PoppyRateP) (s : State) : waiting (execPoppyRateRemove h p s) = s.pending := by
  simp [execPoppyRateRemove]
@[simp] theorem setOtpGroup_pending (g : Nat) (t : Tbl OtpGen) (s : State) : (setOtpGroup g t s).pending = s.pending := by
  unfold setOtpGroup
  split <;> simp [*]
@[simp] theorem execOtpWrite_waiting (h : Hdr) (p : OtpWriteP) (s : State) : waiting (execOtpWrite h p s) = s.pending := by simp [execOtpWrite]
@[simp] theorem execOtpWriteDone_waiting (ok : Bool) (s : State) : waiting (execOtpWriteDone ok s) = s.pending := by
  unfold execOtpWriteDone
  dsimp only [waiting]
  (repeat' split) <;> simp [*]
@[simp] theorem execFlashImageWrite_waiting (h : Hdr) (p : FlashImageWriteP) (s : State) : waiting (execFlashImageWrite h p s) = s.pending := by
  simp [execFlashImageWrite]
@[simp] theorem execFlashImageWritten_waiting (img : ImageIn) (s : State) : waiting (execFlashImageWritten img s) = s.pending := by
  unfold execFlashImageWritten
  dsimp only [waiting]
  (repeat' split) <;> simp [*]
@[simp] theorem execFlashConfig_waiting (h : Hdr) (p : FlashConfigP) (s : State) : waiting (execFlashConfig h p s) = s.pending := by
  simp [execFlashConfig]
@[simp] theorem execRateLimitRefill_waiting (code : U16) (s : State) : waiting (execRateLimitRefill code s) = s.pending := by
  simp [execRateLimitRefill]
@[simp] theorem execFlushPeriodic_waiting (s : State) : waiting (execFlushPeriodic s) = s.pending := by
  rw [execFlushPeriodic, waiting_next]
  split
  · rfl
  · split
    · rfl
    · rw [beginFlush_pending]
@[simp] theorem execFlushStart_waiting (s : State) : waiting (execFlushStart s) = s.pending := by simp [execFlushStart]
@[simp] theorem execFlushDone_waiting (ok : Bool) (s : State) : waiting (execFlushDone ok s) = s.pending := by simp [execFlushDone]
@[simp] theorem execOpTimeLogWrite_waiting (s : State) : waiting (execOpTimeLogWrite s) = s.pending := by
  rw [execOpTimeLogWrite, waiting_next]
  split
  · rfl
  · split
    · rw [eraseSectors_pending]
    · rfl

/-! ### Operations of power-up, boot, reset and power failure -/

@[simp] theorem cutWrites_pending (s : State) : (cutWrites s).pending = s.pending := by
  unfold cutWrites
  split <;> simp [*]
@[simp] theorem clearAll_pending (s0 : State) : (clearAll s0).pending = s0.pending := by simp [clearAll]
@[simp] theorem haltAt_pending (stage code : Nat) (s : State) : (haltAt stage code s).pending = s.pending := by simp [haltAt]
@[simp] theorem warn_pending (c : Bool) (cause : U8) (s : State) : (warn c cause s).pending = s.pending := by simp [warn]
@[simp] theorem bootHosts_pending (s : State) : (bootHosts s).pending = s.pending := by simp [bootHosts]
@[simp] theorem bootMacs_pending (s : State) : (bootMacs s).pending = s.pending := by simp [bootMacs]
@[simp] theorem saveAt_pending (ts : Nat) (s : State) : (saveAt ts s).pending = s.pending := by simp [saveAt]
@[simp] theorem startGaps_pending (kind : GapKind) (start end_ : Nat) (unknown isOpen : Bool) (s : State) :
    (startGaps kind start end_ unknown isOpen s).pending = s.pending := by
  simp [startGaps]
@[simp] theorem restoreEnergy_pending (s : State) : (restoreEnergy s).pending = s.pending := by
  unfold restoreEnergy
  dsimp only
  split <;> simp [*]
@[simp] theorem restoreRecords_pending (s : State) : (restoreRecords s).pending = s.pending := by simp [restoreRecords]
@[simp] theorem findTorn_pending (b : BootIn) (s : State) : (findTorn b s).pending = s.pending := by
  unfold findTorn
  dsimp only
  (repeat' split) <;> simp [*]
@[simp] theorem countCycle_pending (s0 : State) : (countCycle s0).pending = s0.pending := by simp [countCycle]
@[simp] theorem restoreStage_pending (b : BootIn) (s : State) : (restoreStage b s).pending = s.pending := by simp [restoreStage]
@[simp] theorem applyStored_pending (c : StoredCfg) (s : State) : (applyStored c s).pending = s.pending := by simp [applyStored]
@[simp] theorem chooseStored_pending (b : BootIn) (s : State) : (chooseStored b s).pending = s.pending := by simp [chooseStored]
@[simp] theorem checkSeal_pending (bad : U16) (s : State) : (checkSeal bad s).pending = s.pending := by simp [checkSeal]
theorem pending_ite {c : Prop} [Decidable c] {a b : State} {l : List Instr} (ha : a.pending = l) (hb : b.pending = l) :
    (if c then a else b).pending = l := by
  split
  · exact ha
  · exact hb
theorem otpRead_pending (s : State) (c : Bool) : (warn c 4 (bootMacs (bootHosts (refreshOtp s)))).pending = s.pending := by simp
theorem popRead_pending {c d : Bool} {s : State} {l : List Instr} {p : PopBlk} (h : s.pending = l) :
    (warn c 0 (warn d 0 { s with pop := p })).pending = l := by
  simp [h]
theorem devRead_pending {c : Bool} {s : State} {l : List Instr} {d : DevBlk} (h : s.pending = l) :
    (warn c 1 { s with dev := d }).pending = l := by
  simp [h]
@[simp] theorem bootStages_pending (ovr : U8) (b : BootIn) (s0 : State) : (bootStages ovr b s0).pending = s0.pending := by
  unfold bootStages
  refine pending_ite (haltAt_pending _ _ _) (pending_ite (haltAt_pending _ _ _) ?_)
  refine pending_ite ((haltAt_pending _ _ _).trans (otpRead_pending _ _)) ?_
  refine pending_ite ((haltAt_pending _ _ _).trans (popRead_pending (otpRead_pending _ _))) ?_
  split
  · exact (haltAt_pending _ _ _).trans (popRead_pending (otpRead_pending _ _))
  · refine pending_ite ((haltAt_pending _ _ _).trans (devRead_pending (popRead_pending (otpRead_pending _ _)))) ?_
    refine pending_ite ((haltAt_pending _ _ _).trans (devRead_pending (popRead_pending (otpRead_pending _ _)))) ?_
    exact devRead_pending (popRead_pending (otpRead_pending _ _))
@[simp] theorem bootRestore_pending (s : State) : (bootRestore s).pending = s.pending := by
  unfold bootRestore
  split <;> simp [*]
@[simp] theorem stageLate_pending (k : Nat) (s : State) : (stageLate k s).pending = s.pending := by simp [stageLate]
@[simp] theorem restart_pending (cause : Cause) (ovr : U8) (b : BootIn) (s : State) : (restart cause ovr b s).pending = s.pending := by
  simp [restart]
@[simp] theorem resumeBoot_pending (b : BootIn) (s : State) : (resumeBoot b s).pending = s.pending := by simp [resumeBoot]
@[simp] theorem saveAll_pending (s : State) : (saveAll s).pending = s.pending := by simp [saveAll]
@[simp] theorem partialCycle_pending (tf m : Nat) (s : State) : (partialCycle tf m s).pending = s.pending := by
  unfold partialCycle
  split <;> simp [*]
@[simp] theorem reportFlush_pending (s : State) : (reportFlush s).pending = s.pending := by simp [reportFlush]

/-! ### The reset kinds, boot and power failure -/

@[simp] theorem execPornAssert_waiting (s : State) : waiting (execPornAssert s) = s.pending := by simp [execPornAssert]
@[simp] theorem execPowerOnReset_waiting (b : BootIn) (s : State) : waiting (execPowerOnReset b s) = s.pending := by simp [execPowerOnReset]
@[simp] theorem execBootStageTimeout_waiting (stage : BitVec 3) (s : State) : waiting (execBootStageTimeout stage s) = s.pending := by
  simp [execBootStageTimeout]
@[simp] theorem execBootReady_waiting (stageMs : List U16) (s0 : State) : waiting (execBootReady stageMs s0) = s0.pending := by
  unfold execBootReady
  dsimp only [waiting]
  (repeat' split) <;> simp [*]
@[simp] theorem systemReset_pending (b : BootIn) (clean : Bool) (s : State) : (systemReset b clean s).pending = s.pending := by simp [systemReset]
@[simp] theorem execSystemReset_waiting (b : BootIn) (s : State) : waiting (execSystemReset b s) = s.pending := by simp [execSystemReset]
@[simp] theorem execWatchdogExpiry_waiting (b : BootIn) (s : State) : waiting (execWatchdogExpiry b s) = s.pending := by simp [execWatchdogExpiry]
@[simp] theorem execFirmwareHalt_waiting (b : BootIn) (s : State) : waiting (execFirmwareHalt b s) = s.pending := by simp [execFirmwareHalt]
@[simp] theorem execDeviceReset_waiting (h : Hdr) (p : DeviceResetP) (s : State) : waiting (execDeviceReset h p s) = s.pending := by
  simp [execDeviceReset]
@[simp] theorem execDeviceResetExecute_waiting (b : BootIn) (s : State) : waiting (execDeviceResetExecute b s) = s.pending := by
  unfold execDeviceResetExecute
  dsimp only [waiting]
  (repeat' split) <;> simp [*]
@[simp] theorem execPfailAssert_waiting (s : State) : waiting (execPfailAssert s) = s.pending := by
  unfold execPfailAssert
  dsimp only [waiting]
  (repeat' split) <;> simp [*]
@[simp] theorem execPfailRise_waiting (b : BootIn) (s : State) : waiting (execPfailRise b s) = s.pending := by simp [execPfailRise]
@[simp] theorem execPowerFailFlushEnd_waiting (complete : Bool) (s : State) : waiting (execPowerFailFlushEnd complete s) = s.pending := by
  unfold execPowerFailFlushEnd
  dsimp only [waiting]
  (repeat' split) <;> simp [*]
@[simp] theorem execStartupGapTimeout_waiting (s : State) : waiting (execStartupGapTimeout s) = s.pending := by simp [execStartupGapTimeout]
@[simp] theorem execUndefinedOpcode_waiting (h : Hdr) (opcode : U16) (s : State) : waiting (execUndefinedOpcode h opcode s) = s.pending := by
  unfold execUndefinedOpcode
  dsimp only [waiting]
  (repeat' split) <;> simp [*]

/-! ### Operations of the voice subsystem -/

@[simp] theorem chEvt_pending (code sev ch : Nat) (params : Bytes) (s : State) : (chEvt code sev ch params s).pending = s.pending := by simp [chEvt]
@[simp] theorem chState_pending (ch old new cause : Nat) (s : State) : (chState ch old new cause s).pending = s.pending := by simp [chState]
@[simp] theorem startLattice_pending (s : State) : (startLattice s).pending = s.pending := by simp [startLattice]
@[simp] theorem dropRings_pending (p : HP) (l : List Nat) (s : State) : (dropRings p l s).pending = s.pending := by simp [dropRings]
@[simp] theorem sendVoice_pending (rtcp : Bool) (own : TxOwner) (v : VCh) (body : Bytes) (s : State) :
    (sendVoice rtcp own v body s).pending = s.pending := by
  simp [sendVoice]
@[simp] theorem skipQueue_pending (ch cause : Nat) (s : State) : (skipQueue ch cause s).pending = s.pending := by
  unfold skipQueue
  split <;> simp [*]
@[simp] theorem closeCh_pending (ch cause : Nat) (s : State) : (closeCh ch cause s).pending = s.pending := by
  unfold closeCh
  split <;> simp [*]
@[simp] theorem preempt_pending (by_ : Nat) (prio : U8) (l : List (Nat × VCh)) (s : State) : (preempt by_ prio l s).pending = s.pending := by
  simp [preempt]

/-! ### What one lattice block does on a channel -/

@[simp] theorem annStart_pending (ch : Nat) (r : AnnReq) (tai : Nat) (s : State) : (annStart ch r tai s).pending = s.pending := by simp [annStart]
@[simp] theorem annPick_pending (ch start tai : Nat) (s : State) : (annPick ch start tai s).pending = s.pending := by
  unfold annPick
  (repeat' split) <;> simp [*]
@[simp] theorem annBlock_pending (ch : Nat) (s : State) : (annBlock ch s).2.2.pending = s.pending := by
  unfold annBlock
  (repeat' split) <;> simp [*]
@[simp] theorem sendRtp_pending (ch pt : Nat) (marker : Bool) (ts : U32) (payload : Bytes) (s : State) :
    (sendRtp ch pt marker ts payload s).pending = s.pending := by
  unfold sendRtp
  split <;> simp [*]
@[simp] theorem sendBlock_pending (ch : Nat) (pcm : List U16) (s : State) : (sendBlock ch pcm s).pending = s.pending := by
  unfold sendBlock
  split <;> simp [*]
@[simp] theorem eventBlock_pending (ch start : Nat) (s : State) : (eventBlock ch start s).pending = s.pending := by
  unfold eventBlock
  (repeat' split) <;> simp [*]
@[simp] theorem hostOut_pending (ch leg : Nat) (concealed : Bool) (tai : Nat) (pcm : List U16) (s : State) :
    (hostOut ch leg concealed tai pcm s).pending = s.pending := by
  unfold hostOut
  split
  · rfl
  · dsimp only
    split
    next t ht => rw [modCh_pending, ringWrite_pending _ _ _ _ _ ht]
    next => simp
@[simp] theorem toneRecord_pending (ch : Nat) (send : Bool) (kind value level source : Nat) (end_ : Bool) (start durUs : Nat) (s : State) :
    (toneRecord ch send kind value level source end_ start durUs s).pending = s.pending := by
  unfold toneRecord
  split
  · rfl
  · split
    · rfl
    · dsimp only
      split
      next t ht => exact ringWrite_pending _ _ _ _ _ ht
      next => simp
@[simp] theorem toneStep_pending (start tai : Nat) (e : ToneEv) (s0 : State) : (toneStep start tai e s0).pending = s0.pending := by
  unfold toneStep
  dsimp only
  (repeat' split) <;> simp_all
@[simp] theorem receive_pending (ch start tai : Nat) (low : Bool) (ann : List U16) (annDir : Nat) (s : State) :
    (receive ch start tai low ann annDir s).pending = s.pending := by
  unfold receive
  dsimp only
  (repeat' split) <;> simp [*]
@[simp] theorem sendDir_pending (ch start tai : Nat) (ann : List U16) (annDir : Nat) (s : State) :
    (sendDir ch start tai ann annDir s).pending = s.pending := by
  unfold sendDir
  dsimp only
  (repeat' split) <;> simp [*]
@[simp] theorem genBlock_pending (ch : Nat) (s : State) : (genBlock ch s).pending = s.pending := by
  unfold genBlock
  (repeat' split) <;> simp [*]
@[simp] theorem chanBlock_pending (ch start tai : Nat) (low : Bool) (s : State) : (chanBlock ch start tai low s).pending = s.pending := by
  simp [chanBlock]
@[simp] theorem freeClosing_pending (s : State) : (freeClosing s).pending = s.pending := by simp [freeClosing]

/-! ### The commands and events of the voice subsystem -/

@[simp] theorem execVoiceTdmConfig_waiting (h : Hdr) (p : VoiceTdmConfigP) (s : State) : waiting (execVoiceTdmConfig h p s) = s.pending := by
  simp [execVoiceTdmConfig]
@[simp] theorem takeOctet_pending (f : TdmIn) (full : Bool) (c : Nat) (v : VCh) (s : State) : (takeOctet f full c v s).pending = s.pending := by
  simp [takeOctet]
@[simp] theorem tdmOne_pending (f : TdmIn) (s0 : State) : (tdmOne f s0).pending = s0.pending := by
  unfold tdmOne
  extract_lets n words
  split
  · rfl
  · split
    next x s hx =>
    have hs : s.pending = s0.pending := by rw [← fresh_pending s0, hx]
    extract_lets full driven tx s1 voc hw s2 s3 u w uvoc s4
    have h1 : s1.pending = s.pending := foldl_pending (fun t e => by split <;> simp) _ _
    have h3 : s3.pending = s.pending := by unfold s3; split <;> simp [s2, h1]
    have h4 : s4.pending = s.pending := by
      unfold s4
      split
      · exact h3
      · have hu : u.pending = s.pending := (bumpBy_pending _ _ _).trans h3
        split <;> simp [hu]
    refine (foldl_pending (fun t e => ?_) _ _).trans (h4.trans hs)
    split
    · split <;> simp
    · rfl
@[simp] theorem execTdmFrame_waiting (f : List TdmIn) (s : State) : waiting (execTdmFrame f s) = s.pending := by simp [execTdmFrame]
@[simp] theorem execVoiceChOpen_waiting (h : Hdr) (p : VoiceCfg) (s : State) : waiting (execVoiceChOpen h p s) = s.pending := by
  unfold execVoiceChOpen
  refine vci_pending _ _ _ _ _ (fun t => ?_)
  (repeat' split) <;> simp [*]
@[simp] theorem ecModify_pending (ch : Nat) (v : VCh) (c : VoiceCfg) (s : State) : (ecModify ch v c s).pending = s.pending := by simp [ecModify]
@[simp] theorem execVoiceChModify_waiting (h : Hdr) (p : VoiceModifyP) (s : State) : waiting (execVoiceChModify h p s) = s.pending := by
  unfold execVoiceChModify
  refine vci_pending _ _ _ _ _ (fun t => ?_)
  (repeat' split) <;> simp [*]
@[simp] theorem chCmd_pending (op : Nat) (u : Bool) (h : Hdr) (p : VoiceChP) (act : Nat → VCh → State → Rep) (s : State)
    (hact : ∀ x0 x1 x2, (act x0 x1 x2).s.pending = x2.pending) :
    (chCmd op u h p act s).pending = s.pending := by
  unfold chCmd
  refine vci_pending _ _ _ _ _ (fun t => ?_)
  split
  · simp
  · split <;> simp [hact]
@[simp] theorem execVoiceChStart_waiting (h : Hdr) (p : VoiceChP) (s : State) : waiting (execVoiceChStart h p s) = s.pending := by
  simp [execVoiceChStart]
@[simp] theorem execVoiceChStop_waiting (h : Hdr) (p : VoiceChP) (s : State) : waiting (execVoiceChStop h p s) = s.pending := by
  simp [execVoiceChStop]
@[simp] theorem execEcReset_waiting (h : Hdr) (p : VoiceChP) (s : State) : waiting (execEcReset h p s) = s.pending := by simp [execEcReset]
@[simp] theorem execEcFreeze_waiting (h : Hdr) (p : VoiceChP) (s : State) : waiting (execEcFreeze h p s) = s.pending := by simp [execEcFreeze]
@[simp] theorem execEcUnfreeze_waiting (h : Hdr) (p : VoiceChP) (s : State) : waiting (execEcUnfreeze h p s) = s.pending := by simp [execEcUnfreeze]
@[simp] theorem resyncEvt_pending (ch : Nat) (s : State) : (resyncEvt ch s).pending = s.pending := by simp [resyncEvt]
@[simp] theorem execJitterResync_waiting (h : Hdr) (p : VoiceChP) (s : State) : waiting (execJitterResync h p s) = s.pending := by
  simp [execJitterResync]
@[simp] theorem execAnnouncementStop_waiting (h : Hdr) (p : VoiceChP) (s : State) : waiting (execAnnouncementStop h p s) = s.pending := by
  unfold execAnnouncementStop
  refine vci_pending _ _ _ _ _ (fun t => ?_)
  dsimp only
  (repeat' split) <;> simp [*]
@[simp] theorem execVoiceChClose_waiting (h : Hdr) (p : VoiceChP) (s : State) : waiting (execVoiceChClose h p s) = s.pending := by
  simp [execVoiceChClose]
@[simp] theorem execVoiceSrtpKey_waiting (h : Hdr) (p : VoiceSrtpKeyP) (s : State) : waiting (execVoiceSrtpKey h p s) = s.pending := by
  unfold execVoiceSrtpKey
  refine vci_pending _ _ _ _ _ (fun t => ?_)
  (repeat' split) <;> simp [*]
@[simp] theorem execVoiceToneProfile_waiting (h : Hdr) (p : VoiceToneProfileP) (s : State) : waiting (execVoiceToneProfile h p s) = s.pending := by
  simp [execVoiceToneProfile]
@[simp] theorem execVoiceToneBind_waiting (h : Hdr) (p : RingBindP) (s : State) : waiting (execVoiceToneBind h p s) = s.pending := by
  unfold execVoiceToneBind
  refine vci_pending _ _ _ _ _ (fun t => ?_)
  (repeat' split) <;> simp [*]
@[simp] theorem execVoiceToneGen_waiting (h : Hdr) (p : VoiceToneGenP) (s : State) : waiting (execVoiceToneGen h p s) = s.pending := by
  unfold execVoiceToneGen
  refine vci_pending _ _ _ _ _ (fun t => ?_)
  (repeat' split) <;> simp [*]
@[simp] theorem execVoiceAnnLoad_waiting (h : Hdr) (p : VoiceAnnLoadP) (s : State) : waiting (execVoiceAnnLoad h p s) = s.pending := by
  simp [execVoiceAnnLoad]
@[simp] theorem execVoiceAnnLoaded_waiting (ann : BitVec 6) (data : Bytes) (s : State) : waiting (execVoiceAnnLoaded ann data s) = s.pending := by
  unfold execVoiceAnnLoaded
  dsimp only [waiting]
  (repeat' split) <;> simp [*]
@[simp] theorem execVoiceAnnMapSet_waiting (h : Hdr) (p : VoiceAnnMapP) (s : State) : waiting (execVoiceAnnMapSet h p s) = s.pending := by
  simp [execVoiceAnnMapSet]
@[simp] theorem execVoiceAnnMapRemove_waiting (h : Hdr) (p : VoiceAnnMapP) (s : State) : waiting (execVoiceAnnMapRemove h p s) = s.pending := by
  simp [execVoiceAnnMapRemove]
@[simp] theorem execVoiceAnnPlay_waiting (h : Hdr) (p : VoiceAnnPlayP) (s : State) : waiting (execVoiceAnnPlay h p s) = s.pending := by
  simp [execVoiceAnnPlay]
@[simp] theorem idleBlock_pending (ch : Nat) (v : VCh) (tai : Nat) (s : State) : (idleBlock ch v tai s).pending = s.pending := by simp [idleBlock]
@[simp] theorem execVoiceBlock_waiting (b : VoiceBlockIn) (s : State) : waiting (execVoiceBlock b s) = s.pending := by
  rw [execVoiceBlock, waiting_next]
  split
  · rfl
  · refine (foldl_pending (fun t e => ?_) _ _).trans ((foldl_pending (fun t o => ?_) _ _).trans
      ((foldl_pending (fun t e => toneStep_pending _ _ e t) _ _).trans (freeClosing_pending _)))
    · split <;> simp
    · split
      · split <;> simp
      · rfl
@[simp] theorem authFail_pending (ch : Nat) (v : VCh) (s : State) : (authFail ch v s).pending = s.pending := by simp [authFail]
@[simp] theorem endRxEvent_pending (ch : Nat) (e : TelEvent) (dur : Nat) (s : State) : (endRxEvent ch e dur s).pending = s.pending := by
  simp [endRxEvent]
@[simp] theorem rxEvent_pending (ch tai el : Nat) (v : VCh) (p : RtpPacket) (s : State) : (rxEvent ch tai el v p s).pending = s.pending := by
  unfold rxEvent
  (repeat' split) <;> simp [*]
@[simp] theorem acceptRtp_pending (ch tai el : Nat) (p : RtpPacket) (idx : Nat) (old : Bool) (v0 : VCh) (s0 : State) :
    (acceptRtp ch tai el p idx old v0 s0).pending = s0.pending := by
  simp [acceptRtp]
@[simp] theorem execRtpPacketRx_waiting (p : RtpPacket) (s0 : State) : waiting (execRtpPacketRx p s0) = s0.pending := by
  rw [execRtpPacketRx, waiting_next]
  split
  · rfl
  · have hs := popIn_pending p.port.toNat .c1 s0
    split
    · exact hs
    · extract_lets v fail other ctx idx auth pt now_ old ev
      have hf : ∀ i, (fail i).pending = s0.pending := fun i => (setCh_pending _ _ _).trans hs
      (repeat' split) <;> simp [*]
@[simp] theorem execDtmfEventTimeout_waiting (ch : U16) (s : State) : waiting (execDtmfEventTimeout ch s) = s.pending := by
  unfold execDtmfEventTimeout
  dsimp only [waiting]
  (repeat' split) <;> simp [*]
@[simp] theorem execRtcpTx_waiting (ch : U16) (s : State) : waiting (execRtcpTx ch s) = s.pending := by
  unfold execRtcpTx
  dsimp only [waiting]
  (repeat' split) <;> simp [*]
@[simp] theorem execRtcpRx_waiting (r : RtcpReport) (s0 : State) : waiting (execRtcpRx r s0) = s0.pending := by
  unfold execRtcpRx
  dsimp only [waiting]
  (repeat' split) <;> simp [*]
@[simp] theorem execVoiceMediaTimeout_waiting (ch : U16) (s : State) : waiting (execVoiceMediaTimeout ch s) = s.pending := by
  unfold execVoiceMediaTimeout
  dsimp only [waiting]
  (repeat' split) <;> simp [*]
@[simp] theorem execHostVoiceBlock_waiting (b : HostVoice) (s : State) : waiting (execHostVoiceBlock b s) = s.pending := by
  unfold execHostVoiceBlock
  dsimp only [waiting]
  (repeat' split) <;> simp [*]

/-! ### The commands and events of the Yarrow scheduler -/

@[simp] theorem execYarrowConfig_waiting (h : Hdr) (p : YarrowConfigP) (s : State) : waiting (execYarrowConfig h p s) = s.pending := by
  simp [execYarrowConfig]
@[simp] theorem execYarrowLoadBind_waiting (h : Hdr) (p : YarrowLoadBindP) (s : State) : waiting (execYarrowLoadBind h p s) = s.pending := by
  unfold execYarrowLoadBind
  refine vci_pending _ _ _ _ _ (fun t => ?_)
  dsimp only
  (repeat' split) <;> simp [*]
@[simp] theorem execTaskDispatch_waiting (s : State) : waiting (execTaskDispatch s) = s.pending := by simp [execTaskDispatch]
@[simp] theorem execDelayExpiry_waiting (s : State) : waiting (execDelayExpiry s) = s.pending := by simp [execDelayExpiry]
@[simp] theorem coreWindow_pending (n : Nat) (s : State) : (coreWindow n s).pending = s.pending := by simp [coreWindow]
@[simp] theorem loadWindow_pending (p : HP) (s : State) : (loadWindow p s).pending = s.pending := by
  unfold loadWindow
  split
  · rfl
  · dsimp only
    split
    · rfl
    · split
      · rfl
      · dsimp only
        split
        next t ht => exact ringWrite_pending _ _ _ _ _ ht
        next => simp
theorem withYar_pending (s : State) (y : YarBlk) : ({ s with yar := y } : State).pending = s.pending := rfl
theorem coreWindows_pending (l : List Nat) (s : State) : (l.foldl (fun t n => coreWindow n t) s).pending = s.pending := by
  induction l generalizing s with
  | nil => rfl
  | cons n l ih => rw [List.foldl_cons, ih, coreWindow_pending]
@[simp] theorem execLoadWindowEnd_waiting (s : State) : waiting (execLoadWindowEnd s) = s.pending := by
  rw [execLoadWindowEnd, waiting_next]
  split
  · rfl
  · exact (withYar_pending _ _).trans ((foldl_pending (fun t p => loadWindow_pending p t) _ _).trans (coreWindows_pending _ _))
@[simp] theorem moveTask_pending (t : Nat) (k : Task) (cl : Nat) (s : State) : (moveTask t k cl s).pending = s.pending := by
  unfold moveTask
  split <;> simp [*]
@[simp] theorem applyTaskMove_pending (t reason cl : Nat) (s : State) : (applyTaskMove t reason cl s).pending = s.pending := by
  unfold applyTaskMove
  split <;> simp [*]
@[simp] theorem applyPlaceMove_pending (v : PlacementIn) (m : MoveP) (s : State) : (applyPlaceMove v m s).pending = s.pending := by
  unfold applyPlaceMove
  dsimp only
  (repeat' split) <;> simp [*]
@[simp] theorem applyMove_pending (v : PlacementIn) (s : State) (m : MoveP) : (applyMove v s m).pending = s.pending := by
  unfold applyMove
  (repeat' split) <;> simp [*]
@[simp] theorem closeLoads_pending (s : State) : (closeLoads s).pending = s.pending := by simp [closeLoads]
@[simp] theorem execPlacementEvaluation_waiting (v : PlacementIn) (s : State) : waiting (execPlacementEvaluation v s) = s.pending := by
  rw [execPlacementEvaluation, waiting_next]
  split
  · rfl
  · rw [foldl_pending (fun t m => applyMove_pending v t m), closeLoads_pending]

/-! ### The commands and events of disturbance capture and Halga records -/

@[simp] theorem bindOpt_pending (p : HP) (r : Option Nat) (u : RingUse) (s : State) : (bindOpt p r u s).pending = s.pending := by
  unfold bindOpt
  split <;> simp [*]
@[simp] theorem unbindOpt_pending (p : HP) (r : Option Nat) (u : RingUse) (s : State) : (unbindOpt p r u s).pending = s.pending := by
  unfold unbindOpt
  split <;> simp [*]
@[simp] theorem execCaptureAdd_waiting (h : Hdr) (p : CaptureAddP) (s : State) : waiting (execCaptureAdd h p s) = s.pending := by
  unfold execCaptureAdd
  refine vci_pending _ _ _ _ _ (fun t => ?_)
  (repeat' split) <;> simp [*]
@[simp] theorem execCaptureSources_waiting (h : Hdr) (p : CaptureSourcesP) (s : State) : waiting (execCaptureSources h p s) = s.pending := by
  unfold execCaptureSources
  refine vci_pending _ _ _ _ _ (fun t => ?_)
  (repeat' split) <;> simp [*]
@[simp] theorem execCaptureTriggerSet_waiting (h : Hdr) (p : CaptureTriggerSetP) (s : State) :
    waiting (execCaptureTriggerSet h p s) = s.pending := by
  unfold execCaptureTriggerSet
  refine vci_pending _ _ _ _ _ (fun t => ?_)
  (repeat' split) <;> simp [*]
@[simp] theorem execCaptureArm_waiting (h : Hdr) (p : CaptureArmP) (s : State) : waiting (execCaptureArm h p s) = s.pending := by
  unfold execCaptureArm
  refine vci_pending _ _ _ _ _ (fun t => ?_)
  (repeat' split) <;> simp [*]
@[simp] theorem execCaptureDisarm_waiting (h : Hdr) (p : CaptureArmP) (s : State) : waiting (execCaptureDisarm h p s) = s.pending := by
  unfold execCaptureDisarm
  refine vci_pending _ _ _ _ _ (fun t => ?_)
  (repeat' split) <;> simp [*]
@[simp] theorem execCaptureFilled_waiting (capture : U8) (s : State) : waiting (execCaptureFilled capture s) = s.pending := by
  unfold execCaptureFilled
  dsimp only [waiting]
  (repeat' split) <;> simp [*]
@[simp] theorem execCaptureTrigger_waiting (h : Hdr) (p : CaptureTriggerP) (s : State) : waiting (execCaptureTrigger h p s) = s.pending := by
  simp [execCaptureTrigger]
@[simp] theorem execTriggerHoldoffEnd_waiting (capture : U8) (entry : BitVec 4) (s : State) :
    waiting (execTriggerHoldoffEnd capture entry s) = s.pending := by
  unfold execTriggerHoldoffEnd
  dsimp only [waiting]
  (repeat' split) <;> simp [*]
@[simp] theorem execCaptureRemoteConfig_waiting (h : Hdr) (p : CaptureRemoteConfigP) (s : State) :
    waiting (execCaptureRemoteConfig h p s) = s.pending := by
  simp [execCaptureRemoteConfig]
@[simp] theorem remoteBad_pending (cause : Nat) (f : RemoteRx) (s : State) : (remoteBad cause f s).pending = s.pending := by simp [remoteBad]
@[simp] theorem fireRemote_pending (f : RemoteRx) (s : State) : (fireRemote f s).pending = s.pending := by simp [fireRemote]
@[simp] theorem execRemoteTriggerRx_waiting (f : RemoteRx) (s : State) : waiting (execRemoteTriggerRx f s) = s.pending := by
  simp [execRemoteTriggerRx]
@[simp] theorem settleRecords_pending (c : Nat) (s : State) : (settleRecords c s).pending = s.pending := by
  unfold settleRecords
  split <;> simp [*]
@[simp] theorem patchItem_pending (c lane base tag : Nat) (old new : List U64) (s : State) :
    (patchItem c lane base tag old new s).pending = s.pending := by
  simp [patchItem]
@[simp] theorem newRow_pending (c lane : Nat) (k : Cap) (l : Lane) (r : Nat × List U64) (s : State) :
    (newRow c lane k l r s).pending = s.pending := by
  unfold newRow
  dsimp only
  split <;> simp [*]
@[simp] theorem lostRows_pending (c lane : Nat) (k : Cap) (l : Lane) (a0 : Nat) (a1 : Nat) (a2 : State) :
    (lostRows c lane k l a0 a1 a2).pending = a2.pending := by
  fun_induction lostRows c lane k l a0 a1 a2 <;> simp_all
@[simp] theorem patchRow_pending (c lane : Nat) (k : Cap) (l : Lane) (tag : Nat) (words : List U64) (s : State) :
    (patchRow c lane k l tag words s).pending = s.pending := by
  unfold patchRow
  split <;> simp [*]
@[simp] theorem tookTo_pending (c lane el : Nat) (s : State) : (tookTo c lane el s).pending = s.pending := by simp [tookTo]
@[simp] theorem execCaptureRows_waiting (capture : U8) (lane : U8) (rows : CapIn) (s : State) :
    waiting (execCaptureRows capture lane rows s) = s.pending := by
  unfold execCaptureRows
  dsimp only [waiting]
  (repeat' split) <;> simp [*]
@[simp] theorem execRecordAssembled_waiting (capture : U8) (slot : U8) (s0 : State) :
    waiting (execRecordAssembled capture slot s0) = s0.pending := by
  unfold execRecordAssembled
  dsimp only [waiting]
  (repeat' split) <;> simp [*]
@[simp] theorem execCaptureRecordFree_waiting (h : Hdr) (p : CaptureRecordFreeP) (s : State) :
    waiting (execCaptureRecordFree h p s) = s.pending := by
  unfold execCaptureRecordFree
  refine vci_pending _ _ _ _ _ (fun t => ?_)
  (repeat' split) <;> simp [*]
@[simp] theorem setRecAt_pending (source c slot : Nat) (r : Option RecSlot) (s : State) : (setRecAt source c slot r s).pending = s.pending := by
  unfold setRecAt
  dsimp only
  split <;> simp [*]
@[simp] theorem delJob_pending (id : Nat) (s : State) : (delJob id s).pending = s.pending := by simp [delJob]
@[simp] theorem execCaptureExport_waiting (h : Hdr) (p : CaptureExportP) (s : State) : waiting (execCaptureExport h p s) = s.pending := by
  unfold execCaptureExport
  refine vci_pending _ _ _ _ _ (fun t => ?_)
  dsimp only
  (repeat' split) <;> simp [*]
@[simp] theorem execCaptureExportDone_waiting (cmd_ : U32) (s : State) : waiting (execCaptureExportDone cmd_ s) = s.pending := by
  rw [execCaptureExportDone, waiting_next]
  dsimp only
  split
  · split
    · rfl
    · split
      · rfl
      · next t ht => simp [ringWrite_pending _ _ _ _ _ ht]
  · rfl
@[simp] theorem execCaptureRetire_waiting (h : Hdr) (p : CaptureRetireP) (s : State) : waiting (execCaptureRetire h p s) = s.pending := by
  unfold execCaptureRetire
  refine vci_pending _ _ _ _ _ (fun t => ?_)
  dsimp only
  (repeat' split) <;> simp [*]
@[simp] theorem execCaptureRetireDone_waiting (capture : U8) (s : State) : waiting (execCaptureRetireDone capture s) = s.pending := by
  unfold execCaptureRetireDone
  dsimp only [waiting]
  (repeat' split) <;> simp [*]
@[simp] theorem execHalgaImport_waiting (h : Hdr) (p : HalgaImportP) (s : State) : waiting (execHalgaImport h p s) = s.pending := by
  unfold execHalgaImport
  refine vci_pending _ _ _ _ _ (fun t => ?_)
  dsimp only
  (repeat' split) <;> simp [*]
@[simp] theorem readBuffers_pending (p : HP) (ring : Nat) (st : Sts) (a0 : Nat) (a1 : State) :
    (readBuffers p ring st a0 a1).pending = a1.pending := by
  fun_induction readBuffers p ring st a0 a1 <;> simp [*]
@[simp] theorem execHalgaImportDone_waiting (cmd_ : U32) (r : HalgaIn) (s : State) : waiting (execHalgaImportDone cmd_ r s) = s.pending := by
  unfold execHalgaImportDone
  dsimp only [waiting]
  (repeat' split) <;> simp [*]
@[simp] theorem execHalgaMerge_waiting (h : Hdr) (p : HalgaMergeP) (s : State) : waiting (execHalgaMerge h p s) = s.pending := by
  unfold execHalgaMerge
  refine vci_pending _ _ _ _ _ (fun t => ?_)
  dsimp only
  (repeat' split) <;> simp [*]
@[simp] theorem execHalgaMergeDone_waiting (cmd_ : U32) (s : State) : waiting (execHalgaMergeDone cmd_ s) = s.pending := by
  unfold execHalgaMergeDone
  dsimp only [waiting]
  (repeat' split) <;> simp [*]

/-! ### The JTAG TAP -/

@[simp] theorem captureDr_pending (s : State) : (captureDr s).pending = s.pending := by
  unfold captureDr
  split <;> simp [*]
@[simp] theorem tapRise_pending (e : TckEdge) (s : State) : (tapRise e s).pending = s.pending := by
  unfold tapRise
  split <;> simp [*]
@[simp] theorem tapFall_pending (s : State) : (tapFall s).pending = s.pending := by simp [tapFall]
@[simp] theorem execJtagTck_waiting (e : TckEdge) (s : State) : waiting (execJtagTck e s) = s.pending := by simp [execJtagTck]

/-! ### The commands and events of user kernels -/

@[simp] theorem execKernelLoad_waiting (h : Hdr) (p : KernelLoadP) (s : State) : waiting (execKernelLoad h p s) = s.pending := by
  unfold execKernelLoad
  refine vci_pending _ _ _ _ _ (fun t => ?_)
  dsimp only
  (repeat' split) <;> simp [*]
theorem withSor_pending (s : State) (k : SorBlk) : ({ s with sor := k } : State).pending = s.pending := rfl
@[simp] theorem execKernelLoaded_waiting (kernel : BitVec 5) (bytes : Bytes) (sig : BelethSig) (s : State) :
    waiting (execKernelLoaded kernel bytes sig s) = s.pending := by
  rw [execKernelLoaded, waiting_next]
  split
  · rfl
  · next x hx =>
    split
    · rfl
    · extract_lets data img s1 failed
      have h1 : s1.pending = s.pending := by unfold s1; split <;> simp
      split
      · rw [completeOpt_pending, raise_pending, bump_pending]
        exact (withSor_pending _ _).trans h1
      · rw [completeOpt_pending, raise_pending, bump_pending, foldl_pending (fun t n => setCore_pending n _ t), setKern_pending]
        exact h1
      · exact h1
@[simp] theorem execKernelBindAdd_waiting (h : Hdr) (p : KernelBindP) (s : State) : waiting (execKernelBindAdd h p s) = s.pending := by
  unfold execKernelBindAdd
  refine vci_pending _ _ _ _ _ (fun t => ?_)
  dsimp only
  split
  · simp
  · split
    · simp
    · split
      · simp
      · split
        · simp
        · next ts t1 h1 =>
          have h2 := addTasks_pending _ _ _ _ _ _ _ _ _ _ _ h1
          rw [done_pending, armTimer_pending]
          split
          · rw [bindRing_pending, modKern_pending, h2]
          · rw [modKern_pending, h2]
@[simp] theorem execKernelBindRemove_waiting (h : Hdr) (p : KernelBindP) (s : State) : waiting (execKernelBindRemove h p s) = s.pending := by
  unfold execKernelBindRemove
  refine vci_pending _ _ _ _ _ (fun t => ?_)
  (repeat' split) <;> simp [*]
@[simp] theorem execKernelStart_waiting (h : Hdr) (p : KernelStartP) (s : State) : waiting (execKernelStart h p s) = s.pending := by
  unfold execKernelStart
  refine vci_pending _ _ _ _ _ (fun t => ?_)
  dsimp only
  (repeat' split) <;> simp [*]
@[simp] theorem execKernelStop_waiting (h : Hdr) (p : KernelP) (s : State) : waiting (execKernelStop h p s) = s.pending := by
  unfold execKernelStop
  refine vci_pending _ _ _ _ _ (fun t => ?_)
  dsimp only
  (repeat' split) <;> simp [*]
@[simp] theorem execKernelStopped_waiting (kernel : BitVec 5) (s : State) : waiting (execKernelStopped kernel s) = s.pending := by
  unfold execKernelStopped
  dsimp only [waiting]
  (repeat' split) <;> simp [*]
@[simp] theorem execKernelUnload_waiting (h : Hdr) (p : KernelP) (s : State) : waiting (execKernelUnload h p s) = s.pending := by
  unfold execKernelUnload
  refine vci_pending _ _ _ _ _ (fun t => ?_)
  dsimp only
  split
  · simp
  · split
    · simp
    · rw [done_pending, raise_pending, completeOpt_pending, withSor_pending, foldl_pending (fun u n => setCore_pending n _ u),
        foldl_pending (fun u b => dropBind_pending _ _ _ u)]
@[simp] theorem takeMessage_pending (p : HP) (n : Nat) (st : Sts) (a0 : List Desc) (a1 : State) :
    (takeMessage p n st a0 a1).pending = a1.pending := by
  induction a0 generalizing a1 with
  | nil => rfl
  | cons d t ih =>
    unfold takeMessage
    dsimp only
    split
    · simp
    · rw [ih, completeDesc_pending]
@[simp] theorem execKernelInputMessage_waiting (m : KernelMsg) (s : State) : waiting (execKernelInputMessage m s) = s.pending := by
  unfold execKernelInputMessage
  dsimp only [waiting]
  (repeat' split) <;> simp [*]

/-! ### The commands and events of the network ports and PRP pairs -/

@[simp] theorem execPortConfig_waiting (h : Hdr) (p : PortConfigP) (s : State) : waiting (execPortConfig h p s) = s.pending := by
  simp [execPortConfig]
@[simp] theorem execPrpConfig_waiting (h : Hdr) (p : PrpConfigP) (s : State) : waiting (execPrpConfig h p s) = s.pending := by simp [execPrpConfig]
@[simp] theorem execPortTxBind_waiting (h : Hdr) (p : PortTxBindP) (s : State) : waiting (execPortTxBind h p s) = s.pending := by
  unfold execPortTxBind
  dsimp only [waiting]
  (repeat' split) <;> simp [*]
@[simp] theorem execPortLinkUp_waiting (port : BitVec 4) (speed : BitVec 3) (halfDuplex : Bool) (s : State) :
    waiting (execPortLinkUp port speed halfDuplex s) = s.pending := by
  simp [execPortLinkUp]
@[simp] theorem execPortLinkDown_waiting (port : BitVec 4) (s : State) : waiting (execPortLinkDown port s) = s.pending := by simp [execPortLinkDown]
@[simp] theorem execLanSilence_waiting (port : BitVec 4) (s : State) : waiting (execLanSilence port s) = s.pending := by simp [execLanSilence]
@[simp] theorem execPrpSupervisionTx_waiting (pair : Bool) (s : State) : waiting (execPrpSupervisionTx pair s) = s.pending := by
  simp [execPrpSupervisionTx]
@[simp] theorem execPrpSupervisionRx_waiting (port : BitVec 4) (s : State) : waiting (execPrpSupervisionRx port s) = s.pending := by
  simp [execPrpSupervisionRx]
@[simp] theorem execHostFrameTx_waiting (part : HP) (ring : BitVec 6) (f : HostFrame) (s : State) :
    waiting (execHostFrameTx part ring f s) = s.pending := by
  unfold execHostFrameTx
  dsimp only [waiting]
  (repeat' split) <;> simp [*]
@[simp] theorem execFieldCollision_waiting (port : BitVec 4) (s : State) : waiting (execFieldCollision port s) = s.pending := by
  unfold execFieldCollision
  dsimp only [waiting]
  (repeat' split) <;> simp [*]
@[simp] theorem execBackoffExpiry_waiting (port : BitVec 4) (s : State) : waiting (execBackoffExpiry port s) = s.pending := by
  unfold execBackoffExpiry
  dsimp only [waiting]
  (repeat' split) <;> simp [*]
@[simp] theorem execCarrierSenseDrop_waiting (port : BitVec 4) (s : State) : waiting (execCarrierSenseDrop port s) = s.pending := by
  unfold execCarrierSenseDrop
  dsimp only [waiting]
  (repeat' split) <;> simp [*]
@[simp] theorem pressureEnd_pending (k : Nat) (s : State) : (pressureEnd k s).pending = s.pending := by simp [pressureEnd]
theorem withNet_pending (s : State) (n : NetBlk) : ({ s with net := n } : State).pending = s.pending := rfl
@[simp] theorem execPressureWindowEnd_waiting (s : State) : waiting (execPressureWindowEnd s) = s.pending := by
  rw [execPressureWindowEnd, waiting_next]
  split
  · rfl
  · exact (foldl_pending (fun t k => pressureEnd_pending k t) _ _).trans (withNet_pending _ _)
@[simp] theorem rctStage_pending (k : Nat) (f : RxFrame) (s : State) : (rctStage k f s).2.pending = s.pending := by
  unfold rctStage
  (repeat' split) <;> simp [*]
@[simp] theorem execFrameRx_waiting (f : RxFrame) (s : State) : waiting (execFrameRx f s) = s.pending := by simp [execFrameRx]

/-! ### The commands and events of the host partitions -/

@[simp] theorem execIdentify_waiting (h : Hdr) (s : State) : waiting (execIdentify h s) = s.pending := by simp [execIdentify]
@[simp] theorem takeSnapshot_pending (p : HP) (q : SnapshotP) (s : State) : (takeSnapshot p q s).pending = s.pending := by simp [takeSnapshot]
@[simp] theorem execSnapshot_waiting (h : Hdr) (p : SnapshotP) (s : State) : waiting (execSnapshot h p s) = s.pending := by simp [execSnapshot]
@[simp] theorem endSnapshot_pending (p : HP) (st : SnapState) (s : State) : (endSnapshot p st s).pending = s.pending := by simp [endSnapshot]
@[simp] theorem execSnapshotRelease_waiting (h : Hdr) (s : State) : waiting (execSnapshotRelease h s) = s.pending := by simp [execSnapshotRelease]
@[simp] theorem abortSnapshot_pending (p : HP) (reason : Nat) (s : State) : (abortSnapshot p reason s).pending = s.pending := by
  simp [abortSnapshot]
@[simp] theorem execSnapshotExpiry_waiting (part : HP) (s : State) : waiting (execSnapshotExpiry part s) = s.pending := by simp [execSnapshotExpiry]
@[simp] theorem execShadowFull_waiting (part : HP) (s : State) : waiting (execShadowFull part s) = s.pending := by simp [execShadowFull]
@[simp] theorem execApertureWindow_waiting (h : Hdr) (p : ApertureWindowP) (s : State) : waiting (execApertureWindow h p s) = s.pending := by
  simp [execApertureWindow]
@[simp] theorem execHeartbeat_waiting (h : Hdr) (p : HeartbeatP) (s : State) : waiting (execHeartbeat h p s) = s.pending := by simp [execHeartbeat]
@[simp] theorem execClaimSet_waiting (h : Hdr) (p : ClaimSetP) (s : State) : waiting (execClaimSet h p s) = s.pending := by simp [execClaimSet]
@[simp] theorem execClaimYield_waiting (h : Hdr) (p : ClaimYieldP) (s : State) : waiting (execClaimYield h p s) = s.pending := by
  simp [execClaimYield]
@[simp] theorem execApportion_waiting (h : Hdr) (p : ApportionP) (s : State) : waiting (execApportion h p s) = s.pending := by simp [execApportion]
@[simp] theorem execPartitionTimers_waiting (h : Hdr) (p : PartitionTimersP) (s : State) : waiting (execPartitionTimers h p s) = s.pending := by
  unfold execPartitionTimers
  refine vci_pending _ _ _ _ _ (fun t => ?_)
  dsimp only
  rw [done_pending, evalAll_pending, foldl_pending (fun a q => modPart_pending _ _ _)]
@[simp] theorem execDmaRingSetup_waiting (h : Hdr) (p : DmaRingSetupP) (s : State) : waiting (execDmaRingSetup h p s) = s.pending := by
  unfold execDmaRingSetup
  refine vci_pending _ _ _ _ _ (fun t => ?_)
  (repeat' split) <;> simp [*]
@[simp] theorem execDmaRingRetire_waiting (h : Hdr) (p : DmaRingRetireP) (s : State) : waiting (execDmaRingRetire h p s) = s.pending := by
  unfold execDmaRingRetire
  refine vci_pending _ _ _ _ _ (fun t => ?_)
  dsimp only
  (repeat' split) <;> simp [*]
@[simp] theorem execDmaRingRetireDone_waiting (part : HP) (ring : BitVec 6) (s : State) :
    waiting (execDmaRingRetireDone part ring s) = s.pending := by
  unfold execDmaRingRetireDone
  dsimp only [waiting]
  (repeat' split) <;> simp [*]
@[simp] theorem execEarlyDoorbell_waiting (part : HP) (urg : Bool) (s : State) : waiting (execEarlyDoorbell part urg s) = s.pending := by
  simp [execEarlyDoorbell]
@[simp] theorem execDiscardedWrite_waiting (part : HP) (_bar : BitVec 3) (s : State) : waiting (execDiscardedWrite part _bar s) = s.pending := by
  simp [execDiscardedWrite]
@[simp] theorem execEvtConsWrite_waiting (part : HP) (value : U32) (s : State) : waiting (execEvtConsWrite part value s) = s.pending := by
  simp [execEvtConsWrite]
@[simp] theorem execHostIdxWrite_waiting (part : HP) (ring : BitVec 6) (value : U32) (descs : List Desc) (s : State) :
    waiting (execHostIdxWrite part ring value descs s) = s.pending := by
  unfold execHostIdxWrite
  dsimp only [waiting]
  (repeat' split) <;> simp [*]
@[simp] theorem execDmaDescriptorDone_waiting (part : HP) (ring : BitVec 6) (poison : U16) (s : State) :
    waiting (execDmaDescriptorDone part ring poison s) = s.pending := by
  unfold execDmaDescriptorDone
  dsimp only [waiting]
  (repeat' split) <;> simp [*]
@[simp] theorem execHbInChange_waiting (part : HP) (level : Bool) (s : State) : waiting (execHbInChange part level s) = s.pending := by
  simp [execHbInChange]
@[simp] theorem execPathVTimeout_waiting (part : HP) (s : State) : waiting (execPathVTimeout part s) = s.pending := by
  rw [execPathVTimeout, waiting_next]
  split
  · rfl
  · rw [evalPart_pending, modPart_pending]
@[simp] theorem execPathPTimeout_waiting (part : HP) (s : State) : waiting (execPathPTimeout part s) = s.pending := by
  rw [execPathPTimeout, waiting_next]
  split
  · rfl
  · rw [evalPart_pending, modPart_pending]
@[simp] theorem execFailureTimerExpiry_waiting (part : HP) (s : State) : waiting (execFailureTimerExpiry part s) = s.pending := by
  simp [execFailureTimerExpiry]
@[simp] theorem execHoldoffTimerExpiry_waiting (part : HP) (s : State) : waiting (execHoldoffTimerExpiry part s) = s.pending := by
  simp [execHoldoffTimerExpiry]
@[simp] theorem execTakeoverDeadline_waiting (part : HP) (s : State) : waiting (execTakeoverDeadline part s) = s.pending := by
  simp [execTakeoverDeadline]
@[simp] theorem execPcieLinkDown_waiting (part : HP) (s : State) : waiting (execPcieLinkDown part s) = s.pending := by simp [execPcieLinkDown]
@[simp] theorem execPcieLinkUp_waiting (part : HP) (s : State) : waiting (execPcieLinkUp part s) = s.pending := by simp [execPcieLinkUp]
@[simp] theorem execPartitionReset_waiting (part : HP) (s : State) : waiting (execPartitionReset part s) = s.pending := by simp [execPartitionReset]

/-! ### Arithmetic of the Sorrel cores -/

@[simp] theorem aluFree_pending (v : U32) (s : State) : (aluFree v s).2.pending = s.pending := by simp [aluFree]
@[simp] theorem aluOpen_pending (s : State) : (aluOpen s).2.pending = s.pending := by simp [aluOpen]
@[simp] theorem aluShift_pending (f : U32 → Nat → U32) (a n : U32) (s : State) : (aluShift f a n s).2.pending = s.pending := by simp [aluShift]
@[simp] theorem qnan_pending (s : State) : (qnan s).2.pending = s.pending := by simp [qnan]
@[simp] theorem fNan_pending (inv : Bool) (s : State) : (fNan inv s).s.pending = s.pending := by simp [fNan]
@[simp] theorem fRound_pending (a : Scale) (zeroNeg : Bool) (s : State) : (fRound a zeroNeg s).s.pending = s.pending := by
  unfold fRound
  split <;> simp [*]
@[simp] theorem fAdd_pending (a0 b0 : U32) (s : State) : (fAdd a0 b0 s).s.pending = s.pending := by
  unfold fAdd
  dsimp only
  (repeat' split) <;> simp [*]
@[simp] theorem fMul_pending (a0 b0 : U32) (s : State) : (fMul a0 b0 s).s.pending = s.pending := by
  unfold fMul
  dsimp only
  (repeat' split) <;> simp [*]
@[simp] theorem fFma_pending (a0 b0 c0 : U32) (s : State) : (fFma a0 b0 c0 s).s.pending = s.pending := by
  unfold fFma
  dsimp only
  (repeat' split) <;> simp [*]
@[simp] theorem fMinMax_pending (mx : Bool) (a0 b0 : U32) (s : State) : (fMinMax mx a0 b0 s).s.pending = s.pending := by
  unfold fMinMax
  dsimp only
  (repeat' split) <;> simp [*]
@[simp] theorem fSign_pending (f : U32 → U32) (a0 : U32) (s : State) : (fSign f a0 s).s.pending = s.pending := by
  unfold fSign
  dsimp only
  split <;> simp [*]
@[simp] theorem fCmp_pending (a0 b0 : U32) (c : Core) (s : State) : (fCmp a0 b0 c s).2.pending = s.pending := by simp [fCmp]
@[simp] theorem fCvt_pending (k : Cvt) (a0 : U32) (s : State) : (fCvt k a0 s).s.pending = s.pending := by
  unfold fCvt
  dsimp only
  (repeat' split) <;> simp [*]
@[simp] theorem fRcp_pending (a0 : U32) (s : State) : (fRcp a0 s).s.pending = s.pending := by
  unfold fRcp
  dsimp only
  (repeat' split) <;> simp [*]
@[simp] theorem fRsq_pending (a0 : U32) (s : State) : (fRsq a0 s).s.pending = s.pending := by
  unfold fRsq
  dsimp only
  (repeat' split) <;> simp [*]
/-- The commands that wait after an instruction's effect, `l` those before it: a fault has no state of its own. -/
def exWaiting (l : List Instr) : Except CoreFault Ex → List Instr
  | .ok x => x.s.pending
  | .error _ => l
@[simp] theorem exWaiting_error (l : List Instr) (k : CoreFault) : exWaiting l (.error k) = l := rfl
@[simp] theorem exWaiting_ok (l : List Instr) (x : Ex) : exWaiting l (.ok x) = x.s.pending := rfl
@[simp] theorem exWaiting_ex1 (l : List Instr) (c : Core) (s : State) : exWaiting l (ex1 c s) = s.pending := rfl
@[simp] theorem exWaiting_ite (l : List Instr) (c : Prop) [Decidable c] (a b : Except CoreFault Ex) :
    exWaiting l (if c then a else b) = if c then exWaiting l a else exWaiting l b :=
  apply_ite (exWaiting l) c a b

/-! ### How a Sorrel core executes an instruction -/

theorem runInstr_pending (core : CoreNo) (reads : List Nat) (words : Nat) (endOk : Bool) (f : Core → State → Except CoreFault Ex)
    (s : State) (hf : ∀ c t, exWaiting t.pending (f c t) = t.pending) : (runInstr core reads words endOk f s).pending = s.pending := by
  unfold runInstr
  extract_lets n c stall c1 s1
  have h1 : s1.pending = s.pending := by simp [s1]
  have h2 := hf c1 s1
  (repeat' split) <;> simp_all
@[simp] theorem aluInstr_pending (core : CoreNo) (reads : List Nat) (d : Fin 16) (f : Core → State → AluOut × State) (s : State)
    (hf : ∀ c t, (f c t).2.pending = t.pending) : (aluInstr core reads d f s).pending = s.pending :=
  runInstr_pending _ _ _ _ _ _ hf
@[simp] theorem fInstr_pending (core : CoreNo) (reads : List Nat) (lat : Nat) (d : Fin 16) (f : Core → State → FOut) (s : State)
    (hf : ∀ c t, (f c t).s.pending = t.pending) : (fInstr core reads lat d f s).pending = s.pending :=
  runInstr_pending _ _ _ _ _ _ hf
@[simp] theorem accInstr_pending (core : CoreNo) (reads : List Nat) (a : Fin 4) (f : Core → Core) (s : State) :
    (accInstr core reads a f s).pending = s.pending :=
  runInstr_pending _ _ _ _ _ _ (fun _ _ => rfl)
theorem doSlot_pending (w : Nat) (sl : Slot) (orig c : Core) (s : State) {x} (h : doSlot w sl orig c s = .ok x) :
    x.s.pending = s.pending := by
  unfold doSlot at h
  split at h
  · cases h
  · next e he =>
    rw [← resolve_pending _ _ _ he]
    split at h
    · cases h
    · cases sl with
      | fetch m => cases h; rfl
      | load m d =>
        dsimp only at h
        split at h <;> cases h
        rfl
      | store m d =>
        dsimp only at h
        split at h <;> cases h
        exact fresh_pending _
@[simp] theorem bundleMove_pending (mv : Option (SReg × SReg)) (b : Bundle) (regs : List (Fin 16 × U32)) (orig c : Core) (s : State) :
    (bundleMove mv b regs orig c s).2.pending = s.pending := by
  unfold bundleMove
  split <;> simp [*]
theorem bundleEffect_exWaiting (m : MacOp) (sub : Bool) (n : Nat) (b : Bundle) (c : Core) (s : State) :
    exWaiting s.pending (bundleEffect m sub n b c s) = s.pending := by
  unfold bundleEffect
  split
  · rfl
  · split
    · rfl
    · next o1 h1 =>
      split
      · rfl
      · next o2 h2 =>
        rw [← doSlot_pending _ _ _ _ _ h1, ← doSlot_pending _ _ _ _ _ h2]
        simp
@[simp] theorem bundle_pending (m : MacOp) (sub : Bool) (core : CoreNo) (b : Bundle) (s : State) :
    (bundle m sub core b s).pending = s.pending :=
  runInstr_pending _ _ _ _ _ _ (fun c t => bundleEffect_exWaiting m sub core.toNat b c t)
theorem openLoop_exWaiting (count : Count) (first last : U32) (rep : Bool) (c : Core) (s : State) :
    exWaiting s.pending (openLoop count first last rep c s) = s.pending := by
  unfold openLoop
  extract_lets n immZero
  (repeat' split) <;> rfl
@[simp] theorem doXfer_pending (n : Nat) (q : CoreXfer) (s : State) : (doXfer n q s).pending = s.pending := by
  unfold doXfer
  extract_lets c cl count
  have hc : ∀ k t, (count k t).pending = t.pending := fun k t => bumpBy_pending _ _ _
  cases q with
  | dma op =>
    dsimp only
    split
    · rw [hc]
      split <;> simp
    · rw [hc]
      split <;> split <;> simp
  | out b a len =>
    dsimp only
    split
    · exact hc _ _
    · split
      · exact hc _ _
      · split
        · exact hc _ _
        · split
          next u hu => rw [ringWrite_pending _ _ _ _ _ hu, hc]
          next => rw [setKern_pending, hc]

/-! ### The instructions of the Sorrel cores -/

@[simp] theorem execDmac32_waiting (core : CoreNo) (b : Bundle) (s : State) : waiting (execDmac32 core b s) = s.pending := by simp [execDmac32]
@[simp] theorem execQmac16_waiting (core : CoreNo) (b : Bundle) (s : State) : waiting (execQmac16 core b s) = s.pending := by simp [execQmac16]
@[simp] theorem execMac32_waiting (core : CoreNo) (b : Bundle) (s : State) : waiting (execMac32 core b s) = s.pending := by simp [execMac32]
@[simp] theorem execDmac16_waiting (core : CoreNo) (b : Bundle) (s : State) : waiting (execDmac16 core b s) = s.pending := by simp [execDmac16]
@[simp] theorem execMsu_waiting (core : CoreNo) (op : MacOp) (b : Bundle) (s : State) : waiting (execMsu core op b s) = s.pending := by
  simp [execMsu]
@[simp] theorem execTapmv_waiting (core : CoreNo) (acc : Fin 4) (i : Fin 8) (ov : OvMode) (s : State) :
    waiting (execTapmv core acc i ov s) = s.pending := by
  refine runInstr_pending _ _ _ _ _ _ (fun c t => ?_)
  dsimp only
  (repeat' split) <;> rfl
@[simp] theorem execMacr_waiting (core : CoreNo) (acc : Fin 4) (a b : Fin 16) (sign : MacSign) (ov : OvMode) (s : State) :
    waiting (execMacr core acc a b sign ov s) = s.pending := by
  simp [execMacr]
@[simp] theorem execMsur_waiting (core : CoreNo) (acc : Fin 4) (a b : Fin 16) (sign : MacSign) (ov : OvMode) (s : State) :
    waiting (execMsur core acc a b sign ov s) = s.pending := by
  simp [execMsur]
@[simp] theorem execAdda_waiting (core : CoreNo) (dst src : Fin 4) (ov : OvMode) (s : State) :
    waiting (execAdda core dst src ov s) = s.pending := by
  simp [execAdda]
@[simp] theorem execSuba_waiting (core : CoreNo) (dst src : Fin 4) (ov : OvMode) (s : State) :
    waiting (execSuba core dst src ov s) = s.pending := by
  simp [execSuba]
@[simp] theorem execNega_waiting (core : CoreNo) (acc : Fin 4) (ov : OvMode) (s : State) : waiting (execNega core acc ov s) = s.pending := by
  simp [execNega]
@[simp] theorem execAbsa_waiting (core : CoreNo) (acc : Fin 4) (ov : OvMode) (s : State) : waiting (execAbsa core acc ov s) = s.pending := by
  simp [execAbsa]
@[simp] theorem execSha_waiting (core : CoreNo) (acc : Fin 4) (left : Bool) (n : BitVec 6) (ov : OvMode) (s : State) :
    waiting (execSha core acc left n ov s) = s.pending := by
  simp [execSha]
@[simp] theorem execClra_waiting (core : CoreNo) (accs : List (Fin 4)) (s : State) : waiting (execClra core accs s) = s.pending := by
  refine runInstr_pending _ _ _ _ _ _ (fun c t => ?_)
  split <;> rfl
@[simp] theorem execExp_waiting (core : CoreNo) (d : Fin 16) (acc : Fin 4) (s : State) : waiting (execExp core d acc s) = s.pending :=
  runInstr_pending _ _ _ _ _ _ (fun _ _ => rfl)
@[simp] theorem execExpd_waiting (core : CoreNo) (d a : Fin 16) (s : State) : waiting (execExpd core d a s) = s.pending :=
  runInstr_pending _ _ _ _ _ _ (fun _ _ => rfl)
@[simp] theorem execNorm_waiting (core : CoreNo) (acc : Fin 4) (d : Fin 16) (ov : OvMode) (s : State) :
    waiting (execNorm core acc d ov s) = s.pending :=
  runInstr_pending _ _ _ _ _ _ (fun _ _ => rfl)
@[simp] theorem execSac_waiting (core : CoreNo) (m : AMode) (acc : Fin 4) (shift : BitVec 6) (rnd : Rnd) (half : Bool) (s : State) :
    waiting (execSac core m acc shift rnd half s) = s.pending := by
  refine runInstr_pending _ _ _ _ _ _ (fun c t => ?_)
  split
  · rfl
  · next e he =>
    dsimp only
    split
    · rfl
    · exact resolve_pending _ _ _ he
@[simp] theorem execMva_waiting (core : CoreNo) (d : Fin 16) (acc : Fin 4) (shift : BitVec 6) (rnd : Rnd) (half : Bool) (s : State) :
    waiting (execMva core d acc shift rnd half s) = s.pending :=
  runInstr_pending _ _ _ _ _ _ (fun _ _ => rfl)
@[simp] theorem execAdd_waiting (core : CoreNo) (d a b : Fin 16) (s : State) : waiting (execAdd core d a b s) = s.pending := by simp [execAdd]
@[simp] theorem execSub_waiting (core : CoreNo) (d a b : Fin 16) (s : State) : waiting (execSub core d a b s) = s.pending := by simp [execSub]
@[simp] theorem execAddi_waiting (core : CoreNo) (d a : Fin 16) (imm : U32) (s : State) : waiting (execAddi core d a imm s) = s.pending := by
  simp [execAddi]
@[simp] theorem execAndD_waiting (core : CoreNo) (d a b : Fin 16) (s : State) : waiting (execAndD core d a b s) = s.pending := by simp [execAndD]
@[simp] theorem execOrD_waiting (core : CoreNo) (d a b : Fin 16) (s : State) : waiting (execOrD core d a b s) = s.pending := by simp [execOrD]
@[simp] theorem execXorD_waiting (core : CoreNo) (d a b : Fin 16) (s : State) : waiting (execXorD core d a b s) = s.pending := by simp [execXorD]
@[simp] theorem execNotD_waiting (core : CoreNo) (d a : Fin 16) (s : State) : waiting (execNotD core d a s) = s.pending := by simp [execNotD]
@[simp] theorem execShl_waiting (core : CoreNo) (d a : Fin 16) (b : Src2) (s : State) : waiting (execShl core d a b s) = s.pending := by
  simp [execShl]
@[simp] theorem execShr_waiting (core : CoreNo) (d a : Fin 16) (b : Src2) (s : State) : waiting (execShr core d a b s) = s.pending := by
  simp [execShr]
@[simp] theorem execSar_waiting (core : CoreNo) (d a : Fin 16) (b : Src2) (s : State) : waiting (execSar core d a b s) = s.pending := by
  simp [execSar]
@[simp] theorem execRot_waiting (core : CoreNo) (d a : Fin 16) (b : Src2) (s : State) : waiting (execRot core d a b s) = s.pending := by
  simp [execRot]
@[simp] theorem execMin_waiting (core : CoreNo) (d a b : Fin 16) (s : State) : waiting (execMin core d a b s) = s.pending := by simp [execMin]
@[simp] theorem execMax_waiting (core : CoreNo) (d a b : Fin 16) (s : State) : waiting (execMax core d a b s) = s.pending := by simp [execMax]
@[simp] theorem execAbs_waiting (core : CoreNo) (d a : Fin 16) (s : State) : waiting (execAbs core d a s) = s.pending := by simp [execAbs]
@[simp] theorem execCmp_waiting (core : CoreNo) (a : Fin 16) (b : Src2) (s : State) : waiting (execCmp core a b s) = s.pending :=
  runInstr_pending _ _ _ _ _ _ (fun _ _ => rfl)
@[simp] theorem execSel_waiting (core : CoreNo) (cond : Cond) (d a b : Fin 16) (s : State) : waiting (execSel core cond d a b s) = s.pending := by
  simp [execSel]
@[simp] theorem execMul_waiting (core : CoreNo) (d a b : Fin 16) (s : State) : waiting (execMul core d a b s) = s.pending :=
  runInstr_pending _ _ _ _ _ _ (fun _ _ => rfl)
@[simp] theorem execMulh_waiting (core : CoreNo) (d a b : Fin 16) (s : State) : waiting (execMulh core d a b s) = s.pending :=
  runInstr_pending _ _ _ _ _ _ (fun _ _ => rfl)
@[simp] theorem execDivs_waiting (core : CoreNo) (d a b : Fin 16) (s : State) : waiting (execDivs core d a b s) = s.pending :=
  runInstr_pending _ _ _ _ _ _ (fun _ _ => rfl)
@[simp] theorem execFadd_waiting (core : CoreNo) (d a b : Fin 16) (s : State) : waiting (execFadd core d a b s) = s.pending := by simp [execFadd]
@[simp] theorem execFsub_waiting (core : CoreNo) (d a b : Fin 16) (s : State) : waiting (execFsub core d a b s) = s.pending := by simp [execFsub]
@[simp] theorem execFmul_waiting (core : CoreNo) (d a b : Fin 16) (s : State) : waiting (execFmul core d a b s) = s.pending := by simp [execFmul]
@[simp] theorem execFma_waiting (core : CoreNo) (d a b c : Fin 16) (s : State) : waiting (execFma core d a b c s) = s.pending := by simp [execFma]
@[simp] theorem execFmin_waiting (core : CoreNo) (d a b : Fin 16) (s : State) : waiting (execFmin core d a b s) = s.pending := by simp [execFmin]
@[simp] theorem execFmax_waiting (core : CoreNo) (d a b : Fin 16) (s : State) : waiting (execFmax core d a b s) = s.pending := by simp [execFmax]
@[simp] theorem execFabs_waiting (core : CoreNo) (d a : Fin 16) (s : State) : waiting (execFabs core d a s) = s.pending := by simp [execFabs]
@[simp] theorem execFneg_waiting (core : CoreNo) (d a : Fin 16) (s : State) : waiting (execFneg core d a s) = s.pending := by simp [execFneg]
@[simp] theorem execFcmp_waiting (core : CoreNo) (a b : Fin 16) (s : State) : waiting (execFcmp core a b s) = s.pending :=
  runInstr_pending _ _ _ _ _ _ (fun c t => fCmp_pending (getD c a) (getD c b) c t)
@[simp] theorem execFcvt_waiting (core : CoreNo) (k : Cvt) (d a : Fin 16) (s : State) : waiting (execFcvt core k d a s) = s.pending := by
  simp [execFcvt]
@[simp] theorem execFrcp_waiting (core : CoreNo) (d a : Fin 16) (s : State) : waiting (execFrcp core d a s) = s.pending := by simp [execFrcp]
@[simp] theorem execFrsq_waiting (core : CoreNo) (d a : Fin 16) (s : State) : waiting (execFrsq core d a s) = s.pending := by simp [execFrsq]
@[simp] theorem loadInstr_pending (core : CoreNo) (w : Nat) (dualOnly : Bool) (m : AMode) (put : U64 → Core → Core) (s : State) :
    (loadInstr core w dualOnly m put s).pending = s.pending := by
  refine runInstr_pending _ _ _ _ _ _ (fun c t => ?_)
  split
  · rfl
  · split
    · rfl
    · next e he =>
      split
      · rfl
      · exact resolve_pending _ _ _ he
@[simp] theorem storeInstr_pending (core : CoreNo) (reads : List Nat) (w : Nat) (dualOnly : Bool) (m : AMode) (v : Core → U64) (s : State) :
    (storeInstr core reads w dualOnly m v s).pending = s.pending := by
  refine runInstr_pending _ _ _ _ _ _ (fun c t => ?_)
  split
  · rfl
  · split
    · rfl
    · next e he =>
      split
      · rfl
      · exact resolve_pending _ _ _ he
@[simp] theorem execLd_waiting (core : CoreNo) (d : Fin 16) (sz : Size) (signed : Bool) (m : AMode) (s : State) :
    waiting (execLd core d sz signed m s) = s.pending := by
  simp [execLd]
@[simp] theorem execSt_waiting (core : CoreNo) (m : AMode) (d : Fin 16) (sz : Size) (s : State) : waiting (execSt core m d sz s) = s.pending := by
  simp [execSt]
@[simp] theorem execLd64_waiting (core : CoreNo) (d : Fin 8) (m : AMode) (s : State) : waiting (execLd64 core d m s) = s.pending := by
  simp [execLd64]
@[simp] theorem execSt64_waiting (core : CoreNo) (m : AMode) (d : Fin 8) (s : State) : waiting (execSt64 core m d s) = s.pending := by
  simp [execSt64]
@[simp] theorem countSram_pending (n conf : Nat) (s : State) : (countSram n conf s).pending = s.pending := by simp [countSram]
@[simp] theorem execLdc_waiting (core : CoreNo) (d : Fin 16) (m : AMode) (conflicts : BitVec 3) (s : State) :
    waiting (execLdc core d m conflicts s) = s.pending := by
  refine runInstr_pending _ _ _ _ _ _ (fun c t => ?_)
  split
  · rfl
  · next e he =>
    split
    · rfl
    · simp [resolve_pending _ _ _ he]
@[simp] theorem execStc_waiting (core : CoreNo) (m : AMode) (d : Fin 16) (conflicts : BitVec 3) (s : State) :
    waiting (execStc core m d conflicts s) = s.pending := by
  refine runInstr_pending _ _ _ _ _ _ (fun c t => ?_)
  split
  · rfl
  · next e he =>
    split
    · rfl
    · simp [resolve_pending _ _ _ he]
@[simp] theorem execMovi_waiting (core : CoreNo) (r : SReg) (imm : U32) (s : State) : waiting (execMovi core r imm s) = s.pending :=
  runInstr_pending _ _ _ _ _ _ (fun _ _ => rfl)
@[simp] theorem execModi_waiting (core : CoreNo) (i : Fin 8) (step : Src2) (s : State) : waiting (execModi core i step s) = s.pending :=
  runInstr_pending _ _ _ _ _ _ (fun c t => stepPtr_pending i (src2 c step).toInt c t)
@[simp] theorem execMov_waiting (core : CoreNo) (dst src : SReg) (s : State) : waiting (execMov core dst src s) = s.pending :=
  runInstr_pending _ _ _ _ _ _ (fun _ _ => rfl)
@[simp] theorem execB_waiting (core : CoreNo) (target : U32) (s : State) : waiting (execB core target s) = s.pending :=
  runInstr_pending _ _ _ _ _ _ (fun _ _ => rfl)
@[simp] theorem execBcc_waiting (core : CoreNo) (cond : Cond) (target : U32) (s : State) : waiting (execBcc core cond target s) = s.pending := by
  refine runInstr_pending _ _ _ _ _ _ (fun c t => ?_)
  split <;> rfl
@[simp] theorem execCall_waiting (core : CoreNo) (target : U32) (s : State) : waiting (execCall core target s) = s.pending := by
  refine runInstr_pending _ _ _ _ _ _ (fun c t => ?_)
  split <;> rfl
@[simp] theorem execRet_waiting (core : CoreNo) (s : State) : waiting (execRet core s) = s.pending := by
  refine runInstr_pending _ _ _ _ _ _ (fun c t => ?_)
  split <;> rfl
@[simp] theorem execLoop_waiting (core : CoreNo) (count : Count) (last : U32) (s : State) : waiting (execLoop core count last s) = s.pending :=
  runInstr_pending _ _ _ _ _ _ (fun _ _ => openLoop_exWaiting _ _ _ _ _ _)
@[simp] theorem execRep_waiting (core : CoreNo) (count : Count) (s : State) : waiting (execRep core count s) = s.pending :=
  runInstr_pending _ _ _ _ _ _ (fun _ _ => openLoop_exWaiting _ _ _ _ _ _)
@[simp] theorem execDmaq_waiting (core : CoreNo) (op : DmaqOp) (s : State) : waiting (execDmaq core op s) = s.pending := by
  rw [execDmaq, waiting_next]
  split
  · rfl
  · refine runInstr_pending _ _ _ _ _ _ (fun c t => ?_)
    extract_lets len inScratch
    (repeat' split) <;> rfl
@[simp] theorem execOutq_waiting (core : CoreNo) (binding : BitVec 4) (localAddr : BitVec 24) (bytes : BitVec 17) (s : State) :
    waiting (execOutq core binding localAddr bytes s) = s.pending := by
  rw [execOutq, waiting_next]
  split
  · rfl
  · refine runInstr_pending _ _ _ _ _ _ (fun c t => ?_)
    extract_lets len out
    (repeat' split) <;> rfl
@[simp] theorem execWaitd_waiting (core : CoreNo) (n : BitVec 5) (s : State) : waiting (execWaitd core n s) = s.pending := by
  rw [execWaitd, waiting_next]
  split
  · rfl
  · exact runInstr_pending _ _ _ _ _ _ (fun _ _ => rfl)
@[simp] theorem execDmaTransferDone_waiting (core : CoreNo) (s : State) : waiting (execDmaTransferDone core s) = s.pending := by
  unfold execDmaTransferDone
  dsimp only [waiting]
  (repeat' split) <;> simp [*]
@[simp] theorem execMvccr_waiting (core : CoreNo) (d : Fin 16) (s : State) : waiting (execMvccr core d s) = s.pending := by
  refine runInstr_pending _ _ _ _ _ _ (fun c t => ?_)
  dsimp only
  split <;> rfl
@[simp] theorem execNop_waiting (core : CoreNo) (s : State) : waiting (execNop core s) = s.pending :=
  runInstr_pending _ _ _ _ _ _ (fun _ _ => rfl)
@[simp] theorem execDone_waiting (core : CoreNo) (s : State) : waiting (execDone core s) = s.pending := by
  unfold execDone
  extract_lets t
  have ht : t.pending = s.pending := runInstr_pending _ _ _ _ _ _ (fun _ _ => rfl)
  rw [waiting_next]
  split
  · rw [endRun_pending, ht]
  · exact ht
@[simp] theorem execBudgetFault_waiting (core : CoreNo) (s : State) : waiting (execBudgetFault core s) = s.pending := by
  unfold execBudgetFault
  dsimp only [waiting]
  (repeat' split) <;> simp [*]

/-! ### LONG_COMMAND_TIMEOUT -/

@[simp] theorem timeoutCapJob_pending (id : Nat) (s : State) : (timeoutCapJob id s).pending = s.pending := by
  unfold timeoutCapJob
  (repeat' split) <;> simp [*]
@[simp] theorem timeoutImage_pending (id : Nat) (s : State) : (timeoutImage id s).pending = s.pending := by
  unfold timeoutImage
  split <;> simp [*]
@[simp] theorem timeoutOtp_pending (id : Nat) (s : State) : (timeoutOtp id s).pending = s.pending := by
  unfold timeoutOtp
  split <;> simp [*]
@[simp] theorem timeoutSeal_pending (id : Nat) (s : State) : (timeoutSeal id s).pending = s.pending := by
  unfold timeoutSeal
  split <;> simp [*]
@[simp] theorem timeoutLoad_pending (id : Nat) (s : State) : (timeoutLoad id s).pending = s.pending := by
  unfold timeoutLoad
  split <;> simp [*]
@[simp] theorem timeoutAnn_pending (id : Nat) (s : State) : (timeoutAnn id s).pending = s.pending := by
  unfold timeoutAnn
  (repeat' split) <;> simp [*]
@[simp] theorem timeoutLeaves_pending (opcode id : Nat) (s : State) : (timeoutLeaves opcode id s).pending = s.pending := by
  unfold timeoutLeaves
  split <;> simp [*]
@[simp] theorem execLongCommandTimeout_waiting (cmd : U32) (s : State) : waiting (execLongCommandTimeout cmd s) = s.pending := by
  unfold execLongCommandTimeout
  dsimp only [waiting]
  (repeat' split) <;> simp [*]

/-! ### Every command -/

theorem exec_waiting (c : Instr) (s : State) : waiting (exec c s) = s.pending := by
  cases c <;> simp [exec]

/-- Settles O58: each command's meaning leaves the commands that wait as they stood. -/
theorem commandsLeaveTheQueue : Obligations.CommandsLeaveTheQueue := by
  intro c s t h
  have hw := exec_waiting c s
  rwa [h] at hw

end Sys2Proof.Machine
